-- ==== Sys2Proof/Word.lean ====
section
/-!
DEFINITION. The word types of the block: 32-bit registers (R10), bytes, 64-bit quantities held as register pairs (R13), and
the sparse stores in which the state holds what is keyed by an index or an address.
-/
namespace Sys2Proof

/-- A register word (R10). -/
abbrev Word := BitVec 32

/-- A byte. -/
abbrev Byte := BitVec 8

/-- A sparse table from keys to values: pairs in strictly rising order of key, none holding the value an unlisted key has.
Which value that is belongs to the table, and every reader and writer of it names it. -/
abbrev Store (α : Type) := List (Nat × α)

/-- A point of device time, in units of 2^-16 ns, the visible fraction of R134. -/
abbrev Stamp := Nat

end Sys2Proof
end

