-- ==== Sys2Proof/Message.lean ====
section
/-!
DEFINITION. What the commands carry: the messages, flits and events of the block's surroundings, as plain data.
-/
namespace Sys2Proof

/-- The symbols of a Selvedge word that are not as they were encoded: position in the code word, as the power of x of R320
(0 to 3 check symbols, 4 to 35 data, 36 to 38 the tag), and the difference. -/
abbrev SymbolErrors := List (Nat × Byte)

/-- What a read of an object shows: the symbols that are wrong, by word of the range read, and the pages of a durable record that LDPC
does not decode (R321, R324). -/
structure ReadErrors where
  words : List (Nat × SymbolErrors)
  undecoded : List Nat
  deriving DecidableEq, Repr

/-- A message at a data crossing (R68, R74, R322): its lane and ends, the flits it has, those that have arrived, whether it is a
request that expects a response, the number of the request that it answers, the links of its route with the wait it met at each,
and the errors its flit halves show at the receiving port. -/
structure CrossingMessage where
  source : Fin 48
  destination : Fin 48
  lane : Fin 4
  number : Nat
  flits : Nat
  arrived : Nat
  expectsResponse : Bool
  answers : Option Nat
  links : List (Fin 64 × Nat)
  halves : List (Nat × SymbolErrors)
  deriving DecidableEq, Repr

/-- What a time tap records of an event (R138): the tick count of its replica counter, and the phase of the 500 MHz clock, of eight,
in which the event fell. -/
structure Tap where
  tick : Nat
  phase : Fin 8
  deriving DecidableEq, Repr

/-- The taps of a Pdelay_Req and of the delimiter with which its Pdelay_Resp leaves (R159). -/
structure PdelayTaps where
  request : Tap
  response : Tap
  deriving DecidableEq, Repr

/-- A gPTP Sync as a port receives it (R142). Times in 2^-16 ns; `rateOffset` is the grandmaster rate ratio less one in
units of 2^-41, as the Follow_Up information carries it. -/
structure SyncMessage where
  twoStep : Bool
  domain : Nat
  grandmaster : Nat
  sequence : Nat
  origin : Nat
  correction : Int
  logInterval : Int
  rateOffset : Int
  tap : Tap
  deriving DecidableEq, Repr

/-- A gPTP Follow_Up (R142). -/
structure FollowUpMessage where
  domain : Nat
  grandmaster : Nat
  sequence : Nat
  origin : Nat
  correction : Int
  rateOffset : Int
  deriving DecidableEq, Repr

/-- A gPTP Announce as the best master clock algorithm reads it (R158): the priority vector of IEEE 802.1AS, whose
first six parts make the grandmaster's system identity. -/
structure AnnounceMessage where
  domain : Nat
  priority1 : Nat
  clockClass : Nat
  accuracy : Nat
  variance : Nat
  priority2 : Nat
  grandmaster : Nat
  stepsRemoved : Nat
  sourcePort : Nat
  /-- logMessageInterval: the interval at which the grandmaster sends its Announces. -/
  logInterval : Int
  deriving DecidableEq, Repr

/-- A fault report (R551). -/
structure FaultReport where
  cause : Nat
  source : Nat
  detail : Word
  time : Stamp
  deriving DecidableEq, Repr

/-- A lane-1 flit of the fault tree (R553). -/
inductive FaultFlit where
  | report (r : FaultReport)
  | summary (cause : Nat) (count : Nat)
  | close (cause : Nat)
  deriving DecidableEq, Repr

/-- The supplies of Table 18.1. -/
inductive Rail where
  | vddCore | vddSram | vddq | vdd1v2 | vdd1v8
  deriving DecidableEq, Repr

/-- The ports that take a port reset (R79). -/
inductive ResetPort where
  | eth (m : Fin 2)
  | csiRx (n : Fin 12)
  | csiTx (n : Fin 4)
  deriving DecidableEq, Repr

/-- What the header code of a CSI-2 packet finds (R199): no error, a corrected one, or one it cannot correct. -/
inductive HeaderVerdict where
  | clean | corrected | uncorrectable
  deriving DecidableEq, Repr

end Sys2Proof
end

