-- ==== Sys2Proof/Syntax.lean ====
section
/-!
DEFINITION. The commands of the block, one constructor per row of the table, in its order, with what each carries.
-/
namespace Sys2Proof

/-- A command: an access of a register, an operation of a bus or protocol, an event on a pin, or the end of a unit of one
of the engines' work. -/
inductive Instr where
  /-- REGISTER_WRITE: a host write to a register without a row of its own. -/
  | registerWrite (port : Nat) (addr data : Word)
  /-- REGISTER_LO_WRITE: a write to the _LO word of a pair. -/
  | registerLoWrite (port : Nat) (addr data : Word)
  /-- REGISTER_HI_WRITE: a write to the _HI word of a pair. -/
  | registerHiWrite (port : Nat) (addr data : Word)
  /-- REGISTER_LO_READ: a read of the _LO word of a pair. -/
  | registerLoRead (port : Nat) (addr : Word)
  /-- REGISTER_HI_READ: a read of the _HI word of a pair. -/
  | registerHiRead (port : Nat) (addr : Word)
  /-- TIME_NOW_SEC_LO_READ: a read of TIME_NOW_SEC_LO. -/
  | timeNowSecLoRead (port : Nat)
  /-- ATTEST_WIN_DATA_READ: a read of ATTEST_WIN_DATA. -/
  | attestWinDataRead (port : Nat)
  /-- FAULT_LOG_DATA_READ: a read of FAULT_LOG_DATA. -/
  | faultLogDataRead (port : Nat)
  /-- SW_RESET: a write to SW_RESET. -/
  | swReset (data : Word)
  /-- SWATCH_RESET_REQUEST: a reset request for the group of a swatch, with its Table 2.11 cause. -/
  | swatchResetRequest (swatch : Fin 48) (cause : Fin 4)
  /-- SWATCH_SRAM_CLEARED: a group's SRAM clear completes. -/
  | swatchSramCleared (group : Fin 44)
  /-- SWATCH_RESET_RELEASE: a group's crossings are released. -/
  | swatchResetRelease (group : Fin 44)
  /-- SWATCH_RESTORE_DONE: a group's data records are restored. -/
  | swatchRestoreDone (group : Fin 44)
  /-- PLL_UNLOCK: a PLL loses lock: 0 SYS, 1 ARITH, 2 IO, 3 TIME. -/
  | pllUnlock (pll : Fin 4)
  /-- PLL_TIME_RELOCK: PLL_TIME relocks. -/
  | pllTimeRelock
  /-- EVENT_CROSSING_PULSE: a pulse at an event crossing that has delivered `drained` of its pending events since the last pulse. -/
  | eventCrossingPulse (crossing : Fin 70) (drained : Nat)
  /-- DATA_CROSSING_MESSAGE: a message comes to a data crossing. -/
  | dataCrossingMessage (msg : CrossingMessage)
  /-- FUSE_SENSE_DONE: fuse sensing: the array's own check, and the raw readings of sensors 0 to 7 in 1/16 °C. -/
  | fuseSenseDone (arrayOk : Bool) (raw : List Int)
  /-- PLL_SYS_LOCKED: PLL_SYS locks. -/
  | pllSysLocked
  /-- PLL_IO_TIME_LOCKED: PLL_IO and PLL_TIME lock. -/
  | pllIoTimeLocked
  /-- FLASH_MODE_READY: the flash is in 8D-8D-8D mode, with the density in bytes that SFDP gives, or has failed. -/
  | flashModeReady (density : Nat) (ok : Bool)
  /-- SLOT_HEADERS_READ: the first 4 KiB of both slots. -/
  | slotHeadersRead (a b : List Byte) (ok : Bool)
  /-- SIGNATURE_VERIFIED: the signature block, slot bytes 0x1000 to 0x24FF, and the end of both verifications. -/
  | signatureVerified (block : List Byte) (ok : Bool)
  /-- SECTION_READ: the next section's bytes. -/
  | sectionRead (bytes : List Byte) (ok : Bool)
  /-- PLL_ARITH_LOCKED: PLL_ARITH locks. -/
  | pllArithLocked
  /-- MEM_TRAINING_DONE: LPDDR5X training ends. -/
  | memTrainingDone (ok : Bool)
  /-- RESIDENCY_ANALYSIS_DONE: a solver core ends its analysis of a slot. -/
  | residencyAnalysisDone (core : Fin 2) (slot : Fin 8)
  /-- CAST_ON_LOCK: cast-on lock, with the µs of REFCLK since the reset ended. -/
  | castOnLock (us : Nat)
  /-- ROLLBACK_COMMIT: a write to ROLLBACK_COMMIT. -/
  | rollbackCommit (data : Word)
  /-- FUSE_BIT_BLOWN: the fuse bit being blown is read back, as blown or not. -/
  | fuseBitBlown (reads : Bool)
  /-- PROGRAM: a write to FUSE_PROG_CTRL with PROGRAM set. -/
  | program (data : Word)
  /-- LOCK_KEYS: a write to FUSE_PROG_CTRL with LOCK_KEYS set. -/
  | lockKeys (data : Word)
  /-- ATTEST_START: a write to ATTEST_CTRL. -/
  | attestStart (data : Word)
  /-- ATTEST_DONE: the attestation report is signed. -/
  | attestDone
  /-- BIND_OFF_REQUEST: a write to BIND_OFF_CTRL. -/
  | bindOffRequest (data : Word)
  /-- BIND_OFF_NAND_DRAINED: NAND programs and erases in progress at bind-off complete. -/
  | bindOffNandDrained
  /-- BIND_OFF_COMPLETE: the last step of bind-off. -/
  | bindOffComplete
  /-- LOOP_START: the first boundary of the Class A loop. -/
  | loopStart
  /-- PERIOD_BOUNDARY: the next boundary of the Class A grid. -/
  | periodBoundary
  /-- INPUT_CUTOFF: the input cut-off of the period. -/
  | inputCutoff
  /-- IMU_PROPAGATION_DONE: the period's preintegrated terms are published. -/
  | imuPropagationDone
  /-- ESTIMATOR_UPDATE_DONE: the Class A estimator update ends. -/
  | estimatorUpdateDone
  /-- SOLVER_DEADLINE: the solver deadline of the period. -/
  | solverDeadline
  /-- FRAME_BUILD: the actuator frames are built, the last entering its queue `readyNs` after the cut-off. -/
  | frameBuild (readyNs : Nat)
  /-- LAUNCH_HANDOFF: launch time less 1.5 µs of the head entry. -/
  | launchHandoff (eth : Fin 2)
  /-- LAUNCH_EGRESS: the delimiter of the frame passed to the MAC leaves, at tap time `tap`. -/
  | launchEgress (eth : Fin 2) (tap : Tap)
  /-- SYNC_RECEIVED: a Sync message arrives. -/
  | syncReceived (eth : Fin 2) (msg : SyncMessage)
  /-- TIME_STEP: the tick after the Sync that takes the armed step. -/
  | timeStep
  /-- SYNC_TIMEOUT: three advertised Sync intervals without a usable Sync. -/
  | syncTimeout
  /-- FREE_RUN_TIMEOUT: FREE_RUN_S seconds after lock without a usable Sync. -/
  | freeRunTimeout
  /-- ANNOUNCE_RECEIVED: an Announce message arrives. -/
  | announceReceived (eth : Fin 2) (msg : AnnounceMessage)
  /-- REARM: a write to TIME_CTRL. -/
  | rearm (data : Word)
  /-- TIME_RATE_WRITE: a write to TIME_RATE. -/
  | timeRateWrite (data : Word)
  /-- PDELAY_REQ_TIMER: a port's peer delay interval elapses. -/
  | pdelayReqTimer (eth : Fin 2)
  /-- PDELAY_EXCHANGE_DONE: a peer delay exchange ends: meanLinkDelay in 2^-16 ns, the neighbour rate ratio less one in 2^-16 ppm. -/
  | pdelayExchangeDone (eth : Fin 2) (completed : Bool) (delay : Nat) (nrr : Int)
  /-- PDELAY_REQ_RECEIVED: a Pdelay_Req arrives from port identity `requester`, with its tap and that of the Pdelay_Resp. -/
  | pdelayReqReceived (eth : Fin 2) (requester : Nat) (sequence : Nat) (taps : PdelayTaps)
  /-- ETH_FRAME_RECEIVED: a frame arrives, from its destination address to its last byte before the FCS. -/
  | ethFrameReceived (eth : Fin 2) (frame : List Byte) (fcsOk : Bool) (tap : Tap)
  /-- FRAME_FORWARD_EGRESS: the next bridged frame leaves port `eth`. -/
  | frameForwardEgress (eth : Fin 2) (tap : Tap)
  /-- ETH_LINK_CHANGE: the link comes up at a Table 4.10 speed, or is lost (0). -/
  | ethLinkChange (eth : Fin 2) (speed : Fin 5)
  /-- ETH_PORT_RESET: a write to ETH_CTRL. -/
  | ethPortReset (eth : Fin 2) (data : Word)
  /-- TOUT_CTRL_WRITE: a write to TOUT_CTRL_n. -/
  | toutCtrlWrite (tout : Fin 16) (data : Word)
  /-- TOUT_EDGE: the next programmed edge of an output falls due. -/
  | toutEdge (tout : Fin 16)
  /-- TIN_EDGE: an edge at a capture input, the pulse lasting `width` ns. -/
  | tinEdge (tin : Fin 4) (rising : Bool) (width : Nat) (tap : Tap)
  /-- TIN_POP: a write to TIN_POP_n. -/
  | tinPop (tin : Fin 4) (data : Word)
  /-- CSI_FRAME_START: a frame start packet arrives, with its frame number, at tap `tap`. -/
  | csiFrameStart (port : Fin 12) (vc : Fin 16) (header : HeaderVerdict) (number : Nat) (tap : Tap)
  /-- CSI_LONG_PACKET: a long packet of data type `dt` arrives. -/
  | csiLongPacket (port : Fin 12) (vc : Fin 16) (dt : Nat) (header : HeaderVerdict) (payload : List Byte) (crcOk : Bool)
  /-- CSI_EMBEDDED_PACKET: an embedded data packet arrives. -/
  | csiEmbeddedPacket (port : Fin 12) (vc : Fin 16) (header : HeaderVerdict) (payload : List Byte) (crcOk : Bool)
  /-- CSI_FRAME_END: a frame end packet arrives, at tap `tap`. -/
  | csiFrameEnd (port : Fin 12) (vc : Fin 16) (header : HeaderVerdict) (tap : Tap)
  /-- CSI_PHY_ERROR: a PHY error at a receive port. -/
  | csiPhyError (port : Fin 12)
  /-- CSI_RX_PORT_RESET: a write to CSI_RX_CTRL_n. -/
  | csiRxPortReset (port : Fin 12) (data : Word)
  /-- INSTANT_ISSUE: the oldest open instant of a pair group falls due. -/
  | instantIssue (group : Fin 6)
  /-- CLAIM: CLAIM of a marker by an agent. -/
  | claim (marker : Fin 4096) (agent : BitVec 16)
  /-- ADVANCE: ADVANCE of a marker to a number of lines. -/
  | advance (marker : Fin 4096) (agent : BitVec 16) (lines : Nat)
  /-- PUBLISH: PUBLISH of a marker. -/
  | publish (marker : Fin 4096) (agent : BitVec 16)
  /-- ABANDON: ABANDON of a marker. -/
  | abandon (marker : Fin 4096) (agent : BitVec 16)
  /-- ACQUIRE: ACQUIRE of a generation and a progress. -/
  | acquire (marker : Fin 4096) (agent : BitVec 16) (gen lines : Nat)
  /-- RELEASE: RELEASE of a marker. -/
  | release (marker : Fin 4096) (agent : BitVec 16)
  /-- HOLD: HOLD of a marker. -/
  | hold (marker : Fin 4096) (agent : BitVec 16)
  /-- UNHOLD: UNHOLD of a marker. -/
  | unhold (marker : Fin 4096) (agent : BitVec 16)
  /-- ACTIVATION_DEADLINE: the deadline of a graph's activation comes. -/
  | activationDeadline (graph : Fin 8)
  /-- NODE_ISSUE: the sequencer comes to the next node of a graph. -/
  | nodeIssue (graph : Fin 8)
  /-- NODE_START: an engine (R235; 8 and 9 are SGM_0 and SGM_1) takes the first ready node of its queue. -/
  | nodeStart (engine : Fin 10)
  /-- ENGINE_UNIT_DONE: an engine ends a band or a job, after `ns` ns of work. -/
  | engineUnitDone (engine : Fin 8) (ns : Nat)
  /-- NODE_END: a node whose outputs are written, or which has failed, ends. -/
  | nodeEnd (graph : Fin 8) (node : Fin 64)
  /-- KEEP_RUN: an issued KEEP node whose input is published runs. -/
  | keepRun (graph : Fin 8) (node : Fin 64)
  /-- VERIFIER_JOB_SUBMIT: a verifier job of Table 6.14 comes from the place search (0) or the map task (1). -/
  | verifierJobSubmit (requester : Fin 2) (job : List Byte)
  /-- VERIFIER_JOB_DONE: the verifier ends its job after `ns` ns of work. -/
  | verifierJobDone (ns : Nat)
  /-- VERIFIER_DEADLINE: the deadline of the verifier's running job comes. -/
  | verifierDeadline
  /-- SGM_PASS_DONE: an SGM engine ends a pass of a strip after `ns` ns. -/
  | sgmPassDone (engine : Fin 2) (ns : Nat)
  /-- NEURAL_REQUEST_ARRIVE: an issued NEURAL node reaches the request queue. -/
  | neuralRequestArrive (graph : Fin 8) (node : Fin 64)
  /-- NEURAL_REQUEST_START: a dispatched request starts. -/
  | neuralRequestStart (graph : Fin 8) (node : Fin 64)
  /-- WEIGHT_CHUNK_LOADED: a core's next weight chunk is loaded, after `stallNs` ns of waiting for grants, with the errors its words show. -/
  | weightChunkLoaded (core : Fin 16) (stallNs : Nat) (errors : List (Nat × SymbolErrors))
  /-- NEURAL_STEP_DONE: every core of a request's group completes the present step after `ns` ns, with the errors its arena words show. -/
  | neuralStepDone (graph : Fin 8) (node : Fin 64) (ns : Nat) (errors : List (Nat × SymbolErrors))
  /-- NEURAL_REQUEST_END: a request whose last step is complete ends. -/
  | neuralRequestEnd (graph : Fin 8) (node : Fin 64)
  /-- PROMOTE: a mover request PROMOTE. -/
  | promote (holder : Fin 48) (object : Word) (tier : Fin 4) (pin : Bool)
  /-- EVICT: a mover request EVICT from a tier. -/
  | evict (holder : Fin 48) (object : Word) (tier : Fin 4)
  /-- WRITEBACK: a mover request WRITEBACK. -/
  | writeback (holder : Fin 48) (object : Word)
  /-- PIN: a mover request PIN. -/
  | pin (holder : Fin 48) (object : Word)
  /-- UNPIN: a mover request UNPIN. -/
  | unpin (holder : Fin 48) (object : Word)
  /-- MOVE_PAGE_COPIED: the next page of the move is copied, with the errors its source words show and whether a NAND program succeeded. -/
  | movePageCopied (errors : ReadErrors) (programmed : Bool)
  /-- MOVE_SWITCH: the move whose pages are copied switches the home. -/
  | moveSwitch
  /-- SPACE_MANAGER_EVICT: the space manager takes its next candidate in a tier. -/
  | spaceManagerEvict (tier : Fin 4)
  /-- OBJECT_ACCESS: a unit reads `length` bytes of an object, or writes data to it, with the errors that the words show. -/
  | objectAccess (unit : Fin 48) (object : Word) (offset length : Nat) (data : Option (List Byte)) (errors : ReadErrors)
  /-- PATROL_SCRUB_READ: the patrol scrub reads its next word, with the errors it shows. -/
  | patrolScrubRead (errors : SymbolErrors)
  /-- DIRECTORY_REBUILD_DONE: the tile directory is rebuilt. -/
  | directoryRebuildDone
  /-- TILE_REGION_RECLAIM: the tile region of a channel runs short of erased blocks. -/
  | tileRegionReclaim (channel : Fin 16)
  /-- MR4_POLL: the controller reads MR4. -/
  | mr4Poll (interface : Fin 2) (mr4 : BitVec 8)
  /-- IMU_SAMPLE_ARRIVE: the oldest sample an IMU has sent reaches TRACK. -/
  | imuSampleArrive (imu : Fin 4)
  /-- JOINT_FRAME_ARRIVE: the oldest joint frame a port has delivered reaches TRACK. -/
  | jointFrameArrive (eth : Fin 2)
  /-- FEATURE_UPDATE_DONE: a feature set's update ends. -/
  | featureUpdateDone (set : Fin 12)
  /-- TRACKING_UPDATE_DROP: an update of a set is still running at its deadline. -/
  | trackingUpdateDrop (object : Bool) (set : Fin 12)
  /-- OBJECT_UPDATE_DONE: an object set's update ends. -/
  | objectUpdateDone (set : Fin 8)
  /-- ASSIGNMENT_DONE: the assignment of a set's update is found, `us` µs after it began. -/
  | assignmentDone (set : Fin 8) (us : Nat)
  /-- LOAD: the map task asks for a slot of a core to be loaded from two static objects. -/
  | load (core : Fin 2) (slot : Fin 8) (descriptor values : Word)
  /-- LOAD_DONE: the load in progress ends. -/
  | loadDone
  /-- PROBLEM_SUBMIT: a task submits the 64 bytes of a request: 0 the window, 1 its marginalisation, 2 the map task. -/
  | problemSubmit (task : Fin 3) (request : List Byte)
  /-- PROBLEM_START: SOLV_1 is free for its next request. -/
  | problemStart
  /-- ASSEMBLY_DONE: the assembly a core runs ends, having taken `cycles`. -/
  | assemblyDone (core : Fin 2) (cycles : Nat)
  /-- FACTORISATION_DONE: the factorisation a core runs ends. -/
  | factorisationDone (core : Fin 2) (cycles : Nat)
  /-- SOLVE_DONE: the solve a core runs ends. -/
  | solveDone (core : Fin 2) (cycles : Nat)
  /-- PROOF_CHECK_DONE: the residual check of a new factor's first solve ends. -/
  | proofCheckDone (core : Fin 2) (cycles : Nat)
  /-- ITERATION_DONE: the iteration a core runs ends. -/
  | iterationDone (core : Fin 2) (cycles : Nat)
  /-- REFINE_STEP_DONE: a refinement step ends. -/
  | refineStepDone (core : Fin 2) (cycles : Nat)
  /-- FINAL_CHECK_DONE: the final check ends. -/
  | finalCheckDone (core : Fin 2) (cycles : Nat)
  /-- PROBLEM_DEADLINE: the deadline or stop time of a core's problem. -/
  | problemDeadline (core : Fin 2)
  /-- SOLV1_SUSPEND: SOLV_1 reaches a preemption point after the cut-off. -/
  | solv1Suspend
  /-- STOP_POINT_RECEIVED: SOLV_0's stop point reaches SOLV_1. -/
  | stopPointReceived
  /-- PAIR_COMPARE: both cores' Class A records are compared. -/
  | pairCompare
  /-- WINDOW_RUN: the window task takes its next track batch. -/
  | windowRun
  /-- POSE_NODE_CREATE: the map task makes a node of the next keyframe. -/
  | poseNodeCreate
  /-- POSE_GRAPH_BUILD: the map task builds its pose graph. -/
  | poseGraphBuild
  /-- POSE_GRAPH_RESULT: the map task takes the result of its pose graph. -/
  | poseGraphResult
  /-- NAND_CHANNEL_INIT_DONE: a channel's initialisation ends: whether its parts have the geometry, and the factory's bad blocks. -/
  | nandChannelInitDone (channel : Fin 16) (same : Bool) (marks : List Nat)
  /-- INDEX_EPOCH_LOAD_DONE: an index's active epoch is loaded, with the pages found uncorrectable. -/
  | indexEpochLoadDone (index : Fin 2) (bad : List Nat)
  /-- QUERY_SUBMIT: a query of Class C or Class D. -/
  | querySubmit (classC : Bool) (descriptor : List Byte)
  /-- QUERY_ADMIT: the front end looks at the head of its queue. -/
  | queryAdmit
  /-- COARSE_BATCH_DONE: a batch of the coarse stage ends. -/
  | coarseBatchDone
  /-- LIST_PAGE_READ: a read of a global page ends after some read retries and `ns` on the channel, with what LDPC and its words show. -/
  | listPageRead (channel : Fin 16) (region : Bool) (page retries ns : Nat) (ldpcOk : Bool) (errors : List (Nat × SymbolErrors))
  /-- QUERY_MERGE: the front end merges the first query whose contexts are all HELD. -/
  | queryMerge
  /-- QUERY_DEADLINE: the earliest deadline among Class C queries. -/
  | queryDeadline
  /-- PLACE_QUERY: the front end forms the next place query. -/
  | placeQuery
  /-- PLACE_VOTE: the queries of the place query have ended. -/
  | placeVote
  /-- INDEX_BEGIN: a BEGIN at the front of the import buffer. -/
  | indexBegin
  /-- INDEX_PAGE: a PAGE at the front of the import buffer, and whether its program fails. -/
  | indexPage (failed : Bool)
  /-- INDEX_END: an END at the front of the import buffer. -/
  | indexEnd
  /-- IMPORT_PINS_CLEAR: no query is pinned to the import's target. -/
  | importPinsClear
  /-- IMPORT_ERASE_DONE: the target is erased and its block table written, or a block of a channel has failed. -/
  | importEraseDone (failed : Option (Fin 16 × Nat))
  /-- IMPORT_COMMIT_DONE: the commit records are programmed and read back, or one has failed. -/
  | importCommitDone (failed : Option (Fin 16))
  /-- SRCH_PROBE_START: a write to SRCH_PROBE_CTRL. -/
  | srchProbeStart (data : Word)
  /-- PROBE_DONE: every query of the recall probe has ended. -/
  | probeDone
  /-- TRANSMIT_PUBLICATION: a stream takes up its oldest selected publication. -/
  | transmitPublication (stream : Fin 16)
  /-- TRANSMIT_PACKET_DONE: the packet on a port's wire ends. -/
  | transmitPacketDone (port : Fin 4)
  /-- TRANSMIT_CUT: the deadline of a disparity or depth payload. -/
  | transmitCut (stream : Fin 16)
  /-- COMMAND_STATUS_SEND: 64 status records pend, or the oldest has waited 1 ms. -/
  | commandStatusSend
  /-- TILE_DELTA_SEND: the oldest record of the tile delta buffer is sent. -/
  | tileDeltaSend
  /-- CSI_TX_PORT_RESET: a write to CSI_TX_CTRL_n. -/
  | csiTxPortReset (port : Fin 4) (data : Word)
  /-- COMMAND_MESSAGE: a long packet of data type 0x30 + `dt` has been received, its transmission having started at `arrival`. -/
  | commandMessage (port : Fin 12) (vc : Fin 16) (dt : BitVec 3) (bytes : List Byte) (checksum : Bool) (arrival : Tap)
  /-- QP_DELTA: the oldest checked QP_DELTA body is taken up. -/
  | qpDelta
  /-- TARGET: the oldest checked TARGET body is taken up. -/
  | target
  /-- TILE: the oldest checked TILE body is taken up. -/
  | tile
  /-- TILE_ASSEMBLY_DONE: the assembled tile is no longer under lease. -/
  | tileAssemblyDone
  /-- INDEX: the oldest checked INDEX body is taken up. -/
  | index
  /-- I3C_PRIVATE_WRITE: an I3C private write of an address and words. -/
  | i3cPrivateWrite (addr : Word) (words : List Word)
  /-- I3C_SET_READ_POINTER: an I3C private write of an address alone. -/
  | i3cSetReadPointer (addr : Word)
  /-- I3C_PRIVATE_READ: an I3C private read of a number of words. -/
  | i3cPrivateRead (words : Nat)
  /-- HDR_DDR_WRITE: HDR-DDR command 0x01. -/
  | hdrDdrWrite (addr : Word) (words : List Word)
  /-- HDR_DDR_READ: HDR-DDR command 0x81. -/
  | hdrDdrRead (words : Nat)
  /-- ENEC: CCC ENEC for in-band interrupts. -/
  | enec
  /-- DISEC: CCC DISEC for in-band interrupts. -/
  | disec
  /-- RSTDAA: CCC RSTDAA. -/
  | rstdaa
  /-- ENTDAA: CCC ENTDAA giving this target an address. -/
  | entdaa (address : BitVec 7)
  /-- SETDASA: CCC SETDASA. -/
  | setdasa (staticAddress address : BitVec 7)
  /-- SETNEWDA: CCC SETNEWDA. -/
  | setnewda (address : BitVec 7)
  /-- GETPID: CCC GETPID. -/
  | getpid
  /-- GETBCR: CCC GETBCR. -/
  | getbcr
  /-- GETDCR: CCC GETDCR. -/
  | getdcr
  /-- GETSTATUS: CCC GETSTATUS. -/
  | getstatus
  /-- GETMWL: CCC GETMWL. -/
  | getmwl
  /-- SETMWL: CCC SETMWL. -/
  | setmwl (length : Nat)
  /-- GETMRL: CCC GETMRL. -/
  | getmrl
  /-- SETMRL: CCC SETMRL. -/
  | setmrl (length : Nat)
  /-- RSTACT_PORT: RSTACT 0x00 and the target reset pattern. -/
  | rstactPort
  /-- RSTACT_WARM: RSTACT 0x01 and the target reset pattern. -/
  | rstactWarm
  /-- IBI_SEND: the lowest sendable pending cause is offered to the controller. -/
  | ibiSend (accepted : Bool)
  /-- IMU_INIT_ENTRY: the next entry of the IMU initialisation list, or SETDASA to the next I3C IMU before it. -/
  | imuInitEntry (acknowledged : Bool)
  /-- IMU_DRDY_EDGE: an edge of IMU_DRDY_n. -/
  | imuDrdyEdge (imu : Fin 4) (rising : Bool) (tap : Tap)
  /-- IMU_READ_DONE: the read in progress on a bus ends. -/
  | imuReadDone (spi : Bool) (acknowledged : Bool) (bytes : List Byte)
  /-- GOVERNOR_INTERVAL: the end of a 100 µs interval, with its power estimate and the raw readings of sensors 0 to 7. -/
  | governorInterval (microwatts : Nat) (raw : List Int)
  /-- THERMAL_TRIP: a sensor has stayed at or above 120 °C for 100 µs. -/
  | thermalTrip
  /-- BROWN_HOLD_BEGIN: VDD_CORE has stayed below 0.705 V for 50 ns. -/
  | brownHoldBegin
  /-- BROWN_HOLD_END: VDD_CORE has stayed above 0.720 V for 20 µs; the hold lasted `us` µs. -/
  | brownHoldEnd (us : Nat)
  /-- PWR_REQ_RUN: a write to PWR_REQ asking for RUN. -/
  | pwrReqRun (data : Word)
  /-- PWR_REQ_DOZE: a write to PWR_REQ asking for DOZE. -/
  | pwrReqDoze (data : Word)
  /-- PWR_REQ_NAP: a write to PWR_REQ asking for NAP. -/
  | pwrReqNap (data : Word)
  /-- PWR_REQ_HIBERNATE: a write to PWR_REQ asking for HIBERNATE. -/
  | pwrReqHibernate (data : Word)
  /-- DOZE_ENTERED: the entry to DOZE completes. -/
  | dozeEntered
  /-- NAP_LOOP_STOP: the first boundary after a NAP request. -/
  | napLoopStop
  /-- NAP_ENTERED: the entry to NAP completes. -/
  | napEntered
  /-- HIBERNATE_ENTERED: the entry to HIBERNATE completes. -/
  | hibernateEntered
  /-- WAKE_TIME: device time reaches the wake time. -/
  | wakeTime
  /-- TIN0_WAKE: an edge of TIN_0 as the wake logic sees it. -/
  | tin0Wake (rising : Bool)
  /-- SLEEP_TIMER: SLEEP_S seconds of REFCLK since HIBERNATE was entered. -/
  | sleepTimer
  /-- WAKE_DONE: a wake from DOZE or NAP completes. -/
  | wakeDone
  /-- POWER_ON: VDD_1V8 rises through its power-on level. -/
  | powerOn
  /-- SUPPLY_RESET: a rail falls below its fault level. -/
  | supplyReset (rail : Rail)
  /-- RESET_N: RESET_N is held low for `lowNs` ns. -/
  | resetN (lowNs : Nat)
  /-- RST_CTRL_WARM: a write to RST_CTRL. -/
  | rstCtrlWarm (data : Word)
  /-- WARM_RESET_END: the SRAM clear of a warm reset is complete and RESET_N is high. -/
  | warmResetEnd
  /-- COLD_RESET_END: the SRAM clear of a cold reset is complete, `quietMs` ms after the last rise of a rail or of REFCLK. -/
  | coldResetEnd (quietMs : Nat)
  /-- REFCLK_ABSENT: no REFCLK edge for 200 ns. -/
  | refclkAbsent
  /-- CHECK_FEED_START: a write to CHECK_FEED_CTRL_n with START. -/
  | checkFeedStart (unit : Fin 8) (data : Word)
  /-- CHECK_FEED_DATA: a write to CHECK_FEED_DATA_n. -/
  | checkFeedData (unit : Fin 8) (data : Word)
  /-- CHECK_FEED_END: a write to CHECK_FEED_CTRL_n with END. -/
  | checkFeedEnd (unit : Fin 8) (data : Word)
  /-- CHECK_MESSAGE_DONE: a check unit's closed message is complete. -/
  | checkMessageDone (unit : Fin 8)
  /-- FAULT_NODE_FLIT: a lane-1 flit passes a node. -/
  | faultNodeFlit (node : Fin 16) (flit : FaultFlit)
  /-- FAULT_ROOT_ARRIVE: a report or summary reaches the root. -/
  | faultRootArrive (flit : FaultFlit)
  /-- FAULT_WINDOW_CLOSE: WINDOW_US after the window of a cause opened. -/
  | faultWindowClose (cause : Fin 17)
  /-- WDOG_SWATCH: a swatch watchdog expires. -/
  | wdogSwatch (swatch : Fin 48)
  /-- WDOG_CHIP_LOOP: no loop kick for LOOP_MS. -/
  | wdogChipLoop
  /-- WDOG_CHIP_HOST: no valid host kick for HOST_MS. -/
  | wdogChipHost
  /-- WDOG_CHIP_KICK: a write to WDOG_CHIP_KICK. -/
  | wdogChipKick (data : Word)
  /-- SNAP_ARM: a write to SNAP_CTRL with ARM. -/
  | snapArm (data : Word)
  /-- SNAP_CANCEL: a write to SNAP_CTRL with CANCEL. -/
  | snapCancel (data : Word)
  /-- SNAPSHOT_INSTANT: device time reaches the pending snapshot time. -/
  | snapshotInstant
  /-- SNAPSHOT_COMPLETE: the mirror holds every shadow. -/
  | snapshotComplete
  /-- TEST_EN_CHANGE: the TEST_EN pin changes. -/
  | testEnChange (high : Bool)
  /-- EXTEST: TAP instruction 0x0, with the pattern in the boundary register. -/
  | extest (pattern : Nat)
  /-- SAMPLE_PRELOAD: TAP instruction 0x1, preloading a pattern. -/
  | samplePreload (pattern : Nat)
  /-- CLAMP: TAP instruction 0x2. -/
  | clamp
  /-- HIGHZ: TAP instruction 0x3. -/
  | highz
  /-- BYPASS: TAP instruction 0xF, or a code that acts as it. -/
  | bypass (code : BitVec 4)
  /-- TRST_N: the TRST_N pin changes. -/
  | trstN (high : Bool)
  /-- FOLLOW_UP_RECEIVED: a Follow_Up message arrives. -/
  | followUpReceived (eth : Fin 2) (msg : FollowUpMessage)
  /-- PORT_RESET_END: a port reset completes. -/
  | portResetEnd (port : ResetPort)
  /-- HIBERNATE_POWER_UP_DONE: the power-up after a HIBERNATE wake completes. -/
  | hibernatePowerUpDone
  /-- FLASH_COMMAND_TIMEOUT: a flash command has taken longer than 10 ms. -/
  | flashCommandTimeout
  /-- REFCLK_RESUME: REFCLK resumes. -/
  | refclkResume
  /-- SUPPLY_GOOD: a rail rises through its good level. -/
  | supplyGood (rail : Rail)
  /-- SRAM_IDLE_SCRUB: a swatch scrubs the word at an address of its own SRAM in an idle cycle, with the errors it shows. -/
  | sramIdleScrub (swatch : Fin 48) (addr : Nat) (errors : SymbolErrors)
  deriving DecidableEq, Repr

end Sys2Proof
end

