-- ==== Sys2Proof/Decode.lean ====
section
/-!
DEFINITION. The block has no instruction words: no row of the table gives a command bits, so no word spells one.
-/
namespace Sys2Proof

/-- The command that a word of a row's bits spells: none, for every word. -/
def decodeTableWord (_nbits _w : Nat) : Option Instr := none

end Sys2Proof
end

