-- ==== Sys2Proof/Config.lean ====
section
/-!
DEFINITION. What one implementation or one device fixes and the spec leaves open. Each is a constant without a body: no
proof can see which value it has, and a statement that mentions one holds for every value of it.
-/
namespace Sys2Proof

/-- A free bit: the n-th choice that the spec leaves open (for example an unstated rounding direction). The state's
`fresh` counter names the choice. -/
opaque Config.freeBit : Nat → Bool

/-- A free word: the n-th value that the spec leaves open. -/
opaque Config.freeWord : Nat → BitVec 64

/-- Ed25519 verification under RFC 8032 (R106): public key, message, signature. -/
opaque Config.ed25519Verify : List Byte → List Byte → List Byte → Bool

/-- ML-DSA-65 verification under FIPS 204 (R106): public key, message, signature. -/
opaque Config.mldsaVerify : List Byte → List Byte → List Byte → Bool

/-- The device's Ed25519 signature of a message (R121), byte by byte. -/
opaque Config.ed25519Sign : List Byte → Nat → Byte

/-- The device's ML-DSA-65 signature of a message (R121), byte by byte. -/
opaque Config.mldsaSign : List Byte → Nat → Byte

/-- Word n of the device Ed25519 public key derived from its fuse seed (R110, R132). -/
opaque Config.devEdPub : Nat → Word

/-- Word n of the device ML-DSA-65 public key derived from its fuse seed (R110, R132). -/
opaque Config.devMldsaPub : Nat → Word

/-- Nestadin's MIPI manufacturer ID, held in fuses (R498). -/
opaque Config.mipiManufacturer : BitVec 15

/-- How far the fixed evaluation of a vector slice (R268) lies from the correctly rounded value, by the activation's code and the FP32
input: what of it modulo 9, less 4, counts in units of the last place. -/
opaque Config.vectorSlice : Nat → BitVec 32 → BitVec 32

/-- Whether every lane of a receive port's pins is in stop state (R203), by port and time. -/
opaque Config.stopState : Nat → Nat → Bool

/-- How the geometry unit reads R(q) of a quaternion that is not of unit length (R271), which the spec does not state. -/
opaque Config.geomForm : Nat

/-- What the FP64 evaluation of the geometry unit leaves open of component i of an operation on given FP32 words (R273). -/
opaque Config.geomError : Nat → List Nat → Nat → BitVec 64

/-- What the FP64 evaluation of a solver core's formula leaves open of component i, by the formula and the bits of its operands: 0 a
composed term (R425), 1 a factor (R420), 2 a factor's cost (R421), 3 a retraction (R417), 4 an observation moved to its cut-off
(R423), 5 a prior of the window (R424), 6 and 7 the estimator update (R431), 8 a relative pose (R427). The same operands give the same
(R373; log entries 62 and 66). -/
opaque Config.solverError : Nat → List Nat → Nat → BitVec 64

/-- σ_bg and σ_ba of an IMU factor (Table 12.4), by 0 and 1: no field of the spec gives them (log entry 66). -/
opaque Config.biasSigma : Nat → BitVec 32

/-- What a byte of an arena reads as that its request has not written (R275), by the number of requests ended and its address. -/
opaque Config.staleArena : Nat → Nat → Byte

/-- The 32-byte SRAM word of a swatch that holds a word of one of its objects: swatch, object, word of the object. No chapter says
where a swatch's SRAM places its objects (log entry 65). -/
opaque Config.sramWord : Nat → Nat → Nat → Nat

/-- The channel that holds the durable record of an evicted static object: R304 gives one for tiles only (log entry 65). -/
opaque Config.staticChannel : Nat → Fin 16

/-- The mover's page-list index of a tile in POOL or DRAM (Table 9.3): its numbering is not stated (log entry 65). -/
opaque Config.pageList : Nat → Nat

end Sys2Proof
end

