-- ==== Sys2Proof/Machine/Bytes.lean ====
section
/-!
DEFINITION. Byte order (R8): little-endian reading and writing of quantities in byte lists, and the sign and field helpers
that the meanings share.
-/
namespace Sys2Proof.Machine

/-- The little-endian number of a byte list (R8). -/
def leNat : List Byte → Nat
  | [] => 0
  | b :: r => b.toNat + 256 * leNat r

/-- The big-endian number of a byte list: fields in a published standard's own order (R8). -/
def beNat (l : List Byte) : Nat := l.foldl (fun a b => 256 * a + b.toNat) 0

/-- n bytes of a number, lowest first. -/
def toLe : Nat → Nat → List Byte
  | 0, _ => []
  | n + 1, v => BitVec.ofNat 8 v :: toLe n (v / 256)

/-- n bytes of a number, highest first. -/
def toBe (n v : Nat) : List Byte := (toLe n v).reverse

/-- n bytes from an offset; bytes past the end read zero. -/
def slice (l : List Byte) (off n : Nat) : List Byte :=
  let s := (l.drop off).take n
  s ++ List.replicate (n - s.length) 0

/-- The little-endian number in n bytes from an offset. -/
def field (l : List Byte) (off n : Nat) : Nat := leNat (slice l off n)

/-- Replace the elements from an offset. -/
def splice {α : Type} (l : List α) (off : Nat) (x : List α) : List α :=
  l.take off ++ x ++ l.drop (off + x.length)

/-- Bits hi..lo of a number. -/
def bits (v hi lo : Nat) : Nat := v / 2 ^ lo % 2 ^ (hi - lo + 1)

/-- Whether a bit of a number is 1. -/
def bit (v n : Nat) : Bool := v / 2 ^ n % 2 == 1

/-- The two's complement value of the low w bits. -/
def signed (w v : Nat) : Int :=
  let x := v % 2 ^ w
  if x < 2 ^ (w - 1) then x else (x : Int) - 2 ^ w

/-- An integer as a w-bit two's complement pattern, saturating. -/
def satSigned (w : Nat) (v : Int) : Nat :=
  let hi : Int := 2 ^ (w - 1) - 1
  let lo : Int := -(2 ^ (w - 1))
  ((if v > hi then hi else if v < lo then lo else v) % 2 ^ w).toNat

/-- A number clamped between two bounds. -/
def clampInt (lo hi v : Int) : Int := if v < lo then lo else if v > hi then hi else v

/-- Replace the element at an index of a list. -/
def setAt {α : Type} : List α → Nat → α → List α
  | [], _, _ => []
  | _ :: r, 0, x => x :: r
  | y :: r, n + 1, x => y :: setAt r n x

/-- Remove the first element that satisfies a test. -/
def dropFirst {α : Type} (p : α → Bool) : List α → List α
  | [] => []
  | x :: r => if p x then r else x :: dropFirst p r

/-- Insert into a list after every element that is to stand before it: a stable ordered insertion. -/
def insertBy {α : Type} (before : α → α → Bool) (x : α) : List α → List α
  | [] => [x]
  | y :: r => if before x y then x :: y :: r else y :: insertBy before x r

/-- Sort a list, stably. -/
def sortBy {α : Type} (before : α → α → Bool) : List α → List α
  | [] => []
  | x :: r => insertBy (fun a b => !before b a) x (sortBy before r)

/-- Words of a byte list, lowest byte first. -/
def toWords : Nat → List Byte → List Word
  | 0, _ => []
  | n + 1, l => BitVec.ofNat 32 (field l 0 4) :: toWords n (l.drop 4)

/-- The bytes of a word, lowest first. -/
def wordBytes (w : Word) : List Byte := toLe 4 w.toNat

/-- ⌈a / b⌉. -/
def ceilDiv (a b : Nat) : Nat := (a + b - 1) / b

/-- Nearest integer to a/b for b > 0, ties to even. -/
def roundEven (a : Int) (b : Nat) : Int :=
  let q := a / b
  let r := a % b
  if 2 * r < b then q else if 2 * r > b then q + 1 else if q % 2 = 0 then q else q + 1

end Sys2Proof.Machine
end

