-- ==== Sys2Proof/Machine/RegMap.lean ====
section
/-!
DEFINITION. The register map: every register that Tables 17.3 to 17.12 and the chapters name (R581), one row per register
or array, with each field's place, access code (Table 0.2), survival category (Table 0.4) and Reset value.
-/
namespace Sys2Proof.Machine

/-- Access codes of Table 0.2. -/
inductive Access where
  | ro | rw | rwl | w1c | w1s | wo | snap
  deriving DecidableEq, Repr

/-- Survival categories of Table 0.4. -/
inductive Keeps where
  | fuse | cast | sticky | live
  deriving DecidableEq, Repr

/-- One field of a register table: highest bit, lowest bit, name, access, category, Reset value (R18). -/
structure FieldRow where
  hi : Nat
  lo : Nat
  name : String
  access : Access
  keeps : Keeps
  reset : Nat
  deriving DecidableEq, Repr

/-- A register, or an array of `count` registers `step` bytes apart from `base`, served by swatch `sw` (Table 17.1),
instance i by swatch `sw + swStep * i`. `low` marks the _LO word of a register pair (R13). -/
structure RegRow where
  name : String
  base : Nat
  step : Nat
  count : Nat
  sw : Nat
  swStep : Nat
  low : Bool
  fields : List FieldRow
  deriving DecidableEq, Repr

/-- System block and identification (R568 to R580). -/
def regRowsSystemA : List RegRow := [
  ⟨"CAP_NEURAL_CORES", 0, 0, 1, 0, 0, false, [⟨31, 0, "VALUE", .ro, .fuse, 0x10⟩]⟩,
  ⟨"CAP_NEURAL_LANES", 4, 0, 1, 0, 0, false, [⟨31, 0, "VALUE", .ro, .fuse, 0x1000⟩]⟩,
  ⟨"CAP_NEURAL_SRAM_KIB", 8, 0, 1, 0, 0, false, [⟨31, 0, "VALUE", .ro, .fuse, 0x1000⟩]⟩,
  ⟨"CAP_FRAME_STORE_KIB", 0xc, 0, 1, 0, 0, false, [⟨31, 0, "VALUE", .ro, .fuse, 0x18000⟩]⟩,
  ⟨"CAP_WARP", 0x10, 0, 1, 0, 0, false, [⟨31, 0, "VALUE", .ro, .fuse, 2⟩]⟩,
  ⟨"CAP_PYRAMID", 0x14, 0, 1, 0, 0, false, [⟨31, 0, "VALUE", .ro, .fuse, 2⟩]⟩,
  ⟨"CAP_CORNER", 0x18, 0, 1, 0, 0, false, [⟨31, 0, "VALUE", .ro, .fuse, 2⟩]⟩,
  ⟨"CAP_TRACKER", 0x1c, 0, 1, 0, 0, false, [⟨31, 0, "VALUE", .ro, .fuse, 2⟩]⟩,
  ⟨"CAP_SGM", 0x20, 0, 1, 0, 0, false, [⟨31, 0, "VALUE", .ro, .fuse, 2⟩]⟩,
  ⟨"CAP_VERIFIER", 0x24, 0, 1, 0, 0, false, [⟨31, 0, "VALUE", .ro, .fuse, 1⟩]⟩,
  ⟨"CAP_FRAME_GRAPHS", 0x28, 0, 1, 0, 0, false, [⟨31, 0, "VALUE", .ro, .fuse, 8⟩]⟩,
  ⟨"CAP_STITCH_MARKERS", 0x2c, 0, 1, 0, 0, false, [⟨31, 0, "VALUE", .ro, .fuse, 0x1000⟩]⟩,
  ⟨"CAP_FEATURE_TRACKS", 0x30, 0, 1, 0, 0, false, [⟨31, 0, "VALUE", .ro, .fuse, 0x10000⟩]⟩,
  ⟨"CAP_TRANSFORMS", 0x34, 0, 1, 0, 0, false, [⟨31, 0, "VALUE", .ro, .fuse, 0x100⟩]⟩,
  ⟨"CAP_IMUS", 0x38, 0, 1, 0, 0, false, [⟨31, 0, "VALUE", .ro, .fuse, 4⟩]⟩,
  ⟨"CAP_OBJECT_TRACKS", 0x3c, 0, 1, 0, 0, false, [⟨31, 0, "VALUE", .ro, .fuse, 0x400⟩]⟩,
  ⟨"CAP_SOLVER_CORES", 0x40, 0, 1, 0, 0, false, [⟨31, 0, "VALUE", .ro, .fuse, 2⟩]⟩,
  ⟨"CAP_SOLVER_SRAM_KIB", 0x44, 0, 1, 0, 0, false, [⟨31, 0, "VALUE", .ro, .fuse, 0x6000⟩]⟩,
  ⟨"CAP_LPDDR_IF", 0x48, 0, 1, 0, 0, false, [⟨31, 0, "VALUE", .ro, .fuse, 2⟩]⟩,
  ⟨"CAP_NAND_CH", 0x4c, 0, 1, 0, 0, false, [⟨31, 0, "VALUE", .ro, .fuse, 0x10⟩]⟩,
  ⟨"CAP_SEARCH_CTX", 0x50, 0, 1, 0, 0, false, [⟨31, 0, "VALUE", .ro, .fuse, 0xa00⟩]⟩,
  ⟨"CAP_ETH", 0x54, 0, 1, 0, 0, false, [⟨31, 0, "VALUE", .ro, .fuse, 2⟩]⟩,
  ⟨"CAP_CSI_RX", 0x58, 0, 1, 0, 0, false, [⟨31, 0, "VALUE", .ro, .fuse, 0xc⟩]⟩,
  ⟨"CAP_CSI_TX", 0x5c, 0, 1, 0, 0, false, [⟨31, 0, "VALUE", .ro, .fuse, 4⟩]⟩,
  ⟨"CAP_TOUT", 0x60, 0, 1, 0, 0, false, [⟨31, 0, "VALUE", .ro, .fuse, 0x10⟩]⟩]

/-- System block and identification (R568 to R580). -/
def regRowsSystemB : List RegRow := [
  ⟨"CAP_TIN", 0x64, 0, 1, 0, 0, false, [⟨31, 0, "VALUE", .ro, .fuse, 4⟩]⟩,
  ⟨"CAP_PORISK_LINKS", 0x68, 0, 1, 0, 0, false, [⟨31, 0, "VALUE", .ro, .fuse, 0x40⟩]⟩,
  ⟨"CAP_RESERVED", 0x6c, 4, 5, 0, 0, false, [⟨31, 0, "VALUE", .ro, .fuse, 0⟩]⟩,
  ⟨"SYS_ID", 0x100, 0, 1, 0, 0, false, [⟨31, 16, "PART", .ro, .fuse, 0x9600⟩, ⟨15, 8, "GRADE", .ro, .fuse, 0⟩, ⟨7, 0, "STEPPING", .ro, .fuse, 0⟩]⟩,
  ⟨"SYS_FAMILY", 0x104, 0, 1, 0, 0, false, [⟨15, 0, "MODEL", .ro, .fuse, 1⟩, ⟨23, 16, "CAP_COUNT", .ro, .fuse, 0x1b⟩]⟩,
  ⟨"SYS_UID_LO", 0x108, 0, 1, 0, 0, true, [⟨31, 0, "UID", .ro, .fuse, 0⟩]⟩,
  ⟨"SYS_UID_HI", 0x10c, 0, 1, 0, 0, false, [⟨31, 0, "UID", .ro, .fuse, 0⟩]⟩,
  ⟨"SYS_BOOT_COUNT", 0x110, 0, 1, 0, 0, false, [⟨31, 0, "COUNT", .ro, .sticky, 0⟩]⟩,
  ⟨"CASTON_STATUS", 0x200, 0, 1, 0, 0, false, [⟨18, 18, "PLAUSIBLE_B", .ro, .live, 0⟩, ⟨17, 17, "PLAUSIBLE_A", .ro, .live, 0⟩, ⟨16, 16, "FIRST", .ro, .live, 0⟩, ⟨15, 8, "RESULT_B", .ro, .live, 0⟩, ⟨7, 0, "RESULT_A", .ro, .live, 0⟩]⟩,
  ⟨"CASTON_DETAIL", 0x204, 0, 1, 0, 0, false, [⟨31, 31, "SLOT", .ro, .live, 0⟩, ⟨30, 30, "VALID", .ro, .live, 0⟩, ⟨29, 24, "SECTION", .ro, .live, 0⟩, ⟨17, 0, "ENTRY", .ro, .live, 0⟩]⟩,
  ⟨"CASTON_CAP_FAIL", 0x208, 0, 1, 0, 0, false, [⟨31, 31, "SLOT", .ro, .live, 0⟩, ⟨9, 9, "VALID", .ro, .live, 0⟩, ⟨8, 8, "PAIRED", .ro, .live, 0⟩, ⟨4, 0, "INDEX", .ro, .live, 0⟩]⟩,
  ⟨"CASTON_TIME", 0x20c, 0, 1, 0, 0, false, [⟨31, 0, "US", .ro, .live, 0⟩]⟩,
  ⟨"CASTON_SEQ", 0x210, 0, 1, 0, 0, false, [⟨31, 0, "SEQUENCE", .ro, .cast, 0⟩]⟩,
  ⟨"SYS_LOCK", 0x300, 0, 1, 0, 0, false, [⟨25, 16, "GRANTS", .ro, .cast, 0⟩, ⟨0, 0, "LOCKED", .ro, .live, 0⟩]⟩,
  ⟨"SYS_GRANT_ADDRESS", 0x1000, 0x10, 512, 0, 0, false, [⟨31, 0, "ADDRESS", .ro, .cast, 0⟩]⟩,
  ⟨"SYS_GRANT_MASK", 0x1004, 0x10, 512, 0, 0, false, [⟨31, 0, "MASK", .ro, .cast, 0⟩]⟩,
  ⟨"SYS_GRANT_LOWER", 0x1008, 0x10, 512, 0, 0, false, [⟨31, 0, "LOWER", .ro, .cast, 0⟩]⟩,
  ⟨"SYS_GRANT_UPPER", 0x100c, 0x10, 512, 0, 0, false, [⟨31, 0, "UPPER", .ro, .cast, 0⟩]⟩]

/-- Swatch clocks and crossings (R84 to R91). -/
def regRowsSwatch : List RegRow := [
  ⟨"PLL_CTRL", 0x10000, 0, 1, 0, 0, false, [⟨1, 1, "SPREAD_ARITH", .rwl, .cast, 0⟩, ⟨0, 0, "SPREAD_SYS", .rwl, .cast, 0⟩]⟩,
  ⟨"PLL_STATUS", 0x10004, 0, 1, 0, 0, false, [⟨7, 4, "UNLOCK_SEEN", .w1c, .sticky, 0⟩, ⟨3, 0, "LOCK", .ro, .live, 0⟩]⟩,
  ⟨"SW_CLK", 0x10100, 4, 48, 0, 0, false, [⟨21, 16, "GROUP", .ro, .fuse, 0⟩, ⟨15, 6, "MHZ", .ro, .live, 0⟩, ⟨5, 5, "IN_RESET", .ro, .live, 0⟩, ⟨4, 4, "CLASS_A", .ro, .live, 0⟩, ⟨3, 3, "ARITH", .ro, .fuse, 0⟩, ⟨1, 0, "STEP", .ro, .live, 0⟩]⟩,
  ⟨"SW_RESET", 0x10200, 0, 1, 0, 0, false, [⟨5, 0, "SWATCH", .wo, .live, 0⟩]⟩,
  ⟨"SW_IN_RESET_LO", 0x10208, 0, 1, 0, 0, true, [⟨31, 0, "BITS", .ro, .live, 0⟩]⟩,
  ⟨"SW_IN_RESET_HI", 0x1020c, 0, 1, 0, 0, false, [⟨15, 0, "BITS", .ro, .live, 0⟩]⟩,
  ⟨"SW_RESET_LAST", 0x10210, 0, 1, 0, 0, false, [⟨31, 16, "COUNT", .ro, .sticky, 0⟩, ⟨9, 8, "CAUSE", .ro, .sticky, 0⟩, ⟨5, 0, "SWATCH", .ro, .sticky, 0⟩]⟩,
  ⟨"XING_OVR_0", 0x10300, 0, 1, 0, 0, false, [⟨31, 0, "OVR", .w1c, .sticky, 0⟩]⟩,
  ⟨"XING_OVR_1", 0x10304, 0, 1, 0, 0, false, [⟨31, 0, "OVR", .w1c, .sticky, 0⟩]⟩,
  ⟨"XING_OVR_2", 0x10308, 0, 1, 0, 0, false, [⟨5, 0, "OVR", .w1c, .sticky, 0⟩]⟩,
  ⟨"LINK_A_FLITS", 0x10400, 8, 64, 0, 0, false, [⟨31, 0, "FLITS", .snap, .live, 0⟩]⟩,
  ⟨"LINK_A_WAIT", 0x10404, 8, 64, 0, 0, false, [⟨15, 0, "WAIT_MAX", .snap, .live, 0⟩]⟩]

/-- Power and scheduler, with the Class A loop registers (R40 to R46, R537 to R543). -/
def regRowsPower : List RegRow := [
  ⟨"PWR_LIMIT", 0x20000, 0, 1, 1, 0, false, [⟨15, 8, "TJ_LIMIT", .rwl, .cast, 0x69⟩, ⟨5, 0, "PKG_LIMIT_W", .rwl, .live, 0x18⟩]⟩,
  ⟨"PWR_GOV_CFG", 0x20004, 0, 1, 1, 0, false, [⟨25, 20, "HYST", .rwl, .cast, 4⟩, ⟨19, 12, "DWELL", .rwl, .cast, 0xa⟩, ⟨11, 8, "AVG_SHIFT", .rwl, .cast, 6⟩, ⟨6, 4, "MAX_LEVEL", .rwl, .cast, 7⟩, ⟨2, 0, "MIN_LEVEL", .rwl, .cast, 0⟩]⟩,
  ⟨"PWR_STATUS", 0x20008, 0, 1, 1, 0, false, [⟨10, 10, "CHANGING", .ro, .live, 0⟩, ⟨9, 8, "STATE", .ro, .live, 0⟩, ⟨5, 5, "THERMAL", .ro, .live, 0⟩, ⟨4, 4, "BROWN", .ro, .live, 0⟩, ⟨3, 3, "FLOOR", .ro, .live, 0⟩, ⟨2, 0, "LEVEL", .ro, .live, 0⟩]⟩,
  ⟨"PWR_EST", 0x2000c, 0, 1, 1, 0, false, [⟨15, 0, "AVG_MW", .ro, .live, 0⟩, ⟨31, 16, "TEMP", .ro, .live, 0⟩]⟩,
  ⟨"PWR_REQ", 0x20010, 0, 1, 1, 0, false, [⟨1, 0, "STATE", .wo, .live, 0⟩]⟩,
  ⟨"PWR_WAKE", 0x20014, 0, 1, 1, 0, false, [⟨31, 16, "SLEEP_S", .rwl, .live, 0⟩, ⟨2, 2, "TIME_EN", .rwl, .live, 0⟩, ⟨1, 1, "TIN0_EDGE", .rwl, .live, 0⟩, ⟨0, 0, "TIN0_EN", .rwl, .live, 0⟩]⟩,
  ⟨"PWR_WAKE_SEC_LO", 0x20018, 0, 1, 1, 0, true, [⟨31, 0, "SEC", .rwl, .live, 0⟩]⟩,
  ⟨"PWR_WAKE_SEC_HI", 0x2001c, 0, 1, 1, 0, false, [⟨31, 0, "SEC", .rwl, .live, 0⟩]⟩,
  ⟨"PWR_WAKE_NS", 0x20020, 0, 1, 1, 0, false, [⟨29, 0, "NS", .rwl, .live, 0⟩]⟩,
  ⟨"PWR_BROWN_COUNT", 0x20024, 0, 1, 1, 0, false, [⟨31, 0, "COUNT", .ro, .sticky, 0⟩]⟩,
  ⟨"PWR_BROWN_WORST", 0x20028, 0, 1, 1, 0, false, [⟨31, 0, "WORST_US", .ro, .sticky, 0⟩]⟩,
  ⟨"PWR_GOV_COUNTS", 0x2002c, 0, 1, 1, 0, false, [⟨15, 0, "CHANGES", .snap, .live, 0⟩, ⟨31, 16, "FLOOR", .snap, .live, 0⟩]⟩,
  ⟨"RST_CAUSE", 0x20030, 0, 1, 1, 0, false, [⟨31, 16, "WARM_COUNT", .ro, .sticky, 0⟩, ⟨5, 4, "PLL", .ro, .sticky, 0⟩, ⟨3, 0, "LAST", .ro, .sticky, 0⟩]⟩,
  ⟨"RST_CTRL", 0x20034, 0, 1, 1, 0, false, [⟨0, 0, "WARM", .wo, .live, 0⟩]⟩,
  ⟨"PWR_LEVEL_US", 0x20040, 4, 8, 1, 0, false, [⟨31, 0, "US", .snap, .live, 0⟩]⟩,
  ⟨"PWR_STATE_COUNTS", 0x20060, 0, 1, 1, 0, false, [⟨15, 0, "DOZE", .snap, .live, 0⟩, ⟨31, 16, "NAP", .snap, .live, 0⟩]⟩,
  ⟨"CLA_CTRL", 0x20400, 0, 1, 1, 0, false, [⟨1, 1, "PAIRED", .rwl, .cast, 0⟩, ⟨0, 0, "ENABLE", .rwl, .cast, 0⟩]⟩,
  ⟨"CLA_PERIOD", 0x20404, 0, 1, 1, 0, false, [⟨11, 0, "PERIOD_US", .rwl, .live, 0x3e8⟩]⟩,
  ⟨"CLA_TIMING", 0x20408, 0, 1, 1, 0, false, [⟨27, 16, "LAUNCH_US", .rwl, .live, 0x190⟩, ⟨11, 0, "CUTOFF_US", .rwl, .live, 0⟩]⟩,
  ⟨"CLA_STATUS", 0x2040c, 0, 1, 1, 0, false, [⟨4, 4, "GUARANTEE", .ro, .live, 0⟩, ⟨3, 3, "MISSED", .w1c, .live, 0⟩, ⟨2, 2, "PARAM_REJECT", .w1c, .live, 0⟩, ⟨1, 1, "ENV_REFUSED", .w1c, .live, 0⟩, ⟨0, 0, "RUNNING", .ro, .live, 0⟩]⟩,
  ⟨"CLA_PERIOD_NUM_LO", 0x20410, 0, 1, 1, 0, true, [⟨31, 0, "NUM", .ro, .live, 0⟩]⟩,
  ⟨"CLA_PERIOD_NUM_HI", 0x20414, 0, 1, 1, 0, false, [⟨31, 0, "NUM", .ro, .live, 0⟩]⟩,
  ⟨"CLA_MISSED_COUNT", 0x20418, 0, 1, 1, 0, false, [⟨31, 0, "MISSED", .snap, .live, 0⟩]⟩,
  ⟨"CLA_WORST", 0x2041c, 0, 1, 1, 0, false, [⟨22, 0, "READY_NS", .snap, .live, 0⟩]⟩]

/-- Integrity (R564 to R567). -/
def regRowsIntegrityA : List RegRow := [
  ⟨"CHECK_CFG", 0x30000, 0x20, 8, 2, 0, false, [⟨12, 12, "USE_ERR", .ro, .cast, 0⟩, ⟨10, 8, "USERS", .ro, .cast, 0⟩, ⟨4, 4, "INT_EN", .rwl, .cast, 1⟩, ⟨1, 0, "POLY", .rwl, .cast, 3⟩]⟩,
  ⟨"CHECK_STATUS", 0x30004, 0x20, 8, 2, 0, false, [⟨3, 3, "ALIVE_ERR", .w1c, .live, 0⟩, ⟨2, 2, "MISMATCH", .w1c, .live, 0⟩, ⟨1, 1, "VERDICT", .ro, .live, 0⟩, ⟨0, 0, "BUSY", .ro, .live, 0⟩]⟩,
  ⟨"CHECK_FEED_CTRL", 0x30008, 0x20, 8, 2, 0, false, [⟨0, 0, "START", .wo, .live, 0⟩, ⟨1, 1, "END", .wo, .live, 0⟩, ⟨2, 2, "VERIFY", .wo, .live, 0⟩, ⟨5, 4, "BYTES", .wo, .live, 0⟩]⟩,
  ⟨"CHECK_FEED_DATA", 0x3000c, 0x20, 8, 2, 0, false, [⟨31, 0, "DATA", .wo, .live, 0⟩]⟩,
  ⟨"CHECK_EXPECT", 0x30010, 0x20, 8, 2, 0, false, [⟨31, 0, "EXPECT", .rw, .live, 0⟩]⟩,
  ⟨"CHECK_RESULT", 0x30014, 0x20, 8, 2, 0, false, [⟨31, 0, "RESULT", .ro, .live, 0⟩]⟩,
  ⟨"CHECK_COUNTS", 0x30018, 0x20, 8, 2, 0, false, [⟨15, 0, "MESSAGES", .snap, .live, 0⟩, ⟨31, 16, "MISMATCH", .snap, .live, 0⟩]⟩,
  ⟨"CHECK_ALIVE", 0x3001c, 0x20, 8, 2, 0, false, [⟨15, 0, "REPEAT", .snap, .live, 0⟩, ⟨31, 16, "SKIP", .snap, .live, 0⟩]⟩,
  ⟨"FAULT_CFG", 0x30100, 0, 1, 2, 0, false, [⟨7, 0, "WINDOW_US", .rwl, .cast, 0x64⟩]⟩,
  ⟨"FAULT_PEND", 0x30104, 0, 1, 2, 0, false, [⟨16, 1, "PEND", .w1c, .sticky, 0⟩]⟩,
  ⟨"FAULT_IRQ_EN", 0x30108, 0, 1, 2, 0, false, [⟨16, 1, "EN", .rwl, .live, 0xffff⟩]⟩,
  ⟨"FAULT_ACTION", 0x3010c, 0, 1, 2, 0, false, [⟨1, 0, "ACT_1", .rwl, .cast, 0⟩, ⟨3, 2, "ACT_2", .rwl, .cast, 0⟩, ⟨5, 4, "ACT_3", .rwl, .cast, 0⟩, ⟨7, 6, "ACT_4", .rwl, .cast, 0⟩, ⟨9, 8, "ACT_5", .rwl, .cast, 0⟩, ⟨11, 10, "ACT_6", .rwl, .cast, 0⟩, ⟨13, 12, "ACT_7", .rwl, .cast, 0⟩, ⟨15, 14, "ACT_8", .rwl, .cast, 0⟩, ⟨17, 16, "ACT_9", .rwl, .cast, 0⟩, ⟨19, 18, "ACT_10", .rwl, .cast, 0⟩, ⟨21, 20, "ACT_11", .rwl, .cast, 0⟩, ⟨23, 22, "ACT_12", .rwl, .cast, 0⟩, ⟨25, 24, "ACT_13", .rwl, .cast, 0⟩, ⟨27, 26, "ACT_14", .rwl, .cast, 0⟩, ⟨29, 28, "ACT_15", .rwl, .cast, 0⟩, ⟨31, 30, "ACT_16", .rwl, .cast, 0⟩]⟩,
  ⟨"FAULT_LOG_ADDR", 0x30110, 0, 1, 2, 0, false, [⟨7, 0, "WORD", .rw, .live, 0⟩]⟩,
  ⟨"FAULT_LOG_DATA", 0x30114, 0, 1, 2, 0, false, [⟨31, 0, "DATA", .ro, .live, 0⟩]⟩,
  ⟨"FAULT_LOG_STATUS", 0x30118, 0, 1, 2, 0, false, [⟨5, 0, "NEXT", .ro, .sticky, 0⟩, ⟨8, 8, "WRAPPED", .ro, .sticky, 0⟩, ⟨31, 16, "ENTRIES", .ro, .sticky, 0⟩]⟩,
  ⟨"FAULT_REC_SOURCE", 0x30200, 0x20, 16, 2, 0, false, [⟨15, 0, "SOURCE", .ro, .sticky, 0⟩]⟩,
  ⟨"FAULT_REC_DETAIL", 0x30204, 0x20, 16, 2, 0, false, [⟨31, 0, "DETAIL", .ro, .sticky, 0⟩]⟩,
  ⟨"FAULT_REC_SEC", 0x30208, 0x20, 16, 2, 0, false, [⟨31, 0, "SEC", .ro, .sticky, 0⟩]⟩,
  ⟨"FAULT_REC_NS", 0x3020c, 0x20, 16, 2, 0, false, [⟨29, 0, "NS", .ro, .sticky, 0⟩]⟩,
  ⟨"FAULT_REC_COUNT", 0x30210, 0x20, 16, 2, 0, false, [⟨31, 0, "COUNT", .ro, .sticky, 0⟩]⟩,
  ⟨"WDOG_SW", 0x30400, 4, 48, 2, 0, false, [⟨31, 31, "EXPIRED", .w1c, .sticky, 0⟩, ⟨19, 0, "LIMIT_US", .rwl, .cast, 0x2710⟩]⟩,
  ⟨"WDOG_CHIP_CFG", 0x30500, 0, 1, 2, 0, false, [⟨31, 16, "HOST_MS", .rwl, .cast, 0x3e8⟩, ⟨15, 8, "LOOP_MS", .rwl, .cast, 0xa⟩, ⟨1, 1, "HOST_EN", .rwl, .cast, 0⟩, ⟨0, 0, "LOOP_EN", .rwl, .cast, 0⟩]⟩,
  ⟨"WDOG_CHIP_KICK", 0x30504, 0, 1, 2, 0, false, [⟨15, 0, "KEY", .wo, .live, 0⟩]⟩,
  ⟨"WDOG_CHIP_STATUS", 0x30508, 0, 1, 2, 0, false, [⟨0, 0, "NEXT_KEY", .ro, .live, 0⟩, ⟨5, 4, "LAST_SRC", .ro, .sticky, 0⟩, ⟨31, 16, "EXPIRIES", .ro, .sticky, 0⟩]⟩,
  ⟨"SNAP_CTRL", 0x30600, 0, 1, 2, 0, false, [⟨0, 0, "ARM", .wo, .live, 0⟩, ⟨1, 1, "CANCEL", .wo, .live, 0⟩]⟩]

/-- Integrity (R564 to R567). -/
def regRowsIntegrityB : List RegRow := [
  ⟨"SNAP_STATUS", 0x30604, 0, 1, 2, 0, false, [⟨3, 3, "ABSENT_ANY", .ro, .live, 0⟩, ⟨2, 2, "LATE", .w1c, .live, 0⟩, ⟨1, 1, "DONE", .w1c, .live, 0⟩, ⟨0, 0, "PENDING", .ro, .live, 0⟩]⟩,
  ⟨"SNAP_TIME_SEC_LO", 0x30608, 0, 1, 2, 0, true, [⟨31, 0, "SEC", .rw, .live, 0⟩]⟩,
  ⟨"SNAP_TIME_SEC_HI", 0x3060c, 0, 1, 2, 0, false, [⟨31, 0, "SEC", .rw, .live, 0⟩]⟩,
  ⟨"SNAP_TIME_NS", 0x30610, 0, 1, 2, 0, false, [⟨29, 0, "NS", .rw, .live, 0⟩]⟩,
  ⟨"SNAP_PERIOD", 0x30614, 0, 1, 2, 0, false, [⟨15, 0, "PERIOD_MS", .rw, .live, 0⟩]⟩,
  ⟨"SNAP_NUM", 0x30618, 0, 1, 2, 0, false, [⟨31, 0, "NUMBER", .ro, .live, 0⟩]⟩,
  ⟨"SNAP_SWATCH", 0x30700, 4, 48, 2, 0, false, [⟨15, 0, "NUMBER", .ro, .live, 0⟩, ⟨31, 31, "ABSENT", .ro, .live, 0⟩]⟩]

/-- Time and network (R171 to R180). -/
def regRowsTimeA : List RegRow := [
  ⟨"TIME_CTRL", 0x40000, 0, 1, 3, 0, false, [⟨14, 8, "DOMAIN", .rwl, .cast, 0⟩, ⟨2, 1, "SERVO_MODE", .rwl, .cast, 0⟩, ⟨0, 0, "REARM", .wo, .live, 0⟩]⟩,
  ⟨"TIME_STATUS", 0x40004, 0, 1, 3, 0, false, [⟨10, 10, "SLAVE_VALID", .ro, .live, 0⟩, ⟨9, 9, "SLAVE_PORT", .ro, .live, 0⟩, ⟨8, 8, "CLOCK_FAULT", .ro, .live, 0⟩, ⟨7, 7, "GM_CHANGED", .w1c, .live, 0⟩, ⟨6, 6, "JUMP_REFUSED", .w1c, .live, 0⟩, ⟨5, 5, "FIRST_LOCK", .ro, .live, 0⟩, ⟨4, 4, "STEP_USED", .ro, .sticky, 0⟩, ⟨3, 3, "STEP_ARMED", .ro, .live, 1⟩, ⟨2, 0, "STATE", .ro, .live, 0⟩]⟩,
  ⟨"TIME_NOW_SEC_LO", 0x40008, 0, 1, 3, 0, true, [⟨31, 0, "SEC", .ro, .live, 0⟩]⟩,
  ⟨"TIME_NOW_SEC_HI", 0x4000c, 0, 1, 3, 0, false, [⟨31, 0, "SEC", .ro, .live, 0⟩]⟩,
  ⟨"TIME_NOW_NS", 0x40010, 0, 1, 3, 0, false, [⟨29, 0, "NS", .ro, .live, 0⟩]⟩,
  ⟨"TIME_NOW_FRAC", 0x40014, 0, 1, 3, 0, false, [⟨15, 0, "FRAC", .ro, .live, 0⟩]⟩,
  ⟨"TIME_RATE", 0x40018, 0, 1, 3, 0, false, [⟨31, 0, "RATE", .rw, .live, 0⟩]⟩,
  ⟨"TIME_OFFSET", 0x4001c, 0, 1, 3, 0, false, [⟨31, 0, "OFFSET", .ro, .live, 0⟩]⟩,
  ⟨"TIME_LIMITS", 0x40020, 0, 1, 3, 0, false, [⟨31, 16, "JUMP_LIMIT_NS", .rwl, .cast, 0x3e8⟩, ⟨15, 0, "LOCK_NS", .rwl, .cast, 0x64⟩]⟩,
  ⟨"TIME_SERVO_CFG", 0x40024, 0, 1, 3, 0, false, [⟨31, 28, "RECOVER_COUNT", .rwl, .cast, 4⟩, ⟨27, 20, "SLEW_MAX_PPM", .rwl, .cast, 0x64⟩, ⟨19, 16, "KI_SHIFT", .rwl, .cast, 4⟩, ⟨15, 12, "KP_SHIFT", .rwl, .cast, 1⟩, ⟨11, 8, "LOCK_COUNT", .rwl, .cast, 8⟩, ⟨7, 0, "FREE_RUN_S", .rwl, .cast, 5⟩]⟩,
  ⟨"TIME_GM_ID_LO", 0x40028, 0, 1, 3, 0, true, [⟨31, 0, "ID", .ro, .live, 0⟩]⟩,
  ⟨"TIME_GM_ID_HI", 0x4002c, 0, 1, 3, 0, false, [⟨31, 0, "ID", .ro, .live, 0⟩]⟩,
  ⟨"TIME_COUNTS", 0x40030, 0, 1, 3, 0, false, [⟨15, 0, "REFUSALS", .snap, .live, 0⟩, ⟨31, 16, "GM_CHANGES", .snap, .live, 0⟩]⟩,
  ⟨"ETH_CTRL", 0x40100, 0x100, 2, 4, 0, false, [⟨11, 8, "PDELAY_LOG", .rwl, .cast, 0⟩, ⟨2, 2, "FWD_ENABLE", .rwl, .cast, 1⟩, ⟨1, 1, "ENABLE", .rwl, .cast, 1⟩, ⟨0, 0, "PORT_RESET", .wo, .live, 0⟩]⟩,
  ⟨"ETH_STATUS", 0x40104, 0x100, 2, 4, 0, false, [⟨5, 5, "IN_RESET", .ro, .live, 0⟩, ⟨4, 4, "AS_CAPABLE", .ro, .live, 0⟩, ⟨3, 1, "SPEED", .ro, .live, 0⟩, ⟨0, 0, "LINK", .ro, .live, 0⟩]⟩,
  ⟨"ETH_RX_LAT", 0x40108, 0x100, 2, 4, 0, false, [⟨31, 16, "NS", .rwl, .cast, 0⟩, ⟨15, 0, "FRAC", .rwl, .cast, 0⟩]⟩,
  ⟨"ETH_TX_LAT", 0x4010c, 0x100, 2, 4, 0, false, [⟨31, 16, "NS", .rwl, .cast, 0⟩, ⟨15, 0, "FRAC", .rwl, .cast, 0⟩]⟩,
  ⟨"ETH_LINK_DELAY", 0x40110, 0x100, 2, 4, 0, false, [⟨31, 16, "NS", .ro, .live, 0⟩, ⟨15, 0, "FRAC", .ro, .live, 0⟩]⟩,
  ⟨"ETH_NRR", 0x40114, 0x100, 2, 4, 0, false, [⟨31, 0, "NRR", .ro, .live, 0⟩]⟩,
  ⟨"ETH_ADDR_LO", 0x40118, 0x100, 2, 4, 0, true, [⟨31, 0, "ADDR", .rwl, .cast, 0⟩]⟩,
  ⟨"ETH_ADDR_HI", 0x4011c, 0x100, 2, 4, 0, false, [⟨15, 0, "ADDR", .rwl, .cast, 0⟩]⟩,
  ⟨"LQ_STATUS", 0x40120, 0x100, 2, 4, 0, false, [⟨6, 0, "DEPTH", .ro, .live, 0⟩, ⟨31, 16, "LAST_LAG", .ro, .live, 0⟩]⟩,
  ⟨"LQ_COUNTS", 0x40124, 0x100, 2, 4, 0, false, [⟨15, 0, "LATE", .snap, .live, 0⟩, ⟨31, 16, "DROPPED", .snap, .live, 0⟩]⟩,
  ⟨"TC_COUNT", 0x40128, 0x100, 2, 4, 0, false, [⟨31, 0, "COUNT", .snap, .live, 0⟩]⟩,
  ⟨"TOUT_CTRL", 0x40400, 0x20, 16, 3, 0, false, [⟨5, 5, "ACTIVE", .ro, .live, 0⟩, ⟨4, 4, "CFG_REJECT", .w1c, .live, 0⟩, ⟨3, 3, "MISSED", .w1c, .live, 0⟩, ⟨2, 2, "POLARITY", .rwl, .live, 0⟩, ⟨1, 1, "PERIODIC", .rwl, .live, 0⟩, ⟨0, 0, "ENABLE", .rwl, .live, 0⟩]⟩]

/-- Time and network (R171 to R180). -/
def regRowsTimeB : List RegRow := [
  ⟨"TOUT_START_SEC_LO", 0x40404, 0x20, 16, 3, 0, true, [⟨31, 0, "SEC", .rwl, .live, 0⟩]⟩,
  ⟨"TOUT_START_SEC_HI", 0x40408, 0x20, 16, 3, 0, false, [⟨31, 0, "SEC", .rwl, .live, 0⟩]⟩,
  ⟨"TOUT_START_NS", 0x4040c, 0x20, 16, 3, 0, false, [⟨29, 0, "NS", .rwl, .live, 0⟩]⟩,
  ⟨"TOUT_PERIOD_NS", 0x40410, 0x20, 16, 3, 0, false, [⟨31, 0, "NS", .rwl, .live, 0⟩]⟩,
  ⟨"TOUT_PERIOD_FRAC", 0x40414, 0x20, 16, 3, 0, false, [⟨15, 0, "FRAC", .rwl, .live, 0⟩]⟩,
  ⟨"TOUT_WIDTH", 0x40418, 0x20, 16, 3, 0, false, [⟨23, 0, "WIDTH", .rwl, .live, 0⟩]⟩,
  ⟨"TIN_CTRL", 0x40600, 0x20, 4, 3, 0, false, [⟨3, 2, "FILTER", .rwl, .cast, 0⟩, ⟨1, 0, "EDGE", .rwl, .cast, 0⟩]⟩,
  ⟨"TIN_STATUS", 0x40604, 0x20, 4, 3, 0, false, [⟨31, 16, "HEAD_SEQ", .ro, .live, 0⟩, ⟨9, 9, "HEAD_EDGE", .ro, .live, 0⟩, ⟨8, 8, "OVR", .w1c, .live, 0⟩, ⟨4, 0, "LEVEL", .ro, .live, 0⟩]⟩,
  ⟨"TIN_SEC_LO", 0x40608, 0x20, 4, 3, 0, true, [⟨31, 0, "SEC", .ro, .live, 0⟩]⟩,
  ⟨"TIN_SEC_HI", 0x4060c, 0x20, 4, 3, 0, false, [⟨31, 0, "SEC", .ro, .live, 0⟩]⟩,
  ⟨"TIN_NS", 0x40610, 0x20, 4, 3, 0, false, [⟨29, 0, "NS", .ro, .live, 0⟩]⟩,
  ⟨"TIN_FRAC", 0x40614, 0x20, 4, 3, 0, false, [⟨15, 0, "FRAC", .ro, .live, 0⟩]⟩,
  ⟨"TIN_POP", 0x40618, 0x20, 4, 3, 0, false, [⟨0, 0, "POP", .wo, .live, 0⟩]⟩]

/-- Host links and IMU ports (R508 to R512). -/
def regRowsLinks : List RegRow := [
  ⟨"I3C_CFG", 0x50000, 0, 1, 6, 0, false, [⟨9, 9, "RESET_EN", .rwl, .cast, 0⟩, ⟨8, 8, "HDR_EN", .rwl, .cast, 1⟩, ⟨6, 0, "STATIC_ADDR", .rwl, .cast, 0⟩]⟩,
  ⟨"I3C_STATUS", 0x50004, 0, 1, 6, 0, false, [⟨6, 0, "DYN_ADDR", .ro, .live, 0⟩, ⟨7, 7, "ADDR_VALID", .ro, .live, 0⟩, ⟨8, 8, "IBI_ON", .ro, .live, 0⟩]⟩,
  ⟨"I3C_IBI_EN", 0x50008, 0, 1, 6, 0, false, [⟨7, 1, "EN", .rwl, .live, 0x7f⟩]⟩,
  ⟨"I3C_IBI_PEND", 0x5000c, 0, 1, 6, 0, false, [⟨7, 1, "PEND", .ro, .live, 0⟩]⟩,
  ⟨"I3C_COUNTS", 0x50010, 0, 1, 6, 0, false, [⟨23, 0, "IBIS", .snap, .live, 0⟩]⟩,
  ⟨"HL_CFG", 0x50100, 0, 1, 6, 0, false, [⟨18, 16, "HDR_CHECK", .rwl, .cast, 0⟩, ⟨14, 12, "CMD_CHECK", .rwl, .cast, 0⟩, ⟨11, 8, "CMD_VC", .rwl, .cast, 0⟩, ⟨7, 4, "CMD_PORT", .rwl, .cast, 0⟩, ⟨0, 0, "CMD_ENABLE", .rwl, .cast, 0⟩]⟩,
  ⟨"CMD_LAST", 0x50104, 0, 1, 6, 0, false, [⟨7, 0, "DT", .ro, .live, 0⟩, ⟨11, 8, "RESULT", .ro, .live, 0⟩, ⟨23, 16, "DETAIL", .ro, .live, 0⟩]⟩,
  ⟨"CMD_COUNT_0", 0x50108, 0, 1, 6, 0, false, [⟨31, 0, "ACCEPTED", .snap, .live, 0⟩]⟩,
  ⟨"CMD_COUNT_1", 0x5010c, 0, 1, 6, 0, false, [⟨15, 0, "CRC", .snap, .live, 0⟩, ⟨31, 16, "REPEAT", .snap, .live, 0⟩]⟩,
  ⟨"CMD_COUNT_2", 0x50110, 0, 1, 6, 0, false, [⟨15, 0, "SKIP", .snap, .live, 0⟩, ⟨31, 16, "REFUSED", .snap, .live, 0⟩]⟩,
  ⟨"CMD_COUNT_3", 0x50114, 0, 1, 6, 0, false, [⟨15, 0, "DISCARDED", .snap, .live, 0⟩, ⟨31, 16, "TILES", .snap, .live, 0⟩]⟩,
  ⟨"CSI_TX_CFG", 0x50200, 0x20, 4, 6, 0, false, [⟨23, 16, "RATE", .rwl, .cast, 0⟩, ⟨5, 5, "CLK_CONT", .rwl, .cast, 1⟩, ⟨4, 4, "DESKEW", .rwl, .cast, 0⟩, ⟨3, 2, "LANES", .rwl, .cast, 0⟩, ⟨1, 1, "PHY", .rwl, .cast, 0⟩, ⟨0, 0, "ENABLE", .rwl, .cast, 0⟩]⟩,
  ⟨"CSI_TX_CTRL", 0x50204, 0x20, 4, 6, 0, false, [⟨0, 0, "PORT_RESET", .wo, .live, 0⟩]⟩,
  ⟨"CSI_TX_STATUS", 0x50208, 0x20, 4, 6, 0, false, [⟨0, 0, "BUSY", .ro, .live, 0⟩, ⟨1, 1, "IN_RESET", .ro, .live, 0⟩]⟩,
  ⟨"CSI_TX_FRAMES", 0x5020c, 0x20, 4, 6, 0, false, [⟨31, 0, "FRAMES", .snap, .live, 0⟩]⟩,
  ⟨"TX_STREAM_CFG", 0x50400, 0x10, 16, 6, 0, false, [⟨31, 31, "CFG_ERR", .ro, .cast, 0⟩, ⟨27, 20, "LINE_UNITS", .rwl, .cast, 0x3c⟩, ⟨19, 12, "DIV", .rwl, .cast, 0⟩, ⟨10, 10, "PRIORITY", .rwl, .cast, 0⟩, ⟨9, 6, "VC", .rwl, .cast, 0⟩, ⟨5, 4, "PORT", .rwl, .cast, 0⟩, ⟨3, 1, "TYPE", .rwl, .cast, 0⟩, ⟨0, 0, "ENABLE", .rwl, .cast, 0⟩]⟩,
  ⟨"TX_STREAM_SRC", 0x50404, 0x10, 16, 6, 0, false, [⟨8, 0, "SRC_A", .rwl, .cast, 0⟩, ⟨24, 16, "SRC_B", .rwl, .cast, 0x1ff⟩]⟩,
  ⟨"TX_STREAM_SEQ", 0x50408, 0x10, 16, 6, 0, false, [⟨31, 0, "SEQUENCE", .snap, .live, 0⟩]⟩,
  ⟨"TX_STREAM_LOSS", 0x5040c, 0x10, 16, 6, 0, false, [⟨15, 0, "SKIPPED", .snap, .live, 0⟩, ⟨31, 16, "CUT", .snap, .live, 0⟩]⟩,
  ⟨"IMU_BUS_CFG", 0x50600, 0, 1, 5, 0, false, [⟨4, 0, "SPI_MHZ", .rwl, .cast, 0xa⟩]⟩,
  ⟨"IMU_PORT_CFG", 0x50610, 0x10, 4, 5, 0, false, [⟨26, 26, "READ_FLAG", .rwl, .cast, 0⟩, ⟨25, 24, "CS", .rwl, .cast, 0⟩, ⟨23, 16, "READ_REG", .rwl, .cast, 0⟩, ⟨14, 8, "STATIC_ADDR", .rwl, .cast, 0⟩, ⟨4, 4, "DRDY_EDGE", .rwl, .cast, 0⟩, ⟨3, 3, "ORDER", .rwl, .cast, 0⟩, ⟨2, 2, "SWAP", .rwl, .cast, 0⟩, ⟨1, 1, "SPI_MODE", .rwl, .cast, 0⟩, ⟨0, 0, "BUS", .rwl, .cast, 0⟩]⟩,
  ⟨"IMU_PORT_STATUS", 0x50614, 0x10, 4, 5, 0, false, [⟨0, 0, "INIT_DONE", .ro, .live, 0⟩, ⟨1, 1, "INIT_ERR", .ro, .live, 0⟩, ⟨2, 2, "ADDR_VALID", .ro, .live, 0⟩]⟩,
  ⟨"IMU_PORT_ERR", 0x50618, 0x10, 4, 5, 0, false, [⟨15, 0, "NACK", .snap, .live, 0⟩, ⟨31, 16, "OVERRUN", .snap, .live, 0⟩]⟩]

/-- Camera ingest and stitch markers (R203 to R206). -/
def regRowsIngest : List RegRow := [
  ⟨"CSI_RX_CFG", 0x100000, 0x20, 12, 7, 0, false, [⟨23, 16, "RATE", .rwl, .cast, 0⟩, ⟨4, 4, "DESKEW", .rwl, .cast, 0⟩, ⟨3, 2, "LANES", .rwl, .cast, 0⟩, ⟨1, 1, "PHY", .rwl, .cast, 0⟩, ⟨0, 0, "ENABLE", .rwl, .cast, 0⟩]⟩,
  ⟨"CSI_RX_CTRL", 0x100004, 0x20, 12, 7, 0, false, [⟨0, 0, "PORT_RESET", .wo, .live, 0⟩]⟩,
  ⟨"CSI_RX_STATUS", 0x100008, 0x20, 12, 7, 0, false, [⟨2, 2, "IN_RESET", .ro, .live, 0⟩, ⟨1, 1, "STOP", .ro, .live, 0⟩, ⟨0, 0, "ACTIVE", .ro, .live, 0⟩]⟩,
  ⟨"CSI_RX_ERR", 0x10000c, 0x20, 12, 7, 0, false, [⟨15, 0, "ECC_CORR", .snap, .live, 0⟩, ⟨31, 16, "CRC_ERR", .snap, .live, 0⟩]⟩,
  ⟨"CSI_RX_DROP", 0x100010, 0x20, 12, 7, 0, false, [⟨15, 0, "UNMATCHED", .snap, .live, 0⟩, ⟨31, 16, "PHY_ERR", .snap, .live, 0⟩]⟩,
  ⟨"STREAM_CFG", 0x100400, 0x40, 12, 8, 0, false, [⟨31, 28, "GROUP", .rwl, .cast, 0xf⟩, ⟨27, 26, "DEPTH", .rwl, .cast, 2⟩, ⟨25, 23, "PLANES", .rwl, .cast, 0⟩, ⟨22, 17, "DT", .rwl, .cast, 0x2c⟩, ⟨16, 13, "VC", .rwl, .cast, 0⟩, ⟨12, 9, "PORT", .rwl, .cast, 0⟩, ⟨0, 0, "ENABLE", .rwl, .cast, 0⟩]⟩,
  ⟨"STREAM_GEOM", 0x100404, 0x40, 12, 8, 0, false, [⟨15, 0, "WIDTH", .rwl, .cast, 0⟩, ⟨31, 16, "HEIGHT", .rwl, .cast, 0⟩]⟩,
  ⟨"STREAM_AREA", 0x100408, 0x40, 12, 8, 0, false, [⟨10, 0, "BASE", .rwl, .cast, 0⟩]⟩,
  ⟨"STREAM_LINK", 0x10040c, 0x40, 12, 8, 0, false, [⟨11, 0, "MARKER", .rwl, .cast, 0⟩, ⟨23, 16, "TRANSFORM", .rwl, .cast, 0⟩]⟩,
  ⟨"STREAM_PERIOD", 0x100410, 0x40, 12, 8, 0, false, [⟨16, 0, "PERIOD_US", .rwl, .cast, 0x8236⟩]⟩,
  ⟨"STREAM_STATUS", 0x100414, 0x40, 12, 8, 0, false, [⟨5, 4, "SET", .ro, .live, 0⟩, ⟨3, 3, "SLIPPED", .w1c, .live, 0⟩, ⟨2, 2, "BAD", .w1c, .live, 0⟩, ⟨1, 1, "CFG_ERR", .ro, .cast, 0⟩, ⟨0, 0, "ACTIVE", .ro, .live, 0⟩]⟩,
  ⟨"STREAM_FRAMES", 0x100418, 0x40, 12, 8, 0, false, [⟨31, 0, "FRAMES", .snap, .live, 0⟩]⟩,
  ⟨"STREAM_LOSS", 0x10041c, 0x40, 12, 8, 0, false, [⟨15, 0, "BAD", .snap, .live, 0⟩, ⟨31, 16, "NO_BUFFER", .snap, .live, 0⟩]⟩,
  ⟨"STREAM_SLIP", 0x100420, 0x40, 12, 8, 0, false, [⟨15, 0, "SLIPS", .snap, .live, 0⟩, ⟨31, 16, "STALE", .snap, .live, 0⟩]⟩,
  ⟨"STREAM_FS_SEC_LO", 0x100424, 0x40, 12, 8, 0, true, [⟨31, 0, "SEC", .ro, .live, 0⟩]⟩,
  ⟨"STREAM_FS_SEC_HI", 0x100428, 0x40, 12, 8, 0, false, [⟨31, 0, "SEC", .ro, .live, 0⟩]⟩,
  ⟨"STREAM_FS_NS", 0x10042c, 0x40, 12, 8, 0, false, [⟨29, 0, "NS", .ro, .live, 0⟩]⟩,
  ⟨"PAIR_CFG", 0x100800, 0x10, 6, 8, 0, false, [⟨27, 16, "MEMBERS", .rwl, .cast, 0⟩, ⟨11, 8, "REF", .rwl, .cast, 0⟩, ⟨0, 0, "ENABLE", .rwl, .cast, 0⟩]⟩,
  ⟨"PAIR_TOL", 0x100804, 0x10, 6, 8, 0, false, [⟨23, 0, "TOL_NS", .rwl, .cast, 0xc350⟩]⟩,
  ⟨"PAIR_WAIT", 0x100808, 0x10, 6, 8, 0, false, [⟨15, 0, "WAIT_US", .rwl, .cast, 0xc8⟩]⟩,
  ⟨"PAIR_STATUS", 0x10080c, 0x10, 6, 8, 0, false, [⟨0, 0, "ACTIVE", .ro, .live, 0⟩, ⟨1, 1, "STALE", .w1c, .live, 0⟩]⟩,
  ⟨"STITCH_ERR", 0x100f00, 0, 1, 8, 0, false, [⟨15, 0, "PROTO", .snap, .live, 0⟩]⟩,
  ⟨"STITCH_MARKER", 0x104000, 4, 4096, 8, 0, false, [⟨31, 16, "READERS", .ro, .live, 0⟩, ⟨15, 4, "GEN", .ro, .live, 0⟩, ⟨3, 2, "HOLD", .ro, .live, 0⟩, ⟨1, 0, "STATE", .ro, .live, 0⟩]⟩]

/-- Frame graphs, engines and stereo (R234 to R236, R254). -/
def regRowsGraph : List RegRow := [
  ⟨"GRAPH_CFG", 0x108000, 0x40, 8, 8, 0, false, [⟨13, 8, "NODES", .ro, .cast, 0⟩, ⟨7, 4, "SRC", .rwl, .cast, 0⟩, ⟨2, 1, "TRIG", .rwl, .cast, 0⟩, ⟨0, 0, "ENABLE", .rwl, .cast, 0⟩]⟩,
  ⟨"GRAPH_STATUS", 0x108004, 0x40, 8, 8, 0, false, [⟨4, 4, "STALE", .w1c, .live, 0⟩, ⟨3, 3, "DROP", .w1c, .live, 0⟩, ⟨2, 2, "NODE_FAIL", .w1c, .live, 0⟩, ⟨1, 1, "CFG_ERR", .ro, .cast, 0⟩, ⟨0, 0, "RUNNING", .ro, .live, 0⟩]⟩,
  ⟨"GRAPH_ACT", 0x108008, 0x40, 8, 8, 0, false, [⟨31, 0, "ACTIVATIONS", .snap, .live, 0⟩]⟩,
  ⟨"GRAPH_LOSS", 0x10800c, 0x40, 8, 8, 0, false, [⟨15, 0, "DROPPED", .snap, .live, 0⟩, ⟨31, 16, "NOT_RUN", .snap, .live, 0⟩]⟩,
  ⟨"GRAPH_NODES", 0x108010, 0x40, 8, 8, 0, false, [⟨15, 0, "SKIPPED", .snap, .live, 0⟩, ⟨31, 16, "FAILED", .snap, .live, 0⟩]⟩,
  ⟨"GRAPH_WORST", 0x108014, 0x40, 8, 8, 0, false, [⟨19, 0, "WORST_US", .snap, .live, 0⟩]⟩,
  ⟨"GRAPH_LAST", 0x108018, 0x40, 8, 8, 0, false, [⟨5, 0, "NODE", .ro, .live, 0⟩, ⟨11, 8, "CODE", .ro, .live, 0⟩]⟩,
  ⟨"ENG_JOBS", 0x108400, 8, 9, 9, 0, false, [⟨31, 0, "JOBS", .snap, .live, 0⟩]⟩,
  ⟨"ENG_BUSY", 0x108404, 8, 9, 9, 0, false, [⟨31, 0, "BUSY_US", .snap, .live, 0⟩]⟩,
  ⟨"VER_STATUS", 0x108500, 0, 1, 10, 0, false, [⟨6, 0, "QUEUED", .ro, .live, 0⟩, ⟨8, 8, "BUSY", .ro, .live, 0⟩]⟩,
  ⟨"VER_RESULTS", 0x108504, 0, 1, 10, 0, false, [⟨15, 0, "ACCEPTED", .snap, .live, 0⟩, ⟨31, 16, "REJECTED", .snap, .live, 0⟩]⟩,
  ⟨"VER_LOSS", 0x108508, 0, 1, 10, 0, false, [⟨15, 0, "REFUSED", .snap, .live, 0⟩, ⟨31, 16, "DEADLINE", .snap, .live, 0⟩]⟩,
  ⟨"FG_TABLE_STATUS", 0x108600, 0, 1, 8, 0, false, [⟨0, 0, "BUF_ERR", .ro, .cast, 0⟩, ⟨1, 1, "MARKER_ERR", .ro, .cast, 0⟩, ⟨27, 16, "FIRST_BAD", .ro, .cast, 0⟩]⟩,
  ⟨"SGM_STATUS", 0x10c000, 0x40, 2, 11, 0, false, [⟨19, 16, "LAST_CODE", .ro, .live, 0⟩, ⟨13, 8, "NODE", .ro, .live, 0⟩, ⟨6, 4, "GRAPH", .ro, .live, 0⟩, ⟨0, 0, "BUSY", .ro, .live, 0⟩]⟩,
  ⟨"SGM_JOBS", 0x10c004, 0x40, 2, 11, 0, false, [⟨31, 0, "JOBS", .snap, .live, 0⟩]⟩,
  ⟨"SGM_BUSY", 0x10c008, 0x40, 2, 11, 0, false, [⟨31, 0, "BUSY_US", .snap, .live, 0⟩]⟩,
  ⟨"SGM_WORST", 0x10c00c, 0x40, 2, 11, 0, false, [⟨23, 0, "WORST_US", .snap, .live, 0⟩]⟩,
  ⟨"SGM_LAST_A", 0x10c010, 0x40, 2, 11, 0, false, [⟨10, 0, "LOW_TEX", .ro, .live, 0⟩, ⟨26, 16, "OCCL", .ro, .live, 0⟩]⟩,
  ⟨"SGM_LAST_B", 0x10c014, 0x40, 2, 11, 0, false, [⟨10, 0, "RANGE", .ro, .live, 0⟩, ⟨26, 16, "SAT", .ro, .live, 0⟩]⟩]

/-- Neural fabric (R294 to R299). -/
def regRowsNeural : List RegRow := [
  ⟨"NE_CORE_STATUS", 0x200000, 0x10000, 16, 32, 1, false, [⟨21, 12, "STEP", .ro, .live, 0⟩, ⟨11, 4, "PROGRAM", .ro, .live, 0⟩, ⟨1, 1, "WAIT_W", .ro, .live, 0⟩, ⟨0, 0, "BUSY", .ro, .live, 0⟩]⟩,
  ⟨"NE_CORE_BUSY", 0x200004, 0x10000, 16, 32, 1, false, [⟨31, 0, "BUSY_US", .snap, .live, 0⟩]⟩,
  ⟨"NE_CORE_MACS_LO", 0x200008, 0x10000, 16, 32, 1, true, [⟨31, 0, "MACS", .snap, .live, 0⟩]⟩,
  ⟨"NE_CORE_MACS_HI", 0x20000c, 0x10000, 16, 32, 1, false, [⟨31, 0, "MACS", .snap, .live, 0⟩]⟩,
  ⟨"NE_CORE_WBYTES_LO", 0x200010, 0x10000, 16, 32, 1, true, [⟨31, 0, "WBYTES", .snap, .live, 0⟩]⟩,
  ⟨"NE_CORE_WBYTES_HI", 0x200014, 0x10000, 16, 32, 1, false, [⟨31, 0, "WBYTES", .snap, .live, 0⟩]⟩,
  ⟨"NE_CORE_NUM", 0x200018, 0x10000, 16, 32, 1, false, [⟨15, 0, "NAN_OUT", .snap, .live, 0⟩, ⟨31, 16, "GEOM_NAN", .snap, .live, 0⟩]⟩,
  ⟨"NE_CORE_ERR", 0x20001c, 0x10000, 16, 32, 1, false, [⟨15, 0, "ENGINE_ERR", .snap, .live, 0⟩, ⟨31, 16, "PARTNER_RESET", .snap, .live, 0⟩]⟩,
  ⟨"NE_CTRL", 0x208000, 0, 1, 8, 0, false, [⟨6, 0, "WS_BUDGET_GBS", .rwl, .live, 0x50⟩]⟩,
  ⟨"NE_STATUS", 0x208004, 0, 1, 8, 0, false, [⟨31, 16, "CORES_BUSY", .ro, .live, 0⟩, ⟨12, 8, "RUNNING", .ro, .live, 0⟩, ⟨6, 0, "QUEUED", .ro, .live, 0⟩]⟩,
  ⟨"NE_REQ_DONE", 0x208008, 0, 1, 8, 0, false, [⟨31, 0, "DONE", .snap, .live, 0⟩]⟩,
  ⟨"NE_REQ_LOSS", 0x20800c, 0, 1, 8, 0, false, [⟨15, 0, "REFUSED", .snap, .live, 0⟩, ⟨31, 16, "DROPPED", .snap, .live, 0⟩]⟩,
  ⟨"NE_REFUSE_LAST", 0x208010, 0, 1, 8, 0, false, [⟨1, 0, "CAUSE", .ro, .live, 0⟩, ⟨15, 8, "PROGRAM", .ro, .live, 0⟩, ⟨18, 16, "GRAPH", .ro, .live, 0⟩, ⟨29, 24, "NODE", .ro, .live, 0⟩]⟩,
  ⟨"NE_WS_STALL", 0x208014, 0, 1, 8, 0, false, [⟨31, 0, "STALL_US", .snap, .live, 0⟩]⟩,
  ⟨"NE_PROG_STATUS", 0x208020, 0, 1, 8, 0, false, [⟨30, 28, "REASON", .ro, .cast, 0⟩, ⟨25, 16, "FIRST_STEP", .ro, .cast, 0⟩, ⟨15, 8, "FIRST_PROG", .ro, .cast, 0⟩, ⟨0, 0, "BAD", .ro, .cast, 0⟩]⟩,
  ⟨"NE_PROG_VALID", 0x208040, 4, 8, 8, 0, false, [⟨31, 0, "BITS", .ro, .cast, 0⟩]⟩]

/-- Tracking and fusion (R366 to R371). -/
def regRowsTrack : List RegRow := [
  ⟨"TF_STATUS", 0x300004, 0, 1, 12, 0, false, [⟨5, 5, "GAP", .w1c, .live, 0⟩, ⟨4, 4, "CFG_ERR", .ro, .cast, 0⟩, ⟨3, 3, "POSE_VALID", .ro, .live, 0⟩, ⟨2, 2, "PROP_VALID", .ro, .live, 0⟩, ⟨1, 0, "PROP_IMU", .ro, .live, 0⟩]⟩,
  ⟨"TF_CFG_STATUS", 0x300008, 0, 1, 12, 0, false, [⟨3, 0, "OBJECT", .ro, .cast, 0⟩, ⟨15, 8, "INDEX", .ro, .cast, 0⟩]⟩,
  ⟨"TF_LATE_COUNT_0", 0x300010, 0, 1, 12, 0, false, [⟨15, 0, "IMU", .snap, .live, 0⟩, ⟨31, 16, "JOINT", .snap, .live, 0⟩]⟩,
  ⟨"TF_LATE_COUNT_1", 0x300014, 0, 1, 12, 0, false, [⟨15, 0, "FEATURE", .snap, .live, 0⟩, ⟨31, 16, "OBJECT", .snap, .live, 0⟩]⟩,
  ⟨"TF_JOINT_CFG", 0x300018, 0, 1, 12, 0, false, [⟨15, 0, "JOINT_LAT_NS", .rwl, .cast, 0⟩, ⟨31, 16, "STALE_US", .rwl, .cast, 0x7d0⟩]⟩,
  ⟨"TF_JOINT_COUNTS", 0x30001c, 0, 1, 12, 0, false, [⟨9, 0, "BAD", .snap, .live, 0⟩, ⟨19, 10, "REPEAT", .snap, .live, 0⟩, ⟨29, 20, "SKIP", .snap, .live, 0⟩]⟩,
  ⟨"TF_CONS_DROP", 0x300020, 0, 1, 12, 0, false, [⟨15, 0, "FEATURE", .snap, .live, 0⟩, ⟨31, 16, "OBJECT", .snap, .live, 0⟩]⟩,
  ⟨"TF_JOINT_TIME", 0x300024, 0, 1, 12, 0, false, [⟨15, 0, "BAD_TIME", .snap, .live, 0⟩, ⟨31, 16, "ORDER", .snap, .live, 0⟩]⟩,
  ⟨"IMU_STATUS", 0x300100, 0x10, 4, 12, 0, false, [⟨31, 16, "RATE_HZ", .ro, .live, 0⟩, ⟨2, 2, "PROPAGATING", .ro, .live, 0⟩, ⟨1, 1, "GAPPED", .ro, .live, 0⟩, ⟨0, 0, "ENABLED", .ro, .cast, 0⟩]⟩,
  ⟨"IMU_SAMPLES", 0x300104, 0x10, 4, 12, 0, false, [⟨31, 0, "SAMPLES", .snap, .live, 0⟩]⟩,
  ⟨"IMU_ERR", 0x300108, 0x10, 4, 12, 0, false, [⟨15, 0, "ORDER", .snap, .live, 0⟩, ⟨31, 16, "BAD_TIME", .snap, .live, 0⟩]⟩,
  ⟨"FT_USE", 0x300200, 0, 1, 12, 0, false, [⟨16, 0, "ACTIVE", .ro, .live, 0⟩]⟩,
  ⟨"FT_COUNTS", 0x300204, 0, 1, 12, 0, false, [⟨31, 0, "BORN", .snap, .live, 0⟩]⟩,
  ⟨"FT_LOSS", 0x300208, 0, 1, 12, 0, false, [⟨15, 0, "LOST", .snap, .live, 0⟩, ⟨31, 16, "FULL", .snap, .live, 0⟩]⟩,
  ⟨"FT_STALE_ID", 0x30020c, 0, 1, 12, 0, false, [⟨15, 0, "STALE_ID", .snap, .live, 0⟩]⟩,
  ⟨"OT_CFG_0", 0x300300, 0, 1, 12, 0, false, [⟨31, 24, "MAX_COAST", .rwl, .cast, 0x32⟩, ⟨19, 16, "CONFIRM", .rwl, .cast, 3⟩, ⟨15, 8, "BIRTH_SCORE", .rwl, .cast, 0xb3⟩, ⟨7, 0, "GATE", .rwl, .cast, 0x90⟩]⟩,
  ⟨"OT_CFG_1", 0x300304, 0, 1, 12, 0, false, [⟨31, 24, "VEL_SIGMA0", .rwl, .cast, 0x20⟩, ⟨23, 16, "ACC_SIGMA", .rwl, .cast, 0x20⟩, ⟨15, 8, "RANGE_REL", .rwl, .cast, 0xd⟩, ⟨7, 0, "PIX_SIGMA", .rwl, .cast, 0x10⟩]⟩,
  ⟨"OT_STATUS", 0x300308, 0, 1, 12, 0, false, [⟨10, 0, "CONFIRMED", .ro, .live, 0⟩, ⟨26, 16, "USED", .ro, .live, 0⟩]⟩,
  ⟨"OT_COUNTS", 0x30030c, 0, 1, 12, 0, false, [⟨15, 0, "BORN", .snap, .live, 0⟩, ⟨31, 16, "FREED", .snap, .live, 0⟩]⟩,
  ⟨"OT_LOSS", 0x300310, 0, 1, 12, 0, false, [⟨15, 0, "TRUNC", .snap, .live, 0⟩, ⟨31, 16, "NO_DEPTH", .snap, .live, 0⟩]⟩,
  ⟨"OT_LOSS_OLD", 0x300314, 0, 1, 12, 0, false, [⟨15, 0, "OLD", .snap, .live, 0⟩]⟩,
  ⟨"OT_WORST", 0x300318, 0, 1, 12, 0, false, [⟨19, 0, "WORST_US", .snap, .live, 0⟩]⟩]

/-- Solver fabric (R411 to R415). -/
def regRowsSolver : List RegRow := [
  ⟨"SOLV_CFG", 0x400000, 0x1000, 2, 13, 1, false, [⟨29, 24, "PIVOT_EXP", .rwl, .cast, 0x18⟩, ⟨20, 16, "CHECK_EXP", .rwl, .cast, 0x12⟩, ⟨12, 8, "REFINE_EXP", .rwl, .cast, 0x1e⟩, ⟨7, 3, "PROOF_EXP", .rwl, .cast, 0xc⟩, ⟨2, 0, "REFINE_MAX", .rwl, .cast, 2⟩]⟩,
  ⟨"SOLV_STATUS", 0x400004, 0x1000, 2, 13, 1, false, [⟨20, 16, "QUEUED", .ro, .live, 0⟩, ⟨10, 8, "SLOT", .ro, .live, 0⟩, ⟨6, 4, "PHASE", .ro, .live, 0⟩, ⟨3, 3, "SUSPENDED", .ro, .live, 0⟩, ⟨2, 2, "CLASS_A", .ro, .live, 0⟩, ⟨1, 1, "LOADING", .ro, .live, 0⟩, ⟨0, 0, "BUSY", .ro, .live, 0⟩]⟩,
  ⟨"SOLV_CODES_0", 0x400008, 0x1000, 2, 13, 1, false, [⟨15, 0, "SOLVED", .snap, .live, 0⟩, ⟨31, 16, "SOLVED_INACCURATE", .snap, .live, 0⟩]⟩,
  ⟨"SOLV_CODES_1", 0x40000c, 0x1000, 2, 13, 1, false, [⟨15, 0, "DEADLINE_ITER", .snap, .live, 0⟩, ⟨31, 16, "DEADLINE_FACT", .snap, .live, 0⟩]⟩,
  ⟨"SOLV_CODES_2", 0x400010, 0x1000, 2, 13, 1, false, [⟨15, 0, "WARM_REJECT", .snap, .live, 0⟩, ⟨31, 16, "INFEASIBLE", .snap, .live, 0⟩]⟩,
  ⟨"SOLV_CODES_3", 0x400014, 0x1000, 2, 13, 1, false, [⟨15, 0, "NUMERIC", .snap, .live, 0⟩, ⟨31, 16, "MISMATCH", .snap, .live, 0⟩]⟩,
  ⟨"SOLV_ERR", 0x400018, 0x1000, 2, 13, 1, false, [⟨15, 0, "ENTRY_SKIPPED", .snap, .live, 0⟩, ⟨31, 16, "CHECK_FAIL", .snap, .live, 0⟩]⟩,
  ⟨"SOLV_QUEUE", 0x40001c, 0x1000, 2, 13, 1, false, [⟨15, 0, "REFUSED", .snap, .live, 0⟩, ⟨31, 16, "SUSPENDS", .snap, .live, 0⟩]⟩,
  ⟨"SOLV_WARM", 0x400020, 0x1000, 2, 13, 1, false, [⟨15, 0, "WARM_USED", .snap, .live, 0⟩, ⟨31, 16, "WARM_REJECTED", .snap, .live, 0⟩]⟩,
  ⟨"SOLV_BUSY", 0x400024, 0x1000, 2, 13, 1, false, [⟨31, 0, "BUSY_US", .snap, .live, 0⟩]⟩,
  ⟨"SOLV_WORST", 0x400028, 0x1000, 2, 13, 1, false, [⟨19, 0, "WORST_US", .snap, .live, 0⟩]⟩,
  ⟨"SOLV_A_CFG", 0x400030, 0, 1, 13, 0, false, [⟨5, 4, "FEED", .rwl, .cast, 1⟩, ⟨2, 0, "SLOT", .rwl, .live, 0⟩]⟩,
  ⟨"SOLV_PAIR_STATUS", 0x400034, 0, 1, 13, 0, false, [⟨0, 0, "MISMATCH", .w1c, .live, 0⟩]⟩,
  ⟨"SOLV_PAIR_LAST_LO", 0x400038, 0, 1, 13, 0, true, [⟨31, 0, "PERIOD", .ro, .sticky, 0⟩]⟩,
  ⟨"SOLV_PAIR_LAST_HI", 0x40003c, 0, 1, 13, 0, false, [⟨31, 0, "PERIOD", .ro, .sticky, 0⟩]⟩,
  ⟨"SOLV_A_SCHED", 0x400040, 4, 4, 13, 0, false, [⟨23, 0, "CYCLES", .ro, .live, 0⟩]⟩,
  ⟨"SOLV_SLOT_0", 0x400100, 0x10, 8, 13, 0, false, [⟨31, 16, "SUPERNODES", .ro, .live, 0⟩, ⟨9, 8, "KIND", .ro, .live, 0⟩, ⟨7, 7, "A_READY", .ro, .live, 0⟩, ⟨6, 6, "PROVED", .ro, .live, 0⟩, ⟨5, 5, "FACTOR", .ro, .live, 0⟩, ⟨4, 4, "RUNTIME", .ro, .live, 0⟩, ⟨3, 0, "CODE", .ro, .live, 0⟩]⟩,
  ⟨"SOLV_SIG_LO_0", 0x400104, 0x10, 8, 13, 0, true, [⟨31, 0, "SIG", .ro, .live, 0⟩]⟩,
  ⟨"SOLV_SIG_HI_0", 0x400108, 0x10, 8, 13, 0, false, [⟨31, 0, "SIG", .ro, .live, 0⟩]⟩,
  ⟨"SOLV_FOOT_0", 0x40010c, 0x10, 8, 13, 0, false, [⟨14, 0, "FOOT_KIB", .ro, .live, 0⟩]⟩,
  ⟨"SOLV_SLOT_1", 0x401100, 0x10, 8, 14, 0, false, [⟨31, 16, "SUPERNODES", .ro, .live, 0⟩, ⟨9, 8, "KIND", .ro, .live, 0⟩, ⟨7, 7, "A_READY", .ro, .live, 0⟩, ⟨6, 6, "PROVED", .ro, .live, 0⟩, ⟨5, 5, "FACTOR", .ro, .live, 0⟩, ⟨4, 4, "RUNTIME", .ro, .live, 0⟩, ⟨3, 0, "CODE", .ro, .live, 0⟩]⟩,
  ⟨"SOLV_SIG_LO_1", 0x401104, 0x10, 8, 14, 0, true, [⟨31, 0, "SIG", .ro, .live, 0⟩]⟩,
  ⟨"SOLV_SIG_HI_1", 0x401108, 0x10, 8, 14, 0, false, [⟨31, 0, "SIG", .ro, .live, 0⟩]⟩,
  ⟨"SOLV_FOOT_1", 0x40110c, 0x10, 8, 14, 0, false, [⟨14, 0, "FOOT_KIB", .ro, .live, 0⟩]⟩]

/-- Search fabric (R472 to R478). -/
def regRowsSearchA : List RegRow := [
  ⟨"SRCH_CFG", 0x500000, 0, 1, 16, 0, false, [⟨11, 8, "RETRY_MAX", .rwl, .cast, 8⟩, ⟨4, 0, "CQ_GBS", .rwl, .live, 8⟩]⟩,
  ⟨"NAND_GEOM_0", 0x500010, 0, 1, 16, 0, false, [⟨31, 24, "SPARE", .rwl, .cast, 0x20⟩, ⟨19, 8, "PAGES", .rwl, .cast, 0x400⟩, ⟨4, 3, "LUNS", .rwl, .cast, 0⟩, ⟨2, 0, "TARGETS", .rwl, .cast, 0⟩]⟩,
  ⟨"NAND_GEOM_1", 0x500014, 0, 1, 16, 0, false, [⟨15, 0, "BLOCKS", .rwl, .cast, 0⟩, ⟨27, 16, "RATE", .rwl, .cast, 0⟩]⟩,
  ⟨"IDX_REG_A_FIRST", 0x500100, 0x40, 2, 16, 0, false, [⟨31, 0, "V", .rwl, .cast, 0⟩]⟩,
  ⟨"IDX_REG_A_BLOCKS", 0x500104, 0x40, 2, 16, 0, false, [⟨31, 0, "V", .rwl, .cast, 0⟩]⟩,
  ⟨"IDX_REG_B_FIRST", 0x500108, 0x40, 2, 16, 0, false, [⟨31, 0, "V", .rwl, .cast, 0⟩]⟩,
  ⟨"IDX_REG_B_BLOCKS", 0x50010c, 0x40, 2, 16, 0, false, [⟨31, 0, "V", .rwl, .cast, 0⟩]⟩,
  ⟨"IDX_OBJ_A", 0x500110, 0x40, 2, 16, 0, false, [⟨31, 0, "V", .rwl, .cast, 0⟩]⟩,
  ⟨"IDX_OBJ_B", 0x500114, 0x40, 2, 16, 0, false, [⟨31, 0, "V", .rwl, .cast, 0⟩]⟩,
  ⟨"IDX_STATUS", 0x500118, 0x40, 2, 16, 0, false, [⟨5, 5, "COMMIT_B", .ro, .live, 0⟩, ⟨4, 4, "COMMIT_A", .ro, .live, 0⟩, ⟨3, 3, "ACTIVE", .ro, .live, 0⟩, ⟨2, 2, "NO_EPOCH", .ro, .live, 0⟩, ⟨1, 1, "CFG_ERR", .ro, .cast, 0⟩, ⟨0, 0, "READY", .ro, .live, 0⟩]⟩,
  ⟨"IDX_EPOCH", 0x50011c, 0x40, 2, 16, 0, false, [⟨31, 0, "EPOCH", .ro, .live, 0⟩]⟩,
  ⟨"IDX_PINS", 0x500120, 0x40, 2, 16, 0, false, [⟨15, 0, "PINS_A", .ro, .live, 0⟩, ⟨31, 16, "PINS_B", .ro, .live, 0⟩]⟩,
  ⟨"IDX_QUERIES", 0x500124, 0x40, 2, 16, 0, false, [⟨31, 0, "DONE", .snap, .live, 0⟩]⟩,
  ⟨"IDX_LOSS", 0x500128, 0x40, 2, 16, 0, false, [⟨15, 0, "DROPPED", .snap, .live, 0⟩, ⟨31, 16, "REFUSED", .snap, .live, 0⟩]⟩,
  ⟨"IDX_FLAGS", 0x50012c, 0x40, 2, 16, 0, false, [⟨15, 0, "SHORT", .snap, .live, 0⟩, ⟨31, 16, "TRUNC", .snap, .live, 0⟩]⟩,
  ⟨"IDX_EPOCHF", 0x500130, 0x40, 2, 16, 0, false, [⟨15, 0, "EPOCH", .snap, .live, 0⟩, ⟨31, 16, "UE_PAGES", .snap, .live, 0⟩]⟩,
  ⟨"SRCH_IMPORT_STATUS", 0x500200, 0, 1, 16, 0, false, [⟨11, 8, "CODE", .ro, .live, 0⟩, ⟨6, 6, "REGION", .ro, .live, 0⟩, ⟨5, 5, "INDEX", .ro, .live, 0⟩, ⟨4, 4, "ENDED", .w1c, .live, 0⟩, ⟨2, 0, "STATE", .ro, .live, 0⟩]⟩,
  ⟨"SRCH_IMPORT_PAGES", 0x500204, 0, 1, 16, 0, false, [⟨31, 0, "PAGES", .ro, .live, 0⟩]⟩,
  ⟨"SRCH_IMPORT_EPOCH", 0x500208, 0, 1, 16, 0, false, [⟨31, 0, "EPOCH", .ro, .live, 0⟩]⟩,
  ⟨"SRCH_PLACE_0", 0x500300, 0, 1, 16, 0, false, [⟨22, 16, "K", .rwl, .cast, 8⟩, ⟨15, 7, "QUERIES", .rwl, .cast, 0x100⟩, ⟨2, 1, "METRIC", .rwl, .cast, 0⟩, ⟨0, 0, "INDEX", .rwl, .cast, 0⟩]⟩,
  ⟨"SRCH_PLACE_1", 0x500304, 0, 1, 16, 0, false, [⟨8, 0, "NPROBE", .rwl, .cast, 0⟩, ⟨23, 16, "MIN_VOTES", .rwl, .cast, 0⟩, ⟨25, 24, "MODE", .rwl, .cast, 0⟩]⟩,
  ⟨"SRCH_PLACE_2", 0x500308, 0, 1, 16, 0, false, [⟨31, 0, "MAX_DIST", .rwl, .cast, 0⟩]⟩,
  ⟨"SRCH_PLACE_3", 0x50030c, 0, 1, 16, 0, false, [⟨31, 0, "MASK", .rwl, .cast, 0⟩]⟩,
  ⟨"SRCH_PLACE_4", 0x500310, 0, 1, 16, 0, false, [⟨31, 0, "VALUE", .rwl, .cast, 0⟩]⟩,
  ⟨"SRCH_PLACE_COUNT", 0x500314, 0, 1, 16, 0, false, [⟨15, 0, "DONE", .snap, .live, 0⟩, ⟨31, 16, "NOT_DONE", .snap, .live, 0⟩]⟩]

/-- Search fabric (R472 to R478). -/
def regRowsSearchB : List RegRow := [
  ⟨"SRCH_PROBE_CTRL", 0x500400, 0, 1, 16, 0, false, [⟨0, 0, "START", .wo, .live, 0⟩]⟩,
  ⟨"SRCH_PROBE_CFG", 0x500404, 0, 1, 16, 0, false, [⟨31, 0, "OBJ", .rwl, .cast, 0⟩]⟩,
  ⟨"SRCH_PROBE_STATUS", 0x500408, 0, 1, 16, 0, false, [⟨0, 0, "BUSY", .ro, .live, 0⟩, ⟨1, 1, "DONE", .w1c, .live, 0⟩, ⟨2, 2, "ERR", .ro, .live, 0⟩]⟩,
  ⟨"SRCH_PROBE_HITS", 0x50040c, 0, 1, 16, 0, false, [⟨31, 0, "HITS", .ro, .live, 0⟩]⟩,
  ⟨"SRCH_PROBE_EXPECTED", 0x500410, 0, 1, 16, 0, false, [⟨31, 0, "EXPECTED", .ro, .live, 0⟩]⟩,
  ⟨"SRCH_PROBE_QUERIES", 0x500414, 0, 1, 16, 0, false, [⟨15, 0, "QUERIES_DONE", .ro, .live, 0⟩, ⟨31, 16, "QUERIES_OTHER", .ro, .live, 0⟩]⟩,
  ⟨"NCH_STATUS", 0x501000, 0x20, 16, 16, 1, false, [⟨27, 16, "CONTEXTS", .ro, .live, 0⟩, ⟨2, 2, "GEOM_ERR", .ro, .live, 0⟩, ⟨1, 1, "INIT", .ro, .live, 0⟩, ⟨0, 0, "READY", .ro, .live, 0⟩]⟩,
  ⟨"NCH_PAGES", 0x501004, 0x20, 16, 16, 1, false, [⟨31, 0, "PAGES", .snap, .live, 0⟩]⟩,
  ⟨"NCH_RETRY", 0x501008, 0x20, 16, 16, 1, false, [⟨31, 0, "RETRIES", .snap, .live, 0⟩]⟩,
  ⟨"NCH_BLOCKS", 0x50100c, 0x20, 16, 16, 1, false, [⟨15, 0, "BAD", .ro, .live, 0⟩, ⟨31, 16, "RETIRED", .snap, .live, 0⟩]⟩,
  ⟨"NCH_BUSY", 0x501010, 0x20, 16, 16, 1, false, [⟨31, 0, "BUSY_US", .snap, .live, 0⟩]⟩]

/-- Memory tiers (R330 to R335). -/
def regRowsMemory : List RegRow := [
  ⟨"MEM_CFG", 0x600000, 0, 1, 15, 0, false, [⟨19, 16, "DENSITY", .rwl, .cast, 0⟩, ⟨13, 12, "RATE", .rwl, .cast, 0⟩, ⟨8, 8, "RANKS", .rwl, .cast, 0⟩, ⟨1, 1, "IF1_EN", .rwl, .cast, 0⟩, ⟨0, 0, "IF0_EN", .rwl, .cast, 0⟩]⟩,
  ⟨"MEM_STATUS", 0x600004, 0, 1, 15, 0, false, [⟨2, 2, "OBJ_ERR", .ro, .cast, 0⟩, ⟨1, 1, "DIR_READY", .ro, .live, 0⟩, ⟨0, 0, "TRAINED", .ro, .live, 0⟩]⟩,
  ⟨"MEM_DATA_MIB", 0x600008, 0, 1, 15, 0, false, [⟨15, 0, "MIB", .ro, .cast, 0⟩]⟩,
  ⟨"MEM_TILE_CFG", 0x60000c, 0, 1, 15, 0, false, [⟨24, 0, "DIR_ENTRIES", .rwl, .cast, 0⟩]⟩,
  ⟨"MEM_TILE_LAYOUT", 0x600010, 0, 1, 15, 0, false, [⟨7, 0, "CKPT_BLOCKS", .rwl, .cast, 0⟩, ⟨15, 8, "JOURNAL_BLOCKS", .rwl, .cast, 0⟩]⟩,
  ⟨"MEM_POOL_CFG", 0x600014, 0, 1, 15, 0, false, [⟨21, 16, "POOL_LOW", .rwl, .cast, 0x30⟩, ⟨13, 8, "POOL_HIGH", .rwl, .cast, 0x38⟩, ⟨5, 0, "POOL_MIB", .rwl, .cast, 0⟩]⟩,
  ⟨"MEM_DRAM_CFG", 0x600018, 0, 1, 15, 0, false, [⟨15, 0, "LOW_FREE_MIB", .rwl, .cast, 0x100⟩, ⟨31, 16, "TARGET_FREE_MIB", .rwl, .cast, 0x200⟩]⟩,
  ⟨"MEM_MOVE_CFG", 0x60001c, 0, 1, 15, 0, false, [⟨25, 16, "SCRUB_MBS", .rwl, .live, 0x100⟩, ⟨4, 0, "MOVE_GBS", .rwl, .live, 8⟩]⟩,
  ⟨"MEM_OBJ_STATUS", 0x600020, 0, 1, 15, 0, false, [⟨15, 0, "FIRST_BAD", .ro, .live, 0⟩, ⟨31, 16, "BULK_DROPPED", .snap, .live, 0⟩]⟩,
  ⟨"MEM_TILE_REGION_FIRST", 0x600100, 8, 16, 15, 0, false, [⟨31, 0, "FIRST_BLOCK", .rwl, .cast, 0⟩]⟩,
  ⟨"MEM_TILE_REGION_BLOCKS", 0x600104, 8, 16, 15, 0, false, [⟨31, 0, "BLOCKS", .rwl, .cast, 0⟩]⟩,
  ⟨"MEM_MOVES", 0x600200, 0, 1, 15, 0, false, [⟨31, 0, "DONE", .snap, .live, 0⟩]⟩,
  ⟨"MEM_MOVE_LOSS", 0x600204, 0, 1, 15, 0, false, [⟨15, 0, "ABANDONED", .snap, .live, 0⟩, ⟨31, 16, "NO_SPACE", .snap, .live, 0⟩]⟩,
  ⟨"MEM_CONFLICT", 0x600208, 0, 1, 15, 0, false, [⟨15, 0, "PINNED", .snap, .live, 0⟩, ⟨31, 16, "DROPPED", .snap, .live, 0⟩]⟩,
  ⟨"MEM_TILE_LOSS", 0x60020c, 0, 1, 15, 0, false, [⟨15, 0, "POOL_LOST", .snap, .live, 0⟩, ⟨31, 16, "UNRECORDED", .snap, .live, 0⟩]⟩,
  ⟨"MEM_USE", 0x600210, 0, 1, 15, 0, false, [⟨15, 0, "POOL_USED_KIB", .ro, .live, 0⟩, ⟨31, 16, "DRAM_FREE_MIB", .ro, .live, 0⟩]⟩,
  ⟨"MEM_PINS", 0x600214, 0, 1, 15, 0, false, [⟨12, 0, "LEDGER_USED", .ro, .live, 0⟩, ⟨31, 16, "PIN_FULL", .snap, .live, 0⟩]⟩,
  ⟨"SELV_CE", 0x600300, 8, 4, 15, 0, false, [⟨31, 0, "CE", .snap, .live, 0⟩]⟩,
  ⟨"SELV_UE", 0x600304, 8, 4, 15, 0, false, [⟨15, 0, "UE", .snap, .live, 0⟩, ⟨31, 16, "LOCATION", .snap, .live, 0⟩]⟩,
  ⟨"SELV_LAST", 0x600320, 0, 1, 15, 0, false, [⟨31, 16, "COUNT", .ro, .sticky, 0⟩, ⟨13, 8, "SWATCH", .ro, .sticky, 0⟩, ⟨3, 3, "SCRUB", .ro, .sticky, 0⟩, ⟨2, 2, "LOCATION", .ro, .sticky, 0⟩, ⟨1, 0, "MEDIUM", .ro, .sticky, 0⟩]⟩,
  ⟨"SELV_LAST_ADDR_LO", 0x600324, 0, 1, 15, 0, true, [⟨31, 0, "ADDR", .ro, .sticky, 0⟩]⟩,
  ⟨"SELV_LAST_ADDR_HI", 0x600328, 0, 1, 15, 0, false, [⟨31, 0, "ADDR", .ro, .sticky, 0⟩]⟩,
  ⟨"SELV_LDPC", 0x60032c, 0, 1, 15, 0, false, [⟨15, 0, "FAIL", .snap, .live, 0⟩]⟩]

/-- Security and calibration (R125 to R133). -/
def regRowsSecurity : List RegRow := [
  ⟨"SEC_STATE", 0x700000, 0, 1, 0, 0, false, [⟨4, 4, "FUSE_BUSY", .ro, .live, 0⟩, ⟨3, 3, "KEYS_LOCKED", .ro, .fuse, 0⟩, ⟨2, 0, "PHASE", .ro, .live, 0⟩]⟩,
  ⟨"KEY_STATUS", 0x700004, 0, 1, 0, 0, false, [⟨10, 10, "IMAGE_SLOT", .ro, .cast, 0⟩, ⟨9, 8, "SLOT_IN_USE", .ro, .cast, 0⟩, ⟨7, 4, "REVOKED", .ro, .fuse, 0⟩, ⟨3, 0, "PRESENT", .ro, .fuse, 0⟩]⟩,
  ⟨"ROLLBACK", 0x700008, 0, 1, 0, 0, false, [⟨16, 16, "COMMIT_PENDING", .ro, .live, 0⟩, ⟨14, 8, "IMAGE_VERSION", .ro, .cast, 0⟩, ⟨6, 0, "COUNTER", .ro, .fuse, 0⟩]⟩,
  ⟨"ROLLBACK_COMMIT", 0x70000c, 0, 1, 0, 0, false, [⟨6, 0, "VERSION", .wo, .live, 0⟩]⟩,
  ⟨"FUSE_PROG_CTRL", 0x700010, 0, 1, 0, 0, false, [⟨9, 9, "LOCK_KEYS", .wo, .live, 0⟩, ⟨8, 8, "PROGRAM", .wo, .live, 0⟩, ⟨5, 4, "SLOT", .rw, .live, 0⟩, ⟨3, 0, "WORD", .rw, .live, 0⟩]⟩,
  ⟨"FUSE_PROG_DATA", 0x700014, 0, 1, 0, 0, false, [⟨31, 0, "DATA", .rw, .live, 0⟩]⟩,
  ⟨"ATTEST_CTRL", 0x700020, 0, 1, 0, 0, false, [⟨0, 0, "START", .wo, .live, 0⟩]⟩,
  ⟨"ATTEST_STATUS", 0x700024, 0, 1, 0, 0, false, [⟨31, 16, "COUNT", .ro, .live, 0⟩, ⟨1, 1, "DONE", .w1c, .live, 0⟩, ⟨0, 0, "BUSY", .ro, .live, 0⟩]⟩,
  ⟨"ATTEST_WIN_ADDR", 0x700028, 0, 1, 0, 0, false, [⟨9, 0, "WORD", .rw, .live, 0⟩]⟩,
  ⟨"ATTEST_WIN_DATA", 0x70002c, 0, 1, 0, 0, false, [⟨31, 0, "DATA", .ro, .live, 0⟩]⟩,
  ⟨"BIND_OFF_CTRL", 0x700030, 0, 1, 0, 0, false, [⟨0, 0, "REQUEST", .wo, .live, 0⟩]⟩,
  ⟨"ATTEST_NONCE", 0x700040, 4, 8, 0, 0, false, [⟨31, 0, "NONCE", .rw, .live, 0⟩]⟩,
  ⟨"IMAGE_DIGEST", 0x700080, 4, 16, 0, 0, false, [⟨31, 0, "DIGEST", .ro, .cast, 0⟩]⟩,
  ⟨"CAL_FACT", 0x700100, 0x10, 24, 0, 0, false, [⟨15, 0, "VALUE", .ro, .fuse, 0⟩]⟩,
  ⟨"CAL_USER", 0x700104, 0x10, 24, 0, 0, false, [⟨15, 0, "OFFSET", .rwl, .cast, 0⟩]⟩,
  ⟨"CAL_EFF", 0x700108, 0x10, 24, 0, 0, false, [⟨15, 0, "VALUE", .ro, .live, 0⟩]⟩,
  ⟨"KEY_DIGEST", 0x700400, 4, 64, 0, 0, false, [⟨31, 0, "DIGEST", .ro, .fuse, 0⟩]⟩,
  ⟨"DEV_ED_PUB", 0x700500, 4, 8, 0, 0, false, [⟨31, 0, "KEY", .ro, .live, 0⟩]⟩,
  ⟨"DEV_MLDSA_PUB", 0x701000, 4, 488, 0, 0, false, [⟨31, 0, "KEY", .ro, .live, 0⟩]⟩]

/-- Every mapped register of the device (R581). -/
def regRows : List RegRow :=
  regRowsSystemA ++ regRowsSystemB ++ regRowsSwatch ++ regRowsPower ++ regRowsIntegrityA ++ regRowsIntegrityB ++ regRowsTimeA ++ regRowsTimeB ++ regRowsLinks ++ regRowsIngest ++ regRowsGraph ++ regRowsNeural ++ regRowsTrack ++ regRowsSolver ++ regRowsSearchA ++ regRowsSearchB ++ regRowsMemory ++ regRowsSecurity

end Sys2Proof.Machine
end

