-- ==== Sys2Proof/Machine/Fields.lean ====
section
/-!
DEFINITION. The address of each register and the place of each field that a meaning uses, under the names of the register
tables (R18): `reg_<REGISTER>` is an address, `fld_<REGISTER>_<FIELD>` a field. An array takes its index.
-/
namespace Sys2Proof.Machine

/-- A field: the register's address, its lowest bit and its width. -/
structure Fld where
  addr : Nat
  lo : Nat
  width : Nat
  deriving DecidableEq, Repr

/-- CAP_NEURAL_CORES (R569). -/
def reg_CAP_NEURAL_CORES : Nat := 0
/-- CAP_NEURAL_CORES.VALUE (R569). -/
def fld_CAP_NEURAL_CORES_VALUE : Fld := ⟨0, 0, 32⟩
/-- CAP_NEURAL_LANES (R569). -/
def reg_CAP_NEURAL_LANES : Nat := 4
/-- CAP_NEURAL_LANES.VALUE (R569). -/
def fld_CAP_NEURAL_LANES_VALUE : Fld := ⟨4, 0, 32⟩
/-- CAP_NEURAL_SRAM_KIB (R569). -/
def reg_CAP_NEURAL_SRAM_KIB : Nat := 8
/-- CAP_NEURAL_SRAM_KIB.VALUE (R569). -/
def fld_CAP_NEURAL_SRAM_KIB_VALUE : Fld := ⟨8, 0, 32⟩
/-- CAP_FRAME_STORE_KIB (R569). -/
def reg_CAP_FRAME_STORE_KIB : Nat := 0xc
/-- CAP_FRAME_STORE_KIB.VALUE (R569). -/
def fld_CAP_FRAME_STORE_KIB_VALUE : Fld := ⟨0xc, 0, 32⟩
/-- CAP_WARP (R569). -/
def reg_CAP_WARP : Nat := 0x10
/-- CAP_WARP.VALUE (R569). -/
def fld_CAP_WARP_VALUE : Fld := ⟨0x10, 0, 32⟩
/-- CAP_PYRAMID (R569). -/
def reg_CAP_PYRAMID : Nat := 0x14
/-- CAP_PYRAMID.VALUE (R569). -/
def fld_CAP_PYRAMID_VALUE : Fld := ⟨0x14, 0, 32⟩
/-- CAP_CORNER (R569). -/
def reg_CAP_CORNER : Nat := 0x18
/-- CAP_CORNER.VALUE (R569). -/
def fld_CAP_CORNER_VALUE : Fld := ⟨0x18, 0, 32⟩
/-- CAP_TRACKER (R569). -/
def reg_CAP_TRACKER : Nat := 0x1c
/-- CAP_TRACKER.VALUE (R569). -/
def fld_CAP_TRACKER_VALUE : Fld := ⟨0x1c, 0, 32⟩
/-- CAP_SGM (R569). -/
def reg_CAP_SGM : Nat := 0x20
/-- CAP_SGM.VALUE (R569). -/
def fld_CAP_SGM_VALUE : Fld := ⟨0x20, 0, 32⟩
/-- CAP_VERIFIER (R569). -/
def reg_CAP_VERIFIER : Nat := 0x24
/-- CAP_VERIFIER.VALUE (R569). -/
def fld_CAP_VERIFIER_VALUE : Fld := ⟨0x24, 0, 32⟩
/-- CAP_FRAME_GRAPHS (R569). -/
def reg_CAP_FRAME_GRAPHS : Nat := 0x28
/-- CAP_FRAME_GRAPHS.VALUE (R569). -/
def fld_CAP_FRAME_GRAPHS_VALUE : Fld := ⟨0x28, 0, 32⟩
/-- CAP_STITCH_MARKERS (R569). -/
def reg_CAP_STITCH_MARKERS : Nat := 0x2c
/-- CAP_STITCH_MARKERS.VALUE (R569). -/
def fld_CAP_STITCH_MARKERS_VALUE : Fld := ⟨0x2c, 0, 32⟩
/-- CAP_FEATURE_TRACKS (R569). -/
def reg_CAP_FEATURE_TRACKS : Nat := 0x30
/-- CAP_FEATURE_TRACKS.VALUE (R569). -/
def fld_CAP_FEATURE_TRACKS_VALUE : Fld := ⟨0x30, 0, 32⟩
/-- CAP_TRANSFORMS (R569). -/
def reg_CAP_TRANSFORMS : Nat := 0x34
/-- CAP_TRANSFORMS.VALUE (R569). -/
def fld_CAP_TRANSFORMS_VALUE : Fld := ⟨0x34, 0, 32⟩
/-- CAP_IMUS (R569). -/
def reg_CAP_IMUS : Nat := 0x38
/-- CAP_IMUS.VALUE (R569). -/
def fld_CAP_IMUS_VALUE : Fld := ⟨0x38, 0, 32⟩
/-- CAP_OBJECT_TRACKS (R569). -/
def reg_CAP_OBJECT_TRACKS : Nat := 0x3c
/-- CAP_OBJECT_TRACKS.VALUE (R569). -/
def fld_CAP_OBJECT_TRACKS_VALUE : Fld := ⟨0x3c, 0, 32⟩
/-- CAP_SOLVER_CORES (R569). -/
def reg_CAP_SOLVER_CORES : Nat := 0x40
/-- CAP_SOLVER_CORES.VALUE (R569). -/
def fld_CAP_SOLVER_CORES_VALUE : Fld := ⟨0x40, 0, 32⟩
/-- CAP_SOLVER_SRAM_KIB (R569). -/
def reg_CAP_SOLVER_SRAM_KIB : Nat := 0x44
/-- CAP_SOLVER_SRAM_KIB.VALUE (R569). -/
def fld_CAP_SOLVER_SRAM_KIB_VALUE : Fld := ⟨0x44, 0, 32⟩
/-- CAP_LPDDR_IF (R569). -/
def reg_CAP_LPDDR_IF : Nat := 0x48
/-- CAP_LPDDR_IF.VALUE (R569). -/
def fld_CAP_LPDDR_IF_VALUE : Fld := ⟨0x48, 0, 32⟩
/-- CAP_NAND_CH (R569). -/
def reg_CAP_NAND_CH : Nat := 0x4c
/-- CAP_NAND_CH.VALUE (R569). -/
def fld_CAP_NAND_CH_VALUE : Fld := ⟨0x4c, 0, 32⟩
/-- CAP_SEARCH_CTX (R569). -/
def reg_CAP_SEARCH_CTX : Nat := 0x50
/-- CAP_SEARCH_CTX.VALUE (R569). -/
def fld_CAP_SEARCH_CTX_VALUE : Fld := ⟨0x50, 0, 32⟩
/-- CAP_ETH (R569). -/
def reg_CAP_ETH : Nat := 0x54
/-- CAP_ETH.VALUE (R569). -/
def fld_CAP_ETH_VALUE : Fld := ⟨0x54, 0, 32⟩
/-- CAP_CSI_RX (R569). -/
def reg_CAP_CSI_RX : Nat := 0x58
/-- CAP_CSI_RX.VALUE (R569). -/
def fld_CAP_CSI_RX_VALUE : Fld := ⟨0x58, 0, 32⟩
/-- CAP_CSI_TX (R569). -/
def reg_CAP_CSI_TX : Nat := 0x5c
/-- CAP_CSI_TX.VALUE (R569). -/
def fld_CAP_CSI_TX_VALUE : Fld := ⟨0x5c, 0, 32⟩
/-- CAP_TOUT (R569). -/
def reg_CAP_TOUT : Nat := 0x60
/-- CAP_TOUT.VALUE (R569). -/
def fld_CAP_TOUT_VALUE : Fld := ⟨0x60, 0, 32⟩
/-- CAP_TIN (R569). -/
def reg_CAP_TIN : Nat := 0x64
/-- CAP_TIN.VALUE (R569). -/
def fld_CAP_TIN_VALUE : Fld := ⟨0x64, 0, 32⟩
/-- CAP_PORISK_LINKS (R569). -/
def reg_CAP_PORISK_LINKS : Nat := 0x68
/-- CAP_PORISK_LINKS.VALUE (R569). -/
def fld_CAP_PORISK_LINKS_VALUE : Fld := ⟨0x68, 0, 32⟩
/-- CAP_RESERVED (R569). -/
def reg_CAP_RESERVED (n : Nat) : Nat := 0x6c + 4 * n
/-- CAP_RESERVED.VALUE (R569). -/
def fld_CAP_RESERVED_VALUE (n : Nat) : Fld := ⟨0x6c + 4 * n, 0, 32⟩
/-- SYS_ID (R571). -/
def reg_SYS_ID : Nat := 0x100
/-- SYS_ID.PART (R571). -/
def fld_SYS_ID_PART : Fld := ⟨0x100, 16, 16⟩
/-- SYS_ID.GRADE (R571). -/
def fld_SYS_ID_GRADE : Fld := ⟨0x100, 8, 8⟩
/-- SYS_ID.STEPPING (R571). -/
def fld_SYS_ID_STEPPING : Fld := ⟨0x100, 0, 8⟩
/-- SYS_FAMILY (R572). -/
def reg_SYS_FAMILY : Nat := 0x104
/-- SYS_FAMILY.MODEL (R572). -/
def fld_SYS_FAMILY_MODEL : Fld := ⟨0x104, 0, 16⟩
/-- SYS_FAMILY.CAP_COUNT (R572). -/
def fld_SYS_FAMILY_CAP_COUNT : Fld := ⟨0x104, 16, 8⟩
/-- SYS_UID_LO (R573). -/
def reg_SYS_UID_LO : Nat := 0x108
/-- SYS_UID_LO.UID (R573). -/
def fld_SYS_UID_LO_UID : Fld := ⟨0x108, 0, 32⟩
/-- SYS_UID_HI (R573). -/
def reg_SYS_UID_HI : Nat := 0x10c
/-- SYS_UID_HI.UID (R573). -/
def fld_SYS_UID_HI_UID : Fld := ⟨0x10c, 0, 32⟩
/-- SYS_BOOT_COUNT (R574). -/
def reg_SYS_BOOT_COUNT : Nat := 0x110
/-- SYS_BOOT_COUNT.COUNT (R574). -/
def fld_SYS_BOOT_COUNT_COUNT : Fld := ⟨0x110, 0, 32⟩
/-- CASTON_STATUS (R575). -/
def reg_CASTON_STATUS : Nat := 0x200
/-- CASTON_STATUS.PLAUSIBLE_B (R575). -/
def fld_CASTON_STATUS_PLAUSIBLE_B : Fld := ⟨0x200, 18, 1⟩
/-- CASTON_STATUS.PLAUSIBLE_A (R575). -/
def fld_CASTON_STATUS_PLAUSIBLE_A : Fld := ⟨0x200, 17, 1⟩
/-- CASTON_STATUS.FIRST (R575). -/
def fld_CASTON_STATUS_FIRST : Fld := ⟨0x200, 16, 1⟩
/-- CASTON_STATUS.RESULT_B (R575). -/
def fld_CASTON_STATUS_RESULT_B : Fld := ⟨0x200, 8, 8⟩
/-- CASTON_STATUS.RESULT_A (R575). -/
def fld_CASTON_STATUS_RESULT_A : Fld := ⟨0x200, 0, 8⟩
/-- CASTON_DETAIL (R576). -/
def reg_CASTON_DETAIL : Nat := 0x204
/-- CASTON_DETAIL.SLOT (R576). -/
def fld_CASTON_DETAIL_SLOT : Fld := ⟨0x204, 31, 1⟩
/-- CASTON_DETAIL.VALID (R576). -/
def fld_CASTON_DETAIL_VALID : Fld := ⟨0x204, 30, 1⟩
/-- CASTON_DETAIL.SECTION (R576). -/
def fld_CASTON_DETAIL_SECTION : Fld := ⟨0x204, 24, 6⟩
/-- CASTON_DETAIL.ENTRY (R576). -/
def fld_CASTON_DETAIL_ENTRY : Fld := ⟨0x204, 0, 18⟩
/-- CASTON_CAP_FAIL (R577). -/
def reg_CASTON_CAP_FAIL : Nat := 0x208
/-- CASTON_CAP_FAIL.SLOT (R577). -/
def fld_CASTON_CAP_FAIL_SLOT : Fld := ⟨0x208, 31, 1⟩
/-- CASTON_CAP_FAIL.VALID (R577). -/
def fld_CASTON_CAP_FAIL_VALID : Fld := ⟨0x208, 9, 1⟩
/-- CASTON_CAP_FAIL.PAIRED (R577). -/
def fld_CASTON_CAP_FAIL_PAIRED : Fld := ⟨0x208, 8, 1⟩
/-- CASTON_CAP_FAIL.INDEX (R577). -/
def fld_CASTON_CAP_FAIL_INDEX : Fld := ⟨0x208, 0, 5⟩
/-- CASTON_TIME (R578). -/
def reg_CASTON_TIME : Nat := 0x20c
/-- CASTON_TIME.US (R578). -/
def fld_CASTON_TIME_US : Fld := ⟨0x20c, 0, 32⟩
/-- CASTON_SEQ (R578). -/
def reg_CASTON_SEQ : Nat := 0x210
/-- CASTON_SEQ.SEQUENCE (R578). -/
def fld_CASTON_SEQ_SEQUENCE : Fld := ⟨0x210, 0, 32⟩
/-- SYS_LOCK (R579). -/
def reg_SYS_LOCK : Nat := 0x300
/-- SYS_LOCK.GRANTS (R579). -/
def fld_SYS_LOCK_GRANTS : Fld := ⟨0x300, 16, 10⟩
/-- SYS_LOCK.LOCKED (R579). -/
def fld_SYS_LOCK_LOCKED : Fld := ⟨0x300, 0, 1⟩
/-- SYS_GRANT_ADDRESS (R580). -/
def reg_SYS_GRANT_ADDRESS (n : Nat) : Nat := 0x1000 + 0x10 * n
/-- SYS_GRANT_ADDRESS.ADDRESS (R580). -/
def fld_SYS_GRANT_ADDRESS_ADDRESS (n : Nat) : Fld := ⟨0x1000 + 0x10 * n, 0, 32⟩
/-- SYS_GRANT_MASK (R580). -/
def reg_SYS_GRANT_MASK (n : Nat) : Nat := 0x1004 + 0x10 * n
/-- SYS_GRANT_MASK.MASK (R580). -/
def fld_SYS_GRANT_MASK_MASK (n : Nat) : Fld := ⟨0x1004 + 0x10 * n, 0, 32⟩
/-- SYS_GRANT_LOWER (R580). -/
def reg_SYS_GRANT_LOWER (n : Nat) : Nat := 0x1008 + 0x10 * n
/-- SYS_GRANT_LOWER.LOWER (R580). -/
def fld_SYS_GRANT_LOWER_LOWER (n : Nat) : Fld := ⟨0x1008 + 0x10 * n, 0, 32⟩
/-- SYS_GRANT_UPPER (R580). -/
def reg_SYS_GRANT_UPPER (n : Nat) : Nat := 0x100c + 0x10 * n
/-- SYS_GRANT_UPPER.UPPER (R580). -/
def fld_SYS_GRANT_UPPER_UPPER (n : Nat) : Fld := ⟨0x100c + 0x10 * n, 0, 32⟩
/-- PLL_CTRL (R84). -/
def reg_PLL_CTRL : Nat := 0x10000
/-- PLL_CTRL.SPREAD_ARITH (R84). -/
def fld_PLL_CTRL_SPREAD_ARITH : Fld := ⟨0x10000, 1, 1⟩
/-- PLL_CTRL.SPREAD_SYS (R84). -/
def fld_PLL_CTRL_SPREAD_SYS : Fld := ⟨0x10000, 0, 1⟩
/-- PLL_STATUS (R85). -/
def reg_PLL_STATUS : Nat := 0x10004
/-- PLL_STATUS.UNLOCK_SEEN (R85). -/
def fld_PLL_STATUS_UNLOCK_SEEN : Fld := ⟨0x10004, 4, 4⟩
/-- PLL_STATUS.LOCK (R85). -/
def fld_PLL_STATUS_LOCK : Fld := ⟨0x10004, 0, 4⟩
/-- SW_CLK (R86). -/
def reg_SW_CLK (n : Nat) : Nat := 0x10100 + 4 * n
/-- SW_CLK.GROUP (R86). -/
def fld_SW_CLK_GROUP (n : Nat) : Fld := ⟨0x10100 + 4 * n, 16, 6⟩
/-- SW_CLK.MHZ (R86). -/
def fld_SW_CLK_MHZ (n : Nat) : Fld := ⟨0x10100 + 4 * n, 6, 10⟩
/-- SW_CLK.IN_RESET (R86). -/
def fld_SW_CLK_IN_RESET (n : Nat) : Fld := ⟨0x10100 + 4 * n, 5, 1⟩
/-- SW_CLK.CLASS_A (R86). -/
def fld_SW_CLK_CLASS_A (n : Nat) : Fld := ⟨0x10100 + 4 * n, 4, 1⟩
/-- SW_CLK.ARITH (R86). -/
def fld_SW_CLK_ARITH (n : Nat) : Fld := ⟨0x10100 + 4 * n, 3, 1⟩
/-- SW_CLK.STEP (R86). -/
def fld_SW_CLK_STEP (n : Nat) : Fld := ⟨0x10100 + 4 * n, 0, 2⟩
/-- SW_RESET (R87). -/
def reg_SW_RESET : Nat := 0x10200
/-- SW_RESET.SWATCH (R87). -/
def fld_SW_RESET_SWATCH : Fld := ⟨0x10200, 0, 6⟩
/-- SW_IN_RESET_LO (R88). -/
def reg_SW_IN_RESET_LO : Nat := 0x10208
/-- SW_IN_RESET_LO.BITS (R88). -/
def fld_SW_IN_RESET_LO_BITS : Fld := ⟨0x10208, 0, 32⟩
/-- SW_IN_RESET_HI (R88). -/
def reg_SW_IN_RESET_HI : Nat := 0x1020c
/-- SW_IN_RESET_HI.BITS (R88). -/
def fld_SW_IN_RESET_HI_BITS : Fld := ⟨0x1020c, 0, 16⟩
/-- SW_RESET_LAST (R89). -/
def reg_SW_RESET_LAST : Nat := 0x10210
/-- SW_RESET_LAST.COUNT (R89). -/
def fld_SW_RESET_LAST_COUNT : Fld := ⟨0x10210, 16, 16⟩
/-- SW_RESET_LAST.CAUSE (R89). -/
def fld_SW_RESET_LAST_CAUSE : Fld := ⟨0x10210, 8, 2⟩
/-- SW_RESET_LAST.SWATCH (R89). -/
def fld_SW_RESET_LAST_SWATCH : Fld := ⟨0x10210, 0, 6⟩
/-- XING_OVR_0 (R90). -/
def reg_XING_OVR_0 : Nat := 0x10300
/-- XING_OVR_0.OVR (R90). -/
def fld_XING_OVR_0_OVR : Fld := ⟨0x10300, 0, 32⟩
/-- XING_OVR_1 (R90). -/
def reg_XING_OVR_1 : Nat := 0x10304
/-- XING_OVR_1.OVR (R90). -/
def fld_XING_OVR_1_OVR : Fld := ⟨0x10304, 0, 32⟩
/-- XING_OVR_2 (R90). -/
def reg_XING_OVR_2 : Nat := 0x10308
/-- XING_OVR_2.OVR (R90). -/
def fld_XING_OVR_2_OVR : Fld := ⟨0x10308, 0, 6⟩
/-- LINK_A_FLITS (R91). -/
def reg_LINK_A_FLITS (n : Nat) : Nat := 0x10400 + 8 * n
/-- LINK_A_FLITS.FLITS (R91). -/
def fld_LINK_A_FLITS_FLITS (n : Nat) : Fld := ⟨0x10400 + 8 * n, 0, 32⟩
/-- LINK_A_WAIT (R91). -/
def reg_LINK_A_WAIT (n : Nat) : Nat := 0x10404 + 8 * n
/-- LINK_A_WAIT.WAIT_MAX (R91). -/
def fld_LINK_A_WAIT_WAIT_MAX (n : Nat) : Fld := ⟨0x10404 + 8 * n, 0, 16⟩
/-- PWR_LIMIT (R537). -/
def reg_PWR_LIMIT : Nat := 0x20000
/-- PWR_LIMIT.TJ_LIMIT (R537). -/
def fld_PWR_LIMIT_TJ_LIMIT : Fld := ⟨0x20000, 8, 8⟩
/-- PWR_LIMIT.PKG_LIMIT_W (R537). -/
def fld_PWR_LIMIT_PKG_LIMIT_W : Fld := ⟨0x20000, 0, 6⟩
/-- PWR_GOV_CFG (R538). -/
def reg_PWR_GOV_CFG : Nat := 0x20004
/-- PWR_GOV_CFG.HYST (R538). -/
def fld_PWR_GOV_CFG_HYST : Fld := ⟨0x20004, 20, 6⟩
/-- PWR_GOV_CFG.DWELL (R538). -/
def fld_PWR_GOV_CFG_DWELL : Fld := ⟨0x20004, 12, 8⟩
/-- PWR_GOV_CFG.AVG_SHIFT (R538). -/
def fld_PWR_GOV_CFG_AVG_SHIFT : Fld := ⟨0x20004, 8, 4⟩
/-- PWR_GOV_CFG.MAX_LEVEL (R538). -/
def fld_PWR_GOV_CFG_MAX_LEVEL : Fld := ⟨0x20004, 4, 3⟩
/-- PWR_GOV_CFG.MIN_LEVEL (R538). -/
def fld_PWR_GOV_CFG_MIN_LEVEL : Fld := ⟨0x20004, 0, 3⟩
/-- PWR_STATUS (R539). -/
def reg_PWR_STATUS : Nat := 0x20008
/-- PWR_STATUS.CHANGING (R539). -/
def fld_PWR_STATUS_CHANGING : Fld := ⟨0x20008, 10, 1⟩
/-- PWR_STATUS.STATE (R539). -/
def fld_PWR_STATUS_STATE : Fld := ⟨0x20008, 8, 2⟩
/-- PWR_STATUS.THERMAL (R539). -/
def fld_PWR_STATUS_THERMAL : Fld := ⟨0x20008, 5, 1⟩
/-- PWR_STATUS.BROWN (R539). -/
def fld_PWR_STATUS_BROWN : Fld := ⟨0x20008, 4, 1⟩
/-- PWR_STATUS.FLOOR (R539). -/
def fld_PWR_STATUS_FLOOR : Fld := ⟨0x20008, 3, 1⟩
/-- PWR_STATUS.LEVEL (R539). -/
def fld_PWR_STATUS_LEVEL : Fld := ⟨0x20008, 0, 3⟩
/-- PWR_EST (R540). -/
def reg_PWR_EST : Nat := 0x2000c
/-- PWR_EST.AVG_MW (R540). -/
def fld_PWR_EST_AVG_MW : Fld := ⟨0x2000c, 0, 16⟩
/-- PWR_EST.TEMP (R540). -/
def fld_PWR_EST_TEMP : Fld := ⟨0x2000c, 16, 16⟩
/-- PWR_REQ (R540). -/
def reg_PWR_REQ : Nat := 0x20010
/-- PWR_REQ.STATE (R540). -/
def fld_PWR_REQ_STATE : Fld := ⟨0x20010, 0, 2⟩
/-- PWR_WAKE (R541). -/
def reg_PWR_WAKE : Nat := 0x20014
/-- PWR_WAKE.SLEEP_S (R541). -/
def fld_PWR_WAKE_SLEEP_S : Fld := ⟨0x20014, 16, 16⟩
/-- PWR_WAKE.TIME_EN (R541). -/
def fld_PWR_WAKE_TIME_EN : Fld := ⟨0x20014, 2, 1⟩
/-- PWR_WAKE.TIN0_EDGE (R541). -/
def fld_PWR_WAKE_TIN0_EDGE : Fld := ⟨0x20014, 1, 1⟩
/-- PWR_WAKE.TIN0_EN (R541). -/
def fld_PWR_WAKE_TIN0_EN : Fld := ⟨0x20014, 0, 1⟩
/-- PWR_WAKE_SEC_LO (R540). -/
def reg_PWR_WAKE_SEC_LO : Nat := 0x20018
/-- PWR_WAKE_SEC_LO.SEC (R540). -/
def fld_PWR_WAKE_SEC_LO_SEC : Fld := ⟨0x20018, 0, 32⟩
/-- PWR_WAKE_SEC_HI (R540). -/
def reg_PWR_WAKE_SEC_HI : Nat := 0x2001c
/-- PWR_WAKE_SEC_HI.SEC (R540). -/
def fld_PWR_WAKE_SEC_HI_SEC : Fld := ⟨0x2001c, 0, 32⟩
/-- PWR_WAKE_NS (R540). -/
def reg_PWR_WAKE_NS : Nat := 0x20020
/-- PWR_WAKE_NS.NS (R540). -/
def fld_PWR_WAKE_NS_NS : Fld := ⟨0x20020, 0, 30⟩
/-- PWR_BROWN_COUNT (R542). -/
def reg_PWR_BROWN_COUNT : Nat := 0x20024
/-- PWR_BROWN_COUNT.COUNT (R542). -/
def fld_PWR_BROWN_COUNT_COUNT : Fld := ⟨0x20024, 0, 32⟩
/-- PWR_BROWN_WORST (R542). -/
def reg_PWR_BROWN_WORST : Nat := 0x20028
/-- PWR_BROWN_WORST.WORST_US (R542). -/
def fld_PWR_BROWN_WORST_WORST_US : Fld := ⟨0x20028, 0, 32⟩
/-- PWR_GOV_COUNTS (R542). -/
def reg_PWR_GOV_COUNTS : Nat := 0x2002c
/-- PWR_GOV_COUNTS.CHANGES (R542). -/
def fld_PWR_GOV_COUNTS_CHANGES : Fld := ⟨0x2002c, 0, 16⟩
/-- PWR_GOV_COUNTS.FLOOR (R542). -/
def fld_PWR_GOV_COUNTS_FLOOR : Fld := ⟨0x2002c, 16, 16⟩
/-- RST_CAUSE (R543). -/
def reg_RST_CAUSE : Nat := 0x20030
/-- RST_CAUSE.WARM_COUNT (R543). -/
def fld_RST_CAUSE_WARM_COUNT : Fld := ⟨0x20030, 16, 16⟩
/-- RST_CAUSE.PLL (R543). -/
def fld_RST_CAUSE_PLL : Fld := ⟨0x20030, 4, 2⟩
/-- RST_CAUSE.LAST (R543). -/
def fld_RST_CAUSE_LAST : Fld := ⟨0x20030, 0, 4⟩
/-- RST_CTRL (R543). -/
def reg_RST_CTRL : Nat := 0x20034
/-- RST_CTRL.WARM (R543). -/
def fld_RST_CTRL_WARM : Fld := ⟨0x20034, 0, 1⟩
/-- PWR_LEVEL_US (R542). -/
def reg_PWR_LEVEL_US (n : Nat) : Nat := 0x20040 + 4 * n
/-- PWR_LEVEL_US.US (R542). -/
def fld_PWR_LEVEL_US_US (n : Nat) : Fld := ⟨0x20040 + 4 * n, 0, 32⟩
/-- PWR_STATE_COUNTS (R542). -/
def reg_PWR_STATE_COUNTS : Nat := 0x20060
/-- PWR_STATE_COUNTS.DOZE (R542). -/
def fld_PWR_STATE_COUNTS_DOZE : Fld := ⟨0x20060, 0, 16⟩
/-- PWR_STATE_COUNTS.NAP (R542). -/
def fld_PWR_STATE_COUNTS_NAP : Fld := ⟨0x20060, 16, 16⟩
/-- CLA_CTRL (R40). -/
def reg_CLA_CTRL : Nat := 0x20400
/-- CLA_CTRL.PAIRED (R40). -/
def fld_CLA_CTRL_PAIRED : Fld := ⟨0x20400, 1, 1⟩
/-- CLA_CTRL.ENABLE (R40). -/
def fld_CLA_CTRL_ENABLE : Fld := ⟨0x20400, 0, 1⟩
/-- CLA_PERIOD (R41). -/
def reg_CLA_PERIOD : Nat := 0x20404
/-- CLA_PERIOD.PERIOD_US (R41). -/
def fld_CLA_PERIOD_PERIOD_US : Fld := ⟨0x20404, 0, 12⟩
/-- CLA_TIMING (R42). -/
def reg_CLA_TIMING : Nat := 0x20408
/-- CLA_TIMING.LAUNCH_US (R42). -/
def fld_CLA_TIMING_LAUNCH_US : Fld := ⟨0x20408, 16, 12⟩
/-- CLA_TIMING.CUTOFF_US (R42). -/
def fld_CLA_TIMING_CUTOFF_US : Fld := ⟨0x20408, 0, 12⟩
/-- CLA_STATUS (R43). -/
def reg_CLA_STATUS : Nat := 0x2040c
/-- CLA_STATUS.GUARANTEE (R43). -/
def fld_CLA_STATUS_GUARANTEE : Fld := ⟨0x2040c, 4, 1⟩
/-- CLA_STATUS.MISSED (R43). -/
def fld_CLA_STATUS_MISSED : Fld := ⟨0x2040c, 3, 1⟩
/-- CLA_STATUS.PARAM_REJECT (R43). -/
def fld_CLA_STATUS_PARAM_REJECT : Fld := ⟨0x2040c, 2, 1⟩
/-- CLA_STATUS.ENV_REFUSED (R43). -/
def fld_CLA_STATUS_ENV_REFUSED : Fld := ⟨0x2040c, 1, 1⟩
/-- CLA_STATUS.RUNNING (R43). -/
def fld_CLA_STATUS_RUNNING : Fld := ⟨0x2040c, 0, 1⟩
/-- CLA_PERIOD_NUM_LO (R44). -/
def reg_CLA_PERIOD_NUM_LO : Nat := 0x20410
/-- CLA_PERIOD_NUM_LO.NUM (R44). -/
def fld_CLA_PERIOD_NUM_LO_NUM : Fld := ⟨0x20410, 0, 32⟩
/-- CLA_PERIOD_NUM_HI (R44). -/
def reg_CLA_PERIOD_NUM_HI : Nat := 0x20414
/-- CLA_PERIOD_NUM_HI.NUM (R44). -/
def fld_CLA_PERIOD_NUM_HI_NUM : Fld := ⟨0x20414, 0, 32⟩
/-- CLA_MISSED_COUNT (R45). -/
def reg_CLA_MISSED_COUNT : Nat := 0x20418
/-- CLA_MISSED_COUNT.MISSED (R45). -/
def fld_CLA_MISSED_COUNT_MISSED : Fld := ⟨0x20418, 0, 32⟩
/-- CLA_WORST (R46). -/
def reg_CLA_WORST : Nat := 0x2041c
/-- CLA_WORST.READY_NS (R46). -/
def fld_CLA_WORST_READY_NS : Fld := ⟨0x2041c, 0, 23⟩
/-- CHECK_CFG (R564). -/
def reg_CHECK_CFG (n : Nat) : Nat := 0x30000 + 0x20 * n
/-- CHECK_CFG.USE_ERR (R564). -/
def fld_CHECK_CFG_USE_ERR (n : Nat) : Fld := ⟨0x30000 + 0x20 * n, 12, 1⟩
/-- CHECK_CFG.USERS (R564). -/
def fld_CHECK_CFG_USERS (n : Nat) : Fld := ⟨0x30000 + 0x20 * n, 8, 3⟩
/-- CHECK_CFG.INT_EN (R564). -/
def fld_CHECK_CFG_INT_EN (n : Nat) : Fld := ⟨0x30000 + 0x20 * n, 4, 1⟩
/-- CHECK_CFG.POLY (R564). -/
def fld_CHECK_CFG_POLY (n : Nat) : Fld := ⟨0x30000 + 0x20 * n, 0, 2⟩
/-- CHECK_STATUS (R564). -/
def reg_CHECK_STATUS (n : Nat) : Nat := 0x30004 + 0x20 * n
/-- CHECK_STATUS.ALIVE_ERR (R564). -/
def fld_CHECK_STATUS_ALIVE_ERR (n : Nat) : Fld := ⟨0x30004 + 0x20 * n, 3, 1⟩
/-- CHECK_STATUS.MISMATCH (R564). -/
def fld_CHECK_STATUS_MISMATCH (n : Nat) : Fld := ⟨0x30004 + 0x20 * n, 2, 1⟩
/-- CHECK_STATUS.VERDICT (R564). -/
def fld_CHECK_STATUS_VERDICT (n : Nat) : Fld := ⟨0x30004 + 0x20 * n, 1, 1⟩
/-- CHECK_STATUS.BUSY (R564). -/
def fld_CHECK_STATUS_BUSY (n : Nat) : Fld := ⟨0x30004 + 0x20 * n, 0, 1⟩
/-- CHECK_FEED_CTRL (R564). -/
def reg_CHECK_FEED_CTRL (n : Nat) : Nat := 0x30008 + 0x20 * n
/-- CHECK_FEED_CTRL.START (R564). -/
def fld_CHECK_FEED_CTRL_START (n : Nat) : Fld := ⟨0x30008 + 0x20 * n, 0, 1⟩
/-- CHECK_FEED_CTRL.END (R564). -/
def fld_CHECK_FEED_CTRL_END (n : Nat) : Fld := ⟨0x30008 + 0x20 * n, 1, 1⟩
/-- CHECK_FEED_CTRL.VERIFY (R564). -/
def fld_CHECK_FEED_CTRL_VERIFY (n : Nat) : Fld := ⟨0x30008 + 0x20 * n, 2, 1⟩
/-- CHECK_FEED_CTRL.BYTES (R564). -/
def fld_CHECK_FEED_CTRL_BYTES (n : Nat) : Fld := ⟨0x30008 + 0x20 * n, 4, 2⟩
/-- CHECK_FEED_DATA (R564). -/
def reg_CHECK_FEED_DATA (n : Nat) : Nat := 0x3000c + 0x20 * n
/-- CHECK_FEED_DATA.DATA (R564). -/
def fld_CHECK_FEED_DATA_DATA (n : Nat) : Fld := ⟨0x3000c + 0x20 * n, 0, 32⟩
/-- CHECK_EXPECT (R564). -/
def reg_CHECK_EXPECT (n : Nat) : Nat := 0x30010 + 0x20 * n
/-- CHECK_EXPECT.EXPECT (R564). -/
def fld_CHECK_EXPECT_EXPECT (n : Nat) : Fld := ⟨0x30010 + 0x20 * n, 0, 32⟩
/-- CHECK_RESULT (R564). -/
def reg_CHECK_RESULT (n : Nat) : Nat := 0x30014 + 0x20 * n
/-- CHECK_RESULT.RESULT (R564). -/
def fld_CHECK_RESULT_RESULT (n : Nat) : Fld := ⟨0x30014 + 0x20 * n, 0, 32⟩
/-- CHECK_COUNTS (R564). -/
def reg_CHECK_COUNTS (n : Nat) : Nat := 0x30018 + 0x20 * n
/-- CHECK_COUNTS.MESSAGES (R564). -/
def fld_CHECK_COUNTS_MESSAGES (n : Nat) : Fld := ⟨0x30018 + 0x20 * n, 0, 16⟩
/-- CHECK_COUNTS.MISMATCH (R564). -/
def fld_CHECK_COUNTS_MISMATCH (n : Nat) : Fld := ⟨0x30018 + 0x20 * n, 16, 16⟩
/-- CHECK_ALIVE (R564). -/
def reg_CHECK_ALIVE (n : Nat) : Nat := 0x3001c + 0x20 * n
/-- CHECK_ALIVE.REPEAT (R564). -/
def fld_CHECK_ALIVE_REPEAT (n : Nat) : Fld := ⟨0x3001c + 0x20 * n, 0, 16⟩
/-- CHECK_ALIVE.SKIP (R564). -/
def fld_CHECK_ALIVE_SKIP (n : Nat) : Fld := ⟨0x3001c + 0x20 * n, 16, 16⟩
/-- FAULT_CFG (R565). -/
def reg_FAULT_CFG : Nat := 0x30100
/-- FAULT_CFG.WINDOW_US (R565). -/
def fld_FAULT_CFG_WINDOW_US : Fld := ⟨0x30100, 0, 8⟩
/-- FAULT_PEND (R565). -/
def reg_FAULT_PEND : Nat := 0x30104
/-- FAULT_PEND.PEND (R565). -/
def fld_FAULT_PEND_PEND : Fld := ⟨0x30104, 1, 16⟩
/-- FAULT_IRQ_EN (R565). -/
def reg_FAULT_IRQ_EN : Nat := 0x30108
/-- FAULT_IRQ_EN.EN (R565). -/
def fld_FAULT_IRQ_EN_EN : Fld := ⟨0x30108, 1, 16⟩
/-- FAULT_ACTION (R565). -/
def reg_FAULT_ACTION : Nat := 0x3010c
/-- FAULT_ACTION.ACT_1 (R565). -/
def fld_FAULT_ACTION_ACT_1 : Fld := ⟨0x3010c, 0, 2⟩
/-- FAULT_ACTION.ACT_2 (R565). -/
def fld_FAULT_ACTION_ACT_2 : Fld := ⟨0x3010c, 2, 2⟩
/-- FAULT_ACTION.ACT_3 (R565). -/
def fld_FAULT_ACTION_ACT_3 : Fld := ⟨0x3010c, 4, 2⟩
/-- FAULT_ACTION.ACT_4 (R565). -/
def fld_FAULT_ACTION_ACT_4 : Fld := ⟨0x3010c, 6, 2⟩
/-- FAULT_ACTION.ACT_5 (R565). -/
def fld_FAULT_ACTION_ACT_5 : Fld := ⟨0x3010c, 8, 2⟩
/-- FAULT_ACTION.ACT_6 (R565). -/
def fld_FAULT_ACTION_ACT_6 : Fld := ⟨0x3010c, 10, 2⟩
/-- FAULT_ACTION.ACT_7 (R565). -/
def fld_FAULT_ACTION_ACT_7 : Fld := ⟨0x3010c, 12, 2⟩
/-- FAULT_ACTION.ACT_8 (R565). -/
def fld_FAULT_ACTION_ACT_8 : Fld := ⟨0x3010c, 14, 2⟩
/-- FAULT_ACTION.ACT_9 (R565). -/
def fld_FAULT_ACTION_ACT_9 : Fld := ⟨0x3010c, 16, 2⟩
/-- FAULT_ACTION.ACT_10 (R565). -/
def fld_FAULT_ACTION_ACT_10 : Fld := ⟨0x3010c, 18, 2⟩
/-- FAULT_ACTION.ACT_11 (R565). -/
def fld_FAULT_ACTION_ACT_11 : Fld := ⟨0x3010c, 20, 2⟩
/-- FAULT_ACTION.ACT_12 (R565). -/
def fld_FAULT_ACTION_ACT_12 : Fld := ⟨0x3010c, 22, 2⟩
/-- FAULT_ACTION.ACT_13 (R565). -/
def fld_FAULT_ACTION_ACT_13 : Fld := ⟨0x3010c, 24, 2⟩
/-- FAULT_ACTION.ACT_14 (R565). -/
def fld_FAULT_ACTION_ACT_14 : Fld := ⟨0x3010c, 26, 2⟩
/-- FAULT_ACTION.ACT_15 (R565). -/
def fld_FAULT_ACTION_ACT_15 : Fld := ⟨0x3010c, 28, 2⟩
/-- FAULT_ACTION.ACT_16 (R565). -/
def fld_FAULT_ACTION_ACT_16 : Fld := ⟨0x3010c, 30, 2⟩
/-- FAULT_LOG_ADDR (R565). -/
def reg_FAULT_LOG_ADDR : Nat := 0x30110
/-- FAULT_LOG_ADDR.WORD (R565). -/
def fld_FAULT_LOG_ADDR_WORD : Fld := ⟨0x30110, 0, 8⟩
/-- FAULT_LOG_DATA (R565). -/
def reg_FAULT_LOG_DATA : Nat := 0x30114
/-- FAULT_LOG_DATA.DATA (R565). -/
def fld_FAULT_LOG_DATA_DATA : Fld := ⟨0x30114, 0, 32⟩
/-- FAULT_LOG_STATUS (R565). -/
def reg_FAULT_LOG_STATUS : Nat := 0x30118
/-- FAULT_LOG_STATUS.NEXT (R565). -/
def fld_FAULT_LOG_STATUS_NEXT : Fld := ⟨0x30118, 0, 6⟩
/-- FAULT_LOG_STATUS.WRAPPED (R565). -/
def fld_FAULT_LOG_STATUS_WRAPPED : Fld := ⟨0x30118, 8, 1⟩
/-- FAULT_LOG_STATUS.ENTRIES (R565). -/
def fld_FAULT_LOG_STATUS_ENTRIES : Fld := ⟨0x30118, 16, 16⟩
/-- FAULT_REC_SOURCE (R565). -/
def reg_FAULT_REC_SOURCE (n : Nat) : Nat := 0x30200 + 0x20 * n
/-- FAULT_REC_SOURCE.SOURCE (R565). -/
def fld_FAULT_REC_SOURCE_SOURCE (n : Nat) : Fld := ⟨0x30200 + 0x20 * n, 0, 16⟩
/-- FAULT_REC_DETAIL (R565). -/
def reg_FAULT_REC_DETAIL (n : Nat) : Nat := 0x30204 + 0x20 * n
/-- FAULT_REC_DETAIL.DETAIL (R565). -/
def fld_FAULT_REC_DETAIL_DETAIL (n : Nat) : Fld := ⟨0x30204 + 0x20 * n, 0, 32⟩
/-- FAULT_REC_SEC (R565). -/
def reg_FAULT_REC_SEC (n : Nat) : Nat := 0x30208 + 0x20 * n
/-- FAULT_REC_SEC.SEC (R565). -/
def fld_FAULT_REC_SEC_SEC (n : Nat) : Fld := ⟨0x30208 + 0x20 * n, 0, 32⟩
/-- FAULT_REC_NS (R565). -/
def reg_FAULT_REC_NS (n : Nat) : Nat := 0x3020c + 0x20 * n
/-- FAULT_REC_NS.NS (R565). -/
def fld_FAULT_REC_NS_NS (n : Nat) : Fld := ⟨0x3020c + 0x20 * n, 0, 30⟩
/-- FAULT_REC_COUNT (R565). -/
def reg_FAULT_REC_COUNT (n : Nat) : Nat := 0x30210 + 0x20 * n
/-- FAULT_REC_COUNT.COUNT (R565). -/
def fld_FAULT_REC_COUNT_COUNT (n : Nat) : Fld := ⟨0x30210 + 0x20 * n, 0, 32⟩
/-- WDOG_SW (R566). -/
def reg_WDOG_SW (n : Nat) : Nat := 0x30400 + 4 * n
/-- WDOG_SW.EXPIRED (R566). -/
def fld_WDOG_SW_EXPIRED (n : Nat) : Fld := ⟨0x30400 + 4 * n, 31, 1⟩
/-- WDOG_SW.LIMIT_US (R566). -/
def fld_WDOG_SW_LIMIT_US (n : Nat) : Fld := ⟨0x30400 + 4 * n, 0, 20⟩
/-- WDOG_CHIP_CFG (R566). -/
def reg_WDOG_CHIP_CFG : Nat := 0x30500
/-- WDOG_CHIP_CFG.HOST_MS (R566). -/
def fld_WDOG_CHIP_CFG_HOST_MS : Fld := ⟨0x30500, 16, 16⟩
/-- WDOG_CHIP_CFG.LOOP_MS (R566). -/
def fld_WDOG_CHIP_CFG_LOOP_MS : Fld := ⟨0x30500, 8, 8⟩
/-- WDOG_CHIP_CFG.HOST_EN (R566). -/
def fld_WDOG_CHIP_CFG_HOST_EN : Fld := ⟨0x30500, 1, 1⟩
/-- WDOG_CHIP_CFG.LOOP_EN (R566). -/
def fld_WDOG_CHIP_CFG_LOOP_EN : Fld := ⟨0x30500, 0, 1⟩
/-- WDOG_CHIP_KICK (R566). -/
def reg_WDOG_CHIP_KICK : Nat := 0x30504
/-- WDOG_CHIP_KICK.KEY (R566). -/
def fld_WDOG_CHIP_KICK_KEY : Fld := ⟨0x30504, 0, 16⟩
/-- WDOG_CHIP_STATUS (R566). -/
def reg_WDOG_CHIP_STATUS : Nat := 0x30508
/-- WDOG_CHIP_STATUS.NEXT_KEY (R566). -/
def fld_WDOG_CHIP_STATUS_NEXT_KEY : Fld := ⟨0x30508, 0, 1⟩
/-- WDOG_CHIP_STATUS.LAST_SRC (R566). -/
def fld_WDOG_CHIP_STATUS_LAST_SRC : Fld := ⟨0x30508, 4, 2⟩
/-- WDOG_CHIP_STATUS.EXPIRIES (R566). -/
def fld_WDOG_CHIP_STATUS_EXPIRIES : Fld := ⟨0x30508, 16, 16⟩
/-- SNAP_CTRL (R567). -/
def reg_SNAP_CTRL : Nat := 0x30600
/-- SNAP_CTRL.ARM (R567). -/
def fld_SNAP_CTRL_ARM : Fld := ⟨0x30600, 0, 1⟩
/-- SNAP_CTRL.CANCEL (R567). -/
def fld_SNAP_CTRL_CANCEL : Fld := ⟨0x30600, 1, 1⟩
/-- SNAP_STATUS (R567). -/
def reg_SNAP_STATUS : Nat := 0x30604
/-- SNAP_STATUS.ABSENT_ANY (R567). -/
def fld_SNAP_STATUS_ABSENT_ANY : Fld := ⟨0x30604, 3, 1⟩
/-- SNAP_STATUS.LATE (R567). -/
def fld_SNAP_STATUS_LATE : Fld := ⟨0x30604, 2, 1⟩
/-- SNAP_STATUS.DONE (R567). -/
def fld_SNAP_STATUS_DONE : Fld := ⟨0x30604, 1, 1⟩
/-- SNAP_STATUS.PENDING (R567). -/
def fld_SNAP_STATUS_PENDING : Fld := ⟨0x30604, 0, 1⟩
/-- SNAP_TIME_SEC_LO (R567). -/
def reg_SNAP_TIME_SEC_LO : Nat := 0x30608
/-- SNAP_TIME_SEC_LO.SEC (R567). -/
def fld_SNAP_TIME_SEC_LO_SEC : Fld := ⟨0x30608, 0, 32⟩
/-- SNAP_TIME_SEC_HI (R567). -/
def reg_SNAP_TIME_SEC_HI : Nat := 0x3060c
/-- SNAP_TIME_SEC_HI.SEC (R567). -/
def fld_SNAP_TIME_SEC_HI_SEC : Fld := ⟨0x3060c, 0, 32⟩
/-- SNAP_TIME_NS (R567). -/
def reg_SNAP_TIME_NS : Nat := 0x30610
/-- SNAP_TIME_NS.NS (R567). -/
def fld_SNAP_TIME_NS_NS : Fld := ⟨0x30610, 0, 30⟩
/-- SNAP_PERIOD (R567). -/
def reg_SNAP_PERIOD : Nat := 0x30614
/-- SNAP_PERIOD.PERIOD_MS (R567). -/
def fld_SNAP_PERIOD_PERIOD_MS : Fld := ⟨0x30614, 0, 16⟩
/-- SNAP_NUM (R567). -/
def reg_SNAP_NUM : Nat := 0x30618
/-- SNAP_NUM.NUMBER (R567). -/
def fld_SNAP_NUM_NUMBER : Fld := ⟨0x30618, 0, 32⟩
/-- SNAP_SWATCH (R567). -/
def reg_SNAP_SWATCH (n : Nat) : Nat := 0x30700 + 4 * n
/-- SNAP_SWATCH.NUMBER (R567). -/
def fld_SNAP_SWATCH_NUMBER (n : Nat) : Fld := ⟨0x30700 + 4 * n, 0, 16⟩
/-- SNAP_SWATCH.ABSENT (R567). -/
def fld_SNAP_SWATCH_ABSENT (n : Nat) : Fld := ⟨0x30700 + 4 * n, 31, 1⟩
/-- TIME_CTRL (R171). -/
def reg_TIME_CTRL : Nat := 0x40000
/-- TIME_CTRL.DOMAIN (R171). -/
def fld_TIME_CTRL_DOMAIN : Fld := ⟨0x40000, 8, 7⟩
/-- TIME_CTRL.SERVO_MODE (R171). -/
def fld_TIME_CTRL_SERVO_MODE : Fld := ⟨0x40000, 1, 2⟩
/-- TIME_CTRL.REARM (R171). -/
def fld_TIME_CTRL_REARM : Fld := ⟨0x40000, 0, 1⟩
/-- TIME_STATUS (R172). -/
def reg_TIME_STATUS : Nat := 0x40004
/-- TIME_STATUS.SLAVE_VALID (R172). -/
def fld_TIME_STATUS_SLAVE_VALID : Fld := ⟨0x40004, 10, 1⟩
/-- TIME_STATUS.SLAVE_PORT (R172). -/
def fld_TIME_STATUS_SLAVE_PORT : Fld := ⟨0x40004, 9, 1⟩
/-- TIME_STATUS.CLOCK_FAULT (R172). -/
def fld_TIME_STATUS_CLOCK_FAULT : Fld := ⟨0x40004, 8, 1⟩
/-- TIME_STATUS.GM_CHANGED (R172). -/
def fld_TIME_STATUS_GM_CHANGED : Fld := ⟨0x40004, 7, 1⟩
/-- TIME_STATUS.JUMP_REFUSED (R172). -/
def fld_TIME_STATUS_JUMP_REFUSED : Fld := ⟨0x40004, 6, 1⟩
/-- TIME_STATUS.FIRST_LOCK (R172). -/
def fld_TIME_STATUS_FIRST_LOCK : Fld := ⟨0x40004, 5, 1⟩
/-- TIME_STATUS.STEP_USED (R172). -/
def fld_TIME_STATUS_STEP_USED : Fld := ⟨0x40004, 4, 1⟩
/-- TIME_STATUS.STEP_ARMED (R172). -/
def fld_TIME_STATUS_STEP_ARMED : Fld := ⟨0x40004, 3, 1⟩
/-- TIME_STATUS.STATE (R172). -/
def fld_TIME_STATUS_STATE : Fld := ⟨0x40004, 0, 3⟩
/-- TIME_NOW_SEC_LO (R173). -/
def reg_TIME_NOW_SEC_LO : Nat := 0x40008
/-- TIME_NOW_SEC_LO.SEC (R173). -/
def fld_TIME_NOW_SEC_LO_SEC : Fld := ⟨0x40008, 0, 32⟩
/-- TIME_NOW_SEC_HI (R173). -/
def reg_TIME_NOW_SEC_HI : Nat := 0x4000c
/-- TIME_NOW_SEC_HI.SEC (R173). -/
def fld_TIME_NOW_SEC_HI_SEC : Fld := ⟨0x4000c, 0, 32⟩
/-- TIME_NOW_NS (R173). -/
def reg_TIME_NOW_NS : Nat := 0x40010
/-- TIME_NOW_NS.NS (R173). -/
def fld_TIME_NOW_NS_NS : Fld := ⟨0x40010, 0, 30⟩
/-- TIME_NOW_FRAC (R173). -/
def reg_TIME_NOW_FRAC : Nat := 0x40014
/-- TIME_NOW_FRAC.FRAC (R173). -/
def fld_TIME_NOW_FRAC_FRAC : Fld := ⟨0x40014, 0, 16⟩
/-- TIME_RATE (R174). -/
def reg_TIME_RATE : Nat := 0x40018
/-- TIME_RATE.RATE (R174). -/
def fld_TIME_RATE_RATE : Fld := ⟨0x40018, 0, 32⟩
/-- TIME_OFFSET (R174). -/
def reg_TIME_OFFSET : Nat := 0x4001c
/-- TIME_OFFSET.OFFSET (R174). -/
def fld_TIME_OFFSET_OFFSET : Fld := ⟨0x4001c, 0, 32⟩
/-- TIME_LIMITS (R175). -/
def reg_TIME_LIMITS : Nat := 0x40020
/-- TIME_LIMITS.JUMP_LIMIT_NS (R175). -/
def fld_TIME_LIMITS_JUMP_LIMIT_NS : Fld := ⟨0x40020, 16, 16⟩
/-- TIME_LIMITS.LOCK_NS (R175). -/
def fld_TIME_LIMITS_LOCK_NS : Fld := ⟨0x40020, 0, 16⟩
/-- TIME_SERVO_CFG (R175). -/
def reg_TIME_SERVO_CFG : Nat := 0x40024
/-- TIME_SERVO_CFG.RECOVER_COUNT (R175). -/
def fld_TIME_SERVO_CFG_RECOVER_COUNT : Fld := ⟨0x40024, 28, 4⟩
/-- TIME_SERVO_CFG.SLEW_MAX_PPM (R175). -/
def fld_TIME_SERVO_CFG_SLEW_MAX_PPM : Fld := ⟨0x40024, 20, 8⟩
/-- TIME_SERVO_CFG.KI_SHIFT (R175). -/
def fld_TIME_SERVO_CFG_KI_SHIFT : Fld := ⟨0x40024, 16, 4⟩
/-- TIME_SERVO_CFG.KP_SHIFT (R175). -/
def fld_TIME_SERVO_CFG_KP_SHIFT : Fld := ⟨0x40024, 12, 4⟩
/-- TIME_SERVO_CFG.LOCK_COUNT (R175). -/
def fld_TIME_SERVO_CFG_LOCK_COUNT : Fld := ⟨0x40024, 8, 4⟩
/-- TIME_SERVO_CFG.FREE_RUN_S (R175). -/
def fld_TIME_SERVO_CFG_FREE_RUN_S : Fld := ⟨0x40024, 0, 8⟩
/-- TIME_GM_ID_LO (R176). -/
def reg_TIME_GM_ID_LO : Nat := 0x40028
/-- TIME_GM_ID_LO.ID (R176). -/
def fld_TIME_GM_ID_LO_ID : Fld := ⟨0x40028, 0, 32⟩
/-- TIME_GM_ID_HI (R176). -/
def reg_TIME_GM_ID_HI : Nat := 0x4002c
/-- TIME_GM_ID_HI.ID (R176). -/
def fld_TIME_GM_ID_HI_ID : Fld := ⟨0x4002c, 0, 32⟩
/-- TIME_COUNTS (R176). -/
def reg_TIME_COUNTS : Nat := 0x40030
/-- TIME_COUNTS.REFUSALS (R176). -/
def fld_TIME_COUNTS_REFUSALS : Fld := ⟨0x40030, 0, 16⟩
/-- TIME_COUNTS.GM_CHANGES (R176). -/
def fld_TIME_COUNTS_GM_CHANGES : Fld := ⟨0x40030, 16, 16⟩
/-- ETH_CTRL (R177). -/
def reg_ETH_CTRL (n : Nat) : Nat := 0x40100 + 0x100 * n
/-- ETH_CTRL.PDELAY_LOG (R177). -/
def fld_ETH_CTRL_PDELAY_LOG (n : Nat) : Fld := ⟨0x40100 + 0x100 * n, 8, 4⟩
/-- ETH_CTRL.FWD_ENABLE (R177). -/
def fld_ETH_CTRL_FWD_ENABLE (n : Nat) : Fld := ⟨0x40100 + 0x100 * n, 2, 1⟩
/-- ETH_CTRL.ENABLE (R177). -/
def fld_ETH_CTRL_ENABLE (n : Nat) : Fld := ⟨0x40100 + 0x100 * n, 1, 1⟩
/-- ETH_CTRL.PORT_RESET (R177). -/
def fld_ETH_CTRL_PORT_RESET (n : Nat) : Fld := ⟨0x40100 + 0x100 * n, 0, 1⟩
/-- ETH_STATUS (R177). -/
def reg_ETH_STATUS (n : Nat) : Nat := 0x40104 + 0x100 * n
/-- ETH_STATUS.IN_RESET (R177). -/
def fld_ETH_STATUS_IN_RESET (n : Nat) : Fld := ⟨0x40104 + 0x100 * n, 5, 1⟩
/-- ETH_STATUS.AS_CAPABLE (R177). -/
def fld_ETH_STATUS_AS_CAPABLE (n : Nat) : Fld := ⟨0x40104 + 0x100 * n, 4, 1⟩
/-- ETH_STATUS.SPEED (R177). -/
def fld_ETH_STATUS_SPEED (n : Nat) : Fld := ⟨0x40104 + 0x100 * n, 1, 3⟩
/-- ETH_STATUS.LINK (R177). -/
def fld_ETH_STATUS_LINK (n : Nat) : Fld := ⟨0x40104 + 0x100 * n, 0, 1⟩
/-- ETH_RX_LAT (R178). -/
def reg_ETH_RX_LAT (n : Nat) : Nat := 0x40108 + 0x100 * n
/-- ETH_RX_LAT.NS (R178). -/
def fld_ETH_RX_LAT_NS (n : Nat) : Fld := ⟨0x40108 + 0x100 * n, 16, 16⟩
/-- ETH_RX_LAT.FRAC (R178). -/
def fld_ETH_RX_LAT_FRAC (n : Nat) : Fld := ⟨0x40108 + 0x100 * n, 0, 16⟩
/-- ETH_TX_LAT (R178). -/
def reg_ETH_TX_LAT (n : Nat) : Nat := 0x4010c + 0x100 * n
/-- ETH_TX_LAT.NS (R178). -/
def fld_ETH_TX_LAT_NS (n : Nat) : Fld := ⟨0x4010c + 0x100 * n, 16, 16⟩
/-- ETH_TX_LAT.FRAC (R178). -/
def fld_ETH_TX_LAT_FRAC (n : Nat) : Fld := ⟨0x4010c + 0x100 * n, 0, 16⟩
/-- ETH_LINK_DELAY (R178). -/
def reg_ETH_LINK_DELAY (n : Nat) : Nat := 0x40110 + 0x100 * n
/-- ETH_LINK_DELAY.NS (R178). -/
def fld_ETH_LINK_DELAY_NS (n : Nat) : Fld := ⟨0x40110 + 0x100 * n, 16, 16⟩
/-- ETH_LINK_DELAY.FRAC (R178). -/
def fld_ETH_LINK_DELAY_FRAC (n : Nat) : Fld := ⟨0x40110 + 0x100 * n, 0, 16⟩
/-- ETH_NRR (R178). -/
def reg_ETH_NRR (n : Nat) : Nat := 0x40114 + 0x100 * n
/-- ETH_NRR.NRR (R178). -/
def fld_ETH_NRR_NRR (n : Nat) : Fld := ⟨0x40114 + 0x100 * n, 0, 32⟩
/-- ETH_ADDR_LO (R178). -/
def reg_ETH_ADDR_LO (n : Nat) : Nat := 0x40118 + 0x100 * n
/-- ETH_ADDR_LO.ADDR (R178). -/
def fld_ETH_ADDR_LO_ADDR (n : Nat) : Fld := ⟨0x40118 + 0x100 * n, 0, 32⟩
/-- ETH_ADDR_HI (R178). -/
def reg_ETH_ADDR_HI (n : Nat) : Nat := 0x4011c + 0x100 * n
/-- ETH_ADDR_HI.ADDR (R178). -/
def fld_ETH_ADDR_HI_ADDR (n : Nat) : Fld := ⟨0x4011c + 0x100 * n, 0, 16⟩
/-- LQ_STATUS (R178). -/
def reg_LQ_STATUS (n : Nat) : Nat := 0x40120 + 0x100 * n
/-- LQ_STATUS.DEPTH (R178). -/
def fld_LQ_STATUS_DEPTH (n : Nat) : Fld := ⟨0x40120 + 0x100 * n, 0, 7⟩
/-- LQ_STATUS.LAST_LAG (R178). -/
def fld_LQ_STATUS_LAST_LAG (n : Nat) : Fld := ⟨0x40120 + 0x100 * n, 16, 16⟩
/-- LQ_COUNTS (R178). -/
def reg_LQ_COUNTS (n : Nat) : Nat := 0x40124 + 0x100 * n
/-- LQ_COUNTS.LATE (R178). -/
def fld_LQ_COUNTS_LATE (n : Nat) : Fld := ⟨0x40124 + 0x100 * n, 0, 16⟩
/-- LQ_COUNTS.DROPPED (R178). -/
def fld_LQ_COUNTS_DROPPED (n : Nat) : Fld := ⟨0x40124 + 0x100 * n, 16, 16⟩
/-- TC_COUNT (R178). -/
def reg_TC_COUNT (n : Nat) : Nat := 0x40128 + 0x100 * n
/-- TC_COUNT.COUNT (R178). -/
def fld_TC_COUNT_COUNT (n : Nat) : Fld := ⟨0x40128 + 0x100 * n, 0, 32⟩
/-- TOUT_CTRL (R179). -/
def reg_TOUT_CTRL (n : Nat) : Nat := 0x40400 + 0x20 * n
/-- TOUT_CTRL.ACTIVE (R179). -/
def fld_TOUT_CTRL_ACTIVE (n : Nat) : Fld := ⟨0x40400 + 0x20 * n, 5, 1⟩
/-- TOUT_CTRL.CFG_REJECT (R179). -/
def fld_TOUT_CTRL_CFG_REJECT (n : Nat) : Fld := ⟨0x40400 + 0x20 * n, 4, 1⟩
/-- TOUT_CTRL.MISSED (R179). -/
def fld_TOUT_CTRL_MISSED (n : Nat) : Fld := ⟨0x40400 + 0x20 * n, 3, 1⟩
/-- TOUT_CTRL.POLARITY (R179). -/
def fld_TOUT_CTRL_POLARITY (n : Nat) : Fld := ⟨0x40400 + 0x20 * n, 2, 1⟩
/-- TOUT_CTRL.PERIODIC (R179). -/
def fld_TOUT_CTRL_PERIODIC (n : Nat) : Fld := ⟨0x40400 + 0x20 * n, 1, 1⟩
/-- TOUT_CTRL.ENABLE (R179). -/
def fld_TOUT_CTRL_ENABLE (n : Nat) : Fld := ⟨0x40400 + 0x20 * n, 0, 1⟩
/-- TOUT_START_SEC_LO (R179). -/
def reg_TOUT_START_SEC_LO (n : Nat) : Nat := 0x40404 + 0x20 * n
/-- TOUT_START_SEC_LO.SEC (R179). -/
def fld_TOUT_START_SEC_LO_SEC (n : Nat) : Fld := ⟨0x40404 + 0x20 * n, 0, 32⟩
/-- TOUT_START_SEC_HI (R179). -/
def reg_TOUT_START_SEC_HI (n : Nat) : Nat := 0x40408 + 0x20 * n
/-- TOUT_START_SEC_HI.SEC (R179). -/
def fld_TOUT_START_SEC_HI_SEC (n : Nat) : Fld := ⟨0x40408 + 0x20 * n, 0, 32⟩
/-- TOUT_START_NS (R179). -/
def reg_TOUT_START_NS (n : Nat) : Nat := 0x4040c + 0x20 * n
/-- TOUT_START_NS.NS (R179). -/
def fld_TOUT_START_NS_NS (n : Nat) : Fld := ⟨0x4040c + 0x20 * n, 0, 30⟩
/-- TOUT_PERIOD_NS (R179). -/
def reg_TOUT_PERIOD_NS (n : Nat) : Nat := 0x40410 + 0x20 * n
/-- TOUT_PERIOD_NS.NS (R179). -/
def fld_TOUT_PERIOD_NS_NS (n : Nat) : Fld := ⟨0x40410 + 0x20 * n, 0, 32⟩
/-- TOUT_PERIOD_FRAC (R179). -/
def reg_TOUT_PERIOD_FRAC (n : Nat) : Nat := 0x40414 + 0x20 * n
/-- TOUT_PERIOD_FRAC.FRAC (R179). -/
def fld_TOUT_PERIOD_FRAC_FRAC (n : Nat) : Fld := ⟨0x40414 + 0x20 * n, 0, 16⟩
/-- TOUT_WIDTH (R179). -/
def reg_TOUT_WIDTH (n : Nat) : Nat := 0x40418 + 0x20 * n
/-- TOUT_WIDTH.WIDTH (R179). -/
def fld_TOUT_WIDTH_WIDTH (n : Nat) : Fld := ⟨0x40418 + 0x20 * n, 0, 24⟩
/-- TIN_CTRL (R180). -/
def reg_TIN_CTRL (n : Nat) : Nat := 0x40600 + 0x20 * n
/-- TIN_CTRL.FILTER (R180). -/
def fld_TIN_CTRL_FILTER (n : Nat) : Fld := ⟨0x40600 + 0x20 * n, 2, 2⟩
/-- TIN_CTRL.EDGE (R180). -/
def fld_TIN_CTRL_EDGE (n : Nat) : Fld := ⟨0x40600 + 0x20 * n, 0, 2⟩
/-- TIN_STATUS (R180). -/
def reg_TIN_STATUS (n : Nat) : Nat := 0x40604 + 0x20 * n
/-- TIN_STATUS.HEAD_SEQ (R180). -/
def fld_TIN_STATUS_HEAD_SEQ (n : Nat) : Fld := ⟨0x40604 + 0x20 * n, 16, 16⟩
/-- TIN_STATUS.HEAD_EDGE (R180). -/
def fld_TIN_STATUS_HEAD_EDGE (n : Nat) : Fld := ⟨0x40604 + 0x20 * n, 9, 1⟩
/-- TIN_STATUS.OVR (R180). -/
def fld_TIN_STATUS_OVR (n : Nat) : Fld := ⟨0x40604 + 0x20 * n, 8, 1⟩
/-- TIN_STATUS.LEVEL (R180). -/
def fld_TIN_STATUS_LEVEL (n : Nat) : Fld := ⟨0x40604 + 0x20 * n, 0, 5⟩
/-- TIN_SEC_LO (R180). -/
def reg_TIN_SEC_LO (n : Nat) : Nat := 0x40608 + 0x20 * n
/-- TIN_SEC_LO.SEC (R180). -/
def fld_TIN_SEC_LO_SEC (n : Nat) : Fld := ⟨0x40608 + 0x20 * n, 0, 32⟩
/-- TIN_SEC_HI (R180). -/
def reg_TIN_SEC_HI (n : Nat) : Nat := 0x4060c + 0x20 * n
/-- TIN_SEC_HI.SEC (R180). -/
def fld_TIN_SEC_HI_SEC (n : Nat) : Fld := ⟨0x4060c + 0x20 * n, 0, 32⟩
/-- TIN_NS (R180). -/
def reg_TIN_NS (n : Nat) : Nat := 0x40610 + 0x20 * n
/-- TIN_NS.NS (R180). -/
def fld_TIN_NS_NS (n : Nat) : Fld := ⟨0x40610 + 0x20 * n, 0, 30⟩
/-- TIN_FRAC (R180). -/
def reg_TIN_FRAC (n : Nat) : Nat := 0x40614 + 0x20 * n
/-- TIN_FRAC.FRAC (R180). -/
def fld_TIN_FRAC_FRAC (n : Nat) : Fld := ⟨0x40614 + 0x20 * n, 0, 16⟩
/-- TIN_POP (R180). -/
def reg_TIN_POP (n : Nat) : Nat := 0x40618 + 0x20 * n
/-- TIN_POP.POP (R180). -/
def fld_TIN_POP_POP (n : Nat) : Fld := ⟨0x40618 + 0x20 * n, 0, 1⟩
/-- I3C_CFG (R508). -/
def reg_I3C_CFG : Nat := 0x50000
/-- I3C_CFG.RESET_EN (R508). -/
def fld_I3C_CFG_RESET_EN : Fld := ⟨0x50000, 9, 1⟩
/-- I3C_CFG.HDR_EN (R508). -/
def fld_I3C_CFG_HDR_EN : Fld := ⟨0x50000, 8, 1⟩
/-- I3C_CFG.STATIC_ADDR (R508). -/
def fld_I3C_CFG_STATIC_ADDR : Fld := ⟨0x50000, 0, 7⟩
/-- I3C_STATUS (R508). -/
def reg_I3C_STATUS : Nat := 0x50004
/-- I3C_STATUS.DYN_ADDR (R508). -/
def fld_I3C_STATUS_DYN_ADDR : Fld := ⟨0x50004, 0, 7⟩
/-- I3C_STATUS.ADDR_VALID (R508). -/
def fld_I3C_STATUS_ADDR_VALID : Fld := ⟨0x50004, 7, 1⟩
/-- I3C_STATUS.IBI_ON (R508). -/
def fld_I3C_STATUS_IBI_ON : Fld := ⟨0x50004, 8, 1⟩
/-- I3C_IBI_EN (R508). -/
def reg_I3C_IBI_EN : Nat := 0x50008
/-- I3C_IBI_EN.EN (R508). -/
def fld_I3C_IBI_EN_EN : Fld := ⟨0x50008, 1, 7⟩
/-- I3C_IBI_PEND (R508). -/
def reg_I3C_IBI_PEND : Nat := 0x5000c
/-- I3C_IBI_PEND.PEND (R508). -/
def fld_I3C_IBI_PEND_PEND : Fld := ⟨0x5000c, 1, 7⟩
/-- I3C_COUNTS (R508). -/
def reg_I3C_COUNTS : Nat := 0x50010
/-- I3C_COUNTS.IBIS (R508). -/
def fld_I3C_COUNTS_IBIS : Fld := ⟨0x50010, 0, 24⟩
/-- HL_CFG (R509). -/
def reg_HL_CFG : Nat := 0x50100
/-- HL_CFG.HDR_CHECK (R509). -/
def fld_HL_CFG_HDR_CHECK : Fld := ⟨0x50100, 16, 3⟩
/-- HL_CFG.CMD_CHECK (R509). -/
def fld_HL_CFG_CMD_CHECK : Fld := ⟨0x50100, 12, 3⟩
/-- HL_CFG.CMD_VC (R509). -/
def fld_HL_CFG_CMD_VC : Fld := ⟨0x50100, 8, 4⟩
/-- HL_CFG.CMD_PORT (R509). -/
def fld_HL_CFG_CMD_PORT : Fld := ⟨0x50100, 4, 4⟩
/-- HL_CFG.CMD_ENABLE (R509). -/
def fld_HL_CFG_CMD_ENABLE : Fld := ⟨0x50100, 0, 1⟩
/-- CMD_LAST (R509). -/
def reg_CMD_LAST : Nat := 0x50104
/-- CMD_LAST.DT (R509). -/
def fld_CMD_LAST_DT : Fld := ⟨0x50104, 0, 8⟩
/-- CMD_LAST.RESULT (R509). -/
def fld_CMD_LAST_RESULT : Fld := ⟨0x50104, 8, 4⟩
/-- CMD_LAST.DETAIL (R509). -/
def fld_CMD_LAST_DETAIL : Fld := ⟨0x50104, 16, 8⟩
/-- CMD_COUNT_0 (R509). -/
def reg_CMD_COUNT_0 : Nat := 0x50108
/-- CMD_COUNT_0.ACCEPTED (R509). -/
def fld_CMD_COUNT_0_ACCEPTED : Fld := ⟨0x50108, 0, 32⟩
/-- CMD_COUNT_1 (R509). -/
def reg_CMD_COUNT_1 : Nat := 0x5010c
/-- CMD_COUNT_1.CRC (R509). -/
def fld_CMD_COUNT_1_CRC : Fld := ⟨0x5010c, 0, 16⟩
/-- CMD_COUNT_1.REPEAT (R509). -/
def fld_CMD_COUNT_1_REPEAT : Fld := ⟨0x5010c, 16, 16⟩
/-- CMD_COUNT_2 (R509). -/
def reg_CMD_COUNT_2 : Nat := 0x50110
/-- CMD_COUNT_2.SKIP (R509). -/
def fld_CMD_COUNT_2_SKIP : Fld := ⟨0x50110, 0, 16⟩
/-- CMD_COUNT_2.REFUSED (R509). -/
def fld_CMD_COUNT_2_REFUSED : Fld := ⟨0x50110, 16, 16⟩
/-- CMD_COUNT_3 (R509). -/
def reg_CMD_COUNT_3 : Nat := 0x50114
/-- CMD_COUNT_3.DISCARDED (R509). -/
def fld_CMD_COUNT_3_DISCARDED : Fld := ⟨0x50114, 0, 16⟩
/-- CMD_COUNT_3.TILES (R509). -/
def fld_CMD_COUNT_3_TILES : Fld := ⟨0x50114, 16, 16⟩
/-- CSI_TX_CFG (R510). -/
def reg_CSI_TX_CFG (n : Nat) : Nat := 0x50200 + 0x20 * n
/-- CSI_TX_CFG.RATE (R510). -/
def fld_CSI_TX_CFG_RATE (n : Nat) : Fld := ⟨0x50200 + 0x20 * n, 16, 8⟩
/-- CSI_TX_CFG.CLK_CONT (R510). -/
def fld_CSI_TX_CFG_CLK_CONT (n : Nat) : Fld := ⟨0x50200 + 0x20 * n, 5, 1⟩
/-- CSI_TX_CFG.DESKEW (R510). -/
def fld_CSI_TX_CFG_DESKEW (n : Nat) : Fld := ⟨0x50200 + 0x20 * n, 4, 1⟩
/-- CSI_TX_CFG.LANES (R510). -/
def fld_CSI_TX_CFG_LANES (n : Nat) : Fld := ⟨0x50200 + 0x20 * n, 2, 2⟩
/-- CSI_TX_CFG.PHY (R510). -/
def fld_CSI_TX_CFG_PHY (n : Nat) : Fld := ⟨0x50200 + 0x20 * n, 1, 1⟩
/-- CSI_TX_CFG.ENABLE (R510). -/
def fld_CSI_TX_CFG_ENABLE (n : Nat) : Fld := ⟨0x50200 + 0x20 * n, 0, 1⟩
/-- CSI_TX_CTRL (R510). -/
def reg_CSI_TX_CTRL (n : Nat) : Nat := 0x50204 + 0x20 * n
/-- CSI_TX_CTRL.PORT_RESET (R510). -/
def fld_CSI_TX_CTRL_PORT_RESET (n : Nat) : Fld := ⟨0x50204 + 0x20 * n, 0, 1⟩
/-- CSI_TX_STATUS (R510). -/
def reg_CSI_TX_STATUS (n : Nat) : Nat := 0x50208 + 0x20 * n
/-- CSI_TX_STATUS.BUSY (R510). -/
def fld_CSI_TX_STATUS_BUSY (n : Nat) : Fld := ⟨0x50208 + 0x20 * n, 0, 1⟩
/-- CSI_TX_STATUS.IN_RESET (R510). -/
def fld_CSI_TX_STATUS_IN_RESET (n : Nat) : Fld := ⟨0x50208 + 0x20 * n, 1, 1⟩
/-- CSI_TX_FRAMES (R510). -/
def reg_CSI_TX_FRAMES (n : Nat) : Nat := 0x5020c + 0x20 * n
/-- CSI_TX_FRAMES.FRAMES (R510). -/
def fld_CSI_TX_FRAMES_FRAMES (n : Nat) : Fld := ⟨0x5020c + 0x20 * n, 0, 32⟩
/-- TX_STREAM_CFG (R511). -/
def reg_TX_STREAM_CFG (n : Nat) : Nat := 0x50400 + 0x10 * n
/-- TX_STREAM_CFG.CFG_ERR (R511). -/
def fld_TX_STREAM_CFG_CFG_ERR (n : Nat) : Fld := ⟨0x50400 + 0x10 * n, 31, 1⟩
/-- TX_STREAM_CFG.LINE_UNITS (R511). -/
def fld_TX_STREAM_CFG_LINE_UNITS (n : Nat) : Fld := ⟨0x50400 + 0x10 * n, 20, 8⟩
/-- TX_STREAM_CFG.DIV (R511). -/
def fld_TX_STREAM_CFG_DIV (n : Nat) : Fld := ⟨0x50400 + 0x10 * n, 12, 8⟩
/-- TX_STREAM_CFG.PRIORITY (R511). -/
def fld_TX_STREAM_CFG_PRIORITY (n : Nat) : Fld := ⟨0x50400 + 0x10 * n, 10, 1⟩
/-- TX_STREAM_CFG.VC (R511). -/
def fld_TX_STREAM_CFG_VC (n : Nat) : Fld := ⟨0x50400 + 0x10 * n, 6, 4⟩
/-- TX_STREAM_CFG.PORT (R511). -/
def fld_TX_STREAM_CFG_PORT (n : Nat) : Fld := ⟨0x50400 + 0x10 * n, 4, 2⟩
/-- TX_STREAM_CFG.TYPE (R511). -/
def fld_TX_STREAM_CFG_TYPE (n : Nat) : Fld := ⟨0x50400 + 0x10 * n, 1, 3⟩
/-- TX_STREAM_CFG.ENABLE (R511). -/
def fld_TX_STREAM_CFG_ENABLE (n : Nat) : Fld := ⟨0x50400 + 0x10 * n, 0, 1⟩
/-- TX_STREAM_SRC (R511). -/
def reg_TX_STREAM_SRC (n : Nat) : Nat := 0x50404 + 0x10 * n
/-- TX_STREAM_SRC.SRC_A (R511). -/
def fld_TX_STREAM_SRC_SRC_A (n : Nat) : Fld := ⟨0x50404 + 0x10 * n, 0, 9⟩
/-- TX_STREAM_SRC.SRC_B (R511). -/
def fld_TX_STREAM_SRC_SRC_B (n : Nat) : Fld := ⟨0x50404 + 0x10 * n, 16, 9⟩
/-- TX_STREAM_SEQ (R511). -/
def reg_TX_STREAM_SEQ (n : Nat) : Nat := 0x50408 + 0x10 * n
/-- TX_STREAM_SEQ.SEQUENCE (R511). -/
def fld_TX_STREAM_SEQ_SEQUENCE (n : Nat) : Fld := ⟨0x50408 + 0x10 * n, 0, 32⟩
/-- TX_STREAM_LOSS (R511). -/
def reg_TX_STREAM_LOSS (n : Nat) : Nat := 0x5040c + 0x10 * n
/-- TX_STREAM_LOSS.SKIPPED (R511). -/
def fld_TX_STREAM_LOSS_SKIPPED (n : Nat) : Fld := ⟨0x5040c + 0x10 * n, 0, 16⟩
/-- TX_STREAM_LOSS.CUT (R511). -/
def fld_TX_STREAM_LOSS_CUT (n : Nat) : Fld := ⟨0x5040c + 0x10 * n, 16, 16⟩
/-- IMU_BUS_CFG (R512). -/
def reg_IMU_BUS_CFG : Nat := 0x50600
/-- IMU_BUS_CFG.SPI_MHZ (R512). -/
def fld_IMU_BUS_CFG_SPI_MHZ : Fld := ⟨0x50600, 0, 5⟩
/-- IMU_PORT_CFG (R512). -/
def reg_IMU_PORT_CFG (n : Nat) : Nat := 0x50610 + 0x10 * n
/-- IMU_PORT_CFG.READ_FLAG (R512). -/
def fld_IMU_PORT_CFG_READ_FLAG (n : Nat) : Fld := ⟨0x50610 + 0x10 * n, 26, 1⟩
/-- IMU_PORT_CFG.CS (R512). -/
def fld_IMU_PORT_CFG_CS (n : Nat) : Fld := ⟨0x50610 + 0x10 * n, 24, 2⟩
/-- IMU_PORT_CFG.READ_REG (R512). -/
def fld_IMU_PORT_CFG_READ_REG (n : Nat) : Fld := ⟨0x50610 + 0x10 * n, 16, 8⟩
/-- IMU_PORT_CFG.STATIC_ADDR (R512). -/
def fld_IMU_PORT_CFG_STATIC_ADDR (n : Nat) : Fld := ⟨0x50610 + 0x10 * n, 8, 7⟩
/-- IMU_PORT_CFG.DRDY_EDGE (R512). -/
def fld_IMU_PORT_CFG_DRDY_EDGE (n : Nat) : Fld := ⟨0x50610 + 0x10 * n, 4, 1⟩
/-- IMU_PORT_CFG.ORDER (R512). -/
def fld_IMU_PORT_CFG_ORDER (n : Nat) : Fld := ⟨0x50610 + 0x10 * n, 3, 1⟩
/-- IMU_PORT_CFG.SWAP (R512). -/
def fld_IMU_PORT_CFG_SWAP (n : Nat) : Fld := ⟨0x50610 + 0x10 * n, 2, 1⟩
/-- IMU_PORT_CFG.SPI_MODE (R512). -/
def fld_IMU_PORT_CFG_SPI_MODE (n : Nat) : Fld := ⟨0x50610 + 0x10 * n, 1, 1⟩
/-- IMU_PORT_CFG.BUS (R512). -/
def fld_IMU_PORT_CFG_BUS (n : Nat) : Fld := ⟨0x50610 + 0x10 * n, 0, 1⟩
/-- IMU_PORT_STATUS (R512). -/
def reg_IMU_PORT_STATUS (n : Nat) : Nat := 0x50614 + 0x10 * n
/-- IMU_PORT_STATUS.INIT_DONE (R512). -/
def fld_IMU_PORT_STATUS_INIT_DONE (n : Nat) : Fld := ⟨0x50614 + 0x10 * n, 0, 1⟩
/-- IMU_PORT_STATUS.INIT_ERR (R512). -/
def fld_IMU_PORT_STATUS_INIT_ERR (n : Nat) : Fld := ⟨0x50614 + 0x10 * n, 1, 1⟩
/-- IMU_PORT_STATUS.ADDR_VALID (R512). -/
def fld_IMU_PORT_STATUS_ADDR_VALID (n : Nat) : Fld := ⟨0x50614 + 0x10 * n, 2, 1⟩
/-- IMU_PORT_ERR (R512). -/
def reg_IMU_PORT_ERR (n : Nat) : Nat := 0x50618 + 0x10 * n
/-- IMU_PORT_ERR.NACK (R512). -/
def fld_IMU_PORT_ERR_NACK (n : Nat) : Fld := ⟨0x50618 + 0x10 * n, 0, 16⟩
/-- IMU_PORT_ERR.OVERRUN (R512). -/
def fld_IMU_PORT_ERR_OVERRUN (n : Nat) : Fld := ⟨0x50618 + 0x10 * n, 16, 16⟩
/-- CSI_RX_CFG (R203). -/
def reg_CSI_RX_CFG (n : Nat) : Nat := 0x100000 + 0x20 * n
/-- CSI_RX_CFG.RATE (R203). -/
def fld_CSI_RX_CFG_RATE (n : Nat) : Fld := ⟨0x100000 + 0x20 * n, 16, 8⟩
/-- CSI_RX_CFG.DESKEW (R203). -/
def fld_CSI_RX_CFG_DESKEW (n : Nat) : Fld := ⟨0x100000 + 0x20 * n, 4, 1⟩
/-- CSI_RX_CFG.LANES (R203). -/
def fld_CSI_RX_CFG_LANES (n : Nat) : Fld := ⟨0x100000 + 0x20 * n, 2, 2⟩
/-- CSI_RX_CFG.PHY (R203). -/
def fld_CSI_RX_CFG_PHY (n : Nat) : Fld := ⟨0x100000 + 0x20 * n, 1, 1⟩
/-- CSI_RX_CFG.ENABLE (R203). -/
def fld_CSI_RX_CFG_ENABLE (n : Nat) : Fld := ⟨0x100000 + 0x20 * n, 0, 1⟩
/-- CSI_RX_CTRL (R203). -/
def reg_CSI_RX_CTRL (n : Nat) : Nat := 0x100004 + 0x20 * n
/-- CSI_RX_CTRL.PORT_RESET (R203). -/
def fld_CSI_RX_CTRL_PORT_RESET (n : Nat) : Fld := ⟨0x100004 + 0x20 * n, 0, 1⟩
/-- CSI_RX_STATUS (R203). -/
def reg_CSI_RX_STATUS (n : Nat) : Nat := 0x100008 + 0x20 * n
/-- CSI_RX_STATUS.IN_RESET (R203). -/
def fld_CSI_RX_STATUS_IN_RESET (n : Nat) : Fld := ⟨0x100008 + 0x20 * n, 2, 1⟩
/-- CSI_RX_STATUS.STOP (R203). -/
def fld_CSI_RX_STATUS_STOP (n : Nat) : Fld := ⟨0x100008 + 0x20 * n, 1, 1⟩
/-- CSI_RX_STATUS.ACTIVE (R203). -/
def fld_CSI_RX_STATUS_ACTIVE (n : Nat) : Fld := ⟨0x100008 + 0x20 * n, 0, 1⟩
/-- CSI_RX_ERR (R203). -/
def reg_CSI_RX_ERR (n : Nat) : Nat := 0x10000c + 0x20 * n
/-- CSI_RX_ERR.ECC_CORR (R203). -/
def fld_CSI_RX_ERR_ECC_CORR (n : Nat) : Fld := ⟨0x10000c + 0x20 * n, 0, 16⟩
/-- CSI_RX_ERR.CRC_ERR (R203). -/
def fld_CSI_RX_ERR_CRC_ERR (n : Nat) : Fld := ⟨0x10000c + 0x20 * n, 16, 16⟩
/-- CSI_RX_DROP (R203). -/
def reg_CSI_RX_DROP (n : Nat) : Nat := 0x100010 + 0x20 * n
/-- CSI_RX_DROP.UNMATCHED (R203). -/
def fld_CSI_RX_DROP_UNMATCHED (n : Nat) : Fld := ⟨0x100010 + 0x20 * n, 0, 16⟩
/-- CSI_RX_DROP.PHY_ERR (R203). -/
def fld_CSI_RX_DROP_PHY_ERR (n : Nat) : Fld := ⟨0x100010 + 0x20 * n, 16, 16⟩
/-- STREAM_CFG (R204). -/
def reg_STREAM_CFG (n : Nat) : Nat := 0x100400 + 0x40 * n
/-- STREAM_CFG.GROUP (R204). -/
def fld_STREAM_CFG_GROUP (n : Nat) : Fld := ⟨0x100400 + 0x40 * n, 28, 4⟩
/-- STREAM_CFG.DEPTH (R204). -/
def fld_STREAM_CFG_DEPTH (n : Nat) : Fld := ⟨0x100400 + 0x40 * n, 26, 2⟩
/-- STREAM_CFG.PLANES (R204). -/
def fld_STREAM_CFG_PLANES (n : Nat) : Fld := ⟨0x100400 + 0x40 * n, 23, 3⟩
/-- STREAM_CFG.DT (R204). -/
def fld_STREAM_CFG_DT (n : Nat) : Fld := ⟨0x100400 + 0x40 * n, 17, 6⟩
/-- STREAM_CFG.VC (R204). -/
def fld_STREAM_CFG_VC (n : Nat) : Fld := ⟨0x100400 + 0x40 * n, 13, 4⟩
/-- STREAM_CFG.PORT (R204). -/
def fld_STREAM_CFG_PORT (n : Nat) : Fld := ⟨0x100400 + 0x40 * n, 9, 4⟩
/-- STREAM_CFG.ENABLE (R204). -/
def fld_STREAM_CFG_ENABLE (n : Nat) : Fld := ⟨0x100400 + 0x40 * n, 0, 1⟩
/-- STREAM_GEOM (R204). -/
def reg_STREAM_GEOM (n : Nat) : Nat := 0x100404 + 0x40 * n
/-- STREAM_GEOM.WIDTH (R204). -/
def fld_STREAM_GEOM_WIDTH (n : Nat) : Fld := ⟨0x100404 + 0x40 * n, 0, 16⟩
/-- STREAM_GEOM.HEIGHT (R204). -/
def fld_STREAM_GEOM_HEIGHT (n : Nat) : Fld := ⟨0x100404 + 0x40 * n, 16, 16⟩
/-- STREAM_AREA (R204). -/
def reg_STREAM_AREA (n : Nat) : Nat := 0x100408 + 0x40 * n
/-- STREAM_AREA.BASE (R204). -/
def fld_STREAM_AREA_BASE (n : Nat) : Fld := ⟨0x100408 + 0x40 * n, 0, 11⟩
/-- STREAM_LINK (R204). -/
def reg_STREAM_LINK (n : Nat) : Nat := 0x10040c + 0x40 * n
/-- STREAM_LINK.MARKER (R204). -/
def fld_STREAM_LINK_MARKER (n : Nat) : Fld := ⟨0x10040c + 0x40 * n, 0, 12⟩
/-- STREAM_LINK.TRANSFORM (R204). -/
def fld_STREAM_LINK_TRANSFORM (n : Nat) : Fld := ⟨0x10040c + 0x40 * n, 16, 8⟩
/-- STREAM_PERIOD (R204). -/
def reg_STREAM_PERIOD (n : Nat) : Nat := 0x100410 + 0x40 * n
/-- STREAM_PERIOD.PERIOD_US (R204). -/
def fld_STREAM_PERIOD_PERIOD_US (n : Nat) : Fld := ⟨0x100410 + 0x40 * n, 0, 17⟩
/-- STREAM_STATUS (R204). -/
def reg_STREAM_STATUS (n : Nat) : Nat := 0x100414 + 0x40 * n
/-- STREAM_STATUS.SET (R204). -/
def fld_STREAM_STATUS_SET (n : Nat) : Fld := ⟨0x100414 + 0x40 * n, 4, 2⟩
/-- STREAM_STATUS.SLIPPED (R204). -/
def fld_STREAM_STATUS_SLIPPED (n : Nat) : Fld := ⟨0x100414 + 0x40 * n, 3, 1⟩
/-- STREAM_STATUS.BAD (R204). -/
def fld_STREAM_STATUS_BAD (n : Nat) : Fld := ⟨0x100414 + 0x40 * n, 2, 1⟩
/-- STREAM_STATUS.CFG_ERR (R204). -/
def fld_STREAM_STATUS_CFG_ERR (n : Nat) : Fld := ⟨0x100414 + 0x40 * n, 1, 1⟩
/-- STREAM_STATUS.ACTIVE (R204). -/
def fld_STREAM_STATUS_ACTIVE (n : Nat) : Fld := ⟨0x100414 + 0x40 * n, 0, 1⟩
/-- STREAM_FRAMES (R204). -/
def reg_STREAM_FRAMES (n : Nat) : Nat := 0x100418 + 0x40 * n
/-- STREAM_FRAMES.FRAMES (R204). -/
def fld_STREAM_FRAMES_FRAMES (n : Nat) : Fld := ⟨0x100418 + 0x40 * n, 0, 32⟩
/-- STREAM_LOSS (R204). -/
def reg_STREAM_LOSS (n : Nat) : Nat := 0x10041c + 0x40 * n
/-- STREAM_LOSS.BAD (R204). -/
def fld_STREAM_LOSS_BAD (n : Nat) : Fld := ⟨0x10041c + 0x40 * n, 0, 16⟩
/-- STREAM_LOSS.NO_BUFFER (R204). -/
def fld_STREAM_LOSS_NO_BUFFER (n : Nat) : Fld := ⟨0x10041c + 0x40 * n, 16, 16⟩
/-- STREAM_SLIP (R204). -/
def reg_STREAM_SLIP (n : Nat) : Nat := 0x100420 + 0x40 * n
/-- STREAM_SLIP.SLIPS (R204). -/
def fld_STREAM_SLIP_SLIPS (n : Nat) : Fld := ⟨0x100420 + 0x40 * n, 0, 16⟩
/-- STREAM_SLIP.STALE (R204). -/
def fld_STREAM_SLIP_STALE (n : Nat) : Fld := ⟨0x100420 + 0x40 * n, 16, 16⟩
/-- STREAM_FS_SEC_LO (R204). -/
def reg_STREAM_FS_SEC_LO (n : Nat) : Nat := 0x100424 + 0x40 * n
/-- STREAM_FS_SEC_LO.SEC (R204). -/
def fld_STREAM_FS_SEC_LO_SEC (n : Nat) : Fld := ⟨0x100424 + 0x40 * n, 0, 32⟩
/-- STREAM_FS_SEC_HI (R204). -/
def reg_STREAM_FS_SEC_HI (n : Nat) : Nat := 0x100428 + 0x40 * n
/-- STREAM_FS_SEC_HI.SEC (R204). -/
def fld_STREAM_FS_SEC_HI_SEC (n : Nat) : Fld := ⟨0x100428 + 0x40 * n, 0, 32⟩
/-- STREAM_FS_NS (R204). -/
def reg_STREAM_FS_NS (n : Nat) : Nat := 0x10042c + 0x40 * n
/-- STREAM_FS_NS.NS (R204). -/
def fld_STREAM_FS_NS_NS (n : Nat) : Fld := ⟨0x10042c + 0x40 * n, 0, 30⟩
/-- PAIR_CFG (R205). -/
def reg_PAIR_CFG (n : Nat) : Nat := 0x100800 + 0x10 * n
/-- PAIR_CFG.MEMBERS (R205). -/
def fld_PAIR_CFG_MEMBERS (n : Nat) : Fld := ⟨0x100800 + 0x10 * n, 16, 12⟩
/-- PAIR_CFG.REF (R205). -/
def fld_PAIR_CFG_REF (n : Nat) : Fld := ⟨0x100800 + 0x10 * n, 8, 4⟩
/-- PAIR_CFG.ENABLE (R205). -/
def fld_PAIR_CFG_ENABLE (n : Nat) : Fld := ⟨0x100800 + 0x10 * n, 0, 1⟩
/-- PAIR_TOL (R205). -/
def reg_PAIR_TOL (n : Nat) : Nat := 0x100804 + 0x10 * n
/-- PAIR_TOL.TOL_NS (R205). -/
def fld_PAIR_TOL_TOL_NS (n : Nat) : Fld := ⟨0x100804 + 0x10 * n, 0, 24⟩
/-- PAIR_WAIT (R205). -/
def reg_PAIR_WAIT (n : Nat) : Nat := 0x100808 + 0x10 * n
/-- PAIR_WAIT.WAIT_US (R205). -/
def fld_PAIR_WAIT_WAIT_US (n : Nat) : Fld := ⟨0x100808 + 0x10 * n, 0, 16⟩
/-- PAIR_STATUS (R205). -/
def reg_PAIR_STATUS (n : Nat) : Nat := 0x10080c + 0x10 * n
/-- PAIR_STATUS.ACTIVE (R205). -/
def fld_PAIR_STATUS_ACTIVE (n : Nat) : Fld := ⟨0x10080c + 0x10 * n, 0, 1⟩
/-- PAIR_STATUS.STALE (R205). -/
def fld_PAIR_STATUS_STALE (n : Nat) : Fld := ⟨0x10080c + 0x10 * n, 1, 1⟩
/-- STITCH_ERR (R206). -/
def reg_STITCH_ERR : Nat := 0x100f00
/-- STITCH_ERR.PROTO (R206). -/
def fld_STITCH_ERR_PROTO : Fld := ⟨0x100f00, 0, 16⟩
/-- STITCH_MARKER (R206). -/
def reg_STITCH_MARKER (n : Nat) : Nat := 0x104000 + 4 * n
/-- STITCH_MARKER.READERS (R206). -/
def fld_STITCH_MARKER_READERS (n : Nat) : Fld := ⟨0x104000 + 4 * n, 16, 16⟩
/-- STITCH_MARKER.GEN (R206). -/
def fld_STITCH_MARKER_GEN (n : Nat) : Fld := ⟨0x104000 + 4 * n, 4, 12⟩
/-- STITCH_MARKER.HOLD (R206). -/
def fld_STITCH_MARKER_HOLD (n : Nat) : Fld := ⟨0x104000 + 4 * n, 2, 2⟩
/-- STITCH_MARKER.STATE (R206). -/
def fld_STITCH_MARKER_STATE (n : Nat) : Fld := ⟨0x104000 + 4 * n, 0, 2⟩
/-- GRAPH_CFG (R234). -/
def reg_GRAPH_CFG (n : Nat) : Nat := 0x108000 + 0x40 * n
/-- GRAPH_CFG.NODES (R234). -/
def fld_GRAPH_CFG_NODES (n : Nat) : Fld := ⟨0x108000 + 0x40 * n, 8, 6⟩
/-- GRAPH_CFG.SRC (R234). -/
def fld_GRAPH_CFG_SRC (n : Nat) : Fld := ⟨0x108000 + 0x40 * n, 4, 4⟩
/-- GRAPH_CFG.TRIG (R234). -/
def fld_GRAPH_CFG_TRIG (n : Nat) : Fld := ⟨0x108000 + 0x40 * n, 1, 2⟩
/-- GRAPH_CFG.ENABLE (R234). -/
def fld_GRAPH_CFG_ENABLE (n : Nat) : Fld := ⟨0x108000 + 0x40 * n, 0, 1⟩
/-- GRAPH_STATUS (R234). -/
def reg_GRAPH_STATUS (n : Nat) : Nat := 0x108004 + 0x40 * n
/-- GRAPH_STATUS.STALE (R234). -/
def fld_GRAPH_STATUS_STALE (n : Nat) : Fld := ⟨0x108004 + 0x40 * n, 4, 1⟩
/-- GRAPH_STATUS.DROP (R234). -/
def fld_GRAPH_STATUS_DROP (n : Nat) : Fld := ⟨0x108004 + 0x40 * n, 3, 1⟩
/-- GRAPH_STATUS.NODE_FAIL (R234). -/
def fld_GRAPH_STATUS_NODE_FAIL (n : Nat) : Fld := ⟨0x108004 + 0x40 * n, 2, 1⟩
/-- GRAPH_STATUS.CFG_ERR (R234). -/
def fld_GRAPH_STATUS_CFG_ERR (n : Nat) : Fld := ⟨0x108004 + 0x40 * n, 1, 1⟩
/-- GRAPH_STATUS.RUNNING (R234). -/
def fld_GRAPH_STATUS_RUNNING (n : Nat) : Fld := ⟨0x108004 + 0x40 * n, 0, 1⟩
/-- GRAPH_ACT (R234). -/
def reg_GRAPH_ACT (n : Nat) : Nat := 0x108008 + 0x40 * n
/-- GRAPH_ACT.ACTIVATIONS (R234). -/
def fld_GRAPH_ACT_ACTIVATIONS (n : Nat) : Fld := ⟨0x108008 + 0x40 * n, 0, 32⟩
/-- GRAPH_LOSS (R234). -/
def reg_GRAPH_LOSS (n : Nat) : Nat := 0x10800c + 0x40 * n
/-- GRAPH_LOSS.DROPPED (R234). -/
def fld_GRAPH_LOSS_DROPPED (n : Nat) : Fld := ⟨0x10800c + 0x40 * n, 0, 16⟩
/-- GRAPH_LOSS.NOT_RUN (R234). -/
def fld_GRAPH_LOSS_NOT_RUN (n : Nat) : Fld := ⟨0x10800c + 0x40 * n, 16, 16⟩
/-- GRAPH_NODES (R234). -/
def reg_GRAPH_NODES (n : Nat) : Nat := 0x108010 + 0x40 * n
/-- GRAPH_NODES.SKIPPED (R234). -/
def fld_GRAPH_NODES_SKIPPED (n : Nat) : Fld := ⟨0x108010 + 0x40 * n, 0, 16⟩
/-- GRAPH_NODES.FAILED (R234). -/
def fld_GRAPH_NODES_FAILED (n : Nat) : Fld := ⟨0x108010 + 0x40 * n, 16, 16⟩
/-- GRAPH_WORST (R234). -/
def reg_GRAPH_WORST (n : Nat) : Nat := 0x108014 + 0x40 * n
/-- GRAPH_WORST.WORST_US (R234). -/
def fld_GRAPH_WORST_WORST_US (n : Nat) : Fld := ⟨0x108014 + 0x40 * n, 0, 20⟩
/-- GRAPH_LAST (R234). -/
def reg_GRAPH_LAST (n : Nat) : Nat := 0x108018 + 0x40 * n
/-- GRAPH_LAST.NODE (R234). -/
def fld_GRAPH_LAST_NODE (n : Nat) : Fld := ⟨0x108018 + 0x40 * n, 0, 6⟩
/-- GRAPH_LAST.CODE (R234). -/
def fld_GRAPH_LAST_CODE (n : Nat) : Fld := ⟨0x108018 + 0x40 * n, 8, 4⟩
/-- ENG_JOBS (R235). -/
def reg_ENG_JOBS (n : Nat) : Nat := 0x108400 + 8 * n
/-- ENG_JOBS.JOBS (R235). -/
def fld_ENG_JOBS_JOBS (n : Nat) : Fld := ⟨0x108400 + 8 * n, 0, 32⟩
/-- ENG_BUSY (R235). -/
def reg_ENG_BUSY (n : Nat) : Nat := 0x108404 + 8 * n
/-- ENG_BUSY.BUSY_US (R235). -/
def fld_ENG_BUSY_BUSY_US (n : Nat) : Fld := ⟨0x108404 + 8 * n, 0, 32⟩
/-- VER_STATUS (R236). -/
def reg_VER_STATUS : Nat := 0x108500
/-- VER_STATUS.QUEUED (R236). -/
def fld_VER_STATUS_QUEUED : Fld := ⟨0x108500, 0, 7⟩
/-- VER_STATUS.BUSY (R236). -/
def fld_VER_STATUS_BUSY : Fld := ⟨0x108500, 8, 1⟩
/-- VER_RESULTS (R236). -/
def reg_VER_RESULTS : Nat := 0x108504
/-- VER_RESULTS.ACCEPTED (R236). -/
def fld_VER_RESULTS_ACCEPTED : Fld := ⟨0x108504, 0, 16⟩
/-- VER_RESULTS.REJECTED (R236). -/
def fld_VER_RESULTS_REJECTED : Fld := ⟨0x108504, 16, 16⟩
/-- VER_LOSS (R236). -/
def reg_VER_LOSS : Nat := 0x108508
/-- VER_LOSS.REFUSED (R236). -/
def fld_VER_LOSS_REFUSED : Fld := ⟨0x108508, 0, 16⟩
/-- VER_LOSS.DEADLINE (R236). -/
def fld_VER_LOSS_DEADLINE : Fld := ⟨0x108508, 16, 16⟩
/-- FG_TABLE_STATUS (R236). -/
def reg_FG_TABLE_STATUS : Nat := 0x108600
/-- FG_TABLE_STATUS.BUF_ERR (R236). -/
def fld_FG_TABLE_STATUS_BUF_ERR : Fld := ⟨0x108600, 0, 1⟩
/-- FG_TABLE_STATUS.MARKER_ERR (R236). -/
def fld_FG_TABLE_STATUS_MARKER_ERR : Fld := ⟨0x108600, 1, 1⟩
/-- FG_TABLE_STATUS.FIRST_BAD (R236). -/
def fld_FG_TABLE_STATUS_FIRST_BAD : Fld := ⟨0x108600, 16, 12⟩
/-- SGM_STATUS (R254). -/
def reg_SGM_STATUS (n : Nat) : Nat := 0x10c000 + 0x40 * n
/-- SGM_STATUS.LAST_CODE (R254). -/
def fld_SGM_STATUS_LAST_CODE (n : Nat) : Fld := ⟨0x10c000 + 0x40 * n, 16, 4⟩
/-- SGM_STATUS.NODE (R254). -/
def fld_SGM_STATUS_NODE (n : Nat) : Fld := ⟨0x10c000 + 0x40 * n, 8, 6⟩
/-- SGM_STATUS.GRAPH (R254). -/
def fld_SGM_STATUS_GRAPH (n : Nat) : Fld := ⟨0x10c000 + 0x40 * n, 4, 3⟩
/-- SGM_STATUS.BUSY (R254). -/
def fld_SGM_STATUS_BUSY (n : Nat) : Fld := ⟨0x10c000 + 0x40 * n, 0, 1⟩
/-- SGM_JOBS (R254). -/
def reg_SGM_JOBS (n : Nat) : Nat := 0x10c004 + 0x40 * n
/-- SGM_JOBS.JOBS (R254). -/
def fld_SGM_JOBS_JOBS (n : Nat) : Fld := ⟨0x10c004 + 0x40 * n, 0, 32⟩
/-- SGM_BUSY (R254). -/
def reg_SGM_BUSY (n : Nat) : Nat := 0x10c008 + 0x40 * n
/-- SGM_BUSY.BUSY_US (R254). -/
def fld_SGM_BUSY_BUSY_US (n : Nat) : Fld := ⟨0x10c008 + 0x40 * n, 0, 32⟩
/-- SGM_WORST (R254). -/
def reg_SGM_WORST (n : Nat) : Nat := 0x10c00c + 0x40 * n
/-- SGM_WORST.WORST_US (R254). -/
def fld_SGM_WORST_WORST_US (n : Nat) : Fld := ⟨0x10c00c + 0x40 * n, 0, 24⟩
/-- SGM_LAST_A (R254). -/
def reg_SGM_LAST_A (n : Nat) : Nat := 0x10c010 + 0x40 * n
/-- SGM_LAST_A.LOW_TEX (R254). -/
def fld_SGM_LAST_A_LOW_TEX (n : Nat) : Fld := ⟨0x10c010 + 0x40 * n, 0, 11⟩
/-- SGM_LAST_A.OCCL (R254). -/
def fld_SGM_LAST_A_OCCL (n : Nat) : Fld := ⟨0x10c010 + 0x40 * n, 16, 11⟩
/-- SGM_LAST_B (R254). -/
def reg_SGM_LAST_B (n : Nat) : Nat := 0x10c014 + 0x40 * n
/-- SGM_LAST_B.RANGE (R254). -/
def fld_SGM_LAST_B_RANGE (n : Nat) : Fld := ⟨0x10c014 + 0x40 * n, 0, 11⟩
/-- SGM_LAST_B.SAT (R254). -/
def fld_SGM_LAST_B_SAT (n : Nat) : Fld := ⟨0x10c014 + 0x40 * n, 16, 11⟩
/-- NE_CORE_STATUS (R294). -/
def reg_NE_CORE_STATUS (n : Nat) : Nat := 0x200000 + 0x10000 * n
/-- NE_CORE_STATUS.STEP (R294). -/
def fld_NE_CORE_STATUS_STEP (n : Nat) : Fld := ⟨0x200000 + 0x10000 * n, 12, 10⟩
/-- NE_CORE_STATUS.PROGRAM (R294). -/
def fld_NE_CORE_STATUS_PROGRAM (n : Nat) : Fld := ⟨0x200000 + 0x10000 * n, 4, 8⟩
/-- NE_CORE_STATUS.WAIT_W (R294). -/
def fld_NE_CORE_STATUS_WAIT_W (n : Nat) : Fld := ⟨0x200000 + 0x10000 * n, 1, 1⟩
/-- NE_CORE_STATUS.BUSY (R294). -/
def fld_NE_CORE_STATUS_BUSY (n : Nat) : Fld := ⟨0x200000 + 0x10000 * n, 0, 1⟩
/-- NE_CORE_BUSY (R295). -/
def reg_NE_CORE_BUSY (n : Nat) : Nat := 0x200004 + 0x10000 * n
/-- NE_CORE_BUSY.BUSY_US (R295). -/
def fld_NE_CORE_BUSY_BUSY_US (n : Nat) : Fld := ⟨0x200004 + 0x10000 * n, 0, 32⟩
/-- NE_CORE_MACS_LO (R295). -/
def reg_NE_CORE_MACS_LO (n : Nat) : Nat := 0x200008 + 0x10000 * n
/-- NE_CORE_MACS_LO.MACS (R295). -/
def fld_NE_CORE_MACS_LO_MACS (n : Nat) : Fld := ⟨0x200008 + 0x10000 * n, 0, 32⟩
/-- NE_CORE_MACS_HI (R295). -/
def reg_NE_CORE_MACS_HI (n : Nat) : Nat := 0x20000c + 0x10000 * n
/-- NE_CORE_MACS_HI.MACS (R295). -/
def fld_NE_CORE_MACS_HI_MACS (n : Nat) : Fld := ⟨0x20000c + 0x10000 * n, 0, 32⟩
/-- NE_CORE_WBYTES_LO (R295). -/
def reg_NE_CORE_WBYTES_LO (n : Nat) : Nat := 0x200010 + 0x10000 * n
/-- NE_CORE_WBYTES_LO.WBYTES (R295). -/
def fld_NE_CORE_WBYTES_LO_WBYTES (n : Nat) : Fld := ⟨0x200010 + 0x10000 * n, 0, 32⟩
/-- NE_CORE_WBYTES_HI (R295). -/
def reg_NE_CORE_WBYTES_HI (n : Nat) : Nat := 0x200014 + 0x10000 * n
/-- NE_CORE_WBYTES_HI.WBYTES (R295). -/
def fld_NE_CORE_WBYTES_HI_WBYTES (n : Nat) : Fld := ⟨0x200014 + 0x10000 * n, 0, 32⟩
/-- NE_CORE_NUM (R295). -/
def reg_NE_CORE_NUM (n : Nat) : Nat := 0x200018 + 0x10000 * n
/-- NE_CORE_NUM.NAN_OUT (R295). -/
def fld_NE_CORE_NUM_NAN_OUT (n : Nat) : Fld := ⟨0x200018 + 0x10000 * n, 0, 16⟩
/-- NE_CORE_NUM.GEOM_NAN (R295). -/
def fld_NE_CORE_NUM_GEOM_NAN (n : Nat) : Fld := ⟨0x200018 + 0x10000 * n, 16, 16⟩
/-- NE_CORE_ERR (R295). -/
def reg_NE_CORE_ERR (n : Nat) : Nat := 0x20001c + 0x10000 * n
/-- NE_CORE_ERR.ENGINE_ERR (R295). -/
def fld_NE_CORE_ERR_ENGINE_ERR (n : Nat) : Fld := ⟨0x20001c + 0x10000 * n, 0, 16⟩
/-- NE_CORE_ERR.PARTNER_RESET (R295). -/
def fld_NE_CORE_ERR_PARTNER_RESET (n : Nat) : Fld := ⟨0x20001c + 0x10000 * n, 16, 16⟩
/-- NE_CTRL (R296). -/
def reg_NE_CTRL : Nat := 0x208000
/-- NE_CTRL.WS_BUDGET_GBS (R296). -/
def fld_NE_CTRL_WS_BUDGET_GBS : Fld := ⟨0x208000, 0, 7⟩
/-- NE_STATUS (R297). -/
def reg_NE_STATUS : Nat := 0x208004
/-- NE_STATUS.CORES_BUSY (R297). -/
def fld_NE_STATUS_CORES_BUSY : Fld := ⟨0x208004, 16, 16⟩
/-- NE_STATUS.RUNNING (R297). -/
def fld_NE_STATUS_RUNNING : Fld := ⟨0x208004, 8, 5⟩
/-- NE_STATUS.QUEUED (R297). -/
def fld_NE_STATUS_QUEUED : Fld := ⟨0x208004, 0, 7⟩
/-- NE_REQ_DONE (R298). -/
def reg_NE_REQ_DONE : Nat := 0x208008
/-- NE_REQ_DONE.DONE (R298). -/
def fld_NE_REQ_DONE_DONE : Fld := ⟨0x208008, 0, 32⟩
/-- NE_REQ_LOSS (R298). -/
def reg_NE_REQ_LOSS : Nat := 0x20800c
/-- NE_REQ_LOSS.REFUSED (R298). -/
def fld_NE_REQ_LOSS_REFUSED : Fld := ⟨0x20800c, 0, 16⟩
/-- NE_REQ_LOSS.DROPPED (R298). -/
def fld_NE_REQ_LOSS_DROPPED : Fld := ⟨0x20800c, 16, 16⟩
/-- NE_REFUSE_LAST (R298). -/
def reg_NE_REFUSE_LAST : Nat := 0x208010
/-- NE_REFUSE_LAST.CAUSE (R298). -/
def fld_NE_REFUSE_LAST_CAUSE : Fld := ⟨0x208010, 0, 2⟩
/-- NE_REFUSE_LAST.PROGRAM (R298). -/
def fld_NE_REFUSE_LAST_PROGRAM : Fld := ⟨0x208010, 8, 8⟩
/-- NE_REFUSE_LAST.GRAPH (R298). -/
def fld_NE_REFUSE_LAST_GRAPH : Fld := ⟨0x208010, 16, 3⟩
/-- NE_REFUSE_LAST.NODE (R298). -/
def fld_NE_REFUSE_LAST_NODE : Fld := ⟨0x208010, 24, 6⟩
/-- NE_WS_STALL (R298). -/
def reg_NE_WS_STALL : Nat := 0x208014
/-- NE_WS_STALL.STALL_US (R298). -/
def fld_NE_WS_STALL_STALL_US : Fld := ⟨0x208014, 0, 32⟩
/-- NE_PROG_STATUS (R299). -/
def reg_NE_PROG_STATUS : Nat := 0x208020
/-- NE_PROG_STATUS.REASON (R299). -/
def fld_NE_PROG_STATUS_REASON : Fld := ⟨0x208020, 28, 3⟩
/-- NE_PROG_STATUS.FIRST_STEP (R299). -/
def fld_NE_PROG_STATUS_FIRST_STEP : Fld := ⟨0x208020, 16, 10⟩
/-- NE_PROG_STATUS.FIRST_PROG (R299). -/
def fld_NE_PROG_STATUS_FIRST_PROG : Fld := ⟨0x208020, 8, 8⟩
/-- NE_PROG_STATUS.BAD (R299). -/
def fld_NE_PROG_STATUS_BAD : Fld := ⟨0x208020, 0, 1⟩
/-- NE_PROG_VALID (R299). -/
def reg_NE_PROG_VALID (n : Nat) : Nat := 0x208040 + 4 * n
/-- NE_PROG_VALID.BITS (R299). -/
def fld_NE_PROG_VALID_BITS (n : Nat) : Fld := ⟨0x208040 + 4 * n, 0, 32⟩
/-- TF_STATUS (R366). -/
def reg_TF_STATUS : Nat := 0x300004
/-- TF_STATUS.GAP (R366). -/
def fld_TF_STATUS_GAP : Fld := ⟨0x300004, 5, 1⟩
/-- TF_STATUS.CFG_ERR (R366). -/
def fld_TF_STATUS_CFG_ERR : Fld := ⟨0x300004, 4, 1⟩
/-- TF_STATUS.POSE_VALID (R366). -/
def fld_TF_STATUS_POSE_VALID : Fld := ⟨0x300004, 3, 1⟩
/-- TF_STATUS.PROP_VALID (R366). -/
def fld_TF_STATUS_PROP_VALID : Fld := ⟨0x300004, 2, 1⟩
/-- TF_STATUS.PROP_IMU (R366). -/
def fld_TF_STATUS_PROP_IMU : Fld := ⟨0x300004, 0, 2⟩
/-- TF_CFG_STATUS (R367). -/
def reg_TF_CFG_STATUS : Nat := 0x300008
/-- TF_CFG_STATUS.OBJECT (R367). -/
def fld_TF_CFG_STATUS_OBJECT : Fld := ⟨0x300008, 0, 4⟩
/-- TF_CFG_STATUS.INDEX (R367). -/
def fld_TF_CFG_STATUS_INDEX : Fld := ⟨0x300008, 8, 8⟩
/-- TF_LATE_COUNT_0 (R367). -/
def reg_TF_LATE_COUNT_0 : Nat := 0x300010
/-- TF_LATE_COUNT_0.IMU (R367). -/
def fld_TF_LATE_COUNT_0_IMU : Fld := ⟨0x300010, 0, 16⟩
/-- TF_LATE_COUNT_0.JOINT (R367). -/
def fld_TF_LATE_COUNT_0_JOINT : Fld := ⟨0x300010, 16, 16⟩
/-- TF_LATE_COUNT_1 (R367). -/
def reg_TF_LATE_COUNT_1 : Nat := 0x300014
/-- TF_LATE_COUNT_1.FEATURE (R367). -/
def fld_TF_LATE_COUNT_1_FEATURE : Fld := ⟨0x300014, 0, 16⟩
/-- TF_LATE_COUNT_1.OBJECT (R367). -/
def fld_TF_LATE_COUNT_1_OBJECT : Fld := ⟨0x300014, 16, 16⟩
/-- TF_JOINT_CFG (R367). -/
def reg_TF_JOINT_CFG : Nat := 0x300018
/-- TF_JOINT_CFG.JOINT_LAT_NS (R367). -/
def fld_TF_JOINT_CFG_JOINT_LAT_NS : Fld := ⟨0x300018, 0, 16⟩
/-- TF_JOINT_CFG.STALE_US (R367). -/
def fld_TF_JOINT_CFG_STALE_US : Fld := ⟨0x300018, 16, 16⟩
/-- TF_JOINT_COUNTS (R367). -/
def reg_TF_JOINT_COUNTS : Nat := 0x30001c
/-- TF_JOINT_COUNTS.BAD (R367). -/
def fld_TF_JOINT_COUNTS_BAD : Fld := ⟨0x30001c, 0, 10⟩
/-- TF_JOINT_COUNTS.REPEAT (R367). -/
def fld_TF_JOINT_COUNTS_REPEAT : Fld := ⟨0x30001c, 10, 10⟩
/-- TF_JOINT_COUNTS.SKIP (R367). -/
def fld_TF_JOINT_COUNTS_SKIP : Fld := ⟨0x30001c, 20, 10⟩
/-- TF_CONS_DROP (R367). -/
def reg_TF_CONS_DROP : Nat := 0x300020
/-- TF_CONS_DROP.FEATURE (R367). -/
def fld_TF_CONS_DROP_FEATURE : Fld := ⟨0x300020, 0, 16⟩
/-- TF_CONS_DROP.OBJECT (R367). -/
def fld_TF_CONS_DROP_OBJECT : Fld := ⟨0x300020, 16, 16⟩
/-- TF_JOINT_TIME (R367). -/
def reg_TF_JOINT_TIME : Nat := 0x300024
/-- TF_JOINT_TIME.BAD_TIME (R367). -/
def fld_TF_JOINT_TIME_BAD_TIME : Fld := ⟨0x300024, 0, 16⟩
/-- TF_JOINT_TIME.ORDER (R367). -/
def fld_TF_JOINT_TIME_ORDER : Fld := ⟨0x300024, 16, 16⟩
/-- IMU_STATUS (R368). -/
def reg_IMU_STATUS (n : Nat) : Nat := 0x300100 + 0x10 * n
/-- IMU_STATUS.RATE_HZ (R368). -/
def fld_IMU_STATUS_RATE_HZ (n : Nat) : Fld := ⟨0x300100 + 0x10 * n, 16, 16⟩
/-- IMU_STATUS.PROPAGATING (R368). -/
def fld_IMU_STATUS_PROPAGATING (n : Nat) : Fld := ⟨0x300100 + 0x10 * n, 2, 1⟩
/-- IMU_STATUS.GAPPED (R368). -/
def fld_IMU_STATUS_GAPPED (n : Nat) : Fld := ⟨0x300100 + 0x10 * n, 1, 1⟩
/-- IMU_STATUS.ENABLED (R368). -/
def fld_IMU_STATUS_ENABLED (n : Nat) : Fld := ⟨0x300100 + 0x10 * n, 0, 1⟩
/-- IMU_SAMPLES (R368). -/
def reg_IMU_SAMPLES (n : Nat) : Nat := 0x300104 + 0x10 * n
/-- IMU_SAMPLES.SAMPLES (R368). -/
def fld_IMU_SAMPLES_SAMPLES (n : Nat) : Fld := ⟨0x300104 + 0x10 * n, 0, 32⟩
/-- IMU_ERR (R368). -/
def reg_IMU_ERR (n : Nat) : Nat := 0x300108 + 0x10 * n
/-- IMU_ERR.ORDER (R368). -/
def fld_IMU_ERR_ORDER (n : Nat) : Fld := ⟨0x300108 + 0x10 * n, 0, 16⟩
/-- IMU_ERR.BAD_TIME (R368). -/
def fld_IMU_ERR_BAD_TIME (n : Nat) : Fld := ⟨0x300108 + 0x10 * n, 16, 16⟩
/-- FT_USE (R369). -/
def reg_FT_USE : Nat := 0x300200
/-- FT_USE.ACTIVE (R369). -/
def fld_FT_USE_ACTIVE : Fld := ⟨0x300200, 0, 17⟩
/-- FT_COUNTS (R369). -/
def reg_FT_COUNTS : Nat := 0x300204
/-- FT_COUNTS.BORN (R369). -/
def fld_FT_COUNTS_BORN : Fld := ⟨0x300204, 0, 32⟩
/-- FT_LOSS (R369). -/
def reg_FT_LOSS : Nat := 0x300208
/-- FT_LOSS.LOST (R369). -/
def fld_FT_LOSS_LOST : Fld := ⟨0x300208, 0, 16⟩
/-- FT_LOSS.FULL (R369). -/
def fld_FT_LOSS_FULL : Fld := ⟨0x300208, 16, 16⟩
/-- FT_STALE_ID (R369). -/
def reg_FT_STALE_ID : Nat := 0x30020c
/-- FT_STALE_ID.STALE_ID (R369). -/
def fld_FT_STALE_ID_STALE_ID : Fld := ⟨0x30020c, 0, 16⟩
/-- OT_CFG_0 (R370). -/
def reg_OT_CFG_0 : Nat := 0x300300
/-- OT_CFG_0.MAX_COAST (R370). -/
def fld_OT_CFG_0_MAX_COAST : Fld := ⟨0x300300, 24, 8⟩
/-- OT_CFG_0.CONFIRM (R370). -/
def fld_OT_CFG_0_CONFIRM : Fld := ⟨0x300300, 16, 4⟩
/-- OT_CFG_0.BIRTH_SCORE (R370). -/
def fld_OT_CFG_0_BIRTH_SCORE : Fld := ⟨0x300300, 8, 8⟩
/-- OT_CFG_0.GATE (R370). -/
def fld_OT_CFG_0_GATE : Fld := ⟨0x300300, 0, 8⟩
/-- OT_CFG_1 (R370). -/
def reg_OT_CFG_1 : Nat := 0x300304
/-- OT_CFG_1.VEL_SIGMA0 (R370). -/
def fld_OT_CFG_1_VEL_SIGMA0 : Fld := ⟨0x300304, 24, 8⟩
/-- OT_CFG_1.ACC_SIGMA (R370). -/
def fld_OT_CFG_1_ACC_SIGMA : Fld := ⟨0x300304, 16, 8⟩
/-- OT_CFG_1.RANGE_REL (R370). -/
def fld_OT_CFG_1_RANGE_REL : Fld := ⟨0x300304, 8, 8⟩
/-- OT_CFG_1.PIX_SIGMA (R370). -/
def fld_OT_CFG_1_PIX_SIGMA : Fld := ⟨0x300304, 0, 8⟩
/-- OT_STATUS (R371). -/
def reg_OT_STATUS : Nat := 0x300308
/-- OT_STATUS.CONFIRMED (R371). -/
def fld_OT_STATUS_CONFIRMED : Fld := ⟨0x300308, 0, 11⟩
/-- OT_STATUS.USED (R371). -/
def fld_OT_STATUS_USED : Fld := ⟨0x300308, 16, 11⟩
/-- OT_COUNTS (R371). -/
def reg_OT_COUNTS : Nat := 0x30030c
/-- OT_COUNTS.BORN (R371). -/
def fld_OT_COUNTS_BORN : Fld := ⟨0x30030c, 0, 16⟩
/-- OT_COUNTS.FREED (R371). -/
def fld_OT_COUNTS_FREED : Fld := ⟨0x30030c, 16, 16⟩
/-- OT_LOSS (R371). -/
def reg_OT_LOSS : Nat := 0x300310
/-- OT_LOSS.TRUNC (R371). -/
def fld_OT_LOSS_TRUNC : Fld := ⟨0x300310, 0, 16⟩
/-- OT_LOSS.NO_DEPTH (R371). -/
def fld_OT_LOSS_NO_DEPTH : Fld := ⟨0x300310, 16, 16⟩
/-- OT_LOSS_OLD (R371). -/
def reg_OT_LOSS_OLD : Nat := 0x300314
/-- OT_LOSS_OLD.OLD (R371). -/
def fld_OT_LOSS_OLD_OLD : Fld := ⟨0x300314, 0, 16⟩
/-- OT_WORST (R371). -/
def reg_OT_WORST : Nat := 0x300318
/-- OT_WORST.WORST_US (R371). -/
def fld_OT_WORST_WORST_US : Fld := ⟨0x300318, 0, 20⟩
/-- SOLV_CFG (R411). -/
def reg_SOLV_CFG (n : Nat) : Nat := 0x400000 + 0x1000 * n
/-- SOLV_CFG.PIVOT_EXP (R411). -/
def fld_SOLV_CFG_PIVOT_EXP (n : Nat) : Fld := ⟨0x400000 + 0x1000 * n, 24, 6⟩
/-- SOLV_CFG.CHECK_EXP (R411). -/
def fld_SOLV_CFG_CHECK_EXP (n : Nat) : Fld := ⟨0x400000 + 0x1000 * n, 16, 5⟩
/-- SOLV_CFG.REFINE_EXP (R411). -/
def fld_SOLV_CFG_REFINE_EXP (n : Nat) : Fld := ⟨0x400000 + 0x1000 * n, 8, 5⟩
/-- SOLV_CFG.PROOF_EXP (R411). -/
def fld_SOLV_CFG_PROOF_EXP (n : Nat) : Fld := ⟨0x400000 + 0x1000 * n, 3, 5⟩
/-- SOLV_CFG.REFINE_MAX (R411). -/
def fld_SOLV_CFG_REFINE_MAX (n : Nat) : Fld := ⟨0x400000 + 0x1000 * n, 0, 3⟩
/-- SOLV_STATUS (R412). -/
def reg_SOLV_STATUS (n : Nat) : Nat := 0x400004 + 0x1000 * n
/-- SOLV_STATUS.QUEUED (R412). -/
def fld_SOLV_STATUS_QUEUED (n : Nat) : Fld := ⟨0x400004 + 0x1000 * n, 16, 5⟩
/-- SOLV_STATUS.SLOT (R412). -/
def fld_SOLV_STATUS_SLOT (n : Nat) : Fld := ⟨0x400004 + 0x1000 * n, 8, 3⟩
/-- SOLV_STATUS.PHASE (R412). -/
def fld_SOLV_STATUS_PHASE (n : Nat) : Fld := ⟨0x400004 + 0x1000 * n, 4, 3⟩
/-- SOLV_STATUS.SUSPENDED (R412). -/
def fld_SOLV_STATUS_SUSPENDED (n : Nat) : Fld := ⟨0x400004 + 0x1000 * n, 3, 1⟩
/-- SOLV_STATUS.CLASS_A (R412). -/
def fld_SOLV_STATUS_CLASS_A (n : Nat) : Fld := ⟨0x400004 + 0x1000 * n, 2, 1⟩
/-- SOLV_STATUS.LOADING (R412). -/
def fld_SOLV_STATUS_LOADING (n : Nat) : Fld := ⟨0x400004 + 0x1000 * n, 1, 1⟩
/-- SOLV_STATUS.BUSY (R412). -/
def fld_SOLV_STATUS_BUSY (n : Nat) : Fld := ⟨0x400004 + 0x1000 * n, 0, 1⟩
/-- SOLV_CODES_0 (R413). -/
def reg_SOLV_CODES_0 (n : Nat) : Nat := 0x400008 + 0x1000 * n
/-- SOLV_CODES_0.SOLVED (R413). -/
def fld_SOLV_CODES_0_SOLVED (n : Nat) : Fld := ⟨0x400008 + 0x1000 * n, 0, 16⟩
/-- SOLV_CODES_0.SOLVED_INACCURATE (R413). -/
def fld_SOLV_CODES_0_SOLVED_INACCURATE (n : Nat) : Fld := ⟨0x400008 + 0x1000 * n, 16, 16⟩
/-- SOLV_CODES_1 (R413). -/
def reg_SOLV_CODES_1 (n : Nat) : Nat := 0x40000c + 0x1000 * n
/-- SOLV_CODES_1.DEADLINE_ITER (R413). -/
def fld_SOLV_CODES_1_DEADLINE_ITER (n : Nat) : Fld := ⟨0x40000c + 0x1000 * n, 0, 16⟩
/-- SOLV_CODES_1.DEADLINE_FACT (R413). -/
def fld_SOLV_CODES_1_DEADLINE_FACT (n : Nat) : Fld := ⟨0x40000c + 0x1000 * n, 16, 16⟩
/-- SOLV_CODES_2 (R413). -/
def reg_SOLV_CODES_2 (n : Nat) : Nat := 0x400010 + 0x1000 * n
/-- SOLV_CODES_2.WARM_REJECT (R413). -/
def fld_SOLV_CODES_2_WARM_REJECT (n : Nat) : Fld := ⟨0x400010 + 0x1000 * n, 0, 16⟩
/-- SOLV_CODES_2.INFEASIBLE (R413). -/
def fld_SOLV_CODES_2_INFEASIBLE (n : Nat) : Fld := ⟨0x400010 + 0x1000 * n, 16, 16⟩
/-- SOLV_CODES_3 (R413). -/
def reg_SOLV_CODES_3 (n : Nat) : Nat := 0x400014 + 0x1000 * n
/-- SOLV_CODES_3.NUMERIC (R413). -/
def fld_SOLV_CODES_3_NUMERIC (n : Nat) : Fld := ⟨0x400014 + 0x1000 * n, 0, 16⟩
/-- SOLV_CODES_3.MISMATCH (R413). -/
def fld_SOLV_CODES_3_MISMATCH (n : Nat) : Fld := ⟨0x400014 + 0x1000 * n, 16, 16⟩
/-- SOLV_ERR (R413). -/
def reg_SOLV_ERR (n : Nat) : Nat := 0x400018 + 0x1000 * n
/-- SOLV_ERR.ENTRY_SKIPPED (R413). -/
def fld_SOLV_ERR_ENTRY_SKIPPED (n : Nat) : Fld := ⟨0x400018 + 0x1000 * n, 0, 16⟩
/-- SOLV_ERR.CHECK_FAIL (R413). -/
def fld_SOLV_ERR_CHECK_FAIL (n : Nat) : Fld := ⟨0x400018 + 0x1000 * n, 16, 16⟩
/-- SOLV_QUEUE (R413). -/
def reg_SOLV_QUEUE (n : Nat) : Nat := 0x40001c + 0x1000 * n
/-- SOLV_QUEUE.REFUSED (R413). -/
def fld_SOLV_QUEUE_REFUSED (n : Nat) : Fld := ⟨0x40001c + 0x1000 * n, 0, 16⟩
/-- SOLV_QUEUE.SUSPENDS (R413). -/
def fld_SOLV_QUEUE_SUSPENDS (n : Nat) : Fld := ⟨0x40001c + 0x1000 * n, 16, 16⟩
/-- SOLV_WARM (R413). -/
def reg_SOLV_WARM (n : Nat) : Nat := 0x400020 + 0x1000 * n
/-- SOLV_WARM.WARM_USED (R413). -/
def fld_SOLV_WARM_WARM_USED (n : Nat) : Fld := ⟨0x400020 + 0x1000 * n, 0, 16⟩
/-- SOLV_WARM.WARM_REJECTED (R413). -/
def fld_SOLV_WARM_WARM_REJECTED (n : Nat) : Fld := ⟨0x400020 + 0x1000 * n, 16, 16⟩
/-- SOLV_BUSY (R413). -/
def reg_SOLV_BUSY (n : Nat) : Nat := 0x400024 + 0x1000 * n
/-- SOLV_BUSY.BUSY_US (R413). -/
def fld_SOLV_BUSY_BUSY_US (n : Nat) : Fld := ⟨0x400024 + 0x1000 * n, 0, 32⟩
/-- SOLV_WORST (R413). -/
def reg_SOLV_WORST (n : Nat) : Nat := 0x400028 + 0x1000 * n
/-- SOLV_WORST.WORST_US (R413). -/
def fld_SOLV_WORST_WORST_US (n : Nat) : Fld := ⟨0x400028 + 0x1000 * n, 0, 20⟩
/-- SOLV_A_CFG (R415). -/
def reg_SOLV_A_CFG : Nat := 0x400030
/-- SOLV_A_CFG.FEED (R415). -/
def fld_SOLV_A_CFG_FEED : Fld := ⟨0x400030, 4, 2⟩
/-- SOLV_A_CFG.SLOT (R415). -/
def fld_SOLV_A_CFG_SLOT : Fld := ⟨0x400030, 0, 3⟩
/-- SOLV_PAIR_STATUS (R415). -/
def reg_SOLV_PAIR_STATUS : Nat := 0x400034
/-- SOLV_PAIR_STATUS.MISMATCH (R415). -/
def fld_SOLV_PAIR_STATUS_MISMATCH : Fld := ⟨0x400034, 0, 1⟩
/-- SOLV_PAIR_LAST_LO (R415). -/
def reg_SOLV_PAIR_LAST_LO : Nat := 0x400038
/-- SOLV_PAIR_LAST_LO.PERIOD (R415). -/
def fld_SOLV_PAIR_LAST_LO_PERIOD : Fld := ⟨0x400038, 0, 32⟩
/-- SOLV_PAIR_LAST_HI (R415). -/
def reg_SOLV_PAIR_LAST_HI : Nat := 0x40003c
/-- SOLV_PAIR_LAST_HI.PERIOD (R415). -/
def fld_SOLV_PAIR_LAST_HI_PERIOD : Fld := ⟨0x40003c, 0, 32⟩
/-- SOLV_A_SCHED (R415). -/
def reg_SOLV_A_SCHED (n : Nat) : Nat := 0x400040 + 4 * n
/-- SOLV_A_SCHED.CYCLES (R415). -/
def fld_SOLV_A_SCHED_CYCLES (n : Nat) : Fld := ⟨0x400040 + 4 * n, 0, 24⟩
/-- SOLV_SLOT_0 (R414). -/
def reg_SOLV_SLOT_0 (n : Nat) : Nat := 0x400100 + 0x10 * n
/-- SOLV_SLOT_0.SUPERNODES (R414). -/
def fld_SOLV_SLOT_0_SUPERNODES (n : Nat) : Fld := ⟨0x400100 + 0x10 * n, 16, 16⟩
/-- SOLV_SLOT_0.KIND (R414). -/
def fld_SOLV_SLOT_0_KIND (n : Nat) : Fld := ⟨0x400100 + 0x10 * n, 8, 2⟩
/-- SOLV_SLOT_0.A_READY (R414). -/
def fld_SOLV_SLOT_0_A_READY (n : Nat) : Fld := ⟨0x400100 + 0x10 * n, 7, 1⟩
/-- SOLV_SLOT_0.PROVED (R414). -/
def fld_SOLV_SLOT_0_PROVED (n : Nat) : Fld := ⟨0x400100 + 0x10 * n, 6, 1⟩
/-- SOLV_SLOT_0.FACTOR (R414). -/
def fld_SOLV_SLOT_0_FACTOR (n : Nat) : Fld := ⟨0x400100 + 0x10 * n, 5, 1⟩
/-- SOLV_SLOT_0.RUNTIME (R414). -/
def fld_SOLV_SLOT_0_RUNTIME (n : Nat) : Fld := ⟨0x400100 + 0x10 * n, 4, 1⟩
/-- SOLV_SLOT_0.CODE (R414). -/
def fld_SOLV_SLOT_0_CODE (n : Nat) : Fld := ⟨0x400100 + 0x10 * n, 0, 4⟩
/-- SOLV_SIG_LO_0 (R414). -/
def reg_SOLV_SIG_LO_0 (n : Nat) : Nat := 0x400104 + 0x10 * n
/-- SOLV_SIG_LO_0.SIG (R414). -/
def fld_SOLV_SIG_LO_0_SIG (n : Nat) : Fld := ⟨0x400104 + 0x10 * n, 0, 32⟩
/-- SOLV_SIG_HI_0 (R414). -/
def reg_SOLV_SIG_HI_0 (n : Nat) : Nat := 0x400108 + 0x10 * n
/-- SOLV_SIG_HI_0.SIG (R414). -/
def fld_SOLV_SIG_HI_0_SIG (n : Nat) : Fld := ⟨0x400108 + 0x10 * n, 0, 32⟩
/-- SOLV_FOOT_0 (R414). -/
def reg_SOLV_FOOT_0 (n : Nat) : Nat := 0x40010c + 0x10 * n
/-- SOLV_FOOT_0.FOOT_KIB (R414). -/
def fld_SOLV_FOOT_0_FOOT_KIB (n : Nat) : Fld := ⟨0x40010c + 0x10 * n, 0, 15⟩
/-- SOLV_SLOT_1 (R414). -/
def reg_SOLV_SLOT_1 (n : Nat) : Nat := 0x401100 + 0x10 * n
/-- SOLV_SLOT_1.SUPERNODES (R414). -/
def fld_SOLV_SLOT_1_SUPERNODES (n : Nat) : Fld := ⟨0x401100 + 0x10 * n, 16, 16⟩
/-- SOLV_SLOT_1.KIND (R414). -/
def fld_SOLV_SLOT_1_KIND (n : Nat) : Fld := ⟨0x401100 + 0x10 * n, 8, 2⟩
/-- SOLV_SLOT_1.A_READY (R414). -/
def fld_SOLV_SLOT_1_A_READY (n : Nat) : Fld := ⟨0x401100 + 0x10 * n, 7, 1⟩
/-- SOLV_SLOT_1.PROVED (R414). -/
def fld_SOLV_SLOT_1_PROVED (n : Nat) : Fld := ⟨0x401100 + 0x10 * n, 6, 1⟩
/-- SOLV_SLOT_1.FACTOR (R414). -/
def fld_SOLV_SLOT_1_FACTOR (n : Nat) : Fld := ⟨0x401100 + 0x10 * n, 5, 1⟩
/-- SOLV_SLOT_1.RUNTIME (R414). -/
def fld_SOLV_SLOT_1_RUNTIME (n : Nat) : Fld := ⟨0x401100 + 0x10 * n, 4, 1⟩
/-- SOLV_SLOT_1.CODE (R414). -/
def fld_SOLV_SLOT_1_CODE (n : Nat) : Fld := ⟨0x401100 + 0x10 * n, 0, 4⟩
/-- SOLV_SIG_LO_1 (R414). -/
def reg_SOLV_SIG_LO_1 (n : Nat) : Nat := 0x401104 + 0x10 * n
/-- SOLV_SIG_LO_1.SIG (R414). -/
def fld_SOLV_SIG_LO_1_SIG (n : Nat) : Fld := ⟨0x401104 + 0x10 * n, 0, 32⟩
/-- SOLV_SIG_HI_1 (R414). -/
def reg_SOLV_SIG_HI_1 (n : Nat) : Nat := 0x401108 + 0x10 * n
/-- SOLV_SIG_HI_1.SIG (R414). -/
def fld_SOLV_SIG_HI_1_SIG (n : Nat) : Fld := ⟨0x401108 + 0x10 * n, 0, 32⟩
/-- SOLV_FOOT_1 (R414). -/
def reg_SOLV_FOOT_1 (n : Nat) : Nat := 0x40110c + 0x10 * n
/-- SOLV_FOOT_1.FOOT_KIB (R414). -/
def fld_SOLV_FOOT_1_FOOT_KIB (n : Nat) : Fld := ⟨0x40110c + 0x10 * n, 0, 15⟩
/-- SRCH_CFG (R472). -/
def reg_SRCH_CFG : Nat := 0x500000
/-- SRCH_CFG.RETRY_MAX (R472). -/
def fld_SRCH_CFG_RETRY_MAX : Fld := ⟨0x500000, 8, 4⟩
/-- SRCH_CFG.CQ_GBS (R472). -/
def fld_SRCH_CFG_CQ_GBS : Fld := ⟨0x500000, 0, 5⟩
/-- NAND_GEOM_0 (R473). -/
def reg_NAND_GEOM_0 : Nat := 0x500010
/-- NAND_GEOM_0.SPARE (R473). -/
def fld_NAND_GEOM_0_SPARE : Fld := ⟨0x500010, 24, 8⟩
/-- NAND_GEOM_0.PAGES (R473). -/
def fld_NAND_GEOM_0_PAGES : Fld := ⟨0x500010, 8, 12⟩
/-- NAND_GEOM_0.LUNS (R473). -/
def fld_NAND_GEOM_0_LUNS : Fld := ⟨0x500010, 3, 2⟩
/-- NAND_GEOM_0.TARGETS (R473). -/
def fld_NAND_GEOM_0_TARGETS : Fld := ⟨0x500010, 0, 3⟩
/-- NAND_GEOM_1 (R473). -/
def reg_NAND_GEOM_1 : Nat := 0x500014
/-- NAND_GEOM_1.BLOCKS (R473). -/
def fld_NAND_GEOM_1_BLOCKS : Fld := ⟨0x500014, 0, 16⟩
/-- NAND_GEOM_1.RATE (R473). -/
def fld_NAND_GEOM_1_RATE : Fld := ⟨0x500014, 16, 12⟩
/-- IDX_REG_A_FIRST (R474). -/
def reg_IDX_REG_A_FIRST (n : Nat) : Nat := 0x500100 + 0x40 * n
/-- IDX_REG_A_FIRST.V (R474). -/
def fld_IDX_REG_A_FIRST_V (n : Nat) : Fld := ⟨0x500100 + 0x40 * n, 0, 32⟩
/-- IDX_REG_A_BLOCKS (R474). -/
def reg_IDX_REG_A_BLOCKS (n : Nat) : Nat := 0x500104 + 0x40 * n
/-- IDX_REG_A_BLOCKS.V (R474). -/
def fld_IDX_REG_A_BLOCKS_V (n : Nat) : Fld := ⟨0x500104 + 0x40 * n, 0, 32⟩
/-- IDX_REG_B_FIRST (R474). -/
def reg_IDX_REG_B_FIRST (n : Nat) : Nat := 0x500108 + 0x40 * n
/-- IDX_REG_B_FIRST.V (R474). -/
def fld_IDX_REG_B_FIRST_V (n : Nat) : Fld := ⟨0x500108 + 0x40 * n, 0, 32⟩
/-- IDX_REG_B_BLOCKS (R474). -/
def reg_IDX_REG_B_BLOCKS (n : Nat) : Nat := 0x50010c + 0x40 * n
/-- IDX_REG_B_BLOCKS.V (R474). -/
def fld_IDX_REG_B_BLOCKS_V (n : Nat) : Fld := ⟨0x50010c + 0x40 * n, 0, 32⟩
/-- IDX_OBJ_A (R474). -/
def reg_IDX_OBJ_A (n : Nat) : Nat := 0x500110 + 0x40 * n
/-- IDX_OBJ_A.V (R474). -/
def fld_IDX_OBJ_A_V (n : Nat) : Fld := ⟨0x500110 + 0x40 * n, 0, 32⟩
/-- IDX_OBJ_B (R474). -/
def reg_IDX_OBJ_B (n : Nat) : Nat := 0x500114 + 0x40 * n
/-- IDX_OBJ_B.V (R474). -/
def fld_IDX_OBJ_B_V (n : Nat) : Fld := ⟨0x500114 + 0x40 * n, 0, 32⟩
/-- IDX_STATUS (R474). -/
def reg_IDX_STATUS (n : Nat) : Nat := 0x500118 + 0x40 * n
/-- IDX_STATUS.COMMIT_B (R474). -/
def fld_IDX_STATUS_COMMIT_B (n : Nat) : Fld := ⟨0x500118 + 0x40 * n, 5, 1⟩
/-- IDX_STATUS.COMMIT_A (R474). -/
def fld_IDX_STATUS_COMMIT_A (n : Nat) : Fld := ⟨0x500118 + 0x40 * n, 4, 1⟩
/-- IDX_STATUS.ACTIVE (R474). -/
def fld_IDX_STATUS_ACTIVE (n : Nat) : Fld := ⟨0x500118 + 0x40 * n, 3, 1⟩
/-- IDX_STATUS.NO_EPOCH (R474). -/
def fld_IDX_STATUS_NO_EPOCH (n : Nat) : Fld := ⟨0x500118 + 0x40 * n, 2, 1⟩
/-- IDX_STATUS.CFG_ERR (R474). -/
def fld_IDX_STATUS_CFG_ERR (n : Nat) : Fld := ⟨0x500118 + 0x40 * n, 1, 1⟩
/-- IDX_STATUS.READY (R474). -/
def fld_IDX_STATUS_READY (n : Nat) : Fld := ⟨0x500118 + 0x40 * n, 0, 1⟩
/-- IDX_EPOCH (R474). -/
def reg_IDX_EPOCH (n : Nat) : Nat := 0x50011c + 0x40 * n
/-- IDX_EPOCH.EPOCH (R474). -/
def fld_IDX_EPOCH_EPOCH (n : Nat) : Fld := ⟨0x50011c + 0x40 * n, 0, 32⟩
/-- IDX_PINS (R474). -/
def reg_IDX_PINS (n : Nat) : Nat := 0x500120 + 0x40 * n
/-- IDX_PINS.PINS_A (R474). -/
def fld_IDX_PINS_PINS_A (n : Nat) : Fld := ⟨0x500120 + 0x40 * n, 0, 16⟩
/-- IDX_PINS.PINS_B (R474). -/
def fld_IDX_PINS_PINS_B (n : Nat) : Fld := ⟨0x500120 + 0x40 * n, 16, 16⟩
/-- IDX_QUERIES (R474). -/
def reg_IDX_QUERIES (n : Nat) : Nat := 0x500124 + 0x40 * n
/-- IDX_QUERIES.DONE (R474). -/
def fld_IDX_QUERIES_DONE (n : Nat) : Fld := ⟨0x500124 + 0x40 * n, 0, 32⟩
/-- IDX_LOSS (R474). -/
def reg_IDX_LOSS (n : Nat) : Nat := 0x500128 + 0x40 * n
/-- IDX_LOSS.DROPPED (R474). -/
def fld_IDX_LOSS_DROPPED (n : Nat) : Fld := ⟨0x500128 + 0x40 * n, 0, 16⟩
/-- IDX_LOSS.REFUSED (R474). -/
def fld_IDX_LOSS_REFUSED (n : Nat) : Fld := ⟨0x500128 + 0x40 * n, 16, 16⟩
/-- IDX_FLAGS (R474). -/
def reg_IDX_FLAGS (n : Nat) : Nat := 0x50012c + 0x40 * n
/-- IDX_FLAGS.SHORT (R474). -/
def fld_IDX_FLAGS_SHORT (n : Nat) : Fld := ⟨0x50012c + 0x40 * n, 0, 16⟩
/-- IDX_FLAGS.TRUNC (R474). -/
def fld_IDX_FLAGS_TRUNC (n : Nat) : Fld := ⟨0x50012c + 0x40 * n, 16, 16⟩
/-- IDX_EPOCHF (R474). -/
def reg_IDX_EPOCHF (n : Nat) : Nat := 0x500130 + 0x40 * n
/-- IDX_EPOCHF.EPOCH (R474). -/
def fld_IDX_EPOCHF_EPOCH (n : Nat) : Fld := ⟨0x500130 + 0x40 * n, 0, 16⟩
/-- IDX_EPOCHF.UE_PAGES (R474). -/
def fld_IDX_EPOCHF_UE_PAGES (n : Nat) : Fld := ⟨0x500130 + 0x40 * n, 16, 16⟩
/-- SRCH_IMPORT_STATUS (R475). -/
def reg_SRCH_IMPORT_STATUS : Nat := 0x500200
/-- SRCH_IMPORT_STATUS.CODE (R475). -/
def fld_SRCH_IMPORT_STATUS_CODE : Fld := ⟨0x500200, 8, 4⟩
/-- SRCH_IMPORT_STATUS.REGION (R475). -/
def fld_SRCH_IMPORT_STATUS_REGION : Fld := ⟨0x500200, 6, 1⟩
/-- SRCH_IMPORT_STATUS.INDEX (R475). -/
def fld_SRCH_IMPORT_STATUS_INDEX : Fld := ⟨0x500200, 5, 1⟩
/-- SRCH_IMPORT_STATUS.ENDED (R475). -/
def fld_SRCH_IMPORT_STATUS_ENDED : Fld := ⟨0x500200, 4, 1⟩
/-- SRCH_IMPORT_STATUS.STATE (R475). -/
def fld_SRCH_IMPORT_STATUS_STATE : Fld := ⟨0x500200, 0, 3⟩
/-- SRCH_IMPORT_PAGES (R475). -/
def reg_SRCH_IMPORT_PAGES : Nat := 0x500204
/-- SRCH_IMPORT_PAGES.PAGES (R475). -/
def fld_SRCH_IMPORT_PAGES_PAGES : Fld := ⟨0x500204, 0, 32⟩
/-- SRCH_IMPORT_EPOCH (R475). -/
def reg_SRCH_IMPORT_EPOCH : Nat := 0x500208
/-- SRCH_IMPORT_EPOCH.EPOCH (R475). -/
def fld_SRCH_IMPORT_EPOCH_EPOCH : Fld := ⟨0x500208, 0, 32⟩
/-- SRCH_PLACE_0 (R476). -/
def reg_SRCH_PLACE_0 : Nat := 0x500300
/-- SRCH_PLACE_0.K (R476). -/
def fld_SRCH_PLACE_0_K : Fld := ⟨0x500300, 16, 7⟩
/-- SRCH_PLACE_0.QUERIES (R476). -/
def fld_SRCH_PLACE_0_QUERIES : Fld := ⟨0x500300, 7, 9⟩
/-- SRCH_PLACE_0.METRIC (R476). -/
def fld_SRCH_PLACE_0_METRIC : Fld := ⟨0x500300, 1, 2⟩
/-- SRCH_PLACE_0.INDEX (R476). -/
def fld_SRCH_PLACE_0_INDEX : Fld := ⟨0x500300, 0, 1⟩
/-- SRCH_PLACE_1 (R476). -/
def reg_SRCH_PLACE_1 : Nat := 0x500304
/-- SRCH_PLACE_1.NPROBE (R476). -/
def fld_SRCH_PLACE_1_NPROBE : Fld := ⟨0x500304, 0, 9⟩
/-- SRCH_PLACE_1.MIN_VOTES (R476). -/
def fld_SRCH_PLACE_1_MIN_VOTES : Fld := ⟨0x500304, 16, 8⟩
/-- SRCH_PLACE_1.MODE (R476). -/
def fld_SRCH_PLACE_1_MODE : Fld := ⟨0x500304, 24, 2⟩
/-- SRCH_PLACE_2 (R476). -/
def reg_SRCH_PLACE_2 : Nat := 0x500308
/-- SRCH_PLACE_2.MAX_DIST (R476). -/
def fld_SRCH_PLACE_2_MAX_DIST : Fld := ⟨0x500308, 0, 32⟩
/-- SRCH_PLACE_3 (R476). -/
def reg_SRCH_PLACE_3 : Nat := 0x50030c
/-- SRCH_PLACE_3.MASK (R476). -/
def fld_SRCH_PLACE_3_MASK : Fld := ⟨0x50030c, 0, 32⟩
/-- SRCH_PLACE_4 (R476). -/
def reg_SRCH_PLACE_4 : Nat := 0x500310
/-- SRCH_PLACE_4.VALUE (R476). -/
def fld_SRCH_PLACE_4_VALUE : Fld := ⟨0x500310, 0, 32⟩
/-- SRCH_PLACE_COUNT (R476). -/
def reg_SRCH_PLACE_COUNT : Nat := 0x500314
/-- SRCH_PLACE_COUNT.DONE (R476). -/
def fld_SRCH_PLACE_COUNT_DONE : Fld := ⟨0x500314, 0, 16⟩
/-- SRCH_PLACE_COUNT.NOT_DONE (R476). -/
def fld_SRCH_PLACE_COUNT_NOT_DONE : Fld := ⟨0x500314, 16, 16⟩
/-- SRCH_PROBE_CTRL (R477). -/
def reg_SRCH_PROBE_CTRL : Nat := 0x500400
/-- SRCH_PROBE_CTRL.START (R477). -/
def fld_SRCH_PROBE_CTRL_START : Fld := ⟨0x500400, 0, 1⟩
/-- SRCH_PROBE_CFG (R477). -/
def reg_SRCH_PROBE_CFG : Nat := 0x500404
/-- SRCH_PROBE_CFG.OBJ (R477). -/
def fld_SRCH_PROBE_CFG_OBJ : Fld := ⟨0x500404, 0, 32⟩
/-- SRCH_PROBE_STATUS (R477). -/
def reg_SRCH_PROBE_STATUS : Nat := 0x500408
/-- SRCH_PROBE_STATUS.BUSY (R477). -/
def fld_SRCH_PROBE_STATUS_BUSY : Fld := ⟨0x500408, 0, 1⟩
/-- SRCH_PROBE_STATUS.DONE (R477). -/
def fld_SRCH_PROBE_STATUS_DONE : Fld := ⟨0x500408, 1, 1⟩
/-- SRCH_PROBE_STATUS.ERR (R477). -/
def fld_SRCH_PROBE_STATUS_ERR : Fld := ⟨0x500408, 2, 1⟩
/-- SRCH_PROBE_HITS (R477). -/
def reg_SRCH_PROBE_HITS : Nat := 0x50040c
/-- SRCH_PROBE_HITS.HITS (R477). -/
def fld_SRCH_PROBE_HITS_HITS : Fld := ⟨0x50040c, 0, 32⟩
/-- SRCH_PROBE_EXPECTED (R477). -/
def reg_SRCH_PROBE_EXPECTED : Nat := 0x500410
/-- SRCH_PROBE_EXPECTED.EXPECTED (R477). -/
def fld_SRCH_PROBE_EXPECTED_EXPECTED : Fld := ⟨0x500410, 0, 32⟩
/-- SRCH_PROBE_QUERIES (R477). -/
def reg_SRCH_PROBE_QUERIES : Nat := 0x500414
/-- SRCH_PROBE_QUERIES.QUERIES_DONE (R477). -/
def fld_SRCH_PROBE_QUERIES_QUERIES_DONE : Fld := ⟨0x500414, 0, 16⟩
/-- SRCH_PROBE_QUERIES.QUERIES_OTHER (R477). -/
def fld_SRCH_PROBE_QUERIES_QUERIES_OTHER : Fld := ⟨0x500414, 16, 16⟩
/-- NCH_STATUS (R478). -/
def reg_NCH_STATUS (n : Nat) : Nat := 0x501000 + 0x20 * n
/-- NCH_STATUS.CONTEXTS (R478). -/
def fld_NCH_STATUS_CONTEXTS (n : Nat) : Fld := ⟨0x501000 + 0x20 * n, 16, 12⟩
/-- NCH_STATUS.GEOM_ERR (R478). -/
def fld_NCH_STATUS_GEOM_ERR (n : Nat) : Fld := ⟨0x501000 + 0x20 * n, 2, 1⟩
/-- NCH_STATUS.INIT (R478). -/
def fld_NCH_STATUS_INIT (n : Nat) : Fld := ⟨0x501000 + 0x20 * n, 1, 1⟩
/-- NCH_STATUS.READY (R478). -/
def fld_NCH_STATUS_READY (n : Nat) : Fld := ⟨0x501000 + 0x20 * n, 0, 1⟩
/-- NCH_PAGES (R478). -/
def reg_NCH_PAGES (n : Nat) : Nat := 0x501004 + 0x20 * n
/-- NCH_PAGES.PAGES (R478). -/
def fld_NCH_PAGES_PAGES (n : Nat) : Fld := ⟨0x501004 + 0x20 * n, 0, 32⟩
/-- NCH_RETRY (R478). -/
def reg_NCH_RETRY (n : Nat) : Nat := 0x501008 + 0x20 * n
/-- NCH_RETRY.RETRIES (R478). -/
def fld_NCH_RETRY_RETRIES (n : Nat) : Fld := ⟨0x501008 + 0x20 * n, 0, 32⟩
/-- NCH_BLOCKS (R478). -/
def reg_NCH_BLOCKS (n : Nat) : Nat := 0x50100c + 0x20 * n
/-- NCH_BLOCKS.BAD (R478). -/
def fld_NCH_BLOCKS_BAD (n : Nat) : Fld := ⟨0x50100c + 0x20 * n, 0, 16⟩
/-- NCH_BLOCKS.RETIRED (R478). -/
def fld_NCH_BLOCKS_RETIRED (n : Nat) : Fld := ⟨0x50100c + 0x20 * n, 16, 16⟩
/-- NCH_BUSY (R478). -/
def reg_NCH_BUSY (n : Nat) : Nat := 0x501010 + 0x20 * n
/-- NCH_BUSY.BUSY_US (R478). -/
def fld_NCH_BUSY_BUSY_US (n : Nat) : Fld := ⟨0x501010 + 0x20 * n, 0, 32⟩
/-- MEM_CFG (R330). -/
def reg_MEM_CFG : Nat := 0x600000
/-- MEM_CFG.DENSITY (R330). -/
def fld_MEM_CFG_DENSITY : Fld := ⟨0x600000, 16, 4⟩
/-- MEM_CFG.RATE (R330). -/
def fld_MEM_CFG_RATE : Fld := ⟨0x600000, 12, 2⟩
/-- MEM_CFG.RANKS (R330). -/
def fld_MEM_CFG_RANKS : Fld := ⟨0x600000, 8, 1⟩
/-- MEM_CFG.IF1_EN (R330). -/
def fld_MEM_CFG_IF1_EN : Fld := ⟨0x600000, 1, 1⟩
/-- MEM_CFG.IF0_EN (R330). -/
def fld_MEM_CFG_IF0_EN : Fld := ⟨0x600000, 0, 1⟩
/-- MEM_STATUS (R331). -/
def reg_MEM_STATUS : Nat := 0x600004
/-- MEM_STATUS.OBJ_ERR (R331). -/
def fld_MEM_STATUS_OBJ_ERR : Fld := ⟨0x600004, 2, 1⟩
/-- MEM_STATUS.DIR_READY (R331). -/
def fld_MEM_STATUS_DIR_READY : Fld := ⟨0x600004, 1, 1⟩
/-- MEM_STATUS.TRAINED (R331). -/
def fld_MEM_STATUS_TRAINED : Fld := ⟨0x600004, 0, 1⟩
/-- MEM_DATA_MIB (R331). -/
def reg_MEM_DATA_MIB : Nat := 0x600008
/-- MEM_DATA_MIB.MIB (R331). -/
def fld_MEM_DATA_MIB_MIB : Fld := ⟨0x600008, 0, 16⟩
/-- MEM_TILE_CFG (R332). -/
def reg_MEM_TILE_CFG : Nat := 0x60000c
/-- MEM_TILE_CFG.DIR_ENTRIES (R332). -/
def fld_MEM_TILE_CFG_DIR_ENTRIES : Fld := ⟨0x60000c, 0, 25⟩
/-- MEM_TILE_LAYOUT (R332). -/
def reg_MEM_TILE_LAYOUT : Nat := 0x600010
/-- MEM_TILE_LAYOUT.CKPT_BLOCKS (R332). -/
def fld_MEM_TILE_LAYOUT_CKPT_BLOCKS : Fld := ⟨0x600010, 0, 8⟩
/-- MEM_TILE_LAYOUT.JOURNAL_BLOCKS (R332). -/
def fld_MEM_TILE_LAYOUT_JOURNAL_BLOCKS : Fld := ⟨0x600010, 8, 8⟩
/-- MEM_POOL_CFG (R333). -/
def reg_MEM_POOL_CFG : Nat := 0x600014
/-- MEM_POOL_CFG.POOL_LOW (R333). -/
def fld_MEM_POOL_CFG_POOL_LOW : Fld := ⟨0x600014, 16, 6⟩
/-- MEM_POOL_CFG.POOL_HIGH (R333). -/
def fld_MEM_POOL_CFG_POOL_HIGH : Fld := ⟨0x600014, 8, 6⟩
/-- MEM_POOL_CFG.POOL_MIB (R333). -/
def fld_MEM_POOL_CFG_POOL_MIB : Fld := ⟨0x600014, 0, 6⟩
/-- MEM_DRAM_CFG (R333). -/
def reg_MEM_DRAM_CFG : Nat := 0x600018
/-- MEM_DRAM_CFG.LOW_FREE_MIB (R333). -/
def fld_MEM_DRAM_CFG_LOW_FREE_MIB : Fld := ⟨0x600018, 0, 16⟩
/-- MEM_DRAM_CFG.TARGET_FREE_MIB (R333). -/
def fld_MEM_DRAM_CFG_TARGET_FREE_MIB : Fld := ⟨0x600018, 16, 16⟩
/-- MEM_MOVE_CFG (R333). -/
def reg_MEM_MOVE_CFG : Nat := 0x60001c
/-- MEM_MOVE_CFG.SCRUB_MBS (R333). -/
def fld_MEM_MOVE_CFG_SCRUB_MBS : Fld := ⟨0x60001c, 16, 10⟩
/-- MEM_MOVE_CFG.MOVE_GBS (R333). -/
def fld_MEM_MOVE_CFG_MOVE_GBS : Fld := ⟨0x60001c, 0, 5⟩
/-- MEM_OBJ_STATUS (R334). -/
def reg_MEM_OBJ_STATUS : Nat := 0x600020
/-- MEM_OBJ_STATUS.FIRST_BAD (R334). -/
def fld_MEM_OBJ_STATUS_FIRST_BAD : Fld := ⟨0x600020, 0, 16⟩
/-- MEM_OBJ_STATUS.BULK_DROPPED (R334). -/
def fld_MEM_OBJ_STATUS_BULK_DROPPED : Fld := ⟨0x600020, 16, 16⟩
/-- MEM_TILE_REGION_FIRST (R332). -/
def reg_MEM_TILE_REGION_FIRST (n : Nat) : Nat := 0x600100 + 8 * n
/-- MEM_TILE_REGION_FIRST.FIRST_BLOCK (R332). -/
def fld_MEM_TILE_REGION_FIRST_FIRST_BLOCK (n : Nat) : Fld := ⟨0x600100 + 8 * n, 0, 32⟩
/-- MEM_TILE_REGION_BLOCKS (R332). -/
def reg_MEM_TILE_REGION_BLOCKS (n : Nat) : Nat := 0x600104 + 8 * n
/-- MEM_TILE_REGION_BLOCKS.BLOCKS (R332). -/
def fld_MEM_TILE_REGION_BLOCKS_BLOCKS (n : Nat) : Fld := ⟨0x600104 + 8 * n, 0, 32⟩
/-- MEM_MOVES (R334). -/
def reg_MEM_MOVES : Nat := 0x600200
/-- MEM_MOVES.DONE (R334). -/
def fld_MEM_MOVES_DONE : Fld := ⟨0x600200, 0, 32⟩
/-- MEM_MOVE_LOSS (R334). -/
def reg_MEM_MOVE_LOSS : Nat := 0x600204
/-- MEM_MOVE_LOSS.ABANDONED (R334). -/
def fld_MEM_MOVE_LOSS_ABANDONED : Fld := ⟨0x600204, 0, 16⟩
/-- MEM_MOVE_LOSS.NO_SPACE (R334). -/
def fld_MEM_MOVE_LOSS_NO_SPACE : Fld := ⟨0x600204, 16, 16⟩
/-- MEM_CONFLICT (R334). -/
def reg_MEM_CONFLICT : Nat := 0x600208
/-- MEM_CONFLICT.PINNED (R334). -/
def fld_MEM_CONFLICT_PINNED : Fld := ⟨0x600208, 0, 16⟩
/-- MEM_CONFLICT.DROPPED (R334). -/
def fld_MEM_CONFLICT_DROPPED : Fld := ⟨0x600208, 16, 16⟩
/-- MEM_TILE_LOSS (R334). -/
def reg_MEM_TILE_LOSS : Nat := 0x60020c
/-- MEM_TILE_LOSS.POOL_LOST (R334). -/
def fld_MEM_TILE_LOSS_POOL_LOST : Fld := ⟨0x60020c, 0, 16⟩
/-- MEM_TILE_LOSS.UNRECORDED (R334). -/
def fld_MEM_TILE_LOSS_UNRECORDED : Fld := ⟨0x60020c, 16, 16⟩
/-- MEM_USE (R334). -/
def reg_MEM_USE : Nat := 0x600210
/-- MEM_USE.POOL_USED_KIB (R334). -/
def fld_MEM_USE_POOL_USED_KIB : Fld := ⟨0x600210, 0, 16⟩
/-- MEM_USE.DRAM_FREE_MIB (R334). -/
def fld_MEM_USE_DRAM_FREE_MIB : Fld := ⟨0x600210, 16, 16⟩
/-- MEM_PINS (R334). -/
def reg_MEM_PINS : Nat := 0x600214
/-- MEM_PINS.LEDGER_USED (R334). -/
def fld_MEM_PINS_LEDGER_USED : Fld := ⟨0x600214, 0, 13⟩
/-- MEM_PINS.PIN_FULL (R334). -/
def fld_MEM_PINS_PIN_FULL : Fld := ⟨0x600214, 16, 16⟩
/-- SELV_CE (R335). -/
def reg_SELV_CE (n : Nat) : Nat := 0x600300 + 8 * n
/-- SELV_CE.CE (R335). -/
def fld_SELV_CE_CE (n : Nat) : Fld := ⟨0x600300 + 8 * n, 0, 32⟩
/-- SELV_UE (R335). -/
def reg_SELV_UE (n : Nat) : Nat := 0x600304 + 8 * n
/-- SELV_UE.UE (R335). -/
def fld_SELV_UE_UE (n : Nat) : Fld := ⟨0x600304 + 8 * n, 0, 16⟩
/-- SELV_UE.LOCATION (R335). -/
def fld_SELV_UE_LOCATION (n : Nat) : Fld := ⟨0x600304 + 8 * n, 16, 16⟩
/-- SELV_LAST (R335). -/
def reg_SELV_LAST : Nat := 0x600320
/-- SELV_LAST.COUNT (R335). -/
def fld_SELV_LAST_COUNT : Fld := ⟨0x600320, 16, 16⟩
/-- SELV_LAST.SWATCH (R335). -/
def fld_SELV_LAST_SWATCH : Fld := ⟨0x600320, 8, 6⟩
/-- SELV_LAST.SCRUB (R335). -/
def fld_SELV_LAST_SCRUB : Fld := ⟨0x600320, 3, 1⟩
/-- SELV_LAST.LOCATION (R335). -/
def fld_SELV_LAST_LOCATION : Fld := ⟨0x600320, 2, 1⟩
/-- SELV_LAST.MEDIUM (R335). -/
def fld_SELV_LAST_MEDIUM : Fld := ⟨0x600320, 0, 2⟩
/-- SELV_LAST_ADDR_LO (R335). -/
def reg_SELV_LAST_ADDR_LO : Nat := 0x600324
/-- SELV_LAST_ADDR_LO.ADDR (R335). -/
def fld_SELV_LAST_ADDR_LO_ADDR : Fld := ⟨0x600324, 0, 32⟩
/-- SELV_LAST_ADDR_HI (R335). -/
def reg_SELV_LAST_ADDR_HI : Nat := 0x600328
/-- SELV_LAST_ADDR_HI.ADDR (R335). -/
def fld_SELV_LAST_ADDR_HI_ADDR : Fld := ⟨0x600328, 0, 32⟩
/-- SELV_LDPC (R335). -/
def reg_SELV_LDPC : Nat := 0x60032c
/-- SELV_LDPC.FAIL (R335). -/
def fld_SELV_LDPC_FAIL : Fld := ⟨0x60032c, 0, 16⟩
/-- SEC_STATE (R125). -/
def reg_SEC_STATE : Nat := 0x700000
/-- SEC_STATE.FUSE_BUSY (R125). -/
def fld_SEC_STATE_FUSE_BUSY : Fld := ⟨0x700000, 4, 1⟩
/-- SEC_STATE.KEYS_LOCKED (R125). -/
def fld_SEC_STATE_KEYS_LOCKED : Fld := ⟨0x700000, 3, 1⟩
/-- SEC_STATE.PHASE (R125). -/
def fld_SEC_STATE_PHASE : Fld := ⟨0x700000, 0, 3⟩
/-- KEY_STATUS (R126). -/
def reg_KEY_STATUS : Nat := 0x700004
/-- KEY_STATUS.IMAGE_SLOT (R126). -/
def fld_KEY_STATUS_IMAGE_SLOT : Fld := ⟨0x700004, 10, 1⟩
/-- KEY_STATUS.SLOT_IN_USE (R126). -/
def fld_KEY_STATUS_SLOT_IN_USE : Fld := ⟨0x700004, 8, 2⟩
/-- KEY_STATUS.REVOKED (R126). -/
def fld_KEY_STATUS_REVOKED : Fld := ⟨0x700004, 4, 4⟩
/-- KEY_STATUS.PRESENT (R126). -/
def fld_KEY_STATUS_PRESENT : Fld := ⟨0x700004, 0, 4⟩
/-- ROLLBACK (R127). -/
def reg_ROLLBACK : Nat := 0x700008
/-- ROLLBACK.COMMIT_PENDING (R127). -/
def fld_ROLLBACK_COMMIT_PENDING : Fld := ⟨0x700008, 16, 1⟩
/-- ROLLBACK.IMAGE_VERSION (R127). -/
def fld_ROLLBACK_IMAGE_VERSION : Fld := ⟨0x700008, 8, 7⟩
/-- ROLLBACK.COUNTER (R127). -/
def fld_ROLLBACK_COUNTER : Fld := ⟨0x700008, 0, 7⟩
/-- ROLLBACK_COMMIT (R128). -/
def reg_ROLLBACK_COMMIT : Nat := 0x70000c
/-- ROLLBACK_COMMIT.VERSION (R128). -/
def fld_ROLLBACK_COMMIT_VERSION : Fld := ⟨0x70000c, 0, 7⟩
/-- FUSE_PROG_CTRL (R129). -/
def reg_FUSE_PROG_CTRL : Nat := 0x700010
/-- FUSE_PROG_CTRL.LOCK_KEYS (R129). -/
def fld_FUSE_PROG_CTRL_LOCK_KEYS : Fld := ⟨0x700010, 9, 1⟩
/-- FUSE_PROG_CTRL.PROGRAM (R129). -/
def fld_FUSE_PROG_CTRL_PROGRAM : Fld := ⟨0x700010, 8, 1⟩
/-- FUSE_PROG_CTRL.SLOT (R129). -/
def fld_FUSE_PROG_CTRL_SLOT : Fld := ⟨0x700010, 4, 2⟩
/-- FUSE_PROG_CTRL.WORD (R129). -/
def fld_FUSE_PROG_CTRL_WORD : Fld := ⟨0x700010, 0, 4⟩
/-- FUSE_PROG_DATA (R129). -/
def reg_FUSE_PROG_DATA : Nat := 0x700014
/-- FUSE_PROG_DATA.DATA (R129). -/
def fld_FUSE_PROG_DATA_DATA : Fld := ⟨0x700014, 0, 32⟩
/-- ATTEST_CTRL (R130). -/
def reg_ATTEST_CTRL : Nat := 0x700020
/-- ATTEST_CTRL.START (R130). -/
def fld_ATTEST_CTRL_START : Fld := ⟨0x700020, 0, 1⟩
/-- ATTEST_STATUS (R130). -/
def reg_ATTEST_STATUS : Nat := 0x700024
/-- ATTEST_STATUS.COUNT (R130). -/
def fld_ATTEST_STATUS_COUNT : Fld := ⟨0x700024, 16, 16⟩
/-- ATTEST_STATUS.DONE (R130). -/
def fld_ATTEST_STATUS_DONE : Fld := ⟨0x700024, 1, 1⟩
/-- ATTEST_STATUS.BUSY (R130). -/
def fld_ATTEST_STATUS_BUSY : Fld := ⟨0x700024, 0, 1⟩
/-- ATTEST_WIN_ADDR (R131). -/
def reg_ATTEST_WIN_ADDR : Nat := 0x700028
/-- ATTEST_WIN_ADDR.WORD (R131). -/
def fld_ATTEST_WIN_ADDR_WORD : Fld := ⟨0x700028, 0, 10⟩
/-- ATTEST_WIN_DATA (R131). -/
def reg_ATTEST_WIN_DATA : Nat := 0x70002c
/-- ATTEST_WIN_DATA.DATA (R131). -/
def fld_ATTEST_WIN_DATA_DATA : Fld := ⟨0x70002c, 0, 32⟩
/-- BIND_OFF_CTRL (R131). -/
def reg_BIND_OFF_CTRL : Nat := 0x700030
/-- BIND_OFF_CTRL.REQUEST (R131). -/
def fld_BIND_OFF_CTRL_REQUEST : Fld := ⟨0x700030, 0, 1⟩
/-- ATTEST_NONCE (R132). -/
def reg_ATTEST_NONCE (n : Nat) : Nat := 0x700040 + 4 * n
/-- ATTEST_NONCE.NONCE (R132). -/
def fld_ATTEST_NONCE_NONCE (n : Nat) : Fld := ⟨0x700040 + 4 * n, 0, 32⟩
/-- IMAGE_DIGEST (R132). -/
def reg_IMAGE_DIGEST (n : Nat) : Nat := 0x700080 + 4 * n
/-- IMAGE_DIGEST.DIGEST (R132). -/
def fld_IMAGE_DIGEST_DIGEST (n : Nat) : Fld := ⟨0x700080 + 4 * n, 0, 32⟩
/-- CAL_FACT (R133). -/
def reg_CAL_FACT (n : Nat) : Nat := 0x700100 + 0x10 * n
/-- CAL_FACT.VALUE (R133). -/
def fld_CAL_FACT_VALUE (n : Nat) : Fld := ⟨0x700100 + 0x10 * n, 0, 16⟩
/-- CAL_USER (R133). -/
def reg_CAL_USER (n : Nat) : Nat := 0x700104 + 0x10 * n
/-- CAL_USER.OFFSET (R133). -/
def fld_CAL_USER_OFFSET (n : Nat) : Fld := ⟨0x700104 + 0x10 * n, 0, 16⟩
/-- CAL_EFF (R133). -/
def reg_CAL_EFF (n : Nat) : Nat := 0x700108 + 0x10 * n
/-- CAL_EFF.VALUE (R133). -/
def fld_CAL_EFF_VALUE (n : Nat) : Fld := ⟨0x700108 + 0x10 * n, 0, 16⟩
/-- KEY_DIGEST (R132). -/
def reg_KEY_DIGEST (n : Nat) : Nat := 0x700400 + 4 * n
/-- KEY_DIGEST.DIGEST (R132). -/
def fld_KEY_DIGEST_DIGEST (n : Nat) : Fld := ⟨0x700400 + 4 * n, 0, 32⟩
/-- DEV_ED_PUB (R132). -/
def reg_DEV_ED_PUB (n : Nat) : Nat := 0x700500 + 4 * n
/-- DEV_ED_PUB.KEY (R132). -/
def fld_DEV_ED_PUB_KEY (n : Nat) : Fld := ⟨0x700500 + 4 * n, 0, 32⟩
/-- DEV_MLDSA_PUB (R132). -/
def reg_DEV_MLDSA_PUB (n : Nat) : Nat := 0x701000 + 4 * n
/-- DEV_MLDSA_PUB.KEY (R132). -/
def fld_DEV_MLDSA_PUB_KEY (n : Nat) : Fld := ⟨0x701000 + 4 * n, 0, 32⟩

end Sys2Proof.Machine
end

