-- ==== Sys2Proof/Machine/Fp.lean ====
section
/-!
DEFINITION. IEEE 754 values and operations, exact and then rounded once to nearest, ties to even; the formats of R257 beside
them.
-/
namespace Sys2Proof.Machine

/-- A power of two with an integer exponent. -/
def pow2 (k : Int) : Rat := if k < 0 then 1 / ((2 ^ k.natAbs : Nat) : Rat) else ((2 ^ k.toNat : Nat) : Rat)

/-- A floating-point value: not a number, an infinity, or a number; `neg` is the sign, which a zero keeps. -/
inductive Fp where
  | nan
  | inf (neg : Bool)
  | num (q : Rat) (neg : Bool)
  deriving DecidableEq, Repr

/-- A binary format: exponent bits, mantissa bits, bias. -/
structure FpFormat where
  exp : Nat
  man : Nat
  bias : Nat
  deriving DecidableEq, Repr

def fp32 : FpFormat := ⟨8, 23, 127⟩
def fp64 : FpFormat := ⟨11, 52, 1023⟩
def fp16 : FpFormat := ⟨5, 10, 15⟩
def bf16 : FpFormat := ⟨8, 7, 127⟩

/-- The magnitude of a rational. -/
def absRat (x : Rat) : Rat := if x < 0 then -x else x

/-- ⌊log₂ x⌋ of a positive rational. -/
def floorLog2 (x : Rat) : Int :=
  let a := x.num.natAbs
  let k : Int := (Nat.log2 a : Int) - Nat.log2 x.den
  if pow2 k ≤ x then k else k - 1

/-- Nearest integer to a rational, ties to even. -/
def nearestEven (x : Rat) : Int := roundEven x.num x.den

/-- The number a positive rational rounds to with M mantissa bits and a least exponent, under an unbounded exponent above. -/
def roundTo (man : Nat) (least : Int) (a : Rat) : Rat :=
  let ulp := pow2 (max (floorLog2 a) least - man)
  (nearestEven (a / ulp) : Rat) * ulp

/-- The largest finite value of a format with infinities. -/
def FpFormat.largest (f : FpFormat) : Rat := (2 - pow2 (-(f.man : Int))) * pow2 (2 ^ f.exp - 2 - f.bias)

/-- An exact value rounded once; `neg` is the sign a zero takes. -/
def FpFormat.round (f : FpFormat) (q : Rat) (neg : Bool) : Fp :=
  if q = 0 then .num 0 neg
  else
    let v := roundTo f.man (1 - (f.bias : Int)) (absRat q)
    if f.largest < v then .inf (decide (q < 0)) else .num (if q < 0 then -v else v) (decide (q < 0))

/-- The value that bits encode. -/
def FpFormat.decode (f : FpFormat) (b : Nat) : Fp :=
  let s := bit b (f.exp + f.man)
  let e := b / 2 ^ f.man % 2 ^ f.exp
  let m := b % 2 ^ f.man
  if e = 2 ^ f.exp - 1 then (if m = 0 then .inf s else .nan)
  else
    let a : Rat := if e = 0 then (m : Rat) * pow2 (1 - (f.bias : Int) - f.man)
      else ((2 ^ f.man + m : Nat) : Rat) * pow2 ((e : Int) - f.bias - f.man)
    .num (if s then -a else a) s

/-- Exponent and mantissa fields of a positive number that the format holds. -/
def fieldsOf (man bias : Nat) (a : Rat) : Nat :=
  let e := max (floorLog2 a) (1 - (bias : Int))
  let n := (a / pow2 (e - man)).floor.toNat
  if n < 2 ^ man then n else (e + bias).toNat * 2 ^ man + (n - 2 ^ man)

/-- The bits of a value that the format holds; a NaN is canonical (R265). -/
def FpFormat.encode (f : FpFormat) (x : Fp) : Nat :=
  let sign (s : Bool) : Nat := if s then 2 ^ (f.exp + f.man) else 0
  match x with
  | .nan => (2 ^ f.exp - 1) * 2 ^ f.man + 2 ^ (f.man - 1)
  | .inf s => sign s + (2 ^ f.exp - 1) * 2 ^ f.man
  | .num q s => sign s + (if q = 0 then 0 else fieldsOf f.man f.bias (absRat q))

/-- The sign of a value. -/
def Fp.sign : Fp → Bool
  | .nan => false
  | .inf s => s
  | .num _ s => s

/-- A value with the other sign. -/
def Fp.opp : Fp → Fp
  | .nan => .nan
  | .inf s => .inf (!s)
  | .num q s => .num (-q) (!s)

/-- The magnitude of a value. -/
def Fp.abs : Fp → Fp
  | .nan => .nan
  | .inf _ => .inf false
  | .num q _ => .num (absRat q) false

/-- An exact product. -/
def Fp.times (a b : Fp) : Fp :=
  match a, b with
  | .nan, _ => .nan
  | _, .nan => .nan
  | .inf s, .inf t => .inf (s != t)
  | .inf s, .num q t => if q = 0 then .nan else .inf (s != t)
  | .num q s, .inf t => if q = 0 then .nan else .inf (s != t)
  | .num p s, .num q t => .num (p * q) (s != t)

/-- An exact sum; a zero sum is negative only of two negative zeros. -/
def Fp.plus (a b : Fp) : Fp :=
  match a, b with
  | .nan, _ => .nan
  | _, .nan => .nan
  | .inf s, .inf t => if s = t then .inf s else .nan
  | .inf s, .num _ _ => .inf s
  | .num _ _, .inf t => .inf t
  | .num p s, .num q t => .num (p + q) (if p + q = 0 then (p == 0 && s && t) else decide (p + q < 0))

/-- Round an exact result to a format. -/
def FpFormat.rnd (f : FpFormat) (x : Fp) : Fp :=
  match x with
  | .num q s => f.round q s
  | y => y

/-- The operations of a format, each rounded once. -/
def FpFormat.add (f : FpFormat) (a b : Fp) : Fp := f.rnd (a.plus b)
def FpFormat.sub (f : FpFormat) (a b : Fp) : Fp := f.rnd (a.plus b.opp)
def FpFormat.mul (f : FpFormat) (a b : Fp) : Fp := f.rnd (a.times b)
def FpFormat.fma (f : FpFormat) (a b c : Fp) : Fp := f.rnd ((a.times b).plus c)

/-- A quotient, rounded once. -/
def FpFormat.div (f : FpFormat) (a b : Fp) : Fp :=
  match a, b with
  | .nan, _ => .nan
  | _, .nan => .nan
  | .inf _, .inf _ => .nan
  | .inf s, .num _ t => .inf (s != t)
  | .num _ s, .inf t => .num 0 (s != t)
  | .num p s, .num q t => if q = 0 then (if p = 0 then .nan else .inf (s != t)) else f.round (p / q) (s != t)

/-- Order of two values; nothing compares with a NaN, and zeros are equal. -/
def Fp.lt (a b : Fp) : Bool :=
  match a, b with
  | .nan, _ => false
  | _, .nan => false
  | .inf s, .inf t => s && !t
  | .inf s, .num _ _ => s
  | .num _ _, .inf t => !t
  | .num p _, .num q _ => decide (p < q)
def Fp.le (a b : Fp) : Bool :=
  match a, b with
  | .nan, _ => false
  | _, .nan => false
  | a, b => !Fp.lt b a

/-- IEEE 754 maximum and minimum: NaN wins, and −0 lies below +0. -/
def Fp.max (a b : Fp) : Fp :=
  match a, b with
  | .nan, _ => .nan
  | _, .nan => .nan
  | a, b => if Fp.lt a b then b else if Fp.lt b a then a else if a.sign then b else a
def Fp.min (a b : Fp) : Fp :=
  match a, b with
  | .nan, _ => .nan
  | _, .nan => .nan
  | a, b => if Fp.lt b a then b else if Fp.lt a b then a else if a.sign then a else b

/-- Whether a value is finite. -/
def Fp.finite : Fp → Bool
  | .num _ _ => true
  | _ => false

/-- +0, 1, and a rational that a format holds. -/
def Fp.zero : Fp := .num 0 false
def Fp.ofRat (q : Rat) : Fp := .num q (decide (q < 0))
def Fp.one : Fp := .num 1 false

/-- FP32 values as words. -/
def ofWord32 (n : Nat) : Fp := fp32.decode n
def toWord32 (x : Fp) : Nat := fp32.encode x

/-- The encodings of the two numbers of a format next to an exact value: at or below it in magnitude, and above. A value
beyond the largest has infinity above. -/
def FpFormat.around (f : FpFormat) (q : Rat) : Nat × Nat :=
  let a := absRat q
  let s := decide (q < 0)
  let ulp := pow2 ((if a = 0 then 1 - (f.bias : Int) else max (floorLog2 a) (1 - (f.bias : Int))) - f.man)
  let sgn (x : Rat) : Rat := if s then -x else x
  if f.largest ≤ a then (f.encode (.num (sgn f.largest) s), if a = f.largest then f.encode (.num (sgn f.largest) s) else f.encode (.inf s))
  else
    let lo := ((a / ulp).floor : Rat) * ulp
    let hi := if lo = a then lo else lo + ulp
    (f.encode (.num (sgn lo) s), f.encode (.num (sgn hi) s))

end Sys2Proof.Machine
end

