-- ==== Sys2Proof/Machine/State.lean ====
section
/-!
DEFINITION. The state of the block as plain data: the register file, and what the spec gives each unit beside its registers;
the outcomes that are no state; and the block as it stands right after reset.
-/
namespace Sys2Proof.Machine

/-- Why the block stops. No meaning of this model faults: every command has an effect the spec gives, or is an event that
cannot occur in the present state and leaves it unchanged. The one name stands for operation outside the ratings, which
R589 leaves unspecified and which no command of the table can express; it is safe. -/
inductive Fault where
  | outsideRatings
  deriving DecidableEq, Repr

/-- Why a command has no meaning. -/
inductive Refusal where
  /-- Raised by an arm of exec whose command is not modelled; safe. -/
  | notModelled (mnemonic : String)
  deriving DecidableEq, Repr

/-! ### Register file and ports -/

/-- What a port holds between the accesses of a register pair. Keys are port × 2^32 + address. -/
structure Ports where
  /-- Armed holding latches with the latched half (R13, R173), by the address of the latched word. -/
  latches : Store (Option Word)
  /-- _LO words written and not yet taken (R14), by the address of the _LO word. -/
  lows : Store (Option Word)
  deriving DecidableEq, Repr

/-- What the device has answered most recently; not the spec's state, but the model's place for what a command returns. -/
structure Output where
  /-- Words returned by the latest register read. -/
  words : List Word
  /-- The in-band interrupt sent last: cause and the 24-bit count (R501). -/
  ibi : Option (Nat × Nat)
  /-- Bytes returned by the latest CCC. -/
  ccc : List Byte
  deriving DecidableEq, Repr

/-! ### Swatches and crossings -/

/-- Where a reset group is in the sequence of Table 2.6. -/
inductive GroupPhase where
  | running
  | clearing
  | cleared
  | restoring
  deriving DecidableEq, Repr

/-- A message passed on to its receiver (R74), with the flit halves of it that are uncorrectable (R327). -/
structure Delivery where
  destination : Nat
  source : Nat
  number : Nat
  bad : List Nat
  deriving DecidableEq, Repr

/-- A message that ended at a crossing in reset, and whether it was a request, answered with PARTNER_RESET (R80). -/
structure PartnerReset where
  destination : Nat
  source : Nat
  number : Nat
  answered : Bool
  deriving DecidableEq, Repr

/-- The kinds of scheduled instant (R140). -/
inductive InstantKind where
  | boundary | cutoff | launch | snapshot
  deriving DecidableEq, Repr

/-- A scheduled instant as the time distribution carries it: its kind and its device time (R140). -/
structure Instant where
  kind : InstantKind
  time : Stamp
  deriving DecidableEq, Repr

/-- Clock islands, crossings and PLLs (R59 to R91). -/
structure Swatches where
  /-- Bit n: swatch n is in reset (R88). -/
  inReset : BitVec 48
  /-- Bit n: swatch n's clock is stopped, its contents kept (R525). -/
  gated : BitVec 48
  /-- Clock step of each arithmetic swatch, 0 to 3 (R65). -/
  step : Store Nat
  /-- Phase of each reset group. -/
  phase : Store GroupPhase
  /-- Reset requests sent and not yet at their group: swatch and Table 2.11 cause. -/
  requests : List (Nat × Nat)
  /-- Events pending at each event crossing, 0 to 3 (R75). -/
  crossing : Store Nat
  /-- The instant that came with the latest strobe of each crossing from TIME (R140, Table 2.5). -/
  strobes : Store (Option Instant)
  /-- SYS runs on REFCLK, not yet on PLL_SYS (R110). -/
  sysOnRefclk : Bool
  /-- Messages that a crossing in reset discarded, and requests it answered with PARTNER_RESET (R80). -/
  partnerReset : List PartnerReset
  /-- Messages passed on whole to their receiver (R74), latest first. -/
  delivered : List Delivery
  /-- Requests passed into a swatch and not yet answered (R80). -/
  requested : List Delivery
  /-- Whole messages in the lane buffers of a port whose swatch is gated (R70, R74). -/
  waiting : List CrossingMessage
  /-- Lane-2 flits that a port has taken since its last lane-3 message (Table 2.3). -/
  turn : Store Nat
  deriving DecidableEq, Repr

/-! ### Cast-on, keys and trust -/

/-- A register write entry (R100). -/
structure RegWrite where
  addr : Word
  mask : Word
  value : Word
  deriving DecidableEq, Repr

/-- A grant entry (Table 3.9). -/
structure Grant where
  addr : Word
  mask : Word
  lower : Word
  upper : Word
  deriving DecidableEq, Repr

/-- A section table entry (Table 3.3). -/
structure Section where
  type : Nat
  offset : Nat
  length : Nat
  digest : List Byte
  deriving DecidableEq, Repr

/-- The fixed header of a skein as the checks read it (Table 3.2). -/
structure Skein where
  headerSize : Nat
  imageSize : Nat
  sequence : Nat
  secVersion : Nat
  keySlot : Nat
  autoCommit : Bool
  revoke : Bool
  revokeMask : Nat
  capReq : List Nat
  sections : List Section
  digest : List Byte
  deriving DecidableEq, Repr

/-- The step of R110 that cast-on waits for. -/
inductive CastStep where
  | fuseSense | pllSys | pllIoTime | flashMode | headers | signature | sections | applied
  | stopped
  deriving DecidableEq, Repr

/-- A fuse bit that a commit or a provisioning write blows (R107 to R109). -/
inductive FuseBit where
  | rollback
  | revoked (slot : Nat)
  | key (word bit : Nat)
  | present (slot : Nat)
  | keysLocked
  deriving DecidableEq, Repr

/-- Cast-on and the trust state (R92 to R133). -/
structure CastOn where
  step : CastStep
  /-- The fuse array failed its check: every FUSE field reads zero (R111). -/
  fuseErr : Bool
  /-- The boot count of this entry to FUSE_SENSE is already counted (R574). -/
  bootCounted : Bool
  flashDensity : Nat
  /-- The first 4 KiB of both slots. -/
  headA : List Byte
  headB : List Byte
  /-- Slot being tried, false A; slots already tried. -/
  slot : Option Bool
  triedA : Bool
  triedB : Bool
  skein : Option Skein
  /-- Index of the next section of the table. -/
  nextSection : Nat
  /-- Staged register writes in order, MEMCFG and REGS (R112). -/
  writes : List RegWrite
  regsChecked : Bool
  arithLocked : Bool
  training : Bool
  trained : Bool
  /-- Grants staged, and in force after lock. -/
  grants : List Grant
  /-- The register words that a swatch reset reloads: CAST fields and image tunables as of lock (R21, R81). -/
  castRegs : Store Word
  /-- RESIDENT and CLASSA data as of lock, from which a swatch reset restores (R113, R120). -/
  kept : Store Byte
  keptLen : Store Nat
  /-- The running image's commit settings (R107). -/
  autoCommit : Bool
  revoke : Bool
  revokeMask : Nat
  /-- Fuse bits still to blow, the first being blown (R108). -/
  fuses : List FuseBit
  fusesHeld : Bool
  /-- Attestation: the latched nonce, and the report once built (R121). -/
  nonce : List Byte
  report : List Word
  /-- Bind-off has drained NAND, and waits for the loop to stop (R123). -/
  bindDrained : Bool
  deriving DecidableEq, Repr

/-! ### Class A loop -/

/-- Why the loop, whose grid exists, does not run: a reset of its path (R56), NAP (R528), bind-off (R123), a re-armed step (R149). -/
inductive LoopStop where
  | reset | nap | bind | step
  deriving DecidableEq, Repr

/-- The estimate-and-act loop (R32 to R56). -/
structure Loop where
  /-- The grid exists: boundaries fall due. -/
  grid : Bool
  stopped : Option LoopStop
  /-- The second at which the loop will start (R32, R149). -/
  startAt : Option Stamp
  /-- Values in force, in µs. -/
  period : Nat
  cutoff : Nat
  launch : Nat
  /-- Current boundary and its period's cut-off and launch, in 2^-16 ns. -/
  boundary : Stamp
  cutoffAt : Stamp
  launchAt : Stamp
  /-- The period's cut-off has fallen. -/
  cutoffDone : Bool
  /-- PAIRED as the path has it since the latest boundary (R67). -/
  pairedPath : Bool
  /-- A Class A structure was resident at the end of cast-on (R48). -/
  resident : Bool
  /-- BROWN held at some moment since the terms of a period were published (R54). -/
  brownSeen : Bool
  deriving DecidableEq, Repr

/-! ### Device time and body network -/

/-- A stretch of device time with one advance per tick: the tick that begins it, device time at that tick, and the advance, both in
2^-48 ns (R136, R139). -/
structure Era where
  tick : Nat
  time : Nat
  advance : Nat
  deriving DecidableEq, Repr

/-- An Announce that stands for its port, and the tick at which it was received (R158). -/
structure HeldAnnounce where
  msg : AnnounceMessage
  tick : Nat
  deriving DecidableEq, Repr

/-- Device time and its servo (R134 to R152). -/
structure TimeBase where
  running : Bool
  /-- The count of the replica tick counters, cleared together as device time starts (R138). -/
  ticks : Nat
  /-- The rate and step history by which tap records are converted, latest first (R139). -/
  eras : List Era
  /-- Device time in units of 2^-48 ns (R136). -/
  now : Nat
  /-- Servo integral, ppm (R144). -/
  acc : Rat
  inLock : Nat
  outLock : Nat
  recover : Nat
  episode : Bool
  /-- A usable Sync since cast-on lock (R148). -/
  seenSync : Bool
  /-- Grandmaster and neighbour rate ratios, each less one (R144, R152). -/
  gmRate : Rat
  /-- The offset, in ns, that the step of R143 will take at the next tick. -/
  stepDue : Option Rat
  /-- Two-step Syncs waiting for their Follow_Up, by port. -/
  waiting : Store (Option SyncMessage)
  logInterval : Int
  /-- The best Announce of each port (R158). -/
  announce : Store (Option HeldAnnounce)
  lockedAt : Nat
  deriving DecidableEq, Repr

/-- A launch queue entry (R161): frame bytes, launch time, whether it entered late, and whether a step has freed it, in the MAC, from
waiting for its launch time (R150). -/
structure LaunchEntry where
  frame : List Byte
  launchTime : Stamp
  late : Bool
  freed : Bool
  deriving DecidableEq, Repr

/-- A bridged frame waiting to leave: priority, ingress stamp in ns (R156), ingress port, bytes. -/
structure BridgeFrame where
  priority : Nat
  ingress : Rat
  ingressPort : Nat
  frame : List Byte
  deriving DecidableEq, Repr

/-- A peer delay message that a port has sent (R159): a Pdelay_Req with its sequence; or the answer to one, the Pdelay_Resp with the
requester, its sequence and the request's ingress stamp, and the Pdelay_Resp_Follow_Up with the Pdelay_Resp's egress stamp, in ns. -/
inductive PdelayMessage where
  | request (sequence : Nat)
  | answer (requester sequence : Nat) (receipt origin : Rat)
  deriving DecidableEq, Repr

/-- One MAC (R153 to R164). -/
structure EthPort where
  /-- Frames waiting for egress, in order of arrival. -/
  egress : List BridgeFrame
  /-- The launch queue, in order of entry. -/
  launch : List LaunchEntry
  /-- Frames passed to the MAC, not yet gone. -/
  inMac : List LaunchEntry
  /-- Residence correction owed to the Follow_Up of a two-step Sync: grandmaster port identity and sequence, and the
  correction in ns (R160). -/
  owed : List (List Byte × Rat)
  pdGood : Nat
  pdBad : Nat
  pdSequence : Nat
  /-- The tick from which the interval to the next Pdelay_Req runs (R159). -/
  pdFrom : Nat
  /-- The frame that left last. -/
  sent : Option (List Byte)
  /-- The peer delay message sent last. -/
  pdSent : Option PdelayMessage
  /-- The egress stamps of the launched frames, each with its launch time, latest first, in ns (R162). -/
  launched : List (Stamp × Rat)
  /-- Frames delivered by the filters and not yet taken: consumer, ingress stamp, bytes, oldest first (R155). -/
  delivered : List (Nat × Stamp × List Byte)
  deriving DecidableEq, Repr

/-- A port at reset: nothing queued, nothing sent. -/
def EthPort.idle : EthPort := ⟨[], [], [], [], 0, 0, 0, 0, none, none, [], []⟩

/-- One timer output (R165 to R168). -/
structure Tout where
  /-- The next edge due, with whether it leads, or none. -/
  next : Option (Stamp × Bool)
  /-- Pulse number of the next edge. -/
  pulse : Nat
  level : Bool
  deriving DecidableEq, Repr

/-- An output with no edge pending, at its inactive level. -/
def Tout.idle : Tout := ⟨none, 0, false⟩

/-- A capture queue entry (R169). -/
structure Capture where
  stamp : Stamp
  rising : Bool
  deriving DecidableEq, Repr

/-- One capture input: its queue, and the captures removed since reset, which number the head (R180). -/
structure Tin where
  queue : List Capture
  seq : Nat
  deriving DecidableEq, Repr

/-- An input with nothing captured. -/
def Tin.idle : Tin := ⟨[], 0⟩

/-- Timer outputs and capture inputs. -/
structure Timers where
  /-- TOUT register words written and not yet taken (R165), by address. -/
  staged : Store (Option Word)
  tout : Store Tout
  tin : Store Tin
  deriving DecidableEq, Repr

/-! ### Objects in SRAM -/

/-! ### Camera ingest, stitch markers and frame graphs -/

/-- STATE of a stitch marker (R191). -/
inductive MarkerState where
  | idle | writing | published
  deriving DecidableEq, Repr

/-- A waiting ACQUIRE: consumer slot, generation and progress asked for (Table 5.5). -/
structure MarkerWait where
  slot : Nat
  gen : Nat
  lines : Nat
  deriving DecidableEq, Repr

/-- A stitch marker (R191). -/
structure Marker where
  state : MarkerState
  gen : Nat
  progress : Nat
  /-- Consumer slots whose READERS bit is set. -/
  readers : List Nat
  /-- The slot that took each hold; HOLD is their number. -/
  holds : List Nat
  waiting : List MarkerWait
  /-- Order of its latest CLAIM and latest PUBLISH among all markers'. -/
  claimed : Nat
  published : Nat
  deriving DecidableEq, Repr

/-- A marker after reset: IDLE, all else zero (R191). -/
def Marker.reset : Marker := ⟨.idle, 0, 0, [], [], [], 0, 0⟩

/-- An answer to an ACQUIRE (Table 5.5). -/
inductive MarkerAnswer where
  | ready | gone | void
  deriving DecidableEq, Repr

/-- The frame a stream is receiving: the set claimed for it, its stamps, the lines and embedded bytes stored. -/
structure RxFrame where
  set : Nat
  sequence : Nat
  start : Stamp
  tov : Int
  lines : Nat
  embedded : Nat
  deriving DecidableEq, Repr

/-- A member's frame (R196): its number, time of validity, frame-start stamp and, where stored, its set; and whether it has been
abandoned since (R198). -/
structure MemberFrame where
  number : Nat
  tov : Int
  start : Stamp
  set : Option Nat
  bad : Bool
  deriving DecidableEq, Repr

/-- One stream (R184 to R199). Times of validity are in 2^-16 ns. -/
structure Stream where
  frame : Option RxFrame
  /-- Frame sets in order of their latest claim, oldest first, and the set published most recently. -/
  order : List Nat
  published : Option Nat
  /-- Sequence lead (R196), frames waiting for their partner, and the next stored frame's SLIP. -/
  lead : Option Int
  waiting : List MemberFrame
  slip : Bool
  lastStart : Option Stamp
  /-- The sequence number and time of validity of the frame each set holds. -/
  held : Store (Nat × Int)
  deriving DecidableEq, Repr

/-- A stream that has seen no frame. -/
def Stream.reset : Stream := ⟨none, [], none, none, [], false, none, []⟩

/-- An instant of a pair group (R198): the set of each member that joined with its generation, and the STALE mask as a list of streams. -/
structure PairInstant where
  number : Nat
  tov : Int
  opened : Stamp
  parts : List (Nat × Nat × Nat)
  stale : List Nat
  issued : Bool
  deriving DecidableEq, Repr

/-- A pair group: its instants, oldest first, and the reference frames seen with their times of validity. -/
structure PairGroup where
  instants : List PairInstant
  refs : List (Nat × Int)
  deriving DecidableEq, Repr

/-- A group with no instant. -/
def PairGroup.reset : PairGroup := ⟨[], []⟩

/-- One input of a node: the copy and generation fixed for it (R213), and whether it is acquired. `awaits` stands where the
first copy claimed after the trigger is still to come. -/
structure NodeInput where
  copy : Nat
  marker : Nat
  gen : Nat
  ready : Bool
  awaits : Bool
  deriving DecidableEq, Repr

/-- Where a node of an activation stands. -/
inductive NodePhase where
  | unissued | queued | running | ended (code : Nat)
  deriving DecidableEq, Repr

/-- One node of an activation (R217 to R221): its inputs, its claimed outputs as copy, marker and generation, the code it is
to end with, the engine it runs on, the output lines written, and whether brown hold or a truncation touched it. -/
structure NodeRun where
  phase : NodePhase
  inputs : List (Option NodeInput)
  outputs : List (Option (Nat × Nat × Nat))
  verdict : Option Nat
  engine : Option Nat
  lines : Nat
  pass : Nat
  done : Bool
  brown : Bool
  trunc : Bool
  /-- Records written, for a list. -/
  count : Nat
  /-- When it started. -/
  start : Stamp
  deriving DecidableEq, Repr

/-- A node not yet issued. -/
def NodeRun.reset : NodeRun := ⟨.unissued, [], [], none, none, 0, 0, false, false, false, 0, 0⟩

/-- An activation of a frame graph (R215): its number, trigger and expected deadline, the frame's sequence or instant number,
its time of validity, the set and generation of each stream it reads, whether its instant is stale, the inputs its trigger fixed by node × 4
+ input, and its nodes. -/
structure Activation where
  number : Nat
  trigger : Stamp
  deadline : Stamp
  instant : Nat
  tov : Int
  sets : List (Nat × Nat × Nat)
  stale : Bool
  fixed : Store (Option NodeInput)
  nodes : List NodeRun
  deriving DecidableEq, Repr

/-- A frame graph: its activation, and what each of its KEEP nodes holds by buffer: copy, marker and generation (R223). -/
structure Graph where
  act : Option Activation
  kept : Store (Option (Nat × Nat × Nat))
  /-- Activations since cast-on lock. -/
  count : Nat
  deriving DecidableEq, Repr

/-- A graph with no activation. -/
def Graph.reset : Graph := ⟨none, [], 0⟩

/-- A verifier job (R231): who asked, its 64 bytes, and the order of submission. -/
structure VerifierJob where
  requester : Nat
  bytes : List Byte
  order : Nat
  deriving DecidableEq, Repr

/-- Why a verifier job has no result: its queue was full (R231), or VIS_1 was reset (R233). -/
inductive VerifierNotice where
  | refused
  | partnerReset
  deriving DecidableEq, Repr

/-- An SGM engine's aggregation store (R244, R250): the sums of the strip under way by line, column and disparity, with the number of
the free census bits they rest on, and once the outputs are published the shares of their codes that R254 will show. -/
structure SgmStore where
  tie : Nat
  sums : List Nat
  shares : List Nat
  deriving DecidableEq, Repr

/-- An empty aggregation store. -/
def SgmStore.reset : SgmStore := ⟨0, [], []⟩

/-- Camera ingest, markers, graphs and the verifier. -/
structure Vision where
  streams : Store Stream
  groups : Store PairGroup
  markers : Store Marker
  graphs : Store Graph
  /-- The latest frame start at each receive port. -/
  portStart : Store (Option Stamp)
  /-- Marker operations in order, which number claims and publications. -/
  order : Nat
  /-- Answers to consumers other than graph nodes: agent, marker, generation, answer; latest last. -/
  answers : List (Nat × Nat × Nat × MarkerAnswer)
  /-- What the aggregation stores of SGM_0 and SGM_1 hold (R244). -/
  sgm : Store SgmStore
  verifier : List VerifierJob
  verifying : Option VerifierJob
  jobs : Nat
  /-- The result record returned last, with its requester (Table 6.15). -/
  verifierResult : Option (Nat × List Byte)
  /-- What requesters were told of jobs without a result: requester, JOB_ID and why; latest last. -/
  verifierTold : List (Nat × Nat × VerifierNotice)
  /-- Left-over nanoseconds of each busy-time count, by register address. -/
  busyNs : Store Nat
  deriving DecidableEq, Repr

/-- Nothing ingested, claimed or triggered. -/
def Vision.reset : Vision :=
  { streams := [], groups := [], markers := [], graphs := [], portStart := [], order := 0, answers := [], sgm := [],
    verifier := [], verifying := none, jobs := 0, verifierResult := none, verifierTold := [], busyNs := [] }


/-! ### Memory tiers -/

/-- A durable record (R304, R306): its generation, its bytes, and its first page, counted over the channel's blocks in the numbering of
R444. -/
structure TileRecord where
  gen : Nat
  size : Nat
  first : Nat
  deriving DecidableEq, Repr

/-- An object of DRAM, POOL or FLASH (R301 to R304): bytes of its size, whether it may be evicted, its home tier, whether its
bytes differ from its durable record, that record, the order of its latest access, and its DRAM pages. -/
structure MemObject where
  size : Nat
  evictable : Bool
  home : Nat
  dirty : Bool
  record : Option TileRecord
  access : Nat
  pages : List Nat
  deriving DecidableEq, Repr

/-- An entry of the tile directory, a journal or a checkpoint (Table 9.3). -/
structure DirEntry where
  tile : Nat
  gen : Nat
  size : Nat
  home : Nat
  flags : Nat
  pins : Nat
  loc : Nat
  record : Nat
  deriving DecidableEq, Repr

/-- How a Selvedge word stands (R326, R328): as written or corrected, uncorrectable, or uncorrectable of class LOCATION. -/
inductive WordMark where
  | good
  | ue
  | location
  deriving DecidableEq, Repr

/-- A request to the mover (Table 9.6). -/
inductive MoverKind where
  | promote (tier : Nat) (pin : Bool)
  | evict (tier : Nat)
  | writeback
  | pin
  | unpin
  deriving DecidableEq, Repr

/-- A request with who makes it: a swatch, or none for the space manager. -/
structure MoverRequest where
  holder : Option Nat
  object : Nat
  kind : MoverKind
  deriving DecidableEq, Repr

/-- A move under way (R312): the request it serves, its destination (its own tier for WRITEBACK), the DRAM pages allocated, the
first page of the record it writes, the pages still to copy in this pass, the pages written since they were copied, the passes begun,
and why it is to be abandoned. -/
structure Move where
  request : MoverRequest
  dest : Nat
  pages : List Nat
  record : Option Nat
  todo : List Nat
  dirty : List Nat
  passes : Nat
  abandon : Option Nat
  deriving DecidableEq, Repr

/-- A pin ledger entry (R314): holder swatch, object, count. -/
structure PinEntry where
  holder : Nat
  object : Nat
  count : Nat
  deriving DecidableEq, Repr

/-- An access that waits, for the tile directory (R306) or for a move's final pass (R312): the unit, the object and place, the bytes
to read or the data to write, and the errors the words show. A map tile that its task lengthens as it writes carries its new size and
the DRAM pages allocated for it. -/
structure HeldAccess where
  unit : Nat
  object : Nat
  offset : Nat
  length : Nat
  data : Option (List Byte)
  errors : List (Nat × SymbolErrors)
  undecoded : List Nat
  size : Nat
  pages : List Nat
  deriving DecidableEq, Repr

/-- What an access was answered: its bytes with the words marked uncorrectable, or an object error (R302, R326). -/
structure AccessAnswer where
  unit : Nat
  object : Nat
  offset : Nat
  answer : Option (List Byte × List Nat)
  deriving DecidableEq, Repr

/-- The mover, the objects and the Selvedge code's marks. Bytes are keyed by object × 2^40 + offset, words by object × 2^40 +
offset / 32; an unlisted byte is zero, an unlisted word correctable. -/
structure Memory where
  objects : Store (Option MemObject)
  bytes : Store Byte
  bad : Store WordMark
  /-- Durable records on the NAND channels: what they hold and which of their words are uncorrectable. -/
  recordBytes : Store Byte
  recordBad : Store WordMark
  /-- Journals, and the two checkpoint areas of each channel with which is newer (R306). -/
  journal : Store (List DirEntry)
  ckptA : Store (Option (List DirEntry))
  ckptB : Store (Option (List DirEntry))
  ckptNewer : Store Bool
  /-- Pages programmed in each block of a tile region, by channel × 2^32 + block (R306). -/
  programmed : Store Nat
  move : Option Move
  waiting : List MoverRequest
  pins : List PinEntry
  held : List HeldAccess
  /-- The tiers in which the space manager has begun to make room and has not reached its stop level (R316). -/
  managing : Store Bool
  /-- Results of the latest mover command: request and Table 9.7 code. -/
  results : List (MoverRequest × Nat)
  /-- What the latest command answered to accesses, in their order. -/
  delivered : List AccessAnswer
  accesses : Nat
  /-- The patrol scrub's next data word (R329). -/
  scrub : Nat
  /-- Refresh rate of each interface as MR4 gave it (R307). -/
  refresh : Store Nat
  /-- DRAM pages below the reserved areas, and the bytes of the reload area (R307). -/
  dramPages : Nat
  reload : Nat
  deriving DecidableEq, Repr

/-- No object declared, nothing stored. -/
def Memory.reset : Memory :=
  { objects := [], bytes := [], bad := [], recordBytes := [], recordBad := [], journal := [], ckptA := [], ckptB := [],
    ckptNewer := [], programmed := [], move := none, waiting := [], pins := [], held := [], managing := [], results := [],
    delivered := [], accesses := 0, scrub := 0, refresh := [], dramPages := 0, reload := 0 }


/-! ### Neural fabric -/

/-- A running request (R290): its node, program, group of cores and step; the chunks each core has loaded, whether it has started,
whether the last step is complete, and whether brown hold touched it; the chunks of each core's list whose passes have ended, the
FP32 outputs that those passes of the present step have formed, and since when its service is not yet counted (R295). -/
structure NeuralRun where
  graph : Nat
  node : Nat
  program : Nat
  base : Nat
  cores : Nat
  step : Nat
  loaded : Store Nat
  started : Bool
  complete : Bool
  brown : Bool
  ended : Store Nat
  values : Store Word
  since : Stamp
  deriving DecidableEq, Repr

/-- A queued request (R288). -/
structure NeuralRequest where
  graph : Nat
  node : Nat
  program : Nat
  cores : Nat
  deadline : Stamp
  deriving DecidableEq, Repr

/-- The dispatcher's queue, what runs, the reservation as graph, node, base and size (R289), and the arenas' written bytes: the
activation stores of the cores at core × 2^21 + offset, and what requests have written of LPDDR5X arenas. `halves` are the weight
window's halves, half h of core n at 2n + h, with the chunk loaded into each (R282); `serial` counts the requests ended, `stallEnd`
is when the latest wait for a budget grant ended (R298). -/
structure Neural where
  queue : List NeuralRequest
  running : List NeuralRun
  reserved : Option (Nat × Nat × Nat × Nat)
  arena : Store (Option Byte)
  halves : Store (List Byte)
  serial : Nat
  stallEnd : Option Stamp
  deriving DecidableEq, Repr

/-- Nothing queued or running. -/
def Neural.reset : Neural := ⟨[], [], none, [], [], 0, none⟩



/-! ### Tracking and fusion -/

/-- An IMU sample as TRACK keeps it: its time of validity and its 12 raw bytes (R344). -/
structure ImuSample where
  tov : Int
  raw : List Byte
  deriving DecidableEq, Repr

/-- One IMU in TRACK (R345, R368): its newest sample, those from the last cut-off's on, and the samples counted in the second
of device time that holds the latest and in the one before; `ahead` is set where a sample written by the last cut-off lies after
it (R346). -/
structure ImuTrack where
  samples : List ImuSample
  second : Nat
  count : Nat
  before : Nat
  ahead : Bool
  deriving DecidableEq, Repr

/-- An IMU without a sample. -/
def ImuTrack.reset : ImuTrack := ⟨[], 0, 0, 0, false⟩

/-- A joint's record with its frame's time of validity (R349): CONTACT, and POSITION, VELOCITY and EFFORT. -/
structure JointRecord where
  tov : Int
  contact : Bool
  position : Word
  velocity : Word
  effort : Word
  deriving DecidableEq, Repr

/-- What TRACK keeps of a SOURCE: the SEQUENCE of its previous frame and the time of validity of the last it used. -/
structure JointSource where
  sequence : Option Nat
  tov : Option Int
  deriving DecidableEq, Repr

/-- A source never heard. -/
def JointSource.reset : JointSource := ⟨none, none⟩

/-- A feature track entry (Table 10.9); state 0 is FREE, and the reuse count outlives the track. -/
structure FeatureTrack where
  reuse : Nat
  set : Nat
  state : Nat
  misses : Nat
  depthValid : Bool
  predValid : Bool
  length : Nat
  birth : Nat
  x : Nat
  y : Nat
  predX : Nat
  predY : Nat
  rho : Nat
  sigma : Nat
  tov : Int
  deriving DecidableEq, Repr

/-- A slot never used. -/
def FeatureTrack.reset : FeatureTrack := ⟨0, 0, 0, 0, false, false, 0, 0, 0, 0, 0, 0, 0, 0, 0⟩

/-- An object track (R360, R362): state 0 FREE, 1 TENTATIVE, 2 CONFIRMED, 3 COASTING; p and v, and the covariance in row
order, in FP32, and the time they are of; `tov` is the time of the last hit. -/
structure ObjectTrack where
  reuse : Nat
  state : Nat
  cls : Nat
  score : Nat
  hits : Nat
  extrap : Bool
  pv : List Word
  cov : List Word
  size : Word
  tov : Int
  updated : Int
  deriving DecidableEq, Repr

/-- A slot never used. -/
def ObjectTrack.reset : ObjectTrack := ⟨0, 0, 0, 0, 0, false, [], [], 0, 0, 0⟩

/-- A detection that has been placed: its row's place in the list, class, score, size, whether its pose was extrapolated, and its
place in the map frame with the measurement covariance by rows, in FP32. -/
structure Detection where
  index : Nat
  cls : Nat
  score : Nat
  size : Word
  extrap : Bool
  place : List Word
  noise : List Word
  deriving DecidableEq, Repr

/-- An update of a feature or object set (R354): its activation, and the copy, marker and generation of each buffer it reads
and of the POINTS copy it claimed. The oldest update of a set has started; `due` is when the next activation's deadline falls if
that activation starts a period after this one. `rows` and `pairs` are the assignment unit's rows and their columns, once it has answered. -/
structure TrackUpdate where
  object : Bool
  set : Nat
  graph : Nat
  activation : Nat
  started : Bool
  due : Stamp
  instant : Nat
  sequence : Nat
  tov : Int
  stale : Bool
  ins : List (Option (Nat × Nat × Nat))
  points : Option (Nat × Nat × Nat)
  brown : Bool
  rows : List Detection
  pairs : Option (List (Option Nat))
  deriving DecidableEq, Repr

/-- What a feature set keeps between updates: its last completed update's time of validity, and its keyframes (R357). -/
structure FeatureSetState where
  lastTov : Option Int
  keyframes : Nat
  since : Nat
  keySequence : Nat
  keyActive : Nat
  deriving DecidableEq, Repr

/-- A set without an update. -/
def FeatureSetState.reset : FeatureSetState := ⟨none, 0, 0, 0, 0⟩

/-- A pose of the pose history (R359): its time of validity, quaternion and translation, and velocities, FP32 words. -/
structure PoseEntry where
  tov : Stamp
  pose : List Word
  velocity : List Word
  deriving DecidableEq, Repr

/-- The state of TRACK: samples delivered by the IMU port, the IMUs, joints and sources, the terms published last, the
propagating IMU of the period before within one run of the loop, the cut-offs (the latest; the latest of this run; the one
before it, where the present terms begin), the track tables, the updates in progress, and the batches
published last with their number, keyed by role × 16 + set. -/
structure Tracking where
  arrived : List (Nat × Stamp × List Byte)
  imus : Store ImuTrack
  joints : Store (List JointRecord)
  sources : Store JointSource
  lastCutoff : Option Stamp
  runCutoff : Option Stamp
  termFrom : Option Stamp
  propagated : Option (Option Nat)
  terms : List (List Byte)
  legs : List (List Byte)
  features : Store FeatureTrack
  objects : Store ObjectTrack
  poses : List PoseEntry
  updates : List TrackUpdate
  sets : Store FeatureSetState
  batches : Store (List Byte)
  batchCount : Nat
  deriving DecidableEq, Repr

/-- Nothing tracked. -/
def Tracking.reset : Tracking :=
  { arrived := [], imus := [], joints := [], sources := [], lastCutoff := none, runCutoff := none, termFrom := none, propagated := none, terms := [], legs := [],
    features := [], objects := [], poses := [], updates := [], sets := [], batches := [], batchCount := 0 }


/-! ### Solver fabric, estimation and control -/

/-- A template entry (R384): OP, value slot, and the two input word indices. -/
structure TemplateEntry where
  op : Nat
  dst : Nat
  a : Nat
  b : Nat
  deriving DecidableEq, Repr

/-- A structure as its descriptor gives it (R375), with what the analysis of R376 finds: the stored rows below each pivot, OPS,
HEIGHT and NNZ_A. -/
structure Structure where
  kind : Nat
  flags : Nat
  n : Nat
  n1 : Nat
  nnzK : Nat
  nnzL : Nat
  supernodes : Nat
  segs : List (Nat × Nat)
  signature : Nat
  inputWords : Nat
  deltaCap : Nat
  colPtr : List Nat
  rows : List Nat
  perm : List Nat
  starts : List Nat
  template : List TemplateEntry
  below : List (List Nat)
  ops : Nat
  height : Nat
  nnzA : Nat
  deriving DecidableEq, Repr

/-- A working matrix: the entries of its lower triangle by original row and column (R382). -/
abbrev Matrix := List (Nat × Nat × Fp)

/-- A factor in pivot order (R387): D, the entries stored below each pivot, the diagonal terms it was formed with, and whether it
is proved. -/
structure Factor where
  d : List Fp
  cols : List (List (Nat × Fp))
  diag : List Fp
  proved : Bool
  deriving DecidableEq, Repr

/-- A slot (R374, R378): its residency code, whether LOAD filled it, its structure while resident, its value array, whether a
matrix value was written since the current factor was formed, the current factor, and the one in the other area (R389). -/
structure SolverSlot where
  code : Nat
  runtime : Bool
  struct : Option Structure
  values : Store Word
  dirty : Bool
  factor : Option Factor
  other : Option Factor
  deriving DecidableEq, Repr

/-- A slot with nothing loaded. -/
def SolverSlot.empty : SolverSlot := ⟨0, false, none, [], true, none, none⟩

/-- A problem request (Table 11.7). -/
structure SolverRequest where
  slot : Nat
  feed : Nat
  flags : Nat
  iterMax : Nat
  refactMax : Nat
  feedObj : Nat
  deltaCount : Nat
  warmObj : Nat
  deadline : Stamp
  tov : Stamp
  params : List Byte
  deriving DecidableEq, Repr

/-- Who asks for a problem: the Class A sequencer, the window task for its window or its marginalisation, the map task. -/
inductive SolverTask where
  | classA | window | marginal | map
  deriving DecidableEq, Repr

/-- A solve with the matrix and the factor it was made with: right-hand side and solution, FP64, in original indices. -/
structure Solve where
  matrix : Matrix
  factor : Factor
  rhs : List Fp
  sol : List Fp
  deriving DecidableEq, Repr

/-- What a problem waits for next. -/
inductive SolverStage where
  | assembly | factor | solve | judge | proof | final
  deriving DecidableEq, Repr

/-- The iterates of a QP (R434): x, z and y. -/
structure Iterate where
  x : List Fp
  z : List Fp
  y : List Fp
  deriving DecidableEq, Repr

/-- A running problem (R397 to R406): the request and what of it has run. `inputs` and `deltas` are a Class A problem's feed;
`proofs` are first solves whose residual
check still runs, `steps` the units of work done; `kept`, `point`, `from_`, `lambda`, the costs and `accepted` are those of NLS:
the solve of the last accepted step, the point it reached and the one it left. -/
structure Problem where
  request : SolverRequest
  task : SolverTask
  number : Nat
  phase : Nat
  stage : SolverStage
  cycles : Nat
  ns : Nat
  waitNs : Nat
  pausedAt : Stamp
  brown : Bool
  warmRejected : Bool
  skipped : Bool
  refactored : Bool
  checkFail : Bool
  pivotCol : Option Nat
  iterations : Nat
  refactors : Nat
  refineSteps : Nat
  eta : Option Fp
  inputs : List Word
  deltas : List (Nat × Word)
  warm : Option (Nat × Iterate)
  proofs : List Solve
  steps : Nat
  last : Option Solve
  kept : Option Solve
  cur : Iterate
  prev : Iterate
  rho : List Fp
  rp : Fp
  rd : Fp
  full : Bool
  acceptable : Bool
  cert : Nat
  ended : Bool
  point : List Word
  from_ : List Word
  lambda : Fp
  costFirst : Fp
  cost : Fp
  accepted : Nat
  deriving DecidableEq, Repr

/-- The end of a problem (R398, R399): status, the phase it was stopped in, and its record; a QP's iterates beside it. -/
structure SolverResult where
  task : SolverTask
  status : Nat
  record : List Byte
  compared : List Byte
  brown : Bool
  signature : Nat
  warmRejected : Bool
  iterate : Iterate
  deriving DecidableEq, Repr

/-- A LOAD in progress (R380): slot, descriptor object, values object, and whether the map task asked for it. -/
structure SolverLoad where
  slot : Nat
  descriptor : Nat
  values : Nat
  map : Bool
  deriving DecidableEq, Repr

/-- A Class A stop point of SOLV_0 (R405): the phase, the units of work done in all, whether the factor was proved, and whether
SOLV_1 has received it. -/
structure StopPoint where
  phase : Nat
  steps : Nat
  proved : Bool
  received : Bool
  deriving DecidableEq, Repr

/-- Both cores (R372 to R415): slots by core × 8 + slot, the problem each runs, the one SOLV_1 has suspended, its queue, the
problems each has started, a Class A stop point sent to SOLV_1, each core's Class A result of
the period, and the latest record of each task. -/
structure Solvers where
  slots : Store SolverSlot
  running : Store (Option Problem)
  suspended : Option Problem
  queue : List (SolverTask × SolverRequest)
  loading : Option SolverLoad
  numbers : Store Nat
  stopPoint : Option StopPoint
  formed : Store (Option SolverResult)
  told : List (SolverTask × List Byte)
  deriving DecidableEq, Repr

/-- Nothing resident, nothing asked. -/
def Solvers.reset : Solvers := ⟨[], [], none, [], none, [], none, [], []⟩

/-- A prior record (R426): the anchor's period and time, dimension, flags, age, the points μ and the trailing D and L, FP32. -/
structure PriorRecord where
  period : Nat
  anchor : Stamp
  dim : Nat
  flags : Nat
  age : Nat
  mu : List Word
  tail : List Word
  deriving DecidableEq, Repr

/-- The held solution (R438): its signature, payload and shift counter. -/
structure HeldSolution where
  signature : Nat
  iterate : Iterate
  shift : Nat
  deriving DecidableEq, Repr

/-- The Class A work of a period (R35): its number, cut-off and launch, whether a prior was adopted, the estimate's flags, record and age once published,
the problem's end, and whether the frames are placed. -/
structure PeriodWork where
  period : Nat
  cutoff : Stamp
  launch : Stamp
  adopted : Bool
  propagated : Bool
  flags : Nat
  words : List Word
  published : Bool
  result : Option SolverResult
  compared : Bool
  ready : Bool
  built : Bool
  suspect : Bool
  brown : Bool
  deriving DecidableEq, Repr

/-- A propagating term (R347) with its period and the words of the biases it was formed with, none before the first publication
(R345). -/
structure StoredTerm where
  period : Nat
  bias : List Word
  bytes : List Byte
  deriving DecidableEq, Repr

/-- The Class A sequencer (R431 to R441): the slot in use and one refused since SLOT last changed, the prior in use, one
published and when, the last 128 stored terms, the terms of the running composition where there is one, the parameters of the last
update, the held solution and one whose signature
no longer fits, consecutive fallbacks, ALIVE of each frame entry, the record of the period before, and the work of this period. -/
structure ClassA where
  slot : Option Nat
  refused : Option Nat
  prior : Option PriorRecord
  offered : Option (PriorRecord × Stamp)
  terms : List StoredTerm
  span : Option (List StoredTerm)
  params : List Word
  held : Option HeldSolution
  stale : Option HeldSolution
  fallbacks : Nat
  alive : Store Nat
  words : List Word
  work : Option PeriodWork
  deriving DecidableEq, Repr

/-- Before the first period. -/
def ClassA.reset : ClassA := ⟨none, none, none, none, [], none, [], none, none, 0, [], [], none⟩

/-- An estimate record with the legs and the propagating term of its period, none where there was none (R418). -/
structure EstimateEntry where
  period : Nat
  cutoff : Stamp
  words : List Word
  legs : List (List Byte)
  term : Option StoredTerm
  flags : Nat
  deriving DecidableEq, Repr

/-- A frame of the window (R423): the estimate of its cut-off, its batch, and its order among all frames. -/
structure WindowFrame where
  estimate : EstimateEntry
  batch : List Byte
  order : Nat
  deriving DecidableEq, Repr

/-- The sliding window (R423 to R426): recent estimates, frames oldest first, landmark slots with their track and host frame,
frames ever taken, the batches waiting for their run and the one of the run in progress (each with its deadline and the keypoint
records of its keyframe), the point with which the next problem starts, the final point of the last run, and the prior of the last
marginalisation: its trailing factor and its point. -/
structure Window where
  estimates : List EstimateEntry
  frames : List WindowFrame
  landmarks : Store (Option (Nat × Nat))
  count : Nat
  waiting : List (Stamp × Nat × List Byte)
  running : Option (Stamp × Nat × List Byte)
  point : List Word
  final : List Word
  prior : List Byte
  mu : List Word
  deriving DecidableEq, Repr

/-- A window without a frame. -/
def Window.reset : Window := ⟨[], [], [], 0, [], none, [], [], [], []⟩

/-- A keyframe that is to become a node (R427): q and t of the window's final pose, the batch, and its keypoint records. -/
structure NewNode where
  pose : List Word
  batch : List Byte
  keypoints : Nat
  deriving DecidableEq, Repr

/-- The map task (R427 to R430): keyframes that wait to become nodes, the node made last with its pose, the nodes made by keyframe
number, the cells pinned, the place queries to submit (keyframe object, records, deadline), the candidates still to verify, the
first being verified, an admission not yet optimised, the nodes of the pose graph built, in order, and where its model begins in
SCRATCH_OBJ. -/
structure MapTask where
  waiting : List NewNode
  last : Option (Nat × NewNode)
  nodes : List (Nat × Nat)
  keyframes : Nat
  pinned : List Nat
  places : List (Nat × Nat × Stamp)
  candidates : List Nat
  admitted : Bool
  graph : List Nat
  modelAt : Nat
  deriving DecidableEq, Repr

/-- No node made. -/
def MapTask.reset : MapTask := ⟨[], none, [], 0, [], [], [], false, [], 0⟩

/-! ### Place search -/

/-- A commit record (Table 13.3). -/
structure CommitRecord where
  epoch : Nat
  total : Nat
  crc : Nat
  deriving DecidableEq, Repr

/-- A block table (R448): TABLE_SEQ and the bad blocks of both regions of the index on a channel. -/
structure BlockTable where
  seq : Nat
  bad : List Nat
  deriving DecidableEq, Repr

/-- A query descriptor (Table 13.6); the vector is FP16 values, or the bytes of a Hamming code. -/
structure QueryDesc where
  id : Nat
  index : Nat
  metric : Nat
  mode : Nat
  nprobe : Nat
  k : Nat
  mask : Nat
  value : Nat
  vector : List Nat
  weights : List Nat
  deriving DecidableEq, Repr

/-- A page a context has still to scan: its list, that list's coarse distance, the global page, and the records on it. -/
structure PendingPage where
  list : Nat
  base : Fp
  page : Nat
  records : Nat
  deriving DecidableEq, Repr

/-- The states of Table 13.7 but FREE. -/
inductive ContextState where
  | coarse | scan | held
  deriving DecidableEq, Repr

/-- A result entry: ID, distance, tag. -/
structure SearchEntry where
  id : Nat
  dist : Fp
  tag : Nat
  deriving DecidableEq, Repr

/-- A context of a query on one channel (R457, R460, R461). -/
structure SearchContext where
  state : ContextState
  pending : List PendingPage
  kept : List SearchEntry
  deriving DecidableEq, Repr

/-- Who asked: a place query, or the recall probe with the true IDs of its entry, or another unit. -/
inductive QuerySource where
  | direct
  | place
  | probe (truth : List Nat)
  deriving DecidableEq, Repr

/-- A query in the admission queue or admitted (R456 to R462): its arrival number, class, the epoch it is pinned to, and its
contexts by channel. -/
structure Query where
  number : Nat
  desc : QueryDesc
  source : QuerySource
  classC : Bool
  deadline : Stamp
  region : Bool
  epoch : Nat
  contexts : Store (Option SearchContext)
  pages : Nat
  uePages : Nat
  trunc : Bool
  brown : Bool
  deriving DecidableEq, Repr

/-- How a query of a place query ended: its status, flags, epoch and entries. -/
structure PlaceAnswer where
  status : Nat
  flags : Nat
  epoch : Nat
  entries : List SearchEntry
  deriving DecidableEq, Repr

/-- A place query in progress (R464, R465): queries formed, and the answers so far. -/
structure PlaceQuery where
  formed : Nat
  answers : List PlaceAnswer
  deriving DecidableEq, Repr

/-- A run of the recall probe (R471): its object, COUNT, K_TRUTH, STRIDE, and the next entry to submit. -/
structure ProbeRun where
  obj : Nat
  count : Nat
  truth : Nat
  stride : Nat
  next : Nat
  deriving DecidableEq, Repr

/-- The steps of an import after BEGIN (R454). -/
inductive ImportStep where
  | waiting | erasing | writing | committing
  deriving DecidableEq, Repr

/-- An import (R454): index, target region, epoch header, next page, the first page the next directory entry is to have, and the
message that drives it. -/
structure Import where
  index : Nat
  region : Bool
  header : List Byte
  step : ImportStep
  next : Nat
  listNext : Nat
  alive : Nat
  arrival : Stamp
  deriving DecidableEq, Repr

/-- The indexes, their flash and the front end (R446 to R471). Epochs' bytes are keyed by ((index × 2 + region) × 2^32 + global
page) × 2^14 + data byte; commit records and block tables by (index × 2 + region) × 16 + channel; the engines' codebooks by
(index × 2 + region) × 2^40 + byte, their uncorrectable words likewise by word; factory marks by channel. -/
structure Search where
  flash : Store Byte
  commits : Store (Option CommitRecord)
  tables : Store (Option BlockTable)
  marks : Store (List Nat)
  /-- Blocks that failed and enter the table at the next import: channel and block. -/
  failed : List (Nat × Nat)
  books : Store Byte
  badBooks : Store Bool
  arrivals : Nat
  queue : List Query
  active : List Query
  /-- The latest result delivered to a unit other than the place front end and the probe (Table 13.9). -/
  result : List Byte
  place : Option PlaceQuery
  /-- The latest place result (Table 13.10). -/
  placeResult : List Byte
  probe : Option ProbeRun
  importing : Option Import
  deriving DecidableEq, Repr

/-- No epoch stored, no query. -/
def Search.reset : Search :=
  { flash := [], commits := [], tables := [], marks := [], failed := [], books := [], badBooks := [], arrivals := 0,
    queue := [], active := [], result := [], place := none, placeResult := [], probe := none, importing := none }


/-! ### Host links -/

/-- Where an offered product stands (R486, R488): its body already copied, or the copy of SRC_A with its generation. -/
inductive TxSource where
  | copied (body : List Byte)
  | image (copy gen : Nat)
  deriving DecidableEq, Repr

/-- A publication that a transmit stream is to send (R486): its flags, time of validity, age at publication in 2^-16 ns, the moment
of its publication, and the period of a POSE. -/
structure TxOffer where
  stream : Nat
  source : TxSource
  flags : Nat
  tov : Stamp
  age : Nat
  published : Stamp
  period : Option Nat
  deriving DecidableEq, Repr

/-- A payload a transmit stream is sending (R485 to R488): its body, before which the header stands once its first packet has
started; the markers and generations acquired for it; its packets, and whether it ends after the one in progress; the lines of the frame
store that follow the bytes, as places and lengths (R486); and the SEQUENCE it carries. -/
structure TxPayload where
  bytes : List Byte
  flags : Nat
  tov : Stamp
  age : Nat
  published : Stamp
  period : Option Nat
  holds : List (Nat × Nat)
  sent : Nat
  packets : Nat
  started : Bool
  cut : Bool
  deadline : Option Stamp
  lines : List (Nat × Nat)
  number : Nat
  deriving DecidableEq, Repr

/-- One transmit stream (R482 to R488): whether LOSS is owed to its next payload, publications seen since cast-on lock, and the
payloads begun (R480). -/
structure TxStream where
  enabled : Bool
  payload : Option TxPayload
  loss : Bool
  ordinal : Nat
  sequence : Nat
  deriving DecidableEq, Repr

/-- A stream not in use. -/
def TxStream.idle : TxStream := ⟨false, none, false, 0, 0⟩

/-- What a transmit port has sent last (R482, R485): a long packet of a stream, its virtual channel and data type, the frame number of
the frame start packet before it where it is its payload's first, and whether a frame end packet follows. A frame end that follows no
packet carries no bytes. -/
structure TxPacket where
  stream : Nat
  channel : Nat
  dataType : Nat
  frameStart : Option Nat
  bytes : List Byte
  frameEnd : Bool
  deriving DecidableEq, Repr

/-- One transmit port: the stream whose packet is on the wire, and what was sent last. -/
structure TxPort where
  busy : Option Nat
  wire : Option TxPacket
  deriving DecidableEq, Repr

/-- A port with nothing on the wire. -/
def TxPort.idle : TxPort := ⟨none, none⟩

/-- A durable record on its way out (R488): tile, generation, bytes, when its journal entry was programmed, and the flags then. -/
structure TileDelta where
  tile : Nat
  gen : Nat
  bytes : List Byte
  tov : Stamp
  flags : Nat
  deriving DecidableEq, Repr

/-- A command status record (R496). -/
structure StatusRecord where
  dt : Nat
  result : Nat
  detail : Nat
  alive : Nat
  arrival : Stamp
  /-- When the record was made (R488). -/
  made : Stamp
  deriving DecidableEq, Repr

/-- A tile assembly in progress (R494): its staged bytes, the DRAM pages allocated, and the message it last took. -/
structure TileAssembly where
  tile : Nat
  total : Nat
  bytes : List Byte
  pages : List Nat
  alive : Nat
  arrival : Stamp
  deriving DecidableEq, Repr

/-- A delta list waiting for its first cut-off (R493). -/
structure DeltaList where
  slot : Nat
  /-- Entry words: indices and values (R383). -/
  entries : List (Nat × Word)
  alive : Nat
  arrival : Stamp
  published : Stamp
  /-- Its first cut-off has fallen. -/
  seen : Bool
  deriving DecidableEq, Repr

/-- A body message accepted by the decoder and waiting for its own step (R493 to R495). -/
structure CommandBody where
  dt : Nat
  body : List Byte
  alive : Nat
  arrival : Stamp
  /-- When its checks were complete (R31). -/
  checked : Stamp
  deriving DecidableEq, Repr

/-- A page in the import buffer of HOST (R495). -/
structure ImportItem where
  sub : Nat
  index : Nat
  number : Nat
  data : List Byte
  alive : Nat
  arrival : Stamp
  deriving DecidableEq, Repr

/-- A read of an IMU waiting for its bus or running (R505). -/
structure ImuRead where
  imu : Nat
  stamp : Stamp
  deriving DecidableEq, Repr

/-- The links of the HOST and IMU swatches (R479 to R505). -/
structure Links where
  /-- The target answers (from step 3 of R110, while HOST is not in reset). -/
  readPointer : Word
  maxWrite : Nat
  maxRead : Nat
  streams : Store TxStream
  txPorts : Store TxPort
  status : List StatusRecord
  statusLoss : Bool
  /-- The tile delta buffer (R488). -/
  tileDelta : List TileDelta
  /-- The room its buffer keeps for the record being written (R488). -/
  tileRoom : Option Nat
  tileLoss : Bool
  /-- Publications selected and not yet taken up. -/
  offers : List TxOffer
  /-- Command channel (R490 to R497). -/
  cmdActive : Bool
  cmdAlive : Store (Option Nat)
  bodies : List CommandBody
  deltas : List DeltaList
  target : List Word
  targets : List (Stamp × List Word)
  assembly : Option TileAssembly
  importBuffer : List ImportItem
  /-- IMU ports: position in the initialisation list, waiting and running reads by bus (false I3C). -/
  initNext : Nat
  initRunning : Bool
  initAddressed : List Nat
  imuWaiting : List ImuRead
  imuI3c : Option ImuRead
  imuSpi : Option ImuRead
  /-- The bytes of the controllers' latest write: IMU, register, value. -/
  imuWrote : Option (Nat × Nat × Nat)
  ospiDriven : Bool
  deriving DecidableEq, Repr

/-! ### Power and resets -/

/-- The power states of R525; HIBERNATE has no register code. -/
inductive PowerState where
  | run | doze | nap | hibernate
  deriving DecidableEq, Repr

/-- A transition in progress (R526 to R531). -/
inductive Transition where
  | entry (target : PowerState)
  | wake (target : PowerState)
  deriving DecidableEq, Repr

/-- Budget governor, brown hold and power states (R513 to R532). -/
structure Power where
  /-- Governor average in W, and whether its first interval has ended (R514). -/
  avg : Rat
  started : Bool
  calm : Nat
  floorEpisode : Bool
  transition : Option Transition
  /-- A wake event held until the entry ends (R530). -/
  heldWake : Option PowerState
  /-- HIBERNATE follows when bind-off completes. -/
  hibernateNext : Bool
  /-- Wake settings in force at entry: TIN0_EN, TIN0_EDGE, TIME_EN, SLEEP_S, wake time (R530). -/
  wakeTin0 : Bool
  wakeFalling : Bool
  wakeTime : Option Stamp
  wakeSleep : Nat
  /-- HIBERNATE holds, or its power-up runs. -/
  hibernating : Bool
  poweringUp : Bool
  /-- The loop is stopped for NAP, and its swatches gated (R528). -/
  napLoopStopped : Bool
  /-- LPDDR5X is in self-refresh or deep power-down (R525). -/
  selfRefresh : Bool
  deepPowerDown : Bool
  /-- NAND program and erase are suspended by brown hold (R522). -/
  nandHeld : Bool
  deriving DecidableEq, Repr

/-- The resets and what holds them (R533 to R535, R584 to R587, R594). -/
inductive ResetKind where
  | cold | warm
  deriving DecidableEq, Repr

/-- Reset controller, supplies and test pins. -/
structure Resets where
  active : Option ResetKind
  /-- The cause to record when the reset ends, and the PLL for PLL_UNLOCK (R535, R543). -/
  cause : Nat
  pll : Nat
  /-- A warm reset owed 10 µs after its fault (R556): cause, PLL, device time. -/
  due : Option (Nat × Nat × Stamp)
  refclkAbsent : Bool
  badRails : List Rail
  testEn : Bool
  /-- Boundary scan: instruction in force, boundary register, TRST_N (R594). -/
  tapInstruction : Nat
  boundary : Nat
  trstLow : Bool
  /-- Boundary scan drives the pins: the pattern, or high impedance. -/
  scanDrives : Option Nat
  scanHighZ : Bool
  deriving DecidableEq, Repr

/-- The output pins (R93, R599). -/
structure Pins where
  devReady : Bool
  /-- Every output holds its cold-reset state. -/
  coldState : Bool
  deriving DecidableEq, Repr

/-! ### Integrity -/

/-- A message open on a check unit (R545 to R548): feeding point 0 frame builder, 1 HOST decoders, 2 register feed. -/
structure CheckMessage where
  point : Nat
  verify : Bool
  bytes : Nat
  crc : Nat
  context : Option (Nat × Nat)
  expected : Word
  closed : Bool
  deriving DecidableEq, Repr

/-- One check unit (R544 to R548). -/
structure CheckUnit where
  message : Option CheckMessage
  waiting : List CheckMessage
  alive : Store (Option Nat)
  deriving DecidableEq, Repr

/-- A unit with no message, and no context valid. -/
def CheckUnit.idle : CheckUnit := ⟨none, [], []⟩

/-- Faults, watchdogs, snapshots (R551 to R563). -/
structure Integrity where
  units : Store CheckUnit
  /-- Flits sent and not yet handled by a node, oldest first. -/
  flits : List FaultFlit
  /-- Latch and duplicate count of node × 32 + cause (R553). -/
  nodes : Store (Bool × Nat)
  /-- Causes whose window is open at the root, with the device time of their CLOSE (R554). -/
  windows : List (Nat × Stamp)
  /-- Fault log words (R557). -/
  log : Store Word
  loopArmed : Bool
  hostArmed : Bool
  /-- Pending snapshot time, and the series period in ms (R560). -/
  snapAt : Option Stamp
  snapPeriod : Nat
  /-- A snapshot taken, its mirror not yet complete; any swatch absent. -/
  snapTaken : Option Bool
  /-- The latest snapshot's time, and whether CLOCK_FAULT stood then (R480). -/
  snapTime : Stamp
  snapSuspect : Bool
  deriving DecidableEq, Repr

/-! ### The state -/

/-- The block. Registers hold their words in `regs` as the difference from the Reset value, so that an unlisted register
reads its Reset value; SNAP shadows stand in `shadow`. -/
structure State where
  regs : Store Word
  shadow : Store Word
  /-- The model's own counter of free choices taken. -/
  fresh : Nat
  out : Output
  ports : Ports
  sw : Swatches
  cast : CastOn
  loop : Loop
  time : TimeBase
  eth : Store EthPort
  timers : Timers
  /-- Bytes of every object within a swatch's SRAM, keyed by swatch, object and offset (R101); an unlisted byte is zero (R81). -/
  sram : Store Byte
  /-- Bytes loaded into each object, by swatch and object. -/
  sramLen : Store Nat
  /-- SRAM words that are uncorrectable (R328), by swatch × 2^40 + address / 32. -/
  sramBad : Store WordMark
  vis : Vision
  mem : Memory
  neural : Neural
  track : Tracking
  solv : Solvers
  clsA : ClassA
  window : Window
  map : MapTask
  srch : Search
  links : Links
  power : Power
  resets : Resets
  pins : Pins
  integ : Integrity
  /-- Commands waiting, first in first out. -/
  pending : List Instr
  deriving DecidableEq, Repr

/-- No port holds anything. -/
def Ports.reset : Ports := ⟨[], []⟩

/-- Nothing has been answered. -/
def Output.reset : Output := ⟨[], none, []⟩

/-- From the start of FUSE_SENSE every swatch but SYS, PWR, INTEG, TIME, ETH, IMU and HOST is held in reset (R112). -/
def Swatches.reset : Swatches :=
  { inReset := 0xFFFFFFFFFF80#48, gated := 0, step := [], phase := [], requests := [], crossing := [], strobes := [],
    sysOnRefclk := true, partnerReset := [], delivered := [], requested := [], waiting := [], turn := [] }

/-- Cast-on at the start of FUSE_SENSE. -/
def CastOn.reset : CastOn :=
  { step := .fuseSense, fuseErr := false, bootCounted := false, flashDensity := 0, headA := [], headB := [],
    slot := none, triedA := false, triedB := false, skein := none, nextSection := 0, writes := [],
    regsChecked := false, arithLocked := false, training := false, trained := false, grants := [], castRegs := [],
    kept := [], keptLen := [], autoCommit := false, revoke := false, revokeMask := 0, fuses := [], fusesHeld := false,
    nonce := [], report := [], bindDrained := false }

/-- The loop before its first start: the register resets are the values in force (R41, R42). -/
def Loop.reset : Loop :=
  { grid := false, stopped := none, startAt := none, period := 1000, cutoff := 0, launch := 400, boundary := 0, cutoffAt := 0,
    launchAt := 0, cutoffDone := false, pairedPath := false, resident := false,
    brownSeen := false }

/-- Device time has not started (R135). -/
def TimeBase.reset : TimeBase :=
  { running := false, ticks := 0, eras := [], now := 0, acc := 0, inLock := 0, outLock := 0, recover := 0, episode := false, seenSync := false,
    gmRate := 0, stepDue := none, waiting := [], logInterval := 0, announce := [], lockedAt := 0 }

/-- Timers with nothing staged, pending or captured. -/
def Timers.reset : Timers := ⟨[], [], []⟩

/-- The links before anything is sent or received; the I3C lengths are the limits of R498. -/
def Links.reset : Links :=
  { readPointer := 0, maxWrite := 1028, maxRead := 1024, streams := [], txPorts := [], status := [],
    statusLoss := false, tileDelta := [], tileRoom := none, tileLoss := false, offers := [], cmdActive := false, cmdAlive := [],
    bodies := [], deltas := [], target := [], targets := [], assembly := none, importBuffer := [], initNext := 0,
    initRunning := false, initAddressed := [], imuWaiting := [], imuI3c := none, imuSpi := none, imuWrote := none,
    ospiDriven := true }

/-- RUN, with no governor interval ended. -/
def Power.reset : Power :=
  { avg := 0, started := false, calm := 0, floorEpisode := false, transition := none, heldWake := none,
    hibernateNext := false, wakeTin0 := false, wakeFalling := false, wakeTime := none, wakeSleep := 0,
    hibernating := false, poweringUp := false, napLoopStopped := false, selfRefresh := false, deepPowerDown := false,
    nandHeld := false }

/-- No reset in progress; the last one was a power-on. -/
def Resets.reset : Resets :=
  { active := none, cause := 0, pll := 0, due := none, refclkAbsent := false, badRails := [], testEn := false,
    tapInstruction := 0xF, boundary := 0, trstLow := true, scanDrives := none, scanHighZ := false }

/-- DEV_READY low, every output in its cold-reset state (R599). -/
def Pins.reset : Pins := ⟨false, true⟩

/-- No message, report, window, log entry or snapshot. -/
def Integrity.reset : Integrity :=
  { units := [], flits := [], nodes := [], windows := [], log := [], loopArmed := false,
    hostArmed := false, snapAt := none, snapPeriod := 0, snapTaken := none,
    snapTime := 0, snapSuspect := false }

/-- The block right after the release of a cold reset: PHASE FUSE_SENSE, every register at its Reset value, nothing
waiting (R92, R110, R535). -/
def State.reset : State :=
  { regs := [], shadow := [], fresh := 0, out := Output.reset, ports := Ports.reset, sw := Swatches.reset,
    cast := CastOn.reset, loop := Loop.reset, time := TimeBase.reset, eth := [], timers := Timers.reset,
    sram := [],
    sramLen := [],
    sramBad := [],
    vis := Vision.reset,
    mem := Memory.reset,
    neural := Neural.reset,
    track := Tracking.reset,
    solv := Solvers.reset,
    clsA := ClassA.reset,
    window := Window.reset,
    map := MapTask.reset,
    srch := Search.reset,
    links := Links.reset, power := Power.reset, resets := Resets.reset, pins := Pins.reset, integ := Integrity.reset,
    pending := [] }


end Sys2Proof.Machine
end

