-- ==== Sys2Proof/Machine/Store.lean ====
section
/-!
DEFINITION. Reading and writing a sparse store: a lookup that answers the default for an unlisted key, and a write that
keeps the keys strictly rising and lists no default.
-/
namespace Sys2Proof.Machine

/-- The value at a key; `d` is what an unlisted key has. -/
def Store.get {α : Type} (d : α) : Store α → Nat → α
  | [], _ => d
  | (k, v) :: r, a => if k = a then v else Store.get d r a

/-- Drop the entry of a key. -/
def Store.drop {α : Type} : Store α → Nat → Store α
  | [], _ => []
  | (k, v) :: r, a => if k = a then Store.drop r a else (k, v) :: Store.drop r a

/-- Put a value at a key, whether or not it is the default. -/
def Store.put {α : Type} : Store α → Nat → α → Store α
  | [], a, x => [(a, x)]
  | (k, v) :: r, a, x =>
    if k = a then (a, x) :: r else if a < k then (a, x) :: (k, v) :: r else (k, v) :: Store.put r a x

/-- Write a value: a default removes the entry. -/
def Store.set {α : Type} [DecidableEq α] (d : α) (m : Store α) (a : Nat) (x : α) : Store α :=
  if x = d then Store.drop m a else Store.put m a x

/-- Change the value at a key. -/
def Store.upd {α : Type} [DecidableEq α] (d : α) (m : Store α) (a : Nat) (f : α → α) : Store α :=
  Store.set d m a (f (Store.get d m a))

/-- Write consecutive keys. -/
def Store.setMany {α : Type} [DecidableEq α] (d : α) : Store α → Nat → List α → Store α
  | m, _, [] => m
  | m, a, x :: r => Store.setMany d (Store.set d m a x) (a + 1) r

/-- Read n consecutive keys. -/
def Store.getMany {α : Type} (d : α) (m : Store α) (a : Nat) : Nat → List α
  | 0 => []
  | n + 1 => Store.get d m a :: Store.getMany d m (a + 1) n

/-- Whether every key of a list lies above a bound and rises strictly, no entry holding the default. -/
def Store.wfFrom {α : Type} [DecidableEq α] (d : α) : Nat → Store α → Bool
  | _, [] => true
  | lo, (k, v) :: r => decide (lo ≤ k) && decide (v ≠ d) && Store.wfFrom d (k + 1) r

/-- The canonical form: keys strictly rising, no entry equal to what an unlisted key reads as. -/
def Store.wf {α : Type} [DecidableEq α] (d : α) (m : Store α) : Bool := Store.wfFrom d 0 m

end Sys2Proof.Machine
end

