-- ==== Sys2Proof/Machine/Ops.lean ====
section
/-!
DEFINITION. The operations every family shares: reading and writing registers and their fields, device time, interrupts,
fault reports, reset requests, and what a reset keeps.
-/
namespace Sys2Proof.Machine

/-! ### The register map -/

/-- The bits a field occupies. -/
def FieldRow.mask (f : FieldRow) : Word := BitVec.ofNat 32 ((2 ^ (f.hi - f.lo + 1) - 1) * 2 ^ f.lo)

/-- The bits of the fields of a row that satisfy a test. -/
def RegRow.maskOf (r : RegRow) (p : FieldRow → Bool) : Word :=
  r.fields.foldl (fun m f => if p f then m ||| f.mask else m) 0

/-- The Reset value of a register: its fields' values in place, reserved bits zero (R12, R18). -/
def RegRow.resetWord (r : RegRow) : Word :=
  r.fields.foldl (fun m f => m ||| BitVec.ofNat 32 (f.reset * 2 ^ f.lo)) 0

/-- Whether an address is one of a row's registers. -/
def RegRow.holds (r : RegRow) (a : Nat) : Bool :=
  if r.count = 1 then a == r.base
  else decide (r.base ≤ a) && (a - r.base) % r.step == 0 && decide ((a - r.base) / r.step < r.count)

/-- Which instance of a row's array an address is. -/
def RegRow.index (r : RegRow) (a : Nat) : Nat := if r.count = 1 then 0 else (a - r.base) / r.step

/-- The row of a mapped address, or none (R11, R581). -/
def regRow (a : Nat) : Option RegRow := regRows.find? (·.holds a)

/-- The bits of a register whose fields satisfy a test; none where the address is unmapped. -/
def maskAt (a : Nat) (p : FieldRow → Bool) : Word :=
  match regRow a with
  | some r => r.maskOf p
  | none => 0

/-- The Reset value of the register at an address. -/
def resetAt (a : Nat) : Word :=
  match regRow a with
  | some r => r.resetWord
  | none => 0

/-- The swatch that serves a register (R83, R568). The ENG registers lie in the swatch of their engine. -/
def servedBy (a : Nat) : Nat :=
  match regRow a with
  | some r =>
    if reg_ENG_JOBS 0 ≤ a ∧ a ≤ reg_ENG_BUSY 8 then (if r.index a = 8 then 10 else 9 + r.index a % 2)
    else r.sw + r.swStep * r.index a
  | none => 0

/-- Whether an address is the _LO word of a register pair (R13, R14). -/
def isPairLo (a : Nat) : Bool :=
  match regRow a with
  | some r => r.low
  | none => false

/-- Whether an address is the _HI word of a register pair. -/
def isPairHi (a : Nat) : Bool := decide (4 ≤ a) && isPairLo (a - 4)

/-! ### Registers and fields -/

/-- The word a register holds. -/
def State.rawReg (s : State) (a : Nat) : Word := resetAt a ^^^ Store.get 0 s.regs a

/-- The word a register reads as; FUSE fields read zero after FUSE_ERR (R111). -/
def State.reg (s : State) (a : Nat) : Word :=
  if s.cast.fuseErr then s.rawReg a &&& ~~~ maskAt a (·.keeps == .fuse) else s.rawReg a

/-- Put a word into a register. -/
def State.setReg (s : State) (a : Nat) (w : Word) : State :=
  { s with regs := Store.set 0 s.regs a (resetAt a ^^^ w) }

/-- The bits of a field in place. -/
def Fld.mask (f : Fld) : Word := BitVec.ofNat 32 ((2 ^ f.width - 1) * 2 ^ f.lo)

/-- A field's value (R7). -/
def State.fld (s : State) (f : Fld) : Nat := (s.reg f.addr).toNat / 2 ^ f.lo % 2 ^ f.width

/-- A field of one bit as a truth value. -/
def State.flag (s : State) (f : Fld) : Bool := s.fld f == 1

/-- Write a field, the value reduced to its width. -/
def State.setFld (s : State) (f : Fld) (v : Nat) : State :=
  s.setReg f.addr ((s.rawReg f.addr &&& ~~~ f.mask) ||| BitVec.ofNat 32 (v % 2 ^ f.width * 2 ^ f.lo))

/-- Write a field of one bit. -/
def State.setFlag (s : State) (f : Fld) (b : Bool) : State := s.setFld f (if b then 1 else 0)

/-- Add to a counter that saturates. -/
def State.addSat (s : State) (f : Fld) (k : Nat) : State := s.setFld f (min (2 ^ f.width - 1) (s.fld f + k))

/-- Add to a counter that wraps. -/
def State.addWrap (s : State) (f : Fld) (k : Nat) : State := s.setFld f (s.fld f + k)

/-- Raise a worst-case record to a value, saturating. -/
def State.raiseMax (s : State) (f : Fld) (v : Nat) : State := s.setFld f (min (2 ^ f.width - 1) (max (s.fld f) v))

/-- A 64-bit quantity held as a pair whose _LO word lies at `a` (R13). -/
def State.pair (s : State) (a : Nat) : Nat := (s.reg a).toNat + 2 ^ 32 * (s.reg (a + 4)).toNat

/-- Write a pair. -/
def State.setPair (s : State) (a v : Nat) : State :=
  (s.setReg a (BitVec.ofNat 32 v)).setReg (a + 4) (BitVec.ofNat 32 (v / 2 ^ 32))

/-- Take the next free bit. -/
def State.takeBit (s : State) : Bool × State := (Config.freeBit s.fresh, { s with fresh := s.fresh + 1 })

/-- Take the next free word. -/
def State.takeWord (s : State) : BitVec 64 × State := (Config.freeWord s.fresh, { s with fresh := s.fresh + 1 })

/-- An exact value rounded to an integer where the spec states no direction: the integer itself, or one of its two
neighbours. -/
def roundFree (x : Rat) (up : Bool) : Int := if x.den = 1 then x.num else if up then x.floor + 1 else x.floor

/-- An exact value rounded to the nearest integer; the direction of a tie is not stated. -/
def roundNearest (x : Rat) (up : Bool) : Int :=
  let y := x + 1 / 2
  if y.den = 1 ∧ up = false then y.floor - 1 else y.floor

/-! ### Phases and power -/

/-- SEC_STATE.PHASE (Table 3.1). -/
def State.phase (s : State) : Nat := s.fld fld_SEC_STATE_PHASE

def phaseFuseSense : Nat := 0
def phaseProvision : Nat := 1
def phaseCasting : Nat := 2
def phaseFailed : Nat := 3
def phaseRunning : Nat := 4
def phaseBindOff : Nat := 5
def phaseBound : Nat := 6

/-- Enter a phase; DEV_READY is high in RUNNING alone (R92, R93). -/
def State.setPhase (s : State) (p : Nat) : State :=
  { s.setFld fld_SEC_STATE_PHASE p with pins := { s.pins with devReady := p == phaseRunning } }

/-- No reset is in progress, and the device is powered. -/
def State.alive (s : State) : Bool :=
  s.resets.active.isNone && !s.power.hibernating && !s.power.poweringUp && !s.resets.testEn

/-- PWR_STATUS.STATE (Table 15.11): 0 RUN, 1 DOZE, 2 NAP. -/
def State.powerCode (s : State) : Nat := s.fld fld_PWR_STATUS_STATE

/-- An entry to a low-power state is under way. -/
def State.entering (s : State) : Bool := match s.power.transition with | some (.entry _) => true | _ => false

/-- Classes B and C admit new work: RUNNING, in RUN, with no entry to a low-power state under way (R123, R527). -/
def State.admitsWork (s : State) : Bool := s.alive && s.phase == phaseRunning && s.powerCode == 0 && !s.entering

/-- DOZE or NAP holds, or is being entered or left: Class D work is paused, and TILE messages give BUSY (R527, Table 15.3). -/
def State.dozing (s : State) : Bool := s.phase == phaseRunning && (decide (1 ≤ s.powerCode) || s.entering)

/-- The governor's level (Table 15.1). -/
def State.level (s : State) : Nat := s.fld fld_PWR_STATUS_LEVEL

/-- New Class C work is admitted (R517). -/
def State.admitsClassC (s : State) : Bool := s.admitsWork && s.level != 7

/-- The pausable Class D work may go on (R517, R527). -/
def State.runsClassD (s : State) : Bool :=
  s.alive && s.phase == phaseRunning && s.powerCode == 0 && !s.entering && decide (s.level < 2)

/-- PWR_STATUS.BROWN: brown hold lasts (R522). -/
def State.brown (s : State) : Bool := s.flag fld_PWR_STATUS_BROWN

/-! ### Swatches -/

/-- The reset group of a swatch (Table 2.2). -/
def groupOf (n : Nat) : Nat :=
  if n < 4 then 0 else if n < 7 then n + 5 else if n < 9 then 1 else if n < 15 then n - 7 else if n = 15 then 8
  else n - 4

/-- The swatches of a reset group. -/
def groupMembers (g : Nat) : List Nat := (List.range 48).filter (groupOf · == g)

/-- The arithmetic swatches (Table 2.2). -/
def arithSwatch (n : Nat) : Bool := (decide (9 ≤ n) && decide (n ≤ 14)) || decide (32 ≤ n)

/-- The nominal clock of a swatch that is not arithmetic, in MHz (Table 2.2). -/
def fixedMhz (n : Nat) : Nat :=
  if n < 3 then 400 else if n = 3 then 500 else if n = 4 then 450 else if n = 5 then 225 else if n = 6 then 300
  else if n = 7 then 600 else if n = 8 then 800 else if n = 15 then 600 else 450

/-- The frequency of a clock step in MHz (R65). -/
def stepMhz (k : Nat) : Nat := match k with | 0 => 600 | 1 => 450 | 2 => 300 | _ => 150

/-- Whether a swatch is in reset. -/
def State.inReset (s : State) (n : Nat) : Bool := s.sw.inReset.getLsbD n

/-- Whether a swatch is gated. -/
def State.isGated (s : State) (n : Nat) : Bool := s.sw.gated.getLsbD n

/-- Whether a swatch runs: out of reset and its clock not stopped. -/
def State.swatchRuns (s : State) (n : Nat) : Bool := s.alive && !s.inReset n && !s.isGated n

/-- The phase of a reset group. -/
def State.groupPhase (s : State) (g : Nat) : GroupPhase := Store.get .running s.sw.phase g
def State.setGroupPhase (s : State) (g : Nat) (p : GroupPhase) : State := { s with sw := { s.sw with phase := Store.set .running s.sw.phase g p } }

/-- The bit of a swatch. -/
def swatchBit (n : Nat) : BitVec 48 := BitVec.ofNat 48 (2 ^ n)

/-- The bits of a list of swatches. -/
def swatchBits (l : List Nat) : BitVec 48 := l.foldl (fun m n => m ||| swatchBit n) 0

/-- Put swatches into reset, or out of it. -/
def State.setInReset (s : State) (l : List Nat) (b : Bool) : State :=
  let m := swatchBits l
  { s with sw := { s.sw with inReset := if b then s.sw.inReset ||| m else s.sw.inReset &&& ~~~ m } }

/-- Gate swatches, or ungate them. -/
def State.setGated (s : State) (l : List Nat) (b : Bool) : State :=
  let m := swatchBits l
  { s with sw := { s.sw with gated := if b then s.sw.gated ||| m else s.sw.gated &&& ~~~ m } }

/-- Whether a swatch is on the Class A path (R67). -/
def State.onClassAPath (s : State) (n : Nat) : Bool :=
  n == 2 || n == 3 || n == 4 || n == 5 || n == 12 || n == 13 || (n == 14 && s.loop.pairedPath)

/-- The present clock of a swatch in MHz, 0 while gated or in reset (R86). -/
def State.mhz (s : State) (n : Nat) : Nat :=
  if s.inReset n || s.isGated n then 0
  else if arithSwatch n then stepMhz (Store.get 0 s.sw.step n)
  else if n == 0 && s.sw.sysOnRefclk then 25
  else fixedMhz n

/-! ### Device time -/

/-- Device time as a stamp: its visible fraction's unit, 2^-16 ns (R134). -/
def State.stamp (s : State) : Stamp := s.time.now / 2 ^ 32

/-- A stamp's seconds, nanoseconds and fraction. -/
def stampSec (t : Stamp) : Nat := t / (2 ^ 16 * 1000000000)
def stampNs (t : Stamp) : Nat := t / 2 ^ 16 % 1000000000
def stampFrac (t : Stamp) : Nat := t % 2 ^ 16

/-- The stamp of a time in seconds and nanoseconds. -/
def mkStamp (sec ns : Nat) : Stamp := (sec * 1000000000 + ns) * 2 ^ 16

/-- Microseconds and nanoseconds as stamp units. -/
def usStamp (n : Nat) : Stamp := n * 1000 * 2 ^ 16
def nsStamp (n : Nat) : Stamp := n * 2 ^ 16

/-- The rate held in TIME_RATE, in 2^-16 ppm (R174). -/
def State.rateUnits (s : State) : Int := signed 32 (s.reg reg_TIME_RATE).toNat

/-- The advance of one tick in 2^-48 ns: 2 ns × (1 + ρ), rounded to nearest, ties to even (R136). -/
def tickAdvance (rate : Int) : Nat :=
  (roundEven (2 ^ 49 * (65536000000 + rate)) 65536000000).toNat

/-- The advance of one tick at the present rate. -/
def State.advance (s : State) : Nat := tickAdvance s.rateUnits

/-- Device time moves on by a number of ticks, if it runs (R135, R136). -/
def State.tickOn (s : State) (k : Nat) : State :=
  if s.time.running then { s with time := { s.time with ticks := s.time.ticks + k, now := s.time.now + k * s.advance } } else s

/-- The ticks until device time has reached an instant. -/
def State.ticksTo (s : State) (t : Stamp) : Nat := ceilDiv (t * 2 ^ 32 - s.time.now) (max 1 s.advance)

/-- Device time moves on to the first tick at or after an instant, if it runs and has not passed it. -/
def State.advanceTo (s : State) (t : Stamp) : State := s.tickOn (s.ticksTo t)

/-- A new era of device time begins at the present tick: the rate has changed, or a step has been taken (R136, R139). -/
def State.openEra (s : State) : State :=
  { s with time := { s.time with eras := ⟨s.time.ticks, s.time.now, s.advance⟩ :: s.time.eras } }

/-- The device time that the time base held at a tap's tick, with the phase's part of the advance, by the history in force then
(R139); the visible fraction drops what lies below 2^-16 ns. -/
def State.tapTime (s : State) (tap : Tap) : Stamp :=
  match s.time.eras.find? (fun e => decide (e.tick ≤ tap.tick)) with
  | some e => (e.time + (tap.tick - e.tick) * e.advance + tap.phase.val * e.advance / 8) / 2 ^ 32
  | none => 0

/-- A tap has recorded an event: device time has come to its tick. -/
def State.atTap (s : State) (tap : Tap) : State := s.tickOn (tap.tick - s.time.ticks)

/-- ρ as a ratio: the rate in 2^-16 ppm over a million. -/
def rateRatio (units : Int) : Rat := (units : Rat) / 65536000000

/-! ### Interrupts, faults and requests -/

/-- Raise an in-band interrupt cause; a cause already pending is merged (R501). -/
def State.raiseIbi (s : State) (c : Nat) : State :=
  s.setFld fld_I3C_IBI_PEND_PEND (Nat.lor (s.fld fld_I3C_IBI_PEND_PEND) (2 ^ (c - 1)))

def ibiFault : Nat := 1
def ibiClassA : Nat := 2
def ibiTime : Nat := 3
def ibiAttest : Nat := 4
def ibiImport : Nat := 5
def ibiProbe : Nat := 6
def ibiBindOff : Nat := 7

/-- The field ACT_c of FAULT_ACTION (R552). -/
def State.faultAction (s : State) (c : Nat) : Nat := (s.reg reg_FAULT_ACTION).toNat / 4 ^ (c - 1) % 4

/-- The causes for which Table 16.3 allows SWATCH. -/
def swatchActionAllowed (c : Nat) : Bool := c == 2 || c == 8 || c == 10

/-- Ask for a reset of a swatch, with its Table 2.11 cause; a request made before cast-on lock is ignored (R120). -/
def State.askReset (s : State) (n cause : Nat) : State :=
  if s.flag fld_SYS_LOCK_LOCKED then { s with sw := { s.sw with requests := s.sw.requests ++ [(n, cause)] } } else s

/-- Raise a fault: a report leaves for the node, and where the action is SWATCH the source's group is asked to reset
(R551, R552). -/
def State.raiseFault (s : State) (c source : Nat) (detail : Word) : State :=
  let r : FaultReport := ⟨c, source, detail, s.stamp⟩
  let s := { s with integ := { s.integ with flits := s.integ.flits ++ [.report r] } }
  let n := source % 64
  if swatchActionAllowed c && s.faultAction c == 1 && groupOf n != 0 then s.askReset n 2 else s

def faultPllUnlock : Nat := 1
def faultXingOvr : Nat := 2
def faultEnvelope : Nat := 3
def faultTimeJump : Nat := 4
def faultStreamSlip : Nat := 5
def faultStitchProto : Nat := 6
def faultGraphNode : Nat := 7
def faultSelvedgeUe : Nat := 8
def faultImuGap : Nat := 9
def faultSolverCheck : Nat := 10
def faultSolverMismatch : Nat := 11
def faultGovFloor : Nat := 12
def faultCheckMismatch : Nat := 13
def faultCheckAlive : Nat := 14
def faultWdogSwatch : Nat := 15
def faultWdogChip : Nat := 16

/-- Periods that launched no frame count, and set MISSED with its interrupt (R45, R56). -/
def State.classAMissed (s : State) (k : Nat) : State :=
  if k = 0 then s
  else ((s.addSat fld_CLA_MISSED_COUNT_MISSED k).setFlag fld_CLA_STATUS_MISSED true).raiseIbi ibiClassA

/-- Timing values were refused (R34). -/
def State.paramReject (s : State) : State :=
  (s.setFlag fld_CLA_STATUS_PARAM_REJECT true).raiseIbi ibiClassA

/-- A Class A structure was refused (R48). -/
def State.envelopeRefused (s : State) (slot : Nat) : State :=
  ((s.setFlag fld_CLA_STATUS_ENV_REFUSED true).raiseIbi ibiClassA).raiseFault faultEnvelope 13 (BitVec.ofNat 32 slot)

/-- The loop runs: CLA_STATUS.RUNNING. -/
def State.loopRunning (s : State) : Bool := s.flag fld_CLA_STATUS_RUNNING

/-- The 64-bit period number (R44). -/
def State.periodNumber (s : State) : Nat := s.pair reg_CLA_PERIOD_NUM_LO

/-- A warm reset is owed 10 µs after its fault is raised (R556); an earlier one already owed stands. -/
def State.oweWarm (s : State) (cause pll : Nat) : State :=
  match s.resets.due with
  | some _ => s
  | none => { s with resets := { s.resets with due := some (cause, pll, s.stamp + usStamp 10) } }

/-! ### Objects in the swatches' SRAM -/

/-- The key of a byte of an object within a swatch's SRAM (R101). -/
def objectKey (swatch object offset : Nat) : Nat := (swatch * 2 ^ 24 + object) * 2 ^ 40 + offset

/-- The key of an object within a swatch. -/
def objectId (swatch object : Nat) : Nat := swatch * 2 ^ 24 + object

end Sys2Proof.Machine
end

