-- ==== Sys2Proof/Machine/Access.lean ====
section
/-!
DEFINITION. What a host write may change: the phase rules of R111, R113, R123 and R124, the swatch rule of R83, the grant
check of R115, and the access codes of Table 0.2.
-/
namespace Sys2Proof.Machine

/-- The position of the lowest set bit of a mask. -/
def lowestSet (m : Word) : Nat := ((List.range 32).find? (fun i => m.getLsbD i)).getD 0

/-- The data under a grant's MASK in the form in which LOWER and UPPER are stated (R115). -/
def grantForm (mask data : Word) : Word := (data &&& mask) >>> lowestSet mask

/-- Whether a written word passes a grant entry (R115). -/
def Grant.passes (g : Grant) (data : Word) : Bool :=
  let v := (grantForm g.mask data).toNat
  decide (g.lower.toNat ≤ v) && decide (v ≤ g.upper.toNat)

/-- The grant entry of a register, once the grants are in force (R116, R579). -/
def State.grantOf (s : State) (a : Nat) : Option Grant :=
  if s.flag fld_SYS_LOCK_LOCKED then s.cast.grants.find? (fun g => g.addr.toNat == a) else none

/-- The attestation registers, which accept writes on every device (R115). -/
def attestRegister (a : Nat) : Bool :=
  a == reg_ATTEST_CTRL || a == reg_ATTEST_STATUS || a == reg_ATTEST_WIN_ADDR ||
    (decide (reg_ATTEST_NONCE 0 ≤ a) && decide (a ≤ reg_ATTEST_NONCE 7))

/-- The provisioning registers (R109). -/
def provisionRegister (a : Nat) : Bool := a == reg_FUSE_PROG_CTRL || a == reg_FUSE_PROG_DATA

/-- The registers a granted write may still reach in BIND_OFF and BOUND (R123, R124). -/
def boundRegister (a : Nat) : Bool := a == reg_PWR_REQ || a == reg_RST_CTRL

/-- Whether an address is mapped now: word-aligned, named by the register map, and not a provisioning register of a device
whose keys are locked (R10, R11, R129). -/
def State.mapped (s : State) (a : Nat) : Bool :=
  a % 4 == 0 && (regRow a).isSome && !(provisionRegister a && s.flag fld_SEC_STATE_KEYS_LOCKED)

/-- Whether a mapped register can be reached: its swatch out of reset (R83), the device powered and out of reset. -/
def State.reachable (s : State) (a : Nat) : Bool := s.alive && s.mapped a && !s.inReset (servedBy a)

/-- The bits that a write of `data` to a register may touch, or none where the write is ignored (R11, R115). -/
def State.writeMask (s : State) (a : Nat) (data : Word) : Option Word :=
  if !s.reachable a then none
  else
    let p := s.phase
    let granted : Option Word :=
      match s.grantOf a with
      | some g => if g.passes data then some g.mask else none
      | none => none
    if attestRegister a then
      (if p = phaseProvision ∨ p = phaseRunning ∨ p = phaseBindOff ∨ p = phaseBound then some (BitVec.allOnes 32) else none)
    else if provisionRegister a then (if p = phaseProvision then some (BitVec.allOnes 32) else none)
    else if p = phaseRunning then granted
    else if (p = phaseBindOff ∨ p = phaseBound) ∧ boundRegister a = true then granted
    else none

/-- A register word after a write of `data` under `mask`, by each field's access code (Table 0.2). -/
def writtenWord (a : Nat) (old mask data : Word) : Word :=
  let set := mask &&& maskAt a (fun f => f.access == .rw || f.access == .rwl)
  let clear := mask &&& maskAt a (·.access == .w1c) &&& data
  let raise := mask &&& maskAt a (·.access == .w1s) &&& data
  ((((old &&& ~~~ set) ||| (data &&& set)) &&& ~~~ clear) ||| raise)

/-- Write a register's bits under a mask. -/
def State.applyWrite (s : State) (a : Nat) (mask data : Word) : State :=
  s.setReg a (writtenWord a (s.reg a) mask data)

/-- A written word as its fields see it: the bits a write may touch, zero elsewhere. -/
def State.writeTaken (s : State) (a : Nat) (data : Word) : Option Word :=
  match s.writeMask a data with
  | some m => some (data &&& m)
  | none => none

/-- The key under which a port holds a latch or a pending word. -/
def portKey (port a : Nat) : Nat := port * 2 ^ 32 + a

/-- Hold a _LO word for a port until its _HI word is written (R14). -/
def State.holdLow (s : State) (port a : Nat) (data : Word) : State :=
  { s with ports := { s.ports with lows := Store.set none s.ports.lows (portKey port a) (some data) } }

/-- Forget a held _LO word. -/
def State.dropLow (s : State) (port a : Nat) : State :=
  { s with ports := { s.ports with lows := Store.set none s.ports.lows (portKey port a) none } }

/-- The held _LO word of a port. -/
def State.heldLow (s : State) (port a : Nat) : Option Word := Store.get none s.ports.lows (portKey port a)

end Sys2Proof.Machine
end

