-- ==== Sys2Proof/Machine/Crc.lean ====
section
/-!
DEFINITION. The check unit algorithms of Table 16.1, byte by byte, and the CRC-32C that headers and messages carry.
-/
namespace Sys2Proof.Machine

/-- The parameters of one algorithm of Table 16.1. -/
structure CrcSpec where
  width : Nat
  poly : Nat
  init : Nat
  reflected : Bool
  xorOut : Nat
  deriving DecidableEq, Repr

/-- The algorithm that POLY selects (Table 16.1). -/
def crcSpec : Nat → CrcSpec
  | 0 => ⟨8, 0x1D, 0xFF, false, 0xFF⟩
  | 1 => ⟨16, 0x1021, 0xFFFF, false, 0⟩
  | 2 => ⟨32, 0x04C11DB7, 0xFFFFFFFF, true, 0xFFFFFFFF⟩
  | _ => ⟨32, 0x1EDC6F41, 0xFFFFFFFF, true, 0xFFFFFFFF⟩

/-- The low w bits of a number in reverse order. -/
def reflect : Nat → Nat → Nat
  | 0, _ => 0
  | w + 1, v => (v % 2) * 2 ^ w + reflect w (v / 2)

/-- n shifts of a register held most significant bit first. -/
def crcShift (c : CrcSpec) : Nat → Nat → Nat
  | 0, r => r
  | n + 1, r =>
    let top := r / 2 ^ (c.width - 1) % 2
    let r' := (2 * r) % 2 ^ c.width
    crcShift c n (if top = 1 then Nat.xor r' c.poly else r')

/-- One byte into the register; a reflected algorithm takes the byte's bits lowest first. -/
def crcByte (c : CrcSpec) (r : Nat) (b : Byte) : Nat :=
  let v := if c.reflected then reflect 8 b.toNat else b.toNat
  crcShift c 8 (Nat.xor r (v * 2 ^ (c.width - 8)))

/-- The register after a run of bytes. -/
def crcFeed (c : CrcSpec) (r : Nat) (l : List Byte) : Nat := l.foldl (crcByte c) r

/-- The result read from the register. -/
def crcResult (c : CrcSpec) (r : Nat) : Nat :=
  Nat.xor (if c.reflected then reflect c.width r else r) c.xorOut

/-- The result of a whole message. -/
def crc (poly : Nat) (l : List Byte) : Nat :=
  let c := crcSpec poly
  crcResult c (crcFeed c c.init l)

/-- CRC-32C of a message. -/
def crc32c (l : List Byte) : Nat := crc 3 l

end Sys2Proof.Machine
end

