-- ==== Sys2Proof/Machine/Checks.lean ====
section
/-!
DEFINITION. The check units: register feed, verdicts, alive counters (R544 to R550).
-/
namespace Sys2Proof.Machine

/-- One check unit. -/
def State.unit (s : State) (n : Nat) : CheckUnit := Store.get CheckUnit.idle s.integ.units n

/-- Set one check unit; BUSY follows whether a message is open. -/
def State.setUnit (s : State) (n : Nat) (u : CheckUnit) : State :=
  { s with integ := { s.integ with units := Store.set CheckUnit.idle s.integ.units n u } }.setFlag
    (fld_CHECK_STATUS_BUSY n) u.message.isSome

/-- The algorithm a unit is set to (Table 16.1). -/
def State.unitSpec (s : State) (n : Nat) : CrcSpec := crcSpec (s.fld (fld_CHECK_CFG_POLY n))

/-- What the alive checker finds (R548). -/
inductive AliveOutcome where
  | inOrder | again | skip
  deriving DecidableEq, Repr

/-- Judge a counter against a context (R548). -/
def judgeAlive (stored : Option Nat) (a : Nat) : AliveOutcome :=
  match stored with
  | none => .inOrder
  | some b => if a = b then .again else if a = (b + 1) % 65536 then .inOrder else .skip

/-- Pass a counter through a unit's alive checker: the outcome counts, and all but a repeat is stored (R548). -/
def State.checkAlive (s : State) (n context a : Nat) : AliveOutcome × State :=
  let u := s.unit n
  let o := judgeAlive (Store.get none u.alive context) a
  let s := match o with
    | .again => s.addSat (fld_CHECK_ALIVE_REPEAT n) 1
    | .skip => s.addSat (fld_CHECK_ALIVE_SKIP n) 1
    | .inOrder => s
  match o with
  | .again => (o, s)
  | _ => (o, s.setUnit n { s.unit n with alive := Store.set none (s.unit n).alive context (some a) })

/-- A REPEAT or SKIP of a generated message is flagged and raises CHECK_ALIVE (R548, Table 16.3). -/
def State.reportAlive (s : State) (n context : Nat) (o : AliveOutcome) : State :=
  match o with
  | .inOrder => s
  | _ =>
    let d := n + context % 64 * 2 ^ 8 + (if o = .skip then 2 ^ 16 else 0) + 2 ^ 31
    (s.setFlag (fld_CHECK_STATUS_ALIVE_ERR n) true).raiseFault faultCheckAlive 2 (BitVec.ofNat 32 d)

/-- Record a message's result (R546, R564). -/
def State.recordResult (s : State) (n r : Nat) : State :=
  (s.setReg (reg_CHECK_RESULT n) (BitVec.ofNat 32 r)).addSat (fld_CHECK_COUNTS_MESSAGES n) 1

/-- Record a mismatch (R547, Table 16.3). -/
def State.recordMismatch (s : State) (n context : Nat) : State :=
  let s := (s.setFlag (fld_CHECK_STATUS_MISMATCH n) true).addSat (fld_CHECK_COUNTS_MISMATCH n) 1
  if s.flag (fld_CHECK_CFG_INT_EN n) then
    s.raiseFault faultCheckMismatch 2 (BitVec.ofNat 32 (n + context % 64 * 2 ^ 8))
  else s

/-- A whole GENERATE message from the frame builder or the header generator: its result, with the counter checked. -/
def State.generate (s : State) (n : Nat) (bytes : List Byte) (context counter : Nat) : Nat × State :=
  let c := s.unitSpec n
  let r := crcResult c (crcFeed c c.init bytes)
  let s := s.recordResult n r
  let (o, s) := s.checkAlive n context counter
  (r, s.reportAlive n context o)

/-- A whole VERIFY message from the command decoder: whether it matched, and the alive outcome where it did (R547, R548). -/
def State.verify (s : State) (n : Nat) (bytes : List Byte) (expected context counter : Nat) : Option AliveOutcome × State :=
  let c := s.unitSpec n
  let r := crcResult c (crcFeed c c.init bytes)
  let s := s.recordResult n r
  if r = expected % 2 ^ c.width then
    let (o, s) := s.checkAlive n context counter
    (some o, s)
  else (none, s.recordMismatch n context)

/-- The bytes per datum that BYTES names (R564). -/
def feedBytes (code : Nat) : Nat := match code with | 1 => 1 | 2 => 2 | _ => 4

/-- Open a message on a unit, or let it wait for the one the unit serves (R545). -/
def State.openMessage (s : State) (n : Nat) (m : CheckMessage) : State :=
  let u := s.unit n
  match u.message with
  | none => s.setUnit n { u with message := some m }
  | some open_ =>
    if open_.point = m.point then s.setUnit n { u with message := some m }
    else s.setUnit n { u with waiting := u.waiting ++ [m] }

/-- Close the message of host software, with the expected value (R546, R550). -/
def State.closeFeed (s : State) (n : Nat) : State :=
  let u := s.unit n
  match u.message with
  | some m =>
    if m.point = 2 ∧ m.closed = false then
      s.setUnit n { u with message := some { m with closed := true, expected := s.reg (reg_CHECK_EXPECT n) } }
    else s
  | none => s

/-- A write to CHECK_FEED_CTRL_n: START opens a message, in place of host software's own; END closes it; both do both. A
START is ignored where the unit has users (R550). -/
def State.feedControl (s : State) (n : Nat) (d : Word) : State :=
  let s :=
    if d.getLsbD 0 ∧ s.fld (fld_CHECK_CFG_USERS n) = 0 then
      s.openMessage n { point := 2, verify := d.getLsbD 2, bytes := feedBytes (bits d.toNat 5 4),
                        crc := (s.unitSpec n).init, context := none, expected := 0, closed := false }
    else s
  if d.getLsbD 1 then s.closeFeed n else s

/-- CHECK_FEED_START (R550). -/
def execCheckFeedStart (unit : Fin 8) (data : Word) (s : State) : Host.Outcome State Fault Refusal :=
  match s.writeTaken (reg_CHECK_FEED_CTRL unit) data with
  | some d => .next (s.feedControl unit d)
  | none => .next s

/-- CHECK_FEED_END (R550). -/
def execCheckFeedEnd (unit : Fin 8) (data : Word) (s : State) : Host.Outcome State Fault Refusal :=
  match s.writeTaken (reg_CHECK_FEED_CTRL unit) data with
  | some d => .next (s.feedControl unit d)
  | none => .next s

/-- Feed a datum to host software's open message (R546, R550). -/
def State.feedData (s : State) (n : Nat) (d : Word) : State :=
  let u := s.unit n
  match u.message with
  | some m =>
    if m.point = 2 ∧ m.closed = false then
      s.setUnit n { u with message := some { m with crc := crcFeed (s.unitSpec n) m.crc (toLe m.bytes d.toNat) } }
    else s
  | none => s

/-- CHECK_FEED_DATA (R550). -/
def execCheckFeedData (unit : Fin 8) (data : Word) (s : State) : Host.Outcome State Fault Refusal :=
  match s.writeTaken (reg_CHECK_FEED_DATA unit) data with
  | some d => .next (s.feedData unit d)
  | none => .next s

/-- Free a unit for the feeder that has waited longest (R545). -/
def State.freeUnit (s : State) (n : Nat) : State :=
  let u := s.unit n
  match u.waiting with
  | [] => s.setUnit n { u with message := none }
  | m :: r => s.setUnit n { u with message := some m, waiting := r }

/-- CHECK_MESSAGE_DONE (R546, R547): the closed message's result, and its verdict where it verifies. -/
def execCheckMessageDone (unit : Fin 8) (s : State) : Host.Outcome State Fault Refusal :=
  match (s.unit unit).message with
  | none => .next s
  | some m =>
    if m.closed = false then .next s
    else
      let c := s.unitSpec unit
      let r := crcResult c m.crc
      let s := s.recordResult unit r
      let bad := decide (r ≠ m.expected.toNat % 2 ^ c.width)
      let s :=
        if m.verify then
          let s := s.setFlag (fld_CHECK_STATUS_VERDICT unit) bad
          if bad then s.recordMismatch unit (match m.context with | some x => x.1 | none => 0) else s
        else s
      .next (s.freeUnit unit)

/-- Clear contexts of a unit (Table 16.2). -/
def State.clearContexts (s : State) (n : Nat) (p : Nat → Bool) : State :=
  s.setUnit n { s.unit n with alive := (s.unit n).alive.filter (fun e => !p e.1) }

/-- Clear the contexts of the actuator frame entries in every unit, at a loop start (Table 16.2). -/
def State.clearFrameContexts (s : State) : State :=
  (List.range 8).foldl (fun s n =>
    if s.fld (fld_CHECK_CFG_USERS n) % 2 = 1 then s.clearContexts n (fun _ => true) else s) s

/-- Clear the contexts of the HOST users in their units (Table 16.2). -/
def State.clearHostContexts (s : State) : State :=
  let s := s.clearContexts (s.fld fld_HL_CFG_HDR_CHECK) (fun c => decide (16 ≤ c) && decide (c < 32))
  s.clearContexts (s.fld fld_HL_CFG_CMD_CHECK) (fun c => decide (c < 8))

/-- Abandon the messages of a feeding point whose swatch enters reset (R547). -/
def State.abandonFeeder (s : State) (point : Nat) : State :=
  (List.range 8).foldl (fun s n =>
    let u := s.unit n
    let s := s.setUnit n { u with waiting := u.waiting.filter (fun m => m.point != point) }
    match u.message with
    | some m => if m.point = point then s.freeUnit n else s
    | none => s) s

end Sys2Proof.Machine
end

