-- ==== Sys2Proof/Machine/Objects.lean ====
section
/-!
DEFINITION. Objects within a swatch's SRAM (R101), the frame store with its frame sets and graph buffers (R189, R190, R209),
and the busy-time counts.
-/
namespace Sys2Proof.Machine

/-! ### Objects -/

/-- A byte of an object within a swatch's SRAM. -/
def State.objByte (s : State) (swatch object offset : Nat) : Byte := Store.get 0 s.sram (objectKey swatch object offset)

/-- Bytes of an object. -/
def State.objBytes (s : State) (swatch object offset n : Nat) : List Byte :=
  Store.getMany 0 s.sram (objectKey swatch object offset) n

/-- A little-endian number within an object. -/
def State.objNat (s : State) (swatch object offset n : Nat) : Nat := leNat (s.objBytes swatch object offset n)

/-- Bytes loaded into an object. -/
def State.objLen (s : State) (swatch object : Nat) : Nat := Store.get 0 s.sramLen (objectId swatch object)

/-- The key of a swatch's SRAM word (R328). -/
def sramKey (swatch word : Nat) : Nat := swatch * 2 ^ 40 + word

/-- The words of a range of bytes, and those of them that it covers whole. -/
def wordsIn (off n : Nat) : List Nat := (List.range (ceilDiv (off % 32 + n) 32)).map (off / 32 + ·)
def wholeWords (off n : Nat) : List Nat := (wordsIn off n).filter (fun w => decide (off ≤ 32 * w) && decide (32 * w + 32 ≤ off + n))

/-- A word written whole is correctable again; one written in part is not (R328). -/
def healWords (m : Store WordMark) (swatch object offset n : Nat) : Store WordMark :=
  if m.isEmpty then m
  else (wholeWords offset n).foldl (fun m w => Store.set .good m (sramKey swatch (Config.sramWord swatch object w)) .good) m

/-- Write bytes into an object. -/
def State.setObjBytes (s : State) (swatch object offset : Nat) (l : List Byte) : State :=
  { s with sram := Store.setMany 0 s.sram (objectKey swatch object offset) l,
           sramBad := healWords s.sramBad swatch object offset l.length }

/-- Load bytes into an object: they count in its length (R101). -/
def State.loadObj (s : State) (swatch object offset : Nat) (l : List Byte) : State :=
  let s := s.setObjBytes swatch object offset l
  { s with sramLen := Store.set 0 s.sramLen (objectId swatch object) (max (s.objLen swatch object) (offset + l.length)) }


/-! ### Busy time -/

/-- Add nanoseconds to a count of microseconds; what is less than a microsecond is carried. -/
def State.addBusy (s : State) (f : Fld) (ns : Nat) : State :=
  let t := Store.get 0 s.vis.busyNs f.addr + ns
  let s := s.addWrap f (t / 1000)
  { s with vis := { s.vis with busyNs := Store.set 0 s.vis.busyNs f.addr (t % 1000) } }

/-! ### The frame store -/

/-- FRAME, the swatch of the frame store, and the objects of R208, R209 and R212. -/
def frameSwatch : Nat := 8
def markerTable : Nat := 1
def bufferTable : Nat := 2
def frameStore : Nat := 3

/-- The frame store in blocks and bytes (R189). -/
def blockBytes : Nat := 65536
def storeBlocks : Nat := 1536

/-- Bytes of the frame store. -/
def State.frameBytes (s : State) (a n : Nat) : List Byte := s.objBytes frameSwatch frameStore a n
def State.frameNat (s : State) (a n : Nat) : Nat := leNat (s.frameBytes a n)
def State.setFrameBytes (s : State) (a : Nat) (l : List Byte) : State := s.setObjBytes frameSwatch frameStore a l

/-- A number stored little-endian. -/
def State.setFrameNat (s : State) (a n v : Nat) : State := s.setFrameBytes a (toLe n v)

/-- A line's bytes rounded up to 64 (R190). -/
def stride (n : Nat) : Nat := ceilDiv n 64 * 64

/-- Bytes of n pixels as stored (Table 5.3). -/
def pixelBytes (dt n : Nat) : Nat :=
  match dt with
  | 0x2A => n
  | 0x2B => n * 5 / 4
  | 0x2C => n * 3 / 2
  | _ => 2 * n

/-- The pixel data types of Table 5.1. -/
def pixelType (dt : Nat) : Bool := dt == 0x1E || (decide (0x2A ≤ dt) && decide (dt ≤ 0x2E))

/-- A stream's registers. -/
def State.streamWidth (s : State) (n : Nat) : Nat := s.fld (fld_STREAM_GEOM_WIDTH n)
def State.streamHeight (s : State) (n : Nat) : Nat := s.fld (fld_STREAM_GEOM_HEIGHT n)
def State.streamDepth (s : State) (n : Nat) : Nat := s.fld (fld_STREAM_CFG_DEPTH n)
def State.streamDt (s : State) (n : Nat) : Nat := s.fld (fld_STREAM_CFG_DT n)
def State.streamPlanes (s : State) (n : Nat) : Nat := s.fld (fld_STREAM_CFG_PLANES n)

/-- The width and height of plane l of a stream (R190). -/
def State.planeWidth (s : State) (n l : Nat) : Nat := ceilDiv (s.streamWidth n) (2 ^ l)
def State.planeHeight (s : State) (n l : Nat) : Nat := ceilDiv (s.streamHeight n) (2 ^ l)

/-- Bytes of a stream's raw frame, of a plane, and of the planes below l (R190). -/
def State.rawStride (s : State) (n : Nat) : Nat := stride (pixelBytes (s.streamDt n) (s.streamWidth n))
def State.rawBytes (s : State) (n : Nat) : Nat := s.rawStride n * s.streamHeight n
def State.planeBytes (s : State) (n l : Nat) : Nat := stride (s.planeWidth n l) * s.planeHeight n l
def State.planesBelow (s : State) (n l : Nat) : Nat := (List.range l).foldl (fun t i => t + s.planeBytes n i) 0

/-- Blocks of a frame set and of a stream (R190). -/
def State.setBlocks (s : State) (n : Nat) : Nat :=
  ceilDiv (4096 + s.rawBytes n + s.planesBelow n (s.streamPlanes n)) blockBytes
def State.streamBlocks (s : State) (n : Nat) : Nat := s.streamDepth n * s.setBlocks n

/-- Where a frame set, its raw frame and its planes begin. -/
def State.setBase (s : State) (n set : Nat) : Nat := (s.fld (fld_STREAM_AREA_BASE n) + set * s.setBlocks n) * blockBytes
def State.rawBase (s : State) (n set : Nat) : Nat := s.setBase n set + 4096
def State.planeBase (s : State) (n set l : Nat) : Nat := s.rawBase n set + s.rawBytes n + s.planesBelow n l

/-- The marker of a frame set. -/
def State.frameMarker (s : State) (n set : Nat) : Nat := s.fld (fld_STREAM_LINK_MARKER n) + set

/-- A stream in use (R184): enabled, accepted at lock, CSI_IN and FRAME running. -/
def State.streamOn (s : State) (n : Nat) : Bool :=
  s.flag fld_SYS_LOCK_LOCKED && s.flag (fld_STREAM_CFG_ENABLE n) && !s.flag (fld_STREAM_STATUS_CFG_ERR n) &&
    s.swatchRuns 7 && s.swatchRuns 8

/-! ### Buffers -/

/-- A buffer table entry (Table 6.3). -/
structure BufEntry where
  kind : Nat
  format : Nat
  copies : Nat
  stream : Nat
  marker : Nat
  firstPlane : Nat
  planeCount : Nat
  baseBlock : Nat
  blocks : Nat
  width : Nat
  height : Nat
  stride : Nat
  capacity : Nat
  rest : Nat
  deriving DecidableEq, Repr

def kindImage : Nat := 1
def kindList : Nat := 2
def kindConst : Nat := 3
def kindFrameSet : Nat := 4
def kindPlaneView : Nat := 5

/-- Buffer table entry b. -/
def State.bufEntry (s : State) (b : Nat) : BufEntry :=
  let e := s.objBytes frameSwatch bufferTable (32 * b) 32
  { kind := field e 0 1, format := field e 1 1, copies := field e 2 1, stream := field e 3 1, marker := field e 4 2,
    firstPlane := field e 6 1, planeCount := field e 7 1, baseBlock := field e 8 2, blocks := field e 10 2,
    width := field e 12 2, height := field e 14 2, stride := field e 16 4, capacity := field e 20 4, rest := field e 24 8 }

/-- Bytes of an image element by FORMAT (R209). -/
def elementBytes (format : Nat) : Nat := if format = 0 then 1 else if format = 4 then 4 else 2

/-- Where a copy of an IMAGE, LIST or CONST begins. -/
def BufEntry.copyBase (e : BufEntry) (copy : Nat) : Nat := (e.baseBlock + copy * e.blocks) * blockBytes

/-- Copies of a buffer: COPIES, or the stream's frame sets. -/
def State.bufCopies (s : State) (e : BufEntry) : Nat :=
  if e.kind = kindFrameSet ∨ e.kind = kindPlaneView then s.streamDepth e.stream
  else if e.kind = kindConst then 1 else e.copies

/-- The marker that guards a copy, or none for CONST. -/
def State.bufMarker (s : State) (e : BufEntry) (copy : Nat) : Option Nat :=
  if e.kind = kindFrameSet then some (s.frameMarker e.stream copy)
  else if e.kind = kindPlaneView ∨ e.kind = kindImage ∨ e.kind = kindList then some (e.marker + copy)
  else none

/-- Lines that PROGRESS of a buffer counts: an image's height, or those of a view's first plane. -/
def State.bufLines (s : State) (e : BufEntry) : Nat :=
  if e.kind = kindPlaneView then s.planeHeight e.stream e.firstPlane else e.height

/-- Where an 8-bit image lies: its first pixel, stride, width and height. -/
structure Gray where
  base : Nat
  stride : Nat
  width : Nat
  height : Nat
  deriving DecidableEq, Repr

/-- Plane l of a set as an 8-bit image. -/
def State.planeGray (s : State) (n set l : Nat) : Gray :=
  ⟨s.planeBase n set l, Machine.stride (s.planeWidth n l), s.planeWidth n l, s.planeHeight n l⟩

/-- Plane `up` above the first of a view, or an image itself, in one copy. -/
def State.bufGray (s : State) (e : BufEntry) (copy up : Nat) : Gray :=
  if e.kind = kindPlaneView then s.planeGray e.stream copy (e.firstPlane + up)
  else ⟨e.copyBase copy + 64, e.stride, e.width, e.height⟩

/-- The pixel at a place of an 8-bit image, its edges replicated. -/
def State.pixel (s : State) (g : Gray) (x y : Int) : Nat :=
  let cx := (clampInt 0 (g.width - 1) x).toNat
  let cy := (clampInt 0 (g.height - 1) y).toNat
  s.frameNat (g.base + cy * g.stride + cx) 1

/-- Record i of a list copy. -/
def State.listRecord (s : State) (e : BufEntry) (copy i : Nat) : List Byte :=
  s.frameBytes (e.copyBase copy + 64 + i * 16 * e.format) (16 * e.format)

/-- COUNT of a copy's buffer record (Table 6.4). -/
def State.bufCount (s : State) (e : BufEntry) (copy : Nat) : Nat := s.frameNat (e.copyBase copy + 12) 4

/-! ### Graph descriptors -/

/-- A node descriptor (Table 6.5). -/
structure NodeDesc where
  type : Nat
  engine : Nat
  flags : Nat
  ins : List Nat
  modes : Nat
  zero : Nat
  outs : List Nat
  params : List Byte
  deriving DecidableEq, Repr

def nodeWarp : Nat := 1
def nodePyramid : Nat := 2
def nodeCorner : Nat := 3
def nodeTrack : Nat := 4
def nodeSgm : Nat := 5
def nodeNeural : Nat := 6
def nodeKeep : Nat := 7

/-- No buffer. -/
def noBuffer : Nat := 0xFFFF

/-- Node n of graph g (R212). -/
def State.nodeDesc (s : State) (g n : Nat) : NodeDesc :=
  let d := s.objBytes frameSwatch (0x10 + g) (16 + 64 * n) 64
  { type := field d 0 1, engine := field d 1 1, flags := field d 2 2,
    ins := (List.range 4).map (fun i => field d (4 + 2 * i) 2), modes := field d 12 1, zero := field d 13 3,
    outs := (List.range 4).map (fun i => field d (16 + 2 * i) 2), params := slice d 24 40 }

/-- Nodes of graph g: NODE_COUNT of its header, 0 where no descriptor is loaded. -/
def State.nodeCount (s : State) (g : Nat) : Nat :=
  if s.objLen frameSwatch (0x10 + g) = 0 then 0 else s.objNat frameSwatch (0x10 + g) 0 1

/-- Buffer and mode of an input, and buffer of an output. -/
def NodeDesc.inBuf (d : NodeDesc) (i : Nat) : Nat := d.ins.getD i noBuffer
def NodeDesc.outBuf (d : NodeDesc) (i : Nat) : Nat := d.outs.getD i noBuffer
def NodeDesc.mode (d : NodeDesc) (i : Nat) : Nat := bits d.modes (2 * i + 1) (2 * i)

/-- A parameter of a node. -/
def NodeDesc.param (d : NodeDesc) (off n : Nat) : Nat := field d.params off n

/-- FLAGS of a node (Table 6.5). -/
def NodeDesc.skipIfStale (d : NodeDesc) : Bool := bit d.flags 0
def NodeDesc.streaming (d : NodeDesc) : Bool := bit d.flags 1

/-- Whether input i is read as it streams in: the first of a STREAMING node. -/
def NodeDesc.streams (d : NodeDesc) (i : Nat) : Bool := d.streaming && i == 0

/-- The agent of node n of graph g (Table 6.1), and of ingest of a stream. -/
def nodeAgent (g n : Nat) : Nat := 0x2000 + g * 256 + n
def ingestAgent (stream : Nat) : Nat := 0x1000 + stream

/-- A receive filter entry fails (R338): outside Table 4.2's zero bits and bytes, or with a CONSUMER that is neither joint frames nor
none. -/
def filterFails (e : List Byte) : Bool :=
  let c := field e 10 2
  (c != 1 && c != 0xFFFF) || field e 8 2 / 4096 % 8 != 0 || field e 12 4 != 0

end Sys2Proof.Machine
end

