-- ==== Sys2Proof/Machine/Offers.lean ====
section
/-!
DEFINITION. What the sources offer the transmit streams (R483, R486, R488).
-/
namespace Sys2Proof.Machine

/-- HOST, the swatch of the transmit ports, the command decoder and the I3C target. -/
def hostSwatch : Nat := 6

/-- Stream types (Table 14.2). -/
def txPose : Nat := 1
def txDisparity : Nat := 2
def txDepth : Nat := 3
def txObjects : Nat := 4
def txTileDelta : Nat := 5
def txDiag : Nat := 6
def txStatus : Nat := 7

/-- One transmit stream. -/
def State.txStream (s : State) (t : Nat) : TxStream := Store.get TxStream.idle s.links.streams t

/-- Set one transmit stream. -/
def State.setTx (s : State) (t : Nat) (v : TxStream) : State :=
  { s with links := { s.links with streams := Store.set TxStream.idle s.links.streams t v } }

/-- TYPE, SRC_A and SRC_B of a stream, and the confidence buffer where one is named. -/
def State.txType (s : State) (t : Nat) : Nat := s.fld (fld_TX_STREAM_CFG_TYPE t)
def State.txSource (s : State) (t : Nat) : Nat := s.fld (fld_TX_STREAM_SRC_SRC_A t)
def State.txConfidence (s : State) (t : Nat) : Option Nat :=
  if s.fld (fld_TX_STREAM_SRC_SRC_B t) = 0x1FF then none else some (s.fld (fld_TX_STREAM_SRC_SRC_B t))

/-- The enabled streams of a type, while HOST runs. -/
def State.txOfType (s : State) (type : Nat) : List Nat :=
  if s.swatchRuns hostSwatch then (List.range 16).filter (fun t => (s.txStream t).enabled && s.txType t == type) else []

/-- CLOCK_FAULT as the TIME_SUSPECT flag of a header (R480). -/
def State.suspectFlag (s : State) : Nat := if s.flag fld_TIME_STATUS_CLOCK_FAULT then 4 else 0

/-- Offer a publication to a stream. -/
def State.offer (s : State) (o : TxOffer) : State := { s with links := { s.links with offers := s.links.offers ++ [o] } }

/-- Number a publication of a stream since cast-on lock, the first being 1, and offer it where DIV selects it (R486). -/
def State.offerNumbered (s : State) (o : TxOffer) : State :=
  let v := s.txStream o.stream
  let s := s.setTx o.stream { v with ordinal := v.ordinal + 1 }
  if (v.ordinal + 1) % (s.fld (fld_TX_STREAM_CFG_DIV o.stream) + 1) = 0 then s.offer o else s

/-- A PUBLISH of a marker reaches the DISPARITY and DEPTH streams whose SRC_A it guards (R486). -/
def State.offerImage (s : State) (m gen : Nat) : State :=
  (s.txOfType txDisparity ++ s.txOfType txDepth).foldl (fun s t =>
    let e := s.bufEntry (s.txSource t)
    match (List.range (s.bufCopies e)).find? (fun c => s.bufMarker e c == some m) with
    | some c => s.offerNumbered ⟨t, .image c gen, 0, 0, 0, s.stamp, none⟩
    | none => s) s

/-- An object batch reaches the OBJECTS streams of its set (R486); its flags, time of validity and age stand in its header. -/
def State.offerObjects (s : State) (set : Nat) (b : List Byte) : State :=
  let f := field b 1 1
  (s.txOfType txObjects).foldl (fun s t =>
    if s.txSource t = set then
      s.offerNumbered ⟨t, .copied b, f % 8 + (if bit f 4 then 8 else 0), mkStamp (field b 8 8) (field b 16 4), nsStamp (field b 20 4),
        s.stamp, none⟩
    else s) s

/-- An estimate record reaches the POSE streams whose DIV selects its period (R486). -/
def State.offerPose (s : State) (period : Nat) (record : List Byte) (brown suspect : Bool) (cutoff : Stamp) (age : Nat) : State :=
  (s.txOfType txPose).foldl (fun s t =>
    if period % (s.fld (fld_TX_STREAM_CFG_DIV t) + 1) = 0 then
      s.offer ⟨t, .copied record, (if brown then 2 else 0) + (if suspect then 4 else 0), cutoff, nsStamp age, s.stamp, some period⟩
    else s) s

/-- Bytes of the tile delta buffer (R488). -/
def tileDeltaBytes : Nat := 2 ^ 23

/-- Bytes of its record that a payload being sent still holds in the buffer: all but the header and the words before the record. -/
def TxPayload.recordBytes (p : TxPayload) : Nat := p.bytes.length - (if p.started then 48 else 16)

/-- Bytes the tile delta buffer holds: the records waiting, the one being written and the one being sent. -/
def State.tileDeltaUsed (s : State) : Nat :=
  s.links.tileDelta.foldl (fun n d => n + d.bytes.length) 0 + s.links.tileRoom.getD 0 +
    (s.txOfType txTileDelta).foldl (fun n t => match (s.txStream t).payload with | some p => n + p.recordBytes | none => n) 0

/-- Set the room kept for the record being written. -/
def State.setTileRoom (s : State) (n : Option Nat) : State := { s with links := { s.links with tileRoom := n } }

/-- The mover begins a new durable record of a tile: its pages pass into the tile delta buffer, or it finds no room for its whole SIZE
and is not sent (R488). -/
def State.beginTileDelta (s : State) (size : Nat) : State :=
  if s.txOfType txTileDelta = [] then s.setTileRoom none
  else if tileDeltaBytes < s.tileDeltaUsed + size then
    { s.setTileRoom none with links := { (s.setTileRoom none).links with tileLoss := true } }
  else s.setTileRoom (some size)

/-- The journal entry of the record being written is programmed: what the buffer holds of it waits to be sent (R488). -/
def State.offerTile (s : State) (tile gen : Nat) (bytes : List Byte) : State :=
  match s.links.tileRoom with
  | none => s
  | some _ =>
    let d : TileDelta := ⟨tile, gen, bytes, s.stamp, (if s.brown then 2 else 0) + s.suspectFlag⟩
    { s.setTileRoom none with links := { (s.setTileRoom none).links with tileDelta := s.links.tileDelta ++ [d] } }

end Sys2Proof.Machine
end

