-- ==== Sys2Proof/Machine/Markers.lean ====
section
/-!
DEFINITION. Stitch markers (R191 to R194) and the answers that reach graph nodes.
-/
namespace Sys2Proof.Machine

/-! ### Markers and graphs in the state -/

/-- One marker. -/
def State.marker (s : State) (m : Nat) : Marker := Store.get Marker.reset s.vis.markers m

/-- Set one marker. -/
def State.setMarker (s : State) (m : Nat) (k : Marker) : State :=
  { s with vis := { s.vis with markers := Store.set Marker.reset s.vis.markers m k } }

/-- One graph. -/
def State.graph (s : State) (g : Nat) : Graph := Store.get Graph.reset s.vis.graphs g

/-- Set one graph; GRAPH_STATUS.RUNNING follows its activation (Table 6.17). -/
def State.setGraph (s : State) (g : Nat) (v : Graph) : State :=
  { s with vis := { s.vis with graphs := Store.set Graph.reset s.vis.graphs g v } }.setFlag
    (fld_GRAPH_STATUS_RUNNING g) v.act.isSome

/-- Change the activation of a graph, where it has one. -/
def State.updAct (s : State) (g : Nat) (f : Activation → Activation) : State :=
  match (s.graph g).act with
  | some a => s.setGraph g { s.graph g with act := some (f a) }
  | none => s

/-- One node of a graph's activation. -/
def State.node? (s : State) (g n : Nat) : Option NodeRun :=
  match (s.graph g).act with
  | some a => a.nodes[n]?
  | none => none

/-- Change a node of a graph's activation. -/
def State.updNode (s : State) (g n : Nat) (f : NodeRun → NodeRun) : State :=
  s.updAct g (fun a =>
    match a.nodes[n]? with
    | some r => { a with nodes := setAt a.nodes n (f r) }
    | none => a)

/-- Result codes of Table 6.9. -/
def codeDone : Nat := 0
def codeSkippedStale : Nat := 1
def codeSkippedAbsent : Nat := 2
def codeSkippedUpstream : Nat := 3
def codeVoid : Nat := 4
def codeGone : Nat := 5
def codeClaimRefused : Nat := 6
def codePartnerReset : Nat := 7
def codeEngineErr : Nat := 8
def codeDropped : Nat := 9
def codeNeuralRefused : Nat := 10

/-- Give a node the code it is to end with, where it has none. -/
def NodeRun.fail (r : NodeRun) (code : Nat) : NodeRun :=
  match r.verdict with
  | some _ => r
  | none => { r with verdict := some code }

/-! ### The marker table -/

/-- PRODUCER and HOLD_MASK of a marker, and the agent of one of its consumer slots (Table 6.2). -/
def State.producer (s : State) (m : Nat) : Nat := s.objNat frameSwatch markerTable (40 * m) 2
def State.mayHold (s : State) (m slot : Nat) : Bool := bit (s.objNat frameSwatch markerTable (40 * m + 2) 2) slot
def State.slotAgent (s : State) (m slot : Nat) : Nat := s.objNat frameSwatch markerTable (40 * m + 4 + 2 * slot) 2

/-- The consumer slot of an agent; a marker without a producer is unused (R208). -/
def State.slotOf (s : State) (m agent : Nat) : Option Nat :=
  if s.producer m = 0 ∨ agent = 0 then none else (List.range 16).find? (fun i => s.slotAgent m i == agent)

/-- An operation that is not accepted is ignored, counted and reported (R194). -/
def State.stitchProto (s : State) (m agent : Nat) : State :=
  (s.addSat fld_STITCH_ERR_PROTO 1).raiseFault faultStitchProto 8 (BitVec.ofNat 32 (m + agent * 2 ^ 16))

/-! ### Answers -/

/-- What an answer does to one input of a node. -/
def NodeInput.hear (m gen : Nat) (a : MarkerAnswer) (i : NodeInput) : NodeInput :=
  if i.marker = m ∧ i.gen = gen ∧ i.awaits = false ∧ a = .ready then { i with ready := true } else i

/-- Whether a node reads a generation of a marker. -/
def NodeRun.reads (r : NodeRun) (m gen : Nat) : Bool :=
  r.inputs.any (fun i => match i with
    | some v => v.marker == m && v.gen == gen && !v.awaits
    | none => false)

/-- What an answer does to a node that reads the generation: READY acquires the input, GONE and VOID end the node (R221). -/
def NodeRun.hear (m gen : Nat) (a : MarkerAnswer) (r : NodeRun) : NodeRun :=
  if r.reads m gen ∧ (r.phase = .queued ∨ r.phase = .running) then
    match a with
    | .ready => { r with inputs := r.inputs.map (Option.map (NodeInput.hear m gen .ready)) }
    | .gone => r.fail codeGone
    | .void => r.fail codeVoid
  else r

/-- What a GONE means to a node: its input was abandoned where the generation asked for is still the marker's, and overwritten
otherwise (Table 6.9). -/
def Marker.nodeAnswer (k : Marker) (gen : Nat) (a : MarkerAnswer) : MarkerAnswer :=
  if a = .gone ∧ k.gen = gen then .void else a

/-- An answer reaches its agent. -/
def State.answer (s : State) (agent m gen : Nat) (a : MarkerAnswer) : State :=
  if agent / 4096 = 2 then s.updNode (agent / 256 % 8) (agent % 64) (NodeRun.hear m gen ((s.marker m).nodeAnswer gen a))
  else { s with vis := { s.vis with answers := s.vis.answers ++ [(agent, m, gen, a)] } }

/-- What a marker answers an ACQUIRE now, or nothing while it waits (Table 5.5). A generation whose marker is IDLE is gone,
whatever its PROGRESS. -/
def Marker.judge (k : Marker) (gen lines : Nat) : Option MarkerAnswer :=
  if k.gen = gen ∧ (k.state = .published ∨ (k.state = .writing ∧ lines ≤ k.progress)) then some .ready
  else if gen < k.gen ∨ (k.gen = gen ∧ k.state = .idle) then some .gone
  else none

/-- Set a READERS bit. -/
def Marker.read (k : Marker) (slot : Nat) : Marker :=
  if k.readers.contains slot then k else { k with readers := insertBy (fun a b => decide (a < b)) slot k.readers }

/-- Answer an ACQUIRE, or let it wait. -/
def State.acquireSlot (s : State) (m slot gen lines : Nat) : State :=
  let k := s.marker m
  match k.judge gen lines with
  | some .ready => (s.setMarker m (k.read slot)).answer (s.slotAgent m slot) m gen .ready
  | some a => s.answer (s.slotAgent m slot) m gen a
  | none => s.setMarker m { k with waiting := k.waiting ++ [⟨slot, gen, lines⟩] }

/-- Answer the waiting ACQUIREs that are now answered, in order of arrival (R193). -/
def State.settle (s : State) (m : Nat) : State :=
  let w := (s.marker m).waiting
  w.foldl (fun s a => s.acquireSlot m a.slot a.gen a.lines) (s.setMarker m { s.marker m with waiting := [] })

/-! ### Operations -/

/-- ACQUIRE by an agent (Table 5.5); none where the agent has no slot. -/
def State.acquireOp (s : State) (m agent gen lines : Nat) : Option State :=
  match s.slotOf m agent with
  | some i => some (s.acquireSlot m i gen lines)
  | none => none

/-- The copy of a buffer that a marker guards. -/
def State.copyOf (s : State) (b m : Nat) : Option Nat :=
  let e := s.bufEntry b
  (List.range (s.bufCopies e)).find? (fun c => s.bufMarker e c == some m)

/-- Fix an awaiting input on the copy just claimed, and ask for it where it does not stream (R213, R217). -/
def State.fixAwaiting (s : State) (m g n i : Nat) : State :=
  let d := s.nodeDesc g n
  match s.node? g n with
  | some r =>
    match (r.inputs[i]?).join with
    | some v =>
      if v.awaits then
        match s.copyOf (d.inBuf i) m with
        | some c =>
          let gen := (s.marker m).gen
          let s := s.updNode g n (fun r => { r with inputs := setAt r.inputs i (some ⟨c, m, gen, false, false⟩) })
          if d.streams i then s
          else match s.acquireOp m (nodeAgent g n) gen 65535 with
            | some s => s
            | none => s.stitchProto m (nodeAgent g n)
        | none => s
      else s
    | none => s
  | none => s

/-- Fix what an activation still awaits for a node not yet issued (R213). -/
def State.fixTrigger (s : State) (m g : Nat) : State :=
  s.updAct g (fun a =>
    { a with fixed := a.fixed.map (fun e =>
        match e.2 with
        | some v =>
          match s.copyOf ((s.nodeDesc g (e.1 / 4)).inBuf (e.1 % 4)) m with
          | some c => if v.awaits then (e.1, some ⟨c, m, (s.marker m).gen, false, false⟩) else e
          | none => e
        | none => e) })

/-- Fix every input that awaits the claim of a marker. -/
def State.fixAwaitings (s : State) (m : Nat) : State :=
  (List.range 8).foldl (fun s g =>
    let s := s.fixTrigger m g
    (List.range (s.nodeCount g)).foldl (fun s n =>
      (List.range 4).foldl (fun s i => s.fixAwaiting m g n i) s) s) s

/-- Whether a marker accepts CLAIM (Table 5.5). -/
def Marker.claimable (k : Marker) : Bool :=
  k.state == .idle || (k.state == .published && k.readers.isEmpty && k.holds.isEmpty)

/-- CLAIM (Table 5.5). -/
def State.claimOp (s : State) (m agent : Nat) : Option State :=
  let k := s.marker m
  if s.producer m = agent ∧ agent ≠ 0 ∧ k.claimable = true then
    let n := s.vis.order + 1
    let s := s.setMarker m { k with gen := (k.gen + 1) % 2 ^ 32, state := .writing, progress := 0, claimed := n }
    some (({ s with vis := { s.vis with order := n } }.settle m).fixAwaitings m)
  else none

/-- ADVANCE (Table 5.5). -/
def State.advanceOp (s : State) (m agent lines : Nat) : Option State :=
  let k := s.marker m
  if s.producer m = agent ∧ agent ≠ 0 ∧ k.state = .writing ∧ k.progress ≤ lines then
    some ((s.setMarker m { k with progress := min 65535 lines }).settle m)
  else none

/-- PUBLISH (Table 5.5). -/
def State.publishOp (s : State) (m agent : Nat) : Option State :=
  let k := s.marker m
  if s.producer m = agent ∧ agent ≠ 0 ∧ k.state = .writing then
    let n := s.vis.order + 1
    let s := s.setMarker m { k with state := .published, published := n }
    some (({ s with vis := { s.vis with order := n } }.settle m).offerImage m k.gen)
  else none

/-- Slots that hold or wait on the present generation. -/
def Marker.interested (k : Marker) : List Nat :=
  let l := k.readers ++ k.holds ++ (k.waiting.filter (fun w => w.gen == k.gen)).map (·.slot)
  (List.range 16).filter (fun i => l.contains i)

/-- ABANDON (Table 5.5): every consumer holding or waiting on the generation receives VOID. -/
def State.abandonOp (s : State) (m agent : Nat) : Option State :=
  let k := s.marker m
  if s.producer m = agent ∧ agent ≠ 0 ∧ k.state = .writing then
    let s := s.setMarker m { k with state := .idle, readers := [], waiting := k.waiting.filter (fun w => w.gen != k.gen) }
    some (k.interested.foldl (fun s i => s.answer (s.slotAgent m i) m k.gen .void) s)
  else none

/-- RELEASE (Table 5.5). -/
def State.releaseOp (s : State) (m agent : Nat) : Option State :=
  let k := s.marker m
  match s.slotOf m agent with
  | some i => if k.readers.contains i then some (s.setMarker m { k with readers := k.readers.filter (· != i) }) else none
  | none => none

/-- HOLD (Table 5.5). -/
def State.holdOp (s : State) (m agent : Nat) : Option State :=
  let k := s.marker m
  match s.slotOf m agent with
  | some i =>
    if s.mayHold m i ∧ k.readers.contains i ∧ k.holds.length < 3 then some (s.setMarker m { k with holds := k.holds ++ [i] })
    else none
  | none => none

/-- Drop one hold: the slot's own where it took one, else the latest. -/
def dropHold (slot : Nat) (l : List Nat) : List Nat :=
  if l.contains slot then dropFirst (· == slot) l else l.dropLast

/-- UNHOLD (Table 5.5). -/
def State.unholdOp (s : State) (m agent : Nat) : Option State :=
  let k := s.marker m
  match s.slotOf m agent with
  | some i =>
    if s.mayHold m i ∧ k.holds ≠ [] then some (s.setMarker m { k with holds := dropHold i k.holds }) else none
  | none => none

/-- An operation's effect, or what R194 does in its place. -/
def State.orProto (s : State) (m agent : Nat) (r : Option State) : State :=
  match r with
  | some t => t
  | none => s.stitchProto m agent

/-- Release what an agent has of a marker: its READERS bit, its holds and its waiting requests (R192). -/
def State.dropAgent (s : State) (m agent : Nat) (holds : Bool) : State :=
  match s.slotOf m agent with
  | some i =>
    let k := s.marker m
    s.setMarker m { k with readers := k.readers.filter (· != i), waiting := k.waiting.filter (fun w => w.slot != i),
                           holds := if holds then k.holds.filter (· != i) else k.holds }
  | none => s

/-! ### Commands -/

/-- CLAIM (R191). -/
def execClaim (marker : Fin 4096) (agent : BitVec 16) (s : State) : Host.Outcome State Fault Refusal :=
  if s.swatchRuns 8 then .next (s.orProto marker agent.toNat (s.claimOp marker agent.toNat)) else .next s

/-- ADVANCE (R191). -/
def execAdvance (marker : Fin 4096) (agent : BitVec 16) (lines : Nat) (s : State) : Host.Outcome State Fault Refusal :=
  if s.swatchRuns 8 then .next (s.orProto marker agent.toNat (s.advanceOp marker agent.toNat lines)) else .next s

/-- PUBLISH (R191). -/
def execPublish (marker : Fin 4096) (agent : BitVec 16) (s : State) : Host.Outcome State Fault Refusal :=
  if s.swatchRuns 8 then .next (s.orProto marker agent.toNat (s.publishOp marker agent.toNat)) else .next s

/-- ABANDON (R191). -/
def execAbandon (marker : Fin 4096) (agent : BitVec 16) (s : State) : Host.Outcome State Fault Refusal :=
  if s.swatchRuns 8 then .next (s.orProto marker agent.toNat (s.abandonOp marker agent.toNat)) else .next s

/-- ACQUIRE (R191). -/
def execAcquire (marker : Fin 4096) (agent : BitVec 16) (gen lines : Nat) (s : State) : Host.Outcome State Fault Refusal :=
  if s.swatchRuns 8 then .next (s.orProto marker agent.toNat (s.acquireOp marker agent.toNat gen lines)) else .next s

/-- RELEASE (R191). -/
def execRelease (marker : Fin 4096) (agent : BitVec 16) (s : State) : Host.Outcome State Fault Refusal :=
  if s.swatchRuns 8 then .next (s.orProto marker agent.toNat (s.releaseOp marker agent.toNat)) else .next s

/-- HOLD (R191). -/
def execHold (marker : Fin 4096) (agent : BitVec 16) (s : State) : Host.Outcome State Fault Refusal :=
  if s.swatchRuns 8 then .next (s.orProto marker agent.toNat (s.holdOp marker agent.toNat)) else .next s

/-- UNHOLD (R191). -/
def execUnhold (marker : Fin 4096) (agent : BitVec 16) (s : State) : Host.Outcome State Fault Refusal :=
  if s.swatchRuns 8 then .next (s.orProto marker agent.toNat (s.unholdOp marker agent.toNat)) else .next s

end Sys2Proof.Machine
end

