-- ==== Sys2Proof/Machine/Imaging.lean ====
section
/-!
DEFINITION. What the vision engines compute: warping, pyramid planes, corners with their descriptors, and tracked points
(R225 to R229).
-/
namespace Sys2Proof.Machine

/-! ### WARP -/

/-- A stored sample brought to 12 bits (R225): the pixel at (x, y) of a stream's raw frame in a set. -/
def State.sample12 (s : State) (n set x y : Nat) : Nat :=
  let line := s.rawBase n set + y * s.rawStride n
  match s.streamDt n with
  | 0x2A => s.frameNat (line + x) 1 * 16
  | 0x2B =>
    let a := line + x / 4 * 5
    (s.frameNat (a + x % 4) 1 * 4 + s.frameNat (a + 4) 1 / 4 ^ (x % 4) % 4) * 4
  | 0x2C =>
    let a := line + x / 2 * 3
    s.frameNat (a + x % 2) 1 * 16 + s.frameNat (a + 2) 1 / 16 ^ (x % 2) % 16
  | 0x2D => s.frameNat (line + 2 * x) 2 / 4
  | 0x2E => s.frameNat (line + 2 * x) 2 / 16
  | _ => s.frameNat (line + 2 * x + 1) 1 * 16

/-- The weights 1 2 1 of the Bayer luma. -/
def bayerWeight (i : Int) : Nat := if i = 0 then 2 else 1

/-- The 12-bit luma of a source pixel (R225). -/
def State.luma12 (s : State) (n set cfa x y : Nat) : Nat :=
  if cfa = 0 then s.sample12 n set x y
  else
    let at_ (i j : Int) : Nat :=
      s.sample12 n set (clampInt 0 (s.streamWidth n - 1) (x + i)).toNat (clampInt 0 (s.streamHeight n - 1) (y + j)).toNat
    let d : List Int := [-1, 0, 1]
    (d.foldl (fun t j => d.foldl (fun t i => t + bayerWeight i * bayerWeight j * at_ i j) t) 0 + 8) / 16

/-- What a WARP node works on: source stream and set, CFA, the map and tone tables in the frame store, grid and output size. -/
structure WarpJob where
  stream : Nat
  set : Nat
  cfa : Nat
  map : Nat
  tone : Nat
  grid : Nat
  fill : Nat
  width : Nat
  height : Nat
  deriving DecidableEq, Repr

/-- The 8-bit luma of a source pixel. -/
def State.luma8 (s : State) (j : WarpJob) (x y : Nat) : Nat := s.frameNat (j.tone + s.luma12 j.stream j.set j.cfa x y) 1

/-- Entries of the map in a line and in all (R225). -/
def WarpJob.mapLine (j : WarpJob) : Nat := ceilDiv j.width (2 ^ j.grid) + 1
def WarpJob.mapEntries (j : WarpJob) : Nat := j.mapLine * (ceilDiv j.height (2 ^ j.grid) + 1)

/-- Coordinate c, 0 for x and 1 for y, of a map entry, in 2^-16 pixel. -/
def State.mapEntry (s : State) (j : WarpJob) (c gx gy : Nat) : Int :=
  signed 32 (s.frameNat (j.map + 8 * (gy * j.mapLine + gx) + 4 * c) 4)

/-- The source coordinate of an output pixel, bilinear in the map and rounded to 1/256 pixel, half up (R225). -/
def State.mapped256 (s : State) (j : WarpJob) (c x y : Nat) : Int :=
  let g := 2 ^ j.grid
  let ix := x / g
  let iy := y / g
  let fx : Int := ((x % g : Nat) : Int)
  let fy : Int := ((y % g : Nat) : Int)
  let gi : Int := (g : Int)
  let v : Int := (gi - fx) * (gi - fy) * s.mapEntry j c ix iy + fx * (gi - fy) * s.mapEntry j c (ix + 1) iy +
    (gi - fx) * fy * s.mapEntry j c ix (iy + 1) + fx * fy * s.mapEntry j c (ix + 1) (iy + 1)
  (2 * v + gi * gi * 256) / (2 * (gi * gi * 256))

/-- An output pixel of WARP (R225). -/
def State.warpPixel (s : State) (j : WarpJob) (x y : Nat) : Byte :=
  let qx := s.mapped256 j 0 x y
  let qy := s.mapped256 j 1 x y
  let x0 := qx / 256
  let y0 := qy / 256
  let wx := (qx % 256).toNat
  let wy := (qy % 256).toNat
  if x0 < 0 ∨ y0 < 0 ∨ (s.streamWidth j.stream : Int) ≤ x0 + 1 ∨ (s.streamHeight j.stream : Int) ≤ y0 + 1 then
    BitVec.ofNat 8 j.fill
  else
    let a := x0.toNat
    let b := y0.toNat
    let sum := (256 - wx) * (256 - wy) * s.luma8 j a b + wx * (256 - wy) * s.luma8 j (a + 1) b +
      (256 - wx) * wy * s.luma8 j a (b + 1) + wx * wy * s.luma8 j (a + 1) (b + 1)
    BitVec.ofNat 8 ((sum + 32768) / 65536)

/-- A line of WARP's output. -/
def State.warpLine (s : State) (j : WarpJob) (y : Nat) : List Byte := (List.range j.width).map (fun x => s.warpPixel j x y)

/-- The last source line that an output line reads, plus one (R218). -/
def State.warpNeeds (s : State) (j : WarpJob) (y : Nat) : Nat :=
  let last := (List.range j.width).foldl (fun m x => max m (s.mapped256 j 1 x y / 256 + 1 + (if j.cfa = 0 then 0 else 1))) 0
  min (last.toNat + 1) (s.streamHeight j.stream)

/-! ### PYRAMID -/

/-- The weights 1 4 6 4 1. -/
def pyramidWeight (i : Int) : Nat := if i = 0 then 6 else if i = 1 ∨ i = -1 then 4 else 1

/-- A pixel of the next plane (R226). -/
def State.pyramidPixel (s : State) (g : Gray) (x y : Nat) : Byte :=
  let d : List Int := [-2, -1, 0, 1, 2]
  let sum := d.foldl (fun t j => d.foldl (fun t i =>
    t + pyramidWeight i * pyramidWeight j * s.pixel g (2 * x + i) (2 * y + j)) t) 0
  BitVec.ofNat 8 ((sum + 128) / 256)

/-- A line of the next plane. -/
def State.pyramidLine (s : State) (g : Gray) (width y : Nat) : List Byte :=
  (List.range width).map (fun x => s.pyramidPixel g x y)

/-- Write line y of plane l of a set from the plane below it. -/
def State.buildLine (s : State) (n set l : Nat) (src : Gray) (y : Nat) : State :=
  let dst := s.planeGray n set l
  s.setFrameBytes (dst.base + y * dst.stride) (s.pyramidLine src dst.width y)

/-! ### CORNER -/

/-- The 16 pixels of the radius-3 circle, in order round it. -/
def circle16 : List (Int × Int) :=
  [(0, -3), (1, -3), (2, -2), (3, -1), (3, 0), (3, 1), (2, 2), (1, 3), (0, 3), (-1, 3), (-2, 2), (-3, 1), (-3, 0),
    (-3, -1), (-2, -2), (-1, -3)]

/-- The pixels of the circle round a place. -/
def State.circleAt (s : State) (g : Gray) (x y : Int) : List Nat := circle16.map (fun d => s.pixel g (x + d.1) (y + d.2))

/-- Whether at least n contiguous elements of a ring satisfy a test. -/
def ringRun (n : Nat) (l : List Bool) : Bool :=
  ((l ++ l).foldl (fun (r : Nat × Nat) b => if b then (r.1 + 1, max r.2 (r.1 + 1)) else (0, r.2)) (0, 0)).2 ≥ n

/-- Whether a pixel is a candidate (R227, 1). -/
def State.isCorner (s : State) (g : Gray) (t x y : Nat) : Bool :=
  let c := s.pixel g x y
  let l := s.circleAt g x y
  ringRun 9 (l.map (fun p => decide (c + t < p))) || ringRun 9 (l.map (fun p => decide (p + t < c)))

/-- A pixel's score (R227, 2). -/
def State.cornerScore (s : State) (g : Gray) (t x y : Nat) : Nat :=
  let c := s.pixel g x y
  min 65535 ((s.circleAt g x y).foldl (fun a p => a + ((if p < c then c - p else p - c) - t)) 0)

/-- A keypoint of the search: place and score. -/
structure Corner where
  x : Nat
  y : Nat
  score : Nat
  deriving DecidableEq, Repr

/-- The neighbours before and after a pixel in raster order. -/
def before8 : List (Int × Int) := [(-1, -1), (0, -1), (1, -1), (-1, 0)]
def after8 : List (Int × Int) := [(1, 0), (-1, 1), (0, 1), (1, 1)]

/-- The score that suppression sees: that of a candidate, 0 elsewhere. -/
def State.candidateScore (s : State) (g : Gray) (t : Nat) (x y : Int) : Nat :=
  if 0 ≤ x ∧ 0 ≤ y ∧ s.isCorner g t x.toNat y.toNat = true then s.cornerScore g t x.toNat y.toNat else 0

/-- Whether a candidate survives suppression and the border (R227, 3 and 4). -/
def State.survives (s : State) (g : Gray) (t minScore x y : Nat) : Bool :=
  let v := s.cornerScore g t x y
  decide (24 ≤ x) && decide (24 ≤ y) && decide (x + 24 < g.width) && decide (y + 24 < g.height) && s.isCorner g t x y &&
    before8.all (fun d => decide (s.candidateScore g t (x + d.1) (y + d.2) < v)) &&
    after8.all (fun d => decide (s.candidateScore g t (x + d.1) (y + d.2) ≤ v)) && decide (minScore ≤ v)

/-- Every survivor in raster order. -/
def State.corners (s : State) (g : Gray) (t minScore : Nat) : List Corner :=
  (List.range g.height).flatMap (fun y =>
    ((List.range g.width).filter (fun x => s.survives g t minScore x y)).map (fun x => ⟨x, y, s.cornerScore g t x y⟩))

/-- By descending score; a stable sort leaves equal scores in raster order. -/
def byScore (a b : Corner) : Bool := decide (b.score < a.score)

/-- The cell of a keypoint in raster order of cells. -/
def cellOf (g : Gray) (log : Nat) (c : Corner) : Nat := c.y / 2 ^ log * ceilDiv g.width (2 ^ log) + c.x / 2 ^ log

/-- The keypoints kept, cell by cell and by descending score, and whether more than MAX_TOTAL survived (R227, 5 and 6). -/
def State.keptCorners (s : State) (g : Gray) (t minScore log perCell maxTotal : Nat) : List Corner × Bool :=
  let all := s.corners g t minScore
  let cells := List.range (ceilDiv g.width (2 ^ log) * ceilDiv g.height (2 ^ log))
  let each := cells.flatMap (fun k => (sortBy byScore (all.filter (fun c => cellOf g log c == k))).take perCell)
  let raster := all.filter (fun c => each.contains c)
  let best := (sortBy byScore raster).take maxTotal
  (cells.flatMap (fun k => sortBy byScore (best.filter (fun c => cellOf g log c == k))), decide (maxTotal < each.length))

/-- The subpixel offset along an axis (R227). -/
def subpixel (less at_ more : Nat) : Rat :=
  let d : Int := 2 * ((less : Int) - 2 * at_ + more)
  if 0 ≤ d then 0
  else
    let v : Rat := ((less : Int) - more : Int) / (d : Rat)
    if v < -1 / 2 then -1 / 2 else if 1 / 2 < v then 1 / 2 else v

/-- xorshift32 (R227, R232). -/
def xorshift (r : BitVec 32) : BitVec 32 :=
  let r := r ^^^ (r <<< 13)
  let r := r ^^^ (r >>> 17)
  r ^^^ (r <<< 5)

/-- One coordinate of the pattern. -/
def patternCoord (r : BitVec 32) : Int := (r.toNat % 27 : Int) - 13

/-- The next pair of the pattern, drawn again while its points are equal; `fuel` bounds the redraws. -/
def patternPair : Nat → BitVec 32 → ((Int × Int) × (Int × Int)) × BitVec 32
  | 0, r => (((0, 0), (0, 0)), r)
  | fuel + 1, r =>
    let a := xorshift r
    let b := xorshift a
    let c := xorshift b
    let d := xorshift c
    let p := ((patternCoord a, patternCoord b), (patternCoord c, patternCoord d))
    if p.1 = p.2 then patternPair fuel d else (p, d)

/-- The first n pairs of the pattern from a seed. -/
def patternPairs : Nat → BitVec 32 → List ((Int × Int) × (Int × Int))
  | 0, _ => []
  | n + 1, r =>
    let p := patternPair 64 r
    p.1 :: patternPairs n p.2

/-- The fixed pattern of 256 pairs (R227). -/
def binaryPattern : List ((Int × Int) × (Int × Int)) := patternPairs 256 0x2545F491#32

/-- cos and sin of k × 12°, in 10^-15. No rotated coordinate lies within 10^-4 of a half except the exact halves. -/
def cos12 : List Int :=
  [1000000000000000, 978147600733806, 913545457642601, 809016994374948, 669130606358858,
   500000000000000, 309016994374947, 104528463267653, -104528463267654, -309016994374947,
   -500000000000000, -669130606358858, -809016994374947, -913545457642601, -978147600733806,
   -1000000000000000, -978147600733806, -913545457642601, -809016994374948, -669130606358858,
   -500000000000000, -309016994374948, -104528463267653, 104528463267653, 309016994374947,
   500000000000000, 669130606358858, 809016994374947, 913545457642601, 978147600733806]
def sin12 : List Int :=
  [0, 207911690817759, 406736643075800, 587785252292473, 743144825477394,
   866025403784439, 951056516295154, 994521895368273, 994521895368273, 951056516295154,
   866025403784439, 743144825477394, 587785252292473, 406736643075800, 207911690817759,
   0, -207911690817760, -406736643075800, -587785252292473, -743144825477394,
   -866025403784438, -951056516295154, -994521895368273, -994521895368273, -951056516295154,
   -866025403784439, -743144825477395, -587785252292473, -406736643075800, -207911690817760]

/-- A value in 10^-15 rounded to the nearest integer, half away from zero. -/
def roundAway (v : Int) : Int :=
  let q := (2 * v.natAbs + 1000000000000000) / 2000000000000000
  if v < 0 then -(q : Int) else q

/-- A point rotated by k × 12° (R227). -/
def rotate12 (k : Nat) (p : Int × Int) : Int × Int :=
  let c := cos12.getD k 0
  let n := sin12.getD k 0
  (roundAway (c * p.1 - n * p.2), roundAway (n * p.1 + c * p.2))

/-- The 5 × 5 box mean at a place (R227). -/
def State.boxMean (s : State) (g : Gray) (x y : Int) : Nat :=
  let d : List Int := [-2, -1, 0, 1, 2]
  (d.foldl (fun t j => d.foldl (fun t i => t + s.pixel g (x + i) (y + j)) t) 0 + 12) / 25

/-- The rotation step of an angle: round(angle × 30 / 65,536) mod 30. -/
def angleStep (angle : Nat) : Nat := (angle * 60 + 65536) / 131072 % 30

/-- The binary descriptor of a keypoint (R227): bit i in bit i mod 8 of byte i / 8. -/
def State.binaryDescriptor (s : State) (g : Gray) (c : Corner) (angle : Nat) : List Byte :=
  let k := angleStep angle
  let v := (binaryPattern.map (fun p =>
    let a := rotate12 k p.1
    let b := rotate12 k p.2
    decide (s.boxMean g (c.x + a.1) (c.y + a.2) < s.boxMean g (c.x + b.1) (c.y + b.2)))).foldr
      (fun b t => 2 * t + (if b then 1 else 0)) 0
  toLe 32 v

/-- n free bytes. -/
def State.takeBytes (s : State) : Nat → List Byte × State
  | 0 => ([], s)
  | n + 1 =>
    let (w, s) := s.takeWord
    let (l, s) := State.takeBytes s n
    (BitVec.ofNat 8 w.toNat :: l, s)

end Sys2Proof.Machine
end

