-- ==== Sys2Proof/Machine/Approx.lean ====
section
/-!
DEFINITION. Real arithmetic for the results that the spec gives by a formula and asks of FP64 or FP32 units: numbers as integers
over 2^512, with the elementary functions, small vectors and matrices, and rotations (R271, R272). What an answer keeps of it is
only its rounding to the format that the rule names (assumption 62).
-/
namespace Sys2Proof.Machine

/-- A real number, in units of 2^-512. -/
abbrev Fix := Int

/-- The bits below the point, and one. -/
def fixBits : Nat := 512
def fixOne : Fix := 2 ^ fixBits

/-- Numbers from rationals, and back. -/
def fixRat (q : Rat) : Fix := q.num * fixOne / (q.den : Int)
def fixNat (n : Nat) : Fix := (n : Int) * fixOne
def fixToRat (a : Fix) : Rat := (a : Rat) / (fixOne : Rat)

/-- Products, quotients (0 by 0) and square roots (0 of a negative number). -/
def fixMul (a b : Fix) : Fix := a * b / fixOne
def fixDiv (a b : Fix) : Fix := if b = 0 then 0 else a * fixOne / b
def fixSqrt (a : Fix) : Fix := (Nat.sqrt (a.toNat * 2 ^ fixBits) : Nat)
def fixHalf (a : Fix) : Fix := a / 2

/-- The magnitude of a number, and the largest of a list. -/
def fixAbs (a : Fix) : Fix := if a < 0 then -a else a
def fixMost (l : List Fix) : Fix := l.foldl (fun m x => max m (fixAbs x)) 0

/-- The sum t + t·x/((k+1)(k+2)) + … of n terms: with x = −y², the sine from t = y, k = 1 and the cosine from t = 1, k = 0. -/
def fixSeries (x : Fix) : Nat → Nat → Fix → Fix
  | 0, _, t => t
  | n + 1, k, t => t + fixSeries x n (k + 2) (fixMul t x / (((k + 1) * (k + 2) : Nat) : Int))

/-- The sum t + t·x·k/(k+2) + …: with x = −y², the arc tangent from t = y, k = 1. -/
def fixOddSeries (x : Fix) : Nat → Nat → Fix → Fix
  | 0, k, t => t / (k : Int)
  | n + 1, k, t => t / (k : Int) + fixOddSeries x n (k + 2) (fixMul t x)

/-- The sum t + t·x/(k+1) + …: the exponential from t = 1, k = 0. -/
def fixExpSeries (x : Fix) : Nat → Nat → Fix → Fix
  | 0, _, t => t
  | n + 1, k, t => t + fixExpSeries x n (k + 1) (fixMul t x / ((k + 1 : Nat) : Int))

/-- arctan(1/m) in units of 2^-1024. -/
def atanInv (m : Nat) : Nat → Nat → Int → Int
  | 0, k, t => t / (k : Int)
  | n + 1, k, t => t / (k : Int) + atanInv m n (k + 2) (-(t / ((m * m : Nat) : Int)))

/-- π in units of 2^-1024 (Machin's sum), and as a number. -/
def piWide : Int := 16 * atanInv 5 225 1 (2 ^ 1024 / 5) - 4 * atanInv 239 70 1 (2 ^ 1024 / 239)
def fixPi : Fix := piWide / 2 ^ 512

/-- Double an angle k times from its sine and cosine. -/
def doubleAngle : Nat → Fix × Fix → Fix × Fix
  | 0, p => p
  | k + 1, p => doubleAngle k (2 * fixMul p.1 p.2, fixMul p.2 p.2 - fixMul p.1 p.1)

/-- Sine and cosine. -/
def fixSinCos (a : Fix) : Fix × Fix :=
  let r := (a * 2 ^ 512 % (2 * piWide)) / 2 ^ 512
  let y := r / 2 ^ 8
  let x := -fixMul y y
  doubleAngle 8 (fixSeries x 30 1 y, fixSeries x 30 0 fixOne)

/-- Arc tangent of a number from 0 to 1: six halvings, then the series. -/
def fixAtanSmall (a : Fix) : Fix :=
  let half (v : Fix) : Fix := fixDiv v (fixOne + fixSqrt (fixOne + fixMul v v))
  let y := half (half (half (half (half (half a)))))
  64 * fixOddSeries (-fixMul y y) 42 1 y

/-- atan2 of y and x, in (−π, π]; 0 at the origin. -/
def fixAtan2 (y x : Fix) : Fix :=
  let ay := if y < 0 then -y else y
  let ax := if x < 0 then -x else x
  let t := if ay = 0 ∧ ax = 0 then 0 else if ay ≤ ax then fixAtanSmall (fixDiv ay ax) else fixPi / 2 - fixAtanSmall (fixDiv ax ay)
  let t := if x < 0 then fixPi - t else t
  if y < 0 then -t else t

/-- Square k times. -/
def squareTimes : Nat → Fix → Fix
  | 0, a => a
  | k + 1, a => squareTimes k (fixMul a a)

/-- The exponential. -/
def fixExp (a : Fix) : Fix :=
  let up := squareTimes 16 (fixExpSeries ((if a < 0 then -a else a) / 2 ^ 16) 52 0 fixOne)
  if a < 0 then fixDiv fixOne up else up

/-- ln 2 = 2 artanh(1/3), and the logarithm of a positive number. -/
def fixLn2 : Fix := 2 * fixOddSeries (fixOne / 9) 165 1 (fixOne / 3)
def fixLog (a : Fix) : Fix :=
  let k : Int := (Nat.log2 a.toNat : Int) - fixBits
  let m := if k < 0 then a * 2 ^ k.natAbs else a / 2 ^ k.toNat
  let z := fixDiv (m - fixOne) (m + fixOne)
  k * fixLn2 + 2 * fixOddSeries (fixMul z z) 165 1 z

/-! ### Vectors and matrices, by rows -/

/-- A component, 0 where there is none. -/
def fixAt (v : List Fix) (i : Nat) : Fix := v.getD i 0
def matAt (m : List (List Fix)) (i j : Nat) : Fix := fixAt (m.getD i []) j

/-- A vector and a matrix of given shape. -/
def mkVec (n : Nat) (f : Nat → Fix) : List Fix := (List.range n).map f
def mkMat (r c : Nat) (f : Nat → Nat → Fix) : List (List Fix) := (List.range r).map (fun i => mkVec c (f i))

def vecAdd (a b : List Fix) : List Fix := List.zipWith (· + ·) a b
def vecSub (a b : List Fix) : List Fix := List.zipWith (· - ·) a b
def vecScale (k : Fix) (a : List Fix) : List Fix := a.map (fixMul k)
def vecDot (a b : List Fix) : Fix := (List.zipWith (· * ·) a b).foldl (· + ·) 0 / fixOne
def vecNorm (a : List Fix) : Fix := fixSqrt (vecDot a a)
def vecCross (a b : List Fix) : List Fix :=
  let t (i j : Nat) : Fix := fixMul (fixAt a i) (fixAt b j) - fixMul (fixAt a j) (fixAt b i)
  [t 1 2, t 2 0, t 0 1]

def matAdd (a b : List (List Fix)) : List (List Fix) := List.zipWith vecAdd a b
def matSub (a b : List (List Fix)) : List (List Fix) := List.zipWith vecSub a b
def matScale (k : Fix) (a : List (List Fix)) : List (List Fix) := a.map (vecScale k)
def matVec (a : List (List Fix)) (v : List Fix) : List Fix := a.map (fun r => vecDot r v)
def matTrans (c : Nat) (a : List (List Fix)) : List (List Fix) := mkMat c a.length (fun i j => matAt a j i)

/-- a times b, b with c columns. -/
def matMul (c : Nat) (a b : List (List Fix)) : List (List Fix) :=
  let t := matTrans c b
  a.map (fun r => t.map (vecDot r))

def matId (n : Nat) : List (List Fix) := mkMat n n (fun i j => if i = j then fixOne else 0)
def matZero (r c : Nat) : List (List Fix) := mkMat r c (fun _ _ => 0)
def matDiag (d : List Fix) : List (List Fix) := mkMat d.length d.length (fun i j => if i = j then fixAt d i else 0)

/-- The matrix [w]× of the cross product. -/
def skew (w : List Fix) : List (List Fix) :=
  [[0, -fixAt w 2, fixAt w 1], [fixAt w 2, 0, -fixAt w 0], [-fixAt w 1, fixAt w 0, 0]]

/-- Paste 3 × 3 blocks, by rows of blocks. -/
def blocks3 (b : List (List (List (List Fix)))) : List (List Fix) :=
  b.flatMap (fun row => mkMat 3 (3 * row.length) (fun i j => matAt (row.getD (j / 3) []) i (j % 3)))

/-- The determinant and the inverse of a 3 × 3 matrix. -/
def det3 (m : List (List Fix)) : Fix := vecDot (m.getD 0 []) (vecCross (m.getD 1 []) (m.getD 2 []))
def inv3 (m : List (List Fix)) : List (List Fix) :=
  let r (i : Nat) := m.getD i []
  let c := [vecCross (r 1) (r 2), vecCross (r 2) (r 0), vecCross (r 0) (r 1)]
  let d := det3 m
  mkMat 3 3 (fun i j => fixDiv (matAt c j i) d)

/-! ### Rotations and poses (R271, R272) -/

/-- The Hamilton product of quaternions x, y, z, w. -/
def quatMul (a b : List Fix) : List Fix :=
  let p (i j : Nat) : Fix := fixMul (fixAt a i) (fixAt b j)
  [p 3 0 + p 0 3 + p 1 2 - p 2 1, p 3 1 - p 0 2 + p 1 3 + p 2 0, p 3 2 + p 0 1 - p 1 0 + p 2 3, p 3 3 - p 0 0 - p 1 1 - p 2 2]

def quatConj (q : List Fix) : List Fix := [-fixAt q 0, -fixAt q 1, -fixAt q 2, fixAt q 3]
def quatId : List Fix := [0, 0, 0, fixOne]

/-- A vector scaled to unit length; a zero vector stays. -/
def vecUnit (q : List Fix) : List Fix :=
  let n := vecNorm q
  q.map (fun x => fixDiv x n)

/-- R(q) of a quaternion of unit length. -/
def quatMat (q : List Fix) : List (List Fix) :=
  let p (i j : Nat) : Fix := 2 * fixMul (fixAt q i) (fixAt q j)
  [[fixOne - p 1 1 - p 2 2, p 0 1 - p 2 3, p 0 2 + p 1 3],
   [p 0 1 + p 2 3, fixOne - p 0 0 - p 2 2, p 1 2 - p 0 3],
   [p 0 2 - p 1 3, p 1 2 + p 0 3, fixOne - p 0 0 - p 1 1]]
def quatRot (q v : List Fix) : List Fix := matVec (quatMat q) v

/-- The bound under which the series are used: 2^-7. -/
def fixSmall : Fix := fixOne / 2 ^ 7

/-- SO3_EXP: the quaternion of a rotation vector. -/
def so3Exp (w : List Fix) : List Fix :=
  let t2 := vecDot w w
  let t := fixSqrt t2
  let (k, c) :=
    if t < fixSmall then (fixOne / 2 - t2 / 48, fixOne - t2 / 8 + fixMul t2 t2 / 384)
    else
      let (sn, cs) := fixSinCos (t / 2)
      (fixDiv sn t, cs)
  vecScale k w ++ [c]

/-- The axis where w = 0: its first nonzero component positive. -/
def axisUp (v : List Fix) : List Fix :=
  match v.find? (· != 0) with
  | some x => if x < 0 then v.map (fun y => -y) else v
  | none => v

/-- SO3_LOG: the rotation vector of a quaternion. -/
def so3Log (q : List Fix) : List Fix :=
  let u := vecUnit q
  let u := if fixAt u 3 < 0 then u.map (fun x => -x) else u
  let v := u.take 3
  let w := fixAt u 3
  let n2 := vecDot v v
  let n := fixSqrt n2
  if w = 0 then vecScale fixPi (axisUp v)
  else if n < fixSmall then vecScale (fixMul (fixDiv (2 * fixOne) w) (fixOne - fixDiv n2 (3 * fixMul w w))) v
  else vecScale (fixDiv (2 * fixAtan2 n w) n) v

/-- I + a[w]× + b[w]×². -/
def rotSeries (a b : Fix) (w : List Fix) : List (List Fix) :=
  let k := skew w
  matAdd (matId 3) (matAdd (matScale a k) (matScale b (matMul 3 k k)))

/-- a, b and c of R272. -/
def rotCoefs (w : List Fix) : Fix × Fix × Fix :=
  let t2 := vecDot w w
  let t := fixSqrt t2
  if t < fixSmall then (fixOne / 2 - t2 / 24, fixOne / 6 - t2 / 120, fixOne / 12 + t2 / 720)
  else
    let (sn, cs) := fixSinCos t
    (fixDiv (fixOne - cs) t2, fixDiv (t - sn) (fixMul t2 t), fixDiv (fixOne - fixDiv (fixMul t sn) (2 * (fixOne - cs))) t2)

/-- V, and its inverse. -/
def rotV (w : List Fix) : List (List Fix) :=
  let (a, b, _) := rotCoefs w
  rotSeries a b w
def rotVInv (w : List Fix) : List (List Fix) :=
  let (_, _, c) := rotCoefs w
  rotSeries (-(fixOne / 2)) c w

/-- The right Jacobian of SO(3): V of the opposite rotation. -/
def rotJr (w : List Fix) : List (List Fix) := rotV (w.map (fun x => -x))

/-- Poses, quaternion then translation: product and inverse. -/
def poseMul (a b : List Fix) : List Fix := quatMul (a.take 4) (b.take 4) ++ vecAdd (quatRot (a.take 4) (b.drop 4)) (a.drop 4)
def poseInv (a : List Fix) : List Fix :=
  let q := quatConj (a.take 4)
  q ++ (quatRot q (a.drop 4)).map (fun x => -x)

/-- R(q)v. Of a quaternion not of unit length the spec does not say which matrix R(q) is: that of the quaternion normalised, that of
q v q*, or that of its formula for unit length (assumption 62). -/
def geomRot (q v : List Fix) : List Fix :=
  if Config.geomForm % 3 = 0 then quatRot (vecUnit q) v
  else if Config.geomForm % 3 = 1 then (quatMul (quatMul q (v ++ [0])) (quatConj q)).take 3
  else quatRot q v

/-- R(q) by rows. -/
def geomMat (q : List Fix) : List (List Fix) :=
  matTrans 3 ((List.range 3).map (fun i => geomRot q (mkVec 3 (fun j => if j = i then fixOne else 0))))

/-- SE3_EXP of a twist, and a pose moved by one on its right. -/
def se3Exp (x : List Fix) : List Fix := so3Exp (x.take 3) ++ matVec (rotV (x.take 3)) (x.drop 3)
def movePose (pose x : List Fix) : List Fix := poseMul pose (se3Exp x)

/-- A pose times a pose, the inverse of one, and SE3_LOG, with R(q) of any quaternion as the unit reads it (R271, R272). -/
def geomMul (a b : List Fix) : List Fix := quatMul (a.take 4) (b.take 4) ++ vecAdd (geomRot (a.take 4) (b.drop 4)) (a.drop 4)
def geomInv (a : List Fix) : List Fix :=
  let q := quatConj (a.take 4)
  q ++ (geomRot q (a.drop 4)).map (fun x => -x)
def se3Log (p : List Fix) : List Fix :=
  let w := so3Log (p.take 4)
  w ++ matVec (rotVInv w) (p.drop 4)

/-! ### Systems -/

/-- The derivative of a vector function of n variables at 0, by columns, from steps of 2^-100 either way. -/
def derivative (n : Nat) (f : List Fix → List Fix) : List (List Fix) :=
  (List.range n).map (fun i =>
    let h : Fix := fixOne / 2 ^ 100
    let at_ (v : Fix) := f (mkVec n (fun k => if k = i then v else 0))
    (List.zipWith (· - ·) (at_ h) (at_ (-h))).map (fun d => d * 2 ^ 99))

/-- Solve a system by elimination, rows with their right side; none where it is singular. -/
def eliminate : Nat → List (List Fix) → Option (List Fix)
  | 0, _ => some []
  | n + 1, rows =>
    let pivot := rows.foldl (fun (b : List Fix) r => if fixAbs (fixAt b 0) < fixAbs (fixAt r 0) then r else b) (rows.getD 0 [])
    if fixAt pivot 0 = 0 then none
    else
      let rest := (dropFirst (· == pivot) rows).map (fun r =>
        let f := fixDiv (fixAt r 0) (fixAt pivot 0)
        (vecSub r (vecScale f pivot)).drop 1)
      (eliminate n rest).map (fun x => fixDiv (fixAt pivot (n + 1) - vecDot ((pivot.drop 1).take n) x) (fixAt pivot 0) :: x)

/-- JᵀJ from a derivative by columns. -/
def gram (j : List (List Fix)) : List (List Fix) := j.map (fun a => j.map (vecDot a))

/-- Every value of a list of options, where all are there. -/
def allSome {α : Type} (l : List (Option α)) : Option (List α) :=
  l.foldr (fun x r => match x, r with | some a, some l => some (a :: l) | _, _ => none) (some [])

/-- The inverse of a matrix; none where it is singular. -/
def matInverse (n : Nat) (m : List (List Fix)) : Option (List (List Fix)) :=
  (allSome ((List.range n).map (fun c => eliminate n (m.zipIdx.map (fun r => r.1 ++ [if r.2 = c then fixOne else 0]))))).map (matTrans n)

/-- The lower Cholesky factor by rows; none where a pivot is not positive. -/
def cholesky (n : Nat) (m : List (List Fix)) : Option (List (List Fix)) :=
  (List.range n).foldl (fun x i => x.bind (fun l =>
    let row := (List.range i).foldl (fun r j => r ++ [fixDiv (matAt m i j - vecDot r (l.getD j [])) (matAt l j j)]) []
    let d := matAt m i i - vecDot row row
    if d ≤ 0 then none else some (l ++ [row ++ [fixSqrt d]]))) (some [])

/-- The matrix whose upper triangle a list holds by rows. -/
def symOf (n : Nat) (l : List Fix) : List (List Fix) :=
  mkMat n n (fun i j =>
    let a := min i j
    fixAt l (a * n - a * (a - 1) / 2 + (max i j - a)))

/-! ### Values of formats -/

/-- A finite value as a number. -/
def Fp.fix? : Fp → Option Fix
  | .num q _ => some (fixRat q)
  | _ => none

/-- Every value of a list, where all are finite. -/
def fixes (l : List Fp) : Option (List Fix) := if l.all Fp.finite then some (l.map (fun v => (v.fix?).getD 0)) else none

/-- FP32 words as numbers, where all are finite. -/
def wordFixes (l : List Word) : Option (List Fix) := fixes (l.map (fun w => ofWord32 w.toNat))

/-- FP32 words at an offset of a record. -/
def fp32At (d : List Byte) (off n : Nat) : List Fp := (List.range n).map (fun i => ofWord32 (field d (off + 4 * i) 4))

/-! ### What a unit answers -/

/-- A value off by no more than a bound. -/
def fixFree (v bound : Fix) (k : Nat) : Fix := v + bound * (((k % 2 ^ 33 : Nat) : Int) - 2 ^ 32) / 2 ^ 32

/-- A value that an FP64 unit has evaluated: off the real one by no more than 2^-34 of a scale (assumption 62). -/
def fixNudge (v scale : Fix) (k : Nat) : Fix := fixFree v (scale / 2 ^ 34) k

/-- The FP32 word it rounds to by RNE; the sign of a zero is that of the last bit. -/
def nudgedWord (v scale : Fix) (k : Nat) : Word :=
  BitVec.ofNat 32 (toWord32 (fp32.round (fixToRat (fixNudge v scale k)) (bit k 63)))

/-- Words from values with the scales of their errors, and words that an operand that was not finite leaves open; `err` gives what the
evaluation leaves open of each component. -/
def wordsBy (err : Nat → BitVec 64) (l : List (Fix × Fix)) : List Word := l.zipIdx.map (fun x => nudgedWord x.1.1 x.1.2 (err x.2).toNat)
def openWords (err : Nat → BitVec 64) (n : Nat) : List Word := (List.range n).map (fun i => (err i).setWidth 32)

/-- A vector of n values rounded once to FP32, errors measured against its largest; open where there is none. -/
def vecBy (err : Nat → BitVec 64) (n : Nat) (v : Option (List Fix)) : List Word :=
  match v with
  | some l => wordsBy err (l.map (fun x => (x, fixMost l)))
  | none => openWords err n

/-- n free words. -/
def State.takeWords (s : State) : Nat → List Word × State
  | 0 => ([], s)
  | n + 1 =>
    let (w, s) := s.takeWord
    let (l, s) := State.takeWords s n
    (w.setWidth 32 :: l, s)

/-- Values rounded to FP32, each off by no more than its scale allows. -/
def State.roundScaled (s : State) : List (Fix × Fix) → List Word × State
  | [] => ([], s)
  | (v, scale) :: r =>
    let (w, s) := s.takeWord
    let (l, s) := State.roundScaled s r
    (nudgedWord v scale w.toNat :: l, s)

/-- A vector of n values rounded once to FP32, their errors measured against its largest; free where an operand was not finite. -/
def State.roundVec (s : State) (n : Nat) (v : Option (List Fix)) : List Word × State :=
  match v with
  | some l => s.roundScaled (l.map (fun x => (x, fixMost l)))
  | none => s.takeWords n

/-- Values rounded once to FP32, each with an error of its own; free where an operand was not finite. -/
def State.roundEach (s : State) (n : Nat) (v : Option (List Fix)) : List Word × State :=
  match v with
  | some l => s.roundScaled (l.map (fun x => (x, x)))
  | none => s.takeWords n

/-- A Q16.16 coordinate of a value: one of its two neighbours, free where it does not fit. -/
def State.roundPixel (s : State) (v : Fix) : Nat × State :=
  let q := fixToRat v * 65536
  let (up, s) := s.takeBit
  let x := roundFree q up
  if -(2 ^ 31 : Int) ≤ x ∧ x < 2 ^ 31 then ((x % 2 ^ 32).toNat, s)
  else
    let (w, s) := s.takeWord
    (w.toNat % 2 ^ 32, s)

end Sys2Proof.Machine
end

