-- ==== Sys2Proof/Machine/CommandStatus.lean ====
section
/-!
DEFINITION. Status records of the command channel (R496, R509).
-/
namespace Sys2Proof.Machine

/-- Command results (Table 14.7). -/
def cmdAccepted : Nat := 0
def cmdCrc : Nat := 1
def cmdRepeat : Nat := 2
def cmdBadLength : Nat := 3
def cmdBadType : Nat := 4
def cmdBadBody : Nat := 5
def cmdBusy : Nat := 6
def cmdOrder : Nat := 7
def cmdDiscarded : Nat := 8
def cmdTile : Nat := 9
def cmdImportEnd : Nat := 10
def cmdPinned : Nat := 11

/-- The counter of a result (R509). -/
def State.countResult (s : State) (result detail : Nat) : State :=
  if result = cmdAccepted then s.addWrap fld_CMD_COUNT_0_ACCEPTED 1
  else if result = cmdCrc then s.addSat fld_CMD_COUNT_1_CRC 1
  else if result = cmdRepeat then s.addSat fld_CMD_COUNT_1_REPEAT 1
  else if result = cmdDiscarded then s.addSat fld_CMD_COUNT_3_DISCARDED 1
  else if result = cmdTile then (if detail = 0 then s.addSat fld_CMD_COUNT_3_TILES 1 else s)
  else if result = cmdImportEnd then s
  else s.addSat fld_CMD_COUNT_2_REFUSED 1

/-- Make a status record: it counts, CMD_LAST shows it, and it waits to be sent; the store holds 256 (R488). -/
def State.addStatus (s : State) (dt result detail alive : Nat) (arrival : Stamp) : State :=
  if s.inReset 6 then s
  else
  let s := s.countResult result detail
  let s := ((s.setFld fld_CMD_LAST_DT dt).setFld fld_CMD_LAST_RESULT result).setFld fld_CMD_LAST_DETAIL detail
  if 256 ≤ s.links.status.length then { s with links := { s.links with statusLoss := true } }
  else { s with links := { s.links with
    status := s.links.status ++ [⟨dt, result, detail, alive, arrival, s.stamp⟩] } }

/-- A status record's bytes (R496). -/
def StatusRecord.bytes (r : StatusRecord) : List Byte :=
  toLe 1 r.dt ++ toLe 1 r.result ++ toLe 1 r.detail ++ toLe 1 0 ++ toLe 2 r.alive ++ toLe 2 0 ++ toLe 4 (stampSec r.arrival) ++
    toLe 4 (stampNs r.arrival)

end Sys2Proof.Machine
end

