-- ==== Sys2Proof/Machine/Selvedge.lean ====
section
/-!
DEFINITION. The Selvedge code (R320 to R322) and the record of what its checks find (R325, R326, R335).
-/
namespace Sys2Proof.Machine

/-! ### The field and the code -/

/-- Multiplication by x in GF(2^8) under 0x11D. -/
def gfDouble (a : Byte) : Byte := if a.getLsbD 7 then (a <<< 1) ^^^ 0x1D#8 else a <<< 1

/-- n steps of a product: the sum of a × 2^i over the set bits i of b. -/
def gfMulBits : Nat → Byte → Byte → Byte
  | 0, _, _ => 0
  | n + 1, a, b => (if b.getLsbD 0 then a else 0) ^^^ gfMulBits n (gfDouble a) (b >>> 1)

/-- A product in GF(2^8). -/
def gfMul (a b : Byte) : Byte := gfMulBits 8 a b

/-- α^n, where α is 0x02. -/
def gfPow : Nat → Byte
  | 0 => 1
  | n + 1 => gfDouble (gfPow n)

/-- The coefficients of g(x) below x^4, lowest first (R320). -/
def selvedgeG : List Byte := [0x40, 0x78, 0x36, 0x0F]

/-- One step of the division of R320: the remainder of x × r(x) + x^4 × d modulo g(x). -/
def selvedgeStep (r : List Byte) (d : Byte) : List Byte :=
  let top := d ^^^ r.getD 3 0
  [gfMul top (selvedgeG.getD 0 0), r.getD 0 0 ^^^ gfMul top (selvedgeG.getD 1 0),
    r.getD 1 0 ^^^ gfMul top (selvedgeG.getD 2 0), r.getD 2 0 ^^^ gfMul top (selvedgeG.getD 3 0)]

/-- The check symbols P₀ to P₃ of 32 data bytes and a tag (R320). -/
def selvedgeChecks (data : List Byte) (tag : Nat) : List Byte :=
  (slice data 0 32 ++ toLe 3 tag).reverse.foldl selvedgeStep [0, 0, 0, 0]

/-- Syndrome i of symbols at positions: of a whole received word, or of the differences alone, since a code word's own syndromes are
zero. -/
def selvedgeSyndrome (errors : SymbolErrors) (i : Nat) : Byte :=
  errors.foldl (fun a e => a ^^^ gfMul e.2 (gfPow (i * e.1))) 0

/-- The outcome of a check (R321). -/
inductive WordClass where
  | clean
  | corrected (position : Nat) (value : Byte)
  | uncorrectable (location : Bool)
  deriving DecidableEq, Repr

/-- The position whose single error gives the syndromes, the tag's positions included. -/
def selvedgeLocate (s0 s1 s2 s3 : Byte) : Option Nat :=
  (List.range 39).find? (fun p =>
    let x := gfPow p
    s0 != 0 && gfMul s0 x == s1 && gfMul s1 x == s2 && gfMul s2 x == s3)

/-- The check of R321. -/
def selvedgeCheck (errors : SymbolErrors) : WordClass :=
  let s0 := selvedgeSyndrome errors 0
  let s1 := selvedgeSyndrome errors 1
  let s2 := selvedgeSyndrome errors 2
  let s3 := selvedgeSyndrome errors 3
  if s0 = 0 ∧ s1 = 0 ∧ s2 = 0 ∧ s3 = 0 then .clean
  else match selvedgeLocate s0 s1 s2 s3 with
    | some p => if p < 36 then .corrected p s0 else .uncorrectable true
    | none => .uncorrectable false

/-- Data bytes with the differences at the data positions applied. -/
def applySymbols (data : List Byte) (errors : SymbolErrors) : List Byte :=
  errors.foldl (fun l e => if 4 ≤ e.1 ∧ e.1 < 36 then setAt l (e.1 - 4) (l.getD (e.1 - 4) 0 ^^^ e.2) else l) data

/-- The tags of Table 9.10: an SRAM word's, a flit half's, an LPDDR5X data word's and a NAND word's. -/
def sramTag : Nat := 0
def poriskTag (port lane half flit : Nat) : Nat := port % 2 ^ 8 + lane % 4 * 2 ^ 8 + half % 2 * 2 ^ 10 + flit % 8192 * 2 ^ 11
def dramTag (w : Nat) : Nat := Nat.xor (w % 2 ^ 24) (w / 2 ^ 24 % 128 * 2 ^ 16)
def nandTag (row j : Nat) : Nat := Nat.xor (row % 2 ^ 24) (j * 2 ^ 13 % 2 ^ 24)

/-- A change of tag without re-encoding (R322): the checks of the tag difference are added. -/
def retag (checks : List Byte) (old new : Nat) : List Byte :=
  (checks.zip (selvedgeChecks [] (Nat.xor old new))).map (fun e => e.1 ^^^ e.2)

/-- A word as a medium holds it, in the order of R320's powers of x: its checks, which it has had since the SRAM word where it was
written and whose tag has been converted on the way, and its data. -/
def storedWord (data : List Byte) (tag : Nat) : List Byte := retag (selvedgeChecks data sramTag) sramTag tag ++ slice data 0 32

/-- A word as it is received: symbols with the differences an error has made of them. -/
def receivedWord (data : List Byte) (tag : Nat) (errors : SymbolErrors) : List Byte :=
  errors.foldl (fun l e => if e.1 < 39 then setAt l e.1 (l.getD e.1 0 ^^^ e.2) else l) (storedWord data tag ++ toLe 3 tag)

/-- The check of a word read from a medium, over its stored symbols and the tag expected there (R321, R323). A difference at a tag's
position says that the word was stored under another tag. -/
def checkWord (data : List Byte) (tag : Nat) (errors : SymbolErrors) : WordClass :=
  if errors.isEmpty then .clean
  else selvedgeCheck ((receivedWord data tag errors).zipIdx.map (fun e => (e.2, e.1)))

/-! ### The record -/

/-- Media k of R335. -/
def mediumSram : Nat := 0
def mediumFabric : Nat := 1
def mediumDram : Nat := 2
def mediumNand : Nat := 3

/-- Count a corrected error (R325). -/
def State.recordCe (s : State) (medium : Nat) : State := s.addSat (fld_SELV_CE_CE medium) 1

/-- Count, record and report an uncorrectable word (R326). -/
def State.recordUe (s : State) (medium swatch : Nat) (scrub location : Bool) (addr : Nat) : State :=
  let s := s.addSat (fld_SELV_UE_UE medium) 1
  let s := if location then s.addSat (fld_SELV_UE_LOCATION medium) 1 else s
  let s := (s.addSat fld_SELV_LAST_COUNT 1).setFld fld_SELV_LAST_SWATCH swatch
  let s := (s.setFlag fld_SELV_LAST_SCRUB scrub).setFlag fld_SELV_LAST_LOCATION location
  let s := (s.setFld fld_SELV_LAST_MEDIUM medium).setPair reg_SELV_LAST_ADDR_LO addr
  s.raiseFault faultSelvedgeUe swatch (BitVec.ofNat 32 (medium + (if location then 4 else 0)))

/-- Reads of a swatch's SRAM find the words that are marked (R326, R328); the data is delivered as it stands. -/
def State.readSram (s : State) (reader swatch object offset n : Nat) : State :=
  if s.sramBad.isEmpty then s
  else (wordsIn offset n).foldl (fun s w =>
    let a := Config.sramWord swatch object w
    match Store.get .good s.sramBad (sramKey swatch a) with
    | .good => s
    | m => s.recordUe mediumSram reader false (m == .location) (32 * a)) s

/-- Mark an uncorrectable word. -/
def markOf (location : Bool) : WordMark := if location then .location else .ue

end Sys2Proof.Machine
end

