-- ==== Sys2Proof/Machine/Memory.lean ====
section
/-!
DEFINITION. The memory tiers: objects, the mover's moves, leases and pins, the tile directory, and scrubbing (R300 to R319,
R325 to R329).
-/
namespace Sys2Proof.Machine

/-- Tier codes of Table 9.1. -/
def tierPool : Nat := 1
def tierDram : Nat := 2
def tierFlash : Nat := 3

/-- Mover results of Table 9.7. -/
def moverDone : Nat := 0
def moverAlready : Nat := 1
def moverDropped : Nat := 2
def moverPinned : Nat := 3
def moverNoSpace : Nat := 4
def moverAbandoned : Nat := 5
def moverMediaErr : Nat := 6
def moverBadObject : Nat := 7
def moverPinFull : Nat := 8
def moverPartnerReset : Nat := 9

/-- The mover's page. -/
def pageBytes : Nat := 4096

/-! ### Objects -/

/-- One object, where it is declared or created. -/
def State.object (s : State) (id : Nat) : Option MemObject := Store.get none s.mem.objects id

/-- Set one object. -/
def State.setObject (s : State) (id : Nat) (o : Option MemObject) : State :=
  { s with mem := { s.mem with objects := Store.set none s.mem.objects id o } }

/-- Map tiles by identifier (Table 9.2). -/
def isTile (id : Nat) : Bool := decide (0x40000000 ≤ id) && decide (id < 0x80000000)
def tileNumber (id : Nat) : Nat := id - 0x40000000
def tileId (n : Nat) : Nat := 0x40000000 + n

/-- The key of a byte of an object. -/
def memKey (id off : Nat) : Nat := id * 2 ^ 40 + off

/-- An object's bytes at its home. -/
def State.memBytes (s : State) (id off n : Nat) : List Byte := Store.getMany 0 s.mem.bytes (memKey id off) n
def State.memNat (s : State) (id off n : Nat) : Nat := leNat (s.memBytes id off n)
def State.setMemBytes (s : State) (id off : Nat) (l : List Byte) : State :=
  { s with mem := { s.mem with bytes := Store.setMany 0 s.mem.bytes (memKey id off) l } }

/-- A unit can reach a range of an object; only the mover, in swatch 15, reaches one whose home is FLASH (R302). -/
def State.reaches (s : State) (unit id off n : Nat) : Bool :=
  match s.object id with
  | some o => decide (off + n ≤ o.size) && (o.home != tierFlash || unit == 15)
  | none => false

/-- A unit other than the mover can reach a range of an object (R302). -/
def State.canAccess (s : State) (id off n : Nat) : Bool := s.reaches 0 id off n

/-- An object's bytes where its home is: a durable record's in FLASH. -/
def State.homeBytes (s : State) (id off n : Nat) : List Byte :=
  match s.object id with
  | some o => if o.home = tierFlash then Store.getMany 0 s.mem.recordBytes (memKey id off) n else s.memBytes id off n
  | none => []

/-- The pin count of an object (R314). -/
def State.pinCount (s : State) (id : Nat) : Nat :=
  s.mem.pins.foldl (fun t p => if p.object = id then t + p.count else t) 0

/-- Bytes of the tile pool in use, and its size. -/
def State.poolUsed (s : State) : Nat :=
  s.mem.objects.foldl (fun t e => match e.2 with | some o => if o.home = tierPool then t + o.size else t | none => t) 0 +
    (match s.mem.move with
    | some m => if m.dest = tierPool then (match s.object m.request.object with | some o => o.size | none => 0) else 0
    | none => 0)
def State.poolSize (s : State) : Nat := min 32 (s.fld fld_MEM_POOL_CFG_POOL_MIB) * 2 ^ 20

/-- DRAM pages in use, and free. -/
def State.usedPages (s : State) : List Nat :=
  s.mem.objects.flatMap (fun e => match e.2 with | some o => o.pages | none => []) ++
    (match s.mem.move with | some m => m.pages | none => []) ++ s.mem.held.flatMap (·.pages) ++
    (match s.links.assembly with | some a => a.pages | none => [])
def State.freePages (s : State) : Nat := s.mem.dramPages - s.usedPages.length

/-- The first free page at or after a place, coming round at the end. -/
def firstFree (used : List Nat) (total : Nat) : Nat → Nat → Nat
  | 0, p => p
  | fuel + 1, p => if used.contains p then firstFree used total fuel ((p + 1) % total) else p

/-- Allocate n DRAM pages; which free pages they are is not stated. -/
def State.allocate (s : State) (used : List Nat) : Nat → List Nat × State
  | 0 => ([], s)
  | n + 1 =>
    let (w, s) := s.takeWord
    let p := firstFree used s.mem.dramPages (used.length + 1) (w.toNat % max 1 s.mem.dramPages)
    let (l, s) := State.allocate s (p :: used) n
    (p :: l, s)

/-! ### LPDDR5X segments (R308) -/

/-- Where a data address lies: the interface, the byte of that interface's raw space, and the byte where the check symbols of its word
begin. -/
structure DramPlace where
  interface : Nat
  data : Nat
  checks : Nat
  deriving DecidableEq, Repr

/-- The place of a data address: segment ⌊a / 1,792⌋, the even segments on LPDDR_0 and the odd on LPDDR_1 where both are in use; four
check symbols for each word follow the segment's 56 words. -/
def State.dramPlace (s : State) (a : Nat) : DramPlace :=
  let segment := a / 1792
  let both := s.flag fld_MEM_CFG_IF1_EN
  let base := (if both then segment / 2 else segment) * 2048
  ⟨if both then segment % 2 else 0, base + a % 1792, base + 1792 + a % 1792 / 32 * 4⟩

/-! ### The tile region -/

/-- Pages of a durable record: 14,560 data bytes each (R306). -/
def recordPages (size : Nat) : Nat := ceilDiv size 14560

/-- The channel of a tile's record (R304), and of an object's. -/
def tileChannel (n : Nat) : Nat := n % 16
def recordChannel (id : Nat) : Nat := if isTile id then tileChannel (tileNumber id) else (Config.staticChannel id).val

/-- T, L, P and the blocks of a channel (R473). -/
def State.nandTargets (s : State) : Nat := s.fld fld_NAND_GEOM_0_TARGETS + 1
def State.nandLuns (s : State) : Nat := s.fld fld_NAND_GEOM_0_LUNS + 1
def State.nandPages (s : State) : Nat := s.fld fld_NAND_GEOM_0_PAGES
def State.channelBlocks (s : State) : Nat := s.fld fld_NAND_GEOM_1_BLOCKS * s.nandTargets * s.nandLuns

/-- Where a page of a channel's numbering lies (R306, R444): its block and its ONFI row address. -/
def State.pageBlockOf (s : State) (p : Nat) : Nat := p / max 1 s.nandPages
def State.pageRow (s : State) (p : Nat) : Nat :=
  s.pageBlockOf p / (s.nandTargets * s.nandLuns) * s.nandPages + p % max 1 s.nandPages

/-- The flash address of a page, and the page of a flash address (R306, R444). -/
def State.flashOf (s : State) (c p : Nat) : Nat :=
  let b := s.pageBlockOf p
  c + b % s.nandTargets * 2 ^ 4 + b / s.nandTargets % s.nandLuns * 2 ^ 7 + s.pageRow p % 2 ^ 32 * 2 ^ 9
def State.pageOfFlash (s : State) (a : Nat) : Nat :=
  let row := a / 2 ^ 9 % 2 ^ 32
  let b := row / max 1 s.nandPages * (s.nandTargets * s.nandLuns) + a / 2 ^ 7 % 4 * s.nandTargets + a / 2 ^ 4 % 8
  b * s.nandPages + row % max 1 s.nandPages

/-- Two block ranges overlap; an empty one overlaps nothing. -/
def rangesOverlap (a n b m : Nat) : Bool := decide (max a b < min (a + n) (b + m))

/-- A channel's tile region overlaps an index region (R332). -/
def State.tileOverlap (s : State) (c : Nat) : Bool :=
  let x := if c < 14 then 0 else 1
  let f := (s.reg (reg_MEM_TILE_REGION_FIRST c)).toNat
  let n := (s.reg (reg_MEM_TILE_REGION_BLOCKS c)).toNat
  rangesOverlap f n (s.reg (reg_IDX_REG_A_FIRST x)).toNat (s.reg (reg_IDX_REG_A_BLOCKS x)).toNat ||
    rangesOverlap f n (s.reg (reg_IDX_REG_B_FIRST x)).toNat (s.reg (reg_IDX_REG_B_BLOCKS x)).toNat

/-- Blocks of a channel's region beyond its checkpoint and journal areas (R306). -/
def State.areaBlocks (s : State) : Nat :=
  2 * s.fld fld_MEM_TILE_LAYOUT_CKPT_BLOCKS + s.fld fld_MEM_TILE_LAYOUT_JOURNAL_BLOCKS

/-- Some region is too small for its areas or overlaps an index region (R332). -/
def State.tileRegionBad (s : State) : Bool :=
  (List.range 16).any (fun c => decide ((s.reg (reg_MEM_TILE_REGION_BLOCKS c)).toNat < s.areaBlocks) || s.tileOverlap c)

/-- DIR_READY. -/
def State.dirReady (s : State) : Bool := s.flag fld_MEM_STATUS_DIR_READY

/-- The first of a channel's blocks that hold records, and the one after the last (R306). -/
def State.firstBlock (s : State) (c : Nat) : Nat := (s.reg (reg_MEM_TILE_REGION_FIRST c)).toNat + s.areaBlocks
def State.lastBlock (s : State) (c : Nat) : Nat := (s.reg (reg_MEM_TILE_REGION_FIRST c)).toNat + (s.reg (reg_MEM_TILE_REGION_BLOCKS c)).toNat
def State.recordBlocks (s : State) (c : Nat) : List Nat := (List.range (s.lastBlock c - s.firstBlock c)).map (s.firstBlock c + ·)

/-- Pages programmed in a block of a channel. -/
def blockKey (c b : Nat) : Nat := c * 2 ^ 32 + b
def State.programmedIn (s : State) (c b : Nat) : Nat := Store.get 0 s.mem.programmed (blockKey c b)

/-- The live records of a channel: each object with its record. -/
def State.liveRecords (s : State) (c : Nat) : List (Nat × TileRecord) :=
  s.mem.objects.filterMap (fun e =>
    match e.2 with
    | some o => if recordChannel e.1 = c then o.record.map (fun r => (e.1, r)) else none
    | none => none)

/-- Pages that a channel's live records fill, and those its region offers. -/
def State.livePages (s : State) (c : Nat) : Nat := ((s.liveRecords c).map (fun e => recordPages e.2.size)).foldl (· + ·) 0
def State.regionPages (s : State) (c : Nat) : Nat := (s.lastBlock c - s.firstBlock c) * s.nandPages

/-- The live pages in a block of a channel. -/
def State.livePagesIn (s : State) (c b : Nat) : Nat :=
  ((s.liveRecords c).map (fun e =>
    min (e.2.first + recordPages e.2.size) ((b + 1) * s.nandPages) - max e.2.first (b * s.nandPages))).foldl (· + ·) 0

/-- A run of `pages` consecutive pages can begin at the first erased page of a block: what it does not fill of that block lies in erased
blocks that follow (R306). -/
def State.runFits (s : State) (c pages b : Nat) : Bool :=
  let here := s.nandPages - s.programmedIn c b
  let more := if pages ≤ here then 0 else ceilDiv (pages - here) (max 1 s.nandPages)
  decide (0 < here) && decide (b + more < s.lastBlock c) && (List.range more).all (fun i => s.programmedIn c (b + 1 + i) == 0)

/-- The blocks at which a record can be written, but for one. -/
def State.runStarts (s : State) (c pages : Nat) (but : Option Nat) : List Nat :=
  (s.recordBlocks c).filter (fun b => some b != but && s.runFits c pages b)

/-- Choose where a record is written, which is not stated, and program its pages; none where no run of erased pages is left. -/
def State.programRecord (s : State) (c pages : Nat) (but : Option Nat) : Option (Nat × State) :=
  let l := s.runStarts c pages but
  if l.isEmpty then none
  else
    let (w, s) := s.takeWord
    let b := l.getD (w.toNat % l.length) 0
    let first := b * s.nandPages + s.programmedIn c b
    let fill (m : Store Nat) (i : Nat) : Store Nat :=
      Store.set 0 m (blockKey c (b + i)) (min s.nandPages (first + pages - (b + i) * s.nandPages))
    some (first, { s with mem := { s.mem with
      programmed := (List.range (ceilDiv (s.programmedIn c b + pages) (max 1 s.nandPages))).foldl fill s.mem.programmed } })

/-! ### The directory (R306) -/

/-- FLAGS of Table 9.3. -/
def dirValid : Nat := 1
def dirHasRecord : Nat := 2
def dirDirty : Nat := 4
def dirFreed : Nat := 8

/-- The directory's entry of a tile, as it stands in DRAM. -/
def State.dirEntry (s : State) (id : Nat) (o : MemObject) : DirEntry :=
  { tile := tileNumber id, gen := match o.record with | some r => r.gen | none => 0, size := o.size, home := o.home,
    flags := dirValid + (if o.record.isSome then dirHasRecord else 0) + (if o.dirty then dirDirty else 0), pins := s.pinCount id,
    loc := if o.home = tierPool ∨ o.home = tierDram then Config.pageList (tileNumber id) else 0,
    record := match o.record with | some r => s.flashOf (recordChannel id) r.first | none => 0 }

/-- The persistent form of a record's entry, in a checkpoint or a journal. -/
def State.recordEntry (s : State) (id : Nat) (r : TileRecord) (freed : Bool) : DirEntry :=
  { tile := tileNumber id, gen := r.gen, size := r.size, home := tierFlash, flags := dirValid + dirHasRecord + (if freed then dirFreed else 0),
    pins := 0, loc := 0, record := s.flashOf (recordChannel id) r.first }

/-- The 32 bytes of an entry (Table 9.3). -/
def DirEntry.bytes (e : DirEntry) : List Byte :=
  toLe 4 e.tile ++ toLe 4 e.gen ++ toLe 4 e.size ++ toLe 1 e.home ++ toLe 1 e.flags ++ toLe 2 e.pins ++ toLe 8 e.loc ++ toLe 8 e.record

/-- The tile directory as its area of DRAM holds it: an entry for each tile number (R306). -/
def State.directory (s : State) : List Byte :=
  (List.range (s.fld fld_MEM_TILE_CFG_DIR_ENTRIES)).flatMap (fun n =>
    match s.object (tileId n) with | some o => (s.dirEntry (tileId n) o).bytes | none => toLe 32 0)

/-- One channel's journal and newest valid checkpoint. -/
def State.journal (s : State) (c : Nat) : List DirEntry := Store.get [] s.mem.journal c
def State.newestCheckpoint (s : State) (c : Nat) : List DirEntry :=
  ((if Store.get false s.mem.ckptNewer c then Store.get none s.mem.ckptB c else Store.get none s.mem.ckptA c)).getD []

/-- The stripe of a channel: an entry for each of its tiles with a record. -/
def State.stripe (s : State) (c : Nat) : List DirEntry :=
  ((s.liveRecords c).filter (fun e => isTile e.1)).map (fun e => s.recordEntry e.1 e.2 false)

/-- Entries a journal holds: 455 to a page. -/
def State.journalCapacity (s : State) : Nat :=
  s.fld fld_MEM_TILE_LAYOUT_JOURNAL_BLOCKS * s.fld fld_NAND_GEOM_0_PAGES * 455

/-- Write a channel's stripe into the area that does not hold the newer checkpoint, and start the journal afresh (R306). -/
def State.checkpoint (s : State) (c : Nat) : State :=
  let m := s.mem
  let l := some (s.stripe c)
  let m := if Store.get false m.ckptNewer c then
      { m with ckptA := Store.set none m.ckptA c l, ckptNewer := Store.set false m.ckptNewer c false }
    else { m with ckptB := Store.set none m.ckptB c l, ckptNewer := Store.set false m.ckptNewer c true }
  { s with mem := { m with journal := Store.set [] m.journal c [] } }

/-- A journal is three-quarters full (R306). -/
def State.journalFull (s : State) (c : Nat) : Bool :=
  decide (3 * s.journalCapacity ≤ 4 * (s.journal c).length) && !(s.journal c).isEmpty

/-- Append the entry of a record written or freed to its channel's journal; at three-quarters full the stripe is written out (R306).
Only tiles have directory entries. -/
def State.appendJournal (s : State) (id : Nat) (r : TileRecord) (freed : Bool) : State :=
  if isTile id = false then s
  else
    let c := recordChannel id
    let l := s.journal c ++ [s.recordEntry id r freed]
    let s := { s with mem := { s.mem with journal := Store.set [] s.mem.journal c l } }
    if s.journalFull c then s.checkpoint c else s

/-- The old record is freed once the new one's entry is programmed (R304). -/
def State.freeRecord (s : State) (id : Nat) (old : Option TileRecord) : State :=
  match old with | some r => s.appendJournal id r true | none => s

/-- An object's durable record is written, from page `first` of its channel, with the next generation (R304); a tile's goes to the
TILE_DELTA stream (R488). -/
def State.writeRecord (s : State) (id : Nat) (o : MemObject) (first : Nat) (bytes : List Byte) : MemObject × State :=
  let r : TileRecord := ⟨match o.record with | some r => (r.gen + 1) % 2 ^ 32 | none => 0, o.size, first⟩
  let s := { s with mem := { s.mem with recordBytes := Store.setMany 0 s.mem.recordBytes (memKey id 0) bytes,
                                         recordBad := s.mem.recordBad.filter (fun e => e.1 / 2 ^ 40 != id) } }
  let old := o.record
  let o := { o with record := some r, dirty := false }
  let s := ((s.setObject id (some o)).appendJournal id r false).freeRecord id old
  (o, if isTile id then s.offerTile (tileNumber id) r.gen bytes else s)

/-! ### Results -/

/-- End a request with a result, and count it (R334). -/
def State.finish (s : State) (r : MoverRequest) (code : Nat) : State :=
  let s := { s with mem := { s.mem with results := s.mem.results ++ [(r, code)] } }
  if code = moverAbandoned then s.addSat fld_MEM_MOVE_LOSS_ABANDONED 1
  else if code = moverNoSpace then s.addSat fld_MEM_MOVE_LOSS_NO_SPACE 1
  else if code = moverPinned then s.addSat fld_MEM_CONFLICT_PINNED 1
  else if code = moverDropped then s.addSat fld_MEM_CONFLICT_DROPPED 1
  else if code = moverPinFull then s.addSat fld_MEM_PINS_PIN_FULL 1
  else s

/-- Each command of this chapter answers anew. -/
def State.freshResults (s : State) : State := { s with mem := { s.mem with results := [], delivered := [] } }

/-! ### Pins -/

/-- Mark the running move to be abandoned at its next page boundary (R313). -/
def State.abandonMove (s : State) (code : Nat) : State :=
  match s.mem.move with
  | some m => { s with mem := { s.mem with move := some { m with abandon := some (m.abandon.getD code) } } }
  | none => s

/-- An eviction runs on an object. -/
def State.evicting (s : State) (id : Nat) : Bool :=
  match s.mem.move with
  | some m => m.request.object == id && (match m.request.kind with | .evict _ => true | _ => false)
  | none => false

/-- A pin in the ledger (R314). -/
def State.addPin (s : State) (holder id : Nat) : State :=
  if s.mem.pins.any (fun p => p.holder == holder && p.object == id) then
    { s with mem := { s.mem with pins := s.mem.pins.map (fun p =>
      if p.holder = holder ∧ p.object = id then { p with count := p.count + 1 } else p) } }
  else { s with mem := { s.mem with pins := s.mem.pins ++ [⟨holder, id, 1⟩] } }

/-- Take a pin, or find the ledger or the count full (R314, Table 9.7); an eviction of the object under way is abandoned (R313). -/
def State.takePin (s : State) (holder id : Nat) : Option State :=
  if 255 ≤ s.pinCount id then none
  else if 4096 ≤ s.mem.pins.length ∧ s.mem.pins.any (fun p => p.holder == holder && p.object == id) = false then none
  else if s.evicting id then some ((s.addPin holder id).abandonMove moverAbandoned)
  else some (s.addPin holder id)

/-- Give a pin back. -/
def State.dropPin (s : State) (holder id : Nat) : State :=
  { s with mem := { s.mem with pins := (s.mem.pins.map (fun p =>
      if p.holder = holder ∧ p.object = id then { p with count := p.count - 1 } else p)).filter (fun p => p.count != 0) } }

/-- Release every pin of a holder that is reset (R314). What it asked for before goes on (R80). -/
def State.releasePins (s : State) (holder : Nat) : State :=
  { s with mem := { s.mem with pins := s.mem.pins.filter (fun p => p.holder != holder) } }

/-! ### Moves -/

/-- An object is under lease: a move of it runs (R312). -/
def State.leased (s : State) (id : Nat) : Bool :=
  match s.mem.move with | some m => m.request.object == id | none => false

/-- Where a request stands when it is judged: answered, to start toward a tier, or waiting. -/
inductive MoverVerdict where
  | answer (code : Nat)
  | start (dest : Nat)
  | wait
  deriving DecidableEq, Repr

/-- Judge a request against the object's home and pins (R311, R315, Tables 9.6 to 9.8). -/
def State.judgeMove (s : State) (r : MoverRequest) : MoverVerdict :=
  if isTile r.object = true ∧ s.tileRegionBad = true then .answer moverBadObject
  else if isTile r.object = true ∧ s.dirReady = false then .wait
  else match s.object r.object with
    | none => .answer moverBadObject
    | some o =>
      match r.kind with
      | .promote tier _ =>
        if tier = 0 ∨ (tier = tierPool ∧ (isTile r.object = false ∨ 2 ^ 22 < o.size)) then .answer moverBadObject
        else if o.home ≤ tier then .answer moverAlready
        else .start tier
      | .evict tier =>
        if o.home ≠ tier then .answer moverDropped
        else if s.pinCount r.object ≠ 0 then .answer moverPinned
        else if tier = tierPool then .start tierDram
        else if tier = tierDram then
          (if isTile r.object || o.evictable then .start tierFlash else .answer moverBadObject)
        else .answer moverBadObject
      | .writeback =>
        if isTile r.object = false then .answer moverBadObject
        else if o.home = tierFlash ∨ o.dirty = false then .answer moverAlready
        else .start tierFlash
      | .pin | .unpin => .answer moverDone

/-- The move writes no record: the home returns to the one kept (R304). -/
def State.keepsRecord (s : State) (id : Nat) : Bool :=
  match s.object id with | some o => isTile id && !o.dirty && o.record.isSome | none => false

/-- The destination has room. -/
def State.hasRoom (s : State) (id dest : Nat) : Bool :=
  match s.object id with
  | none => false
  | some o =>
    if dest = tierPool then decide (s.poolUsed + o.size ≤ s.poolSize)
    else if dest = tierDram then decide (o.size / pageBytes ≤ s.freePages)
    else s.keepsRecord id || !(s.runStarts (recordChannel id) (recordPages o.size) none).isEmpty

/-- No room can be made in the tile region: the live records leave too little, whatever is erased (Table 9.7). -/
def State.regionFull (s : State) (id dest : Nat) : Bool :=
  match s.object id with
  | none => false
  | some o => dest == tierFlash && !s.keepsRecord id &&
      decide (s.regionPages (recordChannel id) < s.livePages (recordChannel id) + recordPages o.size)

/-- A record of an object begins to be written (R488). -/
def State.beginRecord (s : State) (id : Nat) : State :=
  match s.object id with
  | some o => if isTile id then s.beginTileDelta o.size else s
  | none => s

/-- Start a move: lease, destination and the pages to copy; a clean tile leaves for FLASH without a copy (R304, R312). -/
def State.startMove (s : State) (r : MoverRequest) (dest : Nat) : State :=
  match s.object r.object with
  | none => s
  | some o =>
    let copy := !(dest == tierFlash && s.keepsRecord r.object)
    let (pages, s) := if dest = tierDram then s.allocate s.usedPages (o.size / pageBytes) else ([], s)
    let (first, s) := if dest = tierFlash ∧ copy = true then
        match s.programRecord (recordChannel r.object) (recordPages o.size) none with
        | some (p, t) => (some p, t.beginRecord r.object)
        | none => (none, s)
      else (none, s)
    { s with mem := { s.mem with move := some ⟨r, dest, pages, first, if copy then List.range (o.size / pageBytes) else [], [], 0, none⟩ } }

/-- The channel a move uses, where its source or destination is FLASH. -/
def State.moveChannel (s : State) (id dest : Nat) : Option Nat :=
  match s.object id with
  | some o => if o.home = tierFlash ∨ dest = tierFlash then some (recordChannel id) else none
  | none => none

/-- The channel of a move has parts of another geometry: its records are unreadable (R443). -/
def State.channelBroken (s : State) (id dest : Nat) : Bool :=
  match s.moveChannel id dest with | some c => s.flag (fld_NCH_STATUS_GEOM_ERR c) | none => false

/-- TRACK, whose SRAM holds the tile pool. -/
def poolSwatch : Nat := 12

/-- A move goes into or out of POOL. -/
def State.movesPool (s : State) (id dest : Nat) : Bool :=
  dest == tierPool || (match s.object id with | some o => o.home == tierPool | none => false)

/-- Both ends of a move can serve it (R318): its channel is ready, and neither that nor TRACK, for POOL, is in reset. -/
def State.channelReady (s : State) (id dest : Nat) : Bool :=
  (match s.moveChannel id dest with | some c => s.flag (fld_NCH_STATUS_READY c) && !s.inReset (16 + c) | none => true) &&
    !(s.movesPool id dest && s.inReset poolSwatch)

/-- A waiting request lacks room in a tier. -/
def State.waitsForRoom (s : State) (tier : Nat) (r : MoverRequest) : Bool :=
  !s.leased r.object && (match s.judgeMove r with | .start d => d == tier && !s.hasRoom r.object d | _ => false)

/-- A move may start now: it is admitted as Class C work, no other runs, its ends can serve it, and it has room, for which no earlier
request waits (R315 to R318). -/
def State.mayMove (s : State) (r : MoverRequest) (dest : Nat) : Bool :=
  s.admitsClassC && s.mem.move.isNone && s.hasRoom r.object dest && s.channelReady r.object dest &&
    !s.mem.waiting.any (s.waitsForRoom dest)

/-- Put a request in the queue. -/
def State.queueMove (s : State) (r : MoverRequest) : State := { s with mem := { s.mem with waiting := s.mem.waiting ++ [r] } }

/-- Serve a request that no lease holds back: at its arrival, or as it is re-evaluated (R311, R315, Table 9.7). -/
def State.consider (s : State) (r : MoverRequest) : State :=
  match s.judgeMove r with
  | .answer c =>
    match r.kind with
    | .pin =>
      if c = moverDone then
        match s.takePin (r.holder.getD 8) r.object with
        | some t => t.finish r moverDone
        | none => s.finish r moverPinFull
      else s.finish r c
    | .unpin => (if c = moverDone then s.dropPin (r.holder.getD 8) r.object else s).finish r c
    | .promote _ true =>
      if c = moverAlready then
        match s.takePin (r.holder.getD 8) r.object with
        | some t => t.finish r moverAlready
        | none => s.finish r moverPinFull
      else s.finish r c
    | _ => s.finish r c
  | .wait => s.queueMove r
  | .start dest =>
    let take : Option (MoverRequest × State) :=
      match r.kind with
      | .promote t true =>
        match s.takePin (r.holder.getD 8) r.object with
        | some u => some ({ r with kind := .promote t false }, u)
        | none => none
      | _ => some (r, s)
    match take with
    | none => s.finish r moverPinFull
    | some (r, s) =>
      if s.channelBroken r.object dest then s.finish r moverMediaErr
      else if s.regionFull r.object dest then s.finish r moverNoSpace
      else if s.mayMove r dest then s.startMove r dest
      else s.queueMove r

/-- Take up the waiting requests in order of arrival (R315, R317). -/
def State.serveWaiting (s : State) : State :=
  let l := s.mem.waiting
  l.foldl (fun s r => if s.leased r.object then s.queueMove r else s.consider r) { s with mem := { s.mem with waiting := [] } }

/-- A request arrives (R315): a pin for an object under an eviction lease is taken at once, an UNPIN under any lease, and any other
request waits for the lease to end. -/
def State.arrive (s : State) (r : MoverRequest) : State :=
  if s.leased r.object then
    match r.kind with
    | .pin =>
      if s.evicting r.object then
        match s.takePin (r.holder.getD 8) r.object with
        | some t => t.finish r moverDone
        | none => s.finish r moverPinFull
      else s.queueMove r
    | .promote t true =>
      if s.evicting r.object then
        match s.takePin (r.holder.getD 8) r.object with
        | some u => u.queueMove { r with kind := .promote t false }
        | none => s.finish r moverPinFull
      else s.queueMove r
    | .unpin => s.consider r
    | _ => s.queueMove r
  else s.consider r

/-! ### Checked reads -/

/-- The medium of an object's home, the tag of one of its words there, and the address that SELV_LAST_ADDR shows of it (Table 9.10,
R335). Where the tile pool's SRAM places a tile is not stated. -/
structure WordPlace where
  medium : Nat
  tag : Nat
  addr : Nat
  deriving DecidableEq, Repr

/-- Where word w of an object lies. -/
def State.wordPlace (s : State) (id : Nat) (o : MemObject) (w : Nat) : WordPlace :=
  if o.home = tierFlash then
    let p := (match o.record with | some r => r.first | none => 0) + w / 455
    ⟨mediumNand, nandTag (s.pageRow p) (w % 455), s.flashOf (recordChannel id) p + w % 455 * 2 ^ 55⟩
  else if o.home = tierPool then ⟨mediumSram, sramTag, 32 * Config.sramWord poolSwatch id w⟩
  else
    let a := o.pages.getD (w / 128) 0 * 4096 + w % 128 * 32
    ⟨mediumDram, dramTag (a / 32), a⟩

/-- How a word is marked where its object's home is, and another mark for it (R328). -/
def State.wordMark (s : State) (flash : Bool) (key : Nat) : WordMark := Store.get .good (if flash then s.mem.recordBad else s.mem.bad) key
def State.setMark (s : State) (flash : Bool) (key : Nat) (m : WordMark) : State :=
  if flash then { s with mem := { s.mem with recordBad := Store.set .good s.mem.recordBad key m } }
  else { s with mem := { s.mem with bad := Store.set .good s.mem.bad key m } }

/-- Read one word of an object with the errors it shows: the bytes delivered, and whether they are marked uncorrectable (R321, R325,
R326, R328). In SRAM and LPDDR5X the corrected word is written back. -/
def State.readWord (s : State) (reader id : Nat) (o : MemObject) (w : Nat) (errors : SymbolErrors) (undecoded : Bool) :
    List Byte × Bool × State :=
  let flash := o.home == tierFlash
  let data := s.homeBytes id (32 * w) 32
  let at_ := s.wordPlace id o w
  let key := memKey id w
  match s.wordMark flash key with
  | .ue => (data, true, s.recordUe at_.medium reader false false at_.addr)
  | .location => (data, true, s.recordUe at_.medium reader false true at_.addr)
  | .good =>
    if undecoded then (data, true, s.recordUe at_.medium reader false false at_.addr)
    else
      let keep (s : State) (l : List Byte) : State := if flash then s else s.setMemBytes id (32 * w) l
      match checkWord data at_.tag errors with
      | .clean => if errors.isEmpty then (data, false, s) else let l := applySymbols data errors; (l, false, keep s l)
      | .corrected p v =>
        let l := applySymbols data (errors ++ [(p, v)])
        (l, false, (keep s l).recordCe at_.medium)
      | .uncorrectable loc => (data, true, (s.setMark flash key (markOf loc)).recordUe at_.medium reader false loc at_.addr)

/-- Read the words of a range: what is delivered of it, the words marked uncorrectable by their index in it, and the state after. Where
the home is FLASH, the pages of the record that LDPC cannot decode deliver every word as uncorrectable (R324). -/
def State.readRange (s : State) (reader id off n : Nat) (errors : List (Nat × SymbolErrors)) (undecoded : List Nat) :
    List Byte × List Nat × State :=
  match s.object id with
  | none => ([], [], s)
  | some o =>
    let words := wordsIn off n
    let lost (w : Nat) : Bool := o.home == tierFlash && undecoded.contains (w / 455)
    let failed := (undecoded.eraseDups.filter (fun p => o.home == tierFlash && words.any (fun w => w / 455 == p))).length
    let (l, bad, s) := words.foldl (fun (a : List Byte × List Nat × State) w =>
      let (l, bad, s) := a
      let i := w - off / 32
      let (d, u, s) := s.readWord reader id o w (((errors.find? (fun x => x.1 == i)).map (·.2)).getD []) (lost w)
      (l ++ d, if u then bad ++ [i] else bad, s)) ([], [], if failed = 0 then s else s.addSat fld_SELV_LDPC_FAIL failed)
    (slice l (off % 32) n, bad, s)

/-- Read the words of a range for what they do to the state: the words marked uncorrectable, by their index in it. -/
def State.checkWords (s : State) (id off n reader : Nat) (errors : List (Nat × SymbolErrors)) : List Nat × State :=
  (s.readRange reader id off n errors []).2

/-- A unit reads a whole object that it reaches: the marked words it meets are counted and reported (R326). -/
def State.noteRead (s : State) (reader id : Nat) : State :=
  match s.object id with
  | some o => if s.mem.bad.isEmpty = true ∨ s.reaches reader id 0 o.size = false then s else (s.checkWords id 0 o.size reader []).2
  | none => s

/-! ### Accesses -/

/-- Note an access for the space manager (R316). -/
def State.touch (s : State) (id : Nat) : State :=
  match s.object id with
  | some o =>
    let n := s.mem.accesses + 1
    { s with mem := { s.mem with accesses := n } }.setObject id (some { o with access := n })
  | none => s

/-- A move begins another pass over the pages written since they were copied, once it has none left to copy (R312). -/
def Move.nextPass (m : Move) : Move :=
  if m.todo = [] ∧ m.dirty ≠ [] then { m with todo := m.dirty, dirty := [], passes := m.passes + 1 } else m

/-- A write marks the pages of a move that were already copied (R312). One to a clean tile on its way to FLASH makes it dirty, so that a
new record is written (R304). -/
def State.dirtyMove (s : State) (id off n : Nat) : State :=
  match s.mem.move with
  | some m =>
    if m.request.object ≠ id then s
    else match s.object id with
      | none => s
      | some o =>
        if m.dest = tierFlash ∧ m.record.isNone then
          match s.programRecord (recordChannel id) (recordPages o.size) none with
          | none => s.abandonMove moverNoSpace
          | some (p, t) =>
            let s := t.beginRecord id
            { s with mem := { s.mem with move := some { m with record := some p, todo := List.range (o.size / pageBytes) } } }
        else
          let pages := (List.range (ceilDiv (off % pageBytes + n) pageBytes)).map (· + off / pageBytes)
          let again := pages.filter (fun p => !m.todo.contains p && !m.dirty.contains p)
          { s with mem := { s.mem with move := some { m with dirty := m.dirty ++ again }.nextPass } }
  | none => s

/-- The final pass of a move holds writes back (R312). -/
def State.holdsWrites (s : State) (id : Nat) : Bool :=
  match s.mem.move with | some m => m.request.object == id && decide (4 ≤ m.passes) | none => false

/-- Write bytes of an object: words written whole are correctable again (R328), a tile becomes dirty (R304). -/
def State.writeObject (s : State) (id off : Nat) (data : List Byte) : State :=
  let s := (s.dirtyMove id off data.length).setMemBytes id off data
  let s := (wholeWords off data.length).foldl (fun s w => s.setMark false (memKey id w) .good) s
  match s.object id with
  | some o => if isTile id then s.setObject id (some { o with dirty := true }) else s
  | none => s

/-- The mover writes to an object whose home is FLASH: a new record holds the bytes, a word written whole being correctable again
(R302, R313, R328). -/
def State.rewriteRecord (s : State) (id off : Nat) (o : MemObject) (data : List Byte) : State :=
  match s.programRecord (recordChannel id) (recordPages o.size) none with
  | none => s
  | some (p, s) =>
    let marks := (wholeWords off data.length).foldl (fun m w => Store.set .good m (memKey id w) .good) s.mem.recordBad
    let s := ((s.beginRecord id).writeRecord id o p (splice (s.homeBytes id 0 o.size) off data)).2
    { s with mem := { s.mem with recordBad := marks } }

/-- A tile that its task lengthens takes the pages allocated for it where its home is DRAM. -/
def State.growObject (s : State) (id size : Nat) (pages : List Nat) : State :=
  match s.object id with
  | some o =>
    if o.size < size ∧ o.home ≠ tierFlash then
      s.setObject id (some { o with size := size, pages := if o.home = tierDram then o.pages ++ pages else o.pages })
    else s
  | none => s

/-- Answer an access. -/
def State.answerAccess (s : State) (a : HeldAccess) (r : Option (List Byte × List Nat)) : State :=
  { s with mem := { s.mem with delivered := s.mem.delivered ++ [⟨a.unit, a.object, a.offset, r⟩] } }

/-- Keep an access until it can be served. -/
def State.holdAccess (s : State) (a : HeldAccess) : State := { s with mem := { s.mem with held := s.mem.held ++ [a] } }

/-- Serve an access that need not wait for the directory (R302, R312, R321 to R328). -/
def State.serveAccess (s : State) (a : HeldAccess) : State :=
  let s := s.growObject a.object a.size a.pages
  let n := match a.data with | some d => d.length | none => a.length
  if s.reaches a.unit a.object a.offset n = false then s.answerAccess a none
  else match a.data with
    | some d =>
      if s.holdsWrites a.object then s.holdAccess a
      else
        let s := s.touch a.object
        match s.object a.object with
        | some o => if o.home = tierFlash then s.rewriteRecord a.object a.offset o d else s.writeObject a.object a.offset d
        | none => s
    | none =>
      let (l, bad, s) := (s.touch a.object).readRange a.unit a.object a.offset n a.errors a.undecoded
      s.answerAccess a (some (l, bad))

/-- Serve the accesses held that a test picks, in their order. -/
def State.serveHeld (s : State) (pick : HeldAccess → Bool) : State :=
  let l := s.mem.held.filter pick
  l.foldl State.serveAccess { s with mem := { s.mem with held := s.mem.held.filter (fun a => !pick a) } }

/-! ### The space manager's levels (R316) -/

/-- A tier runs short: its pool or free DRAM has crossed its level. -/
def State.tierShort (s : State) (tier : Nat) : Bool :=
  if tier = tierPool then decide (s.poolSize * s.fld fld_MEM_POOL_CFG_POOL_HIGH < s.poolUsed * 64)
  else decide (s.freePages / 256 < s.fld fld_MEM_DRAM_CFG_LOW_FREE_MIB)

/-- The level at which the space manager stops is not yet reached. -/
def State.tierAboveStop (s : State) (tier : Nat) : Bool :=
  if tier = tierPool then decide (s.poolSize * s.fld fld_MEM_POOL_CFG_POOL_LOW < s.poolUsed * 64)
  else decide (s.freePages / 256 < s.fld fld_MEM_DRAM_CFG_TARGET_FREE_MIB)

/-- The manager is at work in a tier: it has begun and goes on to its stop level. -/
def State.managesTier (s : State) (tier : Nat) : Bool := Store.get false s.mem.managing tier
def State.setManaging (s : State) (tier : Nat) (b : Bool) : State :=
  { s with mem := { s.mem with managing := Store.set false s.mem.managing tier b } }

/-- It stops where a tier has reached its stop level. -/
def State.settleManager (s : State) : State :=
  [tierPool, tierDram].foldl (fun s t => if s.tierAboveStop t then s else s.setManaging t false) s

/-! ### The ends of a move -/

/-- The lease of the running move ends with a result: writes that waited for it are served, then the waiting requests (R312, R315). -/
def State.endLease (s : State) (r : MoverRequest) (code : Nat) : State :=
  let s := (({ s with mem := { s.mem with move := none } }.setTileRoom none).finish r code).settleManager
  (s.serveHeld (fun a => a.object == r.object && s.dirReady)).serveWaiting

/-- End the running move without a switch: the object stays, the destination is freed (R313). -/
def State.endMove (s : State) (code : Nat) : State :=
  match s.mem.move with
  | some m => s.endLease m.request code
  | none => s

/-- Count the NAND pages of a record that a page of its object takes to reach (R306, R478); the channel's reads. -/
def State.countRecordPages (s : State) (id page : Nat) : State :=
  let reach (n : Nat) : Nat := ceilDiv (n * pageBytes) 14560
  s.addWrap (fld_NCH_PAGES_PAGES (recordChannel id)) (reach (page + 1) - reach page)

/-- MOVE_PAGE_COPIED (R312, R313, R319): a page ends; the move is abandoned here where that is due, and a pass that leaves
written pages is followed by another. Out of FLASH the page is read from the durable record (R304, R324). -/
def execMovePageCopied (errors : ReadErrors) (programmed : Bool) (s : State) :
    Host.Outcome State Fault Refusal :=
  let s := s.freshResults
  match s.mem.move with
  | none => .next s
  | some m =>
    if m.dest = tierFlash ∧ s.power.nandHeld = true then .next s
    else match m.abandon with
      | some c => .next (s.endMove c)
      | none =>
        match m.todo with
        | [] => .next s
        | p :: rest =>
          let id := m.request.object
          let out := match s.object id with | some o => o.home == tierFlash | none => false
          let (l, bad, s) := s.readRange 15 id (p * pageBytes) pageBytes errors.words errors.undecoded
          let s := if out then (s.setMemBytes id (p * pageBytes) l).countRecordPages id p else s
          if bad ≠ [] ∨ (m.dest = tierFlash ∧ programmed = false) then .next (s.endMove moverMediaErr)
          else .next { s with mem := { s.mem with move := some { m with todo := rest }.nextPass } }

/-- The home switches (R304, R312). A tile's record is kept as it leaves FLASH. -/
def State.switchHome (s : State) (m : Move) : State :=
  let id := m.request.object
  match s.object id with
  | none => s
  | some o =>
    match m.request.kind with
    | .writeback => (s.writeRecord id o (m.record.getD 0) (s.memBytes id 0 o.size)).2
    | _ =>
      let s := s.addWrap fld_MEM_MOVES_DONE 1
      if m.dest = tierFlash then
        let (o, s) := match m.record with
          | some p => s.writeRecord id o p (s.memBytes id 0 o.size)
          | none => (o, s)
        let s := s.setObject id (some { o with home := tierFlash, pages := [] })
        { s with mem := { s.mem with bad := s.mem.bad.filter (fun e => e.1 / 2 ^ 40 != id) } }
      else
        s.setObject id (some { o with home := m.dest, pages := m.pages, record := if isTile id then o.record else none })

/-- MOVE_SWITCH (R312): atomic; the lease ends and the waiting requests are re-evaluated. -/
def execMoveSwitch (s : State) : Host.Outcome State Fault Refusal :=
  let s := s.freshResults
  match s.mem.move with
  | none => .next s
  | some m =>
    if m.todo ≠ [] ∨ m.dirty ≠ [] ∨ m.abandon.isSome = true ∨ (m.dest = tierFlash ∧ s.power.nandHeld = true) then .next s
    else .next ((s.switchHome m).endLease m.request moverDone)

/-- The mover runs. -/
def State.moverRuns (s : State) : Bool := s.swatchRuns 15 && s.flag fld_MEM_STATUS_TRAINED

/-- PROMOTE (R311, R315). -/
def execPromote (holder : Fin 48) (object : Word) (tier : Fin 4) (pin : Bool) (s : State) :
    Host.Outcome State Fault Refusal :=
  if s.moverRuns then .next (s.freshResults.arrive ⟨some holder.val, object.toNat, .promote tier.val pin⟩) else .next s

/-- EVICT (R311, R315). -/
def execEvict (holder : Fin 48) (object : Word) (tier : Fin 4) (s : State) : Host.Outcome State Fault Refusal :=
  if s.moverRuns then .next (s.freshResults.arrive ⟨some holder.val, object.toNat, .evict tier.val⟩) else .next s

/-- WRITEBACK (R304, R311). -/
def execWriteback (holder : Fin 48) (object : Word) (s : State) : Host.Outcome State Fault Refusal :=
  if s.moverRuns then .next (s.freshResults.arrive ⟨some holder.val, object.toNat, .writeback⟩) else .next s

/-- PIN (R314, R315). -/
def execPin (holder : Fin 48) (object : Word) (s : State) : Host.Outcome State Fault Refusal :=
  if s.moverRuns then .next (s.freshResults.arrive ⟨some holder.val, object.toNat, .pin⟩) else .next s

/-- UNPIN (R311, R314, R315): taken at once, lease or not. -/
def execUnpin (holder : Fin 48) (object : Word) (s : State) : Host.Outcome State Fault Refusal :=
  if s.moverRuns then .next (s.freshResults.arrive ⟨some holder.val, object.toNat, .unpin⟩) else .next s

/-! ### The space manager -/

/-- The manager has asked for an object's eviction already. -/
def State.askedToLeave (s : State) (tier id : Nat) : Bool :=
  s.mem.waiting.any (fun r => r.object == id && r.kind == .evict tier)

/-- Whether an object may be evicted from a tier now (R316). -/
def State.candidate (s : State) (tier id : Nat) (o : MemObject) : Bool :=
  o.home == tier && s.pinCount id == 0 && !s.leased id && !s.askedToLeave tier id && (isTile id || (o.evictable && tier == tierDram))

/-- Room is being made in a tier: an eviction from it is under way or waits. -/
def State.makingRoom (s : State) (tier : Nat) : Bool :=
  (match s.mem.move with | some m => m.request.kind == .evict tier && m.abandon.isNone | none => false) ||
    s.mem.waiting.any (fun r => r.kind == .evict tier && s.pinCount r.object == 0)

/-- The least recently accessed candidate of a tier, the lower identifier where two tie. -/
def State.nextCandidate (s : State) (tier : Nat) : Option Nat :=
  (s.mem.objects.foldl (fun (b : Option (Nat × Nat)) e =>
    match e.2 with
    | some o =>
      if s.candidate tier e.1 o then
        match b with
        | some (a, _) => if o.access < a then some (o.access, e.1) else b
        | none => some (o.access, e.1)
      else b
    | none => b) none).map (·.2)

/-- The first TILE fragment of an assembly, where it is what the decoder's next TILE body is (R494). -/
def State.stagingBody (s : State) : Option CommandBody :=
  match s.links.bodies.find? (fun b => b.dt == 0x32) with
  | some b => if field b.body 8 4 = 0 then some b else none
  | none => none

/-- Pages staged for the assembly in progress. -/
def State.stagedPages (s : State) : Nat := match s.links.assembly with | some a => a.pages.length | none => 0

/-- Staging pages are short for it (R494). -/
def State.stagingShort (s : State) (tier : Nat) : Bool :=
  tier == tierDram && (match s.stagingBody with | some b => decide (s.freePages + s.stagedPages < field b.body 4 4 / pageBytes) | none => false)

/-- No room is to be had for a tile assembly: its result is NO_SPACE. -/
def State.refuseStaging (s : State) (tier : Nat) : State :=
  if s.stagingShort tier then
    match s.stagingBody with
    | some b =>
      let s := { s with links := { s.links with bodies := dropFirst (fun x => x.dt == 0x32) s.links.bodies } }
      (s.addStatus 0x32 cmdAccepted 0 b.alive b.arrival).addStatus 0x32 cmdTile moverNoSpace b.alive b.arrival
    | none => s
  else s

/-- SPACE_MANAGER_EVICT (R316): while a tier is being relieved, or a request waits for room in it, the next candidate is asked to leave;
where none is left and no eviction is under way, the requests still short of room end NO_SPACE, and so does a tile assembly (R494). -/
def execSpaceManagerEvict (tier : Fin 4) (s : State) : Host.Outcome State Fault Refusal :=
  let t := tier.val
  let s := s.freshResults
  if s.moverRuns = false ∨ (t ≠ tierPool ∧ t ≠ tierDram) then .next s
  else
    let acts := s.tierShort t || (s.managesTier t && s.tierAboveStop t)
    let s := s.setManaging t acts
    if acts = true ∨ s.mem.waiting.any (s.waitsForRoom t) = true ∨ s.stagingShort t = true then
      match s.nextCandidate t with
      | some id => .next (s.arrive ⟨none, id, .evict t⟩)
      | none =>
        if s.makingRoom t then .next s
        else
          let short := s.mem.waiting.filter (s.waitsForRoom t)
          let s := { s with mem := { s.mem with waiting := s.mem.waiting.filter (fun r => !s.waitsForRoom t r) } }
          .next ((short.foldl (fun s r => s.finish r moverNoSpace) s).refuseStaging t)
    else .next s

/-! ### Accesses and scrubbing -/

/-- OBJECT_ACCESS (R302, R306, R312, R321 to R328): a read delivers its bytes with the words that are uncorrectable, an object error
delivers nothing, and an access to a tile waits until the directory is ready. -/
def execObjectAccess (unit : Fin 48) (object : Word) (offset length : Nat) (data : Option (List Byte))
    (errors : ReadErrors) (s : State) : Host.Outcome State Fault Refusal :=
  let a : HeldAccess := ⟨unit, object.toNat, offset, length, data, errors.words, errors.undecoded, 0, []⟩
  let s := s.freshResults
  if s.moverRuns = false ∨ s.swatchRuns unit = false then .next s
  else if isTile a.object = true ∧ s.dirReady = false ∧ s.tileRegionBad = false then .next (s.holdAccess a)
  else .next (s.serveAccess a)

/-- The object and offset that a DRAM data address holds, where a page is allocated. -/
def State.ownerOf (s : State) (addr : Nat) : Option (Nat × Nat) :=
  s.mem.objects.findSome? (fun e =>
    match e.2 with
    | some o => (o.pages.findIdx? (· == addr / pageBytes)).map (fun i => (e.1, i * pageBytes + addr % pageBytes))
    | none => none)

/-- Bytes of the LPDDR5X data space (R331). -/
def State.dataBytes (s : State) : Nat := s.fld fld_MEM_DATA_MIB_MIB * 2 ^ 20

/-- What the patrol scrub does at the data word at address `a` (R329): it is corrected, counted or marked. -/
def State.scrubWord (s : State) (a : Nat) (errors : SymbolErrors) : State :=
  match s.ownerOf a with
  | none =>
    match checkWord [] (dramTag (a / 32)) errors with
    | .clean => s
    | .corrected _ _ => s.recordCe mediumDram
    | .uncorrectable loc => s.recordUe mediumDram 15 true loc a
  | some (id, off) =>
    let data := s.memBytes id off 32
    match s.wordMark false (memKey id (off / 32)) with
    | .ue => s.recordUe mediumDram 15 true false a
    | .location => s.recordUe mediumDram 15 true true a
    | .good =>
      match checkWord data (dramTag (a / 32)) errors with
      | .clean => if errors.isEmpty then s else s.setMemBytes id off (applySymbols data errors)
      | .corrected p v => (s.setMemBytes id off (applySymbols data (errors ++ [(p, v)]))).recordCe mediumDram
      | .uncorrectable loc => (s.setMark false (memKey id (off / 32)) (markOf loc)).recordUe mediumDram 15 true loc a

/-- The address after a scrubbed word, the pass beginning again at the end of the data space. -/
def State.nextScrub (s : State) : Nat := if s.dataBytes ≤ s.mem.scrub + 32 then 0 else s.mem.scrub + 32

/-- PATROL_SCRUB_READ (R329). -/
def execPatrolScrubRead (errors : SymbolErrors) (s : State) : Host.Outcome State Fault Refusal :=
  let on := if (s.dramPlace s.mem.scrub).interface = 0 then s.flag fld_MEM_CFG_IF0_EN else s.flag fld_MEM_CFG_IF1_EN
  if s.moverRuns = false ∨ s.runsClassD = false ∨ s.fld fld_MEM_MOVE_CFG_SCRUB_MBS = 0 ∨ s.dataBytes = 0 ∨ on = false then .next s
  else .next ({ s with mem := { s.mem with scrub := s.nextScrub } }.scrubWord s.mem.scrub errors)

/-- SRAM_IDLE_SCRUB (R329): a word of a swatch's own SRAM. -/
def execSramIdleScrub (swatch : Fin 48) (addr : Nat) (errors : SymbolErrors) (s : State) :
    Host.Outcome State Fault Refusal :=
  if s.swatchRuns swatch = false then .next s
  else
    let key := sramKey swatch (addr / 32)
    match Store.get .good s.sramBad key with
    | .ue => .next (s.recordUe mediumSram swatch true false addr)
    | .location => .next (s.recordUe mediumSram swatch true true addr)
    | .good =>
      match selvedgeCheck errors with
      | .clean => .next s
      | .corrected _ _ => .next (s.recordCe mediumSram)
      | .uncorrectable loc =>
        .next ({ s with sramBad := Store.set .good s.sramBad key (markOf loc) }.recordUe mediumSram swatch true loc addr)

/-! ### Rebuilding the directory -/

/-- The records of a channel's tiles from its newest checkpoint and the journal after it (R306): a later entry takes an earlier one's
place, and a freed record is gone unless the tile has a newer one by then. -/
def replayDir (l : List DirEntry) : Store (Option DirEntry) :=
  l.foldl (fun t e =>
    if bit e.flags 3 then
      (if (Store.get none t e.tile).map (·.record) = some e.record then Store.set none t e.tile none else t)
    else Store.set none t e.tile (some e)) []

/-- Channels whose journal is three-quarters full have their stripe written out (R306), but not in brown hold (R319). -/
def State.checkpointFull (s : State) : State :=
  if s.power.nandHeld then s
  else (List.range 16).foldl (fun s c => if s.journalFull c then s.checkpoint c else s) s

/-- DIRECTORY_REBUILD_DONE (R305, R306): each tile's home is its newest durable record; DIR_READY rises, and what waited for it is
served. -/
def execDirectoryRebuildDone (s : State) : Host.Outcome State Fault Refusal :=
  let s := s.freshResults
  if s.moverRuns = false ∨ s.dozing = true ∨ s.flag fld_SYS_LOCK_LOCKED = false ∨ s.dirReady = true ∨ s.tileRegionBad = true then .next s
  else
    let s := (List.range 16).foldl (fun s c =>
      (replayDir (s.newestCheckpoint c ++ s.journal c)).foldl (fun s e =>
        match e.2 with
        | some d =>
          if d.tile < s.fld fld_MEM_TILE_CFG_DIR_ENTRIES then
            s.setObject (tileId d.tile) (some ⟨d.size, true, tierFlash, false, some ⟨d.gen, d.size, s.pageOfFlash d.record⟩, 0, []⟩)
          else s
        | none => s) s) s
    .next (((s.checkpointFull.setFlag fld_MEM_STATUS_DIR_READY true).serveHeld (fun a => isTile a.object)).serveWaiting)

/-- Erased blocks of a channel's tile region, and whether they are fewer than 2 % of its blocks (R306). -/
def State.erasedBlocks (s : State) (c : Nat) : Nat := ((s.recordBlocks c).filter (fun b => s.programmedIn c b == 0)).length
def State.fewErased (s : State) (c : Nat) : Bool :=
  decide (s.erasedBlocks c * 50 < (s.reg (reg_MEM_TILE_REGION_BLOCKS c)).toNat)

/-- A request waits for a run of erased pages on a channel. -/
def State.waitsForRun (s : State) (c : Nat) : Bool :=
  s.mem.waiting.any (fun r => recordChannel r.object == c && s.waitsForRoom tierFlash r)

/-- The programmed block of a channel with the fewest live pages, the lowest where several tie (R306). -/
def State.reclaimBlock (s : State) (c : Nat) : Option Nat :=
  (((s.recordBlocks c).filter (fun b => decide (0 < s.programmedIn c b))).foldl (fun (a : Option (Nat × Nat)) b =>
    match a with
    | some (n, _) => if s.livePagesIn c b < n then some (s.livePagesIn c b, b) else a
    | none => some (s.livePagesIn c b, b)) none).map (·.2)

/-- Rewrite a record elsewhere than in block b, under its own generation (R306). -/
def State.moveRecord (s : State) (c b id : Nat) (r : TileRecord) : Option State :=
  match s.object id, s.programRecord c (recordPages r.size) (some b) with
  | some o, some (p, s) =>
    let n : TileRecord := { r with first := p }
    some (((s.setObject id (some { o with record := some n })).appendJournal id n false).appendJournal id r true)
  | _, _ => none

/-- TILE_REGION_RECLAIM (R306): the live records of the block with the fewest live pages are rewritten, and the block is erased. It
needs room for them elsewhere. -/
def execTileRegionReclaim (channel : Fin 16) (s : State) : Host.Outcome State Fault Refusal :=
  let c := channel.val
  let s := s.freshResults
  if s.moverRuns = false ∨ s.runsClassD = false ∨ (s.fewErased c || s.waitsForRun c) = false ∨ s.power.nandHeld = true ∨
      s.channelReady (tileId c) tierFlash = false then .next s
  else match s.reclaimBlock c with
    | none => .next s
    | some b =>
      let live := (s.liveRecords c).filter (fun e =>
        decide (e.2.first < (b + 1) * s.nandPages) && decide (b * s.nandPages < e.2.first + recordPages e.2.size))
      match live.foldl (fun (a : Option State) e => a.bind (fun s => s.moveRecord c b e.1 e.2)) (some s) with
      | none => .next s
      | some t => .next { t with mem := { t.mem with programmed := Store.set 0 t.mem.programmed (blockKey c b) 0 } }.serveWaiting

/-- MR4_POLL (R307): the refresh rate follows MR4 bits [4:0]. -/
def execMr4Poll (interface : Fin 2) (mr4 : BitVec 8) (s : State) : Host.Outcome State Fault Refusal :=
  let on := if interface = 0 then s.flag fld_MEM_CFG_IF0_EN else s.flag fld_MEM_CFG_IF1_EN
  if s.moverRuns ∧ on then
    .next { s with mem := { s.mem with refresh := Store.set 0 s.mem.refresh interface (mr4.toNat % 32) } }
  else .next s

/-! ### Resets -/

/-- A tile of the pool returns to its newest durable record, or is lost (R318). -/
def State.returnTile (s : State) (id : Nat) (o : MemObject) : State :=
  let s := { s with mem := { s.mem with bad := s.mem.bad.filter (fun e => e.1 / 2 ^ 40 != id) } }
  match o.record with
  | some r => (s.setObject id (some { o with home := tierFlash, dirty := false, size := r.size })).addSat fld_MEM_TILE_LOSS_POOL_LOST 1
  | none => (s.setObject id none).addSat fld_MEM_TILE_LOSS_UNRECORDED 1

/-- A swatch reset of TRACK empties the pool, and abandons a move into or out of it (R318). -/
def State.emptyPool (s : State) : State :=
  let gone := match s.mem.move with
    | some m => if s.movesPool m.request.object m.dest then some m.request else none
    | none => none
  let s := s.mem.objects.foldl (fun s e =>
    match e.2 with
    | some o => if o.home = tierPool then s.returnTile e.1 o else s
    | none => s) s
  match gone with
  | some r => s.endLease r moverPartnerReset
  | none => s.settleManager

/-- A swatch reset of NAND channel n abandons the move that uses it (R318). -/
def State.dropChannelMove (s : State) (c : Nat) : State :=
  match s.mem.move with
  | some m => if s.moveChannel m.request.object m.dest = some c then s.endMove moverPartnerReset else s
  | none => s

/-- Create a tile in DRAM, where its number and size are allowed and there is room. -/
def State.createTile (s : State) (id size : Nat) : Option State :=
  if isTile id ∧ tileNumber id < s.fld fld_MEM_TILE_CFG_DIR_ENTRIES ∧ size % pageBytes = 0 ∧ 0 < size ∧ size ≤ 2 ^ 22 ∧
      size / pageBytes ≤ s.freePages ∧ s.tileRegionBad = false then
    let (pages, s) := s.allocate s.usedPages (size / pageBytes)
    let n := s.mem.accesses + 1
    some ({ s with mem := { s.mem with accesses := n } }.setObject id (some ⟨size, true, tierDram, true, none, n, pages⟩))
  else none

end Sys2Proof.Machine
end

