-- ==== Sys2Proof/Machine/Tensor.lean ====
section
/-!
DEFINITION. The arithmetic of the neural cores: number formats, tensors, dot products, the epilogue, output conversion and
the steps of a program (R257 to R283).
-/
namespace Sys2Proof.Machine

/-! ### Formats -/

def fmtInt8 : Nat := 0
def fmtU8 : Nat := 1
def fmtE4M3 : Nat := 2
def fmtE5M2 : Nat := 3
def fmtE3M2 : Nat := 4
def fmtE2M3 : Nat := 5
def fmtE2M1 : Nat := 6
def fmtBf16 : Nat := 7
def fmtFp16 : Nat := 8
def fmtFp32 : Nat := 9
def fmtU16 : Nat := 10
def fmtS16 : Nat := 11

/-- Bits of an element (Table 8.2). -/
def elemBits (fmt : Nat) : Nat :=
  if fmt ≤ 3 then 8 else if fmt ≤ 5 then 6 else if fmt = 6 then 4 else if fmt = 9 then 32 else 16

/-- The FP6 and FP4 formats, and the FP8 formats. -/
def isFp6or4 (fmt : Nat) : Bool := decide (4 ≤ fmt) && decide (fmt ≤ 6)
def isFp8 (fmt : Nat) : Bool := fmt == 2 || fmt == 3

/-- A minifloat without special codes: exponent bits, mantissa bits, bias (R257). -/
def miniOf (fmt : Nat) : FpFormat :=
  match fmt with
  | 2 => ⟨4, 3, 7⟩
  | 3 => ⟨5, 2, 15⟩
  | 4 => ⟨3, 2, 3⟩
  | 5 => ⟨2, 3, 1⟩
  | _ => ⟨2, 1, 1⟩

/-- The value of a minifloat code in which every code is finite. -/
def decodeMini (f : FpFormat) (b : Nat) : Fp :=
  let s := bit b (f.exp + f.man)
  let e := b / 2 ^ f.man % 2 ^ f.exp
  let m := b % 2 ^ f.man
  let a : Rat := if e = 0 then (m : Rat) * pow2 (1 - (f.bias : Int) - f.man)
    else ((2 ^ f.man + m : Nat) : Rat) * pow2 ((e : Int) - f.bias - f.man)
  .num (if s then -a else a) s

/-- The value of an element code (Table 8.2). -/
def decodeElem (fmt b : Nat) : Fp :=
  match fmt with
  | 0 => Fp.ofRat (signed 8 b)
  | 1 => Fp.ofRat (b % 256 : Nat)
  | 2 => if b % 128 = 127 then .nan else decodeMini (miniOf 2) b
  | 3 => (miniOf 3).decode b
  | 7 => bf16.decode b
  | 8 => fp16.decode b
  | 9 => fp32.decode b
  | 10 => Fp.ofRat (b % 65536 : Nat)
  | 11 => Fp.ofRat (signed 16 b)
  | f => decodeMini (miniOf f) b

/-- The largest finite value of a minifloat (Table 8.2). -/
def miniLargest (fmt : Nat) : Rat :=
  match fmt with
  | 2 => 448
  | 3 => 57344
  | 4 => 28
  | 5 => 15 / 2
  | _ => 6

/-- emax of a minifloat (Table 8.2). -/
def miniEmax (fmt : Nat) : Int :=
  match fmt with
  | 2 => 8
  | 3 => 15
  | 4 => 4
  | 5 => 2
  | _ => 2

/-- A number rounded to a minifloat's values, its exponent unbounded above. -/
def roundMini (fmt : Nat) (q : Rat) : Rat :=
  if q = 0 then 0
  else
    let f := miniOf fmt
    let v := roundTo f.man (1 - (f.bias : Int)) (absRat q)
    if q < 0 then -v else v

/-- The code of a number that a minifloat holds, with its sign. -/
def encodeMini (fmt : Nat) (q : Rat) (neg : Bool) : Nat :=
  let f := miniOf fmt
  (if neg then 2 ^ (f.exp + f.man) else 0) + (if q = 0 then 0 else fieldsOf f.man f.bias (absRat q))

/-- Integer limits of a format. -/
def intLow (fmt : Nat) : Int := if fmt = 0 then -128 else if fmt = 11 then -32768 else 0
def intHigh (fmt : Nat) : Int := if fmt = 0 then 127 else if fmt = 1 then 255 else if fmt = 10 then 65535 else 32767

/-- Conversion to an unscaled format (R269, Table 8.4). -/
def convertElem (fmt : Nat) (sat : Bool) (y : Fp) : Nat :=
  if fmt = 0 ∨ fmt = 1 ∨ fmt = 10 ∨ fmt = 11 then
    let w := elemBits fmt
    let v : Int := match y with
      | .nan => 0
      | .inf s => if s then intLow fmt else intHigh fmt
      | .num q _ => clampInt (intLow fmt) (intHigh fmt) (nearestEven q)
    (v % 2 ^ w).toNat
  else if fmt = 2 then
    match y with
    | .nan => 0x7F
    | .inf s => encodeMini 2 448 s
    | .num q s => let v := roundMini 2 q; encodeMini 2 (if 448 < absRat v then 448 else v) s
  else if fmt = 3 then
    let past (s : Bool) : Nat := if sat then encodeMini 3 57344 s else (if s then 0xFC else 0x7C)
    match y with
    | .nan => 0x7E
    | .inf s => past s
    | .num q s => let v := roundMini 3 q; if 57344 < absRat v then past s else encodeMini 3 v s
  else if fmt = 7 then bf16.encode (bf16.rnd y)
  else if fmt = 8 then fp16.encode (fp16.rnd y)
  else fp32.encode y

/-- The factor of a block scale code, as a value (R258). -/
def scaleFactor (x : Nat) : Fp := if x = 0xFF then .nan else .num (pow2 ((x : Int) - 127)) false

/-! ### Tensors -/

/-- A tensor descriptor (Table 8.7). -/
structure TensorDesc where
  place : Nat
  format : Nat
  flags : Nat
  slot : Nat
  h : Nat
  w : Nat
  c : Nat
  zero : Nat
  pitch : Nat
  offset : Nat
  scaleOffset : Nat
  zero2 : Nat
  deriving DecidableEq, Repr

/-- A step descriptor (Table 8.8). -/
structure StepDesc where
  op : Nat
  split : Nat
  act : Nat
  flags : Nat
  inA : Nat
  inB : Nat
  out : Nat
  kh : Nat
  kw : Nat
  stride : Nat
  dil : Nat
  padY : Nat
  padX : Nat
  wfmt : Nat
  subOp : Nat
  zero : Nat
  const : Nat
  wOffset : Nat
  chunkBytes : Nat
  zero2 : Nat
  deriving DecidableEq, Repr

def opConv : Nat := 1
def opDwConv : Nat := 2
def opPoolMax : Nat := 3
def opPoolAvg : Nat := 4
def opEwise : Nat := 5
def opConvert : Nat := 6
def opGeom : Nat := 7

/-- The object of a program (R274). -/
def programObject (p : Nat) : Nat := 0x100 + p

/-- Bytes of a program. -/
def State.progNat (s : State) (p off n : Nat) : Nat := s.objNat frameSwatch (programObject p) off n

/-- Fields of a program's header (Table 8.6). -/
def State.progSteps (s : State) (p : Nat) : Nat := s.progNat p 0 2
def State.progTensors (s : State) (p : Nat) : Nat := s.progNat p 2 2
def State.progCores (s : State) (p : Nat) : Nat := s.progNat p 4 1
def State.progWeights (s : State) (p : Nat) : Nat := s.progNat p 8 4
def State.progArena (s : State) (p : Nat) : Nat := s.progNat p 12 4

/-- Tensor t of a program. -/
def State.tensor (s : State) (p t : Nat) : TensorDesc :=
  let d := s.objBytes frameSwatch (programObject p) (64 + 32 * t) 32
  { place := field d 0 1, format := field d 1 1, flags := field d 2 1, slot := field d 3 1, h := field d 4 2, w := field d 6 2,
    c := field d 8 2, zero := field d 10 2, pitch := field d 12 4, offset := field d 16 8, scaleOffset := field d 24 4,
    zero2 := field d 28 4 }

/-- Step k of a program. -/
def State.progStep (s : State) (p k : Nat) : StepDesc :=
  let d := s.objBytes frameSwatch (programObject p) (64 + 32 * s.progTensors p + 64 * k) 64
  { op := field d 0 1, split := field d 1 1, act := field d 2 1, flags := field d 3 1, inA := field d 4 2, inB := field d 6 2,
    out := field d 8 2, kh := field d 10 1, kw := field d 11 1, stride := field d 12 1, dil := field d 13 1,
    padY := field d 14 1, padX := field d 15 1, wfmt := field d 16 1, subOp := field d 17 1, zero := field d 18 2,
    const := field d 20 4, wOffset := field d 24 8, chunkBytes := field d 32 4, zero2 := leNat (slice d 36 28) }

/-- FLAGS of a step. -/
def StepDesc.sparse (d : StepDesc) : Bool := bit d.flags 0
def StepDesc.residual (d : StepDesc) : Bool := bit d.flags 1
def StepDesc.sat (d : StepDesc) : Bool := bit d.flags 2
def StepDesc.epilogue (d : StepDesc) : Bool := bit d.flags 3
def StepDesc.wscaled (d : StepDesc) : Bool := bit d.flags 4
def StepDesc.sy (d : StepDesc) : Nat := d.stride % 16
def StepDesc.sx (d : StepDesc) : Nat := d.stride / 16
def StepDesc.dy (d : StepDesc) : Nat := d.dil % 16
def StepDesc.dx (d : StepDesc) : Nat := d.dil / 16

/-- SCALED of a tensor. -/
def TensorDesc.scaled (t : TensorDesc) : Bool := bit t.flags 0

/-- Channel blocks of a tensor, and bytes of one (R258, R259). -/
def TensorDesc.blocks (t : TensorDesc) : Nat := ceilDiv t.c 32
def blockSize (fmt : Nat) : Nat := 4 * elemBits fmt

/-- Where a tensor's bytes lie: the frame store, the cores' activation stores, or an LPDDR5X object. -/
inductive TensorSpace where
  | frame | sram | dram (obj : Nat)
  deriving DecidableEq, Repr

/-- A tensor as a request has it: its space, the byte of (0, 0, 0), bytes per row and per position, and its scale plane. -/
structure TensorView where
  desc : TensorDesc
  space : TensorSpace
  base : Nat
  row : Nat
  pos : Nat
  scales : Nat
  deriving DecidableEq, Repr

/-- The key of a byte of an LPDDR5X arena among the arenas' written bytes. -/
def dramArenaKey (obj off : Nat) : Nat := 2 ^ 80 + obj * 2 ^ 40 + off

/-- Bytes of an arena; what its request has not written is free (R275). -/
def State.arenaBytes (s : State) (key n : Nat) : List Byte :=
  (Store.getMany none s.neural.arena key n).zipIdx.map (fun e => e.1.getD (Config.staleArena s.neural.serial (key + e.2)))

/-- Write bytes of an arena. -/
def State.setArena (s : State) (key : Nat) (l : List Byte) : State :=
  { s with neural := { s.neural with arena := Store.setMany none s.neural.arena key (l.map some) } }

/-- A number in a tensor space. -/
def State.spaceNat (s : State) (p : TensorSpace) (a n : Nat) : Nat :=
  match p with
  | .frame => s.frameNat a n
  | .sram => leNat (s.arenaBytes a n)
  | .dram o => leNat (s.arenaBytes (dramArenaKey o a) n)

/-- Write a number in a tensor space. -/
def State.setSpaceNat (s : State) (p : TensorSpace) (a n v : Nat) : State :=
  match p with
  | .frame => s.setFrameNat a n v
  | .sram => s.setArena a (toLe n v)
  | .dram o => (s.setMemBytes o a (toLe n v)).setArena (dramArenaKey o a) (toLe n v)

/-- The bit of a tensor space at which element (h, w, c) begins (R259, R260). -/
def TensorView.elemBit (v : TensorView) (h w c : Nat) : Nat :=
  let b := elemBits v.desc.format
  8 * (v.base + h * v.row + w * v.pos) + c / 32 * 8 * blockSize v.desc.format + c % 32 * b

/-- The code of an element. -/
def State.elemCode (s : State) (v : TensorView) (h w c : Nat) : Nat :=
  let b := elemBits v.desc.format
  let a := v.elemBit h w c
  s.spaceNat v.space (a / 8) (ceilDiv (a % 8 + b) 8) / 2 ^ (a % 8) % 2 ^ b

/-- Write the code of an element. -/
def State.setElemCode (s : State) (v : TensorView) (h w c code : Nat) : State :=
  let b := elemBits v.desc.format
  let a := v.elemBit h w c
  let n := ceilDiv (a % 8 + b) 8
  let old := s.spaceNat v.space (a / 8) n
  let kept := old - old / 2 ^ (a % 8) % 2 ^ b * 2 ^ (a % 8)
  s.setSpaceNat v.space (a / 8) n (kept + code % 2 ^ b * 2 ^ (a % 8))

/-- Where the scale code of block b at a position lies. -/
def TensorView.scaleAt (v : TensorView) (h w b : Nat) : Nat := v.scales + (h * v.desc.w + w) * v.desc.blocks + b

/-- The scale code of a block: 127, the factor 1, where the tensor is unscaled (R258). -/
def State.scaleCode (s : State) (v : TensorView) (h w b : Nat) : Nat :=
  if v.desc.scaled then s.spaceNat v.space (v.scaleAt h w b) 1 else 127

/-- An element's own value; NaN where its block scale is 0xFF, and zero in the padding (R258, R259). -/
def State.element (s : State) (v : TensorView) (h w c : Nat) : Fp :=
  if v.desc.c ≤ c then Fp.zero
  else if s.scaleCode v h w (c / 32) = 0xFF then .nan
  else decodeElem v.desc.format (s.elemCode v h w c)

/-- An element decoded to FP32 (R268). -/
def State.decoded (s : State) (v : TensorView) (h w c : Nat) : Fp :=
  let x := s.element v h w c
  if v.desc.scaled then fp32.rnd (x.times (scaleFactor (s.scaleCode v h w (c / 32)))) else fp32.rnd x

/-! ### Dot products -/

/-- A term of a reduction: activation, its block's scale code, weight, its block's scale code. -/
structure Term where
  a : Fp
  xa : Nat
  w : Fp
  xw : Nat
  deriving DecidableEq, Repr

/-- The exact sum of a block's products (R263, R265). -/
def blockSum (l : List Term) : Fp := l.foldl (fun t x => t.plus (x.a.times x.w)) Fp.zero

/-- One block of R263: the accumulator after one rounding. -/
def addBlock (acc : Fp) (l : List Term) : Fp :=
  match l with
  | [] => acc
  | t :: _ => fp32.rnd (acc.plus ((blockSum l).times (.num (pow2 ((t.xa : Int) + t.xw - 254)) false)))

/-- Cut a list into runs of n. -/
def chunksOf {α : Type} (n : Nat) : Nat → List α → List (List α)
  | 0, _ => []
  | fuel + 1, l => if l.isEmpty then [] else l.take n :: chunksOf n fuel (l.drop n)

/-- A CONV reduction over its terms: block by block, or term by term for BF16 and FP32 (R263, R264). -/
def reduce (fused : Bool) (l : List Term) : Fp :=
  if fused then l.foldl (fun acc t => fp32.fma t.a t.w acc) Fp.zero
  else (chunksOf 32 (l.length + 1) l).foldl addBlock Fp.zero

/-- Whether a CONV step packs its taps (R262). -/
def packedTaps (a : TensorDesc) : Bool := decide (a.c < 32) && !a.scaled

/-- K′ of a CONV step (R262). -/
def convTerms (d : StepDesc) (a : TensorDesc) : Nat :=
  if packedTaps a then ceilDiv (d.kh * d.kw * a.c) 32 * 32 else d.kh * d.kw * a.blocks * 32

/-- Tap and channel of term k; none in the padding of packed taps. -/
def termPlace (d : StepDesc) (a : TensorDesc) (k : Nat) : Option (Nat × Nat) :=
  if packedTaps a then (if k < d.kh * d.kw * a.c then some (k / a.c, k % a.c) else none)
  else some (k / (a.blocks * 32), k % (a.blocks * 32))

/-- The input position of a tap of an output position, where it lies inside the input (R276). -/
def tapPlace (d : StepDesc) (a : TensorDesc) (h w tap : Nat) : Option (Nat × Nat) :=
  let i := tap / d.kw
  let j := tap % d.kw
  let y := h * d.sy + i * d.dy
  let x := w * d.sx + j * d.dx
  if d.padY ≤ y ∧ y - d.padY < a.h ∧ d.padX ≤ x ∧ x - d.padX < a.w then some (y - d.padY, x - d.padX) else none

/-! ### Weights -/

/-- Channels of a pass, and positions (Table 8.9). -/
def passChannels (split : Nat) : Nat := if split = 0 then 256 else if split = 1 then 64 else 16
def passPositions (split : Nat) : Nat := if split = 0 then 16 else if split = 1 then 64 else 256

/-- Bytes of a weight block: 32 elements, or 20 bytes where sparse (R266, R283). -/
def weightBlock (d : StepDesc) : Nat := if d.sparse then 20 else blockSize d.wfmt

/-- The bytes of a chunk before rounding (R283). -/
def chunkSize (d : StepDesc) (a : TensorDesc) : Nat :=
  if d.op = opConv then
    let n := passChannels d.split
    let b := convTerms d a / 32
    b * n * weightBlock d + (if d.wscaled then b * n else 0) + (if d.epilogue then 8 * n else 0)
  else 512 * (ceilDiv (d.kh * d.kw * elemBits d.wfmt / 8) 64 * 64) + (if d.epilogue then 8 * 512 else 0)

/-- Chunks of a step: one per channel group, or per 512 channels of DWCONV (R283). -/
def stepChunks (d : StepDesc) (out : TensorDesc) : Nat :=
  if d.op = opConv then ceilDiv out.c (passChannels d.split) else if d.op = opDwConv then ceilDiv out.c 512 else 0

/-- The code of weight term k of a channel in its chunk, 0 where a sparse group does not store it (R266). -/
def weightCode (chunk : List Byte) (d : StepDesc) (c k : Nat) : Nat :=
  let n := passChannels d.split
  let at_ := (k / 32 * n + c % n) * weightBlock d
  let i := k % 32
  if d.sparse then
    let g := i / 4
    let nib := field chunk (at_ + 16 + g / 2) 1 / 16 ^ (g % 2) % 16
    if i % 4 = nib % 4 then field chunk (at_ + 2 * g) 1
    else if i % 4 = nib / 4 then field chunk (at_ + 2 * g + 1) 1
    else 0
  else
    let b := elemBits d.wfmt
    let a := i * b
    field chunk (at_ + a / 8) (ceilDiv (a % 8 + b) 8) / 2 ^ (a % 8) % 2 ^ b

/-- The scale code of a weight block. -/
def weightScale (chunk : List Byte) (d : StepDesc) (a : TensorDesc) (c b : Nat) : Nat :=
  if d.wscaled then
    let n := passChannels d.split
    field chunk (convTerms d a / 32 * n * weightBlock d + b * n + c % n) 1
  else 127

/-- S and B of a channel of CONV or DWCONV, one after the other in the chunk (R283). -/
def epilogueOf (chunk : List Byte) (d : StepDesc) (a : TensorDesc) (c : Nat) : Fp × Fp :=
  let n := if d.op = opConv then passChannels d.split else 512
  let at_ := chunkSize d a - 8 * n + 8 * (c % n)
  (ofWord32 (field chunk at_ 4), ofWord32 (field chunk (at_ + 4) 4))

/-! ### Steps -/

/-- What a step reads and writes. -/
structure StepCtx where
  program : Nat
  desc : StepDesc
  a : TensorView
  b : TensorView
  out : TensorView
  deriving DecidableEq, Repr

/-- The terms of a CONV output (R262): those that pad packed taps are zero. -/
def State.convTermsOf (s : State) (x : StepCtx) (chunk : List Byte) (h w c : Nat) : List Term :=
  (List.range (convTerms x.desc x.a.desc)).map (fun k =>
    let xw := weightScale chunk x.desc x.a.desc c (k / 32)
    let wv : Fp := if xw = 0xFF then .nan else decodeElem x.desc.wfmt (weightCode chunk x.desc c k)
    match termPlace x.desc x.a.desc k with
    | none => ⟨Fp.zero, 127, Fp.zero, 127⟩
    | some (tap, ch) =>
      match tapPlace x.desc x.a.desc h w tap with
      | none => ⟨Fp.zero, 127, wv, xw⟩
      | some (y, z) => ⟨s.element x.a y z ch, s.scaleCode x.a y z (ch / 32), wv, xw⟩)

/-- The accumulator of a CONV output. -/
def State.convAcc (s : State) (x : StepCtx) (chunk : List Byte) (h w c : Nat) : Fp :=
  reduce (x.a.desc.format == fmtBf16 || x.a.desc.format == fmtFp32) (s.convTermsOf x chunk h w c)

/-- A DWCONV weight, decoded. -/
def dwWeight (d : StepDesc) (chunk : List Byte) (c tap : Nat) : Fp :=
  let per := ceilDiv (d.kh * d.kw * elemBits d.wfmt / 8) 64 * 64
  let n := elemBits d.wfmt / 8
  fp32.rnd (decodeElem d.wfmt (field chunk (c % 512 * per + tap * n) n))

/-- The input of a tap, decoded, or none outside the input. -/
def State.tapValue (s : State) (x : StepCtx) (h w c tap : Nat) : Option Fp :=
  (tapPlace x.desc x.a.desc h w tap).map (fun q => s.decoded x.a q.1 q.2 c)

/-- The accumulator of a DWCONV output (R276). -/
def State.dwAcc (s : State) (x : StepCtx) (chunk : List Byte) (h w c : Nat) : Fp :=
  (List.range (x.desc.kh * x.desc.kw)).foldl (fun acc t =>
    fp32.fma ((s.tapValue x h w c t).getD Fp.zero) (dwWeight x.desc chunk c t) acc) Fp.zero

/-- POOL_MAX and POOL_AVG (R276). -/
def State.poolMax (s : State) (x : StepCtx) (h w c : Nat) : Fp :=
  match (List.range (x.desc.kh * x.desc.kw)).filterMap (s.tapValue x h w c) with
  | [] => Fp.zero
  | v :: r => r.foldl Fp.max v
def State.poolAvg (s : State) (x : StepCtx) (h w c : Nat) : Fp :=
  let n := x.desc.kh * x.desc.kw
  let sum := (List.range n).foldl (fun t i => fp32.add t ((s.tapValue x h w c i).getD Fp.zero)) Fp.zero
  fp32.div sum (Fp.ofRat (n : Rat))

/-- 1/(1 + e^(−x)) and tanh x; beyond 350 they stand at their limits. -/
def fixSigmoid (x : Fix) : Fix :=
  let m := fixNat 350
  fixDiv fixOne (fixOne + fixExp (-(clampInt (-m) m x)))
def fixTanh (x : Fix) : Fix := 2 * fixSigmoid (2 * x) - fixOne

/-- The functions of ACT 4 to 7: SIGMOID, TANH, SILU and GELU in its tanh form. -/
def activation (act : Nat) (x : Fix) : Fix :=
  match act with
  | 4 => fixSigmoid x
  | 5 => fixTanh x
  | 6 => fixMul x (fixSigmoid x)
  | _ =>
    let u := fixMul (fixSqrt (fixDiv (2 * fixOne) fixPi)) (x + fixMul (fixRat (44715 / 1000000)) (fixMul x (fixMul x x)))
    fixMul x (fixSigmoid (2 * u))

/-- The correctly rounded FP32 value of ACT 4 to 7; at an infinity it is the limit. -/
def activationWord (act : Nat) (y : Fp) : Nat :=
  toWord32 (match y with
    | .nan => .nan
    | .inf s => if act = 4 then (if s then Fp.zero else Fp.one) else if act = 5 then Fp.ofRat (if s then -1 else 1) else if s then .num 0 true else .inf false
    | .num q s => fp32.round (fixToRat (activation act (fixRat q))) (act != 4 && s))

/-- An FP32 word some units in the last place on, no further than the infinities. -/
def stepWord (w : Nat) (k : Int) : Nat :=
  let i : Int := if 2 ^ 31 ≤ w then -((w % 2 ^ 31 : Nat) : Int) else (w : Int)
  let j := clampInt (-0x7F800000) 0x7F800000 (i + k)
  if j = 0 ∧ k = 0 then w else if j < 0 then 2 ^ 31 + j.natAbs else j.toNat

/-- An activation (R268). The fixed evaluation of ACT 4 to 7 lies within 4 units in the last place of the correctly rounded value. -/
def activate (act const : Nat) (y : Fp) : Fp :=
  match y with
  | .nan => .nan
  | y =>
    match act with
    | 0 => y
    | 1 => if Fp.lt Fp.zero y then y else Fp.zero
    | 2 => if Fp.lt Fp.zero y then (if Fp.lt (Fp.ofRat 6) y then Fp.ofRat 6 else y) else Fp.zero
    | 3 => if Fp.le Fp.zero y then y else fp32.mul y (ofWord32 const)
    | k => ofWord32 (stepWord (activationWord k y) (((Config.vectorSlice k (BitVec.ofNat 32 (toWord32 y))).toNat % 9 : Nat) - 4))

/-- An element-wise step (R276). -/
def ewise (sub const : Nat) (a b : Fp) : Fp :=
  match sub with
  | 0 => fp32.add a b
  | 1 => fp32.mul a b
  | 2 => Fp.max a b
  | 3 => Fp.min a b
  | 4 => fp32.mul a (ofWord32 const)
  | _ => a

/-- y of an output before its conversion (R267, R276), from the chunk that serves its channel. -/
def State.stepValue (s : State) (x : StepCtx) (chunk : List Byte) (h w c : Nat) : Fp :=
  let d := x.desc
  let finish (acc : Fp) : Fp :=
    let y := if d.epilogue then
        let e := epilogueOf chunk d x.a.desc c
        fp32.fma acc e.1 e.2
      else acc
    let y := if d.residual then fp32.add y (s.decoded x.b h w c) else y
    activate d.act d.const y
  match d.op with
  | 1 => finish (s.convAcc x chunk h w c)
  | 2 => finish (s.dwAcc x chunk h w c)
  | 3 => s.poolMax x h w c
  | 4 => s.poolAvg x h w c
  | 5 => activate d.act d.const (ewise d.subOp d.const (s.decoded x.a h w c) (s.decoded x.b h w c))
  | _ => s.decoded x.a h w c

/-- The scale code and element codes of a scaled output block (R270). -/
def convertBlock (fmt : Nat) (ys : List Fp) : Nat × List Nat :=
  if ys.any (fun y => !y.finite) then (0xFF, ys.map (fun _ => 0))
  else
    let mag (y : Fp) : Rat := match y with | .num q _ => absRat q | _ => 0
    let a := ys.foldl (fun m y => if m < mag y then mag y else m) 0
    if a = 0 then (0, ys.map (fun y => encodeMini fmt 0 y.sign))
    else
      let x := clampInt (-127) 127 (floorLog2 a - miniEmax fmt)
      ((x + 127).toNat, ys.map (fun y =>
        let q : Rat := match y with | .num q _ => q | _ => 0
        let v := roundMini fmt (q / pow2 x)
        encodeMini fmt (if miniLargest fmt < absRat v then miniLargest fmt else v) y.sign))

/-- Whether a step has chunks: its outputs are formed pass by pass as chunks are there, and kept until it ends. -/
def StepDesc.hasChunks (d : StepDesc) : Bool := d.op == opConv || d.op == opDwConv

/-- The y values of a block of 32 channels, padding included as +0: those that passes have formed, else computed now. -/
def State.blockValues (s : State) (x : StepCtx) (values : Store Word) (h w b : Nat) : List Fp :=
  (List.range 32).map (fun i =>
    let c := b * 32 + i
    if x.out.desc.c ≤ c then Fp.zero
    else if x.desc.hasChunks then ofWord32 (Store.get 0 values ((h * x.out.desc.w + w) * x.out.desc.c + c)).toNat
    else s.stepValue x [] h w c)

/-- What counts in NAN_OUT: a NaN, and in a scaled block an infinity (R270). -/
def countsNan (scaled : Bool) (y : Fp) : Bool := match y with | .nan => true | .inf _ => scaled | _ => false

/-- Write the codes of a block; the padding of an arena tensor is written as +0 (R259). -/
def State.writeBlock (s : State) (v : TensorView) (h w b : Nat) (codes : List Nat) (scale : Nat) : State :=
  let n := if v.space = .frame then min 32 (v.desc.c - b * 32) else 32
  let s := (List.range n).foldl (fun s i =>
    s.setElemCode v h w (b * 32 + i) (if b * 32 + i < v.desc.c then codes.getD i 0 else 0)) s
  if v.desc.scaled then s.setSpaceNat v.space (v.scaleAt h w b) 1 scale else s

/-- Passes of a CONV step, and its blocks or records otherwise (R280, R281). -/
def StepCtx.work (x : StepCtx) : Nat :=
  let m := x.out.desc.h * x.out.desc.w
  if x.desc.op = opConv then ceilDiv m (passPositions x.desc.split) * ceilDiv x.out.desc.c (passChannels x.desc.split)
  else if x.desc.op = opGeom then m
  else m * x.out.desc.blocks

/-- The core, counted in its group of g, that computes position m and channel c (R280, R281). -/
def StepCtx.coreOf (x : StepCtx) (g m c : Nat) : Nat :=
  let per := max 1 (ceilDiv x.work g)
  if x.desc.op = opConv then
    (c / passChannels x.desc.split * ceilDiv (x.out.desc.h * x.out.desc.w) (passPositions x.desc.split) +
      m / passPositions x.desc.split) / per
  else if x.desc.op = opGeom then m / per
  else (m * x.out.desc.blocks + c / 32) / per

/-- What a block writes: its place, codes and scale, and the channels that count in NAN_OUT. -/
structure BlockOut where
  h : Nat
  w : Nat
  b : Nat
  codes : List Nat
  scale : Nat
  nans : List Nat
  deriving DecidableEq, Repr

/-- Every block of a step, computed before any is written. -/
def State.stepBlocks (s : State) (x : StepCtx) (values : Store Word) : List BlockOut :=
  (List.range x.out.desc.h).flatMap (fun h => (List.range x.out.desc.w).flatMap (fun w =>
    (List.range x.out.desc.blocks).map (fun b =>
      let ys := s.blockValues x values h w b
      let f := x.out.desc.format
      let nans := (ys.zipIdx.filter (fun e => countsNan x.out.desc.scaled e.1)).map (fun e => b * 32 + e.2)
      if x.out.desc.scaled then
        let r := convertBlock f ys
        ⟨h, w, b, r.2, r.1, nans⟩
      else ⟨h, w, b, ys.map (convertElem f x.desc.sat), 127, nans⟩)))

/-! ### The geometry unit -/

/-- Channels that Table 8.5 gives an operation's operands and result. -/
def geomShape (sub : Nat) : Nat × Nat × Nat :=
  [(4, 4, 4), (4, 0, 4), (4, 0, 4), (4, 3, 3), (3, 0, 4), (4, 0, 3), (6, 0, 7), (7, 0, 6), (7, 7, 7), (7, 0, 7), (7, 3, 3)].getD
    sub (0, 0, 0)

/-- A record of an operand, a 1 × 1 operand serving every position (R271). -/
def State.geomRecord (s : State) (v : TensorView) (n h w : Nat) : List Fp :=
  let one := v.desc.h = 1 ∧ v.desc.w = 1
  (List.range n).map (fun c => if one then s.decoded v 0 0 c else s.decoded v h w c)

/-- A record without a result: a NaN among its inputs, or a quaternion of zero norm (R273). -/
def geomNan (sub : Nat) (a b : List Fp) : Bool :=
  let zeroQ (l : List Fp) : Bool := (l.take 4).all (fun y => y == .num 0 false || y == .num 0 true)
  let quatA := sub != 4 && sub != 6
  let quatB := sub == 0 || sub == 8
  (a ++ b).any (· == .nan) || (quatA && zeroQ a) || (quatB && zeroQ b)

/-- An operation of Table 8.5 on its operands, as the parts of its result. -/
def geomValue (sub : Nat) (a b : List Fix) : List (List Fix) :=
  let q := a.take 4
  let t := a.drop 4
  match sub with
  | 0 => [quatMul a b]
  | 1 => [quatConj a]
  | 2 => [vecUnit a]
  | 3 => [geomRot a b]
  | 4 => [so3Exp a]
  | 5 => [so3Log a]
  | 6 => [so3Exp (a.take 3), matVec (rotV (a.take 3)) (a.drop 3)]
  | 7 => [so3Log q, matVec (rotVInv (so3Log q)) t]
  | 8 => [quatMul q (b.take 4), vecAdd (geomRot q (b.drop 4)) t]
  | 9 => [quatConj q, (geomRot (quatConj q) t).map (fun x => -x)]
  | _ => [vecAdd (geomRot q b) t]

/-- The result of an operation on a record: exact for QCONJ, else each component rounded once to FP32 from an FP64 evaluation, which
depends on the operands alone (R256, R273). What an infinite operand gives is not stated. -/
def geomResult (sub n : Nat) (a b : List Fp) : List Nat :=
  let key := (a ++ b).map toWord32
  if sub = 1 then (a.zipIdx.map (fun e => toWord32 (if e.2 < 3 then e.1.opp else e.1)))
  else
    match fixes a, fixes b with
    | some x, some y =>
      let l := (geomValue sub x y).flatMap (fun p => p.map (fun v => (v, fixMost p)))
      l.zipIdx.map (fun e => (nudgedWord e.1.1 e.1.2 (Config.geomError sub key e.2).toNat).toNat)
    | _, _ => (List.range n).map (fun i => (Config.geomError sub key i).toNat % 2 ^ 32)

/-- A GEOM step (R271 to R273). -/
def State.geomStep (s : State) (x : StepCtx) (nanAt : State → Nat → State) : State :=
  let sub := x.desc.subOp
  let sh := geomShape sub
  (List.range (x.out.desc.h * x.out.desc.w)).foldl (fun s m =>
    let h := m / x.out.desc.w
    let w := m % x.out.desc.w
    let a := s.geomRecord x.a sh.1 h w
    let b := s.geomRecord x.b sh.2.1 h w
    let bad := geomNan sub a b
    let s := if bad then nanAt s m else s
    s.writeBlock x.out h w 0 (if bad then List.replicate sh.2.2 0x7FC00000 else geomResult sub sh.2.2 a b) 127) s

end Sys2Proof.Machine
end

