-- ==== Sys2Proof/Machine/NeuralQueue.lean ====
section
/-!
DEFINITION. The neural dispatcher's queue, groups and reservation, and what ends a request (R287 to R291).
-/
namespace Sys2Proof.Machine

/-- The swatch of a neural core. -/
def coreSwatch (n : Nat) : Nat := 32 + n

/-- Cores of a running request. -/
def NeuralRun.covers (r : NeuralRun) (n : Nat) : Bool := decide (r.base ≤ n) && decide (n < r.base + r.cores)

/-- A core serves a request. -/
def State.coreBusy (s : State) (n : Nat) : Bool := s.neural.running.any (fun r => r.covers n)

/-- Cores of an aligned group. -/
def groupCores (base size : Nat) : List Nat := (List.range size).map (· + base)

/-- Bases of the aligned groups of a size (R289). -/
def groupBases (size : Nat) : List Nat := (List.range (16 / max 1 size)).map (· * size)

/-- A group lies outside the reservation of another request. -/
def State.unreserved (s : State) (q : NeuralRequest) (base : Nat) : Bool :=
  match s.neural.reserved with
  | none => true
  | some (g, n, b, k) => (g == q.graph && n == q.node) || !(groupCores base q.cores).any (fun c => decide (b ≤ c) && decide (c < b + k))

/-- No core of a group is in reset. -/
def State.groupOut (s : State) (base size : Nat) : Bool := (groupCores base size).all (fun c => s.swatchRuns (coreSwatch c))

/-- A group is wholly idle, out of reset and outside any reservation (R289). -/
def State.groupFree (s : State) (q : NeuralRequest) (base : Nat) : Bool :=
  (groupCores base q.cores).all (fun c => !s.coreBusy c) && s.groupOut base q.cores && s.unreserved q base

/-- Busy cores of a group. -/
def State.busyIn (s : State) (base size : Nat) : Nat := ((groupCores base size).filter s.coreBusy).length

/-- The group a request reserves: the fewest busy cores, the lowest index among equals (R289). -/
def State.reserveFor (s : State) (q : NeuralRequest) : Option Nat :=
  ((groupBases q.cores).filter (fun b => s.groupOut b q.cores)).foldl (fun best b =>
    match best with
    | none => some b
    | some a => if s.busyIn b q.cores < s.busyIn a q.cores then some b else some a) none

/-- End a reservation held by a node. -/
def State.endReservation (s : State) (g n : Nat) : State :=
  match s.neural.reserved with
  | some (a, b, _, _) => if a = g ∧ b = n then { s with neural := { s.neural with reserved := none } } else s
  | none => s

/-- Treat one request of the queue (R289). -/
def State.dispatchOne (s : State) (q : NeuralRequest) : State :=
  match (groupBases q.cores).find? (fun b => s.groupFree q b) with
  | some b =>
    let s := s.endReservation q.graph q.node
    { s with neural := { s.neural with
        queue := s.neural.queue.filter (fun r => !(r.graph == q.graph && r.node == q.node)),
        running := s.neural.running ++ [⟨q.graph, q.node, q.program, b, q.cores, 0, [], false, false, false, [], [], s.stamp⟩] } }
  | none =>
    match s.neural.reserved with
    | some _ => s
    | none =>
      match s.reserveFor q with
      | some b => { s with neural := { s.neural with reserved := some (q.graph, q.node, b, q.cores) } }
      | none => s

/-- NEURAL_DISPATCH: walk the queue in order (R289). -/
def State.dispatch (s : State) : State := s.neural.queue.foldl State.dispatchOne s

/-- The objects a program pins (R287). -/
def State.progObjects (s : State) (p : Nat) : List Nat := [s.progWeights p, s.progArena p].filter (· != 0)

/-- Ask for a request's pins, under the mover's rules (R287, R314, R315); one that the ledger cannot hold is counted and not taken. -/
def State.pinProgram (s : State) (p : Nat) : State :=
  (s.progObjects p).foldl (fun s o => s.arrive ⟨some 8, o, .pin⟩) s

/-- Release a request's pins; one that still waits for a lease to end is asked for no more. -/
def State.unpinProgram (s : State) (p : Nat) : State :=
  (s.progObjects p).foldl (fun s o =>
    let asked (r : MoverRequest) : Bool := r == ⟨some 8, o, .pin⟩
    if s.mem.waiting.any asked then { s with mem := { s.mem with waiting := dropFirst asked s.mem.waiting } }
    else s.dropPin 8 o) s

/-- Service that no step's end has counted, for the cores of a request that leaves (R295). -/
def State.countService (s : State) (r : NeuralRun) : State :=
  if r.started ∧ r.complete = false then
    (groupCores r.base r.cores).foldl (fun s c => s.addBusy (fld_NE_CORE_BUSY_BUSY_US c) ((s.stamp - r.since) / 2 ^ 16)) s
  else s

/-- The arena of a request is discarded: its cores' activation stores and what it wrote of ARENA_OBJ (R275, R291). -/
def State.discardArena (s : State) (r : NeuralRun) : State :=
  let mine (k : Nat) : Bool := (decide (r.base * 2 ^ 21 ≤ k) && decide (k < (r.base + r.cores) * 2 ^ 21)) ||
    (decide (dramArenaKey (s.progArena r.program) 0 ≤ k) && decide (k < dramArenaKey (s.progArena r.program + 1) 0))
  { s with neural := { s.neural with arena := s.neural.arena.filter (fun e => !mine e.1), serial := s.neural.serial + 1 } }

/-- Take a node's request out of the fabric, queued or running, with its pins, its arena and its reservation; whether there was one. -/
def State.removeRequest (s : State) (g n : Nat) : Bool × State :=
  let mineQ (q : NeuralRequest) : Bool := q.graph == g && q.node == n
  let mineR (r : NeuralRun) : Bool := r.graph == g && r.node == n
  let runs := s.neural.running.filter mineR
  let ps := (s.neural.queue.filter mineQ).map (·.program) ++ runs.map (·.program)
  let s := ps.foldl State.unpinProgram s
  let s := runs.foldl (fun s r => (s.countService r).discardArena r) s
  let s := { s with neural := { s.neural with queue := s.neural.queue.filter (fun q => !mineQ q),
                                              running := s.neural.running.filter (fun r => !mineR r) } }
  (!ps.isEmpty, s.endReservation g n)

/-- Drop every request of a graph at its deadline (R291); one that already has its code does not count as dropped. -/
def State.dropRequests (s : State) (g : Nat) : State :=
  let s := (List.range 64).foldl (fun s n =>
    let (had, s) := s.removeRequest g n
    let ended := match s.node? g n with | some r => r.verdict.isSome | none => false
    if had && !ended then s.addSat fld_NE_REQ_LOSS_DROPPED 1 else s) s
  s.dispatch

end Sys2Proof.Machine
end

