-- ==== Sys2Proof/Machine/TrackUpdates.lean ====
section
/-!
DEFINITION. The objects of TRACK and their checks (R336 to R339, R352, R358), and how an update of a set begins and is
dropped (R354).
-/
namespace Sys2Proof.Machine

/-- TRACK. -/
def trackSwatch : Nat := 12

/-! ### Tables -/

/-- A number in a TRACK object. -/
def State.trackNat (s : State) (obj off n : Nat) : Nat := s.objNat trackSwatch obj off n

/-- KIND of a transform entry, and an FP32 value of it. -/
def State.transformKind (s : State) (e : Nat) : Nat := s.trackNat 3 (64 * e + 0x34) 1
def State.transformFp (s : State) (e off : Nat) : Fp := ofWord32 (s.trackNat 3 (64 * e + off) 4)

/-- Whether bytes of a TRACK object are all zero. -/
def State.trackZero (s : State) (obj off n : Nat) : Bool := (s.objBytes trackSwatch obj off n).all (· == 0)

/-- A transform entry fails (R338, R339). -/
def State.transformBad (s : State) (e : Nat) : Bool :=
  let k := s.transformKind e
  let q := [0, 4, 8, 12].map (s.transformFp e)
  if k = 0 then false
  else
    decide (3 < k) || q.any (fun v => !v.finite) || q.all (fun v => v == .num 0 false || v == .num 0 true) ||
      (k != 1 && !s.trackZero 3 (64 * e + 0x20) 20) || !s.trackZero 3 (64 * e + 0x35) 11

/-- A transform entry in use of a kind. -/
def State.transformIs (s : State) (e kind : Nat) : Bool := s.transformKind e == kind && !s.transformBad e

/-- RATE_HZ of an IMU's entry, and its check. -/
def State.imuRate (s : State) (n : Nat) : Nat := s.trackNat 4 (32 * n + 2) 2
def State.imuBad (s : State) (n : Nat) : Bool :=
  let at_ (off k : Nat) := s.trackNat 4 (32 * n + off) k
  s.imuRate n != 0 &&
    (!s.transformIs (at_ 0 1) 2 || decide (1 < at_ 1 1) || decide (8000 < s.imuRate n) || at_ 0x14 4 == 0 || decide (100000 < at_ 0x14 4) ||
      !s.trackZero 4 (32 * n + 0x18) 8)

/-- An enabled IMU (R344). -/
def State.imuOn (s : State) (n : Nat) : Bool := s.flag (fld_IMU_STATUS_ENABLED n)

/-- Whether entry i of a TRACK object lies in what was loaded; what does not is no entry. -/
def State.hasEntry (s : State) (obj size i : Nat) : Bool := decide (size * (i + 1) ≤ s.objLen trackSwatch obj)

/-- LENGTH of a leg chain, and its check, which an entry with ENABLE 0 does not escape (R338). -/
def State.legLength (s : State) (c : Nat) : Nat := s.trackNat 5 (64 * c + 1) 1
def State.legEnabled (s : State) (c : Nat) : Bool := bit (s.trackNat 5 (64 * c) 1) 0
def State.legBad (s : State) (c : Nat) : Bool :=
  let at_ (off k : Nat) := s.trackNat 5 (64 * c + off) k
  s.hasEntry 5 64 c &&
    (decide (1 < at_ 0 1) || s.legLength c == 0 || decide (12 < s.legLength c) || !s.transformIs (at_ 2 1) 3 || at_ 3 1 != 0 ||
      decide (1023 < at_ 4 2) || !s.trackZero 5 (64 * c + 6) 10 ||
      (List.range (s.legLength c)).any (fun i =>
        decide (1023 < at_ (0x10 + 4 * i) 2) || decide (5 < at_ (0x12 + 4 * i) 1) || !s.transformIs (at_ (0x13 + 4 * i) 1) 3))

/-- A feature set entry (Table 10.8). -/
structure FeatureSet where
  flags : Nat
  graph : Nat
  stream : Nat
  transform : Nat
  keypoints : Nat
  results : Nat
  points : Nat
  disparity : Nat
  confidence : Nat
  confMin : Nat
  minSep : Nat
  newMax : Nat
  maxMisses : Nat
  dsigma : Nat
  kfKeep : Nat
  kfMax : Nat
  kfSlots : Nat
  kfObj : Nat
  zero : Nat
  deriving DecidableEq, Repr

/-- Feature set i. -/
def State.featureSet (s : State) (i : Nat) : FeatureSet :=
  let d := s.objBytes trackSwatch 1 (32 * i) 32
  { flags := field d 0 1, graph := field d 1 1, stream := field d 2 1, transform := field d 3 1, keypoints := field d 4 2,
    results := field d 6 2, points := field d 8 2, disparity := field d 10 2, confidence := field d 12 2, confMin := field d 14 1,
    minSep := field d 15 1, newMax := field d 16 2, maxMisses := field d 18 1, dsigma := field d 19 1, kfKeep := field d 20 1,
    kfMax := field d 21 1, kfSlots := field d 22 2, kfObj := field d 24 4, zero := field d 28 4 }

/-- A buffer index that names a buffer of a kind, or none where that is allowed. -/
def State.namesBuffer (s : State) (b kind : Nat) (optional : Bool) : Bool :=
  if b = noBuffer then optional else decide (b < 512) && (s.bufEntry b).kind == kind

/-- KF_OBJ and KF_SLOTS name static objects of at least 512 KiB (Table 10.8). -/
def State.keyframesBad (s : State) (f : FeatureSet) : Bool :=
  (List.range f.kfSlots).any (fun k =>
    match Store.get none s.mem.objects (f.kfObj + k) with
    | some o => decide (o.size < 524288) || (decide (0x40000000 ≤ f.kfObj + k) && decide (f.kfObj + k < 0x80000000))
    | none => true)

/-- A feature set entry fails (R338, R352); ENABLE 0 does not excuse it. -/
def State.featureBad (s : State) (i : Nat) : Bool :=
  let f := s.featureSet i
  s.hasEntry 1 32 i &&
    (decide (1 < f.flags) || decide (7 < f.graph) || decide (11 < f.stream) || !s.transformIs f.transform 1 ||
      !s.namesBuffer f.keypoints kindList true || !s.namesBuffer f.results kindList true || !s.namesBuffer f.points kindList false ||
      (s.bufEntry f.points).format != 2 || !s.namesBuffer f.disparity kindImage true || !s.namesBuffer f.confidence kindImage true ||
      decide (8192 < f.newMax) || f.kfMax == 0 || s.keyframesBad f || f.zero != 0)

/-- An object set entry (R358). -/
structure ObjectSet where
  flags : Nat
  graph : Nat
  stream : Nat
  transform : Nat
  detections : Nat
  disparity : Nat
  zero : Nat
  deriving DecidableEq, Repr

/-- Object set i. -/
def State.objectSet (s : State) (i : Nat) : ObjectSet :=
  let d := s.objBytes trackSwatch 2 (16 * i) 16
  { flags := field d 0 1, graph := field d 1 1, stream := field d 2 1, transform := field d 3 1, detections := field d 4 2,
    disparity := field d 6 2, zero := field d 8 8 }

/-- An object set entry fails (R338); ENABLE 0 does not excuse it. -/
def State.objectBad (s : State) (i : Nat) : Bool :=
  let o := s.objectSet i
  s.hasEntry 2 16 i &&
    (decide (1 < o.flags) || decide (7 < o.graph) || decide (11 < o.stream) || !s.transformIs o.transform 1 ||
      !s.namesBuffer o.detections kindList false || (s.bufEntry o.detections).format != 4 || !s.namesBuffer o.disparity kindImage true || o.zero != 0)

/-- Sets in use. -/
def State.featureOn (s : State) (i : Nat) : Bool := bit (s.featureSet i).flags 0 && !s.featureBad i
def State.objectOn (s : State) (i : Nat) : Bool := bit (s.objectSet i).flags 0 && !s.objectBad i

/-- A loaded receive filter fails (R338); filters of ETH_1 count on from 32. -/
def State.filterBad (s : State) (k : Nat) : Bool :=
  let obj := k / 32 + 1
  decide (16 * (k % 32 + 1) ≤ s.objLen 4 obj) && filterFails (s.objBytes 4 obj (16 * (k % 32)) 16)

/-- The first entry that fails R338: object (6 for a filter) and index. -/
def State.trackFailure (s : State) : Option (Nat × Nat) :=
  let first (n : Nat) (p : Nat → Bool) (obj : Nat) : List (Nat × Nat) := (((List.range n).find? p).map (fun i => (obj, i))).toList
  (first 12 s.featureBad 1 ++ first 8 s.objectBad 2 ++ first 256 s.transformBad 3 ++ first 4 s.imuBad 4 ++ first 8 s.legBad 5 ++
    first 64 s.filterBad 6).head?

/-- The checks of R338 at cast-on lock. -/
def State.checkTracking (s : State) : State :=
  let t := (List.range 4).foldl (fun t n => t.setFlag (fld_IMU_STATUS_ENABLED n) (s.imuRate n != 0 && !s.imuBad n)) s
  match s.trackFailure with
  | some (obj, i) => ((t.setFlag fld_TF_STATUS_CFG_ERR true).setFld fld_TF_CFG_STATUS_OBJECT obj).setFld fld_TF_CFG_STATUS_INDEX i
  | none => t

/-! ### Updates -/

/-- The agent of a set (R337). -/
def setAgent (object : Bool) (i : Nat) : Nat := 0x3000 + (if object then 0x100 else 0) + i

/-- Set the list of updates. -/
def State.setUpdates (s : State) (l : List TrackUpdate) : State := { s with track := { s.track with updates := l } }

/-- The oldest update of a set: the one in progress. -/
def State.trackUpdate (s : State) (object : Bool) (i : Nat) : Option TrackUpdate :=
  s.track.updates.find? (fun u => u.object == object && u.set == i)

/-- Whether two updates are one: the same set's of the same activation. -/
def TrackUpdate.same (u v : TrackUpdate) : Bool := v.object == u.object && v.set == u.set && v.activation == u.activation

/-- Change an update. -/
def State.changeUpdate (s : State) (u : TrackUpdate) (f : TrackUpdate → TrackUpdate) : State :=
  s.setUpdates (s.track.updates.map (fun v => if u.same v then f v else v))

/-- Take an update out, with its reads given back and what it claimed and did not publish abandoned; a drop releases the agent's holds
too (R192). -/
def State.closeUpdate (s : State) (u : TrackUpdate) (drop : Bool) : State :=
  let agent := setAgent u.object u.set
  let s := s.setUpdates (s.track.updates.filter (fun v => !u.same v))
  let s := u.ins.foldl (fun s i => match i with | some (_, m, _) => s.dropAgent m agent drop | none => s) s
  match u.points with
  | some (_, m, gen) =>
    if (s.marker m).gen = gen ∧ (s.marker m).state = .writing then s.orProto m agent (s.abandonOp m agent) else s
  | none => s

/-- Drop an update at its deadline (R354). -/
def State.dropUpdate (s : State) (u : TrackUpdate) : State :=
  (s.closeUpdate u true).addSat (if u.object then fld_TF_CONS_DROP_OBJECT else fld_TF_CONS_DROP_FEATURE) 1

/-- The copy of a buffer whose producing node ended DONE in an activation (R354). -/
def State.doneCopy (s : State) (g : Nat) (a : Activation) (b : Nat) : Option (Nat × Nat × Nat) :=
  if b = noBuffer then none
  else (((List.range a.nodes.length).filterMap (fun n =>
    match a.nodes[n]? with
    | some r =>
      if r.phase = .ended codeDone then
        ((List.range 4).find? (fun i => (s.nodeDesc g n).outBuf i == b)).bind (fun i => (r.outputs[i]?).join)
      else none
    | none => none)).head?)

/-- Acquire a published copy for a set's agent; a marker that does not know the agent counts under R194 and gives nothing. -/
def State.acquireFor (s : State) (agent : Nat) (c : Option (Nat × Nat × Nat)) : Option (Nat × Nat × Nat) × State :=
  match c with
  | none => (none, s)
  | some (copy, m, gen) =>
    match s.slotOf m agent with
    | none => (none, s.stitchProto m agent)
    | some i =>
      if ((s.marker m).judge gen 65535) = some .ready then (some (copy, m, gen), s.setMarker m ((s.marker m).read i))
      else (none, s)

/-- Claim a copy of POINTS: of two, the one without the latest publication (R218). -/
def State.claimPoints (s : State) (agent b : Nat) : Option (Nat × Nat × Nat) × State :=
  let e := s.bufEntry b
  let latest := (List.range e.copies).foldl (fun (best : Option (Nat × Nat)) c =>
    let k := s.marker (e.marker + c)
    if k.state = .published then (match best with | some (p, _) => if p < k.published then some (k.published, c) else best | none => some (k.published, c))
    else best) none
  let copy := match latest with | some (_, c) => if e.copies = 2 then 1 - c else 0 | none => 0
  match s.claimOp (e.marker + copy) agent with
  | some t => (some (copy, e.marker + copy, (t.marker (e.marker + copy)).gen), t)
  | none => (none, s.stitchProto (e.marker + copy) agent)

/-- SEQUENCE of a stream's frame in an activation: that of its set's frame record, else the activation's own. -/
def State.streamSequence (s : State) (a : Activation) (n : Nat) : Nat :=
  match a.sets.find? (fun x => x.1 == n) with
  | some (_, set, _) => s.frameNat (s.setBase n set + 4) 4
  | none => a.instant

/-- Count a late update (R342). -/
def State.lateUpdate (s : State) (object : Bool) : State :=
  s.addSat (if object then fld_TF_LATE_COUNT_1_OBJECT else fld_TF_LATE_COUNT_1_FEATURE) 1

/-- What a set keeps between updates. -/
def State.setState (s : State) (object : Bool) (i : Nat) : FeatureSetState :=
  Store.get FeatureSetState.reset s.track.sets ((if object then 16 else 0) + i)
def State.putSetState (s : State) (object : Bool) (i : Nat) (v : FeatureSetState) : State :=
  { s with track := { s.track with sets := Store.set FeatureSetState.reset s.track.sets ((if object then 16 else 0) + i) v } }

/-- The stream whose frame starts are a graph's deadlines (R215). -/
def State.clockStream (s : State) (g : Nat) : Nat :=
  if s.fld (fld_GRAPH_CFG_TRIG g) = 1 then s.fld (fld_PAIR_CFG_REF (s.fld (fld_GRAPH_CFG_SRC g))) else s.fld (fld_GRAPH_CFG_SRC g)

/-- The next update of a set starts, or is dropped because it is late (R342): one that starts claims its copy of POINTS. -/
def State.startUpdate (s : State) (object : Bool) (i : Nat) : State :=
  match s.trackUpdate object i with
  | none => s
  | some u =>
    let late := match (s.setState object i).lastTov with | some t => decide (u.tov ≤ t) | none => false
    if u.started then s
    else if late then (s.closeUpdate u false).lateUpdate object
    else
      let (p, s) := if object then (none, s) else s.claimPoints (setAgent object i) (s.featureSet i).points
      s.changeUpdate u (fun u => { u with started := true, points := p })

/-- The oldest update of a set that is not late runs; those behind it wait, in activation order (R354). -/
def State.startNext (s : State) (object : Bool) (i : Nat) : State :=
  s.track.updates.foldl (fun s _ => s.startUpdate object i) s

/-- Drop updates, and let what waited behind them start. -/
def State.dropUpdates (s : State) (p : TrackUpdate → Bool) : State :=
  let gone := s.track.updates.filter p
  gone.foldl (fun s u => s.startNext u.object u.set) (gone.foldl State.dropUpdate s)

/-- The deadline of a graph's activation passes: it is that of the updates of the activation before it (R354). -/
def State.dropDueUpdates (s : State) (g : Nat) : State :=
  s.dropUpdates (fun u => u.graph == g && decide (u.activation + 1 < (s.graph g).count))

/-- Begin an update of a set (R354): it acquires what it reads, and runs once the set's updates before it have ended. -/
def State.beginUpdate (s : State) (object : Bool) (i g stream : Nat) (bufs : List Nat) (a : Activation) : State :=
  let agent := setAgent object i
  let (ins, s) := bufs.foldl (fun (x : List (Option (Nat × Nat × Nat)) × State) b =>
    let (c, s) := x.2.acquireFor agent (x.2.doneCopy g a b)
    (x.1 ++ [c], s)) ([], s)
  let u : TrackUpdate :=
    { object := object, set := i, graph := g, activation := a.number, started := false,
      due := a.deadline + usStamp (s.fld (fld_STREAM_PERIOD_PERIOD_US (s.clockStream g))),
      instant := a.instant, sequence := s.streamSequence a stream, tov := a.tov,
      stale := a.stale, ins := ins, points := none, brown := s.brown, rows := [], pairs := none }
  (s.setUpdates (s.track.updates ++ [u])).startNext object i

/-- An activation has ended without being dropped: the updates it feeds begin (R354). -/
def State.beginUpdates (s : State) (g : Nat) (a : Activation) : State :=
  if s.swatchRuns trackSwatch && s.flag fld_SYS_LOCK_LOCKED then
    let s := (List.range 12).foldl (fun s i =>
      let f := s.featureSet i
      if s.featureOn i ∧ f.graph = g then
        s.beginUpdate false i g f.stream [f.keypoints, f.results, f.disparity, f.confidence] a
      else s) s
    (List.range 8).foldl (fun s i =>
      let o := s.objectSet i
      if s.objectOn i ∧ o.graph = g then s.beginUpdate true i g o.stream [o.detections, o.disparity] a else s) s
  else s

end Sys2Proof.Machine
end

