-- ==== Sys2Proof/Machine/Sequencer.lean ====
section
/-!
DEFINITION. The frame graph sequencer: activations, the issue, start and end of nodes, and KEEP (R211 to R224).
-/
namespace Sys2Proof.Machine

/-! ### Activations -/

/-- A graph in use (R210): enabled, accepted at lock, FRAME running. -/
def State.graphOn (s : State) (g : Nat) : Bool :=
  s.flag fld_SYS_LOCK_LOCKED && s.flag (fld_GRAPH_CFG_ENABLE g) && !s.flag (fld_GRAPH_STATUS_CFG_ERR g) && s.swatchRuns 8

/-- The copy of a buffer holding its latest publication. -/
def State.latestCopy (s : State) (e : BufEntry) : Option (Nat × Nat × Nat) :=
  ((List.range (s.bufCopies e)).filterMap (fun c =>
    (s.bufMarker e c).bind (fun m =>
      let k := s.marker m
      if k.state = .published then some (k.published, c, m, k.gen) else none))).foldl
    (fun (b : Option (Nat × Nat × Nat × Nat)) x =>
      match b with | some y => if y.1 < x.1 then some x else b | none => some x) none |>.map (·.2)

/-- The copy of a buffer in WRITING, the latest claimed. -/
def State.writingCopy (s : State) (e : BufEntry) : Option (Nat × Nat × Nat) :=
  ((List.range (s.bufCopies e)).filterMap (fun c =>
    (s.bufMarker e c).bind (fun m =>
      let k := s.marker m
      if k.state = .writing then some (k.claimed, c, m, k.gen) else none))).foldl
    (fun (b : Option (Nat × Nat × Nat × Nat)) x =>
      match b with | some y => if y.1 < x.1 then some x else b | none => some x) none |>.map (·.2)

/-- An input on a copy. -/
def NodeInput.on (x : Nat × Nat × Nat) : NodeInput := ⟨x.1, x.2.1, x.2.2, false, false⟩

/-- What a trigger fixes for an input: AT_TRIGGER and AFTER_TRIGGER (Table 6.6). -/
def State.fixAtTrigger (s : State) (d : NodeDesc) (i : Nat) : Option NodeInput :=
  if d.inBuf i = noBuffer then none
  else
    let e := s.bufEntry (d.inBuf i)
    match d.mode i with
    | 1 => (s.latestCopy e).map NodeInput.on
    | 2 =>
      match s.writingCopy e with
      | some x => some (NodeInput.on x)
      | none => some ⟨0, 0, 0, false, true⟩
    | _ => none

/-- What a trigger fixes for every node of a graph. -/
def State.fixedInputs (s : State) (g : Nat) : Store (Option NodeInput) :=
  (List.range (s.nodeCount g)).flatMap (fun n => (List.range 4).filterMap (fun i =>
    (s.fixAtTrigger (s.nodeDesc g n) i).map (fun v => (4 * n + i, some v))))

/-- ACTIVATION_TRIGGER (R215): a numbered activation starts, its deadline one period after the frame start of its stream or reference
stream; while Class B admits no work, or without a set, none does. -/
def State.trigger (s : State) (g instant : Nat) (start : Stamp) (tov : Int) (sets : List (Nat × Nat × Nat)) (stale : Bool) : State :=
  if s.graphOn g = false then s
  else if s.admitsWork = false then s.addSat (fld_GRAPH_LOSS_NOT_RUN g) 1
  else
    let number := (s.graph g).count
    let a : Activation :=
      { number := number, trigger := s.stamp, instant := instant, tov := tov, sets := sets, stale := stale,
        deadline := start + usStamp (s.fld (fld_STREAM_PERIOD_PERIOD_US (s.clockStream g))),
        fixed := s.fixedInputs g, nodes := List.replicate (s.nodeCount g) NodeRun.reset }
    let s := s.setGraph g { s.graph g with act := some a, count := number + 1 }
    let s := s.addWrap (fld_GRAPH_ACT_ACTIVATIONS g) 1
    if stale then s.setFlag (fld_GRAPH_STATUS_STALE g) true else s

/-! ### The end of nodes -/

/-- Give back what a node reads and cancel what it waits for; one that is dropped loses its holds too (R192), but for KEEP, whose
earlier hold stays (R223). -/
def State.releaseInputs (s : State) (g n : Nat) (r : NodeRun) (holds : Bool) : State :=
  r.inputs.foldl (fun s i =>
    match i with
    | some v => if v.awaits then s else s.dropAgent v.marker (nodeAgent g n) holds
    | none => s) s

/-- Abandon the outputs that a node claimed and did not publish (R216, R221). -/
def State.abandonOutputs (s : State) (g n : Nat) (r : NodeRun) : State :=
  r.outputs.foldl (fun s o =>
    match o with
    | some (_, m, gen) =>
      if (s.marker m).gen = gen ∧ (s.marker m).state = .writing then s.orProto m (nodeAgent g n) (s.abandonOp m (nodeAgent g n))
      else s
    | none => s) s

/-- What an SGM engine shows of the node that ends on it (R252, R254): its code; where it is DONE, one more node and the shares of its
outputs' codes. The aggregation store is left empty. -/
def State.endSgm (s : State) (e code : Nat) : State :=
  let s := s.setFld (fld_SGM_STATUS_LAST_CODE e) code
  let shown := (Store.get SgmStore.reset s.vis.sgm e).shares
  let s := { s with vis := { s.vis with sgm := Store.set SgmStore.reset s.vis.sgm e SgmStore.reset } }
  if code = codeDone then
    let s := s.addWrap (fld_SGM_JOBS_JOBS e) 1
    let s := (s.setFld (fld_SGM_LAST_A_LOW_TEX e) (shown.getD 0 0)).setFld (fld_SGM_LAST_A_OCCL e) (shown.getD 1 0)
    (s.setFld (fld_SGM_LAST_B_RANGE e) (shown.getD 2 0)).setFld (fld_SGM_LAST_B_SAT e) (shown.getD 3 0)
  else s

/-- Close a node with a code. -/
def State.closeNode (s : State) (g n code : Nat) : State :=
  match s.node? g n with
  | none => s
  | some r =>
    let s := s.releaseInputs g n r (code == codeDropped && (s.nodeDesc g n).type != nodeKeep)
    let s := if 4 ≤ code then s.abandonOutputs g n r else s
    let s := match r.engine with
      | some e => if 8 ≤ e then s.endSgm (e - 8) code else s
      | none => s
    s.updNode g n (fun r => { r with phase := .ended code })

/-- A node has ended. -/
def NodeRun.isEnded (r : NodeRun) : Bool := match r.phase with | .ended _ => true | _ => false

/-- An activation whose nodes have all ended is complete (R234); the updates it feeds begin (R354). -/
def State.completeActivation (s : State) (g : Nat) : State :=
  match (s.graph g).act with
  | some a =>
    if a.nodes.all NodeRun.isEnded then
      let s := s.raiseMax (fld_GRAPH_WORST_WORST_US g) ((s.stamp - a.trigger) / usStamp 1)
      (s.setGraph g { s.graph g with act := none }).beginUpdates g a
    else s
  | none => s

/-- The codes that skip a node, and those that fail it (Table 6.9). -/
def isSkip (code : Nat) : Bool := decide (1 ≤ code) && decide (code ≤ 3)
def isFail (code : Nat) : Bool := decide (4 ≤ code) && code != codeDropped

/-- Count and report a node's code (R221, R234). -/
def State.countNode (s : State) (g n code : Nat) : State :=
  if isSkip code then s.addSat (fld_GRAPH_NODES_SKIPPED g) 1
  else if isFail code then
    let s := (s.setFlag (fld_GRAPH_STATUS_NODE_FAIL g) true).addSat (fld_GRAPH_NODES_FAILED g) 1
    let s := (s.setFld (fld_GRAPH_LAST_NODE g) n).setFld (fld_GRAPH_LAST_CODE g) code
    s.raiseFault faultGraphNode 8 (BitVec.ofNat 32 (n + g * 2 ^ 8 + code * 2 ^ 12))
  else s

/-- A node ends with a code (R221). -/
def State.endNode (s : State) (g n code : Nat) : State :=
  ((s.closeNode g n code).countNode g n code).completeActivation g

/-- Drop an activation that has not ended (R216): its nodes take DROPPED, its outputs are abandoned, its requests leave the
neural fabric. -/
def State.dropActivation (s : State) (g : Nat) : State :=
  match (s.graph g).act with
  | none => s
  | some a =>
    let s := s.dropRequests g
    let s := (List.range a.nodes.length).foldl (fun s n =>
      match s.node? g n with
      | some r => if r.isEnded then s else s.closeNode g n codeDropped
      | none => s) s
    let s := (s.setFlag (fld_GRAPH_STATUS_DROP g) true).addSat (fld_GRAPH_LOSS_DROPPED g) 1
    s.setGraph g { s.graph g with act := none }

/-- The deadline of a graph's activation: what has not ended of it is dropped (R216), and what has not ended of the updates that the
activation before it began (R354). -/
def State.passDeadline (s : State) (g : Nat) : State := (s.dropActivation g).dropDueUpdates g

/-- ACTIVATION_DEADLINE (R216, R354). -/
def execActivationDeadline (graph : Fin 8) (s : State) : Host.Outcome State Fault Refusal :=
  if s.swatchRuns 8 then .next (s.passDeadline graph) else .next s

/-- NODE_END (R221): a node that has failed ends with its code, one whose outputs are published ends DONE. A queued or running
neural request leaves the fabric with its node. -/
def execNodeEnd (graph : Fin 8) (node : Fin 64) (s : State) : Host.Outcome State Fault Refusal :=
  match s.node? graph node with
  | none => .next s
  | some r =>
    if r.isEnded = true ∨ s.swatchRuns 8 = false then .next s
    else match r.verdict with
      | some c =>
        let (_, s) := s.removeRequest graph node
        .next (s.endNode graph node c).dispatch
      | none => if r.done then .next (s.endNode graph node codeDone) else .next s

/-! ### Issue -/

/-- The earlier node of a graph that produces a buffer. -/
def State.producerNode (s : State) (g n b : Nat) : Option Nat :=
  (List.range n).find? (fun k => (s.nodeDesc g k).outs.contains b)

/-- The copy, marker and generation that a node claimed of a buffer. -/
def State.claimedOf (s : State) (g k b : Nat) : Option (Nat × Nat × Nat) :=
  match s.node? g k with
  | some r => ((List.range 4).find? (fun i => (s.nodeDesc g k).outBuf i == b)).bind (fun i => (r.outputs[i]?).join)
  | none => none

/-- Whether an input has nothing to read (R219). -/
def State.absentInput (s : State) (g n : Nat) (a : Activation) (d : NodeDesc) (i : Nat) : Bool :=
  let b := d.inBuf i
  if b = noBuffer then false
  else
    let e := s.bufEntry b
    match d.mode i with
    | 0 => (e.kind == kindFrameSet || e.kind == kindPlaneView) && !a.sets.any (fun x => x.1 == e.stream)
    | 1 => (Store.get none a.fixed (4 * n + i)).isNone && e.kind != kindConst
    | 3 => (Store.get none (s.graph g).kept b).isNone
    | _ => false

/-- Whether the producer of a CURRENT input was skipped or failed (R219). -/
def State.upstreamLost (s : State) (g n : Nat) (d : NodeDesc) (i : Nat) : Bool :=
  d.inBuf i != noBuffer && d.mode i == 0 &&
    (match s.producerNode g n (d.inBuf i) with
    | some k =>
      match s.node? g k with
      | some r => match r.phase with | .ended c => c != codeDone | _ => false
      | none => false
    | none => false)

/-- NODE_SKIP: the code with which a node is skipped, if it is (R219). -/
def State.skipCode (s : State) (g n : Nat) (a : Activation) (d : NodeDesc) : Option Nat :=
  if (d.skipIfStale || d.type == nodeSgm) && a.stale then some codeSkippedStale
  else if (List.range 4).any (s.absentInput g n a d) then some codeSkippedAbsent
  else if (List.range 4).any (s.upstreamLost g n d) then some codeSkippedUpstream
  else none

/-- Every producer of a CURRENT input has claimed its copy (R217). -/
def State.producersClaimed (s : State) (g n : Nat) (d : NodeDesc) : Bool :=
  (List.range 4).all (fun i =>
    d.inBuf i == noBuffer || d.mode i != 0 ||
      (match s.producerNode g n (d.inBuf i) with
      | some k => (s.claimedOf g k (d.inBuf i)).isSome
      | none => true))

/-- The generation that an input reads (R213, Table 6.6). -/
def State.fixInput (s : State) (g n : Nat) (a : Activation) (d : NodeDesc) (i : Nat) : Option NodeInput :=
  let b := d.inBuf i
  if b = noBuffer then none
  else
    let e := s.bufEntry b
    if e.kind = kindConst then none
    else match d.mode i with
      | 0 =>
        match (s.producerNode g n b).bind (fun k => s.claimedOf g k b) with
        | some x => some (NodeInput.on x)
        | none =>
          match a.sets.find? (fun x => x.1 == e.stream) with
          | some x =>
            match s.bufMarker e x.2.1 with
            | some m => some ⟨x.2.1, m, if e.kind = kindFrameSet then x.2.2 else (s.marker m).gen, false, false⟩
            | none => none
          | none => none
      | 3 => (Store.get none (s.graph g).kept b).map NodeInput.on
      | _ => Store.get none a.fixed (4 * n + i)

/-- Ask for an input that does not stream: all of it (R217). -/
def State.askInput (s : State) (g n i : Nat) : State :=
  match s.node? g n with
  | some r =>
    match (r.inputs[i]?).join with
    | some v =>
      if v.awaits then s else s.orProto v.marker (nodeAgent g n) (s.acquireOp v.marker (nodeAgent g n) v.gen 65535)
    | none => s
  | none => s

/-- Whether an input is acquired at issue: the neural fabric, SGM while it streams and KEEP acquire theirs themselves. -/
def NodeDesc.asksAtIssue (d : NodeDesc) (i : Nat) : Bool :=
  !d.streams i && d.type != nodeNeural && d.type != nodeKeep && !(d.type == nodeSgm && d.streaming)

/-- Whether a KEEP node runs in an activation (R223). -/
def keepDue (d : NodeDesc) (number : Nat) : Bool := number % Nat.max 1 (d.param 0 1) == 0

/-- Issue node n: its inputs are fixed and it enters its queue; a KEEP node that is not due ends at once. -/
def State.issueNode (s : State) (g n : Nat) (a : Activation) (d : NodeDesc) : State :=
  if d.type = nodeKeep ∧ keepDue d a.number = false then (s.closeNode g n codeDone).completeActivation g
  else
    let ins := (List.range 4).map (s.fixInput g n a d)
    let s := s.updNode g n (fun r => { r with phase := .queued, inputs := ins, outputs := List.replicate 4 none })
    (List.range 4).foldl (fun s i => if d.asksAtIssue i then s.askInput g n i else s) s

/-- The first node of an activation not yet issued. -/
def Activation.nextNode (a : Activation) : Option Nat := a.nodes.findIdx? (fun r => r.phase == .unissued)

/-- NODE_ISSUE (R217, R219). -/
def execNodeIssue (graph : Fin 8) (s : State) : Host.Outcome State Fault Refusal :=
  match (s.graph graph).act with
  | none => .next s
  | some a =>
    match a.nextNode with
    | none => .next s
    | some n =>
      let d := s.nodeDesc graph n
      if s.swatchRuns 8 = false then .next s
      else match s.skipCode graph n a d with
        | some c => .next (s.endNode graph n c)
        | none => if s.producersClaimed graph n d then .next (s.issueNode graph n a d) else .next s

/-! ### Start -/

/-- The node type an engine runs, its number within the type, and its swatch (Table 6.7, R235). -/
def engineType (e : Nat) : Nat := e / 2 + 1
def engineSwatch (e : Nat) : Nat := if 8 ≤ e then 11 else 9 + e % 2

/-- Nodes of every activation, with deadline, graph and node. -/
def State.allNodes (s : State) : List (Stamp × Nat × Nat × NodeRun) :=
  (List.range 8).flatMap (fun g =>
    match (s.graph g).act with
    | some a => a.nodes.zipIdx.map (fun x => (a.deadline, g, x.2, x.1))
    | none => [])

/-- The order of an engine's queue (R220). -/
def queueBefore (x y : Stamp × Nat × Nat × NodeRun) : Bool :=
  decide (x.1 < y.1) || (x.1 == y.1 && (decide (x.2.1 < y.2.1) || (x.2.1 == y.2.1 && decide (x.2.2.1 < y.2.2.1))))

/-- Nodes running on an engine. -/
def State.runningOn (s : State) (e : Nat) : List (Stamp × Nat × Nat × NodeRun) :=
  s.allNodes.filter (fun x => x.2.2.2.phase == .running && x.2.2.2.engine == some e)

/-- An engine can take a node: four streaming nodes at once, one of any other kind (R220, R250). -/
def State.engineHasRoom (s : State) (e : Nat) (streaming : Bool) : Bool :=
  let l := s.runningOn e
  if e ≥ 8 then l.isEmpty
  else if streaming then decide ((l.filter (fun x => (s.nodeDesc x.2.1 x.2.2.1).streaming)).length < 4)
  else !l.any (fun x => !(s.nodeDesc x.2.1 x.2.2.1).streaming)

/-- An engine of a swatch that runs, with no node on it. -/
def State.engineFree (s : State) (e : Nat) : Bool := s.swatchRuns (engineSwatch e) && (s.runningOn e).isEmpty

/-- The engine that a node of either engine joins (R220): the one of its type that is first free, engine 0 where both are. -/
def State.joins (s : State) (e : Nat) : Bool := s.engineFree e && (e % 2 == 0 || !s.engineFree (e - 1))

/-- Whether a queued node may start on an engine: its type, its ENGINE, its acquired inputs, and room. -/
def State.mayStart (s : State) (e : Nat) (x : Stamp × Nat × Nat × NodeRun) : Bool :=
  let d := s.nodeDesc x.2.1 x.2.2.1
  let r := x.2.2.2
  r.phase == .queued && r.verdict.isNone && d.type == engineType e &&
    (d.engine == e % 2 || (d.engine == 0xFF && s.joins e)) &&
    (List.range 4).all (fun i =>
      match (r.inputs[i]?).join with
      | some v => !v.awaits && (v.ready || !d.asksAtIssue i)
      | none => true) && s.engineHasRoom e d.streaming

/-- The first node of an engine's queue that may start. -/
def State.nextStart (s : State) (e : Nat) : Option (Nat × Nat) :=
  ((sortBy queueBefore (s.allNodes.filter (s.mayStart e))).head?).map (fun x => (x.2.1, x.2.2.1))

/-- The copy of a buffer that a node claims: this activation's set of a view, else the copy that does not hold the latest
publication (R218). -/
def State.claimCopy (s : State) (g b : Nat) : Nat :=
  let e := s.bufEntry b
  if e.kind = kindPlaneView then
    match (s.graph g).act with
    | some a => match a.sets.find? (fun x => x.1 == e.stream) with | some x => x.2.1 | none => 0
    | none => 0
  else match s.latestCopy e with
    | some (c, _, _) => if e.copies = 2 then 1 - c else 0
    | none => 0

/-- Claim output i of a node; a refusal fails it (R218). -/
def State.claimOutput (s : State) (g n i : Nat) : State :=
  let b := (s.nodeDesc g n).outBuf i
  if b = noBuffer then s
  else
    let c := s.claimCopy g b
    match s.bufMarker (s.bufEntry b) c with
    | none => s
    | some m =>
      match s.claimOp m (nodeAgent g n) with
      | some t => t.updNode g n (fun r => { r with outputs := setAt r.outputs i (some (c, m, (t.marker m).gen)) })
      | none => (s.stitchProto m (nodeAgent g n)).updNode g n (fun r => r.fail codeClaimRefused)

/-- Claim every output, until one is refused. -/
def State.claimOutputs (s : State) (g n : Nat) : State :=
  (List.range 4).foldl (fun s i =>
    match s.node? g n with
    | some r => if r.verdict.isSome then s else s.claimOutput g n i
    | none => s) s

/-- Ask for the next lines of a streaming input (R218). -/
def State.askLines (s : State) (g n i lines : Nat) : State :=
  match s.node? g n with
  | some r =>
    match (r.inputs[i]?).join with
    | some v =>
      let s := s.updNode g n (fun r => { r with inputs := setAt r.inputs i (some { v with ready := false }) })
      s.orProto v.marker (nodeAgent g n) (s.acquireOp v.marker (nodeAgent g n) v.gen lines)
    | none => s
  | none => s

/-! ### Buffer records -/

/-- Time of validity in ns and flags of an input's record: the frame record of a set or view, else the buffer record. -/
def State.inputRecord (s : State) (e : BufEntry) (copy : Nat) : Nat × Nat :=
  if e.kind = kindFrameSet ∨ e.kind = kindPlaneView then
    let a := s.setBase e.stream copy
    let f := s.frameNat (a + 2) 2
    (s.frameNat (a + 0x20) 8 * 1000000000 + s.frameNat (a + 0x28) 4,
      (if bit f 0 then 2 else 0) + (if bit f 1 then 4 else 0) + (if bit f 3 then 16 else 0))
  else
    let a := e.copyBase copy
    (s.frameNat (a + 0x10) 8 * 1000000000 + s.frameNat (a + 0x18) 4, s.frameNat (a + 2) 2)

/-- The records of a node's inputs. -/
def State.inputRecords (s : State) (g n : Nat) : List (Nat × Nat) :=
  match s.node? g n with
  | some r => (List.range 4).filterMap (fun i =>
      ((r.inputs[i]?).join).map (fun v => s.inputRecord (s.bufEntry ((s.nodeDesc g n).inBuf i)) v.copy))
  | none => []

/-- Times of validity as nanoseconds. -/
def tovNs (t : Int) : Nat := t.toNat / 2 ^ 16

/-- The buffer record of Table 6.4 for an output. -/
def State.bufferRecord (s : State) (g n count : Nat) : List Byte :=
  match (s.graph g).act, s.node? g n with
  | some a, some r =>
    let ins := s.inputRecords g n
    let flags := ins.foldl (fun f x => Nat.lor f x.2) 0
    let flags := if a.stale then Nat.lor flags 1 else flags
    let flags := if r.brown then Nat.lor flags 2 else flags
    let flags := if r.trunc then Nat.lor flags 8 else flags
    let tov := tovNs a.tov
    let first := match ins with | [] => tov | x :: l => l.foldl (fun m y => min m y.1) x.1
    let now := s.stamp / 2 ^ 16
    toLe 1 g ++ toLe 1 n ++ toLe 2 (flags % 32) ++ toLe 4 a.number ++ toLe 4 a.instant ++ toLe 4 count ++
      toLe 8 (tov / 1000000000) ++ toLe 4 (tov % 1000000000) ++ toLe 4 (min 0xFFFFFFFF (now - first)) ++ toLe 32 0
  | _, _ => []

/-- Write output i's buffer record and publish it (R211). -/
def State.publishOutput (s : State) (g n i count : Nat) : State :=
  match s.node? g n with
  | some r =>
    match (r.outputs[i]?).join with
    | some (c, m, _) =>
      let e := s.bufEntry ((s.nodeDesc g n).outBuf i)
      let s := if e.kind = kindPlaneView then s else s.setFrameBytes (e.copyBase c) (s.bufferRecord g n count)
      s.orProto m (nodeAgent g n) (s.publishOp m (nodeAgent g n))
    | none => s
  | none => s

/-- The bytes of the frame store that an input names: a frame set, or a copy of a buffer. -/
def State.inputRange (s : State) (e : BufEntry) (copy : Nat) : Nat × Nat :=
  if e.kind = kindFrameSet ∨ e.kind = kindPlaneView then (s.setBase e.stream copy, s.setBlocks e.stream * blockBytes)
  else (e.copyBase copy, e.blocks * blockBytes)

/-- A node reads its inputs: marked words of them are counted and reported once for the node (R326, log entry 65). -/
def State.checkInputs (s : State) (g n reader : Nat) : State :=
  if s.sramBad.isEmpty then s
  else
    match s.node? g n with
    | none => s
    | some r => (List.range 4).foldl (fun s i =>
        match (r.inputs[i]?).join with
        | some v =>
          let x := s.inputRange (s.bufEntry ((s.nodeDesc g n).inBuf i)) v.copy
          s.readSram reader frameSwatch frameStore x.1 x.2
        | none => s) s

/-! ### KEEP -/

/-- KEEP_RUN (R223): ACQUIRE, HOLD and RELEASE on the current copy, then UNHOLD of what the graph held before. -/
def State.runKeep (s : State) (g n : Nat) (b : Nat) (v : NodeInput) : State :=
  let agent := nodeAgent g n
  let s := s.orProto v.marker agent (s.acquireOp v.marker agent v.gen 65535)
  match s.node? g n with
  | some r =>
    match r.verdict with
    | some c => s.endNode g n c
    | none =>
      match s.holdOp v.marker agent with
      | none =>
        let s := s.stitchProto v.marker agent
        (s.orProto v.marker agent (s.releaseOp v.marker agent)).endNode g n codeDone
      | some s =>
        let s := s.orProto v.marker agent (s.releaseOp v.marker agent)
        let s := match Store.get none (s.graph g).kept b with
          | some (_, m, _) => s.orProto m agent (s.unholdOp m agent)
          | none => s
        let s := s.setGraph g { s.graph g with kept := Store.set none (s.graph g).kept b (some (v.copy, v.marker, v.gen)) }
        s.endNode g n codeDone
  | none => s

/-- KEEP_RUN (R223): once its input is published, or gone. -/
def execKeepRun (graph : Fin 8) (node : Fin 64) (s : State) : Host.Outcome State Fault Refusal :=
  let d := s.nodeDesc graph node
  match s.node? graph node with
  | none => .next s
  | some r =>
    match (r.inputs[0]?).join with
    | none => .next s
    | some v =>
      if d.type = nodeKeep ∧ r.phase = .queued ∧ v.awaits = false ∧ s.swatchRuns 8 = true ∧
          (Marker.judge (s.marker v.marker) v.gen 65536).isSome = true then .next (s.runKeep graph node (d.inBuf 0) v)
      else .next s

end Sys2Proof.Machine
end

