-- ==== Sys2Proof/Machine/Camera.lean ====
section
/-!
DEFINITION. Camera ingest (R181 to R206): frames, lines, bad frames, buffer rotation, pairing and instants.
-/
namespace Sys2Proof.Machine

/-! ### Streams and groups -/

/-- The stage of one stream. -/
def State.stream (s : State) (n : Nat) : Stream := Store.get Stream.reset s.vis.streams n

/-- Set one stream. -/
def State.setStream (s : State) (n : Nat) (v : Stream) : State :=
  { s with vis := { s.vis with streams := Store.set Stream.reset s.vis.streams n v } }

/-- One pair group. -/
def State.group (s : State) (g : Nat) : PairGroup := Store.get PairGroup.reset s.vis.groups g

/-- Set one pair group. -/
def State.setGroup (s : State) (g : Nat) (v : PairGroup) : State :=
  { s with vis := { s.vis with groups := Store.set PairGroup.reset s.vis.groups g v } }

/-- A receive port works: enabled, CSI_IN running, no port reset (R201, R203). -/
def State.portReceives (s : State) (p : Nat) : Bool :=
  s.swatchRuns 7 && s.flag fld_SYS_LOCK_LOCKED && s.flag (fld_CSI_RX_CFG_ENABLE p) && !s.flag (fld_CSI_RX_STATUS_IN_RESET p)

/-- The stream on a port and virtual channel (R184). -/
def State.streamAt (s : State) (port vc : Nat) : Option Nat :=
  (List.range 12).find? (fun n =>
    s.streamOn n && s.fld (fld_STREAM_CFG_PORT n) == port && s.fld (fld_STREAM_CFG_VC n) == vc)

/-- The port and virtual channel carry the inbound command channel (R182, R490). -/
def State.isCommandChannel (s : State) (port vc : Nat) : Bool :=
  s.flag fld_HL_CFG_CMD_ENABLE && s.fld fld_HL_CFG_CMD_PORT == port && s.fld fld_HL_CFG_CMD_VC == vc

/-- The command channel claims the packets of a port and virtual channel: it is active (R183, R549). -/
def State.commandClaims (s : State) (port vc : Nat) : Bool := s.isCommandChannel port vc && s.links.cmdActive

/-- A pair group in use: its REF bit stands in MEMBERS (Table 5.10). -/
def State.groupOn (s : State) (g : Nat) : Bool :=
  decide (g < 6) && s.flag fld_SYS_LOCK_LOCKED && s.flag (fld_PAIR_CFG_ENABLE g) &&
    bit (s.fld (fld_PAIR_CFG_MEMBERS g)) (s.fld (fld_PAIR_CFG_REF g)) && s.swatchRuns 8

/-- The group that a stream belongs to: the one its GROUP names, where that group's MEMBERS holds it. -/
def State.groupOfStream (s : State) (n : Nat) : Option Nat :=
  let g := s.fld (fld_STREAM_CFG_GROUP n)
  if s.groupOn g && bit (s.fld (fld_PAIR_CFG_MEMBERS g)) n then some g else none

/-- The members of a group. -/
def State.members (s : State) (g : Nat) : List Nat := (List.range 12).filter (fun n => bit (s.fld (fld_PAIR_CFG_MEMBERS g)) n)

/-! ### Bad frames -/

/-- The member's STALE bit is set in the instants that hold a set's generation, and every activation that runs on it goes
stale (R198). -/
def State.staleSet (s : State) (n set : Nat) : State :=
  let gen := (s.marker (s.frameMarker n set)).gen
  let has (l : List (Nat × Nat × Nat)) : Bool := l.contains (n, set, gen)
  match s.groupOfStream n with
  | none => s
  | some g =>
    let v := s.group g
    let mark (i : PairInstant) : PairInstant := if has i.parts ∧ i.stale.contains n = false then { i with stale := i.stale ++ [n] } else i
    let s := if v.instants.any (fun i => has i.parts) then
        (s.setGroup g { v with instants := v.instants.map mark }).setFlag (fld_PAIR_STATUS_STALE g) true else s
    (List.range 8).foldl (fun s k =>
      match (s.graph k).act with
      | some a =>
        if has a.sets ∧ s.fld (fld_GRAPH_CFG_TRIG k) = 1 then
          (s.updAct k (fun a => { a with stale := true })).setFlag (fld_GRAPH_STATUS_STALE k) true
        else s
      | none => s) s

/-- The frame in progress of a stream is bad: its marker is abandoned at once (R199). -/
def State.badFrame (s : State) (n : Nat) : State :=
  match (s.stream n).frame with
  | none => s
  | some f =>
    let m := s.frameMarker n f.set
    let waiting := (s.stream n).waiting.map (fun w => if w.number = f.sequence then { w with bad := true } else w)
    let s := s.setStream n { s.stream n with frame := none, waiting := waiting }
    let s := s.staleSet n f.set
    let s := s.orProto m (ingestAgent n) (s.abandonOp m (ingestAgent n))
    (s.addSat (fld_STREAM_LOSS_BAD n) 1).setFlag (fld_STREAM_STATUS_BAD n) true

/-- Every frame in progress on a port is bad. -/
def State.badPort (s : State) (port : Nat) : State :=
  (List.range 12).foldl (fun s n => if s.streamOn n && s.fld (fld_STREAM_CFG_PORT n) == port then s.badFrame n else s) s

/-- What a packet's header finds (R199): whether the packet is used. -/
def State.takeHeader (s : State) (port : Nat) (h : HeaderVerdict) : Bool × State :=
  match h with
  | .clean => (true, s)
  | .corrected => (true, s.addSat (fld_CSI_RX_ERR_ECC_CORR port) 1)
  | .uncorrectable => (false, s.badPort port)

/-! ### Frame records -/

/-- A time of validity as seconds and nanoseconds; one before the epoch has none, and its bytes are free. -/
def State.tovBytes (s : State) (t : Int) : List Byte × State :=
  if t < 0 then s.takeBytes 12
  else (toLe 8 (stampSec t.toNat) ++ toLe 4 (stampNs t.toNat), s)

/-- The sensor time offset of a transform table entry, in stamp units (R186, R339). -/
def State.timeOffset (s : State) (entry : Nat) : Int := signed 32 (s.objNat 12 3 (64 * entry + 0x1C) 4) * 65536

/-- The frame record at a frame's start (Table 5.2). -/
def State.openRecord (s : State) (n : Nat) (f : RxFrame) (number flags : Nat) : State :=
  let (tov, s) := s.tovBytes f.tov
  s.setFrameBytes (s.setBase n f.set)
    (toLe 2 n ++ toLe 2 flags ++ toLe 4 f.sequence ++ toLe 2 number ++ toLe 2 0 ++ toLe 4 0 ++ toLe 8 (stampSec f.start) ++
      toLe 4 (stampNs f.start) ++ toLe 4 0 ++ tov ++ toLe 4 0 ++ toLe 16 0)

/-- Write the record's fields known as the frame ends: EMB_LEN, LINES, READOUT_NS. -/
def State.closeRecord (s : State) (n : Nat) (f : RxFrame) (stamp : Stamp) : State :=
  let a := s.setBase n f.set
  let s := (s.setFrameNat (a + 0x0A) 2 f.embedded).setFrameNat (a + 0x0C) 4 f.lines
  s.setFrameNat (a + 0x1C) 4 (stamp / 65536 - f.start / 65536)

/-! ### Pairing -/

/-- A slip (R197). -/
def State.noteSlip (s : State) (n : Nat) : State :=
  let s := (s.addSat (fld_STREAM_SLIP_SLIPS n) 1).setFlag (fld_STREAM_STATUS_SLIPPED n) true
  (s.setStream n { s.stream n with slip := true }).raiseFault faultStreamSlip 7 (BitVec.ofNat 32 n)

/-- Write a stored frame's pairing offset, in ns (R196). -/
def State.writeOffset (s : State) (n : Nat) (f : MemberFrame) (offset : Int) : State :=
  match f.set with
  | some set => s.setFrameNat (s.setBase n set + 0x2C) 4 (offset / 65536 % 2 ^ 32).toNat
  | none => s

/-- A frame joins the instant of reference frame j: stale beyond the tolerance, which is counted, or where it has been abandoned.
Once the instant is issued the frame is not added (R196, R198). -/
def State.joinInstant (s : State) (g n j : Nat) (f : MemberFrame) (stale : Bool) : State :=
  let v := s.group g
  if v.instants.any (fun i => i.number == j && !i.issued) = false then s
  else
    let s := if stale then s.addSat (fld_STREAM_SLIP_STALE n) 1 else s
    let add (i : PairInstant) : PairInstant :=
      if i.number = j ∧ i.issued = false then
        let parts := match f.set with
          | some set => i.parts ++ [(n, set, (s.marker (s.frameMarker n set)).gen)]
          | none => i.parts
        { i with parts := parts, stale := if stale || f.bad then i.stale ++ [n] else i.stale }
      else i
    let s := s.setGroup g { v with instants := v.instants.map add }
    if stale || f.bad then s.setFlag (fld_PAIR_STATUS_STALE g) true else s

/-- The time of validity of a reference frame, where it has started. -/
def PairGroup.refTov (v : PairGroup) (j : Nat) : Option Int := (v.refs.find? (fun r => r.1 == j)).map (·.2)

/-- T of R196 in stamp units. -/
def State.groupPeriod (s : State) (g : Nat) : Int := usStamp (s.fld (fld_STREAM_PERIOD_PERIOD_US (s.fld (fld_PAIR_CFG_REF g))))

/-- The sequence lead at a member's first frame (R196): its partner is the reference frame nearest in time of validity, of those that
have started and the one expected next; the earliest of equals. -/
def State.firstLead (s : State) (g : Nat) (f : MemberFrame) : Int :=
  let refs := (s.group g).refs
  match refs.getLast? with
  | none => (f.number : Int) - (s.fld (fld_STREAM_FRAMES_FRAMES (s.fld (fld_PAIR_CFG_REF g))) + 1 : Nat)
  | some (j, t) =>
    let near := refs.foldl (fun (b : Nat × Int) x => if (f.tov - x.2).natAbs < (f.tov - b.2).natAbs then x else b) (refs.headD (j, t))
    let next := (f.tov - (t + s.groupPeriod g)).natAbs
    (f.number : Int) - (if (f.tov - near.2).natAbs ≤ next then near.1 else j + 1 : Nat)

/-- Judge a member's frame against its partner, or let it wait for the partner to start (R196); its offset is written to its record.
A frame too early is dropped from the pairing and stays in the store (log entry 63); after a slip forward it is judged afresh against
the next reference frame, and `fuel` bounds the slips of one frame. -/
def State.judgeFrame (s : State) (g n : Nat) (f : MemberFrame) : Nat → State
  | 0 => s
  | fuel + 1 =>
    let st := s.stream n
    let lead := match st.lead with | some l => l | none => s.firstLead g f
    let s := s.setStream n { st with lead := some lead }
    let j := ((f.number : Int) - lead).toNat
    match (s.group g).refTov j with
    | none => s.setStream n { s.stream n with waiting := (s.stream n).waiting ++ [f] }
    | some t =>
      let offset := f.tov - t
      let period := s.groupPeriod g
      let s := s.writeOffset n f offset
      if offset.natAbs ≤ nsStamp (s.fld (fld_PAIR_TOL_TOL_NS g)) then s.joinInstant g n j f false
      else if (offset.natAbs : Int) ≤ period then s.joinInstant g n j f true
      else if offset < 0 then (s.setStream n { s.stream n with lead := some (lead + 1) }).noteSlip n
      else State.judgeFrame ((s.setStream n { s.stream n with lead := some (lead - 1) }).noteSlip n) g n f fuel

/-- Judge the frames of a group that waited for a reference frame. -/
def State.judgeWaiting (s : State) (g : Nat) : State :=
  (s.members g).foldl (fun s n =>
    if n = s.fld (fld_PAIR_CFG_REF g) then s
    else
      let w := (s.stream n).waiting
      w.foldl (fun s f => s.judgeFrame g n f 64) (s.setStream n { s.stream n with waiting := [] })) s

/-- Instants and reference frames that a group keeps. -/
def keepLast {α : Type} (n : Nat) (l : List α) : List α := l.drop (l.length - n)

/-- A reference frame opens its instant (R196). -/
def State.openInstant (s : State) (g n : Nat) (f : MemberFrame) : State :=
  let v := s.group g
  let parts := match f.set with
    | some set => [(n, set, (s.marker (s.frameMarker n set)).gen)]
    | none => []
  let i : PairInstant := ⟨f.number, f.tov, f.start, parts, [], false⟩
  let s := s.setGroup g { instants := keepLast 16 (v.instants ++ [i]), refs := keepLast 64 (v.refs ++ [(f.number, f.tov)]) }
  s.judgeWaiting g

/-- A frame of a group member has started. -/
def State.pairFrame (s : State) (n : Nat) (f : MemberFrame) : State :=
  match s.groupOfStream n with
  | none => s
  | some g => if n = s.fld (fld_PAIR_CFG_REF g) then s.openInstant g n f else s.judgeFrame g n f 64

/-- Whether a member's partner frame of an instant has started. -/
def State.partnerStarted (s : State) (g : Nat) (i : PairInstant) (n : Nat) : Bool :=
  n == s.fld (fld_PAIR_CFG_REF g) || i.parts.any (fun p => p.1 == n) ||
    (match (s.stream n).lead with
    | some l => decide (i.number + l ≤ (s.fld (fld_STREAM_FRAMES_FRAMES n) : Int))
    | none => false)

/-- Issue an instant (R198): members without a frame are stale, and the group's graphs are triggered. -/
def State.issueInstant (s : State) (g : Nat) (i : PairInstant) : State :=
  let lost := (s.members g).filter (fun n => !i.parts.any (fun p => p.1 == n) && !i.stale.contains n)
  let s := lost.foldl (fun s n => s.addSat (fld_STREAM_SLIP_STALE n) 1) s
  let stale := i.stale ++ lost
  let v := s.group g
  let s := s.setGroup g { v with instants := v.instants.map (fun k => if k.number = i.number then { k with stale := stale, issued := true } else k) }
  let s := if stale.isEmpty then s else s.setFlag (fld_PAIR_STATUS_STALE g) true
  (List.range 8).foldl (fun s k =>
    if s.fld (fld_GRAPH_CFG_TRIG k) = 1 ∧ s.fld (fld_GRAPH_CFG_SRC k) = g then s.trigger k i.number i.opened i.tov i.parts (!stale.isEmpty)
    else s) s

/-- INSTANT_ISSUE (R198): the oldest open instant is issued once every partner has started, or at WAIT_US. -/
def execInstantIssue (group : Fin 6) (s : State) : Host.Outcome State Fault Refusal :=
  if s.groupOn group then
    match (s.group group).instants.find? (fun i => !i.issued) with
    | some i =>
      let all := (s.members group).all (fun n => s.partnerStarted group i n)
      let s := if all then s else s.advanceTo (i.opened + usStamp (s.fld (fld_PAIR_WAIT_WAIT_US group)))
      .next (s.issueInstant group i)
    | none => .next s
  else .next s

/-! ### Frames -/

/-- The sets of a stream in the order in which ingest tries them: never claimed first, then the oldest claim (R195). -/
def State.setOrder (s : State) (n : Nat) : List Nat :=
  let o := (s.stream n).order
  (List.range (s.streamDepth n)).filter (fun k => !o.contains k) ++ o

/-- The set that ingest claims (R195, step 3): one whose marker accepts its CLAIM. -/
def State.setToClaim (s : State) (n : Nat) : Option Nat :=
  (s.setOrder n).find? (fun k => (s.stream n).published != some k && (s.marker (s.frameMarker n k)).claimable &&
    s.producer (s.frameMarker n k) == ingestAgent n)

/-- Graphs that a stream's frame starts trigger. -/
def State.streamGraphs (s : State) (n : Nat) : List Nat :=
  (List.range 8).filter (fun g => s.graphOn g && s.fld (fld_GRAPH_CFG_TRIG g) == 0 && s.fld (fld_GRAPH_CFG_SRC g) == n)

/-- Graphs whose deadline is a stream's frame start (R215). -/
def State.clockedGraphs (s : State) (n : Nat) : List Nat :=
  (List.range 8).filter (fun g => s.graphOn g && s.clockStream g == n)

/-- Note a frame start in the stream's registers (R195, R204). -/
def State.noteStart (s : State) (n : Nat) (stamp : Stamp) : State :=
  let s := s.addWrap (fld_STREAM_FRAMES_FRAMES n) 1
  (s.setPair (reg_STREAM_FS_SEC_LO n) (stampSec stamp)).setFld (fld_STREAM_FS_NS_NS n) (stampNs stamp)

/-- The frame is stored: its set is claimed, its record begun, and its graphs are triggered (R195, R215). -/
def State.beginFrame (s : State) (n set number : Nat) (stamp : Stamp) : State :=
  let m := s.frameMarker n set
  let tov : Int := stamp + s.timeOffset (s.fld (fld_STREAM_LINK_TRANSFORM n))
  let seq := s.fld (fld_STREAM_FRAMES_FRAMES n)
  let s := s.orProto m (ingestAgent n) (s.claimOp m (ingestAgent n))
  let st := s.stream n
  let f : RxFrame := ⟨set, seq, stamp, tov, 0, 0⟩
  let flags := (if s.brown then 1 else 0) + (if s.flag fld_TIME_STATUS_CLOCK_FAULT then 2 else 0) + (if st.slip then 8 else 0)
  let s := s.setStream n { st with frame := some f, order := st.order.filter (· != set) ++ [set], slip := false,
                                   held := Store.set (0, 0) st.held set (seq, tov) }
  let s := s.openRecord n f number flags
  let s := s.pairFrame n ⟨seq, tov, stamp, some set, false⟩
  (s.streamGraphs n).foldl (fun s g => s.trigger g seq stamp tov [(n, set, (s.marker m).gen)] false) s

/-- The frame is discarded for want of a set (R195, step 4; R215). -/
def State.discardFrame (s : State) (n : Nat) (stamp : Stamp) : State :=
  let tov : Int := stamp + s.timeOffset (s.fld (fld_STREAM_LINK_TRANSFORM n))
  let s := (s.addSat (fld_STREAM_LOSS_NO_BUFFER n) 1).pairFrame n ⟨s.fld (fld_STREAM_FRAMES_FRAMES n), tov, stamp, none, false⟩
  (s.streamGraphs n).foldl (fun s g => s.addSat (fld_GRAPH_LOSS_NOT_RUN g) 1) s

/-- CSI_FRAME_START (R185, R195). -/
def execCsiFrameStart (port : Fin 12) (vc : Fin 16) (header : HeaderVerdict) (number : Nat) (tap : Tap) (s : State) :
    Host.Outcome State Fault Refusal :=
  let s := s.atTap tap
  let stamp := s.tapTime tap
  if s.portReceives port then
    let (used, s) := s.takeHeader port header
    let s := if used then { s with vis := { s.vis with portStart := Store.set none s.vis.portStart port (some stamp) } } else s
    match s.streamAt port vc with
    | none => .next s
    | some n =>
      if used then
        let s := (s.clockedGraphs n).foldl State.passDeadline s
        let s := (s.badFrame n).noteStart n stamp
        let s := s.setStream n { s.stream n with lastStart := some stamp }
        match s.setToClaim n with
        | some set => .next (s.beginFrame n set number stamp)
        | none => .next (s.discardFrame n stamp)
      else .next s
  else .next s

/-! ### Packets -/

/-- Bytes of a line as CSI-2 carries it (Table 5.3; RAW14 in 4 pixels of 7 bytes). -/
def wireBytes (dt n : Nat) : Nat := if dt = 0x2D then n * 7 / 4 else pixelBytes dt n

/-- A RAW14 group of 4 pixels in 7 bytes: the four high bytes, then the low six bits packed from bit 0. -/
def unpackRaw14 (g : List Byte) : List Byte :=
  let low := field g 4 3
  (List.range 4).flatMap (fun i => toLe 2 (field g i 1 * 64 + low / 64 ^ i % 64))

/-- A line as the frame store holds it (Table 5.3). -/
def storedLine (dt : Nat) (p : List Byte) : List Byte :=
  if dt = 0x2D then (List.range (p.length / 7)).flatMap (fun i => unpackRaw14 (slice p (7 * i) 7))
  else if dt = 0x2E then (List.range (p.length / 2)).flatMap (fun i => (slice p (2 * i) 2).reverse)
  else p

/-- Store a pixel line, with ADVANCE after every 16 lines (R194, R199). -/
def State.storeLine (s : State) (n : Nat) (f : RxFrame) (payload : List Byte) : State :=
  let dt := s.streamDt n
  if wireBytes dt (s.streamWidth n) < payload.length ∨ s.streamHeight n ≤ f.lines then s.badFrame n
  else
    let s := s.setFrameBytes (s.rawBase n f.set + f.lines * s.rawStride n) (storedLine dt payload)
    let s := s.setStream n { s.stream n with frame := some { f with lines := f.lines + 1 } }
    if (f.lines + 1) % 16 = 0 then
      let m := s.frameMarker n f.set
      s.orProto m (ingestAgent n) (s.advanceOp m (ingestAgent n) (f.lines + 1))
    else s

/-- A payload's checksum fails: the error counts and the stream's frame is bad (R199, R203). -/
def State.badCrc (s : State) (port n : Nat) : State := (s.addSat (fld_CSI_RX_ERR_CRC_ERR port) 1).badFrame n

/-- CSI_LONG_PACKET (R183, R194, R199). -/
def execCsiLongPacket (port : Fin 12) (vc : Fin 16) (dt : Nat) (header : HeaderVerdict) (payload : List Byte) (crcOk : Bool)
    (s : State) : Host.Outcome State Fault Refusal :=
  if s.portReceives port then
    let (used, s) := s.takeHeader port header
    if used = false then .next s
    else if s.commandClaims port vc = true ∧ 0x30 ≤ dt ∧ dt ≤ 0x37 then .next s
    else match s.streamAt port vc with
      | none => .next (s.addSat (fld_CSI_RX_DROP_UNMATCHED port) 1)
      | some n =>
        if dt ≠ s.streamDt n then .next (s.addSat (fld_CSI_RX_DROP_UNMATCHED port) 1)
        else if crcOk = false then .next (s.badCrc port n)
        else match (s.stream n).frame with
          | some f => .next (s.storeLine n f payload)
          | none => .next s
  else .next s

/-- Store embedded data after the frame record (R188). -/
def State.storeEmbedded (s : State) (n : Nat) (f : RxFrame) (payload : List Byte) : State :=
  let a := s.setBase n f.set
  let room := 4032 - f.embedded
  let s := s.setFrameBytes (a + 64 + f.embedded) (payload.take room)
  let s := s.setStream n { s.stream n with frame := some { f with embedded := f.embedded + min room payload.length } }
  if room < payload.length then s.setFrameNat (a + 2) 2 (Nat.lor (s.frameNat (a + 2) 2) 4) else s

/-- CSI_EMBEDDED_PACKET (R188). -/
def execCsiEmbeddedPacket (port : Fin 12) (vc : Fin 16) (header : HeaderVerdict) (payload : List Byte) (crcOk : Bool)
    (s : State) : Host.Outcome State Fault Refusal :=
  if s.portReceives port then
    let (used, s) := s.takeHeader port header
    if used = false then .next s
    else match s.streamAt port vc with
      | none => .next (s.addSat (fld_CSI_RX_DROP_UNMATCHED port) 1)
      | some n =>
        if crcOk = false then .next (s.badCrc port n)
        else match (s.stream n).frame with
          | some f => .next (s.storeEmbedded n f payload)
          | none => .next s
  else .next s

/-- A good frame is published (R194). -/
def State.publishFrame (s : State) (n : Nat) (f : RxFrame) (stamp : Stamp) : State :=
  let m := s.frameMarker n f.set
  let s := s.closeRecord n f stamp
  let s := s.setStream n { s.stream n with frame := none, published := some f.set }
  let s := s.setFld (fld_STREAM_STATUS_SET n) f.set
  s.orProto m (ingestAgent n) (s.publishOp m (ingestAgent n))

/-- CSI_FRAME_END (R199). -/
def execCsiFrameEnd (port : Fin 12) (vc : Fin 16) (header : HeaderVerdict) (tap : Tap) (s : State) :
    Host.Outcome State Fault Refusal :=
  let s := s.atTap tap
  let stamp := s.tapTime tap
  if s.portReceives port then
    let (used, s) := s.takeHeader port header
    if used = false then .next s
    else match s.streamAt port vc with
      | none => .next s
      | some n =>
        match (s.stream n).frame with
        | some f => if f.lines < s.streamHeight n then .next (s.badFrame n) else .next (s.publishFrame n f stamp)
        | none => .next s
  else .next s

/-- CSI_PHY_ERROR (R199, R200). -/
def execCsiPhyError (port : Fin 12) (s : State) : Host.Outcome State Fault Refusal :=
  if s.portReceives port then .next ((s.addSat (fld_CSI_RX_DROP_PHY_ERR port) 1).badPort port) else .next s

/-- A port reset of CSI_RX (R201). -/
def State.resetRxPort (s : State) (port : Nat) : State :=
  (s.badPort port).setFlag (fld_CSI_RX_STATUS_IN_RESET port) true

/-- CSI_RX_PORT_RESET (R201). -/
def execCsiRxPortReset (port : Fin 12) (data : Word) (s : State) : Host.Outcome State Fault Refusal :=
  match s.writeTaken (reg_CSI_RX_CTRL port) data with
  | some d => if d.getLsbD 0 then .next (s.resetRxPort port) else .next s
  | none => .next s

/-! ### Swatch reset -/

/-- A reset of group 1 ends every frame, activation and hold (R202, R222); FRAMES and the activation numbers go on. -/
def State.resetVision (s : State) : State :=
  let graphs := s.vis.graphs.map (fun e => (e.1, { Graph.reset with count := e.2.count }))
  { s with vis := { s.vis with
      streams := [], groups := [], markers := [], answers := [], portStart := [], graphs := graphs.filter (fun e => e.2 ≠ Graph.reset) } }

end Sys2Proof.Machine
end

