-- ==== Sys2Proof/Machine/SolverStructure.lean ====
section
/-!
DEFINITION. Structures of the solver cores: the descriptor and its rules, the analysis, the signature, the footprint and the
cycle bounds (R374 to R384, R407, R408, R432, R433).
-/
namespace Sys2Proof.Machine

/-! ### The descriptor -/

/-- KIND codes of Table 11.2. -/
def kindLinear : Nat := 0
def kindQp : Nat := 1
def kindNls : Nat := 2

/-- FLAGS of Table 11.2. -/
def Structure.classA (t : Structure) : Bool := bit t.flags 0
def Structure.doubleFactor (t : Structure) : Bool := bit t.flags 1

/-- The first value slot after K's values, and the length of the value array (R382). -/
def Structure.valueLength (t : Structure) : Nat := t.nnzK + (t.segs.map (·.2)).sum

/-- Where a segment of a TYPE begins in the value array; its end where the structure lacks it. -/
def segStart : List (Nat × Nat) → Nat → Nat → Nat
  | [], _, at_ => at_
  | (ty, len) :: r, want, at_ => if ty = want then at_ else segStart r want (at_ + len)
def Structure.segment (t : Structure) (ty : Nat) : Nat := segStart t.segs ty t.nnzK

/-- n little-endian numbers of w bytes. -/
def numbers (w : Nat) : Nat → List Byte → List Nat
  | 0, _ => []
  | n + 1, l => leNat (l.take w) :: numbers w n (l.drop w)

/-- A size rounded up to a multiple of 4. -/
def pad4 (n : Nat) : Nat := ceilDiv n 4 * 4

/-- Where the sections of a descriptor begin (Table 11.3), and where the last ends. -/
structure Sections where
  segs : Nat
  cols : Nat
  rows : Nat
  perm : Nat
  starts : Nat
  template : Nat
  stop : Nat
  deriving DecidableEq, Repr
def sectionsOf (segments n nnzK supernodes entries : Nat) : Sections :=
  let cols := 64 + 8 * segments
  let rows := cols + 4 * (n + 1)
  let perm := rows + pad4 (2 * nnzK)
  let starts := perm + pad4 (2 * n)
  let template := starts + pad4 (2 * supernodes)
  ⟨64, cols, rows, perm, starts, template, template + 12 * entries⟩

/-- A template entry's 12 bytes (Table 11.6). -/
def templateEntry (e : List Byte) : TemplateEntry :=
  ⟨field e 0 4 / 2 ^ 28, field e 0 4 % 2 ^ 28, field e 4 4, field e 8 4⟩

/-- n consecutive pieces of w bytes. -/
def pieces (w : Nat) : Nat → List Byte → List (List Byte)
  | 0, _ => []
  | n + 1, l => slice l 0 w :: pieces w n (l.drop w)

/-- A structure as its descriptor reads, before any check and analysis. -/
def readStructure (d : List Byte) : Structure :=
  let segments := field d 0x1A 1
  let n := field d 0x08 4
  let nnzK := field d 0x10 4
  let sn := field d 0x18 2
  let tc := field d 0x1C 4
  let o := sectionsOf segments n nnzK sn tc
  { kind := field d 6 1, flags := field d 7 1, n := n, n1 := field d 0x0C 4, nnzK := nnzK, nnzL := field d 0x14 4,
    supernodes := sn, segs := (pieces 8 segments (d.drop o.segs)).map (fun e => (field e 0 1, field e 4 4)),
    signature := field d 0x20 8, inputWords := field d 0x28 4, deltaCap := field d 0x2C 4,
    colPtr := numbers 4 (n + 1) (d.drop o.cols), rows := numbers 2 nnzK (d.drop o.rows),
    perm := numbers 2 n (d.drop o.perm), starts := numbers 2 sn (d.drop o.starts),
    template := (pieces 12 tc (d.drop o.template)).map templateEntry, below := [], ops := 0, height := 0, nnzA := 0 }

/-- Whether a list rises strictly, or never falls. -/
def rises : List Nat → Bool
  | a :: b :: r => decide (a < b) && rises (b :: r)
  | _ => true
def neverFalls : List Nat → Bool
  | a :: b :: r => decide (a ≤ b) && neverFalls (b :: r)
  | _ => true

/-- The ranges and zero fields of the header (Table 11.2). They bound every section, and are checked before any is read. -/
def headerOk (d : List Byte) : Bool :=
  field d 0 4 == 0x53545243 && field d 4 2 == 1 && decide (field d 6 1 ≤ 2) && decide (field d 7 1 < 4) &&
    decide (1 ≤ field d 8 4) && decide (field d 8 4 ≤ 32768) && decide (field d 0x0C 4 ≤ field d 8 4) &&
    decide (1 ≤ field d 0x18 2) && decide (field d 0x18 2 ≤ 16384) && decide (field d 0x1A 1 ≤ 8) && field d 0x1B 1 == 0 &&
    decide (field d 0x1C 4 ≤ 1048576) && decide (field d 0x28 4 ≤ 1048576) && decide (field d 0x2C 4 ≤ 262144) &&
    (slice d 0x30 16).all (· == 0)

/-- The bytes that pad a section are zero. -/
def padZero (d : List Byte) (from_ used stop : Nat) : Bool := (slice d (from_ + used) (stop - from_ - used)).all (· == 0)

/-- Every section lies in the descriptor, its padding zero, and the reserved bytes of the segment table too (Table 11.3). -/
def sectionsOk (d : List Byte) : Bool :=
  let n := field d 8 4
  let nnzK := field d 0x10 4
  let sn := field d 0x18 2
  let o := sectionsOf (field d 0x1A 1) n nnzK sn (field d 0x1C 4)
  decide (o.stop ≤ d.length) && padZero d o.rows (2 * nnzK) o.perm && padZero d o.perm (2 * n) o.starts &&
    padZero d o.starts (2 * sn) o.template && (pieces 8 (field d 0x1A 1) (d.drop o.segs)).all (fun e => field e 1 3 == 0)

/-- The segments are exactly those of the KIND, each TYPE once, at the lengths it gives (R375). -/
def Structure.segsOk (t : Structure) : Bool :=
  let has (ty len : Nat) : Bool := t.segs.filter (fun e => e.1 == ty) == [(ty, len)]
  t.segs.all (fun e => decide (1 ≤ e.2) && decide (e.2 ≤ 65536)) &&
    (if t.kind = kindQp then t.segs.length == 3 && has 0 t.n1 && has 1 (t.n - t.n1) && has 2 (t.n - t.n1)
     else if t.kind = kindNls then
      t.n1 == t.n && t.segs.length == 2 && has 0 t.n && (t.segs.filter (fun e => e.1 == 1)).length == 1
     else t.segs.length == 1 && has 0 t.n)

/-- The row indices of a column. -/
def Structure.column (t : Structure) (c : Nat) : List Nat :=
  (t.rows.drop (t.colPtr.getD c 0)).take (t.colPtr.getD (c + 1) 0 - t.colPtr.getD c 0)

/-- A column's rows: its diagonal first, rising, within K; a constraint column of a QP holds nothing else (R375, R433). -/
def Structure.columnOk (t : Structure) (c : Nat) : Bool :=
  let l := t.column c
  l.head? == some c && rises l && l.all (fun r => decide (r < t.n)) &&
    (t.kind != kindQp || decide (c < t.n1) || l.length == 1)

/-- A template entry is valid (R384). -/
def Structure.entryOk (t : Structure) (e : TemplateEntry) : Bool :=
  let word (i : Nat) : Bool := decide (i < t.inputWords) || i == 0xFFFFFFFF
  decide (e.op ≤ 3) && decide (e.dst < t.valueLength) && word e.a && (decide (e.op < 2) || word e.b)

/-- The rules of the sections (Table 11.3). -/
def Structure.bodyOk (t : Structure) : Bool :=
  t.segsOk && t.colPtr.head? == some 0 && t.colPtr.getLast? == some t.nnzK && neverFalls t.colPtr &&
    (List.range t.n).all t.columnOk && (List.range t.n).all (fun i => t.perm.contains i) &&
    t.starts.head? == some 0 && rises t.starts && t.starts.all (fun p => decide (p < t.n)) && t.template.all t.entryOk

/-- A descriptor breaks no rule that makes it BAD_FORMAT. -/
def formatOk (d : List Byte) : Bool := headerOk d && sectionsOk d && (readStructure d).bodyOk

/-! ### The analysis -/

/-- Put a number into a rising list, once. -/
def insertUp (x : Nat) : List Nat → List Nat
  | [] => [x]
  | y :: r => if x < y then x :: y :: r else if x = y then y :: r else y :: insertUp x r

/-- The pivot of an original index. -/
def Structure.pivot (t : Structure) (i : Nat) : Nat := (t.perm.findIdx? (· == i)).getD 0

/-- The entries of K: value slot order, as original row and column. -/
def Structure.entries (t : Structure) : List (Nat × Nat) :=
  (List.range t.n).flatMap (fun c => (t.column c).map (fun r => (r, c)))

/-- The pivots below pivot p that K itself joins to it. -/
def Structure.pattern (t : Structure) (p : Nat) : List Nat :=
  t.entries.foldl (fun l e =>
    let i := t.pivot e.1
    let j := t.pivot e.2
    if i ≠ j ∧ min i j = p then insertUp (max i j) l else l) []

/-- The nonzero structure of the factor below each pivot: K's, and that of each child in the elimination tree (R376). -/
def Structure.fill (t : Structure) : List (List Nat) :=
  (List.range t.n).foldl (fun done p =>
    let own := done.foldl (fun l below => if below.head? = some p then below.tail.foldl (fun l x => insertUp x l) l else l)
      (t.pattern p)
    done ++ [own]) []

/-- The first pivot of each supernode with the pivot after its last. -/
def Structure.spans (t : Structure) : List (Nat × Nat) := t.starts.zip (t.starts.tail ++ [t.n])

/-- The union of a supernode's columns below it. -/
def Structure.union (fill : List (List Nat)) (a e : Nat) : List Nat :=
  ((fill.drop a).take (e - a)).foldl (fun u l => (l.filter (fun i => decide (e ≤ i))).foldl (fun u x => insertUp x u) u) []

/-- The rows stored below each pivot: the dense trapezoid of its supernode (R376). -/
def Structure.trapezoids (t : Structure) (fill : List (List Nat)) : List (List Nat) :=
  t.spans.flatMap (fun s =>
    let u := Structure.union fill s.1 s.2
    (List.range (s.2 - s.1)).map (fun k => ((List.range (s.2 - s.1)).drop (k + 1)).map (· + s.1) ++ u))

/-- The supernode that holds a pivot. -/
def Structure.supernodeOf (t : Structure) (p : Nat) : Nat := (t.starts.filter (fun a => decide (a ≤ p))).length - 1

/-- Supernodes on the longest path from a leaf to a root of the supernodal elimination tree (R376). -/
def Structure.heightOf (t : Structure) (fill : List (List Nat)) : Nat :=
  let step := fun (l : List Nat × Nat) (s : Nat × Nat) =>
    let h := l.1.getD (t.supernodeOf s.1) 0 + 1
    let best := match (Structure.union fill s.1 s.2).head? with
      | some p => let k := t.supernodeOf p; setAt l.1 k (max (l.1.getD k 0) h)
      | none => l.1
    (best, max l.2 h)
  (t.spans.foldl step (List.replicate t.starts.length 0, 0)).2

/-- What the analysis of R376 derives. -/
def Structure.analyse (t : Structure) : Structure :=
  let fill := t.fill
  let below := t.trapezoids fill
  { t with
    below := below
    ops := (below.map (fun l => l.length * (l.length + 3) / 2)).sum
    height := t.heightOf fill
    nnzA := (t.entries.filter (fun e => decide (t.n1 ≤ e.1) && decide (e.2 < t.n1))).length }

/-- NNZ_L as the analysis has it (R376). -/
def Structure.factorEntries (t : Structure) : Nat := t.n + (t.below.map List.length).sum

/-- The CRC of R377. -/
def signatureCrc : CrcSpec := ⟨64, 0x42F0E1EBA9EA3693, 2 ^ 64 - 1, true, 2 ^ 64 - 1⟩

/-- The signature (R377). -/
def Structure.computedSignature (t : Structure) : Nat :=
  let bytes := toLe 4 t.n ++ toLe 4 t.n1 ++ toLe 4 t.kind ++ t.colPtr.flatMap (toLe 4) ++ t.rows.flatMap (toLe 2) ++
    t.perm.flatMap (toLe 2)
  crcResult signatureCrc (crcFeed signatureCrc signatureCrc.init bytes)

/-- The footprint in bytes, rounded up to 4 KiB (R379). -/
def Structure.footprint (t : Structure) : Nat :=
  let rowIdx := (t.spans.map (fun s => 1 + (t.below.getD s.1 []).length)).sum
  ceilDiv (4 * t.valueLength + 4 * t.nnzL * (if t.doubleFactor then 2 else 1) + 2 * rowIdx + 16 * t.supernodes +
    (8 * t.n + 2 * t.nnzK + 4) + 12 * t.template.length + 4 * t.inputWords + 8 * t.deltaCap + 96 * t.n) 4096 * 4096

/-! ### Cycle bounds -/

/-- The bounds of Table 11.10. -/
def Structure.assemblyCycles (t : Structure) (feed : Nat) : Nat :=
  ceilDiv (if bit feed 1 then t.template.length else 0) 16 + ceilDiv (if bit feed 0 then t.deltaCap else 0) 16 + 512
def Structure.factorCycles (t : Structure) : Nat := ceilDiv t.ops 1024 + 32 * t.supernodes + 1024
def Structure.solveCycles (t : Structure) : Nat := ceilDiv t.nnzL 512 + 8 * t.height + 128
def Structure.iterCycles (t : Structure) : Nat := t.solveCycles + ceilDiv t.nnzA 512 + ceilDiv t.n 16 + 64
def Structure.refineCycles (t : Structure) : Nat := t.solveCycles + ceilDiv t.nnzK 256 + ceilDiv t.n 16 + 64
def Structure.checkCycles (t : Structure) : Nat := ceilDiv t.nnzK 32 + ceilDiv t.n 16 + 256

/-- The final-phase bound of Table 11.11. -/
def Structure.finalCycles (t : Structure) (refineMax : Nat) : Nat := refineMax * t.refineCycles + t.checkCycles

/-- The Class A schedule check of R408 (Table 11.11). -/
def Structure.scheduleOk (t : Structure) (feed refineMax : Nat) : Bool :=
  decide (t.assemblyCycles feed ≤ 10800) && decide (t.factorCycles ≤ 50400) && decide (40 * t.iterCycles ≤ 64800) &&
    decide (t.solveCycles + t.checkCycles ≤ 64800) && decide (t.finalCycles refineMax ≤ 5400)

/-- EST of R432, of d and s error dimensions, r rows and Q terms recomposed. -/
def estCycles (d s r q : Nat) : Nat := ceilDiv (d * s) 16 + ceilDiv (s ^ 3) 64 + ceilDiv (r * s ^ 2) 256 + 96 * q + 2048

end Sys2Proof.Machine
end

