-- ==== Sys2Proof/Machine/SolverMath.lean ====
section
/-!
DEFINITION. The arithmetic of a solver core, each sum formed in its stated order: factorisation, the solve, residuals and the
measure of R391, refinement (R387 to R394).
-/
namespace Sys2Proof.Machine

/-- An element of a vector. -/
def elem (v : List Fp) (i : Nat) : Fp := v.getD i Fp.zero

/-- A value rounded to FP32. -/
def toFp32 (x : Fp) : Fp := fp32.rnd x

/-- A running value less a product, rounded to FP64 (R387). A product of FP32 values is exact. -/
def lessProduct (acc a b : Fp) : Fp := fp64.rnd (acc.plus (a.times b).opp)

/-- The largest magnitude of a vector; a NaN element makes it NaN. -/
def normInf (v : List Fp) : Fp := v.foldl (fun m x => m.max x.abs) Fp.zero

/-- Whether every element is finite. -/
def allFinite (v : List Fp) : Bool := v.all Fp.finite

/-- 2^-k. -/
def tolerance (k : Nat) : Fp := Fp.ofRat (pow2 (-(k : Int)))

/-- An entry of a symmetric matrix; outside its pattern, fill included, zero. -/
def Matrix.at_ (m : Matrix) (i j : Nat) : Fp :=
  match m.find? (fun e => e.1 == max i j && e.2.1 == min i j) with
  | some e => e.2.2
  | none => Fp.zero

/-- Row i of a symmetric matrix: column and value, columns ascending. -/
def Matrix.row (m : Matrix) (n i : Nat) : List (Nat × Fp) :=
  (List.range n).filterMap (fun j => (m.find? (fun e => e.1 == max i j && e.2.1 == min i j)).map (fun e => (j, e.2.2)))

/-- The stored entry of L at row i in a column. -/
def storedAt (col : List (Nat × Fp)) (i : Nat) : Option Fp := (col.find? (fun e => e.1 == i)).map (·.2)

/-- The columns of L formed so far, each with its D, in pivot order. -/
abbrev Columns := List (Fp × List (Nat × Fp))

/-- W_jk = RNE_FP32(D_k × L_jk) (R387). -/
def scaledEntry (d l : Fp) : Fp := fp32.mul d l

/-- A leading term less Σ L_ik × W_jk over the columns so far, ascending k (R387). -/
def lessColumns (cols : Columns) (i j : Nat) (start : Fp) : Fp :=
  cols.foldl (fun acc c =>
    match storedAt c.2 j, storedAt c.2 i with
    | some ljk, some lik => lessProduct acc lik (scaledEntry c.1 ljk)
    | _, _ => acc) start

/-- Whether factorisation fails at a pivot (R388). -/
def pivotFails (d mjj : Fp) (positive : Bool) (pivotExp : Nat) : Bool :=
  match d with
  | .num q neg => q == 0 || neg == positive || d.abs.lt (mjj.abs.times (tolerance pivotExp))
  | _ => true

/-- Factorise (R387): the columns in pivot order, or the pivot at which it fails. The rows stored below pivot j are `below`'s,
`index` gives a pivot's original index and `positive` its expected sign. -/
def factoriseFrom (m : Matrix) (index : Nat → Nat) (positive : Nat → Bool) (pivotExp : Nat) :
    List (Nat × List Nat) → Columns → Except Nat Columns
  | [], cols => .ok cols
  | (j, below) :: rest, cols =>
    let mjj := m.at_ (index j) (index j)
    let d := toFp32 (lessColumns cols j j mjj)
    if pivotFails d mjj (positive j) pivotExp then .error j
    else
      let col := below.map (fun i => (i, fp32.div (lessColumns cols i j (m.at_ (index i) (index j))) d))
      factoriseFrom m index positive pivotExp rest (cols ++ [(d, col)])

/-- Factorise a structure's working matrix. -/
def Structure.factorise (t : Structure) (m : Matrix) (diag : List Fp) (pivotExp : Nat) : Except Nat Factor :=
  let index (p : Nat) : Nat := t.perm.getD p 0
  match factoriseFrom m index (fun p => decide (index p < t.n1)) pivotExp ((List.range t.n).zip t.below) [] with
  | .ok cols => .ok ⟨cols.map (·.1), cols.map (·.2), diag, false⟩
  | .error j => .error j

/-- A value times 2^k, exactly. -/
def scaleBy (k : Int) (x : Fp) : Fp :=
  match x with
  | .num q s => .num (q * pow2 k) s
  | y => y

/-- The forward pass (R390): z_i in pivot order. -/
def forwardPass (cols : List (List (Nat × Fp))) (b : List Fp) : List Fp :=
  (List.range b.length).foldl (fun z i =>
    let acc := (cols.zip z).foldl (fun acc c =>
      match storedAt c.1 i with
      | some l => lessProduct acc l c.2
      | none => acc) (elem b i)
    z ++ [toFp32 acc]) []

/-- The backward pass (R390): the solution from a pivot on, built from the last pivot up; rows are counted from the pivot after
the column's own. -/
def backwardPass : List (List (Nat × Fp)) → List Fp → List Fp
  | col :: cols, y :: ys =>
    let x := backwardPass cols ys
    toFp32 ((List.range x.length).foldl (fun acc k =>
      match storedAt col k with
      | some l => lessProduct acc l (elem x k)
      | none => acc) y) :: x
  | _, _ => []

/-- Columns with their rows counted from the column's own pivot: row i + 1 + k becomes k. -/
def relativeRows (cols : List (List (Nat × Fp))) : List (List (Nat × Fp)) :=
  ((List.range cols.length).zip cols).map (fun c => c.2.map (fun e => (e.1 - c.1 - 1, e.2)))

/-- A solve (R390) in pivot order. A right-hand side that is not finite has no exponent; it takes 0. -/
def solvePivots (f : Factor) (r : List Fp) : List Fp :=
  let norm := normInf r
  match norm with
  | .num q _ =>
    if q = 0 then r.map (fun _ => Fp.zero)
    else
      let e := floorLog2 q
      let b := r.map (fun x => toFp32 (scaleBy (-e) x))
      let z := forwardPass f.cols b
      let y := (z.zip f.d).map (fun p => fp32.div p.1 p.2)
      (backwardPass (relativeRows f.cols) y).map (scaleBy e)
  | _ =>
    let z := forwardPass f.cols (r.map toFp32)
    let y := (z.zip f.d).map (fun p => fp32.div p.1 p.2)
    backwardPass (relativeRows f.cols) y

/-- A solve of a structure: right-hand side and solution in original indices. -/
def Structure.solve (t : Structure) (f : Factor) (r : List Fp) : List Fp :=
  let x := solvePivots f (t.perm.map (elem r))
  (List.range t.n).map (fun i => elem x (t.pivot i))

/-! ### Residuals -/

/-- r = b − M x with each x_j split into two FP32 parts (R391). -/
def residualSplit (m : Matrix) (x b : List Fp) : List Fp :=
  (List.range b.length).map (fun i => (m.row b.length i).foldl (fun acc e =>
    let v := elem x e.1
    let hi := toFp32 v
    let lo := toFp32 (fp64.sub v hi)
    lessProduct (lessProduct acc e.2 hi) e.2 lo) (elem b i))

/-- r = b − M x with the FP64 solution (R392): each product rounded, then subtracted. -/
def residualCheck (m : Matrix) (x b : List Fp) : List Fp :=
  (List.range b.length).map (fun i => (m.row b.length i).foldl (fun acc e => fp64.sub acc (fp64.mul e.2 (elem x e.1))) (elem b i))

/-- The largest absolute row sum of a matrix, formed in FP64 (R391). -/
def matrixNorm (m : Matrix) (n : Nat) : Fp :=
  normInf ((List.range n).map (fun i => (m.row n i).foldl (fun acc e => fp64.add acc e.2.abs) Fp.zero))

/-- eta of R391 for a residual. A zero denominator gives 0 for a zero residual, and infinity otherwise. -/
def etaOf (m : Matrix) (r x b : List Fp) : Fp :=
  let den := fp64.add (fp64.mul (matrixNorm m b.length) (normInf x)) (normInf b)
  match den with
  | .num q _ =>
    if q = 0 then (match normInf r with | .num p _ => if p = 0 then Fp.zero else .inf false | _ => .inf false)
    else fp64.div (normInf r) den
  | _ => fp64.div (normInf r) den

/-- The measure that refinement stops by (R391), and the one of the residual-check unit (R392). -/
def Solve.etaSplit (v : Solve) : Fp := etaOf v.matrix (residualSplit v.matrix v.sol v.rhs) v.sol v.rhs
def Solve.etaCheck (v : Solve) : Fp := etaOf v.matrix (residualCheck v.matrix v.sol v.rhs) v.sol v.rhs

/-- One refinement step (R391). -/
def Structure.refineOnce (t : Structure) (v : Solve) : Solve :=
  let dx := t.solve v.factor (residualSplit v.matrix v.sol v.rhs)
  { v with sol := (v.sol.zip dx).map (fun p => fp64.add p.1 p.2) }

end Sys2Proof.Machine
end

