-- ==== Sys2Proof/Machine/QpAdmm.lean ====
section
/-!
DEFINITION. The QP_ADMM kind: settings, working matrix, iteration, residuals, tolerances and certificates (R433 to R436).
-/
namespace Sys2Proof.Machine

/-- QP settings (Table 12.7). -/
structure QpSettings where
  sigma : Fp
  rho : Fp
  rhoEq : Fp
  alpha : Fp
  epsAbs : Fp
  epsRel : Fp
  accAbs : Fp
  accRel : Fp
  epsInf : Fp
  adapt : Fp
  infBound : Fp
  deriving DecidableEq, Repr

/-- The settings that 64 bytes hold. -/
def readQpSettings (b : List Byte) : QpSettings :=
  let v (off : Nat) : Fp := ofWord32 (field b off 4)
  ⟨v 0, v 4, v 8, v 0x0C, v 0x10, v 0x14, v 0x18, v 0x1C, v 0x20, v 0x24, v 0x28⟩

/-- Settings outside the ranges of Table 12.7. -/
def qpSettingsBad (b : List Byte) : Bool :=
  let q := readQpSettings b
  !(decide (64 ≤ b.length) && Fp.zero.lt q.sigma && Fp.zero.lt q.rho && Fp.zero.lt q.rhoEq && Fp.zero.lt q.alpha &&
    q.alpha.lt (Fp.ofRat 2) && q.epsAbs.le q.accAbs && q.epsRel.le q.accRel && (slice b 0x2C 20).all (· == 0))

/-- A QP's data: its settings, entries with their values, vectors and ρ. -/
structure Qp where
  n : Nat
  m : Nat
  set : QpSettings
  entries : List (Nat × Nat × Fp)
  q : List Fp
  l : List Fp
  u : List Fp
  rho : List Fp
  deriving DecidableEq, Repr

/-- A bound as the iterations use it: infinite where its magnitude is at least INF_BOUND (R433). -/
def QpSettings.bound (c : QpSettings) (b : Fp) : Fp := if c.infBound.le b.abs then .inf b.sign else b

/-- ρ_i before any adaptation (R433); equal bounds come first. -/
def QpSettings.rhoOf (c : QpSettings) (l u : Fp) : Fp :=
  if l.le u && u.le l then fp64.mul c.rho c.rhoEq
  else if !(c.bound l).finite && !(c.bound u).finite then fp64.round (1 / 1000000) false
  else c.rho

/-- A slot's value as FP32. -/
def valueAt (values : Store Word) (i : Nat) : Fp := ofWord32 (Store.get 0 values i).toNat

/-- The values of a segment. -/
def Structure.segmentValues (t : Structure) (values : Store Word) (ty len : Nat) : List Fp :=
  (List.range len).map (fun i => valueAt values (t.segment ty + i))

/-- K's entries with their values: slot p belongs to row index p (R382). -/
def Structure.matrixValues (t : Structure) (values : Store Word) : List (Nat × Nat × Fp) :=
  ((List.range t.nnzK).zip t.entries).map (fun e => (e.2.1, e.2.2, valueAt values e.1))

/-- A QP as its slot holds it; `rho` is none before any adaptation. -/
def Structure.qp (t : Structure) (values : Store Word) (c : QpSettings) (rho : Option (List Fp)) : Qp :=
  let n := t.n1
  let m := t.n - t.n1
  let l := t.segmentValues values 1 m
  let u := t.segmentValues values 2 m
  { n := n, m := m, set := c, entries := t.matrixValues values, q := t.segmentValues values 0 n, l := l.map c.bound,
    u := u.map c.bound, rho := rho.getD ((l.zip u).map (fun b => c.rhoOf b.1 b.2)) }

/-- The diagonal terms a QP adds: σ and every ρ_i (R386, R433). -/
def Qp.diag (p : Qp) : List Fp := p.set.sigma :: p.rho

/-- The working matrix (R433), each entry FP32. -/
def Qp.matrix (p : Qp) : Matrix :=
  p.entries.map (fun e =>
    (e.1, e.2.1,
      if p.n ≤ e.2.1 then fp32.div (Fp.ofRat (-1)) (elem p.rho (e.1 - p.n))
      else if e.1 = e.2.1 then fp32.add e.2.2 p.set.sigma else e.2.2))

/-- Σ a × v over a row, FP64, in ascending index. -/
def rowProduct (row : List (Nat × Fp)) (v : List Fp) : Fp :=
  row.foldl (fun acc e => fp64.add acc (fp64.mul e.2 (elem v e.1))) Fp.zero

/-- P x, A x and Aᵀ y. -/
def Qp.timesP (p : Qp) (x : List Fp) : List Fp :=
  let b : Matrix := p.entries.filter (fun e => decide (e.1 < p.n))
  (List.range p.n).map (fun i => rowProduct (b.row p.n i) x)
def Qp.timesA (p : Qp) (x : List Fp) : List Fp :=
  (List.range p.m).map (fun i =>
    rowProduct ((p.entries.filter (fun e => e.1 == p.n + i && decide (e.2.1 < p.n))).map (fun e => (e.2.1, e.2.2))) x)
def Qp.timesAT (p : Qp) (y : List Fp) : List Fp :=
  (List.range p.n).map (fun j =>
    rowProduct ((p.entries.filter (fun e => e.2.1 == j && decide (p.n ≤ e.1))).map (fun e => (e.1 - p.n, e.2.2))) y)

/-- Elementwise combinations. -/
def zip2 (f : Fp → Fp → Fp) (a b : List Fp) : List Fp := (a.zip b).map (fun p => f p.1 p.2)

/-- The right-hand side of an iteration's solve (R434). -/
def Qp.rhs (p : Qp) (c : Iterate) : List Fp :=
  zip2 fp64.sub (c.x.map (fp64.mul p.set.sigma)) p.q ++
    zip2 fp64.sub c.z (zip2 fp64.div c.y p.rho)

/-- The next iterate from a solution of the working matrix (R434). -/
def Qp.advance (p : Qp) (c : Iterate) (sol : List Fp) : Iterate :=
  let al := p.set.alpha
  let bl := fp64.sub Fp.one al
  let mix (a b : List Fp) : List Fp := zip2 fp64.add (a.map (fp64.mul al)) (b.map (fp64.mul bl))
  let zt := zip2 fp64.add c.z (zip2 fp64.div (zip2 fp64.sub (sol.drop p.n) c.y) p.rho)
  let zh := mix zt c.z
  let zp := zip2 Fp.min (zip2 Fp.max (zip2 fp64.add zh (zip2 fp64.div c.y p.rho)) p.l) p.u
  ⟨mix (sol.take p.n) c.x, zp, zip2 fp64.add c.y (zip2 fp64.mul p.rho (zip2 fp64.sub zh zp))⟩

/-- Every element of an iterate is finite. -/
def Iterate.finite (c : Iterate) : Bool := allFinite c.x && allFinite c.z && allFinite c.y

/-- What an iterate is judged by (R434): r_p, r_d, and the two maxima of the tolerances. -/
structure Residuals where
  rp : Fp
  rd : Fp
  np : Fp
  nd : Fp
  deriving DecidableEq, Repr
def Qp.residuals (p : Qp) (c : Iterate) : Residuals :=
  let ax := p.timesA c.x
  let px := p.timesP c.x
  let aty := p.timesAT c.y
  { rp := normInf (zip2 fp64.sub ax c.z), rd := normInf (zip2 fp64.add (zip2 fp64.add px p.q) aty),
    np := (normInf ax).max (normInf c.z), nd := ((normInf px).max (normInf aty)).max (normInf p.q) }

/-- e_p or e_d of a tolerance pair. -/
def limit (a b n : Fp) : Fp := fp64.add a (fp64.mul b n)

/-- Whether residuals meet a tolerance pair. -/
def Residuals.meets (r : Residuals) (a b : Fp) : Bool := r.rp.le (limit a b r.np) && r.rd.le (limit a b r.nd)

/-- The primal certificate (R435). -/
def Qp.primal (p : Qp) (dy : List Fp) : Bool :=
  let t := fp64.mul p.set.epsInf (normInf dy)
  let void := ((dy.zip (p.l.zip p.u)).any (fun e =>
    (Fp.zero.lt e.1 && !e.2.2.finite) || (e.1.lt Fp.zero && !e.2.1.finite)))
  let sum (side : List Fp) (pick : Fp → Bool) : Fp :=
    (dy.zip side).foldl (fun acc e => if pick e.1 then fp64.add acc (fp64.mul e.2 e.1) else acc) Fp.zero
  (normInf (p.timesAT dy)).le t && !void &&
    (fp64.add (sum p.u (fun d => Fp.zero.lt d)) (sum p.l (fun d => d.lt Fp.zero))).lt t.opp

/-- The dual certificate (R435). -/
def Qp.dual (p : Qp) (dx : List Fp) : Bool :=
  let t := fp64.mul p.set.epsInf (normInf dx)
  (normInf (p.timesP dx)).le t && (rowProduct ((List.range p.n).zip p.q) dx).lt t.opp &&
    ((p.timesA dx).zip (p.l.zip p.u)).all (fun e =>
      (!e.2.1.finite || t.opp.le e.1) && (!e.2.2.finite || e.1.le t))

/-- The certificate an iterate shows against the one before (R435): 0 none, 1 primal, 2 dual. -/
def Qp.certificate (p : Qp) (next prev : Iterate) : Nat :=
  if p.primal (zip2 fp64.sub next.y prev.y) then 1
  else if p.dual (zip2 fp64.sub next.x prev.x) then 2 else 0

/-- A square root rounded to FP64 by RNE; no root lies halfway between two numbers. -/
def fpSqrt (q : Rat) : Fp :=
  if q ≤ 0 then Fp.zero
  else
    let ulp := pow2 (floorLog2 q / 2 - 52)
    let lo : Rat := (Nat.sqrt (q / (ulp * ulp)).floor.toNat : Rat) * ulp
    Fp.ofRat (if (lo + ulp / 2) * (lo + ulp / 2) < q then lo + ulp else lo)

/-- t of the adaptation of ρ (R434). -/
def Qp.adaptation (p : Qp) (r : Residuals) : Fp :=
  let ratio := fp64.div (fp64.div r.rp (limit p.set.epsAbs p.set.epsRel r.np))
    (fp64.div r.rd (limit p.set.epsAbs p.set.epsRel r.nd))
  match ratio with
  | .num q _ => fpSqrt q
  | y => y

/-- Whether t calls for a change of every ρ_i: it lies outside 1/ADAPT_RATIO to ADAPT_RATIO. -/
def Qp.adapts (p : Qp) (t : Fp) : Bool := t.lt (fp64.div Fp.one p.set.adapt) || p.set.adapt.lt t

end Sys2Proof.Machine
end

