-- ==== Sys2Proof/Machine/Kinematics.lean ====
section
/-!
DEFINITION. The formulas of TRACK over real numbers: transforms, IMU samples and their preintegration, and the legs (R339, R344,
R345, R350, R356).
-/
namespace Sys2Proof.Machine

/-! ### Transforms (R339) -/

/-- Q and T of a transform entry, Q normalised. -/
def State.transformPose (s : State) (e : Nat) : Option (List Fix) :=
  (fixes ([0, 4, 8, 12, 0x10, 0x14, 0x18].map (s.transformFp e))).map (fun l => vecUnit (l.take 4) ++ l.drop 4)

/-- FX, FY, CX and CY of a camera entry. -/
def State.intrinsics (s : State) (e : Nat) : Option (List Fix) := fixes ([0x20, 0x24, 0x28, 0x2C].map (s.transformFp e))

/-- The ray of a pixel: K⁻¹[X, Y, 1]ᵀ. -/
def pixelRay (k : List Fix) (x y : Fix) : List Fix :=
  [fixDiv (x - fixAt k 2) (fixAt k 0), fixDiv (y - fixAt k 3) (fixAt k 1), fixOne]

/-- The pixel of a camera point, where its depth is positive. -/
def projectPixel (k p : List Fix) : Option (Fix × Fix) :=
  if fixAt p 2 ≤ 0 then none
  else some (fixMul (fixAt k 0) (fixDiv (fixAt p 0) (fixAt p 2)) + fixAt k 2, fixMul (fixAt k 1) (fixDiv (fixAt p 1) (fixAt p 2)) + fixAt k 3)

/-- A Q16.16 coordinate. -/
def fixPixel (v : Nat) : Fix := signed 32 v * fixOne / 65536

/-- Seconds of a difference of stamps. -/
def fixSeconds (d : Int) : Fix := d * fixOne / (65536 * 1000000000)

/-! ### IMU samples and preintegration (R344, R345) -/

/-- ω and a of a sample in the body frame: the axes times GYRO_LSB and ACC_LSB, turned by Q. -/
def State.imuAxes (s : State) (n : Nat) (raw : List Byte) : Option (List Fix × List Fix) :=
  let lsb (off : Nat) := (ofWord32 (s.trackNat 4 (32 * n + off) 4)).fix?
  match s.transformPose (s.trackNat 4 (32 * n) 1), lsb 4, lsb 8 with
  | some p, some g, some a =>
    let axes (k : Fix) (i : Nat) : List Fix := quatRot (p.take 4) (mkVec 3 (fun j => k * signed 16 (field raw (2 * (i + j)) 2)))
    some (axes g 0, axes a 3)
  | _, _, _ => none

/-- b_g and b_a of the latest estimate record, 0 before any (R345). -/
def State.biases (s : State) : Option (List Fix × List Fix) :=
  if s.clsA.words.isEmpty then some ([0, 0, 0], [0, 0, 0])
  else (wordFixes ((s.clsA.words.drop 22).take 6)).map (fun b => (b.take 3, b.drop 3))

/-- A term in the making: ΔR as a quaternion, ΔV, ΔP, Σ and J. -/
structure Preint where
  dr : List Fix
  dv : List Fix
  dp : List Fix
  sigma : List (List Fix)
  jb : List (List Fix)
  deriving DecidableEq, Repr

/-- The start of a term. -/
def Preint.start : Preint := ⟨quatId, [0, 0, 0], [0, 0, 0], matZero 9 9, matZero 9 6⟩

/-- One part [t_a, t_b] of a term, d long: ω̄ and ā with the biases taken off, and the noise densities. -/
def Preint.part (w a : List Fix) (sg sa d : Fix) (p : Preint) : Preint :=
  let r := quatMat p.dr
  let turn := so3Exp (vecScale d w)
  let ra := matVec r a
  let d2 := fixMul d d
  let s := matMul 3 r (skew a)
  let i := matId 3
  let z := matZero 3 3
  let ma := blocks3 [[matTrans 3 (quatMat turn), z, z], [matScale (-d) s, i, z], [matScale (-(d2 / 2)) s, matScale d i, i]]
  let mb := blocks3 [[matScale d (rotJr (vecScale d w)), z], [z, matScale d r], [z, matScale (d2 / 2) r]]
  let noise := matDiag ([sg, sg, sg, sa, sa, sa].map (fun x => fixDiv (fixMul x x) d))
  { dp := vecAdd p.dp (vecAdd (vecScale d p.dv) (vecScale (d2 / 2) ra)),
    dv := vecAdd p.dv (vecScale d ra),
    sigma := matAdd (matMul 9 (matMul 9 ma p.sigma) (matTrans 9 ma)) (matMul 9 (matMul 6 mb noise) (matTrans 6 mb)),
    jb := matSub (matMul 6 ma p.jb) mb,
    dr := quatMul p.dr turn }

/-- The mean of two samples less a bias. -/
def meanLess (a b bias : List Fix) : List Fix := vecSub ((vecAdd a b).map fixHalf) bias

/-- Integrate from t with values v through the samples to the end: the values at the end are those of the last sample. -/
def integrate (bg ba : List Fix) (sg sa : Fix) (end_ : Int) : Int → List Fix × List Fix → List (Int × List Fix × List Fix) → Preint → Preint
  | t, v, [], p =>
    if end_ ≤ t then p else p.part (vecSub v.1 bg) (vecSub v.2 ba) sg sa (fixSeconds (end_ - t))
  | t, v, (u, x) :: r, p =>
    integrate bg ba sg sa end_ u x r
      (if u ≤ t then p else p.part (meanLess v.1 x.1 bg) (meanLess v.2 x.2 ba) sg sa (fixSeconds (u - t)))

/-- The term of an IMU over (before, c] (R345): the samples of the interval, and the last before it, whose values hold at its
start; where there is none before it, those of its first sample do. None where a value is not finite. -/
def State.preintegrate (s : State) (n : Nat) (before c : Int) (old : Option ImuSample) (used : List ImuSample) : Option Preint :=
  let read (v : ImuSample) : Option (Int × List Fix × List Fix) := (s.imuAxes n v.raw).map (fun x => (v.tov, x))
  let first := match old with | some v => s.imuAxes n v.raw | none => (used.head?).bind (fun v => s.imuAxes n v.raw)
  let noise (off : Nat) := (ofWord32 (s.trackNat 4 (32 * n + off) 4)).fix?
  match first, allSome (used.map read), s.biases, noise 0x0C, noise 0x10 with
  | some v, some l, some b, some sg, some sa => some (integrate b.1 b.2 sg sa c before v l Preint.start)
  | _, _, _, _, _ => none

/-- The upper triangle of a matrix by rows. -/
def upperOf (n : Nat) (m : List (List Fix)) : List Fix :=
  (List.range n).flatMap (fun i => (List.range (n - i)).map (fun j => matAt m i (i + j)))

/-! ### Legs (R350) -/

/-- The unit vector of an axis. -/
def unitAxis (i : Nat) : List Fix := mkVec 3 (fun j => if j = i then fixOne else 0)

/-- The motion of a joint of a TYPE by its position. -/
def jointMotion (type : Nat) (q : Fix) : List Fix :=
  if type < 3 then
    let (sn, cs) := fixSinCos (q / 2)
    vecScale sn (unitAxis type) ++ [cs, 0, 0, 0]
  else quatId ++ vecScale q (unitAxis (type - 3))

/-- A chain so far: its pose, and of each joint its type, its axis and origin in the body frame, and its velocity. -/
def chainStep (x : List Fix × List (Nat × List Fix × List Fix × Fix)) (j : Nat × List Fix × Fix × Fix) :
    List Fix × List (Nat × List Fix × List Fix × Fix) :=
  let (type, link, q, dq) := j
  let p := poseMul x.1 link
  (poseMul p (jointMotion type q), x.2 ++ [(type, quatRot (p.take 4) (unitAxis (type % 3)), p.drop 4, dq)])

/-- The velocity a joint gives a point. -/
def jointVelocity (foot : List Fix) (j : Nat × List Fix × List Fix × Fix) : List Fix :=
  let (type, axis, origin, dq) := j
  vecScale dq (if type < 3 then vecCross axis (vecSub foot origin) else axis)

/-- Foot pose and foot velocity of a chain from the records of its joints; none where a value is not finite. -/
def State.footOf (s : State) (k : Nat) (rs : List JointRecord) : Option (List Fix × List Fix) :=
  let joint (x : JointRecord × Nat) : Option (Nat × List Fix × Fix × Fix) :=
    match s.transformPose (s.trackNat 5 (64 * k + 0x13 + 4 * x.2) 1), wordFixes [x.1.position, x.1.velocity] with
    | some t, some v => some (s.trackNat 5 (64 * k + 0x12 + 4 * x.2) 1, t, fixAt v 0, fixAt v 1)
    | _, _ => none
  match allSome (rs.zipIdx.map joint), s.transformPose (s.trackNat 5 (64 * k + 2) 1) with
  | some js, some foot =>
    let (p, l) := js.foldl chainStep (quatId ++ [0, 0, 0], [])
    let p := poseMul p foot
    some (p, l.foldl (fun v j => vecAdd v (jointVelocity (p.drop 4) j)) [0, 0, 0])
  | _, _ => none

end Sys2Proof.Machine
end

