-- ==== Sys2Proof/Machine/Servo.lean ====
section
/-!
DEFINITION. Device time and its servo: offsets, acceptance, the rate, the step, and the best master clock (R134 to R152,
R158).
-/
namespace Sys2Proof.Machine

/-- Servo states of Table 4.1. -/
def servoUnsynced : Nat := 0
def servoStepped : Nat := 1
def servoLocked : Nat := 2
def servoHoldover : Nat := 3
def servoFreeRun : Nat := 4

/-- TIME_STATUS.STATE. -/
def State.servo (s : State) : Nat := s.fld fld_TIME_STATUS_STATE

/-- The first whole second of device time after now. -/
def State.nextSecond (s : State) : Stamp := mkStamp (stampSec s.stamp + 1) 0

/-- The start of the loop is due at the next whole second once cast-on lock and the first lock of the servo hold (R32), with a
Class A structure resident (R48) and the loop enabled. -/
def State.scheduleStart (s : State) : State :=
  if s.loop.grid = false ∧ s.loop.stopped = none ∧ s.loop.startAt = none ∧ s.flag fld_SYS_LOCK_LOCKED = true ∧
      s.flag fld_TIME_STATUS_FIRST_LOCK = true ∧ s.flag fld_CLA_CTRL_ENABLE = true ∧ s.loop.resident = true ∧
      s.time.running = true then
    { s with loop := { s.loop with startAt := some s.nextSecond } }
  else s

/-- A loop that a step stopped restarts at the first whole second after the servo enters LOCKED (R149). -/
def State.scheduleRestart (s : State) : State :=
  if s.loop.stopped = some LoopStop.step ∧ s.loop.startAt = none then
    { s with loop := { s.loop with startAt := some s.nextSecond } }
  else s

/-- Enter a servo state; the first entry to LOCKED or FREE_RUN is the first lock (R145). -/
def State.setServo (s : State) (v : Nat) : State :=
  let s := s.setFld fld_TIME_STATUS_STATE v
  let s := if v = servoLocked ∨ v = servoFreeRun then (s.setFlag fld_TIME_STATUS_FIRST_LOCK true).scheduleStart else s
  if v = servoLocked then s.scheduleRestart else s

/-- Start the integral and the counts of R145 and R146 afresh. -/
def State.clearServoCounts (s : State) : State :=
  { s with time := { s.time with acc := 0, inLock := 0, outLock := 0, recover := 0, episode := false } }

/-- Clamp a rational. -/
def clampRat (lo hi x : Rat) : Rat := if x < lo then lo else if hi < x then hi else x

/-- Write ρ, given in ppm: clamped to ±1,000 ppm and put into TIME_RATE's units; the rounding is not stated (R136, R174). -/
def State.setRate (s : State) (ppm : Rat) : State :=
  let (up, s) := s.takeBit
  let u := clampInt (-65536000) 65536000 (roundFree (clampRat (-1000) 1000 ppm * 65536) up)
  (s.setReg reg_TIME_RATE (BitVec.ofInt 32 u)).openEra

/-- The neighbour rate ratio of a port, less one (R178). -/
def State.neighbourRate (s : State) (m : Nat) : Rat := rateRatio (signed 32 (s.fld (fld_ETH_NRR_NRR m)))

/-- The combined rate ratio less one: grandmaster times neighbour, each held less one (R144). -/
def combinedRate (gm nbr : Rat) : Rat := (1 + gm) * (1 + nbr) - 1

/-- An ingress stamp under R156 in ns: the tap less 12.8 ns and the port's receive latency. -/
def State.ingressNs (s : State) (m : Nat) (tap : Stamp) : Rat :=
  (tap : Rat) / 65536 - 64 / 5 - ((s.reg (reg_ETH_RX_LAT m)).toNat : Rat) / 65536

/-- An egress stamp under R156 in ns. -/
def State.egressNs (s : State) (m : Nat) (tap : Stamp) : Rat :=
  (tap : Rat) / 65536 + 64 / 5 + ((s.reg (reg_ETH_TX_LAT m)).toNat : Rat) / 65536

/-- meanLinkDelay of a port in ns (R178). -/
def State.linkDelayNs (s : State) (m : Nat) : Rat := ((s.reg (reg_ETH_LINK_DELAY m)).toNat : Rat) / 65536

/-- Record the latest offset in TIME_OFFSET, saturating; the rounding to ns is not stated (R142, R174). -/
def State.recordOffset (s : State) (offset : Rat) : State :=
  let (up, s) := s.takeBit
  s.setReg reg_TIME_OFFSET (BitVec.ofNat 32 (satSigned 32 (roundFree offset up)))

/-- A clockIdentity, its first octet highest, as TIME_GM_ID holds it, its first octet lowest (R176). -/
def octetSwap (id : Nat) : Nat := leNat (toBe 8 id)

/-- Whether the servo follows Syncs at all: SERVO_MODE internal or external (R148), after cast-on lock (R143). -/
def State.servoFollows (s : State) : Bool :=
  decide (s.fld fld_TIME_CTRL_SERVO_MODE < 2) && s.flag fld_SYS_LOCK_LOCKED

/-- Whether an offset is refused: beyond JUMP_LIMIT_NS, or any where the limit is 0 (R146, Table 4.7). -/
def State.offsetRefused (s : State) (offset : Rat) : Bool :=
  let lim := s.fld fld_TIME_LIMITS_JUMP_LIMIT_NS
  lim == 0 || decide ((lim : Rat) < absRat offset)

/-- Refuse an offset; the first of an episode is reported and enters HOLDOVER (R146). -/
def State.refuseOffset (s : State) (offset : Rat) : State :=
  if s.time.episode then { s with time := { s.time with recover := 0 } }
  else
    let (up, s) := s.takeBit
    let s := (s.setFlag fld_TIME_STATUS_JUMP_REFUSED true).raiseIbi ibiTime
    let s := s.raiseFault faultTimeJump 3 (BitVec.ofNat 32 (satSigned 32 (roundFree offset up)))
    let s := s.addSat fld_TIME_COUNTS_REFUSALS 1
    let s := if s.servo = servoStepped ∨ s.servo = servoLocked then s.setServo servoHoldover else s
    { s with time := { s.time with episode := true, recover := 0 } }

/-- LOCK_COUNT and RECOVER_COUNT, where 0 acts as 1 (Table 4.8). -/
def State.lockCount (s : State) : Nat := max 1 (s.fld fld_TIME_SERVO_CFG_LOCK_COUNT)
def State.recoverCount (s : State) : Nat := max 1 (s.fld fld_TIME_SERVO_CFG_RECOVER_COUNT)

/-- An agreeing offset in HOLDOVER, FREE_RUN or an episode: it only counts, and the last of them enters STEPPED (R146). -/
def State.countRecovery (s : State) : State :=
  let k := s.time.recover + 1
  if s.recoverCount ≤ k then (s.clearServoCounts).setServo servoStepped
  else { s with time := { s.time with recover := k } }

/-- The servo's rate update of R144, by an accepted offset in ns. -/
def State.updateRate (s : State) (m : Nat) (offset : Rat) : State :=
  let e := -offset / (1000 * pow2 s.time.logInterval)
  let acc := s.time.acc + e
  let kp := pow2 (s.fld fld_TIME_SERVO_CFG_KP_SHIFT)
  let ki := pow2 (s.fld fld_TIME_SERVO_CFG_KI_SHIFT)
  let slew : Rat := s.fld fld_TIME_SERVO_CFG_SLEW_MAX_PPM
  let corr := e / kp + acc / ki
  let clamped := clampRat (-slew) slew corr
  let acc := if corr = clamped then acc else (clamped - e / kp) * ki
  let s := { s with time := { s.time with acc := acc } }
  if s.fld fld_TIME_CTRL_SERVO_MODE = 0 then
    s.setRate (combinedRate s.time.gmRate (s.neighbourRate m) * 1000000 + clamped)
  else s

/-- The counts of R145 by an accepted offset. -/
def State.judgeLock (s : State) (offset : Rat) : State :=
  let inside := decide (absRat offset ≤ (s.fld fld_TIME_LIMITS_LOCK_NS : Rat))
  let inn := if inside then s.time.inLock + 1 else 0
  let out := if inside then 0 else s.time.outLock + 1
  let s := { s with time := { s.time with inLock := inn, outLock := out } }
  if s.servo = servoStepped ∧ s.lockCount ≤ inn then
    { s.setServo servoLocked with time := { s.time with inLock := 0, outLock := 0 } }
  else if s.servo = servoLocked ∧ s.lockCount ≤ out then
    { s.setServo servoStepped with time := { s.time with inLock := 0, outLock := 0 } }
  else s

/-- Take the offset of a usable Sync: arm the step's tick, refuse, count or follow (R143 to R146, R151). FREE_RUN ends under the
recovery condition of HOLDOVER outside a refusal episode too, which the spec does not say (log entry 60). -/
def State.takeOffset (s : State) (m : Nat) (offset gmRate : Rat) (logInterval : Int) : State :=
  let s := s.recordOffset offset
  let s := { s with time := { s.time with seenSync := true, logInterval := logInterval, gmRate := gmRate } }
  if s.flag fld_TIME_STATUS_CLOCK_FAULT then s
  else if s.flag fld_TIME_STATUS_STEP_ARMED then { s with time := { s.time with stepDue := some offset } }
  else if s.offsetRefused offset then s.refuseOffset offset
  else if s.time.episode || s.servo == servoHoldover || s.servo == servoFreeRun then s.countRecovery
  else (s.updateRate m offset).judgeLock offset

/-- The priority vector of an Announce, compared part by part (IEEE 802.1AS, R158). -/
def announceVector (a : AnnounceMessage) : List Nat :=
  [a.priority1, a.clockClass, a.accuracy, a.variance, a.priority2, a.grandmaster, a.stepsRemoved, a.sourcePort]

/-- Lexicographic order of lists of numbers. -/
def lexLt : List Nat → List Nat → Bool
  | [], [] => false
  | [], _ :: _ => true
  | _ :: _, [] => false
  | a :: r, b :: q => if a < b then true else if b < a then false else lexLt r q

/-- The best Announce that qualifies, with its port: priority1 255 never does, and equal vectors leave ETH_0. -/
def bestAnnounce (a b : Option AnnounceMessage) : Option (Nat × AnnounceMessage) :=
  let a := a.filter (fun x => x.priority1 != 255)
  let b := b.filter (fun x => x.priority1 != 255)
  match a, b with
  | none, none => none
  | some x, none => some (0, x)
  | none, some y => some (1, y)
  | some x, some y => if lexLt (announceVector y) (announceVector x) then some (1, y) else some (0, x)

/-- Choose the slave port and the grandmaster anew; a change from the one selected last is flagged and counted, and its
Syncs are measured under R146 (R147, R158, R176). With none selected the identity selected last stays. -/
def State.selectMaster (s : State) : State :=
  match bestAnnounce ((Store.get none s.time.announce 0).map (·.msg)) ((Store.get none s.time.announce 1).map (·.msg)) with
  | none => s.setFlag fld_TIME_STATUS_SLAVE_VALID false
  | some (p, a) =>
    let last := s.pair reg_TIME_GM_ID_LO
    let changed := last != 0 && last != octetSwap a.grandmaster
    let s := ((s.setFlag fld_TIME_STATUS_SLAVE_VALID true).setFld fld_TIME_STATUS_SLAVE_PORT p).setPair
      reg_TIME_GM_ID_LO (octetSwap a.grandmaster)
    if changed then
      ((s.setFlag fld_TIME_STATUS_GM_CHANGED true).raiseIbi ibiTime).addSat fld_TIME_COUNTS_GM_CHANGES 1
    else s

/-- The ticks for which an Announce stands: three of its intervals, of 500 million ticks a second (IEEE 802.1AS, R158; log entry
14). -/
def announceTicks (a : AnnounceMessage) : Nat := (3 * 500000000 * pow2 a.logInterval).floor.toNat

/-- A port's Announce has expired (R158). -/
def State.announceLate (s : State) (m : Nat) : Bool :=
  match Store.get none s.time.announce m with
  | some h => decide (h.tick + announceTicks h.msg < s.time.ticks)
  | none => false

/-- Announces that have expired are forgotten, and the master is chosen anew (R158). -/
def State.expireAnnounces (s : State) : State :=
  match [0, 1].filter s.announceLate with
  | [] => s
  | l => { s with time := { s.time with announce := l.foldl (fun m p => Store.set none m p none) s.time.announce } }.selectMaster

/-- Whether a Sync on a port is usable but for its Follow_Up (R142). -/
def State.syncUsable (s : State) (m domain grandmaster : Nat) : Bool :=
  s.servoFollows && s.time.running && s.swatchRuns 4 && s.flag fld_TIME_STATUS_SLAVE_VALID &&
    s.fld fld_TIME_STATUS_SLAVE_PORT == m && s.flag (fld_ETH_STATUS_AS_CAPABLE m) &&
    domain == s.fld fld_TIME_CTRL_DOMAIN && octetSwap grandmaster == s.pair reg_TIME_GM_ID_LO

/-- The grandmaster rate ratio less one that a Follow_Up carries, in units of 2^-41. -/
def scaledRate (units : Int) : Rat := (units : Rat) / ((2 ^ 41 : Nat) : Rat)

/-- The offset of a usable Sync in ns (R142). -/
def State.syncOffset (s : State) (m : Nat) (tap : Stamp) (origin : Nat) (correction : Int) : Rat :=
  s.ingressNs m tap - ((origin : Rat) / 65536 + (correction : Rat) / 65536 + s.linkDelayNs m)

/-- SYNC_RECEIVED (R142 to R146). A two-step Sync waits for its Follow_Up, and takes the place of one still waiting. -/
def execSyncReceived (eth : Fin 2) (msg : SyncMessage) (s : State) : Host.Outcome State Fault Refusal :=
  let s := (s.atTap msg.tap).expireAnnounces
  if s.syncUsable eth msg.domain msg.grandmaster then
    if msg.twoStep then
      .next { s with time := { s.time with waiting := Store.set none s.time.waiting eth (some msg) } }
    else
      let s := { s with time := { s.time with waiting := Store.set none s.time.waiting eth none } }
      .next (s.takeOffset eth (s.syncOffset eth (s.tapTime msg.tap) msg.origin msg.correction) (scaledRate msg.rateOffset) msg.logInterval)
  else .next s

/-- FOLLOW_UP_RECEIVED (R142): the Follow_Up of the waiting Sync completes it; its correction adds to the Sync's. -/
def execFollowUpReceived (eth : Fin 2) (msg : FollowUpMessage) (s : State) : Host.Outcome State Fault Refusal :=
  let s := s.expireAnnounces
  match Store.get none s.time.waiting eth with
  | none => .next s
  | some y =>
    if y.sequence = msg.sequence ∧ y.domain = msg.domain ∧ y.grandmaster = msg.grandmaster ∧
        s.syncUsable eth msg.domain msg.grandmaster = true then
      let s := { s with time := { s.time with waiting := Store.set none s.time.waiting eth none } }
      .next (s.takeOffset eth (s.syncOffset eth (s.tapTime y.tap) msg.origin (y.correction + msg.correction))
        (scaledRate msg.rateOffset) y.logInterval)
    else .next s

/-- SYNC_TIMEOUT (R147): three intervals without a usable Sync. -/
def execSyncTimeout (s : State) : Host.Outcome State Fault Refusal :=
  if s.servo = servoStepped ∨ s.servo = servoLocked then
    .next ({ s with time := { s.time with recover := 0 } }.setServo servoHoldover)
  else .next s

/-- FREE_RUN_TIMEOUT (R148): FREE_RUN_S seconds after lock with no usable Sync while UNSYNCED; the step is disarmed. -/
def execFreeRunTimeout (s : State) : Host.Outcome State Fault Refusal :=
  if s.flag fld_SYS_LOCK_LOCKED ∧ s.servo = servoUnsynced ∧ s.time.seenSync = false ∧
      s.fld fld_TIME_SERVO_CFG_FREE_RUN_S ≠ 0 then
    let s := s.advanceTo (s.time.lockedAt / 2 ^ 32 + mkStamp (s.fld fld_TIME_SERVO_CFG_FREE_RUN_S) 0)
    .next ((s.setFlag fld_TIME_STATUS_STEP_ARMED false).setServo servoFreeRun)
  else .next s

/-- ANNOUNCE_RECEIVED (R158): an Announce of the device's domain, on an AS_CAPABLE port and fewer than 255 steps from its
grandmaster, replaces the port's. -/
def execAnnounceReceived (eth : Fin 2) (msg : AnnounceMessage) (s : State) : Host.Outcome State Fault Refusal :=
  let s := s.expireAnnounces
  if s.swatchRuns 4 ∧ s.flag (fld_ETH_STATUS_LINK eth) ∧ s.flag (fld_ETH_STATUS_AS_CAPABLE eth) ∧
      msg.domain = s.fld fld_TIME_CTRL_DOMAIN ∧ msg.stepsRemoved < 255 then
    .next ({ s with time := { s.time with announce := Store.set none s.time.announce eth (some ⟨msg, s.time.ticks⟩) } }.selectMaster)
  else .next s

/-- REARM (R149): a granted write of 1 arms the step again. -/
def execRearm (data : Word) (s : State) : Host.Outcome State Fault Refusal :=
  match s.writeTaken reg_TIME_CTRL data with
  | some d => if d.getLsbD 0 then .next (s.setFlag fld_TIME_STATUS_STEP_ARMED true) else .next s
  | none => .next s

/-- TIME_RATE_WRITE (R152): in external mode, outside refusal and HOLDOVER, a granted write sets ρ within SLEW_MAX_PPM of
the combined ratio and within ±1,000 ppm. -/
def execTimeRateWrite (data : Word) (s : State) : Host.Outcome State Fault Refusal :=
  match s.writeTaken reg_TIME_RATE data with
  | none => .next s
  | some d =>
    if s.fld fld_TIME_CTRL_SERVO_MODE = 1 ∧ s.time.episode = false ∧ s.servo ≠ servoHoldover then
      let m := s.fld fld_TIME_STATUS_SLAVE_PORT
      let nbr := if s.time.seenSync then s.neighbourRate m else 0
      let mid := combinedRate s.time.gmRate nbr * 1000000
      let slew : Rat := s.fld fld_TIME_SERVO_CFG_SLEW_MAX_PPM
      .next (s.setRate (clampRat (mid - slew) (mid + slew) ((signed 32 d.toNat : Rat) / 65536)))
    else .next s

/-- PLL_TIME_RELOCK (R151): the lock returns and CLOCK_FAULT clears. -/
def execPllTimeRelock (s : State) : Host.Outcome State Fault Refusal :=
  if s.alive = false ∨ s.time.running = false then .next s
  else
    let s := s.setFld fld_PLL_STATUS_LOCK (Nat.lor (s.fld fld_PLL_STATUS_LOCK) 8)
    .next (s.setFlag fld_TIME_STATUS_CLOCK_FAULT false)

end Sys2Proof.Machine
end

