-- ==== Sys2Proof/Machine/Strobes.lean ====
section
/-!
DEFINITION. Event crossings, and the strobes that TIME fires at the scheduled instants (R75, R76, R140).
-/
namespace Sys2Proof.Machine

/-- The end of an event crossing that is not TIME (Table 2.5). -/
def crossingEnd (i : Nat) : Nat := if i < 48 then i else if i < 60 then 7 else if i < 66 then 4 else 5

/-- The OVR bit of a crossing (R90). -/
def State.setOvr (s : State) (i : Nat) : State :=
  let f := if i < 32 then fld_XING_OVR_0_OVR else if i < 64 then fld_XING_OVR_1_OVR else fld_XING_OVR_2_OVR
  s.setFld f (Nat.lor (s.fld f) (2 ^ (i % 32)))

/-- Set the events pending at a crossing. -/
def State.setCrossing (s : State) (i n : Nat) : State := { s with sw := { s.sw with crossing := Store.set 0 s.sw.crossing i n } }

/-- A pulse comes to a crossing of which `drained` pending events have been delivered (R75): it holds 3, and loses a fourth; a
half held in reset discards it. -/
def State.pulse (s : State) (i drained : Nat) : State :=
  let n := Store.get 0 s.sw.crossing i - drained
  if s.inReset (crossingEnd i) then s
  else if n < 3 then s.setCrossing i (n + 1)
  else ((s.setCrossing i n).setOvr i).raiseFault faultXingOvr (crossingEnd i) (BitVec.ofNat 32 i)

/-- TIME fires a strobe at a scheduled instant over a crossing of Table 2.5 (R140): the strobes before it have been delivered, and
the receiver has the instant as the distribution carried it. -/
def State.strobe (s : State) (i : Nat) (x : Instant) : State :=
  if s.inReset (crossingEnd i) then s
  else
    let s := s.pulse i (Store.get 0 s.sw.crossing i)
    { s with sw := { s.sw with strobes := Store.set none s.sw.strobes i (some x) } }

/-- A strobe to every swatch of a list. -/
def State.strobeEach (s : State) (l : List Nat) (x : Instant) : State := l.foldl (fun s i => s.strobe i x) s

/-- A strobe to the swatches on the Class A path. -/
def State.strobePath (s : State) (k : InstantKind) (t : Stamp) : State :=
  s.strobeEach ((List.range 48).filter s.onClassAPath) ⟨k, t⟩

/-- A strobe to every swatch. -/
def State.strobeAll (s : State) (k : InstantKind) (t : Stamp) : State := s.strobeEach (List.range 48) ⟨k, t⟩

/-- The instants that travel ahead of time on the time distribution (R140): the next boundary, the period's cut-off and launch, and
the snapshot armed. -/
def State.distributed (s : State) : List Instant :=
  (if s.loop.grid then [⟨.boundary, s.loop.boundary + usStamp s.loop.period⟩] else []) ++
  (if s.loopRunning && !s.loop.cutoffDone then [⟨.cutoff, s.loop.cutoffAt⟩] else []) ++
  (if s.loopRunning then [⟨.launch, s.loop.launchAt⟩] else []) ++
  (match s.integ.snapAt with | some t => [⟨.snapshot, t⟩] | none => [])

end Sys2Proof.Machine
end

