-- ==== Sys2Proof/Machine/Timers.lean ====
section
/-!
DEFINITION. Timer outputs and capture inputs (R165 to R169, R179, R180).
-/
namespace Sys2Proof.Machine

/-! ### Timer outputs -/

/-- START of an output as a stamp. -/
def State.toutStart (s : State) (n : Nat) : Stamp :=
  mkStamp (s.pair (reg_TOUT_START_SEC_LO n)) (s.fld (fld_TOUT_START_NS_NS n))

/-- PERIOD of a train in stamp units: nanoseconds with a 16-bit fraction. -/
def State.toutPeriod (s : State) (n : Nat) : Nat :=
  s.fld (fld_TOUT_PERIOD_NS_NS n) * 2 ^ 16 + s.fld (fld_TOUT_PERIOD_FRAC_FRAC n)

/-- WIDTH in stamp units. -/
def State.toutWidth (s : State) (n : Nat) : Nat := nsStamp (s.fld (fld_TOUT_WIDTH_WIDTH n))

/-- The leading edge of pulse k (R166). -/
def State.toutLead (s : State) (n k : Nat) : Stamp := s.toutStart n + k * s.toutPeriod n

/-- The first pulse of a train whose leading edge falls at or after an instant. -/
def State.toutFirst (s : State) (n : Nat) (t : Stamp) : Nat :=
  if t ≤ s.toutStart n then 0 else ceilDiv (t - s.toutStart n) (max 1 (s.toutPeriod n))

/-- One timer output's state. -/
def State.tout (s : State) (n : Nat) : Tout := Store.get Tout.idle s.timers.tout n

/-- Set one timer output's state. -/
def State.setTout (s : State) (n : Nat) (o : Tout) : State :=
  let s := { s with timers := { s.timers with tout := Store.set Tout.idle s.timers.tout n o } }
  s.setFlag (fld_TOUT_CTRL_ACTIVE n) o.next.isSome

/-- Start an output's programme after its configuration takes effect (R166, R167): a pulse in progress completes its width,
a train begins at its first edge at least 100 ns on, and a single pulse already past is missed. -/
def State.startTout (s : State) (n : Nat) : State :=
  let o := s.tout n
  let t := s.stamp
  if s.flag (fld_TOUT_CTRL_ENABLE n) = false then
    s.setTout n { o with next := if o.level then o.next else none }
  else if s.flag (fld_TOUT_CTRL_PERIODIC n) then
    let k := if s.toutStart n < t then s.toutFirst n (t + nsStamp 100) else 0
    s.setTout n { o with pulse := k, next := if o.level then o.next else some (s.toutLead n k, true) }
  else if s.toutStart n < t then
    (s.setFlag (fld_TOUT_CTRL_MISSED n) true).setTout n { o with pulse := 1, next := if o.level then o.next else none }
  else s.setTout n { o with pulse := 0, next := if o.level then o.next else some (s.toutStart n, true) }

/-- The staged registers of an output. -/
def toutRegisters (n : Nat) : List Nat :=
  [reg_TOUT_START_SEC_LO n, reg_TOUT_START_SEC_HI n, reg_TOUT_START_NS n, reg_TOUT_PERIOD_NS n, reg_TOUT_PERIOD_FRAC n,
    reg_TOUT_WIDTH n]

/-- Stage a TOUT register word under a mask (R165). -/
def State.stageTout (s : State) (a : Nat) (mask data : Word) : State :=
  let old := (Store.get none s.timers.staged a).getD (s.reg a)
  { s with timers := { s.timers with staged := Store.set none s.timers.staged a (some (writtenWord a old mask data)) } }

/-- Move an output's staged words into its registers. -/
def State.unstageTout (s : State) (n : Nat) : State :=
  let s := (toutRegisters n).foldl (fun s a =>
    match Store.get none s.timers.staged a with
    | some w => s.setReg a w
    | none => s) s
  { s with timers := { s.timers with
      staged := (toutRegisters n).foldl (fun m a => Store.set none m a none) s.timers.staged } }

/-- Whether the registers of an output hold a configuration that R165 refuses. -/
def State.toutBad (s : State) (n : Nat) : Bool :=
  decide (s.fld (fld_TOUT_WIDTH_WIDTH n) < 8) ||
    (s.flag (fld_TOUT_CTRL_PERIODIC n) && decide (s.toutPeriod n ≤ s.toutWidth n))

/-- Apply an output's staging with a new control word, or refuse both and keep the previous configuration (R165). A refusal discards
the words staged, and until a write to TOUT_CTRL the registers read as the configuration in effect; the spec says neither (R179; log
entry 60). -/
def State.applyTout (s : State) (n : Nat) (mask data : Word) : State :=
  let next := (s.unstageTout n).applyWrite (reg_TOUT_CTRL n) mask data
  if next.toutBad n then
    let kept := { s with timers := { s.timers with staged := next.timers.staged } }
    (kept.applyWrite (reg_TOUT_CTRL n) (mask &&& 0x18#32) data).setFlag (fld_TOUT_CTRL_CFG_REJECT n) true
  else next.startTout n

/-- TOUT_CTRL_WRITE (R165). -/
def execToutCtrlWrite (tout : Fin 16) (data : Word) (s : State) : Host.Outcome State Fault Refusal :=
  match s.writeMask (reg_TOUT_CTRL tout) data with
  | some m => .next (s.applyTout tout m data)
  | none => .next s

/-- TOUT_EDGE (R166, R167): the pin takes the edge; a trailing edge leads to the next pulse of an enabled train. -/
def execToutEdge (tout : Fin 16) (s : State) : Host.Outcome State Fault Refusal :=
  let o := s.tout tout
  match o.next with
  | none => .next s
  | some (t, true) =>
    let s := s.advanceTo t
    .next (s.setTout tout { o with level := true, pulse := o.pulse + 1, next := some (t + s.toutWidth tout, false) })
  | some (t, false) =>
    let s := s.advanceTo t
    let on := s.flag (fld_TOUT_CTRL_ENABLE tout) && (s.flag (fld_TOUT_CTRL_PERIODIC tout) || o.pulse == 0)
    .next (s.setTout tout { o with level := false, next := if on then some (s.toutLead tout o.pulse, true) else none })

/-- A pin's level: the pulse drives it against POLARITY; in the cold-reset state it is not driven (R599). -/
def State.toutPin (s : State) (n : Nat) : Option Bool :=
  if s.pins.coldState then none else some ((s.tout n).level != s.flag (fld_TOUT_CTRL_POLARITY n))

/-- Where a train stands after a step (R168): it resumes at its first leading edge at or after the new time; a level that is active
stays so, until the trailing edge of the pulse that the new time lies in, or else of the pulse with which the train resumes. -/
def State.resumeTrain (s : State) (n : Nat) (o : Tout) (after : Stamp) : Tout :=
  let k := s.toutFirst n after
  if o.level = true ∧ 0 < k ∧ after < s.toutLead n (k - 1) + s.toutWidth n then
    { o with pulse := k, next := some (s.toutLead n (k - 1) + s.toutWidth n, false) }
  else { o with pulse := k, next := some (s.toutLead n k, true) }

/-- What a step of device time does to one output (R167, R168). Edges that a forward step passes over are not produced: the level of
an enabled output stays as it was, which the spec does not say (log entry 60), and a disabled one holds its inactive level. After a
backward step the trailing edge of a single pulse in progress, or of a pulse that a disabled output completes, is still to come. -/
def State.stepTout (s : State) (n : Nat) (before after : Stamp) : State :=
  let o := s.tout n
  let on := s.flag (fld_TOUT_CTRL_ENABLE n)
  match o.next with
  | none => s
  | some (t, _) =>
    let train := on && s.flag (fld_TOUT_CTRL_PERIODIC n)
    if before ≤ after then
      if after ≤ t then s
      else
        (s.setFlag (fld_TOUT_CTRL_MISSED n) true).setTout n
          (if train then s.resumeTrain n o after else { o with next := none, level := o.level && on })
    else if train then s.setTout n (s.resumeTrain n o after)
    else s

/-- What a step does to every output. -/
def State.stepTouts (s : State) (before after : Stamp) : State :=
  (List.range 16).foldl (fun s n => s.stepTout n before after) s

/-! ### Capture inputs -/

/-- One capture input. -/
def State.tin (s : State) (n : Nat) : Tin := Store.get Tin.idle s.timers.tin n

/-- Set one capture input. -/
def State.setTin (s : State) (n : Nat) (v : Tin) : State :=
  { s with timers := { s.timers with tin := Store.set Tin.idle s.timers.tin n v } }

/-- The least pulse of a FILTER setting in ns (Table 4.12). -/
def tinFilter : Nat → Nat
  | 0 => 10
  | 1 => 50
  | 2 => 200
  | _ => 1000

/-- Whether EDGE selects an edge (Table 4.12). -/
def tinSelects (edge : Nat) (rising : Bool) : Bool :=
  match edge with
  | 0 => false
  | 1 => rising
  | 2 => !rising
  | _ => true

/-- TIN_EDGE (R138, R169): a selected edge of a pulse the filter passes joins the queue, or is lost with OVR; the tap names the moment
at which the edge crossed the threshold. -/
def execTinEdge (tin : Fin 4) (rising : Bool) (width : Nat) (tap : Tap) (s : State) : Host.Outcome State Fault Refusal :=
  let s := s.atTap tap
  if s.time.running ∧ tinFilter (s.fld (fld_TIN_CTRL_FILTER tin)) ≤ width ∧
      tinSelects (s.fld (fld_TIN_CTRL_EDGE tin)) rising = true then
    let v := s.tin tin
    if v.queue.length < 16 then .next (s.setTin tin { v with queue := v.queue ++ [⟨s.tapTime tap, rising⟩] })
    else .next (s.setFlag (fld_TIN_STATUS_OVR tin) true)
  else .next s

/-- Remove the head capture; an empty queue has none. An edge lost to a full queue takes no capture number, which the spec does not
say (R180; log entry 60). -/
def Tin.pop (v : Tin) : Tin :=
  match v.queue with
  | [] => v
  | _ :: r => ⟨r, v.seq + 1⟩

/-- TIN_POP (R180): a granted write of 1 removes the head entry. -/
def execTinPop (tin : Fin 4) (data : Word) (s : State) : Host.Outcome State Fault Refusal :=
  match s.writeTaken (reg_TIN_POP tin) data with
  | some d => if d.getLsbD 0 then .next (s.setTin tin (s.tin tin).pop) else .next s
  | none => .next s

end Sys2Proof.Machine
end

