-- ==== Sys2Proof/Machine/Net.lean ====
section
/-!
DEFINITION. The Ethernet ports: bridging, receive filters, peer delay, transparent clocking, the launch queue, and the step
of device time (R143, R149, R150, R153 to R164).
-/
namespace Sys2Proof.Machine

/-! ### Ports -/

/-- One MAC. -/
def State.mac (s : State) (m : Nat) : EthPort := Store.get EthPort.idle s.eth m

/-- Set one MAC. -/
def State.setMac (s : State) (m : Nat) (p : EthPort) : State := { s with eth := Store.set EthPort.idle s.eth m p }

/-- The other port. -/
def otherPort (m : Nat) : Nat := if m = 0 then 1 else 0

/-- A port is active with its link up and not in reset. -/
def State.portUp (s : State) (m : Nat) : Bool :=
  s.swatchRuns 4 && s.flag (fld_ETH_CTRL_ENABLE m) && s.flag (fld_ETH_STATUS_LINK m) && !s.flag (fld_ETH_STATUS_IN_RESET m)

/-- An ingress stamp as a stamp of device time; the rounding is not stated (R156). -/
def State.ingressStamp (s : State) (m : Nat) (tap : Stamp) : Stamp × State :=
  let (up, s) := s.takeBit
  ((roundFree (s.ingressNs m tap * 65536) up).toNat, s)

/-! ### Frames -/

/-- Whether a frame carries an IEEE 802.1Q tag. -/
def isTagged (f : List Byte) : Bool := beNat (slice f 12 2) == 0x8100

/-- The EtherType after any tag. -/
def etherType (f : List Byte) : Nat := beNat (slice f (if isTagged f then 16 else 12) 2)

/-- The VLAN ID of a tagged frame, and the priority code point; untagged frames take priority 0 (R154). -/
def vlanId (f : List Byte) : Nat := beNat (slice f 14 2) % 4096
def framePriority (f : List Byte) : Nat := if isTagged f then beNat (slice f 14 2) / 8192 else 0

/-- Where the payload of a frame begins. -/
def payloadAt (f : List Byte) : Nat := if isTagged f then 18 else 14

/-- Whether a frame is gPTP, and its messageType (IEEE 802.1AS). -/
def isPtp (f : List Byte) : Bool := etherType f == 0x88F7
def ptpType (f : List Byte) : Nat := field f (payloadAt f) 1 % 16

/-- gPTP messages by messageType. -/
def ptpSync : Nat := 0x0
def ptpFollowUp : Nat := 0x8

/-- Peer delay messages: request, response and its follow-up. -/
def isPeerDelay (f : List Byte) : Bool := isPtp f && (ptpType f == 2 || ptpType f == 3 || ptpType f == 10)

/-- Whether receive filter entry i of a MAC matches a frame (Table 4.2). -/
def State.filterMatches (s : State) (m i : Nat) (f : List Byte) : Bool :=
  let e := s.objBytes 4 (m + 1) (16 * i) 16
  let vid := field e 8 2
  decide (16 * (i + 1) ≤ s.objLen 4 (m + 1)) && field e 10 2 == 1 && !filterFails e && slice e 0 6 == slice f 0 6 &&
    field e 6 2 == etherType f && (bit vid 15 || (isTagged f && vid % 4096 == vlanId f))

/-- The first filter that matches, by its consumer (R155). -/
def State.filterFor (s : State) (m : Nat) (f : List Byte) : Option Nat :=
  ((List.range 32).find? (fun i => s.filterMatches m i f)).map (fun i => s.objNat 4 (m + 1) (16 * i + 10) 2)

/-- ETH_FRAME_RECEIVED (R154, R155): delivered by a filter, kept as the port's own, forwarded, or discarded. -/
def execEthFrameReceived (eth : Fin 2) (frame : List Byte) (fcsOk : Bool) (tap : Tap) (s : State) :
    Host.Outcome State Fault Refusal :=
  let s := s.atTap tap
  if s.portUp eth = false ∨ fcsOk = false ∨ etherType frame = 0x8808 ∨ 1518 < frame.length then .next s
  else
    match s.filterFor eth frame with
    | some c =>
      let (t, s) := s.ingressStamp eth (s.tapTime tap)
      let p := s.mac eth
      .next (s.setMac eth { p with delivered := p.delivered ++ [(c, t, frame)] })
    | none =>
      if leNat (slice frame 0 6) = s.pair (reg_ETH_ADDR_LO eth) % 2 ^ 48 ∨ isPeerDelay frame = true ∨
          s.flag (fld_ETH_CTRL_FWD_ENABLE 0) = false ∨ s.flag (fld_ETH_CTRL_FWD_ENABLE 1) = false then .next s
      else
        let o := otherPort eth
        let p := s.mac o
        .next (s.setMac o { p with egress := p.egress ++ [⟨framePriority frame, s.ingressNs eth (s.tapTime tap), eth, frame⟩] })

/-- The next bridged frame by strict priority, and the rest (R154). -/
def nextEgress (l : List BridgeFrame) : Option (BridgeFrame × List BridgeFrame) :=
  match l with
  | [] => none
  | x :: r =>
    let top := r.foldl (fun m f => max m f.priority) x.priority
    match l.find? (fun f => f.priority == top) with
    | some f => some (f, dropFirst (fun g => g.priority == top) l)
    | none => none

/-- The source port identity, sequence and domain of a gPTP message, which pair a Follow_Up with its Sync. -/
def ptpKey (f : List Byte) : List Byte := slice f (payloadAt f + 20) 12 ++ slice f (payloadAt f + 4) 1

/-- Add to the correctionField of a gPTP message: 64 bits, two's complement, big-endian, in 2^-16 ns. -/
def addCorrection (f : List Byte) (units : Int) : List Byte :=
  let at8 := payloadAt f + 8
  let v := (beNat (slice f at8 8) + units) % 2 ^ 64
  splice f at8 (toBe 8 v.toNat)

/-- The correction of a forwarded message in ns: residence, scaled by the grandmaster rate ratio in the device's own domain,
plus the ingress port's meanLinkDelay (R160). -/
def State.transitCorrection (s : State) (b : BridgeFrame) (egress : Rat) : Rat :=
  let own := field b.frame (payloadAt b.frame + 4) 1 == s.fld fld_TIME_CTRL_DOMAIN
  let residence := egress - b.ingress
  (if own then residence * (1 + s.time.gmRate) else residence) + s.linkDelayNs b.ingressPort

/-- Where the Follow_Up information TLV of a gPTP message stands, if it has one: an organization extension of organizationId 00-80-C2
and organizationSubType 1 (IEEE 802.1AS); TLVs begin behind the 34-byte header and the 10-byte timestamp. -/
def followUpTlv (f : List Byte) (a : Nat) : Nat → Option Nat
  | 0 => none
  | fuel + 1 =>
    if f.length < a + 32 then none
    else if slice f a 10 = [0, 3, 0, 28, 0, 0x80, 0xC2, 0, 0, 1] then some a
    else followUpTlv f (a + 4 + beNat (slice f (a + 2) 2)) fuel

/-- Update the cumulativeScaledRateOffset of a message's Follow_Up information TLV with the ingress port's neighbour rate ratio; the
rounding is not stated (R160). -/
def State.scaleRate (s : State) (b : BridgeFrame) (f : List Byte) : List Byte × State :=
  match followUpTlv f (payloadAt f + 44) f.length with
  | none => (f, s)
  | some a =>
    let (up, s) := s.takeBit
    let c := scaledRate (signed 32 (beNat (slice f (a + 10) 4)))
    let v := roundFree (combinedRate c (s.neighbourRate b.ingressPort) * ((2 ^ 41 : Nat) : Rat)) up
    (splice f (a + 10) (toBe 4 (v % 2 ^ 32).toNat), s)

/-- The time of one byte on a port's wire at its speed, in ns (Table 4.10). -/
def State.byteNs (s : State) (m : Nat) : Rat :=
  match s.fld (fld_ETH_STATUS_SPEED m) with
  | 1 => 8
  | 2 => 16 / 5
  | 3 => 8 / 5
  | _ => 4 / 5

/-- A launch entry keeps an ordinary frame from starting, whose delimiter would leave at `egress` (R154, R162, R163): from 1.5 µs
before its launch time, or from a late entry on, unless the frame ends before the launch time. DEDUCED (log entry 60): a frame starts
8 bytes before the end of its delimiter and ends with its FCS, and a frame let go by a step keeps every other one back. -/
def State.keepsBack (s : State) (m : Nat) (egress : Rat) (len : Nat) (inMac : Bool) (e : LaunchEntry) : Bool :=
  let launch : Rat := (e.launchTime : Rat) / 65536
  e.freed || ((inMac || e.late || decide (launch - 1500 ≤ egress - 8 * s.byteNs m)) &&
    decide (launch < egress + ((len + 4 : Nat) : Rat) * s.byteNs m))

/-- No launch entry of a port keeps an ordinary frame back. -/
def State.mayForward (s : State) (m : Nat) (egress : Rat) (len : Nat) : Bool :=
  !((s.mac m).launch.any (s.keepsBack m egress len false) || (s.mac m).inMac.any (s.keepsBack m egress len true))

/-- FRAME_FORWARD_EGRESS (R154, R160, R162, R163): the next bridged frame leaves, a Sync or Follow_Up corrected; while a launch entry
keeps ordinary frames back none leaves. The egress port's TC_COUNT counts a message whose correctionField was corrected (log entry
60). -/
def execFrameForwardEgress (eth : Fin 2) (tap : Tap) (s : State) : Host.Outcome State Fault Refusal :=
  let s := s.atTap tap
  let p := s.mac eth
  let egress := s.egressNs eth (s.tapTime tap)
  match nextEgress p.egress with
  | none => .next s
  | some (b, rest) =>
    if s.portUp eth = false ∨ s.mayForward eth egress b.frame.length = false then .next s
    else
      let f := b.frame
      let c := s.transitCorrection b egress
      if isPtp f = true ∧ ptpType f = ptpSync ∧ bit (field f (payloadAt f + 6) 1) 1 = false then
        let (f, s) := s.scaleRate b f
        let (up, s) := s.takeBit
        let f := addCorrection f (roundNearest (c * 65536) up)
        .next ((s.setMac eth { p with egress := rest, sent := some f }).addWrap (fld_TC_COUNT_COUNT eth) 1)
      else if isPtp f = true ∧ ptpType f = ptpSync then
        .next (s.setMac eth { p with egress := rest, sent := some f, owed := p.owed ++ [(ptpKey f, c)] })
      else if isPtp f = true ∧ ptpType f = ptpFollowUp then
        let (f, s) := s.scaleRate b f
        match p.owed.find? (fun o => o.1 == ptpKey b.frame) with
        | some o =>
          let (up, s) := s.takeBit
          let f := addCorrection f (roundNearest (o.2 * 65536) up)
          let owed := dropFirst (fun q => q.1 == o.1) p.owed
          .next ((s.setMac eth { p with egress := rest, sent := some f, owed := owed }).addWrap (fld_TC_COUNT_COUNT eth) 1)
        | none => .next (s.setMac eth { p with egress := rest, sent := some f })
      else .next (s.setMac eth { p with egress := rest, sent := some f })

/-! ### Peer delay -/

/-- Clear a port's peer delay results (R159). -/
def State.clearPeerDelay (s : State) (m : Nat) : State :=
  let s := ((s.setFlag (fld_ETH_STATUS_AS_CAPABLE m) false).setReg (reg_ETH_LINK_DELAY m) 0).setReg (reg_ETH_NRR m) 0
  s.setMac m { s.mac m with pdGood := 0, pdBad := 0 }

/-- The phases in which a port initiates peer delay (R159). -/
def State.initiates (s : State) : Bool := decide (phaseRunning ≤ s.phase)

/-- PDELAY_LOG, two's complement, held between -3 and +3 (Table 4.9). -/
def State.pdelayLog (s : State) (m : Nat) : Int := clampInt (-3) 3 (signed 4 (s.fld (fld_ETH_CTRL_PDELAY_LOG m)))

/-- The ticks of 2 ns in a port's peer delay interval of 2^PDELAY_LOG seconds (R159). -/
def State.pdelayTicks (s : State) (m : Nat) : Nat := (500000000 * pow2 (s.pdelayLog m)).floor.toNat

/-- A port's peer delay interval runs from now: at cast-on lock, as its link comes up, and at each request (R159). -/
def State.startPdelay (s : State) (m : Nat) : State := s.setMac m { s.mac m with pdFrom := s.time.ticks }

/-- PDELAY_REQ_TIMER (R159): one interval after the last start of the timer, the port sends its next Pdelay_Req. -/
def execPdelayReqTimer (eth : Fin 2) (s : State) : Host.Outcome State Fault Refusal :=
  if s.initiates ∧ s.portUp eth then
    let s := s.tickOn ((s.mac eth).pdFrom + s.pdelayTicks eth - s.time.ticks)
    let p := s.mac eth
    .next ((s.setMac eth { p with pdSequence := (p.pdSequence + 1) % 65536, pdSent := some (.request p.pdSequence) }).startPdelay eth)
  else .next s

/-- Forget a port's Announce and choose anew. -/
def State.forgetAnnounce (s : State) (m : Nat) : State :=
  { s with time := { s.time with announce := Store.set none s.time.announce m none,
                                 waiting := Store.set none s.time.waiting m none } }.selectMaster

/-- PDELAY_EXCHANGE_DONE (R159): a completed exchange updates the delay and the ratio; success needs 800 ns or less. Two
successes with no failure between make the port AS_CAPABLE, three failures in a row end it, and its Announce with it (R158). A delay
or ratio beyond its 32-bit register saturates, which the spec does not say (R178; log entry 60). -/
def execPdelayExchangeDone (eth : Fin 2) (completed : Bool) (delay : Nat) (nrr : Int) (s : State) :
    Host.Outcome State Fault Refusal :=
  if s.initiates = false ∨ s.portUp eth = false then .next s
  else
    let s := if completed then
        (s.setReg (reg_ETH_LINK_DELAY eth) (BitVec.ofNat 32 (min (2 ^ 32 - 1) delay))).setReg (reg_ETH_NRR eth)
          (BitVec.ofNat 32 (satSigned 32 nrr))
      else s
    let good := completed && decide (delay ≤ 800 * 2 ^ 16)
    let p := s.mac eth
    let g := if good then p.pdGood + 1 else 0
    let b := if good then 0 else p.pdBad + 1
    let s := s.setMac eth { p with pdGood := g, pdBad := b }
    .next (if 2 ≤ g then s.setFlag (fld_ETH_STATUS_AS_CAPABLE eth) true
      else if 3 ≤ b then (s.setFlag (fld_ETH_STATUS_AS_CAPABLE eth) false).forgetAnnounce eth else s)

/-- PDELAY_REQ_RECEIVED (R156, R159): answered with a two-step Pdelay_Resp, which gives the request's ingress stamp, and its follow-up,
which gives the Pdelay_Resp's egress stamp, in every phase in which ETH runs. -/
def execPdelayReqReceived (eth : Fin 2) (requester : Nat) (sequence : Nat) (taps : PdelayTaps) (s : State) :
    Host.Outcome State Fault Refusal :=
  let s := s.atTap taps.request
  if s.portUp eth then
    let s := s.atTap taps.response
    let m : PdelayMessage :=
      .answer requester sequence (s.ingressNs eth (s.tapTime taps.request)) (s.egressNs eth (s.tapTime taps.response))
    .next (s.setMac eth { s.mac eth with pdSent := some m })
  else .next s

/-- A port loses its link: its speed, its peer delay results and its Announce go with it (R158, R159). -/
def State.loseLink (s : State) (m : Nat) : State :=
  let s := (s.setFlag (fld_ETH_STATUS_LINK m) false).setFld (fld_ETH_STATUS_SPEED m) 0
  (s.clearPeerDelay m).forgetAnnounce m

/-- ETH_LINK_CHANGE (R153, R159, R177): a lost link clears AS_CAPABLE; HOLDOVER follows from the lost Syncs (R147). The link of a port
that is not active does not come up. -/
def execEthLinkChange (eth : Fin 2) (speed : Fin 5) (s : State) : Host.Outcome State Fault Refusal :=
  if s.swatchRuns 4 = false ∨ s.flag (fld_ETH_STATUS_IN_RESET eth) = true then .next s
  else if speed = 0 then .next (s.loseLink eth)
  else if s.flag (fld_ETH_CTRL_ENABLE eth) = false then .next s
  else
    let s := (s.setFlag (fld_ETH_STATUS_LINK eth) true).setFld (fld_ETH_STATUS_SPEED eth) speed
    .next (s.startPdelay eth)

/-- The ports at cast-on lock: the peer delay timers start, and a port that the image makes inactive has no link (R159, R177). -/
def State.lockPorts (s : State) : State :=
  [0, 1].foldl (fun s m => if s.flag (fld_ETH_CTRL_ENABLE m) then s.startPdelay m else s.loseLink m) s

/-! ### The launch queue -/

/-- Put a frame into a launch queue, or drop it where the queue is full or its port is in reset or has no link (R56, R161, R163,
R164). -/
def State.enqueueLaunch (s : State) (m : Nat) (frame : List Byte) (launch : Stamp) : State :=
  let p := s.mac m
  if 64 ≤ p.launch.length ∨ s.portUp m = false then s.addSat (fld_LQ_COUNTS_DROPPED m) 1
  else
    let late := decide (launch < s.stamp + nsStamp 1500)
    let s := if late then s.addSat (fld_LQ_COUNTS_LATE m) 1 else s
    s.setMac m { p with launch := p.launch ++ [⟨frame, launch, late, false⟩] }

/-- The entry with the earliest launch time, the first enqueued among equals, and the rest (R163). -/
def nextLaunch (l : List LaunchEntry) : Option (LaunchEntry × List LaunchEntry) :=
  match l with
  | [] => none
  | x :: r =>
    let t := r.foldl (fun m e => min m e.launchTime) x.launchTime
    match l.find? (fun e => e.launchTime == t) with
    | some e => some (e, dropFirst (fun e => e.launchTime == t) l)
    | none => none

/-- LAUNCH_HANDOFF (R162): the head entry passes to the MAC; a port that is down drops it at its launch time (R164). -/
def execLaunchHandoff (eth : Fin 2) (s : State) : Host.Outcome State Fault Refusal :=
  match nextLaunch (s.mac eth).launch with
  | none => .next s
  | some (e, rest) =>
    let s := s.advanceTo (e.launchTime - nsStamp 1500)
    let p := s.mac eth
    .next (s.setMac eth { p with launch := rest, inMac := p.inMac ++ [e] })

/-- A frame in the MAC does not leave before its launch time, but for the 0.8 ns by which an entry in time may be early (R162, R163);
one that a step has let go does not wait (R150). -/
def LaunchEntry.mayLeave (e : LaunchEntry) (egress : Rat) : Bool :=
  e.freed || decide ((e.launchTime : Rat) / 65536 ≤ egress + if e.late then 0 else 4 / 5)

/-- A launched frame leaves: its egress stamp is recorded, and LAST_LAG its stamp less its launch time in 0.25 ns, negative values as
0; the rounding of the quotient is not stated. The launch strobe is fired (R140, R162, R178). -/
def State.sendLaunched (s : State) (m : Nat) (e : LaunchEntry) (egress : Rat) : State :=
  let (up, s) := s.takeBit
  let lag := roundFree ((egress - (e.launchTime : Rat) / 65536) * 4) up
  let p := s.mac m
  let s := s.setMac m { p with inMac := p.inMac.drop 1, sent := some e.frame, launched := (e.launchTime, egress) :: p.launched }
  let s := s.strobeEach [4, 60 + m] ⟨.launch, e.launchTime⟩
  s.setFld (fld_LQ_STATUS_LAST_LAG m) (min 0xFFFF lag.toNat)

/-- LAUNCH_EGRESS (R162 to R164). A port that is down drops the frame. -/
def execLaunchEgress (eth : Fin 2) (tap : Tap) (s : State) : Host.Outcome State Fault Refusal :=
  let s := s.atTap tap
  let p := s.mac eth
  match p.inMac with
  | [] => .next s
  | e :: rest =>
    let egress := s.egressNs eth (s.tapTime tap)
    if s.portUp eth = false then
      .next ((s.setMac eth { p with inMac := rest }).addSat (fld_LQ_COUNTS_DROPPED eth) 1)
    else if e.mayLeave egress then .next (s.sendLaunched eth e egress)
    else .next s

/-- Discard a port's launch queue into DROPPED (R150, R157). -/
def State.flushLaunch (s : State) (m : Nat) : State :=
  let n := (s.mac m).launch.length
  (s.setMac m { s.mac m with launch := [] }).addSat (fld_LQ_COUNTS_DROPPED m) n

/-- Give a port of ETH a port reset (R157, R364): buffered frames, launch entries and peer delay state go; CAST fields stay. A frame
in the MAC whose launch time is still to come counts in DROPPED too (R164). -/
def State.resetEthPort (s : State) (m : Nat) : State :=
  let cut := ((s.mac m).inMac.filter (fun e => decide (s.stamp ≤ e.launchTime))).length
  let s := (s.flushLaunch m).addSat (fld_LQ_COUNTS_DROPPED m) cut
  let s := s.setMac m { s.mac m with egress := [], inMac := [], owed := [], delivered := [], pdSequence := 0, pdSent := none }
  (s.loseLink m).setFlag (fld_ETH_STATUS_IN_RESET m) true

/-- ETH_PORT_RESET (R157). -/
def execEthPortReset (eth : Fin 2) (data : Word) (s : State) : Host.Outcome State Fault Refusal :=
  match s.writeTaken (reg_ETH_CTRL eth) data with
  | some d => if d.getLsbD 0 then .next (s.resetEthPort eth) else .next s
  | none => .next s

/-! ### The step of device time -/

/-- The Class A work of the period is dropped whole, and SOLV_1's other problem goes on (R56, R149). -/
def State.dropClassA (s : State) : State :=
  let left := s.solv.running.filter (fun e => match e.2 with | some p => p.task != .classA | none => false)
  let back := match s.solv.suspended with | some p => Store.set none left 1 (some p) | none => left
  { s with clsA := { s.clsA with work := none },
           solv := { s.solv with running := back, suspended := none, formed := [], stopPoint := none } }

/-- A re-armed step stops a loop that it finds running, whatever period is in progress (R149). A start still to come moves to the
first whole second after the step (R32), or waits for LOCKED where a step stopped the loop. -/
def State.stepLoop (s : State) : State :=
  if s.loopRunning then
    { s.setFlag fld_CLA_STATUS_RUNNING false with
      loop := { s.loop with grid := false, stopped := some .step, startAt := none, cutoffDone := false } }.dropClassA
  else if s.loop.stopped = some LoopStop.step then { s with loop := { s.loop with startAt := none } }
  else if s.loop.startAt.isSome then { s with loop := { s.loop with startAt := some s.nextSecond } }
  else s

/-- The frames that a step finds in a MAC no longer wait for their launch times (R150). -/
def State.freeMac (s : State) (m : Nat) : State :=
  s.setMac m { s.mac m with inMac := (s.mac m).inMac.map (fun e => { e with freed := true }) }

/-- TIME_STEP (R143, R149 to R151, R168): at the next tick device time moves by the offset, ρ is set in internal mode, the
step is disarmed, queued frames are dropped and the timer outputs follow. An offset beyond device time itself leaves a time
the spec does not give. -/
def execTimeStep (s : State) : Host.Outcome State Fault Refusal :=
  match s.time.stepDue, s.flag fld_TIME_STATUS_CLOCK_FAULT with
  | none, _ => .next s
  | some _, true => .next s
  | some offset, false =>
    let before := s.stamp
    let (up, s) := s.takeBit
    let target := roundFree (((s.time.now + s.advance : Nat) : Rat) - offset * ((2 ^ 48 : Nat) : Rat)) up
    let (free, s) := s.takeWord
    let now := if target < 0 then free.toNat else target.toNat
    let m := s.fld fld_TIME_STATUS_SLAVE_PORT
    let s := { s with time := { s.time with ticks := s.time.ticks + 1, now := now, stepDue := none } }.openEra
    let s := if s.fld fld_TIME_CTRL_SERVO_MODE = 0 then
        s.setRate (combinedRate s.time.gmRate (s.neighbourRate m) * 1000000) else s
    let s := (s.setFlag fld_TIME_STATUS_STEP_ARMED false).setFlag fld_TIME_STATUS_STEP_USED true
    let s := (s.clearServoCounts).setServo servoStepped
    let s := (((s.stepLoop).flushLaunch 0).flushLaunch 1 |>.freeMac 0).freeMac 1
    .next (s.stepTouts before s.stamp)

end Sys2Proof.Machine
end

