-- ==== Sys2Proof/Machine/Tracking.lean ====
section
/-!
DEFINITION. TRACK at work: IMU samples and joint frames, the terms of a period, and the updates of feature sets (R340 to R357,
R363).
-/
namespace Sys2Proof.Machine

/-! ### Numbers whose rounding is not stated -/

/-- The FP32 or FP16 bits of an exact value where the spec states no rounding: one of its two neighbours. -/
def State.nearFp (s : State) (f : FpFormat) (q : Rat) : Nat × State :=
  let (lo, hi) := f.around q
  if lo = hi then (lo, s)
  else
    let (up, s) := s.takeBit
    (if up then hi else lo, s)

/-- An FP32 result of a computation on values that may be NaN, infinite or a division by zero, whose result then is free. -/
def State.nearFp? (s : State) (f : FpFormat) (q : Option Rat) : Nat × State :=
  match q with
  | some q => s.nearFp f q
  | none =>
    let (w, s) := s.takeWord
    (w.toNat % 2 ^ (1 + f.exp + f.man), s)

/-- A finite value as a rational. -/
def Fp.rat? : Fp → Option Rat
  | .num q _ => some q
  | _ => none

/-- A product or quotient of finite values. -/
def mulRat (a b : Option Rat) : Option Rat := match a, b with | some x, some y => some (x * y) | _, _ => none
def divRat (a b : Option Rat) : Option Rat := match a, b with | some x, some y => if y = 0 then none else some (x / y) | _, _ => none
def subRat (a b : Option Rat) : Option Rat := match a, b with | some x, some y => some (x - y) | _, _ => none

/-- n free bytes, four at a time as FP32 words. -/
def State.freeWords (s : State) (n : Nat) : List Byte × State := s.takeBytes (4 * n)

/-! ### IMU samples -/

/-- One IMU in TRACK. -/
def State.imu (s : State) (n : Nat) : ImuTrack := Store.get ImuTrack.reset s.track.imus n
def State.setImu (s : State) (n : Nat) (v : ImuTrack) : State :=
  { s with track := { s.track with imus := Store.set ImuTrack.reset s.track.imus n v } }

/-- The device time of the latest cut-off, while the loop runs (R342). -/
def State.pastCutoff (s : State) : Option Stamp := s.track.lastCutoff

/-- A time of validity more than one Class A period after the writing (R343). -/
def State.tooFarAhead (s : State) (tov : Int) : Bool := decide ((s.stamp : Int) + usStamp s.loop.period < tov)

/-- Take a sample into its IMU. -/
def State.takeSample (s : State) (n : Nat) (v : ImuSample) : State :=
  let t := s.imu n
  let sec := stampSec s.stamp
  let t := if sec = t.second then { t with count := t.count + 1 }
    else { t with second := sec, before := if sec = t.second + 1 then t.count else 0, count := 1 }
  (s.setImu n { t with samples := t.samples ++ [v] }).addWrap (fld_IMU_SAMPLES_SAMPLES n) 1

/-- A sample is discarded once, under BAD_TIME, ORDER or late, in that order (R343), or taken. -/
def State.judgeSample (s : State) (n : Nat) (v : ImuSample) : State :=
  let order := match (s.imu n).samples.getLast? with | some p => decide (v.tov ≤ p.tov) | none => false
  let late := match s.pastCutoff with | some c => decide (v.tov ≤ (c : Int)) | none => false
  if s.tooFarAhead v.tov then s.addSat (fld_IMU_ERR_BAD_TIME n) 1
  else if order then s.addSat (fld_IMU_ERR_ORDER n) 1
  else if late then s.addSat fld_TF_LATE_COUNT_0_IMU 1
  else s.takeSample n v

/-- IMU_SAMPLE_ARRIVE (R343 to R345): the oldest sample that the IMU port has delivered for an IMU. -/
def execImuSampleArrive (imu : Fin 4) (s : State) : Host.Outcome State Fault Refusal :=
  match s.track.arrived.find? (fun a => a.1 == imu.val) with
  | none => .next s
  | some (_, stamp, raw) =>
    let s := { s with track := { s.track with arrived := dropFirst (fun a => a.1 == imu.val) s.track.arrived } }
    if s.swatchRuns trackSwatch && s.imuOn imu then
      let tov : Int := stamp + signed 32 (s.trackNat 3 (64 * s.trackNat 4 (32 * imu.val) 1 + 0x1C) 4) * 65536
      .next (s.judgeSample imu ⟨tov, raw⟩)
    else .next s

/-! ### Joint frames -/

/-- The payload of a joint frame: what follows the EtherType. -/
def jointPayload (f : List Byte) : List Byte := f.drop (payloadAt f)

/-- A joint frame is bad (R348). -/
def jointBad (p : List Byte) : Bool :=
  let n := field p 6 2
  field p 0 2 != 0x4A46 || field p 2 1 != 1 || n == 0 || decide (64 < n) || decide (p.length < 0x24 + 16 * n) ||
    crc32c (slice p 0 (0x20 + 16 * n)) != field p (0x20 + 16 * n) 4

/-- The time of validity of a joint frame (Table 10.3). -/
def State.jointTov (s : State) (p : List Byte) (stamp : Stamp) : Int :=
  if bit (field p 3 1) 0 then (mkStamp (field p 0x10 8) (field p 0x18 4) : Nat)
  else (stamp : Int) - nsStamp (s.fld fld_TF_JOINT_CFG_JOINT_LAT_NS)

/-- Keep the records of a frame whose VALID is set (R349); a joint's list is newest first. -/
def State.keepJoints (s : State) (p : List Byte) (tov : Int) : State :=
  (List.range (field p 6 2)).foldl (fun s i =>
    let a := 0x20 + 16 * i
    let j := field p a 2
    let st := field p (a + 2) 1
    if bit st 0 ∧ j < 1024 then
      let r : JointRecord := ⟨tov, bit st 1, BitVec.ofNat 32 (field p (a + 4) 4), BitVec.ofNat 32 (field p (a + 8) 4), BitVec.ofNat 32 (field p (a + 12) 4)⟩
      let l := insertBy (fun x y => decide (y.tov ≤ x.tov)) r (Store.get [] s.track.joints j)
      { s with track := { s.track with joints := Store.set [] s.track.joints j l } }
    else s) s

/-- Judge a joint frame that is not bad: a repeat, a gap, and the tests of R343 and R342. -/
def State.judgeJoints (s : State) (p : List Byte) (stamp : Stamp) : State :=
  let src := field p 4 2 % 16
  let seq := field p 8 4
  let v := Store.get JointSource.reset s.track.sources src
  let put (v : JointSource) (s : State) : State := { s with track := { s.track with sources := Store.set JointSource.reset s.track.sources src v } }
  if v.sequence = some seq then s.addSat fld_TF_JOINT_COUNTS_REPEAT 1
  else
    let gap := match v.sequence with | some q => (q + 1) % 2 ^ 32 != seq | none => false
    let s := if gap then s.addSat fld_TF_JOINT_COUNTS_SKIP 1 else s
    let tov := s.jointTov p stamp
    let order := match v.tov with | some t => decide (tov ≤ t) | none => false
    let late := match s.pastCutoff with | some c => decide (tov ≤ (c : Int)) | none => false
    if s.tooFarAhead tov then put { v with sequence := some seq } (s.addSat fld_TF_JOINT_TIME_BAD_TIME 1)
    else if order then put { v with sequence := some seq } (s.addSat fld_TF_JOINT_TIME_ORDER 1)
    else if late then put { v with sequence := some seq } (s.addSat fld_TF_LATE_COUNT_0_JOINT 1)
    else put ⟨some seq, some tov⟩ (s.keepJoints p tov)

/-- JOINT_FRAME_ARRIVE (R348): the oldest frame that a MAC's filters have delivered to TRACK. -/
def execJointFrameArrive (eth : Fin 2) (s : State) : Host.Outcome State Fault Refusal :=
  let p := s.mac eth
  match p.delivered.find? (fun d => d.1 == 1) with
  | none => .next s
  | some (_, stamp, frame) =>
    let s := s.setMac eth { p with delivered := dropFirst (fun d => d.1 == 1) p.delivered }
    if s.swatchRuns trackSwatch && s.flag fld_SYS_LOCK_LOCKED then
      let body := jointPayload frame
      if jointBad body then .next (s.addSat fld_TF_JOINT_COUNTS_BAD 1) else .next (s.judgeJoints body stamp)
    else .next s

/-! ### The terms of a period -/

/-- Samples at or before a cut-off. -/
def ImuTrack.upTo (t : ImuTrack) (c : Stamp) : List ImuSample := t.samples.filter (fun x => decide (x.tov ≤ (c : Int)))

/-- A gapped IMU (R346): its newest sample written by the cut-off is older than GAP_US there, or it has none. A sample that lies
after the cut-off it was written by is no older. -/
def State.imuGapped (s : State) (n : Nat) (c : Stamp) : Bool :=
  !(s.imu n).ahead && match ((s.imu n).upTo c).getLast? with
  | some v => decide (v.tov + usStamp (s.trackNat 4 (32 * n + 0x14) 4) < (c : Int))
  | none => true

/-- PROPAGATE of an IMU's entry. -/
def State.imuPropagates (s : State) (n : Nat) : Bool := s.imuOn n && bit (s.trackNat 4 (32 * n + 1) 1) 0

/-- The propagating IMU of a period (R346). -/
def State.propagatingImu (s : State) (c : Stamp) : Option Nat :=
  (List.range 4).find? (fun n => s.imuPropagates n && !s.imuGapped n c)

/-- Age of a contribution at an instant, ns, saturating (R341). -/
def ageNs (now : Stamp) (tov : Int) : Nat := min 0xFFFFFFFF (((now : Int) - tov) / 65536).toNat

/-- DR to JB of a term, but for AGE_NS between DP and SIGMA (Table 10.5). -/
def State.preintWords (s : State) (p : Option Preint) : List Word × List Word × State :=
  let (r, s) := s.roundVec 4 (p.map (·.dr))
  let (v, s) := s.roundVec 3 (p.map (·.dv))
  let (d, s) := s.roundVec 3 (p.map (·.dp))
  let (g, s) := s.roundEach 45 (p.map (fun p => upperOf 9 p.sigma))
  let (j, s) := s.roundEach 54 (p.map (fun p => p.jb.flatten))
  (r ++ v ++ d, g ++ j, s)

/-- A preintegrated term (Table 10.5) over the interval from one cut-off to the next (R345); without any sample it is as at the
start. -/
def State.imuTerm (s : State) (n : Nat) (before c : Stamp) (prop : Option Nat) : List Byte × State :=
  let l := (s.imu n).upTo c
  let old := (l.filter (fun v => decide (v.tov ≤ (before : Int)))).getLast?
  let used := l.filter (fun v => decide ((before : Int) < v.tov))
  let flags := (if used.isEmpty then 0 else 1) + (if s.imuGapped n c then 2 else 0) + (if prop = some n then 4 else 0) +
    (if s.loop.brownSeen then 8 else 0)
  let dt := toWord32 (fp32.round (((c - before : Nat) : Rat) / 65536000000000) false)
  let age := match l.getLast? with | some v => ageNs c v.tov | none => 0xFFFFFFFF
  let (motion, rest, s) :=
    if l.isEmpty then ([0, 0, 0, 0x3F800000] ++ List.replicate 6 0, List.replicate 99 0, s)
    else s.preintWords (s.preintegrate n before c old used)
  (toLe 1 n ++ toLe 1 flags ++ toLe 2 used.length ++ toLe 4 dt ++ motion.flatMap wordBytes ++ toLe 4 age ++ rest.flatMap wordBytes, s)

/-- The joints of a chain, and the record of each that stands at a cut-off. -/
def State.chainJoints (s : State) (k : Nat) : List Nat := (List.range (s.legLength k)).map (fun i => s.trackNat 5 (64 * k + 0x10 + 4 * i) 2)
def State.jointAt (s : State) (j : Nat) (c : Stamp) : Option JointRecord :=
  (Store.get [] s.track.joints j).find? (fun r => decide (r.tov ≤ (c : Int)))

/-- A leg term (R351). Its age and STALE look at every record it uses, that of CONTACT_JOINT too. Where a joint of the chain has
no record the foot's pose and velocity are free. -/
def State.legTerm (s : State) (k : Nat) (c : Stamp) : List Byte × State :=
  let rs := (s.chainJoints k).map (fun j => s.jointAt j c)
  let valid := rs.all Option.isSome
  let touch := s.jointAt (s.trackNat 5 (64 * k + 4) 2) c
  let tovs := (rs ++ [touch]).filterMap (Option.map (·.tov))
  let contact := match touch with | some r => r.contact | none => false
  let first : Int := tovs.foldl min (c : Int)
  let stale := tovs.any (fun t => decide (t + usStamp (s.fld fld_TF_JOINT_CFG_STALE_US) < (c : Int)))
  let flags := (if valid then 1 else 0) + (if contact then 2 else 0) + (if stale then 4 else 0) + (if s.loop.brownSeen then 8 else 0)
  let foot := (allSome rs).bind (s.footOf k)
  let (q, s) := s.roundVec 4 (foot.map (·.1.take 4))
  let (t, s) := s.roundVec 3 (foot.map (·.1.drop 4))
  let (v, s) := s.roundVec 3 (foot.map (·.2))
  (toLe 1 k ++ toLe 1 flags ++ toLe 2 0 ++ toLe 4 (ageNs c first) ++ (q ++ t ++ v).flatMap wordBytes, s)

/-- Keep what later periods need: from each IMU and joint the newest at or before the cut-off, and all after it. -/
def State.pruneSamples (s : State) (c : Stamp) : State :=
  let s := (List.range 4).foldl (fun s n =>
    let t := s.imu n
    let old := t.upTo c
    s.setImu n { t with samples := old.drop (old.length - 1) ++ t.samples.filter (fun v => decide ((c : Int) < v.tov)) }) s
  { s with track := { s.track with joints := s.track.joints.map (fun e =>
      (e.1, e.2.filter (fun r => decide ((c : Int) < r.tov)) ++ (e.2.filter (fun r => decide (r.tov ≤ (c : Int)))).take 1)) } }

/-- Fault IMU_GAP with GAP set (R346, Table 16.3). -/
def State.raiseGap (s : State) (prop : Option Nat) : State :=
  let d := match prop with | some n => n | none => 4
  (s.setFlag fld_TF_STATUS_GAP true).raiseFault faultImuGap trackSwatch (BitVec.ofNat 32 d)

/-- Record the propagating IMU of the period, and what R346 raises. -/
def State.notePropagating (s : State) (c : Stamp) (prop : Option Nat) : State :=
  let wanted := (List.range 4).any s.imuPropagates
  let changed := match s.track.propagated, prop with
    | some (some a), some b => a != b
    | _, _ => false
  let s := if changed || (wanted && prop.isNone) then s.raiseGap prop else s
  let s := { s with track := { s.track with propagated := some prop } }
  let s := (s.setFlag fld_TF_STATUS_PROP_VALID prop.isSome).setFld fld_TF_STATUS_PROP_IMU (prop.getD 0)
  (List.range 4).foldl (fun s n =>
    (s.setFlag (fld_IMU_STATUS_PROPAGATING n) (prop == some n)).setFlag (fld_IMU_STATUS_GAPPED n) (s.imuOn n && s.imuGapped n c)) s

/-- A cut-off falls: what is written from now on at or before it is late, and the period's terms begin at the cut-off before it
in this run of the loop (R342, R345). -/
def State.noteCutoff (s : State) (c : Stamp) : State :=
  let s := { s with track := { s.track with lastCutoff := some c, termFrom := s.track.runCutoff, runCutoff := some c } }
  (List.range 4).foldl (fun s n =>
    s.setImu n { s.imu n with ahead := (s.imu n).samples.any (fun v => decide ((c : Int) < v.tov)) }) s

/-- The loop starts: no period before it counts (R346). -/
def State.startTerms (s : State) : State := { s with track := { s.track with runCutoff := none, termFrom := none, propagated := none } }

/-- Cut-off k − 1 of cut-off k at c; of the first period, a PERIOD before it. -/
def State.termStart (s : State) (c : Stamp) : Stamp := match s.track.termFrom with | some t => t | none => c - usStamp s.loop.period

/-- Publish the terms of the period whose cut-off is c (R345 to R347, R351). The first term of a run begins a period before it. -/
def State.publishTerms (s : State) (c : Stamp) : State :=
  let before := s.termStart c
  let prop := s.propagatingImu c
  let (terms, s) := ((List.range 4).filter s.imuOn).foldl (fun (x : List (List Byte) × State) n =>
    let (t, s) := x.2.imuTerm n before c prop
    (x.1 ++ [t], s)) ([], s)
  let (legs, s) := ((List.range 8).filter (fun k => s.legEnabled k && !s.legBad k)).foldl (fun (x : List (List Byte) × State) k =>
    let (t, s) := x.2.legTerm k c
    (x.1 ++ [t], s)) ([], s)
  let s := (s.notePropagating c prop).pruneSamples c
  { s with track := { s.track with terms := terms, legs := legs } }

/-! ### Feature tracks -/

/-- One feature track slot. -/
def State.feature (s : State) (slot : Nat) : FeatureTrack := Store.get FeatureTrack.reset s.track.features slot
def State.setFeature (s : State) (slot : Nat) (v : FeatureTrack) : State :=
  { s with track := { s.track with features := Store.set FeatureTrack.reset s.track.features slot v } }

def trackFree : Nat := 0
def trackActive : Nat := 1
def trackCoasting : Nat := 2

/-- The slots of a set's tracks, ascending. -/
def State.tracksOf (s : State) (i : Nat) : List Nat :=
  (s.track.features.filter (fun e => e.2.state != trackFree && e.2.set == i)).map (·.1)

/-- The lowest free slot (R353). -/
def State.freeFeature (s : State) : Option Nat := (List.range 65536).find? (fun k => (s.feature k).state == trackFree)

/-- TRACK_ID of a slot. -/
def State.featureId (s : State) (slot : Nat) : Nat := slot + (s.feature slot).reuse % 65536 * 65536

/-- Q16.16 divided by a power of two and rounded half away from zero. -/
def roundQ16 (v : Int) (scale : Nat) : Int := roundHalfAway' v (65536 * scale)
where
  /-- Nearest integer to a / b, halves away from zero. -/
  roundHalfAway' (a : Int) (b : Nat) : Int :=
    let n := (2 * a.natAbs + b) / (2 * b)
    if a < 0 then -(n : Int) else n

/-- What depth a place has (R355, step 2): ρ and σ_ρ as exact ratios, none where the transform's values are not finite or a
divisor is zero; or nothing where there is no depth. -/
def State.depthAt (s : State) (u : TrackUpdate) (stream transform disparity confidence confMin dsigma : Nat) (useConf : Bool) (x y : Nat) :
    Option (Option Rat × Option Rat) :=
  match (u.ins[if u.object then 1 else 2]?).join with
  | none => none
  | some (copy, _, _) =>
    let e := s.bufEntry disparity
    let scale := max 1 (s.streamWidth stream / max 1 e.width)
    let px := roundQ16 (signed 32 x) scale
    let py := roundQ16 (signed 32 y) scale
    let g : Gray := ⟨0, 0, e.width, e.height⟩
    if px < 0 ∨ py < 0 ∨ (g.width : Int) ≤ px ∨ (g.height : Int) ≤ py then none
    else
      let code := s.frameNat (e.copyBase copy + 64 + py.toNat * e.stride + 2 * px.toNat) 2
      let conf := match (u.ins[3]?).join with
        | some (cc, _, _) =>
          let ce := s.bufEntry confidence
          decide (confMin ≤ s.frameNat (ce.copyBase cc + 64 + py.toNat * ce.stride + px.toNat) 1)
        | none => confidence == noBuffer
      if 0xFFF0 ≤ code ∨ (useConf ∧ conf = false) then none
      else
        let den := mulRat (some 16) (mulRat (s.transformFp transform 0x20).rat? (s.transformFp transform 0x30).rat?)
        some (divRat (some ((scale * code : Nat) : Rat)) den, divRat (some ((scale * dsigma : Nat) : Rat)) den)

/-- A set's depth at a place. -/
def State.featureDepth (s : State) (f : FeatureSet) (u : TrackUpdate) (x y : Nat) : Option (Option Rat × Option Rat) :=
  s.depthAt u f.stream f.transform f.disparity f.confidence f.confMin f.dsigma (f.confidence != noBuffer) x y

/-- Give a track its depth (R355, step 2). -/
def State.giveDepth (s : State) (f : FeatureSet) (u : TrackUpdate) (slot : Nat) : State :=
  let t := s.feature slot
  match s.featureDepth f u t.x t.y with
  | some (rho, sigma) =>
    let (r, s) := s.nearFp? fp32 rho
    let (g, s) := s.nearFp? fp32 sigma
    s.setFeature slot { t with depthValid := true, rho := r, sigma := g }
  | none => s.setFeature slot { t with depthValid := false }

/-- A track counts a miss (R355, step 1). -/
def State.missTrack (s : State) (f : FeatureSet) (slot : Nat) : State :=
  let t := s.feature slot
  if f.maxMisses < t.misses + 1 then (s.setFeature slot { t with state := trackFree, misses := t.misses + 1 }).addSat fld_FT_LOSS_LOST 1
  else s.setFeature slot { t with state := trackCoasting, misses := t.misses + 1 }

/-- Records of a list that an update reads. -/
def State.updateList (s : State) (u : TrackUpdate) (i b : Nat) : List (List Byte) :=
  match (u.ins[i]?).join with
  | some (copy, _, _) =>
    let e := s.bufEntry b
    (List.range (min e.capacity (s.bufCount e copy))).map (s.listRecord e copy)
  | none => []

/-- Step 1 of R355 for one result record; the slots met and the slots found so far. -/
def State.takeResult (f : FeatureSet) (u : TrackUpdate) (x : List Nat × List Nat × State) (r : List Byte) : List Nat × List Nat × State :=
  let (met, found, s) := x
  let slot := field r 0 2
  let t := s.feature slot
  if t.state = trackFree ∨ t.set ≠ u.set ∨ s.featureId slot ≠ field r 0 4 then (met, found, s.addSat fld_FT_STALE_ID_STALE_ID 1)
  else if field r 0x0F 1 = 0 then
    (met ++ [slot], found ++ [slot], s.setFeature slot { t with x := field r 4 4, y := field r 8 4, tov := u.tov, length := t.length + 1, misses := 0, state := trackActive })
  else (met ++ [slot], found, s.missTrack f slot)

/-- Distance of two Q16.16 coordinates within MIN_SEP pixels. -/
def within (a b sep : Nat) : Bool := decide ((signed 32 a - signed 32 b).natAbs ≤ sep * 65536)

/-- Step 3 of R355 for one keypoint record; the newborn slots so far and the births counted. -/
def State.tryBirth (f : FeatureSet) (u : TrackUpdate) (x : List Nat × State) (r : List Byte) : List Nat × State :=
  let (born, s) := x
  let px := field r 0 4
  let py := field r 4 4
  let near := (s.tracksOf u.set).any (fun k => within (s.feature k).x px f.minSep && within (s.feature k).y py f.minSep)
  if near || decide (f.newMax ≤ born.length) then (born, s)
  else
    match s.freeFeature with
    | none => (born, s.addSat fld_FT_LOSS_FULL 1)
    | some slot =>
      let t : FeatureTrack := { FeatureTrack.reset with
        reuse := ((s.feature slot).reuse + 1) % 65536, set := u.set, state := trackActive, length := 1, birth := u.sequence, x := px, y := py, tov := u.tov }
      (born ++ [slot], (s.setFeature slot t).addWrap fld_FT_COUNTS_BORN 1)

/-- The propagating IMU's newest sample. -/
def State.propagatingSample (s : State) : Option ImuSample :=
  if s.flag fld_TF_STATUS_PROP_VALID then (s.imu (s.fld fld_TF_STATUS_PROP_IMU)).samples.getLast? else none

/-- Where a pixel lies a frame later (R356): the point at infinite depth, the body turning at the newest sample's rate less its
bias. None of that where a value is not finite; then nothing where the depth is not positive. -/
def State.predictPixel (s : State) (f : FeatureSet) (v : ImuSample) (x y : Nat) : Option (Option (Fix × Fix)) :=
  match s.transformPose f.transform, s.intrinsics f.transform, s.imuAxes (s.fld fld_TF_STATUS_PROP_IMU) v.raw, s.biases with
  | some p, some k, some w, some b =>
    let tau := fixSeconds (usStamp (s.fld (fld_STREAM_PERIOD_PERIOD_US f.stream)))
    let rs := p.take 4
    let rc := quatMul (quatConj rs) (quatMul (so3Exp (vecScale tau (vecSub w.1 b.1))) rs)
    some (projectPixel k (quatRot (quatConj rc) (pixelRay k (fixPixel x) (fixPixel y))))
  | _, _, _, _ => none

/-- A prediction (R356): it exists only where a propagating IMU does and the projection has positive depth. What PRED_X and
PRED_Y hold where it does not is not stated: they are free. -/
def State.predict (s : State) (f : FeatureSet) (slot : Nat) : State :=
  let t := s.feature slot
  match s.propagatingSample with
  | none => s.setFeature slot { t with predValid := false }
  | some v =>
    match s.predictPixel f v t.x t.y with
    | some (some (x, y)) =>
      let (px, s) := s.roundPixel x
      let (py, s) := s.roundPixel y
      s.setFeature slot { t with predValid := true, predX := px, predY := py }
    | r =>
      let (ok, s) := s.takeBit
      let (w, s) := s.takeWords 2
      s.setFeature slot { t with predValid := ok && r.isNone, predX := (w.getD 0 0).toNat, predY := (w.getD 1 0).toNat }

/-- A point record (Table 6.11). -/
def State.pointRecord (s : State) (slot : Nat) : List Byte :=
  let t := s.feature slot
  toLe 4 (s.featureId slot) ++ toLe 4 t.x ++ toLe 4 t.y ++ toLe 4 t.predX ++ toLe 4 t.predY ++ toLe 4 (if t.predValid then 1 else 0) ++ toLe 8 0

/-- The records of the buffers an update reads: time of validity in ns and flags. -/
def State.updateRecords (s : State) (u : TrackUpdate) (bufs : List Nat) : List (Nat × Nat) :=
  (bufs.zip u.ins).filterMap (fun x => x.2.map (fun c => s.inputRecord (s.bufEntry x.1) c.1))

/-- FLAGS of what an update makes: those of its inputs, with STALE and BROWN of its own (R211, R365). -/
def State.updateFlags (s : State) (u : TrackUpdate) (bufs : List Nat) : Nat :=
  let f := (s.updateRecords u bufs).foldl (fun f x => Nat.lor f x.2) 0
  Nat.lor (Nat.lor f (if u.stale then 1 else 0)) (if u.brown || s.brown then 2 else 0)

/-- AGE_NS of what an update makes of its buffers and, for predictions, of an IMU's newest sample (R341). -/
def State.updateAge (s : State) (u : TrackUpdate) (bufs : List Nat) (imu : Option ImuSample) : Nat :=
  let l := (s.updateRecords u bufs).map (·.1) ++ ((imu.map (fun v => tovNs v.tov)).toList)
  let first := l.foldl min (tovNs u.tov)
  min 0xFFFFFFFF (s.stamp / 65536 - first)

/-- A time of validity in seconds and nanoseconds. -/
def tov12 (t : Int) : List Byte := toLe 8 (stampSec t.toNat) ++ toLe 4 (stampNs t.toNat)

/-- Step 4 of R355: the point list is written and published. The record names no node, since a set is none: that byte is free. -/
def State.writePoints (s : State) (f : FeatureSet) (u : TrackUpdate) (bufs : List Nat) : State :=
  match u.points with
  | none => s
  | some (copy, m, _) =>
    let e := s.bufEntry f.points
    let slots := s.tracksOf u.set
    let s := slots.foldl (fun s k => s.predict f k) s
    let kept := slots.take e.capacity
    let flags := Nat.lor (s.updateFlags u bufs % 32) (if e.capacity < slots.length then 8 else 0)
    let (node, s) := s.takeBytes 1
    let rec_ := toLe 1 u.graph ++ node ++ toLe 2 flags ++ toLe 4 u.activation ++ toLe 4 u.instant ++ toLe 4 kept.length ++ tov12 u.tov ++
      toLe 4 (s.updateAge u bufs (if slots.isEmpty then none else s.propagatingSample)) ++ toLe 32 0
    let s := s.setFrameBytes (e.copyBase copy) (rec_ ++ kept.flatMap s.pointRecord)
    s.orProto m (setAgent false u.set) (s.publishOp m (setAgent false u.set))

/-- An observation record (R357). -/
def State.observation (s : State) (f : FeatureSet) (slot : Nat) : List Byte × State :=
  let t := s.feature slot
  let px (v : Nat) : Option Rat := some ((signed 32 v : Rat) / 65536)
  let k (off : Nat) := (s.transformFp f.transform off).rat?
  let (u, s) := s.nearFp? fp32 (divRat (subRat (px t.x) (k 0x28)) (k 0x20))
  let (v, s) := s.nearFp? fp32 (divRat (subRat (px t.y) (k 0x2C)) (k 0x24))
  if t.depthValid then
    let (r, s) := s.nearFp? fp16 (ofWord32 t.rho).rat?
    let (g, s) := s.nearFp? fp16 (ofWord32 t.sigma).rat?
    (toLe 4 (s.featureId slot) ++ toLe 4 u ++ toLe 4 v ++ toLe 2 r ++ toLe 2 g, s)
  else (toLe 4 (s.featureId slot) ++ toLe 4 u ++ toLe 4 v ++ toLe 4 0, s)

/-- Whether an update takes a keyframe (R357). -/
def State.keyframeDue (s : State) (f : FeatureSet) (u : TrackUpdate) : Bool :=
  let k := s.setState false u.set
  let old := ((s.tracksOf u.set).filter (fun t => (s.feature t).state == trackActive && decide ((s.feature t).birth ≤ k.keySequence))).length
  k.keyframes == 0 || decide (f.kfMax ≤ k.since + 1) || decide (256 * old < f.kfKeep * k.keyActive)

/-- A keyframe's record: LANDMARK where the position gives a depth (R357). -/
def State.landmarked (s : State) (f : FeatureSet) (u : TrackUpdate) (r : List Byte) : List Byte × State :=
  match s.featureDepth f u (field r 0 4) (field r 4 4) with
  | none => (r, s)
  | some (rho, _) =>
    let px (v : Nat) : Option Rat := some ((signed 32 v : Rat) / 65536)
    let k (off : Nat) := (s.transformFp f.transform off).rat?
    let z := divRat (some 1) rho
    let (a, s) := s.nearFp? fp32 (mulRat z (divRat (subRat (px (field r 0 4)) (k 0x28)) (k 0x20)))
    let (b, s) := s.nearFp? fp32 (mulRat z (divRat (subRat (px (field r 4 4)) (k 0x2C)) (k 0x24)))
    let (c, s) := s.nearFp? fp32 z
    (splice (splice r 0x0D (toLe 1 (Nat.lor (field r 0x0D 1) 4))) 0x70 (toLe 4 a ++ toLe 4 b ++ toLe 4 c), s)

/-- Write a keyframe: the object it went to, 0 where none, and whether records were left out (R357). -/
def State.takeKeyframe (s : State) (f : FeatureSet) (u : TrackUpdate) : Nat × Bool × State :=
  let k := s.setState false u.set
  let active := ((s.tracksOf u.set).filter (fun t => (s.feature t).state == trackActive)).length
  let s := s.putSetState false u.set { k with keyframes := k.keyframes + 1, since := 0, keySequence := u.sequence, keyActive := active }
  if f.kfSlots = 0 then (0, false, s)
  else
    let obj := f.kfObj + k.keyframes % f.kfSlots
    let all := s.updateList u 0 f.keypoints
    let (l, s) := (all.take 4096).foldl (fun (x : List Byte × State) r =>
      let (b, s) := x.2.landmarked f u r
      (x.1 ++ b, s)) ([], s)
    let s := if s.canAccess obj 0 l.length then (s.touch obj).writeObject obj 0 l else s
    (obj, decide (4096 < all.length), s)

/-- The 64-byte header of a batch (R357). -/
def batchHeader (set flags count sequence : Nat) (tov : Int) (age kf : Nat) : List Byte :=
  toLe 1 set ++ toLe 1 flags ++ toLe 2 count ++ toLe 4 sequence ++ tov12 tov ++ toLe 4 age ++ toLe 4 kf ++ toLe 36 0

/-- Publish a batch (R30, R357, R362). -/
def State.publishBatch (s : State) (object : Bool) (i : Nat) (b : List Byte) : State :=
  let s := if object then s.offerObjects i b else s
  { s with track := { s.track with batches := Store.set [] s.track.batches ((if object then 16 else 0) + i) b, batchCount := s.track.batchCount + 1 } }

/-- The window settings, object 0x30 of SOLV_1 (R416), and whether a feature set is the estimator set (R423). -/
def State.windowNat (s : State) (off n : Nat) : Nat := s.objNat 14 0x30 off n
def State.estimatorSet (s : State) (set : Nat) : Bool := decide (0 < s.objLen 14 0x30) && s.windowNat 0 1 == set

/-- A track batch of the estimator set waits for its window run, whose deadline is the set's (R354, R423). -/
def State.offerBatch (s : State) (u : TrackUpdate) (keypoints : Nat) (b : List Byte) : State :=
  if s.estimatorSet u.set then
    let deadline := match (s.graph u.graph).act with
      | some a => if a.number = u.activation + 1 then a.deadline else u.due
      | none => u.due
    { s with window := { s.window with waiting := s.window.waiting ++ [(deadline, keypoints, b)] } }
  else s

/-- Step 5 of R355: the track batch, and the keyframe where one is due. -/
def State.writeBatch (s : State) (f : FeatureSet) (u : TrackUpdate) (bufs slots : List Nat) : State :=
  let due := s.keyframeDue f u
  let records := if due ∧ f.kfSlots ≠ 0 then min 4096 (s.updateList u 0 f.keypoints).length else 0
  let (kf, cut, s) := if due then s.takeKeyframe f u
    else (0, false, s.putSetState false u.set { s.setState false u.set with since := (s.setState false u.set).since + 1 })
  let (obs, s) := slots.foldl (fun (x : List Byte × State) k =>
    let (o, s) := x.2.observation f k
    (x.1 ++ o, s)) ([], s)
  let fl := s.updateFlags u bufs
  let flags := fl % 8 + (if due then 8 else 0) + (if bit fl 3 || cut then 16 else 0)
  let b := batchHeader u.set flags slots.length u.sequence u.tov (s.updateAge u bufs none) kf ++ obs
  (s.publishBatch false u.set b).offerBatch u records b

/-- Tracks not FREE (R369). -/
def State.countFeatures (s : State) : State :=
  s.setFld fld_FT_USE_ACTIVE (s.track.features.filter (fun e => e.2.state != trackFree)).length

/-- The whole of an update of a feature set (R355). -/
def State.runFeatureUpdate (s : State) (u : TrackUpdate) : State :=
  let f := s.featureSet u.set
  let bufs := [f.keypoints, f.results, f.disparity, f.confidence]
  let before := s.tracksOf u.set
  let (met, found, s) := (s.updateList u 1 f.results).foldl (State.takeResult f u) ([], [], s)
  let s := (before.filter (fun k => !met.contains k)).foldl (fun s k => s.missTrack f k) s
  let s := found.foldl (fun s k => s.giveDepth f u k) s
  let (born, s) := (s.updateList u 0 f.keypoints).foldl (State.tryBirth f u) ([], s)
  let s := born.foldl (fun s k => s.giveDepth f u k) s
  let s := s.writePoints f u bufs
  let slots := (s.tracksOf u.set).filter (fun k => found.contains k || born.contains k)
  let s := s.writeBatch f u bufs slots
  let s := s.putSetState false u.set { s.setState false u.set with lastTov := some u.tov }
  ((s.closeUpdate u false).startNext false u.set).countFeatures

/-- FEATURE_UPDATE_DONE (R354, R355). -/
def execFeatureUpdateDone (set : Fin 12) (s : State) : Host.Outcome State Fault Refusal :=
  match s.trackUpdate false set with
  | some u => if s.swatchRuns trackSwatch then .next (s.runFeatureUpdate u) else .next s
  | none => .next s

/-- TRACKING_UPDATE_DROP (R354). -/
def execTrackingUpdateDrop (object : Bool) (set : Fin 12) (s : State) : Host.Outcome State Fault Refusal :=
  match s.trackUpdate object set with
  | some u => if s.swatchRuns trackSwatch then .next (s.dropUpdates u.same) else .next s
  | none => .next s

end Sys2Proof.Machine
end

