-- ==== Sys2Proof/Machine/SolverCore.lean ====
section
/-!
DEFINITION. What a solver core does between its steps: slots and residency, the queue, feeding, the kinds' working matrices and
right-hand sides, results and stops (R378 to R401).
-/
namespace Sys2Proof.Machine

/-! ### Slots -/

/-- The swatch of a core. -/
def solverSwatch (c : Nat) : Nat := 13 + c

/-- A slot, and setting one. -/
def State.solverSlot (s : State) (c k : Nat) : SolverSlot := Store.get SolverSlot.empty s.solv.slots (8 * c + k)
def State.setSolverSlot (s : State) (c k : Nat) (v : SolverSlot) : State :=
  { s with solv := { s.solv with slots := Store.set SolverSlot.empty s.solv.slots (8 * c + k) v } }

/-- The structure of a slot, while it is resident. -/
def State.structureOf (s : State) (c k : Nat) : Option Structure := (s.solverSlot c k).struct

/-- Residency codes of Table 11.4. -/
def codeEmpty : Nat := 0
def codeResident : Nat := 1
def codeBadFormat : Nat := 2
def codeBadSignature : Nat := 3
def codeCapacity : Nat := 4
def codeNoStore : Nat := 5
def codeClassARefused : Nat := 6
def codePairDiff : Nat := 7

/-- The Class A loop is paired. -/
def State.paired (s : State) : Bool := s.flag fld_CLA_CTRL_PAIRED

/-- The core store that slots may fill (Table 11.5). -/
def State.storeLimit (s : State) (c : Nat) : Nat := (23552 - (if c = 0 ∨ s.paired = true then 1024 else 0)) * 1024

/-- The footprints of a core's other resident slots. -/
def State.storeUsed (s : State) (c k : Nat) : Nat :=
  ((List.range 8).map (fun j =>
    if j = k then 0 else match s.structureOf c j with | some t => t.footprint | none => 0)).sum

/-- The QP settings of a slot (R416). -/
def State.qpBytes (s : State) (c k : Nat) : List Byte :=
  s.objBytes (solverSwatch c) (0x21 + k) 0 (s.objLen (solverSwatch c) (0x21 + k))

/-- The words of initial values. -/
def initialValues (t : Structure) (bytes : List Byte) : Store Word :=
  Store.setMany 0 [] 0 ((numbers 4 (min (bytes.length / 4) t.valueLength) bytes).map (BitVec.ofNat 32))

/-- The first code of Table 11.4 that applies to a descriptor, but for PAIR_DIFF; `refused` says whether a structure fails a
check of R381. -/
def State.residencyCode (s : State) (c k : Nat) (d : List Byte) (refused : Structure → Bool) : Nat :=
  if d.isEmpty then codeEmpty
  else if !formatOk d then codeBadFormat
  else
    let t := (readStructure d).analyse
    if t.computedSignature ≠ t.signature ∨ t.factorEntries ≠ t.nnzL then codeBadSignature
    else if 4194304 < t.nnzL then codeCapacity
    else if s.storeLimit c < s.storeUsed c k + t.footprint then codeNoStore
    else if t.classA && refused t then codeClassARefused
    else codeResident

/-- Analyse a slot (R376, R378): its code, and while resident its structure and initial values. -/
def State.analyseSlot (s : State) (c k : Nat) (d values : List Byte) (runtime : Bool) (refused : Structure → Bool) : State :=
  let code := s.residencyCode c k d refused
  if code = codeResident then
    let t := (readStructure d).analyse
    s.setSolverSlot c k { SolverSlot.empty with code := code, runtime := runtime, struct := some t, values := initialValues t values }
  else s.setSolverSlot c k { SolverSlot.empty with code := code, runtime := runtime && code != codeEmpty }

/-! ### Problems -/

/-- The problem a core runs. -/
def State.problem (s : State) (c : Nat) : Option Problem := Store.get none s.solv.running c
def State.setProblem (s : State) (c : Nat) (p : Option Problem) : State :=
  { s with solv := { s.solv with running := Store.set none s.solv.running c p } }

/-- A request's 64 bytes (Table 11.7); no requester but the Class A sequencer sets CLASS_A. -/
def readRequest (b : List Byte) : SolverRequest :=
  let f := field b 2 2
  { slot := field b 0 1, feed := field b 1 1 % 4, flags := f % 4, iterMax := field b 4 2, refactMax := field b 6 1,
    feedObj := field b 8 4, deltaCount := field b 0x0C 4, warmObj := field b 0x10 4,
    deadline := mkStamp (field b 0x18 8) (field b 0x20 4), tov := mkStamp (field b 0x24 8) (field b 0x2C 4),
    params := slice b 0x30 16 }

/-- FORCE_REFACT and WARM. -/
def SolverRequest.force (r : SolverRequest) : Bool := bit r.flags 0
def SolverRequest.wantsWarm (r : SolverRequest) : Bool := bit r.flags 1

/-- TRAIL of an NLS or a LINEAR request (R419, R422). -/
def SolverRequest.trail (r : SolverRequest) (kind : Nat) : Nat := if kind = kindNls then field r.params 12 2 else field r.params 0 2

/-- The descriptor that a slot's data records loaded, whether there is one, and whether it sets CLASS_A (R374). -/
def State.descriptor (s : State) (c k : Nat) : List Byte :=
  s.objBytes (solverSwatch c) (1 + k) 0 (s.objLen (solverSwatch c) (1 + k))
def State.hasDescriptor (s : State) (c k : Nat) : Bool := decide (0 < s.objLen (solverSwatch c) (1 + k))
def State.classASlot (s : State) (c k : Nat) : Bool :=
  bit (field (s.descriptor c k) 7 1) 0 || (match s.structureOf c k with | some t => t.classA | none => false)

/-- A problem names a slot. -/
def State.slotNamed (s : State) (k : Nat) : Bool :=
  s.solv.queue.any (fun e => e.2.slot == k) || (match s.problem 1 with | some p => p.request.slot == k | none => false) ||
    (match s.solv.suspended with | some p => p.request.slot == k | none => false)

/-- What a task was told last comes first: a record, or nothing where its request was refused or lost. -/
def State.tell (s : State) (t : SolverTask) (record : List Byte) : State :=
  { s with solv := { s.solv with told := (t, record) :: s.solv.told.filter (fun e => e.1 != t) } }

/-- Queue a request on SOLV_1 by deadline, earlier arrival first among equals, or refuse it (R397). The answer says which. -/
def State.submit (s : State) (t : SolverTask) (r : SolverRequest) : Bool × State :=
  if 16 ≤ s.solv.queue.length ∨ 8 ≤ r.slot ∨ (s.solverSlot 1 r.slot).code ≠ codeResident then
    (false, (s.addSat (fld_SOLV_QUEUE_REFUSED 1) 1).tell t [])
  else
    (true, { s with solv := { s.solv with
      queue := insertBy (fun a b => decide (a.2.deadline < b.2.deadline)) (t, r) s.solv.queue } })

/-- The SOLV_CFG register that governs a problem (R411). -/
def configCore (c : Nat) (t : SolverTask) : Nat := if t = .classA then 0 else c

/-! ### Feeding -/

/-- Words of an object from an offset. -/
def State.objectWords (s : State) (id off n : Nat) : List Word := toWords n (s.memBytes id off (4 * n))

/-- An input word of the template, 1.0 where the index is 0xFFFFFFFF (R384). -/
def inputWord (inputs : Store Word) (i : Nat) : Fp := if i = 0xFFFFFFFF then Fp.one else ofWord32 (Store.get 0 inputs i).toNat

/-- One template entry applied to its slot's accumulator (R384). -/
def applyEntry (inputs : Store Word) (acc : Store (Option Fp)) (e : TemplateEntry) : Store (Option Fp) :=
  let x := (Store.get none acc e.dst).getD Fp.zero
  let a := inputWord inputs e.a
  let y := match e.op with
    | 0 => a
    | 1 => fp64.add x a
    | 2 => fp64.add x (a.times (inputWord inputs e.b))
    | _ => fp64.sub x (a.times (inputWord inputs e.b))
  Store.set none acc e.dst (some y)

/-- Template assembly (R384): the values with each named slot rounded from its accumulator, and whether a matrix slot is among
them. -/
def Structure.assemble (t : Structure) (values inputs : Store Word) : Store Word × Bool :=
  let acc := t.template.foldl (applyEntry inputs) []
  (acc.foldl (fun v e => Store.set 0 v e.1 (BitVec.ofNat 32 (toWord32 (toFp32 (e.2.getD Fp.zero))))) values,
    t.template.any (fun e => decide (e.dst < t.nnzK)))

/-- A delta list (R383): the values after it, the entries skipped, and whether a matrix slot was written. Entries are index word
and value. -/
def Structure.applyDeltas (t : Structure) (values : Store Word) (l : List (Nat × Word)) : Store Word × Nat × Bool :=
  let go := fun (x : Store Word × Nat × Bool) (e : Nat × Word) =>
    let i := e.1 % 2 ^ 28
    let op := e.1 / 2 ^ 28
    if 1 < op ∨ t.valueLength ≤ i then (x.1, x.2.1 + 1, x.2.2)
    else
      let v := if op = 0 then e.2
        else BitVec.ofNat 32 (toWord32 (fp32.add (ofWord32 (Store.get 0 x.1 i).toNat) (ofWord32 e.2.toNat)))
      (Store.set 0 x.1 i v, x.2.1, x.2.2 || decide (i < t.nnzK))
  let (v, skipped, wrote) := (l.take t.deltaCap).foldl go (values, 0, false)
  (v, skipped + (l.length - t.deltaCap), wrote)

/-- The delta entries of an object (R383, Table 11.7). -/
def State.deltasFrom (s : State) (r : SolverRequest) : List (Nat × Word) :=
  (pieces 8 r.deltaCount (s.memBytes r.feedObj 0 (8 * r.deltaCount))).map (fun e => (field e 0 4, BitVec.ofNat 32 (field e 4 4)))

/-! ### Working matrices and right-hand sides -/

/-- The point that a value array's STATE segment holds (R419). -/
def Structure.statePoint (t : Structure) (values : Store Word) : List Word :=
  let len := match t.segs.find? (fun e => e.1 == 1) with | some e => e.2 | none => 0
  (List.range len).map (fun i => Store.get 0 values (t.segment 1 + i))

/-- A QP of a slot under a problem's ρ. -/
def State.slotQp (s : State) (c : Nat) (t : Structure) (p : Problem) : Qp :=
  t.qp (s.solverSlot c p.request.slot).values (readQpSettings (s.qpBytes c p.request.slot)) (if p.rho.isEmpty then none else some p.rho)

/-- M and the diagonal terms that made it (R382, R386, R421, R433). -/
def State.workingMatrix (s : State) (c : Nat) (t : Structure) (p : Problem) : Matrix × List Fp :=
  let values := (s.solverSlot c p.request.slot).values
  if t.kind = kindQp then let q := s.slotQp c t p; (q.matrix, q.diag)
  else if t.kind = kindNls then
    ((t.matrixValues values).map (fun e =>
      (e.1, e.2.1, if e.1 = e.2.1 then fp32.rnd (e.2.2.plus (p.lambda.times e.2.2)) else e.2.2)), [p.lambda])
  else (t.matrixValues values, [])

/-- The right-hand side of a problem's next solve. -/
def State.solveRhs (s : State) (c : Nat) (t : Structure) (p : Problem) : List Fp :=
  let values := (s.solverSlot c p.request.slot).values
  if t.kind = kindQp then (s.slotQp c t p).rhs p.cur
  else if t.kind = kindNls then (t.segmentValues values 0 t.n).map Fp.opp
  else t.segmentValues values 0 t.n

/-- A problem refactorises (R386). -/
def State.mustFactorise (s : State) (c : Nat) (t : Structure) (p : Problem) : Bool :=
  let v := s.solverSlot c p.request.slot
  match v.factor with
  | none => true
  | some f => v.dirty || p.request.force || f.diag != (s.workingMatrix c t p).2

/-- The slot's current factor is proved. -/
def State.factorProved (s : State) (c k : Nat) : Bool := match (s.solverSlot c k).factor with | some f => f.proved | none => false

/-- Discard a factor as under R401: with DOUBLE_FACTOR the one before it is current again, its proof with it. `installed` says
whether the factor had become current. -/
def State.discardFactor (s : State) (c k : Nat) (t : Structure) (installed : Bool) : State :=
  let v := s.solverSlot c k
  if t.doubleFactor then
    (if installed then s.setSolverSlot c k { v with factor := v.other, other := none, dirty := true } else s)
  else s.setSolverSlot c k { v with factor := none, dirty := true }

/-- Two factors are the same but for their proof. -/
def Factor.same (a b : Factor) : Bool := a.d == b.d && a.cols == b.cols && a.diag == b.diag

/-! ### Results -/

/-- Status codes of Table 11.9. -/
def solSolved : Nat := 0
def solInaccurate : Nat := 1
def solDeadlineIter : Nat := 2
def solDeadlineFact : Nat := 3
def solWarmReject : Nat := 4
def solInfeasible : Nat := 5
def solNumeric : Nat := 6
def solMismatch : Nat := 7

/-- FP64 values as bytes. -/
def fpBytes (l : List Fp) : List Byte := l.flatMap (fun x => toLe 8 (fp64.encode x))
def fp32Bytes (l : List Fp) : List Byte := l.flatMap (fun x => toLe 4 (toWord32 x))

/-- The trailing factor's D, and its L strictly below the diagonal, row major in pivot order (R422). -/
def trailing (f : Factor) (n trail : Nat) : List Byte :=
  let lo := n - trail
  fp32Bytes (f.d.drop lo) ++ (List.range trail).flatMap (fun r => (List.range r).flatMap (fun k =>
    toLe 4 (toWord32 ((storedAt (f.cols.getD (lo + k) []) (lo + r)).getD Fp.zero))))

/-- The payload of a problem (R422, R436). -/
def State.payloadOf (s : State) (c : Nat) (t : Structure) (p : Problem) (status : Nat) : List Byte :=
  if t.kind = kindQp then
    let cert := if status = solInfeasible then p.cert else 0
    let x := if cert = 2 then zip2 fp64.sub p.cur.x p.prev.x else p.cur.x
    let y := if cert = 1 then zip2 fp64.sub p.cur.y p.prev.y else p.cur.y
    toLe 4 t.n1 ++ toLe 4 (t.n - t.n1) ++ fpBytes [p.rp, p.rd] ++ toLe 8 cert ++ fpBytes x ++ fpBytes p.cur.z ++ fpBytes y
  else
    let trail := p.request.trail t.kind
    let tail := match (s.solverSlot c p.request.slot).factor with | some f => trailing f t.n trail | none => []
    if t.kind = kindNls then
      fpBytes [p.costFirst, p.cost] ++ toLe 4 (toWord32 p.lambda) ++ toLe 2 p.accepted ++ toLe 2 trail ++ toLe 8 0 ++
        p.point.flatMap wordBytes ++ tail
    else (match p.last with | some v => fpBytes v.sol | none => []) ++ tail

/-- The factor that a problem's result rests on is proved: an NLS problem's is that of its last accepted step. -/
def State.usedProved (s : State) (c : Nat) (t : Structure) (p : Problem) : Bool :=
  match t.kind == kindNls, p.kept with
  | true, some v => v.factor.proved
  | _, _ => s.factorProved c p.request.slot

/-- A result record (Table 11.8), `cycles` and `brown` as given. -/
def State.resultRecord (s : State) (c : Nat) (t : Structure) (p : Problem) (status stopPhase cycles : Nat) (brown : Bool) : List Byte :=
  let b (v : Bool) (k : Nat) : Nat := if v then 2 ^ k else 0
  let flags := b p.warmRejected 0 + b p.checkFail 1 + b p.pivotCol.isSome 2 + b p.skipped 3 + b p.refactored 4 + b brown 5 +
    b (s.usedProved c t p) 7
  toLe 1 status ++ toLe 1 flags ++ toLe 1 stopPhase ++ toLe 1 p.request.slot ++ toLe 2 p.iterations ++ toLe 1 p.refineSteps ++
    toLe 1 0 ++ toLe 8 t.signature ++ toLe 8 (fp64.encode (p.eta.getD .nan)) ++ toLe 4 (p.pivotCol.getD 0xFFFFFFFF) ++
    toLe 4 (min 0xFFFFFFFF cycles) ++ toLe 8 p.number ++ tov12 p.request.tov ++ toLe 12 0 ++ s.payloadOf c t p status

/-- The end of a problem as its record and what goes with it; CYCLES and BROWN stand at zero in what is compared (R406). -/
def State.resultOf (s : State) (c : Nat) (t : Structure) (p : Problem) (status stopPhase : Nat) : SolverResult :=
  let brown := p.brown || s.brown
  { task := p.task, status := status, record := s.resultRecord c t p status stopPhase p.cycles brown,
    compared := s.resultRecord c t p status stopPhase 0 false, brown := brown, signature := t.signature,
    warmRejected := p.warmRejected, iterate := p.cur }

/-- Count a status code (R413). -/
def State.countStatus (s : State) (c status : Nat) : State :=
  s.addSat (match status with
    | 0 => fld_SOLV_CODES_0_SOLVED c
    | 1 => fld_SOLV_CODES_0_SOLVED_INACCURATE c
    | 2 => fld_SOLV_CODES_1_DEADLINE_ITER c
    | 3 => fld_SOLV_CODES_1_DEADLINE_FACT c
    | 4 => fld_SOLV_CODES_2_WARM_REJECT c
    | 5 => fld_SOLV_CODES_2_INFEASIBLE c
    | 6 => fld_SOLV_CODES_3_NUMERIC c
    | _ => fld_SOLV_CODES_3_MISMATCH c) 1

/-- A step of a core took cycles: they count in the problem and, at the core's clock, in its busy time (R413). -/
def State.spend (s : State) (c cycles : Nat) (p : Problem) : Problem × State :=
  let ns := cycles * 1000 / max 1 (s.mhz (solverSwatch c))
  ({ p with cycles := p.cycles + cycles, ns := p.ns + ns }, s.addBusy (fld_SOLV_BUSY_BUSY_US c) ns)

/-- A failed check of a factor's proof or a final solution (R395, Table 16.3). -/
def State.checkFailed (s : State) (c : Nat) (proof : Bool) : State :=
  (s.addSat (fld_SOLV_ERR_CHECK_FAIL c) 1).raiseFault faultSolverCheck (solverSwatch c)
    (BitVec.ofNat 32 (c + (if proof then 4 else 0)))

/-! ### Starting -/

/-- Zero iterates of a structure. -/
def Structure.zeroIterate (t : Structure) : Iterate :=
  ⟨List.replicate t.n1 Fp.zero, List.replicate (t.n - t.n1) Fp.zero, List.replicate (t.n - t.n1) Fp.zero⟩

/-- FP64 values of an object. -/
def State.objectFps (s : State) (id off n : Nat) : List Fp := (numbers 8 n (s.memBytes id off (8 * n))).map fp64.decode

/-- The warm start of a Class B or Class C request: the record's signature with its iterates, and an NLS point (R400). -/
def State.warmIterate (s : State) (t : Structure) (obj : Nat) : Iterate :=
  let n := t.n1
  let m := t.n - t.n1
  ⟨s.objectFps obj 96 n, s.objectFps obj (96 + 8 * n) m, s.objectFps obj (96 + 8 * (n + m)) m⟩

/-- A problem at its start, cold. -/
def newProblem (r : SolverRequest) (task : SolverTask) (number : Nat) (t : Structure) (values : Store Word) (now : Stamp) (brown : Bool) : Problem :=
  { request := r, task := task, number := number, phase := 1, stage := .assembly, cycles := 0, ns := 0, waitNs := 0,
    pausedAt := now, brown := brown, warmRejected := false, skipped := false, refactored := false, checkFail := false,
    pivotCol := none, iterations := 0, refactors := 0, refineSteps := 0, eta := none, inputs := [], deltas := [], warm := none,
    proofs := [], steps := 0, last := none, kept := none, cur := t.zeroIterate, prev := t.zeroIterate, rho := [], rp := Fp.zero,
    rd := Fp.zero, full := false, acceptable := false, cert := 0, ended := false, point := t.statePoint values,
    from_ := t.statePoint values, lambda := ofWord32 (field r.params 4 4), costFirst := Fp.zero, cost := Fp.zero, accepted := 0 }

/-- Use a warm start where its signature is the slot's, or reject it; either counts (R400). -/
def State.useWarm (s : State) (c : Nat) (t : Structure) (signature : Nat) (w : Iterate) (point : List Word) (p : Problem) : Problem × State :=
  if signature = t.signature then
    ({ p with cur := if t.kind = kindQp then w else p.cur, point := if t.kind = kindNls then point else p.point },
      s.addSat (fld_SOLV_WARM_WARM_USED c) 1)
  else ({ p with warmRejected := true }, s.addSat (fld_SOLV_WARM_WARM_REJECTED c) 1)

end Sys2Proof.Machine
end

