-- ==== Sys2Proof/Machine/ClassASettings.lean ====
section
/-!
DEFINITION. The Class A settings, their frame entries, and what makes a slot fit for Class A (R381, R416, R431, R432, R440, R549).
-/
namespace Sys2Proof.Machine

/-- The Class A settings that a core reads: object 0x30 of SOLV_0, and object 0x32 of SOLV_1 while paired (R416). -/
def State.settingsBytes (s : State) (c : Nat) : List Byte :=
  let o := if c = 0 then 0x30 else 0x32
  s.objBytes (solverSwatch c) o 0 (s.objLen (solverSwatch c) o)

/-- A number of the settings (Table 12.6). -/
def State.setting (s : State) (off n : Nat) : Nat := s.objNat (solverSwatch 0) 0x30 off n

/-- A frame entry (R440). -/
structure FrameEntry where
  port : Nat
  check : Nat
  length : Nat
  template : Nat
  payload : Nat
  fields : Nat
  fieldsAt : Nat
  delay : Nat
  zero : Nat
  deriving DecidableEq, Repr

/-- Where the frame entries begin, directly after CONST. -/
def framesAt (b : List Byte) : Nat := 0x40 + 4 * field b 0x1A 2
def frameCount (b : List Byte) : Nat := field b 0x1E 1

/-- Frame entry i. -/
def frameEntry (b : List Byte) (i : Nat) : FrameEntry :=
  let e := slice b (framesAt b + 32 * i) 32
  ⟨field e 0 1, field e 1 1, field e 2 2, field e 4 4, field e 8 2, field e 10 2, field e 12 4, field e 16 4, leNat (slice e 20 12)⟩

/-- The frame entries. -/
def frameEntries (b : List Byte) : List FrameEntry := (List.range (frameCount b)).map (frameEntry b)

/-- A field entry (R440): SRC, FORMAT, the byte after it, SCALE and SAFE. -/
structure FieldEntry where
  src : Nat
  format : Nat
  zero : Nat
  scale : Word
  safe : Word
  deriving DecidableEq, Repr

/-- The field entries of a frame. -/
def fieldEntries (b : List Byte) (e : FrameEntry) : List FieldEntry :=
  (List.range e.fields).map (fun j =>
    let f := slice b (e.fieldsAt + 12 * j) 12
    ⟨field f 0 2, field f 2 1, field f 3 1, BitVec.ofNat 32 (field f 4 4), BitVec.ofNat 32 (field f 8 4)⟩)

/-- Bytes a field takes in the frame, and the checked bytes of a frame: its header and fields (R549). -/
def FieldEntry.bytes (f : FieldEntry) : Nat := if f.format = 1 then 2 else 4
def checkedBytes (b : List Byte) (e : FrameEntry) : Nat := 32 + ((fieldEntries b e).map FieldEntry.bytes).sum

/-- A frame entry keeps to R440. -/
def frameOk (b : List Byte) (e : FrameEntry) : Bool :=
  let stop := framesAt b + 32 * frameCount b
  decide (e.port ≤ 1) && decide (e.check ≤ 7) && decide (64 ≤ e.length) && decide (e.length ≤ 1522) && decide (e.fields ≤ 100) &&
    decide (e.delay ≤ 50000) && e.zero == 0 && decide (stop ≤ e.template) && decide (e.template + e.length ≤ b.length) &&
    (e.fields == 0 || (decide (stop ≤ e.fieldsAt) && decide (e.fieldsAt + 12 * e.fields ≤ b.length))) &&
    (fieldEntries b e).all (fun f => decide (f.format ≤ 2) && f.zero == 0) &&
    decide (e.payload + checkedBytes b e + 4 ≤ e.length)

/-- Bits set in a byte. -/
def onesIn (n : Nat) : Nat := ((List.range 8).filter (bit n)).length

/-- C, P, d and s of settings (R431). -/
def settingsChains (b : List Byte) : Nat := onesIn (field b 0 1)
def settingsDims (b : List Byte) : Nat := 30 + 3 * settingsChains b + field b 2 2
def settingsTail (b : List Byte) : Nat := 30 + 3 * settingsChains b

/-- Every range and zero field of Table 12.6 holds, and every frame entry keeps to R440. -/
def settingsOk (b : List Byte) : Bool :=
  decide (0x40 ≤ b.length) && decide (1 ≤ field b 1 1) && decide (field b 1 1 ≤ 40) && decide (settingsDims b ≤ 512) &&
    decide (1 ≤ field b 0x0C 1) && decide (field b 0x0C 1 ≤ 128) && decide (1 ≤ field b 0x0D 1) &&
    decide (1 ≤ field b 0x0E 2) && decide (field b 0x0E 2 ≤ 256) && decide (1 ≤ field b 0x10 2) && decide (field b 0x10 2 ≤ 1000) &&
    decide (field b 0x1A 2 ≤ 1024) && decide (field b 0x1C 2 ≤ 4096) && decide (1 ≤ frameCount b) && decide (frameCount b ≤ 64) &&
    (slice b 0x1F 33).all (· == 0) && decide (framesAt b + 32 * frameCount b ≤ b.length) && (frameEntries b).all (frameOk b)

/-- The units that the frames name, each once. -/
def frameUnits (b : List Byte) : List Nat := (List.range 8).filter (fun u => (frameEntries b).any (fun e => e.check == u))

/-- A unit cannot serve the actuator frames (R549). -/
def State.unitBad (s : State) (b : List Byte) (u : Nat) : Bool :=
  s.fld (fld_CHECK_CFG_POLY u) != 3 ||
    ((List.range 16).any (fun t => s.flag (fld_TX_STREAM_CFG_ENABLE t)) && s.fld fld_HL_CFG_HDR_CHECK == u) ||
    (s.flag fld_HL_CFG_CMD_ENABLE && s.fld fld_HL_CFG_CMD_CHECK == u) ||
    decide (2000 < (((frameEntries b).filter (fun e => e.check == u)).map (checkedBytes b)).sum)

/-- The units that refuse a slot (R549). -/
def State.badUnits (s : State) (b : List Byte) : List Nat := (frameUnits b).filter (s.unitBad b)

/-- Whether a structure in slot k of a core fails a check of R381, with those of R389, R416, R432, R440 and R549 that refuse a Class
A slot in the same way. -/
def State.classARefuses (s : State) (c k : Nat) (t : Structure) : Bool :=
  let b := s.settingsBytes c
  let feed := s.fld fld_SOLV_A_CFG_FEED
  let g := settingsTail b
  !(decide (t.n ≤ 4096) && decide (t.nnzL ≤ 524288) && t.kind == kindQp && (!bit feed 1 || !t.template.isEmpty) && t.doubleFactor &&
    t.scheduleOk feed (s.fld (fld_SOLV_CFG_REFINE_MAX 0)) && settingsOk b && !qpSettingsBad (s.qpBytes c k) &&
    decide (estCycles (settingsDims b) g (15 + 3 * settingsChains b) 128 ≤ 21600) && (s.badUnits b).isEmpty)

/-- A slot of SOLV_0 is resident for Class A (R381). -/
def State.readyForClassA (s : State) (k : Nat) : Bool :=
  (s.solverSlot 0 k).code == codeResident &&
    (match s.structureOf 0 k with | some t => t.classA && !s.classARefuses 0 k t | none => false)

end Sys2Proof.Machine
end

