-- ==== Sys2Proof/Machine/Estimation.lean ====
section
/-!
DEFINITION. The formulas of estimation over real numbers: composed terms, variable blocks, and the factors with their whitening and
derivatives (R417 to R421, R425).
-/
namespace Sys2Proof.Machine

/-! ### Composed terms (R425) -/

/-- A composition: ΔR, ΔV, ΔP, Σ and J, and Δt. -/
structure Composition where
  term : Preint
  dt : Fix
  deriving DecidableEq, Repr

/-- The start of a composition. -/
def Composition.start : Composition := ⟨Preint.start, 0⟩

/-- A composition from words: Δt, ΔR, ΔV, ΔP, the upper triangle of Σ, and J by rows; none where one is not finite. -/
def compositionOf (l : List Word) : Option Composition :=
  (wordFixes l).map (fun v =>
    ⟨⟨(v.drop 1).take 4, (v.drop 5).take 3, (v.drop 8).take 3, symOf 9 ((v.drop 11).take 45),
      (List.range 9).map (fun i => (v.drop (56 + 6 * i)).take 6)⟩, fixAt v 0⟩)

/-- The words of a preintegrated term in that order (Table 10.5). -/
def termWords (b : List Byte) : List Word := toWords 11 (b.drop 4) ++ toWords 99 (b.drop 0x34)

/-- A term moved to other biases to first order through its J. -/
def Preint.correct (db : List Fix) (p : Preint) : Preint :=
  let d := matVec p.jb db
  { p with dr := quatMul p.dr (so3Exp (d.take 3)), dv := vecAdd p.dv ((d.drop 3).take 3), dp := vecAdd p.dp (d.drop 6) }

/-- Add a term of interval δ to a composition. -/
def Composition.add (x : Composition) (t : Preint) (delta : Fix) : Composition :=
  let p := x.term
  let r := geomMat p.dr
  let i := matId 3
  let z := matZero 3 3
  let a := blocks3 [[matTrans 3 (geomMat t.dr), z, z], [matScale (-fixOne) (matMul 3 r (skew t.dv)), i, z],
    [matScale (-fixOne) (matMul 3 r (skew t.dp)), matScale delta i, i]]
  let b := blocks3 [[i, z, z], [z, r, z], [z, z, r]]
  ⟨{ dp := vecAdd p.dp (vecAdd (vecScale delta p.dv) (matVec r t.dp)),
     dv := vecAdd p.dv (matVec r t.dv),
     sigma := matAdd (matMul 9 (matMul 9 a p.sigma) (matTrans 9 a)) (matMul 9 (matMul 9 b t.sigma) (matTrans 9 b)),
     jb := matAdd (matMul 6 a p.jb) (matMul 6 b t.jb),
     dr := quatMul p.dr t.dr }, x.dt + delta⟩

/-- Compose terms in ascending period order about reference biases; none where a value is not finite. -/
def composeTerms (ref : List Fix) (l : List StoredTerm) : Option Composition :=
  l.foldl (fun x t =>
    match x, compositionOf (termWords t.bytes), wordFixes (t.bias ++ List.replicate (6 - t.bias.length) 0) with
    | some x, some c, some b => some (x.add (c.term.correct (vecSub ref b)) c.dt)
    | _, _, _ => none) (some Composition.start)

/-- The words of a composition, rounded once to FP32. -/
def composedWords (ref : List Word) (l : List StoredTerm) : List Word :=
  let err := Config.solverError 0 ((ref ++ l.flatMap (fun t => t.bias ++ termWords t.bytes)).map (·.toNat))
  match (wordFixes ref).bind (fun r => composeTerms r l) with
  | some c =>
    let p := c.term
    let part (v : List Fix) : List (Fix × Fix) := v.map (fun x => (x, fixMost v))
    wordsBy err (part [c.dt] ++ part p.dr ++ part p.dv ++ part p.dp ++ part (upperOf 9 p.sigma) ++ part p.jb.flatten)
  | none => openWords err 110

/-! ### Variable blocks (Table 12.2) -/

/-- A block's point moved by an error, and the error between two points. -/
def blockMove (type : Nat) (p d : List Fix) : List Fix :=
  match type with
  | 0 => quatMul (p.take 4) (so3Exp (d.take 3)) ++ vecAdd (p.drop 4) (d.drop 3)
  | 1 => geomMul p (se3Exp d)
  | _ => vecAdd p d
def blockDiff (type : Nat) (p mu : List Fix) : List Fix :=
  match type with
  | 0 => so3Log (quatMul (quatConj (mu.take 4)) (p.take 4)) ++ vecSub (p.drop 4) (mu.drop 4)
  | 1 => se3Log (geomMul (geomInv mu) p)
  | _ => vecSub p mu

/-- The words of a point moved by a solution: R271's FP64 arithmetic, rounded once to FP32 (R417). -/
def retractWords (type : Nat) (point : List Word) (d : List Fp) : List Word :=
  let err := Config.solverError 3 (type :: point.map (·.toNat) ++ d.map fp64.encode)
  match wordFixes point, fixes d with
  | some p, some d =>
    let q := blockMove type p d
    let parts := if type = 0 then [q.take 4, (q.drop 4).take 3, (q.drop 7).take 3, (q.drop 10).take 3, q.drop 13]
      else if type = 1 then [q.take 4, q.drop 4] else q.map (fun x => [x])
    wordsBy err (parts.flatMap (fun l => l.map (fun x => (x, fixMost l))))
  | _, _ => openWords err point.length

/-! ### Factors (Table 12.4) -/

/-- A factor with its data: a PRIOR's block types and μ, an IMU factor's composition, b̄ and GRAVITY, and so on. -/
inductive FactorForm where
  | prior (types : List Nat) (mu : List (List Fix))
  | imu (c : Composition) (ref : List Fix) (gravity : Fix)
  | visual (bearing target camera : List Fix)
  | depth (rho : Fix)
  | leg (foot : List Fix)
  | relpose (t : List Fix)
  | poseFix (t : List Fix)
  deriving DecidableEq, Repr

/-- Parts of a NAV: q, v, p, b_g with b_a. -/
def navQ (n : List Fix) : List Fix := n.take 4
def navV (n : List Fix) : List Fix := (n.drop 4).take 3
def navP (n : List Fix) : List Fix := (n.drop 7).take 3
def navB (n : List Fix) : List Fix := n.drop 10

/-- A vector of the map frame in the body frame of a NAV. -/
def toBody (n v : List Fix) : List Fix := geomRot (quatConj (navQ n)) v

/-- g in the map frame (R417). -/
def gravityOf (g : Fix) : List Fix := [0, 0, -g]

/-- The residual of an IMU factor between NAV i and NAV j. -/
def imuResidual (c : Composition) (ref : List Fix) (gravity : Fix) (i j : List Fix) : List Fix :=
  let t := c.term.correct (vecSub (navB i) ref)
  let g := gravityOf gravity
  let d := c.dt
  so3Log (quatMul (quatConj t.dr) (quatMul (quatConj (navQ i)) (navQ j))) ++
    vecSub (toBody i (vecSub (vecSub (navV j) (navV i)) (vecScale d g))) t.dv ++
    vecSub (toBody i (vecSub (vecSub (vecSub (navP j) (navP i)) (vecScale d (navV i))) ((vecScale (fixMul d d) g).map fixHalf))) t.dp ++
    vecSub (navB j) (navB i)

/-- The residual of a VISUAL factor; none where a depth is zero. -/
def visualResidual (bearing target camera host tgt : List Fix) (rho : Fix) : Option (List Fix) :=
  if rho = 0 then none
  else
    let pose (n : List Fix) : List Fix := navQ n ++ navP n
    let through (p v : List Fix) : List Fix := vecAdd (geomRot (p.take 4) v) (p.drop 4)
    let x := (bearing ++ [fixOne]).map (fun v => fixDiv v rho)
    let x := through (geomInv camera) (through (geomInv (pose tgt)) (through (pose host) (through camera x)))
    if fixAt x 2 = 0 then none
    else some [fixDiv (fixAt x 0) (fixAt x 2) - fixAt target 0, fixDiv (fixAt x 1) (fixAt x 2) - fixAt target 1]

/-- The residual r before whitening at the points of a factor's blocks. -/
def FactorForm.residual (f : FactorForm) (pts : List (List Fix)) : Option (List Fix) :=
  let p (i : Nat) : List Fix := pts.getD i []
  match f with
  | .prior types mu => some (((types.zip pts).zip mu).flatMap (fun e => blockDiff e.1.1 e.1.2 e.2))
  | .imu c ref g => some (imuResidual c ref g (p 0) (p 1))
  | .visual b t k => visualResidual b t k (p 0) (p 1) (fixAt (p 2) 0)
  | .depth rho => some [fixAt (p 0) 0 - rho]
  | .leg foot => some (vecSub (vecAdd (navP (p 0)) (geomRot (navQ (p 0)) foot)) (p 1))
  | .relpose t => some (se3Log (geomMul (geomInv t) (geomMul (geomInv (p 0)) (p 1))))
  | .poseFix t => some (se3Log (geomMul (geomInv t) (p 0)))

/-- The whitening matrix of a factor: U for a PRIOR, of which `u` holds the upper triangle by rows. -/
def whitenUpper (n : Nat) (u : List Fix) : List (List Fix) := mkMat n n (fun i j => if j < i then 0 else matAt (symOf n u) i j)

/-- The upper factor U of an information matrix, UᵀU; none where it has no Cholesky factor. -/
def whitenInfo (n : Nat) (info : List (List Fix)) : Option (List (List Fix)) := (cholesky n info).map (matTrans n)

/-- The whitening of IMU rows: the first nine by the Cholesky factor of Σ⁻¹, the bias rows by 1/(σ√Δt). -/
def whitenImu (c : Composition) (sg sa : Fix) : Option (List (List Fix)) :=
  let bias (s : Fix) : Fix := fixMul s (fixSqrt c.dt)
  if bias sg = 0 ∨ bias sa = 0 then none
  else
    ((matInverse 9 c.term.sigma).bind (whitenInfo 9)).map (fun u => mkMat 15 15 (fun i j =>
      if i < 9 ∧ j < 9 then matAt u i j else if i = j then fixDiv fixOne (bias (if i < 12 then sg else sa)) else 0))

/-- The whitening by 1/SIGMA; none of a zero SIGMA. -/
def whitenSigma (n : Nat) (sigma : Fix) : Option (List (List Fix)) :=
  if sigma = 0 then none else some (matScale (fixDiv fixOne sigma) (matId n))

/-- A factor at a point: its whitened and scaled Jacobian by rows, its residual, and ρ_f(‖r‖²). -/
structure FactorRows where
  jacobian : List (List Fix)
  residual : List Fix
  cost : Fix
  /-- What the residual's FP64 evaluation is measured against. -/
  scale : Fix
  deriving DecidableEq, Repr

/-- ρ and √ρ′ of HUBER k at s = ‖r‖², the identity for 0 (R419). -/
def huberOf (k s : Fix) : Fix × Fix :=
  let n := fixSqrt s
  if k = 0 ∨ n ≤ k then (s, fixOne) else (2 * fixMul k n - fixMul k k, fixSqrt (fixDiv k n))

/-- Evaluate a factor at the points of its blocks (R420): the derivative is taken in each block's error. -/
def FactorForm.rows (f : FactorForm) (types dims : List Nat) (w : List (List Fix)) (huber : Fix) (pts : List (List Fix)) : Option FactorRows :=
  (f.residual pts).map (fun r =>
    let moved (x : List Fix) : List (List Fix) :=
      ((types.zip dims).zip pts).zipIdx.map (fun e => blockMove e.1.1.1 e.1.2 ((x.drop ((dims.take e.2).sum)).take e.1.1.2))
    let j := derivative dims.sum (fun x => (f.residual (moved x)).getD r)
    let v := matVec w r
    let (cost, k) := huberOf huber (vecDot v v)
    { jacobian := matScale k (matTrans w.length (j.map (matVec w))), residual := vecScale k v, cost := cost,
      scale := fixMul (fixMost (w.map (fun row => row.foldl (fun a x => a + fixAbs x) 0))) (fixMost pts.flatten + fixMost r + fixOne) / 2 ^ 10 })

/-- The words of a factor's rows (R420), each rounded once to FP32: every row across the blocks in BLOCK order, then the residual. A
Jacobian's error is measured at 2^-26 of its row, a residual's at 2^-34 of itself and 2^-44 of what it was formed from. -/
def FactorRows.words (err : Nat → BitVec 64) (x : FactorRows) : List Word :=
  wordsBy err (x.jacobian.flatMap (fun r => r.map (fun v => (v, fixMost r * 2 ^ 8))) ++
    x.residual.map (fun v => (v, fixMost x.residual + x.scale)))

end Sys2Proof.Machine
end

