-- ==== Sys2Proof/Machine/NlsModel.lean ====
section
/-!
DEFINITION. NLS models as objects hold them: blocks, factors, their evaluation at a point, the cost, and the retraction (R417, R419 to
R421).
-/
namespace Sys2Proof.Machine

/-- Error dimensions and point words of a block (Table 12.2). -/
def blockDims (type dim : Nat) : Nat := match type with | 0 => 15 | 1 => 6 | 2 => 3 | 3 => 1 | _ => dim
def blockWords (type dim : Nat) : Nat := match type with | 0 => 16 | 1 => 7 | 2 => 3 | 3 => 1 | _ => dim

/-- A block entry of a model (R419). -/
structure ModelBlock where
  type : Nat
  dim : Nat
  var : Nat
  point : Nat
  deriving DecidableEq, Repr
def readBlock (e : List Byte) : ModelBlock := ⟨field e 0 1, field e 2 2, field e 4 4, field e 8 4⟩
def ModelBlock.dims (b : ModelBlock) : Nat := blockDims b.type b.dim
def ModelBlock.words (b : ModelBlock) : Nat := blockWords b.type b.dim

/-- The words of a block in a point. -/
def ModelBlock.part (b : ModelBlock) (point : List Word) : List Word := (List.range b.words).map (fun i => point.getD (b.point + i) 0)

/-- Where a model lies: an object and a byte of it. -/
structure ModelAt where
  obj : Nat
  at_ : Nat
  deriving DecidableEq, Repr

/-- The blocks and the factor entries of a model (R419). -/
def State.modelBlocks (s : State) (m : ModelAt) : List ModelBlock :=
  let n := min (s.memNat m.obj m.at_ 4) 65536
  (pieces 16 n (s.memBytes m.obj (m.at_ + 16) (16 * n))).map readBlock
def State.modelFactors (s : State) (m : ModelAt) : List (List Byte) :=
  let n := min (s.memNat m.obj (m.at_ + 4) 4) 65536
  pieces 32 n (s.memBytes m.obj (m.at_ + 16 + 16 * min (s.memNat m.obj m.at_ 4) 65536) (32 * n))

/-- The blocks that the window's own PRIOR covers: all but its landmarks and its newest frame, which stands last (log entry 66). -/
def priorBlocks (blocks : List ModelBlock) : List Nat :=
  (List.range (blocks.length - 1)).filter (fun i => match blocks[i]? with | some b => b.type != 3 | none => false)

/-- The blocks of a factor entry. A PRIOR that names none is the window's own. -/
def factorBlocks (blocks : List ModelBlock) (f : List Byte) : List ModelBlock :=
  let named := [field f 2 2, field f 4 2, field f 6 2].filter (· != 0xFFFF)
  (if named.isEmpty && field f 0 1 == 0 then priorBlocks blocks else named).filterMap (fun b => blocks[b]?)

/-- The rows of a factor TYPE (Table 12.4). -/
def factorRows (type dims : Nat) : Nat := match type with | 0 => dims | 1 => 15 | 2 => 2 | 3 => 1 | 4 => 3 | _ => 6

/-- The words a factor writes into the input area: first and count (R420). -/
def factorWords (blocks : List ModelBlock) (f : List Byte) : Nat × Nat :=
  let dims := ((factorBlocks blocks f).map ModelBlock.dims).sum
  let rows := factorRows (field f 0 1) dims
  (field f 8 4, rows * dims + rows)

/-- The words of data of a factor (Table 12.4; log entry 66 has their layout). -/
def dataWords (type points dims : Nat) : Nat :=
  match type with
  | 0 => points + dims * (dims + 1) / 2
  | 1 => 118
  | 2 => 5
  | 3 => 1
  | 4 => 3
  | 5 => 28
  | 6 => 7
  | _ => 0

/-- The data of a factor entry. -/
def State.factorData (s : State) (m : ModelAt) (blocks : List ModelBlock) (f : List Byte) : List Word :=
  let b := factorBlocks blocks f
  s.objectWords m.obj (m.at_ + field f 12 4) (dataWords (field f 0 1) (b.map ModelBlock.words).sum (b.map ModelBlock.dims).sum)

/-- GRAVITY (Table 12.6). -/
def State.gravity (s : State) : Option Fix := (ofWord32 (s.setting 4 4)).fix?

/-- Split a list into consecutive pieces of given lengths. -/
def splitBy {α : Type} : List Nat → List α → List (List α)
  | [], _ => []
  | n :: r, l => l.take n :: splitBy r (l.drop n)

/-- A factor's form and its whitening from its data; none where a value is not finite or the whitening does not exist. -/
def State.factorForm (s : State) (type : Nat) (blocks : List ModelBlock) (sigma : Fp) (data : List Word) : Option (FactorForm × List (List Fix)) :=
  let dims := (blocks.map ModelBlock.dims).sum
  let part (off n : Nat) : Option (List Fix) := wordFixes ((data.drop off).take n)
  let bySigma (n : Nat) : Option (List (List Fix)) := sigma.fix?.bind (whitenSigma n)
  match type with
  | 0 =>
    let words := blocks.map ModelBlock.words
    match part 0 words.sum, part words.sum (dims * (dims + 1) / 2) with
    | some mu, some u => some (.prior (blocks.map (·.type)) (splitBy words mu), whitenUpper dims u)
    | _, _ => none
  | 1 =>
    match compositionOf (data.take 110), part 110 6, part 116 2, s.gravity with
    | some c, some ref, some sg, some g => (whitenImu c (fixAt sg 0) (fixAt sg 1)).map (fun w => (.imu c ref g, w))
    | _, _, _, _ => none
  | 2 =>
    match part 0 4, s.transformPose (data.getD 4 0).toNat, bySigma 2 with
    | some v, some k, some w => some (.visual (v.take 2) (v.drop 2) k, w)
    | _, _, _ => none
  | 3 => match part 0 1, bySigma 1 with | some v, some w => some (.depth (fixAt v 0), w) | _, _ => none
  | 4 => match part 0 3, bySigma 3 with | some v, some w => some (.leg v, w) | _, _ => none
  | 5 => match part 0 7, (part 7 21).bind (fun l => whitenInfo 6 (symOf 6 l)) with | some v, some w => some (.relpose v, w) | _, _ => none
  | 6 => match part 0 7, bySigma 6 with | some v, some w => some (.poseFix v, w) | _, _ => none
  | _ => none

/-- A factor at a point, and the bits that its evaluation depends on (R373, R420). -/
def State.factorAt (s : State) (m : ModelAt) (blocks : List ModelBlock) (point : List Word) (f : List Byte) : Option FactorRows × List Nat :=
  let b := factorBlocks blocks f
  let data := s.factorData m blocks f
  let pts := b.map (fun x => x.part point)
  let rows := match s.factorForm (field f 0 1) b (ofWord32 (field f 20 4)) data, (ofWord32 (field f 16 4)).fix?, allSome (pts.map wordFixes) with
    | some (form, w), some k, some p => form.rows (b.map (·.type)) (b.map ModelBlock.dims) w k p
    | _, _, _ => none
  (rows, field f 0 1 :: field f 16 4 :: field f 20 4 :: (data ++ pts.flatten).map (·.toNat))

/-- The words of a factor: its Jacobian and its residual (R420); open where its operands have no result. -/
def State.factorOutput (s : State) (m : ModelAt) (blocks : List ModelBlock) (point : List Word) (f : List Byte) : List Word :=
  let (rows, bits) := s.factorAt m blocks point f
  let err := Config.solverError 1 bits
  match rows with
  | some r => r.words err
  | none => openWords err (factorWords blocks f).2

/-- The input area with every factor's Jacobian blocks and residual written into it (R420). -/
def State.evaluateFactors (s : State) (m : ModelAt) (point : List Word) (inputs : Store Word) : Store Word :=
  let blocks := s.modelBlocks m
  (s.modelFactors m).foldl (fun x f => Store.setMany 0 x (factorWords blocks f).1 (s.factorOutput m blocks point f)) inputs

/-- ρ_f(‖r_f‖²) of a factor as FP64 holds it; open, but not negative, where it has no result. -/
def State.factorCost (s : State) (m : ModelAt) (blocks : List ModelBlock) (point : List Word) (f : List Byte) : Fp :=
  let (rows, bits) := s.factorAt m blocks point f
  let e := Config.solverError 2 bits 0
  match rows with
  | some r => fp64.round (fixToRat (fixNudge r.cost r.cost e.toNat)) false
  | none => (fp64.decode e.toNat).abs

/-- The cost at a point (R419), summed in FP64 in factor order (R421). -/
def State.costAt (s : State) (m : ModelAt) (point : List Word) : Fp :=
  let blocks := s.modelBlocks m
  fp64.mul (Fp.ofRat (1 / 2)) ((s.modelFactors m).foldl (fun x f => fp64.add x (s.factorCost m blocks point f)) Fp.zero)

/-- θ ⊞ δ, block by block (R417, R421). -/
def State.retract (s : State) (m : ModelAt) (point : List Word) (delta : List Fp) : List Word :=
  (s.modelBlocks m).foldl (fun l b =>
    splice l b.point (retractWords b.type (b.part point) ((List.range b.dims).map (fun i => elem delta (b.var + i))))) point

end Sys2Proof.Machine
end

