-- ==== Sys2Proof/Machine/Window.lean ====
section
/-!
DEFINITION. The window task: frames, landmark slots, the model it writes, and what a run publishes (R418, R423 to R426).
-/
namespace Sys2Proof.Machine

/-! ### Settings (Table 12.5) -/

def State.windowFrames (s : State) : Nat := max 2 (s.windowNat 3 1)
def State.windowLandmarks (s : State) : Nat := s.windowNat 4 2
def State.windowParams (s : State) : Nat := s.windowNat 6 2
def State.windowChains (s : State) : List Nat := (List.range 8).filter (fun c => bit (s.windowNat 8 1) c)

/-- Set the window. -/
def State.setWindow (s : State) (w : Window) : State := { s with window := w }

/-- d_p, the error dimensions of a prior: parameters, feet and a NAV (R426). -/
def State.priorDim (s : State) : Nat := s.windowParams + 3 * s.windowChains.length + 15

/-- An estimate record reaches the window task, which keeps the newest 128 (R418). -/
def State.noteEstimate (s : State) (e : EstimateEntry) : State :=
  let l := s.window.estimates ++ [e]
  s.setWindow { s.window with estimates := l.drop (l.length - 128) }

/-! ### Frames and landmarks -/

/-- COUNT and the observations of a batch (R357), its flags and its time of validity. -/
def batchCountOf (b : List Byte) : Nat := field b 2 2
def batchObservations (b : List Byte) : List (List Byte) := pieces 16 (batchCountOf b) (b.drop 64)
def batchFlags (b : List Byte) : Nat := field b 1 1
def batchTov (b : List Byte) : Stamp := mkStamp (field b 8 8) (field b 0x10 4)

/-- An observation's track, and whether it has depth. -/
def obsTrack (o : List Byte) : Nat := field o 0 4
def obsDepth (o : List Byte) : Bool := field o 12 2 != 0

/-- The estimate of the last cut-off at or before a time (R423). -/
def Window.estimateAt (w : Window) (t : Stamp) : Option EstimateEntry :=
  (w.estimates.filter (fun e => decide (e.cutoff ≤ t))).getLast?

/-- The landmark slot of a track. -/
def Window.slotOfTrack (w : Window) (track : Nat) : Option Nat :=
  (w.landmarks.find? (fun e => match e.2 with | some x => x.1 == track | none => false)).map (·.1)

/-- A track's first observation with depth takes the lowest free landmark slot (R424). -/
def Window.takeSlot (count host : Nat) (w : Window) (o : List Byte) : Window :=
  if obsDepth o = false ∨ (w.slotOfTrack (obsTrack o)).isSome then w
  else
    match (List.range count).find? (fun k => (Store.get none w.landmarks k).isNone) with
    | some k => { w with landmarks := Store.set none w.landmarks k (some (obsTrack o, host)) }
    | none => w

/-- The NAV words of an estimate record: q, v, p, b_g, b_a (Tables 12.2 and 12.3). -/
def navWords (r : List Word) : List Word :=
  (List.range 4).map (fun i => r.getD i 0) ++ (List.range 3).map (fun i => r.getD (16 + i) 0) ++
    (List.range 3).map (fun i => r.getD (13 + i) 0) ++ (List.range 6).map (fun i => r.getD (22 + i) 0)

/-- A NAV at rest at the origin. -/
def restNav : List Word := [0, 0, 0, 0x3F800000] ++ List.replicate 12 0

/-- A point before any run, in the order of R424: landmarks, frames but the newest, parameters, feet, newest frame. -/
def State.firstPoint (s : State) : List Word :=
  List.replicate s.windowLandmarks 0 ++ (List.replicate (s.windowFrames - 1) restNav).flatten ++
    List.replicate (s.windowParams + 3 * s.windowChains.length) 0 ++ restNav

/-- A point moved down by a frame, the newest frame given (R423, R424). -/
def State.movePoint (s : State) (point newest : List Word) : List Word :=
  let l := s.windowLandmarks
  let w := s.windowFrames
  let mid := s.windowParams + 3 * s.windowChains.length
  let frames := (point.drop l).take (16 * (w - 1)) ++ (point.drop (l + 16 * (w - 1) + mid)).take 16
  point.take l ++ frames.drop 16 ++ (point.drop (l + 16 * (w - 1))).take mid ++ newest

/-! ### Observations at their cut-off (R423) -/

/-- An observation as the window uses it: U and V, with ρ where it has depth. -/
structure Sighting where
  u : Word
  v : Word
  rho : Word
  deriving DecidableEq, Repr

/-- A point of a camera (the ray [U, V, 1] over ρ, or a direction where there is no depth) moved from a time to the cut-off `dt`
before it: the body turns by ω and moves by v. -/
def movedRay (camera q v w : List Fix) (dt : Fix) (depth : Bool) (x : List Fix) : List Fix :=
  let r := camera.take 4
  let t := if depth then camera.drop 4 else [0, 0, 0]
  let step := if depth then geomRot (quatConj q) (vecScale dt v) else [0, 0, 0]
  let y := vecAdd (geomRot (so3Exp (vecScale dt w)) (vecAdd (geomRot r x) t)) step
  geomRot (quatConj r) (vecSub y t)

/-- The camera entry of the estimator set. -/
def State.windowCamera (s : State) : Nat := (s.featureSet (s.windowNat 0 1)).transform

/-- An observation of a frame moved to its cut-off with the record's v and ω (R423); open where a value is not finite or the point does
not lie before the camera. How the move goes is not stated: with depth the point moves, without it its direction turns (log entry
66). -/
def State.sighting (s : State) (f : WindowFrame) (o : List Byte) : Sighting :=
  let e := f.estimate
  let raw := [BitVec.ofNat 32 (field o 4 4), BitVec.ofNat 32 (field o 8 4), BitVec.ofNat 32 (toWord32 (fp16.decode (field o 12 2)))]
  let err := Config.solverError 4 (raw.map (·.toNat) ++ [batchTov f.batch - e.cutoff] ++ (e.words.take 22).map (·.toNat))
  let dt := fixSeconds ((batchTov f.batch : Int) - e.cutoff)
  let words : List Word := match s.transformPose s.windowCamera, wordFixes (e.words.take 22), wordFixes raw with
    | some k, some r, some d =>
      let deep := obsDepth o && fixAt d 2 != 0
      let ray := [fixAt d 0, fixAt d 1, fixOne].map (fun x => if deep then fixDiv x (fixAt d 2) else x)
      let y := movedRay k (r.take 4) ((r.drop 16).take 3) ((r.drop 19).take 3) dt deep ray
      if fixAt y 2 ≤ 0 then openWords err 3
      else wordsBy err ([fixDiv (fixAt y 0) (fixAt y 2), fixDiv (fixAt y 1) (fixAt y 2), fixDiv fixOne (fixAt y 2)].map (fun x => (x, fixOne + fixAbs x)))
    | _, _, _ => openWords err 3
  ⟨words.getD 0 0, words.getD 1 0, words.getD 2 0⟩

/-- The observation of a track in a frame. -/
def WindowFrame.seen (f : WindowFrame) (track : Nat) : Option (List Byte) := (batchObservations f.batch).find? (fun o => obsTrack o == track)

/-- The landmarks that a frame hosts take its inverse depth of them as their first point. -/
def State.seedLandmarks (s : State) (f : WindowFrame) (point : List Word) : List Word :=
  s.window.landmarks.foldl (fun l e => match e.2 with
    | some (track, host) => if host = f.order then
        match f.seen track with | some o => setAt l e.1 (s.sighting f o).rho | none => l
      else l
    | none => l) point

/-- A new frame enters: where the window is full, slot 0 leaves with the landmarks it hosts (R423, R424). -/
def State.enterFrame (s : State) (e : EstimateEntry) (b : List Byte) : State :=
  let w := s.window
  let full := decide (s.windowFrames ≤ w.frames.length)
  let leaving := if full then w.frames.head?.map (·.order) else none
  let w := { w with
    frames := (if full then w.frames.tail else w.frames) ++ [⟨e, b, w.count⟩],
    landmarks := w.landmarks.filter (fun x => match x.2, leaving with | some y, some o => y.2 != o | _, _ => true) }
  let w := (batchObservations b).foldl (Window.takeSlot s.windowLandmarks w.count) w
  let point := s.movePoint (if w.point.isEmpty then s.firstPoint else w.point) (navWords e.words)
  let s := s.setWindow { w with count := w.count + 1 }
  s.setWindow { s.window with point := s.seedLandmarks ⟨e, b, w.count⟩ point }

/-! ### The model -/

/-- The window slot of a frame by its place among those held. -/
def State.frameSlot (s : State) (i : Nat) : Nat := s.windowFrames - s.window.frames.length + i

/-- A model's entries (R419). -/
def blockEntry (type dim var point : Nat) : List Byte :=
  toLe 1 type ++ toLe 1 0 ++ toLe 2 dim ++ toLe 4 var ++ toLe 4 point ++ toLe 4 0
def factorEntry (type : Nat) (blocks : List Nat) (input data : Nat) (huber sigma : Word) : List Byte :=
  toLe 1 type ++ toLe 1 0 ++ ([0, 1, 2].flatMap (fun i => toLe 2 (blocks.getD i 0xFFFF))) ++ toLe 4 input ++ toLe 4 data ++
    wordBytes huber ++ wordBytes sigma ++ toLe 8 0

/-- Blocks of the window, each with its type and DIM, in the order of R424; a parameter block holds up to 64. -/
def State.windowBlocks (s : State) : List (Nat × Nat) :=
  let p := s.windowParams
  List.replicate s.windowLandmarks (3, 1) ++ List.replicate (s.windowFrames - 1) (0, 0) ++
    ((List.range (ceilDiv p 64)).map (fun i => (4, min 64 (p - 64 * i)))) ++ s.windowChains.map (fun _ => (2, 0)) ++ [(0, 0)]

/-- Entries of a list of blocks, dimensions and words counted up. -/
def blockEntries (l : List (Nat × Nat)) : List Byte :=
  (l.foldl (fun (x : List Byte × Nat × Nat) b =>
    (x.1 ++ blockEntry b.1 b.2 x.2.1 x.2.2, x.2.1 + blockDims b.1 b.2, x.2.2 + blockWords b.1 b.2)) ([], 0, 0)).1

/-- The block of a window slot, and of a foot. -/
def State.frameBlock (s : State) (slot : Nat) : Nat :=
  if slot + 1 = s.windowFrames then s.windowBlocks.length - 1 else s.windowLandmarks + slot
def State.footBlock (s : State) (i : Nat) : Nat := s.windowBlocks.length - 1 - s.windowChains.length + i

/-- The terms of the periods between two frames, where all are there (R425). -/
def Window.termsBetween (w : Window) (a b : EstimateEntry) : Option (List StoredTerm) :=
  allSome ((List.range (b.period - a.period)).map (fun i =>
    (w.estimates.find? (fun e => e.period == a.period + 1 + i)).bind (·.term)))

/-- A factor of the window's model (Table 12.4): its blocks, HUBER, SIGMA and data. -/
structure WindowFactor where
  type : Nat
  blocks : List Nat
  huber : Word
  sigma : Word
  data : List Word
  deriving DecidableEq, Repr

/-- Words of a 1 and of a FP16 value. -/
def oneWord : Word := 0x3F800000
def halfWord (n : Nat) : Word := BitVec.ofNat 32 (toWord32 (fp16.decode n))

/-- The upper triangle of I by rows. -/
def upperOne (n : Nat) : List Word := (List.range n).flatMap (fun i => oneWord :: List.replicate (n - 1 - i) 0)

/-- The PRIOR of a slot never yet filled (R423): μ a NAV at rest at the origin, U = I. -/
def State.emptyPrior (s : State) (slot : Nat) : WindowFactor := ⟨0, [s.frameBlock slot], 0, 0, restNav ++ upperOne 15⟩

/-- U = √D Lᵀ of a trailing factor of n pivots (R424), by rows. -/
def priorUpper (n : Nat) (tail : List Byte) : List Word :=
  let words := toWords (n + n * (n - 1) / 2) tail
  let err := Config.solverError 5 (words.map (·.toNat))
  let l (i j : Nat) : Fix := if i = j then fixOne else ((ofWord32 (words.getD (n + i * (i - 1) / 2 + j) 0).toNat).fix?).getD 0
  wordsBy err ((List.range n).flatMap (fun i =>
    let d := fixSqrt (((ofWord32 (words.getD i 0).toNat).fix?).getD 0)
    (List.range (n - i)).map (fun k => let v := fixMul d (l (i + k) i); (v, v))))

/-- Dimensions of all that the window's own PRIOR covers: every frame but the newest, the parameters and the feet (log entry 66). -/
def State.coveredDims (s : State) : Nat := 15 * (s.windowFrames - 1) + s.windowParams + 3 * s.windowChains.length

/-- The window PRIOR of the last marginalisation. -/
def State.windowPrior (s : State) : List WindowFactor :=
  let w := s.window
  if w.prior.isEmpty then [] else [⟨0, [], 0, 0, w.mu ++ priorUpper s.coveredDims w.prior⟩]

/-- An IMU factor between consecutive frames, about the biases at which the first stands. -/
def State.imuFactor (s : State) (a b : WindowFrame × Nat) : Option WindowFactor :=
  (s.window.termsBetween a.1.estimate b.1.estimate).map (fun l =>
    let slot := s.frameSlot a.2
    let at_ := s.windowLandmarks + 16 * slot
    let ref := (List.range 6).map (fun i => s.window.point.getD (at_ + 10 + i) 0)
    ⟨1, [s.frameBlock slot, s.frameBlock (s.frameSlot b.2)], 0, 0, composedWords ref l ++ ref ++ [Config.biasSigma 0, Config.biasSigma 1]⟩)

/-- The LEG_CONTACT factors of a frame; their SIGMA is FOOT_SIGMA. -/
def State.legFactors (s : State) (f : WindowFrame × Nat) : List WindowFactor :=
  (s.windowChains.zipIdx).filterMap (fun c =>
    match f.1.estimate.legs.find? (fun l => field l 0 1 == c.1) with
    | some l =>
      if field l 1 1 % 8 = 3 then
        some ⟨4, [s.frameBlock (s.frameSlot f.2), s.footBlock c.2], 0, BitVec.ofNat 32 (s.setting 8 4), toWords 3 (l.drop 24)⟩
      else none
    | none => none)

/-- The VISUAL and DEPTH factors of an observation of a slotted landmark. -/
def State.sightFactors (s : State) (f : WindowFrame × Nat) (o : List Byte) : List WindowFactor :=
  match s.window.slotOfTrack (obsTrack o) with
  | none => []
  | some k =>
    let host := match Store.get none s.window.landmarks k with | some x => x.2 | none => 0
    let here := s.sighting f.1 o
    let visual := if host = f.1.order then [] else
      match s.window.frames.zipIdx.find? (fun g => g.1.order == host) with
      | some g =>
        match g.1.seen (obsTrack o) with
        | some first =>
          let there := s.sighting g.1 first
          [⟨2, [s.frameBlock (s.frameSlot g.2), s.frameBlock (s.frameSlot f.2), k], BitVec.ofNat 32 (s.windowNat 0x18 4),
            BitVec.ofNat 32 (s.windowNat 0x14 4), [there.u, there.v, here.u, here.v, BitVec.ofNat 32 s.windowCamera]⟩]
        | none => []
      | none => []
    visual ++ (if obsDepth o then [⟨3, [k], 0, halfWord (field o 14 2), [here.rho]⟩] else [])

/-- The factors of the window (R424). -/
def State.windowFactors (s : State) : List WindowFactor :=
  let fs := s.window.frames.zipIdx
  (List.range (s.windowFrames - s.window.frames.length)).map s.emptyPrior ++ s.windowPrior ++
    ((fs.zip fs.tail).filterMap (fun x => s.imuFactor x.1 x.2)) ++ fs.flatMap s.legFactors ++
    fs.flatMap (fun f => (batchObservations f.1.batch).flatMap (s.sightFactors f))

/-- The table of the window's blocks. -/
def State.windowTable (s : State) : List ModelBlock := (pieces 16 s.windowBlocks.length (blockEntries s.windowBlocks)).map readBlock

/-- The model object of a run (R419): header, blocks, factors, and each factor's data after them. -/
def State.windowModel (s : State) : List Byte :=
  let blocks := s.windowBlocks
  let table := s.windowTable
  let factors := s.windowFactors
  let dataAt := 16 + 16 * blocks.length + 32 * factors.length
  let (entries, _, _) := factors.foldl (fun (x : List Byte × Nat × Nat) f =>
    let e := factorEntry f.type f.blocks x.2.1 x.2.2 f.huber f.sigma
    (x.1 ++ e, x.2.1 + (factorWords table e).2, x.2.2 + 4 * f.data.length)) ([], 0, dataAt)
  toLe 4 blocks.length ++ toLe 4 factors.length ++ toLe 8 0 ++ blockEntries blocks ++ entries ++
    factors.flatMap (fun f => f.data.flatMap wordBytes)

/-- The blocks that leave with frame 0: its own, and the landmarks it hosts (R424). -/
def State.leavingBlocks (s : State) : List Nat :=
  match s.window.frames.head? with
  | some f => s.frameBlock 0 :: s.window.landmarks.filterMap (fun e => match e.2 with
      | some (_, host) => if host = f.order then some e.1 else none
      | none => none)
  | none => []

/-- What the marginalisation assembles (R424): the input area of the window's final linearisation, with the words zero of every factor
that touches neither frame 0 nor a landmark it hosts and is not the PRIOR (log entry 66). -/
def State.marginalInputs (s : State) (m : ModelAt) (point : List Word) : List Word :=
  let table := s.windowTable
  let leaving := s.leavingBlocks
  (s.modelFactors m).flatMap (fun f =>
    let kept := (field f 0 1 == 0) || [field f 2 2, field f 4 2, field f 6 2].any leaving.contains
    if kept then s.factorOutput m table point f else List.replicate (factorWords table f).2 0)

/-- Write bytes into a static object, where it can be reached and holds them. -/
def State.writeStatic (s : State) (id : Nat) (b : List Byte) : State :=
  if s.canAccess id 0 b.length then (s.touch id).writeObject id 0 b else s

/-! ### Runs -/

/-- WINDOW_RUN (R423): the first waiting batch of the estimator set becomes a frame at the last cut-off at or before it, and
the task writes its model. A batch older than every estimate makes no frame. -/
def State.windowRun (s : State) : State :=
  match s.window.waiting with
  | [] => s
  | b :: rest =>
    if s.window.running.isSome ∨ s.swatchRuns (solverSwatch 1) = false ∨ s.admitsWork = false then s
    else
      let s := s.setWindow { s.window with waiting := rest }
      match s.window.estimateAt (batchTov b.2.2) with
      | none => s
      | some e =>
        let s := s.enterFrame e b.2.2
        let s := s.setWindow { s.window with running := some b }
        s.writeStatic (s.windowNat 0x1C 4) s.windowModel

/-- WINDOW_RUN (R423). -/
def execWindowRun (s : State) : Host.Outcome State Fault Refusal := .next s.windowRun

/-- The prior record of a run's final point and trailing factor (R426). -/
def State.priorRecord (s : State) (f : WindowFrame) (batch : List Byte) (point : List Word) (tail : List Byte) (brown : Bool) : PriorRecord :=
  let fl := batchFlags batch
  let stale := if bit fl 0 then 2 else 0
  let suspect := if bit fl 2 then 4 else 0
  let age := max (field batch 0x14 4) (ageNs s.stamp (batchTov batch))
  { period := f.estimate.period, anchor := f.estimate.cutoff, dim := s.priorDim,
    flags := (if brown || bit fl 1 then 1 else 0) + stale + suspect, age := age,
    mu := point.drop (point.length - (s.windowParams + 3 * s.windowChains.length + 16)), tail := toWords (tail.length / 4) tail }

/-- A window problem ends (R426): a prior is published, and a keyframe's pose goes to the map task (R427). -/
def State.windowEnds (s : State) (r : SolverResult) (point : List Word) (tail : List Byte) : State :=
  match s.window.running with
  | none => s
  | some (_, keypoints, b) =>
    let s := s.setWindow { s.window with running := none }
    if r.status = solSolved ∨ r.status = solInaccurate ∨ r.status = solWarmReject then
      let s := s.setWindow { s.window with point := point, final := point }
      let s := if s.windowFrames ≤ s.window.frames.length then
          s.writeStatic (s.windowNat 0x20 4) ((s.marginalInputs ⟨s.windowNat 0x1C 4, 0⟩ point).flatMap wordBytes) else s
      match s.window.frames.getLast? with
      | none => s
      | some f =>
        let s := { s with clsA := { s.clsA with offered := some (s.priorRecord f b point tail r.brown, s.stamp) } }
        if bit (batchFlags b) 3 then
          let nav := point.drop (point.length - 16)
          { s with map := { s.map with waiting := s.map.waiting ++ [⟨nav.take 4 ++ (nav.drop 7).take 3, b, keypoints⟩] } }
        else s
    else s

/-- The point of what remains once slot 0 leaves: frames 1 on as slots 0 on, parameters and feet. -/
def State.remaining (s : State) (point : List Word) : List Word :=
  let l := s.windowLandmarks
  let mid := s.windowParams + 3 * s.windowChains.length
  let after := l + 16 * (s.windowFrames - 1)
  (point.drop (l + 16)).take (16 * (s.windowFrames - 2)) ++ (point.drop (after + mid)).take 16 ++ (point.drop after).take mid

/-- A marginalisation ends (R424): its trailing factor is the next PRIOR, about the final point. -/
def State.marginalEnds (s : State) (r : SolverResult) (tail : List Byte) : State :=
  if r.status = solSolved ∨ r.status = solWarmReject then s.setWindow { s.window with prior := tail, mu := s.remaining s.window.final } else s

end Sys2Proof.Machine
end

