-- ==== Sys2Proof/Machine/Epochs.lean ====
section
/-!
DEFINITION. The indexes on NAND: channels, regions, epochs and imports (R442 to R455, R467).
-/
namespace Sys2Proof.Machine

/-- The swatch of a NAND channel. -/
def nandSwatch (c : Nat) : Nat := 16 + c

/-! ### Indexes (Table 13.1) -/

def indexFirst (x : Nat) : Nat := if x = 0 then 0 else 14
def indexWidth (x : Nat) : Nat := if x = 0 then 14 else 2
def indexChannels (x : Nat) : List Nat := (List.range (indexWidth x)).map (· + indexFirst x)
def indexOfChannel (c : Nat) : Nat := if c < 14 then 0 else 1

/-- A region: false A, true B. -/
def State.regionFirst (s : State) (x : Nat) (r : Bool) : Nat :=
  (s.reg (if r then reg_IDX_REG_B_FIRST x else reg_IDX_REG_A_FIRST x)).toNat
def State.regionBlocks (s : State) (x : Nat) (r : Bool) : Nat :=
  (s.reg (if r then reg_IDX_REG_B_BLOCKS x else reg_IDX_REG_A_BLOCKS x)).toNat
def State.regionObject (s : State) (x : Nat) (r : Bool) : Nat := (s.reg (if r then reg_IDX_OBJ_B x else reg_IDX_OBJ_A x)).toNat

/-- An index is absent: both regions empty (R447). -/
def State.indexAbsent (s : State) (x : Nat) : Bool := s.regionBlocks x false == 0 && s.regionBlocks x true == 0

/-- A region object is a declared static object that is not EVICTABLE. -/
def State.regionObjectOk (s : State) (x : Nat) (r : Bool) : Bool :=
  let id := s.regionObject x r
  !isTile id && (match s.object id with | some o => !o.evictable | none => false)

/-- An index fails its check (R447). -/
def State.indexBad (s : State) (x : Nat) : Bool :=
  let lies (r : Bool) : Bool := decide (0 < s.regionBlocks x r) && decide (s.regionFirst x r + s.regionBlocks x r ≤ s.channelBlocks)
  !lies false || !lies true ||
    rangesOverlap (s.regionFirst x false) (s.regionBlocks x false) (s.regionFirst x true) (s.regionBlocks x true) ||
    (indexChannels x).any s.tileOverlap || !s.regionObjectOk x false || !s.regionObjectOk x true

/-- The checks of cast-on lock (R447). -/
def State.checkIndexes (s : State) : State :=
  [0, 1].foldl (fun s x => s.setFlag (fld_IDX_STATUS_CFG_ERR x) (!s.indexAbsent x && s.indexBad x)) s

/-- An index can be used, once its channels are ready. -/
def State.indexUsable (s : State) (x : Nat) : Bool := !s.indexAbsent x && !s.flag (fld_IDX_STATUS_CFG_ERR x)
def State.channelUp (s : State) (c : Nat) : Bool := s.flag (fld_NCH_STATUS_READY c)
def State.channelsUp (s : State) (x : Nat) : Bool := (indexChannels x).all s.channelUp

/-- IDX_STATUS.READY. -/
def State.indexReady (s : State) (x : Nat) : Bool := s.flag (fld_IDX_STATUS_READY x)

/-! ### Blocks (R448, R449) -/

/-- The key of a region, and of a region on a channel. -/
def regionKey (x : Nat) (r : Bool) : Nat := 2 * x + (if r then 1 else 0)
def channelKey (x : Nat) (r : Bool) (c : Nat) : Nat := regionKey x r * 16 + c

/-- The block table in force on a channel: the valid one with the higher TABLE_SEQ, or one built from the factory marks. -/
def State.tableInForce (s : State) (c : Nat) : BlockTable :=
  let x := indexOfChannel c
  let a := Store.get none s.srch.tables (channelKey x false c)
  let b := Store.get none s.srch.tables (channelKey x true c)
  match a, b with
  | some a, some b => if a.seq < b.seq then b else a
  | some a, none => a
  | none, some b => b
  | none, none => ⟨0, Store.get [] s.srch.marks c⟩

/-- The good blocks of a region on a channel: the first is its header block, the others its data blocks. -/
def State.goodBlocks (s : State) (x : Nat) (r : Bool) (c : Nat) : List Nat :=
  ((List.range (s.regionBlocks x r)).map (· + s.regionFirst x r)).filter (fun b => !(s.tableInForce c).bad.contains b)

/-- The local pages that a region holds on a channel (R449). -/
def State.localPages (s : State) (x : Nat) (r : Bool) (c : Nat) : Nat :=
  let u := s.nandTargets * s.nandLuns
  s.nandPages * u * (((s.goodBlocks x r c).length - 1) / u)

/-- An image of a number of pages fits a region. -/
def State.imageFits (s : State) (x : Nat) (r : Bool) (total : Nat) : Bool :=
  (List.range (indexWidth x)).all (fun i =>
    decide (ceilDiv (total - i) (indexWidth x) ≤ s.localPages x r (indexFirst x + i)))

/-- The channel of a global page, and its flash address (R306, R444, R449), the word index in [63:55]. -/
def pageChannel (x g : Nat) : Nat := indexFirst x + g % indexWidth x
def State.pageBlock (s : State) (x : Nat) (r : Bool) (g : Nat) : Nat :=
  let u := s.nandTargets * s.nandLuns
  let n := g / indexWidth x
  ((s.goodBlocks x r (pageChannel x g)).tail).getD (n % u + u * (n / (u * max 1 s.nandPages))) 0
def State.flashAddress (s : State) (x : Nat) (r : Bool) (g word : Nat) : Nat :=
  let b := s.pageBlock x r g
  let t := s.nandTargets
  let l := s.nandLuns
  let row := b / (t * l) * s.nandPages + g / indexWidth x / (t * l) % max 1 s.nandPages
  pageChannel x g + b % t * 2 ^ 4 + b / t % l * 2 ^ 7 + row % 2 ^ 32 * 2 ^ 9 + word * 2 ^ 55

/-! ### Epochs (R450, R451) -/

/-- Data bytes of a page. -/
def pageData : Nat := 14560

/-- Bytes of an epoch's global page. -/
def epochKey (x : Nat) (r : Bool) (g byte : Nat) : Nat := (regionKey x r * 2 ^ 32 + g) * 2 ^ 14 + byte
def State.epochPage (s : State) (x : Nat) (r : Bool) (g : Nat) : List Byte := Store.getMany 0 s.srch.flash (epochKey x r g 0) pageData

/-- An epoch header (Table 13.2). -/
structure EpochHeader where
  m : Nat
  epoch : Nat
  d : Nat
  recordBytes : Nat
  c : Nat
  perPage : Nat
  total : Nat
  cb : Nat
  cq : Nat
  dir : Nat
  list : Nat
  crc : Nat
  deriving DecidableEq, Repr
def readHeader (b : List Byte) : EpochHeader :=
  { m := field b 7 1, epoch := field b 8 4, d := field b 0x0C 2, recordBytes := field b 0x0E 2, c := field b 0x10 4,
    perPage := field b 0x14 2, total := field b 0x20 4, cb := field b 0x24 4, cq := field b 0x28 4, dir := field b 0x2C 4,
    list := field b 0x30 4, crc := field b 0x34 4 }

/-- Code bytes, centroid bytes, and the bytes of codebooks and quantiser. -/
def EpochHeader.codeBytes (h : EpochHeader) (x : Nat) : Nat := if x = 0 then h.m else h.d / 8
def EpochHeader.centroidBytes (h : EpochHeader) (x : Nat) : Nat := if x = 0 then 2 * h.d else h.d / 8
def EpochHeader.bookBytes (h : EpochHeader) (x : Nat) : Nat := if x = 0 then 512 * h.d else 0
def EpochHeader.quantBytes (h : EpochHeader) (x : Nat) : Nat := h.c * h.centroidBytes x

/-- The directory's place in the region object, and the object's least size (R451). -/
def EpochHeader.dirAt (h : EpochHeader) (x : Nat) : Nat := ceilDiv (h.quantBytes x) 4096 * 4096
def EpochHeader.objectBytes (h : EpochHeader) (x : Nat) : Nat := h.dirAt x + 16 * h.c

/-- The pages that bytes fill. -/
def pagesOf (n : Nat) : Nat := ceilDiv n pageData

/-- A header as Table 13.2 and R451 have it. -/
def headerValid (x : Nat) (b : List Byte) : Bool :=
  let h := readHeader b
  let codes := if x = 0 then decide (8 ≤ h.m ∧ h.m ≤ 64 ∧ 1 ≤ h.d ∧ h.d ≤ 256 ∧ h.d % max 1 h.m = 0)
    else decide (h.m = 0 ∧ 64 ≤ h.d ∧ h.d ≤ 1024 ∧ h.d % 64 = 0)
  let record := ceilDiv (12 + h.codeBytes x) 4 * 4
  field b 0 4 == 0x58444E49 && field b 4 2 == 1 && field b 6 1 == x && codes && h.recordBytes == record &&
    decide (1 ≤ h.c ∧ h.c ≤ 262144) && h.perPage == pageData / record && field b 0x16 2 == 0 && h.cb == 1 &&
    h.cq == 1 + pagesOf (h.bookBytes x) && h.dir == h.cq + pagesOf (h.quantBytes x) && h.list == h.dir + pagesOf (16 * h.c) &&
    decide (h.list ≤ h.total) && (slice b 0x58 (pageData - 0x58)).all (· == 0)

/-- The header of the epoch that a region holds. -/
def State.regionHeader (s : State) (x : Nat) (r : Bool) : EpochHeader := readHeader (s.epochPage x r 0)

/-! ### Committed and active regions (R452) -/

/-- A region's commit record, where every channel holds the same valid one. -/
def State.committed (s : State) (x : Nat) (r : Bool) : Option CommitRecord :=
  match Store.get none s.srch.commits (channelKey x r (indexFirst x)) with
  | some k => if (indexChannels x).all (fun c => Store.get none s.srch.commits (channelKey x r c) == some k) then some k else none
  | none => none

/-- Whether an index has an active region, and which it is. -/
def State.hasEpoch (s : State) (x : Nat) : Bool := (s.committed x false).isSome || (s.committed x true).isSome
def State.activeRegion (s : State) (x : Nat) : Bool := s.flag (fld_IDX_STATUS_ACTIVE x)

/-- Show what is committed, and take the region with the higher epoch, or A of equals, as active. -/
def State.readCommits (s : State) (x : Nat) : State :=
  let a := s.committed x false
  let b := s.committed x true
  let act := match a, b with | some a, some b => decide (a.epoch < b.epoch) | none, some _ => true | _, _ => false
  let s := ((s.setFlag (fld_IDX_STATUS_COMMIT_A x) a.isSome).setFlag (fld_IDX_STATUS_COMMIT_B x) b.isSome).setFlag (fld_IDX_STATUS_ACTIVE x) act
  let s := s.setFlag (fld_IDX_STATUS_NO_EPOCH x) (a.isNone && b.isNone)
  match (if act then b else a) with
  | some k => s.setFld (fld_IDX_EPOCH_EPOCH x) k.epoch
  | none => s.setFld (fld_IDX_EPOCH_EPOCH x) 0

/-- NAND_CHANNEL_INIT_DONE (R443, R448, R452): the channel is READY where its parts have the geometry, and the rate lies in
range; the last channel of an index lets the front end read the commit records, which after a reset of its own it does of both
indexes (R467), and waiting moves are served. -/
def execNandChannelInitDone (channel : Fin 16) (same : Bool) (marks : List Nat) (s : State) : Host.Outcome State Fault Refusal :=
  if s.flag (fld_NCH_STATUS_INIT channel) = false ∨ s.swatchRuns (nandSwatch channel) = false then .next s
  else
    let s := s.setFlag (fld_NCH_STATUS_INIT channel) false
    let s := { s with srch := { s.srch with marks := Store.set [] s.srch.marks channel marks } }
    let s := s.setFld (fld_NCH_BLOCKS_BAD channel) (s.tableInForce channel).bad.length
    let rate := s.fld fld_NAND_GEOM_1_RATE
    if same = false then .next (s.setFlag (fld_NCH_STATUS_GEOM_ERR channel) true)
    else if rate < 800 ∨ 3600 < rate then .next s
    else
      let s := s.setFlag (fld_NCH_STATUS_READY channel) true
      let due := if channel = 0 then [0, 1] else [indexOfChannel channel]
      .next (due.foldl (fun s x => if s.channelsUp x ∧ s.indexUsable x then s.readCommits x else s) s).serveWaiting

/-! ### Loading an epoch (R452) -/

/-- Bytes of an epoch's section, from its first page. -/
def State.epochSection (s : State) (x : Nat) (r : Bool) (first n : Nat) : List Byte :=
  (List.range (pagesOf n)).flatMap (fun i => (s.epochPage x r (first + i)).take (n - pageData * i))

/-- The key of a byte of the engines' codebooks. -/
def bookKey (x : Nat) (r : Bool) (byte : Nat) : Nat := regionKey x r * 2 ^ 40 + byte

/-- Put bytes into the codebooks. -/
def State.setBooks (s : State) (x : Nat) (r : Bool) (off : Nat) (b : List Byte) : State :=
  { s with srch := { s.srch with books := Store.setMany 0 s.srch.books (bookKey x r off) b } }

/-- The words of a section that lie on a page are uncorrectable: their indices within the section. -/
def wordsOfPage (first bytes g : Nat) : List Nat :=
  if g < first ∨ first + pagesOf bytes ≤ g then [] else (List.range 455).map (· + 455 * (g - first))

/-- Count the reads of an epoch's pages below n on their channels (R478). -/
def State.countPages (s : State) (x n : Nat) : State :=
  (indexChannels x).zipIdx.foldl (fun s c => s.addWrap (fld_NCH_PAGES_PAGES c.1) (ceilDiv (n - c.2) (indexWidth x))) s

/-- Load a region's quantiser, directory and codebooks; `bad` are the pages found uncorrectable, whose words are marked. -/
def State.loadEpoch (s : State) (x : Nat) (r : Bool) (bad : List Nat) : State :=
  let h := s.regionHeader x r
  let obj := s.regionObject x r
  let s := s.writeStatic obj (s.epochSection x r h.cq (h.quantBytes x))
  let s := if s.canAccess obj (h.dirAt x) (16 * h.c) then s.writeObject obj (h.dirAt x) (s.epochSection x r h.dir (16 * h.c)) else s
  let s := s.setBooks x r 0 (s.epochSection x r h.cb (h.bookBytes x))
  bad.foldl (fun s g =>
    let mark (s : State) (w : Nat) : State := s.setMark false (memKey obj w) .ue
    let s := (wordsOfPage h.cq (h.quantBytes x) g).foldl mark s
    let s := (wordsOfPage h.dir (16 * h.c) g).foldl (fun s w => mark s (h.dirAt x / 32 + w)) s
    let s := (wordsOfPage h.cb (h.bookBytes x) g).foldl (fun s w =>
      { s with srch := { s.srch with badBooks := Store.set false s.srch.badBooks (bookKey x r w) true } }) s
    ((s.addSat fld_SELV_LDPC_FAIL 1).recordUe mediumNand (nandSwatch (pageChannel x g)) false false (s.flashAddress x r g 0))) s

/-- INDEX_EPOCH_LOAD_DONE (R452, R467): the active epoch is loaded, with the codebooks of the other region where it is committed,
and the index is READY. -/
def execIndexEpochLoadDone (index : Fin 2) (bad : List Nat) (s : State) : Host.Outcome State Fault Refusal :=
  let x := index.val
  if s.indexReady x ∨ s.channelsUp x = false ∨ s.indexUsable x = false ∨ s.hasEpoch x = false ∨ s.swatchRuns 16 = false then .next s
  else
    let r := s.activeRegion x
    let s := (s.loadEpoch x r bad).countPages x (s.regionHeader x r).list
    let o := s.regionHeader x (!r)
    let s := if (s.committed x (!r)).isSome then
        (s.setBooks x (!r) 0 (s.epochSection x (!r) o.cb (o.bookBytes x))).countPages x o.cq else s
    .next (s.setFlag (fld_IDX_STATUS_READY x) true)

/-! ### Imports (R454, Table 13.4) -/

def impCommitted : Nat := 0
def impNotConfigured : Nat := 1
def impBadHeader : Nat := 2
def impNotNewer : Nat := 3
def impNoRoom : Nat := 4
def impOrder : Nat := 5
def impBadData : Nat := 6
def impCrc : Nat := 7
def impMedia : Nat := 8
def impAbandoned : Nat := 9

/-- Set the import, with its state code. -/
def importCode (i : Option Import) : Nat :=
  match i with
  | none => 0
  | some i => match i.step with | .waiting => 1 | .erasing => 2 | .writing => 3 | .committing => 4
def State.setImport (s : State) (i : Option Import) : State :=
  { s.setFld fld_SRCH_IMPORT_STATUS_STATE (importCode i) with
    srch := { (s.setFld fld_SRCH_IMPORT_STATUS_STATE (importCode i)).srch with importing := i } }

/-- An import ends with a code (R454, R475, R496). -/
def State.endImport (s : State) (code alive : Nat) (arrival : Stamp) : State :=
  let s := ((s.setImport none).setFld fld_SRCH_IMPORT_STATUS_CODE code).setFlag fld_SRCH_IMPORT_STATUS_ENDED true
  (s.raiseIbi ibiImport).addStatus 0x33 cmdImportEnd code alive arrival

/-- The import that runs ends with a code. -/
def State.stopImport (s : State) (code : Nat) : State :=
  match s.srch.importing with
  | some i => s.endImport code i.alive i.arrival
  | none => s

/-- The pins of a region: the queries admitted to it (R453). -/
def State.regionPins (s : State) (x : Nat) (r : Bool) : Nat :=
  (s.srch.active.filter (fun q => q.desc.index == x && q.region == r)).length

/-- The first item of the import buffer, taken. -/
def State.takeItem (s : State) : State := { s with links := { s.links with importBuffer := s.links.importBuffer.tail } }

/-- The import may go on: Class D work runs, NAND_CH_0 is up, and brown hold does not hold NAND writes (R455, R517). -/
def State.importRuns (s : State) : Bool := s.runsClassD && s.swatchRuns 16 && !s.power.nandHeld

/-- A message of an import is taken up, which neither erases nor programs. -/
def State.importHears (s : State) : Bool := s.runsClassD && s.swatchRuns 16

/-- An object is declared and holds a number of bytes. -/
def State.objectHolds (s : State) (id n : Nat) : Bool := match s.object id with | some o => decide (n ≤ o.size) | none => false

/-- BEGIN's checks (R454): none, or the code of the first that fails. -/
def State.beginCode (s : State) (x : Nat) (r : Bool) (b : List Byte) : Option Nat :=
  let h := readHeader b
  if 2 ≤ x ∨ s.indexUsable x = false ∨ s.channelsUp x = false then some impNotConfigured
  else if headerValid x b = false then some impBadHeader
  else if s.imageFits x r h.total = false ∨ s.objectHolds (s.regionObject x r) (h.objectBytes x) = false then some impNoRoom
  else if s.hasEpoch x ∧ h.epoch ≤ s.fld (fld_IDX_EPOCH_EPOCH x) then some impNotNewer
  else none

/-- INDEX_BEGIN (R454): a BEGIN at the front of the import buffer. Which region an index without an active one fills is open. -/
def State.beginImport (s : State) (i : ImportItem) : State :=
  let s := (s.stopImport impAbandoned).takeItem
  let x := i.index
  let (free, s) := s.takeBit
  let r := if s.hasEpoch x then !s.activeRegion x else free
  let h := readHeader i.data
  let s := ((s.setFld fld_SRCH_IMPORT_STATUS_INDEX x).setFlag fld_SRCH_IMPORT_STATUS_REGION r).setReg reg_SRCH_IMPORT_PAGES 0
  let s := s.setFld fld_SRCH_IMPORT_EPOCH_EPOCH h.epoch
  match s.beginCode x r i.data with
  | some code => s.endImport code i.alive i.arrival
  | none =>
    s.setImport (some { index := x, region := r, header := i.data, step := .waiting, next := 0, listNext := h.list,
                        alive := i.alive, arrival := i.arrival })

/-- INDEX_BEGIN. -/
def execIndexBegin (s : State) : Host.Outcome State Fault Refusal :=
  match s.links.importBuffer with
  | i :: _ => if i.sub = 0 ∧ s.importHears then .next (s.beginImport i) else .next s
  | [] => .next s

/-- IMPORT_PINS_CLEAR (R454): no query is pinned to the target; from the first erase it is no longer committed. -/
def execImportPinsClear (s : State) : Host.Outcome State Fault Refusal :=
  match s.srch.importing with
  | some i =>
    if i.step = .waiting ∧ s.regionPins i.index i.region = 0 ∧ s.importRuns then
      let commits := (indexChannels i.index).foldl (fun m c => Store.set none m (channelKey i.index i.region c) none) s.srch.commits
      let s := { s with srch := { s.srch with commits := commits } }
      let s := s.setFlag (if i.region then fld_IDX_STATUS_COMMIT_B i.index else fld_IDX_STATUS_COMMIT_A i.index) false
      .next (s.setImport (some { i with step := .erasing }))
    else .next s
  | none => .next s

/-- An erase or a program failed: the block waits for the next import's table, and the import ends MEDIA. -/
def State.importMedia (s : State) (c block : Nat) : State :=
  let s := s.addSat (fld_NCH_BLOCKS_RETIRED c) 1
  { s with srch := { s.srch with failed := s.srch.failed ++ [(c, block)] } }.stopImport impMedia

/-- Program a page of the import, copying what the engines and the region object hold of it (R454). -/
def State.programPage (s : State) (i : Import) (g : Nat) (b : List Byte) : State :=
  let x := i.index
  let h := readHeader i.header
  let s := { s with srch := { s.srch with flash := Store.setMany 0 s.srch.flash (epochKey x i.region g 0) b } }
  let obj := s.regionObject x i.region
  let part (first bytes : Nat) : List Byte := b.take (bytes - pageData * (g - first))
  let s :=
    if g = 0 then s
    else if g < h.cq then s.setBooks x i.region (pageData * (g - h.cb)) (part h.cb (h.bookBytes x))
    else if g < h.dir then s.writeObject obj (pageData * (g - h.cq)) (part h.cq (h.quantBytes x))
    else if g < h.list then s.writeObject obj (h.dirAt x + pageData * (g - h.dir)) (part h.dir (16 * h.c))
    else s
  (s.setImport (some { i with next := g + 1 })).addWrap fld_SRCH_IMPORT_PAGES_PAGES 1

/-- The uncorrectable marks of a region's codebooks go when new ones are written. -/
def State.clearBooks (s : State) (x : Nat) (r : Bool) : State :=
  { s with srch := { s.srch with badBooks := s.srch.badBooks.filter (fun e => e.1 / 2 ^ 40 != regionKey x r) } }

/-- IMPORT_ERASE_DONE (R448, R454): the header and data blocks are erased and the block table is written, with the blocks that
have failed; then page 0 is written. -/
def execImportEraseDone (failed : Option (Fin 16 × Nat)) (s : State) : Host.Outcome State Fault Refusal :=
  match s.srch.importing with
  | some i =>
    if i.step = .erasing ∧ s.importRuns then
      match failed with
      | some (c, b) => .next (s.importMedia c b)
      | none =>
        let tables := (indexChannels i.index).foldl (fun m c =>
          let t := s.tableInForce c
          let more := (s.srch.failed.filter (fun e => e.1 == c)).map (·.2)
          Store.set none m (channelKey i.index i.region c) (some ⟨t.seq + 1, (t.bad ++ more).eraseDups⟩)) s.srch.tables
        let s := { s with srch := { s.srch with tables := tables,
                                                failed := s.srch.failed.filter (fun e => indexOfChannel e.1 != i.index) } }
        let s := (indexChannels i.index).foldl (fun s c => s.setFld (fld_NCH_BLOCKS_BAD c) (s.tableInForce c).bad.length) s
        .next ((s.clearBooks i.index i.region).programPage { i with step := .writing } 0 i.header)
    else .next s
  | none => .next s

/-- FP16 values of bytes that are all finite. -/
def halvesFinite (b : List Byte) : Bool := (numbers 2 (b.length / 2) b).all (fun n => n / 1024 % 32 != 31)

/-- A directory's entries as R451 has them: the last answer is where the next list begins, or none where one breaks the rule. -/
def directoryOk (perPage total last : Nat) : Nat → List (List Byte) → Nat → Option Nat
  | _, [], next => some next
  | i, e :: rest, next =>
    let pages := field e 4 4
    if field e 0 4 = next ∧ pages = ceilDiv (field e 8 4) (max 1 perPage) ∧ field e 12 4 = 0 ∧ next + pages ≤ total ∧
        (i = last → next + pages = total) then
      directoryOk perPage total last (i + 1) rest (next + pages)
    else none

/-- The directory entry of the list that a page belongs to. -/
def State.listOfPage (s : State) (x : Nat) (r : Bool) (h : EpochHeader) (g : Nat) : Option (List Byte) :=
  let obj := s.regionObject x r
  ((List.range h.c).map (fun l => s.memBytes obj (h.dirAt x + 16 * l) 16)).find? (fun e =>
    decide (field e 0 4 ≤ g) && decide (g < field e 0 4 + field e 4 4))

/-- A page's contents pass, with where the next list is to begin (R454). -/
def State.pageOk (s : State) (i : Import) (g : Nat) (b : List Byte) : Option Nat :=
  let x := i.index
  let h := readHeader i.header
  let part (first bytes : Nat) : List Byte := b.take (bytes - pageData * (g - first))
  if g < h.cq then (if halvesFinite (part h.cb (h.bookBytes x)) then some i.listNext else none)
  else if g < h.dir then (if x = 1 ∨ halvesFinite (part h.cq (h.quantBytes x)) then some i.listNext else none)
  else if g < h.list then
    let p := part h.dir (16 * h.c)
    directoryOk h.perPage h.total (h.c - 1) (910 * (g - h.dir)) (pieces 16 (p.length / 16) p) i.listNext
  else
    match s.listOfPage x i.region h g with
    | none => none
    | some e =>
      let n := min h.perPage (field e 8 4 - h.perPage * (g - field e 0 4))
      if (pieces h.recordBytes n b).all (fun r => field r 0 8 != 2 ^ 64 - 1) then some i.listNext else none

/-- INDEX_PAGE (R454): the PAGE at the front of the buffer is checked for order and content, and written. -/
def State.importPage (s : State) (i : Import) (p : ImportItem) (failed : Bool) : State :=
  let s := s.takeItem
  let i := { i with alive := p.alive, arrival := p.arrival }
  let h := readHeader i.header
  if p.index ≠ i.index ∨ p.number ≠ i.next ∨ h.total ≤ p.number then s.endImport impOrder p.alive p.arrival
  else
    match s.pageOk i p.number p.data with
    | none => s.endImport impBadData p.alive p.arrival
    | some next =>
      if failed then (s.setImport (some i)).importMedia (pageChannel i.index p.number) (s.pageBlock i.index i.region p.number)
      else s.programPage { i with listNext := next } p.number p.data

/-- INDEX_PAGE. A PAGE with no import to take it is discarded. -/
def execIndexPage (failed : Bool) (s : State) : Host.Outcome State Fault Refusal :=
  match s.links.importBuffer with
  | p :: _ =>
    if p.sub = 1 ∧ s.importRuns then
      match s.srch.importing with
      | some i => if i.step = .writing then .next (s.importPage i p failed) else .next s
      | none => .next s.takeItem
    else .next s
  | [] => .next s

/-- The CRC-32C of an image's pages from 1 on. -/
def State.imageCrc (s : State) (x : Nat) (r : Bool) (total : Nat) : Nat :=
  let c := crcSpec 3
  crcResult c ((List.range (total - 1)).foldl (fun v g => crcFeed c v (s.epochPage x r (g + 1))) c.init)

/-- INDEX_END (R454): order, then IMAGE_CRC; then the commit records are written. -/
def State.importEnd (s : State) (i : Import) (p : ImportItem) : State :=
  let s := s.takeItem
  let h := readHeader i.header
  if p.index ≠ i.index ∨ p.number ≠ h.epoch ∨ i.next ≠ h.total then s.endImport impOrder p.alive p.arrival
  else if s.imageCrc i.index i.region h.total ≠ h.crc then s.endImport impCrc p.alive p.arrival
  else s.setImport (some { i with step := .committing, alive := p.alive, arrival := p.arrival })

/-- INDEX_END. An END with no import to take it is discarded. -/
def execIndexEnd (s : State) : Host.Outcome State Fault Refusal :=
  match s.links.importBuffer with
  | p :: _ =>
    if p.sub = 2 ∧ s.importHears then
      match s.srch.importing with
      | some i => if i.step = .writing then .next (s.importEnd i p) else .next s
      | none => .next s.takeItem
    else .next s
  | [] => .next s

/-- IMPORT_COMMIT_DONE (R453, R454): the commit record stands on every channel, and the new region is active. -/
def execImportCommitDone (failed : Option (Fin 16)) (s : State) : Host.Outcome State Fault Refusal :=
  match s.srch.importing with
  | some i =>
    if i.step = .committing ∧ s.importRuns then
      match failed with
      | some c => .next (s.importMedia c (((s.goodBlocks i.index i.region c).head?).getD 0))
      | none =>
        let h := readHeader i.header
        let k : CommitRecord := ⟨h.epoch, h.total, h.crc⟩
        let commits := (indexChannels i.index).foldl (fun m c => Store.set none m (channelKey i.index i.region c) (some k)) s.srch.commits
        let s := { s with srch := { s.srch with commits := commits } }.readCommits i.index
        .next ((s.setFlag (fld_IDX_STATUS_READY i.index) true).stopImport impCommitted)
    else .next s
  | none => .next s

end Sys2Proof.Machine
end

