-- ==== Sys2Proof/Machine/Transmit.lean ====
section
/-!
DEFINITION. The transmit ports and streams: checks at cast-on lock, headers, payloads, packets, cuts and port resets (R479 to R489,
R549).
-/
namespace Sys2Proof.Machine

/-! ### Checks at cast-on lock -/

/-- The agent of transmit stream t (R482). -/
def txAgent (t : Nat) : Nat := 0x4000 + t

/-- Every copy of an IMAGE buffer grants the stream a consumer slot (R484). -/
def State.txConsumes (s : State) (t b : Nat) : Bool :=
  let e := s.bufEntry b
  decide (e.kind = kindImage) &&
    (List.range (s.bufCopies e)).all (fun c => match s.bufMarker e c with | some m => (s.slotOf m (txAgent t)).isSome | none => false)

/-- SRC_A and SRC_B meet Table 14.2 (R484). FORMAT 1 is U16, 0 U8, 3 and 4 FP16 and FP32. -/
def State.txSourceOk (s : State) (t : Nat) : Bool :=
  let type := s.txType t
  let a := s.txSource t
  let e := s.bufEntry a
  if type = txDisparity then
    s.txConsumes t a && e.format == 1 &&
      (match s.txConfidence t with
       | none => true
       | some b =>
         let f := s.bufEntry b
         s.txConsumes t b && f.format == 0 && f.width == e.width && f.height == e.height && s.producer f.marker == s.producer e.marker)
  else if type = txDepth then s.txConsumes t a && (e.format == 3 || e.format == 4) && s.txConfidence t == none
  else if type = txObjects then decide (a < 8) && s.txConfidence t == none
  else a == 0 && s.txConfidence t == none

/-- ENABLE, PORT and VC of a stream. -/
def State.txWanted (s : State) (t : Nat) : Bool := s.flag (fld_TX_STREAM_CFG_ENABLE t)
def State.txPort (s : State) (t : Nat) : Nat := s.fld (fld_TX_STREAM_CFG_PORT t)
def State.txChannel (s : State) (t : Nat) : Nat := s.fld (fld_TX_STREAM_CFG_VC t)

/-- The checks of R484, with that of R549 on the header unit. -/
def State.txOk (s : State) (t : Nat) : Bool :=
  let others := (List.range 16).filter (fun u => u != t && s.txWanted u)
  let type := s.txType t
  type != 0 && s.fld (fld_TX_STREAM_CFG_LINE_UNITS t) != 0 && s.flag (fld_CSI_TX_CFG_ENABLE (s.txPort t)) &&
    !others.any (fun u => s.txPort u == s.txPort t && s.txChannel u == s.txChannel t) && s.txSourceOk t &&
    !(type == txTileDelta && others.any (fun u => s.txType u == txTileDelta)) &&
    s.fld (fld_CHECK_CFG_POLY (s.fld fld_HL_CFG_HDR_CHECK)) == 3

/-- Mark a check unit's user (R549, Table 16.6). -/
def State.markUser (s : State) (n bit : Nat) : State :=
  s.setFld (fld_CHECK_CFG_USERS n) (Nat.lor (s.fld (fld_CHECK_CFG_USERS n)) (2 ^ bit))

/-- The checks of the transmit streams at cast-on lock (R484, R549). -/
def State.checkTransmit (s : State) : State :=
  let unit := s.fld fld_HL_CFG_HDR_CHECK
  let wanted := (List.range 16).filter s.txWanted
  let good := wanted.filter s.txOk
  let s := if wanted ≠ [] ∧ s.fld (fld_CHECK_CFG_POLY unit) ≠ 3 then s.setFlag (fld_CHECK_CFG_USE_ERR unit) true else s
  let s := wanted.foldl (fun s t => s.setFlag (fld_TX_STREAM_CFG_CFG_ERR t) (!good.contains t)) s
  let s := good.foldl (fun s t => s.setTx t { TxStream.idle with enabled := true }) s
  if good = [] then s else s.markUser unit 1

/-- The check of the command unit at cast-on lock (R549). -/
def State.checkCommands (s : State) : State :=
  let unit := s.fld fld_HL_CFG_CMD_CHECK
  if s.flag fld_HL_CFG_CMD_ENABLE then
    if s.fld (fld_CHECK_CFG_POLY unit) = 3 then { s.markUser unit 2 with links := { s.links with cmdActive := true } }
    else s.setFlag (fld_CHECK_CFG_USE_ERR unit) true
  else s

/-! ### Headers and packets -/

/-- One transmit port. -/
def State.txPortState (s : State) (n : Nat) : TxPort := Store.get TxPort.idle s.links.txPorts n
def State.setTxPort (s : State) (n : Nat) (v : TxPort) : State :=
  { s with links := { s.links with txPorts := Store.set TxPort.idle s.links.txPorts n v } }

/-- LINE_BYTES of a stream (R485). -/
def State.lineBytes (s : State) (t : Nat) : Nat := 64 * s.fld (fld_TX_STREAM_CFG_LINE_UNITS t)

/-- Bytes 0x00 to 0x1B of the stream header, as the first packet starts (R479, R480). -/
def State.txHeader (s : State) (t : Nat) (v : TxStream) (p : TxPayload) : List Byte :=
  let flags := Nat.lor p.flags ((if v.loss then 32 else 0) + (if s.loopRunning then 0 else 64))
  let age := min 0xFFFFFFFF ((p.age + (s.stamp - p.published)) / 2 ^ 16)
  let period := if s.loopRunning then p.period.getD s.periodNumber % 2 ^ 32 else 0xFFFFFFFF
  toLe 2 0x474C ++ toLe 1 (s.txType t) ++ toLe 1 flags ++ toLe 4 v.sequence ++ toLe 8 (stampSec p.tov) ++ toLe 4 (stampNs p.tov) ++
    toLe 4 age ++ toLe 4 period

/-- A payload's first packet starts: its header, with the CRC of the check unit HDR_CHECK (R480, R481, R545). -/
def State.beginPayload (s : State) (t : Nat) : State :=
  let v := s.txStream t
  match v.payload with
  | some p =>
    let h := s.txHeader t v p
    let (r, s) := s.generate (s.fld fld_HL_CFG_HDR_CHECK) h (16 + t) (v.sequence % 65536)
    let s := s.addWrap (fld_TX_STREAM_SEQ_SEQUENCE t) 1
    s.setTx t { v with payload := some { p with started := true, bytes := h ++ toLe 4 r ++ p.bytes, number := v.sequence }, loss := false,
                       sequence := (v.sequence + 1) % 2 ^ 32 }
  | none => s

/-- Whether stream a's payload is to go before b's: PRIORITY, the earlier publication, the lower number (R487). -/
def State.goesBefore (s : State) (a b : Nat) : Bool :=
  let key (t : Nat) : Nat × Nat :=
    (if s.flag (fld_TX_STREAM_CFG_PRIORITY t) then 0 else 1, match (s.txStream t).payload with | some p => p.published | none => 0)
  let x := key a
  let y := key b
  decide (x.1 < y.1) || (x.1 == y.1 && (decide (x.2 < y.2) || (x.2 == y.2 && decide (a < b))))

/-- The streams with a payload on a port. -/
def State.txOnPort (s : State) (n : Nat) : List Nat :=
  (List.range 16).filter (fun t => (s.txStream t).payload.isSome && s.txPort t == n)

/-- The port takes its next packet (R487). -/
def State.choosePacket (s : State) (n : Nat) : State :=
  let p := s.txPortState n
  if p.busy.isSome = true ∨ s.flag (fld_CSI_TX_STATUS_IN_RESET n) = true then s
  else
    match (s.txOnPort n).foldl (fun (b : Option Nat) t =>
        match b with | some u => if s.goesBefore t u then some t else b | none => some t) none with
    | some t =>
      let s := match (s.txStream t).payload with | some q => if q.started then s else s.beginPayload t | none => s
      s.setTxPort n { p with busy := some t }
    | none => s

/-! ### Payloads -/

/-- Give back what a payload has acquired (R192). -/
def State.releaseHolds (s : State) (t : Nat) (p : TxPayload) : State :=
  p.holds.foldl (fun s h =>
    if (s.marker h.1).gen = h.2 then
      match s.releaseOp h.1 (txAgent t) with | some u => u | none => s
    else s) s

/-- A stream's payload ends. -/
def State.endPayload (s : State) (t : Nat) : State :=
  match (s.txStream t).payload with
  | some p => (s.releaseHolds t p).setTx t { s.txStream t with payload := none }
  | none => s

/-- A stream's publication is not sent (R486). -/
def State.skipPayload (s : State) (t : Nat) : State :=
  (s.addSat (fld_TX_STREAM_LOSS_SKIPPED t) 1).setTx t { s.txStream t with loss := true }

/-- Whether a stream can start a payload. -/
def State.txFree (s : State) (t : Nat) : Bool :=
  (s.txStream t).enabled && (s.txStream t).payload.isNone && !s.flag (fld_CSI_TX_STATUS_IN_RESET (s.txPort t)) && s.swatchRuns hostSwatch

/-- Bytes of a payload's body: those it holds, and the lines of the frame store that follow them. -/
def TxPayload.length (p : TxPayload) : Nat := p.bytes.length + (p.lines.map (·.2)).sum

/-- Start a payload (R485): with its 32-byte header it fills ⌈bytes / LINE_BYTES⌉ packets; an idle port takes its first at once. -/
def State.startPayload (s : State) (t : Nat) (p : TxPayload) : State :=
  let s := s.setTx t { s.txStream t with
    payload := some { p with packets := ceilDiv (32 + p.length) (max 1 (s.lineBytes t)), sent := 0, started := false, cut := false } }
  s.choosePacket (s.txPort t)

/-- A payload of a body copied at publication. -/
def TxPayload.copied (body : List Byte) (flags : Nat) (tov : Stamp) (age : Nat) (published : Stamp) (period : Option Nat) : TxPayload :=
  { bytes := body, flags := flags, tov := tov, age := age, published := published, period := period, holds := [], sent := 0,
    packets := 0, started := false, cut := false, deadline := none, lines := [], number := 0 }

/-- The lines of an image copy without stride padding, as places of the frame store and lengths (R488). -/
def BufEntry.lines (e : BufEntry) (copy : Nat) : List (Nat × Nat) :=
  (List.range e.height).map (fun y => (e.copyBase copy + 64 + y * e.stride, e.width * elementBytes e.format))

/-- The copy of the confidence buffer that the same activation published (R486). -/
def State.sameActivation (s : State) (e : BufEntry) (record : List Byte) : Option Nat :=
  (List.range (s.bufCopies e)).find? (fun c =>
    let r := s.frameBytes (e.copyBase c) 16
    slice r 0 1 == slice record 0 1 && slice r 4 4 == slice record 4 4 &&
      (match s.bufMarker e c with | some m => (s.marker m).state == .published | none => false))

/-- ACQUIRE a published generation for a stream; none where it is gone. -/
def State.txAcquire (s : State) (t m gen : Nat) : Option State :=
  if (s.marker m).judge gen 65535 = some .ready then s.acquireOp m (txAgent t) gen 65535 else none

/-- The next frame start of a graph's trigger stream (R486). -/
def State.nextFrameStart (s : State) (g : Nat) : Stamp :=
  let n := s.clockStream g
  let period := usStamp (s.fld (fld_STREAM_PERIOD_PERIOD_US n))
  match (Store.get Stream.reset s.vis.streams n).lastStart with
  | some t => if s.stamp < t + period then t + period else s.stamp + period
  | none => s.stamp + period

/-- The image descriptor (Table 14.3). -/
def imageDescriptor (e : BufEntry) (planes : Nat) (record : List Byte) (bytes : Nat) : List Byte :=
  toLe 2 e.width ++ toLe 2 e.height ++ toLe 1 e.format ++ toLe 1 planes ++ slice record 0 2 ++ slice record 4 8 ++ toLe 4 bytes ++ toLe 12 0

/-- A DISPARITY or DEPTH payload, its generations acquired; none where one of them is gone (R486, R488). -/
def State.imagePayload (s : State) (o : TxOffer) (copy gen : Nat) : Option (TxPayload × State) :=
  let t := o.stream
  let e := s.bufEntry (s.txSource t)
  match s.bufMarker e copy with
  | none => none
  | some m =>
    match s.txAcquire t m gen with
    | none => none
    | some s =>
      let record := s.frameBytes (e.copyBase copy) 64
      let more : Option (List (Nat × Nat) × List (Nat × Nat) × State) :=
        match s.txConfidence t with
        | none => some ([], [], s)
        | some b =>
          let f := s.bufEntry b
          match s.sameActivation f record with
          | some c =>
            match s.bufMarker f c with
            | some k => (s.txAcquire t k (s.marker k).gen).map (fun u => ([(k, (s.marker k).gen)], f.lines c, u))
            | none => none
          | none => none
      match more with
      | none => none
      | some (holds, second, s) =>
        let lines := e.lines copy ++ second
        let body := imageDescriptor e (if s.txConfidence t = none then 1 else 2) record (lines.map (·.2)).sum
        some ({ bytes := body, lines := lines, number := 0, flags := field record 2 2 % 32, tov := mkStamp (field record 0x10 8) (field record 0x18 4),
                age := nsStamp (field record 0x1C 4), published := o.published, period := none, holds := (m, gen) :: holds, sent := 0,
                packets := 0, started := false, cut := false, deadline := some (s.nextFrameStart (field record 0 1)) }, s)

/-- A selected publication is taken up (R486): it starts a payload, or is not sent. One whose generation is gone is due and not
sent, so it leaves LOSS. -/
def State.takeOffer (s : State) (o : TxOffer) : State :=
  let t := o.stream
  if s.txFree t then
    match o.source with
    | .copied b => s.startPayload t (TxPayload.copied b o.flags o.tov o.age o.published o.period)
    | .image c gen =>
      match s.imagePayload o c gen with
      | some (p, u) => u.startPayload t p
      | none => s.setTx t { s.txStream t with loss := true }
  else s.skipPayload t

/-- A stream may start a payload now: DIAG is Class D work, paused in DOZE and NAP (R517, Table 15.3). -/
def State.txMayStart (s : State) (t : Nat) : Bool := s.swatchRuns hostSwatch && !(s.txType t == txDiag && s.dozing)

/-- TRANSMIT_PUBLICATION (R486): the stream's oldest selected publication. -/
def execTransmitPublication (stream : Fin 16) (s : State) : Host.Outcome State Fault Refusal :=
  match s.links.offers.find? (fun o => o.stream == stream.val) with
  | some o =>
    if s.txMayStart stream.val then
      .next ({ s with links := { s.links with offers := dropFirst (fun o => o.stream == stream.val) s.links.offers } }.takeOffer o)
    else .next s
  | none => .next s

/-- The part of a list of frame-store ranges that begins after `skip` bytes of them and is `n` bytes long. -/
def cutRanges : List (Nat × Nat) → Nat → Nat → List (Nat × Nat)
  | [], _, _ => []
  | (a, k) :: rest, skip, n =>
    if k ≤ skip then cutRanges rest (skip - k) n
    else
      let m := min (k - skip) n
      if m = 0 then [] else (a + skip, m) :: cutRanges rest 0 (n - m)

/-- The ranges of the frame store that packet i of a payload carries (R485, R486). -/
def TxPayload.packetRanges (p : TxPayload) (line i : Nat) : List (Nat × Nat) :=
  cutRanges p.lines (line * i - p.bytes.length) (line - ((p.bytes.drop (line * i)).take line).length)

/-- The bytes of packet i of a payload, the lines read from the frame store as it goes out, padded with zeros (R485, R486). -/
def State.packetBytes (s : State) (p : TxPayload) (line i : Nat) : List Byte :=
  slice ((p.bytes.drop (line * i)).take line ++ (p.packetRanges line i).flatMap (fun r => s.frameBytes r.1 r.2)) 0 line

/-- What a port has sent when a packet of a stream ends, or when its payload ends between packets (R482, R485). -/
def State.packetOf (s : State) (t : Nat) (p : TxPayload) (first : Bool) (bytes : List Byte) (last : Bool) : TxPacket :=
  { stream := t, channel := s.txChannel t, dataType := 0x2F + s.txType t,
    frameStart := if first then some (p.number % 65535 + 1) else none, bytes := bytes, frameEnd := last }

/-- A packet's reads of the frame store find its marked words (R326, log entry 66). -/
def State.readLines (s : State) (l : List (Nat × Nat)) : State :=
  l.foldl (fun s r => s.readSram hostSwatch frameSwatch frameStore r.1 r.2) s

/-- TRANSMIT_PACKET_DONE (R485, R487): the packet on the wire ends; a payload ends after its last packet, or after this one where it
is cut; and the port chooses its next packet. -/
def execTransmitPacketDone (port : Fin 4) (s : State) : Host.Outcome State Fault Refusal :=
  let n := port.val
  match (s.txPortState n).busy with
  | none => .next s
  | some t =>
    match (s.txStream t).payload with
    | none => .next s
    | some p =>
      if s.swatchRuns hostSwatch = false then .next s
      else
        let last := p.cut || decide (p.packets ≤ p.sent + 1)
        let wire := s.packetOf t p (p.sent == 0) (s.packetBytes p (s.lineBytes t) p.sent) last
        let s := s.readLines (p.packetRanges (s.lineBytes t) p.sent)
        let s := s.setTxPort n { busy := none, wire := some wire }
        let s := s.setTx t { s.txStream t with payload := some { p with sent := p.sent + 1 } }
        let s := if last then (s.endPayload t).addWrap (fld_CSI_TX_FRAMES_FRAMES n) 1 else s
        .next (s.choosePacket n)

/-- A DISPARITY or DEPTH payload is cut: it ends after the packet in progress, or with the frame end at once between packets; one that
has sent nothing is lost whole (R486). -/
def State.cutPayload (s : State) (t : Nat) (p : TxPayload) : State :=
  let n := s.txPort t
  let s := s.addSat (fld_TX_STREAM_LOSS_CUT t) 1
  if (s.txPortState n).busy = some t then s.setTx t { s.txStream t with payload := some { p with cut := true } }
  else
    let s := s.endPayload t
    if p.started then
      (s.setTxPort n { s.txPortState n with wire := some (s.packetOf t p false [] true) }).addWrap (fld_CSI_TX_FRAMES_FRAMES n) 1
    else s.setTx t { s.txStream t with loss := true }

/-- The payload that a deadline would cut: one with a deadline, not yet cut. -/
def State.cuttable (s : State) (t : Nat) : Option (TxPayload × Stamp) :=
  match (s.txStream t).payload with
  | some p => match p.deadline with | some d => if p.cut then none else some (p, d) | none => none
  | none => none

/-- TRANSMIT_CUT (R486): at its deadline a DISPARITY or DEPTH payload is cut. -/
def execTransmitCut (stream : Fin 16) (s : State) : Host.Outcome State Fault Refusal :=
  match s.cuttable stream with
  | some (p, d) => if s.swatchRuns hostSwatch then .next ((s.advanceTo d).cutPayload stream p) else .next s
  | none => .next s

/-! ### Products formed in HOST -/

/-- COMMAND_STATUS_SEND (R488): 64 records are pending, or the oldest has waited 1 ms. -/
def execCommandStatusSend (s : State) : Host.Outcome State Fault Refusal :=
  let ready := (s.txOfType txStatus).filter s.txFree
  match s.links.status with
  | [] => .next s
  | r :: _ =>
    if ready = [] then .next s
    else
      let s := if s.links.status.length < 64 then s.advanceTo (r.made + usStamp 1000) else s
      let l := s.links.status.take 64
      let body := toLe 2 l.length ++ toLe 14 0 ++ l.flatMap StatusRecord.bytes
      let lost := s.links.statusLoss
      let s := { s with links := { s.links with status := s.links.status.drop 64, statusLoss := false } }
      .next ((s.txOfType txStatus).foldl (fun s t =>
        if ready.contains t then
          let s := if lost then s.setTx t { s.txStream t with loss := true } else s
          s.startPayload t (TxPayload.copied body s.suspectFlag s.stamp 0 s.stamp none)
        else s.skipPayload t) s)

/-- TILE_DELTA_SEND (R488): the oldest record of the tile delta buffer, its journal entry programmed. -/
def execTileDeltaSend (s : State) : Host.Outcome State Fault Refusal :=
  match s.links.tileDelta, (s.txOfType txTileDelta).filter s.txFree with
  | d :: rest, t :: _ =>
    let s := if s.links.tileLoss then s.setTx t { s.txStream t with loss := true } else s
    let s := { s with links := { s.links with tileDelta := rest, tileLoss := false } }
    let body := toLe 4 d.tile ++ toLe 4 d.gen ++ toLe 4 d.bytes.length ++ toLe 4 0 ++ d.bytes
    .next (s.startPayload t (TxPayload.copied body d.flags d.tov (s.stamp - d.tov) s.stamp none))
  | _, _ => .next s

/-! ### Resets -/

/-- Cut every payload on a port (R489): one begun counts in CUT, one not begun in SKIPPED and owes LOSS. -/
def State.cutPort (s : State) (n : Nat) : State :=
  let s := (s.txOnPort n).foldl (fun s t =>
    match (s.txStream t).payload with
    | some p =>
      let s := s.endPayload t
      if p.started then s.addSat (fld_TX_STREAM_LOSS_CUT t) 1 else s.skipPayload t
    | none => s) s
  s.setTxPort n { s.txPortState n with busy := none }

/-- CSI_TX_PORT_RESET (R489). -/
def execCsiTxPortReset (port : Fin 4) (data : Word) (s : State) : Host.Outcome State Fault Refusal :=
  match s.writeTaken (reg_CSI_TX_CTRL port) data with
  | some d =>
    if d.getLsbD 0 then .next ((s.cutPort port).setFlag (fld_CSI_TX_STATUS_IN_RESET port) true) else .next s
  | none => .next s

/-- A swatch reset of HOST cuts every payload, and empties the tile delta buffer and the pending records (R489, R497); SEQUENCE starts
again (R480). -/
def State.resetTransmit (s : State) : State :=
  let s := (List.range 16).foldl (fun s t =>
    let s := s.endPayload t
    let v := s.txStream t
    s.setTx t { v with loss := false, sequence := 0 }) s
  { s with links := { s.links with txPorts := [], tileDelta := [], tileRoom := none, tileLoss := false, status := [], statusLoss := false, offers := [] } }

/-- A swatch reset of FRAME takes the buffers of the payloads sent from it: they are cut (R80, R192). -/
def State.cutImages (s : State) : State :=
  (List.range 16).foldl (fun s t =>
    match (s.txStream t).payload with
    | some p =>
      if p.deadline.isSome then
        let n := s.txPort t
        let s := (s.setTx t { s.txStream t with payload := none }).addSat (fld_TX_STREAM_LOSS_CUT t) 1
        if (s.txPortState n).busy = some t then (s.setTxPort n { s.txPortState n with busy := none }).choosePacket n else s
      else s
    | none => s) s

end Sys2Proof.Machine
end

