-- ==== Sys2Proof/Machine/Commands.lean ====
section
/-!
DEFINITION. The inbound command channel: the decoder and the command types (R490 to R497).
-/
namespace Sys2Proof.Machine

/-! ### The decoder -/

/-- The command channel takes what comes to a port and virtual channel (R490). -/
def State.commandAt (s : State) (port vc : Nat) : Bool :=
  s.links.cmdActive && s.portReceives port && s.swatchRuns hostSwatch && s.fld fld_HL_CFG_CMD_PORT == port &&
    s.fld fld_HL_CFG_CMD_VC == vc

/-- A tile size under R304: whole pages, up to 4 MiB. -/
def tileSizeOk (n : Nat) : Bool := n % pageBytes == 0 && decide (0 < n) && decide (n ≤ 2 ^ 22)

/-- A body agrees with Table 14.6. A TARGET has no WORDS to equal without valid Class A settings. -/
def State.bodyOk (s : State) (dt : Nat) (b : List Byte) : Bool :=
  let n := b.length
  if dt = 0x30 then
    decide (8 ≤ n) && field b 1 3 == 0 && decide (1 ≤ field b 4 4) && decide (field b 4 4 ≤ 8000) && n == 8 + 8 * field b 4 4
  else if dt = 0x31 then
    decide (4 ≤ n) && field b 2 2 == 0 && n == 4 + 4 * field b 0 2 && settingsOk (s.settingsBytes 0) && field b 0 2 == s.setting 0x1C 2
  else if dt = 0x32 then
    decide (16 + 4096 ≤ n) && decide (n ≤ 16 + 61440) && (n - 16) % 4096 == 0 && field b 12 4 == 0 && tileSizeOk (field b 4 4)
  else
    decide (8 ≤ n) && decide (field b 0 1 ≤ 2) && decide (field b 1 1 ≤ 1) && field b 2 2 == 0 &&
      (field b 0 1 != 0 || field b 4 4 == 0) && n == 8 + (if field b 0 1 = 2 then 0 else pageData)

/-- The checks of R492 on a command message, in order; what passes waits for the step of its command type. -/
def State.decodeCommand (s : State) (d : Nat) (bytes : List Byte) (checksum : Bool) (arrival : Stamp) : State :=
  let dt := 0x30 + d
  let alive := if bytes.length < 4 then 0 else field bytes 2 2
  let body := slice bytes 8 (bytes.length - 12)
  if checksum = false ∨ bytes.length < 12 ∨ field bytes 0 2 ≠ 0x4D43 ∨ bytes.length ≠ 12 + field bytes 4 4 then
    s.addStatus dt cmdBadLength 0 alive arrival
  else
    let crcAt := bytes.length - 4
    let (o, s) := s.verify (s.fld fld_HL_CFG_CMD_CHECK) (bytes.take crcAt) (field bytes crcAt 4) d alive
    match o with
    | none => s.addStatus dt cmdCrc 0 alive arrival
    | some .again => s.addStatus dt cmdRepeat 0 alive arrival
    | some o =>
      let s := if o = .skip then s.addSat fld_CMD_COUNT_2_SKIP 1 else s
      if 0x34 ≤ dt then s.addStatus dt cmdBadType 0 alive arrival
      else if s.bodyOk dt body = false then s.addStatus dt cmdBadBody 0 alive arrival
      else { s with links := { s.links with bodies := s.links.bodies ++ [⟨dt, body, alive, arrival, s.stamp⟩] } }

/-- COMMAND_MESSAGE (R490 to R492, R496). -/
def execCommandMessage (port : Fin 12) (vc : Fin 16) (dt : BitVec 3) (bytes : List Byte) (checksum : Bool) (arrival : Tap)
    (s : State) : Host.Outcome State Fault Refusal :=
  if s.commandAt port vc then .next (s.decodeCommand dt.toNat bytes checksum (s.tapTime arrival)) else .next s

/-- The oldest checked body of a type, and the state without it. -/
def State.nextBody (s : State) (dt : Nat) : Option (CommandBody × State) :=
  match s.links.bodies.find? (fun b => b.dt == dt) with
  | some b => if s.swatchRuns hostSwatch then
      some (b, { s with links := { s.links with bodies := dropFirst (fun x => x.dt == dt) s.links.bodies } }) else none
  | none => none

/-- A record for a body. -/
def State.answerBody (s : State) (b : CommandBody) (result detail : Nat) : State := s.addStatus b.dt result detail b.alive b.arrival

/-! ### QP_DELTA and TARGET (R493) -/

/-- QP_DELTA (R493): a list is published, or refused BUSY where 16 wait. -/
def execQpDelta (s : State) : Host.Outcome State Fault Refusal :=
  match s.nextBody 0x30 with
  | none => .next s
  | some (b, s) =>
    if 16 ≤ s.links.deltas.length then .next (s.answerBody b cmdBusy 0)
    else
      let entries := (List.range (field b.body 4 4)).map (fun i =>
        (field b.body (8 + 8 * i) 4, BitVec.ofNat 32 (field b.body (12 + 8 * i) 4)))
      let d : DeltaList := ⟨field b.body 0 1, entries, b.alive, b.arrival, b.checked, false⟩
      .next ({ s with links := { s.links with deltas := s.links.deltas ++ [d] } }.answerBody b cmdAccepted 0)

/-- TARGET (R493): a target record is published. -/
def execTarget (s : State) : Host.Outcome State Fault Refusal :=
  match s.nextBody 0x31 with
  | none => .next s
  | some (b, s) =>
    let words := toWords (field b.body 0 2) (b.body.drop 4)
    .next ({ s with links := { s.links with targets := s.links.targets ++ [(b.checked, words)] } }.answerBody b cmdAccepted 0)

/-- The target record of a period is the latest published before its cut-off (R30, R493). -/
def State.takeTargets (s : State) (cutoff : Stamp) : State :=
  let (now, later) := s.links.targets.partition (fun t => decide (t.1 < cutoff))
  { s with links := { s.links with target := match now.getLast? with | some t => t.2 | none => s.links.target, targets := later } }

/-- A list whose SLOT is not the Class A slot in use at its first cut-off is discarded there (R493). -/
def State.discardDeltas (s : State) (cutoff : Stamp) (slot : Option Nat) : State :=
  let first (d : DeltaList) : Bool := !d.seen && decide (d.published < cutoff)
  let gone (d : DeltaList) : Bool := first d && slot != some d.slot
  let l := s.links.deltas.filter gone
  let s := { s with links := { s.links with deltas :=
    (s.links.deltas.filter (fun d => !gone d)).map (fun d => if first d then { d with seen := true } else d) } }
  l.foldl (fun s d => s.addStatus 0x30 cmdDiscarded 0 d.alive d.arrival) s

/-! ### TILE (R494) -/

/-- Set the assembly. -/
def State.setAssembly (s : State) (a : Option TileAssembly) : State := { s with links := { s.links with assembly := a } }.settleManager

/-- The first fragment of a tile: staging pages for all of it. -/
def State.beginAssembly (s : State) (b : CommandBody) : State :=
  let s := match s.links.assembly with
    | some _ => (s.setAssembly none).answerBody b cmdOrder 0
    | none => s
  let total := field b.body 4 4
  let (pages, s) := s.allocate s.usedPages (total / pageBytes)
  (s.setAssembly (some ⟨field b.body 0 4, total, b.body.drop 16, pages, b.alive, b.arrival⟩)).answerBody b cmdAccepted 0

/-- A later fragment: the next of its tile, or the end of the assembly. -/
def State.extendAssembly (s : State) (b : CommandBody) : State :=
  match s.links.assembly with
  | none => s.answerBody b cmdOrder 0
  | some a =>
    let data := b.body.drop 16
    if field b.body 0 4 = a.tile ∧ field b.body 4 4 = a.total ∧ field b.body 8 4 = a.bytes.length ∧
        a.bytes.length + data.length ≤ a.total then
      (s.setAssembly (some { a with bytes := a.bytes ++ data, alive := b.alive, arrival := b.arrival })).answerBody b cmdAccepted 0
    else (s.setAssembly none).answerBody b cmdOrder 0

/-- TILE (R494): BUSY in DOZE (R527). A first fragment waits for the staging pages it lacks, and while no new Class C work is admitted
(R517). -/
def execTile (s : State) : Host.Outcome State Fault Refusal :=
  match s.nextBody 0x32 with
  | none => .next s
  | some (b, t) =>
    if s.dirReady = false ∨ s.dozing = true then .next (t.answerBody b cmdBusy 0)
    else if field b.body 8 4 = 0 then
      if s.admitsClassC = false ∨ s.swatchRuns 15 = false ∨ s.freePages + s.stagedPages < field b.body 4 4 / pageBytes ∨
          field b.body 4 4 < b.body.length - 16 then
        (if field b.body 4 4 < b.body.length - 16 then .next ((t.setAssembly none).answerBody b cmdOrder 0) else .next s)
      else .next (t.beginAssembly b)
    else .next (t.extendAssembly b)

/-- Put an assembled tile in place: its home becomes the staged pages in DRAM, and it is dirty (R494). -/
def State.placeTile (s : State) (a : TileAssembly) : State :=
  let id := tileId a.tile
  let n := s.mem.accesses + 1
  let record := match s.object id with | some o => o.record | none => none
  let s := (s.setAssembly none).setMemBytes id 0 a.bytes
  let s := { s with mem := { s.mem with accesses := n, bad := s.mem.bad.filter (fun e => e.1 / 2 ^ 40 != id) } }
  s.setObject id (some ⟨a.total, true, tierDram, true, record, n, a.pages⟩)

/-- TILE_ASSEMBLY_DONE (R494): once no lease holds the tile, it is put in place, or is found pinned. -/
def execTileAssemblyDone (s : State) : Host.Outcome State Fault Refusal :=
  match s.links.assembly with
  | none => .next s
  | some a =>
    let id := tileId a.tile
    if a.bytes.length < a.total ∨ s.moverRuns = false ∨ s.leased id = true then .next s
    else if isTile id = false ∨ s.fld fld_MEM_TILE_CFG_DIR_ENTRIES ≤ a.tile ∨ s.tileRegionBad = true then
      .next ((s.setAssembly none).addStatus 0x32 cmdTile moverBadObject a.alive a.arrival)
    else if s.pinCount id ≠ 0 then .next ((s.setAssembly none).addStatus 0x32 cmdPinned 0 a.alive a.arrival)
    else .next (((s.placeTile a).addStatus 0x32 cmdTile moverDone a.alive a.arrival).serveWaiting)

/-! ### INDEX (R495) -/

/-- INDEX (R495): the import buffer holds 64 pages. -/
def execIndex (s : State) : Host.Outcome State Fault Refusal :=
  match s.nextBody 0x33 with
  | none => .next s
  | some (b, s) =>
    let sub := field b.body 0 1
    if sub ≠ 2 ∧ 64 ≤ (s.links.importBuffer.filter (fun i => i.sub != 2)).length then .next (s.answerBody b cmdBusy 0)
    else
      let i : ImportItem := ⟨sub, field b.body 1 1, field b.body 4 4, b.body.drop 8, b.alive, b.arrival⟩
      .next ({ s with links := { s.links with importBuffer := s.links.importBuffer ++ [i] } }.answerBody b cmdAccepted 0)

/-- A swatch reset of HOST abandons the assembly, frees its staging, and loses the buffered pages (R495, R497). -/
def State.resetCommands (s : State) : State :=
  { s with links := { s.links with assembly := none, importBuffer := [], bodies := [] } }

end Sys2Proof.Machine
end

