-- ==== Sys2Proof/Machine/TrackLk.lean ====
section
/-!
DEFINITION. The corner engine's angle and float descriptor (R227) and the tracker's search (R229) over real numbers.
-/
namespace Sys2Proof.Machine

/-! ### Angle and float descriptor (R227) -/

/-- The intensity moments m10 and m01 over the disc of radius 15. -/
def State.moments (s : State) (g : Gray) (c : Corner) : Int × Int :=
  let span : List Int := (List.range 31).map (fun (i : Nat) => (i : Int) - 15)
  span.foldl (fun m j => span.foldl (fun (m : Int × Int) i =>
    if i * i + j * j ≤ 225 then
      let p : Int := s.pixel g (c.x + i) (c.y + j)
      (m.1 + i * p, m.2 + j * p)
    else m) m) (0, 0)

/-- ANGLE: atan2(m01, m10) in units of 2π/65,536, within 4 of it. -/
def angleOf (m : Int × Int) (k : Nat) : Nat :=
  let u := fixMul (fixDiv (fixAtan2 (m.2 * fixOne) (m.1 * fixOne)) (2 * fixPi)) (fixNat 65536)
  let lo := -((4 * fixOne - u) / fixOne)
  let hi := (u + 4 * fixOne) / fixOne
  ((lo + ((k : Int) % (hi - lo + 1))) % 65536).toNat

/-- The unit vector of an angle from its moments; along x where both are 0. -/
def momentAxis (m : Int × Int) : Fix × Fix :=
  if m = (0, 0) then (fixOne, 0)
  else
    let u := vecUnit [m.1 * fixOne, m.2 * fixOne]
    (fixAt u 0, fixAt u 1)

/-- The pixel nearest a coordinate; of two as near, the one that `up` says. -/
def nearestPixel (v : Fix) (up : Bool) : Int := roundNearest (fixToRat v) up

/-- The gradient at sample (i, j) of the 16 × 16 grid, in the keypoint frame. -/
def State.gridGradient (s : State) (g : Gray) (c : Corner) (axis : Fix × Fix) (up : Bool) (i j : Nat) : Fix × Fix :=
  let x : Fix := (2 * (i : Int) - 15) * fixOne / 2
  let y : Fix := (2 * (j : Int) - 15) * fixOne / 2
  let px := (c.x : Int) + nearestPixel (fixMul axis.1 x - fixMul axis.2 y) up
  let py := (c.y : Int) + nearestPixel (fixMul axis.2 x + fixMul axis.1 y) up
  let gx : Int := (s.pixel g (px + 1) py : Int) - s.pixel g (px - 1) py
  let gy : Int := (s.pixel g px (py + 1) : Int) - s.pixel g px (py - 1)
  (axis.1 * gx + axis.2 * gy, axis.1 * gy - axis.2 * gx)

/-- The 32 sums Σgx and Σgy, subregion by subregion in raster order. -/
def State.gridSums (s : State) (g : Gray) (c : Corner) (axis : Fix × Fix) (up : Bool) : List Fix :=
  (List.range 16).flatMap (fun r =>
    let (x, y) := (List.range 16).foldl (fun (t : Fix × Fix) k =>
      let d := s.gridGradient g c axis up (r % 4 * 4 + k % 4) (r / 4 * 4 + k / 4)
      (t.1 + d.1, t.2 + d.2)) (0, 0)
    [x, y])

/-- The float descriptor: the sums at unit length in FP16; FP32 sums lie within 2^-18 of their length (assumption 62). -/
def State.floatDescriptor (s : State) (g : Gray) (c : Corner) (m : Int × Int) : List Byte × State :=
  let (up, s) := s.takeBit
  let sums := vecUnit (s.gridSums g c (momentAxis m) up)
  if sums.all (· == 0) then (toLe 64 0, s)
  else
    sums.foldl (fun (x : List Byte × State) v =>
      let (w, s) := x.2.takeWord
      (x.1 ++ toLe 2 (fp16.encode (fp16.round (fixToRat (fixFree v (fixOne / 2 ^ 18) w.toNat)) (bit w.toNat 63))), s)) ([], s)

/-- A keypoint record (Table 6.10). The rounding of a coordinate to Q16.16 is free. -/
def State.keypointRecord (s : State) (g : Gray) (t log plane desc : Nat) (c : Corner) : List Byte × State :=
  let sc (i j : Int) : Nat := s.cornerScore g t (c.x + i).toNat (c.y + j).toNat
  let ox := subpixel (sc (-1) 0) (sc 0 0) (sc 1 0)
  let oy := subpixel (sc 0 (-1)) (sc 0 0) (sc 0 1)
  let (ux, s) := s.takeBit
  let (uy, s) := s.takeBit
  let (aw, s) := s.takeWord
  let m := s.moments g c
  let angle := angleOf m aw.toNat
  let scale : Rat := ((2 ^ (plane + 16) : Nat) : Rat)
  let x := roundFree (((c.x : Rat) + ox) * scale) ux
  let y := roundFree (((c.y : Rat) + oy) * scale) uy
  let bin := if bit desc 0 then s.binaryDescriptor g c angle else toLe 32 0
  let (fl, s) := if bit desc 1 then s.floatDescriptor g c m else (toLe 64 0, s)
  (toLe 4 (x % 2 ^ 32).toNat ++ toLe 4 (y % 2 ^ 32).toNat ++ toLe 2 c.score ++ toLe 2 angle ++ toLe 1 plane ++
    toLe 1 (desc % 4) ++ toLe 2 (cellOf g log c) ++ bin ++ fl ++ toLe 16 0, s)

/-! ### TRACK_LK (R229) -/

/-- A bilinear sample in 2^-16 grey level, the place rounded to 1/256 pixel. -/
def State.bilinear (s : State) (g : Gray) (x y : Fix) : Int :=
  let q (v : Fix) : Int := (512 * v + fixOne) / (2 * fixOne)
  let (qx, qy) := (q x, q y)
  let (x0, y0, wx, wy) := (qx / 256, qy / 256, qx % 256, qy % 256)
  let p (i j : Int) : Int := s.pixel g (x0 + i) (y0 + j)
  (256 - wx) * (256 - wy) * p 0 0 + wx * (256 - wy) * p 1 0 + (256 - wx) * wy * p 0 1 + wx * wy * p 1 1

/-- The half of a window: 9, 15, 21 or 31 pixels square. -/
def halfWindow (code : Nat) : Nat := [4, 7, 10, 15].getD code 4

/-- Offsets of a window. -/
def windowOffsets (half : Nat) : List (Int × Int) :=
  (List.range (2 * half + 1)).flatMap (fun (j : Nat) => (List.range (2 * half + 1)).map (fun (i : Nat) => ((i : Int) - half, (j : Int) - half)))

/-- Whether a window about a place lies in a plane. -/
def windowInside (g : Gray) (half : Nat) (x y : Fix) : Bool :=
  let h := fixNat half
  decide (h ≤ x) && decide (h ≤ y) && decide (x + h ≤ fixNat (g.width - 1)) && decide (y + h ≤ fixNat (g.height - 1))

/-- A pixel of the window of the earlier frame: its value and its central differences, in 2^-16 grey level. -/
structure LkPixel where
  dx : Int
  dy : Int
  value : Int
  gx : Int
  gy : Int
  deriving DecidableEq, Repr

/-- The window about a place of the earlier frame. -/
def State.lkWindow (s : State) (g : Gray) (half : Nat) (x y : Fix) : List LkPixel :=
  (windowOffsets half).map (fun o =>
    let px := x + o.1 * fixOne
    let py := y + o.2 * fixOne
    ⟨o.1, o.2, s.bilinear g px py, (s.bilinear g (px + fixOne) py - s.bilinear g (px - fixOne) py) / 2,
      (s.bilinear g px (py + fixOne) - s.bilinear g px (py - fixOne)) / 2⟩)

/-- The gradient matrix of a window, in grey level² (R229). -/
def lkMatrix (w : List LkPixel) : Fix × Fix × Fix :=
  let t := w.foldl (fun (t : Int × Int × Int) p => (t.1 + p.gx * p.gx, t.2.1 + p.gx * p.gy, t.2.2 + p.gy * p.gy)) (0, 0, 0)
  (t.1 * fixOne / 2 ^ 32, t.2.1 * fixOne / 2 ^ 32, t.2.2 * fixOne / 2 ^ 32)

/-- The smaller eigenvalue of a symmetric 2 × 2 matrix. -/
def smallEigen (m : Fix × Fix × Fix) : Fix :=
  (m.1 + m.2.2 - fixSqrt (fixMul (m.1 - m.2.2) (m.1 - m.2.2) + 4 * fixMul m.2.1 m.2.1)) / 2

/-- A search so far: the displacement, its iterations, whether a window left the plane, whether a matrix was singular, and whether
the last level converged. -/
structure LkSearch where
  dx : Fix
  dy : Fix
  iterations : Nat
  border : Bool
  singular : Bool
  converged : Bool
  deriving DecidableEq, Repr

/-- Gauss–Newton on translation at one level (R229). The precision of a step is not stated: each is off by no more than 2^-10
pixel. -/
def State.lkIterate (s : State) (g : Gray) (half : Nat) (x y : Fix) (w : List LkPixel) (m : Fix × Fix × Fix) (eps : Nat) (base : Nat) :
    Nat → LkSearch → LkSearch
  | 0, r => r
  | n + 1, r =>
    if windowInside g half (x + r.dx) (y + r.dy) = false then { r with border := true }
    else
      let b := w.foldl (fun (t : Int × Int) p =>
        let e := p.value - s.bilinear g (x + r.dx + p.dx * fixOne) (y + r.dy + p.dy * fixOne)
        (t.1 + e * p.gx, t.2 + e * p.gy)) (0, 0)
      let bx : Fix := b.1 * fixOne / 2 ^ 32
      let by_ : Fix := b.2 * fixOne / 2 ^ 32
      let det := fixMul m.1 m.2.2 - fixMul m.2.1 m.2.1
      let k := base + 2 * r.iterations
      let sx := fixFree (fixDiv (fixMul m.2.2 bx - fixMul m.2.1 by_) det) (fixOne / 2 ^ 10) (Config.freeWord k).toNat
      let sy := fixFree (fixDiv (fixMul m.1 by_ - fixMul m.2.1 bx) det) (fixOne / 2 ^ 10) (Config.freeWord (k + 1)).toNat
      let r := { r with dx := r.dx + sx, dy := r.dy + sy, iterations := r.iterations + 1 }
      if fixMul sx sx + fixMul sy sy < eps * eps * fixOne / 65536 then { r with converged := true }
      else State.lkIterate s g half x y w m eps base n r

/-- What a tracker node works with: the planes of the two frames by level, and its parameters (Table 6.8). -/
structure LkJob where
  earlier : List Gray
  later : List Gray
  first : Nat
  half : Nat
  maxIter : Nat
  eps : Nat
  minEig : Nat
  deriving DecidableEq, Repr

/-- One level of a search, the displacement carried in that level's pixels. -/
def State.lkLevel (s : State) (j : LkJob) (x y : Fix) (base level : Nat) (r : LkSearch) : LkSearch :=
  let a := j.earlier.getD level ⟨0, 0, 0, 0⟩
  let b := j.later.getD level ⟨0, 0, 0, 0⟩
  let px := x / 2 ^ (j.first + level)
  let py := y / 2 ^ (j.first + level)
  if windowInside a j.half px py = false then { r with border := true, converged := false }
  else
    let w := s.lkWindow a j.half px py
    let m := lkMatrix w
    let area : Int := ((2 * j.half + 1) * (2 * j.half + 1) : Nat)
    if smallEigen m < area * j.minEig * fixOne / 256 then { r with singular := true, converged := false }
    else s.lkIterate b j.half px py w m j.eps base j.maxIter { r with converged := false }

/-- The search from the coarsest level down: the displacement doubles from one level to the next; a window that leaves the plane or
a singular matrix ends it. -/
def State.lkSearch (s : State) (j : LkJob) (x y : Fix) (base : Nat) : Nat → LkSearch → LkSearch
  | 0, r => r
  | level + 1, r =>
    let r := s.lkLevel j x y base level r
    if r.border ∨ r.singular then r
    else State.lkSearch s j x y base level (if level = 0 then r else { r with dx := 2 * r.dx, dy := 2 * r.dy })

/-- A whole search for a point, from a first displacement in plane-0 pixels; its result is in those of the finest level. -/
def State.lkTrack (s : State) (j : LkJob) (x y dx dy : Fix) (levels base : Nat) : LkSearch :=
  let k := 2 ^ (j.first + levels - 1)
  s.lkSearch j x y base levels ⟨dx / k, dy / k, 0, false, false, false⟩

/-- The mean absolute residual at the finest level, in 2^-16 grey level. -/
def State.lkResidual (s : State) (j : LkJob) (x y : Fix) (r : LkSearch) : Rat :=
  let a := j.earlier.getD 0 ⟨0, 0, 0, 0⟩
  let b := j.later.getD 0 ⟨0, 0, 0, 0⟩
  let px := x / 2 ^ j.first
  let py := y / 2 ^ j.first
  let w := s.lkWindow a j.half px py
  let t := w.foldl (fun (t : Nat) p => t + (p.value - s.bilinear b (px + r.dx + p.dx * fixOne) (py + r.dy + p.dy * fixOne)).natAbs) 0
  (t : Rat) / (w.length : Rat)

/-- A tracker result record (Table 6.11) for a point record, in the order of R229's statuses. Where the search stops at the border
or a singular matrix its place and error are free; whether ITER counts the backward search is too. -/
def State.trackRecord (s : State) (j : LkJob) (levels maxErr : Nat) (fb : Bool) (fbMax : Nat) (point : List Byte) : List Byte × State :=
  let coord (off : Nat) : Fix := signed 32 (field point off 4) * fixOne / 65536
  let x := coord 4
  let y := coord 8
  let pred := bit (field point 0x14 4) 0
  let steps := 2 * levels * j.maxIter
  let base := s.fresh
  let s := { s with fresh := s.fresh + 2 * steps }
  let r := s.lkTrack j x y (if pred then coord 0x0C - x else 0) (if pred then coord 0x10 - y else 0) levels base
  let lost := r.border || r.singular
  let k : Int := 2 ^ j.first
  let nx := x + k * r.dx
  let ny := y + k * r.dy
  let back : LkSearch := if fb && !lost then
      s.lkTrack { j with earlier := j.later, later := j.earlier } nx ny 0 0 levels (base + steps)
    else ⟨0, 0, 0, false, false, false⟩
  let miss := vecNorm [nx + k * back.dx - x, ny + k * back.dy - y]
  let fbLost := back.border || back.singular
  let error := if lost then 0 else s.lkResidual j x y r
  let status :=
    if r.border then 1 else if r.singular then 5 else if !r.converged then 3
    else if decide ((maxErr : Rat) * 4096 < error) then 2
    else if fb && (fbLost || decide (fbMax * fixOne / 16 < miss)) then 4 else 0
  let (free, s) := s.takeWords 4
  let word (i : Nat) : Nat := (free.getD i 0).toNat
  let (up, s) := s.takeBit
  let (both, s) := s.takeBit
  let (rx, s) := if lost then (word 0, s) else s.roundPixel nx
  let (ry, s) := if lost then (word 1, s) else s.roundPixel ny
  let err := if lost then word 2 % 65536 else (roundFree (error / 4096) up).toNat
  let fbErr := if !fb then 0 else if lost || fbLost then word 3 % 65536 else min 65535 (roundFree (fixToRat miss * 16) up).toNat
  let iter := r.iterations + (if both then back.iterations else 0)
  (slice point 0 4 ++ toLe 4 rx ++ toLe 4 ry ++ toLe 2 err ++ toLe 1 (min 255 iter) ++ toLe 1 status ++ toLe 2 fbErr ++ toLe 14 0, s)

/-- Result records in input order. -/
def State.trackRecords (s : State) (j : LkJob) (levels maxErr : Nat) (fb : Bool) (fbMax : Nat) : List (List Byte) → List Byte × State
  | [] => ([], s)
  | p :: r =>
    let (a, s) := s.trackRecord j levels maxErr fb fbMax p
    let (l, s) := State.trackRecords s j levels maxErr fb fbMax r
    (a ++ l, s)

end Sys2Proof.Machine
end

