-- ==== Sys2Proof/Machine/Verifier.lean ====
section
/-!
DEFINITION. The geometric verifier VERIFIER_0 (R231 to R233).
-/
namespace Sys2Proof.Machine

/-! ### Jobs -/

/-- Fields of a job (Table 6.14). -/
def VerifierJob.at_ (j : VerifierJob) (off n : Nat) : Nat := field j.bytes off n
def VerifierJob.model (j : VerifierJob) : Nat := j.at_ 4 1
def VerifierJob.isFloat (j : VerifierJob) : Bool := bit (j.at_ 5 1) 0
def VerifierJob.mutual_ (j : VerifierJob) : Bool := bit (j.at_ 5 1) 1
def VerifierJob.query (j : VerifierJob) : Nat := j.at_ 0x10 4
def VerifierJob.queryCount (j : VerifierJob) : Nat := j.at_ 0x14 2
def VerifierJob.cand (j : VerifierJob) : Nat := j.at_ 0x18 4
def VerifierJob.candCount (j : VerifierJob) : Nat := j.at_ 0x16 2
def VerifierJob.deadline (j : VerifierJob) : Stamp := mkStamp (j.at_ 0x20 8) (j.at_ 0x28 4)

/-- A job outside a range of Table 6.14 (R231). -/
def VerifierJob.bad (j : VerifierJob) : Bool :=
  decide (j.bytes.length ≠ 64) || decide (2 < j.model) || decide (3 < j.at_ 5 1) || decide (j.at_ 0x0A 2 < 3) ||
    decide (j.at_ 0x0C 2 = 0) || decide (4096 < j.at_ 0x0C 2) || decide (j.at_ 0x0E 1 = 0) ||
    decide (4096 < j.queryCount) || decide (4096 < j.candCount) || decide (j.at_ 0x1C 4 ≠ 0) || decide (j.at_ 0x3C 4 ≠ 0)

/-- The order of the queue: DEADLINE, then submission (R231). -/
def jobBefore (a b : VerifierJob) : Bool :=
  decide (a.deadline < b.deadline) || (a.deadline == b.deadline && decide (a.order < b.order))

/-- The verifier takes the first job of its queue when it is free and Class C work is admitted (R517, R527). -/
def State.takeJob (s : State) : State :=
  match s.vis.verifying, s.vis.verifier with
  | none, j :: r => if s.admitsClassC = false ∨ s.swatchRuns 10 = false then s else { s with vis := { s.vis with verifying := some j, verifier := r } }
  | _, _ => s

/-- Tell a requester that its job will have no result (R231, R233). -/
def State.tellRequester (s : State) (requester : Nat) (job : List Byte) (n : VerifierNotice) : State :=
  { s with vis := { s.vis with verifierTold := s.vis.verifierTold ++ [(requester, field job 0 4, n)] } }

/-- VERIFIER_JOB_SUBMIT (R231). A full queue refuses, and the requester is told; VIS_1 in reset answers PARTNER_RESET (R80). -/
def execVerifierJobSubmit (requester : Fin 2) (job : List Byte) (s : State) : Host.Outcome State Fault Refusal :=
  if s.swatchRuns 10 = false then .next (s.tellRequester requester job .partnerReset)
  else if 64 ≤ s.vis.verifier.length then .next ((s.addSat fld_VER_LOSS_REFUSED 1).tellRequester requester job .refused)
  else
    let n := s.vis.jobs + 1
    let j : VerifierJob := ⟨requester, job, n⟩
    .next ({ s with vis := { s.vis with jobs := n, verifier := insertBy jobBefore j s.vis.verifier } }.takeJob)

/-! ### Matching -/

/-- A keypoint record of an object. -/
def State.keypointOf (s : State) (obj i : Nat) : List Byte := s.memBytes obj (128 * i) 128

/-- Whether a record has the descriptor and, where needed, the landmark that the model uses (R232). -/
def usableRecord (isFloat landmark : Bool) (k : List Byte) : Bool :=
  let f := field k 0x0D 1
  bit f (if isFloat then 1 else 0) && (!landmark || bit f 2)

/-- The squared distance of two descriptors: Hamming bits squared, or the squared L2 distance of the FP16 values. An infinite
or NaN element gives none. -/
def descriptorDistance (isFloat : Bool) (a b : List Byte) : Option Rat :=
  if isFloat then
    (List.range 32).foldl (fun (t : Option Rat) i =>
      match t, fp16.decode (field a (0x30 + 2 * i) 2), fp16.decode (field b (0x30 + 2 * i) 2) with
      | some t, .num x _, .num y _ => some (t + (x - y) * (x - y))
      | _, _, _ => none) (some 0)
  else
    let d := (List.range 32).foldl (fun t i =>
      let x := field a (0x10 + i) 1
      let y := field b (0x10 + i) 1
      t + ((List.range 8).filter (fun k => bit x k != bit y k)).length) 0
    some ((d * d : Nat) : Rat)

/-- The records of a side that take part, with their indices. -/
def State.takingPart (s : State) (obj count : Nat) (isFloat landmark : Bool) : List (Nat × List Byte) :=
  ((List.range count).map (fun i => (i, s.keypointOf obj i))).filter (fun e => usableRecord isFloat landmark e.2)

/-- The nearest record to one, with its squared distance and the second-least. -/
def nearest (isFloat : Bool) (k : List Byte) (l : List (Nat × List Byte)) : Option (Nat × Rat × Option Rat) :=
  l.foldl (fun (b : Option (Nat × Rat × Option Rat)) e =>
    match descriptorDistance isFloat k e.2, b with
    | none, _ => b
    | some d, none => some (e.1, d, none)
    | some d, some (i, d1, d2) =>
      if d < d1 then some (e.1, d, some d1)
      else some (i, d1, match d2 with | some x => if d < x then some d else some x | none => some d)) none

/-- Whether a query record matches its nearest candidate (R232). Distances are compared exactly, as squares. -/
def VerifierJob.accepts (j : VerifierJob) (d1 : Rat) (d2 : Option Rat) : Bool :=
  let most : Rat := if j.isFloat then (j.at_ 6 2 : Rat) / 1024 else (j.at_ 6 2 : Rat)
  let ratio : Rat := (j.at_ 8 1 : Rat) / 256
  decide (d1 ≤ most * most) && (match d2 with | some x => decide (d1 < ratio * ratio * x) | none => true)

/-- The matches of a job, each a query and a candidate record (R232). -/
def State.matches_ (s : State) (j : VerifierJob) : List (List Byte × List Byte) :=
  let q := s.takingPart j.query j.queryCount j.isFloat (j.model == 2)
  let c := s.takingPart j.cand j.candCount j.isFloat (j.model != 1)
  q.filterMap (fun e =>
    match nearest j.isFloat e.2 c with
    | none => none
    | some (i, d1, d2) =>
      let own : Bool := match nearest j.isFloat (s.keypointOf j.cand i) q with
        | some (k, _, _) => k == e.1
        | none => false
      if j.accepts d1 d2 ∧ (j.mutual_ = false ∨ own = true) then some (e.2, s.keypointOf j.cand i) else none)

/-- Read the records of an object: whether they lie within it, at a tier that units reach, with no uncorrectable word. A marked word
that is read counts and raises what R326 says. -/
def State.readable (s : State) (obj n : Nat) : Bool × State :=
  if s.canAccess obj 0 n = false then (false, s)
  else
    let (bad, s) := (s.touch obj).checkWords obj 0 n 10 []
    (bad.isEmpty, s)

/-- Read both record sets of a job. -/
def State.readRecords (s : State) (j : VerifierJob) : Bool × State :=
  let (a, s) := s.readable j.query (128 * j.queryCount)
  let (b, s) := s.readable j.cand (128 * j.candCount)
  (a && b, s)

/-! ### Results -/

def verAccept : Nat := 0
def verFewMatches : Nat := 1
def verFewInliers : Nat := 2
def verDegenerate : Nat := 3
def verDeadline : Nat := 4
def verBadJob : Nat := 5
def verObjectErr : Nat := 6

/-- The result record of Table 6.15; `pose` is what an ACCEPT record carries from 0x10. -/
def VerifierJob.result (j : VerifierJob) (status m inliers iterations rms : Nat) (pose : List Byte) : List Byte :=
  let flags := if j.model = 1 then 1 else 0
  toLe 4 (j.at_ 0 4) ++ toLe 1 status ++ toLe 1 j.model ++ toLe 2 flags ++ toLe 2 m ++ toLe 2 inliers ++ toLe 2 iterations ++
    toLe 2 rms ++ (if status = verAccept then slice pose 0 112 else List.replicate 112 0)

/-- End the running job with a record, returned to its requester (R233, R236). -/
def State.endJob (s : State) (j : VerifierJob) (record : List Byte) : State :=
  let status := field record 4 1
  let s := { s with vis := { s.vis with verifying := none, verifierResult := some (j.requester, record) } }
  let s := if status = verAccept then s.addSat fld_VER_RESULTS_ACCEPTED 1
    else if status ≤ verDegenerate then s.addSat fld_VER_RESULTS_REJECTED 1
    else if status = verDeadline then s.addSat fld_VER_LOSS_DEADLINE 1 else s
  s.takeJob

/-- The jobs queued and running. -/
def State.allJobs (s : State) : List VerifierJob := s.vis.verifier ++ s.vis.verifying.toList

/-- A reset of VIS_1 ends every job with PARTNER_RESET (R233). -/
def State.dropJobs (s : State) : State :=
  let jobs := s.allJobs
  jobs.foldl (fun s j => s.tellRequester j.requester j.bytes .partnerReset) { s with vis := { s.vis with verifier := [], verifying := none } }

end Sys2Proof.Machine
end

