-- ==== Sys2Proof/Machine/VerifierSearch.lean ====
section
/-!
DEFINITION. The verifier's search (R232, R233): the draws, the inliers of a solution, the refit, and the record it ends with. Which
solutions a minimal solver offers is the device's own; each is one that fits the matches it was drawn from.
-/
namespace Sys2Proof.Machine

/-- A match as the models see it: the pixels and the landmarks of the query and the candidate record. -/
structure VerifierMatch where
  queryPixel : Fix × Fix
  candPixel : Fix × Fix
  queryPoint : Option (List Fix)
  candPoint : Option (List Fix)
  deriving DecidableEq, Repr

/-- A match of two records. -/
def matchOf (q c : List Byte) : VerifierMatch :=
  let px (k : List Byte) : Fix × Fix := (fixPixel32 (field k 0 4), fixPixel32 (field k 4 4))
  ⟨px q, px c, fixes (fp32At q 0x70 3), fixes (fp32At c 0x70 3)⟩
where
  /-- A Q16.16 coordinate. -/
  fixPixel32 (v : Nat) : Fix := signed 32 v * fixOne / 65536

/-- FX, FY, CX and CY of a job. -/
def VerifierJob.camera (j : VerifierJob) : Option (List Fix) := fixes (fp32At j.bytes 0x2C 4)

/-- The ray of a pixel. -/
def rayOf (k : List Fix) (p : Fix × Fix) : List Fix :=
  [fixDiv (p.1 - fixAt k 2) (fixAt k 0), fixDiv (p.2 - fixAt k 3) (fixAt k 1), fixOne]

/-- A point through a pose. -/
def throughPose (pose p : List Fix) : List Fix := vecAdd (quatRot (pose.take 4) p) (pose.drop 4)

/-- The residual of a match under a pose that maps candidate-frame points into the query camera's frame (R232): the reprojection
for P3P and the point difference for RIGID by components, the Sampson distance for ESSENTIAL. None where a value is not finite or a
depth is not positive. -/
def matchResidual (model : Nat) (k pose : List Fix) (m : VerifierMatch) : Option (List Fix) :=
  match model with
  | 0 =>
    m.candPoint.bind (fun c =>
      let p := throughPose pose c
      if fixAt p 2 ≤ 0 then none
      else some [fixMul (fixAt k 0) (fixDiv (fixAt p 0) (fixAt p 2)) + fixAt k 2 - m.queryPixel.1,
                 fixMul (fixAt k 1) (fixDiv (fixAt p 1) (fixAt p 2)) + fixAt k 3 - m.queryPixel.2])
  | 1 =>
    let e := matMul 3 (skew (pose.drop 4)) (quatMat (pose.take 4))
    let a := rayOf k m.candPixel
    let b := rayOf k m.queryPixel
    let l := matVec e a
    let r := matVec (matTrans 3 e) b
    let grad := [fixDiv (fixAt l 0) (fixAt k 0), fixDiv (fixAt l 1) (fixAt k 1), fixDiv (fixAt r 0) (fixAt k 0), fixDiv (fixAt r 1) (fixAt k 1)]
    let n := vecNorm grad
    if n = 0 then none else some [fixDiv (vecDot b l) n]
  | _ => match m.queryPoint, m.candPoint with
    | some q, some c => some (vecSub (throughPose pose c) q)
    | _, _ => none

/-- A match's error: the length of its residual, in pixels or metres. -/
def matchError (model : Nat) (k pose : List Fix) (m : VerifierMatch) : Option Fix := (matchResidual model k pose m).map vecNorm

/-- The unit of THRESH and RMS: 1/16 pixel, or 1 cm. -/
def VerifierJob.unit (j : VerifierJob) : Fix := if j.model = 2 then fixOne / 100 else fixOne / 16

/-- The matches whose error under a pose is less than THRESH. -/
def VerifierJob.inliers (j : VerifierJob) (k pose : List Fix) (l : List VerifierMatch) : List VerifierMatch :=
  l.filter (fun m => match matchError j.model k pose m with | some e => decide (e < j.at_ 0x0F 1 * j.unit) | none => false)

/-- Draw an index not yet drawn from xorshift32; repeats are redrawn. -/
def drawIndex (m : Nat) (taken : List Nat) : Nat → BitVec 32 → Option Nat × BitVec 32
  | 0, r => (none, r)
  | fuel + 1, r =>
    let r := xorshift r
    let i := r.toNat * m / 2 ^ 32
    if taken.contains i then drawIndex m taken fuel r else (some i, r)

/-- Draw n distinct indices; none where there are not so many. -/
def drawSample (m : Nat) : Nat → List Nat → BitVec 32 → Option (List Nat) × BitVec 32
  | 0, l, r => (some l, r)
  | n + 1, l, r =>
    if m ≤ l.length then (none, r)
    else match drawIndex m l 65536 r with
      | (some i, r) => drawSample m n (l ++ [i]) r
      | (none, r) => (none, r)

/-- The sample size, and the most solutions a minimal solver has. -/
def VerifierJob.sample (j : VerifierJob) : Nat := if j.model = 1 then 5 else 3
def VerifierJob.mostSolutions (j : VerifierJob) : Nat := if j.model = 0 then 4 else if j.model = 1 then 10 else 1

/-- A pose from seven free words: a unit quaternion and a translation, of unit length for ESSENTIAL. -/
def poseOfWords (model : Nat) (w : List Word) : List Fix :=
  match wordFixes w with
  | some l =>
    let q := if (l.take 4).all (· == 0) then quatId else vecUnit (l.take 4)
    let t := if model = 1 then (if (l.drop 4).all (· == 0) then [fixOne, 0, 0] else vecUnit (l.drop 4)) else l.drop 4
    q ++ t
  | none => quatId ++ [fixOne, 0, 0]

/-- The solutions that the minimal solver gives for a sample: of what it may offer, those under which the sample fits. -/
def VerifierJob.solutions (j : VerifierJob) (k : List Fix) (sample : List VerifierMatch) (base : Nat) : List (List Fix) :=
  ((List.range j.mostSolutions).map (fun i =>
    poseOfWords j.model ((List.range 7).map (fun c => (Config.freeWord (base + 7 * i + c)).setWidth 32)))).filter (fun pose =>
      sample.all (fun m => match matchError j.model k pose m with | some e => decide (e ≤ j.unit / 2 ^ 8) | none => false))

/-- N after a solution with n inliers of m (R232). -/
def VerifierJob.iterationsFor (j : VerifierJob) (n m : Nat) : Nat :=
  let most := j.at_ 0x0C 2
  if n = m then min most 1
  else
    let w := fixNat n / m
    let miss := fixOne - (List.range j.sample).foldl (fun t _ => fixMul t w) fixOne
    let q := fixDiv (fixLog (fixOne - fixNat (j.at_ 0x0E 1) / 256)) (fixLog miss)
    min most (-((-q) / fixOne)).toNat

/-- A search so far: the best count, the solution kept, N, iterations, whether any solution was found, and the generator. -/
structure PoseSearch where
  best : Nat
  kept : Option (List Fix)
  limit : Nat
  drawn : Nat
  any : Bool
  rng : BitVec 32
  deriving DecidableEq, Repr

/-- One hypothesis. -/
def VerifierJob.hypothesis (j : VerifierJob) (k : List Fix) (l : List VerifierMatch) (base : Nat) (x : PoseSearch) : PoseSearch :=
  let (sample, rng) := drawSample l.length j.sample [] x.rng
  let found := match sample with
    | some is => j.solutions k (is.filterMap (fun i => l[i]?)) (base + 7 * j.mostSolutions * x.drawn)
    | none => []
  let x := found.foldl (fun (x : PoseSearch) pose =>
    let n := (j.inliers k pose l).length
    if x.best < n then { x with best := n, kept := some pose, limit := j.iterationsFor n l.length } else x) x
  { x with drawn := x.drawn + 1, any := x.any || !found.isEmpty, rng := rng }

/-- The loop of R232. -/
def VerifierJob.search (j : VerifierJob) (k : List Fix) (l : List VerifierMatch) (base : Nat) : Nat → PoseSearch → PoseSearch
  | 0, x => x
  | fuel + 1, x => if x.drawn < x.limit then VerifierJob.search j k l base fuel (j.hypothesis k l base x) else x

/-- The generator's seed: JOB_ID XOR 0x9E37_79B9, 1 if that is zero. -/
def VerifierJob.seed (j : VerifierJob) : BitVec 32 :=
  let v := BitVec.ofNat 32 (j.at_ 0 4) ^^^ 0x9E3779B9#32
  if v = 0 then 1 else v

/-! ### Refit -/

/-- The residuals of matches; for ESSENTIAL with the length of the translation held at 1. -/
def VerifierJob.residuals (j : VerifierJob) (k : List Fix) (l : List VerifierMatch) (pose : List Fix) : List Fix :=
  l.flatMap (fun m => (matchResidual j.model k pose m).getD []) ++ (if j.model = 1 then [vecNorm (pose.drop 4) - fixOne] else [])

/-- One Gauss–Newton step. -/
def VerifierJob.refitStep (j : VerifierJob) (k : List Fix) (l : List VerifierMatch) (pose : List Fix) : List Fix :=
  let f := fun x => j.residuals k l (movePose pose x)
  let d := derivative 6 f
  let r := f (mkVec 6 (fun _ => 0))
  match eliminate 6 (List.zipWith (fun row b => row ++ [b]) (gram d) (d.map (fun c => -(vecDot c r)))) with
  | some x =>
    let p := movePose pose x
    vecUnit (p.take 4) ++ (if j.model = 1 then vecUnit (p.drop 4) else p.drop 4)
  | none => pose

/-- Eight steps. -/
def VerifierJob.refit (j : VerifierJob) (k : List Fix) (l : List VerifierMatch) (pose : List Fix) : List Fix :=
  (List.range 8).foldl (fun p _ => j.refitStep k l p) pose

/-- The mean squared error of matches. -/
def VerifierJob.meanSquare (j : VerifierJob) (k pose : List Fix) (l : List VerifierMatch) : Fix :=
  (l.foldl (fun t m => match matchError j.model k pose m with | some e => t + fixMul e e | none => t) 0) / (max 1 l.length : Nat)

/-- The information matrix: JᵀJ over the mean squared error, its upper triangle; none where that is 0. -/
def VerifierJob.information (j : VerifierJob) (k pose : List Fix) (l : List VerifierMatch) : Option (List Fix) :=
  let ms := j.meanSquare k pose l
  if ms = 0 then none
  else
    let g := gram (derivative 6 (fun x => l.flatMap (fun m => (matchResidual j.model k (movePose pose x) m).getD [])))
    some ((List.range 6).flatMap (fun a => (List.range (6 - a)).map (fun b => fixDiv (matAt g a (a + b)) ms)))

/-- Values in FP32, each off by no more than 2^-20 of a scale: the refit's FP32 arithmetic (assumption 62). -/
def State.roundLoose (s : State) (l : List Fix) (scale : Fix) : List Word × State := s.roundScaled (l.map (fun v => (v, scale * 2 ^ 14)))

/-- The record of a search that kept a pose: the refit, and its inliers counted again. -/
def State.refitRecord (s : State) (j : VerifierJob) (k : List Fix) (all : List VerifierMatch) (drawn : Nat) (kept : List Fix) : List Byte × State :=
  let fine := j.refit k (j.inliers k kept all) kept
  let (q, s) := s.roundLoose (fine.take 4) fixOne
  let (t, s) := s.roundLoose (fine.drop 4) (fixMost (fine.drop 4))
  let pose := (wordFixes (q ++ t)).getD fine
  let l := j.inliers k pose all
  let (up, s) := s.takeBit
  let rms := min 65535 (roundFree (fixToRat (fixDiv (fixSqrt (j.meanSquare k pose l)) j.unit) * 256) up).toNat
  let (info, s) := match j.information k pose l with
    | some v => s.roundScaled (v.map (fun e => (e, e * 2 ^ 14)))
    | none => s.takeWords 21
  let status := if j.at_ 0x0A 2 ≤ l.length ∧ j.at_ 9 1 * all.length ≤ 256 * l.length then verAccept else verFewInliers
  (j.result status all.length l.length drawn rms ((q ++ t ++ info).flatMap wordBytes), s)

/-- The search and what it ends with (R232): DEGENERATE where no solver gave a solution. -/
def State.searchPose (s : State) (j : VerifierJob) (all : List VerifierMatch) : List Byte × State :=
  let most := j.at_ 0x0C 2
  let k := j.camera.getD []
  let x : PoseSearch := ⟨0, none, most, 0, false, j.seed⟩
  let x := if k.isEmpty && j.model != 2 then { x with drawn := most } else j.search k all s.fresh most x
  let s := { s with fresh := s.fresh + 7 * j.mostSolutions * most }
  match x.kept with
  | some pose => s.refitRecord j k all x.drawn pose
  | none => (j.result (if x.any then verFewInliers else verDegenerate) all.length 0 x.drawn 0 [], s)

/-- The record with which a job ends (R232). -/
def State.judgeJob (s : State) (j : VerifierJob) : List Byte × State :=
  if j.bad then (j.result verBadJob 0 0 0 0 [], s)
  else
    let (ok, s) := s.readRecords j
    if ok = false then (j.result verObjectErr 0 0 0 0 [], s)
    else
      let all := (s.matches_ j).map (fun e => matchOf e.1 e.2)
      if all.length < j.at_ 0x0A 2 then (j.result verFewMatches all.length 0 0 0 [], s) else s.searchPose j all

end Sys2Proof.Machine
end

