-- ==== Sys2Proof/Machine/MapTask.lean ====
section
/-!
DEFINITION. The map task: nodes in map tiles, loop edges, and the pose-graph problem (R427 to R430).
-/
namespace Sys2Proof.Machine

/-! ### Settings (Table 12.5) -/

def State.mapNat (s : State) (off n : Nat) : Nat := s.objNat 14 0x31 off n
def State.mapScratch (s : State) : Nat := s.mapNat 0x14 4
def State.setMap (s : State) (m : MapTask) : State := { s with map := m }

/-! ### Map tiles -/

/-- A map tile's content (R427): node records, edge records, and each node's keypoint records. -/
structure MapTile where
  nodes : List (List Byte)
  edges : List (List Byte)
  keypoints : List (List Byte)
  deriving DecidableEq, Repr

/-- The content of a tile that is there and can be reached. -/
def State.mapTile (s : State) (n : Nat) : Option MapTile :=
  match s.object (tileId n) with
  | some o =>
    if s.canAccess (tileId n) 0 o.size then
      let b := s.memBytes (tileId n) 0 o.size
      if field b 0 2 = 0x4D50 then
        let nodes := pieces 64 (field b 4 4) (b.drop 64)
        some { nodes := nodes, edges := pieces 96 (field b 8 4) (b.drop (64 + 64 * nodes.length)),
               keypoints := nodes.map (fun r => slice b (field r 0x30 4) (128 * field r 0x34 2)) }
      else some ⟨[], [], []⟩
    else none
  | none => none

/-- A tile's bytes: header, nodes with their keypoint offsets, edges, keypoints. -/
def MapTile.bytes (t : MapTile) : List Byte :=
  let base := 64 + 64 * t.nodes.length + 96 * t.edges.length
  let (nodes, stop) := (t.nodes.zip t.keypoints).foldl (fun (x : List Byte × Nat) e =>
    (x.1 ++ splice e.1 0x30 (toLe 4 x.2 ++ toLe 2 (e.2.length / 128)), x.2 + e.2.length)) ([], base)
  toLe 2 0x4D50 ++ toLe 2 1 ++ toLe 4 t.nodes.length ++ toLe 4 t.edges.length ++ toLe 4 stop ++ toLe 48 0 ++ nodes ++
    t.edges.flatten ++ t.keypoints.flatten

/-- The most a tile holds (R304). -/
def tileMax : Nat := 4194304

/-- Write a tile, which grows by whole pages as it needs; none where no DRAM page is free, or the tile may not be (R304, R332). While a
move holds its lease, a write that lengthens it or meets the final pass waits for the lease to end (R312). -/
def State.writeTile (s : State) (n : Nat) (t : MapTile) : Option State :=
  let b := t.bytes
  let id := tileId n
  let old := s.object id
  let have_ := match old with | some o => o.size | none => 0
  let need := max have_ (max pageBytes (ceilDiv b.length pageBytes * pageBytes))
  let more := (need - have_) / pageBytes
  let inDram := match old with | some o => o.home == tierDram | none => true
  if tileMax < need ∨ s.fld fld_MEM_TILE_CFG_DIR_ENTRIES ≤ n ∨ s.tileRegionBad = true ∨ (inDram = true ∧ s.freePages < more) then none
  else
    let (pages, s) := if inDram then s.allocate s.usedPages more else ([], s)
    match old with
    | none => some ((s.setObject id (some ⟨need, true, tierDram, true, none, 0, pages⟩)).touch id |>.writeObject id 0 b)
    | some _ =>
      if s.leased id ∧ (have_ < need ∨ s.holdsWrites id = true) then
        some (s.holdAccess ⟨14, id, 0, b.length, some b, [], [], need, pages⟩)
      else some (((s.growObject id need pages).touch id).writeObject id 0 b)

/-- The record of a node by its ID (R427): its tile, its place there, and its bytes. -/
def nodeTile (id : Nat) : Nat := id / 2 ^ 24
def nodeIndex (id : Nat) : Nat := id % 2 ^ 24
def State.nodeRecord (s : State) (id : Nat) : Option (List Byte) :=
  match s.mapTile (nodeTile id) with
  | some t => t.nodes[nodeIndex id]?
  | none => none
def State.nodeKeypoints (s : State) (id : Nat) : List Byte :=
  match s.mapTile (nodeTile id) with
  | some t => t.keypoints.getD (nodeIndex id) []
  | none => []

/-- A node's pose words, and its position. -/
def nodePose (r : List Byte) : List Word := toWords 7 (r.drop 8)
def posePosition (pose : List Word) : List (Option Rat) := (pose.drop 4).map (fun w => (ofWord32 w.toNat).rat?)

/-- An edge record (R427). -/
def edgeRecord (a b type : Nat) (pose info : List Byte) : List Byte :=
  toLe 8 a ++ toLe 8 b ++ toLe 1 type ++ toLe 3 0 ++ slice pose 0 28 ++ slice info 0 42 ++ toLe 6 0

/-! ### Nodes -/

/-- ⌊100 x / e⌋ mod 4,096, the quotient formed in FP64 (R427); a position that is not finite has no cell, and it is free. -/
def State.cellIndex (s : State) (x : Fp) : Nat × State :=
  match fp64.div (fp64.mul (Fp.ofRat 100) x) (Fp.ofRat (s.mapNat 4 2 : Nat)) with
  | .num q _ => ((q.floor % 4096).toNat, s)
  | _ => let (w, s) := s.takeWord; (w.toNat % 4096, s)

/-- Information of an odometry edge: diag(1/σ_R² ×3, 1/σ_T² ×3) as FP16, upper triangle in row order. -/
def State.odometryInfo (s : State) : List Byte × State :=
  let inv (w : Nat) : Option Rat := match (ofWord32 w).rat? with | some x => if x = 0 then none else some (1 / (x * x)) | none => none
  let (l, s) := ([0, 1, 2, 3, 4, 5].foldl (fun (x : List Nat × State) k =>
    let (v, t) := x.2.nearFp? fp16 (inv (s.mapNat (if k < 3 then 0x0C else 0x10) 4))
    (x.1 ++ [v], t)) ([], s))
  ((List.range 6).flatMap (fun i => (List.range (6 - i)).flatMap (fun j => toLe 2 (if j = 0 then l.getD i 0 else 0))), s)

/-- The cell one step ahead along the heading's larger axis (R428): the body's x axis in the map frame. -/
def headingStep (pose : List Word) : Int × Int :=
  let q (i : Nat) : Rat := ((ofWord32 (pose.getD i 0).toNat).rat?).getD 0
  let hx := 1 - 2 * (q 1 * q 1 + q 2 * q 2)
  let hy := 2 * (q 0 * q 1 + q 3 * q 2)
  if absRat hy ≤ absRat hx then (if hx < 0 then -1 else 1, 0) else (0, if hy < 0 then -1 else 1)

/-- The tile of a cell, the grid closing on itself. -/
def cellTile (i j : Int) : Nat := 4096 * (i % 4096).toNat + (j % 4096).toNat

/-- The cells that stay promoted about a node (R428). -/
def State.cellsAround (s : State) (tile : Nat) (pose : List Word) : List Nat :=
  let i : Int := tile / 4096
  let j : Int := tile % 4096
  let r := s.mapNat 1 1
  let square := (List.range (2 * r + 1)).flatMap (fun (a : Nat) => (List.range (2 * r + 1)).map (fun (b : Nat) =>
    cellTile (i + (a : Int) - (r : Int)) (j + (b : Int) - (r : Int))))
  let (di, dj) := headingStep pose
  (square ++ [cellTile (i + di * (r + 1)) (j + dj * (r + 1))]).eraseDups

/-- Promote and pin the cells about a node, and unpin those left behind (R428). -/
def State.promoteAround (s : State) (tile : Nat) (pose : List Word) : State :=
  let want := s.cellsAround tile pose
  let gone := s.map.pinned.filter (fun n => !want.contains n)
  let new := want.filter (fun n => !s.map.pinned.contains n)
  let s := gone.foldl (fun s n => s.dropPin 14 (tileId n)) s
  let s := new.foldl (fun s n => s.arrive ⟨some 14, tileId n, .promote tierPool true⟩) s
  s.setMap { s.map with pinned := want }

/-- The relative pose of two poses (R427): T̂ = T_a⁻¹ T_b, rounded once to FP32; open where a value is not finite. -/
def relativePose (a b : List Word) : List Word :=
  let err := Config.solverError 8 ((a ++ b).map (·.toNat))
  match wordFixes a, wordFixes b with
  | some x, some y =>
    let p := geomMul (geomInv x) y
    wordsBy err ((p.take 4).map (fun v => (v, fixOne)) ++ (p.drop 4).map (fun v => (v, fixMost (x.drop 4) + fixMost (y.drop 4))))
  | _, _ => openWords err 7

/-- A keyframe becomes a node, with an odometry edge from the node before (R427). A tile that is full makes no node. -/
def State.createNode (s : State) (k : NewNode) : State :=
  let (i, s) := s.cellIndex (ofWord32 (k.pose.getD 4 0).toNat)
  let (j, s) := s.cellIndex (ofWord32 (k.pose.getD 5 0).toNat)
  let tile := 4096 * i + j
  let s := (s.noteRead 14 (tileId tile)).noteRead 14 (field k.batch 0x18 4)
  let exists_ := (s.object (tileId tile)).isSome
  match (if exists_ then s.mapTile tile else some ⟨[], [], []⟩) with
  | none => s
  | some t =>
    let id := tile * 2 ^ 24 + t.nodes.length
    let kp := s.memBytes (field k.batch 0x18 4) 0 (128 * k.keypoints)
    let node := toLe 8 id ++ k.pose.flatMap wordBytes ++ slice k.batch 8 12 ++ toLe 16 0
    let (edges, s) := match s.map.last with
      | none => ([], s)
      | some (p, from_) =>
        let (info, s) := s.odometryInfo
        ([edgeRecord p id 0 ((relativePose from_.pose k.pose).flatMap wordBytes) info], s)
    match s.writeTile tile { nodes := t.nodes ++ [node], edges := t.edges ++ edges, keypoints := t.keypoints ++ [kp] } with
    | none => s.addSat fld_MEM_MOVE_LOSS_NO_SPACE 1
    | some s =>
      let s := s.setMap { s.map with last := some (id, k), keyframes := s.map.keyframes + 1,
                                     nodes := s.map.nodes ++ [(s.map.keyframes, id)],
                                     places := s.map.places ++ [(field k.batch 0x18 4, k.keypoints,
                                       batchTov k.batch + usStamp (1000 * s.mapNat 0x0A 2))] }
      s.promoteAround tile k.pose

/-- POSE_NODE_CREATE (R427, R428): the keyframe that has waited longest. -/
def execPoseNodeCreate (s : State) : Host.Outcome State Fault Refusal :=
  match s.map.waiting with
  | [] => .next s
  | k :: rest =>
    if s.swatchRuns 14 = false ∨ s.admitsClassC = false ∨ s.dirReady = false then .next s
    else .next ((s.setMap { s.map with waiting := rest }).createNode k)

/-! ### Loop closures -/

/-- The keyframe number of a node. -/
def State.keyframeOf (s : State) (id : Nat) : Option Nat := (s.map.nodes.find? (fun e => e.2 == id)).map (·.1)

/-- The first candidate's keypoint records go into SCRATCH_OBJ from byte 0, for a P3P job (R428). -/
def State.stageCandidate (s : State) : State :=
  match s.map.candidates with
  | [] => s
  | id :: _ => (s.noteRead 14 (tileId (nodeTile id))).writeStatic s.mapScratch (s.nodeKeypoints id)

/-- The place result reaches the map task: the nodes more than W keyframes older than the query's, in result order, become
candidates (R428). -/
def State.takePlaceResult (s : State) (nodes : List Nat) : State :=
  let w := s.windowFrames
  let older := nodes.filter (fun id => match s.keyframeOf id with | some k => decide (k + w + 1 < s.map.keyframes) | none => true)
  (s.setMap { s.map with candidates := older }).stageCandidate

/-- The ODOMETRY edge that ends at a node: the node before it, and the length of its translation. -/
def State.odometryTo (s : State) (id : Nat) : Option (Nat × Fix) :=
  match s.mapTile (nodeTile id) with
  | some t =>
    (t.edges.find? (fun e => field e 0x10 1 == 0 && field e 8 8 == id)).bind (fun e =>
      (wordFixes (toWords 3 (e.drop 0x24))).map (fun v => (field e 0 8, vecNorm v)))
  | none => none

/-- The summed translations along the chain of nodes from one back to another; none where the chain cannot be followed. -/
def State.chainLength (s : State) (goal : Nat) : Nat → Nat → Fix → Option Fix
  | _, 0, _ => none
  | id, fuel + 1, sum =>
    if id = goal then some sum
    else match s.odometryTo id with
      | some (before, d) => State.chainLength s goal before fuel (sum + d)
      | none => none

/-- Whether a loop lies near enough to what the graph predicts (R429): the translation of the verifier's pose against that of
T_node⁻¹ T_candidate; none where a value is not finite or the chain between them cannot be followed. -/
def State.loopNear (s : State) (node cand : Nat) (record : List Byte) : Option Bool :=
  match (s.nodeRecord node).bind (fun r => wordFixes (nodePose r)), (s.nodeRecord cand).bind (fun r => wordFixes (nodePose r)),
      fixes (fp32At record 0x20 3), s.chainLength cand node (s.map.nodes.length + 1) 0 with
  | some a, some b, some t, some sum =>
    let far := vecNorm (vecSub t ((geomMul (geomInv a) b).drop 4))
    some (decide (far ≤ sum * (s.mapNat 8 2 : Int) / 1000 + fixOne / 10))
  | _, _, _, _ => none

/-- A verifier result of the map task (R429): an accepted one with inliers enough, and near enough to what the graph predicts,
is stored as a LOOP edge from the new node to the candidate, whose points the verifier's pose maps into the new node's frame. Where what
the graph predicts cannot be formed, the outcome is free. The next candidate follows. -/
def State.admitLoop (s : State) (record : List Byte) : State :=
  match s.map.candidates, s.map.last with
  | cand :: rest, some (node, _) =>
    let s := s.setMap { s.map with candidates := rest }
    let (open_, s) := s.takeBit
    let near := (s.loopNear node cand record).getD open_
    let s :=
      if field record 4 1 = verAccept ∧ s.mapNat 6 2 ≤ field record 0x0A 2 ∧ near = true then
        match s.mapTile (nodeTile node) with
        | some t =>
          let (info, s) := (numbers 4 21 (record.drop 0x2C)).foldl (fun (x : List Byte × State) w =>
            let (v, s) := x.2.nearFp? fp16 (ofWord32 w).rat?
            (x.1 ++ toLe 2 v, s)) ([], s)
          match s.writeTile (nodeTile node) { t with edges := t.edges ++ [edgeRecord node cand 1 (slice record 0x10 28) info] } with
          | some s => s.setMap { s.map with admitted := true }
          | none => s.addSat fld_MEM_MOVE_LOSS_NO_SPACE 1
        | none => s
      else s
    s.stageCandidate
  | _, _ => s

/-- VERIFIER_JOB_DONE (R232, R233, R429). -/
def execVerifierJobDone (ns : Nat) (s : State) : Host.Outcome State Fault Refusal :=
  match s.vis.verifying with
  | some j =>
    if s.swatchRuns 10 then
      let s := (s.addBusy (fld_ENG_BUSY_BUSY_US 8) ns).addWrap (fld_ENG_JOBS_JOBS 8) 1
      let (record, s) := s.judgeJob j
      let s := s.endJob j record
      .next (if j.requester = 1 then s.admitLoop record else s)
    else .next s
  | none => .next s

/-- The running verifier job ends DEADLINE. -/
def State.endVerifying (s : State) (j : VerifierJob) : State :=
  let record := j.result verDeadline 0 0 0 0 []
  let s := s.endJob j record
  if j.requester = 1 then s.admitLoop record else s

/-- VERIFIER_DEADLINE (R232, R429): a job still running at its deadline ends DEADLINE. -/
def execVerifierDeadline (s : State) : Host.Outcome State Fault Refusal :=
  match s.vis.verifying with
  | some j => .next ((s.advanceTo j.deadline).endVerifying j)
  | none => .next s

/-! ### The pose graph -/

/-- The nodes of the pinned tiles with their poses, nearest the robot first, lower ID among equals, at most MAX_NODES (R430).
A node whose distance is not finite comes last. -/
def State.graphNodes (s : State) : List (Nat × List Word) :=
  let robot := match s.map.last with | some (_, k) => posePosition k.pose | none => []
  let all := s.map.pinned.flatMap (fun n => match s.mapTile n with
    | some t => t.nodes.map (fun r => (field r 0 8, nodePose r))
    | none => [])
  let dist (p : List Word) : Option Rat :=
    ((posePosition p).zip robot).foldl (fun d e => match d, subRat e.1 e.2 with | some x, some y => some (x + y * y) | _, _ => none) (some 0)
  let before (a b : Nat × List Word) : Bool := match dist a.2, dist b.2 with
    | some x, some y => decide (x < y) || (x == y && decide (a.1 < b.1))
    | some _, none => true
    | none, some _ => false
    | none, none => decide (a.1 < b.1)
  (sortBy before all).take (s.mapNat 2 2)

/-- The edges between two of a list of nodes, as places in it, with their records. -/
def State.graphEdges (s : State) (ids : List Nat) : List (Nat × Nat × List Byte) :=
  s.map.pinned.flatMap (fun n => match s.mapTile n with
    | some t => t.edges.filterMap (fun r =>
        match ids.findIdx? (· == field r 0 8), ids.findIdx? (· == field r 8 8) with
        | some a, some b => if a = b then none else some (a, b, r)
        | _, _ => none)
    | none => [])

/-- Minimum-degree order of the node graph, the lower node ID among ties: the neighbours of a node taken become joined. -/
def minDegree (ids : List Nat) : Nat → List (Nat × List Nat) → List Nat
  | 0, _ => []
  | fuel + 1, g =>
    let pick := g.foldl (fun (b : Option (Nat × List Nat)) e =>
      match b with
      | none => some e
      | some c =>
        if e.2.length < c.2.length ∨ (e.2.length = c.2.length ∧ ids.getD e.1 0 < ids.getD c.1 0) then some e else b) none
    match pick with
    | none => []
    | some (v, nb) =>
      let rest := (g.filter (fun e => e.1 != v)).map (fun e =>
        (e.1, if nb.contains e.1 then ((e.2 ++ nb).eraseDups).filter (fun x => x != v && x != e.1) else e.2))
      v :: minDegree ids fuel rest

/-- The neighbours of each node. -/
def neighbours (n : Nat) (edges : List (Nat × Nat)) : List (Nat × List Nat) :=
  (List.range n).map (fun v => (v, (edges.filterMap (fun e =>
    if e.1 = v then some e.2 else if e.2 = v then some e.1 else none)).eraseDups))

/-- Column c of the pose graph's K: its own node's rows from the diagonal on, then those of later neighbours. -/
def graphColumn (g : List (Nat × List Nat)) (c : Nat) : List Nat :=
  let v := c / 6
  let later := sortBy (fun a b => decide (a < b)) ((((g.getD v (0, [])).2).filter (fun x => decide (v < x))))
  ((List.range (6 - c % 6)).map (· + c)) ++ later.flatMap (fun x => (List.range 6).map (· + 6 * x))

/-- The template entries of a factor (R420): K = JᵀJ and g = Jᵀr over its rows. `vars` are the original indices of its columns,
`at_` the first input word, `slot` the value slot of an entry of K, `grad` that of GRAD. -/
def factorTemplate (vars : List Nat) (at_ grad : Nat) (slot : Nat → Nat → Nat) : List TemplateEntry :=
  let w := vars.length
  (List.range 6).flatMap (fun r =>
    let j (k : Nat) : Nat := at_ + r * w + k
    (vars.zipIdx).flatMap (fun a =>
      ((vars.zipIdx).filter (fun b => decide (b.1 ≤ a.1))).map (fun b => (⟨2, slot a.1 b.1, j a.2, j b.2⟩ : TemplateEntry)) ++
        [⟨2, grad + a.1, j a.2, at_ + 6 * w + r⟩]))

/-- A structure descriptor's bytes. -/
def Structure.bytes (t : Structure) : List Byte :=
  let padded (l : List Byte) : List Byte := l ++ List.replicate (pad4 l.length - l.length) 0
  toLe 4 0x53545243 ++ toLe 2 1 ++ toLe 1 t.kind ++ toLe 1 t.flags ++ toLe 4 t.n ++ toLe 4 t.n1 ++ toLe 4 t.nnzK ++ toLe 4 t.nnzL ++
    toLe 2 t.supernodes ++ toLe 1 t.segs.length ++ toLe 1 0 ++ toLe 4 t.template.length ++ toLe 8 t.signature ++
    toLe 4 t.inputWords ++ toLe 4 t.deltaCap ++ toLe 16 0 ++ t.segs.flatMap (fun e => toLe 1 e.1 ++ toLe 3 0 ++ toLe 4 e.2) ++
    t.colPtr.flatMap (toLe 4) ++ padded (t.rows.flatMap (toLe 2)) ++ padded (t.perm.flatMap (toLe 2)) ++
    padded (t.starts.flatMap (toLe 2)) ++ t.template.flatMap (fun e => toLe 4 (e.dst + e.op * 2 ^ 28) ++ toLe 4 e.a ++ toLe 4 e.b)

/-- The pose-graph structure of n nodes and their edges (R430). -/
def graphStructure (ids : List Nat) (edges : List (Nat × Nat)) : Structure :=
  let n := ids.length
  let g := neighbours n edges
  let cols := (List.range (6 * n)).map (graphColumn g)
  let colPtr := cols.foldl (fun (l : List Nat) c => l ++ [l.getLast?.getD 0 + c.length]) [0]
  let nnzK := colPtr.getLast?.getD 0
  let slot (a b : Nat) : Nat := colPtr.getD (min a b) 0 + ((cols.getD (min a b) []).findIdx? (· == max a b)).getD 0
  let vars (v : Nat) : List Nat := (List.range 6).map (· + 6 * v)
  let (template, words) := edges.foldl (fun (x : List TemplateEntry × Nat) e =>
    (x.1 ++ factorTemplate (vars e.1 ++ vars e.2) x.2 nnzK slot, x.2 + 78)) (factorTemplate (vars 0) 0 nnzK slot, 42)
  let order := minDegree ids n g
  let t : Structure :=
    { kind := kindNls, flags := 0, n := 6 * n, n1 := 6 * n, nnzK := nnzK, nnzL := 0, supernodes := n,
      segs := [(0, 6 * n), (1, 7 * n)], signature := 0, inputWords := words, deltaCap := 0, colPtr := colPtr,
      rows := cols.flatten, perm := order.flatMap vars, starts := (List.range n).map (6 * ·), template := template,
      below := [], ops := 0, height := 0, nnzA := 0 }
  let t := t.analyse
  { t with nnzL := t.factorEntries, signature := t.computedSignature }

/-- The pose-graph model (R419, R430): a POSE block per node, POSE_FIX on the nearest with SIGMA 10^-3, a RELPOSE per edge. -/
def graphModel (poses : List (List Word)) (edges : List (Nat × Nat × List Byte)) : List Byte :=
  let n := poses.length
  let data := 16 + 16 * n + 32 * (1 + edges.length)
  let blocks := (List.range n).flatMap (fun v => blockEntry 1 0 (6 * v) (7 * v))
  let sigma := BitVec.ofNat 32 (toWord32 (fp32.round (1 / 1000) false))
  let first := factorEntry 6 [0] 0 data 0 sigma
  let rest := (edges.zipIdx).flatMap (fun e => factorEntry 5 [e.1.1, e.1.2.1] (42 + 78 * e.2) (data + 28 + 112 * e.2) 0 0)
  let info (r : List Byte) : List Byte := (numbers 2 21 (r.drop 0x30)).flatMap (fun h => toLe 4 (toWord32 (fp16.decode h)))
  toLe 4 n ++ toLe 4 (1 + edges.length) ++ toLe 8 0 ++ blocks ++ first ++ rest ++ ((poses.getD 0 []).flatMap wordBytes) ++
    edges.flatMap (fun e => slice e.2.2 0x14 28 ++ info e.2.2)

/-- POSE_GRAPH_BUILD (R430): after an admission, the structure, the template and the model go to SCRATCH_OBJ, the model after
the descriptor. -/
def State.buildGraph (s : State) : State :=
  let nodes := s.graphNodes
  let ids := nodes.map (·.1)
  let edges := s.graphEdges ids
  let s := s.map.pinned.foldl (fun s n => s.noteRead 14 (tileId n)) s
  if nodes.isEmpty then s
  else
    let t := graphStructure ids (edges.map (fun e => (e.1, e.2.1)))
    let d := t.bytes
    let s := s.writeStatic s.mapScratch (d ++ graphModel (nodes.map (·.2)) edges)
    s.setMap { s.map with admitted := false, graph := ids, modelAt := d.length }

/-- POSE_GRAPH_BUILD (R430). -/
def execPoseGraphBuild (s : State) : Host.Outcome State Fault Refusal :=
  if s.map.admitted ∧ s.swatchRuns 14 ∧ s.admitsClassC then .next s.buildGraph else .next s

/-- Rewrite a node's pose in its tile. -/
def State.rewriteNode (s : State) (id : Nat) (pose : List Word) : State :=
  match s.mapTile (nodeTile id) with
  | some t =>
    match t.nodes[nodeIndex id]? with
    | some r =>
      (s.writeTile (nodeTile id) { t with nodes := setAt t.nodes (nodeIndex id) (splice r 8 (pose.flatMap wordBytes)) }).getD s
    | none => s
  | none => s

/-- POSE_GRAPH_RESULT (R430): a result of SOLVED or SOLVED_INACCURATE rewrites the poses and writes the changed tiles back. -/
def execPoseGraphResult (s : State) : Host.Outcome State Fault Refusal :=
  match s.solv.told.find? (fun e => e.1 == SolverTask.map) with
  | none => .next s
  | some (_, r) =>
    let s := { s with solv := { s.solv with told := s.solv.told.filter (fun e => e.1 != SolverTask.map) } }
    let ids := s.map.graph
    let s := s.setMap { s.map with graph := [], modelAt := 0 }
    if r.isEmpty = false ∧ (field r 0 1 = solSolved ∨ field r 0 1 = solInaccurate) ∧ s.swatchRuns 14 then
      let point := toWords (7 * ids.length) (r.drop 96)
      let s := (ids.zipIdx).foldl (fun s e => s.rewriteNode e.1 ((point.drop (7 * e.2)).take 7)) s
      .next ((ids.map nodeTile).eraseDups.foldl (fun s n => s.arrive ⟨some 14, tileId n, .writeback⟩) s)
    else .next s

end Sys2Proof.Machine
end

