-- ==== Sys2Proof/Machine/SolverSteps.lean ====
section
/-!
DEFINITION. The steps of the solver cores: loading, submission, start, and the units of a problem's work (R380 to R406, R421,
R434 to R436).
-/
namespace Sys2Proof.Machine

/-! ### Class A work of the period -/

/-- Set the Class A sequencer, and its work of the period. -/
def State.setClassA (s : State) (a : ClassA) : State := { s with clsA := a }
def State.setWork (s : State) (w : PeriodWork) : State := { s with clsA := { s.clsA with work := some w } }

/-- While paired, SOLV_1 belongs to Class A from the cut-off until the comparison ends (R404). -/
def State.classAHolds (s : State) : Bool :=
  s.paired && (match s.clsA.work with | some w => !w.compared | none => false)

/-! ### Loading (R380) -/

/-- LOAD takes its pins and begins, or is refused. -/
def State.beginLoad (s : State) (core slot descriptor values : Nat) : State :=
  let busy := s.solv.loading.isSome || s.slotNamed slot || s.classASlot core slot
  if core = 0 ∨ busy = true then s.tell .map []
  else
    match s.takePin 14 descriptor with
    | none => s.tell .map []
    | some s1 =>
      match s1.takePin 14 values with
      | none => s.tell .map []
      | some s2 => { s2 with solv := { s2.solv with loading := some ⟨slot, descriptor, values, true⟩ } }

/-- LOAD (R380). -/
def execLoad (core : Fin 2) (slot : Fin 8) (descriptor values : Word) (s : State) : Host.Outcome State Fault Refusal :=
  if s.swatchRuns (solverSwatch 1) ∧ s.admitsClassC then .next (s.beginLoad core slot descriptor.toNat values.toNat) else .next s

/-- The bytes of an object that can be reached. -/
def State.wholeObject (s : State) (id : Nat) : List Byte :=
  match s.object id with
  | some o => if s.canAccess id 0 o.size then s.memBytes id 0 o.size else []
  | none => []

/-- LOAD_DONE (R378, R380): the residency code, a CLASS_A structure being refused, and the pins released. -/
def State.endLoad (s : State) (l : SolverLoad) : State :=
  let d := s.wholeObject l.descriptor
  let v := if l.values = l.descriptor then [] else s.wholeObject l.values
  let s := [l.descriptor, l.values].eraseDups.foldl (fun s o => s.noteRead 14 o) s
  let s := s.analyseSlot 1 l.slot d v true (fun _ => true)
  let s := (s.dropPin 14 l.descriptor).dropPin 14 l.values
  let s := { s with solv := { s.solv with loading := none } }
  if (s.solverSlot 1 l.slot).code = codeResident then s else s.tell .map []

/-- LOAD_DONE (R380). -/
def execLoadDone (s : State) : Host.Outcome State Fault Refusal :=
  match s.solv.loading with
  | some l => if s.swatchRuns (solverSwatch 1) then .next (s.endLoad l) else .next s
  | none => .next s

/-! ### Submission (R396, R397) -/

/-- The task of a submission: the window, its marginalisation, or the map. -/
def taskOf (n : Nat) : SolverTask := match n with | 0 => .window | 1 => .marginal | _ => .map

/-- A request of a task is queued or refused; a window run whose request is refused ends without a result. -/
def State.taskSubmits (s : State) (t : SolverTask) (r : SolverRequest) : State :=
  let (taken, s) := s.submit t r
  if taken = false ∧ t = .window then s.setWindow { s.window with running := none } else s

/-- PROBLEM_SUBMIT (R396, R397). -/
def execProblemSubmit (task : Fin 3) (request : List Byte) (s : State) : Host.Outcome State Fault Refusal :=
  if s.swatchRuns (solverSwatch 1) ∧ s.admitsWork then .next (s.taskSubmits (taskOf task) (readRequest request)) else .next s

/-! ### Ends -/

/-- A problem's bytes of trailing factor. -/
def State.tailOf (s : State) (c : Nat) (t : Structure) (p : Problem) : List Byte :=
  match (s.solverSlot c p.request.slot).factor with
  | some f => trailing f t.n (p.request.trail t.kind)
  | none => []

/-- The Class A result of an unpaired period is ready (R398, R441). -/
def State.classAReady (s : State) (r : SolverResult) : State :=
  match s.clsA.work with
  | some w => s.setWork { w with result := some r, ready := true, compared := true }
  | none => s

/-- Hand a result to its requester (R398). While paired, a Class A result waits for the comparison (R406). -/
def State.deliverResult (s : State) (c : Nat) (r : SolverResult) (point : List Word) (tail : List Byte) : State :=
  match r.task with
  | .classA =>
    let s := { s with solv := { s.solv with formed := Store.set none s.solv.formed c (some r) } }
    if s.paired then s else s.classAReady r
  | .window => s.windowEnds r point tail
  | .marginal => s.marginalEnds r tail
  | .map => s.tell .map r.record

/-- A problem ends with a status and the phase it was stopped in (R398, R399, R413). -/
def State.conclude (s : State) (c : Nat) (t : Structure) (p : Problem) (status stopPhase : Nat) : State :=
  let r := s.resultOf c t p status stopPhase
  let tail := s.tailOf c t p
  let s := if p.task = .classA ∧ s.paired = true then s else s.countStatus c status
  let s := s.raiseMax (fld_SOLV_WORST_WORST_US c) ((p.ns + p.waitNs) / 1000)
  (s.setProblem c none).deliverResult c r p.point tail

/-- Stop a problem at its deadline, its stop time or its stop point (R401). -/
def State.stopProblem (s : State) (c : Nat) (t : Structure) (p : Problem) : State :=
  let k := p.request.slot
  if p.phase ≤ 2 then
    (if p.phase = 2 then s.discardFactor c k t false else s).conclude c t p solDeadlineFact p.phase
  else
    let proved := s.usedProved c t p
    let acceptable := if t.kind = kindQp then decide (0 < p.iterations) && p.acceptable
      else t.kind == kindNls && decide (0 < p.accepted)
    let s := if p.stage = .factor then s.discardFactor c k t false else s
    s.conclude c t p (if proved ∧ acceptable then solInaccurate else solDeadlineIter) p.phase

/-! ### One unit of work -/

/-- SOLV_1 may end its next unit of the Class A problem: SOLV_0 has ended that unit, or has stopped beyond it (R405). -/
def State.mayStep (s : State) (c : Nat) (p : Problem) : Bool :=
  if c = 1 ∧ p.task = .classA then
    match s.problem 0, s.solv.stopPoint with
    | some q, _ => decide (p.steps < q.steps)
    | none, some x => decide (p.steps < x.steps)
    | none, none => (Store.get none s.solv.formed 0).isSome
  else true

/-- The problem that a core runs, with its structure, where it waits for a stage. -/
def State.atStage (s : State) (c : Nat) (g : SolverStage) : Option (Problem × Structure) :=
  match s.problem c with
  | some p =>
    match s.structureOf c p.request.slot with
    | some t => if s.swatchRuns (solverSwatch c) && p.stage == g && s.mayStep c p then some (p, t) else none
    | none => none
  | none => none

/-- SOLV_1 stops where it has received SOLV_0's stop point and reached it, its proof included (R405). -/
def State.settleStop (s : State) (c : Nat) : State :=
  match s.solv.stopPoint, s.problem 1 with
  | some x, some p =>
    match s.structureOf 1 p.request.slot with
    | some t =>
      if c = 1 ∧ p.task = .classA ∧ x.received = true ∧ x.steps ≤ p.steps ∧ (x.proved → s.usedProved 1 t p) then s.stopProblem 1 t p
      else s
    | none => s
  | _, _ => s

/-- A unit of work ends: the problem goes on. -/
def State.goOn (s : State) (c : Nat) (p : Problem) : State :=
  (s.setProblem c (some { p with steps := p.steps + 1 })).settleStop c

/-- Where a problem's model lies: MODEL_OBJ, or for the map task the place it wrote it to. -/
def State.modelOf (s : State) (p : Problem) : ModelAt :=
  ⟨field p.request.params 0 4, if p.task = SolverTask.map then s.map.modelAt else 0⟩

/-- Assemble an NLS problem's slot at its point (R420, R421), keeping whether a matrix value was written. -/
def State.assembleNls (s : State) (c : Nat) (t : Structure) (p : Problem) (words : List Word) : State :=
  let v := s.solverSlot c p.request.slot
  let (vals, wrote) := t.assemble v.values (s.evaluateFactors (s.modelOf p) p.point (Store.setMany 0 [] 0 words))
  s.setSolverSlot c p.request.slot { v with values := vals, dirty := v.dirty || wrote }

/-- The words of a problem's template input area. -/
def State.inputWordsOf (s : State) (t : Structure) (p : Problem) : List Word :=
  if p.task = .classA then p.inputs
  else if bit p.request.feed 1 then s.objectWords p.request.feedObj (8 * p.request.deltaCount) t.inputWords
  else []

/-- The delta entries that a problem's FEED selects. -/
def State.deltasOf (s : State) (p : Problem) : List (Nat × Word) :=
  if bit p.request.feed 0 = false then [] else if p.task = .classA then p.deltas else s.deltasFrom p.request

/-- The point with which an NLS problem starts (R419): its warm start, the poses of the graph, or its STATE segment as the delta list
leaves it. -/
def State.startPoint (s : State) (c : Nat) (t : Structure) (p : Problem) : List Word :=
  if p.warm.isSome ∨ p.task = SolverTask.map then p.point
  else t.statePoint (t.applyDeltas (s.solverSlot c p.request.slot).values (s.deltasOf p)).1

/-- Feed the value array (R385): template assembly, then the delta list. -/
def State.feed (s : State) (c : Nat) (t : Structure) (p : Problem) : Problem × State :=
  let k := p.request.slot
  let p := if t.kind = kindNls then { p with point := s.startPoint c t p } else p
  let words := s.inputWordsOf t p
  let s := if t.kind = kindNls then s.assembleNls c t p words
    else if bit p.request.feed 1 then
      let v := s.solverSlot c k
      let (vals, wrote) := t.assemble v.values (Store.setMany 0 [] 0 words)
      s.setSolverSlot c k { v with values := vals, dirty := v.dirty || wrote }
    else s
  let v := s.solverSlot c k
  let (vals, skipped, wrote) := t.applyDeltas v.values (s.deltasOf p)
  let s := s.setSolverSlot c k { v with values := vals, dirty := v.dirty || wrote }
  ({ p with skipped := decide (0 < skipped) }, s.addSat (fld_SOLV_ERR_ENTRY_SKIPPED c) skipped)

/-- The delta lists a Class A problem has taken no longer wait (R437). -/
def State.takeDeltas (s : State) : State :=
  match s.clsA.work with
  | some w => { s with links := { s.links with deltas := s.links.deltas.filter (fun d => decide (w.cutoff ≤ d.published)) } }
  | none => s

/-- After a matrix is ready: factorise, or go straight to the solve (R386). -/
def State.afterAssembly (s : State) (c : Nat) (t : Structure) (p : Problem) : Problem :=
  if s.mustFactorise c t p then { p with stage := .factor, phase := max p.phase 2 }
  else { p with stage := .solve, phase := if t.kind = kindLinear then 4 else 3 }

/-- ASSEMBLY_DONE (R383 to R386, R420). -/
def State.assemblyEnds (s : State) (c cycles : Nat) (t : Structure) (p : Problem) : State :=
  let (p, s) := s.spend c cycles p
  let (p, s) := s.feed c t p
  let s := if p.task = .classA ∧ c = 0 ∧ bit p.request.feed 0 = true then s.takeDeltas else s
  if t.kind = kindNls then
    let f := s.costAt (s.modelOf p) p.point
    s.goOn c (s.afterAssembly c t { p with costFirst := f, cost := f, from_ := p.point })
  else s.goOn c (s.afterAssembly c t p)

/-- ASSEMBLY_DONE. -/
def execAssemblyDone (core : Fin 2) (cycles : Nat) (s : State) : Host.Outcome State Fault Refusal :=
  match s.atStage core .assembly with
  | some (p, t) => .next (s.assemblyEnds core cycles t p)
  | none => .next s

/-- A failed pivot (R388). -/
def State.pivotFailed (s : State) (c : Nat) (t : Structure) (p : Problem) (j : Nat) : State :=
  (s.discardFactor c p.request.slot t false).conclude c t { p with pivotCol := some j } solNumeric 0

/-- The pivot threshold's exponent (R411). -/
def State.pivotExp (s : State) (c : Nat) (p : Problem) : Nat := s.fld (fld_SOLV_CFG_PIVOT_EXP (configCore c p.task))

/-- Install a new factor as current (R389). -/
def State.installFactor (s : State) (c k : Nat) (t : Structure) (f : Factor) : State :=
  let v := s.solverSlot c k
  s.setSolverSlot c k { v with factor := some f, other := if t.doubleFactor then v.factor else none, dirty := false }

/-- FACTORISATION_DONE (R387 to R389). -/
def State.factorisationEnds (s : State) (c cycles : Nat) (t : Structure) (p : Problem) : State :=
  let (p, s) := s.spend c cycles p
  let (m, diag) := s.workingMatrix c t p
  let p := { p with refactored := true, refactors := p.refactors + 1 }
  match t.factorise m diag (s.pivotExp c p) with
  | .error j => s.pivotFailed c t p j
  | .ok f => (s.installFactor c p.request.slot t f).goOn c { p with stage := .solve, phase := if t.kind = kindLinear then 4 else 3 }

/-- FACTORISATION_DONE. -/
def execFactorisationDone (core : Fin 2) (cycles : Nat) (s : State) : Host.Outcome State Fault Refusal :=
  match s.atStage core .factor with
  | some (p, t) => .next (s.factorisationEnds core cycles t p)
  | none => .next s

/-- The final phase begins once the factor it uses is proved (R393). -/
def State.towardFinal (s : State) (c : Nat) (t : Structure) (p : Problem) : Problem :=
  if s.usedProved c t p then { p with stage := .final, phase := 4 } else { p with stage := .proof }

/-- SOLVE_DONE (R390): the first solve with a factor not proved goes to the residual check. A solution that is not finite ends
the problem NUMERIC. -/
def State.solveEnds (s : State) (c cycles : Nat) (t : Structure) (p : Problem) : State :=
  let (p, s) := s.spend c cycles p
  match (s.solverSlot c p.request.slot).factor with
  | none => s
  | some f =>
    let rhs := s.solveRhs c t p
    let v : Solve := ⟨(s.workingMatrix c t p).1, f, rhs, t.solve f rhs⟩
    let check := !f.proved && !p.proofs.any (fun w => w.factor.same f)
    let p := { p with last := some v, proofs := if check then p.proofs ++ [v] else p.proofs }
    if allFinite v.sol = false then s.conclude c t p solNumeric 0
    else if t.kind = kindLinear then s.goOn c (s.towardFinal c t p)
    else s.goOn c { p with stage := .judge }

/-- SOLVE_DONE. -/
def execSolveDone (core : Fin 2) (cycles : Nat) (s : State) : Host.Outcome State Fault Refusal :=
  match s.atStage core .solve with
  | some (p, t) => .next (s.solveEnds core cycles t p)
  | none => .next s

/-! ### Proof (R393, R395) -/

/-- Mark a factor proved wherever it stands. -/
def Factor.prove (f g : Factor) : Factor := if g.same f then { g with proved := true } else g
def State.markProved (s : State) (c : Nat) (p : Problem) (f : Factor) : Problem × State :=
  let v := s.solverSlot c p.request.slot
  ({ p with kept := p.kept.map (fun w => { w with factor := f.prove w.factor }) },
    s.setSolverSlot c p.request.slot { v with factor := v.factor.map f.prove, other := v.other.map f.prove })

/-- A pass of the proof's residual check, or its failure: the factor is discarded and the problem ends NUMERIC at once. -/
def State.proofEnds (s : State) (c : Nat) (t : Structure) (p : Problem) (v : Solve) : State :=
  let p := { p with proofs := p.proofs.tail }
  let k := p.request.slot
  if v.etaCheck.le (tolerance (s.fld (fld_SOLV_CFG_PROOF_EXP (configCore c p.task)))) then
    let (p, s) := s.markProved c p v.factor
    let p := if p.stage = .proof then s.towardFinal c t p else p
    (s.setProblem c (some p)).settleStop c
  else
    let current := match (s.solverSlot c k).factor with | some f => f.same v.factor | none => false
    let s := (s.checkFailed c true)
    (if current then s.discardFactor c k t true else s).conclude c t { p with checkFail := true } solNumeric 0

/-- SOLV_1's proof does not run ahead of SOLV_0's (R405). -/
def State.mayProve (s : State) (c : Nat) (p : Problem) : Bool :=
  if c = 1 ∧ p.task = .classA then
    match s.problem 0, s.solv.stopPoint with
    | some q, _ => decide (q.proofs.length < p.proofs.length ∨ p.steps < q.steps)
    | none, some x => x.proved
    | none, none => true
  else true

/-- PROOF_CHECK_DONE (R393). -/
def execProofCheckDone (core : Fin 2) (_cycles : Nat) (s : State) : Host.Outcome State Fault Refusal :=
  match s.problem core with
  | some p =>
    match s.structureOf core p.request.slot, p.proofs with
    | some t, v :: _ => if s.swatchRuns (solverSwatch core) ∧ s.mayProve core p then .next (s.proofEnds core t p v) else .next s
    | _, _ => .next s
  | none => .next s

/-! ### Iterations -/

/-- The iteration cap of a problem: at least 1, and 40 for Class A (R49). -/
def Problem.iterCap (p : Problem) : Nat := if p.task = .classA then min 40 (max 1 p.request.iterMax) else max 1 p.request.iterMax

/-- The adaptation of ρ after an iteration that goes on (R434): every ρ_i times t, and M is factorised again. -/
def Problem.adaptRho (q : Qp) (r : Residuals) (p : Problem) : Problem :=
  if p.task = .classA ∨ p.iterations % 25 ≠ 0 ∨ q.set.adapt.abs = Fp.zero ∨ p.request.refactMax ≤ p.refactors then { p with stage := .solve }
  else
    let t := q.adaptation r
    if q.adapts t then { p with rho := q.rho.map (fun x => fp64.mul x t), stage := .factor } else { p with stage := .solve }

/-- An iteration of a QP (R434 to R436). -/
def State.qpIteration (s : State) (c : Nat) (t : Structure) (p : Problem) (v : Solve) : State :=
  let q := s.slotQp c t p
  let next := q.advance p.cur v.sol
  let r := q.residuals next
  let cert := q.certificate next p.cur
  let full := r.meets q.set.epsAbs q.set.epsRel
  let n := p.iterations + 1
  let p := { p with cur := next, prev := p.cur, rp := r.rp, rd := r.rd, full := full,
                    acceptable := r.meets q.set.accAbs q.set.accRel, cert := cert, iterations := n,
                    ended := full || cert != 0 || decide (p.iterCap ≤ n) }
  if next.finite = false then s.conclude c t p solNumeric 0
  else if p.ended then s.goOn c (s.towardFinal c t p)
  else s.goOn c (Problem.adaptRho q r p)

/-- The least and the largest λ of an NLS problem. -/
def lambdaMin : Fp := Fp.ofRat (pow2 (-30))
def lambdaMax : Fp := Fp.ofRat (pow2 30)

/-- An NLS loop is left (R421): with no accepted step it ends DEADLINE_ITER. -/
def State.leaveNls (s : State) (c : Nat) (t : Structure) (p : Problem) : State :=
  let p := { p with ended := true }
  if p.accepted = 0 then s.conclude c t p solDeadlineIter 0 else s.goOn c (s.towardFinal c t p)

/-- The next pass of an NLS loop: where a step was accepted the slot is assembled again at the new point; λ has changed, so M is
factorised again. -/
def State.nextPass (s : State) (c : Nat) (t : Structure) (accepted : Bool) (p : Problem) : State :=
  let s := if accepted then s.assembleNls c t p (s.inputWordsOf t p) else s
  s.goOn c { p with stage := .factor }

/-- One step of an NLS loop (R421). -/
def State.nlsIteration (s : State) (c : Nat) (t : Structure) (p : Problem) (v : Solve) : State :=
  let point := s.retract (s.modelOf p) p.point v.sol
  let f := s.costAt (s.modelOf p) point
  let p := { p with iterations := p.iterations + 1 }
  let capped (p : Problem) : Bool := decide (p.iterCap ≤ p.iterations) || decide (p.request.refactMax ≤ p.refactors)
  if f.finite = false then s.conclude c t p solNumeric 0
  else if f.lt p.cost then
    let ok := (fp64.div (fp64.sub p.cost f) p.cost).le (ofWord32 (field p.request.params 8 4))
    let p := { p with accepted := p.accepted + 1, from_ := p.point, point := point, cost := f, kept := some v, full := ok,
                      lambda := (fp32.div p.lambda (Fp.ofRat 8)).max lambdaMin }
    if ok ∨ capped p then s.leaveNls c t p else s.nextPass c t true p
  else
    let p := { p with lambda := fp32.mul (Fp.ofRat 8) p.lambda }
    if lambdaMax.lt p.lambda ∨ capped p then s.leaveNls c t p else s.nextPass c t false p

/-- ITERATION_DONE (R421, R434). -/
def State.iterationEnds (s : State) (c cycles : Nat) (t : Structure) (p : Problem) : State :=
  let (p, s) := s.spend c cycles p
  match p.last with
  | none => s
  | some v => if t.kind = kindQp then s.qpIteration c t p v else s.nlsIteration c t p v

/-- ITERATION_DONE. -/
def execIterationDone (core : Fin 2) (cycles : Nat) (s : State) : Host.Outcome State Fault Refusal :=
  match s.atStage core .judge with
  | some (p, t) => .next (s.iterationEnds core cycles t p)
  | none => .next s

/-! ### The final phase -/

/-- The final solve of a problem (R391), and setting it. -/
def Problem.finalSolve (p : Problem) (kind : Nat) : Option Solve := if kind = kindNls then p.kept else p.last
def Problem.setFinal (p : Problem) (kind : Nat) (v : Solve) : Problem :=
  if kind = kindNls then { p with kept := some v } else { p with last := some v }

/-- Refinement is over (R391). -/
def State.refined (s : State) (c : Nat) (p : Problem) (v : Solve) : Bool :=
  let g := configCore c p.task
  decide (s.fld (fld_SOLV_CFG_REFINE_MAX g) ≤ p.refineSteps) || v.etaSplit.le (tolerance (s.fld (fld_SOLV_CFG_REFINE_EXP g)))

/-- REFINE_STEP_DONE (R391). -/
def execRefineStepDone (core : Fin 2) (cycles : Nat) (s : State) : Host.Outcome State Fault Refusal :=
  match s.atStage core .final with
  | some (p, t) =>
    match p.finalSolve t.kind with
    | some v =>
      if s.refined core p v then .next s
      else
        let (p, s) := s.spend core cycles p
        .next (s.goOn core { p.setFinal t.kind (t.refineOnce v) with refineSteps := p.refineSteps + 1 })
    | none => .next s
  | none => .next s

/-- SOLVED, or WARM_REJECT where the warm start was rejected (R399). -/
def Problem.solved (p : Problem) : Nat := if p.warmRejected then solWarmReject else solSolved

/-- The outcome of a QP from its refined solution (R436). -/
def State.finishQp (s : State) (c : Nat) (t : Structure) (p : Problem) (v : Solve) : State :=
  let q := s.slotQp c t p
  let next := q.advance p.prev v.sol
  let r := q.residuals next
  let holds := (p.cert == 1 && q.primal (zip2 fp64.sub next.y p.prev.y)) || (p.cert == 2 && q.dual (zip2 fp64.sub next.x p.prev.x))
  let p := { p with cur := next, rp := r.rp, rd := r.rd }
  if next.finite = false then s.conclude c t p solNumeric 0
  else if holds then s.conclude c t p solInfeasible 0
  else if r.meets q.set.epsAbs q.set.epsRel then s.conclude c t p p.solved 0
  else if r.meets q.set.accAbs q.set.accRel then s.conclude c t p solInaccurate 0
  else s.conclude c t p solDeadlineIter 0

/-- The outcome of an NLS problem from its refined step (R421, R422). -/
def State.finishNls (s : State) (c : Nat) (t : Structure) (p : Problem) (v : Solve) : State :=
  let p := { p with point := s.retract (s.modelOf p) p.from_ v.sol }
  let status := if p.full then p.solved else solInaccurate
  if p.request.trail t.kind = 0 then s.conclude c t p status 0
  else
    let s := s.assembleNls c t p (s.inputWordsOf t p)
    let (m, diag) := s.workingMatrix c t { p with lambda := Fp.zero }
    match t.factorise m diag (s.pivotExp c p) with
    | .error j => s.pivotFailed c t p j
    | .ok f => (s.installFactor c p.request.slot t f).conclude c t p status 0

/-- FINAL_CHECK_DONE (R394, R395). -/
def State.finalCheckEnds (s : State) (c cycles : Nat) (t : Structure) (p : Problem) (v : Solve) : State :=
  let (p, s) := s.spend c cycles p
  let eta := v.etaCheck
  let p := { p with eta := some eta }
  if eta.le (tolerance (s.fld (fld_SOLV_CFG_CHECK_EXP (configCore c p.task)))) then
    if t.kind = kindQp then s.finishQp c t p v
    else if t.kind = kindNls then s.finishNls c t p v
    else s.conclude c t p p.solved 0
  else (s.checkFailed c false).conclude c t { p with checkFail := true } solNumeric 0

/-- FINAL_CHECK_DONE. -/
def execFinalCheckDone (core : Fin 2) (cycles : Nat) (s : State) : Host.Outcome State Fault Refusal :=
  match s.atStage core .final with
  | some (p, t) =>
    match p.finalSolve t.kind with
    | some v => if s.refined core p v then .next (s.finalCheckEnds core cycles t p v) else .next s
    | none => .next s
  | none => .next s

/-! ### Starts -/

/-- The next problem number of a core. -/
def State.takeNumber (s : State) (c : Nat) : Nat × State :=
  let n := Store.get 0 s.solv.numbers c
  (n, { s with solv := { s.solv with numbers := Store.set 0 s.solv.numbers c (n + 1) } })

/-- Class C work that has not started waits at level 7, while its deadline runs (R517). -/
def State.requestStarts (s : State) (e : SolverTask × SolverRequest) : Bool :=
  e.1 != SolverTask.map || s.admitsClassC || decide (e.2.deadline ≤ s.stamp)

/-- The warm start of a Class B or Class C problem (R400, R424), and the point of a pose graph (R430). -/
def State.warmTask (s : State) (t : Structure) (p : Problem) : Problem × State :=
  match p.task with
  | .window =>
    if s.window.point.length = (t.statePoint []).length then
      s.useWarm 1 t t.signature p.cur s.window.point { p with warm := some (t.signature, p.cur) }
    else (p, s)
  | .map =>
    let poses := s.map.graph.flatMap (fun id => match s.nodeRecord id with | some r => nodePose r | none => List.replicate 7 0)
    ({ p with point := poses }, s)
  | _ =>
    if p.request.wantsWarm then
      let sig := s.memNat p.request.warmObj 8 8
      let w := s.warmIterate t p.request.warmObj
      let point := s.objectWords p.request.warmObj 96 (t.statePoint []).length
      s.useWarm 1 t sig w point { p with warm := if sig = t.signature then some (sig, w) else none }
    else (p, s)

/-- Start a request on SOLV_1 (R397, R400, R402). -/
def State.startProblem (s : State) (e : SolverTask × SolverRequest) : State :=
  let (n, s) := s.takeNumber 1
  match s.structureOf 1 e.2.slot with
  | none => s.tell e.1 []
  | some t =>
    let p := newProblem e.2 e.1 n t (s.solverSlot 1 e.2.slot).values s.stamp s.brown
    let s := [e.2.feedObj, e.2.warmObj].eraseDups.foldl (fun s o => s.noteRead 14 o) s
    if e.2.deadline ≤ s.stamp then s.conclude 1 t p solDeadlineFact 0
    else
      let (p, s) := s.warmTask t p
      s.setProblem 1 (some p)

/-- PROBLEM_START (R397, R402). -/
def execProblemStart (s : State) : Host.Outcome State Fault Refusal :=
  if (s.problem 1).isSome ∨ s.solv.suspended.isSome ∨ s.swatchRuns (solverSwatch 1) = false ∨ s.classAHolds = true ∨
      s.admitsWork = false then .next s
  else
    match s.solv.queue.find? s.requestStarts with
    | none => .next s
    | some e => .next ({ s with solv := { s.solv with queue := dropFirst s.requestStarts s.solv.queue } }.startProblem e)

/-! ### Suspension and pairing (R403 to R406) -/

/-- SOLV_1 suspends its Class B or Class C problem (R404). -/
def State.suspendOther (s : State) : State :=
  match s.problem 1 with
  | some p =>
    if p.task = .classA then s
    else
      let s := { (s.setProblem 1 none) with solv := { (s.setProblem 1 none).solv with suspended := some { p with pausedAt := s.stamp } } }
      s.addSat (fld_SOLV_QUEUE_SUSPENDS 1) 1
  | none => s

/-- SOLV1_SUSPEND (R404). -/
def execSolv1Suspend (s : State) : Host.Outcome State Fault Refusal :=
  if s.classAHolds ∧ s.swatchRuns (solverSwatch 1) then .next s.suspendOther else .next s

/-- The suspended problem goes on where it stood. -/
def State.resumeOther (s : State) : State :=
  match s.solv.suspended with
  | some p =>
    if (s.problem 1).isSome then s
    else
      let p := { p with waitNs := p.waitNs + (s.stamp - p.pausedAt) / 2 ^ 16, brown := p.brown || s.brown }
      { s with solv := { s.solv with suspended := none } }.setProblem 1 (some p)
  | none => s

/-- STOP_POINT_RECEIVED (R405). -/
def execStopPointReceived (s : State) : Host.Outcome State Fault Refusal :=
  match s.solv.stopPoint with
  | some x =>
    if s.swatchRuns (solverSwatch 1) then
      .next ({ s with solv := { s.solv with stopPoint := some { x with received := true } } }.settleStop 1)
    else .next s
  | none => .next s

/-- The result of an equal comparison: SOLV_0's record, PAIRED set and BROWN of either (R406). -/
def equalResult (a b : SolverResult) : SolverResult :=
  let brown := a.brown || b.brown
  let flags := field a.record 1 1 % 32 + (if brown then 32 else 0) + 64 + field a.record 1 1 / 128 * 128
  { a with brown := brown, record := splice a.record 1 (toLe 1 flags) }

/-- Unequal results (R406): MISMATCH, its fault, and the period kept. -/
def State.mismatch (s : State) (period : Nat) (a : SolverResult) : SolverResult × State :=
  let s := (s.raiseFault faultSolverMismatch 13 (BitVec.ofNat 32 period)).setFlag fld_SOLV_PAIR_STATUS_MISMATCH true
  ({ a with status := solMismatch, record := splice a.record 0 (toLe 1 solMismatch) }, s.setPair reg_SOLV_PAIR_LAST_LO period)

/-- Compare the two formed results (R406). The comparison ends the period's Class A work on SOLV_1. -/
def State.comparePair (s : State) : State :=
  match s.clsA.work, Store.get none s.solv.formed 0, Store.get none s.solv.formed 1 with
  | some w, some a, some b =>
    if s.paired = false ∨ w.compared = true then s
    else
      let (r, s) := if a.compared = b.compared then (equalResult a b, s) else s.mismatch w.period a
      let s := (s.countStatus 0 r.status).countStatus 1 r.status
      let s := { s with solv := { s.solv with formed := [], stopPoint := none } }
      (s.setWork { w with result := some r, ready := true, compared := true }).resumeOther
  | _, _, _ => s

/-- PAIR_COMPARE (R406). -/
def execPairCompare (s : State) : Host.Outcome State Fault Refusal := .next s.comparePair

end Sys2Proof.Machine
end

