-- ==== Sys2Proof/Machine/ClassALoop.lean ====
section
/-!
DEFINITION. The grid of the Class A loop: its start, its boundaries with their timing values, the slot in use, and the stops of
R56, R149, R123 and R528 (R32 to R48, R381).
-/
namespace Sys2Proof.Machine

/-! ### Timing values (R33, R34) -/

/-- The period, cut-off and launch that the registers ask for, in µs. -/
def State.askedTiming (s : State) : Nat × Nat × Nat :=
  (s.fld fld_CLA_PERIOD_PERIOD_US, s.fld fld_CLA_TIMING_CUTOFF_US, s.fld fld_CLA_TIMING_LAUNCH_US)

/-- The first three conditions of R34. -/
def timingOk (p c l : Nat) : Bool := decide (500 ≤ p) && decide (p ≤ 4000) && decide (c < p) && decide (100 ≤ l) && decide (l ≤ p)

/-- Put timing values in force. -/
def State.setTiming (s : State) (p c l : Nat) : State := { s with loop := { s.loop with period := p, cutoff := c, launch := l } }

/-- Refuse the values asked for: those in force stay, and the registers show them again. -/
def State.rejectTiming (s : State) : State :=
  let s := s.setFld fld_CLA_PERIOD_PERIOD_US s.loop.period
  let s := (s.setFld fld_CLA_TIMING_CUTOFF_US s.loop.cutoff).setFld fld_CLA_TIMING_LAUNCH_US s.loop.launch
  s.paramReject

/-- The values with which the loop starts; where they break R34, the Reset values. -/
def State.startTiming (s : State) : State :=
  let (p, c, l) := s.askedTiming
  if timingOk p c l then s.setTiming p c l else (s.setTiming 1000 0 400).rejectTiming

/-- The values about to take effect at boundary b: a new period waits for a whole second where the present one divides it (R33). -/
def State.dueTiming (s : State) (b : Stamp) : Nat × Nat × Nat :=
  let (p, c, l) := s.askedTiming
  (if p ≠ s.loop.period ∧ b % mkStamp 1 0 ≠ 0 ∧ 1000000 % s.loop.period = 0 then s.loop.period else p, c, l)

/-- The check of R34 at boundary b. -/
def State.applyTiming (s : State) (b : Stamp) : State :=
  let (p, c, l) := s.dueTiming b
  if timingOk p c l && decide (s.loop.launchAt ≤ b + usStamp c) then s.setTiming p c l else s.rejectTiming

/-! ### The slot in use (R381) -/

/-- The frames' check units of a slot now used are in use (R549). -/
def State.useSlot (s : State) (k : Nat) : State :=
  let fits := match s.clsA.held, s.structureOf 0 k with
    | some h, some t => h.signature == t.signature
    | _, _ => true
  let a := s.clsA
  let s := s.setClassA (if fits then { a with slot := some k, refused := none }
    else { a with slot := some k, refused := none, held := none, stale := a.held })
  (frameUnits (s.settingsBytes 0)).foldl (fun s u => s.markUser u 0) s

/-- A slot is refused (R48, R549): the one in use stays. An empty slot of a loop not enabled holds nothing to refuse. -/
def State.refuseSlot (s : State) (k : Nat) : State :=
  let s := s.setClassA { s.clsA with refused := some k }
  if (s.solverSlot 0 k).code = codeEmpty ∧ s.flag fld_CLA_CTRL_ENABLE = false then s
  else
    let b := s.settingsBytes 0
    let bad := if settingsOk b then s.badUnits b else []
    bad.foldl (fun s u => s.setFlag (fld_CHECK_CFG_USE_ERR u) true) (s.envelopeRefused k)

/-- Take up SOLV_A_CFG.SLOT, at cast-on lock and at each boundary (R381). A refused value is judged once. -/
def State.loadClassA (s : State) : State :=
  let want := s.fld fld_SOLV_A_CFG_SLOT
  if s.clsA.slot = some want then s.setClassA { s.clsA with refused := none }
  else if s.clsA.refused = some want ∨ s.inReset (solverSwatch 0) = true then s
  else if s.readyForClassA want then s.useSlot want
  else s.refuseSlot want

/-! ### Boundaries -/

/-- Every swatch of the path is out of reset and restored (R56, R120). -/
def State.pathClear (s : State) : Bool :=
  (List.range 48).all (fun n =>
    !s.onClassAPath n || (!s.inReset n && s.groupPhase (groupOf n) == .running))

/-- The loop begins to run at this boundary (R32, R56, R149, R528): nothing is held from before (R438), ALIVE and the frames'
contexts start afresh (Table 12.9, Table 16.2). -/
def State.beginLoop (s : State) : State :=
  let s := { s.setFlag fld_CLA_STATUS_RUNNING true with
    loop := { s.loop with stopped := none, launchAt := 0 },
    clsA := { s.clsA with held := none, stale := none, fallbacks := 0, alive := [], work := none } }
  (s.clearFrameContexts).startTerms

/-- What every boundary of a running loop does once its timing is settled: its strobe, a new slot, and the instants of the period
(R35 to R37, R140). -/
def State.openPeriod (s : State) (b : Stamp) : State :=
  let s := { s.strobePath .boundary b with integ := { (s.strobePath .boundary b).integ with loopArmed := true } }.loadClassA
  let c := b + usStamp s.loop.cutoff
  { s with loop := { s.loop with cutoffAt := c, launchAt := c + usStamp s.loop.launch, cutoffDone := false } }

/-- The first period of a run: the timing check of R34, and the period. -/
def State.beginPeriod (s : State) (b : Stamp) : State := (s.applyTiming b).openPeriod b

/-- The timing check of a boundary of the grid, made while the loop is stopped too: a stopped loop's period ended no launch (R33,
R34). -/
def State.checkTiming (s : State) (b : Stamp) : State :=
  (if s.loop.stopped.isSome then { s with loop := { s.loop with launchAt := 0 } } else s).applyTiming b

/-- A boundary at b falls: the path takes PAIRED as it is (R67). -/
def State.placeBoundary (s : State) (b : Stamp) : State :=
  { s with loop := { s.loop with grid := true, boundary := b, startAt := none, pairedPath := s.paired } }

/-- The loop stops for a reason of a boundary. -/
def State.haltLoop (s : State) (why : LoopStop) : State :=
  { s.setFlag fld_CLA_STATUS_RUNNING false with loop := { s.loop with stopped := some why, grid := why != .bind } }

/-- The first boundary of a run: a path in reset, or NAP, still stops the loop. -/
def State.enterGrid (s : State) (b : Stamp) : State :=
  let s := s.placeBoundary b
  if s.pathClear = false then s.haltLoop .reset
  else if s.power.napLoopStopped then s.haltLoop .nap
  else s.beginLoop.beginPeriod b

/-- Set the period number. -/
def State.setPeriodNumber (s : State) (n : Nat) : State := s.setPair reg_CLA_PERIOD_NUM_LO (n % 2 ^ 64)

/-- Periods passed over by a restart at b (R149): whole periods since the last boundary, rounded to nearest, none where a step
has put b before it. -/
def State.passedOver (s : State) (b : Stamp) : Nat := (b + usStamp s.loop.period / 2 - s.loop.boundary) / usStamp s.loop.period

/-- LOOP_START (R32, R149). No start falls after bind-off has begun (R123). -/
def execLoopStart (s : State) : Host.Outcome State Fault Refusal :=
  match s.loop.startAt with
  | none => .next s
  | some b =>
    if s.alive = false then .next s
    else if s.phase ≠ phaseRunning then .next { s with loop := { s.loop with startAt := none } }
    else
      let s := s.advanceTo b
      if s.loop.stopped = some LoopStop.step then
        let k := s.passedOver b
        .next (((s.setPeriodNumber (s.periodNumber + k)).classAMissed k).enterGrid b)
      else .next ((s.startTiming.setPeriodNumber 0).enterGrid b)

/-- Swatches that NAP gates beside those of DOZE, but for MEM (R528). -/
def napSwatches : List Nat := [5, 7, 8, 12, 13, 14]

/-- Gate for NAP once the frames of the last period are placed; IMU reads stop (R528). -/
def State.gateForNap (s : State) : State :=
  let busy := match s.clsA.work with | some w => !w.built | none => false
  if busy then s
  else { s.setGated (napSwatches.filter (fun n => s.groupPhase (groupOf n) == .running)) true with
         power := { s.power with napLoopStopped := true },
         links := { s.links with imuWaiting := [], imuI3c := none, imuSpi := none } }

/-- Entry to NAP is under way, and the loop has still to stop (R528). -/
def State.napPending (s : State) : Bool := s.power.transition == some (.entry .nap) && !s.power.napLoopStopped

/-- The loop may take part in a boundary: a slot is in use, its path clear, its swatches not gated for NAP. -/
def State.mayResume (s : State) : Bool := s.pathClear && !s.power.napLoopStopped && s.clsA.slot.isSome

/-- A boundary of the grid at b. DEDUCED (log entry 58): the boundary at which a reset loop resumes passes while it is stopped and
counts MISSED; one stopped for NAP does not count, even where a reset of the path has begun since. -/
def State.crossBoundary (s : State) (b : Stamp) : State :=
  let s := ((s.setPeriodNumber (s.periodNumber + 1)).placeBoundary b).checkTiming b
  let s := if s.loop.stopped = some LoopStop.reset then s.classAMissed 1 else s
  if s.phase = phaseBindOff ∧ s.cast.bindDrained = true then s.haltLoop .bind
  else if s.napPending then (s.haltLoop .nap).gateForNap
  else if s.loop.stopped.isNone then s.openPeriod b
  else
    let s := s.loadClassA
    if s.mayResume then s.beginLoop.openPeriod b else s

/-- The next boundary may fall: the present period's cut-off has. -/
def State.boundaryDue (s : State) : Bool := s.alive && s.loop.grid && (!s.loopRunning || s.loop.cutoffDone)

/-- The next boundary falls. -/
def State.nextBoundary (s : State) : State :=
  let b := s.loop.boundary + usStamp s.loop.period
  (s.advanceTo b).crossBoundary b

/-- PERIOD_BOUNDARY (R33, R34, R44, R56). -/
def execPeriodBoundary (s : State) : Host.Outcome State Fault Refusal :=
  .next (if s.boundaryDue then s.nextBoundary else s)

/-- NAP_LOOP_STOP (R528): the first boundary after a NAP request; with no grid, the loop's swatches are gated at once. -/
def execNapLoopStop (s : State) : Host.Outcome State Fault Refusal :=
  if s.alive = false ∨ s.napPending = false then .next s
  else if s.loop.grid = false then .next s.gateForNap
  else .next (if s.boundaryDue then s.nextBoundary else s)

/-- A reset begins that reaches the path: the loop stops at once, and no frame of it is launched, those in a queue or a MAC included
(R56). A loop that NAP has stopped stays stopped as NAP (log entry 58). -/
def State.stopForReset (s : State) : State :=
  let s := s.dropClassA
  let s := (s.setMac 0 { s.mac 0 with launch := [], inMac := [] }).setMac 1 { s.mac 1 with launch := [], inMac := [] }
  let s := { s with loop := { s.loop with cutoffDone := false } }
  if s.loopRunning then s.haltLoop .reset else s

end Sys2Proof.Machine
end

