-- ==== Sys2Proof/Machine/ActuatorFrames.lean ====
section
/-!
DEFINITION. The held solution and the actuator frames of a period (R438 to R441).
-/
namespace Sys2Proof.Machine

/-! ### The held solution (R438) -/

/-- Stage values moved down by one: entry j of stages 0 to H − 2 takes that of the next stage. -/
def moveStages (base stride stages : Nat) (v : List Fp) : List Fp :=
  (List.range v.length).map (fun j =>
    elem v (if base ≤ j ∧ j < base + (stages - 1) * stride ∧ j + stride < v.length then j + stride else j))

/-- shift() under settings. -/
def shiftHeld (b : List Byte) (h : HeldSolution) : HeldSolution :=
  if h.shift + 1 < field b 0x10 2 then { h with shift := h.shift + 1 }
  else
    let y := moveStages (field b 0x16 2) (field b 0x18 2) (field b 0x0E 2)
    { h with shift := 0, iterate := ⟨moveStages (field b 0x12 2) (field b 0x14 2) (field b 0x0E 2) h.iterate.x, y h.iterate.z,
                                     y h.iterate.y⟩ }

/-- Outcomes whose own payload the frames carry (Table 12.8). -/
def ownPayload (status : Nat) : Bool := status == solSolved || status == solInaccurate || status == solWarmReject

/-- The held solution after a period with this outcome, none where the QP did not run. -/
def heldAfter (b : List Byte) (r : Option SolverResult) (held : Option HeldSolution) : Option HeldSolution :=
  match r with
  | some r => if ownPayload r.status then some ⟨r.signature, r.iterate, 0⟩ else held.map (shiftHeld b)
  | none => held.map (shiftHeld b)

/-! ### Frame content (R439, R440) -/

/-- What the frames of a period carry: STATUS, the values or none for SAFE, HOLD, and FALLBACK_COUNT. -/
structure FrameContent where
  status : Nat
  values : Option (List Fp)
  hold : Bool
  fallbacks : Nat
  deriving DecidableEq, Repr

/-- STATUS 0x8, SAFE. -/
def statusSafe : Nat := 8

/-- The content by outcome (Table 12.8); `held` is the held solution after the period. -/
def frameContent (fallbackMax fallbacks : Nat) (r : Option SolverResult) (held : Option HeldSolution) : FrameContent :=
  let n := min 0xFFFF (fallbacks + 1)
  match r with
  | none => ⟨statusSafe, none, false, n⟩
  | some r =>
    if ownPayload r.status then ⟨r.status, some r.iterate.x, false, 0⟩
    else
      match held with
      | some h => if n ≤ fallbackMax then ⟨r.status, some h.iterate.x, true, n⟩ else ⟨statusSafe, none, false, n⟩
      | none => ⟨statusSafe, none, false, n⟩

/-- A value in FORMAT, rounded once and saturating; what is no number even as SAFE becomes the canonical NaN, or 0 (R440). -/
def encodeField (format : Nat) (v : Fp) : List Byte :=
  let whole (w : Nat) : List Byte :=
    let q : Int := match v with
      | .nan => 0
      | .inf n => if n then -(2 ^ 64) else 2 ^ 64
      | .num q _ => nearestEven q
    toLe w (satSigned (8 * w) q)
  if format = 1 then whole 2
  else if format = 2 then whole 4
  else
    match toFp32 v with
    | .inf n => toLe 4 (toWord32 (.num (if n then -fp32.largest else fp32.largest) n))
    | y => toLe 4 (toWord32 y)

/-- The value that SRC names: a word of the estimate record, or a variable of x (R440). -/
def fieldSource (src : Nat) (x : List Fp) (words : List Word) : Fp :=
  if bit src 15 then ofWord32 (words.getD (src % 64) 0).toNat else x.getD src .nan

/-- A field's bytes: the scaled value, or SAFE where there is none or it is no number (R440). -/
def FieldEntry.write (f : FieldEntry) (x : Option (List Fp)) (words : List Word) : List Byte :=
  let safe := ofWord32 f.safe.toNat
  match x with
  | none => encodeField f.format safe
  | some x =>
    match (fieldSource f.src x words).times (ofWord32 f.scale.toNat) with
    | .nan => encodeField f.format safe
    | v => encodeField f.format v

/-- FLAGS of Table 12.9. -/
def frameFlags (w : PeriodWork) (c : FrameContent) (brown : Bool) : Nat :=
  let b (v : Bool) (k : Nat) : Nat := if v then 2 ^ k else 0
  let paired := match w.result with | some r => bit (field r.record 1 1) 6 | none => false
  let rejected := match w.result with | some r => r.warmRejected | none => false
  b brown 0 + b paired 1 + b c.hold 2 + b rejected 3 + b (bit w.flags 0) 4 + b w.suspect 5

/-- The payload header of frame i (Table 12.9). -/
def frameHeader (w : PeriodWork) (c : FrameContent) (flags alive i : Nat) : List Byte :=
  toLe 2 0x4143 ++ [0x01] ++ toLe 1 c.status ++ toLe 2 flags ++ toLe 2 alive ++ toLe 8 w.period ++ tov12 w.cutoff ++
    toLe 2 c.fallbacks ++ toLe 1 i ++ toLe 1 0

/-- Build frame i and put it into its launch queue (R39, R440): header and fields checked by CHECK_n with ALIVE, which counts up
for each frame of the entry. -/
def State.placeFrame (s : State) (b : List Byte) (w : PeriodWork) (c : FrameContent) (flags i : Nat) : State :=
  let e := frameEntry b i
  let alive := Store.get 0 s.clsA.alive i
  let checked := frameHeader w c flags alive i ++ (fieldEntries b e).flatMap (fun f => f.write c.values w.words)
  let (crc, s) := s.generate e.check checked i alive
  let s := s.setClassA { s.clsA with alive := Store.set 0 s.clsA.alive i ((alive + 1) % 65536) }
  s.enqueueLaunch e.port (splice (slice b e.template e.length) e.payload (checked ++ toLe 4 crc)) (w.launch + nsStamp e.delay)

/-- Build every frame of the period (R441). -/
def State.buildFrames (s : State) (w : PeriodWork) (readyNs : Nat) : State :=
  let b := s.settingsBytes 0
  let held := heldAfter b w.result s.clsA.held
  let c := frameContent (s.setting 0x0D 1) s.clsA.fallbacks w.result held
  let s := s.setClassA { s.clsA with held := held, stale := none, fallbacks := c.fallbacks, work := some { w with built := true } }
  let flags := frameFlags w c (w.brown || s.brown || (match w.result with | some r => r.brown | none => false))
  let s := (List.range (frameCount b)).foldl (fun s i => s.placeFrame b w c flags i) s
  s.raiseMax fld_CLA_WORST_READY_NS readyNs

/-- FRAME_BUILD (R39, R46, R441): once the result is ready or the solver deadline has come. Gating for NAP follows the frames of
the last period (R528). -/
def execFrameBuild (readyNs : Nat) (s : State) : Host.Outcome State Fault Refusal :=
  match s.clsA.work with
  | none => .next s
  | some w =>
    if w.built ∨ w.ready = false ∨ s.swatchRuns 3 = false then .next s
    else
      let s := (s.advanceTo (w.cutoff + nsStamp readyNs)).buildFrames w readyNs
      .next (if s.napPending ∧ s.loop.stopped = some LoopStop.nap then s.gateForNap else s)

end Sys2Proof.Machine
end

