-- ==== Sys2Proof/Machine/SkeinChecks.lean ====
section
/-!
DEFINITION. The skein and its checks: the fixed header, the section table, the signature block, register write entries, grant
entries and data records (R94 to R106, R114, R570, R576, R577).
-/
namespace Sys2Proof.Machine

/-! ### Result codes (Table 3.6) -/

def castOk : Nat := 1
def castNoHeader : Nat := 2
def castBadLayout : Nat := 3
def castKeyUnknown : Nat := 4
def castKeyRevoked : Nat := 5
def castSigEd : Nat := 6
def castSigMldsa : Nat := 7
def castRollback : Nat := 8
def castCapShort : Nat := 9
def castSectionDigest : Nat := 0xA
def castBadWrite : Nat := 0xB
def castBadGrant : Nat := 0xC
def castMemTrain : Nat := 0xD
def castFlashIo : Nat := 0xE
def castFuseErr : Nat := 0xF
def castProvision : Nat := 0x10

/-- A slot's failure: its code, the section and entry of CASTON_DETAIL, and for CAP_SHORT whether the PAIRED test failed and the
capability entry. -/
structure SlotFailure where
  code : Nat
  section_ : Nat
  entry : Nat
  paired : Bool
  index : Nat
  deriving DecidableEq, Repr

/-- A failure without a place. -/
def SlotFailure.plain (code : Nat) : SlotFailure := ⟨code, 0, 0, false, 0⟩

/-- A failure at a section and entry; the fixed header counts as section 0x3F. -/
def SlotFailure.at_ (code section_ entry : Nat) : SlotFailure := ⟨code, section_, entry, false, 0⟩

/-! ### The header (R96, R97, R99) -/

/-- MAGIC and FORMAT match (R102). -/
def plausible (b : List Byte) : Bool := field b 0 4 == 0x53454B53 && field b 4 2 == 1

/-- A section table entry. -/
def readSection (b : List Byte) (i : Nat) : Section :=
  let o := 0x100 + 80 * i
  ⟨field b o 1, field b (o + 4) 4, field b (o + 8) 4, slice b (o + 16) 64⟩

/-- The header as the checks read it; the image digest covers slot bytes 0 to HEADER_SIZE − 1 (R105). -/
def readSkein (b : List Byte) : Skein :=
  { headerSize := field b 6 2, imageSize := field b 8 4, sequence := field b 0x0C 4, secVersion := field b 0x10 1,
    keySlot := field b 0x11 1, autoCommit := bit (field b 0x12 1) 0, revoke := bit (field b 0x12 1) 1, revokeMask := field b 0x13 1,
    capReq := (List.range 32).map (fun i => field b (0x20 + 4 * i) 4),
    sections := (List.range (field b 0x14 1)).map (readSection b),
    digest := sha512 (slice b 0 (field b 6 2)) }

/-- Whether bytes are all zero. -/
def allZero (b : List Byte) (off n : Nat) : Bool := (slice b off n).all (· == 0)

/-- Where the last section of a table ends. -/
def imageEnd (l : List Section) : Nat := match l.getLast? with | some e => e.offset + e.length | none => 0

/-- The fixed header breaks R96. -/
def fixedBad (b : List Byte) (slotSize : Nat) : Bool :=
  let n := field b 0x14 1
  decide (n < 1) || decide (48 < n) || field b 6 2 != 256 + 80 * n || decide (64 < field b 0x10 1) || decide (3 < field b 0x11 1) ||
    decide (3 < field b 0x12 1) || decide (15 < field b 0x13 1) || bit (field b 0x13 1) (field b 0x11 1) ||
    !allZero b 0x15 11 || !allZero b 0xC0 64 || decide (min slotSize (256 * 2 ^ 20) < field b 8 4) ||
    field b 8 4 != imageEnd ((List.range n).map (readSection b))

/-- The length limit and the grain of a section type (Table 3.5, R99). -/
def sectionLimit (type : Nat) : Nat :=
  match type with | 1 => 65536 | 2 => 1048576 | 3 => 8192 | 4 => 14680064 | _ => 2 ^ 32
def sectionGrain (type : Nat) : Nat := match type with | 1 => 12 | 2 => 12 | 3 => 16 | _ => 1

/-- Section i of a table breaks R97 or R99. -/
def sectionBad (b : List Byte) (i : Nat) : Bool :=
  let o := 0x100 + 80 * i
  let e := readSection b i
  let before := if i = 0 then ⟨0, 0, 0, []⟩ else readSection b (i - 1)
  decide (e.type < 1) || decide (7 < e.type) || !allZero b (o + 1) 3 || !allZero b (o + 12) 4 || e.offset % 4096 != 0 ||
    decide (e.offset < 0x3000) || decide (e.type < before.type) || (e.type == before.type && decide (e.type ≤ 4)) ||
    decide (e.offset ≤ before.offset) || decide (e.offset < before.offset + before.length) ||
    decide (sectionLimit e.type < e.length) || e.length % sectionGrain e.type != 0

/-- MEMCFG or REGS is missing (R99). -/
def sectionsMissing (l : List Section) : Bool := !(l.any (·.type == 1) && l.any (·.type == 2))

/-- The layout checks of the header stage, in their order: fixed header, section table, signature block. -/
def layoutFailure (b block : List Byte) (slotSize : Nat) : Option SlotFailure :=
  let n := field b 0x14 1
  if fixedBad b slotSize then some (SlotFailure.at_ castBadLayout 0x3F 0)
  else
    match (List.range n).find? (sectionBad b) with
    | some i => some (SlotFailure.at_ castBadLayout i 0)
    | none =>
      if sectionsMissing ((List.range n).map (readSection b)) || !allZero block 0xD2D 19 then
        some (SlotFailure.at_ castBadLayout 0x3F 0)
      else none

/-! ### Keys and signatures (R105, R106) -/

/-- The parts of the signature block (Table 3.4), which begins at slot byte 0x1000. -/
def sigEd (block : List Byte) : List Byte := slice block 0 64
def sigMldsa (block : List Byte) : List Byte := slice block 0x40 3309
def pubEd (block : List Byte) : List Byte := slice block 0xD40 32
def pubMldsa (block : List Byte) : List Byte := slice block 0xD60 1952

/-- The 64 bytes of a fuse key slot. -/
def State.keyDigest (s : State) (slot : Nat) : List Byte :=
  (List.range 16).flatMap (fun w => wordBytes (s.reg (reg_KEY_DIGEST (16 * slot + w))))

/-- The key and signature checks, the rollback check and the 32 capability comparisons, in order (R103, R570). -/
def State.trustFailure (s : State) (k : Skein) (block : List Byte) : Option SlotFailure :=
  if bit (s.fld fld_KEY_STATUS_PRESENT) k.keySlot = false ∨ sha512 (pubEd block ++ pubMldsa block) ≠ s.keyDigest k.keySlot then
    some (SlotFailure.plain castKeyUnknown)
  else if bit (s.fld fld_KEY_STATUS_REVOKED) k.keySlot then some (SlotFailure.plain castKeyRevoked)
  else if Config.ed25519Verify (pubEd block) k.digest (sigEd block) = false then some (SlotFailure.plain castSigEd)
  else if Config.mldsaVerify (pubMldsa block) k.digest (sigMldsa block) = false then some (SlotFailure.plain castSigMldsa)
  else if k.secVersion < s.fld fld_ROLLBACK_COUNTER then some (SlotFailure.plain castRollback)
  else
    match (List.range 32).find? (fun i => decide ((s.reg (4 * i)).toNat < k.capReq.getD i 0)) with
    | some i => some ⟨castCapShort, 0, 0, false, i⟩
    | none => none

/-- The header stage of a slot (R103). -/
def State.headerFailure (s : State) (head block : List Byte) (slotSize : Nat) : Option SlotFailure :=
  if plausible head = false then some (SlotFailure.plain castNoHeader)
  else
    match layoutFailure head block slotSize with
    | some f => some f
    | none => s.trustFailure (readSkein head) block

/-! ### Register writes (R100) -/

/-- The write entries of a section. -/
def writeEntries : Nat → List Byte → List RegWrite
  | 0, _ => []
  | n + 1, l => ⟨BitVec.ofNat 32 (field l 0 4), BitVec.ofNat 32 (field l 4 4), BitVec.ofNat 32 (field l 8 4)⟩ :: writeEntries n (l.drop 12)

/-- A word after a write entry. -/
def RegWrite.on (w : Word) (e : RegWrite) : Word := (w &&& ~~~ e.mask) ||| (e.value &&& e.mask)

/-- A register as the staged entries leave it. -/
def State.stagedReg (s : State) (l : List RegWrite) (a : Nat) : Word :=
  (l.filter (fun e => e.addr.toNat == a)).foldl RegWrite.on (s.reg a)

/-- The calibration item whose CAL_USER register an address is. -/
def calItem (a : Nat) : Option Nat := (List.range 24).find? (fun n => reg_CAL_USER n == a)

/-- The range of CAL_USER of an item (Table 3.10). -/
def calRange (n : Nat) : Int × Int :=
  if n = 1 then (-64, 63) else if n ≤ 3 then (0, 0) else if n ≤ 11 then (-160, 160) else if n ≤ 15 then (-80, 80) else (-8, 7)

/-- The memory tiers block. -/
def inMemBlock (a : Nat) : Bool := decide (0x600000 ≤ a) && decide (a ≤ 0x6FFFFC)

/-- Whether an address is that of a register the map names. -/
def named (a : Nat) : Bool := a % 4 == 0 && (regRow a).isSome

/-- A write entry, after `before`, is valid in its section. -/
def State.writeValid (s : State) (memcfg : Bool) (before : List RegWrite) (e : RegWrite) : Bool :=
  let a := e.addr.toNat
  named a && inMemBlock a == memcfg && (e.mask &&& ~~~ maskAt a (·.access == .rwl)) == 0 &&
    (match calItem a with
     | some n => decide ((calRange n).1 ≤ signed 16 (s.stagedReg (before ++ [e]) a).toNat) &&
         decide (signed 16 (s.stagedReg (before ++ [e]) a).toNat ≤ (calRange n).2)
     | none => true)

/-- The first invalid entry of a section, counted from 0. -/
def State.badWrite (s : State) (memcfg : Bool) (before : List RegWrite) : Nat → List RegWrite → Option Nat
  | _, [] => none
  | i, e :: r => if s.writeValid memcfg before e then s.badWrite memcfg (before ++ [e]) (i + 1) r else some i

/-! ### Grants (R114) -/

/-- The grant entries of a section. -/
def grantEntries : Nat → List Byte → List Grant
  | 0, _ => []
  | n + 1, l =>
    ⟨BitVec.ofNat 32 (field l 0 4), BitVec.ofNat 32 (field l 4 4), BitVec.ofNat 32 (field l 8 4), BitVec.ofNat 32 (field l 12 4)⟩ ::
      grantEntries n (l.drop 16)

/-- The whole fields under a mask that may be granted: LIVE, or STICKY with access W1C. -/
def grantable (a : Nat) (mask : Word) : Word :=
  maskAt a (fun f => (f.keeps == .live || (f.keeps == .sticky && f.access == .w1c)) && (f.mask &&& mask) == f.mask)

/-- A grant entry is valid beside those before it. -/
def grantValid (before : List Grant) (g : Grant) : Bool :=
  let a := g.addr.toNat
  g.mask != 0 && named a && grantable a g.mask == g.mask && !before.any (fun h => h.addr == g.addr) &&
    decide (g.lower.toNat ≤ g.upper.toNat)

/-- The first invalid grant of a section. -/
def badGrant (before : List Grant) : Nat → List Grant → Option Nat
  | _, [] => none
  | i, g :: r => if grantValid before g then badGrant (before ++ [g]) (i + 1) r else some i

/-! ### Data records (R101) -/

/-- A data record. -/
structure DataRecord where
  dest : Nat
  offset : Nat
  data : List Byte
  deriving DecidableEq, Repr

/-- The records of a section, and whether they fill it exactly, each padded with zeros. -/
def dataRecords : Nat → List Byte → List DataRecord × Bool
  | 0, l => ([], l.isEmpty)
  | n + 1, l =>
    if l.isEmpty then ([], true)
    else
      let len := field l 4 4
      let size := 16 + ceilDiv len 16 * 16
      if l.length < 16 ∨ l.length < size ∨ allZero l (16 + len) (size - 16 - len) = false then ([], false)
      else
        let r := dataRecords n (l.drop size)
        (⟨field l 0 4, field l 8 8, slice l 16 len⟩ :: r.1, r.2)

/-- The swatches that a CLASSA record may name: those on the path, and SOLV_1 in a paired image (R101, R374). -/
def classASwatch (paired : Bool) (n : Nat) : Bool :=
  n == 2 || n == 3 || n == 4 || n == 5 || n == 12 || n == 13 || (n == 14 && paired)

/-- A record names a swatch its section may carry data for. -/
def DataRecord.allowed (r : DataRecord) (type : Nat) (paired : Bool) : Bool :=
  if type = 4 then classASwatch paired (r.dest % 256) else if type = 5 then decide (r.dest % 256 < 48) else true

/-- The first record of a section that breaks R101. -/
def badRecord (type : Nat) (paired : Bool) (b : List Byte) : Option Nat :=
  let r := dataRecords (b.length / 16 + 1) b
  match r.1.findIdx? (fun e => !e.allowed type paired) with
  | some i => some i
  | none => if r.2 then none else some r.1.length

end Sys2Proof.Machine
end

