-- ==== Sys2Proof/Machine/CastOn.lean ====
section
/-!
DEFINITION. Cast-on up to the last section: fuse sensing, the PLLs, the choice and the checks of the slots, and the staging of their
sections (R92 to R114, R506, R507, R574 to R578).
-/
namespace Sys2Proof.Machine

/-- Set cast-on's own state. -/
def State.setCast (s : State) (c : CastOn) : State := { s with cast := c }

/-- Cast-on waits for a step, with the device powered and out of reset. -/
def State.castAt (s : State) (k : CastStep) : Bool := s.alive && s.cast.step == k

/-! ### Results and failures -/

/-- The result field of a slot, false A. -/
def resultField (b : Bool) : Fld := if b then fld_CASTON_STATUS_RESULT_B else fld_CASTON_STATUS_RESULT_A

/-- Record a code against both slots (R103). -/
def State.bothResults (s : State) (code : Nat) : State := (s.setFld (resultField false) code).setFld (resultField true) code

/-- The time since the reset ended, in µs of REFCLK, at entry to FAILED: no event of the table carries it, so its value is free. -/
def State.timeFailed (s : State) : State :=
  let (w, s) := s.takeWord
  s.setFld fld_CASTON_TIME_US w.toNat

/-- The flash port is released on leaving CASTING (R95, R507). -/
def State.releaseFlash (s : State) : State := { s with links := { s.links with ospiDriven := false } }

/-- Both slots have failed: FAILED (R102, R104). -/
def State.enterFailed (s : State) : State :=
  let s := (s.setPhase phaseFailed).timeFailed.releaseFlash
  s.setCast { s.cast with step := .stopped, slot := none, skein := none }

/-- The registers in which a failure shows its place (R576, R577). -/
def State.recordFailure (s : State) (b : Bool) (f : SlotFailure) : State :=
  let s := s.setFld (resultField b) f.code
  if f.code = castBadLayout ∨ f.code = castSectionDigest ∨ f.code = castBadWrite ∨ f.code = castBadGrant then
    (((s.setFlag fld_CASTON_DETAIL_SLOT b).setFlag fld_CASTON_DETAIL_VALID true).setFld fld_CASTON_DETAIL_SECTION f.section_).setFld
      fld_CASTON_DETAIL_ENTRY f.entry
  else if f.code = castCapShort then
    (((s.setFlag fld_CASTON_CAP_FAIL_SLOT b).setFlag fld_CASTON_CAP_FAIL_VALID true).setFlag fld_CASTON_CAP_FAIL_PAIRED f.paired).setFld
      fld_CASTON_CAP_FAIL_INDEX f.index
  else s

/-- A fuse bit as it reads once blown. -/
def State.blown (s : State) : FuseBit → State
  | .rollback => s.addSat fld_ROLLBACK_COUNTER 1
  | .revoked k => s.setFld fld_KEY_STATUS_REVOKED (Nat.lor (s.fld fld_KEY_STATUS_REVOKED) (2 ^ k))
  | .key w b => s.setReg (reg_KEY_DIGEST w) (s.rawReg (reg_KEY_DIGEST w) ||| BitVec.ofNat 32 (2 ^ b))
  | .present k => s.setFld fld_KEY_STATUS_PRESENT (Nat.lor (s.fld fld_KEY_STATUS_PRESENT) (2 ^ k))
  | .keysLocked => s.setFlag fld_SEC_STATE_KEYS_LOCKED true

/-- A reset interrupts a commit: the bit being blown ends blown or unblown, which the spec leaves open (R108; log entry 18). A bit
that a brown hold has stopped is not being blown, but its readback is still owed, so it too may read either way. -/
def State.interruptFuses (s : State) : State :=
  match s.cast.fuses with
  | [] => s
  | f :: _ => let (b, s) := s.takeBit; if b then s.blown f else s

/-- What the flash keeps through every reset: durable records, journals and checkpoints (R305, R306). -/
def Memory.durable (m : Memory) : Memory :=
  { Memory.reset with
    recordBytes := m.recordBytes, recordBad := m.recordBad, journal := m.journal, ckptA := m.ckptA, ckptB := m.ckptB,
    ckptNewer := m.ckptNewer, programmed := m.programmed }

/-- What a failed slot staged is never used: PLL_ARITH stops, MEM returns to reset (R110, R112). -/
def State.dropStaged (s : State) : State :=
  let s := (s.setFlag fld_MEM_STATUS_TRAINED false).setFld fld_MEM_OBJ_STATUS_BULK_DROPPED 0
  let s := (s.setFld fld_PLL_STATUS_LOCK (s.fld fld_PLL_STATUS_LOCK &&& 0xD)).setInReset [15] true
  { s with sram := [], sramLen := [], sramBad := [], mem := s.mem.durable, solv := Solvers.reset,
           cast := { s.cast with skein := none, nextSection := 0, writes := [], grants := [], regsChecked := false,
                                 arithLocked := false, training := false, trained := false } }

/-- Try a slot. -/
def State.trySlot (s : State) (b : Bool) : State :=
  s.setCast { s.cast with step := .signature, slot := some b, triedA := s.cast.triedA || !b, triedB := s.cast.triedB || b }

/-- A slot fails: the other is tried where it is plausible and untried, or else the device enters FAILED (R102). -/
def State.failSlot (s : State) (b : Bool) (f : SlotFailure) : State :=
  let s := (s.recordFailure b f).dropStaged
  let free := if b then s.flag fld_CASTON_STATUS_PLAUSIBLE_A && !s.cast.triedA else s.flag fld_CASTON_STATUS_PLAUSIBLE_B && !s.cast.triedB
  if free then s.trySlot (!b) else s.enterFailed

/-- The slot being tried fails. -/
def State.failCurrent (s : State) (f : SlotFailure) : State :=
  match s.cast.slot with
  | some b => s.failSlot b f
  | none => s

/-- FLASH_IO before both headers have been read (R103). -/
def State.failBoth (s : State) : State := (s.bothResults castFlashIo).enterFailed

/-! ### Fuse sensing and the PLLs (R110, R111) -/

/-- The boot count rises once at each entry to FUSE_SENSE (R574). -/
def State.countBoot (s : State) : State :=
  if s.cast.bootCounted then s
  else (s.addSat fld_SYS_BOOT_COUNT_COUNT 1).setCast { s.cast with bootCounted := true }

/-- A sensor reads below a limit with its factory value, in 1/16 °C (R117, R518). -/
def State.coolerThan (s : State) (limit : Int) (raw : List Int) : Bool :=
  (List.range 8).all (fun n => decide (raw.getD n 0 + signed 16 (s.fld (fld_CAL_FACT_VALUE (4 + n))) < limit))

/-- The end of fuse sensing (R92, R103, R111); a phase other than CASTING has no use for the flash (R95). -/
def State.sensed (s : State) (arrayOk : Bool) : State :=
  let s := s.setCast { s.cast with fuseErr := !arrayOk, step := .pllSys }
  if arrayOk = false then ((s.bothResults castFuseErr).setPhase phaseFailed).timeFailed.releaseFlash
  else if s.flag fld_SEC_STATE_KEYS_LOCKED = false then ((s.bothResults castProvision).setPhase phaseProvision).releaseFlash
  else s.setPhase phaseCasting

/-- FUSE_SENSE_DONE (R110, R518): after a thermal trip fuse sensing lasts until every sensor is below 100 °C. -/
def execFuseSenseDone (arrayOk : Bool) (raw : List Int) (s : State) : Host.Outcome State Fault Refusal :=
  if s.castAt .fuseSense = false then .next s
  else
    let s := s.countBoot
    if s.fld fld_RST_CAUSE_LAST = 7 ∧ s.coolerThan 1600 raw = false then .next s else .next (s.sensed arrayOk)

/-- PLL_SYS_LOCKED (R110): SYS moves to PLL_SYS. -/
def execPllSysLocked (s : State) : Host.Outcome State Fault Refusal :=
  if s.castAt .pllSys = false then .next s
  else
    let s := s.setFld fld_PLL_STATUS_LOCK (Nat.lor (s.fld fld_PLL_STATUS_LOCK) 1)
    .next { s.setCast { s.cast with step := .pllIoTime } with sw := { s.sw with sysOnRefclk := false } }

/-- PLL_IO_TIME_LOCKED (R110, R111, R135): device time starts at 0, the step is armed; PROVISION and FAILED stop here. -/
def execPllIoTimeLocked (s : State) : Host.Outcome State Fault Refusal :=
  if s.castAt .pllIoTime = false then .next s
  else
    let s := s.setFld fld_PLL_STATUS_LOCK (Nat.lor (s.fld fld_PLL_STATUS_LOCK) 0xC)
    let s := (s.setFlag fld_TIME_STATUS_STEP_ARMED true).setCast
      { s.cast with step := if s.phase = phaseCasting then .flashMode else .stopped }
    .next { s with time := { s.time with running := true, ticks := 0, eras := [], now := 0 } }.openEra

/-! ### The slots (R94, R102, R506) -/

/-- FLASH_MODE_READY (R506). -/
def execFlashModeReady (density : Nat) (ok : Bool) (s : State) : Host.Outcome State Fault Refusal :=
  if s.castAt .flashMode = false then .next s
  else if ok then .next (s.setCast { s.cast with flashDensity := density, step := .headers }) else .next s.failBoth

/-- Where slot B begins (R94). -/
def slotBBase (density : Nat) : Nat := min (density / 2) (256 * 2 ^ 20)

/-- The slot size (R94). -/
def State.slotSize (s : State) (b : Bool) : Nat :=
  if b then s.cast.flashDensity - slotBBase s.cast.flashDensity else slotBBase s.cast.flashDensity

/-- Judge both headers and choose the slot tried first (R102, R575). -/
def State.chooseSlot (s : State) (a b : List Byte) : State :=
  let pa := plausible a
  let pb := plausible b
  let first := pb && (!pa || decide (field a 0x0C 4 < field b 0x0C 4))
  let s := ((s.setFlag fld_CASTON_STATUS_PLAUSIBLE_A pa).setFlag fld_CASTON_STATUS_PLAUSIBLE_B pb).setFlag fld_CASTON_STATUS_FIRST first
  let s := if pa then s else s.setFld (resultField false) castNoHeader
  let s := if pb then s else s.setFld (resultField true) castNoHeader
  let s := s.setCast { s.cast with headA := a, headB := b }
  if pa || pb then s.trySlot first else s.enterFailed

/-- SLOT_HEADERS_READ (R102). -/
def execSlotHeadersRead (a b : List Byte) (ok : Bool) (s : State) : Host.Outcome State Fault Refusal :=
  if s.castAt .headers = false then .next s
  else if ok then .next (s.chooseSlot a b) else .next s.failBoth

/-- The header stage of the slot being tried ends (R103). -/
def State.concludeHeader (s : State) (b : Bool) (block : List Byte) : State :=
  let head := if b then s.cast.headB else s.cast.headA
  match s.headerFailure head block (s.slotSize b) with
  | some f => s.failSlot b f
  | none => s.setCast { s.cast with step := .sections, skein := some (readSkein head), nextSection := 0 }

/-- SIGNATURE_VERIFIED (R103, R106). -/
def execSignatureVerified (block : List Byte) (ok : Bool) (s : State) : Host.Outcome State Fault Refusal :=
  match s.castAt .signature, s.cast.slot with
  | true, some b => if ok then .next (s.concludeHeader b block) else .next (s.failSlot b (SlotFailure.plain castFlashIo))
  | _, _ => .next s

/-! ### Sections (R99 to R101, R103, R110 to R114) -/

/-- The section to read next. -/
def State.nextSectionEntry (s : State) : Option Section :=
  match s.cast.skein with
  | some k => k.sections[s.cast.nextSection]?
  | none => none

/-- The state as the staged register values will leave it. -/
def State.applyStaged (s : State) : State :=
  s.cast.writes.foldl (fun s e => s.setReg e.addr.toNat (e.on (s.rawReg e.addr.toNat))) s

/-- The PAIRED test of R103. -/
def State.pairedShort (s : State) : Bool :=
  (s.stagedReg s.cast.writes reg_CLA_CTRL).getLsbD 1 && decide ((s.reg reg_CAP_SOLVER_CORES).toNat < 2)

/-- Stage a MEMCFG or a REGS section. -/
def State.stageWrites (s : State) (i : Nat) (memcfg : Bool) (b : List Byte) : State :=
  let l := writeEntries (b.length / 12) b
  match s.badWrite memcfg s.cast.writes 0 l with
  | some j => s.failCurrent (SlotFailure.at_ castBadWrite i j)
  | none =>
    let s := s.setCast { s.cast with writes := s.cast.writes ++ l, nextSection := i + 1 }
    if memcfg then (s.setInReset [15] false).setCast { s.cast with training := true }
    else if s.pairedShort then s.failCurrent ⟨castCapShort, 0, 0, true, 0⟩
    else s.setCast { s.cast with regsChecked := true }

/-- Stage a GRANTS section. -/
def State.stageGrants (s : State) (i : Nat) (b : List Byte) : State :=
  let l := grantEntries (b.length / 16) b
  match badGrant [] 0 l with
  | some j => s.failCurrent (SlotFailure.at_ castBadGrant i j)
  | none => s.setCast { s.cast with grants := l, nextSection := i + 1 }

/-- The data space in bytes (R308, R330): two interfaces carry equal densities. -/
def State.dataSpace (s : State) : Nat :=
  let raw := 2 ^ 31 * 2 ^ s.fld fld_MEM_CFG_DENSITY
  (if s.flag fld_MEM_CFG_IF1_EN then 2 * raw else raw) / 8 * 7

/-- The pages below the three reserved areas (R307). -/
def State.pagesBelow (s : State) : Nat :=
  (s.dataSpace - s.fld fld_MEM_TILE_CFG_DIR_ENTRIES * 32 - ceilDiv s.mem.reload 4096 * 4096 - s.dataSpace / 1024) / pageBytes

/-- A static object declaration (R303): its identifier, flags and size, or none where the entry fails. -/
structure Declaration where
  id : Nat
  flags : Nat
  size : Nat
  deriving DecidableEq, Repr

/-- The declarations of object 1 of MEM, in order, with the pages still free. -/
def State.declarations (s : State) : Nat → Nat → Nat → Nat → List (Option Declaration)
  | 0, _, _, _ => []
  | n + 1, i, before, free =>
    let d : Declaration := ⟨s.objNat 15 1 (16 * i) 4, s.objNat 15 1 (16 * i + 4) 4, s.objNat 15 1 (16 * i + 8) 8⟩
    if d.id = 0 ∨ 0xFFFF < d.id ∨ d.id ≤ before ∨ 3 < d.flags ∨ d.size = 0 ∨ d.size % pageBytes ≠ 0 ∨ free < d.size / pageBytes then
      none :: s.declarations n (i + 1) d.id free
    else some d :: s.declarations n (i + 1) d.id (free - d.size / pageBytes)

/-- Every declaration of the image, under its staged settings. -/
def State.declared (s : State) : List (Option Declaration) :=
  s.declarations (s.objLen 15 1 / 16) 0 0 s.applyStaged.pagesBelow

/-- Bytes of a BULK record go to their object, as far as it reaches; a record of an undeclared object is discarded (R303). -/
def State.stageBulk (s : State) (l : List (Option Declaration)) (r : DataRecord) : State :=
  match (l.filterMap id).find? (fun d => d.id == r.dest) with
  | some d => s.setMemBytes r.dest r.offset (r.data.take (d.size - r.offset))
  | none => s.addSat fld_MEM_OBJ_STATUS_BULK_DROPPED 1

/-- A CLASSA or RESIDENT record goes into the SRAM of its swatch; RESIDENT lengths add to the reload area (R112, R113, R307). -/
def State.stageObject (s : State) (type : Nat) (r : DataRecord) : State :=
  let s := if r.offset + r.data.length ≤ 2 ^ 40 then s.loadObj (r.dest % 256) (r.dest / 256) r.offset r.data else s
  if type = 5 then { s with mem := { s.mem with reload := s.mem.reload + r.data.length } } else s

/-- Stage a CLASSA, RESIDENT or BULK section. -/
def State.stageRecords (s : State) (i type : Nat) (b : List Byte) : State :=
  let paired := (s.stagedReg s.cast.writes reg_CLA_CTRL).getLsbD 1
  match badRecord type paired b with
  | some j => s.failCurrent (SlotFailure.at_ castBadLayout i j)
  | none =>
    let l := (dataRecords (b.length / 16 + 1) b).1
    let s := if type = 6 then l.foldl (fun t r => t.stageBulk s.declared r) s else l.foldl (fun t r => t.stageObject type r) s
    s.setCast { s.cast with nextSection := i + 1 }

/-- Stage a section that has passed its digest. -/
def State.stageSection (s : State) (e : Section) (b : List Byte) : State :=
  let i := s.cast.nextSection
  if e.type = 1 then s.stageWrites i true b
  else if e.type = 2 then s.stageWrites i false b
  else if e.type = 3 then s.stageGrants i b
  else if e.type ≤ 6 then s.stageRecords i e.type b
  else s.setCast { s.cast with nextSection := i + 1 }

/-- With its last section the slot has passed every check but training. -/
def State.settleSections (s : State) : State :=
  match s.cast.skein with
  | some k => if s.cast.step = .sections ∧ k.sections.length ≤ s.cast.nextSection then s.setCast { s.cast with step := .applied } else s
  | none => s

/-- Take the bytes of a section: its digest first, then its contents (R103). -/
def State.takeSection (s : State) (e : Section) (b : List Byte) : State :=
  if sha512 (slice b 0 e.length) ≠ e.digest then s.failCurrent (SlotFailure.at_ castSectionDigest s.cast.nextSection 0)
  else (s.stageSection e (slice b 0 e.length)).settleSections

/-- Reading of the flash pauses at a RESIDENT or BULK section until training has completed (R113). -/
def State.pausesAt (s : State) (e : Section) : Bool := (e.type == 5 || e.type == 6) && !s.cast.trained

/-- SECTION_READ (R103): reading pauses at the first RESIDENT or BULK section until training has completed (R113). -/
def execSectionRead (bytes : List Byte) (ok : Bool) (s : State) : Host.Outcome State Fault Refusal :=
  match s.castAt .sections, s.nextSectionEntry with
  | true, some e =>
    if s.pausesAt e then .next s
    else if ok then .next (s.takeSection e bytes) else .next (s.failCurrent (SlotFailure.plain castFlashIo))
  | _, _ => .next s

/-- FLASH_COMMAND_TIMEOUT (R103): FLASH_IO for the step under way. -/
def execFlashCommandTimeout (s : State) : Host.Outcome State Fault Refusal :=
  if s.castAt .flashMode ∨ s.castAt .headers then .next s.failBoth
  else if s.castAt .signature then .next (s.failCurrent (SlotFailure.plain castFlashIo))
  else if s.castAt .sections then
    match s.nextSectionEntry with
    | some e => if s.pausesAt e then .next s else .next (s.failCurrent (SlotFailure.plain castFlashIo))
    | none => .next s
  else .next s

/-- PLL_ARITH_LOCKED (R110): on its effective trim once REGS has passed. -/
def execPllArithLocked (s : State) : Host.Outcome State Fault Refusal :=
  if (s.castAt .sections ∨ s.castAt .applied) ∧ s.cast.regsChecked = true ∧ s.cast.arithLocked = false then
    let s := s.setFld fld_PLL_STATUS_LOCK (Nat.lor (s.fld fld_PLL_STATUS_LOCK) 2)
    .next (s.setCast { s.cast with arithLocked := true })
  else .next s

/-- MEM_CFG keeps to R307. -/
def State.memCfgOk (s : State) : Bool :=
  s.flag fld_MEM_CFG_IF0_EN && s.fld fld_MEM_CFG_RATE != 3 && decide (1 ≤ s.fld fld_MEM_CFG_DENSITY) && decide (s.fld fld_MEM_CFG_DENSITY ≤ 4)

/-- MEM_TRAINING_DONE (R307, R330): values outside R307 fail it. -/
def execMemTrainingDone (ok : Bool) (s : State) : Host.Outcome State Fault Refusal :=
  if (s.castAt .sections ∨ s.castAt .applied) ∧ s.cast.training = true then
    if ok && s.applyStaged.memCfgOk then
      .next ((s.setFlag fld_MEM_STATUS_TRAINED true).setCast { s.cast with training := false, trained := true })
    else .next (s.failCurrent (SlotFailure.plain castMemTrain))
  else .next s

end Sys2Proof.Machine
end

