-- ==== Sys2Proof/Machine/Levels.lean ====
section
/-!
DEFINITION. The clock step of each arithmetic swatch at each governor level, and brown hold's limit on it (R515, R522, R523).
-/
namespace Sys2Proof.Machine

/-- The clock step of an arithmetic swatch at a level (Table 15.1): 0 is 600, 1 is 450, 2 is 300 and 3 is 150 MHz. -/
def levelStep (n level : Nat) : Nat :=
  if 32 ≤ n then [0, 1, 1, 2, 2, 3, 3, 3].getD level 3
  else if n ≤ 11 then [0, 0, 1, 1, 2, 2, 3, 3].getD level 3
  else if n = 14 then [0, 0, 0, 1, 1, 2, 3, 3].getD level 3
  else [0, 0, 0, 0, 1, 1, 1, 1].getD level 1

/-- The step a swatch is to run at: PAIRED keeps SOLV_1 at 450 MHz or above; brown hold keeps every swatch at 450 MHz or below. -/
def State.dueStep (s : State) (n : Nat) : Nat :=
  let k := levelStep n s.level
  let k := if n = 14 ∧ s.flag fld_CLA_CTRL_PAIRED then min k 1 else k
  if s.brown then max k 1 else k

/-- Whether a swatch is clocked: neither gated nor in reset. -/
def State.stepping (s : State) (n : Nat) : Bool := arithSwatch n && !s.sw.gated.getLsbD n && !s.inReset n

/-- The arithmetic swatches that are clocked take their steps; one gated or in reset takes its step as it resumes, and until then
STEP reads the step it had (R65, R515; log entry 59). -/
def State.takeSteps (s : State) : State :=
  { s with sw := { s.sw with step := ((List.range 48).filter s.stepping).foldl (fun m n => Store.set 0 m n (s.dueStep n)) s.sw.step } }

end Sys2Proof.Machine
end

