-- ==== Sys2Proof/Machine/Gating.lean ====
section
/-!
DEFINITION. Which swatches the present power state and phase gate (R123, R525, R528, R532).
-/
namespace Sys2Proof.Machine

/-- The swatches that stay on in BOUND: groups 0 and 9 to 11. -/
def boundSwatch (n : Nat) : Bool := groupOf n == 0 || (decide (9 ≤ groupOf n) && decide (groupOf n ≤ 11))

/-- The swatches that DOZE gates (Table 15.5). -/
def State.dozeGated (s : State) (n : Nat) : Bool := decide (32 ≤ n) || decide (16 ≤ n ∧ n < 32) || (n == 14 && !s.paired) || decide (9 ≤ n ∧ n ≤ 11)

/-- Whether the present power state or phase gates a swatch. -/
def State.dueGated (s : State) (n : Nat) : Bool :=
  (s.phase == phaseBound && !boundSwatch n) || (decide (1 ≤ s.powerCode) && s.dozeGated n) ||
    (s.power.napLoopStopped && napSwatches.contains n) || (s.powerCode == 2 && n == 15)

/-- Every swatch takes the gating of the state; one in reset or restoring stays clocked until its restore is complete (R532). -/
def State.regate (s : State) : State :=
  let due := (List.range 48).filter (fun n => s.dueGated n && s.groupPhase (groupOf n) == .running)
  { s with sw := { s.sw with gated := swatchBits due } }

end Sys2Proof.Machine
end

