-- ==== Sys2Proof/Machine/ImuPorts.lean ====
section
/-!
DEFINITION. The IMU ports: initialisation list, data-ready edges and reads (R503 to R505, R512).
-/
namespace Sys2Proof.Machine

/-- IMU, the swatch of the controllers. -/
def imuSwatch : Nat := 5

/-- An IMU is on the SPI bus. -/
def State.onSpi (s : State) (n : Nat) : Bool := s.flag (fld_IMU_PORT_CFG_BUS n)

/-- Entries of the initialisation list, object 1 of the swatch (R504). -/
def State.initLength (s : State) : Nat := min 256 (s.objLen imuSwatch 1 / 8)
def State.initField (s : State) (i off n : Nat) : Nat := s.objNat imuSwatch 1 (8 * i + off) n

/-- An IMU that can be written to: enabled, without INIT_ERR, and on I3C with an address. -/
def State.imuReachable (s : State) (n : Nat) : Bool :=
  decide (n < 4) && s.imuOn n && !s.flag (fld_IMU_PORT_STATUS_INIT_ERR n) && (s.onSpi n || s.flag (fld_IMU_PORT_STATUS_ADDR_VALID n))

/-- The next I3C IMU to be given an address. -/
def State.toAddress (s : State) : Option Nat :=
  (List.range 4).find? (fun n => s.imuOn n && !s.onSpi n && !s.links.initAddressed.contains n &&
    s.fld (fld_IMU_PORT_CFG_STATIC_ADDR n) != 0)

/-- The next entry that is not skipped. -/
def State.nextEntry (s : State) : Option Nat :=
  (List.range s.initLength).find? (fun i => decide (s.links.initNext ≤ i) && s.imuReachable (s.initField i 0 1))

/-- The list ends where nothing is left to address or write (R504). -/
def State.settleInit (s : State) : State :=
  if s.toAddress.isNone && s.nextEntry.isNone then
    (List.range 4).foldl (fun s n => if s.imuOn n then s.setFlag (fld_IMU_PORT_STATUS_INIT_DONE n) true else s)
      { s with links := { s.links with initRunning := false } }
  else s

/-- The list starts, at cast-on lock and after a reset of the swatch; an I3C IMU without a static address is not read (R503, R504). -/
def State.startInit (s : State) : State :=
  let s := { s with links := { s.links with initRunning := true, initNext := 0, initAddressed := [], imuWaiting := [], imuI3c := none,
                                            imuSpi := none } }
  let s := (List.range 4).foldl (fun s n =>
    if s.imuOn n ∧ s.onSpi n = false ∧ s.fld (fld_IMU_PORT_CFG_STATIC_ADDR n) = 0 then
      s.setFlag (fld_IMU_PORT_STATUS_INIT_ERR n) true
    else s) s
  s.settleInit

/-- SETDASA to an I3C IMU, acknowledged or not. -/
def State.addressImu (s : State) (n : Nat) (ack : Bool) : State :=
  let s := { s with links := { s.links with initAddressed := s.links.initAddressed ++ [n] } }
  s.setFlag (if ack then fld_IMU_PORT_STATUS_ADDR_VALID n else fld_IMU_PORT_STATUS_INIT_ERR n) true

/-- An entry is written, acknowledged or not. SPI refuses nothing. -/
def State.writeEntry (s : State) (i : Nat) (ack : Bool) : State :=
  let n := s.initField i 0 1
  let s := { s with links := { s.links with initNext := i + 1, imuWrote := some (n, s.initField i 1 1, s.initField i 2 1) } }
  if ack || s.onSpi n then s else s.setFlag (fld_IMU_PORT_STATUS_INIT_ERR n) true

/-- IMU_INIT_ENTRY (R503, R504): the addresses come first, then the entries in order. -/
def execImuInitEntry (acknowledged : Bool) (s : State) : Host.Outcome State Fault Refusal :=
  if s.links.initRunning = false ∨ s.swatchRuns imuSwatch = false then .next s
  else match s.toAddress with
    | some n => .next (s.addressImu n acknowledged).settleInit
    | none =>
      match s.nextEntry with
      | some i => .next (s.writeEntry i acknowledged).settleInit
      | none => .next s.settleInit

/-- The read running on a bus, and setting it. -/
def State.imuBus (s : State) (spi : Bool) : Option ImuRead := if spi then s.links.imuSpi else s.links.imuI3c
def State.setImuBus (s : State) (spi : Bool) (r : Option ImuRead) : State :=
  { s with links := if spi then { s.links with imuSpi := r } else { s.links with imuI3c := r } }

/-- The order in which a bus serves reads: by stamp, then by lower n (R505). -/
def ImuRead.before (a b : ImuRead) : Bool := decide (a.stamp < b.stamp) || (a.stamp == b.stamp && decide (a.imu < b.imu))

/-- A free bus takes its next read. -/
def State.serveBus (s : State) (spi : Bool) : State :=
  if (s.imuBus spi).isSome then s
  else match (s.links.imuWaiting.filter (fun r => s.onSpi r.imu == spi)).foldl (fun (b : Option ImuRead) r =>
      match b with | some x => if r.before x then some r else b | none => some r) none with
    | some r => { s with links := { s.links with imuWaiting := s.links.imuWaiting.filter (· != r) } }.setImuBus spi (some r)
    | none => s

/-- Note a data-ready edge (R505): skipped while the IMU's read runs; in place of one that waits; else a new read. -/
def State.dataReady (s : State) (n : Nat) (stamp : Stamp) : State :=
  let spi := s.onSpi n
  let running := match s.imuBus spi with | some r => r.imu == n | none => false
  if running then s.addSat (fld_IMU_PORT_ERR_OVERRUN n) 1
  else
    let waits := s.links.imuWaiting.any (fun r => r.imu == n)
    let s := if waits then s.addSat (fld_IMU_PORT_ERR_OVERRUN n) 1 else s
    let l := s.links.imuWaiting.filter (fun r => r.imu != n) ++ [⟨n, stamp⟩]
    { s with links := { s.links with imuWaiting := l } }.serveBus spi

/-- IMU_DRDY_EDGE (R504, R505). -/
def execImuDrdyEdge (imu : Fin 4) (rising : Bool) (tap : Tap) (s : State) : Host.Outcome State Fault Refusal :=
  if s.swatchRuns imuSwatch ∧ s.flag fld_SYS_LOCK_LOCKED = true ∧ s.links.initRunning = false ∧ s.imuReachable imu = true ∧
      rising = !s.flag (fld_IMU_PORT_CFG_DRDY_EDGE imu) then .next (s.dataReady imu (s.tapTime tap))
  else .next s

/-- The 12 bytes as gyro and accelerometer axes, each lowest byte first (R505). -/
def State.sampleBytes (s : State) (n : Nat) (b : List Byte) : List Byte :=
  let axes := (List.range 6).map (fun i =>
    let v := slice b (2 * i) 2
    if s.flag (fld_IMU_PORT_CFG_SWAP n) then v.reverse else v)
  (if s.flag (fld_IMU_PORT_CFG_ORDER n) then axes.drop 3 ++ axes.take 3 else axes).flatten

/-- IMU_READ_DONE (R505): the sample goes to TRACK, or a NACK is counted; the bus takes its next read. -/
def execImuReadDone (spi acknowledged : Bool) (bytes : List Byte) (s : State) : Host.Outcome State Fault Refusal :=
  match s.imuBus spi with
  | none => .next s
  | some r =>
    if s.swatchRuns imuSwatch = false then .next s
    else
      let s := s.setImuBus spi none
      let s := if spi || acknowledged then
          if s.inReset 12 then s
          else { s with track := { s.track with arrived := s.track.arrived ++ [(r.imu, r.stamp, s.sampleBytes r.imu bytes)] } }
        else s.addSat (fld_IMU_PORT_ERR_NACK r.imu) 1
      .next (s.serveBus spi)

end Sys2Proof.Machine
end

