-- ==== Sys2Proof/Machine/Queries.lean ====
section
/-!
DEFINITION. Queries: refusal, admission, the coarse stage, scanning and merging (R456 to R463, R466).
-/
namespace Sys2Proof.Machine

def qDone : Nat := 0
def qDropped : Nat := 1
def qRefused : Nat := 2
def qPartnerReset : Nat := 3
def qAbandoned : Nat := 4

/-! ### Descriptors (Table 13.6) -/

/-- D or B of an index's active epoch. -/
def State.indexDim (s : State) (x : Nat) : Nat := (s.regionHeader x (s.activeRegion x)).d

/-- The bytes of a descriptor before its true IDs. -/
def descLength (x metric d : Nat) : Nat := 0x40 + (if x = 0 then 2 * d else d / 8) + (if x = 0 ∧ metric = 2 then 2 * d else 0)

/-- A descriptor's fields, its vector under a dimension. -/
def readDesc (b : List Byte) (d : Nat) : QueryDesc :=
  let x := field b 4 1
  let metric := field b 5 1
  { id := field b 0 4, index := x, metric := metric, mode := field b 6 1 % 4, nprobe := field b 8 2, k := field b 0x0A 2,
    mask := field b 0x0C 4, value := field b 0x10 4,
    vector := if x = 0 then numbers 2 d (b.drop 0x40) else numbers 1 (d / 8) (b.drop 0x40),
    weights := if x = 0 ∧ metric = 2 then numbers 2 d (b.drop (0x40 + 2 * d)) else [] }

/-- FP16 bits of a finite value; of one not negative. -/
def halfFinite (n : Nat) : Bool := n / 1024 % 32 != 31
def halfNotNegative (n : Nat) : Bool := halfFinite n && (n / 32768 == 0 || n % 32768 == 0)

/-- A field lies outside Table 13.6. -/
def descBad (b : List Byte) (d : Nat) : Bool :=
  let q := readDesc b d
  decide (1 < q.index) || decide ((if q.index = 0 then 2 else 0) < q.metric) || q.mode == 3 || field b 6 1 / 4 != 0 ||
    field b 7 1 != 0 || q.nprobe == 0 || decide (256 < q.nprobe) || q.k == 0 || decide (1024 < q.k) || field b 0x14 4 != 0 ||
    !(slice b 0x24 28).all (· == 0) || decide (b.length < descLength q.index q.metric d) ||
    (q.index == 0 && !(q.vector.all halfFinite && q.weights.all halfNotNegative))

/-! ### Results (Table 13.9) -/

/-- Nearer first, then the lower ID. -/
def nearer (a b : SearchEntry) : Bool := a.dist.lt b.dist || (!b.dist.lt a.dist && decide (a.id < b.id))

/-- The K nearest of a list. -/
def nearestK (k : Nat) (l : List SearchEntry) : List SearchEntry := (sortBy nearer l).take k

/-- A result record. -/
def resultBytes (q : Query) (status cause flags : Nat) (entries : List SearchEntry) : List Byte :=
  let bytes (e : SearchEntry) : List Byte := toLe 8 e.id ++ toLe 4 (toWord32 e.dist) ++ toLe 4 e.tag
  let none_ := toLe 8 (2 ^ 64 - 1) ++ toLe 4 0x7F800000 ++ toLe 4 0
  toLe 4 q.desc.id ++ toLe 1 status ++ toLe 1 cause ++ toLe 2 flags ++ toLe 2 entries.length ++ toLe 2 (min 0xFFFF q.uePages) ++
    toLe 4 q.epoch ++ toLe 4 q.pages ++ toLe 12 0 ++ entries.flatMap bytes ++
    (if status = qDone then (List.replicate (q.desc.k - entries.length) none_).flatten else [])

/-- Set what a query's end leaves with its requester: the place front end collects, the probe counts (R471). -/
def State.deliverQuery (s : State) (q : Query) (status cause flags : Nat) (entries : List SearchEntry) : State :=
  match q.source with
  | .direct => { s with srch := { s.srch with result := resultBytes q status cause flags entries } }
  | .place =>
    match s.srch.place with
    | some p => { s with srch := { s.srch with place := some { p with answers := p.answers ++ [⟨status, flags, q.epoch, entries⟩] } } }
    | none => s
  | .probe truth =>
    if status = qDone then
      let hits := (truth.eraseDups.filter (fun t => entries.any (fun e => e.id == t))).length
      ((s.addWrap fld_SRCH_PROBE_QUERIES_QUERIES_DONE 1).addWrap fld_SRCH_PROBE_EXPECTED_EXPECTED truth.length).addWrap
        fld_SRCH_PROBE_HITS_HITS hits
    else s.addWrap fld_SRCH_PROBE_QUERIES_QUERIES_OTHER 1

/-- A query leaves the front end other than DONE: no entries, but the flags of what it lost and of brown hold (R462, R466, R468). -/
def State.endQuery (s : State) (q : Query) (status cause : Nat) : State :=
  let s := { s with srch := { s.srch with queue := s.srch.queue.filter (fun p => p.number != q.number),
                                          active := s.srch.active.filter (fun p => p.number != q.number) } }
  let x := q.desc.index
  let s := if status = qDropped then s.addSat (fld_IDX_LOSS_DROPPED x) 1
    else if status = qRefused ∧ x ≤ 1 then s.addSat (fld_IDX_LOSS_REFUSED x) 1 else s
  let s := if q.trunc then s.addSat (fld_IDX_FLAGS_TRUNC x) 1 else s
  s.deliverQuery q status cause ((if q.trunc then 4 else 0) + (if q.brown || s.brown then 8 else 0)) []

/-! ### Submission (R456) -/

/-- The order of the admission queue: Class C first, then deadline, then arrival. -/
def queryBefore (a b : Query) : Bool :=
  (a.classC && !b.classC) || (a.classC && b.classC && decide (a.deadline < b.deadline))

/-- A query as it arrives. -/
def State.newQuery (s : State) (source : QuerySource) (classC : Bool) (b : List Byte) : Query × State :=
  let n := s.srch.arrivals
  ({ number := n, desc := readDesc b (s.indexDim (field b 4 1)), source := source, classC := classC,
     deadline := mkStamp (field b 0x18 8) (field b 0x20 4), region := false, epoch := 0, contexts := [], pages := 0,
     uePages := 0, trunc := false, brown := false },
   { s with srch := { s.srch with arrivals := n + 1 } })

/-- Refuse a query or put it into the admission queue; `cause` is a further ground for BAD_QUERY. -/
def State.submitQuery (s : State) (source : QuerySource) (classC bad : Bool) (b : List Byte) : State :=
  let x := field b 4 1
  let (q, s) := s.newQuery source classC b
  if x ≤ 1 ∧ s.indexReady x = false then s.endQuery q qRefused 1
  else if bad || descBad b (s.indexDim x) then s.endQuery q qRefused 2
  else if 4096 ≤ s.srch.queue.length then s.endQuery q qRefused 3
  else if classC ∧ q.deadline ≤ s.stamp then s.endQuery q qDropped 0
  else { s with srch := { s.srch with queue := insertBy queryBefore q s.srch.queue } }

/-- QUERY_SUBMIT (R456). -/
def execQuerySubmit (classC : Bool) (descriptor : List Byte) (s : State) : Host.Outcome State Fault Refusal :=
  if s.swatchRuns 16 ∧ (if classC then s.admitsWork else s.alive) then .next (s.submitQuery .direct classC false descriptor) else .next s

/-! ### The probe's queries (R471) -/

/-- The next entry of the probe set. -/
def State.probeEntry (s : State) (p : ProbeRun) : State :=
  let e := s.memBytes p.obj (16 + p.stride * p.next) p.stride
  let s := (s.checkWords p.obj (16 + p.stride * p.next) p.stride (nandSwatch 0) []).2
  let q := readDesc e (s.indexDim (field e 4 1))
  let truth := numbers 8 p.truth (e.drop (descLength q.index q.metric (s.indexDim q.index)))
  let s := { s with srch := { s.srch with probe := some { p with next := p.next + 1 } } }
  s.submitQuery (.probe truth) false (decide (q.k < p.truth)) e

/-- Submit the probe's entries in order while the queue has room. -/
def State.feedProbe (s : State) : Nat → State
  | 0 => s
  | n + 1 =>
    match s.srch.probe with
    | some p => if p.next < p.count ∧ s.srch.queue.length < 4096 then State.feedProbe (s.probeEntry p) n else s
    | none => s

/-! ### Admission (R457) -/

/-- Contexts not free, and pool entries taken, on a channel. -/
def State.contextsUsed (s : State) (c : Nat) : Nat := (s.srch.active.filter (fun q => q.desc.index == indexOfChannel c)).length
def State.poolTaken (s : State) (c : Nat) : Nat :=
  ((s.srch.active.filter (fun q => q.desc.index == indexOfChannel c)).map (·.desc.k)).sum

/-- The queries admitted with the one at the head: those of a place query together (R464). -/
def State.admissionGroup (s : State) (q : Query) : List Query :=
  match q.source with
  | .place => s.srch.queue.filter (fun p => p.source == .place)
  | _ => [q]

/-- There is room for a group on every channel of its index. -/
def State.groupFits (s : State) (x : Nat) (g : List Query) : Bool :=
  let c := indexFirst x
  decide (s.contextsUsed c + g.length ≤ 2560) && decide (s.poolTaken c + (g.map (·.desc.k)).sum ≤ 262144)

/-- A query once admitted: its contexts wait in COARSE, pinned to the active region (R453). -/
def State.admitted (s : State) (q : Query) : Query :=
  let x := q.desc.index
  { q with region := s.activeRegion x, epoch := s.fld (fld_IDX_EPOCH_EPOCH x), brown := s.brown,
           contexts := (indexChannels x).foldl (fun m c => Store.set none m c (some ⟨.coarse, [], []⟩)) [] }

/-- QUERY_ADMIT (R457): the head of the queue, which holds back those behind it. -/
def execQueryAdmit (s : State) : Host.Outcome State Fault Refusal :=
  match s.srch.queue with
  | [] => .next s
  | q :: _ =>
    let x := q.desc.index
    let g := s.admissionGroup q
    if s.swatchRuns 16 ∧ (if q.classC then s.admitsClassC else s.runsClassD) ∧ s.indexReady x = true ∧ s.groupFits x g = true then
      let rest := s.srch.queue.filter (fun p => !g.any (fun r => r.number == p.number))
      .next ({ s with srch := { s.srch with queue := rest, active := s.srch.active ++ g.map s.admitted } }.feedProbe 4096)
    else .next s

/-! ### Distances (R459) -/

def half (n : Nat) : Fp := fp16.decode n

/-- Σ a × b from +0, each step rounded to FP32 once. -/
def fmaSum (l : List (Fp × Fp)) : Fp := l.foldl (fun acc p => fp32.fma p.1 p.2 acc) Fp.zero

/-- The operand pairs of a sum: query, weight and centroid parts, with the codeword's where there is one. -/
def distPairs (metric : Nat) (q w c : List Nat) (y : Option (List Nat)) : List (Fp × Fp) :=
  let n := q.length
  (List.range n).map (fun d =>
    let e := fp32.sub (half (q.getD d 0)) (half (c.getD d 0))
    let e := match y with | some y => fp32.sub e (half (y.getD d 0)) | none => e
    match metric with
    | 0 => (e, e)
    | 1 => ((half (q.getD d 0)).opp, half (match y with | some y => y.getD d 0 | none => c.getD d 0))
    | _ => (fp32.mul (half (w.getD d 0)) e, e))

/-- The number of differing bits. -/
def popcount (a b : List Nat) : Nat :=
  ((a.zip b).map (fun p => ((List.range 8).filter (fun i => bit (Nat.xor p.1 p.2) i)).length)).sum

/-- The coarse distance to a centroid. -/
def QueryDesc.coarse (q : QueryDesc) (c : List Nat) : Fp :=
  if q.index = 0 then fmaSum (distPairs q.metric q.vector q.weights c none) else Fp.ofRat (popcount q.vector c : Nat)

/-- T_m[j]. -/
def QueryDesc.tableEntry (q : QueryDesc) (c y : List Nat) (m width : Nat) : Fp :=
  let part (l : List Nat) : List Nat := (l.drop (m * width)).take width
  fmaSum (distPairs q.metric (part q.vector) (part q.weights) (part c) (some y))

/-! ### The coarse stage (R458, R466) -/

/-- The centroid of a list as its numbers, and whether one of its words is uncorrectable. -/
def State.centroid (s : State) (x : Nat) (r : Bool) (h : EpochHeader) (l : Nat) : List Nat :=
  let n := h.centroidBytes x
  let b := s.memBytes (s.regionObject x r) (n * l) n
  if x = 0 then numbers 2 h.d b else numbers 1 n b
def State.rangeBad (s : State) (obj off n : Nat) : Bool :=
  (List.range (ceilDiv (off % 32 + n) 32)).any (fun i => Store.get .good s.mem.bad (memKey obj (off / 32 + i)) != .good)

/-- Record the uncorrectable words of a range of the region object. -/
def State.reportRange (s : State) (obj off n : Nat) : State := (s.checkWords obj off n (nandSwatch 0) []).2

/-- The probed lists of a query: list numbers with their coarse distances, nearest first, the lower list among equals. -/
def probedLists (q : QueryDesc) (cents : List (Nat × Option (List Nat))) : List (Nat × Fp) :=
  let l := cents.filterMap (fun e => e.2.map (fun c => (e.1, q.coarse c)))
  (sortBy (fun a b => a.2.lt b.2 || (!b.2.lt a.2 && decide (a.1 < b.1))) l).take q.nprobe

/-- A list's directory entry, or none where it is uncorrectable. -/
def State.listEntry (s : State) (x : Nat) (r : Bool) (h : EpochHeader) (l : Nat) : Option (List Byte) :=
  let obj := s.regionObject x r
  let off := h.dirAt x + 16 * l
  if s.rangeBad obj off 16 then none else some (s.memBytes obj off 16)

/-- The pages of a probed list. -/
def listPages (h : EpochHeader) (l : Nat) (base : Fp) (e : List Byte) : List PendingPage :=
  let count := field e 8 4
  (List.range (field e 4 4)).map (fun i => ⟨l, base, field e 0 4 + i, min h.perPage (count - h.perPage * i)⟩)

/-- A query after its list selection: contexts in SCAN, or HELD where no page lies on their channel. -/
def State.selectLists (s : State) (x : Nat) (r : Bool) (h : EpochHeader) (cents : List (Nat × Option (List Nat))) (q : Query) : Query :=
  let lists := probedLists q.desc cents
  let entries := lists.map (fun e => (e, s.listEntry x r h e.1))
  let pages := entries.flatMap (fun e => match e.2 with | some d => listPages h e.1.1 e.1.2 d | none => [])
  let contexts := (indexChannels x).foldl (fun m c =>
    let mine := pages.filter (fun p => pageChannel x p.page == c)
    Store.set none m c (some ⟨if mine.isEmpty then .held else .scan, mine, []⟩)) []
  { q with contexts := contexts, trunc := q.trunc || cents.any (·.2.isNone) || entries.any (·.2.isNone), brown := q.brown || s.brown }

/-- A query waits for the coarse stage. -/
def Query.waitsCoarse (q : Query) : Bool := q.contexts.any (fun e => match e.2 with | some c => c.state == .coarse | none => false)

/-- The batch of the coarse stage: up to 256 in admission order, pinned to one region, Class C first. -/
def State.coarseBatch (s : State) : List Query :=
  let waiting := s.srch.active.filter Query.waitsCoarse
  let cs := waiting.filter (·.classC)
  let pool := if cs.isEmpty then (if s.runsClassD then waiting else []) else cs
  match pool with
  | [] => []
  | q :: _ => (pool.filter (fun p => p.desc.index == q.desc.index && p.region == q.region)).take 256

/-- COARSE_BATCH_DONE (R458). Uncorrectable words of the quantiser and of probed directory entries are recorded (R326). -/
def execCoarseBatchDone (s : State) : Host.Outcome State Fault Refusal :=
  match s.coarseBatch with
  | [] => .next s
  | q :: rest =>
    if s.swatchRuns 16 = false then .next s
    else
      let x := q.desc.index
      let r := q.region
      let h := s.regionHeader x r
      let obj := s.regionObject x r
      let n := h.centroidBytes x
      let cents := (List.range h.c).map (fun l => (l, if s.rangeBad obj (n * l) n then none else some (s.centroid x r h l)))
      let batch := (q :: rest).map (s.selectLists x r h cents)
      let t := { s with srch := { s.srch with active := s.srch.active.map (fun p => (batch.find? (fun b => b.number == p.number)).getD p) } }
      let t := if s.rangeBad obj 0 (h.quantBytes x) then t.reportRange obj 0 (h.quantBytes x) else t
      let lists := ((q :: rest).flatMap (fun p => (probedLists p.desc cents).map (·.1))).eraseDups
      .next (lists.foldl (fun t l => if s.rangeBad obj (h.dirAt x + 16 * l) 16 then t.reportRange obj (h.dirAt x + 16 * l) 16 else t) t)

/-! ### Scanning (R460, R461) -/

/-- The codewords of a page's table are all correctable, for a query's epoch: the words of the codebooks. -/
def State.booksBad (s : State) (x : Nat) (r : Bool) : Bool := s.srch.badBooks.any (fun e => e.2 && e.1 / 2 ^ 40 == regionKey x r)

/-- Codeword y_mj. -/
def State.codeword (s : State) (x : Nat) (r : Bool) (width m j : Nat) : List Nat :=
  numbers 2 width (Store.getMany 0 s.srch.books (bookKey x r ((256 * m + j) * width * 2)) (2 * width))

/-- A record's distance (R459). -/
def State.recordDistance (s : State) (q : Query) (h : EpochHeader) (cent : List Nat) (base : Fp) (code : List Nat) : Fp :=
  let x := q.desc.index
  if x = 0 then
    let width := h.d / max 1 h.m
    (List.range h.m).foldl (fun acc m =>
      fp32.add acc (q.desc.tableEntry cent (s.codeword x q.region width m (code.getD m 0)) m width))
      (if q.desc.metric = 1 then base else Fp.zero)
  else Fp.ofRat (popcount q.desc.vector code : Nat)

/-- A record passes a query's filter. -/
def QueryDesc.admits (q : QueryDesc) (tag : Nat) : Bool :=
  match q.mode with
  | 0 => true
  | 1 => Nat.land tag q.mask == q.value
  | _ => Nat.land tag q.mask != q.value

/-- The records of a page as a query's entries. -/
def State.pageEntries (s : State) (q : Query) (h : EpochHeader) (p : PendingPage) (b : List Byte) : List SearchEntry :=
  let cent := s.centroid q.desc.index q.region h p.list
  ((pieces h.recordBytes p.records b).filter (fun r => q.desc.admits (field r 8 4))).map (fun r =>
    ⟨field r 0 8, s.recordDistance q h cent p.base (numbers 1 (h.codeBytes q.desc.index) (r.drop 12)), field r 8 4⟩)

/-- A context scans its next page, or skips one that is uncorrectable (R466). -/
def State.scanPage (s : State) (c : Nat) (p : PendingPage) (b : List Byte) (bad : Bool) (q : Query) : Query :=
  match Store.get none q.contexts c with
  | none => q
  | some t =>
    let h := s.regionHeader q.desc.index q.region
    let skip := bad || (q.desc.index == 0 && s.booksBad q.desc.index q.region)
    let kept := if skip then t.kept else nearestK q.desc.k (t.kept ++ s.pageEntries q h p b)
    let rest := t.pending.tail
    { q with contexts := Store.set none q.contexts c (some ⟨if rest.isEmpty then .held else .scan, rest, kept⟩),
             pages := q.pages + (if skip then 0 else 1), uePages := q.uePages + (if skip then 1 else 0),
             trunc := q.trunc || skip, brown := q.brown || s.brown }

/-- The next page of a query's context on a channel. -/
def Query.nextPage (q : Query) (c : Nat) : Option PendingPage :=
  match Store.get none q.contexts c with | some t => t.pending.head? | none => none

/-- A page as its words are delivered: an error that the check takes for another stays in the data (R321). -/
def deliveredPage (b : List Byte) (errors : List (Nat × SymbolErrors)) : List Byte :=
  errors.foldl (fun b e =>
    let word := slice b (32 * e.1) 32
    match selvedgeCheck e.2 with
    | .corrected p v => splice b (32 * e.1) (applySymbols word (e.2 ++ [(p, v)]))
    | .clean => splice b (32 * e.1) (applySymbols word e.2)
    | .uncorrectable _ => b) b

/-- LIST_PAGE_READ (R445, R460): a read of a page that contexts wait for ends, after `retries` read retries; every waiting context
scans it. A page that LDPC cannot decode, or with a word the Selvedge code cannot correct, is skipped. -/
def execListPageRead (channel : Fin 16) (region : Bool) (page retries ns : Nat) (ldpcOk : Bool)
    (errors : List (Nat × SymbolErrors)) (s : State) : Host.Outcome State Fault Refusal :=
  let c := channel.val
  let x := indexOfChannel c
  let wants (q : Query) : Bool := q.desc.index == x && q.region == region &&
    (match q.nextPage c with | some p => p.page == page | none => false)
  if s.swatchRuns (nandSwatch c) = false ∨ !s.srch.active.any (fun q => wants q && (q.classC || s.runsClassD)) then .next s
  else
    let failed := !ldpcOk || decide (s.fld fld_SRCH_CFG_RETRY_MAX < retries)
    let s := (s.addWrap (fld_NCH_PAGES_PAGES c) 1).addBusy (fld_NCH_BUSY_BUSY_US c) ns
    let s := if 0 < retries then s.addSat (fld_NCH_RETRY_RETRIES c) 1 else s
    let ues := errors.filterMap (fun e => match selvedgeCheck e.2 with | .uncorrectable loc => some (e.1, loc) | _ => none)
    let ces := errors.filter (fun e => match selvedgeCheck e.2 with | .corrected _ _ => true | _ => false)
    let s := if failed then s.addSat fld_SELV_LDPC_FAIL 1 else s
    let s := if failed then (List.range 455).foldl (fun s w => s.recordUe mediumNand (nandSwatch c) false false (s.flashAddress x region page w)) s
      else ues.foldl (fun s e => s.recordUe mediumNand (nandSwatch c) false e.2 (s.flashAddress x region page e.1))
        (ces.foldl (fun s _ => s.recordCe mediumNand) s)
    let bad := failed || !ues.isEmpty
    let s := if bad then s.addSat (fld_IDX_EPOCHF_UE_PAGES x) 1 else s
    let b := deliveredPage (s.epochPage x region page) errors
    .next { s with srch := { s.srch with active := s.srch.active.map (fun q =>
      if wants q then (match q.nextPage c with | some p => s.scanPage c p b bad q | none => q) else q) } }

/-! ### Ends (R462, R463) -/

/-- Every context of a query is HELD. -/
def Query.allHeld (q : Query) : Bool := q.contexts.all (fun e => match e.2 with | some c => c.state == .held | none => true)

/-- QUERY_MERGE (R462): the first query whose contexts are all HELD. -/
def State.mergeQuery (s : State) (q : Query) : State :=
  let x := q.desc.index
  let entries := nearestK q.desc.k (q.contexts.flatMap (fun e => match e.2 with | some c => c.kept | none => []))
  let short := decide (entries.length < q.desc.k)
  let epoch := s.fld (fld_IDX_EPOCH_EPOCH x) != q.epoch
  let flags := (if short then 1 else 0) + (if epoch then 2 else 0) + (if q.trunc then 4 else 0) + (if q.brown || s.brown then 8 else 0)
  let s := s.addWrap (fld_IDX_QUERIES_DONE x) 1
  let s := if short then s.addSat (fld_IDX_FLAGS_SHORT x) 1 else s
  let s := if q.trunc then s.addSat (fld_IDX_FLAGS_TRUNC x) 1 else s
  let s := if epoch then s.addSat (fld_IDX_EPOCHF_EPOCH x) 1 else s
  { s with srch := { s.srch with active := s.srch.active.filter (fun p => p.number != q.number) } }.deliverQuery q qDone 0 flags entries

/-- QUERY_MERGE. -/
def execQueryMerge (s : State) : Host.Outcome State Fault Refusal :=
  match s.srch.active.find? Query.allHeld with
  | some q => if s.swatchRuns 16 then .next (s.mergeQuery q) else .next s
  | none => .next s

/-- The Class C query with the earliest deadline, the earlier arrival among equals. -/
def State.earliestQuery (s : State) : Option Query :=
  (s.srch.queue ++ s.srch.active).foldl (fun b q =>
    if q.classC = false then b
    else match b with
      | none => some q
      | some p => if q.deadline < p.deadline ∨ (q.deadline = p.deadline ∧ q.number < p.number) then some q else b) none

/-- QUERY_DEADLINE (R463). -/
def execQueryDeadline (s : State) : Host.Outcome State Fault Refusal :=
  match s.earliestQuery with
  | some q => .next ((s.advanceTo q.deadline).endQuery q qDropped 0)
  | none => .next s

end Sys2Proof.Machine
end

