-- ==== Sys2Proof/Machine/Place.lean ====
section
/-!
DEFINITION. Place queries, the recall probe, and what resets do to search (R464, R465, R467, R471).
-/
namespace Sys2Proof.Machine

/-! ### Place queries (R464) -/

/-- The index of place queries. -/
def State.placeIndex (s : State) : Nat := s.fld fld_SRCH_PLACE_0_INDEX

/-- The records of a keyframe object that carry the descriptor the index needs, in descending SCORE, the earlier among equals. -/
def State.placeRecords (s : State) (obj count : Nat) : List (List Byte) :=
  let flag := if s.placeIndex = 0 then 1 else 0
  let l := (pieces 128 count (s.memBytes obj 0 (128 * count))).filter (fun r => bit (field r 0x0D 1) flag)
  (sortBy (fun a b => decide (field b 8 2 < field a 8 2)) l).take (s.fld fld_SRCH_PLACE_0_QUERIES)

/-- The descriptor of one record's query. -/
def State.placeDesc (s : State) (n : Nat) (deadline : Stamp) (r : List Byte) : List Byte :=
  let x := s.placeIndex
  toLe 4 n ++ toLe 1 x ++ toLe 1 (s.fld fld_SRCH_PLACE_0_METRIC) ++ toLe 1 (s.fld fld_SRCH_PLACE_1_MODE) ++ toLe 1 0 ++
    toLe 2 (s.fld fld_SRCH_PLACE_1_NPROBE) ++ toLe 2 (s.fld fld_SRCH_PLACE_0_K) ++ toLe 4 (s.reg reg_SRCH_PLACE_3).toNat ++
    toLe 4 (s.reg reg_SRCH_PLACE_4).toNat ++ toLe 4 0 ++ tov12 deadline ++ toLe 28 0 ++
    (if x = 0 then slice r 0x30 64 else slice r 0x10 32)

/-- Submit the queries of a place query, or refuse all of them where the queue cannot hold all. -/
def State.formPlace (s : State) (obj count : Nat) (deadline : Stamp) : State :=
  let l := s.placeRecords obj count
  let s := s.noteRead 16 obj
  let s := { s with srch := { s.srch with place := some ⟨l.length, []⟩ } }
  let room := decide (s.srch.queue.length + l.length ≤ 4096)
  (l.zipIdx).foldl (fun s e =>
    let d := s.placeDesc e.2 deadline e.1
    if room then s.submitQuery .place true false d
    else let (q, s) := s.newQuery .place true d; s.endQuery q qRefused 3) s

/-- PLACE_QUERY (R464): the node that has waited longest. -/
def execPlaceQuery (s : State) : Host.Outcome State Fault Refusal :=
  match s.map.places with
  | [] => .next s
  | (obj, count, deadline) :: rest =>
    if s.srch.place.isSome ∨ s.swatchRuns 16 = false ∨ s.admitsClassC = false then .next s
    else .next ((s.setMap { s.map with places := rest }).formPlace obj count deadline)

/-- The distinct IDs of a query's entries within MAX_DIST. -/
def votesOf (limit : Fp) (a : PlaceAnswer) : List Nat := ((a.entries.filter (fun e => e.dist.le limit)).map (·.id)).eraseDups

/-- The candidates with their votes (R465). -/
def candidatesOf (limit : Fp) (least : Nat) (l : List PlaceAnswer) : List (Nat × Nat) :=
  let all := l.flatMap (votesOf limit)
  let counted := all.eraseDups.map (fun id => (id, (all.filter (· == id)).length))
  (sortBy (fun a b => decide (b.2 < a.2) || (a.2 == b.2 && decide (a.1 < b.1))) (counted.filter (fun e => decide (least ≤ e.2)))).take 16

/-- A place result (Table 13.10). -/
def placeRecord (status flags queries epoch : Nat) (cands : List (Nat × Nat)) : List Byte :=
  toLe 1 status ++ toLe 1 flags ++ toLe 1 cands.length ++ toLe 1 0 ++ toLe 2 queries ++ toLe 2 0 ++ toLe 4 epoch ++ toLe 4 0 ++
    slice (cands.flatMap (fun c => toLe 8 c.1 ++ toLe 2 c.2 ++ toLe 6 0)) 0 256

/-- The status of a place query whose queries have ended: 2 EMPTY, 1 DROPPED, 3 FAILED, by the first that ended other than DONE. -/
def placeStatus (p : PlaceQuery) : Nat :=
  if p.formed = 0 then 2
  else match p.answers.find? (fun a => a.status != qDone) with
    | none => 0
    | some a => if a.status = qDropped then 1 else 3

/-- Votes are counted and the result goes to the map task (R465, R428). -/
def State.countVotes (s : State) (p : PlaceQuery) : State :=
  let st := placeStatus p
  let cands : List (Nat × Nat) := if st = 0 then candidatesOf (ofWord32 (s.reg reg_SRCH_PLACE_2).toNat) (s.fld fld_SRCH_PLACE_1_MIN_VOTES) p.answers else []
  let flags := p.answers.foldl (fun f a => Nat.lor f (a.flags % 16)) 0
  let epoch := match p.answers.head? with | some a => a.epoch | none => 0
  let s := s.addSat (if st = 0 then fld_SRCH_PLACE_COUNT_DONE else fld_SRCH_PLACE_COUNT_NOT_DONE) 1
  { s with srch := { s.srch with place := none, placeResult := placeRecord st flags p.formed epoch cands } }.takePlaceResult (cands.map (fun c : Nat × Nat => c.1))

/-- PLACE_VOTE (R465). -/
def execPlaceVote (s : State) : Host.Outcome State Fault Refusal :=
  match s.srch.place with
  | some p => if p.formed ≤ p.answers.length ∧ s.swatchRuns 16 then .next (s.countVotes p) else .next s
  | none => .next s

/-! ### The recall probe (R471) -/

/-- The probe set's header, where it is well formed and its object holds it. -/
def State.probeSet (s : State) : Option ProbeRun :=
  let obj := (s.reg reg_SRCH_PROBE_CFG).toNat
  match s.object obj with
  | none => none
  | some o =>
    let h := s.memBytes obj 0 16
    let p : ProbeRun := ⟨obj, field h 4 4, field h 8 2, field h 0x0A 2, 0⟩
    if s.canAccess obj 0 16 ∧ field h 0 4 = 0x42525053 ∧ 1 ≤ p.count ∧ p.count ≤ 65535 ∧ 1 ≤ p.truth ∧ p.truth ≤ 1024 ∧
        p.stride % 16 = 0 ∧ 0 < p.stride ∧ field h 0x0C 4 = 0 ∧ 16 + p.count * p.stride ≤ o.size then some p
    else none

/-- A START of the probe: the counters clear and the set is submitted, or ERR is set. -/
def State.startProbe (s : State) : State :=
  match s.probeSet with
  | none => s.setFlag fld_SRCH_PROBE_STATUS_ERR true
  | some p =>
    let s := ((s.setReg reg_SRCH_PROBE_HITS 0).setReg reg_SRCH_PROBE_EXPECTED 0).setReg reg_SRCH_PROBE_QUERIES 0
    let s := (s.setFlag fld_SRCH_PROBE_STATUS_ERR false).setFlag fld_SRCH_PROBE_STATUS_BUSY true
    { s with srch := { s.srch with probe := some p } }.feedProbe p.count

/-- SRCH_PROBE_START (R471). -/
def execSrchProbeStart (data : Word) (s : State) : Host.Outcome State Fault Refusal :=
  match s.writeTaken reg_SRCH_PROBE_CTRL data with
  | some d => if d.getLsbD 0 ∧ s.srch.probe.isNone then .next s.startProbe else .next s
  | none => .next s

/-- The probe still has a query under way. -/
def State.probeBusy (s : State) : Bool :=
  (s.srch.queue ++ s.srch.active).any (fun q => match q.source with | .probe _ => true | _ => false)

/-- PROBE_DONE (R471): entries not yet submitted go first, where the queue has room again. -/
def execProbeDone (s : State) : Host.Outcome State Fault Refusal :=
  match s.srch.probe with
  | some p =>
    if s.swatchRuns 16 = false then .next s
    else if p.next < p.count ∧ s.srch.queue.length < 4096 then .next (s.feedProbe 4096)
    else if p.next < p.count ∨ s.probeBusy then .next s
    else
      let s := (s.setFlag fld_SRCH_PROBE_STATUS_BUSY false).setFlag fld_SRCH_PROBE_STATUS_DONE true
      .next ({ s with srch := { s.srch with probe := none } }.raiseIbi ibiProbe)
  | none => .next s

/-! ### Resets and bind-off (R467) -/

/-- End a list of queries. -/
def State.endQueries (s : State) (l : List Query) (status : Nat) : State := l.foldl (fun s q => s.endQuery q status 0) s

/-- An import into an index that uses a channel. -/
def State.importUses (s : State) (x : Nat) : Bool := match s.srch.importing with | some i => i.index == x | none => false

/-- A swatch reset of NAND_CH_n (R467). -/
def State.resetNand (s : State) (c : Nat) : State :=
  let x := indexOfChannel c
  if c = 0 then
    let s := s.endQueries (s.srch.queue ++ s.srch.active) qPartnerReset
    let s := s.stopImport impAbandoned
    let s := (s.setFlag (fld_IDX_STATUS_READY 0) false).setFlag (fld_IDX_STATUS_READY 1) false
    { s with srch := { s.srch with probe := none } }
  else
    let s := s.endQueries (s.srch.active.filter (fun q => q.desc.index == x)) qPartnerReset
    let s := if s.importUses x then s.stopImport impAbandoned else s
    s.setFlag (fld_IDX_STATUS_READY x) false

/-- A reset of the map task's swatch: its queries end as though dropped, and nothing is delivered. -/
def State.resetPlace (s : State) : State :=
  let s := { s with srch := { s.srch with place := none } }
  s.endQueries ((s.srch.queue ++ s.srch.active).filter (fun q => q.source == .place)) qDropped

/-- Bind-off: every query and any import ends ABANDONED. -/
def State.abandonSearch (s : State) : State :=
  (s.endQueries (s.srch.queue ++ s.srch.active) qAbandoned).stopImport impAbandoned

end Sys2Proof.Machine
end

