-- ==== Sys2Proof/Machine/Engines.lean ====
section
/-!
DEFINITION. The vision engines at work: the start of nodes (R218, R220) and the units of WARP, PYRAMID, CORNER and TRACK_LK
(R225 to R230, R235).
-/
namespace Sys2Proof.Machine

/-! ### A node's buffers -/

/-- The buffer entry of an input and of an output. -/
def State.inEntry (s : State) (d : NodeDesc) (i : Nat) : BufEntry := s.bufEntry (d.inBuf i)
def State.outEntry (s : State) (d : NodeDesc) (i : Nat) : BufEntry := s.bufEntry (d.outBuf i)

/-- The copy that an input reads and the copy that an output fills; 0 where there is none. -/
def NodeRun.inCopy (r : NodeRun) (i : Nat) : Nat := match (r.inputs[i]?).join with | some v => v.copy | none => 0
def NodeRun.outCopy (r : NodeRun) (i : Nat) : Nat := match (r.outputs[i]?).join with | some v => v.1 | none => 0

/-- The 8-bit image of an input on an absolute plane, or of an IMAGE. -/
def State.inGray (s : State) (d : NodeDesc) (r : NodeRun) (i plane : Nat) : Gray :=
  let e := s.inEntry d i
  s.bufGray e (r.inCopy i) (plane - e.firstPlane)

/-- Lines of an input's first plane from which `lines` lines of a plane `up` above it all derive (R251). -/
def firstPlaneLines (hFirst up lines : Nat) : Nat := if up = 0 then lines else min hFirst (2 ^ up * (lines + 2))

/-! ### The jobs of a node -/

/-- The WARP job of a node (Table 6.7, Table 6.8). -/
def State.warpJob (s : State) (d : NodeDesc) (r : NodeRun) : WarpJob :=
  let src := s.inEntry d 0
  let dst := s.bufGray (s.outEntry d 0) (r.outCopy 0) 0
  { stream := src.stream, set := r.inCopy 0, cfa := d.param 1 1, map := (s.inEntry d 1).copyBase 0,
    tone := (s.inEntry d 2).copyBase 0, grid := d.param 0 1, fill := d.param 2 1, width := dst.width, height := dst.height }

/-- A PYRAMID node's source image and, for each plane it fills, the stream, set and plane. -/
def State.pyramidSource (s : State) (d : NodeDesc) (r : NodeRun) : Gray :=
  let e := s.inEntry d 0
  s.bufGray e (r.inCopy 0) (if e.kind = kindPlaneView then e.planeCount - 1 else 0)
def State.pyramidPlanes (s : State) (d : NodeDesc) (r : NodeRun) : List (Nat × Nat × Nat) :=
  let e := s.outEntry d 0
  (List.range e.planeCount).map (fun k => (e.stream, r.outCopy 0, e.firstPlane + k))

/-- Lines of the next plane that can be written when `n` of `h` lines of a plane are. -/
def nextPlaneLines (n h hNext : Nat) : Nat := if h ≤ n then hNext else min hNext ((n - 1) / 2)

/-- Lines of each output plane written when `n` lines of the first are. -/
def planeProgress (n : Nat) : List Nat → List Nat
  | [] => []
  | [_] => [n]
  | h :: h2 :: r => n :: planeProgress (nextPlaneLines n h h2) (h2 :: r)

/-- Lines of the later planes that derive from the first p lines (R218). -/
def planeDerived (p : Nat) : List Nat → List Nat
  | [] => []
  | [_] => [p]
  | _ :: h2 :: r => p :: planeDerived (if p = 0 then 0 else min h2 ((p + 1) / 2 + 1)) (h2 :: r)

/-- The lines of the first plane that may be advanced when n of them are written (R218). -/
def advancedLines (n : Nat) (heights : List Nat) : Nat :=
  let done := planeProgress n heights
  ((List.range (n + 1)).filter (fun p => ((planeDerived p heights).zip done).all (fun x => decide (x.1 ≤ x.2)))).foldl max 0

/-- The height that a streaming node's bands count: output lines, for CORNER lines of the plane searched. -/
def State.bandHeight (s : State) (d : NodeDesc) (r : NodeRun) : Nat :=
  if d.type = nodeWarp then (s.warpJob d r).height
  else if d.type = nodePyramid then
    match s.pyramidPlanes d r with
    | (n, set, l) :: _ => (s.planeGray n set l).height
    | [] => 0
  else (s.inGray d r 0 (d.param 0 1)).height

/-- The lines to which a band that starts at line n extends. -/
def bandEnd (n height : Nat) : Nat := min (n + 16) height

/-- The p of the ACQUIRE for the band that starts at line n: the last input line it reads, plus one, in lines of the input's
first plane (R218). -/
def State.bandNeeds (s : State) (d : NodeDesc) (r : NodeRun) (n : Nat) : Nat :=
  let last := bandEnd n (s.bandHeight d r)
  if d.type = nodeWarp then
    let j := s.warpJob d r
    (List.range (last - n)).foldl (fun m i => max m (s.warpNeeds j (n + i))) 0
  else
    let e := s.inEntry d 0
    let up := if e.kind = kindPlaneView then (if d.type = nodePyramid then e.planeCount - 1 else d.param 0 1 - e.firstPlane) else 0
    let h := if d.type = nodePyramid then (s.pyramidSource d r).height else (s.inGray d r 0 (d.param 0 1)).height
    let lines := if d.type = nodePyramid then min h (2 * (last - 1) + 3) else min h (last + 4)
    firstPlaneLines (s.bufLines e) up lines

/-- An input record or a map out of range (Table 6.9, ENGINE_ERR): a map or tone table shorter than the job needs, or a point
list that claims more records than either list holds. -/
def State.engineError (s : State) (d : NodeDesc) (r : NodeRun) : Bool :=
  if d.type = nodeWarp then
    decide ((s.inEntry d 1).capacity < 8 * (s.warpJob d r).mapEntries) || decide ((s.inEntry d 2).capacity < 4096)
  else if d.type = nodeTrack then
    let e := s.inEntry d 2
    let n := s.bufCount e (r.inCopy 2)
    decide (e.capacity < n) || decide ((s.outEntry d 0).capacity < n)
  else false

/-! ### Start -/

/-- Ask for the lines of a streaming node's next band (R218). -/
def State.askBand (s : State) (g n : Nat) : State :=
  match s.node? g n with
  | some r => s.askLines g n 0 (s.bandNeeds (s.nodeDesc g n) r r.lines)
  | none => s

/-- Lines of an SGM input's first plane that pass `pass` of the strip from line `y` needs (R251). -/
def State.sgmNeeds (s : State) (d : NodeDesc) (i y pass : Nat) : Nat :=
  let e := s.inEntry d i
  let up := if e.kind = kindPlaneView then d.param 0 1 - e.firstPlane else 0
  let hFirst := s.bufLines e
  let h := if e.kind = kindPlaneView then s.planeHeight e.stream (d.param 0 1) else e.height
  let hw := if d.param 1 1 = 0 then 2 else 3
  let l := min h (y + d.param 0x10 2 + (if pass = 1 then d.param 0x12 2 else 0) + hw)
  firstPlaneLines hFirst up l

/-- Ask for both inputs of a streaming SGM node before its next pass (R251). -/
def State.askPass (s : State) (g n : Nat) : State :=
  match s.node? g n with
  | some r =>
    let d := s.nodeDesc g n
    [0, 1].foldl (fun s i => s.askLines g n i (s.sgmNeeds d i r.lines r.pass)) s
  | none => s

/-- What a node asks for as it starts. -/
def State.askFirst (s : State) (g n : Nat) : State :=
  let d := s.nodeDesc g n
  if d.streaming then (if d.type = nodeSgm then s.askPass g n else s.askBand g n) else s

/-- Start a node on an engine: it claims its outputs (R218). -/
def State.startNode (s : State) (e g n : Nat) : State :=
  let s := s.updNode g n (fun r => { r with phase := .running, engine := some e, start := s.stamp, brown := s.brown })
  let s := s.claimOutputs g n
  match s.node? g n with
  | some r => if r.verdict.isSome then s else s.askFirst g n
  | none => s

/-- NODE_START (R218, R220): the first node of the engine's queue that may start does. -/
def execNodeStart (engine : Fin 10) (s : State) : Host.Outcome State Fault Refusal :=
  if s.swatchRuns (engineSwatch engine) && s.swatchRuns 8 then
    match s.nextStart engine with
    | some (g, n) => .next (s.startNode engine g n)
    | none => .next s
  else .next s

/-! ### Units -/

/-- Write lines of an image. -/
def State.writeLines (s : State) (g : Gray) (first last : Nat) (line : Nat → List Byte) : State :=
  (List.range (last - first)).foldl (fun s i => s.setFrameBytes (g.base + (first + i) * g.stride) (line (first + i))) s

/-- Write the lines of each output plane that become complete when the first plane goes from line a to line b. -/
def State.pyramidPlanesTo (s : State) (src : Gray) (progress : List ((Nat × Nat × Nat) × Nat × Nat)) : State :=
  match progress with
  | [] => s
  | ((n, set, l), a, b) :: r =>
    let s := (List.range (b - a)).foldl (fun s i => s.buildLine n set l src (a + i)) s
    State.pyramidPlanesTo s (s.planeGray n set l) r

/-- Do the lines from a to b of a node's bands: WARP and PYRAMID write them, CORNER detects. -/
def State.doBand (s : State) (d : NodeDesc) (r : NodeRun) (a b : Nat) : State :=
  if d.type = nodeWarp then
    let j := s.warpJob d r
    s.writeLines (s.bufGray (s.outEntry d 0) (r.outCopy 0) 0) a b (fun y => s.warpLine j y)
  else if d.type = nodePyramid then
    let planes := s.pyramidPlanes d r
    let h := planes.map (fun p => (s.planeGray p.1 p.2.1 p.2.2).height)
    s.pyramidPlanesTo (s.pyramidSource d r) (planes.zip ((planeProgress a h).zip (planeProgress b h)))
  else s

/-- The lines that ADVANCE reports when b lines are written. -/
def State.bandAdvance (s : State) (d : NodeDesc) (r : NodeRun) (b : Nat) : Nat :=
  if d.type = nodePyramid then
    advancedLines b ((s.pyramidPlanes d r).map (fun p => (s.planeGray p.1 p.2.1 p.2.2).height))
  else b

/-- Keypoint records, one after another. -/
def State.keypoints (s : State) (g : Gray) (t log plane desc : Nat) : List Corner → List Byte × State
  | [] => ([], s)
  | c :: r =>
    let (a, s) := s.keypointRecord g t log plane desc c
    let (l, s) := State.keypoints s g t log plane desc r
    (a ++ l, s)

/-- Write a list's records after its buffer record. -/
def State.writeRecords (s : State) (d : NodeDesc) (r : NodeRun) (records : List Byte) : State :=
  s.setFrameBytes ((s.outEntry d 0).copyBase (r.outCopy 0) + 64) records

/-- CORNER's list: its records, their number, and whether it was cut (R227). -/
def State.runCorner (s : State) (g n : Nat) (d : NodeDesc) (r : NodeRun) : State :=
  let gray := s.inGray d r 0 (d.param 0 1)
  let (kept, cut) := s.keptCorners gray (d.param 1 1) (d.param 8 2) (d.param 2 1) (d.param 3 1) (d.param 4 2)
  let (bytes, s) := s.keypoints gray (d.param 1 1) (d.param 2 1) (d.param 0 1) (d.param 6 1) kept
  (s.writeRecords d r bytes).updNode g n (fun r => { r with count := kept.length, trunc := r.trunc || cut })

/-- The search of a TRACK_LK node (Tables 6.7 and 6.8): its levels are the planes of both views, the first one first. -/
def State.lkJob (s : State) (d : NodeDesc) (r : NodeRun) : LkJob :=
  let planes (i : Nat) := (List.range (d.param 1 1)).map (fun l => s.bufGray (s.inEntry d i) (r.inCopy i) l)
  { earlier := planes 0, later := planes 1, first := (s.inEntry d 0).firstPlane, half := halfWindow (d.param 0 1),
    maxIter := d.param 2 1, eps := d.param 3 1, minEig := d.param 0x0A 2 }

/-- TRACK_LK's list (R229). -/
def State.runTrack (s : State) (g n : Nat) (d : NodeDesc) (r : NodeRun) : State :=
  let e := s.inEntry d 2
  let k := s.bufCount e (r.inCopy 2)
  let points := (List.range k).map (s.listRecord e (r.inCopy 2))
  let (bytes, s) := s.trackRecords (s.lkJob d r) (d.param 1 1) (d.param 4 2) (bit (d.param 6 1) 0) (d.param 8 2) points
  (s.writeRecords d r bytes).updNode g n (fun r => { r with count := k })

/-- A node's work is done: its outputs are published and the engine counts it (R235). -/
def State.finishNode (s : State) (e g n count : Nat) : State :=
  let s := (s.checkInputs g n (engineSwatch e)).publishOutput g n 0 count
  (s.updNode g n (fun r => { r with done := true })).addWrap (fld_ENG_JOBS_JOBS e) 1

/-- The whole of a node that does not stream. -/
def State.runWhole (s : State) (e g n : Nat) (d : NodeDesc) (r : NodeRun) : State :=
  if d.type = nodeCorner then
    let s := s.runCorner g n d r
    s.finishNode e g n (match s.node? g n with | some r => r.count | none => 0)
  else if d.type = nodeTrack then
    let s := s.runTrack g n d r
    s.finishNode e g n (match s.node? g n with | some r => r.count | none => 0)
  else
    let h := s.bandHeight d r
    (s.doBand d r 0 h).finishNode e g n h

/-- A band of a streaming node, with ADVANCE after it and PUBLISH after the last (R218). -/
def State.runBand (s : State) (e g n : Nat) (d : NodeDesc) (r : NodeRun) : State :=
  let h := s.bandHeight d r
  let b := bandEnd r.lines h
  let s := s.doBand d r r.lines b
  let s := s.updNode g n (fun r => { r with lines := b })
  if d.type = nodeCorner then (if h ≤ b then s.runWhole e g n d { r with lines := b } else s.askBand g n)
  else
    let s := match (r.outputs[0]?).join with
      | some (_, m, _) => s.orProto m (nodeAgent g n) (s.advanceOp m (nodeAgent g n) (s.bandAdvance d r b))
      | none => s
    if h ≤ b then s.finishNode e g n h else s.askBand g n

/-- Whether a running node has a unit to do now (R220). -/
def State.unitReady (s : State) (x : Stamp × Nat × Nat × NodeRun) : Bool :=
  let r := x.2.2.2
  r.verdict.isNone && !r.done &&
    (!(s.nodeDesc x.2.1 x.2.2.1).streaming || (match (r.inputs[0]?).join with | some v => v.ready | none => true))

/-- The unit that an engine takes next (R220). -/
def State.nextUnit (s : State) (e : Nat) : Option (Nat × Nat) :=
  ((sortBy queueBefore ((s.runningOn e).filter s.unitReady)).head?).map (fun x => (x.2.1, x.2.2.1))

/-- Do one unit of a node. -/
def State.runUnit (s : State) (e g n : Nat) : State :=
  let s := s.updNode g n (fun r => { r with brown := r.brown || s.brown })
  match s.node? g n with
  | none => s
  | some r =>
    let d := s.nodeDesc g n
    if s.engineError d r then s.updNode g n (fun r => r.fail codeEngineErr)
    else if d.streaming then s.runBand e g n d r else s.runWhole e g n d r

/-- ENGINE_UNIT_DONE (R220): the engine's earliest ready unit is done. -/
def execEngineUnitDone (engine : Fin 8) (ns : Nat) (s : State) : Host.Outcome State Fault Refusal :=
  if s.swatchRuns (engineSwatch engine) && s.swatchRuns 8 then
    match s.nextUnit engine with
    | some (g, n) => .next ((s.addBusy (fld_ENG_BUSY_BUSY_US engine) ns).runUnit engine g n)
    | none => .next s
  else .next s

end Sys2Proof.Machine
end

