-- ==== Sys2Proof/Machine/Neural.lean ====
section
/-!
DEFINITION. Neural requests (R275 to R291): admission, start, weight chunks, steps and end.
-/
namespace Sys2Proof.Machine

/-! ### Bindings -/

/-- The tensor view of a buffer's copy (R260). A view of several planes binds the plane of the tensor's size. -/
def State.boundView (s : State) (t : TensorDesc) (b copy : Nat) : TensorView :=
  let e := s.bufEntry b
  if e.kind = kindList then ⟨t, .frame, e.copyBase copy + 64, 0, 16 * e.format, 0⟩
  else
    let planes := (List.range (max 1 e.planeCount)).map (s.bufGray e copy)
    let g := (planes.find? (fun g => g.width == t.w && g.height == t.h)).getD (s.bufGray e copy 0)
    ⟨t, .frame, g.base, g.stride, elemBits t.format / 8, 0⟩

/-- A tensor of a request, its group's first core `base` (R259, R260, R275). -/
def State.tensorView (s : State) (d : NodeDesc) (r : NodeRun) (p base t : Nat) : TensorView :=
  let x := s.tensor p t
  let pos := x.blocks * blockSize x.format
  match x.place with
  | 0 => s.boundView x (d.inBuf x.slot) (r.inCopy x.slot)
  | 1 => s.boundView x (d.outBuf x.slot) (r.outCopy x.slot)
  | 2 => ⟨x, .sram, base * 2 ^ 21 + x.offset, x.pitch, pos, base * 2 ^ 21 + x.scaleOffset⟩
  | _ => ⟨x, .dram (s.progArena p), x.offset, x.pitch, pos, x.scaleOffset⟩

/-- What step k of a request reads and writes. -/
def State.stepCtx (s : State) (d : NodeDesc) (r : NodeRun) (p base k : Nat) : StepCtx :=
  let x := s.progStep p k
  { program := p, desc := x, a := s.tensorView d r p base x.inA, b := s.tensorView d r p base x.inB,
    out := s.tensorView d r p base x.out }

/-! ### The fabric's requests -/

/-- A request that runs for a node. -/
def State.neuralRun (s : State) (g n : Nat) : Option NeuralRun :=
  s.neural.running.find? (fun r => r.graph == g && r.node == n)

/-- Change the running request of a node. -/
def State.updRun (s : State) (g n : Nat) (f : NeuralRun → NeuralRun) : State :=
  { s with neural := { s.neural with
      running := s.neural.running.map (fun r => if r.graph == g && r.node == n then f r else r) } }

/-- A request is queued or runs for a node. -/
def State.hasRequest (s : State) (g n : Nat) : Bool :=
  (s.neuralRun g n).isSome || s.neural.queue.any (fun q => q.graph == g && q.node == n)

/-- The order of the queue (R288). -/
def requestBefore (a b : NeuralRequest) : Bool :=
  decide (a.deadline < b.deadline) ||
    (a.deadline == b.deadline && (decide (a.graph < b.graph) || (a.graph == b.graph && decide (a.node < b.node))))

/-- Refuse a request (R288, R298). -/
def State.refuseRequest (s : State) (g n p cause : Nat) : State :=
  let s := s.addSat fld_NE_REQ_LOSS_REFUSED 1
  let s := (s.setFld fld_NE_REFUSE_LAST_CAUSE cause).setFld fld_NE_REFUSE_LAST_PROGRAM p
  let s := (s.setFld fld_NE_REFUSE_LAST_GRAPH g).setFld fld_NE_REFUSE_LAST_NODE n
  s.updNode g n (fun r => r.fail codeNeuralRefused)

/-- Whether an object of a program has another home tier than LPDDR5X. -/
def State.elsewhere (s : State) (p : Nat) : Bool :=
  (s.progObjects p).any (fun o => match s.object o with | some x => x.home != tierDram | none => true)

/-- Admit a request: its pins are taken, it joins the queue, and the dispatcher walks (R287 to R289). -/
def State.admitRequest (s : State) (g n p : Nat) (deadline : Stamp) : State :=
  let s := s.pinProgram p
  let q : NeuralRequest := ⟨g, n, p, s.progCores p, deadline⟩
  { s with neural := { s.neural with queue := insertBy requestBefore q s.neural.queue } }.dispatch

/-- NEURAL_REQUEST_ARRIVE (R224, R288). -/
def execNeuralRequestArrive (graph : Fin 8) (node : Fin 64) (s : State) : Host.Outcome State Fault Refusal :=
  let d := s.nodeDesc graph node
  match (s.graph graph).act, s.node? graph node with
  | some a, some r =>
    if d.type = nodeNeural ∧ r.phase = .queued ∧ r.verdict.isNone = true ∧ s.hasRequest graph node = false ∧
        s.swatchRuns 8 = true then
      let p := d.param 0 2
      if 64 ≤ s.neural.queue.length then .next (s.refuseRequest graph node p 1)
      else if s.elsewhere p then .next (s.refuseRequest graph node p 2)
      else .next (s.admitRequest graph node p a.deadline)
    else .next s
  | _, _ => .next s

/-- Start a dispatched request: inputs acquired, outputs claimed (R290). -/
def State.startRequest (s : State) (g n : Nat) : State :=
  let s := s.updRun g n (fun r => { r with started := true, since := s.stamp })
  let s := s.updNode g n (fun r => { r with phase := .running, start := s.stamp, brown := s.brown })
  let s := (List.range 4).foldl (fun s i => s.askInput g n i) s
  s.claimOutputs g n

/-- NEURAL_REQUEST_START (R290). -/
def execNeuralRequestStart (graph : Fin 8) (node : Fin 64) (s : State) : Host.Outcome State Fault Refusal :=
  match s.neuralRun graph node with
  | some r => if r.started = false ∧ s.swatchRuns 8 = true then .next (s.startRequest graph node) else .next s
  | none => .next s

/-- Give a request's node a code to end with, and count it in the cores that serve it (R295). -/
def State.failRequest (s : State) (q : NeuralRun) (code : Nat) : State :=
  match s.node? q.graph q.node with
  | some r =>
    match r.verdict with
    | some _ => s
    | none =>
      let s := s.updNode q.graph q.node (fun r => r.fail code)
      (groupCores q.base q.cores).foldl (fun s c =>
        if code = codePartnerReset then s.addSat (fld_NE_CORE_ERR_PARTNER_RESET c) 1
        else s.addSat (fld_NE_CORE_ERR_ENGINE_ERR c) 1) s
  | none => s

/-! ### Weight chunks -/

/-- Work items of a step that core g of G takes (R280, R281). -/
def StepCtx.coreWork (x : StepCtx) (g cores : Nat) : List Nat :=
  let per := max 1 (ceilDiv x.work cores)
  (List.range (min x.work ((g + 1) * per) - g * per)).map (· + g * per)

/-- The chunk that a work item uses: that of its channel group, or of its 512 channels (R283). -/
def StepCtx.chunkOf (x : StepCtx) (k : Nat) : Nat :=
  if x.desc.op = opConv then k / max 1 (ceilDiv (x.out.desc.h * x.out.desc.w) (passPositions x.desc.split))
  else k % x.out.desc.blocks / 16

/-- Runs of work items with one chunk each: consecutive repeats are taken once (R285). -/
def StepCtx.coreRuns (x : StepCtx) (g cores : Nat) : List (Nat × List Nat) :=
  if x.desc.hasChunks then
    ((x.coreWork g cores).foldl (fun (l : List (Nat × List Nat)) k =>
      match l with
      | (j, ks) :: r => if x.chunkOf k = j then (j, ks ++ [k]) :: r else (x.chunkOf k, [k]) :: l
      | [] => [(x.chunkOf k, [k])]) []).reverse
  else []

/-- The outputs of a work item, by position and channel. -/
def StepCtx.itemOutputs (x : StepCtx) (k : Nat) : List (Nat × Nat) :=
  let m := x.out.desc.h * x.out.desc.w
  if x.desc.op = opConv then
    let groups := max 1 (ceilDiv m (passPositions x.desc.split))
    let p := passPositions x.desc.split
    let n := passChannels x.desc.split
    (List.range p).flatMap (fun i => (List.range n).filterMap (fun c =>
      let pos := k % groups * p + i
      let ch := k / groups * n + c
      if pos < m ∧ ch < x.out.desc.c then some (pos, ch) else none))
  else
    (List.range 32).filterMap (fun c =>
      let ch := k % x.out.desc.blocks * 32 + c
      if ch < x.out.desc.c then some (k / x.out.desc.blocks, ch) else none)

/-- The chunks of a step that core g of G uses, in pass order. -/
def StepCtx.coreChunks (x : StepCtx) (g cores : Nat) : List Nat := (x.coreRuns g cores).map (·.1)

/-- The chunk list of core g of a request, as steps with chunks (R285). -/
def State.chunkList (s : State) (q : NeuralRun) (d : NodeDesc) (r : NodeRun) (g : Nat) : List (Nat × Nat) :=
  (List.range (s.progSteps q.program)).flatMap (fun k =>
    ((s.stepCtx d r q.program q.base k).coreChunks g q.cores).map (fun j => (k, j)))

/-- The half of a core's weight window that entry n of its list is loaded into (R285). -/
def halfOf (core n : Nat) : Nat := 2 * core + n % 2

/-- The passes of entry n of core g's list, of the present step, form their outputs from the half that holds its chunk. -/
def State.runPasses (s : State) (q : NeuralRun) (x : StepCtx) (g n : Nat) (ks : List Nat) : State :=
  let chunk := Store.get [] s.neural.halves (halfOf (q.base + g) n)
  let outs := ks.flatMap x.itemOutputs
  let values := outs.map (fun o =>
    (o.1 * x.out.desc.c + o.2, BitVec.ofNat 32 (toWord32 (s.stepValue x chunk (o.1 / x.out.desc.w) (o.1 % x.out.desc.w) o.2))))
  s.updRun q.graph q.node (fun q => { q with values := values.foldl (fun m e => Store.set 0 m e.1 e.2) q.values, ended := Store.set 0 q.ended g (n + 1) })

/-- Entries of core g's list that belong to steps before the present one. -/
def State.entriesBefore (s : State) (q : NeuralRun) (d : NodeDesc) (r : NodeRun) (g : Nat) : Nat :=
  ((List.range q.step).map (fun k => ((s.stepCtx d r q.program q.base k).coreRuns g q.cores).length)).foldl (· + ·) 0

/-- Passes of core g whose chunk is the present step's and which have not ended, as far as entry `last` of the list. -/
def State.passesDue (s : State) (q : NeuralRun) (d : NodeDesc) (r : NodeRun) (g last : Nat) : List (Nat × List Nat) :=
  let first := s.entriesBefore q d r g
  (((s.stepCtx d r q.program q.base q.step).coreRuns g q.cores).zipIdx.map (fun e => (first + e.2, e.1.2))).filter (fun e =>
    decide (Store.get 0 q.ended g ≤ e.1) && decide (e.1 ≤ last))

/-- Those passes end. -/
def State.endPasses (s : State) (q : NeuralRun) (d : NodeDesc) (r : NodeRun) (g last : Nat) : State :=
  let x := s.stepCtx d r q.program q.base q.step
  (s.passesDue q d r g last).foldl (fun s e => s.runPasses q x g e.1 e.2) s

/-- Every input of a node is acquired. -/
def NodeRun.inputsReady (r : NodeRun) : Bool :=
  r.inputs.all (fun i => match i with | some v => v.ready && !v.awaits | none => true)

/-- Whether the half of chunk k is free (R285). -/
def chunkFree (l : List (Nat × Nat)) (q : NeuralRun) (r : NodeRun) (k : Nat) : Bool :=
  decide (k < 2) ||
    (match l[k - 2]? with
    | some c => decide (c.1 < q.step) || (c.1 == q.step && r.inputsReady)
    | none => false)

/-- A wait for a budget grant that ends now counts as far as no other engine's wait has covered it (R298). -/
def State.countStall (s : State) (ns : Nat) : State :=
  let open_ := match s.neural.stallEnd with | some t => min ns ((s.stamp - t) / 2 ^ 16) | none => ns
  let s := s.addBusy fld_NE_WS_STALL_STALL_US open_
  if ns = 0 then s else { s with neural := { s.neural with stallEnd := some s.stamp } }

/-- Chunk k of core g's list is loaded into its half, whose passes have ended by then (R285). -/
def State.takeChunk (s : State) (q : NeuralRun) (d : NodeDesc) (r : NodeRun) (g k obj off n : Nat) : State :=
  let s := if k < 2 then s else s.endPasses q d r g (k - 2)
  let s := { s with neural := { s.neural with halves := Store.set [] s.neural.halves (halfOf (q.base + g) k) (s.memBytes obj off n) } }
  s.updRun q.graph q.node (fun q => { q with loaded := Store.set 0 q.loaded g (k + 1) })

/-- WEIGHT_CHUNK_LOADED (R282 to R287). -/
def execWeightChunkLoaded (core : Fin 16) (stallNs : Nat) (errors : List (Nat × SymbolErrors)) (s : State) :
    Host.Outcome State Fault Refusal :=
  match s.neural.running.find? (fun q => q.covers core && q.started) with
  | none => .next s
  | some q =>
    match s.node? q.graph q.node with
    | none => .next s
    | some r =>
      let d := s.nodeDesc q.graph q.node
      let g := core.val - q.base
      let l := s.chunkList q d r g
      let k := Store.get 0 q.loaded g
      match l[k]? with
      | none => .next s
      | some (step, j) =>
        if r.verdict.isNone ∧ chunkFree l q r k = true ∧ s.swatchRuns (coreSwatch core) = true then
          let x := s.progStep q.program step
          let (bad, s) := s.checkWords (s.progWeights q.program) (x.wOffset + j * x.chunkBytes) x.chunkBytes (coreSwatch core) errors
          let s := s.countStall stallNs
          let s := s.setPair (reg_NE_CORE_WBYTES_LO core) (s.pair (reg_NE_CORE_WBYTES_LO core) + x.chunkBytes)
          if bad.isEmpty then .next (s.takeChunk q d r g k (s.progWeights q.program) (x.wOffset + j * x.chunkBytes) x.chunkBytes)
          else .next (s.failRequest q codeEngineErr)
        else .next s

/-! ### Steps -/

/-- Whether every core has the chunks of the present step. -/
def State.chunksLoaded (s : State) (q : NeuralRun) (d : NodeDesc) (r : NodeRun) : Bool :=
  (List.range q.cores).all (fun g =>
    decide (((s.chunkList q d r g).filter (fun c => decide (c.1 ≤ q.step))).length ≤ Store.get 0 q.loaded g))

/-- Outputs of a CONV step that core g of the group computes. -/
def StepCtx.outputsOf (x : StepCtx) (cores g : Nat) : Nat :=
  ((List.range (x.out.desc.h * x.out.desc.w)).flatMap (fun m =>
    (List.range x.out.desc.c).filter (fun c => x.coreOf cores m c == g))).length

/-- Compute a step: every output, then its counts (R256, R263 to R273, R295). -/
def State.computeStep (s : State) (q : NeuralRun) (x : StepCtx) : State :=
  if x.desc.op = opGeom then
    s.geomStep x (fun s m => s.addSat (fld_NE_CORE_NUM_GEOM_NAN (q.base + x.coreOf q.cores m 0)) 1)
  else
    let l := s.stepBlocks x q.values
    let s := l.foldl (fun s o =>
      let s := s.writeBlock x.out o.h o.w o.b o.codes o.scale
      o.nans.foldl (fun s c => s.addSat (fld_NE_CORE_NUM_NAN_OUT (q.base + x.coreOf q.cores (o.h * x.out.desc.w + o.w) c)) 1) s) s
    if x.desc.op = opConv then
      (List.range q.cores).foldl (fun s g =>
        let a := reg_NE_CORE_MACS_LO (q.base + g)
        s.setPair a (s.pair a + x.outputsOf q.cores g * convTerms x.desc x.a.desc)) s
    else s

/-- What the errors of the arena's words do (R287, R321 to R328); whether one is uncorrectable. An even index 2w names word w of the
group's activation stores, an odd one 2w + 1 word w of ARENA_OBJ. -/
def State.arenaErrors (s : State) (q : NeuralRun) (errors : List (Nat × SymbolErrors)) : Bool × State :=
  errors.foldl (fun (a : Bool × State) e =>
    let (bad, s) := a
    if e.1 % 2 = 0 then
      let core := q.base + e.1 / 131072
      match selvedgeCheck e.2 with
      | .clean => (bad, s)
      | .corrected _ _ => (bad, s.recordCe mediumSram)
      | .uncorrectable loc => (true, s.recordUe mediumSram (coreSwatch core) false loc (e.1 / 2 % 65536 * 32))
    else
      let (l, s) := s.checkWords (s.progArena q.program) (32 * (e.1 / 2)) 32 (coreSwatch q.base) [(0, e.2)]
      (bad || !l.isEmpty, s)) (false, s)

/-- An arena in LPDDR5X is written by the request. -/
def State.dirtyArena (s : State) (p : Nat) (v : TensorView) : State :=
  match v.space with
  | .dram o => match s.object o with | some x => s.setObject (s.progArena p) (some { x with dirty := true }) | none => s
  | _ => s

/-- The cores of a request have served it for a time (R295). -/
def State.serveFor (s : State) (q : NeuralRun) (ns : Nat) : State :=
  let s := (groupCores q.base q.cores).foldl (fun s c => s.addBusy (fld_NE_CORE_BUSY_BUSY_US c) ns) s
  s.updRun q.graph q.node (fun q => { q with since := s.stamp })

/-- The last passes of the present step end on every core. -/
def State.endAllPasses (s : State) (q : NeuralRun) (d : NodeDesc) (r : NodeRun) : State :=
  (List.range q.cores).foldl (fun s g => s.endPasses q d r g (s.entriesBefore { q with step := q.step + 1 } d r g)) s

/-- The present step of a request ends. -/
def State.endStep (s : State) (q : NeuralRun) (d : NodeDesc) (r : NodeRun) : State :=
  let x := s.stepCtx d r q.program q.base q.step
  let s := s.endAllPasses q d r
  let values := match s.neuralRun q.graph q.node with | some q => q.values | none => []
  let s := (s.computeStep { q with values := values } x).dirtyArena q.program x.out
  let s := s.updRun q.graph q.node (fun q => { q with values := [] })
  let s := s.updNode q.graph q.node (fun r => { r with brown := r.brown || s.brown })
  if q.step + 1 < s.progSteps q.program then s.updRun q.graph q.node (fun q => { q with step := q.step + 1 })
  else s.updRun q.graph q.node (fun q => { q with complete := true })

/-- NEURAL_STEP_DONE (R276, R281). -/
def execNeuralStepDone (graph : Fin 8) (node : Fin 64) (ns : Nat) (errors : List (Nat × SymbolErrors)) (s : State) :
    Host.Outcome State Fault Refusal :=
  match s.neuralRun graph node, s.node? graph node with
  | some q, some r =>
    let d := s.nodeDesc graph node
    if q.started ∧ q.complete = false ∧ r.verdict.isNone = true ∧ r.inputsReady = true ∧ s.chunksLoaded q d r = true ∧
        s.groupOut q.base q.cores = true then
      let (bad, s) := s.arenaErrors q errors
      let s := s.serveFor q ns
      if bad then .next (s.failRequest q codeEngineErr) else .next (s.endStep q d r)
    else .next s
  | _, _ => .next s

/-- COUNT of an output's buffer record: the lines of an image, W of a list (R211, R277). -/
def State.neuralCount (s : State) (p i : Nat) : Nat :=
  let t := s.progNat p (0x20 + 2 * i) 2
  let x := s.tensor p t
  if t = 0xFFFF then 0 else if x.h = 1 then x.w else x.h

/-- The buffer record's COUNT for output i of a node. -/
def State.outputCount (s : State) (d : NodeDesc) (p i : Nat) : Nat :=
  let e := s.outEntry d i
  if e.kind = kindList then s.neuralCount p i else e.height

/-- NEURAL_REQUEST_END (R290): outputs published, pins released, the node ends DONE. -/
def execNeuralRequestEnd (graph : Fin 8) (node : Fin 64) (s : State) : Host.Outcome State Fault Refusal :=
  match s.neuralRun graph node, s.node? graph node with
  | some q, some r =>
    if q.complete ∧ r.verdict.isNone = true ∧ s.swatchRuns 8 = true then
      let d := s.nodeDesc graph node
      let s := s.checkInputs graph node (coreSwatch q.base)
      let s := (List.range 4).foldl (fun s i => s.publishOutput graph node i (s.outputCount d q.program i)) s
      let s := (s.removeRequest graph node).2
      .next ((s.addWrap fld_NE_REQ_DONE_DONE 1).endNode graph node codeDone).dispatch
    else .next s
  | _, _ => .next s

end Sys2Proof.Machine
end

