-- ==== Sys2Proof/Machine/VisionChecks.lean ====
section
/-!
DEFINITION. The cast-on lock checks of streams, buffers, markers, programs and graphs (R184, R210, R214, R240, R277, R278).
-/
namespace Sys2Proof.Machine

/-! ### Streams (R184) -/

/-- Other enabled streams. -/
def State.otherStreams (s : State) (n : Nat) : List Nat :=
  (List.range 12).filter (fun k => k != n && s.flag (fld_STREAM_CFG_ENABLE k))

/-- A stream fails a check of R184. -/
def State.streamBad (s : State) (n : Nat) : Bool :=
  let port := s.fld (fld_STREAM_CFG_PORT n)
  let vc := s.fld (fld_STREAM_CFG_VC n)
  let w := s.streamWidth n
  let h := s.streamHeight n
  let base := s.fld (fld_STREAM_AREA_BASE n)
  let mark := s.fld (fld_STREAM_LINK_MARKER n)
  let group := s.fld (fld_STREAM_CFG_GROUP n)
  let others := s.otherStreams n
  !pixelType (s.streamDt n) || decide (11 < port) || s.isCommandChannel port vc ||
    others.any (fun k => s.fld (fld_STREAM_CFG_PORT k) == port && s.fld (fld_STREAM_CFG_VC k) == vc) ||
    decide (w = 0) || decide (w % 4 ≠ 0) || decide (h = 0) || decide (h % 2 ≠ 0) || decide (s.streamDepth n < 2) ||
    decide (storeBlocks < base + s.streamBlocks n) ||
    others.any (fun k => rangesOverlap base (s.streamBlocks n) (s.fld (fld_STREAM_AREA_BASE k)) (s.streamBlocks k)) ||
    decide (4096 < mark + s.streamDepth n) ||
    others.any (fun k => rangesOverlap mark (s.streamDepth n) (s.fld (fld_STREAM_LINK_MARKER k)) (s.streamDepth k)) ||
    (if group = 0xF then false
     else decide (5 < group) ||
       decide (s.fld (fld_STREAM_PERIOD_PERIOD_US n) ≠ s.fld (fld_STREAM_PERIOD_PERIOD_US (s.fld (fld_PAIR_CFG_REF group)))))

/-- Check every enabled stream. -/
def State.checkStreams (s : State) : State :=
  (List.range 12).foldl (fun t n =>
    if s.flag (fld_STREAM_CFG_ENABLE n) && s.streamBad n then t.setFlag (fld_STREAM_STATUS_CFG_ERR n) true else t) s

/-! ### Buffer table (R209, R210) -/

def bufferCount : Nat := 512

/-- Whether a buffer has blocks of its own, and their range. -/
def BufEntry.owns (e : BufEntry) : Bool := decide (kindImage ≤ e.kind) && decide (e.kind ≤ kindConst)
def BufEntry.extent (e : BufEntry) : Nat := (if e.kind = kindConst then 1 else e.copies) * e.blocks

/-- Markers that a buffer names: the first and how many. -/
def State.bufMarkers (s : State) (e : BufEntry) : Nat × Nat :=
  if e.kind = kindImage ∨ e.kind = kindList then (e.marker, e.copies)
  else if e.kind = kindPlaneView then (e.marker, s.streamDepth e.stream) else (0, 0)

/-- A field out of its range in a buffer table entry. -/
def State.bufFieldBad (s : State) (e : BufEntry) : Bool :=
  let listy := e.kind == kindImage || e.kind == kindList
  let streamy := e.kind == kindFrameSet || e.kind == kindPlaneView
  decide (5 < e.kind) || decide (e.rest ≠ 0) ||
    (if e.kind = kindImage then decide (4 < e.format) else if e.kind = kindList then decide (e.format = 0) || decide (16 < e.format)
     else decide (e.format ≠ 0)) ||
    (if listy then decide (e.copies ≠ 1 ∧ e.copies ≠ 2) else decide (e.copies ≠ 0)) ||
    (if streamy then decide (11 < e.stream) else decide (e.stream ≠ 0)) ||
    (if listy || e.kind == kindPlaneView then decide (4096 < (s.bufMarkers e).1 + (s.bufMarkers e).2) else decide (e.marker ≠ 0xFFFF)) ||
    (e.kind == kindPlaneView && decide (e.planeCount = 0)) ||
    (e.kind == kindImage && (decide (e.height = 0) || decide (65534 < e.height) || decide (e.stride % 64 ≠ 0) ||
      decide (e.stride < e.width * elementBytes e.format)))

/-- A copy too small for its record and lines or records. -/
def BufEntry.tooSmall (e : BufEntry) : Bool :=
  let room := e.blocks * blockBytes
  if e.kind = kindImage then decide (room < 64 + e.stride * e.height)
  else if e.kind = kindList then decide (room < 64 + e.capacity * 16 * e.format)
  else if e.kind = kindConst then decide (room < e.capacity) else false

/-- Streams that are enabled and not refused. -/
def State.usedStreams (s : State) : List Nat :=
  (List.range 12).filter (fun n => s.flag (fld_STREAM_CFG_ENABLE n) && !s.flag (fld_STREAM_STATUS_CFG_ERR n))

/-- A buffer table entry fails (R210). -/
def State.bufBad (s : State) (b : Nat) : Bool :=
  let e := s.bufEntry b
  let others := (List.range bufferCount).filter (· != b)
  let m := s.bufMarkers e
  e.kind != 0 &&
    (s.bufFieldBad e || e.tooSmall ||
      (e.owns && (decide (storeBlocks < e.baseBlock + e.extent) ||
        s.usedStreams.any (fun n => rangesOverlap e.baseBlock e.extent (s.fld (fld_STREAM_AREA_BASE n)) (s.streamBlocks n)) ||
        others.any (fun k => (s.bufEntry k).owns && rangesOverlap e.baseBlock e.extent (s.bufEntry k).baseBlock (s.bufEntry k).extent))) ||
      (e.kind == kindPlaneView && decide (s.streamPlanes e.stream < e.firstPlane + e.planeCount)) ||
      others.any (fun k => rangesOverlap m.1 m.2 (s.bufMarkers (s.bufEntry k)).1 (s.bufMarkers (s.bufEntry k)).2))

/-- Whether a marker is one of a buffer's. -/
def State.bufHasMarker (s : State) (b m : Nat) : Bool :=
  let e := s.bufEntry b
  if e.kind = kindFrameSet then (List.range (s.streamDepth e.stream)).any (fun i => s.frameMarker e.stream i == m)
  else decide ((s.bufMarkers e).1 ≤ m) && decide (m < (s.bufMarkers e).1 + (s.bufMarkers e).2)

/-- Whether an agent identifier is valid (Table 6.1, R337, R482). -/
def agentValid (a : Nat) : Bool :=
  match a / 4096 with
  | 0 => a == 0
  | 1 => decide (a % 4096 < 12)
  | 2 => bits a 11 11 == 0 && bits a 7 6 == 0
  | 3 => bits a 7 4 == 0 && ((bits a 11 8 == 0 && decide (a % 16 < 12)) || (bits a 11 8 == 1 && decide (a % 16 < 8)))
  | 4 => decide (a % 4096 < 16)
  | _ => false

/-- Whether a graph node agent's node uses a buffer that a marker guards, as producer or consumer. -/
def State.nodeUses (s : State) (a m : Nat) (produces : Bool) : Bool :=
  let d := s.nodeDesc (a / 256 % 8) (a % 64)
  decide (a % 64 < s.nodeCount (a / 256 % 8)) &&
    (if produces then d.outs else d.ins).any (fun b => b != noBuffer && s.bufHasMarker b m)

/-- A marker table entry fails (R210). -/
def State.markerBad (s : State) (m : Nat) : Bool :=
  let bad (a : Nat) (produces : Bool) : Bool := !agentValid a || (a / 4096 == 2 && !s.nodeUses a m produces)
  bad (s.producer m) true || (List.range 16).any (fun i => bad (s.slotAgent m i) false) ||
    decide (s.objNat frameSwatch markerTable (40 * m + 0x24) 4 ≠ 0)

/-- Check both tables; FIRST_BAD is the first failed buffer entry, else the first failed marker entry (R236). -/
def State.checkTables (s : State) : State :=
  let b := (List.range bufferCount).find? s.bufBad
  let m := (List.range (ceilDiv (s.objLen frameSwatch markerTable) 40)).find? s.markerBad
  let s := s.setFlag fld_FG_TABLE_STATUS_BUF_ERR b.isSome
  let s := s.setFlag fld_FG_TABLE_STATUS_MARKER_ERR m.isSome
  s.setFld fld_FG_TABLE_STATUS_FIRST_BAD (match b, m with | some k, _ => k | none, some k => k | none, none => 0)

/-! ### Programs (R274 to R278) -/

/-- Header or program store out of range. -/
def State.progHeaderBad (s : State) (p : Nat) : Bool :=
  let steps := s.progSteps p
  let tensors := s.progTensors p
  let ends (off : Nat) : Bool := (List.range 4).any (fun i =>
    let t := s.progNat p (off + 2 * i) 2
    t != 0xFFFF && decide (tensors ≤ t))
  decide (steps = 0) || decide (1024 < steps) || decide (tensors = 0) || decide (256 < tensors) ||
    !([1, 2, 4, 8, 16].contains (s.progCores p)) || decide (s.progNat p 5 3 ≠ 0) || decide (2097152 < s.progNat p 0x10 4) ||
    decide (s.progNat p 0x14 4 ≠ 0) || decide (leNat (s.objBytes frameSwatch (programObject p) 0x28 24) ≠ 0) || ends 0x18 || ends 0x20

/-- A tensor descriptor out of range (R258, Table 8.7). -/
def TensorDesc.isBad (t : TensorDesc) : Bool :=
  let bound := decide (t.place ≤ 1)
  decide (3 < t.place) || decide (11 < t.format) || decide (1 < t.flags) || (if bound then decide (3 < t.slot) else decide (t.slot ≠ 0)) ||
    decide (t.h = 0) || decide (65534 < t.h) || decide (t.w = 0) || decide (65534 < t.w) || decide (t.c = 0) || decide (16384 < t.c) ||
    decide (t.zero ≠ 0) || decide (t.zero2 ≠ 0) || (if bound then decide (t.pitch ≠ 0) else decide (t.pitch % 64 ≠ 0)) ||
    (isFp6or4 t.format && !t.scaled) || (t.scaled && !(isFp6or4 t.format || isFp8 t.format)) || (bound && t.scaled) ||
    (!t.scaled && decide (t.scaleOffset ≠ 0))

/-- Whether n bytes from an offset of the SRAM arena lie within it (R275). -/
def arenaHolds (cores most off n : Nat) : Bool :=
  let last := off + n - 1
  decide (off + n ≤ cores * 2097152) &&
    (if off / 2097152 = last / 2097152 then decide (last % 2097152 < most) else most == 2097152)

/-- An arena tensor does not fit (R275). -/
def State.arenaBad (s : State) (p : Nat) (t : TensorDesc) : Bool :=
  let n := (t.h - 1) * t.pitch + t.w * (t.blocks * blockSize t.format)
  let scales := t.h * t.w * t.blocks
  if t.place = 2 then
    !arenaHolds (s.progCores p) (s.progNat p 0x10 4) t.offset n ||
      (t.scaled && !arenaHolds (s.progCores p) (s.progNat p 0x10 4) t.scaleOffset scales)
  else if t.place = 3 then
    match s.object (s.progArena p) with
    | some o => decide (s.progArena p = 0) || decide (o.size < t.offset + n) || (t.scaled && decide (o.size < t.scaleOffset + scales))
    | none => true
  else false

/-- Whether Table 8.3 has a pair, and whether it allows SPARSE. -/
def convPair (a w : Nat) : Bool :=
  (decide (a ≤ 1) && w == 0) || (isFp8 a && (isFp8 w || isFp6or4 w)) || (isFp6or4 a && (isFp8 w || isFp6or4 w)) ||
    (a == fmtBf16 && w == fmtBf16) || (a == fmtFp32 && w == fmtFp32)
def sparsePair (a w : Nat) : Bool := (decide (a ≤ 1) && w == 0) || (isFp8 a && isFp8 w)

/-- A step descriptor out of range, or a pair that is not allowed (R276, R278, Table 8.8). -/
def State.stepBad (s : State) (p : Nat) (d : StepDesc) : Bool :=
  let n := s.progTensors p
  let a := s.tensor p d.inA
  let inRange (v lo hi : Nat) : Bool := decide (lo ≤ v) && decide (v ≤ hi)
  !inRange d.op 1 7 || (if d.op = opConv then decide (2 < d.split) else decide (d.split ≠ 0)) || decide (7 < d.act) || decide (31 < d.flags) ||
    decide (n ≤ d.inA) || (d.inB != 0xFFFF && decide (n ≤ d.inB)) || decide (n ≤ d.out) || !inRange d.kh 1 15 || !inRange d.kw 1 15 ||
    !inRange d.sy 1 8 || !inRange d.sx 1 8 || !inRange d.dy 1 8 || !inRange d.dx 1 8 || decide (15 < d.padY) || decide (15 < d.padX) ||
    decide (d.zero ≠ 0) || decide (d.zero2 ≠ 0) || decide (d.wOffset % 64 ≠ 0) || decide (11 < d.wfmt) ||
    (d.op == opEwise && decide (5 < d.subOp)) || (d.op == opGeom && decide (10 < d.subOp)) ||
    (d.op == opConv && !convPair a.format d.wfmt) ||
    (d.op == opDwConv && !(d.wfmt == fmtInt8 || isFp8 d.wfmt || d.wfmt == fmtBf16 || d.wfmt == fmtFp16 || d.wfmt == fmtFp32)) ||
    (d.sparse && !(d.op == opConv && sparsePair a.format d.wfmt)) ||
    (d.wscaled && !(d.op == opConv && (isFp8 d.wfmt || isFp6or4 d.wfmt))) || (d.op == opConv && isFp6or4 d.wfmt && !d.wscaled) ||
    (d.residual && d.inB == 0xFFFF)

/-- A step's chunks break R284 or leave WEIGHTS_OBJ. -/
def State.chunkBad (s : State) (p : Nat) (d : StepDesc) : Bool :=
  let n := stepChunks d (s.tensor p d.out)
  if n = 0 then decide (d.chunkBytes ≠ 0)
  else
    decide (d.chunkBytes ≠ ceilDiv (chunkSize d (s.tensor p d.inA)) 64 * 64) || decide (1048576 < d.chunkBytes) ||
      (match s.object (s.progWeights p) with
      | some o => decide (o.size < d.wOffset + n * d.chunkBytes)
      | none => true)

/-- REASON and index of a program's first failure, taken in the order of R278 (Table 8.14). -/
def State.progFailure (s : State) (p : Nat) : Option (Nat × Nat) :=
  let used := (List.range (p + 1)).foldl (fun t q => t + s.objLen frameSwatch (programObject q)) 0
  if s.progHeaderBad p then some (0, 0)
  else
    let tensors := List.range (s.progTensors p)
    let steps := List.range (s.progSteps p)
    match tensors.find? (fun t => (s.tensor p t).isBad) with
    | some t => some (1, t)
    | none =>
      match steps.find? (fun k => s.stepBad p (s.progStep p k)) with
      | some k => some (2, k)
      | none =>
        match tensors.find? (fun t => s.arenaBad p (s.tensor p t)) with
        | some t => some (4, t)
        | none =>
          match steps.find? (fun k => s.chunkBad p (s.progStep p k)) with
          | some k => some (3, k)
          | none =>
            if s.fld fld_CAP_NEURAL_CORES_VALUE < s.progCores p then some (5, 0)
            else if 2 ^ 20 < used then some (0, 0) else none

/-- Whether a program is loaded and passes. -/
def State.progGood (s : State) (p : Nat) : Bool :=
  decide (p < 256) && decide (s.objLen frameSwatch (programObject p) ≠ 0) && (s.progFailure p).isNone

/-- Enabled graphs. -/
def State.enabledGraphs (s : State) : List Nat := (List.range 8).filter (fun g => s.flag (fld_GRAPH_CFG_ENABLE g))

/-- Programs that an enabled NEURAL node names. -/
def State.namedPrograms (s : State) : List Nat :=
  let l := s.enabledGraphs.flatMap (fun g => (List.range (s.nodeCount g)).filterMap (fun n =>
    let d := s.nodeDesc g n
    if d.type = nodeNeural then some (d.param 0 2) else none))
  (List.range 256).filter (fun p => l.contains p)

/-- Check the named programs (R278, R299). -/
def State.checkPrograms (s : State) : State :=
  let named := s.namedPrograms
  let t := named.foldl (fun t p =>
    if s.progGood p then t.setFld (fld_NE_PROG_VALID_BITS (p / 32)) (Nat.lor (t.fld (fld_NE_PROG_VALID_BITS (p / 32))) (2 ^ (p % 32))) else t) s
  match (named.filterMap (fun p => (s.progFailure p).map (fun f => (p, f)))).head? with
  | some (p, reason, index) =>
    let t := (t.setFlag fld_NE_PROG_STATUS_BAD true).setFld fld_NE_PROG_STATUS_FIRST_PROG p
    (t.setFld fld_NE_PROG_STATUS_REASON reason).setFld fld_NE_PROG_STATUS_FIRST_STEP index
  | none => t

/-! ### Graphs (R210, R214) -/

/-- Kinds of the buffer that an input or output names. -/
def State.bufKind (s : State) (b : Nat) : Nat := if b = noBuffer then 0 else (s.bufEntry b).kind

/-- A U8 IMAGE or a PLANE_VIEW. -/
def State.grayKind (s : State) (b : Nat) : Bool :=
  s.bufKind b == kindPlaneView || (s.bufKind b == kindImage && (s.bufEntry b).format == 0)

/-- Parameter bytes that a type leaves unused are zero. -/
def NodeDesc.zeroFrom (d : NodeDesc) (off : Nat) : Bool := (d.params.drop off).all (· == 0)

/-- The streams of a graph's source (R214). -/
def State.graphStreams (s : State) (g : Nat) : List Nat :=
  if s.fld (fld_GRAPH_CFG_TRIG g) = 1 then s.members (s.fld (fld_GRAPH_CFG_SRC g)) else [s.fld (fld_GRAPH_CFG_SRC g)]

/-- An input's mode suits its buffer (R214). -/
def State.inputBad (s : State) (g n : Nat) (d : NodeDesc) (i : Nat) : Bool :=
  let b := d.inBuf i
  if b = noBuffer then decide (d.mode i ≠ 0)
  else
    let e := s.bufEntry b
    let earlier := (List.range n).any (fun k => (s.nodeDesc g k).outs.contains b)
    decide (bufferCount ≤ b) || s.bufBad b || decide (e.kind = 0) ||
      (match d.mode i with
      | 0 =>
        if e.kind = kindImage ∨ e.kind = kindList then !earlier
        else if e.kind = kindConst then false else !(s.graphStreams g).contains e.stream
      | 3 => !(List.range (s.nodeCount g)).any (fun k => (s.nodeDesc g k).type == nodeKeep && (s.nodeDesc g k).inBuf 0 == b)
      | _ => e.kind == kindConst)

/-- An output is usable, has one producer on the device, and its markers name it (R214). -/
def State.outputBad (s : State) (g n : Nat) (d : NodeDesc) (i : Nat) : Bool :=
  let b := d.outBuf i
  if b = noBuffer then false
  else
    let e := s.bufEntry b
    let producers := s.enabledGraphs.foldl (fun t k => t + ((List.range (s.nodeCount k)).filter (fun q => (s.nodeDesc k q).outs.contains b)).length) 0
    decide (bufferCount ≤ b) || s.bufBad b || !(e.kind == kindImage || e.kind == kindList || e.kind == kindPlaneView) ||
      decide (producers ≠ 1) ||
      (List.range (s.bufCopies e)).any (fun c => match s.bufMarker e c with | some m => s.producer m != nodeAgent g n | none => true)

/-- Every input and output from index i on is absent. -/
def noneFrom (l : List Nat) (i : Nat) : Bool := (l.drop i).all (· == noBuffer)

/-- The type and parameters of a WARP, PYRAMID, CORNER, TRACK_LK or KEEP node (Tables 6.7, 6.8). -/
def State.engineNodeBad (s : State) (d : NodeDesc) : Bool :=
  let inE (i : Nat) := s.bufEntry (d.inBuf i)
  let out := s.bufEntry (d.outBuf 0)
  match d.type with
  | 1 =>
    !(s.bufKind (d.inBuf 0) == kindFrameSet) || !(s.bufKind (d.inBuf 1) == kindConst) || !(s.bufKind (d.inBuf 2) == kindConst) ||
      !noneFrom d.ins 3 || !noneFrom d.outs 1 || !s.grayKind (d.outBuf 0) ||
      (out.kind == kindPlaneView && (out.firstPlane != 0 || out.planeCount != 1)) ||
      decide (d.param 0 1 < 3) || decide (5 < d.param 0 1) || decide (1 < d.param 1 1) || !d.zeroFrom 3
  | 2 =>
    !s.grayKind (d.inBuf 0) || !noneFrom d.ins 1 || !noneFrom d.outs 1 || s.bufKind (d.outBuf 0) != kindPlaneView ||
      (if (inE 0).kind = kindPlaneView then out.firstPlane != (inE 0).firstPlane + (inE 0).planeCount || out.stream != (inE 0).stream
       else out.firstPlane == 0) || !d.zeroFrom 0
  | 3 =>
    !s.grayKind (d.inBuf 0) || !noneFrom d.ins 1 || !noneFrom d.outs 1 || s.bufKind (d.outBuf 0) != kindList || out.format != 8 ||
      (if (inE 0).kind = kindPlaneView then decide (d.param 0 1 < (inE 0).firstPlane) || decide ((inE 0).firstPlane + (inE 0).planeCount ≤ d.param 0 1)
       else d.param 0 1 != 0) ||
      decide (d.param 1 1 = 0) || decide (d.param 2 1 < 4) || decide (7 < d.param 2 1) || decide (d.param 3 1 = 0) || decide (64 < d.param 3 1) ||
      decide (d.param 4 2 = 0) || decide (8192 < d.param 4 2) || decide (3 < d.param 6 1) || d.param 7 1 != 0 || !d.zeroFrom 10
  | 4 =>
    s.bufKind (d.inBuf 0) != kindPlaneView || s.bufKind (d.inBuf 1) != kindPlaneView || s.bufKind (d.inBuf 2) != kindList || !noneFrom d.ins 3 ||
      !noneFrom d.outs 1 || s.bufKind (d.outBuf 0) != kindList || (inE 2).format != 2 || out.format != 2 || d.streaming ||
      decide (3 < d.param 0 1) || decide (d.param 1 1 = 0) || decide (min (inE 0).planeCount (inE 1).planeCount < d.param 1 1) ||
      decide (d.param 2 1 = 0) || decide (16 < d.param 2 1) || decide (1 < d.param 6 1) || d.param 7 1 != 0 || !d.zeroFrom 12
  | _ =>
    !(s.bufKind (d.inBuf 0) == kindFrameSet || s.bufKind (d.inBuf 0) == kindImage || s.bufKind (d.inBuf 0) == kindList) ||
      !noneFrom d.ins 1 || !noneFrom d.outs 0 || d.streaming || d.param 0 1 == 0 || !d.zeroFrom 1

/-- Size of the matching plane of an SGM input (R238). -/
def State.matchingSize (s : State) (b plane : Nat) : Nat × Nat :=
  let e := s.bufEntry b
  if e.kind = kindPlaneView then (s.planeWidth e.stream plane, s.planeHeight e.stream plane) else (e.width, e.height)

/-- The streams of which nodes 0 to n − 1 of a graph read anything that reaches a buffer: the buffer's own, or those of the inputs of
the node that produces it. -/
def State.streamsInto (s : State) (g : Nat) : Nat → Nat → List Nat
  | 0, b => if s.bufKind b = kindFrameSet ∨ s.bufKind b = kindPlaneView then [(s.bufEntry b).stream] else []
  | n + 1, b =>
    if s.bufKind b = kindFrameSet ∨ s.bufKind b = kindPlaneView then [(s.bufEntry b).stream]
    else if (s.nodeDesc g n).outs.contains b then
      (s.nodeDesc g n).ins.flatMap (fun i => if i = noBuffer then [] else s.streamsInto g n i)
    else s.streamsInto g n b

/-- Two IMAGE inputs of node n are outputs of two earlier nodes that read different members (R237, log entry 64). -/
def State.differentMembers (s : State) (g n a b : Nat) : Bool :=
  let owner (b : Nat) := (List.range n).find? (fun k => (s.nodeDesc g k).outs.contains b)
  owner a != owner b && (s.streamsInto g n a).any (fun x => (s.streamsInto g n b).any (fun y => x != y))

/-- An SGM node is refused (R237 to R240). -/
def State.sgmNodeBad (s : State) (g n : Nat) (d : NodeDesc) : Bool :=
  let a := s.bufEntry (d.inBuf 0)
  let b := s.bufEntry (d.inBuf 1)
  let plane := d.param 0 1
  let size := s.matchingSize (d.inBuf 0) plane
  let hw := if d.param 1 1 = 0 then 2 else if d.param 1 1 = 1 then 3 else 4
  let count := d.param 6 2
  let out (i fmt : Nat) : Bool :=
    let e := s.bufEntry (d.outBuf i)
    e.kind == kindImage && e.format == fmt && e.width == size.1 && e.height == size.2
  s.fld (fld_GRAPH_CFG_TRIG g) != 1 || !s.grayKind (d.inBuf 0) || !s.grayKind (d.inBuf 1) || a.kind != b.kind || d.mode 0 != 0 || d.mode 1 != 0 ||
    (if a.kind = kindPlaneView then a.stream == b.stream else !s.differentMembers g n (d.inBuf 0) (d.inBuf 1)) || !noneFrom d.ins 2 || !noneFrom d.outs 2 || !out 0 1 ||
    (d.outBuf 1 != noBuffer && !out 1 0) || s.matchingSize (d.inBuf 1) plane != size ||
    (if a.kind = kindPlaneView then decide (plane < a.firstPlane) || decide (a.firstPlane + a.planeCount ≤ plane) || decide (plane < b.firstPlane) ||
        decide (b.firstPlane + b.planeCount ≤ plane) else plane != 0) ||
    decide (2 < d.param 1 1) || decide (1 < d.param 2 1) || decide (7 < d.param 3 1) || decide (4064 < d.param 4 2) || decide (count < 16) ||
    decide (512 < count) || decide (count % 16 ≠ 0) || decide (4080 < d.param 4 2 + count) || d.param 8 1 == 0 || decide (127 < d.param 8 1) ||
    decide (d.param 9 1 ≤ d.param 8 1) || decide (3 < d.param 0x0B 1) || d.param 0x0F 1 != 0 || decide (d.param 0x10 2 < 8) ||
    decide (1024 < d.param 0x10 2) || decide (256 < d.param 0x12 2) || !d.zeroFrom 0x14 ||
    decide (size.1 < 2 * hw + (d.param 4 2 + count - 1) + 1) || decide (25165824 < size.1 * count * d.param 0x10 2 * 3 / 2)

/-- The tensor format of an IMAGE's FORMAT (R260). -/
def imageFormat (f : Nat) : Nat := [fmtU8, fmtU16, fmtS16, fmtFp16, fmtFp32].getD f 0xFF

/-- A tensor does not agree with the buffer it is bound to (R260, R277); a list's record count is its CAPACITY (Table 6.3). -/
def State.bindingBad (s : State) (p b t place slot : Nat) : Bool :=
  if b = noBuffer ∨ t = 0xFFFF then decide (¬(b = noBuffer ∧ t = 0xFFFF))
  else
    let x := s.tensor p t
    let e := s.bufEntry b
    x.place != place || x.slot != slot || x.scaled ||
      (match e.kind with
      | 1 => x.c != 1 || x.h != e.height || x.w != e.width || x.format != imageFormat e.format
      | 2 => x.h != 1 || e.capacity != x.w || decide (128 * e.format < x.c * elemBits x.format)
      | 5 => x.c != 1 || x.format != fmtU8 ||
          !(List.range e.planeCount).any (fun k => x.h == s.planeHeight e.stream (e.firstPlane + k) && x.w == s.planeWidth e.stream (e.firstPlane + k))
      | _ => true)

/-- A NEURAL node is refused (R277, R278). -/
def State.neuralNodeBad (s : State) (d : NodeDesc) : Bool :=
  let p := d.param 0 2
  d.streaming || decide (255 < p) || !d.zeroFrom 2 || !s.progGood p ||
    (List.range 4).any (fun i => s.bindingBad p (d.inBuf i) (s.progNat p (0x18 + 2 * i) 2) 0 i ||
      s.bindingBad p (d.outBuf i) (s.progNat p (0x20 + 2 * i) 2) 1 i)

/-- A node of a graph is refused. -/
def State.nodeBad (s : State) (g n : Nat) : Bool :=
  let d := s.nodeDesc g n
  decide (d.type = 0) || decide (7 < d.type) || !(d.engine == 0 || d.engine == 1 || d.engine == 0xFF) || decide (3 < d.flags) || d.zero != 0 ||
    (List.range 4).any (fun i => s.inputBad g n d i || s.outputBad g n d i) ||
    (if d.type = nodeSgm then s.sgmNodeBad g n d else if d.type = nodeNeural then s.neuralNodeBad d else s.engineNodeBad d)

/-- An enabled graph is refused (R210, R214). -/
def State.graphBad (s : State) (g : Nat) : Bool :=
  let n := s.nodeCount g
  let trig := s.fld (fld_GRAPH_CFG_TRIG g)
  let src := s.fld (fld_GRAPH_CFG_SRC g)
  let keeps := (List.range n).filterMap (fun k => if (s.nodeDesc g k).type = nodeKeep then some ((s.nodeDesc g k).inBuf 0) else none)
  decide (n = 0) || decide (64 < n) || (s.objBytes frameSwatch (0x10 + g) 1 15).any (· != 0) || decide (1 < trig) ||
    decide ((if trig = 1 then 5 else 11) < src) || (List.range n).any (s.nodeBad g) ||
    keeps.any (fun b => decide (1 < (keeps.filter (· == b)).length))

/-- Check every enabled graph, and show the loaded node counts (R234). -/
def State.checkGraphs (s : State) : State :=
  (List.range 8).foldl (fun t g =>
    let t := t.setFld (fld_GRAPH_CFG_NODES g) (s.nodeCount g - 1)
    if s.flag (fld_GRAPH_CFG_ENABLE g) && s.graphBad g then t.setFlag (fld_GRAPH_STATUS_CFG_ERR g) true else t) s

/-- Every check of the vision chapters at cast-on lock, in the order in which each rests on the last. -/
def State.checkVision (s : State) : State := s.checkStreams.checkTables.checkPrograms.checkGraphs

end Sys2Proof.Machine
end

