-- ==== Sys2Proof/Machine/CastLock.lean ====
section
/-!
DEFINITION. The residency analysis of the solver slots, and cast-on lock: what is applied, checked, armed and started (R112 to R116,
R303, R376, R378, R381, R579).
-/
namespace Sys2Proof.Machine

/-! ### Residency (R376, R378) -/

/-- A loaded slot waits for its analysis. -/
def State.unjudged (s : State) (c k : Nat) : Bool := s.hasDescriptor c k && (s.solverSlot c k).code == codeEmpty

/-- Analyse a slot loaded by data records. A Class A slot of SOLV_1 outside a paired image lies on the wrong core (R381). -/
def State.judgeSlot (s : State) (c k : Nat) : State :=
  let o := 0x11 + k
  let values := s.objBytes (solverSwatch c) o 0 (s.objLen (solverSwatch c) o)
  s.analyseSlot c k (s.descriptor c k) values false (fun t => (c == 1 && !s.paired) || s.classARefuses c k t)

/-- Analyse the slots below n that wait for it, placing them in ascending order (R379); and every slot. -/
def State.judgeBelow (s : State) (c n : Nat) : State :=
  (List.range n).foldl (fun s k => if s.unjudged c k then s.judgeSlot c k else s) s
def State.judgeSlots (s : State) (c : Nat) : State := s.judgeBelow c 8

/-- The Class A slots of index k agree (R378, R416). -/
def State.pairAgrees (s : State) (k : Nat) : Bool :=
  match s.structureOf 0 k, s.structureOf 1 k with
  | some a, some b => a.classA && b.classA && a.signature == b.signature && s.settingsBytes 0 == s.settingsBytes 1
  | _, _ => false

/-- A slot takes PAIR_DIFF. -/
def State.pairDiffer (s : State) (c k : Nat) : State :=
  match s.structureOf c k with
  | some t => if t.classA then s.setSolverSlot c k { SolverSlot.empty with code := codePairDiff } else s
  | none => s

/-- The comparison of a paired image, once every loaded slot of both cores is analysed. -/
def State.comparePairs (s : State) : State :=
  if s.paired = false ∨ (List.range 8).any (fun k => s.unjudged 0 k || s.unjudged 1 k) = true then s
  else (List.range 8).foldl (fun s k => if s.pairAgrees k then s else (s.pairDiffer 0 k).pairDiffer 1 k) s

/-- The records of a core's slots are complete: no later section carries any (R112). -/
def State.recordsComplete (s : State) (c : Nat) : Bool :=
  match s.cast.skein with
  | some k => (k.sections.drop s.cast.nextSection).all (fun e => e.type != 4 && (c == 0 || e.type != 5)) && s.cast.regsChecked
  | none => false

/-- The analysis under the staged settings, before lock. -/
def State.judgeEarly (s : State) (c k : Nat) : State := { s with solv := (s.applyStaged.judgeBelow c (k + 1)).comparePairs.solv }

/-- The loop has a Class A path again where a solver core's checks were the last thing it waited for (R120, R409). -/
def State.coreRestored (s : State) (c : Nat) : State :=
  if (List.range 8).any (s.unjudged c) then s
  else (s.comparePairs.setGroupPhase (groupOf (solverSwatch c)) .running).regate

/-- A core restores its slots after a swatch reset. -/
def State.coreRestoring (s : State) (c : Nat) : Bool :=
  s.alive && !s.inReset (solverSwatch c) && s.groupPhase (groupOf (solverSwatch c)) == .restoring

/-- RESIDENCY_ANALYSIS_DONE (R376, R378, R379, R409): the slots below are placed first, so their analyses have ended too. -/
def execResidencyAnalysisDone (core : Fin 2) (slot : Fin 8) (s : State) : Host.Outcome State Fault Refusal :=
  if s.unjudged core slot = false then .next s
  else if (s.castAt .sections ∨ s.castAt .applied) ∧ s.recordsComplete core then .next (s.judgeEarly core slot)
  else if s.coreRestoring core then .next ((s.judgeBelow core (slot + 1)).coreRestored core)
  else .next s

/-! ### What lock applies -/

/-- The identity of the running image (R126, R127, R132, R578, R579). -/
def State.showImage (s : State) (b : Bool) (k : Skein) : State :=
  let s := ((s.setFlag fld_KEY_STATUS_IMAGE_SLOT b).setFld fld_KEY_STATUS_SLOT_IN_USE k.keySlot).setFld fld_ROLLBACK_IMAGE_VERSION k.secVersion
  let s := (s.setFld fld_CASTON_SEQ_SEQUENCE k.sequence).setFld fld_SYS_LOCK_GRANTS s.cast.grants.length
  let s := (List.range 16).foldl (fun s i => s.setReg (reg_IMAGE_DIGEST i) (BitVec.ofNat 32 (field k.digest (4 * i) 4))) s
  s.setCast { s.cast with autoCommit := k.autoCommit, revoke := k.revoke, revokeMask := k.revokeMask }

/-- The fuse bits that a commit would blow (R107). -/
def State.commitBits (s : State) : List FuseBit :=
  List.replicate (s.fld fld_ROLLBACK_IMAGE_VERSION - s.fld fld_ROLLBACK_COUNTER) FuseBit.rollback ++
    (if s.cast.revoke then
      ((List.range 4).filter (fun k => bit s.cast.revokeMask k && !bit (s.fld fld_KEY_STATUS_REVOKED) k)).map FuseBit.revoked
     else [])

/-- Blow fuse bits one at a time (R108). -/
def State.blow (s : State) (l : List FuseBit) : State :=
  (s.setFlag fld_SEC_STATE_FUSE_BUSY (!l.isEmpty)).setCast { s.cast with fuses := l, fusesHeld := s.brown }

/-- COMMIT_PENDING: a commit would change a fuse (R107). -/
def State.showPending (s : State) : State := s.setFlag fld_ROLLBACK_COMMIT_PENDING (!s.commitBits.isEmpty)

/-- A timer output that the image names takes its staging, or keeps its Reset configuration (R165). -/
def State.lockTout (s : State) (n : Nat) : State :=
  let regs := reg_TOUT_CTRL n :: toutRegisters n
  if s.cast.writes.any (fun e => regs.contains e.addr.toNat) = false then s
  else if s.toutBad n then (regs.foldl (fun s a => s.setReg a (resetAt a)) s).setFlag (fld_TOUT_CTRL_CFG_REJECT n) true
  else s.startTout n

/-- The data space and its pages (R307, R331). -/
def State.lockMemory (s : State) : State :=
  let s := s.setFld fld_MEM_DATA_MIB_MIB (s.dataSpace / 2 ^ 20)
  { s with mem := { s.mem with dramPages := s.pagesBelow } }

/-- Declare a static object in DRAM (R303). -/
def State.declare (s : State) (d : Declaration) : State :=
  let (pages, s) := s.allocate s.usedPages (d.size / pageBytes)
  s.setObject d.id (some ⟨d.size, bit d.flags 0, tierDram, false, none, 0, pages⟩)

/-- The static objects; the first failed entry is recorded (R303). -/
def State.declareObjects (s : State) (l : List (Option Declaration)) : State :=
  let s := (l.filterMap id).foldl State.declare s
  match l.findIdx? (·.isNone) with
  | some i => (s.setFlag fld_MEM_STATUS_OBJ_ERR true).setFld fld_MEM_OBJ_STATUS_FIRST_BAD i
  | none => s

/-- The checks at lock, each chapter's own (R184, R210, R214, R240, R278, R338, R447, R484, R549). -/
def State.lockChecks (s : State) : State :=
  s.checkVision.checkTracking.checkIndexes.checkTransmit.checkCommands

/-- The time servo at lock (R148): SERVO_MODE 0b10 and 0b11 enter FREE_RUN. The step is disarmed there too, which the spec says of the
timeout alone (log entry 60). -/
def State.lockServo (s : State) : State :=
  let s := { s with time := { s.time with lockedAt := s.time.now } }
  if 2 ≤ s.fld fld_TIME_CTRL_SERVO_MODE then (s.setFlag fld_TIME_STATUS_STEP_ARMED false).setServo servoFreeRun else s

/-- The channels of flash begin their initialisation (R443). -/
def State.startChannels (s : State) (l : List Nat) : State := l.foldl (fun s c => s.setFlag (fld_NCH_STATUS_INIT c) true) s

/-- The Class A slot is taken up; without a resident structure the loop does not start (R48). -/
def State.lockClassA (s : State) : State :=
  let s := ((s.judgeSlots 0).judgeSlots 1).comparePairs.loadClassA
  { s with loop := { s.loop with resident := s.clsA.slot.isSome } }

/-- The fields that a swatch reset reloads: CAST fields, and tunables with the value the image gave them (R21, R81). -/
def reloaded (f : FieldRow) : Bool := f.keeps == .cast || (f.keeps == .live && f.access == .rwl)

/-- Keep what swatch resets reload (R113, R116, R119). -/
def State.keepImage (s : State) : State :=
  s.setCast { s.cast with
    castRegs := s.regs.filterMap (fun e => if e.2 &&& maskAt e.1 reloaded = 0 then none else some (e.1, e.2 &&& maskAt e.1 reloaded)),
    kept := s.sram, keptLen := s.sramLen }

/-- The governor begins at MIN_LEVEL (R514). -/
def State.startGovernor (s : State) : State :=
  let s := s.setFld fld_PWR_STATUS_LEVEL (s.fld fld_PWR_GOV_CFG_MIN_LEVEL)
  { s with power := { s.power with started := false, calm := 0 } }.takeSteps

/-- An AUTO_COMMIT image begins its commit (R107). -/
def State.autoCommit (s : State) : State := if s.cast.autoCommit then s.blow s.commitBits else s

/-- Cast-on lock (R110, R112, R116, R579). -/
def State.lock (s : State) (b : Bool) (k : Skein) (us : Nat) : State :=
  let objects := s.declared
  let s := s.applyStaged.showImage b k
  let s := ((s.setFld (resultField b) castOk).setFld fld_CASTON_TIME_US (min 0xFFFFFFFF us)).setFlag fld_SYS_LOCK_LOCKED true
  let s := { s with sw := { s.sw with inReset := 0 }, pins := { s.pins with coldState := false },
                    integ := { s.integ with hostArmed := true } }
  let s := (s.setPhase phaseRunning).releaseFlash
  let s := s.setCast { s.cast with step := .stopped }
  let s := (s.lockMemory.declareObjects objects).lockChecks
  let s := (((List.range 16).foldl State.lockTout s).startGovernor.startChannels (List.range 16)).lockClassA
  let s := s.keepImage.lockServo.lockPorts.startInit.scheduleStart
  s.autoCommit.showPending

/-- CAST_ON_LOCK (R110): every section has passed, PLL_ARITH is locked and LPDDR5X trained. -/
def execCastOnLock (us : Nat) (s : State) : Host.Outcome State Fault Refusal :=
  match s.cast.slot, s.cast.skein with
  | some b, some k => if s.castAt .applied ∧ s.cast.arithLocked = true ∧ s.cast.trained = true then .next (s.lock b k us) else .next s
  | _, _ => .next s

end Sys2Proof.Machine
end

