-- ==== Sys2Proof/Machine/Estimator.lean ====
section
/-!
DEFINITION. The estimator update of a period: the composition, the linearisation point, the rows, the dense step, its check and the
record's words (R418, R425, R431).
-/
namespace Sys2Proof.Machine

/-! ### What an update starts from -/

/-- The chains whose foot points are states, and P (Table 12.6). -/
def State.estChains (s : State) : List Nat := (List.range 8).filter (bit (s.setting 0 1))
def State.estParams (s : State) : Nat := s.setting 2 2

/-- The data of an update: the chains with their leg terms' foot translations where they qualify, P, the prior's point and trailing
factor, and the composition. -/
structure EstInput where
  chains : List (Nat × Option (List Fix))
  params : List Fix
  feet : List (List Fix)
  anchor : List Fix
  /-- D, and L below the diagonal by rows. -/
  diag : List Fix
  lower : List Fix
  comp : Composition
  gravity : Fix
  footSigma : Fix
  biasSigma : Fix × Fix
  deriving DecidableEq, Repr

/-- Dimensions of the trailing block: s of R431. -/
def EstInput.dims (x : EstInput) : Nat := 3 * x.feet.length + 30

/-- An entry of the prior's unit lower L. -/
def EstInput.l (x : EstInput) (i j : Nat) : Fix := if i = j then fixOne else if i < j then 0 else fixAt x.lower (i * (i - 1) / 2 + j)

/-- The foot translation of a chain's leg term where it qualifies (R424). -/
def State.legFoot (s : State) (c : Nat) : Option (Option (List Fix)) :=
  match s.track.legs.find? (fun t => field t 0 1 == c) with
  | some t => if field t 1 1 % 8 = 3 then (wordFixes (toWords 3 (t.drop 24))).map some else some none
  | none => some none

/-- The data of a period's update; none where a value is not finite. -/
def State.estInput (s : State) (p : PriorRecord) (composed : List Word) : Option EstInput :=
  let chains := s.estChains
  let n := s.estParams
  let dim := n + 3 * chains.length + 15
  match wordFixes (p.mu ++ p.tail), compositionOf composed, s.gravity, (ofWord32 (s.setting 8 4)).fix?,
      wordFixes [Config.biasSigma 0, Config.biasSigma 1], allSome (chains.map (fun c => (s.legFoot c).map (fun f => (c, f)))) with
  | some v, some c, some g, some fs, some b, some legs =>
    let tail := v.drop p.mu.length
    let mu := v.take p.mu.length
    some { chains := legs, params := mu.take n, feet := splitBy (chains.map (fun _ => 3)) (mu.drop n),
           anchor := (mu.drop (n + 3 * chains.length)).take 16, diag := tail.take dim, lower := tail.drop dim, comp := c,
           gravity := g, footSigma := fs, biasSigma := (fixAt b 0, fixAt b 1) }
  | _, _, _, _, _, _ => none

/-- The current NAV as step 2 takes it. -/
def EstInput.predicted (x : EstInput) : List Fix :=
  let a := x.anchor
  let t := x.comp.term
  let d := x.comp.dt
  let g := gravityOf x.gravity
  let r (v : List Fix) : List Fix := geomRot (navQ a) v
  quatMul (navQ a) t.dr ++ vecAdd (vecAdd (navV a) (vecScale d g)) (r t.dv) ++
    vecAdd (vecAdd (vecAdd (navP a) (vecScale d (navV a))) ((vecScale (fixMul d d) g).map fixHalf)) (r t.dp) ++ navB a

/-! ### Step 3 -/

/-- Rows placed among the columns of the trailing block: pieces of a Jacobian's columns, each with its place. -/
def placeRows (dims : Nat) (j : List (List Fix)) (parts : List (Nat × Nat)) : List (List Fix) :=
  j.map (fun r => (parts.foldl (fun (x : List Fix × List Fix) e => (splice x.1 e.1 (x.2.take e.2), x.2.drop e.2)) (mkVec dims (fun _ => 0), r)).1)

/-- The factors of step 3 at the linearisation point, each with the columns of its blocks: the IMU factor between anchor and current NAV,
and a LEG_CONTACT factor of each qualifying chain. None where a whitening does not exist. -/
def EstInput.factors (x : EstInput) : Option (List (FactorRows × List (Nat × Nat))) :=
  let feet := 3 * x.feet.length
  let now := x.predicted
  let imu := (whitenImu x.comp x.biasSigma.1 x.biasSigma.2).bind (fun w =>
    ((FactorForm.imu x.comp (navB x.anchor) x.gravity).rows [0, 0] [15, 15] w 0 [x.anchor, now]).map (fun r => (r, [(feet, 15), (feet + 15, 15)])))
  let legs := x.chains.zipIdx.filterMap (fun c => c.1.2.map (fun foot => (whitenSigma 3 x.footSigma).bind (fun w =>
    ((FactorForm.leg foot).rows [0, 2] [15, 3] w 0 [now, x.feet.getD c.2 []]).map (fun r => (r, [(feet + 15, 15), (3 * c.2, 3)])))))
  match imu, allSome legs with
  | some i, some l => some (i :: l)
  | _, _ => none

/-- The rows of a factor in FP32, as they stand in the trailing block, and its residual. -/
def rowsInBlock (dims : Nat) (err : Nat → BitVec 64) (f : FactorRows × List (Nat × Nat)) : List (List Fix) × List Fix :=
  let w := ((wordFixes (f.1.words err)).getD [])
  let cols := (f.2.map (·.2)).sum
  let n := f.1.residual.length
  (placeRows dims ((List.range n).map (fun i => (w.drop (cols * i)).take cols)) f.2, w.drop (cols * n))

/-! ### Step 4 -/

/-- A dense structure of n pivots in their own order, every expected sign positive. -/
def denseStructure (n : Nat) : Structure :=
  { kind := 0, flags := 0, n := n, n1 := n, nnzK := 0, nnzL := 0, supernodes := 1, segs := [], signature := 0, inputWords := 0,
    deltaCap := 0, colPtr := [], rows := [], perm := List.range n, starts := [0], template := [],
    below := (List.range n).map (fun j => (List.range (n - 1 - j)).map (· + j + 1)), ops := 0, height := 0, nnzA := 0 }

/-- The prior's trailing factor as a matrix on the feet and the anchor, zero on the current NAV. -/
def EstInput.priorBlock (x : EstInput) (i j : Nat) : Fix :=
  let p := x.params.length
  let most := 3 * x.feet.length + 15
  if most ≤ i ∨ most ≤ j then 0
  else (List.range (min i j + 1)).foldl (fun t k => t + fixMul (fixMul (x.l (p + i) (p + k)) (fixAt x.diag (p + k))) (x.l (p + j) (p + k))) 0

/-- The trailing matrix with JᵀJ added, FP32, and −g, FP64. -/
def EstInput.system (x : EstInput) (err : Nat → BitVec 64) (rows : List (List Fix)) (res : List Fix) : Matrix × List Fp :=
  let n := x.dims
  let cols := matTrans n rows
  let col (i : Nat) : List Fix := cols.getD i []
  ((List.range n).flatMap (fun j => (List.range (n - j)).map (fun k =>
      let i := j + k
      let v := x.priorBlock i j + vecDot (col i) (col j)
      (i, j, ofWord32 (nudgedWord v v (err (n * i + j)).toNat).toNat))),
   (List.range n).map (fun i =>
      let g := vecDot (col i) res
      fp64.round (fixToRat (fixNudge (-g) g (err (n * n + i)).toNat)) false))

/-- How an update's step ends. -/
inductive EstStep where
  /-- Steps 4 and 5 pass: the increments of the trailing block. -/
  | done (delta : List Fp)
  /-- Step 4 fails: a pivot, or rows that cannot be formed. -/
  | failed
  /-- Step 5 fails: the residual check. -/
  | unchecked
  deriving DecidableEq, Repr

/-- Steps 3 to 5. -/
def State.estStep (s : State) (x : EstInput) (bits : List Nat) : EstStep :=
  match x.factors with
  | none => .failed
  | some fs =>
    let rows := fs.zipIdx.map (fun f => rowsInBlock x.dims (fun i => Config.solverError 6 bits (2 ^ 16 * f.2 + i)) f.1)
    let (m, rhs) := x.system (fun i => Config.solverError 7 bits i) (rows.flatMap (·.1)) (rows.flatMap (·.2))
    let t := denseStructure x.dims
    match t.factorise m [] (s.fld (fld_SOLV_CFG_PIVOT_EXP 0)) with
    | .error _ => .failed
    | .ok f =>
      let v : Solve := ⟨m, f, rhs, t.solve f rhs⟩
      if v.etaCheck.le (tolerance (s.fld (fld_SOLV_CFG_CHECK_EXP 0))) then .done v.sol else .unchecked

/-- The parameter increments by back-substitution through the prior's L: x_i = RNE_FP32(0 − Σ L_ki x_k) over ascending k > i. -/
def EstInput.paramSteps (x : EstInput) (delta : List Fp) : List Fp :=
  let p := x.params.length
  let entry (k i : Nat) : Fp := Fp.ofRat (fixToRat (x.l k i))
  (List.range p).foldl (fun later q =>
    let i := p - 1 - q
    toFp32 ((later.zipIdx).foldl (fun acc e => lessProduct acc (entry (i + 1 + e.2) i) e.1) Fp.zero) :: later)
    (delta.take (3 * x.feet.length + 15))

/-! ### The record -/

/-- The state a record shows: the current NAV and the feet. -/
structure EstResult where
  nav : List Fix
  feet : List (List Fix)
  deriving DecidableEq, Repr

/-- Step 6: the increments applied. -/
def EstInput.moved (x : EstInput) (delta : List Fp) : Option EstResult :=
  (fixes delta).map (fun d =>
    { nav := blockMove 0 x.predicted (d.drop (3 * x.feet.length + 15)),
      feet := x.feet.zipIdx.map (fun f => vecAdd f.1 ((d.drop (3 * f.2)).take 3)) })

/-- The parameters after step 6. -/
def EstInput.movedParams (x : EstInput) (delta : List Fp) : List Fix :=
  match fixes ((x.paramSteps delta).take x.params.length) with
  | some d => vecAdd x.params d
  | none => x.params

/-- Words 0 to 51 of a record (Table 12.3), each rounded once to FP32. `omega` is the newest sample, none without one. -/
def EstResult.words (err : Nat → BitVec 64) (chains : List Nat) (omega : Option (List Fix)) (r : EstResult) : List Word :=
  let part (l : List Fix) : List (Fix × Fix) := l.map (fun v => (v, fixMost l))
  let w := match omega with | some w => vecSub w ((navB r.nav).take 3) | none => [0, 0, 0]
  let feet := (List.range 8).flatMap (fun c =>
    match chains.findIdx? (· == c) with | some i => part (r.feet.getD i [0, 0, 0]) | none => part [0, 0, 0])
  wordsBy err (part (navQ r.nav) ++ part (geomMat (navQ r.nav)).flatten ++ part (navP r.nav) ++ part (navV r.nav)) ++
    (match omega with | some _ => wordsBy (fun i => err (100 + i)) (part w) | none => [0, 0, 0]) ++
    wordsBy (fun i => err (200 + i)) (part ((navB r.nav).take 3) ++ part ((navB r.nav).drop 3)) ++
    (feet.zipIdx.map (fun x => if x.1.1 = 0 then 0 else nudgedWord x.1.1 x.1.2 (err (300 + x.2)).toNat))

/-- ω of the propagating IMU's newest sample, in the body frame. -/
def State.newestRate (s : State) (sample : Option (Nat × List Byte)) : Option (List Fix) :=
  sample.bind (fun v => (s.imuAxes v.1 v.2).map (·.1))

/-- The previous record advanced over a period (R431): by its v, its ω, and constant velocity. -/
def advanceWords (err : Nat → BitVec 64) (old : List Word) (dt : Fix) : Option (List Word) :=
  (wordFixes (old.take 52)).map (fun v =>
    let q := quatMul (v.take 4) (so3Exp (vecScale dt ((v.drop 19).take 3)))
    let p := vecAdd ((v.drop 13).take 3) (vecScale dt ((v.drop 16).take 3))
    let part (l : List Fix) : List (Fix × Fix) := l.map (fun x => (x, fixMost l))
    wordsBy err (part q ++ part (geomMat q).flatten ++ part p) ++ (old.take 52).drop 16)

end Sys2Proof.Machine
end

