-- ==== Sys2Proof/Machine/ObjectTracks.lean ====
section
/-!
DEFINITION. Object tracks (R358 to R363): placing detections, the assignment unit, and the update of the table.
-/
namespace Sys2Proof.Machine

/-- One object track slot. -/
def State.objectTrack (s : State) (slot : Nat) : ObjectTrack := Store.get ObjectTrack.reset s.track.objects slot
def State.setObjectTrack (s : State) (slot : Nat) (v : ObjectTrack) : State :=
  { s with track := { s.track with objects := Store.set ObjectTrack.reset s.track.objects slot v } }

def objTentative : Nat := 1
def objConfirmed : Nat := 2
def objCoasting : Nat := 3

/-- Slots of tracks that are not free, ascending. -/
def State.objectSlots (s : State) : List Nat := (s.track.objects.filter (fun e => e.2.state != 0)).map (·.1)

/-! ### The assignment unit (R361) -/

/-- The least cost, less what all rows and columns unmatched would cost, of assigning rows to columns not used, and the least
assignment in lexicographic order that reaches it, "unmatched" after every column. A row holds the cost of each column where
the pair is gated; U is G/2. -/
def assign (u : Nat) : List (List (Option Nat)) → List Nat → Int × List (Option Nat)
  | [], _ => (0, [])
  | row :: rest, used =>
    let free := assign u rest used
    let choices := (row.zipIdx).filterMap (fun e =>
      match e.1 with
      | some c =>
        if used.contains e.2 then none
        else
          let r := assign u rest (e.2 :: used)
          some ((c : Int) - 2 * u + r.1, some e.2 :: r.2)
      | none => none)
    (choices ++ [(free.1, none :: free.2)]).foldl
      (fun (best : Int × List (Option Nat)) x => if x.1 < best.1 then x else best)
      (match choices with | c :: _ => c | [] => (free.1, none :: free.2))

/-- G and U (R360, R361). -/
def State.gateG (s : State) : Nat := 16 * s.fld fld_OT_CFG_0_GATE
def State.gateU (s : State) : Nat := 8 * s.fld fld_OT_CFG_0_GATE

/-- Keep at most n of a list by a rank, the earlier among equals, in the list's order. -/
def keepBest {α : Type} [BEq α] (n : Nat) (better : α → α → Bool) (l : List α) : List α :=
  let best := (sortBy better l).take n
  l.filter (fun x => best.contains x)

/-! ### Placing detections -/

/-- Whether a detection has a range (R359, step 1). -/
def State.hasRange (s : State) (u : TrackUpdate) (r : List Byte) : Bool :=
  let o := s.objectSet u.set
  let range := field r 0x14 4
  if range % 2 ^ 31 ≠ 0 then true
  else
    let q (off : Nat) : Nat := match (ofWord32 (field r off 4)).rat? with | some v => ((v * 65536).floor % 2 ^ 32).toNat | none => 2 ^ 31
    (s.depthAt u o.stream o.transform o.disparity noBuffer 0 0 false (q 4) (q 8)).isSome

/-- Whether a time of validity lies before the pose history (R359, step 3); an empty history holds no pose for any time. -/
def State.tooOld (s : State) (tov : Int) : Bool :=
  match s.track.poses with
  | [] => true
  | p :: _ => decide (tov < (p.tov : Int))

/-- Whether it lies after the newest pose. -/
def State.extrapolates (s : State) (tov : Int) : Bool :=
  match s.track.poses.getLast? with
  | some p => decide ((p.tov : Int) < tov)
  | none => false

/-- An entry of the pose history as a pose, and its velocities. -/
def PoseEntry.fixes? (p : PoseEntry) : Option (List Fix × List Fix) :=
  match wordFixes p.pose, wordFixes p.velocity with
  | some a, some v => some (vecUnit (a.take 4) ++ a.drop 4, v)
  | _, _ => none

/-- The body pose at a time that is not too old (R359, step 3): between two entries by slerp and linearly, after the newest by its
velocities. None where a value is not finite. -/
def State.poseAt (s : State) (tov : Int) : Option (List Fix) :=
  match ((s.track.poses.filter (fun p => decide ((p.tov : Int) ≤ tov))).getLast?), s.track.poses.find? (fun p => decide (tov < (p.tov : Int))) with
  | some a, some b =>
    match a.fixes?, b.fixes? with
    | some x, some y =>
      let k := fixDiv (tov - a.tov) ((b.tov : Int) - a.tov)
      let turn := so3Log (quatMul (quatConj (x.1.take 4)) (y.1.take 4))
      some (quatMul (x.1.take 4) (so3Exp (vecScale k turn)) ++ vecAdd (x.1.drop 4) (vecScale k (vecSub (y.1.drop 4) (x.1.drop 4))))
    | _, _ => none
  | some a, none =>
    (a.fixes?).map (fun x =>
      let d := fixSeconds (tov - a.tov)
      quatMul (x.1.take 4) (so3Exp (vecScale d (x.2.drop 3))) ++ vecAdd (x.1.drop 4) (vecScale d (x.2.take 3)))
  | none, _ => none

/-- The pose of a set's camera in the map frame. -/
def State.cameraAt (s : State) (o : ObjectSet) (tov : Int) : Option (List Fix) :=
  match s.poseAt tov, s.transformPose o.transform with
  | some b, some c => some (poseMul b c)
  | _, _ => none

/-- Z of a detection (R359, step 1). -/
def State.rangeOf (s : State) (u : TrackUpdate) (r : List Byte) : Option Fix :=
  let o := s.objectSet u.set
  let range := field r 0x14 4
  if range % 2 ^ 31 ≠ 0 then (ofWord32 range).fix?
  else
    let q (off : Nat) : Nat := match (ofWord32 (field r off 4)).rat? with | some v => ((v * 65536).floor % 2 ^ 32).toNat | none => 2 ^ 31
    match s.depthAt u o.stream o.transform o.disparity noBuffer 0 0 false (q 4) (q 8) with
    | some (rho, _) => (divRat (some 1) rho).map fixRat
    | none => none

/-- A detection in the map frame, with the measurement covariance (R359, steps 2 to 4). -/
def State.placeOf (s : State) (u : TrackUpdate) (r : List Byte) : Option (List Fix × List (List Fix)) :=
  let o := s.objectSet u.set
  match s.rangeOf u r, s.intrinsics o.transform, s.cameraAt o u.tov, fixes (fp32At r 4 2) with
  | some z, some k, some pose, some uv =>
    let p := vecScale z (pixelRay k (fixAt uv 0) (fixAt uv 1))
    let side := fixDiv (z * (s.fld fld_OT_CFG_1_PIX_SIGMA : Int)) (16 * fixAt k 0)
    let deep := z * (s.fld fld_OT_CFG_1_RANGE_REL : Int) / 256
    let m := quatMat (pose.take 4)
    let d := matDiag ([side, side, deep].map (fun x => fixMul x x))
    some (vecAdd (matVec m p) (pose.drop 4), matMul 3 (matMul 3 m d) (matTrans 3 m))
  | _, _, _, _ => none

/-- A row of an update: a detection with a range, placed; its place and covariance are free where a value is not finite. -/
def State.placeRow (s : State) (u : TrackUpdate) (e : List Byte × Nat) : Detection × State :=
  let v := s.placeOf u e.1
  let (p, s) := s.roundVec 3 (v.map (·.1))
  let (r, s) := s.roundEach 9 (v.map (fun v => v.2.flatten))
  (⟨e.2, field e.1 0 2, field e.1 2 2, BitVec.ofNat 32 (field e.1 0x18 4), s.extrapolates u.tov, p, r⟩, s)

/-- The rows of a list of detections. -/
def State.placeRows (s : State) (u : TrackUpdate) : List (List Byte × Nat) → List Detection × State
  | [] => ([], s)
  | e :: r =>
    let (d, s) := s.placeRow u e
    let (l, s) := State.placeRows s u r
    (d :: l, s)

/-- The rows of an update: detections that can be placed, at most 256, with what is counted (R359, R361). -/
def State.placeDetections (s : State) (u : TrackUpdate) : List Detection × State :=
  let o := s.objectSet u.set
  let l := (s.updateList u 0 o.detections).zipIdx.filter (fun e => field e.1 0 2 != 0)
  let noDepth := l.filter (fun e => !s.hasRange u e.1)
  let ranged := l.filter (fun e => s.hasRange u e.1)
  let s := s.addSat fld_OT_LOSS_NO_DEPTH noDepth.length
  if s.tooOld u.tov then ([], s.addSat fld_OT_LOSS_OLD_OLD ranged.length)
  else
    let kept := keepBest 256 (fun a b => decide (field b.1 2 2 < field a.1 2 2)) ranged
    let (rows, s) := s.placeRows u kept
    (rows, s.addSat fld_OT_LOSS_TRUNC (ranged.length - kept.length))

/-! ### Prediction and cost (R360) -/

/-- A matrix of r rows and c columns from its values by rows. -/
def unflatten (r c : Nat) (l : List Fix) : List (List Fix) := mkMat r c (fun i j => fixAt l (c * i + j))

/-- A track predicted to a time with constant velocity: its state and covariance. -/
def State.predictTrack (s : State) (t : ObjectTrack) (tov : Int) : Option (List Fix × List (List Fix)) :=
  match wordFixes t.pv, wordFixes t.cov with
  | some x, some p =>
    let d := fixSeconds (tov - t.updated)
    let i := matId 3
    let f := blocks3 [[i, matScale d i], [matZero 3 3, i]]
    let acc : Fix := (s.fld fld_OT_CFG_1_ACC_SIGMA : Int) * fixOne / 16
    let q (k : Fix) := matScale (fixMul (fixMul acc acc) k) i
    let d2 := fixMul d d
    let noise := blocks3 [[q (fixMul d2 d / 3), q (d2 / 2)], [q (d2 / 2), q d]]
    some (matVec f x, matAdd (matMul 6 (matMul 6 f (unflatten 6 6 p)) (matTrans 6 f)) noise)
  | _, _ => none

/-- The position block of a covariance. -/
def positionBlock (p : List (List Fix)) : List (List Fix) := (p.take 3).map (·.take 3)

/-- What a detection adds to a predicted track: its residual, and S inverted; none where a value is not finite or S is singular. -/
def innovation (x : List Fix) (p : List (List Fix)) (d : Detection) : Option (List Fix × List (List Fix)) :=
  match wordFixes d.place, wordFixes d.noise with
  | some z, some r =>
    let m := matAdd (positionBlock p) (unflatten 3 3 r)
    if det3 m = 0 then none else some (vecSub z (x.take 3), inv3 m)
  | _, _ => none

/-- d² of a track and a detection. -/
def State.distance2 (s : State) (t : ObjectTrack) (d : Detection) (tov : Int) : Option Fix :=
  (s.predictTrack t tov).bind (fun x => (innovation x.1 x.2 d).map (fun e => vecDot e.1 (matVec e.2 e.1)))

/-- c of a pair: 256 d² rounded half away from zero; free where d² is not a number. -/
def State.pairCost (s : State) (t : ObjectTrack) (d : Detection) (tov : Int) : Nat × State :=
  let (w, s) := s.takeWord
  match s.distance2 t d tov with
  | some v => (((2 * 256 * fixNudge v v w.toNat + fixOne) / (2 * fixOne)).toNat, s)
  | none => (w.toNat % 65536, s)

/-- The costs of an update's pairs: c for each track of the detection's class, where it is below G. -/
def State.pairCosts (s : State) (slots : List Nat) (tov : Int) : List Detection → List (List (Option Nat)) × State
  | [] => ([], s)
  | d :: r =>
    let (row, s) := slots.foldl (fun (x : List (Option Nat) × State) k =>
      let (c, s) := x.2.pairCost (s.objectTrack k) d tov
      (x.1 ++ [if (s.objectTrack k).cls = d.cls ∧ c < s.gateG then some c else none], s)) ([], s)
    let (rest, s) := State.pairCosts s slots tov r
    (row :: rest, s)

/-- The least cost of a column, where it has a gated row. -/
def columnBest (costs : List (List (Option Nat))) (k : Nat) : Option Nat :=
  costs.foldl (fun (b : Option Nat) row =>
    match (row[k]?).join, b with
    | some c, some x => some (min c x)
    | some c, none => some c
    | none, b => b) none

/-- The assignment of an update: rows, and the slot each row takes (R361). -/
def State.runAssignment (s : State) (u : TrackUpdate) : State :=
  let (rows, s) := s.placeDetections u
  let slots := s.objectSlots
  let (costs, s) := s.pairCosts slots u.tov rows
  let cols := (slots.zipIdx).filterMap (fun e => (columnBest costs e.2).map (fun c => (e.1, e.2, c)))
  let kept := keepBest 256 (fun a b => decide (a.2.2 < b.2.2)) cols
  let s := s.addSat fld_OT_LOSS_TRUNC (cols.length - kept.length)
  let matrix := costs.map (fun row => kept.map (fun c => (row[c.2.1]?).join))
  let pairs := (assign s.gateU matrix []).2.map (fun c => c.bind (fun k => (kept[k]?).map (·.1)))
  s.changeUpdate u (fun v => { v with rows := rows, pairs := some pairs })

/-- ASSIGNMENT_DONE (R361): the unit has worked for `us` µs. -/
def execAssignmentDone (set : Fin 8) (us : Nat) (s : State) : Host.Outcome State Fault Refusal :=
  match s.trackUpdate true set with
  | some u =>
    if s.swatchRuns trackSwatch ∧ u.pairs.isNone = true then .next ((s.raiseMax fld_OT_WORST_WORST_US us).runAssignment u)
    else .next s
  | none => .next s

/-! ### The update of the table (R362) -/

/-- Free a track. -/
def State.freeObject (s : State) (slot : Nat) : State :=
  (s.setObjectTrack slot { ObjectTrack.reset with reuse := (s.objectTrack slot).reuse }).addWrap fld_OT_COUNTS_FREED 1

/-- The Kalman update of a predicted track by a detection. -/
def kalmanUpdate (x : List Fix) (p : List (List Fix)) (d : Detection) : Option (List Fix × List (List Fix)) :=
  (innovation x p d).map (fun e =>
    let gain := matMul 3 (p.map (·.take 3)) e.2
    (vecAdd x (matVec gain e.1), matSub p (matMul 6 gain (p.take 3))))

/-- Give a track a state and covariance of a time. -/
def State.setEstimate (s : State) (slot : Nat) (v : Option (List Fix × List (List Fix))) (tov : Int) : State :=
  let (p, s) := s.roundVec 3 (v.map (fun v => v.1.take 3))
  let (w, s) := s.roundVec 3 (v.map (fun v => v.1.drop 3))
  let (c, s) := s.roundEach 36 (v.map (fun v => v.2.flatten))
  s.setObjectTrack slot { s.objectTrack slot with pv := p ++ w, cov := c, updated := tov }

/-- A matched track (R362). A COASTING track that is matched is CONFIRMED again. -/
def State.matchTrack (s : State) (u : TrackUpdate) (d : Detection) (slot : Nat) : State :=
  let t := s.objectTrack slot
  let s := s.setEstimate slot ((s.predictTrack t u.tov).bind (fun x => kalmanUpdate x.1 x.2 d)) u.tov
  let hits := t.hits + 1
  let state := if t.state = objTentative ∧ hits < max 1 (s.fld fld_OT_CFG_0_CONFIRM) then objTentative else objConfirmed
  s.setObjectTrack slot { s.objectTrack slot with state := state, hits := hits, score := d.score, extrap := d.extrap, size := d.size, tov := u.tov }

/-- An unmatched track of a matching class stands at its prediction (R360). -/
def State.advanceTrack (s : State) (u : TrackUpdate) (slot : Nat) : State :=
  let t := s.objectTrack slot
  if u.rows.any (fun d => d.cls == t.cls) then s.setEstimate slot (s.predictTrack t u.tov) u.tov else s

/-- The lowest free slot of the object table. -/
def State.freeObjectSlot (s : State) : Option Nat := (List.range 1024).find? (fun k => (s.objectTrack k).state == 0)

/-- An unmatched detection may start a track at its place (R362), whose covariance is the measurement's. -/
def State.birthObject (s : State) (u : TrackUpdate) (d : Detection) : State :=
  if d.score < 256 * s.fld fld_OT_CFG_0_BIRTH_SCORE then s
  else
    match s.freeObjectSlot with
    | none => s
    | some slot =>
      let v : Rat := (s.fld fld_OT_CFG_1_VEL_SIGMA0 : Rat) / 16
      let var := BitVec.ofNat 32 (toWord32 (.num (v * v) false))
      let cov := (List.range 36).map (fun i =>
        if i / 6 < 3 ∧ i % 6 < 3 then d.noise.getD (i / 6 * 3 + i % 6) 0 else if i / 6 = i % 6 then var else (0 : Word))
      let t : ObjectTrack := ⟨((s.objectTrack slot).reuse + 1) % 65536, objTentative, d.cls, d.score, 1, d.extrap, d.place ++ [0, 0, 0], cov, d.size, u.tov, u.tov⟩
      (s.setObjectTrack slot t).addWrap fld_OT_COUNTS_BORN 1

/-- Whether a track's predicted position projects inside the image of a set's camera (R362): plane 0 of its stream. None where the
camera's pose is not known or a value is not finite. -/
def State.inView (s : State) (u : TrackUpdate) (slot : Nat) : Option Bool :=
  let o := s.objectSet u.set
  match s.predictTrack (s.objectTrack slot) u.tov, s.cameraAt o u.tov, s.intrinsics o.transform with
  | some x, some pose, some k =>
    match projectPixel k (matVec (quatMat (quatConj (pose.take 4))) (vecSub (x.1.take 3) (pose.drop 4))) with
    | some (px, py) => some (decide (0 ≤ px) && decide (px < fixNat (s.streamWidth o.stream)) && decide (0 ≤ py) && decide (py < fixNat (s.streamHeight o.stream)))
    | none => some false
  | _, _, _ => none

/-- An unmatched track (R362): in view, it is freed or coasts. Whether it is in view is free where nothing tells. -/
def State.missObject (s : State) (u : TrackUpdate) (slot : Nat) : State :=
  let (open_, s) := s.takeBit
  let t := s.objectTrack slot
  if (s.inView u slot).getD open_ then
    if t.state = objTentative then s.freeObject slot
    else if t.state = objConfirmed then s.setObjectTrack slot { t with state := objCoasting }
    else s
  else s

/-- Free the tracks that have coasted too long (R362). -/
def State.dropOld (s : State) (tov : Int) : State :=
  let limit : Int := usStamp (10000 * s.fld fld_OT_CFG_0_MAX_COAST)
  s.objectSlots.foldl (fun s k =>
    let t := s.objectTrack k
    if (t.state = objCoasting ∨ t.state = objConfirmed) ∧ t.tov + limit < tov then s.freeObject k else s) s

/-- The square root of the trace of a track's position covariance. -/
def ObjectTrack.spread (t : ObjectTrack) : Option Fix :=
  (wordFixes ([0, 7, 14].map (fun i => t.cov.getD i 0))).map (fun l => fixSqrt (fixAt l 0 + fixAt l 1 + fixAt l 2))

/-- A record of the object batch (R362). -/
def State.objectRecord (s : State) (slot : Nat) : List Byte × State :=
  let t := s.objectTrack slot
  let (tr, s) := s.roundEach 1 (t.spread.map (fun v => [v]))
  (toLe 4 (slot + t.reuse % 65536 * 65536) ++ toLe 2 t.cls ++ toLe 1 t.state ++ toLe 1 (if t.extrap then 1 else 0) ++
    (List.range 6).flatMap (fun i => wordBytes (t.pv.getD i 0)) ++ tr.flatMap wordBytes ++ wordBytes t.size ++ tov12 t.tov ++ toLe 2 t.hits ++ toLe 10 0, s)

/-- Publish the object batch (R362). -/
def State.writeObjects (s : State) (u : TrackUpdate) : State :=
  let o := s.objectSet u.set
  let bufs := [o.detections, o.disparity]
  let slots := s.objectSlots.filter (fun k => decide (objConfirmed ≤ (s.objectTrack k).state))
  let (l, s) := slots.foldl (fun (x : List Byte × State) k =>
    let (r, s) := x.2.objectRecord k
    (x.1 ++ r, s)) ([], s)
  let fl := s.updateFlags u bufs
  let flags := fl % 8 + (if bit fl 3 then 16 else 0)
  s.publishBatch true u.set (batchHeader u.set flags slots.length 0 u.tov (s.updateAge u bufs none) 0 ++ l)

/-- CONFIRMED and USED (R371). -/
def State.countObjects (s : State) : State :=
  let l := s.track.objects.filter (fun e => e.2.state != 0)
  (s.setFld fld_OT_STATUS_CONFIRMED (l.filter (fun e => e.2.state == objConfirmed)).length).setFld fld_OT_STATUS_USED l.length

/-- The whole of an update of an object set after its assignment (R362). -/
def State.runObjectUpdate (s : State) (u : TrackUpdate) (pairs : List (Option Nat)) : State :=
  let before := s.objectSlots
  let taken := pairs.filterMap id
  let s := (u.rows.zip pairs).foldl (fun s e => match e.2 with | some k => s.matchTrack u e.1 k | none => s) s
  let s := (u.rows.zip pairs).foldl (fun s e => match e.2 with | none => s.birthObject u e.1 | some _ => s) s
  let s := (before.filter (fun k => !taken.contains k)).foldl (fun s k => (s.missObject u k).advanceTrack u k) s
  let s := (s.dropOld u.tov).writeObjects u
  let s := s.putSetState true u.set { s.setState true u.set with lastTov := some u.tov }
  ((s.closeUpdate u false).startNext true u.set).countObjects

/-- OBJECT_UPDATE_DONE (R362), once the assignment unit has answered. -/
def execObjectUpdateDone (set : Fin 8) (s : State) : Host.Outcome State Fault Refusal :=
  match s.trackUpdate true set with
  | some u =>
    match u.pairs with
    | some pairs => if s.swatchRuns trackSwatch then .next (s.runObjectUpdate u pairs) else .next s
    | none => .next s
  | none => .next s

/-! ### Poses and resets -/

/-- A pose joins the history, which holds the newest 256 (R359). -/
def State.addPose (s : State) (p : PoseEntry) : State :=
  let l := s.track.poses ++ [p]
  { s with track := { s.track with poses := l.drop (l.length - 256) } }.setFlag fld_TF_STATUS_POSE_VALID true

/-- Whether an agent is one of tracking and fusion (R207, R337). -/
def isTrackAgent (agent : Nat) : Bool := agent / 0x1000 == 3

/-- What FRAME does with one marker as group 5 enters reset (R363). -/
def State.clearTrackAgents (s : State) (m : Nat) : State :=
  let gone (slot : Nat) : Bool := s.producer m != 0 && isTrackAgent (s.slotAgent m slot)
  let k := s.marker m
  let s := s.setMarker m { k with readers := k.readers.filter (fun i => !gone i), waiting := k.waiting.filter (fun w => !gone w.slot) }
  if isTrackAgent (s.producer m) ∧ (s.marker m).state = .writing then s.orProto m (s.producer m) (s.abandonOp m (s.producer m)) else s

/-- Group 5 enters reset (R363): every READERS bit of its agents is cleared, their waiting requests are cancelled, what they hold in
WRITING is abandoned, and its state is lost. -/
def State.resetTracking (s : State) : State :=
  let s := (s.vis.markers.map (·.1)).foldl State.clearTrackAgents s
  { s with track := Tracking.reset }

end Sys2Proof.Machine
end

