-- ==== Sys2Proof/Machine/ClassAWork.lean ====
section
/-!
DEFINITION. The Class A work of a period: the input cut-off, the terms, the estimator update, the request, and the stops of its
problem (R38, R345, R401 to R405, R418, R431, R432, R437).
-/
namespace Sys2Proof.Machine

/-! ### The cut-off -/

/-- Adopt the offered prior where it was published before the cut-off, is newer, and its anchor is young enough (R431). -/
def State.adoptPrior (s : State) (k : Nat) (c : Stamp) : Bool × State :=
  match s.clsA.offered with
  | none => (false, s)
  | some (p, at_) =>
    if c ≤ at_ then (false, s)
    else
      let newer := match s.clsA.prior with | some q => decide (q.period < p.period) | none => true
      if newer && decide (k - p.period ≤ s.setting 0x0C 1) then
        (true, s.setClassA { s.clsA with prior := some p, offered := none })
      else (false, s.setClassA { s.clsA with offered := none })

/-- No work of an earlier period is unfinished. -/
def State.workFree (s : State) : Bool := match s.clsA.work with | some w => w.built | none => true

/-- The cut-off of period k at c (R30, R38, R140, R431, R493). -/
def State.closeInputs (s : State) (k : Nat) (c : Stamp) : State :=
  let s := (s.strobePath .cutoff c).noteCutoff c
  let (adopted, s) := s.adoptPrior k c
  let s := (s.takeTargets c).discardDeltas c s.clsA.slot
  { s with
    loop := { s.loop with cutoffDone := true },
    clsA := { s.clsA with work := some ⟨k, c, s.loop.launchAt, adopted, false, 0, [], false, none, false, false, false,
                                        s.flag fld_TIME_STATUS_CLOCK_FAULT, s.brown⟩ },
    solv := { s.solv with formed := [], stopPoint := none } }

/-- INPUT_CUTOFF (R38). -/
def execInputCutoff (s : State) : Host.Outcome State Fault Refusal :=
  if s.alive ∧ s.loopRunning ∧ s.loop.cutoffDone = false ∧ s.workFree then
    .next ((s.advanceTo s.loop.cutoffAt).closeInputs s.periodNumber s.loop.cutoffAt)
  else .next s

/-! ### The terms -/

/-- A term has the PROPAGATING flag. -/
def termPropagates (t : List Byte) : Bool := bit (field t 1 1) 2

/-- The stored terms of periods a + 1 to k, where all are there. -/
def termsFrom (terms : List StoredTerm) (a k : Nat) : Option (List StoredTerm) :=
  allSome ((List.range (k - a)).map (fun i => terms.find? (fun t => t.period == a + 1 + i)))

/-- The biases a term is formed with (R345): those of the estimate record before. -/
def State.termBias (s : State) : List Word := (s.clsA.words.drop 22).take 6

/-- Period k's propagating term. -/
def State.propagatingTerm (s : State) (k : Nat) : Option StoredTerm := (s.track.terms.find? termPropagates).map (fun t => ⟨k, s.termBias, t⟩)

/-- Store period k's propagating term among the last 128, and compose: from the anchor on at an adoption, else added to the running
composition, which ends with a period without a term (R425, R431). -/
def State.storeTerm (s : State) (k : Nat) (adopted : Bool) : State :=
  let a := s.clsA
  let term := s.propagatingTerm k
  let terms := match term with
    | some t => (a.terms ++ [t]).drop (a.terms.length - 127)
    | none => a.terms
  let span := match a.prior, term with
    | some p, some t => if adopted then termsFrom terms p.period k else a.span.map (· ++ [t])
    | _, _ => none
  s.setClassA { a with terms := terms, span := span }

/-- The period's terms are published, if they have not been. -/
def State.propagate (s : State) (w : PeriodWork) : PeriodWork × State :=
  if w.propagated then (w, s)
  else
    let s := (s.publishTerms w.cutoff).storeTerm w.period w.adopted
    let w := { w with propagated := true }
    (w, { s with loop := { s.loop with brownSeen := s.brown } }.setWork w)

/-- IMU_PROPAGATION_DONE (R345 to R347, R351). -/
def execImuPropagationDone (s : State) : Host.Outcome State Fault Refusal :=
  match s.clsA.work with
  | some w => if s.swatchRuns trackSwatch then .next (s.propagate w).2 else .next s
  | none => .next s

/-! ### The estimate record (R418, R431) -/

/-- An integer held as FP32. -/
def wordOfNat (n : Nat) : Word := BitVec.ofNat 32 (toWord32 (fp32.round (n : Rat) false))

/-- The CONTACT flags of the leg terms, by chain. -/
def State.contactMask (s : State) : Nat :=
  s.track.legs.foldl (fun m t => if bit (field t 1 1) 1 then Nat.lor m (2 ^ field t 0 1) else m) 0

/-- Words n on, zeroed. -/
def zeroWords (l : List Word) (at_ n : Nat) : List Word := (List.range n).foldl (fun l i => setAt l (at_ + i) 0) l

/-- Chains 0 to 7 outside CHAINS. -/
def State.idleChains (s : State) : List Nat := (List.range 8).filter (fun c => !bit (s.setting 0 1) c)

/-- ω of the newest sample of the propagating IMU; none without one. -/
def State.estimateRate (s : State) : Option (List Fix) :=
  if s.track.terms.any termPropagates then
    s.newestRate (s.propagatingSample.map (fun v => (s.fld fld_TF_STATUS_PROP_IMU, v.raw)))
  else none

/-- Words 0 to 51 that the rules leave open, but for the feet outside CHAINS and ω without a propagating IMU. -/
def State.openEstimate (s : State) (err : Nat → BitVec 64) : List Word :=
  let l := openWords err 52
  let l := if s.track.terms.any termPropagates then l else zeroWords l 19 3
  s.idleChains.foldl (fun l c => zeroWords l (28 + 3 * c) 3) l

/-- What an update comes to: words 0 to 51, the parameters, and whether step 4 or step 5 failed. -/
structure EstOutcome where
  words : List Word
  params : List Word
  failed : Bool
  unchecked : Bool
  deriving DecidableEq, Repr

/-- Without a composition: the record before, advanced over the period (R431). -/
def State.withoutImu (s : State) (err : Nat → BitVec 64) (c : Stamp) : List Word :=
  let dt := fixSeconds ((c : Int) - s.termStart c)
  if s.clsA.words.isEmpty then s.openEstimate err else (advanceWords err s.clsA.words dt).getD (s.openEstimate err)

/-- The update over a composition (R431, steps 2 to 6); an abandoned one keeps the prediction. -/
def State.estimateOver (s : State) (err : Nat → BitVec 64) (p : PriorRecord) (composed : List Word) (bits : List Nat) (abandoned : Bool) : EstOutcome :=
  match s.estInput p composed with
  | none => ⟨s.openEstimate err, [], !abandoned, false⟩
  | some x =>
    let words (r : EstResult) : List Word := r.words err s.estChains s.estimateRate
    let still : EstResult := ⟨x.predicted, x.feet⟩
    if abandoned then ⟨words still, [], false, false⟩
    else match s.estStep x bits with
      | .done d =>
        match x.moved d with
        | some r => ⟨words r, vecBy (fun i => err (1000 + i)) 0 (some (x.movedParams d)), false, false⟩
        | none => ⟨words still, [], true, false⟩
      | .failed => ⟨words still, [], true, false⟩
      | .unchecked => ⟨words still, [], true, true⟩

/-- The update of a period (R431). -/
def State.estimate (s : State) (w : PeriodWork) (abandoned : Bool) : EstOutcome :=
  let bits (l : List Word) : List Nat := (l ++ s.clsA.words ++ s.track.legs.flatMap (fun t => toWords 12 t)).map (·.toNat)
  match s.clsA.prior, s.clsA.span with
  | none, _ => ⟨s.openEstimate (Config.solverError 6 (w.period :: bits [])), [], false, false⟩
  | some p, none => ⟨s.withoutImu (Config.solverError 6 (bits p.mu)) w.cutoff, [], false, false⟩
  | some p, some l =>
    let ref := (p.mu.drop (s.estParams + 3 * s.estChains.length + 10)).take 6
    let composed := composedWords ref l
    let b := bits (p.mu ++ p.tail ++ composed)
    s.estimateOver (Config.solverError 6 (0 :: b)) p composed b abandoned

/-- The flags of an update: NO_PRIOR, NO_IMU, EST_FAIL or UPDATED, and BROWN. -/
def estimateFlags (noPrior noImu failed abandoned brown : Bool) : Nat :=
  (if noPrior then 2 else if noImu then 4 else if abandoned then 0 else if failed then 8 else 1) + (if brown then 16 else 0)

/-- The earliest time of validity that goes into a record (R418): the anchor's, and those of the leg terms used. -/
def State.estimateTov (s : State) (c : Stamp) : Int :=
  match s.clsA.prior with
  | none => c
  | some p =>
    let used := s.track.legs.filter (fun t => bit (s.setting 0 1) (field t 0 1) && field t 1 1 % 8 == 3)
    used.foldl (fun m t => min m ((c : Int) - nsStamp (field t 4 4))) (p.anchor : Int)

/-- A failure of step 4 or 5 of R431 raises SOLVER_CHECK, and a failed check counts (R395). -/
def State.updateFails (s : State) (unchecked : Bool) : State :=
  (if unchecked then s.addSat (fld_SOLV_ERR_CHECK_FAIL 0) 1 else s).raiseFault faultSolverCheck (solverSwatch 0) (BitVec.ofNat 32 2)

/-- Publish the period's estimate record, the update being abandoned or run to its end (R418, R431). -/
def State.publishEstimate (s : State) (w : PeriodWork) (abandoned : Bool) : PeriodWork × State :=
  let noPrior := s.clsA.prior.isNone
  let noImu := !noPrior && s.clsA.span.isNone
  let r := s.estimate w abandoned
  let term := s.propagatingTerm w.period
  let s := if r.failed then s.updateFails r.unchecked else s
  let brown := w.brown || s.brown
  let flags := estimateFlags noPrior noImu r.failed abandoned brown
  let words := r.words ++ [wordOfNat s.contactMask, wordOfNat flags] ++ List.replicate 10 0
  let record := words.flatMap wordBytes
  let s := s.addPose ⟨w.cutoff, (words.take 4) ++ (words.drop 13).take 3, (words.drop 16).take 6⟩
  let s := s.noteEstimate ⟨w.period, w.cutoff, words, s.track.legs, term, flags⟩
  let s := s.offerPose w.period record brown w.suspect w.cutoff (ageNs s.stamp (s.estimateTov w.cutoff))
  let w := { w with flags := flags, words := words, published := true, brown := brown }
  (w, (s.setClassA { s.clsA with words := words, params := r.params }).setWork w)

/-! ### The request (R437) -/

/-- The time of 3,600 cycles of SOLV_1, at 450 MHz where it has no clock (R405). -/
def State.staggerStamp (s : State) : Stamp :=
  let m := s.mhz (solverSwatch 1)
  ceilDiv (3600 * 1000 * 2 ^ 16) (if m = 0 then 450 else m)

/-- The stop time of a period (R405, R437). -/
def State.stopTime (s : State) (w : PeriodWork) : Stamp :=
  w.launch - usStamp 12 - (if s.paired then s.staggerStamp else 0)

/-- The period's request; FEED_OBJ, DELTA_COUNT and WARM_OBJ name the Class A area, whose content goes beside it. -/
def State.classARequest (s : State) (w : PeriodWork) (k : Nat) : SolverRequest :=
  { slot := k, feed := s.fld fld_SOLV_A_CFG_FEED, flags := if s.clsA.held.isSome then 2 else 0, iterMax := s.setting 1 1,
    refactMax := 1, feedObj := 0, deltaCount := 0, warmObj := 0, deadline := s.stopTime w, tov := w.cutoff, params := [] }

/-- The template input area: the estimate record, CONST and the target record. Without a target record its words are 0. -/
def State.classAInputs (s : State) (w : PeriodWork) : List Word :=
  let n := s.setting 0x1C 2
  let target := s.links.target ++ List.replicate (n - s.links.target.length) 0
  w.words ++ toWords (s.setting 0x1A 2) (s.settingsBytes 0 |>.drop 0x40) ++ target.take n

/-- The delta entries of the lists published before the cut-off, in order of publication (R437). -/
def State.classADeltas (s : State) (w : PeriodWork) : List (Nat × Word) :=
  (s.links.deltas.filter (fun d => decide (d.published < w.cutoff))).flatMap (·.entries)

/-- What the problem is offered as its warm start: shift(held), or once the solution of another structure (R400, R438). -/
def State.classAWarm (s : State) : Option HeldSolution :=
  match s.clsA.held with
  | some h => some (shiftHeld (s.settingsBytes 0) h)
  | none => s.clsA.stale

/-- Start the period's problem on a core (R403, R437). -/
def State.startClassA (s : State) (w : PeriodWork) (c : Nat) : State :=
  match s.clsA.slot with
  | none => s
  | some k =>
    match s.structureOf c k with
    | none => s
    | some t =>
      let p := newProblem (s.classARequest w k) .classA w.period t (s.solverSlot c k).values s.stamp (w.brown || s.brown)
      let p := { p with inputs := s.classAInputs w, deltas := s.classADeltas w }
      let (p, s) := match s.classAWarm with
        | some h => s.useWarm c t h.signature h.iterate [] p
        | none => (p, s)
      s.setProblem c (some p)

/-- The cores of the Class A problem. -/
def State.classACores (s : State) : List Nat := if s.paired then [0, 1] else [0]

/-- Start the period's problem, SOLV_1 having given way (R403, R404). A period without a problem has its result at once. -/
def State.startPeriod (s : State) (w : PeriodWork) : State :=
  let s := if s.paired then s.suspendOther else s
  let s := s.classACores.foldl (fun s c => s.startClassA w c) s
  if (s.problem 0).isSome then s else (s.setWork { w with ready := true, compared := true }).resumeOther

/-- After the estimate: without a prior the QP does not run (Table 12.8). -/
def State.afterEstimate (s : State) (w : PeriodWork) : State :=
  if bit w.flags 1 then (s.setWork { w with ready := true, compared := true }).resumeOther else s.startPeriod w

/-- ESTIMATOR_UPDATE_DONE (R418, R431). -/
def execEstimatorUpdateDone (s : State) : Host.Outcome State Fault Refusal :=
  match s.clsA.work with
  | some w =>
    if w.propagated = false ∨ w.published ∨ s.swatchRuns (solverSwatch 0) = false then .next s
    else
      let (w, s) := s.publishEstimate w false
      .next (s.afterEstimate w)
  | none => .next s

/-! ### Stops (R401, R402, R405, R432) -/

/-- A core's Class A problem, with its structure. -/
def State.classAProblem (s : State) (c : Nat) : Option (Problem × Structure) :=
  match s.problem c with
  | some p => if p.task = .classA then (s.structureOf c p.request.slot).map (fun t => (p, t)) else none
  | none => none

/-- Stop a core's Class A problem where it stands (R401). -/
def State.stopClassA (s : State) (c : Nat) : State :=
  match s.classAProblem c with
  | some (p, t) => s.stopProblem c t p
  | none => s

/-- The stop reaches the estimator update: the record holds the prediction, and the QP ends DEADLINE_FACT in phase 1 (R432). -/
def State.abandonUpdate (s : State) (w : PeriodWork) : State :=
  let (w, s) := s.propagate w
  let (w, s) := s.publishEstimate w true
  let s := s.afterEstimate w
  s.classACores.foldl State.stopClassA s

/-- SOLV_0 reaches the stop time: it stops, and while paired sends its stop point (R405). -/
def State.stopTimeComes (s : State) (w : PeriodWork) : State :=
  if w.published = false then s.abandonUpdate w
  else
    match s.classAProblem 0 with
    | some (p, t) =>
      let s := if s.paired then
          { s with solv := { s.solv with stopPoint := some ⟨p.phase, p.steps, s.usedProved 0 t p, false⟩ } } else s
      s.stopProblem 0 t p
    | none => s

/-- Stop the Class B or Class C problem of SOLV_1, suspended or running, the present moment being its last (R401, R402). -/
def State.endOther (s : State) : State :=
  match s.solv.suspended, s.problem 1 with
  | some p, run =>
    match s.structureOf 1 p.request.slot with
    | some t =>
      let p := { p with waitNs := p.waitNs + (s.stamp - p.pausedAt) / 2 ^ 16 }
      ({ s with solv := { s.solv with suspended := none } }.stopProblem 1 t p).setProblem 1 run
    | none => s
  | none, some p =>
    match s.structureOf 1 p.request.slot with
    | some t => if p.task = .classA then s else s.stopProblem 1 t p
    | none => s
  | none, none => s

/-- The Class B or Class C problem that SOLV_1 runs or has suspended. -/
def State.otherProblem (s : State) : Option Problem :=
  match s.solv.suspended with
  | some p => some p
  | none => match s.problem 1 with | some p => if p.task = .classA then none else some p | none => none

/-- That problem reaches its deadline (R401, R402). -/
def State.stopOther (s : State) : State :=
  match s.otherProblem with
  | some p => (s.advanceTo p.request.deadline).endOther
  | none => s

/-- PROBLEM_DEADLINE (R401, R402, R405, R432): on SOLV_0 the stop time of the period, on SOLV_1 the deadline of its Class B or
Class C problem. -/
def execProblemDeadline (core : Fin 2) (s : State) : Host.Outcome State Fault Refusal :=
  if s.swatchRuns (solverSwatch core) = false then .next s
  else if core = 1 then .next s.stopOther
  else
    match s.clsA.work with
    | some w => if w.ready then .next s else .next ((s.advanceTo (s.stopTime w)).stopTimeComes w)
    | none => .next s

/-- Whatever the solver has not ended ends at the solver deadline, each core where it stands; the frames can be built (R37,
R441). -/
def State.forceResult (s : State) (w : PeriodWork) : State :=
  let s := if w.ready then s else ((s.stopTimeComes w).stopClassA 1).comparePair
  match s.clsA.work with
  | some w => if w.ready then s else (s.setWork { w with ready := true, compared := true }).resumeOther
  | none => s

/-- SOLVER_DEADLINE (R37, R441): 10 µs before the launch of the period in work. -/
def execSolverDeadline (s : State) : Host.Outcome State Fault Refusal :=
  match s.clsA.work with
  | some w =>
    if w.built ∨ s.swatchRuns (solverSwatch 0) = false then .next s
    else
      .next ((s.advanceTo (w.launch - usStamp 10)).forceResult w)
  | none => .next s

end Sys2Proof.Machine
end

