-- ==== Sys2Proof/Machine/Drops.lean ====
section
/-!
DEFINITION. Running work dropped as at its deadline, when admission stops for bind-off or a low-power state (R29, R123, R519, R527).
-/
namespace Sys2Proof.Machine

/-- Class B work: activations with their requests, tracking updates, transmit payloads with a deadline (Table 15.3). -/
def State.dropClassB (s : State) : State :=
  let s := (List.range 8).foldl State.dropActivation s
  let s := s.dropUpdates (fun _ => true)
  (List.range 16).foldl (fun s t => match s.cuttable t with | some (p, _) => s.cutPayload t p | none => s) s

/-- Class C work with a deadline, and tier moves: the verifier's job, SOLV_1's problem, the move in flight at its next page boundary. -/
def State.dropClassC (s : State) : State :=
  let s := match s.vis.verifying with | some j => s.endVerifying j | none => s
  s.endOther.abandonMove moverAbandoned

/-- Entry to DOZE: queries end DROPPED; Class D work pauses (R527). -/
def State.dropForDoze (s : State) : State :=
  let s := s.dropClassB.dropClassC
  s.endQueries (s.srch.queue ++ s.srch.active) qDropped

/-- Bind-off: queries and the import end ABANDONED, the recall probe ends (R123, R467). -/
def State.dropForBind (s : State) : State :=
  let s := s.dropClassB.dropClassC.abandonSearch
  { s.setFlag fld_SRCH_PROBE_STATUS_BUSY false with srch := { (s.setFlag fld_SRCH_PROBE_STATUS_BUSY false).srch with probe := none } }

end Sys2Proof.Machine
end

