-- ==== Sys2Proof/Machine/BindOff.lean ====
section
/-!
DEFINITION. Bind-off (R123, R124), which a request for HIBERNATE also runs (R526).
-/
namespace Sys2Proof.Machine

/-- Bind-off is accepted: PHASE BIND_OFF, running work dropped. A transition to or from a low-power state ends where it stands. -/
def State.beginBindOff (s : State) (hibernate : Bool) : State :=
  let s := s.setPhase phaseBindOff
  let s := { s with power := { s.power with transition := if hibernate then some (.entry .hibernate) else none, heldWake := none,
                                            hibernateNext := hibernate } }
  (s.setFlag fld_PWR_STATUS_CHANGING hibernate).dropForBind

/-- BIND_OFF_REQUEST (R123): a granted write of 1 in RUNNING. -/
def execBindOffRequest (data : Word) (s : State) : Host.Outcome State Fault Refusal :=
  match s.writeTaken reg_BIND_OFF_CTRL data with
  | some d => if d.getLsbD 0 ∧ s.phase = phaseRunning then .next (s.beginBindOff false) else .next s
  | none => .next s

/-- BIND_OFF_NAND_DRAINED (R123): brown hold keeps the operations it suspended. -/
def execBindOffNandDrained (s : State) : Host.Outcome State Fault Refusal :=
  if s.alive = false ∨ s.phase ≠ phaseBindOff ∨ s.power.nandHeld = true then .next s
  else .next (s.setCast { s.cast with bindDrained := true })

/-- The loop has stopped, and its last period has been placed. -/
def State.loopEnded (s : State) : Bool := !s.loopRunning && (match s.clsA.work with | some w => w.built | none => true)

/-- BOUND: LPDDR5X in self-refresh, the swatches gated; entry to HIBERNATE goes on where it was requested. -/
def State.bound (s : State) : State :=
  let s := { s with loop := { s.loop with grid := false, stopped := some .bind, startAt := none },
                    power := { s.power with selfRefresh := true } }
  ((s.setPhase phaseBound).regate).raiseIbi ibiBindOff

/-- BIND_OFF_COMPLETE (R123, Table 3.13): once NAND is drained and the loop has stopped. -/
def execBindOffComplete (s : State) : Host.Outcome State Fault Refusal :=
  if s.alive = false ∨ s.phase ≠ phaseBindOff ∨ s.cast.bindDrained = false ∨ s.loopEnded = false then .next s
  else .next s.bound

end Sys2Proof.Machine
end

