-- ==== Sys2Proof/Machine/Crossings.lean ====
section
/-!
DEFINITION. PLL locks, the Porisk crossings, and requests for a swatch reset (R63, R74 to R80, R87, R322, R327).
-/
namespace Sys2Proof.Machine

/-! ### PLLs -/

/-- A warm reset for loss of lock names the first unlocked PLL of SYS, ARITH, IO (R63). -/
def State.oweUnlock (s : State) (pll : Nat) : State :=
  match s.resets.due with
  | some (5, p, t) => { s with resets := { s.resets with due := some (5, min p pll, t) } }
  | _ => s.oweWarm 5 pll

/-- A locked PLL loses lock (R63, R85); a step due at the next tick is not taken without PLL_TIME, and stays armed (R151). -/
def State.unlockPll (s : State) (pll : Nat) : State :=
  let s := s.setFld fld_PLL_STATUS_LOCK (s.fld fld_PLL_STATUS_LOCK - 2 ^ pll)
  let s := s.setFld fld_PLL_STATUS_UNLOCK_SEEN (Nat.lor (s.fld fld_PLL_STATUS_UNLOCK_SEEN) (2 ^ pll))
  let s := s.raiseFault faultPllUnlock 0 (BitVec.ofNat 32 pll)
  if pll = 3 then
    let s := { s.setFlag fld_TIME_STATUS_CLOCK_FAULT true with time := { s.time with stepDue := none } }
    if s.servo = servoStepped ∨ s.servo = servoLocked then s.setServo servoHoldover else s
  else s.oweUnlock pll

/-- PLL_UNLOCK (R63). -/
def execPllUnlock (pll : Fin 4) (s : State) : Host.Outcome State Fault Refusal :=
  if s.alive ∧ bit (s.fld fld_PLL_STATUS_LOCK) pll then .next (s.unlockPll pll) else .next s

/-! ### Event crossings -/

/-- EVENT_CROSSING_PULSE (R75): a pulse beside the strobes that TIME fires at the scheduled instants. -/
def execEventCrossingPulse (crossing : Fin 70) (drained : Nat) (s : State) : Host.Outcome State Fault Refusal :=
  if s.alive then .next (s.pulse crossing drained) else .next s

/-! ### Data crossings -/

/-- The links of a message's route: four at most, none twice (R68). Which swatch a node has, and which links join two nodes, is
not stated; the message names them. -/
def crossingRoute (m : CrossingMessage) : List (Fin 64 × Nat) :=
  (m.links.foldl (fun l x => if l.any (fun y => y.1 == x.1) then l else l ++ [x]) []).take 4

/-- A lane-0 message's passage over a link: the flits it carried and the wait it met, in 0.1 ns (R91). -/
def State.passLink (s : State) (flits : Nat) (l : Fin 64 × Nat) : State :=
  (s.addWrap (fld_LINK_A_FLITS_FLITS l.1) flits).raiseMax (fld_LINK_A_WAIT_WAIT_MAX l.1) l.2

/-- The check of a flit half; a corrected word would be a link error too, so it is uncorrectable (R327). How SELV_LAST_ADDR holds
the source port and the message number is not stated. -/
def State.checkHalf (s : State) (receiver : Nat) (h : Nat × SymbolErrors) : State :=
  match selvedgeCheck h.2 with
  | .clean => s
  | c =>
    let (a, s) := s.takeWord
    s.recordUe mediumFabric receiver false (match c with | .uncorrectable l => l | _ => false) a.toNat

/-- The halves of a message that are delivered marked uncorrectable (R327). -/
def badHalves (m : CrossingMessage) : List Nat :=
  (m.halves.filter (fun h => match selvedgeCheck h.2 with | .clean => false | _ => true)).map Prod.fst

/-- A message as its receiver has it. -/
def deliveryOf (m : CrossingMessage) : Delivery := ⟨m.destination, m.source, m.number, badHalves m⟩

/-- A whole message is passed on (R74, R327); a request waits for its answer, and an answer ends the wait of its request. -/
def State.deliver (s : State) (m : CrossingMessage) : State :=
  let s := m.halves.foldl (fun s h => s.checkHalf m.destination h) s
  let left := match m.answers with
    | some k => s.sw.requested.filter (fun d => !(d.destination == m.source && d.source == m.destination && d.number == k))
    | none => s.sw.requested
  { s with sw := { s.sw with delivered := deliveryOf m :: s.sw.delivered,
                             requested := if m.expectsResponse then left ++ [deliveryOf m] else left } }

/-- The lane that a port takes from (Table 2.3): lane 0, then lane 1; lanes 2 and 3 share, three flits to one. -/
def laneTurn (lanes : List (Fin 4)) (turn : Nat) : Option (Fin 4) :=
  if lanes.contains 0 then some 0
  else if lanes.contains 1 then some 1
  else if lanes.contains 2 && (decide (turn < 3) || !lanes.contains 3) then some 2
  else if lanes.contains 3 then some 3
  else none

/-- A port takes its next waiting message (R70). -/
def State.takeMessage (s : State) (n : Nat) : State :=
  let here := s.sw.waiting.filter (fun m => m.destination.val == n)
  match laneTurn (here.map (·.lane)) (Store.get 0 s.sw.turn n) with
  | none => s
  | some k =>
    match here.find? (fun m => m.lane == k) with
    | none => s
    | some m =>
      let turn := if k = 2 then Store.get 0 s.sw.turn n + m.flits else if k = 3 then 0 else Store.get 0 s.sw.turn n
      { s with sw := { s.sw with waiting := s.sw.waiting.erase m, turn := Store.set 0 s.sw.turn n turn } }.deliver m

/-- The port of a clocked swatch takes what waits at it. -/
def State.drainPort (s : State) (n : Nat) : State :=
  if s.swatchRuns n then (List.range s.sw.waiting.length).foldl (fun s _ => s.takeMessage n) s else s

/-- Every port takes what waits at it. -/
def State.drainPorts (s : State) : State := (List.range 48).foldl State.drainPort s

/-- DATA_CROSSING_MESSAGE (R70, R74, R80, R91, R322, R327): a message is passed on whole once all of its flits have arrived, by way
of the lane buffers of its receiver's port, where it stays while the receiver's clock is stopped; towards a group in reset it is
discarded, and a request answered with PARTNER_RESET. -/
def execDataCrossingMessage (msg : CrossingMessage) (s : State) : Host.Outcome State Fault Refusal :=
  if s.alive = false then .next s
  else
    let s := if msg.lane = 0 then (crossingRoute msg).foldl (fun s l => s.passLink (min msg.arrived msg.flits) l) s else s
    if msg.arrived < msg.flits then .next s
    else if s.inReset msg.destination then
      .next { s with sw := { s.sw with
        partnerReset := s.sw.partnerReset ++ [⟨msg.destination, msg.source, msg.number, msg.expectsResponse⟩] } }
    else .next ({ s with sw := { s.sw with waiting := s.sw.waiting ++ [msg] } }.drainPort msg.destination)

/-- Swatches enter reset: what waits at their ports is discarded, and the requests they have not answered are answered with
PARTNER_RESET (R80). -/
def State.dropCrossings (s : State) (l : List Nat) : State :=
  let gone := s.sw.waiting.filter (fun m => l.contains m.destination.val)
  let asked := s.sw.requested.filter (fun d => l.contains d.destination)
  { s with sw := { s.sw with
      waiting := s.sw.waiting.filter (fun m => !l.contains m.destination.val),
      requested := s.sw.requested.filter (fun d => !l.contains d.destination && !l.contains d.source),
      partnerReset := s.sw.partnerReset ++ gone.map (fun m => ⟨m.destination, m.source, m.number, m.expectsResponse⟩) ++
        asked.map (fun d => ⟨d.destination, d.source, d.number, true⟩) } }

/-! ### Swatch reset requests -/

/-- SW_RESET (R87): a granted write sends a request to the group of the swatch it names. -/
def execSwReset (data : Word) (s : State) : Host.Outcome State Fault Refusal :=
  match s.writeTaken reg_SW_RESET data with
  | none => .next s
  | some d =>
    let n := d.toNat % 64
    if 47 < n ∨ groupOf n = 0 then .next s
    else .next (s.askReset n 0)

end Sys2Proof.Machine
end

