-- ==== Sys2Proof/Machine/Faults.lean ====
section
/-!
DEFINITION. The fault tree, its records and log, the watchdogs and the scheduling of snapshots (R551 to R563).
-/
namespace Sys2Proof.Machine

/-! ### The tree -/

/-- A node's latch and duplicate count for a cause (R553). -/
def State.node (s : State) (node c : Nat) : Bool × Nat := Store.get (false, 0) s.integ.nodes (node * 32 + c)

/-- Set a node's latch and count. -/
def State.setNode (s : State) (node c : Nat) (v : Bool × Nat) : State :=
  { s with integ := { s.integ with nodes := Store.set (false, 0) s.integ.nodes (node * 32 + c) v } }

/-- A flit leaves a node, or is taken out of the fabric. -/
def State.sendFlit (s : State) (f : FaultFlit) : State :=
  { s with integ := { s.integ with flits := s.integ.flits ++ [f] } }
def State.takeFlit (s : State) (f : FaultFlit) : State :=
  { s with integ := { s.integ with flits := dropFirst (· == f) s.integ.flits } }

/-- Add to a 32-bit saturating count. -/
def sat32 (a b : Nat) : Nat := min 0xFFFFFFFF (a + b)

/-- A node handles a flit (R553). -/
def State.handleFlit (s : State) (node : Nat) (f : FaultFlit) : State :=
  match f with
  | .report r =>
    let (latch, dup) := s.node node r.cause
    if latch then (s.takeFlit f).setNode node r.cause (true, sat32 dup 1)
    else ((s.takeFlit f).setNode node r.cause (true, dup)).sendFlit f
  | .summary c k =>
    let (latch, dup) := s.node node c
    if latch then (s.takeFlit f).setNode node c (true, sat32 dup k) else (s.takeFlit f).sendFlit f
  | .close c =>
    let (_, dup) := s.node node c
    let s := (s.takeFlit f).setNode node c (false, 0)
    if dup = 0 then s else s.sendFlit (.summary c dup)

/-- FAULT_NODE_FLIT (R553). -/
def execFaultNodeFlit (node : Fin 16) (flit : FaultFlit) (s : State) : Host.Outcome State Fault Refusal :=
  if s.alive then .next (s.handleFlit node flit) else .next s

/-- A bit of a register word. -/
def State.regBit (s : State) (a c : Nat) : Bool := (s.reg a).getLsbD c

/-- Set or clear a bit of a register word. -/
def State.setRegBit (s : State) (a c : Nat) (b : Bool) : State :=
  let m := BitVec.ofNat 32 (2 ^ c)
  s.setReg a (if b then s.reg a ||| m else s.reg a &&& ~~~ m)

/-- Write a log entry at NEXT (R557, Table 16.4). WRAPPED rises when NEXT returns to 0. -/
def State.logFault (s : State) (r : FaultReport) : State :=
  let e := s.fld fld_FAULT_LOG_STATUS_NEXT
  let ws : List Word := [BitVec.ofNat 32 (r.cause % 256 + r.source % 65536 * 2 ^ 16), r.detail,
    BitVec.ofNat 32 (stampSec r.time), BitVec.ofNat 32 (stampNs r.time)]
  let s := { s with integ := { s.integ with log := Store.setMany 0 s.integ.log (4 * e) ws } }
  let s := s.setFld fld_FAULT_LOG_STATUS_NEXT (e + 1)
  let s := if e = 63 then s.setFlag fld_FAULT_LOG_STATUS_WRAPPED true else s
  s.addSat fld_FAULT_LOG_STATUS_ENTRIES 1

/-- Open the record of a report's cause (R554). -/
def State.openFault (s : State) (r : FaultReport) : State :=
  let i := r.cause - 1
  let s := s.setFld (fld_FAULT_REC_SOURCE_SOURCE i) r.source
  let s := s.setReg (reg_FAULT_REC_DETAIL i) r.detail
  let s := s.setFld (fld_FAULT_REC_SEC_SEC i) (stampSec r.time)
  let s := s.setFld (fld_FAULT_REC_NS_NS i) (stampNs r.time)
  let s := s.setReg (reg_FAULT_REC_COUNT i) 1
  let s := (s.setRegBit reg_FAULT_PEND r.cause true).logFault r
  if s.regBit reg_FAULT_IRQ_EN r.cause then s.raiseIbi ibiFault else s

/-- WINDOW_US, where lower values act as 10 (R565). -/
def State.faultWindow (s : State) : Nat := max 10 (s.fld fld_FAULT_CFG_WINDOW_US)

/-- Open a suppression window where none is open (R554). -/
def State.openWindow (s : State) (c : Nat) : State :=
  if s.integ.windows.any (fun w => w.1 == c) then s
  else { s with integ := { s.integ with windows := s.integ.windows ++ [(c, s.stamp + usStamp s.faultWindow)] } }

/-- The root handles a report or a summary (R554). -/
def State.rootTakes (s : State) (f : FaultFlit) : State :=
  match f with
  | .report r =>
    let s := s.takeFlit f
    let s := if s.regBit reg_FAULT_PEND r.cause then s.addSat (fld_FAULT_REC_COUNT_COUNT (r.cause - 1)) 1
      else s.openFault r
    s.openWindow r.cause
  | .summary c k => (s.takeFlit f).addSat (fld_FAULT_REC_COUNT_COUNT (c - 1)) k
  | .close _ => s

/-- FAULT_ROOT_ARRIVE (R554), for the causes of Table 16.3. -/
def execFaultRootArrive (flit : FaultFlit) (s : State) : Host.Outcome State Fault Refusal :=
  let c := match flit with | .report r => r.cause | .summary c _ => c | .close c => c
  if s.alive ∧ 1 ≤ c ∧ c ≤ 16 then .next (s.rootTakes flit) else .next s

/-- FAULT_WINDOW_CLOSE (R554): CLOSE goes to every node. -/
def execFaultWindowClose (cause : Fin 17) (s : State) : Host.Outcome State Fault Refusal :=
  match s.integ.windows.find? (fun w => w.1 == cause.val) with
  | none => .next s
  | some w =>
    let s := s.advanceTo w.2
    .next { s with integ := { s.integ with
      windows := s.integ.windows.filter (fun v => v.1 != cause.val),
      flits := s.integ.flits ++ List.replicate 16 (.close cause.val) } }

/-- FAULT_LOG_DATA_READ (R557): the word at WORD, which then advances, wrapping. -/
def execFaultLogDataRead (_port : Nat) (s : State) : Host.Outcome State Fault Refusal :=
  if s.reachable reg_FAULT_LOG_DATA then
    let w := s.fld fld_FAULT_LOG_ADDR_WORD
    let s := s.setFld fld_FAULT_LOG_ADDR_WORD (w + 1)
    .next { s with out := { s.out with words := [Store.get 0 s.integ.log w] } }
  else .next { s with out := { s.out with words := [0] } }

/-! ### Watchdogs -/

/-- The chip watchdog expires (R559). -/
def State.chipWatchdog (s : State) (source : Nat) : State :=
  let s := s.raiseFault faultWdogChip 2 (BitVec.ofNat 32 source)
  let s := (s.setFld fld_WDOG_CHIP_STATUS_LAST_SRC source).addSat fld_WDOG_CHIP_STATUS_EXPIRIES 1
  s.oweWarm 3 0

/-- WDOG_SWATCH (R558): a watchdog that runs expires. -/
def execWdogSwatch (swatch : Fin 48) (s : State) : Host.Outcome State Fault Refusal :=
  if s.swatchRuns swatch = false ∨ s.fld (fld_WDOG_SW_LIMIT_US swatch) = 0 then .next s
  else
    let s := s.setFlag (fld_WDOG_SW_EXPIRED swatch) true
    if groupOf swatch = 0 then .next (s.chipWatchdog 0)
    else
      .next ((s.raiseFault faultWdogSwatch swatch (BitVec.ofNat 32 swatch)).askReset swatch 1)

/-- The chip watchdog's sources pause in BIND_OFF and BOUND (R559). -/
def State.chipWatchdogPaused (s : State) : Bool := s.phase == phaseBindOff || s.phase == phaseBound

/-- WDOG_CHIP_LOOP (R559). -/
def execWdogChipLoop (s : State) : Host.Outcome State Fault Refusal :=
  if s.alive ∧ s.integ.loopArmed ∧ s.flag fld_WDOG_CHIP_CFG_LOOP_EN ∧ s.loopRunning ∧ s.chipWatchdogPaused = false then
    .next (s.chipWatchdog 1)
  else .next s

/-- The HOST source of the chip watchdog watches: enabled, armed, and not paused (R559). A kick of a source that does not is nothing. -/
def State.hostWatched (s : State) : Bool := s.integ.hostArmed && s.flag fld_WDOG_CHIP_CFG_HOST_EN && !s.chipWatchdogPaused

/-- WDOG_CHIP_HOST (R559). -/
def execWdogChipHost (s : State) : Host.Outcome State Fault Refusal :=
  if s.alive ∧ s.hostWatched then .next (s.chipWatchdog 2)
  else .next s

/-- The key expected next (R559). -/
def State.expectedKey (s : State) : Nat := if s.flag fld_WDOG_CHIP_STATUS_NEXT_KEY then 0x94C3 else 0x6B3C

/-- WDOG_CHIP_KICK (R559): the expected key kicks; any other value expires the HOST source at once. -/
def execWdogChipKick (data : Word) (s : State) : Host.Outcome State Fault Refusal :=
  match s.writeTaken reg_WDOG_CHIP_KICK data with
  | none => .next s
  | some d =>
    if s.hostWatched = false then .next s
    else if d.toNat % 65536 = s.expectedKey then
      .next (s.setFlag fld_WDOG_CHIP_STATUS_NEXT_KEY (!s.flag fld_WDOG_CHIP_STATUS_NEXT_KEY))
    else .next (s.chipWatchdog 3)

/-! ### Snapshots -/

/-- Cancel the pending snapshot and its series (R560). -/
def State.cancelSnapshot (s : State) : State :=
  { s.setFlag fld_SNAP_STATUS_PENDING false with integ := { s.integ with snapAt := none, snapPeriod := 0 } }

/-- SNAP_TIME as a stamp. -/
def State.snapTime (s : State) : Stamp := mkStamp (s.pair reg_SNAP_TIME_SEC_LO) (s.fld fld_SNAP_TIME_NS_NS)

/-- Accept an ARM at least 2 µs ahead, or refuse it as LATE, leaving what is pending (R560). -/
def State.armSnapshot (s : State) : State :=
  if s.stamp + usStamp 2 ≤ s.snapTime then
    { s.setFlag fld_SNAP_STATUS_PENDING true with
      integ := { s.integ with snapAt := some s.snapTime, snapPeriod := s.fld fld_SNAP_PERIOD_PERIOD_MS } }
  else s.setFlag fld_SNAP_STATUS_LATE true

/-- A write to SNAP_CTRL: CANCEL, then ARM (R560). -/
def State.snapControl (s : State) (d : Word) : State :=
  let s := if d.getLsbD 1 then s.cancelSnapshot else s
  if d.getLsbD 0 then s.armSnapshot else s

/-- SNAP_ARM (R560). -/
def execSnapArm (data : Word) (s : State) : Host.Outcome State Fault Refusal :=
  match s.writeTaken reg_SNAP_CTRL data with
  | some d => .next (s.snapControl d)
  | none => .next s

/-- SNAP_CANCEL (R560). -/
def execSnapCancel (data : Word) (s : State) : Host.Outcome State Fault Refusal :=
  match s.writeTaken reg_SNAP_CTRL data with
  | some d => .next (s.snapControl d)
  | none => .next s

/-- The snapshot number after one more (R562). -/
def nextSnapNumber (n : Nat) : Nat := if 0xFFFFFFFF ≤ n then 1 else n + 1

/-- Every SNAP field of a present swatch copied to its shadow; an absent swatch's shadows read zero (R561). -/
def State.copyShadows (s : State) : State :=
  { s with shadow := s.regs.filterMap (fun e =>
      let v := s.reg e.1 &&& maskAt e.1 (·.access == .snap)
      if s.inReset (servedBy e.1) || v == 0 then none else some (e.1, v)) }

/-- Record the snapshot in SNAP_SWATCH_n (R561). -/
def State.markSnapshot (s : State) (number : Nat) : State :=
  (List.range 48).foldl (fun s n =>
    (s.setFld (fld_SNAP_SWATCH_NUMBER n) number).setFlag (fld_SNAP_SWATCH_ABSENT n) (s.inReset n)) s

/-- The next instant of a series after the present moment (R150, R560). -/
def nextInSeries (t : Stamp) (periodMs : Nat) (now : Stamp) : Stamp :=
  let p := usStamp (1000 * periodMs)
  t + p * (1 + (now - t) / p)

/-- The snapshot at t is taken: every swatch has its strobe, and the SNAP fields stand in their shadows (R140, R561). -/
def State.takeSnapshot (s : State) (t : Stamp) : State :=
  let s := s.strobeAll .snapshot t
  let s := { s with integ := { s.integ with snapTime := t, snapSuspect := s.flag fld_TIME_STATUS_CLOCK_FAULT } }
  s.copyShadows.markSnapshot (nextSnapNumber (s.fld fld_SNAP_NUM_NUMBER))

/-- The next instant of a series is armed, or none is pending (R560). -/
def State.followSeries (s : State) (t : Stamp) : State :=
  let absent : Bool := s.sw.inReset != 0#48
  if s.integ.snapPeriod = 0 then
    { s.setFlag fld_SNAP_STATUS_PENDING false with integ := { s.integ with snapAt := none, snapTaken := some absent } }
  else
    { s with integ := { s.integ with
      snapAt := some (nextInSeries t s.integ.snapPeriod s.stamp), snapTaken := some absent } }

/-- SNAPSHOT_INSTANT (R140, R561). -/
def execSnapshotInstant (s : State) : Host.Outcome State Fault Refusal :=
  match s.integ.snapAt with
  | none => .next s
  | some t => if s.alive then .next (((s.advanceTo t).takeSnapshot t).followSeries t) else .next s

end Sys2Proof.Machine
end

