-- ==== Sys2Proof/Machine/ResetOps.lean ====
section
/-!
DEFINITION. Cold and warm resets, supplies, REFCLK and boundary scan (R63, R518, R533 to R536, R543, R556, R584 to R588, R594).
-/
namespace Sys2Proof.Machine

/-! ### What a reset keeps (Table 15.8) -/

/-- The bits of a register that outlive a reset: FUSE, and STICKY except over a cold one. -/
def keptMask (sticky : Bool) (a : Nat) : Word := maskAt a (fun f => f.keeps == .fuse || (sticky && f.keeps == .sticky))

/-- The registers that outlive a reset, as differences from their Reset values. -/
def keptRegs (sticky : Bool) (m : Store Word) : Store Word :=
  m.filterMap (fun e => if e.2 &&& keptMask sticky e.1 = 0 then none else some (e.1, e.2 &&& keptMask sticky e.1))

/-- What the flash of the indexes keeps through every reset (R443, R448). -/
def Search.durable (x : Search) : Search :=
  { Search.reset with flash := x.flash, commits := x.commits, tables := x.tables, marks := x.marks, failed := x.failed }

/-- Everything lost that a cold reset loses or, with `sticky`, that a warm reset and HIBERNATE lose; the fault log goes with the
STICKY fields (R556), and a brown hold lasts on over any but a cold reset. -/
def State.blank (s : State) (sticky : Bool) : State :=
  let s := s.interruptFuses
  let t : State :=
    { State.reset with
      regs := keptRegs sticky s.regs, fresh := s.fresh, out := s.out, pending := s.pending, mem := s.mem.durable,
      srch := s.srch.durable, resets := { s.resets with due := none },
      integ := { Integrity.reset with log := if sticky then s.integ.log else [] },
      power := { Power.reset with nandHeld := sticky && s.power.nandHeld } }
  t.setFlag fld_PWR_STATUS_BROWN (sticky && s.brown)

/-! ### Beginning and ending a reset -/

/-- Every swatch enters reset (R534); the octal-SPI port is driven again from the start of FUSE_SENSE (R95). -/
def State.holdAll (s : State) (k : ResetKind) (cause pll : Nat) : State :=
  { s with sw := { Swatches.reset with inReset := BitVec.allOnes 48 },
           links := { s.links with ospiDriven := false },
           resets := { s.resets with active := some k, cause := cause, pll := pll } }

/-- An entry to FUSE_SENSE that a reset cuts short was an entry (R574). -/
def State.countEntry (s : State) : State := if s.castAt .fuseSense then s.countBoot else s

/-- A warm cause: ignored during a cold reset, recorded during a warm one (R534). -/
def State.beginWarm (s : State) (cause pll : Nat) : State :=
  match s.resets.active with
  | some .cold => s
  | some .warm => { s with resets := { s.resets with cause := cause, pll := pll } }
  | none => (s.countEntry.blank true).holdAll .warm cause pll

/-- A cold cause takes the place of any reset in progress (R534). -/
def State.beginCold (s : State) (cause : Nat) : State := (s.blank false).holdAll .cold cause 0

/-- A reset ends: its cause is recorded, and FUSE_SENSE follows (R110, R535, R543). -/
def State.endReset (s : State) (warm : Bool) : State :=
  let s := { s with sw := Swatches.reset, links := { s.links with ospiDriven := true }, resets := { s.resets with active := none } }
  let s := s.setFld fld_RST_CAUSE_LAST s.resets.cause
  let s := if s.resets.cause = 5 then s.setFld fld_RST_CAUSE_PLL s.resets.pll else s
  if warm then s.addSat fld_RST_CAUSE_WARM_COUNT 1 else s

/-- A warm reset owed 10 µs after its fault begins (R556). -/
def State.beginDue (s : State) : State :=
  match s.resets.due with
  | some (cause, pll, _) => s.beginWarm cause pll
  | none => s

/-- WARM_RESET_END (R534, R535, R587). A reset still owed begins and ends here. -/
def execWarmResetEnd (s : State) : Host.Outcome State Fault Refusal :=
  let t := if s.alive then s.beginDue else s
  if t.resets.active = some .warm ∧ t.resets.refclkAbsent = false then .next (t.endReset true) else .next s

/-- COLD_RESET_END (R534, R535, R585): every rail good and REFCLK running for 2 ms, TEST_EN low. -/
def execColdResetEnd (quietMs : Nat) (s : State) : Host.Outcome State Fault Refusal :=
  if s.resets.active = some .cold ∧ s.resets.badRails = [] ∧ s.resets.refclkAbsent = false ∧ s.resets.testEn = false ∧ 2 ≤ quietMs then
    .next (s.endReset false)
  else .next s

/-! ### Sources (Table 15.7) -/

/-- A rail is above its good level. -/
def State.railGood (s : State) (r : Rail) : State := { s with resets := { s.resets with badRails := s.resets.badRails.filter (· != r) } }

/-- POWER_ON (R535): the 1.8 V supply rises through its power-on level. -/
def execPowerOn (s : State) : Host.Outcome State Fault Refusal := .next ((s.beginCold 0).railGood .vdd1v8)

/-- The cause of a rail's fall: POWER_ON where the latch of R535 has cleared. -/
def State.supplyCause (s : State) (r : Rail) : Nat := if r = .vdd1v8 ∨ Rail.vdd1v8 ∈ s.resets.badRails then 0 else 1

/-- SUPPLY_RESET (R524, R584, R588). -/
def execSupplyReset (rail : Rail) (s : State) : Host.Outcome State Fault Refusal :=
  let t := s.beginCold (s.supplyCause rail)
  .next { t with resets := { t.resets with badRails := if rail ∈ t.resets.badRails then t.resets.badRails else t.resets.badRails ++ [rail] } }

/-- SUPPLY_GOOD (R585). -/
def execSupplyGood (rail : Rail) (s : State) : Host.Outcome State Fault Refusal := .next (s.railGood rail)

/-- RESET_N (R533): a low of less than 1 µs is ignored. -/
def execResetN (lowNs : Nat) (s : State) : Host.Outcome State Fault Refusal :=
  if lowNs < 1000 then .next s else .next (s.beginWarm 2 0)

/-- RST_CTRL_WARM (R543): a granted write of 1. -/
def execRstCtrlWarm (data : Word) (s : State) : Host.Outcome State Fault Refusal :=
  match s.writeTaken reg_RST_CTRL data with
  | some d => if d.getLsbD 0 then .next (s.beginWarm 8 0) else .next s
  | none => .next s

/-- THERMAL_TRIP (R518): the sensors are off in HIBERNATE. -/
def execThermalTrip (s : State) : Host.Outcome State Fault Refusal :=
  if s.power.hibernating ∨ s.power.poweringUp then .next s else .next (s.beginWarm 7 0)

/-- A PLL reports loss of lock for want of REFCLK, whether it had locked or not (R63, R587). -/
def State.starvePll (s : State) (pll : Nat) : State :=
  if bit (s.fld fld_PLL_STATUS_LOCK) pll then s.unlockPll pll
  else
    let s := s.raiseFault faultPllUnlock 0 (BitVec.ofNat 32 pll)
    if pll < 3 then s.oweUnlock pll else s

/-- REFCLK_ABSENT (R587): the reports leave in the order of R63. -/
def execRefclkAbsent (s : State) : Host.Outcome State Fault Refusal :=
  if s.resets.refclkAbsent then .next s
  else
    let t := if s.alive then [0, 1, 2, 3].foldl State.starvePll s else s
    .next { t with resets := { t.resets with refclkAbsent := true } }

/-- REFCLK_RESUME (R585, R587). -/
def execRefclkResume (s : State) : Host.Outcome State Fault Refusal :=
  .next { s with resets := { s.resets with refclkAbsent := false } }

/-! ### Boundary scan (R594) -/

/-- The pins as TEST_EN and the instruction in force leave them: EXTEST and CLAMP drive the boundary register, HIGHZ floats them. -/
def Resets.scanned (r : Resets) : Resets :=
  { r with scanDrives := if r.testEn ∧ (r.tapInstruction = 0 ∨ r.tapInstruction = 2) then some r.boundary else none,
           scanHighZ := r.testEn && r.tapInstruction == 3 }

/-- Put an instruction in force, with a new pattern in the boundary register where it selects that; TRST_N low holds the logic. -/
def State.tapLoad (s : State) (instruction : Nat) (pattern : Option Nat) : State :=
  if s.resets.trstLow then s
  else { s with resets := Resets.scanned { s.resets with tapInstruction := instruction, boundary := pattern.getD s.resets.boundary } }

/-- TEST_EN_CHANGE: high holds the device in cold reset; the fall ends the hold as a cold reset, cause POWER_ON. -/
def execTestEnChange (high : Bool) (s : State) : Host.Outcome State Fault Refusal :=
  if s.resets.testEn = high then .next s
  else
    let t := s.beginCold 0
    .next { t with resets := Resets.scanned { t.resets with testEn := high } }

/-- EXTEST: while TEST_EN is low it acts as BYPASS, so no pattern enters. -/
def execExtest (pattern : Nat) (s : State) : Host.Outcome State Fault Refusal :=
  .next (s.tapLoad 0 (if s.resets.testEn then some pattern else none))

/-- SAMPLE_PRELOAD. -/
def execSamplePreload (pattern : Nat) (s : State) : Host.Outcome State Fault Refusal := .next (s.tapLoad 1 (some pattern))

/-- CLAMP. -/
def execClamp (s : State) : Host.Outcome State Fault Refusal := .next (s.tapLoad 2 none)

/-- HIGHZ. -/
def execHighz (s : State) : Host.Outcome State Fault Refusal := .next (s.tapLoad 3 none)

/-- BYPASS: 0xF, every code without an instruction of its own, and EXTEST, CLAMP and HIGHZ while TEST_EN is low. -/
def execBypass (code : BitVec 4) (s : State) : Host.Outcome State Fault Refusal :=
  if code.toNat = 1 ∨ (code.toNat ≤ 3 ∧ s.resets.testEn = true) then .next s
  else .next (s.tapLoad (if code.toNat ≤ 3 then code.toNat else 0xF) none)

/-- TRST_N: low holds the test logic in reset, which selects BYPASS. -/
def execTrstN (high : Bool) (s : State) : Host.Outcome State Fault Refusal :=
  if high then .next { s with resets := { s.resets with trstLow := false } }
  else .next { s with resets := Resets.scanned { s.resets with trstLow := true, tapInstruction := 0xF } }

end Sys2Proof.Machine
end

