-- ==== Sys2Proof/Machine/Governor.lean ====
section
/-!
DEFINITION. Effective calibration values, the budget governor and brown hold (R117, R513 to R518, R521 to R524, R540, R542).
-/
namespace Sys2Proof.Machine

/-! ### Calibration (R117, Table 3.10) -/

/-- The effective range of an item. -/
def effRange (n : Nat) : Int × Int := if n < 4 then (0, 1023) else if n < 12 then (-672, 672) else if n < 16 then (-480, 480) else (0, 63)

/-- The factory value of an item: offsets are two's complement, codes unsigned. -/
def State.calFact (s : State) (n : Nat) : Int :=
  let v := s.fld (fld_CAL_FACT_VALUE n)
  if 4 ≤ n ∧ n < 16 then signed 16 v else v

/-- The effective value of an item. -/
def State.calEff (s : State) (n : Nat) : Int :=
  if s.flag fld_SYS_LOCK_LOCKED then clampInt (effRange n).1 (effRange n).2 (s.calFact n + signed 16 (s.fld (fld_CAL_USER_OFFSET n)))
  else s.calFact n

/-- The junction temperature in 1/16 °C: the highest effective reading of sensors 0 to 7. -/
def State.hottest (s : State) (raw : List Int) : Int :=
  (List.range 8).foldl (fun h n =>
    let r := raw.getD n 0 + s.calEff (4 + n)
    if n = 0 ∨ h < r then r else h) 0

/-! ### The governor (R514 to R516) -/

/-- PKG_LIMIT_W as it acts. -/
def State.packageLimit (s : State) : Nat := min 45 (max 15 (s.fld fld_PWR_LIMIT_PKG_LIMIT_W))

/-- What a decision decides: the new level and calm count, whether temperature governed it, and whether it is a floor interval. -/
structure Decision where
  level : Nat
  calm : Nat
  thermal : Bool
  floor : Bool
  deriving DecidableEq, Repr

/-- The decision of R514 at a level, from the average, the estimate in W and the temperature in 1/16 °C. -/
def State.decide_ (s : State) (avg p : Rat) (hot : Int) : Decision :=
  let limit : Rat := s.packageLimit
  let low := limit * (1 - (s.fld fld_PWR_GOV_CFG_HYST : Rat) / 64)
  let tj : Int := 16 * s.fld fld_PWR_LIMIT_TJ_LIMIT
  let lo := s.fld fld_PWR_GOV_CFG_MIN_LEVEL
  let hi := max lo (s.fld fld_PWR_GOV_CFG_MAX_LEVEL)
  let dwell := max 1 (s.fld fld_PWR_GOV_CFG_DWELL)
  if (limit < avg ∧ limit < p) ∨ tj ≤ hot then
    ⟨if s.level < hi then s.level + 1 else s.level, 0, decide (tj ≤ hot), decide (hi ≤ s.level)⟩
  else if avg < low ∧ p < low ∧ hot < tj - 48 then
    let calm := s.power.calm + 1
    if dwell ≤ calm ∧ lo < s.level then ⟨s.level - 1, 0, false, false⟩ else ⟨s.level, calm, false, false⟩
  else ⟨s.level, 0, false, false⟩

/-- GOV_FLOOR is raised at the first interval of an episode (R516); DETAIL is the level. -/
def State.noteFloor (s : State) (floor : Bool) : State :=
  let s' := s.setFlag fld_PWR_STATUS_FLOOR floor
  let s' := if floor = true ∧ s.power.floorEpisode = false then
      (s'.addSat fld_PWR_GOV_COUNTS_FLOOR 1).raiseFault faultGovFloor 1 (BitVec.ofNat 32 s.level)
    else s'
  { s' with power := { s'.power with floorEpisode := floor } }

/-- The readings (R540); how AVG_MW is rounded is not stated. -/
def State.showEstimate (s : State) (avg : Rat) (hot : Int) : State :=
  let (up, s) := s.takeBit
  let mw := roundFree (avg * 1000) up
  (s.setFld fld_PWR_EST_AVG_MW (min 0xFFFF mw.toNat)).setFld fld_PWR_EST_TEMP (satSigned 16 hot)

/-- Put a decision into force (R515): the steps change, and at a lower level waiting Class C work may start (R517). -/
def State.applyDecision (s : State) (d : Decision) : State :=
  let s := s.noteFloor d.floor
  let s := if d.level = s.level then s else s.addSat fld_PWR_GOV_COUNTS_CHANGES 1
  let s := (s.setFld fld_PWR_STATUS_LEVEL d.level).setFlag fld_PWR_STATUS_THERMAL d.thermal
  let s := { s with power := { s.power with calm := d.calm } }
  (s.takeSteps.takeJob).serveWaiting

/-- The end of an interval with an estimate in W. -/
def State.endInterval (s : State) (p : Rat) (raw : List Int) : State :=
  let hot := s.hottest raw
  let shift := min 12 (s.fld fld_PWR_GOV_CFG_AVG_SHIFT)
  let avg := if s.power.started then s.power.avg + (p - s.power.avg) / ((2 ^ shift : Nat) : Rat) else p
  let d := s.decide_ avg p hot
  let s := s.addWrap (fld_PWR_LEVEL_US_US s.level) 100
  let s := { s with power := { s.power with avg := avg, started := true } }
  (s.showEstimate avg hot).applyDecision d

/-- GOVERNOR_INTERVAL (R514): intervals end at multiples of 100 µs of device time, from cast-on lock on. -/
def execGovernorInterval (microwatts : Nat) (raw : List Int) (s : State) : Host.Outcome State Fault Refusal :=
  if s.alive = false ∨ s.flag fld_SYS_LOCK_LOCKED = false then .next s
  else
    let s := s.advanceTo ((s.stamp / usStamp 100 + 1) * usStamp 100)
    .next (s.endInterval ((microwatts : Rat) / 1000000) raw)

/-! ### Brown hold (R522, R523) -/

/-- Work in progress runs in brown hold from here on (R211, R292, R365, R410, R468, R54). -/
def State.markBrown (s : State) : State :=
  let s := s.allNodes.foldl (fun s x => if x.2.2.2.phase = .running then s.updNode x.2.1 x.2.2.1 (fun r => { r with brown := true }) else s) s
  { s with
    neural := { s.neural with running := s.neural.running.map (fun q => { q with brown := true }) },
    track := { s.track with updates := s.track.updates.map (fun u => { u with brown := true }) },
    solv := { s.solv with running := s.solv.running.map (fun e => (e.1, e.2.map (fun p => { p with brown := true }))) },
    srch := { s.srch with active := s.srch.active.map (fun q => { q with brown := true }) },
    clsA := { s.clsA with work := s.clsA.work.map (fun w => { w with brown := true }) },
    loop := { s.loop with brownSeen := true } }

/-- BROWN_HOLD_BEGIN (R522, R523): it counts in every power state. -/
def execBrownHoldBegin (s : State) : Host.Outcome State Fault Refusal :=
  if s.brown = true ∨ s.resets.active = some .cold then .next s
  else
    let s := (s.addSat fld_PWR_BROWN_COUNT_COUNT 1).setFlag fld_PWR_STATUS_BROWN true
    let s := { s with power := { s.power with nandHeld := true }, cast := { s.cast with fusesHeld := true } }
    .next s.markBrown.takeSteps

/-- BROWN_HOLD_END (R319, R522, R542): a checkpoint that the hold kept back is written. -/
def execBrownHoldEnd (us : Nat) (s : State) : Host.Outcome State Fault Refusal :=
  if s.brown = false then .next s
  else
    let s := (s.raiseMax fld_PWR_BROWN_WORST_WORST_US us).setFlag fld_PWR_STATUS_BROWN false
    .next { s with power := { s.power with nandHeld := false }, cast := { s.cast with fusesHeld := false } }.takeSteps.checkpointFull

end Sys2Proof.Machine
end

