-- ==== Sys2Proof/Machine/SwatchReset.lean ====
section
/-!
DEFINITION. Swatch resets: the request, the clear, the release and the restore of a reset group (R56, R77 to R83, R119, R120, R202,
R222, R252, R291, R314, R318, R363, R409, R467, R489, R497, R532, R536).
-/
namespace Sys2Proof.Machine

/-! ### What each group loses -/

/-- The key of an SRAM byte, an object or an uncorrectable word, as a swatch. -/
def dropKeys {α : Type} (m : Store α) (unit : Nat) (l : List Nat) : Store α := m.filter (fun e => !l.contains (e.1 / unit))

/-- The SRAM of swatches is cleared (R81). -/
def State.clearSram (s : State) (l : List Nat) : State :=
  { s with sram := dropKeys s.sram (2 ^ 64) l, sramLen := dropKeys s.sramLen (2 ^ 24) l,
           sramBad := dropKeys s.sramBad (2 ^ 40) l }

/-- The nodes running on the engines of a swatch end PARTNER_RESET (R222, R252). -/
def State.endEngines (s : State) (n : Nat) : State :=
  let l := s.allNodes.filter (fun x => x.2.2.2.phase == .running && (match x.2.2.2.engine with | some e => engineSwatch e == n | none => false))
  l.foldl (fun s x => s.endNode x.2.1 x.2.2.1 codePartnerReset) s

/-- A reset of VIS_1 ends every job; the map task goes on to its next candidate (R233). -/
def State.resetVerifier (s : State) : State :=
  let jobs := s.allJobs
  let s := s.dropJobs
  match jobs.find? (·.requester == 1) with
  | some j => s.admitLoop (j.result verDeadline 0 0 0 0 [])
  | none => s

/-- A request that runs on a core ends PARTNER_RESET, on every core of its group (R291, R295). -/
def State.endRequest (s : State) (q : NeuralRun) : State :=
  let s := s.failRequest q codePartnerReset
  let (_, s) := s.removeRequest q.graph q.node
  match s.node? q.graph q.node with
  | some r => s.endNode q.graph q.node (r.verdict.getD codePartnerReset)
  | none => s

/-- A reset of a neural core. -/
def State.resetCore (s : State) (c : Nat) : State :=
  let s := (s.neural.running.filter (·.covers c)).foldl State.endRequest s
  { s with neural := { s.neural with arena := dropKeys s.neural.arena (2 ^ 21) [c], halves := dropKeys s.neural.halves 2 [c] } }.dispatch

/-- The slots of a core are emptied, and its problem numbers start again (R409). -/
def State.resetSlots (s : State) (c : Nat) : State :=
  { s with solv := { s.solv with slots := dropKeys s.solv.slots 8 [c], running := Store.set none s.solv.running c none,
                                 formed := Store.set none s.solv.formed c none, numbers := Store.set 0 s.solv.numbers c 0 } }

/-- A reset of SOLV_0, with the Class A sequencer. -/
def State.resetSolv0 (s : State) : State :=
  let s := s.resetSlots 0
  { s with clsA := ClassA.reset, solv := { s.solv with stopPoint := none } }

/-- A reset of SOLV_1, with its queue and the window and map tasks. -/
def State.resetSolv1 (s : State) : State :=
  let s := s.resetSlots 1
  let s := { s with solv := { s.solv with suspended := none, queue := [], loading := none, stopPoint := none },
                    window := Window.reset, map := MapTask.reset }
  s.resetPlace

/-- A reset of group 1 (R202, R222, R291): every activation, hold and request ends without result. -/
def State.resetGroup1 (s : State) : State :=
  let s := s.cutImages
  { s with neural := Neural.reset, track := { s.track with updates := [] } }.resetVision

/-- A reset of HOST (R489, R495, R497). -/
def State.resetHost (s : State) : State :=
  let s := (s.resetTransmit.resetCommands.clearHostContexts).abandonFeeder 1
  { s with ports := Ports.reset,
           links := { s.links with cmdAlive := [], readPointer := 0, maxWrite := Links.reset.maxWrite, maxRead := Links.reset.maxRead } }

/-- A reset of ETH gives both ports the effect of a port reset. -/
def State.resetEth (s : State) : State :=
  (s.resetEthPort 0).resetEthPort 1

/-- A reset of IMU: reads and initialisation stop, and samples in flight are lost (R364). -/
def State.resetImu (s : State) : State :=
  { s with track := { s.track with arrived := [] }, links := { s.links with initRunning := false, initNext := 0, initAddressed := [], imuWaiting := [], imuI3c := none, imuSpi := none } }

/-- What the units of a group lose as it enters reset. -/
def State.resetUnits (s : State) (g : Nat) : State :=
  if g = 1 then s.resetGroup1
  else if g = 2 then s.endEngines 9
  else if g = 3 then (s.endEngines 10).resetVerifier
  else if g = 4 then s.endEngines 11
  else if g = 5 then s.resetTracking.emptyPool
  else if g = 6 then s.resetSolv0
  else if g = 7 then s.resetSolv1
  else if g = 9 then s.resetEth
  else if g = 10 then s.resetImu
  else if g = 11 then s.resetHost
  else if 28 ≤ g then s.resetCore (g - 28)
  else if 12 ≤ g then (s.resetNand (g - 12)).dropChannelMove (g - 12)
  else s

/-! ### Registers of the group (R21, R81) -/

/-- What a swatch reset leaves of a register: FUSE, STICKY, and the frame counts of the streams (R202). -/
def groupMask (a : Nat) : Word := keptMask true a ||| (if (List.range 12).any (fun n => reg_STREAM_FRAMES n == a) then BitVec.allOnes 32 else 0)

/-- The registers of swatches lose what a reset takes, and reload what the image gave them. -/
def State.reloadRegs (s : State) (l : List Nat) : State :=
  let left := s.regs.filterMap (fun e =>
    if l.contains (servedBy e.1) then (if e.2 &&& groupMask e.1 = 0 then none else some (e.1, e.2 &&& groupMask e.1)) else some e)
  let regs := s.cast.castRegs.foldl (fun m e =>
    if l.contains (servedBy e.1) then Store.set 0 m e.1 (Store.get 0 m e.1 ||| e.2) else m) left
  { s with regs := regs, shadow := s.shadow.filter (fun e => !l.contains (servedBy e.1)) }

/-! ### The sequence of Table 2.6 -/

/-- Record a swatch reset (R89). -/
def State.recordReset (s : State) (n cause : Nat) : State :=
  ((s.addSat fld_SW_RESET_LAST_COUNT 1).setFld fld_SW_RESET_LAST_CAUSE cause).setFld fld_SW_RESET_LAST_SWATCH n

/-- The outer halves of the group's crossings are in reset: pending events and messages are lost (R78, R80). -/
def State.clearCrossings (s : State) (l : List Nat) : State :=
  { s with sw := { s.sw with crossing := s.sw.crossing.filter (fun e => !l.contains (crossingEnd e.1)),
                             strobes := s.sw.strobes.filter (fun e => !l.contains (crossingEnd e.1)) } }.dropCrossings l

/-- A group enters reset. -/
def State.enterReset (s : State) (g : Nat) : State :=
  let l := groupMembers g
  let s := if l.any s.onClassAPath then s.stopForReset else s
  let s := ((s.setGroupPhase g .clearing).setInReset l true).setGated l false
  let s := (s.resetUnits g).clearCrossings l
  (l.foldl State.releasePins s).clearSram l

/-- The request has arrived, or has been overtaken. -/
def State.takeRequest (s : State) (n cause : Nat) : State :=
  { s with sw := { s.sw with requests := dropFirst (· == (n, cause)) s.sw.requests } }

/-- SWATCH_RESET_REQUEST (R79, R81, R82, R120): a reset of MEM is carried out as a warm reset. -/
def execSwatchResetRequest (swatch : Fin 48) (cause : Fin 4) (s : State) : Host.Outcome State Fault Refusal :=
  if s.alive = false ∨ s.sw.requests.contains (swatch.val, cause.val) = false then .next s
  else
    let s := s.takeRequest swatch cause
    let g := groupOf swatch
    if g = 0 ∨ s.flag fld_SYS_LOCK_LOCKED = false ∨ s.inReset swatch = true then .next s
    else
      let s := s.recordReset swatch cause
      .next (if g = 8 then s.beginWarm 6 0 else s.enterReset g)

/-- SWATCH_SRAM_CLEARED (R81): the group's registers are reloaded. -/
def execSwatchSramCleared (group : Fin 44) (s : State) : Host.Outcome State Fault Refusal :=
  if s.alive = false ∨ s.groupPhase group ≠ .clearing then .next s
  else .next ((s.setGroupPhase group .cleared).reloadRegs (groupMembers group))

/-- The kept data of a group go back into its SRAM (R120). -/
def State.restoreData (s : State) (l : List Nat) : State :=
  let bytes := s.cast.kept.filter (fun e => l.contains (e.1 / 2 ^ 64))
  let lens := s.cast.keptLen.filter (fun e => l.contains (e.1 / 2 ^ 24))
  { s with sram := bytes.foldl (fun m e => Store.set 0 m e.1 e.2) s.sram,
           sramLen := lens.foldl (fun m e => Store.set 0 m e.1 e.2) s.sramLen }

/-- The group has data to restore. -/
def State.hasKept (s : State) (g : Nat) : Bool := s.cast.keptLen.any (fun e => (groupMembers g).contains (e.1 / 2 ^ 24))

/-- The group's checks run again over its restored data (R184, R210, R338, R504). -/
def State.recheck (s : State) (g : Nat) : State :=
  if g = 1 then s.checkVision else if g = 5 then s.checkTracking else if g = 10 then s.startInit else s

/-- The restore of a group is complete. A solver core waits for the analysis of its slots (R409). -/
def State.finishRestore (s : State) (g : Nat) : State :=
  let s := (s.restoreData (groupMembers g)).recheck g
  let s := if g = 6 then s.coreRestored 0 else if g = 7 then s.coreRestored 1 else s.setGroupPhase g .running
  (s.regate.takeSteps.drainPorts).serveWaiting

/-- What resumes as a group is released: flash channels initialise, queued requests may find cores (R289, R467). -/
def State.resumeGroup (s : State) (g : Nat) : State :=
  if 28 ≤ g then s.dispatch else if 12 ≤ g then s.startChannels [g - 12] else if g = 3 then s.takeJob else s

/-- SWATCH_RESET_RELEASE (R81, R120): the halves of the crossings are released; with nothing to restore the restore is complete. -/
def execSwatchResetRelease (group : Fin 44) (s : State) : Host.Outcome State Fault Refusal :=
  if s.alive = false ∨ s.groupPhase group ≠ .cleared then .next s
  else
    let s := ((s.setGroupPhase group .restoring).setInReset (groupMembers group) false).takeSteps.resumeGroup group
    .next (if s.hasKept group then s else s.finishRestore group)

/-- SWATCH_RESTORE_DONE (R120). -/
def execSwatchRestoreDone (group : Fin 44) (s : State) : Host.Outcome State Fault Refusal :=
  if s.alive = false ∨ s.groupPhase group ≠ .restoring ∨ s.hasKept group = false then .next s
  else .next (s.finishRestore group)

end Sys2Proof.Machine
end

