-- ==== Sys2Proof/Machine/Power.lean ====
section
/-!
DEFINITION. Power states: requests, entries and wakes (R525 to R532, R540, R541).
-/
namespace Sys2Proof.Machine

/-- How deep a state lies. -/
def PowerState.depth : PowerState → Nat
  | .run => 0
  | .doze => 1
  | .nap => 2
  | .hibernate => 3

/-- The state of Table 15.5 that PWR_STATUS.STATE shows. -/
def State.powerDepth (s : State) : Nat := s.powerCode

/-- Set a part of the power state. -/
def State.setPower (s : State) (p : Power) : State := { s with power := p }

/-- A transition begins or ends (PWR_STATUS.CHANGING). -/
def State.setTransition (s : State) (t : Option Transition) : State :=
  (s.setFlag fld_PWR_STATUS_CHANGING t.isSome).setPower { s.power with transition := t }

/-- PWR_STATUS.STATE, with DOZE and NAP counted as they are entered (R542). -/
def State.enterState (s : State) (code : Nat) : State :=
  let s := s.setFld fld_PWR_STATUS_STATE code
  if code = 1 then s.addSat fld_PWR_STATE_COUNTS_DOZE 1 else if code = 2 then s.addSat fld_PWR_STATE_COUNTS_NAP 1 else s

/-! ### Wakes (R530) -/

/-- The wake time in the registers, where TIME_EN is 1. -/
def State.askedWakeTime (s : State) : Option Stamp :=
  if s.flag fld_PWR_WAKE_TIME_EN then some (mkStamp (s.pair reg_PWR_WAKE_SEC_LO) (s.fld fld_PWR_WAKE_NS_NS)) else none

/-- The wake settings in force at entry. -/
def State.latchWake (s : State) : State :=
  s.setPower { s.power with wakeTin0 := s.flag fld_PWR_WAKE_TIN0_EN, wakeFalling := s.flag fld_PWR_WAKE_TIN0_EDGE,
                            wakeTime := s.askedWakeTime, wakeSleep := s.fld fld_PWR_WAKE_SLEEP_S }

/-- A wake to a shallower state begins. -/
def State.beginWake (s : State) (t : PowerState) : State :=
  if t.depth < s.powerCode then (s.setTransition (some (.wake t))).setPower { (s.setTransition (some (.wake t))).power with heldWake := none }
  else s

/-- A wake event: during an entry it is held, the first one; in DOZE or NAP it acts. -/
def State.wakeEvent (s : State) (t : PowerState) : State :=
  match s.power.transition with
  | some (.entry _) => s.setPower { s.power with heldWake := some (s.power.heldWake.getD t) }
  | some (.wake _) => s
  | none => if s.phase = phaseRunning then s.beginWake t else s

/-- An entry ends: a held wake acts, and a wake time already past. -/
def State.endEntry (s : State) : State :=
  let held := s.power.heldWake
  let s := s.setTransition none
  let s := s.setPower { s.power with heldWake := none }
  match held, s.power.wakeTime with
  | some t, _ => s.beginWake t
  | none, some t => if t ≤ s.stamp then s.beginWake .run else s
  | none, none => s

/-! ### Requests (R526, R527) -/

/-- An entry to DOZE or NAP begins. -/
def State.beginEntry (s : State) (t : PowerState) : State :=
  let fresh := s.powerCode = 0
  let s := s.latchWake.setTransition (some (.entry t))
  if fresh then s.dropForDoze else s

/-- HIBERNATE is entered from BOUND; in RUNNING bind-off comes first. -/
def State.askHibernate (s : State) : State :=
  if s.phase = phaseRunning then s.latchWake.beginBindOff true
  else if s.phase = phaseBound then s.latchWake.setTransition (some (.entry .hibernate))
  else s

/-- A request for a state. -/
def State.powerRequest (s : State) (t : PowerState) : State :=
  match s.power.transition with
  | some (.entry e) => if t.depth < e.depth ∧ t.depth ≤ 1 then s.wakeEvent t else s
  | some (.wake _) => s
  | none =>
    if t = .hibernate then s.askHibernate
    else if s.phase ≠ phaseRunning then s
    else if s.powerCode < t.depth then s.beginEntry t
    else s.beginWake t

/-- The state of a PWR_REQ code. -/
def powerStateOf (code : Nat) : PowerState := match code with | 0 => .run | 1 => .doze | 2 => .nap | _ => .hibernate

/-- A write to PWR_REQ (R526): granted, it asks for the state it names. -/
def State.writePowerRequest (s : State) (data : Word) : State :=
  match s.writeTaken reg_PWR_REQ data with
  | some d => s.powerRequest (powerStateOf (d.toNat % 4))
  | none => s

/-- PWR_REQ_RUN, PWR_REQ_DOZE, PWR_REQ_NAP and PWR_REQ_HIBERNATE: the word says which state is asked for. -/
def execPwrReqRun (data : Word) (s : State) : Host.Outcome State Fault Refusal := .next (s.writePowerRequest data)
/-- PWR_REQ_DOZE. -/
def execPwrReqDoze (data : Word) (s : State) : Host.Outcome State Fault Refusal := .next (s.writePowerRequest data)
/-- PWR_REQ_NAP. -/
def execPwrReqNap (data : Word) (s : State) : Host.Outcome State Fault Refusal := .next (s.writePowerRequest data)
/-- PWR_REQ_HIBERNATE. -/
def execPwrReqHibernate (data : Word) (s : State) : Host.Outcome State Fault Refusal := .next (s.writePowerRequest data)

/-! ### Entries (R527 to R529) -/

/-- DOZE_ENTERED (R527): an entry to NAP goes on. -/
def execDozeEntered (s : State) : Host.Outcome State Fault Refusal :=
  if s.alive = false ∨ s.powerCode ≠ 0 then .next s
  else match s.power.transition with
    | some (.entry .doze) => .next ((s.enterState 1).regate).endEntry
    | some (.entry .nap) => .next (s.enterState 1).regate
    | _ => .next s

/-- NAP_ENTERED (R528): DOZE holds, and the loop has stopped. -/
def execNapEntered (s : State) : Host.Outcome State Fault Refusal :=
  if s.alive = false ∨ s.powerCode ≠ 1 ∨ s.power.napLoopStopped = false ∨ s.power.transition ≠ some (.entry .nap) then .next s
  else .next (((s.enterState 2).setPower { (s.enterState 2).power with selfRefresh := true }).regate).endEntry

/-- HIBERNATE holds: every domain but the retention domain is off. -/
def State.hibernate (s : State) : State :=
  let t := s.blank true
  { t with
    sw := { Swatches.reset with inReset := BitVec.allOnes 48 },
    links := { t.links with ospiDriven := false },
    power := { t.power with hibernating := true, poweringUp := s.power.heldWake.isSome, deepPowerDown := true,
                            wakeTin0 := s.power.wakeTin0, wakeFalling := s.power.wakeFalling, wakeSleep := s.power.wakeSleep } }

/-- HIBERNATE_ENTERED (R529): from BOUND; a wake held during the entry acts at once. -/
def execHibernateEntered (s : State) : Host.Outcome State Fault Refusal :=
  if s.alive = false ∨ s.phase ≠ phaseBound ∨ s.power.transition ≠ some (.entry .hibernate) then .next s else .next s.hibernate

/-! ### Wake events -/

/-- The power switches close again. -/
def State.powerUp (s : State) : State := s.setPower { s.power with poweringUp := true }

/-- Device time stands in DOZE or NAP, or on the way there. -/
def State.napping (s : State) : Bool :=
  match s.power.transition with
  | some (.entry .doze) => true
  | some (.entry .nap) => true
  | some _ => false
  | none => decide (1 ≤ s.powerCode) && s.phase == phaseRunning

/-- WAKE_TIME (R530): device time reaches the wake time in force. -/
def execWakeTime (s : State) : Host.Outcome State Fault Refusal :=
  match s.power.wakeTime with
  | some t => if s.alive ∧ s.napping then .next ((s.advanceTo t).wakeEvent .run) else .next s
  | none => .next s

/-- The edge is the one that wakes. -/
def State.tinWakes (s : State) (rising : Bool) : Bool := s.power.wakeTin0 && (rising != s.power.wakeFalling)

/-- TIN0_WAKE (R530). -/
def execTin0Wake (rising : Bool) (s : State) : Host.Outcome State Fault Refusal :=
  if s.tinWakes rising = false then .next s
  else if s.power.hibernating then .next (if s.resets.active.isNone then s.powerUp else s)
  else if s.alive ∧ (s.napping ∨ s.entering = true) then .next (s.wakeEvent .run)
  else .next s

/-- SLEEP_TIMER (R530): it runs from REFCLK. -/
def execSleepTimer (s : State) : Host.Outcome State Fault Refusal :=
  if s.power.hibernating = true ∧ s.power.wakeSleep ≠ 0 ∧ s.resets.refclkAbsent = false ∧ s.resets.active.isNone = true then .next s.powerUp
  else .next s

/-- Streams that were receiving as NAP began wait for their next frame start, and sequence leads are set afresh (R528). -/
def State.resumeStreams (s : State) : State :=
  let s := (List.range 12).foldl State.badFrame s
  (List.range 12).foldl (fun s n => s.setStream n { s.stream n with lead := none, waiting := [] }) s

/-- A wake is complete: the loop resumes at its next boundary, unless its path is still in reset. -/
def State.woken (s : State) (t : PowerState) : State :=
  let nap := s.powerCode = 2
  let s := (s.setFld fld_PWR_STATUS_STATE t.depth).setTransition none
  let s := s.setPower { s.power with napLoopStopped := false, selfRefresh := false }
  let s := if s.loop.stopped = some LoopStop.nap ∧ s.pathClear = false then { s with loop := { s.loop with stopped := some .reset } } else s
  let s := s.regate.takeSteps.drainPorts
  let s := if nap then s.resumeStreams else s
  (s.takeJob.dispatch).serveWaiting

/-- WAKE_DONE (R528, R531). -/
def execWakeDone (s : State) : Host.Outcome State Fault Refusal :=
  match s.alive, s.power.transition with
  | true, some (.wake t) => .next (s.woken t)
  | _, _ => .next s

/-- HIBERNATE_POWER_UP_DONE (R530, R531): a full cast-on follows, RST_CAUSE records HIBERNATE. -/
def execHibernatePowerUpDone (s : State) : Host.Outcome State Fault Refusal :=
  if s.power.poweringUp = false ∨ s.resets.refclkAbsent = true ∨ s.resets.active.isSome = true then .next s
  else
    let s := s.blank true
    .next ((s.setFld fld_RST_CAUSE_LAST 9).addSat fld_RST_CAUSE_WARM_COUNT 1)

end Sys2Proof.Machine
end

