-- ==== Sys2Proof/Machine/Trust.lean ====
section
/-!
DEFINITION. Fuses blown by a commit and in PROVISION, and attestation (R107 to R109, R121, R122, R129 to R132).
-/
namespace Sys2Proof.Machine

/-! ### Commits (R107) -/

/-- ROLLBACK_COMMIT (R107): a granted write of the running image's version while no fuse is being blown. -/
def execRollbackCommit (data : Word) (s : State) : Host.Outcome State Fault Refusal :=
  match s.writeTaken reg_ROLLBACK_COMMIT data with
  | some d =>
    if d.toNat % 128 = s.fld fld_ROLLBACK_IMAGE_VERSION ∧ s.flag fld_SEC_STATE_FUSE_BUSY = false then .next (s.blow s.commitBits)
    else .next s
  | none => .next s

/-- The bit being blown is read back (R108): as blown, and the next one starts; not as blown, and it is blown again. -/
def State.readBack (s : State) (reads : Bool) : State :=
  match s.cast.fuses with
  | f :: r =>
    if reads then
      let s := (s.blown f).setCast { (s.blown f).cast with fuses := r }
      let s := s.setFlag fld_SEC_STATE_FUSE_BUSY (!r.isEmpty)
      if s.flag fld_SYS_LOCK_LOCKED then s.showPending else s
    else s
  | [] => s

/-- FUSE_BIT_BLOWN (R108): no bit is blown or started during brown hold. -/
def execFuseBitBlown (reads : Bool) (s : State) : Host.Outcome State Fault Refusal :=
  if s.alive = false ∨ s.cast.fusesHeld = true then .next s else .next (s.readBack reads)

/-! ### Provisioning (R109) -/

/-- The 1 bits of a word, lowest first, that are not yet blown in a key word. -/
def State.keyBits (s : State) (w : Nat) (data : Word) : List FuseBit :=
  ((List.range 32).filter (fun b => data.getLsbD b && !(s.reg (reg_KEY_DIGEST w)).getLsbD b)).map (FuseBit.key w)

/-- A key slot is blank. -/
def State.blankSlot (s : State) (k : Nat) : Bool := (List.range 16).all (fun w => s.reg (reg_KEY_DIGEST (16 * k + w)) == 0)

/-- What LOCK_KEYS blows: PRESENT for every slot that is not blank, then KEYS_LOCKED. -/
def State.lockBits (s : State) : List FuseBit :=
  (((List.range 4).filter (fun k => !s.blankSlot k)).map FuseBit.present) ++ [FuseBit.keysLocked]

/-- A write to FUSE_PROG_CTRL: SLOT and WORD are taken, then PROGRAM and LOCK_KEYS act where no fuse is being blown; LOCK_KEYS is
ignored while slot 0 is blank. Where one write sets both, the word's bits are blown first, while the slots are judged blank on the
fuses as they stand at the write (R109 gives no order; log entry 18). -/
def State.programWrite (s : State) (m data : Word) : State :=
  let s := s.applyWrite reg_FUSE_PROG_CTRL m data
  if s.flag fld_SEC_STATE_FUSE_BUSY then s
  else
    let w := 16 * s.fld fld_FUSE_PROG_CTRL_SLOT + s.fld fld_FUSE_PROG_CTRL_WORD
    let words := if data.getLsbD 8 then s.keyBits w (s.reg reg_FUSE_PROG_DATA) else []
    let locks := if data.getLsbD 9 && !s.blankSlot 0 then s.lockBits else []
    if words.isEmpty && locks.isEmpty then s else s.blow (words ++ locks)

/-- PROGRAM (R109). -/
def execProgram (data : Word) (s : State) : Host.Outcome State Fault Refusal :=
  match s.writeMask reg_FUSE_PROG_CTRL data with
  | some m => .next (s.programWrite m data)
  | none => .next s

/-- LOCK_KEYS (R109). -/
def execLockKeys (data : Word) (s : State) : Host.Outcome State Fault Refusal :=
  match s.writeMask reg_FUSE_PROG_CTRL data with
  | some m => .next (s.programWrite m data)
  | none => .next s

/-! ### Attestation (R121, R122) -/

/-- START latches the nonce and sets BUSY; while BUSY, or with an untrusted fuse array, it is ignored (R111, R121). -/
def State.attest (s : State) : State :=
  if s.flag fld_ATTEST_STATUS_BUSY ∨ s.cast.fuseErr = true then s
  else
    let nonce := (List.range 8).flatMap (fun i => wordBytes (s.reg (reg_ATTEST_NONCE i)))
    (s.setFlag fld_ATTEST_STATUS_BUSY true).setCast { s.cast with nonce := nonce }

/-- ATTEST_START (R121). -/
def execAttestStart (data : Word) (s : State) : Host.Outcome State Fault Refusal :=
  match s.writeTaken reg_ATTEST_CTRL data with
  | some d => if d.getLsbD 0 then .next s.attest else .next s
  | none => .next s

/-- The device public keys (R132). -/
def deviceEd : List Byte := (List.range 8).flatMap (fun i => wordBytes (Config.devEdPub i))
def deviceMldsa : List Byte := (List.range 488).flatMap (fun i => wordBytes (Config.devMldsaPub i))

/-- The 256-byte report body (Table 3.12). -/
def State.reportBody (s : State) : List Byte :=
  let slot := (if s.flag fld_KEY_STATUS_IMAGE_SLOT then 1 else 0) + 16 * s.fld fld_KEY_STATUS_REVOKED
  toLe 4 0x41545354 ++ toLe 2 1 ++ toLe 2 0 ++ s.cast.nonce ++ sha512 (deviceEd ++ deviceMldsa) ++
    (List.range 16).flatMap (fun i => wordBytes (s.reg (reg_IMAGE_DIGEST i))) ++ wordBytes (s.reg reg_CASTON_SEQ) ++
    toLe 1 (s.fld fld_ROLLBACK_IMAGE_VERSION) ++ toLe 1 (s.fld fld_ROLLBACK_COUNTER) ++ toLe 1 (s.fld fld_KEY_STATUS_SLOT_IN_USE) ++
    toLe 1 slot ++ wordBytes (s.reg reg_SYS_BOOT_COUNT) ++ toLe 1 (s.fld fld_CASTON_STATUS_RESULT_A) ++
    toLe 1 (s.fld fld_CASTON_STATUS_RESULT_B) ++ toLe 2 0 ++ toLe 8 (stampSec s.stamp) ++ toLe 4 (stampNs s.stamp) ++
    wordBytes (s.reg reg_PWR_BROWN_COUNT) ++ List.replicate 56 0

/-- The whole report: body, both signatures over the SHA-512 of the body, and padding to 908 words. -/
def State.attestReport (s : State) : List Byte :=
  let b := s.reportBody
  let d := sha512 b
  b ++ (List.range 64).map (Config.ed25519Sign d) ++ (List.range 3309).map (Config.mldsaSign d) ++ [0, 0, 0]

/-- ATTEST_DONE (R121). -/
def execAttestDone (s : State) : Host.Outcome State Fault Refusal :=
  if s.alive = false ∨ s.dozing = true ∨ s.flag fld_ATTEST_STATUS_BUSY = false then .next s
  else
    let r := toWords 908 s.attestReport
    let s := ((s.setFlag fld_ATTEST_STATUS_BUSY false).setFlag fld_ATTEST_STATUS_DONE true).addSat fld_ATTEST_STATUS_COUNT 1
    .next ((s.setCast { s.cast with report := r }).raiseIbi ibiAttest)

/-- The report word that ATTEST_WIN_ADDR selects: zero while BUSY, beyond word 907, and before the first report. -/
def State.attestWord (s : State) : Word :=
  if s.flag fld_ATTEST_STATUS_BUSY then 0 else s.cast.report.getD (s.fld fld_ATTEST_WIN_ADDR_WORD) 0

/-- Answer a read with one word. -/
def State.answerWord (s : State) (w : Word) : State := { s with out := { s.out with words := [w] } }

/-- ATTEST_WIN_DATA_READ (R122). -/
def execAttestWinDataRead (_port : Nat) (s : State) : Host.Outcome State Fault Refusal :=
  if s.reachable reg_ATTEST_WIN_DATA then
    .next ((s.answerWord s.attestWord).addWrap fld_ATTEST_WIN_ADDR_WORD 1)
  else .next (s.answerWord 0)

end Sys2Proof.Machine
end

