-- ==== Sys2Proof/Machine/View.lean ====
section
/-!
DEFINITION. Registers whose value follows the state of the unit they show: what a read finds in each, beside what the register file
holds.
-/
namespace Sys2Proof.Machine

/-- A value in a field's place. -/
def Fld.put (f : Fld) (v : Nat) : Nat := v % 2 ^ f.width * 2 ^ f.lo
def Fld.putBit (f : Fld) (b : Bool) : Nat := f.put b.toNat

/-! ### System, swatches and power (R86, R88, R117, R132, R133, R122, R557, R580) -/

/-- A word of a grant entry in force. -/
def State.grantWord (s : State) (n : Nat) (f : Grant → Word) : Nat :=
  if s.flag fld_SYS_LOCK_LOCKED then match s.cast.grants[n]? with | some g => (f g).toNat | none => 0 else 0

/-- SW_CLK_n: GROUP and ARITH are FUSE fields. -/
def State.clockView (s : State) (n : Nat) : Nat :=
  let fuse := if s.cast.fuseErr then 0 else (fld_SW_CLK_GROUP n).put (groupOf n) + (fld_SW_CLK_ARITH n).putBit (arithSwatch n)
  fuse + (fld_SW_CLK_MHZ n).put (s.mhz n) + (fld_SW_CLK_IN_RESET n).putBit (s.inReset n) +
    (fld_SW_CLK_CLASS_A n).putBit (s.onClassAPath n) +
    (fld_SW_CLK_STEP n).put (if arithSwatch n then Store.get 0 s.sw.step n else 0)

/-- The conditions of R50 for the running loop. -/
def State.guarantee (s : State) : Bool :=
  s.loopRunning && s.clsA.slot.isSome && decide (400 ≤ s.loop.launch) &&
    [12, 13, 14].all (fun n => !s.onClassAPath n || decide (Store.get 0 s.sw.step n ≤ 1))

/-- A word of a device public key (R132): zero until fuse sensing has derived the keys (R110), and where the fuse array is not
trusted (R111). -/
def State.keyWord (s : State) (w : Word) : Nat := if s.cast.fuseErr || s.cast.step == .fuseSense then 0 else w.toNat

def State.systemView (s : State) (b n : Nat) : Nat :=
  if b = reg_SYS_GRANT_ADDRESS 0 then s.grantWord n Grant.addr
  else if b = reg_SYS_GRANT_MASK 0 then s.grantWord n Grant.mask
  else if b = reg_SYS_GRANT_LOWER 0 then s.grantWord n Grant.lower
  else if b = reg_SYS_GRANT_UPPER 0 then s.grantWord n Grant.upper
  else if b = (fld_SW_CLK_GROUP 0).addr then s.clockView n
  else if b = reg_SW_IN_RESET_LO then s.sw.inReset.toNat
  else if b = reg_SW_IN_RESET_HI then s.sw.inReset.toNat / 2 ^ 32
  else if b = fld_CLA_STATUS_GUARANTEE.addr then fld_CLA_STATUS_GUARANTEE.putBit s.guarantee
  else if b = reg_FAULT_LOG_DATA then (Store.get 0 s.integ.log (s.fld fld_FAULT_LOG_ADDR_WORD)).toNat
  else if b = reg_ATTEST_WIN_DATA then s.attestWord.toNat
  else if b = (fld_CAL_EFF_VALUE 0).addr then (s.calEff n % 65536).toNat
  else if b = reg_DEV_ED_PUB 0 then s.keyWord (Config.devEdPub n)
  else if b = reg_DEV_MLDSA_PUB 0 then s.keyWord (Config.devMldsaPub n)
  else 0

/-! ### Device time and links (R173, R178, R180, R203, R510) -/

/-- TIN_STATUS_n; with no head entry its fields read zero. -/
def State.tinView (s : State) (n : Nat) : Nat :=
  let v := s.tin n
  match v.queue with
  | [] => 0
  | c :: _ => (fld_TIN_STATUS_HEAD_SEQ n).put v.seq + (fld_TIN_STATUS_HEAD_EDGE n).putBit c.rising + (fld_TIN_STATUS_LEVEL n).put v.queue.length

/-- The head capture's stamp. -/
def State.tinStamp (s : State) (n : Nat) : Stamp := match (s.tin n).queue with | [] => 0 | c :: _ => c.stamp

/-- CSI_RX_STATUS_n: a frame start within the last 100 ms; the lanes' stop state is the pins'. -/
def State.rxView (s : State) (n : Nat) : Nat :=
  let active := match Store.get none s.vis.portStart n with | some t => decide (s.stamp ≤ t + usStamp 100000) | none => false
  (fld_CSI_RX_STATUS_ACTIVE n).putBit active + (fld_CSI_RX_STATUS_STOP n).putBit (Config.stopState n s.time.now)

def State.timeView (s : State) (b n : Nat) : Nat :=
  if b = reg_TIME_NOW_SEC_LO then stampSec s.stamp
  else if b = reg_TIME_NOW_SEC_HI then stampSec s.stamp / 2 ^ 32
  else if b = reg_TIME_NOW_NS then stampNs s.stamp
  else if b = reg_TIME_NOW_FRAC then stampFrac s.stamp
  else if b = (fld_LQ_STATUS_DEPTH 0).addr then (fld_LQ_STATUS_DEPTH n).put (s.mac n).launch.length
  else if b = (fld_TIN_STATUS_OVR 0).addr then s.tinView n
  else if b = reg_TIN_SEC_LO 0 then stampSec (s.tinStamp n)
  else if b = reg_TIN_SEC_HI 0 then stampSec (s.tinStamp n) / 2 ^ 32
  else if b = reg_TIN_NS 0 then stampNs (s.tinStamp n)
  else if b = reg_TIN_FRAC 0 then stampFrac (s.tinStamp n)
  else if b = (fld_CSI_TX_STATUS_BUSY 0).addr then (fld_CSI_TX_STATUS_BUSY n).putBit (s.txPortState n).busy.isSome
  else if b = (fld_CSI_RX_STATUS_ACTIVE 0).addr then s.rxView n
  else 0

/-! ### Vision and neural fabric (R204 to R206, R236, R254, R294, R297) -/

/-- A stitch marker as host software sees it (Table 5.11). -/
def Marker.word (m : Marker) : Nat :=
  let state := match m.state with | .idle => 0 | .writing => 1 | .published => 2
  (m.readers.foldl (fun w c => Nat.lor w (2 ^ (c % 16))) 0) * 2 ^ 16 + m.gen % 4096 * 16 + min 3 m.holds.length * 4 + state

/-- SGM_STATUS_e. -/
def State.sgmView (s : State) (e : Nat) : Nat :=
  match s.runningOn (8 + e) with
  | [] => 0
  | x :: _ => (fld_SGM_STATUS_GRAPH e).put x.2.1 + (fld_SGM_STATUS_NODE e).put x.2.2.1 + (fld_SGM_STATUS_BUSY e).putBit true

/-- A core's passes wait for a chunk: everything else its present step needs is there (R285). -/
def State.coreWaits (s : State) (q : NeuralRun) (c : Nat) : Bool :=
  match s.node? q.graph q.node with
  | some r =>
    let d := s.nodeDesc q.graph q.node
    let need := ((s.chunkList q d r (c - q.base)).filter (fun x => decide (x.1 ≤ q.step))).length
    q.started && !q.complete && r.verdict.isNone && r.inputsReady && decide (Store.get 0 q.loaded (c - q.base) < need)
  | none => false

/-- NE_CORE_STATUS_n. -/
def State.coreView (s : State) (c : Nat) : Nat :=
  match s.neural.running.find? (·.covers c) with
  | none => 0
  | some q => (fld_NE_CORE_STATUS_STEP c).put q.step + (fld_NE_CORE_STATUS_PROGRAM c).put q.program +
      (fld_NE_CORE_STATUS_WAIT_W c).putBit (s.coreWaits q c) + (fld_NE_CORE_STATUS_BUSY c).putBit true

/-- NE_STATUS. -/
def State.neuralView (s : State) : Nat :=
  fld_NE_STATUS_CORES_BUSY.put (((List.range 16).filter s.coreBusy).foldl (fun w c => w + 2 ^ c) 0) +
    fld_NE_STATUS_RUNNING.put s.neural.running.length + fld_NE_STATUS_QUEUED.put s.neural.queue.length

def State.visionView (s : State) (b n : Nat) : Nat :=
  if b = (fld_STREAM_STATUS_ACTIVE 0).addr then
    (fld_STREAM_STATUS_ACTIVE n).putBit (s.streamOn n && !s.flag (fld_CSI_RX_STATUS_IN_RESET (s.fld (fld_STREAM_CFG_PORT n))))
  else if b = (fld_PAIR_STATUS_ACTIVE 0).addr then (fld_PAIR_STATUS_ACTIVE n).putBit (s.groupOn n)
  else if b = (fld_STITCH_MARKER_STATE 0).addr then (s.marker n).word
  else if b = fld_VER_STATUS_BUSY.addr then
    fld_VER_STATUS_QUEUED.put s.vis.verifier.length + fld_VER_STATUS_BUSY.putBit s.vis.verifying.isSome
  else if b = (fld_SGM_STATUS_BUSY 0).addr then s.sgmView n
  else if b = (fld_NE_CORE_STATUS_BUSY 0).addr then s.coreView n
  else if b = fld_NE_STATUS_QUEUED.addr then s.neuralView
  else 0

/-! ### Tracking, solvers, search and memory (R334, R368, R412, R414, R415, R474, R478) -/

/-- Samples of an IMU in the last whole second of device time. -/
def State.imuRateSeen (s : State) (n : Nat) : Nat :=
  let t := s.imu n
  let now := stampSec s.stamp
  if t.second = now then t.before else if t.second + 1 = now then t.count else 0

/-- SOLV_STATUS_c. -/
def State.solverView (s : State) (c : Nat) : Nat :=
  let shown := match Store.get none s.solv.running c with
    | none => 0
    | some p => (fld_SOLV_STATUS_SLOT c).put p.request.slot + (fld_SOLV_STATUS_PHASE c).put p.phase +
        (fld_SOLV_STATUS_CLASS_A c).putBit (p.task == .classA) + (fld_SOLV_STATUS_BUSY c).putBit true
  let loading := (c == 1 && s.solv.loading.isSome) || (List.range 8).any (s.unjudged c)
  shown + (fld_SOLV_STATUS_QUEUED c).put (if c = 1 then s.solv.queue.length else 0) +
    (fld_SOLV_STATUS_SUSPENDED c).putBit (c == 1 && s.solv.suspended.isSome) + (fld_SOLV_STATUS_LOADING c).putBit loading

/-- A slot is resident for Class A; SOLV_1's only as one of a pair (R381, R416). -/
def State.slotReadyA (s : State) (c k : Nat) : Bool :=
  if c = 0 then s.readyForClassA k
  else s.paired && (s.solverSlot 1 k).code == codeResident &&
    (match s.structureOf 1 k with | some t => t.classA && !s.classARefuses 1 k t | none => false)

/-- SOLV_SLOT_c_k. -/
def State.slotView (s : State) (c k : Nat) : Nat :=
  let v := s.solverSlot c k
  let shape := match s.structureOf c k with
    | some t => (fld_SOLV_SLOT_0_SUPERNODES k).put t.supernodes + (fld_SOLV_SLOT_0_KIND k).put t.kind
    | none => 0
  shape + (fld_SOLV_SLOT_0_A_READY k).putBit (s.slotReadyA c k) +
    (fld_SOLV_SLOT_0_PROVED k).putBit (match v.factor with | some f => f.proved | none => false) +
    (fld_SOLV_SLOT_0_FACTOR k).putBit v.factor.isSome + (fld_SOLV_SLOT_0_RUNTIME k).putBit v.runtime + (fld_SOLV_SLOT_0_CODE k).put v.code

/-- The signature of a slot. -/
def State.slotSignature (s : State) (c k : Nat) : Nat := match s.structureOf c k with | some t => t.signature | none => 0

/-- The footprint of a slot in KiB. -/
def State.slotFoot (s : State) (c k : Nat) : Nat := match s.structureOf c k with | some t => t.footprint / 1024 | none => 0

/-- SOLV_A_SCHED_n: the bounds of Table 11.11 for the slot in use. -/
def State.scheduleView (s : State) (n : Nat) : Nat :=
  match s.clsA.slot.bind (s.structureOf 0) with
  | none => 0
  | some t =>
    min 0xFFFFFF (match n with
      | 0 => t.assemblyCycles (s.fld fld_SOLV_A_CFG_FEED)
      | 1 => t.factorCycles
      | 2 => 40 * t.iterCycles
      | _ => t.finalCycles (s.fld (fld_SOLV_CFG_REFINE_MAX 0)))

def State.solverBlockView (s : State) (b n : Nat) : Nat :=
  if b = (fld_SOLV_STATUS_BUSY 0).addr then s.solverView n
  else if b = reg_SOLV_A_SCHED 0 then s.scheduleView n
  else if b = (fld_SOLV_SLOT_0_CODE 0).addr then s.slotView 0 n
  else if b = (fld_SOLV_SLOT_1_CODE 0).addr then s.slotView 1 n
  else if b = (fld_SOLV_FOOT_0_FOOT_KIB 0).addr then s.slotFoot 0 n
  else if b = (fld_SOLV_FOOT_1_FOOT_KIB 0).addr then s.slotFoot 1 n
  else if b = reg_SOLV_SIG_LO_0 0 then s.slotSignature 0 n
  else if b = reg_SOLV_SIG_HI_0 0 then s.slotSignature 0 n / 2 ^ 32
  else if b = reg_SOLV_SIG_LO_1 0 then s.slotSignature 1 n
  else if b = reg_SOLV_SIG_HI_1 0 then s.slotSignature 1 n / 2 ^ 32
  else 0

def State.storeView (s : State) (b n : Nat) : Nat :=
  if b = (fld_IMU_STATUS_RATE_HZ 0).addr then (fld_IMU_STATUS_RATE_HZ n).put (s.imuRateSeen n)
  else if b = (fld_IDX_PINS_PINS_A 0).addr then
    (fld_IDX_PINS_PINS_A n).put (s.regionPins n false) + (fld_IDX_PINS_PINS_B n).put (s.regionPins n true)
  else if b = (fld_NCH_STATUS_CONTEXTS 0).addr then (fld_NCH_STATUS_CONTEXTS n).put (s.contextsUsed n)
  else if b = fld_MEM_USE_POOL_USED_KIB.addr then
    fld_MEM_USE_POOL_USED_KIB.put (s.poolUsed / 1024) + fld_MEM_USE_DRAM_FREE_MIB.put (s.freePages / 256)
  else if b = fld_MEM_PINS_LEDGER_USED.addr then fld_MEM_PINS_LEDGER_USED.put s.mem.pins.length
  else 0

/-! ### The word of a register -/

/-- What a register shows of its unit. -/
def State.computed (s : State) (r : RegRow) (n : Nat) : Nat :=
  s.systemView r.base n + s.timeView r.base n + s.visionView r.base n + s.solverBlockView r.base n + s.storeView r.base n

/-- The present word of a register: SNAP fields from their shadows, WO fields zero (Table 0.2). -/
def State.shown (s : State) (a : Nat) : Word :=
  match regRow a with
  | none => 0
  | some r =>
    let snap := r.maskOf (·.access == .snap)
    let hidden := snap ||| r.maskOf (·.access == .wo)
    ((s.reg a ||| BitVec.ofNat 32 (s.computed r (r.index a))) &&& ~~~ hidden) ||| (Store.get 0 s.shadow a &&& snap)

/-- What a read finds without its effects: an unmapped address and a swatch in reset read zero (R11, R83). -/
def State.peek (s : State) (a : Nat) : Word := if s.reachable a then s.shown a else 0

end Sys2Proof.Machine
end

