-- ==== Sys2Proof/Machine/HostAccess.lean ====
section
/-!
DEFINITION. Register access from outside: reads with their latches, pairs, and writes to every kind of register (R10 to R16, R115, R165,
R173, R500).
-/
namespace Sys2Proof.Machine

/-- The I3C target answers: from step 3 of R110, while HOST is not in reset (R498, R502). -/
def State.hostUp (s : State) : Bool := s.alive && !s.inReset hostSwatch && bit (s.fld fld_PLL_STATUS_LOCK) 2

/-! ### Latches (R13, R173, R204) -/

/-- The words that a read of a _LO word latches beside itself. -/
def latchedWith (a : Nat) : List Nat :=
  if a = reg_TIME_NOW_SEC_LO then [reg_TIME_NOW_SEC_HI, reg_TIME_NOW_NS, reg_TIME_NOW_FRAC]
  else if (List.range 12).any (fun n => reg_STREAM_FS_SEC_LO n == a) then [a + 4, a + 8]
  else [a + 4]

/-- Hold a word for a port, or release it. -/
def State.setLatch (s : State) (port a : Nat) (w : Option Word) : State :=
  { s with ports := { s.ports with latches := Store.set none s.ports.latches (portKey port a) w } }

/-- What a port has latched of a word. -/
def State.latch (s : State) (port a : Nat) : Option Word := Store.get none s.ports.latches (portKey port a)

/-- A read of a _LO word arms the latches afresh. -/
def State.armLatches (s : State) (port a : Nat) : State :=
  if s.reachable a ∧ isPairLo a then (latchedWith a).foldl (fun t b => t.setLatch port b (some (s.peek b))) s else s

/-- Reads of the two windows advance their address (R122, R557). -/
def State.advanceWindow (s : State) (a : Nat) : State :=
  if s.reachable a = false then s
  else if a = reg_ATTEST_WIN_DATA then s.addWrap fld_ATTEST_WIN_ADDR_WORD 1
  else if a = reg_FAULT_LOG_DATA then s.addWrap fld_FAULT_LOG_ADDR_WORD 1
  else s

/-- A port reads a word: the latched one where its latch is armed, else the present one. -/
def State.readReg (s : State) (port a : Nat) : Word × State :=
  match s.latch port a with
  | some w => (w, s.setLatch port a none)
  | none => (s.peek a, (s.armLatches port a).advanceWindow a)

/-- Answer a port's read; a target that does not answer returns nothing. -/
def State.answerRead (s : State) (port a : Nat) : State :=
  if s.hostUp then
    let (w, s) := s.readReg port a
    s.answerWord w
  else { s with out := { s.out with words := [] } }

/-- REGISTER_LO_READ (R13). -/
def execRegisterLoRead (port : Nat) (addr : Word) (s : State) : Host.Outcome State Fault Refusal :=
  if isPairLo addr.toNat then .next (s.answerRead port addr.toNat) else .next s

/-- REGISTER_HI_READ (R13, R173): the _HI word of a pair, or another word of a latched group. -/
def execRegisterHiRead (port : Nat) (addr : Word) (s : State) : Host.Outcome State Fault Refusal :=
  let a := addr.toNat
  if isPairHi a ∨ (latchedWith reg_TIME_NOW_SEC_LO).contains a ∨ (List.range 12).any (fun n => (latchedWith (reg_STREAM_FS_SEC_LO n)).contains a) then
    .next (s.answerRead port a)
  else .next s

/-- TIME_NOW_SEC_LO_READ (R173). -/
def execTimeNowSecLoRead (port : Nat) (s : State) : Host.Outcome State Fault Refusal := .next (s.answerRead port reg_TIME_NOW_SEC_LO)

/-! ### Writes -/

/-- The state after an outcome; an effect of a write is always a next state. -/
def nextOr (s : State) : Host.Outcome State Fault Refusal → State
  | .next t => t
  | _ => s

/-- The registers of the timer outputs that are staged (R165). -/
def stagedAddr (a : Nat) : Bool := (List.range 16).any (fun n => (toutRegisters n).contains a)

/-- Write a word under a mask: a timer output's is staged, any other takes its fields' access codes. -/
def State.putWord (s : State) (a : Nat) (mask data : Word) : State := if stagedAddr a then s.stageTout a mask data else s.applyWrite a mask data

/-- A write to a register that is no pair and acts only through its fields. -/
def State.writePlain (s : State) (a : Nat) (data : Word) : State :=
  match s.writeMask a data with
  | some m => s.putWord a m data
  | none => s

/-- A write of the _HI word of a pair: both halves take effect together where every word written passes (R14, R115). -/
def State.writePair (s : State) (port a : Nat) (data : Word) : State :=
  match s.writeMask a data, s.heldLow port (a - 4) with
  | some m, none => s.putWord a m data
  | some m, some lo =>
    match s.writeMask (a - 4) lo with
    | some k => ((s.putWord (a - 4) k lo).putWord a m data).dropLow port (a - 4)
    | none => s
  | none, _ => s

/-- A unit's index where an address is one of an array's first `n` registers. -/
def instanceAt (base : Nat → Nat) (n a : Nat) : Option Nat := (List.range n).find? (fun i => base i == a)

/-- Registers of whole units, whose writes act. -/
def State.writeActing (s : State) (a : Nat) (data : Word) : Option State :=
  if a = reg_SW_RESET then some (nextOr s (execSwReset data s))
  else if a = reg_PWR_REQ then some (s.writePowerRequest data)
  else if a = reg_RST_CTRL then some (nextOr s (execRstCtrlWarm data s))
  else if a = reg_WDOG_CHIP_KICK then some (nextOr s (execWdogChipKick data s))
  else if a = reg_SNAP_CTRL then some (nextOr s (execSnapArm data s))
  else if a = reg_TIME_CTRL then some (nextOr s (execRearm data s))
  else if a = reg_TIME_RATE then some (nextOr s (execTimeRateWrite data s))
  else if a = reg_SRCH_PROBE_CTRL then some (nextOr s (execSrchProbeStart data s))
  else if a = reg_ROLLBACK_COMMIT then some (nextOr s (execRollbackCommit data s))
  else if a = reg_FUSE_PROG_CTRL then some (nextOr s (execProgram data s))
  else if a = reg_ATTEST_CTRL then some (nextOr s (execAttestStart data s))
  else if a = reg_BIND_OFF_CTRL then some (nextOr s (execBindOffRequest data s))
  else none

/-- Register n of an array. -/
def finOf (n i : Nat) : Option (Fin n) := if h : i < n then some ⟨i, h⟩ else none

/-- A write to register i of an array of n, where the address is one. -/
def State.writeArray (s : State) (n : Nat) (base : Nat → Nat) (a : Nat) (f : Fin n → Host.Outcome State Fault Refusal) : Option State :=
  ((instanceAt base n a).bind (finOf n)).map (fun i => nextOr s (f i))

/-- Registers of arrays, whose writes act. -/
def State.writeActingArray (s : State) (a : Nat) (data : Word) : Option State :=
  (s.writeArray 2 reg_ETH_CTRL a (fun i => execEthPortReset i data s)).orElse fun _ =>
  (s.writeArray 16 reg_TOUT_CTRL a (fun i => execToutCtrlWrite i data s)).orElse fun _ =>
  (s.writeArray 4 reg_TIN_POP a (fun i => execTinPop i data s)).orElse fun _ =>
  (s.writeArray 12 reg_CSI_RX_CTRL a (fun i => execCsiRxPortReset i data s)).orElse fun _ =>
  (s.writeArray 4 reg_CSI_TX_CTRL a (fun i => execCsiTxPortReset i data s)).orElse fun _ =>
  (s.writeArray 8 reg_CHECK_FEED_CTRL a (fun i => execCheckFeedStart i data s)).orElse fun _ =>
  s.writeArray 8 reg_CHECK_FEED_DATA a (fun i => execCheckFeedData i data s)

/-- A port writes a word (R11, R14, R115). -/
def State.hostWrite (s : State) (port a : Nat) (data : Word) : State :=
  if s.hostUp = false then s
  else if isPairLo a then s.holdLow port a data
  else if isPairHi a then s.writePair port a data
  else ((s.writeActing a data).orElse fun _ => s.writeActingArray a data).getD (s.writePlain a data)

/-- REGISTER_WRITE (R115): a word that is no half of a pair. -/
def execRegisterWrite (port : Nat) (addr data : Word) (s : State) : Host.Outcome State Fault Refusal :=
  if isPairLo addr.toNat ∨ isPairHi addr.toNat then .next s else .next (s.hostWrite port addr.toNat data)

/-- REGISTER_LO_WRITE (R14): held for the port until the _HI word is written. -/
def execRegisterLoWrite (port : Nat) (addr data : Word) (s : State) : Host.Outcome State Fault Refusal :=
  if isPairLo addr.toNat then .next (s.hostWrite port addr.toNat data) else .next s

/-- REGISTER_HI_WRITE (R14). -/
def execRegisterHiWrite (port : Nat) (addr data : Word) (s : State) : Host.Outcome State Fault Refusal :=
  if isPairHi addr.toNat then .next (s.hostWrite port addr.toNat data) else .next s

end Sys2Proof.Machine
end

