-- ==== Sys2Proof/Machine/I3c.lean ====
section
/-!
DEFINITION. The I3C target: private transfers, HDR-DDR, common command codes, in-band interrupts and its resets; snapshots as they
complete; and the end of a port reset (R157, R201, R488, R489, R498 to R502, R508, R562, R571).
-/
namespace Sys2Proof.Machine

/-! ### Private transfers (R499) -/

/-- The port number of the I3C target. -/
def i3cPort : Nat := 0

/-- The target has a dynamic address, at which the controller reaches it. -/
def State.addressed (s : State) : Bool := s.hostUp && s.flag fld_I3C_STATUS_ADDR_VALID

/-- Set the read pointer. -/
def State.setPointer (s : State) (a : Word) : State := { s with links := { s.links with readPointer := a } }

/-- Words go to an address and to each following one. -/
def State.writeWords (s : State) : Word → List Word → State
  | _, [] => s
  | a, w :: r => (s.hostWrite i3cPort a.toNat w).writeWords (a + 4) r

/-- A private write; an address alone sets the read pointer. Words beyond the longest write are not taken. -/
def State.privateWrite (s : State) (a : Word) (words : List Word) : State :=
  if words.isEmpty then s.setPointer a else s.writeWords a (words.take (s.links.maxWrite / 4 - 1))

/-- Words from an address onward. -/
def State.readWords (s : State) : Nat → Word → List Word × State
  | 0, _ => ([], s)
  | n + 1, a =>
    let (w, s) := s.readReg i3cPort a.toNat
    let (r, s) := s.readWords n (a + 4)
    (w :: r, s)

/-- A private read, as long as the longest read allows; the pointer advances with each word. -/
def State.privateRead (s : State) (n : Nat) : State :=
  let n := min n (s.links.maxRead / 4)
  let (ws, s) := s.readWords n s.links.readPointer
  { s.setPointer (s.links.readPointer + BitVec.ofNat 32 (4 * n)) with out := { s.out with words := ws } }

/-- I3C_PRIVATE_WRITE. -/
def execI3cPrivateWrite (addr : Word) (words : List Word) (s : State) : Host.Outcome State Fault Refusal :=
  .next (if s.addressed then s.privateWrite addr words else s)

/-- I3C_SET_READ_POINTER. -/
def execI3cSetReadPointer (addr : Word) (s : State) : Host.Outcome State Fault Refusal :=
  .next (if s.addressed then s.setPointer addr else s)

/-- I3C_PRIVATE_READ. -/
def execI3cPrivateRead (words : Nat) (s : State) : Host.Outcome State Fault Refusal :=
  .next (if s.addressed then s.privateRead words else s)

/-- HDR-DDR is accepted. -/
def State.hdrOn (s : State) : Bool := s.addressed && s.flag fld_I3C_CFG_HDR_EN

/-- HDR_DDR_WRITE: command code 0x01. -/
def execHdrDdrWrite (addr : Word) (words : List Word) (s : State) : Host.Outcome State Fault Refusal :=
  .next (if s.hdrOn then s.privateWrite addr words else s)

/-- HDR_DDR_READ: command code 0x81. -/
def execHdrDdrRead (words : Nat) (s : State) : Host.Outcome State Fault Refusal :=
  .next (if s.hdrOn then s.privateRead words else s)

/-! ### Common command codes (R498, R508) -/

/-- ENEC (R501). -/
def execEnec (s : State) : Host.Outcome State Fault Refusal :=
  .next (if s.hostUp then s.setFlag fld_I3C_STATUS_IBI_ON true else s)

/-- DISEC (R501). -/
def execDisec (s : State) : Host.Outcome State Fault Refusal :=
  .next (if s.hostUp then s.setFlag fld_I3C_STATUS_IBI_ON false else s)

/-- Take a dynamic address, or lose it. -/
def State.takeAddress (s : State) (a : BitVec 7) : State :=
  (s.setFld fld_I3C_STATUS_DYN_ADDR a.toNat).setFlag fld_I3C_STATUS_ADDR_VALID true
def State.loseAddress (s : State) : State := (s.setFld fld_I3C_STATUS_DYN_ADDR 0).setFlag fld_I3C_STATUS_ADDR_VALID false

/-- RSTDAA. -/
def execRstdaa (s : State) : Host.Outcome State Fault Refusal := .next (if s.hostUp then s.loseAddress else s)

/-- ENTDAA gives an address to a target without one. -/
def execEntdaa (address : BitVec 7) (s : State) : Host.Outcome State Fault Refusal :=
  .next (if s.hostUp ∧ s.flag fld_I3C_STATUS_ADDR_VALID = false then s.takeAddress address else s)

/-- SETDASA, after cast-on lock, from a nonzero STATIC_ADDR (R508). -/
def execSetdasa (staticAddress address : BitVec 7) (s : State) : Host.Outcome State Fault Refusal :=
  let own := s.fld fld_I3C_CFG_STATIC_ADDR
  .next (if s.hostUp ∧ s.flag fld_SYS_LOCK_LOCKED = true ∧ own ≠ 0 ∧ staticAddress.toNat = own ∧
      s.flag fld_I3C_STATUS_ADDR_VALID = false then s.takeAddress address else s)

/-- SETNEWDA. -/
def execSetnewda (address : BitVec 7) (s : State) : Host.Outcome State Fault Refusal :=
  .next (if s.addressed then s.takeAddress address else s)

/-- Answer a CCC that reads, first byte first on the bus. -/
def State.answerCcc (s : State) (b : List Byte) : State := if s.addressed then { s with out := { s.out with ccc := b } } else s

/-- The PID (R498, R571). -/
def State.pid (s : State) : Nat :=
  Config.mipiManufacturer.toNat * 2 ^ 33 + s.fld fld_SYS_ID_PART * 2 ^ 16 + (s.reg reg_SYS_UID_LO).toNat % 2 ^ 16

/-- GETPID, most significant byte first as the standard has it (R8). -/
def execGetpid (s : State) : Host.Outcome State Fault Refusal := .next (s.answerCcc (toBe 6 s.pid))

/-- GETBCR. -/
def execGetbcr (s : State) : Host.Outcome State Fault Refusal := .next (s.answerCcc [0x26])

/-- GETDCR. -/
def execGetdcr (s : State) : Host.Outcome State Fault Refusal := .next (s.answerCcc [0x00])

/-- GETSTATUS: two bytes, whose bits are the standard's and which the spec does not state. -/
def execGetstatus (s : State) : Host.Outcome State Fault Refusal :=
  let (w, s) := s.takeWord
  .next (s.answerCcc (toBe 2 w.toNat))

/-- GETMWL. -/
def execGetmwl (s : State) : Host.Outcome State Fault Refusal := .next (s.answerCcc (toBe 2 s.links.maxWrite))

/-- SETMWL: no longer than R498 allows. -/
def execSetmwl (length : Nat) (s : State) : Host.Outcome State Fault Refusal :=
  .next (if s.hostUp then { s with links := { s.links with maxWrite := min 1028 length } } else s)

/-- GETMRL: the length, then the interrupt payload, a mandatory byte and three more (R501). -/
def execGetmrl (s : State) : Host.Outcome State Fault Refusal := .next (s.answerCcc (toBe 2 s.links.maxRead ++ [4]))

/-- SETMRL. -/
def execSetmrl (length : Nat) (s : State) : Host.Outcome State Fault Refusal :=
  .next (if s.hostUp then { s with links := { s.links with maxRead := min 1024 length } } else s)

/-- RSTACT_PORT (R502): a port reset of the target loses its dynamic address. -/
def execRstactPort (s : State) : Host.Outcome State Fault Refusal := .next (if s.hostUp then s.loseAddress else s)

/-- RSTACT_WARM (R502): a warm reset where RESET_EN is 1. -/
def execRstactWarm (s : State) : Host.Outcome State Fault Refusal :=
  .next (if s.hostUp = false then s else if s.flag fld_I3C_CFG_RESET_EN then s.beginWarm 4 0 else s.loseAddress)

/-! ### In-band interrupts (R501) -/

/-- The lowest pending cause that is enabled. -/
def State.nextIbi (s : State) : Option Nat :=
  (List.range 7).find? (fun i => bit (s.fld fld_I3C_IBI_PEND_PEND) i && bit (s.fld fld_I3C_IBI_EN_EN) i)

/-- An interrupt is accepted: it carries its cause and the count after the increment, and is pending no longer. -/
def State.sendIbi (s : State) (i : Nat) : State :=
  let s := s.addWrap fld_I3C_COUNTS_IBIS 1
  let s := s.setFld fld_I3C_IBI_PEND_PEND (s.fld fld_I3C_IBI_PEND_PEND - 2 ^ i)
  { s with out := { s.out with ibi := some (i + 1, s.fld fld_I3C_COUNTS_IBIS) } }

/-- IBI_SEND (R501): one refused stays pending. -/
def execIbiSend (accepted : Bool) (s : State) : Host.Outcome State Fault Refusal :=
  match s.nextIbi with
  | some i => .next (if accepted ∧ s.addressed = true ∧ s.flag fld_I3C_STATUS_IBI_ON = true then s.sendIbi i else s)
  | none => .next s

/-! ### Snapshots (R488, R561, R562) -/

/-- The body of a DIAG payload: the words of the diagnostic list, object 1 of HOST. -/
def State.diagBody (s : State) : List Byte :=
  let n := min 1024 (s.objLen hostSwatch 1 / 4)
  toLe 4 n ++ toLe 4 (s.fld fld_SNAP_NUM_NUMBER) ++ List.replicate 8 0 ++
    (List.range n).flatMap (fun i =>
      let a := s.objNat hostSwatch 1 (4 * i) 4
      toLe 4 a ++ wordBytes (s.peek a))

/-- The DIAG streams are offered the snapshot. -/
def State.offerDiag (s : State) : State :=
  (s.txOfType txDiag).foldl (fun t n =>
    t.offer ⟨n, .copied s.diagBody, if s.integ.snapSuspect then 4 else 0, s.integ.snapTime, s.stamp - s.integ.snapTime, s.stamp, none⟩) s

/-- SNAPSHOT_COMPLETE (R562). -/
def execSnapshotComplete (s : State) : Host.Outcome State Fault Refusal :=
  match s.integ.snapTaken with
  | none => .next s
  | some absent =>
    if s.alive = false then .next s
    else
      let s := s.setFld fld_SNAP_NUM_NUMBER (nextSnapNumber (s.fld fld_SNAP_NUM_NUMBER))
      let s := (s.setFlag fld_SNAP_STATUS_DONE true).setFlag fld_SNAP_STATUS_ABSENT_ANY absent
      .next { s with integ := { s.integ with snapTaken := none } }.offerDiag

/-! ### Port resets (R157, R201, R489) -/

/-- The IN_RESET flag of a port, and its swatch. -/
def resetFlag : ResetPort → Fld
  | .eth m => fld_ETH_STATUS_IN_RESET m
  | .csiRx n => fld_CSI_RX_STATUS_IN_RESET n
  | .csiTx n => fld_CSI_TX_STATUS_IN_RESET n

/-- A port's receiver terminations are on (R592): off in reset, its swatch's or its own, and enabled by its ENABLE once the image is in
force; a transmit port has no receiver (Table 18.9). -/
def State.rxTerminated (s : State) (p : ResetPort) : Bool :=
  s.alive && s.flag fld_SYS_LOCK_LOCKED && !s.flag (resetFlag p) &&
    match p with
    | .eth m => !s.inReset 4 && s.flag (fld_ETH_CTRL_ENABLE m)
    | .csiRx n => !s.inReset 7 && s.flag (fld_CSI_RX_CFG_ENABLE n)
    | .csiTx _ => false

/-- PORT_RESET_END: IN_RESET clears. -/
def execPortResetEnd (port : ResetPort) (s : State) : Host.Outcome State Fault Refusal :=
  .next (if s.alive ∧ s.flag (resetFlag port) then s.setFlag (resetFlag port) false else s)

end Sys2Proof.Machine
end

