-- ==== Sys2Proof/Machine/Sgm.lean ====
section
/-!
DEFINITION. Semi-global matching (R237 to R254): costs, aggregation over strips, selection, encodings, and the passes of the
SGM engines.
-/
namespace Sys2Proof.Machine

/-! ### The job -/

/-- What an SGM node computes: the two matching planes and the parameters of Table 7.1. `tie` numbers the free bits that
stand for census bits of window pixels outside a plane, on which R241 is silent. -/
structure SgmJob where
  left : Gray
  right : Gray
  census : Nat
  paths4 : Bool
  adapt : Bool
  lrCheck : Bool
  subpixel : Bool
  dMin : Nat
  dCount : Nat
  p1 : Nat
  p2 : Nat
  gain : Nat
  lrTol : Nat
  uniq : Nat
  texMin : Nat
  satLevel : Nat
  strip : Nat
  overlap : Nat
  tie : Nat
  deriving DecidableEq, Repr

/-- The job of a node, whose free census bits are those numbered from `tie`. -/
def State.sgmJob (s : State) (d : NodeDesc) (r : NodeRun) (tie : Nat) : SgmJob :=
  let plane := d.param 0 1
  let f := d.param 3 1
  { left := s.inGray d r 0 plane, right := s.inGray d r 1 plane, census := d.param 1 1, paths4 := d.param 2 1 == 1,
    adapt := bit f 0, lrCheck := bit f 1, subpixel := bit f 2, dMin := d.param 4 2, dCount := d.param 6 2,
    p1 := d.param 8 1, p2 := d.param 9 1, gain := d.param 0x0A 1, lrTol := d.param 0x0B 1, uniq := d.param 0x0C 1,
    texMin := d.param 0x0D 1, satLevel := d.param 0x0E 1, strip := d.param 0x10 2, overlap := d.param 0x12 2,
    tie := tie }

/-- Half-width and half-height of the census window, and its bits (R241). -/
def SgmJob.hw (j : SgmJob) : Nat := if j.census = 0 then 2 else if j.census = 1 then 3 else 4
def SgmJob.hh (j : SgmJob) : Nat := if j.census = 0 then 2 else 3
def SgmJob.bits (j : SgmJob) : Nat := (2 * j.hw + 1) * (2 * j.hh + 1) - 1

/-- The largest disparity searched, and the disparities in order. -/
def SgmJob.dMax (j : SgmJob) : Nat := j.dMin + j.dCount - 1
def SgmJob.disparities (j : SgmJob) : List Nat := (List.range j.dCount).map (j.dMin + ·)

/-- The offsets of a window in raster order. -/
def SgmJob.window (j : SgmJob) : List (Int × Int) :=
  (List.range (2 * j.hh + 1)).flatMap (fun (y : Nat) =>
    (List.range (2 * j.hw + 1)).map (fun (x : Nat) => ((x : Int) - (j.hw : Int), (y : Int) - (j.hh : Int))))

/-- Whether a place lies in a plane. -/
def Gray.has (g : Gray) (x y : Int) : Bool :=
  decide (0 ≤ x) && decide (0 ≤ y) && decide (x < g.width) && decide (y < g.height)

/-! ### Cost -/

/-- The census of a pixel (R241), in raster order. -/
def State.census (s : State) (j : SgmJob) (right : Bool) (x y : Nat) : List Bool :=
  let g := if right then j.right else j.left
  let c := s.pixel g x y
  ((j.window.filter (fun d => d ≠ (0, 0))).zipIdx).map (fun e =>
    let u : Int := (x : Int) + e.1.1
    let v : Int := (y : Int) + e.1.2
    if g.has u v then decide (s.pixel g u v < c)
    else Config.freeBit (j.tie + (((if right then g.height else 0) + y) * g.width + x) * 64 + e.2))

/-- The number of places in which two censuses differ. -/
def hamming (a b : List Bool) : Nat := ((a.zip b).filter (fun e => e.1 != e.2)).length

/-- C(p, d) for every d in order (R241, R242). -/
def State.costs (s : State) (j : SgmJob) (x y : Nat) : List Nat :=
  let l := s.census j false x y
  j.disparities.map (fun d => if x < d + j.hw then j.bits else hamming l (s.census j true (x - d) y))

/-- A border pixel (R242). -/
def SgmJob.isBorder (j : SgmJob) (x y : Nat) : Bool :=
  decide (x < j.hw + j.dMax) || decide (j.left.width ≤ x + j.hw) || decide (y < j.hh) || decide (j.left.height ≤ y + j.hh)

/-! ### Aggregation -/

/-- The least element of a list. -/
def leastOf : List Nat → Nat
  | [] => 0
  | a :: r => r.foldl min a

/-- One step of a path (R243): the costs at p, L_r at p − r, P1 and P2'. -/
def pathStep (p1 p2 : Nat) (c prev : List Nat) : List Nat :=
  let m := leastOf prev
  (c.zipIdx).map (fun e =>
    let k := e.2
    let best := min (prev.getD k 0) (m + p2)
    let best := if 0 < k then min best (prev.getD (k - 1) 0 + p1) else best
    let best := if k + 1 < prev.length then min best (prev.getD (k + 1) 0 + p1) else best
    e.1 + best - m)

/-- P2' between a pixel and the one before it on the path (R243). -/
def State.penalty (s : State) (j : SgmJob) (x y x0 y0 : Int) : Nat :=
  if j.adapt then
    let a := s.pixel j.left x y
    let b := s.pixel j.left x0 y0
    max (j.p1 + 1) (j.p2 - j.gain * (if a < b then b - a else a - b) / 16)
  else j.p2

/-- L_r at a pixel n steps from the start of its path in direction (dx, dy). -/
def State.pathCosts (s : State) (j : SgmJob) (dx dy : Int) : Nat → Int → Int → List Nat
  | 0, x, y => s.costs j x.toNat y.toNat
  | n + 1, x, y =>
    pathStep j.p1 (s.penalty j x y (x - dx) (y - dy)) (s.costs j x.toNat y.toNat)
      (State.pathCosts s j dx dy n (x - dx) (y - dy))

/-- Pixels of the plane that lie before a pixel on its path: within the plane, and for a path with a vertical component
within the lines from `top` to `bottom` (R244). -/
def SgmJob.pathLength (j : SgmJob) (top bottom : Nat) (dx dy : Int) (x y : Nat) : Nat :=
  let w := j.left.width
  let h : Option Nat := if dx = 0 then none else if 0 < dx then some x else some (w - 1 - x)
  let v : Option Nat := if dy = 0 then none else if 0 < dy then some (y - top) else some (bottom - y)
  match h, v with
  | some a, some b => min a b
  | some a, none => a
  | none, some b => b
  | none, none => 0

/-- The paths of the forward pass: to the right, and those with a downward component (R243, R244). -/
def SgmJob.forward (j : SgmJob) : List (Int × Int) := if j.paths4 then [(1, 0), (0, 1)] else [(1, 0), (0, 1), (1, 1), (-1, 1)]

/-- The remaining paths, of the backward pass (R243, R244). -/
def SgmJob.backward (j : SgmJob) : List (Int × Int) := if j.paths4 then [(-1, 0), (0, -1)] else [(-1, 0), (0, -1), (-1, -1), (1, -1)]

/-- First and last line of the run-ins of the strip that holds line y (R244). -/
def SgmJob.stripTop (j : SgmJob) (y : Nat) : Nat := y / j.strip * j.strip - j.overlap
def SgmJob.stripBottom (j : SgmJob) (y : Nat) : Nat := min j.left.height ((y / j.strip + 1) * j.strip + j.overlap) - 1

/-- The terms that some paths add to S(p, d), for every d in order (R243). -/
def State.pathSums (s : State) (j : SgmJob) (paths : List (Int × Int)) (x y : Nat) : List Nat :=
  let top := j.stripTop y
  let bottom := j.stripBottom y
  paths.foldl (fun t r =>
    let l := s.pathCosts j r.1 r.2 (j.pathLength top bottom r.1 r.2 x y) x y
    (t.zip l).map (fun e => e.1 + e.2)) (List.replicate j.dCount 0)

/-- Lines of the strip from line y (R244). -/
def SgmJob.stripLines (j : SgmJob) (y : Nat) : Nat := min j.left.height (y + j.strip) - y

/-- What a pass adds over the strip from line y, in the order in which the aggregation store holds it (R244). -/
def State.stripSums (s : State) (j : SgmJob) (paths : List (Int × Int)) (y : Nat) : List Nat :=
  (List.range (j.stripLines y)).flatMap (fun i => (List.range j.left.width).flatMap (fun x => s.pathSums j paths x (y + i)))

/-- What the store holds of a pixel of the strip from line `first`: S(p, d) for every d once both passes are done (R243, R244). -/
def SgmStore.at (a : SgmStore) (j : SgmJob) (first x y : Nat) : List Nat :=
  (List.range j.dCount).map (fun k => a.sums.getD (((y - first) * j.left.width + x) * j.dCount + k) 0)

/-! ### Selection -/

/-- The index of the least element, the first where several tie, and that element. -/
def argLeast (l : List Nat) : Nat × Nat :=
  let m := leastOf l
  ((l.findIdx? (· == m)).getD 0, m)

/-- Round a ratio to the nearest integer, halves away from zero. -/
def roundHalfAway (a : Int) (b : Int) : Int :=
  let n := (2 * a.natAbs + b.natAbs) / (2 * b.natAbs)
  if (a < 0) ≠ (b < 0) then -(n : Int) else n

/-- The fraction f of R245, for the winner at index k. -/
def SgmJob.fraction (j : SgmJob) (sums : List Nat) (k : Nat) : Int :=
  if j.subpixel ∧ 0 < k ∧ k + 1 < j.dCount then
    let a : Int := sums.getD (k - 1) 0
    let b : Int := sums.getD k 0
    let c : Int := sums.getD (k + 1) 0
    let q := 2 * (a - 2 * b + c)
    if q = 0 then 0 else clampInt (-8) 8 (roundHalfAway (16 * (a - c)) q)
  else 0

/-- S₂ of R245. -/
def secondLeast (sums : List Nat) (k : Nat) : Nat :=
  leastOf ((sums.zipIdx.filter (fun e => decide (e.2 + 1 < k) || decide (k + 1 < e.2))).map (·.1))

/-- The right disparity of a right pixel, as an index (R246): the least S over the left columns that are no border. -/
def SgmStore.rightDisparity (a : SgmStore) (j : SgmJob) (first xr y : Nat) : Option Nat :=
  let l := (List.range j.dCount).filter (fun k =>
    decide (xr + j.dMin + k < j.left.width) && !j.isBorder (xr + j.dMin + k) y)
  (l.map (fun k => ((a.at j first (xr + j.dMin + k) y).getD k 0, k))).foldl
    (fun (b : Option (Nat × Nat)) e => match b with | some v => if e.1 < v.1 then some e else b | none => some e) none
    |>.map (·.2)

/-- Whether a pixel with winner index k passes the left-right check (R246). -/
def SgmStore.passesLr (a : SgmStore) (j : SgmJob) (first x y k : Nat) : Bool :=
  match a.rightDisparity j first (x - (j.dMin + k)) y with
  | some q => decide ((if k < q then q - k else k - q) ≤ j.lrTol)
  | none => false

/-- Whether some pixel of a window is at the saturation level or above. -/
def State.saturated (s : State) (j : SgmJob) (g : Gray) (x y : Nat) : Bool :=
  j.window.any (fun d => decide (j.satLevel ≤ s.pixel g (x + d.1) (y + d.2)))

/-- The texture T of R248. -/
def State.texture (s : State) (j : SgmJob) (x y : Nat) : Nat :=
  (j.window.foldl (fun t d =>
    let a := s.pixel j.left (x + d.1 + 1) (y + d.2)
    let b := s.pixel j.left (x + d.1 - 1) (y + d.2)
    t + (if a < b then b - a else a - b)) 0) / j.window.length

def sgmLowTexture : Nat := 0xFFF0
def sgmOccluded : Nat := 0xFFF1
def sgmBorder : Nat := 0xFFF2
def sgmSaturated : Nat := 0xFFF3

/-- The disparity code and confidence of a pixel of the strip from line `first`, from the sums stored (R245, R248, R249). -/
def State.sgmPixel (s : State) (j : SgmJob) (a : SgmStore) (first x y : Nat) : Nat × Nat :=
  if j.isBorder x y then (sgmBorder, 0)
  else
    let sums := a.at j first x y
    let (k, s1) := argLeast sums
    let d := j.dMin + k
    let s2 := secondLeast sums k
    if 0 < j.satLevel ∧ (s.saturated j j.left x y || s.saturated j j.right (x - d) y) = true then (sgmSaturated, 0)
    else if 0 < j.texMin ∧ s.texture j x y < j.texMin then (sgmLowTexture, 0)
    else if (256 - j.uniq) * s2 < 256 * s1 then (sgmLowTexture, 0)
    else if j.lrCheck ∧ a.passesLr j first x y k = false then (sgmOccluded, 0)
    else ((16 * (d : Int) + j.fraction sums k).toNat % 2 ^ 16, if s2 = 0 then 0 else (255 * (s2 - s1) + s2 / 2) / s2)

/-- Write a line of both outputs. -/
def State.sgmLine (s : State) (j : SgmJob) (a : SgmStore) (disp : Gray) (conf : Option Gray) (first y : Nat) : State :=
  let l := (List.range j.left.width).map (fun x => s.sgmPixel j a first x y)
  let s := s.setFrameBytes (disp.base + y * disp.stride) (l.flatMap (fun e => toLe 2 e.1))
  match conf with
  | some g => s.setFrameBytes (g.base + y * g.stride) (l.map (fun e => BitVec.ofNat 8 e.2))
  | none => s

/-! ### Passes -/

/-- Lines of pixel data that a frame set's record stands for (Table 5.2): those stored so far while the frame still arrives, whose views
can be published before it ends. -/
def State.setLines (s : State) (n set : Nat) : Nat :=
  match (Store.get Stream.reset s.vis.streams n).frame with
  | some f => if f.set = set then f.lines else s.frameNat (s.setBase n set + 0x0C) 4
  | none => s.frameNat (s.setBase n set + 0x0C) 4

/-- An input whose record shows fewer lines than the matching plane needs (R252). -/
def State.shortInput (s : State) (d : NodeDesc) (r : NodeRun) (i : Nat) : Bool :=
  let e := s.inEntry d i
  match (r.inputs[i]?).join with
  | some v =>
    (s.marker v.marker).state == .published &&
      (if e.kind = kindPlaneView then decide (s.setLines e.stream v.copy < s.streamHeight e.stream)
       else decide (s.bufCount e v.copy < e.height))
  | none => false

/-- The node running on an SGM engine. -/
def State.sgmNode (s : State) (e : Nat) : Option (Nat × Nat × NodeRun) := ((s.runningOn (8 + e)).head?).map (·.2)

/-- Whether the next pass of a node can run: its inputs are acquired. -/
def NodeRun.passReady (r : NodeRun) (streaming : Bool) : Bool :=
  !streaming || [0, 1].all (fun i => match (r.inputs[i]?).join with | some v => v.ready | none => true)

/-- Share of an output's elements with a code, in 1/1,024 (R254). -/
def share (codes : List Nat) (code : Nat) : Nat := (codes.filter (· == code)).length * 1024 / max 1 codes.length

/-- The elements of a disparity image. -/
def State.disparityCodes (s : State) (g : Gray) : List Nat :=
  (List.range g.height).flatMap (fun y => (List.range g.width).map (fun x => s.frameNat (g.base + y * g.stride + 2 * x) 2))

/-- The aggregation store of an SGM engine, and s with another content in it. -/
def State.sgmStore (s : State) (e : Nat) : SgmStore := Store.get SgmStore.reset s.vis.sgm e
def State.setSgm (s : State) (e : Nat) (a : SgmStore) : State :=
  { s with vis := { s.vis with sgm := Store.set SgmStore.reset s.vis.sgm e a } }

/-- Publish both outputs and record the time taken, and what the engine will show of the outputs once the node ends DONE; the
aggregation store is the node's no longer (R250, R251, R252, R254). -/
def State.finishSgm (s : State) (e g n : Nat) (r : NodeRun) (disp : Gray) : State :=
  let s := ((s.checkInputs g n 11).publishOutput g n 0 disp.height).publishOutput g n 1 disp.height
  let s := s.updNode g n (fun r => { r with done := true })
  let s := s.raiseMax (fld_SGM_WORST_WORST_US e) ((s.stamp - r.start) / usStamp 1)
  let codes := s.disparityCodes disp
  s.setSgm e ⟨0, [], [sgmLowTexture, sgmOccluded, sgmBorder, sgmSaturated].map (share codes)⟩

/-- The forward pass of the strip under way: its sums take the empty store (R244). -/
def State.sgmForward (s : State) (e : Nat) (d : NodeDesc) (r : NodeRun) : State :=
  let j := s.sgmJob d r s.fresh
  { s.setSgm e ⟨s.fresh, s.stripSums j j.forward r.lines, []⟩ with fresh := s.fresh + 128 * j.left.height * j.left.width }

/-- The backward pass: its terms are added to the sums stored (R244). -/
def State.sgmBackward (s : State) (e : Nat) (d : NodeDesc) (r : NodeRun) : State :=
  let a := s.sgmStore e
  let j := s.sgmJob d r a.tie
  s.setSgm e { a with sums := (a.sums.zip (s.stripSums j j.backward r.lines)).map (fun e => e.1 + e.2) }

/-- The selection pass of the strip under way, from the sums stored (R244). -/
def State.sgmSelect (s : State) (e : Nat) (d : NodeDesc) (r : NodeRun) : State :=
  let a := s.sgmStore e
  let j := s.sgmJob d r a.tie
  let disp := s.bufGray (s.outEntry d 0) (r.outCopy 0) 0
  let conf := if d.outBuf 1 = noBuffer then none else some (s.bufGray (s.outEntry d 1) (r.outCopy 1) 0)
  (List.range (j.stripLines r.lines)).foldl (fun s i => s.sgmLine j a disp conf r.lines (r.lines + i)) s

/-- A pass of a node is done: the next pass, the next strip, or publication. -/
def State.sgmPass (s : State) (e g n : Nat) (r : NodeRun) : State :=
  let d := s.nodeDesc g n
  if s.shortInput d r 0 || s.shortInput d r 1 then (s.updNode g n (fun r => r.fail codeEngineErr)).setSgm e SgmStore.reset
  else if r.pass < 2 then
    let s := if r.pass = 0 then s.sgmForward e d r else s.sgmBackward e d r
    let s := s.updNode g n (fun r => { r with pass := r.pass + 1 })
    if d.streaming then s.askPass g n else s
  else
    let s := s.sgmSelect e d r
    let disp := s.bufGray (s.outEntry d 0) (r.outCopy 0) 0
    let last := r.lines + d.param 0x10 2
    if disp.height ≤ last then s.finishSgm e g n r disp
    else
      let s := s.updNode g n (fun r => { r with pass := 0, lines := last })
      if d.streaming then s.askPass g n else s

/-- SGM_PASS_DONE (R244). -/
def execSgmPassDone (engine : Fin 2) (ns : Nat) (s : State) : Host.Outcome State Fault Refusal :=
  if s.swatchRuns 11 && s.swatchRuns 8 then
    match s.sgmNode engine with
    | some (g, n, r) =>
      if r.verdict.isNone ∧ r.done = false ∧ r.passReady (s.nodeDesc g n).streaming = true then
        let s := s.addBusy (fld_SGM_BUSY_BUSY_US engine) ns
        let s := s.updNode g n (fun r => { r with brown := r.brown || s.brown })
        .next (s.sgmPass engine g n r)
      else .next s
    | none => .next s
  else .next s

end Sys2Proof.Machine
end

