-- ==== Sys2Proof/Machine/Dispatch.lean ====
section
/-!
DEFINITION. What a command does to everything but the queue: one arm per command, each the direct call of its meaning.
-/
namespace Sys2Proof.Machine

def exec (i : Instr) (s : State) : Host.Outcome State Fault Refusal :=
  match i with
  | .registerWrite port addr data => Sys2Proof.Machine.execRegisterWrite port addr data s
  | .registerLoWrite port addr data => Sys2Proof.Machine.execRegisterLoWrite port addr data s
  | .registerHiWrite port addr data => Sys2Proof.Machine.execRegisterHiWrite port addr data s
  | .registerLoRead port addr => Sys2Proof.Machine.execRegisterLoRead port addr s
  | .registerHiRead port addr => Sys2Proof.Machine.execRegisterHiRead port addr s
  | .timeNowSecLoRead port => Sys2Proof.Machine.execTimeNowSecLoRead port s
  | .attestWinDataRead port => Sys2Proof.Machine.execAttestWinDataRead port s
  | .faultLogDataRead port => Sys2Proof.Machine.execFaultLogDataRead port s
  | .swReset data => Sys2Proof.Machine.execSwReset data s
  | .swatchResetRequest swatch cause => Sys2Proof.Machine.execSwatchResetRequest swatch cause s
  | .swatchSramCleared group => Sys2Proof.Machine.execSwatchSramCleared group s
  | .swatchResetRelease group => Sys2Proof.Machine.execSwatchResetRelease group s
  | .swatchRestoreDone group => Sys2Proof.Machine.execSwatchRestoreDone group s
  | .pllUnlock pll => Sys2Proof.Machine.execPllUnlock pll s
  | .pllTimeRelock => Sys2Proof.Machine.execPllTimeRelock s
  | .eventCrossingPulse crossing drained => Sys2Proof.Machine.execEventCrossingPulse crossing drained s
  | .dataCrossingMessage msg => Sys2Proof.Machine.execDataCrossingMessage msg s
  | .fuseSenseDone arrayOk raw => Sys2Proof.Machine.execFuseSenseDone arrayOk raw s
  | .pllSysLocked => Sys2Proof.Machine.execPllSysLocked s
  | .pllIoTimeLocked => Sys2Proof.Machine.execPllIoTimeLocked s
  | .flashModeReady density ok => Sys2Proof.Machine.execFlashModeReady density ok s
  | .slotHeadersRead a b ok => Sys2Proof.Machine.execSlotHeadersRead a b ok s
  | .signatureVerified block ok => Sys2Proof.Machine.execSignatureVerified block ok s
  | .sectionRead bytes ok => Sys2Proof.Machine.execSectionRead bytes ok s
  | .pllArithLocked => Sys2Proof.Machine.execPllArithLocked s
  | .memTrainingDone ok => Sys2Proof.Machine.execMemTrainingDone ok s
  | .residencyAnalysisDone core slot => Sys2Proof.Machine.execResidencyAnalysisDone core slot s
  | .castOnLock us => Sys2Proof.Machine.execCastOnLock us s
  | .rollbackCommit data => Sys2Proof.Machine.execRollbackCommit data s
  | .fuseBitBlown reads => Sys2Proof.Machine.execFuseBitBlown reads s
  | .program data => Sys2Proof.Machine.execProgram data s
  | .lockKeys data => Sys2Proof.Machine.execLockKeys data s
  | .attestStart data => Sys2Proof.Machine.execAttestStart data s
  | .attestDone => Sys2Proof.Machine.execAttestDone s
  | .bindOffRequest data => Sys2Proof.Machine.execBindOffRequest data s
  | .bindOffNandDrained => Sys2Proof.Machine.execBindOffNandDrained s
  | .bindOffComplete => Sys2Proof.Machine.execBindOffComplete s
  | .loopStart => Sys2Proof.Machine.execLoopStart s
  | .periodBoundary => Sys2Proof.Machine.execPeriodBoundary s
  | .inputCutoff => Sys2Proof.Machine.execInputCutoff s
  | .imuPropagationDone => Sys2Proof.Machine.execImuPropagationDone s
  | .estimatorUpdateDone => Sys2Proof.Machine.execEstimatorUpdateDone s
  | .solverDeadline => Sys2Proof.Machine.execSolverDeadline s
  | .frameBuild readyNs => Sys2Proof.Machine.execFrameBuild readyNs s
  | .launchHandoff eth => Sys2Proof.Machine.execLaunchHandoff eth s
  | .launchEgress eth tap => Sys2Proof.Machine.execLaunchEgress eth tap s
  | .syncReceived eth msg => Sys2Proof.Machine.execSyncReceived eth msg s
  | .timeStep => Sys2Proof.Machine.execTimeStep s
  | .syncTimeout => Sys2Proof.Machine.execSyncTimeout s
  | .freeRunTimeout => Sys2Proof.Machine.execFreeRunTimeout s
  | .announceReceived eth msg => Sys2Proof.Machine.execAnnounceReceived eth msg s
  | .rearm data => Sys2Proof.Machine.execRearm data s
  | .timeRateWrite data => Sys2Proof.Machine.execTimeRateWrite data s
  | .pdelayReqTimer eth => Sys2Proof.Machine.execPdelayReqTimer eth s
  | .pdelayExchangeDone eth completed delay nrr => Sys2Proof.Machine.execPdelayExchangeDone eth completed delay nrr s
  | .pdelayReqReceived eth requester sequence taps => Sys2Proof.Machine.execPdelayReqReceived eth requester sequence taps s
  | .ethFrameReceived eth frame fcsOk tap => Sys2Proof.Machine.execEthFrameReceived eth frame fcsOk tap s
  | .frameForwardEgress eth tap => Sys2Proof.Machine.execFrameForwardEgress eth tap s
  | .ethLinkChange eth speed => Sys2Proof.Machine.execEthLinkChange eth speed s
  | .ethPortReset eth data => Sys2Proof.Machine.execEthPortReset eth data s
  | .toutCtrlWrite tout data => Sys2Proof.Machine.execToutCtrlWrite tout data s
  | .toutEdge tout => Sys2Proof.Machine.execToutEdge tout s
  | .tinEdge tin rising width tap => Sys2Proof.Machine.execTinEdge tin rising width tap s
  | .tinPop tin data => Sys2Proof.Machine.execTinPop tin data s
  | .csiFrameStart port vc header number stamp => Sys2Proof.Machine.execCsiFrameStart port vc header number stamp s
  | .csiLongPacket port vc dt header payload crcOk => Sys2Proof.Machine.execCsiLongPacket port vc dt header payload crcOk s
  | .csiEmbeddedPacket port vc header payload crcOk => Sys2Proof.Machine.execCsiEmbeddedPacket port vc header payload crcOk s
  | .csiFrameEnd port vc header stamp => Sys2Proof.Machine.execCsiFrameEnd port vc header stamp s
  | .csiPhyError port => Sys2Proof.Machine.execCsiPhyError port s
  | .csiRxPortReset port data => Sys2Proof.Machine.execCsiRxPortReset port data s
  | .instantIssue group => Sys2Proof.Machine.execInstantIssue group s
  | .claim marker agent => Sys2Proof.Machine.execClaim marker agent s
  | .advance marker agent lines => Sys2Proof.Machine.execAdvance marker agent lines s
  | .publish marker agent => Sys2Proof.Machine.execPublish marker agent s
  | .abandon marker agent => Sys2Proof.Machine.execAbandon marker agent s
  | .acquire marker agent gen lines => Sys2Proof.Machine.execAcquire marker agent gen lines s
  | .release marker agent => Sys2Proof.Machine.execRelease marker agent s
  | .hold marker agent => Sys2Proof.Machine.execHold marker agent s
  | .unhold marker agent => Sys2Proof.Machine.execUnhold marker agent s
  | .activationDeadline graph => Sys2Proof.Machine.execActivationDeadline graph s
  | .nodeIssue graph => Sys2Proof.Machine.execNodeIssue graph s
  | .nodeStart engine => Sys2Proof.Machine.execNodeStart engine s
  | .engineUnitDone engine ns => Sys2Proof.Machine.execEngineUnitDone engine ns s
  | .nodeEnd graph node => Sys2Proof.Machine.execNodeEnd graph node s
  | .keepRun graph node => Sys2Proof.Machine.execKeepRun graph node s
  | .verifierJobSubmit requester job => Sys2Proof.Machine.execVerifierJobSubmit requester job s
  | .verifierJobDone ns => Sys2Proof.Machine.execVerifierJobDone ns s
  | .verifierDeadline => Sys2Proof.Machine.execVerifierDeadline s
  | .sgmPassDone engine ns => Sys2Proof.Machine.execSgmPassDone engine ns s
  | .neuralRequestArrive graph node => Sys2Proof.Machine.execNeuralRequestArrive graph node s
  | .neuralRequestStart graph node => Sys2Proof.Machine.execNeuralRequestStart graph node s
  | .weightChunkLoaded core stallNs errors => Sys2Proof.Machine.execWeightChunkLoaded core stallNs errors s
  | .neuralStepDone graph node ns errors => Sys2Proof.Machine.execNeuralStepDone graph node ns errors s
  | .neuralRequestEnd graph node => Sys2Proof.Machine.execNeuralRequestEnd graph node s
  | .promote holder object tier pin => Sys2Proof.Machine.execPromote holder object tier pin s
  | .evict holder object tier => Sys2Proof.Machine.execEvict holder object tier s
  | .writeback holder object => Sys2Proof.Machine.execWriteback holder object s
  | .pin holder object => Sys2Proof.Machine.execPin holder object s
  | .unpin holder object => Sys2Proof.Machine.execUnpin holder object s
  | .movePageCopied errors programmed => Sys2Proof.Machine.execMovePageCopied errors programmed s
  | .moveSwitch => Sys2Proof.Machine.execMoveSwitch s
  | .spaceManagerEvict tier => Sys2Proof.Machine.execSpaceManagerEvict tier s
  | .objectAccess unit object offset length data errors => Sys2Proof.Machine.execObjectAccess unit object offset length data errors s
  | .patrolScrubRead errors => Sys2Proof.Machine.execPatrolScrubRead errors s
  | .directoryRebuildDone => Sys2Proof.Machine.execDirectoryRebuildDone s
  | .tileRegionReclaim channel => Sys2Proof.Machine.execTileRegionReclaim channel s
  | .mr4Poll interface mr4 => Sys2Proof.Machine.execMr4Poll interface mr4 s
  | .imuSampleArrive imu => Sys2Proof.Machine.execImuSampleArrive imu s
  | .jointFrameArrive eth => Sys2Proof.Machine.execJointFrameArrive eth s
  | .featureUpdateDone set => Sys2Proof.Machine.execFeatureUpdateDone set s
  | .trackingUpdateDrop object set => Sys2Proof.Machine.execTrackingUpdateDrop object set s
  | .objectUpdateDone set => Sys2Proof.Machine.execObjectUpdateDone set s
  | .assignmentDone set us => Sys2Proof.Machine.execAssignmentDone set us s
  | .load core slot descriptor values => Sys2Proof.Machine.execLoad core slot descriptor values s
  | .loadDone => Sys2Proof.Machine.execLoadDone s
  | .problemSubmit task request => Sys2Proof.Machine.execProblemSubmit task request s
  | .problemStart => Sys2Proof.Machine.execProblemStart s
  | .assemblyDone core cycles => Sys2Proof.Machine.execAssemblyDone core cycles s
  | .factorisationDone core cycles => Sys2Proof.Machine.execFactorisationDone core cycles s
  | .solveDone core cycles => Sys2Proof.Machine.execSolveDone core cycles s
  | .proofCheckDone core cycles => Sys2Proof.Machine.execProofCheckDone core cycles s
  | .iterationDone core cycles => Sys2Proof.Machine.execIterationDone core cycles s
  | .refineStepDone core cycles => Sys2Proof.Machine.execRefineStepDone core cycles s
  | .finalCheckDone core cycles => Sys2Proof.Machine.execFinalCheckDone core cycles s
  | .problemDeadline core => Sys2Proof.Machine.execProblemDeadline core s
  | .solv1Suspend => Sys2Proof.Machine.execSolv1Suspend s
  | .stopPointReceived => Sys2Proof.Machine.execStopPointReceived s
  | .pairCompare => Sys2Proof.Machine.execPairCompare s
  | .windowRun => Sys2Proof.Machine.execWindowRun s
  | .poseNodeCreate => Sys2Proof.Machine.execPoseNodeCreate s
  | .poseGraphBuild => Sys2Proof.Machine.execPoseGraphBuild s
  | .poseGraphResult => Sys2Proof.Machine.execPoseGraphResult s
  | .nandChannelInitDone channel same marks => Sys2Proof.Machine.execNandChannelInitDone channel same marks s
  | .indexEpochLoadDone index bad => Sys2Proof.Machine.execIndexEpochLoadDone index bad s
  | .querySubmit classC descriptor => Sys2Proof.Machine.execQuerySubmit classC descriptor s
  | .queryAdmit => Sys2Proof.Machine.execQueryAdmit s
  | .coarseBatchDone => Sys2Proof.Machine.execCoarseBatchDone s
  | .listPageRead channel region page retries ns ldpcOk errors => Sys2Proof.Machine.execListPageRead channel region page retries ns ldpcOk errors s
  | .queryMerge => Sys2Proof.Machine.execQueryMerge s
  | .queryDeadline => Sys2Proof.Machine.execQueryDeadline s
  | .placeQuery => Sys2Proof.Machine.execPlaceQuery s
  | .placeVote => Sys2Proof.Machine.execPlaceVote s
  | .indexBegin => Sys2Proof.Machine.execIndexBegin s
  | .indexPage failed => Sys2Proof.Machine.execIndexPage failed s
  | .indexEnd => Sys2Proof.Machine.execIndexEnd s
  | .importPinsClear => Sys2Proof.Machine.execImportPinsClear s
  | .importEraseDone failed => Sys2Proof.Machine.execImportEraseDone failed s
  | .importCommitDone failed => Sys2Proof.Machine.execImportCommitDone failed s
  | .srchProbeStart data => Sys2Proof.Machine.execSrchProbeStart data s
  | .probeDone => Sys2Proof.Machine.execProbeDone s
  | .transmitPublication stream => Sys2Proof.Machine.execTransmitPublication stream s
  | .transmitPacketDone port => Sys2Proof.Machine.execTransmitPacketDone port s
  | .transmitCut stream => Sys2Proof.Machine.execTransmitCut stream s
  | .commandStatusSend => Sys2Proof.Machine.execCommandStatusSend s
  | .tileDeltaSend => Sys2Proof.Machine.execTileDeltaSend s
  | .csiTxPortReset port data => Sys2Proof.Machine.execCsiTxPortReset port data s
  | .commandMessage port vc dt bytes checksum arrival => Sys2Proof.Machine.execCommandMessage port vc dt bytes checksum arrival s
  | .qpDelta => Sys2Proof.Machine.execQpDelta s
  | .target => Sys2Proof.Machine.execTarget s
  | .tile => Sys2Proof.Machine.execTile s
  | .tileAssemblyDone => Sys2Proof.Machine.execTileAssemblyDone s
  | .index => Sys2Proof.Machine.execIndex s
  | .i3cPrivateWrite addr words => Sys2Proof.Machine.execI3cPrivateWrite addr words s
  | .i3cSetReadPointer addr => Sys2Proof.Machine.execI3cSetReadPointer addr s
  | .i3cPrivateRead words => Sys2Proof.Machine.execI3cPrivateRead words s
  | .hdrDdrWrite addr words => Sys2Proof.Machine.execHdrDdrWrite addr words s
  | .hdrDdrRead words => Sys2Proof.Machine.execHdrDdrRead words s
  | .enec => Sys2Proof.Machine.execEnec s
  | .disec => Sys2Proof.Machine.execDisec s
  | .rstdaa => Sys2Proof.Machine.execRstdaa s
  | .entdaa address => Sys2Proof.Machine.execEntdaa address s
  | .setdasa staticAddress address => Sys2Proof.Machine.execSetdasa staticAddress address s
  | .setnewda address => Sys2Proof.Machine.execSetnewda address s
  | .getpid => Sys2Proof.Machine.execGetpid s
  | .getbcr => Sys2Proof.Machine.execGetbcr s
  | .getdcr => Sys2Proof.Machine.execGetdcr s
  | .getstatus => Sys2Proof.Machine.execGetstatus s
  | .getmwl => Sys2Proof.Machine.execGetmwl s
  | .setmwl length => Sys2Proof.Machine.execSetmwl length s
  | .getmrl => Sys2Proof.Machine.execGetmrl s
  | .setmrl length => Sys2Proof.Machine.execSetmrl length s
  | .rstactPort => Sys2Proof.Machine.execRstactPort s
  | .rstactWarm => Sys2Proof.Machine.execRstactWarm s
  | .ibiSend accepted => Sys2Proof.Machine.execIbiSend accepted s
  | .imuInitEntry acknowledged => Sys2Proof.Machine.execImuInitEntry acknowledged s
  | .imuDrdyEdge imu rising stamp => Sys2Proof.Machine.execImuDrdyEdge imu rising stamp s
  | .imuReadDone spi acknowledged bytes => Sys2Proof.Machine.execImuReadDone spi acknowledged bytes s
  | .governorInterval microwatts raw => Sys2Proof.Machine.execGovernorInterval microwatts raw s
  | .thermalTrip => Sys2Proof.Machine.execThermalTrip s
  | .brownHoldBegin => Sys2Proof.Machine.execBrownHoldBegin s
  | .brownHoldEnd us => Sys2Proof.Machine.execBrownHoldEnd us s
  | .pwrReqRun data => Sys2Proof.Machine.execPwrReqRun data s
  | .pwrReqDoze data => Sys2Proof.Machine.execPwrReqDoze data s
  | .pwrReqNap data => Sys2Proof.Machine.execPwrReqNap data s
  | .pwrReqHibernate data => Sys2Proof.Machine.execPwrReqHibernate data s
  | .dozeEntered => Sys2Proof.Machine.execDozeEntered s
  | .napLoopStop => Sys2Proof.Machine.execNapLoopStop s
  | .napEntered => Sys2Proof.Machine.execNapEntered s
  | .hibernateEntered => Sys2Proof.Machine.execHibernateEntered s
  | .wakeTime => Sys2Proof.Machine.execWakeTime s
  | .tin0Wake rising => Sys2Proof.Machine.execTin0Wake rising s
  | .sleepTimer => Sys2Proof.Machine.execSleepTimer s
  | .wakeDone => Sys2Proof.Machine.execWakeDone s
  | .powerOn => Sys2Proof.Machine.execPowerOn s
  | .supplyReset rail => Sys2Proof.Machine.execSupplyReset rail s
  | .resetN lowNs => Sys2Proof.Machine.execResetN lowNs s
  | .rstCtrlWarm data => Sys2Proof.Machine.execRstCtrlWarm data s
  | .warmResetEnd => Sys2Proof.Machine.execWarmResetEnd s
  | .coldResetEnd quietMs => Sys2Proof.Machine.execColdResetEnd quietMs s
  | .refclkAbsent => Sys2Proof.Machine.execRefclkAbsent s
  | .checkFeedStart unit data => Sys2Proof.Machine.execCheckFeedStart unit data s
  | .checkFeedData unit data => Sys2Proof.Machine.execCheckFeedData unit data s
  | .checkFeedEnd unit data => Sys2Proof.Machine.execCheckFeedEnd unit data s
  | .checkMessageDone unit => Sys2Proof.Machine.execCheckMessageDone unit s
  | .faultNodeFlit node flit => Sys2Proof.Machine.execFaultNodeFlit node flit s
  | .faultRootArrive flit => Sys2Proof.Machine.execFaultRootArrive flit s
  | .faultWindowClose cause => Sys2Proof.Machine.execFaultWindowClose cause s
  | .wdogSwatch swatch => Sys2Proof.Machine.execWdogSwatch swatch s
  | .wdogChipLoop => Sys2Proof.Machine.execWdogChipLoop s
  | .wdogChipHost => Sys2Proof.Machine.execWdogChipHost s
  | .wdogChipKick data => Sys2Proof.Machine.execWdogChipKick data s
  | .snapArm data => Sys2Proof.Machine.execSnapArm data s
  | .snapCancel data => Sys2Proof.Machine.execSnapCancel data s
  | .snapshotInstant => Sys2Proof.Machine.execSnapshotInstant s
  | .snapshotComplete => Sys2Proof.Machine.execSnapshotComplete s
  | .testEnChange high => Sys2Proof.Machine.execTestEnChange high s
  | .extest pattern => Sys2Proof.Machine.execExtest pattern s
  | .samplePreload pattern => Sys2Proof.Machine.execSamplePreload pattern s
  | .clamp => Sys2Proof.Machine.execClamp s
  | .highz => Sys2Proof.Machine.execHighz s
  | .bypass code => Sys2Proof.Machine.execBypass code s
  | .trstN high => Sys2Proof.Machine.execTrstN high s
  | .followUpReceived eth msg => Sys2Proof.Machine.execFollowUpReceived eth msg s
  | .portResetEnd port => Sys2Proof.Machine.execPortResetEnd port s
  | .hibernatePowerUpDone => Sys2Proof.Machine.execHibernatePowerUpDone s
  | .flashCommandTimeout => Sys2Proof.Machine.execFlashCommandTimeout s
  | .refclkResume => Sys2Proof.Machine.execRefclkResume s
  | .supplyGood rail => Sys2Proof.Machine.execSupplyGood rail s
  | .sramIdleScrub swatch addr errors => Sys2Proof.Machine.execSramIdleScrub swatch addr errors s

end Sys2Proof.Machine
end

