-- ==== Sys2Proof/Machine/Step.lean ====
section
/-!
DEFINITION. One step: the command at the front of the queue, or with none waiting the passage of one tick of device time.
-/
namespace Sys2Proof.Machine

/-- A warm reset owed since a fault falls due (R556). -/
def State.startOwed (s : State) : State :=
  match s.resets.due with
  | some (_, _, t) => if t ≤ s.stamp then s.beginDue else s
  | none => s

/-- With no command waiting, device time advances by one tick of 2 ns at its rate (R136), at which an Announce may expire (R158) and
an owed reset fall due; where it does not run the block idles. -/
def State.idle (s : State) : State :=
  if s.alive ∧ s.time.running then
    ((s.tickOn 1).expireAnnounces).startOwed
  else s

/-- Take the command at the front of the queue. -/
def step (s : State) : Host.Outcome State Fault Refusal :=
  match s.pending with
  | c :: rest => exec c { s with pending := rest }
  | [] => .next s.idle

/-- The command that a word spells, put at the front of the queue; no word spells one. -/
def State.withFetchWord (s : State) (nbits w : Nat) : State :=
  match decodeTableWord nbits w with
  | some c => { s with pending := c :: s.pending }
  | none => s

end Sys2Proof.Machine
end

