-- ==== Sys2Proof/Safety.lean ====
section
/-!
DEFINITION. The words that the statements share: what counts as a run without a stop, and how a frame is said.
-/
namespace Sys2Proof.Machine

/-- The command has an effect: a next state. -/
def Completes (c : Instr) (s : State) : Prop := ∃ t, exec c s = .next t

/-- A step goes on. -/
def Goes (s : State) : Prop := ∃ t, step s = .next t

/-- The stores of the block are in their one canonical form (keys strictly rising, nothing listed that an unlisted key reads as): the
register file, the snapshot shadows, the swatches' SRAM, the fault log, LPDDR5X, the durable records and the flash of the place search. -/
structure State.Canonical (s : State) : Prop where
  regs : Store.wf 0 s.regs = true
  shadow : Store.wf 0 s.shadow = true
  sram : Store.wf 0 s.sram = true
  log : Store.wf 0 s.integ.log = true
  dram : Store.wf 0 s.mem.bytes = true
  records : Store.wf 0 s.mem.recordBytes = true
  flash : Store.wf 0 s.srch.flash = true

/-- The bits of the register at an address that a list of fields covers. -/
def bitsAt (l : List Fld) (a : Nat) : Word := l.foldl (fun m f => if f.addr = a then m ||| f.mask else m) 0

/-- Outside the listed fields no bit of any register differs. -/
def RegsBut (l : List Fld) (s t : State) : Prop := ∀ a, (s.rawReg a ^^^ t.rawReg a) &&& ~~~ bitsAt l a = 0

/-- Only the listed fields of the register file differ, and nothing else of the block. -/
def OnlyFields (l : List Fld) (s t : State) : Prop := t = { s with regs := t.regs } ∧ RegsBut l s t

/-- A whole register as a field. -/
def whole (a : Nat) : Fld := ⟨a, 0, 32⟩

/-- The register in which a fuse bit shows once blown (R107, R109). -/
def FuseBit.register : FuseBit → Nat
  | .rollback => fld_ROLLBACK_COUNTER.addr
  | .revoked _ => fld_KEY_STATUS_REVOKED.addr
  | .key w _ => reg_KEY_DIGEST w
  | .present _ => fld_KEY_STATUS_PRESENT.addr
  | .keysLocked => fld_SEC_STATE_KEYS_LOCKED.addr

/-- The register does not change as a reset begins, but for what the reset takes: a bit being blown may or may not show (R108), and an entry
to FUSE_SENSE that the reset cuts short counts (R574). -/
def State.untouched (s : State) (a : Nat) : Bool :=
  (match s.cast.fuses with | [] => true | f :: _ => a != f.register) && (!s.castAt .fuseSense || a != fld_SYS_BOOT_COUNT_COUNT.addr) && a != fld_PWR_STATUS_BROWN.addr

/-- A warm reset has begun (R534, Table 15.8): every swatch is in reset and every output in its cold-reset state; of the registers only FUSE
and STICKY fields keep their values, all others have their Reset values, but for BROWN; SRAM and shadows are clear, the flash and the durable
records remain, and so does the fault log. -/
structure WarmBegun (cause pll : Nat) (s t : State) : Prop where
  active : t.resets.active = some .warm
  cause : t.resets.cause = cause
  pll : t.resets.pll = pll
  due : t.resets.due = none
  held : t.sw.inReset = BitVec.allOnes 48
  pins : t.pins = Pins.reset
  regs : ∀ a, s.untouched a = true → Store.get 0 t.regs a = Store.get 0 s.regs a &&& keptMask true a
  brown : t.brown = s.brown
  sram : t.sram = [] ∧ t.shadow = []
  records : t.mem.recordBytes = s.mem.recordBytes ∧ t.srch.flash = s.srch.flash
  log : t.integ.log = s.integ.log
  links : t.links = { Links.reset with ospiDriven := false }
  cast : t.cast = CastOn.reset

/-- A cold reset has begun: as a warm one, but the STICKY fields and the fault log are lost too. -/
structure ColdBegun (cause : Nat) (s t : State) : Prop where
  active : t.resets.active = some .cold
  cause : t.resets.cause = cause
  held : t.sw.inReset = BitVec.allOnes 48
  pins : t.pins = Pins.reset
  regs : ∀ a, s.untouched a = true → Store.get 0 t.regs a = Store.get 0 s.regs a &&& keptMask false a
  brown : t.brown = false
  sram : t.sram = [] ∧ t.shadow = []
  records : t.mem.recordBytes = s.mem.recordBytes ∧ t.srch.flash = s.srch.flash
  log : t.integ.log = []

end Sys2Proof.Machine
end

