-- ==== Sys2Proof/Certificates/Slice0/Obligations.lean ====
section
/-!
DEFINITION. The statements about the block. A statement about what a command does says that exec answers a next state, what that
state holds, and what it leaves as it was.
-/
open Sys2Proof Sys2Proof.Machine

/-- Whatever command runs, and in whatever state, the stores keep their one canonical form, so that equal contents of registers and memory
are equal data. -/
def Obligations.StepKeepsCanonical : Prop := ∀ s t : State, s.Canonical → step s = .next t → t.Canonical

/-- exec is the command's effect on everything but the queue. -/
def Obligations.ExecLeavesQueue : Prop := ∀ (c : Instr) (s t : State), exec c s = .next t → t.pending = s.pending

def Obligations.ResetCanonical : Prop := State.reset.Canonical

/-- Every command of the table has an effect in every state, be it that the event cannot occur in it and leaves it unchanged. -/
def Obligations.NoCommandStops : Prop := ∀ (c : Instr) (s : State), Completes c s

/-- A step at a state whose queue begins with a command is exec of that command, on the state with the rest of the queue. The queue
is the model's (log entry 1). -/
def Obligations.StepRunsFront : Prop :=
  ∀ (c : Instr) (rest : List Instr) (s : State), step { s with pending := c :: rest } = exec c { s with pending := rest }

/-- R18, R92, R93, R110, R112, R599: right after the release of a cold reset PHASE is FUSE_SENSE, DEV_READY is low and every output holds its
cold-reset state; the register file holds the Reset values, every swatch but SYS, PWR, INTEG, TIME, ETH, IMU and HOST is in reset, and
nothing waits. -/
def Obligations.ResetLeaves : Prop :=
  State.reset.phase = phaseFuseSense ∧ State.reset.pins.devReady = false ∧ State.reset.pins.coldState = true ∧
  (∀ a, State.reset.reg a = resetAt a) ∧ (∀ n, n < 48 → (State.reset.inReset n = true ↔ 7 ≤ n)) ∧ State.reset.alive = true ∧
  State.reset.pending = []

/-- R136: one tick of device time, 2 ns at the present rate; that an empty queue is the passing of a tick is the model's choice (log
entry 1), and so is when an Announce expires (log entry 14). -/
def Obligations.IdleStepTicks : Prop :=
  (∀ (s : State), s.pending = [] → ¬ (s.alive = true ∧ s.time.running = true) → step s = .next s) ∧
  (∀ (s : State), s.pending = [] → s.alive = true → s.time.running = true → s.resets.due = none → Store.get none s.time.announce 0 = none →
    Store.get none s.time.announce 1 = none →
    step s = .next { s with time := { s.time with ticks := s.time.ticks + 1, now := s.time.now + tickAdvance s.rateUnits } }) ∧
  (∀ (m : Fin 2) (h : HeldAnnounce) (s : State), s.pending = [] → s.alive = true → s.time.running = true → s.resets.due = none →
    Store.get none s.time.announce m = some h → h.tick + announceTicks h.msg ≤ s.time.ticks →
    ∃ t, step s = .next t ∧ Store.get none t.time.announce m = none ∧ t.time.ticks = s.time.ticks + 1 ∧
      t.time.now = s.time.now + tickAdvance s.rateUnits ∧ t.pins = s.pins ∧ t.resets = s.resets) ∧
  (∀ (c p : Nat) (w : Stamp) (s : State), s.pending = [] → s.Canonical → s.alive = true → s.time.running = true →
    s.resets.due = some (c, p, w) → w ≤ (s.time.now + tickAdvance s.rateUnits) / 2 ^ 32 → Store.get none s.time.announce 0 = none →
    Store.get none s.time.announce 1 = none → s.castAt .fuseSense = false → s.brown = false → s.cast.fuses = [] →
    ∃ t, step s = .next t ∧ WarmBegun c p s t)

/-- R13: the pair of reads, with R11 for an unmapped word (peek reads it as zero). -/
def Obligations.PairReadLatches : Prop :=
  (∀ (port : Nat) (addr : Word) (s : State), s.hostUp = true → isPairLo addr.toNat = true → s.latch port addr.toNat = none →
    latchedWith addr.toNat = [addr.toNat + 4] → s.reachable addr.toNat = true →
    ∃ t, exec (.registerLoRead port addr) s = .next t ∧ t.out.words = [s.peek addr.toNat] ∧
      t.latch port (addr.toNat + 4) = some (s.peek (addr.toNat + 4)) ∧
      (∀ p a, portKey p a ≠ portKey port (addr.toNat + 4) → t.latch p a = s.latch p a) ∧
      t = { s with out := t.out, ports := t.ports } ∧ t.ports.lows = s.ports.lows) ∧
  (∀ (port : Nat) (addr w : Word) (s : State), s.hostUp = true → isPairHi addr.toNat = true → s.latch port addr.toNat = some w →
    ∃ t, exec (.registerHiRead port addr) s = .next t ∧ t.out.words = [w] ∧ t.latch port addr.toNat = none ∧
      (∀ p a, portKey p a ≠ portKey port addr.toNat → t.latch p a = s.latch p a) ∧
      t = { s with out := t.out, ports := t.ports } ∧ t.ports.lows = s.ports.lows) ∧
  (∀ (port : Nat) (addr : Word) (s : State), s.hostUp = true → isPairHi addr.toNat = true → s.latch port addr.toNat = none →
    isPairLo addr.toNat = false → addr.toNat ≠ reg_ATTEST_WIN_DATA → addr.toNat ≠ reg_FAULT_LOG_DATA →
    ∃ t, exec (.registerHiRead port addr) s = .next t ∧ t.out.words = [s.peek addr.toNat] ∧ t = { s with out := t.out }) ∧
  (∀ (port : Nat) (addr : Word) (s : State), s.hostUp = true → isPairLo addr.toNat = true → s.latch port addr.toNat = none →
    s.reachable addr.toNat = true →
    ∃ t, exec (.registerLoRead port addr) s = .next t ∧ t.out.words = [s.peek addr.toNat] ∧
      (∀ b, b ∈ latchedWith addr.toNat → t.latch port b = some (s.peek b)) ∧
      t = { s with out := t.out, ports := t.ports } ∧ t.ports.lows = s.ports.lows) ∧
  (∀ (port : Nat) (n : Fin 12) (addr w : Word) (s : State), s.hostUp = true → s.latch port addr.toNat = some w →
    (addr.toNat ∈ latchedWith reg_TIME_NOW_SEC_LO ∨ addr.toNat ∈ latchedWith (reg_STREAM_FS_SEC_LO n)) →
    ∃ t, exec (.registerHiRead port addr) s = .next t ∧ t.out.words = [w] ∧ t.latch port addr.toNat = none ∧
      t = { s with out := t.out, ports := t.ports } ∧ t.ports.lows = s.ports.lows)

/-- R173: the latched words are the present ones at the moment of the SEC_LO read. -/
def Obligations.TimeReadLatchesGroup : Prop :=
  ∀ (port : Nat) (s : State), s.hostUp = true → s.reachable reg_TIME_NOW_SEC_LO = true → s.latch port reg_TIME_NOW_SEC_LO = none →
    ∃ t, exec (.timeNowSecLoRead port) s = .next t ∧ t.out.words = [s.peek reg_TIME_NOW_SEC_LO] ∧
      t.latch port reg_TIME_NOW_SEC_HI = some (s.peek reg_TIME_NOW_SEC_HI) ∧
      t.latch port reg_TIME_NOW_NS = some (s.peek reg_TIME_NOW_NS) ∧
      t.latch port reg_TIME_NOW_FRAC = some (s.peek reg_TIME_NOW_FRAC) ∧
      (∀ p a, portKey p a ≠ portKey port reg_TIME_NOW_SEC_HI → portKey p a ≠ portKey port reg_TIME_NOW_NS →
        portKey p a ≠ portKey port reg_TIME_NOW_FRAC → t.latch p a = s.latch p a) ∧
      t = { s with out := t.out, ports := t.ports } ∧ t.ports.lows = s.ports.lows

/-- R122, R557: the window reads. Both WORD fields wrap at their width. -/
def Obligations.WindowReadsAdvance : Prop :=
  (∀ (port : Nat) (s : State), s.reachable reg_ATTEST_WIN_DATA = true →
    ∃ t, exec (.attestWinDataRead port) s = .next t ∧
      t.out.words = [if s.flag fld_ATTEST_STATUS_BUSY then 0 else s.cast.report.getD (s.fld fld_ATTEST_WIN_ADDR_WORD) 0] ∧
      t.fld fld_ATTEST_WIN_ADDR_WORD = (s.fld fld_ATTEST_WIN_ADDR_WORD + 1) % 1024 ∧
      RegsBut [fld_ATTEST_WIN_ADDR_WORD] s t ∧ t = { s with regs := t.regs, out := t.out }) ∧
  (∀ (port : Nat) (s : State), s.reachable reg_FAULT_LOG_DATA = true →
    ∃ t, exec (.faultLogDataRead port) s = .next t ∧
      t.out.words = [Store.get 0 s.integ.log (s.fld fld_FAULT_LOG_ADDR_WORD)] ∧
      t.fld fld_FAULT_LOG_ADDR_WORD = (s.fld fld_FAULT_LOG_ADDR_WORD + 1) % 256 ∧
      RegsBut [fld_FAULT_LOG_ADDR_WORD] s t ∧ t = { s with regs := t.regs, out := t.out })

/-- R14, R115, with R165 for the pairs that are staged. -/
def Obligations.PairWriteTakesBoth : Prop :=
  (∀ (port : Nat) (addr data : Word) (s : State), s.hostUp = true → isPairLo addr.toNat = true →
    ∃ t, exec (.registerLoWrite port addr data) s = .next t ∧ t.heldLow port addr.toNat = some data ∧
      (∀ p a, portKey p a ≠ portKey port addr.toNat → t.heldLow p a = s.heldLow p a) ∧
      t = { s with ports := { s.ports with lows := t.ports.lows } }) ∧
  (∀ (port : Nat) (addr data lo m k : Word) (s : State), s.hostUp = true → isPairHi addr.toNat = true → isPairLo addr.toNat = false →
    stagedAddr addr.toNat = false → stagedAddr (addr.toNat - 4) = false → s.heldLow port (addr.toNat - 4) = some lo →
    s.writeMask addr.toNat data = some m → s.writeMask (addr.toNat - 4) lo = some k →
    ∃ t, exec (.registerHiWrite port addr data) s = .next t ∧
      t.rawReg (addr.toNat - 4) = writtenWord (addr.toNat - 4) (s.reg (addr.toNat - 4)) k lo ∧
      t.rawReg addr.toNat = writtenWord addr.toNat (s.reg addr.toNat) m data ∧ t.heldLow port (addr.toNat - 4) = none ∧
      RegsBut [whole (addr.toNat - 4), whole addr.toNat] s t ∧ t = { s with regs := t.regs, ports := t.ports }) ∧
  (∀ (port : Nat) (addr data m : Word) (s : State), s.hostUp = true → isPairHi addr.toNat = true → isPairLo addr.toNat = false →
    stagedAddr addr.toNat = false → s.heldLow port (addr.toNat - 4) = none → s.writeMask addr.toNat data = some m →
    ∃ t, exec (.registerHiWrite port addr data) s = .next t ∧
      t.rawReg addr.toNat = writtenWord addr.toNat (s.reg addr.toNat) m data ∧ OnlyFields [whole addr.toNat] s t) ∧
  (∀ (port : Nat) (addr data : Word) (s : State), isPairHi addr.toNat = true → isPairLo addr.toNat = false →
    s.writeMask addr.toNat data = none → exec (.registerHiWrite port addr data) s = .next s) ∧
  (∀ (port : Nat) (addr data lo : Word) (s : State), isPairHi addr.toNat = true → isPairLo addr.toNat = false →
    s.heldLow port (addr.toNat - 4) = some lo → s.writeMask (addr.toNat - 4) lo = none → exec (.registerHiWrite port addr data) s = .next s) ∧
  (∀ (port : Nat) (addr data lo m k : Word) (s : State), s.hostUp = true → isPairHi addr.toNat = true → isPairLo addr.toNat = false →
    stagedAddr addr.toNat = true → stagedAddr (addr.toNat - 4) = true → s.heldLow port (addr.toNat - 4) = some lo →
    s.writeMask addr.toNat data = some m → s.writeMask (addr.toNat - 4) lo = some k →
    ∃ t, exec (.registerHiWrite port addr data) s = .next t ∧
      Store.get none t.timers.staged (addr.toNat - 4) = some (writtenWord (addr.toNat - 4) ((Store.get none s.timers.staged (addr.toNat - 4)).getD (s.reg (addr.toNat - 4))) k lo) ∧
      Store.get none t.timers.staged addr.toNat = some (writtenWord addr.toNat ((Store.get none s.timers.staged addr.toNat).getD (s.reg addr.toNat)) m data) ∧
      t.heldLow port (addr.toNat - 4) = none ∧ t = { s with timers := { s.timers with staged := t.timers.staged }, ports := t.ports }) ∧
  (∀ (port : Nat) (addr data m : Word) (s : State), s.hostUp = true → isPairHi addr.toNat = true → isPairLo addr.toNat = false →
    stagedAddr addr.toNat = true → s.heldLow port (addr.toNat - 4) = none → s.writeMask addr.toNat data = some m →
    ∃ t, exec (.registerHiWrite port addr data) s = .next t ∧
      Store.get none t.timers.staged addr.toNat = some (writtenWord addr.toNat ((Store.get none s.timers.staged addr.toNat).getD (s.reg addr.toNat)) m data) ∧
      t = { s with timers := { s.timers with staged := t.timers.staged } })

/-- R11, R15, R115: a write to a plain register. -/
def Obligations.PlainWriteFollowsAccessCodes : Prop :=
  (∀ (port : Nat) (addr data m : Word) (s : State), s.hostUp = true → isPairLo addr.toNat = false → isPairHi addr.toNat = false →
    s.writeActing addr.toNat data = none → s.writeActingArray addr.toNat data = none → stagedAddr addr.toNat = false →
    s.writeMask addr.toNat data = some m →
    ∃ t, exec (.registerWrite port addr data) s = .next t ∧
      (∀ i, i < 32 → (t.rawReg addr.toNat).getLsbD i =
        (if m.getLsbD i = false then (s.reg addr.toNat).getLsbD i
         else if (maskAt addr.toNat (fun f => f.access == .rw || f.access == .rwl)).getLsbD i then data.getLsbD i
         else if (maskAt addr.toNat (·.access == .w1c)).getLsbD i then (s.reg addr.toNat).getLsbD i && !data.getLsbD i
         else if (maskAt addr.toNat (·.access == .w1s)).getLsbD i then (s.reg addr.toNat).getLsbD i || data.getLsbD i
         else (s.reg addr.toNat).getLsbD i)) ∧
      OnlyFields [whole addr.toNat] s t) ∧
  (∀ (port : Nat) (addr data : Word) (s : State), isPairLo addr.toNat = false → isPairHi addr.toNat = false →
    s.writeActing addr.toNat data = none → s.writeActingArray addr.toNat data = none →
    s.writeMask addr.toNat data = none → exec (.registerWrite port addr data) s = .next s)

/-- R107, R108, R109: the four fuse commands. COMMIT_PENDING is shown again once the device is locked. -/
def Obligations.FusesBlownBitByBit : Prop :=
  (∀ (data d : Word) (s : State), s.writeTaken reg_ROLLBACK_COMMIT data = some d →
    d.toNat % 128 = s.fld fld_ROLLBACK_IMAGE_VERSION → s.flag fld_SEC_STATE_FUSE_BUSY = false → s.commitBits ≠ [] →
    ∃ t, exec (.rollbackCommit data) s = .next t ∧ t.cast.fuses = s.commitBits ∧ t.flag fld_SEC_STATE_FUSE_BUSY = true ∧
      t.cast.fusesHeld = s.brown ∧ RegsBut [fld_SEC_STATE_FUSE_BUSY] s t ∧
      t = { s with regs := t.regs, cast := { s.cast with fuses := t.cast.fuses, fusesHeld := t.cast.fusesHeld } }) ∧
  (∀ (data : Word) (s : State), s.phase = phaseProvision → s.reachable reg_FUSE_PROG_CTRL = true → s.flag fld_SEC_STATE_FUSE_BUSY = false →
    data.getLsbD 8 = true → data.getLsbD 9 = false →
    s.keyBits (16 * bits data.toNat 5 4 + bits data.toNat 3 0) (s.reg reg_FUSE_PROG_DATA) ≠ [] →
    ∃ t, exec (.program data) s = .next t ∧ t.flag fld_SEC_STATE_FUSE_BUSY = true ∧
      t.cast.fuses = s.keyBits (16 * bits data.toNat 5 4 + bits data.toNat 3 0) (s.reg reg_FUSE_PROG_DATA) ∧
      t.fld fld_FUSE_PROG_CTRL_SLOT = bits data.toNat 5 4 ∧ t.fld fld_FUSE_PROG_CTRL_WORD = bits data.toNat 3 0 ∧
      RegsBut [fld_SEC_STATE_FUSE_BUSY, fld_FUSE_PROG_CTRL_SLOT, fld_FUSE_PROG_CTRL_WORD] s t) ∧
  (∀ (data : Word) (s : State), s.phase = phaseProvision → s.reachable reg_FUSE_PROG_CTRL = true → s.flag fld_SEC_STATE_FUSE_BUSY = false →
    data.getLsbD 8 = false → data.getLsbD 9 = true → s.blankSlot 0 = false →
    ∃ t, exec (.lockKeys data) s = .next t ∧ t.flag fld_SEC_STATE_FUSE_BUSY = true ∧ t.cast.fuses = s.lockBits ∧
      RegsBut [fld_SEC_STATE_FUSE_BUSY, fld_FUSE_PROG_CTRL_SLOT, fld_FUSE_PROG_CTRL_WORD] s t) ∧
  (∀ (f : FuseBit) (r : List FuseBit) (s : State), s.alive = true → s.cast.fusesHeld = false → s.cast.fuses = f :: r →
    ∃ t, exec (.fuseBitBlown true) s = .next t ∧ t.cast.fuses = r ∧ t.flag fld_SEC_STATE_FUSE_BUSY = !r.isEmpty ∧
      t = { s with regs := t.regs, cast := { s.cast with fuses := r } } ∧
      (f = .rollback → t.fld fld_ROLLBACK_COUNTER = min 127 (s.fld fld_ROLLBACK_COUNTER + 1)) ∧
      (∀ k, f = .revoked k → k < 4 → bit (t.fld fld_KEY_STATUS_REVOKED) k = true) ∧
      (∀ k, f = .present k → k < 4 → bit (t.fld fld_KEY_STATUS_PRESENT) k = true) ∧
      (∀ w, w < 64 → ∀ b, b < 32 → f = .key w b → (t.rawReg (reg_KEY_DIGEST w)).getLsbD b = true) ∧
      (f = .keysLocked → t.flag fld_SEC_STATE_KEYS_LOCKED = true) ∧
      t.flag fld_ROLLBACK_COMMIT_PENDING = (if s.flag fld_SYS_LOCK_LOCKED then !t.commitBits.isEmpty else s.flag fld_ROLLBACK_COMMIT_PENDING) ∧
      RegsBut ([fld_SEC_STATE_FUSE_BUSY, fld_ROLLBACK_COMMIT_PENDING] ++ match f with
        | .rollback => [fld_ROLLBACK_COUNTER]
        | .revoked _ => [fld_KEY_STATUS_REVOKED]
        | .key w _ => [whole (reg_KEY_DIGEST w)]
        | .present _ => [fld_KEY_STATUS_PRESENT]
        | .keysLocked => [fld_SEC_STATE_KEYS_LOCKED]) s t) ∧
  (∀ (s : State), exec (.fuseBitBlown false) s = .next s)

/-- R121: START and its completion. The signatures are free constants of Config. -/
def Obligations.AttestationLatchesAndReports : Prop :=
  (∀ (data d : Word) (s : State), s.writeTaken reg_ATTEST_CTRL data = some d → d.getLsbD 0 = true → s.cast.fuseErr = false →
    s.flag fld_ATTEST_STATUS_BUSY = false →
    ∃ t, exec (.attestStart data) s = .next t ∧ t.flag fld_ATTEST_STATUS_BUSY = true ∧
      t.cast.nonce = (List.range 8).flatMap (fun i => wordBytes (s.reg (reg_ATTEST_NONCE i))) ∧
      RegsBut [fld_ATTEST_STATUS_BUSY] s t ∧ t = { s with regs := t.regs, cast := { s.cast with nonce := t.cast.nonce } }) ∧
  (∀ (data : Word) (s : State), s.flag fld_ATTEST_STATUS_BUSY = true → exec (.attestStart data) s = .next s) ∧
  (∀ (s : State), s.alive = true → s.dozing = false → s.flag fld_ATTEST_STATUS_BUSY = true →
    ∃ t, exec .attestDone s = .next t ∧ t.flag fld_ATTEST_STATUS_BUSY = false ∧ t.flag fld_ATTEST_STATUS_DONE = true ∧
      t.fld fld_ATTEST_STATUS_COUNT = min 65535 (s.fld fld_ATTEST_STATUS_COUNT + 1) ∧
      bit (t.fld fld_I3C_IBI_PEND_PEND) 3 = true ∧ t.cast.report = toWords 908 s.attestReport ∧
      RegsBut [fld_ATTEST_STATUS_BUSY, fld_ATTEST_STATUS_DONE, fld_ATTEST_STATUS_COUNT, fld_I3C_IBI_PEND_PEND] s t ∧
      t = { s with regs := t.regs, cast := { s.cast with report := t.cast.report } }) ∧
  (∀ (data : Word) (s : State), s.cast.fuseErr = true → exec (.attestStart data) s = .next s) ∧
  (∀ (s : State), s.dozing = true → exec .attestDone s = .next s)

/-- R123, R93: bind-off. -/
def Obligations.BindOffReachesBound : Prop :=
  (∀ (data d : Word) (s : State), s.writeTaken reg_BIND_OFF_CTRL data = some d → d.getLsbD 0 = true → s.phase = phaseRunning →
    ∃ t, exec (.bindOffRequest data) s = .next t ∧ t.phase = phaseBindOff ∧ t.pins.devReady = false ∧ t.pins.coldState = s.pins.coldState ∧ t.sw.inReset = s.sw.inReset ∧
      t.power = { s.power with transition := none, heldWake := none, hibernateNext := false }) ∧
  (∀ (data d : Word) (s : State), s.writeTaken reg_BIND_OFF_CTRL data = some d → d.getLsbD 0 = true → s.phase = phaseRunning →
    (∀ g, (s.graph g).act = none) → s.track.updates = [] → (∀ t, s.cuttable t = none) → s.vis.verifying = none → s.mem.move = none →
    s.srch.queue = [] → s.srch.active = [] → s.srch.importing = none → s.solv.suspended = none → s.problem 1 = none →
    ∃ t, exec (.bindOffRequest data) s = .next t ∧ t.phase = phaseBindOff ∧ t.power.transition = none ∧ t.power.hibernateNext = false ∧
      RegsBut [fld_SEC_STATE_PHASE, fld_PWR_STATUS_CHANGING, fld_SRCH_PROBE_STATUS_BUSY] s t) ∧
  (∀ (data : Word) (s : State), s.phase ≠ phaseRunning → exec (.bindOffRequest data) s = .next s) ∧
  (∀ (s : State), s.alive = true → s.phase = phaseBindOff → s.power.nandHeld = false →
    exec .bindOffNandDrained s = .next { s with cast := { s.cast with bindDrained := true } }) ∧
  (∀ (s : State), s.alive = true → s.phase = phaseBindOff → s.cast.bindDrained = true → s.loopEnded = true →
    ∃ t, exec .bindOffComplete s = .next t ∧ t.phase = phaseBound ∧ t.pins.devReady = false ∧ t.power.selfRefresh = true ∧
      t.loop.grid = false ∧ bit (t.fld fld_I3C_IBI_PEND_PEND) 6 = true ∧
      RegsBut [fld_SEC_STATE_PHASE, fld_I3C_IBI_PEND_PEND] s t)

/-- R546, R547, R550, R564: the four commands of the register feed. -/
def Obligations.RegisterFeedChecksMessage : Prop :=
  (∀ (u : Fin 8) (data d : Word) (s : State), s.writeTaken (reg_CHECK_FEED_CTRL u) data = some d → d.getLsbD 0 = true → d.getLsbD 1 = false →
    s.fld (fld_CHECK_CFG_USERS u) = 0 → (s.unit u).message = none →
    ∃ t, exec (.checkFeedStart u data) s = .next t ∧
      (t.unit u).message = some { point := 2, verify := d.getLsbD 2, bytes := feedBytes (bits d.toNat 5 4), crc := (s.unitSpec u).init, context := none, expected := 0, closed := false } ∧
      (t.unit u).alive = (s.unit u).alive ∧ t.flag (fld_CHECK_STATUS_BUSY u) = true ∧ (∀ v, v ≠ u.val → t.unit v = s.unit v) ∧
      RegsBut [fld_CHECK_STATUS_BUSY u] s t ∧ t = { s with regs := t.regs, integ := { s.integ with units := t.integ.units } }) ∧
  (∀ (u : Fin 8) (data d : Word) (m : CheckMessage) (s : State), s.writeTaken (reg_CHECK_FEED_DATA u) data = some d → (s.unit u).message = some m →
    m.point = 2 → m.closed = false →
    ∃ t, exec (.checkFeedData u data) s = .next t ∧
      (t.unit u).message = some { m with crc := crcFeed (s.unitSpec u) m.crc (toLe m.bytes d.toNat) } ∧ (∀ v, v ≠ u.val → t.unit v = s.unit v) ∧
      RegsBut [fld_CHECK_STATUS_BUSY u] s t ∧ t = { s with regs := t.regs, integ := { s.integ with units := t.integ.units } }) ∧
  (∀ (u : Fin 8) (data d : Word) (m : CheckMessage) (s : State), s.writeTaken (reg_CHECK_FEED_CTRL u) data = some d → d.getLsbD 0 = false → d.getLsbD 1 = true →
    (s.unit u).message = some m → m.point = 2 → m.closed = false →
    ∃ t, exec (.checkFeedEnd u data) s = .next t ∧
      (t.unit u).message = some { m with closed := true, expected := s.reg (reg_CHECK_EXPECT u) } ∧ (∀ v, v ≠ u.val → t.unit v = s.unit v) ∧
      RegsBut [fld_CHECK_STATUS_BUSY u] s t ∧ t = { s with regs := t.regs, integ := { s.integ with units := t.integ.units } }) ∧
  (∀ (u : Fin 8) (m : CheckMessage) (s : State), (s.unit u).message = some m → m.closed = true → m.verify = true → (s.unit u).waiting = [] →
    ∃ t, exec (.checkMessageDone u) s = .next t ∧
      t.reg (reg_CHECK_RESULT u) = BitVec.ofNat 32 (crcResult (s.unitSpec u) m.crc) ∧
      t.fld (fld_CHECK_COUNTS_MESSAGES u) = min 65535 (s.fld (fld_CHECK_COUNTS_MESSAGES u) + 1) ∧
      t.flag (fld_CHECK_STATUS_VERDICT u) = decide (crcResult (s.unitSpec u) m.crc ≠ m.expected.toNat % 2 ^ (s.unitSpec u).width) ∧
      t.flag (fld_CHECK_STATUS_BUSY u) = false ∧ (t.unit u).message = none ∧ (∀ v, v ≠ u.val → t.unit v = s.unit v) ∧
      (crcResult (s.unitSpec u) m.crc ≠ m.expected.toNat % 2 ^ (s.unitSpec u).width →
        t.flag (fld_CHECK_STATUS_MISMATCH u) = true ∧ t.fld (fld_CHECK_COUNTS_MISMATCH u) = min 65535 (s.fld (fld_CHECK_COUNTS_MISMATCH u) + 1) ∧
        t.integ.flits = s.integ.flits ++ (if s.flag (fld_CHECK_CFG_INT_EN u) then
          [.report ⟨13, 2, BitVec.ofNat 32 (u.val + (match m.context with | some x => x.1 | none => 0) % 64 * 2 ^ 8), s.stamp⟩] else [])) ∧
      (crcResult (s.unitSpec u) m.crc = m.expected.toNat % 2 ^ (s.unitSpec u).width →
        t.flag (fld_CHECK_STATUS_MISMATCH u) = s.flag (fld_CHECK_STATUS_MISMATCH u) ∧
        t.fld (fld_CHECK_COUNTS_MISMATCH u) = s.fld (fld_CHECK_COUNTS_MISMATCH u) ∧ t.integ.flits = s.integ.flits) ∧
      RegsBut [whole (reg_CHECK_RESULT u), fld_CHECK_COUNTS_MESSAGES u, fld_CHECK_COUNTS_MISMATCH u, fld_CHECK_STATUS_VERDICT u, fld_CHECK_STATUS_MISMATCH u, fld_CHECK_STATUS_BUSY u] s t ∧
      t = { s with regs := t.regs, integ := { s.integ with units := t.integ.units, flits := t.integ.flits } }) ∧
  (∀ (u : Fin 8) (m : CheckMessage) (s : State), (s.unit u).message = some m → m.closed = true → m.verify = false → (s.unit u).waiting = [] →
    ∃ t, exec (.checkMessageDone u) s = .next t ∧
      t.reg (reg_CHECK_RESULT u) = BitVec.ofNat 32 (crcResult (s.unitSpec u) m.crc) ∧
      t.fld (fld_CHECK_COUNTS_MESSAGES u) = min 65535 (s.fld (fld_CHECK_COUNTS_MESSAGES u) + 1) ∧
      t.flag (fld_CHECK_STATUS_BUSY u) = false ∧ (t.unit u).message = none ∧ (∀ v, v ≠ u.val → t.unit v = s.unit v) ∧
      RegsBut [whole (reg_CHECK_RESULT u), fld_CHECK_COUNTS_MESSAGES u, fld_CHECK_STATUS_BUSY u] s t ∧
      t = { s with regs := t.regs, integ := { s.integ with units := t.integ.units } }) ∧
  (∀ (u : Fin 8) (m w : CheckMessage) (r : List CheckMessage) (s : State), (s.unit u).message = some m → m.closed = true → (s.unit u).waiting = w :: r →
    ∃ t, exec (.checkMessageDone u) s = .next t ∧ (t.unit u).message = some w ∧ (t.unit u).waiting = r ∧
      t.flag (fld_CHECK_STATUS_BUSY u) = true ∧ t.reg (reg_CHECK_RESULT u) = BitVec.ofNat 32 (crcResult (s.unitSpec u) m.crc))

/-- R553, R554, R557: the three commands of the tree, for every kind of flit. -/
def Obligations.FaultTreeKeepsFirstReport : Prop :=
  (∀ (node : Fin 16) (r : FaultReport) (s : State), s.alive = true → (s.node node r.cause).1 = false →
    ∃ t, exec (.faultNodeFlit node (.report r)) s = .next t ∧ t.node node r.cause = (true, (s.node node r.cause).2) ∧
      t.integ.flits = dropFirst (· == .report r) s.integ.flits ++ [.report r] ∧
      t = { s with integ := { s.integ with nodes := t.integ.nodes, flits := t.integ.flits } }) ∧
  (∀ (node : Fin 16) (r : FaultReport) (s : State), s.alive = true → (s.node node r.cause).1 = true →
    ∃ t, exec (.faultNodeFlit node (.report r)) s = .next t ∧ t.node node r.cause = (true, min 0xFFFFFFFF ((s.node node r.cause).2 + 1)) ∧
      t.integ.flits = dropFirst (· == .report r) s.integ.flits ∧
      t = { s with integ := { s.integ with nodes := t.integ.nodes, flits := t.integ.flits } }) ∧
  (∀ (r : FaultReport) (s : State), s.alive = true → 1 ≤ r.cause → r.cause ≤ 16 → r.source < 65536 → s.regBit reg_FAULT_PEND r.cause = false →
    ∃ t, exec (.faultRootArrive (.report r)) s = .next t ∧ t.regBit reg_FAULT_PEND r.cause = true ∧
      t.fld (fld_FAULT_REC_SOURCE_SOURCE (r.cause - 1)) = r.source ∧ t.reg (reg_FAULT_REC_DETAIL (r.cause - 1)) = r.detail ∧
      t.fld (fld_FAULT_REC_SEC_SEC (r.cause - 1)) = stampSec r.time % 2 ^ 32 ∧ t.fld (fld_FAULT_REC_NS_NS (r.cause - 1)) = stampNs r.time ∧
      (s.regBit reg_FAULT_IRQ_EN r.cause = true → bit (t.fld fld_I3C_IBI_PEND_PEND) 0 = true) ∧ t.reg (reg_FAULT_REC_COUNT (r.cause - 1)) = 1 ∧
      t.integ.windows.any (fun w => w.1 == r.cause) = true ∧
      t.fld fld_FAULT_LOG_STATUS_NEXT = (s.fld fld_FAULT_LOG_STATUS_NEXT + 1) % 64 ∧
      Store.get 0 t.integ.log (4 * s.fld fld_FAULT_LOG_STATUS_NEXT + 1) = r.detail ∧
      t = { s with regs := t.regs, integ := t.integ }) ∧
  (∀ (cause : Fin 17) (w : Nat × Stamp) (s : State), s.integ.windows.find? (fun w => w.1 == cause.val) = some w →
    ∃ t, exec (.faultWindowClose cause) s = .next t ∧ t.integ.windows = s.integ.windows.filter (fun v => v.1 != cause.val) ∧
      t.integ.flits = s.integ.flits ++ List.replicate 16 (.close cause.val) ∧ t.regs = s.regs ∧
      t = { s with time := t.time, integ := { s.integ with windows := t.integ.windows, flits := t.integ.flits } }) ∧
  (∀ (node : Fin 16) (c k : Nat) (s : State), s.alive = true →
    ∃ t, exec (.faultNodeFlit node (.summary c k)) s = .next t ∧
      ((s.node node c).1 = true → t.node node c = (true, min 0xFFFFFFFF ((s.node node c).2 + k)) ∧
        t.integ.flits = dropFirst (· == .summary c k) s.integ.flits) ∧
      ((s.node node c).1 = false → t.node node c = s.node node c ∧
        t.integ.flits = dropFirst (· == .summary c k) s.integ.flits ++ [.summary c k]) ∧
      t = { s with integ := { s.integ with nodes := t.integ.nodes, flits := t.integ.flits } }) ∧
  (∀ (node : Fin 16) (c : Nat) (s : State), s.alive = true →
    ∃ t, exec (.faultNodeFlit node (.close c)) s = .next t ∧ t.node node c = (false, 0) ∧
      t.integ.flits = dropFirst (· == .close c) s.integ.flits ++ (if (s.node node c).2 = 0 then [] else [.summary c (s.node node c).2]) ∧
      t = { s with integ := { s.integ with nodes := t.integ.nodes, flits := t.integ.flits } }) ∧
  (∀ (r : FaultReport) (s : State), s.alive = true → 1 ≤ r.cause → r.cause ≤ 16 → s.regBit reg_FAULT_PEND r.cause = true →
    ∃ t, exec (.faultRootArrive (.report r)) s = .next t ∧
      t.fld (fld_FAULT_REC_COUNT_COUNT (r.cause - 1)) = min 0xFFFFFFFF (s.fld (fld_FAULT_REC_COUNT_COUNT (r.cause - 1)) + 1) ∧
      t.integ.windows.any (fun w => w.1 == r.cause) = true ∧ t.integ.log = s.integ.log ∧
      RegsBut [fld_FAULT_REC_COUNT_COUNT (r.cause - 1)] s t ∧ t = { s with regs := t.regs, integ := t.integ }) ∧
  (∀ (c k : Nat) (s : State), s.alive = true → 1 ≤ c → c ≤ 16 →
    ∃ t, exec (.faultRootArrive (.summary c k)) s = .next t ∧
      t.fld (fld_FAULT_REC_COUNT_COUNT (c - 1)) = min 0xFFFFFFFF (s.fld (fld_FAULT_REC_COUNT_COUNT (c - 1)) + k) ∧
      t.integ.flits = dropFirst (· == .summary c k) s.integ.flits ∧
      RegsBut [fld_FAULT_REC_COUNT_COUNT (c - 1)] s t ∧ t = { s with regs := t.regs, integ := { s.integ with flits := t.integ.flits } })

/-- R556, R558, R559: the four watchdog commands. -/
def Obligations.WatchdogsExpire : Prop :=
  (∀ (n : Fin 48) (s : State), s.swatchRuns n = true → s.fld (fld_WDOG_SW_LIMIT_US n) ≠ 0 → groupOf n ≠ 0 →
    ∃ t, exec (.wdogSwatch n) s = .next t ∧ t.flag (fld_WDOG_SW_EXPIRED n) = true ∧
      t.sw.requests = s.sw.requests ++ (if s.flag fld_SYS_LOCK_LOCKED then [(n.val, 1)] else []) ∧
      t.integ.flits = s.integ.flits ++ [.report ⟨15, n.val, BitVec.ofNat 32 n.val, s.stamp⟩] ∧ RegsBut [fld_WDOG_SW_EXPIRED n] s t ∧
      t = { s with regs := t.regs, sw := { s.sw with requests := t.sw.requests }, integ := { s.integ with flits := t.integ.flits } }) ∧
  (∀ (s : State), s.alive = true → s.integ.loopArmed = true → s.flag fld_WDOG_CHIP_CFG_LOOP_EN = true → s.loopRunning = true →
    s.chipWatchdogPaused = false → s.resets.due = none →
    ∃ t, exec .wdogChipLoop s = .next t ∧ t.fld fld_WDOG_CHIP_STATUS_LAST_SRC = 1 ∧ t.resets.due = some (3, 0, s.stamp + usStamp 10) ∧
      t.fld fld_WDOG_CHIP_STATUS_EXPIRIES = min 65535 (s.fld fld_WDOG_CHIP_STATUS_EXPIRIES + 1) ∧
      t.integ.flits = s.integ.flits ++ [.report ⟨16, 2, 1, s.stamp⟩] ∧
      RegsBut [fld_WDOG_CHIP_STATUS_LAST_SRC, fld_WDOG_CHIP_STATUS_EXPIRIES] s t ∧
      t = { s with regs := t.regs, resets := { s.resets with due := t.resets.due }, integ := { s.integ with flits := t.integ.flits } }) ∧
  (∀ (s : State), s.alive = true → s.integ.hostArmed = true → s.flag fld_WDOG_CHIP_CFG_HOST_EN = true → s.chipWatchdogPaused = false →
    s.resets.due = none →
    ∃ t, exec .wdogChipHost s = .next t ∧ t.fld fld_WDOG_CHIP_STATUS_LAST_SRC = 2 ∧ t.resets.due = some (3, 0, s.stamp + usStamp 10) ∧
      t.fld fld_WDOG_CHIP_STATUS_EXPIRIES = min 65535 (s.fld fld_WDOG_CHIP_STATUS_EXPIRIES + 1) ∧
      t.integ.flits = s.integ.flits ++ [.report ⟨16, 2, 2, s.stamp⟩] ∧
      RegsBut [fld_WDOG_CHIP_STATUS_LAST_SRC, fld_WDOG_CHIP_STATUS_EXPIRIES] s t ∧
      t = { s with regs := t.regs, resets := { s.resets with due := t.resets.due }, integ := { s.integ with flits := t.integ.flits } }) ∧
  (∀ (data d : Word) (s : State), s.writeTaken reg_WDOG_CHIP_KICK data = some d → s.flag fld_WDOG_CHIP_CFG_HOST_EN = true →
    s.integ.hostArmed = true → s.chipWatchdogPaused = false →
    d.toNat % 65536 = (if s.flag fld_WDOG_CHIP_STATUS_NEXT_KEY then 0x94C3 else 0x6B3C) →
    ∃ t, exec (.wdogChipKick data) s = .next t ∧ t.flag fld_WDOG_CHIP_STATUS_NEXT_KEY = !s.flag fld_WDOG_CHIP_STATUS_NEXT_KEY ∧
      OnlyFields [fld_WDOG_CHIP_STATUS_NEXT_KEY] s t) ∧
  (∀ (data d : Word) (s : State), s.writeTaken reg_WDOG_CHIP_KICK data = some d → s.flag fld_WDOG_CHIP_CFG_HOST_EN = true →
    s.integ.hostArmed = true → s.chipWatchdogPaused = false →
    d.toNat % 65536 ≠ (if s.flag fld_WDOG_CHIP_STATUS_NEXT_KEY then 0x94C3 else 0x6B3C) → s.resets.due = none →
    ∃ t, exec (.wdogChipKick data) s = .next t ∧ t.fld fld_WDOG_CHIP_STATUS_LAST_SRC = 3 ∧ t.resets.due = some (3, 0, s.stamp + usStamp 10) ∧
      t.fld fld_WDOG_CHIP_STATUS_EXPIRIES = min 65535 (s.fld fld_WDOG_CHIP_STATUS_EXPIRIES + 1) ∧
      t.integ.flits = s.integ.flits ++ [.report ⟨16, 2, 3, s.stamp⟩] ∧
      RegsBut [fld_WDOG_CHIP_STATUS_LAST_SRC, fld_WDOG_CHIP_STATUS_EXPIRIES] s t ∧
      t = { s with regs := t.regs, resets := { s.resets with due := t.resets.due }, integ := { s.integ with flits := t.integ.flits } }) ∧
  (∀ (n : Fin 48) (s : State), s.swatchRuns n = true → s.fld (fld_WDOG_SW_LIMIT_US n) ≠ 0 → groupOf n = 0 → s.resets.due = none →
    ∃ t, exec (.wdogSwatch n) s = .next t ∧ t.flag (fld_WDOG_SW_EXPIRED n) = true ∧ t.sw.requests = s.sw.requests ∧
      t.fld fld_WDOG_CHIP_STATUS_LAST_SRC = 0 ∧ t.resets.due = some (3, 0, s.stamp + usStamp 10) ∧
      t.fld fld_WDOG_CHIP_STATUS_EXPIRIES = min 65535 (s.fld fld_WDOG_CHIP_STATUS_EXPIRIES + 1) ∧
      t.integ.flits = s.integ.flits ++ [.report ⟨16, 2, 0, s.stamp⟩] ∧
      RegsBut [fld_WDOG_SW_EXPIRED n, fld_WDOG_CHIP_STATUS_LAST_SRC, fld_WDOG_CHIP_STATUS_EXPIRIES] s t ∧
      t = { s with regs := t.regs, resets := { s.resets with due := t.resets.due }, integ := { s.integ with flits := t.integ.flits } })

/-- R560, R561: the snapshot commands but for the report, which HostReports states. -/
def Obligations.SnapshotsArmAndCopy : Prop :=
  (∀ (data d : Word) (s : State), s.writeTaken reg_SNAP_CTRL data = some d → d.getLsbD 0 = true → d.getLsbD 1 = false → s.stamp + usStamp 2 ≤ s.snapTime →
    ∃ t, exec (.snapArm data) s = .next t ∧ t.flag fld_SNAP_STATUS_PENDING = true ∧ t.integ.snapAt = some s.snapTime ∧
      t.integ.snapPeriod = s.fld fld_SNAP_PERIOD_PERIOD_MS ∧ RegsBut [fld_SNAP_STATUS_PENDING] s t ∧
      t = { s with regs := t.regs, integ := { s.integ with snapAt := t.integ.snapAt, snapPeriod := t.integ.snapPeriod } }) ∧
  (∀ (data d : Word) (s : State), s.writeTaken reg_SNAP_CTRL data = some d → d.getLsbD 0 = true → d.getLsbD 1 = false → s.snapTime < s.stamp + usStamp 2 →
    ∃ t, exec (.snapArm data) s = .next t ∧ t.flag fld_SNAP_STATUS_LATE = true ∧ OnlyFields [fld_SNAP_STATUS_LATE] s t) ∧
  (∀ (data d : Word) (s : State), s.writeTaken reg_SNAP_CTRL data = some d → d.getLsbD 0 = false → d.getLsbD 1 = true →
    ∃ t, exec (.snapCancel data) s = .next t ∧ t.flag fld_SNAP_STATUS_PENDING = false ∧ t.integ.snapAt = none ∧ t.integ.snapPeriod = 0 ∧
      RegsBut [fld_SNAP_STATUS_PENDING] s t ∧ t = { s with regs := t.regs, integ := { s.integ with snapAt := none, snapPeriod := 0 } }) ∧
  (∀ (at_ : Stamp) (s : State), s.alive = true → s.integ.snapAt = some at_ → s.integ.snapPeriod = 0 → Store.wf 0 s.regs = true →
    ∃ t, exec .snapshotInstant s = .next t ∧ t.integ.snapAt = none ∧ t.integ.snapTime = at_ ∧ t.flag fld_SNAP_STATUS_PENDING = false ∧
      (∀ a, s.inReset (servedBy a) = false → Store.get 0 t.shadow a =
        if Store.get 0 s.regs a = 0 then 0 else s.reg a &&& maskAt a (·.access == .snap)) ∧
      (∀ a, s.inReset (servedBy a) = true → Store.get 0 t.shadow a = 0) ∧
      (∀ n, n < 48 → t.flag (fld_SNAP_SWATCH_ABSENT n) = s.inReset n)) ∧
  (∀ (at_ : Stamp) (s : State), s.alive = true → s.integ.snapAt = some at_ → s.integ.snapPeriod ≠ 0 →
    ∃ t, exec .snapshotInstant s = .next t ∧ t.integ.snapAt = some (nextInSeries at_ s.integ.snapPeriod t.stamp) ∧
      t.integ.snapTime = at_ ∧ t.flag fld_SNAP_STATUS_PENDING = s.flag fld_SNAP_STATUS_PENDING ∧
      (∀ n, n < 48 → t.flag (fld_SNAP_SWATCH_ABSENT n) = s.inReset n)) ∧
  (∀ (data d : Word) (s : State), s.writeTaken reg_SNAP_CTRL data = some d → d.getLsbD 0 = true → d.getLsbD 1 = true → s.stamp + usStamp 2 ≤ s.snapTime →
    ∃ t, exec (.snapArm data) s = .next t ∧ t.flag fld_SNAP_STATUS_PENDING = true ∧ t.integ.snapAt = some s.snapTime ∧
      t.integ.snapPeriod = s.fld fld_SNAP_PERIOD_PERIOD_MS ∧ RegsBut [fld_SNAP_STATUS_PENDING] s t ∧
      t = { s with regs := t.regs, integ := { s.integ with snapAt := t.integ.snapAt, snapPeriod := t.integ.snapPeriod } } ∧
      exec (.snapCancel data) s = .next t)

/-- R103, R110, R111, R518, R574: the end of fuse sensing. -/
def Obligations.FuseSensingEntersPhase : Prop :=
  ∀ (raw : List Int) (s : State), s.castAt .fuseSense = true →
    ((s.fld fld_RST_CAUSE_LAST = 7 → s.coolerThan 1600 raw = true) → s.flag fld_SEC_STATE_KEYS_LOCKED = true →
      ∃ t, exec (.fuseSenseDone true raw) s = .next t ∧ t.phase = phaseCasting ∧ t.pins.devReady = false ∧ t.cast.step = .pllSys ∧
        t.fld fld_SYS_BOOT_COUNT_COUNT =
          (if s.cast.bootCounted then s.fld fld_SYS_BOOT_COUNT_COUNT else min 0xFFFFFFFF (s.fld fld_SYS_BOOT_COUNT_COUNT + 1)) ∧
        RegsBut [fld_SYS_BOOT_COUNT_COUNT, fld_SEC_STATE_PHASE] s t ∧
        t = { s with regs := t.regs, cast := { s.cast with fuseErr := false, step := .pllSys, bootCounted := true }, pins := { s.pins with devReady := false } }) ∧
    ((s.fld fld_RST_CAUSE_LAST = 7 → s.coolerThan 1600 raw = true) → s.flag fld_SEC_STATE_KEYS_LOCKED = false →
      ∃ t, exec (.fuseSenseDone true raw) s = .next t ∧ t.phase = phaseProvision ∧ t.pins.devReady = false ∧ t.cast.step = .pllSys ∧
        t.fld fld_CASTON_STATUS_RESULT_A = 0x10 ∧ t.fld fld_CASTON_STATUS_RESULT_B = 0x10 ∧
        t.fld fld_SYS_BOOT_COUNT_COUNT =
          (if s.cast.bootCounted then s.fld fld_SYS_BOOT_COUNT_COUNT else min 0xFFFFFFFF (s.fld fld_SYS_BOOT_COUNT_COUNT + 1)) ∧
        RegsBut [fld_SYS_BOOT_COUNT_COUNT, fld_SEC_STATE_PHASE, fld_CASTON_STATUS_RESULT_A, fld_CASTON_STATUS_RESULT_B] s t ∧
        t = { s with regs := t.regs, cast := { s.cast with fuseErr := false, step := .pllSys, bootCounted := true }, pins := { s.pins with devReady := false },
                     links := { s.links with ospiDriven := false } }) ∧
    ((s.fld fld_RST_CAUSE_LAST = 7 → s.coolerThan 1600 raw = true) →
      ∃ t, exec (.fuseSenseDone false raw) s = .next t ∧ t.phase = phaseFailed ∧ t.pins.devReady = false ∧ t.cast.fuseErr = true ∧
        t.fld fld_CASTON_STATUS_RESULT_A = 0xF ∧ t.fld fld_CASTON_STATUS_RESULT_B = 0xF ∧
        t.fld fld_SYS_BOOT_COUNT_COUNT =
          (if s.cast.bootCounted then s.fld fld_SYS_BOOT_COUNT_COUNT else min 0xFFFFFFFF (s.fld fld_SYS_BOOT_COUNT_COUNT + 1)) ∧
        RegsBut [fld_SYS_BOOT_COUNT_COUNT, fld_SEC_STATE_PHASE, fld_CASTON_STATUS_RESULT_A, fld_CASTON_STATUS_RESULT_B, fld_CASTON_TIME_US] s t ∧
        t = { s with regs := t.regs, cast := { s.cast with fuseErr := true, step := .pllSys, bootCounted := true }, pins := { s.pins with devReady := false },
                     links := { s.links with ospiDriven := false }, fresh := t.fresh }) ∧
    (∀ ok : Bool, s.fld fld_RST_CAUSE_LAST = 7 → s.coolerThan 1600 raw = false →
      ∃ t, exec (.fuseSenseDone ok raw) s = .next t ∧ RegsBut [fld_SYS_BOOT_COUNT_COUNT] s t ∧
        t.fld fld_SYS_BOOT_COUNT_COUNT =
          (if s.cast.bootCounted then s.fld fld_SYS_BOOT_COUNT_COUNT else min 0xFFFFFFFF (s.fld fld_SYS_BOOT_COUNT_COUNT + 1)) ∧
        t = { s with regs := t.regs, cast := { s.cast with bootCounted := true } })

/-- R103, R110, R111, R135, R506: steps 2 to 4 of cast-on. -/
def Obligations.CastOnStartsClocksAndFlash : Prop :=
  (∀ s : State, s.castAt .pllSys = true →
    ∃ t, exec .pllSysLocked s = .next t ∧ t.fld fld_PLL_STATUS_LOCK = Nat.lor (s.fld fld_PLL_STATUS_LOCK) 1 ∧ t.cast.step = .pllIoTime ∧
      t.sw.sysOnRefclk = false ∧ RegsBut [fld_PLL_STATUS_LOCK] s t ∧
      t = { s with regs := t.regs, cast := { s.cast with step := .pllIoTime }, sw := { s.sw with sysOnRefclk := false } }) ∧
  (∀ s : State, s.castAt .pllIoTime = true → s.phase = phaseCasting →
    ∃ t, exec .pllIoTimeLocked s = .next t ∧ t.fld fld_PLL_STATUS_LOCK = Nat.lor (s.fld fld_PLL_STATUS_LOCK) 0xC ∧ t.time.running = true ∧
      t.time.now = 0 ∧ t.flag fld_TIME_STATUS_STEP_ARMED = true ∧ t.cast.step = .flashMode ∧
      RegsBut [fld_PLL_STATUS_LOCK, fld_TIME_STATUS_STEP_ARMED] s t ∧
      t.time.ticks = 0 ∧
      t = { s with regs := t.regs, cast := { s.cast with step := .flashMode },
                   time := { s.time with running := true, ticks := 0, now := 0, eras := t.time.eras } }) ∧
  (∀ (density : Nat) (s : State), s.castAt .flashMode = true →
    exec (.flashModeReady density true) s = .next { s with cast := { s.cast with flashDensity := density, step := .headers } }) ∧
  (∀ (density : Nat) (s : State), s.castAt .flashMode = true →
    ∃ t, exec (.flashModeReady density false) s = .next t ∧ t.phase = phaseFailed ∧ t.cast.step = .stopped ∧ t.links.ospiDriven = false ∧
      t.fld fld_CASTON_STATUS_RESULT_A = 0xE ∧ t.fld fld_CASTON_STATUS_RESULT_B = 0xE ∧
      RegsBut [fld_CASTON_STATUS_RESULT_A, fld_CASTON_STATUS_RESULT_B, fld_SEC_STATE_PHASE, fld_CASTON_TIME_US] s t) ∧
  (∀ s : State, (s.castAt .flashMode = true ∨ s.castAt .headers = true) →
    ∃ t, exec .flashCommandTimeout s = .next t ∧ t.phase = phaseFailed ∧ t.cast.step = .stopped ∧ t.links.ospiDriven = false ∧
      t.fld fld_CASTON_STATUS_RESULT_A = 0xE ∧ t.fld fld_CASTON_STATUS_RESULT_B = 0xE ∧
      RegsBut [fld_CASTON_STATUS_RESULT_A, fld_CASTON_STATUS_RESULT_B, fld_SEC_STATE_PHASE, fld_CASTON_TIME_US] s t) ∧
  (∀ s : State, s.castAt .pllIoTime = true → s.phase ≠ phaseCasting →
    ∃ t, exec .pllIoTimeLocked s = .next t ∧ t.fld fld_PLL_STATUS_LOCK = Nat.lor (s.fld fld_PLL_STATUS_LOCK) 0xC ∧ t.time.running = true ∧
      t.time.now = 0 ∧ t.time.ticks = 0 ∧ t.flag fld_TIME_STATUS_STEP_ARMED = true ∧ t.cast.step = .stopped ∧
      RegsBut [fld_PLL_STATUS_LOCK, fld_TIME_STATUS_STEP_ARMED] s t)

/-- R102, R103: the two commands of the header stage. -/
def Obligations.SlotsTriedInOrder : Prop :=
  (∀ (a b : List Byte) (s : State), s.castAt .headers = true → plausible a = true → plausible b = true →
    ∃ t, exec (.slotHeadersRead a b true) s = .next t ∧ t.cast.step = .signature ∧
      t.cast.slot = some (decide (field a 0x0C 4 < field b 0x0C 4)) ∧ t.cast.headA = a ∧ t.cast.headB = b ∧
      t.flag fld_CASTON_STATUS_PLAUSIBLE_A = true ∧ t.flag fld_CASTON_STATUS_PLAUSIBLE_B = true ∧
      t.flag fld_CASTON_STATUS_FIRST = decide (field a 0x0C 4 < field b 0x0C 4) ∧
      RegsBut [fld_CASTON_STATUS_PLAUSIBLE_A, fld_CASTON_STATUS_PLAUSIBLE_B, fld_CASTON_STATUS_FIRST] s t ∧ t = { s with regs := t.regs, cast := t.cast }) ∧
  (∀ (a b : List Byte) (s : State), s.castAt .headers = true → plausible a ≠ plausible b →
    ∃ t, exec (.slotHeadersRead a b true) s = .next t ∧ t.cast.step = .signature ∧ t.cast.slot = some (plausible b) ∧
      t.fld (resultField (plausible a)) = castNoHeader) ∧
  (∀ (a b : List Byte) (s : State), s.castAt .headers = true → plausible a = false → plausible b = false →
    ∃ t, exec (.slotHeadersRead a b true) s = .next t ∧ t.phase = phaseFailed ∧ t.fld fld_CASTON_STATUS_RESULT_A = castNoHeader ∧
      t.fld fld_CASTON_STATUS_RESULT_B = castNoHeader) ∧
  (∀ (block : List Byte) (b : Bool) (s : State), s.castAt .signature = true → s.cast.slot = some b →
    ∃ t, exec (.signatureVerified block true) s = .next t ∧
      (match s.headerFailure (if b then s.cast.headB else s.cast.headA) block (s.slotSize b) with
       | none => t = { s with cast := { s.cast with step := .sections, skein := some (readSkein (if b then s.cast.headB else s.cast.headA)), nextSection := 0 } }
       | some g => t.fld (resultField b) = g.code % 2 ^ (resultField b).width)) ∧
  (∀ (block : List Byte) (b : Bool) (f : SlotFailure) (s : State), s.castAt .signature = true → s.cast.slot = some b →
    s.headerFailure (if b then s.cast.headB else s.cast.headA) block (s.slotSize b) = some f →
    (if b then s.flag fld_CASTON_STATUS_PLAUSIBLE_A && !s.cast.triedA else s.flag fld_CASTON_STATUS_PLAUSIBLE_B && !s.cast.triedB) = true →
    ∃ t, exec (.signatureVerified block true) s = .next t ∧ t.fld (resultField b) = f.code % 2 ^ (resultField b).width ∧ t.cast.step = .signature ∧
      t.cast.slot = some (!b) ∧ t.cast.skein = none) ∧
  (∀ (block : List Byte) (b : Bool) (f : SlotFailure) (s : State), s.castAt .signature = true → s.cast.slot = some b →
    s.headerFailure (if b then s.cast.headB else s.cast.headA) block (s.slotSize b) = some f →
    (if b then s.flag fld_CASTON_STATUS_PLAUSIBLE_A && !s.cast.triedA else s.flag fld_CASTON_STATUS_PLAUSIBLE_B && !s.cast.triedB) = false →
    ∃ t, exec (.signatureVerified block true) s = .next t ∧ t.fld (resultField b) = f.code % 2 ^ (resultField b).width ∧ t.phase = phaseFailed ∧
      t.cast.step = .stopped) ∧
  (∀ (block : List Byte) (b : Bool) (s : State), s.castAt .signature = true → s.cast.slot = some b →
    ∃ t, exec (.signatureVerified block false) s = .next t ∧ t.fld (resultField b) = castFlashIo ∧ t.cast.skein = none) ∧
  (∀ (a b : List Byte) (s : State), s.castAt .headers = true →
    ∃ t, exec (.slotHeadersRead a b false) s = .next t ∧ t.phase = phaseFailed ∧ t.cast.step = .stopped ∧
      t.fld fld_CASTON_STATUS_RESULT_A = castFlashIo ∧ t.fld fld_CASTON_STATUS_RESULT_B = castFlashIo ∧
      RegsBut [fld_CASTON_STATUS_RESULT_A, fld_CASTON_STATUS_RESULT_B, fld_SEC_STATE_PHASE, fld_CASTON_TIME_US] s t)

/-- R103, R110, R112: sections, PLL_ARITH, training and lock. -/
def Obligations.CastOnStagesAndLocks : Prop :=
  (∀ (bytes : List Byte) (e : Section) (k : Skein) (s : State), s.castAt .sections = true → s.cast.skein = some k →
    k.sections[s.cast.nextSection]? = some e → e.type = 3 → sha512 (slice bytes 0 e.length) = e.digest →
    badGrant [] 0 (grantEntries ((slice bytes 0 e.length).length / 16) (slice bytes 0 e.length)) = none →
    ∃ t, exec (.sectionRead bytes true) s = .next t ∧
      t.cast.grants = grantEntries ((slice bytes 0 e.length).length / 16) (slice bytes 0 e.length) ∧ t.cast.nextSection = s.cast.nextSection + 1 ∧
      t.cast.step = (if k.sections.length ≤ s.cast.nextSection + 1 then .applied else .sections) ∧ t = { s with cast := t.cast }) ∧
  (∀ (bytes : List Byte) (e : Section) (b : Bool) (s : State), s.castAt .sections = true → s.cast.slot = some b → s.nextSectionEntry = some e →
    ((e.type = 5 ∨ e.type = 6) → s.cast.trained = true) → sha512 (slice bytes 0 e.length) ≠ e.digest →
    ∃ t, exec (.sectionRead bytes true) s = .next t ∧ t.fld (resultField b) = castSectionDigest ∧ t.cast.writes = [] ∧ t.cast.grants = [] ∧
      t.sram = [] ∧ t.flag fld_CASTON_DETAIL_VALID = true ∧ t.flag fld_CASTON_DETAIL_SLOT = b) ∧
  (∀ s : State, (s.castAt .sections = true ∨ s.castAt .applied = true) → s.cast.regsChecked = true → s.cast.arithLocked = false →
    ∃ t, exec .pllArithLocked s = .next t ∧ t.fld fld_PLL_STATUS_LOCK = Nat.lor (s.fld fld_PLL_STATUS_LOCK) 2 ∧ t.cast.arithLocked = true ∧
      RegsBut [fld_PLL_STATUS_LOCK] s t ∧ t = { s with regs := t.regs, cast := { s.cast with arithLocked := true } }) ∧
  (∀ s : State, (s.castAt .sections = true ∨ s.castAt .applied = true) → s.cast.training = true → s.applyStaged.memCfgOk = true →
    ∃ t, exec (.memTrainingDone true) s = .next t ∧ t.flag fld_MEM_STATUS_TRAINED = true ∧ t.cast.trained = true ∧ t.cast.training = false ∧
      RegsBut [fld_MEM_STATUS_TRAINED] s t ∧ t = { s with regs := t.regs, cast := { s.cast with training := false, trained := true } }) ∧
  (∀ (us : Nat) (b : Bool) (k : Skein) (s : State), s.cast.slot = some b → s.cast.skein = some k → s.castAt .applied = true →
    s.cast.arithLocked = true → s.cast.trained = true →
    ∃ t, exec (.castOnLock us) s = .next t ∧ t.pins.devReady = true ∧ t.pins.coldState = false ∧ t.sw.inReset = 0) ∧
  (∀ (bytes : List Byte) (e : Section) (b : Bool) (s : State), s.castAt .sections = true → s.cast.slot = some b → s.nextSectionEntry = some e →
    ((e.type = 5 ∨ e.type = 6) → s.cast.trained = true) →
    ∃ t, exec (.sectionRead bytes false) s = .next t ∧ t.fld (resultField b) = castFlashIo ∧ t.cast.writes = [] ∧ t.cast.grants = [] ∧ t.sram = []) ∧
  (∀ (bytes : List Byte) (ok : Bool) (e : Section) (s : State), s.castAt .sections = true → s.nextSectionEntry = some e → (e.type = 5 ∨ e.type = 6) →
    s.cast.trained = false → exec (.sectionRead bytes ok) s = .next s) ∧
  (∀ (bytes : List Byte) (e : Section) (k : Skein) (s : State), s.castAt .sections = true → s.cast.skein = some k →
    k.sections[s.cast.nextSection]? = some e → e.type = 1 → sha512 (slice bytes 0 e.length) = e.digest →
    s.badWrite true s.cast.writes 0 (writeEntries ((slice bytes 0 e.length).length / 12) (slice bytes 0 e.length)) = none →
    ∃ t, exec (.sectionRead bytes true) s = .next t ∧ t.inReset 15 = false ∧ (∀ n, n < 48 → n ≠ 15 → t.inReset n = s.inReset n) ∧ t.cast.training = true ∧
      t.cast.writes = s.cast.writes ++ writeEntries ((slice bytes 0 e.length).length / 12) (slice bytes 0 e.length) ∧
      t.cast.nextSection = s.cast.nextSection + 1 ∧
      t.cast.step = (if k.sections.length ≤ s.cast.nextSection + 1 then .applied else .sections) ∧ t = { s with cast := t.cast, sw := t.sw }) ∧
  (∀ (bytes : List Byte) (e : Section) (k : Skein) (s : State), s.castAt .sections = true → s.cast.skein = some k →
    k.sections[s.cast.nextSection]? = some e → e.type = 2 → sha512 (slice bytes 0 e.length) = e.digest →
    s.badWrite false s.cast.writes 0 (writeEntries ((slice bytes 0 e.length).length / 12) (slice bytes 0 e.length)) = none →
    { s with cast := { s.cast with writes := s.cast.writes ++ writeEntries ((slice bytes 0 e.length).length / 12) (slice bytes 0 e.length) } }.pairedShort = false →
    ∃ t, exec (.sectionRead bytes true) s = .next t ∧ t.cast.regsChecked = true ∧
      t.cast.writes = s.cast.writes ++ writeEntries ((slice bytes 0 e.length).length / 12) (slice bytes 0 e.length) ∧
      t.cast.nextSection = s.cast.nextSection + 1 ∧
      t.cast.step = (if k.sections.length ≤ s.cast.nextSection + 1 then .applied else .sections) ∧ t = { s with cast := t.cast }) ∧
  (∀ (bytes : List Byte) (e : Section) (k : Skein) (s : State), s.castAt .sections = true → s.cast.skein = some k →
    k.sections[s.cast.nextSection]? = some e → 6 < e.type → sha512 (slice bytes 0 e.length) = e.digest →
    ∃ t, exec (.sectionRead bytes true) s = .next t ∧ t.cast.nextSection = s.cast.nextSection + 1 ∧
      t.cast.step = (if k.sections.length ≤ s.cast.nextSection + 1 then .applied else .sections) ∧ t = { s with cast := t.cast }) ∧
  (∀ (ok : Bool) (b : Bool) (s : State), (s.castAt .sections = true ∨ s.castAt .applied = true) → s.cast.slot = some b → s.cast.training = true →
    (ok && s.applyStaged.memCfgOk) = false →
    ∃ t, exec (.memTrainingDone ok) s = .next t ∧ t.fld (resultField b) = castMemTrain ∧ t.cast.training = false ∧ t.cast.trained = false ∧
      t.inReset 15 = true)

/-- R518, R533, R534, R535, R543: the warm resets. The fault log's survival is the model's reading (log entry 50). -/
def Obligations.WarmResetKeepsStickyFields : Prop :=
  (∀ (ns : Nat) (s : State), s.Canonical → s.resets.active = none → 1000 ≤ ns →
    ∃ t, exec (.resetN ns) s = .next t ∧ WarmBegun 2 0 s t ∧ t.phase = phaseFuseSense) ∧
  (∀ (ns : Nat) (s : State), ns < 1000 → exec (.resetN ns) s = .next s) ∧
  (∀ (data d : Word) (s : State), s.Canonical → s.writeTaken reg_RST_CTRL data = some d → d.getLsbD 0 = true →
    s.resets.active = none → ∃ t, exec (.rstCtrlWarm data) s = .next t ∧ WarmBegun 8 0 s t) ∧
  (∀ (s : State), s.Canonical → s.resets.active = none → s.power.hibernating = false →
    s.power.poweringUp = false → ∃ t, exec .thermalTrip s = .next t ∧ WarmBegun 7 0 s t) ∧
  (∀ (s : State), s.resets.active = some .warm → s.resets.refclkAbsent = false → s.resets.cause < 16 → s.resets.cause ≠ 5 →
    ∃ t, exec .warmResetEnd s = .next t ∧ t.resets.active = none ∧ t.fld fld_RST_CAUSE_LAST = s.resets.cause ∧
      t.fld fld_RST_CAUSE_WARM_COUNT = min (2 ^ fld_RST_CAUSE_WARM_COUNT.width - 1) (s.fld fld_RST_CAUSE_WARM_COUNT + 1) ∧
      t.sw = Swatches.reset ∧ RegsBut [fld_RST_CAUSE_LAST, fld_RST_CAUSE_WARM_COUNT] s t ∧
      t = { s with regs := t.regs, sw := Swatches.reset, links := { s.links with ospiDriven := true }, resets := { s.resets with active := none } }) ∧
  (∀ (s : State), s.resets.active = some .warm → s.resets.refclkAbsent = false → s.resets.cause = 5 →
    ∃ t, exec .warmResetEnd s = .next t ∧ t.resets.active = none ∧ t.fld fld_RST_CAUSE_LAST = 5 ∧ t.fld fld_RST_CAUSE_PLL = s.resets.pll % 4 ∧
      t.fld fld_RST_CAUSE_WARM_COUNT = min (2 ^ fld_RST_CAUSE_WARM_COUNT.width - 1) (s.fld fld_RST_CAUSE_WARM_COUNT + 1) ∧
      RegsBut [fld_RST_CAUSE_LAST, fld_RST_CAUSE_PLL, fld_RST_CAUSE_WARM_COUNT] s t ∧
      t = { s with regs := t.regs, sw := Swatches.reset, links := { s.links with ospiDriven := true }, resets := { s.resets with active := none } }) ∧
  (∀ (ns : Nat) (s : State), 1000 ≤ ns → s.resets.active = some .warm →
    exec (.resetN ns) s = .next { s with resets := { s.resets with cause := 2, pll := 0 } }) ∧
  (∀ (ns : Nat) (s : State), 1000 ≤ ns → s.resets.active = some .cold → exec (.resetN ns) s = .next s) ∧
  (∀ (s : State), s.resets.active = some .warm → s.power.hibernating = false → s.power.poweringUp = false →
    exec .thermalTrip s = .next { s with resets := { s.resets with cause := 7, pll := 0 } }) ∧
  (∀ (s : State), (s.resets.active = some .cold ∨ s.power.hibernating = true ∨ s.power.poweringUp = true) → exec .thermalTrip s = .next s) ∧
  (∀ (data : Word) (s : State), (∀ d, s.writeTaken reg_RST_CTRL data = some d → d.getLsbD 0 = false) → exec (.rstCtrlWarm data) s = .next s)

/-- R534, R535, R584, R585, R587, R594: the cold resets, and REFCLK. -/
def Obligations.ColdResetWaitsForSupplies : Prop :=
  (∀ (s : State), s.Canonical → ∃ t, exec .powerOn s = .next t ∧ ColdBegun 0 s t ∧ Rail.vdd1v8 ∉ t.resets.badRails) ∧
  (∀ (r : Rail) (s : State), s.Canonical → r ≠ .vdd1v8 → Rail.vdd1v8 ∉ s.resets.badRails →
    ∃ t, exec (.supplyReset r) s = .next t ∧ ColdBegun 1 s t ∧ r ∈ t.resets.badRails ∧ (∀ q, q ≠ r → (q ∈ t.resets.badRails ↔ q ∈ s.resets.badRails))) ∧
  (∀ (s : State), s.Canonical → ∃ t, exec (.supplyReset .vdd1v8) s = .next t ∧ ColdBegun 0 s t ∧ Rail.vdd1v8 ∈ t.resets.badRails) ∧
  (∀ (r : Rail) (s : State), ∃ t, exec (.supplyGood r) s = .next t ∧ r ∉ t.resets.badRails ∧ (∀ q, q ≠ r → (q ∈ t.resets.badRails ↔ q ∈ s.resets.badRails)) ∧
    t = { s with resets := { s.resets with badRails := t.resets.badRails } }) ∧
  (∀ (high : Bool) (s : State), s.Canonical → s.resets.testEn ≠ high →
    ∃ t, exec (.testEnChange high) s = .next t ∧ ColdBegun 0 s t ∧ t.resets.testEn = high ∧ t.alive = false) ∧
  (∀ (ms : Nat) (s : State), s.resets.active = some .cold → s.resets.badRails = [] → s.resets.refclkAbsent = false → s.resets.testEn = false →
    2 ≤ ms → s.resets.cause < 2 →
    ∃ t, exec (.coldResetEnd ms) s = .next t ∧ t.resets.active = none ∧ t.fld fld_RST_CAUSE_LAST = s.resets.cause ∧ t.sw = Swatches.reset ∧
      RegsBut [fld_RST_CAUSE_LAST] s t ∧
      t = { s with regs := t.regs, sw := Swatches.reset, links := { s.links with ospiDriven := true }, resets := { s.resets with active := none } }) ∧
  (∀ (ms : Nat) (s : State), (s.resets.badRails ≠ [] ∨ s.resets.refclkAbsent = true ∨ s.resets.testEn = true ∨ ms < 2) →
    exec (.coldResetEnd ms) s = .next s) ∧
  (∀ (s : State), s.resets.refclkAbsent = false → s.alive = true → s.resets.due = none →
    ∃ t, exec .refclkAbsent s = .next t ∧ t.resets.refclkAbsent = true ∧ t.resets.due = some (5, 0, s.stamp + usStamp 10) ∧
      t.fld fld_PLL_STATUS_LOCK = 0) ∧
  (∀ (s : State), exec .refclkResume s = .next { s with resets := { s.resets with refclkAbsent := false } }) ∧
  (∀ (r : Rail) (s : State), s.Canonical → r ≠ .vdd1v8 → Rail.vdd1v8 ∈ s.resets.badRails →
    ∃ t, exec (.supplyReset r) s = .next t ∧ ColdBegun 0 s t ∧ r ∈ t.resets.badRails) ∧
  (∀ (s : State), s.resets.refclkAbsent = false → s.alive = false →
    exec .refclkAbsent s = .next { s with resets := { s.resets with refclkAbsent := true } }) ∧
  (∀ (s : State), s.resets.refclkAbsent = true → exec .refclkAbsent s = .next s) ∧
  (∀ (high : Bool) (s : State), s.resets.testEn = high → exec (.testEnChange high) s = .next s)

/-- R594: the test logic. -/
def Obligations.BoundaryScanDrivesPins : Prop :=
  (∀ (p : Nat) (s : State), s.resets.trstLow = false → s.resets.testEn = true →
    exec (.extest p) s = .next { s with resets := { s.resets with tapInstruction := 0, boundary := p, scanDrives := some p, scanHighZ := false } }) ∧
  (∀ (p : Nat) (s : State), s.resets.trstLow = false →
    exec (.samplePreload p) s = .next { s with resets := { s.resets with tapInstruction := 1, boundary := p, scanDrives := none, scanHighZ := false } }) ∧
  (∀ (s : State), s.resets.trstLow = false →
    exec .clamp s = .next { s with resets := { s.resets with tapInstruction := 2, scanDrives := if s.resets.testEn then some s.resets.boundary else none, scanHighZ := false } }) ∧
  (∀ (s : State), s.resets.trstLow = false →
    exec .highz s = .next { s with resets := { s.resets with tapInstruction := 3, scanDrives := none, scanHighZ := s.resets.testEn } }) ∧
  (∀ (code : BitVec 4) (s : State), s.resets.trstLow = false → 4 ≤ code.toNat →
    exec (.bypass code) s = .next { s with resets := { s.resets with tapInstruction := 0xF, scanDrives := none, scanHighZ := false } }) ∧
  (∀ (s : State), exec (.trstN false) s = .next { s with resets := { s.resets with trstLow := true, tapInstruction := 0xF, scanDrives := none, scanHighZ := false } }) ∧
  (∀ (s : State), exec (.trstN true) s = .next { s with resets := { s.resets with trstLow := false } }) ∧
  (∀ (p : Nat) (s : State), s.resets.trstLow = false → s.resets.testEn = false →
    exec (.extest p) s = .next { s with resets := { s.resets with tapInstruction := 0, scanDrives := none, scanHighZ := false } }) ∧
  (∀ (code : BitVec 4) (s : State), s.resets.trstLow = false → s.resets.testEn = false → code.toNat < 4 → code.toNat ≠ 1 →
    exec (.bypass code) s = .next { s with resets := { s.resets with tapInstruction := code.toNat, scanDrives := none, scanHighZ := false } }) ∧
  (∀ (p : Nat) (code : BitVec 4) (s : State), s.resets.trstLow = true →
    exec (.extest p) s = .next s ∧ exec (.samplePreload p) s = .next s ∧ exec .clamp s = .next s ∧ exec .highz s = .next s ∧
      exec (.bypass code) s = .next s)

/-- R81, R82, R87, R89, R120, R409: the sequence of Table 2.6. -/
def Obligations.SwatchResetRunsItsSequence : Prop :=
  (∀ (data d : Word) (s : State), s.writeTaken reg_SW_RESET data = some d → d.toNat % 64 < 48 → groupOf (d.toNat % 64) ≠ 0 →
    s.flag fld_SYS_LOCK_LOCKED = true →
    exec (.swReset data) s = .next { s with sw := { s.sw with requests := s.sw.requests ++ [(d.toNat % 64, 0)] } }) ∧
  (∀ (n : Fin 48) (c : Fin 4) (s : State), s.alive = true → s.sw.requests.contains (n.val, c.val) = true → s.flag fld_SYS_LOCK_LOCKED = true →
    groupOf n ≠ 0 → groupOf n ≠ 8 → s.inReset n = false →
    ∃ u t, exec (.swatchResetRequest n c) s = .next t ∧ t = u.enterReset (groupOf n) ∧ t.groupPhase (groupOf n) = .clearing ∧
      (∀ m, m < 48 → (t.inReset m = true ↔ s.inReset m = true ∨ groupOf m = groupOf n)) ∧
      (∀ k, (groupMembers (groupOf n)).contains (k / 2 ^ 64) = true → Store.get 0 t.sram k = 0) ∧
      (∀ k, (groupMembers (groupOf n)).contains (crossingEnd k) = true → Store.get 0 t.sw.crossing k = 0) ∧ t.pins = s.pins ∧
      u.fld fld_SW_RESET_LAST_SWATCH = n.val ∧ u.fld fld_SW_RESET_LAST_CAUSE = c.val ∧
      u.fld fld_SW_RESET_LAST_COUNT = min 0xFFFF (s.fld fld_SW_RESET_LAST_COUNT + 1) ∧
      RegsBut [fld_SW_RESET_LAST_SWATCH, fld_SW_RESET_LAST_CAUSE, fld_SW_RESET_LAST_COUNT] s u ∧
      u = { s with regs := u.regs, sw := { s.sw with requests := dropFirst (· == (n.val, c.val)) s.sw.requests } }) ∧
  (∀ (n : Fin 48) (c : Fin 4) (s : State), s.alive = true → s.sw.requests.contains (n.val, c.val) = true →
    (groupOf n = 0 ∨ s.flag fld_SYS_LOCK_LOCKED = false ∨ s.inReset n = true) →
    exec (.swatchResetRequest n c) s = .next { s with sw := { s.sw with requests := dropFirst (· == (n.val, c.val)) s.sw.requests } }) ∧
  (∀ (g : Fin 44) (s : State), s.Canonical → Store.wf 0 s.cast.castRegs = true → s.alive = true → s.groupPhase g = .clearing →
    ∃ t, exec (.swatchSramCleared g) s = .next t ∧ t.groupPhase g = .cleared ∧
      (∀ a, (groupMembers g).contains (servedBy a) = false → t.rawReg a = s.rawReg a) ∧
      (∀ a, (groupMembers g).contains (servedBy a) = true →
        Store.get 0 t.regs a = (Store.get 0 s.regs a &&& groupMask a) ||| Store.get 0 s.cast.castRegs a) ∧
      (∀ a, Store.get 0 t.shadow a = if (groupMembers g).contains (servedBy a) then 0 else Store.get 0 s.shadow a) ∧
      t = { s with regs := t.regs, shadow := t.shadow, sw := { s.sw with phase := t.sw.phase } }) ∧
  (∀ (g : Fin 44) (s : State), s.alive = true → s.groupPhase g = .cleared → s.hasKept g = true →
    ∃ t, exec (.swatchResetRelease g) s = .next t ∧ t.groupPhase g = .restoring ∧
      (∀ n, n < 48 → (t.inReset n = true ↔ s.inReset n = true ∧ groupOf n ≠ g.val)) ∧ t.pins = s.pins) ∧
  (∀ (g : Fin 44) (s : State), s.alive = true → s.groupPhase g = .restoring → s.hasKept g = true → g.val ≠ 6 → g.val ≠ 7 →
    ∃ t, exec (.swatchRestoreDone g) s = .next t ∧ t.groupPhase g = .running ∧ t.sw.inReset = s.sw.inReset ∧ t.pins = s.pins) ∧
  (∀ (g : Fin 44) (s : State), s.alive = true → s.groupPhase g = .cleared → s.hasKept g = false → g.val ≠ 6 → g.val ≠ 7 →
    ∃ t, exec (.swatchResetRelease g) s = .next t ∧ t.groupPhase g = .running ∧
      (∀ n, n < 48 → (t.inReset n = true ↔ s.inReset n = true ∧ groupOf n ≠ g.val)) ∧ t.pins = s.pins) ∧
  (∀ (g : Fin 44) (s : State), s.alive = true → s.groupPhase g = .restoring → s.hasKept g = true → (g.val = 6 ∨ g.val = 7) →
    ∃ t, exec (.swatchRestoreDone g) s = .next t ∧
      t.groupPhase g = (if (List.range 8).any (((s.restoreData (groupMembers g)).unjudged (g.val - 6))) then .restoring else .running) ∧
      t.sw.inReset = s.sw.inReset ∧ t.pins = s.pins) ∧
  (∀ (n : Fin 48) (c : Fin 4) (s : State), s.Canonical → s.alive = true → s.sw.requests.contains (n.val, c.val) = true →
    s.flag fld_SYS_LOCK_LOCKED = true → groupOf n = 8 → s.inReset n = false →
    ∃ u t, exec (.swatchResetRequest n c) s = .next t ∧ WarmBegun 6 0 u t ∧
      u.fld fld_SW_RESET_LAST_SWATCH = n.val ∧ u.fld fld_SW_RESET_LAST_CAUSE = c.val ∧
      u.fld fld_SW_RESET_LAST_COUNT = min 0xFFFF (s.fld fld_SW_RESET_LAST_COUNT + 1) ∧
      RegsBut [fld_SW_RESET_LAST_SWATCH, fld_SW_RESET_LAST_CAUSE, fld_SW_RESET_LAST_COUNT] s u ∧
      u = { s with regs := u.regs, sw := { s.sw with requests := dropFirst (· == (n.val, c.val)) s.sw.requests } }) ∧
  (∀ (data d : Word) (s : State), s.writeTaken reg_SW_RESET data = some d →
    (48 ≤ d.toNat % 64 ∨ groupOf (d.toNat % 64) = 0 ∨ s.flag fld_SYS_LOCK_LOCKED = false) → exec (.swReset data) s = .next s)

/-- R63, R68, R70, R74, R75, R80, R90, R91, R151, R327: PLLs and crossings. -/
def Obligations.ClocksAndCrossings : Prop :=
  (∀ (p : Fin 4) (s : State), s.alive = true → bit (s.fld fld_PLL_STATUS_LOCK) p = true →
    ∃ t, exec (.pllUnlock p) s = .next t ∧ t.fld fld_PLL_STATUS_LOCK = s.fld fld_PLL_STATUS_LOCK - 2 ^ p.val ∧
      bit (t.fld fld_PLL_STATUS_UNLOCK_SEEN) p = true ∧ t.integ.flits = s.integ.flits ++ [.report ⟨1, 0, BitVec.ofNat 32 p, s.stamp⟩] ∧
      (p.val = 3 → t.flag fld_TIME_STATUS_CLOCK_FAULT = true ∧ t.resets.due = s.resets.due ∧
        (s.servo = servoLocked ∨ s.servo = servoStepped → t.servo = servoHoldover) ∧ (s.servo ≠ servoLocked → s.servo ≠ servoStepped → t.servo = s.servo)) ∧
      (p.val ≠ 3 → s.resets.due = none → t.resets.due = some (5, p.val, s.stamp + usStamp 10)) ∧
      (∀ q x, p.val ≠ 3 → s.resets.due = some (5, q, x) → t.resets.due = some (5, min q p, x)) ∧ t.pins = s.pins ∧ t.sw = s.sw ∧ t.sram = s.sram ∧ t.mem = s.mem) ∧
  (∀ (s : State), s.alive = true → s.time.running = true →
    ∃ t, exec .pllTimeRelock s = .next t ∧ t.flag fld_TIME_STATUS_CLOCK_FAULT = false ∧
      t.fld fld_PLL_STATUS_LOCK = Nat.lor (s.fld fld_PLL_STATUS_LOCK) 8 ∧ OnlyFields [fld_TIME_STATUS_CLOCK_FAULT, fld_PLL_STATUS_LOCK] s t) ∧
  (∀ (c : Fin 70) (d : Nat) (s : State), s.alive = true → s.inReset (crossingEnd c) = false → Store.get 0 s.sw.crossing c - d < 3 →
    ∃ t, exec (.eventCrossingPulse c d) s = .next t ∧ Store.get 0 t.sw.crossing c = Store.get 0 s.sw.crossing c - d + 1 ∧
      (∀ k, k ≠ c.val → Store.get 0 t.sw.crossing k = Store.get 0 s.sw.crossing k) ∧ t = { s with sw := { s.sw with crossing := t.sw.crossing } }) ∧
  (∀ (c : Fin 70) (d : Nat) (s : State), s.alive = true → s.inReset (crossingEnd c) = false → 3 ≤ Store.get 0 s.sw.crossing c - d →
    ∃ t, exec (.eventCrossingPulse c d) s = .next t ∧ Store.get 0 t.sw.crossing c = Store.get 0 s.sw.crossing c - d ∧
      bit (t.fld (if c.val < 32 then fld_XING_OVR_0_OVR else if c.val < 64 then fld_XING_OVR_1_OVR else fld_XING_OVR_2_OVR)) (c % 32) = true ∧
      t.integ.flits = s.integ.flits ++ [.report ⟨2, crossingEnd c, BitVec.ofNat 32 c, s.stamp⟩]) ∧
  (∀ (c : Fin 70) (d : Nat) (s : State), s.inReset (crossingEnd c) = true → exec (.eventCrossingPulse c d) s = .next s) ∧
  (∀ (m : CrossingMessage) (s : State), m.lane ≠ 0 → m.flits ≤ m.arrived → s.swatchRuns m.destination = true → m.halves = [] →
    (∀ x, x ∈ s.sw.waiting → x.destination ≠ m.destination) →
    ∃ t, exec (.dataCrossingMessage m) s = .next t ∧ t.sw.delivered = ⟨m.destination, m.source, m.number, []⟩ :: s.sw.delivered ∧
      t.sw.waiting = s.sw.waiting ∧
      (m.answers = none → t.sw.requested = s.sw.requested ++ (if m.expectsResponse then [⟨m.destination, m.source, m.number, []⟩] else [])) ∧
      t = { s with sw := { s.sw with delivered := t.sw.delivered, waiting := t.sw.waiting, requested := t.sw.requested, turn := t.sw.turn } }) ∧
  (∀ (m : CrossingMessage) (s : State), s.alive = true → m.lane ≠ 0 → m.flits ≤ m.arrived → s.inReset m.destination = true →
    exec (.dataCrossingMessage m) s =
      .next { s with sw := { s.sw with partnerReset := s.sw.partnerReset ++ [⟨m.destination, m.source, m.number, m.expectsResponse⟩] } }) ∧
  (∀ (m : CrossingMessage) (l : Fin 64) (w : Nat) (s : State), m.lane = 0 → m.links = [(l, w)] → m.flits ≤ m.arrived → s.swatchRuns m.destination = true →
    m.halves = [] → (∀ x, x ∈ s.sw.waiting → x.destination ≠ m.destination) →
    ∃ t, exec (.dataCrossingMessage m) s = .next t ∧ t.sw.delivered = ⟨m.destination, m.source, m.number, []⟩ :: s.sw.delivered ∧
      t.fld (fld_LINK_A_FLITS_FLITS l) = (s.fld (fld_LINK_A_FLITS_FLITS l) + m.flits) % 2 ^ 32 ∧
      t.fld (fld_LINK_A_WAIT_WAIT_MAX l) = min 0xFFFF (max (s.fld (fld_LINK_A_WAIT_WAIT_MAX l)) w) ∧
      RegsBut [fld_LINK_A_FLITS_FLITS l, fld_LINK_A_WAIT_WAIT_MAX l] s t) ∧
  (∀ (m : CrossingMessage) (s : State), s.alive = true → m.lane ≠ 0 → m.arrived < m.flits → exec (.dataCrossingMessage m) s = .next s) ∧
  (∀ (m : CrossingMessage) (s : State), s.alive = true → m.lane ≠ 0 → m.flits ≤ m.arrived → s.inReset m.destination = false → s.isGated m.destination = true →
    exec (.dataCrossingMessage m) s = .next { s with sw := { s.sw with waiting := s.sw.waiting ++ [m] } }) ∧
  (∀ (m : CrossingMessage) (h : Nat) (e : SymbolErrors) (s : State), m.lane ≠ 0 → m.flits ≤ m.arrived → s.swatchRuns m.destination = true →
    m.halves = [(h, e)] → selvedgeCheck e ≠ .clean → (∀ x, x ∈ s.sw.waiting → x.destination ≠ m.destination) →
    ∃ t, exec (.dataCrossingMessage m) s = .next t ∧ t.sw.delivered = ⟨m.destination, m.source, m.number, [h]⟩ :: s.sw.delivered ∧
      t.fld (fld_SELV_UE_UE mediumFabric) = min 0xFFFF (s.fld (fld_SELV_UE_UE mediumFabric) + 1) ∧ t.fld fld_SELV_LAST_MEDIUM = mediumFabric ∧
      t.fld fld_SELV_LAST_SWATCH = m.destination ∧ t.fld fld_SELV_LAST_COUNT = min 0xFFFF (s.fld fld_SELV_LAST_COUNT + 1)) ∧
  (∀ (m : CrossingMessage) (k : Nat) (s : State), m.lane ≠ 0 → m.flits ≤ m.arrived → s.swatchRuns m.destination = true → m.halves = [] →
    m.answers = some k → m.expectsResponse = false → (∀ x, x ∈ s.sw.waiting → x.destination ≠ m.destination) →
    ∃ t, exec (.dataCrossingMessage m) s = .next t ∧
      t.sw.requested = s.sw.requested.filter (fun d => !(d.destination == m.source.val && d.source == m.destination.val && d.number == k)))

/-- R526, R527, R530: the four requests. -/
def Obligations.PowerRequestsBeginTransitions : Prop :=
  (∀ (data d : Word) (s : State), s.writeTaken reg_PWR_REQ data = some d → d.toNat % 4 = 1 → s.phase = phaseRunning → s.powerCode = 0 →
    s.power.transition = none →
    ∃ t, exec (.pwrReqDoze data) s = .next t ∧ t.power = { s.power with transition := some (.entry .doze), wakeTin0 := s.flag fld_PWR_WAKE_TIN0_EN, wakeFalling := s.flag fld_PWR_WAKE_TIN0_EDGE, wakeTime := s.askedWakeTime, wakeSleep := s.fld fld_PWR_WAKE_SLEEP_S } ∧
      t.pins = s.pins ∧ t.sw.inReset = s.sw.inReset) ∧
  (∀ (data d : Word) (s : State), s.writeTaken reg_PWR_REQ data = some d → d.toNat % 4 = 2 → s.phase = phaseRunning → s.powerCode = 0 →
    s.power.transition = none →
    ∃ t, exec (.pwrReqNap data) s = .next t ∧ t.power = { s.power with transition := some (.entry .nap), wakeTin0 := s.flag fld_PWR_WAKE_TIN0_EN, wakeFalling := s.flag fld_PWR_WAKE_TIN0_EDGE, wakeTime := s.askedWakeTime, wakeSleep := s.fld fld_PWR_WAKE_SLEEP_S } ∧
      t.pins = s.pins ∧ t.sw.inReset = s.sw.inReset) ∧
  (∀ (data d : Word) (s : State), s.writeTaken reg_PWR_REQ data = some d → d.toNat % 4 = 0 → s.phase = phaseRunning → 1 ≤ s.powerCode →
    s.power.transition = none →
    ∃ t, exec (.pwrReqRun data) s = .next t ∧ t.power.transition = some (.wake .run) ∧ t.flag fld_PWR_STATUS_CHANGING = true ∧
      RegsBut [fld_PWR_STATUS_CHANGING] s t ∧ t = { s with regs := t.regs, power := { s.power with transition := some (.wake .run), heldWake := none } }) ∧
  (∀ (data d : Word) (s : State), s.writeTaken reg_PWR_REQ data = some d → d.toNat % 4 = 3 → s.phase = phaseBound → s.power.transition = none →
    ∃ t, exec (.pwrReqHibernate data) s = .next t ∧ t.power.transition = some (.entry .hibernate) ∧ t.flag fld_PWR_STATUS_CHANGING = true ∧
      RegsBut [fld_PWR_STATUS_CHANGING] s t ∧ t = { s with regs := t.regs, power := t.power }) ∧
  (∀ (data d : Word) (s : State), s.writeTaken reg_PWR_REQ data = some d → d.toNat % 4 = 3 → s.phase = phaseRunning → s.power.transition = none →
    ∃ t, exec (.pwrReqHibernate data) s = .next t ∧ t.power.transition = some (.entry .hibernate) ∧ t.power.hibernateNext = true ∧ t.pins.devReady = false) ∧
  (∀ (data : Word) (w : PowerState) (s : State), s.power.transition = some (.wake w) → exec (.pwrReqDoze data) s = .next s ∧ exec (.pwrReqRun data) s = .next s ∧
    exec (.pwrReqNap data) s = .next s ∧ exec (.pwrReqHibernate data) s = .next s) ∧
  (∀ (data d : Word) (s : State), s.writeTaken reg_PWR_REQ data = some d → d.toNat % 4 = 2 → s.phase = phaseRunning → s.powerCode = 1 →
    s.power.transition = none →
    ∃ t, exec (.pwrReqNap data) s = .next t ∧ t.flag fld_PWR_STATUS_CHANGING = true ∧ RegsBut [fld_PWR_STATUS_CHANGING] s t ∧
      t = { s with regs := t.regs, power := { s.power with transition := some (.entry .nap), wakeTin0 := s.flag fld_PWR_WAKE_TIN0_EN, wakeFalling := s.flag fld_PWR_WAKE_TIN0_EDGE, wakeTime := s.askedWakeTime, wakeSleep := s.fld fld_PWR_WAKE_SLEEP_S } }) ∧
  (∀ (data d : Word) (s : State), s.writeTaken reg_PWR_REQ data = some d → d.toNat % 4 = 1 → s.phase = phaseRunning → s.powerCode = 2 →
    s.power.transition = none →
    ∃ t, exec (.pwrReqDoze data) s = .next t ∧ t.flag fld_PWR_STATUS_CHANGING = true ∧ RegsBut [fld_PWR_STATUS_CHANGING] s t ∧
      t = { s with regs := t.regs, power := { s.power with transition := some (.wake .doze), heldWake := none } }) ∧
  (∀ (data d : Word) (e : PowerState) (s : State), s.writeTaken reg_PWR_REQ data = some d → s.power.transition = some (.entry e) → e ≠ .run →
    d.toNat % 4 = 0 →
    exec (.pwrReqRun data) s = .next { s with power := { s.power with heldWake := some (s.power.heldWake.getD .run) } }) ∧
  (∀ (data d : Word) (e : PowerState) (s : State), s.writeTaken reg_PWR_REQ data = some d → s.power.transition = some (.entry e) → (e = .nap ∨ e = .hibernate) →
    d.toNat % 4 = 1 →
    exec (.pwrReqDoze data) s = .next { s with power := { s.power with heldWake := some (s.power.heldWake.getD .doze) } }) ∧
  (∀ (data d : Word) (s : State), s.writeTaken reg_PWR_REQ data = some d → s.power.transition = none →
    (d.toNat % 4 = 0 → s.phase ≠ phaseRunning ∨ s.powerCode = 0 → exec (.pwrReqRun data) s = .next s) ∧
    (d.toNat % 4 = 1 → s.phase ≠ phaseRunning ∨ s.powerCode = 1 → exec (.pwrReqDoze data) s = .next s) ∧
    (d.toNat % 4 = 2 → s.phase ≠ phaseRunning ∨ s.powerCode = 2 → exec (.pwrReqNap data) s = .next s) ∧
    (d.toNat % 4 = 3 → s.phase ≠ phaseRunning → s.phase ≠ phaseBound → exec (.pwrReqHibernate data) s = .next s)) ∧
  (∀ (data : Word) (s : State), s.writeTaken reg_PWR_REQ data = none → exec (.pwrReqDoze data) s = .next s ∧ exec (.pwrReqRun data) s = .next s ∧
    exec (.pwrReqNap data) s = .next s ∧ exec (.pwrReqHibernate data) s = .next s)

/-- R527 to R531, R541, R542: entries, wakes and their events. -/
def Obligations.PowerEntriesAndWakes : Prop :=
  (∀ s : State, s.alive = true → s.powerCode = 0 → s.power.transition = some (.entry .doze) → s.power.heldWake = none → s.power.wakeTime = none →
    ∃ t, exec .dozeEntered s = .next t ∧ t.powerCode = 1 ∧ t.power.transition = none ∧ t.flag fld_PWR_STATUS_CHANGING = false ∧
      t.fld fld_PWR_STATE_COUNTS_DOZE = min (2 ^ fld_PWR_STATE_COUNTS_DOZE.width - 1) (s.fld fld_PWR_STATE_COUNTS_DOZE + 1) ∧
      RegsBut [fld_PWR_STATUS_STATE, fld_PWR_STATUS_CHANGING, fld_PWR_STATE_COUNTS_DOZE] s t ∧
      (∀ n, n < 48 → s.groupPhase (groupOf n) = .running → (16 ≤ n ∨ (9 ≤ n ∧ n ≤ 11)) → t.isGated n = true) ∧
      t = { s with regs := t.regs, sw := { s.sw with gated := t.sw.gated }, power := { s.power with transition := none, heldWake := none } }) ∧
  (∀ s : State, s.alive = true → s.powerCode = 0 → s.power.transition = some (.entry .nap) →
    ∃ t, exec .dozeEntered s = .next t ∧ t.powerCode = 1 ∧ t.power = s.power ∧ RegsBut [fld_PWR_STATUS_STATE, fld_PWR_STATE_COUNTS_DOZE] s t ∧
      t.fld fld_PWR_STATE_COUNTS_DOZE = min (2 ^ fld_PWR_STATE_COUNTS_DOZE.width - 1) (s.fld fld_PWR_STATE_COUNTS_DOZE + 1) ∧
      t = { s with regs := t.regs, sw := { s.sw with gated := t.sw.gated } }) ∧
  (∀ s : State, s.alive = true → s.powerCode = 1 → s.power.napLoopStopped = true → s.power.transition = some (.entry .nap) → s.power.heldWake = none →
    s.power.wakeTime = none →
    ∃ t, exec .napEntered s = .next t ∧ t.powerCode = 2 ∧ t.power.transition = none ∧ t.power.selfRefresh = true ∧
      t.fld fld_PWR_STATE_COUNTS_NAP = min (2 ^ fld_PWR_STATE_COUNTS_NAP.width - 1) (s.fld fld_PWR_STATE_COUNTS_NAP + 1) ∧
      RegsBut [fld_PWR_STATUS_STATE, fld_PWR_STATUS_CHANGING, fld_PWR_STATE_COUNTS_NAP] s t ∧
      t = { s with regs := t.regs, sw := { s.sw with gated := t.sw.gated }, power := { s.power with transition := none, heldWake := none, selfRefresh := true } }) ∧
  (∀ s : State, s.Canonical → s.alive = true → s.phase = phaseBound → s.power.transition = some (.entry .hibernate) →
    ∃ t, exec .hibernateEntered s = .next t ∧ t.power.hibernating = true ∧ t.power.deepPowerDown = true ∧ t.alive = false ∧
      t.power.wakeSleep = s.power.wakeSleep ∧ t.sram = [] ∧ t.sw.inReset = BitVec.allOnes 48 ∧
      t.power.poweringUp = s.power.heldWake.isSome ∧
      (∀ a, s.untouched a = true → Store.get 0 t.regs a = Store.get 0 s.regs a &&& keptMask true a) ∧ t.mem.recordBytes = s.mem.recordBytes) ∧
  (∀ (w : Stamp) (s : State), s.power.wakeTime = some w → s.alive = true → s.phase = phaseRunning → 1 ≤ s.powerCode → s.power.transition = none →
    ∃ t, exec .wakeTime s = .next t ∧ t.power.transition = some (.wake .run) ∧ t.flag fld_PWR_STATUS_CHANGING = true ∧
      RegsBut [fld_PWR_STATUS_CHANGING] s t) ∧
  (∀ (rising : Bool) (s : State), s.power.wakeTin0 = true → s.power.wakeFalling = !rising → s.alive = true → s.power.hibernating = false →
    s.phase = phaseRunning → 1 ≤ s.powerCode → s.power.transition = none →
    ∃ t, exec (.tin0Wake rising) s = .next t ∧ t.power.transition = some (.wake .run) ∧ RegsBut [fld_PWR_STATUS_CHANGING] s t) ∧
  (∀ (rising : Bool) (s : State), s.power.wakeTin0 = true → s.power.wakeFalling = !rising → s.power.hibernating = true → s.resets.active = none →
    exec (.tin0Wake rising) s = .next { s with power := { s.power with poweringUp := true } }) ∧
  (∀ (s : State), s.power.hibernating = true → s.power.wakeSleep ≠ 0 → s.resets.refclkAbsent = false → s.resets.active = none →
    exec .sleepTimer s = .next { s with power := { s.power with poweringUp := true } }) ∧
  (∀ (w : PowerState) (s : State), s.alive = true → s.power.transition = some (.wake w) →
    ∃ u t, exec .wakeDone s = .next t ∧ t.power.transition = none ∧ t.power.napLoopStopped = false ∧ t.power.selfRefresh = false ∧ t.pins = s.pins ∧
      u.powerCode = w.depth ∧ u.flag fld_PWR_STATUS_CHANGING = false ∧ RegsBut [fld_PWR_STATUS_STATE, fld_PWR_STATUS_CHANGING] s u ∧
      u = { s with regs := u.regs, loop := u.loop, power := { s.power with transition := none, napLoopStopped := false, selfRefresh := false } } ∧
      t = ((if s.powerCode = 2 then u.regate.takeSteps.drainPorts.resumeStreams else u.regate.takeSteps.drainPorts).takeJob.dispatch).serveWaiting) ∧
  (∀ (s : State), s.Canonical → s.resets.testEn = false → s.power.poweringUp = true → s.resets.refclkAbsent = false → s.resets.active = none →
    ∃ t, exec .hibernatePowerUpDone s = .next t ∧ t.fld fld_RST_CAUSE_LAST = 9 ∧ t.phase = phaseFuseSense ∧ t.alive = true ∧ t.power.hibernating = false ∧
      t.fld fld_RST_CAUSE_WARM_COUNT = min (2 ^ fld_RST_CAUSE_WARM_COUNT.width - 1) (s.fld fld_RST_CAUSE_WARM_COUNT + 1) ∧
      t.sw = Swatches.reset ∧ t.cast = CastOn.reset) ∧
  (∀ (s : State), s.alive = true → s.powerCode = 0 → s.power.transition = some (.entry .doze) → s.power.heldWake = some .run →
    ∃ t, exec .dozeEntered s = .next t ∧ t.powerCode = 1 ∧ t.power.transition = some (.wake .run) ∧ t.power.heldWake = none ∧
      t.flag fld_PWR_STATUS_CHANGING = true) ∧
  (∀ (w : Stamp) (s : State), s.alive = true → s.powerCode = 0 → s.power.transition = some (.entry .doze) → s.power.heldWake = none →
    s.power.wakeTime = some w →
    ∃ t, exec .dozeEntered s = .next t ∧ t.powerCode = 1 ∧ t.power.transition = (if w ≤ s.stamp then some (.wake .run) else none)) ∧
  (∀ (w : PowerState) (s : State), s.alive = true → s.powerCode = 1 → s.power.napLoopStopped = true → s.power.transition = some (.entry .nap) →
    s.power.heldWake = some w → (w = .run ∨ w = .doze) →
    ∃ t, exec .napEntered s = .next t ∧ t.powerCode = 2 ∧ t.power.transition = some (.wake w) ∧ t.flag fld_PWR_STATUS_CHANGING = true) ∧
  (∀ (w : Stamp) (s : State), s.power.wakeTime = some w → s.alive = true →
    (s.power.transition = some (.entry .doze) ∨ s.power.transition = some (.entry .nap)) →
    ∃ t, exec .wakeTime s = .next t ∧ t.power = { s.power with heldWake := some (s.power.heldWake.getD .run) } ∧ t.regs = s.regs) ∧
  (∀ (rising : Bool) (s : State), s.power.wakeTin0 = true → s.power.wakeFalling = !rising → s.alive = true → s.power.hibernating = false →
    s.entering = true →
    exec (.tin0Wake rising) s = .next { s with power := { s.power with heldWake := some (s.power.heldWake.getD .run) } })

/-- R514, R515, R516, R522, R542: governor and brown hold. What waits for a lower level is served last (takeJob, serveWaiting). -/
def Obligations.GovernorAndBrownHold : Prop :=
  (∀ (uw : Nat) (raw : List Int) (avg : Rat) (d : Decision) (s : State), s.alive = true → s.flag fld_SYS_LOCK_LOCKED = true →
    avg = (if s.power.started then s.power.avg + ((uw : Rat) / 1000000 - s.power.avg) / ((2 ^ min 12 (s.fld fld_PWR_GOV_CFG_AVG_SHIFT) : Nat) : Rat)
      else (uw : Rat) / 1000000) →
    d = s.decide_ avg ((uw : Rat) / 1000000) (s.hottest raw) →
    ∃ u t, exec (.governorInterval uw raw) s = .next t ∧ t = (u.takeSteps.takeJob).serveWaiting ∧ t.power.started = true ∧ t.power.avg = avg ∧
      t.power.calm = d.calm ∧ t.pins = s.pins ∧ t.sw.inReset = s.sw.inReset ∧
      u.fld fld_PWR_STATUS_LEVEL = d.level % 8 ∧ u.flag fld_PWR_STATUS_THERMAL = d.thermal ∧ u.flag fld_PWR_STATUS_FLOOR = d.floor ∧
      u.fld (fld_PWR_LEVEL_US_US s.level) = (s.fld (fld_PWR_LEVEL_US_US s.level) + 100) % 2 ^ 32 ∧
      RegsBut [fld_PWR_LEVEL_US_US s.level, fld_PWR_EST_AVG_MW, fld_PWR_EST_TEMP, fld_PWR_STATUS_FLOOR, fld_PWR_GOV_COUNTS_FLOOR, fld_PWR_GOV_COUNTS_CHANGES,
        fld_PWR_STATUS_LEVEL, fld_PWR_STATUS_THERMAL] s u ∧
      (d.floor = false ∨ s.power.floorEpisode = true → u.integ = s.integ) ∧
      (d.floor = true → s.power.floorEpisode = false → ∃ r, u.integ.flits = s.integ.flits ++ [.report r] ∧ r.cause = faultGovFloor ∧ r.source = 1)) ∧
  (∀ (avg p : Rat) (hot : Int) (s : State), (s.packageLimit : Rat) < avg → (s.packageLimit : Rat) < p →
    s.level < max (s.fld fld_PWR_GOV_CFG_MIN_LEVEL) (s.fld fld_PWR_GOV_CFG_MAX_LEVEL) →
    (s.decide_ avg p hot).level = s.level + 1 ∧ (s.decide_ avg p hot).calm = 0 ∧ (s.decide_ avg p hot).floor = false) ∧
  (∀ (s : State), s.brown = false → s.resets.active ≠ some .cold →
    ∃ t, exec .brownHoldBegin s = .next t ∧ t.power.nandHeld = true ∧ t.cast.fusesHeld = true ∧ t.loop.brownSeen = true ∧ t.brown = true ∧
      t.fld fld_PWR_BROWN_COUNT_COUNT = min (2 ^ fld_PWR_BROWN_COUNT_COUNT.width - 1) (s.fld fld_PWR_BROWN_COUNT_COUNT + 1) ∧
      (∀ n, n < 48 → s.stepping n = true → 1 ≤ Store.get 0 t.sw.step n) ∧
      RegsBut ([fld_PWR_STATUS_BROWN, fld_PWR_BROWN_COUNT_COUNT] ++ (List.range 8).map fld_GRAPH_STATUS_RUNNING) s t ∧ t.sram = s.sram ∧ t.mem = s.mem) ∧
  (∀ (us : Nat) (s : State), s.brown = true →
    ∃ t, exec (.brownHoldEnd us) s = .next t ∧ t.brown = false ∧ t.power.nandHeld = false ∧ t.cast.fusesHeld = false ∧
      t.fld fld_PWR_BROWN_WORST_WORST_US = min (2 ^ fld_PWR_BROWN_WORST_WORST_US.width - 1) (max (s.fld fld_PWR_BROWN_WORST_WORST_US) us) ∧
      RegsBut [fld_PWR_STATUS_BROWN, fld_PWR_BROWN_WORST_WORST_US] s t ∧ t.mem.objects = s.mem.objects ∧ t.mem.bytes = s.mem.bytes ∧
      t = { s with regs := t.regs, sw := { s.sw with step := t.sw.step }, power := { s.power with nandHeld := false },
                   cast := { s.cast with fusesHeld := false }, mem := t.mem }) ∧
  (∀ (avg p : Rat) (hot : Int) (s : State), ((s.packageLimit : Rat) < avg ∧ (s.packageLimit : Rat) < p) ∨ (16 * s.fld fld_PWR_LIMIT_TJ_LIMIT : Int) ≤ hot →
    s.decide_ avg p hot =
      ⟨if s.level < max (s.fld fld_PWR_GOV_CFG_MIN_LEVEL) (s.fld fld_PWR_GOV_CFG_MAX_LEVEL) then s.level + 1 else s.level, 0,
        decide ((16 * s.fld fld_PWR_LIMIT_TJ_LIMIT : Int) ≤ hot),
        decide (max (s.fld fld_PWR_GOV_CFG_MIN_LEVEL) (s.fld fld_PWR_GOV_CFG_MAX_LEVEL) ≤ s.level)⟩) ∧
  (∀ (avg p low : Rat) (hot : Int) (s : State), low = (s.packageLimit : Rat) * (1 - (s.fld fld_PWR_GOV_CFG_HYST : Rat) / 64) →
    avg < low → p < low → hot < (16 * s.fld fld_PWR_LIMIT_TJ_LIMIT : Int) - 48 →
    max 1 (s.fld fld_PWR_GOV_CFG_DWELL) ≤ s.power.calm + 1 → s.fld fld_PWR_GOV_CFG_MIN_LEVEL < s.level →
    s.decide_ avg p hot = ⟨s.level - 1, 0, false, false⟩) ∧
  (∀ (avg p low : Rat) (hot : Int) (s : State), low = (s.packageLimit : Rat) * (1 - (s.fld fld_PWR_GOV_CFG_HYST : Rat) / 64) →
    avg < low → p < low → hot < (16 * s.fld fld_PWR_LIMIT_TJ_LIMIT : Int) - 48 →
    s.power.calm + 1 < max 1 (s.fld fld_PWR_GOV_CFG_DWELL) ∨ s.level ≤ s.fld fld_PWR_GOV_CFG_MIN_LEVEL →
    s.decide_ avg p hot = ⟨s.level, s.power.calm + 1, false, false⟩) ∧
  (∀ (avg p low : Rat) (hot : Int) (s : State), low = (s.packageLimit : Rat) * (1 - (s.fld fld_PWR_GOV_CFG_HYST : Rat) / 64) →
    (avg ≤ s.packageLimit ∨ p ≤ s.packageLimit) → hot < (16 * s.fld fld_PWR_LIMIT_TJ_LIMIT : Int) →
    (low ≤ avg ∨ low ≤ p ∨ (16 * s.fld fld_PWR_LIMIT_TJ_LIMIT : Int) - 48 ≤ hot) → s.decide_ avg p hot = ⟨s.level, 0, false, false⟩)

/-- R10, with what R11 says of an unmapped address: a read returns zero, a write is ignored and nothing records the access. The latch
premise rules out a latch armed for such an address, which no read arms. -/
def Obligations.MisalignedIsUnmapped : Prop :=
  ∀ (addr : Word) (s : State), addr.toNat % 4 ≠ 0 →
    (∀ (port : Nat) (data : Word), exec (.registerWrite port addr data) s = .next s ∧ exec (.registerLoWrite port addr data) s = .next s ∧
      s.writeMask addr.toNat data = none) ∧
    s.peek addr.toNat = 0 ∧
    (s.addressed = true → s.latch 0 addr.toNat = none → s.links.readPointer = addr → 4 ≤ s.links.maxRead →
      exec (.i3cPrivateRead 1) s =
        .next { s with links := { s.links with readPointer := addr + 4 }, out := { s.out with words := [0] } }) ∧
    (s.addressed = true → ∀ w : Word, 8 ≤ s.links.maxWrite → exec (.i3cPrivateWrite addr [w]) s = .next s)

/-- R499: private transfers. A read never answers more than the longest read allows; its only effects beside the pointer are those of
register reads (latches, windows). -/
def Obligations.I3cTransfersReachRegisters : Prop :=
  (∀ (addr : Word) (s : State), s.addressed = true →
    exec (.i3cSetReadPointer addr) s = .next { s with links := { s.links with readPointer := addr } } ∧
    exec (.i3cPrivateWrite addr []) s = .next { s with links := { s.links with readPointer := addr } }) ∧
  (∀ (addr w : Word) (s : State), s.addressed = true → 8 ≤ s.links.maxWrite → isPairLo addr.toNat = false → isPairHi addr.toNat = false →
    ∃ t, exec (.i3cPrivateWrite addr [w]) s = .next t ∧ exec (.registerWrite 0 addr w) s = .next t ∧
      (s.flag fld_I3C_CFG_HDR_EN = true → exec (.hdrDdrWrite addr [w]) s = .next t)) ∧
  (∀ (addr w v : Word) (s : State), s.addressed = true → 12 ≤ s.links.maxWrite → isPairLo addr.toNat = true → isPairHi (addr + 4).toNat = true →
    isPairLo (addr + 4).toNat = false →
    ∃ t u, exec (.i3cPrivateWrite addr [w, v]) s = .next u ∧ exec (.registerLoWrite 0 addr w) s = .next t ∧
      exec (.registerHiWrite 0 (addr + 4) v) t = .next u ∧
      (s.flag fld_I3C_CFG_HDR_EN = true → exec (.hdrDdrWrite addr [w, v]) s = .next u)) ∧
  (∀ (n : Nat) (s : State), s.addressed = true →
    ∃ t, exec (.i3cPrivateRead n) s = .next t ∧ t.out.words.length = min n (s.links.maxRead / 4) ∧
      t.links = { s.links with readPointer := s.links.readPointer + BitVec.ofNat 32 (4 * min n (s.links.maxRead / 4)) } ∧
      RegsBut [fld_ATTEST_WIN_ADDR_WORD, fld_FAULT_LOG_ADDR_WORD] s t ∧
      t = { s with regs := t.regs, ports := t.ports, links := t.links, out := t.out } ∧ t.ports.lows = s.ports.lows ∧
      (s.flag fld_I3C_CFG_HDR_EN = true → exec (.hdrDdrRead n) s = .next t)) ∧
  (∀ (s : State), s.addressed = true → 4 ≤ s.links.maxRead → s.latch 0 s.links.readPointer.toNat = none →
    isPairLo s.links.readPointer.toNat = false → s.links.readPointer.toNat ≠ reg_ATTEST_WIN_DATA → s.links.readPointer.toNat ≠ reg_FAULT_LOG_DATA →
    exec (.i3cPrivateRead 1) s = .next { s with links := { s.links with readPointer := s.links.readPointer + 4 }, out := { s.out with words := [s.peek s.links.readPointer.toNat] } }) ∧
  (∀ (addr w : Word) (r : List Word) (s : State), s.addressed = true → r.length + 2 ≤ s.links.maxWrite / 4 →
    exec (.i3cPrivateWrite addr (w :: r)) s = .next ((s.hostWrite i3cPort addr.toNat w).writeWords (addr + 4) r) ∧
    (s.flag fld_I3C_CFG_HDR_EN = true → exec (.hdrDdrWrite addr (w :: r)) s = .next ((s.hostWrite i3cPort addr.toNat w).writeWords (addr + 4) r))) ∧
  (∀ (addr w : Word) (s : State), exec (.registerWrite 0 addr w) s = .next (s.hostWrite i3cPort addr.toNat w) ∨ isPairLo addr.toNat = true ∨
    isPairHi addr.toNat = true) ∧
  (∀ (addr : Word) (words : List Word) (s : State), 8 ≤ s.links.maxWrite →
    exec (.i3cPrivateWrite addr words) s = exec (.i3cPrivateWrite addr (words.take (s.links.maxWrite / 4 - 1))) s) ∧
  (∀ (addr : Word) (words : List Word) (n : Nat) (s : State), s.addressed = false ∨ s.flag fld_I3C_CFG_HDR_EN = false →
    exec (.hdrDdrWrite addr words) s = .next s ∧ exec (.hdrDdrRead n) s = .next s) ∧
  (∀ (addr : Word) (words : List Word) (n : Nat) (s : State), s.addressed = false →
    exec (.i3cPrivateWrite addr words) s = .next s ∧ exec (.i3cSetReadPointer addr) s = .next s ∧ exec (.i3cPrivateRead n) s = .next s)

/-- R502. -/
def Obligations.TargetResetsActAsRstactSays : Prop :=
  (∀ (s : State), s.hostUp = true →
    ∃ t, exec .rstactPort s = .next t ∧ t.flag fld_I3C_STATUS_ADDR_VALID = false ∧ t.fld fld_I3C_STATUS_DYN_ADDR = 0 ∧
      OnlyFields [fld_I3C_STATUS_ADDR_VALID, fld_I3C_STATUS_DYN_ADDR] s t ∧
      (s.flag fld_I3C_CFG_RESET_EN = false → exec .rstactWarm s = .next t)) ∧
  (∀ (s : State), s.Canonical → s.hostUp = true → s.flag fld_I3C_CFG_RESET_EN = true →
    ∃ t, exec .rstactWarm s = .next t ∧ WarmBegun 4 0 s t) ∧
  (∀ (s : State), s.inReset 6 = true → exec .rstactPort s = .next s ∧ exec .rstactWarm s = .next s ∧ exec .getbcr s = .next s ∧
    exec .enec s = .next s ∧ exec .rstdaa s = .next s ∧ exec .disec s = .next s ∧ exec .getpid s = .next s ∧ exec .getdcr s = .next s ∧
    exec .getmwl s = .next s ∧ exec .getmrl s = .next s ∧ (∀ n, exec (.setmwl n) s = .next s ∧ exec (.setmrl n) s = .next s) ∧
    (∀ a b, exec (.entdaa a) s = .next s ∧ exec (.setnewda a) s = .next s ∧ exec (.setdasa a b) s = .next s) ∧
    (∃ t, exec .getstatus s = .next t ∧ t = { s with fresh := t.fresh }) ∧
    (∀ addr w n, exec (.i3cPrivateWrite addr w) s = .next s ∧ exec (.i3cSetReadPointer addr) s = .next s ∧ exec (.i3cPrivateRead n) s = .next s))

/-- R498, R508, R571: the command codes. The third byte of GETMRL and the two of GETSTATUS are the standard's; the latter are free. -/
def Obligations.CommandCodesSetAndAnswer : Prop :=
  (∀ (s : State), s.hostUp = true →
    (∃ t, exec .enec s = .next t ∧ t.flag fld_I3C_STATUS_IBI_ON = true ∧ OnlyFields [fld_I3C_STATUS_IBI_ON] s t) ∧
    (∃ t, exec .disec s = .next t ∧ t.flag fld_I3C_STATUS_IBI_ON = false ∧ OnlyFields [fld_I3C_STATUS_IBI_ON] s t) ∧
    (∃ t, exec .rstdaa s = .next t ∧ t.flag fld_I3C_STATUS_ADDR_VALID = false ∧ t.fld fld_I3C_STATUS_DYN_ADDR = 0 ∧
      OnlyFields [fld_I3C_STATUS_ADDR_VALID, fld_I3C_STATUS_DYN_ADDR] s t) ∧
    (∀ n, exec (.setmwl n) s = .next { s with links := { s.links with maxWrite := min 1028 n } }) ∧
    (∀ n, exec (.setmrl n) s = .next { s with links := { s.links with maxRead := min 1024 n } })) ∧
  (∀ (a : BitVec 7) (s : State), s.hostUp = true → s.flag fld_I3C_STATUS_ADDR_VALID = false →
    ∃ t, exec (.entdaa a) s = .next t ∧ t.flag fld_I3C_STATUS_ADDR_VALID = true ∧ t.fld fld_I3C_STATUS_DYN_ADDR = a.toNat ∧
      OnlyFields [fld_I3C_STATUS_ADDR_VALID, fld_I3C_STATUS_DYN_ADDR] s t) ∧
  (∀ (st a : BitVec 7) (s : State), s.hostUp = true → s.flag fld_I3C_STATUS_ADDR_VALID = false → s.flag fld_SYS_LOCK_LOCKED = true →
    st.toNat = s.fld fld_I3C_CFG_STATIC_ADDR → st ≠ 0 →
    ∃ t, exec (.setdasa st a) s = .next t ∧ t.flag fld_I3C_STATUS_ADDR_VALID = true ∧ t.fld fld_I3C_STATUS_DYN_ADDR = a.toNat ∧
      OnlyFields [fld_I3C_STATUS_ADDR_VALID, fld_I3C_STATUS_DYN_ADDR] s t) ∧
  (∀ (st a : BitVec 7) (s : State), st.toNat ≠ s.fld fld_I3C_CFG_STATIC_ADDR → exec (.setdasa st a) s = .next s) ∧
  (∀ (a : BitVec 7) (s : State), s.addressed = true →
    ∃ t, exec (.setnewda a) s = .next t ∧ t.flag fld_I3C_STATUS_ADDR_VALID = true ∧ t.fld fld_I3C_STATUS_DYN_ADDR = a.toNat ∧
      OnlyFields [fld_I3C_STATUS_ADDR_VALID, fld_I3C_STATUS_DYN_ADDR] s t) ∧
  (∀ (s : State), s.addressed = true →
    exec .getpid s = .next { s with out := { s.out with ccc := toBe 6 (Config.mipiManufacturer.toNat * 2 ^ 33 + s.fld fld_SYS_ID_PART * 2 ^ 16 + (s.reg reg_SYS_UID_LO).toNat % 2 ^ 16) } } ∧
    exec .getbcr s = .next { s with out := { s.out with ccc := [0x26] } } ∧
    exec .getdcr s = .next { s with out := { s.out with ccc := [0x00] } } ∧
    exec .getmwl s = .next { s with out := { s.out with ccc := toBe 2 s.links.maxWrite } } ∧
    exec .getmrl s = .next { s with out := { s.out with ccc := toBe 2 s.links.maxRead ++ [4] } } ∧
    (∃ t, exec .getstatus s = .next t ∧ t.out.ccc.length = 2 ∧ t = { s with fresh := t.fresh, out := { s.out with ccc := t.out.ccc } })) ∧
  (∀ (a b : BitVec 7) (s : State), s.flag fld_I3C_STATUS_ADDR_VALID = true → exec (.entdaa a) s = .next s ∧ exec (.setdasa b a) s = .next s) ∧
  (∀ (a b : BitVec 7) (s : State), s.flag fld_I3C_STATUS_ADDR_VALID = false → exec (.setnewda a) s = .next s ∧
    (s.flag fld_SYS_LOCK_LOCKED = false → exec (.setdasa b a) s = .next s))

/-- R501, R562, R592: the completion's DIAG payloads are offered to the streams; the registers beside SNAP_NUM and SNAP_STATUS stay. -/
def Obligations.InterruptsAndSnapshotsComplete : Prop :=
  (∀ (i : Nat) (s : State), s.addressed = true → s.flag fld_I3C_STATUS_IBI_ON = true → i < 7 → bit (s.fld fld_I3C_IBI_PEND_PEND) i = true →
    bit (s.fld fld_I3C_IBI_EN_EN) i = true → (∀ j, j < i → (bit (s.fld fld_I3C_IBI_PEND_PEND) j && bit (s.fld fld_I3C_IBI_EN_EN) j) = false) →
    ∃ t, exec (.ibiSend true) s = .next t ∧ t.out.ibi = some (i + 1, (s.fld fld_I3C_COUNTS_IBIS + 1) % 2 ^ 24) ∧
      t.fld fld_I3C_IBI_PEND_PEND = s.fld fld_I3C_IBI_PEND_PEND - 2 ^ i ∧ t.fld fld_I3C_COUNTS_IBIS = (s.fld fld_I3C_COUNTS_IBIS + 1) % 2 ^ 24 ∧
      RegsBut [fld_I3C_IBI_PEND_PEND, fld_I3C_COUNTS_IBIS] s t ∧ t = { s with regs := t.regs, out := { s.out with ibi := t.out.ibi } }) ∧
  (∀ (s : State), exec (.ibiSend false) s = .next s) ∧
  (∀ (absent : Bool) (s : State), s.alive = true → s.integ.snapTaken = some absent →
    ∃ t, exec .snapshotComplete s = .next t ∧ t.integ = { s.integ with snapTaken := none } ∧
      t.fld fld_SNAP_NUM_NUMBER = (if s.fld fld_SNAP_NUM_NUMBER = 0xFFFFFFFF then 1 else s.fld fld_SNAP_NUM_NUMBER + 1) ∧
      t.flag fld_SNAP_STATUS_DONE = true ∧ t.flag fld_SNAP_STATUS_ABSENT_ANY = absent ∧
      RegsBut [fld_SNAP_NUM_NUMBER, fld_SNAP_STATUS_DONE, fld_SNAP_STATUS_ABSENT_ANY] s t ∧
      t = { s with regs := t.regs, integ := t.integ, links := { s.links with offers := t.links.offers } }) ∧
  (∀ (p : ResetPort) (s : State), s.alive = true → s.flag (resetFlag p) = true →
    ∃ t, exec (.portResetEnd p) s = .next t ∧ t.flag (resetFlag p) = false ∧ OnlyFields [resetFlag p] s t) ∧
  (∀ (s : State), (s.addressed = false ∨ s.flag fld_I3C_STATUS_IBI_ON = false ∨
    (∀ j, j < 7 → (bit (s.fld fld_I3C_IBI_PEND_PEND) j && bit (s.fld fld_I3C_IBI_EN_EN) j) = false)) → exec (.ibiSend true) s = .next s) ∧
  (∀ (p : ResetPort) (s : State), (s.flag (resetFlag p) = false → exec (.portResetEnd p) s = .next s) ∧ (s.flag (resetFlag p) = true → s.rxTerminated p = false)) ∧
  (∀ (m : Fin 2) (s : State), s.alive = true → s.flag fld_SYS_LOCK_LOCKED = true → s.inReset 4 = false → s.flag (resetFlag (.eth m)) = true →
    ∃ t, exec (.portResetEnd (.eth m)) s = .next t ∧ t.rxTerminated (.eth m) = s.flag (fld_ETH_CTRL_ENABLE m)) ∧
  (∀ (n : Fin 12) (s : State), s.alive = true → s.flag fld_SYS_LOCK_LOCKED = true → s.inReset 7 = false → s.flag (resetFlag (.csiRx n)) = true →
    ∃ t, exec (.portResetEnd (.csiRx n)) s = .next t ∧ t.rxTerminated (.csiRx n) = s.flag (fld_CSI_RX_CFG_ENABLE n))

/-- R503, R504, R505: the three IMU commands. -/
def Obligations.ImuPortsReadAndDeliver : Prop :=
  (∀ (ack : Bool) (n : Nat) (s : State), s.links.initRunning = true → s.swatchRuns 5 = true → s.toAddress = some n →
    ∃ t, exec (.imuInitEntry ack) s = .next t ∧ t.links.initAddressed = s.links.initAddressed ++ [n] ∧
      t.flag (if ack then fld_IMU_PORT_STATUS_ADDR_VALID n else fld_IMU_PORT_STATUS_INIT_ERR n) = true ∧ t.links.initNext = s.links.initNext ∧
      RegsBut ([if ack then fld_IMU_PORT_STATUS_ADDR_VALID n else fld_IMU_PORT_STATUS_INIT_ERR n] ++ (List.range 4).map fld_IMU_PORT_STATUS_INIT_DONE) s t ∧
      t = { s with regs := t.regs, links := t.links }) ∧
  (∀ (i : Nat) (s : State), s.links.initRunning = true → s.swatchRuns 5 = true → s.toAddress = none → s.nextEntry = some i →
    ∃ t, exec (.imuInitEntry true) s = .next t ∧ t.links.initNext = i + 1 ∧
      t.links.imuWrote = some (s.initField i 0 1, s.initField i 1 1, s.initField i 2 1) ∧
      RegsBut ((List.range 4).map fld_IMU_PORT_STATUS_INIT_DONE) s t ∧ t = { s with regs := t.regs, links := t.links }) ∧
  (∀ (imu : Fin 4) (rising : Bool) (tap : Tap) (s : State), s.swatchRuns 5 = true → s.flag fld_SYS_LOCK_LOCKED = true →
    s.links.initRunning = false → s.imuReachable imu = true → rising = !s.flag (fld_IMU_PORT_CFG_DRDY_EDGE imu) →
    s.imuBus (s.onSpi imu) = none → (∀ w, w ∈ s.links.imuWaiting → s.onSpi w.imu ≠ s.onSpi imu) →
    ∃ t, exec (.imuDrdyEdge imu rising tap) s = .next t ∧ t.imuBus (s.onSpi imu) = some ⟨imu, s.tapTime tap⟩ ∧
      t.imuBus (!s.onSpi imu) = s.imuBus (!s.onSpi imu) ∧ t.links.imuWaiting = s.links.imuWaiting ∧
      t = { s with links := { s.links with imuI3c := t.links.imuI3c, imuSpi := t.links.imuSpi } }) ∧
  (∀ (imu : Fin 4) (rising : Bool) (tap : Tap) (r : ImuRead) (s : State), s.swatchRuns 5 = true → s.flag fld_SYS_LOCK_LOCKED = true →
    s.links.initRunning = false → s.imuReachable imu = true → rising = !s.flag (fld_IMU_PORT_CFG_DRDY_EDGE imu) →
    s.imuBus (s.onSpi imu) = some r → r.imu = imu.val →
    ∃ t, exec (.imuDrdyEdge imu rising tap) s = .next t ∧
      t.fld (fld_IMU_PORT_ERR_OVERRUN imu) = min (2 ^ (fld_IMU_PORT_ERR_OVERRUN imu).width - 1) (s.fld (fld_IMU_PORT_ERR_OVERRUN imu) + 1) ∧
      OnlyFields [fld_IMU_PORT_ERR_OVERRUN imu] s t) ∧
  (∀ (imu : Fin 4) (rising : Bool) (tap : Tap) (s : State), (rising = s.flag (fld_IMU_PORT_CFG_DRDY_EDGE imu) ∨ s.links.initRunning = true ∨
      s.imuReachable imu = false ∨ s.flag fld_SYS_LOCK_LOCKED = false ∨ s.swatchRuns 5 = false) →
    exec (.imuDrdyEdge imu rising tap) s = .next s) ∧
  (∀ (spi ack : Bool) (b : List Byte) (r : ImuRead) (s : State), s.swatchRuns 5 = true → s.imuBus spi = some r → (spi || ack) = true →
    s.inReset 12 = false → (∀ w, w ∈ s.links.imuWaiting → s.onSpi w.imu ≠ spi) →
    ∃ t, exec (.imuReadDone spi ack b) s = .next t ∧ t.imuBus spi = none ∧ t.imuBus (!spi) = s.imuBus (!spi) ∧
      t.track = { s.track with arrived := s.track.arrived ++ [(r.imu, r.stamp, s.sampleBytes r.imu b)] } ∧
      t = { s with track := t.track, links := { s.links with imuI3c := t.links.imuI3c, imuSpi := t.links.imuSpi } }) ∧
  (∀ (n : Nat) (b : List Byte) (s : State), s.flag (fld_IMU_PORT_CFG_SWAP n) = false → s.flag (fld_IMU_PORT_CFG_ORDER n) = false → b.length = 12 →
    s.sampleBytes n b = b) ∧
  (∀ (b : List Byte) (r : ImuRead) (s : State), s.swatchRuns 5 = true → s.imuBus false = some r → r.imu < 4 → (∀ w, w ∈ s.links.imuWaiting → s.onSpi w.imu = true) →
    ∃ t, exec (.imuReadDone false false b) s = .next t ∧ t.imuBus false = none ∧
      t.fld (fld_IMU_PORT_ERR_NACK r.imu) = min (2 ^ (fld_IMU_PORT_ERR_NACK r.imu).width - 1) (s.fld (fld_IMU_PORT_ERR_NACK r.imu) + 1) ∧
      RegsBut [fld_IMU_PORT_ERR_NACK r.imu] s t ∧ t = { s with regs := t.regs, links := { s.links with imuI3c := none } }) ∧
  (∀ (i : Nat) (s : State), s.links.initRunning = true → s.swatchRuns 5 = true → s.toAddress = none → s.nextEntry = some i → s.initField i 0 1 < 4 →
    s.onSpi (s.initField i 0 1) = false →
    ∃ t, exec (.imuInitEntry false) s = .next t ∧ t.links.initNext = i + 1 ∧ t.flag (fld_IMU_PORT_STATUS_INIT_ERR (s.initField i 0 1)) = true ∧
      t.links.imuWrote = some (s.initField i 0 1, s.initField i 1 1, s.initField i 2 1)) ∧
  (∀ (imu : Fin 4) (rising : Bool) (tap : Tap) (r : ImuRead) (s : State), s.swatchRuns 5 = true → s.flag fld_SYS_LOCK_LOCKED = true →
    s.links.initRunning = false → s.imuReachable imu = true → rising = !s.flag (fld_IMU_PORT_CFG_DRDY_EDGE imu) →
    s.imuBus (s.onSpi imu) = some r → r.imu ≠ imu.val →
    ∃ t, exec (.imuDrdyEdge imu rising tap) s = .next t ∧
      t.links.imuWaiting = s.links.imuWaiting.filter (fun w => w.imu != imu.val) ++ [⟨imu, s.tapTime tap⟩] ∧
      t.fld (fld_IMU_PORT_ERR_OVERRUN imu) = (if s.links.imuWaiting.any (fun w => w.imu == imu.val) then
        min (2 ^ (fld_IMU_PORT_ERR_OVERRUN imu).width - 1) (s.fld (fld_IMU_PORT_ERR_OVERRUN imu) + 1) else s.fld (fld_IMU_PORT_ERR_OVERRUN imu)) ∧
      RegsBut [fld_IMU_PORT_ERR_OVERRUN imu] s t ∧ t = { s with regs := t.regs, links := { s.links with imuWaiting := t.links.imuWaiting } }) ∧
  (∀ (spi ack : Bool) (b : List Byte) (r n : ImuRead) (s : State), s.swatchRuns 5 = true → s.imuBus spi = some r → r.imu < 4 → n ∈ s.links.imuWaiting →
    s.onSpi n.imu = spi → (∀ w, w ∈ s.links.imuWaiting → w ≠ n → s.onSpi w.imu = spi → n.stamp < w.stamp ∨ (n.stamp = w.stamp ∧ n.imu < w.imu)) →
    ∃ t, exec (.imuReadDone spi ack b) s = .next t ∧ t.imuBus spi = some n ∧ t.imuBus (!spi) = s.imuBus (!spi) ∧
      t.links.imuWaiting = s.links.imuWaiting.filter (· != n)) ∧
  (∀ (b : List Byte) (r : ImuRead) (s : State), s.swatchRuns 5 = true → s.imuBus true = some r → s.inReset 12 = true → (∀ w, w ∈ s.links.imuWaiting → s.onSpi w.imu = false) →
    exec (.imuReadDone true true b) s = .next { s with links := { s.links with imuSpi := none } })

/-- R342, R343, R348, R349. That the previous sample is the last accepted one is the model's reading (log entry 41). -/
def Obligations.TrackingInputsAreJudged : Prop :=
  (∀ (imu : Fin 4) (n : Nat) (stamp : Stamp) (raw : List Byte) (tov : Int) (s : State),
    s.track.arrived.find? (fun a => a.1 == imu.val) = some (n, stamp, raw) → s.swatchRuns 12 = true → s.imuOn imu = true →
    tov = stamp + signed 32 (s.trackNat 3 (64 * s.trackNat 4 (32 * imu.val) 1 + 0x1C) 4) * 65536 →
    ∃ t, exec (.imuSampleArrive imu) s = .next t ∧ t.track.arrived = dropFirst (fun a => a.1 == imu.val) s.track.arrived ∧
      t = { s with regs := t.regs, track := { s.track with arrived := t.track.arrived, imus := t.track.imus } } ∧
      ((s.stamp : Int) + usStamp s.loop.period < tov → OnlyFields [fld_IMU_ERR_BAD_TIME imu] { s with track := t.track } t ∧ t.track.imus = s.track.imus ∧
        t.fld (fld_IMU_ERR_BAD_TIME imu) = min (2 ^ (fld_IMU_ERR_BAD_TIME imu).width - 1) (s.fld (fld_IMU_ERR_BAD_TIME imu) + 1)) ∧
      (tov ≤ (s.stamp : Int) + usStamp s.loop.period → ∀ p, (s.imu imu).samples.getLast? = some p → tov ≤ p.tov →
        RegsBut [fld_IMU_ERR_ORDER imu] s t ∧ t.track.imus = s.track.imus ∧
        t.fld (fld_IMU_ERR_ORDER imu) = min (2 ^ (fld_IMU_ERR_ORDER imu).width - 1) (s.fld (fld_IMU_ERR_ORDER imu) + 1)) ∧
      (tov ≤ (s.stamp : Int) + usStamp s.loop.period → (∀ p, (s.imu imu).samples.getLast? = some p → p.tov < tov) →
        (∀ c, s.track.lastCutoff = some c → tov ≤ (c : Int) →
          RegsBut [fld_TF_LATE_COUNT_0_IMU] s t ∧ t.track.imus = s.track.imus ∧
          t.fld fld_TF_LATE_COUNT_0_IMU = min (2 ^ fld_TF_LATE_COUNT_0_IMU.width - 1) (s.fld fld_TF_LATE_COUNT_0_IMU + 1)) ∧
        ((∀ c, s.track.lastCutoff = some c → (c : Int) < tov) →
          (t.imu imu).samples = (s.imu imu).samples ++ [⟨tov, raw⟩] ∧ (∀ m, m ≠ imu.val → t.imu m = s.imu m) ∧
          t.fld (fld_IMU_SAMPLES_SAMPLES imu) = (s.fld (fld_IMU_SAMPLES_SAMPLES imu) + 1) % 2 ^ (fld_IMU_SAMPLES_SAMPLES imu).width ∧
          RegsBut [fld_IMU_SAMPLES_SAMPLES imu] s t))) ∧
  (∀ (imu : Fin 4) (n : Nat) (stamp : Stamp) (raw : List Byte) (s : State),
    s.track.arrived.find? (fun a => a.1 == imu.val) = some (n, stamp, raw) → (s.swatchRuns 12 && s.imuOn imu) = false →
    exec (.imuSampleArrive imu) s = .next { s with track := { s.track with arrived := dropFirst (fun a => a.1 == imu.val) s.track.arrived } }) ∧
  (∀ (eth : Fin 2) (c : Nat) (stamp : Stamp) (frame : List Byte) (s : State), (s.mac eth).delivered.find? (fun d => d.1 == 1) = some (c, stamp, frame) →
    s.swatchRuns 12 = true → s.flag fld_SYS_LOCK_LOCKED = true → jointBad (jointPayload frame) = true →
    ∃ t, exec (.jointFrameArrive eth) s = .next t ∧ (t.mac eth).delivered = dropFirst (fun d => d.1 == 1) (s.mac eth).delivered ∧
      t.fld fld_TF_JOINT_COUNTS_BAD = min (2 ^ fld_TF_JOINT_COUNTS_BAD.width - 1) (s.fld fld_TF_JOINT_COUNTS_BAD + 1) ∧
      RegsBut [fld_TF_JOINT_COUNTS_BAD] s t ∧ t = { s with regs := t.regs, eth := t.eth } ∧ (∀ m, m ≠ eth.val → t.mac m = s.mac m)) ∧
  (∀ (eth : Fin 2) (c : Nat) (stamp : Stamp) (frame p : List Byte) (v : JointSource) (s : State), (s.mac eth).delivered.find? (fun d => d.1 == 1) = some (c, stamp, frame) →
    s.swatchRuns 12 = true → s.flag fld_SYS_LOCK_LOCKED = true → p = jointPayload frame → jointBad p = false →
    v = Store.get JointSource.reset s.track.sources (field p 4 2 % 16) →
    ∃ t, exec (.jointFrameArrive eth) s = .next t ∧
      t = { s with regs := t.regs, eth := t.eth, track := { s.track with sources := t.track.sources, joints := t.track.joints } } ∧
      (v.sequence = some (field p 8 4) → t.track = s.track ∧ RegsBut [fld_TF_JOINT_COUNTS_REPEAT] s t ∧
        t.fld fld_TF_JOINT_COUNTS_REPEAT = min (2 ^ fld_TF_JOINT_COUNTS_REPEAT.width - 1) (s.fld fld_TF_JOINT_COUNTS_REPEAT + 1)) ∧
      (v.sequence ≠ some (field p 8 4) → (Store.get JointSource.reset t.track.sources (field p 4 2 % 16)).sequence = some (field p 8 4)) ∧
      (v = JointSource.reset → s.jointTov p stamp ≤ (s.stamp : Int) + usStamp s.loop.period → s.track.lastCutoff = none →
        Store.get JointSource.reset t.track.sources (field p 4 2 % 16) = ⟨some (field p 8 4), some (s.jointTov p stamp)⟩ ∧ t.regs = s.regs) ∧
      (v.sequence ≠ some (field p 8 4) → t.fld fld_TF_JOINT_COUNTS_SKIP = (match v.sequence with
        | some q => if (q + 1) % 2 ^ 32 = field p 8 4 then s.fld fld_TF_JOINT_COUNTS_SKIP
          else min (2 ^ fld_TF_JOINT_COUNTS_SKIP.width - 1) (s.fld fld_TF_JOINT_COUNTS_SKIP + 1)
        | none => s.fld fld_TF_JOINT_COUNTS_SKIP) ∧
        RegsBut [fld_TF_JOINT_COUNTS_SKIP, fld_TF_JOINT_TIME_BAD_TIME, fld_TF_JOINT_TIME_ORDER, fld_TF_LATE_COUNT_0_JOINT] s t ∧
        ((s.stamp : Int) + usStamp s.loop.period < s.jointTov p stamp → t.track.joints = s.track.joints ∧
          t.fld fld_TF_JOINT_TIME_BAD_TIME = min (2 ^ fld_TF_JOINT_TIME_BAD_TIME.width - 1) (s.fld fld_TF_JOINT_TIME_BAD_TIME + 1)) ∧
        (s.jointTov p stamp ≤ (s.stamp : Int) + usStamp s.loop.period → (∃ q, v.tov = some q ∧ s.jointTov p stamp ≤ q) → t.track.joints = s.track.joints ∧
          t.fld fld_TF_JOINT_TIME_ORDER = min (2 ^ fld_TF_JOINT_TIME_ORDER.width - 1) (s.fld fld_TF_JOINT_TIME_ORDER + 1)) ∧
        (s.jointTov p stamp ≤ (s.stamp : Int) + usStamp s.loop.period → (∀ q, v.tov = some q → q < s.jointTov p stamp) →
          (∃ c, s.track.lastCutoff = some c ∧ s.jointTov p stamp ≤ (c : Int)) → t.track.joints = s.track.joints ∧
          t.fld fld_TF_LATE_COUNT_0_JOINT = min (2 ^ fld_TF_LATE_COUNT_0_JOINT.width - 1) (s.fld fld_TF_LATE_COUNT_0_JOINT + 1)) ∧
        (s.jointTov p stamp ≤ (s.stamp : Int) + usStamp s.loop.period → (∀ q, v.tov = some q → q < s.jointTov p stamp) →
          (∀ c, s.track.lastCutoff = some c → (c : Int) < s.jointTov p stamp) →
          Store.get JointSource.reset t.track.sources (field p 4 2 % 16) = ⟨some (field p 8 4), some (s.jointTov p stamp)⟩))) ∧
  (∀ (eth : Fin 2) (c : Nat) (stamp : Stamp) (frame : List Byte) (s : State), (s.mac eth).delivered.find? (fun d => d.1 == 1) = some (c, stamp, frame) →
    (s.swatchRuns 12 && s.flag fld_SYS_LOCK_LOCKED) = false →
    exec (.jointFrameArrive eth) s = .next (s.setMac eth { s.mac eth with delivered := dropFirst (fun d => d.1 == 1) (s.mac eth).delivered }))

/-- R142 to R152, R158: the servo's commands. Where an offset is not a multiple of 2^-48 ns the rounding of the step is free. -/
def Obligations.ServoFollowsItsRules : Prop :=
  (∀ (eth : Fin 2) (m : SyncMessage) (s : State), s.syncUsable eth m.domain m.grandmaster = true → m.twoStep = false →
    (s.atTap m.tap).announceLate 0 = false → (s.atTap m.tap).announceLate 1 = false →
    s.flag fld_TIME_STATUS_CLOCK_FAULT = false → s.flag fld_TIME_STATUS_STEP_ARMED = true →
    ∃ t, exec (.syncReceived eth m) s = .next t ∧ t.time.stepDue = some (s.syncOffset eth (s.tapTime m.tap) m.origin m.correction) ∧ t.time.seenSync = true ∧
      t.time.ticks = max s.time.ticks m.tap.tick ∧ RegsBut [whole reg_TIME_OFFSET] s t ∧ t = { s with regs := t.regs, fresh := t.fresh, time := t.time }) ∧
  (∀ (eth : Fin 2) (m : SyncMessage) (s : State), s.syncUsable eth m.domain m.grandmaster = true → m.twoStep = true →
    (s.atTap m.tap).announceLate 0 = false → (s.atTap m.tap).announceLate 1 = false →
    ∃ t, exec (.syncReceived eth m) s = .next t ∧ Store.get none t.time.waiting eth = some m ∧ t.time.stepDue = s.time.stepDue ∧
      t = { s with time := t.time }) ∧
  (∀ (eth : Fin 2) (y : SyncMessage) (m : FollowUpMessage) (s : State), Store.get none s.time.waiting eth = some y → y.sequence = m.sequence →
    y.domain = m.domain → y.grandmaster = m.grandmaster → s.syncUsable eth m.domain m.grandmaster = true →
    s.announceLate 0 = false → s.announceLate 1 = false →
    s.flag fld_TIME_STATUS_CLOCK_FAULT = false → s.flag fld_TIME_STATUS_STEP_ARMED = true →
    ∃ t, exec (.followUpReceived eth m) s = .next t ∧ t.time.stepDue = some (s.syncOffset eth (s.tapTime y.tap) m.origin (y.correction + m.correction)) ∧
      Store.get none t.time.waiting eth = none ∧ RegsBut [whole reg_TIME_OFFSET] s t ∧ t = { s with regs := t.regs, fresh := t.fresh, time := t.time }) ∧
  (∀ (eth : Fin 2) (m : SyncMessage) (s : State), s.syncUsable eth m.domain m.grandmaster = true → m.twoStep = false →
    (s.atTap m.tap).announceLate 0 = false → (s.atTap m.tap).announceLate 1 = false →
    s.flag fld_TIME_STATUS_CLOCK_FAULT = false → s.flag fld_TIME_STATUS_STEP_ARMED = false → s.time.episode = false →
    s.offsetRefused (s.syncOffset eth (s.tapTime m.tap) m.origin m.correction) = true → (s.servo = servoStepped ∨ s.servo = servoLocked) →
    ∃ t d, exec (.syncReceived eth m) s = .next t ∧ t.servo = servoHoldover ∧ t.flag fld_TIME_STATUS_JUMP_REFUSED = true ∧
      t.time.episode = true ∧ t.reg reg_TIME_RATE = s.reg reg_TIME_RATE ∧ t.time.now = (s.atTap m.tap).time.now ∧
      bit (t.fld fld_I3C_IBI_PEND_PEND) 2 = true ∧
      t.fld fld_TIME_COUNTS_REFUSALS = min (2 ^ fld_TIME_COUNTS_REFUSALS.width - 1) (s.fld fld_TIME_COUNTS_REFUSALS + 1) ∧
      t.integ.flits = s.integ.flits ++ [.report ⟨4, 3, d, t.stamp⟩]) ∧
  (∀ (eth : Fin 2) (m : SyncMessage) (s : State), s.syncUsable eth m.domain m.grandmaster = true → m.twoStep = false →
    (s.atTap m.tap).announceLate 0 = false → (s.atTap m.tap).announceLate 1 = false →
    s.flag fld_TIME_STATUS_CLOCK_FAULT = false → s.flag fld_TIME_STATUS_STEP_ARMED = false → s.time.episode = false → s.servo = servoStepped →
    s.offsetRefused (s.syncOffset eth (s.tapTime m.tap) m.origin m.correction) = false →
    absRat (s.syncOffset eth (s.tapTime m.tap) m.origin m.correction) ≤ (s.fld fld_TIME_LIMITS_LOCK_NS : Rat) → s.lockCount ≤ s.time.inLock + 1 →
    ∃ t, exec (.syncReceived eth m) s = .next t ∧ t.servo = servoLocked ∧ t.flag fld_TIME_STATUS_FIRST_LOCK = true ∧ t.time.inLock = 0 ∧
      RegsBut [whole reg_TIME_OFFSET, whole reg_TIME_RATE, fld_TIME_STATUS_STATE, fld_TIME_STATUS_FIRST_LOCK] s t) ∧
  (∀ (offset : Rat) (k : Int) (s : State), s.time.stepDue = some offset → s.flag fld_TIME_STATUS_CLOCK_FAULT = false → offset * ((2 ^ 48 : Nat) : Rat) = (k : Rat) →
    k ≤ s.time.now + s.advance →
    ∃ t, exec .timeStep s = .next t ∧ (t.time.now : Int) = s.time.now + s.advance - k ∧ t.time.stepDue = none ∧ t.servo = servoStepped ∧
      t.flag fld_TIME_STATUS_STEP_ARMED = false ∧ t.flag fld_TIME_STATUS_STEP_USED = true ∧ (t.mac 0).launch = [] ∧ (t.mac 1).launch = [] ∧
      (∀ m : Fin 2, t.fld (fld_LQ_COUNTS_DROPPED m) = min (2 ^ (fld_LQ_COUNTS_DROPPED m).width - 1) (s.fld (fld_LQ_COUNTS_DROPPED m) + (s.mac m).launch.length) ∧
        (t.mac m).inMac = (s.mac m).inMac.map (fun e => { e with freed := true })) ∧
      (s.loopRunning = true → t.loopRunning = false ∧ t.loop.stopped = some .step ∧ t.clsA.work = none)) ∧
  (∀ (s : State), (s.servo = servoStepped ∨ s.servo = servoLocked) →
    ∃ t, exec .syncTimeout s = .next t ∧ t.servo = servoHoldover ∧ RegsBut [fld_TIME_STATUS_STATE] s t ∧
      t = { s with regs := t.regs, time := { s.time with recover := 0 } }) ∧
  (∀ (s : State), s.flag fld_SYS_LOCK_LOCKED = true → s.servo = servoUnsynced → s.time.seenSync = false → s.fld fld_TIME_SERVO_CFG_FREE_RUN_S ≠ 0 →
    ∃ t, exec .freeRunTimeout s = .next t ∧ t.servo = servoFreeRun ∧ t.flag fld_TIME_STATUS_STEP_ARMED = false ∧ t.flag fld_TIME_STATUS_FIRST_LOCK = true ∧
      RegsBut [fld_TIME_STATUS_STATE, fld_TIME_STATUS_STEP_ARMED, fld_TIME_STATUS_FIRST_LOCK] s t ∧ t = { s with regs := t.regs, time := t.time, loop := t.loop }) ∧
  (∀ (s : State), s.fld fld_TIME_SERVO_CFG_FREE_RUN_S = 0 → exec .freeRunTimeout s = .next s) ∧
  (∀ (eth : Fin 2) (a : AnnounceMessage) (s : State), s.swatchRuns 4 = true → s.flag (fld_ETH_STATUS_LINK eth) = true →
    s.flag (fld_ETH_STATUS_AS_CAPABLE eth) = true → a.domain = s.fld fld_TIME_CTRL_DOMAIN → a.stepsRemoved < 255 →
    a.priority1 ≠ 255 → Store.get none s.time.announce (otherPort eth) = none → s.announceLate eth = false →
    (s.pair reg_TIME_GM_ID_LO = 0 ∨ s.pair reg_TIME_GM_ID_LO = octetSwap a.grandmaster) →
    ∃ t, exec (.announceReceived eth a) s = .next t ∧ t.flag fld_TIME_STATUS_SLAVE_VALID = true ∧ t.fld fld_TIME_STATUS_SLAVE_PORT = eth ∧
      t.pair reg_TIME_GM_ID_LO = octetSwap a.grandmaster ∧
      RegsBut [fld_TIME_STATUS_SLAVE_VALID, fld_TIME_STATUS_SLAVE_PORT, whole reg_TIME_GM_ID_LO, whole (reg_TIME_GM_ID_LO + 4)] s t ∧
      t = { s with regs := t.regs, time := { s.time with announce := t.time.announce } }) ∧
  (∀ (eth : Fin 2) (a : AnnounceMessage) (s : State), s.swatchRuns 4 = true → s.flag (fld_ETH_STATUS_LINK eth) = true →
    s.flag (fld_ETH_STATUS_AS_CAPABLE eth) = true → a.domain = s.fld fld_TIME_CTRL_DOMAIN → a.stepsRemoved < 255 →
    a.priority1 = 255 → Store.get none s.time.announce (otherPort eth) = none →
    ∃ t, exec (.announceReceived eth a) s = .next t ∧ t.flag fld_TIME_STATUS_SLAVE_VALID = false) ∧
  (∀ (data d : Word) (s : State), s.writeTaken reg_TIME_CTRL data = some d → d.getLsbD 0 = true →
    ∃ t, exec (.rearm data) s = .next t ∧ t.flag fld_TIME_STATUS_STEP_ARMED = true ∧ OnlyFields [fld_TIME_STATUS_STEP_ARMED] s t) ∧
  (∀ (data d : Word) (s : State), s.writeTaken reg_TIME_RATE data = some d → s.fld fld_TIME_CTRL_SERVO_MODE = 1 → s.time.episode = false →
    s.servo ≠ servoHoldover → s.time.seenSync = false → s.time.gmRate = 0 →
    -65536000 ≤ signed 32 d.toNat → signed 32 d.toNat ≤ 65536000 → (signed 32 d.toNat).natAbs ≤ s.fld fld_TIME_SERVO_CFG_SLEW_MAX_PPM * 65536 →
    ∃ t, exec (.timeRateWrite data) s = .next t ∧ t.reg reg_TIME_RATE = d ∧ RegsBut [whole reg_TIME_RATE] s t ∧
      t = { s with regs := t.regs, fresh := t.fresh, time := { s.time with eras := t.time.eras } }) ∧
  (∀ (data : Word) (s : State), (s.fld fld_TIME_CTRL_SERVO_MODE ≠ 1 ∨ s.time.episode = true ∨ s.servo = servoHoldover) →
    exec (.timeRateWrite data) s = .next s) ∧
  (∀ (eth : Fin 2) (a : AnnounceMessage) (s : State), s.swatchRuns 4 = true → s.flag (fld_ETH_STATUS_LINK eth) = true →
    s.flag (fld_ETH_STATUS_AS_CAPABLE eth) = true → a.domain = s.fld fld_TIME_CTRL_DOMAIN → a.stepsRemoved < 255 →
    a.priority1 ≠ 255 → Store.get none s.time.announce (otherPort eth) = none → s.announceLate eth = false →
    s.pair reg_TIME_GM_ID_LO ≠ 0 → s.pair reg_TIME_GM_ID_LO ≠ octetSwap a.grandmaster →
    ∃ t, exec (.announceReceived eth a) s = .next t ∧ t.flag fld_TIME_STATUS_GM_CHANGED = true ∧ t.pair reg_TIME_GM_ID_LO = octetSwap a.grandmaster ∧
      t.fld fld_TIME_COUNTS_GM_CHANGES = min (2 ^ fld_TIME_COUNTS_GM_CHANGES.width - 1) (s.fld fld_TIME_COUNTS_GM_CHANGES + 1)) ∧
  (∀ (eth : Fin 2) (m : SyncMessage) (s : State), s.syncUsable eth m.domain m.grandmaster = true → m.twoStep = false →
    (s.atTap m.tap).announceLate 0 = false → (s.atTap m.tap).announceLate 1 = false → s.flag fld_TIME_STATUS_CLOCK_FAULT = true →
    ∃ t, exec (.syncReceived eth m) s = .next t ∧ t.time.stepDue = s.time.stepDue ∧ t.time.seenSync = true ∧ t.time.recover = s.time.recover ∧
      t.time.inLock = s.time.inLock ∧ RegsBut [whole reg_TIME_OFFSET] s t) ∧
  (∀ (eth : Fin 2) (m : SyncMessage) (s : State), s.syncUsable eth m.domain m.grandmaster = true → m.twoStep = false →
    (s.atTap m.tap).announceLate 0 = false → (s.atTap m.tap).announceLate 1 = false →
    s.flag fld_TIME_STATUS_CLOCK_FAULT = false → s.flag fld_TIME_STATUS_STEP_ARMED = false → s.time.episode = true →
    s.offsetRefused (s.syncOffset eth (s.tapTime m.tap) m.origin m.correction) = true →
    ∃ t, exec (.syncReceived eth m) s = .next t ∧ t.time.recover = 0 ∧ t.time.episode = true ∧ RegsBut [whole reg_TIME_OFFSET] s t ∧ t.integ = s.integ) ∧
  (∀ (eth : Fin 2) (m : SyncMessage) (s : State), s.syncUsable eth m.domain m.grandmaster = true → m.twoStep = false →
    (s.atTap m.tap).announceLate 0 = false → (s.atTap m.tap).announceLate 1 = false →
    s.flag fld_TIME_STATUS_CLOCK_FAULT = false → s.flag fld_TIME_STATUS_STEP_ARMED = false → (s.time.episode = true ∨ s.servo = servoHoldover) →
    s.offsetRefused (s.syncOffset eth (s.tapTime m.tap) m.origin m.correction) = false →
    ∃ t, exec (.syncReceived eth m) s = .next t ∧ t.reg reg_TIME_RATE = s.reg reg_TIME_RATE ∧ RegsBut [whole reg_TIME_OFFSET, fld_TIME_STATUS_STATE] s t ∧
      (s.time.recover + 1 < s.recoverCount → t.servo = s.servo ∧ t.time.recover = s.time.recover + 1) ∧
      (s.recoverCount ≤ s.time.recover + 1 → t.servo = servoStepped ∧ t.time.episode = false ∧ t.time.acc = 0 ∧ t.time.inLock = 0 ∧ t.time.outLock = 0)) ∧
  (∀ (eth : Fin 2) (m : SyncMessage) (s : State), s.syncUsable eth m.domain m.grandmaster = true → m.twoStep = false →
    (s.atTap m.tap).announceLate 0 = false → (s.atTap m.tap).announceLate 1 = false →
    s.flag fld_TIME_STATUS_CLOCK_FAULT = false → s.flag fld_TIME_STATUS_STEP_ARMED = false → s.time.episode = false → s.servo = servoLocked →
    s.offsetRefused (s.syncOffset eth (s.tapTime m.tap) m.origin m.correction) = false →
    (s.fld fld_TIME_LIMITS_LOCK_NS : Rat) < absRat (s.syncOffset eth (s.tapTime m.tap) m.origin m.correction) →
    ∃ t, exec (.syncReceived eth m) s = .next t ∧ t.servo = (if s.lockCount ≤ s.time.outLock + 1 then servoStepped else servoLocked) ∧ t.time.inLock = 0 ∧
      RegsBut [whole reg_TIME_OFFSET, whole reg_TIME_RATE, fld_TIME_STATUS_STATE] s t) ∧
  (∀ (eth : Fin 2) (m : SyncMessage) (s : State), (s.atTap m.tap).announceLate 0 = false → (s.atTap m.tap).announceLate 1 = false →
    (s.atTap m.tap).syncUsable eth m.domain m.grandmaster = false → exec (.syncReceived eth m) s = .next (s.atTap m.tap)) ∧
  (∀ (s : State), (s.time.stepDue = none ∨ s.flag fld_TIME_STATUS_CLOCK_FAULT = true) → exec .timeStep s = .next s) ∧
  (∀ (offset : Rat) (s : State), s.time.stepDue = some offset → s.flag fld_TIME_STATUS_CLOCK_FAULT = false →
    offset * ((2 ^ 48 : Nat) : Rat) ≤ ((s.time.now + s.advance : Nat) : Rat) →
    ∃ t, exec .timeStep s = .next t ∧ absRat ((t.time.now : Rat) - (((s.time.now + s.advance : Nat) : Rat) - offset * ((2 ^ 48 : Nat) : Rat))) < 1 ∧
      t.servo = servoStepped ∧ t.time.ticks = s.time.ticks + 1) ∧
  (∀ (eth : Fin 2) (a : AnnounceMessage) (b : HeldAnnounce) (s : State), s.swatchRuns 4 = true → s.flag (fld_ETH_STATUS_LINK eth) = true →
    s.flag (fld_ETH_STATUS_AS_CAPABLE eth) = true → a.domain = s.fld fld_TIME_CTRL_DOMAIN → a.stepsRemoved < 255 →
    a.priority1 ≠ 255 → b.msg.priority1 ≠ 255 → Store.get none s.time.announce (otherPort eth) = some b → s.announceLate 0 = false → s.announceLate 1 = false →
    ∃ t, exec (.announceReceived eth a) s = .next t ∧ t.flag fld_TIME_STATUS_SLAVE_VALID = true ∧
      (lexLt (announceVector a) (announceVector b.msg) = true → t.fld fld_TIME_STATUS_SLAVE_PORT = eth ∧ t.pair reg_TIME_GM_ID_LO = octetSwap a.grandmaster) ∧
      (lexLt (announceVector a) (announceVector b.msg) = false → lexLt (announceVector b.msg) (announceVector a) = true →
        t.fld fld_TIME_STATUS_SLAVE_PORT = otherPort eth ∧ t.pair reg_TIME_GM_ID_LO = octetSwap b.msg.grandmaster) ∧
      (lexLt (announceVector a) (announceVector b.msg) = false → lexLt (announceVector b.msg) (announceVector a) = false →
        t.fld fld_TIME_STATUS_SLAVE_PORT = 0)) ∧
  (∀ (eth : Fin 2) (a : AnnounceMessage) (s : State), s.announceLate 0 = false → s.announceLate 1 = false →
    (s.swatchRuns 4 = false ∨ s.flag (fld_ETH_STATUS_LINK eth) = false ∨ s.flag (fld_ETH_STATUS_AS_CAPABLE eth) = false ∨
      a.domain ≠ s.fld fld_TIME_CTRL_DOMAIN ∨ 255 ≤ a.stepsRemoved) → exec (.announceReceived eth a) s = .next s) ∧
  (∀ (data d : Word) (mid slew : Rat) (s : State), s.writeTaken reg_TIME_RATE data = some d → s.fld fld_TIME_CTRL_SERVO_MODE = 1 → s.time.episode = false →
    s.servo ≠ servoHoldover →
    mid = combinedRate s.time.gmRate (if s.time.seenSync then s.neighbourRate (s.fld fld_TIME_STATUS_SLAVE_PORT) else 0) * 1000000 →
    slew = s.fld fld_TIME_SERVO_CFG_SLEW_MAX_PPM →
    ∃ t, exec (.timeRateWrite data) s = .next t ∧ RegsBut [whole reg_TIME_RATE] s t ∧
      absRat ((signed 32 (t.reg reg_TIME_RATE).toNat : Rat) -
        clampRat (-1000) 1000 (clampRat (mid - slew) (mid + slew) ((signed 32 d.toNat : Rat) / 65536)) * 65536) < 1) ∧
  (∀ (data : Word) (s : State), (s.writeTaken reg_TIME_RATE data = none → exec (.timeRateWrite data) s = .next s) ∧
    ((∀ d, s.writeTaken reg_TIME_CTRL data = some d → d.getLsbD 0 = false) → exec (.rearm data) s = .next s))

/-- R153 to R164: the Ethernet commands. The rounding of a frame's ingress stamp and of LAST_LAG is free. -/
def Obligations.EthernetPortsFollowTheirRules : Prop :=
  (∀ (eth : Fin 2) (s : State), s.initiates = true → s.portUp eth = true →
    ∃ t, exec (.pdelayReqTimer eth) s = .next t ∧
      t.mac eth = { s.mac eth with pdSequence := ((s.mac eth).pdSequence + 1) % 65536, pdSent := some (.request (s.mac eth).pdSequence), pdFrom := t.time.ticks } ∧
      t.time.ticks = (if s.time.running then max s.time.ticks ((s.mac eth).pdFrom + s.pdelayTicks eth) else s.time.ticks) ∧
      (∀ m, m ≠ eth.val → t.mac m = s.mac m) ∧ t = { s with eth := t.eth, time := { s.time with ticks := t.time.ticks, now := t.time.now } }) ∧
  (∀ (eth : Fin 2) (delay : Nat) (nrr : Int) (s : State), s.initiates = true → s.portUp eth = true → delay ≤ 800 * 2 ^ 16 → 1 ≤ (s.mac eth).pdGood →
    ∃ t, exec (.pdelayExchangeDone eth true delay nrr) s = .next t ∧ t.flag (fld_ETH_STATUS_AS_CAPABLE eth) = true ∧
      t.reg (reg_ETH_LINK_DELAY eth) = BitVec.ofNat 32 delay ∧ t.reg (reg_ETH_NRR eth) = BitVec.ofNat 32 (satSigned 32 nrr) ∧
      (t.mac eth).pdGood = (s.mac eth).pdGood + 1 ∧ (t.mac eth).pdBad = 0 ∧
      RegsBut [fld_ETH_STATUS_AS_CAPABLE eth, whole (reg_ETH_LINK_DELAY eth), whole (reg_ETH_NRR eth)] s t ∧ t = { s with regs := t.regs, eth := t.eth }) ∧
  (∀ (eth : Fin 2) (delay : Nat) (nrr : Int) (s : State), s.initiates = true → s.portUp eth = true → 2 ≤ (s.mac eth).pdBad →
    ∃ t, exec (.pdelayExchangeDone eth false delay nrr) s = .next t ∧ t.flag (fld_ETH_STATUS_AS_CAPABLE eth) = false ∧ (t.mac eth).pdGood = 0 ∧
      Store.get none t.time.announce eth = none ∧ (Store.get none s.time.announce (otherPort eth) = none →
        RegsBut [fld_ETH_STATUS_AS_CAPABLE eth, fld_TIME_STATUS_SLAVE_VALID] s t ∧ t.flag fld_TIME_STATUS_SLAVE_VALID = false ∧
        t = { s with regs := t.regs, eth := t.eth, time := { s.time with announce := t.time.announce, waiting := t.time.waiting } })) ∧
  (∀ (eth : Fin 2) (r q : Nat) (tap answered : Tap) (s : State), s.portUp eth = true →
    ∃ t, exec (.pdelayReqReceived eth r q ⟨tap, answered⟩) s = .next t ∧
      t.mac eth = { s.mac eth with pdSent := some (.answer r q (s.ingressNs eth (s.tapTime tap)) (s.egressNs eth (s.tapTime answered))) } ∧
      (∀ m, m ≠ eth.val → t.mac m = s.mac m) ∧ t = { s with eth := t.eth, time := t.time }) ∧
  (∀ (eth : Fin 2) (f : List Byte) (c : Nat) (tap : Tap) (s : State), s.portUp eth = true → etherType f ≠ 0x8808 → f.length ≤ 1518 → s.filterFor eth f = some c →
    ∃ t st, exec (.ethFrameReceived eth f true tap) s = .next t ∧ t.mac eth = { s.mac eth with delivered := (s.mac eth).delivered ++ [(c, st, f)] } ∧
      (0 ≤ s.ingressNs eth (s.tapTime tap) → absRat ((st : Rat) - s.ingressNs eth (s.tapTime tap) * 65536) < 1) ∧
      (∀ m, m ≠ eth.val → t.mac m = s.mac m) ∧ t = { s with eth := t.eth, time := t.time, fresh := t.fresh }) ∧
  (∀ (eth : Fin 2) (f : List Byte) (tap : Tap) (s : State), s.portUp eth = true → etherType f ≠ 0x8808 → f.length ≤ 1518 → s.filterFor eth f = none →
    leNat (slice f 0 6) ≠ s.pair (reg_ETH_ADDR_LO eth) % 2 ^ 48 → isPeerDelay f = false → s.flag (fld_ETH_CTRL_FWD_ENABLE 0) = true →
    s.flag (fld_ETH_CTRL_FWD_ENABLE 1) = true →
    ∃ t, exec (.ethFrameReceived eth f true tap) s = .next t ∧
      t.mac (otherPort eth) = { s.mac (otherPort eth) with egress := (s.mac (otherPort eth)).egress ++ [⟨framePriority f, s.ingressNs eth (s.tapTime tap), eth, f⟩] } ∧
      t.mac eth = s.mac eth ∧ t = { s with eth := t.eth, time := t.time }) ∧
  (∀ (eth : Fin 2) (f : List Byte) (tap : Tap) (s : State), exec (.ethFrameReceived eth f false tap) s = .next (s.atTap tap)) ∧
  (∀ (eth : Fin 2) (tap : Tap) (b : BridgeFrame) (rest : List BridgeFrame) (s : State), nextEgress (s.mac eth).egress = some (b, rest) → s.portUp eth = true →
    s.mayForward eth (s.egressNs eth (s.tapTime tap)) b.frame.length = true →
    ∃ t f, exec (.frameForwardEgress eth tap) s = .next t ∧ (t.mac eth).egress = rest ∧ (t.mac eth).sent = some f ∧ (∀ m, m ≠ eth.val → t.mac m = s.mac m) ∧
      RegsBut [fld_TC_COUNT_COUNT eth] s t ∧ t = { s with regs := t.regs, fresh := t.fresh, eth := t.eth, time := t.time } ∧
      (isPtp b.frame = false → f = b.frame ∧ t.regs = s.regs) ∧
      (isPtp b.frame = true → ptpType b.frame = ptpSync → bit (field b.frame (payloadAt b.frame + 6) 1) 1 = false →
        t.fld (fld_TC_COUNT_COUNT eth) = (s.fld (fld_TC_COUNT_COUNT eth) + 1) % 2 ^ (fld_TC_COUNT_COUNT eth).width ∧
        (followUpTlv b.frame (payloadAt b.frame + 44) b.frame.length = none →
          ∃ n : Int, f = addCorrection b.frame n ∧ absRat ((n : Rat) - s.transitCorrection b (s.egressNs eth (s.tapTime tap)) * 65536) ≤ 1 / 2)) ∧
      (isPtp b.frame = true → ptpType b.frame = ptpSync → bit (field b.frame (payloadAt b.frame + 6) 1) 1 = true →
        f = b.frame ∧ t.regs = s.regs ∧
        (t.mac eth).owed = (s.mac eth).owed ++ [(ptpKey b.frame, s.transitCorrection b (s.egressNs eth (s.tapTime tap)))])) ∧
  (∀ (l rest : List BridgeFrame) (b : BridgeFrame), nextEgress l = some (b, rest) → b ∈ l ∧ ∀ x ∈ l, x.priority ≤ b.priority) ∧
  (∀ (eth : Fin 2) (sp : Fin 5) (s : State), s.swatchRuns 4 = true → s.flag (fld_ETH_STATUS_IN_RESET eth) = false → s.flag (fld_ETH_CTRL_ENABLE eth) = true → sp ≠ 0 →
    ∃ t, exec (.ethLinkChange eth sp) s = .next t ∧ t.flag (fld_ETH_STATUS_LINK eth) = true ∧ t.fld (fld_ETH_STATUS_SPEED eth) = sp ∧
      RegsBut [fld_ETH_STATUS_LINK eth, fld_ETH_STATUS_SPEED eth] s t ∧ t.mac eth = { s.mac eth with pdFrom := s.time.ticks } ∧
      (∀ m, m ≠ eth.val → t.mac m = s.mac m) ∧ t = { s with regs := t.regs, eth := t.eth }) ∧
  (∀ (eth : Fin 2) (s : State), s.swatchRuns 4 = true → s.flag (fld_ETH_STATUS_IN_RESET eth) = false →
    ∃ t, exec (.ethLinkChange eth 0) s = .next t ∧ t.flag (fld_ETH_STATUS_LINK eth) = false ∧ t.flag (fld_ETH_STATUS_AS_CAPABLE eth) = false ∧
      t.fld (fld_ETH_STATUS_SPEED eth) = 0 ∧ t.reg (reg_ETH_LINK_DELAY eth) = 0 ∧ t.reg (reg_ETH_NRR eth) = 0 ∧ t.servo = s.servo ∧ Store.get none t.time.announce eth = none) ∧
  (∀ (eth : Fin 2) (data d : Word) (s : State), s.writeTaken (reg_ETH_CTRL eth) data = some d → d.getLsbD 0 = true →
    ∃ t, exec (.ethPortReset eth data) s = .next t ∧ t.flag (fld_ETH_STATUS_LINK eth) = false ∧ t.flag (fld_ETH_STATUS_IN_RESET eth) = true ∧
      (t.mac eth).launch = [] ∧ (t.mac eth).egress = [] ∧ (t.mac eth).inMac = [] ∧ (t.mac eth).delivered = [] ∧ (t.mac eth).pdSequence = 0 ∧
      t.flag (fld_ETH_STATUS_AS_CAPABLE eth) = false ∧ t.reg (reg_ETH_LINK_DELAY eth) = 0 ∧ t.reg (reg_ETH_NRR eth) = 0 ∧
      t.fld (fld_LQ_COUNTS_DROPPED eth) = min (2 ^ (fld_LQ_COUNTS_DROPPED eth).width - 1) (s.fld (fld_LQ_COUNTS_DROPPED eth) +
        (s.mac eth).launch.length + ((s.mac eth).inMac.filter (fun e => decide (s.stamp ≤ e.launchTime))).length) ∧
      t.servo = s.servo ∧ (∀ m, m ≠ eth.val → t.mac m = s.mac m)) ∧
  (∀ (eth : Fin 2) (e : LaunchEntry) (rest : List LaunchEntry) (s : State), nextLaunch (s.mac eth).launch = some (e, rest) →
    ∃ t, exec (.launchHandoff eth) s = .next t ∧ t.mac eth = { s.mac eth with launch := rest, inMac := (s.mac eth).inMac ++ [e] } ∧
      (∀ m, m ≠ eth.val → t.mac m = s.mac m) ∧ t = { s with eth := t.eth, time := t.time }) ∧
  (∀ (eth : Fin 2) (tap : Tap) (e : LaunchEntry) (rest : List LaunchEntry) (s : State), (s.mac eth).inMac = e :: rest → s.portUp eth = false →
    ∃ t, exec (.launchEgress eth tap) s = .next t ∧ t.mac eth = { s.mac eth with inMac := rest } ∧
      t.fld (fld_LQ_COUNTS_DROPPED eth) = min (2 ^ (fld_LQ_COUNTS_DROPPED eth).width - 1) (s.fld (fld_LQ_COUNTS_DROPPED eth) + 1) ∧
      RegsBut [fld_LQ_COUNTS_DROPPED eth] s t) ∧
  (∀ (l rest : List LaunchEntry) (e : LaunchEntry), nextLaunch l = some (e, rest) → e ∈ l ∧ ∀ x ∈ l, e.launchTime ≤ x.launchTime) ∧
  (∀ (eth : Fin 2) (tap : Tap) (e : LaunchEntry) (rest : List LaunchEntry) (s : State), (s.mac eth).inMac = e :: rest → s.portUp eth = true →
    e.mayLeave (s.egressNs eth (s.tapTime tap)) = true →
    ∃ t, exec (.launchEgress eth tap) s = .next t ∧
      t.mac eth = { s.mac eth with inMac := rest, sent := some e.frame, launched := (e.launchTime, s.egressNs eth (s.tapTime tap)) :: (s.mac eth).launched } ∧
      (∀ m, m ≠ eth.val → t.mac m = s.mac m) ∧ RegsBut [fld_LQ_STATUS_LAST_LAG eth] s t ∧
      (s.egressNs eth (s.tapTime tap) ≤ (e.launchTime : Rat) / 65536 → t.fld (fld_LQ_STATUS_LAST_LAG eth) = 0) ∧
      ∃ k : Int, absRat ((k : Rat) - (s.egressNs eth (s.tapTime tap) - (e.launchTime : Rat) / 65536) * 4) < 1 ∧
        t.fld (fld_LQ_STATUS_LAST_LAG eth) = min 0xFFFF k.toNat) ∧
  (∀ (eth : Fin 2) (tap : Tap) (e : LaunchEntry) (rest : List LaunchEntry) (s : State), (s.mac eth).inMac = e :: rest → s.portUp eth = true →
    e.freed = false → s.egressNs eth (s.tapTime tap) + 4 / 5 < (e.launchTime : Rat) / 65536 → exec (.launchEgress eth tap) s = .next (s.atTap tap)) ∧
  (∀ (eth : Fin 2) (tap : Tap) (b : BridgeFrame) (rest : List BridgeFrame) (e : LaunchEntry) (s : State), nextEgress (s.mac eth).egress = some (b, rest) →
    e ∈ (s.mac eth).launch → (e.launchTime : Rat) / 65536 - 1500 ≤ s.egressNs eth (s.tapTime tap) - 8 * s.byteNs eth →
    (e.launchTime : Rat) / 65536 < s.egressNs eth (s.tapTime tap) + ((b.frame.length + 4 : Nat) : Rat) * s.byteNs eth →
    exec (.frameForwardEgress eth tap) s = .next (s.atTap tap)) ∧
  (∀ (eth : Fin 2) (delay : Nat) (nrr : Int) (s : State), s.initiates = true → s.portUp eth = true → delay < 2 ^ 32 →
    (s.mac eth).pdGood = 0 ∨ 800 * 2 ^ 16 < delay → (800 * 2 ^ 16 < delay → (s.mac eth).pdBad + 1 < 3) →
    ∃ t, exec (.pdelayExchangeDone eth true delay nrr) s = .next t ∧ t.reg (reg_ETH_LINK_DELAY eth) = BitVec.ofNat 32 delay ∧
      t.reg (reg_ETH_NRR eth) = BitVec.ofNat 32 (satSigned 32 nrr) ∧
      (t.mac eth).pdGood = (if delay ≤ 800 * 2 ^ 16 then 1 else 0) ∧ (t.mac eth).pdBad = (if delay ≤ 800 * 2 ^ 16 then 0 else (s.mac eth).pdBad + 1) ∧
      RegsBut [whole (reg_ETH_LINK_DELAY eth), whole (reg_ETH_NRR eth)] s t ∧ t = { s with regs := t.regs, eth := t.eth }) ∧
  (∀ (eth : Fin 2) (f : List Byte) (tap : Tap) (s : State), s.portUp eth = false ∨ etherType f = 0x8808 ∨ 1518 < f.length ∨
    (s.filterFor eth f = none ∧ (leNat (slice f 0 6) = s.pair (reg_ETH_ADDR_LO eth) % 2 ^ 48 ∨ isPeerDelay f = true ∨
      s.flag (fld_ETH_CTRL_FWD_ENABLE 0) = false ∨ s.flag (fld_ETH_CTRL_FWD_ENABLE 1) = false)) →
    exec (.ethFrameReceived eth f true tap) s = .next (s.atTap tap)) ∧
  (∀ (eth : Fin 2) (sp : Fin 5) (s : State), s.swatchRuns 4 = false ∨ s.flag (fld_ETH_STATUS_IN_RESET eth) = true ∨
    (sp ≠ 0 ∧ s.flag (fld_ETH_CTRL_ENABLE eth) = false) → exec (.ethLinkChange eth sp) s = .next s) ∧
  (∀ (eth : Fin 2) (delay : Nat) (nrr : Int) (ok : Bool) (s : State), s.initiates = false ∨ s.portUp eth = false →
    exec (.pdelayReqTimer eth) s = .next s ∧ exec (.pdelayExchangeDone eth ok delay nrr) s = .next s) ∧
  (∀ (eth : Fin 2) (frame : List Byte) (t0 : Stamp) (s : State), 64 ≤ (s.mac eth).launch.length ∨ s.portUp eth = false →
    s.enqueueLaunch eth frame t0 = s.addSat (fld_LQ_COUNTS_DROPPED eth) 1)

/-- R165 to R169, R180: timer outputs and capture inputs. -/
def Obligations.TimersDriveAndCapture : Prop :=
  (∀ (n : Fin 16) (data m : Word) (s u : State), s.writeMask (reg_TOUT_CTRL n) data = some m →
    u = (s.unstageTout n).applyWrite (reg_TOUT_CTRL n) m data → u.toutBad n = true →
    ∃ t, exec (.toutCtrlWrite n data) s = .next t ∧ t.flag (fld_TOUT_CTRL_CFG_REJECT n) = true ∧ t.tout n = s.tout n ∧
      RegsBut [whole (reg_TOUT_CTRL n)] s t ∧ (∀ a ∈ toutRegisters n, Store.get none t.timers.staged a = none) ∧
      t = { s with regs := t.regs, timers := { s.timers with staged := t.timers.staged } }) ∧
  (∀ (n : Fin 16) (data m : Word) (s u : State), s.writeMask (reg_TOUT_CTRL n) data = some m →
    u = (s.unstageTout n).applyWrite (reg_TOUT_CTRL n) m data → u.toutBad n = false → u.flag (fld_TOUT_CTRL_ENABLE n) = true →
    u.flag (fld_TOUT_CTRL_PERIODIC n) = true → u.stamp ≤ u.toutStart n → (s.tout n).level = false →
    ∃ t, exec (.toutCtrlWrite n data) s = .next t ∧ t.tout n = ⟨some (u.toutStart n, true), 0, false⟩ ∧ t.flag (fld_TOUT_CTRL_ACTIVE n) = true ∧
      RegsBut (whole (reg_TOUT_CTRL n) :: (toutRegisters n).map whole) s t ∧ (∀ k, k ≠ n.val → t.tout k = s.tout k) ∧
      t = { s with regs := t.regs, timers := t.timers }) ∧
  (∀ (n : Fin 16) (data : Word) (s : State), s.writeMask (reg_TOUT_CTRL n) data = none → exec (.toutCtrlWrite n data) s = .next s) ∧
  (∀ (n : Fin 16) (w : Stamp) (s : State), (s.tout n).next = some (w, true) →
    ∃ t, exec (.toutEdge n) s = .next t ∧ t.tout n = ⟨some (w + s.toutWidth n, false), (s.tout n).pulse + 1, true⟩ ∧
      t.flag (fld_TOUT_CTRL_ACTIVE n) = true ∧ RegsBut [fld_TOUT_CTRL_ACTIVE n] s t ∧ (∀ k, k ≠ n.val → t.tout k = s.tout k) ∧
      t = { s with regs := t.regs, timers := t.timers, time := t.time }) ∧
  (∀ (n : Fin 16) (w : Stamp) (s : State), (s.tout n).next = some (w, false) → s.flag (fld_TOUT_CTRL_ENABLE n) = true → s.flag (fld_TOUT_CTRL_PERIODIC n) = true →
    ∃ t, exec (.toutEdge n) s = .next t ∧ t.tout n = ⟨some (s.toutLead n (s.tout n).pulse, true), (s.tout n).pulse, false⟩ ∧
      RegsBut [fld_TOUT_CTRL_ACTIVE n] s t) ∧
  (∀ (n : Fin 16) (w : Stamp) (s : State), (s.tout n).next = some (w, false) → s.flag (fld_TOUT_CTRL_PERIODIC n) = false → (s.tout n).pulse ≠ 0 →
    ∃ t, exec (.toutEdge n) s = .next t ∧ t.tout n = ⟨none, (s.tout n).pulse, false⟩ ∧ t.flag (fld_TOUT_CTRL_ACTIVE n) = false ∧
      RegsBut [fld_TOUT_CTRL_ACTIVE n] s t) ∧
  (∀ (n : Fin 4) (rising : Bool) (w : Nat) (tap : Tap) (s : State), s.time.running = true → tinFilter (s.fld (fld_TIN_CTRL_FILTER n)) ≤ w →
    tinSelects (s.fld (fld_TIN_CTRL_EDGE n)) rising = true → (s.tin n).queue.length < 16 →
    ∃ t, exec (.tinEdge n rising w tap) s = .next t ∧ t.tin n = { s.tin n with queue := (s.tin n).queue ++ [⟨s.tapTime tap, rising⟩] } ∧
      (∀ k, k ≠ n.val → t.tin k = s.tin k) ∧ t = { s with time := t.time, timers := t.timers }) ∧
  (∀ (n : Fin 4) (rising : Bool) (w : Nat) (tap : Tap) (s : State), s.time.running = true → tinFilter (s.fld (fld_TIN_CTRL_FILTER n)) ≤ w →
    tinSelects (s.fld (fld_TIN_CTRL_EDGE n)) rising = true → 16 ≤ (s.tin n).queue.length →
    ∃ t, exec (.tinEdge n rising w tap) s = .next t ∧ t.flag (fld_TIN_STATUS_OVR n) = true ∧ t.tin n = s.tin n ∧ RegsBut [fld_TIN_STATUS_OVR n] s t ∧
      t = { s with regs := t.regs, time := t.time }) ∧
  (∀ (n : Fin 4) (data d : Word) (c : Capture) (r : List Capture) (s : State), s.writeTaken (reg_TIN_POP n) data = some d → d.getLsbD 0 = true →
    (s.tin n).queue = c :: r →
    ∃ t, exec (.tinPop n data) s = .next t ∧ t.tin n = ⟨r, (s.tin n).seq + 1⟩ ∧ (∀ k, k ≠ n.val → t.tin k = s.tin k) ∧
      t = { s with timers := { s.timers with tin := t.timers.tin } }) ∧
  (∀ (n : Fin 16) (data m : Word) (s u : State), s.writeMask (reg_TOUT_CTRL n) data = some m →
    u = (s.unstageTout n).applyWrite (reg_TOUT_CTRL n) m data → u.toutBad n = false → u.flag (fld_TOUT_CTRL_ENABLE n) = true →
    u.flag (fld_TOUT_CTRL_PERIODIC n) = true → u.toutStart n < u.stamp → (s.tout n).level = false →
    ∃ t k, exec (.toutCtrlWrite n data) s = .next t ∧ t.tout n = ⟨some (u.toutLead n k, true), k, false⟩ ∧ u.stamp + nsStamp 100 ≤ u.toutLead n k ∧
      (∀ j, j < k → u.toutLead n j < u.stamp + nsStamp 100)) ∧
  (∀ (n : Fin 16) (data m : Word) (s u : State), s.writeMask (reg_TOUT_CTRL n) data = some m →
    u = (s.unstageTout n).applyWrite (reg_TOUT_CTRL n) m data → u.toutBad n = false → u.flag (fld_TOUT_CTRL_ENABLE n) = true →
    u.flag (fld_TOUT_CTRL_PERIODIC n) = false → (s.tout n).level = false →
    ∃ t, exec (.toutCtrlWrite n data) s = .next t ∧
      (u.stamp ≤ u.toutStart n → t.tout n = ⟨some (u.toutStart n, true), 0, false⟩ ∧ t.flag (fld_TOUT_CTRL_ACTIVE n) = true) ∧
      (u.toutStart n < u.stamp → t.tout n = ⟨none, 1, false⟩ ∧ t.flag (fld_TOUT_CTRL_MISSED n) = true ∧ t.flag (fld_TOUT_CTRL_ACTIVE n) = false)) ∧
  (∀ (n : Fin 16) (data m : Word) (s u : State), s.writeMask (reg_TOUT_CTRL n) data = some m →
    u = (s.unstageTout n).applyWrite (reg_TOUT_CTRL n) m data → u.toutBad n = false → u.flag (fld_TOUT_CTRL_ENABLE n) = false →
    ∃ t, exec (.toutCtrlWrite n data) s = .next t ∧ t.tout n = { s.tout n with next := if (s.tout n).level then (s.tout n).next else none } ∧
      (∀ k, k ≠ n.val → t.tout k = s.tout k)) ∧
  (∀ (n : Fin 16) (w : Stamp) (s : State), (s.tout n).next = some (w, false) → s.flag (fld_TOUT_CTRL_ENABLE n) = false →
    ∃ t, exec (.toutEdge n) s = .next t ∧ t.tout n = ⟨none, (s.tout n).pulse, false⟩ ∧ t.flag (fld_TOUT_CTRL_ACTIVE n) = false ∧
      RegsBut [fld_TOUT_CTRL_ACTIVE n] s t) ∧
  (∀ (n : Fin 16) (s : State), (s.tout n).next = none → exec (.toutEdge n) s = .next s) ∧
  (∀ (n : Fin 4) (rising : Bool) (w : Nat) (tap : Tap) (s : State), (s.time.running = false ∨ w < tinFilter (s.fld (fld_TIN_CTRL_FILTER n)) ∨
    tinSelects (s.fld (fld_TIN_CTRL_EDGE n)) rising = false) → exec (.tinEdge n rising w tap) s = .next (s.atTap tap)) ∧
  (∀ (n : Fin 4) (data : Word) (s : State), (∀ d, s.writeTaken (reg_TIN_POP n) data = some d → d.getLsbD 0 = false) → exec (.tinPop n data) s = .next s)

/-- R32 to R38, R44, R56, R149, R528: the grid. -/
def Obligations.LoopKeepsItsGrid : Prop :=
  (∀ (b : Stamp) (s : State), s.loop.startAt = some b → s.alive = true → s.phase = phaseRunning → s.loop.stopped = none →
    (s.placeBoundary b).pathClear = true → s.power.napLoopStopped = false →
    ∃ t, exec .loopStart s = .next t ∧ t.loopRunning = true ∧ t.periodNumber = 0 ∧ t.loop.boundary = b ∧ t.loop.grid = true ∧ t.loop.startAt = none ∧
      t.loop.stopped = none ∧ t.loop.cutoffDone = false ∧ t.loop.cutoffAt = b + usStamp t.loop.cutoff ∧ t.loop.launchAt = t.loop.cutoffAt + usStamp t.loop.launch ∧
      timingOk t.loop.period t.loop.cutoff t.loop.launch = true ∧ t.integ.loopArmed = true ∧ t.clsA.held = none ∧ t.clsA.work = none ∧
      t.pins = s.pins ∧ t.power = s.power) ∧
  (∀ (b : Stamp) (s : State), s.loop.startAt = some b → s.alive = true → s.phase = phaseRunning → s.loop.stopped = some .step →
    ∃ t, exec .loopStart s = .next t ∧ t.periodNumber = (s.periodNumber + s.passedOver b) % 2 ^ 64 ∧ t.loop.boundary = b ∧ t.loop.startAt = none ∧
      ((s.placeBoundary b).pathClear = true → s.power.napLoopStopped = false → t.loopRunning = true ∧ t.loop.stopped = none ∧ t.clsA.held = none)) ∧
  (∀ (b : Stamp) (s : State), s.loop.startAt = some b → s.alive = true → s.phase ≠ phaseRunning →
    exec .loopStart s = .next { s with loop := { s.loop with startAt := none } }) ∧
  (∀ (s : State), s.boundaryDue = true → s.loop.stopped = none → s.phase ≠ phaseBindOff → s.napPending = false →
    ∃ t, exec .periodBoundary s = .next t ∧ t.periodNumber = (s.periodNumber + 1) % 2 ^ 64 ∧ t.loop.boundary = s.loop.boundary + usStamp s.loop.period ∧
      t.loop.cutoffDone = false ∧ t.loop.cutoffAt = t.loop.boundary + usStamp t.loop.cutoff ∧ t.loop.launchAt = t.loop.cutoffAt + usStamp t.loop.launch ∧
      (timingOk s.loop.period s.loop.cutoff s.loop.launch = true → timingOk t.loop.period t.loop.cutoff t.loop.launch = true) ∧
      (s.time.running = true → t.time.now = max s.time.now (t.loop.boundary * 2 ^ 32)) ∧ t.pins = s.pins ∧ t.power = s.power) ∧
  (∀ (s : State), s.boundaryDue = true → s.loop.stopped = some .reset → (∃ n ∈ [2, 3, 4, 5, 12, 13], s.inReset n = true) → s.phase ≠ phaseBindOff → s.napPending = false →
    ∃ t, exec .periodBoundary s = .next t ∧ t.loop.stopped = some .reset ∧ t.periodNumber = (s.periodNumber + 1) % 2 ^ 64 ∧
      t.fld fld_CLA_MISSED_COUNT_MISSED = min (2 ^ fld_CLA_MISSED_COUNT_MISSED.width - 1) (s.fld fld_CLA_MISSED_COUNT_MISSED + 1) ∧
      t.flag fld_CLA_STATUS_MISSED = true ∧ bit (t.fld fld_I3C_IBI_PEND_PEND) 1 = true) ∧
  (∀ (s : State), s.boundaryDue = false → exec .periodBoundary s = .next s) ∧
  (∀ (s : State), s.alive = true → s.loopRunning = true → s.loop.cutoffDone = false → s.workFree = true →
    ∃ t w, exec .inputCutoff s = .next t ∧ t.loop = { s.loop with cutoffDone := true } ∧ t.clsA.work = some w ∧ w.period = s.periodNumber ∧
      w.cutoff = s.loop.cutoffAt ∧ w.launch = s.loop.launchAt ∧ w.propagated = false ∧ w.published = false ∧ w.ready = false ∧ w.built = false ∧
      t.track.lastCutoff = some s.loop.cutoffAt ∧ t.solv.formed = [] ∧ t.solv.stopPoint = none ∧ t.pins = s.pins ∧ t.power = s.power ∧
      t.sw = { s.sw with crossing := t.sw.crossing, strobes := t.sw.strobes }) ∧
  (∀ (s : State), s.alive = true → s.napPending = true → s.loop.grid = false → (∀ w, s.clsA.work = some w → w.built = true) →
    ∃ t, exec .napLoopStop s = .next t ∧ t.power = { s.power with napLoopStopped := true } ∧ t.regs = s.regs ∧
      (∀ n ∈ napSwatches, s.groupPhase (groupOf n) = .running → t.isGated n = true)) ∧
  (∀ (s : State), s.boundaryDue = true → s.napPending = true → s.phase ≠ phaseBindOff → (∀ w, s.clsA.work = some w → w.built = true) →
    ∃ t, exec .napLoopStop s = .next t ∧ t.loopRunning = false ∧ t.loop.stopped = some .nap ∧ t.power = { s.power with napLoopStopped := true }) ∧
  (∀ (s : State), s.boundaryDue = true → s.loop.stopped = some .reset → (s.placeBoundary (s.loop.boundary + usStamp s.loop.period)).pathClear = true →
    s.phase ≠ phaseBindOff → s.napPending = false → s.power.napLoopStopped = false → s.clsA.slot = some (s.fld fld_SOLV_A_CFG_SLOT) →
    ∃ t, exec .periodBoundary s = .next t ∧ t.loop.stopped = none ∧ t.loopRunning = true ∧ t.periodNumber = (s.periodNumber + 1) % 2 ^ 64 ∧
      t.clsA.held = none ∧ t.clsA.work = none ∧ t.loop.cutoffDone = false ∧ t.loop.cutoffAt = t.loop.boundary + usStamp t.loop.cutoff ∧
      t.fld fld_CLA_MISSED_COUNT_MISSED = min (2 ^ fld_CLA_MISSED_COUNT_MISSED.width - 1) (s.fld fld_CLA_MISSED_COUNT_MISSED + 1)) ∧
  (∀ (s : State), (s.alive = false ∨ s.loopRunning = false ∨ s.loop.cutoffDone = true ∨ s.workFree = false) → exec .inputCutoff s = .next s) ∧
  (∀ (s : State), (s.alive = false ∨ s.napPending = false) → exec .napLoopStop s = .next s) ∧
  (∀ (s : State), s.loop.startAt = none → exec .loopStart s = .next s)

/-- R37, R39, R345, R418, R431, R438 to R441: the work of a period. What the estimate's words are is free (log entry 22). -/
def Obligations.PeriodWorkReachesItsFrames : Prop :=
  (∀ (w : PeriodWork) (s : State), s.clsA.work = some w → s.swatchRuns 12 = true → w.propagated = false →
    ∃ t, exec .imuPropagationDone s = .next t ∧ t.clsA.work = some { w with propagated := true } ∧
      t.track.terms.length = ((List.range 4).filter s.imuOn).length ∧ t.loop = { s.loop with brownSeen := s.brown } ∧
      t.track.propagated = some (s.propagatingImu w.cutoff) ∧ t.flag fld_TF_STATUS_PROP_VALID = (s.propagatingImu w.cutoff).isSome ∧
      t.pins = s.pins ∧ t.power = s.power ∧ t.links = s.links ∧ t.solv = s.solv ∧ t.eth = s.eth) ∧
  (∀ (w : PeriodWork) (s : State), s.clsA.work = some w → s.swatchRuns 13 = true → w.propagated = true → w.published = false →
    ∃ t v, exec .estimatorUpdateDone s = .next t ∧ t.clsA.work = some v ∧ v.published = true ∧ v.period = w.period ∧ v.built = w.built ∧
      t.clsA.words = v.words ∧ t.pins = s.pins ∧ t.power = s.power ∧ t.eth = s.eth ∧
      (s.clsA.prior = none → v.words.length = 64 ∧ v.ready = true ∧ bit v.flags 1 = true ∧ t.problem 0 = s.problem 0)) ∧
  (∀ (w : PeriodWork) (s : State), s.clsA.work = some w → s.swatchRuns 13 = true → w.built = false →
    ∃ t v, exec .solverDeadline s = .next t ∧ t.clsA.work = some v ∧ v.ready = true ∧ t.pins = s.pins ∧ t.power = s.power ∧ t.eth = s.eth) ∧
  (∀ (ns : Nat) (w : PeriodWork) (s : State), s.clsA.work = some w → s.swatchRuns 3 = true → w.built = false → w.ready = true →
    ∃ t, exec (.frameBuild ns) s = .next t ∧ t.clsA.work = some { w with built := true } ∧
      t.clsA.held = heldAfter (s.settingsBytes 0) w.result s.clsA.held ∧ t.clsA.slot = s.clsA.slot ∧
      t.fld fld_CLA_WORST_READY_NS = min (2 ^ fld_CLA_WORST_READY_NS.width - 1) (max (s.fld fld_CLA_WORST_READY_NS) ns) ∧
      t.pins = s.pins ∧ t.solv = s.solv ∧ t.track = s.track ∧
      t.power = (if s.napPending = true ∧ s.loop.stopped = some .nap then { s.power with napLoopStopped := true } else s.power) ∧
      (frameCount (s.settingsBytes 0) = 1 → s.portUp (frameEntry (s.settingsBytes 0) 0).port = true → (s.mac (frameEntry (s.settingsBytes 0) 0).port).launch.length < 64 →
        ∃ f late, (t.mac (frameEntry (s.settingsBytes 0) 0).port).launch =
          (s.mac (frameEntry (s.settingsBytes 0) 0).port).launch ++ [⟨f, w.launch + nsStamp (frameEntry (s.settingsBytes 0) 0).delay, late, false⟩])) ∧
  (∀ (ns : Nat) (w : PeriodWork) (s : State), s.clsA.work = some w → w.built = true → exec (.frameBuild ns) s = .next s ∧ exec .solverDeadline s = .next s) ∧
  (∀ (ns : Nat) (s : State), s.clsA.work = none → exec .imuPropagationDone s = .next s ∧ exec .estimatorUpdateDone s = .next s ∧
    exec .solverDeadline s = .next s ∧ exec (.frameBuild ns) s = .next s) ∧
  (∀ (ns : Nat) (w : PeriodWork) (s : State), s.clsA.work = some w → (w.propagated = true → exec .imuPropagationDone s = .next s) ∧
    (w.propagated = false ∨ w.published = true → exec .estimatorUpdateDone s = .next s) ∧ (w.ready = false → exec (.frameBuild ns) s = .next s))

/-- R191 to R194, Table 5.5: the eight operations. A graph node hears its answers itself, any other agent as they are listed. -/
def Obligations.MarkerOperationsFollowTheTable : Prop :=
  (∀ (m : Fin 4096) (a : BitVec 16) (s : State), s.swatchRuns 8 = true → s.producer m = a.toNat → a ≠ 0 → (s.marker m).claimable = true →
    ∃ t, exec (.claim m a) s = .next t ∧ (t.marker m).state = .writing ∧ (t.marker m).gen = ((s.marker m).gen + 1) % 2 ^ 32 ∧ (t.marker m).progress = 0 ∧
      (∀ k, k ≠ m.val → t.marker k = s.marker k) ∧
      ((s.marker m).waiting = [] → (∀ g, (s.graph g).act = none) →
        t.marker m = { s.marker m with gen := ((s.marker m).gen + 1) % 2 ^ 32, state := .writing, progress := 0, claimed := s.vis.order + 1 } ∧
        t = { s with vis := { s.vis with markers := t.vis.markers, order := s.vis.order + 1 } })) ∧
  (∀ (m : Fin 4096) (a : BitVec 16) (n : Nat) (s : State), s.swatchRuns 8 = true → s.producer m = a.toNat → a ≠ 0 → (s.marker m).state = .writing →
    (s.marker m).progress ≤ n →
    ∃ t, exec (.advance m a n) s = .next t ∧ (t.marker m).progress = min 65535 n ∧ (t.marker m).gen = (s.marker m).gen ∧ (t.marker m).state = .writing ∧
      (∀ k, k ≠ m.val → t.marker k = s.marker k) ∧
      ((s.marker m).waiting = [] → t.marker m = { s.marker m with progress := min 65535 n } ∧ t = { s with vis := { s.vis with markers := t.vis.markers } })) ∧
  (∀ (m : Fin 4096) (a : BitVec 16) (s : State), s.swatchRuns 8 = true → s.producer m = a.toNat → a ≠ 0 → (s.marker m).state = .writing →
    ∃ t, exec (.publish m a) s = .next t ∧ (t.marker m).state = .published ∧ (t.marker m).gen = (s.marker m).gen ∧ (∀ k, k ≠ m.val → t.marker k = s.marker k) ∧
      ((s.marker m).waiting = [] → t.marker m = { s.marker m with state := .published, published := s.vis.order + 1 } ∧
        t = { s with vis := { s.vis with markers := t.vis.markers, order := s.vis.order + 1 }, links := t.links })) ∧
  (∀ (m : Fin 4096) (a : BitVec 16) (s : State), s.swatchRuns 8 = true → s.producer m = a.toNat → a ≠ 0 → (s.marker m).state = .writing →
    ∃ t, exec (.abandon m a) s = .next t ∧
      t.marker m = { s.marker m with state := .idle, readers := [], waiting := (s.marker m).waiting.filter (fun w => w.gen != (s.marker m).gen) } ∧
      (∀ k, k ≠ m.val → t.marker k = s.marker k) ∧
      ((s.marker m).interested = [] → t = { s with vis := { s.vis with markers := t.vis.markers } })) ∧
  (∀ (m : Fin 4096) (a : BitVec 16) (i n : Nat) (s : State), s.swatchRuns 8 = true → s.slotOf m a.toNat = some i → a.toNat / 4096 ≠ 2 →
    (s.marker m).state = .published →
    ∃ t, exec (.acquire m a (s.marker m).gen n) s = .next t ∧ t.marker m = (s.marker m).read i ∧ (t.marker m).readers.contains i = true ∧
      t.vis.answers = s.vis.answers ++ [(a.toNat, m.val, (s.marker m).gen, .ready)] ∧ (∀ k, k ≠ m.val → t.marker k = s.marker k) ∧
      t = { s with vis := { s.vis with markers := t.vis.markers, answers := t.vis.answers } }) ∧
  (∀ (m : Fin 4096) (a : BitVec 16) (i g n : Nat) (s : State), s.swatchRuns 8 = true → s.slotOf m a.toNat = some i → a.toNat / 4096 ≠ 2 → g < (s.marker m).gen →
    exec (.acquire m a g n) s = .next { s with vis := { s.vis with answers := s.vis.answers ++ [(a.toNat, m.val, g, .gone)] } }) ∧
  (∀ (m : Fin 4096) (a : BitVec 16) (i g n : Nat) (s : State), s.swatchRuns 8 = true → s.slotOf m a.toNat = some i → (s.marker m).gen < g →
    ∃ t, exec (.acquire m a g n) s = .next t ∧ t.marker m = { s.marker m with waiting := (s.marker m).waiting ++ [⟨i, g, n⟩] } ∧
      (∀ k, k ≠ m.val → t.marker k = s.marker k) ∧ t = { s with vis := { s.vis with markers := t.vis.markers } }) ∧
  (∀ (m : Fin 4096) (a : BitVec 16) (i : Nat) (s : State), s.swatchRuns 8 = true → s.slotOf m a.toNat = some i → (s.marker m).readers.contains i = true →
    ∃ t, exec (.release m a) s = .next t ∧ t.marker m = { s.marker m with readers := (s.marker m).readers.filter (· != i) } ∧
      (∀ k, k ≠ m.val → t.marker k = s.marker k) ∧ t = { s with vis := { s.vis with markers := t.vis.markers } }) ∧
  (∀ (m : Fin 4096) (a : BitVec 16) (i : Nat) (s : State), s.swatchRuns 8 = true → s.slotOf m a.toNat = some i → (s.marker m).readers.contains i = true →
    s.mayHold m i = true → (s.marker m).holds.length < 3 →
    ∃ t, exec (.hold m a) s = .next t ∧ t.marker m = { s.marker m with holds := (s.marker m).holds ++ [i] } ∧ (t.marker m).holds.length ≤ 3 ∧
      (∀ k, k ≠ m.val → t.marker k = s.marker k) ∧ t = { s with vis := { s.vis with markers := t.vis.markers } }) ∧
  (∀ (m : Fin 4096) (a : BitVec 16) (i : Nat) (s : State), s.swatchRuns 8 = true → s.slotOf m a.toNat = some i → s.mayHold m i = true → (s.marker m).holds ≠ [] →
    ∃ t, exec (.unhold m a) s = .next t ∧ (t.marker m).holds.length + 1 = (s.marker m).holds.length ∧
      t.marker m = { s.marker m with holds := (t.marker m).holds } ∧ (∀ k, k ≠ m.val → t.marker k = s.marker k) ∧
      t = { s with vis := { s.vis with markers := t.vis.markers } }) ∧
  (∀ (m : Fin 4096) (a : BitVec 16) (n : Nat) (s : State), s.swatchRuns 8 = true → s.producer m ≠ a.toNat →
    ∃ t, exec (.claim m a) s = .next t ∧ exec (.advance m a n) s = .next t ∧ exec (.publish m a) s = .next t ∧ exec (.abandon m a) s = .next t ∧
      t.fld fld_STITCH_ERR_PROTO = min (2 ^ fld_STITCH_ERR_PROTO.width - 1) (s.fld fld_STITCH_ERR_PROTO + 1) ∧ RegsBut [fld_STITCH_ERR_PROTO] s t ∧
      t = { s with regs := t.regs, integ := { s.integ with flits := s.integ.flits ++ [.report ⟨6, 8, BitVec.ofNat 32 (m + a.toNat * 2 ^ 16), s.stamp⟩] } }) ∧
  (∀ (m : Fin 4096) (a : BitVec 16) (g n : Nat) (s : State), s.swatchRuns 8 = true → s.slotOf m a.toNat = none →
    ∃ t, exec (.acquire m a g n) s = .next t ∧ exec (.release m a) s = .next t ∧ exec (.hold m a) s = .next t ∧ exec (.unhold m a) s = .next t ∧
      t.fld fld_STITCH_ERR_PROTO = min (2 ^ fld_STITCH_ERR_PROTO.width - 1) (s.fld fld_STITCH_ERR_PROTO + 1) ∧ RegsBut [fld_STITCH_ERR_PROTO] s t ∧
      t = { s with regs := t.regs, integ := { s.integ with flits := s.integ.flits ++ [.report ⟨6, 8, BitVec.ofNat 32 (m + a.toNat * 2 ^ 16), s.stamp⟩] } }) ∧
  (∀ (m : Fin 4096) (a : BitVec 16) (i n : Nat) (s : State), s.swatchRuns 8 = true → s.slotOf m a.toNat = some i → a.toNat / 4096 ≠ 2 →
    (s.marker m).state = .writing → n ≤ (s.marker m).progress →
    ∃ t, exec (.acquire m a (s.marker m).gen n) s = .next t ∧ t.marker m = (s.marker m).read i ∧
      t.vis.answers = s.vis.answers ++ [(a.toNat, m.val, (s.marker m).gen, .ready)] ∧ (∀ k, k ≠ m.val → t.marker k = s.marker k) ∧
      t = { s with vis := { s.vis with markers := t.vis.markers, answers := t.vis.answers } }) ∧
  (∀ (m : Fin 4096) (a : BitVec 16) (i n : Nat) (s : State), s.swatchRuns 8 = true → s.slotOf m a.toNat = some i → a.toNat / 4096 ≠ 2 →
    (s.marker m).state = .idle →
    exec (.acquire m a (s.marker m).gen n) s = .next { s with vis := { s.vis with answers := s.vis.answers ++ [(a.toNat, m.val, (s.marker m).gen, .gone)] } }) ∧
  (∀ (m : Fin 4096) (a : BitVec 16) (i n : Nat) (s : State), s.swatchRuns 8 = true → s.slotOf m a.toNat = some i →
    (s.marker m).state = .writing → (s.marker m).progress < n →
    ∃ t, exec (.acquire m a (s.marker m).gen n) s = .next t ∧ t.marker m = { s.marker m with waiting := (s.marker m).waiting ++ [⟨i, (s.marker m).gen, n⟩] } ∧
      (∀ k, k ≠ m.val → t.marker k = s.marker k) ∧ t = { s with vis := { s.vis with markers := t.vis.markers } }) ∧
  (∀ (m : Fin 4096) (a : BitVec 16) (i n : Nat) (s : State), s.swatchRuns 8 = true → s.slotOf m a.toNat = some i → a.toNat / 4096 = 2 →
    (s.marker m).state = .published →
    ∃ t, exec (.acquire m a (s.marker m).gen n) s = .next t ∧ t.marker m = (s.marker m).read i ∧ t.vis.answers = s.vis.answers ∧
      (∀ k, k ≠ m.val → t.marker k = s.marker k)) ∧
  (∀ (m : Fin 4096) (a : BitVec 16) (i n p : Nat) (s : State), s.swatchRuns 8 = true → s.producer m = a.toNat → a ≠ 0 → (s.marker m).state = .writing →
    (s.marker m).progress ≤ p → n ≤ p → p ≤ 65535 → (s.marker m).waiting = [⟨i, (s.marker m).gen, n⟩] → s.slotAgent m i / 4096 ≠ 2 →
    ∃ t, exec (.advance m a p) s = .next t ∧ (t.marker m).waiting = [] ∧ (t.marker m).readers.contains i = true ∧
      t.vis.answers = s.vis.answers ++ [(s.slotAgent m i, m.val, (s.marker m).gen, .ready)]) ∧
  (∀ (m : Fin 4096) (a : BitVec 16) (s : State), s.swatchRuns 8 = true → s.producer m = a.toNat → a ≠ 0 → (s.marker m).state = .writing →
    (∀ i ∈ (s.marker m).interested, s.slotAgent m i / 4096 ≠ 2) →
    ∃ t, exec (.abandon m a) s = .next t ∧
      t.vis.answers = s.vis.answers ++ (s.marker m).interested.map (fun i => (s.slotAgent m i, m.val, (s.marker m).gen, MarkerAnswer.void)) ∧
      t = { s with vis := { s.vis with markers := t.vis.markers, answers := t.vis.answers } }) ∧
  (∀ (m : Fin 4096) (a : BitVec 16) (c : Instr) (n : Nat) (s : State), s.swatchRuns 8 = true →
    (c = .claim m a ∧ (s.marker m).claimable = false ∨ c = .advance m a n ∧ ((s.marker m).state ≠ .writing ∨ n < (s.marker m).progress) ∨
      c = .publish m a ∧ (s.marker m).state ≠ .writing ∨ c = .abandon m a ∧ (s.marker m).state ≠ .writing) →
    ∃ t, exec c s = .next t ∧ t.fld fld_STITCH_ERR_PROTO = min (2 ^ fld_STITCH_ERR_PROTO.width - 1) (s.fld fld_STITCH_ERR_PROTO + 1) ∧ RegsBut [fld_STITCH_ERR_PROTO] s t ∧
      t = { s with regs := t.regs, integ := { s.integ with flits := s.integ.flits ++ [.report ⟨6, 8, BitVec.ofNat 32 (m + a.toNat * 2 ^ 16), s.stamp⟩] } }) ∧
  (∀ (m : Fin 4096) (a : BitVec 16) (i : Nat) (c : Instr) (s : State), s.swatchRuns 8 = true → s.slotOf m a.toNat = some i →
    (c = .release m a ∧ (s.marker m).readers.contains i = false ∨
      c = .hold m a ∧ (s.mayHold m i = false ∨ (s.marker m).readers.contains i = false ∨ 3 ≤ (s.marker m).holds.length) ∨
      c = .unhold m a ∧ (s.mayHold m i = false ∨ (s.marker m).holds = [])) →
    ∃ t, exec c s = .next t ∧ t.fld fld_STITCH_ERR_PROTO = min (2 ^ fld_STITCH_ERR_PROTO.width - 1) (s.fld fld_STITCH_ERR_PROTO + 1) ∧ RegsBut [fld_STITCH_ERR_PROTO] s t ∧
      t = { s with regs := t.regs, integ := { s.integ with flits := s.integ.flits ++ [.report ⟨6, 8, BitVec.ofNat 32 (m + a.toNat * 2 ^ 16), s.stamp⟩] } }) ∧
  (∀ (m : Fin 4096) (a : BitVec 16) (g n : Nat) (s : State), s.swatchRuns 8 = false →
    exec (.claim m a) s = .next s ∧ exec (.advance m a n) s = .next s ∧ exec (.publish m a) s = .next s ∧ exec (.abandon m a) s = .next s ∧
    exec (.acquire m a g n) s = .next s ∧ exec (.release m a) s = .next s ∧ exec (.hold m a) s = .next s ∧ exec (.unhold m a) s = .next s)

/-- R184 to R204: the camera commands. -/
def Obligations.CameraFramesFollowTheirPackets : Prop :=
  (∀ (p : Fin 12) (vc : Fin 16) (num : Nat) (tap : Tap) (n set : Nat) (s : State), s.portReceives p = true → s.streamAt p vc = some n → (s.stream n).frame = none →
    s.clockedGraphs n = [] → s.streamGraphs n = [] → s.groupOfStream n = none → s.setToClaim n = some set →
    ∃ t f, exec (.csiFrameStart p vc .clean num tap) s = .next t ∧ (t.stream n).frame = some f ∧ f.set = set ∧ f.start = s.tapTime tap ∧ f.lines = 0 ∧ f.embedded = 0 ∧
      t.fld (fld_STREAM_FRAMES_FRAMES n) = (s.fld (fld_STREAM_FRAMES_FRAMES n) + 1) % 2 ^ (fld_STREAM_FRAMES_FRAMES n).width ∧
      f.sequence = t.fld (fld_STREAM_FRAMES_FRAMES n) ∧ t.fld (fld_STREAM_FS_NS_NS n) = stampNs (s.tapTime tap) ∧
      Store.get none t.vis.portStart p = some (s.tapTime tap) ∧ (∀ k, k ≠ n → t.stream k = s.stream k)) ∧
  (∀ (p : Fin 12) (vc : Fin 16) (num : Nat) (tap : Tap) (n : Nat) (s : State), s.portReceives p = true → s.streamAt p vc = some n → (s.stream n).frame = none →
    s.clockedGraphs n = [] → s.streamGraphs n = [] → s.groupOfStream n = none → s.setToClaim n = none →
    ∃ t, exec (.csiFrameStart p vc .clean num tap) s = .next t ∧ (t.stream n).frame = none ∧
      t.fld (fld_STREAM_LOSS_NO_BUFFER n) = min (2 ^ (fld_STREAM_LOSS_NO_BUFFER n).width - 1) (s.fld (fld_STREAM_LOSS_NO_BUFFER n) + 1) ∧
      RegsBut [fld_STREAM_FRAMES_FRAMES n, whole (reg_STREAM_FS_SEC_LO n), whole (reg_STREAM_FS_SEC_LO n + 4), fld_STREAM_FS_NS_NS n, fld_STREAM_LOSS_NO_BUFFER n] s t ∧
      t.sram = s.sram) ∧
  (∀ (p : Fin 12) (vc : Fin 16) (dt : Nat) (b : List Byte) (n : Nat) (f : RxFrame) (s : State), s.portReceives p = true → s.streamAt p vc = some n →
    (s.commandClaims p vc = true → dt < 0x30) → dt = s.streamDt n → (s.stream n).frame = some f → b.length ≤ wireBytes dt (s.streamWidth n) →
    f.lines < s.streamHeight n → (f.lines + 1) % 16 ≠ 0 →
    ∃ t, exec (.csiLongPacket p vc dt .clean b true) s = .next t ∧ (t.stream n).frame = some { f with lines := f.lines + 1 } ∧
      t = { s with sram := t.sram, vis := { s.vis with streams := t.vis.streams } } ∧ (∀ k, k ≠ n → t.stream k = s.stream k) ∧
      (∀ k, (k < objectKey 8 3 (s.rawBase n f.set + f.lines * s.rawStride n) ∨
          objectKey 8 3 (s.rawBase n f.set + f.lines * s.rawStride n) + (storedLine dt b).length ≤ k) → Store.get 0 t.sram k = Store.get 0 s.sram k) ∧
      t.frameBytes (s.rawBase n f.set + f.lines * s.rawStride n) (storedLine dt b).length = storedLine dt b) ∧
  (∀ (p : Fin 12) (vc : Fin 16) (dt : Nat) (b : List Byte) (crc : Bool) (s : State), s.portReceives p = true → s.streamAt p vc = none →
    (s.commandClaims p vc = true → dt < 0x30 ∨ 0x37 < dt) →
    ∃ t, exec (.csiLongPacket p vc dt .clean b crc) s = .next t ∧
      t.fld (fld_CSI_RX_DROP_UNMATCHED p) = min (2 ^ (fld_CSI_RX_DROP_UNMATCHED p).width - 1) (s.fld (fld_CSI_RX_DROP_UNMATCHED p) + 1) ∧
      OnlyFields [fld_CSI_RX_DROP_UNMATCHED p] s t) ∧
  (∀ (p : Fin 12) (vc : Fin 16) (b : List Byte) (n : Nat) (s : State), s.portReceives p = true → s.streamAt p vc = some n → (s.stream n).frame ≠ none →
    (s.commandClaims p vc = true → s.streamDt n < 0x30 ∨ 0x37 < s.streamDt n) →
    ∃ t, exec (.csiLongPacket p vc (s.streamDt n) .clean b false) s = .next t ∧
      (t.stream n).frame = none ∧ t.flag (fld_STREAM_STATUS_BAD n) = true ∧
      t.fld (fld_CSI_RX_ERR_CRC_ERR p) = min (2 ^ (fld_CSI_RX_ERR_CRC_ERR p).width - 1) (s.fld (fld_CSI_RX_ERR_CRC_ERR p) + 1)) ∧
  (∀ (p : Fin 12) (vc : Fin 16) (b : List Byte) (n : Nat) (f : RxFrame) (s : State), s.portReceives p = true → s.streamAt p vc = some n → (s.stream n).frame = some f →
    b.length ≤ 4032 - f.embedded →
    ∃ t, exec (.csiEmbeddedPacket p vc .clean b true) s = .next t ∧ (t.stream n).frame = some { f with embedded := f.embedded + b.length } ∧
      t.frameBytes (s.setBase n f.set + 64 + f.embedded) b.length = b ∧ t = { s with sram := t.sram, vis := { s.vis with streams := t.vis.streams } } ∧
      (∀ k, k ≠ n → t.stream k = s.stream k)) ∧
  (∀ (p : Fin 12) (vc : Fin 16) (tap : Tap) (n : Nat) (f : RxFrame) (s : State), s.portReceives p = true → s.streamAt p vc = some n → (s.stream n).frame = some f →
    s.streamHeight n ≤ f.lines →
    ∃ t, exec (.csiFrameEnd p vc .clean tap) s = .next t ∧ (t.stream n).frame = none ∧ (t.stream n).published = some f.set ∧
      t.fld (fld_STREAM_STATUS_SET n) = f.set % 2 ^ (fld_STREAM_STATUS_SET n).width ∧ (∀ k, k ≠ n → t.stream k = s.stream k)) ∧
  (∀ (p : Fin 12) (vc : Fin 16) (tap : Tap) (n : Nat) (f : RxFrame) (s : State), s.portReceives p = true → s.streamAt p vc = some n → (s.stream n).frame = some f →
    f.lines < s.streamHeight n →
    ∃ t, exec (.csiFrameEnd p vc .clean tap) s = .next t ∧ (t.stream n).frame = none ∧ (t.stream n).published = (s.stream n).published ∧
      t.flag (fld_STREAM_STATUS_BAD n) = true ∧
      t.fld (fld_STREAM_LOSS_BAD n) = min (2 ^ (fld_STREAM_LOSS_BAD n).width - 1) (s.fld (fld_STREAM_LOSS_BAD n) + 1)) ∧
  (∀ (p : Fin 12) (s : State), s.portReceives p = true →
    ∃ t, exec (.csiPhyError p) s = .next t ∧
      t.fld (fld_CSI_RX_DROP_PHY_ERR p) = min (2 ^ (fld_CSI_RX_DROP_PHY_ERR p).width - 1) (s.fld (fld_CSI_RX_DROP_PHY_ERR p) + 1) ∧
      (∀ n, n < 12 → s.streamOn n = true → s.fld (fld_STREAM_CFG_PORT n) = p → (t.stream n).frame = none)) ∧
  (∀ (p : Fin 12) (data d : Word) (s : State), s.writeTaken (reg_CSI_RX_CTRL p) data = some d → d.getLsbD 0 = true →
    ∃ t, exec (.csiRxPortReset p data) s = .next t ∧ t.flag (fld_CSI_RX_STATUS_IN_RESET p) = true ∧
      (∀ n, n < 12 → s.streamOn n = true → s.fld (fld_STREAM_CFG_PORT n) = p → (t.stream n).frame = none)) ∧
  (∀ (g : Fin 6) (i : PairInstant) (s : State), s.groupOn g = true → (s.group g).instants.find? (fun i => !i.issued) = some i →
    ∃ t, exec (.instantIssue g) s = .next t ∧ (∀ j ∈ (t.group g).instants, j.number = i.number → j.issued = true ∧
        ∀ n ∈ s.members g, (∀ p ∈ i.parts, p.1 ≠ n) → n ∈ j.stale) ∧
      (t.group g).refs = (s.group g).refs ∧
      ((∀ k, k < 8 → s.fld (fld_GRAPH_CFG_TRIG k) = 1 → s.fld (fld_GRAPH_CFG_SRC k) ≠ g.val) → t.sram = s.sram ∧ t.mem = s.mem ∧
        RegsBut (fld_PAIR_STATUS_STALE g :: (List.range 12).map fld_STREAM_SLIP_STALE) s t)) ∧
  (∀ (g : Fin 6) (s : State), (s.groupOn g = false ∨ (s.group g).instants.find? (fun i => !i.issued) = none) → exec (.instantIssue g) s = .next s) ∧
  (∀ (p : Fin 12) (vc : Fin 16) (num : Nat) (tap : Tap) (n : Nat) (h : HeaderVerdict) (s : State), s.portReceives p = true → s.streamAt p vc = some n →
    s.clockedGraphs n = [] → s.streamGraphs n = [] → s.groupOfStream n = none → (s.stream n).frame ≠ none → h ≠ .uncorrectable →
    ∃ t, exec (.csiFrameStart p vc h num tap) s = .next t ∧ t.flag (fld_STREAM_STATUS_BAD n) = true ∧
      t.fld (fld_STREAM_LOSS_BAD n) = min (2 ^ (fld_STREAM_LOSS_BAD n).width - 1) (s.fld (fld_STREAM_LOSS_BAD n) + 1) ∧
      t.fld (fld_STREAM_FRAMES_FRAMES n) = (s.fld (fld_STREAM_FRAMES_FRAMES n) + 1) % 2 ^ (fld_STREAM_FRAMES_FRAMES n).width) ∧
  (∀ (p : Fin 12) (vc : Fin 16) (num : Nat) (tap : Tap) (s : State), s.portReceives p = true →
    ∃ t, exec (.csiFrameStart p vc .uncorrectable num tap) s = .next t ∧ t.vis.portStart = s.vis.portStart ∧
      (∀ n, n < 12 → s.streamOn n = true → s.fld (fld_STREAM_CFG_PORT n) = p → (t.stream n).frame = none)) ∧
  (∀ (p : Fin 12) (vc : Fin 16) (num : Nat) (tap : Tap) (s : State), s.portReceives p = true → s.streamAt p vc = none →
    ∃ t, exec (.csiFrameStart p vc .corrected num tap) s = .next t ∧ Store.get none t.vis.portStart p = some (s.tapTime tap) ∧
      t.fld (fld_CSI_RX_ERR_ECC_CORR p) = min (2 ^ (fld_CSI_RX_ERR_ECC_CORR p).width - 1) (s.fld (fld_CSI_RX_ERR_ECC_CORR p) + 1) ∧
      RegsBut [fld_CSI_RX_ERR_ECC_CORR p] s t) ∧
  (∀ (p : Fin 12) (vc : Fin 16) (dt : Nat) (h : HeaderVerdict) (num : Nat) (b : List Byte) (crc : Bool) (tap : Tap) (s : State), s.portReceives p = false →
    exec (.csiFrameStart p vc h num tap) s = .next (s.atTap tap) ∧ exec (.csiFrameEnd p vc h tap) s = .next (s.atTap tap) ∧
    exec (.csiLongPacket p vc dt h b crc) s = .next s ∧ exec (.csiEmbeddedPacket p vc h b crc) s = .next s ∧ exec (.csiPhyError p) s = .next s) ∧
  (∀ (p : Fin 12) (vc : Fin 16) (dt : Nat) (b : List Byte) (n : Nat) (f : RxFrame) (s : State), s.portReceives p = true → s.streamAt p vc = some n →
    (s.commandClaims p vc = true → dt < 0x30) → dt = s.streamDt n → (s.stream n).frame = some f → b.length ≤ wireBytes dt (s.streamWidth n) →
    f.lines < s.streamHeight n → (f.lines + 1) % 16 = 0 → f.lines < 65535 → s.producer (s.frameMarker n f.set) = ingestAgent n → ingestAgent n ≠ 0 →
    (s.marker (s.frameMarker n f.set)).state = .writing → (s.marker (s.frameMarker n f.set)).progress ≤ f.lines →
    ∃ t, exec (.csiLongPacket p vc dt .clean b true) s = .next t ∧ (t.stream n).frame = some { f with lines := f.lines + 1 } ∧
      (t.marker (s.frameMarker n f.set)).progress = f.lines + 1 ∧ (∀ k, k ≠ s.frameMarker n f.set → t.marker k = s.marker k)) ∧
  (∀ (p : Fin 12) (vc : Fin 16) (dt : Nat) (b : List Byte) (crc : Bool) (s : State), s.portReceives p = true → s.commandClaims p vc = true → 0x30 ≤ dt → dt ≤ 0x37 →
    exec (.csiLongPacket p vc dt .clean b crc) s = .next s) ∧
  (∀ (p : Fin 12) (vc : Fin 16) (dt : Nat) (b : List Byte) (crc : Bool) (n : Nat) (s : State), s.portReceives p = true → s.streamAt p vc = some n →
    (s.commandClaims p vc = true → dt < 0x30 ∨ 0x37 < dt) → dt ≠ s.streamDt n →
    ∃ t, exec (.csiLongPacket p vc dt .clean b crc) s = .next t ∧
      t.fld (fld_CSI_RX_DROP_UNMATCHED p) = min (2 ^ (fld_CSI_RX_DROP_UNMATCHED p).width - 1) (s.fld (fld_CSI_RX_DROP_UNMATCHED p) + 1) ∧
      OnlyFields [fld_CSI_RX_DROP_UNMATCHED p] s t) ∧
  (∀ (p : Fin 12) (vc : Fin 16) (b : List Byte) (n : Nat) (f : RxFrame) (s : State), s.portReceives p = true → s.streamAt p vc = some n → (s.stream n).frame = some f →
    f.embedded ≤ 4032 → 4032 - f.embedded < b.length →
    ∃ t, exec (.csiEmbeddedPacket p vc .clean b true) s = .next t ∧ (t.stream n).frame = some { f with embedded := 4032 } ∧
      bit (t.frameNat (s.setBase n f.set + 2) 2) 2 = true ∧
      t.frameBytes (s.setBase n f.set + 64 + f.embedded) (4032 - f.embedded) = b.take (4032 - f.embedded)) ∧
  (∀ (p : Fin 12) (vc : Fin 16) (b : List Byte) (crc : Bool) (s : State), s.portReceives p = true → s.streamAt p vc = none →
    ∃ t, exec (.csiEmbeddedPacket p vc .clean b crc) s = .next t ∧
      t.fld (fld_CSI_RX_DROP_UNMATCHED p) = min (2 ^ (fld_CSI_RX_DROP_UNMATCHED p).width - 1) (s.fld (fld_CSI_RX_DROP_UNMATCHED p) + 1) ∧
      OnlyFields [fld_CSI_RX_DROP_UNMATCHED p] s t)

/-- R213 to R234: the commands of the frame graph sequencer. -/
def Obligations.GraphActivationsRunAndEnd : Prop :=
  (∀ (g : Fin 8) (a : Activation) (s : State), s.swatchRuns 8 = true → (s.graph g).act = some a →
    ∃ t, exec (.activationDeadline g) s = .next t ∧ (t.graph g).act = none ∧ (t.graph g).kept = (s.graph g).kept ∧
      t.flag (fld_GRAPH_STATUS_DROP g) = true ∧ t.flag (fld_GRAPH_STATUS_RUNNING g) = false ∧
      t.fld (fld_GRAPH_LOSS_DROPPED g) = min (2 ^ (fld_GRAPH_LOSS_DROPPED g).width - 1) (s.fld (fld_GRAPH_LOSS_DROPPED g) + 1) ∧
      t.sram = s.sram ∧ t.pins = s.pins) ∧
  (∀ (g : Fin 8) (s : State), (s.graph g).act = none → (∀ u ∈ s.track.updates, u.graph = g.val → (s.graph g).count ≤ u.activation + 1) →
    exec (.activationDeadline g) s = .next s) ∧
  (∀ (g : Fin 8) (a : Activation) (n m c : Nat) (r : NodeRun) (s : State), s.swatchRuns 8 = true → (s.graph g).act = some a → a.nextNode = some n →
    s.skipCode g n a (s.nodeDesc g n) = some c → m ≠ n → a.nodes[m]? = some r → r.isEnded = false →
    ∃ t, exec (.nodeIssue g) s = .next t ∧ (t.node? g n).map (·.phase) = some (.ended c) ∧ t.node? g m = some r ∧
      t.fld (fld_GRAPH_NODES_SKIPPED g) = min (2 ^ (fld_GRAPH_NODES_SKIPPED g).width - 1) (s.fld (fld_GRAPH_NODES_SKIPPED g) + 1) ∧
      t.sram = s.sram ∧ t.mem = s.mem) ∧
  (∀ (g : Fin 8) (a : Activation) (n : Nat) (s : State), s.swatchRuns 8 = true → (s.graph g).act = some a → a.nextNode = some n →
    s.skipCode g n a (s.nodeDesc g n) = none → s.producersClaimed g n (s.nodeDesc g n) = true →
    (s.nodeDesc g n).type ≠ nodeKeep ∨ keepDue (s.nodeDesc g n) a.number = true →
    ∃ t r, exec (.nodeIssue g) s = .next t ∧ t.node? g n = some r ∧ r.phase = .queued ∧ r.outputs = List.replicate 4 none ∧
      ((∀ i, i < 4 → (s.nodeDesc g n).asksAtIssue i = false) → r.inputs = (List.range 4).map (s.fixInput g n a (s.nodeDesc g n))) ∧
      t.sram = s.sram ∧ t.mem = s.mem) ∧
  (∀ (g : Fin 8) (node : Fin 64) (m : Nat) (r q : NodeRun) (s : State), s.swatchRuns 8 = true → s.node? g node = some r → r.isEnded = false →
    r.verdict = none → r.done = true → m ≠ node.val → s.node? g m = some q → q.isEnded = false →
    ∃ t, exec (.nodeEnd g node) s = .next t ∧ (t.node? g node).map (·.phase) = some (.ended codeDone) ∧ t.node? g m = some q ∧
      t.reg (reg_GRAPH_NODES g) = s.reg (reg_GRAPH_NODES g) ∧ t.sram = s.sram ∧ t.mem = s.mem) ∧
  (∀ (g : Fin 8) (node : Fin 64) (c : Nat) (r : NodeRun) (s : State), s.swatchRuns 8 = true → s.node? g node = some r → r.isEnded = false →
    r.verdict = some c → isFail c = true → c < 16 →
    ∃ t, exec (.nodeEnd g node) s = .next t ∧ (∀ q, t.node? g node = some q → q.phase = .ended c) ∧
      t.fld (fld_GRAPH_NODES_FAILED g) = min (2 ^ (fld_GRAPH_NODES_FAILED g).width - 1) (s.fld (fld_GRAPH_NODES_FAILED g) + 1) ∧
      t.flag (fld_GRAPH_STATUS_NODE_FAIL g) = true ∧ t.fld (fld_GRAPH_LAST_NODE g) = node ∧ t.fld (fld_GRAPH_LAST_CODE g) = c ∧
      (.report ⟨faultGraphNode, 8, BitVec.ofNat 32 (node + g * 2 ^ 8 + c * 2 ^ 12), s.stamp⟩ ∈ t.integ.flits)) ∧
  (∀ (g : Fin 8) (node : Fin 64) (m slot : Nat) (r q : NodeRun) (v : NodeInput) (s : State), s.swatchRuns 8 = true →
    (s.nodeDesc g node).type = nodeKeep → s.node? g node = some r → r.phase = .queued → r.verdict = none → (r.inputs[0]?).join = some v → v.awaits = false →
    (s.marker v.marker).state = .published → (s.marker v.marker).gen = v.gen → s.slotOf v.marker (nodeAgent g node) = some slot →
    s.mayHold v.marker slot = true → (s.marker v.marker).holds.length < 3 → Store.get none (s.graph g).kept ((s.nodeDesc g node).inBuf 0) = none →
    m ≠ node.val → s.node? g m = some q → q.isEnded = false →
    ∃ t, exec (.keepRun g node) s = .next t ∧ (t.node? g node).map (·.phase) = some (.ended codeDone) ∧ t.node? g m = some q ∧
      Store.get none (t.graph g).kept ((s.nodeDesc g node).inBuf 0) = some (v.copy, v.marker, v.gen) ∧
      (t.marker v.marker).holds = (s.marker v.marker).holds ++ [slot] ∧ (t.marker v.marker).readers.contains slot = false ∧
      t.sram = s.sram ∧ t.mem = s.mem) ∧
  (∀ (g : Fin 8) (s : State), s.swatchRuns 8 = true →
    ∃ t, exec (.activationDeadline g) s = .next t ∧ ∀ u ∈ t.track.updates, u.graph = g.val → (s.graph g).count ≤ u.activation + 1) ∧
  (∀ (g : Fin 8) (node : Fin 64) (s : State), s.swatchRuns 8 = false →
    exec (.activationDeadline g) s = .next s ∧ exec (.nodeIssue g) s = .next s ∧ exec (.nodeEnd g node) s = .next s ∧ exec (.keepRun g node) s = .next s) ∧
  (∀ (g : Fin 8) (s : State), ((s.graph g).act.bind Activation.nextNode).isNone = true → exec (.nodeIssue g) s = .next s) ∧
  (∀ (g : Fin 8) (a : Activation) (n : Nat) (s : State), (s.graph g).act = some a → a.nextNode = some n → s.skipCode g n a (s.nodeDesc g n) = none →
    s.producersClaimed g n (s.nodeDesc g n) = false → exec (.nodeIssue g) s = .next s) ∧
  (∀ (g : Fin 8) (a : Activation) (n m : Nat) (r : NodeRun) (s : State), s.swatchRuns 8 = true → (s.graph g).act = some a → a.nextNode = some n →
    s.skipCode g n a (s.nodeDesc g n) = none → s.producersClaimed g n (s.nodeDesc g n) = true → (s.nodeDesc g n).type = nodeKeep →
    keepDue (s.nodeDesc g n) a.number = false → m ≠ n → a.nodes[m]? = some r → r.isEnded = false →
    ∃ t, exec (.nodeIssue g) s = .next t ∧ (t.node? g n).map (·.phase) = some (.ended codeDone) ∧ t.node? g m = some r ∧
      (t.graph g).kept = (s.graph g).kept ∧ t.reg (reg_GRAPH_NODES g) = s.reg (reg_GRAPH_NODES g) ∧ t.sram = s.sram ∧ t.mem = s.mem) ∧
  (∀ (g : Fin 8) (node : Fin 64) (s : State), (∀ r, s.node? g node = some r → r.isEnded = true ∨ (r.verdict = none ∧ r.done = false)) →
    exec (.nodeEnd g node) s = .next s) ∧
  (∀ (g : Fin 8) (node : Fin 64) (a : Activation) (r : NodeRun) (s : State), s.swatchRuns 8 = true → (s.graph g).act = some a → s.node? g node = some r →
    r.isEnded = false → r.verdict = none → r.done = true → (List.range a.nodes.length).all (fun k => k == node.val || ((a.nodes[k]?).map NodeRun.isEnded).getD true) = true →
    ∃ t, exec (.nodeEnd g node) s = .next t ∧ (t.graph g).act = none ∧ (t.graph g).kept = (s.graph g).kept ∧ (t.graph g).count = (s.graph g).count ∧
      t.fld (fld_GRAPH_WORST_WORST_US g) =
        min (2 ^ (fld_GRAPH_WORST_WORST_US g).width - 1) (max (s.fld (fld_GRAPH_WORST_WORST_US g)) ((s.stamp - a.trigger) / usStamp 1))) ∧
  (∀ (g : Fin 8) (node : Fin 64) (e m : Nat) (r q : NodeRun) (s : State), s.swatchRuns 8 = true → s.node? g node = some r → r.isEnded = false →
    r.verdict = none → r.done = true → r.engine = some e → (e = 8 ∨ e = 9) → m ≠ node.val → s.node? g m = some q → q.isEnded = false →
    ∃ t, exec (.nodeEnd g node) s = .next t ∧ t.fld (fld_SGM_STATUS_LAST_CODE (e - 8)) = codeDone ∧ t.sgmStore (e - 8) = SgmStore.reset ∧
      t.fld (fld_SGM_JOBS_JOBS (e - 8)) = (s.fld (fld_SGM_JOBS_JOBS (e - 8)) + 1) % 2 ^ (fld_SGM_JOBS_JOBS (e - 8)).width) ∧
  (∀ (g : Fin 8) (node : Fin 64) (m slot c0 m0 g0 s0 : Nat) (r q : NodeRun) (v : NodeInput) (s : State), s.swatchRuns 8 = true →
    (s.nodeDesc g node).type = nodeKeep → s.node? g node = some r → r.phase = .queued → r.verdict = none → (r.inputs[0]?).join = some v → v.awaits = false →
    (s.marker v.marker).state = .published → (s.marker v.marker).gen = v.gen → s.slotOf v.marker (nodeAgent g node) = some slot →
    s.mayHold v.marker slot = true → (s.marker v.marker).holds.length < 3 →
    Store.get none (s.graph g).kept ((s.nodeDesc g node).inBuf 0) = some (c0, m0, g0) → m0 ≠ v.marker → s.slotOf m0 (nodeAgent g node) = some s0 →
    s.mayHold m0 s0 = true → (s.marker m0).holds ≠ [] → m ≠ node.val → s.node? g m = some q → q.isEnded = false →
    ∃ t, exec (.keepRun g node) s = .next t ∧ (t.node? g node).map (·.phase) = some (.ended codeDone) ∧ t.node? g m = some q ∧
      Store.get none (t.graph g).kept ((s.nodeDesc g node).inBuf 0) = some (v.copy, v.marker, v.gen) ∧
      (t.marker v.marker).holds = (s.marker v.marker).holds ++ [slot] ∧ (t.marker m0).holds = dropHold s0 (s.marker m0).holds ∧
      t.sram = s.sram ∧ t.mem = s.mem) ∧
  (∀ (g : Fin 8) (node : Fin 64) (m slot : Nat) (r q : NodeRun) (v : NodeInput) (s : State), s.swatchRuns 8 = true →
    (s.nodeDesc g node).type = nodeKeep → s.node? g node = some r → r.phase = .queued → r.verdict = none → (r.inputs[0]?).join = some v → v.awaits = false →
    (s.marker v.marker).state = .published → (s.marker v.marker).gen = v.gen → s.slotOf v.marker (nodeAgent g node) = some slot →
    (s.mayHold v.marker slot = false ∨ 3 ≤ (s.marker v.marker).holds.length) → m ≠ node.val → s.node? g m = some q → q.isEnded = false →
    ∃ t, exec (.keepRun g node) s = .next t ∧ (t.node? g node).map (·.phase) = some (.ended codeDone) ∧ t.node? g m = some q ∧
      (t.graph g).kept = (s.graph g).kept ∧ (t.marker v.marker).holds = (s.marker v.marker).holds ∧
      t.fld fld_STITCH_ERR_PROTO = min (2 ^ fld_STITCH_ERR_PROTO.width - 1) (s.fld fld_STITCH_ERR_PROTO + 1)) ∧
  (∀ (g : Fin 8) (node : Fin 64) (m slot : Nat) (r q : NodeRun) (v : NodeInput) (s : State), s.swatchRuns 8 = true →
    (s.nodeDesc g node).type = nodeKeep → s.node? g node = some r → r.phase = .queued → r.verdict = none → (r.inputs[0]?).join = some v → v.awaits = false →
    v.gen < (s.marker v.marker).gen → s.slotOf v.marker (nodeAgent g node) = some slot → m ≠ node.val → s.node? g m = some q → q.isEnded = false →
    ∃ t, exec (.keepRun g node) s = .next t ∧ (t.node? g node).map (·.phase) = some (.ended codeGone) ∧
      (t.graph g).kept = (s.graph g).kept ∧ (t.marker v.marker).holds = (s.marker v.marker).holds ∧
      t.fld (fld_GRAPH_NODES_FAILED g) = min (2 ^ (fld_GRAPH_NODES_FAILED g).width - 1) (s.fld (fld_GRAPH_NODES_FAILED g) + 1)) ∧
  (∀ (g : Fin 8) (node : Fin 64) (r : NodeRun) (s : State), s.node? g node = some r →
    ((s.nodeDesc g node).type ≠ nodeKeep ∨ r.phase ≠ .queued ∨ (r.inputs[0]?).join = none ∨
      ∃ v, (r.inputs[0]?).join = some v ∧ (v.awaits = true ∨ (s.marker v.marker).judge v.gen 65536 = none)) → exec (.keepRun g node) s = .next s)

/-- R218 to R254: the commands of the vision engines. -/
def Obligations.VisionEnginesWorkInUnits : Prop :=
  (∀ (e : Fin 10) (g n : Nat) (s : State), s.swatchRuns (engineSwatch e) = true → s.swatchRuns 8 = true → s.nextStart e = some (g, n) →
    ∃ t r, exec (.nodeStart e) s = .next t ∧ t.node? g n = some r ∧ r.phase = .running ∧ r.engine = some e.val ∧ r.start = s.stamp ∧
      t.sram = s.sram ∧ t.mem = s.mem) ∧
  (∀ (e : Fin 8) (ns g n : Nat) (r : NodeRun) (s : State), s.swatchRuns (engineSwatch e) = true → s.swatchRuns 8 = true → s.nextUnit e = some (g, n) →
    s.node? g n = some r → s.engineError (s.nodeDesc g n) r = true →
    ∃ t q, exec (.engineUnitDone e ns) s = .next t ∧ t.node? g n = some q ∧ q.verdict = some codeEngineErr ∧ q.done = false ∧
      t.fld (fld_ENG_JOBS_JOBS e) = s.fld (fld_ENG_JOBS_JOBS e) ∧ t.sram = s.sram) ∧
  (∀ (e : Fin 8) (ns g n : Nat) (r : NodeRun) (s : State), s.swatchRuns (engineSwatch e) = true → s.swatchRuns 8 = true → s.nextUnit e = some (g, n) →
    s.node? g n = some r → s.engineError (s.nodeDesc g n) r = false → (s.nodeDesc g n).streaming = false →
    ∃ t q, exec (.engineUnitDone e ns) s = .next t ∧ t.node? g n = some q ∧ q.done = true ∧ q.phase = .running ∧
      t.fld (fld_ENG_JOBS_JOBS e) = (s.fld (fld_ENG_JOBS_JOBS e) + 1) % 2 ^ (fld_ENG_JOBS_JOBS e).width) ∧
  (∀ (e : Fin 8) (ns g n : Nat) (r : NodeRun) (s : State), s.swatchRuns (engineSwatch e) = true → s.swatchRuns 8 = true → s.nextUnit e = some (g, n) →
    s.node? g n = some r → s.engineError (s.nodeDesc g n) r = false → (s.nodeDesc g n).streaming = true →
    bandEnd r.lines (s.bandHeight (s.nodeDesc g n) r) < s.bandHeight (s.nodeDesc g n) r →
    ∃ t q, exec (.engineUnitDone e ns) s = .next t ∧ t.node? g n = some q ∧ q.done = false ∧ q.phase = .running ∧
      q.lines = bandEnd r.lines (s.bandHeight (s.nodeDesc g n) r) ∧ t.fld (fld_ENG_JOBS_JOBS e) = s.fld (fld_ENG_JOBS_JOBS e)) ∧
  (∀ (e : Fin 2) (ns g n : Nat) (r : NodeRun) (s : State), s.swatchRuns 11 = true → s.swatchRuns 8 = true → s.sgmNode e = some (g, n, r) →
    r.verdict = none → r.done = false → r.passReady (s.nodeDesc g n).streaming = true → s.shortInput (s.nodeDesc g n) r 0 = false →
    s.shortInput (s.nodeDesc g n) r 1 = false → s.node? g n = some r →
    ∃ t q, exec (.sgmPassDone e ns) s = .next t ∧ t.node? g n = some q ∧ q.phase = .running ∧
      (r.pass < 2 → q.pass = r.pass + 1 ∧ q.lines = r.lines ∧ q.done = false ∧ t.sram = s.sram) ∧
      (2 ≤ r.pass → (s.bufGray (s.outEntry (s.nodeDesc g n) 0) (r.outCopy 0) 0).height ≤ r.lines + (s.nodeDesc g n).param 0x10 2 → q.done = true) ∧
      (2 ≤ r.pass → r.lines + (s.nodeDesc g n).param 0x10 2 < (s.bufGray (s.outEntry (s.nodeDesc g n) 0) (r.outCopy 0) 0).height →
        q.done = false ∧ q.pass = 0 ∧ q.lines = r.lines + (s.nodeDesc g n).param 0x10 2) ∧
      t.fld (fld_SGM_JOBS_JOBS e) = s.fld (fld_SGM_JOBS_JOBS e)) ∧
  (∀ (r : Fin 2) (job : List Byte) (s : State), s.swatchRuns 10 = true → 64 ≤ s.vis.verifier.length →
    ∃ t, exec (.verifierJobSubmit r job) s = .next t ∧ t.fld fld_VER_LOSS_REFUSED = min (2 ^ fld_VER_LOSS_REFUSED.width - 1) (s.fld fld_VER_LOSS_REFUSED + 1) ∧
      RegsBut [fld_VER_LOSS_REFUSED] s t ∧ t = { s with regs := t.regs, vis := { s.vis with verifierTold := s.vis.verifierTold ++ [(r.val, field job 0 4, .refused)] } }) ∧
  (∀ (r : Fin 2) (job : List Byte) (s : State), s.swatchRuns 10 = true → s.vis.verifier = [] → s.vis.verifying = none → s.admitsClassC = true →
    ∃ t, exec (.verifierJobSubmit r job) s = .next t ∧
      t = { s with vis := { s.vis with jobs := s.vis.jobs + 1, verifying := some ⟨r, job, s.vis.jobs + 1⟩ } }) ∧
  (∀ (r : Fin 2) (job : List Byte) (j : VerifierJob) (s : State), s.swatchRuns 10 = true → s.vis.verifier.length < 64 → s.vis.verifying = some j →
    ∃ t, exec (.verifierJobSubmit r job) s = .next t ∧
      t = { s with vis := { s.vis with jobs := s.vis.jobs + 1, verifier := insertBy jobBefore ⟨r, job, s.vis.jobs + 1⟩ s.vis.verifier } }) ∧
  (∀ (ns : Nat) (j : VerifierJob) (s : State), s.swatchRuns 10 = true → s.vis.verifying = some j → s.vis.verifier = [] → j.requester = 0 → j.bad = true →
    ∃ t, exec (.verifierJobDone ns) s = .next t ∧ t.vis.verifying = none ∧ t.vis.verifierResult = some (0, j.result verBadJob 0 0 0 0 []) ∧
      t.fld (fld_ENG_JOBS_JOBS 8) = (s.fld (fld_ENG_JOBS_JOBS 8) + 1) % 2 ^ (fld_ENG_JOBS_JOBS 8).width ∧
      RegsBut [fld_ENG_JOBS_JOBS 8, fld_ENG_BUSY_BUSY_US 8] s t) ∧
  (∀ (ns : Nat) (j : VerifierJob) (s : State), s.swatchRuns 10 = true → s.vis.verifying = some j → s.vis.verifier = [] → j.requester = 0 → j.bad = false →
    (s.readRecords j).1 = true → (s.matches_ j).length < j.at_ 0x0A 2 →
    ∃ t, exec (.verifierJobDone ns) s = .next t ∧ t.vis.verifying = none ∧
      t.vis.verifierResult = some (0, j.result verFewMatches (s.matches_ j).length 0 0 0 []) ∧
      t.fld fld_VER_RESULTS_REJECTED = min (2 ^ fld_VER_RESULTS_REJECTED.width - 1) (s.fld fld_VER_RESULTS_REJECTED + 1) ∧
      RegsBut [fld_ENG_JOBS_JOBS 8, fld_ENG_BUSY_BUSY_US 8, fld_VER_RESULTS_REJECTED] s t ∧ t.sram = s.sram ∧ t.mem.bytes = s.mem.bytes) ∧
  (∀ (j : VerifierJob) (s : State), s.vis.verifying = some j → s.vis.verifier = [] → j.requester = 0 →
    ∃ t, exec .verifierDeadline s = .next t ∧ t.vis.verifying = none ∧ t.vis.verifierResult = some (0, j.result verDeadline 0 0 0 0 []) ∧
      t.fld fld_VER_LOSS_DEADLINE = min (2 ^ fld_VER_LOSS_DEADLINE.width - 1) (s.fld fld_VER_LOSS_DEADLINE + 1) ∧
      RegsBut [fld_VER_LOSS_DEADLINE] s t ∧ t.mem = s.mem) ∧
  (∀ (e : Fin 10) (s : State), (s.swatchRuns (engineSwatch e) = false ∨ s.swatchRuns 8 = false ∨ s.nextStart e = none) → exec (.nodeStart e) s = .next s) ∧
  (∀ (e : Fin 8) (ns : Nat) (s : State), (s.swatchRuns (engineSwatch e) = false ∨ s.swatchRuns 8 = false ∨ s.nextUnit e = none) →
    exec (.engineUnitDone e ns) s = .next s) ∧
  (∀ (e : Fin 8) (ns g n : Nat) (r : NodeRun) (s : State), s.swatchRuns (engineSwatch e) = true → s.swatchRuns 8 = true → s.nextUnit e = some (g, n) →
    s.node? g n = some r → s.engineError (s.nodeDesc g n) r = false → (s.nodeDesc g n).streaming = true →
    s.bandHeight (s.nodeDesc g n) r ≤ bandEnd r.lines (s.bandHeight (s.nodeDesc g n) r) →
    ∃ t q, exec (.engineUnitDone e ns) s = .next t ∧ t.node? g n = some q ∧ q.done = true ∧ q.phase = .running ∧
      t.fld (fld_ENG_JOBS_JOBS e) = (s.fld (fld_ENG_JOBS_JOBS e) + 1) % 2 ^ (fld_ENG_JOBS_JOBS e).width) ∧
  (∀ (e : Fin 2) (ns : Nat) (s : State), (s.swatchRuns 11 = false ∨ s.swatchRuns 8 = false ∨ s.sgmNode e = none) → exec (.sgmPassDone e ns) s = .next s) ∧
  (∀ (e : Fin 2) (ns g n : Nat) (r : NodeRun) (s : State), s.sgmNode e = some (g, n, r) →
    (r.verdict ≠ none ∨ r.done = true ∨ r.passReady (s.nodeDesc g n).streaming = false) → exec (.sgmPassDone e ns) s = .next s) ∧
  (∀ (e : Fin 2) (ns g n : Nat) (r : NodeRun) (s : State), s.swatchRuns 11 = true → s.swatchRuns 8 = true → s.sgmNode e = some (g, n, r) →
    r.verdict = none → r.done = false → r.passReady (s.nodeDesc g n).streaming = true →
    (s.shortInput (s.nodeDesc g n) r 0 = true ∨ s.shortInput (s.nodeDesc g n) r 1 = true) → s.node? g n = some r →
    ∃ t q, exec (.sgmPassDone e ns) s = .next t ∧ t.node? g n = some q ∧ q.verdict = some codeEngineErr ∧ q.done = false ∧
      t.sgmStore e = SgmStore.reset ∧ t.sram = s.sram) ∧
  (∀ (r : Fin 2) (job : List Byte) (s : State), s.swatchRuns 10 = false →
    exec (.verifierJobSubmit r job) s = .next { s with vis := { s.vis with verifierTold := s.vis.verifierTold ++ [(r.val, field job 0 4, .partnerReset)] } }) ∧
  (∀ (r : Fin 2) (job : List Byte) (s : State), s.swatchRuns 10 = true → s.vis.verifier.length < 64 → s.admitsClassC = false →
    exec (.verifierJobSubmit r job) s =
      .next { s with vis := { s.vis with jobs := s.vis.jobs + 1, verifier := insertBy jobBefore ⟨r, job, s.vis.jobs + 1⟩ s.vis.verifier } }) ∧
  (∀ (r : Fin 2) (job : List Byte) (j : VerifierJob) (l : List VerifierJob) (s : State), s.swatchRuns 10 = true → s.vis.verifier.length < 64 →
    s.vis.verifying = none → s.admitsClassC = true → insertBy jobBefore ⟨r, job, s.vis.jobs + 1⟩ s.vis.verifier = j :: l →
    exec (.verifierJobSubmit r job) s = .next { s with vis := { s.vis with jobs := s.vis.jobs + 1, verifying := some j, verifier := l } }) ∧
  (∀ (ns : Nat) (s : State), (s.swatchRuns 10 = false ∨ s.vis.verifying = none) → exec (.verifierJobDone ns) s = .next s) ∧
  (∀ (s : State), s.vis.verifying = none → exec .verifierDeadline s = .next s) ∧
  (∀ (ns : Nat) (j : VerifierJob) (s : State), s.swatchRuns 10 = true → s.vis.verifying = some j →
    ∃ t b, exec (.verifierJobDone ns) s = .next t ∧ t.vis.verifierResult = some (j.requester, b) ∧ field b 0 4 = j.at_ 0 4 ∧
      (s.vis.verifier = [] → t.vis.verifying = none) ∧
      t.fld (fld_ENG_JOBS_JOBS 8) = (s.fld (fld_ENG_JOBS_JOBS 8) + 1) % 2 ^ (fld_ENG_JOBS_JOBS 8).width) ∧
  (∀ (ns : Nat) (j k : VerifierJob) (l : List VerifierJob) (s : State), s.swatchRuns 10 = true → s.admitsClassC = true → s.vis.verifying = some j →
    s.vis.verifier = k :: l → j.bad = true →
    ∃ t, exec (.verifierJobDone ns) s = .next t ∧ t.vis.verifying = some k ∧ t.vis.verifier = l ∧
      t.vis.verifierResult = some (j.requester, j.result verBadJob 0 0 0 0 [])) ∧
  (∀ (ns : Nat) (j : VerifierJob) (s : State), s.swatchRuns 10 = true → s.vis.verifying = some j → s.vis.verifier = [] → j.requester = 0 → j.bad = false →
    (s.readRecords j).1 = false →
    ∃ t, exec (.verifierJobDone ns) s = .next t ∧ t.vis.verifying = none ∧ t.vis.verifierResult = some (0, j.result verObjectErr 0 0 0 0 []) ∧
      t.reg reg_VER_RESULTS = s.reg reg_VER_RESULTS ∧ t.sram = s.sram ∧ t.mem.bytes = s.mem.bytes) ∧
  (∀ (ns : Nat) (j : VerifierJob) (s : State), s.swatchRuns 10 = true → s.vis.verifying = some j → s.vis.verifier = [] → j.requester = 0 → j.bad = false →
    (s.readRecords j).1 = true → j.at_ 0x0A 2 ≤ (s.matches_ j).length →
    ∃ t b, exec (.verifierJobDone ns) s = .next t ∧ t.vis.verifying = none ∧ t.vis.verifierResult = some (0, b) ∧ field b 8 2 = (s.matches_ j).length ∧
      (field b 4 1 = verAccept ∧ j.at_ 0x0A 2 ≤ field b 0x0A 2 ∧ j.at_ 9 1 * (s.matches_ j).length ≤ 256 * field b 0x0A 2 ∧
          t.fld fld_VER_RESULTS_ACCEPTED = min (2 ^ fld_VER_RESULTS_ACCEPTED.width - 1) (s.fld fld_VER_RESULTS_ACCEPTED + 1) ∧
          t.fld fld_VER_RESULTS_REJECTED = s.fld fld_VER_RESULTS_REJECTED ∨
        (field b 4 1 = verFewInliers ∨ field b 4 1 = verDegenerate) ∧ slice b 16 112 = List.replicate 112 0 ∧
          t.fld fld_VER_RESULTS_REJECTED = min (2 ^ fld_VER_RESULTS_REJECTED.width - 1) (s.fld fld_VER_RESULTS_REJECTED + 1) ∧
          t.fld fld_VER_RESULTS_ACCEPTED = s.fld fld_VER_RESULTS_ACCEPTED) ∧ t.sram = s.sram ∧ t.mem.bytes = s.mem.bytes) ∧
  (∀ (j : VerifierJob) (c n : Nat) (l : List Nat) (w : NewNode) (s : State), s.vis.verifying = some j → s.vis.verifier = [] → j.requester = 1 →
    s.map.candidates = c :: l → s.map.last = some (n, w) →
    ∃ t, exec .verifierDeadline s = .next t ∧ t.vis.verifying = none ∧ t.vis.verifierResult = some (1, j.result verDeadline 0 0 0 0 []) ∧
      t.map.candidates = l ∧ t.map.admitted = s.map.admitted)

/-- R275 to R298: the commands of the neural fabric. -/
def Obligations.NeuralRequestsPassTheFabric : Prop :=
  (∀ (g : Fin 8) (node : Fin 64) (a : Activation) (r : NodeRun) (s : State), s.swatchRuns 8 = true → (s.graph g).act = some a → s.node? g node = some r →
    (s.nodeDesc g node).type = nodeNeural → r.phase = .queued → r.verdict = none → s.hasRequest g node = false → 64 ≤ s.neural.queue.length →
    ∃ t q, exec (.neuralRequestArrive g node) s = .next t ∧ t.node? g node = some q ∧ q.verdict = some codeNeuralRefused ∧ t.neural = s.neural ∧
      t.fld fld_NE_REQ_LOSS_REFUSED = min (2 ^ fld_NE_REQ_LOSS_REFUSED.width - 1) (s.fld fld_NE_REQ_LOSS_REFUSED + 1) ∧
      t.fld fld_NE_REFUSE_LAST_CAUSE = 1 ∧ t.fld fld_NE_REFUSE_LAST_GRAPH = g ∧ t.fld fld_NE_REFUSE_LAST_NODE = node ∧
      t.fld fld_NE_REFUSE_LAST_PROGRAM = (s.nodeDesc g node).param 0 2 % 2 ^ fld_NE_REFUSE_LAST_PROGRAM.width ∧ t.sram = s.sram ∧ t.mem = s.mem) ∧
  (∀ (g : Fin 8) (node : Fin 64) (a : Activation) (r : NodeRun) (p : Nat) (s : State), s.swatchRuns 8 = true → (s.graph g).act = some a →
    s.node? g node = some r → (s.nodeDesc g node).type = nodeNeural → r.phase = .queued → r.verdict = none → (s.nodeDesc g node).param 0 2 = p →
    s.neural.queue = [] → s.neural.running = [] → s.neural.reserved = none → s.elsewhere p = false → 1 ≤ s.progCores p → s.progCores p ≤ 16 →
    s.groupOut 0 (s.progCores p) = true →
    ∃ t, exec (.neuralRequestArrive g node) s = .next t ∧
      t.neural = { s.neural with running := [⟨g, node, p, 0, s.progCores p, 0, [], false, false, false, [], [], s.stamp⟩] } ∧ t.node? g node = some r ∧
      (s.progObjects p = [] → t = { s with neural := t.neural })) ∧
  (∀ (g : Fin 8) (node : Fin 64) (r : NodeRun) (q : NeuralRun) (s : State), s.swatchRuns 8 = true → s.neuralRun g node = some q → q.started = false →
    s.node? g node = some r →
    ∃ t r', exec (.neuralRequestStart g node) s = .next t ∧ t.neuralRun g node = some { q with started := true, since := s.stamp } ∧
      t.node? g node = some r' ∧ r'.phase = .running ∧ r'.start = s.stamp ∧ t.sram = s.sram ∧ t.mem = s.mem) ∧
  (∀ (c : Fin 16) (ns : Nat) (q : NeuralRun) (r : NodeRun) (step j k : Nat) (s : State),
    s.neural.running.find? (fun q => q.covers c && q.started) = some q → s.neuralRun q.graph q.node = some q → s.node? q.graph q.node = some r →
    Store.get 0 q.loaded (c - q.base) = k → (s.chunkList q (s.nodeDesc q.graph q.node) r (c - q.base))[k]? = some (step, j) →
    r.verdict = none → chunkFree (s.chunkList q (s.nodeDesc q.graph q.node) r (c - q.base)) q r k = true → s.swatchRuns (coreSwatch c) = true →
    s.mem.bad = [] → s.mem.recordBad = [] →
    ∃ t q', exec (.weightChunkLoaded c ns []) s = .next t ∧ t.neuralRun q.graph q.node = some q' ∧
      q' = { q with loaded := Store.set 0 q.loaded (c - q.base) (k + 1), values := q'.values, ended := q'.ended } ∧ (k < 2 → q'.values = q.values ∧ q'.ended = q.ended) ∧
      Store.get [] t.neural.halves (2 * c + k % 2) = s.memBytes (s.progWeights q.program)
        ((s.progStep q.program step).wOffset + j * (s.progStep q.program step).chunkBytes) (s.progStep q.program step).chunkBytes ∧
      (∀ h, h ≠ 2 * c + k % 2 → Store.get [] t.neural.halves h = Store.get [] s.neural.halves h) ∧
      t.pair (reg_NE_CORE_WBYTES_LO c) = (s.pair (reg_NE_CORE_WBYTES_LO c) + (s.progStep q.program step).chunkBytes) % 2 ^ 64 ∧
      t.sram = s.sram ∧ t.mem = s.mem) ∧
  (∀ (g : Fin 8) (node : Fin 64) (ns : Nat) (q : NeuralRun) (r : NodeRun) (s : State), s.neuralRun g node = some q → s.node? g node = some r →
    q.started = true → q.complete = false → r.verdict = none → r.inputsReady = true → s.chunksLoaded q (s.nodeDesc g node) r = true →
    s.groupOut q.base q.cores = true →
    ∃ t q', exec (.neuralStepDone g node ns []) s = .next t ∧ t.neuralRun g node = some q' ∧
      q' = { q with step := if q.step + 1 < t.progSteps q.program then q.step + 1 else q.step, complete := decide (t.progSteps q.program ≤ q.step + 1),
                    values := [], ended := q'.ended, since := s.stamp } ∧
      (t.node? g node).map (·.phase) = some r.phase ∧ t.neural.queue = s.neural.queue) ∧
  (∀ (g : Fin 8) (node : Fin 64) (q : NeuralRun) (r : NodeRun) (s : State), s.swatchRuns 8 = true → s.neuralRun g node = some q → s.node? g node = some r →
    q.complete = true → r.verdict = none →
    ∃ t, exec (.neuralRequestEnd g node) s = .next t ∧ t.hasRequest g node = false ∧ (∀ r', t.node? g node = some r' → r'.phase = .ended codeDone) ∧
      t.fld fld_NE_REQ_DONE_DONE = (s.fld fld_NE_REQ_DONE_DONE + 1) % 2 ^ fld_NE_REQ_DONE_DONE.width) ∧
  (∀ (g : Fin 8) (node : Fin 64) (a : Activation) (r : NodeRun) (s : State), s.swatchRuns 8 = true → (s.graph g).act = some a → s.node? g node = some r →
    (s.nodeDesc g node).type = nodeNeural → r.phase = .queued → r.verdict = none → s.hasRequest g node = false → s.neural.queue.length < 64 →
    s.elsewhere ((s.nodeDesc g node).param 0 2) = true →
    ∃ t q, exec (.neuralRequestArrive g node) s = .next t ∧ t.node? g node = some q ∧ q.verdict = some codeNeuralRefused ∧ t.neural = s.neural ∧
      t.fld fld_NE_REQ_LOSS_REFUSED = min (2 ^ fld_NE_REQ_LOSS_REFUSED.width - 1) (s.fld fld_NE_REQ_LOSS_REFUSED + 1) ∧
      t.fld fld_NE_REFUSE_LAST_CAUSE = 2 ∧ t.sram = s.sram ∧ t.mem = s.mem) ∧
  (∀ (g : Fin 8) (node : Fin 64) (a : Activation) (r : NodeRun) (p : Nat) (s : State), s.swatchRuns 8 = true → (s.graph g).act = some a →
    s.node? g node = some r → (s.nodeDesc g node).type = nodeNeural → r.phase = .queued → r.verdict = none → s.hasRequest g node = false →
    (s.nodeDesc g node).param 0 2 = p → s.neural.queue = [] → s.elsewhere p = false →
    (groupBases (s.progCores p)).all (fun b => !s.groupFree ⟨g, node, p, s.progCores p, a.deadline⟩ b) = true →
    ∃ t, exec (.neuralRequestArrive g node) s = .next t ∧ t.neural.queue = [⟨g, node, p, s.progCores p, a.deadline⟩] ∧
      t.neural.running = s.neural.running ∧ (s.neural.reserved ≠ none → t.neural.reserved = s.neural.reserved) ∧ t.node? g node = some r) ∧
  (∀ (g : Fin 8) (node : Fin 64) (r : NodeRun) (s : State), s.node? g node = some r →
    ((s.nodeDesc g node).type ≠ nodeNeural ∨ r.phase ≠ .queued ∨ r.verdict ≠ none ∨ s.hasRequest g node = true ∨ s.swatchRuns 8 = false) →
    exec (.neuralRequestArrive g node) s = .next s) ∧
  (∀ (g : Fin 8) (node : Fin 64) (s : State), (s.graph g).act = none → exec (.neuralRequestArrive g node) s = .next s) ∧
  (∀ (g : Fin 8) (node : Fin 64) (s : State), (s.swatchRuns 8 = false ∨ ∀ q, s.neuralRun g node = some q → q.started = true) →
    exec (.neuralRequestStart g node) s = .next s) ∧
  (∀ (c : Fin 16) (ns : Nat) (e : List (Nat × SymbolErrors)) (s : State), s.neural.running.find? (fun q => q.covers c && q.started) = none →
    exec (.weightChunkLoaded c ns e) s = .next s) ∧
  (∀ (c : Fin 16) (ns : Nat) (e : List (Nat × SymbolErrors)) (q : NeuralRun) (r : NodeRun) (s : State),
    s.neural.running.find? (fun q => q.covers c && q.started) = some q → s.node? q.graph q.node = some r →
    (r.verdict ≠ none ∨ s.swatchRuns (coreSwatch c) = false ∨
      chunkFree (s.chunkList q (s.nodeDesc q.graph q.node) r (c - q.base)) q r (Store.get 0 q.loaded (c - q.base)) = false ∨
      (s.chunkList q (s.nodeDesc q.graph q.node) r (c - q.base)).length ≤ Store.get 0 q.loaded (c - q.base)) →
    exec (.weightChunkLoaded c ns e) s = .next s) ∧
  (∀ (c : Fin 16) (ns : Nat) (e : List (Nat × SymbolErrors)) (q : NeuralRun) (r : NodeRun) (step j k : Nat) (s : State),
    s.neural.running.find? (fun q => q.covers c && q.started) = some q → s.neuralRun q.graph q.node = some q → s.node? q.graph q.node = some r →
    Store.get 0 q.loaded (c - q.base) = k → (s.chunkList q (s.nodeDesc q.graph q.node) r (c - q.base))[k]? = some (step, j) →
    r.verdict = none → chunkFree (s.chunkList q (s.nodeDesc q.graph q.node) r (c - q.base)) q r k = true → s.swatchRuns (coreSwatch c) = true →
    (s.checkWords (s.progWeights q.program) ((s.progStep q.program step).wOffset + j * (s.progStep q.program step).chunkBytes)
      (s.progStep q.program step).chunkBytes (coreSwatch c) e).1 ≠ [] →
    ∃ t r', exec (.weightChunkLoaded c ns e) s = .next t ∧ t.neuralRun q.graph q.node = some q ∧ t.neural.halves = s.neural.halves ∧
      t.node? q.graph q.node = some r' ∧ r'.verdict = some codeEngineErr ∧ r'.phase = r.phase ∧
      t.fld (fld_NE_CORE_ERR_ENGINE_ERR c) = min (2 ^ (fld_NE_CORE_ERR_ENGINE_ERR c).width - 1) (s.fld (fld_NE_CORE_ERR_ENGINE_ERR c) + 1)) ∧
  (∀ (g : Fin 8) (node : Fin 64) (ns : Nat) (e : List (Nat × SymbolErrors)) (q : NeuralRun) (r : NodeRun) (s : State), s.neuralRun g node = some q →
    s.node? g node = some r → q.started = true → q.complete = false → r.verdict = none → r.inputsReady = true →
    s.chunksLoaded q (s.nodeDesc g node) r = true → s.groupOut q.base q.cores = true → (s.arenaErrors q e).1 = true →
    ∃ t r', exec (.neuralStepDone g node ns e) s = .next t ∧ t.neuralRun g node = some { q with since := s.stamp } ∧
      t.node? g node = some r' ∧ r'.verdict = some codeEngineErr ∧ r'.phase = r.phase ∧ t.sram = s.sram) ∧
  (∀ (g : Fin 8) (node : Fin 64) (ns : Nat) (e : List (Nat × SymbolErrors)) (q : NeuralRun) (r : NodeRun) (s : State), s.neuralRun g node = some q →
    s.node? g node = some r → (q.started = false ∨ q.complete = true ∨ r.verdict ≠ none ∨ r.inputsReady = false ∨
      s.chunksLoaded q (s.nodeDesc g node) r = false ∨ s.groupOut q.base q.cores = false) → exec (.neuralStepDone g node ns e) s = .next s) ∧
  (∀ (g : Fin 8) (node : Fin 64) (q : NeuralRun) (r : NodeRun) (s : State), s.neuralRun g node = some q → s.node? g node = some r →
    (q.complete = false ∨ r.verdict ≠ none ∨ s.swatchRuns 8 = false) → exec (.neuralRequestEnd g node) s = .next s)

/-- R302 to R334: the mover's commands. -/
def Obligations.MoverServesItsRequests : Prop :=
  (∀ (h : Fin 48) (id : Word) (tier : Fin 4) (pin : Bool) (s : State), s.moverRuns = true → isTile id.toNat = false → s.object id.toNat = none → s.leased id.toNat = false →
    ∃ t, exec (.promote h id tier pin) s = .next t ∧
      t = { s with mem := { s.mem with results := [(⟨some h, id.toNat, .promote tier pin⟩, moverBadObject)], delivered := [] } }) ∧
  (∀ (h : Fin 48) (id : Word) (tier : Fin 4) (o : MemObject) (s : State), s.moverRuns = true → isTile id.toNat = false → s.object id.toNat = some o →
    s.leased id.toNat = false → tier.val ≠ 0 → tier.val ≠ tierPool → o.home ≤ tier →
    ∃ t, exec (.promote h id tier false) s = .next t ∧
      t = { s with mem := { s.mem with results := [(⟨some h, id.toNat, .promote tier false⟩, moverAlready)], delivered := [] } }) ∧
  (∀ (h : Fin 48) (id : Word) (o : MemObject) (s : State), s.moverRuns = true → (isTile id.toNat = true → s.dirReady = true ∧ s.tileRegionBad = false) → s.object id.toNat = some o → o.home = tierFlash →
    s.channelBroken id.toNat tierDram = false → s.mayMove ⟨some h, id.toNat, .promote 2 false⟩ tierDram = true →
    ∃ t m, exec (.promote h id 2 false) s = .next t ∧ t.mem.move = some m ∧ m.request = ⟨some h, id.toNat, .promote 2 false⟩ ∧ m.dest = tierDram ∧
      m.pages.length = o.size / pageBytes ∧ m.todo = List.range (o.size / pageBytes) ∧ m.dirty = [] ∧ m.abandon = none ∧ m.record = none ∧
      t.mem.objects = s.mem.objects ∧ t.mem.bytes = s.mem.bytes ∧ t.regs = s.regs) ∧
  (∀ (h : Fin 48) (id : Word) (o : MemObject) (s : State), s.moverRuns = true → (isTile id.toNat = true → s.dirReady = true ∧ s.tileRegionBad = false) → s.object id.toNat = some o → o.home = tierFlash →
    s.mem.move = none → s.channelBroken id.toNat tierDram = false → s.hasRoom id.toNat tierDram = false →
    ∃ t, exec (.promote h id 2 false) s = .next t ∧
      t = { s with mem := { s.mem with results := [], delivered := [], waiting := s.mem.waiting ++ [⟨some h, id.toNat, .promote 2 false⟩] } }) ∧
  (∀ (h : Fin 48) (id : Word) (tier : Fin 4) (o : MemObject) (s : State), s.moverRuns = true → isTile id.toNat = false → s.object id.toNat = some o →
    s.leased id.toNat = false → o.home ≠ tier →
    ∃ t, exec (.evict h id tier) s = .next t ∧ t.mem = { s.mem with results := [(⟨some h, id.toNat, .evict tier⟩, moverDropped)], delivered := [] } ∧
      t.fld fld_MEM_CONFLICT_DROPPED = min (2 ^ fld_MEM_CONFLICT_DROPPED.width - 1) (s.fld fld_MEM_CONFLICT_DROPPED + 1) ∧
      RegsBut [fld_MEM_CONFLICT_DROPPED] s t) ∧
  (∀ (h : Fin 48) (id : Word) (tier : Fin 4) (o : MemObject) (s : State), s.moverRuns = true → isTile id.toNat = false → s.object id.toNat = some o →
    s.leased id.toNat = false → o.home = tier → s.pinCount id.toNat ≠ 0 →
    ∃ t, exec (.evict h id tier) s = .next t ∧ t.mem = { s.mem with results := [(⟨some h, id.toNat, .evict tier⟩, moverPinned)], delivered := [] } ∧
      t.fld fld_MEM_CONFLICT_PINNED = min (2 ^ fld_MEM_CONFLICT_PINNED.width - 1) (s.fld fld_MEM_CONFLICT_PINNED + 1) ∧
      RegsBut [fld_MEM_CONFLICT_PINNED] s t) ∧
  (∀ (h : Fin 48) (id : Word) (o : MemObject) (s : State), s.moverRuns = true → isTile id.toNat = true → s.tileRegionBad = false → s.dirReady = true →
    s.object id.toNat = some o → s.leased id.toNat = false → o.dirty = false →
    ∃ t, exec (.writeback h id) s = .next t ∧
      t = { s with mem := { s.mem with results := [(⟨some h, id.toNat, .writeback⟩, moverAlready)], delivered := [] } }) ∧
  (∀ (h : Fin 48) (id : Word) (o : MemObject) (s : State), s.moverRuns = true → (isTile id.toNat = true → s.dirReady = true ∧ s.tileRegionBad = false) → s.object id.toNat = some o → s.leased id.toNat = false →
    s.pinCount id.toNat < 255 → (∀ p ∈ s.mem.pins, p.holder = h.val → p.object ≠ id.toNat) → s.mem.pins.length < 4096 →
    ∃ t, exec (.pin h id) s = .next t ∧
      t = { s with mem := { s.mem with pins := s.mem.pins ++ [⟨h, id.toNat, 1⟩], results := [(⟨some h, id.toNat, .pin⟩, moverDone)], delivered := [] } }) ∧
  (∀ (h : Fin 48) (id : Word) (o : MemObject) (s : State), s.moverRuns = true → (isTile id.toNat = true → s.dirReady = true ∧ s.tileRegionBad = false) → s.object id.toNat = some o → s.leased id.toNat = false →
    255 ≤ s.pinCount id.toNat →
    ∃ t, exec (.pin h id) s = .next t ∧ t.mem = { s.mem with results := [(⟨some h, id.toNat, .pin⟩, moverPinFull)], delivered := [] } ∧
      t.fld fld_MEM_PINS_PIN_FULL = min (2 ^ fld_MEM_PINS_PIN_FULL.width - 1) (s.fld fld_MEM_PINS_PIN_FULL + 1) ∧ RegsBut [fld_MEM_PINS_PIN_FULL] s t) ∧
  (∀ (h : Fin 48) (id : Word) (o : MemObject) (s : State), s.moverRuns = true → (isTile id.toNat = true → s.dirReady = true ∧ s.tileRegionBad = false) → s.object id.toNat = some o →
    ∃ t, exec (.unpin h id) s = .next t ∧
      t = { s with mem := { s.mem with results := [(⟨some h, id.toNat, .unpin⟩, moverDone)], delivered := [], pins := t.mem.pins } } ∧
      (∀ p : PinEntry, p.count ≠ 0 → p.holder ≠ h.val ∨ p.object ≠ id.toNat → (p ∈ t.mem.pins ↔ p ∈ s.mem.pins)) ∧
      (∀ c, c ≠ 0 → (⟨h, id.toNat, c⟩ ∈ t.mem.pins ↔ ⟨h, id.toNat, c + 1⟩ ∈ s.mem.pins))) ∧
  (∀ (m : Move) (p : Nat) (rest : List Nat) (o : MemObject) (s : State), s.mem.move = some m → (m.dest = tierFlash → s.power.nandHeld = false) →
    m.abandon = none → m.todo = p :: rest → s.object m.request.object = some o → o.home ≠ tierFlash → s.mem.bad = [] →
    ∃ t, exec (.movePageCopied ⟨[], []⟩ true) s = .next t ∧
      t = { s with mem := { s.mem with results := [], delivered := [], move := t.mem.move } } ∧
      t.mem.move = some (if rest = [] ∧ m.dirty ≠ [] then { m with todo := m.dirty, dirty := [], passes := m.passes + 1 } else { m with todo := rest })) ∧
  (∀ (m : Move) (c : Nat) (e : List (Nat × SymbolErrors)) (u : List Nat) (ok : Bool) (s : State), s.mem.move = some m →
    (m.dest = tierFlash → s.power.nandHeld = false) → m.abandon = some c → s.mem.waiting = [] → s.mem.held = [] →
    ∃ t, exec (.movePageCopied ⟨e, u⟩ ok) s = .next t ∧
      t.mem = { s.mem with move := none, results := [(m.request, c)], delivered := [], managing := t.mem.managing }) ∧
  (∀ (m : Move) (o : MemObject) (tier : Nat) (pin : Bool) (s : State), s.mem.move = some m → m.todo = [] → m.dirty = [] → m.abandon = none →
    m.dest ≠ tierFlash → m.request.kind = .promote tier pin → s.object m.request.object = some o → s.mem.waiting = [] → s.mem.held = [] →
    ∃ t, exec .moveSwitch s = .next t ∧ t.mem.move = none ∧ t.mem.results = [(m.request, moverDone)] ∧
      t.object m.request.object =
        some { o with home := m.dest, pages := m.pages, record := if isTile m.request.object then o.record else none } ∧
      (∀ k, k ≠ m.request.object → t.object k = s.object k) ∧ t.mem.bytes = s.mem.bytes ∧ t.mem.recordBytes = s.mem.recordBytes ∧
      t.fld fld_MEM_MOVES_DONE = (s.fld fld_MEM_MOVES_DONE + 1) % 2 ^ fld_MEM_MOVES_DONE.width ∧ RegsBut [fld_MEM_MOVES_DONE] s t) ∧
  (∀ (m : Move) (o : MemObject) (tier p : Nat) (r : TileRecord) (s : State), s.mem.move = some m → m.todo = [] → m.dirty = [] → m.abandon = none →
    m.dest = tierFlash → m.record = some p → s.power.nandHeld = false → m.request.kind = .evict tier → s.object m.request.object = some o →
    o.record = some r → s.mem.waiting = [] → s.mem.held = [] →
    ∃ t, exec .moveSwitch s = .next t ∧ t.mem.move = none ∧ t.mem.results = [(m.request, moverDone)] ∧
      t.object m.request.object = some { o with home := tierFlash, pages := [], dirty := false, record := some ⟨(r.gen + 1) % 2 ^ 32, o.size, p⟩ } ∧
      (∀ k, k ≠ m.request.object → t.object k = s.object k) ∧
      Store.getMany 0 t.mem.recordBytes (memKey m.request.object 0) o.size = s.memBytes m.request.object 0 o.size ∧
      t.fld fld_MEM_MOVES_DONE = (s.fld fld_MEM_MOVES_DONE + 1) % 2 ^ fld_MEM_MOVES_DONE.width ∧ RegsBut [fld_MEM_MOVES_DONE] s t) ∧
  (∀ (c : Instr) (r : MoverRequest) (h : Fin 48) (id : Word) (tier : Fin 4) (pin : Bool) (s : State), s.moverRuns = false →
    (c, r) ∈ [(.promote h id tier pin, ⟨some h.val, id.toNat, .promote tier pin⟩), (.evict h id tier, ⟨some h.val, id.toNat, .evict tier⟩),
      (.writeback h id, ⟨some h.val, id.toNat, .writeback⟩), (.pin h id, ⟨some h.val, id.toNat, .pin⟩), (.unpin h id, ⟨some h.val, id.toNat, .unpin⟩)] →
    exec c s = .next s) ∧
  (∀ (c : Instr) (r : MoverRequest) (h : Fin 48) (id : Word) (tier : Fin 4) (pin : Bool) (s : State), s.moverRuns = true → s.leased id.toNat = false →
    isTile id.toNat = true → s.tileRegionBad = true →
    (c, r) ∈ [(.promote h id tier pin, ⟨some h.val, id.toNat, .promote tier pin⟩), (.evict h id tier, ⟨some h.val, id.toNat, .evict tier⟩),
      (.writeback h id, ⟨some h.val, id.toNat, .writeback⟩), (.pin h id, ⟨some h.val, id.toNat, .pin⟩), (.unpin h id, ⟨some h.val, id.toNat, .unpin⟩)] →
    exec c s = .next { s with mem := { s.mem with results := [(r, moverBadObject)], delivered := [] } }) ∧
  (∀ (c : Instr) (r : MoverRequest) (h : Fin 48) (id : Word) (tier : Fin 4) (pin : Bool) (s : State), s.moverRuns = true → s.leased id.toNat = false →
    isTile id.toNat = true → s.tileRegionBad = false → s.dirReady = false →
    (c, r) ∈ [(.promote h id tier pin, ⟨some h.val, id.toNat, .promote tier pin⟩), (.evict h id tier, ⟨some h.val, id.toNat, .evict tier⟩),
      (.writeback h id, ⟨some h.val, id.toNat, .writeback⟩), (.pin h id, ⟨some h.val, id.toNat, .pin⟩), (.unpin h id, ⟨some h.val, id.toNat, .unpin⟩)] →
    exec c s = .next { s with mem := { s.mem with results := [], delivered := [], waiting := s.mem.waiting ++ [r] } }) ∧
  (∀ (c : Instr) (r : MoverRequest) (h : Fin 48) (id : Word) (tier : Fin 4) (code : Nat) (s : State), s.moverRuns = true → s.leased id.toNat = false →
    (c, r) ∈ [(.promote h id tier false, ⟨some h.val, id.toNat, .promote tier false⟩), (.evict h id tier, ⟨some h.val, id.toNat, .evict tier⟩),
      (.writeback h id, ⟨some h.val, id.toNat, .writeback⟩)] → s.judgeMove r = .answer code →
    ∃ t, exec c s = .next t ∧ t.mem = { s.mem with results := [(r, code)], delivered := [] } ∧ t.sram = s.sram) ∧
  (∀ (c : Instr) (r : MoverRequest) (h : Fin 48) (id : Word) (tier : Fin 4) (d : Nat) (o : MemObject) (s : State), s.moverRuns = true →
    s.leased id.toNat = false → s.object id.toNat = some o →
    (c, r) ∈ [(.promote h id tier false, ⟨some h.val, id.toNat, .promote tier false⟩), (.evict h id tier, ⟨some h.val, id.toNat, .evict tier⟩),
      (.writeback h id, ⟨some h.val, id.toNat, .writeback⟩)] →
    s.judgeMove r = .start d → s.channelBroken id.toNat d = false → s.regionFull id.toNat d = false → s.mayMove r d = true →
    ∃ t m, exec c s = .next t ∧ t.mem.move = some m ∧ m.request = r ∧ m.dest = d ∧ m.dirty = [] ∧ m.abandon = none ∧
      (d = tierDram → m.pages.length = o.size / pageBytes) ∧
      (d = tierFlash ∧ s.keepsRecord id.toNat = true → m.todo = [] ∧ m.record = none) ∧
      (¬ (d = tierFlash ∧ s.keepsRecord id.toNat = true) → m.todo = List.range (o.size / pageBytes) ∧ m.record.isSome = decide (d = tierFlash)) ∧
      t.mem.objects = s.mem.objects ∧ t.mem.bytes = s.mem.bytes ∧ t.mem.waiting = s.mem.waiting ∧ t.mem.results = [] ∧ t.regs = s.regs) ∧
  (∀ (c : Instr) (r : MoverRequest) (h : Fin 48) (id : Word) (tier : Fin 4) (d : Nat) (s : State), s.moverRuns = true → s.leased id.toNat = false →
    (c, r) ∈ [(.promote h id tier false, ⟨some h.val, id.toNat, .promote tier false⟩), (.evict h id tier, ⟨some h.val, id.toNat, .evict tier⟩),
      (.writeback h id, ⟨some h.val, id.toNat, .writeback⟩)] →
    s.judgeMove r = .start d → s.channelBroken id.toNat d = false → s.regionFull id.toNat d = false → s.mayMove r d = false →
    exec c s = .next { s with mem := { s.mem with results := [], delivered := [], waiting := s.mem.waiting ++ [r] } }) ∧
  (∀ (c : Instr) (r : MoverRequest) (h : Fin 48) (id : Word) (tier : Fin 4) (d : Nat) (s : State), s.moverRuns = true → s.leased id.toNat = false →
    (c, r) ∈ [(.promote h id tier false, ⟨some h.val, id.toNat, .promote tier false⟩), (.evict h id tier, ⟨some h.val, id.toNat, .evict tier⟩),
      (.writeback h id, ⟨some h.val, id.toNat, .writeback⟩)] →
    s.judgeMove r = .start d → (s.channelBroken id.toNat d = true ∨ s.regionFull id.toNat d = true) →
    ∃ t, exec c s = .next t ∧
      t.mem = { s.mem with results := [(r, if s.channelBroken id.toNat d then moverMediaErr else moverNoSpace)], delivered := [] } ∧ t.sram = s.sram) ∧
  (∀ (c : Instr) (r : MoverRequest) (h : Fin 48) (id : Word) (tier : Fin 4) (s : State), s.moverRuns = true → s.leased id.toNat = true →
    (c, r) ∈ [(.promote h id tier false, ⟨some h.val, id.toNat, .promote tier false⟩), (.evict h id tier, ⟨some h.val, id.toNat, .evict tier⟩),
      (.writeback h id, ⟨some h.val, id.toNat, .writeback⟩)] ∨ (c = .pin h id ∧ r = ⟨some h.val, id.toNat, .pin⟩ ∧ s.evicting id.toNat = false) →
    exec c s = .next { s with mem := { s.mem with results := [], delivered := [], waiting := s.mem.waiting ++ [r] } }) ∧
  (∀ (h : Fin 48) (id : Word) (m : Move) (s : State), s.moverRuns = true → s.mem.move = some m → m.request.object = id.toNat → s.evicting id.toNat = true →
    s.pinCount id.toNat < 255 → s.mem.pins.length < 4096 → (∀ p ∈ s.mem.pins, p.holder = h.val → p.object ≠ id.toNat) →
    ∃ t, exec (.pin h id) s = .next t ∧ t.mem.move = some { m with abandon := some (m.abandon.getD moverAbandoned) } ∧
      t.mem.results = [(⟨some h, id.toNat, .pin⟩, moverDone)] ∧ t.mem.pins = s.mem.pins ++ [⟨h, id.toNat, 1⟩] ∧ t.mem.objects = s.mem.objects) ∧
  (∀ (h : Fin 48) (id : Word) (tier : Fin 4) (s : State), s.moverRuns = true → s.leased id.toNat = false →
    s.judgeMove ⟨some h, id.toNat, .promote tier true⟩ = .answer moverAlready → s.pinCount id.toNat < 255 → s.mem.pins.length < 4096 →
    (∀ p ∈ s.mem.pins, p.holder = h.val → p.object ≠ id.toNat) →
    exec (.promote h id tier true) s = .next { s with mem := { s.mem with pins := s.mem.pins ++ [⟨h, id.toNat, 1⟩],
                                                                          results := [(⟨some h, id.toNat, .promote tier true⟩, moverAlready)], delivered := [] } }) ∧
  (∀ (h : Fin 48) (id : Word) (tier : Fin 4) (d : Nat) (s : State), s.moverRuns = true → s.leased id.toNat = false →
    s.judgeMove ⟨some h, id.toNat, .promote tier true⟩ = .start d → s.pinCount id.toNat < 255 → s.mem.pins.length < 4096 →
    s.channelBroken id.toNat d = false → s.regionFull id.toNat d = false → s.mayMove ⟨some h, id.toNat, .promote tier false⟩ d = true →
    (∀ p ∈ s.mem.pins, p.holder = h.val → p.object ≠ id.toNat) →
    ∃ t m, exec (.promote h id tier true) s = .next t ∧ t.mem.move = some m ∧ m.request = ⟨some h, id.toNat, .promote tier false⟩ ∧ m.dest = d ∧
      t.mem.pins = s.mem.pins ++ [⟨h, id.toNat, 1⟩]) ∧
  (∀ (h : Fin 48) (id : Word) (s : State), s.moverRuns = true → s.leased id.toNat = false → isTile id.toNat = false → s.object id.toNat = none →
    exec (.pin h id) s = .next { s with mem := { s.mem with results := [(⟨some h, id.toNat, .pin⟩, moverBadObject)], delivered := [] } } ∧
    exec (.unpin h id) s = .next { s with mem := { s.mem with results := [(⟨some h, id.toNat, .unpin⟩, moverBadObject)], delivered := [] } }) ∧
  (∀ (m : Move) (p : Nat) (rest : List Nat) (o : MemObject) (s : State), s.mem.move = some m → m.dest ≠ tierFlash → m.abandon = none → m.todo = p :: rest →
    s.object m.request.object = some o → o.home = tierFlash → s.mem.recordBad = [] →
    ∃ t, exec (.movePageCopied ⟨[], []⟩ true) s = .next t ∧
      t.mem.move = some (if rest = [] ∧ m.dirty ≠ [] then { m with todo := m.dirty, dirty := [], passes := m.passes + 1 } else { m with todo := rest }) ∧
      t.memBytes m.request.object (p * 4096) 4096 = Store.getMany 0 s.mem.recordBytes (memKey m.request.object (p * 4096)) 4096 ∧
      (∀ k, (k < memKey m.request.object (p * 4096) ∨ memKey m.request.object (p * 4096) + 4096 ≤ k) →
        Store.get 0 t.mem.bytes k = Store.get 0 s.mem.bytes k) ∧
      t.mem.objects = s.mem.objects ∧ t.mem.recordBytes = s.mem.recordBytes ∧ RegsBut [fld_NCH_PAGES_PAGES (recordChannel m.request.object)] s t) ∧
  (∀ (m : Move) (p : Nat) (rest : List Nat) (o : MemObject) (s : State), s.mem.move = some m → m.dest = tierFlash → s.power.nandHeld = false →
    m.abandon = none → m.todo = p :: rest → s.object m.request.object = some o → s.mem.waiting = [] → s.mem.held = [] →
    ∃ t, exec (.movePageCopied ⟨[], []⟩ false) s = .next t ∧ t.mem.move = none ∧ t.mem.results = [(m.request, moverMediaErr)] ∧ t.mem.objects = s.mem.objects) ∧
  (∀ (m : Move) (p : Nat) (rest : List Nat) (o : MemObject) (e : List (Nat × SymbolErrors)) (u : List Nat) (s : State), s.mem.move = some m → m.dest ≠ tierFlash →
    m.abandon = none → m.todo = p :: rest → s.object m.request.object = some o →
    ((s.readRange 15 m.request.object (p * pageBytes) pageBytes e u).2.1 ≠ []) → s.mem.waiting = [] → s.mem.held = [] →
    ∃ t, exec (.movePageCopied ⟨e, u⟩ true) s = .next t ∧ t.mem.move = none ∧ t.mem.results = [(m.request, moverMediaErr)] ∧ t.mem.objects = s.mem.objects) ∧
  (∀ (e : List (Nat × SymbolErrors)) (u : List Nat) (ok : Bool) (s : State),
    (∀ m, s.mem.move = some m → (m.dest = tierFlash ∧ s.power.nandHeld = true) ∨ (m.abandon = none ∧ m.todo = [])) →
    exec (.movePageCopied ⟨e, u⟩ ok) s = .next { s with mem := { s.mem with results := [], delivered := [] } }) ∧
  (∀ (m : Move) (c : Nat) (e : List (Nat × SymbolErrors)) (u : List Nat) (ok : Bool) (s : State), s.mem.move = some m →
    (m.dest = tierFlash → s.power.nandHeld = false) → m.abandon = some c → ∃ t, exec (.movePageCopied ⟨e, u⟩ ok) s = .next t ∧ (m.request, c) ∈ t.mem.results) ∧
  (∀ (m : Move) (s : State), s.mem.move = some m → m.todo = [] → m.dirty = [] → m.abandon = none → (m.dest = tierFlash → s.power.nandHeld = false) →
    ∃ t, exec .moveSwitch s = .next t ∧ (m.request, moverDone) ∈ t.mem.results) ∧
  (∀ (s : State), (∀ m, s.mem.move = some m → m.todo ≠ [] ∨ m.dirty ≠ [] ∨ m.abandon ≠ none ∨ (m.dest = tierFlash ∧ s.power.nandHeld = true)) →
    exec .moveSwitch s = .next { s with mem := { s.mem with results := [], delivered := [] } }) ∧
  (∀ (m : Move) (o : MemObject) (tier : Nat) (s : State), s.mem.move = some m → m.todo = [] → m.dirty = [] → m.abandon = none →
    m.dest = tierFlash → m.record = none → s.power.nandHeld = false → m.request.kind = .evict tier → s.object m.request.object = some o →
    s.mem.waiting = [] → s.mem.held = [] →
    ∃ t, exec .moveSwitch s = .next t ∧ t.mem.move = none ∧ t.mem.results = [(m.request, moverDone)] ∧
      t.object m.request.object = some { o with home := tierFlash, pages := [] } ∧ t.mem.recordBytes = s.mem.recordBytes ∧
      t.fld fld_MEM_MOVES_DONE = (s.fld fld_MEM_MOVES_DONE + 1) % 2 ^ fld_MEM_MOVES_DONE.width) ∧
  (∀ (m : Move) (o : MemObject) (p : Nat) (r : TileRecord) (s : State), s.mem.move = some m → m.todo = [] → m.dirty = [] → m.abandon = none →
    m.dest = tierFlash → m.record = some p → s.power.nandHeld = false → m.request.kind = .writeback → s.object m.request.object = some o →
    o.record = some r → s.mem.waiting = [] → s.mem.held = [] →
    ∃ t, exec .moveSwitch s = .next t ∧ t.mem.move = none ∧ t.mem.results = [(m.request, moverDone)] ∧
      t.object m.request.object = some { o with dirty := false, record := some ⟨(r.gen + 1) % 2 ^ 32, o.size, p⟩ } ∧
      Store.getMany 0 t.mem.recordBytes (memKey m.request.object 0) o.size = s.memBytes m.request.object 0 o.size ∧
      t.mem.bytes = s.mem.bytes ∧ RegsBut [] s t)

/-- R302 to R329: the space manager, accesses, the scrubs and the tile directory. -/
def Obligations.MemoryKeepsItsObjects : Prop :=
  (∀ (id : Nat) (o : MemObject) (s : State), s.moverRuns = true → s.tierShort tierPool = true → s.nextCandidate tierPool = some id → isTile id = true →
    s.tileRegionBad = false → s.dirReady = true → s.object id = some o → s.candidate tierPool id o = true → s.mayMove ⟨none, id, .evict tierPool⟩ tierDram = true →
    ∃ t m, exec (.spaceManagerEvict 1) s = .next t ∧ t.mem.move = some m ∧ m.request = ⟨none, id, .evict tierPool⟩ ∧ m.dest = tierDram ∧
      t.mem.objects = s.mem.objects ∧ t.mem.bytes = s.mem.bytes ∧ t.regs = s.regs) ∧
  (∀ (r : MoverRequest) (s : State), s.moverRuns = true → s.nextCandidate tierPool = none → s.makingRoom tierPool = false → r ∈ s.mem.waiting → s.waitsForRoom tierPool r = true →
    ∃ t, exec (.spaceManagerEvict 1) s = .next t ∧ (r, moverNoSpace) ∈ t.mem.results ∧ r ∉ t.mem.waiting ∧ t.mem.objects = s.mem.objects ∧
      RegsBut [fld_MEM_MOVE_LOSS_NO_SPACE] s t) ∧
  (∀ (u : Fin 48) (id : Word) (off n : Nat) (o : MemObject) (s : State), s.moverRuns = true → s.swatchRuns u = true →
    (isTile id.toNat = false ∨ s.dirReady = true) → s.object id.toNat = some o → s.reaches u id.toNat off n = true → s.mem.bad = [] → s.mem.recordBad = [] →
    ∃ t, exec (.objectAccess u id off n none ⟨[], []⟩) s = .next t ∧ t.mem.delivered = [⟨u, id.toNat, off, some (s.homeBytes id.toNat off n, [])⟩] ∧
      t.mem.bytes = s.mem.bytes ∧ t.regs = s.regs ∧ t.object id.toNat = some { o with access := s.mem.accesses + 1 } ∧
      (∀ k, k ≠ id.toNat → t.object k = s.object k)) ∧
  (∀ (u : Fin 48) (id : Word) (off n : Nat) (e : List (Nat × SymbolErrors)) (d : List Nat) (s : State), s.moverRuns = true → s.swatchRuns u = true →
    (isTile id.toNat = false ∨ s.dirReady = true ∨ s.tileRegionBad = true) → s.reaches u id.toNat off n = false →
    exec (.objectAccess u id off n none ⟨e, d⟩) s =
      .next { s with mem := { s.mem with results := [], delivered := [⟨u, id.toNat, off, none⟩] } }) ∧
  (∀ (u : Fin 48) (id : Word) (off n : Nat) (data : List Byte) (o : MemObject) (s : State), s.moverRuns = true → s.swatchRuns u = true →
    (isTile id.toNat = false ∨ s.dirReady = true) → s.object id.toNat = some o → o.home ≠ tierFlash →
    s.reaches u id.toNat off data.length = true → (∀ m, s.mem.move = some m → m.request.object ≠ id.toNat) →
    ∃ t, exec (.objectAccess u id off n (some data) ⟨[], []⟩) s = .next t ∧ t.memBytes id.toNat off data.length = data ∧
      (∀ k, (k < memKey id.toNat off ∨ memKey id.toNat off + data.length ≤ k) → Store.get 0 t.mem.bytes k = Store.get 0 s.mem.bytes k) ∧
      (isTile id.toNat = true → (t.object id.toNat).map (·.dirty) = some true) ∧
      t.mem.recordBytes = s.mem.recordBytes ∧ t = { s with mem := t.mem }) ∧
  (∀ (e : SymbolErrors) (s : State), s.moverRuns = true → s.runsClassD = true → s.fld fld_MEM_MOVE_CFG_SCRUB_MBS ≠ 0 → s.dataBytes ≠ 0 →
    (if (s.dramPlace s.mem.scrub).interface = 0 then s.flag fld_MEM_CFG_IF0_EN else s.flag fld_MEM_CFG_IF1_EN) = true →
    s.ownerOf s.mem.scrub = none → checkWord [] (dramTag (s.mem.scrub / 32)) e = .clean →
    ∃ t, exec (.patrolScrubRead e) s = .next t ∧ t = { s with mem := { s.mem with scrub := s.nextScrub } }) ∧
  (∀ (e : SymbolErrors) (p : Nat) (v : Byte) (s : State), s.moverRuns = true → s.runsClassD = true → s.fld fld_MEM_MOVE_CFG_SCRUB_MBS ≠ 0 → s.dataBytes ≠ 0 →
    (if (s.dramPlace s.mem.scrub).interface = 0 then s.flag fld_MEM_CFG_IF0_EN else s.flag fld_MEM_CFG_IF1_EN) = true →
    s.ownerOf s.mem.scrub = none → checkWord [] (dramTag (s.mem.scrub / 32)) e = .corrected p v →
    ∃ t, exec (.patrolScrubRead e) s = .next t ∧ t.mem = { s.mem with scrub := s.nextScrub } ∧
      t.fld (fld_SELV_CE_CE mediumDram) = min (2 ^ (fld_SELV_CE_CE mediumDram).width - 1) (s.fld (fld_SELV_CE_CE mediumDram) + 1) ∧
      RegsBut [fld_SELV_CE_CE mediumDram] s t) ∧
  (∀ (w : Fin 48) (a : Nat) (e : SymbolErrors) (p : Nat) (v : Byte) (s : State), s.swatchRuns w = true →
    Store.get .good s.sramBad (sramKey w (a / 32)) = .good → selvedgeCheck e = .corrected p v →
    ∃ t, exec (.sramIdleScrub w a e) s = .next t ∧
      t.fld (fld_SELV_CE_CE mediumSram) = min (2 ^ (fld_SELV_CE_CE mediumSram).width - 1) (s.fld (fld_SELV_CE_CE mediumSram) + 1) ∧
      OnlyFields [fld_SELV_CE_CE mediumSram] s t) ∧
  (∀ (w : Fin 48) (a : Nat) (e : SymbolErrors) (loc : Bool) (s : State), s.swatchRuns w = true →
    Store.get .good s.sramBad (sramKey w (a / 32)) = .good → selvedgeCheck e = .uncorrectable loc →
    ∃ t, exec (.sramIdleScrub w a e) s = .next t ∧ Store.get .good t.sramBad (sramKey w (a / 32)) = markOf loc ∧
      t.fld (fld_SELV_UE_UE mediumSram) = min (2 ^ (fld_SELV_UE_UE mediumSram).width - 1) (s.fld (fld_SELV_UE_UE mediumSram) + 1) ∧
      t.fld fld_SELV_LAST_SWATCH = w ∧ t.flag fld_SELV_LAST_SCRUB = true ∧ t.mem = s.mem ∧ t.sram = s.sram) ∧
  (∀ (c : Fin 16) (d : DirEntry) (s : State), s.moverRuns = true → s.dozing = false → s.flag fld_SYS_LOCK_LOCKED = true → s.dirReady = false →
    s.tileRegionBad = false → s.mem.waiting = [] → s.mem.held = [] → (∀ k, k < 16 → k ≠ c.val → s.newestCheckpoint k ++ s.journal k = []) →
    Store.get none (replayDir (s.newestCheckpoint c ++ s.journal c)) d.tile = some d → d.tile < s.fld fld_MEM_TILE_CFG_DIR_ENTRIES →
    ∃ t, exec .directoryRebuildDone s = .next t ∧ t.dirReady = true ∧
      t.object (tileId d.tile) = some ⟨d.size, true, tierFlash, false, some ⟨d.gen, d.size, s.pageOfFlash d.record⟩, 0, []⟩ ∧
      RegsBut [fld_MEM_STATUS_DIR_READY] s t ∧ t.mem.recordBytes = s.mem.recordBytes ∧ t.mem.bytes = s.mem.bytes) ∧
  (∀ (c : Fin 16) (b : Nat) (s : State), s.moverRuns = true → s.runsClassD = true → (s.fewErased c || s.waitsForRun c) = true → s.power.nandHeld = false →
    s.channelReady (tileId c) tierFlash = true → s.reclaimBlock c = some b → s.mem.waiting = [] →
    s.liveRecords c = [] →
    exec (.tileRegionReclaim c) s =
      .next { s with mem := { s.mem with programmed := Store.set 0 s.mem.programmed (blockKey c b) 0, results := [], delivered := [] } }) ∧
  (∀ (i : Fin 2) (v : BitVec 8) (s : State), s.moverRuns = true → (if i = 0 then s.flag fld_MEM_CFG_IF0_EN else s.flag fld_MEM_CFG_IF1_EN) = true →
    ∃ t, exec (.mr4Poll i v) s = .next t ∧ Store.get 0 t.mem.refresh i = v.toNat % 32 ∧
      (∀ k, k ≠ i.val → Store.get 0 t.mem.refresh k = Store.get 0 s.mem.refresh k) ∧ t = { s with mem := { s.mem with refresh := t.mem.refresh } }) ∧
  (∀ (i : Fin 2) (v : BitVec 8) (s : State), (s.moverRuns = false ∨ (if i = 0 then s.flag fld_MEM_CFG_IF0_EN else s.flag fld_MEM_CFG_IF1_EN) = false) →
    exec (.mr4Poll i v) s = .next s) ∧
  (∀ (tier : Fin 4) (s : State), (s.moverRuns = false ∨ (tier.val ≠ tierPool ∧ tier.val ≠ tierDram)) →
    exec (.spaceManagerEvict tier) s = .next { s with mem := { s.mem with results := [], delivered := [] } }) ∧
  (∀ (tier : Fin 4) (s : State), s.moverRuns = true → (tier.val = tierPool ∨ tier.val = tierDram) → s.tierShort tier = false →
    (s.managesTier tier = false ∨ s.tierAboveStop tier = false) → s.mem.waiting.any (s.waitsForRoom tier) = false → s.stagingShort tier = false →
    ∃ t, exec (.spaceManagerEvict tier) s = .next t ∧ t.managesTier tier = false ∧ (∀ k, k ≠ tier.val → t.managesTier k = s.managesTier k) ∧
      t = { s with mem := { s.mem with results := [], delivered := [], managing := t.mem.managing } }) ∧
  (∀ (id : Nat) (o : MemObject) (s : State), s.moverRuns = true → s.tierShort tierDram = true → s.nextCandidate tierDram = some id →
    (isTile id = true → s.tileRegionBad = false ∧ s.dirReady = true) → s.object id = some o → s.candidate tierDram id o = true →
    s.channelBroken id tierFlash = false → s.regionFull id tierFlash = false → s.mayMove ⟨none, id, .evict tierDram⟩ tierFlash = true →
    ∃ t m, exec (.spaceManagerEvict 2) s = .next t ∧ t.managesTier tierDram = true ∧ t.mem.move = some m ∧ m.request = ⟨none, id, .evict tierDram⟩ ∧
      m.dest = tierFlash ∧ t.mem.objects = s.mem.objects ∧ t.mem.bytes = s.mem.bytes) ∧
  (∀ (s : State), s.moverRuns = true → s.nextCandidate tierDram = none → s.makingRoom tierDram = false → s.mem.waiting = [] → s.stagingShort tierDram = true →
    ∃ t, exec (.spaceManagerEvict 2) s = .next t ∧ t.links.bodies = dropFirst (fun x => x.dt == 0x32) s.links.bodies ∧ t.mem.objects = s.mem.objects) ∧
  (∀ (u : Fin 48) (id : Word) (off n : Nat) (data : Option (List Byte)) (e : List (Nat × SymbolErrors)) (d : List Nat) (s : State),
    (s.moverRuns = false ∨ s.swatchRuns u = false) →
    exec (.objectAccess u id off n data ⟨e, d⟩) s = .next { s with mem := { s.mem with results := [], delivered := [] } }) ∧
  (∀ (u : Fin 48) (id : Word) (off n : Nat) (data : Option (List Byte)) (e : List (Nat × SymbolErrors)) (d : List Nat) (s : State), s.moverRuns = true →
    s.swatchRuns u = true → isTile id.toNat = true → s.dirReady = false → s.tileRegionBad = false →
    exec (.objectAccess u id off n data ⟨e, d⟩) s =
      .next { s with mem := { s.mem with results := [], delivered := [], held := s.mem.held ++ [⟨u, id.toNat, off, n, data, e, d, 0, []⟩] } }) ∧
  (∀ (u : Fin 48) (id : Word) (off n : Nat) (data : List Byte) (e : List (Nat × SymbolErrors)) (d : List Nat) (m : Move) (s : State), s.moverRuns = true →
    s.swatchRuns u = true → (isTile id.toNat = false ∨ s.dirReady = true) → s.reaches u id.toNat off data.length = true → s.mem.move = some m →
    m.request.object = id.toNat → 4 ≤ m.passes →
    exec (.objectAccess u id off n (some data) ⟨e, d⟩) s =
      .next { s with mem := { s.mem with results := [], delivered := [], held := s.mem.held ++ [⟨u, id.toNat, off, n, some data, e, d, 0, []⟩] } }) ∧
  (∀ (u : Fin 48) (id : Word) (off n : Nat) (data : List Byte) (m : Move) (o : MemObject) (s : State), s.moverRuns = true → s.swatchRuns u = true →
    (isTile id.toNat = false ∨ s.dirReady = true) → s.object id.toNat = some o → o.home ≠ tierFlash → s.reaches u id.toNat off data.length = true →
    s.mem.move = some m → m.request.object = id.toNat → m.passes < 4 → (m.dest ≠ tierFlash ∨ m.record ≠ none) → data ≠ [] →
    ∃ t k, exec (.objectAccess u id off n (some data) ⟨[], []⟩) s = .next t ∧ t.memBytes id.toNat off data.length = data ∧ t.mem.move = some k ∧
      (off / 4096 ∈ k.todo ∨ off / 4096 ∈ k.dirty) ∧ ((off + data.length - 1) / 4096 ∈ k.todo ∨ (off + data.length - 1) / 4096 ∈ k.dirty) ∧ k.request = m.request) ∧
  (∀ (id : Word) (off n : Nat) (data : List Byte) (o : MemObject) (s : State), s.moverRuns = true → s.swatchRuns 15 = true →
    (isTile id.toNat = false ∨ s.dirReady = true) → s.object id.toNat = some o → o.home = tierFlash → s.reaches 15 id.toNat off data.length = true →
    s.holdsWrites id.toNat = false → s.runStarts (recordChannel id.toNat) (recordPages o.size) none ≠ [] →
    ∃ t, exec (.objectAccess 15 id off n (some data) ⟨[], []⟩) s = .next t ∧
      Store.getMany 0 t.mem.recordBytes (memKey id.toNat off) data.length = data ∧
      (∀ k, (k < memKey id.toNat off ∨ memKey id.toNat off + data.length ≤ k) → Store.get 0 t.mem.recordBytes k = Store.get 0 s.mem.recordBytes k) ∧
      t.mem.bytes = s.mem.bytes) ∧
  (∀ (u : Fin 48) (id : Word) (w : Nat) (e : SymbolErrors) (p : Nat) (v : Byte) (o : MemObject) (s : State), s.moverRuns = true → s.swatchRuns u = true →
    isTile id.toNat = false → s.object id.toNat = some o → o.home = tierDram → s.reaches u id.toNat (32 * w) 32 = true →
    Store.get .good s.mem.bad (memKey id.toNat w) = .good → e ≠ [] → checkWord (s.memBytes id.toNat (32 * w) 32) (s.wordPlace id.toNat o w).tag e = .corrected p v →
    ∃ t, exec (.objectAccess u id (32 * w) 32 none ⟨[(0, e)], []⟩) s = .next t ∧
      t.mem.delivered = [⟨u, id.toNat, 32 * w, some (applySymbols (s.memBytes id.toNat (32 * w) 32) (e ++ [(p, v)]), [])⟩] ∧
      t.memBytes id.toNat (32 * w) 32 = applySymbols (s.memBytes id.toNat (32 * w) 32) (e ++ [(p, v)]) ∧
      t.fld (fld_SELV_CE_CE mediumDram) = min (2 ^ (fld_SELV_CE_CE mediumDram).width - 1) (s.fld (fld_SELV_CE_CE mediumDram) + 1) ∧
      RegsBut [fld_SELV_CE_CE mediumDram] s t) ∧
  (∀ (u : Fin 48) (id : Word) (w : Nat) (e : SymbolErrors) (loc : Bool) (o : MemObject) (s : State), s.moverRuns = true → s.swatchRuns u = true →
    isTile id.toNat = false → s.object id.toNat = some o → o.home = tierDram → s.reaches u id.toNat (32 * w) 32 = true →
    Store.get .good s.mem.bad (memKey id.toNat w) = .good → e ≠ [] → checkWord (s.memBytes id.toNat (32 * w) 32) (s.wordPlace id.toNat o w).tag e = .uncorrectable loc →
    ∃ t, exec (.objectAccess u id (32 * w) 32 none ⟨[(0, e)], []⟩) s = .next t ∧
      t.mem.delivered = [⟨u, id.toNat, 32 * w, some (s.memBytes id.toNat (32 * w) 32, [0])⟩] ∧ t.mem.bytes = s.mem.bytes ∧
      Store.get .good t.mem.bad (memKey id.toNat w) = markOf loc ∧
      t.fld (fld_SELV_UE_UE mediumDram) = min (2 ^ (fld_SELV_UE_UE mediumDram).width - 1) (s.fld (fld_SELV_UE_UE mediumDram) + 1) ∧
      t.fld fld_SELV_LAST_SWATCH = u ∧ t.fld fld_SELV_LAST_MEDIUM = mediumDram ∧
      .report ⟨faultSelvedgeUe, u, BitVec.ofNat 32 (mediumDram + if loc then 4 else 0), s.stamp⟩ ∈ t.integ.flits) ∧
  (∀ (u : Fin 48) (id : Word) (w : Nat) (o : MemObject) (s : State), s.moverRuns = true → s.swatchRuns u = true → isTile id.toNat = false →
    s.object id.toNat = some o → o.home = tierDram → s.reaches u id.toNat (32 * w) 32 = true → Store.get .good s.mem.bad (memKey id.toNat w) ≠ .good →
    ∃ t, exec (.objectAccess u id (32 * w) 32 none ⟨[], []⟩) s = .next t ∧
      t.mem.delivered = [⟨u, id.toNat, 32 * w, some (s.memBytes id.toNat (32 * w) 32, [0])⟩] ∧ t.mem.bad = s.mem.bad ∧
      t.fld (fld_SELV_UE_UE mediumDram) = min (2 ^ (fld_SELV_UE_UE mediumDram).width - 1) (s.fld (fld_SELV_UE_UE mediumDram) + 1)) ∧
  (∀ (e : SymbolErrors) (s : State), (s.moverRuns = false ∨ s.runsClassD = false ∨ s.fld fld_MEM_MOVE_CFG_SCRUB_MBS = 0 ∨ s.dataBytes = 0 ∨
      (if (s.dramPlace s.mem.scrub).interface = 0 then s.flag fld_MEM_CFG_IF0_EN else s.flag fld_MEM_CFG_IF1_EN) = false) →
    exec (.patrolScrubRead e) s = .next s) ∧
  (∀ (e : SymbolErrors) (id off p : Nat) (v : Byte) (s : State), s.moverRuns = true → s.runsClassD = true → s.fld fld_MEM_MOVE_CFG_SCRUB_MBS ≠ 0 →
    s.dataBytes ≠ 0 → (if (s.dramPlace s.mem.scrub).interface = 0 then s.flag fld_MEM_CFG_IF0_EN else s.flag fld_MEM_CFG_IF1_EN) = true →
    s.ownerOf s.mem.scrub = some (id, off) → Store.get .good s.mem.bad (memKey id (off / 32)) = .good →
    checkWord (s.memBytes id off 32) (dramTag (s.mem.scrub / 32)) e = .corrected p v →
    ∃ t, exec (.patrolScrubRead e) s = .next t ∧ t.mem.scrub = s.nextScrub ∧
      t.memBytes id off 32 = applySymbols (s.memBytes id off 32) (e ++ [(p, v)]) ∧
      t.fld (fld_SELV_CE_CE mediumDram) = min (2 ^ (fld_SELV_CE_CE mediumDram).width - 1) (s.fld (fld_SELV_CE_CE mediumDram) + 1)) ∧
  (∀ (e : SymbolErrors) (id off : Nat) (loc : Bool) (s : State), s.moverRuns = true → s.runsClassD = true → s.fld fld_MEM_MOVE_CFG_SCRUB_MBS ≠ 0 →
    s.dataBytes ≠ 0 → (if (s.dramPlace s.mem.scrub).interface = 0 then s.flag fld_MEM_CFG_IF0_EN else s.flag fld_MEM_CFG_IF1_EN) = true →
    s.ownerOf s.mem.scrub = some (id, off) → Store.get .good s.mem.bad (memKey id (off / 32)) = .good →
    checkWord (s.memBytes id off 32) (dramTag (s.mem.scrub / 32)) e = .uncorrectable loc →
    ∃ t, exec (.patrolScrubRead e) s = .next t ∧ t.mem.scrub = s.nextScrub ∧ Store.get .good t.mem.bad (memKey id (off / 32)) = markOf loc ∧
      t.flag fld_SELV_LAST_SCRUB = true ∧ t.mem.bytes = s.mem.bytes ∧
      t.fld (fld_SELV_UE_UE mediumDram) = min (2 ^ (fld_SELV_UE_UE mediumDram).width - 1) (s.fld (fld_SELV_UE_UE mediumDram) + 1)) ∧
  (∀ (w : Fin 48) (a : Nat) (e : SymbolErrors) (s : State), (s.swatchRuns w = false ∨
      (Store.get .good s.sramBad (sramKey w (a / 32)) = .good ∧ selvedgeCheck e = .clean)) → exec (.sramIdleScrub w a e) s = .next s) ∧
  (∀ (w : Fin 48) (a : Nat) (e : SymbolErrors) (s : State), s.swatchRuns w = true → Store.get .good s.sramBad (sramKey w (a / 32)) ≠ .good →
    ∃ t, exec (.sramIdleScrub w a e) s = .next t ∧ t.sramBad = s.sramBad ∧
      t.fld (fld_SELV_UE_UE mediumSram) = min (2 ^ (fld_SELV_UE_UE mediumSram).width - 1) (s.fld (fld_SELV_UE_UE mediumSram) + 1)) ∧
  (∀ (s : State), (s.moverRuns = false ∨ s.dozing = true ∨ s.flag fld_SYS_LOCK_LOCKED = false ∨ s.dirReady = true ∨ s.tileRegionBad = true) →
    exec .directoryRebuildDone s = .next { s with mem := { s.mem with results := [], delivered := [] } }) ∧
  (∀ (c : Fin 16) (s : State), (s.moverRuns = false ∨ s.runsClassD = false ∨ (s.fewErased c || s.waitsForRun c) = false ∨ s.power.nandHeld = true ∨
      s.channelReady (tileId c) tierFlash = false ∨ s.reclaimBlock c = none) →
    exec (.tileRegionReclaim c) s = .next { s with mem := { s.mem with results := [], delivered := [] } }) ∧
  (∀ (c : Fin 16) (b id : Nat) (r : TileRecord) (o : MemObject) (s : State), s.moverRuns = true → s.runsClassD = true →
    (s.fewErased c || s.waitsForRun c) = true → s.power.nandHeld = false → s.channelReady (tileId c) tierFlash = true → s.reclaimBlock c = some b →
    s.mem.waiting = [] → s.liveRecords c = [(id, r)] → r.first < (b + 1) * s.nandPages → b * s.nandPages < r.first + recordPages r.size →
    s.object id = some o → s.runStarts c (recordPages r.size) (some b) ≠ [] →
    ∃ t p, exec (.tileRegionReclaim c) s = .next t ∧ t.object id = some { o with record := some { r with first := p } } ∧ p / s.nandPages ≠ b ∧
      t.programmedIn c b = 0 ∧ t.mem.recordBytes = s.mem.recordBytes ∧ t.mem.bytes = s.mem.bytes ∧ (∀ k, k ≠ id → t.object k = s.object k) ∧ t.regs = s.regs)

/-- R354 to R371: the commands of TRACK's updates. -/
def Obligations.TrackUpdatesEndAsTheyShould : Prop :=
  (∀ (object : Bool) (set : Fin 12) (u : TrackUpdate) (s : State), s.swatchRuns trackSwatch = true → s.trackUpdate object set = some u →
    s.track.updates.filter u.same = [u] →
    ∃ t, exec (.trackingUpdateDrop object set) s = .next t ∧ (∀ v ∈ t.track.updates, u.same v = false) ∧
      (∀ v ∈ s.track.updates, (v.object ≠ object ∨ v.set ≠ set.val) → v ∈ t.track.updates) ∧
      t.fld (if object then fld_TF_CONS_DROP_OBJECT else fld_TF_CONS_DROP_FEATURE) =
        min (2 ^ (if object then fld_TF_CONS_DROP_OBJECT else fld_TF_CONS_DROP_FEATURE).width - 1)
          (s.fld (if object then fld_TF_CONS_DROP_OBJECT else fld_TF_CONS_DROP_FEATURE) + 1) ∧
      t.track.features = s.track.features ∧ t.track.objects = s.track.objects ∧ t.track.batches = s.track.batches ∧ t.sram = s.sram) ∧
  (∀ (set : Fin 12) (u : TrackUpdate) (s : State), s.swatchRuns trackSwatch = true → s.trackUpdate false set = some u →
    ∃ t b, exec (.featureUpdateDone set) s = .next t ∧ (∀ v ∈ t.track.updates, u.same v = false) ∧ t.track.batchCount = s.track.batchCount + 1 ∧
      Store.get [] t.track.batches set = b ∧ field b 0 1 = set ∧ field b 4 4 = u.sequence % 2 ^ 32 ∧
      (t.setState false set).lastTov = some u.tov ∧ t.track.objects = s.track.objects ∧
      t.fld fld_FT_USE_ACTIVE = (t.track.features.filter (fun e => e.2.state != trackFree)).length % 2 ^ fld_FT_USE_ACTIVE.width) ∧
  (∀ (set : Fin 8) (us : Nat) (u : TrackUpdate) (s : State), s.swatchRuns trackSwatch = true → s.trackUpdate true set = some u → u.pairs = none →
    ∃ t rows pairs, exec (.assignmentDone set us) s = .next t ∧ t.trackUpdate true set = some { u with rows := rows, pairs := some pairs } ∧
      pairs.length = rows.length ∧ t.track.objects = s.track.objects ∧ t.track.features = s.track.features ∧
      t.fld fld_OT_WORST_WORST_US = min (2 ^ fld_OT_WORST_WORST_US.width - 1) (max (s.fld fld_OT_WORST_WORST_US) us)) ∧
  (∀ (set : Fin 8) (u : TrackUpdate) (pairs : List (Option Nat)) (s : State), s.swatchRuns trackSwatch = true → s.trackUpdate true set = some u →
    u.pairs = some pairs →
    ∃ t, exec (.objectUpdateDone set) s = .next t ∧ (∀ v ∈ t.track.updates, u.same v = false) ∧ t.track.batchCount = s.track.batchCount + 1 ∧
      field (Store.get [] t.track.batches (16 + set)) 0 1 = set ∧
      (t.setState true set).lastTov = some u.tov ∧ t.track.features = s.track.features ∧
      t.fld fld_OT_STATUS_USED = (t.track.objects.filter (fun e => e.2.state != 0)).length % 2 ^ fld_OT_STATUS_USED.width) ∧
  (∀ (object : Bool) (set : Fin 12) (u v : TrackUpdate) (s : State), s.swatchRuns trackSwatch = true →
    s.track.updates.filter (fun w => w.object == object && w.set == set.val) = [u, v] → u.same v = false → v.started = false →
    (∀ x, (s.setState object set).lastTov = some x → x < v.tov) →
    ∃ t w, exec (.trackingUpdateDrop object set) s = .next t ∧ t.trackUpdate object set = some w ∧ w.started = true ∧
      w = { v with started := true, points := w.points }) ∧
  (∀ (object : Bool) (set : Fin 12) (s : State), (s.swatchRuns trackSwatch = false ∨ s.trackUpdate object set = none) →
    exec (.trackingUpdateDrop object set) s = .next s) ∧
  (∀ (set : Fin 12) (s : State), (s.swatchRuns trackSwatch = false ∨ s.trackUpdate false set = none) → exec (.featureUpdateDone set) s = .next s) ∧
  (∀ (set : Fin 8) (us : Nat) (s : State), (s.swatchRuns trackSwatch = false ∨ ∀ u, s.trackUpdate true set = some u → u.pairs ≠ none) →
    exec (.assignmentDone set us) s = .next s) ∧
  (∀ (set : Fin 8) (s : State), (s.swatchRuns trackSwatch = false ∨ ∀ u, s.trackUpdate true set = some u → u.pairs = none) →
    exec (.objectUpdateDone set) s = .next s)

/-- R376 to R415: the commands that load, queue, start, stop and compare. -/
def Obligations.SolverQueuesStartsAndStops : Prop :=
  (∀ (k : Fin 8) (s : State), s.unjudged 0 k = true → s.castAt .applied = true → s.recordsComplete 0 = true → s.applyStaged.paired = false →
    s.applyStaged.unjudged 0 k = true → (List.range k.val).all (fun j => !s.applyStaged.unjudged 0 j) = true →
    ∃ t, exec (.residencyAnalysisDone 0 k) s = .next t ∧ t = { s with solv := t.solv } ∧
      (t.solverSlot 0 k).code = s.applyStaged.residencyCode 0 k (s.applyStaged.descriptor 0 k) (s.applyStaged.classARefuses 0 k) ∧
      (∀ j, j ≠ k.val → t.solverSlot 0 j = s.applyStaged.solverSlot 0 j)) ∧
  (∀ (k : Fin 8) (d v : Word) (s : State), s.swatchRuns (solverSwatch 1) = true → s.admitsClassC = true →
    ∃ t, exec (.load 0 k d v) s = .next t ∧
      t = { s with solv := { s.solv with told := (.map, []) :: s.solv.told.filter (fun e => e.1 != SolverTask.map) } }) ∧
  (∀ (k : Fin 8) (d v : Word) (s : State), s.swatchRuns (solverSwatch 1) = true → s.admitsClassC = true → s.solv.loading = none → s.slotNamed k = false →
    s.classASlot 1 k = false → s.mem.pins = [] → d ≠ v → s.evicting d.toNat = false → s.evicting v.toNat = false →
    ∃ t, exec (.load 1 k d v) s = .next t ∧
      t = { s with solv := { s.solv with loading := some ⟨k, d.toNat, v.toNat, true⟩ }, mem := { s.mem with pins := [⟨14, d.toNat, 1⟩, ⟨14, v.toNat, 1⟩] } }) ∧
  (∀ (l : SolverLoad) (s : State), s.swatchRuns (solverSwatch 1) = true → s.solv.loading = some l →
    ∃ t, exec .loadDone s = .next t ∧ t.solv.loading = none ∧
      (t.solverSlot 1 l.slot).code = s.residencyCode 1 l.slot (s.wholeObject l.descriptor) (fun _ => true) ∧
      (∀ k, k ≠ l.slot → t.solverSlot 1 k = s.solverSlot 1 k) ∧ t.solv.queue = s.solv.queue ∧ (s.mem.bad = [] → t.regs = s.regs) ∧
      ((t.solverSlot 1 l.slot).code ≠ codeResident → t.solv.told.head? = some (.map, []))) ∧
  (∀ (b : List Byte) (s : State), s.swatchRuns (solverSwatch 1) = true → s.admitsWork = true → 16 ≤ s.solv.queue.length →
    ∃ t, exec (.problemSubmit 2 b) s = .next t ∧
      t.fld (fld_SOLV_QUEUE_REFUSED 1) = min (2 ^ (fld_SOLV_QUEUE_REFUSED 1).width - 1) (s.fld (fld_SOLV_QUEUE_REFUSED 1) + 1) ∧
      t.solv = { s.solv with told := (.map, []) :: s.solv.told.filter (fun e => e.1 != SolverTask.map) } ∧ RegsBut [fld_SOLV_QUEUE_REFUSED 1] s t) ∧
  (∀ (task : Fin 3) (b : List Byte) (s : State), s.swatchRuns (solverSwatch 1) = true → s.admitsWork = true → s.solv.queue.length < 16 →
    (readRequest b).slot < 8 → (s.solverSlot 1 (readRequest b).slot).code = codeResident →
    ∃ t, exec (.problemSubmit task b) s = .next t ∧
      t = { s with solv := { s.solv with queue := insertBy (fun a b => decide (a.2.deadline < b.2.deadline)) (taskOf task, readRequest b) s.solv.queue } }) ∧
  (∀ (r : SolverRequest) (q : List (SolverTask × SolverRequest)) (st : Structure) (s : State), s.problem 1 = none → s.solv.suspended = none →
    s.swatchRuns (solverSwatch 1) = true → s.classAHolds = false → s.admitsWork = true → s.solv.queue = (.marginal, r) :: q → s.structureOf 1 r.slot = some st →
    s.stamp < r.deadline → r.wantsWarm = false → s.mem.bad = [] →
    ∃ t, exec .problemStart s = .next t ∧
      t.problem 1 = some (newProblem r .marginal (Store.get 0 s.solv.numbers 1) st (s.solverSlot 1 r.slot).values s.stamp s.brown) ∧
      t.solv.queue = q ∧ Store.get 0 t.solv.numbers 1 = Store.get 0 s.solv.numbers 1 + 1 ∧ t = { s with solv := t.solv }) ∧
  (∀ (r : SolverRequest) (q : List (SolverTask × SolverRequest)) (st : Structure) (s : State), s.problem 1 = none → s.solv.suspended = none →
    s.swatchRuns (solverSwatch 1) = true → s.classAHolds = false → s.admitsWork = true → s.solv.queue = (.map, r) :: q → s.structureOf 1 r.slot = some st →
    r.deadline ≤ s.stamp →
    ∃ t rec, exec .problemStart s = .next t ∧ t.problem 1 = none ∧ t.solv.queue = q ∧ t.solv.told.head? = some (.map, rec) ∧ field rec 0 1 = solDeadlineFact ∧
      t.fld (fld_SOLV_CODES_1_DEADLINE_FACT 1) = min (2 ^ (fld_SOLV_CODES_1_DEADLINE_FACT 1).width - 1) (s.fld (fld_SOLV_CODES_1_DEADLINE_FACT 1) + 1)) ∧
  (∀ (p : Problem) (st : Structure) (s : State), s.swatchRuns (solverSwatch 1) = true → s.solv.suspended = none → s.problem 1 = some p → p.task = .map →
    s.structureOf 1 p.request.slot = some st → p.phase ≤ 1 →
    ∃ t rec, exec (.problemDeadline 1) s = .next t ∧ t.problem 1 = none ∧ t.solv.told.head? = some (.map, rec) ∧ field rec 0 1 = solDeadlineFact ∧
      t.fld (fld_SOLV_CODES_1_DEADLINE_FACT 1) = min (2 ^ (fld_SOLV_CODES_1_DEADLINE_FACT 1).width - 1) (s.fld (fld_SOLV_CODES_1_DEADLINE_FACT 1) + 1) ∧
      t.solv.slots = s.solv.slots ∧ t.solv.queue = s.solv.queue) ∧
  (∀ (p : Problem) (s : State), s.swatchRuns (solverSwatch 1) = true → s.classAHolds = true → s.problem 1 = some p → p.task ≠ .classA →
    ∃ t, exec .solv1Suspend s = .next t ∧ t.problem 1 = none ∧ t.solv.suspended = some { p with pausedAt := s.stamp } ∧
      t.fld (fld_SOLV_QUEUE_SUSPENDS 1) = min (2 ^ (fld_SOLV_QUEUE_SUSPENDS 1).width - 1) (s.fld (fld_SOLV_QUEUE_SUSPENDS 1) + 1) ∧
      RegsBut [fld_SOLV_QUEUE_SUSPENDS 1] s t) ∧
  (∀ (x : StopPoint) (s : State), s.swatchRuns (solverSwatch 1) = true → s.solv.stopPoint = some x → s.problem 1 = none →
    ∃ t, exec .stopPointReceived s = .next t ∧ t = { s with solv := { s.solv with stopPoint := some { x with received := true } } }) ∧
  (∀ (w : PeriodWork) (a b : SolverResult) (s : State), s.clsA.work = some w → w.compared = false → s.paired = true → s.solv.suspended = none →
    Store.get none s.solv.formed 0 = some a → Store.get none s.solv.formed 1 = some b → a.compared = b.compared →
    ∃ t, exec .pairCompare s = .next t ∧ t.clsA.work = some { w with result := some (equalResult a b), ready := true, compared := true } ∧
      t.solv = { s.solv with formed := [], stopPoint := none } ∧ t.flag fld_SOLV_PAIR_STATUS_MISMATCH = s.flag fld_SOLV_PAIR_STATUS_MISMATCH) ∧
  (∀ (w : PeriodWork) (a b : SolverResult) (s : State), s.clsA.work = some w → w.compared = false → s.paired = true → s.solv.suspended = none →
    Store.get none s.solv.formed 0 = some a → Store.get none s.solv.formed 1 = some b → a.compared ≠ b.compared →
    ∃ t r, exec .pairCompare s = .next t ∧ t.clsA.work = some { w with result := some r, ready := true, compared := true } ∧ r.status = solMismatch ∧
      t.flag fld_SOLV_PAIR_STATUS_MISMATCH = true ∧ t.pair reg_SOLV_PAIR_LAST_LO = w.period % 2 ^ 64 ∧
      (.report ⟨faultSolverMismatch, 13, BitVec.ofNat 32 w.period, s.stamp⟩ ∈ t.integ.flits) ∧
      t.fld (fld_SOLV_CODES_3_MISMATCH 0) = min (2 ^ (fld_SOLV_CODES_3_MISMATCH 0).width - 1) (s.fld (fld_SOLV_CODES_3_MISMATCH 0) + 1) ∧
      t.fld (fld_SOLV_CODES_3_MISMATCH 1) = min (2 ^ (fld_SOLV_CODES_3_MISMATCH 1).width - 1) (s.fld (fld_SOLV_CODES_3_MISMATCH 1) + 1)) ∧
  (∀ (c : Fin 2) (k : Fin 8) (s : State), s.unjudged c k = true → s.castAt .sections = false → s.castAt .applied = false → s.coreRestoring c = true →
    (List.range k.val).all (fun j => !s.unjudged c j) = true → (List.range 8).any (fun j => j != k.val && s.unjudged c j) = true →
    ∃ t, exec (.residencyAnalysisDone c k) s = .next t ∧ t = { s with solv := t.solv } ∧
      ((t.solverSlot c k).code = s.residencyCode c k (s.descriptor c k) (fun x => (c == 1 && !s.paired) || s.classARefuses c k x)) ∧
      (∀ j, j < 8 → j ≠ k.val → t.solverSlot c j = s.solverSlot c j)) ∧
  (∀ (c : Fin 2) (k : Fin 8) (s : State), s.unjudged c k = true → s.castAt .sections = false → s.castAt .applied = false → s.coreRestoring c = true →
    s.paired = false → (List.range 8).all (fun j => j == k.val || !s.unjudged c j) = true → s.descriptor c k ≠ [] →
    ∃ t, exec (.residencyAnalysisDone c k) s = .next t ∧
      (t.solverSlot c k).code = s.residencyCode c k (s.descriptor c k) (fun x => (c == 1 && !s.paired) || s.classARefuses c k x) ∧
      t.groupPhase (groupOf (solverSwatch c)) = .running) ∧
  (∀ (c : Fin 2) (k : Fin 8) (s : State), (s.unjudged c k = false ∨
      (((s.castAt .sections = false ∧ s.castAt .applied = false) ∨ s.recordsComplete c = false) ∧ s.coreRestoring c = false)) →
    exec (.residencyAnalysisDone c k) s = .next s) ∧
  (∀ (c : Fin 2) (k : Fin 8) (d v : Word) (s : State), (s.swatchRuns (solverSwatch 1) = false ∨ s.admitsClassC = false) → exec (.load c k d v) s = .next s) ∧
  (∀ (k : Fin 8) (d v : Word) (s : State), s.swatchRuns (solverSwatch 1) = true → s.admitsClassC = true →
    (s.solv.loading ≠ none ∨ s.slotNamed k = true ∨ s.classASlot 1 k = true ∨ 255 ≤ s.pinCount d.toNat) →
    exec (.load 1 k d v) s = .next { s with solv := { s.solv with told := (.map, []) :: s.solv.told.filter (fun e => e.1 != SolverTask.map) } }) ∧
  (∀ (k : Fin 8) (d v : Word) (s : State), s.swatchRuns (solverSwatch 1) = true → s.admitsClassC = true → s.solv.loading = none → s.slotNamed k = false →
    s.classASlot 1 k = false → (∀ p ∈ s.mem.pins, p.object ≠ d.toNat ∧ p.object ≠ v.toNat) → s.mem.pins.length + 2 ≤ 4096 →
    ∃ t, exec (.load 1 k d v) s = .next t ∧ t.solv = { s.solv with loading := some ⟨k, d.toNat, v.toNat, true⟩ } ∧
      t.pinCount d.toNat = (if d = v then 2 else 1) ∧ t.mem.objects = s.mem.objects) ∧
  (∀ (s : State), (s.swatchRuns (solverSwatch 1) = false ∨ s.solv.loading = none) → exec .loadDone s = .next s) ∧
  (∀ (task : Fin 3) (b : List Byte) (s : State), s.swatchRuns (solverSwatch 1) = true → s.admitsWork = true →
    (16 ≤ s.solv.queue.length ∨ 8 ≤ (readRequest b).slot ∨ (s.solverSlot 1 (readRequest b).slot).code ≠ codeResident) →
    ∃ t, exec (.problemSubmit task b) s = .next t ∧ t.solv.told.head? = some (taskOf task, []) ∧ t.solv.queue = s.solv.queue ∧
      t.window = (if task.val = 0 then { s.window with running := none } else s.window) ∧
      t.fld (fld_SOLV_QUEUE_REFUSED 1) = min (2 ^ (fld_SOLV_QUEUE_REFUSED 1).width - 1) (s.fld (fld_SOLV_QUEUE_REFUSED 1) + 1) ∧
      RegsBut [fld_SOLV_QUEUE_REFUSED 1] s t) ∧
  (∀ (task : Fin 3) (b : List Byte) (s : State), (s.swatchRuns (solverSwatch 1) = false ∨ s.admitsWork = false) →
    exec (.problemSubmit task b) s = .next s) ∧
  (∀ (s : State), (s.problem 1 ≠ none ∨ s.solv.suspended ≠ none ∨ s.swatchRuns (solverSwatch 1) = false ∨ s.classAHolds = true ∨ s.admitsWork = false ∨
      s.solv.queue.find? s.requestStarts = none) → exec .problemStart s = .next s) ∧
  (∀ (r : SolverRequest) (q : List (SolverTask × SolverRequest)) (st : Structure) (s : State), s.problem 1 = none → s.solv.suspended = none →
    s.swatchRuns (solverSwatch 1) = true → s.classAHolds = false → s.admitsClassC = true → s.admitsWork = true → s.solv.queue = (.map, r) :: q →
    s.structureOf 1 r.slot = some st → s.stamp < r.deadline →
    ∃ t p, exec .problemStart s = .next t ∧ t.problem 1 = some p ∧ p.request = r ∧ p.task = .map ∧ p.number = Store.get 0 s.solv.numbers 1 ∧
      p.point.length = 7 * s.map.graph.length ∧ p.stage = .assembly ∧ p.warmRejected = false ∧ t.solv.queue = q) ∧
  (∀ (r : SolverRequest) (q : List (SolverTask × SolverRequest)) (st : Structure) (s : State), s.problem 1 = none → s.solv.suspended = none →
    s.swatchRuns (solverSwatch 1) = true → s.classAHolds = false → s.admitsWork = true → s.solv.queue = (.window, r) :: q →
    s.structureOf 1 r.slot = some st → s.stamp < r.deadline →
    ∃ t p, exec .problemStart s = .next t ∧ t.problem 1 = some p ∧ p.request = r ∧ p.task = .window ∧ p.number = Store.get 0 s.solv.numbers 1 ∧
      p.stage = .assembly ∧ p.warmRejected = false ∧ t.solv.queue = q) ∧
  (∀ (r : SolverRequest) (q : List (SolverTask × SolverRequest)) (st : Structure) (s : State), s.problem 1 = none → s.solv.suspended = none →
    s.swatchRuns (solverSwatch 1) = true → s.classAHolds = false → s.admitsWork = true → s.solv.queue = (.marginal, r) :: q → s.structureOf 1 r.slot = some st →
    s.stamp < r.deadline → r.wantsWarm = true → s.memNat r.warmObj 8 8 ≠ st.signature → s.mem.bad = [] →
    ∃ t p, exec .problemStart s = .next t ∧ t.problem 1 = some p ∧ p.warmRejected = true ∧ t.solv.queue = q ∧
      t.fld (fld_SOLV_WARM_WARM_REJECTED 1) = min (2 ^ (fld_SOLV_WARM_WARM_REJECTED 1).width - 1) (s.fld (fld_SOLV_WARM_WARM_REJECTED 1) + 1)) ∧
  (∀ (c : Fin 2) (s : State), s.swatchRuns (solverSwatch c) = false → exec (.problemDeadline c) s = .next s) ∧
  (∀ (s : State), s.otherProblem = none → exec (.problemDeadline 1) s = .next s) ∧
  (∀ (p : Problem) (st : Structure) (s : State), s.swatchRuns (solverSwatch 1) = true → s.solv.suspended = some p → p.task = .map →
    s.structureOf 1 p.request.slot = some st → p.phase ≤ 1 →
    ∃ t rec, exec (.problemDeadline 1) s = .next t ∧ t.problem 1 = s.problem 1 ∧ t.solv.suspended = none ∧ t.solv.told.head? = some (.map, rec) ∧
      field rec 0 1 = solDeadlineFact ∧ t.solv.slots = s.solv.slots ∧ t.solv.queue = s.solv.queue) ∧
  (∀ (p : Problem) (st : Structure) (s : State), s.swatchRuns (solverSwatch 1) = true → s.solv.suspended = none → s.problem 1 = some p → p.task = .map →
    s.structureOf 1 p.request.slot = some st → p.phase = 2 → st.doubleFactor = false →
    ∃ t rec, exec (.problemDeadline 1) s = .next t ∧ t.problem 1 = none ∧ t.solv.told.head? = some (.map, rec) ∧ field rec 0 1 = solDeadlineFact ∧
      (t.solverSlot 1 p.request.slot).factor = none ∧ (t.solverSlot 1 p.request.slot).dirty = true) ∧
  (∀ (p : Problem) (st : Structure) (s : State), s.swatchRuns (solverSwatch 1) = true → s.solv.suspended = none → s.problem 1 = some p → p.task = .map →
    s.structureOf 1 p.request.slot = some st → 3 ≤ p.phase →
    ∃ t rec, exec (.problemDeadline 1) s = .next t ∧ t.problem 1 = none ∧ t.solv.told.head? = some (.map, rec) ∧
      field rec 0 1 = (if s.usedProved 1 st p = true ∧ (st.kind = kindQp ∧ 0 < p.iterations ∧ p.acceptable = true ∨ st.kind = kindNls ∧ 0 < p.accepted)
        then solInaccurate else solDeadlineIter)) ∧
  (∀ (s : State), (∀ w, s.clsA.work = some w → w.ready = true) → exec (.problemDeadline 0) s = .next s) ∧
  (∀ (w : PeriodWork) (p : Problem) (st : Structure) (s : State), s.swatchRuns (solverSwatch 0) = true → s.clsA.work = some w → w.ready = false →
    w.published = true → s.classAProblem 0 = some (p, st) → s.paired = false → p.phase ≤ 1 →
    ∃ t r, exec (.problemDeadline 0) s = .next t ∧ t.problem 0 = none ∧ r.status = solDeadlineFact ∧
      t.clsA.work = some { w with result := some r, ready := true, compared := true }) ∧
  (∀ (w : PeriodWork) (p : Problem) (st : Structure) (s : State), s.swatchRuns (solverSwatch 0) = true → s.clsA.work = some w → w.ready = false →
    w.published = true → s.classAProblem 0 = some (p, st) → s.paired = true →
    ∃ t, exec (.problemDeadline 0) s = .next t ∧ t.problem 0 = none ∧ (Store.get none t.solv.formed 0).isSome = true ∧
      t.solv.stopPoint = some ⟨p.phase, p.steps, s.usedProved 0 st p, false⟩ ∧ t.clsA.work = some w) ∧
  (∀ (s : State), (s.classAHolds = false ∨ s.swatchRuns (solverSwatch 1) = false ∨ ∀ p, s.problem 1 = some p → p.task = .classA) →
    exec .solv1Suspend s = .next s) ∧
  (∀ (s : State), (s.swatchRuns (solverSwatch 1) = false ∨ s.solv.stopPoint = none) → exec .stopPointReceived s = .next s) ∧
  (∀ (x : StopPoint) (p : Problem) (st : Structure) (s : State), s.swatchRuns (solverSwatch 1) = true → s.solv.stopPoint = some x → s.problem 1 = some p →
    s.structureOf 1 p.request.slot = some st → p.task = .classA → x.steps ≤ p.steps → (x.proved = true → s.usedProved 1 st p = true) →
    ∃ t, exec .stopPointReceived s = .next t ∧ t.problem 1 = none ∧ (Store.get none t.solv.formed 1).isSome = true ∧
      t.solv.stopPoint = some { x with received := true }) ∧
  (∀ (x : StopPoint) (p : Problem) (s : State), s.swatchRuns (solverSwatch 1) = true → s.solv.stopPoint = some x → s.problem 1 = some p →
    (p.task ≠ .classA ∨ p.steps < x.steps) →
    exec .stopPointReceived s = .next { s with solv := { s.solv with stopPoint := some { x with received := true } } }) ∧
  (∀ (s : State), (s.clsA.work = none ∨ Store.get none s.solv.formed 0 = none ∨ Store.get none s.solv.formed 1 = none ∨ s.paired = false ∨
      ∃ w, s.clsA.work = some w ∧ w.compared = true) → exec .pairCompare s = .next s) ∧
  (∀ (w : PeriodWork) (a b : SolverResult) (p : Problem) (s : State), s.clsA.work = some w → w.compared = false → s.paired = true → s.solv.suspended = some p →
    s.problem 1 = none → Store.get none s.solv.formed 0 = some a → Store.get none s.solv.formed 1 = some b →
    ∃ t, exec .pairCompare s = .next t ∧ t.solv.suspended = none ∧
      t.problem 1 = some { p with waitNs := p.waitNs + (s.stamp - p.pausedAt) / 2 ^ 16, brown := p.brown || s.brown } ∧
      t.clsA.work.map (·.ready) = some true)

/-- R383 to R434: one unit of a problem's work. -/
def Obligations.SolverUnitsLeadOneToTheNext : Prop :=
  (∀ (c : Fin 2) (cycles : Nat) (p : Problem) (st : Structure) (s : State), s.atStage c .assembly = some (p, st) → (p.task ≠ .classA ∨ s.solv.stopPoint = none) → p.request.feed = 0 →
    st.kind ≠ kindNls →
    ∃ t q, exec (.assemblyDone c cycles) s = .next t ∧ t.problem c = some q ∧
      q.stage = (if s.mustFactorise c st p then .factor else .solve) ∧ q.steps = p.steps + 1 ∧ q.cycles = p.cycles + cycles ∧ q.request = p.request ∧
      t.solverSlot c p.request.slot = s.solverSlot c p.request.slot) ∧
  (∀ (c : Fin 2) (cycles : Nat) (p : Problem) (st : Structure) (f : Factor) (s : State), s.atStage c .factor = some (p, st) → (p.task ≠ .classA ∨ s.solv.stopPoint = none) →
    st.factorise (s.workingMatrix c st p).1 (s.workingMatrix c st p).2 (s.pivotExp c p) = .ok f →
    ∃ t q, exec (.factorisationDone c cycles) s = .next t ∧ t.problem c = some q ∧ q.stage = .solve ∧ q.refactored = true ∧ q.refactors = p.refactors + 1 ∧
      (t.solverSlot c p.request.slot).factor = some f ∧ (t.solverSlot c p.request.slot).dirty = false ∧
      (t.solverSlot c p.request.slot).values = (s.solverSlot c p.request.slot).values) ∧
  (∀ (c : Fin 2) (cycles : Nat) (p : Problem) (st : Structure) (j : Nat) (s : State), s.atStage c .factor = some (p, st) → p.task = .map →
    st.factorise (s.workingMatrix c st p).1 (s.workingMatrix c st p).2 (s.pivotExp c p) = .error j →
    ∃ t rec, exec (.factorisationDone c cycles) s = .next t ∧ t.problem c = none ∧ t.solv.told.head? = some (.map, rec) ∧ field rec 0 1 = solNumeric ∧
      t.fld (fld_SOLV_CODES_3_NUMERIC c) = min (2 ^ (fld_SOLV_CODES_3_NUMERIC c).width - 1) (s.fld (fld_SOLV_CODES_3_NUMERIC c) + 1)) ∧
  (∀ (c : Fin 2) (cycles : Nat) (p : Problem) (st : Structure) (f : Factor) (s : State), s.atStage c .solve = some (p, st) → (p.task ≠ .classA ∨ s.solv.stopPoint = none) →
    (s.solverSlot c p.request.slot).factor = some f → allFinite (st.solve f (s.solveRhs c st p)) = true →
    ∃ t q, exec (.solveDone c cycles) s = .next t ∧ t.problem c = some q ∧ q.last.map (·.sol) = some (st.solve f (s.solveRhs c st p)) ∧
      q.stage = (if st.kind = kindLinear then (if f.proved then .final else .proof) else .judge) ∧
      t.solv.slots = s.solv.slots) ∧
  (∀ (c : Fin 2) (cycles : Nat) (p : Problem) (st : Structure) (v : Solve) (l : List Solve) (s : State), s.swatchRuns (solverSwatch c) = true →
    s.problem c = some p → p.task ≠ .classA → s.structureOf c p.request.slot = some st → p.proofs = v :: l →
    v.etaCheck.le (tolerance (s.fld (fld_SOLV_CFG_PROOF_EXP c))) = true →
    ∃ t q, exec (.proofCheckDone c cycles) s = .next t ∧ t.problem c = some q ∧ q.proofs = l ∧ t.regs = s.regs ∧
      (∀ f, (s.solverSlot c p.request.slot).factor = some f → f.same v.factor = true →
        (t.solverSlot c p.request.slot).factor = some { f with proved := true })) ∧
  (∀ (c : Fin 2) (cycles : Nat) (p : Problem) (st : Structure) (v : Solve) (l : List Solve) (s : State), s.swatchRuns (solverSwatch c) = true →
    s.problem c = some p → p.task = .map → s.structureOf c p.request.slot = some st → p.proofs = v :: l →
    v.etaCheck.le (tolerance (s.fld (fld_SOLV_CFG_PROOF_EXP c))) = false →
    ∃ t rec, exec (.proofCheckDone c cycles) s = .next t ∧ t.problem c = none ∧ t.solv.told.head? = some (.map, rec) ∧ field rec 0 1 = solNumeric ∧
      t.fld (fld_SOLV_ERR_CHECK_FAIL c) = min (2 ^ (fld_SOLV_ERR_CHECK_FAIL c).width - 1) (s.fld (fld_SOLV_ERR_CHECK_FAIL c) + 1) ∧
      (.report ⟨faultSolverCheck, solverSwatch c, BitVec.ofNat 32 (c + 4), s.stamp⟩ ∈ t.integ.flits)) ∧
  (∀ (c : Fin 2) (cycles : Nat) (p : Problem) (st : Structure) (v : Solve) (s : State), s.atStage c .judge = some (p, st) → (p.task ≠ .classA ∨ s.solv.stopPoint = none) →
    p.last = some v → st.kind = kindQp → ((s.slotQp c st p).advance p.cur v.sol).finite = true →
    ∃ t q, exec (.iterationDone c cycles) s = .next t ∧ t.problem c = some q ∧ q.iterations = p.iterations + 1 ∧
      q.cur = (s.slotQp c st p).advance p.cur v.sol ∧ q.prev = p.cur ∧ t.solv.slots = s.solv.slots) ∧
  (∀ (c : Fin 2) (cycles : Nat) (p : Problem) (st : Structure) (v : Solve) (s : State), s.atStage c .final = some (p, st) → (p.task ≠ .classA ∨ s.solv.stopPoint = none) →
    p.finalSolve st.kind = some v → s.refined c p v = false →
    ∃ t q, exec (.refineStepDone c cycles) s = .next t ∧ t.problem c = some q ∧ q.refineSteps = p.refineSteps + 1 ∧
      q.finalSolve st.kind = some (st.refineOnce v) ∧ t.solv.slots = s.solv.slots) ∧
  (∀ (c : Fin 2) (cycles : Nat) (p : Problem) (st : Structure) (v : Solve) (s : State), s.atStage c .final = some (p, st) → p.task = .map →
    p.finalSolve st.kind = some v → s.refined c p v = true → st.kind = kindLinear → p.warmRejected = false →
    v.etaCheck.le (tolerance (s.fld (fld_SOLV_CFG_CHECK_EXP c))) = true →
    ∃ t rec, exec (.finalCheckDone c cycles) s = .next t ∧ t.problem c = none ∧ t.solv.told.head? = some (.map, rec) ∧ field rec 0 1 = solSolved ∧
      t.fld (fld_SOLV_CODES_0_SOLVED c) = min (2 ^ (fld_SOLV_CODES_0_SOLVED c).width - 1) (s.fld (fld_SOLV_CODES_0_SOLVED c) + 1)) ∧
  (∀ (c : Fin 2) (cycles : Nat) (p : Problem) (st : Structure) (v : Solve) (s : State), s.atStage c .final = some (p, st) → p.task = .map →
    p.finalSolve st.kind = some v → s.refined c p v = true → v.etaCheck.le (tolerance (s.fld (fld_SOLV_CFG_CHECK_EXP c))) = false →
    ∃ t rec, exec (.finalCheckDone c cycles) s = .next t ∧ t.problem c = none ∧ t.solv.told.head? = some (.map, rec) ∧ field rec 0 1 = solNumeric ∧
      t.fld (fld_SOLV_ERR_CHECK_FAIL c) = min (2 ^ (fld_SOLV_ERR_CHECK_FAIL c).width - 1) (s.fld (fld_SOLV_ERR_CHECK_FAIL c) + 1)) ∧
  (∀ (c : Fin 2) (cycles : Nat) (p : Problem) (st : Structure) (s : State), s.atStage c .assembly = some (p, st) → p.task ≠ .classA → p.request.feed = 1 →
    st.kind ≠ kindNls →
    ∃ t q, exec (.assemblyDone c cycles) s = .next t ∧ t.problem c = some q ∧
      (t.solverSlot c p.request.slot).values = (st.applyDeltas (s.solverSlot c p.request.slot).values (s.deltasFrom p.request)).1 ∧
      (t.solverSlot c p.request.slot).factor = (s.solverSlot c p.request.slot).factor ∧
      t.fld (fld_SOLV_ERR_ENTRY_SKIPPED c) = min (2 ^ (fld_SOLV_ERR_ENTRY_SKIPPED c).width - 1) (s.fld (fld_SOLV_ERR_ENTRY_SKIPPED c) +
        (st.applyDeltas (s.solverSlot c p.request.slot).values (s.deltasFrom p.request)).2.1)) ∧
  (∀ (c : Fin 2) (cycles : Nat) (p : Problem) (st : Structure) (s : State), s.atStage c .assembly = some (p, st) → p.task ≠ .classA → p.request.feed = 2 →
    st.kind ≠ kindNls →
    ∃ t q, exec (.assemblyDone c cycles) s = .next t ∧ t.problem c = some q ∧
      (t.solverSlot c p.request.slot).values = (st.assemble (s.solverSlot c p.request.slot).values
        (Store.setMany 0 [] 0 (s.objectWords p.request.feedObj (8 * p.request.deltaCount) st.inputWords))).1) ∧
  (∀ (c : Fin 2) (cycles : Nat) (p : Problem) (st : Structure) (s : State), s.atStage c .assembly = some (p, st) →
    (p.task ≠ .classA ∨ s.solv.stopPoint = none) → st.kind = kindNls →
    ∃ t q, exec (.assemblyDone c cycles) s = .next t ∧ t.problem c = some q ∧ (q.stage = .factor ∨ q.stage = .solve) ∧ q.from_ = q.point ∧
      q.cost = s.costAt (s.modelOf p) q.point ∧ q.costFirst = q.cost ∧ q.steps = p.steps + 1) ∧
  (∀ (c : Fin 2) (cycles : Nat) (p : Problem) (st : Structure) (j : Nat) (s : State), s.atStage c .factor = some (p, st) →
    st.factorise (s.workingMatrix c st p).1 (s.workingMatrix c st p).2 (s.pivotExp c p) = .error j →
    ∃ t, exec (.factorisationDone c cycles) s = .next t ∧ t.problem c = none ∧
      (st.doubleFactor = false → (t.solverSlot c p.request.slot).factor = none)) ∧
  (∀ (c : Fin 2) (cycles : Nat) (p : Problem) (st : Structure) (f : Factor) (s : State), s.atStage c .solve = some (p, st) → p.task = .map →
    (s.solverSlot c p.request.slot).factor = some f → allFinite (st.solve f (s.solveRhs c st p)) = false →
    ∃ t rec, exec (.solveDone c cycles) s = .next t ∧ t.problem c = none ∧ t.solv.told.head? = some (.map, rec) ∧ field rec 0 1 = solNumeric) ∧
  (∀ (c : Fin 2) (cycles : Nat) (p : Problem) (st : Structure) (v : Solve) (l : List Solve) (s : State), s.swatchRuns (solverSwatch c) = true →
    s.problem c = some p → p.task = .classA → s.solv.stopPoint = none → s.mayProve c p = true → s.structureOf c p.request.slot = some st → p.proofs = v :: l →
    v.etaCheck.le (tolerance (s.fld (fld_SOLV_CFG_PROOF_EXP 0))) = true →
    ∃ t q, exec (.proofCheckDone c cycles) s = .next t ∧ t.problem c = some q ∧ q.proofs = l ∧ t.regs = s.regs) ∧
  (∀ (c : Fin 2) (cycles : Nat) (p : Problem) (st : Structure) (v : Solve) (s : State), s.atStage c .judge = some (p, st) → p.task = .map →
    p.last = some v → st.kind = kindQp → ((s.slotQp c st p).advance p.cur v.sol).finite = false →
    ∃ t rec, exec (.iterationDone c cycles) s = .next t ∧ t.problem c = none ∧ t.solv.told.head? = some (.map, rec) ∧ field rec 0 1 = solNumeric) ∧
  (∀ (c : Fin 2) (cycles : Nat) (p : Problem) (st : Structure) (v : Solve) (s : State), s.atStage c .judge = some (p, st) → p.task = .map →
    p.last = some v → st.kind = kindNls → (s.costAt (s.modelOf p) (s.retract (s.modelOf p) p.point v.sol)).finite = true →
    (s.costAt (s.modelOf p) (s.retract (s.modelOf p) p.point v.sol)).lt p.cost = true →
    ∃ t q, exec (.iterationDone c cycles) s = .next t ∧ t.problem c = some q ∧ q.accepted = p.accepted + 1 ∧ q.iterations = p.iterations + 1 ∧
      q.point = s.retract (s.modelOf p) p.point v.sol ∧ q.from_ = p.point ∧ q.cost = s.costAt (s.modelOf p) q.point ∧
      q.lambda = (fp32.div p.lambda (Fp.ofRat 8)).max lambdaMin) ∧
  (∀ (c : Fin 2) (cycles : Nat) (p : Problem) (st : Structure) (v : Solve) (s : State), s.atStage c .judge = some (p, st) → p.task = .map →
    p.last = some v → st.kind = kindNls → (s.costAt (s.modelOf p) (s.retract (s.modelOf p) p.point v.sol)).finite = true →
    (s.costAt (s.modelOf p) (s.retract (s.modelOf p) p.point v.sol)).lt p.cost = false → lambdaMax.lt (fp32.mul (Fp.ofRat 8) p.lambda) = false →
    p.iterations + 1 < p.iterCap → p.refactors < p.request.refactMax →
    ∃ t q, exec (.iterationDone c cycles) s = .next t ∧ t.problem c = some q ∧ q.accepted = p.accepted ∧ q.iterations = p.iterations + 1 ∧
      q.point = p.point ∧ q.cost = p.cost ∧ q.lambda = fp32.mul (Fp.ofRat 8) p.lambda ∧ q.stage = .factor ∧ t.solv.slots = s.solv.slots) ∧
  (∀ (c : Fin 2) (cycles : Nat) (p : Problem) (st : Structure) (v : Solve) (s : State), s.atStage c .final = some (p, st) → p.task = .map →
    p.finalSolve st.kind = some v → s.refined c p v = true → st.kind = kindLinear → p.warmRejected = true →
    v.etaCheck.le (tolerance (s.fld (fld_SOLV_CFG_CHECK_EXP c))) = true →
    ∃ t rec, exec (.finalCheckDone c cycles) s = .next t ∧ t.problem c = none ∧ t.solv.told.head? = some (.map, rec) ∧ field rec 0 1 = solWarmReject ∧
      t.fld (fld_SOLV_CODES_2_WARM_REJECT c) = min (2 ^ (fld_SOLV_CODES_2_WARM_REJECT c).width - 1) (s.fld (fld_SOLV_CODES_2_WARM_REJECT c) + 1)) ∧
  (∀ (c : Fin 2) (cycles : Nat) (p : Problem) (st : Structure) (v : Solve) (s : State), s.atStage c .final = some (p, st) → p.task = .map →
    p.finalSolve st.kind = some v → s.refined c p v = true → st.kind = kindQp → v.etaCheck.le (tolerance (s.fld (fld_SOLV_CFG_CHECK_EXP c))) = true →
    p.cert = 0 → ((s.slotQp c st p).advance p.prev v.sol).finite = true →
    ∃ t rec, exec (.finalCheckDone c cycles) s = .next t ∧ t.problem c = none ∧ t.solv.told.head? = some (.map, rec) ∧
      field rec 0 1 = (if ((s.slotQp c st p).residuals ((s.slotQp c st p).advance p.prev v.sol)).meets (s.slotQp c st p).set.epsAbs (s.slotQp c st p).set.epsRel
          then (if p.warmRejected then solWarmReject else solSolved)
        else if ((s.slotQp c st p).residuals ((s.slotQp c st p).advance p.prev v.sol)).meets (s.slotQp c st p).set.accAbs (s.slotQp c st p).set.accRel
          then solInaccurate else solDeadlineIter)) ∧
  (∀ (c : Fin 2) (cycles : Nat) (p : Problem) (st : Structure) (v : Solve) (s : State), s.atStage c .final = some (p, st) → p.task = .map →
    p.finalSolve st.kind = some v → s.refined c p v = true → st.kind = kindNls → v.etaCheck.le (tolerance (s.fld (fld_SOLV_CFG_CHECK_EXP c))) = true →
    p.request.trail kindNls = 0 →
    ∃ t rec, exec (.finalCheckDone c cycles) s = .next t ∧ t.problem c = none ∧ t.solv.told.head? = some (.map, rec) ∧
      field rec 0 1 = (if p.full then (if p.warmRejected then solWarmReject else solSolved) else solInaccurate)) ∧
  (∀ (c : Fin 2) (n : Nat) (s : State), (s.atStage c .assembly = none → exec (.assemblyDone c n) s = .next s) ∧
    (s.atStage c .factor = none → exec (.factorisationDone c n) s = .next s) ∧ (s.atStage c .solve = none → exec (.solveDone c n) s = .next s) ∧
    (s.atStage c .judge = none → exec (.iterationDone c n) s = .next s) ∧
    (s.atStage c .final = none → exec (.refineStepDone c n) s = .next s ∧ exec (.finalCheckDone c n) s = .next s) ∧
    ((s.problem c = none ∨ s.swatchRuns (solverSwatch c) = false ∨ ∃ p, s.problem c = some p ∧ (p.proofs = [] ∨ s.mayProve c p = false)) →
      exec (.proofCheckDone c n) s = .next s)) ∧
  (∀ (c : Fin 2) (n : Nat) (p : Problem) (st : Structure) (v : Solve) (s : State), s.atStage c .final = some (p, st) → p.finalSolve st.kind = some v →
    (s.refined c p v = true → exec (.refineStepDone c n) s = .next s) ∧ (s.refined c p v = false → exec (.finalCheckDone c n) s = .next s))

/-- R423 to R430: the commands of the window and map tasks. -/
def Obligations.WindowAndMapTasksKeepTheirRecords : Prop :=
  (∀ (b : Stamp × Nat × List Byte) (rest : List (Stamp × Nat × List Byte)) (s : State), s.window.waiting = b :: rest → s.window.running = none →
    s.swatchRuns (solverSwatch 1) = true → s.admitsWork = true → s.window.estimateAt (batchTov b.2.2) = none →
    ∃ t, exec .windowRun s = .next t ∧ t = { s with window := { s.window with waiting := rest } }) ∧
  (∀ (b : Stamp × Nat × List Byte) (rest : List (Stamp × Nat × List Byte)) (e : EstimateEntry) (s : State), s.window.waiting = b :: rest →
    s.window.running = none → s.swatchRuns (solverSwatch 1) = true → s.admitsWork = true → s.window.estimateAt (batchTov b.2.2) = some e →
    ∃ t, exec .windowRun s = .next t ∧ t.window.waiting = rest ∧ t.window.running = some b ∧ t.window.count = s.window.count + 1 ∧
      t.window.frames.getLast? = some ⟨e, b.2.2, s.window.count⟩ ∧ t.window.estimates = s.window.estimates ∧ t.regs = s.regs ∧ t.sram = s.sram) ∧
  (∀ (k : NewNode) (rest : List NewNode) (s : State), s.map.waiting = k :: rest → s.swatchRuns 14 = true → s.admitsClassC = true → s.mem.objects = [] →
    0 < s.freePages → s.map.last = none → k.keypoints = 0 → k.pose.length = 7 → s.dirReady = true → s.tileRegionBad = false →
    (s.cellIndex (ofWord32 (k.pose.getD 4 0).toNat)).2 = s →
    4096 * (s.cellIndex (ofWord32 (k.pose.getD 4 0).toNat)).1 + (s.cellIndex (ofWord32 (k.pose.getD 5 0).toNat)).1 < s.fld fld_MEM_TILE_CFG_DIR_ENTRIES →
    ∃ t id, exec .poseNodeCreate s = .next t ∧ t.map.waiting = rest ∧ t.map.last = some (id, k) ∧ t.map.keyframes = s.map.keyframes + 1 ∧
      id = (4096 * (s.cellIndex (ofWord32 (k.pose.getD 4 0).toNat)).1 + (s.cellIndex (ofWord32 (k.pose.getD 5 0).toNat)).1) * 2 ^ 24 ∧
      t.map.nodes = s.map.nodes ++ [(s.map.keyframes, id)]) ∧
  (∀ (s : State), s.map.admitted = true → s.swatchRuns 14 = true → s.admitsClassC = true → s.graphNodes ≠ [] → s.mem.bad = [] →
    ∃ t, exec .poseGraphBuild s = .next t ∧ t.map.graph = s.graphNodes.map (·.1) ∧ t.map.admitted = false ∧ t.map.nodes = s.map.nodes ∧
      t.solv = s.solv ∧ t.regs = s.regs) ∧
  (∀ (r : List Byte) (s : State), s.solv.told.find? (fun e => e.1 == SolverTask.map) = some (.map, r) →
    ∃ t, exec .poseGraphResult s = .next t ∧ t.map = { s.map with graph := [], modelAt := 0 } ∧
      t.solv = { s.solv with told := s.solv.told.filter (fun e => e.1 != SolverTask.map) } ∧
      (r = [] → t = { s with solv := t.solv, map := t.map })) ∧
  (∀ (s : State), (s.window.waiting = [] ∨ s.window.running ≠ none ∨ s.swatchRuns (solverSwatch 1) = false ∨ s.admitsWork = false) →
    exec .windowRun s = .next s) ∧
  (∀ (s : State), (s.map.waiting = [] ∨ s.swatchRuns 14 = false ∨ s.admitsClassC = false ∨ s.dirReady = false) → exec .poseNodeCreate s = .next s) ∧
  (∀ (k : NewNode) (rest : List NewNode) (s : State), s.map.waiting = k :: rest → s.swatchRuns 14 = true → s.admitsClassC = true → s.dirReady = true →
    s.mem.objects = [] → s.tileRegionBad = true → s.map.last = none →
    ∃ t, exec .poseNodeCreate s = .next t ∧ t.map.waiting = rest ∧ t.map.nodes = s.map.nodes ∧ t.mem.objects = s.mem.objects ∧
      t.fld fld_MEM_MOVE_LOSS_NO_SPACE = min (2 ^ fld_MEM_MOVE_LOSS_NO_SPACE.width - 1) (s.fld fld_MEM_MOVE_LOSS_NO_SPACE + 1)) ∧
  (∀ (s : State), (s.map.admitted = false ∨ s.swatchRuns 14 = false ∨ s.admitsClassC = false ∨ (s.graphNodes = [] ∧ s.mem.bad = [])) →
    exec .poseGraphBuild s = .next s) ∧
  (∀ (s : State), s.solv.told.find? (fun e => e.1 == SolverTask.map) = none → exec .poseGraphResult s = .next s) ∧
  (∀ (r : List Byte) (s : State), s.solv.told.find? (fun e => e.1 == SolverTask.map) = some (.map, r) → field r 0 1 ≠ solSolved → field r 0 1 ≠ solInaccurate →
    exec .poseGraphResult s =
      .next { s with solv := { s.solv with told := s.solv.told.filter (fun e => e.1 != SolverTask.map) }, map := { s.map with graph := [], modelAt := 0 } })

/-- R443 to R495: the NAND channels, the epochs and their import. -/
def Obligations.ImportsFollowTheirSteps : Prop :=
  (∀ (c : Fin 16) (marks : List Nat) (s : State), s.flag (fld_NCH_STATUS_INIT c) = true → s.swatchRuns (nandSwatch c) = true →
    ∃ t, exec (.nandChannelInitDone c false marks) s = .next t ∧ t.flag (fld_NCH_STATUS_GEOM_ERR c) = true ∧ t.flag (fld_NCH_STATUS_INIT c) = false ∧
      t.flag (fld_NCH_STATUS_READY c) = s.flag (fld_NCH_STATUS_READY c) ∧ Store.get [] t.srch.marks c = marks ∧
      RegsBut [fld_NCH_STATUS_GEOM_ERR c, fld_NCH_STATUS_INIT c, fld_NCH_BLOCKS_BAD c] s t) ∧
  (∀ (c : Fin 16) (marks : List Nat) (s : State), s.flag (fld_NCH_STATUS_INIT c) = true → s.swatchRuns (nandSwatch c) = true →
    800 ≤ s.fld fld_NAND_GEOM_1_RATE → s.fld fld_NAND_GEOM_1_RATE ≤ 3600 →
    ∃ t, exec (.nandChannelInitDone c true marks) s = .next t ∧ t.flag (fld_NCH_STATUS_READY c) = true ∧ t.flag (fld_NCH_STATUS_INIT c) = false ∧
      Store.get [] t.srch.marks c = marks ∧ t.srch.flash = s.srch.flash) ∧
  (∀ (x : Fin 2) (s : State), s.indexReady x = false → s.channelsUp x = true → s.indexUsable x = true → s.hasEpoch x = true → s.swatchRuns 16 = true →
    s.mem.move = none →
    ∃ t, exec (.indexEpochLoadDone x []) s = .next t ∧ t.indexReady x = true ∧ t.srch.flash = s.srch.flash ∧ t.srch.commits = s.srch.commits ∧
      RegsBut (fld_IDX_STATUS_READY x :: (indexChannels x).map (fun c => fld_NCH_PAGES_PAGES c)) s t) ∧
  (∀ (i : ImportItem) (rest : List ImportItem) (code : Nat) (s : State), s.links.importBuffer = i :: rest → i.sub = 0 → i.index < 2 → s.importHears = true →
    s.srch.importing = none → s.hasEpoch i.index = true → s.beginCode i.index (!s.activeRegion i.index) i.data = some code →
    ∃ t, exec .indexBegin s = .next t ∧ t.srch.importing = none ∧ t.links.importBuffer = rest ∧ t.fld fld_SRCH_IMPORT_STATUS_CODE = code ∧
      t.flag fld_SRCH_IMPORT_STATUS_ENDED = true ∧ t.srch.commits = s.srch.commits ∧ t.srch.flash = s.srch.flash) ∧
  (∀ (i : ImportItem) (rest : List ImportItem) (s : State), s.links.importBuffer = i :: rest → i.sub = 0 → i.index < 2 → s.importHears = true →
    s.srch.importing = none → s.hasEpoch i.index = true → s.beginCode i.index (!s.activeRegion i.index) i.data = none →
    ∃ t, exec .indexBegin s = .next t ∧ t.links.importBuffer = rest ∧
      t.srch.importing = some ⟨i.index, !s.activeRegion i.index, i.data, .waiting, 0, (readHeader i.data).list, i.alive, i.arrival⟩ ∧
      t.fld fld_SRCH_IMPORT_STATUS_STATE = 1 ∧ t.reg reg_SRCH_IMPORT_PAGES = 0 ∧ t.srch.commits = s.srch.commits ∧ t.srch.flash = s.srch.flash) ∧
  (∀ (i : Import) (s : State), s.srch.importing = some i → i.index < 2 → i.step = .waiting → s.regionPins i.index i.region = 0 → s.importRuns = true →
    ∃ t, exec .importPinsClear s = .next t ∧ t.srch.importing = some { i with step := .erasing } ∧ t.committed i.index i.region = none ∧
      t.committed i.index (!i.region) = s.committed i.index (!i.region) ∧
      t.flag (if i.region then fld_IDX_STATUS_COMMIT_B i.index else fld_IDX_STATUS_COMMIT_A i.index) = false) ∧
  (∀ (i : Import) (s : State), s.srch.importing = some i → i.index < 2 → i.step = .erasing → s.importRuns = true →
    ∃ t, exec (.importEraseDone none) s = .next t ∧ t.srch.importing = some { i with step := .writing, next := 1 } ∧
      Store.getMany 0 t.srch.flash (epochKey i.index i.region 0 0) i.header.length = i.header ∧ t.srch.commits = s.srch.commits ∧
      t.fld fld_SRCH_IMPORT_PAGES_PAGES = (s.fld fld_SRCH_IMPORT_PAGES_PAGES + 1) % 2 ^ fld_SRCH_IMPORT_PAGES_PAGES.width) ∧
  (∀ (i : Import) (c : Fin 16) (b : Nat) (s : State), s.srch.importing = some i → i.index < 2 → i.step = .erasing → s.importRuns = true →
    ∃ t, exec (.importEraseDone (some (c, b))) s = .next t ∧ t.srch.importing = none ∧ t.fld fld_SRCH_IMPORT_STATUS_CODE = impMedia ∧
      (c.val, b) ∈ t.srch.failed ∧ t.fld (fld_NCH_BLOCKS_RETIRED c) = min (2 ^ (fld_NCH_BLOCKS_RETIRED c).width - 1) (s.fld (fld_NCH_BLOCKS_RETIRED c) + 1)) ∧
  (∀ (i : Import) (p : ImportItem) (rest : List ImportItem) (s : State), s.links.importBuffer = p :: rest → p.sub = 1 → s.importRuns = true →
    s.srch.importing = some i → i.index < 2 → i.step = .writing →
    p.index ≠ i.index ∨ p.number ≠ i.next ∨ (readHeader i.header).total ≤ p.number →
    ∃ t, exec (.indexPage false) s = .next t ∧ t.srch.importing = none ∧ t.fld fld_SRCH_IMPORT_STATUS_CODE = impOrder ∧ t.links.importBuffer = rest ∧
      t.srch.flash = s.srch.flash) ∧
  (∀ (i : Import) (p : ImportItem) (rest : List ImportItem) (l : Nat) (s : State), s.links.importBuffer = p :: rest → p.sub = 1 → s.importRuns = true →
    s.srch.importing = some i → i.index < 2 → i.step = .writing → p.index = i.index → p.number = i.next → p.number < (readHeader i.header).total →
    s.pageOk i p.number p.data = some l →
    ∃ t, exec (.indexPage false) s = .next t ∧
      t.srch.importing = some { i with alive := p.alive, arrival := p.arrival, listNext := l, next := p.number + 1 } ∧ t.links.importBuffer = rest ∧
      Store.getMany 0 t.srch.flash (epochKey i.index i.region p.number 0) p.data.length = p.data ∧ t.srch.commits = s.srch.commits) ∧
  (∀ (i : Import) (p : ImportItem) (rest : List ImportItem) (s : State), s.links.importBuffer = p :: rest → p.sub = 2 → s.importHears = true →
    s.srch.importing = some i → i.index < 2 → i.step = .writing → p.index = i.index → p.number = (readHeader i.header).epoch →
    i.next = (readHeader i.header).total → s.imageCrc i.index i.region (readHeader i.header).total = (readHeader i.header).crc →
    ∃ t, exec .indexEnd s = .next t ∧ t.srch.importing = some { i with step := .committing, alive := p.alive, arrival := p.arrival } ∧
      t.links.importBuffer = rest ∧ t.fld fld_SRCH_IMPORT_STATUS_STATE = 4 ∧ RegsBut [fld_SRCH_IMPORT_STATUS_STATE] s t) ∧
  (∀ (i : Import) (p : ImportItem) (rest : List ImportItem) (s : State), s.links.importBuffer = p :: rest → p.sub = 2 → s.importHears = true →
    s.srch.importing = some i → i.index < 2 → i.step = .writing → p.index = i.index → p.number = (readHeader i.header).epoch →
    i.next = (readHeader i.header).total → s.imageCrc i.index i.region (readHeader i.header).total ≠ (readHeader i.header).crc →
    ∃ t, exec .indexEnd s = .next t ∧ t.srch.importing = none ∧ t.fld fld_SRCH_IMPORT_STATUS_CODE = impCrc ∧ t.links.importBuffer = rest) ∧
  (∀ (i : Import) (s : State), s.srch.importing = some i → i.index < 2 → i.step = .committing → s.importRuns = true →
    ∃ t, exec (.importCommitDone none) s = .next t ∧ t.srch.importing = none ∧
      t.committed i.index i.region = some ⟨(readHeader i.header).epoch, (readHeader i.header).total, (readHeader i.header).crc⟩ ∧
      t.committed i.index (!i.region) = s.committed i.index (!i.region) ∧ t.indexReady i.index = true ∧
      t.fld fld_SRCH_IMPORT_STATUS_CODE = impCommitted ∧ t.flag fld_SRCH_IMPORT_STATUS_ENDED = true ∧ t.srch.flash = s.srch.flash) ∧
  (∀ (c : Fin 16) (same : Bool) (marks : List Nat) (s : State), (s.flag (fld_NCH_STATUS_INIT c) = false ∨ s.swatchRuns (nandSwatch c) = false) →
    exec (.nandChannelInitDone c same marks) s = .next s) ∧
  (∀ (c : Fin 16) (marks : List Nat) (s : State), s.flag (fld_NCH_STATUS_INIT c) = true → s.swatchRuns (nandSwatch c) = true →
    (s.fld fld_NAND_GEOM_1_RATE < 800 ∨ 3600 < s.fld fld_NAND_GEOM_1_RATE) →
    ∃ t, exec (.nandChannelInitDone c true marks) s = .next t ∧ t.flag (fld_NCH_STATUS_READY c) = s.flag (fld_NCH_STATUS_READY c) ∧
      t.flag (fld_NCH_STATUS_GEOM_ERR c) = s.flag (fld_NCH_STATUS_GEOM_ERR c) ∧ t.flag (fld_NCH_STATUS_INIT c) = false ∧
      Store.get [] t.srch.marks c = marks ∧ RegsBut [fld_NCH_STATUS_INIT c, fld_NCH_BLOCKS_BAD c] s t) ∧
  (∀ (x : Fin 2) (bad : List Nat) (s : State), s.indexReady x = false → s.channelsUp x = true → s.indexUsable x = true → s.hasEpoch x = true →
    s.swatchRuns 16 = true →
    ∃ t, exec (.indexEpochLoadDone x bad) s = .next t ∧ t.indexReady x = true ∧ t.srch.flash = s.srch.flash ∧ t.srch.commits = s.srch.commits) ∧
  (∀ (x : Fin 2) (bad : List Nat) (s : State), (s.indexReady x = true ∨ s.channelsUp x = false ∨ s.indexUsable x = false ∨ s.hasEpoch x = false ∨
    s.swatchRuns 16 = false) → exec (.indexEpochLoadDone x bad) s = .next s) ∧
  (∀ (s : State), (s.links.importBuffer = [] ∨ s.importHears = false ∨ ∃ i rest, s.links.importBuffer = i :: rest ∧ i.sub ≠ 0) →
    exec .indexBegin s = .next s) ∧
  (∀ (i : ImportItem) (rest : List ImportItem) (s : State), s.links.importBuffer = i :: rest → i.sub = 0 → 2 ≤ i.index → s.importHears = true →
    s.srch.importing = none →
    ∃ t, exec .indexBegin s = .next t ∧ t.srch.importing = none ∧ t.links.importBuffer = rest ∧ t.fld fld_SRCH_IMPORT_STATUS_CODE = impNotConfigured ∧
      t.flag fld_SRCH_IMPORT_STATUS_ENDED = true ∧ t.srch.flash = s.srch.flash) ∧
  (∀ (i : ImportItem) (rest : List ImportItem) (s : State), s.links.importBuffer = i :: rest → i.sub = 0 → i.index < 2 → s.importHears = true →
    s.srch.importing = none → s.hasEpoch i.index = false →
    ∃ t r, exec .indexBegin s = .next t ∧ t.links.importBuffer = rest ∧ t.srch.commits = s.srch.commits ∧ t.srch.flash = s.srch.flash ∧
      t.flag fld_SRCH_IMPORT_STATUS_REGION = r ∧
      t.srch.importing = match s.beginCode i.index r i.data with
        | none => some ⟨i.index, r, i.data, .waiting, 0, (readHeader i.data).list, i.alive, i.arrival⟩
        | some _ => none) ∧
  (∀ (i : ImportItem) (p : Import) (rest : List ImportItem) (s : State), s.links.importBuffer = i :: rest → i.sub = 0 → 2 ≤ i.index →
    s.importHears = true → s.srch.importing = some p → s.links.status.length < 255 → s.inReset 6 = false →
    ∃ t, exec .indexBegin s = .next t ∧ t.srch.importing = none ∧ t.links.importBuffer = rest ∧
      (t.links.status.drop s.links.status.length).map (fun r => (r.result, r.detail)) = [(cmdImportEnd, impAbandoned), (cmdImportEnd, impNotConfigured)] ∧
      t.srch.flash = s.srch.flash ∧ t.srch.commits = s.srch.commits) ∧
  (∀ (s : State), (s.srch.importing = none ∨ s.importRuns = false ∨
    ∃ i, s.srch.importing = some i ∧ (i.step ≠ .waiting ∨ s.regionPins i.index i.region ≠ 0)) → exec .importPinsClear s = .next s) ∧
  (∀ (f : Option (Fin 16 × Nat)) (s : State), (s.srch.importing = none ∨ s.importRuns = false ∨ ∃ i, s.srch.importing = some i ∧ i.step ≠ .erasing) →
    exec (.importEraseDone f) s = .next s) ∧
  (∀ (f : Option (Fin 16)) (s : State), (s.srch.importing = none ∨ s.importRuns = false ∨ ∃ i, s.srch.importing = some i ∧ i.step ≠ .committing) →
    exec (.importCommitDone f) s = .next s) ∧
  (∀ (f : Bool) (s : State), (s.links.importBuffer = [] ∨ s.importRuns = false ∨ (∃ p rest, s.links.importBuffer = p :: rest ∧ p.sub ≠ 1) ∨
    ∃ i, s.srch.importing = some i ∧ i.step ≠ .writing) → exec (.indexPage f) s = .next s) ∧
  (∀ (s : State), (s.links.importBuffer = [] ∨ s.importHears = false ∨ (∃ p rest, s.links.importBuffer = p :: rest ∧ p.sub ≠ 2) ∨
    ∃ i, s.srch.importing = some i ∧ i.step ≠ .writing) → exec .indexEnd s = .next s) ∧
  (∀ (f : Bool) (p : ImportItem) (rest : List ImportItem) (s : State), s.links.importBuffer = p :: rest → s.srch.importing = none →
    (p.sub = 1 → s.importRuns = true → exec (.indexPage f) s = .next { s with links := { s.links with importBuffer := rest } }) ∧
    (p.sub = 2 → s.importHears = true → exec .indexEnd s = .next { s with links := { s.links with importBuffer := rest } })) ∧
  (∀ (f : Bool) (i : Import) (p : ImportItem) (rest : List ImportItem) (s : State), s.links.importBuffer = p :: rest → p.sub = 1 → s.importRuns = true →
    s.srch.importing = some i → i.index < 2 → i.step = .writing → p.index = i.index → p.number = i.next → p.number < (readHeader i.header).total →
    s.pageOk i p.number p.data = none →
    ∃ t, exec (.indexPage f) s = .next t ∧ t.srch.importing = none ∧ t.fld fld_SRCH_IMPORT_STATUS_CODE = impBadData ∧ t.links.importBuffer = rest ∧
      t.srch.flash = s.srch.flash) ∧
  (∀ (i : Import) (p : ImportItem) (rest : List ImportItem) (l : Nat) (s : State), s.links.importBuffer = p :: rest → p.sub = 1 → s.importRuns = true →
    s.srch.importing = some i → i.index < 2 → i.step = .writing → p.index = i.index → p.number = i.next → p.number < (readHeader i.header).total →
    s.pageOk i p.number p.data = some l →
    ∃ t, exec (.indexPage true) s = .next t ∧ t.srch.importing = none ∧ t.fld fld_SRCH_IMPORT_STATUS_CODE = impMedia ∧ t.links.importBuffer = rest ∧
      (pageChannel i.index p.number, s.pageBlock i.index i.region p.number) ∈ t.srch.failed ∧ t.srch.flash = s.srch.flash) ∧
  (∀ (i : Import) (p : ImportItem) (rest : List ImportItem) (s : State), s.links.importBuffer = p :: rest → p.sub = 2 → s.importHears = true →
    s.srch.importing = some i → i.index < 2 → i.step = .writing →
    p.index ≠ i.index ∨ p.number ≠ (readHeader i.header).epoch ∨ i.next ≠ (readHeader i.header).total →
    ∃ t, exec .indexEnd s = .next t ∧ t.srch.importing = none ∧ t.fld fld_SRCH_IMPORT_STATUS_CODE = impOrder ∧ t.links.importBuffer = rest) ∧
  (∀ (i : Import) (c : Fin 16) (s : State), s.srch.importing = some i → i.index < 2 → i.step = .committing → s.importRuns = true →
    ∃ t, exec (.importCommitDone (some c)) s = .next t ∧ t.srch.importing = none ∧ t.srch.commits = s.srch.commits ∧
      t.fld fld_SRCH_IMPORT_STATUS_CODE = impMedia ∧
      t.fld (fld_NCH_BLOCKS_RETIRED c) = min (2 ^ (fld_NCH_BLOCKS_RETIRED c).width - 1) (s.fld (fld_NCH_BLOCKS_RETIRED c) + 1))

/-- R456 to R471: the search front end. -/
def Obligations.QueriesRunFromSubmissionToResult : Prop :=
  (∀ (d : List Byte) (s : State), s.swatchRuns 16 = true → field d 4 1 ≤ 1 → s.indexReady (field d 4 1) = false →
    (∀ q ∈ s.srch.queue ++ s.srch.active, q.number < s.srch.arrivals) →
    ∃ t, exec (.querySubmit false d) s = .next t ∧ t.srch.queue = s.srch.queue ∧ t.srch.active = s.srch.active ∧
      field t.srch.result 0 4 = field d 0 4 ∧ field t.srch.result 4 1 = qRefused ∧ field t.srch.result 5 1 = 1 ∧
      t.fld (fld_IDX_LOSS_REFUSED (field d 4 1)) =
        min (2 ^ (fld_IDX_LOSS_REFUSED (field d 4 1)).width - 1) (s.fld (fld_IDX_LOSS_REFUSED (field d 4 1)) + 1) ∧
      RegsBut [fld_IDX_LOSS_REFUSED (field d 4 1)] s t) ∧
  (∀ (d : List Byte) (s : State), s.swatchRuns 16 = true → s.indexReady (field d 4 1) = true → descBad d (s.indexDim (field d 4 1)) = false →
    s.srch.queue.length < 4096 →
    ∃ t, exec (.querySubmit false d) s = .next t ∧
      t = { s with srch := { s.srch with arrivals := s.srch.arrivals + 1, queue := insertBy queryBefore (s.newQuery .direct false d).1 s.srch.queue } }) ∧
  (∀ (q : Query) (rest : List Query) (s : State), s.srch.queue = q :: rest → q.source ≠ .place → s.swatchRuns 16 = true →
    (if q.classC then s.admitsClassC else s.runsClassD) = true → s.indexReady q.desc.index = true → s.groupFits q.desc.index [q] = true → s.srch.probe = none →
    ∃ t, exec .queryAdmit s = .next t ∧
      t = { s with srch := { s.srch with queue := s.srch.queue.filter (fun p => q.number != p.number), active := s.srch.active ++ [s.admitted q] } }) ∧
  (∀ (s : State), s.swatchRuns 16 = true → s.coarseBatch ≠ [] →
    ∃ t, exec .coarseBatchDone s = .next t ∧ t.srch = { s.srch with active := t.srch.active } ∧
      (∀ p ∈ s.coarseBatch, ∃ q ∈ t.srch.active, q.number = p.number ∧ q.waitsCoarse = false)) ∧
  (∀ (s : State), s.swatchRuns 16 = true → s.coarseBatch ≠ [] → s.mem.bad = [] →
    ∃ t, exec .coarseBatchDone s = .next t ∧ t = { s with srch := { s.srch with active := t.srch.active } } ∧
      (∀ p ∈ s.coarseBatch, ∃ q ∈ t.srch.active, q.number = p.number ∧ q.waitsCoarse = false)) ∧
  (∀ (c : Fin 16) (r : Bool) (page ns : Nat) (p : PendingPage) (q : Query) (s : State), s.swatchRuns (nandSwatch c) = true → s.srch.active = [q] →
    (q.classC || s.runsClassD) = true → q.desc.index = indexOfChannel c → q.region = r → q.nextPage c = some p → p.page = page →
    ∃ t, exec (.listPageRead c r page 0 ns true []) s = .next t ∧
      t.srch.active = [s.scanPage c p (s.epochPage (indexOfChannel c) r page) false q] ∧
      t.fld (fld_NCH_PAGES_PAGES c) = (s.fld (fld_NCH_PAGES_PAGES c) + 1) % 2 ^ (fld_NCH_PAGES_PAGES c).width ∧
      RegsBut [fld_NCH_PAGES_PAGES c, fld_NCH_BUSY_BUSY_US c] s t) ∧
  (∀ (q : Query) (s : State), s.swatchRuns 16 = true → s.srch.active.find? Query.allHeld = some q → q.source = .direct → q.desc.index < 2 →
    ∃ t, exec .queryMerge s = .next t ∧ t.srch.active = s.srch.active.filter (fun p => p.number != q.number) ∧ field t.srch.result 4 1 = qDone ∧
      field t.srch.result 8 2 = (nearestK q.desc.k (q.contexts.flatMap (fun e => match e.2 with | some c => c.kept | none => []))).length % 2 ^ 16 ∧
      t.fld (fld_IDX_QUERIES_DONE q.desc.index) = (s.fld (fld_IDX_QUERIES_DONE q.desc.index) + 1) % 2 ^ (fld_IDX_QUERIES_DONE q.desc.index).width) ∧
  (∀ (q : Query) (s : State), s.earliestQuery = some q → q.source = .direct → q.desc.index < 2 →
    ∃ t, exec .queryDeadline s = .next t ∧ (∀ p ∈ t.srch.queue ++ t.srch.active, p.number ≠ q.number) ∧ field t.srch.result 4 1 = qDropped ∧
      t.fld (fld_IDX_LOSS_DROPPED q.desc.index) =
        min (2 ^ (fld_IDX_LOSS_DROPPED q.desc.index).width - 1) (s.fld (fld_IDX_LOSS_DROPPED q.desc.index) + 1)) ∧
  (∀ (obj count : Nat) (d : Stamp) (rest : List (Nat × Nat × Stamp)) (s : State), s.map.places = (obj, count, d) :: rest → s.srch.place = none →
    s.swatchRuns 16 = true → s.admitsClassC = true →
    ∃ t p, exec .placeQuery s = .next t ∧ t.map = { s.map with places := rest } ∧ t.srch.place = some p ∧ p.formed = (s.placeRecords obj count).length) ∧
  (∀ (p : PlaceQuery) (s : State), s.srch.place = some p → p.formed ≤ p.answers.length → s.swatchRuns 16 = true →
    ∃ t, exec .placeVote s = .next t ∧ t.srch.place = none ∧ field t.srch.placeResult 0 1 = placeStatus p ∧
      t.fld (if placeStatus p = 0 then fld_SRCH_PLACE_COUNT_DONE else fld_SRCH_PLACE_COUNT_NOT_DONE) =
        min (2 ^ 16 - 1) (s.fld (if placeStatus p = 0 then fld_SRCH_PLACE_COUNT_DONE else fld_SRCH_PLACE_COUNT_NOT_DONE) + 1)) ∧
  (∀ (data d : Word) (s : State), s.writeTaken reg_SRCH_PROBE_CTRL data = some d → d.getLsbD 0 = true → s.srch.probe = none → s.probeSet = none →
    ∃ t, exec (.srchProbeStart data) s = .next t ∧ t.flag fld_SRCH_PROBE_STATUS_ERR = true ∧ OnlyFields [fld_SRCH_PROBE_STATUS_ERR] s t) ∧
  (∀ (data d : Word) (p : ProbeRun) (s : State), s.writeTaken reg_SRCH_PROBE_CTRL data = some d → d.getLsbD 0 = true → s.srch.probe = none →
    s.probeSet = some p →
    ∃ t q, exec (.srchProbeStart data) s = .next t ∧ t.srch.probe = some q ∧ q.count = p.count ∧ t.flag fld_SRCH_PROBE_STATUS_BUSY = true ∧
      t.flag fld_SRCH_PROBE_STATUS_ERR = false ∧ t.reg reg_SRCH_PROBE_HITS = 0 ∧ t.reg reg_SRCH_PROBE_EXPECTED = 0) ∧
  (∀ (p : ProbeRun) (s : State), s.srch.probe = some p → p.count ≤ p.next → s.probeBusy = false → s.swatchRuns 16 = true →
    ∃ t, exec .probeDone s = .next t ∧ t.srch = { s.srch with probe := none } ∧ t.flag fld_SRCH_PROBE_STATUS_BUSY = false ∧
      t.flag fld_SRCH_PROBE_STATUS_DONE = true ∧ RegsBut [fld_SRCH_PROBE_STATUS_BUSY, fld_SRCH_PROBE_STATUS_DONE, fld_I3C_IBI_PEND_PEND] s t) ∧
  (∀ (d : List Byte) (s : State), (s.swatchRuns 16 = false → exec (.querySubmit false d) s = .next s ∧ exec (.querySubmit true d) s = .next s) ∧
    (s.admitsWork = false → exec (.querySubmit true d) s = .next s)) ∧
  (∀ (d : List Byte) (s : State), s.swatchRuns 16 = true → s.admitsWork = true → s.indexReady (field d 4 1) = true →
    descBad d (s.indexDim (field d 4 1)) = false → s.srch.queue.length < 4096 → s.stamp < mkStamp (field d 0x18 8) (field d 0x20 4) →
    ∃ t, exec (.querySubmit true d) s = .next t ∧
      t = { s with srch := { s.srch with arrivals := s.srch.arrivals + 1, queue := insertBy queryBefore (s.newQuery .direct true d).1 s.srch.queue } }) ∧
  (∀ (d : List Byte) (s : State), s.swatchRuns 16 = true → s.admitsWork = true → s.indexReady (field d 4 1) = true →
    descBad d (s.indexDim (field d 4 1)) = false → s.srch.queue.length < 4096 → mkStamp (field d 0x18 8) (field d 0x20 4) ≤ s.stamp →
    (∀ q ∈ s.srch.queue ++ s.srch.active, q.number < s.srch.arrivals) →
    ∃ t, exec (.querySubmit true d) s = .next t ∧ t.srch.queue = s.srch.queue ∧ t.srch.active = s.srch.active ∧ field t.srch.result 4 1 = qDropped ∧
      RegsBut [fld_IDX_LOSS_DROPPED (field d 4 1)] s t) ∧
  (∀ (classC : Bool) (d : List Byte) (s : State), s.swatchRuns 16 = true → s.admitsWork = true → field d 4 1 ≤ 1 → s.indexReady (field d 4 1) = true →
    descBad d (s.indexDim (field d 4 1)) = true ∨ 4096 ≤ s.srch.queue.length →
    (∀ q ∈ s.srch.queue ++ s.srch.active, q.number < s.srch.arrivals) →
    ∃ t, exec (.querySubmit classC d) s = .next t ∧ t.srch.queue = s.srch.queue ∧ t.srch.active = s.srch.active ∧ field t.srch.result 4 1 = qRefused ∧
      field t.srch.result 5 1 = (if descBad d (s.indexDim (field d 4 1)) then 2 else 3) ∧ RegsBut [fld_IDX_LOSS_REFUSED (field d 4 1)] s t) ∧
  (∀ (classC : Bool) (d : List Byte) (s : State), s.swatchRuns 16 = true → s.admitsWork = true → 2 ≤ field d 4 1 →
    (∀ q ∈ s.srch.queue ++ s.srch.active, q.number < s.srch.arrivals) →
    ∃ t, exec (.querySubmit classC d) s = .next t ∧ t.srch.queue = s.srch.queue ∧ t.srch.active = s.srch.active ∧ field t.srch.result 4 1 = qRefused ∧
      field t.srch.result 5 1 = 2 ∧ RegsBut [] s t) ∧
  (∀ (q : Query) (rest : List Query) (s : State), s.srch.queue = q :: rest → q.source = .place → s.swatchRuns 16 = true →
    (if q.classC then s.admitsClassC else s.runsClassD) = true → s.indexReady q.desc.index = true →
    s.groupFits q.desc.index (s.srch.queue.filter (fun p => p.source == .place)) = true → s.srch.probe = none →
    ∃ t, exec .queryAdmit s = .next t ∧
      t.srch.active = s.srch.active ++ (s.srch.queue.filter (fun p => p.source == .place)).map s.admitted ∧
      (∀ p ∈ t.srch.queue, p ∈ s.srch.queue ∧ p.source ≠ .place) ∧ t = { s with srch := { s.srch with queue := t.srch.queue, active := t.srch.active } }) ∧
  (∀ (s : State), (s.srch.queue = [] ∨ s.swatchRuns 16 = false ∨ ∃ q rest, s.srch.queue = q :: rest ∧
    ((if q.classC then s.admitsClassC else s.runsClassD) = false ∨ s.indexReady q.desc.index = false ∨
      s.groupFits q.desc.index (s.admissionGroup q) = false)) → exec .queryAdmit s = .next s) ∧
  (∀ (s : State), (s.coarseBatch = [] ∨ s.swatchRuns 16 = false) → exec .coarseBatchDone s = .next s) ∧
  (∀ (c : Fin 16) (r ok : Bool) (page retries ns : Nat) (errors : List (Nat × SymbolErrors)) (s : State), (s.swatchRuns (nandSwatch c) = false ∨
    ∀ q ∈ s.srch.active, (q.classC || s.runsClassD) = false ∨ q.desc.index ≠ indexOfChannel c ∨ q.region ≠ r ∨ ∀ p, q.nextPage c = some p → p.page ≠ page) →
    exec (.listPageRead c r page retries ns ok errors) s = .next s) ∧
  (∀ (c : Fin 16) (r ok : Bool) (page retries ns : Nat) (p : PendingPage) (q : Query) (errors : List (Nat × SymbolErrors)) (s : State),
    s.swatchRuns (nandSwatch c) = true → s.srch.active = [q] → (q.classC || s.runsClassD) = true → q.desc.index = indexOfChannel c → q.region = r →
    q.nextPage c = some p → p.page = page → ok = false ∨ s.fld fld_SRCH_CFG_RETRY_MAX < retries →
    ∃ t u, exec (.listPageRead c r page retries ns ok errors) s = .next t ∧ t.srch.active = [u] ∧ u.number = q.number ∧ u.trunc = true ∧
      u.pages = q.pages ∧ u.uePages = q.uePages + 1 ∧
      t.fld (fld_IDX_EPOCHF_UE_PAGES (indexOfChannel c)) = min (2 ^ (fld_IDX_EPOCHF_UE_PAGES (indexOfChannel c)).width - 1)
        (s.fld (fld_IDX_EPOCHF_UE_PAGES (indexOfChannel c)) + 1) ∧
      t.fld fld_SELV_LDPC_FAIL = min (2 ^ fld_SELV_LDPC_FAIL.width - 1) (s.fld fld_SELV_LDPC_FAIL + 1)) ∧
  (∀ (q : Query) (p : PlaceQuery) (s : State), s.swatchRuns 16 = true → s.srch.active.find? Query.allHeld = some q → q.source = .place → q.desc.index < 2 →
    s.srch.place = some p →
    ∃ t a, exec .queryMerge s = .next t ∧ t.srch.active = s.srch.active.filter (fun p => p.number != q.number) ∧
      t.srch.place = some { p with answers := p.answers ++ [a] } ∧ a.status = qDone ∧ a.epoch = q.epoch ∧
      a.entries = nearestK q.desc.k (q.contexts.flatMap (fun e => match e.2 with | some c => c.kept | none => [])) ∧ t.srch.result = s.srch.result) ∧
  (∀ (q : Query) (truth : List Nat) (s : State), s.swatchRuns 16 = true → s.srch.active.find? Query.allHeld = some q → q.source = .probe truth →
    q.desc.index < 2 →
    ∃ t, exec .queryMerge s = .next t ∧ t.srch.active = s.srch.active.filter (fun p => p.number != q.number) ∧ t.srch.result = s.srch.result ∧
      t.fld fld_SRCH_PROBE_EXPECTED_EXPECTED =
        (s.fld fld_SRCH_PROBE_EXPECTED_EXPECTED + truth.length) % 2 ^ fld_SRCH_PROBE_EXPECTED_EXPECTED.width ∧
      t.fld fld_SRCH_PROBE_QUERIES_QUERIES_DONE =
        (s.fld fld_SRCH_PROBE_QUERIES_QUERIES_DONE + 1) % 2 ^ fld_SRCH_PROBE_QUERIES_QUERIES_DONE.width) ∧
  (∀ (s : State), (s.srch.active.find? Query.allHeld = none ∨ s.swatchRuns 16 = false) → exec .queryMerge s = .next s) ∧
  (∀ (s : State), s.earliestQuery = none → exec .queryDeadline s = .next s) ∧
  (∀ (s : State), (s.map.places = [] ∨ s.srch.place ≠ none ∨ s.swatchRuns 16 = false ∨ s.admitsClassC = false) → exec .placeQuery s = .next s) ∧
  (∀ (s : State), (s.srch.place = none ∨ s.swatchRuns 16 = false ∨ ∃ p, s.srch.place = some p ∧ p.answers.length < p.formed) →
    exec .placeVote s = .next s) ∧
  (∀ (data : Word) (s : State), (s.writeTaken reg_SRCH_PROBE_CTRL data = none ∨ s.srch.probe ≠ none ∨
    ∃ d, s.writeTaken reg_SRCH_PROBE_CTRL data = some d ∧ d.getLsbD 0 = false) → exec (.srchProbeStart data) s = .next s) ∧
  (∀ (s : State), (s.srch.probe = none ∨ s.swatchRuns 16 = false ∨
    ∃ p, s.srch.probe = some p ∧ ((p.next < p.count ∧ 4096 ≤ s.srch.queue.length) ∨ (p.count ≤ p.next ∧ s.probeBusy = true))) →
    exec .probeDone s = .next s) ∧
  (∀ (p : ProbeRun) (s : State), s.srch.probe = some p → p.next < p.count → s.srch.queue.length < 4096 → s.swatchRuns 16 = true →
    ∃ t q, exec .probeDone s = .next t ∧ t.srch.probe = some q ∧ p.next < q.next ∧ q.next ≤ p.count ∧ q.count = p.count ∧ q.obj = p.obj)

/-- R485 to R489: the transmit commands. -/
def Obligations.TransmitStreamsSendTheirPayloads : Prop :=
  (∀ (k : Fin 16) (o : TxOffer) (b : List Byte) (s : State), s.links.offers.find? (fun o => o.stream == k.val) = some o → o.source = .copied b →
    s.txMayStart k = true → s.txFree k = true → (s.txPortState (s.txPort k)).busy.isSome = true →
    ∃ t p, exec (.transmitPublication k) s = .next t ∧ (t.txStream k).payload = some p ∧ p.bytes = b ∧ p.sent = 0 ∧ p.started = false ∧ p.cut = false ∧
      p.packets = ceilDiv (32 + b.length) (max 1 (s.lineBytes k)) ∧ t.links.offers = dropFirst (fun o => o.stream == k.val) s.links.offers ∧
      t = { s with links := t.links } ∧ (∀ j, j ≠ k.val → t.txStream j = s.txStream j)) ∧
  (∀ (k : Fin 16) (o : TxOffer) (s : State), s.links.offers.find? (fun o => o.stream == k.val) = some o → s.txMayStart k = true →
    s.txFree k = false →
    ∃ t, exec (.transmitPublication k) s = .next t ∧ (t.txStream k).payload = (s.txStream k).payload ∧ (t.txStream k).loss = true ∧
      t.fld (fld_TX_STREAM_LOSS_SKIPPED k) = min (2 ^ (fld_TX_STREAM_LOSS_SKIPPED k).width - 1) (s.fld (fld_TX_STREAM_LOSS_SKIPPED k) + 1) ∧
      RegsBut [fld_TX_STREAM_LOSS_SKIPPED k] s t) ∧
  (∀ (n : Fin 4) (k : Nat) (p : TxPayload) (s : State), (s.txPortState n).busy = some k → (s.txStream k).payload = some p → s.swatchRuns hostSwatch = true →
    p.started = true → p.cut = false → p.sent + 1 < p.packets →
    ∃ t, exec (.transmitPacketDone n) s = .next t ∧ (t.txStream k).payload = some { p with sent := p.sent + 1 } ∧
      (t.txPortState n).wire = some (s.packetOf k p (p.sent == 0) (s.packetBytes p (s.lineBytes k) p.sent) false) ∧
      t.fld (fld_CSI_TX_FRAMES_FRAMES n) = s.fld (fld_CSI_TX_FRAMES_FRAMES n)) ∧
  (∀ (n : Fin 4) (k : Nat) (p : TxPayload) (s : State), (s.txPortState n).busy = some k → (s.txStream k).payload = some p → s.swatchRuns hostSwatch = true →
    p.cut = true ∨ p.packets ≤ p.sent + 1 →
    ∃ t, exec (.transmitPacketDone n) s = .next t ∧ (t.txStream k).payload = none ∧
      (t.txPortState n).wire = some (s.packetOf k p (p.sent == 0) (s.packetBytes p (s.lineBytes k) p.sent) true) ∧
      t.fld (fld_CSI_TX_FRAMES_FRAMES n) = (s.fld (fld_CSI_TX_FRAMES_FRAMES n) + 1) % 2 ^ (fld_CSI_TX_FRAMES_FRAMES n).width) ∧
  (∀ (k : Fin 16) (p : TxPayload) (d : Stamp) (s : State), s.cuttable k = some (p, d) → s.swatchRuns hostSwatch = true →
    (s.txPortState (s.txPort k)).busy ≠ some k.val → p.started = false →
    ∃ t, exec (.transmitCut k) s = .next t ∧ (t.txStream k).payload = none ∧ (t.txStream k).loss = true ∧
      t.fld (fld_TX_STREAM_LOSS_CUT k) = min (2 ^ (fld_TX_STREAM_LOSS_CUT k).width - 1) (s.fld (fld_TX_STREAM_LOSS_CUT k) + 1) ∧
      RegsBut [fld_TX_STREAM_LOSS_CUT k] s t) ∧
  (∀ (k : Fin 16) (p : TxPayload) (d : Stamp) (s : State), s.cuttable k = some (p, d) → s.swatchRuns hostSwatch = true →
    (s.txPortState (s.txPort k)).busy = some k.val →
    ∃ t, exec (.transmitCut k) s = .next t ∧ (t.txStream k).payload = some { p with cut := true } ∧ (t.txStream k).loss = (s.txStream k).loss ∧
      t.fld (fld_TX_STREAM_LOSS_CUT k) = min (2 ^ (fld_TX_STREAM_LOSS_CUT k).width - 1) (s.fld (fld_TX_STREAM_LOSS_CUT k) + 1) ∧
      RegsBut [fld_TX_STREAM_LOSS_CUT k] s t) ∧
  (∀ (k : Nat) (s : State), k ∈ s.txOfType txStatus → s.txFree k = true → s.links.status ≠ [] →
    ∃ t, exec .commandStatusSend s = .next t ∧ t.links.status = s.links.status.drop 64 ∧ t.links.statusLoss = false ∧ (t.txStream k).payload.isSome = true ∧
      t.sram = s.sram ∧ t.mem = s.mem) ∧
  (∀ (d : TileDelta) (rest : List TileDelta) (k : Nat) (l : List Nat) (s : State), s.links.tileDelta = d :: rest →
    (s.txOfType txTileDelta).filter s.txFree = k :: l →
    ∃ t, exec .tileDeltaSend s = .next t ∧ t.links.tileDelta = rest ∧ t.links.tileLoss = false ∧ (t.txStream k).payload.isSome = true ∧
      t.sram = s.sram ∧ t.mem = s.mem) ∧
  (∀ (n : Fin 4) (data d : Word) (s : State), s.writeTaken (reg_CSI_TX_CTRL n) data = some d → d.getLsbD 0 = true →
    ∃ t, exec (.csiTxPortReset n data) s = .next t ∧ t.flag (fld_CSI_TX_STATUS_IN_RESET n) = true ∧ (t.txPortState n).busy = none ∧
      (∀ k, k < 16 → s.txPort k = n → (t.txStream k).payload = none)) ∧
  (∀ (k : Fin 16) (s : State), (s.links.offers.find? (fun o => o.stream == k.val) = none ∨ s.txMayStart k = false) →
    exec (.transmitPublication k) s = .next s) ∧
  (∀ (k : Fin 16) (o : TxOffer) (c gen : Nat) (s : State), s.links.offers.find? (fun o => o.stream == k.val) = some o → o.source = .image c gen →
    s.txMayStart k = true → s.txFree k = true →
    s.imagePayload o c gen = none →
    ∃ t, exec (.transmitPublication k) s = .next t ∧ (t.txStream k).payload = (s.txStream k).payload ∧ (t.txStream k).loss = true ∧
      t.links.offers = dropFirst (fun o => o.stream == k.val) s.links.offers ∧ t = { s with links := t.links }) ∧
  (∀ (k : Fin 16) (o : TxOffer) (c gen : Nat) (q : TxPayload) (u s : State), s.links.offers.find? (fun o => o.stream == k.val) = some o →
    o.source = .image c gen → s.txMayStart k = true → s.txFree k = true → (s.txPortState (s.txPort k)).busy.isSome = true →
    s.imagePayload o c gen = some (q, u) →
    ∃ t p, exec (.transmitPublication k) s = .next t ∧ (t.txStream k).payload = some p ∧ p.bytes = q.bytes ∧ p.lines = q.lines ∧ p.holds = q.holds ∧
      p.deadline = q.deadline ∧ p.sent = 0 ∧ p.started = false ∧ p.packets = ceilDiv (32 + q.length) (max 1 (s.lineBytes k)) ∧
      t.vis = u.vis ∧ t.sram = s.sram ∧ t.mem = s.mem) ∧
  (∀ (n : Fin 4) (s : State), ((s.txPortState n).busy = none ∨ s.swatchRuns hostSwatch = false ∨
    ∃ k, (s.txPortState n).busy = some k ∧ (s.txStream k).payload = none) → exec (.transmitPacketDone n) s = .next s) ∧
  (∀ (k : Fin 16) (s : State), (s.cuttable k = none ∨ s.swatchRuns hostSwatch = false) → exec (.transmitCut k) s = .next s) ∧
  (∀ (k : Fin 16) (p : TxPayload) (d : Stamp) (s : State), s.cuttable k = some (p, d) → s.swatchRuns hostSwatch = true →
    (s.txPortState (s.txPort k)).busy ≠ some k.val → p.started = true →
    ∃ t, exec (.transmitCut k) s = .next t ∧ (t.txStream k).payload = none ∧ (t.txStream k).loss = (s.txStream k).loss ∧
      (t.txPortState (s.txPort k)).wire = some (s.packetOf k p false [] true) ∧
      t.fld (fld_TX_STREAM_LOSS_CUT k) = min (2 ^ (fld_TX_STREAM_LOSS_CUT k).width - 1) (s.fld (fld_TX_STREAM_LOSS_CUT k) + 1) ∧
      RegsBut [fld_TX_STREAM_LOSS_CUT k, fld_CSI_TX_FRAMES_FRAMES (s.txPort k)] s t) ∧
  (∀ (s : State), (s.links.status = [] ∨ ∀ k ∈ s.txOfType txStatus, s.txFree k = false) → exec .commandStatusSend s = .next s) ∧
  (∀ (s : State), (s.links.tileDelta = [] ∨ ∀ k ∈ s.txOfType txTileDelta, s.txFree k = false) → exec .tileDeltaSend s = .next s) ∧
  (∀ (n : Fin 4) (data : Word) (s : State), (s.writeTaken (reg_CSI_TX_CTRL n) data = none ∨
    ∃ d, s.writeTaken (reg_CSI_TX_CTRL n) data = some d ∧ d.getLsbD 0 = false) → exec (.csiTxPortReset n data) s = .next s)

/-- R490 to R509: the inbound command channel. -/
def Obligations.CommandsAreCheckedAndAnswered : Prop :=
  (∀ (p : Fin 12) (vc : Fin 16) (dt : BitVec 3) (b : List Byte) (ok : Bool) (a : Tap) (s : State), s.commandAt p vc = true → s.links.status.length < 256 →
    ok = false ∨ b.length < 12 ∨ field b 0 2 ≠ 0x4D43 ∨ b.length ≠ 12 + field b 4 4 →
    ∃ t, exec (.commandMessage p vc dt b ok a) s = .next t ∧
      t.links = { s.links with status := s.links.status ++ [⟨0x30 + dt.toNat, cmdBadLength, 0, if b.length < 4 then 0 else field b 2 2, s.tapTime a, s.stamp⟩] } ∧
      t.fld fld_CMD_LAST_DT = 0x30 + dt.toNat ∧ t.fld fld_CMD_LAST_RESULT = cmdBadLength ∧ t.fld fld_CMD_LAST_DETAIL = 0 ∧
      t.fld fld_CMD_COUNT_2_REFUSED = min (2 ^ fld_CMD_COUNT_2_REFUSED.width - 1) (s.fld fld_CMD_COUNT_2_REFUSED + 1)) ∧
  (∀ (p : Fin 12) (vc : Fin 16) (dt : BitVec 3) (b : List Byte) (a : Tap) (u : State) (s : State), s.commandAt p vc = true → 12 ≤ b.length →
    field b 0 2 = 0x4D43 → b.length = 12 + field b 4 4 → dt.toNat < 4 →
    s.verify (s.fld fld_HL_CFG_CMD_CHECK) (b.take (b.length - 4)) (field b (b.length - 4) 4) dt.toNat (field b 2 2) = (some .inOrder, u) →
    u.bodyOk (0x30 + dt.toNat) (slice b 8 (b.length - 12)) = true →
    ∃ t, exec (.commandMessage p vc dt b true a) s = .next t ∧
      t = { u with links := { u.links with bodies := u.links.bodies ++ [⟨0x30 + dt.toNat, slice b 8 (b.length - 12), field b 2 2, s.tapTime a, u.stamp⟩] } }) ∧
  (∀ (b : CommandBody) (s : State), s.links.bodies.find? (fun b => b.dt == 0x30) = some b → s.swatchRuns hostSwatch = true → s.links.deltas.length < 16 →
    ∃ t, exec .qpDelta s = .next t ∧ t.links.bodies = dropFirst (fun x => x.dt == 0x30) s.links.bodies ∧
      t.links.deltas = s.links.deltas ++ [⟨field b.body 0 1, (List.range (field b.body 4 4)).map (fun i =>
        (field b.body (8 + 8 * i) 4, BitVec.ofNat 32 (field b.body (12 + 8 * i) 4))), b.alive, b.arrival, b.checked, false⟩] ∧
      t.fld fld_CMD_LAST_RESULT = cmdAccepted ∧
      t.fld fld_CMD_COUNT_0_ACCEPTED = (s.fld fld_CMD_COUNT_0_ACCEPTED + 1) % 2 ^ fld_CMD_COUNT_0_ACCEPTED.width) ∧
  (∀ (b : CommandBody) (s : State), s.links.bodies.find? (fun b => b.dt == 0x30) = some b → s.swatchRuns hostSwatch = true → 16 ≤ s.links.deltas.length →
    ∃ t, exec .qpDelta s = .next t ∧ t.links.deltas = s.links.deltas ∧ t.fld fld_CMD_LAST_RESULT = cmdBusy) ∧
  (∀ (b : CommandBody) (s : State), s.links.bodies.find? (fun b => b.dt == 0x31) = some b → s.swatchRuns hostSwatch = true →
    ∃ t, exec .target s = .next t ∧ t.links.bodies = dropFirst (fun x => x.dt == 0x31) s.links.bodies ∧
      t.links.targets = s.links.targets ++ [(b.checked, toWords (field b.body 0 2) (b.body.drop 4))] ∧ t.fld fld_CMD_LAST_RESULT = cmdAccepted) ∧
  (∀ (b : CommandBody) (s : State), s.links.bodies.find? (fun b => b.dt == 0x32) = some b → s.swatchRuns hostSwatch = true →
    s.dirReady = false ∨ s.dozing = true →
    ∃ t, exec .tile s = .next t ∧ t.links.assembly = s.links.assembly ∧ t.links.bodies = dropFirst (fun x => x.dt == 0x32) s.links.bodies ∧
      t.fld fld_CMD_LAST_RESULT = cmdBusy ∧ t.mem = s.mem) ∧
  (∀ (b : CommandBody) (s : State), s.links.bodies.find? (fun b => b.dt == 0x32) = some b → s.swatchRuns hostSwatch = true → s.dirReady = true →
    s.dozing = false → field b.body 8 4 = 0 → s.admitsClassC = true → s.swatchRuns 15 = true → s.links.assembly = none → field b.body 4 4 / pageBytes ≤ s.freePages →
    b.body.length - 16 ≤ field b.body 4 4 →
    ∃ t pages, exec .tile s = .next t ∧ pages.length = field b.body 4 4 / pageBytes ∧
      t.links.assembly = some ⟨field b.body 0 4, field b.body 4 4, b.body.drop 16, pages, b.alive, b.arrival⟩ ∧
      t.fld fld_CMD_LAST_RESULT = cmdAccepted ∧ t.mem = { s.mem with managing := t.mem.managing }) ∧
  (∀ (b : CommandBody) (x : TileAssembly) (s : State), s.links.bodies.find? (fun b => b.dt == 0x32) = some b → s.swatchRuns hostSwatch = true →
    s.dirReady = true → s.dozing = false → field b.body 8 4 ≠ 0 → s.links.assembly = some x → field b.body 0 4 = x.tile → field b.body 4 4 = x.total →
    field b.body 8 4 = x.bytes.length → x.bytes.length + (b.body.drop 16).length ≤ x.total →
    ∃ t, exec .tile s = .next t ∧ t.links.assembly = some { x with bytes := x.bytes ++ b.body.drop 16, alive := b.alive, arrival := b.arrival } ∧
      t.fld fld_CMD_LAST_RESULT = cmdAccepted ∧ t.mem = { s.mem with managing := t.mem.managing }) ∧
  (∀ (b : CommandBody) (s : State), s.links.bodies.find? (fun b => b.dt == 0x32) = some b → s.swatchRuns hostSwatch = true → s.dirReady = true →
    s.dozing = false → field b.body 8 4 ≠ 0 → s.links.assembly = none →
    ∃ t, exec .tile s = .next t ∧ t.links.assembly = none ∧ t.fld fld_CMD_LAST_RESULT = cmdOrder ∧ t.mem = s.mem) ∧
  (∀ (x : TileAssembly) (s : State), s.links.assembly = some x → x.total ≤ x.bytes.length → s.moverRuns = true → s.leased (tileId x.tile) = false →
    isTile (tileId x.tile) = true → x.tile < s.fld fld_MEM_TILE_CFG_DIR_ENTRIES → s.tileRegionBad = false → s.pinCount (tileId x.tile) ≠ 0 →
    ∃ t, exec .tileAssemblyDone s = .next t ∧ t.links.assembly = none ∧ t.mem = { s.mem with managing := t.mem.managing }) ∧
  (∀ (x : TileAssembly) (s : State), s.links.assembly = some x → x.total ≤ x.bytes.length → s.moverRuns = true → s.leased (tileId x.tile) = false →
    isTile (tileId x.tile) = true → x.tile < s.fld fld_MEM_TILE_CFG_DIR_ENTRIES → s.tileRegionBad = false → s.pinCount (tileId x.tile) = 0 →
    s.mem.waiting = [] →
    ∃ t, exec .tileAssemblyDone s = .next t ∧ t.links.assembly = none ∧
      t.object (tileId x.tile) = some ⟨x.total, true, tierDram, true, (s.object (tileId x.tile)).bind MemObject.record, s.mem.accesses + 1, x.pages⟩ ∧
      t.memBytes (tileId x.tile) 0 x.bytes.length = x.bytes ∧ (∀ k, k ≠ tileId x.tile → t.object k = s.object k)) ∧
  (∀ (b : CommandBody) (s : State), s.links.bodies.find? (fun b => b.dt == 0x33) = some b → s.swatchRuns hostSwatch = true →
    (s.links.importBuffer.filter (fun i => i.sub != 2)).length < 64 →
    ∃ t, exec .index s = .next t ∧ t.fld fld_CMD_LAST_RESULT = cmdAccepted ∧ t.links.bodies = dropFirst (fun x => x.dt == 0x33) s.links.bodies ∧
      t.links.importBuffer = s.links.importBuffer ++ [⟨field b.body 0 1, field b.body 1 1, field b.body 4 4, b.body.drop 8, b.alive, b.arrival⟩]) ∧
  (∀ (b : CommandBody) (s : State), s.links.bodies.find? (fun b => b.dt == 0x33) = some b → s.swatchRuns hostSwatch = true → field b.body 0 1 ≠ 2 →
    64 ≤ (s.links.importBuffer.filter (fun i => i.sub != 2)).length →
    ∃ t, exec .index s = .next t ∧ t.fld fld_CMD_LAST_RESULT = cmdBusy ∧ t.links.importBuffer = s.links.importBuffer) ∧
  (∀ (p : Fin 12) (vc : Fin 16) (dt : BitVec 3) (b : List Byte) (ok : Bool) (a : Tap) (s : State), s.commandAt p vc = false →
    exec (.commandMessage p vc dt b ok a) s = .next s) ∧
  (∀ (p : Fin 12) (vc : Fin 16) (dt : BitVec 3) (b : List Byte) (a : Tap) (r : Nat) (o : Option AliveOutcome) (u : State) (s : State),
    s.commandAt p vc = true → 12 ≤ b.length → field b 0 2 = 0x4D43 → b.length = 12 + field b 4 4 → u.inReset 6 = false →
    s.verify (s.fld fld_HL_CFG_CMD_CHECK) (b.take (b.length - 4)) (field b (b.length - 4) 4) dt.toNat (field b 2 2) = (o, u) →
    (o = none ∧ r = cmdCrc) ∨ (o = some .again ∧ r = cmdRepeat) ∨ (o = some .inOrder ∧ 4 ≤ dt.toNat ∧ r = cmdBadType) ∨
      (o = some .inOrder ∧ dt.toNat < 4 ∧ u.bodyOk (0x30 + dt.toNat) (slice b 8 (b.length - 12)) = false ∧ r = cmdBadBody) →
    ∃ t, exec (.commandMessage p vc dt b true a) s = .next t ∧ t.links.bodies = u.links.bodies ∧ t.fld fld_CMD_LAST_RESULT = r ∧
      t.fld fld_CMD_LAST_DT = 0x30 + dt.toNat ∧
      (u.links.status.length < 256 → t.links.status = u.links.status ++ [⟨0x30 + dt.toNat, r, 0, field b 2 2, s.tapTime a, u.stamp⟩])) ∧
  (∀ (p : Fin 12) (vc : Fin 16) (dt : BitVec 3) (b : List Byte) (a : Tap) (u : State) (s : State), s.commandAt p vc = true → 12 ≤ b.length →
    field b 0 2 = 0x4D43 → b.length = 12 + field b 4 4 → dt.toNat < 4 →
    s.verify (s.fld fld_HL_CFG_CMD_CHECK) (b.take (b.length - 4)) (field b (b.length - 4) 4) dt.toNat (field b 2 2) = (some .skip, u) →
    u.bodyOk (0x30 + dt.toNat) (slice b 8 (b.length - 12)) = true →
    ∃ t, exec (.commandMessage p vc dt b true a) s = .next t ∧
      t.links.bodies = u.links.bodies ++ [⟨0x30 + dt.toNat, slice b 8 (b.length - 12), field b 2 2, s.tapTime a, u.stamp⟩] ∧
      t.fld fld_CMD_COUNT_2_SKIP = min (2 ^ fld_CMD_COUNT_2_SKIP.width - 1) (u.fld fld_CMD_COUNT_2_SKIP + 1)) ∧
  (∀ (s : State), (s.nextBody 0x30 = none → exec .qpDelta s = .next s) ∧ (s.nextBody 0x31 = none → exec .target s = .next s) ∧
    (s.nextBody 0x32 = none → exec .tile s = .next s) ∧ (s.nextBody 0x33 = none → exec .index s = .next s)) ∧
  (∀ (d : Nat) (s : State), ((∀ b ∈ s.links.bodies, b.dt ≠ d) ∨ s.swatchRuns hostSwatch = false) → s.nextBody d = none) ∧
  (∀ (b : CommandBody) (s : State), s.links.bodies.find? (fun b => b.dt == 0x32) = some b → s.dirReady = true → s.dozing = false →
    field b.body 8 4 = 0 → b.body.length - 16 ≤ field b.body 4 4 →
    s.admitsClassC = false ∨ s.swatchRuns 15 = false ∨ s.freePages + s.stagedPages < field b.body 4 4 / pageBytes →
    exec .tile s = .next s) ∧
  (∀ (b : CommandBody) (x : TileAssembly) (s : State), s.links.bodies.find? (fun b => b.dt == 0x32) = some b → s.swatchRuns hostSwatch = true →
    s.dirReady = true → s.dozing = false → field b.body 8 4 = 0 → s.admitsClassC = true → s.swatchRuns 15 = true → s.links.assembly = some x →
    field b.body 4 4 / pageBytes ≤ s.freePages + s.stagedPages → b.body.length - 16 ≤ field b.body 4 4 → s.links.status.length < 255 →
    ∃ t pages, exec .tile s = .next t ∧ pages.length = field b.body 4 4 / pageBytes ∧
      t.links.assembly = some ⟨field b.body 0 4, field b.body 4 4, b.body.drop 16, pages, b.alive, b.arrival⟩ ∧
      (t.links.status.drop s.links.status.length).map (fun r => r.result) = [cmdOrder, cmdAccepted] ∧ t.mem = { s.mem with managing := t.mem.managing }) ∧
  (∀ (b : CommandBody) (s : State), s.links.bodies.find? (fun b => b.dt == 0x32) = some b → s.swatchRuns hostSwatch = true → s.dirReady = true →
    s.dozing = false → field b.body 8 4 = 0 → field b.body 4 4 < b.body.length - 16 →
    ∃ t, exec .tile s = .next t ∧ t.links.assembly = none ∧ t.fld fld_CMD_LAST_RESULT = cmdOrder ∧
      t.links.bodies = dropFirst (fun x => x.dt == 0x32) s.links.bodies ∧ t.mem = { s.mem with managing := t.mem.managing }) ∧
  (∀ (b : CommandBody) (x : TileAssembly) (s : State), s.links.bodies.find? (fun b => b.dt == 0x32) = some b → s.swatchRuns hostSwatch = true →
    s.dirReady = true → s.dozing = false → field b.body 8 4 ≠ 0 → s.links.assembly = some x →
    field b.body 0 4 ≠ x.tile ∨ field b.body 4 4 ≠ x.total ∨ field b.body 8 4 ≠ x.bytes.length ∨ x.total < x.bytes.length + (b.body.drop 16).length →
    ∃ t, exec .tile s = .next t ∧ t.links.assembly = none ∧ t.fld fld_CMD_LAST_RESULT = cmdOrder ∧ t.mem = { s.mem with managing := t.mem.managing }) ∧
  (∀ (s : State), (s.links.assembly = none ∨ s.moverRuns = false ∨
    ∃ x, s.links.assembly = some x ∧ (x.bytes.length < x.total ∨ s.leased (tileId x.tile) = true)) → exec .tileAssemblyDone s = .next s) ∧
  (∀ (x : TileAssembly) (s : State), s.links.assembly = some x → x.total ≤ x.bytes.length → s.moverRuns = true → s.leased (tileId x.tile) = false →
    isTile (tileId x.tile) = false ∨ s.fld fld_MEM_TILE_CFG_DIR_ENTRIES ≤ x.tile ∨ s.tileRegionBad = true → s.inReset 6 = false →
    ∃ t, exec .tileAssemblyDone s = .next t ∧ t.links.assembly = none ∧ t.fld fld_CMD_LAST_RESULT = cmdTile ∧ t.fld fld_CMD_LAST_DETAIL = moverBadObject ∧
      t.mem = { s.mem with managing := t.mem.managing }) ∧
  (∀ (x : TileAssembly) (s : State), s.links.assembly = some x → x.total ≤ x.bytes.length → s.moverRuns = true → s.leased (tileId x.tile) = false →
    ∃ t, exec .tileAssemblyDone s = .next t ∧ t.links.assembly = none)
end

