-- ==== Sys2Proof/Laws/Store.lean ====
section
/-!
SUPPORT. What reading and writing a sparse store do, and that every write keeps the canonical form.
-/
namespace Sys2Proof.Machine

theorem Store.get_nil {α : Type} (d : α) (a : Nat) : Store.get d [] a = d := rfl

theorem Store.get_drop_same {α : Type} (d : α) (m : Store α) (a : Nat) : Store.get d (Store.drop m a) a = d := by
  induction m with
  | nil => rfl
  | cons p r ih => obtain ⟨k, v⟩ := p; by_cases h : k = a <;> simp [Store.drop, Store.get, h, ih]

theorem Store.get_drop_other {α : Type} (d : α) (m : Store α) (a b : Nat) (h : b ≠ a) :
    Store.get d (Store.drop m a) b = Store.get d m b := by
  induction m with
  | nil => rfl
  | cons p r ih =>
    obtain ⟨k, v⟩ := p
    by_cases hk : k = a
    · subst hk; simp [Store.drop, Store.get, ih, Ne.symm h]
    · simp [Store.drop, Store.get, hk, ih]

theorem Store.get_put_same {α : Type} (d : α) (m : Store α) (a : Nat) (x : α) : Store.get d (Store.put m a x) a = x := by
  induction m with
  | nil => simp [Store.put, Store.get]
  | cons p r ih =>
    obtain ⟨k, v⟩ := p
    simp only [Store.put]
    split
    · simp [Store.get]
    · split <;> simp_all [Store.get]

theorem Store.get_put_other {α : Type} (d : α) (m : Store α) (a b : Nat) (x : α) (h : b ≠ a) :
    Store.get d (Store.put m a x) b = Store.get d m b := by
  induction m with
  | nil => simp [Store.put, Store.get, Ne.symm h]
  | cons p r ih =>
    obtain ⟨k, v⟩ := p
    simp only [Store.put]
    split
    · next hk => subst hk; simp [Store.get, Ne.symm h]
    · split <;> simp [Store.get, ih, Ne.symm h]

/-- A key reads the value written to it. -/
@[simp] theorem Store.get_set_same {α : Type} [DecidableEq α] (d : α) (m : Store α) (a : Nat) (x : α) :
    Store.get d (Store.set d m a x) a = x := by
  unfold Store.set
  split
  · next h => rw [h]; exact Store.get_drop_same d m a
  · exact Store.get_put_same d m a x

/-- A write leaves every other key alone. -/
theorem Store.get_set_other {α : Type} [DecidableEq α] (d : α) (m : Store α) (a b : Nat) (x : α) (h : b ≠ a) :
    Store.get d (Store.set d m a x) b = Store.get d m b := by
  unfold Store.set
  split
  · exact Store.get_drop_other d m a b h
  · exact Store.get_put_other d m a b x h

theorem Store.get_set {α : Type} [DecidableEq α] (d : α) (m : Store α) (a b : Nat) (x : α) :
    Store.get d (Store.set d m a x) b = if b = a then x else Store.get d m b := by
  split
  · next h => rw [h, Store.get_set_same]
  · next h => exact Store.get_set_other d m a b x h

/-- Every bound below the first keeps a rising list. -/
theorem Store.wfFrom_mono {α : Type} [DecidableEq α] (d : α) (m : Store α) (lo hi : Nat) (h : lo ≤ hi)
    (w : Store.wfFrom d hi m = true) : Store.wfFrom d lo m = true := by
  cases m with
  | nil => rfl
  | cons p r => 
    obtain ⟨k, v⟩ := p
    simp only [Store.wfFrom, Bool.and_eq_true, decide_eq_true_eq] at *
    exact ⟨⟨by omega, w.1.2⟩, w.2⟩

theorem Store.wfFrom_drop {α : Type} [DecidableEq α] (d : α) (m : Store α) (a lo : Nat)
    (w : Store.wfFrom d lo m = true) : Store.wfFrom d lo (Store.drop m a) = true := by
  induction m generalizing lo with
  | nil => rfl
  | cons p r ih =>
    obtain ⟨k, v⟩ := p
    simp only [Store.wfFrom, Bool.and_eq_true, decide_eq_true_eq] at w
    simp only [Store.drop]
    split
    · exact ih lo (Store.wfFrom_mono d r lo (k + 1) (by omega) w.2)
    · simp only [Store.wfFrom, Bool.and_eq_true, decide_eq_true_eq]; exact ⟨w.1, ih _ w.2⟩

theorem Store.wfFrom_put {α : Type} [DecidableEq α] (d : α) (m : Store α) (a lo : Nat) (x : α) (hx : x ≠ d) (ha : lo ≤ a)
    (w : Store.wfFrom d lo m = true) : Store.wfFrom d lo (Store.put m a x) = true := by
  induction m generalizing lo with
  | nil => simp [Store.put, Store.wfFrom, hx, ha]
  | cons p r ih =>
    obtain ⟨k, v⟩ := p
    simp only [Store.wfFrom, Bool.and_eq_true, decide_eq_true_eq] at w
    simp only [Store.put]
    split
    · next h => subst h; simp [Store.wfFrom, w.1.1, hx, w.2]
    · split
      · next h => simp [Store.wfFrom, ha, hx, w.1.2, w.2]; omega
      · next h1 h2 =>
        simp only [Store.wfFrom, Bool.and_eq_true, decide_eq_true_eq]
        exact ⟨w.1, ih _ (by omega) w.2⟩

/-- A write keeps the canonical form. -/
theorem Store.wf_set {α : Type} [DecidableEq α] (d : α) (m : Store α) (a : Nat) (x : α) (w : Store.wf d m = true) :
    Store.wf d (Store.set d m a x) = true := by
  unfold Store.set
  split
  · exact Store.wfFrom_drop d m a 0 w
  · next h => exact Store.wfFrom_put d m a 0 x h (Nat.zero_le a) w

/-- A change of one key keeps the canonical form. -/
theorem Store.wf_upd {α : Type} [DecidableEq α] (d : α) (m : Store α) (a : Nat) (f : α → α) (w : Store.wf d m = true) :
    Store.wf d (Store.upd d m a f) = true := Store.wf_set d m a _ w

/-- Writing consecutive keys keeps the canonical form. -/
theorem Store.wf_setMany {α : Type} [DecidableEq α] (d : α) (l : List α) (m : Store α) (a : Nat) (w : Store.wf d m = true) :
    Store.wf d (Store.setMany d m a l) = true := by
  induction l generalizing m a with
  | nil => exact w
  | cons x r ih => exact ih _ _ (Store.wf_set d m a x w)

theorem Store.wf_nil {α : Type} [DecidableEq α] (d : α) : Store.wf d ([] : Store α) = true := rfl

/-- Consecutive keys written read back; the others keep their values. -/
theorem Store.get_setMany {α : Type} [DecidableEq α] (d : α) (l : List α) (m : Store α) (a b : Nat) :
    Store.get d (Store.setMany d m a l) b = if h : a ≤ b ∧ b - a < l.length then l[b - a] else Store.get d m b := by
  induction l generalizing m a with
  | nil => simp [Store.setMany]
  | cons x r ih =>
    simp only [Store.setMany, ih, Store.get_set, List.length_cons]
    by_cases h1 : b = a
    · subst h1; simp <;> omega
    · by_cases h2 : a ≤ b
      · have e : b - a = (b - (a + 1)) + 1 := by omega
        by_cases h3 : b - (a + 1) < r.length
        · have h4 : a + 1 ≤ b := by omega
          have h5 : b - a < r.length + 1 := by omega
          simp only [h1, h3, h4, h2, h5, and_self, dite_true]
          simp [e]
        · have h5 : ¬ (b - a < r.length + 1) := by omega
          simp [h1, h3, h5]
      · have h4 : ¬ (a + 1 ≤ b) := by omega
        simp [h1, h2, h4]

end Sys2Proof.Machine
end

