-- ==== Sys2Proof/Laws/Kept.lean ====
section
/-!
SUPPORT. What every operation of the model keeps: the canonical form of the stores, and the commands that wait.
-/
namespace Sys2Proof.Machine

/-- The commands that wait are `q`, and the stores are canonical where `C` holds. -/
structure State.Kept (C : Prop) (q : List Instr) (s : State) : Prop where
  canonical : C → s.Canonical
  queue : s.pending = q

theorem kept_mk {C : Prop} {q : List Instr} {s t : State} (h : s.Kept C q) (h1 : t.regs = s.regs) (h2 : t.shadow = s.shadow) (h3 : t.sram = s.sram)
    (h4 : t.integ.log = s.integ.log) (h5 : t.mem.bytes = s.mem.bytes) (h6 : t.mem.recordBytes = s.mem.recordBytes)
    (h7 : t.srch.flash = s.srch.flash) (h8 : t.pending = s.pending) : t.Kept C q :=
  ⟨fun c => ⟨h1 ▸ (h.canonical c).regs, h2 ▸ (h.canonical c).shadow, h3 ▸ (h.canonical c).sram, h4 ▸ (h.canonical c).log,
    h5 ▸ (h.canonical c).dram, h6 ▸ (h.canonical c).records, h7 ▸ (h.canonical c).flash⟩, h8.trans h.queue⟩

theorem kept_mk_iff {C : Prop} {q : List Instr} {s : State} {x3 x4 x5 x6 x7 x8 x9 x10 x11 x13 x14 x15 x16 x17 x18 x19 x20 x21 x22 x23 x24 x25 x26 x27 x28}
    (h1 : x28.log = s.integ.log) (h2 : x16.bytes = s.mem.bytes) (h3 : x16.recordBytes = s.mem.recordBytes)
    (h4 : x23.flash = s.srch.flash) :
    (State.mk s.regs s.shadow x3 x4 x5 x6 x7 x8 x9 x10 x11 s.sram x13 x14 x15 x16 x17 x18 x19 x20 x21 x22 x23 x24 x25 x26 x27 x28 s.pending).Kept C q ↔
      s.Kept C q :=
  ⟨fun h => kept_mk h rfl rfl rfl h1.symm h2.symm h3.symm h4.symm rfl, fun h => kept_mk h rfl rfl rfl h1 h2 h3 h4 rfl⟩

theorem kept_snd {C : Prop} {q : List Instr} {α : Type} {x : α × State} {a : α} {t : State} (e : x = (a, t)) (h : x.2.Kept C q) : t.Kept C q := by
  subst e; exact h

theorem kept_foldl {C : Prop} {q : List Instr} {α : Type} {g : State → α → State} {l : List α} {s : State} (h : s.Kept C q)
    (hg : ∀ t x, t.Kept C q → (g t x).Kept C q) : (l.foldl g s).Kept C q := by
  induction l generalizing s with
  | nil => exact h
  | cons x r ih => exact ih (hg s x h)

theorem kept_foldl_snd {C : Prop} {q : List Instr} {α β : Type} {g : β × State → α → β × State} {l : List α} {x : β × State} (h : x.2.Kept C q)
    (hg : ∀ y e, y.2.Kept C q → (g y e).2.Kept C q) : (l.foldl g x).2.Kept C q := by
  induction l generalizing x with
  | nil => exact h
  | cons a r ih => exact ih (hg x a h)

theorem kept_foldl_of {C : Prop} {q : List Instr} {α β : Type} (p : β → State) {g : β → α → β} {l : List α} {x : β} (h : (p x).Kept C q)
    (hg : ∀ y e, (p y).Kept C q → (p (g y e)).Kept C q) : (p (l.foldl g x)).Kept C q := by
  induction l generalizing x with
  | nil => exact h
  | cons a r ih => exact ih (hg x a h)

theorem orElse_some {α : Type} {a : Option α} {b : Unit → Option α} {t : α} (h : a.orElse b = some t) : a = some t ∨ b () = some t := by
  cases a with
  | none => exact Or.inr h
  | some x => exact Or.inl h

theorem ite_some {α : Type} {c : Prop} [Decidable c] {x t : α} {y : Option α} (h : (if c then some x else y) = some t) :
    x = t ∨ y = some t := by
  by_cases hc : c
  · rw [if_pos hc] at h; exact Or.inl (Option.some.inj h)
  · rw [if_neg hc] at h; exact Or.inr h

theorem kept_ite {C : Prop} {q : List Instr} {c : Prop} [Decidable c] {a b : State} (ha : a.Kept C q) (hb : b.Kept C q) :
    (if c then a else b).Kept C q := by
  split <;> assumption

/-- Dropping or changing entries keeps the canonical form where no default is left. -/
theorem Store.wfFrom_filterMap {α β : Type} [DecidableEq α] [DecidableEq β] (d : α) (e : β) (g : Nat × α → Option (Nat × β))
    (hg : ∀ x y, x.2 ≠ d → g x = some y → y.1 = x.1 ∧ y.2 ≠ e) (m : Store α) (lo : Nat) (w : Store.wfFrom d lo m = true) :
    Store.wfFrom e lo (m.filterMap g) = true := by
  induction m generalizing lo with
  | nil => rfl
  | cons p r ih =>
    obtain ⟨k, v⟩ := p
    simp only [Store.wfFrom, Bool.and_eq_true, decide_eq_true_eq] at w
    rw [List.filterMap_cons]
    split
    · exact Store.wfFrom_mono e _ lo (k + 1) (by omega) (ih _ w.2)
    · next y hy =>
      obtain ⟨a, b⟩ := y
      obtain ⟨h1, h2⟩ := hg _ _ w.1.2 hy
      simp only at h1 h2
      subst h1
      simp only [Store.wfFrom, Bool.and_eq_true, decide_eq_true_eq]
      exact ⟨⟨w.1.1, h2⟩, ih _ w.2⟩

theorem Store.wf_filterMap {α β : Type} [DecidableEq α] [DecidableEq β] (d : α) (e : β) (g : Nat × α → Option (Nat × β))
    (hg : ∀ x y, x.2 ≠ d → g x = some y → y.1 = x.1 ∧ y.2 ≠ e) (m : Store α) (w : Store.wf d m = true) : Store.wf e (m.filterMap g) = true :=
  Store.wfFrom_filterMap d e g hg m 0 w

theorem Store.wfFrom_filter {α : Type} [DecidableEq α] (d : α) (p : Nat × α → Bool) (m : Store α) (lo : Nat) (w : Store.wfFrom d lo m = true) :
    Store.wfFrom d lo (m.filter p) = true := by
  induction m generalizing lo with
  | nil => rfl
  | cons x r ih =>
    obtain ⟨k, v⟩ := x
    simp only [Store.wfFrom, Bool.and_eq_true, decide_eq_true_eq] at w
    rw [List.filter_cons]
    split
    · simp only [Store.wfFrom, Bool.and_eq_true, decide_eq_true_eq]; exact ⟨w.1, ih _ w.2⟩
    · exact Store.wfFrom_mono d _ lo (k + 1) (by omega) (ih _ w.2)

theorem Store.wf_filter {α : Type} [DecidableEq α] (d : α) (p : Nat × α → Bool) (m : Store α) (w : Store.wf d m = true) :
    Store.wf d (m.filter p) = true := Store.wfFrom_filter d p m 0 w

theorem Store.wf_foldl_set {α β : Type} [DecidableEq α] (d : α) (g : Store α → β → Store α) (l : List β) (m : Store α)
    (hg : ∀ n x, Store.wf d n = true → Store.wf d (g n x) = true) (w : Store.wf d m = true) : Store.wf d (l.foldl g m) = true := by
  induction l generalizing m with
  | nil => exact w
  | cons x r ih => exact ih _ (hg m x w)

end Sys2Proof.Machine
end

