-- ==== Sys2Proof/Laws/KeptOps.lean ====
section
/-!
SUPPORT. One law for every operation over the block, in the order in which they call one another: what it leaves canonical and waiting
(Laws/Kept.lean).
-/
set_option linter.unusedSimpArgs false
set_option Elab.async false
namespace Sys2Proof.Machine
theorem State.setReg_kept {cn : Prop} {ql : List Instr} {s : State} {a : Nat} {w : Word} : State.Kept cn ql s → State.Kept cn ql (State.setReg s a w) := by
  intro h
  exact ⟨fun c => { h.canonical c with regs := Store.wf_set 0 _ _ _ (h.canonical c).regs }, h.queue⟩

theorem State.setFld_kept {cn : Prop} {ql : List Instr} {s : State} {f : Fld} {v : Nat} : State.Kept cn ql s → State.Kept cn ql (State.setFld s f v) := by
  intros
  unfold State.setFld
  repeat' (first
    | with_reducible assumption
    | with_reducible apply State.setReg_kept
    | dsimp only)

theorem State.setFlag_kept {cn : Prop} {ql : List Instr} {s : State} {f : Fld} {b : Bool} : State.Kept cn ql s → State.Kept cn ql (State.setFlag s f b) := by
  intros
  unfold State.setFlag
  repeat' (first
    | with_reducible assumption
    | with_reducible apply State.setFld_kept
    | with_reducible apply kept_ite
    | split
    | dsimp only)

theorem State.setUnit_kept {cn : Prop} {ql : List Instr} {s : State} {n : Nat} {u : CheckUnit} : State.Kept cn ql s → State.Kept cn ql (State.setUnit s n u) := by
  intros
  unfold State.setUnit
  repeat' (first
    | with_reducible assumption
    | with_reducible apply State.setFlag_kept
    | simp only [kept_mk_iff]
    | with_reducible rfl
    | dsimp only)

theorem State.freeUnit_kept {cn : Prop} {ql : List Instr} {s : State} {n : Nat} : State.Kept cn ql s → State.Kept cn ql (State.freeUnit s n) := by
  intros
  unfold State.freeUnit
  repeat' (first
    | with_reducible assumption
    | with_reducible apply State.setUnit_kept
    | simp only [kept_mk_iff]
    | with_reducible rfl
    | (refine kept_snd (by with_reducible assumption) ?_)
    | split
    | dsimp only)

theorem State.abandonFeeder_kept {cn : Prop} {ql : List Instr} {s : State} {point : Nat} : State.Kept cn ql s → State.Kept cn ql (State.abandonFeeder s point) := by
  intros
  unfold State.abandonFeeder
  repeat' (first
    | intro _
    | with_reducible assumption
    | with_reducible apply State.setUnit_kept
    | with_reducible apply State.freeUnit_kept
    | with_reducible apply kept_foldl
    | with_reducible apply kept_foldl_snd
    | with_reducible apply kept_ite
    | simp only [kept_mk_iff]
    | with_reducible rfl
    | (refine kept_snd (by with_reducible assumption) ?_)
    | split
    | dsimp only)

theorem State.abandonMove_kept {cn : Prop} {ql : List Instr} {s : State} {code : Nat} : State.Kept cn ql s → State.Kept cn ql (State.abandonMove s code) := by
  intros
  unfold State.abandonMove
  repeat' (first
    | with_reducible assumption
    | simp only [kept_mk_iff]
    | with_reducible rfl
    | (refine kept_snd (by with_reducible assumption) ?_)
    | split
    | dsimp only)

theorem State.setMarker_kept {cn : Prop} {ql : List Instr} {s : State} {m : Nat} {k : Marker} : State.Kept cn ql s → State.Kept cn ql (State.setMarker s m k) := by
  intros
  unfold State.setMarker
  repeat' (first
    | with_reducible assumption
    | simp only [kept_mk_iff]
    | with_reducible rfl
    | dsimp only)

theorem State.setGraph_kept {cn : Prop} {ql : List Instr} {s : State} {g : Nat} {v : Graph} : State.Kept cn ql s → State.Kept cn ql (State.setGraph s g v) := by
  intros
  unfold State.setGraph
  repeat' (first
    | with_reducible assumption
    | with_reducible apply State.setFlag_kept
    | simp only [kept_mk_iff]
    | with_reducible rfl
    | dsimp only)

theorem State.updAct_kept {cn : Prop} {ql : List Instr} {s : State} {g : Nat} {f : Activation → Activation} : State.Kept cn ql s → State.Kept cn ql (State.updAct s g f) := by
  intros
  unfold State.updAct
  repeat' (first
    | with_reducible assumption
    | with_reducible apply State.setGraph_kept
    | simp only [kept_mk_iff]
    | with_reducible rfl
    | (refine kept_snd (by with_reducible assumption) ?_)
    | split
    | dsimp only)

theorem State.updNode_kept {cn : Prop} {ql : List Instr} {s : State} {g n : Nat} {f : NodeRun → NodeRun} : State.Kept cn ql s → State.Kept cn ql (State.updNode s g n f) := by
  intros
  unfold State.updNode
  repeat' (first
    | with_reducible assumption
    | with_reducible apply State.updAct_kept
    | simp only [kept_mk_iff]
    | with_reducible rfl
    | (refine kept_snd (by with_reducible assumption) ?_)
    | split
    | dsimp only)

theorem State.answer_kept {cn : Prop} {ql : List Instr} {s : State} {agent m gen : Nat} {a : MarkerAnswer} : State.Kept cn ql s → State.Kept cn ql (State.answer s agent m gen a) := by
  intros
  unfold State.answer
  repeat' (first
    | with_reducible assumption
    | with_reducible apply State.updNode_kept
    | with_reducible apply kept_ite
    | simp only [kept_mk_iff]
    | with_reducible rfl
    | split
    | dsimp only)

theorem State.abandonOp_kept {cn : Prop} {ql : List Instr} {s : State} {m agent : Nat} {t : State} : State.abandonOp s m agent = Option.some t → State.Kept cn ql s → State.Kept cn ql t := by
  intro he h
  unfold State.abandonOp at he
  try dsimp only at he
  repeat' (first
    | contradiction
    | (injection he with he; subst he)
    | split at he)
  all_goals
  repeat' (first
    | intro _
    | with_reducible assumption
    | with_reducible apply State.setMarker_kept
    | with_reducible apply State.answer_kept
    | with_reducible apply kept_foldl
    | with_reducible apply kept_foldl_snd
    | with_reducible apply kept_ite
    | simp only [kept_mk_iff]
    | with_reducible rfl
    | (refine kept_snd (by with_reducible assumption) ?_)
    | split
    | dsimp only)

theorem State.askReset_kept {cn : Prop} {ql : List Instr} {s : State} {n cause : Nat} : State.Kept cn ql s → State.Kept cn ql (State.askReset s n cause) := by
  intros
  unfold State.askReset
  repeat' (first
    | with_reducible assumption
    | with_reducible apply kept_ite
    | simp only [kept_mk_iff]
    | with_reducible rfl
    | split
    | dsimp only)

theorem State.raiseFault_kept {cn : Prop} {ql : List Instr} {s : State} {c source : Nat} {detail : Word} : State.Kept cn ql s → State.Kept cn ql (State.raiseFault s c source detail) := by
  intros
  unfold State.raiseFault
  repeat' (first
    | with_reducible assumption
    | with_reducible apply State.askReset_kept
    | with_reducible apply kept_ite
    | simp only [kept_mk_iff]
    | with_reducible rfl
    | split
    | dsimp only)

theorem State.addSat_kept {cn : Prop} {ql : List Instr} {s : State} {f : Fld} {k : Nat} : State.Kept cn ql s → State.Kept cn ql (State.addSat s f k) := by
  intros
  unfold State.addSat
  repeat' (first
    | with_reducible assumption
    | with_reducible apply State.setFld_kept
    | dsimp only)

theorem State.stitchProto_kept {cn : Prop} {ql : List Instr} {s : State} {m agent : Nat} : State.Kept cn ql s → State.Kept cn ql (State.stitchProto s m agent) := by
  intros
  unfold State.stitchProto
  repeat' (first
    | with_reducible assumption
    | with_reducible apply State.raiseFault_kept
    | with_reducible apply State.addSat_kept
    | dsimp only)

theorem State.orProto_kept {cn : Prop} {ql : List Instr} {s : State} {m agent : Nat} {r : Option State} : (∀ t, r = some t → t.Kept cn ql) → s.Kept cn ql → (s.orProto m agent r).Kept cn ql := by
  intro hr h
  unfold State.orProto
  split
  · exact hr _ rfl
  · exact State.stitchProto_kept h

theorem State.abandonOutputs_kept {cn : Prop} {ql : List Instr} {s : State} {g n : Nat} {r : NodeRun} : State.Kept cn ql s → State.Kept cn ql (State.abandonOutputs s g n r) := by
  intros
  unfold State.abandonOutputs
  repeat' (first
    | intro _
    | with_reducible assumption
    | with_reducible apply State.orProto_kept
    | (refine State.abandonOp_kept (by with_reducible assumption) ?_)
    | with_reducible apply kept_foldl
    | with_reducible apply kept_foldl_snd
    | with_reducible apply kept_ite
    | simp only [kept_mk_iff]
    | with_reducible rfl
    | (refine kept_snd (by with_reducible assumption) ?_)
    | split
    | dsimp only)

theorem State.setImport_kept {cn : Prop} {ql : List Instr} {s : State} {i : Option Import} : State.Kept cn ql s → State.Kept cn ql (State.setImport s i) := by
  intros
  unfold State.setImport
  repeat' (first
    | with_reducible assumption
    | with_reducible apply State.setFld_kept
    | simp only [kept_mk_iff]
    | with_reducible rfl
    | dsimp only)

theorem State.addWrap_kept {cn : Prop} {ql : List Instr} {s : State} {f : Fld} {k : Nat} : State.Kept cn ql s → State.Kept cn ql (State.addWrap s f k) := by
  intros
  unfold State.addWrap
  repeat' (first
    | with_reducible assumption
    | with_reducible apply State.setFld_kept
    | dsimp only)

theorem State.countResult_kept {cn : Prop} {ql : List Instr} {s : State} {result detail : Nat} : State.Kept cn ql s → State.Kept cn ql (State.countResult s result detail) := by
  intros
  unfold State.countResult
  repeat' (first
    | with_reducible assumption
    | with_reducible apply State.addWrap_kept
    | with_reducible apply State.addSat_kept
    | with_reducible apply kept_ite
    | split
    | dsimp only)

theorem State.addStatus_kept {cn : Prop} {ql : List Instr} {s : State} {dt result detail alive : Nat} {arrival : Stamp} : State.Kept cn ql s → State.Kept cn ql (State.addStatus s dt result detail alive arrival) := by
  intros
  unfold State.addStatus
  repeat' (first
    | with_reducible assumption
    | with_reducible apply State.countResult_kept
    | with_reducible apply State.setFld_kept
    | with_reducible apply kept_ite
    | simp only [kept_mk_iff]
    | with_reducible rfl
    | split
    | dsimp only)

theorem State.raiseIbi_kept {cn : Prop} {ql : List Instr} {s : State} {c : Nat} : State.Kept cn ql s → State.Kept cn ql (State.raiseIbi s c) := by
  intros
  unfold State.raiseIbi
  repeat' (first
    | with_reducible assumption
    | with_reducible apply State.setFld_kept
    | dsimp only)

theorem State.endImport_kept {cn : Prop} {ql : List Instr} {s : State} {code alive : Nat} {arrival : Stamp} : State.Kept cn ql s → State.Kept cn ql (State.endImport s code alive arrival) := by
  intros
  unfold State.endImport
  repeat' (first
    | with_reducible assumption
    | with_reducible apply State.setFlag_kept
    | with_reducible apply State.setFld_kept
    | with_reducible apply State.setImport_kept
    | with_reducible apply State.addStatus_kept
    | with_reducible apply State.raiseIbi_kept
    | dsimp only)

theorem State.stopImport_kept {cn : Prop} {ql : List Instr} {s : State} {code : Nat} : State.Kept cn ql s → State.Kept cn ql (State.stopImport s code) := by
  intros
  unfold State.stopImport
  repeat' (first
    | with_reducible assumption
    | with_reducible apply State.endImport_kept
    | simp only [kept_mk_iff]
    | with_reducible rfl
    | (refine kept_snd (by with_reducible assumption) ?_)
    | split
    | dsimp only)

theorem State.deliverQuery_kept {cn : Prop} {ql : List Instr} {s : State} {q : Query} {status cause flags : Nat} {entries : List SearchEntry} : State.Kept cn ql s → State.Kept cn ql (State.deliverQuery s q status cause flags entries) := by
  intros
  unfold State.deliverQuery
  repeat' (first
    | with_reducible assumption
    | with_reducible apply State.addWrap_kept
    | with_reducible apply kept_ite
    | simp only [kept_mk_iff]
    | with_reducible rfl
    | (refine kept_snd (by with_reducible assumption) ?_)
    | split
    | dsimp only)

theorem State.endQuery_kept {cn : Prop} {ql : List Instr} {s : State} {q : Query} {status cause : Nat} : State.Kept cn ql s → State.Kept cn ql (State.endQuery s q status cause) := by
  intros
  unfold State.endQuery
  repeat' (first
    | with_reducible assumption
    | with_reducible apply State.addSat_kept
    | with_reducible apply State.deliverQuery_kept
    | with_reducible apply kept_ite
    | simp only [kept_mk_iff]
    | with_reducible rfl
    | split
    | dsimp only)

theorem State.endQueries_kept {cn : Prop} {ql : List Instr} {s : State} {l : List Query} {status : Nat} : State.Kept cn ql s → State.Kept cn ql (State.endQueries s l status) := by
  intros
  unfold State.endQueries
  repeat' (first
    | intro _
    | with_reducible assumption
    | with_reducible apply State.endQuery_kept
    | with_reducible apply kept_foldl
    | with_reducible apply kept_foldl_snd
    | (refine kept_snd (by with_reducible assumption) ?_)
    | dsimp only)

theorem State.abandonSearch_kept {cn : Prop} {ql : List Instr} {s : State} : State.Kept cn ql s → State.Kept cn ql (State.abandonSearch s) := by
  intros
  unfold State.abandonSearch
  repeat' (first
    | with_reducible assumption
    | with_reducible apply State.stopImport_kept
    | with_reducible apply State.endQueries_kept
    | dsimp only)

theorem State.setClassA_kept {cn : Prop} {ql : List Instr} {s : State} {a : ClassA} : State.Kept cn ql s → State.Kept cn ql (State.setClassA s a) := by
  intros
  unfold State.setClassA
  repeat' (first
    | with_reducible assumption
    | simp only [kept_mk_iff]
    | with_reducible rfl
    | dsimp only)

theorem State.storeTerm_kept {cn : Prop} {ql : List Instr} {s : State} {k : Nat} {adopted : Bool} : State.Kept cn ql s → State.Kept cn ql (State.storeTerm s k adopted) := by
  intros
  unfold State.storeTerm
  repeat' (first
    | with_reducible assumption
    | with_reducible apply State.setClassA_kept
    | with_reducible apply kept_ite
    | simp only [kept_mk_iff]
    | with_reducible rfl
    | (refine kept_snd (by with_reducible assumption) ?_)
    | split
    | dsimp only)

theorem State.takeWord_kept {cn : Prop} {ql : List Instr} {s : State} : State.Kept cn ql s → State.Kept cn ql (Prod.snd (State.takeWord s)) := by
  intros
  unfold State.takeWord
  repeat' (first
    | with_reducible assumption
    | simp only [kept_mk_iff]
    | with_reducible rfl
    | dsimp only)

theorem State.roundScaled_kept {cn : Prop} {ql : List Instr} {s : State} {a : List (Fix × Fix)} : State.Kept cn ql s → State.Kept cn ql (Prod.snd (State.roundScaled s a)) := by
  intro h
  induction a generalizing s with
  | nil => exact h
  | cons d r ih => exact ih (State.takeWord_kept h)

theorem State.takeWords_kept {cn : Prop} {ql : List Instr} {s : State} {a : Nat} : State.Kept cn ql s → State.Kept cn ql (Prod.snd (State.takeWords s a)) := by
  intro h
  induction a generalizing s with
  | zero => exact h
  | succ n ih => exact ih (State.takeWord_kept h)

theorem State.roundVec_kept {cn : Prop} {ql : List Instr} {s : State} {n : Nat} {v : Option (List Fix)} : State.Kept cn ql s → State.Kept cn ql (Prod.snd (State.roundVec s n v)) := by
  intros
  unfold State.roundVec
  repeat' (first
    | with_reducible assumption
    | with_reducible apply State.roundScaled_kept
    | with_reducible apply State.takeWords_kept
    | simp only [kept_mk_iff]
    | with_reducible rfl
    | (refine kept_snd (by with_reducible assumption) ?_)
    | split
    | dsimp only)

theorem State.roundEach_kept {cn : Prop} {ql : List Instr} {s : State} {n : Nat} {v : Option (List Fix)} : State.Kept cn ql s → State.Kept cn ql (Prod.snd (State.roundEach s n v)) := by
  intros
  unfold State.roundEach
  repeat' (first
    | with_reducible assumption
    | with_reducible apply State.roundScaled_kept
    | with_reducible apply State.takeWords_kept
    | simp only [kept_mk_iff]
    | with_reducible rfl
    | (refine kept_snd (by with_reducible assumption) ?_)
    | split
    | dsimp only)

theorem State.preintWords_kept {cn : Prop} {ql : List Instr} {s : State} {p : Option Preint} : State.Kept cn ql s → State.Kept cn ql (Prod.snd (Prod.snd (State.preintWords s p))) := by
  intros
  unfold State.preintWords
  repeat' (first
    | with_reducible assumption
    | with_reducible apply State.roundVec_kept
    | with_reducible apply State.roundEach_kept
    | (refine kept_snd (by with_reducible assumption) ?_)
    | split
    | dsimp only)

theorem State.imuTerm_kept {cn : Prop} {ql : List Instr} {s : State} {n : Nat} {before c : Stamp} {prop : Option Nat} : State.Kept cn ql s → State.Kept cn ql (Prod.snd (State.imuTerm s n before c prop)) := by
  intros
  unfold State.imuTerm
  repeat' (first
    | with_reducible assumption
    | with_reducible apply State.preintWords_kept
    | with_reducible apply kept_ite
    | simp only [kept_mk_iff]
    | with_reducible rfl
    | (refine kept_snd (by with_reducible assumption) ?_)
    | split
    | dsimp only)

theorem State.legTerm_kept {cn : Prop} {ql : List Instr} {s : State} {k : Nat} {c : Stamp} : State.Kept cn ql s → State.Kept cn ql (Prod.snd (State.legTerm s k c)) := by
  intros
  unfold State.legTerm
  repeat' (first
    | intro _
    | with_reducible assumption
    | with_reducible apply State.roundVec_kept
    | with_reducible apply kept_foldl
    | with_reducible apply kept_foldl_snd
    | with_reducible apply kept_ite
    | simp only [kept_mk_iff]
    | with_reducible rfl
    | (refine kept_snd (by with_reducible assumption) ?_)
    | split
    | dsimp only)

theorem State.setImu_kept {cn : Prop} {ql : List Instr} {s : State} {n : Nat} {v : ImuTrack} : State.Kept cn ql s → State.Kept cn ql (State.setImu s n v) := by
  intros
  unfold State.setImu
  repeat' (first
    | with_reducible assumption
    | simp only [kept_mk_iff]
    | with_reducible rfl
    | dsimp only)

theorem State.pruneSamples_kept {cn : Prop} {ql : List Instr} {s : State} {c : Stamp} : State.Kept cn ql s → State.Kept cn ql (State.pruneSamples s c) := by
  intros
  unfold State.pruneSamples
  repeat' (first
    | intro _
    | with_reducible assumption
    | with_reducible apply State.setImu_kept
    | with_reducible apply kept_foldl
    | with_reducible apply kept_foldl_snd
    | simp only [kept_mk_iff]
    | with_reducible rfl
    | (refine kept_snd (by with_reducible assumption) ?_)
    | dsimp only)

theorem State.raiseGap_kept {cn : Prop} {ql : List Instr} {s : State} {prop : Option Nat} : State.Kept cn ql s → State.Kept cn ql (State.raiseGap s prop) := by
  intros
  unfold State.raiseGap
  repeat' (first
    | with_reducible assumption
    | with_reducible apply State.raiseFault_kept
    | with_reducible apply State.setFlag_kept
    | simp only [kept_mk_iff]
    | with_reducible rfl
    | (refine kept_snd (by with_reducible assumption) ?_)
    | split
    | dsimp only)

theorem State.notePropagating_kept {cn : Prop} {ql : List Instr} {s : State} {c : Stamp} {prop : Option Nat} : State.Kept cn ql s → State.Kept cn ql (State.notePropagating s c prop) := by
  intros
  unfold State.notePropagating
  repeat' (first
    | intro _
    | with_reducible assumption
    | with_reducible apply State.raiseGap_kept
    | with_reducible apply State.setFld_kept
    | with_reducible apply State.setFlag_kept
    | with_reducible apply kept_foldl
    | with_reducible apply kept_foldl_snd
    | with_reducible apply kept_ite
    | simp only [kept_mk_iff]
    | with_reducible rfl
    | (refine kept_snd (by with_reducible assumption) ?_)
    | split
    | dsimp only)

theorem State.publishTerms_kept {cn : Prop} {ql : List Instr} {s : State} {c : Stamp} : State.Kept cn ql s → State.Kept cn ql (State.publishTerms s c) := by
  intros
  unfold State.publishTerms
  repeat' (first
    | intro _
    | with_reducible assumption
    | with_reducible apply State.imuTerm_kept
    | with_reducible apply State.legTerm_kept
    | with_reducible apply State.pruneSamples_kept
    | with_reducible apply State.notePropagating_kept
    | with_reducible apply kept_foldl
    | with_reducible apply kept_foldl_snd
    | simp only [kept_mk_iff]
    | with_reducible rfl
    | (refine kept_snd (by with_reducible assumption) ?_)
    | split
    | dsimp only)

theorem State.setWork_kept {cn : Prop} {ql : List Instr} {s : State} {w : PeriodWork} : State.Kept cn ql s → State.Kept cn ql (State.setWork s w) := by
  intros
  unfold State.setWork
  repeat' (first
    | with_reducible assumption
    | simp only [kept_mk_iff]
    | with_reducible rfl
    | dsimp only)

theorem State.propagate_kept {cn : Prop} {ql : List Instr} {s : State} {w : PeriodWork} : State.Kept cn ql s → State.Kept cn ql (Prod.snd (State.propagate s w)) := by
  intros
  unfold State.propagate
  repeat' (first
    | with_reducible assumption
    | with_reducible apply State.storeTerm_kept
    | with_reducible apply State.publishTerms_kept
    | with_reducible apply State.setWork_kept
    | with_reducible apply kept_ite
    | simp only [kept_mk_iff]
    | with_reducible rfl
    | split
    | dsimp only)

theorem State.updateFails_kept {cn : Prop} {ql : List Instr} {s : State} {unchecked : Bool} : State.Kept cn ql s → State.Kept cn ql (State.updateFails s unchecked) := by
  intros
  unfold State.updateFails
  repeat' (first
    | with_reducible assumption
    | with_reducible apply State.raiseFault_kept
    | with_reducible apply State.addSat_kept
    | with_reducible apply kept_ite
    | split
    | dsimp only)

theorem State.addPose_kept {cn : Prop} {ql : List Instr} {s : State} {p : PoseEntry} : State.Kept cn ql s → State.Kept cn ql (State.addPose s p) := by
  intros
  unfold State.addPose
  repeat' (first
    | with_reducible assumption
    | with_reducible apply State.setFlag_kept
    | simp only [kept_mk_iff]
    | with_reducible rfl
    | dsimp only)

theorem State.setWindow_kept {cn : Prop} {ql : List Instr} {s : State} {w : Window} : State.Kept cn ql s → State.Kept cn ql (State.setWindow s w) := by
  intros
  unfold State.setWindow
  repeat' (first
    | with_reducible assumption
    | simp only [kept_mk_iff]
    | with_reducible rfl
    | dsimp only)

theorem State.noteEstimate_kept {cn : Prop} {ql : List Instr} {s : State} {e : EstimateEntry} : State.Kept cn ql s → State.Kept cn ql (State.noteEstimate s e) := by
  intros
  unfold State.noteEstimate
  repeat' (first
    | with_reducible assumption
    | with_reducible apply State.setWindow_kept
    | simp only [kept_mk_iff]
    | with_reducible rfl
    | dsimp only)

theorem State.offer_kept {cn : Prop} {ql : List Instr} {s : State} {o : TxOffer} : State.Kept cn ql s → State.Kept cn ql (State.offer s o) := by
  intros
  unfold State.offer
  repeat' (first
    | with_reducible assumption
    | simp only [kept_mk_iff]
    | with_reducible rfl
    | dsimp only)

theorem State.offerPose_kept {cn : Prop} {ql : List Instr} {s : State} {period : Nat} {record : List Byte} {brown suspect : Bool} {cutoff : Stamp} {age : Nat} : State.Kept cn ql s → State.Kept cn ql (State.offerPose s period record brown suspect cutoff age) := by
  intros
  unfold State.offerPose
  repeat' (first
    | intro _
    | with_reducible assumption
    | with_reducible apply State.offer_kept
    | with_reducible apply kept_foldl
    | with_reducible apply kept_foldl_snd
    | with_reducible apply kept_ite
    | (refine kept_snd (by with_reducible assumption) ?_)
    | split
    | dsimp only)

theorem State.publishEstimate_kept {cn : Prop} {ql : List Instr} {s : State} {w : PeriodWork} {abandoned : Bool} : State.Kept cn ql s → State.Kept cn ql (Prod.snd (State.publishEstimate s w abandoned)) := by
  intros
  unfold State.publishEstimate
  repeat' (first
    | with_reducible assumption
    | with_reducible apply State.updateFails_kept
    | with_reducible apply State.addPose_kept
    | with_reducible apply State.noteEstimate_kept
    | with_reducible apply State.offerPose_kept
    | with_reducible apply State.setWork_kept
    | with_reducible apply State.setClassA_kept
    | with_reducible apply kept_ite
    | simp only [kept_mk_iff]
    | with_reducible rfl
    | split
    | dsimp only)

theorem State.setProblem_kept {cn : Prop} {ql : List Instr} {s : State} {c : Nat} {p : Option Problem} : State.Kept cn ql s → State.Kept cn ql (State.setProblem s c p) := by
  intros
  unfold State.setProblem
  repeat' (first
    | with_reducible assumption
    | simp only [kept_mk_iff]
    | with_reducible rfl
    | dsimp only)

theorem State.resumeOther_kept {cn : Prop} {ql : List Instr} {s : State} : State.Kept cn ql s → State.Kept cn ql (State.resumeOther s) := by
  intros
  unfold State.resumeOther
  repeat' (first
    | with_reducible assumption
    | with_reducible apply State.setProblem_kept
    | with_reducible apply kept_ite
    | simp only [kept_mk_iff]
    | with_reducible rfl
    | (refine kept_snd (by with_reducible assumption) ?_)
    | split
    | dsimp only)

theorem State.suspendOther_kept {cn : Prop} {ql : List Instr} {s : State} : State.Kept cn ql s → State.Kept cn ql (State.suspendOther s) := by
  intros
  unfold State.suspendOther
  repeat' (first
    | with_reducible assumption
    | with_reducible apply State.setProblem_kept
    | with_reducible apply State.addSat_kept
    | with_reducible apply kept_ite
    | simp only [kept_mk_iff]
    | with_reducible rfl
    | (refine kept_snd (by with_reducible assumption) ?_)
    | split
    | dsimp only)

theorem State.useWarm_kept {cn : Prop} {ql : List Instr} {s : State} {c : Nat} {t : Structure} {signature : Nat} {w : Iterate} {point : List Word} {p : Problem} : State.Kept cn ql s → State.Kept cn ql (Prod.snd (State.useWarm s c t signature w point p)) := by
  intros
  unfold State.useWarm
  repeat' (first
    | with_reducible assumption
    | with_reducible apply State.addSat_kept
    | with_reducible apply kept_ite
    | simp only [kept_mk_iff]
    | with_reducible rfl
    | split
    | dsimp only)

theorem State.startClassA_kept {cn : Prop} {ql : List Instr} {s : State} {w : PeriodWork} {c : Nat} : State.Kept cn ql s → State.Kept cn ql (State.startClassA s w c) := by
  intros
  unfold State.startClassA
  repeat' (first
    | with_reducible assumption
    | with_reducible apply State.useWarm_kept
    | with_reducible apply State.setProblem_kept
    | simp only [kept_mk_iff]
    | with_reducible rfl
    | (refine kept_snd (by with_reducible assumption) ?_)
    | split
    | dsimp only)

theorem State.startPeriod_kept {cn : Prop} {ql : List Instr} {s : State} {w : PeriodWork} : State.Kept cn ql s → State.Kept cn ql (State.startPeriod s w) := by
  intros
  unfold State.startPeriod
  repeat' (first
    | intro _
    | with_reducible assumption
    | with_reducible apply State.suspendOther_kept
    | with_reducible apply State.startClassA_kept
    | with_reducible apply State.resumeOther_kept
    | with_reducible apply State.setWork_kept
    | with_reducible apply kept_foldl
    | with_reducible apply kept_foldl_snd
    | with_reducible apply kept_ite
    | simp only [kept_mk_iff]
    | with_reducible rfl
    | (refine kept_snd (by with_reducible assumption) ?_)
    | split
    | dsimp only)

theorem State.afterEstimate_kept {cn : Prop} {ql : List Instr} {s : State} {w : PeriodWork} : State.Kept cn ql s → State.Kept cn ql (State.afterEstimate s w) := by
  intros
  unfold State.afterEstimate
  repeat' (first
    | with_reducible assumption
    | with_reducible apply State.resumeOther_kept
    | with_reducible apply State.setWork_kept
    | with_reducible apply State.startPeriod_kept
    | with_reducible apply kept_ite
    | simp only [kept_mk_iff]
    | with_reducible rfl
    | split
    | dsimp only)

theorem State.countStatus_kept {cn : Prop} {ql : List Instr} {s : State} {c status : Nat} : State.Kept cn ql s → State.Kept cn ql (State.countStatus s c status) := by
  intros
  unfold State.countStatus
  repeat' (first
    | with_reducible assumption
    | with_reducible apply State.addSat_kept
    | simp only [kept_mk_iff]
    | with_reducible rfl
    | (refine kept_snd (by with_reducible assumption) ?_)
    | split
    | dsimp only)

theorem State.raiseMax_kept {cn : Prop} {ql : List Instr} {s : State} {f : Fld} {v : Nat} : State.Kept cn ql s → State.Kept cn ql (State.raiseMax s f v) := by
  intros
  unfold State.raiseMax
  repeat' (first
    | with_reducible assumption
    | with_reducible apply State.setFld_kept
    | dsimp only)

theorem State.classAReady_kept {cn : Prop} {ql : List Instr} {s : State} {r : SolverResult} : State.Kept cn ql s → State.Kept cn ql (State.classAReady s r) := by
  intros
  unfold State.classAReady
  repeat' (first
    | with_reducible assumption
    | with_reducible apply State.setWork_kept
    | simp only [kept_mk_iff]
    | with_reducible rfl
    | (refine kept_snd (by with_reducible assumption) ?_)
    | split
    | dsimp only)

theorem State.setMemBytes_kept {cn : Prop} {ql : List Instr} {s : State} {id off : Nat} {l : List Byte} : State.Kept cn ql s → State.Kept cn ql (State.setMemBytes s id off l) := by
  intro h
  exact ⟨fun c => { h.canonical c with dram := Store.wf_setMany 0 _ _ _ (h.canonical c).dram }, h.queue⟩

theorem State.programRecord_kept {cn : Prop} {ql : List Instr} {s : State} {c pages : Nat} {but : Option Nat} {t : Nat × State} : State.programRecord s c pages but = Option.some t → State.Kept cn ql s → State.Kept cn ql (Prod.snd t) := by
  intro he h
  unfold State.programRecord at he
  try dsimp only at he
  repeat' (first
    | contradiction
    | (injection he with he; subst he)
    | split at he)
  all_goals
  repeat' (first
    | intro _
    | with_reducible assumption
    | with_reducible apply State.takeWord_kept
    | with_reducible apply kept_foldl
    | with_reducible apply kept_foldl_snd
    | with_reducible apply kept_ite
    | simp only [kept_mk_iff]
    | with_reducible rfl
    | (refine kept_snd (by with_reducible assumption) ?_)
    | split
    | dsimp only)

theorem State.setTileRoom_kept {cn : Prop} {ql : List Instr} {s : State} {n : Option Nat} : State.Kept cn ql s → State.Kept cn ql (State.setTileRoom s n) := by
  intros
  unfold State.setTileRoom
  repeat' (first
    | with_reducible assumption
    | simp only [kept_mk_iff]
    | with_reducible rfl
    | dsimp only)

theorem State.beginTileDelta_kept {cn : Prop} {ql : List Instr} {s : State} {size : Nat} : State.Kept cn ql s → State.Kept cn ql (State.beginTileDelta s size) := by
  intros
  unfold State.beginTileDelta
  repeat' (first
    | with_reducible assumption
    | with_reducible apply State.setTileRoom_kept
    | with_reducible apply kept_ite
    | simp only [kept_mk_iff]
    | with_reducible rfl
    | split
    | dsimp only)

theorem State.beginRecord_kept {cn : Prop} {ql : List Instr} {s : State} {id : Nat} : State.Kept cn ql s → State.Kept cn ql (State.beginRecord s id) := by
  intros
  unfold State.beginRecord
  repeat' (first
    | with_reducible assumption
    | with_reducible apply State.beginTileDelta_kept
    | with_reducible apply kept_ite
    | simp only [kept_mk_iff]
    | with_reducible rfl
    | (refine kept_snd (by with_reducible assumption) ?_)
    | split
    | dsimp only)

theorem State.dirtyMove_kept {cn : Prop} {ql : List Instr} {s : State} {id off n : Nat} : State.Kept cn ql s → State.Kept cn ql (State.dirtyMove s id off n) := by
  intros
  unfold State.dirtyMove
  repeat' (first
    | with_reducible assumption
    | (refine State.programRecord_kept (by with_reducible assumption) ?_)
    | with_reducible apply State.abandonMove_kept
    | with_reducible apply State.beginRecord_kept
    | with_reducible apply kept_ite
    | simp only [kept_mk_iff]
    | with_reducible rfl
    | (refine kept_snd (by with_reducible assumption) ?_)
    | split
    | dsimp only)

theorem State.setMark_kept {cn : Prop} {ql : List Instr} {s : State} {flash : Bool} {key : Nat} {m : WordMark} : State.Kept cn ql s → State.Kept cn ql (State.setMark s flash key m) := by
  intros
  unfold State.setMark
  repeat' (first
    | with_reducible assumption
    | with_reducible apply kept_ite
    | simp only [kept_mk_iff]
    | with_reducible rfl
    | split
    | dsimp only)

theorem State.setObject_kept {cn : Prop} {ql : List Instr} {s : State} {id : Nat} {o : Option MemObject} : State.Kept cn ql s → State.Kept cn ql (State.setObject s id o) := by
  intros
  unfold State.setObject
  repeat' (first
    | with_reducible assumption
    | simp only [kept_mk_iff]
    | with_reducible rfl
    | dsimp only)

theorem State.writeObject_kept {cn : Prop} {ql : List Instr} {s : State} {id off : Nat} {data : List Byte} : State.Kept cn ql s → State.Kept cn ql (State.writeObject s id off data) := by
  intros
  unfold State.writeObject
  repeat' (first
    | intro _
    | with_reducible assumption
    | with_reducible apply State.setMemBytes_kept
    | with_reducible apply State.dirtyMove_kept
    | with_reducible apply State.setMark_kept
    | with_reducible apply State.setObject_kept
    | with_reducible apply kept_foldl
    | with_reducible apply kept_foldl_snd
    | with_reducible apply kept_ite
    | simp only [kept_mk_iff]
    | with_reducible rfl
    | (refine kept_snd (by with_reducible assumption) ?_)
    | split
    | dsimp only)

theorem State.touch_kept {cn : Prop} {ql : List Instr} {s : State} {id : Nat} : State.Kept cn ql s → State.Kept cn ql (State.touch s id) := by
  intros
  unfold State.touch
  repeat' (first
    | with_reducible assumption
    | with_reducible apply State.setObject_kept
    | simp only [kept_mk_iff]
    | with_reducible rfl
    | (refine kept_snd (by with_reducible assumption) ?_)
    | split
    | dsimp only)

theorem State.writeStatic_kept {cn : Prop} {ql : List Instr} {s : State} {id : Nat} {b : List Byte} : State.Kept cn ql s → State.Kept cn ql (State.writeStatic s id b) := by
  intros
  unfold State.writeStatic
  repeat' (first
    | with_reducible assumption
    | with_reducible apply State.writeObject_kept
    | with_reducible apply State.touch_kept
    | with_reducible apply kept_ite
    | split
    | dsimp only)

theorem State.windowEnds_kept {cn : Prop} {ql : List Instr} {s : State} {r : SolverResult} {point : List Word} {tail : List Byte} : State.Kept cn ql s → State.Kept cn ql (State.windowEnds s r point tail) := by
  intros
  unfold State.windowEnds
  repeat' (first
    | with_reducible assumption
    | with_reducible apply State.setWindow_kept
    | with_reducible apply State.writeStatic_kept
    | with_reducible apply kept_ite
    | simp only [kept_mk_iff]
    | with_reducible rfl
    | (refine kept_snd (by with_reducible assumption) ?_)
    | split
    | dsimp only)

theorem State.marginalEnds_kept {cn : Prop} {ql : List Instr} {s : State} {r : SolverResult} {tail : List Byte} : State.Kept cn ql s → State.Kept cn ql (State.marginalEnds s r tail) := by
  intros
  unfold State.marginalEnds
  repeat' (first
    | with_reducible assumption
    | with_reducible apply State.setWindow_kept
    | with_reducible apply kept_ite
    | simp only [kept_mk_iff]
    | with_reducible rfl
    | split
    | dsimp only)

theorem State.tell_kept {cn : Prop} {ql : List Instr} {s : State} {t : SolverTask} {record : List Byte} : State.Kept cn ql s → State.Kept cn ql (State.tell s t record) := by
  intros
  unfold State.tell
  repeat' (first
    | with_reducible assumption
    | simp only [kept_mk_iff]
    | with_reducible rfl
    | dsimp only)

theorem State.deliverResult_kept {cn : Prop} {ql : List Instr} {s : State} {c : Nat} {r : SolverResult} {point : List Word} {tail : List Byte} : State.Kept cn ql s → State.Kept cn ql (State.deliverResult s c r point tail) := by
  intros
  unfold State.deliverResult
  repeat' (first
    | with_reducible assumption
    | with_reducible apply State.classAReady_kept
    | with_reducible apply State.windowEnds_kept
    | with_reducible apply State.marginalEnds_kept
    | with_reducible apply State.tell_kept
    | with_reducible apply kept_ite
    | simp only [kept_mk_iff]
    | with_reducible rfl
    | (refine kept_snd (by with_reducible assumption) ?_)
    | split
    | dsimp only)

theorem State.conclude_kept {cn : Prop} {ql : List Instr} {s : State} {c : Nat} {t : Structure} {p : Problem} {status stopPhase : Nat} : State.Kept cn ql s → State.Kept cn ql (State.conclude s c t p status stopPhase) := by
  intros
  unfold State.conclude
  repeat' (first
    | with_reducible assumption
    | with_reducible apply State.countStatus_kept
    | with_reducible apply State.raiseMax_kept
    | with_reducible apply State.deliverResult_kept
    | with_reducible apply State.setProblem_kept
    | with_reducible apply kept_ite
    | split
    | dsimp only)

theorem State.setSolverSlot_kept {cn : Prop} {ql : List Instr} {s : State} {c k : Nat} {v : SolverSlot} : State.Kept cn ql s → State.Kept cn ql (State.setSolverSlot s c k v) := by
  intros
  unfold State.setSolverSlot
  repeat' (first
    | with_reducible assumption
    | simp only [kept_mk_iff]
    | with_reducible rfl
    | dsimp only)

theorem State.discardFactor_kept {cn : Prop} {ql : List Instr} {s : State} {c k : Nat} {t : Structure} {installed : Bool} : State.Kept cn ql s → State.Kept cn ql (State.discardFactor s c k t installed) := by
  intros
  unfold State.discardFactor
  repeat' (first
    | with_reducible assumption
    | with_reducible apply State.setSolverSlot_kept
    | with_reducible apply kept_ite
    | simp only [kept_mk_iff]
    | with_reducible rfl
    | split
    | dsimp only)

theorem State.stopProblem_kept {cn : Prop} {ql : List Instr} {s : State} {c : Nat} {t : Structure} {p : Problem} : State.Kept cn ql s → State.Kept cn ql (State.stopProblem s c t p) := by
  intros
  unfold State.stopProblem
  repeat' (first
    | with_reducible assumption
    | with_reducible apply State.conclude_kept
    | with_reducible apply State.discardFactor_kept
    | with_reducible apply kept_ite
    | split
    | dsimp only)

theorem State.stopClassA_kept {cn : Prop} {ql : List Instr} {s : State} {c : Nat} : State.Kept cn ql s → State.Kept cn ql (State.stopClassA s c) := by
  intros
  unfold State.stopClassA
  repeat' (first
    | with_reducible assumption
    | with_reducible apply State.stopProblem_kept
    | simp only [kept_mk_iff]
    | with_reducible rfl
    | (refine kept_snd (by with_reducible assumption) ?_)
    | split
    | dsimp only)

theorem State.abandonUpdate_kept {cn : Prop} {ql : List Instr} {s : State} {w : PeriodWork} : State.Kept cn ql s → State.Kept cn ql (State.abandonUpdate s w) := by
  intros
  unfold State.abandonUpdate
  repeat' (first
    | intro _
    | with_reducible assumption
    | with_reducible apply State.propagate_kept
    | with_reducible apply State.publishEstimate_kept
    | with_reducible apply State.afterEstimate_kept
    | with_reducible apply State.stopClassA_kept
    | with_reducible apply kept_foldl
    | with_reducible apply kept_foldl_snd
    | (refine kept_snd (by with_reducible assumption) ?_)
    | split
    | dsimp only)

theorem State.acquireFor_kept {cn : Prop} {ql : List Instr} {s : State} {agent : Nat} {c : Option (Nat × Nat × Nat)} : State.Kept cn ql s → State.Kept cn ql (Prod.snd (State.acquireFor s agent c)) := by
  intros
  unfold State.acquireFor
  repeat' (first
    | with_reducible assumption
    | with_reducible apply State.stitchProto_kept
    | with_reducible apply State.setMarker_kept
    | with_reducible apply kept_ite
    | simp only [kept_mk_iff]
    | with_reducible rfl
    | (refine kept_snd (by with_reducible assumption) ?_)
    | split
    | dsimp only)

theorem State.acquireSlot_kept {cn : Prop} {ql : List Instr} {s : State} {m slot gen lines : Nat} : State.Kept cn ql s → State.Kept cn ql (State.acquireSlot s m slot gen lines) := by
  intros
  unfold State.acquireSlot
  repeat' (first
    | with_reducible assumption
    | with_reducible apply State.answer_kept
    | with_reducible apply State.setMarker_kept
    | simp only [kept_mk_iff]
    | with_reducible rfl
    | (refine kept_snd (by with_reducible assumption) ?_)
    | split
    | dsimp only)

theorem State.acquireOp_kept {cn : Prop} {ql : List Instr} {s : State} {m agent gen lines : Nat} {t : State} : State.acquireOp s m agent gen lines = Option.some t → State.Kept cn ql s → State.Kept cn ql t := by
  intro he h
  unfold State.acquireOp at he
  try dsimp only at he
  repeat' (first
    | contradiction
    | (injection he with he; subst he)
    | split at he)
  all_goals
  repeat' (first
    | with_reducible assumption
    | with_reducible apply State.acquireSlot_kept
    | simp only [kept_mk_iff]
    | with_reducible rfl
    | (refine kept_snd (by with_reducible assumption) ?_)
    | split
    | dsimp only)

theorem State.addBusy_kept {cn : Prop} {ql : List Instr} {s : State} {f : Fld} {ns : Nat} : State.Kept cn ql s → State.Kept cn ql (State.addBusy s f ns) := by
  intros
  unfold State.addBusy
  repeat' (first
    | with_reducible assumption
    | with_reducible apply State.addWrap_kept
    | simp only [kept_mk_iff]
    | with_reducible rfl
    | dsimp only)

theorem State.addPin_kept {cn : Prop} {ql : List Instr} {s : State} {holder id : Nat} : State.Kept cn ql s → State.Kept cn ql (State.addPin s holder id) := by
  intros
  unfold State.addPin
  repeat' (first
    | with_reducible assumption
    | with_reducible apply kept_ite
    | simp only [kept_mk_iff]
    | with_reducible rfl
    | split
    | dsimp only)

theorem State.addressImu_kept {cn : Prop} {ql : List Instr} {s : State} {n : Nat} {ack : Bool} : State.Kept cn ql s → State.Kept cn ql (State.addressImu s n ack) := by
  intros
  unfold State.addressImu
  repeat' (first
    | with_reducible assumption
    | with_reducible apply State.setFlag_kept
    | with_reducible apply kept_ite
    | simp only [kept_mk_iff]
    | with_reducible rfl
    | split
    | dsimp only)

theorem State.setMap_kept {cn : Prop} {ql : List Instr} {s : State} {m : MapTask} : State.Kept cn ql s → State.Kept cn ql (State.setMap s m) := by
  intros
  unfold State.setMap
  repeat' (first
    | with_reducible assumption
    | simp only [kept_mk_iff]
    | with_reducible rfl
    | dsimp only)

theorem State.takeBit_kept {cn : Prop} {ql : List Instr} {s : State} : State.Kept cn ql s → State.Kept cn ql (Prod.snd (State.takeBit s)) := by
  intros
  unfold State.takeBit
  repeat' (first
    | with_reducible assumption
    | simp only [kept_mk_iff]
    | with_reducible rfl
    | dsimp only)

theorem State.nearFp_kept {cn : Prop} {ql : List Instr} {s : State} {f : FpFormat} {q : Rat} : State.Kept cn ql s → State.Kept cn ql (Prod.snd (State.nearFp s f q)) := by
  intros
  unfold State.nearFp
  repeat' (first
    | with_reducible assumption
    | with_reducible apply State.takeBit_kept
    | with_reducible apply kept_ite
    | (refine kept_snd (by with_reducible assumption) ?_)
    | split
    | dsimp only)

theorem State.nearFp?_kept {cn : Prop} {ql : List Instr} {s : State} {f : FpFormat} {q : Option Rat} : State.Kept cn ql s → State.Kept cn ql (Prod.snd (State.nearFp? s f q)) := by
  intros
  unfold State.nearFp?
  repeat' (first
    | with_reducible assumption
    | with_reducible apply State.nearFp_kept
    | with_reducible apply State.takeWord_kept
    | simp only [kept_mk_iff]
    | with_reducible rfl
    | (refine kept_snd (by with_reducible assumption) ?_)
    | split
    | dsimp only)

theorem State.allocate_kept {cn : Prop} {ql : List Instr} {s : State} {used : List Nat} {a : Nat} : State.Kept cn ql s → State.Kept cn ql (Prod.snd (State.allocate s used a)) := by
  intro h
  induction a generalizing s used with
  | zero => exact h
  | succ n ih => exact ih (State.takeWord_kept h)

theorem State.holdAccess_kept {cn : Prop} {ql : List Instr} {s : State} {a : HeldAccess} : State.Kept cn ql s → State.Kept cn ql (State.holdAccess s a) := by
  intros
  unfold State.holdAccess
  repeat' (first
    | with_reducible assumption
    | simp only [kept_mk_iff]
    | with_reducible rfl
    | dsimp only)

theorem State.growObject_kept {cn : Prop} {ql : List Instr} {s : State} {id size : Nat} {pages : List Nat} : State.Kept cn ql s → State.Kept cn ql (State.growObject s id size pages) := by
  intros
  unfold State.growObject
  repeat' (first
    | with_reducible assumption
    | with_reducible apply State.setObject_kept
    | with_reducible apply kept_ite
    | simp only [kept_mk_iff]
    | with_reducible rfl
    | (refine kept_snd (by with_reducible assumption) ?_)
    | split
    | dsimp only)

theorem State.writeTile_kept {cn : Prop} {ql : List Instr} {s : State} {n : Nat} {t : MapTile} {t_1 : State} : State.writeTile s n t = Option.some t_1 → State.Kept cn ql s → State.Kept cn ql t_1 := by
  intro he h
  unfold State.writeTile at he
  try dsimp only at he
  repeat' (first
    | contradiction
    | (injection he with he; subst he)
    | split at he)
  all_goals
  repeat' (first
    | with_reducible assumption
    | with_reducible apply State.allocate_kept
    | with_reducible apply State.writeObject_kept
    | with_reducible apply State.touch_kept
    | with_reducible apply State.setObject_kept
    | with_reducible apply State.holdAccess_kept
    | with_reducible apply State.growObject_kept
    | with_reducible apply kept_ite
    | simp only [kept_mk_iff]
    | with_reducible rfl
    | (refine kept_snd (by with_reducible assumption) ?_)
    | split
    | dsimp only)

theorem State.setPair_kept {cn : Prop} {ql : List Instr} {s : State} {a v : Nat} : State.Kept cn ql s → State.Kept cn ql (State.setPair s a v) := by
  intros
  unfold State.setPair
  repeat' (first
    | with_reducible assumption
    | with_reducible apply State.setReg_kept
    | dsimp only)

theorem State.recordUe_kept {cn : Prop} {ql : List Instr} {s : State} {medium swatch : Nat} {scrub location : Bool} {addr : Nat} : State.Kept cn ql s → State.Kept cn ql (State.recordUe s medium swatch scrub location addr) := by
  intros
  unfold State.recordUe
  repeat' (first
    | with_reducible assumption
    | with_reducible apply State.addSat_kept
    | with_reducible apply State.setFld_kept
    | with_reducible apply State.setFlag_kept
    | with_reducible apply State.setPair_kept
    | with_reducible apply State.raiseFault_kept
    | with_reducible apply kept_ite
    | split
    | dsimp only)

theorem State.recordCe_kept {cn : Prop} {ql : List Instr} {s : State} {medium : Nat} : State.Kept cn ql s → State.Kept cn ql (State.recordCe s medium) := by
  intros
  unfold State.recordCe
  repeat' (first
    | with_reducible assumption
    | with_reducible apply State.addSat_kept
    | dsimp only)

theorem State.readWord_kept {cn : Prop} {ql : List Instr} {s : State} {reader id : Nat} {o : MemObject} {w : Nat} {errors : SymbolErrors} {undecoded : Bool} : State.Kept cn ql s → State.Kept cn ql (Prod.snd (Prod.snd (State.readWord s reader id o w errors undecoded))) := by
  intros
  unfold State.readWord
  repeat' (first
    | with_reducible assumption
    | with_reducible apply State.recordUe_kept
    | with_reducible apply State.setMemBytes_kept
    | with_reducible apply State.recordCe_kept
    | with_reducible apply State.setMark_kept
    | with_reducible apply kept_ite
    | simp only [kept_mk_iff]
    | with_reducible rfl
    | (refine kept_snd (by with_reducible assumption) ?_)
    | split
    | dsimp only)

theorem State.readRange_kept {cn : Prop} {ql : List Instr} {s : State} {reader id off n : Nat} {errors : List (Nat × SymbolErrors)} {undecoded : List Nat} : State.Kept cn ql s → State.Kept cn ql (Prod.snd (Prod.snd (State.readRange s reader id off n errors undecoded))) := by
  intro h
  unfold State.readRange
  split
  · exact h
  · dsimp only
    refine kept_foldl_of (fun y : List Byte × List Nat × State => y.2.2) ?_ (fun y e h => State.readWord_kept h)
    split
    · exact h
    · exact State.addSat_kept h

theorem State.checkWords_kept {cn : Prop} {ql : List Instr} {s : State} {id off n reader : Nat} {errors : List (Nat × SymbolErrors)} : State.Kept cn ql s → State.Kept cn ql (Prod.snd (State.checkWords s id off n reader errors)) := by
  intros
  unfold State.checkWords
  repeat' (first
    | with_reducible assumption
    | with_reducible apply State.readRange_kept
    | dsimp only)

theorem State.noteRead_kept {cn : Prop} {ql : List Instr} {s : State} {reader id : Nat} : State.Kept cn ql s → State.Kept cn ql (State.noteRead s reader id) := by
  intros
  unfold State.noteRead
  repeat' (first
    | with_reducible assumption
    | with_reducible apply State.checkWords_kept
    | with_reducible apply kept_ite
    | simp only [kept_mk_iff]
    | with_reducible rfl
    | (refine kept_snd (by with_reducible assumption) ?_)
    | split
    | dsimp only)

theorem State.stageCandidate_kept {cn : Prop} {ql : List Instr} {s : State} : State.Kept cn ql s → State.Kept cn ql (State.stageCandidate s) := by
  intros
  unfold State.stageCandidate
  repeat' (first
    | with_reducible assumption
    | with_reducible apply State.writeStatic_kept
    | with_reducible apply State.noteRead_kept
    | simp only [kept_mk_iff]
    | with_reducible rfl
    | (refine kept_snd (by with_reducible assumption) ?_)
    | split
    | dsimp only)

set_option maxRecDepth 2000 in
theorem State.admitLoop_kept {cn : Prop} {ql : List Instr} {s : State} {record : List Byte} : State.Kept cn ql s → State.Kept cn ql (State.admitLoop s record) := by
  intros
  unfold State.admitLoop
  repeat' (first
    | intro _
    | with_reducible assumption
    | with_reducible apply State.setMap_kept
    | with_reducible apply State.takeBit_kept
    | with_reducible apply State.nearFp?_kept
    | (refine State.writeTile_kept (by with_reducible assumption) ?_)
    | with_reducible apply State.addSat_kept
    | with_reducible apply State.stageCandidate_kept
    | with_reducible apply kept_foldl
    | with_reducible apply kept_foldl_snd
    | with_reducible apply kept_ite
    | simp only [kept_mk_iff]
    | with_reducible rfl
    | (refine kept_snd (by with_reducible assumption) ?_)
    | split
    | dsimp only)

theorem State.takePin_kept {cn : Prop} {ql : List Instr} {s : State} {holder id : Nat} {t : State} : State.takePin s holder id = Option.some t → State.Kept cn ql s → State.Kept cn ql t := by
  intro he h
  unfold State.takePin at he
  try dsimp only at he
  repeat' (first
    | contradiction
    | (injection he with he; subst he)
    | split at he)
  all_goals
  repeat' (first
    | with_reducible assumption
    | with_reducible apply State.abandonMove_kept
    | with_reducible apply State.addPin_kept
    | with_reducible apply kept_ite
    | split
    | dsimp only)

theorem State.finish_kept {cn : Prop} {ql : List Instr} {s : State} {r : MoverRequest} {code : Nat} : State.Kept cn ql s → State.Kept cn ql (State.finish s r code) := by
  intros
  unfold State.finish
  repeat' (first
    | with_reducible assumption
    | with_reducible apply State.addSat_kept
    | with_reducible apply kept_ite
    | simp only [kept_mk_iff]
    | with_reducible rfl
    | split
    | dsimp only)

theorem State.queueMove_kept {cn : Prop} {ql : List Instr} {s : State} {r : MoverRequest} : State.Kept cn ql s → State.Kept cn ql (State.queueMove s r) := by
  intros
  unfold State.queueMove
  repeat' (first
    | with_reducible assumption
    | simp only [kept_mk_iff]
    | with_reducible rfl
    | dsimp only)

theorem State.dropPin_kept {cn : Prop} {ql : List Instr} {s : State} {holder id : Nat} : State.Kept cn ql s → State.Kept cn ql (State.dropPin s holder id) := by
  intros
  unfold State.dropPin
  repeat' (first
    | with_reducible assumption
    | with_reducible apply kept_ite
    | simp only [kept_mk_iff]
    | with_reducible rfl
    | split
    | dsimp only)

theorem State.startMove_kept {cn : Prop} {ql : List Instr} {s : State} {r : MoverRequest} {dest : Nat} : State.Kept cn ql s → State.Kept cn ql (State.startMove s r dest) := by
  intros
  unfold State.startMove
  repeat' (first
    | with_reducible assumption
    | with_reducible apply State.allocate_kept
    | (refine State.programRecord_kept (by with_reducible assumption) ?_)
    | with_reducible apply State.beginRecord_kept
    | with_reducible apply kept_ite
    | simp only [kept_mk_iff]
    | with_reducible rfl
    | (refine kept_snd (by with_reducible assumption) ?_)
    | split
    | dsimp only)

theorem State.consider_kept {cn : Prop} {ql : List Instr} {s : State} {r : MoverRequest} : State.Kept cn ql s → State.Kept cn ql (State.consider s r) := by
  intro h
  unfold State.consider
  split
  · repeat' (first
      | with_reducible exact h
      | with_reducible apply State.finish_kept
      | with_reducible apply kept_ite
      | with_reducible apply State.dropPin_kept
      | (refine State.takePin_kept (by with_reducible assumption) ?_)
      | split)
  · exact State.queueMove_kept h
  · next dest _ =>
    dsimp only
    have key : ∀ x : Option (MoverRequest × State), (∀ a t, x = some (a, t) → t.Kept cn ql) → (match x with
        | none => s.finish r moverPinFull
        | some (r, s) =>
          if s.channelBroken r.object dest then s.finish r moverMediaErr
          else if s.regionFull r.object dest then s.finish r moverNoSpace
          else if s.mayMove r dest then s.startMove r dest
          else s.queueMove r).Kept cn ql := by
      intro x hx
      split
      · exact State.finish_kept h
      · have h2 := hx _ _ rfl
        split
        · exact State.finish_kept h2
        · split
          · exact State.finish_kept h2
          · split
            · exact State.startMove_kept h2
            · exact State.queueMove_kept h2
    apply key
    intro a t e
    split at e
    · split at e
      · injection e with e; injection e with e1 e2; subst e2
        exact State.takePin_kept (by with_reducible assumption) h
      · contradiction
    · injection e with e; injection e with e1 e2; subst e2; exact h

theorem State.arrive_kept {cn : Prop} {ql : List Instr} {s : State} {r : MoverRequest} : State.Kept cn ql s → State.Kept cn ql (State.arrive s r) := by
  intros
  unfold State.arrive
  repeat' (first
    | with_reducible assumption
    | (refine State.takePin_kept (by with_reducible assumption) ?_)
    | with_reducible apply State.finish_kept
    | with_reducible apply State.queueMove_kept
    | with_reducible apply State.consider_kept
    | with_reducible apply kept_ite
    | simp only [kept_mk_iff]
    | with_reducible rfl
    | (refine kept_snd (by with_reducible assumption) ?_)
    | split
    | dsimp only)

theorem State.pinProgram_kept {cn : Prop} {ql : List Instr} {s : State} {p : Nat} : State.Kept cn ql s → State.Kept cn ql (State.pinProgram s p) := by
  intros
  unfold State.pinProgram
  repeat' (first
    | intro _
    | with_reducible assumption
    | with_reducible apply State.arrive_kept
    | with_reducible apply kept_foldl
    | with_reducible apply kept_foldl_snd
    | (refine kept_snd (by with_reducible assumption) ?_)
    | dsimp only)

theorem State.endReservation_kept {cn : Prop} {ql : List Instr} {s : State} {g n : Nat} : State.Kept cn ql s → State.Kept cn ql (State.endReservation s g n) := by
  intros
  unfold State.endReservation
  repeat' (first
    | with_reducible assumption
    | with_reducible apply kept_ite
    | simp only [kept_mk_iff]
    | with_reducible rfl
    | (refine kept_snd (by with_reducible assumption) ?_)
    | split
    | dsimp only)

theorem State.dispatchOne_kept {cn : Prop} {ql : List Instr} {s : State} {q : NeuralRequest} : State.Kept cn ql s → State.Kept cn ql (State.dispatchOne s q) := by
  intros
  unfold State.dispatchOne
  repeat' (first
    | with_reducible assumption
    | with_reducible apply State.endReservation_kept
    | simp only [kept_mk_iff]
    | with_reducible rfl
    | (refine kept_snd (by with_reducible assumption) ?_)
    | split
    | dsimp only)

theorem State.dispatch_kept {cn : Prop} {ql : List Instr} {s : State} : State.Kept cn ql s → State.Kept cn ql (State.dispatch s) := by
  intros
  unfold State.dispatch
  repeat' (first
    | intro _
    | with_reducible assumption
    | with_reducible apply State.dispatchOne_kept
    | with_reducible apply kept_foldl
    | with_reducible apply kept_foldl_snd
    | (refine kept_snd (by with_reducible assumption) ?_)
    | dsimp only)

theorem State.admitRequest_kept {cn : Prop} {ql : List Instr} {s : State} {g n p : Nat} {deadline : Stamp} : State.Kept cn ql s → State.Kept cn ql (State.admitRequest s g n p deadline) := by
  intros
  unfold State.admitRequest
  repeat' (first
    | with_reducible assumption
    | with_reducible apply State.pinProgram_kept
    | with_reducible apply State.dispatch_kept
    | simp only [kept_mk_iff]
    | with_reducible rfl
    | dsimp only)

theorem State.adoptPrior_kept {cn : Prop} {ql : List Instr} {s : State} {k : Nat} {c : Stamp} : State.Kept cn ql s → State.Kept cn ql (Prod.snd (State.adoptPrior s k c)) := by
  intros
  unfold State.adoptPrior
  repeat' (first
    | with_reducible assumption
    | with_reducible apply State.setClassA_kept
    | with_reducible apply kept_ite
    | simp only [kept_mk_iff]
    | with_reducible rfl
    | (refine kept_snd (by with_reducible assumption) ?_)
    | split
    | dsimp only)

theorem State.settle_kept {cn : Prop} {ql : List Instr} {s : State} {m : Nat} : State.Kept cn ql s → State.Kept cn ql (State.settle s m) := by
  intros
  unfold State.settle
  repeat' (first
    | intro _
    | with_reducible assumption
    | with_reducible apply State.acquireSlot_kept
    | with_reducible apply State.setMarker_kept
    | with_reducible apply kept_foldl
    | with_reducible apply kept_foldl_snd
    | simp only [kept_mk_iff]
    | with_reducible rfl
    | (refine kept_snd (by with_reducible assumption) ?_)
    | dsimp only)

theorem State.advanceOp_kept {cn : Prop} {ql : List Instr} {s : State} {m agent lines : Nat} {t : State} : State.advanceOp s m agent lines = Option.some t → State.Kept cn ql s → State.Kept cn ql t := by
  intro he h
  unfold State.advanceOp at he
  try dsimp only at he
  repeat' (first
    | contradiction
    | (injection he with he; subst he)
    | split at he)
  all_goals
  repeat' (first
    | with_reducible assumption
    | with_reducible apply State.settle_kept
    | with_reducible apply State.setMarker_kept
    | with_reducible apply kept_ite
    | simp only [kept_mk_iff]
    | with_reducible rfl
    | split
    | dsimp only)

theorem State.tickOn_kept {cn : Prop} {ql : List Instr} {s : State} {k : Nat} : State.Kept cn ql s → State.Kept cn ql (State.tickOn s k) := by
  intros
  unfold State.tickOn
  repeat' (first
    | with_reducible assumption
    | with_reducible apply kept_ite
    | simp only [kept_mk_iff]
    | with_reducible rfl
    | split
    | dsimp only)

theorem State.advanceTo_kept {cn : Prop} {ql : List Instr} {s : State} {t : Stamp} : State.Kept cn ql s → State.Kept cn ql (State.advanceTo s t) := by
  intros
  unfold State.advanceTo
  repeat' (first
    | with_reducible assumption
    | with_reducible apply State.tickOn_kept
    | dsimp only)

theorem State.setObjectTrack_kept {cn : Prop} {ql : List Instr} {s : State} {slot : Nat} {v : ObjectTrack} : State.Kept cn ql s → State.Kept cn ql (State.setObjectTrack s slot v) := by
  intros
  unfold State.setObjectTrack
  repeat' (first
    | with_reducible assumption
    | simp only [kept_mk_iff]
    | with_reducible rfl
    | dsimp only)

theorem State.setEstimate_kept {cn : Prop} {ql : List Instr} {s : State} {slot : Nat} {v : Option (List Fix × List (List Fix))} {tov : Int} : State.Kept cn ql s → State.Kept cn ql (State.setEstimate s slot v tov) := by
  intros
  unfold State.setEstimate
  repeat' (first
    | with_reducible assumption
    | with_reducible apply State.roundVec_kept
    | with_reducible apply State.roundEach_kept
    | with_reducible apply State.setObjectTrack_kept
    | simp only [kept_mk_iff]
    | with_reducible rfl
    | (refine kept_snd (by with_reducible assumption) ?_)
    | split
    | dsimp only)

theorem State.advanceTrack_kept {cn : Prop} {ql : List Instr} {s : State} {u : TrackUpdate} {slot : Nat} : State.Kept cn ql s → State.Kept cn ql (State.advanceTrack s u slot) := by
  intros
  unfold State.advanceTrack
  repeat' (first
    | with_reducible assumption
    | with_reducible apply State.setEstimate_kept
    | with_reducible apply kept_ite
    | split
    | dsimp only)

theorem State.advanceWindow_kept {cn : Prop} {ql : List Instr} {s : State} {a : Nat} : State.Kept cn ql s → State.Kept cn ql (State.advanceWindow s a) := by
  intros
  unfold State.advanceWindow
  repeat' (first
    | with_reducible assumption
    | with_reducible apply State.addWrap_kept
    | with_reducible apply kept_ite
    | split
    | dsimp only)

theorem State.analyseSlot_kept {cn : Prop} {ql : List Instr} {s : State} {c k : Nat} {d values : List Byte} {runtime : Bool} {refused : Structure → Bool} : State.Kept cn ql s → State.Kept cn ql (State.analyseSlot s c k d values runtime refused) := by
  intros
  unfold State.analyseSlot
  repeat' (first
    | with_reducible assumption
    | with_reducible apply State.setSolverSlot_kept
    | with_reducible apply kept_ite
    | simp only [kept_mk_iff]
    | with_reducible rfl
    | split
    | dsimp only)

theorem State.answerAccess_kept {cn : Prop} {ql : List Instr} {s : State} {a : HeldAccess} {r : Option (List Byte × List Nat)} : State.Kept cn ql s → State.Kept cn ql (State.answerAccess s a r) := by
  intros
  unfold State.answerAccess
  repeat' (first
    | with_reducible assumption
    | simp only [kept_mk_iff]
    | with_reducible rfl
    | dsimp only)

theorem State.answerBody_kept {cn : Prop} {ql : List Instr} {s : State} {b : CommandBody} {result detail : Nat} : State.Kept cn ql s → State.Kept cn ql (State.answerBody s b result detail) := by
  intros
  unfold State.answerBody
  repeat' (first
    | with_reducible assumption
    | with_reducible apply State.addStatus_kept
    | dsimp only)

theorem State.answerCcc_kept {cn : Prop} {ql : List Instr} {s : State} {b : List Byte} : State.Kept cn ql s → State.Kept cn ql (State.answerCcc s b) := by
  intros
  unfold State.answerCcc
  repeat' (first
    | with_reducible assumption
    | with_reducible apply kept_ite
    | simp only [kept_mk_iff]
    | with_reducible rfl
    | split
    | dsimp only)

theorem State.setLatch_kept {cn : Prop} {ql : List Instr} {s : State} {port a : Nat} {w : Option Word} : State.Kept cn ql s → State.Kept cn ql (State.setLatch s port a w) := by
  intros
  unfold State.setLatch
  repeat' (first
    | with_reducible assumption
    | simp only [kept_mk_iff]
    | with_reducible rfl
    | dsimp only)

theorem State.armLatches_kept {cn : Prop} {ql : List Instr} {s : State} {port a : Nat} : State.Kept cn ql s → State.Kept cn ql (State.armLatches s port a) := by
  intros
  unfold State.armLatches
  repeat' (first
    | intro _
    | with_reducible assumption
    | with_reducible apply State.setLatch_kept
    | with_reducible apply kept_foldl
    | with_reducible apply kept_foldl_snd
    | with_reducible apply kept_ite
    | (refine kept_snd (by with_reducible assumption) ?_)
    | split
    | dsimp only)

theorem State.readReg_kept {cn : Prop} {ql : List Instr} {s : State} {port a : Nat} : State.Kept cn ql s → State.Kept cn ql (Prod.snd (State.readReg s port a)) := by
  intros
  unfold State.readReg
  repeat' (first
    | with_reducible assumption
    | with_reducible apply State.setLatch_kept
    | with_reducible apply State.advanceWindow_kept
    | with_reducible apply State.armLatches_kept
    | simp only [kept_mk_iff]
    | with_reducible rfl
    | (refine kept_snd (by with_reducible assumption) ?_)
    | split
    | dsimp only)

theorem State.answerWord_kept {cn : Prop} {ql : List Instr} {s : State} {w : Word} : State.Kept cn ql s → State.Kept cn ql (State.answerWord s w) := by
  intros
  unfold State.answerWord
  repeat' (first
    | with_reducible assumption
    | simp only [kept_mk_iff]
    | with_reducible rfl
    | dsimp only)

theorem State.answerRead_kept {cn : Prop} {ql : List Instr} {s : State} {port a : Nat} : State.Kept cn ql s → State.Kept cn ql (State.answerRead s port a) := by
  intros
  unfold State.answerRead
  repeat' (first
    | with_reducible assumption
    | with_reducible apply State.readReg_kept
    | with_reducible apply State.answerWord_kept
    | with_reducible apply kept_ite
    | simp only [kept_mk_iff]
    | with_reducible rfl
    | (refine kept_snd (by with_reducible assumption) ?_)
    | split
    | dsimp only)

theorem State.checkpoint_kept {cn : Prop} {ql : List Instr} {s : State} {c : Nat} : State.Kept cn ql s → State.Kept cn ql (State.checkpoint s c) := by
  intros
  unfold State.checkpoint
  repeat' (first
    | with_reducible assumption
    | with_reducible apply kept_ite
    | simp only [kept_mk_iff]
    | with_reducible rfl
    | split
    | dsimp only)

theorem State.appendJournal_kept {cn : Prop} {ql : List Instr} {s : State} {id : Nat} {r : TileRecord} {freed : Bool} : State.Kept cn ql s → State.Kept cn ql (State.appendJournal s id r freed) := by
  intros
  unfold State.appendJournal
  repeat' (first
    | with_reducible assumption
    | with_reducible apply State.checkpoint_kept
    | with_reducible apply kept_ite
    | simp only [kept_mk_iff]
    | with_reducible rfl
    | split
    | dsimp only)

theorem State.noteFloor_kept {cn : Prop} {ql : List Instr} {s : State} {floor : Bool} : State.Kept cn ql s → State.Kept cn ql (State.noteFloor s floor) := by
  intros
  unfold State.noteFloor
  repeat' (first
    | with_reducible assumption
    | with_reducible apply State.setFlag_kept
    | with_reducible apply State.raiseFault_kept
    | with_reducible apply State.addSat_kept
    | with_reducible apply kept_ite
    | simp only [kept_mk_iff]
    | with_reducible rfl
    | split
    | dsimp only)

theorem State.serveWaiting_kept {cn : Prop} {ql : List Instr} {s : State} : State.Kept cn ql s → State.Kept cn ql (State.serveWaiting s) := by
  intros
  unfold State.serveWaiting
  repeat' (first
    | intro _
    | with_reducible assumption
    | with_reducible apply State.queueMove_kept
    | with_reducible apply State.consider_kept
    | with_reducible apply kept_foldl
    | with_reducible apply kept_foldl_snd
    | with_reducible apply kept_ite
    | simp only [kept_mk_iff]
    | with_reducible rfl
    | (refine kept_snd (by with_reducible assumption) ?_)
    | split
    | dsimp only)

theorem State.takeJob_kept {cn : Prop} {ql : List Instr} {s : State} : State.Kept cn ql s → State.Kept cn ql (State.takeJob s) := by
  intros
  unfold State.takeJob
  repeat' (first
    | with_reducible assumption
    | with_reducible apply kept_ite
    | simp only [kept_mk_iff]
    | with_reducible rfl
    | (refine kept_snd (by with_reducible assumption) ?_)
    | split
    | dsimp only)

theorem State.takeSteps_kept {cn : Prop} {ql : List Instr} {s : State} : State.Kept cn ql s → State.Kept cn ql (State.takeSteps s) := by
  intros
  unfold State.takeSteps
  repeat' (first
    | intro _
    | with_reducible assumption
    | with_reducible apply kept_foldl
    | with_reducible apply kept_foldl_snd
    | simp only [kept_mk_iff]
    | with_reducible rfl
    | (refine kept_snd (by with_reducible assumption) ?_)
    | dsimp only)

theorem State.applyDecision_kept {cn : Prop} {ql : List Instr} {s : State} {d : Decision} : State.Kept cn ql s → State.Kept cn ql (State.applyDecision s d) := by
  intros
  unfold State.applyDecision
  repeat' (first
    | with_reducible assumption
    | with_reducible apply State.noteFloor_kept
    | with_reducible apply State.addSat_kept
    | with_reducible apply State.setFlag_kept
    | with_reducible apply State.setFld_kept
    | with_reducible apply State.serveWaiting_kept
    | with_reducible apply State.takeJob_kept
    | with_reducible apply State.takeSteps_kept
    | with_reducible apply kept_ite
    | simp only [kept_mk_iff]
    | with_reducible rfl
    | split
    | dsimp only)

theorem State.applyStaged_kept {cn : Prop} {ql : List Instr} {s : State} : State.Kept cn ql s → State.Kept cn ql (State.applyStaged s) := by
  intros
  unfold State.applyStaged
  repeat' (first
    | intro _
    | with_reducible assumption
    | with_reducible apply State.setReg_kept
    | with_reducible apply kept_foldl
    | with_reducible apply kept_foldl_snd
    | (refine kept_snd (by with_reducible assumption) ?_)
    | dsimp only)

theorem State.setTiming_kept {cn : Prop} {ql : List Instr} {s : State} {p c l : Nat} : State.Kept cn ql s → State.Kept cn ql (State.setTiming s p c l) := by
  intros
  unfold State.setTiming
  repeat' (first
    | with_reducible assumption
    | simp only [kept_mk_iff]
    | with_reducible rfl
    | dsimp only)

theorem State.paramReject_kept {cn : Prop} {ql : List Instr} {s : State} : State.Kept cn ql s → State.Kept cn ql (State.paramReject s) := by
  intros
  unfold State.paramReject
  repeat' (first
    | with_reducible assumption
    | with_reducible apply State.raiseIbi_kept
    | with_reducible apply State.setFlag_kept
    | dsimp only)

theorem State.rejectTiming_kept {cn : Prop} {ql : List Instr} {s : State} : State.Kept cn ql s → State.Kept cn ql (State.rejectTiming s) := by
  intros
  unfold State.rejectTiming
  repeat' (first
    | with_reducible assumption
    | with_reducible apply State.setFld_kept
    | with_reducible apply State.paramReject_kept
    | dsimp only)

theorem State.applyTiming_kept {cn : Prop} {ql : List Instr} {s : State} {b : Stamp} : State.Kept cn ql s → State.Kept cn ql (State.applyTiming s b) := by
  intros
  unfold State.applyTiming
  repeat' (first
    | with_reducible assumption
    | with_reducible apply State.setTiming_kept
    | with_reducible apply State.rejectTiming_kept
    | with_reducible apply kept_ite
    | (refine kept_snd (by with_reducible assumption) ?_)
    | split
    | dsimp only)

theorem State.applyWrite_kept {cn : Prop} {ql : List Instr} {s : State} {a : Nat} {mask data : Word} : State.Kept cn ql s → State.Kept cn ql (State.applyWrite s a mask data) := by
  intros
  unfold State.applyWrite
  repeat' (first
    | with_reducible assumption
    | with_reducible apply State.setReg_kept
    | dsimp only)

theorem State.unstageTout_kept {cn : Prop} {ql : List Instr} {s : State} {n : Nat} : State.Kept cn ql s → State.Kept cn ql (State.unstageTout s n) := by
  intros
  unfold State.unstageTout
  repeat' (first
    | intro _
    | with_reducible assumption
    | with_reducible apply State.setReg_kept
    | with_reducible apply kept_foldl
    | with_reducible apply kept_foldl_snd
    | simp only [kept_mk_iff]
    | with_reducible rfl
    | (refine kept_snd (by with_reducible assumption) ?_)
    | split
    | dsimp only)

theorem State.setTout_kept {cn : Prop} {ql : List Instr} {s : State} {n : Nat} {o : Tout} : State.Kept cn ql s → State.Kept cn ql (State.setTout s n o) := by
  intros
  unfold State.setTout
  repeat' (first
    | with_reducible assumption
    | with_reducible apply State.setFlag_kept
    | simp only [kept_mk_iff]
    | with_reducible rfl
    | dsimp only)

theorem State.startTout_kept {cn : Prop} {ql : List Instr} {s : State} {n : Nat} : State.Kept cn ql s → State.Kept cn ql (State.startTout s n) := by
  intros
  unfold State.startTout
  repeat' (first
    | with_reducible assumption
    | with_reducible apply State.setTout_kept
    | with_reducible apply State.setFlag_kept
    | with_reducible apply kept_ite
    | simp only [kept_mk_iff]
    | with_reducible rfl
    | split
    | dsimp only)

theorem State.applyTout_kept {cn : Prop} {ql : List Instr} {s : State} {n : Nat} {mask data : Word} : State.Kept cn ql s → State.Kept cn ql (State.applyTout s n mask data) := by
  intros
  unfold State.applyTout
  repeat' (first
    | with_reducible assumption
    | with_reducible apply State.applyWrite_kept
    | with_reducible apply State.unstageTout_kept
    | with_reducible apply State.setFlag_kept
    | with_reducible apply State.startTout_kept
    | with_reducible apply kept_ite
    | simp only [kept_mk_iff]
    | with_reducible rfl
    | split
    | dsimp only)

theorem State.arenaErrors_kept {cn : Prop} {ql : List Instr} {s : State} {q : NeuralRun} {errors : List (Nat × SymbolErrors)} : State.Kept cn ql s → State.Kept cn ql (Prod.snd (State.arenaErrors s q errors)) := by
  intros
  unfold State.arenaErrors
  repeat' (first
    | intro _
    | with_reducible assumption
    | with_reducible apply State.recordCe_kept
    | with_reducible apply State.recordUe_kept
    | with_reducible apply State.checkWords_kept
    | with_reducible apply kept_foldl
    | with_reducible apply kept_foldl_snd
    | with_reducible apply kept_ite
    | simp only [kept_mk_iff]
    | with_reducible rfl
    | (refine kept_snd (by with_reducible assumption) ?_)
    | split
    | dsimp only)

theorem State.armSnapshot_kept {cn : Prop} {ql : List Instr} {s : State} : State.Kept cn ql s → State.Kept cn ql (State.armSnapshot s) := by
  intro h
  unfold State.armSnapshot
  split
  · exact kept_mk (State.setFlag_kept h) rfl rfl rfl rfl rfl rfl rfl rfl
  · exact State.setFlag_kept h

theorem State.askLines_kept {cn : Prop} {ql : List Instr} {s : State} {g n i lines : Nat} : State.Kept cn ql s → State.Kept cn ql (State.askLines s g n i lines) := by
  intros
  unfold State.askLines
  repeat' (first
    | intro _
    | with_reducible assumption
    | with_reducible apply State.updNode_kept
    | with_reducible apply State.orProto_kept
    | (refine State.acquireOp_kept (by with_reducible assumption) ?_)
    | with_reducible apply kept_foldl
    | with_reducible apply kept_foldl_snd
    | with_reducible apply kept_ite
    | simp only [kept_mk_iff]
    | with_reducible rfl
    | (refine kept_snd (by with_reducible assumption) ?_)
    | split
    | dsimp only)

theorem State.askBand_kept {cn : Prop} {ql : List Instr} {s : State} {g n : Nat} : State.Kept cn ql s → State.Kept cn ql (State.askBand s g n) := by
  intros
  unfold State.askBand
  repeat' (first
    | with_reducible assumption
    | with_reducible apply State.askLines_kept
    | simp only [kept_mk_iff]
    | with_reducible rfl
    | (refine kept_snd (by with_reducible assumption) ?_)
    | split
    | dsimp only)

theorem State.askPass_kept {cn : Prop} {ql : List Instr} {s : State} {g n : Nat} : State.Kept cn ql s → State.Kept cn ql (State.askPass s g n) := by
  intros
  unfold State.askPass
  repeat' (first
    | intro _
    | with_reducible assumption
    | with_reducible apply State.askLines_kept
    | with_reducible apply kept_foldl
    | with_reducible apply kept_foldl_snd
    | simp only [kept_mk_iff]
    | with_reducible rfl
    | (refine kept_snd (by with_reducible assumption) ?_)
    | split
    | dsimp only)

theorem State.askFirst_kept {cn : Prop} {ql : List Instr} {s : State} {g n : Nat} : State.Kept cn ql s → State.Kept cn ql (State.askFirst s g n) := by
  intros
  unfold State.askFirst
  repeat' (first
    | with_reducible assumption
    | with_reducible apply State.askPass_kept
    | with_reducible apply State.askBand_kept
    | with_reducible apply kept_ite
    | split
    | dsimp only)

theorem State.setPhase_kept {cn : Prop} {ql : List Instr} {s : State} {p : Nat} : State.Kept cn ql s → State.Kept cn ql (State.setPhase s p) := by
  intros
  unfold State.setPhase
  repeat' (first
    | with_reducible assumption
    | with_reducible apply State.setFld_kept
    | simp only [kept_mk_iff]
    | with_reducible rfl
    | dsimp only)

theorem State.endJob_kept {cn : Prop} {ql : List Instr} {s : State} {j : VerifierJob} {record : List Byte} : State.Kept cn ql s → State.Kept cn ql (State.endJob s j record) := by
  intros
  unfold State.endJob
  repeat' (first
    | with_reducible assumption
    | with_reducible apply State.addSat_kept
    | with_reducible apply State.takeJob_kept
    | with_reducible apply kept_ite
    | simp only [kept_mk_iff]
    | with_reducible rfl
    | split
    | dsimp only)

theorem State.endVerifying_kept {cn : Prop} {ql : List Instr} {s : State} {j : VerifierJob} : State.Kept cn ql s → State.Kept cn ql (State.endVerifying s j) := by
  intros
  unfold State.endVerifying
  repeat' (first
    | with_reducible assumption
    | with_reducible apply State.endJob_kept
    | with_reducible apply State.admitLoop_kept
    | with_reducible apply kept_ite
    | split
    | dsimp only)

theorem State.endOther_kept {cn : Prop} {ql : List Instr} {s : State} : State.Kept cn ql s → State.Kept cn ql (State.endOther s) := by
  intros
  unfold State.endOther
  repeat' (first
    | with_reducible assumption
    | with_reducible apply State.setProblem_kept
    | with_reducible apply State.stopProblem_kept
    | with_reducible apply kept_ite
    | simp only [kept_mk_iff]
    | with_reducible rfl
    | (refine kept_snd (by with_reducible assumption) ?_)
    | split
    | dsimp only)

theorem State.dropClassC_kept {cn : Prop} {ql : List Instr} {s : State} : State.Kept cn ql s → State.Kept cn ql (State.dropClassC s) := by
  intros
  unfold State.dropClassC
  repeat' (first
    | with_reducible assumption
    | with_reducible apply State.endVerifying_kept
    | with_reducible apply State.abandonMove_kept
    | with_reducible apply State.endOther_kept
    | simp only [kept_mk_iff]
    | with_reducible rfl
    | (refine kept_snd (by with_reducible assumption) ?_)
    | split
    | dsimp only)

theorem State.unpinProgram_kept {cn : Prop} {ql : List Instr} {s : State} {p : Nat} : State.Kept cn ql s → State.Kept cn ql (State.unpinProgram s p) := by
  intros
  unfold State.unpinProgram
  repeat' (first
    | intro _
    | with_reducible assumption
    | with_reducible apply State.dropPin_kept
    | with_reducible apply kept_foldl
    | with_reducible apply kept_foldl_snd
    | with_reducible apply kept_ite
    | simp only [kept_mk_iff]
    | with_reducible rfl
    | (refine kept_snd (by with_reducible assumption) ?_)
    | split
    | dsimp only)

theorem State.discardArena_kept {cn : Prop} {ql : List Instr} {s : State} {r : NeuralRun} : State.Kept cn ql s → State.Kept cn ql (State.discardArena s r) := by
  intros
  unfold State.discardArena
  repeat' (first
    | with_reducible assumption
    | simp only [kept_mk_iff]
    | with_reducible rfl
    | dsimp only)

theorem State.countService_kept {cn : Prop} {ql : List Instr} {s : State} {r : NeuralRun} : State.Kept cn ql s → State.Kept cn ql (State.countService s r) := by
  intros
  unfold State.countService
  repeat' (first
    | intro _
    | with_reducible assumption
    | with_reducible apply State.addBusy_kept
    | with_reducible apply kept_foldl
    | with_reducible apply kept_foldl_snd
    | with_reducible apply kept_ite
    | (refine kept_snd (by with_reducible assumption) ?_)
    | split
    | dsimp only)

theorem State.removeRequest_kept {cn : Prop} {ql : List Instr} {s : State} {g n : Nat} : State.Kept cn ql s → State.Kept cn ql (Prod.snd (State.removeRequest s g n)) := by
  intros
  unfold State.removeRequest
  repeat' (first
    | intro _
    | with_reducible assumption
    | with_reducible apply State.unpinProgram_kept
    | with_reducible apply State.discardArena_kept
    | with_reducible apply State.countService_kept
    | with_reducible apply State.endReservation_kept
    | with_reducible apply kept_foldl
    | with_reducible apply kept_foldl_snd
    | simp only [kept_mk_iff]
    | with_reducible rfl
    | (refine kept_snd (by with_reducible assumption) ?_)
    | dsimp only)

theorem State.dropRequests_kept {cn : Prop} {ql : List Instr} {s : State} {g : Nat} : State.Kept cn ql s → State.Kept cn ql (State.dropRequests s g) := by
  intros
  unfold State.dropRequests
  repeat' (first
    | intro _
    | with_reducible assumption
    | with_reducible apply State.removeRequest_kept
    | with_reducible apply State.addSat_kept
    | with_reducible apply State.dispatch_kept
    | with_reducible apply kept_foldl
    | with_reducible apply kept_foldl_snd
    | with_reducible apply kept_ite
    | simp only [kept_mk_iff]
    | with_reducible rfl
    | (refine kept_snd (by with_reducible assumption) ?_)
    | split
    | dsimp only)

theorem State.dropAgent_kept {cn : Prop} {ql : List Instr} {s : State} {m agent : Nat} {holds : Bool} : State.Kept cn ql s → State.Kept cn ql (State.dropAgent s m agent holds) := by
  intros
  unfold State.dropAgent
  repeat' (first
    | with_reducible assumption
    | with_reducible apply State.setMarker_kept
    | with_reducible apply kept_ite
    | simp only [kept_mk_iff]
    | with_reducible rfl
    | (refine kept_snd (by with_reducible assumption) ?_)
    | split
    | dsimp only)

theorem State.releaseInputs_kept {cn : Prop} {ql : List Instr} {s : State} {g n : Nat} {r : NodeRun} {holds : Bool} : State.Kept cn ql s → State.Kept cn ql (State.releaseInputs s g n r holds) := by
  intros
  unfold State.releaseInputs
  repeat' (first
    | intro _
    | with_reducible assumption
    | with_reducible apply State.dropAgent_kept
    | with_reducible apply kept_foldl
    | with_reducible apply kept_foldl_snd
    | with_reducible apply kept_ite
    | simp only [kept_mk_iff]
    | with_reducible rfl
    | (refine kept_snd (by with_reducible assumption) ?_)
    | split
    | dsimp only)

theorem State.endSgm_kept {cn : Prop} {ql : List Instr} {s : State} {e code : Nat} : State.Kept cn ql s → State.Kept cn ql (State.endSgm s e code) := by
  intros
  unfold State.endSgm
  repeat' (first
    | with_reducible assumption
    | with_reducible apply State.setFld_kept
    | with_reducible apply State.addWrap_kept
    | with_reducible apply kept_ite
    | simp only [kept_mk_iff]
    | with_reducible rfl
    | split
    | dsimp only)

theorem State.closeNode_kept {cn : Prop} {ql : List Instr} {s : State} {g n code : Nat} : State.Kept cn ql s → State.Kept cn ql (State.closeNode s g n code) := by
  intros
  unfold State.closeNode
  repeat' (first
    | with_reducible assumption
    | with_reducible apply State.releaseInputs_kept
    | with_reducible apply State.abandonOutputs_kept
    | with_reducible apply State.endSgm_kept
    | with_reducible apply State.updNode_kept
    | with_reducible apply kept_ite
    | simp only [kept_mk_iff]
    | with_reducible rfl
    | (refine kept_snd (by with_reducible assumption) ?_)
    | split
    | dsimp only)

theorem State.dropActivation_kept {cn : Prop} {ql : List Instr} {s : State} {g : Nat} : State.Kept cn ql s → State.Kept cn ql (State.dropActivation s g) := by
  intros
  unfold State.dropActivation
  repeat' (first
    | intro _
    | with_reducible assumption
    | with_reducible apply State.dropRequests_kept
    | with_reducible apply State.closeNode_kept
    | with_reducible apply State.addSat_kept
    | with_reducible apply State.setFlag_kept
    | with_reducible apply State.setGraph_kept
    | with_reducible apply kept_foldl
    | with_reducible apply kept_foldl_snd
    | with_reducible apply kept_ite
    | simp only [kept_mk_iff]
    | with_reducible rfl
    | (refine kept_snd (by with_reducible assumption) ?_)
    | split
    | dsimp only)

theorem State.lateUpdate_kept {cn : Prop} {ql : List Instr} {s : State} {object : Bool} : State.Kept cn ql s → State.Kept cn ql (State.lateUpdate s object) := by
  intros
  unfold State.lateUpdate
  repeat' (first
    | with_reducible assumption
    | with_reducible apply State.addSat_kept
    | with_reducible apply kept_ite
    | split
    | dsimp only)

theorem State.setUpdates_kept {cn : Prop} {ql : List Instr} {s : State} {l : List TrackUpdate} : State.Kept cn ql s → State.Kept cn ql (State.setUpdates s l) := by
  intros
  unfold State.setUpdates
  repeat' (first
    | with_reducible assumption
    | simp only [kept_mk_iff]
    | with_reducible rfl
    | dsimp only)

theorem State.closeUpdate_kept {cn : Prop} {ql : List Instr} {s : State} {u : TrackUpdate} {drop : Bool} : State.Kept cn ql s → State.Kept cn ql (State.closeUpdate s u drop) := by
  intros
  unfold State.closeUpdate
  repeat' (first
    | intro _
    | with_reducible assumption
    | with_reducible apply State.setUpdates_kept
    | with_reducible apply State.dropAgent_kept
    | with_reducible apply State.orProto_kept
    | (refine State.abandonOp_kept (by with_reducible assumption) ?_)
    | with_reducible apply kept_foldl
    | with_reducible apply kept_foldl_snd
    | with_reducible apply kept_ite
    | simp only [kept_mk_iff]
    | with_reducible rfl
    | (refine kept_snd (by with_reducible assumption) ?_)
    | split
    | dsimp only)

theorem State.fixTrigger_kept {cn : Prop} {ql : List Instr} {s : State} {m g : Nat} : State.Kept cn ql s → State.Kept cn ql (State.fixTrigger s m g) := by
  intros
  unfold State.fixTrigger
  repeat' (first
    | with_reducible assumption
    | with_reducible apply State.updAct_kept
    | with_reducible apply kept_ite
    | simp only [kept_mk_iff]
    | with_reducible rfl
    | (refine kept_snd (by with_reducible assumption) ?_)
    | split
    | dsimp only)

theorem State.fixAwaiting_kept {cn : Prop} {ql : List Instr} {s : State} {m g n i : Nat} : State.Kept cn ql s → State.Kept cn ql (State.fixAwaiting s m g n i) := by
  intros
  unfold State.fixAwaiting
  repeat' (first
    | with_reducible assumption
    | with_reducible apply State.updNode_kept
    | (refine State.acquireOp_kept (by with_reducible assumption) ?_)
    | with_reducible apply State.stitchProto_kept
    | with_reducible apply kept_ite
    | simp only [kept_mk_iff]
    | with_reducible rfl
    | (refine kept_snd (by with_reducible assumption) ?_)
    | split
    | dsimp only)

theorem State.fixAwaitings_kept {cn : Prop} {ql : List Instr} {s : State} {m : Nat} : State.Kept cn ql s → State.Kept cn ql (State.fixAwaitings s m) := by
  intros
  unfold State.fixAwaitings
  repeat' (first
    | intro _
    | with_reducible assumption
    | with_reducible apply State.fixTrigger_kept
    | with_reducible apply State.fixAwaiting_kept
    | with_reducible apply kept_foldl
    | with_reducible apply kept_foldl_snd
    | (refine kept_snd (by with_reducible assumption) ?_)
    | dsimp only)

theorem State.claimOp_kept {cn : Prop} {ql : List Instr} {s : State} {m agent : Nat} {t : State} : State.claimOp s m agent = Option.some t → State.Kept cn ql s → State.Kept cn ql t := by
  intro he h
  unfold State.claimOp at he
  try dsimp only at he
  repeat' (first
    | contradiction
    | (injection he with he; subst he)
    | split at he)
  all_goals
  repeat' (first
    | with_reducible assumption
    | with_reducible apply State.setMarker_kept
    | with_reducible apply State.fixAwaitings_kept
    | with_reducible apply State.settle_kept
    | with_reducible apply kept_ite
    | simp only [kept_mk_iff]
    | with_reducible rfl
    | split
    | dsimp only)

theorem State.claimPoints_kept {cn : Prop} {ql : List Instr} {s : State} {agent b : Nat} : State.Kept cn ql s → State.Kept cn ql (Prod.snd (State.claimPoints s agent b)) := by
  intros
  unfold State.claimPoints
  repeat' (first
    | intro _
    | with_reducible assumption
    | (refine State.claimOp_kept (by with_reducible assumption) ?_)
    | with_reducible apply State.stitchProto_kept
    | with_reducible apply kept_foldl
    | with_reducible apply kept_foldl_snd
    | with_reducible apply kept_ite
    | simp only [kept_mk_iff]
    | with_reducible rfl
    | (refine kept_snd (by with_reducible assumption) ?_)
    | split
    | dsimp only)

theorem State.changeUpdate_kept {cn : Prop} {ql : List Instr} {s : State} {u : TrackUpdate} {f : TrackUpdate → TrackUpdate} : State.Kept cn ql s → State.Kept cn ql (State.changeUpdate s u f) := by
  intros
  unfold State.changeUpdate
  repeat' (first
    | with_reducible assumption
    | with_reducible apply State.setUpdates_kept
    | with_reducible apply kept_ite
    | split
    | dsimp only)

theorem State.startUpdate_kept {cn : Prop} {ql : List Instr} {s : State} {object : Bool} {i : Nat} : State.Kept cn ql s → State.Kept cn ql (State.startUpdate s object i) := by
  intros
  unfold State.startUpdate
  repeat' (first
    | with_reducible assumption
    | with_reducible apply State.lateUpdate_kept
    | with_reducible apply State.closeUpdate_kept
    | with_reducible apply State.claimPoints_kept
    | with_reducible apply State.changeUpdate_kept
    | with_reducible apply kept_ite
    | simp only [kept_mk_iff]
    | with_reducible rfl
    | (refine kept_snd (by with_reducible assumption) ?_)
    | split
    | dsimp only)

theorem State.startNext_kept {cn : Prop} {ql : List Instr} {s : State} {object : Bool} {i : Nat} : State.Kept cn ql s → State.Kept cn ql (State.startNext s object i) := by
  intros
  unfold State.startNext
  repeat' (first
    | intro _
    | with_reducible assumption
    | with_reducible apply State.startUpdate_kept
    | with_reducible apply kept_foldl
    | with_reducible apply kept_foldl_snd
    | (refine kept_snd (by with_reducible assumption) ?_)
    | dsimp only)

theorem State.dropUpdate_kept {cn : Prop} {ql : List Instr} {s : State} {u : TrackUpdate} : State.Kept cn ql s → State.Kept cn ql (State.dropUpdate s u) := by
  intros
  unfold State.dropUpdate
  repeat' (first
    | with_reducible assumption
    | with_reducible apply State.addSat_kept
    | with_reducible apply State.closeUpdate_kept
    | with_reducible apply kept_ite
    | split
    | dsimp only)

theorem State.dropUpdates_kept {cn : Prop} {ql : List Instr} {s : State} {p : TrackUpdate → Bool} : State.Kept cn ql s → State.Kept cn ql (State.dropUpdates s p) := by
  intros
  unfold State.dropUpdates
  repeat' (first
    | intro _
    | with_reducible assumption
    | with_reducible apply State.startNext_kept
    | with_reducible apply State.dropUpdate_kept
    | with_reducible apply kept_foldl
    | with_reducible apply kept_foldl_snd
    | (refine kept_snd (by with_reducible assumption) ?_)
    | dsimp only)

theorem State.setTx_kept {cn : Prop} {ql : List Instr} {s : State} {t : Nat} {v : TxStream} : State.Kept cn ql s → State.Kept cn ql (State.setTx s t v) := by
  intros
  unfold State.setTx
  repeat' (first
    | with_reducible assumption
    | simp only [kept_mk_iff]
    | with_reducible rfl
    | dsimp only)

theorem State.releaseOp_kept {cn : Prop} {ql : List Instr} {s : State} {m agent : Nat} {t : State} : State.releaseOp s m agent = Option.some t → State.Kept cn ql s → State.Kept cn ql t := by
  intro he h
  unfold State.releaseOp at he
  try dsimp only at he
  repeat' (first
    | contradiction
    | (injection he with he; subst he)
    | split at he)
  all_goals
  repeat' (first
    | with_reducible assumption
    | with_reducible apply State.setMarker_kept
    | with_reducible apply kept_ite
    | simp only [kept_mk_iff]
    | with_reducible rfl
    | (refine kept_snd (by with_reducible assumption) ?_)
    | split
    | dsimp only)

theorem State.releaseHolds_kept {cn : Prop} {ql : List Instr} {s : State} {t : Nat} {p : TxPayload} : State.Kept cn ql s → State.Kept cn ql (State.releaseHolds s t p) := by
  intros
  unfold State.releaseHolds
  repeat' (first
    | intro _
    | with_reducible assumption
    | (refine State.releaseOp_kept (by with_reducible assumption) ?_)
    | with_reducible apply kept_foldl
    | with_reducible apply kept_foldl_snd
    | with_reducible apply kept_ite
    | simp only [kept_mk_iff]
    | with_reducible rfl
    | (refine kept_snd (by with_reducible assumption) ?_)
    | split
    | dsimp only)

theorem State.endPayload_kept {cn : Prop} {ql : List Instr} {s : State} {t : Nat} : State.Kept cn ql s → State.Kept cn ql (State.endPayload s t) := by
  intros
  unfold State.endPayload
  repeat' (first
    | with_reducible assumption
    | with_reducible apply State.setTx_kept
    | with_reducible apply State.releaseHolds_kept
    | simp only [kept_mk_iff]
    | with_reducible rfl
    | (refine kept_snd (by with_reducible assumption) ?_)
    | split
    | dsimp only)

theorem State.setTxPort_kept {cn : Prop} {ql : List Instr} {s : State} {n : Nat} {v : TxPort} : State.Kept cn ql s → State.Kept cn ql (State.setTxPort s n v) := by
  intros
  unfold State.setTxPort
  repeat' (first
    | with_reducible assumption
    | simp only [kept_mk_iff]
    | with_reducible rfl
    | dsimp only)

theorem State.cutPayload_kept {cn : Prop} {ql : List Instr} {s : State} {t : Nat} {p : TxPayload} : State.Kept cn ql s → State.Kept cn ql (State.cutPayload s t p) := by
  intros
  unfold State.cutPayload
  repeat' (first
    | with_reducible assumption
    | with_reducible apply State.addSat_kept
    | with_reducible apply State.setTx_kept
    | with_reducible apply State.endPayload_kept
    | with_reducible apply State.addWrap_kept
    | with_reducible apply State.setTxPort_kept
    | with_reducible apply kept_ite
    | simp only [kept_mk_iff]
    | with_reducible rfl
    | split
    | dsimp only)

theorem State.dropClassB_kept {cn : Prop} {ql : List Instr} {s : State} : State.Kept cn ql s → State.Kept cn ql (State.dropClassB s) := by
  intros
  unfold State.dropClassB
  repeat' (first
    | intro _
    | with_reducible assumption
    | with_reducible apply State.dropActivation_kept
    | with_reducible apply State.dropUpdates_kept
    | with_reducible apply State.cutPayload_kept
    | with_reducible apply kept_foldl
    | with_reducible apply kept_foldl_snd
    | simp only [kept_mk_iff]
    | with_reducible rfl
    | (refine kept_snd (by with_reducible assumption) ?_)
    | split
    | dsimp only)

theorem State.dropForBind_kept {cn : Prop} {ql : List Instr} {s : State} : State.Kept cn ql s → State.Kept cn ql (State.dropForBind s) := by
  intros
  unfold State.dropForBind
  repeat' (first
    | with_reducible assumption
    | with_reducible apply State.abandonSearch_kept
    | with_reducible apply State.dropClassC_kept
    | with_reducible apply State.dropClassB_kept
    | with_reducible apply State.setFlag_kept
    | simp only [kept_mk_iff]
    | with_reducible rfl
    | dsimp only)

theorem State.beginBindOff_kept {cn : Prop} {ql : List Instr} {s : State} {hibernate : Bool} : State.Kept cn ql s → State.Kept cn ql (State.beginBindOff s hibernate) := by
  intros
  unfold State.beginBindOff
  repeat' (first
    | with_reducible assumption
    | with_reducible apply State.setPhase_kept
    | with_reducible apply State.dropForBind_kept
    | with_reducible apply State.setFlag_kept
    | with_reducible apply kept_ite
    | simp only [kept_mk_iff]
    | with_reducible rfl
    | split
    | dsimp only)

theorem State.setPower_kept {cn : Prop} {ql : List Instr} {s : State} {p : Power} : State.Kept cn ql s → State.Kept cn ql (State.setPower s p) := by
  intros
  unfold State.setPower
  repeat' (first
    | with_reducible assumption
    | simp only [kept_mk_iff]
    | with_reducible rfl
    | dsimp only)

theorem State.latchWake_kept {cn : Prop} {ql : List Instr} {s : State} : State.Kept cn ql s → State.Kept cn ql (State.latchWake s) := by
  intros
  unfold State.latchWake
  repeat' (first
    | with_reducible assumption
    | with_reducible apply State.setPower_kept
    | simp only [kept_mk_iff]
    | with_reducible rfl
    | dsimp only)

theorem State.setTransition_kept {cn : Prop} {ql : List Instr} {s : State} {t : Option Transition} : State.Kept cn ql s → State.Kept cn ql (State.setTransition s t) := by
  intros
  unfold State.setTransition
  repeat' (first
    | with_reducible assumption
    | with_reducible apply State.setPower_kept
    | with_reducible apply State.setFlag_kept
    | simp only [kept_mk_iff]
    | with_reducible rfl
    | dsimp only)

theorem State.askHibernate_kept {cn : Prop} {ql : List Instr} {s : State} : State.Kept cn ql s → State.Kept cn ql (State.askHibernate s) := by
  intros
  unfold State.askHibernate
  repeat' (first
    | with_reducible assumption
    | with_reducible apply State.beginBindOff_kept
    | with_reducible apply State.latchWake_kept
    | with_reducible apply State.setTransition_kept
    | with_reducible apply kept_ite
    | split
    | dsimp only)

theorem State.askInput_kept {cn : Prop} {ql : List Instr} {s : State} {g n i : Nat} : State.Kept cn ql s → State.Kept cn ql (State.askInput s g n i) := by
  intros
  unfold State.askInput
  repeat' (first
    | intro _
    | with_reducible assumption
    | with_reducible apply State.orProto_kept
    | (refine State.acquireOp_kept (by with_reducible assumption) ?_)
    | with_reducible apply kept_foldl
    | with_reducible apply kept_foldl_snd
    | with_reducible apply kept_ite
    | simp only [kept_mk_iff]
    | with_reducible rfl
    | (refine kept_snd (by with_reducible assumption) ?_)
    | split
    | dsimp only)

theorem State.assembleNls_kept {cn : Prop} {ql : List Instr} {s : State} {c : Nat} {t : Structure} {p : Problem} {words : List Word} : State.Kept cn ql s → State.Kept cn ql (State.assembleNls s c t p words) := by
  intros
  unfold State.assembleNls
  repeat' (first
    | with_reducible assumption
    | with_reducible apply State.setSolverSlot_kept
    | simp only [kept_mk_iff]
    | with_reducible rfl
    | (refine kept_snd (by with_reducible assumption) ?_)
    | split
    | dsimp only)

theorem State.spend_kept {cn : Prop} {ql : List Instr} {s : State} {c cycles : Nat} {p : Problem} : State.Kept cn ql s → State.Kept cn ql (Prod.snd (State.spend s c cycles p)) := by
  intros
  unfold State.spend
  repeat' (first
    | with_reducible assumption
    | with_reducible apply State.addBusy_kept
    | simp only [kept_mk_iff]
    | with_reducible rfl
    | dsimp only)

theorem State.feed_kept {cn : Prop} {ql : List Instr} {s : State} {c : Nat} {t : Structure} {p : Problem} : State.Kept cn ql s → State.Kept cn ql (Prod.snd (State.feed s c t p)) := by
  intros
  unfold State.feed
  repeat' (first
    | with_reducible assumption
    | with_reducible apply State.assembleNls_kept
    | with_reducible apply State.setSolverSlot_kept
    | with_reducible apply State.addSat_kept
    | with_reducible apply kept_ite
    | simp only [kept_mk_iff]
    | with_reducible rfl
    | (refine kept_snd (by with_reducible assumption) ?_)
    | split
    | dsimp only)

theorem State.takeDeltas_kept {cn : Prop} {ql : List Instr} {s : State} : State.Kept cn ql s → State.Kept cn ql (State.takeDeltas s) := by
  intros
  unfold State.takeDeltas
  repeat' (first
    | with_reducible assumption
    | simp only [kept_mk_iff]
    | with_reducible rfl
    | (refine kept_snd (by with_reducible assumption) ?_)
    | split
    | dsimp only)

theorem State.settleStop_kept {cn : Prop} {ql : List Instr} {s : State} {c : Nat} : State.Kept cn ql s → State.Kept cn ql (State.settleStop s c) := by
  intros
  unfold State.settleStop
  repeat' (first
    | with_reducible assumption
    | with_reducible apply State.stopProblem_kept
    | with_reducible apply kept_ite
    | simp only [kept_mk_iff]
    | with_reducible rfl
    | (refine kept_snd (by with_reducible assumption) ?_)
    | split
    | dsimp only)

theorem State.goOn_kept {cn : Prop} {ql : List Instr} {s : State} {c : Nat} {p : Problem} : State.Kept cn ql s → State.Kept cn ql (State.goOn s c p) := by
  intros
  unfold State.goOn
  repeat' (first
    | with_reducible assumption
    | with_reducible apply State.settleStop_kept
    | with_reducible apply State.setProblem_kept
    | simp only [kept_mk_iff]
    | with_reducible rfl
    | dsimp only)

theorem State.assemblyEnds_kept {cn : Prop} {ql : List Instr} {s : State} {c cycles : Nat} {t : Structure} {p : Problem} : State.Kept cn ql s → State.Kept cn ql (State.assemblyEnds s c cycles t p) := by
  intros
  unfold State.assemblyEnds
  repeat' (first
    | with_reducible assumption
    | with_reducible apply State.spend_kept
    | with_reducible apply State.feed_kept
    | with_reducible apply State.takeDeltas_kept
    | with_reducible apply State.goOn_kept
    | with_reducible apply kept_ite
    | simp only [kept_mk_iff]
    | with_reducible rfl
    | (refine kept_snd (by with_reducible assumption) ?_)
    | split
    | dsimp only)

theorem State.atTap_kept {cn : Prop} {ql : List Instr} {s : State} {tap : Tap} : State.Kept cn ql s → State.Kept cn ql (State.atTap s tap) := by
  intros
  unfold State.atTap
  repeat' (first
    | with_reducible assumption
    | with_reducible apply State.tickOn_kept
    | dsimp only)

theorem State.setCast_kept {cn : Prop} {ql : List Instr} {s : State} {c : CastOn} : State.Kept cn ql s → State.Kept cn ql (State.setCast s c) := by
  intros
  unfold State.setCast
  repeat' (first
    | with_reducible assumption
    | simp only [kept_mk_iff]
    | with_reducible rfl
    | dsimp only)

theorem State.attest_kept {cn : Prop} {ql : List Instr} {s : State} : State.Kept cn ql s → State.Kept cn ql (State.attest s) := by
  intros
  unfold State.attest
  repeat' (first
    | with_reducible assumption
    | with_reducible apply State.setCast_kept
    | with_reducible apply State.setFlag_kept
    | with_reducible apply kept_ite
    | simp only [kept_mk_iff]
    | with_reducible rfl
    | split
    | dsimp only)

theorem State.blow_kept {cn : Prop} {ql : List Instr} {s : State} {l : List FuseBit} : State.Kept cn ql s → State.Kept cn ql (State.blow s l) := by
  intros
  unfold State.blow
  repeat' (first
    | with_reducible assumption
    | with_reducible apply State.setCast_kept
    | with_reducible apply State.setFlag_kept
    | simp only [kept_mk_iff]
    | with_reducible rfl
    | dsimp only)

theorem State.autoCommit_kept {cn : Prop} {ql : List Instr} {s : State} : State.Kept cn ql s → State.Kept cn ql (State.autoCommit s) := by
  intros
  unfold State.autoCommit
  repeat' (first
    | with_reducible assumption
    | with_reducible apply State.blow_kept
    | with_reducible apply kept_ite
    | split
    | dsimp only)

theorem State.setStream_kept {cn : Prop} {ql : List Instr} {s : State} {n : Nat} {v : Stream} : State.Kept cn ql s → State.Kept cn ql (State.setStream s n v) := by
  intros
  unfold State.setStream
  repeat' (first
    | with_reducible assumption
    | simp only [kept_mk_iff]
    | with_reducible rfl
    | dsimp only)

theorem State.setGroup_kept {cn : Prop} {ql : List Instr} {s : State} {g : Nat} {v : PairGroup} : State.Kept cn ql s → State.Kept cn ql (State.setGroup s g v) := by
  intros
  unfold State.setGroup
  repeat' (first
    | with_reducible assumption
    | simp only [kept_mk_iff]
    | with_reducible rfl
    | dsimp only)

theorem State.staleSet_kept {cn : Prop} {ql : List Instr} {s : State} {n set : Nat} : State.Kept cn ql s → State.Kept cn ql (State.staleSet s n set) := by
  intros
  unfold State.staleSet
  repeat' (first
    | intro _
    | with_reducible assumption
    | with_reducible apply State.setFlag_kept
    | with_reducible apply State.setGroup_kept
    | with_reducible apply State.updAct_kept
    | with_reducible apply kept_foldl
    | with_reducible apply kept_foldl_snd
    | with_reducible apply kept_ite
    | simp only [kept_mk_iff]
    | with_reducible rfl
    | (refine kept_snd (by with_reducible assumption) ?_)
    | split
    | dsimp only)

theorem State.badFrame_kept {cn : Prop} {ql : List Instr} {s : State} {n : Nat} : State.Kept cn ql s → State.Kept cn ql (State.badFrame s n) := by
  intros
  unfold State.badFrame
  repeat' (first
    | intro _
    | with_reducible assumption
    | with_reducible apply State.setStream_kept
    | with_reducible apply State.staleSet_kept
    | with_reducible apply State.orProto_kept
    | (refine State.abandonOp_kept (by with_reducible assumption) ?_)
    | with_reducible apply State.setFlag_kept
    | with_reducible apply State.addSat_kept
    | with_reducible apply kept_foldl
    | with_reducible apply kept_foldl_snd
    | with_reducible apply kept_ite
    | simp only [kept_mk_iff]
    | with_reducible rfl
    | (refine kept_snd (by with_reducible assumption) ?_)
    | split
    | dsimp only)

theorem State.badCrc_kept {cn : Prop} {ql : List Instr} {s : State} {port n : Nat} : State.Kept cn ql s → State.Kept cn ql (State.badCrc s port n) := by
  intros
  unfold State.badCrc
  repeat' (first
    | with_reducible assumption
    | with_reducible apply State.badFrame_kept
    | with_reducible apply State.addSat_kept
    | dsimp only)

theorem State.badPort_kept {cn : Prop} {ql : List Instr} {s : State} {port : Nat} : State.Kept cn ql s → State.Kept cn ql (State.badPort s port) := by
  intros
  unfold State.badPort
  repeat' (first
    | intro _
    | with_reducible assumption
    | with_reducible apply State.badFrame_kept
    | with_reducible apply kept_foldl
    | with_reducible apply kept_foldl_snd
    | with_reducible apply kept_ite
    | (refine kept_snd (by with_reducible assumption) ?_)
    | split
    | dsimp only)

theorem State.setManaging_kept {cn : Prop} {ql : List Instr} {s : State} {tier : Nat} {b : Bool} : State.Kept cn ql s → State.Kept cn ql (State.setManaging s tier b) := by
  intros
  unfold State.setManaging
  repeat' (first
    | with_reducible assumption
    | simp only [kept_mk_iff]
    | with_reducible rfl
    | dsimp only)

theorem State.settleManager_kept {cn : Prop} {ql : List Instr} {s : State} : State.Kept cn ql s → State.Kept cn ql (State.settleManager s) := by
  intros
  unfold State.settleManager
  repeat' (first
    | intro _
    | with_reducible assumption
    | with_reducible apply State.setManaging_kept
    | with_reducible apply kept_foldl
    | with_reducible apply kept_foldl_snd
    | with_reducible apply kept_ite
    | (refine kept_snd (by with_reducible assumption) ?_)
    | split
    | dsimp only)

theorem State.setAssembly_kept {cn : Prop} {ql : List Instr} {s : State} {a : Option TileAssembly} : State.Kept cn ql s → State.Kept cn ql (State.setAssembly s a) := by
  intros
  unfold State.setAssembly
  repeat' (first
    | with_reducible assumption
    | with_reducible apply State.settleManager_kept
    | simp only [kept_mk_iff]
    | with_reducible rfl
    | dsimp only)

theorem State.beginAssembly_kept {cn : Prop} {ql : List Instr} {s : State} {b : CommandBody} : State.Kept cn ql s → State.Kept cn ql (State.beginAssembly s b) := by
  intros
  unfold State.beginAssembly
  repeat' (first
    | with_reducible assumption
    | with_reducible apply State.answerBody_kept
    | with_reducible apply State.setAssembly_kept
    | with_reducible apply State.allocate_kept
    | simp only [kept_mk_iff]
    | with_reducible rfl
    | (refine kept_snd (by with_reducible assumption) ?_)
    | split
    | dsimp only)

theorem State.holdAll_kept {cn : Prop} {ql : List Instr} {s : State} {k : ResetKind} {cause pll : Nat} : State.Kept cn ql s → State.Kept cn ql (State.holdAll s k cause pll) := by
  intros
  unfold State.holdAll
  repeat' (first
    | with_reducible assumption
    | simp only [kept_mk_iff]
    | with_reducible rfl
    | dsimp only)

theorem State.blown_kept {cn : Prop} {ql : List Instr} {s : State} {a : FuseBit} : State.Kept cn ql s → State.Kept cn ql (State.blown s a) := by
  intros
  unfold State.blown
  repeat' (first
    | intro _
    | with_reducible assumption
    | with_reducible apply State.addSat_kept
    | with_reducible apply State.setFld_kept
    | with_reducible apply State.setReg_kept
    | with_reducible apply State.setFlag_kept
    | with_reducible apply kept_foldl
    | with_reducible apply kept_foldl_snd
    | with_reducible apply kept_ite
    | simp only [kept_mk_iff]
    | with_reducible rfl
    | (refine kept_snd (by with_reducible assumption) ?_)
    | split
    | dsimp only)

theorem State.interruptFuses_kept {cn : Prop} {ql : List Instr} {s : State} : State.Kept cn ql s → State.Kept cn ql (State.interruptFuses s) := by
  intros
  unfold State.interruptFuses
  repeat' (first
    | with_reducible assumption
    | with_reducible apply State.takeBit_kept
    | with_reducible apply State.blown_kept
    | with_reducible apply kept_ite
    | simp only [kept_mk_iff]
    | with_reducible rfl
    | (refine kept_snd (by with_reducible assumption) ?_)
    | split
    | dsimp only)

theorem State.blank_kept {cn : Prop} {ql : List Instr} {s : State} {sticky : Bool} : State.Kept cn ql s → State.Kept cn ql (State.blank s sticky) := by
  intro h0
  have h := State.interruptFuses_kept h0
  refine State.setFlag_kept ⟨fun c => ⟨?_, rfl, rfl, ?_, rfl, (h.canonical c).records, (h.canonical c).flash⟩, h.queue⟩
  · refine Store.wf_filterMap 0 0 _ ?_ _ (h.canonical c).regs
    intro x y _ e
    split at e
    · contradiction
    · next n => injection e with e; subst e; exact ⟨rfl, n⟩
  · change Store.wf 0 (if sticky then s.interruptFuses.integ.log else []) = true
    split
    · exact (h.canonical c).log
    · rfl

theorem State.beginCold_kept {cn : Prop} {ql : List Instr} {s : State} {cause : Nat} : State.Kept cn ql s → State.Kept cn ql (State.beginCold s cause) := by
  intros
  unfold State.beginCold
  repeat' (first
    | with_reducible assumption
    | with_reducible apply State.holdAll_kept
    | with_reducible apply State.blank_kept
    | dsimp only)

theorem State.countBoot_kept {cn : Prop} {ql : List Instr} {s : State} : State.Kept cn ql s → State.Kept cn ql (State.countBoot s) := by
  intros
  unfold State.countBoot
  repeat' (first
    | with_reducible assumption
    | with_reducible apply State.setCast_kept
    | with_reducible apply State.addSat_kept
    | with_reducible apply kept_ite
    | simp only [kept_mk_iff]
    | with_reducible rfl
    | split
    | dsimp only)

theorem State.countEntry_kept {cn : Prop} {ql : List Instr} {s : State} : State.Kept cn ql s → State.Kept cn ql (State.countEntry s) := by
  intros
  unfold State.countEntry
  repeat' (first
    | with_reducible assumption
    | with_reducible apply State.countBoot_kept
    | with_reducible apply kept_ite
    | split
    | dsimp only)

theorem State.beginWarm_kept {cn : Prop} {ql : List Instr} {s : State} {cause pll : Nat} : State.Kept cn ql s → State.Kept cn ql (State.beginWarm s cause pll) := by
  intros
  unfold State.beginWarm
  repeat' (first
    | with_reducible assumption
    | with_reducible apply State.holdAll_kept
    | with_reducible apply State.blank_kept
    | with_reducible apply State.countEntry_kept
    | simp only [kept_mk_iff]
    | with_reducible rfl
    | (refine kept_snd (by with_reducible assumption) ?_)
    | split
    | dsimp only)

theorem State.beginDue_kept {cn : Prop} {ql : List Instr} {s : State} : State.Kept cn ql s → State.Kept cn ql (State.beginDue s) := by
  intros
  unfold State.beginDue
  repeat' (first
    | with_reducible assumption
    | with_reducible apply State.beginWarm_kept
    | simp only [kept_mk_iff]
    | with_reducible rfl
    | (refine kept_snd (by with_reducible assumption) ?_)
    | split
    | dsimp only)

theorem State.dropForDoze_kept {cn : Prop} {ql : List Instr} {s : State} : State.Kept cn ql s → State.Kept cn ql (State.dropForDoze s) := by
  intros
  unfold State.dropForDoze
  repeat' (first
    | with_reducible assumption
    | with_reducible apply State.dropClassC_kept
    | with_reducible apply State.dropClassB_kept
    | with_reducible apply State.endQueries_kept
    | dsimp only)

theorem State.beginEntry_kept {cn : Prop} {ql : List Instr} {s : State} {t : PowerState} : State.Kept cn ql s → State.Kept cn ql (State.beginEntry s t) := by
  intros
  unfold State.beginEntry
  repeat' (first
    | with_reducible assumption
    | with_reducible apply State.setTransition_kept
    | with_reducible apply State.latchWake_kept
    | with_reducible apply State.dropForDoze_kept
    | with_reducible apply kept_ite
    | split
    | dsimp only)

theorem State.takeBytes_kept {cn : Prop} {ql : List Instr} {s : State} {a : Nat} : State.Kept cn ql s → State.Kept cn ql (Prod.snd (State.takeBytes s a)) := by
  intro h
  induction a generalizing s with
  | zero => exact h
  | succ n ih => exact ih (State.takeWord_kept h)

theorem State.tovBytes_kept {cn : Prop} {ql : List Instr} {s : State} {t : Int} : State.Kept cn ql s → State.Kept cn ql (Prod.snd (State.tovBytes s t)) := by
  intros
  unfold State.tovBytes
  repeat' (first
    | with_reducible assumption
    | with_reducible apply State.takeBytes_kept
    | with_reducible apply kept_ite
    | split
    | dsimp only)

theorem State.setObjBytes_kept {cn : Prop} {ql : List Instr} {s : State} {swatch object offset : Nat} {l : List Byte} : State.Kept cn ql s → State.Kept cn ql (State.setObjBytes s swatch object offset l) := by
  intro h
  exact ⟨fun c => { h.canonical c with sram := Store.wf_setMany 0 _ _ _ (h.canonical c).sram }, h.queue⟩

theorem State.setFrameBytes_kept {cn : Prop} {ql : List Instr} {s : State} {a : Nat} {l : List Byte} : State.Kept cn ql s → State.Kept cn ql (State.setFrameBytes s a l) := by
  intros
  unfold State.setFrameBytes
  repeat' (first
    | with_reducible assumption
    | with_reducible apply State.setObjBytes_kept
    | dsimp only)

theorem State.openRecord_kept {cn : Prop} {ql : List Instr} {s : State} {n : Nat} {f : RxFrame} {number flags : Nat} : State.Kept cn ql s → State.Kept cn ql (State.openRecord s n f number flags) := by
  intros
  unfold State.openRecord
  repeat' (first
    | with_reducible assumption
    | with_reducible apply State.tovBytes_kept
    | with_reducible apply State.setFrameBytes_kept
    | (refine kept_snd (by with_reducible assumption) ?_)
    | split
    | dsimp only)

theorem State.joinInstant_kept {cn : Prop} {ql : List Instr} {s : State} {g n j : Nat} {f : MemberFrame} {stale : Bool} : State.Kept cn ql s → State.Kept cn ql (State.joinInstant s g n j f stale) := by
  intros
  unfold State.joinInstant
  repeat' (first
    | with_reducible assumption
    | with_reducible apply State.addSat_kept
    | with_reducible apply State.setGroup_kept
    | with_reducible apply State.setFlag_kept
    | with_reducible apply kept_ite
    | simp only [kept_mk_iff]
    | with_reducible rfl
    | (refine kept_snd (by with_reducible assumption) ?_)
    | split
    | dsimp only)

theorem State.noteSlip_kept {cn : Prop} {ql : List Instr} {s : State} {n : Nat} : State.Kept cn ql s → State.Kept cn ql (State.noteSlip s n) := by
  intros
  unfold State.noteSlip
  repeat' (first
    | with_reducible assumption
    | with_reducible apply State.setFlag_kept
    | with_reducible apply State.addSat_kept
    | with_reducible apply State.raiseFault_kept
    | with_reducible apply State.setStream_kept
    | simp only [kept_mk_iff]
    | with_reducible rfl
    | dsimp only)

theorem State.setFrameNat_kept {cn : Prop} {ql : List Instr} {s : State} {a n v : Nat} : State.Kept cn ql s → State.Kept cn ql (State.setFrameNat s a n v) := by
  intros
  unfold State.setFrameNat
  repeat' (first
    | with_reducible assumption
    | with_reducible apply State.setFrameBytes_kept
    | dsimp only)

theorem State.writeOffset_kept {cn : Prop} {ql : List Instr} {s : State} {n : Nat} {f : MemberFrame} {offset : Int} : State.Kept cn ql s → State.Kept cn ql (State.writeOffset s n f offset) := by
  intros
  unfold State.writeOffset
  repeat' (first
    | with_reducible assumption
    | with_reducible apply State.setFrameNat_kept
    | simp only [kept_mk_iff]
    | with_reducible rfl
    | (refine kept_snd (by with_reducible assumption) ?_)
    | split
    | dsimp only)

theorem State.judgeFrame_kept {cn : Prop} {ql : List Instr} {s : State} {g n : Nat} {f : MemberFrame} {a : Nat} : State.Kept cn ql s → State.Kept cn ql (State.judgeFrame s g n f a) := by
  intro h
  induction a generalizing s with
  | zero => exact h
  | succ n ih =>
    unfold State.judgeFrame
    dsimp only
    repeat' (first
      | with_reducible assumption
      | with_reducible apply ih
      | with_reducible apply State.noteSlip_kept
      | with_reducible apply State.joinInstant_kept
      | with_reducible apply State.writeOffset_kept
      | with_reducible apply State.setStream_kept
      | split)

theorem State.judgeWaiting_kept {cn : Prop} {ql : List Instr} {s : State} {g : Nat} : State.Kept cn ql s → State.Kept cn ql (State.judgeWaiting s g) := by
  intros
  unfold State.judgeWaiting
  repeat' (first
    | intro _
    | with_reducible assumption
    | with_reducible apply State.judgeFrame_kept
    | with_reducible apply State.setStream_kept
    | with_reducible apply kept_foldl
    | with_reducible apply kept_foldl_snd
    | with_reducible apply kept_ite
    | simp only [kept_mk_iff]
    | with_reducible rfl
    | (refine kept_snd (by with_reducible assumption) ?_)
    | split
    | dsimp only)

theorem State.openInstant_kept {cn : Prop} {ql : List Instr} {s : State} {g n : Nat} {f : MemberFrame} : State.Kept cn ql s → State.Kept cn ql (State.openInstant s g n f) := by
  intros
  unfold State.openInstant
  repeat' (first
    | with_reducible assumption
    | with_reducible apply State.setGroup_kept
    | with_reducible apply State.judgeWaiting_kept
    | simp only [kept_mk_iff]
    | with_reducible rfl
    | (refine kept_snd (by with_reducible assumption) ?_)
    | split
    | dsimp only)

theorem State.pairFrame_kept {cn : Prop} {ql : List Instr} {s : State} {n : Nat} {f : MemberFrame} : State.Kept cn ql s → State.Kept cn ql (State.pairFrame s n f) := by
  intros
  unfold State.pairFrame
  repeat' (first
    | with_reducible assumption
    | with_reducible apply State.openInstant_kept
    | with_reducible apply State.judgeFrame_kept
    | with_reducible apply kept_ite
    | simp only [kept_mk_iff]
    | with_reducible rfl
    | (refine kept_snd (by with_reducible assumption) ?_)
    | split
    | dsimp only)

theorem State.trigger_kept {cn : Prop} {ql : List Instr} {s : State} {g instant : Nat} {start : Stamp} {tov : Int} {sets : List (Nat × Nat × Nat)} {stale : Bool} : State.Kept cn ql s → State.Kept cn ql (State.trigger s g instant start tov sets stale) := by
  intros
  unfold State.trigger
  repeat' (first
    | with_reducible assumption
    | with_reducible apply State.addSat_kept
    | with_reducible apply State.setGraph_kept
    | with_reducible apply State.addWrap_kept
    | with_reducible apply State.setFlag_kept
    | with_reducible apply kept_ite
    | simp only [kept_mk_iff]
    | with_reducible rfl
    | split
    | dsimp only)

theorem State.beginFrame_kept {cn : Prop} {ql : List Instr} {s : State} {n set number : Nat} {stamp : Stamp} : State.Kept cn ql s → State.Kept cn ql (State.beginFrame s n set number stamp) := by
  intros
  unfold State.beginFrame
  repeat' (first
    | intro _
    | with_reducible assumption
    | with_reducible apply State.orProto_kept
    | (refine State.claimOp_kept (by with_reducible assumption) ?_)
    | with_reducible apply State.setStream_kept
    | with_reducible apply State.openRecord_kept
    | with_reducible apply State.pairFrame_kept
    | with_reducible apply State.trigger_kept
    | with_reducible apply kept_foldl
    | with_reducible apply kept_foldl_snd
    | with_reducible apply kept_ite
    | simp only [kept_mk_iff]
    | with_reducible rfl
    | (refine kept_snd (by with_reducible assumption) ?_)
    | split
    | dsimp only)

theorem State.takeItem_kept {cn : Prop} {ql : List Instr} {s : State} : State.Kept cn ql s → State.Kept cn ql (State.takeItem s) := by
  intros
  unfold State.takeItem
  repeat' (first
    | with_reducible assumption
    | simp only [kept_mk_iff]
    | with_reducible rfl
    | dsimp only)

theorem State.beginImport_kept {cn : Prop} {ql : List Instr} {s : State} {i : ImportItem} : State.Kept cn ql s → State.Kept cn ql (State.beginImport s i) := by
  intros
  unfold State.beginImport
  repeat' (first
    | with_reducible assumption
    | with_reducible apply State.takeItem_kept
    | with_reducible apply State.stopImport_kept
    | with_reducible apply State.takeBit_kept
    | with_reducible apply State.setReg_kept
    | with_reducible apply State.setFlag_kept
    | with_reducible apply State.setFld_kept
    | with_reducible apply State.endImport_kept
    | with_reducible apply State.setImport_kept
    | with_reducible apply kept_ite
    | simp only [kept_mk_iff]
    | with_reducible rfl
    | (refine kept_snd (by with_reducible assumption) ?_)
    | split
    | dsimp only)

theorem State.beginLoad_kept {cn : Prop} {ql : List Instr} {s : State} {core slot descriptor values : Nat} : State.Kept cn ql s → State.Kept cn ql (State.beginLoad s core slot descriptor values) := by
  intros
  unfold State.beginLoad
  repeat' (first
    | with_reducible assumption
    | with_reducible apply State.tell_kept
    | (refine State.takePin_kept (by with_reducible assumption) ?_)
    | with_reducible apply kept_ite
    | simp only [kept_mk_iff]
    | with_reducible rfl
    | (refine kept_snd (by with_reducible assumption) ?_)
    | split
    | dsimp only)

theorem State.startTerms_kept {cn : Prop} {ql : List Instr} {s : State} : State.Kept cn ql s → State.Kept cn ql (State.startTerms s) := by
  intros
  unfold State.startTerms
  repeat' (first
    | with_reducible assumption
    | simp only [kept_mk_iff]
    | with_reducible rfl
    | dsimp only)

theorem State.clearContexts_kept {cn : Prop} {ql : List Instr} {s : State} {n : Nat} {p : Nat → Bool} : State.Kept cn ql s → State.Kept cn ql (State.clearContexts s n p) := by
  intros
  unfold State.clearContexts
  repeat' (first
    | with_reducible assumption
    | with_reducible apply State.setUnit_kept
    | simp only [kept_mk_iff]
    | with_reducible rfl
    | dsimp only)

theorem State.clearFrameContexts_kept {cn : Prop} {ql : List Instr} {s : State} : State.Kept cn ql s → State.Kept cn ql (State.clearFrameContexts s) := by
  intros
  unfold State.clearFrameContexts
  repeat' (first
    | intro _
    | with_reducible assumption
    | with_reducible apply State.clearContexts_kept
    | with_reducible apply kept_foldl
    | with_reducible apply kept_foldl_snd
    | with_reducible apply kept_ite
    | (refine kept_snd (by with_reducible assumption) ?_)
    | split
    | dsimp only)

theorem State.beginLoop_kept {cn : Prop} {ql : List Instr} {s : State} : State.Kept cn ql s → State.Kept cn ql (State.beginLoop s) := by
  intros
  unfold State.beginLoop
  repeat' (first
    | with_reducible assumption
    | with_reducible apply State.setFlag_kept
    | with_reducible apply State.startTerms_kept
    | with_reducible apply State.clearFrameContexts_kept
    | simp only [kept_mk_iff]
    | with_reducible rfl
    | dsimp only)

theorem State.recordResult_kept {cn : Prop} {ql : List Instr} {s : State} {n r : Nat} : State.Kept cn ql s → State.Kept cn ql (State.recordResult s n r) := by
  intros
  unfold State.recordResult
  repeat' (first
    | with_reducible assumption
    | with_reducible apply State.addSat_kept
    | with_reducible apply State.setReg_kept
    | dsimp only)

theorem State.checkAlive_kept {cn : Prop} {ql : List Instr} {s : State} {n context a : Nat} : State.Kept cn ql s → State.Kept cn ql (Prod.snd (State.checkAlive s n context a)) := by
  intros
  unfold State.checkAlive
  repeat' (first
    | with_reducible assumption
    | with_reducible apply State.addSat_kept
    | with_reducible apply State.setUnit_kept
    | simp only [kept_mk_iff]
    | with_reducible rfl
    | (refine kept_snd (by with_reducible assumption) ?_)
    | split
    | dsimp only)

theorem State.reportAlive_kept {cn : Prop} {ql : List Instr} {s : State} {n context : Nat} {o : AliveOutcome} : State.Kept cn ql s → State.Kept cn ql (State.reportAlive s n context o) := by
  intros
  unfold State.reportAlive
  repeat' (first
    | with_reducible assumption
    | with_reducible apply State.raiseFault_kept
    | with_reducible apply State.setFlag_kept
    | with_reducible apply kept_ite
    | simp only [kept_mk_iff]
    | with_reducible rfl
    | (refine kept_snd (by with_reducible assumption) ?_)
    | split
    | dsimp only)

theorem State.generate_kept {cn : Prop} {ql : List Instr} {s : State} {n : Nat} {bytes : List Byte} {context counter : Nat} : State.Kept cn ql s → State.Kept cn ql (Prod.snd (State.generate s n bytes context counter)) := by
  intros
  unfold State.generate
  repeat' (first
    | with_reducible assumption
    | with_reducible apply State.recordResult_kept
    | with_reducible apply State.checkAlive_kept
    | with_reducible apply State.reportAlive_kept
    | (refine kept_snd (by with_reducible assumption) ?_)
    | split
    | dsimp only)

theorem State.beginPayload_kept {cn : Prop} {ql : List Instr} {s : State} {t : Nat} : State.Kept cn ql s → State.Kept cn ql (State.beginPayload s t) := by
  intros
  unfold State.beginPayload
  repeat' (first
    | with_reducible assumption
    | with_reducible apply State.generate_kept
    | with_reducible apply State.addWrap_kept
    | with_reducible apply State.setTx_kept
    | simp only [kept_mk_iff]
    | with_reducible rfl
    | (refine kept_snd (by with_reducible assumption) ?_)
    | split
    | dsimp only)

theorem State.markUser_kept {cn : Prop} {ql : List Instr} {s : State} {n bit : Nat} : State.Kept cn ql s → State.Kept cn ql (State.markUser s n bit) := by
  intros
  unfold State.markUser
  repeat' (first
    | with_reducible assumption
    | with_reducible apply State.setFld_kept
    | dsimp only)

theorem State.useSlot_kept {cn : Prop} {ql : List Instr} {s : State} {k : Nat} : State.Kept cn ql s → State.Kept cn ql (State.useSlot s k) := by
  intros
  unfold State.useSlot
  repeat' (first
    | intro _
    | with_reducible assumption
    | with_reducible apply State.setClassA_kept
    | with_reducible apply State.markUser_kept
    | with_reducible apply kept_foldl
    | with_reducible apply kept_foldl_snd
    | with_reducible apply kept_ite
    | simp only [kept_mk_iff]
    | with_reducible rfl
    | (refine kept_snd (by with_reducible assumption) ?_)
    | split
    | dsimp only)

theorem State.envelopeRefused_kept {cn : Prop} {ql : List Instr} {s : State} {slot : Nat} : State.Kept cn ql s → State.Kept cn ql (State.envelopeRefused s slot) := by
  intros
  unfold State.envelopeRefused
  repeat' (first
    | with_reducible assumption
    | with_reducible apply State.raiseFault_kept
    | with_reducible apply State.raiseIbi_kept
    | with_reducible apply State.setFlag_kept
    | dsimp only)

theorem State.refuseSlot_kept {cn : Prop} {ql : List Instr} {s : State} {k : Nat} : State.Kept cn ql s → State.Kept cn ql (State.refuseSlot s k) := by
  intros
  unfold State.refuseSlot
  repeat' (first
    | intro _
    | with_reducible assumption
    | with_reducible apply State.setClassA_kept
    | with_reducible apply State.setFlag_kept
    | with_reducible apply State.envelopeRefused_kept
    | with_reducible apply kept_foldl
    | with_reducible apply kept_foldl_snd
    | with_reducible apply kept_ite
    | simp only [kept_mk_iff]
    | with_reducible rfl
    | (refine kept_snd (by with_reducible assumption) ?_)
    | split
    | dsimp only)

theorem State.loadClassA_kept {cn : Prop} {ql : List Instr} {s : State} : State.Kept cn ql s → State.Kept cn ql (State.loadClassA s) := by
  intros
  unfold State.loadClassA
  repeat' (first
    | with_reducible assumption
    | with_reducible apply State.setClassA_kept
    | with_reducible apply State.useSlot_kept
    | with_reducible apply State.refuseSlot_kept
    | with_reducible apply kept_ite
    | simp only [kept_mk_iff]
    | with_reducible rfl
    | split
    | dsimp only)

theorem State.setCrossing_kept {cn : Prop} {ql : List Instr} {s : State} {i n : Nat} : State.Kept cn ql s → State.Kept cn ql (State.setCrossing s i n) := by
  intros
  unfold State.setCrossing
  repeat' (first
    | with_reducible assumption
    | simp only [kept_mk_iff]
    | with_reducible rfl
    | dsimp only)

theorem State.setOvr_kept {cn : Prop} {ql : List Instr} {s : State} {i : Nat} : State.Kept cn ql s → State.Kept cn ql (State.setOvr s i) := by
  intros
  unfold State.setOvr
  repeat' (first
    | with_reducible assumption
    | with_reducible apply State.setFld_kept
    | with_reducible apply kept_ite
    | split
    | dsimp only)

theorem State.pulse_kept {cn : Prop} {ql : List Instr} {s : State} {i drained : Nat} : State.Kept cn ql s → State.Kept cn ql (State.pulse s i drained) := by
  intros
  unfold State.pulse
  repeat' (first
    | with_reducible assumption
    | with_reducible apply State.setCrossing_kept
    | with_reducible apply State.raiseFault_kept
    | with_reducible apply State.setOvr_kept
    | with_reducible apply kept_ite
    | split
    | dsimp only)

theorem State.strobe_kept {cn : Prop} {ql : List Instr} {s : State} {i : Nat} {x : Instant} : State.Kept cn ql s → State.Kept cn ql (State.strobe s i x) := by
  intros
  unfold State.strobe
  repeat' (first
    | with_reducible assumption
    | with_reducible apply State.pulse_kept
    | with_reducible apply kept_ite
    | simp only [kept_mk_iff]
    | with_reducible rfl
    | split
    | dsimp only)

theorem State.strobeEach_kept {cn : Prop} {ql : List Instr} {s : State} {l : List Nat} {x : Instant} : State.Kept cn ql s → State.Kept cn ql (State.strobeEach s l x) := by
  intros
  unfold State.strobeEach
  repeat' (first
    | intro _
    | with_reducible assumption
    | with_reducible apply State.strobe_kept
    | with_reducible apply kept_foldl
    | with_reducible apply kept_foldl_snd
    | (refine kept_snd (by with_reducible assumption) ?_)
    | dsimp only)

theorem State.strobePath_kept {cn : Prop} {ql : List Instr} {s : State} {k : InstantKind} {t : Stamp} : State.Kept cn ql s → State.Kept cn ql (State.strobePath s k t) := by
  intros
  unfold State.strobePath
  repeat' (first
    | with_reducible assumption
    | with_reducible apply State.strobeEach_kept
    | dsimp only)

theorem State.openPeriod_kept {cn : Prop} {ql : List Instr} {s : State} {b : Stamp} : State.Kept cn ql s → State.Kept cn ql (State.openPeriod s b) := by
  intros
  unfold State.openPeriod
  repeat' (first
    | with_reducible assumption
    | with_reducible apply State.loadClassA_kept
    | with_reducible apply State.strobePath_kept
    | simp only [kept_mk_iff]
    | with_reducible rfl
    | dsimp only)

theorem State.beginPeriod_kept {cn : Prop} {ql : List Instr} {s : State} {b : Stamp} : State.Kept cn ql s → State.Kept cn ql (State.beginPeriod s b) := by
  intros
  unfold State.beginPeriod
  repeat' (first
    | with_reducible assumption
    | with_reducible apply State.openPeriod_kept
    | with_reducible apply State.applyTiming_kept
    | dsimp only)

theorem State.beginUpdate_kept {cn : Prop} {ql : List Instr} {s : State} {object : Bool} {i g stream : Nat} {bufs : List Nat} {a : Activation} : State.Kept cn ql s → State.Kept cn ql (State.beginUpdate s object i g stream bufs a) := by
  intros
  unfold State.beginUpdate
  repeat' (first
    | intro _
    | with_reducible assumption
    | with_reducible apply State.acquireFor_kept
    | with_reducible apply State.startNext_kept
    | with_reducible apply State.setUpdates_kept
    | with_reducible apply kept_foldl
    | with_reducible apply kept_foldl_snd
    | simp only [kept_mk_iff]
    | with_reducible rfl
    | (refine kept_snd (by with_reducible assumption) ?_)
    | split
    | dsimp only)

theorem State.beginUpdates_kept {cn : Prop} {ql : List Instr} {s : State} {g : Nat} {a : Activation} : State.Kept cn ql s → State.Kept cn ql (State.beginUpdates s g a) := by
  intros
  unfold State.beginUpdates
  repeat' (first
    | intro _
    | with_reducible assumption
    | with_reducible apply State.beginUpdate_kept
    | with_reducible apply kept_foldl
    | with_reducible apply kept_foldl_snd
    | with_reducible apply kept_ite
    | (refine kept_snd (by with_reducible assumption) ?_)
    | split
    | dsimp only)

theorem State.beginWake_kept {cn : Prop} {ql : List Instr} {s : State} {t : PowerState} : State.Kept cn ql s → State.Kept cn ql (State.beginWake s t) := by
  intros
  unfold State.beginWake
  repeat' (first
    | with_reducible assumption
    | with_reducible apply State.setPower_kept
    | with_reducible apply State.setTransition_kept
    | with_reducible apply kept_ite
    | simp only [kept_mk_iff]
    | with_reducible rfl
    | split
    | dsimp only)

theorem State.birthObject_kept {cn : Prop} {ql : List Instr} {s : State} {u : TrackUpdate} {d : Detection} : State.Kept cn ql s → State.Kept cn ql (State.birthObject s u d) := by
  intros
  unfold State.birthObject
  repeat' (first
    | with_reducible assumption
    | with_reducible apply State.addWrap_kept
    | with_reducible apply State.setObjectTrack_kept
    | with_reducible apply kept_ite
    | simp only [kept_mk_iff]
    | with_reducible rfl
    | (refine kept_snd (by with_reducible assumption) ?_)
    | split
    | dsimp only)

theorem State.bothResults_kept {cn : Prop} {ql : List Instr} {s : State} {code : Nat} : State.Kept cn ql s → State.Kept cn ql (State.bothResults s code) := by
  intros
  unfold State.bothResults
  repeat' (first
    | with_reducible assumption
    | with_reducible apply State.setFld_kept
    | dsimp only)

theorem State.regate_kept {cn : Prop} {ql : List Instr} {s : State} : State.Kept cn ql s → State.Kept cn ql (State.regate s) := by
  intros
  unfold State.regate
  repeat' (first
    | with_reducible assumption
    | simp only [kept_mk_iff]
    | with_reducible rfl
    | dsimp only)

theorem State.bound_kept {cn : Prop} {ql : List Instr} {s : State} : State.Kept cn ql s → State.Kept cn ql (State.bound s) := by
  intros
  unfold State.bound
  repeat' (first
    | with_reducible assumption
    | with_reducible apply State.raiseIbi_kept
    | with_reducible apply State.regate_kept
    | with_reducible apply State.setPhase_kept
    | simp only [kept_mk_iff]
    | with_reducible rfl
    | dsimp only)

theorem State.setMac_kept {cn : Prop} {ql : List Instr} {s : State} {m : Nat} {p : EthPort} : State.Kept cn ql s → State.Kept cn ql (State.setMac s m p) := by
  intros
  unfold State.setMac
  repeat' (first
    | with_reducible assumption
    | simp only [kept_mk_iff]
    | with_reducible rfl
    | dsimp only)

theorem State.enqueueLaunch_kept {cn : Prop} {ql : List Instr} {s : State} {m : Nat} {frame : List Byte} {launch : Stamp} : State.Kept cn ql s → State.Kept cn ql (State.enqueueLaunch s m frame launch) := by
  intros
  unfold State.enqueueLaunch
  repeat' (first
    | with_reducible assumption
    | with_reducible apply State.addSat_kept
    | with_reducible apply State.setMac_kept
    | with_reducible apply kept_ite
    | simp only [kept_mk_iff]
    | with_reducible rfl
    | split
    | dsimp only)

theorem State.placeFrame_kept {cn : Prop} {ql : List Instr} {s : State} {b : List Byte} {w : PeriodWork} {c : FrameContent} {flags i : Nat} : State.Kept cn ql s → State.Kept cn ql (State.placeFrame s b w c flags i) := by
  intros
  unfold State.placeFrame
  repeat' (first
    | with_reducible assumption
    | with_reducible apply State.generate_kept
    | with_reducible apply State.setClassA_kept
    | with_reducible apply State.enqueueLaunch_kept
    | simp only [kept_mk_iff]
    | with_reducible rfl
    | (refine kept_snd (by with_reducible assumption) ?_)
    | split
    | dsimp only)

theorem State.buildFrames_kept {cn : Prop} {ql : List Instr} {s : State} {w : PeriodWork} {readyNs : Nat} : State.Kept cn ql s → State.Kept cn ql (State.buildFrames s w readyNs) := by
  intros
  unfold State.buildFrames
  repeat' (first
    | intro _
    | with_reducible assumption
    | with_reducible apply State.setClassA_kept
    | with_reducible apply State.placeFrame_kept
    | with_reducible apply State.raiseMax_kept
    | with_reducible apply kept_foldl
    | with_reducible apply kept_foldl_snd
    | simp only [kept_mk_iff]
    | with_reducible rfl
    | (refine kept_snd (by with_reducible assumption) ?_)
    | split
    | dsimp only)

theorem State.buildGraph_kept {cn : Prop} {ql : List Instr} {s : State} : State.Kept cn ql s → State.Kept cn ql (State.buildGraph s) := by
  intros
  unfold State.buildGraph
  repeat' (first
    | intro _
    | with_reducible assumption
    | with_reducible apply State.noteRead_kept
    | with_reducible apply State.writeStatic_kept
    | with_reducible apply State.setMap_kept
    | with_reducible apply kept_foldl
    | with_reducible apply kept_foldl_snd
    | with_reducible apply kept_ite
    | simp only [kept_mk_iff]
    | with_reducible rfl
    | (refine kept_snd (by with_reducible assumption) ?_)
    | split
    | dsimp only)

theorem State.buildLine_kept {cn : Prop} {ql : List Instr} {s : State} {n set l : Nat} {src : Gray} {y : Nat} : State.Kept cn ql s → State.Kept cn ql (State.buildLine s n set l src y) := by
  intros
  unfold State.buildLine
  repeat' (first
    | with_reducible assumption
    | with_reducible apply State.setFrameBytes_kept
    | dsimp only)

theorem State.cancelSnapshot_kept {cn : Prop} {ql : List Instr} {s : State} : State.Kept cn ql s → State.Kept cn ql (State.cancelSnapshot s) := by
  intro h
  exact kept_mk (State.setFlag_kept h) rfl rfl rfl rfl rfl rfl rfl rfl

theorem State.cellIndex_kept {cn : Prop} {ql : List Instr} {s : State} {x : Fp} : State.Kept cn ql s → State.Kept cn ql (Prod.snd (State.cellIndex s x)) := by
  intros
  unfold State.cellIndex
  repeat' (first
    | with_reducible assumption
    | with_reducible apply State.takeWord_kept
    | simp only [kept_mk_iff]
    | with_reducible rfl
    | (refine kept_snd (by with_reducible assumption) ?_)
    | split
    | dsimp only)

theorem State.checkCommands_kept {cn : Prop} {ql : List Instr} {s : State} : State.Kept cn ql s → State.Kept cn ql (State.checkCommands s) := by
  intros
  unfold State.checkCommands
  repeat' (first
    | with_reducible assumption
    | with_reducible apply State.markUser_kept
    | with_reducible apply State.setFlag_kept
    | with_reducible apply kept_ite
    | simp only [kept_mk_iff]
    | with_reducible rfl
    | split
    | dsimp only)

theorem State.checkFailed_kept {cn : Prop} {ql : List Instr} {s : State} {c : Nat} {proof : Bool} : State.Kept cn ql s → State.Kept cn ql (State.checkFailed s c proof) := by
  intros
  unfold State.checkFailed
  repeat' (first
    | with_reducible assumption
    | with_reducible apply State.raiseFault_kept
    | with_reducible apply State.addSat_kept
    | with_reducible apply kept_ite
    | split
    | dsimp only)

theorem State.checkGraphs_kept {cn : Prop} {ql : List Instr} {s : State} : State.Kept cn ql s → State.Kept cn ql (State.checkGraphs s) := by
  intros
  unfold State.checkGraphs
  repeat' (first
    | intro _
    | with_reducible assumption
    | with_reducible apply State.setFld_kept
    | with_reducible apply State.setFlag_kept
    | with_reducible apply kept_foldl
    | with_reducible apply kept_foldl_snd
    | with_reducible apply kept_ite
    | (refine kept_snd (by with_reducible assumption) ?_)
    | split
    | dsimp only)

theorem State.checkHalf_kept {cn : Prop} {ql : List Instr} {s : State} {receiver : Nat} {h : Nat × SymbolErrors} : State.Kept cn ql s → State.Kept cn ql (State.checkHalf s receiver h) := by
  intros
  unfold State.checkHalf
  repeat' (first
    | with_reducible assumption
    | with_reducible apply State.takeWord_kept
    | with_reducible apply State.recordUe_kept
    | simp only [kept_mk_iff]
    | with_reducible rfl
    | (refine kept_snd (by with_reducible assumption) ?_)
    | split
    | dsimp only)

theorem State.checkIndexes_kept {cn : Prop} {ql : List Instr} {s : State} : State.Kept cn ql s → State.Kept cn ql (State.checkIndexes s) := by
  intros
  unfold State.checkIndexes
  repeat' (first
    | intro _
    | with_reducible assumption
    | with_reducible apply State.setFlag_kept
    | with_reducible apply kept_foldl
    | with_reducible apply kept_foldl_snd
    | (refine kept_snd (by with_reducible assumption) ?_)
    | dsimp only)

theorem State.readSram_kept {cn : Prop} {ql : List Instr} {s : State} {reader swatch object offset n : Nat} : State.Kept cn ql s → State.Kept cn ql (State.readSram s reader swatch object offset n) := by
  intros
  unfold State.readSram
  repeat' (first
    | intro _
    | with_reducible assumption
    | with_reducible apply State.recordUe_kept
    | with_reducible apply kept_foldl
    | with_reducible apply kept_foldl_snd
    | with_reducible apply kept_ite
    | simp only [kept_mk_iff]
    | with_reducible rfl
    | (refine kept_snd (by with_reducible assumption) ?_)
    | split
    | dsimp only)

theorem State.checkInputs_kept {cn : Prop} {ql : List Instr} {s : State} {g n reader : Nat} : State.Kept cn ql s → State.Kept cn ql (State.checkInputs s g n reader) := by
  intros
  unfold State.checkInputs
  repeat' (first
    | intro _
    | with_reducible assumption
    | with_reducible apply State.readSram_kept
    | with_reducible apply kept_foldl
    | with_reducible apply kept_foldl_snd
    | with_reducible apply kept_ite
    | simp only [kept_mk_iff]
    | with_reducible rfl
    | (refine kept_snd (by with_reducible assumption) ?_)
    | split
    | dsimp only)

theorem State.checkPrograms_kept {cn : Prop} {ql : List Instr} {s : State} : State.Kept cn ql s → State.Kept cn ql (State.checkPrograms s) := by
  intros
  unfold State.checkPrograms
  repeat' (first
    | intro _
    | with_reducible assumption
    | with_reducible apply State.setFld_kept
    | with_reducible apply State.setFlag_kept
    | with_reducible apply kept_foldl
    | with_reducible apply kept_foldl_snd
    | with_reducible apply kept_ite
    | simp only [kept_mk_iff]
    | with_reducible rfl
    | (refine kept_snd (by with_reducible assumption) ?_)
    | split
    | dsimp only)

theorem State.checkStreams_kept {cn : Prop} {ql : List Instr} {s : State} : State.Kept cn ql s → State.Kept cn ql (State.checkStreams s) := by
  intros
  unfold State.checkStreams
  repeat' (first
    | intro _
    | with_reducible assumption
    | with_reducible apply State.setFlag_kept
    | with_reducible apply kept_foldl
    | with_reducible apply kept_foldl_snd
    | with_reducible apply kept_ite
    | (refine kept_snd (by with_reducible assumption) ?_)
    | split
    | dsimp only)

theorem State.checkTables_kept {cn : Prop} {ql : List Instr} {s : State} : State.Kept cn ql s → State.Kept cn ql (State.checkTables s) := by
  intros
  unfold State.checkTables
  repeat' (first
    | with_reducible assumption
    | with_reducible apply State.setFlag_kept
    | with_reducible apply State.setFld_kept
    | simp only [kept_mk_iff]
    | with_reducible rfl
    | (refine kept_snd (by with_reducible assumption) ?_)
    | split
    | dsimp only)

theorem State.checkTiming_kept {cn : Prop} {ql : List Instr} {s : State} {b : Stamp} : State.Kept cn ql s → State.Kept cn ql (State.checkTiming s b) := by
  intros
  unfold State.checkTiming
  repeat' (first
    | with_reducible assumption
    | with_reducible apply State.applyTiming_kept
    | with_reducible apply kept_ite
    | simp only [kept_mk_iff]
    | with_reducible rfl
    | split
    | dsimp only)

theorem State.checkTracking_kept {cn : Prop} {ql : List Instr} {s : State} : State.Kept cn ql s → State.Kept cn ql (State.checkTracking s) := by
  intros
  unfold State.checkTracking
  repeat' (first
    | intro _
    | with_reducible assumption
    | with_reducible apply State.setFlag_kept
    | with_reducible apply State.setFld_kept
    | with_reducible apply kept_foldl
    | with_reducible apply kept_foldl_snd
    | simp only [kept_mk_iff]
    | with_reducible rfl
    | (refine kept_snd (by with_reducible assumption) ?_)
    | split
    | dsimp only)

theorem State.checkTransmit_kept {cn : Prop} {ql : List Instr} {s : State} : State.Kept cn ql s → State.Kept cn ql (State.checkTransmit s) := by
  intros
  unfold State.checkTransmit
  repeat' (first
    | intro _
    | with_reducible assumption
    | with_reducible apply State.setFlag_kept
    | with_reducible apply State.setTx_kept
    | with_reducible apply State.markUser_kept
    | with_reducible apply kept_foldl
    | with_reducible apply kept_foldl_snd
    | with_reducible apply kept_ite
    | simp only [kept_mk_iff]
    | with_reducible rfl
    | (refine kept_snd (by with_reducible assumption) ?_)
    | split
    | dsimp only)

theorem State.checkVision_kept {cn : Prop} {ql : List Instr} {s : State} : State.Kept cn ql s → State.Kept cn ql (State.checkVision s) := by
  intros
  unfold State.checkVision
  repeat' (first
    | with_reducible assumption
    | with_reducible apply State.checkGraphs_kept
    | with_reducible apply State.checkPrograms_kept
    | with_reducible apply State.checkTables_kept
    | with_reducible apply State.checkStreams_kept
    | dsimp only)

theorem State.checkpointFull_kept {cn : Prop} {ql : List Instr} {s : State} : State.Kept cn ql s → State.Kept cn ql (State.checkpointFull s) := by
  intros
  unfold State.checkpointFull
  repeat' (first
    | intro _
    | with_reducible assumption
    | with_reducible apply State.checkpoint_kept
    | with_reducible apply kept_foldl
    | with_reducible apply kept_foldl_snd
    | with_reducible apply kept_ite
    | (refine kept_snd (by with_reducible assumption) ?_)
    | split
    | dsimp only)

theorem State.oweWarm_kept {cn : Prop} {ql : List Instr} {s : State} {cause pll : Nat} : State.Kept cn ql s → State.Kept cn ql (State.oweWarm s cause pll) := by
  intros
  unfold State.oweWarm
  repeat' (first
    | with_reducible assumption
    | simp only [kept_mk_iff]
    | with_reducible rfl
    | (refine kept_snd (by with_reducible assumption) ?_)
    | split
    | dsimp only)

theorem State.chipWatchdog_kept {cn : Prop} {ql : List Instr} {s : State} {source : Nat} : State.Kept cn ql s → State.Kept cn ql (State.chipWatchdog s source) := by
  intros
  unfold State.chipWatchdog
  repeat' (first
    | with_reducible assumption
    | with_reducible apply State.raiseFault_kept
    | with_reducible apply State.addSat_kept
    | with_reducible apply State.setFld_kept
    | with_reducible apply State.oweWarm_kept
    | dsimp only)

theorem State.choosePacket_kept {cn : Prop} {ql : List Instr} {s : State} {n : Nat} : State.Kept cn ql s → State.Kept cn ql (State.choosePacket s n) := by
  intros
  unfold State.choosePacket
  repeat' (first
    | intro _
    | with_reducible assumption
    | with_reducible apply State.beginPayload_kept
    | with_reducible apply State.setTxPort_kept
    | with_reducible apply kept_foldl
    | with_reducible apply kept_foldl_snd
    | with_reducible apply kept_ite
    | simp only [kept_mk_iff]
    | with_reducible rfl
    | (refine kept_snd (by with_reducible assumption) ?_)
    | split
    | dsimp only)

theorem State.trySlot_kept {cn : Prop} {ql : List Instr} {s : State} {b : Bool} : State.Kept cn ql s → State.Kept cn ql (State.trySlot s b) := by
  intros
  unfold State.trySlot
  repeat' (first
    | with_reducible assumption
    | with_reducible apply State.setCast_kept
    | simp only [kept_mk_iff]
    | with_reducible rfl
    | dsimp only)

theorem State.releaseFlash_kept {cn : Prop} {ql : List Instr} {s : State} : State.Kept cn ql s → State.Kept cn ql (State.releaseFlash s) := by
  intros
  unfold State.releaseFlash
  repeat' (first
    | with_reducible assumption
    | simp only [kept_mk_iff]
    | with_reducible rfl
    | dsimp only)

theorem State.timeFailed_kept {cn : Prop} {ql : List Instr} {s : State} : State.Kept cn ql s → State.Kept cn ql (State.timeFailed s) := by
  intros
  unfold State.timeFailed
  repeat' (first
    | with_reducible assumption
    | with_reducible apply State.takeWord_kept
    | with_reducible apply State.setFld_kept
    | (refine kept_snd (by with_reducible assumption) ?_)
    | split
    | dsimp only)

theorem State.enterFailed_kept {cn : Prop} {ql : List Instr} {s : State} : State.Kept cn ql s → State.Kept cn ql (State.enterFailed s) := by
  intros
  unfold State.enterFailed
  repeat' (first
    | with_reducible assumption
    | with_reducible apply State.releaseFlash_kept
    | with_reducible apply State.timeFailed_kept
    | with_reducible apply State.setPhase_kept
    | with_reducible apply State.setCast_kept
    | simp only [kept_mk_iff]
    | with_reducible rfl
    | dsimp only)

theorem State.chooseSlot_kept {cn : Prop} {ql : List Instr} {s : State} {a b : List Byte} : State.Kept cn ql s → State.Kept cn ql (State.chooseSlot s a b) := by
  intros
  unfold State.chooseSlot
  repeat' (first
    | with_reducible assumption
    | with_reducible apply State.setFlag_kept
    | with_reducible apply State.setFld_kept
    | with_reducible apply State.setCast_kept
    | with_reducible apply State.trySlot_kept
    | with_reducible apply State.enterFailed_kept
    | with_reducible apply kept_ite
    | simp only [kept_mk_iff]
    | with_reducible rfl
    | split
    | dsimp only)

theorem State.claimOutput_kept {cn : Prop} {ql : List Instr} {s : State} {g n i : Nat} : State.Kept cn ql s → State.Kept cn ql (State.claimOutput s g n i) := by
  intros
  unfold State.claimOutput
  repeat' (first
    | with_reducible assumption
    | (refine State.claimOp_kept (by with_reducible assumption) ?_)
    | with_reducible apply State.updNode_kept
    | with_reducible apply State.stitchProto_kept
    | with_reducible apply kept_ite
    | simp only [kept_mk_iff]
    | with_reducible rfl
    | (refine kept_snd (by with_reducible assumption) ?_)
    | split
    | dsimp only)

theorem State.claimOutputs_kept {cn : Prop} {ql : List Instr} {s : State} {g n : Nat} : State.Kept cn ql s → State.Kept cn ql (State.claimOutputs s g n) := by
  intros
  unfold State.claimOutputs
  repeat' (first
    | intro _
    | with_reducible assumption
    | with_reducible apply State.claimOutput_kept
    | with_reducible apply kept_foldl
    | with_reducible apply kept_foldl_snd
    | with_reducible apply kept_ite
    | simp only [kept_mk_iff]
    | with_reducible rfl
    | (refine kept_snd (by with_reducible assumption) ?_)
    | split
    | dsimp only)

theorem State.classAMissed_kept {cn : Prop} {ql : List Instr} {s : State} {k : Nat} : State.Kept cn ql s → State.Kept cn ql (State.classAMissed s k) := by
  intros
  unfold State.classAMissed
  repeat' (first
    | with_reducible assumption
    | with_reducible apply State.raiseIbi_kept
    | with_reducible apply State.setFlag_kept
    | with_reducible apply State.addSat_kept
    | with_reducible apply kept_ite
    | split
    | dsimp only)

theorem State.clearBooks_kept {cn : Prop} {ql : List Instr} {s : State} {x : Nat} {r : Bool} : State.Kept cn ql s → State.Kept cn ql (State.clearBooks s x r) := by
  intros
  unfold State.clearBooks
  repeat' (first
    | with_reducible assumption
    | simp only [kept_mk_iff]
    | with_reducible rfl
    | dsimp only)

theorem State.dropCrossings_kept {cn : Prop} {ql : List Instr} {s : State} {l : List Nat} : State.Kept cn ql s → State.Kept cn ql (State.dropCrossings s l) := by
  intros
  unfold State.dropCrossings
  repeat' (first
    | with_reducible assumption
    | simp only [kept_mk_iff]
    | with_reducible rfl
    | dsimp only)

theorem State.clearCrossings_kept {cn : Prop} {ql : List Instr} {s : State} {l : List Nat} : State.Kept cn ql s → State.Kept cn ql (State.clearCrossings s l) := by
  intros
  unfold State.clearCrossings
  repeat' (first
    | with_reducible assumption
    | with_reducible apply State.dropCrossings_kept
    | simp only [kept_mk_iff]
    | with_reducible rfl
    | dsimp only)

theorem State.clearHostContexts_kept {cn : Prop} {ql : List Instr} {s : State} : State.Kept cn ql s → State.Kept cn ql (State.clearHostContexts s) := by
  intros
  unfold State.clearHostContexts
  repeat' (first
    | with_reducible assumption
    | with_reducible apply State.clearContexts_kept
    | dsimp only)

theorem State.clearPeerDelay_kept {cn : Prop} {ql : List Instr} {s : State} {m : Nat} : State.Kept cn ql s → State.Kept cn ql (State.clearPeerDelay s m) := by
  intros
  unfold State.clearPeerDelay
  repeat' (first
    | with_reducible assumption
    | with_reducible apply State.setReg_kept
    | with_reducible apply State.setFlag_kept
    | with_reducible apply State.setMac_kept
    | simp only [kept_mk_iff]
    | with_reducible rfl
    | dsimp only)

theorem State.clearServoCounts_kept {cn : Prop} {ql : List Instr} {s : State} : State.Kept cn ql s → State.Kept cn ql (State.clearServoCounts s) := by
  intros
  unfold State.clearServoCounts
  repeat' (first
    | with_reducible assumption
    | simp only [kept_mk_iff]
    | with_reducible rfl
    | dsimp only)

theorem State.clearSram_kept {cn : Prop} {ql : List Instr} {s : State} {l : List Nat} : State.Kept cn ql s → State.Kept cn ql (State.clearSram s l) := by
  intro h
  exact ⟨fun c => { h.canonical c with sram := Store.wf_filter 0 _ _ (h.canonical c).sram }, h.queue⟩

theorem State.clearTrackAgents_kept {cn : Prop} {ql : List Instr} {s : State} {m : Nat} : State.Kept cn ql s → State.Kept cn ql (State.clearTrackAgents s m) := by
  intro h
  unfold State.clearTrackAgents
  dsimp only
  split
  · exact State.orProto_kept (fun t e => State.abandonOp_kept e (State.setMarker_kept h)) (State.setMarker_kept h)
  · exact State.setMarker_kept h

theorem State.closeFeed_kept {cn : Prop} {ql : List Instr} {s : State} {n : Nat} : State.Kept cn ql s → State.Kept cn ql (State.closeFeed s n) := by
  intros
  unfold State.closeFeed
  repeat' (first
    | with_reducible assumption
    | with_reducible apply State.setUnit_kept
    | with_reducible apply kept_ite
    | simp only [kept_mk_iff]
    | with_reducible rfl
    | (refine kept_snd (by with_reducible assumption) ?_)
    | split
    | dsimp only)

theorem State.noteCutoff_kept {cn : Prop} {ql : List Instr} {s : State} {c : Stamp} : State.Kept cn ql s → State.Kept cn ql (State.noteCutoff s c) := by
  intros
  unfold State.noteCutoff
  repeat' (first
    | intro _
    | with_reducible assumption
    | with_reducible apply State.setImu_kept
    | with_reducible apply kept_foldl
    | with_reducible apply kept_foldl_snd
    | simp only [kept_mk_iff]
    | with_reducible rfl
    | (refine kept_snd (by with_reducible assumption) ?_)
    | dsimp only)

theorem State.discardDeltas_kept {cn : Prop} {ql : List Instr} {s : State} {cutoff : Stamp} {slot : Option Nat} : State.Kept cn ql s → State.Kept cn ql (State.discardDeltas s cutoff slot) := by
  intros
  unfold State.discardDeltas
  repeat' (first
    | intro _
    | with_reducible assumption
    | with_reducible apply State.addStatus_kept
    | with_reducible apply kept_foldl
    | with_reducible apply kept_foldl_snd
    | with_reducible apply kept_ite
    | simp only [kept_mk_iff]
    | with_reducible rfl
    | (refine kept_snd (by with_reducible assumption) ?_)
    | split
    | dsimp only)

theorem State.takeTargets_kept {cn : Prop} {ql : List Instr} {s : State} {cutoff : Stamp} : State.Kept cn ql s → State.Kept cn ql (State.takeTargets s cutoff) := by
  intros
  unfold State.takeTargets
  repeat' (first
    | with_reducible assumption
    | simp only [kept_mk_iff]
    | with_reducible rfl
    | (refine kept_snd (by with_reducible assumption) ?_)
    | split
    | dsimp only)

theorem State.closeInputs_kept {cn : Prop} {ql : List Instr} {s : State} {k : Nat} {c : Stamp} : State.Kept cn ql s → State.Kept cn ql (State.closeInputs s k c) := by
  intros
  unfold State.closeInputs
  repeat' (first
    | with_reducible assumption
    | with_reducible apply State.noteCutoff_kept
    | with_reducible apply State.strobePath_kept
    | with_reducible apply State.adoptPrior_kept
    | with_reducible apply State.discardDeltas_kept
    | with_reducible apply State.takeTargets_kept
    | simp only [kept_mk_iff]
    | with_reducible rfl
    | (refine kept_snd (by with_reducible assumption) ?_)
    | split
    | dsimp only)

theorem State.closeRecord_kept {cn : Prop} {ql : List Instr} {s : State} {n : Nat} {f : RxFrame} {stamp : Stamp} : State.Kept cn ql s → State.Kept cn ql (State.closeRecord s n f stamp) := by
  intros
  unfold State.closeRecord
  repeat' (first
    | with_reducible assumption
    | with_reducible apply State.setFrameNat_kept
    | dsimp only)

theorem State.mismatch_kept {cn : Prop} {ql : List Instr} {s : State} {period : Nat} {a : SolverResult} : State.Kept cn ql s → State.Kept cn ql (Prod.snd (State.mismatch s period a)) := by
  intros
  unfold State.mismatch
  repeat' (first
    | with_reducible assumption
    | with_reducible apply State.setFlag_kept
    | with_reducible apply State.raiseFault_kept
    | with_reducible apply State.setPair_kept
    | simp only [kept_mk_iff]
    | with_reducible rfl
    | (refine kept_snd (by with_reducible assumption) ?_)
    | split
    | dsimp only)

theorem State.comparePair_kept {cn : Prop} {ql : List Instr} {s : State} : State.Kept cn ql s → State.Kept cn ql (State.comparePair s) := by
  intros
  unfold State.comparePair
  repeat' (first
    | with_reducible assumption
    | with_reducible apply State.mismatch_kept
    | with_reducible apply State.countStatus_kept
    | with_reducible apply State.resumeOther_kept
    | with_reducible apply State.setWork_kept
    | with_reducible apply kept_ite
    | simp only [kept_mk_iff]
    | with_reducible rfl
    | (refine kept_snd (by with_reducible assumption) ?_)
    | split
    | dsimp only)

theorem State.pairDiffer_kept {cn : Prop} {ql : List Instr} {s : State} {c k : Nat} : State.Kept cn ql s → State.Kept cn ql (State.pairDiffer s c k) := by
  intros
  unfold State.pairDiffer
  repeat' (first
    | with_reducible assumption
    | with_reducible apply State.setSolverSlot_kept
    | with_reducible apply kept_ite
    | simp only [kept_mk_iff]
    | with_reducible rfl
    | (refine kept_snd (by with_reducible assumption) ?_)
    | split
    | dsimp only)

theorem State.comparePairs_kept {cn : Prop} {ql : List Instr} {s : State} : State.Kept cn ql s → State.Kept cn ql (State.comparePairs s) := by
  intros
  unfold State.comparePairs
  repeat' (first
    | intro _
    | with_reducible assumption
    | with_reducible apply State.pairDiffer_kept
    | with_reducible apply kept_foldl
    | with_reducible apply kept_foldl_snd
    | with_reducible apply kept_ite
    | (refine kept_snd (by with_reducible assumption) ?_)
    | split
    | dsimp only)

theorem State.completeActivation_kept {cn : Prop} {ql : List Instr} {s : State} {g : Nat} : State.Kept cn ql s → State.Kept cn ql (State.completeActivation s g) := by
  intros
  unfold State.completeActivation
  repeat' (first
    | with_reducible assumption
    | with_reducible apply State.raiseMax_kept
    | with_reducible apply State.beginUpdates_kept
    | with_reducible apply State.setGraph_kept
    | with_reducible apply kept_ite
    | simp only [kept_mk_iff]
    | with_reducible rfl
    | (refine kept_snd (by with_reducible assumption) ?_)
    | split
    | dsimp only)

theorem State.setArena_kept {cn : Prop} {ql : List Instr} {s : State} {key : Nat} {l : List Byte} : State.Kept cn ql s → State.Kept cn ql (State.setArena s key l) := by
  intros
  unfold State.setArena
  repeat' (first
    | with_reducible assumption
    | simp only [kept_mk_iff]
    | with_reducible rfl
    | dsimp only)

theorem State.setSpaceNat_kept {cn : Prop} {ql : List Instr} {s : State} {p : TensorSpace} {a n v : Nat} : State.Kept cn ql s → State.Kept cn ql (State.setSpaceNat s p a n v) := by
  intros
  unfold State.setSpaceNat
  repeat' (first
    | with_reducible assumption
    | with_reducible apply State.setFrameNat_kept
    | with_reducible apply State.setArena_kept
    | with_reducible apply State.setMemBytes_kept
    | simp only [kept_mk_iff]
    | with_reducible rfl
    | (refine kept_snd (by with_reducible assumption) ?_)
    | split
    | dsimp only)

theorem State.setElemCode_kept {cn : Prop} {ql : List Instr} {s : State} {v : TensorView} {h w c code : Nat} : State.Kept cn ql s → State.Kept cn ql (State.setElemCode s v h w c code) := by
  intros
  unfold State.setElemCode
  repeat' (first
    | with_reducible assumption
    | with_reducible apply State.setSpaceNat_kept
    | dsimp only)

theorem State.writeBlock_kept {cn : Prop} {ql : List Instr} {s : State} {v : TensorView} {h w b : Nat} {codes : List Nat} {scale : Nat} : State.Kept cn ql s → State.Kept cn ql (State.writeBlock s v h w b codes scale) := by
  intros
  unfold State.writeBlock
  repeat' (first
    | intro _
    | with_reducible assumption
    | with_reducible apply State.setElemCode_kept
    | with_reducible apply State.setSpaceNat_kept
    | with_reducible apply kept_foldl
    | with_reducible apply kept_foldl_snd
    | with_reducible apply kept_ite
    | (refine kept_snd (by with_reducible assumption) ?_)
    | split
    | dsimp only)

theorem State.geomStep_kept {cn : Prop} {ql : List Instr} {s : State} {x : StepCtx} {nanAt : State → Nat → State} : (∀ t m, t.Kept cn ql → (nanAt t m).Kept cn ql) → s.Kept cn ql → (s.geomStep x nanAt).Kept cn ql := by
  intro hn h
  unfold State.geomStep
  refine kept_foldl h ?_
  intro t m h
  dsimp only
  refine State.writeBlock_kept ?_
  split
  · exact hn _ _ h
  · exact h

theorem State.computeStep_kept {cn : Prop} {ql : List Instr} {s : State} {q : NeuralRun} {x : StepCtx} : State.Kept cn ql s → State.Kept cn ql (State.computeStep s q x) := by
  intros
  unfold State.computeStep
  repeat' (first
    | intro _
    | with_reducible assumption
    | with_reducible apply State.geomStep_kept
    | with_reducible apply State.addSat_kept
    | with_reducible apply State.writeBlock_kept
    | with_reducible apply State.setPair_kept
    | with_reducible apply kept_foldl
    | with_reducible apply kept_foldl_snd
    | with_reducible apply kept_ite
    | (refine kept_snd (by with_reducible assumption) ?_)
    | split
    | dsimp only)

theorem State.setInReset_kept {cn : Prop} {ql : List Instr} {s : State} {l : List Nat} {b : Bool} : State.Kept cn ql s → State.Kept cn ql (State.setInReset s l b) := by
  intros
  unfold State.setInReset
  repeat' (first
    | with_reducible assumption
    | with_reducible apply kept_ite
    | simp only [kept_mk_iff]
    | with_reducible rfl
    | split
    | dsimp only)

theorem State.dropStaged_kept {cn : Prop} {ql : List Instr} {s : State} : State.Kept cn ql s → State.Kept cn ql (State.dropStaged s) := by
  intro h
  have h1 : ((s.setFlag fld_MEM_STATUS_TRAINED false).setFld fld_MEM_OBJ_STATUS_BULK_DROPPED 0).Kept cn ql := State.setFld_kept (State.setFlag_kept h)
  have h2 := State.setInReset_kept (l := [15]) (b := true) (State.setFld_kept (f := fld_PLL_STATUS_LOCK) (v := ((s.setFlag fld_MEM_STATUS_TRAINED false).setFld fld_MEM_OBJ_STATUS_BULK_DROPPED 0).fld fld_PLL_STATUS_LOCK &&& 0xD) h1)
  exact ⟨fun c => { h2.canonical c with sram := rfl, dram := rfl }, h2.queue⟩

theorem State.recordFailure_kept {cn : Prop} {ql : List Instr} {s : State} {b : Bool} {f : SlotFailure} : State.Kept cn ql s → State.Kept cn ql (State.recordFailure s b f) := by
  intros
  unfold State.recordFailure
  repeat' (first
    | with_reducible assumption
    | with_reducible apply State.setFld_kept
    | with_reducible apply State.setFlag_kept
    | with_reducible apply kept_ite
    | split
    | dsimp only)

theorem State.failSlot_kept {cn : Prop} {ql : List Instr} {s : State} {b : Bool} {f : SlotFailure} : State.Kept cn ql s → State.Kept cn ql (State.failSlot s b f) := by
  intros
  unfold State.failSlot
  repeat' (first
    | with_reducible assumption
    | with_reducible apply State.dropStaged_kept
    | with_reducible apply State.recordFailure_kept
    | with_reducible apply State.trySlot_kept
    | with_reducible apply State.enterFailed_kept
    | with_reducible apply kept_ite
    | split
    | dsimp only)

theorem State.concludeHeader_kept {cn : Prop} {ql : List Instr} {s : State} {b : Bool} {block : List Byte} : State.Kept cn ql s → State.Kept cn ql (State.concludeHeader s b block) := by
  intros
  unfold State.concludeHeader
  repeat' (first
    | with_reducible assumption
    | with_reducible apply State.failSlot_kept
    | with_reducible apply State.setCast_kept
    | with_reducible apply kept_ite
    | simp only [kept_mk_iff]
    | with_reducible rfl
    | (refine kept_snd (by with_reducible assumption) ?_)
    | split
    | dsimp only)

theorem State.copyShadows_kept {cn : Prop} {ql : List Instr} {s : State} : State.Kept cn ql s → State.Kept cn ql (State.copyShadows s) := by
  intro h
  refine ⟨fun c => { h.canonical c with shadow := Store.wf_filterMap 0 0 _ ?_ _ (h.canonical c).regs }, h.queue⟩
  intro x y _ e
  dsimp only at e
  split at e
  · contradiction
  · next n => injection e with e; subst e; simp at n; exact ⟨rfl, n.2⟩

theorem State.setGroupPhase_kept {cn : Prop} {ql : List Instr} {s : State} {g : Nat} {p : GroupPhase} : State.Kept cn ql s → State.Kept cn ql (State.setGroupPhase s g p) := by
  intros
  unfold State.setGroupPhase
  repeat' (first
    | with_reducible assumption
    | simp only [kept_mk_iff]
    | with_reducible rfl
    | dsimp only)

theorem State.coreRestored_kept {cn : Prop} {ql : List Instr} {s : State} {c : Nat} : State.Kept cn ql s → State.Kept cn ql (State.coreRestored s c) := by
  intros
  unfold State.coreRestored
  repeat' (first
    | with_reducible assumption
    | with_reducible apply State.regate_kept
    | with_reducible apply State.setGroupPhase_kept
    | with_reducible apply State.comparePairs_kept
    | with_reducible apply kept_ite
    | split
    | dsimp only)

theorem State.countFeatures_kept {cn : Prop} {ql : List Instr} {s : State} : State.Kept cn ql s → State.Kept cn ql (State.countFeatures s) := by
  intros
  unfold State.countFeatures
  repeat' (first
    | with_reducible assumption
    | with_reducible apply State.setFld_kept
    | dsimp only)

theorem State.countNode_kept {cn : Prop} {ql : List Instr} {s : State} {g n code : Nat} : State.Kept cn ql s → State.Kept cn ql (State.countNode s g n code) := by
  intros
  unfold State.countNode
  repeat' (first
    | with_reducible assumption
    | with_reducible apply State.addSat_kept
    | with_reducible apply State.setFlag_kept
    | with_reducible apply State.setFld_kept
    | with_reducible apply State.raiseFault_kept
    | with_reducible apply kept_ite
    | split
    | dsimp only)

theorem State.countObjects_kept {cn : Prop} {ql : List Instr} {s : State} : State.Kept cn ql s → State.Kept cn ql (State.countObjects s) := by
  intros
  unfold State.countObjects
  repeat' (first
    | with_reducible assumption
    | with_reducible apply State.setFld_kept
    | dsimp only)

theorem State.countPages_kept {cn : Prop} {ql : List Instr} {s : State} {x n : Nat} : State.Kept cn ql s → State.Kept cn ql (State.countPages s x n) := by
  intros
  unfold State.countPages
  repeat' (first
    | intro _
    | with_reducible assumption
    | with_reducible apply State.addWrap_kept
    | with_reducible apply kept_foldl
    | with_reducible apply kept_foldl_snd
    | (refine kept_snd (by with_reducible assumption) ?_)
    | dsimp only)

theorem State.countRecordPages_kept {cn : Prop} {ql : List Instr} {s : State} {id page : Nat} : State.Kept cn ql s → State.Kept cn ql (State.countRecordPages s id page) := by
  intros
  unfold State.countRecordPages
  repeat' (first
    | with_reducible assumption
    | with_reducible apply State.addWrap_kept
    | dsimp only)

theorem State.scheduleStart_kept {cn : Prop} {ql : List Instr} {s : State} : State.Kept cn ql s → State.Kept cn ql (State.scheduleStart s) := by
  intros
  unfold State.scheduleStart
  repeat' (first
    | with_reducible assumption
    | with_reducible apply kept_ite
    | simp only [kept_mk_iff]
    | with_reducible rfl
    | split
    | dsimp only)

theorem State.scheduleRestart_kept {cn : Prop} {ql : List Instr} {s : State} : State.Kept cn ql s → State.Kept cn ql (State.scheduleRestart s) := by
  intros
  unfold State.scheduleRestart
  repeat' (first
    | with_reducible assumption
    | with_reducible apply kept_ite
    | simp only [kept_mk_iff]
    | with_reducible rfl
    | split
    | dsimp only)

theorem State.setServo_kept {cn : Prop} {ql : List Instr} {s : State} {v : Nat} : State.Kept cn ql s → State.Kept cn ql (State.setServo s v) := by
  intros
  unfold State.setServo
  repeat' (first
    | with_reducible assumption
    | with_reducible apply State.setFld_kept
    | with_reducible apply State.scheduleStart_kept
    | with_reducible apply State.setFlag_kept
    | with_reducible apply State.scheduleRestart_kept
    | with_reducible apply kept_ite
    | split
    | dsimp only)

theorem State.countRecovery_kept {cn : Prop} {ql : List Instr} {s : State} : State.Kept cn ql s → State.Kept cn ql (State.countRecovery s) := by
  intros
  unfold State.countRecovery
  repeat' (first
    | with_reducible assumption
    | with_reducible apply State.setServo_kept
    | with_reducible apply State.clearServoCounts_kept
    | with_reducible apply kept_ite
    | simp only [kept_mk_iff]
    | with_reducible rfl
    | split
    | dsimp only)

theorem State.countStall_kept {cn : Prop} {ql : List Instr} {s : State} {ns : Nat} : State.Kept cn ql s → State.Kept cn ql (State.countStall s ns) := by
  intros
  unfold State.countStall
  repeat' (first
    | with_reducible assumption
    | with_reducible apply State.addBusy_kept
    | with_reducible apply kept_ite
    | simp only [kept_mk_iff]
    | with_reducible rfl
    | (refine kept_snd (by with_reducible assumption) ?_)
    | split
    | dsimp only)

theorem State.takePlaceResult_kept {cn : Prop} {ql : List Instr} {s : State} {nodes : List Nat} : State.Kept cn ql s → State.Kept cn ql (State.takePlaceResult s nodes) := by
  intros
  unfold State.takePlaceResult
  repeat' (first
    | with_reducible assumption
    | with_reducible apply State.stageCandidate_kept
    | with_reducible apply State.setMap_kept
    | simp only [kept_mk_iff]
    | with_reducible rfl
    | (refine kept_snd (by with_reducible assumption) ?_)
    | split
    | dsimp only)

theorem State.countVotes_kept {cn : Prop} {ql : List Instr} {s : State} {p : PlaceQuery} : State.Kept cn ql s → State.Kept cn ql (State.countVotes s p) := by
  intros
  unfold State.countVotes
  repeat' (first
    | intro _
    | with_reducible assumption
    | with_reducible apply State.addSat_kept
    | with_reducible apply State.takePlaceResult_kept
    | with_reducible apply kept_foldl
    | with_reducible apply kept_foldl_snd
    | with_reducible apply kept_ite
    | simp only [kept_mk_iff]
    | with_reducible rfl
    | (refine kept_snd (by with_reducible assumption) ?_)
    | split
    | dsimp only)

theorem State.odometryInfo_kept {cn : Prop} {ql : List Instr} {s : State} : State.Kept cn ql s → State.Kept cn ql (Prod.snd (State.odometryInfo s)) := by
  intros
  unfold State.odometryInfo
  repeat' (first
    | intro _
    | with_reducible assumption
    | with_reducible apply State.nearFp?_kept
    | with_reducible apply kept_foldl
    | with_reducible apply kept_foldl_snd
    | with_reducible apply kept_ite
    | simp only [kept_mk_iff]
    | with_reducible rfl
    | (refine kept_snd (by with_reducible assumption) ?_)
    | split
    | dsimp only)

theorem State.promoteAround_kept {cn : Prop} {ql : List Instr} {s : State} {tile : Nat} {pose : List Word} : State.Kept cn ql s → State.Kept cn ql (State.promoteAround s tile pose) := by
  intros
  unfold State.promoteAround
  repeat' (first
    | intro _
    | with_reducible assumption
    | with_reducible apply State.dropPin_kept
    | with_reducible apply State.arrive_kept
    | with_reducible apply State.setMap_kept
    | with_reducible apply kept_foldl
    | with_reducible apply kept_foldl_snd
    | simp only [kept_mk_iff]
    | with_reducible rfl
    | (refine kept_snd (by with_reducible assumption) ?_)
    | dsimp only)

set_option maxRecDepth 2000 in
theorem State.createNode_kept {cn : Prop} {ql : List Instr} {s : State} {k : NewNode} : State.Kept cn ql s → State.Kept cn ql (State.createNode s k) := by
  intros
  unfold State.createNode
  repeat' (first
    | with_reducible assumption
    | with_reducible apply State.cellIndex_kept
    | with_reducible apply State.noteRead_kept
    | with_reducible apply State.odometryInfo_kept
    | (refine State.writeTile_kept (by with_reducible assumption) ?_)
    | with_reducible apply State.addSat_kept
    | with_reducible apply State.setMap_kept
    | with_reducible apply State.promoteAround_kept
    | with_reducible apply kept_ite
    | simp only [kept_mk_iff]
    | with_reducible rfl
    | (refine kept_snd (by with_reducible assumption) ?_)
    | split
    | dsimp only)

theorem State.createTile_kept {cn : Prop} {ql : List Instr} {s : State} {id size : Nat} {t : State} : State.createTile s id size = Option.some t → State.Kept cn ql s → State.Kept cn ql t := by
  intro he h
  unfold State.createTile at he
  try dsimp only at he
  repeat' (first
    | contradiction
    | (injection he with he; subst he)
    | split at he)
  all_goals
  repeat' (first
    | with_reducible assumption
    | with_reducible apply State.allocate_kept
    | with_reducible apply State.setObject_kept
    | with_reducible apply kept_ite
    | simp only [kept_mk_iff]
    | with_reducible rfl
    | (refine kept_snd (by with_reducible assumption) ?_)
    | split
    | dsimp only)

theorem State.placeBoundary_kept {cn : Prop} {ql : List Instr} {s : State} {b : Stamp} : State.Kept cn ql s → State.Kept cn ql (State.placeBoundary s b) := by
  intros
  unfold State.placeBoundary
  repeat' (first
    | with_reducible assumption
    | simp only [kept_mk_iff]
    | with_reducible rfl
    | dsimp only)

theorem State.setPeriodNumber_kept {cn : Prop} {ql : List Instr} {s : State} {n : Nat} : State.Kept cn ql s → State.Kept cn ql (State.setPeriodNumber s n) := by
  intros
  unfold State.setPeriodNumber
  repeat' (first
    | with_reducible assumption
    | with_reducible apply State.setPair_kept
    | dsimp only)

theorem State.haltLoop_kept {cn : Prop} {ql : List Instr} {s : State} {why : LoopStop} : State.Kept cn ql s → State.Kept cn ql (State.haltLoop s why) := by
  intros
  unfold State.haltLoop
  repeat' (first
    | with_reducible assumption
    | with_reducible apply State.setFlag_kept
    | simp only [kept_mk_iff]
    | with_reducible rfl
    | dsimp only)

theorem State.setGated_kept {cn : Prop} {ql : List Instr} {s : State} {l : List Nat} {b : Bool} : State.Kept cn ql s → State.Kept cn ql (State.setGated s l b) := by
  intros
  unfold State.setGated
  repeat' (first
    | with_reducible assumption
    | with_reducible apply kept_ite
    | simp only [kept_mk_iff]
    | with_reducible rfl
    | split
    | dsimp only)

theorem State.gateForNap_kept {cn : Prop} {ql : List Instr} {s : State} : State.Kept cn ql s → State.Kept cn ql (State.gateForNap s) := by
  intros
  unfold State.gateForNap
  repeat' (first
    | with_reducible assumption
    | with_reducible apply State.setGated_kept
    | with_reducible apply kept_ite
    | simp only [kept_mk_iff]
    | with_reducible rfl
    | (refine kept_snd (by with_reducible assumption) ?_)
    | split
    | dsimp only)

theorem State.crossBoundary_kept {cn : Prop} {ql : List Instr} {s : State} {b : Stamp} : State.Kept cn ql s → State.Kept cn ql (State.crossBoundary s b) := by
  intros
  unfold State.crossBoundary
  repeat' (first
    | with_reducible assumption
    | with_reducible apply State.checkTiming_kept
    | with_reducible apply State.placeBoundary_kept
    | with_reducible apply State.setPeriodNumber_kept
    | with_reducible apply State.classAMissed_kept
    | with_reducible apply State.haltLoop_kept
    | with_reducible apply State.gateForNap_kept
    | with_reducible apply State.openPeriod_kept
    | with_reducible apply State.loadClassA_kept
    | with_reducible apply State.beginLoop_kept
    | with_reducible apply kept_ite
    | split
    | dsimp only)

theorem State.cutImages_kept {cn : Prop} {ql : List Instr} {s : State} : State.Kept cn ql s → State.Kept cn ql (State.cutImages s) := by
  intros
  unfold State.cutImages
  repeat' (first
    | intro _
    | with_reducible assumption
    | with_reducible apply State.addSat_kept
    | with_reducible apply State.setTx_kept
    | with_reducible apply State.choosePacket_kept
    | with_reducible apply State.setTxPort_kept
    | with_reducible apply kept_foldl
    | with_reducible apply kept_foldl_snd
    | with_reducible apply kept_ite
    | simp only [kept_mk_iff]
    | with_reducible rfl
    | (refine kept_snd (by with_reducible assumption) ?_)
    | split
    | dsimp only)

theorem State.skipPayload_kept {cn : Prop} {ql : List Instr} {s : State} {t : Nat} : State.Kept cn ql s → State.Kept cn ql (State.skipPayload s t) := by
  intros
  unfold State.skipPayload
  repeat' (first
    | with_reducible assumption
    | with_reducible apply State.setTx_kept
    | with_reducible apply State.addSat_kept
    | simp only [kept_mk_iff]
    | with_reducible rfl
    | dsimp only)

theorem State.cutPort_kept {cn : Prop} {ql : List Instr} {s : State} {n : Nat} : State.Kept cn ql s → State.Kept cn ql (State.cutPort s n) := by
  intros
  unfold State.cutPort
  repeat' (first
    | intro _
    | with_reducible assumption
    | with_reducible apply State.endPayload_kept
    | with_reducible apply State.addSat_kept
    | with_reducible apply State.skipPayload_kept
    | with_reducible apply State.setTxPort_kept
    | with_reducible apply kept_foldl
    | with_reducible apply kept_foldl_snd
    | with_reducible apply kept_ite
    | simp only [kept_mk_iff]
    | with_reducible rfl
    | (refine kept_snd (by with_reducible assumption) ?_)
    | split
    | dsimp only)

theorem State.setImuBus_kept {cn : Prop} {ql : List Instr} {s : State} {spi : Bool} {r : Option ImuRead} : State.Kept cn ql s → State.Kept cn ql (State.setImuBus s spi r) := by
  intros
  unfold State.setImuBus
  repeat' (first
    | with_reducible assumption
    | with_reducible apply kept_ite
    | simp only [kept_mk_iff]
    | with_reducible rfl
    | split
    | dsimp only)

theorem State.serveBus_kept {cn : Prop} {ql : List Instr} {s : State} {spi : Bool} : State.Kept cn ql s → State.Kept cn ql (State.serveBus s spi) := by
  intros
  unfold State.serveBus
  repeat' (first
    | intro _
    | with_reducible assumption
    | with_reducible apply State.setImuBus_kept
    | with_reducible apply kept_foldl
    | with_reducible apply kept_foldl_snd
    | with_reducible apply kept_ite
    | simp only [kept_mk_iff]
    | with_reducible rfl
    | (refine kept_snd (by with_reducible assumption) ?_)
    | split
    | dsimp only)

theorem State.dataReady_kept {cn : Prop} {ql : List Instr} {s : State} {n : Nat} {stamp : Stamp} : State.Kept cn ql s → State.Kept cn ql (State.dataReady s n stamp) := by
  intros
  unfold State.dataReady
  repeat' (first
    | with_reducible assumption
    | with_reducible apply State.addSat_kept
    | with_reducible apply State.serveBus_kept
    | with_reducible apply kept_ite
    | simp only [kept_mk_iff]
    | with_reducible rfl
    | (refine kept_snd (by with_reducible assumption) ?_)
    | split
    | dsimp only)

theorem State.declare_kept {cn : Prop} {ql : List Instr} {s : State} {d : Declaration} : State.Kept cn ql s → State.Kept cn ql (State.declare s d) := by
  intros
  unfold State.declare
  repeat' (first
    | with_reducible assumption
    | with_reducible apply State.allocate_kept
    | with_reducible apply State.setObject_kept
    | (refine kept_snd (by with_reducible assumption) ?_)
    | split
    | dsimp only)

theorem State.declareObjects_kept {cn : Prop} {ql : List Instr} {s : State} {l : List (Option Declaration)} : State.Kept cn ql s → State.Kept cn ql (State.declareObjects s l) := by
  intros
  unfold State.declareObjects
  repeat' (first
    | intro _
    | with_reducible assumption
    | with_reducible apply State.declare_kept
    | with_reducible apply State.setFld_kept
    | with_reducible apply State.setFlag_kept
    | with_reducible apply kept_foldl
    | with_reducible apply kept_foldl_snd
    | simp only [kept_mk_iff]
    | with_reducible rfl
    | (refine kept_snd (by with_reducible assumption) ?_)
    | split
    | dsimp only)

theorem State.recordMismatch_kept {cn : Prop} {ql : List Instr} {s : State} {n context : Nat} : State.Kept cn ql s → State.Kept cn ql (State.recordMismatch s n context) := by
  intros
  unfold State.recordMismatch
  repeat' (first
    | with_reducible assumption
    | with_reducible apply State.addSat_kept
    | with_reducible apply State.setFlag_kept
    | with_reducible apply State.raiseFault_kept
    | with_reducible apply kept_ite
    | (refine kept_snd (by with_reducible assumption) ?_)
    | split
    | dsimp only)

theorem State.verify_kept {cn : Prop} {ql : List Instr} {s : State} {n : Nat} {bytes : List Byte} {expected context counter : Nat} : State.Kept cn ql s → State.Kept cn ql (Prod.snd (State.verify s n bytes expected context counter)) := by
  intros
  unfold State.verify
  repeat' (first
    | with_reducible assumption
    | with_reducible apply State.recordResult_kept
    | with_reducible apply State.checkAlive_kept
    | with_reducible apply State.recordMismatch_kept
    | with_reducible apply kept_ite
    | (refine kept_snd (by with_reducible assumption) ?_)
    | split
    | dsimp only)

theorem State.decodeCommand_kept {cn : Prop} {ql : List Instr} {s : State} {d : Nat} {bytes : List Byte} {checksum : Bool} {arrival : Stamp} : State.Kept cn ql s → State.Kept cn ql (State.decodeCommand s d bytes checksum arrival) := by
  intros
  unfold State.decodeCommand
  repeat' (first
    | with_reducible assumption
    | with_reducible apply State.addStatus_kept
    | with_reducible apply State.verify_kept
    | with_reducible apply State.addSat_kept
    | with_reducible apply kept_ite
    | simp only [kept_mk_iff]
    | with_reducible rfl
    | (refine kept_snd (by with_reducible assumption) ?_)
    | split
    | dsimp only)

theorem State.deliver_kept {cn : Prop} {ql : List Instr} {s : State} {m : CrossingMessage} : State.Kept cn ql s → State.Kept cn ql (State.deliver s m) := by
  intros
  unfold State.deliver
  repeat' (first
    | intro _
    | with_reducible assumption
    | with_reducible apply State.checkHalf_kept
    | with_reducible apply kept_foldl
    | with_reducible apply kept_foldl_snd
    | with_reducible apply kept_ite
    | simp only [kept_mk_iff]
    | with_reducible rfl
    | (refine kept_snd (by with_reducible assumption) ?_)
    | split
    | dsimp only)

theorem State.dirtyArena_kept {cn : Prop} {ql : List Instr} {s : State} {p : Nat} {v : TensorView} : State.Kept cn ql s → State.Kept cn ql (State.dirtyArena s p v) := by
  intros
  unfold State.dirtyArena
  repeat' (first
    | with_reducible assumption
    | with_reducible apply State.setObject_kept
    | simp only [kept_mk_iff]
    | with_reducible rfl
    | (refine kept_snd (by with_reducible assumption) ?_)
    | split
    | dsimp only)

theorem State.discardFrame_kept {cn : Prop} {ql : List Instr} {s : State} {n : Nat} {stamp : Stamp} : State.Kept cn ql s → State.Kept cn ql (State.discardFrame s n stamp) := by
  intros
  unfold State.discardFrame
  repeat' (first
    | intro _
    | with_reducible assumption
    | with_reducible apply State.pairFrame_kept
    | with_reducible apply State.addSat_kept
    | with_reducible apply kept_foldl
    | with_reducible apply kept_foldl_snd
    | (refine kept_snd (by with_reducible assumption) ?_)
    | dsimp only)

theorem State.writeLines_kept {cn : Prop} {ql : List Instr} {s : State} {g : Gray} {first last : Nat} {line : Nat → List Byte} : State.Kept cn ql s → State.Kept cn ql (State.writeLines s g first last line) := by
  intros
  unfold State.writeLines
  repeat' (first
    | intro _
    | with_reducible assumption
    | with_reducible apply State.setFrameBytes_kept
    | with_reducible apply kept_foldl
    | with_reducible apply kept_foldl_snd
    | (refine kept_snd (by with_reducible assumption) ?_)
    | dsimp only)

theorem State.pyramidPlanesTo_kept {cn : Prop} {ql : List Instr} {s : State} {src : Gray} {progress : List ((Nat × Nat × Nat) × Nat × Nat)} : State.Kept cn ql s → State.Kept cn ql (State.pyramidPlanesTo s src progress) := by
  intro h
  induction progress generalizing s src with
  | nil => exact h
  | cons d r ih =>
    obtain ⟨⟨n, set, l⟩, a, b⟩ := d
    unfold State.pyramidPlanesTo
    exact ih (kept_foldl h (fun _ _ h => State.buildLine_kept h))

theorem State.doBand_kept {cn : Prop} {ql : List Instr} {s : State} {d : NodeDesc} {r : NodeRun} {a b : Nat} : State.Kept cn ql s → State.Kept cn ql (State.doBand s d r a b) := by
  intros
  unfold State.doBand
  repeat' (first
    | with_reducible assumption
    | with_reducible apply State.writeLines_kept
    | with_reducible apply State.pyramidPlanesTo_kept
    | with_reducible apply kept_ite
    | split
    | dsimp only)

theorem State.takeMessage_kept {cn : Prop} {ql : List Instr} {s : State} {n : Nat} : State.Kept cn ql s → State.Kept cn ql (State.takeMessage s n) := by
  intros
  unfold State.takeMessage
  repeat' (first
    | with_reducible assumption
    | with_reducible apply State.deliver_kept
    | with_reducible apply kept_ite
    | simp only [kept_mk_iff]
    | with_reducible rfl
    | (refine kept_snd (by with_reducible assumption) ?_)
    | split
    | dsimp only)

theorem State.drainPort_kept {cn : Prop} {ql : List Instr} {s : State} {n : Nat} : State.Kept cn ql s → State.Kept cn ql (State.drainPort s n) := by
  intros
  unfold State.drainPort
  repeat' (first
    | intro _
    | with_reducible assumption
    | with_reducible apply State.takeMessage_kept
    | with_reducible apply kept_foldl
    | with_reducible apply kept_foldl_snd
    | with_reducible apply kept_ite
    | (refine kept_snd (by with_reducible assumption) ?_)
    | split
    | dsimp only)

theorem State.drainPorts_kept {cn : Prop} {ql : List Instr} {s : State} : State.Kept cn ql s → State.Kept cn ql (State.drainPorts s) := by
  intros
  unfold State.drainPorts
  repeat' (first
    | intro _
    | with_reducible assumption
    | with_reducible apply State.drainPort_kept
    | with_reducible apply kept_foldl
    | with_reducible apply kept_foldl_snd
    | (refine kept_snd (by with_reducible assumption) ?_)
    | dsimp only)

theorem State.freeRecord_kept {cn : Prop} {ql : List Instr} {s : State} {id : Nat} {old : Option TileRecord} : State.Kept cn ql s → State.Kept cn ql (State.freeRecord s id old) := by
  intros
  unfold State.freeRecord
  repeat' (first
    | with_reducible assumption
    | with_reducible apply State.appendJournal_kept
    | simp only [kept_mk_iff]
    | with_reducible rfl
    | (refine kept_snd (by with_reducible assumption) ?_)
    | split
    | dsimp only)

theorem State.offerTile_kept {cn : Prop} {ql : List Instr} {s : State} {tile gen : Nat} {bytes : List Byte} : State.Kept cn ql s → State.Kept cn ql (State.offerTile s tile gen bytes) := by
  intros
  unfold State.offerTile
  repeat' (first
    | with_reducible assumption
    | with_reducible apply State.setTileRoom_kept
    | with_reducible apply kept_ite
    | simp only [kept_mk_iff]
    | with_reducible rfl
    | (refine kept_snd (by with_reducible assumption) ?_)
    | split
    | dsimp only)

theorem State.writeRecord_kept {cn : Prop} {ql : List Instr} {s : State} {id : Nat} {o : MemObject} {first : Nat} {bytes : List Byte} : State.Kept cn ql s → State.Kept cn ql (Prod.snd (State.writeRecord s id o first bytes)) := by
  intro h
  unfold State.writeRecord
  dsimp only
  have h1 : ∀ a l b, ({ s with mem := { s.mem with recordBytes := Store.setMany 0 s.mem.recordBytes a l, recordBad := b } } : State).Kept cn ql :=
    fun a l b => ⟨fun c => { h.canonical c with records := Store.wf_setMany 0 l _ _ (h.canonical c).records }, h.queue⟩
  repeat' (first
    | with_reducible exact h1 _ _ _
    | with_reducible apply State.offerTile_kept
    | with_reducible apply State.freeRecord_kept
    | with_reducible apply State.appendJournal_kept
    | with_reducible apply State.setObject_kept
    | simp only [kept_mk_iff]
    | split)

theorem State.rewriteRecord_kept {cn : Prop} {ql : List Instr} {s : State} {id off : Nat} {o : MemObject} {data : List Byte} : State.Kept cn ql s → State.Kept cn ql (State.rewriteRecord s id off o data) := by
  intros
  unfold State.rewriteRecord
  repeat' (first
    | intro _
    | with_reducible assumption
    | (refine State.programRecord_kept (by with_reducible assumption) ?_)
    | with_reducible apply State.writeRecord_kept
    | with_reducible apply State.beginRecord_kept
    | with_reducible apply kept_foldl
    | with_reducible apply kept_foldl_snd
    | simp only [kept_mk_iff]
    | with_reducible rfl
    | (refine kept_snd (by with_reducible assumption) ?_)
    | split
    | dsimp only)

theorem State.serveAccess_kept {cn : Prop} {ql : List Instr} {s : State} {a : HeldAccess} : State.Kept cn ql s → State.Kept cn ql (State.serveAccess s a) := by
  intros
  unfold State.serveAccess
  repeat' (first
    | with_reducible assumption
    | with_reducible apply State.growObject_kept
    | with_reducible apply State.answerAccess_kept
    | with_reducible apply State.holdAccess_kept
    | with_reducible apply State.touch_kept
    | with_reducible apply State.rewriteRecord_kept
    | with_reducible apply State.writeObject_kept
    | with_reducible apply State.readRange_kept
    | with_reducible apply kept_ite
    | simp only [kept_mk_iff]
    | with_reducible rfl
    | (refine kept_snd (by with_reducible assumption) ?_)
    | split
    | dsimp only)

theorem State.serveHeld_kept {cn : Prop} {ql : List Instr} {s : State} {pick : HeldAccess → Bool} : State.Kept cn ql s → State.Kept cn ql (State.serveHeld s pick) := by
  intros
  unfold State.serveHeld
  repeat' (first
    | intro _
    | with_reducible assumption
    | with_reducible apply State.serveAccess_kept
    | with_reducible apply kept_foldl
    | with_reducible apply kept_foldl_snd
    | simp only [kept_mk_iff]
    | with_reducible rfl
    | (refine kept_snd (by with_reducible assumption) ?_)
    | dsimp only)

theorem State.endLease_kept {cn : Prop} {ql : List Instr} {s : State} {r : MoverRequest} {code : Nat} : State.Kept cn ql s → State.Kept cn ql (State.endLease s r code) := by
  intros
  unfold State.endLease
  repeat' (first
    | with_reducible assumption
    | with_reducible apply State.settleManager_kept
    | with_reducible apply State.finish_kept
    | with_reducible apply State.setTileRoom_kept
    | with_reducible apply State.serveWaiting_kept
    | with_reducible apply State.serveHeld_kept
    | simp only [kept_mk_iff]
    | with_reducible rfl
    | dsimp only)

theorem State.endMove_kept {cn : Prop} {ql : List Instr} {s : State} {code : Nat} : State.Kept cn ql s → State.Kept cn ql (State.endMove s code) := by
  intros
  unfold State.endMove
  repeat' (first
    | with_reducible assumption
    | with_reducible apply State.endLease_kept
    | simp only [kept_mk_iff]
    | with_reducible rfl
    | (refine kept_snd (by with_reducible assumption) ?_)
    | split
    | dsimp only)

theorem State.dropChannelMove_kept {cn : Prop} {ql : List Instr} {s : State} {c : Nat} : State.Kept cn ql s → State.Kept cn ql (State.dropChannelMove s c) := by
  intros
  unfold State.dropChannelMove
  repeat' (first
    | with_reducible assumption
    | with_reducible apply State.endMove_kept
    | with_reducible apply kept_ite
    | simp only [kept_mk_iff]
    | with_reducible rfl
    | (refine kept_snd (by with_reducible assumption) ?_)
    | split
    | dsimp only)

theorem State.dropClassA_kept {cn : Prop} {ql : List Instr} {s : State} : State.Kept cn ql s → State.Kept cn ql (State.dropClassA s) := by
  intros
  unfold State.dropClassA
  repeat' (first
    | with_reducible assumption
    | simp only [kept_mk_iff]
    | with_reducible rfl
    | (refine kept_snd (by with_reducible assumption) ?_)
    | split
    | dsimp only)

theorem State.dropDueUpdates_kept {cn : Prop} {ql : List Instr} {s : State} {g : Nat} : State.Kept cn ql s → State.Kept cn ql (State.dropDueUpdates s g) := by
  intros
  unfold State.dropDueUpdates
  repeat' (first
    | with_reducible assumption
    | with_reducible apply State.dropUpdates_kept
    | dsimp only)

theorem State.tellRequester_kept {cn : Prop} {ql : List Instr} {s : State} {requester : Nat} {job : List Byte} {n : VerifierNotice} : State.Kept cn ql s → State.Kept cn ql (State.tellRequester s requester job n) := by
  intros
  unfold State.tellRequester
  repeat' (first
    | with_reducible assumption
    | simp only [kept_mk_iff]
    | with_reducible rfl
    | dsimp only)

theorem State.dropJobs_kept {cn : Prop} {ql : List Instr} {s : State} : State.Kept cn ql s → State.Kept cn ql (State.dropJobs s) := by
  intros
  unfold State.dropJobs
  repeat' (first
    | intro _
    | with_reducible assumption
    | with_reducible apply State.tellRequester_kept
    | with_reducible apply kept_foldl
    | with_reducible apply kept_foldl_snd
    | simp only [kept_mk_iff]
    | with_reducible rfl
    | (refine kept_snd (by with_reducible assumption) ?_)
    | dsimp only)

theorem State.dropLow_kept {cn : Prop} {ql : List Instr} {s : State} {port a : Nat} : State.Kept cn ql s → State.Kept cn ql (State.dropLow s port a) := by
  intros
  unfold State.dropLow
  repeat' (first
    | with_reducible assumption
    | simp only [kept_mk_iff]
    | with_reducible rfl
    | dsimp only)

theorem State.freeObject_kept {cn : Prop} {ql : List Instr} {s : State} {slot : Nat} : State.Kept cn ql s → State.Kept cn ql (State.freeObject s slot) := by
  intros
  unfold State.freeObject
  repeat' (first
    | with_reducible assumption
    | with_reducible apply State.addWrap_kept
    | with_reducible apply State.setObjectTrack_kept
    | simp only [kept_mk_iff]
    | with_reducible rfl
    | dsimp only)

theorem State.dropOld_kept {cn : Prop} {ql : List Instr} {s : State} {tov : Int} : State.Kept cn ql s → State.Kept cn ql (State.dropOld s tov) := by
  intros
  unfold State.dropOld
  repeat' (first
    | intro _
    | with_reducible assumption
    | with_reducible apply State.freeObject_kept
    | with_reducible apply kept_foldl
    | with_reducible apply kept_foldl_snd
    | with_reducible apply kept_ite
    | (refine kept_snd (by with_reducible assumption) ?_)
    | split
    | dsimp only)

theorem State.returnTile_kept {cn : Prop} {ql : List Instr} {s : State} {id : Nat} {o : MemObject} : State.Kept cn ql s → State.Kept cn ql (State.returnTile s id o) := by
  intros
  unfold State.returnTile
  repeat' (first
    | with_reducible assumption
    | with_reducible apply State.addSat_kept
    | with_reducible apply State.setObject_kept
    | simp only [kept_mk_iff]
    | with_reducible rfl
    | (refine kept_snd (by with_reducible assumption) ?_)
    | split
    | dsimp only)

theorem State.emptyPool_kept {cn : Prop} {ql : List Instr} {s : State} : State.Kept cn ql s → State.Kept cn ql (State.emptyPool s) := by
  intros
  unfold State.emptyPool
  repeat' (first
    | intro _
    | with_reducible assumption
    | with_reducible apply State.returnTile_kept
    | with_reducible apply State.endLease_kept
    | with_reducible apply State.settleManager_kept
    | with_reducible apply kept_foldl
    | with_reducible apply kept_foldl_snd
    | with_reducible apply kept_ite
    | simp only [kept_mk_iff]
    | with_reducible rfl
    | (refine kept_snd (by with_reducible assumption) ?_)
    | split
    | dsimp only)

theorem State.updRun_kept {cn : Prop} {ql : List Instr} {s : State} {g n : Nat} {f : NeuralRun → NeuralRun} : State.Kept cn ql s → State.Kept cn ql (State.updRun s g n f) := by
  intros
  unfold State.updRun
  repeat' (first
    | with_reducible assumption
    | with_reducible apply kept_ite
    | simp only [kept_mk_iff]
    | with_reducible rfl
    | split
    | dsimp only)

theorem State.runPasses_kept {cn : Prop} {ql : List Instr} {s : State} {q : NeuralRun} {x : StepCtx} {g n : Nat} {ks : List Nat} : State.Kept cn ql s → State.Kept cn ql (State.runPasses s q x g n ks) := by
  intros
  unfold State.runPasses
  repeat' (first
    | intro _
    | with_reducible assumption
    | with_reducible apply State.updRun_kept
    | with_reducible apply kept_foldl
    | with_reducible apply kept_foldl_snd
    | simp only [kept_mk_iff]
    | with_reducible rfl
    | (refine kept_snd (by with_reducible assumption) ?_)
    | dsimp only)

theorem State.endPasses_kept {cn : Prop} {ql : List Instr} {s : State} {q : NeuralRun} {d : NodeDesc} {r : NodeRun} {g last : Nat} : State.Kept cn ql s → State.Kept cn ql (State.endPasses s q d r g last) := by
  intros
  unfold State.endPasses
  repeat' (first
    | intro _
    | with_reducible assumption
    | with_reducible apply State.runPasses_kept
    | with_reducible apply kept_foldl
    | with_reducible apply kept_foldl_snd
    | (refine kept_snd (by with_reducible assumption) ?_)
    | dsimp only)

theorem State.endAllPasses_kept {cn : Prop} {ql : List Instr} {s : State} {q : NeuralRun} {d : NodeDesc} {r : NodeRun} : State.Kept cn ql s → State.Kept cn ql (State.endAllPasses s q d r) := by
  intros
  unfold State.endAllPasses
  repeat' (first
    | intro _
    | with_reducible assumption
    | with_reducible apply State.endPasses_kept
    | with_reducible apply kept_foldl
    | with_reducible apply kept_foldl_snd
    | simp only [kept_mk_iff]
    | with_reducible rfl
    | (refine kept_snd (by with_reducible assumption) ?_)
    | dsimp only)

theorem State.endNode_kept {cn : Prop} {ql : List Instr} {s : State} {g n code : Nat} : State.Kept cn ql s → State.Kept cn ql (State.endNode s g n code) := by
  intros
  unfold State.endNode
  repeat' (first
    | with_reducible assumption
    | with_reducible apply State.completeActivation_kept
    | with_reducible apply State.countNode_kept
    | with_reducible apply State.closeNode_kept
    | dsimp only)

theorem State.endEngines_kept {cn : Prop} {ql : List Instr} {s : State} {n : Nat} : State.Kept cn ql s → State.Kept cn ql (State.endEngines s n) := by
  intros
  unfold State.endEngines
  repeat' (first
    | intro _
    | with_reducible assumption
    | with_reducible apply State.endNode_kept
    | with_reducible apply kept_foldl
    | with_reducible apply kept_foldl_snd
    | simp only [kept_mk_iff]
    | with_reducible rfl
    | (refine kept_snd (by with_reducible assumption) ?_)
    | split
    | dsimp only)

theorem State.endEntry_kept {cn : Prop} {ql : List Instr} {s : State} : State.Kept cn ql s → State.Kept cn ql (State.endEntry s) := by
  intros
  unfold State.endEntry
  repeat' (first
    | with_reducible assumption
    | with_reducible apply State.setTransition_kept
    | with_reducible apply State.setPower_kept
    | with_reducible apply State.beginWake_kept
    | with_reducible apply kept_ite
    | simp only [kept_mk_iff]
    | with_reducible rfl
    | (refine kept_snd (by with_reducible assumption) ?_)
    | split
    | dsimp only)

theorem State.showEstimate_kept {cn : Prop} {ql : List Instr} {s : State} {avg : Rat} {hot : Int} : State.Kept cn ql s → State.Kept cn ql (State.showEstimate s avg hot) := by
  intros
  unfold State.showEstimate
  repeat' (first
    | with_reducible assumption
    | with_reducible apply State.takeBit_kept
    | with_reducible apply State.setFld_kept
    | (refine kept_snd (by with_reducible assumption) ?_)
    | split
    | dsimp only)

theorem State.endInterval_kept {cn : Prop} {ql : List Instr} {s : State} {p : Rat} {raw : List Int} : State.Kept cn ql s → State.Kept cn ql (State.endInterval s p raw) := by
  intros
  unfold State.endInterval
  repeat' (first
    | with_reducible assumption
    | with_reducible apply State.addWrap_kept
    | with_reducible apply State.applyDecision_kept
    | with_reducible apply State.showEstimate_kept
    | with_reducible apply kept_ite
    | simp only [kept_mk_iff]
    | with_reducible rfl
    | split
    | dsimp only)

theorem State.endLoad_kept {cn : Prop} {ql : List Instr} {s : State} {l : SolverLoad} : State.Kept cn ql s → State.Kept cn ql (State.endLoad s l) := by
  intros
  unfold State.endLoad
  repeat' (first
    | intro _
    | with_reducible assumption
    | with_reducible apply State.noteRead_kept
    | with_reducible apply State.analyseSlot_kept
    | with_reducible apply State.dropPin_kept
    | with_reducible apply State.tell_kept
    | with_reducible apply kept_foldl
    | with_reducible apply kept_foldl_snd
    | with_reducible apply kept_ite
    | simp only [kept_mk_iff]
    | with_reducible rfl
    | (refine kept_snd (by with_reducible assumption) ?_)
    | split
    | dsimp only)

theorem State.failRequest_kept {cn : Prop} {ql : List Instr} {s : State} {q : NeuralRun} {code : Nat} : State.Kept cn ql s → State.Kept cn ql (State.failRequest s q code) := by
  intros
  unfold State.failRequest
  repeat' (first
    | intro _
    | with_reducible assumption
    | with_reducible apply State.updNode_kept
    | with_reducible apply State.addSat_kept
    | with_reducible apply kept_foldl
    | with_reducible apply kept_foldl_snd
    | with_reducible apply kept_ite
    | simp only [kept_mk_iff]
    | with_reducible rfl
    | (refine kept_snd (by with_reducible assumption) ?_)
    | split
    | dsimp only)

theorem State.endRequest_kept {cn : Prop} {ql : List Instr} {s : State} {q : NeuralRun} : State.Kept cn ql s → State.Kept cn ql (State.endRequest s q) := by
  intros
  unfold State.endRequest
  repeat' (first
    | with_reducible assumption
    | with_reducible apply State.failRequest_kept
    | with_reducible apply State.removeRequest_kept
    | with_reducible apply State.endNode_kept
    | simp only [kept_mk_iff]
    | with_reducible rfl
    | (refine kept_snd (by with_reducible assumption) ?_)
    | split
    | dsimp only)

theorem State.endReset_kept {cn : Prop} {ql : List Instr} {s : State} {warm : Bool} : State.Kept cn ql s → State.Kept cn ql (State.endReset s warm) := by
  intros
  unfold State.endReset
  repeat' (first
    | with_reducible assumption
    | with_reducible apply State.setFld_kept
    | with_reducible apply State.addSat_kept
    | with_reducible apply kept_ite
    | simp only [kept_mk_iff]
    | with_reducible rfl
    | split
    | dsimp only)

theorem State.endStep_kept {cn : Prop} {ql : List Instr} {s : State} {q : NeuralRun} {d : NodeDesc} {r : NodeRun} : State.Kept cn ql s → State.Kept cn ql (State.endStep s q d r) := by
  intros
  unfold State.endStep
  repeat' (first
    | with_reducible assumption
    | with_reducible apply State.endAllPasses_kept
    | with_reducible apply State.dirtyArena_kept
    | with_reducible apply State.computeStep_kept
    | with_reducible apply State.updRun_kept
    | with_reducible apply State.updNode_kept
    | with_reducible apply kept_ite
    | simp only [kept_mk_iff]
    | with_reducible rfl
    | (refine kept_snd (by with_reducible assumption) ?_)
    | split
    | dsimp only)

theorem State.enterFrame_kept {cn : Prop} {ql : List Instr} {s : State} {e : EstimateEntry} {b : List Byte} : State.Kept cn ql s → State.Kept cn ql (State.enterFrame s e b) := by
  intros
  unfold State.enterFrame
  repeat' (first
    | intro _
    | with_reducible assumption
    | with_reducible apply State.setWindow_kept
    | with_reducible apply kept_foldl
    | with_reducible apply kept_foldl_snd
    | with_reducible apply kept_ite
    | simp only [kept_mk_iff]
    | with_reducible rfl
    | (refine kept_snd (by with_reducible assumption) ?_)
    | split
    | dsimp only)

theorem State.enterGrid_kept {cn : Prop} {ql : List Instr} {s : State} {b : Stamp} : State.Kept cn ql s → State.Kept cn ql (State.enterGrid s b) := by
  intros
  unfold State.enterGrid
  repeat' (first
    | with_reducible assumption
    | with_reducible apply State.placeBoundary_kept
    | with_reducible apply State.haltLoop_kept
    | with_reducible apply State.beginPeriod_kept
    | with_reducible apply State.beginLoop_kept
    | with_reducible apply kept_ite
    | split
    | dsimp only)

theorem State.stopForReset_kept {cn : Prop} {ql : List Instr} {s : State} : State.Kept cn ql s → State.Kept cn ql (State.stopForReset s) := by
  intros
  unfold State.stopForReset
  repeat' (first
    | with_reducible assumption
    | with_reducible apply State.dropClassA_kept
    | with_reducible apply State.setMac_kept
    | with_reducible apply State.haltLoop_kept
    | with_reducible apply kept_ite
    | simp only [kept_mk_iff]
    | with_reducible rfl
    | split
    | dsimp only)

theorem State.resetVision_kept {cn : Prop} {ql : List Instr} {s : State} : State.Kept cn ql s → State.Kept cn ql (State.resetVision s) := by
  intros
  unfold State.resetVision
  repeat' (first
    | with_reducible assumption
    | simp only [kept_mk_iff]
    | with_reducible rfl
    | dsimp only)

theorem State.resetGroup1_kept {cn : Prop} {ql : List Instr} {s : State} : State.Kept cn ql s → State.Kept cn ql (State.resetGroup1 s) := by
  intros
  unfold State.resetGroup1
  repeat' (first
    | with_reducible assumption
    | with_reducible apply State.cutImages_kept
    | with_reducible apply State.resetVision_kept
    | simp only [kept_mk_iff]
    | with_reducible rfl
    | dsimp only)

theorem State.resetVerifier_kept {cn : Prop} {ql : List Instr} {s : State} : State.Kept cn ql s → State.Kept cn ql (State.resetVerifier s) := by
  intros
  unfold State.resetVerifier
  repeat' (first
    | with_reducible assumption
    | with_reducible apply State.dropJobs_kept
    | with_reducible apply State.admitLoop_kept
    | simp only [kept_mk_iff]
    | with_reducible rfl
    | (refine kept_snd (by with_reducible assumption) ?_)
    | split
    | dsimp only)

theorem State.resetTracking_kept {cn : Prop} {ql : List Instr} {s : State} : State.Kept cn ql s → State.Kept cn ql (State.resetTracking s) := by
  intros
  unfold State.resetTracking
  repeat' (first
    | intro _
    | with_reducible assumption
    | with_reducible apply State.clearTrackAgents_kept
    | with_reducible apply kept_foldl
    | with_reducible apply kept_foldl_snd
    | simp only [kept_mk_iff]
    | with_reducible rfl
    | (refine kept_snd (by with_reducible assumption) ?_)
    | dsimp only)

theorem State.resetSlots_kept {cn : Prop} {ql : List Instr} {s : State} {c : Nat} : State.Kept cn ql s → State.Kept cn ql (State.resetSlots s c) := by
  intros
  unfold State.resetSlots
  repeat' (first
    | with_reducible assumption
    | simp only [kept_mk_iff]
    | with_reducible rfl
    | dsimp only)

theorem State.resetSolv0_kept {cn : Prop} {ql : List Instr} {s : State} : State.Kept cn ql s → State.Kept cn ql (State.resetSolv0 s) := by
  intros
  unfold State.resetSolv0
  repeat' (first
    | with_reducible assumption
    | with_reducible apply State.resetSlots_kept
    | simp only [kept_mk_iff]
    | with_reducible rfl
    | dsimp only)

theorem State.resetPlace_kept {cn : Prop} {ql : List Instr} {s : State} : State.Kept cn ql s → State.Kept cn ql (State.resetPlace s) := by
  intros
  unfold State.resetPlace
  repeat' (first
    | with_reducible assumption
    | with_reducible apply State.endQueries_kept
    | simp only [kept_mk_iff]
    | with_reducible rfl
    | dsimp only)

theorem State.resetSolv1_kept {cn : Prop} {ql : List Instr} {s : State} : State.Kept cn ql s → State.Kept cn ql (State.resetSolv1 s) := by
  intros
  unfold State.resetSolv1
  repeat' (first
    | with_reducible assumption
    | with_reducible apply State.resetSlots_kept
    | with_reducible apply State.resetPlace_kept
    | simp only [kept_mk_iff]
    | with_reducible rfl
    | dsimp only)

theorem State.flushLaunch_kept {cn : Prop} {ql : List Instr} {s : State} {m : Nat} : State.Kept cn ql s → State.Kept cn ql (State.flushLaunch s m) := by
  intros
  unfold State.flushLaunch
  repeat' (first
    | with_reducible assumption
    | with_reducible apply State.addSat_kept
    | with_reducible apply State.setMac_kept
    | simp only [kept_mk_iff]
    | with_reducible rfl
    | dsimp only)

theorem State.selectMaster_kept {cn : Prop} {ql : List Instr} {s : State} : State.Kept cn ql s → State.Kept cn ql (State.selectMaster s) := by
  intros
  unfold State.selectMaster
  repeat' (first
    | with_reducible assumption
    | with_reducible apply State.setFlag_kept
    | with_reducible apply State.setPair_kept
    | with_reducible apply State.setFld_kept
    | with_reducible apply State.addSat_kept
    | with_reducible apply State.raiseIbi_kept
    | with_reducible apply kept_ite
    | simp only [kept_mk_iff]
    | with_reducible rfl
    | (refine kept_snd (by with_reducible assumption) ?_)
    | split
    | dsimp only)

theorem State.forgetAnnounce_kept {cn : Prop} {ql : List Instr} {s : State} {m : Nat} : State.Kept cn ql s → State.Kept cn ql (State.forgetAnnounce s m) := by
  intros
  unfold State.forgetAnnounce
  repeat' (first
    | with_reducible assumption
    | with_reducible apply State.selectMaster_kept
    | simp only [kept_mk_iff]
    | with_reducible rfl
    | dsimp only)

theorem State.loseLink_kept {cn : Prop} {ql : List Instr} {s : State} {m : Nat} : State.Kept cn ql s → State.Kept cn ql (State.loseLink s m) := by
  intros
  unfold State.loseLink
  repeat' (first
    | with_reducible assumption
    | with_reducible apply State.setFld_kept
    | with_reducible apply State.setFlag_kept
    | with_reducible apply State.forgetAnnounce_kept
    | with_reducible apply State.clearPeerDelay_kept
    | dsimp only)

theorem State.resetEthPort_kept {cn : Prop} {ql : List Instr} {s : State} {m : Nat} : State.Kept cn ql s → State.Kept cn ql (State.resetEthPort s m) := by
  intros
  unfold State.resetEthPort
  repeat' (first
    | with_reducible assumption
    | with_reducible apply State.addSat_kept
    | with_reducible apply State.flushLaunch_kept
    | with_reducible apply State.setMac_kept
    | with_reducible apply State.setFlag_kept
    | with_reducible apply State.loseLink_kept
    | simp only [kept_mk_iff]
    | with_reducible rfl
    | dsimp only)

theorem State.resetEth_kept {cn : Prop} {ql : List Instr} {s : State} : State.Kept cn ql s → State.Kept cn ql (State.resetEth s) := by
  intros
  unfold State.resetEth
  repeat' (first
    | with_reducible assumption
    | with_reducible apply State.resetEthPort_kept
    | dsimp only)

theorem State.resetImu_kept {cn : Prop} {ql : List Instr} {s : State} : State.Kept cn ql s → State.Kept cn ql (State.resetImu s) := by
  intros
  unfold State.resetImu
  repeat' (first
    | with_reducible assumption
    | simp only [kept_mk_iff]
    | with_reducible rfl
    | dsimp only)

theorem State.resetCommands_kept {cn : Prop} {ql : List Instr} {s : State} : State.Kept cn ql s → State.Kept cn ql (State.resetCommands s) := by
  intros
  unfold State.resetCommands
  repeat' (first
    | with_reducible assumption
    | simp only [kept_mk_iff]
    | with_reducible rfl
    | dsimp only)

theorem State.resetTransmit_kept {cn : Prop} {ql : List Instr} {s : State} : State.Kept cn ql s → State.Kept cn ql (State.resetTransmit s) := by
  intros
  unfold State.resetTransmit
  repeat' (first
    | intro _
    | with_reducible assumption
    | with_reducible apply State.endPayload_kept
    | with_reducible apply State.setTx_kept
    | with_reducible apply kept_foldl
    | with_reducible apply kept_foldl_snd
    | simp only [kept_mk_iff]
    | with_reducible rfl
    | (refine kept_snd (by with_reducible assumption) ?_)
    | dsimp only)

theorem State.resetHost_kept {cn : Prop} {ql : List Instr} {s : State} : State.Kept cn ql s → State.Kept cn ql (State.resetHost s) := by
  intros
  unfold State.resetHost
  repeat' (first
    | with_reducible assumption
    | with_reducible apply State.abandonFeeder_kept
    | with_reducible apply State.clearHostContexts_kept
    | with_reducible apply State.resetCommands_kept
    | with_reducible apply State.resetTransmit_kept
    | simp only [kept_mk_iff]
    | with_reducible rfl
    | dsimp only)

theorem State.resetCore_kept {cn : Prop} {ql : List Instr} {s : State} {c : Nat} : State.Kept cn ql s → State.Kept cn ql (State.resetCore s c) := by
  intros
  unfold State.resetCore
  repeat' (first
    | intro _
    | with_reducible assumption
    | with_reducible apply State.endRequest_kept
    | with_reducible apply State.dispatch_kept
    | with_reducible apply kept_foldl
    | with_reducible apply kept_foldl_snd
    | simp only [kept_mk_iff]
    | with_reducible rfl
    | (refine kept_snd (by with_reducible assumption) ?_)
    | dsimp only)

theorem State.resetNand_kept {cn : Prop} {ql : List Instr} {s : State} {c : Nat} : State.Kept cn ql s → State.Kept cn ql (State.resetNand s c) := by
  intros
  unfold State.resetNand
  repeat' (first
    | with_reducible assumption
    | with_reducible apply State.endQueries_kept
    | with_reducible apply State.stopImport_kept
    | with_reducible apply State.setFlag_kept
    | with_reducible apply kept_ite
    | simp only [kept_mk_iff]
    | with_reducible rfl
    | split
    | dsimp only)

theorem State.resetUnits_kept {cn : Prop} {ql : List Instr} {s : State} {g : Nat} : State.Kept cn ql s → State.Kept cn ql (State.resetUnits s g) := by
  intros
  unfold State.resetUnits
  repeat' (first
    | with_reducible assumption
    | with_reducible apply State.resetGroup1_kept
    | with_reducible apply State.endEngines_kept
    | with_reducible apply State.resetVerifier_kept
    | with_reducible apply State.emptyPool_kept
    | with_reducible apply State.resetTracking_kept
    | with_reducible apply State.resetSolv0_kept
    | with_reducible apply State.resetSolv1_kept
    | with_reducible apply State.resetEth_kept
    | with_reducible apply State.resetImu_kept
    | with_reducible apply State.resetHost_kept
    | with_reducible apply State.resetCore_kept
    | with_reducible apply State.dropChannelMove_kept
    | with_reducible apply State.resetNand_kept
    | with_reducible apply kept_ite
    | split
    | dsimp only)

theorem State.releasePins_kept {cn : Prop} {ql : List Instr} {s : State} {holder : Nat} : State.Kept cn ql s → State.Kept cn ql (State.releasePins s holder) := by
  intros
  unfold State.releasePins
  repeat' (first
    | with_reducible assumption
    | simp only [kept_mk_iff]
    | with_reducible rfl
    | dsimp only)

theorem State.enterReset_kept {cn : Prop} {ql : List Instr} {s : State} {g : Nat} : State.Kept cn ql s → State.Kept cn ql (State.enterReset s g) := by
  intros
  unfold State.enterReset
  repeat' (first
    | intro _
    | with_reducible assumption
    | with_reducible apply State.stopForReset_kept
    | with_reducible apply State.setGated_kept
    | with_reducible apply State.setInReset_kept
    | with_reducible apply State.setGroupPhase_kept
    | with_reducible apply State.clearCrossings_kept
    | with_reducible apply State.resetUnits_kept
    | with_reducible apply State.clearSram_kept
    | with_reducible apply State.releasePins_kept
    | with_reducible apply kept_foldl
    | with_reducible apply kept_foldl_snd
    | with_reducible apply kept_ite
    | (refine kept_snd (by with_reducible assumption) ?_)
    | split
    | dsimp only)

theorem State.enterState_kept {cn : Prop} {ql : List Instr} {s : State} {code : Nat} : State.Kept cn ql s → State.Kept cn ql (State.enterState s code) := by
  intros
  unfold State.enterState
  repeat' (first
    | with_reducible assumption
    | with_reducible apply State.setFld_kept
    | with_reducible apply State.addSat_kept
    | with_reducible apply kept_ite
    | split
    | dsimp only)

theorem State.expireAnnounces_kept {cn : Prop} {ql : List Instr} {s : State} : State.Kept cn ql s → State.Kept cn ql (State.expireAnnounces s) := by
  intros
  unfold State.expireAnnounces
  repeat' (first
    | intro _
    | with_reducible assumption
    | with_reducible apply State.selectMaster_kept
    | with_reducible apply kept_foldl
    | with_reducible apply kept_foldl_snd
    | simp only [kept_mk_iff]
    | with_reducible rfl
    | (refine kept_snd (by with_reducible assumption) ?_)
    | split
    | dsimp only)

theorem State.extendAssembly_kept {cn : Prop} {ql : List Instr} {s : State} {b : CommandBody} : State.Kept cn ql s → State.Kept cn ql (State.extendAssembly s b) := by
  intros
  unfold State.extendAssembly
  repeat' (first
    | with_reducible assumption
    | with_reducible apply State.answerBody_kept
    | with_reducible apply State.setAssembly_kept
    | with_reducible apply kept_ite
    | simp only [kept_mk_iff]
    | with_reducible rfl
    | (refine kept_snd (by with_reducible assumption) ?_)
    | split
    | dsimp only)

theorem State.pivotFailed_kept {cn : Prop} {ql : List Instr} {s : State} {c : Nat} {t : Structure} {p : Problem} {j : Nat} : State.Kept cn ql s → State.Kept cn ql (State.pivotFailed s c t p j) := by
  intros
  unfold State.pivotFailed
  repeat' (first
    | with_reducible assumption
    | with_reducible apply State.conclude_kept
    | with_reducible apply State.discardFactor_kept
    | simp only [kept_mk_iff]
    | with_reducible rfl
    | dsimp only)

theorem State.installFactor_kept {cn : Prop} {ql : List Instr} {s : State} {c k : Nat} {t : Structure} {f : Factor} : State.Kept cn ql s → State.Kept cn ql (State.installFactor s c k t f) := by
  intros
  unfold State.installFactor
  repeat' (first
    | with_reducible assumption
    | with_reducible apply State.setSolverSlot_kept
    | with_reducible apply kept_ite
    | simp only [kept_mk_iff]
    | with_reducible rfl
    | split
    | dsimp only)

theorem State.factorisationEnds_kept {cn : Prop} {ql : List Instr} {s : State} {c cycles : Nat} {t : Structure} {p : Problem} : State.Kept cn ql s → State.Kept cn ql (State.factorisationEnds s c cycles t p) := by
  intros
  unfold State.factorisationEnds
  repeat' (first
    | with_reducible assumption
    | with_reducible apply State.spend_kept
    | with_reducible apply State.pivotFailed_kept
    | with_reducible apply State.goOn_kept
    | with_reducible apply State.installFactor_kept
    | with_reducible apply kept_ite
    | simp only [kept_mk_iff]
    | with_reducible rfl
    | (refine kept_snd (by with_reducible assumption) ?_)
    | split
    | dsimp only)

theorem State.failBoth_kept {cn : Prop} {ql : List Instr} {s : State} : State.Kept cn ql s → State.Kept cn ql (State.failBoth s) := by
  intros
  unfold State.failBoth
  repeat' (first
    | with_reducible assumption
    | with_reducible apply State.enterFailed_kept
    | with_reducible apply State.bothResults_kept
    | dsimp only)

theorem State.failCurrent_kept {cn : Prop} {ql : List Instr} {s : State} {f : SlotFailure} : State.Kept cn ql s → State.Kept cn ql (State.failCurrent s f) := by
  intros
  unfold State.failCurrent
  repeat' (first
    | with_reducible assumption
    | with_reducible apply State.failSlot_kept
    | simp only [kept_mk_iff]
    | with_reducible rfl
    | (refine kept_snd (by with_reducible assumption) ?_)
    | split
    | dsimp only)

theorem State.openMessage_kept {cn : Prop} {ql : List Instr} {s : State} {n : Nat} {m : CheckMessage} : State.Kept cn ql s → State.Kept cn ql (State.openMessage s n m) := by
  intros
  unfold State.openMessage
  repeat' (first
    | with_reducible assumption
    | with_reducible apply State.setUnit_kept
    | with_reducible apply kept_ite
    | simp only [kept_mk_iff]
    | with_reducible rfl
    | (refine kept_snd (by with_reducible assumption) ?_)
    | split
    | dsimp only)

theorem State.feedControl_kept {cn : Prop} {ql : List Instr} {s : State} {n : Nat} {d : Word} : State.Kept cn ql s → State.Kept cn ql (State.feedControl s n d) := by
  intros
  unfold State.feedControl
  repeat' (first
    | with_reducible assumption
    | with_reducible apply State.openMessage_kept
    | with_reducible apply State.closeFeed_kept
    | with_reducible apply kept_ite
    | simp only [kept_mk_iff]
    | with_reducible rfl
    | split
    | dsimp only)

theorem State.feedData_kept {cn : Prop} {ql : List Instr} {s : State} {n : Nat} {d : Word} : State.Kept cn ql s → State.Kept cn ql (State.feedData s n d) := by
  intros
  unfold State.feedData
  repeat' (first
    | with_reducible assumption
    | with_reducible apply State.setUnit_kept
    | with_reducible apply kept_ite
    | simp only [kept_mk_iff]
    | with_reducible rfl
    | (refine kept_snd (by with_reducible assumption) ?_)
    | split
    | dsimp only)

theorem State.newQuery_kept {cn : Prop} {ql : List Instr} {s : State} {source : QuerySource} {classC : Bool} {b : List Byte} : State.Kept cn ql s → State.Kept cn ql (Prod.snd (State.newQuery s source classC b)) := by
  intros
  unfold State.newQuery
  repeat' (first
    | with_reducible assumption
    | simp only [kept_mk_iff]
    | with_reducible rfl
    | dsimp only)

theorem State.submitQuery_kept {cn : Prop} {ql : List Instr} {s : State} {source : QuerySource} {classC bad : Bool} {b : List Byte} : State.Kept cn ql s → State.Kept cn ql (State.submitQuery s source classC bad b) := by
  intros
  unfold State.submitQuery
  repeat' (first
    | with_reducible assumption
    | with_reducible apply State.newQuery_kept
    | with_reducible apply State.endQuery_kept
    | with_reducible apply kept_ite
    | simp only [kept_mk_iff]
    | with_reducible rfl
    | (refine kept_snd (by with_reducible assumption) ?_)
    | split
    | dsimp only)

theorem State.probeEntry_kept {cn : Prop} {ql : List Instr} {s : State} {p : ProbeRun} : State.Kept cn ql s → State.Kept cn ql (State.probeEntry s p) := by
  intros
  unfold State.probeEntry
  repeat' (first
    | with_reducible assumption
    | with_reducible apply State.checkWords_kept
    | with_reducible apply State.submitQuery_kept
    | simp only [kept_mk_iff]
    | with_reducible rfl
    | dsimp only)

theorem State.feedProbe_kept {cn : Prop} {ql : List Instr} {s : State} {a : Nat} : State.Kept cn ql s → State.Kept cn ql (State.feedProbe s a) := by
  intro h
  induction a generalizing s with
  | zero => exact h
  | succ n ih =>
    unfold State.feedProbe
    split
    · split
      · exact ih (State.probeEntry_kept h)
      · exact h
    · exact h

theorem State.finishQp_kept {cn : Prop} {ql : List Instr} {s : State} {c : Nat} {t : Structure} {p : Problem} {v : Solve} : State.Kept cn ql s → State.Kept cn ql (State.finishQp s c t p v) := by
  intros
  unfold State.finishQp
  repeat' (first
    | with_reducible assumption
    | with_reducible apply State.conclude_kept
    | with_reducible apply kept_ite
    | simp only [kept_mk_iff]
    | with_reducible rfl
    | split
    | dsimp only)

theorem State.finishNls_kept {cn : Prop} {ql : List Instr} {s : State} {c : Nat} {t : Structure} {p : Problem} {v : Solve} : State.Kept cn ql s → State.Kept cn ql (State.finishNls s c t p v) := by
  intros
  unfold State.finishNls
  repeat' (first
    | with_reducible assumption
    | with_reducible apply State.conclude_kept
    | with_reducible apply State.assembleNls_kept
    | with_reducible apply State.pivotFailed_kept
    | with_reducible apply State.installFactor_kept
    | with_reducible apply kept_ite
    | simp only [kept_mk_iff]
    | with_reducible rfl
    | (refine kept_snd (by with_reducible assumption) ?_)
    | split
    | dsimp only)

theorem State.finalCheckEnds_kept {cn : Prop} {ql : List Instr} {s : State} {c cycles : Nat} {t : Structure} {p : Problem} {v : Solve} : State.Kept cn ql s → State.Kept cn ql (State.finalCheckEnds s c cycles t p v) := by
  intros
  unfold State.finalCheckEnds
  repeat' (first
    | with_reducible assumption
    | with_reducible apply State.spend_kept
    | with_reducible apply State.finishQp_kept
    | with_reducible apply State.finishNls_kept
    | with_reducible apply State.conclude_kept
    | with_reducible apply State.checkFailed_kept
    | with_reducible apply kept_ite
    | simp only [kept_mk_iff]
    | with_reducible rfl
    | (refine kept_snd (by with_reducible assumption) ?_)
    | split
    | dsimp only)

theorem State.offerNumbered_kept {cn : Prop} {ql : List Instr} {s : State} {o : TxOffer} : State.Kept cn ql s → State.Kept cn ql (State.offerNumbered s o) := by
  intros
  unfold State.offerNumbered
  repeat' (first
    | with_reducible assumption
    | with_reducible apply State.setTx_kept
    | with_reducible apply State.offer_kept
    | with_reducible apply kept_ite
    | simp only [kept_mk_iff]
    | with_reducible rfl
    | split
    | dsimp only)

theorem State.offerImage_kept {cn : Prop} {ql : List Instr} {s : State} {m gen : Nat} : State.Kept cn ql s → State.Kept cn ql (State.offerImage s m gen) := by
  intros
  unfold State.offerImage
  repeat' (first
    | intro _
    | with_reducible assumption
    | with_reducible apply State.offerNumbered_kept
    | with_reducible apply kept_foldl
    | with_reducible apply kept_foldl_snd
    | simp only [kept_mk_iff]
    | with_reducible rfl
    | (refine kept_snd (by with_reducible assumption) ?_)
    | split
    | dsimp only)

theorem State.publishOp_kept {cn : Prop} {ql : List Instr} {s : State} {m agent : Nat} {t : State} : State.publishOp s m agent = Option.some t → State.Kept cn ql s → State.Kept cn ql t := by
  intro he h
  unfold State.publishOp at he
  try dsimp only at he
  repeat' (first
    | contradiction
    | (injection he with he; subst he)
    | split at he)
  all_goals
  repeat' (first
    | with_reducible assumption
    | with_reducible apply State.setMarker_kept
    | with_reducible apply State.offerImage_kept
    | with_reducible apply State.settle_kept
    | with_reducible apply kept_ite
    | simp only [kept_mk_iff]
    | with_reducible rfl
    | split
    | dsimp only)

theorem State.publishOutput_kept {cn : Prop} {ql : List Instr} {s : State} {g n i count : Nat} : State.Kept cn ql s → State.Kept cn ql (State.publishOutput s g n i count) := by
  intros
  unfold State.publishOutput
  repeat' (first
    | intro _
    | with_reducible assumption
    | with_reducible apply State.setFrameBytes_kept
    | with_reducible apply State.orProto_kept
    | (refine State.publishOp_kept (by with_reducible assumption) ?_)
    | with_reducible apply kept_foldl
    | with_reducible apply kept_foldl_snd
    | with_reducible apply kept_ite
    | simp only [kept_mk_iff]
    | with_reducible rfl
    | (refine kept_snd (by with_reducible assumption) ?_)
    | split
    | dsimp only)

theorem State.finishNode_kept {cn : Prop} {ql : List Instr} {s : State} {e g n count : Nat} : State.Kept cn ql s → State.Kept cn ql (State.finishNode s e g n count) := by
  intros
  unfold State.finishNode
  repeat' (first
    | with_reducible assumption
    | with_reducible apply State.publishOutput_kept
    | with_reducible apply State.checkInputs_kept
    | with_reducible apply State.addWrap_kept
    | with_reducible apply State.updNode_kept
    | simp only [kept_mk_iff]
    | with_reducible rfl
    | dsimp only)

theorem State.settleInit_kept {cn : Prop} {ql : List Instr} {s : State} : State.Kept cn ql s → State.Kept cn ql (State.settleInit s) := by
  intros
  unfold State.settleInit
  repeat' (first
    | intro _
    | with_reducible assumption
    | with_reducible apply State.setFlag_kept
    | with_reducible apply kept_foldl
    | with_reducible apply kept_foldl_snd
    | with_reducible apply kept_ite
    | simp only [kept_mk_iff]
    | with_reducible rfl
    | (refine kept_snd (by with_reducible assumption) ?_)
    | split
    | dsimp only)

theorem State.startInit_kept {cn : Prop} {ql : List Instr} {s : State} : State.Kept cn ql s → State.Kept cn ql (State.startInit s) := by
  intros
  unfold State.startInit
  repeat' (first
    | intro _
    | with_reducible assumption
    | with_reducible apply State.setFlag_kept
    | with_reducible apply State.settleInit_kept
    | with_reducible apply kept_foldl
    | with_reducible apply kept_foldl_snd
    | with_reducible apply kept_ite
    | simp only [kept_mk_iff]
    | with_reducible rfl
    | (refine kept_snd (by with_reducible assumption) ?_)
    | split
    | dsimp only)

theorem State.recheck_kept {cn : Prop} {ql : List Instr} {s : State} {g : Nat} : State.Kept cn ql s → State.Kept cn ql (State.recheck s g) := by
  intros
  unfold State.recheck
  repeat' (first
    | with_reducible assumption
    | with_reducible apply State.checkVision_kept
    | with_reducible apply State.checkTracking_kept
    | with_reducible apply State.startInit_kept
    | with_reducible apply kept_ite
    | split
    | dsimp only)

theorem State.restoreData_kept {cn : Prop} {ql : List Instr} {s : State} {l : List Nat} : State.Kept cn ql s → State.Kept cn ql (State.restoreData s l) := by
  intro h
  exact ⟨fun c => { h.canonical c with sram := Store.wf_foldl_set 0 _ _ _ (fun n x w => Store.wf_set 0 _ _ _ w) (h.canonical c).sram }, h.queue⟩

theorem State.finishRestore_kept {cn : Prop} {ql : List Instr} {s : State} {g : Nat} : State.Kept cn ql s → State.Kept cn ql (State.finishRestore s g) := by
  intros
  unfold State.finishRestore
  repeat' (first
    | with_reducible assumption
    | with_reducible apply State.recheck_kept
    | with_reducible apply State.restoreData_kept
    | with_reducible apply State.coreRestored_kept
    | with_reducible apply State.setGroupPhase_kept
    | with_reducible apply State.serveWaiting_kept
    | with_reducible apply State.drainPorts_kept
    | with_reducible apply State.takeSteps_kept
    | with_reducible apply State.regate_kept
    | with_reducible apply kept_ite
    | split
    | dsimp only)

theorem State.setSgm_kept {cn : Prop} {ql : List Instr} {s : State} {e : Nat} {a : SgmStore} : State.Kept cn ql s → State.Kept cn ql (State.setSgm s e a) := by
  intros
  unfold State.setSgm
  repeat' (first
    | with_reducible assumption
    | simp only [kept_mk_iff]
    | with_reducible rfl
    | dsimp only)

theorem State.finishSgm_kept {cn : Prop} {ql : List Instr} {s : State} {e g n : Nat} {r : NodeRun} {disp : Gray} : State.Kept cn ql s → State.Kept cn ql (State.finishSgm s e g n r disp) := by
  intros
  unfold State.finishSgm
  repeat' (first
    | with_reducible assumption
    | with_reducible apply State.publishOutput_kept
    | with_reducible apply State.checkInputs_kept
    | with_reducible apply State.updNode_kept
    | with_reducible apply State.raiseMax_kept
    | with_reducible apply State.setSgm_kept
    | simp only [kept_mk_iff]
    | with_reducible rfl
    | dsimp only)

theorem State.floatDescriptor_kept {cn : Prop} {ql : List Instr} {s : State} {g : Gray} {c : Corner} {m : Int × Int} : State.Kept cn ql s → State.Kept cn ql (Prod.snd (State.floatDescriptor s g c m)) := by
  intro h
  unfold State.floatDescriptor
  dsimp only
  split
  · exact State.takeBit_kept h
  · exact kept_foldl_snd (State.takeBit_kept h) (fun _ _ h => State.takeWord_kept h)

theorem State.followSeries_kept {cn : Prop} {ql : List Instr} {s : State} {t : Stamp} : State.Kept cn ql s → State.Kept cn ql (State.followSeries s t) := by
  intro h
  unfold State.followSeries
  dsimp only
  split
  · exact kept_mk (State.setFlag_kept (f := fld_SNAP_STATUS_PENDING) (b := false) h) rfl rfl rfl rfl rfl rfl rfl rfl
  · exact kept_mk h rfl rfl rfl rfl rfl rfl rfl rfl

theorem State.stopTimeComes_kept {cn : Prop} {ql : List Instr} {s : State} {w : PeriodWork} : State.Kept cn ql s → State.Kept cn ql (State.stopTimeComes s w) := by
  intros
  unfold State.stopTimeComes
  repeat' (first
    | with_reducible assumption
    | with_reducible apply State.abandonUpdate_kept
    | with_reducible apply State.stopProblem_kept
    | with_reducible apply kept_ite
    | simp only [kept_mk_iff]
    | with_reducible rfl
    | (refine kept_snd (by with_reducible assumption) ?_)
    | split
    | dsimp only)

theorem State.forceResult_kept {cn : Prop} {ql : List Instr} {s : State} {w : PeriodWork} : State.Kept cn ql s → State.Kept cn ql (State.forceResult s w) := by
  intros
  unfold State.forceResult
  repeat' (first
    | with_reducible assumption
    | with_reducible apply State.comparePair_kept
    | with_reducible apply State.stopClassA_kept
    | with_reducible apply State.stopTimeComes_kept
    | with_reducible apply State.resumeOther_kept
    | with_reducible apply State.setWork_kept
    | with_reducible apply kept_ite
    | simp only [kept_mk_iff]
    | with_reducible rfl
    | (refine kept_snd (by with_reducible assumption) ?_)
    | split
    | dsimp only)

theorem State.formPlace_kept {cn : Prop} {ql : List Instr} {s : State} {obj count : Nat} {deadline : Stamp} : State.Kept cn ql s → State.Kept cn ql (State.formPlace s obj count deadline) := by
  intros
  unfold State.formPlace
  repeat' (first
    | intro _
    | with_reducible assumption
    | with_reducible apply State.noteRead_kept
    | with_reducible apply State.submitQuery_kept
    | with_reducible apply State.newQuery_kept
    | with_reducible apply State.endQuery_kept
    | with_reducible apply kept_foldl
    | with_reducible apply kept_foldl_snd
    | with_reducible apply kept_ite
    | simp only [kept_mk_iff]
    | with_reducible rfl
    | (refine kept_snd (by with_reducible assumption) ?_)
    | split
    | dsimp only)

theorem State.freeMac_kept {cn : Prop} {ql : List Instr} {s : State} {m : Nat} : State.Kept cn ql s → State.Kept cn ql (State.freeMac s m) := by
  intros
  unfold State.freeMac
  repeat' (first
    | with_reducible assumption
    | with_reducible apply State.setMac_kept
    | simp only [kept_mk_iff]
    | with_reducible rfl
    | dsimp only)

theorem State.freeWords_kept {cn : Prop} {ql : List Instr} {s : State} {n : Nat} : State.Kept cn ql s → State.Kept cn ql (Prod.snd (State.freeWords s n)) := by
  intros
  unfold State.freeWords
  repeat' (first
    | with_reducible assumption
    | with_reducible apply State.takeBytes_kept
    | dsimp only)

theorem State.freshResults_kept {cn : Prop} {ql : List Instr} {s : State} : State.Kept cn ql s → State.Kept cn ql (State.freshResults s) := by
  intros
  unfold State.freshResults
  repeat' (first
    | with_reducible assumption
    | simp only [kept_mk_iff]
    | with_reducible rfl
    | dsimp only)

theorem State.setFeature_kept {cn : Prop} {ql : List Instr} {s : State} {slot : Nat} {v : FeatureTrack} : State.Kept cn ql s → State.Kept cn ql (State.setFeature s slot v) := by
  intros
  unfold State.setFeature
  repeat' (first
    | with_reducible assumption
    | simp only [kept_mk_iff]
    | with_reducible rfl
    | dsimp only)

theorem State.giveDepth_kept {cn : Prop} {ql : List Instr} {s : State} {f : FeatureSet} {u : TrackUpdate} {slot : Nat} : State.Kept cn ql s → State.Kept cn ql (State.giveDepth s f u slot) := by
  intros
  unfold State.giveDepth
  repeat' (first
    | with_reducible assumption
    | with_reducible apply State.nearFp?_kept
    | with_reducible apply State.setFeature_kept
    | simp only [kept_mk_iff]
    | with_reducible rfl
    | (refine kept_snd (by with_reducible assumption) ?_)
    | split
    | dsimp only)

theorem State.setNode_kept {cn : Prop} {ql : List Instr} {s : State} {node c : Nat} {v : Bool × Nat} : State.Kept cn ql s → State.Kept cn ql (State.setNode s node c v) := by
  intros
  unfold State.setNode
  repeat' (first
    | with_reducible assumption
    | simp only [kept_mk_iff]
    | with_reducible rfl
    | dsimp only)

theorem State.takeFlit_kept {cn : Prop} {ql : List Instr} {s : State} {f : FaultFlit} : State.Kept cn ql s → State.Kept cn ql (State.takeFlit s f) := by
  intros
  unfold State.takeFlit
  repeat' (first
    | with_reducible assumption
    | simp only [kept_mk_iff]
    | with_reducible rfl
    | dsimp only)

theorem State.sendFlit_kept {cn : Prop} {ql : List Instr} {s : State} {f : FaultFlit} : State.Kept cn ql s → State.Kept cn ql (State.sendFlit s f) := by
  intros
  unfold State.sendFlit
  repeat' (first
    | with_reducible assumption
    | simp only [kept_mk_iff]
    | with_reducible rfl
    | dsimp only)

theorem State.handleFlit_kept {cn : Prop} {ql : List Instr} {s : State} {node : Nat} {f : FaultFlit} : State.Kept cn ql s → State.Kept cn ql (State.handleFlit s node f) := by
  intros
  unfold State.handleFlit
  repeat' (first
    | with_reducible assumption
    | with_reducible apply State.setNode_kept
    | with_reducible apply State.takeFlit_kept
    | with_reducible apply State.sendFlit_kept
    | with_reducible apply kept_ite
    | simp only [kept_mk_iff]
    | with_reducible rfl
    | (refine kept_snd (by with_reducible assumption) ?_)
    | split
    | dsimp only)

theorem State.hibernate_kept {cn : Prop} {ql : List Instr} {s : State} : State.Kept cn ql s → State.Kept cn ql (State.hibernate s) := by
  intros
  unfold State.hibernate
  repeat' (first
    | with_reducible assumption
    | with_reducible apply State.blank_kept
    | simp only [kept_mk_iff]
    | with_reducible rfl
    | dsimp only)

theorem State.holdLow_kept {cn : Prop} {ql : List Instr} {s : State} {port a : Nat} {data : Word} : State.Kept cn ql s → State.Kept cn ql (State.holdLow s port a data) := by
  intros
  unfold State.holdLow
  repeat' (first
    | with_reducible assumption
    | simp only [kept_mk_iff]
    | with_reducible rfl
    | dsimp only)

theorem State.holdOp_kept {cn : Prop} {ql : List Instr} {s : State} {m agent : Nat} {t : State} : State.holdOp s m agent = Option.some t → State.Kept cn ql s → State.Kept cn ql t := by
  intro he h
  unfold State.holdOp at he
  try dsimp only at he
  repeat' (first
    | contradiction
    | (injection he with he; subst he)
    | split at he)
  all_goals
  repeat' (first
    | with_reducible assumption
    | with_reducible apply State.setMarker_kept
    | with_reducible apply kept_ite
    | simp only [kept_mk_iff]
    | with_reducible rfl
    | (refine kept_snd (by with_reducible assumption) ?_)
    | split
    | dsimp only)

theorem State.stageTout_kept {cn : Prop} {ql : List Instr} {s : State} {a : Nat} {mask data : Word} : State.Kept cn ql s → State.Kept cn ql (State.stageTout s a mask data) := by
  intros
  unfold State.stageTout
  repeat' (first
    | with_reducible assumption
    | simp only [kept_mk_iff]
    | with_reducible rfl
    | dsimp only)

theorem State.putWord_kept {cn : Prop} {ql : List Instr} {s : State} {a : Nat} {mask data : Word} : State.Kept cn ql s → State.Kept cn ql (State.putWord s a mask data) := by
  intros
  unfold State.putWord
  repeat' (first
    | with_reducible assumption
    | with_reducible apply State.stageTout_kept
    | with_reducible apply State.applyWrite_kept
    | with_reducible apply kept_ite
    | split
    | dsimp only)

theorem State.writePair_kept {cn : Prop} {ql : List Instr} {s : State} {port a : Nat} {data : Word} : State.Kept cn ql s → State.Kept cn ql (State.writePair s port a data) := by
  intros
  unfold State.writePair
  repeat' (first
    | with_reducible assumption
    | with_reducible apply State.putWord_kept
    | with_reducible apply State.dropLow_kept
    | simp only [kept_mk_iff]
    | with_reducible rfl
    | (refine kept_snd (by with_reducible assumption) ?_)
    | split
    | dsimp only)

theorem nextOr_kept {cn : Prop} {ql : List Instr} {s : State} {o : Host.Outcome State Fault Refusal} : (∀ t, o = .next t → t.Kept cn ql) → s.Kept cn ql → (nextOr s o).Kept cn ql := by
  intro ho h
  unfold nextOr
  split
  · exact ho _ rfl
  · exact h

theorem execSwReset_kept {cn : Prop} {ql : List Instr} {data : Word} {s t : State} : execSwReset data s = Host.Outcome.next t → State.Kept cn ql s → State.Kept cn ql t := by
  intro he h
  unfold execSwReset at he
  try dsimp only at he
  repeat' (first
    | contradiction
    | (injection he with he; subst he)
    | split at he)
  all_goals
  repeat' (first
    | with_reducible assumption
    | with_reducible apply State.askReset_kept
    | with_reducible apply kept_ite
    | simp only [kept_mk_iff]
    | with_reducible rfl
    | (refine kept_snd (by with_reducible assumption) ?_)
    | split
    | dsimp only)

theorem State.wakeEvent_kept {cn : Prop} {ql : List Instr} {s : State} {t : PowerState} : State.Kept cn ql s → State.Kept cn ql (State.wakeEvent s t) := by
  intros
  unfold State.wakeEvent
  repeat' (first
    | with_reducible assumption
    | with_reducible apply State.setPower_kept
    | with_reducible apply State.beginWake_kept
    | with_reducible apply kept_ite
    | simp only [kept_mk_iff]
    | with_reducible rfl
    | (refine kept_snd (by with_reducible assumption) ?_)
    | split
    | dsimp only)

theorem State.powerRequest_kept {cn : Prop} {ql : List Instr} {s : State} {t : PowerState} : State.Kept cn ql s → State.Kept cn ql (State.powerRequest s t) := by
  intros
  unfold State.powerRequest
  repeat' (first
    | with_reducible assumption
    | with_reducible apply State.wakeEvent_kept
    | with_reducible apply State.askHibernate_kept
    | with_reducible apply State.beginEntry_kept
    | with_reducible apply State.beginWake_kept
    | with_reducible apply kept_ite
    | simp only [kept_mk_iff]
    | with_reducible rfl
    | (refine kept_snd (by with_reducible assumption) ?_)
    | split
    | dsimp only)

theorem State.writePowerRequest_kept {cn : Prop} {ql : List Instr} {s : State} {data : Word} : State.Kept cn ql s → State.Kept cn ql (State.writePowerRequest s data) := by
  intros
  unfold State.writePowerRequest
  repeat' (first
    | with_reducible assumption
    | with_reducible apply State.powerRequest_kept
    | simp only [kept_mk_iff]
    | with_reducible rfl
    | (refine kept_snd (by with_reducible assumption) ?_)
    | split
    | dsimp only)

theorem execRstCtrlWarm_kept {cn : Prop} {ql : List Instr} {data : Word} {s t : State} : execRstCtrlWarm data s = Host.Outcome.next t → State.Kept cn ql s → State.Kept cn ql t := by
  intro he h
  unfold execRstCtrlWarm at he
  try dsimp only at he
  repeat' (first
    | contradiction
    | (injection he with he; subst he)
    | split at he)
  all_goals
  repeat' (first
    | with_reducible assumption
    | with_reducible apply State.beginWarm_kept
    | with_reducible apply kept_ite
    | simp only [kept_mk_iff]
    | with_reducible rfl
    | (refine kept_snd (by with_reducible assumption) ?_)
    | split
    | dsimp only)

theorem execWdogChipKick_kept {cn : Prop} {ql : List Instr} {data : Word} {s t : State} : execWdogChipKick data s = Host.Outcome.next t → State.Kept cn ql s → State.Kept cn ql t := by
  intro he h
  unfold execWdogChipKick at he
  try dsimp only at he
  repeat' (first
    | contradiction
    | (injection he with he; subst he)
    | split at he)
  all_goals
  repeat' (first
    | with_reducible assumption
    | with_reducible apply State.setFlag_kept
    | with_reducible apply State.chipWatchdog_kept
    | with_reducible apply kept_ite
    | simp only [kept_mk_iff]
    | with_reducible rfl
    | (refine kept_snd (by with_reducible assumption) ?_)
    | split
    | dsimp only)

theorem State.snapControl_kept {cn : Prop} {ql : List Instr} {s : State} {d : Word} : State.Kept cn ql s → State.Kept cn ql (State.snapControl s d) := by
  intros
  unfold State.snapControl
  repeat' (first
    | with_reducible assumption
    | with_reducible apply State.cancelSnapshot_kept
    | with_reducible apply State.armSnapshot_kept
    | with_reducible apply kept_ite
    | split
    | dsimp only)

theorem execSnapArm_kept {cn : Prop} {ql : List Instr} {data : Word} {s t : State} : execSnapArm data s = Host.Outcome.next t → State.Kept cn ql s → State.Kept cn ql t := by
  intro he h
  unfold execSnapArm at he
  try dsimp only at he
  repeat' (first
    | contradiction
    | (injection he with he; subst he)
    | split at he)
  all_goals
  repeat' (first
    | with_reducible assumption
    | with_reducible apply State.snapControl_kept
    | simp only [kept_mk_iff]
    | with_reducible rfl
    | (refine kept_snd (by with_reducible assumption) ?_)
    | split
    | dsimp only)

theorem execRearm_kept {cn : Prop} {ql : List Instr} {data : Word} {s t : State} : execRearm data s = Host.Outcome.next t → State.Kept cn ql s → State.Kept cn ql t := by
  intro he h
  unfold execRearm at he
  try dsimp only at he
  repeat' (first
    | contradiction
    | (injection he with he; subst he)
    | split at he)
  all_goals
  repeat' (first
    | with_reducible assumption
    | with_reducible apply State.setFlag_kept
    | with_reducible apply kept_ite
    | simp only [kept_mk_iff]
    | with_reducible rfl
    | (refine kept_snd (by with_reducible assumption) ?_)
    | split
    | dsimp only)

theorem State.openEra_kept {cn : Prop} {ql : List Instr} {s : State} : State.Kept cn ql s → State.Kept cn ql (State.openEra s) := by
  intros
  unfold State.openEra
  repeat' (first
    | with_reducible assumption
    | simp only [kept_mk_iff]
    | with_reducible rfl
    | dsimp only)

theorem State.setRate_kept {cn : Prop} {ql : List Instr} {s : State} {ppm : Rat} : State.Kept cn ql s → State.Kept cn ql (State.setRate s ppm) := by
  intros
  unfold State.setRate
  repeat' (first
    | with_reducible assumption
    | with_reducible apply State.takeBit_kept
    | with_reducible apply State.openEra_kept
    | with_reducible apply State.setReg_kept
    | (refine kept_snd (by with_reducible assumption) ?_)
    | split
    | dsimp only)

theorem execTimeRateWrite_kept {cn : Prop} {ql : List Instr} {data : Word} {s t : State} : execTimeRateWrite data s = Host.Outcome.next t → State.Kept cn ql s → State.Kept cn ql t := by
  intro he h
  unfold execTimeRateWrite at he
  try dsimp only at he
  repeat' (first
    | contradiction
    | (injection he with he; subst he)
    | split at he)
  all_goals
  repeat' (first
    | with_reducible assumption
    | with_reducible apply State.setRate_kept
    | with_reducible apply kept_ite
    | simp only [kept_mk_iff]
    | with_reducible rfl
    | (refine kept_snd (by with_reducible assumption) ?_)
    | split
    | dsimp only)

theorem State.startProbe_kept {cn : Prop} {ql : List Instr} {s : State} : State.Kept cn ql s → State.Kept cn ql (State.startProbe s) := by
  intros
  unfold State.startProbe
  repeat' (first
    | with_reducible assumption
    | with_reducible apply State.setFlag_kept
    | with_reducible apply State.setReg_kept
    | with_reducible apply State.feedProbe_kept
    | simp only [kept_mk_iff]
    | with_reducible rfl
    | (refine kept_snd (by with_reducible assumption) ?_)
    | split
    | dsimp only)

theorem execSrchProbeStart_kept {cn : Prop} {ql : List Instr} {data : Word} {s t : State} : execSrchProbeStart data s = Host.Outcome.next t → State.Kept cn ql s → State.Kept cn ql t := by
  intro he h
  unfold execSrchProbeStart at he
  try dsimp only at he
  repeat' (first
    | contradiction
    | (injection he with he; subst he)
    | split at he)
  all_goals
  repeat' (first
    | with_reducible assumption
    | with_reducible apply State.startProbe_kept
    | with_reducible apply kept_ite
    | simp only [kept_mk_iff]
    | with_reducible rfl
    | (refine kept_snd (by with_reducible assumption) ?_)
    | split
    | dsimp only)

theorem execRollbackCommit_kept {cn : Prop} {ql : List Instr} {data : Word} {s t : State} : execRollbackCommit data s = Host.Outcome.next t → State.Kept cn ql s → State.Kept cn ql t := by
  intro he h
  unfold execRollbackCommit at he
  try dsimp only at he
  repeat' (first
    | contradiction
    | (injection he with he; subst he)
    | split at he)
  all_goals
  repeat' (first
    | with_reducible assumption
    | with_reducible apply State.blow_kept
    | with_reducible apply kept_ite
    | simp only [kept_mk_iff]
    | with_reducible rfl
    | (refine kept_snd (by with_reducible assumption) ?_)
    | split
    | dsimp only)

theorem State.programWrite_kept {cn : Prop} {ql : List Instr} {s : State} {m data : Word} : State.Kept cn ql s → State.Kept cn ql (State.programWrite s m data) := by
  intros
  unfold State.programWrite
  repeat' (first
    | with_reducible assumption
    | with_reducible apply State.applyWrite_kept
    | with_reducible apply State.blow_kept
    | with_reducible apply kept_ite
    | split
    | dsimp only)

theorem execProgram_kept {cn : Prop} {ql : List Instr} {data : Word} {s t : State} : execProgram data s = Host.Outcome.next t → State.Kept cn ql s → State.Kept cn ql t := by
  intro he h
  unfold execProgram at he
  try dsimp only at he
  repeat' (first
    | contradiction
    | (injection he with he; subst he)
    | split at he)
  all_goals
  repeat' (first
    | with_reducible assumption
    | with_reducible apply State.programWrite_kept
    | simp only [kept_mk_iff]
    | with_reducible rfl
    | (refine kept_snd (by with_reducible assumption) ?_)
    | split
    | dsimp only)

theorem execAttestStart_kept {cn : Prop} {ql : List Instr} {data : Word} {s t : State} : execAttestStart data s = Host.Outcome.next t → State.Kept cn ql s → State.Kept cn ql t := by
  intro he h
  unfold execAttestStart at he
  try dsimp only at he
  repeat' (first
    | contradiction
    | (injection he with he; subst he)
    | split at he)
  all_goals
  repeat' (first
    | with_reducible assumption
    | with_reducible apply State.attest_kept
    | with_reducible apply kept_ite
    | simp only [kept_mk_iff]
    | with_reducible rfl
    | (refine kept_snd (by with_reducible assumption) ?_)
    | split
    | dsimp only)

theorem execBindOffRequest_kept {cn : Prop} {ql : List Instr} {data : Word} {s t : State} : execBindOffRequest data s = Host.Outcome.next t → State.Kept cn ql s → State.Kept cn ql t := by
  intro he h
  unfold execBindOffRequest at he
  try dsimp only at he
  repeat' (first
    | contradiction
    | (injection he with he; subst he)
    | split at he)
  all_goals
  repeat' (first
    | with_reducible assumption
    | with_reducible apply State.beginBindOff_kept
    | with_reducible apply kept_ite
    | simp only [kept_mk_iff]
    | with_reducible rfl
    | (refine kept_snd (by with_reducible assumption) ?_)
    | split
    | dsimp only)

theorem State.writeActing_kept {cn : Prop} {ql : List Instr} {s : State} {a : Nat} {data : Word} {t : State} : State.writeActing s a data = Option.some t → State.Kept cn ql s → State.Kept cn ql t := by
  intro he h
  unfold State.writeActing at he
  rcases ite_some he with rfl | he
  · exact nextOr_kept (fun t e => execSwReset_kept e h) h
  rcases ite_some he with rfl | he
  · exact State.writePowerRequest_kept h
  rcases ite_some he with rfl | he
  · exact nextOr_kept (fun t e => execRstCtrlWarm_kept e h) h
  rcases ite_some he with rfl | he
  · exact nextOr_kept (fun t e => execWdogChipKick_kept e h) h
  rcases ite_some he with rfl | he
  · exact nextOr_kept (fun t e => execSnapArm_kept e h) h
  rcases ite_some he with rfl | he
  · exact nextOr_kept (fun t e => execRearm_kept e h) h
  rcases ite_some he with rfl | he
  · exact nextOr_kept (fun t e => execTimeRateWrite_kept e h) h
  rcases ite_some he with rfl | he
  · exact nextOr_kept (fun t e => execSrchProbeStart_kept e h) h
  rcases ite_some he with rfl | he
  · exact nextOr_kept (fun t e => execRollbackCommit_kept e h) h
  rcases ite_some he with rfl | he
  · exact nextOr_kept (fun t e => execProgram_kept e h) h
  rcases ite_some he with rfl | he
  · exact nextOr_kept (fun t e => execAttestStart_kept e h) h
  rcases ite_some he with rfl | he
  · exact nextOr_kept (fun t e => execBindOffRequest_kept e h) h
  contradiction

theorem State.writeArray_kept {cn : Prop} {ql : List Instr} {s : State} {n : Nat} {base : Nat → Nat} {a : Nat} {f : Fin n → Host.Outcome State Fault Refusal} {t : State} : (∀ i t, f i = .next t → t.Kept cn ql) → s.writeArray n base a f = some t → s.Kept cn ql → t.Kept cn ql := by
  intro hf he h
  unfold State.writeArray at he
  obtain ⟨i, hi, rfl⟩ := Option.map_eq_some_iff.1 he
  exact nextOr_kept (hf i) h

theorem execEthPortReset_kept {cn : Prop} {ql : List Instr} {eth : Fin 2} {data : Word} {s t : State} : execEthPortReset eth data s = Host.Outcome.next t → State.Kept cn ql s → State.Kept cn ql t := by
  intro he h
  unfold execEthPortReset at he
  try dsimp only at he
  repeat' (first
    | contradiction
    | (injection he with he; subst he)
    | split at he)
  all_goals
  repeat' (first
    | with_reducible assumption
    | with_reducible apply State.resetEthPort_kept
    | with_reducible apply kept_ite
    | simp only [kept_mk_iff]
    | with_reducible rfl
    | (refine kept_snd (by with_reducible assumption) ?_)
    | split
    | dsimp only)

theorem execToutCtrlWrite_kept {cn : Prop} {ql : List Instr} {tout : Fin 16} {data : Word} {s t : State} : execToutCtrlWrite tout data s = Host.Outcome.next t → State.Kept cn ql s → State.Kept cn ql t := by
  intro he h
  unfold execToutCtrlWrite at he
  try dsimp only at he
  repeat' (first
    | contradiction
    | (injection he with he; subst he)
    | split at he)
  all_goals
  repeat' (first
    | with_reducible assumption
    | with_reducible apply State.applyTout_kept
    | simp only [kept_mk_iff]
    | with_reducible rfl
    | (refine kept_snd (by with_reducible assumption) ?_)
    | split
    | dsimp only)

theorem State.setTin_kept {cn : Prop} {ql : List Instr} {s : State} {n : Nat} {v : Tin} : State.Kept cn ql s → State.Kept cn ql (State.setTin s n v) := by
  intros
  unfold State.setTin
  repeat' (first
    | with_reducible assumption
    | simp only [kept_mk_iff]
    | with_reducible rfl
    | dsimp only)

theorem execTinPop_kept {cn : Prop} {ql : List Instr} {tin : Fin 4} {data : Word} {s t : State} : execTinPop tin data s = Host.Outcome.next t → State.Kept cn ql s → State.Kept cn ql t := by
  intro he h
  unfold execTinPop at he
  try dsimp only at he
  repeat' (first
    | contradiction
    | (injection he with he; subst he)
    | split at he)
  all_goals
  repeat' (first
    | with_reducible assumption
    | with_reducible apply State.setTin_kept
    | with_reducible apply kept_ite
    | simp only [kept_mk_iff]
    | with_reducible rfl
    | (refine kept_snd (by with_reducible assumption) ?_)
    | split
    | dsimp only)

theorem State.resetRxPort_kept {cn : Prop} {ql : List Instr} {s : State} {port : Nat} : State.Kept cn ql s → State.Kept cn ql (State.resetRxPort s port) := by
  intros
  unfold State.resetRxPort
  repeat' (first
    | with_reducible assumption
    | with_reducible apply State.setFlag_kept
    | with_reducible apply State.badPort_kept
    | dsimp only)

theorem execCsiRxPortReset_kept {cn : Prop} {ql : List Instr} {port : Fin 12} {data : Word} {s t : State} : execCsiRxPortReset port data s = Host.Outcome.next t → State.Kept cn ql s → State.Kept cn ql t := by
  intro he h
  unfold execCsiRxPortReset at he
  try dsimp only at he
  repeat' (first
    | contradiction
    | (injection he with he; subst he)
    | split at he)
  all_goals
  repeat' (first
    | with_reducible assumption
    | with_reducible apply State.resetRxPort_kept
    | with_reducible apply kept_ite
    | simp only [kept_mk_iff]
    | with_reducible rfl
    | (refine kept_snd (by with_reducible assumption) ?_)
    | split
    | dsimp only)

theorem execCsiTxPortReset_kept {cn : Prop} {ql : List Instr} {port : Fin 4} {data : Word} {s t : State} : execCsiTxPortReset port data s = Host.Outcome.next t → State.Kept cn ql s → State.Kept cn ql t := by
  intro he h
  unfold execCsiTxPortReset at he
  try dsimp only at he
  repeat' (first
    | contradiction
    | (injection he with he; subst he)
    | split at he)
  all_goals
  repeat' (first
    | with_reducible assumption
    | with_reducible apply State.setFlag_kept
    | with_reducible apply State.cutPort_kept
    | with_reducible apply kept_ite
    | simp only [kept_mk_iff]
    | with_reducible rfl
    | (refine kept_snd (by with_reducible assumption) ?_)
    | split
    | dsimp only)

theorem execCheckFeedStart_kept {cn : Prop} {ql : List Instr} {unit : Fin 8} {data : Word} {s t : State} : execCheckFeedStart unit data s = Host.Outcome.next t → State.Kept cn ql s → State.Kept cn ql t := by
  intro he h
  unfold execCheckFeedStart at he
  try dsimp only at he
  repeat' (first
    | contradiction
    | (injection he with he; subst he)
    | split at he)
  all_goals
  repeat' (first
    | with_reducible assumption
    | with_reducible apply State.feedControl_kept
    | simp only [kept_mk_iff]
    | with_reducible rfl
    | (refine kept_snd (by with_reducible assumption) ?_)
    | split
    | dsimp only)

theorem execCheckFeedData_kept {cn : Prop} {ql : List Instr} {unit : Fin 8} {data : Word} {s t : State} : execCheckFeedData unit data s = Host.Outcome.next t → State.Kept cn ql s → State.Kept cn ql t := by
  intro he h
  unfold execCheckFeedData at he
  try dsimp only at he
  repeat' (first
    | contradiction
    | (injection he with he; subst he)
    | split at he)
  all_goals
  repeat' (first
    | with_reducible assumption
    | with_reducible apply State.feedData_kept
    | simp only [kept_mk_iff]
    | with_reducible rfl
    | (refine kept_snd (by with_reducible assumption) ?_)
    | split
    | dsimp only)

theorem State.writeActingArray_kept {cn : Prop} {ql : List Instr} {s : State} {a : Nat} {data : Word} {t : State} : State.writeActingArray s a data = Option.some t → State.Kept cn ql s → State.Kept cn ql t := by
  intro he h
  unfold State.writeActingArray at he
  rcases orElse_some he with he | he
  · exact State.writeArray_kept (fun i t e => execEthPortReset_kept e h) he h
  rcases orElse_some he with he | he
  · exact State.writeArray_kept (fun i t e => execToutCtrlWrite_kept e h) he h
  rcases orElse_some he with he | he
  · exact State.writeArray_kept (fun i t e => execTinPop_kept e h) he h
  rcases orElse_some he with he | he
  · exact State.writeArray_kept (fun i t e => execCsiRxPortReset_kept e h) he h
  rcases orElse_some he with he | he
  · exact State.writeArray_kept (fun i t e => execCsiTxPortReset_kept e h) he h
  rcases orElse_some he with he | he
  · exact State.writeArray_kept (fun i t e => execCheckFeedStart_kept e h) he h
  exact State.writeArray_kept (fun i t e => execCheckFeedData_kept e h) he h

theorem State.writePlain_kept {cn : Prop} {ql : List Instr} {s : State} {a : Nat} {data : Word} : State.Kept cn ql s → State.Kept cn ql (State.writePlain s a data) := by
  intros
  unfold State.writePlain
  repeat' (first
    | with_reducible assumption
    | with_reducible apply State.putWord_kept
    | simp only [kept_mk_iff]
    | with_reducible rfl
    | (refine kept_snd (by with_reducible assumption) ?_)
    | split
    | dsimp only)

theorem State.hostWrite_kept {cn : Prop} {ql : List Instr} {s : State} {port a : Nat} {data : Word} : State.Kept cn ql s → State.Kept cn ql (State.hostWrite s port a data) := by
  intro h
  unfold State.hostWrite
  repeat' (first
    | with_reducible exact h
    | with_reducible apply State.holdLow_kept
    | with_reducible apply State.writePair_kept
    | split)
  cases e : (s.writeActing a data).orElse fun _ => s.writeActingArray a data with
  | none => exact State.writePlain_kept h
  | some t =>
    rcases orElse_some e with e | e
    · exact State.writeActing_kept e h
    · exact State.writeActingArray_kept e h

theorem State.startOwed_kept {cn : Prop} {ql : List Instr} {s : State} : State.Kept cn ql s → State.Kept cn ql (State.startOwed s) := by
  intros
  unfold State.startOwed
  repeat' (first
    | with_reducible assumption
    | with_reducible apply State.beginDue_kept
    | with_reducible apply kept_ite
    | simp only [kept_mk_iff]
    | with_reducible rfl
    | (refine kept_snd (by with_reducible assumption) ?_)
    | split
    | dsimp only)

theorem State.idle_kept {cn : Prop} {ql : List Instr} {s : State} : State.Kept cn ql s → State.Kept cn ql (State.idle s) := by
  intros
  unfold State.idle
  repeat' (first
    | with_reducible assumption
    | with_reducible apply State.startOwed_kept
    | with_reducible apply State.expireAnnounces_kept
    | with_reducible apply State.tickOn_kept
    | with_reducible apply kept_ite
    | split
    | dsimp only)

theorem State.txAcquire_kept {cn : Prop} {ql : List Instr} {s : State} {t m gen : Nat} {t_1 : State} : State.txAcquire s t m gen = Option.some t_1 → State.Kept cn ql s → State.Kept cn ql t_1 := by
  intro he h
  unfold State.txAcquire at he
  try dsimp only at he
  repeat' (first
    | contradiction
    | (injection he with he; subst he)
    | split at he)
  all_goals
  repeat' (first
    | with_reducible assumption
    | (refine State.acquireOp_kept (by with_reducible assumption) ?_)
    | with_reducible apply kept_ite
    | split
    | dsimp only)

theorem State.imagePayload_kept {cn : Prop} {ql : List Instr} {s : State} {o : TxOffer} {copy gen : Nat} {t : TxPayload × State} : State.imagePayload s o copy gen = Option.some t → State.Kept cn ql s → State.Kept cn ql (Prod.snd t) := by
  intro he h
  unfold State.imagePayload at he
  dsimp only at he
  split at he
  · contradiction
  · split at he
    · contradiction
    · next hm _ u hu =>
      have h2 := State.txAcquire_kept hu h
      split at he
      · contradiction
      · next holds second v hv =>
        injection he with he; subst he
        repeat' split at hv
        all_goals first
          | contradiction
          | (injection hv with hv; injection hv with _ hv; injection hv with _ hv; subst hv; exact h2)
          | (obtain ⟨w, hw, hv⟩ := Option.map_eq_some_iff.1 hv
             injection hv with _ hv; injection hv with _ hv; subst hv
             exact State.txAcquire_kept hw h2)

theorem State.importEnd_kept {cn : Prop} {ql : List Instr} {s : State} {i : Import} {p : ImportItem} : State.Kept cn ql s → State.Kept cn ql (State.importEnd s i p) := by
  intros
  unfold State.importEnd
  repeat' (first
    | with_reducible assumption
    | with_reducible apply State.takeItem_kept
    | with_reducible apply State.endImport_kept
    | with_reducible apply State.setImport_kept
    | with_reducible apply kept_ite
    | simp only [kept_mk_iff]
    | with_reducible rfl
    | split
    | dsimp only)

theorem State.importMedia_kept {cn : Prop} {ql : List Instr} {s : State} {c block : Nat} : State.Kept cn ql s → State.Kept cn ql (State.importMedia s c block) := by
  intros
  unfold State.importMedia
  repeat' (first
    | with_reducible assumption
    | with_reducible apply State.addSat_kept
    | with_reducible apply State.stopImport_kept
    | simp only [kept_mk_iff]
    | with_reducible rfl
    | dsimp only)

theorem State.setBooks_kept {cn : Prop} {ql : List Instr} {s : State} {x : Nat} {r : Bool} {off : Nat} {b : List Byte} : State.Kept cn ql s → State.Kept cn ql (State.setBooks s x r off b) := by
  intros
  unfold State.setBooks
  repeat' (first
    | with_reducible assumption
    | simp only [kept_mk_iff]
    | with_reducible rfl
    | dsimp only)

theorem State.programPage_kept {cn : Prop} {ql : List Instr} {s : State} {i : Import} {g : Nat} {b : List Byte} : State.Kept cn ql s → State.Kept cn ql (State.programPage s i g b) := by
  intro h
  unfold State.programPage
  dsimp only
  have h1 : ∀ a l, ({ s with srch := { s.srch with flash := Store.setMany 0 s.srch.flash a l } } : State).Kept cn ql :=
    fun a l => ⟨fun c => { h.canonical c with flash := Store.wf_setMany 0 l _ _ (h.canonical c).flash }, h.queue⟩
  repeat' (first
    | with_reducible exact h1 _ _
    | with_reducible apply State.addWrap_kept
    | with_reducible apply State.setImport_kept
    | with_reducible apply State.setBooks_kept
    | with_reducible apply State.writeObject_kept
    | split)

theorem State.importPage_kept {cn : Prop} {ql : List Instr} {s : State} {i : Import} {p : ImportItem} {failed : Bool} : State.Kept cn ql s → State.Kept cn ql (State.importPage s i p failed) := by
  intros
  unfold State.importPage
  repeat' (first
    | with_reducible assumption
    | with_reducible apply State.takeItem_kept
    | with_reducible apply State.endImport_kept
    | with_reducible apply State.importMedia_kept
    | with_reducible apply State.setImport_kept
    | with_reducible apply State.programPage_kept
    | with_reducible apply kept_ite
    | simp only [kept_mk_iff]
    | with_reducible rfl
    | (refine kept_snd (by with_reducible assumption) ?_)
    | split
    | dsimp only)

theorem State.ingressStamp_kept {cn : Prop} {ql : List Instr} {s : State} {m : Nat} {tap : Stamp} : State.Kept cn ql s → State.Kept cn ql (Prod.snd (State.ingressStamp s m tap)) := by
  intros
  unfold State.ingressStamp
  repeat' (first
    | with_reducible assumption
    | with_reducible apply State.takeBit_kept
    | (refine kept_snd (by with_reducible assumption) ?_)
    | split
    | dsimp only)

theorem State.issueInstant_kept {cn : Prop} {ql : List Instr} {s : State} {g : Nat} {i : PairInstant} : State.Kept cn ql s → State.Kept cn ql (State.issueInstant s g i) := by
  intros
  unfold State.issueInstant
  repeat' (first
    | intro _
    | with_reducible assumption
    | with_reducible apply State.addSat_kept
    | with_reducible apply State.setGroup_kept
    | with_reducible apply State.setFlag_kept
    | with_reducible apply State.trigger_kept
    | with_reducible apply kept_foldl
    | with_reducible apply kept_foldl_snd
    | with_reducible apply kept_ite
    | simp only [kept_mk_iff]
    | with_reducible rfl
    | (refine kept_snd (by with_reducible assumption) ?_)
    | split
    | dsimp only)

theorem State.issueNode_kept {cn : Prop} {ql : List Instr} {s : State} {g n : Nat} {a : Activation} {d : NodeDesc} : State.Kept cn ql s → State.Kept cn ql (State.issueNode s g n a d) := by
  intros
  unfold State.issueNode
  repeat' (first
    | intro _
    | with_reducible assumption
    | with_reducible apply State.completeActivation_kept
    | with_reducible apply State.closeNode_kept
    | with_reducible apply State.updNode_kept
    | with_reducible apply State.askInput_kept
    | with_reducible apply kept_foldl
    | with_reducible apply kept_foldl_snd
    | with_reducible apply kept_ite
    | simp only [kept_mk_iff]
    | with_reducible rfl
    | (refine kept_snd (by with_reducible assumption) ?_)
    | split
    | dsimp only)

theorem State.qpIteration_kept {cn : Prop} {ql : List Instr} {s : State} {c : Nat} {t : Structure} {p : Problem} {v : Solve} : State.Kept cn ql s → State.Kept cn ql (State.qpIteration s c t p v) := by
  intros
  unfold State.qpIteration
  repeat' (first
    | with_reducible assumption
    | with_reducible apply State.conclude_kept
    | with_reducible apply State.goOn_kept
    | with_reducible apply kept_ite
    | simp only [kept_mk_iff]
    | with_reducible rfl
    | split
    | dsimp only)

theorem State.leaveNls_kept {cn : Prop} {ql : List Instr} {s : State} {c : Nat} {t : Structure} {p : Problem} : State.Kept cn ql s → State.Kept cn ql (State.leaveNls s c t p) := by
  intros
  unfold State.leaveNls
  repeat' (first
    | with_reducible assumption
    | with_reducible apply State.conclude_kept
    | with_reducible apply State.goOn_kept
    | with_reducible apply kept_ite
    | simp only [kept_mk_iff]
    | with_reducible rfl
    | split
    | dsimp only)

theorem State.nextPass_kept {cn : Prop} {ql : List Instr} {s : State} {c : Nat} {t : Structure} {accepted : Bool} {p : Problem} : State.Kept cn ql s → State.Kept cn ql (State.nextPass s c t accepted p) := by
  intros
  unfold State.nextPass
  repeat' (first
    | with_reducible assumption
    | with_reducible apply State.assembleNls_kept
    | with_reducible apply State.goOn_kept
    | with_reducible apply kept_ite
    | simp only [kept_mk_iff]
    | with_reducible rfl
    | split
    | dsimp only)

theorem State.nlsIteration_kept {cn : Prop} {ql : List Instr} {s : State} {c : Nat} {t : Structure} {p : Problem} {v : Solve} : State.Kept cn ql s → State.Kept cn ql (State.nlsIteration s c t p v) := by
  intros
  unfold State.nlsIteration
  repeat' (first
    | with_reducible assumption
    | with_reducible apply State.conclude_kept
    | with_reducible apply State.leaveNls_kept
    | with_reducible apply State.nextPass_kept
    | with_reducible apply kept_ite
    | simp only [kept_mk_iff]
    | with_reducible rfl
    | split
    | dsimp only)

theorem State.iterationEnds_kept {cn : Prop} {ql : List Instr} {s : State} {c cycles : Nat} {t : Structure} {p : Problem} : State.Kept cn ql s → State.Kept cn ql (State.iterationEnds s c cycles t p) := by
  intros
  unfold State.iterationEnds
  repeat' (first
    | with_reducible assumption
    | with_reducible apply State.spend_kept
    | with_reducible apply State.qpIteration_kept
    | with_reducible apply State.nlsIteration_kept
    | with_reducible apply kept_ite
    | simp only [kept_mk_iff]
    | with_reducible rfl
    | (refine kept_snd (by with_reducible assumption) ?_)
    | split
    | dsimp only)

theorem State.judgeSlot_kept {cn : Prop} {ql : List Instr} {s : State} {c k : Nat} : State.Kept cn ql s → State.Kept cn ql (State.judgeSlot s c k) := by
  intros
  unfold State.judgeSlot
  repeat' (first
    | with_reducible assumption
    | with_reducible apply State.analyseSlot_kept
    | dsimp only)

theorem State.judgeBelow_kept {cn : Prop} {ql : List Instr} {s : State} {c n : Nat} : State.Kept cn ql s → State.Kept cn ql (State.judgeBelow s c n) := by
  intros
  unfold State.judgeBelow
  repeat' (first
    | intro _
    | with_reducible assumption
    | with_reducible apply State.judgeSlot_kept
    | with_reducible apply kept_foldl
    | with_reducible apply kept_foldl_snd
    | with_reducible apply kept_ite
    | (refine kept_snd (by with_reducible assumption) ?_)
    | split
    | dsimp only)

theorem State.judgeEarly_kept {cn : Prop} {ql : List Instr} {s : State} {c k : Nat} : State.Kept cn ql s → State.Kept cn ql (State.judgeEarly s c k) := by
  intros
  unfold State.judgeEarly
  repeat' (first
    | with_reducible assumption
    | with_reducible apply State.comparePairs_kept
    | with_reducible apply State.judgeBelow_kept
    | with_reducible apply State.applyStaged_kept
    | simp only [kept_mk_iff]
    | with_reducible rfl
    | dsimp only)

theorem State.readable_kept {cn : Prop} {ql : List Instr} {s : State} {obj n : Nat} : State.Kept cn ql s → State.Kept cn ql (Prod.snd (State.readable s obj n)) := by
  intros
  unfold State.readable
  repeat' (first
    | with_reducible assumption
    | with_reducible apply State.checkWords_kept
    | with_reducible apply State.touch_kept
    | with_reducible apply kept_ite
    | (refine kept_snd (by with_reducible assumption) ?_)
    | split
    | dsimp only)

theorem State.readRecords_kept {cn : Prop} {ql : List Instr} {s : State} {j : VerifierJob} : State.Kept cn ql s → State.Kept cn ql (Prod.snd (State.readRecords s j)) := by
  intros
  unfold State.readRecords
  repeat' (first
    | with_reducible assumption
    | with_reducible apply State.readable_kept
    | (refine kept_snd (by with_reducible assumption) ?_)
    | split
    | dsimp only)

theorem State.roundLoose_kept {cn : Prop} {ql : List Instr} {s : State} {l : List Fix} {scale : Fix} : State.Kept cn ql s → State.Kept cn ql (Prod.snd (State.roundLoose s l scale)) := by
  intros
  unfold State.roundLoose
  repeat' (first
    | with_reducible assumption
    | with_reducible apply State.roundScaled_kept
    | dsimp only)

theorem State.refitRecord_kept {cn : Prop} {ql : List Instr} {s : State} {j : VerifierJob} {k : List Fix} {all : List VerifierMatch} {drawn : Nat} {kept : List Fix} : State.Kept cn ql s → State.Kept cn ql (Prod.snd (State.refitRecord s j k all drawn kept)) := by
  intros
  unfold State.refitRecord
  repeat' (first
    | with_reducible assumption
    | with_reducible apply State.roundLoose_kept
    | with_reducible apply State.takeBit_kept
    | with_reducible apply State.roundScaled_kept
    | with_reducible apply State.takeWords_kept
    | with_reducible apply kept_ite
    | simp only [kept_mk_iff]
    | with_reducible rfl
    | (refine kept_snd (by with_reducible assumption) ?_)
    | split
    | dsimp only)

theorem State.searchPose_kept {cn : Prop} {ql : List Instr} {s : State} {j : VerifierJob} {all : List VerifierMatch} : State.Kept cn ql s → State.Kept cn ql (Prod.snd (State.searchPose s j all)) := by
  intros
  unfold State.searchPose
  repeat' (first
    | with_reducible assumption
    | with_reducible apply State.refitRecord_kept
    | with_reducible apply kept_ite
    | simp only [kept_mk_iff]
    | with_reducible rfl
    | (refine kept_snd (by with_reducible assumption) ?_)
    | split
    | dsimp only)

theorem State.judgeJob_kept {cn : Prop} {ql : List Instr} {s : State} {j : VerifierJob} : State.Kept cn ql s → State.Kept cn ql (Prod.snd (State.judgeJob s j)) := by
  intros
  unfold State.judgeJob
  repeat' (first
    | with_reducible assumption
    | with_reducible apply State.readRecords_kept
    | with_reducible apply State.searchPose_kept
    | with_reducible apply kept_ite
    | (refine kept_snd (by with_reducible assumption) ?_)
    | split
    | dsimp only)

theorem State.keepJoints_kept {cn : Prop} {ql : List Instr} {s : State} {p : List Byte} {tov : Int} : State.Kept cn ql s → State.Kept cn ql (State.keepJoints s p tov) := by
  intros
  unfold State.keepJoints
  repeat' (first
    | intro _
    | with_reducible assumption
    | with_reducible apply kept_foldl
    | with_reducible apply kept_foldl_snd
    | with_reducible apply kept_ite
    | simp only [kept_mk_iff]
    | with_reducible rfl
    | (refine kept_snd (by with_reducible assumption) ?_)
    | split
    | dsimp only)

theorem State.judgeJoints_kept {cn : Prop} {ql : List Instr} {s : State} {p : List Byte} {stamp : Stamp} : State.Kept cn ql s → State.Kept cn ql (State.judgeJoints s p stamp) := by
  intros
  unfold State.judgeJoints
  repeat' (first
    | with_reducible assumption
    | with_reducible apply State.addSat_kept
    | with_reducible apply State.keepJoints_kept
    | with_reducible apply kept_ite
    | simp only [kept_mk_iff]
    | with_reducible rfl
    | (refine kept_snd (by with_reducible assumption) ?_)
    | split
    | dsimp only)

theorem State.judgeLock_kept {cn : Prop} {ql : List Instr} {s : State} {offset : Rat} : State.Kept cn ql s → State.Kept cn ql (State.judgeLock s offset) := by
  intros
  unfold State.judgeLock
  repeat' (first
    | with_reducible assumption
    | with_reducible apply State.setServo_kept
    | with_reducible apply kept_ite
    | simp only [kept_mk_iff]
    | with_reducible rfl
    | split
    | dsimp only)

theorem State.takeSample_kept {cn : Prop} {ql : List Instr} {s : State} {n : Nat} {v : ImuSample} : State.Kept cn ql s → State.Kept cn ql (State.takeSample s n v) := by
  intros
  unfold State.takeSample
  repeat' (first
    | with_reducible assumption
    | with_reducible apply State.addWrap_kept
    | with_reducible apply State.setImu_kept
    | with_reducible apply kept_ite
    | simp only [kept_mk_iff]
    | with_reducible rfl
    | split
    | dsimp only)

theorem State.judgeSample_kept {cn : Prop} {ql : List Instr} {s : State} {n : Nat} {v : ImuSample} : State.Kept cn ql s → State.Kept cn ql (State.judgeSample s n v) := by
  intros
  unfold State.judgeSample
  repeat' (first
    | with_reducible assumption
    | with_reducible apply State.addSat_kept
    | with_reducible apply State.takeSample_kept
    | with_reducible apply kept_ite
    | simp only [kept_mk_iff]
    | with_reducible rfl
    | (refine kept_snd (by with_reducible assumption) ?_)
    | split
    | dsimp only)

theorem State.judgeSlots_kept {cn : Prop} {ql : List Instr} {s : State} {c : Nat} : State.Kept cn ql s → State.Kept cn ql (State.judgeSlots s c) := by
  intros
  unfold State.judgeSlots
  repeat' (first
    | with_reducible assumption
    | with_reducible apply State.judgeBelow_kept
    | dsimp only)

theorem State.keepImage_kept {cn : Prop} {ql : List Instr} {s : State} : State.Kept cn ql s → State.Kept cn ql (State.keepImage s) := by
  intros
  unfold State.keepImage
  repeat' (first
    | with_reducible assumption
    | with_reducible apply State.setCast_kept
    | with_reducible apply kept_ite
    | simp only [kept_mk_iff]
    | with_reducible rfl
    | split
    | dsimp only)

theorem State.keypointRecord_kept {cn : Prop} {ql : List Instr} {s : State} {g : Gray} {t log plane desc : Nat} {c : Corner} : State.Kept cn ql s → State.Kept cn ql (Prod.snd (State.keypointRecord s g t log plane desc c)) := by
  intro h
  have h1 := State.takeWord_kept (State.takeBit_kept (State.takeBit_kept h))
  unfold State.keypointRecord
  dsimp only
  split
  · exact State.floatDescriptor_kept h1
  · exact h1

theorem State.keypoints_kept {cn : Prop} {ql : List Instr} {s : State} {g : Gray} {t log plane desc : Nat} {a : List Corner} : State.Kept cn ql s → State.Kept cn ql (Prod.snd (State.keypoints s g t log plane desc a)) := by
  intro h
  induction a generalizing s with
  | nil => exact h
  | cons d r ih =>
    unfold State.keypoints
    exact ih (State.keypointRecord_kept h)

theorem State.landmarked_kept {cn : Prop} {ql : List Instr} {s : State} {f : FeatureSet} {u : TrackUpdate} {r : List Byte} : State.Kept cn ql s → State.Kept cn ql (Prod.snd (State.landmarked s f u r)) := by
  intros
  unfold State.landmarked
  repeat' (first
    | with_reducible assumption
    | with_reducible apply State.nearFp?_kept
    | simp only [kept_mk_iff]
    | with_reducible rfl
    | (refine kept_snd (by with_reducible assumption) ?_)
    | split
    | dsimp only)

theorem State.loadEpoch_kept {cn : Prop} {ql : List Instr} {s : State} {x : Nat} {r : Bool} {bad : List Nat} : State.Kept cn ql s → State.Kept cn ql (State.loadEpoch s x r bad) := by
  intros
  unfold State.loadEpoch
  repeat' (first
    | intro _
    | with_reducible assumption
    | with_reducible apply State.writeStatic_kept
    | with_reducible apply State.writeObject_kept
    | with_reducible apply State.setBooks_kept
    | with_reducible apply State.setMark_kept
    | with_reducible apply State.recordUe_kept
    | with_reducible apply State.addSat_kept
    | with_reducible apply kept_foldl
    | with_reducible apply kept_foldl_snd
    | with_reducible apply kept_ite
    | simp only [kept_mk_iff]
    | with_reducible rfl
    | (refine kept_snd (by with_reducible assumption) ?_)
    | split
    | dsimp only)

theorem State.loadObj_kept {cn : Prop} {ql : List Instr} {s : State} {swatch object offset : Nat} {l : List Byte} : State.Kept cn ql s → State.Kept cn ql (State.loadObj s swatch object offset l) := by
  intros
  unfold State.loadObj
  repeat' (first
    | with_reducible assumption
    | with_reducible apply State.setObjBytes_kept
    | simp only [kept_mk_iff]
    | with_reducible rfl
    | dsimp only)

theorem State.showImage_kept {cn : Prop} {ql : List Instr} {s : State} {b : Bool} {k : Skein} : State.Kept cn ql s → State.Kept cn ql (State.showImage s b k) := by
  intros
  unfold State.showImage
  repeat' (first
    | intro _
    | with_reducible assumption
    | with_reducible apply State.setFld_kept
    | with_reducible apply State.setFlag_kept
    | with_reducible apply State.setReg_kept
    | with_reducible apply State.setCast_kept
    | with_reducible apply kept_foldl
    | with_reducible apply kept_foldl_snd
    | simp only [kept_mk_iff]
    | with_reducible rfl
    | (refine kept_snd (by with_reducible assumption) ?_)
    | dsimp only)

theorem State.lockChecks_kept {cn : Prop} {ql : List Instr} {s : State} : State.Kept cn ql s → State.Kept cn ql (State.lockChecks s) := by
  intros
  unfold State.lockChecks
  repeat' (first
    | with_reducible assumption
    | with_reducible apply State.checkCommands_kept
    | with_reducible apply State.checkTransmit_kept
    | with_reducible apply State.checkIndexes_kept
    | with_reducible apply State.checkTracking_kept
    | with_reducible apply State.checkVision_kept
    | dsimp only)

theorem State.lockMemory_kept {cn : Prop} {ql : List Instr} {s : State} : State.Kept cn ql s → State.Kept cn ql (State.lockMemory s) := by
  intros
  unfold State.lockMemory
  repeat' (first
    | with_reducible assumption
    | with_reducible apply State.setFld_kept
    | simp only [kept_mk_iff]
    | with_reducible rfl
    | dsimp only)

theorem State.lockClassA_kept {cn : Prop} {ql : List Instr} {s : State} : State.Kept cn ql s → State.Kept cn ql (State.lockClassA s) := by
  intros
  unfold State.lockClassA
  repeat' (first
    | with_reducible assumption
    | with_reducible apply State.loadClassA_kept
    | with_reducible apply State.comparePairs_kept
    | with_reducible apply State.judgeSlots_kept
    | simp only [kept_mk_iff]
    | with_reducible rfl
    | dsimp only)

theorem State.startChannels_kept {cn : Prop} {ql : List Instr} {s : State} {l : List Nat} : State.Kept cn ql s → State.Kept cn ql (State.startChannels s l) := by
  intros
  unfold State.startChannels
  repeat' (first
    | intro _
    | with_reducible assumption
    | with_reducible apply State.setFlag_kept
    | with_reducible apply kept_foldl
    | with_reducible apply kept_foldl_snd
    | (refine kept_snd (by with_reducible assumption) ?_)
    | dsimp only)

theorem State.startGovernor_kept {cn : Prop} {ql : List Instr} {s : State} : State.Kept cn ql s → State.Kept cn ql (State.startGovernor s) := by
  intros
  unfold State.startGovernor
  repeat' (first
    | with_reducible assumption
    | with_reducible apply State.setFld_kept
    | with_reducible apply State.takeSteps_kept
    | simp only [kept_mk_iff]
    | with_reducible rfl
    | dsimp only)

theorem State.lockTout_kept {cn : Prop} {ql : List Instr} {s : State} {n : Nat} : State.Kept cn ql s → State.Kept cn ql (State.lockTout s n) := by
  intros
  unfold State.lockTout
  repeat' (first
    | intro _
    | with_reducible assumption
    | with_reducible apply State.setFlag_kept
    | with_reducible apply State.setReg_kept
    | with_reducible apply State.startTout_kept
    | with_reducible apply kept_foldl
    | with_reducible apply kept_foldl_snd
    | with_reducible apply kept_ite
    | (refine kept_snd (by with_reducible assumption) ?_)
    | split
    | dsimp only)

theorem State.startPdelay_kept {cn : Prop} {ql : List Instr} {s : State} {m : Nat} : State.Kept cn ql s → State.Kept cn ql (State.startPdelay s m) := by
  intros
  unfold State.startPdelay
  repeat' (first
    | with_reducible assumption
    | with_reducible apply State.setMac_kept
    | simp only [kept_mk_iff]
    | with_reducible rfl
    | dsimp only)

theorem State.lockPorts_kept {cn : Prop} {ql : List Instr} {s : State} : State.Kept cn ql s → State.Kept cn ql (State.lockPorts s) := by
  intros
  unfold State.lockPorts
  repeat' (first
    | intro _
    | with_reducible assumption
    | with_reducible apply State.startPdelay_kept
    | with_reducible apply State.loseLink_kept
    | with_reducible apply kept_foldl
    | with_reducible apply kept_foldl_snd
    | with_reducible apply kept_ite
    | (refine kept_snd (by with_reducible assumption) ?_)
    | split
    | dsimp only)

theorem State.lockServo_kept {cn : Prop} {ql : List Instr} {s : State} : State.Kept cn ql s → State.Kept cn ql (State.lockServo s) := by
  intros
  unfold State.lockServo
  repeat' (first
    | with_reducible assumption
    | with_reducible apply State.setServo_kept
    | with_reducible apply State.setFlag_kept
    | with_reducible apply kept_ite
    | simp only [kept_mk_iff]
    | with_reducible rfl
    | split
    | dsimp only)

theorem State.showPending_kept {cn : Prop} {ql : List Instr} {s : State} : State.Kept cn ql s → State.Kept cn ql (State.showPending s) := by
  intros
  unfold State.showPending
  repeat' (first
    | with_reducible assumption
    | with_reducible apply State.setFlag_kept
    | dsimp only)

theorem State.lock_kept {cn : Prop} {ql : List Instr} {s : State} {b : Bool} {k : Skein} {us : Nat} : State.Kept cn ql s → State.Kept cn ql (State.lock s b k us) := by
  intros
  unfold State.lock
  repeat' (first
    | intro _
    | with_reducible assumption
    | with_reducible apply State.showImage_kept
    | with_reducible apply State.applyStaged_kept
    | with_reducible apply State.setFlag_kept
    | with_reducible apply State.setFld_kept
    | with_reducible apply State.releaseFlash_kept
    | with_reducible apply State.setPhase_kept
    | with_reducible apply State.setCast_kept
    | with_reducible apply State.lockChecks_kept
    | with_reducible apply State.declareObjects_kept
    | with_reducible apply State.lockMemory_kept
    | with_reducible apply State.lockClassA_kept
    | with_reducible apply State.startChannels_kept
    | with_reducible apply State.startGovernor_kept
    | with_reducible apply State.lockTout_kept
    | with_reducible apply State.scheduleStart_kept
    | with_reducible apply State.startInit_kept
    | with_reducible apply State.lockPorts_kept
    | with_reducible apply State.lockServo_kept
    | with_reducible apply State.keepImage_kept
    | with_reducible apply State.showPending_kept
    | with_reducible apply State.autoCommit_kept
    | with_reducible apply kept_foldl
    | with_reducible apply kept_foldl_snd
    | simp only [kept_mk_iff]
    | with_reducible rfl
    | (refine kept_snd (by with_reducible assumption) ?_)
    | dsimp only)

theorem State.logFault_kept {cn : Prop} {ql : List Instr} {s : State} {r : FaultReport} : State.Kept cn ql s → State.Kept cn ql (State.logFault s r) := by
  intro h
  unfold State.logFault
  dsimp only
  have h1 : ∀ l, ({ s with integ := { s.integ with log := Store.setMany 0 s.integ.log (4 * s.fld fld_FAULT_LOG_STATUS_NEXT) l } } : State).Kept cn ql :=
    fun l => ⟨fun c => { h.canonical c with log := Store.wf_setMany 0 l _ _ (h.canonical c).log }, h.queue⟩
  repeat' (first
    | with_reducible exact h1 _
    | with_reducible apply State.addSat_kept
    | with_reducible apply State.setFlag_kept
    | with_reducible apply State.setFld_kept
    | split)

theorem State.loseAddress_kept {cn : Prop} {ql : List Instr} {s : State} : State.Kept cn ql s → State.Kept cn ql (State.loseAddress s) := by
  intros
  unfold State.loseAddress
  repeat' (first
    | with_reducible assumption
    | with_reducible apply State.setFlag_kept
    | with_reducible apply State.setFld_kept
    | dsimp only)

theorem State.markBrown_kept {cn : Prop} {ql : List Instr} {s : State} : State.Kept cn ql s → State.Kept cn ql (State.markBrown s) := by
  intros
  unfold State.markBrown
  repeat' (first
    | intro _
    | with_reducible assumption
    | with_reducible apply State.updNode_kept
    | with_reducible apply kept_foldl
    | with_reducible apply kept_foldl_snd
    | with_reducible apply kept_ite
    | simp only [kept_mk_iff]
    | with_reducible rfl
    | (refine kept_snd (by with_reducible assumption) ?_)
    | split
    | dsimp only)

theorem State.markProved_kept {cn : Prop} {ql : List Instr} {s : State} {c : Nat} {p : Problem} {f : Factor} : State.Kept cn ql s → State.Kept cn ql (Prod.snd (State.markProved s c p f)) := by
  intros
  unfold State.markProved
  repeat' (first
    | with_reducible assumption
    | with_reducible apply State.setSolverSlot_kept
    | simp only [kept_mk_iff]
    | with_reducible rfl
    | dsimp only)

theorem State.markSnapshot_kept {cn : Prop} {ql : List Instr} {s : State} {number : Nat} : State.Kept cn ql s → State.Kept cn ql (State.markSnapshot s number) := by
  intros
  unfold State.markSnapshot
  repeat' (first
    | intro _
    | with_reducible assumption
    | with_reducible apply State.setFlag_kept
    | with_reducible apply State.setFld_kept
    | with_reducible apply kept_foldl
    | with_reducible apply kept_foldl_snd
    | (refine kept_snd (by with_reducible assumption) ?_)
    | dsimp only)

theorem State.matchTrack_kept {cn : Prop} {ql : List Instr} {s : State} {u : TrackUpdate} {d : Detection} {slot : Nat} : State.Kept cn ql s → State.Kept cn ql (State.matchTrack s u d slot) := by
  intros
  unfold State.matchTrack
  repeat' (first
    | with_reducible assumption
    | with_reducible apply State.setEstimate_kept
    | with_reducible apply State.setObjectTrack_kept
    | with_reducible apply kept_ite
    | simp only [kept_mk_iff]
    | with_reducible rfl
    | split
    | dsimp only)

theorem State.mergeQuery_kept {cn : Prop} {ql : List Instr} {s : State} {q : Query} : State.Kept cn ql s → State.Kept cn ql (State.mergeQuery s q) := by
  intros
  unfold State.mergeQuery
  repeat' (first
    | with_reducible assumption
    | with_reducible apply State.addWrap_kept
    | with_reducible apply State.addSat_kept
    | with_reducible apply State.deliverQuery_kept
    | with_reducible apply kept_ite
    | simp only [kept_mk_iff]
    | with_reducible rfl
    | (refine kept_snd (by with_reducible assumption) ?_)
    | split
    | dsimp only)

theorem State.missObject_kept {cn : Prop} {ql : List Instr} {s : State} {u : TrackUpdate} {slot : Nat} : State.Kept cn ql s → State.Kept cn ql (State.missObject s u slot) := by
  intros
  unfold State.missObject
  repeat' (first
    | with_reducible assumption
    | with_reducible apply State.takeBit_kept
    | with_reducible apply State.freeObject_kept
    | with_reducible apply State.setObjectTrack_kept
    | with_reducible apply kept_ite
    | simp only [kept_mk_iff]
    | with_reducible rfl
    | (refine kept_snd (by with_reducible assumption) ?_)
    | split
    | dsimp only)

theorem State.missTrack_kept {cn : Prop} {ql : List Instr} {s : State} {f : FeatureSet} {slot : Nat} : State.Kept cn ql s → State.Kept cn ql (State.missTrack s f slot) := by
  intros
  unfold State.missTrack
  repeat' (first
    | with_reducible assumption
    | with_reducible apply State.addSat_kept
    | with_reducible apply State.setFeature_kept
    | with_reducible apply kept_ite
    | simp only [kept_mk_iff]
    | with_reducible rfl
    | split
    | dsimp only)

theorem State.moveRecord_kept {cn : Prop} {ql : List Instr} {s : State} {c b id : Nat} {r : TileRecord} {t : State} : State.moveRecord s c b id r = Option.some t → State.Kept cn ql s → State.Kept cn ql t := by
  intro he h
  unfold State.moveRecord at he
  try dsimp only at he
  repeat' (first
    | contradiction
    | (injection he with he; subst he)
    | split at he)
  all_goals
  repeat' (first
    | with_reducible assumption
    | (refine State.programRecord_kept (by with_reducible assumption) ?_)
    | with_reducible apply State.appendJournal_kept
    | with_reducible apply State.setObject_kept
    | simp only [kept_mk_iff]
    | with_reducible rfl
    | (refine kept_snd (by with_reducible assumption) ?_)
    | split
    | dsimp only)

theorem State.nextBody_kept {cn : Prop} {ql : List Instr} {s : State} {dt : Nat} {t : CommandBody × State} : State.nextBody s dt = Option.some t → State.Kept cn ql s → State.Kept cn ql (Prod.snd t) := by
  intro he h
  unfold State.nextBody at he
  try dsimp only at he
  repeat' (first
    | contradiction
    | (injection he with he; subst he)
    | split at he)
  all_goals
  repeat' (first
    | with_reducible assumption
    | with_reducible apply kept_ite
    | simp only [kept_mk_iff]
    | with_reducible rfl
    | (refine kept_snd (by with_reducible assumption) ?_)
    | split
    | dsimp only)

theorem State.nextBoundary_kept {cn : Prop} {ql : List Instr} {s : State} : State.Kept cn ql s → State.Kept cn ql (State.nextBoundary s) := by
  intros
  unfold State.nextBoundary
  repeat' (first
    | with_reducible assumption
    | with_reducible apply State.crossBoundary_kept
    | with_reducible apply State.advanceTo_kept
    | dsimp only)

theorem State.noteStart_kept {cn : Prop} {ql : List Instr} {s : State} {n : Nat} {stamp : Stamp} : State.Kept cn ql s → State.Kept cn ql (State.noteStart s n stamp) := by
  intros
  unfold State.noteStart
  repeat' (first
    | with_reducible assumption
    | with_reducible apply State.addWrap_kept
    | with_reducible apply State.setFld_kept
    | with_reducible apply State.setPair_kept
    | dsimp only)

theorem State.objectRecord_kept {cn : Prop} {ql : List Instr} {s : State} {slot : Nat} : State.Kept cn ql s → State.Kept cn ql (Prod.snd (State.objectRecord s slot)) := by
  intros
  unfold State.objectRecord
  repeat' (first
    | with_reducible assumption
    | with_reducible apply State.roundEach_kept
    | with_reducible apply kept_ite
    | (refine kept_snd (by with_reducible assumption) ?_)
    | split
    | dsimp only)

theorem State.observation_kept {cn : Prop} {ql : List Instr} {s : State} {f : FeatureSet} {slot : Nat} : State.Kept cn ql s → State.Kept cn ql (Prod.snd (State.observation s f slot)) := by
  intros
  unfold State.observation
  repeat' (first
    | with_reducible assumption
    | with_reducible apply State.nearFp?_kept
    | with_reducible apply kept_ite
    | (refine kept_snd (by with_reducible assumption) ?_)
    | split
    | dsimp only)

theorem State.offerBatch_kept {cn : Prop} {ql : List Instr} {s : State} {u : TrackUpdate} {keypoints : Nat} {b : List Byte} : State.Kept cn ql s → State.Kept cn ql (State.offerBatch s u keypoints b) := by
  intros
  unfold State.offerBatch
  repeat' (first
    | with_reducible assumption
    | with_reducible apply kept_ite
    | simp only [kept_mk_iff]
    | with_reducible rfl
    | (refine kept_snd (by with_reducible assumption) ?_)
    | split
    | dsimp only)

theorem State.offerDiag_kept {cn : Prop} {ql : List Instr} {s : State} : State.Kept cn ql s → State.Kept cn ql (State.offerDiag s) := by
  intros
  unfold State.offerDiag
  repeat' (first
    | intro _
    | with_reducible assumption
    | with_reducible apply State.offer_kept
    | with_reducible apply kept_foldl
    | with_reducible apply kept_foldl_snd
    | with_reducible apply kept_ite
    | (refine kept_snd (by with_reducible assumption) ?_)
    | split
    | dsimp only)

theorem State.offerObjects_kept {cn : Prop} {ql : List Instr} {s : State} {set : Nat} {b : List Byte} : State.Kept cn ql s → State.Kept cn ql (State.offerObjects s set b) := by
  intros
  unfold State.offerObjects
  repeat' (first
    | intro _
    | with_reducible assumption
    | with_reducible apply State.offerNumbered_kept
    | with_reducible apply kept_foldl
    | with_reducible apply kept_foldl_snd
    | with_reducible apply kept_ite
    | (refine kept_snd (by with_reducible assumption) ?_)
    | split
    | dsimp only)

theorem State.setRegBit_kept {cn : Prop} {ql : List Instr} {s : State} {a c : Nat} {b : Bool} : State.Kept cn ql s → State.Kept cn ql (State.setRegBit s a c b) := by
  intros
  unfold State.setRegBit
  repeat' (first
    | with_reducible assumption
    | with_reducible apply State.setReg_kept
    | with_reducible apply kept_ite
    | split
    | dsimp only)

theorem State.openFault_kept {cn : Prop} {ql : List Instr} {s : State} {r : FaultReport} : State.Kept cn ql s → State.Kept cn ql (State.openFault s r) := by
  intros
  unfold State.openFault
  repeat' (first
    | with_reducible assumption
    | with_reducible apply State.setFld_kept
    | with_reducible apply State.setReg_kept
    | with_reducible apply State.logFault_kept
    | with_reducible apply State.setRegBit_kept
    | with_reducible apply State.raiseIbi_kept
    | with_reducible apply kept_ite
    | split
    | dsimp only)

theorem State.openWindow_kept {cn : Prop} {ql : List Instr} {s : State} {c : Nat} : State.Kept cn ql s → State.Kept cn ql (State.openWindow s c) := by
  intros
  unfold State.openWindow
  repeat' (first
    | with_reducible assumption
    | with_reducible apply kept_ite
    | simp only [kept_mk_iff]
    | with_reducible rfl
    | split
    | dsimp only)

theorem State.oweUnlock_kept {cn : Prop} {ql : List Instr} {s : State} {pll : Nat} : State.Kept cn ql s → State.Kept cn ql (State.oweUnlock s pll) := by
  intros
  unfold State.oweUnlock
  repeat' (first
    | with_reducible assumption
    | with_reducible apply State.oweWarm_kept
    | simp only [kept_mk_iff]
    | with_reducible rfl
    | (refine kept_snd (by with_reducible assumption) ?_)
    | split
    | dsimp only)

theorem State.pairCost_kept {cn : Prop} {ql : List Instr} {s : State} {t : ObjectTrack} {d : Detection} {tov : Int} : State.Kept cn ql s → State.Kept cn ql (Prod.snd (State.pairCost s t d tov)) := by
  intros
  unfold State.pairCost
  repeat' (first
    | with_reducible assumption
    | with_reducible apply State.takeWord_kept
    | simp only [kept_mk_iff]
    | with_reducible rfl
    | (refine kept_snd (by with_reducible assumption) ?_)
    | split
    | dsimp only)

theorem State.pairCosts_kept {cn : Prop} {ql : List Instr} {s : State} {slots : List Nat} {tov : Int} {a : List Detection} : State.Kept cn ql s → State.Kept cn ql (Prod.snd (State.pairCosts s slots tov a)) := by
  intro h
  induction a generalizing s with
  | nil => exact h
  | cons d r ih => exact ih (kept_foldl_snd h (fun _ _ h => State.pairCost_kept h))

theorem State.passDeadline_kept {cn : Prop} {ql : List Instr} {s : State} {g : Nat} : State.Kept cn ql s → State.Kept cn ql (State.passDeadline s g) := by
  intros
  unfold State.passDeadline
  repeat' (first
    | with_reducible assumption
    | with_reducible apply State.dropDueUpdates_kept
    | with_reducible apply State.dropActivation_kept
    | dsimp only)

theorem State.passLink_kept {cn : Prop} {ql : List Instr} {s : State} {flits : Nat} {l : Fin 64 × Nat} : State.Kept cn ql s → State.Kept cn ql (State.passLink s flits l) := by
  intros
  unfold State.passLink
  repeat' (first
    | with_reducible assumption
    | with_reducible apply State.raiseMax_kept
    | with_reducible apply State.addWrap_kept
    | dsimp only)

theorem State.placeRow_kept {cn : Prop} {ql : List Instr} {s : State} {u : TrackUpdate} {e : List Byte × Nat} : State.Kept cn ql s → State.Kept cn ql (Prod.snd (State.placeRow s u e)) := by
  intros
  unfold State.placeRow
  repeat' (first
    | with_reducible assumption
    | with_reducible apply State.roundVec_kept
    | with_reducible apply State.roundEach_kept
    | (refine kept_snd (by with_reducible assumption) ?_)
    | split
    | dsimp only)

theorem State.placeRows_kept {cn : Prop} {ql : List Instr} {s : State} {u : TrackUpdate} {a : List (List Byte × Nat)} : State.Kept cn ql s → State.Kept cn ql (Prod.snd (State.placeRows s u a)) := by
  intro h
  induction a generalizing s with
  | nil => exact h
  | cons d r ih => exact ih (State.placeRow_kept h)

theorem State.placeDetections_kept {cn : Prop} {ql : List Instr} {s : State} {u : TrackUpdate} : State.Kept cn ql s → State.Kept cn ql (Prod.snd (State.placeDetections s u)) := by
  intros
  unfold State.placeDetections
  repeat' (first
    | with_reducible assumption
    | with_reducible apply State.addSat_kept
    | with_reducible apply State.placeRows_kept
    | with_reducible apply kept_ite
    | (refine kept_snd (by with_reducible assumption) ?_)
    | split
    | dsimp only)

theorem State.placeTile_kept {cn : Prop} {ql : List Instr} {s : State} {a : TileAssembly} : State.Kept cn ql s → State.Kept cn ql (State.placeTile s a) := by
  intro h
  have h1 : ∀ t : State, t.Kept cn ql → ∀ n b, ({ t with mem := { t.mem with accesses := n, bad := b } } : State).Kept cn ql :=
    fun t h n b => kept_mk h rfl rfl rfl rfl rfl rfl rfl rfl
  exact State.setObject_kept (h1 _ (State.setMemBytes_kept (State.setAssembly_kept h)) _ _)

theorem State.powerUp_kept {cn : Prop} {ql : List Instr} {s : State} : State.Kept cn ql s → State.Kept cn ql (State.powerUp s) := by
  intros
  unfold State.powerUp
  repeat' (first
    | with_reducible assumption
    | with_reducible apply State.setPower_kept
    | simp only [kept_mk_iff]
    | with_reducible rfl
    | dsimp only)

theorem State.roundPixel_kept {cn : Prop} {ql : List Instr} {s : State} {v : Fix} : State.Kept cn ql s → State.Kept cn ql (Prod.snd (State.roundPixel s v)) := by
  intros
  unfold State.roundPixel
  repeat' (first
    | with_reducible assumption
    | with_reducible apply State.takeBit_kept
    | with_reducible apply State.takeWord_kept
    | with_reducible apply kept_ite
    | (refine kept_snd (by with_reducible assumption) ?_)
    | split
    | dsimp only)

theorem State.predict_kept {cn : Prop} {ql : List Instr} {s : State} {f : FeatureSet} {slot : Nat} : State.Kept cn ql s → State.Kept cn ql (State.predict s f slot) := by
  intros
  unfold State.predict
  repeat' (first
    | with_reducible assumption
    | with_reducible apply State.setFeature_kept
    | with_reducible apply State.roundPixel_kept
    | with_reducible apply State.takeBit_kept
    | with_reducible apply State.takeWords_kept
    | simp only [kept_mk_iff]
    | with_reducible rfl
    | (refine kept_snd (by with_reducible assumption) ?_)
    | split
    | dsimp only)

theorem State.readWords_kept {cn : Prop} {ql : List Instr} {s : State} {a : Nat} {a_1 : Word} : State.Kept cn ql s → State.Kept cn ql (Prod.snd (State.readWords s a a_1)) := by
  intro h
  induction a generalizing s a_1 with
  | zero => exact h
  | succ n ih => exact ih (State.readReg_kept h)

theorem State.setPointer_kept {cn : Prop} {ql : List Instr} {s : State} {a : Word} : State.Kept cn ql s → State.Kept cn ql (State.setPointer s a) := by
  intros
  unfold State.setPointer
  repeat' (first
    | with_reducible assumption
    | simp only [kept_mk_iff]
    | with_reducible rfl
    | dsimp only)

theorem State.privateRead_kept {cn : Prop} {ql : List Instr} {s : State} {n : Nat} : State.Kept cn ql s → State.Kept cn ql (State.privateRead s n) := by
  intros
  unfold State.privateRead
  repeat' (first
    | with_reducible assumption
    | with_reducible apply State.readWords_kept
    | with_reducible apply State.setPointer_kept
    | simp only [kept_mk_iff]
    | with_reducible rfl
    | (refine kept_snd (by with_reducible assumption) ?_)
    | split
    | dsimp only)

theorem State.writeWords_kept {cn : Prop} {ql : List Instr} {s : State} {a : Word} {a_1 : List Word} : State.Kept cn ql s → State.Kept cn ql (State.writeWords s a a_1) := by
  intro h
  induction a_1 generalizing s a with
  | nil => exact h
  | cons d r ih => exact ih (State.hostWrite_kept h)

theorem State.privateWrite_kept {cn : Prop} {ql : List Instr} {s : State} {a : Word} {words : List Word} : State.Kept cn ql s → State.Kept cn ql (State.privateWrite s a words) := by
  intros
  unfold State.privateWrite
  repeat' (first
    | with_reducible assumption
    | with_reducible apply State.setPointer_kept
    | with_reducible apply State.writeWords_kept
    | with_reducible apply kept_ite
    | split
    | dsimp only)

theorem State.proofEnds_kept {cn : Prop} {ql : List Instr} {s : State} {c : Nat} {t : Structure} {p : Problem} {v : Solve} : State.Kept cn ql s → State.Kept cn ql (State.proofEnds s c t p v) := by
  intros
  unfold State.proofEnds
  repeat' (first
    | with_reducible assumption
    | with_reducible apply State.markProved_kept
    | with_reducible apply State.settleStop_kept
    | with_reducible apply State.setProblem_kept
    | with_reducible apply State.checkFailed_kept
    | with_reducible apply State.conclude_kept
    | with_reducible apply State.discardFactor_kept
    | with_reducible apply kept_ite
    | simp only [kept_mk_iff]
    | with_reducible rfl
    | (refine kept_snd (by with_reducible assumption) ?_)
    | split
    | dsimp only)

theorem State.publishBatch_kept {cn : Prop} {ql : List Instr} {s : State} {object : Bool} {i : Nat} {b : List Byte} : State.Kept cn ql s → State.Kept cn ql (State.publishBatch s object i b) := by
  intros
  unfold State.publishBatch
  repeat' (first
    | with_reducible assumption
    | with_reducible apply State.offerObjects_kept
    | with_reducible apply kept_ite
    | simp only [kept_mk_iff]
    | with_reducible rfl
    | split
    | dsimp only)

theorem State.publishFrame_kept {cn : Prop} {ql : List Instr} {s : State} {n : Nat} {f : RxFrame} {stamp : Stamp} : State.Kept cn ql s → State.Kept cn ql (State.publishFrame s n f stamp) := by
  intros
  unfold State.publishFrame
  repeat' (first
    | intro _
    | with_reducible assumption
    | with_reducible apply State.closeRecord_kept
    | with_reducible apply State.setStream_kept
    | with_reducible apply State.setFld_kept
    | with_reducible apply State.orProto_kept
    | (refine State.publishOp_kept (by with_reducible assumption) ?_)
    | with_reducible apply kept_foldl
    | with_reducible apply kept_foldl_snd
    | with_reducible apply kept_ite
    | simp only [kept_mk_iff]
    | with_reducible rfl
    | (refine kept_snd (by with_reducible assumption) ?_)
    | split
    | dsimp only)

theorem State.putSetState_kept {cn : Prop} {ql : List Instr} {s : State} {object : Bool} {i : Nat} {v : FeatureSetState} : State.Kept cn ql s → State.Kept cn ql (State.putSetState s object i v) := by
  intros
  unfold State.putSetState
  repeat' (first
    | with_reducible assumption
    | with_reducible apply kept_ite
    | simp only [kept_mk_iff]
    | with_reducible rfl
    | split
    | dsimp only)

theorem State.railGood_kept {cn : Prop} {ql : List Instr} {s : State} {r : Rail} : State.Kept cn ql s → State.Kept cn ql (State.railGood s r) := by
  intros
  unfold State.railGood
  repeat' (first
    | with_reducible assumption
    | simp only [kept_mk_iff]
    | with_reducible rfl
    | dsimp only)

theorem State.readBack_kept {cn : Prop} {ql : List Instr} {s : State} {reads : Bool} : State.Kept cn ql s → State.Kept cn ql (State.readBack s reads) := by
  intros
  unfold State.readBack
  repeat' (first
    | with_reducible assumption
    | with_reducible apply State.setCast_kept
    | with_reducible apply State.blown_kept
    | with_reducible apply State.setFlag_kept
    | with_reducible apply State.showPending_kept
    | with_reducible apply kept_ite
    | simp only [kept_mk_iff]
    | with_reducible rfl
    | (refine kept_snd (by with_reducible assumption) ?_)
    | split
    | dsimp only)

theorem State.readCommits_kept {cn : Prop} {ql : List Instr} {s : State} {x : Nat} : State.Kept cn ql s → State.Kept cn ql (State.readCommits s x) := by
  intros
  unfold State.readCommits
  repeat' (first
    | with_reducible assumption
    | with_reducible apply State.setFlag_kept
    | with_reducible apply State.setFld_kept
    | with_reducible apply kept_ite
    | simp only [kept_mk_iff]
    | with_reducible rfl
    | (refine kept_snd (by with_reducible assumption) ?_)
    | split
    | dsimp only)

theorem State.readLines_kept {cn : Prop} {ql : List Instr} {s : State} {l : List (Nat × Nat)} : State.Kept cn ql s → State.Kept cn ql (State.readLines s l) := by
  intros
  unfold State.readLines
  repeat' (first
    | intro _
    | with_reducible assumption
    | with_reducible apply State.readSram_kept
    | with_reducible apply kept_foldl
    | with_reducible apply kept_foldl_snd
    | (refine kept_snd (by with_reducible assumption) ?_)
    | dsimp only)

theorem State.recordOffset_kept {cn : Prop} {ql : List Instr} {s : State} {offset : Rat} : State.Kept cn ql s → State.Kept cn ql (State.recordOffset s offset) := by
  intros
  unfold State.recordOffset
  repeat' (first
    | with_reducible assumption
    | with_reducible apply State.takeBit_kept
    | with_reducible apply State.setReg_kept
    | (refine kept_snd (by with_reducible assumption) ?_)
    | split
    | dsimp only)

theorem State.recordReset_kept {cn : Prop} {ql : List Instr} {s : State} {n cause : Nat} : State.Kept cn ql s → State.Kept cn ql (State.recordReset s n cause) := by
  intros
  unfold State.recordReset
  repeat' (first
    | with_reducible assumption
    | with_reducible apply State.setFld_kept
    | with_reducible apply State.addSat_kept
    | dsimp only)

theorem State.refuseOffset_kept {cn : Prop} {ql : List Instr} {s : State} {offset : Rat} : State.Kept cn ql s → State.Kept cn ql (State.refuseOffset s offset) := by
  intros
  unfold State.refuseOffset
  repeat' (first
    | with_reducible assumption
    | with_reducible apply State.takeBit_kept
    | with_reducible apply State.raiseIbi_kept
    | with_reducible apply State.setFlag_kept
    | with_reducible apply State.raiseFault_kept
    | with_reducible apply State.addSat_kept
    | with_reducible apply State.setServo_kept
    | with_reducible apply kept_ite
    | simp only [kept_mk_iff]
    | with_reducible rfl
    | (refine kept_snd (by with_reducible assumption) ?_)
    | split
    | dsimp only)

theorem State.refuseRequest_kept {cn : Prop} {ql : List Instr} {s : State} {g n p cause : Nat} : State.Kept cn ql s → State.Kept cn ql (State.refuseRequest s g n p cause) := by
  intros
  unfold State.refuseRequest
  repeat' (first
    | with_reducible assumption
    | with_reducible apply State.addSat_kept
    | with_reducible apply State.setFld_kept
    | with_reducible apply State.updNode_kept
    | dsimp only)

theorem State.refuseStaging_kept {cn : Prop} {ql : List Instr} {s : State} {tier : Nat} : State.Kept cn ql s → State.Kept cn ql (State.refuseStaging s tier) := by
  intros
  unfold State.refuseStaging
  repeat' (first
    | with_reducible assumption
    | with_reducible apply State.addStatus_kept
    | with_reducible apply kept_ite
    | simp only [kept_mk_iff]
    | with_reducible rfl
    | (refine kept_snd (by with_reducible assumption) ?_)
    | split
    | dsimp only)

theorem State.reloadRegs_kept {cn : Prop} {ql : List Instr} {s : State} {l : List Nat} : State.Kept cn ql s → State.Kept cn ql (State.reloadRegs s l) := by
  intro h
  refine ⟨fun c => { h.canonical c with regs := ?_, shadow := Store.wf_filter 0 _ _ (h.canonical c).shadow }, h.queue⟩
  refine Store.wf_foldl_set 0 _ _ _ ?_ (Store.wf_filterMap 0 0 _ ?_ _ (h.canonical c).regs)
  · intro n x w
    split
    · exact Store.wf_set 0 _ _ _ w
    · exact w
  · intro x y hx e
    split at e
    · split at e
      · contradiction
      · next n => injection e with e; subst e; exact ⟨rfl, n⟩
    · injection e with e; subst e; exact ⟨rfl, hx⟩

theorem State.reportRange_kept {cn : Prop} {ql : List Instr} {s : State} {obj off n : Nat} : State.Kept cn ql s → State.Kept cn ql (State.reportRange s obj off n) := by
  intros
  unfold State.reportRange
  repeat' (first
    | with_reducible assumption
    | with_reducible apply State.checkWords_kept
    | dsimp only)

theorem State.resumeGroup_kept {cn : Prop} {ql : List Instr} {s : State} {g : Nat} : State.Kept cn ql s → State.Kept cn ql (State.resumeGroup s g) := by
  intros
  unfold State.resumeGroup
  repeat' (first
    | with_reducible assumption
    | with_reducible apply State.dispatch_kept
    | with_reducible apply State.startChannels_kept
    | with_reducible apply State.takeJob_kept
    | with_reducible apply kept_ite
    | split
    | dsimp only)

theorem State.resumeStreams_kept {cn : Prop} {ql : List Instr} {s : State} : State.Kept cn ql s → State.Kept cn ql (State.resumeStreams s) := by
  intros
  unfold State.resumeStreams
  repeat' (first
    | intro _
    | with_reducible assumption
    | with_reducible apply State.badFrame_kept
    | with_reducible apply State.setStream_kept
    | with_reducible apply kept_foldl
    | with_reducible apply kept_foldl_snd
    | simp only [kept_mk_iff]
    | with_reducible rfl
    | (refine kept_snd (by with_reducible assumption) ?_)
    | dsimp only)

theorem State.rewriteNode_kept {cn : Prop} {ql : List Instr} {s : State} {id : Nat} {pose : List Word} : State.Kept cn ql s → State.Kept cn ql (State.rewriteNode s id pose) := by
  intro h
  unfold State.rewriteNode
  split
  · split
    · cases e : s.writeTile _ _ with
      | none => exact h
      | some t => exact State.writeTile_kept e h
    · exact h
  · exact h

theorem State.rootTakes_kept {cn : Prop} {ql : List Instr} {s : State} {f : FaultFlit} : State.Kept cn ql s → State.Kept cn ql (State.rootTakes s f) := by
  intros
  unfold State.rootTakes
  repeat' (first
    | with_reducible assumption
    | with_reducible apply State.takeFlit_kept
    | with_reducible apply State.addSat_kept
    | with_reducible apply State.openFault_kept
    | with_reducible apply State.openWindow_kept
    | with_reducible apply kept_ite
    | simp only [kept_mk_iff]
    | with_reducible rfl
    | (refine kept_snd (by with_reducible assumption) ?_)
    | split
    | dsimp only)

theorem State.runAssignment_kept {cn : Prop} {ql : List Instr} {s : State} {u : TrackUpdate} : State.Kept cn ql s → State.Kept cn ql (State.runAssignment s u) := by
  intros
  unfold State.runAssignment
  repeat' (first
    | with_reducible assumption
    | with_reducible apply State.placeDetections_kept
    | with_reducible apply State.pairCosts_kept
    | with_reducible apply State.addSat_kept
    | with_reducible apply State.changeUpdate_kept
    | simp only [kept_mk_iff]
    | with_reducible rfl
    | (refine kept_snd (by with_reducible assumption) ?_)
    | split
    | dsimp only)

theorem State.writeRecords_kept {cn : Prop} {ql : List Instr} {s : State} {d : NodeDesc} {r : NodeRun} {records : List Byte} : State.Kept cn ql s → State.Kept cn ql (State.writeRecords s d r records) := by
  intros
  unfold State.writeRecords
  repeat' (first
    | with_reducible assumption
    | with_reducible apply State.setFrameBytes_kept
    | dsimp only)

theorem State.runCorner_kept {cn : Prop} {ql : List Instr} {s : State} {g n : Nat} {d : NodeDesc} {r : NodeRun} : State.Kept cn ql s → State.Kept cn ql (State.runCorner s g n d r) := by
  intros
  unfold State.runCorner
  repeat' (first
    | with_reducible assumption
    | with_reducible apply State.keypoints_kept
    | with_reducible apply State.updNode_kept
    | with_reducible apply State.writeRecords_kept
    | simp only [kept_mk_iff]
    | with_reducible rfl
    | (refine kept_snd (by with_reducible assumption) ?_)
    | split
    | dsimp only)

theorem State.trackRecord_kept {cn : Prop} {ql : List Instr} {s : State} {j : LkJob} {levels maxErr : Nat} {fb : Bool} {fbMax : Nat} {point : List Byte} : State.Kept cn ql s → State.Kept cn ql (Prod.snd (State.trackRecord s j levels maxErr fb fbMax point)) := by
  intros
  unfold State.trackRecord
  repeat' (first
    | with_reducible assumption
    | with_reducible apply State.takeWords_kept
    | with_reducible apply State.takeBit_kept
    | with_reducible apply State.roundPixel_kept
    | with_reducible apply kept_ite
    | simp only [kept_mk_iff]
    | with_reducible rfl
    | (refine kept_snd (by with_reducible assumption) ?_)
    | split
    | dsimp only)

theorem State.trackRecords_kept {cn : Prop} {ql : List Instr} {s : State} {j : LkJob} {levels maxErr : Nat} {fb : Bool} {fbMax : Nat} {a : List (List Byte)} : State.Kept cn ql s → State.Kept cn ql (Prod.snd (State.trackRecords s j levels maxErr fb fbMax a)) := by
  intro h
  induction a generalizing s with
  | nil => exact h
  | cons d r ih =>
    unfold State.trackRecords
    exact ih (State.trackRecord_kept h)

theorem State.runTrack_kept {cn : Prop} {ql : List Instr} {s : State} {g n : Nat} {d : NodeDesc} {r : NodeRun} : State.Kept cn ql s → State.Kept cn ql (State.runTrack s g n d r) := by
  intros
  unfold State.runTrack
  repeat' (first
    | with_reducible assumption
    | with_reducible apply State.trackRecords_kept
    | with_reducible apply State.updNode_kept
    | with_reducible apply State.writeRecords_kept
    | simp only [kept_mk_iff]
    | with_reducible rfl
    | (refine kept_snd (by with_reducible assumption) ?_)
    | split
    | dsimp only)

theorem State.runWhole_kept {cn : Prop} {ql : List Instr} {s : State} {e g n : Nat} {d : NodeDesc} {r : NodeRun} : State.Kept cn ql s → State.Kept cn ql (State.runWhole s e g n d r) := by
  intros
  unfold State.runWhole
  repeat' (first
    | with_reducible assumption
    | with_reducible apply State.runCorner_kept
    | with_reducible apply State.finishNode_kept
    | with_reducible apply State.runTrack_kept
    | with_reducible apply State.doBand_kept
    | with_reducible apply kept_ite
    | simp only [kept_mk_iff]
    | with_reducible rfl
    | (refine kept_snd (by with_reducible assumption) ?_)
    | split
    | dsimp only)

theorem State.runBand_kept {cn : Prop} {ql : List Instr} {s : State} {e g n : Nat} {d : NodeDesc} {r : NodeRun} : State.Kept cn ql s → State.Kept cn ql (State.runBand s e g n d r) := by
  intros
  unfold State.runBand
  repeat' (first
    | intro _
    | with_reducible assumption
    | with_reducible apply State.doBand_kept
    | with_reducible apply State.updNode_kept
    | with_reducible apply State.runWhole_kept
    | with_reducible apply State.askBand_kept
    | with_reducible apply State.orProto_kept
    | (refine State.advanceOp_kept (by with_reducible assumption) ?_)
    | with_reducible apply State.finishNode_kept
    | with_reducible apply kept_foldl
    | with_reducible apply kept_foldl_snd
    | with_reducible apply kept_ite
    | simp only [kept_mk_iff]
    | with_reducible rfl
    | (refine kept_snd (by with_reducible assumption) ?_)
    | split
    | dsimp only)

theorem State.writePoints_kept {cn : Prop} {ql : List Instr} {s : State} {f : FeatureSet} {u : TrackUpdate} {bufs : List Nat} : State.Kept cn ql s → State.Kept cn ql (State.writePoints s f u bufs) := by
  intros
  unfold State.writePoints
  repeat' (first
    | intro _
    | with_reducible assumption
    | with_reducible apply State.predict_kept
    | with_reducible apply State.takeBytes_kept
    | with_reducible apply State.setFrameBytes_kept
    | with_reducible apply State.orProto_kept
    | (refine State.publishOp_kept (by with_reducible assumption) ?_)
    | with_reducible apply kept_foldl
    | with_reducible apply kept_foldl_snd
    | with_reducible apply kept_ite
    | simp only [kept_mk_iff]
    | with_reducible rfl
    | (refine kept_snd (by with_reducible assumption) ?_)
    | split
    | dsimp only)

theorem State.takeKeyframe_kept {cn : Prop} {ql : List Instr} {s : State} {f : FeatureSet} {u : TrackUpdate} : State.Kept cn ql s → State.Kept cn ql (Prod.snd (Prod.snd (State.takeKeyframe s f u))) := by
  intros
  unfold State.takeKeyframe
  repeat' (first
    | intro _
    | with_reducible assumption
    | with_reducible apply State.putSetState_kept
    | with_reducible apply State.landmarked_kept
    | with_reducible apply State.writeObject_kept
    | with_reducible apply State.touch_kept
    | with_reducible apply kept_foldl
    | with_reducible apply kept_foldl_snd
    | with_reducible apply kept_ite
    | simp only [kept_mk_iff]
    | with_reducible rfl
    | (refine kept_snd (by with_reducible assumption) ?_)
    | split
    | dsimp only)

theorem State.writeBatch_kept {cn : Prop} {ql : List Instr} {s : State} {f : FeatureSet} {u : TrackUpdate} {bufs slots : List Nat} : State.Kept cn ql s → State.Kept cn ql (State.writeBatch s f u bufs slots) := by
  intros
  unfold State.writeBatch
  repeat' (first
    | intro _
    | with_reducible assumption
    | with_reducible apply State.takeKeyframe_kept
    | with_reducible apply State.putSetState_kept
    | with_reducible apply State.observation_kept
    | with_reducible apply State.offerBatch_kept
    | with_reducible apply State.publishBatch_kept
    | with_reducible apply kept_foldl
    | with_reducible apply kept_foldl_snd
    | with_reducible apply kept_ite
    | simp only [kept_mk_iff]
    | with_reducible rfl
    | (refine kept_snd (by with_reducible assumption) ?_)
    | split
    | dsimp only)

theorem State.takeResult_kept {cn : Prop} {ql : List Instr} {f : FeatureSet} {u : TrackUpdate} {x : List Nat × List Nat × State} {r : List Byte} : x.2.2.Kept cn ql → (State.takeResult f u x r).2.2.Kept cn ql := by
  intro h
  obtain ⟨met, found, s⟩ := x
  unfold State.takeResult
  dsimp only at h ⊢
  repeat' (first
    | with_reducible assumption
    | with_reducible apply State.addSat_kept
    | with_reducible apply State.setFeature_kept
    | with_reducible apply State.missTrack_kept
    | split)

theorem State.tryBirth_kept {cn : Prop} {ql : List Instr} {f : FeatureSet} {u : TrackUpdate} {x : List Nat × State} {r : List Byte} : x.2.Kept cn ql → (State.tryBirth f u x r).2.Kept cn ql := by
  intro h
  obtain ⟨born, s⟩ := x
  unfold State.tryBirth
  dsimp only at h ⊢
  repeat' (first
    | with_reducible assumption
    | with_reducible apply State.addSat_kept
    | with_reducible apply State.addWrap_kept
    | with_reducible apply State.setFeature_kept
    | split)

theorem State.runFeatureUpdate_kept {cn : Prop} {ql : List Instr} {s : State} {u : TrackUpdate} : State.Kept cn ql s → State.Kept cn ql (State.runFeatureUpdate s u) := by
  intro h
  unfold State.runFeatureUpdate
  dsimp only
  apply State.countFeatures_kept
  apply State.startNext_kept
  apply State.closeUpdate_kept
  apply State.putSetState_kept
  apply State.writeBatch_kept
  apply State.writePoints_kept
  refine kept_foldl ?_ (fun t k h => State.giveDepth_kept h)
  refine kept_foldl_of (fun y : List Nat × State => y.2) ?_ (fun y e h => State.tryBirth_kept h)
  refine kept_foldl ?_ (fun t k h => State.giveDepth_kept h)
  refine kept_foldl ?_ (fun t k h => State.missTrack_kept h)
  exact kept_foldl_of (fun y : List Nat × List Nat × State => y.2.2) h (fun y e h => State.takeResult_kept h)

theorem State.unholdOp_kept {cn : Prop} {ql : List Instr} {s : State} {m agent : Nat} {t : State} : State.unholdOp s m agent = Option.some t → State.Kept cn ql s → State.Kept cn ql t := by
  intro he h
  unfold State.unholdOp at he
  try dsimp only at he
  repeat' (first
    | contradiction
    | (injection he with he; subst he)
    | split at he)
  all_goals
  repeat' (first
    | with_reducible assumption
    | with_reducible apply State.setMarker_kept
    | with_reducible apply kept_ite
    | simp only [kept_mk_iff]
    | with_reducible rfl
    | (refine kept_snd (by with_reducible assumption) ?_)
    | split
    | dsimp only)

theorem State.runKeep_kept {cn : Prop} {ql : List Instr} {s : State} {g n b : Nat} {v : NodeInput} : State.Kept cn ql s → State.Kept cn ql (State.runKeep s g n b v) := by
  intros
  unfold State.runKeep
  repeat' (first
    | intro _
    | with_reducible assumption
    | with_reducible apply State.orProto_kept
    | (refine State.acquireOp_kept (by with_reducible assumption) ?_)
    | with_reducible apply State.endNode_kept
    | (refine State.holdOp_kept (by with_reducible assumption) ?_)
    | with_reducible apply State.stitchProto_kept
    | (refine State.releaseOp_kept (by with_reducible assumption) ?_)
    | (refine State.unholdOp_kept (by with_reducible assumption) ?_)
    | with_reducible apply State.setGraph_kept
    | with_reducible apply kept_foldl
    | with_reducible apply kept_foldl_snd
    | with_reducible apply kept_ite
    | simp only [kept_mk_iff]
    | with_reducible rfl
    | (refine kept_snd (by with_reducible assumption) ?_)
    | split
    | dsimp only)

theorem State.writeObjects_kept {cn : Prop} {ql : List Instr} {s : State} {u : TrackUpdate} : State.Kept cn ql s → State.Kept cn ql (State.writeObjects s u) := by
  intros
  unfold State.writeObjects
  repeat' (first
    | intro _
    | with_reducible assumption
    | with_reducible apply State.objectRecord_kept
    | with_reducible apply State.publishBatch_kept
    | with_reducible apply kept_foldl
    | with_reducible apply kept_foldl_snd
    | with_reducible apply kept_ite
    | (refine kept_snd (by with_reducible assumption) ?_)
    | split
    | dsimp only)

theorem State.runObjectUpdate_kept {cn : Prop} {ql : List Instr} {s : State} {u : TrackUpdate} {pairs : List (Option Nat)} : State.Kept cn ql s → State.Kept cn ql (State.runObjectUpdate s u pairs) := by
  intros
  unfold State.runObjectUpdate
  repeat' (first
    | intro _
    | with_reducible assumption
    | with_reducible apply State.matchTrack_kept
    | with_reducible apply State.birthObject_kept
    | with_reducible apply State.advanceTrack_kept
    | with_reducible apply State.missObject_kept
    | with_reducible apply State.writeObjects_kept
    | with_reducible apply State.dropOld_kept
    | with_reducible apply State.putSetState_kept
    | with_reducible apply State.countObjects_kept
    | with_reducible apply State.startNext_kept
    | with_reducible apply State.closeUpdate_kept
    | with_reducible apply kept_foldl
    | with_reducible apply kept_foldl_snd
    | simp only [kept_mk_iff]
    | with_reducible rfl
    | (refine kept_snd (by with_reducible assumption) ?_)
    | split
    | dsimp only)

theorem State.runUnit_kept {cn : Prop} {ql : List Instr} {s : State} {e g n : Nat} : State.Kept cn ql s → State.Kept cn ql (State.runUnit s e g n) := by
  intros
  unfold State.runUnit
  repeat' (first
    | with_reducible assumption
    | with_reducible apply State.updNode_kept
    | with_reducible apply State.runBand_kept
    | with_reducible apply State.runWhole_kept
    | with_reducible apply kept_ite
    | simp only [kept_mk_iff]
    | with_reducible rfl
    | (refine kept_snd (by with_reducible assumption) ?_)
    | split
    | dsimp only)

theorem State.scaleRate_kept {cn : Prop} {ql : List Instr} {s : State} {b : BridgeFrame} {f : List Byte} : State.Kept cn ql s → State.Kept cn ql (Prod.snd (State.scaleRate s b f)) := by
  intros
  unfold State.scaleRate
  repeat' (first
    | with_reducible assumption
    | with_reducible apply State.takeBit_kept
    | simp only [kept_mk_iff]
    | with_reducible rfl
    | (refine kept_snd (by with_reducible assumption) ?_)
    | split
    | dsimp only)

theorem State.scrubWord_kept {cn : Prop} {ql : List Instr} {s : State} {a : Nat} {errors : SymbolErrors} : State.Kept cn ql s → State.Kept cn ql (State.scrubWord s a errors) := by
  intros
  unfold State.scrubWord
  repeat' (first
    | with_reducible assumption
    | with_reducible apply State.recordCe_kept
    | with_reducible apply State.recordUe_kept
    | with_reducible apply State.setMemBytes_kept
    | with_reducible apply State.setMark_kept
    | with_reducible apply kept_ite
    | simp only [kept_mk_iff]
    | with_reducible rfl
    | (refine kept_snd (by with_reducible assumption) ?_)
    | split
    | dsimp only)

theorem State.sendIbi_kept {cn : Prop} {ql : List Instr} {s : State} {i : Nat} : State.Kept cn ql s → State.Kept cn ql (State.sendIbi s i) := by
  intros
  unfold State.sendIbi
  repeat' (first
    | with_reducible assumption
    | with_reducible apply State.addWrap_kept
    | with_reducible apply State.setFld_kept
    | simp only [kept_mk_iff]
    | with_reducible rfl
    | dsimp only)

theorem State.sendLaunched_kept {cn : Prop} {ql : List Instr} {s : State} {m : Nat} {e : LaunchEntry} {egress : Rat} : State.Kept cn ql s → State.Kept cn ql (State.sendLaunched s m e egress) := by
  intros
  unfold State.sendLaunched
  repeat' (first
    | with_reducible assumption
    | with_reducible apply State.takeBit_kept
    | with_reducible apply State.setMac_kept
    | with_reducible apply State.strobeEach_kept
    | with_reducible apply State.setFld_kept
    | simp only [kept_mk_iff]
    | with_reducible rfl
    | (refine kept_snd (by with_reducible assumption) ?_)
    | split
    | dsimp only)

theorem State.sensed_kept {cn : Prop} {ql : List Instr} {s : State} {arrayOk : Bool} : State.Kept cn ql s → State.Kept cn ql (State.sensed s arrayOk) := by
  intros
  unfold State.sensed
  repeat' (first
    | with_reducible assumption
    | with_reducible apply State.setCast_kept
    | with_reducible apply State.releaseFlash_kept
    | with_reducible apply State.timeFailed_kept
    | with_reducible apply State.setPhase_kept
    | with_reducible apply State.bothResults_kept
    | with_reducible apply kept_ite
    | simp only [kept_mk_iff]
    | with_reducible rfl
    | split
    | dsimp only)

theorem State.serveFor_kept {cn : Prop} {ql : List Instr} {s : State} {q : NeuralRun} {ns : Nat} : State.Kept cn ql s → State.Kept cn ql (State.serveFor s q ns) := by
  intros
  unfold State.serveFor
  repeat' (first
    | intro _
    | with_reducible assumption
    | with_reducible apply State.addBusy_kept
    | with_reducible apply State.updRun_kept
    | with_reducible apply kept_foldl
    | with_reducible apply kept_foldl_snd
    | simp only [kept_mk_iff]
    | with_reducible rfl
    | (refine kept_snd (by with_reducible assumption) ?_)
    | dsimp only)

theorem State.settleSections_kept {cn : Prop} {ql : List Instr} {s : State} : State.Kept cn ql s → State.Kept cn ql (State.settleSections s) := by
  intros
  unfold State.settleSections
  repeat' (first
    | with_reducible assumption
    | with_reducible apply State.setCast_kept
    | with_reducible apply kept_ite
    | simp only [kept_mk_iff]
    | with_reducible rfl
    | (refine kept_snd (by with_reducible assumption) ?_)
    | split
    | dsimp only)

theorem State.sgmBackward_kept {cn : Prop} {ql : List Instr} {s : State} {e : Nat} {d : NodeDesc} {r : NodeRun} : State.Kept cn ql s → State.Kept cn ql (State.sgmBackward s e d r) := by
  intros
  unfold State.sgmBackward
  repeat' (first
    | with_reducible assumption
    | with_reducible apply State.setSgm_kept
    | simp only [kept_mk_iff]
    | with_reducible rfl
    | dsimp only)

theorem State.sgmForward_kept {cn : Prop} {ql : List Instr} {s : State} {e : Nat} {d : NodeDesc} {r : NodeRun} : State.Kept cn ql s → State.Kept cn ql (State.sgmForward s e d r) := by
  intros
  unfold State.sgmForward
  repeat' (first
    | with_reducible assumption
    | with_reducible apply State.setSgm_kept
    | simp only [kept_mk_iff]
    | with_reducible rfl
    | dsimp only)

theorem State.sgmLine_kept {cn : Prop} {ql : List Instr} {s : State} {j : SgmJob} {a : SgmStore} {disp : Gray} {conf : Option Gray} {first y : Nat} : State.Kept cn ql s → State.Kept cn ql (State.sgmLine s j a disp conf first y) := by
  intros
  unfold State.sgmLine
  repeat' (first
    | with_reducible assumption
    | with_reducible apply State.setFrameBytes_kept
    | simp only [kept_mk_iff]
    | with_reducible rfl
    | (refine kept_snd (by with_reducible assumption) ?_)
    | split
    | dsimp only)

theorem State.sgmSelect_kept {cn : Prop} {ql : List Instr} {s : State} {e : Nat} {d : NodeDesc} {r : NodeRun} : State.Kept cn ql s → State.Kept cn ql (State.sgmSelect s e d r) := by
  intros
  unfold State.sgmSelect
  repeat' (first
    | intro _
    | with_reducible assumption
    | with_reducible apply State.sgmLine_kept
    | with_reducible apply kept_foldl
    | with_reducible apply kept_foldl_snd
    | with_reducible apply kept_ite
    | (refine kept_snd (by with_reducible assumption) ?_)
    | split
    | dsimp only)

theorem State.sgmPass_kept {cn : Prop} {ql : List Instr} {s : State} {e g n : Nat} {r : NodeRun} : State.Kept cn ql s → State.Kept cn ql (State.sgmPass s e g n r) := by
  intros
  unfold State.sgmPass
  repeat' (first
    | with_reducible assumption
    | with_reducible apply State.setSgm_kept
    | with_reducible apply State.updNode_kept
    | with_reducible apply State.sgmForward_kept
    | with_reducible apply State.sgmBackward_kept
    | with_reducible apply State.askPass_kept
    | with_reducible apply State.sgmSelect_kept
    | with_reducible apply State.finishSgm_kept
    | with_reducible apply kept_ite
    | simp only [kept_mk_iff]
    | with_reducible rfl
    | split
    | dsimp only)

theorem State.solveEnds_kept {cn : Prop} {ql : List Instr} {s : State} {c cycles : Nat} {t : Structure} {p : Problem} : State.Kept cn ql s → State.Kept cn ql (State.solveEnds s c cycles t p) := by
  intros
  unfold State.solveEnds
  repeat' (first
    | with_reducible assumption
    | with_reducible apply State.spend_kept
    | with_reducible apply State.conclude_kept
    | with_reducible apply State.goOn_kept
    | with_reducible apply kept_ite
    | simp only [kept_mk_iff]
    | with_reducible rfl
    | (refine kept_snd (by with_reducible assumption) ?_)
    | split
    | dsimp only)

theorem State.stageBulk_kept {cn : Prop} {ql : List Instr} {s : State} {l : List (Option Declaration)} {r : DataRecord} : State.Kept cn ql s → State.Kept cn ql (State.stageBulk s l r) := by
  intros
  unfold State.stageBulk
  repeat' (first
    | with_reducible assumption
    | with_reducible apply State.setMemBytes_kept
    | with_reducible apply State.addSat_kept
    | simp only [kept_mk_iff]
    | with_reducible rfl
    | (refine kept_snd (by with_reducible assumption) ?_)
    | split
    | dsimp only)

theorem State.stageGrants_kept {cn : Prop} {ql : List Instr} {s : State} {i : Nat} {b : List Byte} : State.Kept cn ql s → State.Kept cn ql (State.stageGrants s i b) := by
  intros
  unfold State.stageGrants
  repeat' (first
    | with_reducible assumption
    | with_reducible apply State.failCurrent_kept
    | with_reducible apply State.setCast_kept
    | simp only [kept_mk_iff]
    | with_reducible rfl
    | (refine kept_snd (by with_reducible assumption) ?_)
    | split
    | dsimp only)

theorem State.stageObject_kept {cn : Prop} {ql : List Instr} {s : State} {type : Nat} {r : DataRecord} : State.Kept cn ql s → State.Kept cn ql (State.stageObject s type r) := by
  intros
  unfold State.stageObject
  repeat' (first
    | with_reducible assumption
    | with_reducible apply State.loadObj_kept
    | with_reducible apply kept_ite
    | simp only [kept_mk_iff]
    | with_reducible rfl
    | split
    | dsimp only)

theorem State.stageRecords_kept {cn : Prop} {ql : List Instr} {s : State} {i type : Nat} {b : List Byte} : State.Kept cn ql s → State.Kept cn ql (State.stageRecords s i type b) := by
  intros
  unfold State.stageRecords
  repeat' (first
    | intro _
    | with_reducible assumption
    | with_reducible apply State.failCurrent_kept
    | with_reducible apply State.stageBulk_kept
    | with_reducible apply State.stageObject_kept
    | with_reducible apply State.setCast_kept
    | with_reducible apply kept_foldl
    | with_reducible apply kept_foldl_snd
    | with_reducible apply kept_ite
    | simp only [kept_mk_iff]
    | with_reducible rfl
    | (refine kept_snd (by with_reducible assumption) ?_)
    | split
    | dsimp only)

theorem State.stageWrites_kept {cn : Prop} {ql : List Instr} {s : State} {i : Nat} {memcfg : Bool} {b : List Byte} : State.Kept cn ql s → State.Kept cn ql (State.stageWrites s i memcfg b) := by
  intros
  unfold State.stageWrites
  repeat' (first
    | with_reducible assumption
    | with_reducible apply State.failCurrent_kept
    | with_reducible apply State.setCast_kept
    | with_reducible apply State.setInReset_kept
    | with_reducible apply kept_ite
    | simp only [kept_mk_iff]
    | with_reducible rfl
    | (refine kept_snd (by with_reducible assumption) ?_)
    | split
    | dsimp only)

theorem State.stageSection_kept {cn : Prop} {ql : List Instr} {s : State} {e : Section} {b : List Byte} : State.Kept cn ql s → State.Kept cn ql (State.stageSection s e b) := by
  intros
  unfold State.stageSection
  repeat' (first
    | with_reducible assumption
    | with_reducible apply State.stageWrites_kept
    | with_reducible apply State.stageGrants_kept
    | with_reducible apply State.stageRecords_kept
    | with_reducible apply State.setCast_kept
    | with_reducible apply kept_ite
    | simp only [kept_mk_iff]
    | with_reducible rfl
    | split
    | dsimp only)

theorem State.startNode_kept {cn : Prop} {ql : List Instr} {s : State} {e g n : Nat} : State.Kept cn ql s → State.Kept cn ql (State.startNode s e g n) := by
  intros
  unfold State.startNode
  repeat' (first
    | with_reducible assumption
    | with_reducible apply State.updNode_kept
    | with_reducible apply State.claimOutputs_kept
    | with_reducible apply State.askFirst_kept
    | with_reducible apply kept_ite
    | simp only [kept_mk_iff]
    | with_reducible rfl
    | (refine kept_snd (by with_reducible assumption) ?_)
    | split
    | dsimp only)

theorem State.startPayload_kept {cn : Prop} {ql : List Instr} {s : State} {t : Nat} {p : TxPayload} : State.Kept cn ql s → State.Kept cn ql (State.startPayload s t p) := by
  intros
  unfold State.startPayload
  repeat' (first
    | with_reducible assumption
    | with_reducible apply State.setTx_kept
    | with_reducible apply State.choosePacket_kept
    | simp only [kept_mk_iff]
    | with_reducible rfl
    | dsimp only)

theorem State.takeNumber_kept {cn : Prop} {ql : List Instr} {s : State} {c : Nat} : State.Kept cn ql s → State.Kept cn ql (Prod.snd (State.takeNumber s c)) := by
  intros
  unfold State.takeNumber
  repeat' (first
    | with_reducible assumption
    | simp only [kept_mk_iff]
    | with_reducible rfl
    | dsimp only)

theorem State.warmTask_kept {cn : Prop} {ql : List Instr} {s : State} {t : Structure} {p : Problem} : State.Kept cn ql s → State.Kept cn ql (Prod.snd (State.warmTask s t p)) := by
  intros
  unfold State.warmTask
  repeat' (first
    | with_reducible assumption
    | with_reducible apply State.useWarm_kept
    | with_reducible apply kept_ite
    | simp only [kept_mk_iff]
    | with_reducible rfl
    | (refine kept_snd (by with_reducible assumption) ?_)
    | split
    | dsimp only)

theorem State.startProblem_kept {cn : Prop} {ql : List Instr} {s : State} {e : SolverTask × SolverRequest} : State.Kept cn ql s → State.Kept cn ql (State.startProblem s e) := by
  intros
  unfold State.startProblem
  repeat' (first
    | intro _
    | with_reducible assumption
    | with_reducible apply State.takeNumber_kept
    | with_reducible apply State.tell_kept
    | with_reducible apply State.noteRead_kept
    | with_reducible apply State.conclude_kept
    | with_reducible apply State.warmTask_kept
    | with_reducible apply State.setProblem_kept
    | with_reducible apply kept_foldl
    | with_reducible apply kept_foldl_snd
    | with_reducible apply kept_ite
    | simp only [kept_mk_iff]
    | with_reducible rfl
    | (refine kept_snd (by with_reducible assumption) ?_)
    | split
    | dsimp only)

theorem State.startRequest_kept {cn : Prop} {ql : List Instr} {s : State} {g n : Nat} : State.Kept cn ql s → State.Kept cn ql (State.startRequest s g n) := by
  intros
  unfold State.startRequest
  repeat' (first
    | intro _
    | with_reducible assumption
    | with_reducible apply State.updRun_kept
    | with_reducible apply State.updNode_kept
    | with_reducible apply State.askInput_kept
    | with_reducible apply State.claimOutputs_kept
    | with_reducible apply kept_foldl
    | with_reducible apply kept_foldl_snd
    | simp only [kept_mk_iff]
    | with_reducible rfl
    | (refine kept_snd (by with_reducible assumption) ?_)
    | dsimp only)

theorem State.startTiming_kept {cn : Prop} {ql : List Instr} {s : State} : State.Kept cn ql s → State.Kept cn ql (State.startTiming s) := by
  intros
  unfold State.startTiming
  repeat' (first
    | with_reducible assumption
    | with_reducible apply State.setTiming_kept
    | with_reducible apply State.rejectTiming_kept
    | with_reducible apply kept_ite
    | (refine kept_snd (by with_reducible assumption) ?_)
    | split
    | dsimp only)

theorem State.unlockPll_kept {cn : Prop} {ql : List Instr} {s : State} {pll : Nat} : State.Kept cn ql s → State.Kept cn ql (State.unlockPll s pll) := by
  intros
  unfold State.unlockPll
  repeat' (first
    | with_reducible assumption
    | with_reducible apply State.setFld_kept
    | with_reducible apply State.raiseFault_kept
    | with_reducible apply State.setFlag_kept
    | with_reducible apply State.setServo_kept
    | with_reducible apply State.oweUnlock_kept
    | with_reducible apply kept_ite
    | simp only [kept_mk_iff]
    | with_reducible rfl
    | split
    | dsimp only)

theorem State.starvePll_kept {cn : Prop} {ql : List Instr} {s : State} {pll : Nat} : State.Kept cn ql s → State.Kept cn ql (State.starvePll s pll) := by
  intros
  unfold State.starvePll
  repeat' (first
    | with_reducible assumption
    | with_reducible apply State.unlockPll_kept
    | with_reducible apply State.raiseFault_kept
    | with_reducible apply State.oweUnlock_kept
    | with_reducible apply kept_ite
    | split
    | dsimp only)

theorem State.stepLoop_kept {cn : Prop} {ql : List Instr} {s : State} : State.Kept cn ql s → State.Kept cn ql (State.stepLoop s) := by
  intros
  unfold State.stepLoop
  repeat' (first
    | with_reducible assumption
    | with_reducible apply State.dropClassA_kept
    | with_reducible apply State.setFlag_kept
    | with_reducible apply kept_ite
    | simp only [kept_mk_iff]
    | with_reducible rfl
    | split
    | dsimp only)

theorem State.stepTout_kept {cn : Prop} {ql : List Instr} {s : State} {n : Nat} {before after : Stamp} : State.Kept cn ql s → State.Kept cn ql (State.stepTout s n before after) := by
  intros
  unfold State.stepTout
  repeat' (first
    | with_reducible assumption
    | with_reducible apply State.setTout_kept
    | with_reducible apply State.setFlag_kept
    | with_reducible apply kept_ite
    | simp only [kept_mk_iff]
    | with_reducible rfl
    | (refine kept_snd (by with_reducible assumption) ?_)
    | split
    | dsimp only)

theorem State.stepTouts_kept {cn : Prop} {ql : List Instr} {s : State} {before after : Stamp} : State.Kept cn ql s → State.Kept cn ql (State.stepTouts s before after) := by
  intros
  unfold State.stepTouts
  repeat' (first
    | intro _
    | with_reducible assumption
    | with_reducible apply State.stepTout_kept
    | with_reducible apply kept_foldl
    | with_reducible apply kept_foldl_snd
    | (refine kept_snd (by with_reducible assumption) ?_)
    | dsimp only)

theorem State.stopOther_kept {cn : Prop} {ql : List Instr} {s : State} : State.Kept cn ql s → State.Kept cn ql (State.stopOther s) := by
  intros
  unfold State.stopOther
  repeat' (first
    | with_reducible assumption
    | with_reducible apply State.endOther_kept
    | with_reducible apply State.advanceTo_kept
    | simp only [kept_mk_iff]
    | with_reducible rfl
    | (refine kept_snd (by with_reducible assumption) ?_)
    | split
    | dsimp only)

theorem State.storeEmbedded_kept {cn : Prop} {ql : List Instr} {s : State} {n : Nat} {f : RxFrame} {payload : List Byte} : State.Kept cn ql s → State.Kept cn ql (State.storeEmbedded s n f payload) := by
  intros
  unfold State.storeEmbedded
  repeat' (first
    | with_reducible assumption
    | with_reducible apply State.setFrameBytes_kept
    | with_reducible apply State.setStream_kept
    | with_reducible apply State.setFrameNat_kept
    | with_reducible apply kept_ite
    | simp only [kept_mk_iff]
    | with_reducible rfl
    | split
    | dsimp only)

theorem State.storeLine_kept {cn : Prop} {ql : List Instr} {s : State} {n : Nat} {f : RxFrame} {payload : List Byte} : State.Kept cn ql s → State.Kept cn ql (State.storeLine s n f payload) := by
  intros
  unfold State.storeLine
  repeat' (first
    | intro _
    | with_reducible assumption
    | with_reducible apply State.badFrame_kept
    | with_reducible apply State.setFrameBytes_kept
    | with_reducible apply State.setStream_kept
    | with_reducible apply State.orProto_kept
    | (refine State.advanceOp_kept (by with_reducible assumption) ?_)
    | with_reducible apply kept_foldl
    | with_reducible apply kept_foldl_snd
    | with_reducible apply kept_ite
    | simp only [kept_mk_iff]
    | with_reducible rfl
    | (refine kept_snd (by with_reducible assumption) ?_)
    | split
    | dsimp only)

theorem State.strobeAll_kept {cn : Prop} {ql : List Instr} {s : State} {k : InstantKind} {t : Stamp} : State.Kept cn ql s → State.Kept cn ql (State.strobeAll s k t) := by
  intros
  unfold State.strobeAll
  repeat' (first
    | with_reducible assumption
    | with_reducible apply State.strobeEach_kept
    | dsimp only)

theorem State.submit_kept {cn : Prop} {ql : List Instr} {s : State} {t : SolverTask} {r : SolverRequest} : State.Kept cn ql s → State.Kept cn ql (Prod.snd (State.submit s t r)) := by
  intros
  unfold State.submit
  repeat' (first
    | with_reducible assumption
    | with_reducible apply State.tell_kept
    | with_reducible apply State.addSat_kept
    | with_reducible apply kept_ite
    | simp only [kept_mk_iff]
    | with_reducible rfl
    | split
    | dsimp only)

theorem State.switchHome_kept {cn : Prop} {ql : List Instr} {s : State} {m : Move} : State.Kept cn ql s → State.Kept cn ql (State.switchHome s m) := by
  intros
  unfold State.switchHome
  repeat' (first
    | with_reducible assumption
    | with_reducible apply State.writeRecord_kept
    | with_reducible apply State.addWrap_kept
    | with_reducible apply State.setObject_kept
    | with_reducible apply kept_ite
    | simp only [kept_mk_iff]
    | with_reducible rfl
    | (refine kept_snd (by with_reducible assumption) ?_)
    | split
    | dsimp only)

theorem State.takeAddress_kept {cn : Prop} {ql : List Instr} {s : State} {a : BitVec 7} : State.Kept cn ql s → State.Kept cn ql (State.takeAddress s a) := by
  intros
  unfold State.takeAddress
  repeat' (first
    | with_reducible assumption
    | with_reducible apply State.setFlag_kept
    | with_reducible apply State.setFld_kept
    | dsimp only)

theorem State.takeChunk_kept {cn : Prop} {ql : List Instr} {s : State} {q : NeuralRun} {d : NodeDesc} {r : NodeRun} {g k obj off n : Nat} : State.Kept cn ql s → State.Kept cn ql (State.takeChunk s q d r g k obj off n) := by
  intros
  unfold State.takeChunk
  repeat' (first
    | with_reducible assumption
    | with_reducible apply State.endPasses_kept
    | with_reducible apply State.updRun_kept
    | with_reducible apply kept_ite
    | simp only [kept_mk_iff]
    | with_reducible rfl
    | split
    | dsimp only)

theorem State.takeHeader_kept {cn : Prop} {ql : List Instr} {s : State} {port : Nat} {h : HeaderVerdict} : State.Kept cn ql s → State.Kept cn ql (Prod.snd (State.takeHeader s port h)) := by
  intros
  unfold State.takeHeader
  repeat' (first
    | with_reducible assumption
    | with_reducible apply State.addSat_kept
    | with_reducible apply State.badPort_kept
    | simp only [kept_mk_iff]
    | with_reducible rfl
    | (refine kept_snd (by with_reducible assumption) ?_)
    | split
    | dsimp only)

theorem State.takeOffer_kept {cn : Prop} {ql : List Instr} {s : State} {o : TxOffer} : State.Kept cn ql s → State.Kept cn ql (State.takeOffer s o) := by
  intros
  unfold State.takeOffer
  repeat' (first
    | with_reducible assumption
    | with_reducible apply State.startPayload_kept
    | (refine State.imagePayload_kept (by with_reducible assumption) ?_)
    | with_reducible apply State.setTx_kept
    | with_reducible apply State.skipPayload_kept
    | with_reducible apply kept_ite
    | simp only [kept_mk_iff]
    | with_reducible rfl
    | (refine kept_snd (by with_reducible assumption) ?_)
    | split
    | dsimp only)

theorem State.updateRate_kept {cn : Prop} {ql : List Instr} {s : State} {m : Nat} {offset : Rat} : State.Kept cn ql s → State.Kept cn ql (State.updateRate s m offset) := by
  intros
  unfold State.updateRate
  repeat' (first
    | with_reducible assumption
    | with_reducible apply State.setRate_kept
    | with_reducible apply kept_ite
    | simp only [kept_mk_iff]
    | with_reducible rfl
    | split
    | dsimp only)

theorem State.takeOffset_kept {cn : Prop} {ql : List Instr} {s : State} {m : Nat} {offset gmRate : Rat} {logInterval : Int} : State.Kept cn ql s → State.Kept cn ql (State.takeOffset s m offset gmRate logInterval) := by
  intros
  unfold State.takeOffset
  repeat' (first
    | with_reducible assumption
    | with_reducible apply State.recordOffset_kept
    | with_reducible apply State.refuseOffset_kept
    | with_reducible apply State.countRecovery_kept
    | with_reducible apply State.judgeLock_kept
    | with_reducible apply State.updateRate_kept
    | with_reducible apply kept_ite
    | simp only [kept_mk_iff]
    | with_reducible rfl
    | split
    | dsimp only)

theorem State.takeRequest_kept {cn : Prop} {ql : List Instr} {s : State} {n cause : Nat} : State.Kept cn ql s → State.Kept cn ql (State.takeRequest s n cause) := by
  intros
  unfold State.takeRequest
  repeat' (first
    | with_reducible assumption
    | simp only [kept_mk_iff]
    | with_reducible rfl
    | dsimp only)

theorem State.takeSection_kept {cn : Prop} {ql : List Instr} {s : State} {e : Section} {b : List Byte} : State.Kept cn ql s → State.Kept cn ql (State.takeSection s e b) := by
  intros
  unfold State.takeSection
  repeat' (first
    | with_reducible assumption
    | with_reducible apply State.failCurrent_kept
    | with_reducible apply State.settleSections_kept
    | with_reducible apply State.stageSection_kept
    | with_reducible apply kept_ite
    | split
    | dsimp only)

theorem State.takeSnapshot_kept {cn : Prop} {ql : List Instr} {s : State} {t : Stamp} : State.Kept cn ql s → State.Kept cn ql (State.takeSnapshot s t) := by
  intros
  unfold State.takeSnapshot
  repeat' (first
    | with_reducible assumption
    | with_reducible apply State.strobeAll_kept
    | with_reducible apply State.markSnapshot_kept
    | with_reducible apply State.copyShadows_kept
    | simp only [kept_mk_iff]
    | with_reducible rfl
    | dsimp only)

theorem State.tapLoad_kept {cn : Prop} {ql : List Instr} {s : State} {instruction : Nat} {pattern : Option Nat} : State.Kept cn ql s → State.Kept cn ql (State.tapLoad s instruction pattern) := by
  intros
  unfold State.tapLoad
  repeat' (first
    | with_reducible assumption
    | with_reducible apply kept_ite
    | simp only [kept_mk_iff]
    | with_reducible rfl
    | split
    | dsimp only)

theorem State.taskSubmits_kept {cn : Prop} {ql : List Instr} {s : State} {t : SolverTask} {r : SolverRequest} : State.Kept cn ql s → State.Kept cn ql (State.taskSubmits s t r) := by
  intros
  unfold State.taskSubmits
  repeat' (first
    | with_reducible assumption
    | with_reducible apply State.submit_kept
    | with_reducible apply State.setWindow_kept
    | with_reducible apply kept_ite
    | simp only [kept_mk_iff]
    | with_reducible rfl
    | (refine kept_snd (by with_reducible assumption) ?_)
    | split
    | dsimp only)

theorem State.windowRun_kept {cn : Prop} {ql : List Instr} {s : State} : State.Kept cn ql s → State.Kept cn ql (State.windowRun s) := by
  intros
  unfold State.windowRun
  repeat' (first
    | with_reducible assumption
    | with_reducible apply State.setWindow_kept
    | with_reducible apply State.enterFrame_kept
    | with_reducible apply State.writeStatic_kept
    | with_reducible apply kept_ite
    | simp only [kept_mk_iff]
    | with_reducible rfl
    | (refine kept_snd (by with_reducible assumption) ?_)
    | split
    | dsimp only)

theorem State.woken_kept {cn : Prop} {ql : List Instr} {s : State} {t : PowerState} : State.Kept cn ql s → State.Kept cn ql (State.woken s t) := by
  intros
  unfold State.woken
  repeat' (first
    | with_reducible assumption
    | with_reducible apply State.setTransition_kept
    | with_reducible apply State.setFld_kept
    | with_reducible apply State.setPower_kept
    | with_reducible apply State.drainPorts_kept
    | with_reducible apply State.takeSteps_kept
    | with_reducible apply State.regate_kept
    | with_reducible apply State.resumeStreams_kept
    | with_reducible apply State.serveWaiting_kept
    | with_reducible apply State.dispatch_kept
    | with_reducible apply State.takeJob_kept
    | with_reducible apply kept_ite
    | simp only [kept_mk_iff]
    | with_reducible rfl
    | split
    | dsimp only)

theorem State.writeEntry_kept {cn : Prop} {ql : List Instr} {s : State} {i : Nat} {ack : Bool} : State.Kept cn ql s → State.Kept cn ql (State.writeEntry s i ack) := by
  intros
  unfold State.writeEntry
  repeat' (first
    | with_reducible assumption
    | with_reducible apply State.setFlag_kept
    | with_reducible apply kept_ite
    | simp only [kept_mk_iff]
    | with_reducible rfl
    | split
    | dsimp only)

end Sys2Proof.Machine
end

