-- ==== Sys2Proof/Laws/Ops.lean ====
section
/-!
SUPPORT. Laws of the shared operations: a register or a field written reads back and leaves the others, what a chain of field writes
leaves of the register file, stores and units read back, and what a fault report changes.
-/
set_option Elab.async false
namespace Sys2Proof.Machine

/-- Bit i of a field's mask. -/
theorem Fld.getLsbD_mask (f : Fld) (i : Nat) : f.mask.getLsbD i = (decide (i < 32) && decide (f.lo ≤ i) && decide (i - f.lo < f.width)) := by
  simp only [Fld.mask, BitVec.getLsbD_ofNat, Nat.testBit_mul_two_pow, Nat.testBit_two_pow_sub_one, Bool.and_assoc]

/-- A register written holds the word; every other keeps its own. -/
theorem State.rawReg_setReg (s : State) (a b : Nat) (w : Word) : (s.setReg a w).rawReg b = if b = a then w else s.rawReg b := by
  simp only [State.rawReg, State.setReg, Store.get_set]
  by_cases h : b = a
  · subst h; simp [← BitVec.xor_assoc]
  · simp [h]

/-- Another register reads as before. -/
theorem State.reg_setReg_other (s : State) (a b : Nat) (w : Word) (h : b ≠ a) : (s.setReg a w).reg b = s.reg b := by
  have e : (s.setReg a w).rawReg b = s.rawReg b := by rw [State.rawReg_setReg, if_neg h]
  simp only [State.reg, e]
  rfl

/-- A field written changes its own bits of its own register. -/
theorem State.rawReg_setFld (s : State) (f : Fld) (v b : Nat) : (s.setFld f v).rawReg b =
    if b = f.addr then (s.rawReg b &&& ~~~ f.mask) ||| BitVec.ofNat 32 (v % 2 ^ f.width * 2 ^ f.lo) else s.rawReg b := by
  simp only [State.setFld, State.rawReg_setReg]
  by_cases h : b = f.addr
  · subst h; rfl
  · simp [h]

/-- A field of another register reads as before. -/
theorem State.fld_setFld_other (s : State) (f g : Fld) (v : Nat) (h : g.addr ≠ f.addr) : (s.setFld f v).fld g = s.fld g := by
  simp only [State.fld, State.setFld, State.reg_setReg_other _ _ _ _ h]

/-- So does a flag. -/
theorem State.flag_setFld_other (s : State) (f g : Fld) (v : Nat) (h : g.addr ≠ f.addr) : (s.setFld f v).flag g = s.flag g := by
  simp only [State.flag, State.fld_setFld_other _ _ _ _ h]

/-- Two words agree in a field where its bits agree. -/
theorem fld_eq_of_bits {x y : Nat} {lo w : Nat} (h : ∀ i, i < w → x.testBit (lo + i) = y.testBit (lo + i)) :
    x / 2 ^ lo % 2 ^ w = y / 2 ^ lo % 2 ^ w := by
  apply Nat.eq_of_testBit_eq
  intro i
  simp only [Nat.testBit_mod_two_pow, Nat.testBit_div_two_pow]
  by_cases hi : i < w
  · simp only [hi, decide_true, Bool.true_and]; rw [Nat.add_comm]; exact h i hi
  · simp [hi]

/-- A field that shares no bit reads as before. -/
theorem State.fld_setFld_apart (s : State) (f g : Fld) (v : Nat) (h : f.lo + f.width ≤ g.lo ∨ g.lo + g.width ≤ f.lo) :
    (s.setFld f v).fld g = s.fld g := by
  by_cases ha : g.addr = f.addr
  · simp only [State.fld]
    apply fld_eq_of_bits
    intro i hi
    have e : ∀ w : Word, w.toNat.testBit (g.lo + i) = w.getLsbD (g.lo + i) := fun w => rfl
    have e2 : (s.setFld f v).cast = s.cast := rfl
    have key : ((s.setFld f v).rawReg g.addr).getLsbD (g.lo + i) = (s.rawReg g.addr).getLsbD (g.lo + i) := by
      rw [State.rawReg_setFld, if_pos ha]
      simp only [BitVec.getLsbD_or, BitVec.getLsbD_and, BitVec.getLsbD_not, Fld.getLsbD_mask, BitVec.getLsbD_ofNat, Nat.testBit_mul_two_pow,
        Nat.testBit_mod_two_pow]
      by_cases hlt : g.lo + i < 32
      · rcases h with h | h
        · have h1 : ¬ (g.lo + i - f.lo < f.width) := by omega
          simp [hlt, h1]
        · have h1 : ¬ (f.lo ≤ g.lo + i) := by omega
          simp [hlt, h1]
      · have h0 : (s.rawReg g.addr).getLsbD (g.lo + i) = false := BitVec.getLsbD_of_ge _ _ (by omega)
        simp [hlt, h0]
    simp only [e, State.reg, e2]
    split
    · simp only [BitVec.getLsbD_and, key]
    · exact key
  · exact State.fld_setFld_other s f g v ha

/-- A field written reads as the value in its width. FUSE fields may be hidden (R111). -/
theorem State.fld_setFld_same (s : State) (f : Fld) (v : Nat) (hw : f.lo + f.width ≤ 32)
    (hf : maskAt f.addr (·.keeps == .fuse) &&& f.mask = 0) : (s.setFld f v).fld f = v % 2 ^ f.width := by
  have hm : ∀ i, i < f.width → (maskAt f.addr (·.keeps == .fuse)).getLsbD (f.lo + i) = false := by
    intro i hi
    have h := congrArg (fun w : Word => w.getLsbD (f.lo + i)) hf
    simp only [BitVec.getLsbD_and, Fld.getLsbD_mask] at h
    have h1 : f.lo + i < 32 := by omega
    have h2 : f.lo + i - f.lo < f.width := by omega
    rw [decide_eq_true h1, decide_eq_true h2, decide_eq_true (Nat.le_add_right _ _)] at h
    simpa using h
  have e2 : (s.setFld f v).cast = s.cast := rfl
  have key : ∀ i, i < f.width → ((s.setFld f v).reg f.addr).toNat.testBit (f.lo + i) = (v % 2 ^ f.width * 2 ^ f.lo).testBit (f.lo + i) := by
    intro i hi
    have e : ∀ w : Word, w.toNat.testBit (f.lo + i) = w.getLsbD (f.lo + i) := fun w => rfl
    have h1 : f.lo + i < 32 := by omega
    have h2 : f.lo + i - f.lo = i := by omega
    have k : ((s.setFld f v).rawReg f.addr).getLsbD (f.lo + i) = (v % 2 ^ f.width * 2 ^ f.lo).testBit (f.lo + i) := by
      rw [State.rawReg_setFld, if_pos rfl]
      simp only [BitVec.getLsbD_or, BitVec.getLsbD_and, BitVec.getLsbD_not, Fld.getLsbD_mask, BitVec.getLsbD_ofNat]
      simp [h1, h2, hi]
    rw [e]
    simp only [State.reg, e2]
    split
    · simp only [BitVec.getLsbD_and, BitVec.getLsbD_not, hm i hi, k]
      simp [h1]
    · exact k
  have h := fld_eq_of_bits key
  simp only [State.fld]
  rw [h, Nat.mul_div_cancel _ (Nat.two_pow_pos _), Nat.mod_mod]

/-- A flag written reads as it was written. -/
theorem State.flag_setFlag_same (s : State) (f : Fld) (b : Bool) (hw : f.lo + f.width ≤ 32) (h1 : f.width = 1)
    (hf : maskAt f.addr (·.keeps == .fuse) &&& f.mask = 0) : (s.setFlag f b).flag f = b := by
  simp only [State.flag, State.setFlag, State.fld_setFld_same s f _ hw hf, h1]
  cases b <;> rfl

/-! ### What differs -/

/-- A state differs from itself nowhere. -/
theorem regsBut_refl (l : List Fld) (s : State) : RegsBut l s s := by
  intro a; simp

/-- Nothing differs where the register file is the same. -/
theorem regsBut_of_regs {l : List Fld} {s t : State} (h : t.regs = s.regs) : RegsBut l s t := by
  intro a; simp [State.rawReg, h]

/-- Bits gathered on top of others. -/
theorem bitsAt_foldl (l : List Fld) (a : Nat) (m : Word) :
    l.foldl (fun m f => if f.addr = a then m ||| f.mask else m) m = m ||| bitsAt l a := by
  induction l generalizing m with
  | nil => simp [bitsAt]
  | cons f r ih =>
    have e : bitsAt (f :: r) a = (if f.addr = a then (0 : Word) ||| f.mask else 0) ||| bitsAt r a := ih _
    rw [List.foldl_cons, ih, e]
    split <;> simp [BitVec.or_assoc]

/-- The bits of a list with one more field. -/
theorem bitsAt_cons (f : Fld) (l : List Fld) (a : Nat) : bitsAt (f :: l) a = (if f.addr = a then f.mask else 0) ||| bitsAt l a := by
  rw [bitsAt, List.foldl_cons, bitsAt_foldl]
  split <;> simp

/-- The bits of two lists. -/
theorem bitsAt_append (l m : List Fld) (a : Nat) : bitsAt (l ++ m) a = bitsAt l a ||| bitsAt m a := by
  rw [bitsAt, List.foldl_append]
  exact bitsAt_foldl m a _

/-- A listed field's bits are covered. -/
theorem bitsAt_mem {l : List Fld} {f : Fld} (h : f ∈ l) : f.mask &&& ~~~ bitsAt l f.addr = 0 := by
  induction l with
  | nil => simp at h
  | cons g r ih =>
    rw [bitsAt_cons]
    apply BitVec.eq_of_getLsbD_eq
    intro i hi
    rcases List.mem_cons.mp h with h | h
    · subst h
      simp only [if_true, BitVec.getLsbD_and, BitVec.getLsbD_not, BitVec.getLsbD_or, hi, decide_true, Bool.true_and]
      cases f.mask.getLsbD i <;> simp
    · have k := congrArg (fun w : Word => w.getLsbD i) (ih h)
      simp only [BitVec.getLsbD_and, BitVec.getLsbD_not, BitVec.getLsbD_or, hi, decide_true, Bool.true_and] at k ⊢
      revert k
      cases f.mask.getLsbD i <;> cases (bitsAt r f.addr).getLsbD i <;> simp

/-- Steps compose: what neither changes stays. -/
theorem regsBut_trans {l : List Fld} {s t u : State} (h : RegsBut l s t) (k : RegsBut l t u) : RegsBut l s u := by
  intro a
  have e : s.rawReg a ^^^ u.rawReg a = (s.rawReg a ^^^ t.rawReg a) ^^^ (t.rawReg a ^^^ u.rawReg a) := by
    rw [BitVec.xor_assoc, ← BitVec.xor_assoc (t.rawReg a), BitVec.xor_self, BitVec.zero_xor]
  have h1 := h a
  have k1 := k a
  apply BitVec.eq_of_getLsbD_eq
  intro i hi
  have h2 := congrArg (fun w : Word => w.getLsbD i) h1
  have k2 := congrArg (fun w : Word => w.getLsbD i) k1
  simp only [e, BitVec.getLsbD_and, BitVec.getLsbD_xor, BitVec.getLsbD_not] at h2 k2 ⊢
  revert h2 k2
  cases (s.rawReg a).getLsbD i <;> cases (t.rawReg a).getLsbD i <;> cases (u.rawReg a).getLsbD i <;> simp_all

/-- Writing a listed field changes no bit outside the list. -/
theorem regsBut_setFld {l : List Fld} {s t : State} {f : Fld} {v : Nat} (m : f ∈ l) (h : RegsBut l s t) : RegsBut l s (t.setFld f v) := by
  refine regsBut_trans h ?_
  intro a
  rw [State.rawReg_setFld]
  split
  · rename_i e
    subst e
    have k := bitsAt_mem m
    apply BitVec.eq_of_getLsbD_eq
    intro i hi
    have k2 := congrArg (fun w : Word => w.getLsbD i) k
    simp only [BitVec.getLsbD_and, BitVec.getLsbD_not, Fld.getLsbD_mask, hi, decide_true, Bool.true_and] at k2
    simp only [BitVec.getLsbD_and, BitVec.getLsbD_not, BitVec.getLsbD_xor, BitVec.getLsbD_or, Fld.getLsbD_mask,
      BitVec.getLsbD_ofNat, Nat.testBit_mul_two_pow, Nat.testBit_mod_two_pow, hi, decide_true, Bool.true_and]
    revert k2
    cases (bitsAt l f.addr).getLsbD i <;> cases decide (f.lo ≤ i) <;> cases decide (i - f.lo < f.width) <;> simp
  · simp

theorem regsBut_setFlag {l : List Fld} {s t : State} {f : Fld} {b : Bool} (m : f ∈ l) (h : RegsBut l s t) : RegsBut l s (t.setFlag f b) :=
  regsBut_setFld m h
theorem regsBut_addSat {l : List Fld} {s t : State} {f : Fld} {k : Nat} (m : f ∈ l) (h : RegsBut l s t) : RegsBut l s (t.addSat f k) :=
  regsBut_setFld m h
theorem regsBut_addWrap {l : List Fld} {s t : State} {f : Fld} {k : Nat} (m : f ∈ l) (h : RegsBut l s t) : RegsBut l s (t.addWrap f k) :=
  regsBut_setFld m h
theorem regsBut_raiseMax {l : List Fld} {s t : State} {f : Fld} {k : Nat} (m : f ∈ l) (h : RegsBut l s t) : RegsBut l s (t.raiseMax f k) :=
  regsBut_setFld m h
theorem regsBut_setReg {l : List Fld} {s t : State} {a : Nat} {w : Word} (m : whole a ∈ l) (h : RegsBut l s t) : RegsBut l s (t.setReg a w) := by
  refine regsBut_trans h ?_
  intro b
  rw [State.rawReg_setReg]
  split
  · rename_i e
    subst e
    have k := bitsAt_mem m
    have e : (whole b).mask = BitVec.allOnes 32 := by
      show BitVec.ofNat 32 ((2 ^ 32 - 1) * 2 ^ 0) = _
      decide
    rw [e, BitVec.allOnes_and] at k
    change ~~~ bitsAt l b = 0 at k
    simp [k]
  · simp

/-! ### The stores -/

/-- Consecutive keys written read back. -/
theorem Store.getMany_setMany {α : Type} [DecidableEq α] (d : α) (l : List α) (m : Store α) (a : Nat) :
    Store.getMany d (Store.setMany d m a l) a l.length = l := by
  have go : ∀ (n b : Nat) (h : n + b ≤ l.length), Store.getMany d (Store.setMany d m a l) (a + b) n = (l.drop b).take n := by
    intro n
    induction n with
    | zero => intro b h; simp [Store.getMany]
    | succ n ih =>
      intro b h
      have hb : b < l.length := by omega
      have e : a + b + 1 = a + (b + 1) := by omega
      simp only [Store.getMany]
      rw [Store.get_setMany, e, ih (b + 1) (by omega)]
      have h2 : a ≤ a + b ∧ a + b - a < l.length := by omega
      rw [dif_pos h2, List.drop_eq_getElem_cons hb, List.take_succ_cons]
      congr 2
      omega
  have h := go l.length 0 (by omega)
  simpa using h

/-- A range apart from what was written reads as before. -/
theorem Store.getMany_setMany_apart {α : Type} [DecidableEq α] (d : α) (l : List α) (m : Store α) (a b n : Nat)
    (h : b + n ≤ a ∨ a + l.length ≤ b) : Store.getMany d (Store.setMany d m a l) b n = Store.getMany d m b n := by
  induction n generalizing b with
  | zero => rfl
  | succ n ih =>
    simp only [Store.getMany, Store.get_setMany]
    rw [ih (b + 1) (by omega), dif_neg (by omega)]

/-! ### Units read back -/

/-- A unit set reads back, and the others stay. -/
theorem State.problem_setProblem (s : State) (c d : Nat) (p : Option Problem) : (s.setProblem c p).problem d = if d = c then p else s.problem d := by
  simp only [State.problem, State.setProblem, Store.get_set]
theorem State.marker_setMarker (s : State) (m k : Nat) (v : Marker) : (s.setMarker m v).marker k = if k = m then v else s.marker k := by
  simp only [State.marker, State.setMarker, Store.get_set]
theorem State.object_setObject (s : State) (i k : Nat) (o : Option MemObject) : (s.setObject i o).object k = if k = i then o else s.object k := by
  simp only [State.object, State.setObject, Store.get_set]
theorem State.mac_setMac (s : State) (m k : Nat) (p : EthPort) : (s.setMac m p).mac k = if k = m then p else s.mac k := by
  simp only [State.mac, State.setMac, Store.get_set]
theorem State.txStream_setTx (s : State) (i k : Nat) (v : TxStream) : (s.setTx i v).txStream k = if k = i then v else s.txStream k := by
  simp only [State.txStream, State.setTx, Store.get_set]
theorem State.txPortState_setTxPort (s : State) (i k : Nat) (v : TxPort) : (s.setTxPort i v).txPortState k = if k = i then v else s.txPortState k := by
  simp only [State.txPortState, State.setTxPort, Store.get_set]
theorem State.stream_setStream (s : State) (i k : Nat) (v : Stream) : (s.setStream i v).stream k = if k = i then v else s.stream k := by
  simp only [State.stream, State.setStream, Store.get_set]
theorem State.groupPhase_setGroupPhase (s : State) (g k : Nat) (p : GroupPhase) : (s.setGroupPhase g p).groupPhase k = if k = g then p else s.groupPhase k := by
  simp only [State.groupPhase, State.setGroupPhase, Store.get_set]
theorem State.memBytes_setMemBytes (s : State) (id off : Nat) (l : List Byte) : (s.setMemBytes id off l).memBytes id off l.length = l :=
  Store.getMany_setMany 0 l s.mem.bytes (memKey id off)
theorem State.objBytes_setObjBytes (s : State) (w o off : Nat) (l : List Byte) : (s.setObjBytes w o off l).objBytes w o off l.length = l :=
  Store.getMany_setMany 0 l s.sram (objectKey w o off)

/-! ### Fault reports -/

/-- A fault raised joins the reports on their way, and may ask for a swatch reset; nothing else of the block changes. -/
theorem State.raiseFault_frame (s : State) (c source : Nat) (detail : Word) :
    s.raiseFault c source detail = { s with integ := (s.raiseFault c source detail).integ, sw := (s.raiseFault c source detail).sw } ∧
    (s.raiseFault c source detail).integ = { s.integ with flits := s.integ.flits ++ [.report ⟨c, source, detail, s.stamp⟩] } ∧
    (s.raiseFault c source detail).sw = { s.sw with requests := (s.raiseFault c source detail).sw.requests } := by
  simp only [State.raiseFault, State.askReset]
  split
  · split <;> exact ⟨rfl, rfl, rfl⟩
  · exact ⟨rfl, rfl, rfl⟩

end Sys2Proof.Machine
end

