-- ==== Sys2Proof/Laws/Pinned.lean ====
section
/-!
SUPPORT. What cast-on lock, bind-off and the swatch resets do beside their own part leaves the output pins, the power state, the swatches in reset and the
phases of the reset groups as they are.
-/
set_option linter.unusedSimpArgs false
set_option Elab.async false
namespace Sys2Proof.Machine

/-- The output pins and the power state are `p`; the swatches in reset and the phases of the groups are `r`. -/
structure State.Pinned (p : Pins × Power) (r : BitVec 48 × Store GroupPhase) (s : State) : Prop where
  pins : s.pins = p.1
  power : s.power = p.2
  inReset : s.sw.inReset = r.1
  phase : s.sw.phase = r.2

theorem pinned_mk_iff {C : Pins × Power} {q : BitVec 48 × Store GroupPhase} {s : State} {x1 x2 x3 x4 x5 x6 x7 x8 x9 x10 x11 x12 x13 x14 x15 x16 x17 x18 x19 x20 x21 x22 x23 x24 x26 x28 x29} (h : x6.inReset = s.sw.inReset)
    (h3 : x6.phase = s.sw.phase) :
    (State.mk x1 x2 x3 x4 x5 x6 x7 x8 x9 x10 x11 x12 x13 x14 x15 x16 x17 x18 x19 x20 x21 x22 x23 x24 s.power x26 s.pins x28 x29).Pinned C q ↔
      s.Pinned C q :=
  ⟨fun h2 => ⟨h2.1, h2.2, h ▸ h2.3, h3 ▸ h2.4⟩, fun h2 => ⟨h2.1, h2.2, h.trans h2.3, h3.trans h2.4⟩⟩

theorem pinned_snd {C : Pins × Power} {q : BitVec 48 × Store GroupPhase} {α : Type} {x : α × State} {a : α} {t : State} (e : x = (a, t)) (h : x.2.Pinned C q) : t.Pinned C q := by
  subst e; exact h

theorem pinned_foldl {C : Pins × Power} {q : BitVec 48 × Store GroupPhase} {α : Type} {g : State → α → State} {l : List α} {s : State} (h : s.Pinned C q)
    (hg : ∀ t x, t.Pinned C q → (g t x).Pinned C q) : (l.foldl g s).Pinned C q := by
  induction l generalizing s with
  | nil => exact h
  | cons x r ih => exact ih (hg s x h)

theorem pinned_foldl_snd {C : Pins × Power} {q : BitVec 48 × Store GroupPhase} {α β : Type} {g : β × State → α → β × State} {l : List α} {x : β × State} (h : x.2.Pinned C q)
    (hg : ∀ y e, y.2.Pinned C q → (g y e).2.Pinned C q) : (l.foldl g x).2.Pinned C q := by
  induction l generalizing x with
  | nil => exact h
  | cons a r ih => exact ih (hg x a h)

theorem pinned_foldl_of {C : Pins × Power} {q : BitVec 48 × Store GroupPhase} {α β : Type} (p : β → State) {g : β → α → β} {l : List α} {x : β} (h : (p x).Pinned C q)
    (hg : ∀ y e, (p y).Pinned C q → (p (g y e)).Pinned C q) : (p (l.foldl g x)).Pinned C q := by
  induction l generalizing x with
  | nil => exact h
  | cons a r ih => exact ih (hg x a h)

theorem pinned_ite {C : Pins × Power} {q : BitVec 48 × Store GroupPhase} {c : Prop} [Decidable c] {a b : State} (ha : a.Pinned C q) (hb : b.Pinned C q) :
    (if c then a else b).Pinned C q := by
  split <;> assumption
theorem State.setReg_pinned {cn : Pins × Power} {ql : BitVec 48 × Store GroupPhase} {s : State} {a : Nat} {w : Word} : State.Pinned cn ql s → State.Pinned cn ql (State.setReg s a w) := by
  intros
  unfold State.setReg
  repeat' (first
    | intro _
    | with_reducible assumption
    | with_reducible apply pinned_foldl
    | with_reducible apply pinned_foldl_snd
    | with_reducible apply pinned_ite
    | simp only [pinned_mk_iff]
    | with_reducible rfl
    | (refine pinned_snd (by with_reducible assumption) ?_)
    | split
    | dsimp only)

theorem State.setFld_pinned {cn : Pins × Power} {ql : BitVec 48 × Store GroupPhase} {s : State} {f : Fld} {v : Nat} : State.Pinned cn ql s → State.Pinned cn ql (State.setFld s f v) := by
  intros
  unfold State.setFld
  repeat' (first
    | intro _
    | with_reducible assumption
    | with_reducible apply State.setReg_pinned
    | with_reducible apply pinned_foldl
    | with_reducible apply pinned_foldl_snd
    | with_reducible apply pinned_ite
    | simp only [pinned_mk_iff]
    | with_reducible rfl
    | (refine pinned_snd (by with_reducible assumption) ?_)
    | split
    | dsimp only)

theorem State.setFlag_pinned {cn : Pins × Power} {ql : BitVec 48 × Store GroupPhase} {s : State} {f : Fld} {b : Bool} : State.Pinned cn ql s → State.Pinned cn ql (State.setFlag s f b) := by
  intros
  unfold State.setFlag
  repeat' (first
    | intro _
    | with_reducible assumption
    | with_reducible apply State.setFld_pinned
    | with_reducible apply pinned_foldl
    | with_reducible apply pinned_foldl_snd
    | with_reducible apply pinned_ite
    | simp only [pinned_mk_iff]
    | with_reducible rfl
    | (refine pinned_snd (by with_reducible assumption) ?_)
    | split
    | dsimp only)

theorem State.setUnit_pinned {cn : Pins × Power} {ql : BitVec 48 × Store GroupPhase} {s : State} {n : Nat} {u : CheckUnit} : State.Pinned cn ql s → State.Pinned cn ql (State.setUnit s n u) := by
  intros
  unfold State.setUnit
  repeat' (first
    | intro _
    | with_reducible assumption
    | with_reducible apply State.setFlag_pinned
    | with_reducible apply pinned_foldl
    | with_reducible apply pinned_foldl_snd
    | with_reducible apply pinned_ite
    | simp only [pinned_mk_iff]
    | with_reducible rfl
    | (refine pinned_snd (by with_reducible assumption) ?_)
    | split
    | dsimp only)

theorem State.freeUnit_pinned {cn : Pins × Power} {ql : BitVec 48 × Store GroupPhase} {s : State} {n : Nat} : State.Pinned cn ql s → State.Pinned cn ql (State.freeUnit s n) := by
  intros
  unfold State.freeUnit
  repeat' (first
    | intro _
    | with_reducible assumption
    | with_reducible apply State.setUnit_pinned
    | with_reducible apply pinned_foldl
    | with_reducible apply pinned_foldl_snd
    | with_reducible apply pinned_ite
    | simp only [pinned_mk_iff]
    | with_reducible rfl
    | (refine pinned_snd (by with_reducible assumption) ?_)
    | split
    | dsimp only)

theorem State.abandonFeeder_pinned {cn : Pins × Power} {ql : BitVec 48 × Store GroupPhase} {s : State} {point : Nat} : State.Pinned cn ql s → State.Pinned cn ql (State.abandonFeeder s point) := by
  intros
  unfold State.abandonFeeder
  repeat' (first
    | intro _
    | with_reducible assumption
    | with_reducible apply State.setUnit_pinned
    | with_reducible apply State.freeUnit_pinned
    | with_reducible apply pinned_foldl
    | with_reducible apply pinned_foldl_snd
    | with_reducible apply pinned_ite
    | simp only [pinned_mk_iff]
    | with_reducible rfl
    | (refine pinned_snd (by with_reducible assumption) ?_)
    | split
    | dsimp only)

theorem State.abandonMove_pinned {cn : Pins × Power} {ql : BitVec 48 × Store GroupPhase} {s : State} {code : Nat} : State.Pinned cn ql s → State.Pinned cn ql (State.abandonMove s code) := by
  intros
  unfold State.abandonMove
  repeat' (first
    | intro _
    | with_reducible assumption
    | with_reducible apply pinned_foldl
    | with_reducible apply pinned_foldl_snd
    | with_reducible apply pinned_ite
    | simp only [pinned_mk_iff]
    | with_reducible rfl
    | (refine pinned_snd (by with_reducible assumption) ?_)
    | split
    | dsimp only)

theorem State.setMarker_pinned {cn : Pins × Power} {ql : BitVec 48 × Store GroupPhase} {s : State} {m : Nat} {k : Marker} : State.Pinned cn ql s → State.Pinned cn ql (State.setMarker s m k) := by
  intros
  unfold State.setMarker
  repeat' (first
    | intro _
    | with_reducible assumption
    | with_reducible apply pinned_foldl
    | with_reducible apply pinned_foldl_snd
    | with_reducible apply pinned_ite
    | simp only [pinned_mk_iff]
    | with_reducible rfl
    | (refine pinned_snd (by with_reducible assumption) ?_)
    | split
    | dsimp only)

theorem State.setGraph_pinned {cn : Pins × Power} {ql : BitVec 48 × Store GroupPhase} {s : State} {g : Nat} {v : Graph} : State.Pinned cn ql s → State.Pinned cn ql (State.setGraph s g v) := by
  intros
  unfold State.setGraph
  repeat' (first
    | intro _
    | with_reducible assumption
    | with_reducible apply State.setFlag_pinned
    | with_reducible apply pinned_foldl
    | with_reducible apply pinned_foldl_snd
    | with_reducible apply pinned_ite
    | simp only [pinned_mk_iff]
    | with_reducible rfl
    | (refine pinned_snd (by with_reducible assumption) ?_)
    | split
    | dsimp only)

theorem State.updAct_pinned {cn : Pins × Power} {ql : BitVec 48 × Store GroupPhase} {s : State} {g : Nat} {f : Activation → Activation} : State.Pinned cn ql s → State.Pinned cn ql (State.updAct s g f) := by
  intros
  unfold State.updAct
  repeat' (first
    | intro _
    | with_reducible assumption
    | with_reducible apply State.setGraph_pinned
    | with_reducible apply pinned_foldl
    | with_reducible apply pinned_foldl_snd
    | with_reducible apply pinned_ite
    | simp only [pinned_mk_iff]
    | with_reducible rfl
    | (refine pinned_snd (by with_reducible assumption) ?_)
    | split
    | dsimp only)

theorem State.updNode_pinned {cn : Pins × Power} {ql : BitVec 48 × Store GroupPhase} {s : State} {g n : Nat} {f : NodeRun → NodeRun} : State.Pinned cn ql s → State.Pinned cn ql (State.updNode s g n f) := by
  intros
  unfold State.updNode
  repeat' (first
    | intro _
    | with_reducible assumption
    | with_reducible apply State.updAct_pinned
    | with_reducible apply pinned_foldl
    | with_reducible apply pinned_foldl_snd
    | with_reducible apply pinned_ite
    | simp only [pinned_mk_iff]
    | with_reducible rfl
    | (refine pinned_snd (by with_reducible assumption) ?_)
    | split
    | dsimp only)

theorem State.answer_pinned {cn : Pins × Power} {ql : BitVec 48 × Store GroupPhase} {s : State} {agent m gen : Nat} {a : MarkerAnswer} : State.Pinned cn ql s → State.Pinned cn ql (State.answer s agent m gen a) := by
  intros
  unfold State.answer
  repeat' (first
    | intro _
    | with_reducible assumption
    | with_reducible apply State.updNode_pinned
    | with_reducible apply pinned_foldl
    | with_reducible apply pinned_foldl_snd
    | with_reducible apply pinned_ite
    | simp only [pinned_mk_iff]
    | with_reducible rfl
    | (refine pinned_snd (by with_reducible assumption) ?_)
    | split
    | dsimp only)

theorem State.abandonOp_pinned {cn : Pins × Power} {ql : BitVec 48 × Store GroupPhase} {s : State} {m agent : Nat} {t : State} : State.abandonOp s m agent = Option.some t → State.Pinned cn ql s → State.Pinned cn ql t := by
  intro he h
  unfold State.abandonOp at he
  try dsimp only at he
  repeat' (first
    | contradiction
    | (injection he with he; subst he)
    | split at he)
  all_goals
  repeat' (first
    | intro _
    | with_reducible assumption
    | with_reducible apply State.setMarker_pinned
    | with_reducible apply State.answer_pinned
    | with_reducible apply pinned_foldl
    | with_reducible apply pinned_foldl_snd
    | with_reducible apply pinned_ite
    | simp only [pinned_mk_iff]
    | with_reducible rfl
    | (refine pinned_snd (by with_reducible assumption) ?_)
    | split
    | dsimp only)

theorem State.askReset_pinned {cn : Pins × Power} {ql : BitVec 48 × Store GroupPhase} {s : State} {n cause : Nat} : State.Pinned cn ql s → State.Pinned cn ql (State.askReset s n cause) := by
  intros
  unfold State.askReset
  repeat' (first
    | intro _
    | with_reducible assumption
    | with_reducible apply pinned_foldl
    | with_reducible apply pinned_foldl_snd
    | with_reducible apply pinned_ite
    | simp only [pinned_mk_iff]
    | with_reducible rfl
    | (refine pinned_snd (by with_reducible assumption) ?_)
    | split
    | dsimp only)

theorem State.raiseFault_pinned {cn : Pins × Power} {ql : BitVec 48 × Store GroupPhase} {s : State} {c source : Nat} {detail : Word} : State.Pinned cn ql s → State.Pinned cn ql (State.raiseFault s c source detail) := by
  intros
  unfold State.raiseFault
  repeat' (first
    | intro _
    | with_reducible assumption
    | with_reducible apply State.askReset_pinned
    | with_reducible apply pinned_foldl
    | with_reducible apply pinned_foldl_snd
    | with_reducible apply pinned_ite
    | simp only [pinned_mk_iff]
    | with_reducible rfl
    | (refine pinned_snd (by with_reducible assumption) ?_)
    | split
    | dsimp only)

theorem State.addSat_pinned {cn : Pins × Power} {ql : BitVec 48 × Store GroupPhase} {s : State} {f : Fld} {k : Nat} : State.Pinned cn ql s → State.Pinned cn ql (State.addSat s f k) := by
  intros
  unfold State.addSat
  repeat' (first
    | intro _
    | with_reducible assumption
    | with_reducible apply State.setFld_pinned
    | with_reducible apply pinned_foldl
    | with_reducible apply pinned_foldl_snd
    | with_reducible apply pinned_ite
    | simp only [pinned_mk_iff]
    | with_reducible rfl
    | (refine pinned_snd (by with_reducible assumption) ?_)
    | split
    | dsimp only)

theorem State.stitchProto_pinned {cn : Pins × Power} {ql : BitVec 48 × Store GroupPhase} {s : State} {m agent : Nat} : State.Pinned cn ql s → State.Pinned cn ql (State.stitchProto s m agent) := by
  intros
  unfold State.stitchProto
  repeat' (first
    | intro _
    | with_reducible assumption
    | with_reducible apply State.raiseFault_pinned
    | with_reducible apply State.addSat_pinned
    | with_reducible apply pinned_foldl
    | with_reducible apply pinned_foldl_snd
    | with_reducible apply pinned_ite
    | simp only [pinned_mk_iff]
    | with_reducible rfl
    | (refine pinned_snd (by with_reducible assumption) ?_)
    | split
    | dsimp only)

theorem State.orProto_pinned {cn : Pins × Power} {ql : BitVec 48 × Store GroupPhase} {s : State} {m agent : Nat} {r : Option State} : (∀ t, r = some t → t.Pinned cn ql) → s.Pinned cn ql → (s.orProto m agent r).Pinned cn ql := by
  intro hr h
  unfold State.orProto
  split
  · exact hr _ rfl
  · exact State.stitchProto_pinned h

theorem State.abandonOutputs_pinned {cn : Pins × Power} {ql : BitVec 48 × Store GroupPhase} {s : State} {g n : Nat} {r : NodeRun} : State.Pinned cn ql s → State.Pinned cn ql (State.abandonOutputs s g n r) := by
  intros
  unfold State.abandonOutputs
  repeat' (first
    | intro _
    | with_reducible assumption
    | with_reducible apply State.orProto_pinned
    | (refine State.abandonOp_pinned (by with_reducible assumption) ?_)
    | with_reducible apply pinned_foldl
    | with_reducible apply pinned_foldl_snd
    | with_reducible apply pinned_ite
    | simp only [pinned_mk_iff]
    | with_reducible rfl
    | (refine pinned_snd (by with_reducible assumption) ?_)
    | split
    | dsimp only)

theorem State.setImport_pinned {cn : Pins × Power} {ql : BitVec 48 × Store GroupPhase} {s : State} {i : Option Import} : State.Pinned cn ql s → State.Pinned cn ql (State.setImport s i) := by
  intros
  unfold State.setImport
  repeat' (first
    | intro _
    | with_reducible assumption
    | with_reducible apply State.setFld_pinned
    | with_reducible apply pinned_foldl
    | with_reducible apply pinned_foldl_snd
    | with_reducible apply pinned_ite
    | simp only [pinned_mk_iff]
    | with_reducible rfl
    | (refine pinned_snd (by with_reducible assumption) ?_)
    | split
    | dsimp only)

theorem State.addWrap_pinned {cn : Pins × Power} {ql : BitVec 48 × Store GroupPhase} {s : State} {f : Fld} {k : Nat} : State.Pinned cn ql s → State.Pinned cn ql (State.addWrap s f k) := by
  intros
  unfold State.addWrap
  repeat' (first
    | intro _
    | with_reducible assumption
    | with_reducible apply State.setFld_pinned
    | with_reducible apply pinned_foldl
    | with_reducible apply pinned_foldl_snd
    | with_reducible apply pinned_ite
    | simp only [pinned_mk_iff]
    | with_reducible rfl
    | (refine pinned_snd (by with_reducible assumption) ?_)
    | split
    | dsimp only)

theorem State.countResult_pinned {cn : Pins × Power} {ql : BitVec 48 × Store GroupPhase} {s : State} {result detail : Nat} : State.Pinned cn ql s → State.Pinned cn ql (State.countResult s result detail) := by
  intros
  unfold State.countResult
  repeat' (first
    | intro _
    | with_reducible assumption
    | with_reducible apply State.addWrap_pinned
    | with_reducible apply State.addSat_pinned
    | with_reducible apply pinned_foldl
    | with_reducible apply pinned_foldl_snd
    | with_reducible apply pinned_ite
    | simp only [pinned_mk_iff]
    | with_reducible rfl
    | (refine pinned_snd (by with_reducible assumption) ?_)
    | split
    | dsimp only)

theorem State.addStatus_pinned {cn : Pins × Power} {ql : BitVec 48 × Store GroupPhase} {s : State} {dt result detail alive : Nat} {arrival : Stamp} : State.Pinned cn ql s → State.Pinned cn ql (State.addStatus s dt result detail alive arrival) := by
  intros
  unfold State.addStatus
  repeat' (first
    | intro _
    | with_reducible assumption
    | with_reducible apply State.countResult_pinned
    | with_reducible apply State.setFld_pinned
    | with_reducible apply pinned_foldl
    | with_reducible apply pinned_foldl_snd
    | with_reducible apply pinned_ite
    | simp only [pinned_mk_iff]
    | with_reducible rfl
    | (refine pinned_snd (by with_reducible assumption) ?_)
    | split
    | dsimp only)

theorem State.raiseIbi_pinned {cn : Pins × Power} {ql : BitVec 48 × Store GroupPhase} {s : State} {c : Nat} : State.Pinned cn ql s → State.Pinned cn ql (State.raiseIbi s c) := by
  intros
  unfold State.raiseIbi
  repeat' (first
    | intro _
    | with_reducible assumption
    | with_reducible apply State.setFld_pinned
    | with_reducible apply pinned_foldl
    | with_reducible apply pinned_foldl_snd
    | with_reducible apply pinned_ite
    | simp only [pinned_mk_iff]
    | with_reducible rfl
    | (refine pinned_snd (by with_reducible assumption) ?_)
    | split
    | dsimp only)

theorem State.endImport_pinned {cn : Pins × Power} {ql : BitVec 48 × Store GroupPhase} {s : State} {code alive : Nat} {arrival : Stamp} : State.Pinned cn ql s → State.Pinned cn ql (State.endImport s code alive arrival) := by
  intros
  unfold State.endImport
  repeat' (first
    | intro _
    | with_reducible assumption
    | with_reducible apply State.setFlag_pinned
    | with_reducible apply State.setFld_pinned
    | with_reducible apply State.setImport_pinned
    | with_reducible apply State.addStatus_pinned
    | with_reducible apply State.raiseIbi_pinned
    | with_reducible apply pinned_foldl
    | with_reducible apply pinned_foldl_snd
    | with_reducible apply pinned_ite
    | simp only [pinned_mk_iff]
    | with_reducible rfl
    | (refine pinned_snd (by with_reducible assumption) ?_)
    | split
    | dsimp only)

theorem State.stopImport_pinned {cn : Pins × Power} {ql : BitVec 48 × Store GroupPhase} {s : State} {code : Nat} : State.Pinned cn ql s → State.Pinned cn ql (State.stopImport s code) := by
  intros
  unfold State.stopImport
  repeat' (first
    | intro _
    | with_reducible assumption
    | with_reducible apply State.endImport_pinned
    | with_reducible apply pinned_foldl
    | with_reducible apply pinned_foldl_snd
    | with_reducible apply pinned_ite
    | simp only [pinned_mk_iff]
    | with_reducible rfl
    | (refine pinned_snd (by with_reducible assumption) ?_)
    | split
    | dsimp only)

theorem State.deliverQuery_pinned {cn : Pins × Power} {ql : BitVec 48 × Store GroupPhase} {s : State} {q : Query} {status cause flags : Nat} {entries : List SearchEntry} : State.Pinned cn ql s → State.Pinned cn ql (State.deliverQuery s q status cause flags entries) := by
  intros
  unfold State.deliverQuery
  repeat' (first
    | intro _
    | with_reducible assumption
    | with_reducible apply State.addWrap_pinned
    | with_reducible apply pinned_foldl
    | with_reducible apply pinned_foldl_snd
    | with_reducible apply pinned_ite
    | simp only [pinned_mk_iff]
    | with_reducible rfl
    | (refine pinned_snd (by with_reducible assumption) ?_)
    | split
    | dsimp only)

theorem State.endQuery_pinned {cn : Pins × Power} {ql : BitVec 48 × Store GroupPhase} {s : State} {q : Query} {status cause : Nat} : State.Pinned cn ql s → State.Pinned cn ql (State.endQuery s q status cause) := by
  intros
  unfold State.endQuery
  repeat' (first
    | intro _
    | with_reducible assumption
    | with_reducible apply State.addSat_pinned
    | with_reducible apply State.deliverQuery_pinned
    | with_reducible apply pinned_foldl
    | with_reducible apply pinned_foldl_snd
    | with_reducible apply pinned_ite
    | simp only [pinned_mk_iff]
    | with_reducible rfl
    | (refine pinned_snd (by with_reducible assumption) ?_)
    | split
    | dsimp only)

theorem State.endQueries_pinned {cn : Pins × Power} {ql : BitVec 48 × Store GroupPhase} {s : State} {l : List Query} {status : Nat} : State.Pinned cn ql s → State.Pinned cn ql (State.endQueries s l status) := by
  intros
  unfold State.endQueries
  repeat' (first
    | intro _
    | with_reducible assumption
    | with_reducible apply State.endQuery_pinned
    | with_reducible apply pinned_foldl
    | with_reducible apply pinned_foldl_snd
    | with_reducible apply pinned_ite
    | simp only [pinned_mk_iff]
    | with_reducible rfl
    | (refine pinned_snd (by with_reducible assumption) ?_)
    | split
    | dsimp only)

theorem State.abandonSearch_pinned {cn : Pins × Power} {ql : BitVec 48 × Store GroupPhase} {s : State} : State.Pinned cn ql s → State.Pinned cn ql (State.abandonSearch s) := by
  intros
  unfold State.abandonSearch
  repeat' (first
    | intro _
    | with_reducible assumption
    | with_reducible apply State.stopImport_pinned
    | with_reducible apply State.endQueries_pinned
    | with_reducible apply pinned_foldl
    | with_reducible apply pinned_foldl_snd
    | with_reducible apply pinned_ite
    | simp only [pinned_mk_iff]
    | with_reducible rfl
    | (refine pinned_snd (by with_reducible assumption) ?_)
    | split
    | dsimp only)

theorem State.setClassA_pinned {cn : Pins × Power} {ql : BitVec 48 × Store GroupPhase} {s : State} {a : ClassA} : State.Pinned cn ql s → State.Pinned cn ql (State.setClassA s a) := by
  intros
  unfold State.setClassA
  repeat' (first
    | intro _
    | with_reducible assumption
    | with_reducible apply pinned_foldl
    | with_reducible apply pinned_foldl_snd
    | with_reducible apply pinned_ite
    | simp only [pinned_mk_iff]
    | with_reducible rfl
    | (refine pinned_snd (by with_reducible assumption) ?_)
    | split
    | dsimp only)

theorem State.takeWord_pinned {cn : Pins × Power} {ql : BitVec 48 × Store GroupPhase} {s : State} : State.Pinned cn ql s → State.Pinned cn ql (Prod.snd (State.takeWord s)) := by
  intros
  unfold State.takeWord
  repeat' (first
    | intro _
    | with_reducible assumption
    | with_reducible apply pinned_foldl
    | with_reducible apply pinned_foldl_snd
    | with_reducible apply pinned_ite
    | simp only [pinned_mk_iff]
    | with_reducible rfl
    | (refine pinned_snd (by with_reducible assumption) ?_)
    | split
    | dsimp only)

theorem State.setWork_pinned {cn : Pins × Power} {ql : BitVec 48 × Store GroupPhase} {s : State} {w : PeriodWork} : State.Pinned cn ql s → State.Pinned cn ql (State.setWork s w) := by
  intros
  unfold State.setWork
  repeat' (first
    | intro _
    | with_reducible assumption
    | with_reducible apply pinned_foldl
    | with_reducible apply pinned_foldl_snd
    | with_reducible apply pinned_ite
    | simp only [pinned_mk_iff]
    | with_reducible rfl
    | (refine pinned_snd (by with_reducible assumption) ?_)
    | split
    | dsimp only)

theorem State.setWindow_pinned {cn : Pins × Power} {ql : BitVec 48 × Store GroupPhase} {s : State} {w : Window} : State.Pinned cn ql s → State.Pinned cn ql (State.setWindow s w) := by
  intros
  unfold State.setWindow
  repeat' (first
    | intro _
    | with_reducible assumption
    | with_reducible apply pinned_foldl
    | with_reducible apply pinned_foldl_snd
    | with_reducible apply pinned_ite
    | simp only [pinned_mk_iff]
    | with_reducible rfl
    | (refine pinned_snd (by with_reducible assumption) ?_)
    | split
    | dsimp only)

theorem State.setProblem_pinned {cn : Pins × Power} {ql : BitVec 48 × Store GroupPhase} {s : State} {c : Nat} {p : Option Problem} : State.Pinned cn ql s → State.Pinned cn ql (State.setProblem s c p) := by
  intros
  unfold State.setProblem
  repeat' (first
    | intro _
    | with_reducible assumption
    | with_reducible apply pinned_foldl
    | with_reducible apply pinned_foldl_snd
    | with_reducible apply pinned_ite
    | simp only [pinned_mk_iff]
    | with_reducible rfl
    | (refine pinned_snd (by with_reducible assumption) ?_)
    | split
    | dsimp only)

theorem State.countStatus_pinned {cn : Pins × Power} {ql : BitVec 48 × Store GroupPhase} {s : State} {c status : Nat} : State.Pinned cn ql s → State.Pinned cn ql (State.countStatus s c status) := by
  intros
  unfold State.countStatus
  repeat' (first
    | intro _
    | with_reducible assumption
    | with_reducible apply State.addSat_pinned
    | with_reducible apply pinned_foldl
    | with_reducible apply pinned_foldl_snd
    | with_reducible apply pinned_ite
    | simp only [pinned_mk_iff]
    | with_reducible rfl
    | (refine pinned_snd (by with_reducible assumption) ?_)
    | split
    | dsimp only)

theorem State.raiseMax_pinned {cn : Pins × Power} {ql : BitVec 48 × Store GroupPhase} {s : State} {f : Fld} {v : Nat} : State.Pinned cn ql s → State.Pinned cn ql (State.raiseMax s f v) := by
  intros
  unfold State.raiseMax
  repeat' (first
    | intro _
    | with_reducible assumption
    | with_reducible apply State.setFld_pinned
    | with_reducible apply pinned_foldl
    | with_reducible apply pinned_foldl_snd
    | with_reducible apply pinned_ite
    | simp only [pinned_mk_iff]
    | with_reducible rfl
    | (refine pinned_snd (by with_reducible assumption) ?_)
    | split
    | dsimp only)

theorem State.classAReady_pinned {cn : Pins × Power} {ql : BitVec 48 × Store GroupPhase} {s : State} {r : SolverResult} : State.Pinned cn ql s → State.Pinned cn ql (State.classAReady s r) := by
  intros
  unfold State.classAReady
  repeat' (first
    | intro _
    | with_reducible assumption
    | with_reducible apply State.setWork_pinned
    | with_reducible apply pinned_foldl
    | with_reducible apply pinned_foldl_snd
    | with_reducible apply pinned_ite
    | simp only [pinned_mk_iff]
    | with_reducible rfl
    | (refine pinned_snd (by with_reducible assumption) ?_)
    | split
    | dsimp only)

theorem State.setMemBytes_pinned {cn : Pins × Power} {ql : BitVec 48 × Store GroupPhase} {s : State} {id off : Nat} {l : List Byte} : State.Pinned cn ql s → State.Pinned cn ql (State.setMemBytes s id off l) := by
  intros
  unfold State.setMemBytes
  repeat' (first
    | intro _
    | with_reducible assumption
    | with_reducible apply pinned_foldl
    | with_reducible apply pinned_foldl_snd
    | with_reducible apply pinned_ite
    | simp only [pinned_mk_iff]
    | with_reducible rfl
    | (refine pinned_snd (by with_reducible assumption) ?_)
    | split
    | dsimp only)

theorem State.programRecord_pinned {cn : Pins × Power} {ql : BitVec 48 × Store GroupPhase} {s : State} {c pages : Nat} {but : Option Nat} {t : Nat × State} : State.programRecord s c pages but = Option.some t → State.Pinned cn ql s → State.Pinned cn ql (Prod.snd t) := by
  intro he h
  unfold State.programRecord at he
  try dsimp only at he
  repeat' (first
    | contradiction
    | (injection he with he; subst he)
    | split at he)
  all_goals
  repeat' (first
    | intro _
    | with_reducible assumption
    | with_reducible apply State.takeWord_pinned
    | with_reducible apply pinned_foldl
    | with_reducible apply pinned_foldl_snd
    | with_reducible apply pinned_ite
    | simp only [pinned_mk_iff]
    | with_reducible rfl
    | (refine pinned_snd (by with_reducible assumption) ?_)
    | split
    | dsimp only)

theorem State.setTileRoom_pinned {cn : Pins × Power} {ql : BitVec 48 × Store GroupPhase} {s : State} {n : Option Nat} : State.Pinned cn ql s → State.Pinned cn ql (State.setTileRoom s n) := by
  intros
  unfold State.setTileRoom
  repeat' (first
    | intro _
    | with_reducible assumption
    | with_reducible apply pinned_foldl
    | with_reducible apply pinned_foldl_snd
    | with_reducible apply pinned_ite
    | simp only [pinned_mk_iff]
    | with_reducible rfl
    | (refine pinned_snd (by with_reducible assumption) ?_)
    | split
    | dsimp only)

theorem State.beginTileDelta_pinned {cn : Pins × Power} {ql : BitVec 48 × Store GroupPhase} {s : State} {size : Nat} : State.Pinned cn ql s → State.Pinned cn ql (State.beginTileDelta s size) := by
  intros
  unfold State.beginTileDelta
  repeat' (first
    | intro _
    | with_reducible assumption
    | with_reducible apply State.setTileRoom_pinned
    | with_reducible apply pinned_foldl
    | with_reducible apply pinned_foldl_snd
    | with_reducible apply pinned_ite
    | simp only [pinned_mk_iff]
    | with_reducible rfl
    | (refine pinned_snd (by with_reducible assumption) ?_)
    | split
    | dsimp only)

theorem State.beginRecord_pinned {cn : Pins × Power} {ql : BitVec 48 × Store GroupPhase} {s : State} {id : Nat} : State.Pinned cn ql s → State.Pinned cn ql (State.beginRecord s id) := by
  intros
  unfold State.beginRecord
  repeat' (first
    | intro _
    | with_reducible assumption
    | with_reducible apply State.beginTileDelta_pinned
    | with_reducible apply pinned_foldl
    | with_reducible apply pinned_foldl_snd
    | with_reducible apply pinned_ite
    | simp only [pinned_mk_iff]
    | with_reducible rfl
    | (refine pinned_snd (by with_reducible assumption) ?_)
    | split
    | dsimp only)

theorem State.dirtyMove_pinned {cn : Pins × Power} {ql : BitVec 48 × Store GroupPhase} {s : State} {id off n : Nat} : State.Pinned cn ql s → State.Pinned cn ql (State.dirtyMove s id off n) := by
  intros
  unfold State.dirtyMove
  repeat' (first
    | intro _
    | with_reducible assumption
    | (refine State.programRecord_pinned (by with_reducible assumption) ?_)
    | with_reducible apply State.abandonMove_pinned
    | with_reducible apply State.beginRecord_pinned
    | with_reducible apply pinned_foldl
    | with_reducible apply pinned_foldl_snd
    | with_reducible apply pinned_ite
    | simp only [pinned_mk_iff]
    | with_reducible rfl
    | (refine pinned_snd (by with_reducible assumption) ?_)
    | split
    | dsimp only)

theorem State.setMark_pinned {cn : Pins × Power} {ql : BitVec 48 × Store GroupPhase} {s : State} {flash : Bool} {key : Nat} {m : WordMark} : State.Pinned cn ql s → State.Pinned cn ql (State.setMark s flash key m) := by
  intros
  unfold State.setMark
  repeat' (first
    | intro _
    | with_reducible assumption
    | with_reducible apply pinned_foldl
    | with_reducible apply pinned_foldl_snd
    | with_reducible apply pinned_ite
    | simp only [pinned_mk_iff]
    | with_reducible rfl
    | (refine pinned_snd (by with_reducible assumption) ?_)
    | split
    | dsimp only)

theorem State.setObject_pinned {cn : Pins × Power} {ql : BitVec 48 × Store GroupPhase} {s : State} {id : Nat} {o : Option MemObject} : State.Pinned cn ql s → State.Pinned cn ql (State.setObject s id o) := by
  intros
  unfold State.setObject
  repeat' (first
    | intro _
    | with_reducible assumption
    | with_reducible apply pinned_foldl
    | with_reducible apply pinned_foldl_snd
    | with_reducible apply pinned_ite
    | simp only [pinned_mk_iff]
    | with_reducible rfl
    | (refine pinned_snd (by with_reducible assumption) ?_)
    | split
    | dsimp only)

theorem State.writeObject_pinned {cn : Pins × Power} {ql : BitVec 48 × Store GroupPhase} {s : State} {id off : Nat} {data : List Byte} : State.Pinned cn ql s → State.Pinned cn ql (State.writeObject s id off data) := by
  intros
  unfold State.writeObject
  repeat' (first
    | intro _
    | with_reducible assumption
    | with_reducible apply State.setMemBytes_pinned
    | with_reducible apply State.dirtyMove_pinned
    | with_reducible apply State.setMark_pinned
    | with_reducible apply State.setObject_pinned
    | with_reducible apply pinned_foldl
    | with_reducible apply pinned_foldl_snd
    | with_reducible apply pinned_ite
    | simp only [pinned_mk_iff]
    | with_reducible rfl
    | (refine pinned_snd (by with_reducible assumption) ?_)
    | split
    | dsimp only)

theorem State.touch_pinned {cn : Pins × Power} {ql : BitVec 48 × Store GroupPhase} {s : State} {id : Nat} : State.Pinned cn ql s → State.Pinned cn ql (State.touch s id) := by
  intros
  unfold State.touch
  repeat' (first
    | intro _
    | with_reducible assumption
    | with_reducible apply State.setObject_pinned
    | with_reducible apply pinned_foldl
    | with_reducible apply pinned_foldl_snd
    | with_reducible apply pinned_ite
    | simp only [pinned_mk_iff]
    | with_reducible rfl
    | (refine pinned_snd (by with_reducible assumption) ?_)
    | split
    | dsimp only)

theorem State.writeStatic_pinned {cn : Pins × Power} {ql : BitVec 48 × Store GroupPhase} {s : State} {id : Nat} {b : List Byte} : State.Pinned cn ql s → State.Pinned cn ql (State.writeStatic s id b) := by
  intros
  unfold State.writeStatic
  repeat' (first
    | intro _
    | with_reducible assumption
    | with_reducible apply State.writeObject_pinned
    | with_reducible apply State.touch_pinned
    | with_reducible apply pinned_foldl
    | with_reducible apply pinned_foldl_snd
    | with_reducible apply pinned_ite
    | simp only [pinned_mk_iff]
    | with_reducible rfl
    | (refine pinned_snd (by with_reducible assumption) ?_)
    | split
    | dsimp only)

theorem State.windowEnds_pinned {cn : Pins × Power} {ql : BitVec 48 × Store GroupPhase} {s : State} {r : SolverResult} {point : List Word} {tail : List Byte} : State.Pinned cn ql s → State.Pinned cn ql (State.windowEnds s r point tail) := by
  intros
  unfold State.windowEnds
  repeat' (first
    | intro _
    | with_reducible assumption
    | with_reducible apply State.setWindow_pinned
    | with_reducible apply State.writeStatic_pinned
    | with_reducible apply pinned_foldl
    | with_reducible apply pinned_foldl_snd
    | with_reducible apply pinned_ite
    | simp only [pinned_mk_iff]
    | with_reducible rfl
    | (refine pinned_snd (by with_reducible assumption) ?_)
    | split
    | dsimp only)

theorem State.marginalEnds_pinned {cn : Pins × Power} {ql : BitVec 48 × Store GroupPhase} {s : State} {r : SolverResult} {tail : List Byte} : State.Pinned cn ql s → State.Pinned cn ql (State.marginalEnds s r tail) := by
  intros
  unfold State.marginalEnds
  repeat' (first
    | intro _
    | with_reducible assumption
    | with_reducible apply State.setWindow_pinned
    | with_reducible apply pinned_foldl
    | with_reducible apply pinned_foldl_snd
    | with_reducible apply pinned_ite
    | simp only [pinned_mk_iff]
    | with_reducible rfl
    | (refine pinned_snd (by with_reducible assumption) ?_)
    | split
    | dsimp only)

theorem State.tell_pinned {cn : Pins × Power} {ql : BitVec 48 × Store GroupPhase} {s : State} {t : SolverTask} {record : List Byte} : State.Pinned cn ql s → State.Pinned cn ql (State.tell s t record) := by
  intros
  unfold State.tell
  repeat' (first
    | intro _
    | with_reducible assumption
    | with_reducible apply pinned_foldl
    | with_reducible apply pinned_foldl_snd
    | with_reducible apply pinned_ite
    | simp only [pinned_mk_iff]
    | with_reducible rfl
    | (refine pinned_snd (by with_reducible assumption) ?_)
    | split
    | dsimp only)

theorem State.deliverResult_pinned {cn : Pins × Power} {ql : BitVec 48 × Store GroupPhase} {s : State} {c : Nat} {r : SolverResult} {point : List Word} {tail : List Byte} : State.Pinned cn ql s → State.Pinned cn ql (State.deliverResult s c r point tail) := by
  intros
  unfold State.deliverResult
  repeat' (first
    | intro _
    | with_reducible assumption
    | with_reducible apply State.classAReady_pinned
    | with_reducible apply State.windowEnds_pinned
    | with_reducible apply State.marginalEnds_pinned
    | with_reducible apply State.tell_pinned
    | with_reducible apply pinned_foldl
    | with_reducible apply pinned_foldl_snd
    | with_reducible apply pinned_ite
    | simp only [pinned_mk_iff]
    | with_reducible rfl
    | (refine pinned_snd (by with_reducible assumption) ?_)
    | split
    | dsimp only)

theorem State.conclude_pinned {cn : Pins × Power} {ql : BitVec 48 × Store GroupPhase} {s : State} {c : Nat} {t : Structure} {p : Problem} {status stopPhase : Nat} : State.Pinned cn ql s → State.Pinned cn ql (State.conclude s c t p status stopPhase) := by
  intros
  unfold State.conclude
  repeat' (first
    | intro _
    | with_reducible assumption
    | with_reducible apply State.countStatus_pinned
    | with_reducible apply State.raiseMax_pinned
    | with_reducible apply State.deliverResult_pinned
    | with_reducible apply State.setProblem_pinned
    | with_reducible apply pinned_foldl
    | with_reducible apply pinned_foldl_snd
    | with_reducible apply pinned_ite
    | simp only [pinned_mk_iff]
    | with_reducible rfl
    | (refine pinned_snd (by with_reducible assumption) ?_)
    | split
    | dsimp only)

theorem State.setSolverSlot_pinned {cn : Pins × Power} {ql : BitVec 48 × Store GroupPhase} {s : State} {c k : Nat} {v : SolverSlot} : State.Pinned cn ql s → State.Pinned cn ql (State.setSolverSlot s c k v) := by
  intros
  unfold State.setSolverSlot
  repeat' (first
    | intro _
    | with_reducible assumption
    | with_reducible apply pinned_foldl
    | with_reducible apply pinned_foldl_snd
    | with_reducible apply pinned_ite
    | simp only [pinned_mk_iff]
    | with_reducible rfl
    | (refine pinned_snd (by with_reducible assumption) ?_)
    | split
    | dsimp only)

theorem State.discardFactor_pinned {cn : Pins × Power} {ql : BitVec 48 × Store GroupPhase} {s : State} {c k : Nat} {t : Structure} {installed : Bool} : State.Pinned cn ql s → State.Pinned cn ql (State.discardFactor s c k t installed) := by
  intros
  unfold State.discardFactor
  repeat' (first
    | intro _
    | with_reducible assumption
    | with_reducible apply State.setSolverSlot_pinned
    | with_reducible apply pinned_foldl
    | with_reducible apply pinned_foldl_snd
    | with_reducible apply pinned_ite
    | simp only [pinned_mk_iff]
    | with_reducible rfl
    | (refine pinned_snd (by with_reducible assumption) ?_)
    | split
    | dsimp only)

theorem State.stopProblem_pinned {cn : Pins × Power} {ql : BitVec 48 × Store GroupPhase} {s : State} {c : Nat} {t : Structure} {p : Problem} : State.Pinned cn ql s → State.Pinned cn ql (State.stopProblem s c t p) := by
  intros
  unfold State.stopProblem
  repeat' (first
    | intro _
    | with_reducible assumption
    | with_reducible apply State.conclude_pinned
    | with_reducible apply State.discardFactor_pinned
    | with_reducible apply pinned_foldl
    | with_reducible apply pinned_foldl_snd
    | with_reducible apply pinned_ite
    | simp only [pinned_mk_iff]
    | with_reducible rfl
    | (refine pinned_snd (by with_reducible assumption) ?_)
    | split
    | dsimp only)

theorem State.acquireFor_pinned {cn : Pins × Power} {ql : BitVec 48 × Store GroupPhase} {s : State} {agent : Nat} {c : Option (Nat × Nat × Nat)} : State.Pinned cn ql s → State.Pinned cn ql (Prod.snd (State.acquireFor s agent c)) := by
  intros
  unfold State.acquireFor
  repeat' (first
    | intro _
    | with_reducible assumption
    | with_reducible apply State.stitchProto_pinned
    | with_reducible apply State.setMarker_pinned
    | with_reducible apply pinned_foldl
    | with_reducible apply pinned_foldl_snd
    | with_reducible apply pinned_ite
    | simp only [pinned_mk_iff]
    | with_reducible rfl
    | (refine pinned_snd (by with_reducible assumption) ?_)
    | split
    | dsimp only)

theorem State.acquireSlot_pinned {cn : Pins × Power} {ql : BitVec 48 × Store GroupPhase} {s : State} {m slot gen lines : Nat} : State.Pinned cn ql s → State.Pinned cn ql (State.acquireSlot s m slot gen lines) := by
  intros
  unfold State.acquireSlot
  repeat' (first
    | intro _
    | with_reducible assumption
    | with_reducible apply State.answer_pinned
    | with_reducible apply State.setMarker_pinned
    | with_reducible apply pinned_foldl
    | with_reducible apply pinned_foldl_snd
    | with_reducible apply pinned_ite
    | simp only [pinned_mk_iff]
    | with_reducible rfl
    | (refine pinned_snd (by with_reducible assumption) ?_)
    | split
    | dsimp only)

theorem State.acquireOp_pinned {cn : Pins × Power} {ql : BitVec 48 × Store GroupPhase} {s : State} {m agent gen lines : Nat} {t : State} : State.acquireOp s m agent gen lines = Option.some t → State.Pinned cn ql s → State.Pinned cn ql t := by
  intro he h
  unfold State.acquireOp at he
  try dsimp only at he
  repeat' (first
    | contradiction
    | (injection he with he; subst he)
    | split at he)
  all_goals
  repeat' (first
    | intro _
    | with_reducible assumption
    | with_reducible apply State.acquireSlot_pinned
    | with_reducible apply pinned_foldl
    | with_reducible apply pinned_foldl_snd
    | with_reducible apply pinned_ite
    | simp only [pinned_mk_iff]
    | with_reducible rfl
    | (refine pinned_snd (by with_reducible assumption) ?_)
    | split
    | dsimp only)

theorem State.addBusy_pinned {cn : Pins × Power} {ql : BitVec 48 × Store GroupPhase} {s : State} {f : Fld} {ns : Nat} : State.Pinned cn ql s → State.Pinned cn ql (State.addBusy s f ns) := by
  intros
  unfold State.addBusy
  repeat' (first
    | intro _
    | with_reducible assumption
    | with_reducible apply State.addWrap_pinned
    | with_reducible apply pinned_foldl
    | with_reducible apply pinned_foldl_snd
    | with_reducible apply pinned_ite
    | simp only [pinned_mk_iff]
    | with_reducible rfl
    | (refine pinned_snd (by with_reducible assumption) ?_)
    | split
    | dsimp only)

theorem State.addPin_pinned {cn : Pins × Power} {ql : BitVec 48 × Store GroupPhase} {s : State} {holder id : Nat} : State.Pinned cn ql s → State.Pinned cn ql (State.addPin s holder id) := by
  intros
  unfold State.addPin
  repeat' (first
    | intro _
    | with_reducible assumption
    | with_reducible apply pinned_foldl
    | with_reducible apply pinned_foldl_snd
    | with_reducible apply pinned_ite
    | simp only [pinned_mk_iff]
    | with_reducible rfl
    | (refine pinned_snd (by with_reducible assumption) ?_)
    | split
    | dsimp only)

theorem State.setMap_pinned {cn : Pins × Power} {ql : BitVec 48 × Store GroupPhase} {s : State} {m : MapTask} : State.Pinned cn ql s → State.Pinned cn ql (State.setMap s m) := by
  intros
  unfold State.setMap
  repeat' (first
    | intro _
    | with_reducible assumption
    | with_reducible apply pinned_foldl
    | with_reducible apply pinned_foldl_snd
    | with_reducible apply pinned_ite
    | simp only [pinned_mk_iff]
    | with_reducible rfl
    | (refine pinned_snd (by with_reducible assumption) ?_)
    | split
    | dsimp only)

theorem State.takeBit_pinned {cn : Pins × Power} {ql : BitVec 48 × Store GroupPhase} {s : State} : State.Pinned cn ql s → State.Pinned cn ql (Prod.snd (State.takeBit s)) := by
  intros
  unfold State.takeBit
  repeat' (first
    | intro _
    | with_reducible assumption
    | with_reducible apply pinned_foldl
    | with_reducible apply pinned_foldl_snd
    | with_reducible apply pinned_ite
    | simp only [pinned_mk_iff]
    | with_reducible rfl
    | (refine pinned_snd (by with_reducible assumption) ?_)
    | split
    | dsimp only)

theorem State.nearFp_pinned {cn : Pins × Power} {ql : BitVec 48 × Store GroupPhase} {s : State} {f : FpFormat} {q : Rat} : State.Pinned cn ql s → State.Pinned cn ql (Prod.snd (State.nearFp s f q)) := by
  intros
  unfold State.nearFp
  repeat' (first
    | intro _
    | with_reducible assumption
    | with_reducible apply State.takeBit_pinned
    | with_reducible apply pinned_foldl
    | with_reducible apply pinned_foldl_snd
    | with_reducible apply pinned_ite
    | simp only [pinned_mk_iff]
    | with_reducible rfl
    | (refine pinned_snd (by with_reducible assumption) ?_)
    | split
    | dsimp only)

theorem State.nearFp?_pinned {cn : Pins × Power} {ql : BitVec 48 × Store GroupPhase} {s : State} {f : FpFormat} {q : Option Rat} : State.Pinned cn ql s → State.Pinned cn ql (Prod.snd (State.nearFp? s f q)) := by
  intros
  unfold State.nearFp?
  repeat' (first
    | intro _
    | with_reducible assumption
    | with_reducible apply State.nearFp_pinned
    | with_reducible apply State.takeWord_pinned
    | with_reducible apply pinned_foldl
    | with_reducible apply pinned_foldl_snd
    | with_reducible apply pinned_ite
    | simp only [pinned_mk_iff]
    | with_reducible rfl
    | (refine pinned_snd (by with_reducible assumption) ?_)
    | split
    | dsimp only)

theorem State.allocate_pinned {cn : Pins × Power} {ql : BitVec 48 × Store GroupPhase} {s : State} {used : List Nat} {a : Nat} : State.Pinned cn ql s → State.Pinned cn ql (Prod.snd (State.allocate s used a)) := by
  intro h
  induction a generalizing s used with
  | zero => exact h
  | succ n ih => exact ih (State.takeWord_pinned h)

theorem State.holdAccess_pinned {cn : Pins × Power} {ql : BitVec 48 × Store GroupPhase} {s : State} {a : HeldAccess} : State.Pinned cn ql s → State.Pinned cn ql (State.holdAccess s a) := by
  intros
  unfold State.holdAccess
  repeat' (first
    | intro _
    | with_reducible assumption
    | with_reducible apply pinned_foldl
    | with_reducible apply pinned_foldl_snd
    | with_reducible apply pinned_ite
    | simp only [pinned_mk_iff]
    | with_reducible rfl
    | (refine pinned_snd (by with_reducible assumption) ?_)
    | split
    | dsimp only)

theorem State.growObject_pinned {cn : Pins × Power} {ql : BitVec 48 × Store GroupPhase} {s : State} {id size : Nat} {pages : List Nat} : State.Pinned cn ql s → State.Pinned cn ql (State.growObject s id size pages) := by
  intros
  unfold State.growObject
  repeat' (first
    | intro _
    | with_reducible assumption
    | with_reducible apply State.setObject_pinned
    | with_reducible apply pinned_foldl
    | with_reducible apply pinned_foldl_snd
    | with_reducible apply pinned_ite
    | simp only [pinned_mk_iff]
    | with_reducible rfl
    | (refine pinned_snd (by with_reducible assumption) ?_)
    | split
    | dsimp only)

theorem State.writeTile_pinned {cn : Pins × Power} {ql : BitVec 48 × Store GroupPhase} {s : State} {n : Nat} {t : MapTile} {t_1 : State} : State.writeTile s n t = Option.some t_1 → State.Pinned cn ql s → State.Pinned cn ql t_1 := by
  intro he h
  unfold State.writeTile at he
  try dsimp only at he
  repeat' (first
    | contradiction
    | (injection he with he; subst he)
    | split at he)
  all_goals
  repeat' (first
    | intro _
    | with_reducible assumption
    | with_reducible apply State.allocate_pinned
    | with_reducible apply State.writeObject_pinned
    | with_reducible apply State.touch_pinned
    | with_reducible apply State.setObject_pinned
    | with_reducible apply State.holdAccess_pinned
    | with_reducible apply State.growObject_pinned
    | with_reducible apply pinned_foldl
    | with_reducible apply pinned_foldl_snd
    | with_reducible apply pinned_ite
    | simp only [pinned_mk_iff]
    | with_reducible rfl
    | (refine pinned_snd (by with_reducible assumption) ?_)
    | split
    | dsimp only)

theorem State.setPair_pinned {cn : Pins × Power} {ql : BitVec 48 × Store GroupPhase} {s : State} {a v : Nat} : State.Pinned cn ql s → State.Pinned cn ql (State.setPair s a v) := by
  intros
  unfold State.setPair
  repeat' (first
    | intro _
    | with_reducible assumption
    | with_reducible apply State.setReg_pinned
    | with_reducible apply pinned_foldl
    | with_reducible apply pinned_foldl_snd
    | with_reducible apply pinned_ite
    | simp only [pinned_mk_iff]
    | with_reducible rfl
    | (refine pinned_snd (by with_reducible assumption) ?_)
    | split
    | dsimp only)

theorem State.recordUe_pinned {cn : Pins × Power} {ql : BitVec 48 × Store GroupPhase} {s : State} {medium swatch : Nat} {scrub location : Bool} {addr : Nat} : State.Pinned cn ql s → State.Pinned cn ql (State.recordUe s medium swatch scrub location addr) := by
  intros
  unfold State.recordUe
  repeat' (first
    | intro _
    | with_reducible assumption
    | with_reducible apply State.addSat_pinned
    | with_reducible apply State.setFld_pinned
    | with_reducible apply State.setFlag_pinned
    | with_reducible apply State.setPair_pinned
    | with_reducible apply State.raiseFault_pinned
    | with_reducible apply pinned_foldl
    | with_reducible apply pinned_foldl_snd
    | with_reducible apply pinned_ite
    | simp only [pinned_mk_iff]
    | with_reducible rfl
    | (refine pinned_snd (by with_reducible assumption) ?_)
    | split
    | dsimp only)

theorem State.recordCe_pinned {cn : Pins × Power} {ql : BitVec 48 × Store GroupPhase} {s : State} {medium : Nat} : State.Pinned cn ql s → State.Pinned cn ql (State.recordCe s medium) := by
  intros
  unfold State.recordCe
  repeat' (first
    | intro _
    | with_reducible assumption
    | with_reducible apply State.addSat_pinned
    | with_reducible apply pinned_foldl
    | with_reducible apply pinned_foldl_snd
    | with_reducible apply pinned_ite
    | simp only [pinned_mk_iff]
    | with_reducible rfl
    | (refine pinned_snd (by with_reducible assumption) ?_)
    | split
    | dsimp only)

theorem State.readWord_pinned {cn : Pins × Power} {ql : BitVec 48 × Store GroupPhase} {s : State} {reader id : Nat} {o : MemObject} {w : Nat} {errors : SymbolErrors} {undecoded : Bool} : State.Pinned cn ql s → State.Pinned cn ql (Prod.snd (Prod.snd (State.readWord s reader id o w errors undecoded))) := by
  intros
  unfold State.readWord
  repeat' (first
    | intro _
    | with_reducible assumption
    | with_reducible apply State.recordUe_pinned
    | with_reducible apply State.setMemBytes_pinned
    | with_reducible apply State.recordCe_pinned
    | with_reducible apply State.setMark_pinned
    | with_reducible apply pinned_foldl
    | with_reducible apply pinned_foldl_snd
    | with_reducible apply pinned_ite
    | simp only [pinned_mk_iff]
    | with_reducible rfl
    | (refine pinned_snd (by with_reducible assumption) ?_)
    | split
    | dsimp only)

theorem State.readRange_pinned {cn : Pins × Power} {ql : BitVec 48 × Store GroupPhase} {s : State} {reader id off n : Nat} {errors : List (Nat × SymbolErrors)} {undecoded : List Nat} : State.Pinned cn ql s → State.Pinned cn ql (Prod.snd (Prod.snd (State.readRange s reader id off n errors undecoded))) := by
  intro h
  unfold State.readRange
  split
  · exact h
  · dsimp only
    refine pinned_foldl_of (fun y : List Byte × List Nat × State => y.2.2) ?_ (fun y e h => State.readWord_pinned h)
    split
    · exact h
    · exact State.addSat_pinned h

theorem State.checkWords_pinned {cn : Pins × Power} {ql : BitVec 48 × Store GroupPhase} {s : State} {id off n reader : Nat} {errors : List (Nat × SymbolErrors)} : State.Pinned cn ql s → State.Pinned cn ql (Prod.snd (State.checkWords s id off n reader errors)) := by
  intros
  unfold State.checkWords
  repeat' (first
    | intro _
    | with_reducible assumption
    | with_reducible apply State.readRange_pinned
    | with_reducible apply pinned_foldl
    | with_reducible apply pinned_foldl_snd
    | with_reducible apply pinned_ite
    | simp only [pinned_mk_iff]
    | with_reducible rfl
    | (refine pinned_snd (by with_reducible assumption) ?_)
    | split
    | dsimp only)

theorem State.noteRead_pinned {cn : Pins × Power} {ql : BitVec 48 × Store GroupPhase} {s : State} {reader id : Nat} : State.Pinned cn ql s → State.Pinned cn ql (State.noteRead s reader id) := by
  intros
  unfold State.noteRead
  repeat' (first
    | intro _
    | with_reducible assumption
    | with_reducible apply State.checkWords_pinned
    | with_reducible apply pinned_foldl
    | with_reducible apply pinned_foldl_snd
    | with_reducible apply pinned_ite
    | simp only [pinned_mk_iff]
    | with_reducible rfl
    | (refine pinned_snd (by with_reducible assumption) ?_)
    | split
    | dsimp only)

theorem State.stageCandidate_pinned {cn : Pins × Power} {ql : BitVec 48 × Store GroupPhase} {s : State} : State.Pinned cn ql s → State.Pinned cn ql (State.stageCandidate s) := by
  intros
  unfold State.stageCandidate
  repeat' (first
    | intro _
    | with_reducible assumption
    | with_reducible apply State.writeStatic_pinned
    | with_reducible apply State.noteRead_pinned
    | with_reducible apply pinned_foldl
    | with_reducible apply pinned_foldl_snd
    | with_reducible apply pinned_ite
    | simp only [pinned_mk_iff]
    | with_reducible rfl
    | (refine pinned_snd (by with_reducible assumption) ?_)
    | split
    | dsimp only)

set_option maxRecDepth 2000 in
theorem State.admitLoop_pinned {cn : Pins × Power} {ql : BitVec 48 × Store GroupPhase} {s : State} {record : List Byte} : State.Pinned cn ql s → State.Pinned cn ql (State.admitLoop s record) := by
  intros
  unfold State.admitLoop
  repeat' (first
    | intro _
    | with_reducible assumption
    | with_reducible apply State.setMap_pinned
    | with_reducible apply State.takeBit_pinned
    | with_reducible apply State.nearFp?_pinned
    | (refine State.writeTile_pinned (by with_reducible assumption) ?_)
    | with_reducible apply State.addSat_pinned
    | with_reducible apply State.stageCandidate_pinned
    | with_reducible apply pinned_foldl
    | with_reducible apply pinned_foldl_snd
    | with_reducible apply pinned_ite
    | simp only [pinned_mk_iff]
    | with_reducible rfl
    | (refine pinned_snd (by with_reducible assumption) ?_)
    | split
    | dsimp only)

theorem State.takePin_pinned {cn : Pins × Power} {ql : BitVec 48 × Store GroupPhase} {s : State} {holder id : Nat} {t : State} : State.takePin s holder id = Option.some t → State.Pinned cn ql s → State.Pinned cn ql t := by
  intro he h
  unfold State.takePin at he
  try dsimp only at he
  repeat' (first
    | contradiction
    | (injection he with he; subst he)
    | split at he)
  all_goals
  repeat' (first
    | intro _
    | with_reducible assumption
    | with_reducible apply State.abandonMove_pinned
    | with_reducible apply State.addPin_pinned
    | with_reducible apply pinned_foldl
    | with_reducible apply pinned_foldl_snd
    | with_reducible apply pinned_ite
    | simp only [pinned_mk_iff]
    | with_reducible rfl
    | (refine pinned_snd (by with_reducible assumption) ?_)
    | split
    | dsimp only)

theorem State.finish_pinned {cn : Pins × Power} {ql : BitVec 48 × Store GroupPhase} {s : State} {r : MoverRequest} {code : Nat} : State.Pinned cn ql s → State.Pinned cn ql (State.finish s r code) := by
  intros
  unfold State.finish
  repeat' (first
    | intro _
    | with_reducible assumption
    | with_reducible apply State.addSat_pinned
    | with_reducible apply pinned_foldl
    | with_reducible apply pinned_foldl_snd
    | with_reducible apply pinned_ite
    | simp only [pinned_mk_iff]
    | with_reducible rfl
    | (refine pinned_snd (by with_reducible assumption) ?_)
    | split
    | dsimp only)

theorem State.queueMove_pinned {cn : Pins × Power} {ql : BitVec 48 × Store GroupPhase} {s : State} {r : MoverRequest} : State.Pinned cn ql s → State.Pinned cn ql (State.queueMove s r) := by
  intros
  unfold State.queueMove
  repeat' (first
    | intro _
    | with_reducible assumption
    | with_reducible apply pinned_foldl
    | with_reducible apply pinned_foldl_snd
    | with_reducible apply pinned_ite
    | simp only [pinned_mk_iff]
    | with_reducible rfl
    | (refine pinned_snd (by with_reducible assumption) ?_)
    | split
    | dsimp only)

theorem State.dropPin_pinned {cn : Pins × Power} {ql : BitVec 48 × Store GroupPhase} {s : State} {holder id : Nat} : State.Pinned cn ql s → State.Pinned cn ql (State.dropPin s holder id) := by
  intros
  unfold State.dropPin
  repeat' (first
    | intro _
    | with_reducible assumption
    | with_reducible apply pinned_foldl
    | with_reducible apply pinned_foldl_snd
    | with_reducible apply pinned_ite
    | simp only [pinned_mk_iff]
    | with_reducible rfl
    | (refine pinned_snd (by with_reducible assumption) ?_)
    | split
    | dsimp only)

theorem State.startMove_pinned {cn : Pins × Power} {ql : BitVec 48 × Store GroupPhase} {s : State} {r : MoverRequest} {dest : Nat} : State.Pinned cn ql s → State.Pinned cn ql (State.startMove s r dest) := by
  intros
  unfold State.startMove
  repeat' (first
    | intro _
    | with_reducible assumption
    | with_reducible apply State.allocate_pinned
    | (refine State.programRecord_pinned (by with_reducible assumption) ?_)
    | with_reducible apply State.beginRecord_pinned
    | with_reducible apply pinned_foldl
    | with_reducible apply pinned_foldl_snd
    | with_reducible apply pinned_ite
    | simp only [pinned_mk_iff]
    | with_reducible rfl
    | (refine pinned_snd (by with_reducible assumption) ?_)
    | split
    | dsimp only)

theorem State.consider_pinned {cn : Pins × Power} {ql : BitVec 48 × Store GroupPhase} {s : State} {r : MoverRequest} : State.Pinned cn ql s → State.Pinned cn ql (State.consider s r) := by
  intro h
  unfold State.consider
  split
  · repeat' (first
      | with_reducible exact h
      | with_reducible apply State.finish_pinned
      | with_reducible apply pinned_ite
      | with_reducible apply State.dropPin_pinned
      | (refine State.takePin_pinned (by with_reducible assumption) ?_)
      | split)
  · exact State.queueMove_pinned h
  · next dest _ =>
    dsimp only
    have key : ∀ x : Option (MoverRequest × State), (∀ a t, x = some (a, t) → t.Pinned cn ql) → (match x with
        | none => s.finish r moverPinFull
        | some (r, s) =>
          if s.channelBroken r.object dest then s.finish r moverMediaErr
          else if s.regionFull r.object dest then s.finish r moverNoSpace
          else if s.mayMove r dest then s.startMove r dest
          else s.queueMove r).Pinned cn ql := by
      intro x hx
      split
      · exact State.finish_pinned h
      · have h2 := hx _ _ rfl
        split
        · exact State.finish_pinned h2
        · split
          · exact State.finish_pinned h2
          · split
            · exact State.startMove_pinned h2
            · exact State.queueMove_pinned h2
    apply key
    intro a t e
    split at e
    · split at e
      · injection e with e; injection e with e1 e2; subst e2
        exact State.takePin_pinned (by with_reducible assumption) h
      · contradiction
    · injection e with e; injection e with e1 e2; subst e2; exact h

theorem State.endReservation_pinned {cn : Pins × Power} {ql : BitVec 48 × Store GroupPhase} {s : State} {g n : Nat} : State.Pinned cn ql s → State.Pinned cn ql (State.endReservation s g n) := by
  intros
  unfold State.endReservation
  repeat' (first
    | intro _
    | with_reducible assumption
    | with_reducible apply pinned_foldl
    | with_reducible apply pinned_foldl_snd
    | with_reducible apply pinned_ite
    | simp only [pinned_mk_iff]
    | with_reducible rfl
    | (refine pinned_snd (by with_reducible assumption) ?_)
    | split
    | dsimp only)

theorem State.dispatchOne_pinned {cn : Pins × Power} {ql : BitVec 48 × Store GroupPhase} {s : State} {q : NeuralRequest} : State.Pinned cn ql s → State.Pinned cn ql (State.dispatchOne s q) := by
  intros
  unfold State.dispatchOne
  repeat' (first
    | intro _
    | with_reducible assumption
    | with_reducible apply State.endReservation_pinned
    | with_reducible apply pinned_foldl
    | with_reducible apply pinned_foldl_snd
    | with_reducible apply pinned_ite
    | simp only [pinned_mk_iff]
    | with_reducible rfl
    | (refine pinned_snd (by with_reducible assumption) ?_)
    | split
    | dsimp only)

theorem State.dispatch_pinned {cn : Pins × Power} {ql : BitVec 48 × Store GroupPhase} {s : State} : State.Pinned cn ql s → State.Pinned cn ql (State.dispatch s) := by
  intros
  unfold State.dispatch
  repeat' (first
    | intro _
    | with_reducible assumption
    | with_reducible apply State.dispatchOne_pinned
    | with_reducible apply pinned_foldl
    | with_reducible apply pinned_foldl_snd
    | with_reducible apply pinned_ite
    | simp only [pinned_mk_iff]
    | with_reducible rfl
    | (refine pinned_snd (by with_reducible assumption) ?_)
    | split
    | dsimp only)

theorem State.settle_pinned {cn : Pins × Power} {ql : BitVec 48 × Store GroupPhase} {s : State} {m : Nat} : State.Pinned cn ql s → State.Pinned cn ql (State.settle s m) := by
  intros
  unfold State.settle
  repeat' (first
    | intro _
    | with_reducible assumption
    | with_reducible apply State.acquireSlot_pinned
    | with_reducible apply State.setMarker_pinned
    | with_reducible apply pinned_foldl
    | with_reducible apply pinned_foldl_snd
    | with_reducible apply pinned_ite
    | simp only [pinned_mk_iff]
    | with_reducible rfl
    | (refine pinned_snd (by with_reducible assumption) ?_)
    | split
    | dsimp only)

theorem State.analyseSlot_pinned {cn : Pins × Power} {ql : BitVec 48 × Store GroupPhase} {s : State} {c k : Nat} {d values : List Byte} {runtime : Bool} {refused : Structure → Bool} : State.Pinned cn ql s → State.Pinned cn ql (State.analyseSlot s c k d values runtime refused) := by
  intros
  unfold State.analyseSlot
  repeat' (first
    | intro _
    | with_reducible assumption
    | with_reducible apply State.setSolverSlot_pinned
    | with_reducible apply pinned_foldl
    | with_reducible apply pinned_foldl_snd
    | with_reducible apply pinned_ite
    | simp only [pinned_mk_iff]
    | with_reducible rfl
    | (refine pinned_snd (by with_reducible assumption) ?_)
    | split
    | dsimp only)

theorem State.answerAccess_pinned {cn : Pins × Power} {ql : BitVec 48 × Store GroupPhase} {s : State} {a : HeldAccess} {r : Option (List Byte × List Nat)} : State.Pinned cn ql s → State.Pinned cn ql (State.answerAccess s a r) := by
  intros
  unfold State.answerAccess
  repeat' (first
    | intro _
    | with_reducible assumption
    | with_reducible apply pinned_foldl
    | with_reducible apply pinned_foldl_snd
    | with_reducible apply pinned_ite
    | simp only [pinned_mk_iff]
    | with_reducible rfl
    | (refine pinned_snd (by with_reducible assumption) ?_)
    | split
    | dsimp only)

theorem State.checkpoint_pinned {cn : Pins × Power} {ql : BitVec 48 × Store GroupPhase} {s : State} {c : Nat} : State.Pinned cn ql s → State.Pinned cn ql (State.checkpoint s c) := by
  intros
  unfold State.checkpoint
  repeat' (first
    | intro _
    | with_reducible assumption
    | with_reducible apply pinned_foldl
    | with_reducible apply pinned_foldl_snd
    | with_reducible apply pinned_ite
    | simp only [pinned_mk_iff]
    | with_reducible rfl
    | (refine pinned_snd (by with_reducible assumption) ?_)
    | split
    | dsimp only)

theorem State.appendJournal_pinned {cn : Pins × Power} {ql : BitVec 48 × Store GroupPhase} {s : State} {id : Nat} {r : TileRecord} {freed : Bool} : State.Pinned cn ql s → State.Pinned cn ql (State.appendJournal s id r freed) := by
  intros
  unfold State.appendJournal
  repeat' (first
    | intro _
    | with_reducible assumption
    | with_reducible apply State.checkpoint_pinned
    | with_reducible apply pinned_foldl
    | with_reducible apply pinned_foldl_snd
    | with_reducible apply pinned_ite
    | simp only [pinned_mk_iff]
    | with_reducible rfl
    | (refine pinned_snd (by with_reducible assumption) ?_)
    | split
    | dsimp only)

theorem State.serveWaiting_pinned {cn : Pins × Power} {ql : BitVec 48 × Store GroupPhase} {s : State} : State.Pinned cn ql s → State.Pinned cn ql (State.serveWaiting s) := by
  intros
  unfold State.serveWaiting
  repeat' (first
    | intro _
    | with_reducible assumption
    | with_reducible apply State.queueMove_pinned
    | with_reducible apply State.consider_pinned
    | with_reducible apply pinned_foldl
    | with_reducible apply pinned_foldl_snd
    | with_reducible apply pinned_ite
    | simp only [pinned_mk_iff]
    | with_reducible rfl
    | (refine pinned_snd (by with_reducible assumption) ?_)
    | split
    | dsimp only)

theorem State.takeJob_pinned {cn : Pins × Power} {ql : BitVec 48 × Store GroupPhase} {s : State} : State.Pinned cn ql s → State.Pinned cn ql (State.takeJob s) := by
  intros
  unfold State.takeJob
  repeat' (first
    | intro _
    | with_reducible assumption
    | with_reducible apply pinned_foldl
    | with_reducible apply pinned_foldl_snd
    | with_reducible apply pinned_ite
    | simp only [pinned_mk_iff]
    | with_reducible rfl
    | (refine pinned_snd (by with_reducible assumption) ?_)
    | split
    | dsimp only)

theorem State.takeSteps_pinned {cn : Pins × Power} {ql : BitVec 48 × Store GroupPhase} {s : State} : State.Pinned cn ql s → State.Pinned cn ql (State.takeSteps s) := by
  intros
  unfold State.takeSteps
  repeat' (first
    | intro _
    | with_reducible assumption
    | with_reducible apply pinned_foldl
    | with_reducible apply pinned_foldl_snd
    | with_reducible apply pinned_ite
    | simp only [pinned_mk_iff]
    | with_reducible rfl
    | (refine pinned_snd (by with_reducible assumption) ?_)
    | split
    | dsimp only)

theorem State.setTout_pinned {cn : Pins × Power} {ql : BitVec 48 × Store GroupPhase} {s : State} {n : Nat} {o : Tout} : State.Pinned cn ql s → State.Pinned cn ql (State.setTout s n o) := by
  intros
  unfold State.setTout
  repeat' (first
    | intro _
    | with_reducible assumption
    | with_reducible apply State.setFlag_pinned
    | with_reducible apply pinned_foldl
    | with_reducible apply pinned_foldl_snd
    | with_reducible apply pinned_ite
    | simp only [pinned_mk_iff]
    | with_reducible rfl
    | (refine pinned_snd (by with_reducible assumption) ?_)
    | split
    | dsimp only)

theorem State.startTout_pinned {cn : Pins × Power} {ql : BitVec 48 × Store GroupPhase} {s : State} {n : Nat} : State.Pinned cn ql s → State.Pinned cn ql (State.startTout s n) := by
  intros
  unfold State.startTout
  repeat' (first
    | intro _
    | with_reducible assumption
    | with_reducible apply State.setTout_pinned
    | with_reducible apply State.setFlag_pinned
    | with_reducible apply pinned_foldl
    | with_reducible apply pinned_foldl_snd
    | with_reducible apply pinned_ite
    | simp only [pinned_mk_iff]
    | with_reducible rfl
    | (refine pinned_snd (by with_reducible assumption) ?_)
    | split
    | dsimp only)

theorem State.endJob_pinned {cn : Pins × Power} {ql : BitVec 48 × Store GroupPhase} {s : State} {j : VerifierJob} {record : List Byte} : State.Pinned cn ql s → State.Pinned cn ql (State.endJob s j record) := by
  intros
  unfold State.endJob
  repeat' (first
    | intro _
    | with_reducible assumption
    | with_reducible apply State.addSat_pinned
    | with_reducible apply State.takeJob_pinned
    | with_reducible apply pinned_foldl
    | with_reducible apply pinned_foldl_snd
    | with_reducible apply pinned_ite
    | simp only [pinned_mk_iff]
    | with_reducible rfl
    | (refine pinned_snd (by with_reducible assumption) ?_)
    | split
    | dsimp only)

theorem State.endVerifying_pinned {cn : Pins × Power} {ql : BitVec 48 × Store GroupPhase} {s : State} {j : VerifierJob} : State.Pinned cn ql s → State.Pinned cn ql (State.endVerifying s j) := by
  intros
  unfold State.endVerifying
  repeat' (first
    | intro _
    | with_reducible assumption
    | with_reducible apply State.endJob_pinned
    | with_reducible apply State.admitLoop_pinned
    | with_reducible apply pinned_foldl
    | with_reducible apply pinned_foldl_snd
    | with_reducible apply pinned_ite
    | simp only [pinned_mk_iff]
    | with_reducible rfl
    | (refine pinned_snd (by with_reducible assumption) ?_)
    | split
    | dsimp only)

theorem State.endOther_pinned {cn : Pins × Power} {ql : BitVec 48 × Store GroupPhase} {s : State} : State.Pinned cn ql s → State.Pinned cn ql (State.endOther s) := by
  intros
  unfold State.endOther
  repeat' (first
    | intro _
    | with_reducible assumption
    | with_reducible apply State.setProblem_pinned
    | with_reducible apply State.stopProblem_pinned
    | with_reducible apply pinned_foldl
    | with_reducible apply pinned_foldl_snd
    | with_reducible apply pinned_ite
    | simp only [pinned_mk_iff]
    | with_reducible rfl
    | (refine pinned_snd (by with_reducible assumption) ?_)
    | split
    | dsimp only)

theorem State.dropClassC_pinned {cn : Pins × Power} {ql : BitVec 48 × Store GroupPhase} {s : State} : State.Pinned cn ql s → State.Pinned cn ql (State.dropClassC s) := by
  intros
  unfold State.dropClassC
  repeat' (first
    | intro _
    | with_reducible assumption
    | with_reducible apply State.endVerifying_pinned
    | with_reducible apply State.abandonMove_pinned
    | with_reducible apply State.endOther_pinned
    | with_reducible apply pinned_foldl
    | with_reducible apply pinned_foldl_snd
    | with_reducible apply pinned_ite
    | simp only [pinned_mk_iff]
    | with_reducible rfl
    | (refine pinned_snd (by with_reducible assumption) ?_)
    | split
    | dsimp only)

theorem State.unpinProgram_pinned {cn : Pins × Power} {ql : BitVec 48 × Store GroupPhase} {s : State} {p : Nat} : State.Pinned cn ql s → State.Pinned cn ql (State.unpinProgram s p) := by
  intros
  unfold State.unpinProgram
  repeat' (first
    | intro _
    | with_reducible assumption
    | with_reducible apply State.dropPin_pinned
    | with_reducible apply pinned_foldl
    | with_reducible apply pinned_foldl_snd
    | with_reducible apply pinned_ite
    | simp only [pinned_mk_iff]
    | with_reducible rfl
    | (refine pinned_snd (by with_reducible assumption) ?_)
    | split
    | dsimp only)

theorem State.discardArena_pinned {cn : Pins × Power} {ql : BitVec 48 × Store GroupPhase} {s : State} {r : NeuralRun} : State.Pinned cn ql s → State.Pinned cn ql (State.discardArena s r) := by
  intros
  unfold State.discardArena
  repeat' (first
    | intro _
    | with_reducible assumption
    | with_reducible apply pinned_foldl
    | with_reducible apply pinned_foldl_snd
    | with_reducible apply pinned_ite
    | simp only [pinned_mk_iff]
    | with_reducible rfl
    | (refine pinned_snd (by with_reducible assumption) ?_)
    | split
    | dsimp only)

theorem State.countService_pinned {cn : Pins × Power} {ql : BitVec 48 × Store GroupPhase} {s : State} {r : NeuralRun} : State.Pinned cn ql s → State.Pinned cn ql (State.countService s r) := by
  intros
  unfold State.countService
  repeat' (first
    | intro _
    | with_reducible assumption
    | with_reducible apply State.addBusy_pinned
    | with_reducible apply pinned_foldl
    | with_reducible apply pinned_foldl_snd
    | with_reducible apply pinned_ite
    | simp only [pinned_mk_iff]
    | with_reducible rfl
    | (refine pinned_snd (by with_reducible assumption) ?_)
    | split
    | dsimp only)

theorem State.removeRequest_pinned {cn : Pins × Power} {ql : BitVec 48 × Store GroupPhase} {s : State} {g n : Nat} : State.Pinned cn ql s → State.Pinned cn ql (Prod.snd (State.removeRequest s g n)) := by
  intros
  unfold State.removeRequest
  repeat' (first
    | intro _
    | with_reducible assumption
    | with_reducible apply State.unpinProgram_pinned
    | with_reducible apply State.discardArena_pinned
    | with_reducible apply State.countService_pinned
    | with_reducible apply State.endReservation_pinned
    | with_reducible apply pinned_foldl
    | with_reducible apply pinned_foldl_snd
    | with_reducible apply pinned_ite
    | simp only [pinned_mk_iff]
    | with_reducible rfl
    | (refine pinned_snd (by with_reducible assumption) ?_)
    | split
    | dsimp only)

theorem State.dropRequests_pinned {cn : Pins × Power} {ql : BitVec 48 × Store GroupPhase} {s : State} {g : Nat} : State.Pinned cn ql s → State.Pinned cn ql (State.dropRequests s g) := by
  intros
  unfold State.dropRequests
  repeat' (first
    | intro _
    | with_reducible assumption
    | with_reducible apply State.removeRequest_pinned
    | with_reducible apply State.addSat_pinned
    | with_reducible apply State.dispatch_pinned
    | with_reducible apply pinned_foldl
    | with_reducible apply pinned_foldl_snd
    | with_reducible apply pinned_ite
    | simp only [pinned_mk_iff]
    | with_reducible rfl
    | (refine pinned_snd (by with_reducible assumption) ?_)
    | split
    | dsimp only)

theorem State.dropAgent_pinned {cn : Pins × Power} {ql : BitVec 48 × Store GroupPhase} {s : State} {m agent : Nat} {holds : Bool} : State.Pinned cn ql s → State.Pinned cn ql (State.dropAgent s m agent holds) := by
  intros
  unfold State.dropAgent
  repeat' (first
    | intro _
    | with_reducible assumption
    | with_reducible apply State.setMarker_pinned
    | with_reducible apply pinned_foldl
    | with_reducible apply pinned_foldl_snd
    | with_reducible apply pinned_ite
    | simp only [pinned_mk_iff]
    | with_reducible rfl
    | (refine pinned_snd (by with_reducible assumption) ?_)
    | split
    | dsimp only)

theorem State.releaseInputs_pinned {cn : Pins × Power} {ql : BitVec 48 × Store GroupPhase} {s : State} {g n : Nat} {r : NodeRun} {holds : Bool} : State.Pinned cn ql s → State.Pinned cn ql (State.releaseInputs s g n r holds) := by
  intros
  unfold State.releaseInputs
  repeat' (first
    | intro _
    | with_reducible assumption
    | with_reducible apply State.dropAgent_pinned
    | with_reducible apply pinned_foldl
    | with_reducible apply pinned_foldl_snd
    | with_reducible apply pinned_ite
    | simp only [pinned_mk_iff]
    | with_reducible rfl
    | (refine pinned_snd (by with_reducible assumption) ?_)
    | split
    | dsimp only)

theorem State.endSgm_pinned {cn : Pins × Power} {ql : BitVec 48 × Store GroupPhase} {s : State} {e code : Nat} : State.Pinned cn ql s → State.Pinned cn ql (State.endSgm s e code) := by
  intros
  unfold State.endSgm
  repeat' (first
    | intro _
    | with_reducible assumption
    | with_reducible apply State.setFld_pinned
    | with_reducible apply State.addWrap_pinned
    | with_reducible apply pinned_foldl
    | with_reducible apply pinned_foldl_snd
    | with_reducible apply pinned_ite
    | simp only [pinned_mk_iff]
    | with_reducible rfl
    | (refine pinned_snd (by with_reducible assumption) ?_)
    | split
    | dsimp only)

theorem State.closeNode_pinned {cn : Pins × Power} {ql : BitVec 48 × Store GroupPhase} {s : State} {g n code : Nat} : State.Pinned cn ql s → State.Pinned cn ql (State.closeNode s g n code) := by
  intros
  unfold State.closeNode
  repeat' (first
    | intro _
    | with_reducible assumption
    | with_reducible apply State.releaseInputs_pinned
    | with_reducible apply State.abandonOutputs_pinned
    | with_reducible apply State.endSgm_pinned
    | with_reducible apply State.updNode_pinned
    | with_reducible apply pinned_foldl
    | with_reducible apply pinned_foldl_snd
    | with_reducible apply pinned_ite
    | simp only [pinned_mk_iff]
    | with_reducible rfl
    | (refine pinned_snd (by with_reducible assumption) ?_)
    | split
    | dsimp only)

theorem State.dropActivation_pinned {cn : Pins × Power} {ql : BitVec 48 × Store GroupPhase} {s : State} {g : Nat} : State.Pinned cn ql s → State.Pinned cn ql (State.dropActivation s g) := by
  intros
  unfold State.dropActivation
  repeat' (first
    | intro _
    | with_reducible assumption
    | with_reducible apply State.dropRequests_pinned
    | with_reducible apply State.closeNode_pinned
    | with_reducible apply State.addSat_pinned
    | with_reducible apply State.setFlag_pinned
    | with_reducible apply State.setGraph_pinned
    | with_reducible apply pinned_foldl
    | with_reducible apply pinned_foldl_snd
    | with_reducible apply pinned_ite
    | simp only [pinned_mk_iff]
    | with_reducible rfl
    | (refine pinned_snd (by with_reducible assumption) ?_)
    | split
    | dsimp only)

theorem State.lateUpdate_pinned {cn : Pins × Power} {ql : BitVec 48 × Store GroupPhase} {s : State} {object : Bool} : State.Pinned cn ql s → State.Pinned cn ql (State.lateUpdate s object) := by
  intros
  unfold State.lateUpdate
  repeat' (first
    | intro _
    | with_reducible assumption
    | with_reducible apply State.addSat_pinned
    | with_reducible apply pinned_foldl
    | with_reducible apply pinned_foldl_snd
    | with_reducible apply pinned_ite
    | simp only [pinned_mk_iff]
    | with_reducible rfl
    | (refine pinned_snd (by with_reducible assumption) ?_)
    | split
    | dsimp only)

theorem State.setUpdates_pinned {cn : Pins × Power} {ql : BitVec 48 × Store GroupPhase} {s : State} {l : List TrackUpdate} : State.Pinned cn ql s → State.Pinned cn ql (State.setUpdates s l) := by
  intros
  unfold State.setUpdates
  repeat' (first
    | intro _
    | with_reducible assumption
    | with_reducible apply pinned_foldl
    | with_reducible apply pinned_foldl_snd
    | with_reducible apply pinned_ite
    | simp only [pinned_mk_iff]
    | with_reducible rfl
    | (refine pinned_snd (by with_reducible assumption) ?_)
    | split
    | dsimp only)

theorem State.closeUpdate_pinned {cn : Pins × Power} {ql : BitVec 48 × Store GroupPhase} {s : State} {u : TrackUpdate} {drop : Bool} : State.Pinned cn ql s → State.Pinned cn ql (State.closeUpdate s u drop) := by
  intros
  unfold State.closeUpdate
  repeat' (first
    | intro _
    | with_reducible assumption
    | with_reducible apply State.setUpdates_pinned
    | with_reducible apply State.dropAgent_pinned
    | with_reducible apply State.orProto_pinned
    | (refine State.abandonOp_pinned (by with_reducible assumption) ?_)
    | with_reducible apply pinned_foldl
    | with_reducible apply pinned_foldl_snd
    | with_reducible apply pinned_ite
    | simp only [pinned_mk_iff]
    | with_reducible rfl
    | (refine pinned_snd (by with_reducible assumption) ?_)
    | split
    | dsimp only)

theorem State.fixTrigger_pinned {cn : Pins × Power} {ql : BitVec 48 × Store GroupPhase} {s : State} {m g : Nat} : State.Pinned cn ql s → State.Pinned cn ql (State.fixTrigger s m g) := by
  intros
  unfold State.fixTrigger
  repeat' (first
    | intro _
    | with_reducible assumption
    | with_reducible apply State.updAct_pinned
    | with_reducible apply pinned_foldl
    | with_reducible apply pinned_foldl_snd
    | with_reducible apply pinned_ite
    | simp only [pinned_mk_iff]
    | with_reducible rfl
    | (refine pinned_snd (by with_reducible assumption) ?_)
    | split
    | dsimp only)

theorem State.fixAwaiting_pinned {cn : Pins × Power} {ql : BitVec 48 × Store GroupPhase} {s : State} {m g n i : Nat} : State.Pinned cn ql s → State.Pinned cn ql (State.fixAwaiting s m g n i) := by
  intros
  unfold State.fixAwaiting
  repeat' (first
    | intro _
    | with_reducible assumption
    | with_reducible apply State.updNode_pinned
    | (refine State.acquireOp_pinned (by with_reducible assumption) ?_)
    | with_reducible apply State.stitchProto_pinned
    | with_reducible apply pinned_foldl
    | with_reducible apply pinned_foldl_snd
    | with_reducible apply pinned_ite
    | simp only [pinned_mk_iff]
    | with_reducible rfl
    | (refine pinned_snd (by with_reducible assumption) ?_)
    | split
    | dsimp only)

theorem State.fixAwaitings_pinned {cn : Pins × Power} {ql : BitVec 48 × Store GroupPhase} {s : State} {m : Nat} : State.Pinned cn ql s → State.Pinned cn ql (State.fixAwaitings s m) := by
  intros
  unfold State.fixAwaitings
  repeat' (first
    | intro _
    | with_reducible assumption
    | with_reducible apply State.fixTrigger_pinned
    | with_reducible apply State.fixAwaiting_pinned
    | with_reducible apply pinned_foldl
    | with_reducible apply pinned_foldl_snd
    | with_reducible apply pinned_ite
    | simp only [pinned_mk_iff]
    | with_reducible rfl
    | (refine pinned_snd (by with_reducible assumption) ?_)
    | split
    | dsimp only)

theorem State.claimOp_pinned {cn : Pins × Power} {ql : BitVec 48 × Store GroupPhase} {s : State} {m agent : Nat} {t : State} : State.claimOp s m agent = Option.some t → State.Pinned cn ql s → State.Pinned cn ql t := by
  intro he h
  unfold State.claimOp at he
  try dsimp only at he
  repeat' (first
    | contradiction
    | (injection he with he; subst he)
    | split at he)
  all_goals
  repeat' (first
    | intro _
    | with_reducible assumption
    | with_reducible apply State.setMarker_pinned
    | with_reducible apply State.fixAwaitings_pinned
    | with_reducible apply State.settle_pinned
    | with_reducible apply pinned_foldl
    | with_reducible apply pinned_foldl_snd
    | with_reducible apply pinned_ite
    | simp only [pinned_mk_iff]
    | with_reducible rfl
    | (refine pinned_snd (by with_reducible assumption) ?_)
    | split
    | dsimp only)

theorem State.claimPoints_pinned {cn : Pins × Power} {ql : BitVec 48 × Store GroupPhase} {s : State} {agent b : Nat} : State.Pinned cn ql s → State.Pinned cn ql (Prod.snd (State.claimPoints s agent b)) := by
  intros
  unfold State.claimPoints
  repeat' (first
    | intro _
    | with_reducible assumption
    | (refine State.claimOp_pinned (by with_reducible assumption) ?_)
    | with_reducible apply State.stitchProto_pinned
    | with_reducible apply pinned_foldl
    | with_reducible apply pinned_foldl_snd
    | with_reducible apply pinned_ite
    | simp only [pinned_mk_iff]
    | with_reducible rfl
    | (refine pinned_snd (by with_reducible assumption) ?_)
    | split
    | dsimp only)

theorem State.changeUpdate_pinned {cn : Pins × Power} {ql : BitVec 48 × Store GroupPhase} {s : State} {u : TrackUpdate} {f : TrackUpdate → TrackUpdate} : State.Pinned cn ql s → State.Pinned cn ql (State.changeUpdate s u f) := by
  intros
  unfold State.changeUpdate
  repeat' (first
    | intro _
    | with_reducible assumption
    | with_reducible apply State.setUpdates_pinned
    | with_reducible apply pinned_foldl
    | with_reducible apply pinned_foldl_snd
    | with_reducible apply pinned_ite
    | simp only [pinned_mk_iff]
    | with_reducible rfl
    | (refine pinned_snd (by with_reducible assumption) ?_)
    | split
    | dsimp only)

theorem State.startUpdate_pinned {cn : Pins × Power} {ql : BitVec 48 × Store GroupPhase} {s : State} {object : Bool} {i : Nat} : State.Pinned cn ql s → State.Pinned cn ql (State.startUpdate s object i) := by
  intros
  unfold State.startUpdate
  repeat' (first
    | intro _
    | with_reducible assumption
    | with_reducible apply State.lateUpdate_pinned
    | with_reducible apply State.closeUpdate_pinned
    | with_reducible apply State.claimPoints_pinned
    | with_reducible apply State.changeUpdate_pinned
    | with_reducible apply pinned_foldl
    | with_reducible apply pinned_foldl_snd
    | with_reducible apply pinned_ite
    | simp only [pinned_mk_iff]
    | with_reducible rfl
    | (refine pinned_snd (by with_reducible assumption) ?_)
    | split
    | dsimp only)

theorem State.startNext_pinned {cn : Pins × Power} {ql : BitVec 48 × Store GroupPhase} {s : State} {object : Bool} {i : Nat} : State.Pinned cn ql s → State.Pinned cn ql (State.startNext s object i) := by
  intros
  unfold State.startNext
  repeat' (first
    | intro _
    | with_reducible assumption
    | with_reducible apply State.startUpdate_pinned
    | with_reducible apply pinned_foldl
    | with_reducible apply pinned_foldl_snd
    | with_reducible apply pinned_ite
    | simp only [pinned_mk_iff]
    | with_reducible rfl
    | (refine pinned_snd (by with_reducible assumption) ?_)
    | split
    | dsimp only)

theorem State.dropUpdate_pinned {cn : Pins × Power} {ql : BitVec 48 × Store GroupPhase} {s : State} {u : TrackUpdate} : State.Pinned cn ql s → State.Pinned cn ql (State.dropUpdate s u) := by
  intros
  unfold State.dropUpdate
  repeat' (first
    | intro _
    | with_reducible assumption
    | with_reducible apply State.addSat_pinned
    | with_reducible apply State.closeUpdate_pinned
    | with_reducible apply pinned_foldl
    | with_reducible apply pinned_foldl_snd
    | with_reducible apply pinned_ite
    | simp only [pinned_mk_iff]
    | with_reducible rfl
    | (refine pinned_snd (by with_reducible assumption) ?_)
    | split
    | dsimp only)

theorem State.dropUpdates_pinned {cn : Pins × Power} {ql : BitVec 48 × Store GroupPhase} {s : State} {p : TrackUpdate → Bool} : State.Pinned cn ql s → State.Pinned cn ql (State.dropUpdates s p) := by
  intros
  unfold State.dropUpdates
  repeat' (first
    | intro _
    | with_reducible assumption
    | with_reducible apply State.startNext_pinned
    | with_reducible apply State.dropUpdate_pinned
    | with_reducible apply pinned_foldl
    | with_reducible apply pinned_foldl_snd
    | with_reducible apply pinned_ite
    | simp only [pinned_mk_iff]
    | with_reducible rfl
    | (refine pinned_snd (by with_reducible assumption) ?_)
    | split
    | dsimp only)

theorem State.setTx_pinned {cn : Pins × Power} {ql : BitVec 48 × Store GroupPhase} {s : State} {t : Nat} {v : TxStream} : State.Pinned cn ql s → State.Pinned cn ql (State.setTx s t v) := by
  intros
  unfold State.setTx
  repeat' (first
    | intro _
    | with_reducible assumption
    | with_reducible apply pinned_foldl
    | with_reducible apply pinned_foldl_snd
    | with_reducible apply pinned_ite
    | simp only [pinned_mk_iff]
    | with_reducible rfl
    | (refine pinned_snd (by with_reducible assumption) ?_)
    | split
    | dsimp only)

theorem State.releaseOp_pinned {cn : Pins × Power} {ql : BitVec 48 × Store GroupPhase} {s : State} {m agent : Nat} {t : State} : State.releaseOp s m agent = Option.some t → State.Pinned cn ql s → State.Pinned cn ql t := by
  intro he h
  unfold State.releaseOp at he
  try dsimp only at he
  repeat' (first
    | contradiction
    | (injection he with he; subst he)
    | split at he)
  all_goals
  repeat' (first
    | intro _
    | with_reducible assumption
    | with_reducible apply State.setMarker_pinned
    | with_reducible apply pinned_foldl
    | with_reducible apply pinned_foldl_snd
    | with_reducible apply pinned_ite
    | simp only [pinned_mk_iff]
    | with_reducible rfl
    | (refine pinned_snd (by with_reducible assumption) ?_)
    | split
    | dsimp only)

theorem State.releaseHolds_pinned {cn : Pins × Power} {ql : BitVec 48 × Store GroupPhase} {s : State} {t : Nat} {p : TxPayload} : State.Pinned cn ql s → State.Pinned cn ql (State.releaseHolds s t p) := by
  intros
  unfold State.releaseHolds
  repeat' (first
    | intro _
    | with_reducible assumption
    | (refine State.releaseOp_pinned (by with_reducible assumption) ?_)
    | with_reducible apply pinned_foldl
    | with_reducible apply pinned_foldl_snd
    | with_reducible apply pinned_ite
    | simp only [pinned_mk_iff]
    | with_reducible rfl
    | (refine pinned_snd (by with_reducible assumption) ?_)
    | split
    | dsimp only)

theorem State.endPayload_pinned {cn : Pins × Power} {ql : BitVec 48 × Store GroupPhase} {s : State} {t : Nat} : State.Pinned cn ql s → State.Pinned cn ql (State.endPayload s t) := by
  intros
  unfold State.endPayload
  repeat' (first
    | intro _
    | with_reducible assumption
    | with_reducible apply State.setTx_pinned
    | with_reducible apply State.releaseHolds_pinned
    | with_reducible apply pinned_foldl
    | with_reducible apply pinned_foldl_snd
    | with_reducible apply pinned_ite
    | simp only [pinned_mk_iff]
    | with_reducible rfl
    | (refine pinned_snd (by with_reducible assumption) ?_)
    | split
    | dsimp only)

theorem State.setTxPort_pinned {cn : Pins × Power} {ql : BitVec 48 × Store GroupPhase} {s : State} {n : Nat} {v : TxPort} : State.Pinned cn ql s → State.Pinned cn ql (State.setTxPort s n v) := by
  intros
  unfold State.setTxPort
  repeat' (first
    | intro _
    | with_reducible assumption
    | with_reducible apply pinned_foldl
    | with_reducible apply pinned_foldl_snd
    | with_reducible apply pinned_ite
    | simp only [pinned_mk_iff]
    | with_reducible rfl
    | (refine pinned_snd (by with_reducible assumption) ?_)
    | split
    | dsimp only)

theorem State.cutPayload_pinned {cn : Pins × Power} {ql : BitVec 48 × Store GroupPhase} {s : State} {t : Nat} {p : TxPayload} : State.Pinned cn ql s → State.Pinned cn ql (State.cutPayload s t p) := by
  intros
  unfold State.cutPayload
  repeat' (first
    | intro _
    | with_reducible assumption
    | with_reducible apply State.addSat_pinned
    | with_reducible apply State.setTx_pinned
    | with_reducible apply State.endPayload_pinned
    | with_reducible apply State.addWrap_pinned
    | with_reducible apply State.setTxPort_pinned
    | with_reducible apply pinned_foldl
    | with_reducible apply pinned_foldl_snd
    | with_reducible apply pinned_ite
    | simp only [pinned_mk_iff]
    | with_reducible rfl
    | (refine pinned_snd (by with_reducible assumption) ?_)
    | split
    | dsimp only)

theorem State.dropClassB_pinned {cn : Pins × Power} {ql : BitVec 48 × Store GroupPhase} {s : State} : State.Pinned cn ql s → State.Pinned cn ql (State.dropClassB s) := by
  intros
  unfold State.dropClassB
  repeat' (first
    | intro _
    | with_reducible assumption
    | with_reducible apply State.dropActivation_pinned
    | with_reducible apply State.dropUpdates_pinned
    | with_reducible apply State.cutPayload_pinned
    | with_reducible apply pinned_foldl
    | with_reducible apply pinned_foldl_snd
    | with_reducible apply pinned_ite
    | simp only [pinned_mk_iff]
    | with_reducible rfl
    | (refine pinned_snd (by with_reducible assumption) ?_)
    | split
    | dsimp only)

theorem State.dropForBind_pinned {cn : Pins × Power} {ql : BitVec 48 × Store GroupPhase} {s : State} : State.Pinned cn ql s → State.Pinned cn ql (State.dropForBind s) := by
  intros
  unfold State.dropForBind
  repeat' (first
    | intro _
    | with_reducible assumption
    | with_reducible apply State.abandonSearch_pinned
    | with_reducible apply State.dropClassC_pinned
    | with_reducible apply State.dropClassB_pinned
    | with_reducible apply State.setFlag_pinned
    | with_reducible apply pinned_foldl
    | with_reducible apply pinned_foldl_snd
    | with_reducible apply pinned_ite
    | simp only [pinned_mk_iff]
    | with_reducible rfl
    | (refine pinned_snd (by with_reducible assumption) ?_)
    | split
    | dsimp only)

theorem State.setCast_pinned {cn : Pins × Power} {ql : BitVec 48 × Store GroupPhase} {s : State} {c : CastOn} : State.Pinned cn ql s → State.Pinned cn ql (State.setCast s c) := by
  intros
  unfold State.setCast
  repeat' (first
    | intro _
    | with_reducible assumption
    | with_reducible apply pinned_foldl
    | with_reducible apply pinned_foldl_snd
    | with_reducible apply pinned_ite
    | simp only [pinned_mk_iff]
    | with_reducible rfl
    | (refine pinned_snd (by with_reducible assumption) ?_)
    | split
    | dsimp only)

theorem State.blow_pinned {cn : Pins × Power} {ql : BitVec 48 × Store GroupPhase} {s : State} {l : List FuseBit} : State.Pinned cn ql s → State.Pinned cn ql (State.blow s l) := by
  intros
  unfold State.blow
  repeat' (first
    | intro _
    | with_reducible assumption
    | with_reducible apply State.setCast_pinned
    | with_reducible apply State.setFlag_pinned
    | with_reducible apply pinned_foldl
    | with_reducible apply pinned_foldl_snd
    | with_reducible apply pinned_ite
    | simp only [pinned_mk_iff]
    | with_reducible rfl
    | (refine pinned_snd (by with_reducible assumption) ?_)
    | split
    | dsimp only)

theorem State.autoCommit_pinned {cn : Pins × Power} {ql : BitVec 48 × Store GroupPhase} {s : State} : State.Pinned cn ql s → State.Pinned cn ql (State.autoCommit s) := by
  intros
  unfold State.autoCommit
  repeat' (first
    | intro _
    | with_reducible assumption
    | with_reducible apply State.blow_pinned
    | with_reducible apply pinned_foldl
    | with_reducible apply pinned_foldl_snd
    | with_reducible apply pinned_ite
    | simp only [pinned_mk_iff]
    | with_reducible rfl
    | (refine pinned_snd (by with_reducible assumption) ?_)
    | split
    | dsimp only)

theorem State.setStream_pinned {cn : Pins × Power} {ql : BitVec 48 × Store GroupPhase} {s : State} {n : Nat} {v : Stream} : State.Pinned cn ql s → State.Pinned cn ql (State.setStream s n v) := by
  intros
  unfold State.setStream
  repeat' (first
    | intro _
    | with_reducible assumption
    | with_reducible apply pinned_foldl
    | with_reducible apply pinned_foldl_snd
    | with_reducible apply pinned_ite
    | simp only [pinned_mk_iff]
    | with_reducible rfl
    | (refine pinned_snd (by with_reducible assumption) ?_)
    | split
    | dsimp only)

theorem State.setGroup_pinned {cn : Pins × Power} {ql : BitVec 48 × Store GroupPhase} {s : State} {g : Nat} {v : PairGroup} : State.Pinned cn ql s → State.Pinned cn ql (State.setGroup s g v) := by
  intros
  unfold State.setGroup
  repeat' (first
    | intro _
    | with_reducible assumption
    | with_reducible apply pinned_foldl
    | with_reducible apply pinned_foldl_snd
    | with_reducible apply pinned_ite
    | simp only [pinned_mk_iff]
    | with_reducible rfl
    | (refine pinned_snd (by with_reducible assumption) ?_)
    | split
    | dsimp only)

theorem State.staleSet_pinned {cn : Pins × Power} {ql : BitVec 48 × Store GroupPhase} {s : State} {n set : Nat} : State.Pinned cn ql s → State.Pinned cn ql (State.staleSet s n set) := by
  intros
  unfold State.staleSet
  repeat' (first
    | intro _
    | with_reducible assumption
    | with_reducible apply State.setFlag_pinned
    | with_reducible apply State.setGroup_pinned
    | with_reducible apply State.updAct_pinned
    | with_reducible apply pinned_foldl
    | with_reducible apply pinned_foldl_snd
    | with_reducible apply pinned_ite
    | simp only [pinned_mk_iff]
    | with_reducible rfl
    | (refine pinned_snd (by with_reducible assumption) ?_)
    | split
    | dsimp only)

theorem State.badFrame_pinned {cn : Pins × Power} {ql : BitVec 48 × Store GroupPhase} {s : State} {n : Nat} : State.Pinned cn ql s → State.Pinned cn ql (State.badFrame s n) := by
  intros
  unfold State.badFrame
  repeat' (first
    | intro _
    | with_reducible assumption
    | with_reducible apply State.setStream_pinned
    | with_reducible apply State.staleSet_pinned
    | with_reducible apply State.orProto_pinned
    | (refine State.abandonOp_pinned (by with_reducible assumption) ?_)
    | with_reducible apply State.setFlag_pinned
    | with_reducible apply State.addSat_pinned
    | with_reducible apply pinned_foldl
    | with_reducible apply pinned_foldl_snd
    | with_reducible apply pinned_ite
    | simp only [pinned_mk_iff]
    | with_reducible rfl
    | (refine pinned_snd (by with_reducible assumption) ?_)
    | split
    | dsimp only)

theorem State.setManaging_pinned {cn : Pins × Power} {ql : BitVec 48 × Store GroupPhase} {s : State} {tier : Nat} {b : Bool} : State.Pinned cn ql s → State.Pinned cn ql (State.setManaging s tier b) := by
  intros
  unfold State.setManaging
  repeat' (first
    | intro _
    | with_reducible assumption
    | with_reducible apply pinned_foldl
    | with_reducible apply pinned_foldl_snd
    | with_reducible apply pinned_ite
    | simp only [pinned_mk_iff]
    | with_reducible rfl
    | (refine pinned_snd (by with_reducible assumption) ?_)
    | split
    | dsimp only)

theorem State.settleManager_pinned {cn : Pins × Power} {ql : BitVec 48 × Store GroupPhase} {s : State} : State.Pinned cn ql s → State.Pinned cn ql (State.settleManager s) := by
  intros
  unfold State.settleManager
  repeat' (first
    | intro _
    | with_reducible assumption
    | with_reducible apply State.setManaging_pinned
    | with_reducible apply pinned_foldl
    | with_reducible apply pinned_foldl_snd
    | with_reducible apply pinned_ite
    | simp only [pinned_mk_iff]
    | with_reducible rfl
    | (refine pinned_snd (by with_reducible assumption) ?_)
    | split
    | dsimp only)

theorem State.dropForDoze_pinned {cn : Pins × Power} {ql : BitVec 48 × Store GroupPhase} {s : State} : State.Pinned cn ql s → State.Pinned cn ql (State.dropForDoze s) := by
  intros
  unfold State.dropForDoze
  repeat' (first
    | intro _
    | with_reducible assumption
    | with_reducible apply State.dropClassC_pinned
    | with_reducible apply State.dropClassB_pinned
    | with_reducible apply State.endQueries_pinned
    | with_reducible apply pinned_foldl
    | with_reducible apply pinned_foldl_snd
    | with_reducible apply pinned_ite
    | simp only [pinned_mk_iff]
    | with_reducible rfl
    | (refine pinned_snd (by with_reducible assumption) ?_)
    | split
    | dsimp only)

theorem State.clearContexts_pinned {cn : Pins × Power} {ql : BitVec 48 × Store GroupPhase} {s : State} {n : Nat} {p : Nat → Bool} : State.Pinned cn ql s → State.Pinned cn ql (State.clearContexts s n p) := by
  intros
  unfold State.clearContexts
  repeat' (first
    | intro _
    | with_reducible assumption
    | with_reducible apply State.setUnit_pinned
    | with_reducible apply pinned_foldl
    | with_reducible apply pinned_foldl_snd
    | with_reducible apply pinned_ite
    | simp only [pinned_mk_iff]
    | with_reducible rfl
    | (refine pinned_snd (by with_reducible assumption) ?_)
    | split
    | dsimp only)

theorem State.recordResult_pinned {cn : Pins × Power} {ql : BitVec 48 × Store GroupPhase} {s : State} {n r : Nat} : State.Pinned cn ql s → State.Pinned cn ql (State.recordResult s n r) := by
  intros
  unfold State.recordResult
  repeat' (first
    | intro _
    | with_reducible assumption
    | with_reducible apply State.addSat_pinned
    | with_reducible apply State.setReg_pinned
    | with_reducible apply pinned_foldl
    | with_reducible apply pinned_foldl_snd
    | with_reducible apply pinned_ite
    | simp only [pinned_mk_iff]
    | with_reducible rfl
    | (refine pinned_snd (by with_reducible assumption) ?_)
    | split
    | dsimp only)

theorem State.checkAlive_pinned {cn : Pins × Power} {ql : BitVec 48 × Store GroupPhase} {s : State} {n context a : Nat} : State.Pinned cn ql s → State.Pinned cn ql (Prod.snd (State.checkAlive s n context a)) := by
  intros
  unfold State.checkAlive
  repeat' (first
    | intro _
    | with_reducible assumption
    | with_reducible apply State.addSat_pinned
    | with_reducible apply State.setUnit_pinned
    | with_reducible apply pinned_foldl
    | with_reducible apply pinned_foldl_snd
    | with_reducible apply pinned_ite
    | simp only [pinned_mk_iff]
    | with_reducible rfl
    | (refine pinned_snd (by with_reducible assumption) ?_)
    | split
    | dsimp only)

theorem State.reportAlive_pinned {cn : Pins × Power} {ql : BitVec 48 × Store GroupPhase} {s : State} {n context : Nat} {o : AliveOutcome} : State.Pinned cn ql s → State.Pinned cn ql (State.reportAlive s n context o) := by
  intros
  unfold State.reportAlive
  repeat' (first
    | intro _
    | with_reducible assumption
    | with_reducible apply State.raiseFault_pinned
    | with_reducible apply State.setFlag_pinned
    | with_reducible apply pinned_foldl
    | with_reducible apply pinned_foldl_snd
    | with_reducible apply pinned_ite
    | simp only [pinned_mk_iff]
    | with_reducible rfl
    | (refine pinned_snd (by with_reducible assumption) ?_)
    | split
    | dsimp only)

theorem State.generate_pinned {cn : Pins × Power} {ql : BitVec 48 × Store GroupPhase} {s : State} {n : Nat} {bytes : List Byte} {context counter : Nat} : State.Pinned cn ql s → State.Pinned cn ql (Prod.snd (State.generate s n bytes context counter)) := by
  intros
  unfold State.generate
  repeat' (first
    | intro _
    | with_reducible assumption
    | with_reducible apply State.recordResult_pinned
    | with_reducible apply State.checkAlive_pinned
    | with_reducible apply State.reportAlive_pinned
    | with_reducible apply pinned_foldl
    | with_reducible apply pinned_foldl_snd
    | with_reducible apply pinned_ite
    | simp only [pinned_mk_iff]
    | with_reducible rfl
    | (refine pinned_snd (by with_reducible assumption) ?_)
    | split
    | dsimp only)

theorem State.beginPayload_pinned {cn : Pins × Power} {ql : BitVec 48 × Store GroupPhase} {s : State} {t : Nat} : State.Pinned cn ql s → State.Pinned cn ql (State.beginPayload s t) := by
  intros
  unfold State.beginPayload
  repeat' (first
    | intro _
    | with_reducible assumption
    | with_reducible apply State.generate_pinned
    | with_reducible apply State.addWrap_pinned
    | with_reducible apply State.setTx_pinned
    | with_reducible apply pinned_foldl
    | with_reducible apply pinned_foldl_snd
    | with_reducible apply pinned_ite
    | simp only [pinned_mk_iff]
    | with_reducible rfl
    | (refine pinned_snd (by with_reducible assumption) ?_)
    | split
    | dsimp only)

theorem State.markUser_pinned {cn : Pins × Power} {ql : BitVec 48 × Store GroupPhase} {s : State} {n bit : Nat} : State.Pinned cn ql s → State.Pinned cn ql (State.markUser s n bit) := by
  intros
  unfold State.markUser
  repeat' (first
    | intro _
    | with_reducible assumption
    | with_reducible apply State.setFld_pinned
    | with_reducible apply pinned_foldl
    | with_reducible apply pinned_foldl_snd
    | with_reducible apply pinned_ite
    | simp only [pinned_mk_iff]
    | with_reducible rfl
    | (refine pinned_snd (by with_reducible assumption) ?_)
    | split
    | dsimp only)

theorem State.useSlot_pinned {cn : Pins × Power} {ql : BitVec 48 × Store GroupPhase} {s : State} {k : Nat} : State.Pinned cn ql s → State.Pinned cn ql (State.useSlot s k) := by
  intros
  unfold State.useSlot
  repeat' (first
    | intro _
    | with_reducible assumption
    | with_reducible apply State.setClassA_pinned
    | with_reducible apply State.markUser_pinned
    | with_reducible apply pinned_foldl
    | with_reducible apply pinned_foldl_snd
    | with_reducible apply pinned_ite
    | simp only [pinned_mk_iff]
    | with_reducible rfl
    | (refine pinned_snd (by with_reducible assumption) ?_)
    | split
    | dsimp only)

theorem State.envelopeRefused_pinned {cn : Pins × Power} {ql : BitVec 48 × Store GroupPhase} {s : State} {slot : Nat} : State.Pinned cn ql s → State.Pinned cn ql (State.envelopeRefused s slot) := by
  intros
  unfold State.envelopeRefused
  repeat' (first
    | intro _
    | with_reducible assumption
    | with_reducible apply State.raiseFault_pinned
    | with_reducible apply State.raiseIbi_pinned
    | with_reducible apply State.setFlag_pinned
    | with_reducible apply pinned_foldl
    | with_reducible apply pinned_foldl_snd
    | with_reducible apply pinned_ite
    | simp only [pinned_mk_iff]
    | with_reducible rfl
    | (refine pinned_snd (by with_reducible assumption) ?_)
    | split
    | dsimp only)

theorem State.refuseSlot_pinned {cn : Pins × Power} {ql : BitVec 48 × Store GroupPhase} {s : State} {k : Nat} : State.Pinned cn ql s → State.Pinned cn ql (State.refuseSlot s k) := by
  intros
  unfold State.refuseSlot
  repeat' (first
    | intro _
    | with_reducible assumption
    | with_reducible apply State.setClassA_pinned
    | with_reducible apply State.setFlag_pinned
    | with_reducible apply State.envelopeRefused_pinned
    | with_reducible apply pinned_foldl
    | with_reducible apply pinned_foldl_snd
    | with_reducible apply pinned_ite
    | simp only [pinned_mk_iff]
    | with_reducible rfl
    | (refine pinned_snd (by with_reducible assumption) ?_)
    | split
    | dsimp only)

theorem State.loadClassA_pinned {cn : Pins × Power} {ql : BitVec 48 × Store GroupPhase} {s : State} : State.Pinned cn ql s → State.Pinned cn ql (State.loadClassA s) := by
  intros
  unfold State.loadClassA
  repeat' (first
    | intro _
    | with_reducible assumption
    | with_reducible apply State.setClassA_pinned
    | with_reducible apply State.useSlot_pinned
    | with_reducible apply State.refuseSlot_pinned
    | with_reducible apply pinned_foldl
    | with_reducible apply pinned_foldl_snd
    | with_reducible apply pinned_ite
    | simp only [pinned_mk_iff]
    | with_reducible rfl
    | (refine pinned_snd (by with_reducible assumption) ?_)
    | split
    | dsimp only)

theorem State.beginUpdate_pinned {cn : Pins × Power} {ql : BitVec 48 × Store GroupPhase} {s : State} {object : Bool} {i g stream : Nat} {bufs : List Nat} {a : Activation} : State.Pinned cn ql s → State.Pinned cn ql (State.beginUpdate s object i g stream bufs a) := by
  intros
  unfold State.beginUpdate
  repeat' (first
    | intro _
    | with_reducible assumption
    | with_reducible apply State.acquireFor_pinned
    | with_reducible apply State.startNext_pinned
    | with_reducible apply State.setUpdates_pinned
    | with_reducible apply pinned_foldl
    | with_reducible apply pinned_foldl_snd
    | with_reducible apply pinned_ite
    | simp only [pinned_mk_iff]
    | with_reducible rfl
    | (refine pinned_snd (by with_reducible assumption) ?_)
    | split
    | dsimp only)

theorem State.beginUpdates_pinned {cn : Pins × Power} {ql : BitVec 48 × Store GroupPhase} {s : State} {g : Nat} {a : Activation} : State.Pinned cn ql s → State.Pinned cn ql (State.beginUpdates s g a) := by
  intros
  unfold State.beginUpdates
  repeat' (first
    | intro _
    | with_reducible assumption
    | with_reducible apply State.beginUpdate_pinned
    | with_reducible apply pinned_foldl
    | with_reducible apply pinned_foldl_snd
    | with_reducible apply pinned_ite
    | simp only [pinned_mk_iff]
    | with_reducible rfl
    | (refine pinned_snd (by with_reducible assumption) ?_)
    | split
    | dsimp only)

theorem State.regate_pinned {cn : Pins × Power} {ql : BitVec 48 × Store GroupPhase} {s : State} : State.Pinned cn ql s → State.Pinned cn ql (State.regate s) := by
  intros
  unfold State.regate
  repeat' (first
    | intro _
    | with_reducible assumption
    | with_reducible apply pinned_foldl
    | with_reducible apply pinned_foldl_snd
    | with_reducible apply pinned_ite
    | simp only [pinned_mk_iff]
    | with_reducible rfl
    | (refine pinned_snd (by with_reducible assumption) ?_)
    | split
    | dsimp only)

theorem State.setMac_pinned {cn : Pins × Power} {ql : BitVec 48 × Store GroupPhase} {s : State} {m : Nat} {p : EthPort} : State.Pinned cn ql s → State.Pinned cn ql (State.setMac s m p) := by
  intros
  unfold State.setMac
  repeat' (first
    | intro _
    | with_reducible assumption
    | with_reducible apply pinned_foldl
    | with_reducible apply pinned_foldl_snd
    | with_reducible apply pinned_ite
    | simp only [pinned_mk_iff]
    | with_reducible rfl
    | (refine pinned_snd (by with_reducible assumption) ?_)
    | split
    | dsimp only)

theorem State.checkCommands_pinned {cn : Pins × Power} {ql : BitVec 48 × Store GroupPhase} {s : State} : State.Pinned cn ql s → State.Pinned cn ql (State.checkCommands s) := by
  intros
  unfold State.checkCommands
  repeat' (first
    | intro _
    | with_reducible assumption
    | with_reducible apply State.markUser_pinned
    | with_reducible apply State.setFlag_pinned
    | with_reducible apply pinned_foldl
    | with_reducible apply pinned_foldl_snd
    | with_reducible apply pinned_ite
    | simp only [pinned_mk_iff]
    | with_reducible rfl
    | (refine pinned_snd (by with_reducible assumption) ?_)
    | split
    | dsimp only)

theorem State.checkGraphs_pinned {cn : Pins × Power} {ql : BitVec 48 × Store GroupPhase} {s : State} : State.Pinned cn ql s → State.Pinned cn ql (State.checkGraphs s) := by
  intros
  unfold State.checkGraphs
  repeat' (first
    | intro _
    | with_reducible assumption
    | with_reducible apply State.setFld_pinned
    | with_reducible apply State.setFlag_pinned
    | with_reducible apply pinned_foldl
    | with_reducible apply pinned_foldl_snd
    | with_reducible apply pinned_ite
    | simp only [pinned_mk_iff]
    | with_reducible rfl
    | (refine pinned_snd (by with_reducible assumption) ?_)
    | split
    | dsimp only)

theorem State.checkIndexes_pinned {cn : Pins × Power} {ql : BitVec 48 × Store GroupPhase} {s : State} : State.Pinned cn ql s → State.Pinned cn ql (State.checkIndexes s) := by
  intros
  unfold State.checkIndexes
  repeat' (first
    | intro _
    | with_reducible assumption
    | with_reducible apply State.setFlag_pinned
    | with_reducible apply pinned_foldl
    | with_reducible apply pinned_foldl_snd
    | with_reducible apply pinned_ite
    | simp only [pinned_mk_iff]
    | with_reducible rfl
    | (refine pinned_snd (by with_reducible assumption) ?_)
    | split
    | dsimp only)

theorem State.checkPrograms_pinned {cn : Pins × Power} {ql : BitVec 48 × Store GroupPhase} {s : State} : State.Pinned cn ql s → State.Pinned cn ql (State.checkPrograms s) := by
  intros
  unfold State.checkPrograms
  repeat' (first
    | intro _
    | with_reducible assumption
    | with_reducible apply State.setFld_pinned
    | with_reducible apply State.setFlag_pinned
    | with_reducible apply pinned_foldl
    | with_reducible apply pinned_foldl_snd
    | with_reducible apply pinned_ite
    | simp only [pinned_mk_iff]
    | with_reducible rfl
    | (refine pinned_snd (by with_reducible assumption) ?_)
    | split
    | dsimp only)

theorem State.checkStreams_pinned {cn : Pins × Power} {ql : BitVec 48 × Store GroupPhase} {s : State} : State.Pinned cn ql s → State.Pinned cn ql (State.checkStreams s) := by
  intros
  unfold State.checkStreams
  repeat' (first
    | intro _
    | with_reducible assumption
    | with_reducible apply State.setFlag_pinned
    | with_reducible apply pinned_foldl
    | with_reducible apply pinned_foldl_snd
    | with_reducible apply pinned_ite
    | simp only [pinned_mk_iff]
    | with_reducible rfl
    | (refine pinned_snd (by with_reducible assumption) ?_)
    | split
    | dsimp only)

theorem State.checkTables_pinned {cn : Pins × Power} {ql : BitVec 48 × Store GroupPhase} {s : State} : State.Pinned cn ql s → State.Pinned cn ql (State.checkTables s) := by
  intros
  unfold State.checkTables
  repeat' (first
    | intro _
    | with_reducible assumption
    | with_reducible apply State.setFlag_pinned
    | with_reducible apply State.setFld_pinned
    | with_reducible apply pinned_foldl
    | with_reducible apply pinned_foldl_snd
    | with_reducible apply pinned_ite
    | simp only [pinned_mk_iff]
    | with_reducible rfl
    | (refine pinned_snd (by with_reducible assumption) ?_)
    | split
    | dsimp only)

theorem State.checkTracking_pinned {cn : Pins × Power} {ql : BitVec 48 × Store GroupPhase} {s : State} : State.Pinned cn ql s → State.Pinned cn ql (State.checkTracking s) := by
  intros
  unfold State.checkTracking
  repeat' (first
    | intro _
    | with_reducible assumption
    | with_reducible apply State.setFlag_pinned
    | with_reducible apply State.setFld_pinned
    | with_reducible apply pinned_foldl
    | with_reducible apply pinned_foldl_snd
    | with_reducible apply pinned_ite
    | simp only [pinned_mk_iff]
    | with_reducible rfl
    | (refine pinned_snd (by with_reducible assumption) ?_)
    | split
    | dsimp only)

theorem State.checkTransmit_pinned {cn : Pins × Power} {ql : BitVec 48 × Store GroupPhase} {s : State} : State.Pinned cn ql s → State.Pinned cn ql (State.checkTransmit s) := by
  intros
  unfold State.checkTransmit
  repeat' (first
    | intro _
    | with_reducible assumption
    | with_reducible apply State.setFlag_pinned
    | with_reducible apply State.setTx_pinned
    | with_reducible apply State.markUser_pinned
    | with_reducible apply pinned_foldl
    | with_reducible apply pinned_foldl_snd
    | with_reducible apply pinned_ite
    | simp only [pinned_mk_iff]
    | with_reducible rfl
    | (refine pinned_snd (by with_reducible assumption) ?_)
    | split
    | dsimp only)

theorem State.checkVision_pinned {cn : Pins × Power} {ql : BitVec 48 × Store GroupPhase} {s : State} : State.Pinned cn ql s → State.Pinned cn ql (State.checkVision s) := by
  intros
  unfold State.checkVision
  repeat' (first
    | intro _
    | with_reducible assumption
    | with_reducible apply State.checkGraphs_pinned
    | with_reducible apply State.checkPrograms_pinned
    | with_reducible apply State.checkTables_pinned
    | with_reducible apply State.checkStreams_pinned
    | with_reducible apply pinned_foldl
    | with_reducible apply pinned_foldl_snd
    | with_reducible apply pinned_ite
    | simp only [pinned_mk_iff]
    | with_reducible rfl
    | (refine pinned_snd (by with_reducible assumption) ?_)
    | split
    | dsimp only)

theorem State.choosePacket_pinned {cn : Pins × Power} {ql : BitVec 48 × Store GroupPhase} {s : State} {n : Nat} : State.Pinned cn ql s → State.Pinned cn ql (State.choosePacket s n) := by
  intros
  unfold State.choosePacket
  repeat' (first
    | intro _
    | with_reducible assumption
    | with_reducible apply State.beginPayload_pinned
    | with_reducible apply State.setTxPort_pinned
    | with_reducible apply pinned_foldl
    | with_reducible apply pinned_foldl_snd
    | with_reducible apply pinned_ite
    | simp only [pinned_mk_iff]
    | with_reducible rfl
    | (refine pinned_snd (by with_reducible assumption) ?_)
    | split
    | dsimp only)

theorem State.dropCrossings_pinned {cn : Pins × Power} {ql : BitVec 48 × Store GroupPhase} {s : State} {l : List Nat} : State.Pinned cn ql s → State.Pinned cn ql (State.dropCrossings s l) := by
  intros
  unfold State.dropCrossings
  repeat' (first
    | intro _
    | with_reducible assumption
    | with_reducible apply pinned_foldl
    | with_reducible apply pinned_foldl_snd
    | with_reducible apply pinned_ite
    | simp only [pinned_mk_iff]
    | with_reducible rfl
    | (refine pinned_snd (by with_reducible assumption) ?_)
    | split
    | dsimp only)

theorem State.clearCrossings_pinned {cn : Pins × Power} {ql : BitVec 48 × Store GroupPhase} {s : State} {l : List Nat} : State.Pinned cn ql s → State.Pinned cn ql (State.clearCrossings s l) := by
  intros
  unfold State.clearCrossings
  repeat' (first
    | intro _
    | with_reducible assumption
    | with_reducible apply State.dropCrossings_pinned
    | with_reducible apply pinned_foldl
    | with_reducible apply pinned_foldl_snd
    | with_reducible apply pinned_ite
    | simp only [pinned_mk_iff]
    | with_reducible rfl
    | (refine pinned_snd (by with_reducible assumption) ?_)
    | split
    | dsimp only)

theorem State.clearHostContexts_pinned {cn : Pins × Power} {ql : BitVec 48 × Store GroupPhase} {s : State} : State.Pinned cn ql s → State.Pinned cn ql (State.clearHostContexts s) := by
  intros
  unfold State.clearHostContexts
  repeat' (first
    | intro _
    | with_reducible assumption
    | with_reducible apply State.clearContexts_pinned
    | with_reducible apply pinned_foldl
    | with_reducible apply pinned_foldl_snd
    | with_reducible apply pinned_ite
    | simp only [pinned_mk_iff]
    | with_reducible rfl
    | (refine pinned_snd (by with_reducible assumption) ?_)
    | split
    | dsimp only)

theorem State.clearPeerDelay_pinned {cn : Pins × Power} {ql : BitVec 48 × Store GroupPhase} {s : State} {m : Nat} : State.Pinned cn ql s → State.Pinned cn ql (State.clearPeerDelay s m) := by
  intros
  unfold State.clearPeerDelay
  repeat' (first
    | intro _
    | with_reducible assumption
    | with_reducible apply State.setReg_pinned
    | with_reducible apply State.setFlag_pinned
    | with_reducible apply State.setMac_pinned
    | with_reducible apply pinned_foldl
    | with_reducible apply pinned_foldl_snd
    | with_reducible apply pinned_ite
    | simp only [pinned_mk_iff]
    | with_reducible rfl
    | (refine pinned_snd (by with_reducible assumption) ?_)
    | split
    | dsimp only)

theorem State.clearSram_pinned {cn : Pins × Power} {ql : BitVec 48 × Store GroupPhase} {s : State} {l : List Nat} : State.Pinned cn ql s → State.Pinned cn ql (State.clearSram s l) := by
  intros
  unfold State.clearSram
  repeat' (first
    | intro _
    | with_reducible assumption
    | with_reducible apply pinned_foldl
    | with_reducible apply pinned_foldl_snd
    | with_reducible apply pinned_ite
    | simp only [pinned_mk_iff]
    | with_reducible rfl
    | (refine pinned_snd (by with_reducible assumption) ?_)
    | split
    | dsimp only)

theorem State.clearTrackAgents_pinned {cn : Pins × Power} {ql : BitVec 48 × Store GroupPhase} {s : State} {m : Nat} : State.Pinned cn ql s → State.Pinned cn ql (State.clearTrackAgents s m) := by
  intro h
  unfold State.clearTrackAgents
  dsimp only
  split
  · exact State.orProto_pinned (fun t e => State.abandonOp_pinned e (State.setMarker_pinned h)) (State.setMarker_pinned h)
  · exact State.setMarker_pinned h

theorem State.pairDiffer_pinned {cn : Pins × Power} {ql : BitVec 48 × Store GroupPhase} {s : State} {c k : Nat} : State.Pinned cn ql s → State.Pinned cn ql (State.pairDiffer s c k) := by
  intros
  unfold State.pairDiffer
  repeat' (first
    | intro _
    | with_reducible assumption
    | with_reducible apply State.setSolverSlot_pinned
    | with_reducible apply pinned_foldl
    | with_reducible apply pinned_foldl_snd
    | with_reducible apply pinned_ite
    | simp only [pinned_mk_iff]
    | with_reducible rfl
    | (refine pinned_snd (by with_reducible assumption) ?_)
    | split
    | dsimp only)

theorem State.comparePairs_pinned {cn : Pins × Power} {ql : BitVec 48 × Store GroupPhase} {s : State} : State.Pinned cn ql s → State.Pinned cn ql (State.comparePairs s) := by
  intros
  unfold State.comparePairs
  repeat' (first
    | intro _
    | with_reducible assumption
    | with_reducible apply State.pairDiffer_pinned
    | with_reducible apply pinned_foldl
    | with_reducible apply pinned_foldl_snd
    | with_reducible apply pinned_ite
    | simp only [pinned_mk_iff]
    | with_reducible rfl
    | (refine pinned_snd (by with_reducible assumption) ?_)
    | split
    | dsimp only)

theorem State.completeActivation_pinned {cn : Pins × Power} {ql : BitVec 48 × Store GroupPhase} {s : State} {g : Nat} : State.Pinned cn ql s → State.Pinned cn ql (State.completeActivation s g) := by
  intros
  unfold State.completeActivation
  repeat' (first
    | intro _
    | with_reducible assumption
    | with_reducible apply State.raiseMax_pinned
    | with_reducible apply State.beginUpdates_pinned
    | with_reducible apply State.setGraph_pinned
    | with_reducible apply pinned_foldl
    | with_reducible apply pinned_foldl_snd
    | with_reducible apply pinned_ite
    | simp only [pinned_mk_iff]
    | with_reducible rfl
    | (refine pinned_snd (by with_reducible assumption) ?_)
    | split
    | dsimp only)

theorem State.countNode_pinned {cn : Pins × Power} {ql : BitVec 48 × Store GroupPhase} {s : State} {g n code : Nat} : State.Pinned cn ql s → State.Pinned cn ql (State.countNode s g n code) := by
  intros
  unfold State.countNode
  repeat' (first
    | intro _
    | with_reducible assumption
    | with_reducible apply State.addSat_pinned
    | with_reducible apply State.setFlag_pinned
    | with_reducible apply State.setFld_pinned
    | with_reducible apply State.raiseFault_pinned
    | with_reducible apply pinned_foldl
    | with_reducible apply pinned_foldl_snd
    | with_reducible apply pinned_ite
    | simp only [pinned_mk_iff]
    | with_reducible rfl
    | (refine pinned_snd (by with_reducible assumption) ?_)
    | split
    | dsimp only)

theorem State.scheduleStart_pinned {cn : Pins × Power} {ql : BitVec 48 × Store GroupPhase} {s : State} : State.Pinned cn ql s → State.Pinned cn ql (State.scheduleStart s) := by
  intros
  unfold State.scheduleStart
  repeat' (first
    | intro _
    | with_reducible assumption
    | with_reducible apply pinned_foldl
    | with_reducible apply pinned_foldl_snd
    | with_reducible apply pinned_ite
    | simp only [pinned_mk_iff]
    | with_reducible rfl
    | (refine pinned_snd (by with_reducible assumption) ?_)
    | split
    | dsimp only)

theorem State.scheduleRestart_pinned {cn : Pins × Power} {ql : BitVec 48 × Store GroupPhase} {s : State} : State.Pinned cn ql s → State.Pinned cn ql (State.scheduleRestart s) := by
  intros
  unfold State.scheduleRestart
  repeat' (first
    | intro _
    | with_reducible assumption
    | with_reducible apply pinned_foldl
    | with_reducible apply pinned_foldl_snd
    | with_reducible apply pinned_ite
    | simp only [pinned_mk_iff]
    | with_reducible rfl
    | (refine pinned_snd (by with_reducible assumption) ?_)
    | split
    | dsimp only)

theorem State.setServo_pinned {cn : Pins × Power} {ql : BitVec 48 × Store GroupPhase} {s : State} {v : Nat} : State.Pinned cn ql s → State.Pinned cn ql (State.setServo s v) := by
  intros
  unfold State.setServo
  repeat' (first
    | intro _
    | with_reducible assumption
    | with_reducible apply State.setFld_pinned
    | with_reducible apply State.scheduleStart_pinned
    | with_reducible apply State.setFlag_pinned
    | with_reducible apply State.scheduleRestart_pinned
    | with_reducible apply pinned_foldl
    | with_reducible apply pinned_foldl_snd
    | with_reducible apply pinned_ite
    | simp only [pinned_mk_iff]
    | with_reducible rfl
    | (refine pinned_snd (by with_reducible assumption) ?_)
    | split
    | dsimp only)

theorem State.haltLoop_pinned {cn : Pins × Power} {ql : BitVec 48 × Store GroupPhase} {s : State} {why : LoopStop} : State.Pinned cn ql s → State.Pinned cn ql (State.haltLoop s why) := by
  intros
  unfold State.haltLoop
  repeat' (first
    | intro _
    | with_reducible assumption
    | with_reducible apply State.setFlag_pinned
    | with_reducible apply pinned_foldl
    | with_reducible apply pinned_foldl_snd
    | with_reducible apply pinned_ite
    | simp only [pinned_mk_iff]
    | with_reducible rfl
    | (refine pinned_snd (by with_reducible assumption) ?_)
    | split
    | dsimp only)

theorem State.setGated_pinned {cn : Pins × Power} {ql : BitVec 48 × Store GroupPhase} {s : State} {l : List Nat} {b : Bool} : State.Pinned cn ql s → State.Pinned cn ql (State.setGated s l b) := by
  intros
  unfold State.setGated
  repeat' (first
    | intro _
    | with_reducible assumption
    | with_reducible apply pinned_foldl
    | with_reducible apply pinned_foldl_snd
    | with_reducible apply pinned_ite
    | simp only [pinned_mk_iff]
    | with_reducible rfl
    | (refine pinned_snd (by with_reducible assumption) ?_)
    | split
    | dsimp only)

theorem State.cutImages_pinned {cn : Pins × Power} {ql : BitVec 48 × Store GroupPhase} {s : State} : State.Pinned cn ql s → State.Pinned cn ql (State.cutImages s) := by
  intros
  unfold State.cutImages
  repeat' (first
    | intro _
    | with_reducible assumption
    | with_reducible apply State.addSat_pinned
    | with_reducible apply State.setTx_pinned
    | with_reducible apply State.choosePacket_pinned
    | with_reducible apply State.setTxPort_pinned
    | with_reducible apply pinned_foldl
    | with_reducible apply pinned_foldl_snd
    | with_reducible apply pinned_ite
    | simp only [pinned_mk_iff]
    | with_reducible rfl
    | (refine pinned_snd (by with_reducible assumption) ?_)
    | split
    | dsimp only)

theorem State.declare_pinned {cn : Pins × Power} {ql : BitVec 48 × Store GroupPhase} {s : State} {d : Declaration} : State.Pinned cn ql s → State.Pinned cn ql (State.declare s d) := by
  intros
  unfold State.declare
  repeat' (first
    | intro _
    | with_reducible assumption
    | with_reducible apply State.allocate_pinned
    | with_reducible apply State.setObject_pinned
    | with_reducible apply pinned_foldl
    | with_reducible apply pinned_foldl_snd
    | with_reducible apply pinned_ite
    | simp only [pinned_mk_iff]
    | with_reducible rfl
    | (refine pinned_snd (by with_reducible assumption) ?_)
    | split
    | dsimp only)

theorem State.declareObjects_pinned {cn : Pins × Power} {ql : BitVec 48 × Store GroupPhase} {s : State} {l : List (Option Declaration)} : State.Pinned cn ql s → State.Pinned cn ql (State.declareObjects s l) := by
  intros
  unfold State.declareObjects
  repeat' (first
    | intro _
    | with_reducible assumption
    | with_reducible apply State.declare_pinned
    | with_reducible apply State.setFld_pinned
    | with_reducible apply State.setFlag_pinned
    | with_reducible apply pinned_foldl
    | with_reducible apply pinned_foldl_snd
    | with_reducible apply pinned_ite
    | simp only [pinned_mk_iff]
    | with_reducible rfl
    | (refine pinned_snd (by with_reducible assumption) ?_)
    | split
    | dsimp only)

theorem State.freeRecord_pinned {cn : Pins × Power} {ql : BitVec 48 × Store GroupPhase} {s : State} {id : Nat} {old : Option TileRecord} : State.Pinned cn ql s → State.Pinned cn ql (State.freeRecord s id old) := by
  intros
  unfold State.freeRecord
  repeat' (first
    | intro _
    | with_reducible assumption
    | with_reducible apply State.appendJournal_pinned
    | with_reducible apply pinned_foldl
    | with_reducible apply pinned_foldl_snd
    | with_reducible apply pinned_ite
    | simp only [pinned_mk_iff]
    | with_reducible rfl
    | (refine pinned_snd (by with_reducible assumption) ?_)
    | split
    | dsimp only)

theorem State.offerTile_pinned {cn : Pins × Power} {ql : BitVec 48 × Store GroupPhase} {s : State} {tile gen : Nat} {bytes : List Byte} : State.Pinned cn ql s → State.Pinned cn ql (State.offerTile s tile gen bytes) := by
  intros
  unfold State.offerTile
  repeat' (first
    | intro _
    | with_reducible assumption
    | with_reducible apply State.setTileRoom_pinned
    | with_reducible apply pinned_foldl
    | with_reducible apply pinned_foldl_snd
    | with_reducible apply pinned_ite
    | simp only [pinned_mk_iff]
    | with_reducible rfl
    | (refine pinned_snd (by with_reducible assumption) ?_)
    | split
    | dsimp only)

theorem State.writeRecord_pinned {cn : Pins × Power} {ql : BitVec 48 × Store GroupPhase} {s : State} {id : Nat} {o : MemObject} {first : Nat} {bytes : List Byte} : State.Pinned cn ql s → State.Pinned cn ql (Prod.snd (State.writeRecord s id o first bytes)) := by
  intros
  unfold State.writeRecord
  repeat' (first
    | intro _
    | with_reducible assumption
    | with_reducible apply State.freeRecord_pinned
    | with_reducible apply State.appendJournal_pinned
    | with_reducible apply State.setObject_pinned
    | with_reducible apply State.offerTile_pinned
    | with_reducible apply pinned_foldl
    | with_reducible apply pinned_foldl_snd
    | with_reducible apply pinned_ite
    | simp only [pinned_mk_iff]
    | with_reducible rfl
    | (refine pinned_snd (by with_reducible assumption) ?_)
    | split
    | dsimp only)

theorem State.rewriteRecord_pinned {cn : Pins × Power} {ql : BitVec 48 × Store GroupPhase} {s : State} {id off : Nat} {o : MemObject} {data : List Byte} : State.Pinned cn ql s → State.Pinned cn ql (State.rewriteRecord s id off o data) := by
  intros
  unfold State.rewriteRecord
  repeat' (first
    | intro _
    | with_reducible assumption
    | (refine State.programRecord_pinned (by with_reducible assumption) ?_)
    | with_reducible apply State.writeRecord_pinned
    | with_reducible apply State.beginRecord_pinned
    | with_reducible apply pinned_foldl
    | with_reducible apply pinned_foldl_snd
    | with_reducible apply pinned_ite
    | simp only [pinned_mk_iff]
    | with_reducible rfl
    | (refine pinned_snd (by with_reducible assumption) ?_)
    | split
    | dsimp only)

theorem State.serveAccess_pinned {cn : Pins × Power} {ql : BitVec 48 × Store GroupPhase} {s : State} {a : HeldAccess} : State.Pinned cn ql s → State.Pinned cn ql (State.serveAccess s a) := by
  intros
  unfold State.serveAccess
  repeat' (first
    | intro _
    | with_reducible assumption
    | with_reducible apply State.growObject_pinned
    | with_reducible apply State.answerAccess_pinned
    | with_reducible apply State.holdAccess_pinned
    | with_reducible apply State.touch_pinned
    | with_reducible apply State.rewriteRecord_pinned
    | with_reducible apply State.writeObject_pinned
    | with_reducible apply State.readRange_pinned
    | with_reducible apply pinned_foldl
    | with_reducible apply pinned_foldl_snd
    | with_reducible apply pinned_ite
    | simp only [pinned_mk_iff]
    | with_reducible rfl
    | (refine pinned_snd (by with_reducible assumption) ?_)
    | split
    | dsimp only)

theorem State.serveHeld_pinned {cn : Pins × Power} {ql : BitVec 48 × Store GroupPhase} {s : State} {pick : HeldAccess → Bool} : State.Pinned cn ql s → State.Pinned cn ql (State.serveHeld s pick) := by
  intros
  unfold State.serveHeld
  repeat' (first
    | intro _
    | with_reducible assumption
    | with_reducible apply State.serveAccess_pinned
    | with_reducible apply pinned_foldl
    | with_reducible apply pinned_foldl_snd
    | with_reducible apply pinned_ite
    | simp only [pinned_mk_iff]
    | with_reducible rfl
    | (refine pinned_snd (by with_reducible assumption) ?_)
    | split
    | dsimp only)

theorem State.endLease_pinned {cn : Pins × Power} {ql : BitVec 48 × Store GroupPhase} {s : State} {r : MoverRequest} {code : Nat} : State.Pinned cn ql s → State.Pinned cn ql (State.endLease s r code) := by
  intros
  unfold State.endLease
  repeat' (first
    | intro _
    | with_reducible assumption
    | with_reducible apply State.settleManager_pinned
    | with_reducible apply State.finish_pinned
    | with_reducible apply State.setTileRoom_pinned
    | with_reducible apply State.serveWaiting_pinned
    | with_reducible apply State.serveHeld_pinned
    | with_reducible apply pinned_foldl
    | with_reducible apply pinned_foldl_snd
    | with_reducible apply pinned_ite
    | simp only [pinned_mk_iff]
    | with_reducible rfl
    | (refine pinned_snd (by with_reducible assumption) ?_)
    | split
    | dsimp only)

theorem State.endMove_pinned {cn : Pins × Power} {ql : BitVec 48 × Store GroupPhase} {s : State} {code : Nat} : State.Pinned cn ql s → State.Pinned cn ql (State.endMove s code) := by
  intros
  unfold State.endMove
  repeat' (first
    | intro _
    | with_reducible assumption
    | with_reducible apply State.endLease_pinned
    | with_reducible apply pinned_foldl
    | with_reducible apply pinned_foldl_snd
    | with_reducible apply pinned_ite
    | simp only [pinned_mk_iff]
    | with_reducible rfl
    | (refine pinned_snd (by with_reducible assumption) ?_)
    | split
    | dsimp only)

theorem State.dropChannelMove_pinned {cn : Pins × Power} {ql : BitVec 48 × Store GroupPhase} {s : State} {c : Nat} : State.Pinned cn ql s → State.Pinned cn ql (State.dropChannelMove s c) := by
  intros
  unfold State.dropChannelMove
  repeat' (first
    | intro _
    | with_reducible assumption
    | with_reducible apply State.endMove_pinned
    | with_reducible apply pinned_foldl
    | with_reducible apply pinned_foldl_snd
    | with_reducible apply pinned_ite
    | simp only [pinned_mk_iff]
    | with_reducible rfl
    | (refine pinned_snd (by with_reducible assumption) ?_)
    | split
    | dsimp only)

theorem State.dropClassA_pinned {cn : Pins × Power} {ql : BitVec 48 × Store GroupPhase} {s : State} : State.Pinned cn ql s → State.Pinned cn ql (State.dropClassA s) := by
  intros
  unfold State.dropClassA
  repeat' (first
    | intro _
    | with_reducible assumption
    | with_reducible apply pinned_foldl
    | with_reducible apply pinned_foldl_snd
    | with_reducible apply pinned_ite
    | simp only [pinned_mk_iff]
    | with_reducible rfl
    | (refine pinned_snd (by with_reducible assumption) ?_)
    | split
    | dsimp only)

theorem State.tellRequester_pinned {cn : Pins × Power} {ql : BitVec 48 × Store GroupPhase} {s : State} {requester : Nat} {job : List Byte} {n : VerifierNotice} : State.Pinned cn ql s → State.Pinned cn ql (State.tellRequester s requester job n) := by
  intros
  unfold State.tellRequester
  repeat' (first
    | intro _
    | with_reducible assumption
    | with_reducible apply pinned_foldl
    | with_reducible apply pinned_foldl_snd
    | with_reducible apply pinned_ite
    | simp only [pinned_mk_iff]
    | with_reducible rfl
    | (refine pinned_snd (by with_reducible assumption) ?_)
    | split
    | dsimp only)

theorem State.dropJobs_pinned {cn : Pins × Power} {ql : BitVec 48 × Store GroupPhase} {s : State} : State.Pinned cn ql s → State.Pinned cn ql (State.dropJobs s) := by
  intros
  unfold State.dropJobs
  repeat' (first
    | intro _
    | with_reducible assumption
    | with_reducible apply State.tellRequester_pinned
    | with_reducible apply pinned_foldl
    | with_reducible apply pinned_foldl_snd
    | with_reducible apply pinned_ite
    | simp only [pinned_mk_iff]
    | with_reducible rfl
    | (refine pinned_snd (by with_reducible assumption) ?_)
    | split
    | dsimp only)

theorem State.returnTile_pinned {cn : Pins × Power} {ql : BitVec 48 × Store GroupPhase} {s : State} {id : Nat} {o : MemObject} : State.Pinned cn ql s → State.Pinned cn ql (State.returnTile s id o) := by
  intros
  unfold State.returnTile
  repeat' (first
    | intro _
    | with_reducible assumption
    | with_reducible apply State.addSat_pinned
    | with_reducible apply State.setObject_pinned
    | with_reducible apply pinned_foldl
    | with_reducible apply pinned_foldl_snd
    | with_reducible apply pinned_ite
    | simp only [pinned_mk_iff]
    | with_reducible rfl
    | (refine pinned_snd (by with_reducible assumption) ?_)
    | split
    | dsimp only)

theorem State.emptyPool_pinned {cn : Pins × Power} {ql : BitVec 48 × Store GroupPhase} {s : State} : State.Pinned cn ql s → State.Pinned cn ql (State.emptyPool s) := by
  intros
  unfold State.emptyPool
  repeat' (first
    | intro _
    | with_reducible assumption
    | with_reducible apply State.returnTile_pinned
    | with_reducible apply State.endLease_pinned
    | with_reducible apply State.settleManager_pinned
    | with_reducible apply pinned_foldl
    | with_reducible apply pinned_foldl_snd
    | with_reducible apply pinned_ite
    | simp only [pinned_mk_iff]
    | with_reducible rfl
    | (refine pinned_snd (by with_reducible assumption) ?_)
    | split
    | dsimp only)

theorem State.endNode_pinned {cn : Pins × Power} {ql : BitVec 48 × Store GroupPhase} {s : State} {g n code : Nat} : State.Pinned cn ql s → State.Pinned cn ql (State.endNode s g n code) := by
  intros
  unfold State.endNode
  repeat' (first
    | intro _
    | with_reducible assumption
    | with_reducible apply State.completeActivation_pinned
    | with_reducible apply State.countNode_pinned
    | with_reducible apply State.closeNode_pinned
    | with_reducible apply pinned_foldl
    | with_reducible apply pinned_foldl_snd
    | with_reducible apply pinned_ite
    | simp only [pinned_mk_iff]
    | with_reducible rfl
    | (refine pinned_snd (by with_reducible assumption) ?_)
    | split
    | dsimp only)

theorem State.endEngines_pinned {cn : Pins × Power} {ql : BitVec 48 × Store GroupPhase} {s : State} {n : Nat} : State.Pinned cn ql s → State.Pinned cn ql (State.endEngines s n) := by
  intros
  unfold State.endEngines
  repeat' (first
    | intro _
    | with_reducible assumption
    | with_reducible apply State.endNode_pinned
    | with_reducible apply pinned_foldl
    | with_reducible apply pinned_foldl_snd
    | with_reducible apply pinned_ite
    | simp only [pinned_mk_iff]
    | with_reducible rfl
    | (refine pinned_snd (by with_reducible assumption) ?_)
    | split
    | dsimp only)

theorem State.failRequest_pinned {cn : Pins × Power} {ql : BitVec 48 × Store GroupPhase} {s : State} {q : NeuralRun} {code : Nat} : State.Pinned cn ql s → State.Pinned cn ql (State.failRequest s q code) := by
  intros
  unfold State.failRequest
  repeat' (first
    | intro _
    | with_reducible assumption
    | with_reducible apply State.updNode_pinned
    | with_reducible apply State.addSat_pinned
    | with_reducible apply pinned_foldl
    | with_reducible apply pinned_foldl_snd
    | with_reducible apply pinned_ite
    | simp only [pinned_mk_iff]
    | with_reducible rfl
    | (refine pinned_snd (by with_reducible assumption) ?_)
    | split
    | dsimp only)

theorem State.endRequest_pinned {cn : Pins × Power} {ql : BitVec 48 × Store GroupPhase} {s : State} {q : NeuralRun} : State.Pinned cn ql s → State.Pinned cn ql (State.endRequest s q) := by
  intros
  unfold State.endRequest
  repeat' (first
    | intro _
    | with_reducible assumption
    | with_reducible apply State.failRequest_pinned
    | with_reducible apply State.removeRequest_pinned
    | with_reducible apply State.endNode_pinned
    | with_reducible apply pinned_foldl
    | with_reducible apply pinned_foldl_snd
    | with_reducible apply pinned_ite
    | simp only [pinned_mk_iff]
    | with_reducible rfl
    | (refine pinned_snd (by with_reducible assumption) ?_)
    | split
    | dsimp only)

theorem State.stopForReset_pinned {cn : Pins × Power} {ql : BitVec 48 × Store GroupPhase} {s : State} : State.Pinned cn ql s → State.Pinned cn ql (State.stopForReset s) := by
  intros
  unfold State.stopForReset
  repeat' (first
    | intro _
    | with_reducible assumption
    | with_reducible apply State.dropClassA_pinned
    | with_reducible apply State.setMac_pinned
    | with_reducible apply State.haltLoop_pinned
    | with_reducible apply pinned_foldl
    | with_reducible apply pinned_foldl_snd
    | with_reducible apply pinned_ite
    | simp only [pinned_mk_iff]
    | with_reducible rfl
    | (refine pinned_snd (by with_reducible assumption) ?_)
    | split
    | dsimp only)

theorem State.resetVision_pinned {cn : Pins × Power} {ql : BitVec 48 × Store GroupPhase} {s : State} : State.Pinned cn ql s → State.Pinned cn ql (State.resetVision s) := by
  intros
  unfold State.resetVision
  repeat' (first
    | intro _
    | with_reducible assumption
    | with_reducible apply pinned_foldl
    | with_reducible apply pinned_foldl_snd
    | with_reducible apply pinned_ite
    | simp only [pinned_mk_iff]
    | with_reducible rfl
    | (refine pinned_snd (by with_reducible assumption) ?_)
    | split
    | dsimp only)

theorem State.resetGroup1_pinned {cn : Pins × Power} {ql : BitVec 48 × Store GroupPhase} {s : State} : State.Pinned cn ql s → State.Pinned cn ql (State.resetGroup1 s) := by
  intros
  unfold State.resetGroup1
  repeat' (first
    | intro _
    | with_reducible assumption
    | with_reducible apply State.cutImages_pinned
    | with_reducible apply State.resetVision_pinned
    | with_reducible apply pinned_foldl
    | with_reducible apply pinned_foldl_snd
    | with_reducible apply pinned_ite
    | simp only [pinned_mk_iff]
    | with_reducible rfl
    | (refine pinned_snd (by with_reducible assumption) ?_)
    | split
    | dsimp only)

theorem State.resetVerifier_pinned {cn : Pins × Power} {ql : BitVec 48 × Store GroupPhase} {s : State} : State.Pinned cn ql s → State.Pinned cn ql (State.resetVerifier s) := by
  intros
  unfold State.resetVerifier
  repeat' (first
    | intro _
    | with_reducible assumption
    | with_reducible apply State.dropJobs_pinned
    | with_reducible apply State.admitLoop_pinned
    | with_reducible apply pinned_foldl
    | with_reducible apply pinned_foldl_snd
    | with_reducible apply pinned_ite
    | simp only [pinned_mk_iff]
    | with_reducible rfl
    | (refine pinned_snd (by with_reducible assumption) ?_)
    | split
    | dsimp only)

theorem State.resetTracking_pinned {cn : Pins × Power} {ql : BitVec 48 × Store GroupPhase} {s : State} : State.Pinned cn ql s → State.Pinned cn ql (State.resetTracking s) := by
  intros
  unfold State.resetTracking
  repeat' (first
    | intro _
    | with_reducible assumption
    | with_reducible apply State.clearTrackAgents_pinned
    | with_reducible apply pinned_foldl
    | with_reducible apply pinned_foldl_snd
    | with_reducible apply pinned_ite
    | simp only [pinned_mk_iff]
    | with_reducible rfl
    | (refine pinned_snd (by with_reducible assumption) ?_)
    | split
    | dsimp only)

theorem State.resetSlots_pinned {cn : Pins × Power} {ql : BitVec 48 × Store GroupPhase} {s : State} {c : Nat} : State.Pinned cn ql s → State.Pinned cn ql (State.resetSlots s c) := by
  intros
  unfold State.resetSlots
  repeat' (first
    | intro _
    | with_reducible assumption
    | with_reducible apply pinned_foldl
    | with_reducible apply pinned_foldl_snd
    | with_reducible apply pinned_ite
    | simp only [pinned_mk_iff]
    | with_reducible rfl
    | (refine pinned_snd (by with_reducible assumption) ?_)
    | split
    | dsimp only)

theorem State.resetSolv0_pinned {cn : Pins × Power} {ql : BitVec 48 × Store GroupPhase} {s : State} : State.Pinned cn ql s → State.Pinned cn ql (State.resetSolv0 s) := by
  intros
  unfold State.resetSolv0
  repeat' (first
    | intro _
    | with_reducible assumption
    | with_reducible apply State.resetSlots_pinned
    | with_reducible apply pinned_foldl
    | with_reducible apply pinned_foldl_snd
    | with_reducible apply pinned_ite
    | simp only [pinned_mk_iff]
    | with_reducible rfl
    | (refine pinned_snd (by with_reducible assumption) ?_)
    | split
    | dsimp only)

theorem State.resetPlace_pinned {cn : Pins × Power} {ql : BitVec 48 × Store GroupPhase} {s : State} : State.Pinned cn ql s → State.Pinned cn ql (State.resetPlace s) := by
  intros
  unfold State.resetPlace
  repeat' (first
    | intro _
    | with_reducible assumption
    | with_reducible apply State.endQueries_pinned
    | with_reducible apply pinned_foldl
    | with_reducible apply pinned_foldl_snd
    | with_reducible apply pinned_ite
    | simp only [pinned_mk_iff]
    | with_reducible rfl
    | (refine pinned_snd (by with_reducible assumption) ?_)
    | split
    | dsimp only)

theorem State.resetSolv1_pinned {cn : Pins × Power} {ql : BitVec 48 × Store GroupPhase} {s : State} : State.Pinned cn ql s → State.Pinned cn ql (State.resetSolv1 s) := by
  intros
  unfold State.resetSolv1
  repeat' (first
    | intro _
    | with_reducible assumption
    | with_reducible apply State.resetSlots_pinned
    | with_reducible apply State.resetPlace_pinned
    | with_reducible apply pinned_foldl
    | with_reducible apply pinned_foldl_snd
    | with_reducible apply pinned_ite
    | simp only [pinned_mk_iff]
    | with_reducible rfl
    | (refine pinned_snd (by with_reducible assumption) ?_)
    | split
    | dsimp only)

theorem State.flushLaunch_pinned {cn : Pins × Power} {ql : BitVec 48 × Store GroupPhase} {s : State} {m : Nat} : State.Pinned cn ql s → State.Pinned cn ql (State.flushLaunch s m) := by
  intros
  unfold State.flushLaunch
  repeat' (first
    | intro _
    | with_reducible assumption
    | with_reducible apply State.addSat_pinned
    | with_reducible apply State.setMac_pinned
    | with_reducible apply pinned_foldl
    | with_reducible apply pinned_foldl_snd
    | with_reducible apply pinned_ite
    | simp only [pinned_mk_iff]
    | with_reducible rfl
    | (refine pinned_snd (by with_reducible assumption) ?_)
    | split
    | dsimp only)

theorem State.selectMaster_pinned {cn : Pins × Power} {ql : BitVec 48 × Store GroupPhase} {s : State} : State.Pinned cn ql s → State.Pinned cn ql (State.selectMaster s) := by
  intros
  unfold State.selectMaster
  repeat' (first
    | intro _
    | with_reducible assumption
    | with_reducible apply State.setFlag_pinned
    | with_reducible apply State.setPair_pinned
    | with_reducible apply State.setFld_pinned
    | with_reducible apply State.addSat_pinned
    | with_reducible apply State.raiseIbi_pinned
    | with_reducible apply pinned_foldl
    | with_reducible apply pinned_foldl_snd
    | with_reducible apply pinned_ite
    | simp only [pinned_mk_iff]
    | with_reducible rfl
    | (refine pinned_snd (by with_reducible assumption) ?_)
    | split
    | dsimp only)

theorem State.forgetAnnounce_pinned {cn : Pins × Power} {ql : BitVec 48 × Store GroupPhase} {s : State} {m : Nat} : State.Pinned cn ql s → State.Pinned cn ql (State.forgetAnnounce s m) := by
  intros
  unfold State.forgetAnnounce
  repeat' (first
    | intro _
    | with_reducible assumption
    | with_reducible apply State.selectMaster_pinned
    | with_reducible apply pinned_foldl
    | with_reducible apply pinned_foldl_snd
    | with_reducible apply pinned_ite
    | simp only [pinned_mk_iff]
    | with_reducible rfl
    | (refine pinned_snd (by with_reducible assumption) ?_)
    | split
    | dsimp only)

theorem State.loseLink_pinned {cn : Pins × Power} {ql : BitVec 48 × Store GroupPhase} {s : State} {m : Nat} : State.Pinned cn ql s → State.Pinned cn ql (State.loseLink s m) := by
  intros
  unfold State.loseLink
  repeat' (first
    | intro _
    | with_reducible assumption
    | with_reducible apply State.setFld_pinned
    | with_reducible apply State.setFlag_pinned
    | with_reducible apply State.forgetAnnounce_pinned
    | with_reducible apply State.clearPeerDelay_pinned
    | with_reducible apply pinned_foldl
    | with_reducible apply pinned_foldl_snd
    | with_reducible apply pinned_ite
    | simp only [pinned_mk_iff]
    | with_reducible rfl
    | (refine pinned_snd (by with_reducible assumption) ?_)
    | split
    | dsimp only)

theorem State.resetEthPort_pinned {cn : Pins × Power} {ql : BitVec 48 × Store GroupPhase} {s : State} {m : Nat} : State.Pinned cn ql s → State.Pinned cn ql (State.resetEthPort s m) := by
  intros
  unfold State.resetEthPort
  repeat' (first
    | intro _
    | with_reducible assumption
    | with_reducible apply State.addSat_pinned
    | with_reducible apply State.flushLaunch_pinned
    | with_reducible apply State.setMac_pinned
    | with_reducible apply State.setFlag_pinned
    | with_reducible apply State.loseLink_pinned
    | with_reducible apply pinned_foldl
    | with_reducible apply pinned_foldl_snd
    | with_reducible apply pinned_ite
    | simp only [pinned_mk_iff]
    | with_reducible rfl
    | (refine pinned_snd (by with_reducible assumption) ?_)
    | split
    | dsimp only)

theorem State.resetEth_pinned {cn : Pins × Power} {ql : BitVec 48 × Store GroupPhase} {s : State} : State.Pinned cn ql s → State.Pinned cn ql (State.resetEth s) := by
  intros
  unfold State.resetEth
  repeat' (first
    | intro _
    | with_reducible assumption
    | with_reducible apply State.resetEthPort_pinned
    | with_reducible apply pinned_foldl
    | with_reducible apply pinned_foldl_snd
    | with_reducible apply pinned_ite
    | simp only [pinned_mk_iff]
    | with_reducible rfl
    | (refine pinned_snd (by with_reducible assumption) ?_)
    | split
    | dsimp only)

theorem State.resetImu_pinned {cn : Pins × Power} {ql : BitVec 48 × Store GroupPhase} {s : State} : State.Pinned cn ql s → State.Pinned cn ql (State.resetImu s) := by
  intros
  unfold State.resetImu
  repeat' (first
    | intro _
    | with_reducible assumption
    | with_reducible apply pinned_foldl
    | with_reducible apply pinned_foldl_snd
    | with_reducible apply pinned_ite
    | simp only [pinned_mk_iff]
    | with_reducible rfl
    | (refine pinned_snd (by with_reducible assumption) ?_)
    | split
    | dsimp only)

theorem State.resetCommands_pinned {cn : Pins × Power} {ql : BitVec 48 × Store GroupPhase} {s : State} : State.Pinned cn ql s → State.Pinned cn ql (State.resetCommands s) := by
  intros
  unfold State.resetCommands
  repeat' (first
    | intro _
    | with_reducible assumption
    | with_reducible apply pinned_foldl
    | with_reducible apply pinned_foldl_snd
    | with_reducible apply pinned_ite
    | simp only [pinned_mk_iff]
    | with_reducible rfl
    | (refine pinned_snd (by with_reducible assumption) ?_)
    | split
    | dsimp only)

theorem State.resetTransmit_pinned {cn : Pins × Power} {ql : BitVec 48 × Store GroupPhase} {s : State} : State.Pinned cn ql s → State.Pinned cn ql (State.resetTransmit s) := by
  intros
  unfold State.resetTransmit
  repeat' (first
    | intro _
    | with_reducible assumption
    | with_reducible apply State.endPayload_pinned
    | with_reducible apply State.setTx_pinned
    | with_reducible apply pinned_foldl
    | with_reducible apply pinned_foldl_snd
    | with_reducible apply pinned_ite
    | simp only [pinned_mk_iff]
    | with_reducible rfl
    | (refine pinned_snd (by with_reducible assumption) ?_)
    | split
    | dsimp only)

theorem State.resetHost_pinned {cn : Pins × Power} {ql : BitVec 48 × Store GroupPhase} {s : State} : State.Pinned cn ql s → State.Pinned cn ql (State.resetHost s) := by
  intros
  unfold State.resetHost
  repeat' (first
    | intro _
    | with_reducible assumption
    | with_reducible apply State.abandonFeeder_pinned
    | with_reducible apply State.clearHostContexts_pinned
    | with_reducible apply State.resetCommands_pinned
    | with_reducible apply State.resetTransmit_pinned
    | with_reducible apply pinned_foldl
    | with_reducible apply pinned_foldl_snd
    | with_reducible apply pinned_ite
    | simp only [pinned_mk_iff]
    | with_reducible rfl
    | (refine pinned_snd (by with_reducible assumption) ?_)
    | split
    | dsimp only)

theorem State.resetCore_pinned {cn : Pins × Power} {ql : BitVec 48 × Store GroupPhase} {s : State} {c : Nat} : State.Pinned cn ql s → State.Pinned cn ql (State.resetCore s c) := by
  intros
  unfold State.resetCore
  repeat' (first
    | intro _
    | with_reducible assumption
    | with_reducible apply State.endRequest_pinned
    | with_reducible apply State.dispatch_pinned
    | with_reducible apply pinned_foldl
    | with_reducible apply pinned_foldl_snd
    | with_reducible apply pinned_ite
    | simp only [pinned_mk_iff]
    | with_reducible rfl
    | (refine pinned_snd (by with_reducible assumption) ?_)
    | split
    | dsimp only)

theorem State.resetNand_pinned {cn : Pins × Power} {ql : BitVec 48 × Store GroupPhase} {s : State} {c : Nat} : State.Pinned cn ql s → State.Pinned cn ql (State.resetNand s c) := by
  intros
  unfold State.resetNand
  repeat' (first
    | intro _
    | with_reducible assumption
    | with_reducible apply State.endQueries_pinned
    | with_reducible apply State.stopImport_pinned
    | with_reducible apply State.setFlag_pinned
    | with_reducible apply pinned_foldl
    | with_reducible apply pinned_foldl_snd
    | with_reducible apply pinned_ite
    | simp only [pinned_mk_iff]
    | with_reducible rfl
    | (refine pinned_snd (by with_reducible assumption) ?_)
    | split
    | dsimp only)

theorem State.resetUnits_pinned {cn : Pins × Power} {ql : BitVec 48 × Store GroupPhase} {s : State} {g : Nat} : State.Pinned cn ql s → State.Pinned cn ql (State.resetUnits s g) := by
  intros
  unfold State.resetUnits
  repeat' (first
    | intro _
    | with_reducible assumption
    | with_reducible apply State.resetGroup1_pinned
    | with_reducible apply State.endEngines_pinned
    | with_reducible apply State.resetVerifier_pinned
    | with_reducible apply State.emptyPool_pinned
    | with_reducible apply State.resetTracking_pinned
    | with_reducible apply State.resetSolv0_pinned
    | with_reducible apply State.resetSolv1_pinned
    | with_reducible apply State.resetEth_pinned
    | with_reducible apply State.resetImu_pinned
    | with_reducible apply State.resetHost_pinned
    | with_reducible apply State.resetCore_pinned
    | with_reducible apply State.dropChannelMove_pinned
    | with_reducible apply State.resetNand_pinned
    | with_reducible apply pinned_foldl
    | with_reducible apply pinned_foldl_snd
    | with_reducible apply pinned_ite
    | simp only [pinned_mk_iff]
    | with_reducible rfl
    | (refine pinned_snd (by with_reducible assumption) ?_)
    | split
    | dsimp only)

theorem State.releasePins_pinned {cn : Pins × Power} {ql : BitVec 48 × Store GroupPhase} {s : State} {holder : Nat} : State.Pinned cn ql s → State.Pinned cn ql (State.releasePins s holder) := by
  intros
  unfold State.releasePins
  repeat' (first
    | intro _
    | with_reducible assumption
    | with_reducible apply pinned_foldl
    | with_reducible apply pinned_foldl_snd
    | with_reducible apply pinned_ite
    | simp only [pinned_mk_iff]
    | with_reducible rfl
    | (refine pinned_snd (by with_reducible assumption) ?_)
    | split
    | dsimp only)

theorem State.settleInit_pinned {cn : Pins × Power} {ql : BitVec 48 × Store GroupPhase} {s : State} : State.Pinned cn ql s → State.Pinned cn ql (State.settleInit s) := by
  intros
  unfold State.settleInit
  repeat' (first
    | intro _
    | with_reducible assumption
    | with_reducible apply State.setFlag_pinned
    | with_reducible apply pinned_foldl
    | with_reducible apply pinned_foldl_snd
    | with_reducible apply pinned_ite
    | simp only [pinned_mk_iff]
    | with_reducible rfl
    | (refine pinned_snd (by with_reducible assumption) ?_)
    | split
    | dsimp only)

theorem State.startInit_pinned {cn : Pins × Power} {ql : BitVec 48 × Store GroupPhase} {s : State} : State.Pinned cn ql s → State.Pinned cn ql (State.startInit s) := by
  intros
  unfold State.startInit
  repeat' (first
    | intro _
    | with_reducible assumption
    | with_reducible apply State.setFlag_pinned
    | with_reducible apply State.settleInit_pinned
    | with_reducible apply pinned_foldl
    | with_reducible apply pinned_foldl_snd
    | with_reducible apply pinned_ite
    | simp only [pinned_mk_iff]
    | with_reducible rfl
    | (refine pinned_snd (by with_reducible assumption) ?_)
    | split
    | dsimp only)

theorem State.restoreData_pinned {cn : Pins × Power} {ql : BitVec 48 × Store GroupPhase} {s : State} {l : List Nat} : State.Pinned cn ql s → State.Pinned cn ql (State.restoreData s l) := by
  intros
  unfold State.restoreData
  repeat' (first
    | intro _
    | with_reducible assumption
    | with_reducible apply pinned_foldl
    | with_reducible apply pinned_foldl_snd
    | with_reducible apply pinned_ite
    | simp only [pinned_mk_iff]
    | with_reducible rfl
    | (refine pinned_snd (by with_reducible assumption) ?_)
    | split
    | dsimp only)

theorem State.judgeSlot_pinned {cn : Pins × Power} {ql : BitVec 48 × Store GroupPhase} {s : State} {c k : Nat} : State.Pinned cn ql s → State.Pinned cn ql (State.judgeSlot s c k) := by
  intros
  unfold State.judgeSlot
  repeat' (first
    | intro _
    | with_reducible assumption
    | with_reducible apply State.analyseSlot_pinned
    | with_reducible apply pinned_foldl
    | with_reducible apply pinned_foldl_snd
    | with_reducible apply pinned_ite
    | simp only [pinned_mk_iff]
    | with_reducible rfl
    | (refine pinned_snd (by with_reducible assumption) ?_)
    | split
    | dsimp only)

theorem State.judgeBelow_pinned {cn : Pins × Power} {ql : BitVec 48 × Store GroupPhase} {s : State} {c n : Nat} : State.Pinned cn ql s → State.Pinned cn ql (State.judgeBelow s c n) := by
  intros
  unfold State.judgeBelow
  repeat' (first
    | intro _
    | with_reducible assumption
    | with_reducible apply State.judgeSlot_pinned
    | with_reducible apply pinned_foldl
    | with_reducible apply pinned_foldl_snd
    | with_reducible apply pinned_ite
    | simp only [pinned_mk_iff]
    | with_reducible rfl
    | (refine pinned_snd (by with_reducible assumption) ?_)
    | split
    | dsimp only)

theorem State.judgeSlots_pinned {cn : Pins × Power} {ql : BitVec 48 × Store GroupPhase} {s : State} {c : Nat} : State.Pinned cn ql s → State.Pinned cn ql (State.judgeSlots s c) := by
  intros
  unfold State.judgeSlots
  repeat' (first
    | intro _
    | with_reducible assumption
    | with_reducible apply State.judgeBelow_pinned
    | with_reducible apply pinned_foldl
    | with_reducible apply pinned_foldl_snd
    | with_reducible apply pinned_ite
    | simp only [pinned_mk_iff]
    | with_reducible rfl
    | (refine pinned_snd (by with_reducible assumption) ?_)
    | split
    | dsimp only)

theorem State.keepImage_pinned {cn : Pins × Power} {ql : BitVec 48 × Store GroupPhase} {s : State} : State.Pinned cn ql s → State.Pinned cn ql (State.keepImage s) := by
  intros
  unfold State.keepImage
  repeat' (first
    | intro _
    | with_reducible assumption
    | with_reducible apply State.setCast_pinned
    | with_reducible apply pinned_foldl
    | with_reducible apply pinned_foldl_snd
    | with_reducible apply pinned_ite
    | simp only [pinned_mk_iff]
    | with_reducible rfl
    | (refine pinned_snd (by with_reducible assumption) ?_)
    | split
    | dsimp only)

theorem State.lockChecks_pinned {cn : Pins × Power} {ql : BitVec 48 × Store GroupPhase} {s : State} : State.Pinned cn ql s → State.Pinned cn ql (State.lockChecks s) := by
  intros
  unfold State.lockChecks
  repeat' (first
    | intro _
    | with_reducible assumption
    | with_reducible apply State.checkCommands_pinned
    | with_reducible apply State.checkTransmit_pinned
    | with_reducible apply State.checkIndexes_pinned
    | with_reducible apply State.checkTracking_pinned
    | with_reducible apply State.checkVision_pinned
    | with_reducible apply pinned_foldl
    | with_reducible apply pinned_foldl_snd
    | with_reducible apply pinned_ite
    | simp only [pinned_mk_iff]
    | with_reducible rfl
    | (refine pinned_snd (by with_reducible assumption) ?_)
    | split
    | dsimp only)

theorem State.lockMemory_pinned {cn : Pins × Power} {ql : BitVec 48 × Store GroupPhase} {s : State} : State.Pinned cn ql s → State.Pinned cn ql (State.lockMemory s) := by
  intros
  unfold State.lockMemory
  repeat' (first
    | intro _
    | with_reducible assumption
    | with_reducible apply State.setFld_pinned
    | with_reducible apply pinned_foldl
    | with_reducible apply pinned_foldl_snd
    | with_reducible apply pinned_ite
    | simp only [pinned_mk_iff]
    | with_reducible rfl
    | (refine pinned_snd (by with_reducible assumption) ?_)
    | split
    | dsimp only)

theorem State.lockClassA_pinned {cn : Pins × Power} {ql : BitVec 48 × Store GroupPhase} {s : State} : State.Pinned cn ql s → State.Pinned cn ql (State.lockClassA s) := by
  intros
  unfold State.lockClassA
  repeat' (first
    | intro _
    | with_reducible assumption
    | with_reducible apply State.loadClassA_pinned
    | with_reducible apply State.comparePairs_pinned
    | with_reducible apply State.judgeSlots_pinned
    | with_reducible apply pinned_foldl
    | with_reducible apply pinned_foldl_snd
    | with_reducible apply pinned_ite
    | simp only [pinned_mk_iff]
    | with_reducible rfl
    | (refine pinned_snd (by with_reducible assumption) ?_)
    | split
    | dsimp only)

theorem State.startChannels_pinned {cn : Pins × Power} {ql : BitVec 48 × Store GroupPhase} {s : State} {l : List Nat} : State.Pinned cn ql s → State.Pinned cn ql (State.startChannels s l) := by
  intros
  unfold State.startChannels
  repeat' (first
    | intro _
    | with_reducible assumption
    | with_reducible apply State.setFlag_pinned
    | with_reducible apply pinned_foldl
    | with_reducible apply pinned_foldl_snd
    | with_reducible apply pinned_ite
    | simp only [pinned_mk_iff]
    | with_reducible rfl
    | (refine pinned_snd (by with_reducible assumption) ?_)
    | split
    | dsimp only)

theorem State.lockTout_pinned {cn : Pins × Power} {ql : BitVec 48 × Store GroupPhase} {s : State} {n : Nat} : State.Pinned cn ql s → State.Pinned cn ql (State.lockTout s n) := by
  intros
  unfold State.lockTout
  repeat' (first
    | intro _
    | with_reducible assumption
    | with_reducible apply State.setFlag_pinned
    | with_reducible apply State.setReg_pinned
    | with_reducible apply State.startTout_pinned
    | with_reducible apply pinned_foldl
    | with_reducible apply pinned_foldl_snd
    | with_reducible apply pinned_ite
    | simp only [pinned_mk_iff]
    | with_reducible rfl
    | (refine pinned_snd (by with_reducible assumption) ?_)
    | split
    | dsimp only)

theorem State.lockServo_pinned {cn : Pins × Power} {ql : BitVec 48 × Store GroupPhase} {s : State} : State.Pinned cn ql s → State.Pinned cn ql (State.lockServo s) := by
  intros
  unfold State.lockServo
  repeat' (first
    | intro _
    | with_reducible assumption
    | with_reducible apply State.setServo_pinned
    | with_reducible apply State.setFlag_pinned
    | with_reducible apply pinned_foldl
    | with_reducible apply pinned_foldl_snd
    | with_reducible apply pinned_ite
    | simp only [pinned_mk_iff]
    | with_reducible rfl
    | (refine pinned_snd (by with_reducible assumption) ?_)
    | split
    | dsimp only)

theorem State.showPending_pinned {cn : Pins × Power} {ql : BitVec 48 × Store GroupPhase} {s : State} : State.Pinned cn ql s → State.Pinned cn ql (State.showPending s) := by
  intros
  unfold State.showPending
  repeat' (first
    | intro _
    | with_reducible assumption
    | with_reducible apply State.setFlag_pinned
    | with_reducible apply pinned_foldl
    | with_reducible apply pinned_foldl_snd
    | with_reducible apply pinned_ite
    | simp only [pinned_mk_iff]
    | with_reducible rfl
    | (refine pinned_snd (by with_reducible assumption) ?_)
    | split
    | dsimp only)

theorem State.recordReset_pinned {cn : Pins × Power} {ql : BitVec 48 × Store GroupPhase} {s : State} {n cause : Nat} : State.Pinned cn ql s → State.Pinned cn ql (State.recordReset s n cause) := by
  intros
  unfold State.recordReset
  repeat' (first
    | intro _
    | with_reducible assumption
    | with_reducible apply State.setFld_pinned
    | with_reducible apply State.addSat_pinned
    | with_reducible apply pinned_foldl
    | with_reducible apply pinned_foldl_snd
    | with_reducible apply pinned_ite
    | simp only [pinned_mk_iff]
    | with_reducible rfl
    | (refine pinned_snd (by with_reducible assumption) ?_)
    | split
    | dsimp only)

theorem State.resumeStreams_pinned {cn : Pins × Power} {ql : BitVec 48 × Store GroupPhase} {s : State} : State.Pinned cn ql s → State.Pinned cn ql (State.resumeStreams s) := by
  intros
  unfold State.resumeStreams
  repeat' (first
    | intro _
    | with_reducible assumption
    | with_reducible apply State.badFrame_pinned
    | with_reducible apply State.setStream_pinned
    | with_reducible apply pinned_foldl
    | with_reducible apply pinned_foldl_snd
    | with_reducible apply pinned_ite
    | simp only [pinned_mk_iff]
    | with_reducible rfl
    | (refine pinned_snd (by with_reducible assumption) ?_)
    | split
    | dsimp only)

theorem State.takeRequest_pinned {cn : Pins × Power} {ql : BitVec 48 × Store GroupPhase} {s : State} {n cause : Nat} : State.Pinned cn ql s → State.Pinned cn ql (State.takeRequest s n cause) := by
  intros
  unfold State.takeRequest
  repeat' (first
    | intro _
    | with_reducible assumption
    | with_reducible apply pinned_foldl
    | with_reducible apply pinned_foldl_snd
    | with_reducible apply pinned_ite
    | simp only [pinned_mk_iff]
    | with_reducible rfl
    | (refine pinned_snd (by with_reducible assumption) ?_)
    | split
    | dsimp only)

end Sys2Proof.Machine
end

