-- ==== Sys2Proof/Laws/State.lean ====
section
/-!
SUPPORT. What each update of the state does to each field of the state: it is given what the update says, and every other stays.
-/
set_option Elab.async false
namespace Sys2Proof.Machine
set_option linter.unusedVariables false

@[simp] theorem State.setStream_regs (s : State) (n : Nat) (v : Stream) : (s.setStream n v).regs = s.regs := rfl
@[simp] theorem State.setStream_shadow (s : State) (n : Nat) (v : Stream) : (s.setStream n v).shadow = s.shadow := rfl
@[simp] theorem State.setStream_fresh (s : State) (n : Nat) (v : Stream) : (s.setStream n v).fresh = s.fresh := rfl
@[simp] theorem State.setStream_out (s : State) (n : Nat) (v : Stream) : (s.setStream n v).out = s.out := rfl
@[simp] theorem State.setStream_ports (s : State) (n : Nat) (v : Stream) : (s.setStream n v).ports = s.ports := rfl
@[simp] theorem State.setStream_sw (s : State) (n : Nat) (v : Stream) : (s.setStream n v).sw = s.sw := rfl
@[simp] theorem State.setStream_cast (s : State) (n : Nat) (v : Stream) : (s.setStream n v).cast = s.cast := rfl
@[simp] theorem State.setStream_loop (s : State) (n : Nat) (v : Stream) : (s.setStream n v).loop = s.loop := rfl
@[simp] theorem State.setStream_time (s : State) (n : Nat) (v : Stream) : (s.setStream n v).time = s.time := rfl
@[simp] theorem State.setStream_eth (s : State) (n : Nat) (v : Stream) : (s.setStream n v).eth = s.eth := rfl
@[simp] theorem State.setStream_timers (s : State) (n : Nat) (v : Stream) : (s.setStream n v).timers = s.timers := rfl
@[simp] theorem State.setStream_sram (s : State) (n : Nat) (v : Stream) : (s.setStream n v).sram = s.sram := rfl
@[simp] theorem State.setStream_sramLen (s : State) (n : Nat) (v : Stream) : (s.setStream n v).sramLen = s.sramLen := rfl
@[simp] theorem State.setStream_sramBad (s : State) (n : Nat) (v : Stream) : (s.setStream n v).sramBad = s.sramBad := rfl
@[simp] theorem State.setStream_vis (s : State) (n : Nat) (v : Stream) : (s.setStream n v).vis = { s.vis with streams := Store.set Stream.reset s.vis.streams n v } := rfl
@[simp] theorem State.setStream_mem (s : State) (n : Nat) (v : Stream) : (s.setStream n v).mem = s.mem := rfl
@[simp] theorem State.setStream_neural (s : State) (n : Nat) (v : Stream) : (s.setStream n v).neural = s.neural := rfl
@[simp] theorem State.setStream_track (s : State) (n : Nat) (v : Stream) : (s.setStream n v).track = s.track := rfl
@[simp] theorem State.setStream_solv (s : State) (n : Nat) (v : Stream) : (s.setStream n v).solv = s.solv := rfl
@[simp] theorem State.setStream_clsA (s : State) (n : Nat) (v : Stream) : (s.setStream n v).clsA = s.clsA := rfl
@[simp] theorem State.setStream_window (s : State) (n : Nat) (v : Stream) : (s.setStream n v).window = s.window := rfl
@[simp] theorem State.setStream_map (s : State) (n : Nat) (v : Stream) : (s.setStream n v).map = s.map := rfl
@[simp] theorem State.setStream_srch (s : State) (n : Nat) (v : Stream) : (s.setStream n v).srch = s.srch := rfl
@[simp] theorem State.setStream_links (s : State) (n : Nat) (v : Stream) : (s.setStream n v).links = s.links := rfl
@[simp] theorem State.setStream_power (s : State) (n : Nat) (v : Stream) : (s.setStream n v).power = s.power := rfl
@[simp] theorem State.setStream_resets (s : State) (n : Nat) (v : Stream) : (s.setStream n v).resets = s.resets := rfl
@[simp] theorem State.setStream_pins (s : State) (n : Nat) (v : Stream) : (s.setStream n v).pins = s.pins := rfl
@[simp] theorem State.setStream_integ (s : State) (n : Nat) (v : Stream) : (s.setStream n v).integ = s.integ := rfl
@[simp] theorem State.setStream_pending (s : State) (n : Nat) (v : Stream) : (s.setStream n v).pending = s.pending := rfl

@[simp] theorem State.setGroup_regs (s : State) (g : Nat) (v : PairGroup) : (s.setGroup g v).regs = s.regs := rfl
@[simp] theorem State.setGroup_shadow (s : State) (g : Nat) (v : PairGroup) : (s.setGroup g v).shadow = s.shadow := rfl
@[simp] theorem State.setGroup_fresh (s : State) (g : Nat) (v : PairGroup) : (s.setGroup g v).fresh = s.fresh := rfl
@[simp] theorem State.setGroup_out (s : State) (g : Nat) (v : PairGroup) : (s.setGroup g v).out = s.out := rfl
@[simp] theorem State.setGroup_ports (s : State) (g : Nat) (v : PairGroup) : (s.setGroup g v).ports = s.ports := rfl
@[simp] theorem State.setGroup_sw (s : State) (g : Nat) (v : PairGroup) : (s.setGroup g v).sw = s.sw := rfl
@[simp] theorem State.setGroup_cast (s : State) (g : Nat) (v : PairGroup) : (s.setGroup g v).cast = s.cast := rfl
@[simp] theorem State.setGroup_loop (s : State) (g : Nat) (v : PairGroup) : (s.setGroup g v).loop = s.loop := rfl
@[simp] theorem State.setGroup_time (s : State) (g : Nat) (v : PairGroup) : (s.setGroup g v).time = s.time := rfl
@[simp] theorem State.setGroup_eth (s : State) (g : Nat) (v : PairGroup) : (s.setGroup g v).eth = s.eth := rfl
@[simp] theorem State.setGroup_timers (s : State) (g : Nat) (v : PairGroup) : (s.setGroup g v).timers = s.timers := rfl
@[simp] theorem State.setGroup_sram (s : State) (g : Nat) (v : PairGroup) : (s.setGroup g v).sram = s.sram := rfl
@[simp] theorem State.setGroup_sramLen (s : State) (g : Nat) (v : PairGroup) : (s.setGroup g v).sramLen = s.sramLen := rfl
@[simp] theorem State.setGroup_sramBad (s : State) (g : Nat) (v : PairGroup) : (s.setGroup g v).sramBad = s.sramBad := rfl
@[simp] theorem State.setGroup_vis (s : State) (g : Nat) (v : PairGroup) : (s.setGroup g v).vis = { s.vis with groups := Store.set PairGroup.reset s.vis.groups g v } := rfl
@[simp] theorem State.setGroup_mem (s : State) (g : Nat) (v : PairGroup) : (s.setGroup g v).mem = s.mem := rfl
@[simp] theorem State.setGroup_neural (s : State) (g : Nat) (v : PairGroup) : (s.setGroup g v).neural = s.neural := rfl
@[simp] theorem State.setGroup_track (s : State) (g : Nat) (v : PairGroup) : (s.setGroup g v).track = s.track := rfl
@[simp] theorem State.setGroup_solv (s : State) (g : Nat) (v : PairGroup) : (s.setGroup g v).solv = s.solv := rfl
@[simp] theorem State.setGroup_clsA (s : State) (g : Nat) (v : PairGroup) : (s.setGroup g v).clsA = s.clsA := rfl
@[simp] theorem State.setGroup_window (s : State) (g : Nat) (v : PairGroup) : (s.setGroup g v).window = s.window := rfl
@[simp] theorem State.setGroup_map (s : State) (g : Nat) (v : PairGroup) : (s.setGroup g v).map = s.map := rfl
@[simp] theorem State.setGroup_srch (s : State) (g : Nat) (v : PairGroup) : (s.setGroup g v).srch = s.srch := rfl
@[simp] theorem State.setGroup_links (s : State) (g : Nat) (v : PairGroup) : (s.setGroup g v).links = s.links := rfl
@[simp] theorem State.setGroup_power (s : State) (g : Nat) (v : PairGroup) : (s.setGroup g v).power = s.power := rfl
@[simp] theorem State.setGroup_resets (s : State) (g : Nat) (v : PairGroup) : (s.setGroup g v).resets = s.resets := rfl
@[simp] theorem State.setGroup_pins (s : State) (g : Nat) (v : PairGroup) : (s.setGroup g v).pins = s.pins := rfl
@[simp] theorem State.setGroup_integ (s : State) (g : Nat) (v : PairGroup) : (s.setGroup g v).integ = s.integ := rfl
@[simp] theorem State.setGroup_pending (s : State) (g : Nat) (v : PairGroup) : (s.setGroup g v).pending = s.pending := rfl

@[simp] theorem State.setCast_regs (s : State) (c : CastOn) : (s.setCast c).regs = s.regs := rfl
@[simp] theorem State.setCast_shadow (s : State) (c : CastOn) : (s.setCast c).shadow = s.shadow := rfl
@[simp] theorem State.setCast_fresh (s : State) (c : CastOn) : (s.setCast c).fresh = s.fresh := rfl
@[simp] theorem State.setCast_out (s : State) (c : CastOn) : (s.setCast c).out = s.out := rfl
@[simp] theorem State.setCast_ports (s : State) (c : CastOn) : (s.setCast c).ports = s.ports := rfl
@[simp] theorem State.setCast_sw (s : State) (c : CastOn) : (s.setCast c).sw = s.sw := rfl
@[simp] theorem State.setCast_cast (s : State) (c : CastOn) : (s.setCast c).cast = c := rfl
@[simp] theorem State.setCast_loop (s : State) (c : CastOn) : (s.setCast c).loop = s.loop := rfl
@[simp] theorem State.setCast_time (s : State) (c : CastOn) : (s.setCast c).time = s.time := rfl
@[simp] theorem State.setCast_eth (s : State) (c : CastOn) : (s.setCast c).eth = s.eth := rfl
@[simp] theorem State.setCast_timers (s : State) (c : CastOn) : (s.setCast c).timers = s.timers := rfl
@[simp] theorem State.setCast_sram (s : State) (c : CastOn) : (s.setCast c).sram = s.sram := rfl
@[simp] theorem State.setCast_sramLen (s : State) (c : CastOn) : (s.setCast c).sramLen = s.sramLen := rfl
@[simp] theorem State.setCast_sramBad (s : State) (c : CastOn) : (s.setCast c).sramBad = s.sramBad := rfl
@[simp] theorem State.setCast_vis (s : State) (c : CastOn) : (s.setCast c).vis = s.vis := rfl
@[simp] theorem State.setCast_mem (s : State) (c : CastOn) : (s.setCast c).mem = s.mem := rfl
@[simp] theorem State.setCast_neural (s : State) (c : CastOn) : (s.setCast c).neural = s.neural := rfl
@[simp] theorem State.setCast_track (s : State) (c : CastOn) : (s.setCast c).track = s.track := rfl
@[simp] theorem State.setCast_solv (s : State) (c : CastOn) : (s.setCast c).solv = s.solv := rfl
@[simp] theorem State.setCast_clsA (s : State) (c : CastOn) : (s.setCast c).clsA = s.clsA := rfl
@[simp] theorem State.setCast_window (s : State) (c : CastOn) : (s.setCast c).window = s.window := rfl
@[simp] theorem State.setCast_map (s : State) (c : CastOn) : (s.setCast c).map = s.map := rfl
@[simp] theorem State.setCast_srch (s : State) (c : CastOn) : (s.setCast c).srch = s.srch := rfl
@[simp] theorem State.setCast_links (s : State) (c : CastOn) : (s.setCast c).links = s.links := rfl
@[simp] theorem State.setCast_power (s : State) (c : CastOn) : (s.setCast c).power = s.power := rfl
@[simp] theorem State.setCast_resets (s : State) (c : CastOn) : (s.setCast c).resets = s.resets := rfl
@[simp] theorem State.setCast_pins (s : State) (c : CastOn) : (s.setCast c).pins = s.pins := rfl
@[simp] theorem State.setCast_integ (s : State) (c : CastOn) : (s.setCast c).integ = s.integ := rfl
@[simp] theorem State.setCast_pending (s : State) (c : CastOn) : (s.setCast c).pending = s.pending := rfl

@[simp] theorem State.setUnit_shadow (s : State) (n : Nat) (u : CheckUnit) : (s.setUnit n u).shadow = s.shadow := rfl
@[simp] theorem State.setUnit_fresh (s : State) (n : Nat) (u : CheckUnit) : (s.setUnit n u).fresh = s.fresh := rfl
@[simp] theorem State.setUnit_out (s : State) (n : Nat) (u : CheckUnit) : (s.setUnit n u).out = s.out := rfl
@[simp] theorem State.setUnit_ports (s : State) (n : Nat) (u : CheckUnit) : (s.setUnit n u).ports = s.ports := rfl
@[simp] theorem State.setUnit_sw (s : State) (n : Nat) (u : CheckUnit) : (s.setUnit n u).sw = s.sw := rfl
@[simp] theorem State.setUnit_cast (s : State) (n : Nat) (u : CheckUnit) : (s.setUnit n u).cast = s.cast := rfl
@[simp] theorem State.setUnit_loop (s : State) (n : Nat) (u : CheckUnit) : (s.setUnit n u).loop = s.loop := rfl
@[simp] theorem State.setUnit_time (s : State) (n : Nat) (u : CheckUnit) : (s.setUnit n u).time = s.time := rfl
@[simp] theorem State.setUnit_eth (s : State) (n : Nat) (u : CheckUnit) : (s.setUnit n u).eth = s.eth := rfl
@[simp] theorem State.setUnit_timers (s : State) (n : Nat) (u : CheckUnit) : (s.setUnit n u).timers = s.timers := rfl
@[simp] theorem State.setUnit_sram (s : State) (n : Nat) (u : CheckUnit) : (s.setUnit n u).sram = s.sram := rfl
@[simp] theorem State.setUnit_sramLen (s : State) (n : Nat) (u : CheckUnit) : (s.setUnit n u).sramLen = s.sramLen := rfl
@[simp] theorem State.setUnit_sramBad (s : State) (n : Nat) (u : CheckUnit) : (s.setUnit n u).sramBad = s.sramBad := rfl
@[simp] theorem State.setUnit_vis (s : State) (n : Nat) (u : CheckUnit) : (s.setUnit n u).vis = s.vis := rfl
@[simp] theorem State.setUnit_mem (s : State) (n : Nat) (u : CheckUnit) : (s.setUnit n u).mem = s.mem := rfl
@[simp] theorem State.setUnit_neural (s : State) (n : Nat) (u : CheckUnit) : (s.setUnit n u).neural = s.neural := rfl
@[simp] theorem State.setUnit_track (s : State) (n : Nat) (u : CheckUnit) : (s.setUnit n u).track = s.track := rfl
@[simp] theorem State.setUnit_solv (s : State) (n : Nat) (u : CheckUnit) : (s.setUnit n u).solv = s.solv := rfl
@[simp] theorem State.setUnit_clsA (s : State) (n : Nat) (u : CheckUnit) : (s.setUnit n u).clsA = s.clsA := rfl
@[simp] theorem State.setUnit_window (s : State) (n : Nat) (u : CheckUnit) : (s.setUnit n u).window = s.window := rfl
@[simp] theorem State.setUnit_map (s : State) (n : Nat) (u : CheckUnit) : (s.setUnit n u).map = s.map := rfl
@[simp] theorem State.setUnit_srch (s : State) (n : Nat) (u : CheckUnit) : (s.setUnit n u).srch = s.srch := rfl
@[simp] theorem State.setUnit_links (s : State) (n : Nat) (u : CheckUnit) : (s.setUnit n u).links = s.links := rfl
@[simp] theorem State.setUnit_power (s : State) (n : Nat) (u : CheckUnit) : (s.setUnit n u).power = s.power := rfl
@[simp] theorem State.setUnit_resets (s : State) (n : Nat) (u : CheckUnit) : (s.setUnit n u).resets = s.resets := rfl
@[simp] theorem State.setUnit_pins (s : State) (n : Nat) (u : CheckUnit) : (s.setUnit n u).pins = s.pins := rfl
@[simp] theorem State.setUnit_pending (s : State) (n : Nat) (u : CheckUnit) : (s.setUnit n u).pending = s.pending := rfl

@[simp] theorem State.setTiming_regs (s : State) (p c l : Nat) : (s.setTiming p c l).regs = s.regs := rfl
@[simp] theorem State.setTiming_shadow (s : State) (p c l : Nat) : (s.setTiming p c l).shadow = s.shadow := rfl
@[simp] theorem State.setTiming_fresh (s : State) (p c l : Nat) : (s.setTiming p c l).fresh = s.fresh := rfl
@[simp] theorem State.setTiming_out (s : State) (p c l : Nat) : (s.setTiming p c l).out = s.out := rfl
@[simp] theorem State.setTiming_ports (s : State) (p c l : Nat) : (s.setTiming p c l).ports = s.ports := rfl
@[simp] theorem State.setTiming_sw (s : State) (p c l : Nat) : (s.setTiming p c l).sw = s.sw := rfl
@[simp] theorem State.setTiming_cast (s : State) (p c l : Nat) : (s.setTiming p c l).cast = s.cast := rfl
@[simp] theorem State.setTiming_loop (s : State) (p c l : Nat) : (s.setTiming p c l).loop = { s.loop with period := p, cutoff := c, launch := l } := rfl
@[simp] theorem State.setTiming_time (s : State) (p c l : Nat) : (s.setTiming p c l).time = s.time := rfl
@[simp] theorem State.setTiming_eth (s : State) (p c l : Nat) : (s.setTiming p c l).eth = s.eth := rfl
@[simp] theorem State.setTiming_timers (s : State) (p c l : Nat) : (s.setTiming p c l).timers = s.timers := rfl
@[simp] theorem State.setTiming_sram (s : State) (p c l : Nat) : (s.setTiming p c l).sram = s.sram := rfl
@[simp] theorem State.setTiming_sramLen (s : State) (p c l : Nat) : (s.setTiming p c l).sramLen = s.sramLen := rfl
@[simp] theorem State.setTiming_sramBad (s : State) (p c l : Nat) : (s.setTiming p c l).sramBad = s.sramBad := rfl
@[simp] theorem State.setTiming_vis (s : State) (p c l : Nat) : (s.setTiming p c l).vis = s.vis := rfl
@[simp] theorem State.setTiming_mem (s : State) (p c l : Nat) : (s.setTiming p c l).mem = s.mem := rfl
@[simp] theorem State.setTiming_neural (s : State) (p c l : Nat) : (s.setTiming p c l).neural = s.neural := rfl
@[simp] theorem State.setTiming_track (s : State) (p c l : Nat) : (s.setTiming p c l).track = s.track := rfl
@[simp] theorem State.setTiming_solv (s : State) (p c l : Nat) : (s.setTiming p c l).solv = s.solv := rfl
@[simp] theorem State.setTiming_clsA (s : State) (p c l : Nat) : (s.setTiming p c l).clsA = s.clsA := rfl
@[simp] theorem State.setTiming_window (s : State) (p c l : Nat) : (s.setTiming p c l).window = s.window := rfl
@[simp] theorem State.setTiming_map (s : State) (p c l : Nat) : (s.setTiming p c l).map = s.map := rfl
@[simp] theorem State.setTiming_srch (s : State) (p c l : Nat) : (s.setTiming p c l).srch = s.srch := rfl
@[simp] theorem State.setTiming_links (s : State) (p c l : Nat) : (s.setTiming p c l).links = s.links := rfl
@[simp] theorem State.setTiming_power (s : State) (p c l : Nat) : (s.setTiming p c l).power = s.power := rfl
@[simp] theorem State.setTiming_resets (s : State) (p c l : Nat) : (s.setTiming p c l).resets = s.resets := rfl
@[simp] theorem State.setTiming_pins (s : State) (p c l : Nat) : (s.setTiming p c l).pins = s.pins := rfl
@[simp] theorem State.setTiming_integ (s : State) (p c l : Nat) : (s.setTiming p c l).integ = s.integ := rfl
@[simp] theorem State.setTiming_pending (s : State) (p c l : Nat) : (s.setTiming p c l).pending = s.pending := rfl

@[simp] theorem State.setCrossing_regs (s : State) (i n : Nat) : (s.setCrossing i n).regs = s.regs := rfl
@[simp] theorem State.setCrossing_shadow (s : State) (i n : Nat) : (s.setCrossing i n).shadow = s.shadow := rfl
@[simp] theorem State.setCrossing_fresh (s : State) (i n : Nat) : (s.setCrossing i n).fresh = s.fresh := rfl
@[simp] theorem State.setCrossing_out (s : State) (i n : Nat) : (s.setCrossing i n).out = s.out := rfl
@[simp] theorem State.setCrossing_ports (s : State) (i n : Nat) : (s.setCrossing i n).ports = s.ports := rfl
@[simp] theorem State.setCrossing_sw (s : State) (i n : Nat) : (s.setCrossing i n).sw = { s.sw with crossing := Store.set 0 s.sw.crossing i n } := rfl
@[simp] theorem State.setCrossing_cast (s : State) (i n : Nat) : (s.setCrossing i n).cast = s.cast := rfl
@[simp] theorem State.setCrossing_loop (s : State) (i n : Nat) : (s.setCrossing i n).loop = s.loop := rfl
@[simp] theorem State.setCrossing_time (s : State) (i n : Nat) : (s.setCrossing i n).time = s.time := rfl
@[simp] theorem State.setCrossing_eth (s : State) (i n : Nat) : (s.setCrossing i n).eth = s.eth := rfl
@[simp] theorem State.setCrossing_timers (s : State) (i n : Nat) : (s.setCrossing i n).timers = s.timers := rfl
@[simp] theorem State.setCrossing_sram (s : State) (i n : Nat) : (s.setCrossing i n).sram = s.sram := rfl
@[simp] theorem State.setCrossing_sramLen (s : State) (i n : Nat) : (s.setCrossing i n).sramLen = s.sramLen := rfl
@[simp] theorem State.setCrossing_sramBad (s : State) (i n : Nat) : (s.setCrossing i n).sramBad = s.sramBad := rfl
@[simp] theorem State.setCrossing_vis (s : State) (i n : Nat) : (s.setCrossing i n).vis = s.vis := rfl
@[simp] theorem State.setCrossing_mem (s : State) (i n : Nat) : (s.setCrossing i n).mem = s.mem := rfl
@[simp] theorem State.setCrossing_neural (s : State) (i n : Nat) : (s.setCrossing i n).neural = s.neural := rfl
@[simp] theorem State.setCrossing_track (s : State) (i n : Nat) : (s.setCrossing i n).track = s.track := rfl
@[simp] theorem State.setCrossing_solv (s : State) (i n : Nat) : (s.setCrossing i n).solv = s.solv := rfl
@[simp] theorem State.setCrossing_clsA (s : State) (i n : Nat) : (s.setCrossing i n).clsA = s.clsA := rfl
@[simp] theorem State.setCrossing_window (s : State) (i n : Nat) : (s.setCrossing i n).window = s.window := rfl
@[simp] theorem State.setCrossing_map (s : State) (i n : Nat) : (s.setCrossing i n).map = s.map := rfl
@[simp] theorem State.setCrossing_srch (s : State) (i n : Nat) : (s.setCrossing i n).srch = s.srch := rfl
@[simp] theorem State.setCrossing_links (s : State) (i n : Nat) : (s.setCrossing i n).links = s.links := rfl
@[simp] theorem State.setCrossing_power (s : State) (i n : Nat) : (s.setCrossing i n).power = s.power := rfl
@[simp] theorem State.setCrossing_resets (s : State) (i n : Nat) : (s.setCrossing i n).resets = s.resets := rfl
@[simp] theorem State.setCrossing_pins (s : State) (i n : Nat) : (s.setCrossing i n).pins = s.pins := rfl
@[simp] theorem State.setCrossing_integ (s : State) (i n : Nat) : (s.setCrossing i n).integ = s.integ := rfl
@[simp] theorem State.setCrossing_pending (s : State) (i n : Nat) : (s.setCrossing i n).pending = s.pending := rfl

@[simp] theorem State.setBooks_regs (s : State) (x : Nat) (r : Bool) (off : Nat) (b : List Byte) : (s.setBooks x r off b).regs = s.regs := rfl
@[simp] theorem State.setBooks_shadow (s : State) (x : Nat) (r : Bool) (off : Nat) (b : List Byte) : (s.setBooks x r off b).shadow = s.shadow := rfl
@[simp] theorem State.setBooks_fresh (s : State) (x : Nat) (r : Bool) (off : Nat) (b : List Byte) : (s.setBooks x r off b).fresh = s.fresh := rfl
@[simp] theorem State.setBooks_out (s : State) (x : Nat) (r : Bool) (off : Nat) (b : List Byte) : (s.setBooks x r off b).out = s.out := rfl
@[simp] theorem State.setBooks_ports (s : State) (x : Nat) (r : Bool) (off : Nat) (b : List Byte) : (s.setBooks x r off b).ports = s.ports := rfl
@[simp] theorem State.setBooks_sw (s : State) (x : Nat) (r : Bool) (off : Nat) (b : List Byte) : (s.setBooks x r off b).sw = s.sw := rfl
@[simp] theorem State.setBooks_cast (s : State) (x : Nat) (r : Bool) (off : Nat) (b : List Byte) : (s.setBooks x r off b).cast = s.cast := rfl
@[simp] theorem State.setBooks_loop (s : State) (x : Nat) (r : Bool) (off : Nat) (b : List Byte) : (s.setBooks x r off b).loop = s.loop := rfl
@[simp] theorem State.setBooks_time (s : State) (x : Nat) (r : Bool) (off : Nat) (b : List Byte) : (s.setBooks x r off b).time = s.time := rfl
@[simp] theorem State.setBooks_eth (s : State) (x : Nat) (r : Bool) (off : Nat) (b : List Byte) : (s.setBooks x r off b).eth = s.eth := rfl
@[simp] theorem State.setBooks_timers (s : State) (x : Nat) (r : Bool) (off : Nat) (b : List Byte) : (s.setBooks x r off b).timers = s.timers := rfl
@[simp] theorem State.setBooks_sram (s : State) (x : Nat) (r : Bool) (off : Nat) (b : List Byte) : (s.setBooks x r off b).sram = s.sram := rfl
@[simp] theorem State.setBooks_sramLen (s : State) (x : Nat) (r : Bool) (off : Nat) (b : List Byte) : (s.setBooks x r off b).sramLen = s.sramLen := rfl
@[simp] theorem State.setBooks_sramBad (s : State) (x : Nat) (r : Bool) (off : Nat) (b : List Byte) : (s.setBooks x r off b).sramBad = s.sramBad := rfl
@[simp] theorem State.setBooks_vis (s : State) (x : Nat) (r : Bool) (off : Nat) (b : List Byte) : (s.setBooks x r off b).vis = s.vis := rfl
@[simp] theorem State.setBooks_mem (s : State) (x : Nat) (r : Bool) (off : Nat) (b : List Byte) : (s.setBooks x r off b).mem = s.mem := rfl
@[simp] theorem State.setBooks_neural (s : State) (x : Nat) (r : Bool) (off : Nat) (b : List Byte) : (s.setBooks x r off b).neural = s.neural := rfl
@[simp] theorem State.setBooks_track (s : State) (x : Nat) (r : Bool) (off : Nat) (b : List Byte) : (s.setBooks x r off b).track = s.track := rfl
@[simp] theorem State.setBooks_solv (s : State) (x : Nat) (r : Bool) (off : Nat) (b : List Byte) : (s.setBooks x r off b).solv = s.solv := rfl
@[simp] theorem State.setBooks_clsA (s : State) (x : Nat) (r : Bool) (off : Nat) (b : List Byte) : (s.setBooks x r off b).clsA = s.clsA := rfl
@[simp] theorem State.setBooks_window (s : State) (x : Nat) (r : Bool) (off : Nat) (b : List Byte) : (s.setBooks x r off b).window = s.window := rfl
@[simp] theorem State.setBooks_map (s : State) (x : Nat) (r : Bool) (off : Nat) (b : List Byte) : (s.setBooks x r off b).map = s.map := rfl
@[simp] theorem State.setBooks_srch (s : State) (x : Nat) (r : Bool) (off : Nat) (b : List Byte) : (s.setBooks x r off b).srch = { s.srch with books := Store.setMany 0 s.srch.books (bookKey x r off) b } := rfl
@[simp] theorem State.setBooks_links (s : State) (x : Nat) (r : Bool) (off : Nat) (b : List Byte) : (s.setBooks x r off b).links = s.links := rfl
@[simp] theorem State.setBooks_power (s : State) (x : Nat) (r : Bool) (off : Nat) (b : List Byte) : (s.setBooks x r off b).power = s.power := rfl
@[simp] theorem State.setBooks_resets (s : State) (x : Nat) (r : Bool) (off : Nat) (b : List Byte) : (s.setBooks x r off b).resets = s.resets := rfl
@[simp] theorem State.setBooks_pins (s : State) (x : Nat) (r : Bool) (off : Nat) (b : List Byte) : (s.setBooks x r off b).pins = s.pins := rfl
@[simp] theorem State.setBooks_integ (s : State) (x : Nat) (r : Bool) (off : Nat) (b : List Byte) : (s.setBooks x r off b).integ = s.integ := rfl
@[simp] theorem State.setBooks_pending (s : State) (x : Nat) (r : Bool) (off : Nat) (b : List Byte) : (s.setBooks x r off b).pending = s.pending := rfl

@[simp] theorem State.setNode_regs (s : State) (node c : Nat) (v : Bool × Nat) : (s.setNode node c v).regs = s.regs := rfl
@[simp] theorem State.setNode_shadow (s : State) (node c : Nat) (v : Bool × Nat) : (s.setNode node c v).shadow = s.shadow := rfl
@[simp] theorem State.setNode_fresh (s : State) (node c : Nat) (v : Bool × Nat) : (s.setNode node c v).fresh = s.fresh := rfl
@[simp] theorem State.setNode_out (s : State) (node c : Nat) (v : Bool × Nat) : (s.setNode node c v).out = s.out := rfl
@[simp] theorem State.setNode_ports (s : State) (node c : Nat) (v : Bool × Nat) : (s.setNode node c v).ports = s.ports := rfl
@[simp] theorem State.setNode_sw (s : State) (node c : Nat) (v : Bool × Nat) : (s.setNode node c v).sw = s.sw := rfl
@[simp] theorem State.setNode_cast (s : State) (node c : Nat) (v : Bool × Nat) : (s.setNode node c v).cast = s.cast := rfl
@[simp] theorem State.setNode_loop (s : State) (node c : Nat) (v : Bool × Nat) : (s.setNode node c v).loop = s.loop := rfl
@[simp] theorem State.setNode_time (s : State) (node c : Nat) (v : Bool × Nat) : (s.setNode node c v).time = s.time := rfl
@[simp] theorem State.setNode_eth (s : State) (node c : Nat) (v : Bool × Nat) : (s.setNode node c v).eth = s.eth := rfl
@[simp] theorem State.setNode_timers (s : State) (node c : Nat) (v : Bool × Nat) : (s.setNode node c v).timers = s.timers := rfl
@[simp] theorem State.setNode_sram (s : State) (node c : Nat) (v : Bool × Nat) : (s.setNode node c v).sram = s.sram := rfl
@[simp] theorem State.setNode_sramLen (s : State) (node c : Nat) (v : Bool × Nat) : (s.setNode node c v).sramLen = s.sramLen := rfl
@[simp] theorem State.setNode_sramBad (s : State) (node c : Nat) (v : Bool × Nat) : (s.setNode node c v).sramBad = s.sramBad := rfl
@[simp] theorem State.setNode_vis (s : State) (node c : Nat) (v : Bool × Nat) : (s.setNode node c v).vis = s.vis := rfl
@[simp] theorem State.setNode_mem (s : State) (node c : Nat) (v : Bool × Nat) : (s.setNode node c v).mem = s.mem := rfl
@[simp] theorem State.setNode_neural (s : State) (node c : Nat) (v : Bool × Nat) : (s.setNode node c v).neural = s.neural := rfl
@[simp] theorem State.setNode_track (s : State) (node c : Nat) (v : Bool × Nat) : (s.setNode node c v).track = s.track := rfl
@[simp] theorem State.setNode_solv (s : State) (node c : Nat) (v : Bool × Nat) : (s.setNode node c v).solv = s.solv := rfl
@[simp] theorem State.setNode_clsA (s : State) (node c : Nat) (v : Bool × Nat) : (s.setNode node c v).clsA = s.clsA := rfl
@[simp] theorem State.setNode_window (s : State) (node c : Nat) (v : Bool × Nat) : (s.setNode node c v).window = s.window := rfl
@[simp] theorem State.setNode_map (s : State) (node c : Nat) (v : Bool × Nat) : (s.setNode node c v).map = s.map := rfl
@[simp] theorem State.setNode_srch (s : State) (node c : Nat) (v : Bool × Nat) : (s.setNode node c v).srch = s.srch := rfl
@[simp] theorem State.setNode_links (s : State) (node c : Nat) (v : Bool × Nat) : (s.setNode node c v).links = s.links := rfl
@[simp] theorem State.setNode_power (s : State) (node c : Nat) (v : Bool × Nat) : (s.setNode node c v).power = s.power := rfl
@[simp] theorem State.setNode_resets (s : State) (node c : Nat) (v : Bool × Nat) : (s.setNode node c v).resets = s.resets := rfl
@[simp] theorem State.setNode_pins (s : State) (node c : Nat) (v : Bool × Nat) : (s.setNode node c v).pins = s.pins := rfl
@[simp] theorem State.setNode_integ (s : State) (node c : Nat) (v : Bool × Nat) : (s.setNode node c v).integ = { s.integ with nodes := Store.set (false, 0) s.integ.nodes (node * 32 + c) v } := rfl
@[simp] theorem State.setNode_pending (s : State) (node c : Nat) (v : Bool × Nat) : (s.setNode node c v).pending = s.pending := rfl

@[simp] theorem State.setLatch_regs (s : State) (port a : Nat) (w : Option Word) : (s.setLatch port a w).regs = s.regs := rfl
@[simp] theorem State.setLatch_shadow (s : State) (port a : Nat) (w : Option Word) : (s.setLatch port a w).shadow = s.shadow := rfl
@[simp] theorem State.setLatch_fresh (s : State) (port a : Nat) (w : Option Word) : (s.setLatch port a w).fresh = s.fresh := rfl
@[simp] theorem State.setLatch_out (s : State) (port a : Nat) (w : Option Word) : (s.setLatch port a w).out = s.out := rfl
@[simp] theorem State.setLatch_ports (s : State) (port a : Nat) (w : Option Word) : (s.setLatch port a w).ports = { s.ports with latches := Store.set none s.ports.latches (portKey port a) w } := rfl
@[simp] theorem State.setLatch_sw (s : State) (port a : Nat) (w : Option Word) : (s.setLatch port a w).sw = s.sw := rfl
@[simp] theorem State.setLatch_cast (s : State) (port a : Nat) (w : Option Word) : (s.setLatch port a w).cast = s.cast := rfl
@[simp] theorem State.setLatch_loop (s : State) (port a : Nat) (w : Option Word) : (s.setLatch port a w).loop = s.loop := rfl
@[simp] theorem State.setLatch_time (s : State) (port a : Nat) (w : Option Word) : (s.setLatch port a w).time = s.time := rfl
@[simp] theorem State.setLatch_eth (s : State) (port a : Nat) (w : Option Word) : (s.setLatch port a w).eth = s.eth := rfl
@[simp] theorem State.setLatch_timers (s : State) (port a : Nat) (w : Option Word) : (s.setLatch port a w).timers = s.timers := rfl
@[simp] theorem State.setLatch_sram (s : State) (port a : Nat) (w : Option Word) : (s.setLatch port a w).sram = s.sram := rfl
@[simp] theorem State.setLatch_sramLen (s : State) (port a : Nat) (w : Option Word) : (s.setLatch port a w).sramLen = s.sramLen := rfl
@[simp] theorem State.setLatch_sramBad (s : State) (port a : Nat) (w : Option Word) : (s.setLatch port a w).sramBad = s.sramBad := rfl
@[simp] theorem State.setLatch_vis (s : State) (port a : Nat) (w : Option Word) : (s.setLatch port a w).vis = s.vis := rfl
@[simp] theorem State.setLatch_mem (s : State) (port a : Nat) (w : Option Word) : (s.setLatch port a w).mem = s.mem := rfl
@[simp] theorem State.setLatch_neural (s : State) (port a : Nat) (w : Option Word) : (s.setLatch port a w).neural = s.neural := rfl
@[simp] theorem State.setLatch_track (s : State) (port a : Nat) (w : Option Word) : (s.setLatch port a w).track = s.track := rfl
@[simp] theorem State.setLatch_solv (s : State) (port a : Nat) (w : Option Word) : (s.setLatch port a w).solv = s.solv := rfl
@[simp] theorem State.setLatch_clsA (s : State) (port a : Nat) (w : Option Word) : (s.setLatch port a w).clsA = s.clsA := rfl
@[simp] theorem State.setLatch_window (s : State) (port a : Nat) (w : Option Word) : (s.setLatch port a w).window = s.window := rfl
@[simp] theorem State.setLatch_map (s : State) (port a : Nat) (w : Option Word) : (s.setLatch port a w).map = s.map := rfl
@[simp] theorem State.setLatch_srch (s : State) (port a : Nat) (w : Option Word) : (s.setLatch port a w).srch = s.srch := rfl
@[simp] theorem State.setLatch_links (s : State) (port a : Nat) (w : Option Word) : (s.setLatch port a w).links = s.links := rfl
@[simp] theorem State.setLatch_power (s : State) (port a : Nat) (w : Option Word) : (s.setLatch port a w).power = s.power := rfl
@[simp] theorem State.setLatch_resets (s : State) (port a : Nat) (w : Option Word) : (s.setLatch port a w).resets = s.resets := rfl
@[simp] theorem State.setLatch_pins (s : State) (port a : Nat) (w : Option Word) : (s.setLatch port a w).pins = s.pins := rfl
@[simp] theorem State.setLatch_integ (s : State) (port a : Nat) (w : Option Word) : (s.setLatch port a w).integ = s.integ := rfl
@[simp] theorem State.setLatch_pending (s : State) (port a : Nat) (w : Option Word) : (s.setLatch port a w).pending = s.pending := rfl

@[simp] theorem State.setPointer_regs (s : State) (a : Word) : (s.setPointer a).regs = s.regs := rfl
@[simp] theorem State.setPointer_shadow (s : State) (a : Word) : (s.setPointer a).shadow = s.shadow := rfl
@[simp] theorem State.setPointer_fresh (s : State) (a : Word) : (s.setPointer a).fresh = s.fresh := rfl
@[simp] theorem State.setPointer_out (s : State) (a : Word) : (s.setPointer a).out = s.out := rfl
@[simp] theorem State.setPointer_ports (s : State) (a : Word) : (s.setPointer a).ports = s.ports := rfl
@[simp] theorem State.setPointer_sw (s : State) (a : Word) : (s.setPointer a).sw = s.sw := rfl
@[simp] theorem State.setPointer_cast (s : State) (a : Word) : (s.setPointer a).cast = s.cast := rfl
@[simp] theorem State.setPointer_loop (s : State) (a : Word) : (s.setPointer a).loop = s.loop := rfl
@[simp] theorem State.setPointer_time (s : State) (a : Word) : (s.setPointer a).time = s.time := rfl
@[simp] theorem State.setPointer_eth (s : State) (a : Word) : (s.setPointer a).eth = s.eth := rfl
@[simp] theorem State.setPointer_timers (s : State) (a : Word) : (s.setPointer a).timers = s.timers := rfl
@[simp] theorem State.setPointer_sram (s : State) (a : Word) : (s.setPointer a).sram = s.sram := rfl
@[simp] theorem State.setPointer_sramLen (s : State) (a : Word) : (s.setPointer a).sramLen = s.sramLen := rfl
@[simp] theorem State.setPointer_sramBad (s : State) (a : Word) : (s.setPointer a).sramBad = s.sramBad := rfl
@[simp] theorem State.setPointer_vis (s : State) (a : Word) : (s.setPointer a).vis = s.vis := rfl
@[simp] theorem State.setPointer_mem (s : State) (a : Word) : (s.setPointer a).mem = s.mem := rfl
@[simp] theorem State.setPointer_neural (s : State) (a : Word) : (s.setPointer a).neural = s.neural := rfl
@[simp] theorem State.setPointer_track (s : State) (a : Word) : (s.setPointer a).track = s.track := rfl
@[simp] theorem State.setPointer_solv (s : State) (a : Word) : (s.setPointer a).solv = s.solv := rfl
@[simp] theorem State.setPointer_clsA (s : State) (a : Word) : (s.setPointer a).clsA = s.clsA := rfl
@[simp] theorem State.setPointer_window (s : State) (a : Word) : (s.setPointer a).window = s.window := rfl
@[simp] theorem State.setPointer_map (s : State) (a : Word) : (s.setPointer a).map = s.map := rfl
@[simp] theorem State.setPointer_srch (s : State) (a : Word) : (s.setPointer a).srch = s.srch := rfl
@[simp] theorem State.setPointer_links (s : State) (a : Word) : (s.setPointer a).links = { s.links with readPointer := a } := rfl
@[simp] theorem State.setPointer_power (s : State) (a : Word) : (s.setPointer a).power = s.power := rfl
@[simp] theorem State.setPointer_resets (s : State) (a : Word) : (s.setPointer a).resets = s.resets := rfl
@[simp] theorem State.setPointer_pins (s : State) (a : Word) : (s.setPointer a).pins = s.pins := rfl
@[simp] theorem State.setPointer_integ (s : State) (a : Word) : (s.setPointer a).integ = s.integ := rfl
@[simp] theorem State.setPointer_pending (s : State) (a : Word) : (s.setPointer a).pending = s.pending := rfl

@[simp] theorem State.setImuBus_regs (s : State) (spi : Bool) (r : Option ImuRead) : (s.setImuBus spi r).regs = s.regs := rfl
@[simp] theorem State.setImuBus_shadow (s : State) (spi : Bool) (r : Option ImuRead) : (s.setImuBus spi r).shadow = s.shadow := rfl
@[simp] theorem State.setImuBus_fresh (s : State) (spi : Bool) (r : Option ImuRead) : (s.setImuBus spi r).fresh = s.fresh := rfl
@[simp] theorem State.setImuBus_out (s : State) (spi : Bool) (r : Option ImuRead) : (s.setImuBus spi r).out = s.out := rfl
@[simp] theorem State.setImuBus_ports (s : State) (spi : Bool) (r : Option ImuRead) : (s.setImuBus spi r).ports = s.ports := rfl
@[simp] theorem State.setImuBus_sw (s : State) (spi : Bool) (r : Option ImuRead) : (s.setImuBus spi r).sw = s.sw := rfl
@[simp] theorem State.setImuBus_cast (s : State) (spi : Bool) (r : Option ImuRead) : (s.setImuBus spi r).cast = s.cast := rfl
@[simp] theorem State.setImuBus_loop (s : State) (spi : Bool) (r : Option ImuRead) : (s.setImuBus spi r).loop = s.loop := rfl
@[simp] theorem State.setImuBus_time (s : State) (spi : Bool) (r : Option ImuRead) : (s.setImuBus spi r).time = s.time := rfl
@[simp] theorem State.setImuBus_eth (s : State) (spi : Bool) (r : Option ImuRead) : (s.setImuBus spi r).eth = s.eth := rfl
@[simp] theorem State.setImuBus_timers (s : State) (spi : Bool) (r : Option ImuRead) : (s.setImuBus spi r).timers = s.timers := rfl
@[simp] theorem State.setImuBus_sram (s : State) (spi : Bool) (r : Option ImuRead) : (s.setImuBus spi r).sram = s.sram := rfl
@[simp] theorem State.setImuBus_sramLen (s : State) (spi : Bool) (r : Option ImuRead) : (s.setImuBus spi r).sramLen = s.sramLen := rfl
@[simp] theorem State.setImuBus_sramBad (s : State) (spi : Bool) (r : Option ImuRead) : (s.setImuBus spi r).sramBad = s.sramBad := rfl
@[simp] theorem State.setImuBus_vis (s : State) (spi : Bool) (r : Option ImuRead) : (s.setImuBus spi r).vis = s.vis := rfl
@[simp] theorem State.setImuBus_mem (s : State) (spi : Bool) (r : Option ImuRead) : (s.setImuBus spi r).mem = s.mem := rfl
@[simp] theorem State.setImuBus_neural (s : State) (spi : Bool) (r : Option ImuRead) : (s.setImuBus spi r).neural = s.neural := rfl
@[simp] theorem State.setImuBus_track (s : State) (spi : Bool) (r : Option ImuRead) : (s.setImuBus spi r).track = s.track := rfl
@[simp] theorem State.setImuBus_solv (s : State) (spi : Bool) (r : Option ImuRead) : (s.setImuBus spi r).solv = s.solv := rfl
@[simp] theorem State.setImuBus_clsA (s : State) (spi : Bool) (r : Option ImuRead) : (s.setImuBus spi r).clsA = s.clsA := rfl
@[simp] theorem State.setImuBus_window (s : State) (spi : Bool) (r : Option ImuRead) : (s.setImuBus spi r).window = s.window := rfl
@[simp] theorem State.setImuBus_map (s : State) (spi : Bool) (r : Option ImuRead) : (s.setImuBus spi r).map = s.map := rfl
@[simp] theorem State.setImuBus_srch (s : State) (spi : Bool) (r : Option ImuRead) : (s.setImuBus spi r).srch = s.srch := rfl
@[simp] theorem State.setImuBus_links (s : State) (spi : Bool) (r : Option ImuRead) : (s.setImuBus spi r).links = if spi then { s.links with imuSpi := r } else { s.links with imuI3c := r } := rfl
@[simp] theorem State.setImuBus_power (s : State) (spi : Bool) (r : Option ImuRead) : (s.setImuBus spi r).power = s.power := rfl
@[simp] theorem State.setImuBus_resets (s : State) (spi : Bool) (r : Option ImuRead) : (s.setImuBus spi r).resets = s.resets := rfl
@[simp] theorem State.setImuBus_pins (s : State) (spi : Bool) (r : Option ImuRead) : (s.setImuBus spi r).pins = s.pins := rfl
@[simp] theorem State.setImuBus_integ (s : State) (spi : Bool) (r : Option ImuRead) : (s.setImuBus spi r).integ = s.integ := rfl
@[simp] theorem State.setImuBus_pending (s : State) (spi : Bool) (r : Option ImuRead) : (s.setImuBus spi r).pending = s.pending := rfl

@[simp] theorem State.setMap_regs (s : State) (m : MapTask) : (s.setMap m).regs = s.regs := rfl
@[simp] theorem State.setMap_shadow (s : State) (m : MapTask) : (s.setMap m).shadow = s.shadow := rfl
@[simp] theorem State.setMap_fresh (s : State) (m : MapTask) : (s.setMap m).fresh = s.fresh := rfl
@[simp] theorem State.setMap_out (s : State) (m : MapTask) : (s.setMap m).out = s.out := rfl
@[simp] theorem State.setMap_ports (s : State) (m : MapTask) : (s.setMap m).ports = s.ports := rfl
@[simp] theorem State.setMap_sw (s : State) (m : MapTask) : (s.setMap m).sw = s.sw := rfl
@[simp] theorem State.setMap_cast (s : State) (m : MapTask) : (s.setMap m).cast = s.cast := rfl
@[simp] theorem State.setMap_loop (s : State) (m : MapTask) : (s.setMap m).loop = s.loop := rfl
@[simp] theorem State.setMap_time (s : State) (m : MapTask) : (s.setMap m).time = s.time := rfl
@[simp] theorem State.setMap_eth (s : State) (m : MapTask) : (s.setMap m).eth = s.eth := rfl
@[simp] theorem State.setMap_timers (s : State) (m : MapTask) : (s.setMap m).timers = s.timers := rfl
@[simp] theorem State.setMap_sram (s : State) (m : MapTask) : (s.setMap m).sram = s.sram := rfl
@[simp] theorem State.setMap_sramLen (s : State) (m : MapTask) : (s.setMap m).sramLen = s.sramLen := rfl
@[simp] theorem State.setMap_sramBad (s : State) (m : MapTask) : (s.setMap m).sramBad = s.sramBad := rfl
@[simp] theorem State.setMap_vis (s : State) (m : MapTask) : (s.setMap m).vis = s.vis := rfl
@[simp] theorem State.setMap_mem (s : State) (m : MapTask) : (s.setMap m).mem = s.mem := rfl
@[simp] theorem State.setMap_neural (s : State) (m : MapTask) : (s.setMap m).neural = s.neural := rfl
@[simp] theorem State.setMap_track (s : State) (m : MapTask) : (s.setMap m).track = s.track := rfl
@[simp] theorem State.setMap_solv (s : State) (m : MapTask) : (s.setMap m).solv = s.solv := rfl
@[simp] theorem State.setMap_clsA (s : State) (m : MapTask) : (s.setMap m).clsA = s.clsA := rfl
@[simp] theorem State.setMap_window (s : State) (m : MapTask) : (s.setMap m).window = s.window := rfl
@[simp] theorem State.setMap_map (s : State) (m : MapTask) : (s.setMap m).map = m := rfl
@[simp] theorem State.setMap_srch (s : State) (m : MapTask) : (s.setMap m).srch = s.srch := rfl
@[simp] theorem State.setMap_links (s : State) (m : MapTask) : (s.setMap m).links = s.links := rfl
@[simp] theorem State.setMap_power (s : State) (m : MapTask) : (s.setMap m).power = s.power := rfl
@[simp] theorem State.setMap_resets (s : State) (m : MapTask) : (s.setMap m).resets = s.resets := rfl
@[simp] theorem State.setMap_pins (s : State) (m : MapTask) : (s.setMap m).pins = s.pins := rfl
@[simp] theorem State.setMap_integ (s : State) (m : MapTask) : (s.setMap m).integ = s.integ := rfl
@[simp] theorem State.setMap_pending (s : State) (m : MapTask) : (s.setMap m).pending = s.pending := rfl

@[simp] theorem State.setMarker_regs (s : State) (m : Nat) (k : Marker) : (s.setMarker m k).regs = s.regs := rfl
@[simp] theorem State.setMarker_shadow (s : State) (m : Nat) (k : Marker) : (s.setMarker m k).shadow = s.shadow := rfl
@[simp] theorem State.setMarker_fresh (s : State) (m : Nat) (k : Marker) : (s.setMarker m k).fresh = s.fresh := rfl
@[simp] theorem State.setMarker_out (s : State) (m : Nat) (k : Marker) : (s.setMarker m k).out = s.out := rfl
@[simp] theorem State.setMarker_ports (s : State) (m : Nat) (k : Marker) : (s.setMarker m k).ports = s.ports := rfl
@[simp] theorem State.setMarker_sw (s : State) (m : Nat) (k : Marker) : (s.setMarker m k).sw = s.sw := rfl
@[simp] theorem State.setMarker_cast (s : State) (m : Nat) (k : Marker) : (s.setMarker m k).cast = s.cast := rfl
@[simp] theorem State.setMarker_loop (s : State) (m : Nat) (k : Marker) : (s.setMarker m k).loop = s.loop := rfl
@[simp] theorem State.setMarker_time (s : State) (m : Nat) (k : Marker) : (s.setMarker m k).time = s.time := rfl
@[simp] theorem State.setMarker_eth (s : State) (m : Nat) (k : Marker) : (s.setMarker m k).eth = s.eth := rfl
@[simp] theorem State.setMarker_timers (s : State) (m : Nat) (k : Marker) : (s.setMarker m k).timers = s.timers := rfl
@[simp] theorem State.setMarker_sram (s : State) (m : Nat) (k : Marker) : (s.setMarker m k).sram = s.sram := rfl
@[simp] theorem State.setMarker_sramLen (s : State) (m : Nat) (k : Marker) : (s.setMarker m k).sramLen = s.sramLen := rfl
@[simp] theorem State.setMarker_sramBad (s : State) (m : Nat) (k : Marker) : (s.setMarker m k).sramBad = s.sramBad := rfl
@[simp] theorem State.setMarker_vis (s : State) (m : Nat) (k : Marker) : (s.setMarker m k).vis = { s.vis with markers := Store.set Marker.reset s.vis.markers m k } := rfl
@[simp] theorem State.setMarker_mem (s : State) (m : Nat) (k : Marker) : (s.setMarker m k).mem = s.mem := rfl
@[simp] theorem State.setMarker_neural (s : State) (m : Nat) (k : Marker) : (s.setMarker m k).neural = s.neural := rfl
@[simp] theorem State.setMarker_track (s : State) (m : Nat) (k : Marker) : (s.setMarker m k).track = s.track := rfl
@[simp] theorem State.setMarker_solv (s : State) (m : Nat) (k : Marker) : (s.setMarker m k).solv = s.solv := rfl
@[simp] theorem State.setMarker_clsA (s : State) (m : Nat) (k : Marker) : (s.setMarker m k).clsA = s.clsA := rfl
@[simp] theorem State.setMarker_window (s : State) (m : Nat) (k : Marker) : (s.setMarker m k).window = s.window := rfl
@[simp] theorem State.setMarker_map (s : State) (m : Nat) (k : Marker) : (s.setMarker m k).map = s.map := rfl
@[simp] theorem State.setMarker_srch (s : State) (m : Nat) (k : Marker) : (s.setMarker m k).srch = s.srch := rfl
@[simp] theorem State.setMarker_links (s : State) (m : Nat) (k : Marker) : (s.setMarker m k).links = s.links := rfl
@[simp] theorem State.setMarker_power (s : State) (m : Nat) (k : Marker) : (s.setMarker m k).power = s.power := rfl
@[simp] theorem State.setMarker_resets (s : State) (m : Nat) (k : Marker) : (s.setMarker m k).resets = s.resets := rfl
@[simp] theorem State.setMarker_pins (s : State) (m : Nat) (k : Marker) : (s.setMarker m k).pins = s.pins := rfl
@[simp] theorem State.setMarker_integ (s : State) (m : Nat) (k : Marker) : (s.setMarker m k).integ = s.integ := rfl
@[simp] theorem State.setMarker_pending (s : State) (m : Nat) (k : Marker) : (s.setMarker m k).pending = s.pending := rfl

@[simp] theorem State.setGraph_shadow (s : State) (g : Nat) (v : Graph) : (s.setGraph g v).shadow = s.shadow := rfl
@[simp] theorem State.setGraph_fresh (s : State) (g : Nat) (v : Graph) : (s.setGraph g v).fresh = s.fresh := rfl
@[simp] theorem State.setGraph_out (s : State) (g : Nat) (v : Graph) : (s.setGraph g v).out = s.out := rfl
@[simp] theorem State.setGraph_ports (s : State) (g : Nat) (v : Graph) : (s.setGraph g v).ports = s.ports := rfl
@[simp] theorem State.setGraph_sw (s : State) (g : Nat) (v : Graph) : (s.setGraph g v).sw = s.sw := rfl
@[simp] theorem State.setGraph_cast (s : State) (g : Nat) (v : Graph) : (s.setGraph g v).cast = s.cast := rfl
@[simp] theorem State.setGraph_loop (s : State) (g : Nat) (v : Graph) : (s.setGraph g v).loop = s.loop := rfl
@[simp] theorem State.setGraph_time (s : State) (g : Nat) (v : Graph) : (s.setGraph g v).time = s.time := rfl
@[simp] theorem State.setGraph_eth (s : State) (g : Nat) (v : Graph) : (s.setGraph g v).eth = s.eth := rfl
@[simp] theorem State.setGraph_timers (s : State) (g : Nat) (v : Graph) : (s.setGraph g v).timers = s.timers := rfl
@[simp] theorem State.setGraph_sram (s : State) (g : Nat) (v : Graph) : (s.setGraph g v).sram = s.sram := rfl
@[simp] theorem State.setGraph_sramLen (s : State) (g : Nat) (v : Graph) : (s.setGraph g v).sramLen = s.sramLen := rfl
@[simp] theorem State.setGraph_sramBad (s : State) (g : Nat) (v : Graph) : (s.setGraph g v).sramBad = s.sramBad := rfl
@[simp] theorem State.setGraph_mem (s : State) (g : Nat) (v : Graph) : (s.setGraph g v).mem = s.mem := rfl
@[simp] theorem State.setGraph_neural (s : State) (g : Nat) (v : Graph) : (s.setGraph g v).neural = s.neural := rfl
@[simp] theorem State.setGraph_track (s : State) (g : Nat) (v : Graph) : (s.setGraph g v).track = s.track := rfl
@[simp] theorem State.setGraph_solv (s : State) (g : Nat) (v : Graph) : (s.setGraph g v).solv = s.solv := rfl
@[simp] theorem State.setGraph_clsA (s : State) (g : Nat) (v : Graph) : (s.setGraph g v).clsA = s.clsA := rfl
@[simp] theorem State.setGraph_window (s : State) (g : Nat) (v : Graph) : (s.setGraph g v).window = s.window := rfl
@[simp] theorem State.setGraph_map (s : State) (g : Nat) (v : Graph) : (s.setGraph g v).map = s.map := rfl
@[simp] theorem State.setGraph_srch (s : State) (g : Nat) (v : Graph) : (s.setGraph g v).srch = s.srch := rfl
@[simp] theorem State.setGraph_links (s : State) (g : Nat) (v : Graph) : (s.setGraph g v).links = s.links := rfl
@[simp] theorem State.setGraph_power (s : State) (g : Nat) (v : Graph) : (s.setGraph g v).power = s.power := rfl
@[simp] theorem State.setGraph_resets (s : State) (g : Nat) (v : Graph) : (s.setGraph g v).resets = s.resets := rfl
@[simp] theorem State.setGraph_pins (s : State) (g : Nat) (v : Graph) : (s.setGraph g v).pins = s.pins := rfl
@[simp] theorem State.setGraph_integ (s : State) (g : Nat) (v : Graph) : (s.setGraph g v).integ = s.integ := rfl
@[simp] theorem State.setGraph_pending (s : State) (g : Nat) (v : Graph) : (s.setGraph g v).pending = s.pending := rfl

@[simp] theorem State.setObject_regs (s : State) (id : Nat) (o : Option MemObject) : (s.setObject id o).regs = s.regs := rfl
@[simp] theorem State.setObject_shadow (s : State) (id : Nat) (o : Option MemObject) : (s.setObject id o).shadow = s.shadow := rfl
@[simp] theorem State.setObject_fresh (s : State) (id : Nat) (o : Option MemObject) : (s.setObject id o).fresh = s.fresh := rfl
@[simp] theorem State.setObject_out (s : State) (id : Nat) (o : Option MemObject) : (s.setObject id o).out = s.out := rfl
@[simp] theorem State.setObject_ports (s : State) (id : Nat) (o : Option MemObject) : (s.setObject id o).ports = s.ports := rfl
@[simp] theorem State.setObject_sw (s : State) (id : Nat) (o : Option MemObject) : (s.setObject id o).sw = s.sw := rfl
@[simp] theorem State.setObject_cast (s : State) (id : Nat) (o : Option MemObject) : (s.setObject id o).cast = s.cast := rfl
@[simp] theorem State.setObject_loop (s : State) (id : Nat) (o : Option MemObject) : (s.setObject id o).loop = s.loop := rfl
@[simp] theorem State.setObject_time (s : State) (id : Nat) (o : Option MemObject) : (s.setObject id o).time = s.time := rfl
@[simp] theorem State.setObject_eth (s : State) (id : Nat) (o : Option MemObject) : (s.setObject id o).eth = s.eth := rfl
@[simp] theorem State.setObject_timers (s : State) (id : Nat) (o : Option MemObject) : (s.setObject id o).timers = s.timers := rfl
@[simp] theorem State.setObject_sram (s : State) (id : Nat) (o : Option MemObject) : (s.setObject id o).sram = s.sram := rfl
@[simp] theorem State.setObject_sramLen (s : State) (id : Nat) (o : Option MemObject) : (s.setObject id o).sramLen = s.sramLen := rfl
@[simp] theorem State.setObject_sramBad (s : State) (id : Nat) (o : Option MemObject) : (s.setObject id o).sramBad = s.sramBad := rfl
@[simp] theorem State.setObject_vis (s : State) (id : Nat) (o : Option MemObject) : (s.setObject id o).vis = s.vis := rfl
@[simp] theorem State.setObject_mem (s : State) (id : Nat) (o : Option MemObject) : (s.setObject id o).mem = { s.mem with objects := Store.set none s.mem.objects id o } := rfl
@[simp] theorem State.setObject_neural (s : State) (id : Nat) (o : Option MemObject) : (s.setObject id o).neural = s.neural := rfl
@[simp] theorem State.setObject_track (s : State) (id : Nat) (o : Option MemObject) : (s.setObject id o).track = s.track := rfl
@[simp] theorem State.setObject_solv (s : State) (id : Nat) (o : Option MemObject) : (s.setObject id o).solv = s.solv := rfl
@[simp] theorem State.setObject_clsA (s : State) (id : Nat) (o : Option MemObject) : (s.setObject id o).clsA = s.clsA := rfl
@[simp] theorem State.setObject_window (s : State) (id : Nat) (o : Option MemObject) : (s.setObject id o).window = s.window := rfl
@[simp] theorem State.setObject_map (s : State) (id : Nat) (o : Option MemObject) : (s.setObject id o).map = s.map := rfl
@[simp] theorem State.setObject_srch (s : State) (id : Nat) (o : Option MemObject) : (s.setObject id o).srch = s.srch := rfl
@[simp] theorem State.setObject_links (s : State) (id : Nat) (o : Option MemObject) : (s.setObject id o).links = s.links := rfl
@[simp] theorem State.setObject_power (s : State) (id : Nat) (o : Option MemObject) : (s.setObject id o).power = s.power := rfl
@[simp] theorem State.setObject_resets (s : State) (id : Nat) (o : Option MemObject) : (s.setObject id o).resets = s.resets := rfl
@[simp] theorem State.setObject_pins (s : State) (id : Nat) (o : Option MemObject) : (s.setObject id o).pins = s.pins := rfl
@[simp] theorem State.setObject_integ (s : State) (id : Nat) (o : Option MemObject) : (s.setObject id o).integ = s.integ := rfl
@[simp] theorem State.setObject_pending (s : State) (id : Nat) (o : Option MemObject) : (s.setObject id o).pending = s.pending := rfl

@[simp] theorem State.setMemBytes_regs (s : State) (id off : Nat) (l : List Byte) : (s.setMemBytes id off l).regs = s.regs := rfl
@[simp] theorem State.setMemBytes_shadow (s : State) (id off : Nat) (l : List Byte) : (s.setMemBytes id off l).shadow = s.shadow := rfl
@[simp] theorem State.setMemBytes_fresh (s : State) (id off : Nat) (l : List Byte) : (s.setMemBytes id off l).fresh = s.fresh := rfl
@[simp] theorem State.setMemBytes_out (s : State) (id off : Nat) (l : List Byte) : (s.setMemBytes id off l).out = s.out := rfl
@[simp] theorem State.setMemBytes_ports (s : State) (id off : Nat) (l : List Byte) : (s.setMemBytes id off l).ports = s.ports := rfl
@[simp] theorem State.setMemBytes_sw (s : State) (id off : Nat) (l : List Byte) : (s.setMemBytes id off l).sw = s.sw := rfl
@[simp] theorem State.setMemBytes_cast (s : State) (id off : Nat) (l : List Byte) : (s.setMemBytes id off l).cast = s.cast := rfl
@[simp] theorem State.setMemBytes_loop (s : State) (id off : Nat) (l : List Byte) : (s.setMemBytes id off l).loop = s.loop := rfl
@[simp] theorem State.setMemBytes_time (s : State) (id off : Nat) (l : List Byte) : (s.setMemBytes id off l).time = s.time := rfl
@[simp] theorem State.setMemBytes_eth (s : State) (id off : Nat) (l : List Byte) : (s.setMemBytes id off l).eth = s.eth := rfl
@[simp] theorem State.setMemBytes_timers (s : State) (id off : Nat) (l : List Byte) : (s.setMemBytes id off l).timers = s.timers := rfl
@[simp] theorem State.setMemBytes_sram (s : State) (id off : Nat) (l : List Byte) : (s.setMemBytes id off l).sram = s.sram := rfl
@[simp] theorem State.setMemBytes_sramLen (s : State) (id off : Nat) (l : List Byte) : (s.setMemBytes id off l).sramLen = s.sramLen := rfl
@[simp] theorem State.setMemBytes_sramBad (s : State) (id off : Nat) (l : List Byte) : (s.setMemBytes id off l).sramBad = s.sramBad := rfl
@[simp] theorem State.setMemBytes_vis (s : State) (id off : Nat) (l : List Byte) : (s.setMemBytes id off l).vis = s.vis := rfl
@[simp] theorem State.setMemBytes_mem (s : State) (id off : Nat) (l : List Byte) : (s.setMemBytes id off l).mem = { s.mem with bytes := Store.setMany 0 s.mem.bytes (memKey id off) l } := rfl
@[simp] theorem State.setMemBytes_neural (s : State) (id off : Nat) (l : List Byte) : (s.setMemBytes id off l).neural = s.neural := rfl
@[simp] theorem State.setMemBytes_track (s : State) (id off : Nat) (l : List Byte) : (s.setMemBytes id off l).track = s.track := rfl
@[simp] theorem State.setMemBytes_solv (s : State) (id off : Nat) (l : List Byte) : (s.setMemBytes id off l).solv = s.solv := rfl
@[simp] theorem State.setMemBytes_clsA (s : State) (id off : Nat) (l : List Byte) : (s.setMemBytes id off l).clsA = s.clsA := rfl
@[simp] theorem State.setMemBytes_window (s : State) (id off : Nat) (l : List Byte) : (s.setMemBytes id off l).window = s.window := rfl
@[simp] theorem State.setMemBytes_map (s : State) (id off : Nat) (l : List Byte) : (s.setMemBytes id off l).map = s.map := rfl
@[simp] theorem State.setMemBytes_srch (s : State) (id off : Nat) (l : List Byte) : (s.setMemBytes id off l).srch = s.srch := rfl
@[simp] theorem State.setMemBytes_links (s : State) (id off : Nat) (l : List Byte) : (s.setMemBytes id off l).links = s.links := rfl
@[simp] theorem State.setMemBytes_power (s : State) (id off : Nat) (l : List Byte) : (s.setMemBytes id off l).power = s.power := rfl
@[simp] theorem State.setMemBytes_resets (s : State) (id off : Nat) (l : List Byte) : (s.setMemBytes id off l).resets = s.resets := rfl
@[simp] theorem State.setMemBytes_pins (s : State) (id off : Nat) (l : List Byte) : (s.setMemBytes id off l).pins = s.pins := rfl
@[simp] theorem State.setMemBytes_integ (s : State) (id off : Nat) (l : List Byte) : (s.setMemBytes id off l).integ = s.integ := rfl
@[simp] theorem State.setMemBytes_pending (s : State) (id off : Nat) (l : List Byte) : (s.setMemBytes id off l).pending = s.pending := rfl

@[simp] theorem State.setMac_regs (s : State) (m : Nat) (p : EthPort) : (s.setMac m p).regs = s.regs := rfl
@[simp] theorem State.setMac_shadow (s : State) (m : Nat) (p : EthPort) : (s.setMac m p).shadow = s.shadow := rfl
@[simp] theorem State.setMac_fresh (s : State) (m : Nat) (p : EthPort) : (s.setMac m p).fresh = s.fresh := rfl
@[simp] theorem State.setMac_out (s : State) (m : Nat) (p : EthPort) : (s.setMac m p).out = s.out := rfl
@[simp] theorem State.setMac_ports (s : State) (m : Nat) (p : EthPort) : (s.setMac m p).ports = s.ports := rfl
@[simp] theorem State.setMac_sw (s : State) (m : Nat) (p : EthPort) : (s.setMac m p).sw = s.sw := rfl
@[simp] theorem State.setMac_cast (s : State) (m : Nat) (p : EthPort) : (s.setMac m p).cast = s.cast := rfl
@[simp] theorem State.setMac_loop (s : State) (m : Nat) (p : EthPort) : (s.setMac m p).loop = s.loop := rfl
@[simp] theorem State.setMac_time (s : State) (m : Nat) (p : EthPort) : (s.setMac m p).time = s.time := rfl
@[simp] theorem State.setMac_eth (s : State) (m : Nat) (p : EthPort) : (s.setMac m p).eth = Store.set EthPort.idle s.eth m p := rfl
@[simp] theorem State.setMac_timers (s : State) (m : Nat) (p : EthPort) : (s.setMac m p).timers = s.timers := rfl
@[simp] theorem State.setMac_sram (s : State) (m : Nat) (p : EthPort) : (s.setMac m p).sram = s.sram := rfl
@[simp] theorem State.setMac_sramLen (s : State) (m : Nat) (p : EthPort) : (s.setMac m p).sramLen = s.sramLen := rfl
@[simp] theorem State.setMac_sramBad (s : State) (m : Nat) (p : EthPort) : (s.setMac m p).sramBad = s.sramBad := rfl
@[simp] theorem State.setMac_vis (s : State) (m : Nat) (p : EthPort) : (s.setMac m p).vis = s.vis := rfl
@[simp] theorem State.setMac_mem (s : State) (m : Nat) (p : EthPort) : (s.setMac m p).mem = s.mem := rfl
@[simp] theorem State.setMac_neural (s : State) (m : Nat) (p : EthPort) : (s.setMac m p).neural = s.neural := rfl
@[simp] theorem State.setMac_track (s : State) (m : Nat) (p : EthPort) : (s.setMac m p).track = s.track := rfl
@[simp] theorem State.setMac_solv (s : State) (m : Nat) (p : EthPort) : (s.setMac m p).solv = s.solv := rfl
@[simp] theorem State.setMac_clsA (s : State) (m : Nat) (p : EthPort) : (s.setMac m p).clsA = s.clsA := rfl
@[simp] theorem State.setMac_window (s : State) (m : Nat) (p : EthPort) : (s.setMac m p).window = s.window := rfl
@[simp] theorem State.setMac_map (s : State) (m : Nat) (p : EthPort) : (s.setMac m p).map = s.map := rfl
@[simp] theorem State.setMac_srch (s : State) (m : Nat) (p : EthPort) : (s.setMac m p).srch = s.srch := rfl
@[simp] theorem State.setMac_links (s : State) (m : Nat) (p : EthPort) : (s.setMac m p).links = s.links := rfl
@[simp] theorem State.setMac_power (s : State) (m : Nat) (p : EthPort) : (s.setMac m p).power = s.power := rfl
@[simp] theorem State.setMac_resets (s : State) (m : Nat) (p : EthPort) : (s.setMac m p).resets = s.resets := rfl
@[simp] theorem State.setMac_pins (s : State) (m : Nat) (p : EthPort) : (s.setMac m p).pins = s.pins := rfl
@[simp] theorem State.setMac_integ (s : State) (m : Nat) (p : EthPort) : (s.setMac m p).integ = s.integ := rfl
@[simp] theorem State.setMac_pending (s : State) (m : Nat) (p : EthPort) : (s.setMac m p).pending = s.pending := rfl

@[simp] theorem State.setObjectTrack_regs (s : State) (slot : Nat) (v : ObjectTrack) : (s.setObjectTrack slot v).regs = s.regs := rfl
@[simp] theorem State.setObjectTrack_shadow (s : State) (slot : Nat) (v : ObjectTrack) : (s.setObjectTrack slot v).shadow = s.shadow := rfl
@[simp] theorem State.setObjectTrack_fresh (s : State) (slot : Nat) (v : ObjectTrack) : (s.setObjectTrack slot v).fresh = s.fresh := rfl
@[simp] theorem State.setObjectTrack_out (s : State) (slot : Nat) (v : ObjectTrack) : (s.setObjectTrack slot v).out = s.out := rfl
@[simp] theorem State.setObjectTrack_ports (s : State) (slot : Nat) (v : ObjectTrack) : (s.setObjectTrack slot v).ports = s.ports := rfl
@[simp] theorem State.setObjectTrack_sw (s : State) (slot : Nat) (v : ObjectTrack) : (s.setObjectTrack slot v).sw = s.sw := rfl
@[simp] theorem State.setObjectTrack_cast (s : State) (slot : Nat) (v : ObjectTrack) : (s.setObjectTrack slot v).cast = s.cast := rfl
@[simp] theorem State.setObjectTrack_loop (s : State) (slot : Nat) (v : ObjectTrack) : (s.setObjectTrack slot v).loop = s.loop := rfl
@[simp] theorem State.setObjectTrack_time (s : State) (slot : Nat) (v : ObjectTrack) : (s.setObjectTrack slot v).time = s.time := rfl
@[simp] theorem State.setObjectTrack_eth (s : State) (slot : Nat) (v : ObjectTrack) : (s.setObjectTrack slot v).eth = s.eth := rfl
@[simp] theorem State.setObjectTrack_timers (s : State) (slot : Nat) (v : ObjectTrack) : (s.setObjectTrack slot v).timers = s.timers := rfl
@[simp] theorem State.setObjectTrack_sram (s : State) (slot : Nat) (v : ObjectTrack) : (s.setObjectTrack slot v).sram = s.sram := rfl
@[simp] theorem State.setObjectTrack_sramLen (s : State) (slot : Nat) (v : ObjectTrack) : (s.setObjectTrack slot v).sramLen = s.sramLen := rfl
@[simp] theorem State.setObjectTrack_sramBad (s : State) (slot : Nat) (v : ObjectTrack) : (s.setObjectTrack slot v).sramBad = s.sramBad := rfl
@[simp] theorem State.setObjectTrack_vis (s : State) (slot : Nat) (v : ObjectTrack) : (s.setObjectTrack slot v).vis = s.vis := rfl
@[simp] theorem State.setObjectTrack_mem (s : State) (slot : Nat) (v : ObjectTrack) : (s.setObjectTrack slot v).mem = s.mem := rfl
@[simp] theorem State.setObjectTrack_neural (s : State) (slot : Nat) (v : ObjectTrack) : (s.setObjectTrack slot v).neural = s.neural := rfl
@[simp] theorem State.setObjectTrack_track (s : State) (slot : Nat) (v : ObjectTrack) : (s.setObjectTrack slot v).track = { s.track with objects := Store.set ObjectTrack.reset s.track.objects slot v } := rfl
@[simp] theorem State.setObjectTrack_solv (s : State) (slot : Nat) (v : ObjectTrack) : (s.setObjectTrack slot v).solv = s.solv := rfl
@[simp] theorem State.setObjectTrack_clsA (s : State) (slot : Nat) (v : ObjectTrack) : (s.setObjectTrack slot v).clsA = s.clsA := rfl
@[simp] theorem State.setObjectTrack_window (s : State) (slot : Nat) (v : ObjectTrack) : (s.setObjectTrack slot v).window = s.window := rfl
@[simp] theorem State.setObjectTrack_map (s : State) (slot : Nat) (v : ObjectTrack) : (s.setObjectTrack slot v).map = s.map := rfl
@[simp] theorem State.setObjectTrack_srch (s : State) (slot : Nat) (v : ObjectTrack) : (s.setObjectTrack slot v).srch = s.srch := rfl
@[simp] theorem State.setObjectTrack_links (s : State) (slot : Nat) (v : ObjectTrack) : (s.setObjectTrack slot v).links = s.links := rfl
@[simp] theorem State.setObjectTrack_power (s : State) (slot : Nat) (v : ObjectTrack) : (s.setObjectTrack slot v).power = s.power := rfl
@[simp] theorem State.setObjectTrack_resets (s : State) (slot : Nat) (v : ObjectTrack) : (s.setObjectTrack slot v).resets = s.resets := rfl
@[simp] theorem State.setObjectTrack_pins (s : State) (slot : Nat) (v : ObjectTrack) : (s.setObjectTrack slot v).pins = s.pins := rfl
@[simp] theorem State.setObjectTrack_integ (s : State) (slot : Nat) (v : ObjectTrack) : (s.setObjectTrack slot v).integ = s.integ := rfl
@[simp] theorem State.setObjectTrack_pending (s : State) (slot : Nat) (v : ObjectTrack) : (s.setObjectTrack slot v).pending = s.pending := rfl

@[simp] theorem State.setObjBytes_regs (s : State) (swatch object offset : Nat) (l : List Byte) : (s.setObjBytes swatch object offset l).regs = s.regs := rfl
@[simp] theorem State.setObjBytes_shadow (s : State) (swatch object offset : Nat) (l : List Byte) : (s.setObjBytes swatch object offset l).shadow = s.shadow := rfl
@[simp] theorem State.setObjBytes_fresh (s : State) (swatch object offset : Nat) (l : List Byte) : (s.setObjBytes swatch object offset l).fresh = s.fresh := rfl
@[simp] theorem State.setObjBytes_out (s : State) (swatch object offset : Nat) (l : List Byte) : (s.setObjBytes swatch object offset l).out = s.out := rfl
@[simp] theorem State.setObjBytes_ports (s : State) (swatch object offset : Nat) (l : List Byte) : (s.setObjBytes swatch object offset l).ports = s.ports := rfl
@[simp] theorem State.setObjBytes_sw (s : State) (swatch object offset : Nat) (l : List Byte) : (s.setObjBytes swatch object offset l).sw = s.sw := rfl
@[simp] theorem State.setObjBytes_cast (s : State) (swatch object offset : Nat) (l : List Byte) : (s.setObjBytes swatch object offset l).cast = s.cast := rfl
@[simp] theorem State.setObjBytes_loop (s : State) (swatch object offset : Nat) (l : List Byte) : (s.setObjBytes swatch object offset l).loop = s.loop := rfl
@[simp] theorem State.setObjBytes_time (s : State) (swatch object offset : Nat) (l : List Byte) : (s.setObjBytes swatch object offset l).time = s.time := rfl
@[simp] theorem State.setObjBytes_eth (s : State) (swatch object offset : Nat) (l : List Byte) : (s.setObjBytes swatch object offset l).eth = s.eth := rfl
@[simp] theorem State.setObjBytes_timers (s : State) (swatch object offset : Nat) (l : List Byte) : (s.setObjBytes swatch object offset l).timers = s.timers := rfl
@[simp] theorem State.setObjBytes_sramLen (s : State) (swatch object offset : Nat) (l : List Byte) : (s.setObjBytes swatch object offset l).sramLen = s.sramLen := rfl
@[simp] theorem State.setObjBytes_vis (s : State) (swatch object offset : Nat) (l : List Byte) : (s.setObjBytes swatch object offset l).vis = s.vis := rfl
@[simp] theorem State.setObjBytes_mem (s : State) (swatch object offset : Nat) (l : List Byte) : (s.setObjBytes swatch object offset l).mem = s.mem := rfl
@[simp] theorem State.setObjBytes_neural (s : State) (swatch object offset : Nat) (l : List Byte) : (s.setObjBytes swatch object offset l).neural = s.neural := rfl
@[simp] theorem State.setObjBytes_track (s : State) (swatch object offset : Nat) (l : List Byte) : (s.setObjBytes swatch object offset l).track = s.track := rfl
@[simp] theorem State.setObjBytes_solv (s : State) (swatch object offset : Nat) (l : List Byte) : (s.setObjBytes swatch object offset l).solv = s.solv := rfl
@[simp] theorem State.setObjBytes_clsA (s : State) (swatch object offset : Nat) (l : List Byte) : (s.setObjBytes swatch object offset l).clsA = s.clsA := rfl
@[simp] theorem State.setObjBytes_window (s : State) (swatch object offset : Nat) (l : List Byte) : (s.setObjBytes swatch object offset l).window = s.window := rfl
@[simp] theorem State.setObjBytes_map (s : State) (swatch object offset : Nat) (l : List Byte) : (s.setObjBytes swatch object offset l).map = s.map := rfl
@[simp] theorem State.setObjBytes_srch (s : State) (swatch object offset : Nat) (l : List Byte) : (s.setObjBytes swatch object offset l).srch = s.srch := rfl
@[simp] theorem State.setObjBytes_links (s : State) (swatch object offset : Nat) (l : List Byte) : (s.setObjBytes swatch object offset l).links = s.links := rfl
@[simp] theorem State.setObjBytes_power (s : State) (swatch object offset : Nat) (l : List Byte) : (s.setObjBytes swatch object offset l).power = s.power := rfl
@[simp] theorem State.setObjBytes_resets (s : State) (swatch object offset : Nat) (l : List Byte) : (s.setObjBytes swatch object offset l).resets = s.resets := rfl
@[simp] theorem State.setObjBytes_pins (s : State) (swatch object offset : Nat) (l : List Byte) : (s.setObjBytes swatch object offset l).pins = s.pins := rfl
@[simp] theorem State.setObjBytes_integ (s : State) (swatch object offset : Nat) (l : List Byte) : (s.setObjBytes swatch object offset l).integ = s.integ := rfl
@[simp] theorem State.setObjBytes_pending (s : State) (swatch object offset : Nat) (l : List Byte) : (s.setObjBytes swatch object offset l).pending = s.pending := rfl

@[simp] theorem State.setTx_regs (s : State) (t : Nat) (v : TxStream) : (s.setTx t v).regs = s.regs := rfl
@[simp] theorem State.setTx_shadow (s : State) (t : Nat) (v : TxStream) : (s.setTx t v).shadow = s.shadow := rfl
@[simp] theorem State.setTx_fresh (s : State) (t : Nat) (v : TxStream) : (s.setTx t v).fresh = s.fresh := rfl
@[simp] theorem State.setTx_out (s : State) (t : Nat) (v : TxStream) : (s.setTx t v).out = s.out := rfl
@[simp] theorem State.setTx_ports (s : State) (t : Nat) (v : TxStream) : (s.setTx t v).ports = s.ports := rfl
@[simp] theorem State.setTx_sw (s : State) (t : Nat) (v : TxStream) : (s.setTx t v).sw = s.sw := rfl
@[simp] theorem State.setTx_cast (s : State) (t : Nat) (v : TxStream) : (s.setTx t v).cast = s.cast := rfl
@[simp] theorem State.setTx_loop (s : State) (t : Nat) (v : TxStream) : (s.setTx t v).loop = s.loop := rfl
@[simp] theorem State.setTx_time (s : State) (t : Nat) (v : TxStream) : (s.setTx t v).time = s.time := rfl
@[simp] theorem State.setTx_eth (s : State) (t : Nat) (v : TxStream) : (s.setTx t v).eth = s.eth := rfl
@[simp] theorem State.setTx_timers (s : State) (t : Nat) (v : TxStream) : (s.setTx t v).timers = s.timers := rfl
@[simp] theorem State.setTx_sram (s : State) (t : Nat) (v : TxStream) : (s.setTx t v).sram = s.sram := rfl
@[simp] theorem State.setTx_sramLen (s : State) (t : Nat) (v : TxStream) : (s.setTx t v).sramLen = s.sramLen := rfl
@[simp] theorem State.setTx_sramBad (s : State) (t : Nat) (v : TxStream) : (s.setTx t v).sramBad = s.sramBad := rfl
@[simp] theorem State.setTx_vis (s : State) (t : Nat) (v : TxStream) : (s.setTx t v).vis = s.vis := rfl
@[simp] theorem State.setTx_mem (s : State) (t : Nat) (v : TxStream) : (s.setTx t v).mem = s.mem := rfl
@[simp] theorem State.setTx_neural (s : State) (t : Nat) (v : TxStream) : (s.setTx t v).neural = s.neural := rfl
@[simp] theorem State.setTx_track (s : State) (t : Nat) (v : TxStream) : (s.setTx t v).track = s.track := rfl
@[simp] theorem State.setTx_solv (s : State) (t : Nat) (v : TxStream) : (s.setTx t v).solv = s.solv := rfl
@[simp] theorem State.setTx_clsA (s : State) (t : Nat) (v : TxStream) : (s.setTx t v).clsA = s.clsA := rfl
@[simp] theorem State.setTx_window (s : State) (t : Nat) (v : TxStream) : (s.setTx t v).window = s.window := rfl
@[simp] theorem State.setTx_map (s : State) (t : Nat) (v : TxStream) : (s.setTx t v).map = s.map := rfl
@[simp] theorem State.setTx_srch (s : State) (t : Nat) (v : TxStream) : (s.setTx t v).srch = s.srch := rfl
@[simp] theorem State.setTx_links (s : State) (t : Nat) (v : TxStream) : (s.setTx t v).links = { s.links with streams := Store.set TxStream.idle s.links.streams t v } := rfl
@[simp] theorem State.setTx_power (s : State) (t : Nat) (v : TxStream) : (s.setTx t v).power = s.power := rfl
@[simp] theorem State.setTx_resets (s : State) (t : Nat) (v : TxStream) : (s.setTx t v).resets = s.resets := rfl
@[simp] theorem State.setTx_pins (s : State) (t : Nat) (v : TxStream) : (s.setTx t v).pins = s.pins := rfl
@[simp] theorem State.setTx_integ (s : State) (t : Nat) (v : TxStream) : (s.setTx t v).integ = s.integ := rfl
@[simp] theorem State.setTx_pending (s : State) (t : Nat) (v : TxStream) : (s.setTx t v).pending = s.pending := rfl

@[simp] theorem State.setReg_regs (s : State) (a : Nat) (w : Word) : (s.setReg a w).regs = Store.set 0 s.regs a (resetAt a ^^^ w) := rfl
@[simp] theorem State.setReg_shadow (s : State) (a : Nat) (w : Word) : (s.setReg a w).shadow = s.shadow := rfl
@[simp] theorem State.setReg_fresh (s : State) (a : Nat) (w : Word) : (s.setReg a w).fresh = s.fresh := rfl
@[simp] theorem State.setReg_out (s : State) (a : Nat) (w : Word) : (s.setReg a w).out = s.out := rfl
@[simp] theorem State.setReg_ports (s : State) (a : Nat) (w : Word) : (s.setReg a w).ports = s.ports := rfl
@[simp] theorem State.setReg_sw (s : State) (a : Nat) (w : Word) : (s.setReg a w).sw = s.sw := rfl
@[simp] theorem State.setReg_cast (s : State) (a : Nat) (w : Word) : (s.setReg a w).cast = s.cast := rfl
@[simp] theorem State.setReg_loop (s : State) (a : Nat) (w : Word) : (s.setReg a w).loop = s.loop := rfl
@[simp] theorem State.setReg_time (s : State) (a : Nat) (w : Word) : (s.setReg a w).time = s.time := rfl
@[simp] theorem State.setReg_eth (s : State) (a : Nat) (w : Word) : (s.setReg a w).eth = s.eth := rfl
@[simp] theorem State.setReg_timers (s : State) (a : Nat) (w : Word) : (s.setReg a w).timers = s.timers := rfl
@[simp] theorem State.setReg_sram (s : State) (a : Nat) (w : Word) : (s.setReg a w).sram = s.sram := rfl
@[simp] theorem State.setReg_sramLen (s : State) (a : Nat) (w : Word) : (s.setReg a w).sramLen = s.sramLen := rfl
@[simp] theorem State.setReg_sramBad (s : State) (a : Nat) (w : Word) : (s.setReg a w).sramBad = s.sramBad := rfl
@[simp] theorem State.setReg_vis (s : State) (a : Nat) (w : Word) : (s.setReg a w).vis = s.vis := rfl
@[simp] theorem State.setReg_mem (s : State) (a : Nat) (w : Word) : (s.setReg a w).mem = s.mem := rfl
@[simp] theorem State.setReg_neural (s : State) (a : Nat) (w : Word) : (s.setReg a w).neural = s.neural := rfl
@[simp] theorem State.setReg_track (s : State) (a : Nat) (w : Word) : (s.setReg a w).track = s.track := rfl
@[simp] theorem State.setReg_solv (s : State) (a : Nat) (w : Word) : (s.setReg a w).solv = s.solv := rfl
@[simp] theorem State.setReg_clsA (s : State) (a : Nat) (w : Word) : (s.setReg a w).clsA = s.clsA := rfl
@[simp] theorem State.setReg_window (s : State) (a : Nat) (w : Word) : (s.setReg a w).window = s.window := rfl
@[simp] theorem State.setReg_map (s : State) (a : Nat) (w : Word) : (s.setReg a w).map = s.map := rfl
@[simp] theorem State.setReg_srch (s : State) (a : Nat) (w : Word) : (s.setReg a w).srch = s.srch := rfl
@[simp] theorem State.setReg_links (s : State) (a : Nat) (w : Word) : (s.setReg a w).links = s.links := rfl
@[simp] theorem State.setReg_power (s : State) (a : Nat) (w : Word) : (s.setReg a w).power = s.power := rfl
@[simp] theorem State.setReg_resets (s : State) (a : Nat) (w : Word) : (s.setReg a w).resets = s.resets := rfl
@[simp] theorem State.setReg_pins (s : State) (a : Nat) (w : Word) : (s.setReg a w).pins = s.pins := rfl
@[simp] theorem State.setReg_integ (s : State) (a : Nat) (w : Word) : (s.setReg a w).integ = s.integ := rfl
@[simp] theorem State.setReg_pending (s : State) (a : Nat) (w : Word) : (s.setReg a w).pending = s.pending := rfl

@[simp] theorem State.setFld_shadow (s : State) (f : Fld) (v : Nat) : (s.setFld f v).shadow = s.shadow := rfl
@[simp] theorem State.setFld_fresh (s : State) (f : Fld) (v : Nat) : (s.setFld f v).fresh = s.fresh := rfl
@[simp] theorem State.setFld_out (s : State) (f : Fld) (v : Nat) : (s.setFld f v).out = s.out := rfl
@[simp] theorem State.setFld_ports (s : State) (f : Fld) (v : Nat) : (s.setFld f v).ports = s.ports := rfl
@[simp] theorem State.setFld_sw (s : State) (f : Fld) (v : Nat) : (s.setFld f v).sw = s.sw := rfl
@[simp] theorem State.setFld_cast (s : State) (f : Fld) (v : Nat) : (s.setFld f v).cast = s.cast := rfl
@[simp] theorem State.setFld_loop (s : State) (f : Fld) (v : Nat) : (s.setFld f v).loop = s.loop := rfl
@[simp] theorem State.setFld_time (s : State) (f : Fld) (v : Nat) : (s.setFld f v).time = s.time := rfl
@[simp] theorem State.setFld_eth (s : State) (f : Fld) (v : Nat) : (s.setFld f v).eth = s.eth := rfl
@[simp] theorem State.setFld_timers (s : State) (f : Fld) (v : Nat) : (s.setFld f v).timers = s.timers := rfl
@[simp] theorem State.setFld_sram (s : State) (f : Fld) (v : Nat) : (s.setFld f v).sram = s.sram := rfl
@[simp] theorem State.setFld_sramLen (s : State) (f : Fld) (v : Nat) : (s.setFld f v).sramLen = s.sramLen := rfl
@[simp] theorem State.setFld_sramBad (s : State) (f : Fld) (v : Nat) : (s.setFld f v).sramBad = s.sramBad := rfl
@[simp] theorem State.setFld_vis (s : State) (f : Fld) (v : Nat) : (s.setFld f v).vis = s.vis := rfl
@[simp] theorem State.setFld_mem (s : State) (f : Fld) (v : Nat) : (s.setFld f v).mem = s.mem := rfl
@[simp] theorem State.setFld_neural (s : State) (f : Fld) (v : Nat) : (s.setFld f v).neural = s.neural := rfl
@[simp] theorem State.setFld_track (s : State) (f : Fld) (v : Nat) : (s.setFld f v).track = s.track := rfl
@[simp] theorem State.setFld_solv (s : State) (f : Fld) (v : Nat) : (s.setFld f v).solv = s.solv := rfl
@[simp] theorem State.setFld_clsA (s : State) (f : Fld) (v : Nat) : (s.setFld f v).clsA = s.clsA := rfl
@[simp] theorem State.setFld_window (s : State) (f : Fld) (v : Nat) : (s.setFld f v).window = s.window := rfl
@[simp] theorem State.setFld_map (s : State) (f : Fld) (v : Nat) : (s.setFld f v).map = s.map := rfl
@[simp] theorem State.setFld_srch (s : State) (f : Fld) (v : Nat) : (s.setFld f v).srch = s.srch := rfl
@[simp] theorem State.setFld_links (s : State) (f : Fld) (v : Nat) : (s.setFld f v).links = s.links := rfl
@[simp] theorem State.setFld_power (s : State) (f : Fld) (v : Nat) : (s.setFld f v).power = s.power := rfl
@[simp] theorem State.setFld_resets (s : State) (f : Fld) (v : Nat) : (s.setFld f v).resets = s.resets := rfl
@[simp] theorem State.setFld_pins (s : State) (f : Fld) (v : Nat) : (s.setFld f v).pins = s.pins := rfl
@[simp] theorem State.setFld_integ (s : State) (f : Fld) (v : Nat) : (s.setFld f v).integ = s.integ := rfl
@[simp] theorem State.setFld_pending (s : State) (f : Fld) (v : Nat) : (s.setFld f v).pending = s.pending := rfl

@[simp] theorem State.setFlag_shadow (s : State) (f : Fld) (b : Bool) : (s.setFlag f b).shadow = s.shadow := rfl
@[simp] theorem State.setFlag_fresh (s : State) (f : Fld) (b : Bool) : (s.setFlag f b).fresh = s.fresh := rfl
@[simp] theorem State.setFlag_out (s : State) (f : Fld) (b : Bool) : (s.setFlag f b).out = s.out := rfl
@[simp] theorem State.setFlag_ports (s : State) (f : Fld) (b : Bool) : (s.setFlag f b).ports = s.ports := rfl
@[simp] theorem State.setFlag_sw (s : State) (f : Fld) (b : Bool) : (s.setFlag f b).sw = s.sw := rfl
@[simp] theorem State.setFlag_cast (s : State) (f : Fld) (b : Bool) : (s.setFlag f b).cast = s.cast := rfl
@[simp] theorem State.setFlag_loop (s : State) (f : Fld) (b : Bool) : (s.setFlag f b).loop = s.loop := rfl
@[simp] theorem State.setFlag_time (s : State) (f : Fld) (b : Bool) : (s.setFlag f b).time = s.time := rfl
@[simp] theorem State.setFlag_eth (s : State) (f : Fld) (b : Bool) : (s.setFlag f b).eth = s.eth := rfl
@[simp] theorem State.setFlag_timers (s : State) (f : Fld) (b : Bool) : (s.setFlag f b).timers = s.timers := rfl
@[simp] theorem State.setFlag_sram (s : State) (f : Fld) (b : Bool) : (s.setFlag f b).sram = s.sram := rfl
@[simp] theorem State.setFlag_sramLen (s : State) (f : Fld) (b : Bool) : (s.setFlag f b).sramLen = s.sramLen := rfl
@[simp] theorem State.setFlag_sramBad (s : State) (f : Fld) (b : Bool) : (s.setFlag f b).sramBad = s.sramBad := rfl
@[simp] theorem State.setFlag_vis (s : State) (f : Fld) (b : Bool) : (s.setFlag f b).vis = s.vis := rfl
@[simp] theorem State.setFlag_mem (s : State) (f : Fld) (b : Bool) : (s.setFlag f b).mem = s.mem := rfl
@[simp] theorem State.setFlag_neural (s : State) (f : Fld) (b : Bool) : (s.setFlag f b).neural = s.neural := rfl
@[simp] theorem State.setFlag_track (s : State) (f : Fld) (b : Bool) : (s.setFlag f b).track = s.track := rfl
@[simp] theorem State.setFlag_solv (s : State) (f : Fld) (b : Bool) : (s.setFlag f b).solv = s.solv := rfl
@[simp] theorem State.setFlag_clsA (s : State) (f : Fld) (b : Bool) : (s.setFlag f b).clsA = s.clsA := rfl
@[simp] theorem State.setFlag_window (s : State) (f : Fld) (b : Bool) : (s.setFlag f b).window = s.window := rfl
@[simp] theorem State.setFlag_map (s : State) (f : Fld) (b : Bool) : (s.setFlag f b).map = s.map := rfl
@[simp] theorem State.setFlag_srch (s : State) (f : Fld) (b : Bool) : (s.setFlag f b).srch = s.srch := rfl
@[simp] theorem State.setFlag_links (s : State) (f : Fld) (b : Bool) : (s.setFlag f b).links = s.links := rfl
@[simp] theorem State.setFlag_power (s : State) (f : Fld) (b : Bool) : (s.setFlag f b).power = s.power := rfl
@[simp] theorem State.setFlag_resets (s : State) (f : Fld) (b : Bool) : (s.setFlag f b).resets = s.resets := rfl
@[simp] theorem State.setFlag_pins (s : State) (f : Fld) (b : Bool) : (s.setFlag f b).pins = s.pins := rfl
@[simp] theorem State.setFlag_integ (s : State) (f : Fld) (b : Bool) : (s.setFlag f b).integ = s.integ := rfl
@[simp] theorem State.setFlag_pending (s : State) (f : Fld) (b : Bool) : (s.setFlag f b).pending = s.pending := rfl

@[simp] theorem State.setPair_shadow (s : State) (a v : Nat) : (s.setPair a v).shadow = s.shadow := rfl
@[simp] theorem State.setPair_fresh (s : State) (a v : Nat) : (s.setPair a v).fresh = s.fresh := rfl
@[simp] theorem State.setPair_out (s : State) (a v : Nat) : (s.setPair a v).out = s.out := rfl
@[simp] theorem State.setPair_ports (s : State) (a v : Nat) : (s.setPair a v).ports = s.ports := rfl
@[simp] theorem State.setPair_sw (s : State) (a v : Nat) : (s.setPair a v).sw = s.sw := rfl
@[simp] theorem State.setPair_cast (s : State) (a v : Nat) : (s.setPair a v).cast = s.cast := rfl
@[simp] theorem State.setPair_loop (s : State) (a v : Nat) : (s.setPair a v).loop = s.loop := rfl
@[simp] theorem State.setPair_time (s : State) (a v : Nat) : (s.setPair a v).time = s.time := rfl
@[simp] theorem State.setPair_eth (s : State) (a v : Nat) : (s.setPair a v).eth = s.eth := rfl
@[simp] theorem State.setPair_timers (s : State) (a v : Nat) : (s.setPair a v).timers = s.timers := rfl
@[simp] theorem State.setPair_sram (s : State) (a v : Nat) : (s.setPair a v).sram = s.sram := rfl
@[simp] theorem State.setPair_sramLen (s : State) (a v : Nat) : (s.setPair a v).sramLen = s.sramLen := rfl
@[simp] theorem State.setPair_sramBad (s : State) (a v : Nat) : (s.setPair a v).sramBad = s.sramBad := rfl
@[simp] theorem State.setPair_vis (s : State) (a v : Nat) : (s.setPair a v).vis = s.vis := rfl
@[simp] theorem State.setPair_mem (s : State) (a v : Nat) : (s.setPair a v).mem = s.mem := rfl
@[simp] theorem State.setPair_neural (s : State) (a v : Nat) : (s.setPair a v).neural = s.neural := rfl
@[simp] theorem State.setPair_track (s : State) (a v : Nat) : (s.setPair a v).track = s.track := rfl
@[simp] theorem State.setPair_solv (s : State) (a v : Nat) : (s.setPair a v).solv = s.solv := rfl
@[simp] theorem State.setPair_clsA (s : State) (a v : Nat) : (s.setPair a v).clsA = s.clsA := rfl
@[simp] theorem State.setPair_window (s : State) (a v : Nat) : (s.setPair a v).window = s.window := rfl
@[simp] theorem State.setPair_map (s : State) (a v : Nat) : (s.setPair a v).map = s.map := rfl
@[simp] theorem State.setPair_srch (s : State) (a v : Nat) : (s.setPair a v).srch = s.srch := rfl
@[simp] theorem State.setPair_links (s : State) (a v : Nat) : (s.setPair a v).links = s.links := rfl
@[simp] theorem State.setPair_power (s : State) (a v : Nat) : (s.setPair a v).power = s.power := rfl
@[simp] theorem State.setPair_resets (s : State) (a v : Nat) : (s.setPair a v).resets = s.resets := rfl
@[simp] theorem State.setPair_pins (s : State) (a v : Nat) : (s.setPair a v).pins = s.pins := rfl
@[simp] theorem State.setPair_integ (s : State) (a v : Nat) : (s.setPair a v).integ = s.integ := rfl
@[simp] theorem State.setPair_pending (s : State) (a v : Nat) : (s.setPair a v).pending = s.pending := rfl

@[simp] theorem State.setPhase_shadow (s : State) (p : Nat) : (s.setPhase p).shadow = s.shadow := rfl
@[simp] theorem State.setPhase_fresh (s : State) (p : Nat) : (s.setPhase p).fresh = s.fresh := rfl
@[simp] theorem State.setPhase_out (s : State) (p : Nat) : (s.setPhase p).out = s.out := rfl
@[simp] theorem State.setPhase_ports (s : State) (p : Nat) : (s.setPhase p).ports = s.ports := rfl
@[simp] theorem State.setPhase_sw (s : State) (p : Nat) : (s.setPhase p).sw = s.sw := rfl
@[simp] theorem State.setPhase_cast (s : State) (p : Nat) : (s.setPhase p).cast = s.cast := rfl
@[simp] theorem State.setPhase_loop (s : State) (p : Nat) : (s.setPhase p).loop = s.loop := rfl
@[simp] theorem State.setPhase_time (s : State) (p : Nat) : (s.setPhase p).time = s.time := rfl
@[simp] theorem State.setPhase_eth (s : State) (p : Nat) : (s.setPhase p).eth = s.eth := rfl
@[simp] theorem State.setPhase_timers (s : State) (p : Nat) : (s.setPhase p).timers = s.timers := rfl
@[simp] theorem State.setPhase_sram (s : State) (p : Nat) : (s.setPhase p).sram = s.sram := rfl
@[simp] theorem State.setPhase_sramLen (s : State) (p : Nat) : (s.setPhase p).sramLen = s.sramLen := rfl
@[simp] theorem State.setPhase_sramBad (s : State) (p : Nat) : (s.setPhase p).sramBad = s.sramBad := rfl
@[simp] theorem State.setPhase_vis (s : State) (p : Nat) : (s.setPhase p).vis = s.vis := rfl
@[simp] theorem State.setPhase_mem (s : State) (p : Nat) : (s.setPhase p).mem = s.mem := rfl
@[simp] theorem State.setPhase_neural (s : State) (p : Nat) : (s.setPhase p).neural = s.neural := rfl
@[simp] theorem State.setPhase_track (s : State) (p : Nat) : (s.setPhase p).track = s.track := rfl
@[simp] theorem State.setPhase_solv (s : State) (p : Nat) : (s.setPhase p).solv = s.solv := rfl
@[simp] theorem State.setPhase_clsA (s : State) (p : Nat) : (s.setPhase p).clsA = s.clsA := rfl
@[simp] theorem State.setPhase_window (s : State) (p : Nat) : (s.setPhase p).window = s.window := rfl
@[simp] theorem State.setPhase_map (s : State) (p : Nat) : (s.setPhase p).map = s.map := rfl
@[simp] theorem State.setPhase_srch (s : State) (p : Nat) : (s.setPhase p).srch = s.srch := rfl
@[simp] theorem State.setPhase_links (s : State) (p : Nat) : (s.setPhase p).links = s.links := rfl
@[simp] theorem State.setPhase_power (s : State) (p : Nat) : (s.setPhase p).power = s.power := rfl
@[simp] theorem State.setPhase_resets (s : State) (p : Nat) : (s.setPhase p).resets = s.resets := rfl
@[simp] theorem State.setPhase_integ (s : State) (p : Nat) : (s.setPhase p).integ = s.integ := rfl
@[simp] theorem State.setPhase_pending (s : State) (p : Nat) : (s.setPhase p).pending = s.pending := rfl

@[simp] theorem State.setGroupPhase_regs (s : State) (g : Nat) (p : GroupPhase) : (s.setGroupPhase g p).regs = s.regs := rfl
@[simp] theorem State.setGroupPhase_shadow (s : State) (g : Nat) (p : GroupPhase) : (s.setGroupPhase g p).shadow = s.shadow := rfl
@[simp] theorem State.setGroupPhase_fresh (s : State) (g : Nat) (p : GroupPhase) : (s.setGroupPhase g p).fresh = s.fresh := rfl
@[simp] theorem State.setGroupPhase_out (s : State) (g : Nat) (p : GroupPhase) : (s.setGroupPhase g p).out = s.out := rfl
@[simp] theorem State.setGroupPhase_ports (s : State) (g : Nat) (p : GroupPhase) : (s.setGroupPhase g p).ports = s.ports := rfl
@[simp] theorem State.setGroupPhase_sw (s : State) (g : Nat) (p : GroupPhase) : (s.setGroupPhase g p).sw = { s.sw with phase := Store.set .running s.sw.phase g p } := rfl
@[simp] theorem State.setGroupPhase_cast (s : State) (g : Nat) (p : GroupPhase) : (s.setGroupPhase g p).cast = s.cast := rfl
@[simp] theorem State.setGroupPhase_loop (s : State) (g : Nat) (p : GroupPhase) : (s.setGroupPhase g p).loop = s.loop := rfl
@[simp] theorem State.setGroupPhase_time (s : State) (g : Nat) (p : GroupPhase) : (s.setGroupPhase g p).time = s.time := rfl
@[simp] theorem State.setGroupPhase_eth (s : State) (g : Nat) (p : GroupPhase) : (s.setGroupPhase g p).eth = s.eth := rfl
@[simp] theorem State.setGroupPhase_timers (s : State) (g : Nat) (p : GroupPhase) : (s.setGroupPhase g p).timers = s.timers := rfl
@[simp] theorem State.setGroupPhase_sram (s : State) (g : Nat) (p : GroupPhase) : (s.setGroupPhase g p).sram = s.sram := rfl
@[simp] theorem State.setGroupPhase_sramLen (s : State) (g : Nat) (p : GroupPhase) : (s.setGroupPhase g p).sramLen = s.sramLen := rfl
@[simp] theorem State.setGroupPhase_sramBad (s : State) (g : Nat) (p : GroupPhase) : (s.setGroupPhase g p).sramBad = s.sramBad := rfl
@[simp] theorem State.setGroupPhase_vis (s : State) (g : Nat) (p : GroupPhase) : (s.setGroupPhase g p).vis = s.vis := rfl
@[simp] theorem State.setGroupPhase_mem (s : State) (g : Nat) (p : GroupPhase) : (s.setGroupPhase g p).mem = s.mem := rfl
@[simp] theorem State.setGroupPhase_neural (s : State) (g : Nat) (p : GroupPhase) : (s.setGroupPhase g p).neural = s.neural := rfl
@[simp] theorem State.setGroupPhase_track (s : State) (g : Nat) (p : GroupPhase) : (s.setGroupPhase g p).track = s.track := rfl
@[simp] theorem State.setGroupPhase_solv (s : State) (g : Nat) (p : GroupPhase) : (s.setGroupPhase g p).solv = s.solv := rfl
@[simp] theorem State.setGroupPhase_clsA (s : State) (g : Nat) (p : GroupPhase) : (s.setGroupPhase g p).clsA = s.clsA := rfl
@[simp] theorem State.setGroupPhase_window (s : State) (g : Nat) (p : GroupPhase) : (s.setGroupPhase g p).window = s.window := rfl
@[simp] theorem State.setGroupPhase_map (s : State) (g : Nat) (p : GroupPhase) : (s.setGroupPhase g p).map = s.map := rfl
@[simp] theorem State.setGroupPhase_srch (s : State) (g : Nat) (p : GroupPhase) : (s.setGroupPhase g p).srch = s.srch := rfl
@[simp] theorem State.setGroupPhase_links (s : State) (g : Nat) (p : GroupPhase) : (s.setGroupPhase g p).links = s.links := rfl
@[simp] theorem State.setGroupPhase_power (s : State) (g : Nat) (p : GroupPhase) : (s.setGroupPhase g p).power = s.power := rfl
@[simp] theorem State.setGroupPhase_resets (s : State) (g : Nat) (p : GroupPhase) : (s.setGroupPhase g p).resets = s.resets := rfl
@[simp] theorem State.setGroupPhase_pins (s : State) (g : Nat) (p : GroupPhase) : (s.setGroupPhase g p).pins = s.pins := rfl
@[simp] theorem State.setGroupPhase_integ (s : State) (g : Nat) (p : GroupPhase) : (s.setGroupPhase g p).integ = s.integ := rfl
@[simp] theorem State.setGroupPhase_pending (s : State) (g : Nat) (p : GroupPhase) : (s.setGroupPhase g p).pending = s.pending := rfl

@[simp] theorem State.setInReset_regs (s : State) (l : List Nat) (b : Bool) : (s.setInReset l b).regs = s.regs := rfl
@[simp] theorem State.setInReset_shadow (s : State) (l : List Nat) (b : Bool) : (s.setInReset l b).shadow = s.shadow := rfl
@[simp] theorem State.setInReset_fresh (s : State) (l : List Nat) (b : Bool) : (s.setInReset l b).fresh = s.fresh := rfl
@[simp] theorem State.setInReset_out (s : State) (l : List Nat) (b : Bool) : (s.setInReset l b).out = s.out := rfl
@[simp] theorem State.setInReset_ports (s : State) (l : List Nat) (b : Bool) : (s.setInReset l b).ports = s.ports := rfl
@[simp] theorem State.setInReset_cast (s : State) (l : List Nat) (b : Bool) : (s.setInReset l b).cast = s.cast := rfl
@[simp] theorem State.setInReset_loop (s : State) (l : List Nat) (b : Bool) : (s.setInReset l b).loop = s.loop := rfl
@[simp] theorem State.setInReset_time (s : State) (l : List Nat) (b : Bool) : (s.setInReset l b).time = s.time := rfl
@[simp] theorem State.setInReset_eth (s : State) (l : List Nat) (b : Bool) : (s.setInReset l b).eth = s.eth := rfl
@[simp] theorem State.setInReset_timers (s : State) (l : List Nat) (b : Bool) : (s.setInReset l b).timers = s.timers := rfl
@[simp] theorem State.setInReset_sram (s : State) (l : List Nat) (b : Bool) : (s.setInReset l b).sram = s.sram := rfl
@[simp] theorem State.setInReset_sramLen (s : State) (l : List Nat) (b : Bool) : (s.setInReset l b).sramLen = s.sramLen := rfl
@[simp] theorem State.setInReset_sramBad (s : State) (l : List Nat) (b : Bool) : (s.setInReset l b).sramBad = s.sramBad := rfl
@[simp] theorem State.setInReset_vis (s : State) (l : List Nat) (b : Bool) : (s.setInReset l b).vis = s.vis := rfl
@[simp] theorem State.setInReset_mem (s : State) (l : List Nat) (b : Bool) : (s.setInReset l b).mem = s.mem := rfl
@[simp] theorem State.setInReset_neural (s : State) (l : List Nat) (b : Bool) : (s.setInReset l b).neural = s.neural := rfl
@[simp] theorem State.setInReset_track (s : State) (l : List Nat) (b : Bool) : (s.setInReset l b).track = s.track := rfl
@[simp] theorem State.setInReset_solv (s : State) (l : List Nat) (b : Bool) : (s.setInReset l b).solv = s.solv := rfl
@[simp] theorem State.setInReset_clsA (s : State) (l : List Nat) (b : Bool) : (s.setInReset l b).clsA = s.clsA := rfl
@[simp] theorem State.setInReset_window (s : State) (l : List Nat) (b : Bool) : (s.setInReset l b).window = s.window := rfl
@[simp] theorem State.setInReset_map (s : State) (l : List Nat) (b : Bool) : (s.setInReset l b).map = s.map := rfl
@[simp] theorem State.setInReset_srch (s : State) (l : List Nat) (b : Bool) : (s.setInReset l b).srch = s.srch := rfl
@[simp] theorem State.setInReset_links (s : State) (l : List Nat) (b : Bool) : (s.setInReset l b).links = s.links := rfl
@[simp] theorem State.setInReset_power (s : State) (l : List Nat) (b : Bool) : (s.setInReset l b).power = s.power := rfl
@[simp] theorem State.setInReset_resets (s : State) (l : List Nat) (b : Bool) : (s.setInReset l b).resets = s.resets := rfl
@[simp] theorem State.setInReset_pins (s : State) (l : List Nat) (b : Bool) : (s.setInReset l b).pins = s.pins := rfl
@[simp] theorem State.setInReset_integ (s : State) (l : List Nat) (b : Bool) : (s.setInReset l b).integ = s.integ := rfl
@[simp] theorem State.setInReset_pending (s : State) (l : List Nat) (b : Bool) : (s.setInReset l b).pending = s.pending := rfl

@[simp] theorem State.setGated_regs (s : State) (l : List Nat) (b : Bool) : (s.setGated l b).regs = s.regs := rfl
@[simp] theorem State.setGated_shadow (s : State) (l : List Nat) (b : Bool) : (s.setGated l b).shadow = s.shadow := rfl
@[simp] theorem State.setGated_fresh (s : State) (l : List Nat) (b : Bool) : (s.setGated l b).fresh = s.fresh := rfl
@[simp] theorem State.setGated_out (s : State) (l : List Nat) (b : Bool) : (s.setGated l b).out = s.out := rfl
@[simp] theorem State.setGated_ports (s : State) (l : List Nat) (b : Bool) : (s.setGated l b).ports = s.ports := rfl
@[simp] theorem State.setGated_cast (s : State) (l : List Nat) (b : Bool) : (s.setGated l b).cast = s.cast := rfl
@[simp] theorem State.setGated_loop (s : State) (l : List Nat) (b : Bool) : (s.setGated l b).loop = s.loop := rfl
@[simp] theorem State.setGated_time (s : State) (l : List Nat) (b : Bool) : (s.setGated l b).time = s.time := rfl
@[simp] theorem State.setGated_eth (s : State) (l : List Nat) (b : Bool) : (s.setGated l b).eth = s.eth := rfl
@[simp] theorem State.setGated_timers (s : State) (l : List Nat) (b : Bool) : (s.setGated l b).timers = s.timers := rfl
@[simp] theorem State.setGated_sram (s : State) (l : List Nat) (b : Bool) : (s.setGated l b).sram = s.sram := rfl
@[simp] theorem State.setGated_sramLen (s : State) (l : List Nat) (b : Bool) : (s.setGated l b).sramLen = s.sramLen := rfl
@[simp] theorem State.setGated_sramBad (s : State) (l : List Nat) (b : Bool) : (s.setGated l b).sramBad = s.sramBad := rfl
@[simp] theorem State.setGated_vis (s : State) (l : List Nat) (b : Bool) : (s.setGated l b).vis = s.vis := rfl
@[simp] theorem State.setGated_mem (s : State) (l : List Nat) (b : Bool) : (s.setGated l b).mem = s.mem := rfl
@[simp] theorem State.setGated_neural (s : State) (l : List Nat) (b : Bool) : (s.setGated l b).neural = s.neural := rfl
@[simp] theorem State.setGated_track (s : State) (l : List Nat) (b : Bool) : (s.setGated l b).track = s.track := rfl
@[simp] theorem State.setGated_solv (s : State) (l : List Nat) (b : Bool) : (s.setGated l b).solv = s.solv := rfl
@[simp] theorem State.setGated_clsA (s : State) (l : List Nat) (b : Bool) : (s.setGated l b).clsA = s.clsA := rfl
@[simp] theorem State.setGated_window (s : State) (l : List Nat) (b : Bool) : (s.setGated l b).window = s.window := rfl
@[simp] theorem State.setGated_map (s : State) (l : List Nat) (b : Bool) : (s.setGated l b).map = s.map := rfl
@[simp] theorem State.setGated_srch (s : State) (l : List Nat) (b : Bool) : (s.setGated l b).srch = s.srch := rfl
@[simp] theorem State.setGated_links (s : State) (l : List Nat) (b : Bool) : (s.setGated l b).links = s.links := rfl
@[simp] theorem State.setGated_power (s : State) (l : List Nat) (b : Bool) : (s.setGated l b).power = s.power := rfl
@[simp] theorem State.setGated_resets (s : State) (l : List Nat) (b : Bool) : (s.setGated l b).resets = s.resets := rfl
@[simp] theorem State.setGated_pins (s : State) (l : List Nat) (b : Bool) : (s.setGated l b).pins = s.pins := rfl
@[simp] theorem State.setGated_integ (s : State) (l : List Nat) (b : Bool) : (s.setGated l b).integ = s.integ := rfl
@[simp] theorem State.setGated_pending (s : State) (l : List Nat) (b : Bool) : (s.setGated l b).pending = s.pending := rfl

@[simp] theorem State.setPower_regs (s : State) (p : Power) : (s.setPower p).regs = s.regs := rfl
@[simp] theorem State.setPower_shadow (s : State) (p : Power) : (s.setPower p).shadow = s.shadow := rfl
@[simp] theorem State.setPower_fresh (s : State) (p : Power) : (s.setPower p).fresh = s.fresh := rfl
@[simp] theorem State.setPower_out (s : State) (p : Power) : (s.setPower p).out = s.out := rfl
@[simp] theorem State.setPower_ports (s : State) (p : Power) : (s.setPower p).ports = s.ports := rfl
@[simp] theorem State.setPower_sw (s : State) (p : Power) : (s.setPower p).sw = s.sw := rfl
@[simp] theorem State.setPower_cast (s : State) (p : Power) : (s.setPower p).cast = s.cast := rfl
@[simp] theorem State.setPower_loop (s : State) (p : Power) : (s.setPower p).loop = s.loop := rfl
@[simp] theorem State.setPower_time (s : State) (p : Power) : (s.setPower p).time = s.time := rfl
@[simp] theorem State.setPower_eth (s : State) (p : Power) : (s.setPower p).eth = s.eth := rfl
@[simp] theorem State.setPower_timers (s : State) (p : Power) : (s.setPower p).timers = s.timers := rfl
@[simp] theorem State.setPower_sram (s : State) (p : Power) : (s.setPower p).sram = s.sram := rfl
@[simp] theorem State.setPower_sramLen (s : State) (p : Power) : (s.setPower p).sramLen = s.sramLen := rfl
@[simp] theorem State.setPower_sramBad (s : State) (p : Power) : (s.setPower p).sramBad = s.sramBad := rfl
@[simp] theorem State.setPower_vis (s : State) (p : Power) : (s.setPower p).vis = s.vis := rfl
@[simp] theorem State.setPower_mem (s : State) (p : Power) : (s.setPower p).mem = s.mem := rfl
@[simp] theorem State.setPower_neural (s : State) (p : Power) : (s.setPower p).neural = s.neural := rfl
@[simp] theorem State.setPower_track (s : State) (p : Power) : (s.setPower p).track = s.track := rfl
@[simp] theorem State.setPower_solv (s : State) (p : Power) : (s.setPower p).solv = s.solv := rfl
@[simp] theorem State.setPower_clsA (s : State) (p : Power) : (s.setPower p).clsA = s.clsA := rfl
@[simp] theorem State.setPower_window (s : State) (p : Power) : (s.setPower p).window = s.window := rfl
@[simp] theorem State.setPower_map (s : State) (p : Power) : (s.setPower p).map = s.map := rfl
@[simp] theorem State.setPower_srch (s : State) (p : Power) : (s.setPower p).srch = s.srch := rfl
@[simp] theorem State.setPower_links (s : State) (p : Power) : (s.setPower p).links = s.links := rfl
@[simp] theorem State.setPower_power (s : State) (p : Power) : (s.setPower p).power = p := rfl
@[simp] theorem State.setPower_resets (s : State) (p : Power) : (s.setPower p).resets = s.resets := rfl
@[simp] theorem State.setPower_pins (s : State) (p : Power) : (s.setPower p).pins = s.pins := rfl
@[simp] theorem State.setPower_integ (s : State) (p : Power) : (s.setPower p).integ = s.integ := rfl
@[simp] theorem State.setPower_pending (s : State) (p : Power) : (s.setPower p).pending = s.pending := rfl

@[simp] theorem State.setTransition_shadow (s : State) (t : Option Transition) : (s.setTransition t).shadow = s.shadow := rfl
@[simp] theorem State.setTransition_fresh (s : State) (t : Option Transition) : (s.setTransition t).fresh = s.fresh := rfl
@[simp] theorem State.setTransition_out (s : State) (t : Option Transition) : (s.setTransition t).out = s.out := rfl
@[simp] theorem State.setTransition_ports (s : State) (t : Option Transition) : (s.setTransition t).ports = s.ports := rfl
@[simp] theorem State.setTransition_sw (s : State) (t : Option Transition) : (s.setTransition t).sw = s.sw := rfl
@[simp] theorem State.setTransition_cast (s : State) (t : Option Transition) : (s.setTransition t).cast = s.cast := rfl
@[simp] theorem State.setTransition_loop (s : State) (t : Option Transition) : (s.setTransition t).loop = s.loop := rfl
@[simp] theorem State.setTransition_time (s : State) (t : Option Transition) : (s.setTransition t).time = s.time := rfl
@[simp] theorem State.setTransition_eth (s : State) (t : Option Transition) : (s.setTransition t).eth = s.eth := rfl
@[simp] theorem State.setTransition_timers (s : State) (t : Option Transition) : (s.setTransition t).timers = s.timers := rfl
@[simp] theorem State.setTransition_sram (s : State) (t : Option Transition) : (s.setTransition t).sram = s.sram := rfl
@[simp] theorem State.setTransition_sramLen (s : State) (t : Option Transition) : (s.setTransition t).sramLen = s.sramLen := rfl
@[simp] theorem State.setTransition_sramBad (s : State) (t : Option Transition) : (s.setTransition t).sramBad = s.sramBad := rfl
@[simp] theorem State.setTransition_vis (s : State) (t : Option Transition) : (s.setTransition t).vis = s.vis := rfl
@[simp] theorem State.setTransition_mem (s : State) (t : Option Transition) : (s.setTransition t).mem = s.mem := rfl
@[simp] theorem State.setTransition_neural (s : State) (t : Option Transition) : (s.setTransition t).neural = s.neural := rfl
@[simp] theorem State.setTransition_track (s : State) (t : Option Transition) : (s.setTransition t).track = s.track := rfl
@[simp] theorem State.setTransition_solv (s : State) (t : Option Transition) : (s.setTransition t).solv = s.solv := rfl
@[simp] theorem State.setTransition_clsA (s : State) (t : Option Transition) : (s.setTransition t).clsA = s.clsA := rfl
@[simp] theorem State.setTransition_window (s : State) (t : Option Transition) : (s.setTransition t).window = s.window := rfl
@[simp] theorem State.setTransition_map (s : State) (t : Option Transition) : (s.setTransition t).map = s.map := rfl
@[simp] theorem State.setTransition_srch (s : State) (t : Option Transition) : (s.setTransition t).srch = s.srch := rfl
@[simp] theorem State.setTransition_links (s : State) (t : Option Transition) : (s.setTransition t).links = s.links := rfl
@[simp] theorem State.setTransition_resets (s : State) (t : Option Transition) : (s.setTransition t).resets = s.resets := rfl
@[simp] theorem State.setTransition_pins (s : State) (t : Option Transition) : (s.setTransition t).pins = s.pins := rfl
@[simp] theorem State.setTransition_integ (s : State) (t : Option Transition) : (s.setTransition t).integ = s.integ := rfl
@[simp] theorem State.setTransition_pending (s : State) (t : Option Transition) : (s.setTransition t).pending = s.pending := rfl

@[simp] theorem State.setSolverSlot_regs (s : State) (c k : Nat) (v : SolverSlot) : (s.setSolverSlot c k v).regs = s.regs := rfl
@[simp] theorem State.setSolverSlot_shadow (s : State) (c k : Nat) (v : SolverSlot) : (s.setSolverSlot c k v).shadow = s.shadow := rfl
@[simp] theorem State.setSolverSlot_fresh (s : State) (c k : Nat) (v : SolverSlot) : (s.setSolverSlot c k v).fresh = s.fresh := rfl
@[simp] theorem State.setSolverSlot_out (s : State) (c k : Nat) (v : SolverSlot) : (s.setSolverSlot c k v).out = s.out := rfl
@[simp] theorem State.setSolverSlot_ports (s : State) (c k : Nat) (v : SolverSlot) : (s.setSolverSlot c k v).ports = s.ports := rfl
@[simp] theorem State.setSolverSlot_sw (s : State) (c k : Nat) (v : SolverSlot) : (s.setSolverSlot c k v).sw = s.sw := rfl
@[simp] theorem State.setSolverSlot_cast (s : State) (c k : Nat) (v : SolverSlot) : (s.setSolverSlot c k v).cast = s.cast := rfl
@[simp] theorem State.setSolverSlot_loop (s : State) (c k : Nat) (v : SolverSlot) : (s.setSolverSlot c k v).loop = s.loop := rfl
@[simp] theorem State.setSolverSlot_time (s : State) (c k : Nat) (v : SolverSlot) : (s.setSolverSlot c k v).time = s.time := rfl
@[simp] theorem State.setSolverSlot_eth (s : State) (c k : Nat) (v : SolverSlot) : (s.setSolverSlot c k v).eth = s.eth := rfl
@[simp] theorem State.setSolverSlot_timers (s : State) (c k : Nat) (v : SolverSlot) : (s.setSolverSlot c k v).timers = s.timers := rfl
@[simp] theorem State.setSolverSlot_sram (s : State) (c k : Nat) (v : SolverSlot) : (s.setSolverSlot c k v).sram = s.sram := rfl
@[simp] theorem State.setSolverSlot_sramLen (s : State) (c k : Nat) (v : SolverSlot) : (s.setSolverSlot c k v).sramLen = s.sramLen := rfl
@[simp] theorem State.setSolverSlot_sramBad (s : State) (c k : Nat) (v : SolverSlot) : (s.setSolverSlot c k v).sramBad = s.sramBad := rfl
@[simp] theorem State.setSolverSlot_vis (s : State) (c k : Nat) (v : SolverSlot) : (s.setSolverSlot c k v).vis = s.vis := rfl
@[simp] theorem State.setSolverSlot_mem (s : State) (c k : Nat) (v : SolverSlot) : (s.setSolverSlot c k v).mem = s.mem := rfl
@[simp] theorem State.setSolverSlot_neural (s : State) (c k : Nat) (v : SolverSlot) : (s.setSolverSlot c k v).neural = s.neural := rfl
@[simp] theorem State.setSolverSlot_track (s : State) (c k : Nat) (v : SolverSlot) : (s.setSolverSlot c k v).track = s.track := rfl
@[simp] theorem State.setSolverSlot_solv (s : State) (c k : Nat) (v : SolverSlot) : (s.setSolverSlot c k v).solv = { s.solv with slots := Store.set SolverSlot.empty s.solv.slots (8 * c + k) v } := rfl
@[simp] theorem State.setSolverSlot_clsA (s : State) (c k : Nat) (v : SolverSlot) : (s.setSolverSlot c k v).clsA = s.clsA := rfl
@[simp] theorem State.setSolverSlot_window (s : State) (c k : Nat) (v : SolverSlot) : (s.setSolverSlot c k v).window = s.window := rfl
@[simp] theorem State.setSolverSlot_map (s : State) (c k : Nat) (v : SolverSlot) : (s.setSolverSlot c k v).map = s.map := rfl
@[simp] theorem State.setSolverSlot_srch (s : State) (c k : Nat) (v : SolverSlot) : (s.setSolverSlot c k v).srch = s.srch := rfl
@[simp] theorem State.setSolverSlot_links (s : State) (c k : Nat) (v : SolverSlot) : (s.setSolverSlot c k v).links = s.links := rfl
@[simp] theorem State.setSolverSlot_power (s : State) (c k : Nat) (v : SolverSlot) : (s.setSolverSlot c k v).power = s.power := rfl
@[simp] theorem State.setSolverSlot_resets (s : State) (c k : Nat) (v : SolverSlot) : (s.setSolverSlot c k v).resets = s.resets := rfl
@[simp] theorem State.setSolverSlot_pins (s : State) (c k : Nat) (v : SolverSlot) : (s.setSolverSlot c k v).pins = s.pins := rfl
@[simp] theorem State.setSolverSlot_integ (s : State) (c k : Nat) (v : SolverSlot) : (s.setSolverSlot c k v).integ = s.integ := rfl
@[simp] theorem State.setSolverSlot_pending (s : State) (c k : Nat) (v : SolverSlot) : (s.setSolverSlot c k v).pending = s.pending := rfl

@[simp] theorem State.setProblem_regs (s : State) (c : Nat) (p : Option Problem) : (s.setProblem c p).regs = s.regs := rfl
@[simp] theorem State.setProblem_shadow (s : State) (c : Nat) (p : Option Problem) : (s.setProblem c p).shadow = s.shadow := rfl
@[simp] theorem State.setProblem_fresh (s : State) (c : Nat) (p : Option Problem) : (s.setProblem c p).fresh = s.fresh := rfl
@[simp] theorem State.setProblem_out (s : State) (c : Nat) (p : Option Problem) : (s.setProblem c p).out = s.out := rfl
@[simp] theorem State.setProblem_ports (s : State) (c : Nat) (p : Option Problem) : (s.setProblem c p).ports = s.ports := rfl
@[simp] theorem State.setProblem_sw (s : State) (c : Nat) (p : Option Problem) : (s.setProblem c p).sw = s.sw := rfl
@[simp] theorem State.setProblem_cast (s : State) (c : Nat) (p : Option Problem) : (s.setProblem c p).cast = s.cast := rfl
@[simp] theorem State.setProblem_loop (s : State) (c : Nat) (p : Option Problem) : (s.setProblem c p).loop = s.loop := rfl
@[simp] theorem State.setProblem_time (s : State) (c : Nat) (p : Option Problem) : (s.setProblem c p).time = s.time := rfl
@[simp] theorem State.setProblem_eth (s : State) (c : Nat) (p : Option Problem) : (s.setProblem c p).eth = s.eth := rfl
@[simp] theorem State.setProblem_timers (s : State) (c : Nat) (p : Option Problem) : (s.setProblem c p).timers = s.timers := rfl
@[simp] theorem State.setProblem_sram (s : State) (c : Nat) (p : Option Problem) : (s.setProblem c p).sram = s.sram := rfl
@[simp] theorem State.setProblem_sramLen (s : State) (c : Nat) (p : Option Problem) : (s.setProblem c p).sramLen = s.sramLen := rfl
@[simp] theorem State.setProblem_sramBad (s : State) (c : Nat) (p : Option Problem) : (s.setProblem c p).sramBad = s.sramBad := rfl
@[simp] theorem State.setProblem_vis (s : State) (c : Nat) (p : Option Problem) : (s.setProblem c p).vis = s.vis := rfl
@[simp] theorem State.setProblem_mem (s : State) (c : Nat) (p : Option Problem) : (s.setProblem c p).mem = s.mem := rfl
@[simp] theorem State.setProblem_neural (s : State) (c : Nat) (p : Option Problem) : (s.setProblem c p).neural = s.neural := rfl
@[simp] theorem State.setProblem_track (s : State) (c : Nat) (p : Option Problem) : (s.setProblem c p).track = s.track := rfl
@[simp] theorem State.setProblem_solv (s : State) (c : Nat) (p : Option Problem) : (s.setProblem c p).solv = { s.solv with running := Store.set none s.solv.running c p } := rfl
@[simp] theorem State.setProblem_clsA (s : State) (c : Nat) (p : Option Problem) : (s.setProblem c p).clsA = s.clsA := rfl
@[simp] theorem State.setProblem_window (s : State) (c : Nat) (p : Option Problem) : (s.setProblem c p).window = s.window := rfl
@[simp] theorem State.setProblem_map (s : State) (c : Nat) (p : Option Problem) : (s.setProblem c p).map = s.map := rfl
@[simp] theorem State.setProblem_srch (s : State) (c : Nat) (p : Option Problem) : (s.setProblem c p).srch = s.srch := rfl
@[simp] theorem State.setProblem_links (s : State) (c : Nat) (p : Option Problem) : (s.setProblem c p).links = s.links := rfl
@[simp] theorem State.setProblem_power (s : State) (c : Nat) (p : Option Problem) : (s.setProblem c p).power = s.power := rfl
@[simp] theorem State.setProblem_resets (s : State) (c : Nat) (p : Option Problem) : (s.setProblem c p).resets = s.resets := rfl
@[simp] theorem State.setProblem_pins (s : State) (c : Nat) (p : Option Problem) : (s.setProblem c p).pins = s.pins := rfl
@[simp] theorem State.setProblem_integ (s : State) (c : Nat) (p : Option Problem) : (s.setProblem c p).integ = s.integ := rfl
@[simp] theorem State.setProblem_pending (s : State) (c : Nat) (p : Option Problem) : (s.setProblem c p).pending = s.pending := rfl

@[simp] theorem State.setClassA_regs (s : State) (a : ClassA) : (s.setClassA a).regs = s.regs := rfl
@[simp] theorem State.setClassA_shadow (s : State) (a : ClassA) : (s.setClassA a).shadow = s.shadow := rfl
@[simp] theorem State.setClassA_fresh (s : State) (a : ClassA) : (s.setClassA a).fresh = s.fresh := rfl
@[simp] theorem State.setClassA_out (s : State) (a : ClassA) : (s.setClassA a).out = s.out := rfl
@[simp] theorem State.setClassA_ports (s : State) (a : ClassA) : (s.setClassA a).ports = s.ports := rfl
@[simp] theorem State.setClassA_sw (s : State) (a : ClassA) : (s.setClassA a).sw = s.sw := rfl
@[simp] theorem State.setClassA_cast (s : State) (a : ClassA) : (s.setClassA a).cast = s.cast := rfl
@[simp] theorem State.setClassA_loop (s : State) (a : ClassA) : (s.setClassA a).loop = s.loop := rfl
@[simp] theorem State.setClassA_time (s : State) (a : ClassA) : (s.setClassA a).time = s.time := rfl
@[simp] theorem State.setClassA_eth (s : State) (a : ClassA) : (s.setClassA a).eth = s.eth := rfl
@[simp] theorem State.setClassA_timers (s : State) (a : ClassA) : (s.setClassA a).timers = s.timers := rfl
@[simp] theorem State.setClassA_sram (s : State) (a : ClassA) : (s.setClassA a).sram = s.sram := rfl
@[simp] theorem State.setClassA_sramLen (s : State) (a : ClassA) : (s.setClassA a).sramLen = s.sramLen := rfl
@[simp] theorem State.setClassA_sramBad (s : State) (a : ClassA) : (s.setClassA a).sramBad = s.sramBad := rfl
@[simp] theorem State.setClassA_vis (s : State) (a : ClassA) : (s.setClassA a).vis = s.vis := rfl
@[simp] theorem State.setClassA_mem (s : State) (a : ClassA) : (s.setClassA a).mem = s.mem := rfl
@[simp] theorem State.setClassA_neural (s : State) (a : ClassA) : (s.setClassA a).neural = s.neural := rfl
@[simp] theorem State.setClassA_track (s : State) (a : ClassA) : (s.setClassA a).track = s.track := rfl
@[simp] theorem State.setClassA_solv (s : State) (a : ClassA) : (s.setClassA a).solv = s.solv := rfl
@[simp] theorem State.setClassA_clsA (s : State) (a : ClassA) : (s.setClassA a).clsA = a := rfl
@[simp] theorem State.setClassA_window (s : State) (a : ClassA) : (s.setClassA a).window = s.window := rfl
@[simp] theorem State.setClassA_map (s : State) (a : ClassA) : (s.setClassA a).map = s.map := rfl
@[simp] theorem State.setClassA_srch (s : State) (a : ClassA) : (s.setClassA a).srch = s.srch := rfl
@[simp] theorem State.setClassA_links (s : State) (a : ClassA) : (s.setClassA a).links = s.links := rfl
@[simp] theorem State.setClassA_power (s : State) (a : ClassA) : (s.setClassA a).power = s.power := rfl
@[simp] theorem State.setClassA_resets (s : State) (a : ClassA) : (s.setClassA a).resets = s.resets := rfl
@[simp] theorem State.setClassA_pins (s : State) (a : ClassA) : (s.setClassA a).pins = s.pins := rfl
@[simp] theorem State.setClassA_integ (s : State) (a : ClassA) : (s.setClassA a).integ = s.integ := rfl
@[simp] theorem State.setClassA_pending (s : State) (a : ClassA) : (s.setClassA a).pending = s.pending := rfl

@[simp] theorem State.setWork_regs (s : State) (w : PeriodWork) : (s.setWork w).regs = s.regs := rfl
@[simp] theorem State.setWork_shadow (s : State) (w : PeriodWork) : (s.setWork w).shadow = s.shadow := rfl
@[simp] theorem State.setWork_fresh (s : State) (w : PeriodWork) : (s.setWork w).fresh = s.fresh := rfl
@[simp] theorem State.setWork_out (s : State) (w : PeriodWork) : (s.setWork w).out = s.out := rfl
@[simp] theorem State.setWork_ports (s : State) (w : PeriodWork) : (s.setWork w).ports = s.ports := rfl
@[simp] theorem State.setWork_sw (s : State) (w : PeriodWork) : (s.setWork w).sw = s.sw := rfl
@[simp] theorem State.setWork_cast (s : State) (w : PeriodWork) : (s.setWork w).cast = s.cast := rfl
@[simp] theorem State.setWork_loop (s : State) (w : PeriodWork) : (s.setWork w).loop = s.loop := rfl
@[simp] theorem State.setWork_time (s : State) (w : PeriodWork) : (s.setWork w).time = s.time := rfl
@[simp] theorem State.setWork_eth (s : State) (w : PeriodWork) : (s.setWork w).eth = s.eth := rfl
@[simp] theorem State.setWork_timers (s : State) (w : PeriodWork) : (s.setWork w).timers = s.timers := rfl
@[simp] theorem State.setWork_sram (s : State) (w : PeriodWork) : (s.setWork w).sram = s.sram := rfl
@[simp] theorem State.setWork_sramLen (s : State) (w : PeriodWork) : (s.setWork w).sramLen = s.sramLen := rfl
@[simp] theorem State.setWork_sramBad (s : State) (w : PeriodWork) : (s.setWork w).sramBad = s.sramBad := rfl
@[simp] theorem State.setWork_vis (s : State) (w : PeriodWork) : (s.setWork w).vis = s.vis := rfl
@[simp] theorem State.setWork_mem (s : State) (w : PeriodWork) : (s.setWork w).mem = s.mem := rfl
@[simp] theorem State.setWork_neural (s : State) (w : PeriodWork) : (s.setWork w).neural = s.neural := rfl
@[simp] theorem State.setWork_track (s : State) (w : PeriodWork) : (s.setWork w).track = s.track := rfl
@[simp] theorem State.setWork_solv (s : State) (w : PeriodWork) : (s.setWork w).solv = s.solv := rfl
@[simp] theorem State.setWork_clsA (s : State) (w : PeriodWork) : (s.setWork w).clsA = { s.clsA with work := some w } := rfl
@[simp] theorem State.setWork_window (s : State) (w : PeriodWork) : (s.setWork w).window = s.window := rfl
@[simp] theorem State.setWork_map (s : State) (w : PeriodWork) : (s.setWork w).map = s.map := rfl
@[simp] theorem State.setWork_srch (s : State) (w : PeriodWork) : (s.setWork w).srch = s.srch := rfl
@[simp] theorem State.setWork_links (s : State) (w : PeriodWork) : (s.setWork w).links = s.links := rfl
@[simp] theorem State.setWork_power (s : State) (w : PeriodWork) : (s.setWork w).power = s.power := rfl
@[simp] theorem State.setWork_resets (s : State) (w : PeriodWork) : (s.setWork w).resets = s.resets := rfl
@[simp] theorem State.setWork_pins (s : State) (w : PeriodWork) : (s.setWork w).pins = s.pins := rfl
@[simp] theorem State.setWork_integ (s : State) (w : PeriodWork) : (s.setWork w).integ = s.integ := rfl
@[simp] theorem State.setWork_pending (s : State) (w : PeriodWork) : (s.setWork w).pending = s.pending := rfl

@[simp] theorem State.setTout_shadow (s : State) (n : Nat) (o : Tout) : (s.setTout n o).shadow = s.shadow := rfl
@[simp] theorem State.setTout_fresh (s : State) (n : Nat) (o : Tout) : (s.setTout n o).fresh = s.fresh := rfl
@[simp] theorem State.setTout_out (s : State) (n : Nat) (o : Tout) : (s.setTout n o).out = s.out := rfl
@[simp] theorem State.setTout_ports (s : State) (n : Nat) (o : Tout) : (s.setTout n o).ports = s.ports := rfl
@[simp] theorem State.setTout_sw (s : State) (n : Nat) (o : Tout) : (s.setTout n o).sw = s.sw := rfl
@[simp] theorem State.setTout_cast (s : State) (n : Nat) (o : Tout) : (s.setTout n o).cast = s.cast := rfl
@[simp] theorem State.setTout_loop (s : State) (n : Nat) (o : Tout) : (s.setTout n o).loop = s.loop := rfl
@[simp] theorem State.setTout_time (s : State) (n : Nat) (o : Tout) : (s.setTout n o).time = s.time := rfl
@[simp] theorem State.setTout_eth (s : State) (n : Nat) (o : Tout) : (s.setTout n o).eth = s.eth := rfl
@[simp] theorem State.setTout_sram (s : State) (n : Nat) (o : Tout) : (s.setTout n o).sram = s.sram := rfl
@[simp] theorem State.setTout_sramLen (s : State) (n : Nat) (o : Tout) : (s.setTout n o).sramLen = s.sramLen := rfl
@[simp] theorem State.setTout_sramBad (s : State) (n : Nat) (o : Tout) : (s.setTout n o).sramBad = s.sramBad := rfl
@[simp] theorem State.setTout_vis (s : State) (n : Nat) (o : Tout) : (s.setTout n o).vis = s.vis := rfl
@[simp] theorem State.setTout_mem (s : State) (n : Nat) (o : Tout) : (s.setTout n o).mem = s.mem := rfl
@[simp] theorem State.setTout_neural (s : State) (n : Nat) (o : Tout) : (s.setTout n o).neural = s.neural := rfl
@[simp] theorem State.setTout_track (s : State) (n : Nat) (o : Tout) : (s.setTout n o).track = s.track := rfl
@[simp] theorem State.setTout_solv (s : State) (n : Nat) (o : Tout) : (s.setTout n o).solv = s.solv := rfl
@[simp] theorem State.setTout_clsA (s : State) (n : Nat) (o : Tout) : (s.setTout n o).clsA = s.clsA := rfl
@[simp] theorem State.setTout_window (s : State) (n : Nat) (o : Tout) : (s.setTout n o).window = s.window := rfl
@[simp] theorem State.setTout_map (s : State) (n : Nat) (o : Tout) : (s.setTout n o).map = s.map := rfl
@[simp] theorem State.setTout_srch (s : State) (n : Nat) (o : Tout) : (s.setTout n o).srch = s.srch := rfl
@[simp] theorem State.setTout_links (s : State) (n : Nat) (o : Tout) : (s.setTout n o).links = s.links := rfl
@[simp] theorem State.setTout_power (s : State) (n : Nat) (o : Tout) : (s.setTout n o).power = s.power := rfl
@[simp] theorem State.setTout_resets (s : State) (n : Nat) (o : Tout) : (s.setTout n o).resets = s.resets := rfl
@[simp] theorem State.setTout_pins (s : State) (n : Nat) (o : Tout) : (s.setTout n o).pins = s.pins := rfl
@[simp] theorem State.setTout_integ (s : State) (n : Nat) (o : Tout) : (s.setTout n o).integ = s.integ := rfl
@[simp] theorem State.setTout_pending (s : State) (n : Nat) (o : Tout) : (s.setTout n o).pending = s.pending := rfl

@[simp] theorem State.setTin_regs (s : State) (n : Nat) (v : Tin) : (s.setTin n v).regs = s.regs := rfl
@[simp] theorem State.setTin_shadow (s : State) (n : Nat) (v : Tin) : (s.setTin n v).shadow = s.shadow := rfl
@[simp] theorem State.setTin_fresh (s : State) (n : Nat) (v : Tin) : (s.setTin n v).fresh = s.fresh := rfl
@[simp] theorem State.setTin_out (s : State) (n : Nat) (v : Tin) : (s.setTin n v).out = s.out := rfl
@[simp] theorem State.setTin_ports (s : State) (n : Nat) (v : Tin) : (s.setTin n v).ports = s.ports := rfl
@[simp] theorem State.setTin_sw (s : State) (n : Nat) (v : Tin) : (s.setTin n v).sw = s.sw := rfl
@[simp] theorem State.setTin_cast (s : State) (n : Nat) (v : Tin) : (s.setTin n v).cast = s.cast := rfl
@[simp] theorem State.setTin_loop (s : State) (n : Nat) (v : Tin) : (s.setTin n v).loop = s.loop := rfl
@[simp] theorem State.setTin_time (s : State) (n : Nat) (v : Tin) : (s.setTin n v).time = s.time := rfl
@[simp] theorem State.setTin_eth (s : State) (n : Nat) (v : Tin) : (s.setTin n v).eth = s.eth := rfl
@[simp] theorem State.setTin_timers (s : State) (n : Nat) (v : Tin) : (s.setTin n v).timers = { s.timers with tin := Store.set Tin.idle s.timers.tin n v } := rfl
@[simp] theorem State.setTin_sram (s : State) (n : Nat) (v : Tin) : (s.setTin n v).sram = s.sram := rfl
@[simp] theorem State.setTin_sramLen (s : State) (n : Nat) (v : Tin) : (s.setTin n v).sramLen = s.sramLen := rfl
@[simp] theorem State.setTin_sramBad (s : State) (n : Nat) (v : Tin) : (s.setTin n v).sramBad = s.sramBad := rfl
@[simp] theorem State.setTin_vis (s : State) (n : Nat) (v : Tin) : (s.setTin n v).vis = s.vis := rfl
@[simp] theorem State.setTin_mem (s : State) (n : Nat) (v : Tin) : (s.setTin n v).mem = s.mem := rfl
@[simp] theorem State.setTin_neural (s : State) (n : Nat) (v : Tin) : (s.setTin n v).neural = s.neural := rfl
@[simp] theorem State.setTin_track (s : State) (n : Nat) (v : Tin) : (s.setTin n v).track = s.track := rfl
@[simp] theorem State.setTin_solv (s : State) (n : Nat) (v : Tin) : (s.setTin n v).solv = s.solv := rfl
@[simp] theorem State.setTin_clsA (s : State) (n : Nat) (v : Tin) : (s.setTin n v).clsA = s.clsA := rfl
@[simp] theorem State.setTin_window (s : State) (n : Nat) (v : Tin) : (s.setTin n v).window = s.window := rfl
@[simp] theorem State.setTin_map (s : State) (n : Nat) (v : Tin) : (s.setTin n v).map = s.map := rfl
@[simp] theorem State.setTin_srch (s : State) (n : Nat) (v : Tin) : (s.setTin n v).srch = s.srch := rfl
@[simp] theorem State.setTin_links (s : State) (n : Nat) (v : Tin) : (s.setTin n v).links = s.links := rfl
@[simp] theorem State.setTin_power (s : State) (n : Nat) (v : Tin) : (s.setTin n v).power = s.power := rfl
@[simp] theorem State.setTin_resets (s : State) (n : Nat) (v : Tin) : (s.setTin n v).resets = s.resets := rfl
@[simp] theorem State.setTin_pins (s : State) (n : Nat) (v : Tin) : (s.setTin n v).pins = s.pins := rfl
@[simp] theorem State.setTin_integ (s : State) (n : Nat) (v : Tin) : (s.setTin n v).integ = s.integ := rfl
@[simp] theorem State.setTin_pending (s : State) (n : Nat) (v : Tin) : (s.setTin n v).pending = s.pending := rfl

@[simp] theorem State.setUpdates_regs (s : State) (l : List TrackUpdate) : (s.setUpdates l).regs = s.regs := rfl
@[simp] theorem State.setUpdates_shadow (s : State) (l : List TrackUpdate) : (s.setUpdates l).shadow = s.shadow := rfl
@[simp] theorem State.setUpdates_fresh (s : State) (l : List TrackUpdate) : (s.setUpdates l).fresh = s.fresh := rfl
@[simp] theorem State.setUpdates_out (s : State) (l : List TrackUpdate) : (s.setUpdates l).out = s.out := rfl
@[simp] theorem State.setUpdates_ports (s : State) (l : List TrackUpdate) : (s.setUpdates l).ports = s.ports := rfl
@[simp] theorem State.setUpdates_sw (s : State) (l : List TrackUpdate) : (s.setUpdates l).sw = s.sw := rfl
@[simp] theorem State.setUpdates_cast (s : State) (l : List TrackUpdate) : (s.setUpdates l).cast = s.cast := rfl
@[simp] theorem State.setUpdates_loop (s : State) (l : List TrackUpdate) : (s.setUpdates l).loop = s.loop := rfl
@[simp] theorem State.setUpdates_time (s : State) (l : List TrackUpdate) : (s.setUpdates l).time = s.time := rfl
@[simp] theorem State.setUpdates_eth (s : State) (l : List TrackUpdate) : (s.setUpdates l).eth = s.eth := rfl
@[simp] theorem State.setUpdates_timers (s : State) (l : List TrackUpdate) : (s.setUpdates l).timers = s.timers := rfl
@[simp] theorem State.setUpdates_sram (s : State) (l : List TrackUpdate) : (s.setUpdates l).sram = s.sram := rfl
@[simp] theorem State.setUpdates_sramLen (s : State) (l : List TrackUpdate) : (s.setUpdates l).sramLen = s.sramLen := rfl
@[simp] theorem State.setUpdates_sramBad (s : State) (l : List TrackUpdate) : (s.setUpdates l).sramBad = s.sramBad := rfl
@[simp] theorem State.setUpdates_vis (s : State) (l : List TrackUpdate) : (s.setUpdates l).vis = s.vis := rfl
@[simp] theorem State.setUpdates_mem (s : State) (l : List TrackUpdate) : (s.setUpdates l).mem = s.mem := rfl
@[simp] theorem State.setUpdates_neural (s : State) (l : List TrackUpdate) : (s.setUpdates l).neural = s.neural := rfl
@[simp] theorem State.setUpdates_track (s : State) (l : List TrackUpdate) : (s.setUpdates l).track = { s.track with updates := l } := rfl
@[simp] theorem State.setUpdates_solv (s : State) (l : List TrackUpdate) : (s.setUpdates l).solv = s.solv := rfl
@[simp] theorem State.setUpdates_clsA (s : State) (l : List TrackUpdate) : (s.setUpdates l).clsA = s.clsA := rfl
@[simp] theorem State.setUpdates_window (s : State) (l : List TrackUpdate) : (s.setUpdates l).window = s.window := rfl
@[simp] theorem State.setUpdates_map (s : State) (l : List TrackUpdate) : (s.setUpdates l).map = s.map := rfl
@[simp] theorem State.setUpdates_srch (s : State) (l : List TrackUpdate) : (s.setUpdates l).srch = s.srch := rfl
@[simp] theorem State.setUpdates_links (s : State) (l : List TrackUpdate) : (s.setUpdates l).links = s.links := rfl
@[simp] theorem State.setUpdates_power (s : State) (l : List TrackUpdate) : (s.setUpdates l).power = s.power := rfl
@[simp] theorem State.setUpdates_resets (s : State) (l : List TrackUpdate) : (s.setUpdates l).resets = s.resets := rfl
@[simp] theorem State.setUpdates_pins (s : State) (l : List TrackUpdate) : (s.setUpdates l).pins = s.pins := rfl
@[simp] theorem State.setUpdates_integ (s : State) (l : List TrackUpdate) : (s.setUpdates l).integ = s.integ := rfl
@[simp] theorem State.setUpdates_pending (s : State) (l : List TrackUpdate) : (s.setUpdates l).pending = s.pending := rfl

@[simp] theorem State.setImu_regs (s : State) (n : Nat) (v : ImuTrack) : (s.setImu n v).regs = s.regs := rfl
@[simp] theorem State.setImu_shadow (s : State) (n : Nat) (v : ImuTrack) : (s.setImu n v).shadow = s.shadow := rfl
@[simp] theorem State.setImu_fresh (s : State) (n : Nat) (v : ImuTrack) : (s.setImu n v).fresh = s.fresh := rfl
@[simp] theorem State.setImu_out (s : State) (n : Nat) (v : ImuTrack) : (s.setImu n v).out = s.out := rfl
@[simp] theorem State.setImu_ports (s : State) (n : Nat) (v : ImuTrack) : (s.setImu n v).ports = s.ports := rfl
@[simp] theorem State.setImu_sw (s : State) (n : Nat) (v : ImuTrack) : (s.setImu n v).sw = s.sw := rfl
@[simp] theorem State.setImu_cast (s : State) (n : Nat) (v : ImuTrack) : (s.setImu n v).cast = s.cast := rfl
@[simp] theorem State.setImu_loop (s : State) (n : Nat) (v : ImuTrack) : (s.setImu n v).loop = s.loop := rfl
@[simp] theorem State.setImu_time (s : State) (n : Nat) (v : ImuTrack) : (s.setImu n v).time = s.time := rfl
@[simp] theorem State.setImu_eth (s : State) (n : Nat) (v : ImuTrack) : (s.setImu n v).eth = s.eth := rfl
@[simp] theorem State.setImu_timers (s : State) (n : Nat) (v : ImuTrack) : (s.setImu n v).timers = s.timers := rfl
@[simp] theorem State.setImu_sram (s : State) (n : Nat) (v : ImuTrack) : (s.setImu n v).sram = s.sram := rfl
@[simp] theorem State.setImu_sramLen (s : State) (n : Nat) (v : ImuTrack) : (s.setImu n v).sramLen = s.sramLen := rfl
@[simp] theorem State.setImu_sramBad (s : State) (n : Nat) (v : ImuTrack) : (s.setImu n v).sramBad = s.sramBad := rfl
@[simp] theorem State.setImu_vis (s : State) (n : Nat) (v : ImuTrack) : (s.setImu n v).vis = s.vis := rfl
@[simp] theorem State.setImu_mem (s : State) (n : Nat) (v : ImuTrack) : (s.setImu n v).mem = s.mem := rfl
@[simp] theorem State.setImu_neural (s : State) (n : Nat) (v : ImuTrack) : (s.setImu n v).neural = s.neural := rfl
@[simp] theorem State.setImu_track (s : State) (n : Nat) (v : ImuTrack) : (s.setImu n v).track = { s.track with imus := Store.set ImuTrack.reset s.track.imus n v } := rfl
@[simp] theorem State.setImu_solv (s : State) (n : Nat) (v : ImuTrack) : (s.setImu n v).solv = s.solv := rfl
@[simp] theorem State.setImu_clsA (s : State) (n : Nat) (v : ImuTrack) : (s.setImu n v).clsA = s.clsA := rfl
@[simp] theorem State.setImu_window (s : State) (n : Nat) (v : ImuTrack) : (s.setImu n v).window = s.window := rfl
@[simp] theorem State.setImu_map (s : State) (n : Nat) (v : ImuTrack) : (s.setImu n v).map = s.map := rfl
@[simp] theorem State.setImu_srch (s : State) (n : Nat) (v : ImuTrack) : (s.setImu n v).srch = s.srch := rfl
@[simp] theorem State.setImu_links (s : State) (n : Nat) (v : ImuTrack) : (s.setImu n v).links = s.links := rfl
@[simp] theorem State.setImu_power (s : State) (n : Nat) (v : ImuTrack) : (s.setImu n v).power = s.power := rfl
@[simp] theorem State.setImu_resets (s : State) (n : Nat) (v : ImuTrack) : (s.setImu n v).resets = s.resets := rfl
@[simp] theorem State.setImu_pins (s : State) (n : Nat) (v : ImuTrack) : (s.setImu n v).pins = s.pins := rfl
@[simp] theorem State.setImu_integ (s : State) (n : Nat) (v : ImuTrack) : (s.setImu n v).integ = s.integ := rfl
@[simp] theorem State.setImu_pending (s : State) (n : Nat) (v : ImuTrack) : (s.setImu n v).pending = s.pending := rfl

@[simp] theorem State.setFeature_regs (s : State) (slot : Nat) (v : FeatureTrack) : (s.setFeature slot v).regs = s.regs := rfl
@[simp] theorem State.setFeature_shadow (s : State) (slot : Nat) (v : FeatureTrack) : (s.setFeature slot v).shadow = s.shadow := rfl
@[simp] theorem State.setFeature_fresh (s : State) (slot : Nat) (v : FeatureTrack) : (s.setFeature slot v).fresh = s.fresh := rfl
@[simp] theorem State.setFeature_out (s : State) (slot : Nat) (v : FeatureTrack) : (s.setFeature slot v).out = s.out := rfl
@[simp] theorem State.setFeature_ports (s : State) (slot : Nat) (v : FeatureTrack) : (s.setFeature slot v).ports = s.ports := rfl
@[simp] theorem State.setFeature_sw (s : State) (slot : Nat) (v : FeatureTrack) : (s.setFeature slot v).sw = s.sw := rfl
@[simp] theorem State.setFeature_cast (s : State) (slot : Nat) (v : FeatureTrack) : (s.setFeature slot v).cast = s.cast := rfl
@[simp] theorem State.setFeature_loop (s : State) (slot : Nat) (v : FeatureTrack) : (s.setFeature slot v).loop = s.loop := rfl
@[simp] theorem State.setFeature_time (s : State) (slot : Nat) (v : FeatureTrack) : (s.setFeature slot v).time = s.time := rfl
@[simp] theorem State.setFeature_eth (s : State) (slot : Nat) (v : FeatureTrack) : (s.setFeature slot v).eth = s.eth := rfl
@[simp] theorem State.setFeature_timers (s : State) (slot : Nat) (v : FeatureTrack) : (s.setFeature slot v).timers = s.timers := rfl
@[simp] theorem State.setFeature_sram (s : State) (slot : Nat) (v : FeatureTrack) : (s.setFeature slot v).sram = s.sram := rfl
@[simp] theorem State.setFeature_sramLen (s : State) (slot : Nat) (v : FeatureTrack) : (s.setFeature slot v).sramLen = s.sramLen := rfl
@[simp] theorem State.setFeature_sramBad (s : State) (slot : Nat) (v : FeatureTrack) : (s.setFeature slot v).sramBad = s.sramBad := rfl
@[simp] theorem State.setFeature_vis (s : State) (slot : Nat) (v : FeatureTrack) : (s.setFeature slot v).vis = s.vis := rfl
@[simp] theorem State.setFeature_mem (s : State) (slot : Nat) (v : FeatureTrack) : (s.setFeature slot v).mem = s.mem := rfl
@[simp] theorem State.setFeature_neural (s : State) (slot : Nat) (v : FeatureTrack) : (s.setFeature slot v).neural = s.neural := rfl
@[simp] theorem State.setFeature_track (s : State) (slot : Nat) (v : FeatureTrack) : (s.setFeature slot v).track = { s.track with features := Store.set FeatureTrack.reset s.track.features slot v } := rfl
@[simp] theorem State.setFeature_solv (s : State) (slot : Nat) (v : FeatureTrack) : (s.setFeature slot v).solv = s.solv := rfl
@[simp] theorem State.setFeature_clsA (s : State) (slot : Nat) (v : FeatureTrack) : (s.setFeature slot v).clsA = s.clsA := rfl
@[simp] theorem State.setFeature_window (s : State) (slot : Nat) (v : FeatureTrack) : (s.setFeature slot v).window = s.window := rfl
@[simp] theorem State.setFeature_map (s : State) (slot : Nat) (v : FeatureTrack) : (s.setFeature slot v).map = s.map := rfl
@[simp] theorem State.setFeature_srch (s : State) (slot : Nat) (v : FeatureTrack) : (s.setFeature slot v).srch = s.srch := rfl
@[simp] theorem State.setFeature_links (s : State) (slot : Nat) (v : FeatureTrack) : (s.setFeature slot v).links = s.links := rfl
@[simp] theorem State.setFeature_power (s : State) (slot : Nat) (v : FeatureTrack) : (s.setFeature slot v).power = s.power := rfl
@[simp] theorem State.setFeature_resets (s : State) (slot : Nat) (v : FeatureTrack) : (s.setFeature slot v).resets = s.resets := rfl
@[simp] theorem State.setFeature_pins (s : State) (slot : Nat) (v : FeatureTrack) : (s.setFeature slot v).pins = s.pins := rfl
@[simp] theorem State.setFeature_integ (s : State) (slot : Nat) (v : FeatureTrack) : (s.setFeature slot v).integ = s.integ := rfl
@[simp] theorem State.setFeature_pending (s : State) (slot : Nat) (v : FeatureTrack) : (s.setFeature slot v).pending = s.pending := rfl

@[simp] theorem State.setTxPort_regs (s : State) (n : Nat) (v : TxPort) : (s.setTxPort n v).regs = s.regs := rfl
@[simp] theorem State.setTxPort_shadow (s : State) (n : Nat) (v : TxPort) : (s.setTxPort n v).shadow = s.shadow := rfl
@[simp] theorem State.setTxPort_fresh (s : State) (n : Nat) (v : TxPort) : (s.setTxPort n v).fresh = s.fresh := rfl
@[simp] theorem State.setTxPort_out (s : State) (n : Nat) (v : TxPort) : (s.setTxPort n v).out = s.out := rfl
@[simp] theorem State.setTxPort_ports (s : State) (n : Nat) (v : TxPort) : (s.setTxPort n v).ports = s.ports := rfl
@[simp] theorem State.setTxPort_sw (s : State) (n : Nat) (v : TxPort) : (s.setTxPort n v).sw = s.sw := rfl
@[simp] theorem State.setTxPort_cast (s : State) (n : Nat) (v : TxPort) : (s.setTxPort n v).cast = s.cast := rfl
@[simp] theorem State.setTxPort_loop (s : State) (n : Nat) (v : TxPort) : (s.setTxPort n v).loop = s.loop := rfl
@[simp] theorem State.setTxPort_time (s : State) (n : Nat) (v : TxPort) : (s.setTxPort n v).time = s.time := rfl
@[simp] theorem State.setTxPort_eth (s : State) (n : Nat) (v : TxPort) : (s.setTxPort n v).eth = s.eth := rfl
@[simp] theorem State.setTxPort_timers (s : State) (n : Nat) (v : TxPort) : (s.setTxPort n v).timers = s.timers := rfl
@[simp] theorem State.setTxPort_sram (s : State) (n : Nat) (v : TxPort) : (s.setTxPort n v).sram = s.sram := rfl
@[simp] theorem State.setTxPort_sramLen (s : State) (n : Nat) (v : TxPort) : (s.setTxPort n v).sramLen = s.sramLen := rfl
@[simp] theorem State.setTxPort_sramBad (s : State) (n : Nat) (v : TxPort) : (s.setTxPort n v).sramBad = s.sramBad := rfl
@[simp] theorem State.setTxPort_vis (s : State) (n : Nat) (v : TxPort) : (s.setTxPort n v).vis = s.vis := rfl
@[simp] theorem State.setTxPort_mem (s : State) (n : Nat) (v : TxPort) : (s.setTxPort n v).mem = s.mem := rfl
@[simp] theorem State.setTxPort_neural (s : State) (n : Nat) (v : TxPort) : (s.setTxPort n v).neural = s.neural := rfl
@[simp] theorem State.setTxPort_track (s : State) (n : Nat) (v : TxPort) : (s.setTxPort n v).track = s.track := rfl
@[simp] theorem State.setTxPort_solv (s : State) (n : Nat) (v : TxPort) : (s.setTxPort n v).solv = s.solv := rfl
@[simp] theorem State.setTxPort_clsA (s : State) (n : Nat) (v : TxPort) : (s.setTxPort n v).clsA = s.clsA := rfl
@[simp] theorem State.setTxPort_window (s : State) (n : Nat) (v : TxPort) : (s.setTxPort n v).window = s.window := rfl
@[simp] theorem State.setTxPort_map (s : State) (n : Nat) (v : TxPort) : (s.setTxPort n v).map = s.map := rfl
@[simp] theorem State.setTxPort_srch (s : State) (n : Nat) (v : TxPort) : (s.setTxPort n v).srch = s.srch := rfl
@[simp] theorem State.setTxPort_links (s : State) (n : Nat) (v : TxPort) : (s.setTxPort n v).links = { s.links with txPorts := Store.set TxPort.idle s.links.txPorts n v } := rfl
@[simp] theorem State.setTxPort_power (s : State) (n : Nat) (v : TxPort) : (s.setTxPort n v).power = s.power := rfl
@[simp] theorem State.setTxPort_resets (s : State) (n : Nat) (v : TxPort) : (s.setTxPort n v).resets = s.resets := rfl
@[simp] theorem State.setTxPort_pins (s : State) (n : Nat) (v : TxPort) : (s.setTxPort n v).pins = s.pins := rfl
@[simp] theorem State.setTxPort_integ (s : State) (n : Nat) (v : TxPort) : (s.setTxPort n v).integ = s.integ := rfl
@[simp] theorem State.setTxPort_pending (s : State) (n : Nat) (v : TxPort) : (s.setTxPort n v).pending = s.pending := rfl

@[simp] theorem State.setWindow_regs (s : State) (w : Window) : (s.setWindow w).regs = s.regs := rfl
@[simp] theorem State.setWindow_shadow (s : State) (w : Window) : (s.setWindow w).shadow = s.shadow := rfl
@[simp] theorem State.setWindow_fresh (s : State) (w : Window) : (s.setWindow w).fresh = s.fresh := rfl
@[simp] theorem State.setWindow_out (s : State) (w : Window) : (s.setWindow w).out = s.out := rfl
@[simp] theorem State.setWindow_ports (s : State) (w : Window) : (s.setWindow w).ports = s.ports := rfl
@[simp] theorem State.setWindow_sw (s : State) (w : Window) : (s.setWindow w).sw = s.sw := rfl
@[simp] theorem State.setWindow_cast (s : State) (w : Window) : (s.setWindow w).cast = s.cast := rfl
@[simp] theorem State.setWindow_loop (s : State) (w : Window) : (s.setWindow w).loop = s.loop := rfl
@[simp] theorem State.setWindow_time (s : State) (w : Window) : (s.setWindow w).time = s.time := rfl
@[simp] theorem State.setWindow_eth (s : State) (w : Window) : (s.setWindow w).eth = s.eth := rfl
@[simp] theorem State.setWindow_timers (s : State) (w : Window) : (s.setWindow w).timers = s.timers := rfl
@[simp] theorem State.setWindow_sram (s : State) (w : Window) : (s.setWindow w).sram = s.sram := rfl
@[simp] theorem State.setWindow_sramLen (s : State) (w : Window) : (s.setWindow w).sramLen = s.sramLen := rfl
@[simp] theorem State.setWindow_sramBad (s : State) (w : Window) : (s.setWindow w).sramBad = s.sramBad := rfl
@[simp] theorem State.setWindow_vis (s : State) (w : Window) : (s.setWindow w).vis = s.vis := rfl
@[simp] theorem State.setWindow_mem (s : State) (w : Window) : (s.setWindow w).mem = s.mem := rfl
@[simp] theorem State.setWindow_neural (s : State) (w : Window) : (s.setWindow w).neural = s.neural := rfl
@[simp] theorem State.setWindow_track (s : State) (w : Window) : (s.setWindow w).track = s.track := rfl
@[simp] theorem State.setWindow_solv (s : State) (w : Window) : (s.setWindow w).solv = s.solv := rfl
@[simp] theorem State.setWindow_clsA (s : State) (w : Window) : (s.setWindow w).clsA = s.clsA := rfl
@[simp] theorem State.setWindow_window (s : State) (w : Window) : (s.setWindow w).window = w := rfl
@[simp] theorem State.setWindow_map (s : State) (w : Window) : (s.setWindow w).map = s.map := rfl
@[simp] theorem State.setWindow_srch (s : State) (w : Window) : (s.setWindow w).srch = s.srch := rfl
@[simp] theorem State.setWindow_links (s : State) (w : Window) : (s.setWindow w).links = s.links := rfl
@[simp] theorem State.setWindow_power (s : State) (w : Window) : (s.setWindow w).power = s.power := rfl
@[simp] theorem State.setWindow_resets (s : State) (w : Window) : (s.setWindow w).resets = s.resets := rfl
@[simp] theorem State.setWindow_pins (s : State) (w : Window) : (s.setWindow w).pins = s.pins := rfl
@[simp] theorem State.setWindow_integ (s : State) (w : Window) : (s.setWindow w).integ = s.integ := rfl
@[simp] theorem State.setWindow_pending (s : State) (w : Window) : (s.setWindow w).pending = s.pending := rfl

@[simp] theorem State.putSetState_regs (s : State) (object : Bool) (i : Nat) (v : FeatureSetState) : (s.putSetState object i v).regs = s.regs := rfl
@[simp] theorem State.putSetState_shadow (s : State) (object : Bool) (i : Nat) (v : FeatureSetState) : (s.putSetState object i v).shadow = s.shadow := rfl
@[simp] theorem State.putSetState_fresh (s : State) (object : Bool) (i : Nat) (v : FeatureSetState) : (s.putSetState object i v).fresh = s.fresh := rfl
@[simp] theorem State.putSetState_out (s : State) (object : Bool) (i : Nat) (v : FeatureSetState) : (s.putSetState object i v).out = s.out := rfl
@[simp] theorem State.putSetState_ports (s : State) (object : Bool) (i : Nat) (v : FeatureSetState) : (s.putSetState object i v).ports = s.ports := rfl
@[simp] theorem State.putSetState_sw (s : State) (object : Bool) (i : Nat) (v : FeatureSetState) : (s.putSetState object i v).sw = s.sw := rfl
@[simp] theorem State.putSetState_cast (s : State) (object : Bool) (i : Nat) (v : FeatureSetState) : (s.putSetState object i v).cast = s.cast := rfl
@[simp] theorem State.putSetState_loop (s : State) (object : Bool) (i : Nat) (v : FeatureSetState) : (s.putSetState object i v).loop = s.loop := rfl
@[simp] theorem State.putSetState_time (s : State) (object : Bool) (i : Nat) (v : FeatureSetState) : (s.putSetState object i v).time = s.time := rfl
@[simp] theorem State.putSetState_eth (s : State) (object : Bool) (i : Nat) (v : FeatureSetState) : (s.putSetState object i v).eth = s.eth := rfl
@[simp] theorem State.putSetState_timers (s : State) (object : Bool) (i : Nat) (v : FeatureSetState) : (s.putSetState object i v).timers = s.timers := rfl
@[simp] theorem State.putSetState_sram (s : State) (object : Bool) (i : Nat) (v : FeatureSetState) : (s.putSetState object i v).sram = s.sram := rfl
@[simp] theorem State.putSetState_sramLen (s : State) (object : Bool) (i : Nat) (v : FeatureSetState) : (s.putSetState object i v).sramLen = s.sramLen := rfl
@[simp] theorem State.putSetState_sramBad (s : State) (object : Bool) (i : Nat) (v : FeatureSetState) : (s.putSetState object i v).sramBad = s.sramBad := rfl
@[simp] theorem State.putSetState_vis (s : State) (object : Bool) (i : Nat) (v : FeatureSetState) : (s.putSetState object i v).vis = s.vis := rfl
@[simp] theorem State.putSetState_mem (s : State) (object : Bool) (i : Nat) (v : FeatureSetState) : (s.putSetState object i v).mem = s.mem := rfl
@[simp] theorem State.putSetState_neural (s : State) (object : Bool) (i : Nat) (v : FeatureSetState) : (s.putSetState object i v).neural = s.neural := rfl
@[simp] theorem State.putSetState_track (s : State) (object : Bool) (i : Nat) (v : FeatureSetState) : (s.putSetState object i v).track = { s.track with sets := Store.set FeatureSetState.reset s.track.sets ((if object then 16 else 0) + i) v } := rfl
@[simp] theorem State.putSetState_solv (s : State) (object : Bool) (i : Nat) (v : FeatureSetState) : (s.putSetState object i v).solv = s.solv := rfl
@[simp] theorem State.putSetState_clsA (s : State) (object : Bool) (i : Nat) (v : FeatureSetState) : (s.putSetState object i v).clsA = s.clsA := rfl
@[simp] theorem State.putSetState_window (s : State) (object : Bool) (i : Nat) (v : FeatureSetState) : (s.putSetState object i v).window = s.window := rfl
@[simp] theorem State.putSetState_map (s : State) (object : Bool) (i : Nat) (v : FeatureSetState) : (s.putSetState object i v).map = s.map := rfl
@[simp] theorem State.putSetState_srch (s : State) (object : Bool) (i : Nat) (v : FeatureSetState) : (s.putSetState object i v).srch = s.srch := rfl
@[simp] theorem State.putSetState_links (s : State) (object : Bool) (i : Nat) (v : FeatureSetState) : (s.putSetState object i v).links = s.links := rfl
@[simp] theorem State.putSetState_power (s : State) (object : Bool) (i : Nat) (v : FeatureSetState) : (s.putSetState object i v).power = s.power := rfl
@[simp] theorem State.putSetState_resets (s : State) (object : Bool) (i : Nat) (v : FeatureSetState) : (s.putSetState object i v).resets = s.resets := rfl
@[simp] theorem State.putSetState_pins (s : State) (object : Bool) (i : Nat) (v : FeatureSetState) : (s.putSetState object i v).pins = s.pins := rfl
@[simp] theorem State.putSetState_integ (s : State) (object : Bool) (i : Nat) (v : FeatureSetState) : (s.putSetState object i v).integ = s.integ := rfl
@[simp] theorem State.putSetState_pending (s : State) (object : Bool) (i : Nat) (v : FeatureSetState) : (s.putSetState object i v).pending = s.pending := rfl

@[simp] theorem State.addSat_shadow (s : State) (f : Fld) (k : Nat) : (s.addSat f k).shadow = s.shadow := rfl
@[simp] theorem State.addSat_fresh (s : State) (f : Fld) (k : Nat) : (s.addSat f k).fresh = s.fresh := rfl
@[simp] theorem State.addSat_out (s : State) (f : Fld) (k : Nat) : (s.addSat f k).out = s.out := rfl
@[simp] theorem State.addSat_ports (s : State) (f : Fld) (k : Nat) : (s.addSat f k).ports = s.ports := rfl
@[simp] theorem State.addSat_sw (s : State) (f : Fld) (k : Nat) : (s.addSat f k).sw = s.sw := rfl
@[simp] theorem State.addSat_cast (s : State) (f : Fld) (k : Nat) : (s.addSat f k).cast = s.cast := rfl
@[simp] theorem State.addSat_loop (s : State) (f : Fld) (k : Nat) : (s.addSat f k).loop = s.loop := rfl
@[simp] theorem State.addSat_time (s : State) (f : Fld) (k : Nat) : (s.addSat f k).time = s.time := rfl
@[simp] theorem State.addSat_eth (s : State) (f : Fld) (k : Nat) : (s.addSat f k).eth = s.eth := rfl
@[simp] theorem State.addSat_timers (s : State) (f : Fld) (k : Nat) : (s.addSat f k).timers = s.timers := rfl
@[simp] theorem State.addSat_sram (s : State) (f : Fld) (k : Nat) : (s.addSat f k).sram = s.sram := rfl
@[simp] theorem State.addSat_sramLen (s : State) (f : Fld) (k : Nat) : (s.addSat f k).sramLen = s.sramLen := rfl
@[simp] theorem State.addSat_sramBad (s : State) (f : Fld) (k : Nat) : (s.addSat f k).sramBad = s.sramBad := rfl
@[simp] theorem State.addSat_vis (s : State) (f : Fld) (k : Nat) : (s.addSat f k).vis = s.vis := rfl
@[simp] theorem State.addSat_mem (s : State) (f : Fld) (k : Nat) : (s.addSat f k).mem = s.mem := rfl
@[simp] theorem State.addSat_neural (s : State) (f : Fld) (k : Nat) : (s.addSat f k).neural = s.neural := rfl
@[simp] theorem State.addSat_track (s : State) (f : Fld) (k : Nat) : (s.addSat f k).track = s.track := rfl
@[simp] theorem State.addSat_solv (s : State) (f : Fld) (k : Nat) : (s.addSat f k).solv = s.solv := rfl
@[simp] theorem State.addSat_clsA (s : State) (f : Fld) (k : Nat) : (s.addSat f k).clsA = s.clsA := rfl
@[simp] theorem State.addSat_window (s : State) (f : Fld) (k : Nat) : (s.addSat f k).window = s.window := rfl
@[simp] theorem State.addSat_map (s : State) (f : Fld) (k : Nat) : (s.addSat f k).map = s.map := rfl
@[simp] theorem State.addSat_srch (s : State) (f : Fld) (k : Nat) : (s.addSat f k).srch = s.srch := rfl
@[simp] theorem State.addSat_links (s : State) (f : Fld) (k : Nat) : (s.addSat f k).links = s.links := rfl
@[simp] theorem State.addSat_power (s : State) (f : Fld) (k : Nat) : (s.addSat f k).power = s.power := rfl
@[simp] theorem State.addSat_resets (s : State) (f : Fld) (k : Nat) : (s.addSat f k).resets = s.resets := rfl
@[simp] theorem State.addSat_pins (s : State) (f : Fld) (k : Nat) : (s.addSat f k).pins = s.pins := rfl
@[simp] theorem State.addSat_integ (s : State) (f : Fld) (k : Nat) : (s.addSat f k).integ = s.integ := rfl
@[simp] theorem State.addSat_pending (s : State) (f : Fld) (k : Nat) : (s.addSat f k).pending = s.pending := rfl

@[simp] theorem State.addWrap_shadow (s : State) (f : Fld) (k : Nat) : (s.addWrap f k).shadow = s.shadow := rfl
@[simp] theorem State.addWrap_fresh (s : State) (f : Fld) (k : Nat) : (s.addWrap f k).fresh = s.fresh := rfl
@[simp] theorem State.addWrap_out (s : State) (f : Fld) (k : Nat) : (s.addWrap f k).out = s.out := rfl
@[simp] theorem State.addWrap_ports (s : State) (f : Fld) (k : Nat) : (s.addWrap f k).ports = s.ports := rfl
@[simp] theorem State.addWrap_sw (s : State) (f : Fld) (k : Nat) : (s.addWrap f k).sw = s.sw := rfl
@[simp] theorem State.addWrap_cast (s : State) (f : Fld) (k : Nat) : (s.addWrap f k).cast = s.cast := rfl
@[simp] theorem State.addWrap_loop (s : State) (f : Fld) (k : Nat) : (s.addWrap f k).loop = s.loop := rfl
@[simp] theorem State.addWrap_time (s : State) (f : Fld) (k : Nat) : (s.addWrap f k).time = s.time := rfl
@[simp] theorem State.addWrap_eth (s : State) (f : Fld) (k : Nat) : (s.addWrap f k).eth = s.eth := rfl
@[simp] theorem State.addWrap_timers (s : State) (f : Fld) (k : Nat) : (s.addWrap f k).timers = s.timers := rfl
@[simp] theorem State.addWrap_sram (s : State) (f : Fld) (k : Nat) : (s.addWrap f k).sram = s.sram := rfl
@[simp] theorem State.addWrap_sramLen (s : State) (f : Fld) (k : Nat) : (s.addWrap f k).sramLen = s.sramLen := rfl
@[simp] theorem State.addWrap_sramBad (s : State) (f : Fld) (k : Nat) : (s.addWrap f k).sramBad = s.sramBad := rfl
@[simp] theorem State.addWrap_vis (s : State) (f : Fld) (k : Nat) : (s.addWrap f k).vis = s.vis := rfl
@[simp] theorem State.addWrap_mem (s : State) (f : Fld) (k : Nat) : (s.addWrap f k).mem = s.mem := rfl
@[simp] theorem State.addWrap_neural (s : State) (f : Fld) (k : Nat) : (s.addWrap f k).neural = s.neural := rfl
@[simp] theorem State.addWrap_track (s : State) (f : Fld) (k : Nat) : (s.addWrap f k).track = s.track := rfl
@[simp] theorem State.addWrap_solv (s : State) (f : Fld) (k : Nat) : (s.addWrap f k).solv = s.solv := rfl
@[simp] theorem State.addWrap_clsA (s : State) (f : Fld) (k : Nat) : (s.addWrap f k).clsA = s.clsA := rfl
@[simp] theorem State.addWrap_window (s : State) (f : Fld) (k : Nat) : (s.addWrap f k).window = s.window := rfl
@[simp] theorem State.addWrap_map (s : State) (f : Fld) (k : Nat) : (s.addWrap f k).map = s.map := rfl
@[simp] theorem State.addWrap_srch (s : State) (f : Fld) (k : Nat) : (s.addWrap f k).srch = s.srch := rfl
@[simp] theorem State.addWrap_links (s : State) (f : Fld) (k : Nat) : (s.addWrap f k).links = s.links := rfl
@[simp] theorem State.addWrap_power (s : State) (f : Fld) (k : Nat) : (s.addWrap f k).power = s.power := rfl
@[simp] theorem State.addWrap_resets (s : State) (f : Fld) (k : Nat) : (s.addWrap f k).resets = s.resets := rfl
@[simp] theorem State.addWrap_pins (s : State) (f : Fld) (k : Nat) : (s.addWrap f k).pins = s.pins := rfl
@[simp] theorem State.addWrap_integ (s : State) (f : Fld) (k : Nat) : (s.addWrap f k).integ = s.integ := rfl
@[simp] theorem State.addWrap_pending (s : State) (f : Fld) (k : Nat) : (s.addWrap f k).pending = s.pending := rfl

@[simp] theorem State.raiseMax_shadow (s : State) (f : Fld) (v : Nat) : (s.raiseMax f v).shadow = s.shadow := rfl
@[simp] theorem State.raiseMax_fresh (s : State) (f : Fld) (v : Nat) : (s.raiseMax f v).fresh = s.fresh := rfl
@[simp] theorem State.raiseMax_out (s : State) (f : Fld) (v : Nat) : (s.raiseMax f v).out = s.out := rfl
@[simp] theorem State.raiseMax_ports (s : State) (f : Fld) (v : Nat) : (s.raiseMax f v).ports = s.ports := rfl
@[simp] theorem State.raiseMax_sw (s : State) (f : Fld) (v : Nat) : (s.raiseMax f v).sw = s.sw := rfl
@[simp] theorem State.raiseMax_cast (s : State) (f : Fld) (v : Nat) : (s.raiseMax f v).cast = s.cast := rfl
@[simp] theorem State.raiseMax_loop (s : State) (f : Fld) (v : Nat) : (s.raiseMax f v).loop = s.loop := rfl
@[simp] theorem State.raiseMax_time (s : State) (f : Fld) (v : Nat) : (s.raiseMax f v).time = s.time := rfl
@[simp] theorem State.raiseMax_eth (s : State) (f : Fld) (v : Nat) : (s.raiseMax f v).eth = s.eth := rfl
@[simp] theorem State.raiseMax_timers (s : State) (f : Fld) (v : Nat) : (s.raiseMax f v).timers = s.timers := rfl
@[simp] theorem State.raiseMax_sram (s : State) (f : Fld) (v : Nat) : (s.raiseMax f v).sram = s.sram := rfl
@[simp] theorem State.raiseMax_sramLen (s : State) (f : Fld) (v : Nat) : (s.raiseMax f v).sramLen = s.sramLen := rfl
@[simp] theorem State.raiseMax_sramBad (s : State) (f : Fld) (v : Nat) : (s.raiseMax f v).sramBad = s.sramBad := rfl
@[simp] theorem State.raiseMax_vis (s : State) (f : Fld) (v : Nat) : (s.raiseMax f v).vis = s.vis := rfl
@[simp] theorem State.raiseMax_mem (s : State) (f : Fld) (v : Nat) : (s.raiseMax f v).mem = s.mem := rfl
@[simp] theorem State.raiseMax_neural (s : State) (f : Fld) (v : Nat) : (s.raiseMax f v).neural = s.neural := rfl
@[simp] theorem State.raiseMax_track (s : State) (f : Fld) (v : Nat) : (s.raiseMax f v).track = s.track := rfl
@[simp] theorem State.raiseMax_solv (s : State) (f : Fld) (v : Nat) : (s.raiseMax f v).solv = s.solv := rfl
@[simp] theorem State.raiseMax_clsA (s : State) (f : Fld) (v : Nat) : (s.raiseMax f v).clsA = s.clsA := rfl
@[simp] theorem State.raiseMax_window (s : State) (f : Fld) (v : Nat) : (s.raiseMax f v).window = s.window := rfl
@[simp] theorem State.raiseMax_map (s : State) (f : Fld) (v : Nat) : (s.raiseMax f v).map = s.map := rfl
@[simp] theorem State.raiseMax_srch (s : State) (f : Fld) (v : Nat) : (s.raiseMax f v).srch = s.srch := rfl
@[simp] theorem State.raiseMax_links (s : State) (f : Fld) (v : Nat) : (s.raiseMax f v).links = s.links := rfl
@[simp] theorem State.raiseMax_power (s : State) (f : Fld) (v : Nat) : (s.raiseMax f v).power = s.power := rfl
@[simp] theorem State.raiseMax_resets (s : State) (f : Fld) (v : Nat) : (s.raiseMax f v).resets = s.resets := rfl
@[simp] theorem State.raiseMax_pins (s : State) (f : Fld) (v : Nat) : (s.raiseMax f v).pins = s.pins := rfl
@[simp] theorem State.raiseMax_integ (s : State) (f : Fld) (v : Nat) : (s.raiseMax f v).integ = s.integ := rfl
@[simp] theorem State.raiseMax_pending (s : State) (f : Fld) (v : Nat) : (s.raiseMax f v).pending = s.pending := rfl

@[simp] theorem State.tell_regs (s : State) (t : SolverTask) (record : List Byte) : (s.tell t record).regs = s.regs := rfl
@[simp] theorem State.tell_shadow (s : State) (t : SolverTask) (record : List Byte) : (s.tell t record).shadow = s.shadow := rfl
@[simp] theorem State.tell_fresh (s : State) (t : SolverTask) (record : List Byte) : (s.tell t record).fresh = s.fresh := rfl
@[simp] theorem State.tell_out (s : State) (t : SolverTask) (record : List Byte) : (s.tell t record).out = s.out := rfl
@[simp] theorem State.tell_ports (s : State) (t : SolverTask) (record : List Byte) : (s.tell t record).ports = s.ports := rfl
@[simp] theorem State.tell_sw (s : State) (t : SolverTask) (record : List Byte) : (s.tell t record).sw = s.sw := rfl
@[simp] theorem State.tell_cast (s : State) (t : SolverTask) (record : List Byte) : (s.tell t record).cast = s.cast := rfl
@[simp] theorem State.tell_loop (s : State) (t : SolverTask) (record : List Byte) : (s.tell t record).loop = s.loop := rfl
@[simp] theorem State.tell_time (s : State) (t : SolverTask) (record : List Byte) : (s.tell t record).time = s.time := rfl
@[simp] theorem State.tell_eth (s : State) (t : SolverTask) (record : List Byte) : (s.tell t record).eth = s.eth := rfl
@[simp] theorem State.tell_timers (s : State) (t : SolverTask) (record : List Byte) : (s.tell t record).timers = s.timers := rfl
@[simp] theorem State.tell_sram (s : State) (t : SolverTask) (record : List Byte) : (s.tell t record).sram = s.sram := rfl
@[simp] theorem State.tell_sramLen (s : State) (t : SolverTask) (record : List Byte) : (s.tell t record).sramLen = s.sramLen := rfl
@[simp] theorem State.tell_sramBad (s : State) (t : SolverTask) (record : List Byte) : (s.tell t record).sramBad = s.sramBad := rfl
@[simp] theorem State.tell_vis (s : State) (t : SolverTask) (record : List Byte) : (s.tell t record).vis = s.vis := rfl
@[simp] theorem State.tell_mem (s : State) (t : SolverTask) (record : List Byte) : (s.tell t record).mem = s.mem := rfl
@[simp] theorem State.tell_neural (s : State) (t : SolverTask) (record : List Byte) : (s.tell t record).neural = s.neural := rfl
@[simp] theorem State.tell_track (s : State) (t : SolverTask) (record : List Byte) : (s.tell t record).track = s.track := rfl
@[simp] theorem State.tell_solv (s : State) (t : SolverTask) (record : List Byte) : (s.tell t record).solv = { s.solv with told := (t, record) :: s.solv.told.filter (fun e => e.1 != t) } := rfl
@[simp] theorem State.tell_clsA (s : State) (t : SolverTask) (record : List Byte) : (s.tell t record).clsA = s.clsA := rfl
@[simp] theorem State.tell_window (s : State) (t : SolverTask) (record : List Byte) : (s.tell t record).window = s.window := rfl
@[simp] theorem State.tell_map (s : State) (t : SolverTask) (record : List Byte) : (s.tell t record).map = s.map := rfl
@[simp] theorem State.tell_srch (s : State) (t : SolverTask) (record : List Byte) : (s.tell t record).srch = s.srch := rfl
@[simp] theorem State.tell_links (s : State) (t : SolverTask) (record : List Byte) : (s.tell t record).links = s.links := rfl
@[simp] theorem State.tell_power (s : State) (t : SolverTask) (record : List Byte) : (s.tell t record).power = s.power := rfl
@[simp] theorem State.tell_resets (s : State) (t : SolverTask) (record : List Byte) : (s.tell t record).resets = s.resets := rfl
@[simp] theorem State.tell_pins (s : State) (t : SolverTask) (record : List Byte) : (s.tell t record).pins = s.pins := rfl
@[simp] theorem State.tell_integ (s : State) (t : SolverTask) (record : List Byte) : (s.tell t record).integ = s.integ := rfl
@[simp] theorem State.tell_pending (s : State) (t : SolverTask) (record : List Byte) : (s.tell t record).pending = s.pending := rfl

@[simp] theorem State.askReset_regs (s : State) (n cause : Nat) : (s.askReset n cause).regs = s.regs := by
  unfold State.askReset; split <;> rfl
@[simp] theorem State.askReset_shadow (s : State) (n cause : Nat) : (s.askReset n cause).shadow = s.shadow := by
  unfold State.askReset; split <;> rfl
@[simp] theorem State.askReset_fresh (s : State) (n cause : Nat) : (s.askReset n cause).fresh = s.fresh := by
  unfold State.askReset; split <;> rfl
@[simp] theorem State.askReset_out (s : State) (n cause : Nat) : (s.askReset n cause).out = s.out := by
  unfold State.askReset; split <;> rfl
@[simp] theorem State.askReset_ports (s : State) (n cause : Nat) : (s.askReset n cause).ports = s.ports := by
  unfold State.askReset; split <;> rfl
@[simp] theorem State.askReset_cast (s : State) (n cause : Nat) : (s.askReset n cause).cast = s.cast := by
  unfold State.askReset; split <;> rfl
@[simp] theorem State.askReset_loop (s : State) (n cause : Nat) : (s.askReset n cause).loop = s.loop := by
  unfold State.askReset; split <;> rfl
@[simp] theorem State.askReset_time (s : State) (n cause : Nat) : (s.askReset n cause).time = s.time := by
  unfold State.askReset; split <;> rfl
@[simp] theorem State.askReset_eth (s : State) (n cause : Nat) : (s.askReset n cause).eth = s.eth := by
  unfold State.askReset; split <;> rfl
@[simp] theorem State.askReset_timers (s : State) (n cause : Nat) : (s.askReset n cause).timers = s.timers := by
  unfold State.askReset; split <;> rfl
@[simp] theorem State.askReset_sram (s : State) (n cause : Nat) : (s.askReset n cause).sram = s.sram := by
  unfold State.askReset; split <;> rfl
@[simp] theorem State.askReset_sramLen (s : State) (n cause : Nat) : (s.askReset n cause).sramLen = s.sramLen := by
  unfold State.askReset; split <;> rfl
@[simp] theorem State.askReset_sramBad (s : State) (n cause : Nat) : (s.askReset n cause).sramBad = s.sramBad := by
  unfold State.askReset; split <;> rfl
@[simp] theorem State.askReset_vis (s : State) (n cause : Nat) : (s.askReset n cause).vis = s.vis := by
  unfold State.askReset; split <;> rfl
@[simp] theorem State.askReset_mem (s : State) (n cause : Nat) : (s.askReset n cause).mem = s.mem := by
  unfold State.askReset; split <;> rfl
@[simp] theorem State.askReset_neural (s : State) (n cause : Nat) : (s.askReset n cause).neural = s.neural := by
  unfold State.askReset; split <;> rfl
@[simp] theorem State.askReset_track (s : State) (n cause : Nat) : (s.askReset n cause).track = s.track := by
  unfold State.askReset; split <;> rfl
@[simp] theorem State.askReset_solv (s : State) (n cause : Nat) : (s.askReset n cause).solv = s.solv := by
  unfold State.askReset; split <;> rfl
@[simp] theorem State.askReset_clsA (s : State) (n cause : Nat) : (s.askReset n cause).clsA = s.clsA := by
  unfold State.askReset; split <;> rfl
@[simp] theorem State.askReset_window (s : State) (n cause : Nat) : (s.askReset n cause).window = s.window := by
  unfold State.askReset; split <;> rfl
@[simp] theorem State.askReset_map (s : State) (n cause : Nat) : (s.askReset n cause).map = s.map := by
  unfold State.askReset; split <;> rfl
@[simp] theorem State.askReset_srch (s : State) (n cause : Nat) : (s.askReset n cause).srch = s.srch := by
  unfold State.askReset; split <;> rfl
@[simp] theorem State.askReset_links (s : State) (n cause : Nat) : (s.askReset n cause).links = s.links := by
  unfold State.askReset; split <;> rfl
@[simp] theorem State.askReset_power (s : State) (n cause : Nat) : (s.askReset n cause).power = s.power := by
  unfold State.askReset; split <;> rfl
@[simp] theorem State.askReset_resets (s : State) (n cause : Nat) : (s.askReset n cause).resets = s.resets := by
  unfold State.askReset; split <;> rfl
@[simp] theorem State.askReset_pins (s : State) (n cause : Nat) : (s.askReset n cause).pins = s.pins := by
  unfold State.askReset; split <;> rfl
@[simp] theorem State.askReset_integ (s : State) (n cause : Nat) : (s.askReset n cause).integ = s.integ := by
  unfold State.askReset; split <;> rfl
@[simp] theorem State.askReset_pending (s : State) (n cause : Nat) : (s.askReset n cause).pending = s.pending := by
  unfold State.askReset; split <;> rfl
@[simp] theorem State.raiseFault_regs (s : State) (c source : Nat) (detail : Word) : (s.raiseFault c source detail).regs = s.regs := by
  simp only [State.raiseFault]; split <;> first | exact State.askReset_regs _ _ _ | rfl
@[simp] theorem State.raiseFault_shadow (s : State) (c source : Nat) (detail : Word) : (s.raiseFault c source detail).shadow = s.shadow := by
  simp only [State.raiseFault]; split <;> first | exact State.askReset_shadow _ _ _ | rfl
@[simp] theorem State.raiseFault_fresh (s : State) (c source : Nat) (detail : Word) : (s.raiseFault c source detail).fresh = s.fresh := by
  simp only [State.raiseFault]; split <;> first | exact State.askReset_fresh _ _ _ | rfl
@[simp] theorem State.raiseFault_out (s : State) (c source : Nat) (detail : Word) : (s.raiseFault c source detail).out = s.out := by
  simp only [State.raiseFault]; split <;> first | exact State.askReset_out _ _ _ | rfl
@[simp] theorem State.raiseFault_ports (s : State) (c source : Nat) (detail : Word) : (s.raiseFault c source detail).ports = s.ports := by
  simp only [State.raiseFault]; split <;> first | exact State.askReset_ports _ _ _ | rfl
@[simp] theorem State.raiseFault_cast (s : State) (c source : Nat) (detail : Word) : (s.raiseFault c source detail).cast = s.cast := by
  simp only [State.raiseFault]; split <;> first | exact State.askReset_cast _ _ _ | rfl
@[simp] theorem State.raiseFault_loop (s : State) (c source : Nat) (detail : Word) : (s.raiseFault c source detail).loop = s.loop := by
  simp only [State.raiseFault]; split <;> first | exact State.askReset_loop _ _ _ | rfl
@[simp] theorem State.raiseFault_time (s : State) (c source : Nat) (detail : Word) : (s.raiseFault c source detail).time = s.time := by
  simp only [State.raiseFault]; split <;> first | exact State.askReset_time _ _ _ | rfl
@[simp] theorem State.raiseFault_eth (s : State) (c source : Nat) (detail : Word) : (s.raiseFault c source detail).eth = s.eth := by
  simp only [State.raiseFault]; split <;> first | exact State.askReset_eth _ _ _ | rfl
@[simp] theorem State.raiseFault_timers (s : State) (c source : Nat) (detail : Word) : (s.raiseFault c source detail).timers = s.timers := by
  simp only [State.raiseFault]; split <;> first | exact State.askReset_timers _ _ _ | rfl
@[simp] theorem State.raiseFault_sram (s : State) (c source : Nat) (detail : Word) : (s.raiseFault c source detail).sram = s.sram := by
  simp only [State.raiseFault]; split <;> first | exact State.askReset_sram _ _ _ | rfl
@[simp] theorem State.raiseFault_sramLen (s : State) (c source : Nat) (detail : Word) : (s.raiseFault c source detail).sramLen = s.sramLen := by
  simp only [State.raiseFault]; split <;> first | exact State.askReset_sramLen _ _ _ | rfl
@[simp] theorem State.raiseFault_sramBad (s : State) (c source : Nat) (detail : Word) : (s.raiseFault c source detail).sramBad = s.sramBad := by
  simp only [State.raiseFault]; split <;> first | exact State.askReset_sramBad _ _ _ | rfl
@[simp] theorem State.raiseFault_vis (s : State) (c source : Nat) (detail : Word) : (s.raiseFault c source detail).vis = s.vis := by
  simp only [State.raiseFault]; split <;> first | exact State.askReset_vis _ _ _ | rfl
@[simp] theorem State.raiseFault_mem (s : State) (c source : Nat) (detail : Word) : (s.raiseFault c source detail).mem = s.mem := by
  simp only [State.raiseFault]; split <;> first | exact State.askReset_mem _ _ _ | rfl
@[simp] theorem State.raiseFault_neural (s : State) (c source : Nat) (detail : Word) : (s.raiseFault c source detail).neural = s.neural := by
  simp only [State.raiseFault]; split <;> first | exact State.askReset_neural _ _ _ | rfl
@[simp] theorem State.raiseFault_track (s : State) (c source : Nat) (detail : Word) : (s.raiseFault c source detail).track = s.track := by
  simp only [State.raiseFault]; split <;> first | exact State.askReset_track _ _ _ | rfl
@[simp] theorem State.raiseFault_solv (s : State) (c source : Nat) (detail : Word) : (s.raiseFault c source detail).solv = s.solv := by
  simp only [State.raiseFault]; split <;> first | exact State.askReset_solv _ _ _ | rfl
@[simp] theorem State.raiseFault_clsA (s : State) (c source : Nat) (detail : Word) : (s.raiseFault c source detail).clsA = s.clsA := by
  simp only [State.raiseFault]; split <;> first | exact State.askReset_clsA _ _ _ | rfl
@[simp] theorem State.raiseFault_window (s : State) (c source : Nat) (detail : Word) : (s.raiseFault c source detail).window = s.window := by
  simp only [State.raiseFault]; split <;> first | exact State.askReset_window _ _ _ | rfl
@[simp] theorem State.raiseFault_map (s : State) (c source : Nat) (detail : Word) : (s.raiseFault c source detail).map = s.map := by
  simp only [State.raiseFault]; split <;> first | exact State.askReset_map _ _ _ | rfl
@[simp] theorem State.raiseFault_srch (s : State) (c source : Nat) (detail : Word) : (s.raiseFault c source detail).srch = s.srch := by
  simp only [State.raiseFault]; split <;> first | exact State.askReset_srch _ _ _ | rfl
@[simp] theorem State.raiseFault_links (s : State) (c source : Nat) (detail : Word) : (s.raiseFault c source detail).links = s.links := by
  simp only [State.raiseFault]; split <;> first | exact State.askReset_links _ _ _ | rfl
@[simp] theorem State.raiseFault_power (s : State) (c source : Nat) (detail : Word) : (s.raiseFault c source detail).power = s.power := by
  simp only [State.raiseFault]; split <;> first | exact State.askReset_power _ _ _ | rfl
@[simp] theorem State.raiseFault_resets (s : State) (c source : Nat) (detail : Word) : (s.raiseFault c source detail).resets = s.resets := by
  simp only [State.raiseFault]; split <;> first | exact State.askReset_resets _ _ _ | rfl
@[simp] theorem State.raiseFault_pins (s : State) (c source : Nat) (detail : Word) : (s.raiseFault c source detail).pins = s.pins := by
  simp only [State.raiseFault]; split <;> first | exact State.askReset_pins _ _ _ | rfl
@[simp] theorem State.raiseFault_pending (s : State) (c source : Nat) (detail : Word) : (s.raiseFault c source detail).pending = s.pending := by
  simp only [State.raiseFault]; split <;> first | exact State.askReset_pending _ _ _ | rfl

end Sys2Proof.Machine
end

