-- ==== Sys2Proof/WellFormed.lean ====
section
/-!
DEFINITION. When a command carries what its source can carry: lengths of messages and records, and numbers in their ranges. Every
command has its meaning whether or not it is well formed; a statement may ask for it.
-/
namespace Sys2Proof

/-- The symbols of a Selvedge word are its 39 positions, and a listed one differs (R320). -/
def SymbolErrors.wellFormed (e : SymbolErrors) : Bool := e.all (fun x => decide (x.1 < 39) && x.2 != 0)

/-- Errors by word. -/
def errorsWellFormed (l : List (Nat × SymbolErrors)) : Bool := l.all (fun x => SymbolErrors.wellFormed x.2)

/-- A message has at least its head flit, no more arrived than sent (R74), a route of at most four links, none twice (R68), and
halves with possible errors. -/
def CrossingMessage.wellFormed (m : CrossingMessage) : Bool :=
  decide (1 ≤ m.flits) && decide (m.arrived ≤ m.flits) && decide (m.links.length ≤ 4) &&
    decide ((m.links.map Prod.fst).Nodup) && errorsWellFormed m.halves

/-- A fault cause of Table 16.3. -/
def causeWellFormed (c : Nat) : Bool := decide (1 ≤ c) && decide (c ≤ 16)

/-- A flit names a cause. -/
def FaultFlit.wellFormed : FaultFlit → Bool
  | .report r => causeWellFormed r.cause
  | .summary c k => causeWellFormed c && decide (1 ≤ k)
  | .close c => causeWellFormed c

/-- Readings of the eight temperature sensors (R595). -/
def readingsWellFormed (l : List Int) : Bool := l.length == 8

/-- What a command carries lies within what its source can give. -/
def Instr.wellFormed : Instr → Bool
  | .dataCrossingMessage m => m.wellFormed
  | .fuseSenseDone _ raw => readingsWellFormed raw
  | .governorInterval _ raw => readingsWellFormed raw
  | .slotHeadersRead a b ok => !ok || (a.length == 4096 && b.length == 4096)
  | .ethFrameReceived _ frame _ _ => decide (14 ≤ frame.length) && decide (frame.length ≤ 1522)
  | .csiFrameStart _ _ _ number _ => decide (number < 65536)
  | .csiLongPacket _ _ dt _ payload _ => decide (dt < 64) && decide (payload.length < 65536)
  | .csiEmbeddedPacket _ _ _ payload _ => decide (payload.length < 65536)
  | .verifierJobSubmit _ job => job.length == 64
  | .problemSubmit _ request => request.length == 64
  | .weightChunkLoaded _ _ errors => errorsWellFormed errors
  | .neuralStepDone _ _ _ errors => errorsWellFormed errors
  | .movePageCopied errors _ => errorsWellFormed errors.words
  | .objectAccess _ _ _ n data errors => errorsWellFormed errors.words && (match data with | some d => d.length == n | none => true)
  | .patrolScrubRead errors => errors.wellFormed
  | .sramIdleScrub _ _ errors => errors.wellFormed
  | .listPageRead _ _ _ _ _ _ errors => errorsWellFormed errors
  | .i3cPrivateWrite _ words => decide (words.length ≤ 256)
  | .hdrDdrWrite _ words => decide (words.length ≤ 256)
  | .i3cPrivateRead n => decide (n ≤ 256)
  | .hdrDdrRead n => decide (n ≤ 256)
  | .imuReadDone _ acknowledged bytes => !acknowledged || bytes.length == 12
  | .faultNodeFlit _ f => f.wellFormed
  | .faultRootArrive f => f.wellFormed
  | .faultWindowClose c => decide (1 ≤ c.val)
  | .brownHoldEnd us => decide (20 ≤ us)
  | .registerWrite _ _ _ => true
  | .registerLoWrite _ _ _ => true
  | .registerHiWrite _ _ _ => true
  | .registerLoRead _ _ => true
  | .registerHiRead _ _ => true
  | .timeNowSecLoRead _ => true
  | .attestWinDataRead _ => true
  | .faultLogDataRead _ => true
  | .swReset _ => true
  | .swatchResetRequest _ _ => true
  | .swatchSramCleared _ => true
  | .swatchResetRelease _ => true
  | .swatchRestoreDone _ => true
  | .pllUnlock _ => true
  | .pllTimeRelock => true
  | .eventCrossingPulse _ _ => true
  | .pllSysLocked => true
  | .pllIoTimeLocked => true
  | .flashModeReady _ _ => true
  | .signatureVerified _ _ => true
  | .sectionRead _ _ => true
  | .pllArithLocked => true
  | .memTrainingDone _ => true
  | .residencyAnalysisDone _ _ => true
  | .castOnLock _ => true
  | .rollbackCommit _ => true
  | .fuseBitBlown _ => true
  | .program _ => true
  | .lockKeys _ => true
  | .attestStart _ => true
  | .attestDone => true
  | .bindOffRequest _ => true
  | .bindOffNandDrained => true
  | .bindOffComplete => true
  | .loopStart => true
  | .periodBoundary => true
  | .inputCutoff => true
  | .imuPropagationDone => true
  | .estimatorUpdateDone => true
  | .solverDeadline => true
  | .frameBuild _ => true
  | .launchHandoff _ => true
  | .launchEgress _ _ => true
  | .syncReceived _ _ => true
  | .timeStep => true
  | .syncTimeout => true
  | .freeRunTimeout => true
  | .announceReceived _ _ => true
  | .rearm _ => true
  | .timeRateWrite _ => true
  | .pdelayReqTimer _ => true
  | .pdelayExchangeDone _ _ _ _ => true
  | .pdelayReqReceived _ _ _ _ => true
  | .frameForwardEgress _ _ => true
  | .ethLinkChange _ _ => true
  | .ethPortReset _ _ => true
  | .toutCtrlWrite _ _ => true
  | .toutEdge _ => true
  | .tinEdge _ _ _ _ => true
  | .tinPop _ _ => true
  | .csiFrameEnd _ _ _ _ => true
  | .csiPhyError _ => true
  | .csiRxPortReset _ _ => true
  | .instantIssue _ => true
  | .claim _ _ => true
  | .advance _ _ _ => true
  | .publish _ _ => true
  | .abandon _ _ => true
  | .acquire _ _ _ _ => true
  | .release _ _ => true
  | .hold _ _ => true
  | .unhold _ _ => true
  | .activationDeadline _ => true
  | .nodeIssue _ => true
  | .nodeStart _ => true
  | .engineUnitDone _ _ => true
  | .nodeEnd _ _ => true
  | .keepRun _ _ => true
  | .verifierJobDone _ => true
  | .verifierDeadline => true
  | .sgmPassDone _ _ => true
  | .neuralRequestArrive _ _ => true
  | .neuralRequestStart _ _ => true
  | .neuralRequestEnd _ _ => true
  | .promote _ _ _ _ => true
  | .evict _ _ _ => true
  | .writeback _ _ => true
  | .pin _ _ => true
  | .unpin _ _ => true
  | .moveSwitch => true
  | .spaceManagerEvict _ => true
  | .directoryRebuildDone => true
  | .tileRegionReclaim _ => true
  | .mr4Poll _ _ => true
  | .imuSampleArrive _ => true
  | .jointFrameArrive _ => true
  | .featureUpdateDone _ => true
  | .trackingUpdateDrop _ _ => true
  | .objectUpdateDone _ => true
  | .assignmentDone _ _ => true
  | .load _ _ _ _ => true
  | .loadDone => true
  | .problemStart => true
  | .assemblyDone _ _ => true
  | .factorisationDone _ _ => true
  | .solveDone _ _ => true
  | .proofCheckDone _ _ => true
  | .iterationDone _ _ => true
  | .refineStepDone _ _ => true
  | .finalCheckDone _ _ => true
  | .problemDeadline _ => true
  | .solv1Suspend => true
  | .stopPointReceived => true
  | .pairCompare => true
  | .windowRun => true
  | .poseNodeCreate => true
  | .poseGraphBuild => true
  | .poseGraphResult => true
  | .nandChannelInitDone _ _ _ => true
  | .indexEpochLoadDone _ _ => true
  | .querySubmit _ _ => true
  | .queryAdmit => true
  | .coarseBatchDone => true
  | .queryMerge => true
  | .queryDeadline => true
  | .placeQuery => true
  | .placeVote => true
  | .indexBegin => true
  | .indexPage _ => true
  | .indexEnd => true
  | .importPinsClear => true
  | .importEraseDone _ => true
  | .importCommitDone _ => true
  | .srchProbeStart _ => true
  | .probeDone => true
  | .transmitPublication _ => true
  | .transmitPacketDone _ => true
  | .transmitCut _ => true
  | .commandStatusSend => true
  | .tileDeltaSend => true
  | .csiTxPortReset _ _ => true
  | .commandMessage _ _ _ _ _ _ => true
  | .qpDelta => true
  | .target => true
  | .tile => true
  | .tileAssemblyDone => true
  | .index => true
  | .i3cSetReadPointer _ => true
  | .enec => true
  | .disec => true
  | .rstdaa => true
  | .entdaa _ => true
  | .setdasa _ _ => true
  | .setnewda _ => true
  | .getpid => true
  | .getbcr => true
  | .getdcr => true
  | .getstatus => true
  | .getmwl => true
  | .setmwl _ => true
  | .getmrl => true
  | .setmrl _ => true
  | .rstactPort => true
  | .rstactWarm => true
  | .ibiSend _ => true
  | .imuInitEntry _ => true
  | .imuDrdyEdge _ _ _ => true
  | .thermalTrip => true
  | .brownHoldBegin => true
  | .pwrReqRun _ => true
  | .pwrReqDoze _ => true
  | .pwrReqNap _ => true
  | .pwrReqHibernate _ => true
  | .dozeEntered => true
  | .napLoopStop => true
  | .napEntered => true
  | .hibernateEntered => true
  | .wakeTime => true
  | .tin0Wake _ => true
  | .sleepTimer => true
  | .wakeDone => true
  | .powerOn => true
  | .supplyReset _ => true
  | .resetN _ => true
  | .rstCtrlWarm _ => true
  | .warmResetEnd => true
  | .coldResetEnd _ => true
  | .refclkAbsent => true
  | .checkFeedStart _ _ => true
  | .checkFeedData _ _ => true
  | .checkFeedEnd _ _ => true
  | .checkMessageDone _ => true
  | .wdogSwatch _ => true
  | .wdogChipLoop => true
  | .wdogChipHost => true
  | .wdogChipKick _ => true
  | .snapArm _ => true
  | .snapCancel _ => true
  | .snapshotInstant => true
  | .snapshotComplete => true
  | .testEnChange _ => true
  | .extest _ => true
  | .samplePreload _ => true
  | .clamp => true
  | .highz => true
  | .bypass _ => true
  | .trstN _ => true
  | .followUpReceived _ _ => true
  | .portResetEnd _ => true
  | .hibernatePowerUpDone => true
  | .flashCommandTimeout => true
  | .refclkResume => true
  | .supplyGood _ => true

end Sys2Proof
end

