-- ==== Sys2Proof/Tests/Slice0.lean ====
section
/-!
SUPPORT. Tests: well-formedness, and for every statement with hypotheses a state and operands that meet them.
-/
set_option Elab.async false
namespace Sys2Proof.Tests
open Sys2Proof Sys2Proof.Machine

/-! ### States -/

/-- The canonical form from its checks. -/
theorem canonical_of_checks {s : State} (h : (Store.wf 0 s.regs && Store.wf 0 s.shadow && Store.wf 0 s.sram && Store.wf 0 s.integ.log &&
    Store.wf 0 s.mem.bytes && Store.wf 0 s.mem.recordBytes && Store.wf 0 s.srch.flash) = true) : s.Canonical := by
  simp only [Bool.and_eq_true] at h
  obtain ⟨⟨⟨⟨⟨⟨a, b⟩, c⟩, d⟩, e⟩, f⟩, g⟩ := h
  exact ⟨a, b, c, d, e, f, g⟩

/-- What a factorisation answers, from a check of it. -/
theorem ok_of_check {x : Except Nat Factor} {f : Factor} (h : (match x with | .ok g => decide (g = f) | .error _ => false) = true) :
    x = .ok f := by
  cases x with
  | ok g => exact congrArg _ (of_decide_eq_true h)
  | error _ => cases h
/-- A claim about the value of an option, from a check of it. -/
theorem forall_some {α : Type} {o : Option α} {p : α → Prop} [DecidablePred p]
    (h : (match o with | some a => decide (p a) | none => true) = true) : ∀ a, o = some a → p a := by
  intro a e
  subst e
  exact of_decide_eq_true h
theorem error_of_check {x : Except Nat Factor} {j : Nat} (h : (match x with | .ok _ => false | .error k => decide (k = j)) = true) :
    x = .error j := by
  cases x with
  | error k => exact congrArg _ (of_decide_eq_true h)
  | ok _ => cases h

def up : State :=
  ({ State.reset with sw := { Swatches.reset with inReset := 0 }, time := { TimeBase.reset with running := true }, cast := { CastOn.reset with step := .stopped } }.setFlag
    fld_SYS_LOCK_LOCKED true |>.setFld fld_PLL_STATUS_LOCK 0xFF).setFld fld_SEC_STATE_PHASE phaseRunning
def granting (a : Nat) (s : State) : State :=
  { s with cast := { s.cast with grants := ⟨BitVec.ofNat 32 a, BitVec.allOnes 32, 0, BitVec.allOnes 32⟩ :: s.cast.grants } }
@[irreducible] def digest0 : List Byte := sha512 (slice [] 0 0)
theorem digest0_eq : sha512 (slice [] 0 0) = digest0 := by unfold digest0; rfl
def casting (k : CastStep) : State :=
  { (State.reset.setFld fld_SEC_STATE_PHASE phaseCasting).setFlag fld_SEC_STATE_KEYS_LOCKED true with cast := { CastOn.reset with step := k } }
def imuUp : State := ((up.setFlag (fld_IMU_STATUS_ENABLED 3) true).setFlag (fld_IMU_PORT_STATUS_ADDR_VALID 3) true).setFld (fld_IMU_PORT_CFG_STATIC_ADDR 3) 8
def jointBody : List Byte := let p := [0x46, 0x4A, 1, 0, 5, 0, 1, 0, 9, 0, 0, 0] ++ List.replicate 20 0 ++ [3, 0, 1, 0, 1, 2, 3, 4] ++ List.replicate 8 0; p ++ toLe 4 (crc32c p)
def jointUp (frame : List Byte) : State := up.setMac 1 { EthPort.idle with delivered := [(0, 5, []), (1, 7, frame)] }
def tapped (s : State) : State := { s with time := { s.time with eras := [⟨0, 0, 2 ^ 49⟩] } }
def timed (servo : Nat) : State := ((((((tapped up).setFlag fld_TIME_STATUS_STEP_ARMED false).setFlag fld_TIME_STATUS_SLAVE_VALID true).setFlag (fld_ETH_STATUS_AS_CAPABLE 0) true).setFld fld_TIME_STATUS_STATE servo).setFld
  fld_TIME_LIMITS_LOCK_NS 1000).setFld fld_TIME_LIMITS_JUMP_LIMIT_NS 5000
def sync0 (origin : Nat) : SyncMessage := ⟨false, 0, 0, 7, origin, 0, -3, 0, ⟨100, 0⟩⟩
def ethUp : State := ((((tapped up).setFlag (fld_ETH_CTRL_ENABLE 1) true).setFlag (fld_ETH_STATUS_LINK 1) true).setFlag (fld_ETH_CTRL_FWD_ENABLE 0) true).setFlag (fld_ETH_CTRL_FWD_ENABLE 1) true
def rawFrame (ty : Byte) (body : List Byte) : List Byte := [1, 2, 3, 4, 5, 6] ++ List.replicate 6 9 ++ [ty, 0xF7] ++ body
def running : State := { up.setFlag fld_CLA_STATUS_RUNNING true with loop := { Loop.reset with grid := true, period := 1000, cutoff := 10, launch := 400, boundary := 1000 * 65536, cutoffAt := 11000 * 65536, launchAt := 411000 * 65536 } }
def work0 : PeriodWork := { period := 7, cutoff := 11000 * 65536, launch := 411000 * 65536, adopted := false, propagated := false, flags := 0, words := [], published := false, result := none, compared := false, ready := false, built := false, suspect := false, brown := false }
def working (w : PeriodWork) : State := { running with clsA := { ClassA.reset with work := some w } }
def oneFrame : List Byte := List.replicate 0x1E 0 ++ [1, 0] ++ List.replicate 32 0 ++ [1, 0xFF, 64, 0, 0x60, 0, 0, 0, 14, 0, 0, 0, 0, 0, 0, 0, 100, 0, 0, 0] ++ List.replicate 12 0 ++ List.replicate 64 7
def marked (k : Marker) : State := (up.setObjBytes 8 1 (40 * 4095) [1, 0x10, 2, 0, 5, 0x10, 6, 0x10]).setMarker 4095 k
def camera : State :=
  ((((((((up.setFlag (fld_CSI_RX_CFG_ENABLE 11) true).setFlag (fld_STREAM_CFG_ENABLE 5) true).setFld (fld_STREAM_CFG_PORT 5) 11).setFld (fld_STREAM_CFG_VC 5) 3).setFld
    (fld_STREAM_CFG_DT 5) 0x2A).setFld (fld_STREAM_CFG_DEPTH 5) 2).setFld (fld_STREAM_GEOM_WIDTH 5) 4).setFld (fld_STREAM_GEOM_HEIGHT 5) 20).setFld (fld_STREAM_LINK_MARKER 5) 100
    |>.setObjBytes 8 1 4000 (toLe 2 (ingestAgent 5) ++ List.replicate 38 0 ++ toLe 2 (ingestAgent 5))
def filming (lines : Nat) : State :=
  (camera.setMarker 100 { Marker.reset with state := .writing, gen := 1, claimed := 1 }).setStream 5 { Stream.reset with frame := some ⟨0, 1, 7, 7, lines, 0⟩, order := [0] }
def ff (n : Nat) : List Byte := List.replicate n 0xFF
def nodeBytes (type flags : Byte) (in0 : List Byte) (params : List Byte) : List Byte := [type, 0xFF, flags, 0] ++ in0 ++ ff 6 ++ [0, 0, 0, 0] ++ ff 8 ++ params
def graphed (d : List Byte) (r : NodeRun) (stale : Bool) : State :=
  (up.loadObj 8 0x17 16 d).setGraph 7 { Graph.reset with act := some ⟨3, 0, 65536, 1, 5, [], stale, [], [r, NodeRun.reset]⟩ }
def queued : NodeRun := { NodeRun.reset with phase := .queued, inputs := List.replicate 4 none, outputs := List.replicate 4 none }
def onEngine (e : Nat) : NodeRun := { queued with phase := .running, engine := some e }
def fabric (q : NeuralRun) (r : NodeRun) : State :=
  { (graphed (nodeBytes 6 0 (ff 2) [5]) r false).loadObj 8 0x105 0 ([1, 0, 1, 0, 1] ++ List.replicate 59 0 ++ [0, 0, 0, 0, 4, 0, 4, 0, 16, 0] ++ List.replicate 22 0
    ++ [1] ++ List.replicate 31 0 ++ [0, 2, 0, 0]) with neural := { Neural.reset with running := [q] } }
def neuralJob : NeuralRun := ⟨7, 0, 5, 0, 1, 0, [], false, false, false, [], [], 0⟩
def memory (l : List (Nat × MemObject)) : State :=
  { up.setFlag fld_MEM_STATUS_TRAINED true with mem := { Memory.reset with objects := l.map (fun x => (x.1, some x.2)), dramPages := 100 } }
def tileObj (home : Nat) (dirty : Bool) : MemObject := ⟨4096, true, home, dirty, some ⟨7, 4096, 0⟩, 3, []⟩
def readyTile (home : Nat) (dirty : Bool) : State := (memory [(0x40000005, tileObj home dirty)]).setFlag fld_MEM_STATUS_DIR_READY true
def update (object : Bool) : TrackUpdate := ⟨object, 3, 2, 4, true, 100 * 65536, 7, 9, 100000, false, [none, none, none, none], none, false, [], none⟩
def updating (u : TrackUpdate) : State := { up with track := { Tracking.reset with updates := [u, { u with set := 5 }] } }
def one : Structure := ⟨0, 0, 1, 1, 1, 1, 1, [(0, 1)], 9, 0, 0, [0, 1], [0], [0], [0], [], [[]], 0, 1, 0⟩
def oneQp : Structure := { one with kind := 1, segs := [(0, 1), (1, 0), (2, 0)] }
def four : Fp := .num 4 false
def factor4 : Factor := ⟨[four], [[]], [], false⟩
def solved (x : Rat) : Solve := ⟨[(0, 0, four)], factor4, [.num 8 false], [.num x false]⟩
def request : SolverRequest := ⟨2, 0, 0, 10, 3, 0, 0, 0, 100 * 65536, 0, []⟩
def slotOf (t : Structure) (f : Option Factor) : SolverSlot := { SolverSlot.empty with code := 1, struct := some t, values := [(0, 0x40800000), (1, 0x41000000)], factor := f }
def core (c : Nat) (t : Structure) (f : Option Factor) : State := up.setSolverSlot c 2 (slotOf t f)
def problem0 (g : SolverStage) (t : Structure) : Problem := { newProblem request .map 5 t [] 0 false with stage := g }
def solving (c : Nat) (t : Structure) (f : Option Factor) (p : Problem) : State := (core c t f).setProblem c (some p)
def queueing (n : Nat) (t : SolverTask) (r : SolverRequest) : State :=
  { core 1 one none with solv := { (core 1 one none).solv with queue := List.replicate n (t, r) } }
def pairing (a b : SolverResult) : State :=
  { (working work0).setFlag fld_CLA_CTRL_PAIRED true with solv := { Solvers.reset with formed := [(0, some a), (1, some b)] } }
def result0 (x : Byte) : SolverResult := ⟨.classA, 0, List.replicate 100 x, List.replicate 100 x, false, 9, false, ⟨[], [], []⟩⟩
def batch0 : List Byte := [3, 8, 0, 0, 9, 0, 0, 0] ++ [100, 0, 0, 0, 0, 0, 0, 0] ++ List.replicate 48 0
def estimate0 (at_ : Nat) : EstimateEntry := ⟨6, at_ * 65536, List.replicate 40 0, [], none, 0⟩
def windowed (at_ : Nat) : State := { up with window := { Window.reset with waiting := [(1000, 0, batch0)], estimates := [estimate0 at_] } }
def keyframe : NewNode := ⟨[0, 0, 0, 0x3F800000, 0x40000000, 0x40400000, 0], batch0, 0⟩
def mapping (l : List NewNode) : State :=
  { ((up.setObjBytes 14 0x31 2 [5, 0, 100, 0]).setFlag fld_MEM_STATUS_DIR_READY true).setFld fld_MEM_TILE_CFG_DIR_ENTRIES 10000 with
    map := { MapTask.reset with waiting := l }, mem := { Memory.reset with dramPages := 100 } }
def mapped : State := match exec .poseNodeCreate (mapping [keyframe]) with | .next t => { t with map := { t.map with pinned := [4096 * 2 + 3], admitted := true } } | _ => up
def indexHead (total : Byte) : List Byte :=
  [0x49, 0x4E, 0x44, 0x58, 1, 0, 1, 0, 9, 0, 0, 0, 64, 0, 20, 0, 1, 0, 0, 0, 0xD8, 2, 0, 0] ++ List.replicate 8 0 ++
    [total, 0, 0, 0, 1, 0, 0, 0, 1, 0, 0, 0, 2, 0, 0, 0, 3, 0, 0, 0, 0, 0, 0, 0]
def indexed : State :=
  { ((((((((memory [(5, { tileObj 2 false with evictable := false, size := 8192 })]).setFlag (fld_NCH_STATUS_READY 14) true).setFlag (fld_NCH_STATUS_READY 15) true).setReg
    (reg_IDX_REG_A_BLOCKS 1) 5).setReg (reg_IDX_REG_B_BLOCKS 1) 5).setReg (reg_IDX_OBJ_B 1) 5).setReg (reg_IDX_OBJ_A 1) 5).setFld fld_NAND_GEOM_0_PAGES 16) with
    srch := { Search.reset with commits := [(46, some ⟨4, 3, 0⟩), (47, some ⟨4, 3, 0⟩)] } }
def item (sub : Nat) (number : Nat) (data : List Byte) : ImportItem := ⟨sub, 1, number, data, 40, 50⟩
def buffered (l : List ImportItem) (i : Option Import) : State :=
  { indexed with links := { Links.reset with importBuffer := l }, srch := { indexed.srch with importing := i } }
def import0 (k : ImportStep) (next : Nat) (total : Byte) : Import := ⟨1, true, indexHead total, k, next, 3, 30, 20⟩
def badImport : Import := { import0 .writing 1 1 with header := setAt (indexHead 1) 0x34 7 }
def desc0 : List Byte := [7, 0, 0, 0, 1, 0, 0, 0, 1, 0, 1, 0] ++ List.replicate 52 0
def query0 (c : SearchContext) : Query :=
  ⟨5, ⟨7, 1, 0, 0, 1, 1, 0, 0, [], []⟩, .direct, true, 100 * 65536, false, 4, [(14, some c)], 0, 0, false, false⟩
def searching (queue active : List Query) : State :=
  { indexed.setFlag (fld_IDX_STATUS_READY 1) true with srch := { indexed.srch with arrivals := 9, queue := queue, active := active } }
def probeBytes : List Byte := [0x53, 0x50, 0x52, 0x42, 1, 0, 0, 0, 1, 0, 16, 0, 0, 0, 0, 0]
def probing (p : Option ProbeRun) : State :=
  (granting reg_SRCH_PROBE_CTRL { searching [] [] with srch := { (searching [] []).srch with probe := p } }).setReg reg_SRCH_PROBE_CFG 5
def withBytes (s : State) (l : List Byte) : State := s.writeObject 5 0 l
def payload0 : TxPayload := ⟨List.replicate 300 9, 0, 0, 0, 0, none, [], 1, 6, true, false, some 200, [], 0⟩
def sending (p : Option TxPayload) (busy : Bool) (type : Nat) (links : Links) : State :=
  ({ (up.setFld (fld_TX_STREAM_CFG_TYPE 5) type).setFld (fld_TX_STREAM_CFG_LINE_UNITS 5) 1 with links := links }.setTx 5 { TxStream.idle with enabled := true, payload := p }).setTxPort 0
    { TxPort.idle with busy := if busy then some 5 else none }
def offer0 : TxOffer := ⟨5, .copied (List.replicate 300 9), 0, 0, 0, 0, none⟩
def offering : Links := { Links.reset with offers := [{ offer0 with stream := 4 }, offer0] }
def commanded (l : Links) : State :=
  { (((up.setFld fld_HL_CFG_CMD_PORT 3).setFld fld_HL_CFG_CMD_VC 2).setFlag (fld_CSI_RX_CFG_ENABLE 3) true).setFlag fld_MEM_STATUS_TRAINED true with
    links := { l with cmdActive := true }, mem := { Memory.reset with dramPages := 100 } }
def deltaBody : List Byte := [2, 0, 0, 0, 1, 0, 0, 0, 7, 0, 0, 0, 0, 0, 0x80, 0x3F]
def deltaMessage : List Byte :=
  let b := [0x43, 0x4D, 1, 0, 16, 0, 0, 0] ++ deltaBody
  b ++ toLe 4 (crcResult ((commanded Links.reset).unitSpec 0) (crcFeed ((commanded Links.reset).unitSpec 0) ((commanded Links.reset).unitSpec 0).init b))
def body (dt : Nat) (b : List Byte) : CommandBody := ⟨dt, b, 1, 20, 30⟩
def bodies (dt : Nat) (b : List Byte) (l : Links) : State := commanded { l with bodies := [body 0x37 [], body dt b] }
def tileBody (off : Byte) (n : Nat) : List Byte := [5, 0, 0, 0, 0, 16, 0, 0, off, 0, 0, 0, 0, 0, 0, 0] ++ List.replicate n 8
def assembly0 (n : Nat) : TileAssembly := ⟨5, 4096, List.replicate n 8, [3], 1, 2⟩
def tiled (l : Links) (n : Nat) : State := (bodies 0x32 (tileBody (BitVec.ofNat 8 n) 6) l).setFlag fld_MEM_STATUS_DIR_READY true
def assembled (pins : List PinEntry) : State :=
  { (commanded { Links.reset with assembly := some ⟨5, 4, [1, 2, 3, 4], [3], 1, 2⟩ }).setFld fld_MEM_TILE_CFG_DIR_ENTRIES 16 with
    regs := (((List.range 16).foldl (fun (s : State) c => s.setReg (reg_MEM_TILE_REGION_BLOCKS c) 50) (commanded Links.reset)).setFld fld_MEM_TILE_CFG_DIR_ENTRIES 16).regs,
    mem := { Memory.reset with dramPages := 100, pins := pins } }
def msg0 (lane : Fin 4) : CrossingMessage := ⟨4, 5, lane, 7, 3, 3, true, none, [], []⟩
def twoNodes : List Byte := [3, 0xFF, 0, 0] ++ ff 8 ++ [0, 0, 0, 0] ++ [1, 0] ++ ff 6 ++ List.replicate 40 0 ++ [3, 0xFF, 0, 0, 1, 0] ++ ff 6 ++ [0, 0, 0, 0] ++ ff 8
def withRuns (d : List Byte) (l : List NodeRun) : State :=
  (up.loadObj 8 0x17 16 d).setGraph 7 { Graph.reset with act := some ⟨3, 0, 65536, 1, 5, [], false, [], l⟩ }
def keepInput (gen : Nat) : NodeInput := ⟨0, 4095, gen, true, false⟩
def keeping (gen : Nat) (holds : List Nat) : State :=
  ((graphed (nodeBytes 7 0 [0, 0] []) { queued with inputs := [some (keepInput gen), none, none, none] } false).setObjBytes 8 1 (40 * 4094)
    ([1, 0x10, 2, 0, 5, 0x10, 0, 0x27] ++ List.replicate 32 0 ++ [1, 0x10, 2, 0, 5, 0x10, 0, 0x27])).setMarker 4095 { Marker.reset with state := .published, gen := 3, holds := holds, readers := [0] }
def weighed (q : NeuralRun) (r : NodeRun) : State :=
  { (fabric q r).setObjBytes 8 0x105 8 [5] with mem := (memory [(5, { tileObj 2 false with evictable := false })]).mem }
def badWord : SymbolErrors := [(0, 1), (1, 1), (2, 1), (3, 1)]
def verJob (n : Byte) : List Byte := [0, 0, 0, 0, 0, 0, 0, 0, 0, 0, 3, 0, 1, 0, 1, 0, 5, 0, 0, 0, n, 0, 1, 0, 5, 0, 0, 0] ++ List.replicate 36 0
def keypoints : List Byte := (List.replicate 3 (List.replicate 13 0 ++ [7] ++ List.replicate 114 0)).flatten
def skein0 (type : Nat) : Skein := ⟨0, 0, 0, 0, 0, false, false, 0, [], [⟨type, 0, 0, digest0⟩], []⟩
def move0 : Move := ⟨⟨none, 0, .pin⟩, 0, [], none, [], [], 0, none⟩
def moving (id : Nat) (o : MemObject) (m : Move) : State :=
  { memory [(id, o)] with mem := { (memory [(id, o)]).mem with move := some m, bytes := [(memKey id 3, 77)], recordBytes := [(memKey id 3, 78)] } }
def nandUp (s : State) : State :=
  ((s.setFlag (fld_NCH_STATUS_READY 5) true).setFld fld_NAND_GEOM_0_PAGES 16).setReg (reg_MEM_TILE_REGION_BLOCKS 5) 8
def marking (s : State) : State := { s with mem := { s.mem with bad := [(memKey 5 0, .ue)] } }
def scrubbing (l : List (Nat × MemObject)) : State :=
  ((memory l).setFld fld_MEM_DATA_MIB_MIB 4).setFld fld_MEM_MOVE_CFG_SCRUB_MBS 1 |>.setFlag fld_MEM_CFG_IF0_EN true
def reclaiming (l : List (Nat × MemObject)) : State :=
  { (nandUp (memory l)).setReg (reg_MEM_TILE_REGION_BLOCKS 5) 2 with mem := { (memory l).mem with programmed := [(blockKey 5 0, 16), (blockKey 5 1, 5)] } }
def oneNls : Structure := { one with kind := 2 }
def stopping (p : Problem) (x : StopPoint) : State := { solving 1 one none p with solv := { (solving 1 one none p).solv with stopPoint := some x } }
def imaging (busy : Bool) (gen : Nat) : State :=
  (((sending none busy 1 { Links.reset with offers := [{ offer0 with source := .image 0 gen }] }).setObjBytes 8 2 0 [1, 1, 1, 0, 0xFF, 15, 0, 0, 10, 0, 1, 0, 4, 0, 2, 0, 64, 0, 0, 0]).setObjBytes 8 1
    (40 * 4095) [1, 0x10, 2, 0, 5, 0x10, 5, 0x40]).setMarker 4095 { Marker.reset with state := .published, gen := 3 }
def heard : State := (commanded Links.reset).setUnit 0 { (commanded Links.reset).unit 0 with alive := [(0, some 5)] }
def bodyTile (b : List Byte) (l : Links) : State := (bodies 0x32 b l).setFlag fld_MEM_STATUS_DIR_READY true

/-! ### Well-formedness: for each check a command that it refuses, beside one that passes -/

theorem test_wellFormed_messages :
    [Instr.dataCrossingMessage ⟨0, 0, 0, 0, 0, 0, false, none, [], []⟩, .dataCrossingMessage ⟨0, 0, 0, 0, 1, 2, false, none, [], []⟩,
      .dataCrossingMessage ⟨0, 0, 0, 0, 1, 1, false, none, [(0, 0), (1, 0), (2, 0), (3, 0), (4, 0)], []⟩,
      .dataCrossingMessage ⟨0, 0, 0, 0, 1, 1, false, none, [(7, 0), (7, 1)], []⟩,
      .dataCrossingMessage ⟨0, 0, 0, 0, 1, 1, false, none, [], [(0, [(39, 1)])]⟩, .faultNodeFlit 0 (.report ⟨17, 0, 0, 0⟩),
      .faultRootArrive (.summary 1 0), .faultRootArrive (.close 0), .faultWindowClose 0].all (fun c => c.wellFormed == false) = true ∧
    [Instr.dataCrossingMessage ⟨0, 0, 0, 0, 1, 1, false, some 4, [(7, 0), (8, 1)], [(0, [(38, 1)])]⟩,
      .faultNodeFlit 0 (.report ⟨16, 0, 0, 0⟩), .faultRootArrive (.summary 1 1), .faultWindowClose 1].all (·.wellFormed) = true := by
  decide +kernel

theorem test_wellFormed_lengths :
    [Instr.fuseSenseDone true [0], .governorInterval 0 [], .slotHeadersRead [] [] true, .ethFrameReceived 0 [1, 2] true ⟨0, 0⟩,
      .csiFrameStart 0 0 .clean 65536 ⟨0, 0⟩, .csiLongPacket 0 0 64 .clean [] true, .verifierJobSubmit 0 [], .problemSubmit 0 [],
      .objectAccess 0 0 0 2 (some [1]) ⟨[], []⟩, .imuReadDone false true [], .brownHoldEnd 19, .i3cPrivateRead 257, .hdrDdrRead 257,
      .i3cPrivateWrite 0 (List.replicate 257 0), .hdrDdrWrite 0 (List.replicate 257 0)].all (fun c => c.wellFormed == false) = true ∧
    [Instr.fuseSenseDone true (List.replicate 8 0), .slotHeadersRead [] [] false, .csiFrameStart 0 0 .clean 65535 ⟨0, 0⟩,
      .csiLongPacket 0 0 63 .clean [] true, .problemSubmit 0 (List.replicate 64 0), .objectAccess 0 0 0 1 (some [1]) ⟨[], []⟩,
      .imuReadDone false false [], .brownHoldEnd 20, .hdrDdrRead 256].all (·.wellFormed) = true := by decide +kernel

theorem test_wellFormed_payloads :
    Instr.wellFormed (.csiLongPacket 0 0 0 .clean (List.replicate 65536 0) true) = false ∧
    Instr.wellFormed (.csiEmbeddedPacket 0 0 .clean (List.replicate 65536 0) true) = false ∧
    Instr.wellFormed (.ethFrameReceived 0 (List.replicate 1523 0) true ⟨0, 0⟩) = false := by
  simp only [Instr.wellFormed, List.length_replicate]
  decide

theorem test_wellFormed_errors :
    [Instr.weightChunkLoaded 0 0 [(0, [(0, 0)])], .neuralStepDone 0 0 0 [(0, [(39, 1)])], .movePageCopied ⟨[(0, [(0, 0)])], []⟩ true,
      .objectAccess 0 0 0 0 none ⟨[(0, [(0, 0)])], []⟩, .patrolScrubRead [(40, 1)], .sramIdleScrub 0 0 [(0, 0)],
      .listPageRead 0 false 0 0 0 true [(0, [(0, 0)])]].all (fun c => c.wellFormed == false) = true ∧
    [Instr.patrolScrubRead [(38, 255)], .sramIdleScrub 0 0 []].all (·.wellFormed) = true := by decide +kernel

/-! ### The manual's worked examples, and the published check values of its codes -/

/-- Check values of the four CRCs of Table 16.1 and of R377's over the digits 1 to 9, as their standards publish them. -/
theorem test_crc_check_values :
    let nine : List Byte := [0x31, 0x32, 0x33, 0x34, 0x35, 0x36, 0x37, 0x38, 0x39]
    let value (c : CrcSpec) : Nat := crcResult c (crcFeed c c.init nine)
    value (crcSpec 0) = 0x4B ∧ value (crcSpec 1) = 0x29B1 ∧ value (crcSpec 2) = 0xCBF43926 ∧ value (crcSpec 3) = 0xE3069283 ∧
    value signatureCrc = 0x995DC9BBDF1939FA := by decide +kernel

/-- FIPS 180-4's digest of "abc" begins so. -/
theorem test_sha512_abc : (sha512 [0x61, 0x62, 0x63]).take 8 = [0xDD, 0xAF, 0x35, 0xA1, 0x93, 0x61, 0x7A, 0xBA] := by decide +kernel

/-- The worked example of R270: a block of FP4 E2M1. -/
theorem test_worked_block_scale :
    convertBlock 6 [.num (137 / 10) false, .num (3 / 10) false, .num (-26 / 10) true, .num 5 false] = (0x80, [7, 0, 0xB, 4]) := by decide +kernel

/-- Table 10.11: the gated costs, and the least assignment of R361, of cost 3,004 with both D1 and T1 unmatched. -/
theorem test_worked_assignment :
    assign 1152 [[some 100, some 2000, none, none], [some 1500, none, none, none], [none, none, some 300, some 300],
      [none, none, some 300, some 300]] [] = (3004 - 8 * 1152, [some 0, none, some 2, some 3]) := by decide +kernel

/-- The bounds of the worked example before Table 11.12, with an empty template. -/
theorem test_worked_cycle_bounds :
    let t : Structure := ⟨1, 3, 2880, 1440, 36000, 150000, 400, [], 0, 0, 0, [], [], [], [], [], [], 6000000, 30, 14000⟩
    t.factorCycles = 19684 ∧ t.solveCycles = 661 ∧ 40 * t.iterCycles = 37320 ∧ t.checkCycles = 1561 ∧ t.refineCycles = 1046 ∧
    t.finalCycles 2 = 3653 ∧ t.scheduleOk 0 2 = true ∧ t.finalCycles 4 = 5745 ∧ t.scheduleOk 0 4 = false := by decide +kernel

/-- The worked example of R160: a residence time of 2,395.6 ns at a rate ratio of 1.000 020 with a link delay of 40 ns. -/
theorem test_worked_transit :
    let s := { up.setFld (fld_ETH_LINK_DELAY_NS 1) 40 with time := { up.time with gmRate := 20 / 1000000 } }
    roundNearest (s.transitCorrection ⟨7, 8372 / 10, 1, List.replicate 64 0⟩ (32328 / 10) * 65536) false = 159622622 := by decide +kernel

/-- Table 15.2: a rise while the average and the estimate exceed the limit, none where the estimate is below it, and a fall at the
tenth calm interval. -/
theorem test_worked_governor :
    let s (level calm : Nat) : State := { (((((up.setFld fld_PWR_LIMIT_PKG_LIMIT_W 24).setFld fld_PWR_GOV_CFG_HYST 4).setFld fld_PWR_GOV_CFG_DWELL 10).setFld
      fld_PWR_GOV_CFG_MIN_LEVEL 0).setFld fld_PWR_GOV_CFG_MAX_LEVEL 7).setFld fld_PWR_STATUS_LEVEL level with power := { up.power with calm := calm } }
    ((s 0 0).decide_ (2407 / 100) 30 800).level = 1 ∧ ((s 1 0).decide_ (2411 / 100) 27 800).level = 2 ∧
    ((s 3 0).decide_ (2413 / 100) (235 / 10) 800).level = 3 ∧ ((s 3 0).decide_ (2241 / 100) 16 800).calm = 1 ∧
    ((s 3 9).decide_ (2156 / 100) 16 800).level = 2 := by decide +kernel

/-! ### Witnesses -/

theorem witness_IdleStepTicks :
        (∃ (s : State), s.pending = [] ∧ ¬ (s.alive = true ∧ s.time.running = true)) ∧
        (∃ (s : State), s.pending = [] ∧ s.alive = true ∧ s.time.running = true ∧ s.resets.due = none ∧ Store.get none s.time.announce 0 = none ∧
      Store.get none s.time.announce 1 = none) ∧
        (∃ (m : Fin 2) (h : HeldAnnounce) (s : State), s.pending = [] ∧ s.alive = true ∧ s.time.running = true ∧ s.resets.due = none ∧ Store.get none
      s.time.announce m = some h ∧ h.tick + announceTicks h.msg ≤ s.time.ticks) ∧
        (∃ (c : Nat) (p : Nat) (w : Stamp) (s : State), s.pending = [] ∧ s.Canonical ∧ s.alive = true ∧ s.time.running = true ∧ s.resets.due = some
      (c, p, w) ∧ w ≤ (s.time.now + tickAdvance s.rateUnits) / 2 ^ 32 ∧ Store.get none s.time.announce 0 = none ∧ Store.get none s.time.announce 1 =
      none ∧ s.castAt .fuseSense = false ∧ s.brown = false ∧ s.cast.fuses = []) :=
    ⟨⟨State.reset, by decide +kernel⟩,
      ⟨up, by decide +kernel⟩,
      ⟨1, ⟨⟨0, 1, 6, 33, 5, 128, 7, 0, 1, 0⟩, 0⟩,
     { up with time := { up.time with ticks := 3 * 10^9 * 2, announce := [(1, some ⟨⟨0, 1, 6, 33, 5, 128, 7, 0, 1, 0⟩, 0⟩)] } }, by decide +kernel⟩,
      ⟨3, 0, 0, { up with resets := { up.resets with due := some (3, 0, 0) } }, by decide +kernel, canonical_of_checks (by decide +kernel),
     by decide +kernel, by decide +kernel, by decide +kernel, by decide +kernel, by decide +kernel, by decide +kernel, by decide +kernel,
     by decide +kernel, by decide +kernel⟩⟩

theorem witness_PairReadLatches :
        (∃ (port : Nat) (addr : Word) (s : State), s.hostUp = true ∧ isPairLo addr.toNat = true ∧ s.latch port addr.toNat = none ∧ latchedWith
      addr.toNat = [addr.toNat + 4] ∧ s.reachable addr.toNat = true) ∧
        (∃ (port : Nat) (addr : Word) (w : Word) (s : State), s.hostUp = true ∧ isPairHi addr.toNat = true ∧ s.latch port addr.toNat = some w) ∧
        (∃ (port : Nat) (addr : Word) (s : State), s.hostUp = true ∧ isPairHi addr.toNat = true ∧ s.latch port addr.toNat = none ∧ isPairLo addr.toNat
      = false ∧ addr.toNat ≠ reg_ATTEST_WIN_DATA ∧ addr.toNat ≠ reg_FAULT_LOG_DATA) ∧
        (∃ (port : Nat) (addr : Word) (s : State), s.hostUp = true ∧ isPairLo addr.toNat = true ∧ s.latch port addr.toNat = none ∧ s.reachable
      addr.toNat = true) ∧
        (∃ (port : Nat) (n : Fin 12) (addr : Word) (w : Word) (s : State), s.hostUp = true ∧ s.latch port addr.toNat = some w ∧ ((addr.toNat ∈
      latchedWith reg_TIME_NOW_SEC_LO ∨ addr.toNat ∈ latchedWith (reg_STREAM_FS_SEC_LO n)))) :=
    ⟨⟨1, 0x400038, up, by decide +kernel⟩,
      ⟨1, 0x40003C, 5, up.setLatch 1 0x40003C (some 5), by decide +kernel⟩,
      ⟨1, 0x40003C, up, by decide +kernel⟩,
      ⟨1, BitVec.ofNat 32 (reg_STREAM_FS_SEC_LO 11), up, by decide +kernel⟩,
      ⟨1, 11, BitVec.ofNat 32 (reg_STREAM_FS_SEC_LO 11 + 8), 5, up.setLatch 1 (reg_STREAM_FS_SEC_LO 11 + 8) (some 5), by decide +kernel⟩⟩

theorem witness_TimeReadLatchesGroup :
        ∃ (port : Nat) (s : State), s.hostUp = true ∧ s.reachable reg_TIME_NOW_SEC_LO = true ∧ s.latch port reg_TIME_NOW_SEC_LO = none :=
    ⟨1, { up with time := { up.time with now := 5 * 2^48 * 1000000000 + 123 } }, by decide +kernel⟩

theorem witness_WindowReadsAdvance :
        (∃ (s : State), s.reachable reg_ATTEST_WIN_DATA = true) ∧
        (∃ (s : State), s.reachable reg_FAULT_LOG_DATA = true) :=
    ⟨⟨(up.setFld fld_ATTEST_WIN_ADDR_WORD 1023), by decide +kernel⟩,
      ⟨(up.setFld fld_FAULT_LOG_ADDR_WORD 255), by decide +kernel⟩⟩

theorem witness_PairWriteTakesBoth :
        (∃ (addr : Word) (s : State), s.hostUp = true ∧ isPairLo addr.toNat = true) ∧
        (∃ (port : Nat) (addr : Word) (data : Word) (lo : Word) (m : Word) (k : Word) (s : State), s.hostUp = true ∧ isPairHi addr.toNat = true ∧
      isPairLo addr.toNat = false ∧ stagedAddr addr.toNat = false ∧ stagedAddr (addr.toNat - 4) = false ∧ s.heldLow port (addr.toNat - 4) = some lo ∧
      s.writeMask addr.toNat data = some m ∧ s.writeMask (addr.toNat - 4) lo = some k) ∧
        (∃ (port : Nat) (addr : Word) (data : Word) (m : Word) (s : State), s.hostUp = true ∧ isPairHi addr.toNat = true ∧ isPairLo addr.toNat = false
      ∧ stagedAddr addr.toNat = false ∧ s.heldLow port (addr.toNat - 4) = none ∧ s.writeMask addr.toNat data = some m) ∧
        (∃ (addr : Word) (data : Word) (s : State), isPairHi addr.toNat = true ∧ isPairLo addr.toNat = false ∧ s.writeMask addr.toNat data = none) ∧
        (∃ (port : Nat) (addr : Word) (lo : Word) (s : State), isPairHi addr.toNat = true ∧ isPairLo addr.toNat = false ∧ s.heldLow port (addr.toNat -
      4) = some lo ∧ s.writeMask (addr.toNat - 4) lo = none) ∧
        (∃ (port : Nat) (addr : Word) (data : Word) (lo : Word) (m : Word) (k : Word) (s : State), s.hostUp = true ∧ isPairHi addr.toNat = true ∧
      isPairLo addr.toNat = false ∧ stagedAddr addr.toNat = true ∧ stagedAddr (addr.toNat - 4) = true ∧ s.heldLow port (addr.toNat - 4) = some lo ∧
      s.writeMask addr.toNat data = some m ∧ s.writeMask (addr.toNat - 4) lo = some k) ∧
        (∃ (port : Nat) (addr : Word) (data : Word) (m : Word) (s : State), s.hostUp = true ∧ isPairHi addr.toNat = true ∧ isPairLo addr.toNat = false
      ∧ stagedAddr addr.toNat = true ∧ s.heldLow port (addr.toNat - 4) = none ∧ s.writeMask addr.toNat data = some m) :=
    ⟨⟨0x30608, up, by decide +kernel⟩,
      ⟨3, 0x3060C, 78, 77, BitVec.allOnes 32, BitVec.allOnes 32, (granting 0x3060C (granting 0x30608 up)).holdLow 3 0x30608 77, by decide +kernel⟩,
      ⟨3, 0x3060C, 78, BitVec.allOnes 32, (granting 0x3060C (granting 0x30608 up)), by decide +kernel⟩,
      ⟨0x3060C, 78, up, by decide +kernel⟩,
      ⟨3, 0x3060C, 77, (granting 0x3060C up).holdLow 3 0x30608 77, by decide +kernel⟩,
      ⟨3, BitVec.ofNat 32 (reg_TOUT_START_SEC_HI 15), 78, 77, BitVec.allOnes 32, BitVec.allOnes 32, (granting (reg_TOUT_START_SEC_HI 15) (granting
     (reg_TOUT_START_SEC_LO 15) up)).holdLow 3 (reg_TOUT_START_SEC_LO 15) 77, by decide +kernel⟩,
      ⟨3, BitVec.ofNat 32 (reg_TOUT_START_SEC_HI 15), 78, BitVec.allOnes 32, granting (reg_TOUT_START_SEC_HI 15) up, by decide +kernel⟩⟩

theorem witness_PlainWriteFollowsAccessCodes :
        (∃ (addr : Word) (data : Word) (m : Word) (s : State), s.hostUp = true ∧ isPairLo addr.toNat = false ∧ isPairHi addr.toNat = false ∧
      s.writeActing addr.toNat data = none ∧ s.writeActingArray addr.toNat data = none ∧ stagedAddr addr.toNat = false ∧ s.writeMask addr.toNat data =
      some m) ∧
        (∃ (addr : Word) (data : Word) (s : State), isPairLo addr.toNat = false ∧ isPairHi addr.toNat = false ∧ s.writeActing addr.toNat data = none ∧
      s.writeActingArray addr.toNat data = none ∧ s.writeMask addr.toNat data = none) :=
    ⟨⟨BitVec.ofNat 32 reg_FAULT_LOG_ADDR, 78, BitVec.allOnes 32, granting reg_FAULT_LOG_ADDR up, by decide +kernel⟩,
      ⟨BitVec.ofNat 32 reg_FAULT_LOG_ADDR, 78, up, by decide +kernel⟩⟩

theorem witness_FusesBlownBitByBit :
        (∃ (data : Word) (d : Word) (s : State), s.writeTaken reg_ROLLBACK_COMMIT data = some d ∧ d.toNat % 128 = s.fld fld_ROLLBACK_IMAGE_VERSION ∧
      s.flag fld_SEC_STATE_FUSE_BUSY = false ∧ s.commitBits ≠ []) ∧
        (∃ (data : Word) (s : State), s.phase = phaseProvision ∧ s.reachable reg_FUSE_PROG_CTRL = true ∧ s.flag fld_SEC_STATE_FUSE_BUSY = false ∧
      data.getLsbD 8 = true ∧ data.getLsbD 9 = false ∧ s.keyBits (16 * bits data.toNat 5 4 + bits data.toNat 3 0) (s.reg reg_FUSE_PROG_DATA) ≠ []) ∧
        (∃ (data : Word) (s : State), s.phase = phaseProvision ∧ s.reachable reg_FUSE_PROG_CTRL = true ∧ s.flag fld_SEC_STATE_FUSE_BUSY = false ∧
      data.getLsbD 8 = false ∧ data.getLsbD 9 = true ∧ s.blankSlot 0 = false) ∧
        (∃ (f : FuseBit) (r : List FuseBit) (s : State), s.alive = true ∧ s.cast.fusesHeld = false ∧ s.cast.fuses = f :: r) :=
    ⟨⟨3, 3, granting reg_ROLLBACK_COMMIT ((up.setFld fld_ROLLBACK_IMAGE_VERSION 3).setFld fld_ROLLBACK_COUNTER 1), by decide +kernel⟩,
      ⟨0x113, (up.setFld fld_SEC_STATE_PHASE phaseProvision).setReg reg_FUSE_PROG_DATA 5, by decide +kernel⟩,
      ⟨0x200, (up.setFld fld_SEC_STATE_PHASE phaseProvision).setReg (reg_KEY_DIGEST 3) 5, by decide +kernel⟩,
      ⟨.key 7 31, [],
     { (up.setFlag fld_SYS_LOCK_LOCKED false).setFlag fld_SEC_STATE_FUSE_BUSY true with cast := { up.cast with fuses := [.key 7 31] } },
     by decide +kernel⟩⟩

theorem witness_AttestationLatchesAndReports :
        (∃ (data : Word) (d : Word) (s : State), s.writeTaken reg_ATTEST_CTRL data = some d ∧ d.getLsbD 0 = true ∧ s.cast.fuseErr = false ∧ s.flag
      fld_ATTEST_STATUS_BUSY = false) ∧
        (∃ (s : State), s.flag fld_ATTEST_STATUS_BUSY = true) ∧
        (∃ (s : State), s.alive = true ∧ s.dozing = false ∧ s.flag fld_ATTEST_STATUS_BUSY = true) ∧
        (∃ (s : State), s.cast.fuseErr = true) ∧
        (∃ (s : State), s.dozing = true) :=
    ⟨⟨1, 1, up.setReg (reg_ATTEST_NONCE 2) 0x12345678, by decide +kernel⟩,
      ⟨up.setFlag fld_ATTEST_STATUS_BUSY true, by decide +kernel⟩,
      ⟨(up.setFlag fld_ATTEST_STATUS_BUSY true).setFld fld_ATTEST_STATUS_COUNT 65535, by decide +kernel⟩,
      ⟨{ up with cast := { up.cast with fuseErr := true } }, by decide +kernel⟩,
      ⟨up.setFld fld_PWR_STATUS_STATE 1, by decide +kernel⟩⟩

theorem witness_BindOffReachesBound :
        (∃ (data : Word) (d : Word) (s : State), s.writeTaken reg_BIND_OFF_CTRL data = some d ∧ d.getLsbD 0 = true ∧ s.phase = phaseRunning) ∧
        (∃ (data : Word) (d : Word) (s : State), s.writeTaken reg_BIND_OFF_CTRL data = some d ∧ d.getLsbD 0 = true ∧ s.phase = phaseRunning ∧ (∀ g,
      (s.graph g).act = none) ∧ s.track.updates = [] ∧ (∀ t, s.cuttable t = none) ∧ s.vis.verifying = none ∧ s.mem.move = none ∧ s.srch.queue = [] ∧
      s.srch.active = [] ∧ s.srch.importing = none ∧ s.solv.suspended = none ∧ s.problem 1 = none) ∧
        (∃ (s : State), s.phase ≠ phaseRunning) ∧
        (∃ (s : State), s.alive = true ∧ s.phase = phaseBindOff ∧ s.power.nandHeld = false) ∧
        (∃ (s : State), s.alive = true ∧ s.phase = phaseBindOff ∧ s.cast.bindDrained = true ∧ s.loopEnded = true) :=
    ⟨⟨1, 1, granting reg_BIND_OFF_CTRL { up with power := { up.power with transition := some (.entry .doze), hibernateNext := true } },
    by decide +kernel⟩,
      ⟨1, 1, granting reg_BIND_OFF_CTRL (up.setFlag fld_PWR_STATUS_CHANGING true), by decide +kernel, by decide +kernel, by decide +kernel, fun _ =>
     rfl, by decide +kernel, fun _ => rfl, by decide +kernel, by decide +kernel, by decide +kernel, by decide +kernel, by decide +kernel,
     by decide +kernel, by decide +kernel⟩,
      ⟨granting reg_BIND_OFF_CTRL (up.setFld fld_SEC_STATE_PHASE phaseProvision), by decide +kernel⟩,
      ⟨up.setFld fld_SEC_STATE_PHASE phaseBindOff, by decide +kernel⟩,
      ⟨{ up.setFld fld_SEC_STATE_PHASE phaseBindOff with cast := { up.cast with bindDrained := true } }, by decide +kernel⟩⟩

theorem witness_RegisterFeedChecksMessage :
        (∃ (u : Fin 8) (data : Word) (d : Word) (s : State), s.writeTaken (reg_CHECK_FEED_CTRL u) data = some d ∧ d.getLsbD 0 = true ∧ d.getLsbD 1 =
      false ∧ s.fld (fld_CHECK_CFG_USERS u) = 0 ∧ (s.unit u).message = none) ∧
        (∃ (u : Fin 8) (data : Word) (d : Word) (m : CheckMessage) (s : State), s.writeTaken (reg_CHECK_FEED_DATA u) data = some d ∧ (s.unit
      u).message = some m ∧ m.point = 2 ∧ m.closed = false) ∧
        (∃ (u : Fin 8) (data : Word) (d : Word) (m : CheckMessage) (s : State), s.writeTaken (reg_CHECK_FEED_CTRL u) data = some d ∧ d.getLsbD 0 =
      false ∧ d.getLsbD 1 = true ∧ (s.unit u).message = some m ∧ m.point = 2 ∧ m.closed = false) ∧
        (∃ (u : Fin 8) (m : CheckMessage) (s : State), (s.unit u).message = some m ∧ m.closed = true ∧ m.verify = true ∧ (s.unit u).waiting = []) ∧
        (∃ (u : Fin 8) (m : CheckMessage) (s : State), (s.unit u).message = some m ∧ m.closed = true ∧ m.verify = false ∧ (s.unit u).waiting = []) ∧
        (∃ (u : Fin 8) (m : CheckMessage) (w : CheckMessage) (r : List CheckMessage) (s : State), (s.unit u).message = some m ∧ m.closed = true ∧
      (s.unit u).waiting = w :: r) :=
    ⟨⟨7, 0x15, 0x15, granting (reg_CHECK_FEED_CTRL 7) up, by decide +kernel⟩,
      ⟨7, 0x1A2B, 0x1A2B, ⟨2, true, 2, 0, none, 0, false⟩, granting (reg_CHECK_FEED_DATA 7) (up.setUnit 7 ⟨some ⟨2, true, 2, 0, none, 0, false⟩, [],
     []⟩), by decide +kernel⟩,
      ⟨7, 2, 2, ⟨2, true, 2, 0, none, 0, false⟩, (granting (reg_CHECK_FEED_CTRL 7) (up.setUnit 7 ⟨some ⟨2, true, 2, 0, none, 0, false⟩, [],
     []⟩)).setReg (reg_CHECK_EXPECT 7) 99, by decide +kernel⟩,
      ⟨7, ⟨2, true, 2, 12345, none, 7, true⟩, (up.setFlag (fld_CHECK_CFG_INT_EN 7) false).setUnit 7 ⟨some ⟨2, true, 2, 12345, none, 7, true⟩, [], []⟩,
     by decide +kernel⟩,
      ⟨7, ⟨2, false, 2, 12345, none, 7, true⟩, up.setUnit 7 ⟨some ⟨2, false, 2, 12345, none, 7, true⟩, [], []⟩, by decide +kernel⟩,
      ⟨7, ⟨2, false, 2, 12345, none, 7, true⟩, ⟨1, false, 1, 0, none, 0, false⟩, [⟨0, false, 1, 0, none, 0, false⟩], up.setUnit 7 ⟨some ⟨2, false, 2,
     12345, none, 7, true⟩, [⟨1, false, 1, 0, none, 0, false⟩, ⟨0, false, 1, 0, none, 0, false⟩], []⟩, by decide +kernel⟩⟩

theorem witness_FaultTreeKeepsFirstReport :
        (∃ (node : Fin 16) (r : FaultReport) (s : State), s.alive = true ∧ (s.node node r.cause).1 = false) ∧
        (∃ (node : Fin 16) (r : FaultReport) (s : State), s.alive = true ∧ (s.node node r.cause).1 = true) ∧
        (∃ (r : FaultReport) (s : State), s.alive = true ∧ 1 ≤ r.cause ∧ r.cause ≤ 16 ∧ r.source < 65536 ∧ s.regBit reg_FAULT_PEND r.cause = false) ∧
        (∃ (cause : Fin 17) (w : Nat × Stamp) (s : State), s.integ.windows.find? (fun w => w.1 == cause.val) = some w) ∧
        (∃ (s : State), s.alive = true) ∧
        (∃ (s : State), s.alive = true) ∧
        (∃ (r : FaultReport) (s : State), s.alive = true ∧ 1 ≤ r.cause ∧ r.cause ≤ 16 ∧ s.regBit reg_FAULT_PEND r.cause = true) ∧
        (∃ (c : Nat) (s : State), s.alive = true ∧ 1 ≤ c ∧ c ≤ 16) :=
    ⟨⟨15, ⟨16, 3, 4, 5⟩, { up with integ := { up.integ with flits := [.report ⟨16, 3, 4, 5⟩] } }, by decide +kernel⟩,
      ⟨15, ⟨16, 3, 4, 5⟩,
     { up with integ := { up.integ with nodes := Store.set (false, 0) [] (15 * 32 + 16) (true, 2), flits := [.close 3, .report ⟨16, 3, 4, 5⟩] } },
     by decide +kernel⟩,
      ⟨⟨16, 0x203, 4, 5 * 65536⟩, { up with integ := { up.integ with flits := [.report ⟨16, 0x203, 4, 5 * 65536⟩] } }, by decide +kernel⟩,
      ⟨16, (16, 100), { up with integ := { up.integ with windows := [(3, 50), (16, 100)] } }, by decide +kernel⟩,
      ⟨State.reset, by decide +kernel⟩,
      ⟨{ up with integ := { up.integ with nodes := Store.set (false, 0) [] (15 * 32 + 16) (true, 2), flits := [.close 3, .close 16] } },
     by decide +kernel⟩,
      ⟨⟨16, 0x203, 4, 5 * 65536⟩, { up with integ := { up.integ with flits := [.report ⟨16, 0x203, 4, 5 * 65536⟩] } }.setReg reg_FAULT_PEND 0x10000,
     by decide +kernel⟩,
      ⟨16, { up with integ := { up.integ with flits := [.summary 16 7] } }, by decide +kernel⟩⟩

theorem witness_WatchdogsExpire :
        (∃ (n : Fin 48) (s : State), s.swatchRuns n = true ∧ s.fld (fld_WDOG_SW_LIMIT_US n) ≠ 0 ∧ groupOf n ≠ 0) ∧
        (∃ (s : State), s.alive = true ∧ s.integ.loopArmed = true ∧ s.flag fld_WDOG_CHIP_CFG_LOOP_EN = true ∧ s.loopRunning = true ∧
      s.chipWatchdogPaused = false ∧ s.resets.due = none) ∧
        (∃ (s : State), s.alive = true ∧ s.integ.hostArmed = true ∧ s.flag fld_WDOG_CHIP_CFG_HOST_EN = true ∧ s.chipWatchdogPaused = false ∧
      s.resets.due = none) ∧
        (∃ (data : Word) (d : Word) (s : State), s.writeTaken reg_WDOG_CHIP_KICK data = some d ∧ s.flag fld_WDOG_CHIP_CFG_HOST_EN = true ∧
      s.integ.hostArmed = true ∧ s.chipWatchdogPaused = false ∧ d.toNat % 65536 = (if s.flag fld_WDOG_CHIP_STATUS_NEXT_KEY then 0x94C3 else 0x6B3C)) ∧
        (∃ (data : Word) (d : Word) (s : State), s.writeTaken reg_WDOG_CHIP_KICK data = some d ∧ s.flag fld_WDOG_CHIP_CFG_HOST_EN = true ∧
      s.integ.hostArmed = true ∧ s.chipWatchdogPaused = false ∧ d.toNat % 65536 ≠ (if s.flag fld_WDOG_CHIP_STATUS_NEXT_KEY then 0x94C3 else 0x6B3C) ∧
      s.resets.due = none) ∧
        (∃ (n : Fin 48) (s : State), s.swatchRuns n = true ∧ s.fld (fld_WDOG_SW_LIMIT_US n) ≠ 0 ∧ groupOf n = 0 ∧ s.resets.due = none) :=
    ⟨⟨47, up.setFld (fld_WDOG_SW_LIMIT_US 47) 9, by decide +kernel⟩,
      ⟨({ up with integ := { up.integ with loopArmed := true } }.setFlag fld_WDOG_CHIP_CFG_LOOP_EN true).setFlag fld_CLA_STATUS_RUNNING true,
     by decide +kernel⟩,
      ⟨({ up with integ := { up.integ with hostArmed := true } }.setFlag fld_WDOG_CHIP_CFG_HOST_EN true), by decide +kernel⟩,
      ⟨0x6B3C, 0x6B3C, granting reg_WDOG_CHIP_KICK ({ up with integ := { up.integ with hostArmed := true } }.setFlag fld_WDOG_CHIP_CFG_HOST_EN true),
     by decide +kernel⟩,
      ⟨0x6B3D, 0x6B3D, granting reg_WDOG_CHIP_KICK ({ up with integ := { up.integ with hostArmed := true } }.setFlag fld_WDOG_CHIP_CFG_HOST_EN true),
     by decide +kernel⟩,
      ⟨0, State.reset, by decide +kernel⟩⟩

theorem witness_SnapshotsArmAndCopy :
        (∃ (data : Word) (d : Word) (s : State), s.writeTaken reg_SNAP_CTRL data = some d ∧ d.getLsbD 0 = true ∧ d.getLsbD 1 = false ∧ s.stamp +
      usStamp 2 ≤ s.snapTime) ∧
        (∃ (data : Word) (d : Word) (s : State), s.writeTaken reg_SNAP_CTRL data = some d ∧ d.getLsbD 0 = true ∧ d.getLsbD 1 = false ∧ s.snapTime <
      s.stamp + usStamp 2) ∧
        (∃ (data : Word) (d : Word) (s : State), s.writeTaken reg_SNAP_CTRL data = some d ∧ d.getLsbD 0 = false ∧ d.getLsbD 1 = true) ∧
        (∃ (at_ : Stamp) (s : State), s.alive = true ∧ s.integ.snapAt = some at_ ∧ s.integ.snapPeriod = 0 ∧ Store.wf 0 s.regs = true) ∧
        (∃ (at_ : Stamp) (s : State), s.alive = true ∧ s.integ.snapAt = some at_ ∧ s.integ.snapPeriod ≠ 0) ∧
        (∃ (data : Word) (d : Word) (s : State), s.writeTaken reg_SNAP_CTRL data = some d ∧ d.getLsbD 0 = true ∧ d.getLsbD 1 = true ∧ s.stamp +
      usStamp 2 ≤ s.snapTime) :=
    ⟨⟨1, 1, granting reg_SNAP_CTRL ((up.setReg reg_SNAP_TIME_SEC_LO 5).setFld fld_SNAP_PERIOD_PERIOD_MS 7), by decide +kernel⟩,
      ⟨1, 1, granting reg_SNAP_CTRL up, by decide +kernel⟩,
      ⟨2, 2, granting reg_SNAP_CTRL (up.setFlag fld_SNAP_STATUS_PENDING true), by decide +kernel⟩,
      ⟨1000 * 65536, { (up.setFlag fld_SNAP_STATUS_PENDING true).setReg 0x200008 17 with integ := { up.integ with snapAt := some (1000 * 65536) } },
     by decide +kernel⟩,
      ⟨1000 * 65536, { (up.setFlag fld_SNAP_STATUS_PENDING true) with integ := { up.integ with snapAt := some (1000 * 65536), snapPeriod := 3 } },
     by decide +kernel⟩,
      ⟨3, 3, granting reg_SNAP_CTRL ((up.setReg reg_SNAP_TIME_SEC_LO 5).setFld fld_SNAP_PERIOD_PERIOD_MS 7), by decide +kernel⟩⟩

theorem witness_FuseSensingEntersPhase :
        (∃ (raw : List Int) (s : State), s.castAt .fuseSense = true ∧ ((s.fld fld_RST_CAUSE_LAST = 7 → s.coolerThan 1600 raw = true)) ∧ s.flag
      fld_SEC_STATE_KEYS_LOCKED = true) ∧
        (∃ (raw : List Int) (s : State), s.castAt .fuseSense = true ∧ ((s.fld fld_RST_CAUSE_LAST = 7 → s.coolerThan 1600 raw = true)) ∧ s.flag
      fld_SEC_STATE_KEYS_LOCKED = false) ∧
        (∃ (raw : List Int) (s : State), s.castAt .fuseSense = true ∧ ((s.fld fld_RST_CAUSE_LAST = 7 → s.coolerThan 1600 raw = true))) ∧
        (∃ (raw : List Int) (s : State), s.castAt .fuseSense = true ∧ s.fld fld_RST_CAUSE_LAST = 7 ∧ s.coolerThan 1600 raw = false) :=
    ⟨⟨[], State.reset.setFlag fld_SEC_STATE_KEYS_LOCKED true, by decide +kernel⟩,
      ⟨[], State.reset, by decide +kernel⟩,
      ⟨[], State.reset, by decide +kernel⟩,
      ⟨[1600], { State.reset.setFld fld_RST_CAUSE_LAST 7 with cast := { State.reset.cast with step := .fuseSense } }, by decide +kernel⟩⟩

theorem witness_CastOnStartsClocksAndFlash :
        (∃ (s : State), s.castAt .pllSys = true) ∧
        (∃ (s : State), s.castAt .pllIoTime = true ∧ s.phase = phaseCasting) ∧
        (∃ (s : State), s.castAt .flashMode = true) ∧
        (∃ (s : State), s.castAt .flashMode = true) ∧
        (∃ (s : State), ((s.castAt .flashMode = true ∨ s.castAt .headers = true))) ∧
        (∃ (s : State), s.castAt .pllIoTime = true ∧ s.phase ≠ phaseCasting) :=
    ⟨⟨casting .pllSys, by decide +kernel⟩,
      ⟨casting .pllIoTime, by decide +kernel⟩,
      ⟨casting .flashMode, by decide +kernel⟩,
      ⟨casting .flashMode, by decide +kernel⟩,
      ⟨casting .headers, by decide +kernel⟩,
      ⟨(casting .pllIoTime).setFld fld_SEC_STATE_PHASE phaseFailed, by decide +kernel⟩⟩

theorem witness_SlotsTriedInOrder :
        (∃ (a : List Byte) (b : List Byte) (s : State), s.castAt .headers = true ∧ plausible a = true ∧ plausible b = true) ∧
        (∃ (a : List Byte) (b : List Byte) (s : State), s.castAt .headers = true ∧ plausible a ≠ plausible b) ∧
        (∃ (a : List Byte) (b : List Byte) (s : State), s.castAt .headers = true ∧ plausible a = false ∧ plausible b = false) ∧
        (∃ (b : Bool) (s : State), s.castAt .signature = true ∧ s.cast.slot = some b) ∧
        (∃ (block : List Byte) (b : Bool) (f : SlotFailure) (s : State), s.castAt .signature = true ∧ s.cast.slot = some b ∧ s.headerFailure (if b
      then s.cast.headB else s.cast.headA) block (s.slotSize b) = some f ∧ (if b then s.flag fld_CASTON_STATUS_PLAUSIBLE_A && !s.cast.triedA else
      s.flag fld_CASTON_STATUS_PLAUSIBLE_B && !s.cast.triedB) = true) ∧
        (∃ (block : List Byte) (b : Bool) (f : SlotFailure) (s : State), s.castAt .signature = true ∧ s.cast.slot = some b ∧ s.headerFailure (if b
      then s.cast.headB else s.cast.headA) block (s.slotSize b) = some f ∧ (if b then s.flag fld_CASTON_STATUS_PLAUSIBLE_A && !s.cast.triedA else
      s.flag fld_CASTON_STATUS_PLAUSIBLE_B && !s.cast.triedB) = false) ∧
        (∃ (b : Bool) (s : State), s.castAt .signature = true ∧ s.cast.slot = some b) ∧
        (∃ (s : State), s.castAt .headers = true) :=
    ⟨⟨[0x53, 0x4B, 0x45, 0x53, 1, 0], [0x53, 0x4B, 0x45, 0x53, 1, 0, 0, 0, 0, 0, 0, 0, 1], casting .headers, by decide +kernel⟩,
      ⟨[], [0x53, 0x4B, 0x45, 0x53, 1, 0], casting .headers, by decide +kernel⟩,
      ⟨[], [], casting .headers, by decide +kernel⟩,
      ⟨true, { casting .signature with cast := { (casting .signature).cast with slot := some true } }, by decide +kernel⟩,
      ⟨[], false, SlotFailure.plain castNoHeader,
     { (casting .signature).setFlag fld_CASTON_STATUS_PLAUSIBLE_B true with cast := { (casting .signature).cast with slot := some false } },
     by decide +kernel⟩,
      ⟨[], true, SlotFailure.plain castNoHeader,
     { (casting .signature).setFlag fld_CASTON_STATUS_PLAUSIBLE_A true with cast := { (casting .signature).cast with slot := some true, triedA := true } },
     by decide +kernel⟩,
      ⟨true, { casting .signature with cast := { (casting .signature).cast with slot := some true } }, by decide +kernel⟩,
      ⟨casting .headers, by decide +kernel⟩⟩

theorem witness_CastOnStagesAndLocks :
        (∃ (bytes : List Byte) (e : Section) (k : Skein) (s : State), s.castAt .sections = true ∧ s.cast.skein = some k ∧
      k.sections[s.cast.nextSection]? = some e ∧ e.type = 3 ∧ sha512 (slice bytes 0 e.length) = e.digest ∧ badGrant [] 0 (grantEntries ((slice bytes 0
      e.length).length / 16) (slice bytes 0 e.length)) = none) ∧
        (∃ (bytes : List Byte) (e : Section) (b : Bool) (s : State), s.castAt .sections = true ∧ s.cast.slot = some b ∧ s.nextSectionEntry = some e ∧
      (((e.type = 5 ∨ e.type = 6) → s.cast.trained = true)) ∧ sha512 (slice bytes 0 e.length) ≠ e.digest) ∧
        (∃ (s : State), ((s.castAt .sections = true ∨ s.castAt .applied = true)) ∧ s.cast.regsChecked = true ∧ s.cast.arithLocked = false) ∧
        (∃ (s : State), ((s.castAt .sections = true ∨ s.castAt .applied = true)) ∧ s.cast.training = true ∧ s.applyStaged.memCfgOk = true) ∧
        (∃ (b : Bool) (k : Skein) (s : State), s.cast.slot = some b ∧ s.cast.skein = some k ∧ s.castAt .applied = true ∧ s.cast.arithLocked = true ∧
      s.cast.trained = true) ∧
        (∃ (e : Section) (b : Bool) (s : State), s.castAt .sections = true ∧ s.cast.slot = some b ∧ s.nextSectionEntry = some e ∧ (((e.type = 5 ∨
      e.type = 6) → s.cast.trained = true))) ∧
        (∃ (e : Section) (s : State), s.castAt .sections = true ∧ s.nextSectionEntry = some e ∧ ((e.type = 5 ∨ e.type = 6)) ∧ s.cast.trained = false)
      ∧
        (∃ (bytes : List Byte) (e : Section) (k : Skein) (s : State), s.castAt .sections = true ∧ s.cast.skein = some k ∧
      k.sections[s.cast.nextSection]? = some e ∧ e.type = 1 ∧ sha512 (slice bytes 0 e.length) = e.digest ∧ s.badWrite true s.cast.writes 0
      (writeEntries ((slice bytes 0 e.length).length / 12) (slice bytes 0 e.length)) = none) ∧
        (∃ (bytes : List Byte) (e : Section) (k : Skein) (s : State), s.castAt .sections = true ∧ s.cast.skein = some k ∧
      k.sections[s.cast.nextSection]? = some e ∧ e.type = 2 ∧ sha512 (slice bytes 0 e.length) = e.digest ∧ s.badWrite false s.cast.writes 0
      (writeEntries ((slice bytes 0 e.length).length / 12) (slice bytes 0 e.length)) = none ∧
      { s with cast := { s.cast with writes := s.cast.writes ++ writeEntries ((slice bytes 0 e.length).length / 12) (slice bytes 0 e.length) } }.pairedShort
      = false) :=
    ⟨⟨[], ⟨3, 0, 0, digest0⟩, ⟨0, 0, 0, 0, 0, false, false, 0, [], [⟨3, 0, 0, digest0⟩], []⟩,
    { casting .sections with cast := { (casting .sections).cast with skein := some ⟨0, 0, 0, 0, 0, false, false, 0, [], [⟨3, 0, 0, digest0⟩], []⟩ } },
    by decide +kernel, by decide +kernel, by decide +kernel, by decide +kernel, digest0_eq, by decide +kernel⟩,
      ⟨[], ⟨3, 0, 0, []⟩, true,
     { casting .sections with cast := { (casting .sections).cast with slot := some true, skein := some ⟨0, 0, 0, 0, 0, false, false, 0, [], [⟨3, 0, 0, []⟩], []⟩ } },
     by decide +kernel⟩,
      ⟨{ casting .sections with cast := { (casting .sections).cast with regsChecked := true } }, by decide +kernel⟩,
   ⟨{ ((casting .sections).setFlag fld_MEM_CFG_IF0_EN true).setFld fld_MEM_CFG_DENSITY 2 with cast := { (casting .sections).cast with training := true } },
     by decide +kernel⟩,
      ⟨false, ⟨0, 0, 0, 0, 0, false, false, 0, [], [], []⟩,
     { casting .applied with cast := { (casting .applied).cast with slot := some false, skein := some ⟨0, 0, 0, 0, 0, false, false, 0, [], [], []⟩, arithLocked := true, trained := true } },
     by decide +kernel⟩,
      ⟨⟨6, 0, 0, digest0⟩, true,
     { casting .sections with cast := { (casting .sections).cast with slot := some true, trained := true, skein := some (skein0 6) } },
     by decide +kernel⟩,
      ⟨⟨5, 0, 0, digest0⟩, { casting .sections with cast := { (casting .sections).cast with slot := some true, skein := some (skein0 5) } },
     by decide +kernel⟩,
      ⟨[], ⟨1, 0, 0, digest0⟩, skein0 1, { casting .sections with cast := { (casting .sections).cast with skein := some (skein0 1) } },
     by decide +kernel, by decide +kernel, by decide +kernel, by decide +kernel, digest0_eq, by decide +kernel⟩,
      ⟨[], ⟨2, 0, 0, digest0⟩, skein0 2, { casting .sections with cast := { (casting .sections).cast with skein := some (skein0 2) } },
     by decide +kernel, by decide +kernel, by decide +kernel, by decide +kernel, digest0_eq, by decide +kernel, by decide +kernel⟩⟩

theorem witness_CastOnStagesAndLocks_2 :
        (∃ (bytes : List Byte) (e : Section) (k : Skein) (s : State), s.castAt .sections = true ∧ s.cast.skein = some k ∧
      k.sections[s.cast.nextSection]? = some e ∧ 6 < e.type ∧ sha512 (slice bytes 0 e.length) = e.digest) ∧
        (∃ (ok : Bool) (b : Bool) (s : State), ((s.castAt .sections = true ∨ s.castAt .applied = true)) ∧ s.cast.slot = some b ∧ s.cast.training =
      true ∧ (ok && s.applyStaged.memCfgOk) = false) :=
    ⟨⟨[], ⟨7, 0, 0, digest0⟩, skein0 7, { casting .sections with cast := { (casting .sections).cast with skein := some (skein0 7) } },
    by decide +kernel, by decide +kernel, by decide +kernel, by decide +kernel, digest0_eq⟩,
      ⟨false, true, { casting .sections with cast := { (casting .sections).cast with slot := some true, training := true } }, by decide +kernel⟩⟩

theorem witness_WarmResetKeepsStickyFields :
        (∃ (ns : Nat) (s : State), s.Canonical ∧ s.resets.active = none ∧ 1000 ≤ ns) ∧
        (∃ (ns : Nat), ns < 1000) ∧
        (∃ (data : Word) (d : Word) (s : State), s.Canonical ∧ s.writeTaken reg_RST_CTRL data = some d ∧ d.getLsbD 0 = true ∧ s.resets.active = none)
      ∧
        (∃ (s : State), s.Canonical ∧ s.resets.active = none ∧ s.power.hibernating = false ∧ s.power.poweringUp = false) ∧
        (∃ (s : State), s.resets.active = some .warm ∧ s.resets.refclkAbsent = false ∧ s.resets.cause < 16 ∧ s.resets.cause ≠ 5) ∧
        (∃ (s : State), s.resets.active = some .warm ∧ s.resets.refclkAbsent = false ∧ s.resets.cause = 5) ∧
        (∃ (ns : Nat) (s : State), 1000 ≤ ns ∧ s.resets.active = some .warm) ∧
        (∃ (ns : Nat) (s : State), 1000 ≤ ns ∧ s.resets.active = some .cold) ∧
        (∃ (s : State), s.resets.active = some .warm ∧ s.power.hibernating = false ∧ s.power.poweringUp = false) :=
    ⟨⟨1000, up, canonical_of_checks (by decide +kernel), by decide +kernel, by decide +kernel⟩,
      ⟨999, by decide +kernel⟩,
      ⟨1, 1, granting reg_RST_CTRL up, canonical_of_checks (by decide +kernel), by decide +kernel, by decide +kernel, by decide +kernel⟩,
      ⟨up, canonical_of_checks (by decide +kernel), by decide +kernel, by decide +kernel, by decide +kernel⟩,
      ⟨{ up with resets := { up.resets with active := some .warm, cause := 8 } }, by decide +kernel⟩,
      ⟨{ up with resets := { up.resets with active := some .warm, cause := 5, pll := 3 } }, by decide +kernel⟩,
      ⟨1000, { up with resets := { up.resets with active := some .warm, cause := 5, pll := 3 } }, by decide +kernel⟩,
      ⟨1000, { up with resets := { up.resets with active := some .cold } }, by decide +kernel⟩,
      ⟨{ up with resets := { up.resets with active := some .warm } }, by decide +kernel⟩⟩

theorem witness_WarmResetKeepsStickyFields_2 :
        (∃ (s : State), ((s.resets.active = some .cold ∨ s.power.hibernating = true ∨ s.power.poweringUp = true))) ∧
        (∃ (data : Word) (s : State), ((∀ d, s.writeTaken reg_RST_CTRL data = some d → d.getLsbD 0 = false))) :=
    ⟨⟨{ up with resets := { up.resets with active := some .cold } }, by decide +kernel⟩,
      ⟨0, granting reg_RST_CTRL up, forall_some (by decide +kernel)⟩⟩

theorem witness_ColdResetWaitsForSupplies :
        (∃ (s : State), s.Canonical) ∧
        (∃ (r : Rail) (s : State), s.Canonical ∧ r ≠ .vdd1v8 ∧ Rail.vdd1v8 ∉ s.resets.badRails) ∧
        (∃ (s : State), s.Canonical) ∧
        (∃ (high : Bool) (s : State), s.Canonical ∧ s.resets.testEn ≠ high) ∧
        (∃ (ms : Nat) (s : State), s.resets.active = some .cold ∧ s.resets.badRails = [] ∧ s.resets.refclkAbsent = false ∧ s.resets.testEn = false ∧ 2
      ≤ ms ∧ s.resets.cause < 2) ∧
        (∃ (ms : Nat) (s : State), ((s.resets.badRails ≠ [] ∨ s.resets.refclkAbsent = true ∨ s.resets.testEn = true ∨ ms < 2))) ∧
        (∃ (s : State), s.resets.refclkAbsent = false ∧ s.alive = true ∧ s.resets.due = none) ∧
        (∃ (r : Rail) (s : State), s.Canonical ∧ r ≠ .vdd1v8 ∧ Rail.vdd1v8 ∈ s.resets.badRails) ∧
        (∃ (s : State), s.resets.refclkAbsent = false ∧ s.alive = false) :=
    ⟨⟨up, canonical_of_checks (by decide +kernel)⟩,
      ⟨.vddSram, up, canonical_of_checks (by decide +kernel), by decide +kernel, by decide +kernel⟩,
      ⟨up, canonical_of_checks (by decide +kernel)⟩,
      ⟨true, up, canonical_of_checks (by decide +kernel), by decide +kernel⟩,
      ⟨2, { up with resets := { up.resets with active := some .cold, cause := 1 } }, by decide +kernel⟩,
      ⟨1, up, by decide +kernel⟩,
      ⟨up, by decide +kernel⟩,
      ⟨.vddSram, { up with resets := { up.resets with badRails := [.vdd1v8] } }, canonical_of_checks (by decide +kernel), by decide +kernel,
     by decide +kernel⟩,
      ⟨{ up with resets := { up.resets with active := some .cold } }, by decide +kernel⟩⟩

theorem witness_ColdResetWaitsForSupplies_2 :
        (∃ (s : State), s.resets.refclkAbsent = true) ∧
        (∃ (high : Bool) (s : State), s.resets.testEn = high) :=
    ⟨⟨{ up with resets := { up.resets with refclkAbsent := true } }, by decide +kernel⟩,
      ⟨false, State.reset, by decide +kernel⟩⟩

theorem witness_BoundaryScanDrivesPins :
        (∃ (s : State), s.resets.trstLow = false ∧ s.resets.testEn = true) ∧
        (∃ (s : State), s.resets.trstLow = false) ∧
        (∃ (s : State), s.resets.trstLow = false) ∧
        (∃ (s : State), s.resets.trstLow = false) ∧
        (∃ (code : BitVec 4) (s : State), s.resets.trstLow = false ∧ 4 ≤ code.toNat) ∧
        (∃ (s : State), s.resets.trstLow = false ∧ s.resets.testEn = false) ∧
        (∃ (code : BitVec 4) (s : State), s.resets.trstLow = false ∧ s.resets.testEn = false ∧ code.toNat < 4 ∧ code.toNat ≠ 1) ∧
        (∃ (s : State), s.resets.trstLow = true) :=
    ⟨⟨{ up with resets := { up.resets with trstLow := false, testEn := true } }, by decide +kernel⟩,
      ⟨{ up with resets := { up.resets with trstLow := false, testEn := true } }, by decide +kernel⟩,
      ⟨{ up with resets := { up.resets with trstLow := false, testEn := true } }, by decide +kernel⟩,
      ⟨{ up with resets := { up.resets with trstLow := false, testEn := true } }, by decide +kernel⟩,
      ⟨4, { up with resets := { up.resets with trstLow := false, testEn := true } }, by decide +kernel⟩,
      ⟨{ up with resets := { up.resets with trstLow := false, scanDrives := some 3, tapInstruction := 1 } }, by decide +kernel⟩,
      ⟨3, { up with resets := { up.resets with trstLow := false, scanDrives := some 3, tapInstruction := 1 } }, by decide +kernel⟩,
      ⟨{ up with resets := { up.resets with trstLow := true } }, by decide +kernel⟩⟩

theorem witness_SwatchResetRunsItsSequence :
        (∃ (data : Word) (d : Word) (s : State), s.writeTaken reg_SW_RESET data = some d ∧ d.toNat % 64 < 48 ∧ groupOf (d.toNat % 64) ≠ 0 ∧ s.flag
      fld_SYS_LOCK_LOCKED = true) ∧
        (∃ (n : Fin 48) (c : Fin 4) (s : State), s.alive = true ∧ s.sw.requests.contains (n.val, c.val) = true ∧ s.flag fld_SYS_LOCK_LOCKED = true ∧
      groupOf n ≠ 0 ∧ groupOf n ≠ 8 ∧ s.inReset n = false) ∧
        (∃ (n : Fin 48) (c : Fin 4) (s : State), s.alive = true ∧ s.sw.requests.contains (n.val, c.val) = true ∧ ((groupOf n = 0 ∨ s.flag
      fld_SYS_LOCK_LOCKED = false ∨ s.inReset n = true))) ∧
        (∃ (g : Fin 44) (s : State), s.Canonical ∧ Store.wf 0 s.cast.castRegs = true ∧ s.alive = true ∧ s.groupPhase g = .clearing) ∧
        (∃ (g : Fin 44) (s : State), s.alive = true ∧ s.groupPhase g = .cleared ∧ s.hasKept g = true) ∧
        (∃ (g : Fin 44) (s : State), s.alive = true ∧ s.groupPhase g = .restoring ∧ s.hasKept g = true ∧ g.val ≠ 6 ∧ g.val ≠ 7) ∧
        (∃ (g : Fin 44) (s : State), s.alive = true ∧ s.groupPhase g = .cleared ∧ s.hasKept g = false ∧ g.val ≠ 6 ∧ g.val ≠ 7) ∧
        (∃ (g : Fin 44) (s : State), s.alive = true ∧ s.groupPhase g = .restoring ∧ s.hasKept g = true ∧ ((g.val = 6 ∨ g.val = 7))) ∧
        (∃ (n : Fin 48) (c : Fin 4) (s : State), s.Canonical ∧ s.alive = true ∧ s.sw.requests.contains (n.val, c.val) = true ∧ s.flag
      fld_SYS_LOCK_LOCKED = true ∧ groupOf n = 8 ∧ s.inReset n = false) :=
    ⟨⟨47, 47, granting reg_SW_RESET up, by decide +kernel⟩,
      ⟨8, 3, { up with sw := { up.sw with requests := [(8, 3)] } }, by decide +kernel⟩,
      ⟨3, 3, { up with sw := { up.sw with requests := [(3, 3)] } }, by decide +kernel⟩,
      ⟨43, ({ up with cast := { up.cast with castRegs := [(0x200008, 3)] } }.setReg 0x200010 4).setGroupPhase 43 .clearing, canonical_of_checks
     (by decide +kernel), by decide +kernel, by decide +kernel, by decide +kernel⟩,
      ⟨5, { up with cast := { up.cast with kept := [(12 * 2 ^ 64, 3)], keptLen := [(12 * 2 ^ 24, 1)] } }.setGroupPhase 5 .cleared, by decide +kernel⟩,
      ⟨5, { up with cast := { up.cast with kept := [(12 * 2 ^ 64, 3)], keptLen := [(12 * 2 ^ 24, 1)] } }.setGroupPhase 5 .restoring,
     by decide +kernel⟩,
      ⟨43, up.setGroupPhase 43 .cleared, by decide +kernel⟩,
      ⟨7,
     { up with cast := { up.cast with kept := [(groupMembers 7).head! * 2 ^ 64 |> fun k => (k, 3)], keptLen := [((groupMembers 7).head! * 2 ^ 24, 1)] } }.setGroupPhase
     7 .restoring, by decide +kernel⟩,
      ⟨15, 3, { up with sw := { up.sw with requests := [(15, 3)] } }, canonical_of_checks (by decide +kernel), by decide +kernel, by decide +kernel,
     by decide +kernel, by decide +kernel, by decide +kernel⟩⟩

theorem witness_SwatchResetRunsItsSequence_2 :
        ∃ (data : Word) (d : Word) (s : State), s.writeTaken reg_SW_RESET data = some d ∧ ((48 ≤ d.toNat % 64 ∨ groupOf (d.toNat % 64) = 0 ∨ s.flag
      fld_SYS_LOCK_LOCKED = false)) :=
    ⟨48, 48, granting reg_SW_RESET up, by decide +kernel⟩

theorem witness_ClocksAndCrossings :
        (∃ (p : Fin 4) (s : State), s.alive = true ∧ bit (s.fld fld_PLL_STATUS_LOCK) p = true) ∧
        (∃ (s : State), s.alive = true ∧ s.time.running = true) ∧
        (∃ (c : Fin 70) (d : Nat) (s : State), s.alive = true ∧ s.inReset (crossingEnd c) = false ∧ Store.get 0 s.sw.crossing c - d < 3) ∧
        (∃ (c : Fin 70) (d : Nat) (s : State), s.alive = true ∧ s.inReset (crossingEnd c) = false ∧ 3 ≤ Store.get 0 s.sw.crossing c - d) ∧
        (∃ (c : Fin 70) (s : State), s.inReset (crossingEnd c) = true) ∧
        (∃ (m : CrossingMessage) (s : State), m.lane ≠ 0 ∧ m.flits ≤ m.arrived ∧ s.swatchRuns m.destination = true ∧ m.halves = [] ∧ ((∀ x, x ∈
      s.sw.waiting → x.destination ≠ m.destination))) ∧
        (∃ (m : CrossingMessage) (s : State), s.alive = true ∧ m.lane ≠ 0 ∧ m.flits ≤ m.arrived ∧ s.inReset m.destination = true) ∧
        (∃ (m : CrossingMessage) (l : Fin 64) (w : Nat) (s : State), m.lane = 0 ∧ m.links = [(l, w)] ∧ m.flits ≤ m.arrived ∧ s.swatchRuns
      m.destination = true ∧ m.halves = [] ∧ ((∀ x, x ∈ s.sw.waiting → x.destination ≠ m.destination))) ∧
        (∃ (m : CrossingMessage) (s : State), s.alive = true ∧ m.lane ≠ 0 ∧ m.arrived < m.flits) :=
    ⟨⟨3, up, by decide +kernel⟩,
      ⟨up, by decide +kernel⟩,
      ⟨69, 1, { up with sw := { up.sw with crossing := [(69, 3)] } }, by decide +kernel⟩,
      ⟨69, 0, { up with sw := { up.sw with crossing := [(69, 3)] } }, by decide +kernel⟩,
      ⟨69, { up with sw := { up.sw with inReset := BitVec.allOnes 48 } }, by decide +kernel⟩,
      ⟨msg0 1, up, by decide +kernel⟩,
      ⟨msg0 1, { up with sw := { up.sw with inReset := BitVec.allOnes 48 } }, by decide +kernel⟩,
      ⟨{ msg0 0 with links := [(63, 5)] }, 63, 5, up, by decide +kernel⟩,
      ⟨{ msg0 3 with arrived := 2 }, up, by decide +kernel⟩⟩

theorem witness_ClocksAndCrossings_2 :
        (∃ (m : CrossingMessage) (s : State), s.alive = true ∧ m.lane ≠ 0 ∧ m.flits ≤ m.arrived ∧ s.inReset m.destination = false ∧ s.isGated
      m.destination = true) ∧
        (∃ (m : CrossingMessage) (h : Nat) (e : SymbolErrors) (s : State), m.lane ≠ 0 ∧ m.flits ≤ m.arrived ∧ s.swatchRuns m.destination = true ∧
      m.halves = [(h, e)] ∧ selvedgeCheck e ≠ .clean ∧ ((∀ x, x ∈ s.sw.waiting → x.destination ≠ m.destination))) ∧
        (∃ (m : CrossingMessage) (k : Nat) (s : State), m.lane ≠ 0 ∧ m.flits ≤ m.arrived ∧ s.swatchRuns m.destination = true ∧ m.halves = [] ∧
      m.answers = some k ∧ m.expectsResponse = false ∧ ((∀ x, x ∈ s.sw.waiting → x.destination ≠ m.destination))) :=
    ⟨⟨msg0 1, { up with sw := { up.sw with gated := BitVec.allOnes 48 } }, by decide +kernel⟩,
      ⟨{ msg0 1 with halves := [(3, [(0, 1), (1, 1), (2, 1), (3, 1)])] }, 3, [(0, 1), (1, 1), (2, 1), (3, 1)], up, by decide +kernel⟩,
      ⟨{ msg0 1 with answers := some 6, expectsResponse := false }, 6, { up with sw := { up.sw with requested := [⟨4, 5, 6, []⟩, ⟨4, 5, 8, []⟩] } },
     by decide +kernel⟩⟩

theorem witness_PowerRequestsBeginTransitions :
        (∃ (data : Word) (d : Word) (s : State), s.writeTaken reg_PWR_REQ data = some d ∧ d.toNat % 4 = 1 ∧ s.phase = phaseRunning ∧ s.powerCode = 0 ∧
      s.power.transition = none) ∧
        (∃ (data : Word) (d : Word) (s : State), s.writeTaken reg_PWR_REQ data = some d ∧ d.toNat % 4 = 2 ∧ s.phase = phaseRunning ∧ s.powerCode = 0 ∧
      s.power.transition = none) ∧
        (∃ (data : Word) (d : Word) (s : State), s.writeTaken reg_PWR_REQ data = some d ∧ d.toNat % 4 = 0 ∧ s.phase = phaseRunning ∧ 1 ≤ s.powerCode ∧
      s.power.transition = none) ∧
        (∃ (data : Word) (d : Word) (s : State), s.writeTaken reg_PWR_REQ data = some d ∧ d.toNat % 4 = 3 ∧ s.phase = phaseBound ∧ s.power.transition
      = none) ∧
        (∃ (data : Word) (d : Word) (s : State), s.writeTaken reg_PWR_REQ data = some d ∧ d.toNat % 4 = 3 ∧ s.phase = phaseRunning ∧
      s.power.transition = none) ∧
        (∃ (w : PowerState) (s : State), s.power.transition = some (.wake w)) ∧
        (∃ (data : Word) (d : Word) (s : State), s.writeTaken reg_PWR_REQ data = some d ∧ d.toNat % 4 = 2 ∧ s.phase = phaseRunning ∧ s.powerCode = 1 ∧
      s.power.transition = none) ∧
        (∃ (data : Word) (d : Word) (s : State), s.writeTaken reg_PWR_REQ data = some d ∧ d.toNat % 4 = 1 ∧ s.phase = phaseRunning ∧ s.powerCode = 2 ∧
      s.power.transition = none) ∧
        (∃ (data : Word) (d : Word) (e : PowerState) (s : State), s.writeTaken reg_PWR_REQ data = some d ∧ s.power.transition = some (.entry e) ∧ e ≠
      .run ∧ d.toNat % 4 = 0) :=
    ⟨⟨1, 1, granting reg_PWR_REQ up, by decide +kernel⟩,
      ⟨2, 2, granting reg_PWR_REQ up, by decide +kernel⟩,
      ⟨0, 0, granting reg_PWR_REQ (up.setFld fld_PWR_STATUS_STATE 2), by decide +kernel⟩,
      ⟨3, 3, granting reg_PWR_REQ (up.setFld fld_SEC_STATE_PHASE phaseBound), by decide +kernel⟩,
      ⟨3, 3, granting reg_PWR_REQ up, by decide +kernel⟩,
      ⟨.run, granting reg_PWR_REQ { up with power := { up.power with transition := some (.wake .run) } }, by decide +kernel⟩,
      ⟨2, 2, granting reg_PWR_REQ (up.setFld fld_PWR_STATUS_STATE 1), by decide +kernel⟩,
      ⟨1, 1, granting reg_PWR_REQ (up.setFld fld_PWR_STATUS_STATE 2), by decide +kernel⟩,
      ⟨0, 0, .doze, granting reg_PWR_REQ { up with power := { up.power with transition := some (.entry .doze), heldWake := some .doze } },
     by decide +kernel⟩⟩

theorem witness_PowerRequestsBeginTransitions_2 :
        (∃ (data : Word) (d : Word) (e : PowerState) (s : State), s.writeTaken reg_PWR_REQ data = some d ∧ s.power.transition = some (.entry e) ∧ ((e
      = .nap ∨ e = .hibernate)) ∧ d.toNat % 4 = 1) ∧
        (∃ (data : Word) (d : Word) (s : State), s.writeTaken reg_PWR_REQ data = some d ∧ s.power.transition = none ∧ d.toNat % 4 = 0 ∧ (s.phase ≠
      phaseRunning ∨ s.powerCode = 0)) ∧
        (∃ (data : Word) (d : Word) (s : State), s.writeTaken reg_PWR_REQ data = some d ∧ s.power.transition = none ∧ d.toNat % 4 = 1 ∧ (s.phase ≠
      phaseRunning ∨ s.powerCode = 1)) ∧
        (∃ (data : Word) (d : Word) (s : State), s.writeTaken reg_PWR_REQ data = some d ∧ s.power.transition = none ∧ d.toNat % 4 = 2 ∧ (s.phase ≠
      phaseRunning ∨ s.powerCode = 2)) ∧
        (∃ (data : Word) (d : Word) (s : State), s.writeTaken reg_PWR_REQ data = some d ∧ s.power.transition = none ∧ d.toNat % 4 = 3 ∧ s.phase ≠
      phaseRunning ∧ s.phase ≠ phaseBound) ∧
        (∃ (data : Word) (s : State), s.writeTaken reg_PWR_REQ data = none) :=
    ⟨⟨1, 1, .hibernate, granting reg_PWR_REQ { up with power := { up.power with transition := some (.entry .hibernate) } }, by decide +kernel⟩,
      ⟨0, 0, granting reg_PWR_REQ up, by decide +kernel⟩,
      ⟨1, 1, granting reg_PWR_REQ (up.setFld fld_PWR_STATUS_STATE 1), by decide +kernel⟩,
      ⟨2, 2, granting reg_PWR_REQ (up.setFld fld_PWR_STATUS_STATE 2), by decide +kernel⟩,
      ⟨3, 3, granting reg_PWR_REQ (up.setFld fld_SEC_STATE_PHASE phaseBindOff), by decide +kernel⟩,
      ⟨0, State.reset, by decide +kernel⟩⟩

theorem witness_PowerEntriesAndWakes :
        (∃ (s : State), s.alive = true ∧ s.powerCode = 0 ∧ s.power.transition = some (.entry .doze) ∧ s.power.heldWake = none ∧ s.power.wakeTime =
      none) ∧
        (∃ (s : State), s.alive = true ∧ s.powerCode = 0 ∧ s.power.transition = some (.entry .nap)) ∧
        (∃ (s : State), s.alive = true ∧ s.powerCode = 1 ∧ s.power.napLoopStopped = true ∧ s.power.transition = some (.entry .nap) ∧ s.power.heldWake
      = none ∧ s.power.wakeTime = none) ∧
        (∃ (s : State), s.Canonical ∧ s.alive = true ∧ s.phase = phaseBound ∧ s.power.transition = some (.entry .hibernate)) ∧
        (∃ (w : Stamp) (s : State), s.power.wakeTime = some w ∧ s.alive = true ∧ s.phase = phaseRunning ∧ 1 ≤ s.powerCode ∧ s.power.transition = none)
      ∧
        (∃ (rising : Bool) (s : State), s.power.wakeTin0 = true ∧ s.power.wakeFalling = !rising ∧ s.alive = true ∧ s.power.hibernating = false ∧
      s.phase = phaseRunning ∧ 1 ≤ s.powerCode ∧ s.power.transition = none) ∧
        (∃ (rising : Bool) (s : State), s.power.wakeTin0 = true ∧ s.power.wakeFalling = !rising ∧ s.power.hibernating = true ∧ s.resets.active = none)
      ∧
        (∃ (s : State), s.power.hibernating = true ∧ s.power.wakeSleep ≠ 0 ∧ s.resets.refclkAbsent = false ∧ s.resets.active = none) ∧
        (∃ (w : PowerState) (s : State), s.alive = true ∧ s.power.transition = some (.wake w)) :=
    ⟨⟨{ up with power := { up.power with transition := some (.entry .doze) } }, by decide +kernel⟩,
      ⟨{ up with power := { up.power with transition := some (.entry .nap) } }, by decide +kernel⟩,
      ⟨{ up.setFld fld_PWR_STATUS_STATE 1 with power := { up.power with transition := some (.entry .nap), napLoopStopped := true } },
     by decide +kernel⟩,
      ⟨{ up.setFld fld_SEC_STATE_PHASE phaseBound with power := { up.power with transition := some (.entry .hibernate), wakeSleep := 3 } },
     canonical_of_checks (by decide +kernel), by decide +kernel, by decide +kernel, by decide +kernel⟩,
      ⟨65536 * 1000, { up.setFld fld_PWR_STATUS_STATE 1 with power := { up.power with wakeTime := some (65536 * 1000) } }, by decide +kernel⟩,
      ⟨true, { up.setFld fld_PWR_STATUS_STATE 1 with power := { up.power with wakeTin0 := true } }, by decide +kernel⟩,
      ⟨true, { up with power := { up.power with wakeTin0 := true, hibernating := true } }, by decide +kernel⟩,
      ⟨{ up with power := { up.power with wakeSleep := 3, hibernating := true } }, by decide +kernel⟩,
      ⟨.run, { up.setFld fld_PWR_STATUS_STATE 2 with power := { up.power with transition := some (.wake .run), selfRefresh := true } },
     by decide +kernel⟩⟩

theorem witness_PowerEntriesAndWakes_2 :
        (∃ (s : State), s.Canonical ∧ s.resets.testEn = false ∧ s.power.poweringUp = true ∧ s.resets.refclkAbsent = false ∧ s.resets.active = none) ∧
        (∃ (s : State), s.alive = true ∧ s.powerCode = 0 ∧ s.power.transition = some (.entry .doze) ∧ s.power.heldWake = some .run) ∧
        (∃ (w : Stamp) (s : State), s.alive = true ∧ s.powerCode = 0 ∧ s.power.transition = some (.entry .doze) ∧ s.power.heldWake = none ∧
      s.power.wakeTime = some w) ∧
        (∃ (w : PowerState) (s : State), s.alive = true ∧ s.powerCode = 1 ∧ s.power.napLoopStopped = true ∧ s.power.transition = some (.entry .nap) ∧
      s.power.heldWake = some w ∧ ((w = .run ∨ w = .doze))) ∧
        (∃ (w : Stamp) (s : State), s.power.wakeTime = some w ∧ s.alive = true ∧ ((s.power.transition = some (.entry .doze) ∨ s.power.transition =
      some (.entry .nap)))) ∧
        (∃ (rising : Bool) (s : State), s.power.wakeTin0 = true ∧ s.power.wakeFalling = !rising ∧ s.alive = true ∧ s.power.hibernating = false ∧
      s.entering = true) :=
    ⟨⟨{ up with power := { up.power with poweringUp := true, hibernating := true } }, canonical_of_checks (by decide +kernel), by decide +kernel,
    by decide +kernel, by decide +kernel, by decide +kernel⟩,
      ⟨{ up with power := { up.power with transition := some (.entry .doze), heldWake := some .run } }, by decide +kernel⟩,
      ⟨65536, { up with power := { up.power with transition := some (.entry .doze), wakeTime := some 65536 } }, by decide +kernel⟩,
      ⟨.doze,
     { up.setFld fld_PWR_STATUS_STATE 1 with power := { up.power with transition := some (.entry .nap), napLoopStopped := true, heldWake := some .doze } },
     by decide +kernel⟩,
      ⟨65536, { up with power := { up.power with transition := some (.entry .nap), wakeTime := some 65536 } }, by decide +kernel⟩,
      ⟨true, { up with power := { up.power with transition := some (.entry .nap), wakeTin0 := true } }, by decide +kernel⟩⟩

theorem witness_GovernorAndBrownHold :
        (∃ (uw : Nat) (raw : List Int) (avg : Rat) (d : Decision) (s : State), s.alive = true ∧ s.flag fld_SYS_LOCK_LOCKED = true ∧ avg = (if
      s.power.started then s.power.avg + ((uw : Rat) / 1000000 - s.power.avg) / ((2 ^ min 12 (s.fld fld_PWR_GOV_CFG_AVG_SHIFT) : Nat) : Rat) else (uw
      : Rat) / 1000000) ∧ d = s.decide_ avg ((uw : Rat) / 1000000) (s.hottest raw)) ∧
        (∃ (avg : Rat) (p : Rat) (s : State), (s.packageLimit : Rat) < avg ∧ (s.packageLimit : Rat) < p ∧ s.level < max (s.fld
      fld_PWR_GOV_CFG_MIN_LEVEL) (s.fld fld_PWR_GOV_CFG_MAX_LEVEL)) ∧
        (∃ (s : State), s.brown = false ∧ s.resets.active ≠ some .cold) ∧
        (∃ (s : State), s.brown = true) ∧
        (∃ (avg : Rat) (p : Rat) (hot : Int) (s : State), (((s.packageLimit : Rat) < avg ∧ (s.packageLimit : Rat) < p) ∨ (16 * s.fld
      fld_PWR_LIMIT_TJ_LIMIT : Int) ≤ hot)) ∧
        (∃ (avg : Rat) (p : Rat) (low : Rat) (hot : Int) (s : State), low = (s.packageLimit : Rat) * (1 - (s.fld fld_PWR_GOV_CFG_HYST : Rat) / 64) ∧
      avg < low ∧ p < low ∧ hot < (16 * s.fld fld_PWR_LIMIT_TJ_LIMIT : Int) - 48 ∧ max 1 (s.fld fld_PWR_GOV_CFG_DWELL) ≤ s.power.calm + 1 ∧ s.fld
      fld_PWR_GOV_CFG_MIN_LEVEL < s.level) ∧
        (∃ (avg : Rat) (p : Rat) (low : Rat) (hot : Int) (s : State), low = (s.packageLimit : Rat) * (1 - (s.fld fld_PWR_GOV_CFG_HYST : Rat) / 64) ∧
      avg < low ∧ p < low ∧ hot < (16 * s.fld fld_PWR_LIMIT_TJ_LIMIT : Int) - 48 ∧ (s.power.calm + 1 < max 1 (s.fld fld_PWR_GOV_CFG_DWELL) ∨ s.level ≤
      s.fld fld_PWR_GOV_CFG_MIN_LEVEL)) ∧
        (∃ (avg : Rat) (p : Rat) (low : Rat) (hot : Int) (s : State), low = (s.packageLimit : Rat) * (1 - (s.fld fld_PWR_GOV_CFG_HYST : Rat) / 64) ∧
      ((avg ≤ s.packageLimit ∨ p ≤ s.packageLimit)) ∧ hot < (16 * s.fld fld_PWR_LIMIT_TJ_LIMIT : Int) ∧ ((low ≤ avg ∨ low ≤ p ∨ (16 * s.fld
      fld_PWR_LIMIT_TJ_LIMIT : Int) - 48 ≤ hot))) :=
    ⟨⟨5000000, [], 5, up.decide_ 5 5 (up.hottest []), up, by decide +kernel⟩,
      ⟨1000, 1000, up, by decide +kernel⟩,
      ⟨up, by decide +kernel⟩,
      ⟨up.setFlag fld_PWR_STATUS_BROWN true, by decide +kernel⟩,
      ⟨100000, 100000, 16 * 255, up.setFld fld_PWR_LIMIT_TJ_LIMIT 100, by decide +kernel⟩,
      ⟨0, 0, 40, 0, ((up.setFld fld_PWR_STATUS_LEVEL 3).setFld fld_PWR_LIMIT_TJ_LIMIT 100).setFld fld_PWR_LIMIT_PKG_LIMIT_W 40 |>.setFld
     fld_PWR_GOV_CFG_HYST 0 |>.setFld fld_PWR_GOV_CFG_DWELL 1 |>.setFld fld_PWR_GOV_CFG_MIN_LEVEL 2, by decide +kernel⟩,
      ⟨0, 0, 40, 0, ((up.setFld fld_PWR_STATUS_LEVEL 2).setFld fld_PWR_LIMIT_TJ_LIMIT 100).setFld fld_PWR_LIMIT_PKG_LIMIT_W 40 |>.setFld
     fld_PWR_GOV_CFG_HYST 0 |>.setFld fld_PWR_GOV_CFG_DWELL 1 |>.setFld fld_PWR_GOV_CFG_MIN_LEVEL 2, by decide +kernel⟩,
      ⟨40, 0, 40, 0, ((up.setFld fld_PWR_STATUS_LEVEL 2).setFld fld_PWR_LIMIT_TJ_LIMIT 100).setFld fld_PWR_LIMIT_PKG_LIMIT_W 40 |>.setFld
     fld_PWR_GOV_CFG_HYST 0, by decide +kernel⟩⟩

theorem witness_MisalignedIsUnmapped :
        (∃ (addr : Word), addr.toNat % 4 ≠ 0) ∧
        (∃ (addr : Word), addr.toNat % 4 ≠ 0) ∧
        (∃ (addr : Word) (s : State), addr.toNat % 4 ≠ 0 ∧ s.addressed = true ∧ s.latch 0 addr.toNat = none ∧ s.links.readPointer = addr ∧ 4 ≤
      s.links.maxRead) ∧
        (∃ (addr : Word) (s : State), addr.toNat % 4 ≠ 0 ∧ s.addressed = true ∧ 8 ≤ s.links.maxWrite) :=
    ⟨⟨0x30609, by decide +kernel⟩,
      ⟨0x30609, by decide +kernel⟩,
      ⟨0x30609, { up.setFlag fld_I3C_STATUS_ADDR_VALID true with links := { up.links with readPointer := 0x30609 } }, by decide +kernel⟩,
      ⟨0x30609, up.setFlag fld_I3C_STATUS_ADDR_VALID true, by decide +kernel⟩⟩

theorem witness_I3cTransfersReachRegisters :
        (∃ (s : State), s.addressed = true) ∧
        (∃ (addr : Word) (s : State), s.addressed = true ∧ 8 ≤ s.links.maxWrite ∧ isPairLo addr.toNat = false ∧ isPairHi addr.toNat = false) ∧
        (∃ (addr : Word) (s : State), s.addressed = true ∧ 12 ≤ s.links.maxWrite ∧ isPairLo addr.toNat = true ∧ isPairHi (addr + 4).toNat = true ∧
      isPairLo (addr + 4).toNat = false) ∧
        (∃ (s : State), s.addressed = true) ∧
        (∃ (s : State), s.addressed = true ∧ 4 ≤ s.links.maxRead ∧ s.latch 0 s.links.readPointer.toNat = none ∧ isPairLo s.links.readPointer.toNat =
      false ∧ s.links.readPointer.toNat ≠ reg_ATTEST_WIN_DATA ∧ s.links.readPointer.toNat ≠ reg_FAULT_LOG_DATA) ∧
        (∃ (r : List Word) (s : State), s.addressed = true ∧ r.length + 2 ≤ s.links.maxWrite / 4) ∧
        (∃ (r : List Word) (s : State), s.addressed = true ∧ r.length + 2 ≤ s.links.maxWrite / 4 ∧ s.flag fld_I3C_CFG_HDR_EN = true) ∧
        (∃ (s : State), 8 ≤ s.links.maxWrite) ∧
        (∃ (s : State), (s.addressed = false ∨ s.flag fld_I3C_CFG_HDR_EN = false)) :=
    ⟨⟨up.setFlag fld_I3C_STATUS_ADDR_VALID true, by decide +kernel⟩,
      ⟨BitVec.ofNat 32 reg_FAULT_LOG_ADDR, granting reg_FAULT_LOG_ADDR ((up.setFlag fld_I3C_STATUS_ADDR_VALID true).setFlag fld_I3C_CFG_HDR_EN true),
     by decide +kernel⟩,
      ⟨0x30608, granting 0x30608 (granting 0x3060C ((up.setFlag fld_I3C_STATUS_ADDR_VALID true).setFlag fld_I3C_CFG_HDR_EN true)), by decide +kernel⟩,
      ⟨(up.setFlag fld_I3C_STATUS_ADDR_VALID true).setFlag fld_I3C_CFG_HDR_EN true, by decide +kernel⟩,
      ⟨{ up.setFlag fld_I3C_STATUS_ADDR_VALID true with links := { up.links with readPointer := 0x10C } }, by decide +kernel⟩,
      ⟨[4, 5], (granting reg_FAULT_LOG_ADDR ((up.setFlag fld_I3C_STATUS_ADDR_VALID true).setFlag fld_I3C_CFG_HDR_EN true)), by decide +kernel⟩,
      ⟨[4, 5], (granting reg_FAULT_LOG_ADDR ((up.setFlag fld_I3C_STATUS_ADDR_VALID true).setFlag fld_I3C_CFG_HDR_EN true)), by decide +kernel⟩,
      ⟨State.reset, by decide +kernel⟩,
      ⟨State.reset, by decide +kernel⟩⟩

theorem witness_I3cTransfersReachRegisters_2 :
        ∃ (s : State), s.addressed = false :=
    ⟨State.reset, by decide +kernel⟩

theorem witness_TargetResetsActAsRstactSays :
        (∃ (s : State), s.hostUp = true) ∧
        (∃ (s : State), s.Canonical ∧ s.hostUp = true ∧ s.flag fld_I3C_CFG_RESET_EN = true) ∧
        (∃ (s : State), s.inReset 6 = true) ∧
        (∃ (s : State), s.inReset 6 = true) ∧
        (∃ (s : State), s.inReset 6 = true) ∧
        (∃ (s : State), s.inReset 6 = true) ∧
        (∃ (s : State), s.inReset 6 = true) ∧
        (∃ (s : State), s.inReset 6 = true) ∧
        (∃ (s : State), s.inReset 6 = true) :=
    ⟨⟨({ up with links := { up.links with readPointer := 7 } }.setFlag fld_I3C_STATUS_ADDR_VALID true).setFld fld_I3C_STATUS_DYN_ADDR 9,
    by decide +kernel⟩,
      ⟨up.setFlag fld_I3C_CFG_RESET_EN true, canonical_of_checks (by decide +kernel), by decide +kernel, by decide +kernel⟩,
      ⟨{ up with sw := { up.sw with inReset := BitVec.allOnes 48 } }, by decide +kernel⟩,
      ⟨{ up with sw := { up.sw with inReset := BitVec.allOnes 48 } }, by decide +kernel⟩,
      ⟨{ up with sw := { up.sw with inReset := BitVec.allOnes 48 } }, by decide +kernel⟩,
      ⟨{ up with sw := { up.sw with inReset := BitVec.allOnes 48 } }, by decide +kernel⟩,
      ⟨{ up with sw := { up.sw with inReset := BitVec.allOnes 48 } }, by decide +kernel⟩,
      ⟨{ up with sw := { up.sw with inReset := BitVec.allOnes 48 } }, by decide +kernel⟩,
      ⟨{ up with sw := { up.sw with inReset := BitVec.allOnes 48 } }, by decide +kernel⟩⟩

theorem witness_TargetResetsActAsRstactSays_2 :
        (∃ (s : State), s.inReset 6 = true) ∧
        (∃ (s : State), s.inReset 6 = true) ∧
        (∃ (s : State), s.inReset 6 = true) ∧
        (∃ (s : State), s.inReset 6 = true) ∧
        (∃ (s : State), s.inReset 6 = true) ∧
        (∃ (s : State), s.inReset 6 = true) ∧
        (∃ (s : State), s.inReset 6 = true) :=
    ⟨⟨{ up with sw := { up.sw with inReset := BitVec.allOnes 48 } }, by decide +kernel⟩,
      ⟨{ up with sw := { up.sw with inReset := BitVec.allOnes 48 } }, by decide +kernel⟩,
      ⟨{ up with sw := { up.sw with inReset := BitVec.allOnes 48 } }, by decide +kernel⟩,
      ⟨{ up with sw := { up.sw with inReset := BitVec.allOnes 48 } }, by decide +kernel⟩,
      ⟨{ up with sw := { up.sw with inReset := BitVec.allOnes 48 } }, by decide +kernel⟩,
      ⟨{ up with sw := { up.sw with inReset := BitVec.allOnes 48 } }, by decide +kernel⟩,
      ⟨{ up with sw := { up.sw with inReset := BitVec.allOnes 48 } }, by decide +kernel⟩⟩

theorem witness_CommandCodesSetAndAnswer :
        (∃ (s : State), s.hostUp = true) ∧
        (∃ (s : State), s.hostUp = true) ∧
        (∃ (s : State), s.hostUp = true) ∧
        (∃ (s : State), s.hostUp = true) ∧
        (∃ (s : State), s.hostUp = true) ∧
        (∃ (s : State), s.hostUp = true ∧ s.flag fld_I3C_STATUS_ADDR_VALID = false) ∧
        (∃ (st : BitVec 7) (s : State), s.hostUp = true ∧ s.flag fld_I3C_STATUS_ADDR_VALID = false ∧ s.flag fld_SYS_LOCK_LOCKED = true ∧ st.toNat =
      s.fld fld_I3C_CFG_STATIC_ADDR ∧ st ≠ 0) ∧
        (∃ (st : BitVec 7) (s : State), st.toNat ≠ s.fld fld_I3C_CFG_STATIC_ADDR) ∧
        (∃ (s : State), s.addressed = true) :=
    ⟨⟨up, by decide +kernel⟩,
      ⟨up.setFlag fld_I3C_STATUS_IBI_ON true, by decide +kernel⟩,
      ⟨(up.setFlag fld_I3C_STATUS_ADDR_VALID true).setFld fld_I3C_STATUS_DYN_ADDR 9, by decide +kernel⟩,
      ⟨up, by decide +kernel⟩,
      ⟨up, by decide +kernel⟩,
      ⟨up, by decide +kernel⟩,
      ⟨9, up.setFld fld_I3C_CFG_STATIC_ADDR 9, by decide +kernel⟩,
      ⟨9, up.setFld fld_I3C_CFG_STATIC_ADDR 10, by decide +kernel⟩,
      ⟨up.setFlag fld_I3C_STATUS_ADDR_VALID true, by decide +kernel⟩⟩

theorem witness_CommandCodesSetAndAnswer_2 :
        (∃ (s : State), s.addressed = true) ∧
        (∃ (s : State), s.addressed = true) ∧
        (∃ (s : State), s.addressed = true) ∧
        (∃ (s : State), s.addressed = true) ∧
        (∃ (s : State), s.addressed = true) ∧
        (∃ (s : State), s.addressed = true) ∧
        (∃ (s : State), s.flag fld_I3C_STATUS_ADDR_VALID = true) ∧
        (∃ (s : State), s.flag fld_I3C_STATUS_ADDR_VALID = false) ∧
        (∃ (s : State), s.flag fld_I3C_STATUS_ADDR_VALID = false ∧ s.flag fld_SYS_LOCK_LOCKED = false) :=
    ⟨⟨up.setFlag fld_I3C_STATUS_ADDR_VALID true, by decide +kernel⟩,
      ⟨up.setFlag fld_I3C_STATUS_ADDR_VALID true, by decide +kernel⟩,
      ⟨up.setFlag fld_I3C_STATUS_ADDR_VALID true, by decide +kernel⟩,
      ⟨up.setFlag fld_I3C_STATUS_ADDR_VALID true, by decide +kernel⟩,
      ⟨up.setFlag fld_I3C_STATUS_ADDR_VALID true, by decide +kernel⟩,
      ⟨up.setFlag fld_I3C_STATUS_ADDR_VALID true, by decide +kernel⟩,
      ⟨up.setFlag fld_I3C_STATUS_ADDR_VALID true, by decide +kernel⟩,
      ⟨State.reset, by decide +kernel⟩,
      ⟨State.reset, by decide +kernel⟩⟩

theorem witness_InterruptsAndSnapshotsComplete :
        (∃ (i : Nat) (s : State), s.addressed = true ∧ s.flag fld_I3C_STATUS_IBI_ON = true ∧ i < 7 ∧ bit (s.fld fld_I3C_IBI_PEND_PEND) i = true ∧ bit
      (s.fld fld_I3C_IBI_EN_EN) i = true ∧ ((∀ j, j < i → (bit (s.fld fld_I3C_IBI_PEND_PEND) j && bit (s.fld fld_I3C_IBI_EN_EN) j) = false))) ∧
        (∃ (absent : Bool) (s : State), s.alive = true ∧ s.integ.snapTaken = some absent) ∧
        (∃ (p : ResetPort) (s : State), s.alive = true ∧ s.flag (resetFlag p) = true) ∧
        (∃ (s : State), ((s.addressed = false ∨ s.flag fld_I3C_STATUS_IBI_ON = false ∨ (∀ j, j < 7 → (bit (s.fld fld_I3C_IBI_PEND_PEND) j && bit
      (s.fld fld_I3C_IBI_EN_EN) j) = false)))) ∧
        (∃ (p : ResetPort) (s : State), s.flag (resetFlag p) = false) ∧
        (∃ (m : Fin 2) (s : State), s.alive = true ∧ s.flag fld_SYS_LOCK_LOCKED = true ∧ s.inReset 4 = false ∧ s.flag (resetFlag (.eth m)) = true) ∧
        (∃ (n : Fin 12) (s : State), s.alive = true ∧ s.flag fld_SYS_LOCK_LOCKED = true ∧ s.inReset 7 = false ∧ s.flag (resetFlag (.csiRx n)) = true)
      :=
    ⟨⟨6, (((up.setFlag fld_I3C_STATUS_ADDR_VALID true).setFlag fld_I3C_STATUS_IBI_ON true).setFld fld_I3C_IBI_PEND_PEND 0x60).setFld fld_I3C_IBI_EN_EN
    0x4F, by decide +kernel⟩,
      ⟨true, { up with integ := { up.integ with snapTaken := some true } }.setFld fld_SNAP_NUM_NUMBER 0xFFFFFFFF, by decide +kernel⟩,
      ⟨.csiTx 3, up.setFlag (resetFlag (.csiTx 3)) true, by decide +kernel⟩,
      ⟨State.reset, by decide +kernel⟩,
      ⟨.eth 1, up, by decide +kernel⟩,
      ⟨1, (up.setFlag (resetFlag (.eth 1)) true).setFlag (fld_ETH_CTRL_ENABLE 1) true, by decide +kernel⟩,
      ⟨11, (up.setFlag (resetFlag (.csiRx 11)) true).setFlag (fld_CSI_RX_CFG_ENABLE 11) true, by decide +kernel⟩⟩

theorem witness_ImuPortsReadAndDeliver :
        (∃ (n : Nat) (s : State), s.links.initRunning = true ∧ s.swatchRuns 5 = true ∧ s.toAddress = some n) ∧
        (∃ (i : Nat) (s : State), s.links.initRunning = true ∧ s.swatchRuns 5 = true ∧ s.toAddress = none ∧ s.nextEntry = some i) ∧
        (∃ (imu : Fin 4) (rising : Bool) (s : State), s.swatchRuns 5 = true ∧ s.flag fld_SYS_LOCK_LOCKED = true ∧ s.links.initRunning = false ∧
      s.imuReachable imu = true ∧ rising = !s.flag (fld_IMU_PORT_CFG_DRDY_EDGE imu) ∧ s.imuBus (s.onSpi imu) = none ∧ ((∀ w, w ∈ s.links.imuWaiting →
      s.onSpi w.imu ≠ s.onSpi imu))) ∧
        (∃ (imu : Fin 4) (rising : Bool) (r : ImuRead) (s : State), s.swatchRuns 5 = true ∧ s.flag fld_SYS_LOCK_LOCKED = true ∧ s.links.initRunning =
      false ∧ s.imuReachable imu = true ∧ rising = !s.flag (fld_IMU_PORT_CFG_DRDY_EDGE imu) ∧ s.imuBus (s.onSpi imu) = some r ∧ r.imu = imu.val) ∧
        (∃ (imu : Fin 4) (rising : Bool) (s : State), ((rising = s.flag (fld_IMU_PORT_CFG_DRDY_EDGE imu) ∨ s.links.initRunning = true ∨ s.imuReachable
      imu = false ∨ s.flag fld_SYS_LOCK_LOCKED = false ∨ s.swatchRuns 5 = false))) ∧
        (∃ (spi : Bool) (ack : Bool) (r : ImuRead) (s : State), s.swatchRuns 5 = true ∧ s.imuBus spi = some r ∧ (spi || ack) = true ∧ s.inReset 12 =
      false ∧ ((∀ w, w ∈ s.links.imuWaiting → s.onSpi w.imu ≠ spi))) ∧
        (∃ (n : Nat) (b : List Byte) (s : State), s.flag (fld_IMU_PORT_CFG_SWAP n) = false ∧ s.flag (fld_IMU_PORT_CFG_ORDER n) = false ∧ b.length =
      12) ∧
        (∃ (r : ImuRead) (s : State), s.swatchRuns 5 = true ∧ s.imuBus false = some r ∧ r.imu < 4 ∧ ((∀ w, w ∈ s.links.imuWaiting → s.onSpi w.imu =
      true))) ∧
        (∃ (i : Nat) (s : State), s.links.initRunning = true ∧ s.swatchRuns 5 = true ∧ s.toAddress = none ∧ s.nextEntry = some i ∧ s.initField i 0 1 <
      4 ∧ s.onSpi (s.initField i 0 1) = false) :=
    ⟨⟨3, { imuUp with links := { imuUp.links with initRunning := true } }, by decide +kernel⟩,
      ⟨1,
     { (imuUp.loadObj 5 1 8 [3, 17, 34, 0, 0, 0, 0, 0]) with links := { imuUp.links with initRunning := true, initNext := 1, initAddressed := [3] } },
     by decide +kernel⟩,
      ⟨3, !imuUp.flag (fld_IMU_PORT_CFG_DRDY_EDGE 3), imuUp, by decide +kernel⟩,
      ⟨3, !imuUp.flag (fld_IMU_PORT_CFG_DRDY_EDGE 3), ⟨3, 44⟩, { imuUp with links := { imuUp.links with imuI3c := some ⟨3, 44⟩ } },
     by decide +kernel⟩,
      ⟨3, imuUp.flag (fld_IMU_PORT_CFG_DRDY_EDGE 3), imuUp, by decide +kernel⟩,
      ⟨false, true, ⟨3, 44⟩, { imuUp with links := { imuUp.links with imuI3c := some ⟨3, 44⟩ } }, by decide +kernel⟩,
      ⟨3, [1, 2, 3, 4, 5, 6, 7, 8, 9, 10, 11, 12], imuUp, by decide +kernel⟩,
      ⟨⟨3, 44⟩, { imuUp with links := { imuUp.links with imuI3c := some ⟨3, 44⟩ } }, by decide +kernel⟩,
      ⟨1,
     { (imuUp.loadObj 5 1 8 [3, 17, 34, 0, 0, 0, 0, 0]) with links := { imuUp.links with initRunning := true, initNext := 1, initAddressed := [3] } },
     by decide +kernel⟩⟩

theorem witness_ImuPortsReadAndDeliver_2 :
        (∃ (imu : Fin 4) (rising : Bool) (r : ImuRead) (s : State), s.swatchRuns 5 = true ∧ s.flag fld_SYS_LOCK_LOCKED = true ∧ s.links.initRunning =
      false ∧ s.imuReachable imu = true ∧ rising = !s.flag (fld_IMU_PORT_CFG_DRDY_EDGE imu) ∧ s.imuBus (s.onSpi imu) = some r ∧ r.imu ≠ imu.val) ∧
        (∃ (spi : Bool) (r : ImuRead) (n : ImuRead) (s : State), s.swatchRuns 5 = true ∧ s.imuBus spi = some r ∧ r.imu < 4 ∧ n ∈ s.links.imuWaiting ∧
      s.onSpi n.imu = spi ∧ ((∀ w, w ∈ s.links.imuWaiting → w ≠ n → s.onSpi w.imu = spi → n.stamp < w.stamp ∨ (n.stamp = w.stamp ∧ n.imu < w.imu)))) ∧
        (∃ (r : ImuRead) (s : State), s.swatchRuns 5 = true ∧ s.imuBus true = some r ∧ s.inReset 12 = true ∧ ((∀ w, w ∈ s.links.imuWaiting → s.onSpi
      w.imu = false))) :=
    ⟨⟨3, !imuUp.flag (fld_IMU_PORT_CFG_DRDY_EDGE 3), ⟨2, 44⟩,
    { imuUp with links := { imuUp.links with imuI3c := some ⟨2, 44⟩, imuWaiting := [⟨3, 50⟩] } }, by decide +kernel⟩,
      ⟨false, ⟨3, 44⟩, ⟨2, 45⟩, { imuUp with links := { imuUp.links with imuI3c := some ⟨3, 44⟩, imuWaiting := [⟨2, 45⟩] } }, by decide +kernel⟩,
      ⟨⟨3, 44⟩, { imuUp with links := { imuUp.links with imuSpi := some ⟨3, 44⟩ }, sw := { imuUp.sw with inReset := swatchBit 12 } },
     by decide +kernel⟩⟩

theorem witness_TrackingInputsAreJudged :
        (∃ (imu : Fin 4) (n : Nat) (stamp : Stamp) (raw : List Byte) (tov : Int) (s : State), s.track.arrived.find? (fun a => a.1 == imu.val) = some
      (n, stamp, raw) ∧ s.swatchRuns 12 = true ∧ s.imuOn imu = true ∧ tov = stamp + signed 32 (s.trackNat 3 (64 * s.trackNat 4 (32 * imu.val) 1 +
      0x1C) 4) * 65536) ∧
        (∃ (imu : Fin 4) (n : Nat) (stamp : Stamp) (raw : List Byte) (s : State), s.track.arrived.find? (fun a => a.1 == imu.val) = some (n, stamp,
      raw) ∧ (s.swatchRuns 12 && s.imuOn imu) = false) ∧
        (∃ (eth : Fin 2) (c : Nat) (stamp : Stamp) (frame : List Byte) (s : State), (s.mac eth).delivered.find? (fun d => d.1 == 1) = some (c, stamp,
      frame) ∧ s.swatchRuns 12 = true ∧ s.flag fld_SYS_LOCK_LOCKED = true ∧ jointBad (jointPayload frame) = true) ∧
        (∃ (eth : Fin 2) (c : Nat) (stamp : Stamp) (frame : List Byte) (p : List Byte) (v : JointSource) (s : State), (s.mac eth).delivered.find? (fun
      d => d.1 == 1) = some (c, stamp, frame) ∧ s.swatchRuns 12 = true ∧ s.flag fld_SYS_LOCK_LOCKED = true ∧ p = jointPayload frame ∧ jointBad p =
      false ∧ v = Store.get JointSource.reset s.track.sources (field p 4 2 % 16)) ∧
        (∃ (eth : Fin 2) (c : Nat) (stamp : Stamp) (frame : List Byte) (s : State), (s.mac eth).delivered.find? (fun d => d.1 == 1) = some (c, stamp,
      frame) ∧ (s.swatchRuns 12 && s.flag fld_SYS_LOCK_LOCKED) = false) :=
    ⟨⟨3, 3, 9, [1, 2], 9, { imuUp with track := { imuUp.track with arrived := [(2, 8, []), (3, 9, [1, 2])] } }, by decide +kernel⟩,
      ⟨3, 3, 9, [1, 2], { up with track := { imuUp.track with arrived := [(2, 8, []), (3, 9, [1, 2])] } }, by decide +kernel⟩,
      ⟨1, 1, 7, [1], jointUp [1], by decide +kernel⟩,
      ⟨1, 1, 7, List.replicate 14 0 ++ jointBody, jointBody, JointSource.reset, jointUp (List.replicate 14 0 ++ jointBody), by decide +kernel⟩,
      ⟨1, 1, 7, [1], (jointUp [1]).setFlag fld_SYS_LOCK_LOCKED false, by decide +kernel⟩⟩

theorem witness_ServoFollowsItsRules :
        (∃ (eth : Fin 2) (m : SyncMessage) (s : State), s.syncUsable eth m.domain m.grandmaster = true ∧ m.twoStep = false ∧ (s.atTap
      m.tap).announceLate 0 = false ∧ (s.atTap m.tap).announceLate 1 = false ∧ s.flag fld_TIME_STATUS_CLOCK_FAULT = false ∧ s.flag
      fld_TIME_STATUS_STEP_ARMED = true) ∧
        (∃ (eth : Fin 2) (m : SyncMessage) (s : State), s.syncUsable eth m.domain m.grandmaster = true ∧ m.twoStep = true ∧ (s.atTap
      m.tap).announceLate 0 = false ∧ (s.atTap m.tap).announceLate 1 = false) ∧
        (∃ (eth : Fin 2) (y : SyncMessage) (m : FollowUpMessage) (s : State), Store.get none s.time.waiting eth = some y ∧ y.sequence = m.sequence ∧
      y.domain = m.domain ∧ y.grandmaster = m.grandmaster ∧ s.syncUsable eth m.domain m.grandmaster = true ∧ s.announceLate 0 = false ∧ s.announceLate
      1 = false ∧ s.flag fld_TIME_STATUS_CLOCK_FAULT = false ∧ s.flag fld_TIME_STATUS_STEP_ARMED = true) ∧
        (∃ (eth : Fin 2) (m : SyncMessage) (s : State), s.syncUsable eth m.domain m.grandmaster = true ∧ m.twoStep = false ∧ (s.atTap
      m.tap).announceLate 0 = false ∧ (s.atTap m.tap).announceLate 1 = false ∧ s.flag fld_TIME_STATUS_CLOCK_FAULT = false ∧ s.flag
      fld_TIME_STATUS_STEP_ARMED = false ∧ s.time.episode = false ∧ s.offsetRefused (s.syncOffset eth (s.tapTime m.tap) m.origin m.correction) = true
      ∧ ((s.servo = servoStepped ∨ s.servo = servoLocked))) ∧
        (∃ (eth : Fin 2) (m : SyncMessage) (s : State), s.syncUsable eth m.domain m.grandmaster = true ∧ m.twoStep = false ∧ (s.atTap
      m.tap).announceLate 0 = false ∧ (s.atTap m.tap).announceLate 1 = false ∧ s.flag fld_TIME_STATUS_CLOCK_FAULT = false ∧ s.flag
      fld_TIME_STATUS_STEP_ARMED = false ∧ s.time.episode = false ∧ s.servo = servoStepped ∧ s.offsetRefused (s.syncOffset eth (s.tapTime m.tap)
      m.origin m.correction) = false ∧ absRat (s.syncOffset eth (s.tapTime m.tap) m.origin m.correction) ≤ (s.fld fld_TIME_LIMITS_LOCK_NS : Rat) ∧
      s.lockCount ≤ s.time.inLock + 1) ∧
        (∃ (offset : Rat) (k : Int) (s : State), s.time.stepDue = some offset ∧ s.flag fld_TIME_STATUS_CLOCK_FAULT = false ∧ offset * ((2 ^ 48 : Nat)
      : Rat) = (k : Rat) ∧ k ≤ s.time.now + s.advance) ∧
        (∃ (s : State), ((s.servo = servoStepped ∨ s.servo = servoLocked))) ∧
        (∃ (s : State), s.flag fld_SYS_LOCK_LOCKED = true ∧ s.servo = servoUnsynced ∧ s.time.seenSync = false ∧ s.fld fld_TIME_SERVO_CFG_FREE_RUN_S ≠
      0) ∧
        (∃ (s : State), s.fld fld_TIME_SERVO_CFG_FREE_RUN_S = 0) :=
    ⟨⟨0, sync0 0, (timed 0).setFlag fld_TIME_STATUS_STEP_ARMED true, by decide +kernel⟩,
      ⟨0, { sync0 0 with twoStep := true }, (timed 0).setFlag fld_TIME_STATUS_STEP_ARMED true, by decide +kernel⟩,
      ⟨0, { sync0 0 with twoStep := true }, ⟨0, 0, 7, 5, 6, 0⟩,
     { (timed 0).setFlag fld_TIME_STATUS_STEP_ARMED true with time := { (timed 0).time with waiting := [(0, some { sync0 0 with twoStep := true })] } },
     by decide +kernel⟩,
      ⟨0, sync0 (10000 * 65536), timed servoLocked, by decide +kernel⟩,
      ⟨0, sync0 (100 * 65536),
     { (timed servoStepped).setFld fld_TIME_SERVO_CFG_LOCK_COUNT 3 with time := { (timed servoStepped).time with inLock := 2 } }, by decide +kernel⟩,
      ⟨5, 5 * 2 ^ 48, { up with time := { up.time with now := 7 * 2 ^ 48, stepDue := some 5 } }.setFlag fld_CLA_STATUS_RUNNING true,
     by decide +kernel⟩,
      ⟨timed servoLocked, by decide +kernel⟩,
      ⟨up.setFld fld_TIME_SERVO_CFG_FREE_RUN_S 4, by decide +kernel⟩,
      ⟨up.setFld fld_TIME_SERVO_CFG_FREE_RUN_S 0, by decide +kernel⟩⟩

theorem witness_ServoFollowsItsRules_2 :
        (∃ (eth : Fin 2) (a : AnnounceMessage) (s : State), s.swatchRuns 4 = true ∧ s.flag (fld_ETH_STATUS_LINK eth) = true ∧ s.flag
      (fld_ETH_STATUS_AS_CAPABLE eth) = true ∧ a.domain = s.fld fld_TIME_CTRL_DOMAIN ∧ a.stepsRemoved < 255 ∧ a.priority1 ≠ 255 ∧ Store.get none
      s.time.announce (otherPort eth) = none ∧ s.announceLate eth = false ∧ ((s.pair reg_TIME_GM_ID_LO = 0 ∨ s.pair reg_TIME_GM_ID_LO = octetSwap
      a.grandmaster))) ∧
        (∃ (eth : Fin 2) (a : AnnounceMessage) (s : State), s.swatchRuns 4 = true ∧ s.flag (fld_ETH_STATUS_LINK eth) = true ∧ s.flag
      (fld_ETH_STATUS_AS_CAPABLE eth) = true ∧ a.domain = s.fld fld_TIME_CTRL_DOMAIN ∧ a.stepsRemoved < 255 ∧ a.priority1 = 255 ∧ Store.get none
      s.time.announce (otherPort eth) = none) ∧
        (∃ (data : Word) (d : Word) (s : State), s.writeTaken reg_TIME_CTRL data = some d ∧ d.getLsbD 0 = true) ∧
        (∃ (data : Word) (d : Word) (s : State), s.writeTaken reg_TIME_RATE data = some d ∧ s.fld fld_TIME_CTRL_SERVO_MODE = 1 ∧ s.time.episode =
      false ∧ s.servo ≠ servoHoldover ∧ s.time.seenSync = false ∧ s.time.gmRate = 0 ∧ -65536000 ≤ signed 32 d.toNat ∧ signed 32 d.toNat ≤ 65536000 ∧
      (signed 32 d.toNat).natAbs ≤ s.fld fld_TIME_SERVO_CFG_SLEW_MAX_PPM * 65536) ∧
        (∃ (s : State), ((s.fld fld_TIME_CTRL_SERVO_MODE ≠ 1 ∨ s.time.episode = true ∨ s.servo = servoHoldover))) ∧
        (∃ (eth : Fin 2) (a : AnnounceMessage) (s : State), s.swatchRuns 4 = true ∧ s.flag (fld_ETH_STATUS_LINK eth) = true ∧ s.flag
      (fld_ETH_STATUS_AS_CAPABLE eth) = true ∧ a.domain = s.fld fld_TIME_CTRL_DOMAIN ∧ a.stepsRemoved < 255 ∧ a.priority1 ≠ 255 ∧ Store.get none
      s.time.announce (otherPort eth) = none ∧ s.announceLate eth = false ∧ s.pair reg_TIME_GM_ID_LO ≠ 0 ∧ s.pair reg_TIME_GM_ID_LO ≠ octetSwap
      a.grandmaster) ∧
        (∃ (eth : Fin 2) (m : SyncMessage) (s : State), s.syncUsable eth m.domain m.grandmaster = true ∧ m.twoStep = false ∧ (s.atTap
      m.tap).announceLate 0 = false ∧ (s.atTap m.tap).announceLate 1 = false ∧ s.flag fld_TIME_STATUS_CLOCK_FAULT = true) ∧
        (∃ (eth : Fin 2) (m : SyncMessage) (s : State), s.syncUsable eth m.domain m.grandmaster = true ∧ m.twoStep = false ∧ (s.atTap
      m.tap).announceLate 0 = false ∧ (s.atTap m.tap).announceLate 1 = false ∧ s.flag fld_TIME_STATUS_CLOCK_FAULT = false ∧ s.flag
      fld_TIME_STATUS_STEP_ARMED = false ∧ s.time.episode = true ∧ s.offsetRefused (s.syncOffset eth (s.tapTime m.tap) m.origin m.correction) = true)
      ∧
        (∃ (eth : Fin 2) (m : SyncMessage) (s : State), s.syncUsable eth m.domain m.grandmaster = true ∧ m.twoStep = false ∧ (s.atTap
      m.tap).announceLate 0 = false ∧ (s.atTap m.tap).announceLate 1 = false ∧ s.flag fld_TIME_STATUS_CLOCK_FAULT = false ∧ s.flag
      fld_TIME_STATUS_STEP_ARMED = false ∧ ((s.time.episode = true ∨ s.servo = servoHoldover)) ∧ s.offsetRefused (s.syncOffset eth (s.tapTime m.tap)
      m.origin m.correction) = false) :=
    ⟨⟨1, ⟨0, 1, 2, 3, 4, 5, 0x0102030405060708, 254, 1, 0⟩, ethUp.setFlag (fld_ETH_STATUS_AS_CAPABLE 1) true, by decide +kernel⟩,
      ⟨1, ⟨0, 255, 2, 3, 4, 5, 0x0102030405060708, 1, 1, 0⟩, (ethUp.setFlag (fld_ETH_STATUS_AS_CAPABLE 1) true).setFlag fld_TIME_STATUS_SLAVE_VALID
     true, by decide +kernel⟩,
      ⟨1, 1, granting reg_TIME_CTRL up, by decide +kernel⟩,
      ⟨0xFFFFFFF0, 0xFFFFFFF0, granting reg_TIME_RATE ((up.setFld fld_TIME_CTRL_SERVO_MODE 1).setFld fld_TIME_SERVO_CFG_SLEW_MAX_PPM 100),
     by decide +kernel⟩,
      ⟨granting reg_TIME_RATE up, by decide +kernel⟩,
      ⟨1, ⟨0, 1, 2, 3, 4, 5, 0x0102030405060708, 254, 1, 0⟩, ((ethUp.setFlag (fld_ETH_STATUS_AS_CAPABLE 1) true).setPair reg_TIME_GM_ID_LO
     0x0708060504030201).setFld fld_TIME_COUNTS_GM_CHANGES 3, by decide +kernel⟩,
      ⟨0, sync0 0, (timed servoLocked).setFlag fld_TIME_STATUS_CLOCK_FAULT true, by decide +kernel⟩,
      ⟨0, sync0 (10000 * 65536), { timed servoHoldover with time := { (timed servoHoldover).time with episode := true, recover := 2 } },
     by decide +kernel⟩,
      ⟨0, sync0 (100 * 65536),
     { (timed servoHoldover).setFld fld_TIME_SERVO_CFG_RECOVER_COUNT 3 with time := { (timed servoHoldover).time with episode := true, recover := 2 } },
     by decide +kernel⟩⟩

theorem witness_ServoFollowsItsRules_3 :
        (∃ (eth : Fin 2) (m : SyncMessage) (s : State), s.syncUsable eth m.domain m.grandmaster = true ∧ m.twoStep = false ∧ (s.atTap
      m.tap).announceLate 0 = false ∧ (s.atTap m.tap).announceLate 1 = false ∧ s.flag fld_TIME_STATUS_CLOCK_FAULT = false ∧ s.flag
      fld_TIME_STATUS_STEP_ARMED = false ∧ s.time.episode = false ∧ s.servo = servoLocked ∧ s.offsetRefused (s.syncOffset eth (s.tapTime m.tap)
      m.origin m.correction) = false ∧ (s.fld fld_TIME_LIMITS_LOCK_NS : Rat) < absRat (s.syncOffset eth (s.tapTime m.tap) m.origin m.correction)) ∧
        (∃ (eth : Fin 2) (m : SyncMessage) (s : State), (s.atTap m.tap).announceLate 0 = false ∧ (s.atTap m.tap).announceLate 1 = false ∧ (s.atTap
      m.tap).syncUsable eth m.domain m.grandmaster = false) ∧
        (∃ (s : State), ((s.time.stepDue = none ∨ s.flag fld_TIME_STATUS_CLOCK_FAULT = true))) ∧
        (∃ (offset : Rat) (s : State), s.time.stepDue = some offset ∧ s.flag fld_TIME_STATUS_CLOCK_FAULT = false ∧ offset * ((2 ^ 48 : Nat) : Rat) ≤
      ((s.time.now + s.advance : Nat) : Rat)) ∧
        (∃ (eth : Fin 2) (a : AnnounceMessage) (b : HeldAnnounce) (s : State), s.swatchRuns 4 = true ∧ s.flag (fld_ETH_STATUS_LINK eth) = true ∧
      s.flag (fld_ETH_STATUS_AS_CAPABLE eth) = true ∧ a.domain = s.fld fld_TIME_CTRL_DOMAIN ∧ a.stepsRemoved < 255 ∧ a.priority1 ≠ 255 ∧
      b.msg.priority1 ≠ 255 ∧ Store.get none s.time.announce (otherPort eth) = some b ∧ s.announceLate 0 = false ∧ s.announceLate 1 = false) ∧
        (∃ (eth : Fin 2) (a : AnnounceMessage) (s : State), s.announceLate 0 = false ∧ s.announceLate 1 = false ∧ ((s.swatchRuns 4 = false ∨ s.flag
      (fld_ETH_STATUS_LINK eth) = false ∨ s.flag (fld_ETH_STATUS_AS_CAPABLE eth) = false ∨ a.domain ≠ s.fld fld_TIME_CTRL_DOMAIN ∨ 255 ≤
      a.stepsRemoved))) ∧
        (∃ (data : Word) (d : Word) (mid : Rat) (slew : Rat) (s : State), s.writeTaken reg_TIME_RATE data = some d ∧ s.fld fld_TIME_CTRL_SERVO_MODE =
      1 ∧ s.time.episode = false ∧ s.servo ≠ servoHoldover ∧ mid = combinedRate s.time.gmRate (if s.time.seenSync then s.neighbourRate (s.fld
      fld_TIME_STATUS_SLAVE_PORT) else 0) * 1000000 ∧ slew = s.fld fld_TIME_SERVO_CFG_SLEW_MAX_PPM) ∧
        (∃ (data : Word) (s : State), s.writeTaken reg_TIME_RATE data = none) ∧
        (∃ (data : Word) (s : State), ((∀ d, s.writeTaken reg_TIME_CTRL data = some d → d.getLsbD 0 = false))) :=
    ⟨⟨0, sync0 (4000 * 65536),
    { (timed servoLocked).setFld fld_TIME_SERVO_CFG_LOCK_COUNT 3 with time := { (timed servoLocked).time with outLock := 2 } }, by decide +kernel⟩,
      ⟨1, sync0 0, timed servoLocked, by decide +kernel⟩,
      ⟨State.reset, by decide +kernel⟩,
      ⟨5, { up with time := { up.time with now := 5 * 2 ^ 48, stepDue := some 5 } }, by decide +kernel⟩,
      ⟨1, ⟨0, 1, 2, 3, 4, 5, 0x0102030405060708, 254, 1, 0⟩, ⟨⟨0, 1, 2, 3, 4, 6, 0x0102030405060709, 3, 1, 0⟩, 0⟩,
     { (ethUp.setFlag (fld_ETH_STATUS_AS_CAPABLE 1) true) with time := { ethUp.time with announce := [(0, some ⟨⟨0, 1, 2, 3, 4, 6, 0x0102030405060709, 3, 1, 0⟩, 0⟩)] } },
     by decide +kernel⟩,
      ⟨1, ⟨0, 1, 2, 3, 4, 5, 0x0102030405060708, 255, 1, 0⟩, ethUp.setFlag (fld_ETH_STATUS_AS_CAPABLE 1) true, by decide +kernel⟩,
      ⟨0xFFFFFFF0, 0xFFFFFFF0, 0, 100, granting reg_TIME_RATE ((up.setFld fld_TIME_CTRL_SERVO_MODE 1).setFld fld_TIME_SERVO_CFG_SLEW_MAX_PPM 100),
     by decide +kernel⟩,
      ⟨0, State.reset, by decide +kernel⟩,
      ⟨0, State.reset, forall_some (by decide +kernel)⟩⟩

theorem witness_EthernetPortsFollowTheirRules :
        (∃ (eth : Fin 2) (s : State), s.initiates = true ∧ s.portUp eth = true) ∧
        (∃ (eth : Fin 2) (delay : Nat) (s : State), s.initiates = true ∧ s.portUp eth = true ∧ delay ≤ 800 * 2 ^ 16 ∧ 1 ≤ (s.mac eth).pdGood) ∧
        (∃ (eth : Fin 2) (s : State), s.initiates = true ∧ s.portUp eth = true ∧ 2 ≤ (s.mac eth).pdBad) ∧
        (∃ (eth : Fin 2) (s : State), s.portUp eth = true) ∧
        (∃ (eth : Fin 2) (f : List Byte) (c : Nat) (s : State), s.portUp eth = true ∧ etherType f ≠ 0x8808 ∧ f.length ≤ 1518 ∧ s.filterFor eth f =
      some c) ∧
        (∃ (eth : Fin 2) (f : List Byte) (s : State), s.portUp eth = true ∧ etherType f ≠ 0x8808 ∧ f.length ≤ 1518 ∧ s.filterFor eth f = none ∧ leNat
      (slice f 0 6) ≠ s.pair (reg_ETH_ADDR_LO eth) % 2 ^ 48 ∧ isPeerDelay f = false ∧ s.flag (fld_ETH_CTRL_FWD_ENABLE 0) = true ∧ s.flag
      (fld_ETH_CTRL_FWD_ENABLE 1) = true) ∧
        (∃ (eth : Fin 2) (tap : Tap) (b : BridgeFrame) (rest : List BridgeFrame) (s : State), nextEgress (s.mac eth).egress = some (b, rest) ∧
      s.portUp eth = true ∧ s.mayForward eth (s.egressNs eth (s.tapTime tap)) b.frame.length = true) ∧
        (∃ (l : List BridgeFrame) (rest : List BridgeFrame) (b : BridgeFrame), nextEgress l = some (b, rest)) ∧
        (∃ (eth : Fin 2) (sp : Fin 5) (s : State), s.swatchRuns 4 = true ∧ s.flag (fld_ETH_STATUS_IN_RESET eth) = false ∧ s.flag (fld_ETH_CTRL_ENABLE
      eth) = true ∧ sp ≠ 0) :=
    ⟨⟨1, ethUp.setMac 1 { EthPort.idle with pdSequence := 65535 }, by decide +kernel⟩,
      ⟨1, 800 * 2 ^ 16, ethUp.setMac 1 { EthPort.idle with pdGood := 1 }, by decide +kernel⟩,
      ⟨1, (ethUp.setMac 1 { EthPort.idle with pdBad := 2, pdGood := 3 }).setFlag (fld_ETH_STATUS_AS_CAPABLE 1) true, by decide +kernel⟩,
      ⟨1, ethUp, by decide +kernel⟩,
      ⟨1, rawFrame 0x08 [3, 0], 1, ethUp.loadObj 4 2 0 [1, 2, 3, 4, 5, 6, 0xF7, 0x08, 0, 0x80, 1, 0, 0, 0, 0, 0], by decide +kernel⟩,
      ⟨1, rawFrame 0x08 [0, 0], ethUp, by decide +kernel⟩,
      ⟨1, ⟨500, 0⟩, ⟨7, 5, 0, rawFrame 0x88 (List.replicate 60 0)⟩, [⟨3, 5, 0, rawFrame 0x08 []⟩], ethUp.setMac 1
     { EthPort.idle with egress := [⟨3, 5, 0, rawFrame 0x08 []⟩, ⟨7, 5, 0, rawFrame 0x88 (List.replicate 60 0)⟩] }, by decide +kernel⟩,
      ⟨[⟨3, 5, 0, rawFrame 0x08 []⟩, ⟨7, 5, 0, rawFrame 0x88 (List.replicate 60 0)⟩], [⟨3, 5, 0, rawFrame 0x08 []⟩], ⟨7, 5, 0, rawFrame 0x88
     (List.replicate 60 0)⟩, by decide +kernel⟩,
      ⟨1, 4, ethUp, by decide +kernel⟩⟩

theorem witness_EthernetPortsFollowTheirRules_2 :
        (∃ (eth : Fin 2) (s : State), s.swatchRuns 4 = true ∧ s.flag (fld_ETH_STATUS_IN_RESET eth) = false) ∧
        (∃ (eth : Fin 2) (data : Word) (d : Word) (s : State), s.writeTaken (reg_ETH_CTRL eth) data = some d ∧ d.getLsbD 0 = true) ∧
        (∃ (eth : Fin 2) (e : LaunchEntry) (rest : List LaunchEntry) (s : State), nextLaunch (s.mac eth).launch = some (e, rest)) ∧
        (∃ (eth : Fin 2) (e : LaunchEntry) (rest : List LaunchEntry) (s : State), (s.mac eth).inMac = e :: rest ∧ s.portUp eth = false) ∧
        (∃ (l : List LaunchEntry) (rest : List LaunchEntry) (e : LaunchEntry), nextLaunch l = some (e, rest)) ∧
        (∃ (eth : Fin 2) (tap : Tap) (e : LaunchEntry) (rest : List LaunchEntry) (s : State), (s.mac eth).inMac = e :: rest ∧ s.portUp eth = true ∧
      e.mayLeave (s.egressNs eth (s.tapTime tap)) = true) ∧
        (∃ (eth : Fin 2) (tap : Tap) (e : LaunchEntry) (rest : List LaunchEntry) (s : State), (s.mac eth).inMac = e :: rest ∧ s.portUp eth = true ∧
      e.freed = false ∧ s.egressNs eth (s.tapTime tap) + 4 / 5 < (e.launchTime : Rat) / 65536) ∧
        (∃ (eth : Fin 2) (tap : Tap) (b : BridgeFrame) (rest : List BridgeFrame) (e : LaunchEntry) (s : State), nextEgress (s.mac eth).egress = some
      (b, rest) ∧ e ∈ (s.mac eth).launch ∧ (e.launchTime : Rat) / 65536 - 1500 ≤ s.egressNs eth (s.tapTime tap) - 8 * s.byteNs eth ∧ (e.launchTime :
      Rat) / 65536 < s.egressNs eth (s.tapTime tap) + ((b.frame.length + 4 : Nat) : Rat) * s.byteNs eth) ∧
        (∃ (eth : Fin 2) (delay : Nat) (s : State), s.initiates = true ∧ s.portUp eth = true ∧ delay < 2 ^ 32 ∧ ((s.mac eth).pdGood = 0 ∨ 800 * 2 ^ 16
      < delay) ∧ ((800 * 2 ^ 16 < delay → (s.mac eth).pdBad + 1 < 3))) :=
    ⟨⟨1, ethUp, by decide +kernel⟩,
      ⟨1, 1, 1, (granting (reg_ETH_CTRL 1) ethUp).setMac 1
     { EthPort.idle with launch := [⟨[2], 50, false, false⟩], inMac := [⟨[1], 65536 * 40, false, false⟩] }, by decide +kernel⟩,
      ⟨1, ⟨[1], 40, false, false⟩, [⟨[2], 50, false, false⟩], ethUp.setMac 1
     { EthPort.idle with launch := [⟨[2], 50, false, false⟩, ⟨[1], 40, false, false⟩] }, by decide +kernel⟩,
      ⟨0, ⟨[1], 65536 * 40, false, false⟩, [⟨[2], 50, false, false⟩], ethUp.setMac 0
     { EthPort.idle with inMac := [⟨[1], 65536 * 40, false, false⟩, ⟨[2], 50, false, false⟩] }, by decide +kernel⟩,
      ⟨[⟨[2], 50, false, false⟩, ⟨[1], 40, false, false⟩], [⟨[2], 50, false, false⟩], ⟨[1], 40, false, false⟩, by decide +kernel⟩,
      ⟨1, ⟨50, 0⟩, ⟨[1], 65536 * 40, false, false⟩, [⟨[2], 50, false, false⟩], ethUp.setMac 1
     { EthPort.idle with inMac := [⟨[1], 65536 * 40, false, false⟩, ⟨[2], 50, false, false⟩] }, by decide +kernel⟩,
      ⟨1, ⟨0, 0⟩, ⟨[1], 65536 * 40, false, false⟩, [⟨[2], 50, false, false⟩], ethUp.setMac 1
     { EthPort.idle with inMac := [⟨[1], 65536 * 40, false, false⟩, ⟨[2], 50, false, false⟩] }, by decide +kernel⟩,
      ⟨1, ⟨1000, 0⟩, ⟨7, 5, 0, rawFrame 0x88 (List.replicate 60 0)⟩, [], ⟨[1], 65536 * 2040, false, false⟩, ethUp.setMac 1
     { EthPort.idle with egress := [⟨7, 5, 0, rawFrame 0x88 (List.replicate 60 0)⟩], launch := [⟨[1], 65536 * 2040, false, false⟩] },
     by decide +kernel⟩,
      ⟨1, 800 * 2 ^ 16 + 1, ethUp.setMac 1 { EthPort.idle with pdGood := 1, pdBad := 1 }, by decide +kernel⟩⟩

theorem witness_EthernetPortsFollowTheirRules_3 :
        (∃ (eth : Fin 2) (f : List Byte) (s : State), (s.portUp eth = false ∨ etherType f = 0x8808 ∨ 1518 < f.length ∨ (s.filterFor eth f = none ∧
      (leNat (slice f 0 6) = s.pair (reg_ETH_ADDR_LO eth) % 2 ^ 48 ∨ isPeerDelay f = true ∨ s.flag (fld_ETH_CTRL_FWD_ENABLE 0) = false ∨ s.flag
      (fld_ETH_CTRL_FWD_ENABLE 1) = false)))) ∧
        (∃ (eth : Fin 2) (sp : Fin 5) (s : State), (s.swatchRuns 4 = false ∨ s.flag (fld_ETH_STATUS_IN_RESET eth) = true ∨ (sp ≠ 0 ∧ s.flag
      (fld_ETH_CTRL_ENABLE eth) = false))) ∧
        (∃ (eth : Fin 2) (s : State), (s.initiates = false ∨ s.portUp eth = false)) ∧
        (∃ (eth : Fin 2) (s : State), (64 ≤ (s.mac eth).launch.length ∨ s.portUp eth = false)) :=
    ⟨⟨0, [], State.reset, by decide +kernel⟩,
      ⟨1, 3, up.setFlag (fld_ETH_CTRL_ENABLE 1) false, by decide +kernel⟩,
      ⟨0, State.reset, by decide +kernel⟩,
      ⟨0, State.reset, by decide +kernel⟩⟩

theorem witness_TimersDriveAndCapture :
        (∃ (n : Fin 16) (data : Word) (m : Word) (s : State) (u : State), s.writeMask (reg_TOUT_CTRL n) data = some m ∧ u = (s.unstageTout
      n).applyWrite (reg_TOUT_CTRL n) m data ∧ u.toutBad n = true) ∧
        (∃ (n : Fin 16) (data : Word) (m : Word) (s : State) (u : State), s.writeMask (reg_TOUT_CTRL n) data = some m ∧ u = (s.unstageTout
      n).applyWrite (reg_TOUT_CTRL n) m data ∧ u.toutBad n = false ∧ u.flag (fld_TOUT_CTRL_ENABLE n) = true ∧ u.flag (fld_TOUT_CTRL_PERIODIC n) = true
      ∧ u.stamp ≤ u.toutStart n ∧ (s.tout n).level = false) ∧
        (∃ (n : Fin 16) (data : Word) (s : State), s.writeMask (reg_TOUT_CTRL n) data = none) ∧
        (∃ (n : Fin 16) (w : Stamp) (s : State), (s.tout n).next = some (w, true)) ∧
        (∃ (n : Fin 16) (w : Stamp) (s : State), (s.tout n).next = some (w, false) ∧ s.flag (fld_TOUT_CTRL_ENABLE n) = true ∧ s.flag
      (fld_TOUT_CTRL_PERIODIC n) = true) ∧
        (∃ (n : Fin 16) (w : Stamp) (s : State), (s.tout n).next = some (w, false) ∧ s.flag (fld_TOUT_CTRL_PERIODIC n) = false ∧ (s.tout n).pulse ≠ 0)
      ∧
        (∃ (n : Fin 4) (rising : Bool) (w : Nat) (s : State), s.time.running = true ∧ tinFilter (s.fld (fld_TIN_CTRL_FILTER n)) ≤ w ∧ tinSelects
      (s.fld (fld_TIN_CTRL_EDGE n)) rising = true ∧ (s.tin n).queue.length < 16) ∧
        (∃ (n : Fin 4) (rising : Bool) (w : Nat) (s : State), s.time.running = true ∧ tinFilter (s.fld (fld_TIN_CTRL_FILTER n)) ≤ w ∧ tinSelects
      (s.fld (fld_TIN_CTRL_EDGE n)) rising = true ∧ 16 ≤ (s.tin n).queue.length) ∧
        (∃ (n : Fin 4) (data : Word) (d : Word) (c : Capture) (r : List Capture) (s : State), s.writeTaken (reg_TIN_POP n) data = some d ∧ d.getLsbD 0
      = true ∧ (s.tin n).queue = c :: r) :=
    ⟨⟨15, 1, BitVec.allOnes 32, (granting (reg_TOUT_CTRL 15) up).stageTout (reg_TOUT_PERIOD_NS 15) (BitVec.allOnes 32) 7, (((granting (reg_TOUT_CTRL
    15) up).stageTout (reg_TOUT_PERIOD_NS 15) (BitVec.allOnes 32) 7).unstageTout (15)).applyWrite (reg_TOUT_CTRL (15)) (BitVec.allOnes 32) (1),
    by decide +kernel⟩,
      ⟨15, 3, BitVec.allOnes 32, (((granting (reg_TOUT_CTRL 15) up).stageTout (reg_TOUT_PERIOD_NS 15) (BitVec.allOnes 32) 70000).stageTout
     (reg_TOUT_WIDTH 15) (BitVec.allOnes 32) 500).stageTout (reg_TOUT_START_SEC_LO 15) (BitVec.allOnes 32) 1, (((((granting (reg_TOUT_CTRL 15)
     up).stageTout (reg_TOUT_PERIOD_NS 15) (BitVec.allOnes 32) 70000).stageTout (reg_TOUT_WIDTH 15) (BitVec.allOnes 32) 500).stageTout
     (reg_TOUT_START_SEC_LO 15) (BitVec.allOnes 32) 1).unstageTout (15)).applyWrite (reg_TOUT_CTRL (15)) (BitVec.allOnes 32) (3), by decide +kernel⟩,
      ⟨15, 3, up, by decide +kernel⟩,
      ⟨15, 99, (up.setTout 15 ⟨some (99, true), 3, false⟩).setReg (reg_TOUT_WIDTH 15) 500, by decide +kernel⟩,
      ⟨15, 99, ((up.setTout 15 ⟨some (99, false), 3, true⟩).setReg (reg_TOUT_WIDTH 15) 500).setReg (reg_TOUT_CTRL 15) 3, by decide +kernel⟩,
      ⟨15, 99, ((up.setTout 15 ⟨some (99, false), 1, true⟩).setReg (reg_TOUT_WIDTH 15) 500).setReg (reg_TOUT_CTRL 15) 1, by decide +kernel⟩,
      ⟨3, true, 10000000, up.setFld (fld_TIN_CTRL_EDGE 3) 3, by decide +kernel⟩,
      ⟨3, false, 10000000, (up.setFld (fld_TIN_CTRL_EDGE 3) 3).setTin 3 ⟨List.replicate 16 ⟨5, true⟩, 9⟩, by decide +kernel⟩,
      ⟨3, 1, 1, ⟨5, true⟩, List.replicate 15 ⟨5, true⟩, (granting (reg_TIN_POP 3) up).setTin 3 ⟨List.replicate 16 ⟨5, true⟩, 9⟩, by decide +kernel⟩⟩

theorem witness_TimersDriveAndCapture_2 :
        (∃ (n : Fin 16) (data : Word) (m : Word) (s : State) (u : State), s.writeMask (reg_TOUT_CTRL n) data = some m ∧ u = (s.unstageTout
      n).applyWrite (reg_TOUT_CTRL n) m data ∧ u.toutBad n = false ∧ u.flag (fld_TOUT_CTRL_ENABLE n) = true ∧ u.flag (fld_TOUT_CTRL_PERIODIC n) = true
      ∧ u.toutStart n < u.stamp ∧ (s.tout n).level = false) ∧
        (∃ (n : Fin 16) (data : Word) (m : Word) (s : State) (u : State), s.writeMask (reg_TOUT_CTRL n) data = some m ∧ u = (s.unstageTout
      n).applyWrite (reg_TOUT_CTRL n) m data ∧ u.toutBad n = false ∧ u.flag (fld_TOUT_CTRL_ENABLE n) = true ∧ u.flag (fld_TOUT_CTRL_PERIODIC n) =
      false ∧ (s.tout n).level = false) ∧
        (∃ (n : Fin 16) (data : Word) (m : Word) (s : State) (u : State), s.writeMask (reg_TOUT_CTRL n) data = some m ∧ u = (s.unstageTout
      n).applyWrite (reg_TOUT_CTRL n) m data ∧ u.toutBad n = false ∧ u.flag (fld_TOUT_CTRL_ENABLE n) = false) ∧
        (∃ (n : Fin 16) (w : Stamp) (s : State), (s.tout n).next = some (w, false) ∧ s.flag (fld_TOUT_CTRL_ENABLE n) = false) ∧
        (∃ (n : Fin 16) (s : State), (s.tout n).next = none) ∧
        (∃ (n : Fin 4) (rising : Bool) (w : Nat) (s : State), ((s.time.running = false ∨ w < tinFilter (s.fld (fld_TIN_CTRL_FILTER n)) ∨ tinSelects
      (s.fld (fld_TIN_CTRL_EDGE n)) rising = false))) ∧
        (∃ (n : Fin 4) (data : Word) (s : State), ((∀ d, s.writeTaken (reg_TIN_POP n) data = some d → d.getLsbD 0 = false))) :=
    ⟨⟨15, 3, BitVec.allOnes 32,
    { (((granting (reg_TOUT_CTRL 15) up).stageTout (reg_TOUT_PERIOD_NS 15) (BitVec.allOnes 32) 70000).stageTout (reg_TOUT_WIDTH 15) (BitVec.allOnes 32) 500) with time := { up.time with now := 1000000 * 2 ^ 48 } },
    (({ (((granting (reg_TOUT_CTRL 15) up).stageTout (reg_TOUT_PERIOD_NS 15) (BitVec.allOnes 32) 70000).stageTout (reg_TOUT_WIDTH 15) (BitVec.allOnes 32) 500) with time := { up.time with now := 1000000 * 2 ^ 48 } }).unstageTout
    (15)).applyWrite (reg_TOUT_CTRL (15)) (BitVec.allOnes 32) (3), by decide +kernel⟩,
      ⟨15, 1, BitVec.allOnes 32,
     { ((granting (reg_TOUT_CTRL 15) up).stageTout (reg_TOUT_WIDTH 15) (BitVec.allOnes 32) 500) with time := { up.time with now := 1000000 * 2 ^ 48 } },
     (({ ((granting (reg_TOUT_CTRL 15) up).stageTout (reg_TOUT_WIDTH 15) (BitVec.allOnes 32) 500) with time := { up.time with now := 1000000 * 2 ^ 48 } }).unstageTout
     (15)).applyWrite (reg_TOUT_CTRL (15)) (BitVec.allOnes 32) (1), by decide +kernel⟩,
      ⟨15, 0, BitVec.allOnes 32, ((granting (reg_TOUT_CTRL 15) up).stageTout (reg_TOUT_WIDTH 15) (BitVec.allOnes 32) 500).setTout 15 ⟨some (99,
     false), 3, true⟩, ((((granting (reg_TOUT_CTRL 15) up).stageTout (reg_TOUT_WIDTH 15) (BitVec.allOnes 32) 500).setTout 15 ⟨some (99, false), 3,
     true⟩).unstageTout (15)).applyWrite (reg_TOUT_CTRL (15)) (BitVec.allOnes 32) (0), by decide +kernel⟩,
      ⟨15, 99, (up.setTout 15 ⟨some (99, false), 3, true⟩).setReg (reg_TOUT_WIDTH 15) 500, by decide +kernel⟩,
      ⟨0, State.reset, by decide +kernel⟩,
      ⟨0, false, 0, State.reset, by decide +kernel⟩,
      ⟨0, 0, State.reset, forall_some (by decide +kernel)⟩⟩

theorem witness_LoopKeepsItsGrid :
        (∃ (b : Stamp) (s : State), s.loop.startAt = some b ∧ s.alive = true ∧ s.phase = phaseRunning ∧ s.loop.stopped = none ∧ (s.placeBoundary
      b).pathClear = true ∧ s.power.napLoopStopped = false) ∧
        (∃ (b : Stamp) (s : State), s.loop.startAt = some b ∧ s.alive = true ∧ s.phase = phaseRunning ∧ s.loop.stopped = some .step) ∧
        (∃ (b : Stamp) (s : State), s.loop.startAt = some b ∧ s.alive = true ∧ s.phase ≠ phaseRunning) ∧
        (∃ (s : State), s.boundaryDue = true ∧ s.loop.stopped = none ∧ s.phase ≠ phaseBindOff ∧ s.napPending = false) ∧
        (∃ (s : State), s.boundaryDue = true ∧ s.loop.stopped = some .reset ∧ (∃ n ∈ [2, 3, 4, 5, 12, 13], s.inReset n = true) ∧ s.phase ≠
      phaseBindOff ∧ s.napPending = false) ∧
        (∃ (s : State), s.boundaryDue = false) ∧
        (∃ (s : State), s.alive = true ∧ s.loopRunning = true ∧ s.loop.cutoffDone = false ∧ s.workFree = true) ∧
        (∃ (s : State), s.alive = true ∧ s.napPending = true ∧ s.loop.grid = false ∧ ((∀ w, s.clsA.work = some w → w.built = true))) ∧
        (∃ (s : State), s.boundaryDue = true ∧ s.napPending = true ∧ s.phase ≠ phaseBindOff ∧ ((∀ w, s.clsA.work = some w → w.built = true))) :=
    ⟨⟨1000000000 * 65536, { up with loop := { up.loop with startAt := some (1000000000 * 65536) } }, by decide +kernel⟩,
      ⟨1000000000 * 65536, { up with loop := { up.loop with startAt := some (1000000000 * 65536), stopped := some .step } }, by decide +kernel⟩,
      ⟨1000000000 * 65536, { up.setFld fld_SEC_STATE_PHASE phaseBindOff with loop := { up.loop with startAt := some (1000000000 * 65536) } },
     by decide +kernel⟩,
      ⟨{ running with loop := { running.loop with cutoffDone := true } }, by decide +kernel⟩,
   ⟨{ running.setFlag fld_CLA_STATUS_RUNNING false with loop := { running.loop with stopped := some .reset }, sw := { running.sw with inReset := 0x1000 } },
     by decide +kernel⟩,
      ⟨running, by decide +kernel⟩,
      ⟨running, by decide +kernel⟩,
      ⟨{ up with power := { up.power with transition := some (.entry .nap) } }, by decide +kernel, by decide +kernel, by decide +kernel, forall_some
     (by decide +kernel)⟩,
      ⟨{ running with loop := { running.loop with cutoffDone := true }, power := { up.power with transition := some (.entry .nap) } },
     by decide +kernel, by decide +kernel, by decide +kernel, forall_some (by decide +kernel)⟩⟩

theorem witness_LoopKeepsItsGrid_2 :
        (∃ (s : State), s.boundaryDue = true ∧ s.loop.stopped = some .reset ∧ (s.placeBoundary (s.loop.boundary + usStamp s.loop.period)).pathClear =
      true ∧ s.phase ≠ phaseBindOff ∧ s.napPending = false ∧ s.power.napLoopStopped = false ∧ s.clsA.slot = some (s.fld fld_SOLV_A_CFG_SLOT)) ∧
        (∃ (s : State), ((s.alive = false ∨ s.loopRunning = false ∨ s.loop.cutoffDone = true ∨ s.workFree = false))) ∧
        (∃ (s : State), ((s.alive = false ∨ s.napPending = false))) ∧
        (∃ (s : State), s.loop.startAt = none) :=
  ⟨⟨{ running.setFlag fld_CLA_STATUS_RUNNING false with loop := { running.loop with stopped := some .reset }, clsA := { running.clsA with slot := some (running.fld fld_SOLV_A_CFG_SLOT) } },
    by decide +kernel⟩,
      ⟨State.reset, by decide +kernel⟩,
      ⟨State.reset, by decide +kernel⟩,
      ⟨State.reset, by decide +kernel⟩⟩

theorem witness_PeriodWorkReachesItsFrames :
        (∃ (w : PeriodWork) (s : State), s.clsA.work = some w ∧ s.swatchRuns 12 = true ∧ w.propagated = false) ∧
        (∃ (w : PeriodWork) (s : State), s.clsA.work = some w ∧ s.swatchRuns 13 = true ∧ w.propagated = true ∧ w.published = false) ∧
        (∃ (w : PeriodWork) (s : State), s.clsA.work = some w ∧ s.swatchRuns 13 = true ∧ w.built = false) ∧
        (∃ (w : PeriodWork) (s : State), s.clsA.work = some w ∧ s.swatchRuns 3 = true ∧ w.built = false ∧ w.ready = true) ∧
        (∃ (w : PeriodWork) (s : State), s.clsA.work = some w ∧ w.built = true) ∧
        (∃ (s : State), s.clsA.work = none) ∧
        (∃ (w : PeriodWork) (s : State), s.clsA.work = some w ∧ w.propagated = true) ∧
        (∃ (w : PeriodWork) (s : State), s.clsA.work = some w ∧ (w.propagated = false ∨ w.published = true)) ∧
        (∃ (w : PeriodWork) (s : State), s.clsA.work = some w ∧ w.ready = false) :=
    ⟨⟨work0, (working work0).setFlag (fld_IMU_STATUS_ENABLED 3) true, by decide +kernel⟩,
      ⟨{ work0 with propagated := true }, working { work0 with propagated := true }, by decide +kernel⟩,
      ⟨{ work0 with propagated := true, published := true }, working { work0 with propagated := true, published := true }, by decide +kernel⟩,
      ⟨{ work0 with propagated := true, published := true, ready := true, words := List.replicate 64 0 }, (working
     { work0 with propagated := true, published := true, ready := true, words := List.replicate 64 0 }).loadObj 13 0x30 0 oneFrame,
     by decide +kernel⟩,
      ⟨{ work0 with built := true }, working { work0 with built := true }, by decide +kernel⟩,
      ⟨State.reset, by decide +kernel⟩,
      ⟨{ work0 with propagated := true }, working { work0 with propagated := true }, by decide +kernel⟩,
      ⟨work0, working work0, by decide +kernel⟩,
      ⟨work0, working work0, by decide +kernel⟩⟩

theorem witness_MarkerOperationsFollowTheTable :
        (∃ (m : Fin 4096) (a : BitVec 16) (s : State), s.swatchRuns 8 = true ∧ s.producer m = a.toNat ∧ a ≠ 0 ∧ (s.marker m).claimable = true) ∧
        (∃ (m : Fin 4096) (a : BitVec 16) (n : Nat) (s : State), s.swatchRuns 8 = true ∧ s.producer m = a.toNat ∧ a ≠ 0 ∧ (s.marker m).state =
      .writing ∧ (s.marker m).progress ≤ n) ∧
        (∃ (m : Fin 4096) (a : BitVec 16) (s : State), s.swatchRuns 8 = true ∧ s.producer m = a.toNat ∧ a ≠ 0 ∧ (s.marker m).state = .writing) ∧
        (∃ (m : Fin 4096) (a : BitVec 16) (s : State), s.swatchRuns 8 = true ∧ s.producer m = a.toNat ∧ a ≠ 0 ∧ (s.marker m).state = .writing) ∧
        (∃ (m : Fin 4096) (a : BitVec 16) (i : Nat) (s : State), s.swatchRuns 8 = true ∧ s.slotOf m a.toNat = some i ∧ a.toNat / 4096 ≠ 2 ∧ (s.marker
      m).state = .published) ∧
        (∃ (m : Fin 4096) (a : BitVec 16) (i : Nat) (g : Nat) (s : State), s.swatchRuns 8 = true ∧ s.slotOf m a.toNat = some i ∧ a.toNat / 4096 ≠ 2 ∧
      g < (s.marker m).gen) ∧
        (∃ (m : Fin 4096) (a : BitVec 16) (i : Nat) (g : Nat) (s : State), s.swatchRuns 8 = true ∧ s.slotOf m a.toNat = some i ∧ (s.marker m).gen < g)
      ∧
        (∃ (m : Fin 4096) (a : BitVec 16) (i : Nat) (s : State), s.swatchRuns 8 = true ∧ s.slotOf m a.toNat = some i ∧ (s.marker m).readers.contains i
      = true) ∧
        (∃ (m : Fin 4096) (a : BitVec 16) (i : Nat) (s : State), s.swatchRuns 8 = true ∧ s.slotOf m a.toNat = some i ∧ (s.marker m).readers.contains i
      = true ∧ s.mayHold m i = true ∧ (s.marker m).holds.length < 3) :=
    ⟨⟨4095, 0x1001, marked { Marker.reset with state := .published, gen := 0xFFFFFFFF, progress := 9 }, by decide +kernel⟩,
      ⟨4095, 0x1001, 70000, marked { Marker.reset with state := .writing, gen := 3, progress := 9 }, by decide +kernel⟩,
      ⟨4095, 0x1001, marked { Marker.reset with state := .writing, gen := 3, progress := 9 }, by decide +kernel⟩,
      ⟨4095, 0x1001, marked { Marker.reset with state := .writing, gen := 3, progress := 9, readers := [1], waiting := [⟨0, 3, 65535⟩, ⟨0, 4, 0⟩] },
     by decide +kernel⟩,
      ⟨4095, 0x1006, 1, marked { Marker.reset with state := .published, gen := 3, progress := 9, readers := [0] }, by decide +kernel⟩,
      ⟨4095, 0x1006, 1, 2, marked { Marker.reset with state := .published, gen := 3, progress := 9, readers := [0] }, by decide +kernel⟩,
      ⟨4095, 0x1006, 1, 4, marked { Marker.reset with state := .published, gen := 3, progress := 9, readers := [0] }, by decide +kernel⟩,
      ⟨4095, 0x1006, 1, marked { Marker.reset with state := .published, gen := 3, progress := 9, readers := [0, 1] }, by decide +kernel⟩,
      ⟨4095, 0x1006, 1, marked { Marker.reset with state := .published, gen := 3, progress := 9, readers := [0, 1], holds := [1, 1] },
     by decide +kernel⟩⟩

theorem witness_MarkerOperationsFollowTheTable_2 :
        (∃ (m : Fin 4096) (a : BitVec 16) (i : Nat) (s : State), s.swatchRuns 8 = true ∧ s.slotOf m a.toNat = some i ∧ s.mayHold m i = true ∧
      (s.marker m).holds ≠ []) ∧
        (∃ (m : Fin 4096) (a : BitVec 16) (s : State), s.swatchRuns 8 = true ∧ s.producer m ≠ a.toNat) ∧
        (∃ (m : Fin 4096) (a : BitVec 16) (s : State), s.swatchRuns 8 = true ∧ s.slotOf m a.toNat = none) ∧
        (∃ (m : Fin 4096) (a : BitVec 16) (i : Nat) (n : Nat) (s : State), s.swatchRuns 8 = true ∧ s.slotOf m a.toNat = some i ∧ a.toNat / 4096 ≠ 2 ∧
      (s.marker m).state = .writing ∧ n ≤ (s.marker m).progress) ∧
        (∃ (m : Fin 4096) (a : BitVec 16) (i : Nat) (s : State), s.swatchRuns 8 = true ∧ s.slotOf m a.toNat = some i ∧ a.toNat / 4096 ≠ 2 ∧ (s.marker
      m).state = .idle) ∧
        (∃ (m : Fin 4096) (a : BitVec 16) (i : Nat) (n : Nat) (s : State), s.swatchRuns 8 = true ∧ s.slotOf m a.toNat = some i ∧ (s.marker m).state =
      .writing ∧ (s.marker m).progress < n) ∧
        (∃ (m : Fin 4096) (a : BitVec 16) (i : Nat) (s : State), s.swatchRuns 8 = true ∧ s.slotOf m a.toNat = some i ∧ a.toNat / 4096 = 2 ∧ (s.marker
      m).state = .published) ∧
        (∃ (m : Fin 4096) (a : BitVec 16) (i : Nat) (n : Nat) (p : Nat) (s : State), s.swatchRuns 8 = true ∧ s.producer m = a.toNat ∧ a ≠ 0 ∧
      (s.marker m).state = .writing ∧ (s.marker m).progress ≤ p ∧ n ≤ p ∧ p ≤ 65535 ∧ (s.marker m).waiting = [⟨i, (s.marker m).gen, n⟩] ∧ s.slotAgent
      m i / 4096 ≠ 2) ∧
        (∃ (m : Fin 4096) (a : BitVec 16) (s : State), s.swatchRuns 8 = true ∧ s.producer m = a.toNat ∧ a ≠ 0 ∧ (s.marker m).state = .writing ∧ (∀ i ∈
      (s.marker m).interested, s.slotAgent m i / 4096 ≠ 2)) :=
    ⟨⟨4095, 0x1006, 1, marked { Marker.reset with state := .published, gen := 3, progress := 9, readers := [0, 1], holds := [0, 1] },
    by decide +kernel⟩,
      ⟨4095, 0x1007, marked Marker.reset, by decide +kernel⟩,
      ⟨4095, 0x1007, marked Marker.reset, by decide +kernel⟩,
      ⟨4095, 0x1006, 1, 9, marked { Marker.reset with state := .writing, gen := 3, progress := 9, readers := [0] }, by decide +kernel⟩,
      ⟨4095, 0x1006, 1, marked Marker.reset, by decide +kernel⟩,
      ⟨4095, 0x1006, 1, 10, marked { Marker.reset with state := .writing, gen := 3, progress := 9, readers := [0] }, by decide +kernel⟩,
      ⟨4095, 0x2006, 1, (up.setObjBytes 8 1 (40 * 4095) [1, 0x10, 2, 0, 5, 0x10, 6, 0x20]).setMarker 4095
     { Marker.reset with state := .published, gen := 3, progress := 9 }, by decide +kernel⟩,
      ⟨4095, 0x1001, 1, 65535, 65535, marked { Marker.reset with state := .writing, gen := 3, progress := 9, waiting := [⟨1, 3, 65535⟩] },
     by decide +kernel⟩,
      ⟨4095, 0x1001, marked { Marker.reset with state := .writing, gen := 3, progress := 9, readers := [1], waiting := [⟨0, 3, 65535⟩] },
     by decide +kernel⟩⟩

theorem witness_MarkerOperationsFollowTheTable_3 :
        (∃ (m : Fin 4096) (a : BitVec 16) (c : Instr) (n : Nat) (s : State), s.swatchRuns 8 = true ∧ ((c = .claim m a ∧ (s.marker m).claimable = false
      ∨ c = .advance m a n ∧ ((s.marker m).state ≠ .writing ∨ n < (s.marker m).progress) ∨ c = .publish m a ∧ (s.marker m).state ≠ .writing ∨ c =
      .abandon m a ∧ (s.marker m).state ≠ .writing))) ∧
        (∃ (m : Fin 4096) (a : BitVec 16) (i : Nat) (c : Instr) (s : State), s.swatchRuns 8 = true ∧ s.slotOf m a.toNat = some i ∧ ((c = .release m a
      ∧ (s.marker m).readers.contains i = false ∨ c = .hold m a ∧ (s.mayHold m i = false ∨ (s.marker m).readers.contains i = false ∨ 3 ≤ (s.marker
      m).holds.length) ∨ c = .unhold m a ∧ (s.mayHold m i = false ∨ (s.marker m).holds = [])))) ∧
        (∃ (s : State), s.swatchRuns 8 = false) :=
    ⟨⟨4095, 0x1001, .advance 4095 0x1001 8, 8, marked { Marker.reset with state := .writing, gen := 3, progress := 9 }, by decide +kernel⟩,
      ⟨4095, 0x1006, 1, .hold 4095 0x1006, marked
     { Marker.reset with state := .published, gen := 3, progress := 9, readers := [1], holds := [1, 1, 1] }, by decide +kernel⟩,
      ⟨State.reset, by decide +kernel⟩⟩

theorem witness_CameraFramesFollowTheirPackets :
        (∃ (p : Fin 12) (vc : Fin 16) (n : Nat) (set : Nat) (s : State), s.portReceives p = true ∧ s.streamAt p vc = some n ∧ (s.stream n).frame =
      none ∧ s.clockedGraphs n = [] ∧ s.streamGraphs n = [] ∧ s.groupOfStream n = none ∧ s.setToClaim n = some set) ∧
        (∃ (p : Fin 12) (vc : Fin 16) (n : Nat) (s : State), s.portReceives p = true ∧ s.streamAt p vc = some n ∧ (s.stream n).frame = none ∧
      s.clockedGraphs n = [] ∧ s.streamGraphs n = [] ∧ s.groupOfStream n = none ∧ s.setToClaim n = none) ∧
        (∃ (p : Fin 12) (vc : Fin 16) (dt : Nat) (b : List Byte) (n : Nat) (f : RxFrame) (s : State), s.portReceives p = true ∧ s.streamAt p vc = some
      n ∧ ((s.commandClaims p vc = true → dt < 0x30)) ∧ dt = s.streamDt n ∧ (s.stream n).frame = some f ∧ b.length ≤ wireBytes dt (s.streamWidth n) ∧
      f.lines < s.streamHeight n ∧ (f.lines + 1) % 16 ≠ 0) ∧
        (∃ (p : Fin 12) (vc : Fin 16) (dt : Nat) (s : State), s.portReceives p = true ∧ s.streamAt p vc = none ∧ ((s.commandClaims p vc = true → dt <
      0x30 ∨ 0x37 < dt))) ∧
        (∃ (p : Fin 12) (vc : Fin 16) (n : Nat) (s : State), s.portReceives p = true ∧ s.streamAt p vc = some n ∧ (s.stream n).frame ≠ none ∧
      ((s.commandClaims p vc = true → s.streamDt n < 0x30 ∨ 0x37 < s.streamDt n))) ∧
        (∃ (p : Fin 12) (vc : Fin 16) (b : List Byte) (n : Nat) (f : RxFrame) (s : State), s.portReceives p = true ∧ s.streamAt p vc = some n ∧
      (s.stream n).frame = some f ∧ b.length ≤ 4032 - f.embedded) ∧
        (∃ (p : Fin 12) (vc : Fin 16) (n : Nat) (f : RxFrame) (s : State), s.portReceives p = true ∧ s.streamAt p vc = some n ∧ (s.stream n).frame =
      some f ∧ s.streamHeight n ≤ f.lines) ∧
        (∃ (p : Fin 12) (vc : Fin 16) (n : Nat) (f : RxFrame) (s : State), s.portReceives p = true ∧ s.streamAt p vc = some n ∧ (s.stream n).frame =
      some f ∧ f.lines < s.streamHeight n) ∧
        (∃ (p : Fin 12) (s : State), s.portReceives p = true) :=
    ⟨⟨11, 3, 5, 0, camera, by decide +kernel⟩,
      ⟨11, 3, 5, (camera.setMarker 100 { Marker.reset with state := .writing }).setMarker 101 { Marker.reset with state := .writing },
     by decide +kernel⟩,
      ⟨11, 3, 0x2A, [1, 2, 3], 5, ⟨0, 1, 7, 7, 13, 0⟩, filming 13, by decide +kernel⟩,
      ⟨11, 4, 0x2A, filming 13, by decide +kernel⟩,
      ⟨11, 3, 5, filming 13, by decide +kernel⟩,
      ⟨11, 3, [1, 2, 3], 5, ⟨0, 1, 7, 7, 13, 0⟩, filming 13, by decide +kernel⟩,
      ⟨11, 3, 5, ⟨0, 1, 7, 7, 20, 0⟩, filming 20, by decide +kernel⟩,
      ⟨11, 3, 5, ⟨0, 1, 7, 7, 19, 0⟩, filming 19, by decide +kernel⟩,
      ⟨11, filming 19, by decide +kernel⟩⟩

theorem witness_CameraFramesFollowTheirPackets_2 :
        (∃ (p : Fin 12) (data : Word) (d : Word) (s : State), s.writeTaken (reg_CSI_RX_CTRL p) data = some d ∧ d.getLsbD 0 = true) ∧
        (∃ (g : Fin 6) (i : PairInstant) (s : State), s.groupOn g = true ∧ (s.group g).instants.find? (fun i => !i.issued) = some i) ∧
        (∃ (g : Fin 6) (s : State), ((s.groupOn g = false ∨ (s.group g).instants.find? (fun i => !i.issued) = none))) ∧
        (∃ (p : Fin 12) (vc : Fin 16) (n : Nat) (h : HeaderVerdict) (s : State), s.portReceives p = true ∧ s.streamAt p vc = some n ∧ s.clockedGraphs
      n = [] ∧ s.streamGraphs n = [] ∧ s.groupOfStream n = none ∧ (s.stream n).frame ≠ none ∧ h ≠ .uncorrectable) ∧
        (∃ (p : Fin 12) (s : State), s.portReceives p = true) ∧
        (∃ (p : Fin 12) (vc : Fin 16) (s : State), s.portReceives p = true ∧ s.streamAt p vc = none) ∧
        (∃ (p : Fin 12) (s : State), s.portReceives p = false) ∧
        (∃ (p : Fin 12) (vc : Fin 16) (dt : Nat) (b : List Byte) (n : Nat) (f : RxFrame) (s : State), s.portReceives p = true ∧ s.streamAt p vc = some
      n ∧ ((s.commandClaims p vc = true → dt < 0x30)) ∧ dt = s.streamDt n ∧ (s.stream n).frame = some f ∧ b.length ≤ wireBytes dt (s.streamWidth n) ∧
      f.lines < s.streamHeight n ∧ (f.lines + 1) % 16 = 0 ∧ f.lines < 65535 ∧ s.producer (s.frameMarker n f.set) = ingestAgent n ∧ ingestAgent n ≠ 0 ∧
      (s.marker (s.frameMarker n f.set)).state = .writing ∧ (s.marker (s.frameMarker n f.set)).progress ≤ f.lines) ∧
        (∃ (p : Fin 12) (vc : Fin 16) (dt : Nat) (s : State), s.portReceives p = true ∧ s.commandClaims p vc = true ∧ 0x30 ≤ dt ∧ dt ≤ 0x37) :=
    ⟨⟨11, 1, 1, granting (reg_CSI_RX_CTRL 11) (filming 19), by decide +kernel⟩,
      ⟨5, ⟨4, 7, 8, [(5, 0, 1)], [], false⟩, ((((camera.setFlag (fld_PAIR_CFG_ENABLE 5) true).setFld (fld_PAIR_CFG_MEMBERS 5) 0x20).setFld
     (fld_PAIR_CFG_REF 5) 5).setFld (fld_STREAM_CFG_GROUP 5) 5).setGroup 5 ⟨[⟨4, 7, 8, [(5, 0, 1)], [], false⟩], [(4, 7)]⟩, by decide +kernel⟩,
      ⟨0, State.reset, by decide +kernel⟩,
      ⟨11, 3, 5, .corrected, filming 13, by decide +kernel⟩,
      ⟨11, filming 13, by decide +kernel⟩,
      ⟨11, 4, filming 13, by decide +kernel⟩,
      ⟨10, filming 13, by decide +kernel⟩,
      ⟨11, 3, 0x2A, [1, 2, 3], 5, ⟨0, 1, 7, 7, 15, 0⟩, filming 15, by decide +kernel⟩,
      ⟨11, 3, 0x37, (((filming 15).setFlag fld_HL_CFG_CMD_ENABLE true).setFld fld_HL_CFG_CMD_PORT 11).setFld fld_HL_CFG_CMD_VC 3 |> fun s =>
     { s with links := { s.links with cmdActive := true } }, by decide +kernel⟩⟩

theorem witness_CameraFramesFollowTheirPackets_3 :
        (∃ (p : Fin 12) (vc : Fin 16) (dt : Nat) (n : Nat) (s : State), s.portReceives p = true ∧ s.streamAt p vc = some n ∧ ((s.commandClaims p vc =
      true → dt < 0x30 ∨ 0x37 < dt)) ∧ dt ≠ s.streamDt n) ∧
        (∃ (p : Fin 12) (vc : Fin 16) (b : List Byte) (n : Nat) (f : RxFrame) (s : State), s.portReceives p = true ∧ s.streamAt p vc = some n ∧
      (s.stream n).frame = some f ∧ f.embedded ≤ 4032 ∧ 4032 - f.embedded < b.length) ∧
        (∃ (p : Fin 12) (vc : Fin 16) (s : State), s.portReceives p = true ∧ s.streamAt p vc = none) :=
    ⟨⟨11, 3, 0x2B, 5, filming 15, by decide +kernel⟩,
      ⟨11, 3, [1, 2, 3], 5, ⟨0, 1, 7, 7, 15, 4031⟩, (filming 15).setStream 5 { Stream.reset with frame := some ⟨0, 1, 7, 7, 15, 4031⟩, order := [0] },
     by decide +kernel⟩,
      ⟨11, 4, filming 15, by decide +kernel⟩⟩

theorem witness_GraphActivationsRunAndEnd :
        (∃ (g : Fin 8) (a : Activation) (s : State), s.swatchRuns 8 = true ∧ (s.graph g).act = some a) ∧
        (∃ (g : Fin 8) (s : State), (s.graph g).act = none ∧ ((∀ u ∈ s.track.updates, u.graph = g.val → (s.graph g).count ≤ u.activation + 1))) ∧
        (∃ (g : Fin 8) (a : Activation) (n : Nat) (m : Nat) (c : Nat) (r : NodeRun) (s : State), s.swatchRuns 8 = true ∧ (s.graph g).act = some a ∧
      a.nextNode = some n ∧ s.skipCode g n a (s.nodeDesc g n) = some c ∧ m ≠ n ∧ a.nodes[m]? = some r ∧ r.isEnded = false) ∧
        (∃ (g : Fin 8) (a : Activation) (n : Nat) (s : State), s.swatchRuns 8 = true ∧ (s.graph g).act = some a ∧ a.nextNode = some n ∧ s.skipCode g n
      a (s.nodeDesc g n) = none ∧ s.producersClaimed g n (s.nodeDesc g n) = true ∧ ((s.nodeDesc g n).type ≠ nodeKeep ∨ keepDue (s.nodeDesc g n)
      a.number = true)) ∧
        (∃ (g : Fin 8) (node : Fin 64) (m : Nat) (r : NodeRun) (q : NodeRun) (s : State), s.swatchRuns 8 = true ∧ s.node? g node = some r ∧ r.isEnded
      = false ∧ r.verdict = none ∧ r.done = true ∧ m ≠ node.val ∧ s.node? g m = some q ∧ q.isEnded = false) ∧
        (∃ (g : Fin 8) (node : Fin 64) (c : Nat) (r : NodeRun) (s : State), s.swatchRuns 8 = true ∧ s.node? g node = some r ∧ r.isEnded = false ∧
      r.verdict = some c ∧ isFail c = true ∧ c < 16) ∧
        (∃ (g : Fin 8) (node : Fin 64) (m : Nat) (slot : Nat) (r : NodeRun) (q : NodeRun) (v : NodeInput) (s : State), s.swatchRuns 8 = true ∧
      (s.nodeDesc g node).type = nodeKeep ∧ s.node? g node = some r ∧ r.phase = .queued ∧ r.verdict = none ∧ (r.inputs[0]?).join = some v ∧ v.awaits =
      false ∧ (s.marker v.marker).state = .published ∧ (s.marker v.marker).gen = v.gen ∧ s.slotOf v.marker (nodeAgent g node) = some slot ∧ s.mayHold
      v.marker slot = true ∧ (s.marker v.marker).holds.length < 3 ∧ Store.get none (s.graph g).kept ((s.nodeDesc g node).inBuf 0) = none ∧ m ≠
      node.val ∧ s.node? g m = some q ∧ q.isEnded = false) ∧
        (∃ (s : State), s.swatchRuns 8 = true) ∧
        (∃ (s : State), s.swatchRuns 8 = false) :=
    ⟨⟨7, ⟨3, 0, 65536, 1, 5, [], false, [], [queued, NodeRun.reset]⟩, graphed (nodeBytes 3 0 (ff 2) []) queued false, by decide +kernel⟩,
      ⟨7, up, by decide +kernel⟩,
      ⟨7, ⟨3, 0, 65536, 1, 5, [], true, [], [NodeRun.reset, NodeRun.reset]⟩, 0, 1, 1, NodeRun.reset, graphed (nodeBytes 3 1 (ff 2) []) NodeRun.reset
     true, by decide +kernel⟩,
      ⟨7, ⟨3, 0, 65536, 1, 5, [], false, [], [NodeRun.reset, NodeRun.reset]⟩, 0, graphed (nodeBytes 3 1 (ff 2) []) NodeRun.reset false,
     by decide +kernel⟩,
      ⟨7, 0, 1, { onEngine 4 with done := true }, NodeRun.reset, graphed (nodeBytes 3 0 (ff 2) []) { onEngine 4 with done := true } false,
     by decide +kernel⟩,
      ⟨7, 0, 8, { onEngine 4 with verdict := some 8 }, graphed (nodeBytes 3 0 (ff 2) []) { onEngine 4 with verdict := some 8 } false,
     by decide +kernel⟩,
      ⟨7, 0, 1, 1, { queued with inputs := [some ⟨0, 4095, 3, true, false⟩, none, none, none] }, NodeRun.reset, ⟨0, 4095, 3, true, false⟩, ((graphed
     (nodeBytes 7 0 [0, 0] []) { queued with inputs := [some ⟨0, 4095, 3, true, false⟩, none, none, none] } false).setObjBytes 8 1 (40 * 4095) [1,
     0x10, 2, 0, 5, 0x10, 0, 0x27]).setMarker 4095 { Marker.reset with state := .published, gen := 3, holds := [1, 1], readers := [0] },
     by decide +kernel⟩,
      ⟨up, by decide +kernel⟩,
      ⟨State.reset, by decide +kernel⟩⟩

theorem witness_GraphActivationsRunAndEnd_2 :
        (∃ (g : Fin 8) (s : State), ((s.graph g).act.bind Activation.nextNode).isNone = true) ∧
        (∃ (g : Fin 8) (a : Activation) (n : Nat) (s : State), (s.graph g).act = some a ∧ a.nextNode = some n ∧ s.skipCode g n a (s.nodeDesc g n) =
      none ∧ s.producersClaimed g n (s.nodeDesc g n) = false) ∧
        (∃ (g : Fin 8) (a : Activation) (n : Nat) (m : Nat) (r : NodeRun) (s : State), s.swatchRuns 8 = true ∧ (s.graph g).act = some a ∧ a.nextNode =
      some n ∧ s.skipCode g n a (s.nodeDesc g n) = none ∧ s.producersClaimed g n (s.nodeDesc g n) = true ∧ (s.nodeDesc g n).type = nodeKeep ∧ keepDue
      (s.nodeDesc g n) a.number = false ∧ m ≠ n ∧ a.nodes[m]? = some r ∧ r.isEnded = false) ∧
        (∃ (g : Fin 8) (node : Fin 64) (s : State), ((∀ r, s.node? g node = some r → r.isEnded = true ∨ (r.verdict = none ∧ r.done = false)))) ∧
        (∃ (g : Fin 8) (node : Fin 64) (a : Activation) (r : NodeRun) (s : State), s.swatchRuns 8 = true ∧ (s.graph g).act = some a ∧ s.node? g node =
      some r ∧ r.isEnded = false ∧ r.verdict = none ∧ r.done = true ∧ (List.range a.nodes.length).all (fun k => k == node.val || ((a.nodes[k]?).map
      NodeRun.isEnded).getD true) = true) ∧
        (∃ (g : Fin 8) (node : Fin 64) (e : Nat) (m : Nat) (r : NodeRun) (q : NodeRun) (s : State), s.swatchRuns 8 = true ∧ s.node? g node = some r ∧
      r.isEnded = false ∧ r.verdict = none ∧ r.done = true ∧ r.engine = some e ∧ ((e = 8 ∨ e = 9)) ∧ m ≠ node.val ∧ s.node? g m = some q ∧ q.isEnded =
      false) ∧
        (∃ (g : Fin 8) (node : Fin 64) (m : Nat) (slot : Nat) (c0 : Nat) (m0 : Nat) (g0 : Nat) (s0 : Nat) (r : NodeRun) (q : NodeRun) (v : NodeInput)
      (s : State), s.swatchRuns 8 = true ∧ (s.nodeDesc g node).type = nodeKeep ∧ s.node? g node = some r ∧ r.phase = .queued ∧ r.verdict = none ∧
      (r.inputs[0]?).join = some v ∧ v.awaits = false ∧ (s.marker v.marker).state = .published ∧ (s.marker v.marker).gen = v.gen ∧ s.slotOf v.marker
      (nodeAgent g node) = some slot ∧ s.mayHold v.marker slot = true ∧ (s.marker v.marker).holds.length < 3 ∧ Store.get none (s.graph g).kept
      ((s.nodeDesc g node).inBuf 0) = some (c0, m0, g0) ∧ m0 ≠ v.marker ∧ s.slotOf m0 (nodeAgent g node) = some s0 ∧ s.mayHold m0 s0 = true ∧
      (s.marker m0).holds ≠ [] ∧ m ≠ node.val ∧ s.node? g m = some q ∧ q.isEnded = false) ∧
        (∃ (g : Fin 8) (node : Fin 64) (m : Nat) (slot : Nat) (r : NodeRun) (q : NodeRun) (v : NodeInput) (s : State), s.swatchRuns 8 = true ∧
      (s.nodeDesc g node).type = nodeKeep ∧ s.node? g node = some r ∧ r.phase = .queued ∧ r.verdict = none ∧ (r.inputs[0]?).join = some v ∧ v.awaits =
      false ∧ (s.marker v.marker).state = .published ∧ (s.marker v.marker).gen = v.gen ∧ s.slotOf v.marker (nodeAgent g node) = some slot ∧
      ((s.mayHold v.marker slot = false ∨ 3 ≤ (s.marker v.marker).holds.length)) ∧ m ≠ node.val ∧ s.node? g m = some q ∧ q.isEnded = false) ∧
        (∃ (g : Fin 8) (node : Fin 64) (m : Nat) (slot : Nat) (r : NodeRun) (q : NodeRun) (v : NodeInput) (s : State), s.swatchRuns 8 = true ∧
      (s.nodeDesc g node).type = nodeKeep ∧ s.node? g node = some r ∧ r.phase = .queued ∧ r.verdict = none ∧ (r.inputs[0]?).join = some v ∧ v.awaits =
      false ∧ v.gen < (s.marker v.marker).gen ∧ s.slotOf v.marker (nodeAgent g node) = some slot ∧ m ≠ node.val ∧ s.node? g m = some q ∧ q.isEnded =
      false) :=
    ⟨⟨0, State.reset, by decide +kernel⟩,
      ⟨7, ⟨3, 0, 65536, 1, 5, [], false, [], [queued, NodeRun.reset]⟩, 1, withRuns twoNodes [queued, NodeRun.reset], by decide +kernel⟩,
      ⟨7, ⟨3, 0, 65536, 1, 5, [], false, [], [NodeRun.reset, NodeRun.reset]⟩, 0, 1, NodeRun.reset, graphed (nodeBytes 7 0 (ff 2) [2]) NodeRun.reset
     false, by decide +kernel⟩,
      ⟨0, 0, State.reset, forall_some (by decide +kernel)⟩,
      ⟨7, 0, ⟨3, 0, 65536, 1, 5, [], false, [], [{ onEngine 4 with done := true }, { NodeRun.reset with phase := .ended 0 }]⟩,
     { onEngine 4 with done := true }, withRuns (nodeBytes 3 0 (ff 2) []) [{ onEngine 4 with done := true },
     { NodeRun.reset with phase := .ended 0 }], by decide +kernel⟩,
      ⟨7, 0, 9, 1, { onEngine 9 with done := true }, NodeRun.reset, graphed (nodeBytes 5 0 (ff 2) []) { onEngine 9 with done := true } false,
     by decide +kernel⟩,
      ⟨7, 0, 1, 1, 0, 4094, 2, 1, { queued with inputs := [some (keepInput 3), none, none, none] }, NodeRun.reset, keepInput 3, ((keeping 3
     []).setGraph 7 { (keeping 3 []).graph 7 with kept := [(0, some (0, 4094, 2))] }).setMarker 4094
     { Marker.reset with state := .published, gen := 2, holds := [0, 1] }, by decide +kernel⟩,
      ⟨7, 0, 1, 1, { queued with inputs := [some (keepInput 3), none, none, none] }, NodeRun.reset, keepInput 3, keeping 3 [1, 1, 1],
     by decide +kernel⟩,
      ⟨7, 0, 1, 1, { queued with inputs := [some (keepInput 2), none, none, none] }, NodeRun.reset, keepInput 2, keeping 2 [1], by decide +kernel⟩⟩

theorem witness_GraphActivationsRunAndEnd_3 :
        ∃ (g : Fin 8) (node : Fin 64) (r : NodeRun) (s : State), s.node? g node = some r ∧ (((s.nodeDesc g node).type ≠ nodeKeep ∨ r.phase ≠ .queued ∨
      (r.inputs[0]?).join = none ∨ ∃ v, (r.inputs[0]?).join = some v ∧ (v.awaits = true ∨ (s.marker v.marker).judge v.gen 65536 = none))) :=
    ⟨7, 0, queued, graphed (nodeBytes 3 0 (ff 2) []) queued false, by decide +kernel, Or.inl (by decide +kernel)⟩

theorem witness_VisionEnginesWorkInUnits :
        (∃ (e : Fin 10) (g : Nat) (n : Nat) (s : State), s.swatchRuns (engineSwatch e) = true ∧ s.swatchRuns 8 = true ∧ s.nextStart e = some (g, n)) ∧
        (∃ (e : Fin 8) (g : Nat) (n : Nat) (r : NodeRun) (s : State), s.swatchRuns (engineSwatch e) = true ∧ s.swatchRuns 8 = true ∧ s.nextUnit e =
      some (g, n) ∧ s.node? g n = some r ∧ s.engineError (s.nodeDesc g n) r = true) ∧
        (∃ (e : Fin 8) (g : Nat) (n : Nat) (r : NodeRun) (s : State), s.swatchRuns (engineSwatch e) = true ∧ s.swatchRuns 8 = true ∧ s.nextUnit e =
      some (g, n) ∧ s.node? g n = some r ∧ s.engineError (s.nodeDesc g n) r = false ∧ (s.nodeDesc g n).streaming = false) ∧
        (∃ (e : Fin 8) (g : Nat) (n : Nat) (r : NodeRun) (s : State), s.swatchRuns (engineSwatch e) = true ∧ s.swatchRuns 8 = true ∧ s.nextUnit e =
      some (g, n) ∧ s.node? g n = some r ∧ s.engineError (s.nodeDesc g n) r = false ∧ (s.nodeDesc g n).streaming = true ∧ bandEnd r.lines
      (s.bandHeight (s.nodeDesc g n) r) < s.bandHeight (s.nodeDesc g n) r) ∧
        (∃ (e : Fin 2) (g : Nat) (n : Nat) (r : NodeRun) (s : State), s.swatchRuns 11 = true ∧ s.swatchRuns 8 = true ∧ s.sgmNode e = some (g, n, r) ∧
      r.verdict = none ∧ r.done = false ∧ r.passReady (s.nodeDesc g n).streaming = true ∧ s.shortInput (s.nodeDesc g n) r 0 = false ∧ s.shortInput
      (s.nodeDesc g n) r 1 = false ∧ s.node? g n = some r) ∧
        (∃ (s : State), s.swatchRuns 10 = true ∧ 64 ≤ s.vis.verifier.length) ∧
        (∃ (s : State), s.swatchRuns 10 = true ∧ s.vis.verifier = [] ∧ s.vis.verifying = none ∧ s.admitsClassC = true) ∧
        (∃ (j : VerifierJob) (s : State), s.swatchRuns 10 = true ∧ s.vis.verifier.length < 64 ∧ s.vis.verifying = some j) ∧
        (∃ (j : VerifierJob) (s : State), s.swatchRuns 10 = true ∧ s.vis.verifying = some j ∧ s.vis.verifier = [] ∧ j.requester = 0 ∧ j.bad = true) :=
    ⟨⟨4, 7, 0, graphed (nodeBytes 3 0 (ff 2) []) queued false, by decide +kernel⟩,
      ⟨0, 7, 0, onEngine 0, graphed (nodeBytes 1 0 (ff 2) []) (onEngine 0) false, by decide +kernel⟩,
      ⟨4, 7, 0, onEngine 4, graphed (nodeBytes 3 0 (ff 2) []) (onEngine 4) false, by decide +kernel⟩,
      ⟨4, 7, 0, { onEngine 4 with inputs := [some ⟨0, 4095, 3, true, false⟩, none, none, none] }, (graphed (nodeBytes 3 2 [0, 0] [])
     { onEngine 4 with inputs := [some ⟨0, 4095, 3, true, false⟩, none, none, none] } false).setObjBytes 8 2 0 [1, 0, 1, 0, 0xFF, 0x0F, 0, 0, 0, 0, 1,
     0, 8, 0, 20, 0, 64, 0, 0, 0], by decide +kernel⟩,
      ⟨1, 7, 0, { onEngine 9 with pass := 2 }, graphed (nodeBytes 5 0 (ff 2) []) { onEngine 9 with pass := 2 } false, by decide +kernel⟩,
      ⟨{ up with vis := { up.vis with verifier := List.replicate 64 ⟨0, [], 1⟩ } }, by decide +kernel⟩,
      ⟨up, by decide +kernel⟩,
      ⟨⟨0, [], 1⟩, { up with vis := { up.vis with verifying := some ⟨0, [], 1⟩ } }, by decide +kernel⟩,
      ⟨⟨0, ff 64, 1⟩, { up with vis := { up.vis with verifying := some ⟨0, ff 64, 1⟩ } }, by decide +kernel⟩⟩

theorem witness_VisionEnginesWorkInUnits_2 :
        (∃ (j : VerifierJob) (s : State), s.swatchRuns 10 = true ∧ s.vis.verifying = some j ∧ s.vis.verifier = [] ∧ j.requester = 0 ∧ j.bad = false ∧
      (s.readRecords j).1 = true ∧ (s.matches_ j).length < j.at_ 0x0A 2) ∧
        (∃ (j : VerifierJob) (s : State), s.vis.verifying = some j ∧ s.vis.verifier = [] ∧ j.requester = 0) ∧
        (∃ (e : Fin 10) (s : State), ((s.swatchRuns (engineSwatch e) = false ∨ s.swatchRuns 8 = false ∨ s.nextStart e = none))) ∧
        (∃ (e : Fin 8) (s : State), ((s.swatchRuns (engineSwatch e) = false ∨ s.swatchRuns 8 = false ∨ s.nextUnit e = none))) ∧
        (∃ (e : Fin 8) (g : Nat) (n : Nat) (r : NodeRun) (s : State), s.swatchRuns (engineSwatch e) = true ∧ s.swatchRuns 8 = true ∧ s.nextUnit e =
      some (g, n) ∧ s.node? g n = some r ∧ s.engineError (s.nodeDesc g n) r = false ∧ (s.nodeDesc g n).streaming = true ∧ s.bandHeight (s.nodeDesc g
      n) r ≤ bandEnd r.lines (s.bandHeight (s.nodeDesc g n) r)) ∧
        (∃ (e : Fin 2) (s : State), ((s.swatchRuns 11 = false ∨ s.swatchRuns 8 = false ∨ s.sgmNode e = none))) ∧
        (∃ (e : Fin 2) (g : Nat) (n : Nat) (r : NodeRun) (s : State), s.sgmNode e = some (g, n, r) ∧ ((r.verdict ≠ none ∨ r.done = true ∨ r.passReady
      (s.nodeDesc g n).streaming = false))) ∧
        (∃ (e : Fin 2) (g : Nat) (n : Nat) (r : NodeRun) (s : State), s.swatchRuns 11 = true ∧ s.swatchRuns 8 = true ∧ s.sgmNode e = some (g, n, r) ∧
      r.verdict = none ∧ r.done = false ∧ r.passReady (s.nodeDesc g n).streaming = true ∧ ((s.shortInput (s.nodeDesc g n) r 0 = true ∨ s.shortInput
      (s.nodeDesc g n) r 1 = true)) ∧ s.node? g n = some r) ∧
        (∃ (s : State), s.swatchRuns 10 = false) :=
    ⟨⟨⟨0, [0, 0, 0, 0, 0, 0, 0, 0, 0, 0, 3, 0, 1, 0, 1, 0, 5, 0, 0, 0, 1, 0, 1, 0, 5, 0, 0, 0] ++ List.replicate 36 0, 1⟩,
    { memory [(5, tileObj 2 false)] with vis := { up.vis with verifying := some ⟨0, [0, 0, 0, 0, 0, 0, 0, 0, 0, 0, 3, 0, 1, 0, 1, 0, 5, 0, 0, 0, 1, 0, 1, 0, 5, 0, 0, 0] ++ List.replicate 36 0, 1⟩ } },
    by decide +kernel⟩,
      ⟨⟨0, ff 64, 1⟩, { up with vis := { up.vis with verifying := some ⟨0, ff 64, 1⟩ } }, by decide +kernel⟩,
      ⟨0, State.reset, by decide +kernel⟩,
      ⟨0, State.reset, by decide +kernel⟩,
      ⟨0, 7, 0, onEngine 0, graphed (nodeBytes 2 2 (ff 2) []) (onEngine 0) false, by decide +kernel⟩,
      ⟨0, State.reset, by decide +kernel⟩,
      ⟨1, 7, 0, { onEngine 9 with done := true }, graphed (nodeBytes 5 0 (ff 2) []) { onEngine 9 with done := true } false, by decide +kernel⟩,
      ⟨1, 7, 0, { onEngine 9 with inputs := [some ⟨0, 4095, 3, true, false⟩, none, none, none] }, ((graphed (nodeBytes 5 0 [0, 0] [])
     { onEngine 9 with inputs := [some ⟨0, 4095, 3, true, false⟩, none, none, none] } false).setObjBytes 8 2 0 [1, 0, 1, 0, 0xFF, 0x0F, 0, 0, 0, 0, 1,
     0, 8, 0, 20, 0, 64, 0, 0, 0]).setMarker 4095 { Marker.reset with state := .published, gen := 3 }, by decide +kernel⟩,
      ⟨State.reset, by decide +kernel⟩⟩

theorem witness_VisionEnginesWorkInUnits_3 :
        (∃ (s : State), s.swatchRuns 10 = true ∧ s.vis.verifier.length < 64 ∧ s.admitsClassC = false) ∧
        (∃ (r : Fin 2) (job : List Byte) (j : VerifierJob) (l : List VerifierJob) (s : State), s.swatchRuns 10 = true ∧ s.vis.verifier.length < 64 ∧
      s.vis.verifying = none ∧ s.admitsClassC = true ∧ insertBy jobBefore ⟨r, job, s.vis.jobs + 1⟩ s.vis.verifier = j :: l) ∧
        (∃ (s : State), ((s.swatchRuns 10 = false ∨ s.vis.verifying = none))) ∧
        (∃ (s : State), s.vis.verifying = none) ∧
        (∃ (j : VerifierJob) (s : State), s.swatchRuns 10 = true ∧ s.vis.verifying = some j) ∧
        (∃ (j : VerifierJob) (k : VerifierJob) (l : List VerifierJob) (s : State), s.swatchRuns 10 = true ∧ s.admitsClassC = true ∧ s.vis.verifying =
      some j ∧ s.vis.verifier = k :: l ∧ j.bad = true) ∧
        (∃ (j : VerifierJob) (s : State), s.swatchRuns 10 = true ∧ s.vis.verifying = some j ∧ s.vis.verifier = [] ∧ j.requester = 0 ∧ j.bad = false ∧
      (s.readRecords j).1 = false) ∧
        (∃ (j : VerifierJob) (s : State), s.swatchRuns 10 = true ∧ s.vis.verifying = some j ∧ s.vis.verifier = [] ∧ j.requester = 0 ∧ j.bad = false ∧
      (s.readRecords j).1 = true ∧ j.at_ 0x0A 2 ≤ (s.matches_ j).length) ∧
        (∃ (j : VerifierJob) (c : Nat) (n : Nat) (l : List Nat) (w : NewNode) (s : State), s.vis.verifying = some j ∧ s.vis.verifier = [] ∧
      j.requester = 1 ∧ s.map.candidates = c :: l ∧ s.map.last = some (n, w)) :=
    ⟨⟨up.setFld fld_PWR_STATUS_LEVEL 7, by decide +kernel⟩,
      ⟨1, [], ⟨1, [], 1⟩, [], up, by decide +kernel⟩,
      ⟨State.reset, by decide +kernel⟩,
      ⟨State.reset, by decide +kernel⟩,
      ⟨⟨1, ff 64, 1⟩, { up with vis := { up.vis with verifying := some ⟨1, ff 64, 1⟩ } }, by decide +kernel⟩,
      ⟨⟨1, ff 64, 1⟩, ⟨0, ff 64, 2⟩, [], { up with vis := { up.vis with verifying := some ⟨1, ff 64, 1⟩, verifier := [⟨0, ff 64, 2⟩] } },
     by decide +kernel⟩,
      ⟨⟨0, verJob 1, 1⟩, { up with vis := { up.vis with verifying := some ⟨0, verJob 1, 1⟩ } }, by decide +kernel⟩,
      ⟨⟨0, verJob 3, 1⟩, { (memory [(5, tileObj 2 false)]).setMemBytes 5 0 keypoints with vis := { up.vis with verifying := some ⟨0, verJob 3, 1⟩ } },
     by decide +kernel⟩,
      ⟨⟨1, ff 64, 1⟩, 7, 5, [8], keyframe,
     { up with vis := { up.vis with verifying := some ⟨1, ff 64, 1⟩ }, map := { up.map with candidates := [7, 8], last := some (5, keyframe) } },
     by decide +kernel⟩⟩

theorem witness_NeuralRequestsPassTheFabric :
        (∃ (g : Fin 8) (node : Fin 64) (a : Activation) (r : NodeRun) (s : State), s.swatchRuns 8 = true ∧ (s.graph g).act = some a ∧ s.node? g node =
      some r ∧ (s.nodeDesc g node).type = nodeNeural ∧ r.phase = .queued ∧ r.verdict = none ∧ s.hasRequest g node = false ∧ 64 ≤
      s.neural.queue.length) ∧
        (∃ (g : Fin 8) (node : Fin 64) (a : Activation) (r : NodeRun) (p : Nat) (s : State), s.swatchRuns 8 = true ∧ (s.graph g).act = some a ∧
      s.node? g node = some r ∧ (s.nodeDesc g node).type = nodeNeural ∧ r.phase = .queued ∧ r.verdict = none ∧ (s.nodeDesc g node).param 0 2 = p ∧
      s.neural.queue = [] ∧ s.neural.running = [] ∧ s.neural.reserved = none ∧ s.elsewhere p = false ∧ 1 ≤ s.progCores p ∧ s.progCores p ≤ 16 ∧
      s.groupOut 0 (s.progCores p) = true) ∧
        (∃ (g : Fin 8) (node : Fin 64) (r : NodeRun) (q : NeuralRun) (s : State), s.swatchRuns 8 = true ∧ s.neuralRun g node = some q ∧ q.started =
      false ∧ s.node? g node = some r) ∧
        (∃ (c : Fin 16) (q : NeuralRun) (r : NodeRun) (step : Nat) (j : Nat) (k : Nat) (s : State), s.neural.running.find? (fun q => q.covers c &&
      q.started) = some q ∧ s.neuralRun q.graph q.node = some q ∧ s.node? q.graph q.node = some r ∧ Store.get 0 q.loaded (c - q.base) = k ∧
      (s.chunkList q (s.nodeDesc q.graph q.node) r (c - q.base))[k]? = some (step, j) ∧ r.verdict = none ∧ chunkFree (s.chunkList q (s.nodeDesc
      q.graph q.node) r (c - q.base)) q r k = true ∧ s.swatchRuns (coreSwatch c) = true ∧ s.mem.bad = [] ∧ s.mem.recordBad = []) ∧
        (∃ (g : Fin 8) (node : Fin 64) (q : NeuralRun) (r : NodeRun) (s : State), s.neuralRun g node = some q ∧ s.node? g node = some r ∧ q.started =
      true ∧ q.complete = false ∧ r.verdict = none ∧ r.inputsReady = true ∧ s.chunksLoaded q (s.nodeDesc g node) r = true ∧ s.groupOut q.base q.cores
      = true) ∧
        (∃ (g : Fin 8) (node : Fin 64) (q : NeuralRun) (r : NodeRun) (s : State), s.swatchRuns 8 = true ∧ s.neuralRun g node = some q ∧ s.node? g node
      = some r ∧ q.complete = true ∧ r.verdict = none) ∧
        (∃ (g : Fin 8) (node : Fin 64) (a : Activation) (r : NodeRun) (s : State), s.swatchRuns 8 = true ∧ (s.graph g).act = some a ∧ s.node? g node =
      some r ∧ (s.nodeDesc g node).type = nodeNeural ∧ r.phase = .queued ∧ r.verdict = none ∧ s.hasRequest g node = false ∧ s.neural.queue.length < 64
      ∧ s.elsewhere ((s.nodeDesc g node).param 0 2) = true) ∧
        (∃ (g : Fin 8) (node : Fin 64) (a : Activation) (r : NodeRun) (p : Nat) (s : State), s.swatchRuns 8 = true ∧ (s.graph g).act = some a ∧
      s.node? g node = some r ∧ (s.nodeDesc g node).type = nodeNeural ∧ r.phase = .queued ∧ r.verdict = none ∧ s.hasRequest g node = false ∧
      (s.nodeDesc g node).param 0 2 = p ∧ s.neural.queue = [] ∧ s.elsewhere p = false ∧ (groupBases (s.progCores p)).all (fun b => !s.groupFree ⟨g,
      node, p, s.progCores p, a.deadline⟩ b) = true) ∧
        (∃ (g : Fin 8) (node : Fin 64) (r : NodeRun) (s : State), s.node? g node = some r ∧ (((s.nodeDesc g node).type ≠ nodeNeural ∨ r.phase ≠
      .queued ∨ r.verdict ≠ none ∨ s.hasRequest g node = true ∨ s.swatchRuns 8 = false))) :=
    ⟨⟨7, 0, ⟨3, 0, 65536, 1, 5, [], false, [], [queued, NodeRun.reset]⟩, queued,
    { graphed (nodeBytes 6 0 (ff 2) [5]) queued false with neural := { Neural.reset with queue := List.replicate 64 ⟨6, 1, 2, 1, 9⟩ } },
    by decide +kernel⟩,
      ⟨7, 0, ⟨3, 0, 65536, 1, 5, [], false, [], [queued, NodeRun.reset]⟩, queued, 5, { fabric neuralJob queued with neural := Neural.reset },
     by decide +kernel⟩,
      ⟨7, 0, queued, neuralJob, fabric neuralJob queued, by decide +kernel⟩,
      ⟨0, { neuralJob with started := true }, { queued with phase := .running }, 0, 0, 0, fabric { neuralJob with started := true }
     { queued with phase := .running }, by decide +kernel⟩,
      ⟨7, 0, { neuralJob with started := true, loaded := [(0, 1)] }, { queued with phase := .running }, fabric
     { neuralJob with started := true, loaded := [(0, 1)] } { queued with phase := .running }, by decide +kernel⟩,
      ⟨7, 0, { neuralJob with started := true, complete := true }, { queued with phase := .running }, fabric
     { neuralJob with started := true, complete := true } { queued with phase := .running }, by decide +kernel⟩,
      ⟨7, 0, ⟨3, 0, 65536, 1, 5, [], false, [], [queued, NodeRun.reset]⟩, queued,
     { (fabric neuralJob queued).setObjBytes 8 0x105 8 [9] with neural := Neural.reset }, by decide +kernel⟩,
      ⟨7, 0, ⟨3, 0, 65536, 1, 5, [], false, [], [queued, NodeRun.reset]⟩, queued, 5,
     { fabric neuralJob queued with neural := Neural.reset, sw := { up.sw with inReset := 0xFFFF00000000 } }, by decide +kernel⟩,
      ⟨7, 0, queued, graphed (nodeBytes 3 0 (ff 2) []) queued false, by decide +kernel⟩⟩

theorem witness_NeuralRequestsPassTheFabric_2 :
        (∃ (g : Fin 8) (s : State), (s.graph g).act = none) ∧
        (∃ (g : Fin 8) (node : Fin 64) (s : State), ((s.swatchRuns 8 = false ∨ ∀ q, s.neuralRun g node = some q → q.started = true))) ∧
        (∃ (c : Fin 16) (s : State), s.neural.running.find? (fun q => q.covers c && q.started) = none) ∧
        (∃ (c : Fin 16) (q : NeuralRun) (r : NodeRun) (s : State), s.neural.running.find? (fun q => q.covers c && q.started) = some q ∧ s.node?
      q.graph q.node = some r ∧ ((r.verdict ≠ none ∨ s.swatchRuns (coreSwatch c) = false ∨ chunkFree (s.chunkList q (s.nodeDesc q.graph q.node) r (c -
      q.base)) q r (Store.get 0 q.loaded (c - q.base)) = false ∨ (s.chunkList q (s.nodeDesc q.graph q.node) r (c - q.base)).length ≤ Store.get 0
      q.loaded (c - q.base)))) ∧
        (∃ (c : Fin 16) (e : List (Nat × SymbolErrors)) (q : NeuralRun) (r : NodeRun) (step : Nat) (j : Nat) (k : Nat) (s : State),
      s.neural.running.find? (fun q => q.covers c && q.started) = some q ∧ s.neuralRun q.graph q.node = some q ∧ s.node? q.graph q.node = some r ∧
      Store.get 0 q.loaded (c - q.base) = k ∧ (s.chunkList q (s.nodeDesc q.graph q.node) r (c - q.base))[k]? = some (step, j) ∧ r.verdict = none ∧
      chunkFree (s.chunkList q (s.nodeDesc q.graph q.node) r (c - q.base)) q r k = true ∧ s.swatchRuns (coreSwatch c) = true ∧ (s.checkWords
      (s.progWeights q.program) ((s.progStep q.program step).wOffset + j * (s.progStep q.program step).chunkBytes) (s.progStep q.program
      step).chunkBytes (coreSwatch c) e).1 ≠ []) ∧
        (∃ (g : Fin 8) (node : Fin 64) (e : List (Nat × SymbolErrors)) (q : NeuralRun) (r : NodeRun) (s : State), s.neuralRun g node = some q ∧
      s.node? g node = some r ∧ q.started = true ∧ q.complete = false ∧ r.verdict = none ∧ r.inputsReady = true ∧ s.chunksLoaded q (s.nodeDesc g node)
      r = true ∧ s.groupOut q.base q.cores = true ∧ (s.arenaErrors q e).1 = true) ∧
        (∃ (g : Fin 8) (node : Fin 64) (q : NeuralRun) (r : NodeRun) (s : State), s.neuralRun g node = some q ∧ s.node? g node = some r ∧ ((q.started
      = false ∨ q.complete = true ∨ r.verdict ≠ none ∨ r.inputsReady = false ∨ s.chunksLoaded q (s.nodeDesc g node) r = false ∨ s.groupOut q.base
      q.cores = false))) ∧
        (∃ (g : Fin 8) (node : Fin 64) (q : NeuralRun) (r : NodeRun) (s : State), s.neuralRun g node = some q ∧ s.node? g node = some r ∧ ((q.complete
      = false ∨ r.verdict ≠ none ∨ s.swatchRuns 8 = false))) :=
    ⟨⟨0, State.reset, by decide +kernel⟩,
      ⟨0, 0, State.reset, Or.inl (by decide +kernel)⟩,
      ⟨1, up, by decide +kernel⟩,
      ⟨0, { neuralJob with started := true, loaded := [(0, 1)] }, { queued with phase := .running }, fabric
     { neuralJob with started := true, loaded := [(0, 1)] } { queued with phase := .running }, by decide +kernel⟩,
      ⟨0, [(0, badWord)], { neuralJob with started := true }, { queued with phase := .running }, 0, 0, 0, weighed { neuralJob with started := true }
     { queued with phase := .running }, by decide +kernel⟩,
      ⟨7, 0, [(0, badWord)], { neuralJob with started := true, loaded := [(0, 1)] }, { queued with phase := .running }, fabric
     { neuralJob with started := true, loaded := [(0, 1)] } { queued with phase := .running }, by decide +kernel⟩,
      ⟨7, 0, { neuralJob with started := true }, { queued with phase := .running }, fabric { neuralJob with started := true }
     { queued with phase := .running }, by decide +kernel⟩,
      ⟨7, 0, { neuralJob with started := true }, { queued with phase := .running }, fabric { neuralJob with started := true }
     { queued with phase := .running }, by decide +kernel⟩⟩

theorem witness_MoverServesItsRequests :
        (∃ (id : Word) (s : State), s.moverRuns = true ∧ isTile id.toNat = false ∧ s.object id.toNat = none ∧ s.leased id.toNat = false) ∧
        (∃ (id : Word) (tier : Fin 4) (o : MemObject) (s : State), s.moverRuns = true ∧ isTile id.toNat = false ∧ s.object id.toNat = some o ∧
      s.leased id.toNat = false ∧ tier.val ≠ 0 ∧ tier.val ≠ tierPool ∧ o.home ≤ tier) ∧
        (∃ (h : Fin 48) (id : Word) (o : MemObject) (s : State), s.moverRuns = true ∧ ((isTile id.toNat = true → s.dirReady = true ∧ s.tileRegionBad =
      false)) ∧ s.object id.toNat = some o ∧ o.home = tierFlash ∧ s.channelBroken id.toNat tierDram = false ∧ s.mayMove ⟨some h, id.toNat, .promote 2
      false⟩ tierDram = true) ∧
        (∃ (id : Word) (o : MemObject) (s : State), s.moverRuns = true ∧ ((isTile id.toNat = true → s.dirReady = true ∧ s.tileRegionBad = false)) ∧
      s.object id.toNat = some o ∧ o.home = tierFlash ∧ s.mem.move = none ∧ s.channelBroken id.toNat tierDram = false ∧ s.hasRoom id.toNat tierDram =
      false) ∧
        (∃ (id : Word) (tier : Fin 4) (o : MemObject) (s : State), s.moverRuns = true ∧ isTile id.toNat = false ∧ s.object id.toNat = some o ∧
      s.leased id.toNat = false ∧ o.home ≠ tier) ∧
        (∃ (id : Word) (tier : Fin 4) (o : MemObject) (s : State), s.moverRuns = true ∧ isTile id.toNat = false ∧ s.object id.toNat = some o ∧
      s.leased id.toNat = false ∧ o.home = tier ∧ s.pinCount id.toNat ≠ 0) ∧
        (∃ (id : Word) (o : MemObject) (s : State), s.moverRuns = true ∧ isTile id.toNat = true ∧ s.tileRegionBad = false ∧ s.dirReady = true ∧
      s.object id.toNat = some o ∧ s.leased id.toNat = false ∧ o.dirty = false) ∧
        (∃ (h : Fin 48) (id : Word) (o : MemObject) (s : State), s.moverRuns = true ∧ ((isTile id.toNat = true → s.dirReady = true ∧ s.tileRegionBad =
      false)) ∧ s.object id.toNat = some o ∧ s.leased id.toNat = false ∧ s.pinCount id.toNat < 255 ∧ ((∀ p ∈ s.mem.pins, p.holder = h.val → p.object ≠
      id.toNat)) ∧ s.mem.pins.length < 4096) ∧
        (∃ (id : Word) (o : MemObject) (s : State), s.moverRuns = true ∧ ((isTile id.toNat = true → s.dirReady = true ∧ s.tileRegionBad = false)) ∧
      s.object id.toNat = some o ∧ s.leased id.toNat = false ∧ 255 ≤ s.pinCount id.toNat) :=
    ⟨⟨5, memory [], by decide +kernel⟩,
      ⟨5, 2, tileObj 2 false, memory [(5, tileObj 2 false)], by decide +kernel⟩,
      ⟨3, 0x40000005, tileObj 3 false, nandUp (readyTile 3 false), by decide +kernel⟩,
      ⟨0x40000005, tileObj 3 false, { nandUp (readyTile 3 false) with mem := { (readyTile 3 false).mem with dramPages := 0 } }, by decide +kernel⟩,
      ⟨5, 1, tileObj 2 false, memory [(5, tileObj 2 false)], by decide +kernel⟩,
      ⟨5, 2, tileObj 2 false, { memory [(5, tileObj 2 false)] with mem := { (memory [(5, tileObj 2 false)]).mem with pins := [⟨3, 5, 1⟩] } },
     by decide +kernel⟩,
      ⟨0x40000005, tileObj 2 false, readyTile 2 false, by decide +kernel⟩,
      ⟨3, 5, tileObj 2 false,
     { memory [(5, tileObj 2 false)] with mem := { (memory [(5, tileObj 2 false)]).mem with pins := [⟨3, 4, 1⟩, ⟨4, 5, 254⟩] } }, by decide +kernel⟩,
      ⟨5, tileObj 2 false,
     { memory [(5, tileObj 2 false)] with mem := { (memory [(5, tileObj 2 false)]).mem with pins := [⟨3, 4, 1⟩, ⟨4, 5, 255⟩] } }, by decide +kernel⟩⟩

theorem witness_MoverServesItsRequests_2 :
        (∃ (id : Word) (o : MemObject) (s : State), s.moverRuns = true ∧ ((isTile id.toNat = true → s.dirReady = true ∧ s.tileRegionBad = false)) ∧
      s.object id.toNat = some o) ∧
        (∃ (m : Move) (p : Nat) (rest : List Nat) (o : MemObject) (s : State), s.mem.move = some m ∧ ((m.dest = tierFlash → s.power.nandHeld = false))
      ∧ m.abandon = none ∧ m.todo = p :: rest ∧ s.object m.request.object = some o ∧ o.home ≠ tierFlash ∧ s.mem.bad = []) ∧
        (∃ (m : Move) (c : Nat) (s : State), s.mem.move = some m ∧ ((m.dest = tierFlash → s.power.nandHeld = false)) ∧ m.abandon = some c ∧
      s.mem.waiting = [] ∧ s.mem.held = []) ∧
        (∃ (m : Move) (o : MemObject) (tier : Nat) (pin : Bool) (s : State), s.mem.move = some m ∧ m.todo = [] ∧ m.dirty = [] ∧ m.abandon = none ∧
      m.dest ≠ tierFlash ∧ m.request.kind = .promote tier pin ∧ s.object m.request.object = some o ∧ s.mem.waiting = [] ∧ s.mem.held = []) ∧
        (∃ (m : Move) (o : MemObject) (tier : Nat) (p : Nat) (r : TileRecord) (s : State), s.mem.move = some m ∧ m.todo = [] ∧ m.dirty = [] ∧
      m.abandon = none ∧ m.dest = tierFlash ∧ m.record = some p ∧ s.power.nandHeld = false ∧ m.request.kind = .evict tier ∧ s.object m.request.object
      = some o ∧ o.record = some r ∧ s.mem.waiting = [] ∧ s.mem.held = []) ∧
        (∃ (c : Instr) (r : MoverRequest) (h : Fin 48) (id : Word) (tier : Fin 4) (pin : Bool) (s : State), s.moverRuns = false ∧ (c, r) ∈ [(.promote
      h id tier pin, ⟨some h.val, id.toNat, .promote tier pin⟩), (.evict h id tier, ⟨some h.val, id.toNat, .evict tier⟩), (.writeback h id, ⟨some
      h.val, id.toNat, .writeback⟩), (.pin h id, ⟨some h.val, id.toNat, .pin⟩), (.unpin h id, ⟨some h.val, id.toNat, .unpin⟩)]) ∧
        (∃ (c : Instr) (r : MoverRequest) (h : Fin 48) (id : Word) (tier : Fin 4) (pin : Bool) (s : State), s.moverRuns = true ∧ s.leased id.toNat =
      false ∧ isTile id.toNat = true ∧ s.tileRegionBad = true ∧ (c, r) ∈ [(.promote h id tier pin, ⟨some h.val, id.toNat, .promote tier pin⟩), (.evict
      h id tier, ⟨some h.val, id.toNat, .evict tier⟩), (.writeback h id, ⟨some h.val, id.toNat, .writeback⟩), (.pin h id, ⟨some h.val, id.toNat,
      .pin⟩), (.unpin h id, ⟨some h.val, id.toNat, .unpin⟩)]) ∧
        (∃ (c : Instr) (r : MoverRequest) (h : Fin 48) (id : Word) (tier : Fin 4) (pin : Bool) (s : State), s.moverRuns = true ∧ s.leased id.toNat =
      false ∧ isTile id.toNat = true ∧ s.tileRegionBad = false ∧ s.dirReady = false ∧ (c, r) ∈ [(.promote h id tier pin, ⟨some h.val, id.toNat,
      .promote tier pin⟩), (.evict h id tier, ⟨some h.val, id.toNat, .evict tier⟩), (.writeback h id, ⟨some h.val, id.toNat, .writeback⟩), (.pin h id,
      ⟨some h.val, id.toNat, .pin⟩), (.unpin h id, ⟨some h.val, id.toNat, .unpin⟩)]) ∧
        (∃ (c : Instr) (r : MoverRequest) (h : Fin 48) (id : Word) (tier : Fin 4) (code : Nat) (s : State), s.moverRuns = true ∧ s.leased id.toNat =
      false ∧ (c, r) ∈ [(.promote h id tier false, ⟨some h.val, id.toNat, .promote tier false⟩), (.evict h id tier, ⟨some h.val, id.toNat, .evict
      tier⟩), (.writeback h id, ⟨some h.val, id.toNat, .writeback⟩)] ∧ s.judgeMove r = .answer code) :=
    ⟨⟨5, tileObj 2 false, { memory [(5, tileObj 2 false)] with mem := { (memory [(5, tileObj 2 false)]).mem with pins := [⟨3, 4, 1⟩, ⟨3, 5, 2⟩] } },
    by decide +kernel⟩,
      ⟨⟨⟨some 3, 5, .promote 1 false⟩, 1, [9, 10], none, [1], [0], 0, none⟩, 1, [], tileObj 2 false, moving 5 (tileObj 2 false) ⟨⟨some 3, 5, .promote
     1 false⟩, 1, [9, 10], none, [1], [0], 0, none⟩, by decide +kernel⟩,
      ⟨⟨⟨some 3, 5, .promote 2 false⟩, 2, [9, 10], none, [1], [0], 0, some 3⟩, 3, moving 5 (tileObj 3 false) ⟨⟨some 3, 5, .promote 2 false⟩, 2, [9,
     10], none, [1], [0], 0, some 3⟩, by decide +kernel⟩,
      ⟨⟨⟨some 3, 5, .promote 2 false⟩, 2, [9], none, [], [], 0, none⟩, tileObj 3 false, 2, false, moving 5 (tileObj 3 false) ⟨⟨some 3, 5, .promote 2
     false⟩, 2, [9], none, [], [], 0, none⟩, by decide +kernel⟩,
      ⟨⟨⟨some 3, 0x40000005, .evict 2⟩, 3, [], some 20, [], [], 0, none⟩, tileObj 2 true, 2, 20, ⟨7, 4096, 0⟩, moving 0x40000005 (tileObj 2 true)
     ⟨⟨some 3, 0x40000005, .evict 2⟩, 3, [], some 20, [], [], 0, none⟩, by decide +kernel⟩,
      ⟨.pin 3 5, ⟨some 3, 5, .pin⟩, 3, 5, 2, true, State.reset, by decide +kernel⟩,
      ⟨.pin 3 0x40000005, ⟨some 3, 0x40000005, .pin⟩, 3, 0x40000005, 2, true, (readyTile 2 true).setFld fld_MEM_TILE_LAYOUT_CKPT_BLOCKS 1,
     by decide +kernel⟩,
      ⟨.writeback 3 0x40000005, ⟨some 3, 0x40000005, .writeback⟩, 3, 0x40000005, 2, true, (readyTile 2 true).setFlag fld_MEM_STATUS_DIR_READY false,
     by decide +kernel⟩,
      ⟨.evict 3 5 1, ⟨some 3, 5, .evict 1⟩, 3, 5, 1, moverDropped, memory [(5, tileObj 2 false)], by decide +kernel⟩⟩

theorem witness_MoverServesItsRequests_3 :
        (∃ (c : Instr) (r : MoverRequest) (h : Fin 48) (id : Word) (tier : Fin 4) (d : Nat) (o : MemObject) (s : State), s.moverRuns = true ∧ s.leased
      id.toNat = false ∧ s.object id.toNat = some o ∧ (c, r) ∈ [(.promote h id tier false, ⟨some h.val, id.toNat, .promote tier false⟩), (.evict h id
      tier, ⟨some h.val, id.toNat, .evict tier⟩), (.writeback h id, ⟨some h.val, id.toNat, .writeback⟩)] ∧ s.judgeMove r = .start d ∧ s.channelBroken
      id.toNat d = false ∧ s.regionFull id.toNat d = false ∧ s.mayMove r d = true) ∧
        (∃ (c : Instr) (r : MoverRequest) (h : Fin 48) (id : Word) (tier : Fin 4) (d : Nat) (s : State), s.moverRuns = true ∧ s.leased id.toNat =
      false ∧ (c, r) ∈ [(.promote h id tier false, ⟨some h.val, id.toNat, .promote tier false⟩), (.evict h id tier, ⟨some h.val, id.toNat, .evict
      tier⟩), (.writeback h id, ⟨some h.val, id.toNat, .writeback⟩)] ∧ s.judgeMove r = .start d ∧ s.channelBroken id.toNat d = false ∧ s.regionFull
      id.toNat d = false ∧ s.mayMove r d = false) ∧
        (∃ (c : Instr) (r : MoverRequest) (h : Fin 48) (id : Word) (tier : Fin 4) (d : Nat) (s : State), s.moverRuns = true ∧ s.leased id.toNat =
      false ∧ (c, r) ∈ [(.promote h id tier false, ⟨some h.val, id.toNat, .promote tier false⟩), (.evict h id tier, ⟨some h.val, id.toNat, .evict
      tier⟩), (.writeback h id, ⟨some h.val, id.toNat, .writeback⟩)] ∧ s.judgeMove r = .start d ∧ ((s.channelBroken id.toNat d = true ∨ s.regionFull
      id.toNat d = true))) ∧
        (∃ (c : Instr) (r : MoverRequest) (h : Fin 48) (id : Word) (tier : Fin 4) (s : State), s.moverRuns = true ∧ s.leased id.toNat = true ∧ ((c, r)
      ∈ [(.promote h id tier false, ⟨some h.val, id.toNat, .promote tier false⟩), (.evict h id tier, ⟨some h.val, id.toNat, .evict tier⟩), (.writeback
      h id, ⟨some h.val, id.toNat, .writeback⟩)] ∨ (c = .pin h id ∧ r = ⟨some h.val, id.toNat, .pin⟩ ∧ s.evicting id.toNat = false))) ∧
        (∃ (h : Fin 48) (id : Word) (m : Move) (s : State), s.moverRuns = true ∧ s.mem.move = some m ∧ m.request.object = id.toNat ∧ s.evicting
      id.toNat = true ∧ s.pinCount id.toNat < 255 ∧ s.mem.pins.length < 4096 ∧ ((∀ p ∈ s.mem.pins, p.holder = h.val → p.object ≠ id.toNat))) ∧
        (∃ (h : Fin 48) (id : Word) (tier : Fin 4) (s : State), s.moverRuns = true ∧ s.leased id.toNat = false ∧ s.judgeMove ⟨some h, id.toNat,
      .promote tier true⟩ = .answer moverAlready ∧ s.pinCount id.toNat < 255 ∧ s.mem.pins.length < 4096 ∧ ((∀ p ∈ s.mem.pins, p.holder = h.val →
      p.object ≠ id.toNat))) ∧
        (∃ (h : Fin 48) (id : Word) (tier : Fin 4) (d : Nat) (s : State), s.moverRuns = true ∧ s.leased id.toNat = false ∧ s.judgeMove ⟨some h,
      id.toNat, .promote tier true⟩ = .start d ∧ s.pinCount id.toNat < 255 ∧ s.mem.pins.length < 4096 ∧ s.channelBroken id.toNat d = false ∧
      s.regionFull id.toNat d = false ∧ s.mayMove ⟨some h, id.toNat, .promote tier false⟩ d = true ∧ ((∀ p ∈ s.mem.pins, p.holder = h.val → p.object ≠
      id.toNat))) ∧
        (∃ (id : Word) (s : State), s.moverRuns = true ∧ s.leased id.toNat = false ∧ isTile id.toNat = false ∧ s.object id.toNat = none) ∧
        (∃ (m : Move) (p : Nat) (rest : List Nat) (o : MemObject) (s : State), s.mem.move = some m ∧ m.dest ≠ tierFlash ∧ m.abandon = none ∧ m.todo =
      p :: rest ∧ s.object m.request.object = some o ∧ o.home = tierFlash ∧ s.mem.recordBad = []) :=
    ⟨⟨.evict 3 0x40000005 2, ⟨some 3, 0x40000005, .evict 2⟩, 3, 0x40000005, 2, 3, tileObj 2 true, nandUp (readyTile 2 true), by decide +kernel⟩,
      ⟨.evict 3 0x40000005 2, ⟨some 3, 0x40000005, .evict 2⟩, 3, 0x40000005, 2, 3, (nandUp (readyTile 2 true)).setFlag (fld_NCH_STATUS_READY 5) false,
     by decide +kernel⟩,
      ⟨.evict 3 0x40000005 2, ⟨some 3, 0x40000005, .evict 2⟩, 3, 0x40000005, 2, 3, (nandUp (readyTile 2 true)).setFld fld_NAND_GEOM_0_PAGES 0,
     by decide +kernel⟩,
      ⟨.pin 3 5, ⟨some 3, 5, .pin⟩, 3, 5, 2, moving 5 (tileObj 3 false) ⟨⟨some 3, 5, .promote 2 false⟩, 2, [9, 10], none, [1], [0], 0, none⟩,
     by decide +kernel⟩,
      ⟨3, 5, ⟨⟨some 3, 5, .evict 2⟩, 3, [], none, [], [], 0, none⟩, moving 5 (tileObj 2 false) ⟨⟨some 3, 5, .evict 2⟩, 3, [], none, [], [], 0, none⟩,
     by decide +kernel⟩,
      ⟨3, 5, 2, { memory [(5, tileObj 2 false)] with mem := { (memory [(5, tileObj 2 false)]).mem with pins := [⟨3, 4, 1⟩] } }, by decide +kernel⟩,
      ⟨3, 0x40000005, 2, 2, nandUp (readyTile 3 false), by decide +kernel⟩,
      ⟨5, memory [], by decide +kernel⟩,
      ⟨⟨⟨some 3, 5, .promote 2 false⟩, 2, [9], none, [0], [], 0, none⟩, 0, [], tileObj 3 false, moving 5 (tileObj 3 false) ⟨⟨some 3, 5, .promote 2
     false⟩, 2, [9], none, [0], [], 0, none⟩, by decide +kernel⟩⟩

theorem witness_MoverServesItsRequests_4 :
        (∃ (m : Move) (p : Nat) (rest : List Nat) (o : MemObject) (s : State), s.mem.move = some m ∧ m.dest = tierFlash ∧ s.power.nandHeld = false ∧
      m.abandon = none ∧ m.todo = p :: rest ∧ s.object m.request.object = some o ∧ s.mem.waiting = [] ∧ s.mem.held = []) ∧
        (∃ (m : Move) (p : Nat) (rest : List Nat) (o : MemObject) (e : List (Nat × SymbolErrors)) (u : List Nat) (s : State), s.mem.move = some m ∧
      m.dest ≠ tierFlash ∧ m.abandon = none ∧ m.todo = p :: rest ∧ s.object m.request.object = some o ∧ ((s.readRange 15 m.request.object (p *
      pageBytes) pageBytes e u).2.1 ≠ []) ∧ s.mem.waiting = [] ∧ s.mem.held = []) ∧
        (∃ (s : State), ((∀ m, s.mem.move = some m → (m.dest = tierFlash ∧ s.power.nandHeld = true) ∨ (m.abandon = none ∧ m.todo = [])))) ∧
        (∃ (m : Move) (c : Nat) (s : State), s.mem.move = some m ∧ ((m.dest = tierFlash → s.power.nandHeld = false)) ∧ m.abandon = some c) ∧
        (∃ (m : Move) (s : State), s.mem.move = some m ∧ m.todo = [] ∧ m.dirty = [] ∧ m.abandon = none ∧ ((m.dest = tierFlash → s.power.nandHeld =
      false))) ∧
        (∃ (s : State), ((∀ m, s.mem.move = some m → m.todo ≠ [] ∨ m.dirty ≠ [] ∨ m.abandon ≠ none ∨ (m.dest = tierFlash ∧ s.power.nandHeld = true))))
      ∧
        (∃ (m : Move) (o : MemObject) (tier : Nat) (s : State), s.mem.move = some m ∧ m.todo = [] ∧ m.dirty = [] ∧ m.abandon = none ∧ m.dest =
      tierFlash ∧ m.record = none ∧ s.power.nandHeld = false ∧ m.request.kind = .evict tier ∧ s.object m.request.object = some o ∧ s.mem.waiting = []
      ∧ s.mem.held = []) ∧
        (∃ (m : Move) (o : MemObject) (p : Nat) (r : TileRecord) (s : State), s.mem.move = some m ∧ m.todo = [] ∧ m.dirty = [] ∧ m.abandon = none ∧
      m.dest = tierFlash ∧ m.record = some p ∧ s.power.nandHeld = false ∧ m.request.kind = .writeback ∧ s.object m.request.object = some o ∧ o.record
      = some r ∧ s.mem.waiting = [] ∧ s.mem.held = []) :=
    ⟨⟨⟨⟨some 3, 5, .evict 2⟩, 3, [], some 20, [0], [], 0, none⟩, 0, [], tileObj 2 false, moving 5 (tileObj 2 false) ⟨⟨some 3, 5, .evict 2⟩, 3, [],
    some 20, [0], [], 0, none⟩, by decide +kernel⟩,
      ⟨⟨⟨some 3, 5, .promote 1 false⟩, 1, [], none, [0], [], 0, none⟩, 0, [], tileObj 2 false, [], [], marking (moving 5 (tileObj 2 false) ⟨⟨some 3,
     5, .promote 1 false⟩, 1, [], none, [0], [], 0, none⟩), by decide +kernel⟩,
      ⟨State.reset, forall_some (by decide +kernel)⟩,
      ⟨⟨⟨some 3, 5, .promote 2 false⟩, 2, [9, 10], none, [1], [0], 0, some 3⟩, 3, moving 5 (tileObj 3 false) ⟨⟨some 3, 5, .promote 2 false⟩, 2, [9,
     10], none, [1], [0], 0, some 3⟩, by decide +kernel⟩,
      ⟨⟨⟨some 3, 5, .promote 2 false⟩, 2, [9], none, [], [], 0, none⟩, moving 5 (tileObj 3 false) ⟨⟨some 3, 5, .promote 2 false⟩, 2, [9], none, [],
     [], 0, none⟩, by decide +kernel⟩,
      ⟨State.reset, forall_some (by decide +kernel)⟩,
      ⟨⟨⟨some 3, 0x40000005, .evict 2⟩, 3, [], none, [], [], 0, none⟩, tileObj 2 false, 2, moving 0x40000005 (tileObj 2 false) ⟨⟨some 3, 0x40000005,
     .evict 2⟩, 3, [], none, [], [], 0, none⟩, by decide +kernel⟩,
      ⟨⟨⟨some 3, 0x40000005, .writeback⟩, 3, [], some 20, [], [], 0, none⟩, tileObj 2 true, 20, ⟨7, 4096, 0⟩, moving 0x40000005 (tileObj 2 true)
     ⟨⟨some 3, 0x40000005, .writeback⟩, 3, [], some 20, [], [], 0, none⟩, by decide +kernel⟩⟩

theorem witness_MemoryKeepsItsObjects :
        (∃ (id : Nat) (o : MemObject) (s : State), s.moverRuns = true ∧ s.tierShort tierPool = true ∧ s.nextCandidate tierPool = some id ∧ isTile id =
      true ∧ s.tileRegionBad = false ∧ s.dirReady = true ∧ s.object id = some o ∧ s.candidate tierPool id o = true ∧ s.mayMove ⟨none, id, .evict
      tierPool⟩ tierDram = true) ∧
        (∃ (r : MoverRequest) (s : State), s.moverRuns = true ∧ s.nextCandidate tierPool = none ∧ s.makingRoom tierPool = false ∧ r ∈ s.mem.waiting ∧
      s.waitsForRoom tierPool r = true) ∧
        (∃ (u : Fin 48) (id : Word) (off : Nat) (n : Nat) (o : MemObject) (s : State), s.moverRuns = true ∧ s.swatchRuns u = true ∧ ((isTile id.toNat
      = false ∨ s.dirReady = true)) ∧ s.object id.toNat = some o ∧ s.reaches u id.toNat off n = true ∧ s.mem.bad = [] ∧ s.mem.recordBad = []) ∧
        (∃ (u : Fin 48) (id : Word) (off : Nat) (n : Nat) (s : State), s.moverRuns = true ∧ s.swatchRuns u = true ∧ ((isTile id.toNat = false ∨
      s.dirReady = true ∨ s.tileRegionBad = true)) ∧ s.reaches u id.toNat off n = false) ∧
        (∃ (u : Fin 48) (id : Word) (off : Nat) (data : List Byte) (o : MemObject) (s : State), s.moverRuns = true ∧ s.swatchRuns u = true ∧ ((isTile
      id.toNat = false ∨ s.dirReady = true)) ∧ s.object id.toNat = some o ∧ o.home ≠ tierFlash ∧ s.reaches u id.toNat off data.length = true ∧ ((∀ m,
      s.mem.move = some m → m.request.object ≠ id.toNat))) ∧
        (∃ (e : SymbolErrors) (s : State), s.moverRuns = true ∧ s.runsClassD = true ∧ s.fld fld_MEM_MOVE_CFG_SCRUB_MBS ≠ 0 ∧ s.dataBytes ≠ 0 ∧ (if
      (s.dramPlace s.mem.scrub).interface = 0 then s.flag fld_MEM_CFG_IF0_EN else s.flag fld_MEM_CFG_IF1_EN) = true ∧ s.ownerOf s.mem.scrub = none ∧
      checkWord [] (dramTag (s.mem.scrub / 32)) e = .clean) ∧
        (∃ (e : SymbolErrors) (p : Nat) (v : Byte) (s : State), s.moverRuns = true ∧ s.runsClassD = true ∧ s.fld fld_MEM_MOVE_CFG_SCRUB_MBS ≠ 0 ∧
      s.dataBytes ≠ 0 ∧ (if (s.dramPlace s.mem.scrub).interface = 0 then s.flag fld_MEM_CFG_IF0_EN else s.flag fld_MEM_CFG_IF1_EN) = true ∧ s.ownerOf
      s.mem.scrub = none ∧ checkWord [] (dramTag (s.mem.scrub / 32)) e = .corrected p v) ∧
        (∃ (w : Fin 48) (a : Nat) (e : SymbolErrors) (p : Nat) (v : Byte) (s : State), s.swatchRuns w = true ∧ Store.get .good s.sramBad (sramKey w (a
      / 32)) = .good ∧ selvedgeCheck e = .corrected p v) ∧
        (∃ (w : Fin 48) (a : Nat) (e : SymbolErrors) (loc : Bool) (s : State), s.swatchRuns w = true ∧ Store.get .good s.sramBad (sramKey w (a / 32))
      = .good ∧ selvedgeCheck e = .uncorrectable loc) :=
    ⟨⟨0x40000005, tileObj 1 true, (readyTile 1 true).setFld fld_MEM_POOL_CFG_POOL_MIB 0, by decide +kernel⟩,
      ⟨⟨some 3, 0x40000005, .promote 1 false⟩,
     { (readyTile 2 true).setFld fld_MEM_POOL_CFG_POOL_MIB 0 with mem := { (readyTile 2 true).mem with waiting := [⟨some 3, 0x40000005, .promote 1 false⟩] } },
     by decide +kernel⟩,
      ⟨9, 5, 2, 3, tileObj 2 false,
     { memory [(5, tileObj 2 false)] with mem := { (memory [(5, tileObj 2 false)]).mem with bytes := [(5 * 2 ^ 40 + 3, 77)] } }, by decide +kernel⟩,
      ⟨9, 5, 4094, 3, memory [(5, tileObj 2 false)], by decide +kernel⟩,
      ⟨9, 5, 2, [1, 0, 2], tileObj 2 false,
     { memory [(5, tileObj 2 false)] with mem := { (memory [(5, tileObj 2 false)]).mem with bytes := [(5 * 2 ^ 40 + 3, 77)] } }, by decide +kernel,
     by decide +kernel, by decide +kernel, by decide +kernel, by decide +kernel, by decide +kernel, forall_some (by decide +kernel)⟩,
      ⟨[], scrubbing [], by decide +kernel⟩,
      ⟨[(4, 9)], 4, 9, scrubbing [], by decide +kernel⟩,
      ⟨9, 64, [(4, 9)], 4, 9, memory [], by decide +kernel⟩,
      ⟨9, 64, [(4, 9), (5, 7)], false, memory [], by decide +kernel⟩⟩

theorem witness_MemoryKeepsItsObjects_2 :
        (∃ (c : Fin 16) (d : DirEntry) (s : State), s.moverRuns = true ∧ s.dozing = false ∧ s.flag fld_SYS_LOCK_LOCKED = true ∧ s.dirReady = false ∧
      s.tileRegionBad = false ∧ s.mem.waiting = [] ∧ s.mem.held = [] ∧ ((∀ k, k < 16 → k ≠ c.val → s.newestCheckpoint k ++ s.journal k = [])) ∧
      Store.get none (replayDir (s.newestCheckpoint c ++ s.journal c)) d.tile = some d ∧ d.tile < s.fld fld_MEM_TILE_CFG_DIR_ENTRIES) ∧
        (∃ (c : Fin 16) (b : Nat) (s : State), s.moverRuns = true ∧ s.runsClassD = true ∧ (s.fewErased c || s.waitsForRun c) = true ∧ s.power.nandHeld
      = false ∧ s.channelReady (tileId c) tierFlash = true ∧ s.reclaimBlock c = some b ∧ s.mem.waiting = [] ∧ s.liveRecords c = []) ∧
        (∃ (i : Fin 2) (s : State), s.moverRuns = true ∧ (if i = 0 then s.flag fld_MEM_CFG_IF0_EN else s.flag fld_MEM_CFG_IF1_EN) = true) ∧
        (∃ (i : Fin 2) (s : State), ((s.moverRuns = false ∨ (if i = 0 then s.flag fld_MEM_CFG_IF0_EN else s.flag fld_MEM_CFG_IF1_EN) = false))) ∧
        (∃ (tier : Fin 4) (s : State), ((s.moverRuns = false ∨ (tier.val ≠ tierPool ∧ tier.val ≠ tierDram)))) ∧
        (∃ (tier : Fin 4) (s : State), s.moverRuns = true ∧ ((tier.val = tierPool ∨ tier.val = tierDram)) ∧ s.tierShort tier = false ∧ ((s.managesTier
      tier = false ∨ s.tierAboveStop tier = false)) ∧ s.mem.waiting.any (s.waitsForRoom tier) = false ∧ s.stagingShort tier = false) ∧
        (∃ (id : Nat) (o : MemObject) (s : State), s.moverRuns = true ∧ s.tierShort tierDram = true ∧ s.nextCandidate tierDram = some id ∧ ((isTile id
      = true → s.tileRegionBad = false ∧ s.dirReady = true)) ∧ s.object id = some o ∧ s.candidate tierDram id o = true ∧ s.channelBroken id tierFlash
      = false ∧ s.regionFull id tierFlash = false ∧ s.mayMove ⟨none, id, .evict tierDram⟩ tierFlash = true) ∧
        (∃ (s : State), s.moverRuns = true ∧ s.nextCandidate tierDram = none ∧ s.makingRoom tierDram = false ∧ s.mem.waiting = [] ∧ s.stagingShort
      tierDram = true) ∧
        (∃ (u : Fin 48) (s : State), ((s.moverRuns = false ∨ s.swatchRuns u = false))) :=
    ⟨⟨5, ⟨5, 8, 4096, 3, 3, 0, 0, 0⟩,
    { (memory []).setFld fld_MEM_TILE_CFG_DIR_ENTRIES 16 with mem := { (memory []).mem with journal := [(5, [⟨5, 7, 4096, 3, 3, 0, 0, 0⟩, ⟨5, 8, 4096, 3, 3, 0, 0, 0⟩])] } },
    by decide +kernel⟩,
      ⟨5, 0, reclaiming [], by decide +kernel⟩,
      ⟨1, ((memory []).setFlag fld_MEM_CFG_IF0_EN true).setFlag fld_MEM_CFG_IF1_EN true, by decide +kernel⟩,
      ⟨0, State.reset, by decide +kernel⟩,
      ⟨0, State.reset, by decide +kernel⟩,
      ⟨2, { up.setFlag fld_MEM_STATUS_TRAINED true with mem := { Memory.reset with dramPages := 100000 } }, by decide +kernel⟩,
      ⟨0x40000005, tileObj 2 true, (nandUp (readyTile 2 true)).setFld fld_MEM_DRAM_CFG_LOW_FREE_MIB 10, by decide +kernel⟩,
      ⟨{ memory [] with links := { Links.reset with bodies := [⟨0x32, [5, 0, 0, 0, 0, 0, 0x10, 0, 0, 0, 0, 0, 0, 0, 0, 0], 1, 20, 30⟩] } },
     by decide +kernel⟩,
      ⟨1, up, by decide +kernel⟩⟩

theorem witness_MemoryKeepsItsObjects_3 :
        (∃ (u : Fin 48) (id : Word) (s : State), s.moverRuns = true ∧ s.swatchRuns u = true ∧ isTile id.toNat = true ∧ s.dirReady = false ∧
      s.tileRegionBad = false) ∧
        (∃ (u : Fin 48) (id : Word) (off : Nat) (data : List Byte) (m : Move) (s : State), s.moverRuns = true ∧ s.swatchRuns u = true ∧ ((isTile
      id.toNat = false ∨ s.dirReady = true)) ∧ s.reaches u id.toNat off data.length = true ∧ s.mem.move = some m ∧ m.request.object = id.toNat ∧ 4 ≤
      m.passes) ∧
        (∃ (u : Fin 48) (id : Word) (off : Nat) (data : List Byte) (m : Move) (o : MemObject) (s : State), s.moverRuns = true ∧ s.swatchRuns u = true
      ∧ ((isTile id.toNat = false ∨ s.dirReady = true)) ∧ s.object id.toNat = some o ∧ o.home ≠ tierFlash ∧ s.reaches u id.toNat off data.length =
      true ∧ s.mem.move = some m ∧ m.request.object = id.toNat ∧ m.passes < 4 ∧ ((m.dest ≠ tierFlash ∨ m.record ≠ none)) ∧ data ≠ []) ∧
        (∃ (id : Word) (off : Nat) (data : List Byte) (o : MemObject) (s : State), s.moverRuns = true ∧ s.swatchRuns 15 = true ∧ ((isTile id.toNat =
      false ∨ s.dirReady = true)) ∧ s.object id.toNat = some o ∧ o.home = tierFlash ∧ s.reaches 15 id.toNat off data.length = true ∧ s.holdsWrites
      id.toNat = false ∧ s.runStarts (recordChannel id.toNat) (recordPages o.size) none ≠ []) ∧
        (∃ (u : Fin 48) (id : Word) (w : Nat) (e : SymbolErrors) (p : Nat) (v : Byte) (o : MemObject) (s : State), s.moverRuns = true ∧ s.swatchRuns u
      = true ∧ isTile id.toNat = false ∧ s.object id.toNat = some o ∧ o.home = tierDram ∧ s.reaches u id.toNat (32 * w) 32 = true ∧ Store.get .good
      s.mem.bad (memKey id.toNat w) = .good ∧ e ≠ [] ∧ checkWord (s.memBytes id.toNat (32 * w) 32) (s.wordPlace id.toNat o w).tag e = .corrected p v)
      ∧
        (∃ (u : Fin 48) (id : Word) (w : Nat) (e : SymbolErrors) (loc : Bool) (o : MemObject) (s : State), s.moverRuns = true ∧ s.swatchRuns u = true
      ∧ isTile id.toNat = false ∧ s.object id.toNat = some o ∧ o.home = tierDram ∧ s.reaches u id.toNat (32 * w) 32 = true ∧ Store.get .good s.mem.bad
      (memKey id.toNat w) = .good ∧ e ≠ [] ∧ checkWord (s.memBytes id.toNat (32 * w) 32) (s.wordPlace id.toNat o w).tag e = .uncorrectable loc) ∧
        (∃ (u : Fin 48) (id : Word) (w : Nat) (o : MemObject) (s : State), s.moverRuns = true ∧ s.swatchRuns u = true ∧ isTile id.toNat = false ∧
      s.object id.toNat = some o ∧ o.home = tierDram ∧ s.reaches u id.toNat (32 * w) 32 = true ∧ Store.get .good s.mem.bad (memKey id.toNat w) ≠
      .good) ∧
        (∃ (s : State), ((s.moverRuns = false ∨ s.runsClassD = false ∨ s.fld fld_MEM_MOVE_CFG_SCRUB_MBS = 0 ∨ s.dataBytes = 0 ∨ (if (s.dramPlace
      s.mem.scrub).interface = 0 then s.flag fld_MEM_CFG_IF0_EN else s.flag fld_MEM_CFG_IF1_EN) = false))) ∧
        (∃ (e : SymbolErrors) (id : Nat) (off : Nat) (p : Nat) (v : Byte) (s : State), s.moverRuns = true ∧ s.runsClassD = true ∧ s.fld
      fld_MEM_MOVE_CFG_SCRUB_MBS ≠ 0 ∧ s.dataBytes ≠ 0 ∧ (if (s.dramPlace s.mem.scrub).interface = 0 then s.flag fld_MEM_CFG_IF0_EN else s.flag
      fld_MEM_CFG_IF1_EN) = true ∧ s.ownerOf s.mem.scrub = some (id, off) ∧ Store.get .good s.mem.bad (memKey id (off / 32)) = .good ∧ checkWord
      (s.memBytes id off 32) (dramTag (s.mem.scrub / 32)) e = .corrected p v) :=
    ⟨⟨9, 0x40000005, (readyTile 2 true).setFlag fld_MEM_STATUS_DIR_READY false, by decide +kernel⟩,
      ⟨9, 5, 2, [7], ⟨⟨some 3, 5, .promote 1 false⟩, 1, [], none, [0], [], 4, none⟩, moving 5 (tileObj 2 false) ⟨⟨some 3, 5, .promote 1 false⟩, 1, [],
     none, [0], [], 4, none⟩, by decide +kernel⟩,
      ⟨9, 5, 2, [7], ⟨⟨some 3, 5, .promote 1 false⟩, 1, [], none, [], [], 1, none⟩, tileObj 2 false, moving 5 (tileObj 2 false) ⟨⟨some 3, 5, .promote
     1 false⟩, 1, [], none, [], [], 1, none⟩, by decide +kernel⟩,
      ⟨0x40000005, 2, [7], tileObj 3 false, nandUp (readyTile 3 false), by decide +kernel⟩,
      ⟨9, 5, 1, [(4, 9)], 4, 9, { tileObj 2 false with pages := [0] }, memory [(5, { tileObj 2 false with pages := [0] })], by decide +kernel⟩,
      ⟨9, 5, 1, badWord, false, { tileObj 2 false with pages := [0] }, memory [(5, { tileObj 2 false with pages := [0] })], by decide +kernel⟩,
      ⟨9, 5, 0, tileObj 2 false, marking (memory [(5, tileObj 2 false)]), by decide +kernel⟩,
      ⟨State.reset, by decide +kernel⟩,
      ⟨[(4, 9)], 5, 0, 4, 9, scrubbing [(5, { tileObj 2 false with pages := [0] })], by decide +kernel⟩⟩

theorem witness_MemoryKeepsItsObjects_4 :
        (∃ (e : SymbolErrors) (id : Nat) (off : Nat) (loc : Bool) (s : State), s.moverRuns = true ∧ s.runsClassD = true ∧ s.fld
      fld_MEM_MOVE_CFG_SCRUB_MBS ≠ 0 ∧ s.dataBytes ≠ 0 ∧ (if (s.dramPlace s.mem.scrub).interface = 0 then s.flag fld_MEM_CFG_IF0_EN else s.flag
      fld_MEM_CFG_IF1_EN) = true ∧ s.ownerOf s.mem.scrub = some (id, off) ∧ Store.get .good s.mem.bad (memKey id (off / 32)) = .good ∧ checkWord
      (s.memBytes id off 32) (dramTag (s.mem.scrub / 32)) e = .uncorrectable loc) ∧
        (∃ (w : Fin 48) (a : Nat) (e : SymbolErrors) (s : State), ((s.swatchRuns w = false ∨ (Store.get .good s.sramBad (sramKey w (a / 32)) = .good ∧
      selvedgeCheck e = .clean)))) ∧
        (∃ (w : Fin 48) (a : Nat) (s : State), s.swatchRuns w = true ∧ Store.get .good s.sramBad (sramKey w (a / 32)) ≠ .good) ∧
        (∃ (s : State), ((s.moverRuns = false ∨ s.dozing = true ∨ s.flag fld_SYS_LOCK_LOCKED = false ∨ s.dirReady = true ∨ s.tileRegionBad = true))) ∧
        (∃ (c : Fin 16) (s : State), ((s.moverRuns = false ∨ s.runsClassD = false ∨ (s.fewErased c || s.waitsForRun c) = false ∨ s.power.nandHeld =
      true ∨ s.channelReady (tileId c) tierFlash = false ∨ s.reclaimBlock c = none))) ∧
        (∃ (c : Fin 16) (b : Nat) (id : Nat) (r : TileRecord) (o : MemObject) (s : State), s.moverRuns = true ∧ s.runsClassD = true ∧ (s.fewErased c
      || s.waitsForRun c) = true ∧ s.power.nandHeld = false ∧ s.channelReady (tileId c) tierFlash = true ∧ s.reclaimBlock c = some b ∧ s.mem.waiting =
      [] ∧ s.liveRecords c = [(id, r)] ∧ r.first < (b + 1) * s.nandPages ∧ b * s.nandPages < r.first + recordPages r.size ∧ s.object id = some o ∧
      s.runStarts c (recordPages r.size) (some b) ≠ []) :=
    ⟨⟨badWord, 5, 0, false, scrubbing [(5, { tileObj 2 false with pages := [0] })], by decide +kernel⟩,
      ⟨9, 64, [], memory [], by decide +kernel⟩,
      ⟨9, 64, { memory [] with sramBad := [(sramKey 9 2, .ue)] }, by decide +kernel⟩,
      ⟨State.reset, by decide +kernel⟩,
      ⟨0, State.reset, by decide +kernel⟩,
      ⟨5, 0, 0x40000005, ⟨7, 16384, 15⟩, { tileObj 3 false with record := some ⟨7, 16384, 15⟩ }, reclaiming [(0x40000005,
     { tileObj 3 false with record := some ⟨7, 16384, 15⟩ })], by decide +kernel⟩⟩

theorem witness_TrackUpdatesEndAsTheyShould :
        (∃ (object : Bool) (set : Fin 12) (u : TrackUpdate) (s : State), s.swatchRuns trackSwatch = true ∧ s.trackUpdate object set = some u ∧
      s.track.updates.filter u.same = [u]) ∧
        (∃ (set : Fin 12) (u : TrackUpdate) (s : State), s.swatchRuns trackSwatch = true ∧ s.trackUpdate false set = some u) ∧
        (∃ (set : Fin 8) (u : TrackUpdate) (s : State), s.swatchRuns trackSwatch = true ∧ s.trackUpdate true set = some u ∧ u.pairs = none) ∧
        (∃ (set : Fin 8) (u : TrackUpdate) (pairs : List (Option Nat)) (s : State), s.swatchRuns trackSwatch = true ∧ s.trackUpdate true set = some u
      ∧ u.pairs = some pairs) ∧
        (∃ (object : Bool) (set : Fin 12) (u : TrackUpdate) (v : TrackUpdate) (s : State), s.swatchRuns trackSwatch = true ∧ s.track.updates.filter
      (fun w => w.object == object && w.set == set.val) = [u, v] ∧ u.same v = false ∧ v.started = false ∧ ((∀ x, (s.setState object set).lastTov =
      some x → x < v.tov))) ∧
        (∃ (object : Bool) (set : Fin 12) (s : State), ((s.swatchRuns trackSwatch = false ∨ s.trackUpdate object set = none))) ∧
        (∃ (set : Fin 12) (s : State), ((s.swatchRuns trackSwatch = false ∨ s.trackUpdate false set = none))) ∧
        (∃ (set : Fin 8) (s : State), ((s.swatchRuns trackSwatch = false ∨ ∀ u, s.trackUpdate true set = some u → u.pairs ≠ none))) ∧
        (∃ (set : Fin 8) (s : State), ((s.swatchRuns trackSwatch = false ∨ ∀ u, s.trackUpdate true set = some u → u.pairs = none))) :=
    ⟨⟨true, 3, update true, updating (update true), by decide +kernel⟩,
      ⟨3, update false, updating (update false), by decide +kernel⟩,
      ⟨3, update true, updating (update true), by decide +kernel⟩,
      ⟨3, { update true with pairs := some [] }, [], updating { update true with pairs := some [] }, by decide +kernel⟩,
      ⟨true, 3, update true, { update true with activation := 6, started := false, tov := 200000 },
     { up with track := { Tracking.reset with updates := [update true, { update true with activation := 6, started := false, tov := 200000 }] } },
     by decide +kernel, by decide +kernel, by decide +kernel, by decide +kernel, forall_some (by decide +kernel)⟩,
      ⟨false, 0, State.reset, by decide +kernel⟩,
      ⟨0, State.reset, by decide +kernel⟩,
      ⟨0, State.reset, Or.inl (by decide +kernel)⟩,
      ⟨0, State.reset, Or.inl (by decide +kernel)⟩⟩

theorem witness_SolverQueuesStartsAndStops :
        (∃ (k : Fin 8) (s : State), s.unjudged 0 k = true ∧ s.castAt .applied = true ∧ s.recordsComplete 0 = true ∧ s.applyStaged.paired = false ∧
      s.applyStaged.unjudged 0 k = true ∧ (List.range k.val).all (fun j => !s.applyStaged.unjudged 0 j) = true) ∧
        (∃ (s : State), s.swatchRuns (solverSwatch 1) = true ∧ s.admitsClassC = true) ∧
        (∃ (k : Fin 8) (d : Word) (v : Word) (s : State), s.swatchRuns (solverSwatch 1) = true ∧ s.admitsClassC = true ∧ s.solv.loading = none ∧
      s.slotNamed k = false ∧ s.classASlot 1 k = false ∧ s.mem.pins = [] ∧ d ≠ v ∧ s.evicting d.toNat = false ∧ s.evicting v.toNat = false) ∧
        (∃ (l : SolverLoad) (s : State), s.swatchRuns (solverSwatch 1) = true ∧ s.solv.loading = some l) ∧
        (∃ (s : State), s.swatchRuns (solverSwatch 1) = true ∧ s.admitsWork = true ∧ 16 ≤ s.solv.queue.length) ∧
        (∃ (b : List Byte) (s : State), s.swatchRuns (solverSwatch 1) = true ∧ s.admitsWork = true ∧ s.solv.queue.length < 16 ∧ (readRequest b).slot <
      8 ∧ (s.solverSlot 1 (readRequest b).slot).code = codeResident) ∧
        (∃ (r : SolverRequest) (q : List (SolverTask × SolverRequest)) (st : Structure) (s : State), s.problem 1 = none ∧ s.solv.suspended = none ∧
      s.swatchRuns (solverSwatch 1) = true ∧ s.classAHolds = false ∧ s.admitsWork = true ∧ s.solv.queue = (.marginal, r) :: q ∧ s.structureOf 1 r.slot
      = some st ∧ s.stamp < r.deadline ∧ r.wantsWarm = false ∧ s.mem.bad = []) ∧
        (∃ (r : SolverRequest) (q : List (SolverTask × SolverRequest)) (st : Structure) (s : State), s.problem 1 = none ∧ s.solv.suspended = none ∧
      s.swatchRuns (solverSwatch 1) = true ∧ s.classAHolds = false ∧ s.admitsWork = true ∧ s.solv.queue = (.map, r) :: q ∧ s.structureOf 1 r.slot =
      some st ∧ r.deadline ≤ s.stamp) ∧
        (∃ (p : Problem) (st : Structure) (s : State), s.swatchRuns (solverSwatch 1) = true ∧ s.solv.suspended = none ∧ s.problem 1 = some p ∧ p.task
      = .map ∧ s.structureOf 1 p.request.slot = some st ∧ p.phase ≤ 1) :=
    ⟨⟨2,
    ({ casting .applied with cast := { (casting .applied).cast with slot := some false, skein := some ⟨0, 0, 0, 0, 0, false, false, 0, [], [], []⟩, regsChecked := true } }).loadObj
    13 3 0 [1, 2, 3], by decide +kernel⟩,
      ⟨up, by decide +kernel⟩,
      ⟨2, 5, 6, up, by decide +kernel⟩,
      ⟨⟨2, 5, 6, true⟩, { up with solv := { Solvers.reset with loading := some ⟨2, 5, 6, true⟩ } }, by decide +kernel⟩,
      ⟨queueing 16 .map request, by decide +kernel⟩,
      ⟨[2], queueing 15 .map request, by decide +kernel⟩,
      ⟨request, [(.map, request)], one,
     { queueing 0 .map request with solv := { (queueing 0 .map request).solv with queue := [(.marginal, request), (.map, request)] } },
     by decide +kernel⟩,
      ⟨{ request with deadline := 0 }, [], one, queueing 1 .map { request with deadline := 0 }, by decide +kernel⟩,
      ⟨problem0 .assembly one, one, solving 1 one none (problem0 .assembly one), by decide +kernel⟩⟩

theorem witness_SolverQueuesStartsAndStops_2 :
        (∃ (p : Problem) (s : State), s.swatchRuns (solverSwatch 1) = true ∧ s.classAHolds = true ∧ s.problem 1 = some p ∧ p.task ≠ .classA) ∧
        (∃ (x : StopPoint) (s : State), s.swatchRuns (solverSwatch 1) = true ∧ s.solv.stopPoint = some x ∧ s.problem 1 = none) ∧
        (∃ (w : PeriodWork) (a : SolverResult) (b : SolverResult) (s : State), s.clsA.work = some w ∧ w.compared = false ∧ s.paired = true ∧
      s.solv.suspended = none ∧ Store.get none s.solv.formed 0 = some a ∧ Store.get none s.solv.formed 1 = some b ∧ a.compared = b.compared) ∧
        (∃ (w : PeriodWork) (a : SolverResult) (b : SolverResult) (s : State), s.clsA.work = some w ∧ w.compared = false ∧ s.paired = true ∧
      s.solv.suspended = none ∧ Store.get none s.solv.formed 0 = some a ∧ Store.get none s.solv.formed 1 = some b ∧ a.compared ≠ b.compared) ∧
        (∃ (c : Fin 2) (k : Fin 8) (s : State), s.unjudged c k = true ∧ s.castAt .sections = false ∧ s.castAt .applied = false ∧ s.coreRestoring c =
      true ∧ (List.range k.val).all (fun j => !s.unjudged c j) = true ∧ (List.range 8).any (fun j => j != k.val && s.unjudged c j) = true) ∧
        (∃ (c : Fin 2) (k : Fin 8) (s : State), s.unjudged c k = true ∧ s.castAt .sections = false ∧ s.castAt .applied = false ∧ s.coreRestoring c =
      true ∧ s.paired = false ∧ (List.range 8).all (fun j => j == k.val || !s.unjudged c j) = true ∧ s.descriptor c k ≠ []) ∧
        (∃ (c : Fin 2) (k : Fin 8) (s : State), ((s.unjudged c k = false ∨ (((s.castAt .sections = false ∧ s.castAt .applied = false) ∨
      s.recordsComplete c = false) ∧ s.coreRestoring c = false)))) ∧
        (∃ (s : State), ((s.swatchRuns (solverSwatch 1) = false ∨ s.admitsClassC = false))) ∧
        (∃ (k : Fin 8) (d : Word) (s : State), s.swatchRuns (solverSwatch 1) = true ∧ s.admitsClassC = true ∧ ((s.solv.loading ≠ none ∨ s.slotNamed k
      = true ∨ s.classASlot 1 k = true ∨ 255 ≤ s.pinCount d.toNat))) :=
    ⟨⟨problem0 .assembly one, { (solving 1 one none (problem0 .assembly one)).setFlag fld_CLA_CTRL_PAIRED true with clsA := (working work0).clsA },
    by decide +kernel⟩,
      ⟨⟨3, 40, true, false⟩, { up with solv := { Solvers.reset with stopPoint := some ⟨3, 40, true, false⟩ } }, by decide +kernel⟩,
      ⟨work0, result0 1, { result0 1 with brown := true }, pairing (result0 1) { result0 1 with brown := true }, by decide +kernel⟩,
      ⟨work0, result0 1, result0 2, pairing (result0 1) (result0 2), by decide +kernel⟩,
      ⟨0, 2, ((up.loadObj 13 3 0 [1, 2, 3]).loadObj 13 5 0 [1, 2, 3]).setGroupPhase (groupOf (solverSwatch 0)) .restoring, by decide +kernel⟩,
      ⟨0, 2, (up.loadObj 13 3 0 [1, 2, 3]).setGroupPhase (groupOf (solverSwatch 0)) .restoring, by decide +kernel⟩,
      ⟨0, 0, State.reset, by decide +kernel⟩,
      ⟨State.reset, by decide +kernel⟩,
      ⟨2, 5, queueing 1 .map request, by decide +kernel⟩⟩

theorem witness_SolverQueuesStartsAndStops_3 :
        (∃ (k : Fin 8) (d : Word) (v : Word) (s : State), s.swatchRuns (solverSwatch 1) = true ∧ s.admitsClassC = true ∧ s.solv.loading = none ∧
      s.slotNamed k = false ∧ s.classASlot 1 k = false ∧ (∀ p ∈ s.mem.pins, p.object ≠ d.toNat ∧ p.object ≠ v.toNat) ∧ s.mem.pins.length + 2 ≤ 4096) ∧
        (∃ (s : State), ((s.swatchRuns (solverSwatch 1) = false ∨ s.solv.loading = none))) ∧
        (∃ (b : List Byte) (s : State), s.swatchRuns (solverSwatch 1) = true ∧ s.admitsWork = true ∧ ((16 ≤ s.solv.queue.length ∨ 8 ≤ (readRequest
      b).slot ∨ (s.solverSlot 1 (readRequest b).slot).code ≠ codeResident))) ∧
        (∃ (s : State), ((s.swatchRuns (solverSwatch 1) = false ∨ s.admitsWork = false))) ∧
        (∃ (s : State), ((s.problem 1 ≠ none ∨ s.solv.suspended ≠ none ∨ s.swatchRuns (solverSwatch 1) = false ∨ s.classAHolds = true ∨ s.admitsWork =
      false ∨ s.solv.queue.find? s.requestStarts = none))) ∧
        (∃ (r : SolverRequest) (q : List (SolverTask × SolverRequest)) (st : Structure) (s : State), s.problem 1 = none ∧ s.solv.suspended = none ∧
      s.swatchRuns (solverSwatch 1) = true ∧ s.classAHolds = false ∧ s.admitsClassC = true ∧ s.admitsWork = true ∧ s.solv.queue = (.map, r) :: q ∧
      s.structureOf 1 r.slot = some st ∧ s.stamp < r.deadline) ∧
        (∃ (r : SolverRequest) (q : List (SolverTask × SolverRequest)) (st : Structure) (s : State), s.problem 1 = none ∧ s.solv.suspended = none ∧
      s.swatchRuns (solverSwatch 1) = true ∧ s.classAHolds = false ∧ s.admitsWork = true ∧ s.solv.queue = (.window, r) :: q ∧ s.structureOf 1 r.slot =
      some st ∧ s.stamp < r.deadline) ∧
        (∃ (r : SolverRequest) (q : List (SolverTask × SolverRequest)) (st : Structure) (s : State), s.problem 1 = none ∧ s.solv.suspended = none ∧
      s.swatchRuns (solverSwatch 1) = true ∧ s.classAHolds = false ∧ s.admitsWork = true ∧ s.solv.queue = (.marginal, r) :: q ∧ s.structureOf 1 r.slot
      = some st ∧ s.stamp < r.deadline ∧ r.wantsWarm = true ∧ s.memNat r.warmObj 8 8 ≠ st.signature ∧ s.mem.bad = []) ∧
        (∃ (c : Fin 2) (s : State), s.swatchRuns (solverSwatch c) = false) :=
    ⟨⟨0, 0, 0, up, by decide +kernel⟩,
      ⟨State.reset, by decide +kernel⟩,
      ⟨[], up, by decide +kernel⟩,
      ⟨State.reset, by decide +kernel⟩,
      ⟨State.reset, by decide +kernel⟩,
      ⟨request, [], one, queueing 1 .map request, by decide +kernel⟩,
      ⟨request, [], one, queueing 1 .window request, by decide +kernel⟩,
      ⟨{ request with flags := 2, warmObj := 5 }, [], one, queueing 1 .marginal { request with flags := 2, warmObj := 5 }, by decide +kernel⟩,
      ⟨0, State.reset, by decide +kernel⟩⟩

theorem witness_SolverQueuesStartsAndStops_4 :
        (∃ (s : State), s.otherProblem = none) ∧
        (∃ (p : Problem) (st : Structure) (s : State), s.swatchRuns (solverSwatch 1) = true ∧ s.solv.suspended = some p ∧ p.task = .map ∧
      s.structureOf 1 p.request.slot = some st ∧ p.phase ≤ 1) ∧
        (∃ (p : Problem) (st : Structure) (s : State), s.swatchRuns (solverSwatch 1) = true ∧ s.solv.suspended = none ∧ s.problem 1 = some p ∧ p.task
      = .map ∧ s.structureOf 1 p.request.slot = some st ∧ p.phase = 2 ∧ st.doubleFactor = false) ∧
        (∃ (p : Problem) (st : Structure) (s : State), s.swatchRuns (solverSwatch 1) = true ∧ s.solv.suspended = none ∧ s.problem 1 = some p ∧ p.task
      = .map ∧ s.structureOf 1 p.request.slot = some st ∧ 3 ≤ p.phase) ∧
        (∃ (s : State), ((∀ w, s.clsA.work = some w → w.ready = true))) ∧
        (∃ (w : PeriodWork) (p : Problem) (st : Structure) (s : State), s.swatchRuns (solverSwatch 0) = true ∧ s.clsA.work = some w ∧ w.ready = false
      ∧ w.published = true ∧ s.classAProblem 0 = some (p, st) ∧ s.paired = false ∧ p.phase ≤ 1) ∧
        (∃ (w : PeriodWork) (p : Problem) (st : Structure) (s : State), s.swatchRuns (solverSwatch 0) = true ∧ s.clsA.work = some w ∧ w.ready = false
      ∧ w.published = true ∧ s.classAProblem 0 = some (p, st) ∧ s.paired = true) ∧
        (∃ (s : State), ((s.classAHolds = false ∨ s.swatchRuns (solverSwatch 1) = false ∨ ∀ p, s.problem 1 = some p → p.task = .classA))) ∧
        (∃ (s : State), ((s.swatchRuns (solverSwatch 1) = false ∨ s.solv.stopPoint = none))) :=
    ⟨⟨State.reset, by decide +kernel⟩,
      ⟨problem0 .assembly one, one, { core 1 one none with solv := { (core 1 one none).solv with suspended := some (problem0 .assembly one) } },
     by decide +kernel⟩,
      ⟨{ problem0 .factor one with phase := 2 }, one, solving 1 one (some factor4) { problem0 .factor one with phase := 2 }, by decide +kernel⟩,
      ⟨{ problem0 .solve one with phase := 3 }, one, solving 1 one (some factor4) { problem0 .solve one with phase := 3 }, by decide +kernel⟩,
      ⟨State.reset, forall_some (by decide +kernel)⟩,
      ⟨{ work0 with published := true }, { problem0 .assembly one with task := .classA }, one,
     { solving 0 one none { problem0 .assembly one with task := .classA } with clsA := (working { work0 with published := true }).clsA },
     by decide +kernel⟩,
      ⟨{ work0 with published := true }, { problem0 .assembly one with task := .classA }, one,
     { (solving 0 one none { problem0 .assembly one with task := .classA }).setFlag fld_CLA_CTRL_PAIRED true with clsA := (working { work0 with published := true }).clsA },
     by decide +kernel⟩,
      ⟨State.reset, Or.inl (by decide +kernel)⟩,
      ⟨State.reset, by decide +kernel⟩⟩

theorem witness_SolverQueuesStartsAndStops_5 :
        (∃ (x : StopPoint) (p : Problem) (st : Structure) (s : State), s.swatchRuns (solverSwatch 1) = true ∧ s.solv.stopPoint = some x ∧ s.problem 1
      = some p ∧ s.structureOf 1 p.request.slot = some st ∧ p.task = .classA ∧ x.steps ≤ p.steps ∧ ((x.proved = true → s.usedProved 1 st p = true))) ∧
        (∃ (x : StopPoint) (p : Problem) (s : State), s.swatchRuns (solverSwatch 1) = true ∧ s.solv.stopPoint = some x ∧ s.problem 1 = some p ∧
      ((p.task ≠ .classA ∨ p.steps < x.steps))) ∧
        (∃ (s : State), ((s.clsA.work = none ∨ Store.get none s.solv.formed 0 = none ∨ Store.get none s.solv.formed 1 = none ∨ s.paired = false ∨ ∃ w,
      s.clsA.work = some w ∧ w.compared = true))) ∧
        (∃ (w : PeriodWork) (a : SolverResult) (b : SolverResult) (p : Problem) (s : State), s.clsA.work = some w ∧ w.compared = false ∧ s.paired =
      true ∧ s.solv.suspended = some p ∧ s.problem 1 = none ∧ Store.get none s.solv.formed 0 = some a ∧ Store.get none s.solv.formed 1 = some b) :=
    ⟨⟨⟨1, 0, false, false⟩, { problem0 .assembly one with task := .classA }, one, stopping { problem0 .assembly one with task := .classA } ⟨1, 0,
    false, false⟩, by decide +kernel⟩,
      ⟨⟨1, 5, false, false⟩, { problem0 .assembly one with task := .classA }, stopping { problem0 .assembly one with task := .classA } ⟨1, 5, false,
     false⟩, by decide +kernel⟩,
      ⟨State.reset, Or.inl (by decide +kernel)⟩,
      ⟨work0, result0 1, result0 1, problem0 .assembly one,
     { pairing (result0 1) (result0 1) with solv := { (pairing (result0 1) (result0 1)).solv with suspended := some (problem0 .assembly one) } },
     by decide +kernel⟩⟩

theorem witness_SolverUnitsLeadOneToTheNext :
        (∃ (c : Fin 2) (p : Problem) (st : Structure) (s : State), s.atStage c .assembly = some (p, st) ∧ ((p.task ≠ .classA ∨ s.solv.stopPoint =
      none)) ∧ p.request.feed = 0 ∧ st.kind ≠ kindNls) ∧
        (∃ (c : Fin 2) (p : Problem) (st : Structure) (f : Factor) (s : State), s.atStage c .factor = some (p, st) ∧ ((p.task ≠ .classA ∨
      s.solv.stopPoint = none)) ∧ st.factorise (s.workingMatrix c st p).1 (s.workingMatrix c st p).2 (s.pivotExp c p) = .ok f) ∧
        (∃ (c : Fin 2) (p : Problem) (st : Structure) (j : Nat) (s : State), s.atStage c .factor = some (p, st) ∧ p.task = .map ∧ st.factorise
      (s.workingMatrix c st p).1 (s.workingMatrix c st p).2 (s.pivotExp c p) = .error j) ∧
        (∃ (c : Fin 2) (p : Problem) (st : Structure) (f : Factor) (s : State), s.atStage c .solve = some (p, st) ∧ ((p.task ≠ .classA ∨
      s.solv.stopPoint = none)) ∧ (s.solverSlot c p.request.slot).factor = some f ∧ allFinite (st.solve f (s.solveRhs c st p)) = true) ∧
        (∃ (c : Fin 2) (p : Problem) (st : Structure) (v : Solve) (l : List Solve) (s : State), s.swatchRuns (solverSwatch c) = true ∧ s.problem c =
      some p ∧ p.task ≠ .classA ∧ s.structureOf c p.request.slot = some st ∧ p.proofs = v :: l ∧ v.etaCheck.le (tolerance (s.fld
      (fld_SOLV_CFG_PROOF_EXP c))) = true) ∧
        (∃ (c : Fin 2) (p : Problem) (st : Structure) (v : Solve) (l : List Solve) (s : State), s.swatchRuns (solverSwatch c) = true ∧ s.problem c =
      some p ∧ p.task = .map ∧ s.structureOf c p.request.slot = some st ∧ p.proofs = v :: l ∧ v.etaCheck.le (tolerance (s.fld (fld_SOLV_CFG_PROOF_EXP
      c))) = false) ∧
        (∃ (c : Fin 2) (p : Problem) (st : Structure) (v : Solve) (s : State), s.atStage c .judge = some (p, st) ∧ ((p.task ≠ .classA ∨
      s.solv.stopPoint = none)) ∧ p.last = some v ∧ st.kind = kindQp ∧ ((s.slotQp c st p).advance p.cur v.sol).finite = true) ∧
        (∃ (c : Fin 2) (p : Problem) (st : Structure) (v : Solve) (s : State), s.atStage c .final = some (p, st) ∧ ((p.task ≠ .classA ∨
      s.solv.stopPoint = none)) ∧ p.finalSolve st.kind = some v ∧ s.refined c p v = false) ∧
        (∃ (c : Fin 2) (p : Problem) (st : Structure) (v : Solve) (s : State), s.atStage c .final = some (p, st) ∧ p.task = .map ∧ p.finalSolve
      st.kind = some v ∧ s.refined c p v = true ∧ st.kind = kindLinear ∧ p.warmRejected = false ∧ v.etaCheck.le (tolerance (s.fld
      (fld_SOLV_CFG_CHECK_EXP c))) = true) :=
    ⟨⟨1, problem0 .assembly one, one, solving 1 one none (problem0 .assembly one), by decide +kernel⟩,
      ⟨1, problem0 .factor one, one, factor4, solving 1 one none (problem0 .factor one), by decide +kernel, by decide +kernel, ok_of_check
     (by decide +kernel)⟩,
      ⟨1, problem0 .factor { one with n1 := 0 }, { one with n1 := 0 }, 0, solving 1 { one with n1 := 0 } none (problem0 .factor { one with n1 := 0 }),
     by decide +kernel, by decide +kernel, error_of_check (by decide +kernel)⟩,
      ⟨1, problem0 .solve one, one, factor4, solving 1 one (some factor4) (problem0 .solve one), by decide +kernel⟩,
      ⟨1, { problem0 .proof one with proofs := [solved 2] }, one, solved 2, [], solving 1 one (some factor4)
     { problem0 .proof one with proofs := [solved 2] }, by decide +kernel⟩,
      ⟨1, { problem0 .proof one with proofs := [solved 3] }, one, solved 3, [], solving 1 one (some factor4)
     { problem0 .proof one with proofs := [solved 3] }, by decide +kernel⟩,
      ⟨1, { problem0 .judge oneQp with last := some (solved 2) }, oneQp, solved 2, solving 1 oneQp (some factor4)
     { problem0 .judge oneQp with last := some (solved 2) }, by decide +kernel⟩,
      ⟨1, { problem0 .final one with last := some (solved 3) }, one, solved 3, solving 1 one (some factor4)
     { problem0 .final one with last := some (solved 3) }, by decide +kernel⟩,
      ⟨1, { problem0 .final one with last := some (solved 2) }, one, solved 2, solving 1 one (some factor4)
     { problem0 .final one with last := some (solved 2) }, by decide +kernel⟩⟩

theorem witness_SolverUnitsLeadOneToTheNext_2 :
        (∃ (c : Fin 2) (p : Problem) (st : Structure) (v : Solve) (s : State), s.atStage c .final = some (p, st) ∧ p.task = .map ∧ p.finalSolve
      st.kind = some v ∧ s.refined c p v = true ∧ v.etaCheck.le (tolerance (s.fld (fld_SOLV_CFG_CHECK_EXP c))) = false) ∧
        (∃ (c : Fin 2) (p : Problem) (st : Structure) (s : State), s.atStage c .assembly = some (p, st) ∧ p.task ≠ .classA ∧ p.request.feed = 1 ∧
      st.kind ≠ kindNls) ∧
        (∃ (c : Fin 2) (p : Problem) (st : Structure) (s : State), s.atStage c .assembly = some (p, st) ∧ p.task ≠ .classA ∧ p.request.feed = 2 ∧
      st.kind ≠ kindNls) ∧
        (∃ (c : Fin 2) (p : Problem) (st : Structure) (s : State), s.atStage c .assembly = some (p, st) ∧ ((p.task ≠ .classA ∨ s.solv.stopPoint =
      none)) ∧ st.kind = kindNls) ∧
        (∃ (c : Fin 2) (p : Problem) (st : Structure) (j : Nat) (s : State), s.atStage c .factor = some (p, st) ∧ st.factorise (s.workingMatrix c st
      p).1 (s.workingMatrix c st p).2 (s.pivotExp c p) = .error j) ∧
        (∃ (c : Fin 2) (p : Problem) (st : Structure) (f : Factor) (s : State), s.atStage c .solve = some (p, st) ∧ p.task = .map ∧ (s.solverSlot c
      p.request.slot).factor = some f ∧ allFinite (st.solve f (s.solveRhs c st p)) = false) ∧
        (∃ (c : Fin 2) (p : Problem) (st : Structure) (v : Solve) (l : List Solve) (s : State), s.swatchRuns (solverSwatch c) = true ∧ s.problem c =
      some p ∧ p.task = .classA ∧ s.solv.stopPoint = none ∧ s.mayProve c p = true ∧ s.structureOf c p.request.slot = some st ∧ p.proofs = v :: l ∧
      v.etaCheck.le (tolerance (s.fld (fld_SOLV_CFG_PROOF_EXP 0))) = true) ∧
        (∃ (c : Fin 2) (p : Problem) (st : Structure) (v : Solve) (s : State), s.atStage c .judge = some (p, st) ∧ p.task = .map ∧ p.last = some v ∧
      st.kind = kindQp ∧ ((s.slotQp c st p).advance p.cur v.sol).finite = false) ∧
        (∃ (c : Fin 2) (p : Problem) (st : Structure) (v : Solve) (s : State), s.atStage c .judge = some (p, st) ∧ p.task = .map ∧ p.last = some v ∧
      st.kind = kindNls ∧ (s.costAt (s.modelOf p) (s.retract (s.modelOf p) p.point v.sol)).finite = true ∧ (s.costAt (s.modelOf p) (s.retract
      (s.modelOf p) p.point v.sol)).lt p.cost = true) :=
    ⟨⟨1, { problem0 .final one with last := some (solved 3), refineSteps := 100 }, one, solved 3, solving 1 one (some factor4)
    { problem0 .final one with last := some (solved 3), refineSteps := 100 }, by decide +kernel⟩,
      ⟨1, { problem0 .assembly one with request := { request with feed := 1, feedObj := 5, deltaCount := 1 } }, one, solving 1 one none
     { problem0 .assembly one with request := { request with feed := 1, feedObj := 5, deltaCount := 1 } }, by decide +kernel⟩,
      ⟨1, { problem0 .assembly one with request := { request with feed := 2, feedObj := 5 } }, one, solving 1 one none
     { problem0 .assembly one with request := { request with feed := 2, feedObj := 5 } }, by decide +kernel⟩,
      ⟨1, problem0 .assembly oneNls, oneNls, solving 1 oneNls none (problem0 .assembly oneNls), by decide +kernel⟩,
      ⟨1, problem0 .factor { one with n1 := 0 }, { one with n1 := 0 }, 0, solving 1 { one with n1 := 0 } none (problem0 .factor { one with n1 := 0 }),
     by decide +kernel, error_of_check (by decide +kernel)⟩,
      ⟨1, problem0 .solve one, one, ⟨[.num 0 false], [[]], [], false⟩, solving 1 one (some ⟨[.num 0 false], [[]], [], false⟩) (problem0 .solve one),
     by decide +kernel⟩,
      ⟨1, { problem0 .proof one with proofs := [solved 2], task := .classA }, one, solved 2, [], solving 1 one (some factor4)
     { problem0 .proof one with proofs := [solved 2], task := .classA }, by decide +kernel⟩,
      ⟨1, { problem0 .judge oneQp with last := some { solved 2 with sol := [.nan] } }, oneQp, { solved 2 with sol := [.nan] }, solving 1 oneQp (some
     factor4) { problem0 .judge oneQp with last := some { solved 2 with sol := [.nan] } }, by decide +kernel⟩,
      ⟨1, { problem0 .judge oneNls with last := some (solved 2), cost := four, lambda := four }, oneNls, solved 2, solving 1 oneNls (some factor4)
     { problem0 .judge oneNls with last := some (solved 2), cost := four, lambda := four }, by decide +kernel⟩⟩

theorem witness_SolverUnitsLeadOneToTheNext_3 :
        (∃ (c : Fin 2) (p : Problem) (st : Structure) (v : Solve) (s : State), s.atStage c .judge = some (p, st) ∧ p.task = .map ∧ p.last = some v ∧
      st.kind = kindNls ∧ (s.costAt (s.modelOf p) (s.retract (s.modelOf p) p.point v.sol)).finite = true ∧ (s.costAt (s.modelOf p) (s.retract
      (s.modelOf p) p.point v.sol)).lt p.cost = false ∧ lambdaMax.lt (fp32.mul (Fp.ofRat 8) p.lambda) = false ∧ p.iterations + 1 < p.iterCap ∧
      p.refactors < p.request.refactMax) ∧
        (∃ (c : Fin 2) (p : Problem) (st : Structure) (v : Solve) (s : State), s.atStage c .final = some (p, st) ∧ p.task = .map ∧ p.finalSolve
      st.kind = some v ∧ s.refined c p v = true ∧ st.kind = kindLinear ∧ p.warmRejected = true ∧ v.etaCheck.le (tolerance (s.fld
      (fld_SOLV_CFG_CHECK_EXP c))) = true) ∧
        (∃ (c : Fin 2) (p : Problem) (st : Structure) (v : Solve) (s : State), s.atStage c .final = some (p, st) ∧ p.task = .map ∧ p.finalSolve
      st.kind = some v ∧ s.refined c p v = true ∧ st.kind = kindQp ∧ v.etaCheck.le (tolerance (s.fld (fld_SOLV_CFG_CHECK_EXP c))) = true ∧ p.cert = 0
      ∧ ((s.slotQp c st p).advance p.prev v.sol).finite = true) ∧
        (∃ (c : Fin 2) (p : Problem) (st : Structure) (v : Solve) (s : State), s.atStage c .final = some (p, st) ∧ p.task = .map ∧ p.finalSolve
      st.kind = some v ∧ s.refined c p v = true ∧ st.kind = kindNls ∧ v.etaCheck.le (tolerance (s.fld (fld_SOLV_CFG_CHECK_EXP c))) = true ∧
      p.request.trail kindNls = 0) ∧
        (∃ (c : Fin 2) (s : State), s.atStage c .assembly = none) ∧
        (∃ (c : Fin 2) (s : State), s.atStage c .factor = none) ∧
        (∃ (c : Fin 2) (s : State), s.atStage c .solve = none) ∧
        (∃ (c : Fin 2) (s : State), s.atStage c .judge = none) ∧
        (∃ (c : Fin 2) (s : State), s.atStage c .final = none) :=
    ⟨⟨1, { problem0 .judge oneNls with last := some (solved 2), cost := Fp.zero, lambda := four }, oneNls, solved 2, solving 1 oneNls (some factor4)
    { problem0 .judge oneNls with last := some (solved 2), cost := Fp.zero, lambda := four }, by decide +kernel⟩,
      ⟨1, { problem0 .final one with last := some (solved 2), warmRejected := true }, one, solved 2, solving 1 one (some factor4)
     { problem0 .final one with last := some (solved 2), warmRejected := true }, by decide +kernel⟩,
      ⟨1, { problem0 .final oneQp with last := some (solved 2) }, oneQp, solved 2, solving 1 oneQp (some factor4)
     { problem0 .final oneQp with last := some (solved 2) }, by decide +kernel⟩,
      ⟨1, { problem0 .final oneNls with kept := some (solved 2) }, oneNls, solved 2, solving 1 oneNls (some factor4)
     { problem0 .final oneNls with kept := some (solved 2) }, by decide +kernel⟩,
      ⟨1, up, by decide +kernel⟩,
      ⟨0, State.reset, by decide +kernel⟩,
      ⟨0, State.reset, by decide +kernel⟩,
      ⟨0, State.reset, by decide +kernel⟩,
      ⟨1, up, by decide +kernel⟩⟩

theorem witness_SolverUnitsLeadOneToTheNext_4 :
        (∃ (c : Fin 2) (s : State), ((s.problem c = none ∨ s.swatchRuns (solverSwatch c) = false ∨ ∃ p, s.problem c = some p ∧ (p.proofs = [] ∨
      s.mayProve c p = false)))) ∧
        (∃ (c : Fin 2) (p : Problem) (st : Structure) (v : Solve) (s : State), s.atStage c .final = some (p, st) ∧ p.finalSolve st.kind = some v ∧
      s.refined c p v = true) ∧
        (∃ (c : Fin 2) (p : Problem) (st : Structure) (v : Solve) (s : State), s.atStage c .final = some (p, st) ∧ p.finalSolve st.kind = some v ∧
      s.refined c p v = false) :=
    ⟨⟨0, State.reset, Or.inl (by decide +kernel)⟩,
      ⟨1, { problem0 .final one with last := some (solved 2) }, one, solved 2, solving 1 one (some factor4)
     { problem0 .final one with last := some (solved 2) }, by decide +kernel⟩,
      ⟨1, { problem0 .final one with last := some (solved 3) }, one, solved 3, solving 1 one (some factor4)
     { problem0 .final one with last := some (solved 3) }, by decide +kernel⟩⟩

theorem witness_WindowAndMapTasksKeepTheirRecords :
        (∃ (b : Stamp × Nat × List Byte) (rest : List (Stamp × Nat × List Byte)) (s : State), s.window.waiting = b :: rest ∧ s.window.running = none ∧
      s.swatchRuns (solverSwatch 1) = true ∧ s.admitsWork = true ∧ s.window.estimateAt (batchTov b.2.2) = none) ∧
        (∃ (b : Stamp × Nat × List Byte) (rest : List (Stamp × Nat × List Byte)) (e : EstimateEntry) (s : State), s.window.waiting = b :: rest ∧
      s.window.running = none ∧ s.swatchRuns (solverSwatch 1) = true ∧ s.admitsWork = true ∧ s.window.estimateAt (batchTov b.2.2) = some e) ∧
        (∃ (k : NewNode) (rest : List NewNode) (s : State), s.map.waiting = k :: rest ∧ s.swatchRuns 14 = true ∧ s.admitsClassC = true ∧ s.mem.objects
      = [] ∧ 0 < s.freePages ∧ s.map.last = none ∧ k.keypoints = 0 ∧ k.pose.length = 7 ∧ s.dirReady = true ∧ s.tileRegionBad = false ∧ (s.cellIndex
      (ofWord32 (k.pose.getD 4 0).toNat)).2 = s ∧ 4096 * (s.cellIndex (ofWord32 (k.pose.getD 4 0).toNat)).1 + (s.cellIndex (ofWord32 (k.pose.getD 5
      0).toNat)).1 < s.fld fld_MEM_TILE_CFG_DIR_ENTRIES) ∧
        (∃ (s : State), s.map.admitted = true ∧ s.swatchRuns 14 = true ∧ s.admitsClassC = true ∧ s.graphNodes ≠ [] ∧ s.mem.bad = []) ∧
        (∃ (r : List Byte) (s : State), s.solv.told.find? (fun e => e.1 == SolverTask.map) = some (.map, r)) ∧
        (∃ (s : State), ((s.window.waiting = [] ∨ s.window.running ≠ none ∨ s.swatchRuns (solverSwatch 1) = false ∨ s.admitsWork = false))) ∧
        (∃ (s : State), ((s.map.waiting = [] ∨ s.swatchRuns 14 = false ∨ s.admitsClassC = false ∨ s.dirReady = false))) ∧
        (∃ (k : NewNode) (rest : List NewNode) (s : State), s.map.waiting = k :: rest ∧ s.swatchRuns 14 = true ∧ s.admitsClassC = true ∧ s.dirReady =
      true ∧ s.mem.objects = [] ∧ s.tileRegionBad = true ∧ s.map.last = none) ∧
        (∃ (s : State), ((s.map.admitted = false ∨ s.swatchRuns 14 = false ∨ s.admitsClassC = false ∨ (s.graphNodes = [] ∧ s.mem.bad = [])))) :=
    ⟨⟨(1000, 0, batch0), [], windowed 200000000000, by decide +kernel⟩,
      ⟨(1000, 0, batch0), [], estimate0 99, windowed 99, by decide +kernel⟩,
      ⟨keyframe, [], mapping [keyframe], by decide +kernel⟩,
      ⟨mapped, by decide +kernel⟩,
      ⟨[], { mapped with solv := { Solvers.reset with told := [(.map, [])] } }, by decide +kernel⟩,
      ⟨State.reset, by decide +kernel⟩,
      ⟨State.reset, by decide +kernel⟩,
      ⟨keyframe, [], (mapping [keyframe]).setFld fld_MEM_TILE_LAYOUT_CKPT_BLOCKS 1, by decide +kernel⟩,
      ⟨State.reset, by decide +kernel⟩⟩

theorem witness_WindowAndMapTasksKeepTheirRecords_2 :
        (∃ (s : State), s.solv.told.find? (fun e => e.1 == SolverTask.map) = none) ∧
        (∃ (r : List Byte) (s : State), s.solv.told.find? (fun e => e.1 == SolverTask.map) = some (.map, r) ∧ field r 0 1 ≠ solSolved ∧ field r 0 1 ≠
      solInaccurate) :=
    ⟨⟨State.reset, by decide +kernel⟩,
      ⟨List.replicate 100 7, { up with solv := { Solvers.reset with told := [(.map, List.replicate 100 7)] } }, by decide +kernel⟩⟩

theorem witness_ImportsFollowTheirSteps :
        (∃ (c : Fin 16) (s : State), s.flag (fld_NCH_STATUS_INIT c) = true ∧ s.swatchRuns (nandSwatch c) = true) ∧
        (∃ (c : Fin 16) (s : State), s.flag (fld_NCH_STATUS_INIT c) = true ∧ s.swatchRuns (nandSwatch c) = true ∧ 800 ≤ s.fld fld_NAND_GEOM_1_RATE ∧
      s.fld fld_NAND_GEOM_1_RATE ≤ 3600) ∧
        (∃ (x : Fin 2) (s : State), s.indexReady x = false ∧ s.channelsUp x = true ∧ s.indexUsable x = true ∧ s.hasEpoch x = true ∧ s.swatchRuns 16 =
      true ∧ s.mem.move = none) ∧
        (∃ (i : ImportItem) (rest : List ImportItem) (code : Nat) (s : State), s.links.importBuffer = i :: rest ∧ i.sub = 0 ∧ i.index < 2 ∧
      s.importHears = true ∧ s.srch.importing = none ∧ s.hasEpoch i.index = true ∧ s.beginCode i.index (!s.activeRegion i.index) i.data = some code) ∧
        (∃ (i : ImportItem) (rest : List ImportItem) (s : State), s.links.importBuffer = i :: rest ∧ i.sub = 0 ∧ i.index < 2 ∧ s.importHears = true ∧
      s.srch.importing = none ∧ s.hasEpoch i.index = true ∧ s.beginCode i.index (!s.activeRegion i.index) i.data = none) ∧
        (∃ (i : Import) (s : State), s.srch.importing = some i ∧ i.index < 2 ∧ i.step = .waiting ∧ s.regionPins i.index i.region = 0 ∧ s.importRuns =
      true) ∧
        (∃ (i : Import) (s : State), s.srch.importing = some i ∧ i.index < 2 ∧ i.step = .erasing ∧ s.importRuns = true) ∧
        (∃ (i : Import) (s : State), s.srch.importing = some i ∧ i.index < 2 ∧ i.step = .erasing ∧ s.importRuns = true) ∧
        (∃ (i : Import) (p : ImportItem) (rest : List ImportItem) (s : State), s.links.importBuffer = p :: rest ∧ p.sub = 1 ∧ s.importRuns = true ∧
      s.srch.importing = some i ∧ i.index < 2 ∧ i.step = .writing ∧ (p.index ≠ i.index ∨ p.number ≠ i.next ∨ (readHeader i.header).total ≤ p.number))
      :=
    ⟨⟨3, up.setFlag (fld_NCH_STATUS_INIT 3) true, by decide +kernel⟩,
      ⟨3, (up.setFlag (fld_NCH_STATUS_INIT 3) true).setFld fld_NAND_GEOM_1_RATE 800, by decide +kernel⟩,
      ⟨1, indexed, by decide +kernel⟩,
      ⟨item 0 0 [], [item 1 0 []], impBadHeader, buffered [item 0 0 [], item 1 0 []] none, by decide +kernel⟩,
      ⟨item 0 0 (indexHead 3), [item 1 0 []], buffered [item 0 0 (indexHead 3), item 1 0 []] none, by decide +kernel⟩,
      ⟨import0 .waiting 0 3, buffered [] (some (import0 .waiting 0 3)), by decide +kernel⟩,
      ⟨import0 .erasing 0 3, buffered [] (some (import0 .erasing 0 3)), by decide +kernel⟩,
      ⟨import0 .erasing 0 3, buffered [] (some (import0 .erasing 0 3)), by decide +kernel⟩,
      ⟨import0 .writing 2 3, item 1 1 [1, 2, 3], [], buffered [item 1 1 [1, 2, 3]] (some (import0 .writing 2 3)), by decide +kernel⟩⟩

theorem witness_ImportsFollowTheirSteps_2 :
        (∃ (i : Import) (p : ImportItem) (rest : List ImportItem) (l : Nat) (s : State), s.links.importBuffer = p :: rest ∧ p.sub = 1 ∧ s.importRuns =
      true ∧ s.srch.importing = some i ∧ i.index < 2 ∧ i.step = .writing ∧ p.index = i.index ∧ p.number = i.next ∧ p.number < (readHeader
      i.header).total ∧ s.pageOk i p.number p.data = some l) ∧
        (∃ (i : Import) (p : ImportItem) (rest : List ImportItem) (s : State), s.links.importBuffer = p :: rest ∧ p.sub = 2 ∧ s.importHears = true ∧
      s.srch.importing = some i ∧ i.index < 2 ∧ i.step = .writing ∧ p.index = i.index ∧ p.number = (readHeader i.header).epoch ∧ i.next = (readHeader
      i.header).total ∧ s.imageCrc i.index i.region (readHeader i.header).total = (readHeader i.header).crc) ∧
        (∃ (i : Import) (p : ImportItem) (rest : List ImportItem) (s : State), s.links.importBuffer = p :: rest ∧ p.sub = 2 ∧ s.importHears = true ∧
      s.srch.importing = some i ∧ i.index < 2 ∧ i.step = .writing ∧ p.index = i.index ∧ p.number = (readHeader i.header).epoch ∧ i.next = (readHeader
      i.header).total ∧ s.imageCrc i.index i.region (readHeader i.header).total ≠ (readHeader i.header).crc) ∧
        (∃ (i : Import) (s : State), s.srch.importing = some i ∧ i.index < 2 ∧ i.step = .committing ∧ s.importRuns = true) ∧
        (∃ (c : Fin 16) (s : State), ((s.flag (fld_NCH_STATUS_INIT c) = false ∨ s.swatchRuns (nandSwatch c) = false))) ∧
        (∃ (c : Fin 16) (s : State), s.flag (fld_NCH_STATUS_INIT c) = true ∧ s.swatchRuns (nandSwatch c) = true ∧ ((s.fld fld_NAND_GEOM_1_RATE < 800 ∨
      3600 < s.fld fld_NAND_GEOM_1_RATE))) ∧
        (∃ (x : Fin 2) (s : State), s.indexReady x = false ∧ s.channelsUp x = true ∧ s.indexUsable x = true ∧ s.hasEpoch x = true ∧ s.swatchRuns 16 =
      true) ∧
        (∃ (x : Fin 2) (s : State), ((s.indexReady x = true ∨ s.channelsUp x = false ∨ s.indexUsable x = false ∨ s.hasEpoch x = false ∨ s.swatchRuns
      16 = false))) ∧
        (∃ (s : State), ((s.links.importBuffer = [] ∨ s.importHears = false ∨ ∃ i rest, s.links.importBuffer = i :: rest ∧ i.sub ≠ 0))) :=
    ⟨⟨import0 .writing 1 3, item 1 1 [1, 2, 3, 0], [], 3, buffered [item 1 1 [1, 2, 3, 0]] (some (import0 .writing 1 3)), by decide +kernel⟩,
      ⟨import0 .writing 1 1, item 2 9 [], [], buffered [item 2 9 []] (some (import0 .writing 1 1)), by decide +kernel⟩,
      ⟨badImport, item 2 9 [], [], buffered [item 2 9 []] (some (badImport)), by decide +kernel⟩,
      ⟨import0 .committing 3 3, buffered [] (some (import0 .committing 3 3)), by decide +kernel⟩,
      ⟨0, State.reset, by decide +kernel⟩,
      ⟨3, up.setFlag (fld_NCH_STATUS_INIT 3) true, by decide +kernel⟩,
      ⟨1, indexed, by decide +kernel⟩,
      ⟨0, State.reset, by decide +kernel⟩,
      ⟨State.reset, Or.inl (by decide +kernel)⟩⟩

theorem witness_ImportsFollowTheirSteps_3 :
        (∃ (i : ImportItem) (rest : List ImportItem) (s : State), s.links.importBuffer = i :: rest ∧ i.sub = 0 ∧ 2 ≤ i.index ∧ s.importHears = true ∧
      s.srch.importing = none) ∧
        (∃ (i : ImportItem) (rest : List ImportItem) (s : State), s.links.importBuffer = i :: rest ∧ i.sub = 0 ∧ i.index < 2 ∧ s.importHears = true ∧
      s.srch.importing = none ∧ s.hasEpoch i.index = false) ∧
        (∃ (i : ImportItem) (p : Import) (rest : List ImportItem) (s : State), s.links.importBuffer = i :: rest ∧ i.sub = 0 ∧ 2 ≤ i.index ∧
      s.importHears = true ∧ s.srch.importing = some p ∧ s.links.status.length < 255 ∧ s.inReset 6 = false) ∧
        (∃ (s : State), ((s.srch.importing = none ∨ s.importRuns = false ∨ ∃ i, s.srch.importing = some i ∧ (i.step ≠ .waiting ∨ s.regionPins i.index
      i.region ≠ 0)))) ∧
        (∃ (s : State), ((s.srch.importing = none ∨ s.importRuns = false ∨ ∃ i, s.srch.importing = some i ∧ i.step ≠ .erasing))) ∧
        (∃ (s : State), ((s.srch.importing = none ∨ s.importRuns = false ∨ ∃ i, s.srch.importing = some i ∧ i.step ≠ .committing))) ∧
        (∃ (s : State), ((s.links.importBuffer = [] ∨ s.importRuns = false ∨ (∃ p rest, s.links.importBuffer = p :: rest ∧ p.sub ≠ 1) ∨ ∃ i,
      s.srch.importing = some i ∧ i.step ≠ .writing))) ∧
        (∃ (s : State), ((s.links.importBuffer = [] ∨ s.importHears = false ∨ (∃ p rest, s.links.importBuffer = p :: rest ∧ p.sub ≠ 2) ∨ ∃ i,
      s.srch.importing = some i ∧ i.step ≠ .writing))) ∧
        (∃ (p : ImportItem) (rest : List ImportItem) (s : State), s.links.importBuffer = p :: rest ∧ s.srch.importing = none ∧ p.sub = 1 ∧
      s.importRuns = true) :=
    ⟨⟨{ item 0 0 [] with index := 2 }, [], buffered [{ item 0 0 [] with index := 2 }] none, by decide +kernel⟩,
      ⟨{ item 0 0 (indexHead 3) with index := 0 }, [], buffered [{ item 0 0 (indexHead 3) with index := 0 }] none, by decide +kernel⟩,
      ⟨{ item 0 0 [] with index := 2 }, import0 .waiting 0 3, [], buffered [{ item 0 0 [] with index := 2 }] (some (import0 .waiting 0 3)),
     by decide +kernel⟩,
      ⟨State.reset, Or.inl (by decide +kernel)⟩,
      ⟨State.reset, Or.inl (by decide +kernel)⟩,
      ⟨State.reset, Or.inl (by decide +kernel)⟩,
      ⟨State.reset, Or.inl (by decide +kernel)⟩,
      ⟨State.reset, Or.inl (by decide +kernel)⟩,
      ⟨item 1 0 [], [], buffered [item 1 0 []] none, by decide +kernel⟩⟩

theorem witness_ImportsFollowTheirSteps_4 :
        (∃ (p : ImportItem) (rest : List ImportItem) (s : State), s.links.importBuffer = p :: rest ∧ s.srch.importing = none ∧ p.sub = 2 ∧
      s.importHears = true) ∧
        (∃ (i : Import) (p : ImportItem) (rest : List ImportItem) (s : State), s.links.importBuffer = p :: rest ∧ p.sub = 1 ∧ s.importRuns = true ∧
      s.srch.importing = some i ∧ i.index < 2 ∧ i.step = .writing ∧ p.index = i.index ∧ p.number = i.next ∧ p.number < (readHeader i.header).total ∧
      s.pageOk i p.number p.data = none) ∧
        (∃ (i : Import) (p : ImportItem) (rest : List ImportItem) (l : Nat) (s : State), s.links.importBuffer = p :: rest ∧ p.sub = 1 ∧ s.importRuns =
      true ∧ s.srch.importing = some i ∧ i.index < 2 ∧ i.step = .writing ∧ p.index = i.index ∧ p.number = i.next ∧ p.number < (readHeader
      i.header).total ∧ s.pageOk i p.number p.data = some l) ∧
        (∃ (i : Import) (p : ImportItem) (rest : List ImportItem) (s : State), s.links.importBuffer = p :: rest ∧ p.sub = 2 ∧ s.importHears = true ∧
      s.srch.importing = some i ∧ i.index < 2 ∧ i.step = .writing ∧ (p.index ≠ i.index ∨ p.number ≠ (readHeader i.header).epoch ∨ i.next ≠ (readHeader
      i.header).total)) ∧
        (∃ (i : Import) (s : State), s.srch.importing = some i ∧ i.index < 2 ∧ i.step = .committing ∧ s.importRuns = true) :=
    ⟨⟨item 2 0 [], [], buffered [item 2 0 []] none, by decide +kernel⟩,
      ⟨import0 .writing 2 3, item 1 2 (ff 16), [], buffered [item 1 2 (ff 16)] (some (import0 .writing 2 3)), by decide +kernel⟩,
      ⟨import0 .writing 1 3, item 1 1 [1, 2, 3, 0], [], 3, buffered [item 1 1 [1, 2, 3, 0]] (some (import0 .writing 1 3)), by decide +kernel⟩,
      ⟨import0 .writing 1 3, item 2 9 [], [], buffered [item 2 9 []] (some (import0 .writing 1 3)), by decide +kernel⟩,
      ⟨import0 .committing 3 3, buffered [] (some (import0 .committing 3 3)), by decide +kernel⟩⟩

theorem witness_QueriesRunFromSubmissionToResult :
        (∃ (d : List Byte) (s : State), s.swatchRuns 16 = true ∧ field d 4 1 ≤ 1 ∧ s.indexReady (field d 4 1) = false ∧ (∀ q ∈ s.srch.queue ++
      s.srch.active, q.number < s.srch.arrivals)) ∧
        (∃ (d : List Byte) (s : State), s.swatchRuns 16 = true ∧ s.indexReady (field d 4 1) = true ∧ descBad d (s.indexDim (field d 4 1)) = false ∧
      s.srch.queue.length < 4096) ∧
        (∃ (q : Query) (rest : List Query) (s : State), s.srch.queue = q :: rest ∧ q.source ≠ .place ∧ s.swatchRuns 16 = true ∧ (if q.classC then
      s.admitsClassC else s.runsClassD) = true ∧ s.indexReady q.desc.index = true ∧ s.groupFits q.desc.index [q] = true ∧ s.srch.probe = none) ∧
        (∃ (s : State), s.swatchRuns 16 = true ∧ s.coarseBatch ≠ []) ∧
        (∃ (s : State), s.swatchRuns 16 = true ∧ s.coarseBatch ≠ [] ∧ s.mem.bad = []) ∧
        (∃ (c : Fin 16) (r : Bool) (page : Nat) (p : PendingPage) (q : Query) (s : State), s.swatchRuns (nandSwatch c) = true ∧ s.srch.active = [q] ∧
      (q.classC || s.runsClassD) = true ∧ q.desc.index = indexOfChannel c ∧ q.region = r ∧ q.nextPage c = some p ∧ p.page = page) ∧
        (∃ (q : Query) (s : State), s.swatchRuns 16 = true ∧ s.srch.active.find? Query.allHeld = some q ∧ q.source = .direct ∧ q.desc.index < 2) ∧
        (∃ (q : Query) (s : State), s.earliestQuery = some q ∧ q.source = .direct ∧ q.desc.index < 2) ∧
        (∃ (obj : Nat) (count : Nat) (d : Stamp) (rest : List (Nat × Nat × Stamp)) (s : State), s.map.places = (obj, count, d) :: rest ∧ s.srch.place
      = none ∧ s.swatchRuns 16 = true ∧ s.admitsClassC = true) :=
    ⟨⟨desc0, { indexed with srch := { indexed.srch with arrivals := 9, queue := [query0 ⟨.coarse, [], []⟩] } }, by decide +kernel⟩,
      ⟨desc0, searching [] [], by decide +kernel⟩,
      ⟨query0 ⟨.coarse, [], []⟩, [{ query0 ⟨.coarse, [], []⟩ with number := 6 }], searching [query0 ⟨.coarse, [], []⟩,
     { query0 ⟨.coarse, [], []⟩ with number := 6 }] [], by decide +kernel⟩,
      ⟨searching [] [query0 ⟨.coarse, [], []⟩], by decide +kernel⟩,
      ⟨searching [] [query0 ⟨.coarse, [], []⟩], by decide +kernel⟩,
      ⟨14, false, 4, ⟨0, Fp.zero, 4, 1⟩, query0 ⟨.scan, [⟨0, Fp.zero, 4, 1⟩], []⟩, searching [] [query0 ⟨.scan, [⟨0, Fp.zero, 4, 1⟩], []⟩],
     by decide +kernel⟩,
      ⟨query0 ⟨.held, [], [⟨77, Fp.zero, 5⟩]⟩, searching [] [query0 ⟨.held, [], [⟨77, Fp.zero, 5⟩]⟩], by decide +kernel⟩,
      ⟨query0 ⟨.coarse, [], []⟩, searching [query0 ⟨.coarse, [], []⟩, { query0 ⟨.coarse, [], []⟩ with number := 6 }] [], by decide +kernel⟩,
      ⟨5, 1, 100, [], { searching [] [] with map := { MapTask.reset with places := [(5, 1, 100)] } }, by decide +kernel⟩⟩

theorem witness_QueriesRunFromSubmissionToResult_2 :
        (∃ (p : PlaceQuery) (s : State), s.srch.place = some p ∧ p.formed ≤ p.answers.length ∧ s.swatchRuns 16 = true) ∧
        (∃ (data : Word) (d : Word) (s : State), s.writeTaken reg_SRCH_PROBE_CTRL data = some d ∧ d.getLsbD 0 = true ∧ s.srch.probe = none ∧
      s.probeSet = none) ∧
        (∃ (data : Word) (d : Word) (p : ProbeRun) (s : State), s.writeTaken reg_SRCH_PROBE_CTRL data = some d ∧ d.getLsbD 0 = true ∧ s.srch.probe =
      none ∧ s.probeSet = some p) ∧
        (∃ (p : ProbeRun) (s : State), s.srch.probe = some p ∧ p.count ≤ p.next ∧ s.probeBusy = false ∧ s.swatchRuns 16 = true) ∧
        (∃ (s : State), s.swatchRuns 16 = false) ∧
        (∃ (s : State), s.admitsWork = false) ∧
        (∃ (d : List Byte) (s : State), s.swatchRuns 16 = true ∧ s.admitsWork = true ∧ s.indexReady (field d 4 1) = true ∧ descBad d (s.indexDim
      (field d 4 1)) = false ∧ s.srch.queue.length < 4096 ∧ s.stamp < mkStamp (field d 0x18 8) (field d 0x20 4)) ∧
        (∃ (d : List Byte) (s : State), s.swatchRuns 16 = true ∧ s.admitsWork = true ∧ s.indexReady (field d 4 1) = true ∧ descBad d (s.indexDim
      (field d 4 1)) = false ∧ s.srch.queue.length < 4096 ∧ mkStamp (field d 0x18 8) (field d 0x20 4) ≤ s.stamp ∧ (∀ q ∈ s.srch.queue ++
      s.srch.active, q.number < s.srch.arrivals)) ∧
        (∃ (d : List Byte) (s : State), s.swatchRuns 16 = true ∧ s.admitsWork = true ∧ field d 4 1 ≤ 1 ∧ s.indexReady (field d 4 1) = true ∧ (descBad
      d (s.indexDim (field d 4 1)) = true ∨ 4096 ≤ s.srch.queue.length) ∧ (∀ q ∈ s.srch.queue ++ s.srch.active, q.number < s.srch.arrivals)) :=
    ⟨⟨⟨1, [⟨0, 0, 4, []⟩]⟩, { searching [] [] with srch := { (searching [] []).srch with place := some ⟨1, [⟨0, 0, 4, []⟩]⟩ } }, by decide +kernel⟩,
      ⟨1, 1, probing none, by decide +kernel⟩,
      ⟨1, 1, ⟨5, 1, 1, 16, 0⟩, withBytes (probing none) probeBytes, by decide +kernel⟩,
      ⟨⟨5, 1, 1, 16, 1⟩, probing (some ⟨5, 1, 1, 16, 1⟩), by decide +kernel⟩,
      ⟨State.reset, by decide +kernel⟩,
      ⟨State.reset, by decide +kernel⟩,
      ⟨setAt desc0 0x18 9, searching [] [], by decide +kernel⟩,
      ⟨desc0, searching [] [], by decide +kernel⟩,
      ⟨setAt desc0 8 0, searching [] [], by decide +kernel⟩⟩

theorem witness_QueriesRunFromSubmissionToResult_3 :
        (∃ (d : List Byte) (s : State), s.swatchRuns 16 = true ∧ s.admitsWork = true ∧ 2 ≤ field d 4 1 ∧ (∀ q ∈ s.srch.queue ++ s.srch.active,
      q.number < s.srch.arrivals)) ∧
        (∃ (q : Query) (rest : List Query) (s : State), s.srch.queue = q :: rest ∧ q.source = .place ∧ s.swatchRuns 16 = true ∧ (if q.classC then
      s.admitsClassC else s.runsClassD) = true ∧ s.indexReady q.desc.index = true ∧ s.groupFits q.desc.index (s.srch.queue.filter (fun p => p.source
      == .place)) = true ∧ s.srch.probe = none) ∧
        (∃ (s : State), ((s.srch.queue = [] ∨ s.swatchRuns 16 = false ∨ ∃ q rest, s.srch.queue = q :: rest ∧ ((if q.classC then s.admitsClassC else
      s.runsClassD) = false ∨ s.indexReady q.desc.index = false ∨ s.groupFits q.desc.index (s.admissionGroup q) = false)))) ∧
        (∃ (s : State), ((s.coarseBatch = [] ∨ s.swatchRuns 16 = false))) ∧
        (∃ (c : Fin 16) (r : Bool) (page : Nat) (s : State), ((s.swatchRuns (nandSwatch c) = false ∨ ∀ q ∈ s.srch.active, (q.classC || s.runsClassD) =
      false ∨ q.desc.index ≠ indexOfChannel c ∨ q.region ≠ r ∨ ∀ p, q.nextPage c = some p → p.page ≠ page))) ∧
        (∃ (c : Fin 16) (r : Bool) (ok : Bool) (page : Nat) (retries : Nat) (p : PendingPage) (q : Query) (s : State), s.swatchRuns (nandSwatch c) =
      true ∧ s.srch.active = [q] ∧ (q.classC || s.runsClassD) = true ∧ q.desc.index = indexOfChannel c ∧ q.region = r ∧ q.nextPage c = some p ∧ p.page
      = page ∧ (ok = false ∨ s.fld fld_SRCH_CFG_RETRY_MAX < retries)) ∧
        (∃ (q : Query) (p : PlaceQuery) (s : State), s.swatchRuns 16 = true ∧ s.srch.active.find? Query.allHeld = some q ∧ q.source = .place ∧
      q.desc.index < 2 ∧ s.srch.place = some p) ∧
        (∃ (q : Query) (truth : List Nat) (s : State), s.swatchRuns 16 = true ∧ s.srch.active.find? Query.allHeld = some q ∧ q.source = .probe truth ∧
      q.desc.index < 2) ∧
        (∃ (s : State), ((s.srch.active.find? Query.allHeld = none ∨ s.swatchRuns 16 = false))) :=
    ⟨⟨setAt desc0 4 2, searching [] [], by decide +kernel⟩,
      ⟨{ query0 ⟨.coarse, [], []⟩ with source := .place }, [], searching [{ query0 ⟨.coarse, [], []⟩ with source := .place }] [], by decide +kernel⟩,
      ⟨State.reset, Or.inl (by decide +kernel)⟩,
      ⟨State.reset, by decide +kernel⟩,
      ⟨0, false, 0, State.reset, Or.inl (by decide +kernel)⟩,
      ⟨14, false, false, 4, 1, ⟨0, Fp.zero, 4, 1⟩, query0 ⟨.scan, [⟨0, Fp.zero, 4, 1⟩], []⟩, searching [] [query0 ⟨.scan, [⟨0, Fp.zero, 4, 1⟩], []⟩],
     by decide +kernel⟩,
      ⟨{ query0 ⟨.held, [], [⟨77, Fp.zero, 5⟩]⟩ with source := .place }, ⟨3, []⟩,
     { searching [] [{ query0 ⟨.held, [], [⟨77, Fp.zero, 5⟩]⟩ with source := .place }] with srch := { (searching [] [{ query0 ⟨.held, [], [⟨77, Fp.zero, 5⟩]⟩ with source := .place }]).srch with place := some ⟨3, []⟩ } },
     by decide +kernel⟩,
      ⟨{ query0 ⟨.held, [], [⟨77, Fp.zero, 5⟩]⟩ with source := .probe [77] }, [77], searching []
     [{ query0 ⟨.held, [], [⟨77, Fp.zero, 5⟩]⟩ with source := .probe [77] }], by decide +kernel⟩,
      ⟨State.reset, by decide +kernel⟩⟩

theorem witness_QueriesRunFromSubmissionToResult_4 :
        (∃ (s : State), s.earliestQuery = none) ∧
        (∃ (s : State), ((s.map.places = [] ∨ s.srch.place ≠ none ∨ s.swatchRuns 16 = false ∨ s.admitsClassC = false))) ∧
        (∃ (s : State), ((s.srch.place = none ∨ s.swatchRuns 16 = false ∨ ∃ p, s.srch.place = some p ∧ p.answers.length < p.formed))) ∧
        (∃ (data : Word) (s : State), ((s.writeTaken reg_SRCH_PROBE_CTRL data = none ∨ s.srch.probe ≠ none ∨ ∃ d, s.writeTaken reg_SRCH_PROBE_CTRL
      data = some d ∧ d.getLsbD 0 = false))) ∧
        (∃ (s : State), ((s.srch.probe = none ∨ s.swatchRuns 16 = false ∨ ∃ p, s.srch.probe = some p ∧ ((p.next < p.count ∧ 4096 ≤
      s.srch.queue.length) ∨ (p.count ≤ p.next ∧ s.probeBusy = true))))) ∧
        (∃ (p : ProbeRun) (s : State), s.srch.probe = some p ∧ p.next < p.count ∧ s.srch.queue.length < 4096 ∧ s.swatchRuns 16 = true) :=
    ⟨⟨State.reset, by decide +kernel⟩,
      ⟨State.reset, by decide +kernel⟩,
      ⟨State.reset, Or.inl (by decide +kernel)⟩,
      ⟨1, up, Or.inl (by decide +kernel)⟩,
      ⟨State.reset, Or.inl (by decide +kernel)⟩,
      ⟨⟨5, 1, 1, 16, 0⟩, probing (some ⟨5, 1, 1, 16, 0⟩), by decide +kernel⟩⟩

theorem witness_TransmitStreamsSendTheirPayloads :
        (∃ (k : Fin 16) (o : TxOffer) (b : List Byte) (s : State), s.links.offers.find? (fun o => o.stream == k.val) = some o ∧ o.source = .copied b ∧
      s.txMayStart k = true ∧ s.txFree k = true ∧ (s.txPortState (s.txPort k)).busy.isSome = true) ∧
        (∃ (k : Fin 16) (o : TxOffer) (s : State), s.links.offers.find? (fun o => o.stream == k.val) = some o ∧ s.txMayStart k = true ∧ s.txFree k =
      false) ∧
        (∃ (n : Fin 4) (k : Nat) (p : TxPayload) (s : State), (s.txPortState n).busy = some k ∧ (s.txStream k).payload = some p ∧ s.swatchRuns
      hostSwatch = true ∧ p.started = true ∧ p.cut = false ∧ p.sent + 1 < p.packets) ∧
        (∃ (n : Fin 4) (k : Nat) (p : TxPayload) (s : State), (s.txPortState n).busy = some k ∧ (s.txStream k).payload = some p ∧ s.swatchRuns
      hostSwatch = true ∧ (p.cut = true ∨ p.packets ≤ p.sent + 1)) ∧
        (∃ (k : Fin 16) (p : TxPayload) (d : Stamp) (s : State), s.cuttable k = some (p, d) ∧ s.swatchRuns hostSwatch = true ∧ (s.txPortState
      (s.txPort k)).busy ≠ some k.val ∧ p.started = false) ∧
        (∃ (k : Fin 16) (p : TxPayload) (d : Stamp) (s : State), s.cuttable k = some (p, d) ∧ s.swatchRuns hostSwatch = true ∧ (s.txPortState
      (s.txPort k)).busy = some k.val) ∧
        (∃ (k : Nat) (s : State), k ∈ s.txOfType txStatus ∧ s.txFree k = true ∧ s.links.status ≠ []) ∧
        (∃ (d : TileDelta) (rest : List TileDelta) (k : Nat) (l : List Nat) (s : State), s.links.tileDelta = d :: rest ∧ (s.txOfType
      txTileDelta).filter s.txFree = k :: l) ∧
        (∃ (n : Fin 4) (data : Word) (d : Word) (s : State), s.writeTaken (reg_CSI_TX_CTRL n) data = some d ∧ d.getLsbD 0 = true) :=
    ⟨⟨5, offer0, List.replicate 300 9, sending none true 1 offering, by decide +kernel⟩,
      ⟨5, offer0, sending (some payload0) true 1 offering, by decide +kernel⟩,
      ⟨0, 5, payload0, sending (some payload0) true 1 Links.reset, by decide +kernel⟩,
      ⟨0, 5, { payload0 with sent := 5 }, sending (some { payload0 with sent := 5 }) true 1 Links.reset, by decide +kernel⟩,
      ⟨5, { payload0 with started := false }, 200, sending (some { payload0 with started := false }) false 1 Links.reset, by decide +kernel⟩,
      ⟨5, payload0, 200, sending (some payload0) true 1 Links.reset, by decide +kernel⟩,
      ⟨5, sending none false 7 { Links.reset with status := List.replicate 65 ⟨0x30, 0, 0, 0, 0, 0⟩, statusLoss := true }, by decide +kernel⟩,
      ⟨⟨3, 1, [1, 2], 0, 0⟩, [⟨4, 1, [1, 2], 0, 0⟩], 5, [], sending none false 5
     { Links.reset with tileDelta := [⟨3, 1, [1, 2], 0, 0⟩, ⟨4, 1, [1, 2], 0, 0⟩], tileLoss := true }, by decide +kernel⟩,
      ⟨0, 1, 1, granting (reg_CSI_TX_CTRL 0) (sending (some payload0) true 1 Links.reset), by decide +kernel⟩⟩

theorem witness_TransmitStreamsSendTheirPayloads_2 :
        (∃ (k : Fin 16) (s : State), ((s.links.offers.find? (fun o => o.stream == k.val) = none ∨ s.txMayStart k = false))) ∧
        (∃ (k : Fin 16) (o : TxOffer) (c : Nat) (gen : Nat) (s : State), s.links.offers.find? (fun o => o.stream == k.val) = some o ∧ o.source =
      .image c gen ∧ s.txMayStart k = true ∧ s.txFree k = true ∧ s.imagePayload o c gen = none) ∧
        (∃ (k : Fin 16) (o : TxOffer) (c : Nat) (gen : Nat) (q : TxPayload) (u : State) (s : State), s.links.offers.find? (fun o => o.stream == k.val)
      = some o ∧ o.source = .image c gen ∧ s.txMayStart k = true ∧ s.txFree k = true ∧ (s.txPortState (s.txPort k)).busy.isSome = true ∧
      s.imagePayload o c gen = some (q, u)) ∧
        (∃ (n : Fin 4) (s : State), (((s.txPortState n).busy = none ∨ s.swatchRuns hostSwatch = false ∨ ∃ k, (s.txPortState n).busy = some k ∧
      (s.txStream k).payload = none))) ∧
        (∃ (k : Fin 16) (s : State), ((s.cuttable k = none ∨ s.swatchRuns hostSwatch = false))) ∧
        (∃ (k : Fin 16) (p : TxPayload) (d : Stamp) (s : State), s.cuttable k = some (p, d) ∧ s.swatchRuns hostSwatch = true ∧ (s.txPortState
      (s.txPort k)).busy ≠ some k.val ∧ p.started = true) ∧
        (∃ (s : State), ((s.links.status = [] ∨ ∀ k ∈ s.txOfType txStatus, s.txFree k = false))) ∧
        (∃ (s : State), ((s.links.tileDelta = [] ∨ ∀ k ∈ s.txOfType txTileDelta, s.txFree k = false))) ∧
        (∃ (n : Fin 4) (data : Word) (s : State), ((s.writeTaken (reg_CSI_TX_CTRL n) data = none ∨ ∃ d, s.writeTaken (reg_CSI_TX_CTRL n) data = some d
      ∧ d.getLsbD 0 = false))) :=
    ⟨⟨0, State.reset, by decide +kernel⟩,
      ⟨5, { offer0 with source := .image 0 9 }, 0, 9, imaging false 9, by decide +kernel⟩,
      ⟨5, { offer0 with source := .image 0 3 }, 0, 3, (((imaging true 3).imagePayload { offer0 with source := .image 0 3 } 0 3).getD (payload0,
     up)).1, (((imaging true 3).imagePayload { offer0 with source := .image 0 3 } 0 3).getD (payload0, up)).2, imaging true 3, by decide +kernel⟩,
      ⟨0, State.reset, Or.inl (by decide +kernel)⟩,
      ⟨0, State.reset, by decide +kernel⟩,
      ⟨5, payload0, 200, sending (some payload0) false 1 Links.reset, by decide +kernel⟩,
      ⟨State.reset, by decide +kernel⟩,
      ⟨State.reset, by decide +kernel⟩,
      ⟨0, 0, State.reset, Or.inl (by decide +kernel)⟩⟩

theorem witness_CommandsAreCheckedAndAnswered :
        (∃ (p : Fin 12) (vc : Fin 16) (b : List Byte) (ok : Bool) (s : State), s.commandAt p vc = true ∧ s.links.status.length < 256 ∧ (ok = false ∨
      b.length < 12 ∨ field b 0 2 ≠ 0x4D43 ∨ b.length ≠ 12 + field b 4 4)) ∧
        (∃ (p : Fin 12) (vc : Fin 16) (dt : BitVec 3) (b : List Byte) (u : State) (s : State), s.commandAt p vc = true ∧ 12 ≤ b.length ∧ field b 0 2 =
      0x4D43 ∧ b.length = 12 + field b 4 4 ∧ dt.toNat < 4 ∧ s.verify (s.fld fld_HL_CFG_CMD_CHECK) (b.take (b.length - 4)) (field b (b.length - 4) 4)
      dt.toNat (field b 2 2) = (some .inOrder, u) ∧ u.bodyOk (0x30 + dt.toNat) (slice b 8 (b.length - 12)) = true) ∧
        (∃ (b : CommandBody) (s : State), s.links.bodies.find? (fun b => b.dt == 0x30) = some b ∧ s.swatchRuns hostSwatch = true ∧
      s.links.deltas.length < 16) ∧
        (∃ (b : CommandBody) (s : State), s.links.bodies.find? (fun b => b.dt == 0x30) = some b ∧ s.swatchRuns hostSwatch = true ∧ 16 ≤
      s.links.deltas.length) ∧
        (∃ (b : CommandBody) (s : State), s.links.bodies.find? (fun b => b.dt == 0x31) = some b ∧ s.swatchRuns hostSwatch = true) ∧
        (∃ (b : CommandBody) (s : State), s.links.bodies.find? (fun b => b.dt == 0x32) = some b ∧ s.swatchRuns hostSwatch = true ∧ (s.dirReady = false
      ∨ s.dozing = true)) ∧
        (∃ (b : CommandBody) (s : State), s.links.bodies.find? (fun b => b.dt == 0x32) = some b ∧ s.swatchRuns hostSwatch = true ∧ s.dirReady = true ∧
      s.dozing = false ∧ field b.body 8 4 = 0 ∧ s.admitsClassC = true ∧ s.swatchRuns 15 = true ∧ s.links.assembly = none ∧ field b.body 4 4 /
      pageBytes ≤ s.freePages ∧ b.body.length - 16 ≤ field b.body 4 4) ∧
        (∃ (b : CommandBody) (x : TileAssembly) (s : State), s.links.bodies.find? (fun b => b.dt == 0x32) = some b ∧ s.swatchRuns hostSwatch = true ∧
      s.dirReady = true ∧ s.dozing = false ∧ field b.body 8 4 ≠ 0 ∧ s.links.assembly = some x ∧ field b.body 0 4 = x.tile ∧ field b.body 4 4 = x.total
      ∧ field b.body 8 4 = x.bytes.length ∧ x.bytes.length + (b.body.drop 16).length ≤ x.total) ∧
        (∃ (b : CommandBody) (s : State), s.links.bodies.find? (fun b => b.dt == 0x32) = some b ∧ s.swatchRuns hostSwatch = true ∧ s.dirReady = true ∧
      s.dozing = false ∧ field b.body 8 4 ≠ 0 ∧ s.links.assembly = none) :=
    ⟨⟨3, 2, [1, 2, 3, 4], true, commanded Links.reset, by decide +kernel⟩,
      ⟨3, 2, 0, deltaMessage, ((commanded Links.reset).verify ((commanded Links.reset).fld fld_HL_CFG_CMD_CHECK) (deltaMessage.take 24) (field
     deltaMessage 24 4) 0 1).2, commanded Links.reset, by decide +kernel⟩,
      ⟨body 0x30 deltaBody, bodies 0x30 deltaBody Links.reset, by decide +kernel⟩,
      ⟨body 0x30 deltaBody, bodies 0x30 deltaBody { Links.reset with deltas := List.replicate 16 ⟨0, [], 0, 0, 0, false⟩ }, by decide +kernel⟩,
      ⟨body 0x31 [1, 0, 0, 0, 1, 2, 3, 4], bodies 0x31 [1, 0, 0, 0, 1, 2, 3, 4] Links.reset, by decide +kernel⟩,
      ⟨body 0x32 (tileBody 0 4), bodies 0x32 (tileBody 0 4) Links.reset, by decide +kernel⟩,
      ⟨body 0x32 (tileBody 0 6), tiled Links.reset 0, by decide +kernel⟩,
      ⟨body 0x32 (tileBody 6 6), assembly0 6, tiled { Links.reset with assembly := some (assembly0 6) } 6, by decide +kernel⟩,
      ⟨body 0x32 (tileBody 6 6), tiled Links.reset 6, by decide +kernel⟩⟩

theorem witness_CommandsAreCheckedAndAnswered_2 :
        (∃ (x : TileAssembly) (s : State), s.links.assembly = some x ∧ x.total ≤ x.bytes.length ∧ s.moverRuns = true ∧ s.leased (tileId x.tile) =
      false ∧ isTile (tileId x.tile) = true ∧ x.tile < s.fld fld_MEM_TILE_CFG_DIR_ENTRIES ∧ s.tileRegionBad = false ∧ s.pinCount (tileId x.tile) ≠ 0)
      ∧
        (∃ (x : TileAssembly) (s : State), s.links.assembly = some x ∧ x.total ≤ x.bytes.length ∧ s.moverRuns = true ∧ s.leased (tileId x.tile) =
      false ∧ isTile (tileId x.tile) = true ∧ x.tile < s.fld fld_MEM_TILE_CFG_DIR_ENTRIES ∧ s.tileRegionBad = false ∧ s.pinCount (tileId x.tile) = 0 ∧
      s.mem.waiting = []) ∧
        (∃ (b : CommandBody) (s : State), s.links.bodies.find? (fun b => b.dt == 0x33) = some b ∧ s.swatchRuns hostSwatch = true ∧
      (s.links.importBuffer.filter (fun i => i.sub != 2)).length < 64) ∧
        (∃ (b : CommandBody) (s : State), s.links.bodies.find? (fun b => b.dt == 0x33) = some b ∧ s.swatchRuns hostSwatch = true ∧ field b.body 0 1 ≠
      2 ∧ 64 ≤ (s.links.importBuffer.filter (fun i => i.sub != 2)).length) ∧
        (∃ (p : Fin 12) (vc : Fin 16) (s : State), s.commandAt p vc = false) ∧
        (∃ (p : Fin 12) (vc : Fin 16) (dt : BitVec 3) (b : List Byte) (r : Nat) (o : Option AliveOutcome) (u : State) (s : State), s.commandAt p vc =
      true ∧ 12 ≤ b.length ∧ field b 0 2 = 0x4D43 ∧ b.length = 12 + field b 4 4 ∧ u.inReset 6 = false ∧ s.verify (s.fld fld_HL_CFG_CMD_CHECK) (b.take
      (b.length - 4)) (field b (b.length - 4) 4) dt.toNat (field b 2 2) = (o, u) ∧ ((o = none ∧ r = cmdCrc) ∨ (o = some .again ∧ r = cmdRepeat) ∨ (o =
      some .inOrder ∧ 4 ≤ dt.toNat ∧ r = cmdBadType) ∨ (o = some .inOrder ∧ dt.toNat < 4 ∧ u.bodyOk (0x30 + dt.toNat) (slice b 8 (b.length - 12)) =
      false ∧ r = cmdBadBody))) ∧
        (∃ (p : Fin 12) (vc : Fin 16) (dt : BitVec 3) (b : List Byte) (u : State) (s : State), s.commandAt p vc = true ∧ 12 ≤ b.length ∧ field b 0 2 =
      0x4D43 ∧ b.length = 12 + field b 4 4 ∧ dt.toNat < 4 ∧ s.verify (s.fld fld_HL_CFG_CMD_CHECK) (b.take (b.length - 4)) (field b (b.length - 4) 4)
      dt.toNat (field b 2 2) = (some .skip, u) ∧ u.bodyOk (0x30 + dt.toNat) (slice b 8 (b.length - 12)) = true) ∧
        (∃ (s : State), s.nextBody 0x30 = none) ∧
        (∃ (s : State), s.nextBody 0x31 = none) :=
    ⟨⟨⟨5, 4, [1, 2, 3, 4], [3], 1, 2⟩, assembled [⟨3, 0x40000005, 1⟩], by decide +kernel⟩,
      ⟨⟨5, 4, [1, 2, 3, 4], [3], 1, 2⟩, assembled [], by decide +kernel⟩,
      ⟨body 0x33 [2, 1, 0, 0, 9, 0, 0, 0], bodies 0x33 [2, 1, 0, 0, 9, 0, 0, 0] Links.reset, by decide +kernel⟩,
      ⟨body 0x33 ([1, 1, 0, 0, 9, 0, 0, 0] ++ [1, 2]), bodies 0x33 ([1, 1, 0, 0, 9, 0, 0, 0] ++ [1, 2])
     { Links.reset with importBuffer := List.replicate 64 ⟨1, 1, 2, [], 0, 0⟩ }, by decide +kernel⟩,
      ⟨1, 1, up, by decide +kernel⟩,
      ⟨3, 2, 0, setAt deltaMessage 26 77, cmdCrc, none, ((commanded Links.reset).verify ((commanded Links.reset).fld fld_HL_CFG_CMD_CHECK) ((setAt
     deltaMessage 26 77).take 24) (field (setAt deltaMessage 26 77) 24 4) 0 1).2, commanded Links.reset, by decide +kernel⟩,
      ⟨3, 2, 0, deltaMessage, ((heard).verify ((heard).fld fld_HL_CFG_CMD_CHECK) (deltaMessage.take 24) (field deltaMessage 24 4) 0 1).2, heard,
     by decide +kernel⟩,
      ⟨State.reset, by decide +kernel⟩,
      ⟨State.reset, by decide +kernel⟩⟩

theorem witness_CommandsAreCheckedAndAnswered_3 :
        (∃ (s : State), s.nextBody 0x32 = none) ∧
        (∃ (s : State), s.nextBody 0x33 = none) ∧
        (∃ (d : Nat) (s : State), (((∀ b ∈ s.links.bodies, b.dt ≠ d) ∨ s.swatchRuns hostSwatch = false))) ∧
        (∃ (b : CommandBody) (s : State), s.links.bodies.find? (fun b => b.dt == 0x32) = some b ∧ s.dirReady = true ∧ s.dozing = false ∧ field b.body
      8 4 = 0 ∧ b.body.length - 16 ≤ field b.body 4 4 ∧ (s.admitsClassC = false ∨ s.swatchRuns 15 = false ∨ s.freePages + s.stagedPages < field b.body
      4 4 / pageBytes)) ∧
        (∃ (b : CommandBody) (x : TileAssembly) (s : State), s.links.bodies.find? (fun b => b.dt == 0x32) = some b ∧ s.swatchRuns hostSwatch = true ∧
      s.dirReady = true ∧ s.dozing = false ∧ field b.body 8 4 = 0 ∧ s.admitsClassC = true ∧ s.swatchRuns 15 = true ∧ s.links.assembly = some x ∧ field
      b.body 4 4 / pageBytes ≤ s.freePages + s.stagedPages ∧ b.body.length - 16 ≤ field b.body 4 4 ∧ s.links.status.length < 255) ∧
        (∃ (b : CommandBody) (s : State), s.links.bodies.find? (fun b => b.dt == 0x32) = some b ∧ s.swatchRuns hostSwatch = true ∧ s.dirReady = true ∧
      s.dozing = false ∧ field b.body 8 4 = 0 ∧ field b.body 4 4 < b.body.length - 16) ∧
        (∃ (b : CommandBody) (x : TileAssembly) (s : State), s.links.bodies.find? (fun b => b.dt == 0x32) = some b ∧ s.swatchRuns hostSwatch = true ∧
      s.dirReady = true ∧ s.dozing = false ∧ field b.body 8 4 ≠ 0 ∧ s.links.assembly = some x ∧ (field b.body 0 4 ≠ x.tile ∨ field b.body 4 4 ≠
      x.total ∨ field b.body 8 4 ≠ x.bytes.length ∨ x.total < x.bytes.length + (b.body.drop 16).length)) ∧
        (∃ (s : State), ((s.links.assembly = none ∨ s.moverRuns = false ∨ ∃ x, s.links.assembly = some x ∧ (x.bytes.length < x.total ∨ s.leased
      (tileId x.tile) = true)))) ∧
        (∃ (x : TileAssembly) (s : State), s.links.assembly = some x ∧ x.total ≤ x.bytes.length ∧ s.moverRuns = true ∧ s.leased (tileId x.tile) =
      false ∧ (isTile (tileId x.tile) = false ∨ s.fld fld_MEM_TILE_CFG_DIR_ENTRIES ≤ x.tile ∨ s.tileRegionBad = true) ∧ s.inReset 6 = false) :=
    ⟨⟨State.reset, by decide +kernel⟩,
      ⟨State.reset, by decide +kernel⟩,
      ⟨1, up, by decide +kernel⟩,
      ⟨body 0x32 (tileBody 0 6), { tiled Links.reset 0 with mem := { (tiled Links.reset 0).mem with dramPages := 0 } }, by decide +kernel⟩,
      ⟨body 0x32 (tileBody 0 6), assembly0 6, tiled { Links.reset with assembly := some (assembly0 6) } 0, by decide +kernel⟩,
      ⟨body 0x32 (setAt (tileBody 0 6) 5 0), bodyTile (setAt (tileBody 0 6) 5 0) Links.reset, by decide +kernel⟩,
      ⟨body 0x32 (tileBody 6 6), assembly0 5, tiled { Links.reset with assembly := some (assembly0 5) } 6, by decide +kernel⟩,
      ⟨State.reset, Or.inl (by decide +kernel)⟩,
      ⟨⟨500, 4, [1, 2, 3, 4], [3], 1, 2⟩,
     { assembled [] with links := { (assembled []).links with assembly := some ⟨500, 4, [1, 2, 3, 4], [3], 1, 2⟩ } }, by decide +kernel⟩⟩

theorem witness_CommandsAreCheckedAndAnswered_4 :
        ∃ (x : TileAssembly) (s : State), s.links.assembly = some x ∧ x.total ≤ x.bytes.length ∧ s.moverRuns = true ∧ s.leased (tileId x.tile) = false
      :=
    ⟨⟨5, 4, [1, 2, 3, 4], [3], 1, 2⟩, assembled [], by decide +kernel⟩

end Sys2Proof.Tests
end

section
/-!
PROOF. Register access from outside: what a misaligned address is, which bits a write touches, and what the host's reads and writes do to a port's
latches and held words.
-/
open Sys2Proof

namespace Sys2Proof.Machine

/-! ### The register map -/

/-- Every row of the register map lies at a word-aligned base, its registers a whole number of words apart. -/
theorem regRows_aligned : ∀ r ∈ regRows, r.base % 4 = 0 ∧ r.step % 4 = 0 := by decide +kernel

/-- A row holds word-aligned addresses alone. -/
theorem RegRow.aligned_of_holds {r : RegRow} {a : Nat} (hr : r.base % 4 = 0 ∧ r.step % 4 = 0) (h : r.holds a = true) : a % 4 = 0 := by
  obtain ⟨hbase, hstep⟩ := hr
  unfold RegRow.holds at h
  split at h
  · have e : a = r.base := by simpa using h
    omega
  · simp only [Bool.and_eq_true, decide_eq_true_eq, beq_iff_eq] at h
    obtain ⟨⟨hle, hmod⟩, -⟩ := h
    have hdvd : 4 ∣ a - r.base := Nat.dvd_trans (Nat.dvd_of_mod_eq_zero hstep) (Nat.dvd_of_mod_eq_zero hmod)
    omega

/-- No register lies at an address that is not word-aligned (R10). -/
theorem regRow_misaligned {a : Nat} (h : a % 4 ≠ 0) : regRow a = none := by
  refine List.find?_eq_none.mpr fun r hr hold => h ?_
  exact RegRow.aligned_of_holds (regRows_aligned r hr) hold

/-- A mapped address is one of its row's. -/
theorem mem_regRows_of_regRow {a : Nat} {r : RegRow} (h : regRow a = some r) : r ∈ regRows := List.mem_of_find?_eq_some h

theorem isPairLo_misaligned {a : Nat} (h : a % 4 ≠ 0) : isPairLo a = false := by
  simp only [isPairLo, regRow_misaligned h]

theorem isPairHi_misaligned {a : Nat} (h : a % 4 ≠ 0) : isPairHi a = false := by
  by_cases ha : 4 ≤ a
  · have h4 : (a - 4) % 4 ≠ 0 := by omega
    simp [isPairHi, isPairLo_misaligned h4]
  · simp [isPairHi, ha]

/-- A _HI word lies one word above its _LO word. -/
theorem four_le_of_isPairHi {a : Nat} (h : isPairHi a = true) : 4 ≤ a := by
  simp only [isPairHi, Bool.and_eq_true, decide_eq_true_eq] at h
  exact h.1

/-! ### Misaligned addresses (R10) -/

theorem State.reachable_misaligned (s : State) {a : Nat} (h : a % 4 ≠ 0) : s.reachable a = false := by
  simp [State.reachable, State.mapped, h]

theorem State.writeMask_misaligned (s : State) {a : Nat} (data : Word) (h : a % 4 ≠ 0) : s.writeMask a data = none := by
  simp [State.writeMask, s.reachable_misaligned h]

theorem State.peek_misaligned (s : State) {a : Nat} (h : a % 4 ≠ 0) : s.peek a = 0 := by
  simp [State.peek, s.reachable_misaligned h]

/-- An array whose base addresses are word-aligned has no register at a misaligned one. -/
theorem State.writeArray_misaligned (s : State) {n : Nat} {base : Nat → Nat} {a : Nat} {f : Fin n → Host.Outcome State Fault Refusal}
    (hb : ∀ i, base i % 4 = 0) (h : a % 4 ≠ 0) : s.writeArray n base a f = none := by
  have hnone : instanceAt base n a = none := by
    refine List.find?_eq_none.mpr fun i _ hi => h ?_
    rw [← beq_iff_eq.mp hi]
    exact hb i
  simp [State.writeArray, hnone]

theorem State.writeActing_misaligned (s : State) {a : Nat} (data : Word) (h : a % 4 ≠ 0) : s.writeActing a data = none := by
  have ne {b : Nat} (hb : b % 4 = 0) : a ≠ b := fun e => h (e ▸ hb)
  unfold State.writeActing
  simp only [ne (b := reg_SW_RESET) rfl, ne (b := reg_PWR_REQ) rfl, ne (b := reg_RST_CTRL) rfl, ne (b := reg_WDOG_CHIP_KICK) rfl,
    ne (b := reg_SNAP_CTRL) rfl, ne (b := reg_TIME_CTRL) rfl, ne (b := reg_TIME_RATE) rfl, ne (b := reg_SRCH_PROBE_CTRL) rfl,
    ne (b := reg_ROLLBACK_COMMIT) rfl, ne (b := reg_FUSE_PROG_CTRL) rfl, ne (b := reg_ATTEST_CTRL) rfl, ne (b := reg_BIND_OFF_CTRL) rfl,
    if_false]

theorem State.writeActingArray_misaligned (s : State) {a : Nat} (data : Word) (h : a % 4 ≠ 0) : s.writeActingArray a data = none := by
  unfold State.writeActingArray
  rw [State.writeArray_misaligned s (base := reg_ETH_CTRL) (by intro i; unfold reg_ETH_CTRL; omega) h,
    State.writeArray_misaligned s (base := reg_TOUT_CTRL) (by intro i; unfold reg_TOUT_CTRL; omega) h,
    State.writeArray_misaligned s (base := reg_TIN_POP) (by intro i; unfold reg_TIN_POP; omega) h,
    State.writeArray_misaligned s (base := reg_CSI_RX_CTRL) (by intro i; unfold reg_CSI_RX_CTRL; omega) h,
    State.writeArray_misaligned s (base := reg_CSI_TX_CTRL) (by intro i; unfold reg_CSI_TX_CTRL; omega) h,
    State.writeArray_misaligned s (base := reg_CHECK_FEED_CTRL) (by intro i; unfold reg_CHECK_FEED_CTRL; omega) h,
    State.writeArray_misaligned s (base := reg_CHECK_FEED_DATA) (by intro i; unfold reg_CHECK_FEED_DATA; omega) h]
  rfl

/-- A write that passes no access check changes nothing (R11). -/
theorem State.writePlain_refused {s : State} {a : Nat} {data : Word} (h : s.writeMask a data = none) : s.writePlain a data = s := by
  simp only [State.writePlain, h]

/-- A register that is no half of a pair and has no action of its own takes a write through its fields. -/
theorem State.hostWrite_plain {s : State} {port a : Nat} {data : Word} (hup : s.hostUp = true) (hlo : isPairLo a = false) (hhi : isPairHi a = false)
    (hact : s.writeActing a data = none) (harr : s.writeActingArray a data = none) : s.hostWrite port a data = s.writePlain a data := by
  simp [State.hostWrite, hup, hlo, hhi, hact, harr]

theorem State.hostWrite_down {s : State} (port a : Nat) (data : Word) (hup : s.hostUp = false) : s.hostWrite port a data = s := by
  simp [State.hostWrite, hup]

/-- A refused write to such a register is ignored, whether or not the target answers. -/
theorem State.hostWrite_refused {s : State} {port a : Nat} {data : Word} (hlo : isPairLo a = false) (hhi : isPairHi a = false)
    (hact : s.writeActing a data = none) (harr : s.writeActingArray a data = none) (hm : s.writeMask a data = none) :
    s.hostWrite port a data = s := by
  cases hup : s.hostUp with
  | false => exact State.hostWrite_down port a data hup
  | true => rw [State.hostWrite_plain hup hlo hhi hact harr, State.writePlain_refused hm]

theorem State.hostWrite_misaligned (s : State) (port : Nat) {a : Nat} (data : Word) (h : a % 4 ≠ 0) : s.hostWrite port a data = s :=
  State.hostWrite_refused (isPairLo_misaligned h) (isPairHi_misaligned h) (s.writeActing_misaligned data h) (s.writeActingArray_misaligned data h)
    (s.writeMask_misaligned data h)

/-- A misaligned address with no latch armed reads zero without effect. -/
theorem State.readReg_misaligned {s : State} {port a : Nat} (h : a % 4 ≠ 0) (hl : s.latch port a = none) : s.readReg port a = (0, s) := by
  have hr := s.reachable_misaligned h
  have harm : s.armLatches port a = s := by simp [State.armLatches, hr]
  simp [State.readReg, hl, s.peek_misaligned h, harm, State.advanceWindow, hr]

/-- Settles O32: a misaligned address is mapped to no register, so that no access to it has an effect of its own. -/
theorem misalignedIsUnmapped : Obligations.MisalignedIsUnmapped := by
  intro addr s h
  refine ⟨fun port data => ⟨?_, ?_, s.writeMask_misaligned data h⟩, s.peek_misaligned h, ?_, ?_⟩
  · show execRegisterWrite port addr data s = .next s
    simp [execRegisterWrite, isPairLo_misaligned h, isPairHi_misaligned h, s.hostWrite_misaligned port data h]
  · show execRegisterLoWrite port addr data s = .next s
    simp [execRegisterLoWrite, isPairLo_misaligned h]
  · intro haddr hlatch hptr hmax
    show execI3cPrivateRead 1 s = _
    have hn : min 1 (s.links.maxRead / 4) = 1 := by omega
    have hread : s.readReg i3cPort addr.toNat = (0, s) := State.readReg_misaligned h hlatch
    simp [execI3cPrivateRead, haddr, State.privateRead, hn, hptr, State.readWords, hread, State.setPointer]
  · intro haddr w hmax
    show execI3cPrivateWrite addr [w] s = _
    have hn : ∃ k, s.links.maxWrite / 4 - 1 = k + 1 := ⟨s.links.maxWrite / 4 - 2, by omega⟩
    obtain ⟨k, hk⟩ := hn
    simp [execI3cPrivateWrite, haddr, State.privateWrite, hk, State.writeWords, s.hostWrite_misaligned i3cPort w h]

/-! ### Reset -/

/-- Settles O3: every store starts empty. -/
theorem resetCanonical : Obligations.ResetCanonical := ⟨rfl, rfl, rfl, rfl, rfl, rfl, rfl⟩

/-- After reset every register holds its Reset value: the register file lists no difference. -/
theorem State.reg_reset (a : Nat) : State.reset.reg a = resetAt a := by
  have hraw : State.reset.rawReg a = resetAt a := BitVec.xor_zero
  have herr : State.reset.cast.fuseErr = false := rfl
  simp only [State.reg, herr, hraw, Bool.false_eq_true, if_false]

/-- Settles O6: the register file is empty, and so every register at its Reset value; the rest is read off `State.reset`. -/
theorem resetLeaves : Obligations.ResetLeaves := by
  refine ⟨by decide +kernel, rfl, rfl, State.reg_reset, by decide +kernel, by decide +kernel, rfl⟩

/-! ### The access codes (Table 0.2) -/

/-- The bits that a write sets, clears and raises lie apart in every register: no two fields overlap. -/
theorem regRows_access_apart : ∀ r ∈ regRows,
    r.maskOf (fun f => f.access == .rw || f.access == .rwl) &&& (r.maskOf (·.access == .w1c) ||| r.maskOf (·.access == .w1s)) = 0 ∧
      r.maskOf (·.access == .w1c) &&& r.maskOf (·.access == .w1s) = 0 := by decide +kernel

theorem maskAt_access_apart (a : Nat) :
    maskAt a (fun f => f.access == .rw || f.access == .rwl) &&& (maskAt a (·.access == .w1c) ||| maskAt a (·.access == .w1s)) = 0 ∧
      maskAt a (·.access == .w1c) &&& maskAt a (·.access == .w1s) = 0 := by
  unfold maskAt
  cases h : regRow a with
  | none => exact ⟨rfl, rfl⟩
  | some r => exact regRows_access_apart r (mem_regRows_of_regRow h)

/-- One bit of a written word, where at most one of the three kinds of access covers it. -/
theorem writtenBit_eq : ∀ m set clear raise old new : Bool, (set && (clear || raise)) = false → (clear && raise) = false →
    ((((old && !(m && set)) || (new && (m && set))) && !(m && clear && new)) || (m && raise && new)) =
      if m = false then old else if set then new else if clear then old && !new else if raise then old || new else old := by decide

/-- Bit `i` of a written word, by the access code of the field it lies in. -/
theorem getLsbD_writtenWord (a : Nat) (old m data : Word) (i : Nat) (hi : i < 32) : (writtenWord a old m data).getLsbD i =
    (if m.getLsbD i = false then old.getLsbD i
     else if (maskAt a (fun f => f.access == .rw || f.access == .rwl)).getLsbD i then data.getLsbD i
     else if (maskAt a (·.access == .w1c)).getLsbD i then old.getLsbD i && !data.getLsbD i
     else if (maskAt a (·.access == .w1s)).getLsbD i then old.getLsbD i || data.getLsbD i
     else old.getLsbD i) := by
  obtain ⟨hset, hclear⟩ := maskAt_access_apart a
  have hset := congrArg (fun w : Word => w.getLsbD i) hset
  have hclear := congrArg (fun w : Word => w.getLsbD i) hclear
  simp only [BitVec.getLsbD_and, BitVec.getLsbD_or] at hset hclear
  simp only [writtenWord, BitVec.getLsbD_or, BitVec.getLsbD_and, BitVec.getLsbD_not, hi, decide_true, Bool.true_and]
  exact writtenBit_eq _ _ _ _ _ _ (hset.trans BitVec.getLsbD_zero) (hclear.trans BitVec.getLsbD_zero)

/-! ### Writes to one register -/

/-- A granted write to a register that is not staged takes the access codes. -/
theorem State.writePlain_granted {s : State} {a : Nat} {data m : Word} (hst : stagedAddr a = false) (hm : s.writeMask a data = some m) :
    s.writePlain a data = s.applyWrite a m data := by
  simp only [State.writePlain, hm, State.putWord, hst, Bool.false_eq_true, if_false]

theorem State.rawReg_applyWrite_same (s : State) (a : Nat) (m data : Word) : (s.applyWrite a m data).rawReg a = writtenWord a (s.reg a) m data := by
  rw [State.applyWrite, State.rawReg_setReg, if_pos rfl]

theorem State.rawReg_applyWrite_other (s : State) {a b : Nat} (m data : Word) (h : b ≠ a) : (s.applyWrite a m data).rawReg b = s.rawReg b := by
  rw [State.applyWrite, State.rawReg_setReg, if_neg h]

theorem State.reg_applyWrite_other (s : State) {a b : Nat} (m data : Word) (h : b ≠ a) : (s.applyWrite a m data).reg b = s.reg b :=
  State.reg_setReg_other s a b _ h

/-- Nothing but the register written differs. -/
theorem State.applyWrite_only (s : State) (a : Nat) (m data : Word) : OnlyFields [whole a] s (s.applyWrite a m data) :=
  ⟨rfl, regsBut_setReg (by simp) (regsBut_refl _ s)⟩

/-- Settles O12: the write reaches the register's bits under the grant's mask, each by its access code, or is ignored. -/
theorem plainWriteFollowsAccessCodes : Obligations.PlainWriteFollowsAccessCodes := by
  refine ⟨fun port addr data m s hup hlo hhi hact harr hst hm => ?_, fun port addr data s hlo hhi hact harr hm => ?_⟩
  · refine ⟨s.applyWrite addr.toNat m data, ?_, fun i hi => ?_, s.applyWrite_only addr.toNat m data⟩
    · show execRegisterWrite port addr data s = _
      simp [execRegisterWrite, hlo, hhi, State.hostWrite_plain hup hlo hhi hact harr, State.writePlain_granted hst hm]
    · rw [State.rawReg_applyWrite_same, getLsbD_writtenWord _ _ _ _ i hi]
  · show execRegisterWrite port addr data s = _
    simp [execRegisterWrite, hlo, hhi, State.hostWrite_refused hlo hhi hact harr hm]

/-! ### Held words and pairs (R14) -/

theorem State.heldLow_holdLow_same (s : State) (port a : Nat) (w : Word) : (s.holdLow port a w).heldLow port a = some w := by
  simp only [State.heldLow, State.holdLow, Store.get_set_same]

theorem State.heldLow_holdLow_other (s : State) (port a p b : Nat) (w : Word) (h : portKey p b ≠ portKey port a) :
    (s.holdLow port a w).heldLow p b = s.heldLow p b := by
  simp only [State.heldLow, State.holdLow, Store.get_set_other _ _ _ _ _ h]

theorem State.heldLow_dropLow_same (s : State) (port a : Nat) : (s.dropLow port a).heldLow port a = none := by
  simp only [State.heldLow, State.dropLow, Store.get_set_same]

/-- A write of a _LO word is held. -/
theorem State.hostWrite_lo {s : State} {port a : Nat} {data : Word} (hup : s.hostUp = true) (hlo : isPairLo a = true) :
    s.hostWrite port a data = s.holdLow port a data := by
  simp [State.hostWrite, hup, hlo]

/-- A write of a _HI word that is no _LO word writes the pair. -/
theorem State.hostWrite_hi {s : State} {port a : Nat} {data : Word} (hup : s.hostUp = true) (hhi : isPairHi a = true) (hlo : isPairLo a = false) :
    s.hostWrite port a data = s.writePair port a data := by
  simp [State.hostWrite, hup, hhi, hlo]

theorem exec_registerHiWrite_of_hi {s : State} {port : Nat} {addr data : Word} (hhi : isPairHi addr.toNat = true) :
    exec (.registerHiWrite port addr data) s = .next (s.hostWrite port addr.toNat data) := by
  show execRegisterHiWrite port addr data s = _
  simp [execRegisterHiWrite, hhi]

/-- With both words granted the pair is written and the held word forgotten. -/
theorem State.writePair_both {s : State} {port a : Nat} {data lo m k : Word} (hheld : s.heldLow port (a - 4) = some lo)
    (hm : s.writeMask a data = some m) (hk : s.writeMask (a - 4) lo = some k) :
    s.writePair port a data = ((s.putWord (a - 4) k lo).putWord a m data).dropLow port (a - 4) := by
  simp only [State.writePair, hm, hheld, hk]

/-- Without a held word the _HI word is written alone. -/
theorem State.writePair_alone {s : State} {port a : Nat} {data m : Word} (hheld : s.heldLow port (a - 4) = none)
    (hm : s.writeMask a data = some m) : s.writePair port a data = s.putWord a m data := by
  simp only [State.writePair, hm, hheld]

/-- A refused word of either half refuses the pair. -/
theorem State.writePair_refused_hi {s : State} {port a : Nat} {data : Word} (hm : s.writeMask a data = none) : s.writePair port a data = s := by
  simp only [State.writePair, hm]

theorem State.writePair_refused_lo {s : State} {port a : Nat} {data lo : Word} (hheld : s.heldLow port (a - 4) = some lo)
    (hk : s.writeMask (a - 4) lo = none) : s.writePair port a data = s := by
  unfold State.writePair
  cases s.writeMask a data with
  | none => rfl
  | some m => simp only [hheld, hk]

/-- A pair whose write leaves the state alone is ignored, whether or not the target answers. -/
theorem State.hostWrite_pair_refused {s : State} {port a : Nat} {data : Word} (hhi : isPairHi a = true) (hlo : isPairLo a = false)
    (h : s.writePair port a data = s) : s.hostWrite port a data = s := by
  cases hup : s.hostUp with
  | false => exact State.hostWrite_down port a data hup
  | true => rw [State.hostWrite_hi hup hhi hlo, h]

theorem State.putWord_plain {s : State} {a : Nat} {m data : Word} (h : stagedAddr a = false) : s.putWord a m data = s.applyWrite a m data := by
  simp [State.putWord, h]

theorem State.putWord_staged {s : State} {a : Nat} {m data : Word} (h : stagedAddr a = true) : s.putWord a m data = s.stageTout a m data := by
  simp [State.putWord, h]

theorem State.staged_stageTout_same (s : State) (a : Nat) (m data : Word) : Store.get none (s.stageTout a m data).timers.staged a =
    some (writtenWord a ((Store.get none s.timers.staged a).getD (s.reg a)) m data) := by
  simp only [State.stageTout, Store.get_set_same]

theorem State.staged_stageTout_other (s : State) {a b : Nat} (m data : Word) (h : b ≠ a) :
    Store.get none (s.stageTout a m data).timers.staged b = Store.get none s.timers.staged b := by
  simp only [State.stageTout, Store.get_set_other _ _ _ _ _ h]

theorem State.rawReg_dropLow (s : State) (port a b : Nat) : (s.dropLow port a).rawReg b = s.rawReg b := by
  simp only [State.rawReg, State.dropLow]

/-- Both registers of a pair written: each holds its own word, and the others theirs. -/
theorem State.applyWrite_pair (s : State) {a b : Nat} (data lo m k : Word) (hne : a ≠ b) :
    ((s.applyWrite b k lo).applyWrite a m data).rawReg b = writtenWord b (s.reg b) k lo ∧
      ((s.applyWrite b k lo).applyWrite a m data).rawReg a = writtenWord a (s.reg a) m data ∧
      RegsBut [whole b, whole a] s ((s.applyWrite b k lo).applyWrite a m data) := by
  refine ⟨?_, ?_, regsBut_setReg (by simp) (regsBut_setReg (by simp) (regsBut_refl _ s))⟩
  · rw [State.rawReg_applyWrite_other _ _ _ hne.symm, State.rawReg_applyWrite_same]
  · rw [State.rawReg_applyWrite_same, State.reg_applyWrite_other _ _ _ hne]

/-- Both words of a pair staged: each is kept for its register. -/
theorem State.stageTout_pair (s : State) {a b : Nat} (data lo m k : Word) (hne : a ≠ b) :
    Store.get none ((s.stageTout b k lo).stageTout a m data).timers.staged b =
        some (writtenWord b ((Store.get none s.timers.staged b).getD (s.reg b)) k lo) ∧
      Store.get none ((s.stageTout b k lo).stageTout a m data).timers.staged a =
        some (writtenWord a ((Store.get none s.timers.staged a).getD (s.reg a)) m data) := by
  refine ⟨?_, ?_⟩
  · rw [State.staged_stageTout_other _ _ _ hne.symm, State.staged_stageTout_same]
  · rw [State.staged_stageTout_same, State.staged_stageTout_other _ _ _ hne]
    rfl

/-- Settles O11: the held word waits for the _HI word, with which it is put into the register file, or staged, in one write. -/
theorem pairWriteTakesBoth : Obligations.PairWriteTakesBoth := by
  refine ⟨?_, ?_, ?_, ?_, ?_, ?_, ?_⟩
  · intro port addr data s hup hlo
    refine ⟨s.holdLow port addr.toNat data, ?_, s.heldLow_holdLow_same port _ data,
      fun p a h => s.heldLow_holdLow_other port _ p a data h, rfl⟩
    show execRegisterLoWrite port addr data s = _
    simp [execRegisterLoWrite, hlo, State.hostWrite_lo hup hlo]
  · intro port addr data lo m k s hup hhi hlo hst hstlo hheld hm hk
    have hne : addr.toNat ≠ addr.toNat - 4 := by have := four_le_of_isPairHi hhi; omega
    obtain ⟨hrlo, hrhi, hbut⟩ := s.applyWrite_pair data lo m k hne
    refine ⟨((s.applyWrite (addr.toNat - 4) k lo).applyWrite addr.toNat m data).dropLow port (addr.toNat - 4), ?_,
      (State.rawReg_dropLow _ _ _ _).trans hrlo, (State.rawReg_dropLow _ _ _ _).trans hrhi, State.heldLow_dropLow_same _ port _,
      regsBut_trans hbut (regsBut_of_regs rfl), rfl⟩
    rw [exec_registerHiWrite_of_hi hhi, State.hostWrite_hi hup hhi hlo, State.writePair_both hheld hm hk, State.putWord_plain hstlo,
      State.putWord_plain hst]
  · intro port addr data m s hup hhi hlo hst hheld hm
    refine ⟨_, ?_, State.rawReg_applyWrite_same s addr.toNat m data, s.applyWrite_only addr.toNat m data⟩
    rw [exec_registerHiWrite_of_hi hhi, State.hostWrite_hi hup hhi hlo, State.writePair_alone hheld hm, State.putWord_plain hst]
  · intro port addr data s hhi hlo hm
    rw [exec_registerHiWrite_of_hi hhi, State.hostWrite_pair_refused hhi hlo (State.writePair_refused_hi hm)]
  · intro port addr data lo s hhi hlo hheld hk
    rw [exec_registerHiWrite_of_hi hhi, State.hostWrite_pair_refused hhi hlo (State.writePair_refused_lo hheld hk)]
  · intro port addr data lo m k s hup hhi hlo hst hstlo hheld hm hk
    have hne : addr.toNat ≠ addr.toNat - 4 := by have := four_le_of_isPairHi hhi; omega
    obtain ⟨hslo, hshi⟩ := s.stageTout_pair data lo m k hne
    refine ⟨((s.stageTout (addr.toNat - 4) k lo).stageTout addr.toNat m data).dropLow port (addr.toNat - 4), ?_, hslo, hshi,
      State.heldLow_dropLow_same _ port _, rfl⟩
    rw [exec_registerHiWrite_of_hi hhi, State.hostWrite_hi hup hhi hlo, State.writePair_both hheld hm hk, State.putWord_staged hstlo,
      State.putWord_staged hst]
  · intro port addr data m s hup hhi hlo hst hheld hm
    refine ⟨_, ?_, State.staged_stageTout_same s addr.toNat m data, rfl⟩
    rw [exec_registerHiWrite_of_hi hhi, State.hostWrite_hi hup hhi hlo, State.writePair_alone hheld hm, State.putWord_staged hst]

/-! ### Latches (R13, R173, R204) -/

theorem State.latch_setLatch_same (s : State) (port a : Nat) (w : Option Word) : (s.setLatch port a w).latch port a = w := by
  simp only [State.latch, State.setLatch, Store.get_set_same]

theorem State.latch_setLatch_other (s : State) {port a p b : Nat} (w : Option Word) (h : portKey p b ≠ portKey port a) :
    (s.setLatch port a w).latch p b = s.latch p b := by
  simp only [State.latch, State.setLatch, Store.get_set_other _ _ _ _ _ h]

theorem portKey_inj {port a b : Nat} (h : portKey port a = portKey port b) : a = b := by
  unfold portKey at h
  omega

/-- A port's latches of a list of words, each with the value that `v` gives it. -/
def State.latchAll (s : State) (port : Nat) (l : List Nat) (v : Nat → Word) : State := l.foldl (fun t b => t.setLatch port b (some (v b))) s

theorem State.latchAll_frame (s : State) (port : Nat) (l : List Nat) (v : Nat → Word) :
    s.latchAll port l v = { s with ports := (s.latchAll port l v).ports } ∧ (s.latchAll port l v).ports.lows = s.ports.lows := by
  induction l generalizing s with
  | nil => exact ⟨rfl, rfl⟩
  | cons b r ih => exact ih (s.setLatch port b (some (v b)))

/-- Words that are not listed keep their latches. -/
theorem State.latch_latchAll_other (s : State) {port p a : Nat} {l : List Nat} (v : Nat → Word) (h : ∀ b ∈ l, portKey p a ≠ portKey port b) :
    (s.latchAll port l v).latch p a = s.latch p a := by
  induction l generalizing s with
  | nil => rfl
  | cons b r ih =>
    obtain ⟨hb, hr⟩ := List.forall_mem_cons.mp h
    exact (ih (s.setLatch port b (some (v b))) hr).trans (s.latch_setLatch_other _ hb)

/-- Every listed word is latched. -/
theorem State.latch_latchAll_mem (s : State) {port a : Nat} {l : List Nat} (v : Nat → Word) (h : a ∈ l) :
    (s.latchAll port l v).latch port a = some (v a) := by
  induction l generalizing s with
  | nil => simp at h
  | cons b r ih =>
    by_cases hr : a ∈ r
    · exact ih (s.setLatch port b (some (v b))) hr
    · have hab : a = b := (List.mem_cons.mp h).resolve_right hr
      subst hab
      refine (State.latch_latchAll_other (s.setLatch port a (some (v a))) v fun b hb e => hr ?_).trans (s.latch_setLatch_same port a _)
      exact portKey_inj e ▸ hb

/-- The windows' data words are no pairs, so that a _LO read does not advance them. -/
theorem ne_window_of_isPairLo {a : Nat} (h : isPairLo a = true) : a ≠ reg_ATTEST_WIN_DATA ∧ a ≠ reg_FAULT_LOG_DATA := by
  have hatt : isPairLo reg_ATTEST_WIN_DATA = false := by decide +kernel
  have hlog : isPairLo reg_FAULT_LOG_DATA = false := by decide +kernel
  refine ⟨fun e => ?_, fun e => ?_⟩
  · rw [e, hatt] at h; contradiction
  · rw [e, hlog] at h; contradiction

theorem State.advanceWindow_other (s : State) {a : Nat} (h1 : a ≠ reg_ATTEST_WIN_DATA) (h2 : a ≠ reg_FAULT_LOG_DATA) : s.advanceWindow a = s := by
  simp [State.advanceWindow, h1, h2]

/-- A read answers an armed latch, and disarms it. -/
theorem State.answerRead_latched {s : State} {port a : Nat} {w : Word} (hup : s.hostUp = true) (hl : s.latch port a = some w) :
    s.answerRead port a = (s.setLatch port a none).answerWord w := by
  simp [State.answerRead, hup, State.readReg, hl]

/-- A read of a _LO word answers the present word and arms the latches of the words read with it. -/
theorem State.answerRead_lo {s : State} {port a : Nat} (hup : s.hostUp = true) (hlo : isPairLo a = true) (hl : s.latch port a = none)
    (hr : s.reachable a = true) : s.answerRead port a = (s.latchAll port (latchedWith a) s.peek).answerWord (s.peek a) := by
  obtain ⟨h1, h2⟩ := ne_window_of_isPairLo hlo
  have harm : s.armLatches port a = s.latchAll port (latchedWith a) s.peek := by simp [State.armLatches, hr, hlo, State.latchAll]
  simp [State.answerRead, hup, State.readReg, hl, harm, State.advanceWindow_other _ h1 h2]

/-- A read of a word that latches nothing and advances no window answers the present word. -/
theorem State.answerRead_live {s : State} {port a : Nat} (hup : s.hostUp = true) (hlo : isPairLo a = false) (hl : s.latch port a = none)
    (h1 : a ≠ reg_ATTEST_WIN_DATA) (h2 : a ≠ reg_FAULT_LOG_DATA) : s.answerRead port a = s.answerWord (s.peek a) := by
  have harm : s.armLatches port a = s := by simp [State.armLatches, hlo]
  simp [State.answerRead, hup, State.readReg, hl, harm, State.advanceWindow_other _ h1 h2]

theorem exec_registerLoRead_of_lo {s : State} {port : Nat} {addr : Word} (hlo : isPairLo addr.toNat = true) :
    exec (.registerLoRead port addr) s = .next (s.answerRead port addr.toNat) := by
  show execRegisterLoRead port addr s = _
  simp [execRegisterLoRead, hlo]

theorem exec_registerHiRead_of_hi {s : State} {port : Nat} {addr : Word} (hhi : isPairHi addr.toNat = true) :
    exec (.registerHiRead port addr) s = .next (s.answerRead port addr.toNat) := by
  show execRegisterHiRead port addr s = _
  simp [execRegisterHiRead, hhi]

theorem exec_registerHiRead_of_group {s : State} {port : Nat} {addr : Word} (n : Fin 12)
    (h : addr.toNat ∈ latchedWith reg_TIME_NOW_SEC_LO ∨ addr.toNat ∈ latchedWith (reg_STREAM_FS_SEC_LO n)) :
    exec (.registerHiRead port addr) s = .next (s.answerRead port addr.toNat) := by
  show execRegisterHiRead port addr s = _
  unfold execRegisterHiRead
  refine if_pos (Or.inr (h.imp (fun h => List.contains_iff_mem.mpr h) fun h => ?_))
  exact List.any_eq_true.mpr ⟨n, List.mem_range.mpr n.isLt, List.contains_iff_mem.mpr h⟩

/-- What a read of an armed latch leaves. -/
theorem State.answerLatched_spec (s : State) (port a : Nat) (w : Word) :
    ((s.setLatch port a none).answerWord w).out.words = [w] ∧ ((s.setLatch port a none).answerWord w).latch port a = none ∧
      (∀ p b, portKey p b ≠ portKey port a → ((s.setLatch port a none).answerWord w).latch p b = s.latch p b) :=
  ⟨rfl, s.latch_setLatch_same port a none, fun _ _ h => s.latch_setLatch_other none h⟩

/-- The answer to a _LO read changes the output and the port's latches alone. -/
theorem State.answerLo_frame (s : State) (port : Nat) (l : List Nat) (v : Nat → Word) (w : Word) :
    (s.latchAll port l v).answerWord w =
        { s with out := ((s.latchAll port l v).answerWord w).out, ports := ((s.latchAll port l v).answerWord w).ports } ∧
      ((s.latchAll port l v).answerWord w).ports.lows = s.ports.lows := by
  obtain ⟨hframe, hlows⟩ := s.latchAll_frame port l v
  refine ⟨?_, hlows⟩
  conv => lhs; rw [hframe]
  conv => rhs; rw [hframe]
  rfl

/-- Settles O8: a _LO read arms the latches of the words read with it, and a latched word is answered once. -/
theorem pairReadLatches : Obligations.PairReadLatches := by
  refine ⟨?_, ?_, ?_, ?_, ?_⟩
  · intro port addr s hup hlo hl hwith hr
    obtain ⟨hframe, hlows⟩ := s.answerLo_frame port (latchedWith addr.toNat) s.peek (s.peek addr.toNat)
    refine ⟨(s.latchAll port (latchedWith addr.toNat) s.peek).answerWord (s.peek addr.toNat), ?_, rfl,
      s.latch_latchAll_mem s.peek (by simp [hwith]), fun p a h => s.latch_latchAll_other s.peek (by simpa [hwith] using h), hframe, hlows⟩
    rw [exec_registerLoRead_of_lo hlo, State.answerRead_lo hup hlo hl hr]
  · intro port addr w s hup hhi hl
    obtain ⟨hwords, hself, hothers⟩ := s.answerLatched_spec port addr.toNat w
    refine ⟨_, ?_, hwords, hself, hothers, rfl, rfl⟩
    rw [exec_registerHiRead_of_hi hhi, State.answerRead_latched hup hl]
  · intro port addr s hup hhi hl hlo h1 h2
    refine ⟨s.answerWord (s.peek addr.toNat), ?_, rfl, rfl⟩
    rw [exec_registerHiRead_of_hi hhi, State.answerRead_live hup hlo hl h1 h2]
  · intro port addr s hup hlo hl hr
    obtain ⟨hframe, hlows⟩ := s.answerLo_frame port (latchedWith addr.toNat) s.peek (s.peek addr.toNat)
    refine ⟨(s.latchAll port (latchedWith addr.toNat) s.peek).answerWord (s.peek addr.toNat), ?_, rfl,
      fun b hb => s.latch_latchAll_mem s.peek hb, hframe, hlows⟩
    rw [exec_registerLoRead_of_lo hlo, State.answerRead_lo hup hlo hl hr]
  · intro port n addr w s hup hl hgroup
    obtain ⟨hwords, hself, -⟩ := s.answerLatched_spec port addr.toNat w
    refine ⟨_, ?_, hwords, hself, rfl, rfl⟩
    rw [exec_registerHiRead_of_group n hgroup, State.answerRead_latched hup hl]

end Sys2Proof.Machine
end

section
/-!
PROOF. What every command keeps: each answers a next state, in which the stores are canonical where they were and the commands that wait are the
same. One lemma for each command, assembled from the laws of the operations it calls (Laws/KeptOps).
-/
-- One thread elaborates the file, as in Laws/: each further one takes a stack of its own.
set_option Elab.async false
open Sys2Proof

namespace Sys2Proof.Machine
open State

variable {C : Prop} {q : List Instr} {s : State}

/-- The outcome is a next state; in it the commands that wait are `q`, and the stores are canonical where `C` holds. -/
def NextKept (C : Prop) (q : List Instr) (o : Host.Outcome State Fault Refusal) : Prop := ∃ t, o = .next t ∧ t.Kept C q

theorem NextKept.next {t : State} (h : t.Kept C q) : NextKept C q (.next t) := ⟨t, rfl, h⟩

theorem NextKept.ite {c : Prop} [Decidable c] {a b : Host.Outcome State Fault Refusal} (ha : NextKept C q a) (hb : NextKept C q b) :
    NextKept C q (if c then a else b) := by
  split
  · exact ha
  · exact hb

/-- A command that acts where a condition holds, and else leaves a state as it is. -/
theorem NextKept.guard {c : Prop} [Decidable c] {o : Host.Outcome State Fault Refusal} {t : State} (h : t.Kept C q) (ho : NextKept C q o) :
    NextKept C q (if c then o else .next t) := .ite ho (.next h)

/-- A command that acts where a condition fails. -/
theorem NextKept.unless {c : Prop} [Decidable c] {o : Host.Outcome State Fault Refusal} {t : State} (h : t.Kept C q) (ho : NextKept C q o) :
    NextKept C q (if c then .next t else o) := .ite (.next h) ho

/-- A change beside the stores and the queue keeps both. -/
theorem State.Kept.same {t : State} (h : s.Kept C q) (hregs : t.regs = s.regs := by rfl) (hshadow : t.shadow = s.shadow := by rfl)
    (hsram : t.sram = s.sram := by rfl) (hlog : t.integ.log = s.integ.log := by rfl) (hdram : t.mem.bytes = s.mem.bytes := by rfl)
    (hrecords : t.mem.recordBytes = s.mem.recordBytes := by rfl) (hflash : t.srch.flash = s.srch.flash := by rfl)
    (hqueue : t.pending = s.pending := by rfl) : t.Kept C q :=
  kept_mk h hregs hshadow hsram hlog hdram hrecords hflash hqueue

/-- A change made under a condition keeps what the change keeps. -/
theorem kept_when {c : Prop} [Decidable c] {t : State} (h : s.Kept C q) (ht : s.Kept C q → t.Kept C q) : (if c then t else s).Kept C q :=
  kept_ite (ht h) h

/-- So does one made where the condition fails. -/
theorem kept_unless {c : Prop} [Decidable c] {t : State} (h : s.Kept C q) (ht : s.Kept C q → t.Kept C q) : (if c then s else t).Kept C q :=
  kept_ite h (ht h)

/-- Changes made one after the other, until one cannot be made. -/
theorem kept_foldl_bind {α : Type} {g : State → α → Option State} {l : List α} {t : State} (h : s.Kept C q)
    (hg : ∀ u x v, g u x = some v → u.Kept C q → v.Kept C q)
    (ht : l.foldl (fun (a : Option State) x => a.bind fun u => g u x) (some s) = some t) : t.Kept C q := by
  have hnone : ∀ l : List α, l.foldl (fun (a : Option State) x => a.bind fun u => g u x) none = none := by
    intro l
    induction l with
    | nil => rfl
    | cons x r ih => exact ih
  induction l generalizing s with
  | nil => exact Option.some.inj ht ▸ h
  | cons x r ih =>
    simp only [List.foldl_cons, Option.bind_some] at ht
    cases hx : g s x with
    | none => rw [hx, hnone] at ht; contradiction
    | some u => exact ih (hg s x u hx h) (hx ▸ ht)

/-- The state without the body that a command takes from the queue of bodies. -/
theorem State.nextBody_kept_rest {dt : Nat} {b : CommandBody} {t : State} (e : s.nextBody dt = some (b, t)) (h : s.Kept C q) : t.Kept C q :=
  State.nextBody_kept e h

/-- Where the patrol scrub reads next is no store's content. -/
theorem movedScrub_kept (a : Nat) (h : s.Kept C q) : State.Kept C q { s with mem := { s.mem with scrub := a } } := h.same

section Commands
variable (h : s.Kept C q)
include h

/-! ### Register access -/

theorem execRegisterWrite_nextKept (port : Nat) (addr data : Word) : NextKept C q (execRegisterWrite port addr data s) :=
  .unless h (.next (hostWrite_kept h))

theorem execRegisterLoWrite_nextKept (port : Nat) (addr data : Word) : NextKept C q (execRegisterLoWrite port addr data s) :=
  .guard h (.next (hostWrite_kept h))

theorem execRegisterHiWrite_nextKept (port : Nat) (addr data : Word) : NextKept C q (execRegisterHiWrite port addr data s) :=
  .guard h (.next (hostWrite_kept h))

theorem execRegisterLoRead_nextKept (port : Nat) (addr : Word) : NextKept C q (execRegisterLoRead port addr s) :=
  .guard h (.next (answerRead_kept h))

theorem execRegisterHiRead_nextKept (port : Nat) (addr : Word) : NextKept C q (execRegisterHiRead port addr s) :=
  .guard h (.next (answerRead_kept h))

theorem execTimeNowSecLoRead_nextKept (port : Nat) : NextKept C q (execTimeNowSecLoRead port s) := .next (answerRead_kept h)

theorem execAttestWinDataRead_nextKept (port : Nat) : NextKept C q (execAttestWinDataRead port s) :=
  .guard (answerWord_kept h) (.next (addWrap_kept (answerWord_kept h)))

theorem execFaultLogDataRead_nextKept (port : Nat) : NextKept C q (execFaultLogDataRead port s) :=
  .guard (Kept.same h) (.next (Kept.same (setFld_kept h)))

/-! ### Swatch resets, clocks and crossings -/

theorem execSwReset_nextKept (data : Word) : NextKept C q (execSwReset data s) := by
  unfold execSwReset
  split
  · exact .next h
  · exact .unless h (.next (askReset_kept h))

theorem execSwatchResetRequest_nextKept (swatch : Fin 48) (cause : Fin 4) : NextKept C q (execSwatchResetRequest swatch cause s) :=
  .unless h (.unless (takeRequest_kept h) (.next (kept_ite (beginWarm_kept (recordReset_kept (takeRequest_kept h))) (enterReset_kept
    (recordReset_kept (takeRequest_kept h))))))

theorem execSwatchSramCleared_nextKept (group : Fin 44) : NextKept C q (execSwatchSramCleared group s) :=
  .unless h (.next (reloadRegs_kept (setGroupPhase_kept h)))

theorem execSwatchResetRelease_nextKept (group : Fin 44) : NextKept C q (execSwatchResetRelease group s) :=
  .unless h (.next (kept_unless (resumeGroup_kept (takeSteps_kept (setInReset_kept (setGroupPhase_kept h)))) finishRestore_kept))

theorem execSwatchRestoreDone_nextKept (group : Fin 44) : NextKept C q (execSwatchRestoreDone group s) := .unless h (.next (finishRestore_kept h))

theorem execPllUnlock_nextKept (pll : Fin 4) : NextKept C q (execPllUnlock pll s) := .guard h (.next (unlockPll_kept h))

theorem execPllTimeRelock_nextKept : NextKept C q (execPllTimeRelock s) := .unless h (.next (setFlag_kept (setFld_kept h)))

theorem execEventCrossingPulse_nextKept (crossing : Fin 70) (drained : Nat) : NextKept C q (execEventCrossingPulse crossing drained s) :=
  .guard h (.next (pulse_kept h))

theorem execDataCrossingMessage_nextKept (msg : CrossingMessage) : NextKept C q (execDataCrossingMessage msg s) :=
  .unless h (.unless (kept_ite (kept_foldl h (fun _ _ => passLink_kept)) h)
    (.guard (drainPort_kept (Kept.same (kept_ite (kept_foldl h (fun _ _ => passLink_kept)) h)))
    (.next (Kept.same (kept_ite (kept_foldl h (fun _ _ => passLink_kept)) h)))))

/-! ### Cast-on -/

theorem execFuseSenseDone_nextKept (arrayOk : Bool) (raw : List Int) : NextKept C q (execFuseSenseDone arrayOk raw s) :=
  .unless h (.guard (sensed_kept (countBoot_kept h)) (.next (countBoot_kept h)))

theorem execPllSysLocked_nextKept : NextKept C q (execPllSysLocked s) := by
  unfold execPllSysLocked
  exact .unless h (.next (Kept.same (setFld_kept h)))

theorem execPllIoTimeLocked_nextKept : NextKept C q (execPllIoTimeLocked s) := by
  unfold execPllIoTimeLocked
  exact .unless h (.next (openEra_kept (Kept.same (setFlag_kept (setFld_kept h)))))

theorem execFlashModeReady_nextKept (density : Nat) (ok : Bool) : NextKept C q (execFlashModeReady density ok s) :=
  .unless h (.guard (failBoth_kept h) (.next (setCast_kept h)))

theorem execSlotHeadersRead_nextKept (a b : List Byte) (ok : Bool) : NextKept C q (execSlotHeadersRead a b ok s) :=
  .unless h (.guard (failBoth_kept h) (.next (chooseSlot_kept h)))

theorem execSignatureVerified_nextKept (block : List Byte) (ok : Bool) : NextKept C q (execSignatureVerified block ok s) := by
  unfold execSignatureVerified
  split
  · exact .guard (failSlot_kept h) (.next (concludeHeader_kept h))
  · exact .next h

theorem execSectionRead_nextKept (bytes : List Byte) (ok : Bool) : NextKept C q (execSectionRead bytes ok s) := by
  unfold execSectionRead
  split
  · exact .unless h (.guard (failCurrent_kept h) (.next (takeSection_kept h)))
  · exact .next h

theorem execPllArithLocked_nextKept : NextKept C q (execPllArithLocked s) := .guard h (.next (setCast_kept (setFld_kept h)))

theorem execMemTrainingDone_nextKept (ok : Bool) : NextKept C q (execMemTrainingDone ok s) :=
  .guard h (.guard (failCurrent_kept h) (.next (setCast_kept (setFlag_kept h))))

theorem execResidencyAnalysisDone_nextKept (core : Fin 2) (slot : Fin 8) : NextKept C q (execResidencyAnalysisDone core slot s) :=
  .unless h (.unless (judgeEarly_kept h) (.guard h (.next (coreRestored_kept (judgeBelow_kept h)))))

theorem execCastOnLock_nextKept (us : Nat) : NextKept C q (execCastOnLock us s) := by
  unfold execCastOnLock
  split
  · exact .guard h (.next (lock_kept h))
  · exact .next h

/-! ### Fuses, attestation and bind-off -/

theorem execRollbackCommit_nextKept (data : Word) : NextKept C q (execRollbackCommit data s) := by
  unfold execRollbackCommit
  split
  · exact .guard h (.next (blow_kept h))
  · exact .next h

theorem execFuseBitBlown_nextKept (reads : Bool) : NextKept C q (execFuseBitBlown reads s) := .unless h (.next (readBack_kept h))

theorem execProgram_nextKept (data : Word) : NextKept C q (execProgram data s) := by
  unfold execProgram
  split
  · exact .next (programWrite_kept h)
  · exact .next h

theorem execLockKeys_nextKept (data : Word) : NextKept C q (execLockKeys data s) := by
  unfold execLockKeys
  split
  · exact .next (programWrite_kept h)
  · exact .next h

theorem execAttestStart_nextKept (data : Word) : NextKept C q (execAttestStart data s) := by
  unfold execAttestStart
  split
  · exact .guard h (.next (attest_kept h))
  · exact .next h

theorem execAttestDone_nextKept : NextKept C q (execAttestDone s) :=
  .unless h (.next (raiseIbi_kept (setCast_kept (addSat_kept (setFlag_kept (setFlag_kept h))))))

theorem execBindOffRequest_nextKept (data : Word) : NextKept C q (execBindOffRequest data s) := by
  unfold execBindOffRequest
  split
  · exact .guard h (.next (beginBindOff_kept h))
  · exact .next h

theorem execBindOffNandDrained_nextKept : NextKept C q (execBindOffNandDrained s) := .unless h (.next (setCast_kept h))

theorem execBindOffComplete_nextKept : NextKept C q (execBindOffComplete s) := .unless h (.next (bound_kept h))

/-! ### The Class A loop -/

theorem execLoopStart_nextKept : NextKept C q (execLoopStart s) := by
  unfold execLoopStart
  split
  · exact .next h
  · exact .unless h (.unless (Kept.same h) (.guard (enterGrid_kept (setPeriodNumber_kept (startTiming_kept (advanceTo_kept h))))
      (.next (enterGrid_kept (classAMissed_kept (setPeriodNumber_kept (advanceTo_kept h)))))))

theorem execPeriodBoundary_nextKept : NextKept C q (execPeriodBoundary s) := .next (kept_ite (nextBoundary_kept h) h)

theorem execInputCutoff_nextKept : NextKept C q (execInputCutoff s) := .guard h (.next (closeInputs_kept (advanceTo_kept h)))

theorem execImuPropagationDone_nextKept : NextKept C q (execImuPropagationDone s) := by
  unfold execImuPropagationDone
  split
  · exact .guard h (.next (propagate_kept h))
  · exact .next h

theorem execEstimatorUpdateDone_nextKept : NextKept C q (execEstimatorUpdateDone s) := by
  unfold execEstimatorUpdateDone
  split
  · refine .unless h ?_
    split
    exact .next (afterEstimate_kept (kept_snd ‹_› (publishEstimate_kept h)))
  · exact .next h

theorem execSolverDeadline_nextKept : NextKept C q (execSolverDeadline s) := by
  unfold execSolverDeadline
  split
  · exact .unless h (.next (forceResult_kept (advanceTo_kept h)))
  · exact .next h

theorem execFrameBuild_nextKept (readyNs : Nat) : NextKept C q (execFrameBuild readyNs s) := by
  unfold execFrameBuild
  split
  · exact .next h
  · exact .unless h (.next (kept_when (buildFrames_kept (advanceTo_kept h)) gateForNap_kept))

theorem execLaunchHandoff_nextKept (eth : Fin 2) : NextKept C q (execLaunchHandoff eth s) := by
  unfold execLaunchHandoff
  split
  · exact .next h
  · exact .next (setMac_kept (advanceTo_kept h))

theorem execLaunchEgress_nextKept (eth : Fin 2) (tap : Tap) : NextKept C q (execLaunchEgress eth tap s) := by
  unfold execLaunchEgress
  dsimp only
  split
  · exact .next (atTap_kept h)
  · exact .unless (addSat_kept (setMac_kept (atTap_kept h))) (.guard (atTap_kept h) (.next (sendLaunched_kept (atTap_kept h))))

/-! ### Device time, Ethernet and timers -/

theorem execSyncReceived_nextKept (eth : Fin 2) (msg : SyncMessage) : NextKept C q (execSyncReceived eth msg s) :=
  .guard (expireAnnounces_kept (atTap_kept h)) (.unless (Kept.same (expireAnnounces_kept (atTap_kept h)))
    (.next (takeOffset_kept (Kept.same (expireAnnounces_kept (atTap_kept h))))))

theorem execTimeStep_nextKept : NextKept C q (execTimeStep s) := by
  unfold execTimeStep
  split
  · exact .next h
  · exact .next h
  · exact .next (stepTouts_kept (freeMac_kept (freeMac_kept (flushLaunch_kept (flushLaunch_kept (stepLoop_kept (setServo_kept
      (clearServoCounts_kept (setFlag_kept (setFlag_kept (kept_when (openEra_kept (Kept.same (takeWord_kept
      (takeBit_kept h)))) setRate_kept)))))))))))

theorem execSyncTimeout_nextKept : NextKept C q (execSyncTimeout s) := .guard h (.next (setServo_kept (Kept.same h)))

theorem execFreeRunTimeout_nextKept : NextKept C q (execFreeRunTimeout s) := .guard h (.next (setServo_kept (setFlag_kept (advanceTo_kept h))))

theorem execAnnounceReceived_nextKept (eth : Fin 2) (msg : AnnounceMessage) : NextKept C q (execAnnounceReceived eth msg s) :=
  .guard (expireAnnounces_kept h) (.next (selectMaster_kept (Kept.same (expireAnnounces_kept h))))

theorem execRearm_nextKept (data : Word) : NextKept C q (execRearm data s) := by
  unfold execRearm
  split
  · exact .guard h (.next (setFlag_kept h))
  · exact .next h

theorem execTimeRateWrite_nextKept (data : Word) : NextKept C q (execTimeRateWrite data s) := by
  unfold execTimeRateWrite
  split
  · exact .next h
  · exact .guard h (.next (setRate_kept h))

theorem execPdelayReqTimer_nextKept (eth : Fin 2) : NextKept C q (execPdelayReqTimer eth s) :=
  .guard h (.next (startPdelay_kept (setMac_kept (tickOn_kept h))))

theorem execPdelayExchangeDone_nextKept (eth : Fin 2) (completed : Bool) (delay : Nat) (nrr : Int) :
    NextKept C q (execPdelayExchangeDone eth completed delay nrr s) :=
  .unless h (.next (kept_ite (setFlag_kept (setMac_kept (kept_ite (setReg_kept (setReg_kept h)) h))) (kept_when (setMac_kept (kept_ite
    (setReg_kept (setReg_kept h)) h)) (fun hk => forgetAnnounce_kept (setFlag_kept hk)))))

theorem execPdelayReqReceived_nextKept (eth : Fin 2) (requester : Nat) (sequence : Nat) (taps : PdelayTaps) :
    NextKept C q (execPdelayReqReceived eth requester sequence taps s) :=
  .guard (atTap_kept h) (.next (setMac_kept (atTap_kept (atTap_kept h))))

theorem execEthFrameReceived_nextKept (eth : Fin 2) (frame : List Byte) (fcsOk : Bool) (tap : Tap) :
    NextKept C q (execEthFrameReceived eth frame fcsOk tap s) := by
  unfold execEthFrameReceived
  dsimp only
  refine .unless (atTap_kept h) ?_
  split
  · exact .next (setMac_kept (ingressStamp_kept (atTap_kept h)))
  · exact .guard (setMac_kept (atTap_kept h)) (.next (atTap_kept h))

theorem execFrameForwardEgress_nextKept (eth : Fin 2) (tap : Tap) : NextKept C q (execFrameForwardEgress eth tap s) := by
  unfold execFrameForwardEgress
  dsimp only
  split
  · exact .next (atTap_kept h)
  · refine .unless (atTap_kept h) (.unless (addWrap_kept (setMac_kept (takeBit_kept (scaleRate_kept (atTap_kept h))))) ?_)
    refine .unless (setMac_kept (atTap_kept h)) (.guard (setMac_kept (atTap_kept h)) ?_)
    split
    · exact .next (addWrap_kept (setMac_kept (takeBit_kept (scaleRate_kept (atTap_kept h)))))
    · exact .next (setMac_kept (scaleRate_kept (atTap_kept h)))

theorem execEthLinkChange_nextKept (eth : Fin 2) (speed : Fin 5) : NextKept C q (execEthLinkChange eth speed s) :=
  .unless h (.unless (loseLink_kept h) (.unless h (.next (startPdelay_kept (setFld_kept (setFlag_kept h))))))

theorem execEthPortReset_nextKept (eth : Fin 2) (data : Word) : NextKept C q (execEthPortReset eth data s) := by
  unfold execEthPortReset
  split
  · exact .guard h (.next (resetEthPort_kept h))
  · exact .next h

theorem execToutCtrlWrite_nextKept (tout : Fin 16) (data : Word) : NextKept C q (execToutCtrlWrite tout data s) := by
  unfold execToutCtrlWrite
  split
  · exact .next (applyTout_kept h)
  · exact .next h

theorem execToutEdge_nextKept (tout : Fin 16) : NextKept C q (execToutEdge tout s) := by
  unfold execToutEdge
  dsimp only
  split
  · exact .next h
  · exact .next (setTout_kept (advanceTo_kept h))
  · exact .next (setTout_kept (advanceTo_kept h))

theorem execTinEdge_nextKept (tin : Fin 4) (rising : Bool) (width : Nat) (tap : Tap) : NextKept C q (execTinEdge tin rising width tap s) :=
  .guard (atTap_kept h) (.guard (setFlag_kept (atTap_kept h)) (.next (setTin_kept (atTap_kept h))))

theorem execTinPop_nextKept (tin : Fin 4) (data : Word) : NextKept C q (execTinPop tin data s) := by
  unfold execTinPop
  split
  · exact .guard h (.next (setTin_kept h))
  · exact .next h

/-! ### Camera ingest -/

theorem execCsiFrameStart_nextKept (port : Fin 12) (vc : Fin 16) (header : HeaderVerdict) (number : Nat) (tap : Tap) :
    NextKept C q (execCsiFrameStart port vc header number tap s) := by
  unfold execCsiFrameStart
  dsimp only
  refine .guard (atTap_kept h) ?_
  split
  · exact .next (kept_when (takeHeader_kept (atTap_kept h)) Kept.same)
  · refine .guard (kept_when (takeHeader_kept (atTap_kept h)) Kept.same) ?_
    split
    · exact .next (beginFrame_kept (setStream_kept (noteStart_kept (badFrame_kept (kept_foldl (kept_when (takeHeader_kept
        (atTap_kept h)) Kept.same) (fun _ _ => passDeadline_kept))))))
    · exact .next (discardFrame_kept (setStream_kept (noteStart_kept (badFrame_kept (kept_foldl (kept_when (takeHeader_kept
        (atTap_kept h)) Kept.same) (fun _ _ => passDeadline_kept))))))

theorem execCsiLongPacket_nextKept (port : Fin 12) (vc : Fin 16) (dt : Nat) (header : HeaderVerdict) (payload : List Byte) (crcOk : Bool) :
    NextKept C q (execCsiLongPacket port vc dt header payload crcOk s) := by
  unfold execCsiLongPacket
  refine .guard h ?_
  split
  refine .unless (kept_snd ‹_› (takeHeader_kept h)) (.unless (kept_snd ‹_› (takeHeader_kept h)) ?_)
  split
  · exact .next (addSat_kept (kept_snd ‹_› (takeHeader_kept h)))
  · refine .unless (addSat_kept (kept_snd ‹_› (takeHeader_kept h))) (.unless (badCrc_kept (kept_snd ‹_› (takeHeader_kept h))) ?_)
    split
    · exact .next (storeLine_kept (kept_snd ‹_› (takeHeader_kept h)))
    · exact .next (kept_snd ‹_› (takeHeader_kept h))

theorem execCsiEmbeddedPacket_nextKept (port : Fin 12) (vc : Fin 16) (header : HeaderVerdict) (payload : List Byte) (crcOk : Bool) :
    NextKept C q (execCsiEmbeddedPacket port vc header payload crcOk s) := by
  unfold execCsiEmbeddedPacket
  refine .guard h ?_
  split
  refine .unless (kept_snd ‹_› (takeHeader_kept h)) ?_
  split
  · exact .next (addSat_kept (kept_snd ‹_› (takeHeader_kept h)))
  · refine .unless (badCrc_kept (kept_snd ‹_› (takeHeader_kept h))) ?_
    split
    · exact .next (storeEmbedded_kept (kept_snd ‹_› (takeHeader_kept h)))
    · exact .next (kept_snd ‹_› (takeHeader_kept h))

theorem execCsiFrameEnd_nextKept (port : Fin 12) (vc : Fin 16) (header : HeaderVerdict) (tap : Tap) :
    NextKept C q (execCsiFrameEnd port vc header tap s) := by
  unfold execCsiFrameEnd
  dsimp only
  refine .guard (atTap_kept h) (.unless (takeHeader_kept (atTap_kept h)) ?_)
  split
  · exact .next (takeHeader_kept (atTap_kept h))
  · split
    · exact .guard (publishFrame_kept (takeHeader_kept (atTap_kept h))) (.next (badFrame_kept (takeHeader_kept (atTap_kept h))))
    · exact .next (takeHeader_kept (atTap_kept h))

theorem execCsiPhyError_nextKept (port : Fin 12) : NextKept C q (execCsiPhyError port s) := .guard h (.next (badPort_kept (addSat_kept h)))

theorem execCsiRxPortReset_nextKept (port : Fin 12) (data : Word) : NextKept C q (execCsiRxPortReset port data s) := by
  unfold execCsiRxPortReset
  split
  · exact .guard h (.next (resetRxPort_kept h))
  · exact .next h

theorem execInstantIssue_nextKept (group : Fin 6) : NextKept C q (execInstantIssue group s) := by
  unfold execInstantIssue
  refine .guard h ?_
  split
  · exact .next (issueInstant_kept (kept_ite h (advanceTo_kept h)))
  · exact .next h

/-! ### Stitch markers and frame graphs -/

theorem execClaim_nextKept (marker : Fin 4096) (agent : BitVec 16) : NextKept C q (execClaim marker agent s) :=
  .guard h (.next (orProto_kept (fun _ he => claimOp_kept he h) h))

theorem execAdvance_nextKept (marker : Fin 4096) (agent : BitVec 16) (lines : Nat) : NextKept C q (execAdvance marker agent lines s) :=
  .guard h (.next (orProto_kept (fun _ he => advanceOp_kept he h) h))

theorem execPublish_nextKept (marker : Fin 4096) (agent : BitVec 16) : NextKept C q (execPublish marker agent s) :=
  .guard h (.next (orProto_kept (fun _ he => publishOp_kept he h) h))

theorem execAbandon_nextKept (marker : Fin 4096) (agent : BitVec 16) : NextKept C q (execAbandon marker agent s) :=
  .guard h (.next (orProto_kept (fun _ he => abandonOp_kept he h) h))

theorem execAcquire_nextKept (marker : Fin 4096) (agent : BitVec 16) (gen lines : Nat) : NextKept C q (execAcquire marker agent gen lines s) :=
  .guard h (.next (orProto_kept (fun _ he => acquireOp_kept he h) h))

theorem execRelease_nextKept (marker : Fin 4096) (agent : BitVec 16) : NextKept C q (execRelease marker agent s) :=
  .guard h (.next (orProto_kept (fun _ he => releaseOp_kept he h) h))

theorem execHold_nextKept (marker : Fin 4096) (agent : BitVec 16) : NextKept C q (execHold marker agent s) :=
  .guard h (.next (orProto_kept (fun _ he => holdOp_kept he h) h))

theorem execUnhold_nextKept (marker : Fin 4096) (agent : BitVec 16) : NextKept C q (execUnhold marker agent s) :=
  .guard h (.next (orProto_kept (fun _ he => unholdOp_kept he h) h))

theorem execActivationDeadline_nextKept (graph : Fin 8) : NextKept C q (execActivationDeadline graph s) := .guard h (.next (passDeadline_kept h))

theorem execNodeIssue_nextKept (graph : Fin 8) : NextKept C q (execNodeIssue graph s) := by
  unfold execNodeIssue
  split
  · exact .next h
  · split
    · exact .next h
    · dsimp only
      refine .unless h ?_
      split
      · exact .next (endNode_kept h)
      · exact .guard h (.next (issueNode_kept h))

/-! ### Vision engines and the verifier -/

theorem execNodeStart_nextKept (engine : Fin 10) : NextKept C q (execNodeStart engine s) := by
  unfold execNodeStart
  refine .guard h ?_
  split
  · exact .next (startNode_kept h)
  · exact .next h

theorem execEngineUnitDone_nextKept (engine : Fin 8) (ns : Nat) : NextKept C q (execEngineUnitDone engine ns s) := by
  unfold execEngineUnitDone
  refine .guard h ?_
  split
  · exact .next (runUnit_kept (addBusy_kept h))
  · exact .next h

theorem execNodeEnd_nextKept (graph : Fin 8) (node : Fin 64) : NextKept C q (execNodeEnd graph node s) := by
  unfold execNodeEnd
  split
  · exact .next h
  · refine .unless h ?_
    split
    · split
      exact .next (dispatch_kept (endNode_kept (kept_snd ‹_› (removeRequest_kept h))))
    · exact .guard h (.next (endNode_kept h))

theorem execKeepRun_nextKept (graph : Fin 8) (node : Fin 64) : NextKept C q (execKeepRun graph node s) := by
  unfold execKeepRun
  dsimp only
  split
  · exact .next h
  · split
    · exact .next h
    · exact .guard h (.next (runKeep_kept h))

theorem execVerifierJobSubmit_nextKept (requester : Fin 2) (job : List Byte) : NextKept C q (execVerifierJobSubmit requester job s) :=
  .unless (tellRequester_kept h) (.unless (tellRequester_kept (addSat_kept h)) (.next (takeJob_kept (Kept.same h))))

theorem execVerifierJobDone_nextKept (ns : Nat) : NextKept C q (execVerifierJobDone ns s) := by
  unfold execVerifierJobDone
  split
  · exact .guard h (.next (kept_when (endJob_kept (judgeJob_kept (addWrap_kept (addBusy_kept h)))) admitLoop_kept))
  · exact .next h

theorem execVerifierDeadline_nextKept : NextKept C q (execVerifierDeadline s) := by
  unfold execVerifierDeadline
  split
  · exact .next (endVerifying_kept (advanceTo_kept h))
  · exact .next h

theorem execSgmPassDone_nextKept (engine : Fin 2) (ns : Nat) : NextKept C q (execSgmPassDone engine ns s) := by
  unfold execSgmPassDone
  refine .guard h ?_
  split
  · exact .guard h (.next (sgmPass_kept (updNode_kept (addBusy_kept h))))
  · exact .next h

/-! ### The neural fabric -/

theorem execNeuralRequestArrive_nextKept (graph : Fin 8) (node : Fin 64) : NextKept C q (execNeuralRequestArrive graph node s) := by
  unfold execNeuralRequestArrive
  dsimp only
  split
  · exact .guard h (.unless (refuseRequest_kept h) (.guard (admitRequest_kept h) (.next (refuseRequest_kept h))))
  · exact .next h

theorem execNeuralRequestStart_nextKept (graph : Fin 8) (node : Fin 64) : NextKept C q (execNeuralRequestStart graph node s) := by
  unfold execNeuralRequestStart
  split
  · exact .guard h (.next (startRequest_kept h))
  · exact .next h

theorem execWeightChunkLoaded_nextKept (core : Fin 16) (stallNs : Nat) (errors : List (Nat × SymbolErrors)) :
    NextKept C q (execWeightChunkLoaded core stallNs errors s) := by
  unfold execWeightChunkLoaded
  split
  · exact .next h
  · split
    · exact .next h
    · dsimp only
      split
      · exact .next h
      · exact .guard h (.guard (failRequest_kept (setPair_kept (countStall_kept (checkWords_kept h))))
          (.next (takeChunk_kept (setPair_kept (countStall_kept (checkWords_kept h))))))

theorem execNeuralStepDone_nextKept (graph : Fin 8) (node : Fin 64) (ns : Nat) (errors : List (Nat × SymbolErrors)) :
    NextKept C q (execNeuralStepDone graph node ns errors s) := by
  unfold execNeuralStepDone
  split
  · exact .guard h (.guard (endStep_kept (serveFor_kept (arenaErrors_kept h))) (.next (failRequest_kept (serveFor_kept (arenaErrors_kept h)))))
  · exact .next h

theorem execNeuralRequestEnd_nextKept (graph : Fin 8) (node : Fin 64) : NextKept C q (execNeuralRequestEnd graph node s) := by
  unfold execNeuralRequestEnd
  split
  · exact .guard h (.next (dispatch_kept (endNode_kept (addWrap_kept (removeRequest_kept (kept_foldl (checkInputs_kept h)
      (fun _ _ => publishOutput_kept)))))))
  · exact .next h

/-! ### Objects and the mover -/

theorem execPromote_nextKept (holder : Fin 48) (object : Word) (tier : Fin 4) (pin : Bool) : NextKept C q (execPromote holder object tier pin s) :=
  .guard h (.next (arrive_kept (freshResults_kept h)))

theorem execEvict_nextKept (holder : Fin 48) (object : Word) (tier : Fin 4) : NextKept C q (execEvict holder object tier s) :=
  .guard h (.next (arrive_kept (freshResults_kept h)))

theorem execWriteback_nextKept (holder : Fin 48) (object : Word) : NextKept C q (execWriteback holder object s) :=
  .guard h (.next (arrive_kept (freshResults_kept h)))

theorem execPin_nextKept (holder : Fin 48) (object : Word) : NextKept C q (execPin holder object s) :=
  .guard h (.next (arrive_kept (freshResults_kept h)))

theorem execUnpin_nextKept (holder : Fin 48) (object : Word) : NextKept C q (execUnpin holder object s) :=
  .guard h (.next (arrive_kept (freshResults_kept h)))

theorem execMovePageCopied_nextKept (errors : ReadErrors) (programmed : Bool) : NextKept C q (execMovePageCopied errors programmed s) := by
  unfold execMovePageCopied
  dsimp only
  split
  · exact .next (freshResults_kept h)
  · refine .unless (freshResults_kept h) ?_
    split
    · exact .next (endMove_kept (freshResults_kept h))
    · split
      · exact .next (freshResults_kept h)
      · exact .unless
          (endMove_kept (kept_when (readRange_kept (freshResults_kept h)) fun hk => countRecordPages_kept (setMemBytes_kept hk)))
          (.next (Kept.same (kept_when (readRange_kept (freshResults_kept h)) fun hk => countRecordPages_kept (setMemBytes_kept hk))))

theorem execMoveSwitch_nextKept : NextKept C q (execMoveSwitch s) := by
  unfold execMoveSwitch
  dsimp only
  split
  · exact .next (freshResults_kept h)
  · exact .guard (endLease_kept (switchHome_kept (freshResults_kept h))) (.next (freshResults_kept h))

theorem execSpaceManagerEvict_nextKept (tier : Fin 4) : NextKept C q (execSpaceManagerEvict tier s) := by
  unfold execSpaceManagerEvict
  dsimp only
  refine .unless (freshResults_kept h) (.guard (setManaging_kept (freshResults_kept h)) ?_)
  split
  · exact .next (arrive_kept (setManaging_kept (freshResults_kept h)))
  · exact .unless (setManaging_kept (freshResults_kept h))
      (.next (refuseStaging_kept (kept_foldl (Kept.same (freshResults_kept h)) fun _ _ => finish_kept)))

theorem execObjectAccess_nextKept (unit : Fin 48) (object : Word) (offset length : Nat) (data : Option (List Byte)) (errors : ReadErrors) :
    NextKept C q (execObjectAccess unit object offset length data errors s) :=
  .unless (freshResults_kept h) (.guard (serveAccess_kept (freshResults_kept h)) (.next (holdAccess_kept (freshResults_kept h))))

theorem execPatrolScrubRead_nextKept (errors : SymbolErrors) : NextKept C q (execPatrolScrubRead errors s) := by
  unfold execPatrolScrubRead
  extract_lets on
  exact .unless h (.next (scrubWord_kept (movedScrub_kept _ h)))

theorem execDirectoryRebuildDone_nextKept : NextKept C q (execDirectoryRebuildDone s) := by
  unfold execDirectoryRebuildDone
  extract_lets fresh replayed
  have hfresh : fresh.Kept C q := freshResults_kept h
  have hreplayed : replayed.Kept C q := by
    refine kept_foldl hfresh fun _ _ hk => kept_foldl hk fun _ e hk => ?_
    split
    · exact kept_when hk setObject_kept
    · exact hk
  exact .unless hfresh (.next (serveWaiting_kept (serveHeld_kept (setFlag_kept (checkpointFull_kept hreplayed)))))

theorem execTileRegionReclaim_nextKept (channel : Fin 16) : NextKept C q (execTileRegionReclaim channel s) := by
  unfold execTileRegionReclaim
  dsimp only
  refine .unless (freshResults_kept h) ?_
  split
  · exact .next (freshResults_kept h)
  · split
    · exact .next (freshResults_kept h)
    · next hmoved =>
        exact .next (serveWaiting_kept (Kept.same
          (kept_foldl_bind (freshResults_kept h) (fun _ _ _ he hk => moveRecord_kept he hk) hmoved)))

theorem execMr4Poll_nextKept (interface : Fin 2) (mr4 : BitVec 8) : NextKept C q (execMr4Poll interface mr4 s) := .guard h (.next (Kept.same h))

/-! ### Tracking -/

theorem execImuSampleArrive_nextKept (imu : Fin 4) : NextKept C q (execImuSampleArrive imu s) := by
  unfold execImuSampleArrive
  split
  · exact .next h
  · exact .guard (Kept.same h) (.next (judgeSample_kept (Kept.same h)))

theorem execJointFrameArrive_nextKept (eth : Fin 2) : NextKept C q (execJointFrameArrive eth s) := by
  unfold execJointFrameArrive
  dsimp only
  split
  · exact .next h
  · exact .guard (setMac_kept h) (.guard (judgeJoints_kept (setMac_kept h)) (.next (addSat_kept (setMac_kept h))))

theorem execFeatureUpdateDone_nextKept (set : Fin 12) : NextKept C q (execFeatureUpdateDone set s) := by
  unfold execFeatureUpdateDone
  split
  · exact .guard h (.next (runFeatureUpdate_kept h))
  · exact .next h

theorem execTrackingUpdateDrop_nextKept (object : Bool) (set : Fin 12) : NextKept C q (execTrackingUpdateDrop object set s) := by
  unfold execTrackingUpdateDrop
  split
  · exact .guard h (.next (dropUpdates_kept h))
  · exact .next h

theorem execObjectUpdateDone_nextKept (set : Fin 8) : NextKept C q (execObjectUpdateDone set s) := by
  unfold execObjectUpdateDone
  split
  · split
    · exact .guard h (.next (runObjectUpdate_kept h))
    · exact .next h
  · exact .next h

theorem execAssignmentDone_nextKept (set : Fin 8) (us : Nat) : NextKept C q (execAssignmentDone set us s) := by
  unfold execAssignmentDone
  split
  · exact .guard h (.next (runAssignment_kept (raiseMax_kept h)))
  · exact .next h

/-! ### The solver fabric -/

theorem execLoad_nextKept (core : Fin 2) (slot : Fin 8) (descriptor values : Word) : NextKept C q (execLoad core slot descriptor values s) :=
  .guard h (.next (beginLoad_kept h))

theorem execLoadDone_nextKept : NextKept C q (execLoadDone s) := by
  unfold execLoadDone
  split
  · exact .guard h (.next (endLoad_kept h))
  · exact .next h

theorem execProblemSubmit_nextKept (task : Fin 3) (request : List Byte) : NextKept C q (execProblemSubmit task request s) :=
  .guard h (.next (taskSubmits_kept h))

theorem execProblemStart_nextKept : NextKept C q (execProblemStart s) := by
  unfold execProblemStart
  refine .unless h ?_
  split
  · exact .next h
  · exact .next (startProblem_kept (Kept.same h))

theorem execAssemblyDone_nextKept (core : Fin 2) (cycles : Nat) : NextKept C q (execAssemblyDone core cycles s) := by
  unfold execAssemblyDone
  split
  · exact .next (assemblyEnds_kept h)
  · exact .next h

theorem execFactorisationDone_nextKept (core : Fin 2) (cycles : Nat) : NextKept C q (execFactorisationDone core cycles s) := by
  unfold execFactorisationDone
  split
  · exact .next (factorisationEnds_kept h)
  · exact .next h

theorem execSolveDone_nextKept (core : Fin 2) (cycles : Nat) : NextKept C q (execSolveDone core cycles s) := by
  unfold execSolveDone
  split
  · exact .next (solveEnds_kept h)
  · exact .next h

theorem execProofCheckDone_nextKept (core : Fin 2) (cycles : Nat) : NextKept C q (execProofCheckDone core cycles s) := by
  unfold execProofCheckDone
  split
  · split
    · exact .guard h (.next (proofEnds_kept h))
    · exact .next h
  · exact .next h

theorem execIterationDone_nextKept (core : Fin 2) (cycles : Nat) : NextKept C q (execIterationDone core cycles s) := by
  unfold execIterationDone
  split
  · exact .next (iterationEnds_kept h)
  · exact .next h

theorem execRefineStepDone_nextKept (core : Fin 2) (cycles : Nat) : NextKept C q (execRefineStepDone core cycles s) := by
  unfold execRefineStepDone
  split
  · split
    · refine .unless h ?_
      split
      exact .next (goOn_kept (kept_snd ‹_› (spend_kept h)))
    · exact .next h
  · exact .next h

theorem execFinalCheckDone_nextKept (core : Fin 2) (cycles : Nat) : NextKept C q (execFinalCheckDone core cycles s) := by
  unfold execFinalCheckDone
  split
  · split
    · exact .guard h (.next (finalCheckEnds_kept h))
    · exact .next h
  · exact .next h

theorem execProblemDeadline_nextKept (core : Fin 2) : NextKept C q (execProblemDeadline core s) := by
  unfold execProblemDeadline
  refine .unless h (.unless (stopOther_kept h) ?_)
  split
  · exact .unless h (.next (stopTimeComes_kept (advanceTo_kept h)))
  · exact .next h

theorem execSolv1Suspend_nextKept : NextKept C q (execSolv1Suspend s) := .guard h (.next (suspendOther_kept h))

theorem execStopPointReceived_nextKept : NextKept C q (execStopPointReceived s) := by
  unfold execStopPointReceived
  split
  · exact .guard h (.next (settleStop_kept (Kept.same h)))
  · exact .next h

theorem execPairCompare_nextKept : NextKept C q (execPairCompare s) := .next (comparePair_kept h)

/-! ### Window and map tasks -/

theorem execWindowRun_nextKept : NextKept C q (execWindowRun s) := .next (windowRun_kept h)

theorem execPoseNodeCreate_nextKept : NextKept C q (execPoseNodeCreate s) := by
  unfold execPoseNodeCreate
  split
  · exact .next h
  · exact .unless h (.next (createNode_kept (setMap_kept h)))

theorem execPoseGraphBuild_nextKept : NextKept C q (execPoseGraphBuild s) := .guard h (.next (buildGraph_kept h))

theorem execPoseGraphResult_nextKept : NextKept C q (execPoseGraphResult s) := by
  unfold execPoseGraphResult
  split
  · exact .next h
  · exact .guard (setMap_kept (Kept.same h)) (.next (kept_foldl (kept_foldl (setMap_kept (Kept.same h)) (fun _ _ => rewriteNode_kept))
      (fun _ _ => arrive_kept)))

/-! ### Search, place search and imports -/

theorem execNandChannelInitDone_nextKept (channel : Fin 16) (same : Bool) (marks : List Nat) :
    NextKept C q (execNandChannelInitDone channel same marks s) :=
  .unless h (.unless (setFlag_kept (setFld_kept (Kept.same (setFlag_kept h)))) (.unless (setFld_kept (Kept.same (setFlag_kept h)))
    (.next (serveWaiting_kept (kept_foldl (setFlag_kept (setFld_kept (Kept.same (setFlag_kept h)))) (fun _ _ hk => kept_ite
    (readCommits_kept hk) hk))))))

theorem execIndexEpochLoadDone_nextKept (index : Fin 2) (bad : List Nat) : NextKept C q (execIndexEpochLoadDone index bad s) :=
  .unless h (.next (setFlag_kept (kept_when (countPages_kept (loadEpoch_kept h)) (fun hk => countPages_kept (setBooks_kept hk)))))

theorem execQuerySubmit_nextKept (classC : Bool) (descriptor : List Byte) : NextKept C q (execQuerySubmit classC descriptor s) :=
  .guard h (.next (submitQuery_kept h))

theorem execQueryAdmit_nextKept : NextKept C q (execQueryAdmit s) := by
  unfold execQueryAdmit
  split
  · exact .next h
  · exact .guard h (.next (feedProbe_kept (Kept.same h)))

theorem execCoarseBatchDone_nextKept : NextKept C q (execCoarseBatchDone s) := by
  unfold execCoarseBatchDone
  split
  · exact .next h
  · exact .unless h (.next (kept_foldl (kept_when (Kept.same h) reportRange_kept) (fun _ _ hk => kept_ite (reportRange_kept hk) hk)))

theorem execListPageRead_nextKept (channel : Fin 16) (region : Bool) (page retries ns : Nat) (ldpcOk : Bool) (errors : List (Nat × SymbolErrors)) :
    NextKept C q (execListPageRead channel region page retries ns ldpcOk errors s) := by
  unfold execListPageRead
  extract_lets c x wants failed read retried ues ces lost found bad counted b
  have hread : read.Kept C q := addBusy_kept (addWrap_kept h)
  have hretried : retried.Kept C q := kept_when hread addSat_kept
  have hlost : lost.Kept C q := kept_when hretried addSat_kept
  have hfound : found.Kept C q :=
    kept_ite (kept_foldl hlost fun _ _ => recordUe_kept) (kept_foldl (kept_foldl hlost fun _ _ => recordCe_kept) fun _ _ => recordUe_kept)
  have hcounted : counted.Kept C q := kept_when hfound addSat_kept
  exact .unless h (.next (Kept.same hcounted))

theorem execQueryMerge_nextKept : NextKept C q (execQueryMerge s) := by
  unfold execQueryMerge
  split
  · exact .guard h (.next (mergeQuery_kept h))
  · exact .next h

theorem execQueryDeadline_nextKept : NextKept C q (execQueryDeadline s) := by
  unfold execQueryDeadline
  split
  · exact .next (endQuery_kept (advanceTo_kept h))
  · exact .next h

theorem execPlaceQuery_nextKept : NextKept C q (execPlaceQuery s) := by
  unfold execPlaceQuery
  split
  · exact .next h
  · exact .unless h (.next (formPlace_kept (setMap_kept h)))

theorem execPlaceVote_nextKept : NextKept C q (execPlaceVote s) := by
  unfold execPlaceVote
  split
  · exact .guard h (.next (countVotes_kept h))
  · exact .next h

theorem execIndexBegin_nextKept : NextKept C q (execIndexBegin s) := by
  unfold execIndexBegin
  split
  · exact .guard h (.next (beginImport_kept h))
  · exact .next h

theorem execIndexPage_nextKept (failed : Bool) : NextKept C q (execIndexPage failed s) := by
  unfold execIndexPage
  split
  · refine .guard h ?_
    split
    · exact .guard h (.next (importPage_kept h))
    · exact .next (takeItem_kept h)
  · exact .next h

theorem execIndexEnd_nextKept : NextKept C q (execIndexEnd s) := by
  unfold execIndexEnd
  split
  · refine .guard h ?_
    split
    · exact .guard h (.next (importEnd_kept h))
    · exact .next (takeItem_kept h)
  · exact .next h

theorem execImportPinsClear_nextKept : NextKept C q (execImportPinsClear s) := by
  unfold execImportPinsClear
  split
  · exact .guard h (.next (setImport_kept (setFlag_kept (Kept.same h))))
  · exact .next h

theorem execImportEraseDone_nextKept (failed : Option (Fin 16 × Nat)) : NextKept C q (execImportEraseDone failed s) := by
  unfold execImportEraseDone
  split
  · refine .guard h ?_
    split
    · exact .next (importMedia_kept h)
    · exact .next (programPage_kept (clearBooks_kept (kept_foldl (Kept.same h) (fun _ _ => setFld_kept))))
  · exact .next h

theorem execImportCommitDone_nextKept (failed : Option (Fin 16)) : NextKept C q (execImportCommitDone failed s) := by
  unfold execImportCommitDone
  split
  · refine .guard h ?_
    split
    · exact .next (importMedia_kept h)
    · exact .next (stopImport_kept (setFlag_kept (readCommits_kept (Kept.same h))))
  · exact .next h

theorem execSrchProbeStart_nextKept (data : Word) : NextKept C q (execSrchProbeStart data s) := by
  unfold execSrchProbeStart
  split
  · exact .guard h (.next (startProbe_kept h))
  · exact .next h

theorem execProbeDone_nextKept : NextKept C q (execProbeDone s) := by
  unfold execProbeDone
  split
  · exact .unless h (.unless (feedProbe_kept h) (.unless h (.next (raiseIbi_kept (Kept.same (setFlag_kept (setFlag_kept h)))))))
  · exact .next h

/-! ### Transmit streams -/

theorem execTransmitPublication_nextKept (stream : Fin 16) : NextKept C q (execTransmitPublication stream s) := by
  unfold execTransmitPublication
  split
  · exact .guard h (.next (takeOffer_kept (Kept.same h)))
  · exact .next h

theorem execTransmitPacketDone_nextKept (port : Fin 4) : NextKept C q (execTransmitPacketDone port s) := by
  unfold execTransmitPacketDone
  dsimp only
  split
  · exact .next h
  · split
    · exact .next h
    · exact .unless h (.next (choosePacket_kept (kept_when (setTx_kept (setTxPort_kept (readLines_kept h))) (fun hk => addWrap_kept
        (endPayload_kept hk)))))

theorem execTransmitCut_nextKept (stream : Fin 16) : NextKept C q (execTransmitCut stream s) := by
  unfold execTransmitCut
  split
  · exact .guard h (.next (cutPayload_kept (advanceTo_kept h)))
  · exact .next h

theorem execCommandStatusSend_nextKept : NextKept C q (execCommandStatusSend s) := by
  unfold execCommandStatusSend
  dsimp only
  split
  · exact .next h
  · exact .unless h (.next (kept_foldl (Kept.same (kept_ite (advanceTo_kept h) h)) (fun _ _ hk => kept_ite (startPayload_kept (kept_ite
      (setTx_kept hk) hk)) (skipPayload_kept hk))))

theorem execTileDeltaSend_nextKept : NextKept C q (execTileDeltaSend s) := by
  unfold execTileDeltaSend
  split
  · exact .next (startPayload_kept (Kept.same (kept_ite (setTx_kept h) h)))
  · exact .next h

theorem execCsiTxPortReset_nextKept (port : Fin 4) (data : Word) : NextKept C q (execCsiTxPortReset port data s) := by
  unfold execCsiTxPortReset
  split
  · exact .guard h (.next (setFlag_kept (cutPort_kept h)))
  · exact .next h

/-! ### Commands of the host -/

theorem execCommandMessage_nextKept (port : Fin 12) (vc : Fin 16) (dt : BitVec 3) (bytes : List Byte) (checksum : Bool) (arrival : Tap) :
    NextKept C q (execCommandMessage port vc dt bytes checksum arrival s) :=
  .guard h (.next (decodeCommand_kept h))

theorem execQpDelta_nextKept : NextKept C q (execQpDelta s) := by
  unfold execQpDelta
  split
  · exact .next h
  · exact .unless (answerBody_kept (nextBody_kept_rest ‹_› h)) (.next (answerBody_kept (Kept.same (nextBody_kept_rest ‹_› h))))

theorem execTarget_nextKept : NextKept C q (execTarget s) := by
  unfold execTarget
  split
  · exact .next h
  · exact .next (answerBody_kept (Kept.same (nextBody_kept_rest ‹_› h)))

theorem execTile_nextKept : NextKept C q (execTile s) := by
  unfold execTile
  split
  · exact .next h
  · exact .unless (answerBody_kept (nextBody_kept_rest ‹_› h)) (.guard (extendAssembly_kept (nextBody_kept_rest ‹_› h))
      (.guard (beginAssembly_kept (nextBody_kept_rest ‹_› h))
        (.guard h (.next (answerBody_kept (setAssembly_kept (nextBody_kept_rest ‹_› h)))))))

theorem execTileAssemblyDone_nextKept : NextKept C q (execTileAssemblyDone s) := by
  unfold execTileAssemblyDone
  split
  · exact .next h
  · exact .unless h (.unless (addStatus_kept (setAssembly_kept h)) (.guard (serveWaiting_kept (addStatus_kept (placeTile_kept h)))
      (.next (addStatus_kept (setAssembly_kept h)))))

theorem execIndex_nextKept : NextKept C q (execIndex s) := by
  unfold execIndex
  split
  · exact .next h
  · exact .unless (answerBody_kept (nextBody_kept_rest ‹_› h)) (.next (answerBody_kept (Kept.same (nextBody_kept_rest ‹_› h))))

/-! ### The I3C target -/

theorem execI3cPrivateWrite_nextKept (addr : Word) (words : List Word) : NextKept C q (execI3cPrivateWrite addr words s) :=
  .next (kept_ite (privateWrite_kept h) h)

theorem execI3cSetReadPointer_nextKept (addr : Word) : NextKept C q (execI3cSetReadPointer addr s) := .next (kept_ite (setPointer_kept h) h)

theorem execI3cPrivateRead_nextKept (words : Nat) : NextKept C q (execI3cPrivateRead words s) := .next (kept_ite (privateRead_kept h) h)

theorem execHdrDdrWrite_nextKept (addr : Word) (words : List Word) : NextKept C q (execHdrDdrWrite addr words s) :=
  .next (kept_ite (privateWrite_kept h) h)

theorem execHdrDdrRead_nextKept (words : Nat) : NextKept C q (execHdrDdrRead words s) := .next (kept_ite (privateRead_kept h) h)

theorem execEnec_nextKept : NextKept C q (execEnec s) := .next (kept_ite (setFlag_kept h) h)

theorem execDisec_nextKept : NextKept C q (execDisec s) := .next (kept_ite (setFlag_kept h) h)

theorem execRstdaa_nextKept : NextKept C q (execRstdaa s) := .next (kept_ite (loseAddress_kept h) h)

theorem execEntdaa_nextKept (address : BitVec 7) : NextKept C q (execEntdaa address s) := .next (kept_ite (takeAddress_kept h) h)

theorem execSetdasa_nextKept (staticAddress address : BitVec 7) : NextKept C q (execSetdasa staticAddress address s) :=
  .next (kept_ite (takeAddress_kept h) h)

theorem execSetnewda_nextKept (address : BitVec 7) : NextKept C q (execSetnewda address s) := .next (kept_ite (takeAddress_kept h) h)

theorem execGetpid_nextKept : NextKept C q (execGetpid s) := .next (answerCcc_kept h)

theorem execGetbcr_nextKept : NextKept C q (execGetbcr s) := .next (answerCcc_kept h)

theorem execGetdcr_nextKept : NextKept C q (execGetdcr s) := .next (answerCcc_kept h)

theorem execGetstatus_nextKept : NextKept C q (execGetstatus s) := by
  unfold execGetstatus
  split
  exact .next (answerCcc_kept (kept_snd ‹_› (takeWord_kept h)))

theorem execGetmwl_nextKept : NextKept C q (execGetmwl s) := .next (answerCcc_kept h)

theorem execSetmwl_nextKept (length : Nat) : NextKept C q (execSetmwl length s) := .next (kept_ite (Kept.same h) h)

theorem execGetmrl_nextKept : NextKept C q (execGetmrl s) := .next (answerCcc_kept h)

theorem execSetmrl_nextKept (length : Nat) : NextKept C q (execSetmrl length s) := .next (kept_ite (Kept.same h) h)

theorem execRstactPort_nextKept : NextKept C q (execRstactPort s) := .next (kept_ite (loseAddress_kept h) h)

theorem execRstactWarm_nextKept : NextKept C q (execRstactWarm s) := .next (kept_ite h (kept_ite (beginWarm_kept h) (loseAddress_kept h)))

theorem execIbiSend_nextKept (accepted : Bool) : NextKept C q (execIbiSend accepted s) := by
  unfold execIbiSend
  split
  · exact .next (kept_ite (sendIbi_kept h) h)
  · exact .next h

/-! ### IMU ports -/

theorem execImuInitEntry_nextKept (acknowledged : Bool) : NextKept C q (execImuInitEntry acknowledged s) := by
  unfold execImuInitEntry
  refine .unless h ?_
  split
  · exact .next (settleInit_kept (addressImu_kept h))
  · split
    · exact .next (settleInit_kept (writeEntry_kept h))
    · exact .next (settleInit_kept h)

theorem execImuDrdyEdge_nextKept (imu : Fin 4) (rising : Bool) (tap : Tap) : NextKept C q (execImuDrdyEdge imu rising tap s) :=
  .guard h (.next (dataReady_kept h))

theorem execImuReadDone_nextKept (spi acknowledged : Bool) (bytes : List Byte) : NextKept C q (execImuReadDone spi acknowledged bytes s) := by
  unfold execImuReadDone
  split
  · exact .next h
  · exact .unless h (.next (serveBus_kept (kept_ite (kept_unless (setImuBus_kept h) Kept.same) (addSat_kept (setImuBus_kept h)))))

/-! ### The governor and power states -/

theorem execGovernorInterval_nextKept (microwatts : Nat) (raw : List Int) : NextKept C q (execGovernorInterval microwatts raw s) :=
  .unless h (.next (endInterval_kept (advanceTo_kept h)))

theorem execThermalTrip_nextKept : NextKept C q (execThermalTrip s) := .unless h (.next (beginWarm_kept h))

theorem execBrownHoldBegin_nextKept : NextKept C q (execBrownHoldBegin s) :=
  .unless h (.next (takeSteps_kept (markBrown_kept (Kept.same (setFlag_kept (addSat_kept h))))))

theorem execBrownHoldEnd_nextKept (us : Nat) : NextKept C q (execBrownHoldEnd us s) :=
  .unless h (.next (checkpointFull_kept (takeSteps_kept (Kept.same (setFlag_kept (raiseMax_kept h))))))

theorem execPwrReqRun_nextKept (data : Word) : NextKept C q (execPwrReqRun data s) := .next (writePowerRequest_kept h)

theorem execPwrReqDoze_nextKept (data : Word) : NextKept C q (execPwrReqDoze data s) := .next (writePowerRequest_kept h)

theorem execPwrReqNap_nextKept (data : Word) : NextKept C q (execPwrReqNap data s) := .next (writePowerRequest_kept h)

theorem execPwrReqHibernate_nextKept (data : Word) : NextKept C q (execPwrReqHibernate data s) := .next (writePowerRequest_kept h)

theorem execDozeEntered_nextKept : NextKept C q (execDozeEntered s) := by
  unfold execDozeEntered
  refine .unless h ?_
  split
  · exact .next (endEntry_kept (regate_kept (enterState_kept h)))
  · exact .next (regate_kept (enterState_kept h))
  · exact .next h

theorem execNapLoopStop_nextKept : NextKept C q (execNapLoopStop s) :=
  .unless h (.guard (kept_ite (nextBoundary_kept h) h) (.next (gateForNap_kept h)))

theorem execNapEntered_nextKept : NextKept C q (execNapEntered s) :=
  .unless h (.next (endEntry_kept (regate_kept (setPower_kept (enterState_kept h)))))

theorem execHibernateEntered_nextKept : NextKept C q (execHibernateEntered s) := .unless h (.next (hibernate_kept h))

theorem execWakeTime_nextKept : NextKept C q (execWakeTime s) := by
  unfold execWakeTime
  split
  · exact .guard h (.next (wakeEvent_kept (advanceTo_kept h)))
  · exact .next h

theorem execTin0Wake_nextKept (rising : Bool) : NextKept C q (execTin0Wake rising s) :=
  .unless h (.unless (kept_ite (powerUp_kept h) h) (.guard h (.next (wakeEvent_kept h))))

theorem execSleepTimer_nextKept : NextKept C q (execSleepTimer s) := .guard h (.next (powerUp_kept h))

theorem execWakeDone_nextKept : NextKept C q (execWakeDone s) := by
  unfold execWakeDone
  split
  · exact .next (woken_kept h)
  · exact .next h

/-! ### Resets of the device -/

theorem execPowerOn_nextKept : NextKept C q (execPowerOn s) := .next (railGood_kept (beginCold_kept h))

theorem execSupplyReset_nextKept (rail : Rail) : NextKept C q (execSupplyReset rail s) :=
  .next (Kept.same (beginCold_kept (cause := s.supplyCause rail) h))

theorem execResetN_nextKept (lowNs : Nat) : NextKept C q (execResetN lowNs s) := .unless h (.next (beginWarm_kept h))

theorem execRstCtrlWarm_nextKept (data : Word) : NextKept C q (execRstCtrlWarm data s) := by
  unfold execRstCtrlWarm
  split
  · exact .guard h (.next (beginWarm_kept h))
  · exact .next h

theorem execWarmResetEnd_nextKept : NextKept C q (execWarmResetEnd s) := .guard h (.next (endReset_kept (kept_ite (beginDue_kept h) h)))

theorem execColdResetEnd_nextKept (quietMs : Nat) : NextKept C q (execColdResetEnd quietMs s) := .guard h (.next (endReset_kept h))

theorem execRefclkAbsent_nextKept : NextKept C q (execRefclkAbsent s) :=
  .unless h (.next (Kept.same (kept_ite (kept_foldl h (fun _ _ => starvePll_kept)) h)))

/-! ### Check units, faults, watchdogs and snapshots -/

theorem execCheckFeedStart_nextKept (unit : Fin 8) (data : Word) : NextKept C q (execCheckFeedStart unit data s) := by
  unfold execCheckFeedStart
  split
  · exact .next (feedControl_kept h)
  · exact .next h

theorem execCheckFeedData_nextKept (unit : Fin 8) (data : Word) : NextKept C q (execCheckFeedData unit data s) := by
  unfold execCheckFeedData
  split
  · exact .next (feedData_kept h)
  · exact .next h

theorem execCheckFeedEnd_nextKept (unit : Fin 8) (data : Word) : NextKept C q (execCheckFeedEnd unit data s) := by
  unfold execCheckFeedEnd
  split
  · exact .next (feedControl_kept h)
  · exact .next h

theorem execCheckMessageDone_nextKept (unit : Fin 8) : NextKept C q (execCheckMessageDone unit s) := by
  unfold execCheckMessageDone
  split
  · exact .next h
  · exact .unless h (.next (freeUnit_kept (kept_when (recordResult_kept h) (fun hk => kept_when (setFlag_kept hk) recordMismatch_kept))))

theorem execFaultNodeFlit_nextKept (node : Fin 16) (flit : FaultFlit) : NextKept C q (execFaultNodeFlit node flit s) :=
  .guard h (.next (handleFlit_kept h))

theorem execFaultRootArrive_nextKept (flit : FaultFlit) : NextKept C q (execFaultRootArrive flit s) := .guard h (.next (rootTakes_kept h))

theorem execFaultWindowClose_nextKept (cause : Fin 17) : NextKept C q (execFaultWindowClose cause s) := by
  unfold execFaultWindowClose
  split
  · exact .next h
  · exact .next (Kept.same (advanceTo_kept h))

theorem execWdogSwatch_nextKept (swatch : Fin 48) : NextKept C q (execWdogSwatch swatch s) :=
  .unless h (.guard (askReset_kept (raiseFault_kept (setFlag_kept h))) (.next (chipWatchdog_kept (setFlag_kept h))))

theorem execWdogChipLoop_nextKept : NextKept C q (execWdogChipLoop s) := .guard h (.next (chipWatchdog_kept h))

theorem execWdogChipHost_nextKept : NextKept C q (execWdogChipHost s) := .guard h (.next (chipWatchdog_kept h))

theorem execWdogChipKick_nextKept (data : Word) : NextKept C q (execWdogChipKick data s) := by
  unfold execWdogChipKick
  split
  · exact .next h
  · exact .unless h (.guard (chipWatchdog_kept h) (.next (setFlag_kept h)))

theorem execSnapArm_nextKept (data : Word) : NextKept C q (execSnapArm data s) := by
  unfold execSnapArm
  split
  · exact .next (snapControl_kept h)
  · exact .next h

theorem execSnapCancel_nextKept (data : Word) : NextKept C q (execSnapCancel data s) := by
  unfold execSnapCancel
  split
  · exact .next (snapControl_kept h)
  · exact .next h

theorem execSnapshotInstant_nextKept : NextKept C q (execSnapshotInstant s) := by
  unfold execSnapshotInstant
  split
  · exact .next h
  · exact .guard h (.next (followSeries_kept (takeSnapshot_kept (advanceTo_kept h))))

theorem execSnapshotComplete_nextKept : NextKept C q (execSnapshotComplete s) := by
  unfold execSnapshotComplete
  split
  · exact .next h
  · exact .unless h (.next (offerDiag_kept (Kept.same (setFlag_kept (setFlag_kept (setFld_kept h))))))

/-! ### Test access -/

theorem execTestEnChange_nextKept (high : Bool) : NextKept C q (execTestEnChange high s) := by
  unfold execTestEnChange
  exact .unless h (.next (Kept.same (beginCold_kept (cause := 0) h)))

theorem execExtest_nextKept (pattern : Nat) : NextKept C q (execExtest pattern s) := .next (tapLoad_kept h)

theorem execSamplePreload_nextKept (pattern : Nat) : NextKept C q (execSamplePreload pattern s) := .next (tapLoad_kept h)

theorem execClamp_nextKept : NextKept C q (execClamp s) := .next (tapLoad_kept h)

theorem execHighz_nextKept : NextKept C q (execHighz s) := .next (tapLoad_kept h)

theorem execBypass_nextKept (code : BitVec 4) : NextKept C q (execBypass code s) := .unless h (.next (tapLoad_kept h))

theorem execTrstN_nextKept (high : Bool) : NextKept C q (execTrstN high s) := .guard (Kept.same h) (.next (Kept.same h))

/-! ### The ends of resets and timeouts -/

theorem execFollowUpReceived_nextKept (eth : Fin 2) (msg : FollowUpMessage) : NextKept C q (execFollowUpReceived eth msg s) := by
  unfold execFollowUpReceived
  dsimp only
  split
  · exact .next (expireAnnounces_kept h)
  · exact .guard (expireAnnounces_kept h) (.next (takeOffset_kept (Kept.same (expireAnnounces_kept h))))

theorem execPortResetEnd_nextKept (port : ResetPort) : NextKept C q (execPortResetEnd port s) := .next (kept_ite (setFlag_kept h) h)

theorem execHibernatePowerUpDone_nextKept : NextKept C q (execHibernatePowerUpDone s) :=
  .unless h (.next (addSat_kept (setFld_kept (blank_kept h))))

theorem execFlashCommandTimeout_nextKept : NextKept C q (execFlashCommandTimeout s) := by
  unfold execFlashCommandTimeout
  refine .unless (failBoth_kept h) (.unless (failCurrent_kept h) ?_)
  refine .guard h ?_
  split
  · exact .unless h (.next (failCurrent_kept h))
  · exact .next h

theorem execRefclkResume_nextKept : NextKept C q (execRefclkResume s) := .next (Kept.same h)

theorem execSupplyGood_nextKept (rail : Rail) : NextKept C q (execSupplyGood rail s) := .next (railGood_kept h)

theorem execSramIdleScrub_nextKept (swatch : Fin 48) (addr : Nat) (errors : SymbolErrors) :
    NextKept C q (execSramIdleScrub swatch addr errors s) := by
  unfold execSramIdleScrub
  refine .unless h ?_
  dsimp only
  split
  · exact .next (recordUe_kept h)
  · exact .next (recordUe_kept h)
  · split
    · exact .next h
    · exact .next (recordCe_kept h)
    · exact .next (recordUe_kept (Kept.same h))

end Commands

/-- Every command answers a next state and keeps the canonical form and the queue. -/
theorem exec_nextKept (h : s.Kept C q) : ∀ c, NextKept C q (exec c s)
  | .registerWrite port addr data => execRegisterWrite_nextKept h port addr data
  | .registerLoWrite port addr data => execRegisterLoWrite_nextKept h port addr data
  | .registerHiWrite port addr data => execRegisterHiWrite_nextKept h port addr data
  | .registerLoRead port addr => execRegisterLoRead_nextKept h port addr
  | .registerHiRead port addr => execRegisterHiRead_nextKept h port addr
  | .timeNowSecLoRead port => execTimeNowSecLoRead_nextKept h port
  | .attestWinDataRead port => execAttestWinDataRead_nextKept h port
  | .faultLogDataRead port => execFaultLogDataRead_nextKept h port
  | .swReset data => execSwReset_nextKept h data
  | .swatchResetRequest swatch cause => execSwatchResetRequest_nextKept h swatch cause
  | .swatchSramCleared group => execSwatchSramCleared_nextKept h group
  | .swatchResetRelease group => execSwatchResetRelease_nextKept h group
  | .swatchRestoreDone group => execSwatchRestoreDone_nextKept h group
  | .pllUnlock pll => execPllUnlock_nextKept h pll
  | .pllTimeRelock => execPllTimeRelock_nextKept h
  | .eventCrossingPulse crossing drained => execEventCrossingPulse_nextKept h crossing drained
  | .dataCrossingMessage msg => execDataCrossingMessage_nextKept h msg
  | .fuseSenseDone arrayOk raw => execFuseSenseDone_nextKept h arrayOk raw
  | .pllSysLocked => execPllSysLocked_nextKept h
  | .pllIoTimeLocked => execPllIoTimeLocked_nextKept h
  | .flashModeReady density ok => execFlashModeReady_nextKept h density ok
  | .slotHeadersRead a b ok => execSlotHeadersRead_nextKept h a b ok
  | .signatureVerified block ok => execSignatureVerified_nextKept h block ok
  | .sectionRead bytes ok => execSectionRead_nextKept h bytes ok
  | .pllArithLocked => execPllArithLocked_nextKept h
  | .memTrainingDone ok => execMemTrainingDone_nextKept h ok
  | .residencyAnalysisDone core slot => execResidencyAnalysisDone_nextKept h core slot
  | .castOnLock us => execCastOnLock_nextKept h us
  | .rollbackCommit data => execRollbackCommit_nextKept h data
  | .fuseBitBlown reads => execFuseBitBlown_nextKept h reads
  | .program data => execProgram_nextKept h data
  | .lockKeys data => execLockKeys_nextKept h data
  | .attestStart data => execAttestStart_nextKept h data
  | .attestDone => execAttestDone_nextKept h
  | .bindOffRequest data => execBindOffRequest_nextKept h data
  | .bindOffNandDrained => execBindOffNandDrained_nextKept h
  | .bindOffComplete => execBindOffComplete_nextKept h
  | .loopStart => execLoopStart_nextKept h
  | .periodBoundary => execPeriodBoundary_nextKept h
  | .inputCutoff => execInputCutoff_nextKept h
  | .imuPropagationDone => execImuPropagationDone_nextKept h
  | .estimatorUpdateDone => execEstimatorUpdateDone_nextKept h
  | .solverDeadline => execSolverDeadline_nextKept h
  | .frameBuild readyNs => execFrameBuild_nextKept h readyNs
  | .launchHandoff eth => execLaunchHandoff_nextKept h eth
  | .launchEgress eth tap => execLaunchEgress_nextKept h eth tap
  | .syncReceived eth msg => execSyncReceived_nextKept h eth msg
  | .timeStep => execTimeStep_nextKept h
  | .syncTimeout => execSyncTimeout_nextKept h
  | .freeRunTimeout => execFreeRunTimeout_nextKept h
  | .announceReceived eth msg => execAnnounceReceived_nextKept h eth msg
  | .rearm data => execRearm_nextKept h data
  | .timeRateWrite data => execTimeRateWrite_nextKept h data
  | .pdelayReqTimer eth => execPdelayReqTimer_nextKept h eth
  | .pdelayExchangeDone eth completed delay nrr => execPdelayExchangeDone_nextKept h eth completed delay nrr
  | .pdelayReqReceived eth requester sequence taps => execPdelayReqReceived_nextKept h eth requester sequence taps
  | .ethFrameReceived eth frame fcsOk tap => execEthFrameReceived_nextKept h eth frame fcsOk tap
  | .frameForwardEgress eth tap => execFrameForwardEgress_nextKept h eth tap
  | .ethLinkChange eth speed => execEthLinkChange_nextKept h eth speed
  | .ethPortReset eth data => execEthPortReset_nextKept h eth data
  | .toutCtrlWrite tout data => execToutCtrlWrite_nextKept h tout data
  | .toutEdge tout => execToutEdge_nextKept h tout
  | .tinEdge tin rising width tap => execTinEdge_nextKept h tin rising width tap
  | .tinPop tin data => execTinPop_nextKept h tin data
  | .csiFrameStart port vc header number stamp => execCsiFrameStart_nextKept h port vc header number stamp
  | .csiLongPacket port vc dt header payload crcOk => execCsiLongPacket_nextKept h port vc dt header payload crcOk
  | .csiEmbeddedPacket port vc header payload crcOk => execCsiEmbeddedPacket_nextKept h port vc header payload crcOk
  | .csiFrameEnd port vc header stamp => execCsiFrameEnd_nextKept h port vc header stamp
  | .csiPhyError port => execCsiPhyError_nextKept h port
  | .csiRxPortReset port data => execCsiRxPortReset_nextKept h port data
  | .instantIssue group => execInstantIssue_nextKept h group
  | .claim marker agent => execClaim_nextKept h marker agent
  | .advance marker agent lines => execAdvance_nextKept h marker agent lines
  | .publish marker agent => execPublish_nextKept h marker agent
  | .abandon marker agent => execAbandon_nextKept h marker agent
  | .acquire marker agent gen lines => execAcquire_nextKept h marker agent gen lines
  | .release marker agent => execRelease_nextKept h marker agent
  | .hold marker agent => execHold_nextKept h marker agent
  | .unhold marker agent => execUnhold_nextKept h marker agent
  | .activationDeadline graph => execActivationDeadline_nextKept h graph
  | .nodeIssue graph => execNodeIssue_nextKept h graph
  | .nodeStart engine => execNodeStart_nextKept h engine
  | .engineUnitDone engine ns => execEngineUnitDone_nextKept h engine ns
  | .nodeEnd graph node => execNodeEnd_nextKept h graph node
  | .keepRun graph node => execKeepRun_nextKept h graph node
  | .verifierJobSubmit requester job => execVerifierJobSubmit_nextKept h requester job
  | .verifierJobDone ns => execVerifierJobDone_nextKept h ns
  | .verifierDeadline => execVerifierDeadline_nextKept h
  | .sgmPassDone engine ns => execSgmPassDone_nextKept h engine ns
  | .neuralRequestArrive graph node => execNeuralRequestArrive_nextKept h graph node
  | .neuralRequestStart graph node => execNeuralRequestStart_nextKept h graph node
  | .weightChunkLoaded core stallNs errors => execWeightChunkLoaded_nextKept h core stallNs errors
  | .neuralStepDone graph node ns errors => execNeuralStepDone_nextKept h graph node ns errors
  | .neuralRequestEnd graph node => execNeuralRequestEnd_nextKept h graph node
  | .promote holder object tier pin => execPromote_nextKept h holder object tier pin
  | .evict holder object tier => execEvict_nextKept h holder object tier
  | .writeback holder object => execWriteback_nextKept h holder object
  | .pin holder object => execPin_nextKept h holder object
  | .unpin holder object => execUnpin_nextKept h holder object
  | .movePageCopied errors programmed => execMovePageCopied_nextKept h errors programmed
  | .moveSwitch => execMoveSwitch_nextKept h
  | .spaceManagerEvict tier => execSpaceManagerEvict_nextKept h tier
  | .objectAccess unit object offset length data errors => execObjectAccess_nextKept h unit object offset length data errors
  | .patrolScrubRead errors => execPatrolScrubRead_nextKept h errors
  | .directoryRebuildDone => execDirectoryRebuildDone_nextKept h
  | .tileRegionReclaim channel => execTileRegionReclaim_nextKept h channel
  | .mr4Poll interface mr4 => execMr4Poll_nextKept h interface mr4
  | .imuSampleArrive imu => execImuSampleArrive_nextKept h imu
  | .jointFrameArrive eth => execJointFrameArrive_nextKept h eth
  | .featureUpdateDone set => execFeatureUpdateDone_nextKept h set
  | .trackingUpdateDrop object set => execTrackingUpdateDrop_nextKept h object set
  | .objectUpdateDone set => execObjectUpdateDone_nextKept h set
  | .assignmentDone set us => execAssignmentDone_nextKept h set us
  | .load core slot descriptor values => execLoad_nextKept h core slot descriptor values
  | .loadDone => execLoadDone_nextKept h
  | .problemSubmit task request => execProblemSubmit_nextKept h task request
  | .problemStart => execProblemStart_nextKept h
  | .assemblyDone core cycles => execAssemblyDone_nextKept h core cycles
  | .factorisationDone core cycles => execFactorisationDone_nextKept h core cycles
  | .solveDone core cycles => execSolveDone_nextKept h core cycles
  | .proofCheckDone core cycles => execProofCheckDone_nextKept h core cycles
  | .iterationDone core cycles => execIterationDone_nextKept h core cycles
  | .refineStepDone core cycles => execRefineStepDone_nextKept h core cycles
  | .finalCheckDone core cycles => execFinalCheckDone_nextKept h core cycles
  | .problemDeadline core => execProblemDeadline_nextKept h core
  | .solv1Suspend => execSolv1Suspend_nextKept h
  | .stopPointReceived => execStopPointReceived_nextKept h
  | .pairCompare => execPairCompare_nextKept h
  | .windowRun => execWindowRun_nextKept h
  | .poseNodeCreate => execPoseNodeCreate_nextKept h
  | .poseGraphBuild => execPoseGraphBuild_nextKept h
  | .poseGraphResult => execPoseGraphResult_nextKept h
  | .nandChannelInitDone channel same marks => execNandChannelInitDone_nextKept h channel same marks
  | .indexEpochLoadDone index bad => execIndexEpochLoadDone_nextKept h index bad
  | .querySubmit classC descriptor => execQuerySubmit_nextKept h classC descriptor
  | .queryAdmit => execQueryAdmit_nextKept h
  | .coarseBatchDone => execCoarseBatchDone_nextKept h
  | .listPageRead channel region page retries ns ldpcOk errors => execListPageRead_nextKept h channel region page retries ns ldpcOk errors
  | .queryMerge => execQueryMerge_nextKept h
  | .queryDeadline => execQueryDeadline_nextKept h
  | .placeQuery => execPlaceQuery_nextKept h
  | .placeVote => execPlaceVote_nextKept h
  | .indexBegin => execIndexBegin_nextKept h
  | .indexPage failed => execIndexPage_nextKept h failed
  | .indexEnd => execIndexEnd_nextKept h
  | .importPinsClear => execImportPinsClear_nextKept h
  | .importEraseDone failed => execImportEraseDone_nextKept h failed
  | .importCommitDone failed => execImportCommitDone_nextKept h failed
  | .srchProbeStart data => execSrchProbeStart_nextKept h data
  | .probeDone => execProbeDone_nextKept h
  | .transmitPublication stream => execTransmitPublication_nextKept h stream
  | .transmitPacketDone port => execTransmitPacketDone_nextKept h port
  | .transmitCut stream => execTransmitCut_nextKept h stream
  | .commandStatusSend => execCommandStatusSend_nextKept h
  | .tileDeltaSend => execTileDeltaSend_nextKept h
  | .csiTxPortReset port data => execCsiTxPortReset_nextKept h port data
  | .commandMessage port vc dt bytes checksum arrival => execCommandMessage_nextKept h port vc dt bytes checksum arrival
  | .qpDelta => execQpDelta_nextKept h
  | .target => execTarget_nextKept h
  | .tile => execTile_nextKept h
  | .tileAssemblyDone => execTileAssemblyDone_nextKept h
  | .index => execIndex_nextKept h
  | .i3cPrivateWrite addr words => execI3cPrivateWrite_nextKept h addr words
  | .i3cSetReadPointer addr => execI3cSetReadPointer_nextKept h addr
  | .i3cPrivateRead words => execI3cPrivateRead_nextKept h words
  | .hdrDdrWrite addr words => execHdrDdrWrite_nextKept h addr words
  | .hdrDdrRead words => execHdrDdrRead_nextKept h words
  | .enec => execEnec_nextKept h
  | .disec => execDisec_nextKept h
  | .rstdaa => execRstdaa_nextKept h
  | .entdaa address => execEntdaa_nextKept h address
  | .setdasa staticAddress address => execSetdasa_nextKept h staticAddress address
  | .setnewda address => execSetnewda_nextKept h address
  | .getpid => execGetpid_nextKept h
  | .getbcr => execGetbcr_nextKept h
  | .getdcr => execGetdcr_nextKept h
  | .getstatus => execGetstatus_nextKept h
  | .getmwl => execGetmwl_nextKept h
  | .setmwl length => execSetmwl_nextKept h length
  | .getmrl => execGetmrl_nextKept h
  | .setmrl length => execSetmrl_nextKept h length
  | .rstactPort => execRstactPort_nextKept h
  | .rstactWarm => execRstactWarm_nextKept h
  | .ibiSend accepted => execIbiSend_nextKept h accepted
  | .imuInitEntry acknowledged => execImuInitEntry_nextKept h acknowledged
  | .imuDrdyEdge imu rising stamp => execImuDrdyEdge_nextKept h imu rising stamp
  | .imuReadDone spi acknowledged bytes => execImuReadDone_nextKept h spi acknowledged bytes
  | .governorInterval microwatts raw => execGovernorInterval_nextKept h microwatts raw
  | .thermalTrip => execThermalTrip_nextKept h
  | .brownHoldBegin => execBrownHoldBegin_nextKept h
  | .brownHoldEnd us => execBrownHoldEnd_nextKept h us
  | .pwrReqRun data => execPwrReqRun_nextKept h data
  | .pwrReqDoze data => execPwrReqDoze_nextKept h data
  | .pwrReqNap data => execPwrReqNap_nextKept h data
  | .pwrReqHibernate data => execPwrReqHibernate_nextKept h data
  | .dozeEntered => execDozeEntered_nextKept h
  | .napLoopStop => execNapLoopStop_nextKept h
  | .napEntered => execNapEntered_nextKept h
  | .hibernateEntered => execHibernateEntered_nextKept h
  | .wakeTime => execWakeTime_nextKept h
  | .tin0Wake rising => execTin0Wake_nextKept h rising
  | .sleepTimer => execSleepTimer_nextKept h
  | .wakeDone => execWakeDone_nextKept h
  | .powerOn => execPowerOn_nextKept h
  | .supplyReset rail => execSupplyReset_nextKept h rail
  | .resetN lowNs => execResetN_nextKept h lowNs
  | .rstCtrlWarm data => execRstCtrlWarm_nextKept h data
  | .warmResetEnd => execWarmResetEnd_nextKept h
  | .coldResetEnd quietMs => execColdResetEnd_nextKept h quietMs
  | .refclkAbsent => execRefclkAbsent_nextKept h
  | .checkFeedStart unit data => execCheckFeedStart_nextKept h unit data
  | .checkFeedData unit data => execCheckFeedData_nextKept h unit data
  | .checkFeedEnd unit data => execCheckFeedEnd_nextKept h unit data
  | .checkMessageDone unit => execCheckMessageDone_nextKept h unit
  | .faultNodeFlit node flit => execFaultNodeFlit_nextKept h node flit
  | .faultRootArrive flit => execFaultRootArrive_nextKept h flit
  | .faultWindowClose cause => execFaultWindowClose_nextKept h cause
  | .wdogSwatch swatch => execWdogSwatch_nextKept h swatch
  | .wdogChipLoop => execWdogChipLoop_nextKept h
  | .wdogChipHost => execWdogChipHost_nextKept h
  | .wdogChipKick data => execWdogChipKick_nextKept h data
  | .snapArm data => execSnapArm_nextKept h data
  | .snapCancel data => execSnapCancel_nextKept h data
  | .snapshotInstant => execSnapshotInstant_nextKept h
  | .snapshotComplete => execSnapshotComplete_nextKept h
  | .testEnChange high => execTestEnChange_nextKept h high
  | .extest pattern => execExtest_nextKept h pattern
  | .samplePreload pattern => execSamplePreload_nextKept h pattern
  | .clamp => execClamp_nextKept h
  | .highz => execHighz_nextKept h
  | .bypass code => execBypass_nextKept h code
  | .trstN high => execTrstN_nextKept h high
  | .followUpReceived eth msg => execFollowUpReceived_nextKept h eth msg
  | .portResetEnd port => execPortResetEnd_nextKept h port
  | .hibernatePowerUpDone => execHibernatePowerUpDone_nextKept h
  | .flashCommandTimeout => execFlashCommandTimeout_nextKept h
  | .refclkResume => execRefclkResume_nextKept h
  | .supplyGood rail => execSupplyGood_nextKept h rail
  | .sramIdleScrub swatch addr errors => execSramIdleScrub_nextKept h swatch addr errors

/-- Settles O4: every command answers a next state, whatever the state. -/
theorem noCommandStops : Obligations.NoCommandStops := by
  intro c s
  obtain ⟨t, ht, -⟩ := exec_nextKept (C := False) (q := s.pending) (s := s) ⟨False.elim, rfl⟩ c
  exact ⟨t, ht⟩

/-- Settles O1: the command at the front keeps the canonical form, and so does the passing of a tick. -/
theorem stepKeepsCanonical : Obligations.StepKeepsCanonical := by
  intro s t hs hstep
  unfold step at hstep
  split at hstep
  · next c rest _ =>
    have hfront : State.Kept True rest { s with pending := rest } := ⟨fun _ => ⟨hs.1, hs.2, hs.3, hs.4, hs.5, hs.6, hs.7⟩, rfl⟩
    obtain ⟨u, hu, hkept⟩ := exec_nextKept hfront c
    rw [hu] at hstep
    exact Host.Outcome.next.inj hstep ▸ hkept.canonical trivial
  · have hidle : s.idle.Kept True s.pending := State.idle_kept ⟨fun _ => hs, rfl⟩
    exact Host.Outcome.next.inj hstep ▸ hidle.canonical trivial

end Sys2Proof.Machine
end

section
/-!
PROOF. The grid of the Class A loop against the ticks of device time: device time moves in whole ticks (R136), so a boundary is reached at the first
tick at or after it (log entry 9), which need not be the boundary's own instant.
-/
open Sys2Proof

namespace Sys2Proof.Machine

/-- A boundary that is due falls, and ends its predecessor's period. -/
theorem exec_periodBoundary_of_due {s : State} (h : s.boundaryDue = true) : exec .periodBoundary s = .next s.nextBoundary := by
  show execPeriodBoundary s = _
  rw [execPeriodBoundary, if_pos h]

/-- The loop runs on a 1 ms grid whose last boundary lies at 1 s. The 2 ns ticks of device time fall on odd nanoseconds, as a step of the time base may
leave them (R143); the present one is 1 ns past that boundary. -/
def State.oddTicks : State :=
  { ({ State.reset with cast := { CastOn.reset with step := .stopped } }.setFld fld_SEC_STATE_PHASE phaseRunning).setFlag fld_CLA_STATUS_RUNNING true with
    loop := { Loop.reset with grid := true, boundary := mkStamp 1 0, cutoffDone := true }
    time := { TimeBase.reset with running := true, now := mkStamp 1 1 * 2 ^ 32 } }

/-- Its next boundary is due, and neither a stop of the loop, bind-off nor NAP stands in the way. -/
theorem State.oddTicks_due : oddTicks.boundaryDue = true ∧ oddTicks.loop.stopped = none ∧ oddTicks.phase ≠ phaseBindOff ∧
    oddTicks.napPending = false ∧ oddTicks.time.running = true := by decide +kernel

/-- That boundary lies at 1 s 1 ms. -/
theorem State.oddTicks_nextBoundary_boundary : oddTicks.nextBoundary.loop.boundary = mkStamp 1 1000000 := by decide +kernel

/-- The first tick not before it is 1 ns later. -/
theorem State.oddTicks_nextBoundary_now : oddTicks.nextBoundary.time.now = mkStamp 1 1000001 * 2 ^ 32 := by decide +kernel

/-- Refutes O42: the statement has a boundary leave device time, where it had not passed it, at the boundary's own instant. Where no tick falls on that
instant device time goes on to the tick after it: here to 1 s 1 ms 1 ns. -/
theorem not_loopKeepsItsGrid : ¬ Obligations.LoopKeepsItsGrid := by
  intro h
  obtain ⟨-, -, -, hboundary, -⟩ := h
  obtain ⟨hdue, hstopped, hphase, hnap, hruns⟩ := State.oddTicks_due
  obtain ⟨t, ht, -, -, -, -, -, -, htime, -, -⟩ := hboundary State.oddTicks hdue hstopped hphase hnap
  rw [exec_periodBoundary_of_due hdue] at ht
  obtain rfl : State.oddTicks.nextBoundary = t := Host.Outcome.next.inj ht
  have hnow := htime hruns
  rw [State.oddTicks_nextBoundary_boundary, State.oddTicks_nextBoundary_now] at hnow
  exact absurd hnow (by decide +kernel)

end Sys2Proof.Machine
end

section
/-!
PROOF. The PLLs: what a loss of lock shows, reports and owes, with and without REFCLK (R63, R85, R151, R587).
-/
-- One thread elaborates the file, as in Laws/: each further one takes a stack of its own.
set_option Elab.async false
open Sys2Proof

namespace Sys2Proof.Machine

/-! ### Fields -/

/-- A field reads the register file, and whether FUSE fields are hidden. -/
theorem State.fld_congr {s t : State} (hregs : t.regs = s.regs) (herr : t.cast.fuseErr = s.cast.fuseErr) (f : Fld) : t.fld f = s.fld f := by
  simp only [State.fld, State.reg, State.rawReg, hregs, herr]

theorem State.fld_lt (s : State) (f : Fld) : s.fld f < 2 ^ f.width := Nat.mod_lt _ (Nat.two_pow_pos _)

/-- A report changes no field. -/
@[simp] theorem State.fld_raiseFault (s : State) (c source : Nat) (detail : Word) (f : Fld) : (s.raiseFault c source detail).fld f = s.fld f :=
  State.fld_congr (by simp) (by simp) f

/-- A bit set by an or reads back. -/
theorem bit_lor_two_pow (v p : Nat) : bit (Nat.lor v (2 ^ p)) p = true := by
  have h : (Nat.lor v (2 ^ p)).testBit p = true := by
    show (v ||| 2 ^ p).testBit p = true
    simp [Nat.testBit_or, Nat.testBit_two_pow_self]
  simpa [bit, Nat.testBit_eq_decide_div_mod_eq] using h

/-- A bit that is kept by a field's width. -/
theorem bit_mod_two_pow (v : Nat) {p w : Nat} (h : p < w) : bit (v % 2 ^ w) p = bit v p := by
  have e : ∀ x, bit x p = x.testBit p := fun x => Nat.testBit_eq_decide_div_mod_eq.symm
  rw [e, e, Nat.testBit_mod_two_pow, decide_eq_true h, Bool.true_and]

/-! ### Loss of lock -/

/-- What every loss of lock does first: LOCK falls, UNLOCK_SEEN is set, and a report leaves. -/
def State.loseLock (s : State) (pll : Nat) : State :=
  let u := s.setFld fld_PLL_STATUS_LOCK (s.fld fld_PLL_STATUS_LOCK - 2 ^ pll)
  (u.setFld fld_PLL_STATUS_UNLOCK_SEEN (Nat.lor (u.fld fld_PLL_STATUS_UNLOCK_SEEN) (2 ^ pll))).raiseFault faultPllUnlock 0 (BitVec.ofNat 32 pll)

/-- What the loss of PLL_TIME does to device time (R151). -/
def State.faultClock (s : State) : State :=
  let u : State := { s.setFlag fld_TIME_STATUS_CLOCK_FAULT true with time := { s.time with stepDue := none } }
  if u.servo = servoStepped ∨ u.servo = servoLocked then u.setServo servoHoldover else u

theorem State.unlockPll_eq (s : State) (pll : Nat) :
    s.unlockPll pll = if pll = 3 then (s.loseLock pll).faultClock else (s.loseLock pll).oweUnlock pll := rfl

/-- A loss of lock asks for no swatch's reset (Table 16.3), so that registers and reports alone change. -/
theorem State.loseLock_frame (s : State) (pll : Nat) : s.loseLock pll =
    { s with regs := (s.loseLock pll).regs,
             integ := { s.integ with flits := s.integ.flits ++ [.report ⟨1, 0, BitVec.ofNat 32 pll, s.stamp⟩] } } := rfl

theorem State.fld_loseLock_other (s : State) (pll : Nat) {f : Fld} (h : f.addr ≠ fld_PLL_STATUS_LOCK.addr) : (s.loseLock pll).fld f = s.fld f := by
  have hseen : f.addr ≠ fld_PLL_STATUS_UNLOCK_SEEN.addr := h
  rw [State.loseLock, State.fld_raiseFault, State.fld_setFld_other _ _ _ _ hseen, State.fld_setFld_other _ _ _ _ h]

theorem State.lock_loseLock (s : State) (pll : Nat) : (s.loseLock pll).fld fld_PLL_STATUS_LOCK = s.fld fld_PLL_STATUS_LOCK - 2 ^ pll := by
  rw [State.loseLock, State.fld_raiseFault, State.fld_setFld_apart _ _ _ _ (by decide), State.fld_setFld_same _ _ _ (by decide) (by decide +kernel)]
  exact Nat.mod_eq_of_lt (Nat.lt_of_le_of_lt (Nat.sub_le _ _) (s.fld_lt _))

theorem State.unlockSeen_loseLock (s : State) {pll : Nat} (h : pll < fld_PLL_STATUS_UNLOCK_SEEN.width) :
    bit ((s.loseLock pll).fld fld_PLL_STATUS_UNLOCK_SEEN) pll = true := by
  rw [State.loseLock, State.fld_raiseFault, State.fld_setFld_same _ _ _ (by decide) (by decide +kernel), bit_mod_two_pow _ h, bit_lor_two_pow]

/-! ### PLL_TIME -/

/-- Entering HOLDOVER sets the state alone: no first lock, and no start of the loop. -/
theorem State.setServo_holdover (s : State) : s.setServo servoHoldover = s.setFld fld_TIME_STATUS_STATE servoHoldover := rfl

theorem State.faultClock_frame (s : State) : s.faultClock = { s with regs := s.faultClock.regs, time := { s.time with stepDue := none } } := by
  simp only [State.faultClock, State.setServo_holdover]
  split <;> rfl

theorem State.fld_faultClock_other (s : State) {f : Fld} (h : f.addr ≠ fld_TIME_STATUS_STATE.addr) : s.faultClock.fld f = s.fld f := by
  have hflag : State.fld { s.setFlag fld_TIME_STATUS_CLOCK_FAULT true with time := { s.time with stepDue := none } } f = s.fld f :=
    State.fld_setFld_other s fld_TIME_STATUS_CLOCK_FAULT f _ h
  simp only [State.faultClock, State.setServo_holdover]
  split
  · rw [State.fld_setFld_other _ _ _ _ h, hflag]
  · exact hflag

/-- CLOCK_FAULT shows, and a servo that follows its master holds over. -/
theorem State.faultClock_shows (s : State) : s.faultClock.flag fld_TIME_STATUS_CLOCK_FAULT = true ∧
    s.faultClock.servo = if s.servo = servoStepped ∨ s.servo = servoLocked then servoHoldover else s.servo := by
  have hflag : State.flag { s.setFlag fld_TIME_STATUS_CLOCK_FAULT true with time := { s.time with stepDue := none } } fld_TIME_STATUS_CLOCK_FAULT = true :=
    State.flag_setFlag_same s _ true (by decide) rfl (by decide +kernel)
  have hservo : State.servo { s.setFlag fld_TIME_STATUS_CLOCK_FAULT true with time := { s.time with stepDue := none } } = s.servo :=
    State.fld_setFld_apart s fld_TIME_STATUS_CLOCK_FAULT fld_TIME_STATUS_STATE _ (by decide)
  simp only [State.faultClock, State.setServo_holdover, hservo]
  split
  · refine ⟨?_, State.fld_setFld_same _ _ _ (by decide) (by decide +kernel)⟩
    rw [State.flag, State.fld_setFld_apart _ _ _ _ (by decide)]
    exact hflag
  · exact ⟨hflag, hservo⟩

/-! ### The warm reset owed -/

theorem State.oweUnlock_frame (s : State) (pll : Nat) :
    s.oweUnlock pll = { s with resets := { s.resets with due := (s.oweUnlock pll).resets.due } } := by
  unfold State.oweUnlock State.oweWarm
  split
  · rfl
  · split <;> rfl

theorem State.due_oweUnlock_none {s : State} (pll : Nat) (h : s.resets.due = none) :
    (s.oweUnlock pll).resets.due = some (5, pll, s.stamp + usStamp 10) := by
  simp only [State.oweUnlock, State.oweWarm, h]

/-- Of the PLLs lost the first is named. -/
theorem State.due_oweUnlock_some {s : State} (pll : Nat) {q : Nat} {w : Stamp} (h : s.resets.due = some (5, q, w)) :
    (s.oweUnlock pll).resets.due = some (5, min q pll, w) := by
  simp only [State.oweUnlock, h]

/-! ### Without REFCLK -/

/-- Without REFCLK a PLL's LOCK reads 0. -/
theorem State.lock_starvePll (s : State) (pll : Nat) : (s.starvePll pll).fld fld_PLL_STATUS_LOCK =
    if bit (s.fld fld_PLL_STATUS_LOCK) pll then s.fld fld_PLL_STATUS_LOCK - 2 ^ pll else s.fld fld_PLL_STATUS_LOCK := by
  have howe : ∀ u : State, (u.oweUnlock pll).fld fld_PLL_STATUS_LOCK = u.fld fld_PLL_STATUS_LOCK := fun u => by rw [u.oweUnlock_frame pll]; rfl
  unfold State.starvePll
  split
  · rw [State.unlockPll_eq]
    split
    · rw [State.fld_faultClock_other _ (by decide), State.lock_loseLock]
    · rw [howe, State.lock_loseLock]
  · dsimp only
    split
    · rw [howe, State.fld_raiseFault]
    · rw [State.fld_raiseFault]

/-- A PLL of the part's clocks owes a warm reset, locked or not; PLL_TIME owes none. -/
theorem State.due_starvePll (s : State) (pll : Nat) : (s.starvePll pll).resets.due =
    if pll = 3 then s.resets.due else if pll < 3 ∨ bit (s.fld fld_PLL_STATUS_LOCK) pll = true then (s.oweUnlock pll).resets.due else s.resets.due := by
  have howe : ∀ u : State, u.resets = s.resets → u.time = s.time → (u.oweUnlock pll).resets.due = (s.oweUnlock pll).resets.due := by
    intro u hresets htime
    simp only [State.oweUnlock, State.oweWarm, State.stamp, hresets, htime]
    split
    · rfl
    · split <;> simp_all
  have hlose : (s.loseLock pll).resets = s.resets ∧ (s.loseLock pll).time = s.time := by rw [s.loseLock_frame pll]; exact ⟨rfl, rfl⟩
  unfold State.starvePll
  split
  · next hbit =>
    rw [State.unlockPll_eq]
    split
    · rw [State.faultClock_frame, hlose.1]
    · rw [howe _ hlose.1 hlose.2, if_pos (Or.inr hbit)]
  · next hbit =>
    dsimp only
    split
    · next hlt => rw [howe _ (by simp) (by simp), if_neg (by omega), if_pos (Or.inl hlt)]
    · next hlt => simp [hlt, hbit]

/-- A warm reset owed for PLL_SYS stands. -/
theorem State.due_starvePll_some {s : State} (pll : Nat) {w : Stamp} (h : s.resets.due = some (5, 0, w)) :
    (s.starvePll pll).resets.due = some (5, 0, w) := by
  rw [State.due_starvePll, State.due_oweUnlock_some pll h, Nat.zero_min, h]
  split
  · rfl
  · split <;> rfl

/-- A LOCK mask from which each of its four bits has been taken is 0. -/
theorem lock_cleared : ∀ v : Fin 16, [0, 1, 2, 3].foldl (fun v p => if bit v p then v - 2 ^ p else v) v.val = 0 := by decide

/-- Without REFCLK no PLL of a running device is locked, and it owes a warm reset that names PLL_SYS (R63). -/
theorem State.starveAll {s : State} (h : s.resets.due = none) :
    ([0, 1, 2, 3].foldl State.starvePll s).fld fld_PLL_STATUS_LOCK = 0 ∧
      ([0, 1, 2, 3].foldl State.starvePll s).resets.due = some (5, 0, s.stamp + usStamp 10) := by
  have hfirst : (s.starvePll 0).resets.due = some (5, 0, s.stamp + usStamp 10) := by
    rw [State.due_starvePll, if_neg (by decide), if_pos (Or.inl (by decide)), State.due_oweUnlock_none 0 h]
  constructor
  · simp only [List.foldl_cons, List.foldl_nil, State.lock_starvePll]
    exact lock_cleared ⟨s.fld fld_PLL_STATUS_LOCK, s.fld_lt _⟩
  · exact State.due_starvePll_some 3 (State.due_starvePll_some 2 (State.due_starvePll_some 1 hfirst))

end Sys2Proof.Machine
end

section
/-!
PROOF. How a reset begins and ends: what the register file keeps, what a bit being blown and a boot count leave alone, and from them the cold resets,
their end, and the loss of REFCLK (R63, R108, R534, R535, R585, R587).
-/
-- One thread elaborates the file, as in Laws/: each further one takes a stack of its own.
set_option Elab.async false
open Sys2Proof

namespace Sys2Proof.Machine

/-! ### Stores whose entries are dropped or changed -/

/-- A store whose keys lie above a key lists nothing at it. -/
theorem Store.get_below {α : Type} [DecidableEq α] {d : α} {m : Store α} {lo a : Nat} (w : Store.wfFrom d lo m = true) (h : a < lo) :
    Store.get d m a = d := by
  induction m generalizing lo with
  | nil => rfl
  | cons p r ih =>
    obtain ⟨k, v⟩ := p
    simp only [Store.wfFrom, Bool.and_eq_true, decide_eq_true_eq] at w
    obtain ⟨⟨hk, -⟩, hr⟩ := w
    have hne : k ≠ a := by omega
    simp only [Store.get, if_neg hne]
    exact ih hr (by omega)

theorem Store.get_filterMap_from {α β : Type} [DecidableEq α] [DecidableEq β] {d : α} {e : β} {g : Nat × α → Option (Nat × β)} {f : Nat → α → β}
    (hg : ∀ k v, v ≠ d → g (k, v) = if f k v = e then none else some (k, f k v)) (hd : ∀ k, f k d = e) {m : Store α} {lo : Nat}
    (w : Store.wfFrom d lo m = true) (a : Nat) : Store.get e (m.filterMap g) a = f a (Store.get d m a) := by
  induction m generalizing lo with
  | nil => exact (hd a).symm
  | cons p r ih =>
    obtain ⟨k, v⟩ := p
    simp only [Store.wfFrom, Bool.and_eq_true, decide_eq_true_eq] at w
    obtain ⟨⟨-, hv⟩, hr⟩ := w
    have hrest := ih hr
    rw [List.filterMap_cons, hg k v hv]
    by_cases ha : k = a
    · subst ha
      rw [Store.get_below hr (Nat.lt_succ_self k), hd] at hrest
      by_cases hf : f k v = e <;> simp [hf, Store.get, hrest]
    · by_cases hf : f k v = e <;> simp [hf, Store.get, ha, hrest]

/-- Entries changed one by one, those dropped that come to the default: a key reads as its changed value. -/
theorem Store.get_filterMap {α β : Type} [DecidableEq α] [DecidableEq β] {d : α} {e : β} {g : Nat × α → Option (Nat × β)} {f : Nat → α → β}
    (hg : ∀ k v, v ≠ d → g (k, v) = if f k v = e then none else some (k, f k v)) (hd : ∀ k, f k d = e) {m : Store α}
    (w : Store.wf d m = true) (a : Nat) : Store.get e (m.filterMap g) a = f a (Store.get d m a) :=
  Store.get_filterMap_from hg hd w a

/-! ### Registers that an operation leaves alone -/

theorem State.get_regs_setReg_other (s : State) {a b : Nat} (w : Word) (h : a ≠ b) : Store.get 0 (s.setReg b w).regs a = Store.get 0 s.regs a :=
  Store.get_set_other _ _ _ _ _ h

theorem State.get_regs_setFld_other (s : State) {a : Nat} {f : Fld} (v : Nat) (h : a ≠ f.addr) :
    Store.get 0 (s.setFld f v).regs a = Store.get 0 s.regs a :=
  s.get_regs_setReg_other _ h

/-- A fuse bit blown shows in its own register alone. -/
theorem State.get_regs_blown_other (s : State) {a : Nat} {f : FuseBit} (h : a ≠ f.register) :
    Store.get 0 (s.blown f).regs a = Store.get 0 s.regs a := by
  cases f with
  | rollback => exact s.get_regs_setFld_other _ h
  | revoked k => exact s.get_regs_setFld_other _ h
  | key w b => exact s.get_regs_setReg_other _ h
  | present k => exact s.get_regs_setFld_other _ h
  | keysLocked => exact s.get_regs_setFld_other _ h

/-- The fuses' registers lie above those of power. -/
theorem FuseBit.brown_ne_register (f : FuseBit) : fld_PWR_STATUS_BROWN.addr ≠ f.register := by
  cases f with
  | key w b =>
    show 0x20008 ≠ 0x700400 + 4 * w
    omega
  | rollback => decide
  | revoked k => exact (by decide : fld_PWR_STATUS_BROWN.addr ≠ fld_KEY_STATUS_REVOKED.addr)
  | present k => exact (by decide : fld_PWR_STATUS_BROWN.addr ≠ fld_KEY_STATUS_PRESENT.addr)
  | keysLocked => decide

/-- A commit cut short takes a free bit, and changes no register but that of the bit being blown (R108). -/
theorem State.interruptFuses_frame (s : State) :
    s.interruptFuses = { s with regs := s.interruptFuses.regs, fresh := s.interruptFuses.fresh } := by
  unfold State.interruptFuses
  split
  · rfl
  · next f _ _ =>
    dsimp only
    split
    · cases f <;> rfl
    · rfl

theorem State.get_regs_interruptFuses {s : State} {a : Nat} (h : ∀ f r, s.cast.fuses = f :: r → a ≠ f.register) :
    Store.get 0 s.interruptFuses.regs a = Store.get 0 s.regs a := by
  unfold State.interruptFuses
  split
  · rfl
  · next f r hf =>
    dsimp only
    split
    · exact State.get_regs_blown_other _ (h f r hf)
    · rfl

/-- A flag reads its register and whether FUSE fields are hidden. -/
theorem State.flag_of_get_regs {s t : State} {f : Fld} (hregs : Store.get 0 t.regs f.addr = Store.get 0 s.regs f.addr)
    (herr : t.cast.fuseErr = s.cast.fuseErr) : t.flag f = s.flag f := by
  simp only [State.flag, State.fld, State.reg, State.rawReg, hregs, herr]

theorem State.brown_interruptFuses (s : State) : s.interruptFuses.brown = s.brown := by
  refine State.flag_of_get_regs (State.get_regs_interruptFuses fun f r _ => f.brown_ne_register) ?_
  rw [s.interruptFuses_frame]

/-- An untouched register is not that of the bit being blown. -/
theorem State.ne_register_of_untouched {s : State} {a : Nat} (h : s.untouched a = true) (f : FuseBit) (r : List FuseBit)
    (hf : s.cast.fuses = f :: r) : a ≠ f.register := by
  simp only [State.untouched, hf, Bool.and_eq_true, bne_iff_ne] at h
  exact h.1.1

theorem State.ne_bootCount_of_untouched {s : State} {a : Nat} (h : s.untouched a = true) (hc : s.castAt .fuseSense = true) :
    a ≠ fld_SYS_BOOT_COUNT_COUNT.addr := by
  simp only [State.untouched, hc, Bool.and_eq_true, Bool.not_true, Bool.false_or, bne_iff_ne] at h
  exact h.1.2

theorem State.ne_brown_of_untouched {s : State} {a : Nat} (h : s.untouched a = true) : a ≠ fld_PWR_STATUS_BROWN.addr := by
  simp only [State.untouched, Bool.and_eq_true, bne_iff_ne] at h
  exact h.2

/-! ### What a reset loses (Table 15.8) -/

/-- The registers kept are read under their mask. -/
theorem get_keptRegs (sticky : Bool) {m : Store Word} (w : Store.wf 0 m = true) (a : Nat) :
    Store.get 0 (keptRegs sticky m) a = Store.get 0 m a &&& keptMask sticky a :=
  Store.get_filterMap (f := fun k v => v &&& keptMask sticky k) (fun _ _ _ => rfl) (fun _ => BitVec.zero_and) w a

theorem State.get_regs_blank {s : State} {sticky : Bool} {a : Nat} (w : Store.wf 0 s.interruptFuses.regs = true)
    (hf : ∀ f r, s.cast.fuses = f :: r → a ≠ f.register) (hb : a ≠ fld_PWR_STATUS_BROWN.addr) :
    Store.get 0 (s.blank sticky).regs a = Store.get 0 s.regs a &&& keptMask sticky a := by
  calc Store.get 0 (s.blank sticky).regs a = Store.get 0 (keptRegs sticky s.interruptFuses.regs) a := State.get_regs_setFld_other _ _ hb
    _ = Store.get 0 s.interruptFuses.regs a &&& keptMask sticky a := get_keptRegs sticky w a
    _ = _ := by rw [State.get_regs_interruptFuses hf]

/-- A brown hold lasts over any but a cold reset. -/
theorem State.brown_blank (s : State) (sticky : Bool) : (s.blank sticky).brown = (sticky && s.brown) := by
  have h : (s.blank sticky).brown = (sticky && s.interruptFuses.brown) :=
    State.flag_setFlag_same _ fld_PWR_STATUS_BROWN _ (by decide) rfl (by decide +kernel)
  rw [h, s.brown_interruptFuses]

theorem State.blank_resets (s : State) (sticky : Bool) : (s.blank sticky).resets = { s.resets with due := none } := by
  show { s.interruptFuses.resets with due := none } = _
  rw [s.interruptFuses_frame]

theorem State.blank_records (s : State) (sticky : Bool) :
    (s.blank sticky).mem.recordBytes = s.mem.recordBytes ∧ (s.blank sticky).srch.flash = s.srch.flash := by
  show s.interruptFuses.mem.recordBytes = _ ∧ s.interruptFuses.srch.flash = _
  rw [s.interruptFuses_frame]
  exact ⟨rfl, rfl⟩

theorem State.blank_log (s : State) (sticky : Bool) : (s.blank sticky).integ.log = if sticky then s.integ.log else [] := by
  show (if sticky then s.interruptFuses.integ.log else []) = _
  rw [s.interruptFuses_frame]

/-- The canonical form, as a law of Laws/KeptOps takes and gives it. -/
theorem State.Canonical.kept {s : State} (h : s.Canonical) : s.Kept True s.pending := ⟨fun _ => h, rfl⟩

theorem State.Canonical.wf_interruptFuses {s : State} (h : s.Canonical) : Store.wf 0 s.interruptFuses.regs = true :=
  ((State.interruptFuses_kept h.kept).canonical trivial).regs

/-! ### Cold resets -/

theorem State.beginCold_coldBegun {s : State} (hs : s.Canonical) (cause : Nat) : ColdBegun cause s (s.beginCold cause) where
  active := rfl
  cause := rfl
  held := rfl
  pins := rfl
  regs := fun _ h => State.get_regs_blank hs.wf_interruptFuses (State.ne_register_of_untouched h) (State.ne_brown_of_untouched h)
  brown := (s.brown_blank false).trans (Bool.false_and _)
  sram := ⟨rfl, rfl⟩
  records := s.blank_records false
  log := s.blank_log false

/-- A cold reset begun stays so where the resets' own state changes in nothing but the rails, TEST_EN and the boundary scan. -/
theorem ColdBegun.setResets {cause : Nat} {s t : State} (h : ColdBegun cause s t) {r : Resets} (hactive : r.active = t.resets.active)
    (hcause : r.cause = t.resets.cause) : ColdBegun cause s { t with resets := r } :=
  { h with active := hactive.trans h.active, cause := hcause.trans h.cause, regs := h.regs, brown := h.brown }

theorem State.badRails_beginCold (s : State) (cause : Nat) : (s.beginCold cause).resets.badRails = s.resets.badRails := by
  show (s.blank false).resets.badRails = _
  rw [State.blank_resets]

/-- A rail above its good level is no longer marked; the others stay as they are. -/
theorem State.badRails_railGood (s : State) (r : Rail) :
    r ∉ (s.railGood r).resets.badRails ∧ ∀ q, q ≠ r → (q ∈ (s.railGood r).resets.badRails ↔ q ∈ s.resets.badRails) := by
  simp only [State.railGood, List.mem_filter, bne_iff_ne]
  exact ⟨fun h => h.2 rfl, fun q hq => ⟨And.left, fun h => ⟨h, hq⟩⟩⟩

/-- A rail added to a list of rails once. -/
theorem mem_addRail (l : List Rail) (r : Rail) :
    r ∈ (if r ∈ l then l else l ++ [r]) ∧ ∀ q, q ≠ r → (q ∈ (if r ∈ l then l else l ++ [r]) ↔ q ∈ l) := by
  split
  · next h => exact ⟨h, fun _ _ => Iff.rfl⟩
  · exact ⟨by simp, fun q hq => by simp [hq]⟩

/-- A rail's fall begins a cold reset with the cause of the 1.8 V supply's latch, and marks the rail. -/
theorem exec_supplyReset (r : Rail) {s : State} (hs : s.Canonical) : ∃ t, exec (.supplyReset r) s = .next t ∧ ColdBegun (s.supplyCause r) s t ∧
    r ∈ t.resets.badRails ∧ ∀ q, q ≠ r → (q ∈ t.resets.badRails ↔ q ∈ s.resets.badRails) := by
  obtain ⟨hmem, hothers⟩ := mem_addRail (s.beginCold (s.supplyCause r)).resets.badRails r
  refine ⟨_, rfl, (State.beginCold_coldBegun hs _).setResets rfl rfl, hmem, fun q hq => (hothers q hq).trans ?_⟩
  rw [s.badRails_beginCold]

/-! ### Warm resets -/

/-- An entry to FUSE_SENSE counted changes the boot count, and that it has been counted. -/
theorem State.countEntry_frame (s : State) : s.countEntry =
    { s with regs := s.countEntry.regs, cast := { s.cast with bootCounted := s.countEntry.cast.bootCounted } } := by
  unfold State.countEntry State.countBoot
  split
  · split <;> rfl
  · rfl

theorem State.get_regs_countEntry {s : State} {a : Nat} (h : s.castAt .fuseSense = true → a ≠ fld_SYS_BOOT_COUNT_COUNT.addr) :
    Store.get 0 s.countEntry.regs a = Store.get 0 s.regs a := by
  unfold State.countEntry State.countBoot
  split
  · next hc =>
    split
    · rfl
    · exact State.get_regs_setFld_other _ _ (h hc)
  · rfl

theorem State.beginWarm_eq {s : State} (h : s.resets.active = none) (cause pll : Nat) :
    s.beginWarm cause pll = (s.countEntry.blank true).holdAll .warm cause pll := by
  simp only [State.beginWarm, h]

/-- A warm reset begins where none is in progress. -/
theorem State.beginWarm_warmBegun {s : State} (hs : s.Canonical) (h : s.resets.active = none) (cause pll : Nat) :
    WarmBegun cause pll s (s.beginWarm cause pll) := by
  have hcanonical : s.countEntry.Canonical := (State.countEntry_kept hs.kept).canonical trivial
  have hfuses : s.countEntry.cast.fuses = s.cast.fuses := by rw [s.countEntry_frame]
  have hbrown : s.countEntry.brown = s.brown :=
    State.flag_of_get_regs (State.get_regs_countEntry fun _ => by decide) (by rw [s.countEntry_frame])
  rw [State.beginWarm_eq h]
  exact {
    active := rfl
    cause := rfl
    pll := rfl
    due := congrArg Resets.due (s.countEntry.blank_resets true)
    held := rfl
    pins := rfl
    regs := fun a ha => (State.get_regs_blank hcanonical.wf_interruptFuses (hfuses ▸ State.ne_register_of_untouched ha)
      (State.ne_brown_of_untouched ha)).trans (by rw [State.get_regs_countEntry (State.ne_bootCount_of_untouched ha)])
    brown := ((s.countEntry.brown_blank true).trans (Bool.true_and _)).trans hbrown
    sram := ⟨rfl, rfl⟩
    records := (s.countEntry.blank_records true).imp (·.trans (by rw [s.countEntry_frame])) (·.trans (by rw [s.countEntry_frame]))
    log := (s.countEntry.blank_log true).trans (by rw [s.countEntry_frame]; rfl)
    links := rfl
    cast := rfl }

/-! ### The end of a cold reset -/

/-- A cold reset's cause names no PLL and its end counts none, so that its record is RST_CAUSE.LAST alone. -/
theorem State.endReset_cold {s : State} (h : s.resets.cause < 2) :
    (s.endReset false).fld fld_RST_CAUSE_LAST = s.resets.cause ∧ RegsBut [fld_RST_CAUSE_LAST] s (s.endReset false) ∧
      s.endReset false = { s with regs := (s.endReset false).regs, sw := Swatches.reset, links := { s.links with ospiDriven := true },
                                  resets := { s.resets with active := none } } := by
  have hcause : s.resets.cause ≠ 5 := by omega
  have hend : s.endReset false = State.setFld { s with sw := Swatches.reset, links := { s.links with ospiDriven := true },
                                                       resets := { s.resets with active := none } } fld_RST_CAUSE_LAST s.resets.cause := by
    simp [State.endReset, hcause]
  rw [hend]
  refine ⟨?_, regsBut_setFld (by simp) (regsBut_of_regs rfl), rfl⟩
  rw [State.fld_setFld_same _ _ _ (by decide) (by decide +kernel)]
  exact Nat.mod_eq_of_lt (by simp only [fld_RST_CAUSE_LAST]; omega)

theorem exec_coldResetEnd_of_quiet {ms : Nat} {s : State} (h : s.resets.active = some .cold ∧ s.resets.badRails = [] ∧ s.resets.refclkAbsent = false ∧
    s.resets.testEn = false ∧ 2 ≤ ms) : exec (.coldResetEnd ms) s = .next (s.endReset false) := if_pos h

/-! ### REFCLK -/

/-- The loss of REFCLK in a state that has it: a running device's PLLs lose lock in order, and any other takes note alone. -/
theorem exec_refclkAbsent_of_present {s : State} (h : s.resets.refclkAbsent = false) : exec .refclkAbsent s =
    .next { (if s.alive then [0, 1, 2, 3].foldl State.starvePll s else s) with
            resets := { (if s.alive then [0, 1, 2, 3].foldl State.starvePll s else s).resets with refclkAbsent := true } } := by
  show execRefclkAbsent s = _
  simp [execRefclkAbsent, h]

/-! ### TEST_EN -/

/-- A change of TEST_EN begins a cold reset; high holds the device in it. -/
theorem exec_testEnChange_of_ne {high : Bool} {s : State} (hs : s.Canonical) (h : s.resets.testEn ≠ high) :
    ∃ t, exec (.testEnChange high) s = .next t ∧ ColdBegun 0 s t ∧ t.resets.testEn = high ∧ t.alive = false := by
  refine ⟨_, if_neg h, (State.beginCold_coldBegun hs 0).setResets rfl rfl, rfl, ?_⟩
  simp [State.alive, Resets.scanned, State.beginCold, State.holdAll]

/-- Settles O25: what a cold reset loses follows from what `State.blank` keeps, and the loss of REFCLK from what each PLL reports and owes. -/
theorem coldResetWaitsForSupplies : Obligations.ColdResetWaitsForSupplies := by
  refine ⟨?_, ?_, ?_, ?_, ?_, ?_, ?_, ?_, ?_, ?_, ?_, ?_, ?_⟩
  · intro s hs
    exact ⟨_, rfl, (State.beginCold_coldBegun hs 0).setResets rfl rfl, ((s.beginCold 0).badRails_railGood .vdd1v8).1⟩
  · intro r s hs hr hgood
    have hcause : s.supplyCause r = 1 := by simp [State.supplyCause, hr, hgood]
    exact hcause ▸ exec_supplyReset r hs
  · intro s hs
    have hcause : s.supplyCause .vdd1v8 = 0 := by simp [State.supplyCause]
    obtain ⟨t, ht, hcold, hmem, -⟩ := exec_supplyReset .vdd1v8 hs
    exact ⟨t, ht, hcause ▸ hcold, hmem⟩
  · intro r s
    obtain ⟨hgood, hothers⟩ := s.badRails_railGood r
    exact ⟨s.railGood r, rfl, hgood, hothers, rfl⟩
  · intro high s hs h
    exact exec_testEnChange_of_ne hs h
  · intro ms s hactive hrails hrefclk htest hms hcause
    obtain ⟨hlast, hregs, hframe⟩ := State.endReset_cold hcause
    refine ⟨s.endReset false, exec_coldResetEnd_of_quiet ⟨hactive, hrails, hrefclk, htest, hms⟩, ?_, hlast, ?_, hregs, hframe⟩
    · rw [hframe]
    · rw [hframe]
  · intro ms s h
    refine if_neg fun hquiet => ?_
    obtain ⟨-, hrails, hrefclk, htest, hms⟩ := hquiet
    rcases h with h | h | h | h
    · exact h hrails
    · simp [hrefclk] at h
    · simp [htest] at h
    · omega
  · intro s hrefclk halive hdue
    obtain ⟨hlock, howed⟩ := State.starveAll hdue
    refine ⟨_, exec_refclkAbsent_of_present hrefclk, rfl, ?_, ?_⟩
    · simp only [halive, if_true]
      exact howed
    · simp only [halive, if_true]
      exact hlock
  · intro s
    rfl
  · intro r s hs hr hbad
    have hcause : s.supplyCause r = 0 := by simp [State.supplyCause, hbad]
    obtain ⟨t, ht, hcold, hmem, -⟩ := exec_supplyReset r hs
    exact ⟨t, ht, hcause ▸ hcold, hmem⟩
  · intro s hrefclk halive
    rw [exec_refclkAbsent_of_present hrefclk]
    simp [halive]
  · intro s hrefclk
    exact if_pos hrefclk
  · intro high s h
    exact if_pos h

end Sys2Proof.Machine
end

section
/-!
PROOF. The crossings: pulses, and messages on their way through the links and the lane buffers of their receiver's port (R68, R70, R74, R75, R80, R90,
R91, R327); with the laws of the PLLs, O28.
-/
-- One thread elaborates the file, as in Laws/: each further one takes a stack of its own.
set_option Elab.async false
open Sys2Proof

namespace Sys2Proof.Machine

/-! ### Loss of lock and relock -/

theorem exec_pllUnlock_of_locked {p : Fin 4} {s : State} (halive : s.alive = true) (h : bit (s.fld fld_PLL_STATUS_LOCK) p = true) :
    exec (.pllUnlock p) s = .next (s.unlockPll p) := if_pos ⟨halive, h⟩

/-- PLL_TIME: the fault shows, the servo holds over where it followed, and no warm reset is owed. -/
theorem State.unlockPll_time (s : State) : (s.unlockPll 3).flag fld_TIME_STATUS_CLOCK_FAULT = true ∧
    (s.unlockPll 3).resets = s.resets ∧
    (s.unlockPll 3).servo = if s.servo = servoStepped ∨ s.servo = servoLocked then servoHoldover else s.servo := by
  have hservo : (s.loseLock 3).servo = s.servo := s.fld_loseLock_other 3 (by decide)
  obtain ⟨hflag, hstate⟩ := (s.loseLock 3).faultClock_shows
  refine ⟨hflag, ?_, hstate.trans (by rw [hservo])⟩
  show (s.loseLock 3).faultClock.resets = _
  rw [State.faultClock_frame, State.loseLock_frame]

/-- Whatever PLL it is, LOCK falls, UNLOCK_SEEN is set and a report leaves; what has no part in it stays. -/
theorem State.unlockPll_common (s : State) {p : Nat} (hp : p < 4) :
    (s.unlockPll p).fld fld_PLL_STATUS_LOCK = s.fld fld_PLL_STATUS_LOCK - 2 ^ p ∧
      bit ((s.unlockPll p).fld fld_PLL_STATUS_UNLOCK_SEEN) p = true ∧
      (s.unlockPll p).integ.flits = s.integ.flits ++ [.report ⟨1, 0, BitVec.ofNat 32 p, s.stamp⟩] ∧
      (s.unlockPll p).pins = s.pins ∧ (s.unlockPll p).sw = s.sw ∧ (s.unlockPll p).sram = s.sram ∧ (s.unlockPll p).mem = s.mem := by
  have hfld : ∀ f : Fld, f.addr ≠ fld_TIME_STATUS_STATE.addr → (s.unlockPll p).fld f = (s.loseLock p).fld f := by
    intro f hf
    rw [State.unlockPll_eq]
    split
    · exact State.fld_faultClock_other _ hf
    · rw [State.oweUnlock_frame]; rfl
  have hframe : s.unlockPll p = { s.loseLock p with regs := (s.unlockPll p).regs, time := (s.unlockPll p).time, resets := (s.unlockPll p).resets } := by
    rw [State.unlockPll_eq]
    split
    · rw [State.faultClock_frame]
    · rw [State.oweUnlock_frame]
  rw [hfld _ (by decide), hfld _ (by decide), State.lock_loseLock]
  refine ⟨rfl, s.unlockSeen_loseLock hp, ?_⟩
  rw [hframe, s.loseLock_frame]
  exact ⟨rfl, rfl, rfl, rfl, rfl⟩

/-- The other PLLs owe a warm reset. -/
theorem State.due_unlockPll (s : State) {p : Nat} (hp : p ≠ 3) : (s.unlockPll p).resets.due = (s.oweUnlock p).resets.due := by
  rw [State.unlockPll_eq, if_neg hp, State.loseLock_frame]
  unfold State.oweUnlock State.oweWarm
  dsimp only
  split
  · rfl
  · split <;> rfl

theorem exec_pllTimeRelock_of_running {s : State} (halive : s.alive = true) (htime : s.time.running = true) :
    exec .pllTimeRelock s = .next ((s.setFld fld_PLL_STATUS_LOCK (Nat.lor (s.fld fld_PLL_STATUS_LOCK) 8)).setFlag fld_TIME_STATUS_CLOCK_FAULT false) := by
  show execPllTimeRelock s = _
  simp [execPllTimeRelock, halive, htime]

/-! ### Event crossings -/

/-- The register of a crossing's OVR bit. -/
def ovrField (i : Nat) : Fld := if i < 32 then fld_XING_OVR_0_OVR else if i < 64 then fld_XING_OVR_1_OVR else fld_XING_OVR_2_OVR

theorem State.setOvr_eq (s : State) (i : Nat) : s.setOvr i = s.setFld (ovrField i) (Nat.lor (s.fld (ovrField i)) (2 ^ (i % 32))) := rfl

/-- Each of the seventy crossings has its bit, in a register that no fuse is shown in. -/
theorem ovrField_fits : ∀ c : Fin 70, (ovrField c).lo + (ovrField c).width ≤ 32 ∧
    maskAt (ovrField c).addr (·.keeps == .fuse) &&& (ovrField c).mask = 0 ∧ c.val % 32 < (ovrField c).width := by decide +kernel

theorem State.ovr_setOvr (s : State) (c : Fin 70) : bit ((s.setOvr c).fld (ovrField c)) (c.val % 32) = true := by
  obtain ⟨hwidth, hfuse, hbit⟩ := ovrField_fits c
  rw [State.setOvr_eq, State.fld_setFld_same _ _ _ hwidth hfuse, bit_mod_two_pow _ hbit, bit_lor_two_pow]

theorem State.crossing_setCrossing (s : State) (i n k : Nat) :
    Store.get 0 (s.setCrossing i n).sw.crossing k = if k = i then n else Store.get 0 s.sw.crossing k := by
  rw [State.setCrossing_sw, Store.get_set]

theorem exec_eventCrossingPulse_of_alive {c : Fin 70} {d : Nat} {s : State} (h : s.alive = true) :
    exec (.eventCrossingPulse c d) s = .next (s.pulse c d) := if_pos h

theorem State.pulse_held {s : State} {i d : Nat} (hreset : s.inReset (crossingEnd i) = false) (h : Store.get 0 s.sw.crossing i - d < 3) :
    s.pulse i d = s.setCrossing i (Store.get 0 s.sw.crossing i - d + 1) := by
  simp [State.pulse, hreset, h]

theorem State.pulse_lost {s : State} {i d : Nat} (hreset : s.inReset (crossingEnd i) = false) (h : 3 ≤ Store.get 0 s.sw.crossing i - d) :
    s.pulse i d = ((s.setCrossing i (Store.get 0 s.sw.crossing i - d)).setOvr i).raiseFault faultXingOvr (crossingEnd i) (BitVec.ofNat 32 i) := by
  simp [State.pulse, hreset, Nat.not_lt.mpr h]

/-! ### Messages -/

/-- The links of a lane-0 message's route are counted; the other lanes' are not. -/
def State.crossLinks (s : State) (m : CrossingMessage) : State :=
  if m.lane = 0 then (crossingRoute m).foldl (fun s l => s.passLink (min m.arrived m.flits) l) s else s

theorem State.crossLinks_other {s : State} {m : CrossingMessage} (h : m.lane ≠ 0) : s.crossLinks m = s := if_neg h

theorem State.crossLinks_frame (s : State) (m : CrossingMessage) : s.crossLinks m = { s with regs := (s.crossLinks m).regs } := by
  have hfold : ∀ (l : List (Fin 64 × Nat)) (n : Nat) (u : State),
      l.foldl (fun s l => s.passLink n l) u = { u with regs := (l.foldl (fun s l => s.passLink n l) u).regs } := by
    intro l n
    induction l with
    | nil => exact fun _ => rfl
    | cons x r ih => exact fun u => ih (u.passLink n x)
  unfold State.crossLinks
  split
  · exact hfold _ _ _
  · rfl

theorem exec_dataCrossingMessage {m : CrossingMessage} {s : State} (halive : s.alive = true) : exec (.dataCrossingMessage m) s =
    if m.arrived < m.flits then .next (s.crossLinks m)
    else if (s.crossLinks m).inReset m.destination then
      .next { s.crossLinks m with sw := { (s.crossLinks m).sw with
        partnerReset := (s.crossLinks m).sw.partnerReset ++ [⟨m.destination, m.source, m.number, m.expectsResponse⟩] } }
    else .next ({ s.crossLinks m with sw := { (s.crossLinks m).sw with waiting := (s.crossLinks m).sw.waiting ++ [m] } }.drainPort m.destination) := by
  show execDataCrossingMessage m s = _
  simp only [execDataCrossingMessage, halive, Bool.true_eq_false, if_false]
  rfl

/-- What an uncorrectable word is recorded as before it is reported (R326). -/
def State.noteUe (s : State) (medium swatch : Nat) (scrub location : Bool) (addr : Nat) : State :=
  let u := s.addSat (fld_SELV_UE_UE medium) 1
  let u := if location then u.addSat (fld_SELV_UE_LOCATION medium) 1 else u
  let u := (u.addSat fld_SELV_LAST_COUNT 1).setFld fld_SELV_LAST_SWATCH swatch
  let u := (u.setFlag fld_SELV_LAST_SCRUB scrub).setFlag fld_SELV_LAST_LOCATION location
  (u.setFld fld_SELV_LAST_MEDIUM medium).setPair reg_SELV_LAST_ADDR_LO addr

theorem State.recordUe_eq (s : State) (medium swatch : Nat) (scrub location : Bool) (addr : Nat) : s.recordUe medium swatch scrub location addr =
    (s.noteUe medium swatch scrub location addr).raiseFault faultSelvedgeUe swatch (BitVec.ofNat 32 (medium + (if location then 4 else 0))) := rfl

theorem State.noteUe_frame (s : State) (medium swatch : Nat) (scrub location : Bool) (addr : Nat) :
    s.noteUe medium swatch scrub location addr = { s with regs := (s.noteUe medium swatch scrub location addr).regs } := by
  cases location <;> rfl

/-- A report after a change of registers. -/
theorem State.raiseFault_after {s u : State} (h : u = { s with regs := u.regs }) (c source : Nat) (detail : Word) :
    u.raiseFault c source detail = { s with regs := u.regs, integ := (u.raiseFault c source detail).integ,
                                            sw := { s.sw with requests := (u.raiseFault c source detail).sw.requests } } := by
  obtain ⟨hframe, -, hsw⟩ := u.raiseFault_frame c source detail
  have hus : u.sw = s.sw := by rw [h]
  generalize u.raiseFault c source detail = x at hframe hsw ⊢
  rw [hus] at hsw
  rw [← hsw]
  exact hframe.trans (by conv => lhs; rw [h])

theorem State.recordUe_frame (s : State) (medium swatch : Nat) (scrub location : Bool) (addr : Nat) : s.recordUe medium swatch scrub location addr =
    { s with regs := (s.recordUe medium swatch scrub location addr).regs, integ := (s.recordUe medium swatch scrub location addr).integ,
             sw := { s.sw with requests := (s.recordUe medium swatch scrub location addr).sw.requests } } := by
  rw [State.recordUe_eq, State.raiseFault_regs]
  exact State.raiseFault_after (s.noteUe_frame medium swatch scrub location addr) _ _ _

/-- A damaged half is recorded, at an address that the spec leaves open. -/
theorem State.checkHalf_damaged (s : State) (receiver : Nat) {h : Nat × SymbolErrors} (hbad : selvedgeCheck h.2 ≠ .clean) :
    ∃ location addr, s.checkHalf receiver h = State.recordUe { s with fresh := s.fresh + 1 } mediumFabric receiver false location addr := by
  unfold State.checkHalf
  split
  · contradiction
  · exact ⟨_, _, rfl⟩

/-- The check of a half changes registers and reports, and may ask for a swatch's reset. -/
theorem State.checkHalf_frame (s : State) (receiver : Nat) (h : Nat × SymbolErrors) : s.checkHalf receiver h =
    { s with regs := (s.checkHalf receiver h).regs, fresh := (s.checkHalf receiver h).fresh, integ := (s.checkHalf receiver h).integ,
             sw := { s.sw with requests := (s.checkHalf receiver h).sw.requests } } := by
  by_cases hclean : selvedgeCheck h.2 = .clean
  · have hsame : s.checkHalf receiver h = s := by simp [State.checkHalf, hclean]
    rw [hsame]
  · obtain ⟨location, addr, hue⟩ := s.checkHalf_damaged receiver hclean
    rw [hue, State.recordUe_frame]

/-- A port that has one message takes it, on whatever lane. -/
theorem laneTurn_single (k : Fin 4) (turn : Nat) : laneTurn [k] turn = some k := by
  match k with
  | 0 => rfl
  | 1 => rfl
  | 2 => simp [laneTurn]
  | 3 => rfl

/-- Where nothing waits for a port it takes nothing. -/
theorem State.takeMessage_none {s : State} {n : Nat} (h : ∀ x ∈ s.sw.waiting, x.destination.val ≠ n) : s.takeMessage n = s := by
  have hhere : s.sw.waiting.filter (fun m => m.destination.val == n) = [] := by simpa [List.filter_eq_nil_iff] using h
  simp only [State.takeMessage, hhere]
  rfl

/-- A port takes the one message that waits for it, wherever it stands in the turn of lanes. -/
theorem State.takeMessage_only {s : State} {m : CrossingMessage} {w : List CrossingMessage} (hw : s.sw.waiting = w ++ [m])
    (hne : ∀ x ∈ w, x.destination ≠ m.destination) :
    ∃ turn, s.takeMessage m.destination = State.deliver { s with sw := { s.sw with waiting := w, turn := turn } } m := by
  have hhere : (w ++ [m]).filter (fun x => x.destination.val == m.destination.val) = [m] := by
    have hnone : w.filter (fun x => x.destination.val == m.destination.val) = [] := by
      simpa [List.filter_eq_nil_iff, Fin.val_inj] using hne
    simp [List.filter_append, hnone]
  have herase : (w ++ [m]).erase m = w := by
    have hmem : m ∉ w := fun hm => hne m hm rfl
    rw [List.erase_append_right _ hmem]
    simp
  simp only [State.takeMessage, hw, hhere, List.map_cons, List.map_nil, laneTurn_single, List.find?_cons, beq_self_eq_true, herase]
  exact ⟨_, rfl⟩

/-- The halves of a message are checked in turn. -/
def State.checkHalves (s : State) (m : CrossingMessage) : State := m.halves.foldl (fun s h => s.checkHalf m.destination h) s

theorem State.checkHalves_frame (s : State) (m : CrossingMessage) : s.checkHalves m =
    { s with regs := (s.checkHalves m).regs, fresh := (s.checkHalves m).fresh, integ := (s.checkHalves m).integ,
             sw := { s.sw with requests := (s.checkHalves m).sw.requests } } := by
  unfold State.checkHalves
  induction m.halves generalizing s with
  | nil => rfl
  | cons h r ih =>
    rw [List.foldl_cons, ih (s.checkHalf m.destination h), s.checkHalf_frame m.destination h]

/-- The requests that wait for their answer once a message has been passed on, itself apart. -/
def State.stillRequested (s : State) (m : CrossingMessage) : List Delivery :=
  match m.answers with
  | some k => s.sw.requested.filter (fun d => !(d.destination == m.source && d.source == m.destination && d.number == k))
  | none => s.sw.requested

theorem State.deliver_eq (s : State) (m : CrossingMessage) : s.deliver m = { s.checkHalves m with sw := { (s.checkHalves m).sw with
      delivered := deliveryOf m :: s.sw.delivered,
      requested := if m.expectsResponse then s.stillRequested m ++ [deliveryOf m] else s.stillRequested m } } := by
  have hdelivered : (s.checkHalves m).sw.delivered = s.sw.delivered := by rw [s.checkHalves_frame]
  have hrequested : (s.checkHalves m).sw.requested = s.sw.requested := by rw [s.checkHalves_frame]
  unfold State.stillRequested
  rw [← hdelivered, ← hrequested]
  rfl

/-- Passing a message on takes nothing from the lane buffers. -/
theorem State.waiting_deliver (s : State) (m : CrossingMessage) : (s.deliver m).sw.waiting = s.sw.waiting := by
  rw [State.deliver_eq, s.checkHalves_frame]

/-- A clocked swatch takes the message that comes to its empty port, and nothing else. -/
theorem State.drainPort_only {s : State} {m : CrossingMessage} {w : List CrossingMessage} (hruns : s.swatchRuns m.destination = true)
    (hw : s.sw.waiting = w ++ [m]) (hne : ∀ x ∈ w, x.destination ≠ m.destination) :
    ∃ turn, s.drainPort m.destination = State.deliver { s with sw := { s.sw with waiting := w, turn := turn } } m := by
  have hnone : ∀ (l : List Nat) (u : State), u.sw.waiting = w → l.foldl (fun s _ => s.takeMessage m.destination) u = u := by
    intro l u hu
    induction l with
    | nil => rfl
    | cons x r ih =>
      have htake : u.takeMessage m.destination = u := State.takeMessage_none fun x hx e => hne x (hu ▸ hx) (Fin.ext e)
      rw [List.foldl_cons, htake, ih]
  obtain ⟨turn, hturn⟩ := State.takeMessage_only hw hne
  refine ⟨turn, ?_⟩
  have hlen : s.sw.waiting.length = w.length + 1 := by simp [hw]
  rw [State.drainPort, if_pos hruns, hlen, List.range_succ_eq_map, List.foldl_cons, hturn]
  exact hnone _ _ (State.waiting_deliver _ m)

/-- A whole message towards a clocked swatch with nothing before it is passed on. -/
theorem exec_dataCrossingMessage_passed {m : CrossingMessage} {s : State} (hwhole : m.flits ≤ m.arrived) (hruns : s.swatchRuns m.destination = true)
    (hne : ∀ x, x ∈ s.sw.waiting → x.destination ≠ m.destination) :
    ∃ turn, exec (.dataCrossingMessage m) s = .next (State.deliver { s.crossLinks m with sw := { s.sw with turn := turn } } m) := by
  have hsw : (s.crossLinks m).sw = s.sw := by rw [s.crossLinks_frame]
  have hlinked : (s.crossLinks m).swatchRuns m.destination = true := by rw [s.crossLinks_frame]; exact hruns
  obtain ⟨⟨halive, hreset⟩, -⟩ : (s.alive = true ∧ s.inReset m.destination = false) ∧ s.isGated m.destination = false := by
    simpa [State.swatchRuns] using hruns
  have hout : ¬ (s.crossLinks m).inReset m.destination = true := by rw [State.inReset, hsw]; simpa [State.inReset] using hreset
  obtain ⟨turn, hturn⟩ := State.drainPort_only (s := { s.crossLinks m with sw := { (s.crossLinks m).sw with waiting := (s.crossLinks m).sw.waiting ++ [m] } })
    (m := m) hlinked rfl (hsw ▸ hne)
  refine ⟨turn, ?_⟩
  rw [exec_dataCrossingMessage halive, if_neg (Nat.not_lt.mpr hwhole), if_neg hout, hturn, hsw]

/-! ### What a delivery leaves -/

/-- A message without damaged halves changes what is delivered and what is asked. -/
theorem State.deliver_clean {m : CrossingMessage} (s : State) (h : m.halves = []) : s.deliver m = { s with sw := { s.sw with
      delivered := ⟨m.destination, m.source, m.number, []⟩ :: s.sw.delivered,
      requested := if m.expectsResponse then s.stillRequested m ++ [⟨m.destination, m.source, m.number, []⟩] else s.stillRequested m } } := by
  have hcheck : s.checkHalves m = s := by simp [State.checkHalves, h]
  have hof : deliveryOf m = ⟨m.destination, m.source, m.number, []⟩ := by simp [deliveryOf, badHalves, h]
  rw [State.deliver_eq, hcheck, hof]

/-- What an uncorrectable word leaves in the fabric's counter and in SELV_LAST. -/
theorem State.recordUe_fabric (s : State) {swatch : Nat} (hswatch : swatch < 64) (location : Bool) (addr : Nat) :
    (s.recordUe mediumFabric swatch false location addr).fld (fld_SELV_UE_UE mediumFabric) = min 0xFFFF (s.fld (fld_SELV_UE_UE mediumFabric) + 1) ∧
      (s.recordUe mediumFabric swatch false location addr).fld fld_SELV_LAST_MEDIUM = mediumFabric ∧
      (s.recordUe mediumFabric swatch false location addr).fld fld_SELV_LAST_SWATCH = swatch ∧
      (s.recordUe mediumFabric swatch false location addr).fld fld_SELV_LAST_COUNT = min 0xFFFF (s.fld fld_SELV_LAST_COUNT + 1) := by
  have hpair : ∀ (u : State) (f : Fld), f.addr ≠ reg_SELV_LAST_ADDR_LO → f.addr ≠ reg_SELV_LAST_ADDR_LO + 4 →
      (u.setPair reg_SELV_LAST_ADDR_LO addr).fld f = u.fld f := by
    intro u f hlo hhi
    simp only [State.fld, State.setPair, State.reg_setReg_other _ _ _ _ hhi, State.reg_setReg_other _ _ _ _ hlo]
  have hue : ∀ (u : State) (v : Nat), (u.setFld (fld_SELV_UE_UE mediumFabric) v).fld (fld_SELV_UE_UE mediumFabric) = v % 2 ^ 16 :=
    fun u v => State.fld_setFld_same u _ v (by decide) (by decide +kernel)
  have hmedium : ∀ (u : State) (v : Nat), (u.setFld fld_SELV_LAST_MEDIUM v).fld fld_SELV_LAST_MEDIUM = v % 2 ^ 2 :=
    fun u v => State.fld_setFld_same u _ v (by decide) (by decide +kernel)
  have hsw : ∀ (u : State) (v : Nat), (u.setFld fld_SELV_LAST_SWATCH v).fld fld_SELV_LAST_SWATCH = v % 2 ^ 6 :=
    fun u v => State.fld_setFld_same u _ v (by decide) (by decide +kernel)
  have hcount : ∀ (u : State) (v : Nat), (u.setFld fld_SELV_LAST_COUNT v).fld fld_SELV_LAST_COUNT = v % 2 ^ 16 :=
    fun u v => State.fld_setFld_same u _ v (by decide) (by decide +kernel)
  have hsat : ∀ v : Nat, min (2 ^ 16 - 1) v % 2 ^ 16 = min 0xFFFF v := fun v => by omega
  rw [State.recordUe_eq]
  simp only [State.fld_raiseFault]
  cases location <;>
    simp (disch := decide) only [State.noteUe, State.setFlag, State.addSat, hpair, hue, hmedium, hsw, hcount, State.fld_setFld_other,
      State.fld_setFld_apart, Bool.false_eq_true, if_true, if_false]
  all_goals exact ⟨hsat _, rfl, Nat.mod_eq_of_lt hswatch, hsat _⟩

theorem badHalves_damaged {m : CrossingMessage} {h : Nat} {e : SymbolErrors} (hhalves : m.halves = [(h, e)]) (hbad : selvedgeCheck e ≠ .clean) :
    badHalves m = [h] := by
  cases hcheck : selvedgeCheck e with
  | clean => contradiction
  | corrected position value => simp [badHalves, hhalves, hcheck]
  | uncorrectable location => simp [badHalves, hhalves, hcheck]

/-- A message with one damaged half is delivered with that half marked, and the word is recorded. -/
theorem State.deliver_damaged {m : CrossingMessage} {h : Nat} {e : SymbolErrors} (s : State) (hhalves : m.halves = [(h, e)])
    (hbad : selvedgeCheck e ≠ .clean) : (s.deliver m).sw.delivered = ⟨m.destination, m.source, m.number, [h]⟩ :: s.sw.delivered ∧
      ∃ location addr, ∀ f,
        (s.deliver m).fld f = (State.recordUe { s with fresh := s.fresh + 1 } mediumFabric m.destination false location addr).fld f := by
  obtain ⟨location, addr, hue⟩ := s.checkHalf_damaged m.destination (h := (h, e)) hbad
  have hcheck : s.checkHalves m = State.recordUe { s with fresh := s.fresh + 1 } mediumFabric m.destination false location addr := by
    simp [State.checkHalves, hhalves, hue]
  rw [State.deliver_eq, deliveryOf, badHalves_damaged hhalves hbad, hcheck]
  exact ⟨rfl, location, addr, State.fld_congr rfl rfl⟩

/-! ### The links of lane 0 (R91) -/

/-- No fuse is shown in the links' counters. -/
theorem linkFields_fit : ∀ l : Fin 64, maskAt (fld_LINK_A_FLITS_FLITS l).addr (·.keeps == .fuse) &&& (fld_LINK_A_FLITS_FLITS l).mask = 0 ∧
    maskAt (fld_LINK_A_WAIT_WAIT_MAX l).addr (·.keeps == .fuse) &&& (fld_LINK_A_WAIT_WAIT_MAX l).mask = 0 := by decide +kernel

theorem State.passLink_fields (s : State) (n : Nat) (l : Fin 64) (w : Nat) :
    (s.passLink n (l, w)).fld (fld_LINK_A_FLITS_FLITS l) = (s.fld (fld_LINK_A_FLITS_FLITS l) + n) % 2 ^ 32 ∧
      (s.passLink n (l, w)).fld (fld_LINK_A_WAIT_WAIT_MAX l) = min 0xFFFF (max (s.fld (fld_LINK_A_WAIT_WAIT_MAX l)) w) ∧
      RegsBut [fld_LINK_A_FLITS_FLITS l, fld_LINK_A_WAIT_WAIT_MAX l] s (s.passLink n (l, w)) := by
  obtain ⟨hflits, hwait⟩ := linkFields_fit l
  have hapart : (fld_LINK_A_FLITS_FLITS l).addr ≠ (fld_LINK_A_WAIT_WAIT_MAX l).addr := by
    simp only [fld_LINK_A_FLITS_FLITS, fld_LINK_A_WAIT_WAIT_MAX]
    omega
  refine ⟨?_, ?_, regsBut_raiseMax (by simp) (regsBut_addWrap (by simp) (regsBut_refl _ s))⟩
  · rw [State.passLink, State.raiseMax, State.fld_setFld_other _ _ _ _ hapart, State.addWrap, State.fld_setFld_same _ _ _ (by decide : 0 + 32 ≤ 32) hflits]
    rfl
  · rw [State.passLink, State.raiseMax, State.fld_setFld_same _ _ _ (by decide : 0 + 16 ≤ 32) hwait, State.addWrap,
      State.fld_setFld_other _ _ _ _ hapart.symm]
    show min (2 ^ 16 - 1) (max (s.fld (fld_LINK_A_WAIT_WAIT_MAX l)) w) % 2 ^ 16 = _
    omega

/-- A route of one link. -/
theorem State.crossLinks_one {s : State} {m : CrossingMessage} {l : Fin 64} {w : Nat} (hlane : m.lane = 0) (hlinks : m.links = [(l, w)])
    (hwhole : m.flits ≤ m.arrived) : s.crossLinks m = s.passLink m.flits (l, w) := by
  have hroute : crossingRoute m = [(l, w)] := by simp [crossingRoute, hlinks]
  simp [State.crossLinks, hlane, hroute, Nat.min_eq_right hwhole]

/-- Settles O28: the PLLs' laws, the crossings' pulses, and messages by way of `State.drainPort` and `State.deliver`. -/
theorem clocksAndCrossings : Obligations.ClocksAndCrossings := by
  refine ⟨?_, ?_, ?_, ?_, ?_, ?_, ?_, ?_, ?_, ?_, ?_, ?_⟩
  · intro p s halive hlocked
    obtain ⟨hlock, hseen, hflits, hpins, hsw, hsram, hmem⟩ := s.unlockPll_common p.isLt
    refine ⟨s.unlockPll p, exec_pllUnlock_of_locked halive hlocked, hlock, hseen, hflits, fun hp => ?_, fun hp hdue => ?_, fun q x hp hdue => ?_,
      hpins, hsw, hsram, hmem⟩
    · obtain ⟨hfault, hresets, hservo⟩ := s.unlockPll_time
      rw [hp, hfault, hresets, hservo]
      refine ⟨rfl, rfl, fun h => if_pos h.symm, fun hlocked hstepped => if_neg ?_⟩
      rintro (h | h)
      · exact hstepped h
      · exact hlocked h
    · rw [s.due_unlockPll hp, State.due_oweUnlock_none p hdue]
    · rw [s.due_unlockPll hp, State.due_oweUnlock_some p hdue]
  · intro s halive htime
    refine ⟨_, exec_pllTimeRelock_of_running halive htime, State.flag_setFlag_same _ _ _ (by decide) rfl (by decide +kernel), ?_, rfl,
      regsBut_setFlag (by simp) (regsBut_setFld (by simp) (regsBut_refl _ s))⟩
    rw [State.setFlag, State.fld_setFld_other _ _ _ _ (by decide), State.fld_setFld_same _ _ _ (by decide) (by decide +kernel)]
    exact Nat.mod_eq_of_lt (Nat.or_lt_two_pow (s.fld_lt fld_PLL_STATUS_LOCK) (by decide))
  · intro c d s halive hreset hroom
    refine ⟨_, exec_eventCrossingPulse_of_alive halive, ?_⟩
    rw [State.pulse_held hreset hroom]
    refine ⟨?_, fun k hk => ?_, rfl⟩
    · rw [State.crossing_setCrossing, if_pos rfl]
    · rw [State.crossing_setCrossing, if_neg hk]
  · intro c d s halive hreset hfull
    refine ⟨_, exec_eventCrossingPulse_of_alive halive, ?_⟩
    rw [State.pulse_lost hreset hfull]
    obtain ⟨-, hinteg, hsw⟩ := State.raiseFault_frame ((s.setCrossing c (Store.get 0 s.sw.crossing c - d)).setOvr c) faultXingOvr (crossingEnd c)
      (BitVec.ofNat 32 c)
    refine ⟨?_, ?_, ?_⟩
    · rw [hsw]
      exact (State.crossing_setCrossing s _ _ _).trans (if_pos rfl)
    · rw [State.fld_raiseFault]
      exact State.ovr_setOvr _ c
    · rw [hinteg]
      rfl
  · intro c d s hreset
    show execEventCrossingPulse c d s = _
    simp [execEventCrossingPulse, State.pulse, hreset]
  · intro m s hlane hwhole hruns hhalves hne
    obtain ⟨turn, ht⟩ := exec_dataCrossingMessage_passed hwhole hruns hne
    rw [State.crossLinks_other hlane, State.deliver_clean _ hhalves] at ht
    exact ⟨_, ht, rfl, rfl, fun hanswers => by simp only [State.stillRequested, hanswers]; split <;> simp, rfl⟩
  · intro m s halive hlane hwhole hreset
    rw [exec_dataCrossingMessage halive, State.crossLinks_other hlane, if_neg (Nat.not_lt.mpr hwhole), if_pos hreset]
  · intro m l w s hlane hlinks hwhole hruns hhalves hne
    obtain ⟨turn, ht⟩ := exec_dataCrossingMessage_passed hwhole hruns hne
    rw [State.crossLinks_one hlane hlinks hwhole, State.deliver_clean _ hhalves] at ht
    exact ⟨_, ht, rfl, s.passLink_fields m.flits l w⟩
  · intro m s halive hlane hshort
    rw [exec_dataCrossingMessage halive, State.crossLinks_other hlane, if_pos hshort]
  · intro m s halive hlane hwhole hreset hgated
    have hstopped : State.swatchRuns { s with sw := { s.sw with waiting := s.sw.waiting ++ [m] } } m.destination = false := by
      have hg : s.sw.gated.getLsbD m.destination = true := hgated
      simp [State.swatchRuns, State.isGated, hg]
    rw [exec_dataCrossingMessage halive, State.crossLinks_other hlane, if_neg (Nat.not_lt.mpr hwhole), hreset, State.drainPort, hstopped]
    simp
  · intro m h e s hlane hwhole hruns hhalves hbad hne
    obtain ⟨turn, ht⟩ := exec_dataCrossingMessage_passed hwhole hruns hne
    rw [State.crossLinks_other hlane] at ht
    obtain ⟨hdelivered, location, addr, hfld⟩ := State.deliver_damaged { s with sw := { s.sw with turn := turn } } hhalves hbad
    refine ⟨_, ht, hdelivered, ?_⟩
    rw [hfld, hfld, hfld, hfld]
    exact State.recordUe_fabric _ (by omega) location addr
  · intro m k s hlane hwhole hruns hhalves hanswers hexpects hne
    obtain ⟨turn, ht⟩ := exec_dataCrossingMessage_passed hwhole hruns hne
    rw [State.crossLinks_other hlane, State.deliver_clean _ hhalves] at ht
    exact ⟨_, ht, by simp [State.stillRequested, hanswers, hexpects]⟩

end Sys2Proof.Machine
end

section
/-!
PROOF. Swatch resets: which swatches, phases and pins each step of Table 2.6 changes, what the clear and the reload leave of SRAM, crossings and
registers (R77 to R83, R87, R89, R120, R409).
-/
-- One thread elaborates the file, as in Laws/: each further one takes a stack of its own.
set_option Elab.async false
open Sys2Proof

namespace Sys2Proof.Machine

/-! ### Swatches and groups -/

theorem getLsbD_swatchBit (n : Nat) {m : Nat} (hm : m < 48) : (swatchBit n).getLsbD m = decide (m = n) := by
  rw [swatchBit, BitVec.getLsbD_ofNat, Nat.testBit_two_pow, decide_eq_true hm, Bool.true_and]
  exact decide_eq_decide.mpr eq_comm

/-- A swatch's bit stands in a list's bits where the list names it. -/
theorem getLsbD_swatchBits (l : List Nat) {m : Nat} (hm : m < 48) : (swatchBits l).getLsbD m = l.contains m := by
  have hfold : ∀ (l : List Nat) (b : BitVec 48), (l.foldl (fun m n => m ||| swatchBit n) b).getLsbD m = (b.getLsbD m || l.contains m) := by
    intro l
    induction l with
    | nil => intro b; simp
    | cons n r ih =>
      intro b
      have hbeq : (m == n) = decide (m = n) := rfl
      rw [List.foldl_cons, ih, BitVec.getLsbD_or, getLsbD_swatchBit n hm, List.contains_cons, hbeq, Bool.or_assoc]
  rw [swatchBits, hfold]
  simp

theorem groupMembers_contains (g : Nat) {m : Nat} (hm : m < 48) : (groupMembers g).contains m = (groupOf m == g) := by
  rw [Bool.eq_iff_iff]
  simp [groupMembers, hm]

/-! ### Entries of a store dropped by their key -/

theorem Store.get_filter_key {α : Type} (d : α) (p : Nat → Bool) (m : Store α) (a : Nat) :
    Store.get d (m.filter (fun e => p e.1)) a = if p a then Store.get d m a else d := by
  induction m with
  | nil => simp [Store.get]
  | cons e r ih =>
    obtain ⟨k, v⟩ := e
    by_cases hk : k = a
    · subst hk
      by_cases hp : p k <;> simp_all [Store.get]
    · by_cases hp : p k <;> simp [hp, Store.get, hk, ih]

/-! ### What stays pinned -/

variable {cn : Pins × Power} {ql : BitVec 48 × Store GroupPhase} {s : State}

/-- A change beside the pins, the power state, the swatches in reset and the groups' phases. -/
theorem State.Pinned.same {t : State} (h : s.Pinned cn ql) (hpins : t.pins = s.pins := by rfl) (hpower : t.power = s.power := by rfl)
    (hreset : t.sw.inReset = s.sw.inReset := by rfl) (hphase : t.sw.phase = s.sw.phase := by rfl) : t.Pinned cn ql :=
  ⟨hpins.trans h.pins, hpower.trans h.power, hreset.trans h.inReset, hphase.trans h.phase⟩

theorem State.pinned_self (s : State) : s.Pinned (s.pins, s.power) (s.sw.inReset, s.sw.phase) := ⟨rfl, rfl, rfl, rfl⟩

theorem State.setGroupPhase_pinned (g : Nat) (p : GroupPhase) (h : s.Pinned cn ql) :
    (s.setGroupPhase g p).Pinned cn (ql.1, Store.set .running ql.2 g p) :=
  ⟨h.pins, h.power, h.inReset, by rw [State.setGroupPhase_sw, h.phase]⟩

theorem State.setInReset_pinned (l : List Nat) (b : Bool) (h : s.Pinned cn ql) :
    (s.setInReset l b).Pinned cn (if b then ql.1 ||| swatchBits l else ql.1 &&& ~~~ swatchBits l, ql.2) :=
  ⟨h.pins, h.power, congrArg (fun r => if b then r ||| swatchBits l else r &&& ~~~ swatchBits l) h.inReset, h.phase⟩

theorem State.Pinned.groupPhase (h : s.Pinned cn ql) (g : Nat) : s.groupPhase g = Store.get .running ql.2 g := by
  rw [State.groupPhase, h.phase]

theorem State.Pinned.inReset_eq (h : s.Pinned cn ql) (n : Nat) : s.inReset n = ql.1.getLsbD n :=
  congrArg (fun r => BitVec.getLsbD r n) h.inReset

/-- Taking messages from the lane buffers moves no swatch in or out of reset. -/
theorem State.deliver_pinned (m : CrossingMessage) (h : s.Pinned cn ql) : (s.deliver m).Pinned cn ql := by
  rw [State.deliver_eq, s.checkHalves_frame]
  exact h.same

theorem State.takeMessage_pinned (n : Nat) (h : s.Pinned cn ql) : (s.takeMessage n).Pinned cn ql := by
  unfold State.takeMessage
  dsimp only
  split
  · exact h
  · split
    · exact h
    · exact State.deliver_pinned _ h.same

theorem State.drainPort_pinned (n : Nat) (h : s.Pinned cn ql) : (s.drainPort n).Pinned cn ql :=
  pinned_ite (pinned_foldl h fun _ _ => State.takeMessage_pinned n) h

theorem State.drainPorts_pinned (h : s.Pinned cn ql) : s.drainPorts.Pinned cn ql := pinned_foldl h fun _ n => State.drainPort_pinned n

/-- What follows a restore. -/
theorem State.afterRestore_pinned (h : s.Pinned cn ql) : (s.regate.takeSteps.drainPorts).serveWaiting.Pinned cn ql :=
  State.serveWaiting_pinned (State.drainPorts_pinned (State.takeSteps_pinned (State.regate_pinned h)))

theorem State.recheck_pinned (g : Nat) (h : s.Pinned cn ql) : (s.recheck g).Pinned cn ql :=
  pinned_ite (State.checkVision_pinned h) (pinned_ite (State.checkTracking_pinned h) (pinned_ite (State.startInit_pinned h) h))

theorem State.resumeGroup_pinned (g : Nat) (h : s.Pinned cn ql) : (s.resumeGroup g).Pinned cn ql :=
  pinned_ite (State.dispatch_pinned h) (pinned_ite (State.startChannels_pinned h) (pinned_ite (State.takeJob_pinned h) h))

/-- A solver core runs again where every slot that holds a descriptor has been judged (R409). -/
theorem State.coreRestored_pinned (c : Nat) (h : s.Pinned cn ql) : (s.coreRestored c).Pinned cn
    (ql.1, if (List.range 8).any (s.unjudged c) then ql.2 else Store.set .running ql.2 (groupOf (solverSwatch c)) .running) := by
  unfold State.coreRestored
  split
  · exact h
  · exact State.regate_pinned (State.setGroupPhase_pinned _ _ (State.comparePairs_pinned h))

/-! ### The end of a restore -/

theorem State.finishRestore_pinned {g : Nat} (h6 : g ≠ 6) (h7 : g ≠ 7) (h : s.Pinned cn ql) :
    (s.finishRestore g).Pinned cn (ql.1, Store.set .running ql.2 g .running) := by
  have hrestored : ((s.restoreData (groupMembers g)).recheck g).Pinned cn ql := State.recheck_pinned g (State.restoreData_pinned h)
  simp only [State.finishRestore, if_neg h6, if_neg h7]
  exact State.afterRestore_pinned (State.setGroupPhase_pinned g .running hrestored)

/-- The groups of the solver cores wait for the analysis of their slots. -/
theorem State.finishRestore_core_pinned {g : Nat} (hg : g = 6 ∨ g = 7) (h : s.Pinned cn ql) : (s.finishRestore g).Pinned cn
    (ql.1, if (List.range 8).any ((s.restoreData (groupMembers g)).unjudged (g - 6)) then ql.2 else Store.set .running ql.2 g .running) := by
  have hrestored : (s.restoreData (groupMembers g)).Pinned cn ql := State.restoreData_pinned h
  rcases hg with rfl | rfl
  · have hunchecked : ∀ u : State, u.recheck 6 = u := fun _ => rfl
    simp only [State.finishRestore, hunchecked, if_true]
    exact State.afterRestore_pinned (State.coreRestored_pinned 0 hrestored)
  · have hunchecked : ∀ u : State, u.recheck 7 = u := fun _ => rfl
    have hne : (7 : Nat) ≠ 6 := by decide
    simp only [State.finishRestore, hunchecked, if_neg hne, if_true]
    exact State.afterRestore_pinned (State.coreRestored_pinned 1 hrestored)

/-! ### The clear -/

/-- A group's members enter reset, and it clears. -/
theorem State.enterReset_pinned (s : State) (g : Nat) : (s.enterReset g).Pinned (s.pins, s.power)
    (s.sw.inReset ||| swatchBits (groupMembers g), Store.set .running s.sw.phase g .clearing) := by
  have hstopped : (if (groupMembers g).any s.onClassAPath then s.stopForReset else s).Pinned (s.pins, s.power) (s.sw.inReset, s.sw.phase) :=
    pinned_ite (State.stopForReset_pinned s.pinned_self) s.pinned_self
  have hentered := State.setGated_pinned (l := groupMembers g) (b := false)
    (State.setInReset_pinned (groupMembers g) true (State.setGroupPhase_pinned g .clearing hstopped))
  exact State.clearSram_pinned (pinned_foldl (State.clearCrossings_pinned (State.resetUnits_pinned hentered)) fun _ _ => State.releasePins_pinned)

/-- What the units of a group lose as it enters reset is lost before its SRAM and its crossings are cleared. -/
theorem State.enterReset_clears (s : State) (g : Nat) : ∃ u v : State,
    (s.enterReset g).sram = dropKeys v.sram (2 ^ 64) (groupMembers g) ∧
      (s.enterReset g).sw.crossing = u.sw.crossing.filter (fun e => !(groupMembers g).contains (crossingEnd e.1)) := by
  have hpins : ∀ (l : List Nat) (u : State), (l.foldl State.releasePins u).sw = u.sw := by
    intro l
    induction l with
    | nil => exact fun _ => rfl
    | cons n r ih => exact fun u => ih (u.releasePins n)
  exact ⟨_, _, rfl, congrArg Swatches.crossing (hpins _ _)⟩

theorem State.sram_enterReset (s : State) (g : Nat) {k : Nat} (h : (groupMembers g).contains (k / 2 ^ 64) = true) :
    Store.get 0 (s.enterReset g).sram k = 0 := by
  obtain ⟨-, v, hsram, -⟩ := s.enterReset_clears g
  rw [hsram, dropKeys, Store.get_filter_key 0 (fun a => !(groupMembers g).contains (a / 2 ^ 64))]
  simp only [h, Bool.not_true, Bool.false_eq_true, if_false]

theorem State.crossing_enterReset (s : State) (g : Nat) {k : Nat} (h : (groupMembers g).contains (crossingEnd k) = true) :
    Store.get 0 (s.enterReset g).sw.crossing k = 0 := by
  obtain ⟨u, -, -, hcrossing⟩ := s.enterReset_clears g
  rw [hcrossing, Store.get_filter_key 0 (fun a => !(groupMembers g).contains (crossingEnd a))]
  simp only [h, Bool.not_true, Bool.false_eq_true, if_false]

/-! ### The reload (R21, R81) -/

/-- Words laid over a register file for the addresses of a list of swatches. -/
theorem get_overlay {l : List Nat} {c : Store Word} {lo : Nat} (w : Store.wfFrom 0 lo c = true) (m : Store Word) (a : Nat) :
    Store.get 0 (c.foldl (fun m e => if l.contains (servedBy e.1) then Store.set 0 m e.1 (Store.get 0 m e.1 ||| e.2) else m) m) a =
      if l.contains (servedBy a) then Store.get 0 m a ||| Store.get 0 c a else Store.get 0 m a := by
  induction c generalizing lo m with
  | nil => simp [Store.get]
  | cons e r ih =>
    obtain ⟨k, v⟩ := e
    simp only [Store.wfFrom, Bool.and_eq_true, decide_eq_true_eq] at w
    obtain ⟨-, hr⟩ := w
    rw [List.foldl_cons, ih hr]
    by_cases hk : k = a
    · subst hk
      rw [Store.get_below hr (Nat.lt_succ_self k)]
      have hzero : ∀ x : Word, x ||| 0 = x := fun _ => BitVec.or_zero
      cases hl : l.contains (servedBy k) with
      | true => simp only [if_true, Store.get, Store.get_set_same, hzero]
      | false => simp only [Bool.false_eq_true, if_false]
    · have hother : Store.get 0 (if l.contains (servedBy k) then Store.set 0 m k (Store.get 0 m k ||| v) else m) a = Store.get 0 m a := by
        split
        · exact Store.get_set_other _ _ _ _ _ (Ne.symm hk)
        · rfl
      simp only [hother, Store.get, if_neg hk]

/-- What a swatch reset leaves of a register. -/
def leftMask (l : List Nat) (a : Nat) : Word := if l.contains (servedBy a) then groupMask a else BitVec.allOnes 32

theorem State.get_regs_reloadRegs {l : List Nat} (hregs : Store.wf 0 s.regs = true) (hcast : Store.wf 0 s.cast.castRegs = true) (a : Nat) :
    Store.get 0 (s.reloadRegs l).regs a = if l.contains (servedBy a) then (Store.get 0 s.regs a &&& groupMask a) ||| Store.get 0 s.cast.castRegs a
      else Store.get 0 s.regs a := by
  have hleft : ∀ a, Store.get 0 (s.regs.filterMap (fun e =>
      if l.contains (servedBy e.1) then (if e.2 &&& groupMask e.1 = 0 then none else some (e.1, e.2 &&& groupMask e.1)) else some e)) a =
      Store.get 0 s.regs a &&& leftMask l a := by
    refine Store.get_filterMap (f := fun k v => v &&& leftMask l k) (fun k v hv => ?_) (fun _ => BitVec.zero_and) hregs
    cases hl : l.contains (servedBy k) with
    | true =>
      simp only [leftMask, hl, if_true]
      rfl
    | false => simp only [leftMask, hl, if_false, Bool.false_eq_true, BitVec.and_allOnes, hv]
  refine (get_overlay hcast _ a).trans ?_
  rw [hleft]
  cases hl : l.contains (servedBy a) with
  | true => simp only [leftMask, hl, if_true]
  | false => simp only [leftMask, hl, Bool.false_eq_true, if_false, BitVec.and_allOnes]

/-! ### Requests -/

theorem exec_swReset_of_taken {data d : Word} {s : State} (h : s.writeTaken reg_SW_RESET data = some d) :
    exec (.swReset data) s = if 47 < d.toNat % 64 ∨ groupOf (d.toNat % 64) = 0 then .next s else .next (s.askReset (d.toNat % 64) 0) := by
  show execSwReset data s = _
  simp only [execSwReset, h]

theorem exec_swatchResetRequest_of_sent {n : Fin 48} {c : Fin 4} {s : State} (halive : s.alive = true)
    (hsent : s.sw.requests.contains (n.val, c.val) = true) : exec (.swatchResetRequest n c) s =
    if groupOf n = 0 ∨ s.flag fld_SYS_LOCK_LOCKED = false ∨ s.inReset n = true then .next (s.takeRequest n c)
    else .next (if groupOf n = 8 then ((s.takeRequest n c).recordReset n c).beginWarm 6 0 else ((s.takeRequest n c).recordReset n c).enterReset (groupOf n)) := by
  have h : ¬ (s.alive = false ∨ s.sw.requests.contains (n.val, c.val) = false) := by rw [halive, hsent]; decide
  exact if_neg h

/-- What SW_RESET_LAST records (R89). -/
theorem State.recordReset_spec (s : State) (n : Fin 48) (c : Fin 4) : (s.recordReset n c).fld fld_SW_RESET_LAST_SWATCH = n.val ∧
    (s.recordReset n c).fld fld_SW_RESET_LAST_CAUSE = c.val ∧
    (s.recordReset n c).fld fld_SW_RESET_LAST_COUNT = min 0xFFFF (s.fld fld_SW_RESET_LAST_COUNT + 1) ∧
    RegsBut [fld_SW_RESET_LAST_SWATCH, fld_SW_RESET_LAST_CAUSE, fld_SW_RESET_LAST_COUNT] s (s.recordReset n c) := by
  refine ⟨?_, ?_, ?_, regsBut_setFld (by simp) (regsBut_setFld (by simp) (regsBut_addSat (by simp) (regsBut_refl _ s)))⟩
  · rw [State.recordReset, State.fld_setFld_same _ _ _ (by decide) (by decide +kernel)]
    exact Nat.mod_eq_of_lt (Nat.lt_trans n.isLt (by decide))
  · rw [State.recordReset, State.fld_setFld_apart _ _ _ _ (by decide), State.fld_setFld_same _ _ _ (by decide) (by decide +kernel)]
    exact Nat.mod_eq_of_lt c.isLt
  · rw [State.recordReset, State.fld_setFld_apart _ _ _ _ (by decide), State.fld_setFld_apart _ _ _ _ (by decide), State.addSat,
      State.fld_setFld_same _ _ _ (by decide) (by decide +kernel)]
    show min (2 ^ 16 - 1) _ % 2 ^ 16 = _
    omega

/-! ### Release and restore -/

/-- What a released group is before its restore. -/
def State.releaseGroup (s : State) (g : Nat) : State :=
  ((s.setGroupPhase g .restoring).setInReset (groupMembers g) false).takeSteps.resumeGroup g

theorem State.releaseGroup_pinned (s : State) (g : Nat) : (s.releaseGroup g).Pinned (s.pins, s.power)
    (s.sw.inReset &&& ~~~ swatchBits (groupMembers g), Store.set .running s.sw.phase g .restoring) :=
  State.resumeGroup_pinned g (State.takeSteps_pinned (State.setInReset_pinned (groupMembers g) false (State.setGroupPhase_pinned g .restoring
    s.pinned_self)))

theorem State.cast_dispatch (s : State) : s.dispatch.cast = s.cast := by
  have hone : ∀ (u : State) (q : NeuralRequest), (u.dispatchOne q).cast = u.cast := by
    intro u q
    unfold State.dispatchOne State.endReservation
    split
    · dsimp only
      split
      · split <;> rfl
      · rfl
    · split
      · rfl
      · split <;> rfl
  have hfold : ∀ (l : List NeuralRequest) (u : State), (l.foldl State.dispatchOne u).cast = u.cast := by
    intro l
    induction l with
    | nil => exact fun _ => rfl
    | cons q r ih => exact fun u => (ih _).trans (hone u q)
  exact hfold _ s

/-- What resumes as a group is released leaves what cast-on kept. -/
theorem State.cast_resumeGroup (s : State) (g : Nat) : (s.resumeGroup g).cast = s.cast := by
  unfold State.resumeGroup
  split
  · exact s.cast_dispatch
  · split
    · rfl
    · split
      · unfold State.takeJob
        split
        · split <;> rfl
        · rfl
      · rfl

theorem State.hasKept_releaseGroup (s : State) (g k : Nat) : (s.releaseGroup g).hasKept k = s.hasKept k := by
  have hcast : (s.releaseGroup g).cast = s.cast := State.cast_resumeGroup _ g
  simp only [State.hasKept, hcast]

theorem exec_swatchResetRelease_of_cleared {g : Fin 44} {s : State} (halive : s.alive = true) (hphase : s.groupPhase g = .cleared) :
    exec (.swatchResetRelease g) s = .next (if s.hasKept g then s.releaseGroup g else (s.releaseGroup g).finishRestore g) := by
  have h : ¬ (s.alive = false ∨ s.groupPhase g ≠ .cleared) := by rw [halive, hphase]; decide
  rw [← s.hasKept_releaseGroup g g]
  exact if_neg h

theorem exec_swatchRestoreDone_of_restoring {g : Fin 44} {s : State} (halive : s.alive = true) (hphase : s.groupPhase g = .restoring)
    (hkept : s.hasKept g = true) : exec (.swatchRestoreDone g) s = .next (s.finishRestore g) := by
  have h : ¬ (s.alive = false ∨ s.groupPhase g ≠ .restoring ∨ s.hasKept g = false) := by rw [halive, hphase, hkept]; decide
  exact if_neg h

/-- The members of a group put into reset, and let out of it. -/
theorem inReset_or_members (r : BitVec 48) (g : Nat) {m : Nat} (hm : m < 48) :
    (r ||| swatchBits (groupMembers g)).getLsbD m = true ↔ r.getLsbD m = true ∨ groupOf m = g := by
  rw [BitVec.getLsbD_or, getLsbD_swatchBits _ hm, groupMembers_contains g hm, Bool.or_eq_true, beq_iff_eq]

theorem inReset_without_members (r : BitVec 48) (g : Nat) {m : Nat} (hm : m < 48) :
    (r &&& ~~~ swatchBits (groupMembers g)).getLsbD m = true ↔ r.getLsbD m = true ∧ groupOf m ≠ g := by
  rw [BitVec.getLsbD_and, BitVec.getLsbD_not, getLsbD_swatchBits _ hm, groupMembers_contains g hm]
  simp [hm]

end Sys2Proof.Machine
end

section
/-!
PROOF. The sequence of a swatch reset, from the laws of its steps.
-/
open Sys2Proof

namespace Sys2Proof.Machine

/-- Settles O27: each step of Table 2.6 by what it leaves pinned, and by what it clears and reloads. -/
theorem swatchResetRunsItsSequence : Obligations.SwatchResetRunsItsSequence := by
  refine ⟨?_, ?_, ?_, ?_, ?_, ?_, ?_, ?_, ?_, ?_⟩
  · intro data d s htaken hn hgroup hlocked
    rw [exec_swReset_of_taken htaken, if_neg (by omega), State.askReset, if_pos hlocked]
  · intro n c s halive hsent hlocked h0 h8 hreset
    have hpinned := ((s.takeRequest n c).recordReset n c).enterReset_pinned (groupOf n)
    obtain ⟨hswatch, hcause, hcount, hregs⟩ := (s.takeRequest n c).recordReset_spec n c
    refine ⟨(s.takeRequest n c).recordReset n c, ((s.takeRequest n c).recordReset n c).enterReset (groupOf n), ?_, rfl, ?_, fun m hm => ?_,
      fun k hk => State.sram_enterReset _ _ hk, fun k hk => State.crossing_enterReset _ _ hk, hpinned.pins, hswatch, hcause, hcount, hregs, rfl⟩
    · rw [exec_swatchResetRequest_of_sent halive hsent, if_neg (by simp [h0, hlocked, hreset]), if_neg h8]
    · rw [hpinned.groupPhase, Store.get_set_same]
    · rw [hpinned.inReset_eq]
      exact inReset_or_members _ _ hm
  · intro n c s halive hsent h
    rw [exec_swatchResetRequest_of_sent halive hsent, if_pos h]
    rfl
  · intro g s hs hcast halive hphase
    have hget := State.get_regs_reloadRegs (s := s.setGroupPhase g .cleared) (l := groupMembers g) hs.regs hcast
    refine ⟨(s.setGroupPhase g .cleared).reloadRegs (groupMembers g), ?_,
      (State.groupPhase_setGroupPhase s g g .cleared).trans (if_pos rfl), fun a ha => ?_, fun a ha => ?_, fun a => ?_, rfl⟩
    · show execSwatchSramCleared g s = _
      simp [execSwatchSramCleared, halive, hphase]
    · simp only [State.rawReg, hget a, ha, Bool.false_eq_true, if_false]
      rfl
    · rw [hget a, if_pos ha]
      rfl
    · refine (Store.get_filter_key 0 (fun b => !(groupMembers g).contains (servedBy b)) s.shadow a).trans ?_
      cases (groupMembers g).contains (servedBy a) <;> simp
  · intro g s halive hphase hkept
    have hpinned := s.releaseGroup_pinned g
    refine ⟨s.releaseGroup g, ?_, ?_, fun n hn => ?_, hpinned.pins⟩
    · rw [exec_swatchResetRelease_of_cleared halive hphase, if_pos hkept]
    · rw [hpinned.groupPhase, Store.get_set_same]
    · rw [hpinned.inReset_eq]
      exact inReset_without_members _ _ hn
  · intro g s halive hphase hkept h6 h7
    have hpinned := State.finishRestore_pinned h6 h7 s.pinned_self
    refine ⟨s.finishRestore g, exec_swatchRestoreDone_of_restoring halive hphase hkept, ?_, hpinned.inReset, hpinned.pins⟩
    rw [hpinned.groupPhase, Store.get_set_same]
  · intro g s halive hphase hkept h6 h7
    have hpinned := State.finishRestore_pinned h6 h7 (s.releaseGroup_pinned g)
    refine ⟨(s.releaseGroup g).finishRestore g, ?_, ?_, fun n hn => ?_, hpinned.pins⟩
    · rw [exec_swatchResetRelease_of_cleared halive hphase, if_neg (by simp [hkept])]
    · rw [hpinned.groupPhase, Store.get_set_same]
    · rw [hpinned.inReset_eq]
      exact inReset_without_members _ _ hn
  · intro g s halive hphase hkept hcore
    have hpinned := State.finishRestore_core_pinned hcore s.pinned_self
    refine ⟨s.finishRestore g, exec_swatchRestoreDone_of_restoring halive hphase hkept, ?_, hpinned.inReset, hpinned.pins⟩
    rw [hpinned.groupPhase]
    split
    · exact hphase
    · rw [Store.get_set_same]
  · intro n c s hs halive hsent hlocked h8 hreset
    have hactive : s.resets.active = none := by
      simp only [State.alive, Bool.and_eq_true, Option.isNone_iff_eq_none] at halive
      exact halive.1.1.1
    have hkept : ((s.takeRequest n c).recordReset n c).Canonical :=
      (State.recordReset_kept (State.takeRequest_kept hs.kept)).canonical trivial
    obtain ⟨hswatch, hcause, hcount, hregs⟩ := (s.takeRequest n c).recordReset_spec n c
    refine ⟨(s.takeRequest n c).recordReset n c, _, ?_, State.beginWarm_warmBegun hkept hactive 6 0, hswatch, hcause, hcount, hregs, rfl⟩
    rw [exec_swatchResetRequest_of_sent halive hsent, if_neg (by simp [h8, hlocked, hreset]), if_pos h8]
  · intro data d s htaken h
    rw [exec_swReset_of_taken htaken]
    split
    · rfl
    · next hnot =>
      have hunlocked : s.flag fld_SYS_LOCK_LOCKED = false := by
        rcases h with h | h | h
        · omega
        · exact absurd (Or.inr h) hnot
        · exact h
      simp [State.askReset, hunlocked]

end Sys2Proof.Machine
end

section
/-!
PROOF. The reads of the two windows (R122, R557), and what a fuse array that failed its check hides while fuses are blown and sensed (R109, R111).
-/
-- One thread elaborates the file, as in Laws/: each further one takes a stack of its own.
set_option Elab.async false
open Sys2Proof

namespace Sys2Proof.Machine

/-! ### Fields -/

/-- A field that shares no bit with the one written reads as before. -/
theorem State.fld_setFld_disjoint (s : State) {f g : Fld} (v : Nat)
    (h : g.addr ≠ f.addr ∨ f.lo + f.width ≤ g.lo ∨ g.lo + g.width ≤ f.lo) : (s.setFld f v).fld g = s.fld g :=
  h.elim (s.fld_setFld_other f g v) (s.fld_setFld_apart f g v)

theorem State.flag_setFld_disjoint (s : State) {f g : Fld} (v : Nat)
    (h : g.addr ≠ f.addr ∨ f.lo + f.width ≤ g.lo ∨ g.lo + g.width ≤ f.lo) : (s.setFld f v).flag g = s.flag g := by
  rw [State.flag, State.flag, s.fld_setFld_disjoint v h]

/-- A flag reads the register file, and whether FUSE fields are hidden. -/
theorem State.flag_congr {s t : State} (hregs : t.regs = s.regs) (herr : t.cast.fuseErr = s.cast.fuseErr) (f : Fld) : t.flag f = s.flag f := by
  rw [State.flag, State.flag, State.fld_congr hregs herr]

/-- A value that fits a field reads back. -/
theorem State.fld_setFld_fits (s : State) {f : Fld} {v : Nat} (hw : f.lo + f.width ≤ 32)
    (hf : maskAt f.addr (·.keeps == .fuse) &&& f.mask = 0) (hv : v < 2 ^ f.width) : (s.setFld f v).fld f = v :=
  (s.fld_setFld_same f v hw hf).trans (Nat.mod_eq_of_lt hv)

theorem State.fld_addSat_same (s : State) {f : Fld} (k : Nat) (hw : f.lo + f.width ≤ 32)
    (hf : maskAt f.addr (·.keeps == .fuse) &&& f.mask = 0) : (s.addSat f k).fld f = min (2 ^ f.width - 1) (s.fld f + k) :=
  s.fld_setFld_fits hw hf (by have := Nat.two_pow_pos f.width; omega)

/-- Settles O10: each read answers the word selected, and its address field wraps at its width. -/
theorem windowReadsAdvance : Obligations.WindowReadsAdvance := by
  refine ⟨fun port s hreach => ?_, fun port s hreach => ?_⟩
  · refine ⟨(s.answerWord s.attestWord).addWrap fld_ATTEST_WIN_ADDR_WORD 1, if_pos hreach, rfl, ?_, regsBut_addWrap (by simp) (regsBut_of_regs rfl), rfl⟩
    exact State.fld_setFld_same (s.answerWord s.attestWord) _ _ (by decide) (by decide +kernel)
  · refine ⟨_, if_pos hreach, rfl, ?_, regsBut_setFld (by simp) (regsBut_refl _ s), rfl⟩
    exact s.fld_setFld_same _ _ (by decide) (by decide +kernel)

/-! ### A fuse bit blown under a failed check -/

/-- A fuse bit being blown on a device whose fuse array failed its check, so that the counter it blows reads 0 (R111). -/
def State.untrustedBlow : State := { State.reset with cast := { State.reset.cast with fuseErr := true, fuses := [.rollback] } }

theorem State.untrustedBlow_counter : (State.untrustedBlow.readBack true).fld fld_ROLLBACK_COUNTER = 0 := by decide +kernel

theorem exec_fuseBitBlown_of_blowing {reads : Bool} {s : State} (halive : s.alive = true) (hheld : s.cast.fusesHeld = false) :
    exec (.fuseBitBlown reads) s = .next (s.readBack reads) := if_neg (by simp [halive, hheld])

/-- Refutes O13: a bit blown in ROLLBACK.COUNTER does not show where the fuse array failed its check, since FUSE fields then read 0. -/
theorem not_fusesBlownBitByBit : ¬ Obligations.FusesBlownBitByBit := by
  rintro ⟨-, -, -, hblown, -⟩
  obtain ⟨t, ht, -, -, -, hcount, -⟩ := hblown .rollback [] State.untrustedBlow (by decide) rfl rfl
  have hread : State.untrustedBlow.readBack true = t :=
    Host.Outcome.next.inj ((exec_fuseBitBlown_of_blowing (by decide) rfl).symm.trans ht)
  have hzero := State.untrustedBlow_counter
  rw [hread, hcount rfl] at hzero
  omega

/-! ### Fuse sensing under an earlier failed check -/

/-- A device whose keys are locked, at its fuse sensing, with the failed check of an earlier sensing still in force. -/
def State.distrusted : State :=
  { State.reset.setFlag fld_SEC_STATE_KEYS_LOCKED true with cast := { State.reset.cast with fuseErr := true } }

theorem exec_fuseSenseDone_of_sensing {ok : Bool} {raw : List Int} {s : State} (hat : s.castAt .fuseSense = true)
    (hcool : ¬ (s.countBoot.fld fld_RST_CAUSE_LAST = 7 ∧ s.countBoot.coolerThan 1600 raw = false)) :
    exec (.fuseSenseDone ok raw) s = .next (s.countBoot.sensed ok) := by
  show execFuseSenseDone ok raw s = _
  simp only [execFuseSenseDone, hat, Bool.true_eq_false, if_false, if_neg hcool]

theorem State.distrusted_keysLocked : State.distrusted.flag fld_SEC_STATE_KEYS_LOCKED = false := by decide +kernel

theorem State.distrusted_sensed_phase : (State.distrusted.countBoot.sensed true).phase = phaseCasting := by decide +kernel

/-- Refutes O20: KEYS_LOCKED reads 0 while an earlier failed check is in force, and a sensing that passes then finds it locked,
so the device enters CASTING where the clause for unlocked keys has PROVISION. -/
theorem not_fuseSensingEntersPhase : ¬ Obligations.FuseSensingEntersPhase := by
  intro h
  obtain ⟨-, hprovision, -⟩ := h [] State.distrusted (by decide)
  have hcause : State.distrusted.fld fld_RST_CAUSE_LAST ≠ 7 := by decide +kernel
  have hcounted : State.distrusted.countBoot.fld fld_RST_CAUSE_LAST ≠ 7 := by decide +kernel
  obtain ⟨t, ht, hphase, -⟩ := hprovision (fun e => absurd e hcause) State.distrusted_keysLocked
  have hsensed : State.distrusted.countBoot.sensed true = t :=
    Host.Outcome.next.inj ((exec_fuseSenseDone_of_sensing (by decide) (fun e => hcounted e.1)).symm.trans ht)
  have hcasting := State.distrusted_sensed_phase
  rw [hsensed, hphase] at hcasting
  exact absurd hcasting (by decide)

end Sys2Proof.Machine
end

section
/-!
PROOF. Attestation (R121), and what a bind-off accepted writes before running work is dropped (R93, R123).
-/
-- One thread elaborates the file, as in Laws/: each further one takes a stack of its own.
set_option Elab.async false
open Sys2Proof

namespace Sys2Proof.Machine

/-! ### Attestation -/

theorem State.attest_ignored {s : State} (h : s.flag fld_ATTEST_STATUS_BUSY = true ∨ s.cast.fuseErr = true) : s.attest = s := if_pos h

/-- A START that is ignored changes nothing, whether the write is taken or not. -/
theorem exec_attestStart_ignored {data : Word} {s : State} (h : s.flag fld_ATTEST_STATUS_BUSY = true ∨ s.cast.fuseErr = true) :
    exec (.attestStart data) s = .next s := by
  show execAttestStart data s = _
  unfold execAttestStart
  rw [State.attest_ignored h]
  split
  · split <;> rfl
  · rfl

/-- A START taken. -/
theorem exec_attestStart_of_taken {data d : Word} {s : State} (htaken : s.writeTaken reg_ATTEST_CTRL data = some d) (hstart : d.getLsbD 0 = true) :
    exec (.attestStart data) s = .next s.attest := by
  show execAttestStart data s = _
  simp only [execAttestStart, htaken, hstart, if_true]

/-- The state in which a report is complete. -/
def State.attested (s : State) : State :=
  let u := ((s.setFlag fld_ATTEST_STATUS_BUSY false).setFlag fld_ATTEST_STATUS_DONE true).addSat fld_ATTEST_STATUS_COUNT 1
  (u.setCast { u.cast with report := toWords 908 s.attestReport }).raiseIbi ibiAttest

theorem exec_attestDone_of_busy {s : State} (halive : s.alive = true) (hawake : s.dozing = false) (hbusy : s.flag fld_ATTEST_STATUS_BUSY = true) :
    exec .attestDone s = .next s.attested := if_neg (by simp [halive, hawake, hbusy])

/-- An interrupt is raised in its own register. -/
theorem State.fld_raiseIbi_other (s : State) (c : Nat) {f : Fld} (h : f.addr ≠ fld_I3C_IBI_PEND_PEND.addr) : (s.raiseIbi c).fld f = s.fld f :=
  s.fld_setFld_other _ f _ h

/-- Its bit of IBI_PEND is then set. -/
theorem State.pend_raiseIbi (s : State) {c : Nat} (h : c - 1 < fld_I3C_IBI_PEND_PEND.width) : bit ((s.raiseIbi c).fld fld_I3C_IBI_PEND_PEND) (c - 1) = true := by
  rw [State.raiseIbi, State.fld_setFld_same _ _ _ (by decide) (by decide +kernel), bit_mod_two_pow _ h, bit_lor_two_pow]

/-- The attestation registers once the report is complete. -/
theorem State.attested_status (s : State) : s.attested.flag fld_ATTEST_STATUS_BUSY = false ∧ s.attested.flag fld_ATTEST_STATUS_DONE = true ∧
    s.attested.fld fld_ATTEST_STATUS_COUNT = min 65535 (s.fld fld_ATTEST_STATUS_COUNT + 1) := by
  let idle := s.setFlag fld_ATTEST_STATUS_BUSY false
  let done := idle.setFlag fld_ATTEST_STATUS_DONE true
  have hstatus : ∀ f : Fld, f.addr ≠ fld_I3C_IBI_PEND_PEND.addr → s.attested.fld f = (done.addSat fld_ATTEST_STATUS_COUNT 1).fld f :=
    fun f hf => State.fld_raiseIbi_other _ _ hf
  have hidle : idle.flag fld_ATTEST_STATUS_BUSY = false := s.flag_setFlag_same _ _ (by decide) rfl (by decide +kernel)
  have hdone : done.flag fld_ATTEST_STATUS_DONE = true := idle.flag_setFlag_same _ _ (by decide) rfl (by decide +kernel)
  refine ⟨?_, ?_, ?_⟩
  · rw [State.flag, hstatus _ (by decide), State.addSat, State.fld_setFld_disjoint _ _ (by decide)]
    exact (idle.flag_setFld_disjoint _ (by decide)).trans hidle
  · rw [State.flag, hstatus _ (by decide), State.addSat, State.fld_setFld_disjoint _ _ (by decide)]
    exact hdone
  · rw [hstatus _ (by decide), State.fld_addSat_same _ _ (by decide) (by decide +kernel)]
    have hcount : done.fld fld_ATTEST_STATUS_COUNT = s.fld fld_ATTEST_STATUS_COUNT :=
      (idle.fld_setFld_disjoint _ (by decide)).trans (s.fld_setFld_disjoint _ (by decide))
    rw [hcount]
    rfl

/-- Settles O14: by the two ways a START goes, and by what a completed report writes. -/
theorem attestationLatchesAndReports : Obligations.AttestationLatchesAndReports := by
  refine ⟨?_, ?_, ?_, ?_, ?_⟩
  · intro data d s htaken hstart hfuse hbusy
    have hattest : s.attest = (s.setFlag fld_ATTEST_STATUS_BUSY true).setCast
        { s.cast with nonce := (List.range 8).flatMap (fun i => wordBytes (s.reg (reg_ATTEST_NONCE i))) } := if_neg (by simp [hbusy, hfuse])
    refine ⟨s.attest, exec_attestStart_of_taken htaken hstart, ?_⟩
    rw [hattest]
    exact ⟨s.flag_setFlag_same _ _ (by decide) rfl (by decide +kernel), rfl, regsBut_setFlag (by simp) (regsBut_refl _ s), rfl⟩
  · exact fun data s hbusy => exec_attestStart_ignored (.inl hbusy)
  · intro s halive hawake hbusy
    obtain ⟨hidle, hdone, hcount⟩ := s.attested_status
    refine ⟨s.attested, exec_attestDone_of_busy halive hawake hbusy, hidle, hdone, hcount, State.pend_raiseIbi _ (by decide), rfl, ?_, rfl⟩
    exact regsBut_setFld (by simp) (regsBut_addSat (by simp) (regsBut_setFlag (by simp) (regsBut_setFlag (by simp) (regsBut_refl _ s))))
  · exact fun data s hfuse => exec_attestStart_ignored (.inr hfuse)
  · exact fun s hdozing => if_pos (.inr (.inl hdozing))

/-! ### Phases -/

theorem State.phase_setPhase (s : State) {p : Nat} (hp : p < 8) : (s.setPhase p).phase = p :=
  s.fld_setFld_fits (f := fld_SEC_STATE_PHASE) (by decide) (by decide +kernel) hp

theorem State.fld_setPhase_other (s : State) (p : Nat) {f : Fld} (h : f.addr ≠ fld_SEC_STATE_PHASE.addr) : (s.setPhase p).fld f = s.fld f :=
  s.fld_setFld_other _ f _ h

theorem regsBut_setPhase {l : List Fld} {s t : State} {p : Nat} (m : fld_SEC_STATE_PHASE ∈ l) (h : RegsBut l s t) : RegsBut l s (t.setPhase p) :=
  regsBut_setFld m h

/-! ### Bind-off -/

/-- Bind-off accepted, before running work is dropped. -/
def State.acceptBindOff (s : State) (hibernate : Bool) : State :=
  { s.setPhase phaseBindOff with
    power := { s.power with transition := if hibernate then some (.entry .hibernate) else none, heldWake := none, hibernateNext := hibernate } }

theorem State.beginBindOff_eq (s : State) (hibernate : Bool) :
    s.beginBindOff hibernate = ((s.acceptBindOff hibernate).setFlag fld_PWR_STATUS_CHANGING hibernate).dropForBind := rfl

/-- Dropping the running work leaves the pins, the power state and the swatches in reset as they are. -/
theorem State.beginBindOff_pinned (s : State) (hibernate : Bool) : (s.beginBindOff hibernate).Pinned
    ({ s.pins with devReady := false }, (s.acceptBindOff hibernate).power) (s.sw.inReset, s.sw.phase) :=
  State.dropForBind_pinned (State.setFlag_pinned ⟨rfl, rfl, rfl, rfl⟩)

theorem exec_bindOffRequest_of_taken {data d : Word} {s : State} (htaken : s.writeTaken reg_BIND_OFF_CTRL data = some d) (hask : d.getLsbD 0 = true)
    (hphase : s.phase = phaseRunning) : exec (.bindOffRequest data) s = .next (s.beginBindOff false) := by
  show execBindOffRequest data s = _
  simp only [execBindOffRequest, htaken, hask, hphase, and_self, if_true]

end Sys2Proof.Machine
end

section
/-!
PROOF. Requests for a power state: what each asks for, by the transition under way (R124, R526, R527, R530).
-/
-- One thread elaborates the file, as in Laws/: each further one takes a stack of its own.
set_option Elab.async false
open Sys2Proof

namespace Sys2Proof.Machine

/-! ### What a request asks for -/

theorem State.writePowerRequest_of_taken {data d : Word} {s : State} {code : Nat} (htaken : s.writeTaken reg_PWR_REQ data = some d)
    (hcode : d.toNat % 4 = code) : s.writePowerRequest data = s.powerRequest (powerStateOf code) := by
  simp only [State.writePowerRequest, htaken, hcode]

theorem State.writePowerRequest_refused {data : Word} {s : State} (h : s.writeTaken reg_PWR_REQ data = none) : s.writePowerRequest data = s := by
  simp only [State.writePowerRequest, h]

theorem State.powerRequest_idle {s : State} (h : s.power.transition = none) (t : PowerState) : s.powerRequest t =
    if t = .hibernate then s.askHibernate else if s.phase ≠ phaseRunning then s
    else if s.powerCode < t.depth then s.beginEntry t else s.beginWake t := by
  simp only [State.powerRequest, h]

/-- During a wake every request is ignored (R530). -/
theorem State.powerRequest_waking {s : State} {w : PowerState} (h : s.power.transition = some (.wake w)) (t : PowerState) : s.powerRequest t = s := by
  simp only [State.powerRequest, h]

theorem State.writePowerRequest_waking {s : State} {w : PowerState} (h : s.power.transition = some (.wake w)) (data : Word) :
    s.writePowerRequest data = s := by
  unfold State.writePowerRequest
  split
  · exact State.powerRequest_waking h _
  · rfl

/-- During an entry a request for a shallower state, RUN or DOZE, is held as a wake: the first one stands. -/
theorem State.powerRequest_entering {s : State} {e t : PowerState} (h : s.power.transition = some (.entry e)) (hdepth : t.depth < e.depth)
    (ht : t.depth ≤ 1) : s.powerRequest t = { s with power := { s.power with heldWake := some (s.power.heldWake.getD t) } } := by
  simp only [State.powerRequest, h, if_pos (And.intro hdepth ht), State.wakeEvent]
  rfl

/-! ### Entries and wakes begin -/

/-- The power state as an entry begins: the wake settings are those of the registers. -/
def State.enteringPower (s : State) (t : PowerState) : Power :=
  { s.power with transition := some (.entry t), wakeTin0 := s.flag fld_PWR_WAKE_TIN0_EN, wakeFalling := s.flag fld_PWR_WAKE_TIN0_EDGE,
                 wakeTime := s.askedWakeTime, wakeSleep := s.fld fld_PWR_WAKE_SLEEP_S }

/-- CHANGING shows a transition. -/
theorem State.changing_setTransition (s : State) (t : Option Transition) : (s.setTransition t).flag fld_PWR_STATUS_CHANGING = t.isSome :=
  s.flag_setFlag_same _ _ (by decide) rfl (by decide +kernel)

theorem regsBut_setTransition {l : List Fld} {s t : State} {x : Option Transition} (m : fld_PWR_STATUS_CHANGING ∈ l) (h : RegsBut l s t) :
    RegsBut l s (t.setTransition x) := regsBut_setFlag m h

/-- From RUN an entry drops running work, which leaves the pins, the power state and the swatches in reset. -/
theorem State.beginEntry_pinned {s : State} (h : s.powerCode = 0) (t : PowerState) :
    (s.beginEntry t).Pinned (s.pins, s.enteringPower t) (s.sw.inReset, s.sw.phase) := by
  rw [show s.beginEntry t = (s.latchWake.setTransition (some (.entry t))).dropForDoze from if_pos h]
  exact State.dropForDoze_pinned ⟨rfl, rfl, rfl, rfl⟩

/-- From DOZE the entry to NAP goes on: the wake settings and CHANGING alone change. -/
theorem State.beginEntry_deeper {s : State} (h : s.powerCode ≠ 0) (t : PowerState) :
    s.beginEntry t = s.latchWake.setTransition (some (.entry t)) := if_neg h

theorem State.beginWake_deeper {s : State} {t : PowerState} (h : t.depth < s.powerCode) :
    s.beginWake t = (s.setTransition (some (.wake t))).setPower { (s.setTransition (some (.wake t))).power with heldWake := none } := if_pos h

theorem State.beginWake_held {s : State} {t : PowerState} (h : s.powerCode ≤ t.depth) : s.beginWake t = s := if_neg (by omega)

/-- In RUN a deeper state is asked for. -/
theorem State.powerRequest_deeper {s : State} {t : PowerState} (hidle : s.power.transition = none) (hphase : s.phase = phaseRunning)
    (ht : t ≠ .hibernate) (h : s.powerCode < t.depth) : s.powerRequest t = s.beginEntry t := by
  rw [State.powerRequest_idle hidle, if_neg ht, if_neg (not_not_intro hphase), if_pos h]

theorem State.powerRequest_shallower {s : State} {t : PowerState} (hidle : s.power.transition = none) (hphase : s.phase = phaseRunning)
    (ht : t ≠ .hibernate) (h : t.depth ≤ s.powerCode) : s.powerRequest t = s.beginWake t := by
  rw [State.powerRequest_idle hidle, if_neg ht, if_neg (not_not_intro hphase), if_neg (by omega)]

/-- RUN, DOZE and NAP are asked for in RUNNING alone; the state that holds asks for nothing. -/
theorem State.powerRequest_ignored {s : State} {t : PowerState} (hidle : s.power.transition = none) (ht : t ≠ .hibernate)
    (h : s.phase ≠ phaseRunning ∨ s.powerCode = t.depth) : s.powerRequest t = s := by
  rcases Classical.em (s.phase = phaseRunning) with hphase | hphase
  · have hdepth : s.powerCode = t.depth := h.resolve_left (not_not_intro hphase)
    rw [State.powerRequest_shallower hidle hphase ht (by omega), State.beginWake_held (by omega)]
  · rw [State.powerRequest_idle hidle, if_neg ht, if_pos hphase]

/-- A wake begun. -/
theorem State.beginWake_spec {s : State} {t : PowerState} (h : t.depth < s.powerCode) :
    (s.beginWake t).flag fld_PWR_STATUS_CHANGING = true ∧ RegsBut [fld_PWR_STATUS_CHANGING] s (s.beginWake t) ∧
      s.beginWake t = { s with regs := (s.beginWake t).regs, power := { s.power with transition := some (.wake t), heldWake := none } } := by
  rw [State.beginWake_deeper h]
  exact ⟨s.changing_setTransition (some (.wake t)), regsBut_setTransition (by simp) (regsBut_refl _ s), rfl⟩

/-- An entry asked for in RUN. -/
theorem State.powerRequest_entry {data d : Word} {s : State} {code : Nat} (htaken : s.writeTaken reg_PWR_REQ data = some d)
    (hcode : d.toNat % 4 = code) (hphase : s.phase = phaseRunning) (hrun : s.powerCode = 0) (hidle : s.power.transition = none)
    (ht : powerStateOf code ≠ .hibernate) (hdeep : 0 < (powerStateOf code).depth) :
    ∃ t, s.writePowerRequest data = t ∧ t.power = s.enteringPower (powerStateOf code) ∧ t.pins = s.pins ∧ t.sw.inReset = s.sw.inReset := by
  have hpinned := State.beginEntry_pinned hrun (powerStateOf code)
  refine ⟨_, ?_, hpinned.power, hpinned.pins, hpinned.inReset⟩
  rw [State.writePowerRequest_of_taken htaken hcode, State.powerRequest_deeper hidle hphase ht (by omega)]

/-! ### The four commands, which the written word tells apart -/

theorem exec_pwrReqRun {data : Word} {s t : State} (h : s.writePowerRequest data = t) : exec (.pwrReqRun data) s = .next t :=
  congrArg Host.Outcome.next h

theorem exec_pwrReqDoze {data : Word} {s t : State} (h : s.writePowerRequest data = t) : exec (.pwrReqDoze data) s = .next t :=
  congrArg Host.Outcome.next h

theorem exec_pwrReqNap {data : Word} {s t : State} (h : s.writePowerRequest data = t) : exec (.pwrReqNap data) s = .next t :=
  congrArg Host.Outcome.next h

theorem exec_pwrReqHibernate {data : Word} {s t : State} (h : s.writePowerRequest data = t) : exec (.pwrReqHibernate data) s = .next t :=
  congrArg Host.Outcome.next h

/-- Settles O29: by the transition under way, and by the phase and the depth of the state that holds. -/
theorem powerRequestsBeginTransitions : Obligations.PowerRequestsBeginTransitions := by
  refine ⟨?_, ?_, ?_, ?_, ?_, ?_, ?_, ?_, ?_, ?_, ?_, ?_⟩
  · intro data d s htaken hcode hphase hrun hidle
    obtain ⟨t, ht, hspec⟩ := State.powerRequest_entry htaken hcode hphase hrun hidle (by decide) (by decide)
    exact ⟨t, exec_pwrReqDoze ht, hspec⟩
  · intro data d s htaken hcode hphase hrun hidle
    obtain ⟨t, ht, hspec⟩ := State.powerRequest_entry htaken hcode hphase hrun hidle (by decide) (by decide)
    exact ⟨t, exec_pwrReqNap ht, hspec⟩
  · intro data d s htaken hcode hphase hdeep hidle
    have hshallow : PowerState.run.depth < s.powerCode := hdeep
    obtain ⟨hchanging, hregs, hframe⟩ := State.beginWake_spec hshallow
    refine ⟨s.beginWake .run, exec_pwrReqRun ?_, by rw [hframe], hchanging, hregs, hframe⟩
    rw [State.writePowerRequest_of_taken htaken hcode]
    exact State.powerRequest_shallower hidle hphase (by decide) (Nat.le_of_lt hshallow)
  · intro data d s htaken hcode hphase hidle
    refine ⟨s.latchWake.setTransition (some (.entry .hibernate)), exec_pwrReqHibernate ?_, rfl, State.changing_setTransition _ _,
      regsBut_setTransition (by simp) (regsBut_of_regs rfl), rfl⟩
    rw [State.writePowerRequest_of_taken htaken hcode, State.powerRequest_idle hidle, if_pos (by rfl), State.askHibernate,
      if_neg (by rw [hphase]; decide), if_pos hphase]
  · intro data d s htaken hcode hphase hidle
    have hpinned := s.latchWake.beginBindOff_pinned true
    refine ⟨s.latchWake.beginBindOff true, exec_pwrReqHibernate ?_, by rw [hpinned.power]; rfl, by rw [hpinned.power]; rfl, by rw [hpinned.pins]⟩
    rw [State.writePowerRequest_of_taken htaken hcode, State.powerRequest_idle hidle, if_pos (by rfl), State.askHibernate, if_pos hphase]
  · intro data w s hwaking
    have hsame := State.writePowerRequest_waking hwaking data
    exact ⟨exec_pwrReqDoze hsame, exec_pwrReqRun hsame, exec_pwrReqNap hsame, exec_pwrReqHibernate hsame⟩
  · intro data d s htaken hcode hphase hdoze hidle
    refine ⟨s.latchWake.setTransition (some (.entry .nap)), exec_pwrReqNap ?_, State.changing_setTransition _ _,
      regsBut_setTransition (by simp) (regsBut_of_regs rfl), rfl⟩
    rw [State.writePowerRequest_of_taken htaken hcode]
    have hdeeper : s.powerCode < (powerStateOf 2).depth := by rw [hdoze]; decide
    rw [State.powerRequest_deeper hidle hphase (by decide) hdeeper, State.beginEntry_deeper (by omega)]
    rfl
  · intro data d s htaken hcode hphase hnap hidle
    have hshallow : PowerState.doze.depth < s.powerCode := by rw [hnap]; decide
    obtain ⟨hchanging, hregs, hframe⟩ := State.beginWake_spec hshallow
    refine ⟨s.beginWake .doze, exec_pwrReqDoze ?_, hchanging, hregs, hframe⟩
    rw [State.writePowerRequest_of_taken htaken hcode]
    exact State.powerRequest_shallower hidle hphase (by decide) (Nat.le_of_lt hshallow)
  · intro data d e s htaken hentry he hcode
    have hdepth : PowerState.run.depth < e.depth := by cases e with
      | run => contradiction
      | doze | nap | hibernate => decide
    exact exec_pwrReqRun ((State.writePowerRequest_of_taken htaken hcode).trans (State.powerRequest_entering hentry hdepth (by decide)))
  · intro data d e s htaken hentry he hcode
    have hdepth : PowerState.doze.depth < e.depth := by rcases he with rfl | rfl <;> decide
    exact exec_pwrReqDoze ((State.writePowerRequest_of_taken htaken hcode).trans (State.powerRequest_entering hentry hdepth (by decide)))
  · intro data d s htaken hidle
    refine ⟨fun hcode h => exec_pwrReqRun ?_, fun hcode h => exec_pwrReqDoze ?_, fun hcode h => exec_pwrReqNap ?_,
      fun hcode hrunning hbound => exec_pwrReqHibernate ?_⟩
    · exact (State.writePowerRequest_of_taken htaken hcode).trans (State.powerRequest_ignored (t := .run) hidle (by decide) h)
    · exact (State.writePowerRequest_of_taken htaken hcode).trans (State.powerRequest_ignored (t := .doze) hidle (by decide) h)
    · exact (State.writePowerRequest_of_taken htaken hcode).trans (State.powerRequest_ignored (t := .nap) hidle (by decide) h)
    · rw [State.writePowerRequest_of_taken htaken hcode, State.powerRequest_idle hidle, if_pos (by rfl), State.askHibernate,
        if_neg hrunning, if_neg hbound]
  · intro data s hrefused
    have hsame := State.writePowerRequest_refused hrefused
    exact ⟨exec_pwrReqDoze hsame, exec_pwrReqRun hsame, exec_pwrReqNap hsame, exec_pwrReqHibernate hsame⟩

end Sys2Proof.Machine
end

section
/-!
PROOF. The clocks of cast-on, the flash, and the two ways a device enters FAILED (R103, R110, R111, R135, R506).
-/
-- One thread elaborates the file, as in Laws/: each further one takes a stack of its own.
set_option Elab.async false
open Sys2Proof

namespace Sys2Proof.Machine

/-! ### Results -/

/-- Both results stand in CASTON_STATUS, in which no fuse is shown. -/
theorem resultField_fits (b : Bool) : (resultField b).addr = fld_CASTON_STATUS_RESULT_A.addr ∧ (resultField b).lo + (resultField b).width ≤ 32 ∧
    maskAt (resultField b).addr (·.keeps == .fuse) &&& (resultField b).mask = 0 := by
  cases b <;> decide +kernel

theorem State.fld_setResult_same (s : State) (b : Bool) (code : Nat) :
    (s.setFld (resultField b) code).fld (resultField b) = code % 2 ^ (resultField b).width :=
  s.fld_setFld_same _ _ (resultField_fits b).2.1 (resultField_fits b).2.2

/-- A slot's result leaves the other's. -/
theorem State.fld_setResult_not (s : State) (b : Bool) (code : Nat) :
    (s.setFld (resultField (!b)) code).fld (resultField b) = s.fld (resultField b) := by
  cases b <;> exact s.fld_setFld_disjoint _ (by decide)

theorem State.fld_bothResults (s : State) (b : Bool) (code : Nat) :
    (s.bothResults code).fld (resultField b) = code % 2 ^ (resultField b).width := by
  cases b with
  | false => exact (State.fld_setResult_not _ false _).trans (s.fld_setResult_same false _)
  | true => exact State.fld_setResult_same _ true _

/-! ### Entry to FAILED -/

theorem State.phase_timeFailed (s : State) : s.timeFailed.phase = s.phase :=
  State.fld_setFld_other { s with fresh := s.fresh + 1 } fld_CASTON_TIME_US fld_SEC_STATE_PHASE _ (by decide)

/-- FAILED is entered with DEV_READY low, the flash port released and nothing more to cast on. -/
theorem State.enterFailed_frame (s : State) : s.enterFailed =
    { s with regs := s.enterFailed.regs, fresh := s.fresh + 1, pins := { s.pins with devReady := false },
             links := { s.links with ospiDriven := false }, cast := { s.cast with step := .stopped, slot := none, skein := none } } := rfl

theorem State.phase_enterFailed (s : State) : s.enterFailed.phase = phaseFailed :=
  (s.setPhase phaseFailed).phase_timeFailed.trans (s.phase_setPhase (by decide))

theorem State.fld_enterFailed_other (s : State) {f : Fld} (hphase : f.addr ≠ fld_SEC_STATE_PHASE.addr) (htime : f.addr ≠ fld_CASTON_TIME_US.addr) :
    s.enterFailed.fld f = s.fld f :=
  (State.fld_setFld_other { s.setPhase phaseFailed with fresh := s.fresh + 1 } fld_CASTON_TIME_US f _ htime).trans (s.fld_setPhase_other _ hphase)

theorem regsBut_enterFailed {l : List Fld} {s t : State} (hphase : fld_SEC_STATE_PHASE ∈ l) (htime : fld_CASTON_TIME_US ∈ l) (h : RegsBut l s t) :
    RegsBut l s t.enterFailed := regsBut_setFld htime (regsBut_setPhase hphase h)

theorem State.result_enterFailed (s : State) (b : Bool) : s.enterFailed.fld (resultField b) = s.fld (resultField b) :=
  s.fld_enterFailed_other (by rw [(resultField_fits b).1]; decide) (by rw [(resultField_fits b).1]; decide)

/-- A flash that fails before the headers are read fails both slots. -/
theorem State.failBoth_spec (s : State) : s.failBoth.phase = phaseFailed ∧ s.failBoth.cast.step = .stopped ∧ s.failBoth.links.ospiDriven = false ∧
    s.failBoth.fld fld_CASTON_STATUS_RESULT_A = castFlashIo ∧ s.failBoth.fld fld_CASTON_STATUS_RESULT_B = castFlashIo ∧
    RegsBut [fld_CASTON_STATUS_RESULT_A, fld_CASTON_STATUS_RESULT_B, fld_SEC_STATE_PHASE, fld_CASTON_TIME_US] s s.failBoth := by
  have hresult : ∀ b, s.failBoth.fld (resultField b) = castFlashIo % 2 ^ (resultField b).width :=
    fun b => (State.result_enterFailed _ b).trans (s.fld_bothResults b castFlashIo)
  exact ⟨State.phase_enterFailed _, rfl, rfl, hresult false, hresult true,
    regsBut_enterFailed (by simp) (by simp) (regsBut_setFld (by simp [resultField]) (regsBut_setFld (by simp [resultField]) (regsBut_refl _ s)))⟩

/-! ### The clocks -/

theorem exec_pllSysLocked_of_at {s : State} (h : s.castAt .pllSys = true) : exec .pllSysLocked s = .next
    { (s.setFld fld_PLL_STATUS_LOCK (Nat.lor (s.fld fld_PLL_STATUS_LOCK) 1)).setCast { s.cast with step := .pllIoTime } with
      sw := { s.sw with sysOnRefclk := false } } := if_neg (by simp [h])

/-- A PLL's bit joins those of LOCK, which is four bits wide. -/
theorem State.lock_setFld_lor (s : State) {k : Nat} (hk : k < 16) :
    (s.setFld fld_PLL_STATUS_LOCK (Nat.lor (s.fld fld_PLL_STATUS_LOCK) k)).fld fld_PLL_STATUS_LOCK = Nat.lor (s.fld fld_PLL_STATUS_LOCK) k :=
  s.fld_setFld_fits (by decide) (by decide +kernel) (Nat.or_lt_two_pow (s.fld_lt fld_PLL_STATUS_LOCK) hk)

/-- The clocks of IO and TIME locked: the step is armed, and cast-on goes on in CASTING alone. -/
def State.clocked (s : State) (step : CastStep) : State :=
  State.setCast ((s.setFld fld_PLL_STATUS_LOCK (Nat.lor (s.fld fld_PLL_STATUS_LOCK) 0xC)).setFlag fld_TIME_STATUS_STEP_ARMED true)
    { s.cast with step := step }

/-- Device time begins at 0. -/
def State.startTime (s : State) : State := { s with time := { s.time with running := true, ticks := 0, eras := [], now := 0 } }.openEra

theorem exec_pllIoTimeLocked_of_at {s : State} (h : s.castAt .pllIoTime = true) :
    exec .pllIoTimeLocked s = .next (s.clocked (if s.phase = phaseCasting then .flashMode else .stopped)).startTime := by
  have hphase : (s.setFld fld_PLL_STATUS_LOCK (Nat.lor (s.fld fld_PLL_STATUS_LOCK) 0xC)).phase = s.phase := State.fld_setFld_other _ _ _ _ (by decide)
  rw [← hphase]
  exact if_neg (by simp [h])

/-- What the start of device time shows, whatever cast-on does next. -/
theorem State.clocked_spec (s : State) (step : CastStep) : (s.clocked step).startTime.fld fld_PLL_STATUS_LOCK = Nat.lor (s.fld fld_PLL_STATUS_LOCK) 0xC ∧
    (s.clocked step).startTime.flag fld_TIME_STATUS_STEP_ARMED = true ∧
    RegsBut [fld_PLL_STATUS_LOCK, fld_TIME_STATUS_STEP_ARMED] s (s.clocked step).startTime := by
  let locked := s.setFld fld_PLL_STATUS_LOCK (Nat.lor (s.fld fld_PLL_STATUS_LOCK) 0xC)
  have hfld : ∀ f, (s.clocked step).startTime.fld f = (locked.setFlag fld_TIME_STATUS_STEP_ARMED true).fld f := State.fld_congr rfl rfl
  have harmed : (locked.setFlag fld_TIME_STATUS_STEP_ARMED true).flag fld_TIME_STATUS_STEP_ARMED = true :=
    locked.flag_setFlag_same _ _ (by decide) rfl (by decide +kernel)
  refine ⟨?_, ?_, ?_⟩
  · rw [hfld, State.setFlag, State.fld_setFld_other _ _ _ _ (by decide)]
    exact s.lock_setFld_lor (by decide)
  · rw [State.flag, hfld]
    exact harmed
  · exact regsBut_setFlag (by simp) (regsBut_setFld (by simp) (regsBut_refl _ s))

/-! ### The flash -/

theorem exec_flashModeReady_of_at {density : Nat} {ok : Bool} {s : State} (h : s.castAt .flashMode = true) : exec (.flashModeReady density ok) s =
    .next (if ok then s.setCast { s.cast with flashDensity := density, step := .headers } else s.failBoth) := by
  show execFlashModeReady density ok s = _
  cases ok <;> simp [execFlashModeReady, h]

/-- Settles O21: by what the lock of each clock shows, and by what a flash that fails leaves. -/
theorem castOnStartsClocksAndFlash : Obligations.CastOnStartsClocksAndFlash := by
  refine ⟨?_, ?_, ?_, ?_, ?_, ?_⟩
  · intro s hat
    exact ⟨_, exec_pllSysLocked_of_at hat, s.lock_setFld_lor (by decide), rfl, rfl, regsBut_setFld (by simp) (regsBut_refl _ s), rfl⟩
  · intro s hat hphase
    obtain ⟨hlock, harmed, hregs⟩ := s.clocked_spec .flashMode
    refine ⟨(s.clocked .flashMode).startTime, ?_, hlock, rfl, rfl, harmed, rfl, hregs, rfl, rfl⟩
    rw [exec_pllIoTimeLocked_of_at hat, if_pos hphase]
  · exact fun density s hat => exec_flashModeReady_of_at hat
  · exact fun density s hat => ⟨s.failBoth, exec_flashModeReady_of_at hat, s.failBoth_spec⟩
  · exact fun s hat => ⟨s.failBoth, if_pos hat, s.failBoth_spec⟩
  · intro s hat hphase
    obtain ⟨hlock, harmed, hregs⟩ := s.clocked_spec .stopped
    refine ⟨(s.clocked .stopped).startTime, ?_, hlock, rfl, rfl, rfl, harmed, rfl, hregs⟩
    rw [exec_pllIoTimeLocked_of_at hat, if_neg hphase]

end Sys2Proof.Machine
end

section
/-!
PROOF. The choice of a slot, and what a slot that fails leaves (R102 to R104, R110, R112, R576).
-/
-- One thread elaborates the file, as in Laws/: each further one takes a stack of its own.
set_option Elab.async false
open Sys2Proof

namespace Sys2Proof.Machine

/-! ### The headers are judged -/

/-- The slot tried first, false A: the higher SEQUENCE of those plausible, slot A where they are equal. -/
def firstSlot (a b : List Byte) : Bool := plausible b && (!plausible a || decide (field a 0x0C 4 < field b 0x0C 4))

/-- CASTON_STATUS says which headers are plausible, and the slot tried first. -/
def State.showHeaders (s : State) (a b : List Byte) : State :=
  ((s.setFlag fld_CASTON_STATUS_PLAUSIBLE_A (plausible a)).setFlag fld_CASTON_STATUS_PLAUSIBLE_B (plausible b)).setFlag
    fld_CASTON_STATUS_FIRST (firstSlot a b)

/-- A header that is not plausible fails its slot. -/
def State.judgeHeader (s : State) (b : Bool) (head : List Byte) : State :=
  if plausible head then s else s.setFld (resultField b) castNoHeader

theorem State.cast_judgeHeader (s : State) (b : Bool) (head : List Byte) : (s.judgeHeader b head).cast = s.cast := by
  unfold State.judgeHeader
  split <;> rfl

/-- Both headers judged and kept. -/
def State.judgeHeaders (s : State) (a b : List Byte) : State :=
  (((s.showHeaders a b).judgeHeader false a).judgeHeader true b).setCast { s.cast with headA := a, headB := b }

theorem State.chooseSlot_eq (s : State) (a b : List Byte) : s.chooseSlot a b =
    if plausible a || plausible b then (s.judgeHeaders a b).trySlot (firstSlot a b) else (s.judgeHeaders a b).enterFailed := by
  have hcast : (((s.showHeaders a b).judgeHeader false a).judgeHeader true b).cast = s.cast := by
    rw [State.cast_judgeHeader, State.cast_judgeHeader]
    rfl
  unfold State.judgeHeaders
  rw [← hcast]
  rfl

theorem State.judgeHeader_plausible (s : State) (b : Bool) {head : List Byte} (h : plausible head = true) : s.judgeHeader b head = s := if_pos h

theorem State.fld_judgeHeader_same (s : State) (b : Bool) {head : List Byte} (h : plausible head = false) :
    (s.judgeHeader b head).fld (resultField b) = castNoHeader := by
  rw [State.judgeHeader, if_neg (by simp [h]), s.fld_setResult_same]
  cases b <;> rfl

theorem State.fld_judgeHeader_not (s : State) (b : Bool) (head : List Byte) :
    (s.judgeHeader (!b) head).fld (resultField b) = s.fld (resultField b) := by
  unfold State.judgeHeader
  split
  · rfl
  · exact s.fld_setResult_not b _

/-- The slot whose header is not plausible has NO_HEADER, whichever it is. -/
theorem State.result_judgeHeaders (s : State) (a b : List Byte) {slot : Bool} (h : plausible (if slot then b else a) = false) :
    (s.judgeHeaders a b).fld (resultField slot) = castNoHeader := by
  have hfld : (s.judgeHeaders a b).fld (resultField slot) = (((s.showHeaders a b).judgeHeader false a).judgeHeader true b).fld (resultField slot) :=
    State.fld_congr (State.setCast_regs _ _) (by rw [State.cast_judgeHeader, State.cast_judgeHeader]; rfl) _
  rw [hfld]
  cases slot with
  | false => exact (State.fld_judgeHeader_not _ false b).trans (State.fld_judgeHeader_same _ false h)
  | true => exact State.fld_judgeHeader_same _ true h

theorem State.showHeaders_spec (s : State) (a b : List Byte) : (s.showHeaders a b).flag fld_CASTON_STATUS_PLAUSIBLE_A = plausible a ∧
    (s.showHeaders a b).flag fld_CASTON_STATUS_PLAUSIBLE_B = plausible b ∧ (s.showHeaders a b).flag fld_CASTON_STATUS_FIRST = firstSlot a b ∧
    RegsBut [fld_CASTON_STATUS_PLAUSIBLE_A, fld_CASTON_STATUS_PLAUSIBLE_B, fld_CASTON_STATUS_FIRST] s (s.showHeaders a b) := by
  let u := s.setFlag fld_CASTON_STATUS_PLAUSIBLE_A (plausible a)
  let v := u.setFlag fld_CASTON_STATUS_PLAUSIBLE_B (plausible b)
  have ha : u.flag fld_CASTON_STATUS_PLAUSIBLE_A = plausible a := s.flag_setFlag_same _ _ (by decide) rfl (by decide +kernel)
  have hb : v.flag fld_CASTON_STATUS_PLAUSIBLE_B = plausible b := u.flag_setFlag_same _ _ (by decide) rfl (by decide +kernel)
  refine ⟨?_, (v.flag_setFld_disjoint _ (by decide)).trans hb, v.flag_setFlag_same _ _ (by decide) rfl (by decide +kernel), ?_⟩
  · exact (v.flag_setFld_disjoint _ (by decide)).trans ((u.flag_setFld_disjoint _ (by decide)).trans ha)
  · exact regsBut_setFlag (by simp) (regsBut_setFlag (by simp) (regsBut_setFlag (by simp) (regsBut_refl _ s)))

theorem exec_slotHeadersRead_of_at {a b : List Byte} {ok : Bool} {s : State} (h : s.castAt .headers = true) :
    exec (.slotHeadersRead a b ok) s = .next (if ok then s.chooseSlot a b else s.failBoth) := by
  show execSlotHeadersRead a b ok s = _
  cases ok <;> simp [execSlotHeadersRead, h]

/-! ### A slot fails -/

/-- A failure's place (R576, R577). -/
theorem State.recordFailure_frame (s : State) (b : Bool) (f : SlotFailure) : s.recordFailure b f = { s with regs := (s.recordFailure b f).regs } := by
  unfold State.recordFailure
  dsimp only
  split
  · rfl
  · split <;> rfl

/-- A failure writes the slot's result and, in their own registers, its place. -/
theorem State.fld_recordFailure (s : State) (b : Bool) (f : SlotFailure) {g : Fld} (hdetail : g.addr ≠ fld_CASTON_DETAIL_SLOT.addr)
    (hcap : g.addr ≠ fld_CASTON_CAP_FAIL_SLOT.addr) : (s.recordFailure b f).fld g = (s.setFld (resultField b) f.code).fld g := by
  unfold State.recordFailure
  dsimp only
  split
  · simp only [State.setFlag]
    rw [State.fld_setFld_other _ fld_CASTON_DETAIL_ENTRY _ _ hdetail, State.fld_setFld_other _ fld_CASTON_DETAIL_SECTION _ _ hdetail,
      State.fld_setFld_other _ fld_CASTON_DETAIL_VALID _ _ hdetail, State.fld_setFld_other _ fld_CASTON_DETAIL_SLOT _ _ hdetail]
  · split
    · simp only [State.setFlag]
      rw [State.fld_setFld_other _ fld_CASTON_CAP_FAIL_INDEX _ _ hcap, State.fld_setFld_other _ fld_CASTON_CAP_FAIL_PAIRED _ _ hcap,
        State.fld_setFld_other _ fld_CASTON_CAP_FAIL_VALID _ _ hcap, State.fld_setFld_other _ fld_CASTON_CAP_FAIL_SLOT _ _ hcap]
    · rfl

/-- A slot's staged settings, dropped, leave every register but those of MEM and of the PLLs. -/
theorem State.fld_dropStaged_other (s : State) {g : Fld} (hmem : g.addr ≠ fld_MEM_STATUS_TRAINED.addr)
    (hobj : g.addr ≠ fld_MEM_OBJ_STATUS_BULK_DROPPED.addr) (hpll : g.addr ≠ fld_PLL_STATUS_LOCK.addr) : s.dropStaged.fld g = s.fld g := by
  let u := (s.setFlag fld_MEM_STATUS_TRAINED false).setFld fld_MEM_OBJ_STATUS_BULK_DROPPED 0
  calc s.dropStaged.fld g = (u.setFld fld_PLL_STATUS_LOCK (u.fld fld_PLL_STATUS_LOCK &&& 0xD)).fld g := State.fld_congr rfl rfl g
    _ = u.fld g := u.fld_setFld_other _ _ _ hpll
    _ = (s.setFlag fld_MEM_STATUS_TRAINED false).fld g := State.fld_setFld_other _ _ _ _ hobj
    _ = s.fld g := s.fld_setFld_other _ _ _ hmem

/-- The state of a slot's failure, before the other is tried or FAILED entered. -/
def State.stripSlot (s : State) (b : Bool) (f : SlotFailure) : State := (s.recordFailure b f).dropStaged

/-- CASTON_STATUS but for the slot's result stays. -/
theorem State.fld_stripSlot (s : State) (b : Bool) (f : SlotFailure) {g : Fld} (h : g.addr = fld_CASTON_STATUS_RESULT_A.addr) :
    (s.stripSlot b f).fld g = (s.setFld (resultField b) f.code).fld g :=
  (State.fld_dropStaged_other _ (by rw [h]; decide) (by rw [h]; decide) (by rw [h]; decide)).trans
    (s.fld_recordFailure b f (by rw [h]; decide) (by rw [h]; decide))

theorem State.cast_stripSlot (s : State) (b : Bool) (f : SlotFailure) : (s.stripSlot b f).cast =
    { s.cast with skein := none, nextSection := 0, writes := [], grants := [], regsChecked := false, arithLocked := false, training := false,
                  trained := false } := by
  have hcast : (s.recordFailure b f).cast = s.cast := by rw [s.recordFailure_frame]
  rw [← hcast]
  rfl

/-- The other slot is plausible and untried. -/
def State.otherFree (s : State) (b : Bool) : Bool :=
  if b then s.flag fld_CASTON_STATUS_PLAUSIBLE_A && !s.cast.triedA else s.flag fld_CASTON_STATUS_PLAUSIBLE_B && !s.cast.triedB

theorem State.otherFree_stripSlot (s : State) (b : Bool) (f : SlotFailure) : (s.stripSlot b f).otherFree b = s.otherFree b := by
  have hflag : ∀ g : Fld, g.addr = fld_CASTON_STATUS_RESULT_A.addr → 16 ≤ g.lo → (s.stripSlot b f).flag g = s.flag g := by
    intro g haddr hlo
    have hend : (resultField b).lo + (resultField b).width ≤ 16 := by cases b <;> decide
    rw [State.flag, s.fld_stripSlot b f haddr, s.fld_setFld_disjoint _ (.inr (.inl (Nat.le_trans hend hlo)))]
    rfl
  unfold State.otherFree
  rw [hflag fld_CASTON_STATUS_PLAUSIBLE_A rfl (by decide), hflag fld_CASTON_STATUS_PLAUSIBLE_B rfl (by decide), s.cast_stripSlot]

theorem State.failSlot_eq (s : State) (b : Bool) (f : SlotFailure) :
    s.failSlot b f = if s.otherFree b then (s.stripSlot b f).trySlot (!b) else (s.stripSlot b f).enterFailed := by
  rw [← s.otherFree_stripSlot b f]
  rfl

/-- What every failure of a slot leaves: its result, nothing staged, and MEM in reset. -/
structure State.SlotDropped (b : Bool) (code : Nat) (s : State) : Prop where
  result : s.fld (resultField b) = code % 2 ^ (resultField b).width
  skein : s.cast.skein = none
  writes : s.cast.writes = []
  grants : s.cast.grants = []
  training : s.cast.training = false
  trained : s.cast.trained = false
  sram : s.sram = []
  memReset : s.inReset 15 = true

theorem State.stripSlot_dropped (s : State) (b : Bool) (f : SlotFailure) : (s.stripSlot b f).SlotDropped b f.code where
  result := (s.fld_stripSlot b f (resultField_fits b).1).trans (s.fld_setResult_same b _)
  skein := rfl
  writes := rfl
  grants := rfl
  training := rfl
  trained := rfl
  sram := rfl
  memReset := by
    show ((s.recordFailure b f).sw.inReset ||| swatchBits [15]).getLsbD 15 = true
    rw [BitVec.getLsbD_or, getLsbD_swatchBits [15] (by decide)]
    exact Bool.or_true _

theorem State.SlotDropped.trySlot {s : State} {b : Bool} {code : Nat} (h : s.SlotDropped b code) (c : Bool) : (s.trySlot c).SlotDropped b code :=
  { h with result := (State.fld_congr rfl rfl _).trans h.result }

theorem State.SlotDropped.enterFailed {s : State} {b : Bool} {code : Nat} (h : s.SlotDropped b code) : s.enterFailed.SlotDropped b code :=
  { h with result := (s.result_enterFailed b).trans h.result, skein := rfl }

theorem State.failSlot_dropped (s : State) (b : Bool) (f : SlotFailure) : (s.failSlot b f).SlotDropped b f.code := by
  rw [State.failSlot_eq]
  split
  · exact (s.stripSlot_dropped b f).trySlot _
  · exact (s.stripSlot_dropped b f).enterFailed

/-- The other slot is tried where it is plausible and untried. -/
theorem State.failSlot_next {s : State} {b : Bool} {f : SlotFailure} (h : s.otherFree b = true) :
    (s.failSlot b f).cast.step = .signature ∧ (s.failSlot b f).cast.slot = some (!b) := by
  rw [State.failSlot_eq, if_pos h]
  exact ⟨rfl, rfl⟩

/-- Otherwise the device enters FAILED. -/
theorem State.failSlot_last {s : State} {b : Bool} {f : SlotFailure} (h : s.otherFree b = false) :
    (s.failSlot b f).phase = phaseFailed ∧ (s.failSlot b f).cast.step = .stopped := by
  rw [State.failSlot_eq, if_neg (by simp [h])]
  exact ⟨State.phase_enterFailed _, rfl⟩

/-! ### The signature stage -/

theorem exec_signatureVerified_of_at {block : List Byte} {ok b : Bool} {s : State} (hat : s.castAt .signature = true) (hslot : s.cast.slot = some b) :
    exec (.signatureVerified block ok) s =
      .next (if ok then s.concludeHeader b block else s.failSlot b (SlotFailure.plain castFlashIo)) := by
  show execSignatureVerified block ok s = _
  cases ok <;> simp [execSignatureVerified, hat, hslot]

theorem State.concludeHeader_failed {s : State} {b : Bool} {block : List Byte} {f : SlotFailure}
    (h : s.headerFailure (if b then s.cast.headB else s.cast.headA) block (s.slotSize b) = some f) : s.concludeHeader b block = s.failSlot b f := by
  simp only [State.concludeHeader, h]

theorem State.concludeHeader_passed {s : State} {b : Bool} {block : List Byte}
    (h : s.headerFailure (if b then s.cast.headB else s.cast.headA) block (s.slotSize b) = none) : s.concludeHeader b block =
      s.setCast { s.cast with step := .sections, skein := some (readSkein (if b then s.cast.headB else s.cast.headA)), nextSection := 0 } := by
  simp only [State.concludeHeader, h]

/-- Settles O22: by the judgement of the headers, and by what a slot that fails leaves. -/
theorem slotsTriedInOrder : Obligations.SlotsTriedInOrder := by
  refine ⟨?_, ?_, ?_, ?_, ?_, ?_, ?_, ?_⟩
  · intro a b s hat ha hb
    have hfirst : firstSlot a b = decide (field a 0x0C 4 < field b 0x0C 4) := by simp [firstSlot, ha, hb]
    have hshown : s.judgeHeaders a b = (s.showHeaders a b).setCast { s.cast with headA := a, headB := b } := by
      rw [State.judgeHeaders, State.judgeHeader_plausible _ _ ha, State.judgeHeader_plausible _ _ hb]
    have hchosen : s.chooseSlot a b = (s.judgeHeaders a b).trySlot (firstSlot a b) := by rw [State.chooseSlot_eq, ha]; rfl
    obtain ⟨hshowsA, hshowsB, hshowsFirst, hregs⟩ := s.showHeaders_spec a b
    refine ⟨s.chooseSlot a b, exec_slotHeadersRead_of_at hat, ?_⟩
    rw [hchosen, hshown, ← hfirst]
    exact ⟨rfl, rfl, rfl, rfl, hshowsA.trans ha, hshowsB.trans hb, hshowsFirst, hregs, rfl⟩
  · intro a b s hat hne
    have hchosen : s.chooseSlot a b = (s.judgeHeaders a b).trySlot (plausible b) := by
      rw [State.chooseSlot_eq]
      cases ha : plausible a <;> cases hb : plausible b <;> simp_all [firstSlot]
    refine ⟨s.chooseSlot a b, exec_slotHeadersRead_of_at hat, ?_⟩
    rw [hchosen]
    refine ⟨rfl, rfl, (State.fld_congr rfl rfl _).trans (s.result_judgeHeaders a b ?_)⟩
    cases ha : plausible a <;> cases hb : plausible b <;> simp_all
  · intro a b s hat ha hb
    have hchosen : s.chooseSlot a b = (s.judgeHeaders a b).enterFailed := by rw [State.chooseSlot_eq, ha, hb]; rfl
    refine ⟨s.chooseSlot a b, exec_slotHeadersRead_of_at hat, ?_⟩
    rw [hchosen]
    exact ⟨State.phase_enterFailed _, (State.result_enterFailed _ false).trans (s.result_judgeHeaders a b ha),
      (State.result_enterFailed _ true).trans (s.result_judgeHeaders a b hb)⟩
  · intro block b s hat hslot
    refine ⟨s.concludeHeader b block, exec_signatureVerified_of_at hat hslot, ?_⟩
    split
    · next h => exact State.concludeHeader_passed h
    · next g h =>
      rw [State.concludeHeader_failed h]
      exact (s.failSlot_dropped b g).result
  · intro block b f s hat hslot hfail hfree
    obtain ⟨hstep, hnext⟩ := State.failSlot_next (f := f) hfree
    have hdropped := s.failSlot_dropped b f
    refine ⟨s.concludeHeader b block, exec_signatureVerified_of_at hat hslot, ?_⟩
    rw [State.concludeHeader_failed hfail]
    exact ⟨hdropped.result, hstep, hnext, hdropped.skein⟩
  · intro block b f s hat hslot hfail hfree
    refine ⟨s.concludeHeader b block, exec_signatureVerified_of_at hat hslot, ?_⟩
    rw [State.concludeHeader_failed hfail]
    exact ⟨(s.failSlot_dropped b f).result, State.failSlot_last hfree⟩
  · intro block b s hat hslot
    have hdropped := s.failSlot_dropped b (SlotFailure.plain castFlashIo)
    refine ⟨s.failSlot b (SlotFailure.plain castFlashIo), exec_signatureVerified_of_at hat hslot, hdropped.result.trans ?_, hdropped.skein⟩
    cases b <;> rfl
  · intro a b s hat
    obtain ⟨hphase, hstep, -, hresults⟩ := s.failBoth_spec
    exact ⟨s.failBoth, exec_slotHeadersRead_of_at hat, hphase, hstep, hresults⟩

end Sys2Proof.Machine
end

section
/-!
PROOF. The sections of a slot, the training of the memory, and cast-on lock (R103, R110, R112, R113, R115, R307).
-/
-- One thread elaborates the file, as in Laws/: each further one takes a stack of its own.
set_option Elab.async false
open Sys2Proof

namespace Sys2Proof.Machine

/-! ### Reading -/

theorem State.step_of_castAt {s : State} {k : CastStep} (h : s.castAt k = true) : s.cast.step = k := by
  simp only [State.castAt, Bool.and_eq_true, beq_iff_eq] at h
  exact h.2

theorem State.pausesAt_false {s : State} {e : Section} (h : (e.type = 5 ∨ e.type = 6) → s.cast.trained = true) : s.pausesAt e = false := by
  unfold State.pausesAt
  by_cases he : e.type = 5 ∨ e.type = 6
  · simp [h he]
  · simp only [not_or] at he
    simp [he]

theorem exec_sectionRead_of_at {bytes : List Byte} {ok : Bool} {e : Section} {s : State} (hat : s.castAt .sections = true)
    (hentry : s.nextSectionEntry = some e) : exec (.sectionRead bytes ok) s = .next
      (if s.pausesAt e then s else if ok then s.takeSection e bytes else s.failCurrent (SlotFailure.plain castFlashIo)) := by
  show execSectionRead bytes ok s = _
  simp only [execSectionRead, hat, hentry]
  split
  · rfl
  · split <;> rfl

theorem State.failCurrent_of_slot {s : State} {b : Bool} (h : s.cast.slot = some b) (f : SlotFailure) : s.failCurrent f = s.failSlot b f := by
  simp only [State.failCurrent, h]

theorem State.nextSectionEntry_of_skein {s : State} {k : Skein} (h : s.cast.skein = some k) :
    s.nextSectionEntry = k.sections[s.cast.nextSection]? := by
  simp only [State.nextSectionEntry, h]

/-! ### A section staged -/

/-- With its last section cast-on goes on to the application of the image, else to the next section. -/
def stepAfter (k : Skein) (n : Nat) : CastStep := if k.sections.length ≤ n then .applied else .sections

theorem State.settleSections_eq {s : State} {k : Skein} (hskein : s.cast.skein = some k) (hstep : s.cast.step = .sections) :
    s.settleSections = s.setCast { s.cast with step := stepAfter k s.cast.nextSection } := by
  have hsettled : s.settleSections = if s.cast.step = .sections ∧ k.sections.length ≤ s.cast.nextSection then
      s.setCast { s.cast with step := .applied } else s := by simp only [State.settleSections, hskein]
  have hsame : s.setCast { s.cast with step := .sections } = s := by rw [← hstep]; rfl
  rw [hsettled, stepAfter]
  by_cases hlast : k.sections.length ≤ s.cast.nextSection
  · rw [if_pos ⟨hstep, hlast⟩, if_pos hlast]
  · rw [if_neg (fun h => hlast h.2), if_neg hlast, hsame]

/-- A section whose contents are staged: cast-on goes on to the next, nothing else of it changed by the reading itself. -/
theorem exec_sectionRead_staged {bytes : List Byte} {e : Section} {k : Skein} {s : State} (hat : s.castAt .sections = true)
    (hskein : s.cast.skein = some k) (hentry : k.sections[s.cast.nextSection]? = some e) (htype : e.type ≠ 5 ∧ e.type ≠ 6)
    (hdigest : sha512 (slice bytes 0 e.length) = e.digest) (hkept : (s.stageSection e (slice bytes 0 e.length)).cast.skein = s.cast.skein)
    (hstep : (s.stageSection e (slice bytes 0 e.length)).cast.step = s.cast.step) : exec (.sectionRead bytes true) s =
      .next ((s.stageSection e (slice bytes 0 e.length)).setCast { (s.stageSection e (slice bytes 0 e.length)).cast with
        step := stepAfter k (s.stageSection e (slice bytes 0 e.length)).cast.nextSection }) := by
  have hpause : s.pausesAt e = false := State.pausesAt_false (by omega)
  rw [exec_sectionRead_of_at hat ((State.nextSectionEntry_of_skein hskein).trans hentry), hpause, State.takeSection,
    if_neg (not_not_intro hdigest), State.settleSections_eq (hkept.trans hskein) (hstep.trans (State.step_of_castAt hat))]
  rfl

theorem State.stageSection_memcfg {s : State} {e : Section} {b : List Byte} (he : e.type = 1)
    (h : s.badWrite true s.cast.writes 0 (writeEntries (b.length / 12) b) = none) : s.stageSection e b =
      (State.setInReset (s.setCast { s.cast with writes := s.cast.writes ++ writeEntries (b.length / 12) b, nextSection := s.cast.nextSection + 1 })
        [15] false).setCast { s.cast with writes := s.cast.writes ++ writeEntries (b.length / 12) b, nextSection := s.cast.nextSection + 1,
                                          training := true } := by
  have hwrites : s.stageSection e b = s.stageWrites s.cast.nextSection true b := if_pos he
  simp only [hwrites, State.stageWrites, h, if_true]
  rfl

theorem State.stageSection_regs {s : State} {e : Section} {b : List Byte} (he : e.type = 2)
    (h : s.badWrite false s.cast.writes 0 (writeEntries (b.length / 12) b) = none)
    (hcores : State.pairedShort { s with cast := { s.cast with writes := s.cast.writes ++ writeEntries (b.length / 12) b } } = false) :
    s.stageSection e b = s.setCast { s.cast with writes := s.cast.writes ++ writeEntries (b.length / 12) b, nextSection := s.cast.nextSection + 1,
                                                 regsChecked := true } := by
  have hshort : State.pairedShort (s.setCast
      { s.cast with writes := s.cast.writes ++ writeEntries (b.length / 12) b, nextSection := s.cast.nextSection + 1 }) = false := hcores
  have hwrites : s.stageSection e b = s.stageWrites s.cast.nextSection false b := (if_neg (by omega)).trans (if_pos he)
  simp only [hwrites, State.stageWrites, h, hshort, Bool.false_eq_true, if_false]
  rfl

theorem State.stageSection_grants (s : State) {e : Section} {b : List Byte} (he : e.type = 3)
    (h : badGrant [] 0 (grantEntries (b.length / 16) b) = none) :
    s.stageSection e b = s.setCast { s.cast with grants := grantEntries (b.length / 16) b, nextSection := s.cast.nextSection + 1 } := by
  have hgrants : s.stageSection e b = s.stageGrants s.cast.nextSection b := (if_neg (by omega)).trans ((if_neg (by omega)).trans (if_pos he))
  simp only [hgrants, State.stageGrants, h]

theorem State.stageSection_note (s : State) {e : Section} (b : List Byte) (he : 6 < e.type) :
    s.stageSection e b = s.setCast { s.cast with nextSection := s.cast.nextSection + 1 } :=
  (if_neg (by omega)).trans ((if_neg (by omega)).trans ((if_neg (by omega)).trans (if_neg (by omega))))

/-! ### A section that fails -/

/-- A section whose digest differs fails the slot, and its place is shown. -/
theorem State.detail_recordFailure (s : State) (b : Bool) (n : Nat) :
    (s.recordFailure b (SlotFailure.at_ castSectionDigest n 0)).flag fld_CASTON_DETAIL_VALID = true ∧
      (s.recordFailure b (SlotFailure.at_ castSectionDigest n 0)).flag fld_CASTON_DETAIL_SLOT = b := by
  let placed := (s.setFld (resultField b) castSectionDigest).setFlag fld_CASTON_DETAIL_SLOT b
  let shown := placed.setFlag fld_CASTON_DETAIL_VALID true
  have hrecord : s.recordFailure b (SlotFailure.at_ castSectionDigest n 0) =
      (shown.setFld fld_CASTON_DETAIL_SECTION n).setFld fld_CASTON_DETAIL_ENTRY 0 := rfl
  have hslot : placed.flag fld_CASTON_DETAIL_SLOT = b := State.flag_setFlag_same _ _ _ (by decide) rfl (by decide +kernel)
  have hvalid : shown.flag fld_CASTON_DETAIL_VALID = true := State.flag_setFlag_same _ _ _ (by decide) rfl (by decide +kernel)
  rw [hrecord, State.flag_setFld_disjoint _ _ (by decide), State.flag_setFld_disjoint _ _ (by decide), State.flag_setFld_disjoint _ _ (by decide),
    State.flag_setFld_disjoint _ _ (by decide)]
  exact ⟨hvalid, (placed.flag_setFld_disjoint _ (by decide)).trans hslot⟩

/-- What follows a failure leaves the place shown. -/
theorem State.flag_failSlot_detail (s : State) (b : Bool) (f : SlotFailure) {g : Fld} (h : g.addr = fld_CASTON_DETAIL_SLOT.addr) :
    (s.failSlot b f).flag g = (s.recordFailure b f).flag g := by
  have hstrip : (s.stripSlot b f).fld g = (s.recordFailure b f).fld g :=
    State.fld_dropStaged_other _ (by rw [h]; decide) (by rw [h]; decide) (by rw [h]; decide)
  rw [State.flag, State.flag, ← hstrip, State.failSlot_eq]
  split
  · exact congrArg (· == 1) (State.fld_congr rfl rfl g)
  · rw [State.fld_enterFailed_other _ (by rw [h]; decide) (by rw [h]; decide)]

/-! ### PLL_ARITH and training -/

theorem exec_pllArithLocked_of_checked {s : State} (hat : s.castAt .sections = true ∨ s.castAt .applied = true) (hregs : s.cast.regsChecked = true)
    (harith : s.cast.arithLocked = false) : exec .pllArithLocked s =
      .next ((s.setFld fld_PLL_STATUS_LOCK (Nat.lor (s.fld fld_PLL_STATUS_LOCK) 2)).setCast { s.cast with arithLocked := true }) :=
  if_pos ⟨hat, hregs, harith⟩

theorem exec_memTrainingDone_of_training {ok : Bool} {s : State} (hat : s.castAt .sections = true ∨ s.castAt .applied = true)
    (htraining : s.cast.training = true) : exec (.memTrainingDone ok) s =
      .next (if ok && s.applyStaged.memCfgOk then
          (s.setFlag fld_MEM_STATUS_TRAINED true).setCast { s.cast with training := false, trained := true }
        else s.failCurrent (SlotFailure.plain castMemTrain)) := by
  refine (if_pos ⟨hat, htraining⟩).trans ?_
  split <;> rfl

/-! ### Cast-on lock -/

variable {p : Pins} {w : Power} {r : BitVec 48 × Store GroupPhase} {s : State}

/-- The governor begins anew; the rest of the power state stays. -/
theorem State.startGovernor_pinned (h : s.Pinned (p, w) r) : s.startGovernor.Pinned (p, { w with started := false, calm := 0 }) r := by
  obtain ⟨hpins, hpower, hreset, hphase⟩ := h
  have hpower' : s.power = w := hpower
  exact State.takeSteps_pinned ⟨hpins, by rw [← hpower']; rfl, hreset, hphase⟩

theorem State.lockPorts_pinned (h : s.Pinned (p, w) r) : s.lockPorts.Pinned (p, w) r :=
  pinned_foldl h fun _ _ ht => pinned_ite (State.setMac_pinned ht) (State.loseLink_pinned ht)

/-- The device as the image is applied: out of reset, its outputs driven, in RUNNING. -/
def State.release (s : State) (b : Bool) (k : Skein) (us : Nat) : State :=
  let u := s.applyStaged.showImage b k
  let u := ((u.setFld (resultField b) castOk).setFld fld_CASTON_TIME_US (min 0xFFFFFFFF us)).setFlag fld_SYS_LOCK_LOCKED true
  let u := { u with sw := { u.sw with inReset := 0 }, pins := { u.pins with coldState := false }, integ := { u.integ with hostArmed := true } }
  let u := (u.setPhase phaseRunning).releaseFlash
  u.setCast { u.cast with step := .stopped }

/-- What lock sets up in the released device. -/
def State.setUp (s : State) (objects : List (Option Declaration)) : State :=
  let u := (s.lockMemory.declareObjects objects).lockChecks
  let u := (((List.range 16).foldl State.lockTout u).startGovernor.startChannels (List.range 16)).lockClassA
  let u := u.keepImage.lockServo.lockPorts.startInit.scheduleStart
  u.autoCommit.showPending

theorem State.lock_eq (s : State) (b : Bool) (k : Skein) (us : Nat) : s.lock b k us = (s.release b k us).setUp s.declared := rfl

theorem State.setUp_pinned (objects : List (Option Declaration)) (h : s.Pinned (p, w) r) :
    (s.setUp objects).Pinned (p, { w with started := false, calm := 0 }) r := by
  have hchecked := State.lockChecks_pinned (State.declareObjects_pinned (l := objects) (State.lockMemory_pinned h))
  have htimers := pinned_foldl (l := List.range 16) (g := State.lockTout) hchecked fun _ _ => State.lockTout_pinned
  have hloop := State.lockClassA_pinned (State.startChannels_pinned (l := List.range 16) (State.startGovernor_pinned htimers))
  have hports := State.lockPorts_pinned (State.lockServo_pinned (State.keepImage_pinned hloop))
  exact State.showPending_pinned (State.autoCommit_pinned (State.scheduleStart_pinned (State.startInit_pinned hports)))

/-- At lock the outputs leave their cold-reset state, DEV_READY rises and the swatches leave reset, and nothing that lock sets up undoes it. -/
theorem State.lock_releases (s : State) (b : Bool) (k : Skein) (us : Nat) :
    (s.lock b k us).pins.devReady = true ∧ (s.lock b k us).pins.coldState = false ∧ (s.lock b k us).sw.inReset = 0 := by
  have hpinned := State.setUp_pinned s.declared (s.release b k us).pinned_self
  rw [State.lock_eq, hpinned.pins, hpinned.inReset]
  exact ⟨rfl, rfl, rfl⟩

end Sys2Proof.Machine
end

section
/-!
PROOF. The statement of the sections, training and lock, from their laws.
-/
open Sys2Proof

namespace Sys2Proof.Machine

/-- Settles O23: by what each section stages, by what a slot that fails leaves, and by what lock keeps pinned. -/
theorem castOnStagesAndLocks : Obligations.CastOnStagesAndLocks := by
  refine ⟨?_, ?_, ?_, ?_, ?_, ?_, ?_, ?_, ?_, ?_, ?_⟩
  · intro bytes e k s hat hskein hentry htype hdigest hgrants
    have hstaged := s.stageSection_grants htype hgrants
    refine ⟨_, exec_sectionRead_staged hat hskein hentry (by omega) hdigest (by rw [hstaged]; rfl) (by rw [hstaged]; rfl), ?_⟩
    rw [hstaged]
    exact ⟨rfl, rfl, rfl, rfl⟩
  · intro bytes e b s hat hslot hentry htrained hdigest
    have hfailed : s.takeSection e bytes = s.failSlot b (SlotFailure.at_ castSectionDigest s.cast.nextSection 0) :=
      (if_pos hdigest).trans (State.failCurrent_of_slot hslot _)
    have hdropped := s.failSlot_dropped b (SlotFailure.at_ castSectionDigest s.cast.nextSection 0)
    obtain ⟨hvalid, hshown⟩ := s.detail_recordFailure b s.cast.nextSection
    refine ⟨s.takeSection e bytes, ?_, ?_⟩
    · rw [exec_sectionRead_of_at hat hentry, State.pausesAt_false htrained]
      rfl
    · rw [hfailed]
      refine ⟨hdropped.result.trans ?_, hdropped.writes, hdropped.grants, hdropped.sram, ?_, ?_⟩
      · cases b <;> rfl
      · exact (s.flag_failSlot_detail b _ (g := fld_CASTON_DETAIL_VALID) rfl).trans hvalid
      · exact (s.flag_failSlot_detail b _ rfl).trans hshown
  · intro s hat hregs harith
    exact ⟨_, exec_pllArithLocked_of_checked hat hregs harith, s.lock_setFld_lor (by decide), rfl, regsBut_setFld (by simp) (regsBut_refl _ s), rfl⟩
  · intro s hat htraining hcfg
    refine ⟨(s.setFlag fld_MEM_STATUS_TRAINED true).setCast { s.cast with training := false, trained := true }, ?_,
      s.flag_setFlag_same _ _ (by decide) rfl (by decide +kernel), rfl, rfl, regsBut_setFlag (by simp) (regsBut_refl _ s), rfl⟩
    rw [exec_memTrainingDone_of_training hat htraining, hcfg]
    rfl
  · intro us b k s hslot hskein hat harith htrained
    refine ⟨s.lock b k us, ?_, s.lock_releases b k us⟩
    show execCastOnLock us s = _
    simp only [execCastOnLock, hslot, hskein, hat, harith, htrained, and_self, if_true]
  · intro bytes e b s hat hslot hentry htrained
    have hdropped := s.failSlot_dropped b (SlotFailure.plain castFlashIo)
    refine ⟨s.failSlot b (SlotFailure.plain castFlashIo), ?_, hdropped.result.trans ?_, hdropped.writes, hdropped.grants, hdropped.sram⟩
    · rw [exec_sectionRead_of_at hat hentry, State.pausesAt_false htrained, State.failCurrent_of_slot hslot]
      rfl
    · cases b <;> rfl
  · intro bytes ok e s hat hentry htype htrained
    have hpause : s.pausesAt e = true := by simp [State.pausesAt, htype, htrained]
    rw [exec_sectionRead_of_at hat hentry, if_pos hpause]
  · intro bytes e k s hat hskein hentry htype hdigest hwrites
    have hstaged := State.stageSection_memcfg htype hwrites
    refine ⟨_, exec_sectionRead_staged hat hskein hentry (by omega) hdigest (by rw [hstaged]; rfl) (by rw [hstaged]; rfl), ?_⟩
    rw [hstaged]
    have hbits : ∀ n, n < 48 → (s.sw.inReset &&& ~~~ swatchBits [15]).getLsbD n = (s.inReset n && !decide (n = 15)) := by
      intro n hn
      rw [BitVec.getLsbD_and, BitVec.getLsbD_not, getLsbD_swatchBits _ hn]
      simp [hn, State.inReset]
    refine ⟨(hbits 15 (by decide)).trans (Bool.and_false _), fun n hn hne => (hbits n hn).trans ?_, rfl, rfl, rfl, rfl, rfl⟩
    simp [hne]
  · intro bytes e k s hat hskein hentry htype hdigest hwrites hcores
    have hstaged := State.stageSection_regs htype hwrites hcores
    refine ⟨_, exec_sectionRead_staged hat hskein hentry (by omega) hdigest (by rw [hstaged]; rfl) (by rw [hstaged]; rfl), ?_⟩
    rw [hstaged]
    exact ⟨rfl, rfl, rfl, rfl, rfl⟩
  · intro bytes e k s hat hskein hentry htype hdigest
    have hstaged := s.stageSection_note (slice bytes 0 e.length) htype
    refine ⟨_, exec_sectionRead_staged hat hskein hentry (by omega) hdigest (by rw [hstaged]; rfl) (by rw [hstaged]; rfl), ?_⟩
    rw [hstaged]
    exact ⟨rfl, rfl, rfl⟩
  · intro ok b s hat hslot htraining hbad
    have hdropped := s.failSlot_dropped b (SlotFailure.plain castMemTrain)
    refine ⟨s.failSlot b (SlotFailure.plain castMemTrain), ?_, hdropped.result.trans ?_, hdropped.training, hdropped.trained, hdropped.memReset⟩
    · rw [exec_memTrainingDone_of_training hat htraining, hbad, State.failCurrent_of_slot hslot]
      rfl
    · cases b <;> rfl

end Sys2Proof.Machine
end

section
/-!
PROOF. What bind-off drops leaves the phase: whatever ends under it writes registers other than SEC_STATE, or other bits of it (R93, R123).
-/
-- One thread elaborates the file, as in Laws/: each further one takes a stack of its own.
set_option Elab.async false
open Sys2Proof

namespace Sys2Proof.Machine

/-! ### Updates of the register file -/

/-- A field shares no bit with PHASE. -/
def Fld.offPhase (f : Fld) : Bool := f.addr != fld_SEC_STATE_PHASE.addr || decide (3 ≤ f.lo)

/-- Fields of arrays lie at addresses of their own. -/
theorem Fld.offPhase_of_ne {f : Fld} (h : f.addr ≠ 0x700000) : f.offPhase = true := by
  have hne : (f.addr != fld_SEC_STATE_PHASE.addr) = true := bne_iff_ne.mpr h
  rw [Fld.offPhase, hne, Bool.true_or]

variable {s : State} {p : Nat}

/-- A change beside the register file and what cast-on holds. -/
theorem State.phase_same {t : State} (h : s.phase = p) (hregs : t.regs = s.regs := by rfl) (hcast : t.cast = s.cast := by rfl) : t.phase = p :=
  (State.fld_congr hregs (by rw [hcast]) _).trans h

theorem State.setFld_phase {f : Fld} {v : Nat} (h : s.phase = p) (hf : f.offPhase = true := by decide) : (s.setFld f v).phase = p := by
  refine Eq.trans (s.fld_setFld_disjoint v ?_) h
  rcases Bool.or_eq_true_iff.mp hf with hne | hlo
  · exact .inl (Ne.symm (bne_iff_ne.mp hne))
  · exact .inr (.inr (of_decide_eq_true hlo))

theorem State.setFlag_phase {f : Fld} {b : Bool} (h : s.phase = p) (hf : f.offPhase = true := by decide) : (s.setFlag f b).phase = p :=
  State.setFld_phase h hf

theorem State.addSat_phase {f : Fld} {k : Nat} (h : s.phase = p) (hf : f.offPhase = true := by decide) : (s.addSat f k).phase = p :=
  State.setFld_phase h hf

theorem State.addWrap_phase {f : Fld} {k : Nat} (h : s.phase = p) (hf : f.offPhase = true := by decide) : (s.addWrap f k).phase = p :=
  State.setFld_phase h hf

theorem State.raiseMax_phase {f : Fld} {v : Nat} (h : s.phase = p) (hf : f.offPhase = true := by decide) : (s.raiseMax f v).phase = p :=
  State.setFld_phase h hf

theorem State.setReg_phase {a : Nat} {w : Word} (h : s.phase = p) (ha : fld_SEC_STATE_PHASE.addr ≠ a := by decide) : (s.setReg a w).phase = p := by
  rw [← h, State.phase, State.phase, State.fld, State.fld, State.reg_setReg_other _ _ _ _ ha]

theorem State.raiseFault_phase {c source : Nat} {detail : Word} (h : s.phase = p) : (s.raiseFault c source detail).phase = p :=
  State.phase_same h (State.raiseFault_regs _ _ _ _) (State.raiseFault_cast _ _ _ _)

theorem phase_ite {c : Prop} [Decidable c] {a b : State} (ha : a.phase = p) (hb : b.phase = p) : (if c then a else b).phase = p := by
  split <;> assumption

theorem phase_foldl {α : Type} {g : State → α → State} {l : List α} (h : s.phase = p) (hg : ∀ t x, t.phase = p → (g t x).phase = p) :
    (l.foldl g s).phase = p := by
  induction l generalizing s with
  | nil => exact h
  | cons x r ih => exact ih (hg s x h)

/-- A fold that carries the state beside what it gathers. -/
theorem phase_foldl_of {α β : Type} (st : β → State) {g : β → α → β} {l : List α} {x : β} (h : (st x).phase = p)
    (hg : ∀ y e, (st y).phase = p → (st (g y e)).phase = p) : (st (l.foldl g x)).phase = p := by
  induction l generalizing x with
  | nil => exact h
  | cons e r ih => exact ih (hg x e h)

theorem State.addBusy_phase {f : Fld} {ns : Nat} (h : s.phase = p) (hf : f.offPhase = true) : (s.addBusy f ns).phase = p :=
  State.phase_same (State.addWrap_phase h hf)

/-! ### Markers -/

theorem State.setGraph_phase {g : Nat} {v : Graph} (h : s.phase = p) : (s.setGraph g v).phase = p :=
  State.setFlag_phase (State.phase_same h) (Fld.offPhase_of_ne (by show 0x108004 + 0x40 * g ≠ _; omega))

theorem State.updAct_phase {g : Nat} {f : Activation → Activation} (h : s.phase = p) : (s.updAct g f).phase = p := by
  unfold State.updAct
  split
  · exact State.setGraph_phase h
  · exact h

theorem State.updNode_phase {g n : Nat} {f : NodeRun → NodeRun} (h : s.phase = p) : (s.updNode g n f).phase = p := State.updAct_phase h

theorem State.stitchProto_phase {m agent : Nat} (h : s.phase = p) : (s.stitchProto m agent).phase = p :=
  State.raiseFault_phase (State.addSat_phase h)

theorem State.setMarker_phase {m : Nat} {k : Marker} (h : s.phase = p) : (s.setMarker m k).phase = p := State.phase_same h

theorem State.answer_phase {agent m gen : Nat} {a : MarkerAnswer} (h : s.phase = p) : (s.answer agent m gen a).phase = p :=
  phase_ite (State.updNode_phase h) (State.phase_same h)

theorem State.acquireSlot_phase {m slot gen lines : Nat} (h : s.phase = p) : (s.acquireSlot m slot gen lines).phase = p := by
  unfold State.acquireSlot
  dsimp only
  split
  · exact State.answer_phase (State.setMarker_phase h)
  · exact State.answer_phase h
  · exact State.setMarker_phase h

theorem State.settle_phase {m : Nat} (h : s.phase = p) : (s.settle m).phase = p :=
  phase_foldl (State.setMarker_phase h) fun _ _ => State.acquireSlot_phase

theorem State.acquireOp_phase {m agent gen lines : Nat} {t : State} (e : s.acquireOp m agent gen lines = some t) (h : s.phase = p) : t.phase = p := by
  unfold State.acquireOp at e
  split at e
  · exact Option.some.inj e ▸ State.acquireSlot_phase h
  · cases e

theorem State.fixAwaiting_phase {m g n i : Nat} (h : s.phase = p) : (s.fixAwaiting m g n i).phase = p := by
  unfold State.fixAwaiting
  dsimp only
  split
  · split
    · split
      · split
        · refine phase_ite (State.updNode_phase h) ?_
          split
          · next e => exact State.acquireOp_phase e (State.updNode_phase h)
          · exact State.stitchProto_phase (State.updNode_phase h)
        · exact h
      · exact h
    · exact h
  · exact h

theorem State.fixTrigger_phase {m g : Nat} (h : s.phase = p) : (s.fixTrigger m g).phase = p := State.updAct_phase h

theorem State.fixAwaitings_phase {m : Nat} (h : s.phase = p) : (s.fixAwaitings m).phase = p :=
  phase_foldl h fun _ _ hg => phase_foldl (State.fixTrigger_phase hg) fun _ _ hn => phase_foldl hn fun _ _ => State.fixAwaiting_phase

theorem State.claimOp_phase {m agent : Nat} {t : State} (e : s.claimOp m agent = some t) (h : s.phase = p) : t.phase = p := by
  unfold State.claimOp at e
  dsimp only at e
  split at e
  · exact Option.some.inj e ▸ State.fixAwaitings_phase (State.settle_phase (State.phase_same h))
  · cases e

theorem State.abandonOp_phase {m agent : Nat} {t : State} (e : s.abandonOp m agent = some t) (h : s.phase = p) : t.phase = p := by
  unfold State.abandonOp at e
  dsimp only at e
  split at e
  · exact Option.some.inj e ▸ phase_foldl (State.setMarker_phase h) fun _ _ => State.answer_phase
  · cases e

theorem State.releaseOp_phase {m agent : Nat} {t : State} (e : s.releaseOp m agent = some t) (h : s.phase = p) : t.phase = p := by
  unfold State.releaseOp at e
  dsimp only at e
  split at e
  · split at e
    · exact Option.some.inj e ▸ State.setMarker_phase h
    · cases e
  · cases e

theorem State.orProto_phase {m agent : Nat} {r : Option State} (hr : ∀ t, r = some t → t.phase = p) (h : s.phase = p) :
    (s.orProto m agent r).phase = p := by
  unfold State.orProto
  split
  · exact hr _ rfl
  · exact State.stitchProto_phase h

/-- What an agent claimed and did not publish is abandoned. -/
theorem State.abandonClaim_phase {m agent : Nat} (h : s.phase = p) : (s.orProto m agent (s.abandonOp m agent)).phase = p :=
  State.orProto_phase (fun _ e => State.abandonOp_phase e h) h

theorem State.dropAgent_phase {m agent : Nat} {holds : Bool} (h : s.phase = p) : (s.dropAgent m agent holds).phase = p := by
  unfold State.dropAgent
  split
  · exact State.setMarker_phase h
  · exact h

/-! ### The neural fabric -/

theorem State.endReservation_phase {g n : Nat} (h : s.phase = p) : (s.endReservation g n).phase = p := by
  unfold State.endReservation
  split
  · exact phase_ite (State.phase_same h) h
  · exact h

theorem State.dispatchOne_phase {q : NeuralRequest} (h : s.phase = p) : (s.dispatchOne q).phase = p := by
  unfold State.dispatchOne
  split
  · exact State.phase_same (State.endReservation_phase h)
  · split
    · exact h
    · split
      · exact State.phase_same h
      · exact h

theorem State.dispatch_phase (h : s.phase = p) : s.dispatch.phase = p := phase_foldl h fun _ _ => State.dispatchOne_phase

theorem State.unpinProgram_phase {n : Nat} (h : s.phase = p) : (s.unpinProgram n).phase = p :=
  phase_foldl h fun _ _ ht => phase_ite (State.phase_same ht) (State.phase_same ht)

theorem State.countService_phase {r : NeuralRun} (h : s.phase = p) : (s.countService r).phase = p :=
  phase_ite (phase_foldl h fun _ c ht => State.addBusy_phase ht (Fld.offPhase_of_ne (by show 0x200004 + 0x10000 * c ≠ _; omega))) h

theorem State.discardArena_phase {r : NeuralRun} (h : s.phase = p) : (s.discardArena r).phase = p := State.phase_same h

theorem State.removeRequest_phase {g n : Nat} (h : s.phase = p) : (s.removeRequest g n).2.phase = p := by
  have hserved : ∀ (ps : List Nat) (runs : List NeuralRun),
      (runs.foldl (fun s r => (s.countService r).discardArena r) (ps.foldl State.unpinProgram s)).phase = p := fun ps runs =>
    phase_foldl (phase_foldl h fun _ _ => State.unpinProgram_phase) fun _ _ ht => State.discardArena_phase (State.countService_phase ht)
  unfold State.removeRequest
  exact State.endReservation_phase (State.phase_same (hserved _ _))

theorem State.dropRequests_phase {g : Nat} (h : s.phase = p) : (s.dropRequests g).phase = p :=
  State.dispatch_phase (phase_foldl h fun _ _ ht => phase_ite (State.addSat_phase (State.removeRequest_phase ht)) (State.removeRequest_phase ht))

/-! ### Activations -/

theorem State.releaseInputs_phase {g n : Nat} {r : NodeRun} {holds : Bool} (h : s.phase = p) : (s.releaseInputs g n r holds).phase = p := by
  refine phase_foldl h fun t i ht => ?_
  split
  · exact phase_ite ht (State.dropAgent_phase ht)
  · exact ht

theorem State.abandonOutputs_phase {g n : Nat} {r : NodeRun} (h : s.phase = p) : (s.abandonOutputs g n r).phase = p := by
  refine phase_foldl h fun t o ht => ?_
  split
  · exact phase_ite (State.abandonClaim_phase ht) ht
  · exact ht

/-- The SGM engine's last code stands above the bits of PHASE. -/
theorem State.endSgm_phase {e code : Nat} (h : s.phase = p) : (s.endSgm e code).phase = p := by
  have hlast : (s.setFld (fld_SGM_STATUS_LAST_CODE e) code).phase = p := State.setFld_phase h (Bool.or_eq_true_iff.mpr (.inr rfl))
  have hlow : (fld_SGM_LAST_A_LOW_TEX e).addr ≠ 0x700000 := by show 0x10c010 + 0x40 * e ≠ _; omega
  have hrange : (fld_SGM_LAST_B_RANGE e).addr ≠ 0x700000 := by show 0x10c014 + 0x40 * e ≠ _; omega
  have hjobs : (fld_SGM_JOBS_JOBS e).addr ≠ 0x700000 := by show 0x10c004 + 0x40 * e ≠ _; omega
  refine phase_ite ?_ (State.phase_same hlast)
  exact State.setFld_phase (State.setFld_phase (State.setFld_phase (State.setFld_phase
    (State.addWrap_phase (State.phase_same hlast) (Fld.offPhase_of_ne hjobs)) (Fld.offPhase_of_ne hlow)) (Fld.offPhase_of_ne hlow))
    (Fld.offPhase_of_ne hrange)) (Fld.offPhase_of_ne hrange)

theorem State.closeNode_phase {g n code : Nat} (h : s.phase = p) : (s.closeNode g n code).phase = p := by
  unfold State.closeNode
  split
  · exact h
  · refine State.updNode_phase ?_
    split
    · exact phase_ite (State.endSgm_phase (phase_ite (State.abandonOutputs_phase (State.releaseInputs_phase h)) (State.releaseInputs_phase h)))
        (phase_ite (State.abandonOutputs_phase (State.releaseInputs_phase h)) (State.releaseInputs_phase h))
    · exact phase_ite (State.abandonOutputs_phase (State.releaseInputs_phase h)) (State.releaseInputs_phase h)

theorem State.dropActivation_phase {g : Nat} (h : s.phase = p) : (s.dropActivation g).phase = p := by
  unfold State.dropActivation
  split
  · exact h
  · refine State.setGraph_phase (State.addSat_phase (State.setFlag_phase (phase_foldl (State.dropRequests_phase h) fun t n ht => ?_)
      (Fld.offPhase_of_ne (by show 0x108004 + 0x40 * g ≠ _; omega))) (Fld.offPhase_of_ne (by show 0x10800c + 0x40 * g ≠ _; omega)))
    split
    · exact phase_ite ht (State.closeNode_phase ht)
    · exact ht

/-! ### Tracking updates -/

theorem State.closeUpdate_phase {u : TrackUpdate} {drop : Bool} (h : s.phase = p) : (s.closeUpdate u drop).phase = p := by
  unfold State.closeUpdate
  dsimp only
  have hread : (u.ins.foldl (fun s i => match i with | some (_, m, _) => s.dropAgent m (setAgent u.object u.set) drop | none => s)
      (s.setUpdates (s.track.updates.filter (fun v => !u.same v)))).phase = p := by
    refine phase_foldl (State.phase_same h) fun t i ht => ?_
    split
    · exact State.dropAgent_phase ht
    · exact ht
  split
  · exact phase_ite (State.abandonClaim_phase hread) hread
  · exact hread

theorem State.dropUpdate_phase {u : TrackUpdate} (h : s.phase = p) : (s.dropUpdate u).phase = p :=
  State.addSat_phase (State.closeUpdate_phase h) (by cases u.object <;> decide)

theorem State.claimPoints_phase {agent b : Nat} (h : s.phase = p) : (s.claimPoints agent b).2.phase = p := by
  unfold State.claimPoints
  dsimp only
  split
  · next e => exact State.claimOp_phase e h
  · exact State.stitchProto_phase h

theorem State.startUpdate_phase {object : Bool} {i : Nat} (h : s.phase = p) : (s.startUpdate object i).phase = p := by
  unfold State.startUpdate
  split
  · exact h
  · refine phase_ite h (phase_ite (State.addSat_phase (State.closeUpdate_phase h) (by cases object <;> decide)) (State.phase_same ?_))
    cases object with
    | false => exact State.claimPoints_phase h
    | true => exact h

theorem State.dropUpdates_phase {f : TrackUpdate → Bool} (h : s.phase = p) : (s.dropUpdates f).phase = p :=
  phase_foldl (phase_foldl h fun _ _ => State.dropUpdate_phase) fun _ _ ht => phase_foldl ht fun _ _ => State.startUpdate_phase

/-! ### Transmit payloads -/

theorem State.releaseHolds_phase {t : Nat} {x : TxPayload} (h : s.phase = p) : (s.releaseHolds t x).phase = p := by
  refine phase_foldl h fun u e hu => phase_ite ?_ hu
  split
  · next e => exact State.releaseOp_phase e hu
  · exact hu

theorem State.endPayload_phase {t : Nat} (h : s.phase = p) : (s.endPayload t).phase = p := by
  unfold State.endPayload
  split
  · exact State.phase_same (State.releaseHolds_phase h)
  · exact h

theorem State.cutPayload_phase {t : Nat} {x : TxPayload} (h : s.phase = p) : (s.cutPayload t x).phase = p := by
  have hcount : (s.addSat (fld_TX_STREAM_LOSS_CUT t) 1).phase = p :=
    State.addSat_phase h (Fld.offPhase_of_ne (by show 0x5040c + 0x10 * t ≠ _; omega))
  refine phase_ite (State.phase_same hcount) (phase_ite ?_ (State.phase_same (State.endPayload_phase hcount)))
  exact State.addWrap_phase (State.phase_same (State.endPayload_phase hcount)) (Fld.offPhase_of_ne (by show 0x5020c + 0x20 * s.txPort t ≠ _; omega))

theorem State.dropClassB_phase (h : s.phase = p) : s.dropClassB.phase = p := by
  refine phase_foldl (State.dropUpdates_phase (phase_foldl h fun _ _ => State.dropActivation_phase)) fun u t hu => ?_
  split
  · exact State.cutPayload_phase hu
  · exact hu

/-! ### Memory -/

theorem State.allocate_phase {used : List Nat} {n : Nat} (h : s.phase = p) : (s.allocate used n).2.phase = p := by
  induction n generalizing s used with
  | zero => exact h
  | succ n ih => exact ih (State.phase_same h)

theorem State.allocateIf_phase {c : Prop} [Decidable c] {used : List Nat} {n : Nat} (h : s.phase = p) :
    (if c then s.allocate used n else ([], s)).2.phase = p := by
  split
  · exact State.allocate_phase h
  · exact h

theorem State.setObject_phase {id : Nat} {o : Option MemObject} (h : s.phase = p) : (s.setObject id o).phase = p := State.phase_same h

theorem State.holdAccess_phase {a : HeldAccess} (h : s.phase = p) : (s.holdAccess a).phase = p := State.phase_same h

theorem State.programRecord_phase {c pages n : Nat} {but : Option Nat} {t : State} (e : s.programRecord c pages but = some (n, t)) (h : s.phase = p) :
    t.phase = p := by
  unfold State.programRecord at e
  dsimp only at e
  split at e
  · cases e
  · cases e
    exact State.phase_same h

theorem State.abandonMove_phase {code : Nat} (h : s.phase = p) : (s.abandonMove code).phase = p := by
  unfold State.abandonMove
  split
  · exact State.phase_same h
  · exact h

theorem State.beginRecord_phase {id : Nat} (h : s.phase = p) : (s.beginRecord id).phase = p := by
  unfold State.beginRecord
  split
  · exact phase_ite (phase_ite (State.phase_same h) (phase_ite (State.phase_same h) (State.phase_same h))) h
  · exact h

theorem State.setMark_phase {flash : Bool} {key : Nat} {m : WordMark} (h : s.phase = p) : (s.setMark flash key m).phase = p :=
  phase_ite (State.phase_same h) (State.phase_same h)

theorem State.recordUe_phase {medium swatch addr : Nat} {scrub location : Bool} (h : s.phase = p) :
    (s.recordUe medium swatch scrub location addr).phase = p := by
  have hmedium : (fld_SELV_UE_UE medium).addr ≠ 0x700000 := by show 0x600304 + 8 * medium ≠ _; omega
  have hcount := State.addSat_phase (k := 1) h (Fld.offPhase_of_ne hmedium)
  have hlocation := phase_ite (c := location = true) (State.addSat_phase (f := fld_SELV_UE_LOCATION medium) (k := 1) hcount (Fld.offPhase_of_ne hmedium)) hcount
  exact State.raiseFault_phase (State.setReg_phase (State.setReg_phase (State.setFld_phase (State.setFlag_phase (State.setFlag_phase
    (State.setFld_phase (State.addSat_phase hlocation)))))))

/-- The three media are counted apart. -/
theorem State.recordCe_phase {medium : Nat} (h : s.phase = p) (hm : medium < 8) : (s.recordCe medium).phase = p :=
  State.addSat_phase h (Fld.offPhase_of_ne (by show 0x600300 + 8 * medium ≠ _; omega))

theorem State.wordPlace_medium (s : State) (id : Nat) (o : MemObject) (w : Nat) : (s.wordPlace id o w).medium < 8 := by
  unfold State.wordPlace
  split
  · exact (by decide : mediumNand < 8)
  · split
    · exact (by decide : mediumSram < 8)
    · exact (by decide : mediumDram < 8)

theorem State.readWord_phase {reader id w : Nat} {o : MemObject} {errors : SymbolErrors} {undecoded : Bool} (h : s.phase = p) :
    (s.readWord reader id o w errors undecoded).2.2.phase = p := by
  unfold State.readWord
  dsimp only
  split
  · exact State.recordUe_phase h
  · exact State.recordUe_phase h
  · split
    · exact State.recordUe_phase h
    · split
      · split
        · exact h
        · exact phase_ite h (State.phase_same h)
      · exact State.recordCe_phase (phase_ite h (State.phase_same h)) (s.wordPlace_medium id o w)
      · exact State.recordUe_phase (State.setMark_phase h)

theorem State.readRange_phase {reader id off n : Nat} {errors : List (Nat × SymbolErrors)} {undecoded : List Nat} (h : s.phase = p) :
    (s.readRange reader id off n errors undecoded).2.2.phase = p := by
  unfold State.readRange
  split
  · exact h
  · exact phase_foldl_of (fun y : List Byte × List Nat × State => y.2.2) (phase_ite h (State.addSat_phase h)) fun _ _ => State.readWord_phase

theorem State.noteRead_phase {reader id : Nat} (h : s.phase = p) : (s.noteRead reader id).phase = p := by
  unfold State.noteRead
  split
  · exact phase_ite h (State.readRange_phase h)
  · exact h

theorem State.touch_phase {id : Nat} (h : s.phase = p) : (s.touch id).phase = p := by
  unfold State.touch
  split
  · exact State.phase_same h
  · exact h

theorem State.dirtyMove_phase {id off n : Nat} (h : s.phase = p) : (s.dirtyMove id off n).phase = p := by
  unfold State.dirtyMove
  split
  · refine phase_ite h ?_
    split
    · exact h
    · refine phase_ite ?_ (State.phase_same h)
      split
      · exact State.abandonMove_phase h
      · next e => exact State.phase_same (State.beginRecord_phase (State.programRecord_phase e h))
  · exact h

theorem State.writeObject_phase {id off : Nat} {data : List Byte} (h : s.phase = p) : (s.writeObject id off data).phase = p := by
  have hwritten := phase_foldl (l := wholeWords off data.length) (g := fun s w => s.setMark false (memKey id w) .good)
    (State.phase_same (t := (s.dirtyMove id off data.length).setMemBytes id off data) (State.dirtyMove_phase (id := id) (off := off) (n := data.length) h))
    fun _ _ => State.setMark_phase
  unfold State.writeObject
  dsimp only
  split
  · exact phase_ite (State.phase_same hwritten) hwritten
  · exact hwritten

theorem State.growObject_phase {id size : Nat} {pages : List Nat} (h : s.phase = p) : (s.growObject id size pages).phase = p := by
  unfold State.growObject
  split
  · exact phase_ite (State.phase_same h) h
  · exact h

theorem State.writeStatic_phase {id : Nat} {b : List Byte} (h : s.phase = p) : (s.writeStatic id b).phase = p :=
  phase_ite (State.writeObject_phase (State.touch_phase h)) h

/-! ### The verifier and the map task -/

theorem State.nearFp_phase {f : FpFormat} {q : Rat} (h : s.phase = p) : (s.nearFp f q).2.phase = p := by
  unfold State.nearFp
  dsimp only
  split
  · exact h
  · exact State.phase_same h

theorem State.nearFpOpt_phase {f : FpFormat} {q : Option Rat} (h : s.phase = p) : (s.nearFp? f q).2.phase = p := by
  unfold State.nearFp?
  split
  · exact State.nearFp_phase h
  · exact State.phase_same h

theorem State.takeJob_phase (h : s.phase = p) : s.takeJob.phase = p := by
  unfold State.takeJob
  split
  · exact phase_ite h (State.phase_same h)
  · exact h

theorem State.endJob_phase {j : VerifierJob} {record : List Byte} (h : s.phase = p) : (s.endJob j record).phase = p :=
  State.takeJob_phase (phase_ite (State.addSat_phase (State.phase_same h)) (phase_ite (State.addSat_phase (State.phase_same h))
    (phase_ite (State.addSat_phase (State.phase_same h)) (State.phase_same h))))

/-- A tile that is there is written once nothing holds it. -/
theorem State.rewriteTile_phase {c : Prop} [Decidable c] {id size : Nat} {pages : List Nat} {b : List Byte} {a : HeldAccess} {u : State}
    (e : (if c then some (s.holdAccess a) else some (((s.growObject id size pages).touch id).writeObject id 0 b)) = some u) (h : s.phase = p) :
    u.phase = p := by
  split at e
  · exact Option.some.inj e ▸ State.holdAccess_phase h
  · exact Option.some.inj e ▸ State.writeObject_phase (State.touch_phase (State.growObject_phase h))

theorem State.writeTile_phase {n : Nat} {t : MapTile} {u : State} (e : s.writeTile n t = some u) (h : s.phase = p) : u.phase = p := by
  unfold State.writeTile at e
  cases hold : s.object (tileId n) with
  | none =>
    simp only [hold] at e
    split at e
    · cases e
    · exact Option.some.inj e ▸ State.writeObject_phase (State.touch_phase (State.setObject_phase (State.allocateIf_phase h)))
  | some o =>
    simp only [hold] at e
    split at e
    · cases e
    · split at e
      · exact State.rewriteTile_phase e (State.allocate_phase h)
      · exact State.rewriteTile_phase e h

theorem State.stageCandidate_phase (h : s.phase = p) : s.stageCandidate.phase = p := by
  unfold State.stageCandidate
  split
  · exact h
  · exact State.writeStatic_phase (State.noteRead_phase h)

theorem State.setMap_phase {m : MapTask} (h : s.phase = p) : (s.setMap m).phase = p := State.phase_same h

/-- An edge's information, rounded word by word. -/
theorem State.information_phase {l : List Nat} {b : List Byte} (h : s.phase = p) :
    (l.foldl (fun (x : List Byte × State) w =>
      let (v, s) := x.2.nearFp? fp16 (ofWord32 w).rat?
      (x.1 ++ toLe 2 v, s)) (b, s)).2.phase = p :=
  phase_foldl_of (fun y : List Byte × State => y.2) h fun _ _ => State.nearFpOpt_phase

theorem State.admitLoop_phase {record : List Byte} (h : s.phase = p) : (s.admitLoop record).phase = p := by
  unfold State.admitLoop
  split
  · refine State.stageCandidate_phase (phase_ite ?_ (State.phase_same h))
    split
    · split
      next hinfo =>
        have hrounded := (congrArg (fun y => y.2.phase) hinfo).symm.trans (State.information_phase (State.phase_same h))
        split
        · next e => exact State.setMap_phase (State.writeTile_phase e hrounded)
        · exact State.addSat_phase hrounded
    · exact State.phase_same h
  · exact h

theorem State.endVerifying_phase {j : VerifierJob} (h : s.phase = p) : (s.endVerifying j).phase = p :=
  phase_ite (State.admitLoop_phase (State.endJob_phase h)) (State.endJob_phase h)

/-! ### The problem of SOLV_1 -/

theorem State.discardFactor_phase {c k : Nat} {t : Structure} {installed : Bool} (h : s.phase = p) : (s.discardFactor c k t installed).phase = p :=
  phase_ite (phase_ite (State.phase_same h) h) (State.phase_same h)

/-- Each core has its counts at addresses of its own. -/
theorem State.countStatus_phase {c status : Nat} (h : s.phase = p) : (s.countStatus c status).phase = p := by
  have h0 : (fld_SOLV_CODES_0_SOLVED c).addr ≠ 0x700000 := by show 0x400008 + 0x1000 * c ≠ _; omega
  have h1 : (fld_SOLV_CODES_1_DEADLINE_ITER c).addr ≠ 0x700000 := by show 0x40000c + 0x1000 * c ≠ _; omega
  have h2 : (fld_SOLV_CODES_2_INFEASIBLE c).addr ≠ 0x700000 := by show 0x400010 + 0x1000 * c ≠ _; omega
  have h3 : (fld_SOLV_CODES_3_MISMATCH c).addr ≠ 0x700000 := by show 0x400014 + 0x1000 * c ≠ _; omega
  refine State.addSat_phase h ?_
  split
  · exact Fld.offPhase_of_ne h0
  · exact Fld.offPhase_of_ne h0
  · exact Fld.offPhase_of_ne h1
  · exact Fld.offPhase_of_ne h1
  · exact Fld.offPhase_of_ne h2
  · exact Fld.offPhase_of_ne h2
  · exact Fld.offPhase_of_ne h3
  · exact Fld.offPhase_of_ne h3

theorem State.setWindow_phase {w : Window} (h : s.phase = p) : (s.setWindow w).phase = p := State.phase_same h

theorem State.windowEnds_phase {r : SolverResult} {point : List Word} {tail : List Byte} (h : s.phase = p) : (s.windowEnds r point tail).phase = p := by
  unfold State.windowEnds
  split
  · exact h
  · refine phase_ite ?_ (State.phase_same h)
    lift_lets
    intro _ _ moved written _ _
    have hmoved : moved.phase = p := State.setWindow_phase (State.setWindow_phase h)
    have hwritten : written.phase = p := phase_ite (State.writeStatic_phase hmoved) hmoved
    clear_value written
    split
    · exact hwritten
    · exact phase_ite (State.setMap_phase (State.phase_same hwritten)) (State.phase_same hwritten)

theorem State.deliverResult_phase {c : Nat} {r : SolverResult} {point : List Word} {tail : List Byte} (h : s.phase = p) :
    (s.deliverResult c r point tail).phase = p := by
  unfold State.deliverResult
  split
  · refine phase_ite (State.phase_same h) ?_
    unfold State.classAReady
    split
    · exact State.phase_same h
    · exact State.phase_same h
  · exact State.windowEnds_phase h
  · exact phase_ite (State.phase_same h) h
  · exact State.phase_same h

theorem State.setProblem_phase {c : Nat} {x : Option Problem} (h : s.phase = p) : (s.setProblem c x).phase = p := State.phase_same h

theorem State.conclude_phase {c status stopPhase : Nat} {t : Structure} {x : Problem} (h : s.phase = p) :
    (s.conclude c t x status stopPhase).phase = p := by
  have hworst : (fld_SOLV_WORST_WORST_US c).addr ≠ 0x700000 := by show 0x400028 + 0x1000 * c ≠ _; omega
  exact State.deliverResult_phase (State.setProblem_phase (State.raiseMax_phase (phase_ite h (State.countStatus_phase h)) (Fld.offPhase_of_ne hworst)))

theorem State.stopProblem_phase {c : Nat} {t : Structure} {x : Problem} (h : s.phase = p) : (s.stopProblem c t x).phase = p :=
  phase_ite (State.conclude_phase (phase_ite (State.discardFactor_phase h) h)) (State.conclude_phase (phase_ite (State.discardFactor_phase h) h))

theorem State.endOther_phase (h : s.phase = p) : s.endOther.phase = p := by
  unfold State.endOther
  split
  · split
    · exact State.setProblem_phase (State.stopProblem_phase (State.phase_same h))
    · exact h
  · split
    · exact phase_ite h (State.stopProblem_phase h)
    · exact h
  · exact h

theorem State.dropClassC_phase (h : s.phase = p) : s.dropClassC.phase = p := by
  refine State.abandonMove_phase (State.endOther_phase ?_)
  split
  · exact State.endVerifying_phase h
  · exact h

/-! ### The place search -/

theorem State.deliverQuery_phase {q : Query} {status cause flags : Nat} {entries : List SearchEntry} (h : s.phase = p) :
    (s.deliverQuery q status cause flags entries).phase = p := by
  unfold State.deliverQuery
  split
  · exact State.phase_same h
  · split
    · exact State.phase_same h
    · exact h
  · exact phase_ite (State.addWrap_phase (State.addWrap_phase (State.addWrap_phase h))) (State.addWrap_phase h)

theorem State.endQuery_phase {q : Query} {status cause : Nat} (h : s.phase = p) : (s.endQuery q status cause).phase = p := by
  have hloss : (fld_IDX_LOSS_DROPPED q.desc.index).addr ≠ 0x700000 := by show 0x500128 + 0x40 * q.desc.index ≠ _; omega
  have htrunc : (fld_IDX_FLAGS_TRUNC q.desc.index).addr ≠ 0x700000 := by show 0x50012c + 0x40 * q.desc.index ≠ _; omega
  have hcounted : ∀ t : State, t.phase = p → (if status = qDropped then t.addSat (fld_IDX_LOSS_DROPPED q.desc.index) 1
      else if status = qRefused ∧ q.desc.index ≤ 1 then t.addSat (fld_IDX_LOSS_REFUSED q.desc.index) 1 else t).phase = p := fun t ht =>
    phase_ite (State.addSat_phase ht (Fld.offPhase_of_ne hloss)) (phase_ite (State.addSat_phase ht (Fld.offPhase_of_ne hloss)) ht)
  exact State.deliverQuery_phase (phase_ite (State.addSat_phase (hcounted _ (State.phase_same h)) (Fld.offPhase_of_ne htrunc))
    (hcounted _ (State.phase_same h)))

theorem State.countResult_phase {result detail : Nat} (h : s.phase = p) : (s.countResult result detail).phase = p := by
  unfold State.countResult
  exact phase_ite (State.addWrap_phase h) (phase_ite (State.addSat_phase h) (phase_ite (State.addSat_phase h) (phase_ite (State.addSat_phase h)
    (phase_ite (phase_ite (State.addSat_phase h) h) (phase_ite h (State.addSat_phase h))))))

theorem State.addStatus_phase {dt result detail alive : Nat} {arrival : Stamp} (h : s.phase = p) :
    (s.addStatus dt result detail alive arrival).phase = p := by
  have hlast := State.setFld_phase (f := fld_CMD_LAST_DETAIL) (v := detail) (State.setFld_phase (f := fld_CMD_LAST_RESULT) (v := result)
    (State.setFld_phase (f := fld_CMD_LAST_DT) (v := dt) (State.countResult_phase (result := result) (detail := detail) h)))
  exact phase_ite h (phase_ite (State.phase_same hlast) (State.phase_same hlast))

theorem State.stopImport_phase {code : Nat} (h : s.phase = p) : (s.stopImport code).phase = p := by
  unfold State.stopImport
  split
  · exact State.addStatus_phase (State.setFld_phase (State.setFlag_phase (State.setFld_phase (State.phase_same (State.setFld_phase
      (f := fld_SRCH_IMPORT_STATUS_STATE) h)))))
  · exact h

theorem State.abandonSearch_phase (h : s.phase = p) : s.abandonSearch.phase = p :=
  State.stopImport_phase (phase_foldl h fun _ _ => State.endQuery_phase)

theorem State.setProbe_phase {x : Option ProbeRun} (h : s.phase = p) : { s with srch := { s.srch with probe := x } : State }.phase = p :=
  State.phase_same h

/-- What bind-off drops leaves the phase. -/
theorem State.dropForBind_phase (h : s.phase = p) : s.dropForBind.phase = p := by
  unfold State.dropForBind
  exact State.setProbe_phase (State.setFlag_phase (State.abandonSearch_phase (State.dropClassC_phase (State.dropClassB_phase h))))

end Sys2Proof.Machine
end

section
/-!
PROOF. Bind-off from RUNNING through BIND_OFF to BOUND (R93, R123).
-/
-- One thread elaborates the file, as in Laws/: each further one takes a stack of its own.
set_option Elab.async false
open Sys2Proof

namespace Sys2Proof.Machine

/-! ### A machine with no work to drop -/

/-- No activation, update, payload with a deadline, verifier's job, move, query, import or problem of SOLV_1 is under way. -/
structure State.Idle (s : State) : Prop where
  graphs : ∀ g, (s.graph g).act = none
  updates : s.track.updates = []
  payloads : ∀ t, s.cuttable t = none
  verifier : s.vis.verifying = none
  mover : s.mem.move = none
  queued : s.srch.queue = []
  active : s.srch.active = []
  importing : s.srch.importing = none
  suspended : s.solv.suspended = none
  problem : s.problem 1 = none

theorem foldl_fixed {α : Type} {g : State → α → State} {s : State} (l : List α) (h : ∀ x, g s x = s) : l.foldl g s = s := by
  induction l with
  | nil => rfl
  | cons x r ih => rw [List.foldl_cons, h, ih]

variable {s : State}

theorem State.dropActivation_none {g : Nat} (h : (s.graph g).act = none) : s.dropActivation g = s := by
  unfold State.dropActivation
  rw [h]

theorem State.dropUpdates_nil (f : TrackUpdate → Bool) (h : s.track.updates = []) : s.dropUpdates f = s := by
  simp only [State.dropUpdates, h, List.filter_nil, List.foldl_nil]

theorem State.Idle.dropClassB (h : s.Idle) : s.dropClassB = s := by
  have hgraphs : (List.range 8).foldl State.dropActivation s = s := foldl_fixed _ fun g => State.dropActivation_none (h.graphs g)
  unfold State.dropClassB
  simp only [hgraphs, State.dropUpdates_nil _ h.updates]
  exact foldl_fixed _ fun t => by rw [h.payloads]

theorem State.Idle.dropClassC (h : s.Idle) : s.dropClassC = s := by
  have hother : s.endOther = s := by simp only [State.endOther, h.suspended, h.problem]
  have hmove : s.abandonMove moverAbandoned = s := by simp only [State.abandonMove, h.mover]
  simp only [State.dropClassC, h.verifier, hother, hmove]

theorem State.Idle.abandonSearch (h : s.Idle) : s.abandonSearch = s := by
  have hqueries : s.endQueries (s.srch.queue ++ s.srch.active) qAbandoned = s := by rw [h.queued, h.active]; rfl
  unfold State.abandonSearch
  rw [hqueries]
  simp only [State.stopImport, h.importing]

/-- Of the registers, bind-off then changes the recall probe's alone. -/
theorem State.Idle.regsBut_dropForBind {l : List Fld} {s₀ : State} (hidle : s.Idle) (m : fld_SRCH_PROBE_STATUS_BUSY ∈ l) (h : RegsBut l s₀ s) :
    RegsBut l s₀ s.dropForBind := by
  unfold State.dropForBind
  rw [hidle.dropClassB, hidle.dropClassC, hidle.abandonSearch]
  exact regsBut_trans (regsBut_setFlag m h) (regsBut_of_regs rfl)

/-- Acceptance writes registers, pins and the power state. -/
theorem State.Idle.accepted (h : s.Idle) (hibernate : Bool) : ((s.acceptBindOff hibernate).setFlag fld_PWR_STATUS_CHANGING hibernate).Idle :=
  ⟨h.graphs, h.updates, h.payloads, h.verifier, h.mover, h.queued, h.active, h.importing, h.suspended, h.problem⟩

/-! ### The request -/

theorem State.acceptBindOff_phase (s : State) (hibernate : Bool) : (s.acceptBindOff hibernate).phase = phaseBindOff :=
  State.phase_same (s.phase_setPhase (by decide))

/-- The device is in BIND_OFF once the request is accepted, whatever is dropped. -/
theorem State.beginBindOff_phase (s : State) (hibernate : Bool) : (s.beginBindOff hibernate).phase = phaseBindOff :=
  State.dropForBind_phase (State.setFlag_phase (s.acceptBindOff_phase hibernate))

theorem State.Idle.regsBut_beginBindOff (h : s.Idle) (hibernate : Bool) :
    RegsBut [fld_SEC_STATE_PHASE, fld_PWR_STATUS_CHANGING, fld_SRCH_PROBE_STATUS_BUSY] s (s.beginBindOff hibernate) := by
  have haccepted : RegsBut [fld_SEC_STATE_PHASE, fld_PWR_STATUS_CHANGING, fld_SRCH_PROBE_STATUS_BUSY] s (s.acceptBindOff hibernate) :=
    regsBut_trans (regsBut_setPhase (by simp) (regsBut_refl _ s)) (regsBut_of_regs rfl)
  exact (h.accepted hibernate).regsBut_dropForBind (by simp) (regsBut_setFlag (by simp) haccepted)

/-- Outside RUNNING a request changes nothing, whether the write is taken or not. -/
theorem exec_bindOffRequest_of_not_running (data : Word) (h : s.phase ≠ phaseRunning) : exec (.bindOffRequest data) s = .next s := by
  show execBindOffRequest data s = _
  unfold execBindOffRequest
  split
  · exact if_neg fun hask => h hask.2
  · rfl

/-! ### NAND drained, and the end -/

theorem exec_bindOffNandDrained_of_running (halive : s.alive = true) (hphase : s.phase = phaseBindOff) (hheld : s.power.nandHeld = false) :
    exec .bindOffNandDrained s = .next { s with cast := { s.cast with bindDrained := true } } :=
  if_neg (by simp [halive, hphase, hheld])

theorem exec_bindOffComplete_of_ended (halive : s.alive = true) (hphase : s.phase = phaseBindOff) (hdrained : s.cast.bindDrained = true)
    (hended : s.loopEnded = true) : exec .bindOffComplete s = .next s.bound :=
  if_neg (by simp [halive, hphase, hdrained, hended])

theorem State.bound_phase (s : State) : s.bound.phase = phaseBound :=
  (State.fld_raiseIbi_other _ _ (by decide)).trans (State.phase_same (State.phase_setPhase _ (by decide)))

theorem regsBut_bound (s : State) : RegsBut [fld_SEC_STATE_PHASE, fld_I3C_IBI_PEND_PEND] s s.bound := by
  have hphase : RegsBut [fld_SEC_STATE_PHASE, fld_I3C_IBI_PEND_PEND] s (State.setPhase _ phaseBound) :=
    regsBut_setPhase (by simp) (regsBut_of_regs rfl)
  exact regsBut_setFld (by simp) (regsBut_trans hphase (regsBut_of_regs rfl))

/-- Settles O15: by what bind-off drops, which leaves the phase, and by what its end writes. -/
theorem bindOffReachesBound : Obligations.BindOffReachesBound := by
  refine ⟨?_, ?_, ?_, ?_, ?_⟩
  · intro data d s htaken hask hphase
    have hpinned := s.beginBindOff_pinned false
    exact ⟨s.beginBindOff false, exec_bindOffRequest_of_taken htaken hask hphase, s.beginBindOff_phase false,
      by rw [hpinned.pins], by rw [hpinned.pins], hpinned.inReset, hpinned.power⟩
  · intro data d s htaken hask hphase hgraphs hupdates hpayloads hverifier hmover hqueued hactive himporting hsuspended hproblem
    have hidle : s.Idle := ⟨hgraphs, hupdates, hpayloads, hverifier, hmover, hqueued, hactive, himporting, hsuspended, hproblem⟩
    have hpower := (s.beginBindOff_pinned false).power
    exact ⟨s.beginBindOff false, exec_bindOffRequest_of_taken htaken hask hphase, s.beginBindOff_phase false,
      congrArg Power.transition hpower, congrArg Power.hibernateNext hpower, hidle.regsBut_beginBindOff false⟩
  · exact fun data s hphase => exec_bindOffRequest_of_not_running data hphase
  · exact fun s => exec_bindOffNandDrained_of_running
  · intro s halive hphase hdrained hended
    exact ⟨s.bound, exec_bindOffComplete_of_ended halive hphase hdrained hended, s.bound_phase, rfl, rfl, rfl,
      State.pend_raiseIbi _ (by decide), regsBut_bound s⟩

end Sys2Proof.Machine
end

section
/-!
PROOF. The operations of a stitch marker (R191 to R194, Table 5.5).
-/
-- One thread elaborates the file, as in Laws/: each further one takes a stack of its own.
set_option Elab.async false
open Sys2Proof

namespace Sys2Proof.Machine

section Rules

/-! ### The marker table -/

variable {s t u : State} {m a i g n : Nat}

theorem State.marker_setMarker_same (s : State) (m : Nat) (v : Marker) : (s.setMarker m v).marker m = v := by
  rw [State.marker_setMarker, if_pos rfl]

theorem State.marker_setMarker_other (s : State) (v : Marker) {k : Nat} (h : k ≠ m) : (s.setMarker m v).marker k = s.marker k := by
  rw [State.marker_setMarker, if_neg h]

/-- A marker that is read from the table of another state is that state's own. -/
theorem State.marker_congr (h : t.vis.markers = s.vis.markers) (k : Nat) : t.marker k = s.marker k :=
  congrArg (Store.get Marker.reset · k) h

theorem State.updAct_markers (s : State) (g : Nat) (f : Activation → Activation) : (s.updAct g f).vis.markers = s.vis.markers := by
  unfold State.updAct
  split <;> rfl

theorem State.updAct_answers (s : State) (g : Nat) (f : Activation → Activation) : (s.updAct g f).vis.answers = s.vis.answers := by
  unfold State.updAct
  split <;> rfl

/-- A graph without an activation has none to change. -/
theorem State.updAct_none {f : Activation → Activation} (h : (s.graph g).act = none) : s.updAct g f = s := by
  rw [State.updAct, h]

theorem State.node_none (h : (s.graph g).act = none) : s.node? g n = none := by
  rw [State.node?, h]

/-- An answer leaves the marker table alone: it reaches a node, or joins the list. -/
theorem State.answer_markers (s : State) (agent m gen : Nat) (x : MarkerAnswer) : (s.answer agent m gen x).vis.markers = s.vis.markers := by
  unfold State.answer
  split
  · exact s.updAct_markers _ _
  · rfl

/-- Answers join the list. -/
def State.addAnswers (s : State) (l : List (Nat × Nat × Nat × MarkerAnswer)) : State :=
  { s with vis := { s.vis with answers := s.vis.answers ++ l } }

theorem State.addAnswers_addAnswers (s : State) (l r : List (Nat × Nat × Nat × MarkerAnswer)) : (s.addAnswers l).addAnswers r = s.addAnswers (l ++ r) := by
  simp only [State.addAnswers, List.append_assoc]

/-- An agent that is no graph node hears its answer on the list. -/
theorem State.answer_of_agent {agent : Nat} (h : agent / 4096 ≠ 2) (m gen : Nat) (x : MarkerAnswer) :
    s.answer agent m gen x = s.addAnswers [(agent, m, gen, x)] := if_neg h

/-- A graph node hears its answer itself. -/
theorem State.answer_of_node {agent : Nat} (h : agent / 4096 = 2) (m gen : Nat) (x : MarkerAnswer) :
    (s.answer agent m gen x).vis.answers = s.vis.answers := by
  rw [State.answer, if_pos h]
  exact s.updAct_answers _ _

/-! ### What serving a marker's requests leaves -/

/-- In t marker m has the state, generation and progress of k, whoever reads or waits on it, and every other marker is as in s. -/
structure State.Serves (s : State) (m : Nat) (k : Marker) (t : State) : Prop where
  state : (t.marker m).state = k.state
  gen : (t.marker m).gen = k.gen
  progress : (t.marker m).progress = k.progress
  others : ∀ j, j ≠ m → t.marker j = s.marker j

variable {k : Marker}

theorem State.Serves.of_markers (h : s.Serves m k t) (e : u.vis.markers = t.vis.markers) : s.Serves m k u := by
  have hmarker := State.marker_congr e
  exact ⟨by rw [hmarker, h.state], by rw [hmarker, h.gen], by rw [hmarker, h.progress], fun j hj => by rw [hmarker, h.others j hj]⟩

theorem State.serves_setMarker (s : State) (m : Nat) (k : Marker) : s.Serves m k (s.setMarker m k) := by
  have hmarker := s.marker_setMarker_same m k
  exact ⟨congrArg Marker.state hmarker, congrArg Marker.gen hmarker, congrArg Marker.progress hmarker, fun _ => s.marker_setMarker_other k⟩

/-- A marker set with the same state, generation and progress. -/
theorem State.Serves.setMarker {x : Marker} (h : s.Serves m k t) (hstate : x.state = (t.marker m).state) (hgen : x.gen = (t.marker m).gen)
    (hprogress : x.progress = (t.marker m).progress) : s.Serves m k (t.setMarker m x) := by
  have hsame := t.marker_setMarker_same m x
  exact ⟨by rw [hsame, hstate, h.state], by rw [hsame, hgen, h.gen], by rw [hsame, hprogress, h.progress],
    fun j hj => by rw [t.marker_setMarker_other x hj, h.others j hj]⟩

theorem State.Serves.foldl {α : Type} {f : State → α → State} (hf : ∀ t x, s.Serves m k t → s.Serves m k (f t x)) (l : List α) (h : s.Serves m k t) :
    s.Serves m k (l.foldl f t) := List.foldlRecOn l f h fun t ht x _ => hf t x ht

/-- READERS alone changes where a slot reads. -/
theorem Marker.read_frame (k : Marker) (i : Nat) :
    (k.read i).state = k.state ∧ (k.read i).gen = k.gen ∧ (k.read i).progress = k.progress ∧ (k.read i).waiting = k.waiting := by
  unfold Marker.read
  split <;> exact ⟨rfl, rfl, rfl, rfl⟩

theorem State.Serves.acquireSlot {lines : Nat} (h : s.Serves m k t) : s.Serves m k (t.acquireSlot m i g lines) := by
  obtain ⟨hstate, hgen, hprogress, -⟩ := (t.marker m).read_frame i
  unfold State.acquireSlot
  dsimp only
  split
  · exact (h.setMarker hstate hgen hprogress).of_markers (State.answer_markers _ _ _ _ _)
  · exact h.of_markers (State.answer_markers _ _ _ _ _)
  · exact h.setMarker rfl rfl rfl

theorem State.Serves.settle (h : s.Serves m k t) : s.Serves m k (t.settle m) :=
  State.Serves.foldl (fun _ _ => State.Serves.acquireSlot) _ (h.setMarker rfl rfl rfl)

theorem State.Serves.updAct {f : Activation → Activation} (h : s.Serves m k t) : s.Serves m k (t.updAct g f) := h.of_markers (t.updAct_markers g f)

theorem State.Serves.updNode {f : NodeRun → NodeRun} (h : s.Serves m k t) : s.Serves m k (t.updNode g n f) := h.updAct

theorem State.Serves.acquireOp {lines : Nat} {u : State} (h : s.Serves m k t) (e : t.acquireOp m a g lines = some u) : s.Serves m k u := by
  unfold State.acquireOp at e
  split at e
  · exact Option.some.inj e ▸ h.acquireSlot
  · cases e

theorem State.stitchProto_vis (s : State) (m a : Nat) : (s.stitchProto m a).vis = s.vis := rfl

theorem State.Serves.fixAwaiting (h : s.Serves m k t) : s.Serves m k (t.fixAwaiting m g n i) := by
  unfold State.fixAwaiting
  dsimp only
  split
  · split
    · split
      · split
        · split
          · exact h.updNode
          · split
            · next e => exact h.updNode.acquireOp e
            · exact h.updNode.of_markers (congrArg Vision.markers (State.stitchProto_vis _ _ _))
        · exact h
      · exact h
    · exact h
  · exact h

theorem State.Serves.fixAwaitings (h : s.Serves m k t) : s.Serves m k (t.fixAwaitings m) :=
  State.Serves.foldl (fun _ _ hg => State.Serves.foldl (fun _ _ hn =>
    State.Serves.foldl (fun _ _ => State.Serves.fixAwaiting) _ hn) _ hg.updAct) _ h

/-- Where no graph has an activation nothing awaits a claim. -/
theorem State.fixAwaitings_of_no_activation (h : ∀ g, (s.graph g).act = none) (m : Nat) : s.fixAwaitings m = s := by
  have hinput : ∀ g n i, s.fixAwaiting m g n i = s := fun g n i => by simp only [State.fixAwaiting, State.node_none (h g)]
  refine foldl_fixed _ fun g => ?_
  have htrigger : s.fixTrigger m g = s := State.updAct_none (h g)
  simp only [htrigger]
  exact foldl_fixed _ fun n => foldl_fixed _ fun i => hinput g n i

/-- Without requests there is nothing to settle. -/
theorem State.settle_of_no_waiting (h : (s.marker m).waiting = []) : s.settle m = s.setMarker m (s.marker m) := by
  have hsame : { s.marker m with waiting := [] } = s.marker m := by rw [← h]
  simp only [State.settle, h, List.foldl_nil, hsame]

theorem State.marker_settle_of_no_waiting (h : (s.marker m).waiting = []) : (s.settle m).marker m = s.marker m := by
  rw [State.settle_of_no_waiting h, State.marker_setMarker_same]

/-- One request is asked again. -/
theorem State.settle_of_one_waiting {lines : Nat} (h : (s.marker m).waiting = [⟨i, g, lines⟩]) :
    s.settle m = (s.setMarker m { s.marker m with waiting := [] }).acquireSlot m i g lines := by
  simp only [State.settle, h, List.foldl_cons, List.foldl_nil]

/-! ### The operations that are accepted -/

/-- A CLAIM or a PUBLISH takes the next number of the marker operations. -/
def State.setNumbered (s : State) (m : Nat) (k : Marker) : State :=
  { s with vis := { s.vis with markers := (s.setMarker m k).vis.markers, order := s.vis.order + 1 } }

theorem State.marker_setNumbered_same (s : State) (m : Nat) (k : Marker) : (s.setNumbered m k).marker m = k := s.marker_setMarker_same m k

theorem State.serves_setNumbered (s : State) (m : Nat) (k : Marker) : s.Serves m k (s.setNumbered m k) := (s.serves_setMarker m k).of_markers rfl

/-- The marker after its ADVANCE to n lines; after its CLAIM and PUBLISH, n being the operation's number; and after its ABANDON. -/
def Marker.advance (k : Marker) (n : Nat) : Marker := { k with progress := min 65535 n }
def Marker.claim (k : Marker) (n : Nat) : Marker := { k with gen := (k.gen + 1) % 2 ^ 32, state := .writing, progress := 0, claimed := n }
def Marker.publish (k : Marker) (n : Nat) : Marker := { k with state := .published, published := n }
def Marker.abandon (k : Marker) : Marker := { k with state := .idle, readers := [], waiting := k.waiting.filter (fun w => w.gen != k.gen) }

theorem State.claimOp_accepted (hproducer : s.producer m = a) (hagent : a ≠ 0) (hclaimable : (s.marker m).claimable = true) :
    s.claimOp m a = some (((s.setNumbered m ((s.marker m).claim (s.vis.order + 1))).settle m).fixAwaitings m) :=
  if_pos ⟨hproducer, hagent, hclaimable⟩

theorem State.advanceOp_accepted (hproducer : s.producer m = a) (hagent : a ≠ 0) (hwriting : (s.marker m).state = .writing)
    (hprogress : (s.marker m).progress ≤ n) :
    s.advanceOp m a n = some ((s.setMarker m ((s.marker m).advance n)).settle m) :=
  if_pos ⟨hproducer, hagent, hwriting, hprogress⟩

theorem State.publishOp_accepted (hproducer : s.producer m = a) (hagent : a ≠ 0) (hwriting : (s.marker m).state = .writing) :
    s.publishOp m a = some (((s.setNumbered m ((s.marker m).publish (s.vis.order + 1))).settle m).offerImage m (s.marker m).gen) :=
  if_pos ⟨hproducer, hagent, hwriting⟩

/-- Every slot of a list hears that a generation is void. -/
def State.answerVoid (s : State) (m gen : Nat) (l : List Nat) : State := l.foldl (fun s i => s.answer (s.slotAgent m i) m gen .void) s

theorem State.answerVoid_markers (s : State) (m gen : Nat) (l : List Nat) : (s.answerVoid m gen l).vis.markers = s.vis.markers :=
  List.foldlRecOn (motive := fun t : State => t.vis.markers = s.vis.markers) l _ rfl fun t ht _ _ => (t.answer_markers _ _ _ _).trans ht

/-- Agents that are no graph nodes hear it in the order of their slots. -/
theorem State.answerVoid_of_agents {l : List Nat} (h : ∀ i ∈ l, s.slotAgent m i / 4096 ≠ 2) (gen : Nat) :
    s.answerVoid m gen l = s.addAnswers (l.map fun i => (s.slotAgent m i, m, gen, MarkerAnswer.void)) := by
  induction l generalizing s with
  | nil => simp [State.answerVoid, State.addAnswers]
  | cons i r ih =>
    obtain ⟨hi, hr⟩ := List.forall_mem_cons.mp h
    calc s.answerVoid m gen (i :: r)
      _ = (s.addAnswers [(s.slotAgent m i, m, gen, .void)]).answerVoid m gen r := by rw [← s.answer_of_agent hi]; rfl
      _ = (s.addAnswers [(s.slotAgent m i, m, gen, .void)]).addAnswers (r.map fun i => (s.slotAgent m i, m, gen, .void)) := ih hr
      _ = s.addAnswers ((i :: r).map fun i => (s.slotAgent m i, m, gen, .void)) := s.addAnswers_addAnswers _ _

theorem State.abandonOp_accepted (hproducer : s.producer m = a) (hagent : a ≠ 0) (hwriting : (s.marker m).state = .writing) :
    s.abandonOp m a = some ((s.setMarker m (s.marker m).abandon).answerVoid m (s.marker m).gen (s.marker m).interested) :=
  if_pos ⟨hproducer, hagent, hwriting⟩

/-- An image offered to the transmit streams changes nothing but the links. -/
theorem State.offerImage_links (s : State) (m gen : Nat) : ∃ l, s.offerImage m gen = { s with links := l } := by
  refine List.foldlRecOn (motive := fun t => ∃ l, t = { s with links := l }) _ _ ⟨s.links, rfl⟩ ?_
  rintro _ ⟨l, rfl⟩ x -
  dsimp only
  split
  · unfold State.offerNumbered
    dsimp only
    split <;> exact ⟨_, rfl⟩
  · exact ⟨l, rfl⟩

theorem State.slotAgent_of_slotOf (h : s.slotOf m a = some i) : s.slotAgent m i = a := by
  unfold State.slotOf at h
  split at h
  · cases h
  · have hfound := List.find?_some h
    exact beq_iff_eq.mp hfound

theorem State.acquireOp_slot (h : s.slotOf m a = some i) (g n : Nat) : s.acquireOp m a g n = some (s.acquireSlot m i g n) := by
  rw [State.acquireOp, h]

theorem State.releaseOp_accepted (h : s.slotOf m a = some i) (hread : (s.marker m).readers.contains i = true) :
    s.releaseOp m a = some (s.setMarker m { s.marker m with readers := (s.marker m).readers.filter (· != i) }) := by
  simp only [State.releaseOp, h, hread, if_true]

theorem State.holdOp_accepted (h : s.slotOf m a = some i) (hmay : s.mayHold m i = true) (hread : (s.marker m).readers.contains i = true)
    (hroom : (s.marker m).holds.length < 3) :
    s.holdOp m a = some (s.setMarker m { s.marker m with holds := (s.marker m).holds ++ [i] }) := by
  simp only [State.holdOp, h]
  exact if_pos ⟨hmay, hread, hroom⟩

theorem State.unholdOp_accepted (h : s.slotOf m a = some i) (hmay : s.mayHold m i = true) (hheld : (s.marker m).holds ≠ []) :
    s.unholdOp m a = some (s.setMarker m { s.marker m with holds := dropHold i (s.marker m).holds }) := by
  simp only [State.unholdOp, h]
  exact if_pos ⟨hmay, hheld⟩

theorem length_dropFirst_of_any {α : Type} {p : α → Bool} {l : List α} (h : l.any p = true) : (dropFirst p l).length + 1 = l.length := by
  induction l with
  | nil => cases h
  | cons x r ih =>
    by_cases hx : p x = true
    · simp [dropFirst, hx]
    · simpa [dropFirst, hx] using ih (by simpa [hx] using h)

/-- An UNHOLD drops one hold. -/
theorem length_dropHold {l : List Nat} (h : l ≠ []) (i : Nat) : (dropHold i l).length + 1 = l.length := by
  unfold dropHold
  split
  · next hmem => exact length_dropFirst_of_any (List.any_eq_true.mpr ⟨i, List.contains_iff_mem.mp hmem, beq_self_eq_true i⟩)
  · have := List.length_pos_iff.mpr h
    rw [List.length_dropLast]
    omega

theorem mem_insertBy {α : Type} (before : α → α → Bool) (x : α) (l : List α) : x ∈ insertBy before x l := by
  induction l with
  | nil => simp [insertBy]
  | cons y r ih =>
    unfold insertBy
    split
    · exact List.mem_cons_self
    · exact List.mem_cons_of_mem y ih

theorem Marker.read_contains (k : Marker) (i : Nat) : (k.read i).readers.contains i = true := by
  unfold Marker.read
  split
  · assumption
  · exact List.contains_iff_mem.mpr (mem_insertBy _ i _)

/-! ### What an ACQUIRE is answered -/

theorem Marker.judge_published {k : Marker} (h : k.state = .published) (n : Nat) : k.judge k.gen n = some .ready := if_pos ⟨rfl, .inl h⟩

theorem Marker.judge_reached {k : Marker} (h : k.state = .writing) (hreached : n ≤ k.progress) : k.judge k.gen n = some .ready :=
  if_pos ⟨rfl, .inr ⟨h, hreached⟩⟩

theorem Marker.judge_unreached {k : Marker} (h : k.state = .writing) (hahead : k.progress < n) : k.judge k.gen n = none := by
  simp [Marker.judge, h, hahead]

theorem Marker.judge_idle {k : Marker} (h : k.state = .idle) (n : Nat) : k.judge k.gen n = some .gone := by
  simp [Marker.judge, h]

theorem Marker.judge_older {k : Marker} (h : g < k.gen) (n : Nat) : k.judge g n = some .gone := by
  have hne : k.gen ≠ g := Nat.ne_of_gt h
  simp only [Marker.judge, hne, h, false_and, if_false, true_or, if_true]

theorem Marker.judge_newer {k : Marker} (h : k.gen < g) (n : Nat) : k.judge g n = none := by
  have hne : k.gen ≠ g := Nat.ne_of_lt h
  have hnot : ¬ g < k.gen := Nat.not_lt_of_gt h
  simp only [Marker.judge, hne, hnot, false_and, or_self, if_false]

theorem State.acquireSlot_ready (h : (s.marker m).judge g n = some .ready) :
    s.acquireSlot m i g n = (s.setMarker m ((s.marker m).read i)).answer (s.slotAgent m i) m g .ready := by
  simp only [State.acquireSlot, h]

theorem State.acquireSlot_gone (h : (s.marker m).judge g n = some .gone) : s.acquireSlot m i g n = s.answer (s.slotAgent m i) m g .gone := by
  simp only [State.acquireSlot, h]

theorem State.acquireSlot_waits (h : (s.marker m).judge g n = none) :
    s.acquireSlot m i g n = s.setMarker m { s.marker m with waiting := (s.marker m).waiting ++ [⟨i, g, n⟩] } := by
  simp only [State.acquireSlot, h]

/-- A request that is now met is answered READY, and no longer waits (R193). -/
theorem State.settle_ready (hwaiting : (s.marker m).waiting = [⟨i, g, n⟩]) (hready : (s.marker m).judge g n = some .ready)
    (hagent : s.slotAgent m i / 4096 ≠ 2) :
    (s.settle m).marker m = Marker.read { s.marker m with waiting := [] } i ∧
      (s.settle m).vis.answers = s.vis.answers ++ [(s.slotAgent m i, m, g, .ready)] := by
  have hmarker := s.marker_setMarker_same m { s.marker m with waiting := [] }
  have hanswer := State.answer_of_agent
    (s := (s.setMarker m { s.marker m with waiting := [] }).setMarker m (Marker.read { s.marker m with waiting := [] } i)) hagent m g .ready
  rw [State.settle_of_one_waiting hwaiting, State.acquireSlot_ready (by rw [hmarker]; exact hready), hmarker]
  exact ⟨(State.marker_congr (State.answer_markers _ _ _ _ _) m).trans (State.marker_setMarker_same _ _ _),
    congrArg (fun t : State => t.vis.answers) hanswer⟩

/-! ### Operations that are not accepted -/

theorem State.claimOp_refused (h : ¬ (s.producer m = a ∧ a ≠ 0 ∧ (s.marker m).claimable = true)) : s.claimOp m a = none := if_neg h

theorem State.advanceOp_refused (h : ¬ (s.producer m = a ∧ a ≠ 0 ∧ (s.marker m).state = .writing ∧ (s.marker m).progress ≤ n)) :
    s.advanceOp m a n = none := if_neg h

theorem State.publishOp_refused (h : ¬ (s.producer m = a ∧ a ≠ 0 ∧ (s.marker m).state = .writing)) : s.publishOp m a = none := if_neg h

theorem State.abandonOp_refused (h : ¬ (s.producer m = a ∧ a ≠ 0 ∧ (s.marker m).state = .writing)) : s.abandonOp m a = none := if_neg h

/-- An agent without a slot is no consumer of the marker. -/
theorem State.consumer_refused (h : s.slotOf m a = none) (g n : Nat) :
    s.acquireOp m a g n = none ∧ s.releaseOp m a = none ∧ s.holdOp m a = none ∧ s.unholdOp m a = none := by
  simp only [State.acquireOp, State.releaseOp, State.holdOp, State.unholdOp, h, and_self]

theorem State.releaseOp_refused (h : s.slotOf m a = some i) (hread : (s.marker m).readers.contains i = false) : s.releaseOp m a = none := by
  simp only [State.releaseOp, h, hread, Bool.false_eq_true, if_false]

theorem State.holdOp_refused (h : s.slotOf m a = some i)
    (hbar : s.mayHold m i = false ∨ (s.marker m).readers.contains i = false ∨ 3 ≤ (s.marker m).holds.length) : s.holdOp m a = none := by
  simp only [State.holdOp, h]
  refine if_neg fun ⟨hmay, hread, hroom⟩ => ?_
  rcases hbar with hbar | hbar | hbar
  · exact Bool.false_ne_true (hbar.symm.trans hmay)
  · exact Bool.false_ne_true (hbar.symm.trans hread)
  · omega

theorem State.unholdOp_refused (h : s.slotOf m a = some i) (hbar : s.mayHold m i = false ∨ (s.marker m).holds = []) : s.unholdOp m a = none := by
  simp only [State.unholdOp, h]
  refine if_neg fun ⟨hmay, hheld⟩ => ?_
  rcases hbar with hbar | hbar
  · exact Bool.false_ne_true (hbar.symm.trans hmay)
  · exact hheld hbar

/-- An operation that is not accepted counts in STITCH_ERR and is reported, and does nothing else (R194). -/
theorem State.stitchProto_reports (s : State) (m a : Nat) :
    (s.stitchProto m a).fld fld_STITCH_ERR_PROTO = min (2 ^ fld_STITCH_ERR_PROTO.width - 1) (s.fld fld_STITCH_ERR_PROTO + 1) ∧
    RegsBut [fld_STITCH_ERR_PROTO] s (s.stitchProto m a) ∧
    s.stitchProto m a = { s with
      regs := (s.stitchProto m a).regs
      integ := { s.integ with flits := s.integ.flits ++ [.report ⟨6, 8, BitVec.ofNat 32 (m + a * 2 ^ 16), s.stamp⟩] } } :=
  ⟨s.fld_addSat_same 1 (by decide) (by decide +kernel), regsBut_addSat (by simp) (regsBut_refl _ s), rfl⟩

/-! ### The commands -/

section Commands

variable {q : Fin 4096} {b : BitVec 16} {c : Instr} {r : Option State}

theorem exec_claim_running (h : s.swatchRuns 8 = true) : exec (.claim q b) s = .next (s.orProto q b.toNat (s.claimOp q b.toNat)) := if_pos h
theorem exec_advance_running (h : s.swatchRuns 8 = true) : exec (.advance q b n) s = .next (s.orProto q b.toNat (s.advanceOp q b.toNat n)) := if_pos h
theorem exec_publish_running (h : s.swatchRuns 8 = true) : exec (.publish q b) s = .next (s.orProto q b.toNat (s.publishOp q b.toNat)) := if_pos h
theorem exec_abandon_running (h : s.swatchRuns 8 = true) : exec (.abandon q b) s = .next (s.orProto q b.toNat (s.abandonOp q b.toNat)) := if_pos h
theorem exec_acquire_running (h : s.swatchRuns 8 = true) : exec (.acquire q b g n) s = .next (s.orProto q b.toNat (s.acquireOp q b.toNat g n)) := if_pos h
theorem exec_release_running (h : s.swatchRuns 8 = true) : exec (.release q b) s = .next (s.orProto q b.toNat (s.releaseOp q b.toNat)) := if_pos h
theorem exec_hold_running (h : s.swatchRuns 8 = true) : exec (.hold q b) s = .next (s.orProto q b.toNat (s.holdOp q b.toNat)) := if_pos h
theorem exec_unhold_running (h : s.swatchRuns 8 = true) : exec (.unhold q b) s = .next (s.orProto q b.toNat (s.unholdOp q b.toNat)) := if_pos h

theorem exec_of_accepted (hexec : exec c s = .next (s.orProto m a r)) (h : r = some t) : exec c s = .next t := by
  rw [hexec, h]
  rfl

theorem exec_of_refused (hexec : exec c s = .next (s.orProto m a r)) (h : r = none) : exec c s = .next (s.stitchProto m a) := by
  rw [hexec, h]
  rfl

theorem exec_acquire_slot (hruns : s.swatchRuns 8 = true) (hslot : s.slotOf q b.toNat = some i) :
    exec (.acquire q b g n) s = .next (s.acquireSlot q i g n) :=
  exec_of_accepted (exec_acquire_running hruns) (State.acquireOp_slot hslot g n)

/-- An agent that is no graph node and is answered READY. -/
theorem exec_acquire_ready (hruns : s.swatchRuns 8 = true) (hslot : s.slotOf q b.toNat = some i) (hagent : b.toNat / 4096 ≠ 2)
    (hready : (s.marker q).judge g n = some .ready) :
    exec (.acquire q b g n) s = .next ((s.setMarker q ((s.marker q).read i)).addAnswers [(b.toNat, q, g, .ready)]) := by
  rw [exec_acquire_slot hruns hslot, State.acquireSlot_ready hready, State.slotAgent_of_slotOf hslot, State.answer_of_agent hagent]

/-- One that is answered GONE. -/
theorem exec_acquire_gone (hruns : s.swatchRuns 8 = true) (hslot : s.slotOf q b.toNat = some i) (hagent : b.toNat / 4096 ≠ 2)
    (hgone : (s.marker q).judge g n = some .gone) : exec (.acquire q b g n) s = .next (s.addAnswers [(b.toNat, q, g, .gone)]) := by
  rw [exec_acquire_slot hruns hslot, State.acquireSlot_gone hgone, State.slotAgent_of_slotOf hslot, State.answer_of_agent hagent]

/-- One that waits. -/
theorem exec_acquire_waits (hruns : s.swatchRuns 8 = true) (hslot : s.slotOf q b.toNat = some i) (hwaits : (s.marker q).judge g n = none) :
    exec (.acquire q b g n) s = .next (s.setMarker q { s.marker q with waiting := (s.marker q).waiting ++ [⟨i, g, n⟩] }) := by
  rw [exec_acquire_slot hruns hslot, State.acquireSlot_waits hwaits]

end Commands

end Rules

/-- Settles O44: each operation by what it does where the marker accepts it, and by the one report where it does not. -/
theorem markerOperationsFollowTheTable : Obligations.MarkerOperationsFollowTheTable := by
  refine ⟨?_, ?_, ?_, ?_, ?_, ?_, ?_, ?_, ?_, ?_, ?_, ?_, ?_, ?_, ?_, ?_, ?_, ?_, ?_, ?_, ?_⟩
  -- CLAIM by the producer.
  · intro m a s hruns hproducer hagent hclaimable
    have hmarker := s.marker_setNumbered_same m ((s.marker m).claim (s.vis.order + 1))
    have hserves := (s.serves_setNumbered m ((s.marker m).claim (s.vis.order + 1))).settle.fixAwaitings
    refine ⟨_, exec_of_accepted (exec_claim_running hruns) (State.claimOp_accepted hproducer (BitVec.toNat_ne.mp hagent) hclaimable),
      hserves.state, hserves.gen, hserves.progress, hserves.others, fun hwaiting hidle => ?_⟩
    have hnone := (congrArg Marker.waiting hmarker).trans hwaiting
    have hsettled := State.settle_of_no_waiting hnone
    have hfixed := State.fixAwaitings_of_no_activation (s := State.settle _ m) (by rw [hsettled]; exact hidle) m
    rw [hfixed]
    exact ⟨(State.marker_settle_of_no_waiting hnone).trans hmarker, by rw [hsettled]; rfl⟩
  -- ADVANCE by the producer.
  · intro m a n s hruns hproducer hagent hwriting hprogress
    have hmarker := s.marker_setMarker_same m ((s.marker m).advance n)
    have hserves := (s.serves_setMarker m ((s.marker m).advance n)).settle
    refine ⟨_, exec_of_accepted (exec_advance_running hruns) (State.advanceOp_accepted hproducer (BitVec.toNat_ne.mp hagent) hwriting hprogress),
      hserves.progress, hserves.gen, hserves.state.trans hwriting, hserves.others, fun hwaiting => ?_⟩
    have hnone := (congrArg Marker.waiting hmarker).trans hwaiting
    exact ⟨(State.marker_settle_of_no_waiting hnone).trans hmarker, by rw [State.settle_of_no_waiting hnone]; rfl⟩
  -- PUBLISH by the producer.
  · intro m a s hruns hproducer hagent hwriting
    have hmarker := s.marker_setNumbered_same m ((s.marker m).publish (s.vis.order + 1))
    have hserves := (s.serves_setNumbered m ((s.marker m).publish (s.vis.order + 1))).settle
    obtain ⟨l, hoffered⟩ := ((s.setNumbered m ((s.marker m).publish (s.vis.order + 1))).settle m).offerImage_links m (s.marker m).gen
    refine ⟨_, exec_of_accepted (exec_publish_running hruns) (State.publishOp_accepted hproducer (BitVec.toNat_ne.mp hagent) hwriting), ?_⟩
    rw [hoffered]
    refine ⟨hserves.state, hserves.gen, hserves.others, fun hwaiting => ?_⟩
    have hnone := (congrArg Marker.waiting hmarker).trans hwaiting
    exact ⟨(State.marker_settle_of_no_waiting hnone).trans hmarker, by rw [State.settle_of_no_waiting hnone]; rfl⟩
  -- ABANDON by the producer.
  · intro m a s hruns hproducer hagent hwriting
    have hmarker := State.marker_congr (State.answerVoid_markers (s.setMarker m (s.marker m).abandon) m (s.marker m).gen (s.marker m).interested)
    refine ⟨_, exec_of_accepted (exec_abandon_running hruns) (State.abandonOp_accepted hproducer (BitVec.toNat_ne.mp hagent) hwriting),
      (hmarker m).trans (s.marker_setMarker_same m _), fun k hk => (hmarker k).trans (s.marker_setMarker_other _ hk), fun hnone => ?_⟩
    rw [hnone]
    rfl
  -- ACQUIRE of a published generation.
  · exact fun m a i n s hruns hslot hagent hpublished =>
      ⟨_, exec_acquire_ready hruns hslot hagent (Marker.judge_published hpublished n), s.marker_setMarker_same m _,
        (congrArg (fun k : Marker => k.readers.contains i) (s.marker_setMarker_same m _)).trans (Marker.read_contains _ i), rfl,
        fun k hk => s.marker_setMarker_other _ hk, rfl⟩
  -- ACQUIRE of an earlier generation.
  · exact fun m a i g n s hruns hslot hagent hgen => exec_acquire_gone hruns hslot hagent (Marker.judge_older hgen n)
  -- ACQUIRE of a generation to come.
  · exact fun m a i g n s hruns hslot hgen =>
      ⟨_, exec_acquire_waits hruns hslot (Marker.judge_newer hgen n), s.marker_setMarker_same m _, fun k hk => s.marker_setMarker_other _ hk, rfl⟩
  -- RELEASE by a reader.
  · exact fun m a i s hruns hslot hread =>
      ⟨_, exec_of_accepted (exec_release_running hruns) (State.releaseOp_accepted hslot hread), s.marker_setMarker_same m _,
        fun k hk => s.marker_setMarker_other _ hk, rfl⟩
  -- HOLD by a reader.
  · intro m a i s hruns hslot hread hmay hroom
    have hmarker := s.marker_setMarker_same m { s.marker m with holds := (s.marker m).holds ++ [i] }
    refine ⟨_, exec_of_accepted (exec_hold_running hruns) (State.holdOp_accepted hslot hmay hread hroom), hmarker, ?_,
      fun k hk => s.marker_setMarker_other _ hk, rfl⟩
    rw [hmarker, List.length_append, List.length_singleton]
    exact hroom
  -- UNHOLD.
  · intro m a i s hruns hslot hmay hheld
    have hmarker := s.marker_setMarker_same m { s.marker m with holds := dropHold i (s.marker m).holds }
    refine ⟨_, exec_of_accepted (exec_unhold_running hruns) (State.unholdOp_accepted hslot hmay hheld), ?_, ?_,
      fun k hk => s.marker_setMarker_other _ hk, rfl⟩
    · rw [hmarker]
      exact length_dropHold hheld i
    · rw [hmarker]
  -- An agent that is not the producer.
  · exact fun m a n s hruns hother =>
      ⟨_, exec_of_refused (exec_claim_running hruns) (State.claimOp_refused fun h => hother h.1),
        exec_of_refused (exec_advance_running hruns) (State.advanceOp_refused fun h => hother h.1),
        exec_of_refused (exec_publish_running hruns) (State.publishOp_refused fun h => hother h.1),
        exec_of_refused (exec_abandon_running hruns) (State.abandonOp_refused fun h => hother h.1), s.stitchProto_reports m a.toNat⟩
  -- An agent without a slot.
  · intro m a g n s hruns hslot
    obtain ⟨hacquire, hrelease, hhold, hunhold⟩ := State.consumer_refused hslot g n
    exact ⟨_, exec_of_refused (exec_acquire_running hruns) hacquire, exec_of_refused (exec_release_running hruns) hrelease,
      exec_of_refused (exec_hold_running hruns) hhold, exec_of_refused (exec_unhold_running hruns) hunhold, s.stitchProto_reports m a.toNat⟩
  -- ACQUIRE of lines that are there.
  · exact fun m a i n s hruns hslot hagent hwriting hreached =>
      ⟨_, exec_acquire_ready hruns hslot hagent (Marker.judge_reached hwriting hreached), s.marker_setMarker_same m _, rfl,
        fun k hk => s.marker_setMarker_other _ hk, rfl⟩
  -- ACQUIRE of a generation whose marker is idle.
  · exact fun m a i n s hruns hslot hagent hidle => exec_acquire_gone hruns hslot hagent (Marker.judge_idle hidle n)
  -- ACQUIRE of lines to come.
  · exact fun m a i n s hruns hslot hwriting hahead =>
      ⟨_, exec_acquire_waits hruns hslot (Marker.judge_unreached hwriting hahead), s.marker_setMarker_same m _,
        fun k hk => s.marker_setMarker_other _ hk, rfl⟩
  -- ACQUIRE by a graph node.
  · intro m a i n s hruns hslot hnode hpublished
    have hexec := exec_acquire_slot (g := (s.marker m).gen) (n := n) hruns hslot
    rw [State.acquireSlot_ready (Marker.judge_published hpublished n), State.slotAgent_of_slotOf hslot] at hexec
    have hmarker := State.marker_congr (State.answer_markers (s.setMarker m ((s.marker m).read i)) a.toNat m (s.marker m).gen .ready)
    exact ⟨_, hexec, (hmarker m).trans (s.marker_setMarker_same m _), State.answer_of_node hnode m _ _,
      fun k hk => (hmarker k).trans (s.marker_setMarker_other _ hk)⟩
  -- ADVANCE to the lines that a request waits for.
  · intro m a i n p s hruns hproducer hagent hwriting hprogress hreached hp hwaiting hslotAgent
    have hmarker := s.marker_setMarker_same m ((s.marker m).advance p)
    have hready : ((s.marker m).advance p).judge (s.marker m).gen n = some .ready :=
      Marker.judge_reached hwriting (Nat.le_min.mpr ⟨Nat.le_trans hreached hp, hreached⟩)
    obtain ⟨hserved, hanswers⟩ :=
      State.settle_ready ((congrArg Marker.waiting hmarker).trans hwaiting) (by rw [hmarker]; exact hready) hslotAgent
    obtain ⟨-, -, -, hnone⟩ := Marker.read_frame { (s.setMarker m ((s.marker m).advance p)).marker m with waiting := [] } i
    exact ⟨_, exec_of_accepted (exec_advance_running hruns) (State.advanceOp_accepted hproducer (BitVec.toNat_ne.mp hagent) hwriting hprogress),
      (congrArg Marker.waiting hserved).trans hnone, by rw [hserved]; exact Marker.read_contains _ i, hanswers⟩
  -- ABANDON of a generation that consumers hold or wait on.
  · intro m a s hruns hproducer hagent hwriting hagents
    refine ⟨_, exec_of_accepted (exec_abandon_running hruns) (State.abandonOp_accepted hproducer (BitVec.toNat_ne.mp hagent) hwriting), ?_⟩
    have hvoid := State.answerVoid_of_agents (s := s.setMarker m (s.marker m).abandon) hagents (s.marker m).gen
    rw [hvoid]
    exact ⟨rfl, rfl⟩
  -- A producer's operation that the marker does not accept.
  · intro m a c n s hruns hrefused
    refine ⟨s.stitchProto m a.toNat, ?_, s.stitchProto_reports m a.toNat⟩
    rcases hrefused with ⟨rfl, h⟩ | ⟨rfl, h⟩ | ⟨rfl, h⟩ | ⟨rfl, h⟩
    · exact exec_of_refused (exec_claim_running hruns) (State.claimOp_refused fun hc => Bool.false_ne_true (h.symm.trans hc.2.2))
    · exact exec_of_refused (exec_advance_running hruns) (State.advanceOp_refused fun ⟨_, _, hwriting, hle⟩ => h.elim (· hwriting) (Nat.not_lt_of_le hle))
    · exact exec_of_refused (exec_publish_running hruns) (State.publishOp_refused fun ⟨_, _, hwriting⟩ => h hwriting)
    · exact exec_of_refused (exec_abandon_running hruns) (State.abandonOp_refused fun ⟨_, _, hwriting⟩ => h hwriting)
  -- A consumer's operation that the marker does not accept.
  · intro m a i c s hruns hslot hrefused
    refine ⟨s.stitchProto m a.toNat, ?_, s.stitchProto_reports m a.toNat⟩
    rcases hrefused with ⟨rfl, h⟩ | ⟨rfl, h⟩ | ⟨rfl, h⟩
    · exact exec_of_refused (exec_release_running hruns) (State.releaseOp_refused hslot h)
    · exact exec_of_refused (exec_hold_running hruns) (State.holdOp_refused hslot h)
    · exact exec_of_refused (exec_unhold_running hruns) (State.unholdOp_refused hslot h)
  -- FRAME not running.
  · intro m a g n s hstopped
    have hstop : ¬ s.swatchRuns 8 = true := by rw [hstopped]; exact Bool.false_ne_true
    exact ⟨if_neg hstop, if_neg hstop, if_neg hstop, if_neg hstop, if_neg hstop, if_neg hstop, if_neg hstop, if_neg hstop⟩

end Sys2Proof.Machine
end

section
/-!
PROOF. Lines stored over SRAM words that the selvedge has marked uncorrectable: writing such a word whole makes it good again (R328).
-/
-- One thread elaborates the file, as in Laws/: each further one takes a stack of its own.
set_option Elab.async false
open Sys2Proof

namespace Sys2Proof.Machine

/-- A line that is used and has its place in the frame is stored there. -/
theorem exec_csiLongPacket_of_stored {p : Fin 12} {vc : Fin 16} {n : Nat} {b : List Byte} {f : RxFrame} {s : State}
    (hport : s.portReceives p = true) (hstream : s.streamAt p vc = some n) (hclaims : s.commandClaims p vc = false)
    (hframe : (s.stream n).frame = some f) :
    exec (.csiLongPacket p vc (s.streamDt n) .clean b true) s = .next (s.storeLine n f b) := by
  show execCsiLongPacket p vc (s.streamDt n) .clean b true s = _
  simp [execCsiLongPacket, State.takeHeader, hport, hstream, hclaims, hframe]

/-- What a line with its place in the frame leaves of the marks: the words it covers whole are good. -/
theorem State.storeLine_sramBad {s : State} {n : Nat} {f : RxFrame} {b : List Byte} (hwidth : b.length ≤ wireBytes (s.streamDt n) (s.streamWidth n))
    (hlines : f.lines < s.streamHeight n) (hadvance : (f.lines + 1) % 16 ≠ 0) :
    (s.storeLine n f b).sramBad = healWords s.sramBad frameSwatch frameStore (s.rawBase n f.set + f.lines * s.rawStride n)
      (storedLine (s.streamDt n) b).length := by
  have hroom : ¬ (wireBytes (s.streamDt n) (s.streamWidth n) < b.length ∨ s.streamHeight n ≤ f.lines) := by omega
  simp only [State.storeLine, if_neg hroom, if_neg hadvance]
  rfl

/-- A mark is gone once its word is written whole. -/
theorem healWords_covered (swatch object w : Nat) :
    healWords [(sramKey swatch (Config.sramWord swatch object w), .ue)] swatch object (32 * w) 32 = [] := by
  have hwords : wholeWords (32 * w) 32 = [w] := by simp [wholeWords, wordsIn, ceilDiv]
  simp [healWords, hwords, Store.set, Store.drop]

/-- A frame with no line yet. -/
def RxFrame.begun : RxFrame := ⟨0, 1, 7, 7, 0, 0⟩

/-- Stream 0 receives a RAW8 frame of two lines of 32 pixels in its first set, at port 0. Its first line will lie 4096 bytes into the frame store, in a word
that is uncorrectable. -/
def State.markedFrame : State :=
  { (((((({ State.reset with sw := { Swatches.reset with inReset := 0 } }.setFlag fld_SYS_LOCK_LOCKED true).setFlag (fld_CSI_RX_CFG_ENABLE 0) true).setFlag
      (fld_STREAM_CFG_ENABLE 0) true).setFld (fld_STREAM_CFG_DT 0) 0x2A).setFld (fld_STREAM_GEOM_WIDTH 0) 32).setFld (fld_STREAM_GEOM_HEIGHT 0) 2).setStream 0
        { Stream.reset with frame := some RxFrame.begun, order := [0] } with
    sramBad := [(sramKey frameSwatch (Config.sramWord frameSwatch frameStore 128), .ue)] }

theorem State.markedFrame_receives : markedFrame.portReceives (0 : Fin 12) = true ∧ markedFrame.streamAt (0 : Fin 12) (0 : Fin 16) = some 0 ∧
    markedFrame.commandClaims (0 : Fin 12) (0 : Fin 16) = false ∧ markedFrame.streamDt 0 = 0x2A ∧
    (markedFrame.stream 0).frame = some RxFrame.begun ∧ markedFrame.streamWidth 0 = 32 ∧ 0 < markedFrame.streamHeight 0 := by
  decide +kernel

theorem State.markedFrame_place : markedFrame.rawBase 0 RxFrame.begun.set + RxFrame.begun.lines * markedFrame.rawStride 0 = 32 * 128 := by decide +kernel

/-- Refutes O45: the clause for a stored line has nothing of the block change but the frame store's bytes and the stream. Where a word that the line
covers whole is marked uncorrectable, the mark goes too (R328). -/
theorem not_cameraFramesFollowTheirPackets : ¬ Obligations.CameraFramesFollowTheirPackets := by
  rintro ⟨-, -, hline, -⟩
  obtain ⟨hport, hstream, hclaims, hdt, hframe, hwidth, hheight⟩ := State.markedFrame_receives
  have hroom : (List.replicate 32 (0 : Byte)).length ≤ wireBytes (State.markedFrame.streamDt 0) (State.markedFrame.streamWidth 0) := by
    rw [hdt, hwidth]; decide
  obtain ⟨t, ht, -, hrest, -⟩ := hline 0 0 _ (List.replicate 32 0) 0 RxFrame.begun State.markedFrame hport hstream
    (fun h => absurd (hclaims.symm.trans h) Bool.false_ne_true) rfl hframe hroom hheight (by decide)
  have hstored : State.markedFrame.storeLine 0 RxFrame.begun (List.replicate 32 0) = t :=
    Host.Outcome.next.inj ((exec_csiLongPacket_of_stored hport hstream hclaims hframe).symm.trans ht)
  have hkept : t.sramBad = State.markedFrame.sramBad := (congrArg State.sramBad hrest).trans rfl
  have hheals := State.storeLine_sramBad (f := RxFrame.begun) hroom hheight (by decide)
  rw [hstored, hkept, hdt, State.markedFrame_place] at hheals
  exact absurd (hheals.trans (healWords_covered frameSwatch frameStore 128)) (List.cons_ne_nil _ _)

end Sys2Proof.Machine
end
